-- ==== Sys2Proof/Word.lean ====
section
/-! DEFINITION. The word types: a register or an element is 64 bits, memory is bytes (00_scope R11). -/

namespace Sys2Proof

/-- A 64-bit element, register value or operand (03 R68). A 32-bit register uses its low half. -/
abbrev Word := BitVec 64

/-- The smallest addressable unit of device memory. -/
abbrev Byte := BitVec 8

end Sys2Proof
end

