-- ==== Sys2Proof/Syntax.lean ====
section
/-! DEFINITION. The commands of the chip: one constructor per row of the table of operations and events, with what
the command carries. A fact that the outside world decides (an error that strikes a memory, a host's answer, the
outcome of a check the spec leaves to a published standard) is carried by the command. -/

namespace Sys2Proof

/-- A master of the NoC: its MID and OID (01, 09 MEM-2), and whether the access came as a PCIe write (00 R14). -/
structure Mst where
  mid : Nat
  oid : Nat
  pcie : Bool
  deriving DecidableEq, Repr

/-- Whether a master acts for the device owner. -/
def Mst.owner (m : Mst) : Bool := m.oid == 0

/-- One access: who, where, how wide, read or write, the data of a write. -/
structure Access where
  m : Mst
  addr : Nat
  size : Nat
  write : Bool
  data : Nat
  deriving DecidableEq, Repr

/-- What the power manager measures in a tick (19 R534, PWR-6): P_w, the mean of the power estimate over the last 16
ticks, in W; the current of VDD_ARRAY in A; the PL_LONG and PL_SHORT averages in W. -/
structure TickIn where
  watts : Nat
  amps : Nat
  plong : Nat
  pshort : Nat
  deriving DecidableEq, Repr

/-- The stores of a tile that carry ECC. -/
inductive Store where
  | ctx | sw | seqw | tmem
  deriving DecidableEq, Repr

/-- A bit error that strikes a stored word in this cycle: one bit, or more than the code corrects. `cell` is the cell
of a context entry, the bank of a tile-memory word, and unused otherwise; `idx` the index or the word. -/
structure Upset where
  store : Store
  tile : Nat
  cell : Nat
  idx : Nat
  double : Bool
  syn : Nat
  deriving DecidableEq, Repr

/-- What the tests of bridge training find (07 R209): the forwarded clocks locked with their phase in range, the logical
wires and the spares that fail the PRBS test per direction, and the same for the NoC sub-link. -/
structure BridgeTest where
  clkOk : Bool
  fail0 : List Nat
  fail1 : List Nat
  bad0 : List Nat
  bad1 : List Nat
  nslOk : Bool
  nsl0 : List Nat
  nsl1 : List Nat
  deriving DecidableEq, Repr

/-- A flit of a NoC sub-link (07 LEAP-9): virtual channel, TYPE (1 head, 2 body, 3 tail), 256 bits. -/
structure NslFlit where
  vc : Nat
  type : Nat
  flit : Nat
  deriving DecidableEq, Repr


/-- The error that an HBM request meets (09 R263, R265): none, a corrected or an uncorrectable word of HBM, a corrected
or an uncorrectable word of the stream-cache line that it hits. -/
inductive HbmErr where
  | none | ce | ue | lineCe | lineUe
  deriving DecidableEq, Repr

/-- The kind of an access of a core. -/
inductive AccKind where
  | fetch | load | store | amo
  deriving DecidableEq, Repr

/-- An access of a core: its kind, core address, size in bytes, the register that a load or an AMO writes, whether the loaded
value is sign-extended, and the value stored (of an AMO: what its operation leaves). -/
structure CoreAcc where
  kind : AccKind
  addr : Nat
  size : Nat
  rd : Nat
  signed : Bool
  value : Nat
  deriving DecidableEq, Repr

/-- What a core executes that may raise a synchronous exception (11 R302, R309, R322, R332): an exception of the RISC-V
specification with its code and mtval, an access with the error that its home bank finds, a word of the custom-0 opcode, an
instruction of an extension that CORE-1 leaves out, WFI. -/
inductive CoreAct where
  | raise (cause : Nat) (tval : Nat)
  | access (a : CoreAcc) (e : HbmErr)
  | custom (w : Nat)
  | leftOut
  | wfi
  deriving DecidableEq, Repr

/-- What comes back for a host request (13 R362, R363): nothing of the kind, data, a completion timeout, poisoned data
or failed ECRC, Unsupported Request or Completer Abort. -/
inductive HostAns where
  | none
  | data (v : Nat)
  | timeout
  | poison
  | error
  deriving DecidableEq, Repr

/-- The watermarks of the chip (12 R347): a tile's and a cluster's corrected errors, a slice's ready and delay lists, a
home bank's corrected words, a queue pair's ring, a media completion ring. -/
inductive WmName where
  | tmem | ctx | ready | delay | bank | pair | ring
  deriving DecidableEq, Repr

/-- A configuration request of a host (13 R361, R371): the Command register's Bus Master Enable and Memory Space Enable,
the MSI-X control bits, VF Enable with NumVFs of a PF, MPS and MRRS of Device Control, the timeout of Device Control 2, a
write of 1s to AER error status, a BAR (0 to 5, a PF's VF BARs as 6 to 11: the low or high dword), a write of another
register, a read of a dword of the header, a read of a dword of a capability by its ID (extended or not). -/
inductive CfgOp where
  | command (bme mse : Bool)
  | msix (en mask : Bool)
  | sriov (vfEn : Bool) (numVfs : Nat)
  | devctl (mps mrrs : Nat)
  | devctl2 (cto : Nat)
  | aer (clear : Nat)
  | bar (n v : Nat)
  | other (dword v : Nat)
  | read (dword : Nat)
  | cap (ext : Bool) (id off : Nat)
  deriving DecidableEq, Repr

/-- What a boot finds outside the model (18 R504, R506): the always-on self-check, the fuses, which sources return
uncorrectable data in the order Q0 A, Q0 B, Q3 A, Q3 B, SPI0, and what the flash on SPI0 holds from address 0. -/
structure BootIn where
  selftest : Bool
  fuses : Bool
  unread : List Bool
  spi : List Byte
  deriving DecidableEq, Repr

/-- A section of the boot image as stage 7 reads it (18 R502, R506): whether a read of it returns uncorrectable data, and, of
an image on SPI0, what the flash there returns. -/
structure SecIn where
  unread : Bool
  spi : List Byte
  deriving DecidableEq, Repr

/-- The commands, in the order of the table. -/
inductive Instr where
  /-- REGISTER_WRITE (R14): A write to a register that has no row of its own acts as its access code states (RW, W1C, W1S, RWL, RSV), with reserved encodings handled per field. -/
  | registerWrite (a : Access)
  /-- TICK_EDGE (R30): At each tick edge TICK advances; events are sampled, the skip decision is made and round-boundary actions take effect. -/
  | tickEdge (inp : TickIn)
  /-- EXECUTED_CYCLE (R94): In an executed ACLK cycle every tile executes its context index k for the slot that owns k, if its frame phase enables it. -/
  | executedCycle (ups : List Upset)
  /-- FRAME_ADMISSION (R47): At a round boundary a slot holding a handed NODE admits a frame once its FIFO levels meet the declarations; CSAT and EOS are cleared. -/
  | frameAdmission (slot : Nat)
  /-- CTX_WRITEBACK (R96): The corrected context, switch or sequencer entry is written back within 64 cyc, unless an IMG write to it comes first. -/
  | ctxWriteback (store : Store) (tile : Nat) (cell : Nat) (idx : Nat)
  /-- DRAW (R136): A vertical input port draws one committed element from the base FIFO when the stage and transit hold fewer than 8. -/
  | draw (vp : Nat)
  /-- HEAD_STAGE_ENTRY (R136): A drawn element enters the head stage 6 ACLK of wall time after its draw. -/
  | headStageEntry (vp : Nat)
  /-- TMEM_NOC_ACCESS (R147): A NoC access to the tile-memory aperture is performed on port B in the first array cycle in which cells do not use it. -/
  | tmemNocAccess (n : Nat)
  /-- NOC_TIMEOUT (R147): A NoC access that finds no free port B cycle within TMEM_NOCTO completes with SLVERR. -/
  | nocTimeout (n : Nat)
  /-- TMEM_WRITEBACK (R152): The corrected word is written back in the first cycle in which port B carries no write. -/
  | tmemWriteback (tile : Nat) (bank : Nat) (word : Nat)
  /-- TMEM_OWN (R149): A write of TMEM_OWN hands each changed bank over, when both owners are not live, and starts its molt. -/
  | tmemOwn (m : Mst) (q : Nat) (l : Nat) (p : Nat) (v : Nat)
  /-- BANK_MOLT (R150): A tile-memory bank molt ends after 1,024 cyc, and the new owner takes the bank. -/
  | bankMolt (tile : Nat) (bank : Nat)
  /-- AGREG (R148): A register write of an address generator is accepted only while the slot is stopped, a tadpole or undefined. -/
  | agreg (m : Mst) (q : Nat) (l : Nat) (p : Nat) (n : Nat) (v : Nat)
  /-- DEFINE (R163): SLOT_CMD DEFINE checks the class and the footprint and reserves the clusters. -/
  | define (m : Mst) (c : Nat) (p : Nat) (stride : Nat) (phase : Nat)
  /-- DEFINITION_COMPLETE (R165): A definition completes or fails within 10 µs; it assigns positions, sets the pass tables and leaves the slot STOPPED. -/
  | definitionComplete (c : Nat) (p : Nat)
  /-- UNDEFINE (R169): Molts the slot, frees its positions, clears its pass tables and releases its bindings and banks. -/
  | undefine (m : Mst) (c : Nat) (p : Nat)
  /-- START (R170): Checks a TADPOLE slot and sends START to every footprint cluster over the tongue path. -/
  | start (m : Mst) (c : Nat) (p : Nat)
  /-- SLOT_LIVE (R170): The slot becomes LIVE at the second round boundary after the last cluster accepts START. -/
  | slotLive (c : Nat) (p : Nat)
  /-- STOP_DRAIN (R171): Stops the slot once its open frame window ends, incrementing the generation. -/
  | stopDrain (m : Mst) (c : Nat) (p : Nat)
  /-- STOP_ABORT (R171): Stops the slot at the next tick boundary, ending its frame ABORTED. -/
  | stopAbort (m : Mst) (c : Nat) (p : Nat)
  /-- SWEEP_END (R182): The sweep finishes within 150 µs and sets the generation to 1. -/
  | sweepEnd (c : Nat) (p : Nat)
  /-- MOLT (R172): SLOT_CMD MOLT aborts a live slot and then zeroes its state across the footprint. -/
  | molt (m : Mst) (c : Nat) (p : Nat)
  /-- MOLT_COMPLETE (R172): The slot molt finishes within 4 µs of the stop, and the slot is STOPPED. -/
  | moltComplete (c : Nat) (p : Nat)
  /-- BAD_CMD (R169): A reserved SLOT_CMD code takes no action and reports BAD_CMD. -/
  | badCmd (m : Mst) (c : Nat) (p : Nat) (code : Nat)
  /-- SLOT_FOOT (R188): Writes the footprint mask of an UNDEFINED position. -/
  | slotFoot (m : Mst) (c : Nat) (p : Nat) (v : Nat)
  /-- SLOT_OID (R188): Writes the slot's owner ID while it is not live; a TADPOLE becomes STOPPED. -/
  | slotOid (m : Mst) (c : Nat) (p : Nat) (v : Nat)
  /-- SLOT_FRAME (R188): Writes F, P and E while the slot is not live and P + E ≤ F. -/
  | slotFrame (m : Mst) (c : Nat) (p : Nat) (v : Nat)
  /-- SLOT_EXIT (R188): Writes the EXIT cell and predicate while the slot is not live. -/
  | slotExit (m : Mst) (c : Nat) (p : Nat) (v : Nat)
  /-- GFP (R109): Writes a field-polynomial register while the slot is stopped or a tadpole. -/
  | gfp (m : Mst) (c : Nat) (p : Nat) (n : Nat) (v : Nat)
  /-- VP_CFG (R178): Binds or releases a vertical port; a change stops the port's engine and empties the FIFO. -/
  | vpCfg (m : Mst) (c : Nat) (n : Nat) (v : Nat)
  /-- LPB (R177): Binds or releases a leap port to a port position. -/
  | lpb (m : Mst) (c : Nat) (i : Nat) (v : Nat)
  /-- REGROW (R183): CLU_REGROW REGROW starts a regrowth of a column, or retires the cluster if its spare is used. -/
  | regrow (m : Mst) (c : Nat) (col : Nat)
  /-- SLOT_PAUSE (R183): Each slot of a regrowing cluster enters PAUSED at the end of its open frame window. -/
  | slotPause (slot : Nat)
  /-- COLUMN_COPY (R183): One physical column is copied to its neighbour in 150 µs. -/
  | columnCopy (c : Nat)
  /-- SLOT_RESUME (R183): A PAUSED slot becomes LIVE at the second boundary after its last regrowing cluster's update. -/
  | slotResume (slot : Nat)
  /-- RETIRE (R185): CLU_REGROW RETIRE drain-stops every slot of the cluster and starts retirement. -/
  | retire (m : Mst) (c : Nat)
  /-- RETIREMENT_TEARDOWN (R185): Once each slot has stopped it is molted and undefined, and the cluster is molted and goes OFF. -/
  | retirementTeardown (c : Nat)
  /-- BLOCK_CHECK (R202): The receiver checks the block's CRC at t0 + 8 and accepts it into the delay line or rejects it. -/
  | blockCheck (ch : Nat) (t0 : Nat) (flips : List Nat) (drift : List Nat)
  /-- RESEND (R203): At t0 + 9 the sender resends the NACKed blocks on the retry lanes in port order. -/
  | resend (dir : Nat) (t0 : Nat) (filler : Bool) (errs : List (Nat × Nat))
  /-- RETRY_CHECK (R204): At t0 + 13 the receiver checks the retry lanes and replaces rejected blocks with matching resends. -/
  | retryCheck (dir : Nat) (t0 : Nat) (errs : List (Nat × List Nat))
  /-- DELAY_LINE_RELEASE (R202): Element e of block t0 leaves the delay line at executed cycle t0 + e + 13 and is V at the far position one cycle later. -/
  | delayLineRelease (ch : Nat)
  /-- FILLER_BLOCK (R201): In a block time of a skipped tick or halt, a filler block is sent and checked but never retried. -/
  | fillerBlock (ch : Nat) (crcErr : Bool)
  /-- RATE_WINDOW (R207): At the end of each rate window every WIRE_ERR count returns to 0. -/
  | rateWindow (dir : Nat)
  /-- REALIGNMENT (R208): After two consecutive marker misses, the receiver realigns the port within four marker periods. -/
  | realignment (ch : Nat) (drift : List Nat)
  /-- LFCLK_LOSS (R205): Loss of the forwarded stream clock faults every channel of the direction until retraining. -/
  | lfclkLoss (dir : Nat)
  /-- BRIDGE_TRAINING (R209): A bridge trains at boot: identity, clock lock, PRBS test, spare assignment, deskew and NoC sub-link. -/
  | bridgeTraining (br : Nat) (t : BridgeTest)
  /-- REPAIR (R210): REPAIR_CMD REPAIR moves the flagged wires of a quiet direction to spares and retrains them. -/
  | repair (m : Mst) (q : Nat) (pg : Nat) (dir : Nat)
  /-- RETRAIN (R210): REPAIR_CMD RETRAIN retrains and deskews every wire of a quiet direction. -/
  | retrain (m : Mst) (q : Nat) (pg : Nat) (dir : Nat)
  /-- REPAIR_DONE (R210): A repair or retrain completes within 100 µs with DONE, PARTIAL or FAILED. -/
  | repairDone (br : Nat) (bad : List Nat) (ok : Bool)
  /-- DIR_CFG (R211): Sets the flag threshold, the rate window and the lane disables, which apply from the next block time. -/
  | dirCfg (m : Mst) (q : Nat) (pg : Nat) (dir : Nat) (v : Nat)
  /-- NSL_FRAME (R212): A NoC sub-link frame is received, checked by CRC and sequence, and accepted or discarded with ANAK. -/
  | nslFrame (dir : Nat) (offer : List NslFlit) (flips : List Nat)
  /-- NFCLK_LOSS (R214): Loss of the sub-link's forwarded clock makes the sub-link DOWN. -/
  | nfclkLoss (dir : Nat)
  /-- FULL (R234): LOAD_GRAPH FULL checks an image and writes it into a STOPPED slot, leaving the slot a TADPOLE. -/
  | loadFull (q : Nat) (r : Nat)
  /-- PATCH (R238): LOAD_GRAPH PATCH rewrites and verifies the selected entries of a loaded slot. -/
  | loadPatch (q : Nat) (r : Nat)
  /-- VERIFY (R238): LOAD_GRAPH VERIFY compares the slot with its image and writes nothing. -/
  | loadVerify (q : Nat) (r : Nat)
  /-- STATUS (R238): LOAD_GRAPH STATUS returns the slot's load record. -/
  | loadStatus (q : Nat) (r : Nat)
  /-- LOAD_COMPLETION (R240): A load completes with its result code, setting the load record to LOADED or PARTIAL. -/
  | loadCompletion (slot : Nat) (ups : List Upset)
  /-- NOC_REQUEST (R254): A NoC request travels by its VC to its target and is answered with a response of MEM-4. -/
  | nocRequest (a : Access) (e : HbmErr) (fence : Bool)
  /-- HBM_ACCESS (R251): An HBM request is window-checked at its home quarter and served through the stream cache. -/
  | hbmAccess (a : Access) (noalloc : Bool) (e : HbmErr)
  /-- WIN_ENT (R253): A write changing VALID or OID queues a molt of the window; a WPROT-only change applies at once. -/
  | winEnt (m : Mst) (q : Nat) (i : Nat) (v : Nat)
  /-- WINDOW_MOLT (R253): A queued window molt runs: it drops cached lines, zeroes 2 MiB and applies the new binding. -/
  | windowMolt (q : Nat)
  /-- FENCE_COMPLETION (R258): A master's fence completes when every earlier request has its response. -/
  | fenceCompletion (mid : Nat)
  /-- GRP_RATE (R264): Sets a group's reserved HBM rate, refused if the sum would exceed 768. -/
  | grpRate (m : Mst) (q : Nat) (g : Nat) (v : Nat)
  /-- NOC_WEIGHT (R259): Sets a group's NoC weight, refused if the sum would exceed 240. -/
  | nocWeight (m : Mst) (q : Nat) (g : Nat) (v : Nat)
  /-- JATTR (R267): A JATTR write with VALID queues a job in an empty job slot. -/
  | jattr (m : Mst) (vp : Nat) (j : Nat) (v : Nat)
  /-- JOB_START (R267): A queued job starts once its turn comes and its port is bound. -/
  | jobStart (vp : Nat) (sgl : List (Nat × Nat × Nat)) (ans : HostAns)
  /-- ELEMENT_MOVE (R266): An engine moves one element between its source or sink and the FIFO when there is space. -/
  | elementMove (vp : Nat) (ans : HostAns) (e : HbmErr) (collide : Option Word)
  /-- CHAIN_FORMED (R271): Two engines with matching CHAIN jobs form a chain, or mismatch and end with CHAIN. -/
  | chainFormed (vp : Nat)
  /-- JOB_END (R269): A job ends on JLEN bytes, an error or a stop; VALID clears and JDONE is set. -/
  | jobEnd (vp : Nat)
  /-- SEN_CTRL (R273): Clearing EN stops the engine and ends its jobs ABORTED. -/
  | senCtrl (m : Mst) (vp : Nat) (v : Nat)
  /-- SUBMIT (R282): DSP_CMD SUBMIT checks a TCB and makes the task live, WAITING, DELAYED or READY. -/
  | submit (m : Mst) (q : Nat) (t : Nat)
  /-- SIGNAL (R282): DSP_CMD SIGNAL decrements DEPCNT and releases the task at 0. -/
  | signal (m : Mst) (q : Nat) (t : Nat)
  /-- WAKE (R293): DSP_CMD WAKE delivers an event wake to a live task. -/
  | wake (m : Mst) (q : Nat) (t : Nat)
  /-- CANCEL (R282): DSP_CMD CANCEL completes an unstarted task ABORTED. -/
  | cancel (m : Mst) (q : Nat) (t : Nat)
  /-- RUN (R287): A free core receives the best allowed READY thread and binds it to a bank. -/
  | run (n : Nat)
  /-- PREEMPT (R287): A READY privileged thread preempts a lower-level thread when none of its cores is free. -/
  | preempt (q : Nat)
  /-- HAND (R289): An empty hand-over register is filled from the ready list after the generation and state checks. -/
  | hand (slot : Nat)
  /-- WAKE_TIME_REACHED (R292): At a tick edge, delayed tasks whose wake time is reached move to READY. -/
  | wakeTimeReached (q : Nat)
  /-- HELD_COMMAND_PLACED (R294): A source held back by a full list places its task when room exists. -/
  | heldCommandPlaced (q : Nat)
  /-- DSP_REPL (R301): Writes a replica group, refused if it names a foreign slot or puts one slot in two groups. -/
  | dspRepl (m : Mst) (q : Nat) (r : Nat) (en : Bool) (v : Nat)
  /-- XBRD (R317): Reads a register of the bank that XBWIN selects. -/
  | xbrd (n : Nat) (rd : Nat) (i : Nat)
  /-- XBWR (R317): Writes a register of the bank that XBWIN selects. -/
  | xbwr (n : Nat) (rs1 : Nat) (i : Nat)
  /-- XYIELD (R283): The running thread returns to READY at the tail of its level. -/
  | xyield (n : Nat)
  /-- XWAIT_EVENT (R283): The thread waits for an event unless PENDWAKE is set. -/
  | xwaitEvent (n : Nat) (rd : Nat)
  /-- XWAIT_DEP (R283): The thread waits until DEPCNT is 0. -/
  | xwaitDep (n : Nat) (rd : Nat)
  /-- XWAIT_DELAY (R283): The thread is DELAYED by d ticks, or refused for d ≥ 2^31. -/
  | xwaitDelay (n : Nat) (rd : Nat) (rs1 : Nat)
  /-- XWAIT_EVENT_OR_DELAY (R283): The thread waits for an event or a delay, whichever comes first. -/
  | xwaitEventOrDelay (n : Nat) (rd : Nat) (rs1 : Nat)
  /-- XDONE (R283): Completes the thread with a status and result, or makes an unmanaged core join dispatch. -/
  | xdone (n : Nat) (rs1 : Nat) (rs2 : Nat)
  /-- XSIG (R323): Sends SIGNAL to a task's home slice and returns the rejection reason, if any. -/
  | xsig (n : Nat) (rd : Nat) (rs1 : Nat)
  /-- EVENT_ENTRY (R312): A pending, enabled event line switches the core into an event bank after validating the entry sp. -/
  | eventEntry (n : Nat)
  /-- EXCEPTION_TRAP (R309): A synchronous exception traps in a thread bank, or enters bank 7 from an event bank. -/
  | exceptionTrap (n : Nat) (len : Nat) (x : CoreAct)
  /-- MRET (R315): Returns from an event or fault bank to the bank and level recorded in XBSTAT. -/
  | mret (n : Nat)
  /-- FP_EXCHANGE (R319): An FP instruction of a thread that does not own the FP file saves the owner's state and loads its own. -/
  | fpExchange (n : Nat) (len : Nat) (w : Option (Nat × Nat))
  /-- EBREAK (R576): EBREAK halts the core when its DBG_EBHALT bit is set, or else raises a breakpoint exception. -/
  | ebreak (n : Nat)
  /-- XEVDEPTH (R326): Sets the event depth 1 or 2 when the core's state allows it. -/
  | xevdepth (n : Nat) (csr : Nat) (rd : Nat) (w : Option Nat)
  /-- CORE_CTRL (R325): RESET holds a core in reset, saving its FP file and completing its threads; clearing it releases the core unmanaged. -/
  | coreCtrl (m : Mst) (n : Nat) (v : Nat)
  /-- BNK_OWNER (R330): A handover of a home bank, with its core in reset, molts the bank unless KEEP = 1. -/
  | bnkOwner (m : Mst) (n : Nat) (v : Nat)
  /-- HOME_BANK_CLEAR (R331): A home bank molt or clear ends after 65,536 bcyc. -/
  | homeBankClear (n : Nat)
  /-- HOME_BANK_ACCESS (R329): A NoC access to a home bank on port 1 is checked against its owner and write mode. -/
  | homeBankAccess (a : Access) (port0 : List (Nat × Nat)) (e : HbmErr)
  /-- BNK_CE_WRITEBACK (R332): A corrected home-bank word is written back in the first bcyc in which port 1 carries no write. -/
  | bnkCeWriteback (n : Nat) (w : Nat)
  /-- EVT_CLAIM (R344): A read returns the highest-ranked pending source of the core and clears it. -/
  | evtClaim (m : Mst) (q : Nat) (c : Nat)
  /-- EVT_SWSET (R355): Raises one occurrence of each selected software source. -/
  | evtSwset (m : Mst) (q : Nat) (w : Nat) (v : Nat)
  /-- EVT_ROUTE (R356): Sets a source's route, mask and, for software sources, class, with the checks of R343. -/
  | evtRoute (m : Mst) (q : Nat) (src : Nat) (v : Nat)
  /-- TIMER (R346): An enabled timer whose NEXT is reached raises its source and reloads NEXT or stops. -/
  | timer (q : Nat) (i : Nat)
  /-- EVT_TMR_CTRL (R346): Enables or disables a timer, refusing PERIODIC while PERIOD is out of range. -/
  | evtTmrCtrl (m : Mst) (q : Nat) (i : Nat) (v : Nat)
  /-- EVT_TMR_PERIOD (R346): Sets a timer period, refused while PERIODIC if it is out of range. -/
  | evtTmrPeriod (m : Mst) (q : Nat) (i : Nat) (v : Nat)
  /-- WATERMARK_THRESHOLD_WRITE (R347): A write of HI or LO is checked and may itself make a crossing. -/
  | watermarkThresholdWrite (m : Mst) (w : WmName) (q : Nat) (i : Nat) (j : Nat) (hi : Bool) (v : Nat)
  /-- MBX_LOCK (R349): Binds a mailbox channel once to a sender, a receiver and a mode. -/
  | mbxLock (m : Mst) (q : Nat) (ch : Nat) (v : Nat)
  /-- MBX_HLOCK (R351): Binds a host mailbox once to a receiver and a mode. -/
  | mbxHlock (m : Mst) (q : Nat) (i : Nat) (v : Nat)
  /-- MBX_SPTR (R350): The bound sender sets the notice pointer. -/
  | mbxSptr (m : Mst) (q : Nat) (ch : Nat) (v : Nat)
  /-- MBX_SLT (R352): The sender commits a notice, with the outcome that the receiver's state gives. -/
  | mbxSlt (m : Mst) (q : Nat) (ch : Nat) (v : Nat)
  /-- CROAK_DELIVERY (R353): When the woken domain reaches ON, the channel's occurrence is raised. -/
  | croakDelivery (q : Nat) (ch : Nat)
  /-- MBX_RLT (R350): The receiver reads the oldest notice's tag and length and removes the notice. -/
  | mbxRlt (m : Mst) (q : Nat) (ch : Nat)
  /-- MBX_WORD (R350): The sender writes the compatibility word and sets FULL. -/
  | mbxWord (m : Mst) (q : Nat) (ch : Nat) (v : Nat)
  /-- MBX_WORD_READ (R350): The receiver reads the compatibility word and clears FULL. -/
  | mbxWordRead (m : Mst) (q : Nat) (ch : Nat)
  /-- HIF_LCTRL (R367): Setting EN checks the link configuration and starts DETECT; clearing it disables the link. -/
  | hifLctrl (m : Mst) (link : Nat) (v : Nat)
  /-- RECEIVER_DETECTED (R373): A receiver seen on a link moves it to TRAINING. -/
  | receiverDetected (link : Nat)
  /-- LINK_UP (R373): The link reaches L0 and DL_Up, and its functions become ready once CONF_DONE is asserted. -/
  | linkUp (link : Nat) (speed : Nat) (width : Nat) (flit : Bool)
  /-- ABSENT (R373): No receiver seen for 1 s moves the link to ABSENT. -/
  | absent (link : Nat)
  /-- TRAIN_FAIL (R373): No L0 within 1 s of a receiver moves the link to TRAIN_FAIL. -/
  | trainFail (link : Nat)
  /-- LINK_LOSS (R374): Loss of an UP link resets every function of the link and returns it to DETECT. -/
  | linkLoss (link : Nat) (vps : List Nat)
  /-- HOST_PERST_N_ASSERT (R374): Resets every function of every link of the port and idles its lanes. -/
  | hostPerstNAssert (port : Nat)
  /-- HOST_PERST_N_RELEASE (R370): The port's links start to train. -/
  | hostPerstNRelease (port : Nat)
  /-- HOT_RESET (R374): A received hot reset resets every function of the link, which retrains. -/
  | hotReset (link : Nat)
  /-- FLR_PF (R374): FLR of a PF resets the PF and all its VFs. -/
  | flrPf (oid : Nat)
  /-- FLR_VF (R374): FLR of a VF resets that VF. -/
  | flrVf (oid : Nat)
  /-- VF_ENABLE_CLEARED (R374): Clearing VF Enable or reducing NumVFs removes VFs. -/
  | vfEnableCleared (oid : Nat) (n : Nat)
  /-- FUNCTION_RESET_COMPLETE (R375): The device-side effects of a function reset complete within 10 ms. -/
  | functionResetComplete (oid : Nat)
  /-- D3HOT_ENTRY (R377): A function in D3hot answers memory requests UR and issues nothing. -/
  | d3hotEntry (oid : Nat)
  /-- D0_RETURN (R377): Return to D0 keeps every state of the function. -/
  | d0Return (oid : Nat)
  /-- L0P_WIDTH_CHANGE (R378): The link grants every L0p width change that its partner requests. -/
  | l0pWidthChange (link : Nat) (w : Nat)
  /-- BAR_REQUEST (R364): A request on a BAR enters the NoC with the link's MID and the function's OID, and its response maps to PCIe. -/
  | barRequest (oid : Nat) (bar : Nat) (off : Nat) (size : Nat) (write : Bool) (data : Nat)
  /-- CONFIGURATION_REQUEST (R371): A configuration request gets retry status until the function is ready. -/
  | configurationRequest (oid : Nat) (op : CfgOp)
  /-- HOST_COMPLETION (R362): A host completion returns data, or ends the job with UE or HOST_ERR. -/
  | hostCompletion (vp : Nat) (ans : HostAns)
  /-- COMPLETION_TIMEOUT (R362): A host request without a completion ends its job with HOST_TO. -/
  | completionTimeout (vp : Nat)
  /-- SQ_TAIL (R386): The SQ tail doorbell is accepted in ENABLED with an in-range value, or refused with DBERR. -/
  | sqTail (m : Mst) (q : Nat) (i : Nat) (v : Nat)
  /-- CQ_HEAD (R386): The CQ head doorbell releases written entries, or is refused with DBERR. -/
  | cqHead (m : Mst) (q : Nat) (i : Nat) (v : Nat)
  /-- QP_CTRL (R385): EN = 1 resets the indices and enables an ASSIGNED pair; EN = 0 starts draining. -/
  | qpCtrl (m : Mst) (q : Nat) (i : Nat) (v : Nat)
  /-- FETCH_DECISION (R388): The slice chooses one eligible SQ by priority and fetches 1 to 8 entries. -/
  | fetchDecision (q : Nat) (ents : List Nat)
  /-- SQ_READ_ERROR (R408): A failed SQ read halts fetch from the pair with FETCHERR. -/
  | sqReadError (q : Nat)
  /-- INVOKE (R396): Looks up the entry, builds the task chain, queues the buffer jobs and submits the tasks. -/
  | invoke (q : Nat) (r : Nat)
  /-- COPY (R395): Copies BUF0 to BUF1 with the function's OID. -/
  | copy (q : Nat) (r : Nat) (sgl0 : List (Nat × Nat × Nat)) (sgl1 : List (Nat × Nat × Nat)) (ans0 : HostAns) (ans1 : HostAns) (e : HbmErr)
  /-- FILL (R395): Fills BUF0 with an 8-byte pattern. -/
  | fill (q : Nat) (r : Nat) (sgl : List (Nat × Nat × Nat)) (ans : HostAns) (e : HbmErr)
  /-- FENCE (R397): Completes when every earlier command in its scope has its CQ entry. -/
  | fence (q : Nat) (r : Nat)
  /-- QUE_NOP (R395): The NOP opcode completes at once. -/
  | queNop (q : Nat) (r : Nat)
  /-- QUERY (R398): Returns entry, window or queue information. -/
  | query (q : Nat) (r : Nat)
  /-- CREATE_Q (R395): Assigns the lowest free pair to a function's queue N. -/
  | createQ (q : Nat) (r : Nat)
  /-- DELETE_Q (R395): Drains a pair and unassigns it. -/
  | deleteQ (q : Nat) (r : Nat)
  /-- BIND_WINDOW (R395): Writes WIN_ENT and completes when the molt ends. -/
  | bindWindow (q : Nat) (r : Nat)
  /-- START_SLOT (R399): Performs SLOT_CMD START for a slot. -/
  | startSlot (q : Nat) (r : Nat)
  /-- STOP_SLOT (R399): Performs STOP_DRAIN and completes when the stop has taken effect. -/
  | stopSlot (q : Nat) (r : Nat)
  /-- STOP_SLOT_ABORT (R399): STOP_SLOT with ABORT performs STOP_ABORT and completes when the stop has taken effect. -/
  | stopSlotAbort (q : Nat) (r : Nat)
  /-- MGMT_MOLT (R399): The management MOLT opcode performs SLOT_CMD MOLT and completes when the molt ends. -/
  | mgmtMolt (q : Nat) (r : Nat)
  /-- SET_ENTRY (R403): Writes or clears an entry-table entry with the slot's current generation. -/
  | setEntry (q : Nat) (r : Nat)
  /-- QUENCH_FINISH (R404): Quenches pairs and lets fetched commands complete normally. -/
  | quenchFinish (q : Nat) (r : Nat)
  /-- QUENCH_ABORT (R404): Quenches pairs and completes unstarted fetched commands QUENCHED. -/
  | quenchAbort (q : Nat) (r : Nat)
  /-- UNQUENCH (R404): Clears QUENCHED, so that fetch resumes. -/
  | unquench (q : Nat) (r : Nat)
  /-- MEDIA (R437): Posts an op list to a channel and completes when the list ends. -/
  | media (q : Nat) (r : Nat)
  /-- FW_CALL (R400): Copies the entry for firmware and sends a mailbox notice with its token. -/
  | fwCall (q : Nat) (r : Nat)
  /-- QE_FWDONE (R400): Completes the waiting FW_CALL that the token names. -/
  | qeFwdone (m : Mst) (q : Nat) (v : Nat)
  /-- TONGUE_QUENCH (R405): A tongue QUENCH takes effect within 4 µs. -/
  | tongueQuench
  /-- TONGUE_UNQUENCH (R405): A tongue UNQUENCH takes effect within 4 µs. -/
  | tongueUnquench
  /-- TONGUE_STOP_SLOT (R405): A tongue STOP_SLOT increments the generation and stops the slot within 4 µs. -/
  | tongueStopSlot
  /-- CQ_ENTRY_WRITE (R387): The queue engine writes a 16-byte CQ entry, holding it while the function cannot issue. -/
  | cqEntryWrite (q : Nat) (r : Nat)
  /-- ITIME_EXPIRY (R410): ITIME ticks after the first counted entry, the pair's vector is sent. -/
  | itimeExpiry (q : Nat) (i : Nat)
  /-- PAIR_DRAINED (R382): When a DRAINING pair's last command ends, it returns to ASSIGNED or UNASSIGNED. -/
  | pairDrained (q : Nat) (i : Nat)
  /-- MSQ_POST (R425): Posts an op list to a channel queue, or drops an invalid post. -/
  | msqPost (m : Mst) (ch : Nat) (v : Nat)
  /-- LIST_FETCH (R426): The group fetches the whole list and checks it before any bus cycle. -/
  | listFetch (ch : Nat) (e : HbmErr)
  /-- LIST_START (R427): A queued list starts in a free context, in post order per LUN. -/
  | listStart (ch : Nat)
  /-- BUS_GRANT (R427): The bus passes round-robin to the next context that needs it. -/
  | busGrant (ch : Nat)
  /-- END (R428): Ends the list with a status and result. -/
  | listEnd (ch : Nat) (x : Nat)
  /-- HDR (R428): Names the target, LUN, owner and tag of the list. -/
  | hdr (ch : Nat) (x : Nat)
  /-- CMD (R428): Drives one command cycle; a confirm is checked against the open operation, the PF latch and WPN. -/
  | cmd (ch : Nat) (x : Nat)
  /-- ADDR (R428): Drives NCYC address cycles. -/
  | addr (ch : Nat) (x : Nat)
  /-- DOUT (R423): Sends buffer data to the NAND, stopping with UE at an uncorrectable word. -/
  | dout (ch : Nat) (x : Nat) (ue : Option Nat) (ce : Nat)
  /-- DIN (R428): Reads NAND data into the channel buffer. -/
  | din (ch : Nat) (x : Nat) (data : List Byte)
  /-- WAITRB (R429): Waits for ready by pin, status or enhanced status. -/
  | waitrb (ch : Nat) (x : Nat) (sr : Nat)
  /-- READY_SEEN (R434): The wait ends ready; with CLOSE it closes a confirmed operation and records MEAS. -/
  | readySeen (ch : Nat) (x : Nat) (sr : Nat) (meas : Nat)
  /-- WAITRB_TIMEOUT (R429): The wait outlasts TIMEOUT and the list ends TIMEOUT. -/
  | waitrbTimeout (ch : Nat) (x : Nat)
  /-- DELAY (R428): Waits a number of ns. -/
  | delay (ch : Nat) (x : Nat)
  /-- DELAY_EXPIRY (R428): The delay ends and the list continues. -/
  | delayExpiry (ch : Nat) (x : Nat)
  /-- FEATURE (R428): Sets or gets features and waits for ready. -/
  | feature (ch : Nat) (x : Nat) (ok : Bool) (sr : Nat) (vals : Nat)
  /-- BRSTAT (R428): Branches on the status byte. -/
  | brstat (ch : Nat) (x : Nat)
  /-- OFFSETS (R430): Looks up calibration offsets and sets them by Set Features. -/
  | offsets (ch : Nat) (x : Nat) (ok : Bool) (sr : Nat)
  /-- PROBE (R444): Reads two pages at an offset, counts zero bits and classifies the block. -/
  | probe (ch : Nat) (x : Nat) (waits : Nat) (sr : Nat) (z0 : Nat) (z1 : Nat)
  /-- BEGIN_PROG (R431): Opens a program on the LUN after taking NPL tokens. -/
  | beginProg (ch : Nat) (x : Nat)
  /-- BEGIN_ERASE (R431): Opens an erase on the LUN after taking tokens. -/
  | beginErase (ch : Nat) (x : Nat)
  /-- END_OP (R431): Closes the open operation and returns its tokens. -/
  | endOp (ch : Nat) (x : Nat)
  /-- SUSPEND (R431): Marks the confirmed operation suspended and returns its tokens. -/
  | suspend (ch : Nat) (x : Nat)
  /-- RESUME (R431): Takes tokens and clears the suspension. -/
  | resume (ch : Nat) (x : Nat)
  /-- TOKEN_GRANT (R433): A waiting BEGIN or RESUME receives its tokens once use plus NPL is within the cap. -/
  | tokenGrant
  /-- COMPLETION_RECORD (R435): An ended list writes its 32-byte record once the ring has room, raising MEDIA. -/
  | completionRecord (ch : Nat) (x : Nat)
  /-- STOP (R446): MSQ_CHCTRL STOP ends queued lists, and running lists at their next micro-op, ABORTED. -/
  | stop (m : Mst) (ch : Nat) (v : Nat)
  /-- WPN (R416): Sets WP_N of the channel high or low. -/
  | wpn (m : Mst) (ch : Nat) (v : Nat)
  /-- MSQ_CHCFG (R447): Writes the channel configuration while the channel is OFF or IDLE. -/
  | msqChcfg (m : Mst) (ch : Nat) (v : Nat)
  /-- NPH_CFG (R418): Changes interface mode, drive or ODT while the channel is OFF or IDLE. -/
  | nphCfg (m : Mst) (n : Nat) (v : Nat)
  /-- NPH_TRAIN (R419): Starts ZQ, duty-cycle and DQ training on a target. -/
  | nphTrain (m : Mst) (n : Nat) (v : Nat)
  /-- NPH_TRAINING_DONE (R419): Training completes within 2 ms with PASS or FAIL. -/
  | nphTrainingDone (n : Nat) (pass : Bool) (rm : Nat) (wm : Nat)
  /-- MSQ_RRP (R447): Advances the completion ring read index, refused if it passes the write index. -/
  | msqRrp (m : Mst) (q : Nat) (j : Nat) (v : Nat)
  /-- MSQ_OPCAP (R433): Sets the device token cap. -/
  | msqOpcap (m : Mst) (q : Nat) (v : Nat)
  /-- PF_WARN (R440): PF_WARN_N asserts: the PF latch sets, confirms stop, waiting BEGINs fail and the dump starts if armed. -/
  | pfWarn
  /-- DUMP_COMPLETE (R441): The dump completes within 400 µs, DUMP reads WRITTEN and ARMED clears. -/
  | dumpComplete
  /-- MSQ_PFCLR (R440): Clears the PF latch while PF_WARN_N is deasserted. -/
  | msqPfclr (m : Mst) (q : Nat) (v : Nat)
  /-- MSQ_OPDARM (R443): Arms an OPDUMP half if every byte of it is erased. -/
  | msqOpdarm (m : Mst) (q : Nat) (v : Nat)
  /-- TET_LCTRL (R475): Setting EN starts DETECT; clearing it takes the lane OFF. -/
  | tetLctrl (m : Mst) (lane : Nat) (v : Nat)
  /-- TET_RETRAIN (R472): A RETRAIN write in UP sends RTRN and starts a retrain that keeps the link state. -/
  | tetRetrain (m : Mst) (lane : Nat) (v : Nat)
  /-- SIGNAL_DETECT (R467): A received signal moves the lane from DETECT or ABSENT to TRAIN. -/
  | signalDetect (lane : Nat)
  /-- LOSS_OF_SIGNAL (R471): Loss of signal restarts training, or takes an UP lane down. -/
  | lossOfSignal (lane : Nat)
  /-- TRAINING_FRAME (R468): A received training frame adjusts the FIR and carries RXREADY. -/
  | trainingFrame (lane : Nat) (word : Nat) (req : Nat) (adapted : Bool)
  /-- CODEWORD (R454): A received RS codeword is decoded, counted, and acquires or loses lock. -/
  | codeword (lane : Nat) (hdr : Nat) (corrected : Nat) (corrupt : Bool)
  /-- IDENT_SEND (R467): In IDENT the lane sends its IDENT every 10 µs. -/
  | identSend (lane : Nat)
  /-- IDENT (R469): A received IDENT is checked, enters UP or REJECT, or marks a partner restart. -/
  | ident (lane : Nat) (bytes : List Byte) (clean : Bool)
  /-- LANE_ABSENT (R467): 500 ms without signal moves the lane to ABSENT. -/
  | laneAbsent (lane : Nat)
  /-- TRAIN_RESTART (R467): 200 ms in TRAIN without lock starts a new training attempt. -/
  | trainRestart (lane : Nat)
  /-- MUTE (R467): 10 ms in IDENT, or 1 s in the episode without UP, moves the lane to MUTE. -/
  | mute (lane : Nat)
  /-- BACKOFF_END (R470): The backoff wait ends and the lane returns to DETECT. -/
  | backoffEnd (lane : Nat)
  /-- RETRAIN_TIMEOUT (R472): A retrain not completed within 50 ms fails, and the lane leaves UP. -/
  | retrainTimeout (lane : Nat)
  /-- CMD_FLIT (R462): A group of bus cycles is sent as a CMD flit once a VC0 credit is held. -/
  | cmdFlit (lane : Nat) (k : Nat)
  /-- WDATA (R466): Sends DOUT data in WDATA flits, poisoned after an uncorrectable word. -/
  | wdata (lane : Nat) (k : Nat) (ue : Option Nat) (ce : Nat)
  /-- RESP (R463): A received RESP delivers results, DONE or RB reports to the list. -/
  | resp (lane : Nat) (bytes : List Byte) (clean : Bool)
  /-- RDATA (R466): Received DIN data is written to the channel buffer and its credit returned. -/
  | rdata (lane : Nat) (bytes : List Byte) (clean : Bool)
  /-- MGMT (R473): The bridge's MGMT reply is written to TET_MRADDR. -/
  | mgmt (lane : Nat) (bytes : List Byte) (clean : Bool)
  /-- LCTL (R461): A received LCTL returns credits and carries ACK. -/
  | lctl (lane : Nat) (bytes : List Byte) (clean : Bool)
  /-- NAK (R460): A received NAK starts a replay from ACK + 1. -/
  | nak (lane : Nat) (bytes : List Byte) (clean : Bool)
  /-- RTRN (R472): A received RTRN puts the lane into RETRAIN. -/
  | rtrn (lane : Nat) (bytes : List Byte) (clean : Bool)
  /-- REPLAY_TIMEOUT (R460): The oldest unacknowledged flit waits REPLAY_TO and is replayed; REPLAY_MAX replays take the lane down. -/
  | replayTimeout (lane : Nat)
  /-- TET_MCMD (R473): GO sends one bridge management request. -/
  | tetMcmd (m : Mst) (lane : Nat) (v : Nat)
  /-- MGMT_TIMEOUT (R473): No reply within MGMT_TO ends the request with TIMEOUT. -/
  | mgmtTimeout (lane : Nat)
  /-- LOOKUP (R482): The tracker answers a lookup with tracked or model offsets and a handle, reseeding a cold entry. -/
  | calLookup (ch : Nat) (x : Nat)
  /-- FLIP_RECORD (R487): The tracker takes a flip record and updates, drops or sweeps its entry. -/
  | flipRecord (q : Nat) (ring : Nat)
  /-- READ (R491): CAL_ECMD READ copies an entry into CAL_EDATA. -/
  | calRead (m : Mst) (q : Nat) (v : Nat)
  /-- WRITE (R491): CAL_ECMD WRITE writes an entry and increments its VER. -/
  | calWrite (m : Mst) (q : Nat) (v : Nat)
  /-- INVALIDATE (R491): CAL_ECMD INVALIDATE clears VALID and increments VER. -/
  | calInvalidate (m : Mst) (q : Nat) (v : Nat)
  /-- FLUSH (R491): CAL_ECMD FLUSH writes back every changed cached entry. -/
  | calFlush (m : Mst) (q : Nat) (v : Nat)
  /-- CACHE_WRITEBACK (R491): A changed cached entry is written back within one time unit, or on eviction. -/
  | cacheWriteback (q : Nat) (e : Nat)
  /-- WALK (R492): The walk marks cold every VALID entry older than ASTALE. -/
  | calWalk (q : Nat) (e : Nat)
  /-- RETRAIN_CHECK (R495): Each time unit, lanes and links whose temperature and margins make them due are flagged. -/
  | retrainCheck (q : Nat) (margins : List (Nat × Nat))
  /-- CAL_CTRL (R496): Enables tracking, or disables it with a write-back of the cache. -/
  | calCtrl (m : Mst) (q : Nat) (v : Nat)
  /-- CAL_FRBASE (R485): Sets a flip ring base and resets its read index and sequence. -/
  | calFrbase (m : Mst) (q : Nat) (r : Nat) (v : Nat)
  /-- PORST_N_ASSERT (R523): Power-on reset resets everything. -/
  | porstNAssert
  /-- PORST_N_RELEASE (R506): Boot starts at stage 1. -/
  | porstNRelease (b : BootIn)
  /-- SYSRST_N_ASSERT (R523): System reset resets everything except the always-on domain and debug. -/
  | sysrstNAssert
  /-- SYSRST_N_RELEASE (R506): Boot starts at stage 2. -/
  | sysrstNRelease (b : BootIn)
  /-- PLL_LOCK (R518): A ROOT PLL locks within 5 ms. -/
  | pllLock (q : Nat) (ok : Bool)
  /-- HBM_TRAINING (R506): The HBM stacks are trained. -/
  | hbmTraining (fails : List Nat)
  /-- CONF_DONE (R507): At stage 8 the report is written, cores are released and CONF_DONE asserts. -/
  | confDone (secs : List SecIn)
  /-- PROGRAM (R500): FLS PROGRAM writes one erased flash word. -/
  | program (m : Mst) (q : Nat)
  /-- ERASE (R500): FLS ERASE erases one sector. -/
  | erase (m : Mst) (q : Nat)
  /-- BLANKCHK (R500): FLS BLANKCHK checks whether a sector is erased. -/
  | blankchk (m : Mst) (q : Nat)
  /-- FLS_COMMAND_DONE (R500): A flash command completes and sets RESULT. -/
  | flsCommandDone (q : Nat)
  /-- AO_FAILOVER (R513): An ordered failover makes the live domain release its outputs. -/
  | aoFailover (m : Mst) (v : Nat)
  /-- HEARTBEAT (R513): The always-on domains exchange a heartbeat every 64 ticks. -/
  | heartbeat (toLive : Bool) (toStandby : Bool) (healthy : Bool)
  /-- HEARTBEAT_TIMEOUT (R513): Missing heartbeats make the live domain release after HBTO − 2 ms. -/
  | heartbeatTimeout
  /-- TAKEOVER (R513): The standby takes over, sets FAILED_OVER and raises AO_FAILOVER. -/
  | takeover
  /-- PLL_LOCK_LOSS (R518): A PLL losing lock in service raises RAIL_FAULT. -/
  | pllLockLoss (q : Nat)
  /-- RAIL_OUT_OF_RANGE (R532): A monitored rail outside ±10 % for 10 µs is a RAIL_FAULT. -/
  | railOutOfRange
  /-- DTIME_COMPARE (R521): Every 2^16 executed cycles the bridge ends compare DTIME. -/
  | dtimeCompare (bridge : Nat) (equal : Bool)
  /-- ALIGNMENT_EDGE (R521): At edge E every quarter sets DTIME to 64·E. -/
  | alignmentEdge
  /-- QUARTER_REALIGNMENT (R522): A quarter leaving reset or OFF loads DTIME from a neighbour. -/
  | quarterRealignment (q : Nat)
  /-- RST_QCTL (R524): Starts a quarter reset: write-back of the stream cache, then holding in reset. -/
  | rstQctl (m : Mst) (q : Nat) (v : Nat)
  /-- QUARTER_RESET_RELEASE (R524): The quarter leaves reset and realigns. -/
  | quarterResetRelease (q : Nat)
  /-- RST_CLU (R523): Resets the selected clusters. -/
  | rstClu (m : Mst) (q : Nat) (v : Nat)
  /-- DOMAIN_ON (R526): A PWR_DOM request to turn a domain ON. -/
  | domainOn (m : Mst) (q : Nat) (dom : Nat)
  /-- DOMAIN_BASK (R526): A request to put a domain in BASK, checked against PWR-4. -/
  | domainBask (m : Mst) (q : Nat) (dom : Nat)
  /-- DOMAIN_OFF (R526): A request to turn a domain OFF, checked against PWR-4. -/
  | domainOff (m : Mst) (q : Nat) (dom : Nat)
  /-- DOMAIN_TRANSITION_DONE (R525): A domain finishes its transition. -/
  | domainTransitionDone (q : Nat) (dom : Nat)
  /-- SENSOR_CONVERSION (R529): Each sensor converts every 10 µs. -/
  | sensorConversion (q : Nat) (s : Nat) (raw : Nat)
  /-- THROTTLE_STEP (R530): Every 1 ms n_th rises, falls or holds against TTHR. -/
  | throttleStep
  /-- THERM_TRIP (R531): A comparator trip asserts THERM_TRIP_N and brings safe stop. -/
  | thermTrip (s : Nat)
  /-- ESTIMATE_CORRECTION (R534): Every 1 ms the estimate is corrected against READ_IOUT. -/
  | estimateCorrection (q : Nat) (watts : Nat)
  /-- PEAK_EXCURSION (R535): Current above PL_PEAK raises n_peak by 8, again every 2 µs. -/
  | peakExcursion (amps : Nat)
  /-- AVS_STEP (R538): A VOUT_COMMAND moves the output by at most 5 mV every 10 µs. -/
  | avsStep
  /-- AVS_TELEMETRY (R538): Every 1 ms the regulator's voltage, current and status are read. -/
  | avsTelemetry (ok : Bool) (mv : Nat)
  /-- RC_CALIBRATION (R519): The RC oscillator is calibrated against ROOT every 1 ms. -/
  | rcCalibration
  /-- FLT_PPR_CMD (R548): Orders a soft or hard post-package repair of an HBM row. -/
  | fltPprCmd (m : Mst) (q : Nat) (v : Nat)
  /-- PPR_COMPLETE (R548): A row repair completes with its result. -/
  | pprComplete (q : Nat) (res : Nat)
  /-- RGET (R557): A Dweaz frame reads a port register. -/
  | rget (hdr : Nat)
  /-- RPUT (R557): A Dweaz frame writes a port register. -/
  | rput (hdr : Nat) (data : Nat) (crc : Nat)
  /-- DBG_CANCEL (R568): A Dweaz CANCEL drops a bus access that has not left the port. -/
  | dbgCancel (hdr : Nat) (left : Bool) (e : HbmErr)
  /-- RESYNC (R555): 48 alternating cycles abandon the partial frame and clear CRCERR. -/
  | resync
  /-- AUTH_START (R562): Requests a level and draws a fresh nonce. -/
  | authStart (v : Nat)
  /-- NONCE_READY (R562): The nonce is ready within 1 ms. -/
  | nonceReady (words : List Nat)
  /-- NONCE (R562): A read returns the next nonce word. -/
  | nonce
  /-- AUTH_DATA (R562): A write takes the next word of the key and signature. -/
  | authData (v : Nat)
  /-- AUTH_SUBMIT (R562): Starts verification of the signature. -/
  | authSubmit (v : Nat)
  /-- VERIFICATION_COMPLETE (R563): Verification grants the level, or fails into a 1 s lockout. -/
  | verificationComplete
  /-- LOCKOUT_END (R563): The lockout ends after 1 s. -/
  | lockoutEnd
  /-- AUTH_DROP (R563): Lowers the access level. -/
  | authDrop (v : Nat)
  /-- BUSCTL (R564): GO starts one bus access, checked against the level. -/
  | busctl (v : Nat)
  /-- BUS_ACCESS_COMPLETE (R564): The bus access response sets BRESP and DATA. -/
  | busAccessComplete (e : HbmErr)
  /-- CORE_HALT (R565): Halts cores at an instruction boundary. -/
  | coreHalt (m : Mst) (q : Nat) (v : Nat)
  /-- CORE_RUN (R569): Resumes the masked cores. -/
  | coreRun (m : Mst) (q : Nat) (v : Nat)
  /-- CORE_STEP (R569): Executes exactly one instruction on a halted core. -/
  | coreStep (m : Mst) (q : Nat) (v : Nat)
  /-- SYSTEM_HALT (R567): Stops the subsystems of DBG-6 and every core. -/
  | systemHalt (m : Mst) (v : Nat)
  /-- SYSTEM_RUN (R569): Resumes the system at the next tick boundary. -/
  | systemRun (m : Mst) (v : Nat)
  /-- SYSTEM_STEP (R569): Runs the system for COUNT rounds. -/
  | systemStep (m : Mst) (v : Nat)
  /-- STEP_COUNT_END (R569): After COUNT executed rounds the system halts again. -/
  | stepCountEnd
  /-- DBG_CREG_DATA (R566): Reads or writes the selected state of a halted core. -/
  | dbgCregData (m : Mst) (q : Nat) (write : Bool) (v : Nat)
  /-- XT_FIRE (R571): Fires trigger input 4. -/
  | xtFire (m : Mst) (r : Nat) (v : Nat)
  /-- ARM (R572): Arms a capture at DTIME E. -/
  | arm (m : Mst) (v : Nat)
  /-- CAPTURE_TAKEN (R572): All flip-flops are copied to shadow latches in one cycle. -/
  | captureTaken
  /-- DMA (R573): Unloads the capture images to HBM. -/
  | dma (m : Mst) (v : Nat)
  /-- UNLOAD_DONE (R573): The DMA unload completes, or ends FAULT. -/
  | unloadDone
  /-- STREAM (R573): Selects the streamed unload of one quarter's image. -/
  | stream (m : Mst) (v : Nat)
  /-- DISARM (R573): Disarms the capture. -/
  | disarm (m : Mst) (v : Nat)
  /-- CAP_DATA (R573): A read returns the next word of the image. -/
  | capData (m : Mst)
  /-- PATCH_CTL (R575): Enables or disables a flash patch unit and invalidates L1I lines. -/
  | patchCtl (m : Mst) (q : Nat) (u : Nat) (v : Nat)
  /-- BLK_LOCK (R611): Sets the block's LOCK bit, after which RWL writes are refused. -/
  | blkLock (m : Mst) (q : Nat) (code : Nat) (v : Nat)
  /-- UART_TX (R617): Queues a byte for transmission, dropped if the FIFO is full. -/
  | uartTx (m : Mst) (u : Nat) (v : Nat)
  /-- UART_RX (R617): A read pops the oldest received byte. -/
  | uartRx (m : Mst) (u : Nat)
  /-- UART_BYTE_RECEIVED (R617): A received byte enters the RX FIFO or sets RXOVF. -/
  | uartByteReceived (u : Nat) (byte : Nat) (par : Bool) (frm : Bool)
  /-- SPI_CMD (R617): GO starts a full-duplex SPI transfer. -/
  | spiCmd (m : Mst) (s : Nat) (v : Nat)
  /-- SPI_TRANSFER_DONE (R617): The SPI transfer ends and BUSY clears. -/
  | spiTransferDone (s : Nat) (rx : List Byte)
  /-- I3C0_CMD (R617): GO starts an I3C or I2C transaction. -/
  | i3c0Cmd (m : Mst) (v : Nat)
  /-- I3C_TRANSFER_DONE (R617): The transaction ends with its RESULT. -/
  | i3cTransferDone (res : Nat) (rx : List Byte)
  /-- PF_WARN_N_DEASSERT (R440): PF_WARN_N returns high: MSQ_PFSTAT PIN falls to 0, so that a later MSQ_PFCLR can clear the PF latch. -/
  | pfWarnNDeassert
  /-- LINK_EQUALISATION_COMPLETE (R495): A host link passes through Recovery, counted in HIF_RECOV_CNT; when the equalisation that the host redoes completes, CAL_HLINK TTEMP is updated and the link's CAL_RTDUE bit clears. -/
  | linkEqualisationComplete (link : Nat)
  /-- CREDIT_RETURN_DUE (R461): 1 µs after accepting an unacknowledged flit, or after the first credit has accrued on a channel and VC, the lane sends an LCTL carrying its ACK and the credits. -/
  | creditReturnDue (lane : Nat)
  /-- UART_BYTE_SENT (R617): A byte finishes leaving the UART TX FIFO one character time after it started, and TXLVL falls. -/
  | uartByteSent (u : Nat)
  deriving DecidableEq, Repr

end Sys2Proof
end

