-- ==== Sys2Proof/Decode.lean ====
section
/-! DEFINITION. The command a table word spells. The rows of the table give no bits, so no word spells a command. -/

namespace Sys2Proof

/-- The command spelled by a word of the table's bits: no row has bits, so there is none (assumption 2). -/
def decodeTableWord (_nbits _w : Nat) : Option Instr := none

end Sys2Proof
end

