-- ==== Sys2Proof/Machine/Bits.lean ====
section
/-! DEFINITION. Bit fields, sign extension, byte order and saturating counts: the helpers every family uses. -/

namespace Sys2Proof.Machine

/-- Bits `hi` down to `lo` of a number, as a number (SCOPE-5, x[m:l]). -/
def bitsOf (n hi lo : Nat) : Nat := n / 2 ^ lo % 2 ^ (hi + 1 - lo)

/-- Bits `hi` down to `lo` of a register value. -/
def getBits (w : Word) (hi lo : Nat) : Nat := bitsOf w.toNat hi lo

/-- The number `n` with bits `hi` down to `lo` replaced by the low bits of `v`. -/
def setBitsN (n hi lo v : Nat) : Nat :=
  n / 2 ^ (hi + 1) * 2 ^ (hi + 1) + v % 2 ^ (hi + 1 - lo) * 2 ^ lo + n % 2 ^ lo

/-- A register value with one field replaced. -/
def putBits (w : Word) (hi lo v : Nat) : Word := BitVec.ofNat 64 (setBitsN w.toNat hi lo v)

/-- Bit `b` of a number. -/
def bitAt (n b : Nat) : Bool := n.testBit b

/-- `n` read as a signed `w`-bit number. -/
def signedOf (n w : Nat) : Int :=
  let m := n % 2 ^ w
  if 0 < w ∧ 2 ^ (w - 1) ≤ m then (m : Int) - (2 ^ w : Nat) else (m : Int)

/-- An integer reduced to `w` bits, two's complement. -/
def wrapTo (t : Int) (w : Nat) : Nat := (t.emod ((2 ^ w : Nat) : Int)).toNat

/-- A count that stops at `top` (every counter of access RC that the spec calls saturating). -/
def satAdd (n k top : Nat) : Nat := if top ≤ n + k then top else n + k

/-- Rounding to the nearest integer of `p / d`, halves away from zero (SCOPE-5, round), for `d > 0`. -/
def roundDiv (p : Int) (d : Nat) : Int :=
  if p < 0 then -((((-p).toNat * 2 + d) / (2 * d) : Nat) : Int)
  else (((p.toNat * 2 + d) / (2 * d) : Nat) : Int)

/-- A Bool as one bit. -/
def b2n (b : Bool) : Nat := if b then 1 else 0

/-- The numbers below `n`, rising. -/
def upTo (n : Nat) : List Nat := List.range n

/-- The positions of the 1 bits of `n` among bits 0 to `w - 1`, rising. -/
def onesOf (n w : Nat) : List Nat := (upTo w).filter (fun i => n.testBit i)

/-- The serial order of 32-bit tick stamps: `w` is reached at `now` unless it lies 1 to 2^31 − 1 ticks ahead (R291). -/
def reached (now w : Nat) : Bool :=
  let ahead := (w % 2 ^ 32 + 2 ^ 32 - now % 2 ^ 32) % 2 ^ 32
  decide (ahead = 0) || decide (2 ^ 31 ≤ ahead)

end Sys2Proof.Machine
end

