-- ==== Sys2Proof/Machine/Flags.lean ====
section
/-! DEFINITION. Lanes, the range rule, and the predicate output of a cell (03 R69, R86, R87; 04 R101). -/

namespace Sys2Proof.Machine

/-- Lane width of a WIDTH code (CELL-1). -/
def laneW (width : Nat) : Nat :=
  match width with
  | 0 => 8
  | 1 => 16
  | 2 => 32
  | _ => 64

/-- Number of lanes of width `w` in `n` bits. -/
def laneCount (n w : Nat) : Nat := n / w

/-- Lane `i` of width `w` (R69). -/
def lane (x w i : Nat) : Nat := x / 2 ^ (w * i) % 2 ^ w

/-- A value made of its lanes, lane 0 lowest. -/
def ofLanes (w : Nat) : List Nat → Nat
  | [] => 0
  | r :: rs => r % 2 ^ w + 2 ^ w * ofLanes w rs

/-- v(x): a lane as an integer (R101). -/
def laneInt (sgn : Bool) (w x : Nat) : Int := if sgn then signedOf x w else ((x % 2 ^ w : Nat) : Int)

/-- fit(t): the range rule of CELL-10 applied to an exact integer (R87, R101). -/
def fit (sgn sat : Bool) (w : Nat) (t : Int) : Nat × Bool :=
  let lo : Int := if sgn then -((2 ^ (w - 1) : Nat) : Int) else 0
  let hi : Int := if sgn then ((2 ^ (w - 1) : Nat) : Int) - 1 else ((2 ^ w : Nat) : Int) - 1
  if (t < lo ∨ hi < t) ∧ sat = true then (wrapTo (if t < lo then lo else hi) w, true)
  else (wrapTo t w, false)

/-- mask(c): a lane of all ones or all zeros (R101). -/
def maskLane (w : Nat) (c : Bool) : Nat := if c then 2 ^ w - 1 else 0

/-- What an operation gives one lane: result, condition, saturation bit (R86). -/
structure LaneOut where
  r : Nat
  cond : Bool
  sat : Bool
  deriving DecidableEq, Repr

/-- A lane whose condition is the default one (R101). -/
def laneDflt (r : Nat) : LaneOut := ⟨r, decide (r ≠ 0), false⟩

/-- A fitted lane (R101). -/
def laneFit (x : Nat × Bool) : LaneOut := ⟨x.1, decide (x.1 ≠ 0), x.2⟩

/-- A compare lane: the mask of its relation (R103). -/
def laneRel (w : Nat) (c : Bool) : LaneOut := ⟨maskLane w c, c, false⟩

/-- The predicate output p (CELL-9, R86). -/
def predOut (red : Nat) (ls : List LaneOut) : Bool :=
  match red with
  | 0 => match ls with
    | [] => false
    | x :: _ => x.cond
  | 1 => ls.any (fun x => x.cond)
  | 2 => ls.all (fun x => x.cond)
  | _ => ls.any (fun x => x.sat)

/-- Whether any lane saturated (R88). -/
def anySat (ls : List LaneOut) : Bool := ls.any (fun x => x.sat)

/-- The result word of the lanes. -/
def laneRes (w : Nat) (ls : List LaneOut) : Nat := ofLanes w (ls.map (fun x => x.r))

end Sys2Proof.Machine
end

