-- ==== Sys2Proof/Machine/Operands.lean ====
section
/-! DEFINITION. The cell context entry CELL-5, the immediate CELL-6, the source codes CELL-2, the switch entry
TILE-2 and the sequencer word TILE-5, read field by field. -/

namespace Sys2Proof.Machine

/-- A cell context entry, its fields read out (CELL-5). -/
structure Entry where
  opcode : Nat
  width : Nat
  srca : Nat
  srcb : Nat
  srcc : Nat
  dest : Nat
  pd : Nat
  pg : Nat
  pgm : Nat
  pwe : Bool
  red : Nat
  sat : Bool
  sgn : Bool
  immx : Nat
  gang : Nat
  opx : Nat
  imm : Nat
  deriving DecidableEq, Repr

/-- The fields of the 96 bits of an entry (CELL-5, R79). -/
def entryOf (e : BitVec 96) : Entry :=
  let n := e.toNat
  { opcode := bitsOf n 7 0, width := bitsOf n 9 8, srca := bitsOf n 15 10, srcb := bitsOf n 21 16,
    srcc := bitsOf n 27 22, dest := bitsOf n 31 28, pd := bitsOf n 33 32, pg := bitsOf n 35 34,
    pgm := bitsOf n 37 36, pwe := n.testBit 38, red := bitsOf n 40 39, sat := n.testBit 41,
    sgn := n.testBit 42, immx := bitsOf n 44 43, gang := bitsOf n 47 45, opx := bitsOf n 53 48,
    imm := bitsOf n 95 64 }

/-- Source IMM, extended by IMMX (CELL-6, R82). -/
def immValue (e : Entry) : Word :=
  let w := laneW e.width
  match e.immx with
  | 0 => BitVec.ofNat 64 e.imm
  | 1 => BitVec.ofInt 64 (signedOf e.imm 32)
  | 2 => if w = 64 then BitVec.ofInt 64 (signedOf e.imm 32)
    else BitVec.ofNat 64 (ofLanes w (List.replicate (64 / w) (e.imm % 2 ^ w)))
  | _ => BitVec.ofNat 64 (e.imm * 2 ^ 32)

/-- What a source code names (CELL-2). -/
inductive Src where
  | zero | imm
  | port (n : Nat)
  | mem (n : Nat)
  | loc (n : Nat)
  | pred (n : Nat)
  | laneIn (n : Nat)
  | cell (n : Nat)
  | reserved
  deriving DecidableEq, Repr

/-- The 6-bit source codes of CELL-2 (R71). -/
def srcOf (c : Nat) : Src :=
  if c = 0 then .zero
  else if c = 1 then .imm
  else if c < 4 then .port (c - 2)
  else if c < 8 then .mem (c - 4)
  else if c < 0x10 then .loc (c - 8)
  else if c < 0x14 then .pred (c - 0x10)
  else if c < 0x18 then .reserved
  else if c < 0x20 then .laneIn (c - 0x18)
  else if c < 0x30 then .cell (c - 0x20)
  else .reserved

/-- What a switch source code names (TILE-3): `none` is HOLD or no push. -/
def swSrcOf (c : Nat) : Option Src :=
  if c = 0 then none
  else if c = 1 then some .zero
  else match srcOf c with
    | .port n => some (.port n)
    | .mem n => some (.mem n)
    | .laneIn n => some (.laneIn n)
    | .cell n => some (.cell n)
    | _ => some .reserved

/-- A switch context entry, its fields read out (TILE-2). `sel` are the eight lane selections in lane order
N0 N1 E0 E1 S0 S1 W0 W1; `mp` are the eight port assignments in the order MP0A MP0B MP1A … MP3B. -/
structure SwEntry where
  sel : List Nat
  mp : List Nat
  pop0 : Bool
  pop1 : Bool
  push0 : Nat
  push1 : Nat
  deriving DecidableEq, Repr

/-- The fields of the 256 bits of a switch entry (TILE-2, R130). -/
def swEntryOf (e : BitVec 256) : SwEntry :=
  let n := e.toNat
  { sel := (upTo 8).map (fun i => bitsOf n (6 * i + 5) (6 * i)),
    mp := (upTo 8).map (fun i => bitsOf n (52 + 5 * i) (48 + 5 * i)),
    pop0 := n.testBit 88, pop1 := n.testBit 89,
    push0 := bitsOf n 95 90, push1 := bitsOf n 101 96 }

/-- The switch entry that holds every selection and does nothing (R130). -/
def swNone : SwEntry := swEntryOf 0

/-- A sequencer control word, its fields read out (TILE-5). -/
structure SeqWord where
  enPro : Bool
  enBody : Bool
  enEpi : Bool
  rcond : Nat
  deriving DecidableEq, Repr

/-- The fields of a sequencer word (TILE-5, R141). -/
def seqWordOf (e : BitVec 16) : SeqWord :=
  let n := e.toNat
  { enPro := n.testBit 0, enBody := n.testBit 1, enEpi := n.testBit 2, rcond := bitsOf n 6 4 }

end Sys2Proof.Machine
end

