-- ==== Sys2Proof/Machine/CellOps.lean ====
section
/-! DEFINITION. The cell operations of OPS-1 (04_cell_operations): what each opcode computes on its lanes. -/

namespace Sys2Proof.Machine

/-- The operations of the opcode map OPS-1 (R102). -/
inductive Op where
  | nop | add | sub | add3 | abs | absd | min | max | cmpeq | cmpne | cmplt | cmple
  | and | or | xor | andn | xor3 | test | shl | shr | rotl | rotr | bfx | bfi | popc | clz
  | mul | mac | macs | tapmv | gfmul8 | gfmac8 | gfmul16 | clmul | xorfold
  | mins2 | sgnx | matchlen | aes | sel | wmux | plut | ld | ldr | st | agw
  deriving DecidableEq, Repr

/-- Opcode to operation; every value not listed is reserved (OPS-1, R102). -/
def opOf (c : Nat) : Option Op :=
  match c with
  | 0x00 => some .nop
  | 0x01 => some .add
  | 0x02 => some .sub
  | 0x03 => some .add3
  | 0x04 => some .abs
  | 0x05 => some .absd
  | 0x06 => some .min
  | 0x07 => some .max
  | 0x08 => some .cmpeq
  | 0x09 => some .cmpne
  | 0x0A => some .cmplt
  | 0x0B => some .cmple
  | 0x10 => some .and
  | 0x11 => some .or
  | 0x12 => some .xor
  | 0x13 => some .andn
  | 0x14 => some .xor3
  | 0x15 => some .test
  | 0x18 => some .shl
  | 0x19 => some .shr
  | 0x1A => some .rotl
  | 0x1B => some .rotr
  | 0x1C => some .bfx
  | 0x1D => some .bfi
  | 0x1E => some .popc
  | 0x1F => some .clz
  | 0x20 => some .mul
  | 0x21 => some .mac
  | 0x22 => some .macs
  | 0x23 => some .tapmv
  | 0x28 => some .gfmul8
  | 0x29 => some .gfmac8
  | 0x2A => some .gfmul16
  | 0x2B => some .clmul
  | 0x2C => some .xorfold
  | 0x30 => some .mins2
  | 0x31 => some .sgnx
  | 0x32 => some .matchlen
  | 0x38 => some .aes
  | 0x40 => some .sel
  | 0x41 => some .wmux
  | 0x42 => some .plut
  | 0x48 => some .ld
  | 0x49 => some .ldr
  | 0x4A => some .st
  | 0x4B => some .agw
  | _ => none

/-- The WIDTH codes an operation accepts (OPS-1, Widths). -/
def opWidthOk (o : Op) (width : Nat) : Bool :=
  match o with
  | .gfmul8 => width == 0
  | .gfmac8 => width == 0
  | .gfmul16 => width == 1
  | .mins2 => width != 0
  | .xorfold => width == 3
  | .matchlen => width == 3
  | .aes => width == 3
  | .ld => width == 3
  | .ldr => width == 3
  | .st => width == 3
  | .agw => width == 3
  | _ => true

/-- Whether the operation reads operand A, B, C (OPS-1, Operands; R99). -/
def opReads (o : Op) : Bool × Bool × Bool :=
  match o with
  | .nop => (false, false, false)
  | .plut => (false, false, false)
  | .abs => (true, false, false)
  | .bfx => (true, false, false)
  | .popc => (true, false, false)
  | .clz => (true, false, false)
  | .ld => (true, false, false)
  | .ldr => (true, false, false)
  | .agw => (true, false, false)
  | .add3 => (true, true, true)
  | .xor3 => (true, true, true)
  | .mac => (true, true, true)
  | .macs => (true, true, true)
  | .tapmv => (true, true, true)
  | .gfmac8 => (true, true, true)
  | .xorfold => (true, true, true)
  | .sgnx => (true, true, true)
  | .sel => (true, true, true)
  | .wmux => (true, true, true)
  | _ => (true, true, false)

/-- Whether the operation uses a tile-memory bank (OPS-7). -/
def opIsMem (o : Op) : Bool :=
  match o with
  | .ld => true
  | .ldr => true
  | .st => true
  | .tapmv => true
  | _ => false

/-- The must-be-zero bits of OPX and IMM per operation (R100, R106, R107, R109, R110, R116, R119, OPS-5). -/
def opMbzOk (o : Op) (e : Entry) : Bool :=
  let mode := bitsOf e.imm 31 30
  let direct : Bool := mode != 0 || bitsOf e.opx 5 2 == 0
  match o with
  | .mul => bitsOf e.opx 5 1 == 0
  | .clmul => bitsOf e.opx 5 1 == 0
  | .gfmul8 => bitsOf e.opx 5 2 == 0
  | .gfmac8 => bitsOf e.opx 5 2 == 0
  | .gfmul16 => bitsOf e.opx 5 2 == 0
  | .aes => bitsOf e.opx 5 2 == 0
  | .wmux => true
  | .agw => true
  | .tapmv => true
  | .bfx => e.opx == 0 && bitsOf e.imm 7 6 == 0 && bitsOf e.imm 31 14 == 0
  | .bfi => e.opx == 0 && bitsOf e.imm 7 6 == 0 && bitsOf e.imm 31 14 == 0
  | .plut => e.opx == 0 && bitsOf e.imm 31 16 == 0
  | .ld => mode != 3 && direct && bitsOf e.imm 29 11 == 0
  | .st => mode != 3 && direct && bitsOf e.imm 29 11 == 0
  | .ldr => mode != 3 && direct && bitsOf e.imm 27 14 == 0 && bitsOf e.imm 29 28 != 3
  | _ => e.opx == 0

/-- The operations a pair may run (OPS-1, Gang). -/
def opPairOk (o : Op) : Bool :=
  match o with
  | .cmpeq => true
  | .cmpne => true
  | .cmplt => true
  | .cmple => true
  | .aes => true
  | .sel => true
  | .wmux => true
  | _ => false

/-- Latency in executed cycles (SCHED-2, OPS-1; R38). -/
def opLatency (o : Op) (quad : Bool) : Nat :=
  match o with
  | .mul => 3
  | .mac => 3
  | .macs => 3
  | .tapmv => 3
  | .gfmul8 => 2
  | .gfmac8 => 2
  | .gfmul16 => 2
  | .clmul => 2
  | .xorfold => 2
  | .aes => 4
  | .wmux => if quad then 2 else 1
  | .ld => 2
  | .ldr => 2
  | _ => 1

/-- gfmul of R110, from bit `j - 1` down to bit 0. -/
def gfStep (x y m p : Nat) : Nat → Nat → Nat
  | 0, t => t
  | j + 1, t =>
    let t1 := t * 2
    let t2 := if t1.testBit m then t1 ^^^ (2 ^ m ||| p) else t1
    gfStep x y m p j (if y.testBit j then t2 ^^^ x else t2)

/-- Product in GF(2^m) modulo x^m + p (R110). -/
def gfMul (x y m p : Nat) : Nat := gfStep x y m p m 0 % 2 ^ m

/-- Carry-less product of `w`-bit numbers, 2w − 1 bits (R110). -/
def clmulFull (x y w : Nat) : Nat :=
  (onesOf y w).foldl (fun t j => t ^^^ (x <<< j)) 0

/-- Count of the 1 bits of a `w`-bit number. -/
def popcount (x w : Nat) : Nat := (onesOf x w).length

/-- Zeros above the highest 1 bit of a `w`-bit number (R106). -/
def clz (x w : Nat) : Nat := if x % 2 ^ w = 0 then w else w - 1 - Nat.log2 (x % 2 ^ w)

/-- Position and length of the field of BFX and BFI (R106). -/
def bfField (imm w : Nat) : Nat × Nat :=
  let pos := bitsOf imm 5 0 % w
  let l := bitsOf imm 13 8
  let len := if l = 0 then 64 else l
  (pos, Nat.min len (w - pos))

/-- One lane of MINS2 (R112). -/
def mins2Lane (sgn : Bool) (w a b : Nat) : LaneOut :=
  let f := w / 4
  let min1 := bitsOf a (f - 1) 0
  let min2 := bitsOf a (2 * f - 1) f
  let idx := bitsOf a (3 * f - 1) (2 * f)
  let pos := bitsOf a (4 * f - 1) (3 * f)
  let m := if sgn then (signedOf b f).natAbs else b % 2 ^ f
  let c := decide (m < min1)
  let min2' := if m < min1 then min1 else if m < min2 then m else min2
  let min1' := if m < min1 then m else min1
  let idx' := if m < min1 then pos else idx
  ⟨(pos + 1) % 2 ^ f * 2 ^ (3 * f) + idx' * 2 ^ (2 * f) + min2' % 2 ^ f * 2 ^ f + min1' % 2 ^ f, c, false⟩

/-- One lane of SGNX (R113). -/
def sgnxLane (sat : Bool) (w a b c : Nat) : LaneOut :=
  let s := b.testBit (w - 1) != c.testBit (w - 1)
  let m : Int := ((signedOf a w).natAbs : Int)
  let x := fit true sat w (if s then -m else m)
  ⟨x.1, s, x.2⟩

/-- Equal leading bytes of two words, from byte 0 (R114). -/
def matchLen (a b : Nat) : Nat → Nat → Nat
  | 0, n => n
  | fuel + 1, n => if lane a 8 n = lane b 8 n then matchLen a b fuel (n + 1) else n

/-- GFP polynomials are passed in as a function of the OPX number; one lane of an operation that works lane by
lane (R103, R105, R106, R107, R110, R112, R113). `gfp` is the value of the named GFP register. -/
def laneOp (o : Op) (e : Entry) (gfp w a b c : Nat) : LaneOut :=
  let va := laneInt e.sgn w a
  let vb := laneInt e.sgn w b
  let vc := laneInt e.sgn w c
  let n := b % w
  match o with
  | .add => laneFit (fit e.sgn e.sat w (va + vb))
  | .sub => laneFit (fit e.sgn e.sat w (va - vb))
  | .add3 => laneFit (fit e.sgn e.sat w (va + vb + vc))
  | .abs => laneFit (fit e.sgn e.sat w (va.natAbs : Int))
  | .absd => laneFit (fit e.sgn e.sat w ((va - vb).natAbs : Int))
  | .min => ⟨if vb < va then b else a, decide (vb < va), false⟩
  | .max => ⟨if va < vb then b else a, decide (va < vb), false⟩
  | .cmpeq => laneRel w (decide (a = b))
  | .cmpne => laneRel w (decide (a ≠ b))
  | .cmplt => laneRel w (decide (va < vb))
  | .cmple => laneRel w (decide (va ≤ vb))
  | .and => laneDflt (a &&& b)
  | .or => laneDflt (a ||| b)
  | .xor => laneDflt (a ^^^ b)
  | .andn => laneDflt (a &&& (2 ^ w - 1 - b))
  | .xor3 => laneDflt (a ^^^ b ^^^ c)
  | .test => laneRel w (decide (a &&& b ≠ 0))
  | .shl => laneDflt (a <<< n % 2 ^ w)
  | .shr => laneDflt (if e.sgn then wrapTo (signedOf a w / ((2 ^ n : Nat) : Int)) w else a >>> n)
  | .rotl => laneDflt ((a <<< n ||| a >>> (w - n)) % 2 ^ w)
  | .rotr => laneDflt ((a >>> n ||| a <<< (w - n)) % 2 ^ w)
  | .bfx =>
    let (pos, len) := bfField e.imm w
    let f := a / 2 ^ pos % 2 ^ len
    laneDflt (if e.sgn then wrapTo (signedOf f len) w else f)
  | .bfi =>
    let (pos, len) := bfField e.imm w
    laneDflt (setBitsN a (pos + len - 1) pos b)
  | .popc => laneDflt (popcount a w)
  | .clz => laneDflt (clz a w)
  | .mul =>
    if e.opx % 2 = 0 then laneFit (fit e.sgn e.sat w (va * vb))
    else laneDflt (wrapTo ((va * vb) / ((2 ^ w : Nat) : Int)) w)
  | .mac => laneFit (fit e.sgn e.sat w (vc + va * vb))
  | .macs => laneFit (fit e.sgn true w (vc + va * vb))
  | .gfmul8 => laneDflt (gfMul a b 8 (gfp % 2 ^ 8))
  | .gfmac8 => laneDflt (c ^^^ gfMul a b 8 (gfp % 2 ^ 8))
  | .gfmul16 => laneDflt (gfMul a b 16 (gfp % 2 ^ 16))
  | .clmul =>
    let t := clmulFull a b w
    laneDflt (if e.opx % 2 = 0 then t % 2 ^ w else t / 2 ^ w % 2 ^ w)
  | .mins2 => mins2Lane e.sgn w a b
  | .sgnx => sgnxLane e.sat w a b c
  | _ => laneDflt 0

/-- The lanes of a 64-bit operation of a single cell, or of one member of a pair that computes lane by lane
(R101). XORFOLD, MATCHLEN and the bitwise SEL treat the word as one unit where they say so. -/
def lanesOf (o : Op) (e : Entry) (gfp : Nat) (a b c : Word) : List LaneOut :=
  let w := laneW e.width
  let an := a.toNat
  let bn := b.toNat
  let cn := c.toNat
  match o with
  | .xorfold =>
    [laneDflt (cn ^^^ clmulFull (bitsOf an 31 0) (bitsOf bn 31 0) 32
      ^^^ clmulFull (bitsOf an 63 32) (bitsOf bn 63 32) 32)]
  | .matchlen =>
    let n := matchLen an bn 8 0
    [⟨n, decide (n = 8), false⟩]
  | .sel =>
    let r := (an &&& cn) ||| (bn &&& (2 ^ 64 - 1 - cn))
    (upTo (64 / w)).map (fun i => laneDflt (lane r w i))
  | _ => (upTo (64 / w)).map (fun i => laneOp o e gfp w (lane an w i) (lane bn w i) (lane cn w i))

/-- The lanes of a result that was computed whole: the default condition per lane (R101). -/
def lanesDflt (w : Nat) (r : Word) : List LaneOut :=
  (upTo (64 / w)).map (fun i => laneDflt (lane r.toNat w i))

/-- One tap of a filter: the lanes of TAPMV on the sample word `x` (R108). -/
def tapLanes (e : Entry) (x b c : Word) : List LaneOut :=
  let w := laneW e.width
  let s := if e.sgn then w - 1 else w
  (upTo (64 / w)).map (fun i =>
    let q := roundDiv (laneInt e.sgn w (lane x.toNat w i) * laneInt e.sgn w (lane b.toNat w i)) (2 ^ s)
    laneFit (fit e.sgn e.sat w (laneInt e.sgn w (lane c.toNat w i) + q)))

/-- A compare over one 128-bit lane (R104): leader's A and B low, high member's high. -/
def cmp128 (o : Op) (sgn : Bool) (a b : Nat) : LaneOut :=
  let va := laneInt sgn 128 a
  let vb := laneInt sgn 128 b
  let c := match o with
    | .cmpeq => decide (a = b)
    | .cmpne => decide (a ≠ b)
    | .cmplt => decide (va < vb)
    | _ => decide (va ≤ vb)
  laneRel 128 c

/-- The word that LDR makes of a memory word: bytes rotated by `rr`, masked by PART (R121). -/
def ldrWord (u : Word) (rr part : Nat) : Word :=
  let t := (upTo 8).map (fun j => lane u.toNat 8 ((j + rr) % 8))
  let m := (upTo 8).map (fun j =>
    let v := match t[j]? with
      | some x => x
      | none => 0
    match part with
    | 1 => if 8 - rr ≤ j then 0 else v
    | 2 => if j < 8 - rr then 0 else v
    | _ => v)
  BitVec.ofNat 64 (ofLanes 8 m)

/-- The truth-table bit of PLUT and the select of a single WMUX come from the cell's predicates P0 to P3
packed as a number (R116). -/
def plutBit (imm p : Nat) : Bool := imm.testBit (p % 16)

end Sys2Proof.Machine
end

