-- ==== Sys2Proof/Machine/Aes.lean ====
section
/-! DEFINITION. The AES round of OPS-3 (R115), with the byte order of FIPS 197. -/

namespace Sys2Proof.Machine

/-- Product in the field of AES, GF(2^8) modulo x^8 + x^4 + x^3 + x + 1. -/
def aesMul (x y : Nat) : Nat := gfMul x y 8 0x1B

/-- `x` to the power `n` in the field of AES. -/
def aesPow (x : Nat) : Nat → Nat
  | 0 => 1
  | n + 1 => aesMul x (aesPow x n)

/-- Left rotation of a byte. -/
def rotByte (x n : Nat) : Nat := (x <<< n ||| x >>> (8 - n)) % 256

/-- x^2 in the field of AES. -/
def aesSq (x : Nat) : Nat := aesMul x x

/-- The inverse x^254 (0 for 0), by squaring. -/
def aesInv (x : Nat) : Nat :=
  let x2 := aesSq x
  let x4 := aesSq x2
  let x8 := aesSq x4
  let x16 := aesSq x8
  let x32 := aesSq x16
  let x64 := aesSq x32
  let x128 := aesSq x64
  aesMul x2 (aesMul x4 (aesMul x8 (aesMul x16 (aesMul x32 (aesMul x64 x128)))))

/-- SubBytes of one byte: the inverse, then the affine map. -/
def subByte (x : Nat) : Nat :=
  let b := aesInv (x % 256)
  b ^^^ rotByte b 1 ^^^ rotByte b 2 ^^^ rotByte b 3 ^^^ rotByte b 4 ^^^ 0x63

/-- InvSubBytes of one byte: the inverse affine map, then the inverse. -/
def invSubByte (x : Nat) : Nat :=
  let b := x % 256
  aesInv (rotByte b 1 ^^^ rotByte b 3 ^^^ rotByte b 6 ^^^ 0x05)

/-- State byte `j` of a list of 16 bytes. -/
def byteAt (s : List Nat) (j : Nat) : Nat :=
  match s[j]? with
  | some x => x
  | none => 0

/-- ShiftRows: row r moves r columns to the left; byte j is row j mod 4, column j div 4. -/
def shiftRows (s : List Nat) : List Nat :=
  (upTo 16).map (fun j => byteAt s ((j / 4 + j % 4) % 4 * 4 + j % 4))

/-- InvShiftRows. -/
def invShiftRows (s : List Nat) : List Nat :=
  (upTo 16).map (fun j => byteAt s ((j / 4 + 4 - j % 4) % 4 * 4 + j % 4))

/-- A column mix with the row coefficients `m0 m1 m2 m3`. -/
def mixWith (m0 m1 m2 m3 : Nat) (s : List Nat) : List Nat :=
  (upTo 16).map (fun j =>
    let c := j / 4 * 4
    let r := j % 4
    aesMul m0 (byteAt s (c + r)) ^^^ aesMul m1 (byteAt s (c + (r + 1) % 4))
      ^^^ aesMul m2 (byteAt s (c + (r + 2) % 4)) ^^^ aesMul m3 (byteAt s (c + (r + 3) % 4)))

/-- One AES round on 128 bits in the mode of OPS-3. -/
def aesRound (mode a b : Nat) : Nat :=
  let s := (upTo 16).map (fun j => lane a 8 j)
  let t := match mode with
    | 0 => mixWith 2 3 1 1 (shiftRows (s.map subByte))
    | 1 => shiftRows (s.map subByte)
    | 2 => mixWith 14 11 13 9 ((invShiftRows s).map invSubByte)
    | _ => (invShiftRows s).map invSubByte
  ofLanes 8 t ^^^ b

end Sys2Proof.Machine
end

