-- ==== Sys2Proof/Machine/Regs.lean ====
section
/-! DEFINITION. The register map of the spec (24_register_index REG-1 and every chapter's register table):
one name per register row, and for each row its block, offset, width, access code, reset value, the bits
software may set, the bits that are RWL, the bits that are W1C, and how often it repeats. -/

namespace Sys2Proof.Machine

/-- The register blocks of REG-1 (R608), with the always-on block (R613), the block header of every block
(R610), and the three places without a device address (R607): function pages, doorbell pages, Dweaz. -/
inductive Blk where
  | SYS | FUSE | CLK | RST | PWR | EVT | DSP | MBX | NOC | LEAP | HBM | SCC | WIN | HIF | QE | MSQ | TET | NPH | CAL | CORE | BNK | FLS | SER | DBG | ARY | SEN | AO | HDR | FN | DB | DW
  deriving DecidableEq, Repr

/-- Access codes of SCOPE-7 (R14). `w1c` also names the rows whose access is RO with W1C bits. -/
inductive Acc where
  | ro | rw | wo | w1c | w1s | rc | rwl
  deriving DecidableEq, Repr

/-- One register row: where it lies (R607, R608), its width, its access code, its reset value, and how many
times it repeats (three levels of count and stride, the widest first). -/
structure RegDesc where
  blk : Blk
  off : Nat
  wide : Bool
  acc : Acc
  rst : Nat
  wmask : Nat
  lmask : Nat
  cmask : Nat
  ci : Nat
  si : Nat
  cj : Nat
  sj : Nat
  ck : Nat
  sk : Nat
  deriving DecidableEq, Repr

/-- The names of the registers, in the order of the spec's tables. -/
inductive R where
  | TILE_ID | TMEM_OWN | TMEM_STAT | TMEM_FLAGS | TMEM_CCNT | TMEM_CE_LEVEL | TMEM_CE_HI | TMEM_CE_LO
  | TMEM_CE_STATUS | TMEM_UE_LOG | TMEM_UE_CNT | TMEM_SPARE | SW_UE_LOG | TPORT_STAT | TMEM_NOCTO | AGREG
  | CLU_ID | CLU_STAT | CLU_REGROW | ISO_STAT | FENCE_LOG | CTX_CE_LEVEL | CTX_CE_HI | CTX_CE_LO
  | CTX_CE_STATUS | CTX_UE_LOG | CTX_UE_CNT | CTX_ILLEGAL_CNT | FENCE_CNT | POS_CFG | GFP | SLOT_CMD
  | SLOT_STAT | SLOT_FOOT | SLOT_GEN | SLOT_OID | SLOT_FRAME | SLOT_EXIT | SLOT_RUN | SLOT_FRAMES
  | SLOT_MAP | VP_CFG | LPB | CSAT | BR_ID | BR_STAT | REPAIR_CMD | REPAIR_STAT
  | DIR_STAT | DIR_CFG | RETRY_CNT | FAULT_CNT | FILLER_ERR_CNT | ACK_ERR_CNT | ALIGN_ERR_CNT | UNMATCHED_CNT
  | FAULT_LOG | LANE_ERR | SPARE_MAP | WIRE_ERR | WIRE_FLAG | NSL_STAT | NSL_CRC_CNT | NSL_REPLAY_CNT
  | NSL_SPARE | SEN_CTRL | SEN_STAT | SEN_FIFO | SEN_ERRLOG | JADDR | JLEN | JATTR
  | JDONE | JTAG | WIN_FIRST | WIN_COUNT | WIN_MOLT | WIN_FAULT_CNT | WIN_FAULT_LOG | WIN_ENT
  | SCC_CFG | SCC_CE_CNT | SCC_UE_LOG | SCC_WAYS | SCC_CLASS | SCC_HIT | SCC_MISS | HBM_STAT
  | HBM_CE_CNT | HBM_UE_LOG | HBM_UE_CNT | GRP_RATE | GRP_RSUM | NOC_ERR_LOG | NOC_TRUNC_LOG | NOC_TRUNC_CNT
  | NOC_WEIGHT | NOC_WSUM | GRP_MAP | DSP_ID | DSP_CTRL | DSP_STAT | DSP_TCB_BASE | DSP_TCB_COUNT
  | DSP_CMD | DSP_ERR_LOG | DSP_ERR_CNT | DSP_BP_CNT | DSP_RDY_LEVEL | DSP_RDY_HI | DSP_RDY_LO | DSP_RDY_STATUS
  | DSP_DLY_LEVEL | DSP_DLY_HI | DSP_DLY_LO | DSP_DLY_STATUS | DSP_TRACE_BASE | DSP_TRACE_SIZE | DSP_TRACE_WP | DSP_TRACE_DROP
  | DSP_LVL_CNT | DSP_REPL | DSP_REPL_EN | DSP_SLOT | DSP_CORE | CORE_ID | CORE_CTRL | CORE_STAT
  | CORE_RSTVEC | CORE_WEDGE_LOG | CORE_FLT_CNT | CORE_SPILL_ERR | CORE_SPILL_CNT | CORE_FPX_CNT | BNK_OWNER | BNK_STAT
  | BNK_CCNT | BNK_FLAGS | BNK_SPARE | BNK_CE_LEVEL | BNK_CE_HI | BNK_CE_LO | BNK_CE_STATUS | BNK_UE_LOG
  | BNK_UE_CNT | EVT_ID | EVT_CTRL | EVT_COAL_CNT | EVT_LOG_BASE | EVT_LOG_SIZE | EVT_LOG_WP | EVT_LOG_DROP
  | EVT_CLAIM | EVT_TMR_CTRL | EVT_TMR_PERIOD | EVT_TMR_NEXT | EVT_PEND | EVT_SWSET | EVT_ROUTE | MBX_LOCK
  | MBX_CROAK_CNT | MBX_ABORT_CNT | MBX_SPTR | MBX_SLT | MBX_RPTR | MBX_RLT | MBX_STAT | MBX_WORD
  | MBX_HLOCK | MBX_HPEND | HMBX_SPTR | HMBX_SLT | HMBX_RPTR | HMBX_RLT | HMBX_STAT | HMBX_WORD
  | FN_ID | FN_STAT | FN_TICK | FN_MBX_SPTR | FN_MBX_SLT | FN_MBX_STAT | FN_MBX_WORD | FN_MSIX
  | FN_PBA | HIF_ID | HIF_STAT | HIF_PCFG | HIF_LCTRL | HIF_LSTAT | HIF_LCFG | HIF_VFCFG
  | HIF_VFBASE | HIF_IDCFG | HIF_DOWN_CNT | HIF_RECOV_CNT | HIF_CORR_CNT | HIF_UNCORR_CNT | HIF_LLOG | HIF_FLRPEND
  | SQ_TAIL | CQ_HEAD | QP_CTRL | QP_STAT | SQ_BASE | CQ_BASE | QP_SIZE | QP_INTR
  | QP_ITIME | SQ_HEAD | CQ_TAIL | QP_INFO | QE_ID | QE_CTRL | QE_STAT | QE_ENT_BASE
  | QE_TCB_FIRST | QE_FW_CHAN | QE_FW_BASE | QE_FWDONE | QE_ERR_LOG | QE_ERR_CNT | QE_BP_CNT | QE_TONGUE_ARG
  | QE_TONGUE_CMD | QE_TONGUE_STAT | QE_THREAD_PC | QE_TAREA_BASE | QE_WMPEND | QP_OWN | QP_FLAGS | QP_WM_LEVEL
  | QP_WM_HI | QP_WM_LO | QP_WM_STATUS | MSQ_CHCFG | MSQ_CHCTRL | MSQ_POST | MSQ_CHSTAT | MSQ_CHERR
  | MSQ_CHLOG | MSQ_LUNOP | MSQ_CHBCCNT | MSQ_CHBCE | MSQ_RBASE | MSQ_RSIZE | MSQ_RWP | MSQ_RRP
  | MSQ_RHOLD | MSQ_RWM_LEVEL | MSQ_RWM_HI | MSQ_RWM_LO | MSQ_RWM_STATUS | MSQ_ID | MSQ_CONF | MSQ_PROBECFG
  | MSQ_PROBELEN | MSQ_WMPEND | MSQ_PFSTAT | MSQ_PFCLR | MSQ_OPDARM | MSQ_OPCAP | MSQ_OPUSE | NPH_CFG
  | NPH_STAT | NPH_TRAIN | NPH_TSTAT | TET_LCTRL | TET_LCFG | TET_LSTAT | TET_BACKOFF | TET_BRID
  | TET_BRINFO | TET_EYE | TET_FEC_CE | TET_FEC_UE | TET_CRC_ERR | TET_REPLAY_CNT | TET_NAK_CNT | TET_DOWN_CNT
  | TET_RESTART_CNT | TET_LINKTO | TET_LLOG | TET_MADDR | TET_MRADDR | TET_MCMD | TET_MSTAT | TET_CHINFO
  | TET_CHERR | TET_ID | TET_RXCRED | TET_STAT | CAL_ID | CAL_CTRL | CAL_STAT | CAL_TBASE
  | CAL_SWBASE | CAL_SWSIZE | CAL_SWWP | CAL_SWRP | CAL_ECMD | CAL_EDATA | CAL_ESTAT | CAL_APPLIED
  | CAL_DROPPED | CAL_LOST | CAL_COLD | CAL_RTCFG | CAL_RTDUE | CAL_SWLOST | CAL_FRBASE | CAL_FRSIZE
  | CAL_FRRP | CAL_FRSEQ | CAL_CHCFG | CAL_HLINK | CAL_PCFG | CAL_PASTALE | CAL_PBASE | CAL_PTC
  | CAL_PMASK | FLS_ID | FLS_CTRL | FLS_STAT | FLS_ADDR | FLS_CMD | FLS_CE_CNT | FLS_UE_LOG
  | FLS_DATA | AO_STATUS | AO_SEQ | AO_RPT | AO_GKHASH | AO_GPOLICY | AO_HBCFG | AO_HBSTAT
  | AO_FAILOVER | CLK_ID | CLK_STAT | DTIME | TICK | CLK_ALIGN | RST_QCTL | RST_CLU
  | RST_STAT | RST_CAUSE | PWR_DOM | PWR_TSENS | PWR_TQ | PWR_QPOWER | GOV_PL_LONG | GOV_PL_SHORT
  | GOV_PL_PEAK | GOV_CFG | GOV_FLOOR | GOV_STAT | GOV_SKIP_CNT | GOV_PAVG | GOV_PNOW | GOV_HOT
  | SAFE_STAT | AVS_CFG | AVS_TRIM | AVS_STAT | AVS_ERR_CNT | FLT_AERR_LOG | FLT_AERR_CNT | FLT_SLOTPOL
  | FLT_SLOT_LOG | FLT_QLOST | FLT_PPR_CMD | FLT_PPR_STAT | DW_IDCODE | DW_UID_LO | DW_UID_HI | DW_STAT
  | DW_AUTH_CMD | DW_NONCE | DW_AUTH_DATA | DW_ADDR_LO | DW_ADDR_HI | DW_DATA | DW_DATA_HI | DW_BUSCTL
  | DBG_ID | DBG_CTRL | DBG_STAT | DBG_EBHALT | DBG_CCMD | DBG_CREG_SEL | DBG_CREG_DATA | PATCH_CTL
  | PATCH_DATA | DBG_SHALT | XT_IN | XT_ACT | XT_CMASK | XT_DTIME | XT_FIRE | CAP_CTRL
  | CAP_DTIME | CAP_BASE | CAP_STAT | CAP_SIZE | CAP_DATA | BLK_ID | BLK_LOCK | AO_PARTID
  | AO_ORDER | AO_UID | FUSE_STAT | FUSE_QPOS | FUSE_KHASH | UART_CFG | UART_TX | UART_RX
  | UART_STAT | SPI_CFG | SPI_CMD | SPI_STAT | SPI_DATA | I3C0_CFG | I3C0_CMD | I3C0_STAT
  | I3C0_DATA | GPIO_OUT | GPIO_OE | GPIO_IN | SER_ERR
  deriving DecidableEq, Repr

/-- The row of the register tables of each register (the spec's own tables: see INVENTORY.md, State). -/
def R.desc : R → RegDesc
  | .TILE_ID => ⟨.ARY, 0x0, false, .ro, 0x0, 0x0, 0x0, 0x0, 16, 0x10000, 72, 0x200, 1, 0x0⟩
  | .TMEM_OWN => ⟨.ARY, 0x4, false, .rw, 0x0, 0xFFFF, 0x0, 0x0, 16, 0x10000, 72, 0x200, 1, 0x0⟩
  | .TMEM_STAT => ⟨.ARY, 0x8, false, .ro, 0x0, 0x0, 0x0, 0x0, 16, 0x10000, 72, 0x200, 1, 0x0⟩
  | .TMEM_FLAGS => ⟨.ARY, 0xC, false, .w1c, 0x0, 0x0, 0x0, 0xFFF, 16, 0x10000, 72, 0x200, 1, 0x0⟩
  | .TMEM_CCNT => ⟨.ARY, 0x10, false, .rc, 0x0, 0x0, 0x0, 0x0, 16, 0x10000, 72, 0x200, 4, 0x4⟩
  | .TMEM_CE_LEVEL => ⟨.ARY, 0x20, false, .ro, 0x0, 0x0, 0x0, 0x0, 16, 0x10000, 72, 0x200, 1, 0x0⟩
  | .TMEM_CE_HI => ⟨.ARY, 0x24, false, .rw, 0x10, 0xFFFFFFFF, 0x0, 0x0, 16, 0x10000, 72, 0x200, 1, 0x0⟩
  | .TMEM_CE_LO => ⟨.ARY, 0x28, false, .rw, 0x0, 0xFFFFFFFF, 0x0, 0x0, 16, 0x10000, 72, 0x200, 1, 0x0⟩
  | .TMEM_CE_STATUS => ⟨.ARY, 0x2C, false, .w1c, 0x0, 0x0, 0x0, 0x60000000, 16, 0x10000, 72, 0x200, 1, 0x0⟩
  | .TMEM_UE_LOG => ⟨.ARY, 0x30, true, .w1c, 0x0, 0x0, 0x0, 0xC000000000000000, 16, 0x10000, 72, 0x200, 1, 0x0⟩
  | .TMEM_UE_CNT => ⟨.ARY, 0x38, false, .rc, 0x0, 0x0, 0x0, 0x0, 16, 0x10000, 72, 0x200, 1, 0x0⟩
  | .TMEM_SPARE => ⟨.ARY, 0x3C, false, .ro, 0x0, 0x0, 0x0, 0x0, 16, 0x10000, 72, 0x200, 1, 0x0⟩
  | .SW_UE_LOG => ⟨.ARY, 0x40, true, .w1c, 0x0, 0x0, 0x0, 0xC000000000000000, 16, 0x10000, 72, 0x200, 1, 0x0⟩
  | .TPORT_STAT => ⟨.ARY, 0x48, false, .ro, 0x0, 0x0, 0x0, 0x0, 16, 0x10000, 72, 0x200, 1, 0x0⟩
  | .TMEM_NOCTO => ⟨.ARY, 0x4C, false, .rw, 0x1000, 0xFFFF, 0x0, 0x0, 16, 0x10000, 72, 0x200, 1, 0x0⟩
  | .AGREG => ⟨.ARY, 0x100, true, .rw, 0x0, 0xFFF07FF07FF07FF, 0x0, 0x0, 16, 0x10000, 72, 0x200, 32, 0x8⟩
  | .CLU_ID => ⟨.ARY, 0x9000, false, .ro, 0x0, 0x0, 0x0, 0x0, 16, 0x10000, 1, 0x0, 1, 0x0⟩
  | .CLU_STAT => ⟨.ARY, 0x9004, false, .ro, 0x0, 0x0, 0x0, 0x0, 16, 0x10000, 1, 0x0, 1, 0x0⟩
  | .CLU_REGROW => ⟨.ARY, 0x9008, false, .wo, 0x0, 0x0, 0x0, 0x0, 16, 0x10000, 1, 0x0, 1, 0x0⟩
  | .ISO_STAT => ⟨.ARY, 0x9010, true, .ro, 0x0, 0x0, 0x0, 0x0, 16, 0x10000, 1, 0x0, 1, 0x0⟩
  | .FENCE_LOG => ⟨.ARY, 0x9018, true, .w1c, 0x0, 0x0, 0x0, 0xC000000000000000, 16, 0x10000, 1, 0x0, 1, 0x0⟩
  | .CTX_CE_LEVEL => ⟨.ARY, 0x9020, false, .ro, 0x0, 0x0, 0x0, 0x0, 16, 0x10000, 1, 0x0, 1, 0x0⟩
  | .CTX_CE_HI => ⟨.ARY, 0x9024, false, .rw, 0x10, 0xFFFFFFFF, 0x0, 0x0, 16, 0x10000, 1, 0x0, 1, 0x0⟩
  | .CTX_CE_LO => ⟨.ARY, 0x9028, false, .rw, 0x0, 0xFFFFFFFF, 0x0, 0x0, 16, 0x10000, 1, 0x0, 1, 0x0⟩
  | .CTX_CE_STATUS => ⟨.ARY, 0x902C, false, .w1c, 0x0, 0x0, 0x0, 0x60000000, 16, 0x10000, 1, 0x0, 1, 0x0⟩
  | .CTX_UE_LOG => ⟨.ARY, 0x9030, true, .w1c, 0x0, 0x0, 0x0, 0xC000000000000000, 16, 0x10000, 1, 0x0, 1, 0x0⟩
  | .CTX_UE_CNT => ⟨.ARY, 0x9038, false, .rc, 0x0, 0x0, 0x0, 0x0, 16, 0x10000, 1, 0x0, 1, 0x0⟩
  | .CTX_ILLEGAL_CNT => ⟨.ARY, 0x903C, false, .rc, 0x0, 0x0, 0x0, 0x0, 16, 0x10000, 1, 0x0, 1, 0x0⟩
  | .FENCE_CNT => ⟨.ARY, 0x9040, false, .rc, 0x0, 0x0, 0x0, 0x0, 16, 0x10000, 1, 0x0, 1, 0x0⟩
  | .POS_CFG => ⟨.ARY, 0x9100, false, .ro, 0x0, 0x0, 0x0, 0x0, 16, 0x10000, 4, 0x40, 1, 0x0⟩
  | .GFP => ⟨.ARY, 0x9110, false, .rw, 0x0, 0xFFFF, 0x0, 0x0, 16, 0x10000, 4, 0x40, 4, 0x4⟩
  | .SLOT_CMD => ⟨.ARY, 0x9200, false, .wo, 0x0, 0x0, 0x0, 0x0, 16, 0x10000, 4, 0x80, 1, 0x0⟩
  | .SLOT_STAT => ⟨.ARY, 0x9204, false, .ro, 0x0, 0x0, 0x0, 0x0, 16, 0x10000, 4, 0x80, 1, 0x0⟩
  | .SLOT_FOOT => ⟨.ARY, 0x9208, true, .rw, 0x0, 0xFFFFFFFFFFFFFFFF, 0x0, 0x0, 16, 0x10000, 4, 0x80, 1, 0x0⟩
  | .SLOT_GEN => ⟨.ARY, 0x9210, false, .ro, 0x1, 0x0, 0x0, 0x0, 16, 0x10000, 4, 0x80, 1, 0x0⟩
  | .SLOT_OID => ⟨.ARY, 0x9214, false, .rw, 0x0, 0x7FF, 0x0, 0x0, 16, 0x10000, 4, 0x80, 1, 0x0⟩
  | .SLOT_FRAME => ⟨.ARY, 0x9218, true, .rw, 0x0, 0xFFFFFFFFFFFF, 0x0, 0x0, 16, 0x10000, 4, 0x80, 1, 0x0⟩
  | .SLOT_EXIT => ⟨.ARY, 0x9220, false, .rw, 0x0, 0x803F3FF3, 0x0, 0x0, 16, 0x10000, 4, 0x80, 1, 0x0⟩
  | .SLOT_RUN => ⟨.ARY, 0x9224, false, .ro, 0x0, 0x0, 0x0, 0x0, 16, 0x10000, 4, 0x80, 1, 0x0⟩
  | .SLOT_FRAMES => ⟨.ARY, 0x9228, false, .rc, 0x0, 0x0, 0x0, 0x0, 16, 0x10000, 4, 0x80, 1, 0x0⟩
  | .SLOT_MAP => ⟨.ARY, 0x9230, false, .ro, 0x0, 0x0, 0x0, 0x0, 16, 0x10000, 4, 0x80, 4, 0x4⟩
  | .VP_CFG => ⟨.ARY, 0x9400, true, .rw, 0x0, 0xF03F0102000003FF, 0x0, 0x0, 16, 0x10000, 16, 0x8, 1, 0x0⟩
  | .LPB => ⟨.ARY, 0x9480, true, .rw, 0x0, 0xF03F0102000003FF, 0x0, 0x0, 16, 0x10000, 8, 0x8, 1, 0x0⟩
  | .CSAT => ⟨.ARY, 0xA000, false, .ro, 0x0, 0x0, 0x0, 0x0, 16, 0x10000, 4, 0x80, 32, 0x4⟩
  | .BR_ID => ⟨.LEAP, 0x0, false, .ro, 0x0, 0x0, 0x0, 0x0, 2, 0x8000, 1, 0x0, 1, 0x0⟩
  | .BR_STAT => ⟨.LEAP, 0x4, false, .ro, 0x0, 0x0, 0x0, 0x0, 2, 0x8000, 1, 0x0, 1, 0x0⟩
  | .REPAIR_CMD => ⟨.LEAP, 0x8, false, .wo, 0x0, 0x0, 0x0, 0x0, 2, 0x8000, 1, 0x0, 1, 0x0⟩
  | .REPAIR_STAT => ⟨.LEAP, 0xC, false, .ro, 0x0, 0x0, 0x0, 0x0, 2, 0x8000, 1, 0x0, 1, 0x0⟩
  | .DIR_STAT => ⟨.LEAP, 0x1000, false, .ro, 0x0, 0x0, 0x0, 0x0, 2, 0x8000, 2, 0x1000, 1, 0x0⟩
  | .DIR_CFG => ⟨.LEAP, 0x1004, false, .rwl, 0x180010, 0xF1FFFFF, 0xF1FFFFF, 0x0, 2, 0x8000, 2, 0x1000, 1, 0x0⟩
  | .RETRY_CNT => ⟨.LEAP, 0x1008, false, .rc, 0x0, 0x0, 0x0, 0x0, 2, 0x8000, 2, 0x1000, 1, 0x0⟩
  | .FAULT_CNT => ⟨.LEAP, 0x100C, false, .rc, 0x0, 0x0, 0x0, 0x0, 2, 0x8000, 2, 0x1000, 1, 0x0⟩
  | .FILLER_ERR_CNT => ⟨.LEAP, 0x1010, false, .rc, 0x0, 0x0, 0x0, 0x0, 2, 0x8000, 2, 0x1000, 1, 0x0⟩
  | .ACK_ERR_CNT => ⟨.LEAP, 0x1014, false, .rc, 0x0, 0x0, 0x0, 0x0, 2, 0x8000, 2, 0x1000, 1, 0x0⟩
  | .ALIGN_ERR_CNT => ⟨.LEAP, 0x1018, false, .rc, 0x0, 0x0, 0x0, 0x0, 2, 0x8000, 2, 0x1000, 1, 0x0⟩
  | .UNMATCHED_CNT => ⟨.LEAP, 0x101C, false, .rc, 0x0, 0x0, 0x0, 0x0, 2, 0x8000, 2, 0x1000, 1, 0x0⟩
  | .FAULT_LOG => ⟨.LEAP, 0x1020, true, .w1c, 0x0, 0x0, 0x0, 0xC000000000000000, 2, 0x8000, 2, 0x1000, 1, 0x0⟩
  | .LANE_ERR => ⟨.LEAP, 0x1028, false, .rc, 0x0, 0x0, 0x0, 0x0, 2, 0x8000, 2, 0x1000, 1, 0x0⟩
  | .SPARE_MAP => ⟨.LEAP, 0x1080, false, .ro, 0x0, 0x0, 0x0, 0x0, 2, 0x8000, 2, 0x1000, 24, 0x4⟩
  | .WIRE_ERR => ⟨.LEAP, 0x1400, false, .ro, 0x0, 0x0, 0x0, 0x0, 2, 0x8000, 2, 0x1000, 306, 0x4⟩
  | .WIRE_FLAG => ⟨.LEAP, 0x1900, false, .w1c, 0x0, 0x0, 0x0, 0xFFFFFFFF, 2, 0x8000, 2, 0x1000, 20, 0x4⟩
  | .NSL_STAT => ⟨.LEAP, 0x3000, false, .ro, 0x0, 0x0, 0x0, 0x0, 2, 0x8000, 2, 0x100, 1, 0x0⟩
  | .NSL_CRC_CNT => ⟨.LEAP, 0x3004, false, .rc, 0x0, 0x0, 0x0, 0x0, 2, 0x8000, 2, 0x100, 1, 0x0⟩
  | .NSL_REPLAY_CNT => ⟨.LEAP, 0x3008, false, .rc, 0x0, 0x0, 0x0, 0x0, 2, 0x8000, 2, 0x100, 1, 0x0⟩
  | .NSL_SPARE => ⟨.LEAP, 0x300C, false, .ro, 0x0, 0x0, 0x0, 0x0, 2, 0x8000, 2, 0x100, 1, 0x0⟩
  | .SEN_CTRL => ⟨.SEN, 0x0, false, .rw, 0x0, 0x1, 0x0, 0x0, 256, 0x400, 1, 0x0, 1, 0x0⟩
  | .SEN_STAT => ⟨.SEN, 0x4, false, .ro, 0x0, 0x0, 0x0, 0x0, 256, 0x400, 1, 0x0, 1, 0x0⟩
  | .SEN_FIFO => ⟨.SEN, 0x8, false, .ro, 0x0, 0x0, 0x0, 0x0, 256, 0x400, 1, 0x0, 1, 0x0⟩
  | .SEN_ERRLOG => ⟨.SEN, 0x10, true, .w1c, 0x0, 0x0, 0x0, 0xC000000000000000, 256, 0x400, 1, 0x0, 1, 0x0⟩
  | .JADDR => ⟨.SEN, 0x20, true, .rw, 0x0, 0xFFFFFFFFFFFFFFFF, 0x0, 0x0, 256, 0x400, 2, 0x20, 1, 0x0⟩
  | .JLEN => ⟨.SEN, 0x28, false, .rw, 0x0, 0xFFFFFFFF, 0x0, 0x0, 256, 0x400, 2, 0x20, 1, 0x0⟩
  | .JATTR => ⟨.SEN, 0x2C, false, .rw, 0x0, 0xFF3FFC00, 0x0, 0x0, 256, 0x400, 2, 0x20, 1, 0x0⟩
  | .JDONE => ⟨.SEN, 0x30, false, .ro, 0x0, 0x0, 0x0, 0x0, 256, 0x400, 2, 0x20, 1, 0x0⟩
  | .JTAG => ⟨.SEN, 0x34, false, .rw, 0x0, 0xFFFFFFFF, 0x0, 0x0, 256, 0x400, 2, 0x20, 1, 0x0⟩
  | .WIN_FIRST => ⟨.WIN, 0x0, false, .ro, 0x0, 0x0, 0x0, 0x0, 1, 0x0, 1, 0x0, 1, 0x0⟩
  | .WIN_COUNT => ⟨.WIN, 0x4, false, .ro, 0x0, 0x0, 0x0, 0x0, 1, 0x0, 1, 0x0, 1, 0x0⟩
  | .WIN_MOLT => ⟨.WIN, 0x8, false, .ro, 0x0, 0x0, 0x0, 0x0, 1, 0x0, 1, 0x0, 1, 0x0⟩
  | .WIN_FAULT_CNT => ⟨.WIN, 0xC, false, .rc, 0x0, 0x0, 0x0, 0x0, 1, 0x0, 1, 0x0, 1, 0x0⟩
  | .WIN_FAULT_LOG => ⟨.WIN, 0x10, true, .w1c, 0x0, 0x0, 0x0, 0xC000000000000000, 1, 0x0, 1, 0x0, 1, 0x0⟩
  | .WIN_ENT => ⟨.WIN, 0x10000, false, .rw, 0x0, 0xA00007FF, 0x0, 0x0, 24576, 0x4, 1, 0x0, 1, 0x0⟩
  | .SCC_CFG => ⟨.SCC, 0x0, false, .rw, 0x1, 0x1, 0x0, 0x0, 1, 0x0, 1, 0x0, 1, 0x0⟩
  | .SCC_CE_CNT => ⟨.SCC, 0x4, false, .rc, 0x0, 0x0, 0x0, 0x0, 1, 0x0, 1, 0x0, 1, 0x0⟩
  | .SCC_UE_LOG => ⟨.SCC, 0x8, true, .w1c, 0x0, 0x0, 0x0, 0xC000000000000000, 1, 0x0, 1, 0x0, 1, 0x0⟩
  | .SCC_WAYS => ⟨.SCC, 0x40, false, .rw, 0x0, 0xFFFF, 0x0, 0x0, 16, 0x4, 1, 0x0, 1, 0x0⟩
  | .SCC_CLASS => ⟨.SCC, 0x100, false, .rw, 0x0, 0xFFFFFFFF, 0x0, 0x0, 132, 0x4, 1, 0x0, 1, 0x0⟩
  | .SCC_HIT => ⟨.SCC, 0x400, false, .rc, 0x0, 0x0, 0x0, 0x0, 16, 0x8, 1, 0x0, 1, 0x0⟩
  | .SCC_MISS => ⟨.SCC, 0x404, false, .rc, 0x0, 0x0, 0x0, 0x0, 16, 0x8, 1, 0x0, 1, 0x0⟩
  | .HBM_STAT => ⟨.HBM, 0x0, false, .ro, 0x0, 0x0, 0x0, 0x0, 2, 0x100, 1, 0x0, 1, 0x0⟩
  | .HBM_CE_CNT => ⟨.HBM, 0x4, false, .rc, 0x0, 0x0, 0x0, 0x0, 2, 0x100, 1, 0x0, 1, 0x0⟩
  | .HBM_UE_LOG => ⟨.HBM, 0x8, true, .w1c, 0x0, 0x0, 0x0, 0xC000000000000000, 2, 0x100, 1, 0x0, 1, 0x0⟩
  | .HBM_UE_CNT => ⟨.HBM, 0x10, false, .rc, 0x0, 0x0, 0x0, 0x0, 2, 0x100, 1, 0x0, 1, 0x0⟩
  | .GRP_RATE => ⟨.HBM, 0x1000, false, .rw, 0x0, 0x3FF, 0x0, 0x0, 64, 0x4, 1, 0x0, 1, 0x0⟩
  | .GRP_RSUM => ⟨.HBM, 0x1100, false, .ro, 0x0, 0x0, 0x0, 0x0, 1, 0x0, 1, 0x0, 1, 0x0⟩
  | .NOC_ERR_LOG => ⟨.NOC, 0x8, true, .w1c, 0x0, 0x0, 0x0, 0xC000000000000000, 1, 0x0, 1, 0x0, 1, 0x0⟩
  | .NOC_TRUNC_LOG => ⟨.NOC, 0x10, true, .w1c, 0x0, 0x0, 0x0, 0xC000000000000000, 1, 0x0, 1, 0x0, 1, 0x0⟩
  | .NOC_TRUNC_CNT => ⟨.NOC, 0x18, false, .rc, 0x0, 0x0, 0x0, 0x0, 1, 0x0, 1, 0x0, 1, 0x0⟩
  | .NOC_WEIGHT => ⟨.NOC, 0x100, false, .rw, 0x0, 0xFF, 0x0, 0x0, 64, 0x4, 1, 0x0, 1, 0x0⟩
  | .NOC_WSUM => ⟨.NOC, 0x200, false, .ro, 0x0, 0x0, 0x0, 0x0, 1, 0x0, 1, 0x0, 1, 0x0⟩
  | .GRP_MAP => ⟨.NOC, 0x400, false, .rw, 0x0, 0x3F3F3F3F, 0x0, 0x0, 264, 0x4, 1, 0x0, 1, 0x0⟩
  | .DSP_ID => ⟨.DSP, 0x0, false, .ro, 0x0, 0x0, 0x0, 0x0, 1, 0x0, 1, 0x0, 1, 0x0⟩
  | .DSP_CTRL => ⟨.DSP, 0x4, false, .rwl, 0x1, 0x7, 0x7, 0x0, 1, 0x0, 1, 0x0, 1, 0x0⟩
  | .DSP_STAT => ⟨.DSP, 0x8, false, .ro, 0x0, 0x0, 0x0, 0x0, 1, 0x0, 1, 0x0, 1, 0x0⟩
  | .DSP_TCB_BASE => ⟨.DSP, 0x10, true, .rwl, 0x0, 0xFFFFFFFFF000, 0xFFFFFFFFF000, 0x0, 1, 0x0, 1, 0x0, 1, 0x0⟩
  | .DSP_TCB_COUNT => ⟨.DSP, 0x18, false, .rwl, 0x0, 0x7FFFF, 0x7FFFF, 0x0, 1, 0x0, 1, 0x0, 1, 0x0⟩
  | .DSP_CMD => ⟨.DSP, 0x20, true, .wo, 0x0, 0x0, 0x0, 0x0, 1, 0x0, 1, 0x0, 1, 0x0⟩
  | .DSP_ERR_LOG => ⟨.DSP, 0x28, true, .w1c, 0x0, 0x0, 0x0, 0xC000000000000000, 1, 0x0, 1, 0x0, 1, 0x0⟩
  | .DSP_ERR_CNT => ⟨.DSP, 0x30, false, .rc, 0x0, 0x0, 0x0, 0x0, 1, 0x0, 1, 0x0, 1, 0x0⟩
  | .DSP_BP_CNT => ⟨.DSP, 0x34, false, .rc, 0x0, 0x0, 0x0, 0x0, 1, 0x0, 1, 0x0, 1, 0x0⟩
  | .DSP_RDY_LEVEL => ⟨.DSP, 0x40, false, .ro, 0x0, 0x0, 0x0, 0x0, 1, 0x0, 1, 0x0, 1, 0x0⟩
  | .DSP_RDY_HI => ⟨.DSP, 0x44, false, .rw, 0x3800, 0xFFFFFFFF, 0x0, 0x0, 1, 0x0, 1, 0x0, 1, 0x0⟩
  | .DSP_RDY_LO => ⟨.DSP, 0x48, false, .rw, 0x0, 0xFFFFFFFF, 0x0, 0x0, 1, 0x0, 1, 0x0, 1, 0x0⟩
  | .DSP_RDY_STATUS => ⟨.DSP, 0x4C, false, .w1c, 0x0, 0x0, 0x0, 0x60000000, 1, 0x0, 1, 0x0, 1, 0x0⟩
  | .DSP_DLY_LEVEL => ⟨.DSP, 0x50, false, .ro, 0x0, 0x0, 0x0, 0x0, 1, 0x0, 1, 0x0, 1, 0x0⟩
  | .DSP_DLY_HI => ⟨.DSP, 0x54, false, .rw, 0x1C00, 0xFFFFFFFF, 0x0, 0x0, 1, 0x0, 1, 0x0, 1, 0x0⟩
  | .DSP_DLY_LO => ⟨.DSP, 0x58, false, .rw, 0x0, 0xFFFFFFFF, 0x0, 0x0, 1, 0x0, 1, 0x0, 1, 0x0⟩
  | .DSP_DLY_STATUS => ⟨.DSP, 0x5C, false, .w1c, 0x0, 0x0, 0x0, 0x60000000, 1, 0x0, 1, 0x0, 1, 0x0⟩
  | .DSP_TRACE_BASE => ⟨.DSP, 0x60, true, .rwl, 0x0, 0xFFFFFFFFF000, 0xFFFFFFFFF000, 0x0, 1, 0x0, 1, 0x0, 1, 0x0⟩
  | .DSP_TRACE_SIZE => ⟨.DSP, 0x68, false, .rwl, 0xC, 0x1F, 0x1F, 0x0, 1, 0x0, 1, 0x0, 1, 0x0⟩
  | .DSP_TRACE_WP => ⟨.DSP, 0x6C, false, .rw, 0x0, 0xFFFFFFFF, 0x0, 0x0, 1, 0x0, 1, 0x0, 1, 0x0⟩
  | .DSP_TRACE_DROP => ⟨.DSP, 0x70, false, .rc, 0x0, 0x0, 0x0, 0x0, 1, 0x0, 1, 0x0, 1, 0x0⟩
  | .DSP_LVL_CNT => ⟨.DSP, 0x80, false, .ro, 0x0, 0x0, 0x0, 0x0, 32, 0x4, 1, 0x0, 1, 0x0⟩
  | .DSP_REPL => ⟨.DSP, 0x100, true, .rw, 0x0, 0xFFFFFFFFFFFFFFFF, 0x0, 0x0, 16, 0x10, 1, 0x0, 1, 0x0⟩
  | .DSP_REPL_EN => ⟨.DSP, 0x108, false, .rw, 0x0, 0xFF, 0x0, 0x0, 16, 0x10, 1, 0x0, 1, 0x0⟩
  | .DSP_SLOT => ⟨.DSP, 0x200, true, .ro, 0x0, 0x0, 0x0, 0x0, 64, 0x8, 1, 0x0, 1, 0x0⟩
  | .DSP_CORE => ⟨.DSP, 0x400, true, .ro, 0x0, 0x0, 0x0, 0x0, 16, 0x8, 1, 0x0, 1, 0x0⟩
  | .CORE_ID => ⟨.CORE, 0x0, false, .ro, 0x0, 0x0, 0x0, 0x0, 16, 0x1000, 1, 0x0, 1, 0x0⟩
  | .CORE_CTRL => ⟨.CORE, 0x4, false, .rw, 0x1, 0x1, 0x0, 0x0, 16, 0x1000, 1, 0x0, 1, 0x0⟩
  | .CORE_STAT => ⟨.CORE, 0x8, false, .ro, 0x0, 0x0, 0x0, 0x0, 16, 0x1000, 1, 0x0, 1, 0x0⟩
  | .CORE_RSTVEC => ⟨.CORE, 0x10, true, .rwl, 0x80000000, 0xFFFFFFFFFFFFFFFF, 0xFFFFFFFFFFFFFFFF, 0x0, 16, 0x1000, 1, 0x0, 1, 0x0⟩
  | .CORE_WEDGE_LOG => ⟨.CORE, 0x18, true, .w1c, 0x0, 0x0, 0x0, 0x8000000000000000, 16, 0x1000, 1, 0x0, 1, 0x0⟩
  | .CORE_FLT_CNT => ⟨.CORE, 0x20, false, .rc, 0x0, 0x0, 0x0, 0x0, 16, 0x1000, 1, 0x0, 1, 0x0⟩
  | .CORE_SPILL_ERR => ⟨.CORE, 0x24, false, .rc, 0x0, 0x0, 0x0, 0x0, 16, 0x1000, 1, 0x0, 1, 0x0⟩
  | .CORE_SPILL_CNT => ⟨.CORE, 0x28, false, .rc, 0x0, 0x0, 0x0, 0x0, 16, 0x1000, 1, 0x0, 1, 0x0⟩
  | .CORE_FPX_CNT => ⟨.CORE, 0x2C, false, .rc, 0x0, 0x0, 0x0, 0x0, 16, 0x1000, 1, 0x0, 1, 0x0⟩
  | .BNK_OWNER => ⟨.BNK, 0x0, false, .rw, 0x0, 0x20FFF, 0x0, 0x0, 16, 0x100, 1, 0x0, 1, 0x0⟩
  | .BNK_STAT => ⟨.BNK, 0x4, false, .ro, 0x0, 0x0, 0x0, 0x0, 16, 0x100, 1, 0x0, 1, 0x0⟩
  | .BNK_CCNT => ⟨.BNK, 0x8, false, .rc, 0x0, 0x0, 0x0, 0x0, 16, 0x100, 1, 0x0, 1, 0x0⟩
  | .BNK_FLAGS => ⟨.BNK, 0xC, false, .w1c, 0x0, 0x0, 0x0, 0x1, 16, 0x100, 1, 0x0, 1, 0x0⟩
  | .BNK_SPARE => ⟨.BNK, 0x10, false, .ro, 0x0, 0x0, 0x0, 0x0, 16, 0x100, 1, 0x0, 1, 0x0⟩
  | .BNK_CE_LEVEL => ⟨.BNK, 0x20, false, .ro, 0x0, 0x0, 0x0, 0x0, 16, 0x100, 1, 0x0, 1, 0x0⟩
  | .BNK_CE_HI => ⟨.BNK, 0x24, false, .rw, 0x10, 0xFFFFFFFF, 0x0, 0x0, 16, 0x100, 1, 0x0, 1, 0x0⟩
  | .BNK_CE_LO => ⟨.BNK, 0x28, false, .rw, 0x0, 0xFFFFFFFF, 0x0, 0x0, 16, 0x100, 1, 0x0, 1, 0x0⟩
  | .BNK_CE_STATUS => ⟨.BNK, 0x2C, false, .w1c, 0x0, 0x0, 0x0, 0x60000000, 16, 0x100, 1, 0x0, 1, 0x0⟩
  | .BNK_UE_LOG => ⟨.BNK, 0x30, true, .w1c, 0x0, 0x0, 0x0, 0xC000000000000000, 16, 0x100, 1, 0x0, 1, 0x0⟩
  | .BNK_UE_CNT => ⟨.BNK, 0x38, false, .rc, 0x0, 0x0, 0x0, 0x0, 16, 0x100, 1, 0x0, 1, 0x0⟩
  | .EVT_ID => ⟨.EVT, 0x0, false, .ro, 0x0, 0x0, 0x0, 0x0, 1, 0x0, 1, 0x0, 1, 0x0⟩
  | .EVT_CTRL => ⟨.EVT, 0x4, false, .rw, 0x0, 0x3F, 0x0, 0x0, 1, 0x0, 1, 0x0, 1, 0x0⟩
  | .EVT_COAL_CNT => ⟨.EVT, 0x8, false, .rc, 0x0, 0x0, 0x0, 0x0, 1, 0x0, 1, 0x0, 1, 0x0⟩
  | .EVT_LOG_BASE => ⟨.EVT, 0x10, true, .rw, 0x0, 0xFFFFFFFFF000, 0x0, 0x0, 1, 0x0, 1, 0x0, 1, 0x0⟩
  | .EVT_LOG_SIZE => ⟨.EVT, 0x18, false, .rw, 0xC, 0xFFFFFFFF, 0x0, 0x0, 1, 0x0, 1, 0x0, 1, 0x0⟩
  | .EVT_LOG_WP => ⟨.EVT, 0x1C, false, .rw, 0x0, 0xFFFFFFFF, 0x0, 0x0, 1, 0x0, 1, 0x0, 1, 0x0⟩
  | .EVT_LOG_DROP => ⟨.EVT, 0x20, false, .rc, 0x0, 0x0, 0x0, 0x0, 1, 0x0, 1, 0x0, 1, 0x0⟩
  | .EVT_CLAIM => ⟨.EVT, 0x100, false, .rc, 0x0, 0x0, 0x0, 0x0, 16, 0x8, 1, 0x0, 1, 0x0⟩
  | .EVT_TMR_CTRL => ⟨.EVT, 0x200, false, .rw, 0x0, 0x3, 0x0, 0x0, 32, 0x10, 1, 0x0, 1, 0x0⟩
  | .EVT_TMR_PERIOD => ⟨.EVT, 0x204, false, .rw, 0x0, 0xFFFFFFFF, 0x0, 0x0, 32, 0x10, 1, 0x0, 1, 0x0⟩
  | .EVT_TMR_NEXT => ⟨.EVT, 0x208, false, .rw, 0x0, 0xFFFFFFFF, 0x0, 0x0, 32, 0x10, 1, 0x0, 1, 0x0⟩
  | .EVT_PEND => ⟨.EVT, 0x400, false, .w1c, 0x0, 0x0, 0x0, 0xFFFFFFFF, 48, 0x4, 1, 0x0, 1, 0x0⟩
  | .EVT_SWSET => ⟨.EVT, 0x500, false, .wo, 0x0, 0x0, 0x0, 0x0, 8, 0x4, 1, 0x0, 1, 0x0⟩
  | .EVT_ROUTE => ⟨.EVT, 0x1000, true, .rw, 0x0, 0xFE0007FFFFFFFFFF, 0x0, 0x0, 1536, 0x8, 1, 0x0, 1, 0x0⟩
  | .MBX_LOCK => ⟨.MBX, 0x0, true, .rw, 0x0, 0xCFFF000000000FFF, 0x0, 0x0, 256, 0x8, 1, 0x0, 1, 0x0⟩
  | .MBX_CROAK_CNT => ⟨.MBX, 0x800, false, .rc, 0x0, 0x0, 0x0, 0x0, 1, 0x0, 1, 0x0, 1, 0x0⟩
  | .MBX_ABORT_CNT => ⟨.MBX, 0x804, false, .rc, 0x0, 0x0, 0x0, 0x0, 1, 0x0, 1, 0x0, 1, 0x0⟩
  | .MBX_SPTR => ⟨.MBX, 0x1000, true, .wo, 0x0, 0x0, 0x0, 0x0, 256, 0x40, 1, 0x0, 1, 0x0⟩
  | .MBX_SLT => ⟨.MBX, 0x1008, true, .wo, 0x0, 0x0, 0x0, 0x0, 256, 0x40, 1, 0x0, 1, 0x0⟩
  | .MBX_RPTR => ⟨.MBX, 0x1010, true, .ro, 0x0, 0x0, 0x0, 0x0, 256, 0x40, 1, 0x0, 1, 0x0⟩
  | .MBX_RLT => ⟨.MBX, 0x1018, true, .rc, 0x0, 0x0, 0x0, 0x0, 256, 0x40, 1, 0x0, 1, 0x0⟩
  | .MBX_STAT => ⟨.MBX, 0x1020, false, .ro, 0x0, 0x0, 0x0, 0x0, 256, 0x40, 1, 0x0, 1, 0x0⟩
  | .MBX_WORD => ⟨.MBX, 0x1024, false, .rw, 0x0, 0xFFFFFFFF, 0x0, 0x0, 256, 0x40, 1, 0x0, 1, 0x0⟩
  | .MBX_HLOCK => ⟨.MBX, 0x5000, true, .rw, 0x0, 0xCFFF000000000000, 0x0, 0x0, 264, 0x8, 1, 0x0, 1, 0x0⟩
  | .MBX_HPEND => ⟨.MBX, 0x5900, false, .w1c, 0x0, 0x0, 0x0, 0xFF, 33, 0x4, 1, 0x0, 1, 0x0⟩
  | .HMBX_SPTR => ⟨.MBX, 0x6000, true, .wo, 0x0, 0x0, 0x0, 0x0, 264, 0x40, 1, 0x0, 1, 0x0⟩
  | .HMBX_SLT => ⟨.MBX, 0x6008, true, .wo, 0x0, 0x0, 0x0, 0x0, 264, 0x40, 1, 0x0, 1, 0x0⟩
  | .HMBX_RPTR => ⟨.MBX, 0x6010, true, .ro, 0x0, 0x0, 0x0, 0x0, 264, 0x40, 1, 0x0, 1, 0x0⟩
  | .HMBX_RLT => ⟨.MBX, 0x6018, true, .rc, 0x0, 0x0, 0x0, 0x0, 264, 0x40, 1, 0x0, 1, 0x0⟩
  | .HMBX_STAT => ⟨.MBX, 0x6020, false, .ro, 0x0, 0x0, 0x0, 0x0, 264, 0x40, 1, 0x0, 1, 0x0⟩
  | .HMBX_WORD => ⟨.MBX, 0x6024, false, .rw, 0x0, 0xFFFFFFFF, 0x0, 0x0, 264, 0x40, 1, 0x0, 1, 0x0⟩
  | .FN_ID => ⟨.FN, 0x0, false, .ro, 0x0, 0x0, 0x0, 0x0, 4096, 0x10000, 1, 0x0, 1, 0x0⟩
  | .FN_STAT => ⟨.FN, 0x4, false, .ro, 0x0, 0x0, 0x0, 0x0, 4096, 0x10000, 1, 0x0, 1, 0x0⟩
  | .FN_TICK => ⟨.FN, 0x8, true, .ro, 0x0, 0x0, 0x0, 0x0, 4096, 0x10000, 1, 0x0, 1, 0x0⟩
  | .FN_MBX_SPTR => ⟨.FN, 0x100, true, .wo, 0x0, 0x0, 0x0, 0x0, 4096, 0x10000, 1, 0x0, 1, 0x0⟩
  | .FN_MBX_SLT => ⟨.FN, 0x108, true, .wo, 0x0, 0x0, 0x0, 0x0, 4096, 0x10000, 1, 0x0, 1, 0x0⟩
  | .FN_MBX_STAT => ⟨.FN, 0x120, false, .ro, 0x0, 0x0, 0x0, 0x0, 4096, 0x10000, 1, 0x0, 1, 0x0⟩
  | .FN_MBX_WORD => ⟨.FN, 0x124, false, .rw, 0x0, 0xFFFFFFFF, 0x0, 0x0, 4096, 0x10000, 1, 0x0, 1, 0x0⟩
  | .FN_MSIX => ⟨.FN, 0x1000, false, .rw, 0x0, 0xFFFFFFFF, 0x0, 0x0, 4096, 0x10000, 512, 0x10, 4, 0x4⟩
  | .FN_PBA => ⟨.FN, 0x3000, true, .ro, 0x0, 0x0, 0x0, 0x0, 4096, 0x10000, 8, 0x8, 1, 0x0⟩
  | .HIF_ID => ⟨.HIF, 0x0, false, .ro, 0x0, 0x0, 0x0, 0x0, 1, 0x0, 1, 0x0, 1, 0x0⟩
  | .HIF_STAT => ⟨.HIF, 0x4, false, .ro, 0x0, 0x0, 0x0, 0x0, 1, 0x0, 1, 0x0, 1, 0x0⟩
  | .HIF_PCFG => ⟨.HIF, 0x10, false, .rwl, 0x0, 0x3, 0x3, 0x0, 2, 0x4, 1, 0x0, 1, 0x0⟩
  | .HIF_LCTRL => ⟨.HIF, 0x1000, false, .rw, 0x0, 0x1, 0x0, 0x0, 8, 0x400, 1, 0x0, 1, 0x0⟩
  | .HIF_LSTAT => ⟨.HIF, 0x1004, false, .ro, 0x0, 0x0, 0x0, 0x0, 8, 0x400, 1, 0x0, 1, 0x0⟩
  | .HIF_LCFG => ⟨.HIF, 0x1008, false, .rwl, 0x70000001, 0xF0F003FF, 0xF0F003FF, 0x0, 8, 0x400, 1, 0x0, 1, 0x0⟩
  | .HIF_VFCFG => ⟨.HIF, 0x100C, false, .rwl, 0x0, 0xF00FFDFF, 0xF00FFDFF, 0x0, 8, 0x400, 1, 0x0, 1, 0x0⟩
  | .HIF_VFBASE => ⟨.HIF, 0x1010, false, .rwl, 0x0, 0x7FF, 0x7FF, 0x0, 8, 0x400, 1, 0x0, 1, 0x0⟩
  | .HIF_IDCFG => ⟨.HIF, 0x1014, false, .rwl, 0x0, 0xFFFFFFFF, 0xFFFFFFFF, 0x0, 8, 0x400, 1, 0x0, 1, 0x0⟩
  | .HIF_DOWN_CNT => ⟨.HIF, 0x1018, false, .rc, 0x0, 0x0, 0x0, 0x0, 8, 0x400, 1, 0x0, 1, 0x0⟩
  | .HIF_RECOV_CNT => ⟨.HIF, 0x101C, false, .rc, 0x0, 0x0, 0x0, 0x0, 8, 0x400, 1, 0x0, 1, 0x0⟩
  | .HIF_CORR_CNT => ⟨.HIF, 0x1020, false, .rc, 0x0, 0x0, 0x0, 0x0, 8, 0x400, 1, 0x0, 1, 0x0⟩
  | .HIF_UNCORR_CNT => ⟨.HIF, 0x1024, false, .rc, 0x0, 0x0, 0x0, 0x0, 8, 0x400, 1, 0x0, 1, 0x0⟩
  | .HIF_LLOG => ⟨.HIF, 0x1028, true, .w1c, 0x0, 0x0, 0x0, 0xC000000000000000, 8, 0x400, 1, 0x0, 1, 0x0⟩
  | .HIF_FLRPEND => ⟨.HIF, 0x1040, false, .w1c, 0x0, 0x0, 0x0, 0xFFFFFFFF, 8, 0x400, 9, 0x4, 1, 0x0⟩
  | .SQ_TAIL => ⟨.DB, 0x0, false, .rw, 0x0, 0xFFFFFFFF, 0x0, 0x0, 1024, 0x1000, 1, 0x0, 1, 0x0⟩
  | .CQ_HEAD => ⟨.DB, 0x4, false, .rw, 0x0, 0xFFFFFFFF, 0x0, 0x0, 1024, 0x1000, 1, 0x0, 1, 0x0⟩
  | .QP_CTRL => ⟨.DB, 0x8, false, .rw, 0x0, 0x1, 0x0, 0x0, 1024, 0x1000, 1, 0x0, 1, 0x0⟩
  | .QP_STAT => ⟨.DB, 0xC, false, .w1c, 0x2000000, 0x0, 0x0, 0x8000000, 1024, 0x1000, 1, 0x0, 1, 0x0⟩
  | .SQ_BASE => ⟨.DB, 0x10, true, .rw, 0x0, 0xFFFFFFFFFFFFF000, 0x0, 0x0, 1024, 0x1000, 1, 0x0, 1, 0x0⟩
  | .CQ_BASE => ⟨.DB, 0x18, true, .rw, 0x0, 0xFFFFFFFFFFFFF000, 0x0, 0x0, 1024, 0x1000, 1, 0x0, 1, 0x0⟩
  | .QP_SIZE => ⟨.DB, 0x20, false, .rw, 0x404, 0x1F1F, 0x0, 0x0, 1024, 0x1000, 1, 0x0, 1, 0x0⟩
  | .QP_INTR => ⟨.DB, 0x24, false, .rw, 0x1, 0x81FF00FF, 0x0, 0x0, 1024, 0x1000, 1, 0x0, 1, 0x0⟩
  | .QP_ITIME => ⟨.DB, 0x28, false, .rw, 0x0, 0xFFFF, 0x0, 0x0, 1024, 0x1000, 1, 0x0, 1, 0x0⟩
  | .SQ_HEAD => ⟨.DB, 0x2C, false, .ro, 0x0, 0x0, 0x0, 0x0, 1024, 0x1000, 1, 0x0, 1, 0x0⟩
  | .CQ_TAIL => ⟨.DB, 0x30, false, .ro, 0x0, 0x0, 0x0, 0x0, 1024, 0x1000, 1, 0x0, 1, 0x0⟩
  | .QP_INFO => ⟨.DB, 0x34, false, .ro, 0x0, 0x0, 0x0, 0x0, 1024, 0x1000, 1, 0x0, 1, 0x0⟩
  | .QE_ID => ⟨.QE, 0x0, false, .ro, 0x0, 0x0, 0x0, 0x0, 1, 0x0, 1, 0x0, 1, 0x0⟩
  | .QE_CTRL => ⟨.QE, 0x4, false, .rwl, 0x1, 0x1, 0x1, 0x0, 1, 0x0, 1, 0x0, 1, 0x0⟩
  | .QE_STAT => ⟨.QE, 0x8, false, .ro, 0x0, 0x0, 0x0, 0x0, 1, 0x0, 1, 0x0, 1, 0x0⟩
  | .QE_ENT_BASE => ⟨.QE, 0x10, true, .rwl, 0x0, 0xFFFFFFFFF800, 0xFFFFFFFFF800, 0x0, 1, 0x0, 1, 0x0, 1, 0x0⟩
  | .QE_TCB_FIRST => ⟨.QE, 0x18, false, .rwl, 0x0, 0x3FFFF, 0x3FFFF, 0x0, 1, 0x0, 1, 0x0, 1, 0x0⟩
  | .QE_FW_CHAN => ⟨.QE, 0x1C, false, .rwl, 0x0, 0xFF, 0xFF, 0x0, 1, 0x0, 1, 0x0, 1, 0x0⟩
  | .QE_FW_BASE => ⟨.QE, 0x20, true, .rwl, 0x0, 0xFFFFFFFFF800, 0xFFFFFFFFF800, 0x0, 1, 0x0, 1, 0x0, 1, 0x0⟩
  | .QE_FWDONE => ⟨.QE, 0x28, true, .wo, 0x0, 0x0, 0x0, 0x0, 1, 0x0, 1, 0x0, 1, 0x0⟩
  | .QE_ERR_LOG => ⟨.QE, 0x30, true, .w1c, 0x0, 0x0, 0x0, 0xC000000000000000, 1, 0x0, 1, 0x0, 1, 0x0⟩
  | .QE_ERR_CNT => ⟨.QE, 0x38, false, .rc, 0x0, 0x0, 0x0, 0x0, 1, 0x0, 1, 0x0, 1, 0x0⟩
  | .QE_BP_CNT => ⟨.QE, 0x3C, false, .rc, 0x0, 0x0, 0x0, 0x0, 1, 0x0, 1, 0x0, 1, 0x0⟩
  | .QE_TONGUE_ARG => ⟨.QE, 0x40, false, .wo, 0x0, 0x0, 0x0, 0x0, 1, 0x0, 1, 0x0, 1, 0x0⟩
  | .QE_TONGUE_CMD => ⟨.QE, 0x44, false, .wo, 0x0, 0x0, 0x0, 0x0, 1, 0x0, 1, 0x0, 1, 0x0⟩
  | .QE_TONGUE_STAT => ⟨.QE, 0x48, false, .w1c, 0x0, 0x0, 0x0, 0x40000000, 1, 0x0, 1, 0x0, 1, 0x0⟩
  | .QE_THREAD_PC => ⟨.QE, 0x50, true, .rwl, 0x0, 0xFFFFFFFFFFFFFFFE, 0xFFFFFFFFFFFFFFFE, 0x0, 1, 0x0, 1, 0x0, 1, 0x0⟩
  | .QE_TAREA_BASE => ⟨.QE, 0x58, true, .rwl, 0x0, 0xFFFFFFFFF000, 0xFFFFFFFFF000, 0x0, 1, 0x0, 1, 0x0, 1, 0x0⟩
  | .QE_WMPEND => ⟨.QE, 0x100, false, .w1c, 0x0, 0x0, 0x0, 0xFFFFFFFF, 32, 0x4, 1, 0x0, 1, 0x0⟩
  | .QP_OWN => ⟨.QE, 0x10000, true, .ro, 0x0, 0x0, 0x0, 0x0, 1024, 0x20, 1, 0x0, 1, 0x0⟩
  | .QP_FLAGS => ⟨.QE, 0x10008, false, .ro, 0x0, 0x0, 0x0, 0x0, 1024, 0x20, 1, 0x0, 1, 0x0⟩
  | .QP_WM_LEVEL => ⟨.QE, 0x10010, false, .ro, 0x0, 0x0, 0x0, 0x0, 1024, 0x20, 1, 0x0, 1, 0x0⟩
  | .QP_WM_HI => ⟨.QE, 0x10014, false, .rw, 0xFFFFFFFF, 0xFFFFFFFF, 0x0, 0x0, 1024, 0x20, 1, 0x0, 1, 0x0⟩
  | .QP_WM_LO => ⟨.QE, 0x10018, false, .rw, 0x0, 0xFFFFFFFF, 0x0, 0x0, 1024, 0x20, 1, 0x0, 1, 0x0⟩
  | .QP_WM_STATUS => ⟨.QE, 0x1001C, false, .w1c, 0x0, 0x0, 0x0, 0x60000000, 1024, 0x20, 1, 0x0, 1, 0x0⟩
  | .MSQ_CHCFG => ⟨.MSQ, 0x0, false, .rw, 0x1064B800, 0xFFFFFC00, 0x0, 0x0, 144, 0x800, 1, 0x0, 1, 0x0⟩
  | .MSQ_CHCTRL => ⟨.MSQ, 0x4, false, .rw, 0x0, 0x2, 0x0, 0x0, 144, 0x800, 1, 0x0, 1, 0x0⟩
  | .MSQ_POST => ⟨.MSQ, 0x8, true, .wo, 0x0, 0x0, 0x0, 0x0, 144, 0x800, 1, 0x0, 1, 0x0⟩
  | .MSQ_CHSTAT => ⟨.MSQ, 0x10, false, .ro, 0x0, 0x0, 0x0, 0x0, 144, 0x800, 1, 0x0, 1, 0x0⟩
  | .MSQ_CHERR => ⟨.MSQ, 0x14, false, .rc, 0x0, 0x0, 0x0, 0x0, 144, 0x800, 1, 0x0, 1, 0x0⟩
  | .MSQ_CHLOG => ⟨.MSQ, 0x18, true, .w1c, 0x0, 0x0, 0x0, 0xC000000000000000, 144, 0x800, 1, 0x0, 1, 0x0⟩
  | .MSQ_LUNOP => ⟨.MSQ, 0x20, true, .ro, 0x0, 0x0, 0x0, 0x0, 144, 0x800, 32, 0x8, 1, 0x0⟩
  | .MSQ_CHBCCNT => ⟨.MSQ, 0x120, false, .rc, 0x0, 0x0, 0x0, 0x0, 144, 0x800, 1, 0x0, 1, 0x0⟩
  | .MSQ_CHBCE => ⟨.MSQ, 0x124, false, .rc, 0x0, 0x0, 0x0, 0x0, 144, 0x800, 1, 0x0, 1, 0x0⟩
  | .MSQ_RBASE => ⟨.MSQ, 0x60000, true, .rwl, 0x0, 0xFFFFFFFFF000, 0xFFFFFFFFF000, 0x0, 16, 0x100, 1, 0x0, 1, 0x0⟩
  | .MSQ_RSIZE => ⟨.MSQ, 0x60008, false, .rwl, 0x8, 0x1F, 0x1F, 0x0, 16, 0x100, 1, 0x0, 1, 0x0⟩
  | .MSQ_RWP => ⟨.MSQ, 0x6000C, false, .ro, 0x10000, 0x0, 0x0, 0x0, 16, 0x100, 1, 0x0, 1, 0x0⟩
  | .MSQ_RRP => ⟨.MSQ, 0x60010, false, .rw, 0x0, 0xFFFF, 0x0, 0x0, 16, 0x100, 1, 0x0, 1, 0x0⟩
  | .MSQ_RHOLD => ⟨.MSQ, 0x60014, false, .rc, 0x0, 0x0, 0x0, 0x0, 16, 0x100, 1, 0x0, 1, 0x0⟩
  | .MSQ_RWM_LEVEL => ⟨.MSQ, 0x60020, false, .ro, 0x0, 0x0, 0x0, 0x0, 16, 0x100, 1, 0x0, 1, 0x0⟩
  | .MSQ_RWM_HI => ⟨.MSQ, 0x60024, false, .rw, 0xFFFFFFFF, 0xFFFFFFFF, 0x0, 0x0, 16, 0x100, 1, 0x0, 1, 0x0⟩
  | .MSQ_RWM_LO => ⟨.MSQ, 0x60028, false, .rw, 0x0, 0xFFFFFFFF, 0x0, 0x0, 16, 0x100, 1, 0x0, 1, 0x0⟩
  | .MSQ_RWM_STATUS => ⟨.MSQ, 0x6002C, false, .w1c, 0x0, 0x0, 0x0, 0x60000000, 16, 0x100, 1, 0x0, 1, 0x0⟩
  | .MSQ_ID => ⟨.MSQ, 0x70000, false, .ro, 0x0, 0x0, 0x0, 0x0, 1, 0x0, 1, 0x0, 1, 0x0⟩
  | .MSQ_CONF => ⟨.MSQ, 0x70004, false, .rwl, 0xD01510, 0xFFFFFFFF, 0xFFFFFFFF, 0x0, 1, 0x0, 1, 0x0, 1, 0x0⟩
  | .MSQ_PROBECFG => ⟨.MSQ, 0x70008, false, .rw, 0x10000008, 0xFFFFFFFF, 0x0, 0x0, 1, 0x0, 1, 0x0, 1, 0x0⟩
  | .MSQ_PROBELEN => ⟨.MSQ, 0x7000C, false, .rw, 0x4000, 0x3FFFF, 0x0, 0x0, 1, 0x0, 1, 0x0, 1, 0x0⟩
  | .MSQ_WMPEND => ⟨.MSQ, 0x70010, false, .w1c, 0x0, 0x0, 0x0, 0xFFFF, 1, 0x0, 1, 0x0, 1, 0x0⟩
  | .MSQ_PFSTAT => ⟨.MSQ, 0x70020, false, .ro, 0x0, 0x0, 0x0, 0x0, 1, 0x0, 1, 0x0, 1, 0x0⟩
  | .MSQ_PFCLR => ⟨.MSQ, 0x70024, false, .wo, 0x0, 0x0, 0x0, 0x0, 1, 0x0, 1, 0x0, 1, 0x0⟩
  | .MSQ_OPDARM => ⟨.MSQ, 0x70028, false, .rw, 0x0, 0x2, 0x0, 0x0, 1, 0x0, 1, 0x0, 1, 0x0⟩
  | .MSQ_OPCAP => ⟨.MSQ, 0x70030, false, .rwl, 0x200, 0xFFF, 0xFFF, 0x0, 1, 0x0, 1, 0x0, 1, 0x0⟩
  | .MSQ_OPUSE => ⟨.MSQ, 0x70034, false, .ro, 0x0, 0x0, 0x0, 0x0, 1, 0x0, 1, 0x0, 1, 0x0⟩
  | .NPH_CFG => ⟨.NPH, 0x0, false, .rw, 0x0, 0x773, 0x0, 0x0, 16, 0x400, 1, 0x0, 1, 0x0⟩
  | .NPH_STAT => ⟨.NPH, 0x4, false, .ro, 0x0, 0x0, 0x0, 0x0, 16, 0x400, 1, 0x0, 1, 0x0⟩
  | .NPH_TRAIN => ⟨.NPH, 0x8, false, .wo, 0x0, 0x0, 0x0, 0x0, 16, 0x400, 1, 0x0, 1, 0x0⟩
  | .NPH_TSTAT => ⟨.NPH, 0xC, false, .ro, 0x0, 0x0, 0x0, 0x0, 16, 0x400, 1, 0x0, 1, 0x0⟩
  | .TET_LCTRL => ⟨.TET, 0x0, false, .rw, 0x0, 0x1, 0x0, 0x0, 16, 0x800, 1, 0x0, 1, 0x0⟩
  | .TET_LCFG => ⟨.TET, 0x4, false, .rw, 0x3, 0x77, 0x0, 0x0, 16, 0x800, 1, 0x0, 1, 0x0⟩
  | .TET_LSTAT => ⟨.TET, 0x8, false, .ro, 0x0, 0x0, 0x0, 0x40000, 16, 0x800, 1, 0x0, 1, 0x0⟩
  | .TET_BACKOFF => ⟨.TET, 0xC, false, .rw, 0x603E8, 0xFFFFF, 0x0, 0x0, 16, 0x800, 1, 0x0, 1, 0x0⟩
  | .TET_BRID => ⟨.TET, 0x10, true, .ro, 0x0, 0x0, 0x0, 0x0, 16, 0x800, 1, 0x0, 1, 0x0⟩
  | .TET_BRINFO => ⟨.TET, 0x18, false, .ro, 0x0, 0x0, 0x0, 0x0, 16, 0x800, 1, 0x0, 1, 0x0⟩
  | .TET_EYE => ⟨.TET, 0x1C, false, .ro, 0x0, 0x0, 0x0, 0x0, 16, 0x800, 1, 0x0, 1, 0x0⟩
  | .TET_FEC_CE => ⟨.TET, 0x20, false, .rc, 0x0, 0x0, 0x0, 0x0, 16, 0x800, 1, 0x0, 1, 0x0⟩
  | .TET_FEC_UE => ⟨.TET, 0x24, false, .rc, 0x0, 0x0, 0x0, 0x0, 16, 0x800, 1, 0x0, 1, 0x0⟩
  | .TET_CRC_ERR => ⟨.TET, 0x28, false, .rc, 0x0, 0x0, 0x0, 0x0, 16, 0x800, 1, 0x0, 1, 0x0⟩
  | .TET_REPLAY_CNT => ⟨.TET, 0x2C, false, .rc, 0x0, 0x0, 0x0, 0x0, 16, 0x800, 1, 0x0, 1, 0x0⟩
  | .TET_NAK_CNT => ⟨.TET, 0x30, false, .rc, 0x0, 0x0, 0x0, 0x0, 16, 0x800, 1, 0x0, 1, 0x0⟩
  | .TET_DOWN_CNT => ⟨.TET, 0x34, false, .rc, 0x0, 0x0, 0x0, 0x0, 16, 0x800, 1, 0x0, 1, 0x0⟩
  | .TET_RESTART_CNT => ⟨.TET, 0x38, false, .rc, 0x0, 0x0, 0x0, 0x0, 16, 0x800, 1, 0x0, 1, 0x0⟩
  | .TET_LINKTO => ⟨.TET, 0x3C, false, .rw, 0xA080014, 0xFF0F00FF, 0x0, 0x0, 16, 0x800, 1, 0x0, 1, 0x0⟩
  | .TET_LLOG => ⟨.TET, 0x40, true, .w1c, 0x0, 0x0, 0x0, 0xC000000000000000, 16, 0x800, 1, 0x0, 1, 0x0⟩
  | .TET_MADDR => ⟨.TET, 0x48, true, .rw, 0x0, 0xFFFFFFFFFFFFFFFF, 0x0, 0x0, 16, 0x800, 1, 0x0, 1, 0x0⟩
  | .TET_MRADDR => ⟨.TET, 0x50, true, .rw, 0x0, 0xFFFFFFFFFFFFFFFF, 0x0, 0x0, 16, 0x800, 1, 0x0, 1, 0x0⟩
  | .TET_MCMD => ⟨.TET, 0x58, false, .wo, 0x0, 0x0, 0x0, 0x0, 16, 0x800, 1, 0x0, 1, 0x0⟩
  | .TET_MSTAT => ⟨.TET, 0x5C, false, .ro, 0x0, 0x0, 0x0, 0x0, 16, 0x800, 1, 0x0, 1, 0x0⟩
  | .TET_CHINFO => ⟨.TET, 0x80, true, .ro, 0x0, 0x0, 0x0, 0x0, 16, 0x800, 8, 0x8, 1, 0x0⟩
  | .TET_CHERR => ⟨.TET, 0xC0, false, .rc, 0x0, 0x0, 0x0, 0x0, 16, 0x800, 8, 0x4, 1, 0x0⟩
  | .TET_ID => ⟨.TET, 0x8000, false, .ro, 0x0, 0x0, 0x0, 0x0, 1, 0x0, 1, 0x0, 1, 0x0⟩
  | .TET_RXCRED => ⟨.TET, 0x8004, false, .rwl, 0x1008, 0xFFFF, 0xFFFF, 0x0, 1, 0x0, 1, 0x0, 1, 0x0⟩
  | .TET_STAT => ⟨.TET, 0x8008, false, .ro, 0x0, 0x0, 0x0, 0x0, 1, 0x0, 1, 0x0, 1, 0x0⟩
  | .CAL_ID => ⟨.CAL, 0x0, false, .ro, 0x0, 0x0, 0x0, 0x0, 1, 0x0, 1, 0x0, 1, 0x0⟩
  | .CAL_CTRL => ⟨.CAL, 0x4, false, .rwl, 0x2, 0x3, 0x3, 0x0, 1, 0x0, 1, 0x0, 1, 0x0⟩
  | .CAL_STAT => ⟨.CAL, 0x8, false, .ro, 0x0, 0x0, 0x0, 0x0, 1, 0x0, 1, 0x0, 1, 0x0⟩
  | .CAL_TBASE => ⟨.CAL, 0x10, true, .rwl, 0x0, 0xFFFFFFFFF000, 0xFFFFFFFFF000, 0x0, 1, 0x0, 1, 0x0, 1, 0x0⟩
  | .CAL_SWBASE => ⟨.CAL, 0x18, true, .rwl, 0x0, 0xFFFFFFFFF000, 0xFFFFFFFFF000, 0x0, 1, 0x0, 1, 0x0, 1, 0x0⟩
  | .CAL_SWSIZE => ⟨.CAL, 0x20, false, .rwl, 0x8, 0x1F, 0x1F, 0x0, 1, 0x0, 1, 0x0, 1, 0x0⟩
  | .CAL_SWWP => ⟨.CAL, 0x24, false, .ro, 0x0, 0x0, 0x0, 0x0, 1, 0x0, 1, 0x0, 1, 0x0⟩
  | .CAL_SWRP => ⟨.CAL, 0x28, false, .rw, 0x0, 0xFFFF, 0x0, 0x0, 1, 0x0, 1, 0x0, 1, 0x0⟩
  | .CAL_ECMD => ⟨.CAL, 0x30, true, .wo, 0x0, 0x0, 0x0, 0x0, 1, 0x0, 1, 0x0, 1, 0x0⟩
  | .CAL_EDATA => ⟨.CAL, 0x40, true, .rw, 0x0, 0xFFFFFFFFFFFFFFFF, 0x0, 0x0, 4, 0x8, 1, 0x0, 1, 0x0⟩
  | .CAL_ESTAT => ⟨.CAL, 0x60, false, .ro, 0x0, 0x0, 0x0, 0x0, 1, 0x0, 1, 0x0, 1, 0x0⟩
  | .CAL_APPLIED => ⟨.CAL, 0x64, false, .rc, 0x0, 0x0, 0x0, 0x0, 1, 0x0, 1, 0x0, 1, 0x0⟩
  | .CAL_DROPPED => ⟨.CAL, 0x68, false, .rc, 0x0, 0x0, 0x0, 0x0, 1, 0x0, 1, 0x0, 1, 0x0⟩
  | .CAL_LOST => ⟨.CAL, 0x6C, false, .rc, 0x0, 0x0, 0x0, 0x0, 1, 0x0, 1, 0x0, 1, 0x0⟩
  | .CAL_COLD => ⟨.CAL, 0x70, false, .rc, 0x0, 0x0, 0x0, 0x0, 1, 0x0, 1, 0x0, 1, 0x0⟩
  | .CAL_RTCFG => ⟨.CAL, 0x74, false, .rw, 0x19000814, 0xFF00FFFF, 0x0, 0x0, 1, 0x0, 1, 0x0, 1, 0x0⟩
  | .CAL_RTDUE => ⟨.CAL, 0x78, false, .w1c, 0x0, 0x0, 0x0, 0xFFFFFF, 1, 0x0, 1, 0x0, 1, 0x0⟩
  | .CAL_SWLOST => ⟨.CAL, 0x7C, false, .rc, 0x0, 0x0, 0x0, 0x0, 1, 0x0, 1, 0x0, 1, 0x0⟩
  | .CAL_FRBASE => ⟨.CAL, 0x100, true, .rwl, 0x0, 0xFFFFFFFFF000, 0xFFFFFFFFF000, 0x0, 8, 0x20, 1, 0x0, 1, 0x0⟩
  | .CAL_FRSIZE => ⟨.CAL, 0x108, false, .rwl, 0x8, 0x1F, 0x1F, 0x0, 8, 0x20, 1, 0x0, 1, 0x0⟩
  | .CAL_FRRP => ⟨.CAL, 0x10C, false, .ro, 0x0, 0x0, 0x0, 0x0, 8, 0x20, 1, 0x0, 1, 0x0⟩
  | .CAL_FRSEQ => ⟨.CAL, 0x110, false, .ro, 0x0, 0x0, 0x0, 0x0, 8, 0x20, 1, 0x0, 1, 0x0⟩
  | .CAL_CHCFG => ⟨.CAL, 0x200, false, .rw, 0x0, 0x800F00FF, 0x0, 0x0, 144, 0x4, 1, 0x0, 1, 0x0⟩
  | .CAL_HLINK => ⟨.CAL, 0x800, false, .ro, 0x0, 0x0, 0x0, 0x0, 8, 0x4, 1, 0x0, 1, 0x0⟩
  | .CAL_PCFG => ⟨.CAL, 0x1000, false, .rw, 0xC040000, 0xFF0FFFFE, 0x0, 0x0, 16, 0x100, 1, 0x0, 1, 0x0⟩
  | .CAL_PASTALE => ⟨.CAL, 0x1004, false, .rw, 0x10000, 0x7FFFFFFF, 0x0, 0x0, 16, 0x100, 1, 0x0, 1, 0x0⟩
  | .CAL_PBASE => ⟨.CAL, 0x1010, false, .rw, 0x0, 0xFFFFFFFF, 0x0, 0x0, 16, 0x100, 4, 0x4, 1, 0x0⟩
  | .CAL_PTC => ⟨.CAL, 0x1020, false, .rw, 0x0, 0xFFFFFFFF, 0x0, 0x0, 16, 0x100, 4, 0x4, 1, 0x0⟩
  | .CAL_PMASK => ⟨.CAL, 0x1040, false, .rw, 0xFFFEFFFE, 0xFFFEFFFE, 0x0, 0x0, 16, 0x100, 8, 0x4, 1, 0x0⟩
  | .FLS_ID => ⟨.FLS, 0x0, false, .ro, 0x0, 0x0, 0x0, 0x0, 1, 0x0, 1, 0x0, 1, 0x0⟩
  | .FLS_CTRL => ⟨.FLS, 0x4, false, .rwl, 0x0, 0x1, 0x1, 0x0, 1, 0x0, 1, 0x0, 1, 0x0⟩
  | .FLS_STAT => ⟨.FLS, 0x8, false, .ro, 0x0, 0x0, 0x0, 0x0, 1, 0x0, 1, 0x0, 1, 0x0⟩
  | .FLS_ADDR => ⟨.FLS, 0xC, false, .rw, 0x0, 0x3FFFF, 0x0, 0x0, 1, 0x0, 1, 0x0, 1, 0x0⟩
  | .FLS_CMD => ⟨.FLS, 0x10, false, .wo, 0x0, 0x0, 0x0, 0x0, 1, 0x0, 1, 0x0, 1, 0x0⟩
  | .FLS_CE_CNT => ⟨.FLS, 0x14, false, .rc, 0x0, 0x0, 0x0, 0x0, 1, 0x0, 1, 0x0, 1, 0x0⟩
  | .FLS_UE_LOG => ⟨.FLS, 0x18, true, .w1c, 0x0, 0x0, 0x0, 0xC000000000000000, 1, 0x0, 1, 0x0, 1, 0x0⟩
  | .FLS_DATA => ⟨.FLS, 0x20, false, .rw, 0x0, 0xFFFFFFFF, 0x0, 0x0, 8, 0x4, 1, 0x0, 1, 0x0⟩
  | .AO_STATUS => ⟨.AO, 0x0, false, .ro, 0x0, 0x0, 0x0, 0x0, 1, 0x0, 1, 0x0, 1, 0x0⟩
  | .AO_SEQ => ⟨.AO, 0x4, false, .ro, 0x0, 0x0, 0x0, 0x0, 1, 0x0, 1, 0x0, 1, 0x0⟩
  | .AO_RPT => ⟨.AO, 0x8, true, .ro, 0x0, 0x0, 0x0, 0x0, 1, 0x0, 1, 0x0, 1, 0x0⟩
  | .AO_GKHASH => ⟨.AO, 0x10, false, .ro, 0x0, 0x0, 0x0, 0x0, 12, 0x4, 1, 0x0, 1, 0x0⟩
  | .AO_GPOLICY => ⟨.AO, 0x40, false, .ro, 0x0, 0x0, 0x0, 0x0, 1, 0x0, 1, 0x0, 1, 0x0⟩
  | .AO_HBCFG => ⟨.AO, 0x44, false, .rwl, 0xA, 0xFF, 0xFF, 0x0, 1, 0x0, 1, 0x0, 1, 0x0⟩
  | .AO_HBSTAT => ⟨.AO, 0x48, false, .ro, 0x0, 0x0, 0x0, 0x0, 1, 0x0, 1, 0x0, 1, 0x0⟩
  | .AO_FAILOVER => ⟨.AO, 0x4C, false, .wo, 0x0, 0x0, 0x0, 0x0, 1, 0x0, 1, 0x0, 1, 0x0⟩
  | .CLK_ID => ⟨.CLK, 0x0, false, .ro, 0x0, 0x0, 0x0, 0x0, 1, 0x0, 1, 0x0, 1, 0x0⟩
  | .CLK_STAT => ⟨.CLK, 0x4, false, .ro, 0x0, 0x0, 0x0, 0x0, 1, 0x0, 1, 0x0, 1, 0x0⟩
  | .DTIME => ⟨.CLK, 0x10, true, .ro, 0x0, 0x0, 0x0, 0x0, 1, 0x0, 1, 0x0, 1, 0x0⟩
  | .TICK => ⟨.CLK, 0x18, true, .ro, 0x0, 0x0, 0x0, 0x0, 1, 0x0, 1, 0x0, 1, 0x0⟩
  | .CLK_ALIGN => ⟨.CLK, 0x20, true, .ro, 0x0, 0x0, 0x0, 0x0, 1, 0x0, 1, 0x0, 1, 0x0⟩
  | .RST_QCTL => ⟨.RST, 0x0, false, .wo, 0x0, 0x0, 0x0, 0x0, 1, 0x0, 1, 0x0, 1, 0x0⟩
  | .RST_CLU => ⟨.RST, 0x4, false, .wo, 0x0, 0x0, 0x0, 0x0, 1, 0x0, 1, 0x0, 1, 0x0⟩
  | .RST_STAT => ⟨.RST, 0x8, false, .ro, 0x0, 0x0, 0x0, 0x0, 1, 0x0, 1, 0x0, 1, 0x0⟩
  | .RST_CAUSE => ⟨.RST, 0xC, false, .ro, 0x0, 0x0, 0x0, 0x0, 1, 0x0, 1, 0x0, 1, 0x0⟩
  | .PWR_DOM => ⟨.PWR, 0x0, false, .rw, 0x0, 0x3, 0x0, 0x0, 19, 0x4, 1, 0x0, 1, 0x0⟩
  | .PWR_TSENS => ⟨.PWR, 0x80, false, .ro, 0x0, 0x0, 0x0, 0x0, 16, 0x4, 1, 0x0, 1, 0x0⟩
  | .PWR_TQ => ⟨.PWR, 0xC0, false, .ro, 0x0, 0x0, 0x0, 0x0, 1, 0x0, 1, 0x0, 1, 0x0⟩
  | .PWR_QPOWER => ⟨.PWR, 0xC4, false, .ro, 0x0, 0x0, 0x0, 0x0, 1, 0x0, 1, 0x0, 1, 0x0⟩
  | .GOV_PL_LONG => ⟨.AO, 0x100, false, .rwl, 0x3B6, 0xFFFF, 0xFFFF, 0x0, 1, 0x0, 1, 0x0, 1, 0x0⟩
  | .GOV_PL_SHORT => ⟨.AO, 0x104, false, .rwl, 0x4E2, 0xFFFF, 0xFFFF, 0x0, 1, 0x0, 1, 0x0, 1, 0x0⟩
  | .GOV_PL_PEAK => ⟨.AO, 0x108, false, .rwl, 0x578, 0xFFFF, 0xFFFF, 0x0, 1, 0x0, 1, 0x0, 1, 0x0⟩
  | .GOV_CFG => ⟨.AO, 0x10C, false, .rwl, 0x20364, 0x1F0FFF, 0x1F0FFF, 0x0, 1, 0x0, 1, 0x0, 1, 0x0⟩
  | .GOV_FLOOR => ⟨.AO, 0x110, false, .rw, 0x0, 0x3F, 0x0, 0x0, 1, 0x0, 1, 0x0, 1, 0x0⟩
  | .GOV_STAT => ⟨.AO, 0x114, false, .ro, 0x0, 0x0, 0x0, 0x0, 1, 0x0, 1, 0x0, 1, 0x0⟩
  | .GOV_SKIP_CNT => ⟨.AO, 0x118, true, .ro, 0x0, 0x0, 0x0, 0x0, 1, 0x0, 1, 0x0, 1, 0x0⟩
  | .GOV_PAVG => ⟨.AO, 0x120, false, .ro, 0x0, 0x0, 0x0, 0x0, 1, 0x0, 1, 0x0, 1, 0x0⟩
  | .GOV_PNOW => ⟨.AO, 0x124, false, .ro, 0x0, 0x0, 0x0, 0x0, 1, 0x0, 1, 0x0, 1, 0x0⟩
  | .GOV_HOT => ⟨.AO, 0x128, false, .ro, 0x0, 0x0, 0x0, 0x0, 1, 0x0, 1, 0x0, 1, 0x0⟩
  | .SAFE_STAT => ⟨.AO, 0x12C, false, .ro, 0x0, 0x0, 0x0, 0x0, 1, 0x0, 1, 0x0, 1, 0x0⟩
  | .AVS_CFG => ⟨.AO, 0x140, false, .rwl, 0x0, 0x7F, 0x7F, 0x0, 1, 0x0, 1, 0x0, 1, 0x0⟩
  | .AVS_TRIM => ⟨.AO, 0x144, false, .rw, 0x0, 0xFF, 0x0, 0x0, 1, 0x0, 1, 0x0, 1, 0x0⟩
  | .AVS_STAT => ⟨.AO, 0x148, false, .ro, 0x0, 0x0, 0x0, 0x0, 1, 0x0, 1, 0x0, 1, 0x0⟩
  | .AVS_ERR_CNT => ⟨.AO, 0x14C, false, .rc, 0x0, 0x0, 0x0, 0x0, 1, 0x0, 1, 0x0, 1, 0x0⟩
  | .FLT_AERR_LOG => ⟨.SYS, 0x8000, true, .w1c, 0x0, 0x0, 0x0, 0xC000000000000000, 1, 0x0, 1, 0x0, 1, 0x0⟩
  | .FLT_AERR_CNT => ⟨.SYS, 0x8008, false, .rc, 0x0, 0x0, 0x0, 0x0, 1, 0x0, 1, 0x0, 1, 0x0⟩
  | .FLT_SLOTPOL => ⟨.SYS, 0x800C, false, .rw, 0x8, 0xFF, 0x0, 0x0, 1, 0x0, 1, 0x0, 1, 0x0⟩
  | .FLT_SLOT_LOG => ⟨.SYS, 0x8010, true, .w1c, 0x0, 0x0, 0x0, 0xC000000000000000, 1, 0x0, 1, 0x0, 1, 0x0⟩
  | .FLT_QLOST => ⟨.SYS, 0x8018, false, .rc, 0x0, 0x0, 0x0, 0x0, 1, 0x0, 1, 0x0, 1, 0x0⟩
  | .FLT_PPR_CMD => ⟨.SYS, 0x8020, true, .wo, 0x0, 0x0, 0x0, 0x0, 1, 0x0, 1, 0x0, 1, 0x0⟩
  | .FLT_PPR_STAT => ⟨.SYS, 0x8028, false, .ro, 0x0, 0x0, 0x0, 0x0, 1, 0x0, 1, 0x0, 1, 0x0⟩
  | .DW_IDCODE => ⟨.DW, 0x0, false, .ro, 0x14096567, 0x0, 0x0, 0x0, 1, 0x0, 1, 0x0, 1, 0x0⟩
  | .DW_UID_LO => ⟨.DW, 0x1, false, .ro, 0x0, 0x0, 0x0, 0x0, 1, 0x0, 1, 0x0, 1, 0x0⟩
  | .DW_UID_HI => ⟨.DW, 0x2, false, .ro, 0x0, 0x0, 0x0, 0x0, 1, 0x0, 1, 0x0, 1, 0x0⟩
  | .DW_STAT => ⟨.DW, 0x3, false, .ro, 0x0, 0x0, 0x0, 0x0, 1, 0x0, 1, 0x0, 1, 0x0⟩
  | .DW_AUTH_CMD => ⟨.DW, 0x5, false, .wo, 0x0, 0x0, 0x0, 0x0, 1, 0x0, 1, 0x0, 1, 0x0⟩
  | .DW_NONCE => ⟨.DW, 0x6, false, .ro, 0x0, 0x0, 0x0, 0x0, 1, 0x0, 1, 0x0, 1, 0x0⟩
  | .DW_AUTH_DATA => ⟨.DW, 0x7, false, .wo, 0x0, 0x0, 0x0, 0x0, 1, 0x0, 1, 0x0, 1, 0x0⟩
  | .DW_ADDR_LO => ⟨.DW, 0x8, false, .rw, 0x0, 0xFFFFFFFF, 0x0, 0x0, 1, 0x0, 1, 0x0, 1, 0x0⟩
  | .DW_ADDR_HI => ⟨.DW, 0x9, false, .rw, 0x0, 0xFFFF, 0x0, 0x0, 1, 0x0, 1, 0x0, 1, 0x0⟩
  | .DW_DATA => ⟨.DW, 0xA, false, .rw, 0x0, 0xFFFFFFFF, 0x0, 0x0, 1, 0x0, 1, 0x0, 1, 0x0⟩
  | .DW_DATA_HI => ⟨.DW, 0xB, false, .rw, 0x0, 0xFFFFFFFF, 0x0, 0x0, 1, 0x0, 1, 0x0, 1, 0x0⟩
  | .DW_BUSCTL => ⟨.DW, 0xC, false, .rw, 0x0, 0x78000000, 0x0, 0x0, 1, 0x0, 1, 0x0, 1, 0x0⟩
  | .DBG_ID => ⟨.DBG, 0x0, false, .ro, 0x0, 0x0, 0x0, 0x0, 1, 0x0, 1, 0x0, 1, 0x0⟩
  | .DBG_CTRL => ⟨.DBG, 0x4, false, .rwl, 0x0, 0x1, 0x1, 0x0, 1, 0x0, 1, 0x0, 1, 0x0⟩
  | .DBG_STAT => ⟨.DBG, 0x8, false, .ro, 0x0, 0x0, 0x0, 0x0, 1, 0x0, 1, 0x0, 1, 0x0⟩
  | .DBG_EBHALT => ⟨.DBG, 0x10, false, .rw, 0x0, 0xFFFF, 0x0, 0x0, 1, 0x0, 1, 0x0, 1, 0x0⟩
  | .DBG_CCMD => ⟨.DBG, 0x14, false, .wo, 0x0, 0x0, 0x0, 0x0, 1, 0x0, 1, 0x0, 1, 0x0⟩
  | .DBG_CREG_SEL => ⟨.DBG, 0x20, false, .rw, 0x0, 0xFC700FFF, 0x0, 0x0, 1, 0x0, 1, 0x0, 1, 0x0⟩
  | .DBG_CREG_DATA => ⟨.DBG, 0x28, true, .rw, 0x0, 0xFFFFFFFFFFFFFFFF, 0x0, 0x0, 1, 0x0, 1, 0x0, 1, 0x0⟩
  | .PATCH_CTL => ⟨.DBG, 0x1000, false, .rw, 0x0, 0x8103FFFF, 0x0, 0x0, 64, 0x40, 1, 0x0, 1, 0x0⟩
  | .PATCH_DATA => ⟨.DBG, 0x1020, false, .rw, 0x0, 0xFFFFFFFF, 0x0, 0x0, 64, 0x40, 8, 0x4, 1, 0x0⟩
  | .DBG_SHALT => ⟨.DBG, 0x4000, false, .wo, 0x0, 0x0, 0x0, 0x0, 1, 0x0, 1, 0x0, 1, 0x0⟩
  | .XT_IN => ⟨.DBG, 0x4100, false, .rw, 0x0, 0xFFFF, 0x0, 0x0, 4, 0x20, 1, 0x0, 1, 0x0⟩
  | .XT_ACT => ⟨.DBG, 0x4104, false, .rw, 0x0, 0xF, 0x0, 0x0, 4, 0x20, 1, 0x0, 1, 0x0⟩
  | .XT_CMASK => ⟨.DBG, 0x4108, true, .rw, 0x0, 0xFFFFFFFFFFFFFFFF, 0x0, 0x0, 4, 0x20, 1, 0x0, 1, 0x0⟩
  | .XT_DTIME => ⟨.DBG, 0x4110, true, .rw, 0x0, 0xFFFFFFFFFFFFFFFF, 0x0, 0x0, 4, 0x20, 1, 0x0, 1, 0x0⟩
  | .XT_FIRE => ⟨.DBG, 0x4118, false, .wo, 0x0, 0x0, 0x0, 0x0, 4, 0x20, 1, 0x0, 1, 0x0⟩
  | .CAP_CTRL => ⟨.DBG, 0x4200, false, .wo, 0x0, 0x0, 0x0, 0x0, 1, 0x0, 1, 0x0, 1, 0x0⟩
  | .CAP_DTIME => ⟨.DBG, 0x4208, true, .rw, 0x0, 0xFFFFFFFFFFFFFFFF, 0x0, 0x0, 1, 0x0, 1, 0x0, 1, 0x0⟩
  | .CAP_BASE => ⟨.DBG, 0x4210, true, .rw, 0x0, 0xFFFFFFFFF000, 0x0, 0x0, 1, 0x0, 1, 0x0, 1, 0x0⟩
  | .CAP_STAT => ⟨.DBG, 0x4218, false, .ro, 0x0, 0x0, 0x0, 0x0, 1, 0x0, 1, 0x0, 1, 0x0⟩
  | .CAP_SIZE => ⟨.DBG, 0x421C, false, .ro, 0x0, 0x0, 0x0, 0x0, 1, 0x0, 1, 0x0, 1, 0x0⟩
  | .CAP_DATA => ⟨.DBG, 0x4220, false, .rc, 0x0, 0x0, 0x0, 0x0, 1, 0x0, 1, 0x0, 1, 0x0⟩
  | .BLK_ID => ⟨.HDR, 0xFF00, false, .ro, 0x0, 0x0, 0x0, 0x0, 256, 0x10000, 1, 0x0, 1, 0x0⟩
  | .BLK_LOCK => ⟨.HDR, 0xFF04, false, .w1s, 0x0, 0x1, 0x0, 0x0, 256, 0x10000, 1, 0x0, 1, 0x0⟩
  | .AO_PARTID => ⟨.AO, 0x200, false, .ro, 0x0, 0x0, 0x0, 0x0, 1, 0x0, 1, 0x0, 1, 0x0⟩
  | .AO_ORDER => ⟨.AO, 0x204, false, .ro, 0x0, 0x0, 0x0, 0x0, 1, 0x0, 1, 0x0, 1, 0x0⟩
  | .AO_UID => ⟨.AO, 0x208, true, .ro, 0x0, 0x0, 0x0, 0x0, 1, 0x0, 1, 0x0, 1, 0x0⟩
  | .FUSE_STAT => ⟨.FUSE, 0x0, false, .ro, 0x0, 0x0, 0x0, 0x0, 1, 0x0, 1, 0x0, 1, 0x0⟩
  | .FUSE_QPOS => ⟨.FUSE, 0x4, false, .ro, 0x0, 0x0, 0x0, 0x0, 1, 0x0, 1, 0x0, 1, 0x0⟩
  | .FUSE_KHASH => ⟨.FUSE, 0x10, false, .ro, 0x0, 0x0, 0x0, 0x0, 12, 0x4, 1, 0x0, 1, 0x0⟩
  | .UART_CFG => ⟨.SER, 0x0, false, .rw, 0x0, 0xF00FFFFF, 0x0, 0x0, 4, 0x40, 1, 0x0, 1, 0x0⟩
  | .UART_TX => ⟨.SER, 0x4, false, .wo, 0x0, 0x0, 0x0, 0x0, 4, 0x40, 1, 0x0, 1, 0x0⟩
  | .UART_RX => ⟨.SER, 0x8, false, .rc, 0x0, 0x0, 0x0, 0x0, 4, 0x40, 1, 0x0, 1, 0x0⟩
  | .UART_STAT => ⟨.SER, 0xC, false, .w1c, 0x0, 0x0, 0x0, 0xF0000000, 4, 0x40, 1, 0x0, 1, 0x0⟩
  | .SPI_CFG => ⟨.SER, 0x1000, false, .rw, 0x10, 0x8000FFFF, 0x0, 0x0, 2, 0x100, 1, 0x0, 1, 0x0⟩
  | .SPI_CMD => ⟨.SER, 0x1004, false, .wo, 0x0, 0x0, 0x0, 0x0, 2, 0x100, 1, 0x0, 1, 0x0⟩
  | .SPI_STAT => ⟨.SER, 0x1008, false, .ro, 0x0, 0x0, 0x0, 0x0, 2, 0x100, 1, 0x0, 1, 0x0⟩
  | .SPI_DATA => ⟨.SER, 0x1020, false, .rw, 0x0, 0xFFFFFFFF, 0x0, 0x0, 2, 0x100, 64, 0x4, 1, 0x0⟩
  | .I3C0_CFG => ⟨.SER, 0x2000, false, .rw, 0x0, 0xC000FFFF, 0x0, 0x0, 1, 0x0, 1, 0x0, 1, 0x0⟩
  | .I3C0_CMD => ⟨.SER, 0x2004, false, .wo, 0x0, 0x0, 0x0, 0x0, 1, 0x0, 1, 0x0, 1, 0x0⟩
  | .I3C0_STAT => ⟨.SER, 0x2008, false, .ro, 0x0, 0x0, 0x0, 0x0, 1, 0x0, 1, 0x0, 1, 0x0⟩
  | .I3C0_DATA => ⟨.SER, 0x2020, false, .rw, 0x0, 0xFFFFFFFF, 0x0, 0x0, 16, 0x4, 1, 0x0, 1, 0x0⟩
  | .GPIO_OUT => ⟨.SER, 0x3000, false, .rw, 0x0, 0xFFFF, 0x0, 0x0, 1, 0x0, 1, 0x0, 1, 0x0⟩
  | .GPIO_OE => ⟨.SER, 0x3004, false, .rw, 0x0, 0xFFFF, 0x0, 0x0, 1, 0x0, 1, 0x0, 1, 0x0⟩
  | .GPIO_IN => ⟨.SER, 0x3008, false, .ro, 0x0, 0x0, 0x0, 0x0, 1, 0x0, 1, 0x0, 1, 0x0⟩
  | .SER_ERR => ⟨.SER, 0x3010, false, .rc, 0x0, 0x0, 0x0, 0x0, 1, 0x0, 1, 0x0, 1, 0x0⟩

/-- Part 0 of the register names. -/
def R.part0 : List R := [.TILE_ID, .TMEM_OWN, .TMEM_STAT, .TMEM_FLAGS, .TMEM_CCNT, .TMEM_CE_LEVEL, .TMEM_CE_HI, .TMEM_CE_LO, .TMEM_CE_STATUS, .TMEM_UE_LOG, .TMEM_UE_CNT, .TMEM_SPARE, .SW_UE_LOG, .TPORT_STAT, .TMEM_NOCTO, .AGREG, .CLU_ID, .CLU_STAT, .CLU_REGROW, .ISO_STAT, .FENCE_LOG, .CTX_CE_LEVEL, .CTX_CE_HI, .CTX_CE_LO]

/-- Part 1 of the register names. -/
def R.part1 : List R := [.CTX_CE_STATUS, .CTX_UE_LOG, .CTX_UE_CNT, .CTX_ILLEGAL_CNT, .FENCE_CNT, .POS_CFG, .GFP, .SLOT_CMD, .SLOT_STAT, .SLOT_FOOT, .SLOT_GEN, .SLOT_OID, .SLOT_FRAME, .SLOT_EXIT, .SLOT_RUN, .SLOT_FRAMES, .SLOT_MAP, .VP_CFG, .LPB, .CSAT, .BR_ID, .BR_STAT, .REPAIR_CMD, .REPAIR_STAT]

/-- Part 2 of the register names. -/
def R.part2 : List R := [.DIR_STAT, .DIR_CFG, .RETRY_CNT, .FAULT_CNT, .FILLER_ERR_CNT, .ACK_ERR_CNT, .ALIGN_ERR_CNT, .UNMATCHED_CNT, .FAULT_LOG, .LANE_ERR, .SPARE_MAP, .WIRE_ERR, .WIRE_FLAG, .NSL_STAT, .NSL_CRC_CNT, .NSL_REPLAY_CNT, .NSL_SPARE, .SEN_CTRL, .SEN_STAT, .SEN_FIFO, .SEN_ERRLOG, .JADDR, .JLEN, .JATTR]

/-- Part 3 of the register names. -/
def R.part3 : List R := [.JDONE, .JTAG, .WIN_FIRST, .WIN_COUNT, .WIN_MOLT, .WIN_FAULT_CNT, .WIN_FAULT_LOG, .WIN_ENT, .SCC_CFG, .SCC_CE_CNT, .SCC_UE_LOG, .SCC_WAYS, .SCC_CLASS, .SCC_HIT, .SCC_MISS, .HBM_STAT, .HBM_CE_CNT, .HBM_UE_LOG, .HBM_UE_CNT, .GRP_RATE, .GRP_RSUM, .NOC_ERR_LOG, .NOC_TRUNC_LOG, .NOC_TRUNC_CNT]

/-- Part 4 of the register names. -/
def R.part4 : List R := [.NOC_WEIGHT, .NOC_WSUM, .GRP_MAP, .DSP_ID, .DSP_CTRL, .DSP_STAT, .DSP_TCB_BASE, .DSP_TCB_COUNT, .DSP_CMD, .DSP_ERR_LOG, .DSP_ERR_CNT, .DSP_BP_CNT, .DSP_RDY_LEVEL, .DSP_RDY_HI, .DSP_RDY_LO, .DSP_RDY_STATUS, .DSP_DLY_LEVEL, .DSP_DLY_HI, .DSP_DLY_LO, .DSP_DLY_STATUS, .DSP_TRACE_BASE, .DSP_TRACE_SIZE, .DSP_TRACE_WP, .DSP_TRACE_DROP]

/-- Part 5 of the register names. -/
def R.part5 : List R := [.DSP_LVL_CNT, .DSP_REPL, .DSP_REPL_EN, .DSP_SLOT, .DSP_CORE, .CORE_ID, .CORE_CTRL, .CORE_STAT, .CORE_RSTVEC, .CORE_WEDGE_LOG, .CORE_FLT_CNT, .CORE_SPILL_ERR, .CORE_SPILL_CNT, .CORE_FPX_CNT, .BNK_OWNER, .BNK_STAT, .BNK_CCNT, .BNK_FLAGS, .BNK_SPARE, .BNK_CE_LEVEL, .BNK_CE_HI, .BNK_CE_LO, .BNK_CE_STATUS, .BNK_UE_LOG]

/-- Part 6 of the register names. -/
def R.part6 : List R := [.BNK_UE_CNT, .EVT_ID, .EVT_CTRL, .EVT_COAL_CNT, .EVT_LOG_BASE, .EVT_LOG_SIZE, .EVT_LOG_WP, .EVT_LOG_DROP, .EVT_CLAIM, .EVT_TMR_CTRL, .EVT_TMR_PERIOD, .EVT_TMR_NEXT, .EVT_PEND, .EVT_SWSET, .EVT_ROUTE, .MBX_LOCK, .MBX_CROAK_CNT, .MBX_ABORT_CNT, .MBX_SPTR, .MBX_SLT, .MBX_RPTR, .MBX_RLT, .MBX_STAT, .MBX_WORD]

/-- Part 7 of the register names. -/
def R.part7 : List R := [.MBX_HLOCK, .MBX_HPEND, .HMBX_SPTR, .HMBX_SLT, .HMBX_RPTR, .HMBX_RLT, .HMBX_STAT, .HMBX_WORD, .FN_ID, .FN_STAT, .FN_TICK, .FN_MBX_SPTR, .FN_MBX_SLT, .FN_MBX_STAT, .FN_MBX_WORD, .FN_MSIX, .FN_PBA, .HIF_ID, .HIF_STAT, .HIF_PCFG, .HIF_LCTRL, .HIF_LSTAT, .HIF_LCFG, .HIF_VFCFG]

/-- Part 8 of the register names. -/
def R.part8 : List R := [.HIF_VFBASE, .HIF_IDCFG, .HIF_DOWN_CNT, .HIF_RECOV_CNT, .HIF_CORR_CNT, .HIF_UNCORR_CNT, .HIF_LLOG, .HIF_FLRPEND, .SQ_TAIL, .CQ_HEAD, .QP_CTRL, .QP_STAT, .SQ_BASE, .CQ_BASE, .QP_SIZE, .QP_INTR, .QP_ITIME, .SQ_HEAD, .CQ_TAIL, .QP_INFO, .QE_ID, .QE_CTRL, .QE_STAT, .QE_ENT_BASE]

/-- Part 9 of the register names. -/
def R.part9 : List R := [.QE_TCB_FIRST, .QE_FW_CHAN, .QE_FW_BASE, .QE_FWDONE, .QE_ERR_LOG, .QE_ERR_CNT, .QE_BP_CNT, .QE_TONGUE_ARG, .QE_TONGUE_CMD, .QE_TONGUE_STAT, .QE_THREAD_PC, .QE_TAREA_BASE, .QE_WMPEND, .QP_OWN, .QP_FLAGS, .QP_WM_LEVEL, .QP_WM_HI, .QP_WM_LO, .QP_WM_STATUS, .MSQ_CHCFG, .MSQ_CHCTRL, .MSQ_POST, .MSQ_CHSTAT, .MSQ_CHERR]

/-- Part 10 of the register names. -/
def R.part10 : List R := [.MSQ_CHLOG, .MSQ_LUNOP, .MSQ_CHBCCNT, .MSQ_CHBCE, .MSQ_RBASE, .MSQ_RSIZE, .MSQ_RWP, .MSQ_RRP, .MSQ_RHOLD, .MSQ_RWM_LEVEL, .MSQ_RWM_HI, .MSQ_RWM_LO, .MSQ_RWM_STATUS, .MSQ_ID, .MSQ_CONF, .MSQ_PROBECFG, .MSQ_PROBELEN, .MSQ_WMPEND, .MSQ_PFSTAT, .MSQ_PFCLR, .MSQ_OPDARM, .MSQ_OPCAP, .MSQ_OPUSE, .NPH_CFG]

/-- Part 11 of the register names. -/
def R.part11 : List R := [.NPH_STAT, .NPH_TRAIN, .NPH_TSTAT, .TET_LCTRL, .TET_LCFG, .TET_LSTAT, .TET_BACKOFF, .TET_BRID, .TET_BRINFO, .TET_EYE, .TET_FEC_CE, .TET_FEC_UE, .TET_CRC_ERR, .TET_REPLAY_CNT, .TET_NAK_CNT, .TET_DOWN_CNT, .TET_RESTART_CNT, .TET_LINKTO, .TET_LLOG, .TET_MADDR, .TET_MRADDR, .TET_MCMD, .TET_MSTAT, .TET_CHINFO]

/-- Part 12 of the register names. -/
def R.part12 : List R := [.TET_CHERR, .TET_ID, .TET_RXCRED, .TET_STAT, .CAL_ID, .CAL_CTRL, .CAL_STAT, .CAL_TBASE, .CAL_SWBASE, .CAL_SWSIZE, .CAL_SWWP, .CAL_SWRP, .CAL_ECMD, .CAL_EDATA, .CAL_ESTAT, .CAL_APPLIED, .CAL_DROPPED, .CAL_LOST, .CAL_COLD, .CAL_RTCFG, .CAL_RTDUE, .CAL_SWLOST, .CAL_FRBASE, .CAL_FRSIZE]

/-- Part 13 of the register names. -/
def R.part13 : List R := [.CAL_FRRP, .CAL_FRSEQ, .CAL_CHCFG, .CAL_HLINK, .CAL_PCFG, .CAL_PASTALE, .CAL_PBASE, .CAL_PTC, .CAL_PMASK, .FLS_ID, .FLS_CTRL, .FLS_STAT, .FLS_ADDR, .FLS_CMD, .FLS_CE_CNT, .FLS_UE_LOG, .FLS_DATA, .AO_STATUS, .AO_SEQ, .AO_RPT, .AO_GKHASH, .AO_GPOLICY, .AO_HBCFG, .AO_HBSTAT]

/-- Part 14 of the register names. -/
def R.part14 : List R := [.AO_FAILOVER, .CLK_ID, .CLK_STAT, .DTIME, .TICK, .CLK_ALIGN, .RST_QCTL, .RST_CLU, .RST_STAT, .RST_CAUSE, .PWR_DOM, .PWR_TSENS, .PWR_TQ, .PWR_QPOWER, .GOV_PL_LONG, .GOV_PL_SHORT, .GOV_PL_PEAK, .GOV_CFG, .GOV_FLOOR, .GOV_STAT, .GOV_SKIP_CNT, .GOV_PAVG, .GOV_PNOW, .GOV_HOT]

/-- Part 15 of the register names. -/
def R.part15 : List R := [.SAFE_STAT, .AVS_CFG, .AVS_TRIM, .AVS_STAT, .AVS_ERR_CNT, .FLT_AERR_LOG, .FLT_AERR_CNT, .FLT_SLOTPOL, .FLT_SLOT_LOG, .FLT_QLOST, .FLT_PPR_CMD, .FLT_PPR_STAT, .DW_IDCODE, .DW_UID_LO, .DW_UID_HI, .DW_STAT, .DW_AUTH_CMD, .DW_NONCE, .DW_AUTH_DATA, .DW_ADDR_LO, .DW_ADDR_HI, .DW_DATA, .DW_DATA_HI, .DW_BUSCTL]

/-- Part 16 of the register names. -/
def R.part16 : List R := [.DBG_ID, .DBG_CTRL, .DBG_STAT, .DBG_EBHALT, .DBG_CCMD, .DBG_CREG_SEL, .DBG_CREG_DATA, .PATCH_CTL, .PATCH_DATA, .DBG_SHALT, .XT_IN, .XT_ACT, .XT_CMASK, .XT_DTIME, .XT_FIRE, .CAP_CTRL, .CAP_DTIME, .CAP_BASE, .CAP_STAT, .CAP_SIZE, .CAP_DATA, .BLK_ID, .BLK_LOCK, .AO_PARTID]

/-- Part 17 of the register names. -/
def R.part17 : List R := [.AO_ORDER, .AO_UID, .FUSE_STAT, .FUSE_QPOS, .FUSE_KHASH, .UART_CFG, .UART_TX, .UART_RX, .UART_STAT, .SPI_CFG, .SPI_CMD, .SPI_STAT, .SPI_DATA, .I3C0_CFG, .I3C0_CMD, .I3C0_STAT, .I3C0_DATA, .GPIO_OUT, .GPIO_OE, .GPIO_IN, .SER_ERR]

/-- Every register name, for decoding an address. -/
def R.all : List R :=
  List.flatten [R.part0, R.part1, R.part2, R.part3, R.part4, R.part5, R.part6, R.part7, R.part8, R.part9, R.part10, R.part11, R.part12, R.part13, R.part14, R.part15, R.part16, R.part17]

/-- One register: its name, its quarter, and the indices of its row (page, number, word). -/
structure RKey where
  r : R
  q : Nat
  i : Nat
  j : Nat
  k : Nat
  deriving DecidableEq, Repr

end Sys2Proof.Machine
end

