-- ==== Sys2Proof/Machine/Fields.lean ====
section
/-! DEFINITION. The fields of the registers, from the field tables of the spec's chapters: a field is its
register and its bit range. -/

namespace Sys2Proof.Machine

/-- A field of a register: bits `hi` down to `lo` of `reg`. -/
structure Field where
  reg : R
  hi : Nat
  lo : Nat
  deriving DecidableEq, Repr

abbrev F.TILE_ID_SPARE : Field := ⟨.TILE_ID, 31, 31⟩
abbrev F.TILE_ID_MAPPED : Field := ⟨.TILE_ID, 30, 30⟩
abbrev F.TILE_ID_Y : Field := ⟨.TILE_ID, 21, 16⟩
abbrev F.TILE_ID_X : Field := ⟨.TILE_ID, 13, 8⟩
abbrev F.TILE_ID_PCOL : Field := ⟨.TILE_ID, 3, 0⟩
abbrev F.TMEM_OWN_OWN3 : Field := ⟨.TMEM_OWN, 15, 12⟩
abbrev F.TMEM_OWN_OWN2 : Field := ⟨.TMEM_OWN, 11, 8⟩
abbrev F.TMEM_OWN_OWN1 : Field := ⟨.TMEM_OWN, 7, 4⟩
abbrev F.TMEM_OWN_OWN0 : Field := ⟨.TMEM_OWN, 3, 0⟩
abbrev F.TMEM_STAT_POISON : Field := ⟨.TMEM_STAT, 7, 4⟩
abbrev F.TMEM_STAT_MOLTING : Field := ⟨.TMEM_STAT, 3, 0⟩
abbrev F.TMEM_FLAGS_NOC_TIMEOUT : Field := ⟨.TMEM_FLAGS, 11, 8⟩
abbrev F.TMEM_FLAGS_NOC_LOST : Field := ⟨.TMEM_FLAGS, 7, 4⟩
abbrev F.TMEM_FLAGS_ARRAY_LOST : Field := ⟨.TMEM_FLAGS, 3, 0⟩
abbrev F.TMEM_CCNT_COUNT : Field := ⟨.TMEM_CCNT, 15, 0⟩
abbrev F.TMEM_CE_STATUS_ABOVE : Field := ⟨.TMEM_CE_STATUS, 31, 31⟩
abbrev F.TMEM_CE_STATUS_UP_SEEN : Field := ⟨.TMEM_CE_STATUS, 30, 30⟩
abbrev F.TMEM_CE_STATUS_DOWN_SEEN : Field := ⟨.TMEM_CE_STATUS, 29, 29⟩
abbrev F.TMEM_CE_STATUS_COUNT : Field := ⟨.TMEM_CE_STATUS, 7, 0⟩
abbrev F.TMEM_UE_LOG_VALID : Field := ⟨.TMEM_UE_LOG, 63, 63⟩
abbrev F.TMEM_UE_LOG_OVF : Field := ⟨.TMEM_UE_LOG, 62, 62⟩
abbrev F.TMEM_UE_LOG_SRC : Field := ⟨.TMEM_UE_LOG, 61, 61⟩
abbrev F.TMEM_UE_LOG_POS : Field := ⟨.TMEM_UE_LOG, 60, 59⟩
abbrev F.TMEM_UE_LOG_BANK : Field := ⟨.TMEM_UE_LOG, 49, 48⟩
abbrev F.TMEM_UE_LOG_WORD : Field := ⟨.TMEM_UE_LOG, 42, 32⟩
abbrev F.TMEM_UE_LOG_SYNDROME : Field := ⟨.TMEM_UE_LOG, 9, 0⟩
abbrev F.TMEM_SPARE_USED0 : Field := ⟨.TMEM_SPARE, 31, 0⟩
abbrev F.SW_UE_LOG_VALID : Field := ⟨.SW_UE_LOG, 63, 63⟩
abbrev F.SW_UE_LOG_OVF : Field := ⟨.SW_UE_LOG, 62, 62⟩
abbrev F.SW_UE_LOG_SRC : Field := ⟨.SW_UE_LOG, 61, 61⟩
abbrev F.SW_UE_LOG_POS : Field := ⟨.SW_UE_LOG, 60, 59⟩
abbrev F.SW_UE_LOG_BANK : Field := ⟨.SW_UE_LOG, 49, 48⟩
abbrev F.SW_UE_LOG_WORD : Field := ⟨.SW_UE_LOG, 42, 32⟩
abbrev F.SW_UE_LOG_SYNDROME : Field := ⟨.SW_UE_LOG, 9, 0⟩
abbrev F.TPORT_STAT_POS1 : Field := ⟨.TPORT_STAT, 19, 18⟩
abbrev F.TPORT_STAT_POS0 : Field := ⟨.TPORT_STAT, 17, 16⟩
abbrev F.TPORT_STAT_BOUND1 : Field := ⟨.TPORT_STAT, 15, 15⟩
abbrev F.TPORT_STAT_BOUND0 : Field := ⟨.TPORT_STAT, 7, 7⟩
abbrev F.TPORT_STAT_LEAP1 : Field := ⟨.TPORT_STAT, 14, 14⟩
abbrev F.TPORT_STAT_LEAP0 : Field := ⟨.TPORT_STAT, 6, 6⟩
abbrev F.TPORT_STAT_OUT1 : Field := ⟨.TPORT_STAT, 13, 13⟩
abbrev F.TPORT_STAT_OUT0 : Field := ⟨.TPORT_STAT, 5, 5⟩
abbrev F.TPORT_STAT_EOS1 : Field := ⟨.TPORT_STAT, 12, 12⟩
abbrev F.TPORT_STAT_EOS0 : Field := ⟨.TPORT_STAT, 4, 4⟩
abbrev F.TPORT_STAT_LEVEL1 : Field := ⟨.TPORT_STAT, 11, 8⟩
abbrev F.TPORT_STAT_LEVEL0 : Field := ⟨.TPORT_STAT, 3, 0⟩
abbrev F.AGREG_STEP : Field := ⟨.AGREG, 59, 48⟩
abbrev F.AGREG_IDX : Field := ⟨.AGREG, 42, 32⟩
abbrev F.AGREG_LEN : Field := ⟨.AGREG, 26, 16⟩
abbrev F.AGREG_BASE : Field := ⟨.AGREG, 10, 0⟩
abbrev F.CLU_ID_LOCAL : Field := ⟨.CLU_ID, 13, 10⟩
abbrev F.CLU_ID_QUARTER : Field := ⟨.CLU_ID, 9, 8⟩
abbrev F.CLU_ID_CLUSTER : Field := ⟨.CLU_ID, 5, 0⟩
abbrev F.CLU_STAT_CSTATE : Field := ⟨.CLU_STAT, 31, 30⟩
abbrev F.CLU_STAT_DOMAIN : Field := ⟨.CLU_STAT, 29, 28⟩
abbrev F.CLU_STAT_RGRESULT : Field := ⟨.CLU_STAT, 23, 20⟩
abbrev F.CLU_STAT_RGPROG : Field := ⟨.CLU_STAT, 19, 16⟩
abbrev F.CLU_STAT_SHIFT_COL : Field := ⟨.CLU_STAT, 11, 8⟩
abbrev F.CLU_STAT_SPARE_USED : Field := ⟨.CLU_STAT, 7, 7⟩
abbrev F.CLU_STAT_FUSED : Field := ⟨.CLU_STAT, 6, 6⟩
abbrev F.CLU_REGROW_CMD : Field := ⟨.CLU_REGROW, 9, 8⟩
abbrev F.CLU_REGROW_COL : Field := ⟨.CLU_REGROW, 3, 0⟩
abbrev F.FENCE_LOG_VALID : Field := ⟨.FENCE_LOG, 63, 63⟩
abbrev F.FENCE_LOG_OVF : Field := ⟨.FENCE_LOG, 62, 62⟩
abbrev F.FENCE_LOG_POS : Field := ⟨.FENCE_LOG, 61, 60⟩
abbrev F.FENCE_LOG_UNIT : Field := ⟨.FENCE_LOG, 59, 58⟩
abbrev F.FENCE_LOG_INDEX : Field := ⟨.FENCE_LOG, 55, 50⟩
abbrev F.FENCE_LOG_TILE : Field := ⟨.FENCE_LOG, 47, 42⟩
abbrev F.FENCE_LOG_CELL : Field := ⟨.FENCE_LOG, 41, 38⟩
abbrev F.FENCE_LOG_KIND : Field := ⟨.FENCE_LOG, 37, 35⟩
abbrev F.FENCE_LOG_RES : Field := ⟨.FENCE_LOG, 7, 0⟩
abbrev F.CTX_CE_STATUS_ABOVE : Field := ⟨.CTX_CE_STATUS, 31, 31⟩
abbrev F.CTX_CE_STATUS_UP_SEEN : Field := ⟨.CTX_CE_STATUS, 30, 30⟩
abbrev F.CTX_CE_STATUS_DOWN_SEEN : Field := ⟨.CTX_CE_STATUS, 29, 29⟩
abbrev F.CTX_CE_STATUS_COUNT : Field := ⟨.CTX_CE_STATUS, 7, 0⟩
abbrev F.CTX_UE_LOG_VALID : Field := ⟨.CTX_UE_LOG, 63, 63⟩
abbrev F.CTX_UE_LOG_OVF : Field := ⟨.CTX_UE_LOG, 62, 62⟩
abbrev F.CTX_UE_LOG_POS : Field := ⟨.CTX_UE_LOG, 61, 60⟩
abbrev F.CTX_UE_LOG_INDEX : Field := ⟨.CTX_UE_LOG, 59, 54⟩
abbrev F.CTX_UE_LOG_TILE : Field := ⟨.CTX_UE_LOG, 53, 48⟩
abbrev F.CTX_UE_LOG_CELL : Field := ⟨.CTX_UE_LOG, 47, 44⟩
abbrev F.CTX_UE_LOG_SYNDROME : Field := ⟨.CTX_UE_LOG, 7, 0⟩
abbrev F.POS_CFG_VALID : Field := ⟨.POS_CFG, 31, 31⟩
abbrev F.POS_CFG_ANCHOR : Field := ⟨.POS_CFG, 30, 30⟩
abbrev F.POS_CFG_STRIDE : Field := ⟨.POS_CFG, 25, 24⟩
abbrev F.POS_CFG_PHASE : Field := ⟨.POS_CFG, 21, 20⟩
abbrev F.POS_CFG_STATE : Field := ⟨.POS_CFG, 19, 16⟩
abbrev F.POS_CFG_SLOT : Field := ⟨.POS_CFG, 7, 0⟩
abbrev F.GFP_POLY : Field := ⟨.GFP, 15, 0⟩
abbrev F.SLOT_CMD_PHASE : Field := ⟨.SLOT_CMD, 13, 12⟩
abbrev F.SLOT_CMD_STRIDE : Field := ⟨.SLOT_CMD, 9, 8⟩
abbrev F.SLOT_CMD_CMD : Field := ⟨.SLOT_CMD, 3, 0⟩
abbrev F.SLOT_STAT_BUSY : Field := ⟨.SLOT_STAT, 31, 31⟩
abbrev F.SLOT_STAT_SWEEP : Field := ⟨.SLOT_STAT, 30, 30⟩
abbrev F.SLOT_STAT_RESULT : Field := ⟨.SLOT_STAT, 27, 24⟩
abbrev F.SLOT_STAT_RCLUSTER : Field := ⟨.SLOT_STAT, 21, 16⟩
abbrev F.SLOT_STAT_STATE : Field := ⟨.SLOT_STAT, 3, 0⟩
abbrev F.SLOT_FOOT_MEMBERS : Field := ⟨.SLOT_FOOT, 63, 0⟩
abbrev F.SLOT_GEN_GEN : Field := ⟨.SLOT_GEN, 15, 0⟩
abbrev F.SLOT_OID_OID : Field := ⟨.SLOT_OID, 10, 0⟩
abbrev F.SLOT_FRAME_E : Field := ⟨.SLOT_FRAME, 47, 32⟩
abbrev F.SLOT_FRAME_P : Field := ⟨.SLOT_FRAME, 31, 16⟩
abbrev F.SLOT_FRAME_F : Field := ⟨.SLOT_FRAME, 15, 0⟩
abbrev F.SLOT_EXIT_VALID : Field := ⟨.SLOT_EXIT, 31, 31⟩
abbrev F.SLOT_EXIT_CLUSTER : Field := ⟨.SLOT_EXIT, 21, 16⟩
abbrev F.SLOT_EXIT_TILE : Field := ⟨.SLOT_EXIT, 13, 8⟩
abbrev F.SLOT_EXIT_CELL : Field := ⟨.SLOT_EXIT, 7, 4⟩
abbrev F.SLOT_EXIT_PRED : Field := ⟨.SLOT_EXIT, 1, 0⟩
abbrev F.SLOT_RUN_STATUS : Field := ⟨.SLOT_RUN, 31, 24⟩
abbrev F.SLOT_RUN_EXIT : Field := ⟨.SLOT_RUN, 23, 23⟩
abbrev F.SLOT_RUN_ROUNDS : Field := ⟨.SLOT_RUN, 15, 0⟩
abbrev F.SLOT_FRAMES_COUNT : Field := ⟨.SLOT_FRAMES, 31, 0⟩
abbrev F.VP_CFG_BOUND : Field := ⟨.VP_CFG, 63, 63⟩
abbrev F.VP_CFG_OUT : Field := ⟨.VP_CFG, 62, 62⟩
abbrev F.VP_CFG_POS : Field := ⟨.VP_CFG, 61, 60⟩
abbrev F.VP_CFG_TILE : Field := ⟨.VP_CFG, 53, 48⟩
abbrev F.VP_CFG_TP : Field := ⟨.VP_CFG, 40, 40⟩
abbrev F.VP_CFG_BRIDGE : Field := ⟨.VP_CFG, 33, 33⟩
abbrev F.VP_CFG_COUNT : Field := ⟨.VP_CFG, 9, 0⟩
abbrev F.LPB_BOUND : Field := ⟨.LPB, 63, 63⟩
abbrev F.LPB_OUT : Field := ⟨.LPB, 62, 62⟩
abbrev F.LPB_POS : Field := ⟨.LPB, 61, 60⟩
abbrev F.LPB_TILE : Field := ⟨.LPB, 53, 48⟩
abbrev F.LPB_TP : Field := ⟨.LPB, 40, 40⟩
abbrev F.LPB_BRIDGE : Field := ⟨.LPB, 33, 33⟩
abbrev F.LPB_COUNT : Field := ⟨.LPB, 9, 0⟩
abbrev F.BR_ID_QHI : Field := ⟨.BR_ID, 5, 4⟩
abbrev F.BR_ID_QLO : Field := ⟨.BR_ID, 3, 2⟩
abbrev F.BR_ID_ORIENT : Field := ⟨.BR_ID, 0, 0⟩
abbrev F.BR_STAT_IDCODE : Field := ⟨.BR_STAT, 23, 16⟩
abbrev F.BR_STAT_NSL1 : Field := ⟨.BR_STAT, 11, 10⟩
abbrev F.BR_STAT_NSL0 : Field := ⟨.BR_STAT, 9, 8⟩
abbrev F.BR_STAT_UP1 : Field := ⟨.BR_STAT, 1, 1⟩
abbrev F.BR_STAT_UP0 : Field := ⟨.BR_STAT, 0, 0⟩
abbrev F.REPAIR_CMD_DIR : Field := ⟨.REPAIR_CMD, 8, 8⟩
abbrev F.REPAIR_CMD_CMD : Field := ⟨.REPAIR_CMD, 1, 0⟩
abbrev F.REPAIR_STAT_BUSY : Field := ⟨.REPAIR_STAT, 31, 31⟩
abbrev F.REPAIR_STAT_RESULT : Field := ⟨.REPAIR_STAT, 27, 24⟩
abbrev F.REPAIR_STAT_DIR : Field := ⟨.REPAIR_STAT, 8, 8⟩
abbrev F.REPAIR_STAT_MOVED : Field := ⟨.REPAIR_STAT, 7, 0⟩
abbrev F.DIR_STAT_STATE : Field := ⟨.DIR_STAT, 31, 28⟩
abbrev F.DIR_STAT_SPARES : Field := ⟨.DIR_STAT, 20, 16⟩
abbrev F.DIR_STAT_LANES : Field := ⟨.DIR_STAT, 11, 8⟩
abbrev F.DIR_STAT_FLAGGED : Field := ⟨.DIR_STAT, 7, 0⟩
abbrev F.DIR_CFG_LANE_DIS : Field := ⟨.DIR_CFG, 27, 24⟩
abbrev F.DIR_CFG_RATE_WIN : Field := ⟨.DIR_CFG, 20, 16⟩
abbrev F.DIR_CFG_WIRE_TH : Field := ⟨.DIR_CFG, 15, 0⟩
abbrev F.FAULT_LOG_VALID : Field := ⟨.FAULT_LOG, 63, 63⟩
abbrev F.FAULT_LOG_OVF : Field := ⟨.FAULT_LOG, 62, 62⟩
abbrev F.FAULT_LOG_CAUSE : Field := ⟨.FAULT_LOG, 61, 59⟩
abbrev F.FAULT_LOG_SLOTV : Field := ⟨.FAULT_LOG, 58, 58⟩
abbrev F.FAULT_LOG_SLOT : Field := ⟨.FAULT_LOG, 55, 48⟩
abbrev F.FAULT_LOG_PORT : Field := ⟨.FAULT_LOG, 44, 40⟩
abbrev F.FAULT_LOG_BLOCK : Field := ⟨.FAULT_LOG, 31, 0⟩
abbrev F.SPARE_MAP_VALID : Field := ⟨.SPARE_MAP, 31, 31⟩
abbrev F.SPARE_MAP_BAD : Field := ⟨.SPARE_MAP, 30, 30⟩
abbrev F.SPARE_MAP_LWIRE : Field := ⟨.SPARE_MAP, 9, 0⟩
abbrev F.WIRE_ERR_ODD : Field := ⟨.WIRE_ERR, 31, 16⟩
abbrev F.WIRE_ERR_EVEN : Field := ⟨.WIRE_ERR, 15, 0⟩
abbrev F.NSL_STAT_STATE : Field := ⟨.NSL_STAT, 31, 28⟩
abbrev F.NSL_STAT_SPARES : Field := ⟨.NSL_STAT, 2, 0⟩
abbrev F.SEN_CTRL_EN : Field := ⟨.SEN_CTRL, 0, 0⟩
abbrev F.SEN_STAT_STATE : Field := ⟨.SEN_STAT, 31, 28⟩
abbrev F.SEN_STAT_LASTERR : Field := ⟨.SEN_STAT, 27, 24⟩
abbrev F.SEN_STAT_VALIDJ : Field := ⟨.SEN_STAT, 9, 8⟩
abbrev F.SEN_STAT_CUR : Field := ⟨.SEN_STAT, 0, 0⟩
abbrev F.SEN_FIFO_EOS : Field := ⟨.SEN_FIFO, 31, 31⟩
abbrev F.SEN_FIFO_LEVEL : Field := ⟨.SEN_FIFO, 9, 0⟩
abbrev F.SEN_ERRLOG_VALID : Field := ⟨.SEN_ERRLOG, 63, 63⟩
abbrev F.SEN_ERRLOG_OVF : Field := ⟨.SEN_ERRLOG, 62, 62⟩
abbrev F.SEN_ERRLOG_SLOTJ : Field := ⟨.SEN_ERRLOG, 61, 61⟩
abbrev F.SEN_ERRLOG_CODE : Field := ⟨.SEN_ERRLOG, 59, 56⟩
abbrev F.SEN_ERRLOG_ADDR : Field := ⟨.SEN_ERRLOG, 47, 0⟩
abbrev F.JATTR_VALID : Field := ⟨.JATTR, 31, 31⟩
abbrev F.JATTR_EOS : Field := ⟨.JATTR, 30, 30⟩
abbrev F.JATTR_RING : Field := ⟨.JATTR, 29, 29⟩
abbrev F.JATTR_NOALLOC : Field := ⟨.JATTR, 28, 28⟩
abbrev F.JATTR_FENCE : Field := ⟨.JATTR, 27, 27⟩
abbrev F.JATTR_KIND : Field := ⟨.JATTR, 26, 24⟩
abbrev F.JATTR_OID : Field := ⟨.JATTR, 21, 11⟩
abbrev F.JATTR_SGL : Field := ⟨.JATTR, 10, 10⟩
abbrev F.WIN_MOLT_BUSY : Field := ⟨.WIN_MOLT, 31, 31⟩
abbrev F.WIN_MOLT_PENDING : Field := ⟨.WIN_MOLT, 6, 0⟩
abbrev F.WIN_FAULT_LOG_VALID : Field := ⟨.WIN_FAULT_LOG, 63, 63⟩
abbrev F.WIN_FAULT_LOG_OVF : Field := ⟨.WIN_FAULT_LOG, 62, 62⟩
abbrev F.WIN_FAULT_LOG_WRITE : Field := ⟨.WIN_FAULT_LOG, 61, 61⟩
abbrev F.WIN_FAULT_LOG_MOLT : Field := ⟨.WIN_FAULT_LOG, 60, 60⟩
abbrev F.WIN_FAULT_LOG_MID : Field := ⟨.WIN_FAULT_LOG, 59, 48⟩
abbrev F.WIN_FAULT_LOG_OID : Field := ⟨.WIN_FAULT_LOG, 47, 37⟩
abbrev F.WIN_FAULT_LOG_INDEX : Field := ⟨.WIN_FAULT_LOG, 14, 0⟩
abbrev F.WIN_ENT_VALID : Field := ⟨.WIN_ENT, 31, 31⟩
abbrev F.WIN_ENT_MOLTING : Field := ⟨.WIN_ENT, 30, 30⟩
abbrev F.WIN_ENT_WPROT : Field := ⟨.WIN_ENT, 29, 29⟩
abbrev F.WIN_ENT_OID : Field := ⟨.WIN_ENT, 10, 0⟩
abbrev F.SCC_UE_LOG_VALID : Field := ⟨.SCC_UE_LOG, 63, 63⟩
abbrev F.SCC_UE_LOG_OVF : Field := ⟨.SCC_UE_LOG, 62, 62⟩
abbrev F.SCC_UE_LOG_ADDR : Field := ⟨.SCC_UE_LOG, 47, 0⟩
abbrev F.SCC_WAYS_MASK : Field := ⟨.SCC_WAYS, 15, 0⟩
abbrev F.HBM_STAT_TRAIN : Field := ⟨.HBM_STAT, 31, 30⟩
abbrev F.HBM_STAT_TEMP : Field := ⟨.HBM_STAT, 7, 0⟩
abbrev F.HBM_UE_LOG_VALID : Field := ⟨.HBM_UE_LOG, 63, 63⟩
abbrev F.HBM_UE_LOG_OVF : Field := ⟨.HBM_UE_LOG, 62, 62⟩
abbrev F.HBM_UE_LOG_ADDR : Field := ⟨.HBM_UE_LOG, 47, 0⟩
abbrev F.GRP_RATE_RATE : Field := ⟨.GRP_RATE, 9, 0⟩
abbrev F.NOC_ERR_LOG_VALID : Field := ⟨.NOC_ERR_LOG, 63, 63⟩
abbrev F.NOC_ERR_LOG_OVF : Field := ⟨.NOC_ERR_LOG, 62, 62⟩
abbrev F.NOC_ERR_LOG_RESP : Field := ⟨.NOC_ERR_LOG, 61, 60⟩
abbrev F.NOC_ERR_LOG_MID : Field := ⟨.NOC_ERR_LOG, 59, 48⟩
abbrev F.NOC_ERR_LOG_ADDR : Field := ⟨.NOC_ERR_LOG, 47, 0⟩
abbrev F.NOC_TRUNC_LOG_VALID : Field := ⟨.NOC_TRUNC_LOG, 63, 63⟩
abbrev F.NOC_TRUNC_LOG_OVF : Field := ⟨.NOC_TRUNC_LOG, 62, 62⟩
abbrev F.NOC_TRUNC_LOG_RESP : Field := ⟨.NOC_TRUNC_LOG, 61, 60⟩
abbrev F.NOC_TRUNC_LOG_MID : Field := ⟨.NOC_TRUNC_LOG, 59, 48⟩
abbrev F.NOC_TRUNC_LOG_ADDR : Field := ⟨.NOC_TRUNC_LOG, 47, 0⟩
abbrev F.NOC_WEIGHT_W : Field := ⟨.NOC_WEIGHT, 7, 0⟩
abbrev F.DSP_ID_QUARTER : Field := ⟨.DSP_ID, 1, 0⟩
abbrev F.DSP_CTRL_TRSTOP : Field := ⟨.DSP_CTRL, 2, 2⟩
abbrev F.DSP_CTRL_TREN : Field := ⟨.DSP_CTRL, 1, 1⟩
abbrev F.DSP_CTRL_EN : Field := ⟨.DSP_CTRL, 0, 0⟩
abbrev F.DSP_STAT_DELAYED : Field := ⟨.DSP_STAT, 29, 16⟩
abbrev F.DSP_STAT_READY : Field := ⟨.DSP_STAT, 14, 0⟩
abbrev F.DSP_TCB_BASE_BASE : Field := ⟨.DSP_TCB_BASE, 47, 12⟩
abbrev F.DSP_TCB_COUNT_COUNT : Field := ⟨.DSP_TCB_COUNT, 18, 0⟩
abbrev F.DSP_CMD_CMD : Field := ⟨.DSP_CMD, 63, 60⟩
abbrev F.DSP_CMD_TASK : Field := ⟨.DSP_CMD, 19, 0⟩
abbrev F.DSP_ERR_LOG_VALID : Field := ⟨.DSP_ERR_LOG, 63, 63⟩
abbrev F.DSP_ERR_LOG_OVF : Field := ⟨.DSP_ERR_LOG, 62, 62⟩
abbrev F.DSP_ERR_LOG_CMD : Field := ⟨.DSP_ERR_LOG, 55, 52⟩
abbrev F.DSP_ERR_LOG_REASON : Field := ⟨.DSP_ERR_LOG, 47, 40⟩
abbrev F.DSP_ERR_LOG_MID : Field := ⟨.DSP_ERR_LOG, 31, 20⟩
abbrev F.DSP_ERR_LOG_TASK : Field := ⟨.DSP_ERR_LOG, 19, 0⟩
abbrev F.DSP_RDY_STATUS_ABOVE : Field := ⟨.DSP_RDY_STATUS, 31, 31⟩
abbrev F.DSP_RDY_STATUS_UP_SEEN : Field := ⟨.DSP_RDY_STATUS, 30, 30⟩
abbrev F.DSP_RDY_STATUS_DOWN_SEEN : Field := ⟨.DSP_RDY_STATUS, 29, 29⟩
abbrev F.DSP_RDY_STATUS_COUNT : Field := ⟨.DSP_RDY_STATUS, 7, 0⟩
abbrev F.DSP_DLY_STATUS_ABOVE : Field := ⟨.DSP_DLY_STATUS, 31, 31⟩
abbrev F.DSP_DLY_STATUS_UP_SEEN : Field := ⟨.DSP_DLY_STATUS, 30, 30⟩
abbrev F.DSP_DLY_STATUS_DOWN_SEEN : Field := ⟨.DSP_DLY_STATUS, 29, 29⟩
abbrev F.DSP_DLY_STATUS_COUNT : Field := ⟨.DSP_DLY_STATUS, 7, 0⟩
abbrev F.DSP_TRACE_SIZE_SIZE : Field := ⟨.DSP_TRACE_SIZE, 4, 0⟩
abbrev F.DSP_LVL_CNT_COUNT : Field := ⟨.DSP_LVL_CNT, 14, 0⟩
abbrev F.DSP_REPL_EN_EN : Field := ⟨.DSP_REPL_EN, 7, 0⟩
abbrev F.DSP_SLOT_HELD : Field := ⟨.DSP_SLOT, 63, 63⟩
abbrev F.DSP_SLOT_ADMITTED : Field := ⟨.DSP_SLOT, 62, 62⟩
abbrev F.DSP_SLOT_TASK : Field := ⟨.DSP_SLOT, 19, 0⟩
abbrev F.DSP_CORE_BUSY : Field := ⟨.DSP_CORE, 63, 63⟩
abbrev F.DSP_CORE_PRIV : Field := ⟨.DSP_CORE, 62, 62⟩
abbrev F.DSP_CORE_BOUND : Field := ⟨.DSP_CORE, 53, 48⟩
abbrev F.DSP_CORE_BANK : Field := ⟨.DSP_CORE, 42, 40⟩
abbrev F.DSP_CORE_TASK : Field := ⟨.DSP_CORE, 19, 0⟩
abbrev F.CORE_ID_QUARTER : Field := ⟨.CORE_ID, 7, 6⟩
abbrev F.CORE_ID_CORE : Field := ⟨.CORE_ID, 5, 0⟩
abbrev F.CORE_CTRL_RESET : Field := ⟨.CORE_CTRL, 0, 0⟩
abbrev F.CORE_STAT_STATE : Field := ⟨.CORE_STAT, 31, 28⟩
abbrev F.CORE_STAT_MANAGED : Field := ⟨.CORE_STAT, 27, 27⟩
abbrev F.CORE_STAT_CUR : Field := ⟨.CORE_STAT, 26, 24⟩
abbrev F.CORE_STAT_LEVEL : Field := ⟨.CORE_STAT, 21, 20⟩
abbrev F.CORE_STAT_TASK : Field := ⟨.CORE_STAT, 19, 0⟩
abbrev F.CORE_WEDGE_LOG_VALID : Field := ⟨.CORE_WEDGE_LOG, 63, 63⟩
abbrev F.CORE_WEDGE_LOG_MCAUSE : Field := ⟨.CORE_WEDGE_LOG, 62, 57⟩
abbrev F.CORE_WEDGE_LOG_XCAUSE : Field := ⟨.CORE_WEDGE_LOG, 56, 49⟩
abbrev F.CORE_WEDGE_LOG_PC : Field := ⟨.CORE_WEDGE_LOG, 48, 0⟩
abbrev F.BNK_OWNER_WMODE : Field := ⟨.BNK_OWNER, 17, 17⟩
abbrev F.BNK_OWNER_KEEP : Field := ⟨.BNK_OWNER, 16, 16⟩
abbrev F.BNK_OWNER_MID : Field := ⟨.BNK_OWNER, 11, 0⟩
abbrev F.BNK_STAT_POISON : Field := ⟨.BNK_STAT, 1, 1⟩
abbrev F.BNK_STAT_MOLTING : Field := ⟨.BNK_STAT, 0, 0⟩
abbrev F.BNK_FLAGS_NOC_LOST : Field := ⟨.BNK_FLAGS, 0, 0⟩
abbrev F.BNK_CE_STATUS_ABOVE : Field := ⟨.BNK_CE_STATUS, 31, 31⟩
abbrev F.BNK_CE_STATUS_UP_SEEN : Field := ⟨.BNK_CE_STATUS, 30, 30⟩
abbrev F.BNK_CE_STATUS_DOWN_SEEN : Field := ⟨.BNK_CE_STATUS, 29, 29⟩
abbrev F.BNK_CE_STATUS_COUNT : Field := ⟨.BNK_CE_STATUS, 7, 0⟩
abbrev F.BNK_UE_LOG_VALID : Field := ⟨.BNK_UE_LOG, 63, 63⟩
abbrev F.BNK_UE_LOG_OVF : Field := ⟨.BNK_UE_LOG, 62, 62⟩
abbrev F.BNK_UE_LOG_SRC : Field := ⟨.BNK_UE_LOG, 61, 61⟩
abbrev F.BNK_UE_LOG_SUB : Field := ⟨.BNK_UE_LOG, 26, 24⟩
abbrev F.BNK_UE_LOG_WORD : Field := ⟨.BNK_UE_LOG, 23, 8⟩
abbrev F.BNK_UE_LOG_SYNDROME : Field := ⟨.BNK_UE_LOG, 7, 0⟩
abbrev F.EVT_CTRL_LOGSTOP : Field := ⟨.EVT_CTRL, 5, 5⟩
abbrev F.EVT_CTRL_LOGCLASS : Field := ⟨.EVT_CTRL, 4, 1⟩
abbrev F.EVT_CTRL_LOGEN : Field := ⟨.EVT_CTRL, 0, 0⟩
abbrev F.EVT_CLAIM_VALID : Field := ⟨.EVT_CLAIM, 31, 31⟩
abbrev F.EVT_CLAIM_CLASS : Field := ⟨.EVT_CLAIM, 30, 27⟩
abbrev F.EVT_CLAIM_SOURCE : Field := ⟨.EVT_CLAIM, 12, 0⟩
abbrev F.EVT_TMR_CTRL_PERIODIC : Field := ⟨.EVT_TMR_CTRL, 1, 1⟩
abbrev F.EVT_TMR_CTRL_EN : Field := ⟨.EVT_TMR_CTRL, 0, 0⟩
abbrev F.EVT_ROUTE_MODE : Field := ⟨.EVT_ROUTE, 63, 62⟩
abbrev F.EVT_ROUTE_CLASS : Field := ⟨.EVT_ROUTE, 61, 58⟩
abbrev F.EVT_ROUTE_MASK : Field := ⟨.EVT_ROUTE, 57, 57⟩
abbrev F.EVT_ROUTE_OID : Field := ⟨.EVT_ROUTE, 42, 32⟩
abbrev F.EVT_ROUTE_TARGET : Field := ⟨.EVT_ROUTE, 31, 0⟩
abbrev F.MBX_LOCK_LOCKED : Field := ⟨.MBX_LOCK, 63, 63⟩
abbrev F.MBX_LOCK_COMPAT : Field := ⟨.MBX_LOCK, 62, 62⟩
abbrev F.MBX_LOCK_RECV : Field := ⟨.MBX_LOCK, 59, 48⟩
abbrev F.MBX_LOCK_SEND : Field := ⟨.MBX_LOCK, 11, 0⟩
abbrev F.MBX_STAT_RESULT : Field := ⟨.MBX_STAT, 31, 28⟩
abbrev F.MBX_STAT_FULL : Field := ⟨.MBX_STAT, 8, 8⟩
abbrev F.MBX_STAT_LEVEL : Field := ⟨.MBX_STAT, 3, 0⟩
abbrev F.MBX_HLOCK_LOCKED : Field := ⟨.MBX_HLOCK, 63, 63⟩
abbrev F.MBX_HLOCK_COMPAT : Field := ⟨.MBX_HLOCK, 62, 62⟩
abbrev F.MBX_HLOCK_RECV : Field := ⟨.MBX_HLOCK, 59, 48⟩
abbrev F.MBX_HLOCK_SEND : Field := ⟨.MBX_HLOCK, 11, 0⟩
abbrev F.FN_ID_VF : Field := ⟨.FN_ID, 31, 31⟩
abbrev F.FN_ID_LINK : Field := ⟨.FN_ID, 28, 24⟩
abbrev F.FN_ID_VFNUM : Field := ⟨.FN_ID, 20, 12⟩
abbrev F.FN_ID_OID : Field := ⟨.FN_ID, 10, 0⟩
abbrev F.FN_STAT_READY : Field := ⟨.FN_STAT, 31, 31⟩
abbrev F.FN_STAT_BME : Field := ⟨.FN_STAT, 30, 30⟩
abbrev F.FN_STAT_MSIXEN : Field := ⟨.FN_STAT, 29, 29⟩
abbrev F.FN_STAT_DSTATE : Field := ⟨.FN_STAT, 28, 27⟩
abbrev F.FN_STAT_INRESET : Field := ⟨.FN_STAT, 26, 26⟩
abbrev F.HIF_ID_PORT : Field := ⟨.HIF_ID, 5, 2⟩
abbrev F.HIF_ID_QUARTER : Field := ⟨.HIF_ID, 1, 0⟩
abbrev F.HIF_STAT_READY : Field := ⟨.HIF_STAT, 15, 8⟩
abbrev F.HIF_STAT_UP : Field := ⟨.HIF_STAT, 7, 0⟩
abbrev F.HIF_PCFG_BIF : Field := ⟨.HIF_PCFG, 1, 0⟩
abbrev F.HIF_LCTRL_EN : Field := ⟨.HIF_LCTRL, 0, 0⟩
abbrev F.HIF_LSTAT_STATE : Field := ⟨.HIF_LSTAT, 31, 28⟩
abbrev F.HIF_LSTAT_CFGERR : Field := ⟨.HIF_LSTAT, 27, 24⟩
abbrev F.HIF_LSTAT_SPEED : Field := ⟨.HIF_LSTAT, 23, 20⟩
abbrev F.HIF_LSTAT_WIDTH : Field := ⟨.HIF_LSTAT, 19, 15⟩
abbrev F.HIF_LSTAT_FLIT : Field := ⟨.HIF_LSTAT, 14, 14⟩
abbrev F.HIF_LSTAT_TXW : Field := ⟨.HIF_LSTAT, 13, 9⟩
abbrev F.HIF_LSTAT_READY : Field := ⟨.HIF_LSTAT, 8, 8⟩
abbrev F.HIF_LCFG_MAXSPEED : Field := ⟨.HIF_LCFG, 31, 28⟩
abbrev F.HIF_LCFG_DBQ : Field := ⟨.HIF_LCFG, 23, 20⟩
abbrev F.HIF_LCFG_PF_VECS : Field := ⟨.HIF_LCFG, 9, 0⟩
abbrev F.HIF_VFCFG_VF_DBQ : Field := ⟨.HIF_VFCFG, 31, 28⟩
abbrev F.HIF_VFCFG_VF_VECS : Field := ⟨.HIF_VFCFG, 19, 10⟩
abbrev F.HIF_VFCFG_TOTALVFS : Field := ⟨.HIF_VFCFG, 8, 0⟩
abbrev F.HIF_VFBASE_VFBASE : Field := ⟨.HIF_VFBASE, 10, 0⟩
abbrev F.HIF_IDCFG_SSID : Field := ⟨.HIF_IDCFG, 31, 16⟩
abbrev F.HIF_IDCFG_SSVID : Field := ⟨.HIF_IDCFG, 15, 0⟩
abbrev F.HIF_LLOG_VALID : Field := ⟨.HIF_LLOG, 63, 63⟩
abbrev F.HIF_LLOG_OVF : Field := ⟨.HIF_LLOG, 62, 62⟩
abbrev F.HIF_LLOG_STATE : Field := ⟨.HIF_LLOG, 61, 58⟩
abbrev F.HIF_LLOG_TICK : Field := ⟨.HIF_LLOG, 31, 0⟩
abbrev F.SQ_TAIL_TAIL : Field := ⟨.SQ_TAIL, 15, 0⟩
abbrev F.CQ_HEAD_HEAD : Field := ⟨.CQ_HEAD, 15, 0⟩
abbrev F.QP_CTRL_EN : Field := ⟨.QP_CTRL, 0, 0⟩
abbrev F.QP_STAT_STATE : Field := ⟨.QP_STAT, 31, 30⟩
abbrev F.QP_STAT_QUENCHED : Field := ⟨.QP_STAT, 29, 29⟩
abbrev F.QP_STAT_FETCHERR : Field := ⟨.QP_STAT, 28, 28⟩
abbrev F.QP_STAT_DBERR : Field := ⟨.QP_STAT, 27, 27⟩
abbrev F.QP_STAT_INRESET : Field := ⟨.QP_STAT, 26, 26⟩
abbrev F.QP_STAT_PHASE : Field := ⟨.QP_STAT, 25, 25⟩
abbrev F.QP_STAT_INFL : Field := ⟨.QP_STAT, 16, 0⟩
abbrev F.SQ_BASE_BASE : Field := ⟨.SQ_BASE, 63, 12⟩
abbrev F.CQ_BASE_BASE : Field := ⟨.CQ_BASE, 63, 12⟩
abbrev F.QP_SIZE_CQLOG : Field := ⟨.QP_SIZE, 12, 8⟩
abbrev F.QP_SIZE_SQLOG : Field := ⟨.QP_SIZE, 4, 0⟩
abbrev F.QP_INTR_IEN : Field := ⟨.QP_INTR, 31, 31⟩
abbrev F.QP_INTR_VEC : Field := ⟨.QP_INTR, 24, 16⟩
abbrev F.QP_INTR_CCOUNT : Field := ⟨.QP_INTR, 7, 0⟩
abbrev F.QP_ITIME_ITIME : Field := ⟨.QP_ITIME, 15, 0⟩
abbrev F.SQ_HEAD_HEAD : Field := ⟨.SQ_HEAD, 15, 0⟩
abbrev F.CQ_TAIL_TAIL : Field := ⟨.CQ_TAIL, 15, 0⟩
abbrev F.QP_INFO_LEVEL : Field := ⟨.QP_INFO, 28, 24⟩
abbrev F.QP_INFO_MAXLOG : Field := ⟨.QP_INFO, 20, 16⟩
abbrev F.QP_INFO_QP : Field := ⟨.QP_INFO, 11, 0⟩
abbrev F.QE_STAT_RECORDS : Field := ⟨.QE_STAT, 12, 0⟩
abbrev F.QE_ENT_BASE_BASE : Field := ⟨.QE_ENT_BASE, 47, 11⟩
abbrev F.QE_TCB_FIRST_FIRST : Field := ⟨.QE_TCB_FIRST, 17, 0⟩
abbrev F.QE_FW_BASE_BASE : Field := ⟨.QE_FW_BASE, 47, 11⟩
abbrev F.QE_FWDONE_TOKEN : Field := ⟨.QE_FWDONE, 63, 48⟩
abbrev F.QE_FWDONE_STATUS : Field := ⟨.QE_FWDONE, 47, 40⟩
abbrev F.QE_FWDONE_RESULT : Field := ⟨.QE_FWDONE, 31, 0⟩
abbrev F.QE_ERR_LOG_VALID : Field := ⟨.QE_ERR_LOG, 63, 63⟩
abbrev F.QE_ERR_LOG_OVF : Field := ⟨.QE_ERR_LOG, 62, 62⟩
abbrev F.QE_ERR_LOG_KIND : Field := ⟨.QE_ERR_LOG, 61, 58⟩
abbrev F.QE_ERR_LOG_QP : Field := ⟨.QE_ERR_LOG, 43, 32⟩
abbrev F.QE_ERR_LOG_TICK : Field := ⟨.QE_ERR_LOG, 31, 0⟩
abbrev F.QE_TONGUE_CMD_CMD : Field := ⟨.QE_TONGUE_CMD, 31, 28⟩
abbrev F.QE_TONGUE_STAT_BUSY : Field := ⟨.QE_TONGUE_STAT, 31, 31⟩
abbrev F.QE_TONGUE_STAT_OVF : Field := ⟨.QE_TONGUE_STAT, 30, 30⟩
abbrev F.QE_TONGUE_STAT_PENDING : Field := ⟨.QE_TONGUE_STAT, 27, 24⟩
abbrev F.QE_TONGUE_STAT_DONE : Field := ⟨.QE_TONGUE_STAT, 23, 16⟩
abbrev F.QE_TONGUE_STAT_ACCEPTED : Field := ⟨.QE_TONGUE_STAT, 15, 8⟩
abbrev F.QE_TONGUE_STAT_RESULT : Field := ⟨.QE_TONGUE_STAT, 7, 0⟩
abbrev F.QE_THREAD_PC_PC : Field := ⟨.QE_THREAD_PC, 63, 1⟩
abbrev F.QE_TAREA_BASE_BASE : Field := ⟨.QE_TAREA_BASE, 47, 12⟩
abbrev F.QP_OWN_VALID : Field := ⟨.QP_OWN, 63, 63⟩
abbrev F.QP_OWN_ADMIN : Field := ⟨.QP_OWN, 62, 62⟩
abbrev F.QP_OWN_OID : Field := ⟨.QP_OWN, 58, 48⟩
abbrev F.QP_OWN_N : Field := ⟨.QP_OWN, 43, 32⟩
abbrev F.QP_OWN_LEVEL : Field := ⟨.QP_OWN, 28, 24⟩
abbrev F.QP_OWN_MAXLOG : Field := ⟨.QP_OWN, 20, 16⟩
abbrev F.QP_WM_STATUS_ABOVE : Field := ⟨.QP_WM_STATUS, 31, 31⟩
abbrev F.QP_WM_STATUS_UP_SEEN : Field := ⟨.QP_WM_STATUS, 30, 30⟩
abbrev F.QP_WM_STATUS_DOWN_SEEN : Field := ⟨.QP_WM_STATUS, 29, 29⟩
abbrev F.QP_WM_STATUS_COUNT : Field := ⟨.QP_WM_STATUS, 7, 0⟩
abbrev F.MSQ_CHCFG_EN : Field := ⟨.MSQ_CHCFG, 31, 31⟩
abbrev F.MSQ_CHCFG_RBMODE : Field := ⟨.MSQ_CHCFG, 30, 29⟩
abbrev F.MSQ_CHCFG_MAXOPS : Field := ⟨.MSQ_CHCFG, 28, 24⟩
abbrev F.MSQ_CHCFG_BLKBITS : Field := ⟨.MSQ_CHCFG, 23, 19⟩
abbrev F.MSQ_CHCFG_PGBITS : Field := ⟨.MSQ_CHCFG, 18, 15⟩
abbrev F.MSQ_CHCFG_ROWCYC : Field := ⟨.MSQ_CHCFG, 14, 12⟩
abbrev F.MSQ_CHCFG_COLCYC : Field := ⟨.MSQ_CHCFG, 11, 10⟩
abbrev F.MSQ_CHCTRL_WPN : Field := ⟨.MSQ_CHCTRL, 1, 1⟩
abbrev F.MSQ_CHCTRL_STOP : Field := ⟨.MSQ_CHCTRL, 0, 0⟩
abbrev F.MSQ_POST_COUNT : Field := ⟨.MSQ_POST, 63, 52⟩
abbrev F.MSQ_POST_ADDR : Field := ⟨.MSQ_POST, 47, 4⟩
abbrev F.MSQ_CHSTAT_STATE : Field := ⟨.MSQ_CHSTAT, 31, 28⟩
abbrev F.MSQ_CHSTAT_CTXRUN : Field := ⟨.MSQ_CHSTAT, 27, 24⟩
abbrev F.MSQ_CHSTAT_QLEVEL : Field := ⟨.MSQ_CHSTAT, 13, 8⟩
abbrev F.MSQ_CHSTAT_OPEN : Field := ⟨.MSQ_CHSTAT, 5, 0⟩
abbrev F.MSQ_CHLOG_VALID : Field := ⟨.MSQ_CHLOG, 63, 63⟩
abbrev F.MSQ_CHLOG_OVF : Field := ⟨.MSQ_CHLOG, 62, 62⟩
abbrev F.MSQ_CHLOG_STATUS : Field := ⟨.MSQ_CHLOG, 55, 48⟩
abbrev F.MSQ_CHLOG_STEP : Field := ⟨.MSQ_CHLOG, 47, 40⟩
abbrev F.MSQ_CHLOG_TAG : Field := ⟨.MSQ_CHLOG, 31, 0⟩
abbrev F.MSQ_LUNOP_OPEN : Field := ⟨.MSQ_LUNOP, 63, 63⟩
abbrev F.MSQ_LUNOP_CONF : Field := ⟨.MSQ_LUNOP, 62, 62⟩
abbrev F.MSQ_LUNOP_SUSP : Field := ⟨.MSQ_LUNOP, 61, 61⟩
abbrev F.MSQ_LUNOP_TYPE : Field := ⟨.MSQ_LUNOP, 60, 59⟩
abbrev F.MSQ_LUNOP_NPL1 : Field := ⟨.MSQ_LUNOP, 58, 57⟩
abbrev F.MSQ_LUNOP_ROW : Field := ⟨.MSQ_LUNOP, 55, 32⟩
abbrev F.MSQ_LUNOP_START : Field := ⟨.MSQ_LUNOP, 31, 0⟩
abbrev F.MSQ_RBASE_BASE : Field := ⟨.MSQ_RBASE, 47, 12⟩
abbrev F.MSQ_RSIZE_RSIZE : Field := ⟨.MSQ_RSIZE, 4, 0⟩
abbrev F.MSQ_RWP_PH : Field := ⟨.MSQ_RWP, 16, 16⟩
abbrev F.MSQ_RWP_WP : Field := ⟨.MSQ_RWP, 15, 0⟩
abbrev F.MSQ_RRP_RP : Field := ⟨.MSQ_RRP, 15, 0⟩
abbrev F.MSQ_RWM_STATUS_ABOVE : Field := ⟨.MSQ_RWM_STATUS, 31, 31⟩
abbrev F.MSQ_RWM_STATUS_UP_SEEN : Field := ⟨.MSQ_RWM_STATUS, 30, 30⟩
abbrev F.MSQ_RWM_STATUS_DOWN_SEEN : Field := ⟨.MSQ_RWM_STATUS, 29, 29⟩
abbrev F.MSQ_RWM_STATUS_COUNT : Field := ⟨.MSQ_RWM_STATUS, 7, 0⟩
abbrev F.MSQ_CONF_EC1 : Field := ⟨.MSQ_CONF, 31, 24⟩
abbrev F.MSQ_CONF_EC0 : Field := ⟨.MSQ_CONF, 23, 16⟩
abbrev F.MSQ_CONF_PC1 : Field := ⟨.MSQ_CONF, 15, 8⟩
abbrev F.MSQ_CONF_PC0 : Field := ⟨.MSQ_CONF, 7, 0⟩
abbrev F.MSQ_PROBECFG_PROBE_T1 : Field := ⟨.MSQ_PROBECFG, 31, 16⟩
abbrev F.MSQ_PROBECFG_PROBE_T0 : Field := ⟨.MSQ_PROBECFG, 15, 0⟩
abbrev F.MSQ_PROBELEN_LEN : Field := ⟨.MSQ_PROBELEN, 17, 0⟩
abbrev F.MSQ_WMPEND_GROUP : Field := ⟨.MSQ_WMPEND, 15, 0⟩
abbrev F.MSQ_PFSTAT_LATCH : Field := ⟨.MSQ_PFSTAT, 31, 31⟩
abbrev F.MSQ_PFSTAT_PIN : Field := ⟨.MSQ_PFSTAT, 30, 30⟩
abbrev F.MSQ_PFSTAT_DUMP : Field := ⟨.MSQ_PFSTAT, 29, 28⟩
abbrev F.MSQ_PFSTAT_ARMED : Field := ⟨.MSQ_PFSTAT, 27, 27⟩
abbrev F.MSQ_PFSTAT_HALF : Field := ⟨.MSQ_PFSTAT, 26, 26⟩
abbrev F.MSQ_PFSTAT_COUNT : Field := ⟨.MSQ_PFSTAT, 11, 0⟩
abbrev F.MSQ_PFCLR_CLR : Field := ⟨.MSQ_PFCLR, 0, 0⟩
abbrev F.MSQ_OPDARM_HALF : Field := ⟨.MSQ_OPDARM, 1, 1⟩
abbrev F.MSQ_OPDARM_ARM : Field := ⟨.MSQ_OPDARM, 0, 0⟩
abbrev F.MSQ_OPCAP_CAP : Field := ⟨.MSQ_OPCAP, 11, 0⟩
abbrev F.MSQ_OPUSE_WAIT : Field := ⟨.MSQ_OPUSE, 27, 16⟩
abbrev F.MSQ_OPUSE_USE : Field := ⟨.MSQ_OPUSE, 11, 0⟩
abbrev F.NPH_CFG_ODT : Field := ⟨.NPH_CFG, 10, 8⟩
abbrev F.NPH_CFG_DRV : Field := ⟨.NPH_CFG, 6, 4⟩
abbrev F.NPH_CFG_MODE : Field := ⟨.NPH_CFG, 1, 0⟩
abbrev F.NPH_STAT_TRAINED : Field := ⟨.NPH_STAT, 1, 1⟩
abbrev F.NPH_STAT_LPDDR4 : Field := ⟨.NPH_STAT, 0, 0⟩
abbrev F.NPH_TRAIN_START : Field := ⟨.NPH_TRAIN, 4, 4⟩
abbrev F.NPH_TRAIN_CE : Field := ⟨.NPH_TRAIN, 1, 0⟩
abbrev F.NPH_TSTAT_RESULT : Field := ⟨.NPH_TSTAT, 31, 30⟩
abbrev F.NPH_TSTAT_RMARGIN : Field := ⟨.NPH_TSTAT, 15, 8⟩
abbrev F.NPH_TSTAT_WMARGIN : Field := ⟨.NPH_TSTAT, 7, 0⟩
abbrev F.TET_LCTRL_RETRAIN : Field := ⟨.TET_LCTRL, 1, 1⟩
abbrev F.TET_LCTRL_EN : Field := ⟨.TET_LCTRL, 0, 0⟩
abbrev F.TET_LCFG_PRECODE_RX : Field := ⟨.TET_LCFG, 6, 6⟩
abbrev F.TET_LCFG_PRECODE_TX : Field := ⟨.TET_LCFG, 5, 5⟩
abbrev F.TET_LCFG_HALF : Field := ⟨.TET_LCFG, 4, 4⟩
abbrev F.TET_LCFG_TXPRESET : Field := ⟨.TET_LCFG, 2, 0⟩
abbrev F.TET_LSTAT_STATE : Field := ⟨.TET_LSTAT, 31, 28⟩
abbrev F.TET_LSTAT_CAUSE : Field := ⟨.TET_LSTAT, 27, 24⟩
abbrev F.TET_LSTAT_NCHAN : Field := ⟨.TET_LSTAT, 23, 20⟩
abbrev F.TET_LSTAT_HALF : Field := ⟨.TET_LSTAT, 19, 19⟩
abbrev F.TET_LSTAT_NEWID : Field := ⟨.TET_LSTAT, 18, 18⟩
abbrev F.TET_LSTAT_FAILS : Field := ⟨.TET_LSTAT, 7, 0⟩
abbrev F.TET_BACKOFF_MAXEXP : Field := ⟨.TET_BACKOFF, 19, 16⟩
abbrev F.TET_BACKOFF_BASE : Field := ⟨.TET_BACKOFF, 15, 0⟩
abbrev F.TET_BRINFO_VMAJ : Field := ⟨.TET_BRINFO, 31, 24⟩
abbrev F.TET_BRINFO_VMIN : Field := ⟨.TET_BRINFO, 23, 16⟩
abbrev F.TET_BRINFO_CAPS : Field := ⟨.TET_BRINFO, 15, 8⟩
abbrev F.TET_BRINFO_NCHAN : Field := ⟨.TET_BRINFO, 3, 0⟩
abbrev F.TET_EYE_TTEMP : Field := ⟨.TET_EYE, 23, 16⟩
abbrev F.TET_EYE_HMARGIN : Field := ⟨.TET_EYE, 15, 8⟩
abbrev F.TET_EYE_VMARGIN : Field := ⟨.TET_EYE, 7, 0⟩
abbrev F.TET_NAK_CNT_RX : Field := ⟨.TET_NAK_CNT, 31, 16⟩
abbrev F.TET_NAK_CNT_TX : Field := ⟨.TET_NAK_CNT, 15, 0⟩
abbrev F.TET_LINKTO_MGMT_TO : Field := ⟨.TET_LINKTO, 31, 24⟩
abbrev F.TET_LINKTO_REPLAY_MAX : Field := ⟨.TET_LINKTO, 19, 16⟩
abbrev F.TET_LINKTO_REPLAY_TO : Field := ⟨.TET_LINKTO, 7, 0⟩
abbrev F.TET_LLOG_VALID : Field := ⟨.TET_LLOG, 63, 63⟩
abbrev F.TET_LLOG_OVF : Field := ⟨.TET_LLOG, 62, 62⟩
abbrev F.TET_LLOG_STATE : Field := ⟨.TET_LLOG, 59, 56⟩
abbrev F.TET_LLOG_CAUSE : Field := ⟨.TET_LLOG, 55, 52⟩
abbrev F.TET_LLOG_TICK : Field := ⟨.TET_LLOG, 31, 0⟩
abbrev F.TET_MCMD_GO : Field := ⟨.TET_MCMD, 31, 31⟩
abbrev F.TET_MCMD_LEN : Field := ⟨.TET_MCMD, 10, 0⟩
abbrev F.TET_MSTAT_BUSY : Field := ⟨.TET_MSTAT, 31, 31⟩
abbrev F.TET_MSTAT_RLEN : Field := ⟨.TET_MSTAT, 26, 16⟩
abbrev F.TET_MSTAT_RESULT : Field := ⟨.TET_MSTAT, 3, 0⟩
abbrev F.TET_CHINFO_PRESENT : Field := ⟨.TET_CHINFO, 63, 63⟩
abbrev F.TET_CHINFO_NCE : Field := ⟨.TET_CHINFO, 59, 56⟩
abbrev F.TET_CHINFO_MAXRATE : Field := ⟨.TET_CHINFO, 52, 48⟩
abbrev F.TET_CHINFO_AVAIL0 : Field := ⟨.TET_CHINFO, 47, 40⟩
abbrev F.TET_CHINFO_AVAIL1 : Field := ⟨.TET_CHINFO, 39, 32⟩
abbrev F.TET_CHINFO_GRANT0 : Field := ⟨.TET_CHINFO, 31, 24⟩
abbrev F.TET_CHINFO_GRANT1 : Field := ⟨.TET_CHINFO, 23, 16⟩
abbrev F.TET_RXCRED_CRED1 : Field := ⟨.TET_RXCRED, 15, 8⟩
abbrev F.TET_RXCRED_CRED0 : Field := ⟨.TET_RXCRED, 7, 0⟩
abbrev F.CAL_CTRL_WALKEN : Field := ⟨.CAL_CTRL, 1, 1⟩
abbrev F.CAL_CTRL_EN : Field := ⟨.CAL_CTRL, 0, 0⟩
abbrev F.CAL_STAT_WALKING : Field := ⟨.CAL_STAT, 31, 31⟩
abbrev F.CAL_STAT_FLUSHING : Field := ⟨.CAL_STAT, 30, 30⟩
abbrev F.CAL_STAT_DIRTY : Field := ⟨.CAL_STAT, 12, 0⟩
abbrev F.CAL_TBASE_BASE : Field := ⟨.CAL_TBASE, 47, 12⟩
abbrev F.CAL_SWBASE_BASE : Field := ⟨.CAL_SWBASE, 47, 12⟩
abbrev F.CAL_SWSIZE_SIZE : Field := ⟨.CAL_SWSIZE, 4, 0⟩
abbrev F.CAL_SWWP_INDEX : Field := ⟨.CAL_SWWP, 15, 0⟩
abbrev F.CAL_SWRP_INDEX : Field := ⟨.CAL_SWRP, 15, 0⟩
abbrev F.CAL_ECMD_CMD : Field := ⟨.CAL_ECMD, 63, 60⟩
abbrev F.CAL_ECMD_STAMP : Field := ⟨.CAL_ECMD, 56, 56⟩
abbrev F.CAL_ECMD_ENTRY : Field := ⟨.CAL_ECMD, 18, 0⟩
abbrev F.CAL_ESTAT_BUSY : Field := ⟨.CAL_ESTAT, 31, 31⟩
abbrev F.CAL_ESTAT_RESULT : Field := ⟨.CAL_ESTAT, 3, 0⟩
abbrev F.CAL_RTCFG_TDELTA : Field := ⟨.CAL_RTCFG, 31, 24⟩
abbrev F.CAL_RTCFG_HMIN : Field := ⟨.CAL_RTCFG, 15, 8⟩
abbrev F.CAL_RTCFG_VMIN : Field := ⟨.CAL_RTCFG, 7, 0⟩
abbrev F.CAL_RTDUE_HOST : Field := ⟨.CAL_RTDUE, 23, 16⟩
abbrev F.CAL_RTDUE_TETHER : Field := ⟨.CAL_RTDUE, 15, 0⟩
abbrev F.CAL_FRBASE_BASE : Field := ⟨.CAL_FRBASE, 47, 12⟩
abbrev F.CAL_FRSIZE_SIZE : Field := ⟨.CAL_FRSIZE, 4, 0⟩
abbrev F.CAL_FRRP_INDEX : Field := ⟨.CAL_FRRP, 15, 0⟩
abbrev F.CAL_FRSEQ_SEQ : Field := ⟨.CAL_FRSEQ, 31, 0⟩
abbrev F.CAL_CHCFG_TVALID : Field := ⟨.CAL_CHCFG, 31, 31⟩
abbrev F.CAL_CHCFG_PROFILE : Field := ⟨.CAL_CHCFG, 19, 16⟩
abbrev F.CAL_CHCFG_TEMP : Field := ⟨.CAL_CHCFG, 7, 0⟩
abbrev F.CAL_HLINK_TTEMP : Field := ⟨.CAL_HLINK, 23, 16⟩
abbrev F.CAL_HLINK_HMARGIN : Field := ⟨.CAL_HLINK, 15, 8⟩
abbrev F.CAL_HLINK_VMARGIN : Field := ⟨.CAL_HLINK, 7, 0⟩
abbrev F.CAL_PCFG_TSTALE : Field := ⟨.CAL_PCFG, 31, 24⟩
abbrev F.CAL_PCFG_G : Field := ⟨.CAL_PCFG, 19, 16⟩
abbrev F.CAL_PCFG_POL : Field := ⟨.CAL_PCFG, 15, 1⟩
abbrev F.CAL_PASTALE_ASTALE : Field := ⟨.CAL_PASTALE, 30, 0⟩
abbrev F.CAL_PMASK_MASK1 : Field := ⟨.CAL_PMASK, 31, 16⟩
abbrev F.CAL_PMASK_MASK0 : Field := ⟨.CAL_PMASK, 15, 0⟩
abbrev F.FLS_CTRL_WEN : Field := ⟨.FLS_CTRL, 0, 0⟩
abbrev F.FLS_STAT_BUSY : Field := ⟨.FLS_STAT, 31, 31⟩
abbrev F.FLS_STAT_BLANK : Field := ⟨.FLS_STAT, 30, 30⟩
abbrev F.FLS_STAT_RESULT : Field := ⟨.FLS_STAT, 27, 24⟩
abbrev F.FLS_ADDR_WORD : Field := ⟨.FLS_ADDR, 17, 0⟩
abbrev F.FLS_CMD_CMD : Field := ⟨.FLS_CMD, 3, 0⟩
abbrev F.FLS_UE_LOG_VALID : Field := ⟨.FLS_UE_LOG, 63, 63⟩
abbrev F.FLS_UE_LOG_OVF : Field := ⟨.FLS_UE_LOG, 62, 62⟩
abbrev F.FLS_UE_LOG_WORD : Field := ⟨.FLS_UE_LOG, 17, 0⟩
abbrev F.AO_STATUS_CONF : Field := ⟨.AO_STATUS, 31, 30⟩
abbrev F.AO_STATUS_STBY_OK : Field := ⟨.AO_STATUS, 29, 29⟩
abbrev F.AO_STATUS_FAILED_OVER : Field := ⟨.AO_STATUS, 28, 28⟩
abbrev F.AO_STATUS_LIVE : Field := ⟨.AO_STATUS, 27, 26⟩
abbrev F.AO_STATUS_SOURCE : Field := ⟨.AO_STATUS, 25, 24⟩
abbrev F.AO_STATUS_CODE : Field := ⟨.AO_STATUS, 23, 16⟩
abbrev F.AO_STATUS_SLOT : Field := ⟨.AO_STATUS, 15, 15⟩
abbrev F.AO_STATUS_TRIAL : Field := ⟨.AO_STATUS, 14, 14⟩
abbrev F.CLK_ID_QUARTER : Field := ⟨.CLK_ID, 1, 0⟩
abbrev F.CLK_STAT_LOCK : Field := ⟨.CLK_STAT, 31, 31⟩
abbrev F.CLK_STAT_ALIGNED : Field := ⟨.CLK_STAT, 30, 30⟩
abbrev F.CLK_STAT_GRADE : Field := ⟨.CLK_STAT, 29, 29⟩
abbrev F.RST_QCTL_KEY : Field := ⟨.RST_QCTL, 31, 16⟩
abbrev F.RST_QCTL_GO : Field := ⟨.RST_QCTL, 0, 0⟩
abbrev F.RST_CLU_MASK : Field := ⟨.RST_CLU, 15, 0⟩
abbrev F.RST_STAT_INRESET : Field := ⟨.RST_STAT, 15, 0⟩
abbrev F.RST_CAUSE_QCOUNT : Field := ⟨.RST_CAUSE, 15, 8⟩
abbrev F.RST_CAUSE_CAUSE : Field := ⟨.RST_CAUSE, 3, 0⟩
abbrev F.PWR_DOM_RESULT : Field := ⟨.PWR_DOM, 11, 8⟩
abbrev F.PWR_DOM_CUR : Field := ⟨.PWR_DOM, 5, 4⟩
abbrev F.PWR_DOM_REQ : Field := ⟨.PWR_DOM, 1, 0⟩
abbrev F.PWR_TSENS_VALID : Field := ⟨.PWR_TSENS, 31, 31⟩
abbrev F.PWR_TSENS_TEMP : Field := ⟨.PWR_TSENS, 11, 0⟩
abbrev F.PWR_TQ_SENSOR : Field := ⟨.PWR_TQ, 11, 8⟩
abbrev F.PWR_TQ_TQ : Field := ⟨.PWR_TQ, 7, 0⟩
abbrev F.PWR_QPOWER_WATTS : Field := ⟨.PWR_QPOWER, 15, 0⟩
abbrev F.GOV_PL_LONG_LIMIT : Field := ⟨.GOV_PL_LONG, 15, 0⟩
abbrev F.GOV_PL_SHORT_LIMIT : Field := ⟨.GOV_PL_SHORT, 15, 0⟩
abbrev F.GOV_PL_PEAK_LIMIT : Field := ⟨.GOV_PL_PEAK, 15, 0⟩
abbrev F.GOV_CFG_HYST : Field := ⟨.GOV_CFG, 20, 16⟩
abbrev F.GOV_CFG_THYST : Field := ⟨.GOV_CFG, 11, 8⟩
abbrev F.GOV_CFG_TTHR : Field := ⟨.GOV_CFG, 7, 0⟩
abbrev F.GOV_FLOOR_SKIP_FLOOR : Field := ⟨.GOV_FLOOR, 5, 0⟩
abbrev F.GOV_STAT_ACTIVE : Field := ⟨.GOV_STAT, 31, 28⟩
abbrev F.GOV_STAT_N_TH : Field := ⟨.GOV_STAT, 23, 18⟩
abbrev F.GOV_STAT_N_PEAK : Field := ⟨.GOV_STAT, 17, 12⟩
abbrev F.GOV_STAT_N_PWR : Field := ⟨.GOV_STAT, 11, 6⟩
abbrev F.GOV_STAT_N : Field := ⟨.GOV_STAT, 5, 0⟩
abbrev F.GOV_PAVG_PLONG : Field := ⟨.GOV_PAVG, 31, 16⟩
abbrev F.GOV_PAVG_PSHORT : Field := ⟨.GOV_PAVG, 15, 0⟩
abbrev F.GOV_PNOW_PW : Field := ⟨.GOV_PNOW, 31, 16⟩
abbrev F.GOV_PNOW_IARRAY : Field := ⟨.GOV_PNOW, 15, 0⟩
abbrev F.GOV_HOT_SENSOR : Field := ⟨.GOV_HOT, 13, 8⟩
abbrev F.GOV_HOT_TEMP : Field := ⟨.GOV_HOT, 7, 0⟩
abbrev F.SAFE_STAT_SAFE : Field := ⟨.SAFE_STAT, 31, 31⟩
abbrev F.SAFE_STAT_CAUSE : Field := ⟨.SAFE_STAT, 30, 28⟩
abbrev F.SAFE_STAT_SENSOR : Field := ⟨.SAFE_STAT, 5, 0⟩
abbrev F.AVS_CFG_VFUSE : Field := ⟨.AVS_CFG, 31, 16⟩
abbrev F.AVS_CFG_ADDR : Field := ⟨.AVS_CFG, 6, 0⟩
abbrev F.AVS_TRIM_TRIM : Field := ⟨.AVS_TRIM, 7, 0⟩
abbrev F.AVS_STAT_VSET : Field := ⟨.AVS_STAT, 31, 16⟩
abbrev F.AVS_STAT_VREAD : Field := ⟨.AVS_STAT, 15, 0⟩
abbrev F.FLT_AERR_LOG_VALID : Field := ⟨.FLT_AERR_LOG, 63, 63⟩
abbrev F.FLT_AERR_LOG_OVF : Field := ⟨.FLT_AERR_LOG, 62, 62⟩
abbrev F.FLT_AERR_LOG_KIND : Field := ⟨.FLT_AERR_LOG, 61, 58⟩
abbrev F.FLT_AERR_LOG_WRITE : Field := ⟨.FLT_AERR_LOG, 57, 57⟩
abbrev F.FLT_AERR_LOG_SIZE : Field := ⟨.FLT_AERR_LOG, 56, 55⟩
abbrev F.FLT_AERR_LOG_AO : Field := ⟨.FLT_AERR_LOG, 54, 54⟩
abbrev F.FLT_AERR_LOG_MID : Field := ⟨.FLT_AERR_LOG, 35, 24⟩
abbrev F.FLT_AERR_LOG_OFFSET : Field := ⟨.FLT_AERR_LOG, 23, 0⟩
abbrev F.FLT_SLOTPOL_FE_LIMIT : Field := ⟨.FLT_SLOTPOL, 7, 0⟩
abbrev F.FLT_SLOT_LOG_VALID : Field := ⟨.FLT_SLOT_LOG, 63, 63⟩
abbrev F.FLT_SLOT_LOG_OVF : Field := ⟨.FLT_SLOT_LOG, 62, 62⟩
abbrev F.FLT_SLOT_LOG_SLOT : Field := ⟨.FLT_SLOT_LOG, 39, 32⟩
abbrev F.FLT_SLOT_LOG_TICK : Field := ⟨.FLT_SLOT_LOG, 31, 0⟩
abbrev F.FLT_PPR_CMD_GO : Field := ⟨.FLT_PPR_CMD, 63, 63⟩
abbrev F.FLT_PPR_CMD_KIND : Field := ⟨.FLT_PPR_CMD, 62, 62⟩
abbrev F.FLT_PPR_CMD_ADDR : Field := ⟨.FLT_PPR_CMD, 47, 6⟩
abbrev F.FLT_PPR_STAT_BUSY : Field := ⟨.FLT_PPR_STAT, 31, 31⟩
abbrev F.FLT_PPR_STAT_RESULT : Field := ⟨.FLT_PPR_STAT, 3, 0⟩
abbrev F.DW_STAT_LEVEL : Field := ⟨.DW_STAT, 31, 30⟩
abbrev F.DW_STAT_AUTH : Field := ⟨.DW_STAT, 29, 28⟩
abbrev F.DW_STAT_CRCERR : Field := ⟨.DW_STAT, 27, 27⟩
abbrev F.DW_STAT_BUSY : Field := ⟨.DW_STAT, 26, 26⟩
abbrev F.DW_STAT_BRESP : Field := ⟨.DW_STAT, 25, 24⟩
abbrev F.DW_STAT_SYSHALT : Field := ⟨.DW_STAT, 23, 23⟩
abbrev F.DW_STAT_CHALT : Field := ⟨.DW_STAT, 22, 22⟩
abbrev F.DW_STAT_CONFERR : Field := ⟨.DW_STAT, 21, 21⟩
abbrev F.DW_STAT_SAFE : Field := ⟨.DW_STAT, 20, 20⟩
abbrev F.DW_STAT_AFAILS : Field := ⟨.DW_STAT, 19, 16⟩
abbrev F.DW_AUTH_CMD_LEVEL : Field := ⟨.DW_AUTH_CMD, 9, 8⟩
abbrev F.DW_AUTH_CMD_CMD : Field := ⟨.DW_AUTH_CMD, 3, 0⟩
abbrev F.DW_BUSCTL_GO : Field := ⟨.DW_BUSCTL, 31, 31⟩
abbrev F.DW_BUSCTL_WRITE : Field := ⟨.DW_BUSCTL, 30, 30⟩
abbrev F.DW_BUSCTL_SIZE : Field := ⟨.DW_BUSCTL, 29, 28⟩
abbrev F.DW_BUSCTL_AUTOINC : Field := ⟨.DW_BUSCTL, 27, 27⟩
abbrev F.DBG_CTRL_FWPATCH : Field := ⟨.DBG_CTRL, 0, 0⟩
abbrev F.DBG_STAT_SYSHALT : Field := ⟨.DBG_STAT, 31, 31⟩
abbrev F.DBG_STAT_CHALTED : Field := ⟨.DBG_STAT, 15, 0⟩
abbrev F.DBG_CCMD_CMD : Field := ⟨.DBG_CCMD, 31, 28⟩
abbrev F.DBG_CCMD_MASK : Field := ⟨.DBG_CCMD, 15, 0⟩
abbrev F.DBG_CREG_SEL_CORE : Field := ⟨.DBG_CREG_SEL, 31, 28⟩
abbrev F.DBG_CREG_SEL_SPACE : Field := ⟨.DBG_CREG_SEL, 27, 26⟩
abbrev F.DBG_CREG_SEL_BANK : Field := ⟨.DBG_CREG_SEL, 22, 20⟩
abbrev F.DBG_CREG_SEL_INDEX : Field := ⟨.DBG_CREG_SEL, 11, 0⟩
abbrev F.PATCH_CTL_EN : Field := ⟨.PATCH_CTL, 31, 31⟩
abbrev F.PATCH_CTL_FLASH : Field := ⟨.PATCH_CTL, 24, 24⟩
abbrev F.PATCH_CTL_WORD : Field := ⟨.PATCH_CTL, 17, 0⟩
abbrev F.DBG_SHALT_CMD : Field := ⟨.DBG_SHALT, 31, 28⟩
abbrev F.DBG_SHALT_COUNT : Field := ⟨.DBG_SHALT, 15, 0⟩
abbrev F.XT_IN_SRC : Field := ⟨.XT_IN, 15, 3⟩
abbrev F.XT_IN_SEL : Field := ⟨.XT_IN, 2, 0⟩
abbrev F.XT_ACT_ACT : Field := ⟨.XT_ACT, 3, 0⟩
abbrev F.CAP_CTRL_CMD : Field := ⟨.CAP_CTRL, 31, 28⟩
abbrev F.CAP_CTRL_QSEL : Field := ⟨.CAP_CTRL, 1, 0⟩
abbrev F.CAP_STAT_STATE : Field := ⟨.CAP_STAT, 31, 28⟩
abbrev F.CAP_STAT_RESULT : Field := ⟨.CAP_STAT, 27, 24⟩
abbrev F.BLK_ID_CODE : Field := ⟨.BLK_ID, 31, 24⟩
abbrev F.BLK_ID_REV : Field := ⟨.BLK_ID, 23, 16⟩
abbrev F.BLK_ID_SIZE : Field := ⟨.BLK_ID, 15, 8⟩
abbrev F.BLK_ID_QUARTER : Field := ⟨.BLK_ID, 1, 0⟩
abbrev F.BLK_LOCK_LOCK : Field := ⟨.BLK_LOCK, 0, 0⟩
abbrev F.UART_CFG_EN : Field := ⟨.UART_CFG, 31, 31⟩
abbrev F.UART_CFG_PAREN : Field := ⟨.UART_CFG, 30, 30⟩
abbrev F.UART_CFG_PARODD : Field := ⟨.UART_CFG, 29, 29⟩
abbrev F.UART_CFG_STOP2 : Field := ⟨.UART_CFG, 28, 28⟩
abbrev F.UART_CFG_DIV : Field := ⟨.UART_CFG, 19, 0⟩
abbrev F.UART_STAT_TXOVF : Field := ⟨.UART_STAT, 31, 31⟩
abbrev F.UART_STAT_RXOVF : Field := ⟨.UART_STAT, 30, 30⟩
abbrev F.UART_STAT_PARERR : Field := ⟨.UART_STAT, 29, 29⟩
abbrev F.UART_STAT_FRAMERR : Field := ⟨.UART_STAT, 28, 28⟩
abbrev F.UART_STAT_RXLVL : Field := ⟨.UART_STAT, 14, 8⟩
abbrev F.UART_STAT_TXLVL : Field := ⟨.UART_STAT, 6, 0⟩
abbrev F.SPI_CFG_EN : Field := ⟨.SPI_CFG, 31, 31⟩
abbrev F.SPI_CFG_DIV : Field := ⟨.SPI_CFG, 15, 0⟩
abbrev F.SPI_STAT_BUSY : Field := ⟨.SPI_STAT, 31, 31⟩
abbrev F.I3C0_CFG_EN : Field := ⟨.I3C0_CFG, 31, 31⟩
abbrev F.I3C0_CFG_I2C : Field := ⟨.I3C0_CFG, 30, 30⟩
abbrev F.I3C0_CFG_DIV : Field := ⟨.I3C0_CFG, 15, 0⟩
abbrev F.I3C0_STAT_BUSY : Field := ⟨.I3C0_STAT, 31, 31⟩
abbrev F.I3C0_STAT_RESULT : Field := ⟨.I3C0_STAT, 3, 0⟩

end Sys2Proof.Machine
end

