-- ==== Sys2Proof/Config.lean ====
section
/-! DEFINITION. What one part fixes for its life (fuses, ordering code), and the free values: constants without
a body, so that nothing can be proved about their value. -/

namespace Sys2Proof

/-- Ordering codes of SCOPE-1 (00_scope R1). -/
inductive OrderCode where
  | p16A192 | p14A192 | p16A96
  deriving DecidableEq, Repr, Inhabited

/-- The ordering code of this part (00 R1): any of the three. -/
opaque Config.order : OrderCode

/-- The cluster's spare column was taken by fuse at manufacture: the physical column skipped, 0 to 7, or 8 when
the spare is unused (06 R158, SLOT-7). -/
opaque Config.fuseShiftCol : Nat → Fin 9

/-- TMEM_SPARE of a tile: spare bit columns used per bank (05 R154). -/
opaque Config.fuseTmemSpare : Nat → BitVec 32

/-- BNK_SPARE of a home bank (11 CORE-12). -/
opaque Config.fuseBnkSpare : Nat → BitVec 32

/-- The 64-bit device identity (24 R614). -/
opaque Config.fuseUid : BitVec 64

/-- OWNER_KHASH as twelve 32-bit words, word 0 lowest (18 R501, 24 R616). -/
opaque Config.fuseKhash : Nat → BitVec 32

/-- DEV_KEY, byte 0 lowest: no master can read it (18 R502). -/
opaque Config.fuseDevKey : BitVec 256

/-- QPOS_VALID and QPOS of each quarter (07 R215, 24 R616). -/
opaque Config.fuseQpos : Nat → BitVec 3

/-- VFUSE, the fused voltage in mV (19 PWR-12). -/
opaque Config.fuseVfuse : BitVec 16

/-- The CRC-24 of the low 296 bits of a NoC link frame: the spec names no polynomial (07 LEAP-9). -/
opaque Config.crc24 : Nat → Nat

/-- The buffer credits of a virtual channel of a NoC sub-link: the spec gives no number (07 LEAP-9). -/
opaque Config.nslCredits : Nat → Nat

/-- CAP_SIZE, bytes of one quarter's capture image (21 DBG-8). -/
opaque Config.fuseCapSize : BitVec 32

/-- The version of the capture map (21 R573). -/
opaque Config.capMapVersion : BitVec 16

/-- The set of a stream cache that holds a 256-byte block: the spec gives the number of sets, not the choice
(09 R265). -/
opaque Config.sccSet : Nat → Fin 16384

/-- A free 64-bit value: what the spec leaves undefined, drawn with a fresh number each time. -/
opaque Config.freeWord : Nat → BitVec 64

end Sys2Proof
end

