-- ==== Sys2Proof/Machine/Assoc.lean ====
section
/-! DEFINITION. Sparse maps in one canonical form: keys strictly rising, no entry equal to what an unlisted key
reads as. Every large store of the chip is one of these. -/

namespace Sys2Proof.Machine

/-- A sparse map from keys to values. -/
abbrev Assoc (κ α : Type) := List (κ × α)

/-- A sparse map with numbers as keys. -/
abbrev NMap (α : Type) := List (Nat × α)

/-- What key `k` reads as: its entry, or `d` when it is not listed. -/
def aget {κ α : Type} [DecidableEq κ] (d : α) : Assoc κ α → κ → α
  | [], _ => d
  | (k', v) :: r, k => if k' = k then v else aget d r k

/-- Put an entry before the first larger key. -/
def ains {κ α : Type} (lt : κ → κ → Bool) (k : κ) (v : α) : Assoc κ α → Assoc κ α
  | [] => [(k, v)]
  | (k', v') :: r => if lt k k' then (k, v) :: (k', v') :: r else (k', v') :: ains lt k v r

/-- Remove key `k`. -/
def adel {κ α : Type} [DecidableEq κ] (m : Assoc κ α) (k : κ) : Assoc κ α :=
  m.filter (fun e => decide (e.1 ≠ k))

/-- Write `v` at `k`: writing what an unlisted key reads as removes the entry. -/
def aset {κ α : Type} [DecidableEq κ] [DecidableEq α] (lt : κ → κ → Bool) (d : α) (m : Assoc κ α) (k : κ) (v : α) :
    Assoc κ α :=
  if v = d then adel m k else ains lt k v (adel m k)

/-- The order of number keys. -/
def natLt (a b : Nat) : Bool := decide (a < b)

/-- Read a number-keyed map. -/
def nget {α : Type} (d : α) (m : NMap α) (k : Nat) : α := aget d m k

/-- Write a number-keyed map. -/
def nset {α : Type} [DecidableEq α] (d : α) (m : NMap α) (k : Nat) (v : α) : NMap α := aset natLt d m k v

/-- Change one entry of a number-keyed map. -/
def nmod {α : Type} [DecidableEq α] (d : α) (m : NMap α) (k : Nat) (f : α → α) : NMap α :=
  nset d m k (f (nget d m k))

/-- Forget every key that satisfies `p`. -/
def ndrop {α : Type} (m : NMap α) (p : Nat → Bool) : NMap α := m.filter (fun e => !p e.1)

/-- The canonical form: keys strictly rising and no default entry. -/
def awf {κ α : Type} [DecidableEq α] (lt : κ → κ → Bool) (d : α) : Assoc κ α → Bool
  | [] => true
  | (k, v) :: r => decide (v ≠ d) && r.all (fun e => lt k e.1) && awf lt d r

end Sys2Proof.Machine
end

