-- ==== Sys2Proof/Machine/State.lean ====
section
/-! DEFINITION. The state of the chip as plain data. A register is held once, in the register file, under its
name; everything behind the registers stands in one structure per unit, named by the chapter that gives it. -/

namespace Sys2Proof.Machine

/-- Why a step can stop with a fault. No command of this model stops so: every access outcome the spec names is a
response recorded in the state. The one constructor names the condition the host's interface allows for. -/
inductive Fault where
  /-- Raised by no command: kept so that the type has a value. Safe. -/
  | unreachable
  deriving DecidableEq, Repr

/-- Why a step can refuse a command. -/
inductive Refusal where
  /-- Raised by `exec` for a command that has no meaning yet. Safe: nothing can be proved about its effect. -/
  | notModelled (mnemonic : String)
  deriving DecidableEq, Repr

/-! ### The array (chapters 02 to 06) -/

/-- The phase of a frame (02 R45, R46). -/
inductive Phase where
  | idle | prologue | body | epilogue
  deriving DecidableEq, Repr

/-- One slot bank of a cell (CELL-3, 03 R75): L0–L7, P0–P3 as bits 0–3, the output register C. CSAT stands in the
registers CSAT(p, n). -/
structure CellBank where
  l : NMap Word
  p : Nat
  c : Word
  deriving DecidableEq, Repr

/-- A zeroed bank (CELL-4). -/
def CellBank.zero : CellBank := ⟨[], 0, 0⟩

/-- The error mark of a stored word (03 R95–R97, 05 R152–R155): sound, a single-bit error no read has found, one that a
read has found and whose corrected word waits to be written back, an uncorrectable error not read yet, or poisoned by a
read. The number is the check-bit syndrome. -/
inductive Ecc where
  | ok
  | ce (syn : Nat)
  | found (syn : Nat)
  | ue (syn : Nat)
  | poison (syn : Nat)
  deriving DecidableEq, Repr

/-- An element of a base-side FIFO: a word, or an end-of-stream mark behind the last word (09 R267). -/
inductive FEl where
  | word (w : Word)
  | eos
  deriving DecidableEq, Repr

/-- A port position of a tile (05 R136, R139, R140): the head stage, the drawn elements in transit with the ACLK of each
draw (02 R60), the EOS flag, and for a leap input the latest arrival. -/
structure TPort where
  head : List Word
  transit : List (Word × Nat)
  eos : Bool
  leapV : Word
  deriving DecidableEq, Repr

/-- An empty port position. -/
def TPort.zero : TPort := ⟨[], [], false, 0⟩

/-- What lands when a result in flight completes (02 R42, 05 R144, R138). -/
inductive Land where
  /-- A cell completion into bank `b`: destination, result, predicate write, saturation (03 R94). -/
  | cell (tile cell b dest : Nat) (val : Word) (pwe : Bool) (pd : Nat) (p sat : Bool)
  /-- Read data into M of a memory bank, in slot bank `b`. -/
  | mreg (tile b bank : Nat) (val : Word)
  /-- The array read of a load or a tap: entry, operands B and C, rotation and part. -/
  | load (tile cell b bank word : Nat) (portA : Bool) (entry : BitVec 96) (bv cv : Word) (rr part : Nat)
  /-- The array write of a store. -/
  | store (tile cell b bank word : Nat) (portA : Bool) (val : Word)
  /-- The commit of a push to a vertical port. -/
  | push (vp : Nat) (val : Word)
  deriving DecidableEq, Repr

/-- A result in flight: it lands in executed cycle `due`; `issue` decides between two that land together (02 R44). -/
structure Flight where
  due : Nat
  issue : Nat
  what : Land
  deriving DecidableEq, Repr

/-- The frame of a slot (02 R45–R57): its window, round, phase, what ends it at the next boundary, and its pops and
pushes per vertical port, and the elements that its pops retired (R51, 05 R136). -/
structure Frame where
  isOpen : Bool
  round : Nat
  phase : Phase
  phaseStart : Nat
  exitAt : Option Nat
  exitTaken : Bool
  err : Bool
  abort : Bool
  task : Nat
  done : Bool
  pops : NMap Nat
  pushes : NMap Nat
  took : NMap Nat
  deriving DecidableEq, Repr

/-- No frame. -/
def Frame.none : Frame := ⟨false, 0, .idle, 0, Option.none, false, false, false, 0, false, [], [], []⟩

/-- The command a slot block is busy with (06 R173). -/
inductive SlotBusy where
  | idle
  | defining (stride phase : Nat)
  | undefining
  | starting
  | molting
  deriving DecidableEq, Repr

/-- What follows when a pending stop has taken effect (06 R171, R172, R185, R187). -/
inductive After where
  | tadpole | molt | undefine | retire
  deriving DecidableEq, Repr

/-- The control of one slot behind its registers (06): the command in progress, whether a stop is pending and of
which kind, what follows it, executed boundaries still to pass, and consecutive FRAME_ERROR frames (20 R544). -/
structure SlotCtl where
  busy : SlotBusy
  drain : Bool
  abort : Bool
  after : After
  wait : Nat
  resume : Bool
  absorbed : Bool
  feCount : Nat
  deriving DecidableEq, Repr

/-- A slot at rest. -/
def SlotCtl.zero : SlotCtl := ⟨.idle, false, false, .tadpole, 0, false, false, 0⟩

/-- A NoC access waiting at a tile-memory bank for a port B cycle (05 R147), with the tag it holds of its master and that
master's epoch when it was issued (09 R256, R262). -/
structure TmemReq where
  mid : Nat
  oid : Nat
  write : Bool
  tile : Nat
  bank : Nat
  word : Nat
  data : List Word
  left : Nat
  collided : Bool
  got : List Word
  tag : Nat
  epoch : Nat
  deriving DecidableEq, Repr

/-- A regrowth of a cluster (06 R183, R186): the failed physical column, the columns copied, whether SHIFT_COL is updated,
executed round boundaries still to pass after that, and bits [11:7] of CLU_STAT (SHIFT_COL and SPARE_USED) from before
the order. -/
structure Regrow where
  active : Bool
  col : Nat
  copied : Nat
  updated : Bool
  wait : Nat
  old : Nat
  deriving DecidableEq, Repr

/-- No regrowth. -/
def Regrow.none : Regrow := ⟨false, 0, 0, false, 0, 0⟩

/-- The array: cells, context stores, switch, sequencer, lanes, ports, frames, slots. Keys: a cell is
tile·16 + cell, a bank of it ·4 + position; a context entry is cell·64 + k; a hop register is
(tile·4 + position)·8 + lane. A physical tile that serves no logical tile, the spare or a failed column after a regrowth
(05 R125, 06 R183), has the tile number 4096 + cluster·8 + row. Tile memory stands in `Dev.mem` at its aperture
addresses (05 R143). `nocR` and `nocW` are the banks whose port B a NoC access reads or writes in the array cycle to
come (05 R147). -/
structure Arr where
  banks : NMap CellBank
  ctx : NMap (BitVec 96)
  sw : NMap (BitVec 256)
  seqw : NMap (BitVec 16)
  ecc : NMap Ecc
  hop : NMap Word
  held : NMap Nat
  iso : NMap Word
  mreg : NMap Word
  tports : NMap TPort
  fifos : NMap (List FEl)
  frames : NMap Frame
  slots : NMap SlotCtl
  resv : NMap Nat
  flight : List Flight
  nocR : List Nat
  nocW : List Nat
  tmemq : List TmemReq
  regrow : NMap Regrow
  retiring : NMap Bool
  deriving DecidableEq, Repr

/-- The array after reset (CELL-4, TILE-8): everything zero, nothing in flight. -/
def Arr.reset : Arr :=
  { banks := [], ctx := [], sw := [], seqw := [], ecc := [], hop := [], held := [], iso := [], mreg := [],
    tports := [], fifos := [], frames := [], slots := [], resv := [], flight := [], nocR := [], nocW := [], tmemq := [],
    regrow := [], retiring := [] }

/-! ### Leap crossings (chapter 07) -/

/-- What has become of a block in the receive delay line (07 R202–R205): in order and accepted, rejected at its
check, lost for a cause of LEAP-7. -/
inductive LSt where
  | accepted
  | rejected
  | lost (cause : Nat)
  deriving DecidableEq, Repr

/-- A block under way or in the delay line: its first cycle t0, its four elements, what has become of it, the bits that
differed in the rejected copy, the retry lane that carries its resend, and whether its fault has been recorded. -/
structure LBlk where
  t0 : Nat
  data : List Word
  st : LSt
  flips : List Nat
  lane : Option Nat
  noted : Bool
  deriving DecidableEq, Repr

/-- A leap channel: the hold value of its outgoing port, the elements of the block being sent, the delay line, and the
marker misses in a row; `lost` while the port's word alignment is lost (07 R194–R208). -/
structure LeapCh where
  hold : Word
  cur : List Word
  line : List LBlk
  miss : Nat
  lost : Bool
  deriving DecidableEq, Repr

/-- A channel at rest. -/
def LeapCh.zero : LeapCh := ⟨0, [], [], 0, false⟩

/-- One direction of a NoC sub-link (07 R212–R214). Of the sender: the flits that wait to cross, the sequence number of
the next new frame, the replay buffer with the sequence number of each frame, how many of its frames need no resending, the
credits in use per virtual channel, the acknowledgement from which it last replayed, and the replays from it in a row. Of
the receiver: the sequence number it expects, whether it owes an ANAK, the credits it owes per virtual channel. -/
structure NslDir where
  wait : List NslFlit
  next : Nat
  buf : List (Nat × NslFlit)
  sent : Nat
  used : NMap Nat
  from_ : Nat
  replays : Nat
  expect : Nat
  nak : Bool
  owed : NMap Nat
  deriving DecidableEq, Repr

/-- A sub-link direction at rest. -/
def NslDir.zero : NslDir := ⟨[], 0, [], 0, [], 0, 0, 0, false, []⟩

/-! ### Memory and stream engines (chapter 09) -/

/-- A line of a stream cache (09 R265): the number of its 256-byte block plus one, 0 for none, and whether it holds
data that HBM has not. -/
structure SccLine where
  tag : Nat
  dirty : Bool
  deriving DecidableEq, Repr

/-- No line. -/
def SccLine.none : SccLine := ⟨0, false⟩

/-- A running job of a stream engine (09 R267–R269): its job slot, the bytes of this pass, the bytes since it began,
the pieces of host memory of a scatter list, and whether its chain has formed. -/
structure SenRun where
  j : Nat
  moved : Nat
  total : Nat
  segs : List (Nat × Nat)
  chained : Bool
  deriving DecidableEq, Repr

/-- A stream engine behind its page: the job slots queued, oldest first, and the running job. -/
structure Sen where
  queue : List Nat
  run : Option SenRun
  deriving DecidableEq, Repr

/-- An engine at rest. -/
def Sen.zero : Sen := ⟨[], Option.none⟩

/-- A request that waits for a basking domain to wake (19 R527): the domain's index in PWR_DOM, its quarter, the access,
its tag and the epoch of its master (09 R256, R262). -/
structure Waiter where
  q : Nat
  dom : Nat
  req : Access
  tag : Nat
  epoch : Nat
  deriving DecidableEq, Repr

/-- A request that its master has not issued yet (09 R256–R258): behind a fence, behind an earlier request to the same
512-byte block, or for want of a tag. -/
structure Held where
  req : Access
  noalloc : Bool
  err : HbmErr
  deriving DecidableEq, Repr

/-! ### Dispatch (chapter 10) -/

/-- The state of a live task (10 DSP-2); a task that is not listed is DONE. -/
inductive TSt where
  | waiting | delayed | ready | running
  deriving DecidableEq, Repr

/-- A live task as its home slice holds it (10 R280). `placed` is false while the task waits for room on its list
(10 R294); `began` says whether the task has been RUNNING; `rd` and `why` are the
register that a waiting XWAIT writes when it resumes, and the CORE-8 code it writes. -/
structure Task where
  st : TSt
  placed : Bool
  node : Bool
  level : Nat
  depcnt : Nat
  wake : Nat
  timed : Bool
  pendwake : Bool
  evwait : Bool
  aff : Nat
  succ0 : Nat
  succ1 : Nat
  instatus : Nat
  oid : Nat
  compl : Bool
  coreMask : Nat
  lastCore : Nat
  bank : Nat
  slot : Nat
  ep : Nat
  gen : Nat
  held : Nat
  began : Bool
  rd : Option Nat
  why : Nat
  deriving DecidableEq, Repr

/-- An entry that a full list holds back (10 R294): a task to place, the trace reason of its move and the MID of the
DSP_CMD write that waits for its acknowledgement, a signal to make with the status it carries, or the completion context of
a task whose signals wait. -/
inductive HeldOp where
  | place (task reason : Nat) (ack : Option Nat)
  | sig (task status : Nat)
  | compl (task status result : Nat)
  deriving DecidableEq, Repr

/-- A dispatch slice (10 R286, R292, R294): its ready list and its delay list, oldest first, what full lists hold
back, and for each replica group the affinity memory, most recent first. -/
structure Slice where
  ready : List Nat
  delay : List Nat
  held : List HeldOp
  aff : NMap (List (Nat × Nat))
  deriving DecidableEq, Repr

/-- An empty slice. -/
def Slice.zero : Slice := ⟨[], [], [], []⟩

/-! ### Queue engine (chapter 14) -/

/-- A stream-engine job of a command: port, job slot, and its end as a status (14 R272). -/
structure JobRef where
  vp : Nat
  j : Nat
  code : Option Nat
  deriving DecidableEq, Repr

/-- The course of a command record (14 R389): fetched and not started, started, or ended and waiting for its CQ entry. -/
inductive CmdSt where
  | fetched | running | ended
  deriving DecidableEq, Repr

/-- What a started command waits for (14 QUE-9): nothing, a slot's START or stop, its molt, a window's molt, a load, the drain of a
pair, an op list of a channel (quarter, local index), or firmware. -/
inductive CmdWait where
  | none
  | slot (s : Nat)
  | molt (s : Nat)
  | win (q i : Nat)
  | load (s : Nat)
  | pair (q i : Nat)
  | media (q i n : Nat)
  | firmware
  deriving DecidableEq, Repr

/-- A command record: local pair, fetch number, the 64 bytes of the entry, its course, status and result, the jobs of an
INVOKE, its buffer references still to queue with the engine of each, the outcome of its last task, whether its tasks are submitted, the
tasks of its chain (0 prologue, 1 NODE, 2 epilogue), whether its CQ entry is discarded, and what it waits for. -/
structure Cmd where
  qp : Nat
  seq : Nat
  ent : Nat
  st : CmdSt
  status : Nat
  result : Nat
  jobs : List JobRef
  todo : List (Nat × Nat)
  fin : Option (Nat × Nat)
  submitted : Bool
  chain : List Nat
  discard : Bool
  wait : CmdWait
  deriving DecidableEq, Repr

/-- A queue pair behind its registers (14 R381–R411): the number of the next entry fetched, whether it leaves for
UNASSIGNED, entries since the last interrupt, the tick of the first of them, whether an interrupt waits to be sent, the
home quarter of its last INVOKE plus one, whether back-pressure holds it, and QP_INTR and QP_ITIME as the last CQ entry met
them (R385). -/
structure Pair where
  next : Nat
  delete : Bool
  cnt : Nat
  since : Nat
  due : Bool
  lastHome : Nat
  held : Bool
  intr : Nat
  itime : Nat
  deriving DecidableEq, Repr

/-- A pair at rest. -/
def Pair.zero : Pair := ⟨0, false, 0, 0, false, 0, false, 0, 0⟩

/-- A tongue command that has not taken effect (14 R406), and whether its stop has begun. -/
structure Tongue where
  cmd : Nat
  arg : Nat
  begun : Bool
  deriving DecidableEq, Repr

/-! ### Graph images (chapter 08) -/

/-- An entry point of a load record (08 IMG-6): number, flags, the two function values, the three buffer fields. -/
structure EpRec where
  ep : Nat
  flags : Nat
  proFn : Nat
  epiFn : Nat
  bufs : List Nat
  deriving DecidableEq, Repr

/-- The load record of a slot (08 R239): NONE 0, PARTIAL 1, LOADED 2, the image identity, the entry points, and the
clusters of the image's members. -/
structure LoadRec where
  st : Nat
  ident : Nat
  eps : List EpRec
  memb : List Nat
  deriving DecidableEq, Repr

/-- Record NONE. -/
def LoadRec.none : LoadRec := ⟨0, 0, [], []⟩

/-- A load in progress (08 R232–R242): its mode, the result code reached so far with the member and tile at fault, the
command that asked for it, the image as read, what a PATCH selects, the image's address, the OID of a FULL load, the banks
whose handover waits for the molt of IMG-10 step 1 (member, tile, bank), and whether another master has written a binding
of the slot meanwhile. -/
structure LoadJob where
  mode : Nat
  code : Nat
  memb : Nat
  tile : Nat
  cmd : Nat
  bytes : List Byte
  units : Nat
  selM : Nat
  selT : Nat
  addr : Nat
  oid : Nat
  late : List (Nat × Nat × Nat)
  bound : Bool
  deriving DecidableEq, Repr

/-! ### Host links (chapter 13) -/

/-- A function of a link behind its page (13 R361–R377): Bus Master Enable, Memory Space Enable, D3hot, MSI-X Enable and
Function Mask, whether a function reset runs, VF Enable and NumVFs of a PF, the codes of MPS, MRRS and the completion
timeout in Device Control and Device Control 2, the BAR registers as written (0–2 for BAR 0, 2, 4; of a PF, 3–5 for its VF
BARs), and the error bits of AER. -/
structure Fn where
  bme : Bool
  mse : Bool
  d3 : Bool
  msixEn : Bool
  msixMask : Bool
  reset : Bool
  vfEn : Bool
  numVfs : Nat
  mps : Nat
  mrrs : Nat
  cto : Nat
  bars : NMap Nat
  unc : Nat
  deriving DecidableEq, Repr

/-- A function after a conventional reset: MPS 128 B and MRRS 512 B, the defaults of the PCIe specification. -/
def Fn.zero : Fn := ⟨false, false, false, false, false, false, false, 0, 0, 2, 0, [], 0⟩

/-! ### Control cores (chapter 11) -/

/-- The four copies of the trap CSRs, one for each level (11 R308): mepc, mcause, mtval, MPIE, and whether MPP is M. -/
structure Trap where
  epc : Nat
  cause : Nat
  tval : Nat
  mpie : Bool
  mppM : Bool
  deriving DecidableEq, Repr

/-- A level's trap CSRs after reset. -/
def Trap.zero : Trap := ⟨0, 0, 0, false, false⟩

/-- What a core does (CORE-12 STATE, but for HALTED). -/
inductive CoreSt where
  | reset | run | idle | wedged
  deriving DecidableEq, Repr

/-- A thread bound to a thread bank (11 R310): its task, and its two save areas. -/
structure Bound where
  task : Nat
  save : Nat
  fp : Nat
  deriving DecidableEq, Repr

/-- A control core behind its page (11 R307–R326). `file` holds the banks, index 0 of a bank its state word: that of
the current bank is the live pc, MODE and MIE. `cur` and `level` are the current bank and level, `tbank` the thread bank
in use or last used, `ret1`, `retf`, `retlf` what XBSTAT records; `traps` by level; `csr` the other CSRs by number;
`bound` the thread banks; `order` them by latest run, longest ago first; `stamp` when the running thread began; `fp` the
FP file, fcsr at 32; `owner` its owner, `dirty` its FS, `fpArea` the owner's area; `fpFault` between an exchange fault
and the fault bank's return; `stall` while an instruction is held back; `steps` instructions that a debug STEP lets run. -/
structure Core where
  st : CoreSt
  halted : Bool
  managed : Bool
  file : NMap Word
  cur : Nat
  level : Nat
  tbank : Nat
  ret1 : Nat
  retf : Nat
  retlf : Nat
  traps : NMap Trap
  csr : NMap (Option Word)
  bound : NMap (Option Bound)
  order : List Nat
  task : Option Nat
  stamp : Nat
  fp : NMap Word
  owner : Option Nat
  dirty : Bool
  fpArea : Nat
  fpFault : Bool
  stall : Bool
  await : Bool
  step : Bool
  deriving DecidableEq, Repr

/-- A core held in reset (11 R325): banks, CSRs and the FP file at their reset values. -/
def Core.zero : Core :=
  { st := .reset, halted := false, managed := false, file := [], cur := 0, level := 0, tbank := 0, ret1 := 0,
    retf := 0, retlf := 0, traps := [], csr := [], bound := [], order := [], task := Option.none, stamp := 0, fp := [],
    owner := Option.none, dirty := false, fpArea := 0, fpFault := false, stall := false,
    await := false, step := false }

/-! ### Mailboxes (chapter 12) -/

/-- A notice of a mailbox (12): pointer, length and tag. -/
structure Notice where
  ptr : Nat
  len : Nat
  tag : Nat
  deriving DecidableEq, Repr

/-! ### Power domains (chapter 19) -/

/-- A transition of a power domain in progress (19 R526): where it goes, and a request made meanwhile. -/
structure DomTr where
  goal : Nat
  next : Option Nat
  deriving DecidableEq, Repr

/-! ### Debug (chapter 21) -/

/-- A capture that was taken (21 R572, R573): DTIME and TICK at it, the ON mask of each quarter, the words of the
stream already read, and whether the image of a quarter streams. -/
structure Capture where
  e : Nat
  tick : Nat
  masks : List Nat
  read : Nat
  quarter : Option Nat
  deriving DecidableEq, Repr

/-! ### Calibration (chapter 17) -/

/-- A cached calibration entry (17 R478, R491): its 32 bytes as a number, and whether it waits to be written back. -/
structure CalLine where
  bytes : Nat
  dirty : Bool
  deriving DecidableEq, Repr

/-! ### Media channels (chapter 15) -/

/-- A posted op list (15 R425, R426): its address and count, the command it serves, whether it was fetched, its
micro-ops, and a status that ends it before it starts, with the micro-op at fault. -/
structure MPost where
  addr : Nat
  count : Nat
  cmd : Option Nat
  fetched : Bool
  ops : List Nat
  bad : Nat
  badAt : Nat
  deriving DecidableEq, Repr

/-- What a list context does (15 R427): between micro-ops without the bus, holding the bus, in WAITRB, in DELAY, waiting
for tokens, waiting for ready inside FEATURE, OFFSETS or PROBE, ended and waiting for its record. -/
inductive CtxSt where
  | need | hold | waitrb | delay | tokens | ready | ended
  deriving DecidableEq, Repr

/-- A list context (15 R427–R437): its micro-ops, the command it serves, the index of the next micro-op, micro-ops
executed, SR, its status and result once ended with TICK then, whether a STOP waits for its next boundary, MEAS, DSH, the
offsets of its lookup, PCLASS, ZC0, ZC1 and FEAT, groups driven of a composite micro-op, whether a status was read since
its wait began, on a tether channel the records of the group under way (each with its buffer offset, or 1 for a
confirm), whether a confirm waits to be sent, and whether MSQ_RHOLD counted it. -/
structure MCtx where
  ops : List Nat
  cmd : Option Nat
  pc : Nat
  n : Nat
  sr : Nat
  st : CtxSt
  status : Nat
  result : Nat
  tick : Nat
  stop : Bool
  meas : Option Nat
  dsh : Option Nat
  look : Option Nat
  pclass : Nat
  zc0 : Nat
  zc1 : Nat
  feat : Nat
  stage : Nat
  polled : Bool
  grp : List (Nat × Nat)
  conf : Bool
  rhold : Bool
  deriving DecidableEq, Repr

/-- The list that opened an operation, and its row: OID, TAG, ROW (15 MED-8). -/
structure OpInfo where
  oid : Nat
  tag : Nat
  row : Nat
  deriving DecidableEq, Repr

/-- A media channel behind its page: lists posted and not started, oldest first (those beyond 32 unacknowledged), its 8
contexts, the context that held the bus last, the last TAG of a CMD flit, and what its open operations are. -/
structure MChan where
  posts : List MPost
  ctxs : NMap (Option MCtx)
  last : Nat
  tag : Nat
  opens : NMap OpInfo
  deriving DecidableEq, Repr

/-- A channel at rest. -/
def MChan.zero : MChan := ⟨[], [], 7, 0, []⟩

/-- A dump that is being written (15 R441, R442): half, SEQ, TICK at the latch, the cap, the records in order, and the
number dropped. -/
structure Dump where
  half : Nat
  seq : Nat
  tick : Nat
  cap : Nat
  recs : List Nat
  dropped : Nat
  deriving DecidableEq, Repr

/-! ### Flash tether lanes (chapter 16) -/

/-- A sequenced flit as its sender keeps it (16 R456, R460). -/
structure Flit where
  seq : Nat
  type : Nat
  fl : Nat
  chan : Nat
  tag : Nat
  param : Nat
  len : Nat
  payload : List Byte
  deriving DecidableEq, Repr

/-- A CMD flit that waits to be sent (16 R462): the context (channel·8 + context), bridge channel, CE, records with
their buffer offsets, HOLD, and the LUN whose operation it confirms. -/
structure OutGrp where
  key : Nat
  chan : Nat
  ce : Nat
  recs : List (Nat × Nat)
  hold : Bool
  conf : Option Nat
  deriving DecidableEq, Repr

/-- A DOUT data record that is being sent (16 R466): bridge channel, TAG, data record index, channel-buffer address,
length, bytes sent, and whether it is poisoned. -/
structure WOut where
  chan : Nat
  tag : Nat
  idx : Nat
  addr : Nat
  len : Nat
  sent : Nat
  poison : Bool
  deriving DecidableEq, Repr

/-- A CMD flit without its RESP: the context it belongs to unless that has ended, bridge channel, TAG, and the
channel-buffer addresses of its data records in order. -/
structure Unans where
  key : Option Nat
  chan : Nat
  tag : Nat
  datas : List Nat
  deriving DecidableEq, Repr

/-- A tether lane behind its page (chapter 16): the next SEQ to send and the next expected, whether a flit was accepted
since UP, whether a NAK or an ACK is owed, the replay buffer, the SEQ that replays began at and how often in a row, what
waits to be sent, CMD flits unanswered, R_B_N by channel, credits to return (channel·2 + VC), received flits held for a
halted sequencer, codeword lock (good or bad codewords in a row, the last CWSEQ), RXREADY frames sent and received and
whether codewords are sent, the transmit FIR in fortieths, whether the partner's IDENT was accepted, whether the lane
has been UP, and a management request that waits to be sent. -/
structure Lane where
  txSeq : Nat
  rxNext : Nat
  rxAny : Bool
  nakSent : Bool
  ackDue : Bool
  replay : List Flit
  from_ : Nat
  replays : Nat
  outq : List OutGrp
  wq : List WOut
  unans : List Unans
  rb : NMap Nat
  accr : NMap Nat
  kept : List Flit
  locked : Bool
  run : Nat
  cwseq : Nat
  rdyTx : Nat
  rdyRx : Nat
  codes : Bool
  fir : List Int
  rxOk : Bool
  everUp : Bool
  mreq : Option Flit
  deriving DecidableEq, Repr

/-- A lane at rest. -/
def Lane.zero : Lane :=
  { txSeq := 0, rxNext := 0, rxAny := false, nakSent := false, ackDue := false, replay := [], from_ := 0, replays := 0,
    outq := [], wq := [], unans := [], rb := [], accr := [], kept := [], locked := false, run := 0, cwseq := 0, rdyTx := 0,
    rdyRx := 0, codes := false, fir := [], rxOk := false, everUp := false, mreq := Option.none }

/-! ### Boot, flash, power, serial interfaces, the debug port (chapters 18 to 21, 24) -/

/-- A section of the accepted boot image (18 BOOT-4): TYPE, CORE, OFFSET, LENGTH, DEST, and the 128 bytes of its entry. -/
structure BootSec where
  type : Nat
  core : Nat
  off : Nat
  len : Nat
  dest : Nat
  entry : List Byte
  deriving DecidableEq, Repr

/-- A boot in progress or the last boot (18 R504–R510): whether it runs, CAUSE, SOURCE, SLOT, whether it is a trial boot,
SEQ, the ATT words of the report, the sections behind CONFIG, the device configuration, and whether that is loaded. -/
structure Boot where
  on : Bool
  cause : Nat
  source : Nat
  slot : Nat
  trial : Bool
  seq : Nat
  atts : List Nat
  secs : List BootSec
  cfg : List Byte
  loaded : Bool
  deriving DecidableEq, Repr

/-- No boot has started. -/
def Boot.none : Boot := ⟨false, 0, 0, 0, false, 0, [], [], [], false⟩

/-- A flash command that runs (18 R500): its code, its word, and the 256 bits to program. -/
structure FlsOp where
  cmd : Nat
  word : Nat
  data : Nat
  deriving DecidableEq, Repr

/-- The governor behind its page (19 R535): n_long, n_short, n_peak, n_th, whether PL_LONG and PL_SHORT are active, and
ticks since n_long and n_short last rose. -/
structure Gov where
  nl : Nat
  ns : Nat
  np : Nat
  nt : Nat
  actL : Bool
  actS : Bool
  sinceL : Nat
  sinceS : Nat
  deriving DecidableEq, Repr

/-- Every count 0, no limit active. -/
def Gov.zero : Gov := ⟨0, 0, 0, 0, false, false, 16, 16⟩

/-- The authentication of the debug port (21 R562, R563): the level asked for, TICK at START, the nonce words not yet
read (none before it is ready), whether a nonce is held for a SUBMIT, the AUTH_DATA words written, and the twelve words of the nonce. -/
structure Auth where
  want : Nat
  since : Nat
  nonce : Option (List Nat)
  live : Bool
  words : List Nat
  drawn : List Nat
  deriving DecidableEq, Repr

/-- No authentication under way. -/
def Auth.none : Auth := ⟨0, 0, Option.none, false, [], []⟩

/-- A UART behind its page (24 R617): bytes to send and bytes received, oldest first. -/
structure Uart where
  tx : List Byte
  rx : List Byte
  deriving DecidableEq, Repr

/-- Both FIFOs empty. -/
def Uart.zero : Uart := ⟨[], []⟩

/-- A message that leaves the chip toward a host or a device: an MSI-X message, a host write, a host read request, the
answer to a configuration request, a Link Equalization Request, a bus cycle on a local NAND channel as a record of TET-6
with the data it sends, the bytes of a flit or the control word of a training frame on a tether lane, the status of a
Dweaz frame with its data and CRC, a byte on a UART, an SPI or I3C transfer, a VOUT_COMMAND to the regulator. -/
inductive OutMsg where
  | msix (oid vec addr data : Nat)
  | hostWrite (oid addr : Nat) (bytes : List Byte)
  | hostRead (oid addr len : Nat)
  | cfg (oid : Nat) (retry : Bool) (v : Nat)
  | cfgAbsent (oid cap : Nat)
  | eqRequest (link : Nat)
  | nand (ch ce rcd : Nat) (data : List Byte)
  | flit (lane : Nat) (bytes : List Byte)
  | frame (lane word : Nat)
  | dweaz (status : Nat) (data : Option (Nat × Nat))
  | uart (u byte : Nat)
  | spi (s : Nat) (bytes : List Byte)
  | i3c (cmd : Nat) (bytes : List Byte)
  | vout (mv : Nat)
  | crossed (dir : Nat) (flit : NslFlit)
  deriving DecidableEq, Repr

/-! ### The whole -/

/-- The response codes of the NoC (09 MEM-4, R261). -/
inductive RespCode where
  | okay | collided | slverr | decerr
  deriving DecidableEq, Repr

/-- What the chip has answered and sent out (the model's own record, not the spec's): the response to the last
register or memory access, and the messages that left the chip or crossed a bridge, newest last. -/
structure OutLog where
  code : RespCode
  data : Word
  burst : List Word
  msgs : List OutMsg
  deriving DecidableEq, Repr

/-- Nothing answered, nothing sent. -/
def OutLog.reset : OutLog := ⟨.okay, 0, [], []⟩

/-- Everything of the chip but its clock: the register file, device memory, and one part per unit. `free` counts the
free values drawn so far (the model's own). -/
structure Dev where
  regs : Assoc RKey Word
  mem : List Host.Cell
  ecc : NMap Ecc
  arr : Arr
  leap : NMap LeapCh
  lfLost : NMap Bool
  nsl : NMap NslDir
  repairs : NMap Nat
  prbs : NMap Nat
  scc : NMap SccLine
  molts : NMap (List (Nat × Nat))
  fences : NMap Bool
  sen : NMap Sen
  chbuf : NMap Byte
  waiters : List Waiter
  held : List Held
  mepoch : NMap Nat
  tasks : NMap (Option Task)
  slices : NMap Slice
  handAt : NMap Nat
  cmds : NMap (Option Cmd)
  pairs : NMap Pair
  epochs : NMap Nat
  tongue : List Tongue
  loads : NMap LoadRec
  loading : NMap (Option LoadJob)
  fns : NMap Fn
  qrst : NMap Nat
  cores : NMap Core
  runs : Nat
  mail : NMap (List Notice)
  croaks : NMap Bool
  timerAt : NMap Nat
  doms : NMap (Option DomTr)
  routes : NMap (Option Word)
  sysHalt : Bool
  haltLeft : Nat
  capture : Option Capture
  rrobin : NMap Nat
  perst : NMap Bool
  calTab : NMap (Option CalLine)
  mch : NMap MChan
  tokq : NMap (List Nat)
  tokTurn : Nat
  dump : Option Dump
  armSeq : Nat
  lanes : NMap Lane
  therm : Bool
  boot : Boot
  fls : NMap (Option FlsOp)
  aoFree : Bool
  ballHold : Nat
  hb : NMap Nat
  porst : Bool
  sysrst : Bool
  pfLow : Bool
  avsOut : Option Nat
  avsFails : Nat
  rcCal : Bool
  gov : Gov
  ppr : NMap (Option Nat)
  auth : Auth
  dwBus : Option Access
  dwFault : Bool
  uart : NMap Uart
  spi : NMap (Option (Nat × Bool))
  spiKeep : NMap Bool
  i3c : Option Nat
  occ : NMap Bool
  out : OutLog
  free : Nat
  deriving DecidableEq, Repr

/-- The chip's parts after PORST_N. Every register reads the reset value of its row (`regReset`). -/
def Dev.reset : Dev :=
  { regs := [], mem := [], ecc := [], arr := Arr.reset,
    leap := [],
    lfLost := [],
    nsl := [],
    repairs := [],
    prbs := [],
    scc := [],
    molts := [],
    fences := [],
    sen := [],
    chbuf := [],
    waiters := [],
    held := [],
    mepoch := [],
    tasks := [],
    slices := [],
    handAt := [],
    cmds := [],
    pairs := [],
    epochs := [],
    tongue := [],
    loads := [],
    loading := [],
    fns := [],
    qrst := [],
    cores := [],
    runs := 0,
    mail := [],
    croaks := [],
    timerAt := [],
    doms := [],
    routes := [],
    sysHalt := false,
    haltLeft := 0,
    capture := none,
    rrobin := [],
    perst := [],
    calTab := [],
    mch := [],
    tokq := [],
    tokTurn := 0,
    dump := none,
    armSeq := 0,
    lanes := [],
    therm := false,
    boot := Boot.none,
    fls := [],
    aoFree := false,
    ballHold := 0,
    hb := [],
    porst := true,
    sysrst := false,
    pfLow := false,
    avsOut := none,
    avsFails := 0,
    rcCal := false,
    gov := Gov.zero,
    ppr := [],
    auth := Auth.none,
    dwBus := none,
    dwFault := false,
    uart := [],
    spi := [],
    spiKeep := [],
    i3c := none,
    occ := [], out := OutLog.reset, free := 0 }

/-- The clock of the array and of wall time (02 R28–R30, 19 R520–R522): TICK, DTIME, executed cycles of the tick in
progress, whether the array runs in it, and the drive of the skip rule (02 R59). -/
structure Clk where
  tick : Nat
  dtime : Nat
  cyc : Nat
  runs : Bool
  started : Bool
  n : Nat
  deriving DecidableEq, Repr

/-- TICK 0, DTIME 0, nothing executes (19 R520, R522). -/
def Clk.reset : Clk := ⟨0, 0, 0, false, false, 0⟩

/-- The state of the chip, and the commands that wait, first in first out. -/
structure State where
  d : Dev
  clk : Clk
  pending : List Instr
  deriving DecidableEq, Repr

/-- The chip right after power-on reset, with no command waiting. -/
def State.reset : State := { d := Dev.reset, clk := Clk.reset, pending := [] }

end Sys2Proof.Machine
end

