-- ==== Sys2Proof/Machine/Ops.lean ====
section
/-! DEFINITION. The operations every family is built from: registers and their fields, counters, first-record logs,
event sources, watermarks, refused accesses, device memory, free values, and the numbering of instances. -/

namespace Sys2Proof.Machine

/-! ### Numbering (00 R13, 06 R159) -/

/-- The quarter of a cluster. -/
def quarterOf (c : Nat) : Nat := c / 32 * 2 + c % 8 / 4

/-- The local cluster index ℓ. -/
def localOf (c : Nat) : Nat := c / 8 % 4 * 4 + c % 4

/-- The cluster with local index `l` of quarter `q`. -/
def clusterOf (q l : Nat) : Nat := (q / 2 * 4 + l / 4) * 8 + (q % 2 * 4 + l % 4)

/-- The tile number y·64 + x of logical tile `t` of cluster `c`. -/
def tileOf (c t : Nat) : Nat := (c / 8 * 8 + t / 8) * 64 + (c % 8 * 8 + t % 8)

/-- The tile number of the physical tile of cluster `c` and local row `r` that serves no logical tile (05 R125). -/
def spareTile (c r : Nat) : Nat := 4096 + c * 8 + r

/-- The cluster of a tile number. -/
def tileCluster (T : Nat) : Nat := if T < 4096 then T / 64 / 8 * 8 + T % 64 / 8 else (T - 4096) / 8

/-- The logical tile index of a tile number in its cluster. -/
def tileLogical (T : Nat) : Nat := T / 64 % 8 * 8 + T % 64 % 8

/-! ### Reset values that depend on the part or the place -/

/-- Class of a quarter or watermark source by its local number (EVT-1, EVT-2, EVT-3). -/
def sourceClass (s : Nat) : Nat :=
  if s < 0x004 then 0
  else if s < 0x030 then 1
  else if s < 0x040 then 2
  else if s < 0x050 then 3
  else if s < 0x080 then 10
  else if s < 0x0C0 then (if s % 4 < 2 then 1 else if s % 4 = 2 then 9 else 10)
  else if s < 0x100 then 5
  else if s < 0x200 then 1
  else if s < 0x240 then (if s % 4 = 3 then 9 else if s % 4 = 1 then 10 else 1)
  else if s < 0x2D0 then 4
  else if s < 0x2F0 then 1
  else if s < 0x330 then 6
  else if s < 0x350 then 7
  else if s < 0x450 then 8
  else if s < 0x490 then 9
  else if s < 0x500 then 8
  else 10

/-- Whether a local source number belongs to a source of quarter `q` (EVT-1, EVT-2, R338). -/
def sourceExists (q s : Nat) : Bool :=
  let leapQ : Bool := q == 0 || q == 3
  if s < 0x004 then true
  else if s < 0x010 then false
  else if s < 0x015 then true
  else if s < 0x018 then false
  else if s < 0x020 then leapQ
  else if s < 0x030 then false
  else if s < 0x039 then true
  else if s < 0x040 then false
  else if s < 0x042 then true
  else if s < 0x050 then false
  else if s < 0x052 then leapQ
  else if s < 0x056 then true
  else if s < 0x080 then false
  else if s < 0x2E8 then true
  else if s < 0x2F0 then false
  else if s < 0x454 then true
  else if s < 0x490 then false
  else if s < 0x4B1 then true
  else if s < 0x500 then false
  else decide (s < 0x600)

/-- 16 CE-16A-192 parts of ordering code figures: ACLK in units of 100 MHz, HBM capacity in GiB (24 R614). -/
def orderAclk : OrderCode → Nat
  | .p14A192 => 14
  | _ => 16

/-- HBM capacity in GiB (00 R6). -/
def orderHbm : OrderCode → Nat
  | .p16A96 => 96
  | _ => 192

/-- Memory windows per quarter: 2 MiB units of a quarter's HBM (09 R250, MEM-9). -/
def winPerQuarter (o : OrderCode) : Nat := 128 * orderHbm o

/-- Sizes of REG-1 in 64 KiB units, by the code of a block. -/
def blkSize (code : Nat) : Nat :=
  if code = 0x0D then 3 else if code = 0x10 ∨ code = 0x14 ∨ code = 0x40 then 4 else if code = 0x18 then 8
  else if code = 0x30 then 16 else if code = 0xF0 then 0 else 1

/-- TILE_ID of page `p` of cluster `c` with SHIFT_COL `f` (R157, R158): the physical column that is skipped serves no
logical tile. -/
def tileIdOf (c p f : Nat) : Nat :=
  let col := p % 9
  let sp := if col = 8 then 2 ^ 31 else 0
  if col = f then sp + col
  else sp + 2 ^ 30 + (c / 8 * 8 + p / 9) * 2 ^ 16 + (c % 8 * 8 + (if col < f then col else col - 1)) * 2 ^ 8 + col

/-- A count of spare columns that fuses give: 0 to 4 (05 R154, 11 R333). The fuse's content is free; a field that would
read more reads 4. -/
def spareCols (v n : Nat) : Nat := Nat.min 4 (v / 2 ^ n % 8)

/-- What a register reads after reset: its row's value, or the value of the part and the place where the row says
FUSE, per quarter, per core and so on. CLU_STAT.DOMAIN reads 2 (OFF), as the cluster domains stand after power-on
(19 R528), where SLOT-7 gives 0 (assumption 118). -/
def regReset (x : RKey) : Word :=
  let n (v : Nat) : Word := BitVec.ofNat 64 v
  match x.r with
  | .TILE_ID => n (tileIdOf (clusterOf x.q x.i) x.j (Config.fuseShiftCol (clusterOf x.q x.i)).val)
  | .CLU_ID => n (x.i * 1024 + x.q * 256 + clusterOf x.q x.i)
  | .CLU_STAT =>
    let f := (Config.fuseShiftCol (clusterOf x.q x.i)).val
    n (2 * 2 ^ 28 + f * 256 + (if f = 8 then 0 else 192))
  | .TMEM_SPARE =>
    let v := (Config.fuseTmemSpare ((x.q * 16 + x.i) * 72 + x.j)).toNat
    n ((upTo 4).foldl (fun r b => r + spareCols v (8 * b) * 2 ^ (8 * b)) 0)
  | .BNK_SPARE =>
    let v := (Config.fuseBnkSpare (x.q * 16 + x.i)).toNat
    n ((upTo 8).foldl (fun r b => r + spareCols v (3 * b) * 2 ^ (3 * b)) 0)
  | .BNK_OWNER => n (x.q * 16 + x.i)
  | .CORE_ID => n (x.q * 64 + (x.q * 16 + x.i))
  | .SCC_WAYS => n (if x.i = 0 then 0xFFFF else 0)
  | .EVT_ROUTE => n (2 ^ 57 + (sourceClass x.i) * 2 ^ 58)
  | .WIN_FIRST => n (x.q * winPerQuarter Config.order)
  | .WIN_COUNT => n (winPerQuarter Config.order)
  | .PWR_DOM => n (if x.i < 16 then 0x22 else 0)
  | .CLK_STAT => n (if Config.order = .p14A192 then 2 ^ 29 else 0)
  | .AVS_CFG => n (65536 * Config.fuseVfuse.toNat + 0x40)
  | .CAP_SIZE => n Config.fuseCapSize.toNat
  | .AO_PARTID => n 0x14096000
  | .AO_ORDER => n (0x410000 + (2 ^ 24 * orderAclk Config.order + orderHbm Config.order))
  | .AO_UID => n Config.fuseUid.toNat
  | .DW_UID_LO => n (Config.fuseUid.toNat % 2 ^ 32)
  | .DW_UID_HI => n (Config.fuseUid.toNat / 2 ^ 32)
  | .FUSE_STAT => n (2 ^ 31)
  | .FUSE_QPOS => n (Config.fuseQpos x.q).toNat
  | .FUSE_KHASH => n (Config.fuseKhash x.i).toNat
  | .CLK_ID => n x.q
  | .DSP_ID => n x.q
  | .EVT_ID => n x.q
  | .HIF_ID => n (2 * x.q * 4 + x.q)
  | .QE_ID => n x.q
  | .MSQ_ID => n x.q
  | .TET_ID => n (16 * x.q * 4 + x.q)
  | .CAL_ID => n x.q
  | .FLS_ID => n x.q
  | .DBG_ID => n x.q
  | .BR_ID =>
    -- page 0 is the east–west bridge, page 1 the north–south bridge of the owning quarter (LEAP-1)
    let lo := if x.q = 0 then 0 else if x.i = 0 then 2 else 1
    let hi := if x.q = 0 then (if x.i = 0 then 1 else 2) else 3
    n (hi * 16 + lo * 4 + x.i)
  | .BLK_ID => n (x.i * 2 ^ 24 + 0x01 * 2 ^ 16 + blkSize x.i * 256 + x.q)
  | .FN_ID => n x.i
  | .FN_MSIX => n (if x.k = 3 then 1 else 0)
  | _ => n x.r.desc.rst

/-! ### Registers -/

/-- The order of register names in the register file: by name, quarter, and indices. -/
def rkeyLt (a b : RKey) : Bool :=
  if a.r.ctorIdx ≠ b.r.ctorIdx then decide (a.r.ctorIdx < b.r.ctorIdx)
  else if a.q ≠ b.q then decide (a.q < b.q)
  else if a.i ≠ b.i then decide (a.i < b.i)
  else if a.j ≠ b.j then decide (a.j < b.j)
  else decide (a.k < b.k)

/-- The register named `r` of quarter `q` with its indices. -/
def R.at (r : R) (q : Nat) (i j k : Nat := 0) : RKey := ⟨r, q, i, j, k⟩

/-- Read a register. -/
def Dev.reg (d : Dev) (x : RKey) : Word := aget (regReset x) d.regs x

/-- Write a register as the hardware does. -/
def Dev.setReg (d : Dev) (x : RKey) (v : Word) : Dev :=
  { d with regs := aset rkeyLt (regReset x) d.regs x v }

/-- A register as a number. -/
def Dev.regN (d : Dev) (x : RKey) : Nat := (d.reg x).toNat

/-- Write a register with a number. -/
def Dev.setRegN (d : Dev) (x : RKey) (v : Nat) : Dev := d.setReg x (BitVec.ofNat 64 v)

/-- Read a field. -/
def Dev.fld (d : Dev) (f : Field) (q : Nat) (i j k : Nat := 0) : Nat :=
  getBits (d.reg (f.reg.at q i j k)) f.hi f.lo

/-- Write a field. -/
def Dev.setFld (d : Dev) (f : Field) (v : Nat) (q : Nat) (i j k : Nat := 0) : Dev :=
  d.setReg (f.reg.at q i j k) (putBits (d.reg (f.reg.at q i j k)) f.hi f.lo v)

/-- A one-bit field as a Bool. -/
def Dev.flag (d : Dev) (f : Field) (q : Nat) (i j k : Nat := 0) : Bool := d.fld f q i j k != 0

/-- Bit `b` of a register, set or cleared. -/
def Dev.setBit (d : Dev) (x : RKey) (b : Nat) (v : Bool) : Dev := d.setReg x (putBits (d.reg x) b b (b2n v))

/-- Add 1 to a counter, which stops at the top of its width (00 R14, RC counters that saturate). -/
def Dev.bumpTo (d : Dev) (x : RKey) (top : Nat) : Dev := d.setRegN x (satAdd (d.regN x) 1 top)

/-- Add 1 to a 32-bit counter that saturates. -/
def Dev.bump (d : Dev) (x : RKey) : Dev := d.bumpTo x 0xFFFFFFFF

/-- Return every register of a block of a quarter to its reset value. -/
def Dev.resetBlk (d : Dev) (q : Nat) (b : Blk) : Dev :=
  { d with regs := d.regs.filter (fun e => !(decide (e.1.q = q) && decide (e.1.r.desc.blk = b))) }

/-- Return the registers that satisfy `p` to their reset values. -/
def Dev.resetRegs (d : Dev) (p : RKey → Bool) : Dev :=
  { d with regs := d.regs.filter (fun e => !p e.1) }

/-! ### Event sources (12 R340) -/

/-- One occurrence of local source `s` of quarter `q`: the occurrence latch is set. A number that belongs to no
source is never raised (R337). -/
def Dev.raise (d : Dev) (q s : Nat) : Dev :=
  if sourceExists q s then { d with occ := nset false d.occ (q * 1536 + s) true } else d

/-! ### First-record logs (20 R542) -/

/-- Write a record into a first-record log: VALID is bit 63, OVF bit 62; a held record is kept and OVF set. -/
def Dev.logFirst (d : Dev) (x : RKey) (rcd : Nat) : Dev :=
  if (d.reg x).getLsbD 63 then d.setBit x 62 true
  else d.setRegN x (2 ^ 63 + rcd % 2 ^ 62 + (if (d.reg x).getLsbD 62 then 2 ^ 62 else 0))

/-! ### Watermarks (12 R347) -/

/-- The four registers of a watermark and the offset of its source. -/
structure Wm where
  lvl : R
  hi : R
  lo : R
  st : R
  deriving DecidableEq, Repr

/-- The watermarks of the chip. -/
def wmTmem : Wm := ⟨.TMEM_CE_LEVEL, .TMEM_CE_HI, .TMEM_CE_LO, .TMEM_CE_STATUS⟩
/-- Corrected context entries of a cluster. -/
def wmCtx : Wm := ⟨.CTX_CE_LEVEL, .CTX_CE_HI, .CTX_CE_LO, .CTX_CE_STATUS⟩
/-- The ready lists of a dispatch slice. -/
def wmRdy : Wm := ⟨.DSP_RDY_LEVEL, .DSP_RDY_HI, .DSP_RDY_LO, .DSP_RDY_STATUS⟩
/-- The delay list of a dispatch slice. -/
def wmDly : Wm := ⟨.DSP_DLY_LEVEL, .DSP_DLY_HI, .DSP_DLY_LO, .DSP_DLY_STATUS⟩
/-- Corrected words of a home bank. -/
def wmBnk : Wm := ⟨.BNK_CE_LEVEL, .BNK_CE_HI, .BNK_CE_LO, .BNK_CE_STATUS⟩
/-- A queue pair's ring. -/
def wmQp : Wm := ⟨.QP_WM_LEVEL, .QP_WM_HI, .QP_WM_LO, .QP_WM_STATUS⟩
/-- A media completion ring. -/
def wmRing : Wm := ⟨.MSQ_RWM_LEVEL, .MSQ_RWM_HI, .MSQ_RWM_LO, .MSQ_RWM_STATUS⟩

/-- Compare LEVEL with HI and LO, and make the crossing if there is one (R347). `src` is the local source. Gives
the new state and whether a crossing was made. -/
def Dev.wmCheck (d : Dev) (w : Wm) (q src : Nat) (i j : Nat := 0) : Dev × Bool :=
  let lvl := d.regN (w.lvl.at q i j)
  let hi := d.regN (w.hi.at q i j)
  let lo := d.regN (w.lo.at q i j)
  let st := d.reg (w.st.at q i j)
  if st.getLsbD 31 = false ∧ hi ≤ lvl then
    let st1 := putBits (putBits st 31 31 1) 30 30 1
    ((d.setReg (w.st.at q i j) (putBits st1 7 0 (satAdd (getBits st1 7 0) 1 255))).raise q src, true)
  else if st.getLsbD 31 = true ∧ lvl ≤ lo then
    ((d.setReg (w.st.at q i j) (putBits (putBits st 31 31 0) 29 29 1)).raise q src, true)
  else (d, false)

/-- Set LEVEL of a level watermark and compare (R347). -/
def Dev.wmSet (d : Dev) (w : Wm) (q src v : Nat) (i j : Nat := 0) : Dev :=
  ((d.setRegN (w.lvl.at q i j) v).wmCheck w q src i j).1

/-- Count one occurrence in a counting watermark and compare (R347). -/
def Dev.wmCount (d : Dev) (w : Wm) (q src : Nat) (i j : Nat := 0) : Dev :=
  ((d.bump (w.lvl.at q i j)).wmCheck w q src i j).1

/-! ### Answers and refused accesses (20 R549–R552, 00 R14, R16) -/

/-- Answer an access. -/
def Dev.answer (d : Dev) (c : RespCode) (v : Word) : Dev := { d with out := { d.out with code := c, data := v, burst := [] } }

/-- Answer a read of several words. -/
def Dev.answerBurst (d : Dev) (c : RespCode) (ws : List Word) : Dev :=
  { d with out := { d.out with code := c, data := ws.headD 0, burst := ws } }

/-- A message leaves the chip. -/
def Dev.send (d : Dev) (m : OutMsg) : Dev := { d with out := { d.out with msgs := d.out.msgs ++ [m] } }

/-- The access-error kinds of FLT-4. -/
inductive AErr where
  | narrowRead | narrowWrite | unalignedRead | unalignedWrite | locked | reserved | refused | source | burst
  deriving DecidableEq, Repr

/-- The number of a kind (FLT-4). -/
def AErr.code : AErr → Nat
  | .narrowRead => 1
  | .narrowWrite => 2
  | .unalignedRead => 3
  | .unalignedWrite => 4
  | .locked => 5
  | .reserved => 6
  | .refused => 7
  | .source => 8
  | .burst => 9

/-- The quarter whose fault page records an error of the always-on block: that of the live domain (R552). -/
def Dev.liveQ (d : Dev) : Nat := d.fld F.AO_STATUS_LIVE 0

/-- ACCESS_ERR (R552): count, log the first record, raise source 0x055 when VALID changes from 0 to 1. -/
def Dev.accessErr (d : Dev) (k : AErr) (q mid : Nat) (write : Bool) (sizeLog off : Nat) (ao : Bool) : Dev :=
  let fq := if ao then d.liveQ else q
  let rcd := k.code * 2 ^ 58 + b2n write * 2 ^ 57 + sizeLog % 4 * 2 ^ 55 + b2n ao * 2 ^ 54
    + mid % 4096 * 2 ^ 24 + off % 2 ^ 24
  let d1 := d.bump (R.FLT_AERR_CNT.at fq)
  let was := (d.reg (R.FLT_AERR_LOG.at fq)).getLsbD 63
  let d2 := d1.logFirst (R.FLT_AERR_LOG.at fq) rcd
  if was then d2 else d2.raise fq 0x055

/-- Offset of a block in a quarter's register space (REG-1); the always-on block has its own space. -/
def Blk.base : Blk → Nat
  | .SYS => 0x000000
  | .FUSE => 0x010000
  | .CLK => 0x020000
  | .RST => 0x030000
  | .PWR => 0x040000
  | .EVT => 0x050000
  | .DSP => 0x060000
  | .MBX => 0x070000
  | .NOC => 0x080000
  | .LEAP => 0x090000
  | .HBM => 0x0A0000
  | .SCC => 0x0C0000
  | .WIN => 0x0D0000
  | .HIF => 0x100000
  | .QE => 0x140000
  | .MSQ => 0x180000
  | .TET => 0x200000
  | .NPH => 0x210000
  | .CAL => 0x220000
  | .CORE => 0x240000
  | .BNK => 0x250000
  | .FLS => 0x260000
  | .SER => 0x270000
  | .DBG => 0x280000
  | .ARY => 0x300000
  | .SEN => 0x400000
  | .AO => 0
  | .HDR => 0
  | .FN => 0
  | .DB => 0
  | .DW => 0

/-- The offset of a register in its quarter's register space, or in the always-on block (R607, R608). -/
def RKey.offset (x : RKey) : Nat :=
  x.r.desc.blk.base + x.r.desc.off + x.i * x.r.desc.si + x.j * x.r.desc.sj + x.k * x.r.desc.sk

/-- The code of a response in NOC_ERR_LOG. -/
def RespCode.num : RespCode → Nat
  | .okay => 0
  | .collided => 1
  | .slverr => 2
  | .decerr => 3

/-- NOC_ERR_LOG of quarter `q` (R261): the first failed request at its targets. -/
def Dev.nocErr (d : Dev) (q mid addr : Nat) (c : RespCode) : Dev :=
  d.logFirst (R.NOC_ERR_LOG.at q) (c.num % 4 * 2 ^ 60 + mid % 4096 * 2 ^ 48 + addr % 2 ^ 48)

/-- The device address of a register (MEM-1, R607, R613). -/
def RKey.addr (x : RKey) : Nat :=
  if x.r.desc.blk = .AO then 0xF004000000 + x.offset else 0xF000000000 + x.q * 2 ^ 24 + x.offset

/-- A register access that its target answers SLVERR, and records in NOC_ERR_LOG (R261). Function pages, doorbell pages
and Dweaz have no device address (R607), so nothing is recorded of them. -/
def Dev.slverr (d : Dev) (m : Mst) (x : RKey) : Dev :=
  let d1 := match x.r.desc.blk with
    | .FN => d
    | .DB => d
    | .DW => d
    | .AO => d.nocErr d.liveQ m.mid x.addr .slverr
    | _ => d.nocErr x.q m.mid x.addr .slverr
  d1.answer .slverr 0

/-- A write to a register by a master that MEM-1 does not allow: SLVERR, recorded in NOC_ERR_LOG (R249, R261). -/
def Dev.denyOid (d : Dev) (m : Mst) (x : RKey) : Dev := d.slverr m x

/-- A write that its rule refuses: dropped, logged with the kind, answered SLVERR on the NoC (00 R14, 20 R552). -/
def Dev.refuseAs (d : Dev) (m : Mst) (x : RKey) (k : AErr) : Dev :=
  (d.accessErr k x.q m.mid true (if x.r.desc.wide then 3 else 2) x.offset (decide (x.r.desc.blk = .AO))).slverr m x

/-- A write that its block's rule refuses (kind REFUSED). -/
def Dev.refuse (d : Dev) (m : Mst) (x : RKey) : Dev := d.refuseAs m x .refused

/-- A write from a master that the register does not allow (kind SOURCE). -/
def Dev.refuseSource (d : Dev) (m : Mst) (x : RKey) : Dev := d.refuseAs m x .source

/-- Log an access error of a write that is answered OKAY all the same (R16, R619). -/
def Dev.logWrite (d : Dev) (m : Mst) (x : RKey) (k : AErr) : Dev :=
  d.accessErr k x.q m.mid true (if x.r.desc.wide then 3 else 2) x.offset (decide (x.r.desc.blk = .AO))

/-- A write that was performed. -/
def Dev.okay (d : Dev) : Dev := d.answer .okay 0

/-- The LOCK bit of the block that holds a register (24 R610, R611). -/
def Dev.locked (d : Dev) (b : Blk) (q : Nat) : Bool :=
  (d.reg (R.BLK_LOCK.at (if b = .AO then 0 else q) (if b = .AO then 0xF0 else b.base / 65536))).getLsbD 0

/-- A failed boot asserts CONF_ERR with its code and ends (18 R508); only while the boot runs. -/
def Dev.confErr (d : Dev) (code : Nat) : Dev :=
  if d.fld F.AO_STATUS_CONF 0 = 0 then
    { (d.setFld F.AO_STATUS_CONF 2 0).setFld F.AO_STATUS_CODE code 0 with boot := { d.boot with on := false } }
  else d

/-- What a unit that a system halt stops would do: nothing while the system is halted (21 DBG-6). -/
def Dev.unlessHalted (d d' : Dev) : Dev := if d.sysHalt then d else d'

/-- The same for a request on the NoC, which runs in a halt for the debug port's own accesses (21 R568). -/
def Dev.unlessHaltedFor (d : Dev) (m : Mst) (d' : Dev) : Dev := if d.sysHalt ∧ m.mid ≠ 0x4C0 then d else d'

/-! ### Wall time (02 R29, R60) -/

/-- The ACLK at hand: 64 to a tick, and in an executing tick one for each cycle (assumption 122: while a tick executes
nothing the model shows no ACLK but its first). -/
def Clk.aclk (k : Clk) : Nat := 64 * k.tick + (if k.runs then k.cyc else 0)

/-- Whether a device address lies in a quarter's register space (09 MEM-1). -/
def isQReg (a : Nat) : Bool := decide (0xF000000000 ≤ a ∧ a < 0xF004000000)

/-- Whether a device address lies in the always-on block. -/
def isAo (a : Nat) : Bool := decide (0xF004000000 ≤ a ∧ a < 0xF005000000)

/-! ### Device memory (09 R249): bytes by device address -/

/-- What a byte of device memory that nothing has written reads as: boot flash reads erased (18 R504), every other
memory 0 (assumption 6). -/
def memDflt (a : Nat) : Byte := if 0xF800000000 ≤ a ∧ a < 0xF801000000 then 0xFF else 0

/-- Read one byte. -/
def Dev.byte (d : Dev) (a : Nat) : Byte := aget (memDflt a) d.mem a

/-- Write one byte. -/
def Dev.setByte (d : Dev) (a : Nat) (v : Byte) : Dev := { d with mem := aset natLt (memDflt a) d.mem a v }

/-- The memory form: addresses strictly rising, no entry equal to what an unlisted address reads as. -/
def Memory.wf : List Host.Cell → Bool
  | [] => true
  | (a, v) :: r => decide (v ≠ memDflt a) && r.all (fun e => decide (a < e.1)) && Memory.wf r

/-- `n` bytes from address `a`, lowest first. -/
def Dev.bytes (d : Dev) (a : Nat) : Nat → List Byte
  | 0 => []
  | n + 1 => d.byte a :: d.bytes (a + 1) n

/-- Write bytes from address `a` up. -/
def Dev.setBytes (d : Dev) (a : Nat) : List Byte → Dev
  | [] => d
  | b :: bs => (d.setByte a b).setBytes (a + 1) bs

/-- Bytes as a number, little-endian (00 R11). -/
def leNat : List Byte → Nat
  | [] => 0
  | b :: bs => b.toNat + 256 * leNat bs

/-- A number as `n` bytes, little-endian. -/
def leBytes (v : Nat) : Nat → List Byte
  | 0 => []
  | n + 1 => BitVec.ofNat 8 (v % 256) :: leBytes (v / 256) n

/-- Read a word of `n` bytes. -/
def Dev.memN (d : Dev) (a n : Nat) : Nat := leNat (d.bytes a n)

/-- Write a word of `n` bytes. -/
def Dev.setMemN (d : Dev) (a n v : Nat) : Dev := d.setBytes a (leBytes v n)

/-- Zero `n` bytes from `a`: they leave the list where 0 is what they read as. -/
def Dev.zeroMem (d : Dev) (a n : Nat) : Dev :=
  { d with mem := d.mem.filter (fun e => !(decide (a ≤ e.1) && decide (e.1 < a + n))) }

/-! ### Free values -/

/-- Draw a fresh free value: nothing constrains it. -/
def Dev.fresh (d : Dev) : Word × Dev := (Config.freeWord d.free, { d with free := d.free + 1 })

/-! ### Tiles and their register pages (06 R158, 05 R156) -/

/-- SHIFT_COL of a cluster. -/
def Dev.shiftCol (d : Dev) (c : Nat) : Nat := d.fld F.CLU_STAT_SHIFT_COL (quarterOf c) (localOf c)

/-- The physical column that serves logical column `j` of cluster `c` (R158). -/
def Dev.physCol (d : Dev) (c j : Nat) : Nat := if j < d.shiftCol c then j else j + 1

/-- The register page of a tile number: quarter, local cluster, page (R156). -/
def Dev.pageOf (d : Dev) (T : Nat) : Nat × Nat × Nat :=
  let c := tileCluster T
  let t := tileLogical T
  (quarterOf c, localOf c, t / 8 * 9 + d.physCol c (t % 8))

/-- A register of a tile's page. -/
def Dev.tileReg (d : Dev) (T : Nat) (r : R) (k : Nat := 0) : RKey :=
  let p := d.pageOf T
  r.at p.1 p.2.1 p.2.2 k

/-- The register of a cluster's page. -/
def cluReg (c : Nat) (r : R) (j k : Nat := 0) : RKey := r.at (quarterOf c) (localOf c) j k

end Sys2Proof.Machine
end

