-- ==== Sys2Proof/Machine/Positions.lean ====
section
/-! DEFINITION. Slots as the array sees them: positions, residue classes, footprints, frames, port bindings, borders,
and the fence, context-error and frame-error records of a cluster. -/

namespace Sys2Proof.Machine

/-! ### Classes and positions (02 R33–R37, 06 R163–R166) -/

/-- The stride of a STRIDE code. -/
def strideOf (code : Nat) : Nat := if code = 0 then 1 else if code = 1 then 2 else 4

/-- Whether two residue classes intersect (R34). -/
def classesMeet (s1 f1 s2 f2 : Nat) : Bool := f1 % Nat.min s1 s2 == f2 % Nat.min s1 s2

/-- POS_CFG of position `p` of cluster `c`. -/
def Dev.pos (d : Dev) (c p : Nat) : Word := d.reg (cluReg c .POS_CFG p)

/-- Whether position `p` of cluster `c` is defined. -/
def Dev.posValid (d : Dev) (c p : Nat) : Bool := (d.pos c p).getLsbD 31

/-- The stride and the phase of a defined position. -/
def Dev.posClass (d : Dev) (c p : Nat) : Nat × Nat := (strideOf (getBits (d.pos c p) 25 24), getBits (d.pos c p) 21 20)

/-- The global slot ID that a defined position serves. -/
def Dev.posSlot (d : Dev) (c p : Nat) : Nat := getBits (d.pos c p) 7 0

/-- Whether a defined position owns context index `k` (R33). -/
def Dev.posOwns (d : Dev) (c p k : Nat) : Bool := d.posValid c p && k % (d.posClass c p).1 == (d.posClass c p).2

/-- The position that owns index `k` in cluster `c`, if any (R36, R98). -/
def Dev.ownerAt (d : Dev) (c k : Nat) : Option Nat := (upTo 4).find? (fun p => d.posOwns c p k)

/-- Every defined position of the chip, as cluster and position. -/
def Dev.positions (d : Dev) : List (Nat × Nat) :=
  d.regs.filterMap (fun e =>
    if e.1.r = .POS_CFG ∧ e.2.getLsbD 31 = true then some (clusterOf e.1.q e.1.i, e.1.j) else none)

/-- A register of the slot block of global slot ID `s`, in its anchor cluster s div 4 at position s mod 4. -/
def slotReg (s : Nat) (r : R) (k : Nat := 0) : RKey := cluReg (s / 4) r (s % 4) k

/-- The clusters of a slot's footprint, ascending. -/
def Dev.footprint (d : Dev) (s : Nat) : List Nat := onesOf (d.regN (slotReg s .SLOT_FOOT)) 64

/-- The position of slot `s` in footprint cluster `c` (SLOT_MAP). -/
def Dev.posIn (d : Dev) (s c : Nat) : Nat :=
  getBits (d.reg (slotReg s .SLOT_MAP (c / 16))) (2 * (c % 16) + 1) (2 * (c % 16))

/-- STATE of slot `s` (SLOT-2). -/
def Dev.slotState (d : Dev) (s : Nat) : Nat := getBits (d.reg (slotReg s .SLOT_STAT)) 3 0

/-- STATE codes of SLOT-2. -/
abbrev stUndefined : Nat := 0
/-- Defined, contents not verified. -/
abbrev stStopped : Nat := 1
/-- Defined, loaded and verified. -/
abbrev stTadpole : Nat := 2
/-- Executing frames. -/
abbrev stLive : Nat := 3
/-- A stop is pending. -/
abbrev stStopping : Nat := 4
/-- Held for a regrowth. -/
abbrev stPaused : Nat := 5
/-- A molt is in progress. -/
abbrev stMolting : Nat := 6

/-- Put STATE of slot `s` into SLOT_STAT and into POS_CFG of every footprint cluster (R166). -/
def Dev.setSlotState (d : Dev) (s st : Nat) : Dev :=
  let d1 := d.setReg (slotReg s .SLOT_STAT) (putBits (d.reg (slotReg s .SLOT_STAT)) 3 0 st)
  (d.footprint s).foldl (fun a c =>
    a.setReg (cluReg c .POS_CFG (d.posIn s c)) (putBits (a.reg (cluReg c .POS_CFG (d.posIn s c))) 19 16 st)) d1

/-- The control record of slot `s`. -/
def Dev.ctl (d : Dev) (s : Nat) : SlotCtl := nget SlotCtl.zero d.arr.slots s

/-- Write the control record of slot `s`. -/
def Dev.setCtl (d : Dev) (s : Nat) (x : SlotCtl) : Dev :=
  { d with arr := { d.arr with slots := nset SlotCtl.zero d.arr.slots s x } }

/-- The frame of slot `s`. -/
def Dev.frame (d : Dev) (s : Nat) : Frame := nget Frame.none d.arr.frames s

/-- Write the frame of slot `s`. -/
def Dev.setFrame (d : Dev) (s : Nat) (f : Frame) : Dev :=
  { d with arr := { d.arr with frames := nset Frame.none d.arr.frames s f } }

/-- "Live" for the rules that protect a slot's contents (R167): LIVE, STOPPING, PAUSED, MOLTING, or a START in
progress. -/
def Dev.slotLive (d : Dev) (s : Nat) : Bool :=
  decide (stLive ≤ d.slotState s) || decide ((d.ctl s).busy = .starting)

/-- The slot at position `p` of cluster `c` is live under R167; an undefined position is not. -/
def Dev.posLive (d : Dev) (c p : Nat) : Bool := d.posValid c p && d.slotLive (d.posSlot c p)

/-- Whether position `p` of cluster `c` belongs to a slot anchored elsewhere (R188). -/
def Dev.posMember (d : Dev) (c p : Nat) : Bool := d.posValid c p && !(d.pos c p).getLsbD 30

/-- F, P and E of a slot. -/
def Dev.slotF (d : Dev) (s : Nat) : Nat := getBits (d.reg (slotReg s .SLOT_FRAME)) 15 0
/-- Prologue rounds. -/
def Dev.slotP (d : Dev) (s : Nat) : Nat := getBits (d.reg (slotReg s .SLOT_FRAME)) 31 16
/-- Epilogue rounds. -/
def Dev.slotE (d : Dev) (s : Nat) : Nat := getBits (d.reg (slotReg s .SLOT_FRAME)) 47 32

/-- Mark the open frame of slot `s` to end with FRAME_ERROR at the next executed round boundary (R55). -/
def Dev.frameErr (d : Dev) (s : Nat) : Dev :=
  if (d.frame s).isOpen then d.setFrame s { d.frame s with err := true } else d

/-! ### Port bindings (06 R176–R178, 05 R135) -/

/-- A binding of a port position. -/
structure Bind where
  leap : Bool
  idx : Nat
  out : Bool
  pos : Nat
  bridge : Nat
  count : Nat
  deriving DecidableEq, Repr

/-- The binding that a VP_CFG or LPB value states. -/
def bindOf (leap : Bool) (idx : Nat) (w : Word) : Bind :=
  ⟨leap, idx, w.getLsbD 62, getBits w 61 60, getBits w 33 33, if leap then getBits w 4 0 else getBits w 9 0⟩

/-- Whether a VP_CFG or LPB value is a binding in force of logical tile `t`, port position `tp`. -/
def bindsTile (w : Word) (t tp : Nat) : Bool := w.getLsbD 63 && getBits w 53 48 == t && getBits w 40 40 == tp

/-- The binding of port position `tp` of logical tile `t` of cluster `c`. -/
def Dev.tpBind (d : Dev) (c t tp : Nat) : Option Bind :=
  match (upTo 16).find? (fun n => bindsTile (d.reg (cluReg c .VP_CFG n)) t tp) with
  | some n => some (bindOf false n (d.reg (cluReg c .VP_CFG n)))
  | none =>
    match (upTo 8).find? (fun n => bindsTile (d.reg (cluReg c .LPB n)) t tp) with
    | some n => some (bindOf true n (d.reg (cluReg c .LPB n)))
    | none => none

/-- The record of port position `tp` of tile number `T`. -/
def Dev.tport (d : Dev) (T tp : Nat) : TPort := nget TPort.zero d.arr.tports (T * 2 + tp)

/-- Write the record of a port position. -/
def Dev.setTport (d : Dev) (T tp : Nat) (x : TPort) : Dev :=
  { d with arr := { d.arr with tports := nset TPort.zero d.arr.tports (T * 2 + tp) x } }

/-- VP_CFG of a global port number c·16 + n (R159). -/
def Dev.vpCfg (d : Dev) (vp : Nat) : Word := d.reg (cluReg (vp / 16) .VP_CFG (vp % 16))

/-- The tile number and port position that a vertical port is bound to. -/
def Dev.vpTile (d : Dev) (vp : Nat) : Nat × Nat :=
  (tileOf (vp / 16) (getBits (d.vpCfg vp) 53 48), getBits (d.vpCfg vp) 40 40)

/-- The base-side FIFO of a vertical port, behind what its head stage has drawn. -/
def Dev.fifo (d : Dev) (vp : Nat) : List FEl := nget [] d.arr.fifos vp

/-- Write a base-side FIFO. -/
def Dev.setFifo (d : Dev) (vp : Nat) (l : List FEl) : Dev :=
  { d with arr := { d.arr with fifos := nset [] d.arr.fifos vp l } }

/-- Words of a FIFO list, its marks left out. -/
def fifoWords (l : List FEl) : Nat := (l.filter (fun e => decide (e ≠ .eos))).length

/-- The committed level of a vertical port: FIFO, elements in transit and head stage (R136, R266). -/
def Dev.vpLevel (d : Dev) (vp : Nat) : Nat :=
  let t := d.vpTile vp
  let stage := if (d.vpCfg vp).getLsbD 63 then (d.tport t.1 t.2).head.length + (d.tport t.1 t.2).transit.length else 0
  fifoWords (d.fifo vp) + stage

/-- Whether the FIFO of a vertical port holds an end-of-stream mark (R267). -/
def Dev.vpMark (d : Dev) (vp : Nat) : Bool := (d.fifo vp).any (fun e => decide (e = .eos))

/-- The elements of a list ahead of its first mark, and the rest from the mark on. -/
def aheadOfMark : List FEl → List Word × List FEl
  | [] => ([], [])
  | .eos :: r => ([], .eos :: r)
  | .word w :: r => (w :: (aheadOfMark r).1, (aheadOfMark r).2)

/-! ### Borders (05 R126, R129; 06 R161) -/

/-- The tile next to tile number `T` in direction `b` (0 N, 1 E, 2 S, 3 W), within its quarter. -/
def neighbour (T b : Nat) : Option Nat :=
  let x := T % 64
  let y := T / 64
  if b = 0 then (if y % 32 = 0 then none else some (T - 64))
  else if b = 1 then (if x % 32 = 31 then none else some (T + 1))
  else if b = 2 then (if y % 32 = 31 then none else some (T + 64))
  else (if x % 32 = 0 then none else some (T - 1))

/-- The lane on which a neighbour sends what arrives as lane `i`: lanes in the order N0 N1 E0 E1 S0 S1 W0 W1. -/
def oppLane (i : Nat) : Nat := (i + 4) % 8

/-- Whether border `b` of cluster `c` passes lanes for position `p`, and the neighbour's position (ISO_STAT). -/
def Dev.isoPass (d : Dev) (c b p : Nat) : Option Nat :=
  let w := d.reg (cluReg c .ISO_STAT)
  if w.getLsbD (16 * b + 4 * p + 3) then some (getBits w (16 * b + 4 * p + 1) (16 * b + 4 * p)) else none

/-- Copy `p` of the hop register of outgoing lane `i` of tile `T`. -/
def Dev.hopOf (d : Dev) (T p i : Nat) : Word := nget 0 d.arr.hop ((T * 4 + p) * 8 + i)

/-- What position `p` of tile `T` reads on incoming lane `i`: nothing where no neighbour or no pass is (R129). -/
def Dev.laneIn (d : Dev) (T p i : Nat) : Option Word :=
  match neighbour T (i / 2) with
  | none => none
  | some N =>
    if tileCluster N = tileCluster T then some (d.hopOf N p (oppLane i))
    else match d.isoPass (tileCluster T) (i / 2) p with
      | none => none
      | some _ => some (nget 0 d.arr.iso ((T * 4 + p) * 8 + i))

/-! ### Tile memory and its owners (05 R143, R149) -/

/-- The device address of word `w` of bank `b` of tile number `T` (R143). -/
def tmemAddr (T b w : Nat) : Nat := 0x8000000000 + T * 0x10000 + b * 0x4000 + w * 8

/-- The owner position of bank `b` of tile `T`, none while it molts (R149, R150). -/
def Dev.bankOwner (d : Dev) (T b : Nat) : Option Nat :=
  let own := getBits (d.reg (d.tileReg T .TMEM_OWN)) (4 * b + 3) (4 * b)
  if own < 8 ∨ (d.reg (d.tileReg T .TMEM_STAT)).getLsbD b then none else some (own % 4)

/-! ### Records of a cluster -/

/-- A load in progress of slot `s` will fail with result `code`: it writes no more, and a FULL load's record is PARTIAL from
then on (08 IMG-13). -/
def Dev.loadHit (d : Dev) (s code : Nat) : Dev :=
  match nget none d.loading s with
  | none => d
  | some l =>
    if l.code ≠ 0 then d
    else
      let d1 := { d with loading := nset none d.loading s (some { l with code := code }) }
      if l.mode = 0 then { d1 with loads := nset LoadRec.none d1.loads s ⟨1, 0, [], []⟩ } else d1

/-- Another master has written a binding of slot `s` while a load is in progress (08 IMG-13). -/
def Dev.loadBound (d : Dev) (s : Nat) : Dev :=
  match nget none d.loading s with
  | none => d
  | some l => { d with loading := nset none d.loading s (some { l with bound := true }) }

/-- CUR of power domain `i` of quarter `q`: 0 ON, 1 BASK, 2 OFF (19 PWR-12). -/
def Dev.domCur (d : Dev) (q i : Nat) : Nat := d.fld F.PWR_DOM_CUR q i

/-- Whether quarter `q` is held in reset (19 R524). -/
def Dev.inReset (d : Dev) (q : Nat) : Bool := nget 0 d.qrst q != 0

/-- Raise cluster source `j` of cluster `c` (EVT-1). -/
def Dev.raiseClu (d : Dev) (c j : Nat) : Dev := d.raise (quarterOf c) (0x080 + localOf c * 4 + j)

/-- CTX_ILLEGAL (R93): counted, and raised; the occurrence latch holds one occurrence per round. -/
def Dev.ctxIllegal (d : Dev) (c n : Nat) : Dev :=
  if n = 0 then d
  else (d.setRegN (cluReg c .CTX_ILLEGAL_CNT)
    (satAdd (d.regN (cluReg c .CTX_ILLEGAL_CNT)) n 0xFFFFFFFF)).raiseClu c 0

/-- A SLOT_FENCE: who reached for what (R175). -/
structure Fence where
  tile : Nat
  switch : Bool
  cell : Nat
  k : Nat
  pos : Nat
  kind : Nat
  res : Nat
  deriving DecidableEq, Repr

/-- SLOT_FENCE (R175): count, log the first record, raise. -/
def Dev.slotFence (d : Dev) (c : Nat) (f : Fence) : Dev :=
  let rcd := f.pos % 4 * 2 ^ 60 + b2n f.switch * 2 ^ 58 + f.k % 64 * 2 ^ 50 + f.tile % 64 * 2 ^ 42
    + f.cell % 16 * 2 ^ 38 + f.kind % 8 * 2 ^ 35 + f.res % 256
  ((d.bump (cluReg c .FENCE_CNT)).logFirst (cluReg c .FENCE_LOG) rcd).raiseClu c 0

/-- Keys of the error marks of the stores of a tile: cell contexts, switch entries, sequencer words. -/
def eccCtx (T cell k : Nat) : Nat := ((T * 16 + cell) * 64 + k) * 4
/-- The mark of a switch entry. -/
def eccSw (T k : Nat) : Nat := (T * 64 + k) * 4 + 1
/-- The mark of a sequencer word. -/
def eccSeq (T k : Nat) : Nat := (T * 64 + k) * 4 + 2

/-- The mark of a stored entry. -/
def Dev.mark (d : Dev) (key : Nat) : Ecc := nget .ok d.arr.ecc key

/-- Write the mark of a stored entry. -/
def Dev.setMark (d : Dev) (key : Nat) (m : Ecc) : Dev :=
  { d with arr := { d.arr with ecc := nset .ok d.arr.ecc key m } }

/-- Whether a mark stops the use of the entry, and its syndrome. -/
def Ecc.bad : Ecc → Option Nat
  | .ue s => some s
  | .poison s => some s
  | _ => none

/-- Whether a mark is a single-bit error. -/
def Ecc.isCe : Ecc → Bool
  | .ce _ => true
  | .found _ => true
  | _ => false

/-- Whether a mark is a single-bit error that a read has found: its corrected word waits to be written back. -/
def Ecc.isFound : Ecc → Bool
  | .found _ => true
  | _ => false

/-- Whether a word is poisoned: a read has found it uncorrectable. -/
def Ecc.isPoison : Ecc → Bool
  | .poison _ => true
  | _ => false

/-- A mark after a read: a single-bit error is found. -/
def Ecc.seen : Ecc → Ecc
  | .ce s => .found s
  | m => m

/-- A corrected context entry, switch entry or sequencer word with mark `key` (R96, R155): the cluster's watermark counts
it, and the corrected entry waits to be written back. -/
def Dev.ctxCe (d : Dev) (c key : Nat) : Dev :=
  (d.wmCount wmCtx (quarterOf c) (0x080 + localOf c * 4 + 2) (localOf c)).setMark key (d.mark key).seen

/-- CTX_UE of a cell entry (CELL-15): logged, counted, raised, the entry poisoned, the frame marked. -/
def Dev.ctxUe (d : Dev) (c p t cell k s syn : Nat) : Dev :=
  let rcd := p % 4 * 2 ^ 60 + k % 64 * 2 ^ 54 + t % 64 * 2 ^ 48 + cell % 16 * 2 ^ 44 + syn % 256
  (((((d.setMark (eccCtx (tileOf c t) cell k) (.poison syn)).bump (cluReg c .CTX_UE_CNT)).logFirst
    (cluReg c .CTX_UE_LOG) rcd).raiseClu c 1).frameErr s)

/-- CTX_UE of a switch entry (unit 0) or a sequencer word (unit 1) (TILE-9). -/
def Dev.swUe (d : Dev) (c p t k s unit syn : Nat) : Dev :=
  let T := tileOf c t
  let rcd := unit % 2 * 2 ^ 61 + p % 4 * 2 ^ 59 + k % 64 * 2 ^ 32 + syn % (if unit = 0 then 1024 else 64)
  (((d.setMark (if unit = 0 then eccSw T k else eccSeq T k) (.poison syn)).logFirst (d.tileReg T .SW_UE_LOG)
    rcd).raiseClu c 1).frameErr s

/-- A corrected tile-memory read (R152). -/
def Dev.tmemCe (d : Dev) (T : Nat) : Dev :=
  let p := d.pageOf T
  d.wmCount wmTmem p.1 (0x080 + p.2.1 * 4 + 2) p.2.1 p.2.2

/-- TMEM_UE (R153, TILE-11): poison, count, log, raise. `src` is 0 for the array and 1 for the NoC. -/
def Dev.tmemUe (d : Dev) (T b w src syn : Nat) : Dev :=
  let own := getBits (d.reg (d.tileReg T .TMEM_OWN)) (4 * b + 1) (4 * b)
  let rcd := src % 2 * 2 ^ 61 + own * 2 ^ 59 + b % 4 * 2 ^ 48 + w % 2048 * 2 ^ 32 + syn % 256
  let d1 := { d with ecc := nset .ok d.ecc (tmemAddr T b w) (.poison syn) }
  ((d1.bump (d.tileReg T .TMEM_UE_CNT)).logFirst (d.tileReg T .TMEM_UE_LOG) rcd).raiseClu (tileCluster T) 1

/-- Read a tile-memory word (R152, R153): the word, none where it cannot be corrected, and the records made. -/
def Dev.tmemRead (d : Dev) (T b w src : Nat) : Option Word × Dev :=
  match nget Ecc.ok d.ecc (tmemAddr T b w) with
  | .ok => (some (BitVec.ofNat 64 (d.memN (tmemAddr T b w) 8)), d)
  | .ce syn => (some (BitVec.ofNat 64 (d.memN (tmemAddr T b w) 8)),
      { d.tmemCe T with ecc := nset .ok d.ecc (tmemAddr T b w) (.found syn) })
  | .found _ => (some (BitVec.ofNat 64 (d.memN (tmemAddr T b w) 8)), d.tmemCe T)
  | .ue syn => (none, d.tmemUe T b w src syn)
  | .poison syn => (none, d.tmemUe T b w src syn)

/-- Write a tile-memory word: valid check bits, so every mark of the word goes. -/
def Dev.tmemWrite (d : Dev) (T b w : Nat) (v : Word) : Dev :=
  let d1 := d.setMemN (tmemAddr T b w) 8 v.toNat
  { d1 with ecc := nset .ok d1.ecc (tmemAddr T b w) .ok }

/-- Molt a tile-memory bank: zero words with valid check bits (R150). -/
def Dev.tmemZero (d : Dev) (T b : Nat) : Dev :=
  let a := tmemAddr T b 0
  let d1 := d.zeroMem a 0x4000
  { d1 with ecc := ndrop d1.ecc (fun x => decide (a ≤ x) && decide (x < a + 0x4000)) }

/-- A collision on bank `b` of tile `T`: TMEM_CCNTb adds 1, to 65,535 (R146). -/
def Dev.tmemCollide (d : Dev) (T b : Nat) : Dev := d.bumpTo (d.tileReg T .TMEM_CCNT b) 0xFFFF

/-! ### Port B of a bank (05 R145–R147) -/

/-- Whether the array still has cycles to execute in the tick in progress. -/
def Clk.executing (k : Clk) : Bool := k.runs && decide (k.cyc < 64)

/-- The word that a flight writes to a bank, with the port it uses. -/
def Flight.stores (f : Flight) : Option (Nat × Bool × Word) :=
  match f.what with
  | .store T _ _ b w portA v => some (tmemAddr T b w, portA, v)
  | _ => none

/-- Whether cells use port B of a bank in array cycle `t`, for reads or for writes: fixed by what issued before (R147). -/
def Dev.cellOnB (d : Dev) (t : Nat) (write : Bool) (T b : Nat) : Bool :=
  d.arr.flight.any (fun f => decide (f.due = t) && (match f.what with
    | .store T' _ _ b' _ portA _ => write && !portA && decide (T' = T ∧ b' = b)
    | .load T' _ _ b' _ portA _ _ _ _ _ => !write && !portA && decide (T' = T ∧ b' = b)
    | _ => false))

/-- Whether port B of a bank is taken in the array cycle to come, by a cell or by a NoC access: never in a tick that
executes nothing (R147). -/
def Dev.portBusy (d : Dev) (k : Clk) (write : Bool) (T b : Nat) : Bool :=
  k.executing && (d.cellOnB k.dtime write T b || (if write then d.arr.nocW else d.arr.nocR).contains (T * 4 + b))

/-- The word that the cells store at an address in the array cycle to come, the port A store first (R145, R146). -/
def Dev.storeDue (d : Dev) (k : Clk) (a : Nat) (portA : Bool) : Option Word :=
  if k.executing then
    (d.arr.flight.filter (fun f => decide (f.due = k.dtime))).findSome? (fun f => match f.stores with
      | some x => if x.1 = a ∧ x.2.1 = portA then some x.2.2 else none
      | none => none)
  else none

/-- A NoC access takes port B of a bank in the array cycle to come. -/
def Dev.takeB (d : Dev) (k : Clk) (write : Bool) (T b : Nat) : Dev :=
  if k.executing then
    if write then { d with arr := { d.arr with nocW := (T * 4 + b) :: d.arr.nocW } }
    else { d with arr := { d.arr with nocR := (T * 4 + b) :: d.arr.nocR } }
  else d

/-- A NoC write of one word through port B in the array cycle to come: lost where a cell writes the word through port A in
it (R146). Gives whether it was lost. -/
def Dev.nocWrite (d : Dev) (k : Clk) (T b w : Nat) (v : Word) : Bool × Dev :=
  if (d.storeDue k (tmemAddr T b w) true).isSome then
    (true, (d.tmemCollide T b).setBit (d.tileReg T .TMEM_FLAGS) (4 + b) true)
  else (false, d.tmemWrite T b w v)

/-- A NoC read of one word through port B in the array cycle to come: a store of the cycle gives it the new data (R145). -/
def Dev.nocRead (d : Dev) (k : Clk) (T b w : Nat) : Option Word × Dev :=
  match d.storeDue k (tmemAddr T b w) true with
  | some v => (some v, d)
  | none => match d.storeDue k (tmemAddr T b w) false with
    | some v => (some v, d)
    | none => d.tmemRead T b w 1

/-! ### Cell registers -/

/-- Bank `p` of a cell of tile `T`. -/
def Dev.bank (d : Dev) (T cell p : Nat) : CellBank := nget CellBank.zero d.arr.banks ((T * 16 + cell) * 4 + p)

/-- Write a bank of a cell. -/
def Dev.setBank (d : Dev) (T cell p : Nat) (x : CellBank) : Dev :=
  { d with arr := { d.arr with banks := nset CellBank.zero d.arr.banks ((T * 16 + cell) * 4 + p) x } }

/-- The CSAT register and bit of a cell (06 SLOT-7). -/
def csatReg (c p t cell : Nat) : RKey := cluReg c .CSAT p ((t * 16 + cell) / 32)

end Sys2Proof.Machine
end

