-- ==== Sys2Proof/Machine/ArrayCycle.lean ====
section
/-! DEFINITION. One executed cycle of the array (02 R28–R44, 03 R94, 05 R127–R146): errors that strike stored words,
array writes and reads, completions, the contexts of the cycle's index, hop and isolation registers, push commits. -/

namespace Sys2Proof.Machine

/-! ### Errors that strike -/

/-- A bit error strikes a stored word: a sound word gets the error, a second error makes it uncorrectable. The model's
choice (assumption 119): a second single-bit error always makes the word uncorrectable, with the two syndromes combined by
exclusive or, also where both strike one bit. -/
def strike (m : Ecc) (u : Upset) : Ecc :=
  match m with
  | .poison s => .poison s
  | .ue s => .ue s
  | .ce s => .ue (s ^^^ u.syn)
  | .found s => .ue (s ^^^ u.syn)
  | .ok => if u.double then .ue u.syn else .ce u.syn

/-- Apply one error. -/
def Dev.upset (d : Dev) (u : Upset) : Dev :=
  match u.store with
  | .ctx => d.setMark (eccCtx u.tile u.cell u.idx) (strike (d.mark (eccCtx u.tile u.cell u.idx)) u)
  | .sw => d.setMark (eccSw u.tile u.idx) (strike (d.mark (eccSw u.tile u.idx)) u)
  | .seqw => d.setMark (eccSeq u.tile u.idx) (strike (d.mark (eccSeq u.tile u.idx)) u)
  | .tmem =>
    let a := tmemAddr u.tile u.cell u.idx
    { d with ecc := nset .ok d.ecc a (strike (nget .ok d.ecc a) u) }

/-! ### Array reads and writes, completions -/

/-- The write of a store in its array cycle (R144). A port B write to a word that port A writes in the same cycle is lost
(R146): `aw` are the words that port A writes. -/
def Dev.landStore (d : Dev) (aw : List Nat) (x : Land) : Dev :=
  match x with
  | .store T _ _ b w portA v =>
    if !portA && aw.contains (tmemAddr T b w) then
      ((d.tmemCollide T b).setBit (d.tileReg T .TMEM_FLAGS) b true).raiseClu (tileCluster T) 1
    else
      d.tmemWrite T b w v
  | _ => d

/-- The words that the stores of a cycle write through port A. -/
def portAWords (l : List Flight) : List Nat :=
  l.filterMap (fun f => match f.what with
    | .store T _ _ b w true _ => some (tmemAddr T b w)
    | _ => none)

/-- The completion of a cell operation: result, predicate and saturation from its lanes (R86, R90). -/
def cellLand (T cell b : Nat) (e : Entry) (red : Nat) (w : Nat) (ls : List LaneOut) : Land :=
  .cell T cell b e.dest (BitVec.ofNat 64 (laneRes w ls)) e.pwe e.pd (predOut red ls) (anySat ls)

/-- The array read of a load or a tap (R121, R144): read data to M and the result, one and two cycles on. -/
def Dev.landLoad (d : Dev) (t : Nat) (x : Land) : Dev :=
  match x with
  | .load T cell p b w _ ent bv cv rr part =>
    let e := entryOf ent
    let (rd, d1) := d.tmemRead T b w 0
    let d2 := match rd with
      | some _ => d1
      | none => d1.frameErr (d1.posSlot (tileCluster T) p)
    let u : Word := match rd with
      | some v => v
      | none => 0
    let o := opOf e.opcode
    let m := if o = some .ldr then ldrWord u rr part else u
    let fm : Flight := ⟨t + 1, t - 1, .mreg T p b m⟩
    let fc : Flight := if o = some .tapmv
      then ⟨t + 2, t - 1, cellLand T cell p e e.red (laneW e.width) (tapLanes e m bv cv)⟩
      else ⟨t + 1, t - 1, cellLand T cell p e e.red 64 [laneDflt m.toNat]⟩
    { d2 with arr := { d2.arr with flight := d2.arr.flight ++ [fm, fc] } }
  | _ => d

/-- Whether a flight is an array read through port A. -/
def isLoadA (f : Flight) : Bool :=
  match f.what with
  | .load _ _ _ _ _ a _ _ _ _ _ => a
  | _ => false

/-- Whether a flight is an array read through port B. -/
def isLoadB (f : Flight) : Bool :=
  match f.what with
  | .load _ _ _ _ _ a _ _ _ _ _ => !a
  | _ => false

/-- Whether a later flight of a list writes the same predicate (R44). -/
def pwLater (T cell p pd : Nat) (l : List Flight) : Bool :=
  l.any (fun f => match f.what with
    | .cell T' c' p' _ _ pwe pd' _ _ => decide (T' = T) && decide (c' = cell) && decide (p' = p) && pwe && decide (pd' = pd)
    | _ => false)

/-- An assertion of EXIT by slot `s` (R52): in BODY, the first effective one, at the second boundary from now. -/
def Dev.exitAssert (d : Dev) (s : Nat) : Dev :=
  let f := d.frame s
  if f.isOpen ∧ f.phase = .body ∧ f.exitAt = none ∧ f.round + 2 < d.slotF s - d.slotE s then
    d.setFrame s { f with exitAt := some (f.round + 2) }
  else d

/-- Whether SLOT_EXIT of slot `s` names this cell and predicate. -/
def Dev.isExit (d : Dev) (s T cell pd : Nat) : Bool :=
  let w := d.reg (slotReg s .SLOT_EXIT)
  w.getLsbD 31 && getBits w 21 16 == tileCluster T && getBits w 13 8 == tileLogical T && getBits w 7 4 == cell
    && getBits w 1 0 == pd

/-- A completion lands (R42, R94): destination, predicate, CSAT, EXIT. `later` are the flights that land in the same
cycle and issued later. -/
def Dev.landCell (d : Dev) (later : List Flight) (x : Land) : Dev :=
  match x with
  | .cell T cell p dest v pwe pd pr sat =>
    let c := tileCluster T
    let b := d.bank T cell p
    let b1 := if dest = 1 then b else { b with c := v }
    let b2 := if 8 ≤ dest then { b1 with l := nset 0 b1.l (dest - 8) v } else b1
    let b3 := if pwe then { b2 with p := setBitsN b2.p pd pd (b2n pr) } else b2
    let d1 := d.setBank T cell p b3
    let d2 := if sat then d1.setBit (csatReg c p (tileLogical T) cell) ((tileLogical T * 16 + cell) % 32) true else d1
    let s := d2.posSlot c p
    if pwe && pr && d2.posValid c p && d2.isExit s T cell pd && !pwLater T cell p pd later then d2.exitAssert s else d2
  | .mreg T p b v =>
    { d with arr := { d.arr with mreg := nset 0 d.arr.mreg ((T * 4 + p) * 4 + b) v } }
  | _ => d

/-- Land the completions of a cycle in issue order (R44). -/
def Dev.landAll (d : Dev) : List Flight → Dev
  | [] => d
  | f :: r => (d.landCell r f.what).landAll r

/-- A push commits to its FIFO: discarded when 512 elements stand there (R50, R138). -/
def Dev.landPush (d : Dev) (x : Land) : Dev :=
  match x with
  | .push vp v => if d.vpLevel vp < 512 then d.setFifo vp (d.fifo vp ++ [.word v]) else d
  | _ => d

/-! ### What the contexts of a cycle do -/

/-- An update of an address generator: a post-step, or AGW by a cell of one register. -/
inductive AgUpd where
  | post (T p n : Nat) (circ : Bool)
  | agw (T p n cell reg val : Nat)
  deriving DecidableEq, Repr

/-- What the contexts of one cycle have done so far: counters and logs in `d`, and what takes effect after every context
has read. -/
structure Acc2 where
  d : Dev
  fl : List Flight
  ag : List AgUpd
  held : List (Nat × Nat)
  pops : List (Nat × Nat × Nat)
  leap : List (Nat × Word)
  deriving DecidableEq, Repr

/-- Nothing done yet. -/
def Acc2.start (d : Dev) : Acc2 := ⟨d, [], [], [], [], []⟩

/-- Who executes: cluster, position, slot, logical tile, tile number, index, DTIME. -/
structure Who where
  c : Nat
  p : Nat
  s : Nat
  t : Nat
  T : Nat
  k : Nat
  now : Nat
  deriving DecidableEq, Repr

/-- A value read from a source, and the fence it met (kind and number). -/
structure SrcVal where
  v : Word
  fence : Option (Nat × Nat)
  deriving DecidableEq, Repr

/-- A plain value. -/
def srcOk (v : Word) : SrcVal := ⟨v, none⟩

/-- What port position `n` reads as V (R71, R136, R139): the oldest element of a head stage, the latest leap arrival. -/
def Dev.portVal (d : Dev) (w : Who) (n : Nat) : SrcVal :=
  match d.tpBind w.c w.t n with
  | none => ⟨0, some (1, n)⟩
  | some b =>
    if b.pos ≠ w.p then ⟨0, some (1, n)⟩
    else if b.out then srcOk 0
    else if b.leap then srcOk (d.tport w.T n).leapV
    else srcOk ((d.tport w.T n).head.headD 0)

/-- Read a source by its 6-bit code (CELL-2, R71–R74): `cell` reads its own registers, `e` gives IMM. -/
def Dev.readSrc (d : Dev) (w : Who) (cell : Nat) (e : Entry) (s : Src) : SrcVal :=
  match s with
  | .zero => srcOk 0
  | .imm => srcOk (immValue e)
  | .port n => d.portVal w n
  | .mem n => srcOk (nget 0 d.arr.mreg ((w.T * 4 + w.p) * 4 + n))
  | .loc n => srcOk (nget 0 (d.bank w.T cell w.p).l n)
  | .pred n => srcOk (if (d.bank w.T cell w.p).p.testBit n then BitVec.allOnes 64 else 0)
  | .laneIn i => match d.laneIn w.T w.p i with
    | some v => srcOk v
    | none => ⟨0, some (2, 0x18 + i)⟩
  | .cell n => srcOk (d.bank w.T n w.p).c
  | .reserved => srcOk 0

/-- Note the fence that a cell's read met. -/
def Acc2.note (a : Acc2) (w : Who) (cell : Nat) (x : SrcVal) : Acc2 :=
  match x.fence with
  | none => a
  | some (kind, res) => { a with d := a.d.slotFence w.c ⟨w.t, false, cell, w.k, w.p, kind, res⟩ }

/-- Whether a field that an entry's operation reads holds a reserved source code (R93, R99): it reads 0, and the entry
counts as one case, raised before its guard decides (R94). -/
def srcIll (e : Entry) : Bool :=
  match opOf e.opcode with
  | none => false
  | some o =>
    let r := opReads o
    (r.1 && srcOf e.srca == .reserved) || (r.2.1 && srcOf e.srcb == .reserved) || (r.2.2 && srcOf e.srcc == .reserved)
      || (o == .wmux && srcOf e.opx == .reserved)

/-- How the guard of the leader decides (CELL-8). -/
inductive Guard where
  | exec | suppress | zero
  deriving DecidableEq, Repr

/-- The guard of an entry, from the leader's predicates (R84). -/
def guardOf (e : Entry) (p : Nat) : Guard :=
  let b := p.testBit e.pg
  match e.pgm with
  | 0 => .exec
  | 1 => if b then .exec else .suppress
  | 2 => if b then .suppress else .exec
  | _ => if b then .exec else .zero

/-- An entry with the leader's WIDTH, SGN, SAT and PRED_RED (R90). -/
def underLeader (e l : Entry) : Entry := { e with width := l.width, sgn := l.sgn, sat := l.sat, red := l.red }

/-- A cell's own fields that make an entry a reserved encoding, with the leader's WIDTH (R93, R100). -/
def entryBad (e : Entry) (width : Nat) (high : Bool) : Bool :=
  match opOf e.opcode with
  | none => true
  | some o => !opWidthOk o width || !opMbzOk o e || (2 ≤ e.dest && e.dest < 8) || (high && o == .aes && e.opx != 0)

/-- What a cell does at an index: nothing, a single operation, a pair or a quad under its leader. -/
inductive Role where
  | none | single | bad
  | pair (lead : Nat)
  | quad (lead : Nat)
  deriving DecidableEq, Repr

/-- Whether cells 2j and 2j + 1 form a pair (R89). -/
def pairForms (lo hi : Entry) : Bool :=
  lo.gang == 1 && hi.gang == 2 && lo.opcode == hi.opcode
    && (match opOf lo.opcode with
      | some o => opPairOk o
      | none => false)

/-- The entries of the row of cell `n`. -/
def rowEnts (es : List Entry) (n : Nat) : List Entry := (es.drop (n / 4 * 4)).take 4

/-- Whether the four cells of a row form a quad (R89): only WMUX is a quad operation. -/
def quadForms (es : List Entry) : Bool :=
  es.all (fun e => e.gang == 3 && decide (opOf e.opcode = some .wmux))

/-- The entries of a tile at an index, one per cell. -/
abbrev TileEntries := List Entry

/-- The entry of a cell. -/
def entAt (es : TileEntries) (n : Nat) : Entry := es.getD n (entryOf 0)

/-- The role of cell `n` (R89, R93, R100): AES must be in a pair; a code that forms no gang is bad, and a quad code that
forms no quad makes every cell of its row that carries a pair or quad code bad. -/
def roleOf (es : TileEntries) (n : Nat) : Role :=
  let e := entAt es n
  if e.gang = 0 then
    if e = entryOf 0 then .none
    else if opOf e.opcode = some .aes then .bad
    else .single
  else if e.gang = 3 then
    if quadForms (rowEnts es n) then .quad (n / 4 * 4) else .bad
  else if (rowEnts es n).any (fun x => x.gang == 3) then .bad
  else if e.gang < 3 then
    let l := n / 2 * 2
    if pairForms (entAt es l) (entAt es (l + 1)) then .pair l else .bad
  else .bad

/-- The cells of the gang of cell `n`. -/
def gangCells (r : Role) (n : Nat) : List Nat :=
  match r with
  | .pair l => [l, l + 1]
  | .quad l => [l, l + 1, l + 2, l + 3]
  | _ => [n]

/-- The leader of the gang of cell `n`. -/
def leaderOf (r : Role) (n : Nat) : Nat :=
  match r with
  | .pair l => l
  | .quad l => l
  | _ => n

/-- Whether cell `n`'s own entry executes as a NOP under R93. -/
def cellBad (es : TileEntries) (n : Nat) : Bool :=
  let r := roleOf es n
  match r with
  | .none => false
  | .bad => true
  | _ => entryBad (entAt es n) (entAt es (leaderOf r n)).width (decide (n ≠ leaderOf r n))

/-- The operands that an operation reads, with the fences that they met. -/
def Acc2.operands (a : Acc2) (d : Dev) (w : Who) (cell : Nat) (e : Entry) (o : Op) :
    Acc2 × Word × Word × Word × Word :=
  let rd := opReads o
  let x := if rd.1 then d.readSrc w cell e (srcOf e.srca) else srcOk 0
  let y := if rd.2.1 then d.readSrc w cell e (srcOf e.srcb) else srcOk 0
  let z := if rd.2.2 then d.readSrc w cell e (srcOf e.srcc) else srcOk 0
  let q := if o = .wmux then d.readSrc w cell e (srcOf e.opx) else srcOk 0
  ((((a.note w cell x).note w cell y).note w cell z).note w cell q, x.v, y.v, z.v, q.v)

/-- Address generator `n` of a position: BASE, LEN (2,048 for 0), IDX, STEP (OPS-4). -/
def Dev.agOf (d : Dev) (T p n : Nat) : Nat × Nat × Nat × Int :=
  let r := d.reg (d.tileReg T .AGREG (p * 8 + n))
  let len := getBits r 26 16
  (getBits r 10 0, if len = 0 then 2048 else len, getBits r 42 32, signedOf (getBits r 59 48) 12)

/-- The word address, rotation and part of a memory operation (R118, R119). -/
def Dev.memAddr (d : Dev) (w : Who) (e : Entry) (o : Op) (av : Word) : Nat × Nat × Nat :=
  let ag := d.agOf w.T w.p (bitsOf e.opx 4 2)
  let bo := (bitsOf e.imm 13 0 + bitsOf av.toNat 13 0) % 16384
  let off := match o with
    | .ldr => bo / 8
    | .tapmv => bitsOf av.toNat 10 0
    | _ => (bitsOf e.imm 10 0 + bitsOf av.toNat 10 0) % 2048
  let mode := if o = .tapmv then 2 else bitsOf e.imm 31 30
  let ea := if mode = 0 then off
    else if mode = 1 then (ag.1 + off) % 2048
    else (ag.1 + (ag.2.2.1 + off) % ag.2.1) % 2048
  (ea, if o = .ldr then bo % 8 else 0, if o = .ldr then bitsOf e.imm 29 28 else 0)

/-- The post-step that a memory operation asks for (OPS-5). -/
def postOf (w : Who) (e : Entry) (o : Op) : List AgUpd :=
  let mode := if o = .tapmv then 2 else bitsOf e.imm 31 30
  if e.opx.testBit 5 then [.post w.T w.p (bitsOf e.opx 4 2) (decide (mode = 2))] else []

/-- The port of bank `b` that a switch entry gives to a cell (R133): port A first. -/
def portFor (sw : SwEntry) (b cell : Nat) : Option Bool :=
  let a := sw.mp.getD (2 * b) 0
  let bb := sw.mp.getD (2 * b + 1) 0
  if a.testBit 4 && a % 16 == cell then some true
  else if bb.testBit 4 && bb % 16 == cell then some false
  else none

/-- Lanes all zero, conditions 0: what a zeroed entry completes with (R84). -/
def zeroLanes (n : Nat) : List LaneOut := List.replicate n ⟨0, false, false⟩

/-- The access of LD, LDR, ST or TAPMV once its operands are read (R121, R124, R133). `swOk` is false where the switch
entry of the index is uncorrectable (TILE-9). -/
def Acc2.memOp (a : Acc2) (d : Dev) (w : Who) (cell : Nat) (raw : BitVec 96) (e : Entry) (o : Op) (sw : SwEntry)
    (swOk : Bool) (av bv cv : Word) : Acc2 :=
  let b := bitsOf e.opx 1 0
  let m := d.memAddr w e o av
  let a1 := { a with ag := a.ag ++ postOf w e o }
  let miss : List Flight :=
    if o = .st then []
    else [⟨w.now + 2, w.now, .mreg w.T w.p b 0⟩,
      if o = .tapmv then ⟨w.now + 3, w.now, cellLand w.T cell w.p e e.red (laneW e.width) (tapLanes e 0 bv cv)⟩
      else ⟨w.now + 2, w.now, cellLand w.T cell w.p e e.red 64 [laneDflt 0]⟩]
  let stDone : List Flight :=
    if o = .st then [⟨w.now + 1, w.now, cellLand w.T cell w.p e e.red 64 [laneDflt bv.toNat]⟩] else []
  if d.bankOwner w.T b ≠ some w.p then
    { a1 with d := a1.d.slotFence w.c ⟨w.t, false, cell, w.k, w.p, 0, b⟩, fl := a1.fl ++ miss ++ stDone }
  else match (if swOk then portFor sw b cell else none) with
    | none => { a1 with d := if swOk then a1.d.ctxIllegal w.c 1 else a1.d, fl := a1.fl ++ miss ++ stDone }
    | some portA =>
      let f : Flight := if o = .st then ⟨w.now + 2, w.now, .store w.T cell w.p b m.1 portA bv⟩
        else ⟨w.now + 1, w.now, .load w.T cell w.p b m.1 portA raw bv cv m.2.1 m.2.2⟩
      { a1 with fl := a1.fl ++ [f] ++ stDone }

/-- AGW (R122): the register named by OPX, written or added to; the result is the new value. -/
def Acc2.agwOp (a : Acc2) (d : Dev) (w : Who) (cell : Nat) (e : Entry) (av : Word) : Acc2 :=
  let n := bitsOf e.opx 2 0
  let f := bitsOf e.opx 4 3
  let add := e.opx.testBit 5
  let ag := d.agOf w.T w.p n
  let r := d.reg (d.tileReg w.T .AGREG (w.p * 8 + n))
  let lo := bitsOf av.toNat 10 0
  let v : Nat := match f with
    | 0 => if add then (ag.1 + lo) % 2048 else lo
    | 1 => if add then (getBits r 26 16 + lo) % 2048 else lo
    | 2 => if add then (ag.2.2.1 + lo) % ag.2.1 else lo
    | _ => if add then (getBits r 59 48 + bitsOf av.toNat 11 0) % 4096 else bitsOf av.toNat 11 0
  let res : Nat := if f = 3 then wrapTo (signedOf v 12) 64 else v
  { a with
    ag := a.ag ++ [.agw w.T w.p n cell f v],
    fl := a.fl ++ [⟨w.now + 1, w.now, cellLand w.T cell w.p e e.red 64 [laneDflt res]⟩] }

/-- The value of GFP register `n` of a position (R109). -/
def Dev.gfp (d : Dev) (c p n : Nat) : Nat := getBits (d.reg (cluReg c .GFP p n)) 15 0

/-- A single cell executes its entry (R94). -/
def Acc2.single (a : Acc2) (d : Dev) (w : Who) (n : Nat) (raw : BitVec 96) (sw : SwEntry) (swOk : Bool) : Acc2 :=
  let e := entryOf raw
  match opOf e.opcode with
  | none => a
  | some o =>
    let bk := d.bank w.T n w.p
    match guardOf e bk.p with
    | .suppress => a
    | g =>
      let (a1, av, bv, cv, xv) := a.operands d w n e o
      let lat := opLatency o false
      let lw := if opIsMem o ∧ o ≠ .tapmv ∨ o = .agw then 64 else laneW e.width
      if o = .nop then a1
      else if g = .zero then
        { a1 with fl := a1.fl ++ [⟨w.now + lat, w.now, cellLand w.T n w.p e e.red lw (zeroLanes (64 / lw))⟩] }
      else if opIsMem o then a1.memOp d w n raw e o sw swOk av bv cv
      else if o = .agw then a1.agwOp d w n e av
      else
        let ls := match o with
          | .wmux =>
            let s := bk.p % 4
            lanesDflt (laneW e.width) (if s = 0 then av else if s = 1 then bv else if s = 2 then cv else xv)
          | .plut =>
            let t := plutBit e.imm bk.p
            (upTo (64 / laneW e.width)).map (fun _ => ⟨maskLane (laneW e.width) t, t, false⟩)
          | _ => lanesOf o e (d.gfp w.c w.p (bitsOf e.opx 1 0)) av bv cv
        { a1 with fl := a1.fl ++ [⟨w.now + lat, w.now, cellLand w.T n w.p e e.red (laneW e.width) ls⟩] }

/-- The two completions of a pair (R91): low half to the leader, high half to the other; one predicate for both. -/
def pairLand (w : Who) (l : Nat) (eLo eHi : Entry) (lat red : Nat) (lo hi : Nat) (ls : List LaneOut) : List Flight :=
  let p := predOut red ls
  let s := anySat ls
  [⟨w.now + lat, w.now, .cell w.T l w.p eLo.dest (BitVec.ofNat 64 lo) eLo.pwe eLo.pd p s⟩,
   ⟨w.now + lat, w.now, .cell w.T (l + 1) w.p eHi.dest (BitVec.ofNat 64 hi) eHi.pwe eHi.pd p s⟩]

/-- A pair executes (R89–R92, R104, R115, R116). -/
def Acc2.pair (a : Acc2) (d : Dev) (w : Who) (l : Nat) (eLo eHi0 : Entry) : Acc2 :=
  match opOf eLo.opcode with
  | none => a
  | some o =>
    let eHi := underLeader eHi0 eLo
    let bk := d.bank w.T l w.p
    match guardOf eLo bk.p with
    | .suppress => a
    | g =>
      let (a1, a0, b0, c0, x0) := a.operands d w l eLo o
      let (a2, ah, bh, ch, xh) := a1.operands d w (l + 1) eHi o
      let lat := opLatency o false
      let lw := laneW eLo.width
      let whole := eLo.width = 3
      let pa := a0.toNat + ah.toNat * 2 ^ 64
      let pb := b0.toNat + bh.toNat * 2 ^ 64
      if o = .wmux then
        let s := bk.p % 8
        let v := [a0, b0, c0, x0, ah, bh, ch, xh].getD s 0
        let ls := if g = .zero then zeroLanes (64 / lw) else lanesDflt lw v
        { a2 with fl := a2.fl ++ [⟨w.now + lat, w.now, cellLand w.T l w.p eLo eLo.red lw ls⟩] }
      else if g = .zero then
        { a2 with fl := a2.fl ++ pairLand w l eLo eHi lat eLo.red 0 0 (zeroLanes (if whole then 1 else 128 / lw)) }
      else if o = .aes then
        let r := aesRound (bitsOf eLo.opx 1 0) pa pb
        { a2 with fl := a2.fl ++ pairLand w l eLo eHi lat eLo.red (r % 2 ^ 64) (r / 2 ^ 64) [laneDflt r] }
      else if o = .sel then
        let r0 := lanesOf .sel eLo 0 a0 b0 c0
        let rh := lanesOf .sel eHi 0 ah bh ch
        let lo := laneRes lw r0
        let hi := laneRes lw rh
        let ls := if whole then [laneDflt (lo + hi * 2 ^ 64)] else r0 ++ rh
        { a2 with fl := a2.fl ++ pairLand w l eLo eHi lat eLo.red lo hi ls }
      else if whole then
        let x := cmp128 o eLo.sgn pa pb
        { a2 with fl := a2.fl ++ pairLand w l eLo eHi lat eLo.red (x.r % 2 ^ 64) (x.r / 2 ^ 64) [x] }
      else
        let r0 := lanesOf o eLo 0 a0 b0 c0
        let rh := lanesOf o eHi 0 ah bh ch
        { a2 with fl := a2.fl ++ pairLand w l eLo eHi lat eLo.red (laneRes lw r0) (laneRes lw rh) (r0 ++ rh) }

/-- A quad executes: a 16:1 multiplexer into the leader (R92). -/
def Acc2.quad (a : Acc2) (d : Dev) (w : Who) (l : Nat) (es : TileEntries) : Acc2 :=
  let e := entAt es l
  let bk := d.bank w.T l w.p
  match guardOf e bk.p with
  | .suppress => a
  | g =>
    let step (x : Acc2 × List Word) (m : Nat) : Acc2 × List Word :=
      let (a1, av, bv, cv, xv) := x.1.operands d w (l + m) (underLeader (entAt es (l + m)) e) .wmux
      (a1, x.2 ++ [av, bv, cv, xv])
    let (a1, ins) := [0, 1, 2, 3].foldl step (a, [])
    let lw := laneW e.width
    let ls := if g = .zero then zeroLanes (64 / lw) else lanesDflt lw (ins.getD (bk.p % 16) 0)
    { a1 with fl := a1.fl ++ [⟨w.now + opLatency .wmux true, w.now, cellLand w.T l w.p e e.red lw ls⟩] }

/-! ### The switch of a tile -/

/-- Whether a lane selection reaches a resource that the slot does not own (R128): kind and number. -/
def Dev.selFence (d : Dev) (w : Who) (s : Src) : Option (Nat × Nat) :=
  (d.readSrc w 0 (entryOf 0) s).fence

/-- Note a fence of the switch. -/
def Acc2.swFence (a : Acc2) (w : Who) (kind res : Nat) : Acc2 :=
  { a with d := a.d.slotFence w.c ⟨w.t, true, 0, w.k, w.p, kind, res⟩ }

/-- Note a reserved field of the switch (R134). -/
def Acc2.swIllegal (a : Acc2) (w : Who) : Acc2 := { a with d := a.d.ctxIllegal w.c 1 }

/-- One lane selection (R128, R132, R134). -/
def Acc2.laneSel (a : Acc2) (d : Dev) (w : Who) (i code : Nat) : Acc2 :=
  match swSrcOf code with
  | none => a
  | some .reserved => a.swIllegal w
  | some s =>
    let a1 := match d.selFence w s with
      | some (kind, res) => a.swFence w kind res
      | none => a
    { a1 with held := a1.held ++ [((w.T * 4 + w.p) * 8 + i, code)] }

/-- The leap channel of a binding (07 R190–R193): bridge·2 + direction, ·32 + port; `out` tells which way from the
cluster. -/
def leapChan (c bridgeSel port : Nat) (out : Bool) : Nat :=
  let q := quarterOf c
  -- bridges in the order of LEAP-1: 0 Q0–Q1, 1 Q0–Q2, 2 Q2–Q3, 3 Q1–Q3
  let br := if bridgeSel = 0 then (if q < 2 then 0 else 2) else (if q % 2 = 0 then 1 else 3)
  let low := if bridgeSel = 0 then q % 2 = 0 else q < 2
  let dir := if low then (if out then 0 else 1) else (if out then 1 else 0)
  (br * 2 + dir) * 32 + port

/-- The frame of a slot counts a push or a pop on a vertical port; one beyond the declaration marks the frame (R50). -/
def Dev.countPort (d : Dev) (s vp count : Nat) (push : Bool) : Dev :=
  let f := d.frame s
  let m := if push then f.pushes else f.pops
  let n := nget 0 m vp + 1
  let f1 := if push then { f with pushes := nset 0 m vp n } else { f with pops := nset 0 m vp n }
  d.setFrame s { f1 with err := f.err || decide (count < n) }

/-- A push (R138, R139): read the source, count, and send toward the bound port. -/
def Acc2.push (a : Acc2) (d : Dev) (w : Who) (tp code : Nat) : Acc2 :=
  match swSrcOf code with
  | none => a
  | some .reserved => a.swIllegal w
  | some s =>
    match d.tpBind w.c w.t tp with
    | none => a.swFence w 1 tp
    | some b =>
      if b.pos ≠ w.p then a.swFence w 1 tp
      else if !b.out then a.swIllegal w
      else
        let x := d.readSrc w 0 (entryOf 0) s
        let a1 := match x.fence with
          | some (kind, res) => a.swFence w kind res
          | none => a
        if b.leap then { a1 with leap := a1.leap ++ [(leapChan w.c b.bridge b.count true, x.v)] }
        else { a1 with d := a1.d.countPort w.s (w.c * 16 + b.idx) b.count true,
                       fl := a1.fl ++ [⟨w.now + 4, w.now, .push (w.c * 16 + b.idx) x.v⟩] }

/-- A pop (R134, R136, R139, R140). -/
def Acc2.pop (a : Acc2) (d : Dev) (w : Who) (tp : Nat) : Acc2 :=
  match d.tpBind w.c w.t tp with
  | none => a.swFence w 1 tp
  | some b =>
    if b.pos ≠ w.p then a.swFence w 1 tp
    else if b.out then a.swIllegal w
    else if b.leap then a
    else { a with d := a.d.countPort w.s (w.c * 16 + b.idx) b.count false,
                  pops := a.pops ++ [(w.T, tp, w.c * 16 + b.idx)] }

/-- The switch of a tile executes its entry (R130–R134). -/
def Acc2.switch (a : Acc2) (d : Dev) (w : Who) (sw : SwEntry) : Acc2 :=
  let a1 := (upTo 8).foldl (fun x i => x.laneSel d w i (sw.sel.getD i 0)) a
  let a2 := if sw.pop0 then a1.pop d w 0 else a1
  let a3 := if sw.pop1 then a2.pop d w 1 else a2
  (a3.push d w 0 sw.push0).push d w 1 sw.push1

/-! ### A tile, a position, the cycle -/

/-- Whether RCOND lets an index execute in the frame's round (TILE-6); none for a reserved code. -/
def Dev.rcondOk (d : Dev) (s rc : Nat) : Option Bool :=
  let f := d.frame s
  let lastRound : Nat := match f.phase with
    | .prologue => d.slotP s - 1
    | .body => (match f.exitAt with
      | some r => r - 1
      | none => d.slotF s - d.slotE s - 1)
    | _ => f.phaseStart + d.slotE s - 1
  match rc with
  | 0 => some true
  | 1 => some (f.round % 2 == 0)
  | 2 => some (f.round % 2 == 1)
  | 3 => some (f.round == f.phaseStart)
  | 4 => some (f.round == lastRound)
  | _ => none

/-- Whether a sequencer word enables the frame's phase (R46). -/
def phaseOn (q : SeqWord) (ph : Phase) : Bool :=
  match ph with
  | .idle => false
  | .prologue => q.enPro
  | .body => q.enBody
  | .epilogue => q.enEpi

/-- The entries of a tile at index `k`. -/
def Dev.tileEntries (d : Dev) (T k : Nat) : TileEntries :=
  (upTo 16).map (fun n => entryOf (nget 0 d.arr.ctx ((T * 16 + n) * 64 + k)))

/-- One cell of a tile: error marks of its gang, reserved encodings, then its operation (R93, R94, R97). The model's choice
(assumption 120): the gang of a cell is formed from the entries as stored, an uncorrectable one too, and while a member is
uncorrectable no reserved encoding of another member is counted. -/
def Acc2.cell (a : Acc2) (d : Dev) (w : Who) (es : TileEntries) (sw : SwEntry) (swOk : Bool) (n : Nat) : Acc2 :=
  let m := d.mark (eccCtx w.T n w.k)
  let a0 := if m.isCe then { a with d := a.d.ctxCe w.c (eccCtx w.T n w.k) } else a
  let r := roleOf es n
  let g := gangCells r n
  match m.bad with
  | some syn => { a0 with d := a0.d.ctxUe w.c w.p w.t n w.k w.s syn }
  | none =>
    if g.any (fun x => (d.mark (eccCtx w.T x w.k)).bad.isSome) then a0
    else
      let a1 := if cellBad es n || srcIll (entAt es n) then a0.swIllegal w else a0
      if g.any (fun x => cellBad es x) then a1
      else match r with
        | .none => a1
        | .bad => a1
        | .single => a1.single d w n (nget 0 d.arr.ctx ((w.T * 16 + n) * 64 + w.k)) sw swOk
        | .pair l => if n = l then a1.pair d w l (entAt es l) (entAt es (l + 1)) else a1
        | .quad l => if n = l then a1.quad d w l es else a1

/-- One tile at an index that its slot owns, its frame window open (R141, R155). -/
def Acc2.tile (a : Acc2) (d : Dev) (w : Who) : Acc2 :=
  let seqw := nget 0 d.arr.seqw (w.T * 64 + w.k)
  let mq := d.mark (eccSeq w.T w.k)
  match mq.bad with
  | some syn => { a with d := a.d.swUe w.c w.p w.t w.k w.s 1 syn }
  | none =>
    let a0 := if mq.isCe then { a with d := a.d.ctxCe w.c (eccSeq w.T w.k) } else a
    let q := seqWordOf seqw
    if !phaseOn q (d.frame w.s).phase then a0
    else match d.rcondOk w.s q.rcond with
      | none => a0.swIllegal w
      | some false => a0
      | some true =>
        let ms := d.mark (eccSw w.T w.k)
        let a1 := if ms.isCe then { a0 with d := a0.d.ctxCe w.c (eccSw w.T w.k) } else a0
        let (a2, sw, swOk) := match ms.bad with
          | some syn => ({ a1 with d := a1.d.swUe w.c w.p w.t w.k w.s 0 syn }, swNone, false)
          | none => (a1, swEntryOf (nget 0 d.arr.sw (w.T * 64 + w.k)), true)
        let es := d.tileEntries w.T w.k
        let a3 := (upTo 16).foldl (fun x n => x.cell d w es sw swOk n) a2
        if swOk then a3.switch d w sw else a3

/-- Every tile of a position that owns the index of DTIME `t` and whose frame window is open. -/
def Acc2.position (a : Acc2) (d : Dev) (t : Nat) (cp : Nat × Nat) : Acc2 :=
  let k := t % 64
  let s := d.posSlot cp.1 cp.2
  let f := d.frame s
  if d.posOwns cp.1 cp.2 k && f.isOpen && f.phase != .idle then
    (upTo 64).foldl (fun x tl => x.tile d ⟨cp.1, cp.2, s, tl, tileOf cp.1 tl, k, t⟩) a
  else a

/-- The updates of one address generator in one cycle land together (R123). The model's choice (assumption 121): where
post-steps of both kinds meet in one cycle, each applies once, BOFF to BASE and CIRC to IDX. -/
def Dev.agLand (d d0 : Dev) (us : List AgUpd) (T p n : Nat) : Dev :=
  let x := d0.tileReg T .AGREG (p * 8 + n)
  let ag := d0.agOf T p n
  let circ := us.any (fun u => decide (u = .post T p n true))
  let boff := us.any (fun u => decide (u = .post T p n false))
  let pick (f : Nat) : Option Nat :=
    ((us.filterMap (fun u => match u with
      | .agw T' p' n' cell f' v => if T' = T ∧ p' = p ∧ n' = n ∧ f' = f then some (cell, v) else none
      | _ => none)).foldl (fun (best : Option (Nat × Nat)) cv => match best with
        | none => some cv
        | some b => if cv.1 < b.1 then some cv else some b) none).map (fun cv => cv.2)
  let r := d0.reg x
  let base : Nat := match pick 0 with
    | some v => v
    | none => if boff then wrapTo ((ag.1 : Int) + ag.2.2.2) 11 else ag.1
  let idx : Nat := match pick 2 with
    | some v => v
    | none => if circ then (((ag.2.2.1 : Int) + ag.2.2.2).emod (ag.2.1 : Int)).toNat else ag.2.2.1
  let len : Nat := (pick 1).getD (getBits r 26 16)
  let stp : Nat := (pick 3).getD (getBits r 59 48)
  d.setRegN x (base % 2048 + len % 2048 * 2 ^ 16 + idx % 2048 * 2 ^ 32 + stp % 4096 * 2 ^ 48)

/-- The generator that an update names. -/
def AgUpd.key : AgUpd → Nat × Nat × Nat
  | .post T p n _ => (T, p, n)
  | .agw T p n _ _ _ => (T, p, n)

/-- An element of a vertical port retired by a pop counts in the frame of the slot that the port serves (02 R51). -/
def Dev.countTaken (d : Dev) (vp : Nat) : Dev :=
  let s := d.posSlot (vp / 16) (getBits (d.vpCfg vp) 61 60)
  let f := d.frame s
  d.setFrame s { f with took := nset 0 f.took vp (nget 0 f.took vp + 1) }

/-- Apply one pop: the oldest element of the stage is retired; on an empty stage behind a mark EOS is set (R140). -/
def Dev.applyPop (d : Dev) (x : Nat × Nat × Nat) : Dev :=
  let tp := d.tport x.1 x.2.1
  match tp.head with
  | _ :: r => (d.setTport x.1 x.2.1 { tp with head := r }).countTaken x.2.2
  | [] =>
    let atMark : Bool := match d.fifo x.2.2 with
      | .eos :: _ => decide (tp.transit = [])
      | _ => false
    if atMark then d.setTport x.1 x.2.1 { tp with eos := true } else d

/-- Every hop register copy loads its held selection as visible in `d` (R127, R128); the unowned reads 0. -/
def hopLoad (d : Dev) (held : NMap Nat) : NMap Word :=
  held.foldl (fun m e =>
    let T := e.1 / 32
    let p := e.1 / 8 % 4
    let w : Who := ⟨tileCluster T, p, 0, tileLogical T, T, 0, 0⟩
    match swSrcOf e.2 with
    | some s => nset 0 m e.1 (d.readSrc w 0 (entryOf 0) s).v
    | none => m) []

/-- The isolation registers of one border of a cluster (R161). -/
def isoBorder (d : Dev) (c b p : Nat) (m : NMap Word) : NMap Word :=
  match d.isoPass c b p with
  | none => m
  | some pn =>
    (upTo 8).foldl (fun m1 i =>
      let t := if b = 0 then i else if b = 1 then i * 8 + 7 else if b = 2 then 56 + i else i * 8
      let T := tileOf c t
      match neighbour T b with
      | none => m1
      | some N => [0, 1].foldl (fun m2 l =>
          nset 0 m2 ((T * 4 + p) * 8 + (2 * b + l)) (d.hopOf N pn (oppLane (2 * b + l)))) m1) m

/-- Every isolation register copy loads the hop register behind it (R161); a copy that no slot passes holds 0. -/
def isoLoad (d : Dev) : NMap Word :=
  d.regs.foldl (fun m e =>
    if e.1.r = .ISO_STAT then
      let c := clusterOf e.1.q e.1.i
      (upTo 4).foldl (fun m1 b => (upTo 4).foldl (fun m2 p => isoBorder d c b p m2) m1) m
    else m) []

/-- The array writes, array reads and completions of executed cycle `t` (R42, R144, R145). -/
def Dev.landings (d : Dev) (t : Nat) : Dev :=
  let due := d.arr.flight.filter (fun f => decide (f.due = t))
  let isPush (f : Flight) : Bool := match f.what with
    | .push _ _ => true
    | _ => false
  let keep := d.arr.flight.filter (fun f => decide (f.due ≠ t) || isPush f)
  let aw := portAWords due
  let d0 := { d with arr := { d.arr with flight := keep, nocR := [], nocW := [] } }
  let d1 := due.foldl (fun x f => x.landStore aw f.what) d0
  let d2 := (due.filter isLoadB).foldl (fun x f => x.landLoad t f.what) d1
  let d3 := (due.filter isLoadA).foldl (fun x f => x.landLoad t f.what) d2
  d3.landAll due

/-- The contexts of executed cycle `t`, and what takes effect when all have read. Gives the leap pushes too. -/
def Dev.contexts (d : Dev) (t : Nat) : Dev × List (Nat × Word) :=
  let a := d.positions.foldl (fun x cp => x.position d t cp) (Acc2.start d)
  let held := a.held.foldl (fun m kv => nset 1 m kv.1 kv.2) a.d.arr.held
  let d1 := { a.d with arr := { a.d.arr with held := held, flight := a.d.arr.flight ++ a.fl } }
  let d2 := a.ag.foldl (fun x u => x.agLand d a.ag u.key.1 u.key.2.1 u.key.2.2) d1
  let d3 := a.pops.foldl (fun x p => x.applyPop p) d2
  ({ d3 with arr := { d3.arr with hop := hopLoad d held, iso := isoLoad d } }, a.leap)

/-- The pushes that commit at the end of executed cycle `t` (R138). -/
def Dev.commits (d : Dev) (t : Nat) : Dev :=
  let due := d.arr.flight.filter (fun f => decide (f.due = t))
  let d1 := { d with arr := { d.arr with flight := d.arr.flight.filter (fun f => decide (f.due ≠ t)) } }
  due.foldl (fun x f => x.landPush f.what) d1

end Sys2Proof.Machine
end

