-- ==== Sys2Proof/Machine/Leap.lean ====
section
/-! DEFINITION. Leap crossings between quarters (chapter 07): channels, blocks, retry, alignment, training and repair of
bridges, the NoC sub-link. A direction is numbered bridge·2 + d with the bridges of LEAP-1 in order; a channel is
direction·32 + port. -/

namespace Sys2Proof.Machine

/-! ### Places (R190, R192) -/

/-- The quarter whose LEAP block holds a bridge's registers. -/
def brOwner (br : Nat) : Nat := if br < 2 then 0 else 3

/-- The page of a bridge: 0 east–west, 1 north–south. -/
def brPage (br : Nat) : Nat := br % 2

/-- The bridge of a page of quarter `q`. -/
def brOf (q pg : Nat) : Nat := if q = 0 then pg else 2 + pg

/-- LPB BRIDGE value of a bridge: east–west for Q0–Q1 and Q2–Q3. -/
def brSel (br : Nat) : Nat := br % 2

/-- A register of a direction. -/
def dirReg (dir : Nat) (r : R) (k : Nat := 0) : RKey := r.at (brOwner (dir / 2)) (brPage (dir / 2)) (dir % 2) k

/-- A register of a bridge page. -/
def brReg (br : Nat) (r : R) : RKey := r.at (brOwner br) (brPage br)

/-- The two clusters that reach a leap port: lower quarter's side, higher quarter's side (LEAP-3). -/
def leapClusters (br port : Nat) : Nat × Nat :=
  let g := port / 8
  match br with
  | 0 => (8 * g + 3, 8 * g + 4)
  | 1 => (24 + g, 32 + g)
  | 2 => (32 + 8 * g + 3, 32 + 8 * g + 4)
  | _ => (28 + g, 36 + g)

/-- The cluster that sends on a channel. -/
def leapFrom (ch : Nat) : Nat :=
  let x := leapClusters (ch / 64) (ch % 32)
  if ch / 32 % 2 = 0 then x.1 else x.2

/-- The cluster that receives from a channel. -/
def leapTo (ch : Nat) : Nat :=
  let x := leapClusters (ch / 64) (ch % 32)
  if ch / 32 % 2 = 0 then x.2 else x.1

/-- Whether an LPB value binds port `port` of the bridge with selector `sel` in direction `out`. -/
def lpbBinds (w : Word) (sel port : Nat) (out : Bool) : Bool :=
  w.getLsbD 63 && (w.getLsbD 62 == out) && getBits w 33 33 == sel && getBits w 4 0 == port

/-- The LPB value of a cluster that binds a leap port. -/
def Dev.lpbOf (d : Dev) (c sel port : Nat) (out : Bool) : Option Word :=
  ((upTo 8).map (fun n => d.reg (cluReg c .LPB n))).find? (fun w => lpbBinds w sel port out)

/-- The binding at the sending end of a channel. -/
def Dev.leapOutBind (d : Dev) (ch : Nat) : Option Word := d.lpbOf (leapFrom ch) (brSel (ch / 64)) (ch % 32) true

/-- The binding at the receiving end of a channel. -/
def Dev.leapInBind (d : Dev) (ch : Nat) : Option Word := d.lpbOf (leapTo ch) (brSel (ch / 64)) (ch % 32) false

/-- The slot that binds a channel, at its receiving end or else at its sending end. -/
def Dev.leapSlot (d : Dev) (ch : Nat) : Option Nat :=
  match d.leapInBind ch with
  | some w => some (d.posSlot (leapTo ch) (getBits w 61 60))
  | none =>
    match d.leapOutBind ch with
    | some w => some (d.posSlot (leapFrom ch) (getBits w 61 60))
    | none => none

/-- The record of a channel. -/
def Dev.chan (d : Dev) (ch : Nat) : LeapCh := nget LeapCh.zero d.leap ch

/-- Write the record of a channel. -/
def Dev.setChan (d : Dev) (ch : Nat) (x : LeapCh) : Dev := { d with leap := nset LeapCh.zero d.leap ch x }

/-- Whether the forwarded clock of a direction is lost (LEAP-7, CLOCK). -/
def Dev.clkLost (d : Dev) (dir : Nat) : Bool := nget false d.lfLost dir

/-- LANES of DIR_STAT for a LANE_DIS value (LEAP-11). -/
def lanesOn (dis : Nat) : Nat := 15 - dis % 16

/-- Whether a base die can carry leap traffic: it is neither in reset nor OFF (19 R524, R525;
assumption 152). -/
def Dev.dieCarries (d : Dev) (q : Nat) : Bool := !d.inReset q && decide (d.domCur q 16 ≠ 2)

/-- Whether a direction carries usable blocks: it is UP, and the base dies at its two ends can carry them (R209, R210, 19
R524). -/
def Dev.dirUp (d : Dev) (dir : Nat) : Bool :=
  getBits (d.reg (dirReg dir .DIR_STAT)) 31 28 == 2 && d.dieCarries (quarterOf (leapFrom (dir * 32)))
    && d.dieCarries (quarterOf (leapTo (dir * 32)))

/-- STATE of a direction, with UP of BR_STAT and LANES, the retry lanes that carry resends (LEAP-11). -/
def Dev.setDirState (d : Dev) (dir st : Nat) : Dev :=
  let x := dirReg dir .DIR_STAT
  let lanes := if st = 2 then lanesOn (getBits (d.reg (dirReg dir .DIR_CFG)) 27 24) else 0
  (d.setReg x (putBits (putBits (d.reg x) 31 28 st) 11 8 lanes)).setBit (brReg (dir / 2) .BR_STAT) (dir % 2) (decide (st = 2))

/-- STATE of a sub-link direction, in NSL_STAT and in BR_STAT. -/
def Dev.setNslState (d : Dev) (dir st : Nat) : Dev :=
  let d1 := d.setReg (dirReg dir .NSL_STAT) (putBits (d.reg (dirReg dir .NSL_STAT)) 31 28 st)
  let b := 8 + 2 * (dir % 2)
  d1.setReg (brReg (dir / 2) .BR_STAT) (putBits (d1.reg (brReg (dir / 2) .BR_STAT)) (b + 1) b st)

/-! ### Scrambling (R200) -/

/-- One step of a PRBS-15 generator, x^15 + x^14 + 1, whose 15 bits shift up. -/
def prbsStep (g : Nat) : Nat := g * 2 % 2 ^ 15 + b2n (g.testBit 14 != g.testBit 13)

/-- `n` steps of a generator. -/
def prbsSteps (g : Nat) : Nat → Nat
  | 0 => g
  | n + 1 => prbsSteps (prbsStep g) n

/-- The state of every generator of a bridge, both ends, both directions, each wire: they start together and advance
together. -/
def Dev.prbsOf (d : Dev) (br : Nat) : Nat := nget 0 d.prbs br

/-- At the first UI after bridge training every generator is in state 0x7FFF. -/
def Dev.prbsStart (d : Dev) (br : Nat) : Dev := { d with prbs := nset 0 d.prbs br 0x7FFF }

/-- A tick of wall time: 64 ACLK of 4 UI each, one step per UI. -/
def Dev.prbsTick (d : Dev) : Dev := { d with prbs := d.prbs.map (fun e => (e.1, prbsSteps e.2 256)) }

/-- The level of a wire that carries `bit` `u` UI after the tick edge. -/
def Dev.scrambled (d : Dev) (br u : Nat) (bit : Bool) : Bool := bit != (prbsSteps (d.prbsOf br) u).testBit 14

/-! ### LEAP_FAULT (R205, R206) -/

/-- Record a LEAP_FAULT: count, first record, event. -/
def Dev.leapFault (d : Dev) (ch cause t0 : Nat) : Dev :=
  let dir := ch / 32
  let slot := d.leapSlot ch
  let rcd := cause % 8 * 2 ^ 59 + (match slot with
    | some s => 2 ^ 58 + s % 256 * 2 ^ 48
    | none => 0) + ch % 32 * 2 ^ 40 + t0 / 4 % 2 ^ 32
  ((d.bump (dirReg dir .FAULT_CNT)).logFirst (dirReg dir .FAULT_LOG) rcd).raise (brOwner (dir / 2))
    (0x018 + 2 * brPage (dir / 2) + dir % 2)

/-- End the frame of the slot that binds a channel with FRAME_ERROR (R206). -/
def Dev.leapErr (d : Dev) (ch : Nat) : Dev :=
  match d.leapSlot ch with
  | some s => d.frameErr s
  | none => d

/-- Change the block of a channel that started at `t0`. -/
def Dev.modBlk (d : Dev) (ch t0 : Nat) (f : LBlk → LBlk) : Dev :=
  let c := d.chan ch
  d.setChan ch { c with line := c.line.map (fun b => if b.t0 = t0 then f b else b) }

/-- The block of a channel that started at `t0`. -/
def Dev.blk (d : Dev) (ch t0 : Nat) : Option LBlk := (d.chan ch).line.find? (fun b => b.t0 == t0)

/-- A block is lost for a cause: recorded once. -/
def Dev.loseBlk (d : Dev) (ch t0 cause : Nat) : Dev :=
  match d.blk ch t0 with
  | none => d
  | some b =>
    let d1 := d.modBlk ch t0 (fun x => { x with st := .lost cause, noted := true })
    if b.noted then d1 else d1.leapFault ch cause t0

/-! ### The CRC (R198) -/

/-- One bit into the CRC-12. -/
def crc12Bit (crc : Nat) (x : Bool) : Nat :=
  let fb := crc.testBit 11 != x
  let c := crc * 2 % 4096
  if fb then c ^^^ 0x80F else c

/-- The CRC-12 of a block: port, SEQ and the 256 data bits (R198), without the marker's complement. -/
def crc12 (port seq : Nat) (data : List Word) : Nat :=
  let bits := (upTo 5).map port.testBit ++ (upTo 2).map seq.testBit
    ++ (data.flatMap (fun w => (upTo 64).map w.toNat.testBit))
  bits.foldl crc12Bit 0xFFF

/-- Whether block `t0` is a marker block (R208). -/
def isMarker (t0 : Nat) : Bool := t0 / 4 % 64 == 0

/-- Data with some of its 256 bits inverted. -/
def flipData (data : List Word) (flips : List Nat) : List Word :=
  (data.zipIdx).map (fun x => flips.foldl (fun w b =>
    if b / 64 = x.2 ∧ b < 256 then w ^^^ BitVec.ofNat 64 (2 ^ (b % 64)) else w) x.1)

/-- A 16-bit side word with some of its bits inverted: bit 256 + u of a list is UI u. -/
def flipSide (n : Nat) (flips : List Nat) : Nat :=
  flips.foldl (fun w b => if 256 ≤ b ∧ b < 272 then w ^^^ 2 ^ (b - 256) else w) n

/-- What the check of a received copy finds (R202, R208). -/
inductive Check where
  | pass | fail | marker | seq
  deriving DecidableEq, Repr

/-- Check a received copy of block `t0` of port `port` whose bits `flips` arrive inverted. -/
def checkBlk (port t0 : Nat) (data : List Word) (flips : List Nat) : Check :=
  let seq := t0 / 4 % 4
  let mk := if isMarker t0 then 0xFFF else 0
  let side := flipSide ((crc12 port seq data ^^^ mk) + seq * 4096) flips
  let want := crc12 port seq (flipData data flips)
  if side % 4096 = want ^^^ mk then .pass
  else if side % 4096 = want ^^^ mk ^^^ 0xFFF then .marker
  else if side / 4096 % 4 ≠ seq then .seq
  else .fail

/-- The CRC field that the side word of block `t0` of port `port` carries (R198, R208). -/
def sideCrc (port t0 : Nat) (data : List Word) : Nat :=
  crc12 port (t0 / 4 % 4) data ^^^ (if isMarker t0 then 0xFFF else 0)

/-! ### Sending (R194, R196) -/

/-- The channel of a bound LPB value of cluster `c`. -/
def lpbChan (c : Nat) (w : Word) : Nat := leapChan c (getBits w 33 33) (getBits w 4 0) (w.getLsbD 62)

/-- Every channel whose outgoing port is bound. -/
def Dev.outChans (d : Dev) : List Nat :=
  d.regs.filterMap (fun e =>
    if e.1.r = .LPB ∧ e.2.getLsbD 63 = true ∧ e.2.getLsbD 62 = true then some (lpbChan (clusterOf e.1.q e.1.i) e.2) else none)

/-- The channels that send in an executed cycle: every port of a direction that is UP, bound or not, and the bound ports
of the others, whose hold values follow their pushes. -/
def Dev.sendChans (d : Dev) : List Nat :=
  (((upTo 8).filter d.dirUp).flatMap (fun dir => (upTo 32).map (fun i => dir * 32 + i)))
    ++ d.outChans.filter (fun ch => !d.dirUp (ch / 32))

/-- The element that channel `ch` sends in executed cycle `t`, gathered into its block; a whole block enters the line. An
unbound port has hold value 0 and sends it. A direction that is not UP, or whose bridge has an end in reset, carries nothing. -/
def Dev.leapSend (d : Dev) (t : Nat) (pushes : List (Nat × Word)) (ch : Nat) : Dev :=
  let c := d.chan ch
  let v : Word := match pushes.find? (fun x => x.1 == ch) with
    | some x => x.2
    | none => c.hold
  let cur0 := if t % 4 = 0 then [] else c.cur ++ List.replicate (t % 4 - c.cur.length) 0
  let cur := cur0 ++ [v]
  if d.dirUp (ch / 32) = false then d.setChan ch { c with hold := v, cur := [] }
  else if t % 4 = 3 then d.setChan ch { c with hold := v, cur := [], line := c.line ++ [⟨t - 3, cur, .accepted, [], none, false⟩] }
  else d.setChan ch { c with hold := v, cur := cur }

/-- A channel at the check of block `t0`, cycle t0 + 8: a port without word alignment has lost it (R208), and a direction
under repair brings none (R210). -/
def LeapCh.hear (c : LeapCh) (t : Nat) (up clkLost : Bool) : LeapCh :=
  if c.lost then
    { c with line := c.line.map (fun b => if b.t0 + 8 = t ∧ b.st = .accepted then { b with st := .lost 3 } else b) }
  else if up || clkLost then c
  else { c with line := c.line.filter (fun b => decide (b.t0 + 8 ≠ t)) }

/-- Blocks whose last element was V in executed cycle `t` have left the line. -/
def LeapCh.prune (c : LeapCh) (t : Nat) : LeapCh := { c with line := c.line.filter (fun b => decide (t < b.t0 + 17)) }

/-- Every channel hears the blocks that are checked in cycle `t`, and drops those that are through. -/
def Dev.leapHear (d : Dev) (t : Nat) : Dev :=
  d.leap.foldl (fun x e => x.setChan e.1 ((e.2.hear t (d.dirUp (e.1 / 32)) (d.clkLost (e.1 / 32))).prune t)) d

/-- The blocks of a channel whose t0 + 13 is executed cycle `t`: a block not recovered is lost, and the frame open now ends
with FRAME_ERROR (R204–R206). -/
def Dev.leapDue (d : Dev) (t ch : Nat) : Dev :=
  match (d.chan ch).line.find? (fun b => b.t0 + 13 == t) with
  | none => d
  | some b =>
    match b.st with
    | .accepted => d
    | .rejected => (d.loseBlk ch b.t0 2).leapErr ch
    | .lost c => (d.loseBlk ch b.t0 c).leapErr ch

/-- A direction whose clock is lost faults every channel in each block time (LEAP-7). -/
def Dev.leapClock (d : Dev) (t dir : Nat) : Dev :=
  if d.clkLost dir ∧ t % 4 = 1 ∧ 13 ≤ t then
    (upTo 32).foldl (fun x i =>
      match x.blk (dir * 32 + i) (t - 13) with
      | some _ => x
      | none => (x.leapFault (dir * 32 + i) 4 (t - 13)).leapErr (dir * 32 + i)) d
  else d

/-- What the leap ports do in executed cycle `t`. -/
def Dev.leapCycle (d : Dev) (t : Nat) (pushes : List (Nat × Word)) : Dev :=
  let d1 := d.leap.foldl (fun x e => x.leapDue t e.1) d
  let d2 := ((upTo 8).foldl (fun x dir => x.leapClock t dir) d1).leapHear t
  d2.sendChans.foldl (fun x ch => x.leapSend t pushes ch) d2

/-! ### Commands -/

/-- A wire of the stream numbering that carries bit `b` of a received copy of port `i` (LEAP-2, LEAP-4). -/
def wireOfBit (i b : Nat) : Nat := if b < 256 then 16 * i + b % 64 / 4 else 512 + i

/-- WIRE_FLAG bit of a logical wire. -/
def Dev.wireFlag (d : Dev) (dir w : Nat) : Bool := (d.reg (dirReg dir .WIRE_FLAG (w / 32))).getLsbD (w % 32)

/-- Flagged wires of a direction, ascending. -/
def Dev.flagged (d : Dev) (dir : Nat) : List Nat := (upTo 612).filter (fun w => d.wireFlag dir w)

/-- DIR_STAT.FLAGGED follows WIRE_FLAG, saturating at 255. -/
def Dev.countFlags (d : Dev) (dir : Nat) : Dev :=
  d.setReg (dirReg dir .DIR_STAT) (putBits (d.reg (dirReg dir .DIR_STAT)) 7 0 (Nat.min 255 (d.flagged dir).length))

/-- Flag a wire and raise an INFO source (LEAP_WIRE 0x050, LEAP_ALIGN 0x051). -/
def Dev.flagWire (d : Dev) (dir w src : Nat) : Dev :=
  ((d.setBit (dirReg dir .WIRE_FLAG (w / 32)) (w % 32) true).countFlags dir).raise (brOwner (dir / 2)) src

/-- Count a difference on a wire, and flag the wire once its count is WIRE_TH or more (R207). -/
def Dev.wireErr (d : Dev) (dir w : Nat) : Dev :=
  let x := dirReg dir .WIRE_ERR (w / 2)
  let hi := if w % 2 = 1 then 31 else 15
  let n := satAdd (getBits (d.reg x) hi (hi - 15)) 1 0xFFFF
  let d1 := d.setReg x (putBits (d.reg x) hi (hi - 15) n)
  let th := getBits (d.reg (dirReg dir .DIR_CFG)) 15 0
  if th ≠ 0 ∧ th ≤ n ∧ d1.wireFlag dir w = false then d1.flagWire dir w 0x050 else d1

/-- BLOCK_CHECK (R202, R203, R208): an accepted copy waits as it was received. A SEQ mismatch is a rejected block that
counts in ALIGN_ERR_CNT; a wrong marker is a miss besides. The model's choices (assumption 130): the block that shows the
first miss is rejected, and so retried; only a marker block that passes ends a row of misses, a passing block between
markers does not. -/
def xBlockCheck (ch t0 : Nat) (flips drift : List Nat) (d : Dev) : Dev :=
  let dir := ch / 32
  let d0 := drift.foldl (fun x w => x.flagWire dir w 0x051) d
  match d0.blk ch t0 with
  | none => d0
  | some b =>
    if b.st ≠ .accepted ∨ d0.dirUp dir = false then d0
    else
      let c := d0.chan ch
      if c.lost then d0.modBlk ch t0 (fun x => { x with st := .lost 3, flips := flips })
      else
      let rej (x : LBlk) : LBlk := { x with st := .rejected, flips := flips }
      match checkBlk (ch % 32) t0 b.data flips with
      | .pass =>
        let d1 := if isMarker t0 then d0.setChan ch { c with miss := 0 } else d0
        d1.modBlk ch t0 (fun x => { x with data := flipData x.data flips })
      | .fail => d0.modBlk ch t0 rej
      | .seq => (d0.modBlk ch t0 rej).bump (dirReg dir .ALIGN_ERR_CNT)
      | .marker =>
        let lost := decide (1 ≤ c.miss)
        let d1 := d0.setChan ch { c with miss := c.miss + 1, lost := lost }
        (d1.modBlk ch t0 (if lost then fun x => { x with st := .lost 3, flips := flips } else rej)).bump (dirReg dir .ALIGN_ERR_CNT)

/-- A received block is checked. -/
def execBlockCheck (ch t0 : Nat) (flips drift : List Nat) (s : State) : Host.Outcome State Fault Refusal :=
  .next { s with d := xBlockCheck ch t0 flips drift s.d }

/-- The ACK that the sender of block `t0` of a channel receives: 1 accepted, 2 not, with bits inverted on the way; a
filler block always has 1 (R199). -/
def Dev.ackOf (d : Dev) (ch t0 : Nat) (filler : Bool) (errs : List (Nat × Nat)) : Nat :=
  let a := match d.blk ch t0 with
    | some b => if filler || decide (b.st = .accepted) then 1 else 2
    | none => 1
  match errs.find? (fun e => e.1 == ch % 32) with
  | some e => a ^^^ (e.2 % 4)
  | none => a

/-- RESEND (R199, R203, R211): the ports that must be resent take the enabled lanes in ascending port order; those
beyond fault with NO_LANE. Every port of a direction that is UP has an ACK. In the block time of a filler the ACKs are
counted and nothing is resent (R201). -/
def xResend (dir t0 : Nat) (filler : Bool) (errs : List (Nat × Nat)) (d : Dev) : Dev :=
  if d.dirUp dir = false then d
  else
  let acks := (upTo 32).map (fun i => (dir * 32 + i, d.ackOf (dir * 32 + i) t0 filler errs))
  let d1 := acks.foldl (fun x a => if a.2 = 0 ∨ a.2 = 3 then x.bump (dirReg dir .ACK_ERR_CNT) else x) d
  let nacked := (acks.filter (fun a => !filler && decide (a.2 ≠ 1) && (d.blk a.1 t0).isSome)).map (fun a => a.1)
  let dis := getBits (d.reg (dirReg dir .DIR_CFG)) 27 24
  let lanes := (upTo 4).filter (fun r => !dis.testBit r)
  let d2 := (nacked.zip lanes).foldl (fun x p => x.modBlk p.1 t0 (fun b => { b with lane := some p.2 })) d1
  (nacked.drop lanes.length).foldl (fun x ch =>
    match x.blk ch t0 with
    | some b => if b.st = .rejected then x.loseBlk ch t0 1 else x
    | none => x) d2

/-- The sender handles the NACKs of a block time. -/
def execResend (dir t0 : Nat) (filler : Bool) (errs : List (Nat × Nat)) (s : State) : Host.Outcome State Fault Refusal :=
  .next { s with d := xResend dir t0 filler errs s.d }

/-- A bit of a received copy: of the data, and from bit 256 of the side word. -/
def copyBit (data : List Word) (side b : Nat) : Bool :=
  if b < 256 then (data.getD (b / 64) 0).getLsbD (b % 64) else side.testBit (b - 256)

/-- The wires on which two copies of a block of port `i` differ (R207): data bits and the CRC and SEQ of the side word. -/
def wireDiff (i : Nat) (a b : List Word × Nat) : List Nat :=
  ((upTo 270).filter (fun x => copyBit a.1 a.2 x != copyBit b.1 b.2 x)).map (wireOfBit i) |>.dedup

/-- Block `t0` of port `i` with data `data` as it arrives with some bits inverted: data and side word, without ACK. -/
def recvCopy (i t0 : Nat) (data : List Word) (flips : List Nat) : List Word × Nat :=
  (flipData data flips, flipSide (sideCrc i t0 data + t0 / 4 % 4 * 4096) flips % 2 ^ 14)

/-- LANE_ERR of a lane adds 1, to 255. -/
def Dev.laneErr (d : Dev) (dir r : Nat) : Dev :=
  let x := dirReg dir .LANE_ERR
  d.setReg x (putBits (d.reg x) (8 * r + 7) (8 * r) (satAdd (getBits (d.reg x) (8 * r + 7) (8 * r)) 1 255))

/-- Whether block `t0` of a channel is one that its receiver rejected. -/
def Dev.rejectedBlk (d : Dev) (ch t0 : Nat) : Bool :=
  match d.blk ch t0 with
  | some b => decide (b.st ≠ .accepted)
  | none => false

/-- What arrives on the retry lanes for block time `t0`: lane, port that it was sent for, received copy. -/
def Dev.laneCopies (d : Dev) (dir t0 : Nat) (errs : List (Nat × List Nat)) : List (Nat × Nat × List Word × Nat) :=
  (upTo 32).filterMap (fun i =>
    match d.blk (dir * 32 + i) t0 with
    | some b => b.lane.map (fun r =>
      let fl : List Nat := match errs.find? (fun e => e.1 == r) with
        | some e => e.2
        | none => []
      (r, i, recvCopy i t0 b.data fl))
    | none => none)

/-- The rejected port whose CRC a copy on a retry lane matches (R204). -/
def Dev.laneMatch (d : Dev) (dir t0 : Nat) (c : List Word × Nat) : Option Nat :=
  (upTo 32).find? (fun i => d.rejectedBlk (dir * 32 + i) t0 && decide (c.2 % 4096 = sideCrc i t0 c.1))

/-- One retry lane at the retry check (R204, R207): the copy replaces block `t0` of the rejected port that it matches; one
that matches none is counted, and counts against its lane where it fails the check of its own port too. A block that lost
word alignment has cost stays lost, whatever its resend (R208). -/
def Dev.retryLane (d : Dev) (dir t0 : Nat) (hit : Option Nat) (c : Nat × Nat × List Word × Nat) : Dev :=
  match hit with
  | some i =>
    match d.blk (dir * 32 + i) t0 with
    | some b =>
      if b.st = .rejected then
        let d1 := (d.modBlk (dir * 32 + i) t0 (fun x => { x with st := .accepted, data := c.2.2.1, lane := none })).bump
          (dirReg dir .RETRY_CNT)
        (wireDiff i (recvCopy i t0 b.data b.flips) c.2.2).foldl (fun x w => x.wireErr dir w) d1
      else d
    | none => d
  | none =>
    let d1 := d.bump (dirReg dir .UNMATCHED_CNT)
    if c.2.2.2 % 4096 = sideCrc c.2.1 t0 c.2.2.1 then d1 else d1.laneErr dir c.1

/-- One channel once every lane has been checked (R205): a rejected block that no resend replaced is lost, with its
resend failed or never arrived. -/
def Dev.retryEnd (d : Dev) (t0 : Nat) (k : Clk) (ch : Nat) : Dev :=
  match d.blk ch t0 with
  | none => d
  | some b =>
    let d1 := match b.lane with
      | some _ => d.modBlk ch t0 (fun x => { x with lane := none })
      | none => d
    match b.st with
    | .accepted => d1
    | .rejected =>
      let d2 := d1.loseBlk ch t0 (if b.lane.isSome then 0 else 2)
      if k.dtime = t0 + 13 then d2.leapErr ch else d2
    | .lost c =>
      let d2 := d1.loseBlk ch t0 c
      if k.dtime = t0 + 13 then d2.leapErr ch else d2

/-- RETRY_CHECK (R204): each lane, then every block of the direction that started at `t0`; one that is lost ends the frame
open at t0 + 13. -/
def xRetryCheck (dir t0 : Nat) (errs : List (Nat × List Nat)) (k : Clk) (d : Dev) : Dev :=
  let copies := d.laneCopies dir t0 errs
  let d1 := copies.foldl (fun x c => x.retryLane dir t0 (d.laneMatch dir t0 c.2.2) c) d
  (upTo 32).foldl (fun x i => x.retryEnd t0 k (dir * 32 + i)) d1

/-- The receiver checks the retry lanes. -/
def execRetryCheck (dir t0 : Nat) (errs : List (Nat × List Nat)) (s : State) : Host.Outcome State Fault Refusal :=
  .next { s with d := xRetryCheck dir t0 errs s.clk s.d }

/-- DELAY_LINE_RELEASE (R194, R202, R205): the element that is V in the coming executed cycle; a lost block leaves as
zero. -/
def xDelayLineRelease (ch : Nat) (k : Clk) (d : Dev) : Dev :=
  let c := d.chan ch
  let t := k.dtime
  let v : Option Word := match c.line.find? (fun b => decide (b.t0 + 14 ≤ t) && decide (t < b.t0 + 18)) with
    | some b => some (if b.st = .accepted then b.data.getD (t - b.t0 - 14) 0 else 0)
    | none => none
  match d.leapInBind ch with
  | none => d.setChan ch { c with line := c.line.filter (fun b => decide (t < b.t0 + 17)) }
  | some w =>
    let T := tileOf (leapTo ch) (getBits w 53 48)
    let tp := getBits w 40 40
    let d1 := d.setChan ch { c with line := c.line.filter (fun b => decide (t < b.t0 + 17)) }
    match v with
    | some x => d1.setTport T tp { d1.tport T tp with leapV := x }
    | none => d1

/-- An element leaves the receive delay line. -/
def execDelayLineRelease (ch : Nat) (s : State) : Host.Outcome State Fault Refusal :=
  .next { s with d := xDelayLineRelease ch s.clk s.d }

/-- FILLER_BLOCK (R201): only a CRC error is counted. -/
def xFillerBlock (ch : Nat) (crcErr : Bool) (d : Dev) : Dev :=
  if crcErr then d.bump (dirReg (ch / 32) .FILLER_ERR_CNT) else d

/-- A filler block is checked. -/
def execFillerBlock (ch : Nat) (crcErr : Bool) (s : State) : Host.Outcome State Fault Refusal :=
  .next { s with d := xFillerBlock ch crcErr s.d }

/-- RATE_WINDOW (R207): every WIRE_ERR of the direction returns to 0. -/
def xRateWindow (dir : Nat) (d : Dev) : Dev :=
  d.resetRegs (fun x => decide (x.r = .WIRE_ERR) && decide (x.q = brOwner (dir / 2)) && decide (x.i = brPage (dir / 2))
    && decide (x.j = dir % 2))

/-- A rate window ends. -/
def execRateWindow (dir : Nat) (s : State) : Host.Outcome State Fault Refusal :=
  .next { s with d := xRateWindow dir s.d }

/-- REALIGNMENT (R208): a port whose alignment is lost is aligned again. -/
def xRealignment (ch : Nat) (drift : List Nat) (d : Dev) : Dev :=
  let d0 := drift.foldl (fun x w => x.flagWire (ch / 32) w 0x051) d
  if (d0.chan ch).lost then d0.setChan ch { d0.chan ch with lost := false, miss := 0 } else d0

/-- The receiver realigns a port. -/
def execRealignment (ch : Nat) (drift : List Nat) (s : State) : Host.Outcome State Fault Refusal :=
  .next { s with d := xRealignment ch drift s.d }

/-- LFCLK_LOSS (R205): the direction is down, and every block under way is lost. -/
def xLfclkLoss (dir : Nat) (d : Dev) : Dev :=
  let d1 := { d with lfLost := nset false d.lfLost dir true }.setDirState dir 0
  (upTo 32).foldl (fun x i =>
    ((x.chan (dir * 32 + i)).line.map (fun b => b.t0)).foldl (fun y t0 => y.loseBlk (dir * 32 + i) t0 4) x) d1

/-- The forwarded stream clock of a direction is lost. -/
def execLfclkLoss (dir : Nat) (s : State) : Host.Outcome State Fault Refusal :=
  .next { s with d := xLfclkLoss dir s.d }

/-! ### Training (R209, R215, R216) -/

/-- The LEAP-8 code of the die identity: QPOS_VALID of every die, distinct positions, each in its place; 0 passes. -/
def identityCode (qpos : Nat → BitVec 3) : Nat :=
  let v (q : Nat) : Bool := (qpos q).getLsbD 2
  let p (q : Nat) : Nat := (qpos q).toNat % 4
  if !(v 0 && v 1 && v 2 && v 3) then 0x21
  else if p 0 = p 1 ∨ p 0 = p 2 ∨ p 0 = p 3 ∨ p 1 = p 2 ∨ p 1 = p 3 ∨ p 2 = p 3 then 0x22
  else if p 0 = 0 ∧ p 1 = 1 ∧ p 2 = 2 ∧ p 3 = 3 then 0
  else 0x23

/-- Assign failing wires to passing spares (R209, step 4) and report the direction UP. -/
def Dev.trainDir (d : Dev) (dir : Nat) (fail bad : List Nat) : Dev :=
  let free := (upTo 24).filter (fun k => !bad.contains k)
  let wires := (upTo 612).filter (fun w => fail.contains w)
  let d1 := bad.foldl (fun x k => if k < 24 then x.setRegN (dirReg dir .SPARE_MAP k) (2 ^ 30) else x) d
  let d2 := (wires.zip free).foldl (fun x p => x.setRegN (dirReg dir .SPARE_MAP p.2) (2 ^ 31 + p.1)) d1
  let d3 := { d2 with lfLost := nset false d2.lfLost dir false }
  (d3.setRegN (dirReg dir .DIR_STAT) (wires.length % 32 * 2 ^ 16)).setDirState dir 2

/-- The NoC sub-link of a direction is trained: wires `fail` move to its four spares (R212). -/
def Dev.trainNsl (d : Dev) (dir : Nat) (fail : List Nat) : Dev :=
  let wires := (upTo 68).filter (fun w => fail.contains w)
  let map := (wires.zipIdx).foldl (fun n p => n + (128 + p.1) * 2 ^ (8 * p.2)) 0
  let d1 := (d.setRegN (dirReg dir .NSL_STAT) (wires.length % 8)).setRegN (dirReg dir .NSL_SPARE) map
  let d2 := d1.setNslState dir 2
  { d2 with nsl := nset NslDir.zero d2.nsl dir NslDir.zero }

/-- Both directions of every bridge are in training, streams and sub-links (R209): once the four PLLs have locked in a
boot. -/
def Dev.bridgesStart (d : Dev) : Dev := (upTo 8).foldl (fun x dir => (x.setDirState dir 1).setNslState dir 1) d

/-- What a bridge that fails shows (R209, R216): IDCODE, both directions FAILED, both sub-links DOWN. -/
def Dev.bridgeBad (d : Dev) (br code : Nat) : Dev :=
  let d1 := d.setReg (brReg br .BR_STAT) (putBits (d.reg (brReg br .BR_STAT)) 23 16 code)
  (((d1.setDirState (br * 2) 4).setDirState (br * 2 + 1) 4).setNslState (br * 2) 0).setNslState (br * 2 + 1) 0

/-- A bridge that fails training ends the boot with its code (R209, R216). -/
def Dev.bridgeFail (d : Dev) (br code : Nat) : Dev := (d.bridgeBad br code).confErr code

/-- Whether the die of quarter `q` has its QPOS_VALID fuse set. -/
def placed (q : Nat) : Bool := (Config.fuseQpos q).getLsbD 2

/-- The check of the die identity fails (R215, R216): every bridge shows the code, a die without QPOS_VALID is held in reset
(assumption 132), and the valid one of the dies at positions 0 and 3 that holds the always-on role drives CONF_ERR. With
neither valid the boot ends without CONF_ERR. -/
def Dev.identityFail (d : Dev) (code : Nat) : Dev :=
  let d1 := (upTo 4).foldl (fun x br => x.bridgeBad br code) d
  let d2 := ((upTo 4).filter (fun q => !placed q)).foldl (fun x q => { x with qrst := nset 0 x.qrst q 3 }) d1
  if placed 0 || placed 3 then
    (if placed d2.liveQ then d2 else d2.setFld F.AO_STATUS_LIVE (3 - d2.liveQ) 0).confErr code
  else { d2 with boot := { d2.boot with on := false } }

/-- Whether a direction has a passing spare for every failing wire. -/
def sparesEnough (fail bad : List Nat) : Bool :=
  decide (((upTo 612).filter (fun w => fail.contains w)).length ≤ ((upTo 24).filter (fun k => !bad.contains k)).length)

/-- Whether bridges train: while a boot runs. They train in parallel, so those that are left go on when one has ended the
boot (R209). -/
def Dev.bridgesTrain (d : Dev) : Bool :=
  (d.boot.on && decide (d.fld F.AO_STATUS_CONF 0 = 0))
    || (decide (d.fld F.AO_STATUS_CONF 0 = 2) && [0x24, 0x25].contains (d.fld F.AO_STATUS_CODE 0))

/-- BRIDGE_TRAINING (R209, R215): identity, clock lock, PRBS test, spare assignment, sub-link; scrambling starts (R200). -/
def xBridgeTraining (br : Nat) (t : BridgeTest) (d : Dev) : Dev :=
  if d.bridgesTrain = false then d
  else
    let id := identityCode Config.fuseQpos
    if id ≠ 0 then d.identityFail id
    else if !t.clkOk || !sparesEnough t.fail0 t.bad0 || !sparesEnough t.fail1 t.bad1 then d.bridgeFail br 0x24
    else if !t.nslOk || 4 < t.nsl0.length || 4 < t.nsl1.length then d.bridgeFail br 0x25
    else
      let d1 := ((d.trainDir (br * 2) t.fail0 t.bad0).trainDir (br * 2 + 1) t.fail1 t.bad1)
      let d2 := ((d1.trainNsl (br * 2) t.nsl0).trainNsl (br * 2 + 1) t.nsl1).prbsStart br
      d2.setReg (brReg br .BR_STAT) (putBits (d2.reg (brReg br .BR_STAT)) 23 16 0)

/-- A bridge trains at boot. -/
def execBridgeTraining (br : Nat) (t : BridgeTest) (s : State) : Host.Outcome State Fault Refusal :=
  .next { s with d := xBridgeTraining br t s.d }

/-! ### Repair (R210) -/

/-- Whether a live slot holds a binding to a port of the direction, at either end. -/
def Dev.dirLive (d : Dev) (dir : Nat) : Bool :=
  (upTo 32).any (fun i =>
    let ch := dir * 32 + i
    (match d.leapOutBind ch with
      | some w => d.posLive (leapFrom ch) (getBits w 61 60)
      | none => false)
    || (match d.leapInBind ch with
      | some w => d.posLive (leapTo ch) (getBits w 61 60)
      | none => false))

/-- A repair or retrain order (R210): `kind` 1 repair, 2 retrain. The model's choices (assumption 131): STATE shows REPAIR
while either runs; a repair of a direction that is not in service takes no action, and RESULT reads FAILED. -/
def Dev.repairOrder (d : Dev) (br dir kind : Nat) : Dev :=
  let x := brReg br .REPAIR_STAT
  let dd := br * 2 + dir % 2
  if (d.reg x).getLsbD 31 then d.setReg x (putBits (d.reg x) 27 24 4)
  else if d.dirLive dd then d.setRegN x (3 * 2 ^ 24 + dir % 2 * 2 ^ 8)
  else if kind = 1 ∧ d.dirUp dd = false then d.setRegN x (5 * 2 ^ 24 + dir % 2 * 2 ^ 8)
  else
    let d1 := (d.setRegN x (2 ^ 31 + dir % 2 * 2 ^ 8)).setDirState dd 3
    { d1 with repairs := nset 0 d1.repairs br kind }

/-- REPAIR: REPAIR_CMD with CMD = REPAIR on page `pg` of quarter `q`. -/
def xRepair (m : Mst) (q pg dir : Nat) (d : Dev) : Dev :=
  if !m.owner then d.denyOid m (R.REPAIR_CMD.at q pg)
  else if q ≠ 0 ∧ q ≠ 3 then d.refuse m (R.REPAIR_CMD.at q pg)
  else (d.repairOrder (brOf q pg) dir 1).okay

/-- A repair is ordered. -/
def execRepair (m : Mst) (q pg dir : Nat) (s : State) : Host.Outcome State Fault Refusal :=
  .next { s with d := xRepair m q pg dir s.d }

/-- RETRAIN: REPAIR_CMD with CMD = RETRAIN. -/
def xRetrain (m : Mst) (q pg dir : Nat) (d : Dev) : Dev :=
  if !m.owner then d.denyOid m (R.REPAIR_CMD.at q pg)
  else if q ≠ 0 ∧ q ≠ 3 then d.refuse m (R.REPAIR_CMD.at q pg)
  else (d.repairOrder (brOf q pg) dir 2).okay

/-- A retrain is ordered. -/
def execRetrain (m : Mst) (q pg dir : Nat) (s : State) : Host.Outcome State Fault Refusal :=
  .next { s with d := xRetrain m q pg dir s.d }

/-- Move one flagged wire to the lowest free passing spare; `bad` are spares that fail their retraining. Gives the state
and 0 moved, 1 no spare left, 2 every spare tried failed. The model's choice (assumption 131): the spare that carried the
wire before, which the flag condemns, is marked BAD, so that no later repair takes it, though it failed no training. -/
def Dev.moveWire (d : Dev) (dir w : Nat) (bad : List Nat) : Dev × Nat :=
  let isFree (k : Nat) : Bool := getBits (d.reg (dirReg dir .SPARE_MAP k)) 31 30 == 0
  let free := (upTo 24).filter isFree
  let tried := free.takeWhile (fun k => bad.contains k)
  let d1 := tried.foldl (fun x k => x.setRegN (dirReg dir .SPARE_MAP k) (2 ^ 30)) d
  match free.drop tried.length with
  | [] => (d1, if free.isEmpty then 1 else 2)
  | k :: _ =>
    let old := (upTo 24).find? (fun j => d1.regN (dirReg dir .SPARE_MAP j) == 2 ^ 31 + w)
    let d2 := match old with
      | some j => d1.setRegN (dirReg dir .SPARE_MAP j) (2 ^ 30)
      | none => d1
    ((d2.setRegN (dirReg dir .SPARE_MAP k) (2 ^ 31 + w)).setBit (dirReg dir .WIRE_FLAG (w / 32)) (w % 32) false, 0)

/-- The registers at the end of a repair or retrain: RESULT, MOVED, STATE, SPARES, FLAGGED. -/
def Dev.repairEnd (d : Dev) (dir res moved st : Nat) : Dev :=
  let d1 := d.setRegN (brReg (dir / 2) .REPAIR_STAT) (res * 2 ^ 24 + dir % 2 * 2 ^ 8 + Nat.min 255 moved)
  let used := ((upTo 24).filter (fun k => (d1.reg (dirReg dir .SPARE_MAP k)).getLsbD 31)).length
  ((d1.setReg (dirReg dir .DIR_STAT) (putBits (d1.reg (dirReg dir .DIR_STAT)) 20 16 used)).setDirState dir st).countFlags dir

/-- The flagged wires of a direction move in ascending order: wires moved, and the worst outcome of `moveWire`. -/
def Dev.moveFlagged (d : Dev) (dir : Nat) (bad : List Nat) : Dev × Nat × Nat :=
  (d.flagged dir).foldl (fun (a : Dev × Nat × Nat) w =>
    let m := a.1.moveWire dir w bad
    (m.1, a.2.1 + b2n (m.2 == 0), Nat.max a.2.2 m.2)) (d, 0, 0)

/-- Every port of a direction is word-aligned again: a retrain deskews every wire (R209, R210). -/
def Dev.portsAligned (d : Dev) (dir : Nat) : Dev :=
  (upTo 32).foldl (fun x i => x.setChan (dir * 32 + i) { x.chan (dir * 32 + i) with lost := false, miss := 0 }) d

/-- REPAIR_DONE (R210): what a running repair or retrain of a bridge leaves. -/
def xRepairDone (br : Nat) (bad : List Nat) (ok : Bool) (d : Dev) : Dev :=
  let x := brReg br .REPAIR_STAT
  let dir := br * 2 + getBits (d.reg x) 8 8
  let kind := nget 0 d.repairs br
  if kind = 0 then d
  else
    let d0 := { d with repairs := nset 0 d.repairs br 0 }
    if kind = 1 then
      let r := d0.moveFlagged dir bad
      r.1.repairEnd dir (if r.2.2 = 0 then 1 else if r.2.2 = 1 then 2 else 5) r.2.1 2
    else if ok then
      { d0.portsAligned dir with lfLost := nset false d0.lfLost dir false }.repairEnd dir 1 0 2
    else d0.repairEnd dir 5 0 4

/-- A repair or retrain completes. -/
def execRepairDone (br : Nat) (bad : List Nat) (ok : Bool) (s : State) : Host.Outcome State Fault Refusal :=
  .next { s with d := xRepairDone br bad ok s.d }

/-- DIR_CFG (R211, R217, LEAP-11): RWL; a reserved RATE_WIN keeps the field and is logged. -/
def xDirCfg (m : Mst) (q pg dir v : Nat) (d : Dev) : Dev :=
  let x := R.DIR_CFG.at q pg dir
  if !m.owner then d.denyOid m x
  else if q ≠ 0 ∧ q ≠ 3 then d.refuse m x
  else if d.locked .LEAP q then d.refuseAs m x .locked
  else
    let rw := bitsOf v 20 16
    let bad := decide (rw < 16) || decide (30 < rw)
    let old := getBits (d.reg x) 20 16
    let w := bitsOf v 27 24 * 2 ^ 24 + (if bad then old else rw) * 2 ^ 16 + bitsOf v 15 0
    let d1 := d.setRegN x w
    let y := R.DIR_STAT.at q pg dir
    let d2 := if getBits (d1.reg y) 31 28 = 2 then d1.setReg y (putBits (d1.reg y) 11 8 (lanesOn (bitsOf v 27 24))) else d1
    (if bad then d2.logWrite m x .reserved else d2).okay

/-- DIR_CFG is written. -/
def execDirCfg (m : Mst) (q pg dir v : Nat) (s : State) : Host.Outcome State Fault Refusal :=
  .next { s with d := xDirCfg m q pg dir v s.d }

/-! ### The NoC sub-link (R212–R214) -/

/-- The record of a sub-link direction. -/
def Dev.nslDir (d : Dev) (dir : Nat) : NslDir := nget NslDir.zero d.nsl dir

/-- Write the record of a sub-link direction. -/
def Dev.setNsl (d : Dev) (dir : Nat) (x : NslDir) : Dev := { d with nsl := nset NslDir.zero d.nsl dir x }

/-- Whether a sub-link direction is UP. -/
def Dev.nslUp (d : Dev) (dir : Nat) : Bool := getBits (d.reg (dirReg dir .NSL_STAT)) 31 28 == 2

/-- A sub-link direction goes DOWN: NSL_DOWN (R214). -/
def Dev.nslDown (d : Dev) (dir : Nat) : Dev :=
  (d.setNslState dir 0).raise (brOwner (dir / 2)) (0x01C + 2 * brPage (dir / 2) + dir % 2)

/-- The other direction of a bridge. -/
def revDir (dir : Nat) : Nat := dir / 2 * 2 + (1 - dir % 2)

/-- Whether the sender may send a flit of virtual channel `v`: the receiver has a buffer for it. -/
def NslDir.credit (x : NslDir) (v : Nat) : Bool := decide (nget 0 x.used v < Config.nslCredits v)

/-- The place in the queue of the flit that the sender sends next (R213): the first of VC0 that has credit, else the first
of another channel that has; none while the replay buffer holds 128 frames. -/
def NslDir.pick (x : NslDir) : Option Nat :=
  if 128 ≤ x.buf.length then none
  else
    match x.wait.findIdx? (fun f => decide (f.vc = 0) && x.credit 0) with
    | some i => some i
    | none => x.wait.findIdx? (fun f => x.credit f.vc)

/-- The next frame of a sender: its sequence number and flit, none for an idle frame, and the sender after it. Frames to be
replayed come first. -/
def NslDir.send (x : NslDir) : Option (Nat × NslFlit) × NslDir :=
  match x.buf.drop x.sent with
  | e :: _ => (some e, { x with sent := x.sent + 1 })
  | [] =>
    match x.pick.bind (fun i => (x.wait[i]?).map (fun f => (i, f))) with
    | none => (none, x)
    | some (i, f) =>
      (some (x.next, f), { x with wait := x.wait.eraseIdx i, next := (x.next + 1) % 1024, buf := x.buf ++ [(x.next, f)],
                                  sent := x.sent + 1, used := nset 0 x.used f.vc (nget 0 x.used f.vc + 1) })

/-- Bits [295:0] of a link frame (LEAP-9). The FSEQ of an idle frame is that of the next frame (assumption 133). -/
def nslBody (x : NslDir) (f : Option (Nat × NslFlit)) (aack : Nat) (anak : Bool) (credit : Nat) : Nat :=
  let low : Nat := match f with
    | some e => e.2.flit % 2 ^ 256 + e.2.vc % 4 * 2 ^ 256 + e.2.type % 4 * 2 ^ 258 + e.1 % 1024 * 2 ^ 260
    | none => x.next % 1024 * 2 ^ 260
  low + aack % 1024 * 2 ^ 270 + b2n anak * 2 ^ 280 + credit % 256 * 2 ^ 281

/-- CREDIT of the frame that the receiver of a direction sends back: at most 3 for each virtual channel. -/
def NslDir.creditField (x : NslDir) : Nat := (upTo 4).foldl (fun n v => n + Nat.min 3 (nget 0 x.owed v) * 4 ^ v) 0

/-- A 320-bit frame with some of its bits inverted: body and CRC. -/
def nslWire (body : Nat) (flips : List Nat) : Nat × Nat :=
  flips.foldl (fun p b => if b < 296 then (p.1 ^^^ 2 ^ b, p.2) else if b < 320 then (p.1, p.2 ^^^ 2 ^ (b - 296)) else p)
    (body, Config.crc24 body % 2 ^ 24)

/-- Credits return to the sender of a direction. -/
def NslDir.credited (x : NslDir) (credit : Nat) : NslDir :=
  (upTo 4).foldl (fun y v =>
    let n := credit / 4 ^ v % 4
    { y with used := nset 0 y.used v (nget 0 y.used v - n), owed := nset 0 y.owed v (nget 0 y.owed v - n) }) x

/-- Frames up to the acknowledged one leave the replay buffer. -/
def NslDir.acked (x : NslDir) (aack : Nat) : NslDir :=
  match x.buf.findIdx? (fun e => e.1 == aack) with
  | none => x
  | some i => { x with buf := x.buf.drop (i + 1), sent := x.sent - (i + 1), replays := 0 }

/-- ANAK for direction `dir`: its sender replays from the frame after AACK, if it has sent one; the sixteenth replay in a
row of the same frame takes the direction DOWN (R213, R214). -/
def Dev.nslReplay (d : Dev) (dir aack : Nat) : Dev :=
  let x := d.nslDir dir
  if x.buf = [] then d
  else
    let n := if x.from_ = aack then x.replays + 1 else 1
    let d1 := (d.setNsl dir { x with from_ := aack, replays := n, sent := 0 }).bump (dirReg dir .NSL_REPLAY_CNT)
    if 16 ≤ n then d1.nslDown dir else d1

/-- What AACK, ANAK and CREDIT of a received frame do at the sender of direction `dir`, if that is UP. -/
def Dev.nslAck (d : Dev) (dir body : Nat) : Dev :=
  if !d.nslUp dir then d
  else
    let aack := bitsOf body 279 270
    let d1 := d.setNsl dir (((d.nslDir dir).acked aack).credited (bitsOf body 288 281))
    if body.testBit 280 then d1.nslReplay dir aack else d1

/-- The receiver of direction `dir` takes a frame whose CRC passes (R213): an idle frame carries nothing, one in order is
delivered, any other is discarded. -/
def Dev.nslTake (d : Dev) (dir body : Nat) : Dev :=
  let x := d.nslDir dir
  let f : NslFlit := ⟨bitsOf body 257 256, bitsOf body 259 258, bitsOf body 255 0⟩
  if f.type = 0 then d
  else if bitsOf body 269 260 = x.expect then
    (d.setNsl dir { x with expect := (x.expect + 1) % 1024, nak := false, owed := nset 0 x.owed f.vc (nget 0 x.owed f.vc + 1) }).send
      (.crossed dir f)
  else d.setNsl dir { x with nak := true }

/-- NSL_FRAME (R212, R213): one frame crosses direction `dir` with the bits `flips` inverted; `offer` are the flits that the
NoC has handed to its sender since the last. AACK, ANAK and CREDIT speak of the other direction. -/
def xNslFrame (dir : Nat) (offer : List NslFlit) (flips : List Nat) (d : Dev) : Dev :=
  if !d.nslUp dir then d
  else
    let x := d.nslDir dir
    let y := d.nslDir (revDir dir)
    let r := ({ x with wait := x.wait ++ offer } : NslDir).send
    let w := nslWire (nslBody r.2 r.1 ((y.expect + 1023) % 1024) y.nak y.creditField) flips
    let d1 := d.setNsl dir r.2
    if w.2 = Config.crc24 w.1 % 2 ^ 24 then (d1.nslAck (revDir dir) w.1).nslTake dir w.1
    else (d1.setNsl dir { r.2 with nak := true }).bump (dirReg dir .NSL_CRC_CNT)

/-- A sub-link frame is received. -/
def execNslFrame (dir : Nat) (offer : List NslFlit) (flips : List Nat) (s : State) : Host.Outcome State Fault Refusal :=
  .next { s with d := xNslFrame dir offer flips s.d }

/-- NFCLK_LOSS (R214). -/
def xNfclkLoss (dir : Nat) (d : Dev) : Dev := if d.nslUp dir then d.nslDown dir else d

/-- The forwarded clock of a sub-link is lost. -/
def execNfclkLoss (dir : Nat) (s : State) : Host.Outcome State Fault Refusal :=
  .next { s with d := xNfclkLoss dir s.d }

end Sys2Proof.Machine
end

