-- ==== Sys2Proof/Machine/Array.lean ====
section
/-! DEFINITION. The commands of the array and of tile memory (chapters 02, 03, 05): the executed cycle, write-backs,
draws, NoC accesses to tile memory, bank handover, address-generator registers. -/

namespace Sys2Proof.Machine

/-! ### EXECUTED_CYCLE -/

/-- What an executed cycle at DTIME `t` does (R94): errors strike, then array writes, reads and completions, the contexts,
push commits, leap ports. -/
def Dev.cycle (d : Dev) (t : Nat) (ups : List Upset) : Dev :=
  let d1 := (ups.foldl (fun x u => x.upset u) d).landings t
  let r := d1.contexts t
  (r.1.commits t).leapCycle t r.2

/-- Every element whose draw lies 6 ACLK back enters its head stage (R60). -/
def Dev.stagesDue (d : Dev) (now : Nat) : Dev :=
  { d with arr := { d.arr with tports := d.arr.tports.map (fun e =>
      let due := e.2.transit.takeWhile (fun w => decide (w.2 + 6 ≤ now))
      (e.1, { e.2 with head := e.2.head ++ due.map (fun w => w.1), transit := e.2.transit.drop due.length })) } }

/-- EXECUTED_CYCLE (R28, R29): only while the array runs in this tick, at most 64 times. -/
def xExecutedCycle (ups : List Upset) (k : Clk) (d : Dev) : Dev :=
  if k.runs ∧ k.cyc < 64 then (d.stagesDue k.aclk).cycle k.dtime ups else d

/-- DTIME advances by one on every cycle in which the array executes (R28). -/
def Clk.cycle (k : Clk) : Clk :=
  if k.runs ∧ k.cyc < 64 then { k with dtime := k.dtime + 1, cyc := k.cyc + 1 } else k

/-- One executed cycle. -/
def execExecutedCycle (ups : List Upset) (s : State) : Host.Outcome State Fault Refusal :=
  .next { s with d := xExecutedCycle ups s.clk s.d, clk := s.clk.cycle }

/-! ### CTX_WRITEBACK -/

/-- CTX_WRITEBACK (R96, R155): an entry that a read has found corrected is written back; an entry written in the meantime
has no error left. -/
def xCtxWriteback (st : Store) (T cell idx : Nat) (d : Dev) : Dev :=
  let key := match st with
    | .sw => eccSw T idx
    | .seqw => eccSeq T idx
    | _ => eccCtx T cell idx
  if (d.mark key).isFound then d.setMark key .ok else d

/-- A corrected entry is written back. -/
def execCtxWriteback (st : Store) (T cell idx : Nat) (s : State) : Host.Outcome State Fault Refusal :=
  .next { s with d := xCtxWriteback st T cell idx s.d }

/-! ### DRAW, HEAD_STAGE_ENTRY -/

/-- Whether a vertical port is bound as an input. -/
def Dev.vpIn (d : Dev) (vp : Nat) : Bool := (d.vpCfg vp).getLsbD 63 && !(d.vpCfg vp).getLsbD 62

/-- DRAW (R136): one committed element, ahead of any mark, when stage and transit hold fewer than 8, and the port has not
drawn at this ACLK of an executing tick. -/
def xDraw (vp : Nat) (k : Clk) (d : Dev) : Dev :=
  let t := d.vpTile vp
  let p := d.tport t.1 t.2
  if d.vpIn vp ∧ p.head.length + p.transit.length < 8 ∧ (k.runs = false ∨ p.transit.all (fun e => e.2 != k.aclk)) then
    match d.fifo vp with
    | .word w :: r => (d.setFifo vp r).setTport t.1 t.2 { p with transit := p.transit ++ [(w, k.aclk)] }
    | _ => d
  else d

/-- A vertical port draws an element. -/
def execDraw (vp : Nat) (s : State) : Host.Outcome State Fault Refusal := .next { s with d := xDraw vp s.clk s.d }

/-- HEAD_STAGE_ENTRY (R136, R60): the oldest element in transit enters the head stage 6 ACLK of wall time after its draw.
In a tick that executes nothing the command tells that they have passed. -/
def xHeadStageEntry (vp : Nat) (k : Clk) (d : Dev) : Dev :=
  let t := d.vpTile vp
  let p := d.tport t.1 t.2
  if d.vpIn vp then
    match p.transit with
    | w :: r => if k.runs = true ∧ k.aclk < w.2 + 6 then d
      else d.setTport t.1 t.2 { p with transit := r, head := p.head ++ [w.1] }
    | [] => d
  else d

/-- A drawn element enters the head stage. -/
def execHeadStageEntry (vp : Nat) (s : State) : Host.Outcome State Fault Refusal :=
  .next { s with d := xHeadStageEntry vp s.clk s.d }

/-! ### NoC accesses to tile memory (R147) -/

/-- DOMAIN of a cluster: 0 ON, 1 BASK, 2 OFF. -/
def Dev.cluDomain (d : Dev) (c : Nat) : Nat := getBits (d.reg (cluReg c .CLU_STAT)) 29 28

/-- CSTATE of a cluster: 0 ACTIVE, 1 REGROWING, 2 RETIRED. -/
def Dev.cluState (d : Dev) (c : Nat) : Nat := getBits (d.reg (cluReg c .CLU_STAT)) 31 30

/-- Whether bank `b` of tile `T` molts. -/
def Dev.bankMolting (d : Dev) (T b : Nat) : Bool := (d.reg (d.tileReg T .TMEM_STAT)).getLsbD b

/-- Replace the `n`th waiting access. -/
def Dev.setTmemReq (d : Dev) (n : Nat) (r : TmemReq) : Dev := { d with arr := { d.arr with tmemq := d.arr.tmemq.set n r } }

/-- The address of a waiting access: that of its first word. -/
def TmemReq.addr (r : TmemReq) : Nat := tmemAddr r.tile r.bank (r.word - r.got.length)

/-- A waiting access ends with SLVERR, and its target records it (09 R261). -/
def Dev.tmemFail (d : Dev) (r : TmemReq) : Dev :=
  (d.nocErr (quarterOf (tileCluster r.tile)) r.mid r.addr .slverr).answer .slverr 0

/-- A read of several words ends with SLVERR: the words that failed are 0 (09 R261). -/
def Dev.tmemFailBurst (d : Dev) (r : TmemReq) (ws : List Word) : Dev :=
  (d.nocErr (quarterOf (tileCluster r.tile)) r.mid r.addr .slverr).answerBurst .slverr ws

/-- Remove the `n`th waiting access. -/
def Dev.dropTmemReq (d : Dev) (n : Nat) : Dev := { d with arr := { d.arr with tmemq := d.arr.tmemq.eraseIdx n } }

/-- One word of a waiting access in the array cycle to come, which leaves port B free. A word that cannot be corrected
reads 0, and the burst ends with SLVERR once all its words are read (09 R261). -/
def Dev.tmemWord (d : Dev) (n : Nat) (r : TmemReq) (k : Clk) : Dev :=
  let last := decide (r.left ≤ 1)
  if r.write then
    let v := r.data.headD 0
    let x := d.nocWrite k r.tile r.bank r.word v
    let d2 := x.2.takeB k true r.tile r.bank
    let col := r.collided || x.1
    if last then (d2.dropTmemReq n).answer (if col then .collided else .okay) 0
    else d2.setTmemReq n { r with word := r.word + 1, data := r.data.drop 1, left := r.left - 1, collided := col, got := r.got ++ [v] }
  else
    let x := d.nocRead k r.tile r.bank r.word
    let d2 := x.2.takeB k false r.tile r.bank
    let bad := r.collided || x.1.isNone
    let got := r.got ++ [x.1.getD 0]
    if last then
      if bad then (d2.dropTmemReq n).tmemFailBurst r got else (d2.dropTmemReq n).answerBurst .okay got
    else d2.setTmemReq n { r with word := r.word + 1, left := r.left - 1, collided := bad, got := got }

/-- Whether an earlier access of the same master to the same 512-byte block waits before the `n`th (09 R257). -/
def Dev.tmemBehind (d : Dev) (n : Nat) (r : TmemReq) : Bool :=
  (d.arr.tmemq.take n).any (fun x => decide (x.mid = r.mid)
    && decide (tmemAddr x.tile x.bank x.word / 512 = tmemAddr r.tile r.bank r.word / 512))

/-- TMEM_NOC_ACCESS (R145–R147): the `n`th waiting access, unless an earlier one must go first, uses port B of its bank in the array cycle to come, unless a
cell does, and also in a tick that executes nothing and in a debug halt; once the cycles of an executing tick are over it
waits for the next tick; an access to a molting bank or to a cluster in BASK or OFF is answered SLVERR. -/
def xTmemNocAccess (n : Nat) (k : Clk) (d : Dev) : Dev :=
  match d.arr.tmemq[n]? with
  | none => d
  | some r =>
    if d.tmemBehind n r then d
    else if d.bankMolting r.tile r.bank ∨ d.cluDomain (tileCluster r.tile) ≠ 0 then (d.dropTmemReq n).tmemFail r
    else if k.runs = true ∧ k.executing = false then d
    else if d.portBusy k r.write r.tile r.bank then d
    else d.tmemWord n r k

/-- NOC_TIMEOUT (R147): TMEM_NOCTO cycles without a free port B; 0 is no limit. -/
def xNocTimeout (n : Nat) (d : Dev) : Dev :=
  match d.arr.tmemq[n]? with
  | none => d
  | some r =>
    if getBits (d.reg (d.tileReg r.tile .TMEM_NOCTO)) 15 0 = 0 then d
    else ((d.dropTmemReq n).setBit (d.tileReg r.tile .TMEM_FLAGS) (8 + r.bank) true).tmemFail r

/-- TMEM_WRITEBACK (R152): a word that a read has found corrected, in a cycle in which port B carries no write; a later
write left no error to mend. -/
def xTmemWriteback (T b w : Nat) (k : Clk) (d : Dev) : Dev :=
  let a := tmemAddr T b w
  if (nget Ecc.ok d.ecc a).isFound && !d.portBusy k true T b then { d with ecc := nset .ok d.ecc a .ok } else d

/-- A corrected tile-memory word is written back. -/
def execTmemWriteback (T b w : Nat) (s : State) : Host.Outcome State Fault Refusal :=
  .next { s with d := xTmemWriteback T b w s.clk s.d }

/-! ### TMEM_OWN, BANK_MOLT (R149, R150, R156) -/

/-- Whether page `p` of a cluster serves a logical tile (MAPPED). -/
def Dev.pageMapped (d : Dev) (q l p : Nat) : Bool := (d.reg (R.TILE_ID.at q l p)).getLsbD 30

/-- The tile number that a mapped page serves. -/
def Dev.pageTile (d : Dev) (q l p : Nat) : Nat :=
  getBits (d.reg (R.TILE_ID.at q l p)) 21 16 * 64 + getBits (d.reg (R.TILE_ID.at q l p)) 13 8

/-- Whether the owner that a TMEM_OWN field names is live (R149, R167). -/
def Dev.ownLive (d : Dev) (c field : Nat) : Bool := decide (8 ≤ field) && d.posLive c (field % 4)

/-- Whether bank `b` may be handed from field `o` to field `f`. -/
def Dev.handoverOk (d : Dev) (c T b o f : Nat) : Bool :=
  !d.ownLive c o && !d.ownLive c f && !d.bankMolting T b && !f.testBit 2

/-- Hand bank `b` of tile `T` over: the field changes, the bank molts (R150). -/
def Dev.handover (d : Dev) (T b f : Nat) : Dev :=
  let x := d.tileReg T .TMEM_OWN
  let d1 := d.setReg x (putBits (d.reg x) (4 * b + 3) (4 * b) f)
  (d1.setBit (d1.tileReg T .TMEM_STAT) b true).tmemZero T b

/-- TMEM_OWN (R149): each named bank on its own; a change that may not be made is dropped. -/
def xTmemOwn (m : Mst) (q l p v : Nat) (d : Dev) : Dev :=
  let x := R.TMEM_OWN.at q l p
  let c := clusterOf q l
  if !m.owner then d.refuseSource m x
  else if !d.pageMapped q l p then d.refuse m x
  else
    let T := d.pageTile q l p
    let old := d.regN x
    let fo (n b : Nat) := n / 2 ^ (4 * b) % 16
    let ch := (upTo 4).filter (fun b => fo v b != fo old b)
    let good := ch.filter (fun b => d.handoverOk c T b (fo old b) (fo v b))
    let d1 := good.foldl (fun y b => y.handover T b (fo v b)) d
    if good.length = ch.length then d1.okay else d1.refuse m x

/-- TMEM_OWN is written. -/
def execTmemOwn (m : Mst) (q l p v : Nat) (s : State) : Host.Outcome State Fault Refusal :=
  .next { s with d := xTmemOwn m q l p v s.d }

/-- BANK_MOLT (R150): the molt ends and the new owner takes the bank. -/
def xBankMolt (T b : Nat) (d : Dev) : Dev :=
  if d.bankMolting T b then (d.setBit (d.tileReg T .TMEM_STAT) b false).tmemZero T b else d

/-- A bank molt ends. -/
def execBankMolt (T b : Nat) (s : State) : Host.Outcome State Fault Refusal := .next { s with d := xBankMolt T b s.d }

/-- AGREG (R148, R156): accepted only while the slot at the position is not live. -/
def xAgreg (m : Mst) (q l p n v : Nat) (d : Dev) : Dev :=
  let x := R.AGREG.at q l p n
  if !m.owner then d.refuseSource m x
  else if !d.pageMapped q l p ∨ d.posLive (clusterOf q l) (n / 8) then d.refuse m x
  else (d.setRegN x (v &&& 0xFFF07FF07FF07FF)).okay

/-- An address-generator register is written. -/
def execAgreg (m : Mst) (q l p n v : Nat) (s : State) : Host.Outcome State Fault Refusal :=
  .next { s with d := xAgreg m q l p n v s.d }

end Sys2Proof.Machine
end

