-- ==== Sys2Proof/Machine/Cmds.lean ====
section
/-! DEFINITION. What the other units report to the queue engine (chapter 14): the command records, the ends of their
stream-engine jobs and of their tasks. -/

namespace Sys2Proof.Machine

/-- Record `r` of slice `q`. -/
def cmdKey (q r : Nat) : Nat := q * 4096 + r

/-- A command record. -/
def Dev.cmd (d : Dev) (k : Nat) : Option Cmd := nget Option.none d.cmds k

/-- Write or free a command record; QE_STAT counts those in use. -/
def Dev.setCmd (d : Dev) (k : Nat) (c : Option Cmd) : Dev :=
  let d1 := { d with cmds := nset Option.none d.cmds k c }
  d1.setRegN (R.QE_STAT.at (k / 4096)) ((d1.cmds.filter (fun e => decide (e.1 / 4096 = k / 4096))).length)

/-- The records of a slice, as key and record. -/
def Dev.cmdsOf (d : Dev) (q : Nat) : List (Nat × Cmd) :=
  d.cmds.filterMap (fun e => if e.1 / 4096 = q then e.2.map (fun c => (e.1, c)) else none)

/-- One command of a pair has ended or was discarded: INFL falls. -/
def Dev.inflDown (d : Dev) (q i : Nat) : Dev :=
  d.setFld F.QP_STAT_INFL (d.fld F.QP_STAT_INFL q i - 1) q i

/-- A record is freed; its reuse epoch advances (R400). -/
def Dev.freeCmd (d : Dev) (k i : Nat) : Dev :=
  let d1 := (d.setCmd k none).inflDown (k / 4096) i
  { d1 with epochs := nset 0 d1.epochs k ((nget 0 d1.epochs k + 1) % 16) }

/-- A command ends with a status and a result: its CQ entry falls due, or is discarded (R387, R409). -/
def Dev.endCmd (d : Dev) (k status result : Nat) : Dev :=
  match d.cmd k with
  | none => d
  | some c =>
    if c.discard then d.freeCmd k c.qp
    else d.setCmd k (some { c with st := .ended, status := status, result := result })

/-- What a command waited for has come about: every started command that waits for it ends. -/
def Dev.waitDone (d : Dev) (w : CmdWait) (status result : Nat) : Dev :=
  (d.cmds.filterMap (fun e => match e.2 with
    | some c => if c.st = .running ∧ c.wait = w then some e.1 else none
    | none => none)).foldl (fun x k => x.endCmd k status result) d

/-- The command status of a MEM-6 code; 0 is a job that moved all its bytes. -/
def memStatus (code : Nat) : Nat :=
  match code with
  | 0 => 0x00
  | 1 => 0x03
  | 2 => 0x03
  | 3 => 0x0C
  | 4 => 0x09
  | 5 => 0x01
  | 6 => 0x0B
  | 7 => 0x0A
  | 8 => 0x01
  | _ => 0x0A

/-- The status of the first job, in buffer-reference order, that ended with an error. -/
def jobFailed (js : List JobRef) : Option Nat :=
  (js.find? (fun x => decide (x.code ≠ some 0 ∧ x.code ≠ some 8 ∧ x.code ≠ none))).map (fun x => memStatus (x.code.getD 0))

/-- The status that the jobs of a command give (R272): the first failing job's in buffer-reference order; a job that
was only stopped gives ABORTED (R273). -/
def jobsStatus (js : List JobRef) : Nat :=
  match jobFailed js with
  | some st => st
  | none => if js.any (fun x => decide (x.code = some 8)) then 0x01 else 0x00

/-- An INVOKE completes when every job of its references has ended and its last task is DONE (R27, R272). -/
def Dev.cmdTry (d : Dev) (k : Nat) : Dev :=
  match d.cmd k with
  | none => d
  | some c =>
    match c.fin with
    | none => d
    | some f =>
      if c.st = .running ∧ c.todo = [] ∧ c.jobs.all (fun x => x.code.isSome) then
        d.endCmd k (if f.1 ≠ 0 then f.1 else jobsStatus c.jobs) f.2
      else d

/-- Whether a job reference is the running job of job slot `j` of engine `vp`. -/
def JobRef.isOpen (x : JobRef) (vp j : Nat) : Bool := decide (x.vp = vp ∧ x.j = j ∧ x.code = none)

/-- The record that holds the job in job slot `j` of engine `vp`, if a command put it there. -/
def Dev.jobCmd (d : Dev) (vp j : Nat) : Option Nat :=
  (d.cmds.find? (fun e => match e.2 with
    | some c => c.jobs.any (fun x => x.isOpen vp j)
    | none => false)).map (fun e => e.1)

/-- A job has ended with a MEM-6 code, 0 for none: its command takes note. -/
def Dev.jobNote (d : Dev) (vp j code : Nat) : Dev :=
  match d.jobCmd vp j with
  | none => d
  | some k =>
    match d.cmd k with
    | none => d
    | some c =>
      (d.setCmd k (some { c with jobs := c.jobs.map (fun x =>
        if x.isOpen vp j then { x with code := some code } else x) })).cmdTry k

/-- COMPL, STATUS and RESULT of a task reach the queue engine (R285, R389): the task's place in the reserved range of
its quarter names the record. -/
def Dev.complNote (d : Dev) (task status result : Nat) : Dev :=
  let h := task / 2 ^ 18
  let n := task % 2 ^ 18 - d.regN (R.QE_TCB_FIRST.at h)
  if task % 2 ^ 18 < d.regN (R.QE_TCB_FIRST.at h) ∨ 12288 ≤ n then d
  else
    let k := cmdKey (n / 3072) (h * 1024 + n % 3072 / 3)
    match d.cmd k with
    | none => d
    | some c => (d.setCmd k (some { c with fin := some (status, result) })).cmdTry k

/-- The task of the chain of record `k`: 0 prologue, 1 NODE, 2 epilogue (R389). -/
def Dev.chainTask (d : Dev) (k j : Nat) : Nat :=
  let h := k % 4096 / 1024
  h * 2 ^ 18 + (d.regN (R.QE_TCB_FIRST.at h) + 3072 * (k / 4096) + 3 * (k % 1024) + j) % 2 ^ 18

end Sys2Proof.Machine
end

