-- ==== Sys2Proof/Machine/Memory.lean ====
section
/-! DEFINITION. HBM, memory windows, the stream cache and the NoC's routes (chapter 09, rows HBM_ACCESS, WIN_ENT,
WINDOW_MOLT, FENCE_COMPLETION, GRP_RATE, NOC_WEIGHT). -/

namespace Sys2Proof.Machine

/-! ### Quarters, masters and routes (00 R22, 09 R252, R254) -/

/-- The quarter at which a master's requests enter the NoC (MEM-2): core, stream engine, queue engine, channel-sequencer
group; the debug port, boot engine and power manager sit with the live always-on domain; host links are 8 to a
quarter. -/
def Dev.midQuarter (d : Dev) (mid : Nat) : Nat :=
  if mid < 0x40 then mid / 16
  else if mid < 0x440 then quarterOf ((mid - 0x40) / 16)
  else if mid < 0x480 then (mid - 0x440) / 16
  else if mid < 0x4C0 then (mid - 0x480) / 16
  else if mid < 0x500 then d.liveQ
  else (mid - 0x500) / 8 % 4

/-- The bridge directions that a packet from quarter `s` to quarter `t` crosses: east–west first (R22). -/
def routeDirs (s t : Nat) : List Nat :=
  let ew := if s % 2 = t % 2 then [] else [(if s < 2 then 0 else 2) * 2 + s % 2]
  let u := s / 2 * 2 + t % 2
  ew ++ (if u / 2 = t / 2 then [] else [(if u % 2 = 0 then 1 else 3) * 2 + u / 2])

/-- The quarters that a packet from `s` to `t` visits. -/
def routeQuarters (s t : Nat) : List Nat := [s, s / 2 * 2 + t % 2, t]

/-- Whether a packet gets from `s` to `t`: every sub-link UP, no die on the way OFF or in reset (R524, R527, R546). -/
def Dev.pathOk (d : Dev) (s t : Nat) : Bool :=
  (routeDirs s t).all (fun x => d.nslUp x)
    && (routeQuarters s t).all (fun q => decide (d.domCur q 16 ≠ 2) && !d.inReset q)

/-- Whether a request from `s` to `t` and its response get through (R22, R546). -/
def Dev.routeOk (d : Dev) (s t : Nat) : Bool := d.pathOk s t && d.pathOk t s

/-- Put power domain `i` of quarter `q` into the state ON, BASK or OFF; a cluster's CLU_STAT shows the same. -/
def Dev.setDom (d : Dev) (q i cur : Nat) : Dev :=
  let d1 := d.setFld F.PWR_DOM_CUR cur q i
  if i < 16 then d1.setReg (R.CLU_STAT.at q i) (putBits (d1.reg (R.CLU_STAT.at q i)) 29 28 cur) else d1

/-- An access inside a command wakes a basking domain and waits for it (R527): the command stands for the access with
its wait. -/
def Dev.wakeDom (d : Dev) (q i : Nat) : Dev := if d.domCur q i = 1 then d.setDom q i 0 else d

/-! ### Answers of a request -/

/-- The response to a request and its read data. -/
structure Ans where
  code : RespCode
  data : List Byte
  deriving DecidableEq, Repr

/-- The first applicable response of a burst with mixed outcomes (R261): DECERR, SLVERR, COLLIDED, OKAY. -/
def RespCode.worse (a b : RespCode) : RespCode := if a.num < b.num then b else a

/-- A request that fails at its target in quarter `q`. -/
def Dev.fail (d : Dev) (q : Nat) (a : Access) (c : RespCode) : Dev × Ans :=
  (d.nocErr q a.m.mid a.addr c, ⟨c, List.replicate (if a.write then 0 else a.size) 0⟩)

/-! ### Windows (R250, R251) -/

/-- Bytes of HBM homed in one quarter. -/
def hbmQuarter : Nat := 2 ^ 28 * orderHbm Config.order

/-- Whether an address is HBM of this ordering code. -/
def isHbm (a : Nat) : Bool := decide (a < 4 * hbmQuarter)

/-- The home quarter of an HBM address. -/
def homeOf (a : Nat) : Nat := a / hbmQuarter

/-- The stack of its quarter, 0 or 1, that holds an HBM address: o[13]. -/
def stackOf (a : Nat) : Nat := a % hbmQuarter / 2 ^ 13 % 2

/-- WIN_ENT of an HBM address. -/
def winReg (a : Nat) : RKey := R.WIN_ENT.at (homeOf a) (a % hbmQuarter / 2 ^ 21)

/-- The window check (R251). -/
def Dev.winOk (d : Dev) (oid a : Nat) (write : Bool) : Bool :=
  let w := d.reg (winReg a)
  !w.getLsbD 30 && (oid == 0 || (w.getLsbD 31 && getBits w 10 0 == oid && (!write || !w.getLsbD 29)))

/-- A failed window check: counted, logged, WIN_FAULT raised (R251). -/
def Dev.winFault (d : Dev) (mid oid a : Nat) (write : Bool) : Dev :=
  let q := homeOf a
  let rcd := b2n write * 2 ^ 61 + b2n ((d.reg (winReg a)).getLsbD 30) * 2 ^ 60 + mid % 4096 * 2 ^ 48
    + oid % 2048 * 2 ^ 37 + a % hbmQuarter / 2 ^ 21 % 2 ^ 15
  ((d.bump (R.WIN_FAULT_CNT.at q)).logFirst (R.WIN_FAULT_LOG.at q) rcd).raise q 0x012

/-! ### The stream cache (R265) -/

/-- The owner class of an OID in quarter `q`. -/
def Dev.sccClass (d : Dev) (q oid : Nat) : Nat :=
  getBits (d.reg (R.SCC_CLASS.at q (oid / 8))) (4 * (oid % 8) + 3) (4 * (oid % 8))

/-- The key of way `w` of the set of block `blk` in quarter `q`. -/
def sccKey (q blk w : Nat) : Nat := (q * 16384 + (Config.sccSet blk).val) * 16 + w

/-- A line of the cache. -/
def Dev.sccLine (d : Dev) (k : Nat) : SccLine := nget SccLine.none d.scc k

/-- The way that holds block `blk` of quarter `q`, if any. -/
def Dev.sccFind (d : Dev) (q blk : Nat) : Option Nat :=
  (upTo 16).find? (fun w => decide ((d.sccLine (sccKey q blk w)).tag = blk + 1))

/-- Write a line. -/
def Dev.setScc (d : Dev) (k : Nat) (l : SccLine) : Dev := { d with scc := nset SccLine.none d.scc k l }

/-- A miss allocates in a way that the mask allows; the spec leaves the choice among them open (R265). The line it
evicts is written back: its words stand in memory. -/
def Dev.sccAlloc (d : Dev) (q blk mask : Nat) (dirty : Bool) : Dev :=
  let ways := onesOf mask 16
  if ways = [] then d
  else
    let f := d.fresh
    f.2.setScc (sccKey q blk (ways.getD (f.1.toNat % ways.length) 0)) ⟨blk + 1, dirty⟩

/-- Poison the 64-byte units from `a` to `a + n`. -/
def Dev.poisonUnits (d : Dev) (a n : Nat) : Dev :=
  { d with ecc := (upTo ((n + 63) / 64)).foldl (fun m i => nset .ok m (a / 64 * 64 + 64 * i) (.poison 0)) d.ecc }

/-- A cached line that reads uncorrectable: a clean one is a miss, a dirty one poisons its data (R265). -/
def Dev.sccUe (d : Dev) (q blk k : Nat) : Dev :=
  let d1 := d.logFirst (R.SCC_UE_LOG.at q) (blk * 256 % 2 ^ 48)
  if (d1.sccLine k).dirty then d1.poisonUnits (blk * 256) 256 else d1.setScc k SccLine.none

/-- The error that a request's line meets when it hits. -/
def Dev.sccErr (d : Dev) (q blk : Nat) (e : HbmErr) : Dev :=
  match d.sccFind q blk with
  | some w =>
    match e with
    | .lineUe => d.sccUe q blk (sccKey q blk w)
    | .lineCe => d.bump (R.SCC_CE_CNT.at q)
    | _ => d
  | none => d

/-- The request passes one line of the cache: hit or miss counted, the line allocated or dirtied. Gives whether it hit. A
cache that is not enabled makes it a miss that does not allocate (MEM-9). -/
def Dev.sccLineOf (d : Dev) (oid q blk : Nat) (write noalloc : Bool) (e : HbmErr) : Dev × Bool :=
  let cls := d.sccClass q oid
  if (d.reg (R.SCC_CFG.at q)).getLsbD 0 = false then (d.bump (R.SCC_MISS.at q cls), false)
  else
    let d0 := d.sccErr q blk e
    match d0.sccFind q blk with
    | some w =>
      let k := sccKey q blk w
      let d1 := d0.bump (R.SCC_HIT.at q cls)
      (if write then d1.setScc k { d1.sccLine k with dirty := true } else d1, true)
    | none =>
      let d1 := d0.bump (R.SCC_MISS.at q cls)
      (if noalloc then d1 else d1.sccAlloc q blk (getBits (d1.reg (R.SCC_WAYS.at q cls)) 15 0) write, false)

/-- The 256-byte blocks that `n` bytes from `a` touch. -/
def blocksOf (a n : Nat) : List Nat := (upTo ((a % 256 + n + 255) / 256)).map (fun i => a / 256 + i)

/-- The request passes the cache, line by line; the error strikes the first. Gives the blocks that missed. -/
def Dev.sccPass (d : Dev) (oid a n : Nat) (write noalloc : Bool) (e : HbmErr) : Dev × List Nat :=
  (blocksOf a n).foldl (fun (x : Dev × List Nat) blk =>
    let r := x.1.sccLineOf oid (homeOf a) blk write noalloc (if blk = a / 256 then e else .none)
    (r.1, if r.2 then x.2 else x.2 ++ [blk])) (d, [])

/-! ### HBM_ACCESS -/

/-- Whether the 64-byte unit of an address is poisoned. -/
def Dev.unitBad (d : Dev) (a : Nat) : Bool := (nget Ecc.ok d.ecc (a / 64 * 64)).bad.isSome

/-- HBM_UE (R263): log, count, raise; the unit stays poisoned. -/
def Dev.hbmUe (d : Dev) (a : Nat) : Dev :=
  let q := homeOf a
  let s := stackOf a
  let d1 := d.poisonUnits a 1
  ((d1.bump (R.HBM_UE_CNT.at q s)).logFirst (R.HBM_UE_LOG.at q s) (a / 64 * 64 % 2 ^ 48)).raise q (0x010 + s)

/-- Bytes of a read with those of poisoned units as 0. -/
def Dev.goodBytes (d : Dev) (a : Nat) : Nat → List Byte
  | 0 => []
  | n + 1 => (if d.unitBad a then 0 else d.byte a) :: d.goodBytes (a + 1) n

/-- The units that a write covers whole lose their poison (R263). -/
def Dev.coverUnits (d : Dev) (a n : Nat) : Dev :=
  { d with ecc := d.ecc.filter (fun x => !(decide (a ≤ x.1) && decide (x.1 + 64 ≤ a + n) && decide (x.1 % 64 = 0))) }

/-- The addresses of the 64-byte units that `n` bytes from `a` touch. -/
def unitsOf (a n : Nat) : List Nat := (upTo ((a % 64 + n + 63) / 64)).map (fun i => a / 64 * 64 + 64 * i)

/-- A request to HBM at its home quarter: window check, cache, memory (R251, R263, R265). -/
def Dev.hbmServe (d : Dev) (a : Access) (noalloc : Bool) (e : HbmErr) : Dev × Ans :=
  if !d.winOk a.m.oid a.addr a.write then
    (d.winFault a.m.mid a.m.oid a.addr a.write, ⟨.slverr, List.replicate (if a.write then 0 else a.size) 0⟩)
  else
    let r := d.sccPass a.m.oid a.addr a.size a.write noalloc e
    if a.write then ((r.1.setBytes a.addr (leBytes a.data a.size)).coverUnits a.addr a.size, ⟨.okay, []⟩)
    else
      let d1 := if r.2.contains (a.addr / 256) then
          match e with
          | .ce => r.1.bump (R.HBM_CE_CNT.at (homeOf a.addr) (stackOf a.addr))
          | .ue => r.1.poisonUnits a.addr 1
          | _ => r.1
        else r.1
      let bad := (unitsOf a.addr a.size).filter (fun u => d1.unitBad u)
      let d2 := (bad.filter (fun u => r.2.contains (u / 256))).foldl (fun x u => x.hbmUe u) d1
      if bad = [] then (d2, ⟨.okay, d2.bytes a.addr a.size⟩)
      else (d2.nocErr (homeOf a.addr) a.m.mid a.addr .slverr, ⟨.slverr, d2.goodBytes a.addr a.size⟩)

/-- A request to HBM from its master: route, power, home quarter (R22, R251, R527, R546). -/
def Dev.hbm (d : Dev) (a : Access) (noalloc : Bool) (e : HbmErr) : Dev × Ans :=
  let q := homeOf a.addr
  let s := d.midQuarter a.m.mid
  if !isHbm a.addr then d.fail s a .decerr
  else if !d.routeOk s q ∨ d.domCur q (17 + stackOf a.addr) = 2 then d.fail q a .slverr
  else ((d.wakeDom q 16).wakeDom q (17 + stackOf a.addr)).hbmServe a noalloc e

/-- A read by a master of the device owner. -/
def rdReq (mid oid addr size : Nat) : Access := ⟨⟨mid, oid, false⟩, addr, size, false, 0⟩

/-- A write by a master. -/
def wrReq (mid oid addr size data : Nat) : Access := ⟨⟨mid, oid, false⟩, addr, size, true, data⟩

/-- The read data of a response as 64-bit words. -/
def wordsOf : List Byte → Nat → List Word
  | [], _ => []
  | _, 0 => []
  | bs, n + 1 => BitVec.ofNat 64 (leNat (bs.take 8)) :: wordsOf (bs.drop 8) n

/-- Answer with a response. -/
def Dev.reply (d : Dev) (x : Ans) : Dev := d.answerBurst x.code (wordsOf x.data (x.data.length / 8 + 1))

/-- The shape of a memory burst: 1 to 512 bytes inside one 512-byte block (R256). -/
def burstOk (a : Access) : Bool := decide (0 < a.size) && decide (a.addr % 512 + a.size ≤ 512)

/-! ### What a master issues (R252, R256–R258, R262) -/

/-- The OID that the P4096 sets on a master's requests (R252, MEM-2): 0 for cores, channel-sequencer groups and the masters
0x4C0 to 0x4C2, that of the running job for a stream engine; that of the function for a queue engine or a host link, which
the request names. -/
def Dev.carriedOid (d : Dev) (m : Mst) : Nat :=
  if m.mid < 0x40 ∨ (0x480 ≤ m.mid ∧ m.mid < 0x500) then 0
  else if m.mid < 0x440 then
    match (nget Sen.zero d.sen (m.mid - 0x40)).run with
    | some r => getBits (d.reg (R.JATTR.at (d.midQuarter m.mid) ((m.mid - 0x40) % 256) r.j)) 21 11
    | none => 0
  else m.oid

/-- A request as its master issues it. -/
def Dev.issued (d : Dev) (a : Access) : Access := { a with m := { a.m with oid := d.carriedOid a.m } }

/-- The tags that a master has outstanding. -/
def Dev.tagsOf (d : Dev) (mid : Nat) : List Nat :=
  (d.arr.tmemq.filter (fun r => decide (r.mid = mid))).map (fun r => r.tag)
    ++ (d.waiters.filter (fun w => decide (w.req.m.mid = mid))).map (fun w => w.tag)

/-- The epoch of a master's tags (R262). -/
def Dev.epochOf (d : Dev) (mid : Nat) : Nat := nget 0 d.mepoch mid

/-- The lowest tag of a master that is free. -/
def Dev.freeTag (d : Dev) (mid : Nat) : Nat := ((upTo 256).find? (fun t => !(d.tagsOf mid).contains t)).getD 0

/-- Whether two requests of one master lie in the same 512-byte block. -/
def sameBlock (a b : Access) : Bool := decide (a.m.mid = b.m.mid) && decide (a.addr / 512 = b.addr / 512)

/-- Whether a master holds a request back: behind a fence (R258), without a free tag (R256), or behind an earlier request to
the same block (R257), but for tile memory, whose queue keeps the order. -/
def Dev.mustHold (d : Dev) (a : Access) : Bool :=
  nget false d.fences a.m.mid || decide (256 ≤ (d.tagsOf a.m.mid).length)
    || d.waiters.any (fun w => sameBlock w.req a) || d.held.any (fun h => sameBlock h.req a)

/-- A request stays with its master for now. -/
def Dev.hold (d : Dev) (a : Access) (noalloc : Bool) (e : HbmErr) : Dev := { d with held := d.held ++ [⟨a, noalloc, e⟩] }

/-- What a request does at its target; its response is discarded if a reset has reached its master since (R262). -/
def Dev.unlessStale (d : Dev) (mid epoch : Nat) (d' : Dev) : Dev :=
  if epoch = d.epochOf mid then d' else { d' with out := d.out }

/-- HBM_ACCESS. -/
def xHbmAccess (a : Access) (noalloc : Bool) (e : HbmErr) (d : Dev) : Dev :=
  if burstOk a then
    if d.mustHold a then d.hold a noalloc e
    else
      let r := d.hbm a noalloc e
      r.1.reply r.2
  else d

/-- An HBM request is served. -/
def execHbmAccess (a : Access) (noalloc : Bool) (e : HbmErr) (s : State) : Host.Outcome State Fault Refusal :=
  .next { s with d := s.d.unlessHaltedFor a.m (xHbmAccess (s.d.issued a) noalloc e s.d) }

/-! ### WIN_ENT, WINDOW_MOLT (R253) -/

/-- The molts of a quarter in the order of their writes: window and the value that takes effect. -/
def Dev.moltQ (d : Dev) (q : Nat) : List (Nat × Nat) := nget [] d.molts q

/-- Write the molts of a quarter; WIN_MOLT reports them. -/
def Dev.setMoltQ (d : Dev) (q : Nat) (l : List (Nat × Nat)) : Dev :=
  let d1 := { d with molts := nset [] d.molts q l }
  d1.setRegN (R.WIN_MOLT.at q) (if l = [] then 0 else 2 ^ 31 + (l.length - 1))

/-- Whether a write of WIN_ENT is accepted (R253): the window exists, does not molt, and no 64 molts wait. -/
def Dev.winEntOk (d : Dev) (q i : Nat) : Bool :=
  decide (i < winPerQuarter Config.order) && !(d.reg (R.WIN_ENT.at q i)).getLsbD 30 && decide ((d.moltQ q).length ≤ 64)

/-- A load whose image lies in window `w` of the device fails READ_FAULT when the window molts or is rebound (08 IMG-13). -/
def Dev.loadsWindow (d : Dev) (w : Nat) : Dev :=
  d.loading.foldl (fun x e => match e.2 with
    | some l =>
      if l.code = 0 ∧ l.addr / 2 ^ 21 ≤ w ∧ w ≤ (l.addr + l.bytes.length - 1) / 2 ^ 21
      then x.loadHit e.1 0x0C else x
    | none => x) d

/-- An accepted write of WIN_ENT: a change of VALID or OID molts, a change of WPROT alone takes effect at once. -/
def Dev.winEntSet (d : Dev) (q i v : Nat) : Dev :=
  let x := R.WIN_ENT.at q i
  let old := d.reg x
  let d1 := d.setReg x (putBits old 29 29 (v / 2 ^ 29))
  if bitsOf v 31 31 = getBits old 31 31 ∧ bitsOf v 10 0 = getBits old 10 0 then d1
  else ((d1.setBit x 30 true).setMoltQ q (d1.moltQ q ++ [(i, v)])).loadsWindow ((q * hbmQuarter) / 2 ^ 21 + i)

/-- WIN_ENT is written. -/
def xWinEnt (m : Mst) (q i v : Nat) (d : Dev) : Dev :=
  if !m.owner then d.denyOid m (R.WIN_ENT.at q i)
  else if d.winEntOk q i then (d.winEntSet q i v).okay
  else d.refuse m (R.WIN_ENT.at q i)

/-- WIN_ENT is written. -/
def execWinEnt (m : Mst) (q i v : Nat) (s : State) : Host.Outcome State Fault Refusal :=
  .next { s with d := xWinEnt m q i v s.d }

/-- Drop the cached lines of a range without writing them back. -/
def Dev.sccDrop (d : Dev) (a n : Nat) : Dev :=
  { d with scc := d.scc.filter (fun e => !(decide (a / 256 + 1 ≤ e.2.tag) && decide (e.2.tag < (a + n) / 256 + 1))) }

/-- The molt at the head of a quarter's queue ends (R253): lines dropped, 2 MiB zeroed, the binding in effect. -/
def xWindowMolt (q : Nat) (d : Dev) : Dev :=
  match d.moltQ q with
  | [] => d
  | (i, v) :: r =>
    let a := q * hbmQuarter + i * 2 ^ 21
    let d1 := (d.sccDrop a (2 ^ 21)).zeroMem a (2 ^ 21)
    let d2 := { d1 with ecc := ndrop d1.ecc (fun x => decide (a ≤ x) && decide (x < a + 2 ^ 21)) }
    let x := R.WIN_ENT.at q i
    ((d2.setReg x (putBits (putBits (putBits (d2.reg x) 31 31 (v / 2 ^ 31)) 30 30 0) 10 0 v)).setMoltQ q r).waitDone (.win q i) 0 0

/-- A window molt runs. -/
def execWindowMolt (q : Nat) (s : State) : Host.Outcome State Fault Refusal := .next { s with d := xWindowMolt q s.d }

/-! ### NOC_TRUNC (R262) -/

/-- A burst is closed with a truncation marker at its target: counted, recorded, raised. -/
def Dev.nocTrunc (d : Dev) (q mid addr : Nat) : Dev :=
  ((d.bump (R.NOC_TRUNC_CNT.at q)).logFirst (R.NOC_TRUNC_LOG.at q) (mid % 4096 * 2 ^ 48 + addr % 2 ^ 48)).raise q 0x052

/-- How much of what is left of a write, `left` units of which `per` make a beat of 256 bits, had left its master when the
reset came: the commands do not tell, so it is a free value. -/
def Dev.beatsLeft (d : Dev) (left per : Nat) : Nat × Dev :=
  let f := d.fresh
  (Nat.min left (per * (f.1.toNat % (left / per + 2))), f.2)

/-- A reset reaches the master of an access that waits at tile memory. -/
def Dev.truncTmem (d : Dev) (r : TmemReq) : Dev :=
  let keep (x : Dev) (l : List TmemReq) : Dev := { x with arr := { x.arr with tmemq := x.arr.tmemq ++ l } }
  if r.write = false then keep d [r]
  else
    let n := d.beatsLeft r.left 4
    if n.1 = r.left then keep n.2 [r]
    else
      let d1 := keep n.2 (if n.1 = 0 then [] else [{ r with left := n.1, data := r.data.take n.1 }])
      d1.nocTrunc (quarterOf (tileCluster r.tile)) r.mid (tmemAddr r.tile r.bank (r.word - r.got.length))

/-- A reset reaches the master of a request that waits for a domain to wake. -/
def Dev.truncWaiter (d : Dev) (w : Waiter) : Dev :=
  let keep (x : Dev) (l : List Waiter) : Dev := { x with waiters := x.waiters ++ l }
  if w.req.write = false then keep d [w]
  else
    let n := d.beatsLeft w.req.size 32
    if n.1 = w.req.size then keep n.2 [w]
    else
      let a : Access := { w.req with size := n.1, data := w.req.data % 256 ^ n.1 }
      (keep n.2 (if n.1 = 0 then [] else [{ w with req := a }])).nocTrunc w.q w.req.m.mid w.req.addr

/-- The epoch of the tags of masters advances, with two bits. -/
def Dev.nextEpoch (d : Dev) (mids : List Nat) : Dev :=
  mids.foldl (fun x n => { x with mepoch := nset 0 x.mepoch n ((x.epochOf n + 1) % 4) }) d

/-- A reset reaches masters with requests outstanding (R262): of each write the beats that have left are delivered, and the
burst is closed if more were to come; what returns for requests issued before is discarded, which the epoch of their tags
tells; requests not yet issued are never sent, and a fence ends. A burst to HBM or a home bank is open only while it waits,
since its service is one command (assumption 81). -/
def Dev.truncate (d : Dev) (p : Nat → Bool) : Dev :=
  let tq := d.arr.tmemq
  let ws := d.waiters
  let d1 := { d with arr := { d.arr with tmemq := [] }, waiters := [], held := d.held.filter (fun h => !p h.req.m.mid),
                     fences := ndrop d.fences p }
  let d2 := d1.nextEpoch (((tq.map (fun r => r.mid)) ++ ws.map (fun w => w.req.m.mid)).filter p).dedup
  let d3 := tq.foldl (fun x r => if p r.mid then x.truncTmem r else { x with arr := { x.arr with tmemq := x.arr.tmemq ++ [r] } }) d2
  ws.foldl (fun x w => if p w.req.m.mid then x.truncWaiter w else { x with waiters := x.waiters ++ [w] }) d3

/-! ### Fences (R258) -/

/-- Whether a master has a request that has not been answered. -/
def Dev.outstanding (d : Dev) (mid : Nat) : Bool :=
  d.arr.tmemq.any (fun r => decide (r.mid = mid)) || d.waiters.any (fun w => decide (w.req.m.mid = mid))

/-- A master fences: what it issues from now on waits until every earlier request has its response. -/
def Dev.fence (d : Dev) (mid : Nat) : Dev := { d with fences := nset false d.fences mid (d.outstanding mid) }

/-- FENCE_COMPLETION (R258): the fence of a master completes when every earlier request has its response. -/
def xFenceCompletion (mid : Nat) (d : Dev) : Dev :=
  if d.outstanding mid then d else { d with fences := nset false d.fences mid false }

/-! ### GRP_RATE, NOC_WEIGHT (R259, R264) -/

/-- GRP_RATE is written: dropped where the quarter's sum would pass 768 units (R264). -/
def xGrpRate (m : Mst) (q g v : Nat) (d : Dev) : Dev :=
  let x := R.GRP_RATE.at q g
  let sum := d.regN (R.GRP_RSUM.at q) - d.fld F.GRP_RATE_RATE q g + v % 1024
  if !m.owner then d.denyOid m x
  else if 768 < sum then d.refuse m x
  else ((d.setFld F.GRP_RATE_RATE v q g).setRegN (R.GRP_RSUM.at q) sum).okay

/-- GRP_RATE is written. -/
def execGrpRate (m : Mst) (q g v : Nat) (s : State) : Host.Outcome State Fault Refusal :=
  .next { s with d := xGrpRate m q g v s.d }

/-- NOC_WEIGHT is written: dropped where the quarter's sum would pass 240 (R259, MEM-10). -/
def xNocWeight (m : Mst) (q g v : Nat) (d : Dev) : Dev :=
  let x := R.NOC_WEIGHT.at q g
  let sum := d.regN (R.NOC_WSUM.at q) - d.fld F.NOC_WEIGHT_W q g + v % 256
  if !m.owner then d.denyOid m x
  else if 240 < sum then d.refuse m x
  else ((d.setFld F.NOC_WEIGHT_W v q g).setRegN (R.NOC_WSUM.at q) sum).okay

/-- NOC_WEIGHT is written. -/
def execNocWeight (m : Mst) (q g v : Nat) (s : State) : Host.Outcome State Fault Refusal :=
  .next { s with d := xNocWeight m q g v s.d }

end Sys2Proof.Machine
end

