-- ==== Sys2Proof/Machine/Banks.lean ====
section
/-! DEFINITION. Home banks (chapter 11, rows HOME_BANK_ACCESS and BNK_CE_WRITEBACK), the boot flash as it reads, and the
memory side of a NoC request: what is not register space. -/

namespace Sys2Proof.Machine

/-! ### Home banks (R328–R333) -/

/-- The first address of core `n`'s home bank. -/
def bankBase (n : Nat) : Nat := 0xE000000000 + n * 0x80000

/-- Whether a device address lies in a home bank. -/
def isBank (a : Nat) : Bool := decide (0xE000000000 ≤ a ∧ a < 0xE002000000)

/-- The core whose home bank holds an address. -/
def bankOf (a : Nat) : Nat := (a - 0xE000000000) / 0x80000

/-- A register of core `n`'s home bank page, or of its core page. -/
def coreReg (n : Nat) (r : R) : RKey := r.at (n / 16) (n % 16)

/-- MOLTING of a home bank. -/
def Dev.bnkMolting (d : Dev) (n : Nat) : Bool := (d.reg (coreReg n .BNK_STAT)).getLsbD 0

/-- Write POISON of BNK_STAT after a change of the bank's marks. -/
def Dev.bnkPoison (d : Dev) (n : Nat) : Dev :=
  d.setBit (coreReg n .BNK_STAT) 1 (d.ecc.any (fun e => decide (bankBase n ≤ e.1) && decide (e.1 < bankBase n + 0x80000)
    && e.2.bad.isSome))

/-- Mark the word at `a` of a home bank. -/
def Dev.bnkMark (d : Dev) (a : Nat) (m : Ecc) : Dev := ({ d with ecc := nset .ok d.ecc a m }).bnkPoison (bankOf a)

/-- One uncorrectable read of the word at `a` (R332): `src` 0 for the core, 1 for the NoC. The spec gives the log the
check-bit syndrome: a free value. -/
def Dev.bnkUe (d : Dev) (a src : Nat) : Dev :=
  let n := bankOf a
  let w := a % 0x80000 / 8
  let f := d.fresh
  let rcd := src % 2 * 2 ^ 61 + w / 8192 % 8 * 2 ^ 24 + w % 65536 * 2 ^ 8 + f.1.toNat % 256
  let d1 := f.2.bnkMark a (.poison 0)
  ((d1.bump (coreReg n .BNK_UE_CNT)).logFirst (coreReg n .BNK_UE_LOG) rcd).raise (n / 16) (0x200 + n % 16 * 4 + 2)

/-- One corrected read of the word at `a` (R332): counted in the watermark; the word waits for its write-back. -/
def Dev.bnkCe (d : Dev) (a : Nat) : Dev :=
  let n := bankOf a
  (d.wmCount wmBnk (n / 16) (0x200 + n % 16 * 4 + 3) (n % 16)).bnkMark a (.found 0)

/-- Whether the word at `a` is poisoned. -/
def Dev.bnkBad (d : Dev) (a : Nat) : Bool := (nget Ecc.ok d.ecc a).bad.isSome

/-- The addresses of the words that `n` bytes from `a` touch. -/
def wordsTouched (a n : Nat) : List Nat := (upTo ((a % 8 + n + 7) / 8)).map (fun i => a / 8 * 8 + 8 * i)

/-- What a read finds: an error strikes the first word it touches. -/
def Dev.bnkErr (d : Dev) (a : Nat) (e : HbmErr) : Dev :=
  match e with
  | .ce => if d.bnkBad (a / 8 * 8) then d else d.bnkCe (a / 8 * 8)
  | .ue => d.bnkMark (a / 8 * 8) (.poison 0)
  | _ => d

/-- Bytes of a read with those of poisoned words as 0 (R261, R332). -/
def Dev.bnkBytes (d : Dev) (a : Nat) : Nat → List Byte
  | 0 => []
  | n + 1 => (if d.bnkBad (a / 8 * 8) then 0 else d.byte a) :: d.bnkBytes (a + 1) n

/-- A read of a home bank through either port. -/
def Dev.bnkRead (d : Dev) (a n src : Nat) (e : HbmErr) : Dev × Ans :=
  let d1 := d.bnkErr a e
  let bad := (wordsTouched a n).filter (fun w => d1.bnkBad w)
  let d2 := bad.foldl (fun x w => x.bnkUe w src) d1
  (d2, ⟨if bad = [] then .okay else .slverr, d2.bnkBytes a n⟩)

/-- One word of a write: the bytes from `lo` to `hi` of the data that starts at `a`. A poisoned word is written only
whole (R332). -/
def Dev.bnkWriteWord (d : Dev) (a : Nat) (bytes : List Byte) (src w : Nat) : Dev × RespCode :=
  let lo := Nat.max a w
  let hi := Nat.min (a + bytes.length) (w + 8)
  if d.bnkBad w ∧ hi - lo < 8 then (d.bnkUe w src, .slverr)
  else ((d.setBytes lo ((bytes.drop (lo - a)).take (hi - lo))).bnkMark w .ok, .okay)

/-- The words that port 0 writes in the bcyc of a port 1 access: they land first, and whole (R328). -/
def Dev.bnkPort0 (d : Dev) (n : Nat) (port0 : List (Nat × Nat)) : Dev :=
  port0.foldl (fun x p =>
    let a := bankBase n + p.1 % 65536 * 8
    (x.setBytes a (leBytes p.2 8)).bnkMark a .ok) d

/-- The addresses of those words. -/
def port0Words (n : Nat) (port0 : List (Nat × Nat)) : List Nat := port0.map (fun p => bankBase n + p.1 % 65536 * 8)

/-- A write of a home bank: `lost` are the words that port 0 writes in the same bcyc (R328). -/
def Dev.bnkWrite (d : Dev) (a : Nat) (bytes : List Byte) (src : Nat) (lost : List Nat) : Dev × Ans :=
  let n := bankOf a
  let r := (wordsTouched a bytes.length).foldl (fun (x : Dev × RespCode) w =>
    if lost.contains w then
      ((x.1.bumpTo (coreReg n .BNK_CCNT) 0xFFFF).setBit (coreReg n .BNK_FLAGS) 0 true, x.2.worse .collided)
    else
      let y := x.1.bnkWriteWord a bytes src w
      (y.1, x.2.worse y.2)) (d, .okay)
  (r.1, ⟨r.2, []⟩)

/-- Whether the NoC port of a home bank accepts a request (R329). -/
def Dev.bnkAccepts (d : Dev) (n : Nat) (a : Access) : Bool :=
  let own := d.reg (coreReg n .BNK_OWNER)
  if a.write then
    decide (a.m.mid = getBits own 11 0) || decide (a.m.mid = 0x4C0) || decide (a.m.mid = 0x4C1)
      || (a.m.owner && !own.getLsbD 17)
  else a.m.owner

/-- A request at port 1 of a home bank (R328, R329, R331, R332), with the words that port 0 writes in the same bcyc. -/
def Dev.bnkServe (d0 : Dev) (a : Access) (port0 : List (Nat × Nat)) (e : HbmErr) : Dev × Ans :=
  let n := bankOf a.addr
  let d := d0.bnkPort0 n port0
  if d.bnkMolting n ∨ !d.bnkAccepts n a then d.fail (n / 16) a .slverr
  else
    let r := if a.write then d.bnkWrite a.addr (leBytes a.data a.size) 1 (port0Words n port0) else d.bnkRead a.addr a.size 1 e
    if r.2.code = .slverr then (r.1.nocErr (n / 16) a.m.mid a.addr .slverr, r.2) else r

/-- A home bank request from its master: route and power (R22, R527). -/
def Dev.bnkReq (d : Dev) (a : Access) (port0 : List (Nat × Nat)) (e : HbmErr) : Dev × Ans :=
  let q := bankOf a.addr / 16
  if !d.routeOk (d.midQuarter a.m.mid) q then d.fail q a .slverr
  else (d.wakeDom q 16).bnkServe a port0 e

/-- HOME_BANK_ACCESS (R329): a NoC access to a home bank on port 1; `port0` are the words, with their data, that its core
writes in the same bcyc. -/
def xHomeBankAccess (a : Access) (port0 : List (Nat × Nat)) (e : HbmErr) (d : Dev) : Dev :=
  if burstOk a && isBank a.addr then
    if d.mustHold a then d.hold a false e
    else
      let r := d.bnkReq a port0 e
      r.1.reply r.2
  else d

/-- A home bank is accessed through the NoC. -/
def execHomeBankAccess (a : Access) (port0 : List (Nat × Nat)) (e : HbmErr) (s : State) : Host.Outcome State Fault Refusal :=
  .next { s with d := s.d.unlessHaltedFor a.m (xHomeBankAccess (s.d.issued a) port0 e s.d) }

/-- BNK_CE_WRITEBACK (R332): the corrected word `w` of core `n`'s bank is written back, unless a store landed first. -/
def xBnkCeWriteback (n w : Nat) (d : Dev) : Dev :=
  let a := bankBase n + w * 8
  if (nget Ecc.ok d.ecc a).isFound then d.bnkMark a .ok else d

/-- A corrected word is written back. -/
def execBnkCeWriteback (n w : Nat) (s : State) : Host.Outcome State Fault Refusal :=
  .next { s with d := xBnkCeWriteback n w s.d }

/-- A home bank cleared or molted (R331): zero words with valid check bits. -/
def Dev.bnkZero (d : Dev) (n : Nat) : Dev :=
  let d1 := d.zeroMem (bankBase n) 0x80000
  ({ d1 with ecc := ndrop d1.ecc (fun x => decide (bankBase n ≤ x) && decide (x < bankBase n + 0x80000)) }).bnkPoison n

/-! ### Boot flash as it reads (R249, R574) -/

/-- Whether a device address lies in the boot flash. -/
def isFlash (a : Nat) : Bool := decide (0xF800000000 ≤ a ∧ a < 0xF801000000)

/-- The patch unit of quarter `q` that replaces the flash word of address `a`: the lowest enabled one. -/
def Dev.patchUnit (d : Dev) (q a : Nat) : Option Nat :=
  (upTo 64).find? (fun u =>
    let c := d.reg (R.PATCH_CTL.at q u)
    c.getLsbD 31 && decide (getBits c 24 24 = a % 0x1000000 / 0x800000) && decide (getBits c 17 0 = a % 0x800000 / 32))

/-- One byte of the flash as masters of quarter `q` read it. -/
def Dev.flashByte (d : Dev) (q a : Nat) : Byte :=
  match d.patchUnit q a with
  | some u => BitVec.ofNat 8 (d.regN (R.PATCH_DATA.at q u (a % 32 / 4)) / 256 ^ (a % 4) % 256)
  | none => d.byte a

/-- Bytes of the flash; the boot engine always sees the flash itself. -/
def Dev.flashBytes (d : Dev) (mid a : Nat) : Nat → List Byte
  | 0 => []
  | n + 1 => (if mid = 0x4C1 then d.byte a else d.flashByte (d.midQuarter mid) a) :: d.flashBytes mid (a + 1) n

/-- The quarter that holds the flash of an address: Q0 or Q3. -/
def flashQuarter (a : Nat) : Nat := if a % 0x1000000 < 0x800000 then 0 else 3

/-- Whether an address lies in a flash sector under erase. -/
def Dev.underErase (d : Dev) (a : Nat) : Bool :=
  match nget none d.fls (flashQuarter a) with
  | some o => decide (o.cmd = 2) && decide (a % 0x800000 / 0x8000 = o.word / 1024)
  | none => false

/-- A request to the boot flash: reads by OID 0 only, not in a sector under erase; a single-bit error is corrected and
counted, an uncorrectable word is recorded and answered SLVERR (18 R498, R500). -/
def Dev.flashReq (d : Dev) (a : Access) (e : HbmErr) : Dev × Ans :=
  let q := flashQuarter a.addr
  if a.write ∨ !a.m.owner ∨ !d.routeOk (d.midQuarter a.m.mid) q ∨ d.underErase a.addr = true then d.fail q a .slverr
  else
    let d1 := d.wakeDom q 16
    match e with
    | .ue =>
      -- the word at the request's address is the one that fails: its bytes read 0, the others read as stored (09 R261)
      let bad := Nat.min a.size (32 - a.addr % 32)
      (((d1.logFirst (R.FLS_UE_LOG.at q) (a.addr % 0x800000 / 32)).fail q a .slverr).1,
        ⟨.slverr, List.replicate bad 0 ++ (d1.flashBytes a.m.mid a.addr a.size).drop bad⟩)
    | .ce => (d1.bump (R.FLS_CE_CNT.at q), ⟨.okay, d1.flashBytes a.m.mid a.addr a.size⟩)
    | _ => (d1, ⟨.okay, d1.flashBytes a.m.mid a.addr a.size⟩)

/-! ### Tile memory inside another command (R147) -/

/-- Whether a device address lies in the tile-memory aperture. -/
def isTmem (a : Nat) : Bool := decide (0x8000000000 ≤ a ∧ a < 0x8010000000)

/-- Tile, bank and word of an aperture address. -/
def tmemPlace (a : Nat) : Nat × Nat × Nat := (a % 0x10000000 / 0x10000, a % 0x10000 / 0x4000, a % 0x4000 / 8)

/-- Whether an aperture request is served at all: OID 0, aligned whole words, a cluster that is ON, a bank that does not
molt, a route. -/
def Dev.tmemOk (d : Dev) (a : Access) : Bool :=
  let p := tmemPlace a.addr
  let c := tileCluster p.1
  a.m.owner && decide (a.addr % 8 = 0) && decide (a.size % 8 = 0)
    && decide (getBits (d.reg (cluReg c .CLU_STAT)) 29 28 = 0)
    && !(d.reg (d.tileReg p.1 .TMEM_STAT)).getLsbD p.2.1 && d.routeOk (d.midQuarter a.m.mid) (quarterOf c)

/-- The words of an aperture read. -/
def Dev.tmemWords (d : Dev) (k : Clk) (a : Nat) : Nat → Dev × Ans
  | 0 => (d, ⟨.okay, []⟩)
  | n + 1 =>
    let p := tmemPlace a
    let x := d.nocRead k p.1 p.2.1 p.2.2
    let r := x.2.tmemWords k (a + 8) n
    match x.1 with
    | some w => (r.1, ⟨r.2.code, leBytes w.toNat 8 ++ r.2.data⟩)
    | none => (r.1, ⟨.slverr, List.replicate 8 0 ++ r.2.data⟩)

/-- The words of an aperture write: one that loses to a port A store of the cycle is discarded (R146). -/
def Dev.tmemStore (d : Dev) (k : Clk) (a v : Nat) : Nat → Dev × Ans
  | 0 => (d, ⟨.okay, []⟩)
  | n + 1 =>
    let p := tmemPlace a
    let x := d.nocWrite k p.1 p.2.1 p.2.2 (BitVec.ofNat 64 v)
    let r := x.2.tmemStore k (a + 8) (v / 2 ^ 64) n
    (r.1, ⟨r.2.code.worse (if x.1 then .collided else .okay), []⟩)

/-- An aperture request inside another command: the command stands for the access with its wait for port B, and the words
are read and written in the array cycle to come (assumption 123). A read that fails is recorded by its target (R261). -/
def Dev.tmemReq (d : Dev) (k : Clk) (a : Access) : Dev × Ans :=
  let q := quarterOf (tileCluster (tmemPlace a.addr).1)
  if !d.tmemOk a then d.fail q a .slverr
  else if a.write then (d.wakeDom q 16).tmemStore k a.addr a.data (a.size / 8)
  else
    let r := (d.wakeDom q 16).tmemWords k a.addr (a.size / 8)
    if r.2.code = .slverr then (r.1.nocErr q a.m.mid a.addr .slverr, r.2) else r

/-! ### Memory requests (R249, R256) -/

/-- Whether a device address is memory: HBM, the aperture, a home bank or the boot flash. -/
def isMem (a : Nat) : Bool := isHbm a || isTmem a || isBank a || isFlash a

/-- One burst to memory from its master, with the error it meets; a burst to register space breaks the
rules of a register access (24 R608), and an address in no row of MEM-1 is answered DECERR. -/
def Dev.memAcc (d : Dev) (k : Clk) (a : Access) (e : HbmErr) : Dev × Ans :=
  if isHbm a.addr then d.hbm a false e
  else if isTmem a.addr then d.tmemReq k a
  else if isBank a.addr then d.bnkReq a [] e
  else if isFlash a.addr then d.flashReq a e
  else if isQReg a.addr then d.fail ((a.addr - 0xF000000000) / 2 ^ 24) a .slverr
  else if isAo a.addr then d.fail d.liveQ a .slverr
  else d.fail (d.midQuarter a.m.mid) a .decerr

/-- One burst that meets no error of a spill, a fill, a boot section, a capture or a command record: where it reaches tile
memory no cell uses the bank in its cycle (assumption 123). -/
def Dev.memIdle (d : Dev) (a : Access) : Dev × Ans := d.memAcc Clk.reset a .none

end Sys2Proof.Machine
end

