-- ==== Sys2Proof/Machine/CoreBase.lean ====
section
/-! DEFINITION. A control core behind its page (chapter 11): banks and state words, addresses, spill and fill, the FP
file, and what the dispatcher sees of it. -/

namespace Sys2Proof.Machine

/-! ### Banks (R307, R311) -/

/-- The value of word `i` of bank `b` as it is held: index 0 the state word without FS. -/
def Core.word (c : Core) (b i : Nat) : Word := nget 0 c.file (b * 32 + i)

/-- Write a word of a bank. -/
def Core.setWord (c : Core) (b i : Nat) (v : Word) : Core := { c with file := nset 0 c.file (b * 32 + i) v }

/-- FS of bank `b` (R318): Initial or Dirty in the bank of the FP owner, Off in every other. -/
def Core.fsOf (c : Core) (b : Nat) : Nat :=
  match nget Option.none c.bound b, c.owner with
  | some x, some t => if x.task = t then (if c.dirty then 3 else 1) else 0
  | _, _ => 0

/-- Register `i` of bank `b` as XBRD reads it: index 0 the state word of CORE-5. -/
def Core.read (c : Core) (b i : Nat) : Word := if i = 0 then putBits (c.word b 0) 52 51 (c.fsOf b) else c.word b i

/-- Bits of a state word that are held: MIE, MODE, pc[48:1]. -/
def stateMask : Nat := 0x0007FFFFFFFFFFFE

/-- The state word with pc, MODE M or U, and MIE. -/
def stateWord (pc : Nat) (m mie : Bool) : Word := BitVec.ofNat 64 (pc % 2 ^ 49 / 2 * 2 + b2n m * 2 ^ 49 + b2n mie * 2 ^ 50)

/-- The pc of bank `b`. -/
def Core.pcOf (c : Core) (b : Nat) : Nat := getBits (c.word b 0) 48 1 * 2

/-- The pc of the current bank. -/
def Core.pc (c : Core) : Nat := c.pcOf c.cur

/-- Whether the current bank executes in M-mode. -/
def Core.modeM (c : Core) : Bool := (c.word c.cur 0).getLsbD 49

/-- MIE of the current bank. -/
def Core.mie (c : Core) : Bool := (c.word c.cur 0).getLsbD 50

/-- Write the state word of a bank. -/
def Core.setState (c : Core) (b pc : Nat) (m mie : Bool) : Core := c.setWord b 0 (stateWord pc m mie)

/-- Pass an instruction of `n` bytes. -/
def Core.next (c : Core) (n : Nat) : Core := c.setState c.cur (c.pc + n) c.modeM c.mie

/-- Integer register `i` of the current bank; x0 reads 0. -/
def Core.x (c : Core) (i : Nat) : Word := if i = 0 then 0 else c.word c.cur i

/-- Write integer register `i` of bank `b`; a write of x0 is discarded. -/
def Core.setX (c : Core) (b i : Nat) (v : Word) : Core := if i = 0 then c else c.setWord b i v

/-- The trap CSRs of a level (R308). -/
def Core.trap (c : Core) (l : Nat) : Trap := nget Trap.zero c.traps l

/-- Write the trap CSRs of a level. -/
def Core.setTrap (c : Core) (l : Nat) (t : Trap) : Core := { c with traps := nset Trap.zero c.traps l t }

/-- Reset values of the CSRs that are held by number: XEVDEPTH 1, XFLTSP.FSP 0xFF, the rest 0 (CORE-9). -/
def csrDflt (n : Nat) : Word := if n = 0x7C5 then 1 else if n = 0x7C2 then 0xFF0 else 0

/-- A CSR that is held by number. -/
def Core.csrGet (c : Core) (n : Nat) : Word := (nget Option.none c.csr n).getD (csrDflt n)

/-- Write a CSR that is held by number. -/
def Core.csrSet (c : Core) (n : Nat) (v : Word) : Core := { c with csr := nset Option.none c.csr n (some v) }

/-- XEVDEPTH. -/
def Core.depth (c : Core) : Nat := getBits (c.csrGet 0x7C5) 1 0

/-- The thread bound to bank `b`. -/
def Core.boundAt (c : Core) (b : Nat) : Option Bound := nget Option.none c.bound b

/-- Bind or free a thread bank. -/
def Core.bind (c : Core) (b : Nat) (x : Option Bound) : Core :=
  { c with bound := nset Option.none c.bound b x, order := if x.isSome then c.order else c.order.filter (fun y => decide (y ≠ b)) }

/-- The bank to which a task is bound. -/
def Core.bankOfTask (c : Core) (t : Nat) : Option Nat :=
  (upTo 6).find? (fun b => match c.boundAt b with
    | some x => decide (x.task = t)
    | none => false)

/-- The mask of thread banks that are bound. -/
def Core.boundMask (c : Core) : Nat := ((upTo 6).filter (fun b => (c.boundAt b).isSome)).foldl (fun m b => m + 2 ^ b) 0

/-- A core. -/
def Dev.core (d : Dev) (n : Nat) : Core := nget Core.zero d.cores n

/-- CORE_STAT STATE (CORE-12). -/
def Core.stateCode (c : Core) : Nat :=
  match c.st with
  | .reset => 0
  | .run => if c.halted then 4 else 1
  | .idle => if c.halted then 4 else 2
  | .wedged => if c.halted then 4 else 3

/-- Whether a core's running thread is privileged (DSP-11). -/
def Dev.corePriv (d : Dev) (c : Core) : Bool :=
  match c.task with
  | none => false
  | some t => match nget Option.none d.tasks t with
    | some x => decide (28 ≤ x.level)
    | none => false

/-- Write a core: CORE_STAT, DSP_CORE and DBG_STAT show it. -/
def Dev.setCore (d : Dev) (n : Nat) (c : Core) : Dev :=
  let d1 := { d with cores := nset Core.zero d.cores n c }
  let t := c.task.getD 0
  let stat := c.stateCode * 2 ^ 28 + b2n c.managed * 2 ^ 27 + c.cur % 8 * 2 ^ 24 + c.level % 4 * 2 ^ 20 + t % 2 ^ 20
  let dsp := b2n c.task.isSome * 2 ^ 63 + b2n (d1.corePriv c) * 2 ^ 62 + c.boundMask * 2 ^ 48
    + (if c.task.isSome then c.tbank % 8 else 0) * 2 ^ 40 + t % 2 ^ 20
  let d2 := d1.setRegN (coreReg n .CORE_STAT) (if c.st = .reset then 0 else stat)
  (d2.setRegN (coreReg n .DSP_CORE) dsp).setBit (R.DBG_STAT.at (n / 16)) (n % 16) c.halted

/-! ### Memory as a core reaches it (R303, R304, R330) -/

/-- The device address of a core address: the alias of the own bank, device addresses, and the same again from 2^48. -/
def coreXlat (n a : Nat) : Option Nat :=
  if 0x80000000 ≤ a ∧ a < 0x80080000 then some (bankBase n + (a - 0x80000000))
  else if a < 2 ^ 48 then some a
  else if a < 2 ^ 49 then some (a - 2 ^ 48)
  else none

/-- Whether a device address lies in core `n`'s own bank. -/
def inOwn (n a : Nat) : Bool := decide (bankBase n ≤ a ∧ a < bankBase n + 0x80000)

/-- Whether core `n` may use its own bank (R330, R331). -/
def Dev.ownUsable (d : Dev) (n : Nat) : Bool :=
  decide (getBits (d.reg (coreReg n .BNK_OWNER)) 11 0 = n) && !d.bnkMolting n

/-- The failing answer of an access. -/
def badAns (n : Nat) : Ans := ⟨.slverr, List.replicate n 0⟩

/-- Read at most one burst for core `n` at device address `a`: port 0 for its own bank, the NoC for the rest. -/
def Dev.coreBurstR (d : Dev) (n a len : Nat) : Dev × Ans :=
  if inOwn n a then (if d.ownUsable n then d.bnkRead a len 0 .none else (d, badAns len))
  else if isMem a then d.memIdle (rdReq n 0 a len)
  else (d, badAns len)

/-- Write at most one burst for core `n`. -/
def Dev.coreBurstW (d : Dev) (n a : Nat) (bytes : List Byte) : Dev × Ans :=
  if inOwn n a then (if d.ownUsable n then d.bnkWrite a bytes 0 [] else (d, badAns 0))
  else if isMem a then d.memIdle (wrReq n 0 a bytes.length (leNat bytes))
  else (d, badAns 0)

/-- Read `len` bytes in bursts that end at 512-byte boundaries (R256); `fuel` bounds the bursts. -/
def Dev.coreRead (d : Dev) (n a len : Nat) : Nat → Dev × Ans
  | 0 => (d, ⟨.okay, []⟩)
  | fuel + 1 =>
    if len = 0 then (d, ⟨.okay, []⟩)
    else
      let k := Nat.min len (512 - a % 512)
      let r := d.coreBurstR n a k
      let s := r.1.coreRead n (a + k) (len - k) fuel
      (s.1, ⟨r.2.code.worse s.2.code, r.2.data ++ s.2.data⟩)

/-- Write bytes in bursts that end at 512-byte boundaries. -/
def Dev.coreWrite (d : Dev) (n a : Nat) (bytes : List Byte) : Nat → Dev × RespCode
  | 0 => (d, .okay)
  | fuel + 1 =>
    if bytes = [] then (d, .okay)
    else
      let k := Nat.min bytes.length (512 - a % 512)
      let r := d.coreBurstW n a (bytes.take k)
      let s := r.1.coreWrite n (a + k) (bytes.drop k) fuel
      (s.1, r.2.code.worse s.2)

/-! ### Spill and fill (R311) -/

/-- A bank as its 256-byte save area holds it. -/
def Core.image (c : Core) (b : Nat) : List Byte := (upTo 32).flatMap (fun i => leBytes (c.read b i).toNat 8)

/-- The 64-bit words of a byte list. -/
def word64 (bs : List Byte) (i : Nat) : Nat := leNat ((bs.drop (8 * i)).take 8)

/-- A failed spill or fill: counted, SPILL_FAULT raised. -/
def Dev.spillFault (d : Dev) (n : Nat) : Dev :=
  (d.bump (coreReg n .CORE_SPILL_ERR)).raise (n / 16) (0x200 + n % 16 * 4 + 2)

/-- Spill bank `b` of core `n` to core address `a`: whether it succeeded. -/
def Dev.spill (d : Dev) (n b a : Nat) : Dev × Bool :=
  let d1 := d.bump (coreReg n .CORE_SPILL_CNT)
  match coreXlat n a with
  | some p =>
    if a % 64 ≠ 0 then (d1.spillFault n, false)
    else
      let r := d1.coreWrite n p ((d1.core n).image b) 2
      if r.2 = .okay then (r.1, true) else (r.1.spillFault n, false)
  | none => (d1.spillFault n, false)

/-- The bank with the content of a save area. -/
def Core.load (c : Core) (b : Nat) (bs : List Byte) : Core :=
  (upTo 32).foldl (fun x i =>
    x.setWord b i (BitVec.ofNat 64 (if i = 0 then word64 bs 0 &&& stateMask else word64 bs i))) c

/-- Fill bank `b` of core `n` from core address `a`: whether it succeeded. -/
def Dev.fill (d : Dev) (n b a : Nat) : Dev × Bool :=
  match coreXlat n a with
  | some p =>
    if a % 64 ≠ 0 then (d.spillFault n, false)
    else
      let r := d.coreRead n p 256 2
      if r.2.code = .okay then (r.1.setCore n ((r.1.core n).load b r.2.data), true) else (r.1.spillFault n, false)
  | none => (d.spillFault n, false)

/-! ### The FP file (R318–R321) -/

/-- The device address of an FP area that an exchange may use: aligned to 8, whole in the own bank or in HBM. -/
def fpPlace (n a : Nat) : Option Nat :=
  match coreXlat n a with
  | some p =>
    if a % 8 = 0 ∧ ((inOwn n p = true ∧ inOwn n (p + 263) = true) ∨ (isHbm p = true ∧ isHbm (p + 263) = true)) then some p
    else none
  | none => none

/-- Save the FP file of core `n` to its owner's area: whether it succeeded. -/
def Dev.fpSave (d : Dev) (n : Nat) : Dev × Bool :=
  let c := d.core n
  match fpPlace n c.fpArea with
  | none => (d, false)
  | some p =>
    let r := d.coreWrite n p ((upTo 33).flatMap (fun i => leBytes (nget 0 c.fp i).toNat 8)) 2
    (r.1, decide (r.2 = .okay))

/-- Save the file where its owner's FS is Dirty, and let go of it (R321). A save that fails raises FPSAVE_FAULT and
leaves the area as it was saved last. -/
def Dev.fpRelease (d : Dev) (n : Nat) : Dev :=
  let c := d.core n
  match c.owner with
  | none => d
  | some _ =>
    let r := if c.dirty then d.fpSave n else (d, true)
    let d1 := if r.2 then r.1 else r.1.raise (n / 16) (0x200 + n % 16 * 4 + 2)
    d1.setCore n { d1.core n with owner := none, dirty := false }

/-! ### Threads (R284, R321) -/

/-- The cores of a task's quarter. -/
def coresOf (q : Nat) : List Nat := (upTo 16).map (fun i => q * 16 + i)

/-- A THREAD reaches DONE: its bank is free, the FP file it owns is discarded unsaved, its core is free. -/
def Dev.unbindOn (d : Dev) (t n : Nat) : Dev :=
  let c := d.core n
  let c1 := match c.bankOfTask t with
    | some b => c.bind b none
    | none => c
  let c2 := if c1.owner = some t then { c1 with owner := none, dirty := false } else c1
  let c3 := if c2.task = some t then
      { c2 with task := none, st := if c2.st = .run ∧ c2.level = 0 then .idle else c2.st } else c2
  if c3 = c then d else d.setCore n c3

/-- The same on whichever core holds the thread. -/
def Dev.unbind (d : Dev) (t : Nat) : Dev := (coresOf (t / 2 ^ 18)).foldl (fun x n => x.unbindOn t n) d

/-! ### The event line (12 R342, R344) -/

/-- EVT_ROUTE of local source `s` of quarter `q` as it is in force: a write applies from the next tick edge. -/
def Dev.routeNow (d : Dev) (q s : Nat) : Word :=
  (nget Option.none d.routes (q * 1536 + s)).getD (d.reg (R.EVT_ROUTE.at q s))

/-- The pending sources of a quarter, by rising number. -/
def Dev.pendingSources (d : Dev) (q : Nat) : List Nat :=
  (upTo 48).flatMap (fun w => (onesOf (d.regN (R.EVT_PEND.at q w)) 32).map (fun j => 32 * w + j))

/-- The class of a source: fixed, or that of its route for a software source (R339). -/
def Dev.classOf (d : Dev) (q s : Nat) : Nat := if 0x500 ≤ s then getBits (d.routeNow q s) 61 58 else sourceClass s

/-- Whether a source comes before another: lower class, then lower number (R341). -/
def Dev.ranks (d : Dev) (q a b : Nat) : Bool :=
  let x := d.classOf q a
  let y := d.classOf q b
  decide (x < y) || (decide (x = y) && decide (a < b))

/-- The highest-ranked source of a list. -/
def Dev.best (d : Dev) (q : Nat) (l : List Nat) : Option Nat :=
  l.foldl (fun (b : Option Nat) s => match b with
    | none => some s
    | some x => if d.ranks q s x then some s else some x) none

/-- The pending, unmasked sources routed to core `n`. -/
def Dev.forCore (d : Dev) (n : Nat) : List Nat :=
  (d.pendingSources (n / 16)).filter (fun s =>
    let r := d.routeNow (n / 16) s
    decide (getBits r 63 62 = 1) && !r.getLsbD 57 && decide (getBits r 3 0 = n % 16))

/-- The event line of core `n`. -/
def Dev.eventLine (d : Dev) (n : Nat) : Bool := decide (d.forCore n ≠ [])

end Sys2Proof.Machine
end

