-- ==== Sys2Proof/Machine/Tasks.lean ====
section
/-! DEFINITION. Hardware dispatch (chapter 10): task control blocks, lists, signals, trace, and the commands SUBMIT,
SIGNAL, WAKE, CANCEL, HAND, WAKE_TIME_REACHED, HELD_COMMAND_PLACED, DSP_REPL. -/

namespace Sys2Proof.Machine

/-! ### Task control blocks (R278–R280) -/

/-- The MID under which slice `q` reads and writes memory (R278). -/
def sliceMid (q : Nat) : Nat := 0x440 + 16 * q

/-- The address of a task's TCB. -/
def Dev.tcbAddr (d : Dev) (t : Nat) : Nat :=
  getBits (d.reg (R.DSP_TCB_BASE.at (t / 2 ^ 18))) 47 12 * 4096 + t % 2 ^ 18 * 128

/-- A live task, none if the task is DONE. -/
def Dev.task (d : Dev) (t : Nat) : Option Task := nget Option.none d.tasks t

/-- Write a live task. -/
def Dev.setTask (d : Dev) (t : Nat) (x : Option Task) : Dev := { d with tasks := nset Option.none d.tasks t x }

/-- A rejected command or a failed TCB access (R280, R282): counted, logged, DSP_REJECT raised. -/
def Dev.dspErr (d : Dev) (q cmd t reason mid : Nat) : Dev :=
  let rcd := cmd % 16 * 2 ^ 52 + reason % 256 * 2 ^ 40 + mid % 4096 * 2 ^ 20 + t % 2 ^ 20
  ((d.bump (R.DSP_ERR_CNT.at q)).logFirst (R.DSP_ERR_LOG.at q) rcd).raise q 0x053

/-- The slice writes `n` bytes of a TCB; an error changes nothing else (R280). -/
def Dev.tcbWrite (d : Dev) (t off n v : Nat) : Dev :=
  let q := t / 2 ^ 18
  let r := d.hbm (wrReq (sliceMid q) 0 (d.tcbAddr t + off) n v) false .none
  if r.2.code = .okay then r.1 else r.1.dspErr q 0 t 7 (sliceMid q)

/-- The STATE code of a task (DSP-2). -/
def TSt.code : TSt → Nat
  | .waiting => 1
  | .delayed => 2
  | .ready => 3
  | .running => 4

/-- Write STATE and FLAGS of a task into its TCB. -/
def Dev.tcbState (d : Dev) (t : Nat) (x : Task) : Dev :=
  (d.tcbWrite t 0x05 1 x.st.code).tcbWrite t 0x0C 2 (b2n x.timed + 2 * b2n x.pendwake + 4 * b2n x.evwait)

/-- Change a live task and copy its state to the TCB. -/
def Dev.putTask (d : Dev) (t : Nat) (x : Task) : Dev := (d.setTask t (some x)).tcbState t x

/-! ### Trace (R298, R299) -/

/-- One trace record. -/
structure Tr where
  dec : Nat
  target : Nat
  reason : Nat
  status : Nat
  arg : Nat
  deriving DecidableEq, Repr

/-- Write a trace record while TREN = 1 (R298). -/
def Dev.trace (d : Dev) (now t : Nat) (x : Task) (r : Tr) : Dev :=
  let q := t / 2 ^ 18
  let c := d.reg (R.DSP_CTRL.at q)
  if !c.getLsbD 1 then d
  else
    let size := getBits (d.reg (R.DSP_TRACE_SIZE.at q)) 4 0
    let wp := d.regN (R.DSP_TRACE_WP.at q)
    if c.getLsbD 2 ∧ 2 ^ size / 16 ≤ wp then d.bump (R.DSP_TRACE_DROP.at q)
    else
      let rcd := now % 2 ^ 32 + t % 2 ^ 20 * 2 ^ 32 + b2n x.node * 2 ^ 52 + x.level % 32 * 2 ^ 56 + r.dec % 256 * 2 ^ 64
        + r.target % 256 * 2 ^ 72 + r.reason % 256 * 2 ^ 80 + r.status % 256 * 2 ^ 88 + r.arg % 2 ^ 32 * 2 ^ 96
      let w := d.hbm (wrReq (sliceMid q) 0
        (d.regN (R.DSP_TRACE_BASE.at q) / 4096 * 4096 % 2 ^ 48 + wp * 16 % 2 ^ size) 16 rcd) false .none
      if w.2.code = .okay then w.1.setRegN (R.DSP_TRACE_WP.at q) ((wp + 1) % 2 ^ 32)
      else w.1.bump (R.DSP_TRACE_DROP.at q)

/-! ### Lists (R286, R292, R294, R295) -/

/-- A dispatch slice. -/
def Dev.slice (d : Dev) (q : Nat) : Slice := nget Slice.zero d.slices q

/-- READY tasks of level `l` on a list. -/
def Dev.levelCount (d : Dev) (l : List Nat) (lv : Nat) : Nat :=
  (l.filter (fun t => match d.task t with
    | some x => decide (x.level = lv)
    | none => false)).length

/-- Write a slice: its counts and watermarks follow the lists. -/
def Dev.setSlice (d : Dev) (q : Nat) (s : Slice) : Dev :=
  let d1 := { d with slices := nset Slice.zero d.slices q s }
  let d2 := d1.setRegN (R.DSP_STAT.at q) (s.delay.length * 2 ^ 16 + s.ready.length)
  let d3 := (upTo 32).foldl (fun x l => x.setRegN (R.DSP_LVL_CNT.at q l) (x.levelCount s.ready l)) d2
  (d3.wmSet wmRdy q 0x450 s.ready.length).wmSet wmDly q 0x451 s.delay.length

/-- Whether the ready list has room for a task of level `lv` (R295). -/
def Dev.readyRoom (d : Dev) (q lv : Nat) : Bool :=
  let n := (d.slice q).ready.length
  if 28 ≤ lv then decide (n < 16384) else decide (n + 256 < 16384)

/-- Whether the delay list has room. -/
def Dev.delayRoom (d : Dev) (q : Nat) : Bool := decide ((d.slice q).delay.length < 8192)

/-- Take a task from both lists. -/
def Dev.unlist (d : Dev) (t : Nat) : Dev :=
  let q := t / 2 ^ 18
  let s := d.slice q
  if s.ready.contains t || s.delay.contains t then
    d.setSlice q { s with ready := s.ready.filter (fun x => decide (x ≠ t)),
                          delay := s.delay.filter (fun x => decide (x ≠ t)) }
  else d

/-- A task becomes READY, at the tail of its level; the reason gives the code that a waiting XWAIT writes (CORE-8). -/
def Dev.toReady (d : Dev) (now t : Nat) (x : Task) (reason : Nat) : Dev :=
  let q := t / 2 ^ 18
  let x1 := { x with st := .ready, placed := true, evwait := false, why := if reason = 1 then 2 else if reason = 2 then 1 else if reason = 3 then 3 else 0 }
  let d1 := (d.unlist t).putTask t x1
  (d1.setSlice q { d1.slice q with ready := (d1.slice q).ready ++ [t] }).trace now t x1 ⟨0x02, 0, reason, 0, 0⟩

/-- A task becomes DELAYED; `target` is the core that it leaves, 0 if none. -/
def Dev.toDelay (d : Dev) (now t : Nat) (x : Task) (target : Nat) : Dev :=
  let q := t / 2 ^ 18
  let x1 := { x with st := .delayed, placed := true }
  let d1 := (d.unlist t).putTask t x1
  (d1.setSlice q { d1.slice q with delay := (d1.slice q).delay ++ [t] }).trace now t x1 ⟨0x08, target, 0, 0, x.wake⟩

/-- Whether a wake time is in the future (R291). -/
def inFuture (now w : Nat) : Bool := !reached now w

/-- Whether a task whose dependencies are met goes to the delay list. -/
def Task.delays (x : Task) (now : Nat) : Bool := x.timed && inFuture now x.wake

/-- Whether the list that a released task goes to has room. -/
def Dev.roomFor (d : Dev) (now q : Nat) (x : Task) : Bool :=
  if x.delays now then d.delayRoom q else d.readyRoom q x.level

/-- A task with no dependency left goes to its list as SUBMIT would send it (DSP-3). -/
def Dev.release (d : Dev) (now t : Nat) (x : Task) (reason : Nat) : Dev :=
  if x.delays now then d.toDelay now t x 0 else d.toReady now t x reason

/-- A full list holds an operation back (R294). -/
def Dev.holdBack (d : Dev) (q : Nat) (ops : List HeldOp) : Dev :=
  let d1 := d.bump (R.DSP_BP_CNT.at q)
  d1.setSlice q { d1.slice q with held := (d1.slice q).held ++ ops }

/-- Whether a task that moves for a reason finds room: an event wake goes to the ready list (R293). -/
def Dev.roomAfter (d : Dev) (now q : Nat) (x : Task) (reason : Nat) : Bool :=
  if reason = 0x02 then d.readyRoom q x.level else d.roomFor now q x

/-- Move a task for a reason: an event wake makes it READY whatever its wake time (R293). -/
def Dev.releaseFor (d : Dev) (now t : Nat) (x : Task) (reason : Nat) : Dev :=
  if reason = 0x02 then d.toReady now t x reason else d.release now t x reason

/-- Release a task, or hold it back in its state where its list is full; `ack` is the MID of a DSP_CMD write that is not
acknowledged until then. -/
def Dev.releaseOrHold (d : Dev) (now t : Nat) (x : Task) (reason : Nat) (ack : Option Nat) : Dev :=
  if d.roomAfter now (t / 2 ^ 18) x reason then d.releaseFor now t x reason
  else (d.putTask t { x with placed := false }).holdBack (t / 2 ^ 18) [.place t reason ack]

/-- The MIDs of the DSP_CMD writes that wait for task `t` to be placed. -/
def Dev.writesFor (d : Dev) (t : Nat) : List Nat :=
  (d.slice (t / 2 ^ 18)).held.filterMap (fun h => match h with
    | .place u _ ack => if u = t then ack else Option.none
    | _ => Option.none)

/-- Whether a task waits in its state for room on a list. -/
def Dev.waitsRoom (d : Dev) (t : Nat) : Bool :=
  (d.slice (t / 2 ^ 18)).held.any (fun h => match h with
    | .place u _ _ => decide (u = t)
    | _ => false)

/-- The answer to an accepted DSP_CMD write (DSP-6): none yet where the write is held, and the store of a core stalls it. -/
def Dev.dspAck (d d0 : Dev) (m : Mst) (t : Nat) : Dev :=
  if (d.writesFor t).length ≤ (d0.writesFor t).length then d.okay
  else if m.mid < 64 then d.setCore m.mid { d.core m.mid with await := true }
  else d

/-- A held DSP_CMD write is acknowledged, and its core goes on. -/
def Dev.ackHeld (d : Dev) (mid : Nat) : Dev :=
  (if mid < 64 then d.setCore mid { d.core mid with await := false } else d).okay

/-! ### Signals and completion (R284, R285) -/

/-- Why SIGNAL would be rejected (DSP-11): STATE for a task that is not live while the slice has no TCB table, as a reset
leaves it (R297), RANGE, STATE, UNDERFLOW. The order of STATE and RANGE is assumption 135. -/
def Dev.sigReject (d : Dev) (t : Nat) : Option Nat :=
  let count := d.regN (R.DSP_TCB_COUNT.at (t / 2 ^ 18))
  if count = 0 ∧ (d.task t).isNone = true then some 3
  else if count ≤ t % 2 ^ 18 then some 2
  else match d.task t with
    | none => some 3
    | some x => if x.depcnt = 0 then some 5 else none

/-- Whether a signal would release its task onto a full list. -/
def Dev.sigBlocked (d : Dev) (now t : Nat) : Bool :=
  match d.task t with
  | none => false
  | some x => decide (x.depcnt = 1 ∧ x.st = .waiting ∧ x.evwait = false) && !d.roomFor now (t / 2 ^ 18) x

/-- Make one accepted signal, with the status of the completing task, 0 for OK, and the MID of the write that is SIGNAL, if
one is. -/
def Dev.doSignal (d : Dev) (now t status : Nat) (ack : Option Nat) : Dev :=
  match d.task t with
  | none => d
  | some x =>
    let ins := if x.instatus = 0 then status else x.instatus
    let x1 := { x with depcnt := x.depcnt - 1, instatus := ins }
    let d1 := ((d.setTask t (some x1)).tcbWrite t 0x06 2 x1.depcnt)
    let d2 := if ins = x.instatus then d1 else d1.tcbWrite t 0x19 1 ins
    let d3 := d2.trace now t x1 ⟨0x0D, 0, 0, 0, x1.depcnt⟩
    if x1.depcnt = 0 ∧ x1.st = .waiting ∧ x1.evwait = false then d3.releaseOrHold now t x1 0x01 ack else d3

/-- A signal from a completion in slice `q` (R284): a signal that SIGNAL would reject is dropped and logged. -/
def Dev.signal (d : Dev) (now q t status : Nat) : Dev :=
  match d.sigReject t with
  | some reason => d.dspErr (t / 2 ^ 18) 2 t reason (sliceMid q)
  | none => d.doSignal now t status none

/-- What a completion still owes: its signals in order and its COMPL, the rest held once one is blocked (R294). -/
def Dev.runHeld (d : Dev) (now q : Nat) : List HeldOp → Dev
  | [] => d
  | .sig t st :: r => if d.sigBlocked now t then d.holdBack q (.sig t st :: r) else (d.signal now q t st).runHeld now q r
  | .compl t st res :: r => (d.complNote t st res).runHeld now q r
  | .place _ _ _ :: r => d.runHeld now q r

/-- The successors of a task: SUCC0, then SUCC1. -/
def Task.succs (x : Task) : List Nat :=
  ([x.succ0, x.succ1].filter (fun s => s.testBit 31)).map (fun s => s % 2 ^ 20)

/-- Empty the hand-over register of a slot. -/
def Dev.clearHand (d : Dev) (s : Nat) : Dev :=
  { d.setRegN (R.DSP_SLOT.at (quarterOf (s / 4)) (localOf (s / 4) * 4 + s % 4)) 0 with
    handAt := nset 0 d.handAt s 0 }

/-- The hand-over register of a slot. -/
def Dev.handReg (d : Dev) (s : Nat) : Word := d.reg (R.DSP_SLOT.at (quarterOf (s / 4)) (localOf (s / 4) * 4 + s % 4))

/-- A task leaves the held entries of its slice: the writes that waited for it are acknowledged. -/
def Dev.dropHeld (d : Dev) (t : Nat) : Dev :=
  let q := t / 2 ^ 18
  let d1 := d.setSlice q { d.slice q with held := (d.slice q).held.filter (fun h => match h with
    | .place u _ _ => decide (u ≠ t)
    | _ => true) }
  (d.writesFor t).foldl (fun x mid => x.ackHeld mid) d1

/-- A task reaches DONE (R284, DSP-9): the live map, the TCB, its signals and its COMPL, and after them the trace record.
`dec` and `reason` name the decision in the trace. -/
def Dev.complete (d : Dev) (now t status result dec reason : Nat) : Dev :=
  match d.task t with
  | none => d
  | some x =>
    let q := t / 2 ^ 18
    let d0 := if x.node then d.unlist t else (d.unlist t).unbind t
    let d1 := d0.dropHeld t
    let d2 := if x.node ∧ x.held < 256 ∧ (d1.handReg x.held).getLsbD 63 ∧ getBits (d1.handReg x.held) 19 0 = t
      then d1.clearHand x.held else d1
    let d3 := ((d2.setTask t none).tcbWrite t 0x05 1 0).tcbWrite t 0x18 1 status
    let d4 := d3.tcbWrite t 0x1C 4 result
    let ops := x.succs.map (fun s => HeldOp.sig s status) ++ (if x.compl then [HeldOp.compl t status result] else [])
    (d4.runHeld now q ops).trace now t x ⟨dec, if x.node then (if x.held < 256 then x.held else 0)
      else if x.st = .running then q * 16 + x.lastCore else 0, reason, status, 0⟩

/-- HELD_COMMAND_PLACED (R294): what a full list held back first is placed, once room exists. -/
def xHeldCommandPlaced (q : Nat) (k : Clk) (d : Dev) : Dev :=
  match (d.slice q).held with
  | [] => d
  | .place t reason ack :: r =>
    let go (y : Dev) : Dev := match ack with
      | some mid => y.ackHeld mid
      | none => y
    (match d.task t with
    | none => go (d.setSlice q { d.slice q with held := r })
    | some x =>
      if d.roomAfter k.tick q x reason then go ((d.setSlice q { d.slice q with held := r }).releaseFor k.tick t x reason)
      else d)
  | .sig t st :: r =>
    if d.sigBlocked k.tick t then d else (d.setSlice q { d.slice q with held := r }).signal k.tick q t st
  | .compl t st res :: r => (d.setSlice q { d.slice q with held := r }).complNote t st res

/-- A held command places its task. -/
def execHeldCommandPlaced (q : Nat) (s : State) : Host.Outcome State Fault Refusal :=
  .next { s with d := s.d.unlessHalted (xHeldCommandPlaced q s.clk s.d) }

/-! ### Commands (R282) -/

/-- Whether DSP_CMD accepts a master: core, stream engine's completion path, queue engine, debug master. -/
def dspSource (mid : Nat) : Bool := decide (mid < 0x480) || decide (mid = 0x4C0)

/-- A rejected command: logged, answered SLVERR. -/
def Dev.dspReject (d : Dev) (m : Mst) (q cmd t reason : Nat) : Dev := (d.dspErr q cmd t reason m.mid).slverr m (R.DSP_CMD.at q)

/-- The checks that every command makes first: SOURCE, QUARTER. -/
def dspWho (m : Mst) (q t : Nat) : Option Nat :=
  if !dspSource m.mid then some 6 else if t / 2 ^ 18 ≠ q then some 1 else none

/-- The checks that SUBMIT, WAKE and CANCEL make first: SOURCE, QUARTER, RANGE. -/
def Dev.dspGate (d : Dev) (m : Mst) (q t : Nat) : Option Nat :=
  match dspWho m q t with
  | some reason => some reason
  | none => if d.regN (R.DSP_TCB_COUNT.at q) ≤ t % 2 ^ 18 then some 2 else none

/-- Bytes `off` up of a TCB as a number. -/
def tcbField (b : List Byte) (off n : Nat) : Nat := leNat ((b.drop off).take n)

/-- The checks of SUBMIT on a TCB (R282). -/
def Dev.tcbOk (d : Dev) (t : Nat) (b : List Byte) : Bool :=
  let f := tcbField b
  let succOk (v : Nat) : Bool :=
    decide (v / 2 ^ 20 % 2048 = 0) &&
      (!v.testBit 31 || decide (v % 2 ^ 18 < d.regN (R.DSP_TCB_COUNT.at (v % 2 ^ 20 / 2 ^ 18))))
  let common := decide (f 0x00 4 = t) && decide (f 0x04 1 / 32 % 4 = 0) && decide (f 0x0C 2 < 8) &&
    decide (f 0x1A 2 < 2048) && succOk (f 0x10 4) && succOk (f 0x14 4)
  if f 0x04 1 < 128 then common && decide (f 0x64 2 ≠ 0) && decide (f 0x68 24 = 0)
  else common && decide (quarterOf (f 0x40 1 / 4) = t / 2 ^ 18) && decide (f 0x42 2 ≠ 0) && decide (f 0x45 59 = 0)

/-- The task that an accepted SUBMIT makes of a TCB: PENDWAKE and EVWAIT cleared, nothing received, nothing bound. -/
def taskOf (b : List Byte) : Task :=
  let f := tcbField b
  { st := .waiting, placed := true, node := decide (128 ≤ f 0x04 1), level := f 0x04 1 % 32, depcnt := f 0x06 2,
    wake := f 0x08 4, timed := (f 0x0C 2).testBit 0, pendwake := false, evwait := false, aff := f 0x0E 2,
    succ0 := f 0x10 4, succ1 := f 0x14 4, instatus := 0, oid := f 0x1A 2, compl := (f 0x20 8).testBit 63,
    coreMask := f 0x64 2, lastCore := 0xFF, bank := 0xFF, slot := f 0x40 1, ep := f 0x41 1, gen := f 0x42 2,
    held := 0xFF + 1, began := false, rd := none, why := 0 }

/-- The state that an accepted SUBMIT gives a task (DSP-3). -/
def Task.submitSt (x : Task) (now : Nat) : TSt :=
  if x.depcnt ≠ 0 then .waiting else if x.delays now then .delayed else .ready

/-- An accepted SUBMIT: the task is live, and WAITING, DELAYED or READY. STATE is written before the trace record (R281). -/
def Dev.submitTask (d : Dev) (now t : Nat) (x : Task) (ack : Option Nat) : Dev :=
  let x1 := { x with st := x.submitSt now }
  let d1 := (d.putTask t x1).tcbWrite t 0x19 1 0
  let d2 := if x.node then d1.tcbWrite t 0x44 1 0xFF else d1.tcbWrite t 0x66 2 0xFFFF
  let d3 := d2.trace now t x1 ⟨0x01, 0, 0, 0, x1.st.code⟩
  if x.depcnt ≠ 0 then d3 else d3.releaseOrHold now t x1 0x00 ack

/-- SUBMIT (DSP-3): answers the state and, where it is rejected, the reason. -/
def Dev.submit (d : Dev) (now t : Nat) (ack : Option Nat) : Dev × Option Nat :=
  if (d.task t).isSome then (d, some 3)
  else
    let q := t / 2 ^ 18
    let r := d.hbm (rdReq (sliceMid q) 0 (d.tcbAddr t) 128) false .none
    if r.2.code ≠ .okay then (r.1, some 7)
    else if !r.1.tcbOk t r.2.data then (r.1, some 4)
    else (r.1.submitTask now t (taskOf r.2.data) ack, none)

/-- DSP_CMD SUBMIT. -/
def xSubmit (m : Mst) (q t : Nat) (k : Clk) (d : Dev) : Dev :=
  match d.dspGate m q t with
  | some reason => d.dspReject m q 1 t reason
  | none =>
    let r := d.submit k.tick t (some m.mid)
    match r.2 with
    | some reason => r.1.dspReject m q 1 t reason
    | none => r.1.dspAck d m t

/-- A SUBMIT arrives. -/
def execSubmit (m : Mst) (q t : Nat) (s : State) : Host.Outcome State Fault Refusal :=
  .next { s with d := xSubmit m q t s.clk s.d }

/-- DSP_CMD SIGNAL. -/
def xSignal (m : Mst) (q t : Nat) (k : Clk) (d : Dev) : Dev :=
  match dspWho m q t with
  | some reason => d.dspReject m q 2 t reason
  | none =>
    match d.sigReject t with
    | some reason => d.dspReject m q 2 t reason
    | none => (d.doSignal k.tick t 0 (some m.mid)).dspAck d m t

/-- A SIGNAL arrives. -/
def execSignal (m : Mst) (q t : Nat) (s : State) : Host.Outcome State Fault Refusal :=
  .next { s with d := xSignal m q t s.clk s.d }

/-- An event wake of a live task (R293); `ack` is the MID of the write that is WAKE, if one is. A task whose ready list is
full keeps its state, and its place on the delay list, until room exists (DSP-6). -/
def Dev.eventWake (d : Dev) (now t : Nat) (x : Task) (ack : Option Nat) : Dev :=
  if (x.st = .waiting ∨ x.st = .delayed) ∧ x.evwait = true then
    let stays := decide (x.depcnt = 0) && !d.readyRoom (t / 2 ^ 18) x.level
    let x1 := { x with evwait := false, st := if stays then x.st else .waiting }
    let d1 := (if stays then d else d.unlist t).putTask t x1
    let d2 := d1.trace now t x1 ⟨0x09, 0, 0x02, 0, 0⟩
    if x1.depcnt = 0 then d2.releaseOrHold now t x1 0x02 ack else d2
  else (d.putTask t { x with pendwake := true }).trace now t x ⟨0x09, 0, 0x02, 0, 0⟩

/-- DSP_CMD WAKE. -/
def xWake (m : Mst) (q t : Nat) (k : Clk) (d : Dev) : Dev :=
  match d.dspGate m q t with
  | some reason => d.dspReject m q 3 t reason
  | none =>
    match d.task t with
    | none => d.dspReject m q 3 t 3
    | some x => (d.eventWake k.tick t x (some m.mid)).dspAck d m t

/-- A WAKE arrives. -/
def execWake (m : Mst) (q t : Nat) (s : State) : Host.Outcome State Fault Refusal :=
  .next { s with d := xWake m q t s.clk s.d }

/-- Whether a NODE is handed and not admitted. -/
def Dev.handedOnly (d : Dev) (t : Nat) (x : Task) : Bool :=
  x.node && decide (x.st = .running) && decide (x.held < 256) && !(d.handReg x.held).getLsbD 62
    && decide (getBits (d.handReg x.held) 19 0 = t)

/-- A NODE that is handed and not admitted is withdrawn (R289). -/
def Dev.withdraw (d : Dev) (now t status reason : Nat) : Dev := d.complete now t status 0 0x0C reason

/-- CANCEL (DSP-3): accepted for a task that is not RUNNING, or a NODE handed and not admitted. -/
def Dev.cancel (d : Dev) (now t : Nat) : Option Dev :=
  match d.task t with
  | none => none
  | some x =>
    if d.handedOnly t x then some (d.withdraw now t 0x01 0x0A)
    else if x.st = .running then none
    else some (d.complete now t 0x01 0 0x0A 0x0A)

/-- DSP_CMD CANCEL. -/
def xCancel (m : Mst) (q t : Nat) (k : Clk) (d : Dev) : Dev :=
  match d.dspGate m q t with
  | some reason => d.dspReject m q 4 t reason
  | none =>
    match d.cancel k.tick t with
    | none => d.dspReject m q 4 t 3
    | some d1 => d1.okay

/-- A CANCEL arrives. -/
def execCancel (m : Mst) (q t : Nat) (s : State) : Host.Outcome State Fault Refusal :=
  .next { s with d := xCancel m q t s.clk s.d }

/-- A write of DSP_CMD: SUBMIT, SIGNAL, WAKE, CANCEL, or a code that is rejected (DSP-3). -/
def xDspCmd (m : Mst) (q v : Nat) (k : Clk) (d : Dev) : Dev :=
  let t := v % 2 ^ 20
  match v / 2 ^ 60 % 16 with
  | 1 => xSubmit m q t k d
  | 2 => xSignal m q t k d
  | 3 => xWake m q t k d
  | 4 => xCancel m q t k d
  | c => d.dspReject m q c t (if dspSource m.mid then 8 else 6)

/-! ### WAKE_TIME_REACHED (R292) -/

/-- How long ago a wake time was reached. -/
def overdue (now w : Nat) : Nat := (now + 2 ^ 32 - w % 2 ^ 32) % 2 ^ 32

/-- The delayed task whose wake time was reached first; equal wake times leave in the order of insertion. A task that an
event wake has released leaves by that wake (R293). -/
def Dev.firstDue (d : Dev) (now q : Nat) : Option Nat :=
  ((d.slice q).delay.foldl (fun (best : Option (Nat × Nat)) t =>
    match d.task t with
    | none => best
    | some x =>
      if !inFuture now x.wake ∧ d.waitsRoom t = false then
        match best with
        | none => some (t, overdue now x.wake)
        | some b => if b.2 < overdue now x.wake then some (t, overdue now x.wake) else some b
      else best) none).map (fun b => b.1)

/-- WAKE_TIME_REACHED: one task leaves the delay list (R292); while the ready list has no room it stays, and the holding
is counted once (R294). -/
def xWakeTimeReached (q : Nat) (k : Clk) (d : Dev) : Dev :=
  match d.firstDue k.tick q with
  | none => d
  | some t =>
    match d.task t with
    | none => d
    | some x =>
      if d.readyRoom q x.level then d.toReady k.tick t x 0x03
      else if x.placed then (d.setTask t (some { x with placed := false })).bump (R.DSP_BP_CNT.at q)
      else d

/-- A wake time is reached. -/
def execWakeTimeReached (q : Nat) (s : State) : Host.Outcome State Fault Refusal :=
  .next { s with d := s.d.unlessHalted (xWakeTimeReached q s.clk s.d) }

/-! ### HAND (R289, R290) -/

/-- The load record of a slot. -/
def Dev.load (d : Dev) (s : Nat) : LoadRec := nget LoadRec.none d.loads s

/-- The members in use of replica group `r` of quarter `q`. -/
def Dev.replMembers (d : Dev) (q r : Nat) : List Nat :=
  (onesOf (d.regN (R.DSP_REPL_EN.at q r)) 8).map (fun m => getBits (d.reg (R.DSP_REPL.at q r)) (8 * m + 7) (8 * m))

/-- The replica group of a slot. -/
def Dev.replGroup (d : Dev) (s : Nat) : Option Nat :=
  (upTo 16).find? (fun r => (d.replMembers (quarterOf (s / 4)) r).contains s)

/-- A slot's SWEEP bit. -/
def Dev.sweeping (d : Dev) (s : Nat) : Bool := getBits (d.reg (slotReg s .SLOT_STAT)) 30 30 == 1

/-- Whether member `m` qualifies for a NODE that names slot `s` (R290). -/
def Dev.qualifies (d : Dev) (s m ep : Nat) : Bool :=
  decide (d.slotState m = stLive) && !(d.handReg m).getLsbD 63
    && decide ((d.load m).st = 2) && decide ((d.load m).ident = (d.load s).ident) && (d.load m).eps.any (fun e => decide (e.ep = ep))

/-- The slot that takes a NODE naming a slot that is LIVE or PAUSED: itself, or a member of its group. -/
def Dev.taker (d : Dev) (x : Task) : Option (Nat × Bool) :=
  match d.replGroup x.slot with
  | none => if (d.handReg x.slot).getLsbD 63 then none else some (x.slot, false)
  | some r =>
    let q := quarterOf (x.slot / 4)
    let ok := (d.replMembers q r).filter (fun m => d.qualifies x.slot m x.ep)
    let memo := nget [] (d.slice q).aff r
    match (memo.find? (fun e => decide (x.aff ≠ 0 ∧ e.1 = x.aff))).filter (fun e => ok.contains e.2) with
    | some e => some (e.2, true)
    | none =>
      match ok with
      | m :: _ => some (m, false)
      | [] => if d.slotState x.slot = stPaused ∧ (d.handReg x.slot).getLsbD 63 = false then some (x.slot, false) else none

/-- The affinity memory takes note of a hand-over (R290): most recent first, 8 values. -/
def Dev.noteAff (d : Dev) (q r aff m : Nat) : Dev :=
  if aff = 0 then d
  else
    let s := d.slice q
    let l := (aff, m) :: (nget [] s.aff r).filter (fun e => decide (e.1 ≠ aff))
    { d with slices := nset Slice.zero d.slices q { s with aff := nset [] s.aff r (l.take 8) } }

/-- The slice reads the TCB of a live task (R280): 128 bytes, whose values are free where the read fails. -/
def Dev.tcbRead (d : Dev) (t : Nat) : Dev × List Byte :=
  let r := d.hbm (rdReq (sliceMid (t / 2 ^ 18)) 0 (d.tcbAddr t) 128) false .none
  if r.2.code = .okay then (r.1, r.2.data)
  else (upTo 16).foldl (fun (x : Dev × List Byte) _ =>
    let f := x.1.fresh
    (f.2, x.2 ++ leBytes f.1.toNat 8)) (r.1, [])

/-- Hand a NODE to slot `m`; its TCB is read at the hand-over (R280), and nothing that the hand-over does rests on it. -/
def Dev.hand (d : Dev) (k : Clk) (t : Nat) (x : Task) (m : Nat) (byAff : Bool) : Dev :=
  let x1 := { x with st := .running, held := m, began := true }
  let d1 := (((d.tcbRead t).1.unlist t).putTask t x1).tcbWrite t 0x44 1 m
  let d2 := d1.setRegN (R.DSP_SLOT.at (quarterOf (m / 4)) (localOf (m / 4) * 4 + m % 4)) (2 ^ 63 + t)
  let d3 := { d2 with handAt := nset 0 d2.handAt m (k.dtime + 1) }
  let d4 := match d3.replGroup x.slot with
    | some r => d3.noteAff (quarterOf (m / 4)) r x.aff m
    | none => d3
  d4.trace k.tick t x1 ⟨0x04, m, if byAff then 0x05 else 0x00, 0, x.gen⟩

/-- The READY NODEs, highest level first and oldest first within a level, that may go to slot `s`. -/
def Dev.nodesFor (d : Dev) (s : Nat) : List (Nat × Task) :=
  let q := quarterOf (s / 4)
  let g := d.replGroup s
  let all := (d.slice q).ready.filterMap (fun t => match d.task t with
    | some x => if x.node ∧ (x.slot = s ∨ (g.isSome ∧ d.replGroup x.slot = g)) then some (t, x) else none
    | none => none)
  (upTo 32).reverse.flatMap (fun l => all.filter (fun e => decide (e.2.level = l)))

/-- What becomes of a READY NODE at hand-over (DSP-5); none if it stays READY. -/
def Dev.handOne (d : Dev) (k : Clk) (t : Nat) (x : Task) : Option Dev :=
  let s := x.slot
  let st := d.slotState s
  if d.regN (slotReg s .SLOT_GEN) ≠ x.gen ∨ d.sweeping s = true then some (d.complete k.tick t 0x07 0 0x0B 0x08)
  else if st = stStopped ∨ st = stTadpole ∨ st = stUndefined then some (d.complete k.tick t 0x05 0 0x0A 0x00)
  else if st = stLive ∨ st = stPaused then
    match d.taker x with
    | some m => some (d.hand k t x m.1 m.2)
    | none => none
  else none

/-- HAND (R289): the first READY NODE that may go to slot `s` and does not stay READY. -/
def Dev.handFirst (d : Dev) (k : Clk) : List (Nat × Task) → Dev
  | [] => d
  | e :: r => match d.handOne k e.1 e.2 with
    | some d1 => d1
    | none => d.handFirst k r

/-- HAND. -/
def xHand (s : Nat) (k : Clk) (d : Dev) : Dev :=
  if (d.reg (R.DSP_CTRL.at (quarterOf (s / 4)))).getLsbD 0 then d.handFirst k (d.nodesFor s) else d

/-- The slice fills hand-over registers. -/
def execHand (slot : Nat) (s : State) : Host.Outcome State Fault Refusal := .next { s with d := s.d.unlessHalted (xHand slot s.clk s.d) }

/-- A slot's generation changes: a NODE handed and not admitted completes ENTRY_STALE (R289). -/
def Dev.withdrawStale (d : Dev) (now s : Nat) : Dev :=
  let h := d.handReg s
  if h.getLsbD 63 ∧ h.getLsbD 62 = false then d.withdraw now (getBits h 19 0) 0x07 0x08 else d

/-! ### DSP_REPL (R301) -/

/-- Whether the groups of quarter `q` obey R301: members anchored in the quarter, no slot in two groups. A group names the
members that DSP_REPL_EN puts in use: with the reset value 0 in every field of DSP_REPL, a test of the others would put slot
0 in all 16 groups. -/
def Dev.replOk (d : Dev) (q : Nat) : Bool :=
  let all := (upTo 16).map (fun r => d.replMembers q r)
  all.all (fun l => l.all (fun s => decide (quarterOf (s / 4) = q))) &&
    (upTo 16).all (fun i => (upTo 16).all (fun j => decide (i = j) ||
      (all.getD i []).all (fun s => !(all.getD j []).contains s)))

/-- DSP_REPL or DSP_REPL_EN is written. -/
def xDspRepl (m : Mst) (q r : Nat) (en : Bool) (v : Nat) (d : Dev) : Dev :=
  let x := if en then R.DSP_REPL_EN.at q r else R.DSP_REPL.at q r
  let d1 := d.setRegN x (if en then v % 256 else v % 2 ^ 64)
  if !m.owner then d.denyOid m x
  else if d1.replOk q then d1.okay
  else d.refuse m x

/-- A replica group is written. -/
def execDspRepl (m : Mst) (q r : Nat) (en : Bool) (v : Nat) (s : State) : Host.Outcome State Fault Refusal :=
  .next { s with d := xDspRepl m q r en v s.d }

end Sys2Proof.Machine
end

