-- ==== Sys2Proof/Machine/Events.lean ====
section
/-! DEFINITION. Events and mailboxes (chapter 12): claims, software sources, routes, timers, watermark thresholds, and
the mailbox channels and host mailboxes. Sampling and delivery are in Tick. -/

namespace Sys2Proof.Machine

/-! ### Power domains as events reach them (19 R526, R527) -/

/-- A transition in progress of domain `i` of quarter `q`. -/
def Dev.domTr (d : Dev) (q i : Nat) : Option DomTr := nget Option.none d.doms (q * 32 + i)

/-- Begin, change or end a transition. -/
def Dev.setDomTr (d : Dev) (q i : Nat) (t : Option DomTr) : Dev := { d with doms := nset Option.none d.doms (q * 32 + i) t }

/-- Start the wake of a basking domain, unless a transition runs (R527, R353). -/
def Dev.startWake (d : Dev) (q i : Nat) : Dev :=
  if d.domCur q i = 1 ∧ d.domTr q i = none then d.setDomTr q i (some ⟨0, none⟩) else d

/-- A read that its rule refuses: it reads 0 and is logged (R349, R350). -/
def Dev.refuseRead (d : Dev) (m : Mst) (x : RKey) (k : AErr) : Dev :=
  (d.accessErr k x.q m.mid false (if x.r.desc.wide then 3 else 2) x.offset (decide (x.r.desc.blk = .AO))).answer .okay 0

/-! ### Claims, software sources, routes (R342–R344, R355, R356) -/

/-- Set or clear the pending bit of a source. -/
def Dev.setPend (d : Dev) (q s : Nat) (v : Bool) : Dev := d.setBit (R.EVT_PEND.at q (s / 32)) (s % 32) v

/-- EVT_CLAIM of quarter-local core `c` is read (R344). -/
def xEvtClaim (m : Mst) (q c : Nat) (d : Dev) : Dev :=
  if !m.owner then d.denyOid m (R.EVT_CLAIM.at q c)
  else match d.best q (d.forCore (q * 16 + c)) with
  | none => d.answer .okay 0
  | some s => (d.setPend q s false).answer .okay (BitVec.ofNat 64 (2 ^ 31 + d.classOf q s * 2 ^ 27 + q * 1536 + s))

/-- A source is claimed. -/
def execEvtClaim (m : Mst) (q c : Nat) (s : State) : Host.Outcome State Fault Refusal :=
  .next { s with d := xEvtClaim m q c s.d }

/-- EVT_SWSET(w) is written: one occurrence of each software source selected (EVT-8). -/
def xEvtSwset (m : Mst) (q w v : Nat) (d : Dev) : Dev :=
  if !m.owner then d.denyOid m (R.EVT_SWSET.at q w)
  else ((onesOf v 32).foldl (fun x j => x.raise q (0x500 + 32 * w + j)) d).okay

/-- Software sources are raised. -/
def execEvtSwset (m : Mst) (q w v : Nat) (s : State) : Host.Outcome State Fault Refusal :=
  .next { s with d := xEvtSwset m q w v s.d }

/-- Sources that an MSIX route may send to an owner other than 0 (R343). -/
def msixOk (s : Nat) : Bool :=
  decide (0x0C0 ≤ s ∧ s < 0x100) || decide (0x2F0 ≤ s ∧ s < 0x330) || decide (0x500 ≤ s) || decide (0x490 ≤ s ∧ s < 0x4B1)

/-- Whether a value of EVT_ROUTE is accepted for source `s` (R343, R356). -/
def routeValid (s v : Nat) : Bool :=
  let mode := bitsOf v 63 62
  (mode != 1 || decide (bitsOf v 31 0 < 16)) && (mode != 3 || decide (bitsOf v 42 32 = 0) || msixOk s)
    && (decide (s < 0x500) || (decide (4 ≤ bitsOf v 61 58) && decide (bitsOf v 61 58 ≤ 10)))

/-- The value that EVT_ROUTE holds: the class of a source that is no software source is fixed, reserved bits are 0. -/
def routeValue (s v : Nat) : Nat :=
  let mode := bitsOf v 63 62
  let target := if mode = 1 then v % 16 else if mode = 2 then v % 2 ^ 20 else if mode = 3 then v % 2 ^ 11 else v % 2 ^ 32
  mode * 2 ^ 62 + (if s < 0x500 then sourceClass s else bitsOf v 61 58) * 2 ^ 58 + bitsOf v 57 57 * 2 ^ 57
    + bitsOf v 42 32 * 2 ^ 32 + target

/-- EVT_ROUTE is written; the route in force stays until the next tick edge (R342). -/
def xEvtRoute (m : Mst) (q s v : Nat) (d : Dev) : Dev :=
  let x := R.EVT_ROUTE.at q s
  if !m.owner then d.denyOid m x
  else if !sourceExists q s then d.okay
  else if !routeValid s v then d.refuse m x
  else ({ d.setRegN x (routeValue s v) with
    routes := nset Option.none d.routes (q * 1536 + s) (some (d.routeNow q s)) }).okay

/-- A route is written. -/
def execEvtRoute (m : Mst) (q src v : Nat) (s : State) : Host.Outcome State Fault Refusal :=
  .next { s with d := xEvtRoute m q src v s.d }

/-! ### Timers (R346) -/

/-- TIMER: an enabled timer whose NEXT is reached raises, once per tick edge; `timerAt` holds the edge it raised at last. -/
def xTimer (q i : Nat) (k : Clk) (d : Dev) : Dev :=
  let c := d.reg (R.EVT_TMR_CTRL.at q i)
  let n := d.regN (R.EVT_TMR_NEXT.at q i)
  if c.getLsbD 0 ∧ inFuture k.tick n = false ∧ nget 0 d.timerAt (q * 32 + i) ≠ k.tick + 1 then
    let d1 := { d with timerAt := nset 0 d.timerAt (q * 32 + i) (k.tick + 1) }.raise q (0x330 + i)
    if c.getLsbD 1 then d1.setRegN (R.EVT_TMR_NEXT.at q i) ((n + d.regN (R.EVT_TMR_PERIOD.at q i)) % 2 ^ 32)
    else d1.setBit (R.EVT_TMR_CTRL.at q i) 0 false
  else d

/-- A timer is due. -/
def execTimer (q i : Nat) (s : State) : Host.Outcome State Fault Refusal := .next { s with d := xTimer q i s.clk s.d }

/-- Whether a period suits a periodic timer. -/
def periodOk (p : Nat) : Bool := decide (1 ≤ p) && decide (p < 2 ^ 31)

/-- EVT_TMR_CTRL is written. -/
def xEvtTmrCtrl (m : Mst) (q i v : Nat) (d : Dev) : Dev :=
  let x := R.EVT_TMR_CTRL.at q i
  if !m.owner then d.denyOid m x
  else if bitsOf v 1 1 = 1 ∧ periodOk (d.regN (R.EVT_TMR_PERIOD.at q i)) = false then d.refuse m x
  else (d.setRegN x (v % 4)).okay

/-- A timer is controlled. -/
def execEvtTmrCtrl (m : Mst) (q i v : Nat) (s : State) : Host.Outcome State Fault Refusal :=
  .next { s with d := xEvtTmrCtrl m q i v s.d }

/-- EVT_TMR_PERIOD is written. -/
def xEvtTmrPeriod (m : Mst) (q i v : Nat) (d : Dev) : Dev :=
  let x := R.EVT_TMR_PERIOD.at q i
  if !m.owner then d.denyOid m x
  else if (d.reg (R.EVT_TMR_CTRL.at q i)).getLsbD 1 = true ∧ periodOk (v % 2 ^ 32) = false then d.refuse m x
  else (d.setRegN x (v % 2 ^ 32)).okay

/-- A timer's period is set. -/
def execEvtTmrPeriod (m : Mst) (q i v : Nat) (s : State) : Host.Outcome State Fault Refusal :=
  .next { s with d := xEvtTmrPeriod m q i v s.d }

/-! ### Watermark thresholds (R347, R348) -/

/-- The registers of a watermark, and the source it raises when it is that of quarter `q`, index `i`. -/
def wmOf (w : WmName) (i : Nat) : Wm × Nat :=
  match w with
  | .tmem => (wmTmem, 0x080 + i * 4 + 2)
  | .ctx => (wmCtx, 0x080 + i * 4 + 2)
  | .ready => (wmRdy, 0x450)
  | .delay => (wmDly, 0x451)
  | .bank => (wmBnk, 0x200 + i * 4 + 3)
  | .pair => (wmQp, 0x452)
  | .ring => (wmRing, 0x453)

/-- WATERMARK_THRESHOLD_WRITE: HI or LO is written; a value that makes LO ≥ HI is dropped (R347). -/
def xWatermarkThresholdWrite (m : Mst) (w : WmName) (q i j : Nat) (hi : Bool) (v : Nat) (d : Dev) : Dev :=
  let p := wmOf w i
  let x := (if hi then p.1.hi else p.1.lo).at q i j
  let h := if hi then v % 2 ^ 32 else d.regN (p.1.hi.at q i j)
  let l := if hi then d.regN (p.1.lo.at q i j) else v % 2 ^ 32
  if !m.owner then d.denyOid m x
  else if h ≤ l then d.refuse m x
  else ((d.setRegN x (v % 2 ^ 32)).wmCheck p.1 q p.2 i j).1.okay

/-- A threshold is written. -/
def execWatermarkThresholdWrite (m : Mst) (w : WmName) (q i j : Nat) (hi : Bool) (v : Nat) (s : State) :
    Host.Outcome State Fault Refusal :=
  .next { s with d := xWatermarkThresholdWrite m w q i j hi v s.d }

/-! ### Mailboxes (R349–R354) -/

/-- The registers of a channel's page: channels are numbered 0 to 255, host mailbox `i` is 256 + i. -/
def mbxReg (q ch : Nat) (chan host : R) : RKey := if ch < 256 then chan.at q ch else host.at q (ch - 256)

/-- The binding of a channel. -/
def mbxLock (q ch : Nat) : RKey := mbxReg q ch .MBX_LOCK .MBX_HLOCK

/-- MBX_STAT of a channel. -/
def mbxStat (q ch : Nat) : RKey := mbxReg q ch .MBX_STAT .HMBX_STAT

/-- The notices of a channel, oldest first. -/
def Dev.notices (d : Dev) (q ch : Nat) : List Notice := nget [] d.mail (q * 1024 + ch)

/-- Write the notices of a channel: LEVEL, and the receive registers that show the oldest. -/
def Dev.setNotices (d : Dev) (q ch : Nat) (l : List Notice) : Dev :=
  let n := l.headD ⟨0, 0, 0⟩
  let d1 := { d with mail := nset [] d.mail (q * 1024 + ch) l }
  let d2 := d1.setReg (mbxStat q ch) (putBits (d1.reg (mbxStat q ch)) 3 0 l.length)
  (d2.setRegN (mbxReg q ch .MBX_RPTR .HMBX_RPTR) n.ptr).setRegN (mbxReg q ch .MBX_RLT .HMBX_RLT)
    (n.tag % 2 ^ 32 * 2 ^ 32 + n.len % 2 ^ 32)

/-- RESULT of a channel. -/
def Dev.mbxResult (d : Dev) (q ch v : Nat) : Dev := d.setReg (mbxStat q ch) (putBits (d.reg (mbxStat q ch)) 31 28 v)

/-- FULL of a compatibility channel. -/
def Dev.mbxFull (d : Dev) (q ch : Nat) : Bool := (d.reg (mbxStat q ch)).getLsbD 8

/-- Whether the channel is bound, and in which mode. -/
def Dev.mbxLocked (d : Dev) (q ch : Nat) : Bool := (d.reg (mbxLock q ch)).getLsbD 63
/-- Compatibility mode. -/
def Dev.mbxCompat (d : Dev) (q ch : Nat) : Bool := (d.reg (mbxLock q ch)).getLsbD 62
/-- The receiver's MID. -/
def Dev.mbxRecv (d : Dev) (q ch : Nat) : Nat := getBits (d.reg (mbxLock q ch)) 59 48

/-- Whether a master is the bound sender: its MID, or for a host mailbox the function with the mailbox's OID. -/
def Dev.mbxSender (d : Dev) (m : Mst) (q ch : Nat) : Bool :=
  d.mbxLocked q ch && (if ch < 256 then decide (m.mid = getBits (d.reg (mbxLock q ch)) 11 0)
    else decide (0x500 ≤ m.mid) && decide (m.oid = 264 * q + (ch - 256)))

/-- A binding write: once, then dropped (R349). -/
def Dev.mbxBind (d : Dev) (m : Mst) (q ch v mask : Nat) : Dev :=
  if !m.owner then d.denyOid m (mbxLock q ch)
  else if d.mbxLocked q ch then d.refuse m (mbxLock q ch)
  else (d.setRegN (mbxLock q ch) (2 ^ 63 + (v &&& mask))).okay

/-- MBX_LOCK is written. -/
def xMbxLock (m : Mst) (q ch v : Nat) (d : Dev) : Dev := d.mbxBind m q ch v 0x4FFF000000000FFF

/-- A channel is bound. -/
def execMbxLock (m : Mst) (q ch v : Nat) (s : State) : Host.Outcome State Fault Refusal :=
  .next { s with d := xMbxLock m q ch v s.d }

/-- MBX_HLOCK is written: SEND is reserved there. -/
def xMbxHlock (m : Mst) (q i v : Nat) (d : Dev) : Dev := d.mbxBind m q (256 + i) v 0x4FFF000000000000

/-- A host mailbox is bound. -/
def execMbxHlock (m : Mst) (q i v : Nat) (s : State) : Host.Outcome State Fault Refusal :=
  .next { s with d := xMbxHlock m q i v s.d }

/-- MBX_SPTR is written by the bound sender of a native channel (R350). -/
def xMbxSptr (m : Mst) (q ch v : Nat) (d : Dev) : Dev :=
  let x := mbxReg q ch .MBX_SPTR .HMBX_SPTR
  if ch < 256 ∧ m.owner = false then d.denyOid m x
  else if d.mbxCompat q ch then d.refuse m x
  else if !d.mbxSender m q ch then d.refuseSource m x
  else (d.setRegN x (v % 2 ^ 64)).okay

/-- The notice pointer is set. -/
def execMbxSptr (m : Mst) (q ch v : Nat) (s : State) : Host.Outcome State Fault Refusal :=
  .next { s with d := xMbxSptr m q ch v s.d }

/-- The quarter whose base die holds a receiver; the debug port, the boot engine and the power manager have none. -/
def Dev.recvQuarter (d : Dev) (mid : Nat) : Option Nat := if 0x4C0 ≤ mid ∧ mid < 0x500 then none else some (d.midQuarter mid)

/-- What a receiver's state makes of a send (EVT-7): OFF, its core in reset, asleep, or awake. -/
inductive RecvSt where
  | off | inReset | asleep | awake
  deriving DecidableEq, Repr

/-- The state of a receiver. -/
def Dev.recvState (d : Dev) (mid : Nat) : RecvSt :=
  let dom := match d.recvQuarter mid with
    | some q => d.domCur q 16
    | none => 0
  if dom = 2 then .off
  else if mid < 64 ∧ (d.core mid).st = .reset then .inReset
  else if dom = 1 then .asleep
  else .awake

/-- The occurrence of a channel: its source, and for a host mailbox its HPEND bit (R350, R351). -/
def Dev.mbxRaise (d : Dev) (q ch : Nat) : Dev :=
  if ch < 256 then d.raise q (0x350 + ch) else d.raise q (0x490 + (ch - 256) / 8)

/-- A notice or word was queued: RESULT OK, and its occurrence at once, or once the receiver's domain is awake (R353). -/
def Dev.mbxQueued (d : Dev) (q ch : Nat) (asleep : Bool) : Dev :=
  let d0 := d.mbxResult q ch 0
  let d1 := if ch < 256 then d0 else d0.setBit (R.MBX_HPEND.at q ((ch - 256) / 8)) ((ch - 256) % 8) true
  if asleep then
    match d1.recvQuarter (d1.mbxRecv q ch) with
    | some rq =>
      let d2 := if d1.domTr rq 16 = none then (d1.bump (R.MBX_CROAK_CNT.at q)).startWake rq 16 else d1
      { d2 with croaks := nset false d2.croaks (q * 1024 + ch) true }
    | none => d1.mbxRaise q ch
  else d1.mbxRaise q ch

/-- An error of a function in its AER status, counted at its link (13 R364, R377). -/
def Dev.fnError (d : Dev) (L oid bit : Nat) : Dev :=
  let f := nget Fn.zero d.fns oid
  ({ d with fns := nset Fn.zero d.fns oid { f with unc := f.unc ||| 2 ^ bit } }).bump (R.HIF_UNCORR_CNT.at (L / 8) (L % 8))

/-- A send that is not queued (EVT-7): SLVERR on the NoC; a function's posted write is dropped, and one that the row gives
Unsupported Request is reported as that (AER bit 20). -/
def Dev.mbxRefused (d : Dev) (m : Mst) (q ch : Nat) (ur : Bool) : Dev :=
  if ch < 256 then d.slverr m (mbxReg q ch .MBX_SLT .HMBX_SLT)
  else if ur then (d.fnError (m.mid - 0x500) m.oid 20).answer .decerr 0
  else d.okay

/-- The outcome of a send whose master and form are right (EVT-7). -/
def Dev.mbxSend (d : Dev) (m : Mst) (q ch : Nat) (full : Bool) (put : Dev → Dev) : Dev :=
  if 256 ≤ ch ∧ (nget Fn.zero d.fns m.oid).d3 = true then d.mbxRefused m q ch true
  else match d.recvState (d.mbxRecv q ch) with
  | .off => (d.mbxResult q ch 3).mbxRefused m q ch true
  | .inReset => (d.mbxResult q ch 2).mbxRefused m q ch false
  | .asleep => if full then (d.mbxResult q ch 1).mbxRefused m q ch false else ((put d).mbxQueued q ch true).okay
  | .awake => if full then (d.mbxResult q ch 1).mbxRefused m q ch false else ((put d).mbxQueued q ch false).okay

/-- MBX_SLT is written: a notice is committed (R350, R352). -/
def xMbxSlt (m : Mst) (q ch v : Nat) (d : Dev) : Dev :=
  let x := mbxReg q ch .MBX_SLT .HMBX_SLT
  if ch < 256 ∧ m.owner = false then d.denyOid m x
  else if d.mbxCompat q ch then d.refuse m x
  else if !d.mbxSender m q ch then d.refuseSource m x
  else
    let n : Notice := ⟨d.regN (mbxReg q ch .MBX_SPTR .HMBX_SPTR), v % 2 ^ 32, v / 2 ^ 32 % 2 ^ 32⟩
    let l := d.notices q ch
    d.mbxSend m q ch (decide ((if ch < 256 then 8 else 4) ≤ l.length)) (fun x => x.setNotices q ch (l ++ [n]))

/-- A notice is committed. -/
def execMbxSlt (m : Mst) (q ch v : Nat) (s : State) : Host.Outcome State Fault Refusal :=
  .next { s with d := xMbxSlt m q ch v s.d }

/-- CROAK_DELIVERY (R353): the receiver's domain is ON, and the channel's occurrence is raised. -/
def xCroakDelivery (q ch : Nat) (d : Dev) : Dev :=
  let on := match d.recvQuarter (d.mbxRecv q ch) with
    | some rq => decide (d.domCur rq 16 = 0)
    | none => true
  if nget false d.croaks (q * 1024 + ch) && on then
    ({ d with croaks := nset false d.croaks (q * 1024 + ch) false }).mbxRaise q ch
  else d

/-- A croak is delivered. -/
def execCroakDelivery (q ch : Nat) (s : State) : Host.Outcome State Fault Refusal :=
  .next { s with d := xCroakDelivery q ch s.d }

/-- MBX_RLT is read by the receiver: the oldest notice's tag and length, and the notice is gone (R350). -/
def xMbxRlt (m : Mst) (q ch : Nat) (d : Dev) : Dev :=
  let x := mbxReg q ch .MBX_RLT .HMBX_RLT
  if !m.owner then d.denyOid m x
  else if d.mbxCompat q ch then d.refuseRead m x .refused
  else if d.mbxLocked q ch = false ∨ m.mid ≠ d.mbxRecv q ch then d.refuseRead m x .source
  else (d.setNotices q ch ((d.notices q ch).drop 1)).answer .okay (d.reg x)

/-- A notice is received. -/
def execMbxRlt (m : Mst) (q ch : Nat) (s : State) : Host.Outcome State Fault Refusal :=
  .next { s with d := xMbxRlt m q ch s.d }

/-- MBX_WORD is written by the sender of a compatibility channel (R350). -/
def xMbxWord (m : Mst) (q ch v : Nat) (d : Dev) : Dev :=
  let x := mbxReg q ch .MBX_WORD .HMBX_WORD
  if ch < 256 ∧ m.owner = false then d.denyOid m x
  else if d.mbxLocked q ch = true ∧ d.mbxCompat q ch = false then d.refuse m x
  else if !d.mbxSender m q ch then d.refuseSource m x
  else d.mbxSend m q ch (d.mbxFull q ch) (fun y => (y.setRegN x (v % 2 ^ 32)).setBit (mbxStat q ch) 8 true)

/-- A compatibility word is sent. -/
def execMbxWord (m : Mst) (q ch v : Nat) (s : State) : Host.Outcome State Fault Refusal :=
  .next { s with d := xMbxWord m q ch v s.d }

/-- MBX_WORD is read by the receiver: the word, and FULL is clear (R350). An empty channel reads 0. -/
def xMbxWordRead (m : Mst) (q ch : Nat) (d : Dev) : Dev :=
  let x := mbxReg q ch .MBX_WORD .HMBX_WORD
  if !m.owner then d.denyOid m x
  else if d.mbxLocked q ch = true ∧ d.mbxCompat q ch = false then d.refuseRead m x .refused
  else if d.mbxLocked q ch = false ∨ m.mid ≠ d.mbxRecv q ch then d.refuseRead m x .source
  else (d.setBit (mbxStat q ch) 8 false).answer .okay (if d.mbxFull q ch then d.reg x else 0)

/-- A compatibility word is received. -/
def execMbxWordRead (m : Mst) (q ch : Nat) (s : State) : Host.Outcome State Fault Refusal :=
  .next { s with d := xMbxWordRead m q ch s.d }

/-! ### Channels whose receiver goes away (R354) -/

/-- Clear a channel with RESULT 2 or 3; what it held is lost and counted. -/
def Dev.mbxClear (d : Dev) (q ch result : Nat) : Dev :=
  let lost := (d.notices q ch).length + b2n (d.mbxFull q ch)
  let d1 := ((d.setNotices q ch []).setBit (mbxStat q ch) 8 false).mbxResult q ch result
  let d2 := { d1 with croaks := nset false d1.croaks (q * 1024 + ch) false }
  (upTo lost).foldl (fun x _ => x.bump (R.MBX_ABORT_CNT.at q)) d2

/-- Clear every channel and host mailbox whose bound receiver satisfies `p` (MAILBOX_CLEAR). -/
def Dev.mbxClearFor (d : Dev) (p : Nat → Bool) (result : Nat) : Dev :=
  (d.regs.filterMap (fun e =>
    let recv := getBits e.2 59 48
    if e.2.getLsbD 63 ∧ p recv = true then
      (if e.1.r = .MBX_LOCK then some (e.1.q, e.1.i) else if e.1.r = .MBX_HLOCK then some (e.1.q, 256 + e.1.i) else none)
    else none)).foldl (fun x c => x.mbxClear c.1 c.2 result) d

end Sys2Proof.Machine
end

