-- ==== Sys2Proof/Machine/Halt.lean ====
section
/-! DEFINITION. Halts, trigger rules and captures (chapter 21) as the other units reach them. -/

namespace Sys2Proof.Machine

/-- SAFE of SAFE_STAT: safe stop runs or is reached (19 R532). -/
def Dev.safe (d : Dev) : Bool := (d.reg (R.SAFE_STAT.at 0)).getLsbD 31

/-- Whether CONF_ERR is asserted (18 R508). -/
def Dev.confFailed (d : Dev) : Bool := d.fld F.AO_STATUS_CONF 0 == 2

/-- Halt core `n` (R565): a core in reset has nothing to halt. -/
def Dev.haltCore (d : Dev) (n : Nat) : Dev :=
  let c := d.core n
  if c.st = .reset then d else d.setCore n { c with halted := true, step := false }

/-- Resume core `n` (R569). -/
def Dev.runCore (d : Dev) (n : Nat) : Dev :=
  let c := d.core n
  if c.halted then d.setCore n { c with halted := false, step := false } else d

/-- Show SYSHALT in the four quarters. -/
def Dev.setSysHalt (d : Dev) (v : Bool) : Dev :=
  { (upTo 4).foldl (fun x q => x.setBit (R.DBG_STAT.at q) 31 v) d with sysHalt := v }

/-- A system halt (R567): every subsystem and every core stops, DBG_HALT is raised. Not in safe stop or with CONF_ERR
asserted (R570). -/
def Dev.haltSystem (d : Dev) : Dev :=
  if d.safe ∨ d.confFailed then d
  else
    let d1 := (upTo 64).foldl (fun x n => x.haltCore n) (d.setSysHalt true)
    (upTo 4).foldl (fun x q => x.raise q 0x040) { d1 with haltLeft := 0 }

/-- CAP_STAT STATE. -/
def Dev.capState (d : Dev) : Nat := getBits (d.reg (R.CAP_STAT.at 0)) 31 28

/-- Write STATE and RESULT of CAP_STAT. -/
def Dev.setCap (d : Dev) (st res : Nat) : Dev := d.setRegN (R.CAP_STAT.at 0) (st % 16 * 2 ^ 28 + res % 16 * 2 ^ 24)

/-- The mask of clusters of quarter `q` that are ON. -/
def Dev.onMask (d : Dev) (q : Nat) : Nat := ((upTo 16).filter (fun l => decide (d.domCur q l = 0))).foldl (fun m l => m + 2 ^ l) 0

/-- The capture is taken (R572): E, TICK and the ON masks are what its header tells. -/
def Dev.takeCapture (d : Dev) (k : Clk) : Dev :=
  if d.capState = 1 then
    { d.setCap 2 0 with capture := some ⟨k.dtime, k.tick, (upTo 4).map (fun q => d.onMask q), 0, none⟩ }
  else d

/-- The actions of trigger rule `r` (R571): HCORE, HSYS, CAP, EVT. -/
def Dev.fireRule (d : Dev) (k : Clk) (r : Nat) : Dev :=
  let act := d.reg (R.XT_ACT.at 0 r)
  let d1 := if act.getLsbD 0 then (onesOf (d.regN (R.XT_CMASK.at 0 r)) 64).foldl (fun x n => x.haltCore n) d else d
  let d2 := if act.getLsbD 1 then d1.haltSystem else d1
  let d3 := if act.getLsbD 2 then d2.takeCapture k else d2
  if act.getLsbD 3 then d3.raise 0 0x041 else d3

/-- The input of trigger rule `r`. -/
def Dev.xtSel (d : Dev) (r : Nat) : Nat := getBits (d.reg (R.XT_IN.at 0 r)) 2 0

/-- The rules with input `sel` whose further condition holds fire. -/
def Dev.fireInput (d : Dev) (k : Clk) (sel : Nat) (p : Nat → Bool) : Dev :=
  (upTo 4).foldl (fun x r => if d.xtSel r = sel ∧ p r = true then x.fireRule k r else x) d

end Sys2Proof.Machine
end

