-- ==== Sys2Proof/Machine/Cores.lean ====
section
/-! DEFINITION. Control cores (chapter 11): threads on cores, the instructions of Xbank, event entry and traps, the
floating-point exchange, core resets and home-bank handovers. -/

namespace Sys2Proof.Machine

/-! ### Taking a trap (R309, R312, R315, R316) -/

/-- Whether a core executes instructions: not while its store to DSP_CMD is held (10 R294). -/
def Core.executes (c : Core) : Bool := decide (c.st = .run) && (!c.halted || c.step) && !c.await

/-- One instruction of core `n`: nothing unless the core executes; a debug STEP ends with it (R569). -/
def Dev.instr (d : Dev) (n : Nat) (f : Dev → Dev) : Dev :=
  if (d.core n).executes then
    let d1 := f d
    if (d.core n).step then d1.setCore n { d1.core n with step := false } else d1
  else d

/-- The core wedges (R316): no instruction, no event entry, CORE_WEDGE recorded and raised. -/
def Dev.wedge (d : Dev) (n cause xcause pc : Nat) : Dev :=
  let x := coreReg n .CORE_WEDGE_LOG
  let d1 := if (d.reg x).getLsbD 63 then d
    else d.setRegN x (2 ^ 63 + cause % 64 * 2 ^ 57 + xcause % 256 * 2 ^ 49 + pc % 2 ^ 49)
  (d1.setCore n { d1.core n with st := .wedged }).raise (n / 16) (0x200 + n % 16 * 4)

/-- BASE of mtvec. -/
def Core.mtvecBase (c : Core) : Nat := (c.csrGet 0x305).toNat / 4 * 4

/-- The machine external interrupt vector of mtvec. -/
def Core.mtvecExt (c : Core) : Nat := if getBits (c.csrGet 0x305) 1 0 = 1 then c.mtvecBase + 44 else c.mtvecBase

/-- The stack pointer that XFLTSP reads (R314). -/
def Core.fltSp (c : Core) : Nat := 0x8007F000 + 16 * getBits (c.csrGet 0x7C2) 11 4

/-- An entry to bank 7 (R315), or a wedge where the own bank is not usable (R316). `epc` is the pc concerned. -/
def Dev.faultEntry (d : Dev) (n cause xcause tval epc : Nat) : Dev :=
  if !d.ownUsable n then d.wedge n cause xcause epc
  else
    let c := d.core n
    let idle := decide (c.st = .idle)
    let c1 := (c.setWord 7 2 (BitVec.ofNat 64 c.fltSp)).setTrap 3 ⟨epc, cause, tval, c.mie, c.modeM⟩
    let c2 := (c1.csrSet 0x7C7 (BitVec.ofNat 64 (xcause % 256))).setState 7 c.mtvecBase true false
    let d1 := d.setCore n { c2 with st := .run, cur := 7, level := 3, retf := if idle then 7 else c.cur, retlf := c.level }
    (d1.bump (coreReg n .CORE_FLT_CNT)).raise (n / 16) (0x200 + n % 16 * 4 + 1)

/-- A synchronous exception (R309, R316): a standard trap in a thread bank, bank 7 from an event bank, a wedge in
bank 7. -/
def Dev.trapCore (d : Dev) (n cause tval : Nat) : Dev :=
  let c := d.core n
  if c.level = 0 then
    d.setCore n ((c.setTrap 0 ⟨c.pc, cause, tval, c.mie, c.modeM⟩).setState c.cur c.mtvecBase true false)
  else if c.level = 3 then d.wedge n cause (getBits (c.csrGet 0x7C7) 7 0) c.pc
  else d.faultEntry n cause 4 tval c.pc

/-- An illegal-instruction exception: the RISC-V text leaves mtval open between 0 and the instruction, so it is a free
value. -/
def Dev.illegal (d : Dev) (n : Nat) : Dev :=
  let f := d.fresh
  f.2.trapCore n 2 f.1.toNat

/-- The PMP entry `i`: its configuration byte and its address register. -/
def Core.pmp (c : Core) (i : Nat) : Nat × Nat :=
  (getBits (c.csrGet (0x3A0 + i / 8 * 2)) (i % 8 * 8 + 7) (i % 8 * 8), (c.csrGet (0x3B0 + i)).toNat)

/-- The zeros below the first 1 of `v`'s complement: trailing ones of `v`, at least 9 at the granularity of 4 KiB. -/
def trailOnes (v : Nat) : Nat → Nat
  | 0 => 0
  | f + 1 => if v % 2 = 1 then 1 + trailOnes (v / 2) f else 0

/-- Whether PMP entry `i` matches the byte at address `a` (CORE-1: TOR and NAPOT, granularity 4 KiB). -/
def Core.pmpMatches (c : Core) (i a : Nat) : Bool :=
  let e := c.pmp i
  let mode := bitsOf e.1 4 3
  if mode = 1 then
    let lo := if i = 0 then 0 else (c.pmp (i - 1)).2 / 1024 * 4096
    decide (lo ≤ a) && decide (a < e.2 / 1024 * 4096)
  else if mode = 3 then
    let v := e.2 / 512 * 512 + 511
    let t := trailOnes v 54
    decide (a / 2 ^ (t + 3) = v / 2 ^ (t + 1))
  else false

/-- Whether a store by M-mode to the byte at `a` passes the PMP check: the first matching entry decides if locked. -/
def Core.pmpStoreM (c : Core) (a : Nat) : Bool :=
  match (upTo 16).find? (fun i => c.pmpMatches i a) with
  | some i => !bitAt (c.pmp i).1 7 || bitAt (c.pmp i).1 1
  | none => true

/-- Validation of an entry sp (R313). -/
def Core.spOk (c : Core) (n sp : Nat) : Bool :=
  let place (a : Nat) : Bool := match coreXlat n a with
    | some p => inOwn n p || isHbm p
    | none => false
  decide (sp % 16 = 0) && decide (256 ≤ sp) && place (sp - 256) && place (sp - 1)
    && c.pmpStoreM (sp - 256) && c.pmpStoreM (sp - 1)

/-- The event level an entry goes to, if any (R312). -/
def Core.entryLevel (c : Core) : Option Nat :=
  if c.level = 0 then some 1 else if c.level = 1 ∧ c.depth = 2 then some 2 else none

/-- The entry sp of an event level (CORE-4). -/
def Core.entrySp (c : Core) (l : Nat) : Nat :=
  if l = 1 then (c.csrGet 0x7C1).toNat else ((c.word 6 2).toNat + 2 ^ 64 - 512) % 2 ^ 64 / 16 * 16

/-- Whether a core takes an event entry now (R312): line, MIE, mie.MEIE, not in bank 7, not halted. -/
def Dev.entryDue (d : Dev) (n : Nat) : Bool :=
  let c := d.core n
  (decide (c.st = .run) || (decide (c.st = .idle) && c.managed)) && !c.halted && d.eventLine n && c.mie
    && (c.csrGet 0x304).getLsbD 11 && decide (c.level ≠ 3)

/-- EVENT_ENTRY (R312). -/
def xEventEntry (n : Nat) (d : Dev) : Dev :=
  if !d.entryDue n then d
  else
    let c := d.core n
    match c.entryLevel with
    | none =>
      let f := d.fresh
      f.2.faultEntry n 24 1 f.1.toNat c.pc
    | some l =>
      let sp := c.entrySp l
      if !c.spOk n sp then d.faultEntry n 24 2 sp c.pc
      else
        let b := if l = 1 then 6 else 5
        let c1 := (c.setWord b 2 (BitVec.ofNat 64 sp)).setTrap l ⟨c.pc, 2 ^ 63 + 11, 0, c.mie, c.modeM⟩
        d.setCore n { c1.setState b c.mtvecExt true false with
          st := .run, cur := b, level := l, ret1 := if l = 1 then (if c.st = .idle then 7 else c.cur) else c.ret1 }

/-- A pending event enters an event bank. -/
def execEventEntry (n : Nat) (s : State) : Host.Outcome State Fault Refusal := .next { s with d := xEventEntry n s.d }

/-- The return of MRET to bank `b` at level `l`; `b` = 7 means that the core was idle. -/
def Core.mretTo (c : Core) (b l : Nat) : Core :=
  let t := c.trap c.level
  let bank := if b = 7 then c.tbank else b
  let c1 := (c.setTrap c.level { t with mpie := true, mppM := false }).setState bank t.epc t.mppM t.mpie
  { c1 with cur := bank, level := l, st := if b = 7 then .idle else .run, fpFault := c.fpFault && decide (c.level ≠ 3) }

/-- MRET (R308, R312, R315): in a thread bank as the RISC-V specification prescribes, in an event or fault bank to the
bank and level that XBSTAT records. -/
def xMret (n : Nat) (d : Dev) : Dev :=
  d.instr n (fun x =>
    let c := x.core n
    if !c.modeM then x.illegal n
    else if c.level = 0 then x.setCore n (c.mretTo c.cur 0)
    else if c.level = 1 then x.setCore n (c.mretTo c.ret1 0)
    else if c.level = 2 then x.setCore n (c.mretTo 6 1)
    else x.setCore n (c.mretTo c.retf c.retlf))

/-- A return from a trap. -/
def execMret (n : Nat) (s : State) : Host.Outcome State Fault Refusal := .next { s with d := xMret n s.d }

/-! ### The bank window (R317) -/

/-- XBRD rd, i. -/
def xXbrd (n rd i : Nat) (d : Dev) : Dev :=
  d.instr n (fun x =>
    let c := x.core n
    if !c.modeM then x.illegal n
    else x.setCore n ((c.next 4).setX c.cur rd (c.read (getBits (c.csrGet 0x7C0) 2 0) i)))

/-- A register of the window is read. -/
def execXbrd (n rd i : Nat) (s : State) : Host.Outcome State Fault Refusal := .next { s with d := xXbrd n rd i s.d }

/-- A write of word `i` of bank `b`: index 0 of the current bank takes no write, reserved bits of a state word stay 0. -/
def Core.bankWrite (c : Core) (b i : Nat) (v : Word) : Core :=
  if i = 0 then (if b = c.cur then c else c.setWord b 0 (v &&& BitVec.ofNat 64 stateMask)) else c.setWord b i v

/-- XBWR rs1, i. -/
def xXbwr (n rs1 i : Nat) (d : Dev) : Dev :=
  d.instr n (fun x =>
    let c := x.core n
    if !c.modeM then x.illegal n
    else x.setCore n ((c.next 4).bankWrite (getBits (c.csrGet 0x7C0) 2 0) i (c.x rs1)))

/-- A register of the window is written. -/
def execXbwr (n rs1 i : Nat) (s : State) : Host.Outcome State Fault Refusal := .next { s with d := xXbwr n rs1 i s.d }

/-! ### Threads on cores (R287, R288, R310) -/

/-- Whether a core is free for the dispatcher. -/
def Core.free (c : Core) : Bool := c.managed && decide (c.st = .idle) && !c.halted

/-- Whether a thread is bound to a bank of a wedged core, which keeps it until its reset (R316). -/
def Dev.onWedged (d : Dev) (t : Nat) : Bool :=
  (coresOf (t / 2 ^ 18)).any (fun n => decide ((d.core n).st = .wedged) && ((d.core n).bankOfTask t).isSome)

/-- The READY threads of quarter `q` that may run, highest level first and oldest first within a level. -/
def Dev.threads (d : Dev) (q : Nat) : List (Nat × Task) :=
  let all := (d.slice q).ready.filterMap (fun t => match d.task t with
    | some x => if x.node ∨ d.onWedged t = true then none else some (t, x)
    | none => none)
  (upTo 32).reverse.flatMap (fun l => all.filter (fun e => decide (e.2.level = l)))

/-- The thread that core `n` receives (R287) and the reason of the choice: privileged, affinity, oldest. -/
def Dev.pick (d : Dev) (n : Nat) : Option (Nat × Task × Nat) :=
  let l := (d.threads (n / 16)).filter (fun e => e.2.coreMask.testBit (n % 16))
  match l with
  | [] => none
  | e :: _ =>
    let same := l.filter (fun y => decide (y.2.level = e.2.level))
    if 28 ≤ e.2.level then some (e.1, e.2, 0x07)
    else match same.find? (fun y => decide (y.2.lastCore = n % 16)) with
      | some y => some (y.1, y.2, 0x05)
      | none => some (e.1, e.2, 0x06)

/-- A thread whose spill or fill failed completes DEGRADED (R311). -/
def Dev.degraded (d : Dev) (now t : Nat) : Dev := d.complete now t 0x0C 0 0x0A 0x00

/-- Take thread `t` from bank `b` of core `m`: it is spilled and its bank freed. Whether the thread goes on. -/
def Dev.evict (d : Dev) (now m b : Nat) (x : Bound) : Dev × Bool :=
  let r := d.spill m b x.save
  let d1 := r.1.setCore m ((r.1.core m).bind b none)
  match d1.task x.task with
  | none => (d1, r.2)
  | some y =>
    if r.2 then ((d1.setTask x.task (some { y with bank := 0xFF })).tcbWrite x.task 0x67 1 0xFF, true)
    else (d1.degraded now x.task, false)

/-- Take a thread from the core other than `n` on which its bank is still bound (R310), and save the FP file that it
owns there (R321). -/
def Dev.fetchThread (d : Dev) (now n t : Nat) : Dev :=
  ((coresOf (n / 16)).filter (fun m => decide (m ≠ n))).foldl (fun x m =>
    let y := if (x.core m).owner = some t then x.fpRelease m else x
    match (y.core m).bankOfTask t with
    | none => y
    | some b => match (y.core m).boundAt b with
      | some bd => (y.evict now m b bd).1
      | none => y) d

/-- The thread banks that the dispatcher may bind (R288). -/
def Core.threadBanks (c : Core) : List Nat := upTo (if c.depth = 2 then 5 else 6)

/-- A bank of core `n` for a new binding (R288): a free one, which one is open; else that of the thread that ran least
recently, which is spilled. -/
def Dev.bankFor (d : Dev) (now n : Nat) : Dev × Option Nat :=
  let c := d.core n
  let freeBanks := c.threadBanks.filter (fun b => (c.boundAt b).isNone)
  if freeBanks ≠ [] then
    let f := d.fresh
    (f.2, some (freeBanks.getD (f.1.toNat % freeBanks.length) 0))
  else
    match (c.order ++ c.threadBanks).find? (fun b => c.threadBanks.contains b) with
    | none => (d, none)
    | some b =>
      match c.boundAt b with
      | none => (d, some b)
      | some bd =>
        let d1 := match d.task bd.task with
          | some y => d.trace now bd.task y ⟨0x06, n, 0, 0, b⟩
          | none => d
        ((d1.evict now n b bd).1, some b)

/-- The bank of a thread's first run (R310). -/
def Core.firstRun (c : Core) (b t : Nat) (tcb : List Byte) : Core :=
  let c0 := (upTo 32).foldl (fun x i => x.setWord b i 0) c
  (((c0.setState b (tcbField tcb 0x40 8) true true).setWord b 10 (BitVec.ofNat 64 (tcbField tcb 0x48 8))).setWord b 11
    (BitVec.ofNat 64 t)).setWord b 12 (BitVec.ofNat 64 (tcbField tcb 0x60 4))

/-- Thread `t` runs in bank `b` of core `n`: RUNNING, LAST_CORE and BANK written, a waiting XWAIT gets its result. -/
def Dev.startThread (d : Dev) (now n b t : Nat) (x : Task) (reason : Nat) : Dev :=
  let x1 := { x with st := .running, lastCore := n % 16, bank := b, began := true, rd := none }
  let d1 := ((d.unlist t).putTask t x1).tcbWrite t 0x66 2 (b * 256 + n % 16)
  let c := d1.core n
  let c1 := match x.rd with
    | some r => c.setX b r (BitVec.ofNat 64 x.why)
    | none => c
  let d2 := { d1 with runs := d1.runs + 1 }
  (d2.setCore n
    { c1 with st := .run, cur := b, level := 0, tbank := b, task := some t, stamp := d1.runs, order := (c1.order.filter (fun y => decide (y ≠ b))) ++ [b] }).trace now t x1 ⟨0x03, n, reason, 0, 0⟩

/-- Bind thread `t` to core `n` and run it (R288, R310). -/
def Dev.runThread (d : Dev) (now n t : Nat) (reason : Nat) : Dev :=
  let d1 := d.fetchThread now n t
  match d1.task t with
  | none => d1
  | some x =>
    match (d1.core n).bankOfTask t with
    | some b => d1.startThread now n b t x reason
    | none =>
      let r := d1.bankFor now n
      match r.2 with
      | none => r.1
      | some b =>
        let tcb := r.1.tcbRead t
        let bd : Bound := ⟨t, tcbField tcb.2 0x50 8, tcbField tcb.2 0x58 8⟩
        if !x.began then
          let d2 := tcb.1.setCore n (((tcb.1.core n).bind b (some bd)).firstRun b t tcb.2)
          d2.startThread now n b t x reason
        else
          let f := tcb.1.fill n b bd.save
          if f.2 then (f.1.setCore n ((f.1.core n).bind b (some bd))).startThread now n b t x reason
          else f.1.degraded now t

/-- RUN (R287): a free core receives the best allowed READY thread. -/
def xRun (n : Nat) (k : Clk) (d : Dev) : Dev :=
  if (d.core n).free && (d.reg (R.DSP_CTRL.at (n / 16))).getLsbD 0 && decide (d.domCur (n / 16) 16 = 0) then
    match d.pick n with
    | some e => d.runThread k.tick n e.1 e.2.2
    | none => d
  else d

/-- A core receives a thread. -/
def execRun (n : Nat) (s : State) : Host.Outcome State Fault Refusal := .next { s with d := s.d.unlessHalted (xRun n s.clk s.d) }

/-- Whether the thread that runs on core `n` may be preempted now (R308, R334, R565): else the preemption is deferred. -/
def Dev.preemptable (d : Dev) (n : Nat) : Bool :=
  let c := d.core n
  decide (c.st = .run) && decide (c.level = 0) && !c.halted && (c.mie || !c.modeM)

/-- The level of the thread that runs on core `n`, if it is below the privileged ones (R287). -/
def Dev.runLevel (d : Dev) (n : Nat) : Option Nat :=
  if (d.core n).st = .wedged then none
  else match (d.core n).task with
  | some t => match d.task t with
    | some x => if x.level < 28 then some x.level else none
    | none => none
  | none => none

/-- The core whose thread a privileged thread displaces: lowest level first, then the one that has run longest. -/
def Dev.victim (d : Dev) (q mask : Nat) : Option Nat :=
  ((coresOf q).filter (fun n => mask.testBit (n % 16))).foldl (fun (b : Option Nat) n =>
    match d.runLevel n with
    | none => b
    | some l => match b with
      | none => some n
      | some m =>
        let lm := (d.runLevel m).getD 0
        if l < lm ∨ (l = lm ∧ (d.core n).stamp < (d.core m).stamp) then some n else some m) none

/-- The preempted thread of core `n` returns to READY at the head of its level. -/
def Dev.displace (d : Dev) (now n t : Nat) : Dev :=
  let c := d.core n
  match c.task with
  | none => d
  | some v =>
    match d.task v with
    | none => d
    | some y =>
      let q := v / 2 ^ 18
      let y1 := { y with st := .ready }
      let d1 := (d.setCore n { c with st := .idle, task := none }).putTask v y1
      let d2 := d1.setSlice q { d1.slice q with ready := v :: (d1.slice q).ready }
      match d2.task t with
      | some x => (d2.trace now v y1 ⟨0x02, 0, 0, 0, 0⟩).trace now t x ⟨0x05, n, 0x07, 0, v⟩
      | none => d2

/-- PREEMPT (R287): the first READY privileged thread of quarter `q` that finds none of its cores free displaces one. While
the thread to be displaced may not be preempted the preemption waits, and displaces no other (CORE-10). -/
def xPreempt (q : Nat) (k : Clk) (d : Dev) : Dev :=
  let cands := (d.threads q).filter (fun e => decide (28 ≤ e.2.level)
    && (coresOf q).all (fun n => !(e.2.coreMask.testBit (n % 16) && (d.core n).free))
    && (match d.victim q e.2.coreMask with
      | some n => d.preemptable n
      | none => false))
  if !(d.reg (R.DSP_CTRL.at q)).getLsbD 0 then d
  else match cands with
  | [] => d
  | e :: _ => match d.victim q e.2.coreMask with
    | none => d
    | some n => (d.displace k.tick n e.1).runThread k.tick n e.1 0x07

/-- A privileged thread preempts. -/
def execPreempt (q : Nat) (s : State) : Host.Outcome State Fault Refusal := .next { s with d := s.d.unlessHalted (xPreempt q s.clk s.d) }

/-! ### Requests of a running thread (R283, R322–R324) -/

/-- The thread that runs in the current thread bank of core `n`, none where the request is illegal or has no thread. -/
def Dev.runner (d : Dev) (n : Nat) : Option (Nat × Task) :=
  let c := d.core n
  if c.level ≠ 0 then none
  else match c.task with
  | some t => (d.task t).map (fun x => (t, x))
  | none => none

/-- The instruction retires and its thread leaves the core, which is free (R283). -/
def Dev.leave (d : Dev) (n : Nat) : Dev :=
  d.setCore n { (d.core n).next 4 with st := .idle, task := none, stall := false }

/-- The instruction retires with `v` in rd. -/
def Dev.retire4 (d : Dev) (n rd v : Nat) : Dev :=
  let c := d.core n
  d.setCore n { (c.next 4).setX c.cur rd (BitVec.ofNat 64 v) with stall := false }

/-- The instruction does not retire until room exists; the holding is counted once (R294). -/
def Dev.holdInstr (d : Dev) (n : Nat) : Dev :=
  let c := d.core n
  if c.stall then d else (d.bump (R.DSP_BP_CNT.at (n / 16))).setCore n { c with stall := true }

/-- The thread yields: READY at the tail of its level, or it goes on where the ready list is full (R294). `rd` is what a
delay of 0 writes. -/
def Dev.yieldThread (d : Dev) (now n t : Nat) (x : Task) (rd : Option Nat) : Dev :=
  if d.readyRoom (t / 2 ^ 18) x.level then (d.leave n).toReady now t { x with rd := rd } 0x04
  else (d.bump (R.DSP_BP_CNT.at (n / 16))).retire4 n (rd.getD 0) 0

/-- An instruction that would hand the core over: a pending event entry comes first, and the instruction executes after its
MRET (CORE-10). -/
def Dev.lastInstr (d : Dev) (n : Nat) (f : Dev → Dev) : Dev :=
  d.instr n (fun x => if x.entryDue n then xEventEntry n x else f x)

/-- XYIELD. -/
def xXyield (n : Nat) (k : Clk) (d : Dev) : Dev :=
  d.lastInstr n (fun x => match x.runner n with
    | none => x.illegal n
    | some e => x.yieldThread k.tick n e.1 e.2 none)

/-- The thread yields. -/
def execXyield (n : Nat) (s : State) : Host.Outcome State Fault Refusal := .next { s with d := xXyield n s.clk s.d }

/-- The thread waits: WAITING, for an event or for its dependencies. -/
def Dev.waitThread (d : Dev) (now n t : Nat) (x : Task) (rd : Nat) (ev : Bool) : Dev :=
  let x1 := { x with st := .waiting, evwait := ev, rd := some rd }
  ((d.leave n).putTask t x1).trace now t x1 ⟨0x07, n, if ev then 0x02 else 0x01, 0, 0⟩

/-- PENDWAKE is set: it is cleared and the thread goes on with IMMEDIATE. -/
def Dev.takeWake (d : Dev) (n t : Nat) (x : Task) (rd : Nat) : Dev := (d.putTask t { x with pendwake := false }).retire4 n rd 0

/-- XWAIT, mode EVENT. -/
def xXwaitEvent (n rd : Nat) (k : Clk) (d : Dev) : Dev :=
  d.lastInstr n (fun x => match x.runner n with
    | none => x.illegal n
    | some e => if e.2.pendwake then x.takeWake n e.1 e.2 rd else x.waitThread k.tick n e.1 e.2 rd true)

/-- The thread waits for an event. -/
def execXwaitEvent (n rd : Nat) (s : State) : Host.Outcome State Fault Refusal :=
  .next { s with d := xXwaitEvent n rd s.clk s.d }

/-- XWAIT, mode DEP. -/
def xXwaitDep (n rd : Nat) (k : Clk) (d : Dev) : Dev :=
  d.lastInstr n (fun x => match x.runner n with
    | none => x.illegal n
    | some e => if e.2.depcnt = 0 then x.retire4 n rd 0 else x.waitThread k.tick n e.1 e.2 rd false)

/-- The thread waits for its dependencies. -/
def execXwaitDep (n rd : Nat) (s : State) : Host.Outcome State Fault Refusal :=
  .next { s with d := xXwaitDep n rd s.clk s.d }

/-- A delay of `t`'s thread by `dl` ticks: refused from 2^31 on, a yield for 0, held where the delay list is full. -/
def Dev.delayThread (d : Dev) (now n t : Nat) (x : Task) (rd dl : Nat) (ev : Bool) : Dev :=
  if 2 ^ 31 ≤ dl then d.retire4 n rd 4
  else if dl = 0 then d.yieldThread now n t { x with evwait := false } (some rd)
  else if !d.delayRoom (t / 2 ^ 18) then d.holdInstr n
  else
    let w := (now + dl) % 2 ^ 32
    ((d.leave n).tcbWrite t 0x08 4 w).toDelay now t { x with wake := w, evwait := ev, rd := some rd } n

/-- XWAIT, mode DELAY. -/
def xXwaitDelay (n rd rs1 : Nat) (k : Clk) (d : Dev) : Dev :=
  d.lastInstr n (fun x => match x.runner n with
    | none => x.illegal n
    | some e => x.delayThread k.tick n e.1 e.2 rd ((x.core n).x rs1).toNat false)

/-- The thread is delayed. -/
def execXwaitDelay (n rd rs1 : Nat) (s : State) : Host.Outcome State Fault Refusal :=
  .next { s with d := xXwaitDelay n rd rs1 s.clk s.d }

/-- XWAIT, mode EVENT_OR_DELAY. -/
def xXwaitEventOrDelay (n rd rs1 : Nat) (k : Clk) (d : Dev) : Dev :=
  d.lastInstr n (fun x => match x.runner n with
    | none => x.illegal n
    | some e =>
      if e.2.pendwake then x.takeWake n e.1 e.2 rd
      else x.delayThread k.tick n e.1 e.2 rd ((x.core n).x rs1).toNat true)

/-- The thread waits for an event or a delay. -/
def execXwaitEventOrDelay (n rd rs1 : Nat) (s : State) : Host.Outcome State Fault Refusal :=
  .next { s with d := xXwaitEventOrDelay n rd rs1 s.clk s.d }

/-- XDONE rs1, rs2: the thread completes; a core with no thread joins dispatch (R324). -/
def xXdone (n rs1 rs2 : Nat) (k : Clk) (d : Dev) : Dev :=
  d.lastInstr n (fun x =>
    let c := x.core n
    if c.level ≠ 0 then x.illegal n
    else match c.task with
    | none => x.setCore n { c with managed := true, st := .idle }
    | some t => x.complete k.tick t ((c.x rs1).toNat % 256) ((c.x rs2).toNat % 2 ^ 32) 0x0A 0x00)

/-- The thread completes. -/
def execXdone (n rs1 rs2 : Nat) (s : State) : Host.Outcome State Fault Refusal :=
  .next { s with d := xXdone n rs1 rs2 s.clk s.d }

/-- XSIG rd, rs1: SIGNAL as a command of this core; rd gets 0 or the REASON of the rejection (R323). A signal that would
release its task onto a full list is not answered, and XSIG does not retire, until room exists (DSP-6). -/
def xXsig (n rd rs1 : Nat) (k : Clk) (d : Dev) : Dev :=
  d.instr n (fun x =>
    let t := ((x.core n).x rs1).toNat % 2 ^ 20
    match x.sigReject t with
    | some reason => (x.dspErr (t / 2 ^ 18) 2 t reason n).retire4 n rd reason
    | none => if x.sigBlocked k.tick t then x.holdInstr n else (x.doSignal k.tick t 0 none).retire4 n rd 0)

/-- A signal is sent. -/
def execXsig (n rd rs1 : Nat) (s : State) : Host.Outcome State Fault Refusal :=
  .next { s with d := xXsig n rd rs1 s.clk s.d }

/-! ### Floating point (R318–R320) -/

/-- A failed exchange: bank 7 with FPSAVE_FAULT, or a wedge for the second before the first has returned. -/
def Dev.fpFail (d : Dev) (n area : Nat) : Dev :=
  let c := d.core n
  if c.fpFault then d.wedge n 24 3 c.pc
  else (d.setCore n { c with fpFault := true }).faultEntry n 24 3 area c.pc

/-- Load the FP file from the area of the thread in the current bank (R319, R320). -/
def Dev.fpLoad (d : Dev) (n t area : Nat) : Dev × Bool :=
  let bad (x : Dev) : Dev × Bool := (x.setCore n { x.core n with fp := [], owner := none, dirty := false }, false)
  match fpPlace n area with
  | none => bad d
  | some p =>
    let r := d.coreRead n p 264 2
    if r.2.code = .okay then
      (r.1.setCore n { r.1.core n with
        fp := (upTo 33).foldl (fun m i => nset 0 m i (BitVec.ofNat 64 (word64 r.2.data i))) [],
        owner := some t, dirty := false, fpArea := area }, true)
    else bad r.1

/-- The instruction itself, with FS on: the write it makes to the FP file, if any, makes the file Dirty. -/
def Core.fpDo (c : Core) (len : Nat) (w : Option (Nat × Nat)) : Core :=
  match w with
  | some p => { c.next len with fp := nset 0 c.fp p.1 (BitVec.ofNat 64 p.2), dirty := true }
  | none => c.next len

/-- The exchange: save the owner's file if it is Dirty, load the new thread's. Whether it succeeded. -/
def Dev.fpSwap (d : Dev) (n t area : Nat) : Dev × Bool :=
  let c := d.core n
  let d0 := d.bump (coreReg n .CORE_FPX_CNT)
  let s := if c.owner.isSome ∧ c.dirty = true then d0.fpSave n else (d0, true)
  if !s.2 then (s.1.fpFail n c.fpArea, false)
  else
    let l := s.1.fpLoad n t area
    if l.2 then l else (l.1.fpFail n area, false)

/-- The exchange, and the instruction. -/
def Dev.fpExchange (d : Dev) (n t area len : Nat) (w : Option (Nat × Nat)) : Dev :=
  let l := d.fpSwap n t area
  if l.2 then l.1.setCore n ((l.1.core n).fpDo len w) else l.1

/-- FP_EXCHANGE: an FP instruction of `len` bytes in the current bank, which writes `w` to the FP file, if anything. -/
def xFpExchange (n len : Nat) (w : Option (Nat × Nat)) (d : Dev) : Dev :=
  d.instr n (fun x =>
    let c := x.core n
    if c.level ≠ 0 then x.illegal n
    else match c.boundAt c.cur with
    | none => x.illegal n
    | some b =>
      if c.owner = some b.task then x.setCore n (c.fpDo len w)
      else if b.fp = 0 then x.illegal n
      else x.fpExchange n b.task b.fp len w)

/-- An FP instruction of a thread. -/
def execFpExchange (n len : Nat) (w : Option (Nat × Nat)) (s : State) : Host.Outcome State Fault Refusal :=
  .next { s with d := xFpExchange n len w s.d }

/-! ### Exceptions of instructions (R302–R305, R322, R330, R332) -/

/-- The exception code of a faulting access of each kind (1, 5, 7). -/
def accFault : AccKind → Nat
  | .fetch => 1
  | .load => 5
  | .store => 7
  | .amo => 7

/-- Whether device address `p` lies in the fault-bank stack area of core `n` (R314). -/
def inFltArea (n p : Nat) : Bool := decide (bankBase n + 0x7F000 ≤ p ∧ p < bankBase n + 0x80000)

/-- Whether the PMP lets core `n` make an access at core address `a`, device address `p` (CORE-1, R305): the first entry that
matches decides for U-mode, and for M-mode if it is locked; loads and stores of bank 7 to its stack area are exempt. -/
def Core.pmpOk (c : Core) (n a p : Nat) (k : AccKind) : Bool :=
  if c.level = 3 ∧ k ≠ .fetch ∧ inFltArea n p = true then true
  else match (upTo 16).find? (fun i => c.pmpMatches i a) with
  | some i =>
    let cfg := (c.pmp i).1
    (c.modeM && !bitAt cfg 7) || (match k with
      | .fetch => bitAt cfg 2
      | .load => bitAt cfg 0
      | .store => bitAt cfg 1
      | .amo => bitAt cfg 0 && bitAt cfg 1)
  | none => c.modeM

/-- The code of the exception that an access raises before it is made, if any: misaligned data, an address that CORE-2 leaves
out, the PMP, an AMO to what takes none, and the own bank while it is lent, molting or being cleared. A misaligned access
is told first (assumption 136). -/
def Dev.accBad (d : Dev) (n a size : Nat) (k : AccKind) : Option Nat :=
  if k ≠ .fetch ∧ a % size ≠ 0 then some (accFault k - 1)
  else match coreXlat n a with
  | none => some (accFault k)
  | some p =>
    if !(d.core n).pmpOk n a p k ∨ (k = .amo ∧ !(isBank p || isHbm p)) ∨ (inOwn n p = true ∧ !d.ownUsable n) then some (accFault k)
    else none

/-- The value that a load of `size` bytes writes. -/
def loadValue (size : Nat) (signed : Bool) (bs : List Byte) : Nat :=
  let v := leNat bs
  if signed ∧ v.testBit (8 * size - 1) = true then v + 2 ^ 64 - 2 ^ (8 * size) else v

/-- The instruction of `len` bytes retires with `v` in rd. -/
def Core.retire (c : Core) (len rd v : Nat) : Core := (c.next len).setX c.cur rd (BitVec.ofNat 64 v)

/-- A fetch, load, store or AMO of core `n` on its own home bank, port 0: an uncorrectable word, or a narrow store to a
poisoned one, raises the access fault of its kind (R332). -/
def Dev.ownAccess (d : Dev) (n len : Nat) (x : CoreAcc) (p : Nat) (e : HbmErr) : Dev :=
  let trap (y : Dev) : Dev := y.trapCore n (accFault x.kind) x.addr
  let done (y : Dev) (c : Core) : Dev := y.setCore n c
  match x.kind with
  | .fetch =>
    let r := d.bnkRead p x.size 0 e
    if r.2.code = .okay then r.1 else trap r.1
  | .load =>
    let r := d.bnkRead p x.size 0 e
    if r.2.code = .okay then done r.1 ((r.1.core n).retire len x.rd (loadValue x.size x.signed r.2.data)) else trap r.1
  | .store =>
    let r := d.bnkWrite p (leBytes x.value x.size) 0 []
    if r.2.code = .okay then done r.1 ((r.1.core n).next len) else trap r.1
  | .amo =>
    let r := d.bnkRead p x.size 0 e
    if r.2.code = .okay then
      let w := r.1.bnkWrite p (leBytes x.value x.size) 0 []
      done w.1 ((w.1.core n).retire len x.rd (loadValue x.size true r.2.data))
    else trap r.1

/-- An access of core `n`: it traps, or it is made on the own bank; any other address is reached by a NOC_REQUEST or a
HOME_BANK_ACCESS with the core's MID. -/
def Dev.coreAccess (d : Dev) (n len : Nat) (x : CoreAcc) (e : HbmErr) : Dev :=
  match d.accBad n x.addr x.size x.kind with
  | some cause => d.trapCore n cause x.addr
  | none =>
    match coreXlat n x.addr with
    | some p => if inOwn n p then d.ownAccess n len x p e else d
    | none => d

/-- WFI (CORE-1): illegal in U-mode with mstatus.TW = 1; it retires once the event line is pending. -/
def Dev.waitIrq (d : Dev) (n len : Nat) : Dev :=
  let c := d.core n
  if !c.modeM ∧ (c.csrGet 0x300).getLsbD 21 = true then d.illegal n
  else if d.eventLine n then d.setCore n (c.next len)
  else d

/-- An instruction of the custom-0 opcode (R322): the fields that CORE-7 marks 0 are checked. -/
def xCustom (n w : Nat) (k : Clk) (d : Dev) : Dev :=
  let rd := bitsOf w 11 7
  let rs1 := bitsOf w 19 15
  let rs2 := bitsOf w 24 20
  let bad := d.instr n (fun x => x.illegal n)
  if bitsOf w 6 0 ≠ 0x0B ∨ bitsOf w 31 25 ≠ 0 then bad
  else match bitsOf w 14 12 with
  | 0 => if rs1 = 0 then xXbrd n rd rs2 d else bad
  | 1 => if rd = 0 then xXbwr n rs1 rs2 d else bad
  | 2 => if rd = 0 ∧ rs1 = 0 ∧ rs2 = 0 then xXyield n k d else bad
  | 3 =>
    if rs2 / 4 ≠ 0 then bad
    else match rs2 with
    | 0 => xXwaitEvent n rd k d
    | 1 => xXwaitDep n rd k d
    | 2 => xXwaitDelay n rd rs1 k d
    | _ => xXwaitEventOrDelay n rd rs1 k d
  | 4 => if rd = 0 then xXdone n rs1 rs2 k d else bad
  | 5 => if rs2 = 0 then xXsig n rd rs1 k d else bad
  | _ => bad

/-- EXCEPTION_TRAP: what core `n` executes, an instruction of `len` bytes, and the exception that it raises. -/
def xExceptionTrap (n len : Nat) (x : CoreAct) (k : Clk) (d : Dev) : Dev :=
  match x with
  | .raise cause tval => d.instr n (fun y => y.trapCore n cause tval)
  | .access a e => d.instr n (fun y => y.coreAccess n len a e)
  | .custom w => xCustom n w k d
  | .leftOut => d.instr n (fun y => y.illegal n)
  | .wfi => d.instr n (fun y => y.waitIrq n len)

/-- An instruction that may raise an exception. -/
def execExceptionTrap (n len : Nat) (x : CoreAct) (s : State) : Host.Outcome State Fault Refusal :=
  .next { s with d := xExceptionTrap n len x s.clk s.d }

/-! ### EBREAK (21 R576), XEVDEPTH (R326) -/

/-- EBREAK: a halt where the core's DBG_EBHALT bit is set, else the breakpoint exception. -/
def xEbreak (n : Nat) (k : Clk) (d : Dev) : Dev :=
  if !(d.core n).executes then d
  else if (d.reg (R.DBG_EBHALT.at (n / 16))).getLsbD (n % 16) then (d.haltCore n).fireInput k 1 (fun _ => true)
  else d.instr n (fun x =>
    let f := x.fresh
    f.2.trapCore n 3 f.1.toNat)

/-- EBREAK executes. -/
def execEbreak (n : Nat) (s : State) : Host.Outcome State Fault Refusal := .next { s with d := xEbreak n s.clk s.d }

/-- The value that a write of `v` leaves in XEVDEPTH (CORE-9, CORE-10): unchanged in an event bank, for a value other
than 1 and 2, for 2 away from the thread level or while bank 5 holds a thread. -/
def Core.depthWrite (c : Core) (v : Nat) : Core :=
  if c.level = 1 ∨ c.level = 2 then c
  else if v % 4 = 1 then c.csrSet 0x7C5 1
  else if v % 4 = 2 ∧ c.level = 0 ∧ (c.boundAt 5).isNone = true then c.csrSet 0x7C5 2
  else c

/-! ### Core reset (R325, R297), home-bank handover (R330, R331) -/

/-- The threads of core `n` complete ABORTED. -/
def Dev.abortThreads (d : Dev) (now n : Nat) : Dev :=
  (upTo 6).foldl (fun x b => match (x.core n).boundAt b with
    | some t => x.complete now t.task 0x01 0 0x0A 0x0B
    | none => x) d

/-- A core enters reset: FP file saved, threads ended, banks and CSRs at reset, channels of the core cleared, BNK_OWNER
at the own core. -/
def Dev.coreReset (d : Dev) (now n : Nat) : Dev :=
  let d1 := ((d.fpRelease n).abortThreads now n).truncate (fun x => decide (x = n))
  let d2 := d1.setCore n Core.zero
  (d2.setRegN (coreReg n .BNK_OWNER) n).mbxClearFor (fun r => decide (r = n)) 2

/-- A core leaves reset unmanaged, in bank 0, M-mode, at CORE_RSTVEC (R324); not while its bank is cleared (R331).
While a boot runs CC0 of Q0 starts in the boot ROM, whose addresses the spec does not give (18 R507). -/
def Dev.coreRelease (d : Dev) (n : Nat) : Dev :=
  if (d.core n).st = .reset ∧ (d.reg (coreReg n .CORE_CTRL)).getLsbD 0 = false ∧ d.bnkMolting n = false ∧ d.safe = false then
    if n = 0 ∧ d.boot.on = true then
      d.fresh.2.setCore 0 { Core.zero.setState 0 d.fresh.1.toNat true false with st := .run }
    else d.setCore n { Core.zero.setState 0 (d.regN (coreReg n .CORE_RSTVEC)) true false with st := .run }
  else d

/-- CORE_CTRL is written. -/
def xCoreCtrl (m : Mst) (n v : Nat) (k : Clk) (d : Dev) : Dev :=
  let x := coreReg n .CORE_CTRL
  let d1 := d.setRegN x (v % 2)
  if !m.owner then d.denyOid m x
  else if v % 2 = 1 then
    (if (d.reg x).getLsbD 0 ∧ (d.core n).st = .reset then d1 else d1.coreReset k.tick n).okay
  else (d1.coreRelease n).okay

/-- A core is reset or released. -/
def execCoreCtrl (m : Mst) (n v : Nat) (s : State) : Host.Outcome State Fault Refusal :=
  .next { s with d := xCoreCtrl m n v s.clk s.d }

/-- BNK_OWNER is written: a change of MID is a handover (R330). -/
def xBnkOwner (m : Mst) (n v : Nat) (d : Dev) : Dev :=
  let x := coreReg n .BNK_OWNER
  let d1 := d.setRegN x (v &&& 0x20FFF)
  if !m.owner then d.denyOid m x
  else if v % 4096 = getBits (d.reg x) 11 0 then d1.okay
  else if (d.core n).st ≠ .reset ∨ d.bnkMolting n = true then d.refuse m x
  else (if v.testBit 16 then d1 else d1.setBit (coreReg n .BNK_STAT) 0 true).okay

/-- A home bank is handed over. -/
def execBnkOwner (m : Mst) (n v : Nat) (s : State) : Host.Outcome State Fault Refusal :=
  .next { s with d := xBnkOwner m n v s.d }

/-- HOME_BANK_CLEAR (R331): a molt or clear ends. -/
def xHomeBankClear (n : Nat) (d : Dev) : Dev :=
  if d.bnkMolting n then (((d.bnkZero n).setBit (coreReg n .BNK_STAT) 0 false)).coreRelease n else d

/-- A home bank is clear. -/
def execHomeBankClear (n : Nat) (s : State) : Host.Outcome State Fault Refusal := .next { s with d := xHomeBankClear n s.d }

end Sys2Proof.Machine
end

