-- ==== Sys2Proof/Machine/Crypto.lean ====
section
/-! DEFINITION. The published algorithms that the spec names for its signatures: the SHA-384 digest (FIPS 180-4) and the
verification of an ECDSA P-384 signature (FIPS 186-5, SEC 1), as 08 R227, 18 R501 and 21 R562 use them. -/

namespace Sys2Proof.Machine

/-! ### SHA-384 -/

/-- The constants of the rounds. -/
def shaK : List Nat :=
  [0x428A2F98D728AE22, 0x7137449123EF65CD, 0xB5C0FBCFEC4D3B2F, 0xE9B5DBA58189DBBC,
   0x3956C25BF348B538, 0x59F111F1B605D019, 0x923F82A4AF194F9B, 0xAB1C5ED5DA6D8118,
   0xD807AA98A3030242, 0x12835B0145706FBE, 0x243185BE4EE4B28C, 0x550C7DC3D5FFB4E2,
   0x72BE5D74F27B896F, 0x80DEB1FE3B1696B1, 0x9BDC06A725C71235, 0xC19BF174CF692694] ++
  [0xE49B69C19EF14AD2, 0xEFBE4786384F25E3, 0x0FC19DC68B8CD5B5, 0x240CA1CC77AC9C65,
   0x2DE92C6F592B0275, 0x4A7484AA6EA6E483, 0x5CB0A9DCBD41FBD4, 0x76F988DA831153B5,
   0x983E5152EE66DFAB, 0xA831C66D2DB43210, 0xB00327C898FB213F, 0xBF597FC7BEEF0EE4,
   0xC6E00BF33DA88FC2, 0xD5A79147930AA725, 0x06CA6351E003826F, 0x142929670A0E6E70] ++
  [0x27B70A8546D22FFC, 0x2E1B21385C26C926, 0x4D2C6DFC5AC42AED, 0x53380D139D95B3DF,
   0x650A73548BAF63DE, 0x766A0ABB3C77B2A8, 0x81C2C92E47EDAEE6, 0x92722C851482353B,
   0xA2BFE8A14CF10364, 0xA81A664BBC423001, 0xC24B8B70D0F89791, 0xC76C51A30654BE30,
   0xD192E819D6EF5218, 0xD69906245565A910, 0xF40E35855771202A, 0x106AA07032BBD1B8] ++
  [0x19A4C116B8D2D0C8, 0x1E376C085141AB53, 0x2748774CDF8EEB99, 0x34B0BCB5E19B48A8,
   0x391C0CB3C5C95A63, 0x4ED8AA4AE3418ACB, 0x5B9CCA4F7763E373, 0x682E6FF3D6B2B8A3,
   0x748F82EE5DEFB2FC, 0x78A5636F43172F60, 0x84C87814A1F0AB72, 0x8CC702081A6439EC,
   0x90BEFFFA23631E28, 0xA4506CEBDE82BDE9, 0xBEF9A3F7B2C67915, 0xC67178F2E372532B] ++
  [0xCA273ECEEA26619C, 0xD186B8C721C0C207, 0xEADA7DD6CDE0EB1E, 0xF57D4F7FEE6ED178,
   0x06F067AA72176FBA, 0x0A637DC5A2C898A6, 0x113F9804BEF90DAE, 0x1B710B35131C471B,
   0x28DB77F523047D84, 0x32CAAB7B40C72493, 0x3C9EBE0A15C9BEBC, 0x431D67C49C100D4C,
   0x4CC5D4BECB3E42B6, 0x597F299CFC657E2A, 0x5FCB6FAB3AD6FAEC, 0x6C44198C4A475817]

/-- The initial hash value of SHA-384. -/
def shaInit : List Nat :=
  [0xCBBB9D5DC1059ED8, 0x629A292A367CD507, 0x9159015A3070DD17, 0x152FECD8F70E5939,
   0x67332667FFC00B31, 0x8EB44A8768581511, 0xDB0C2E0D64F98FA7, 0x47B5481DBEFA4FA4]

/-- Rotate a 64-bit word right. -/
def rotr64 (x n : Nat) : Nat := x / 2 ^ n + x * 2 ^ (64 - n) % 2 ^ 64

/-- Bytes as a number, most significant first. -/
def beNat (l : List Byte) : Nat := l.foldl (fun v b => v * 256 + b.toNat) 0

/-- A number as `n` bytes, most significant first. -/
def beBytes (v n : Nat) : List Byte := (upTo n).map (fun i => BitVec.ofNat 8 (v / 256 ^ (n - 1 - i)))

/-- A message padded to whole blocks of 128 bytes. -/
def shaPad (m : List Byte) : List Byte :=
  m ++ [0x80] ++ List.replicate ((239 - m.length % 128) % 128) 0 ++ beBytes (8 * m.length) 16

/-- The 80 words of a block's schedule, newest first. -/
def shaSched : Nat → List Nat → List Nat
  | 0, w => w
  | n + 1, w =>
    let a := w.getD 1 0
    let b := w.getD 14 0
    let s1 := rotr64 a 19 ^^^ rotr64 a 61 ^^^ a / 2 ^ 6
    let s0 := rotr64 b 1 ^^^ rotr64 b 8 ^^^ b / 2 ^ 7
    shaSched n ((s1 + w.getD 6 0 + s0 + w.getD 15 0) % 2 ^ 64 :: w)

/-- One round on the working variables a to h. -/
def shaRound (v : List Nat) (kw : Nat × Nat) : List Nat :=
  let g (i : Nat) : Nat := v.getD i 0
  let e := g 4
  let a := g 0
  let s1 := rotr64 e 14 ^^^ rotr64 e 18 ^^^ rotr64 e 41
  let ch := (e &&& g 5) ^^^ ((2 ^ 64 - 1 - e) &&& g 6)
  let t1 := g 7 + s1 + ch + kw.1 + kw.2
  let s0 := rotr64 a 28 ^^^ rotr64 a 34 ^^^ rotr64 a 39
  let maj := (a &&& g 1) ^^^ (a &&& g 2) ^^^ (g 1 &&& g 2)
  [(t1 + s0 + maj) % 2 ^ 64, a, g 1, g 2, (g 3 + t1) % 2 ^ 64, e, g 5, g 6]

/-- One block. -/
def shaBlock (h : List Nat) (blk : List Byte) : List Nat :=
  let w0 := ((upTo 16).map (fun i => beNat ((blk.drop (8 * i)).take 8))).reverse
  let r := (shaK.zip (shaSched 64 w0).reverse).foldl shaRound h
  (h.zip r).map (fun x => (x.1 + x.2) % 2 ^ 64)

/-- The SHA-384 digest of a message: 48 bytes. -/
def sha384 (m : List Byte) : List Byte :=
  let p := shaPad m
  let h := (upTo (p.length / 128)).foldl (fun h i => shaBlock h ((p.drop (128 * i)).take 128)) shaInit
  (h.take 6).flatMap (fun x => beBytes x 8)

/-! ### ECDSA P-384 -/

/-- The prime of the field. -/
def p384 : Nat := 2 ^ 384 - 2 ^ 128 - 2 ^ 96 + 2 ^ 32 - 1
/-- The order of the base point. -/
def p384n : Nat :=
  0xFFFFFFFFFFFFFFFFFFFFFFFFFFFFFFFFFFFFFFFFFFFFFFFFC7634D81F4372DDF581A0DB248B0A77AECEC196ACCC52973
/-- The coefficient b of the curve y² = x³ − 3x + b. -/
def p384b : Nat :=
  0xB3312FA7E23EE7E4988E056BE3F82D19181D9C6EFE8141120314088F5013875AC656398D8A2ED19D2A85C8EDD3EC2AEF
/-- The base point. -/
def p384G : Nat × Nat :=
  (0xAA87CA22BE8B05378EB1C71EF320AD746E1D3B628BA79B9859F741E082542A385502F25DBF55296C3A545E3872760AB7,
   0x3617DE4A96262C6F5D9E98BF9292DC29F8F41DBD289A147CE9DA3113B5F0B8C00A60B1CE1D7E819D7A431D7C90EA0E5F)

/-- `b` to the power `e` modulo `m`, for an exponent of at most `fuel` bits. -/
def powMod (m : Nat) : Nat → Nat → Nat → Nat
  | 0, _, _ => 1 % m
  | fuel + 1, b, e =>
    let r := powMod m fuel (b * b % m) (e / 2)
    if e % 2 = 1 then b * r % m else r

/-- The inverse modulo a prime `m` of at most 384 bits. -/
def invMod (m x : Nat) : Nat := powMod m 384 (x % m) (m - 2)

/-- The difference of two residues modulo the prime of the field. -/
def fpSub (a b : Nat) : Nat := (a + p384 - b % p384) % p384

/-- A point of the curve as (x / z², y / z³); z = 0 is the point at infinity. -/
structure EcPt where
  x : Nat
  y : Nat
  z : Nat
  deriving DecidableEq, Repr

/-- Twice a point. -/
def ecDouble (a : EcPt) : EcPt :=
  let d := a.z * a.z % p384
  let g := a.y * a.y % p384
  let b := a.x * g % p384
  let m := 3 * fpSub a.x d * (a.x + d) % p384
  let x := fpSub (m * m % p384) (8 * b)
  ⟨x, fpSub (m * fpSub (4 * b % p384) x % p384) (8 * g * g), 2 * a.y * a.z % p384⟩

/-- The sum of two points. -/
def ecAdd (a b : EcPt) : EcPt :=
  if a.z = 0 then b
  else if b.z = 0 then a
  else
    let u := a.x * b.z * b.z % p384
    let s := a.y * b.z * b.z * b.z % p384
    let h := fpSub (b.x * a.z * a.z % p384) u
    let r := fpSub (b.y * a.z * a.z * a.z % p384) s
    if h = 0 then (if r = 0 then ecDouble a else ⟨1, 1, 0⟩)
    else
      let h2 := h * h % p384
      let h3 := h * h2 % p384
      let x := fpSub (r * r % p384) (h3 + 2 * u * h2)
      ⟨x, fpSub (r * fpSub (u * h2 % p384) x % p384) (s * h3), h * a.z * b.z % p384⟩

/-- `k` times a point, for `k` of at most `fuel` bits. -/
def ecMul : Nat → Nat → EcPt → EcPt
  | 0, _, _ => ⟨1, 1, 0⟩
  | fuel + 1, k, a =>
    let t := ecDouble (ecMul fuel (k / 2) a)
    if k % 2 = 1 then ecAdd t a else t

/-- Whether (r, s) is a signature of a message with digest `e` under the key at point (x, y). -/
def ecdsaOk (x y r s e : Nat) : Bool :=
  let w := invMod p384n s
  decide (x < p384) && decide (y < p384) && decide (y * y % p384 = (x * x * x + (p384 - 3) * x + p384b) % p384)
    && decide (0 < r ∧ r < p384n) && decide (0 < s ∧ s < p384n)
    && (let q := ecAdd (ecMul 384 (e * w % p384n) ⟨p384G.1, p384G.2, 1⟩) (ecMul 384 (r * w % p384n) ⟨x, y, 1⟩)
        decide (q.z ≠ 0) && decide (q.x * invMod p384 (q.z * q.z) % p384 % p384n = r))

/-- A signature block in the layout of IMG-7 (08 R227): the key's hash is `khash`, and it signs `msg`. -/
def sigBlockOk (blk : List Byte) (khash msg : List Byte) : Bool :=
  let at' (o n : Nat) : Nat := beNat ((blk.drop o).take n)
  decide (sha384 (blk.take 97) = khash) && decide (at' 0 1 = 4)
    && ecdsaOk (at' 1 48) (at' 49 48) (at' 100 48) (at' 148 48) (beNat (sha384 msg))

end Sys2Proof.Machine
end

