-- ==== Sys2Proof/Machine/Stream.lean ====
section
/-! DEFINITION. Stream engines (chapter 09 R266–R273; rows JATTR, JOB_START, ELEMENT_MOVE, CHAIN_FORMED, JOB_END,
SEN_CTRL), and the functions of a host as other units see them (13 R363–R366). -/

namespace Sys2Proof.Machine

/-! ### Functions (13 R363, R365, R366) -/

/-- A function's record. -/
def Dev.fn (d : Dev) (oid : Nat) : Fn := nget Fn.zero d.fns oid

/-- Write a function's record. -/
def Dev.setFn (d : Dev) (oid : Nat) (f : Fn) : Dev := { d with fns := nset Fn.zero d.fns oid f }

/-- A register of the page of global link `L` (R358). -/
def linkReg (L : Nat) (r : R) : RKey := r.at (L / 8) (L % 8)

/-- Whether the link has EN = 1. -/
def Dev.linkEn (d : Dev) (L : Nat) : Bool := (d.reg (linkReg L .HIF_LCTRL)).getLsbD 0

/-- Whether the VF range of a link holds an OID. -/
def Dev.vfOf (d : Dev) (L oid : Nat) : Bool :=
  let b := getBits (d.reg (linkReg L .HIF_VFBASE)) 10 0
  let n := getBits (d.reg (linkReg L .HIF_VFCFG)) 8 0
  d.linkEn L && decide (b ≤ oid) && decide (oid < b + n)

/-- The link that presents the function of an OID: its PF's link has that number, a VF lies in the link's range. -/
def Dev.linkOf (d : Dev) (oid : Nat) : Option Nat :=
  if oid < 32 then (if d.linkEn oid then some oid else none) else (upTo 32).find? (fun L => d.vfOf L oid)

/-- Whether the device configuration is not loaded yet (13 R370). -/
def Dev.notConfigured (d : Dev) : Bool := decide (d.fld F.AO_STATUS_CONF 0 = 0) && !d.boot.loaded

/-- STATE of a link (HOST-5); NOCONF under CONF_ERR or before the configuration is loaded (R370, R372). -/
def Dev.linkState (d : Dev) (L : Nat) : Nat :=
  if d.confFailed || d.safe || d.notConfigured then 6 else getBits (d.reg (linkReg L .HIF_LSTAT)) 31 28

/-- Whether a function can issue requests (R363). -/
def Dev.fnIssues (d : Dev) (oid : Nat) : Bool :=
  let f := d.fn oid
  match d.linkOf oid with
  | none => false
  | some L => f.bme && !f.d3 && !f.reset && d.linkState L == 3

/-! ### Engines -/

/-- A register of the page of the engine of global port `vp` (R266). -/
def senReg (vp : Nat) (r : R) (j : Nat := 0) : RKey := r.at (quarterOf (vp / 16)) (localOf (vp / 16) * 16 + vp % 16) j

/-- An engine's record. -/
def Dev.engine (d : Dev) (vp : Nat) : Sen := nget Sen.zero d.sen vp

/-- Write an engine's record; CUR shows the job slot that runs or runs next. -/
def Dev.setEngine (d : Dev) (vp : Nat) (s : Sen) : Dev :=
  let d1 := { d with sen := nset Sen.zero d.sen vp s }
  let cur := match s.run with
    | some r => r.j
    | none => s.queue.headD 0
  d1.setReg (senReg vp .SEN_STAT) (putBits (d1.reg (senReg vp .SEN_STAT)) 0 0 cur)

/-- Set STATE of an engine: 0 IDLE, 1 RUN, 2 WAIT, 3 STOPPING. -/
def Dev.engState (d : Dev) (vp st : Nat) : Dev :=
  d.setReg (senReg vp .SEN_STAT) (putBits (d.reg (senReg vp .SEN_STAT)) 31 28 st)

/-- JATTR of a job slot. -/
def Dev.jattr (d : Dev) (vp j : Nat) : Word := d.reg (senReg vp .JATTR j)

/-- Set VALID of a job slot; VALIDJ of SEN_STAT shows it. -/
def Dev.setJValid (d : Dev) (vp j : Nat) (v : Bool) : Dev :=
  (d.setBit (senReg vp .JATTR j) 31 v).setBit (senReg vp .SEN_STAT) (8 + j) v

/-- The MID of an engine (MEM-2). -/
def senMid (vp : Nat) : Nat := 0x40 + vp

/-- Whether a port is bound, and as an output. -/
def Dev.vpBound (d : Dev) (vp : Nat) : Bool := (d.vpCfg vp).getLsbD 63
/-- A port bound as an output. -/
def Dev.vpOut (d : Dev) (vp : Nat) : Bool := (d.vpCfg vp).getLsbD 63 && (d.vpCfg vp).getLsbD 62

/-! ### The end of a job (R267–R269, R272) -/

/-- A job leaves its slot: VALID clears, a fence of a job that ran ends with it, JDONE holds the bytes moved, the command takes
note. JDONE has 32 bits; a
larger count is not stated, so it is a free value. -/
def Dev.closeJob (d : Dev) (vp j total code : Nat) : Dev :=
  let e := d.engine vp
  let run := match e.run with
    | some r => if r.j = j then none else some r
    | none => none
  let d1 := d.setEngine vp { queue := e.queue.filter (fun x => decide (x ≠ j)), run := run }
  let d2 := if total < 2 ^ 32 then d1.setRegN (senReg vp .JDONE j) total
    else d1.fresh.2.setRegN (senReg vp .JDONE j) (d1.fresh.1.toNat % 2 ^ 32)
  let d3 := if run = none then { d2 with fences := nset false d2.fences (senMid vp) false }.engState vp 0 else d2
  (d3.setJValid vp j false).jobNote vp j code

/-- Job slot `j` of an engine ends ABORTED, running or queued (R273). -/
def Dev.abortJob (d : Dev) (vp j : Nat) : Dev :=
  if !(d.jattr vp j).getLsbD 31 then d
  else
    let total := match (d.engine vp).run with
      | some r => if r.j = j then r.total else 0
      | none => 0
    d.closeJob vp j total 8

/-- An engine stops: its jobs end ABORTED (R273). -/
def Dev.stopEngine (d : Dev) (vp : Nat) : Dev := (d.abortJob vp 0).abortJob vp 1

/-- Drop the last `n` elements of a list. -/
def dropEnd {α : Type} (l : List α) (n : Nat) : List α := l.take (l.length - n)

/-- Discard the last `n` elements committed to a port's FIFO: behind the stage first, then in transit, then staged. -/
def Dev.discardTail (d : Dev) (vp n : Nat) : Dev :=
  let l := d.fifo vp
  let t := d.vpTile vp
  let p := d.tport t.1 t.2
  let n1 := n - l.length
  let n2 := n1 - p.transit.length
  (d.setFifo vp (dropEnd l n)).setTport t.1 t.2 { p with transit := dropEnd p.transit n1, head := dropEnd p.head n2 }

/-- Whether the frame of a NODE has been admitted. -/
def Dev.nodeAdmitted (d : Dev) (t : Nat) (x : Task) : Bool := decide (x.st = .running) && !d.handedOnly t x

/-- The elements that a failing job committed are discarded, and the other jobs of its command end ABORTED. -/
def Dev.dropJobs (d : Dev) (vp j moved k : Nat) : Dev :=
  let d1 := if (d.vpCfg vp).getLsbD 62 then d else d.discardTail vp (moved / 8)
  let others : List JobRef := match d1.cmd k with
    | some c => c.jobs.filter (fun r => decide (r.code = none) && !r.isOpen vp j)
    | none => []
  others.foldl (fun y r => y.abortJob r.vp r.j) d1

/-- A NODE whose frame has not been admitted is withdrawn and completes with a status. -/
def Dev.nodeFail (d : Dev) (now t status : Nat) : Dev :=
  match d.task t with
  | none => d
  | some x =>
    if d.nodeAdmitted t x then d
    else if d.handedOnly t x then d.withdraw now t status 0x09
    else d.complete now t status 0 0x0A 0x09

/-- What a job error does to the command it served (R272): an unadmitted NODE is withdrawn, the other jobs end ABORTED,
the elements that the job committed are discarded. Of a command whose tasks are still to be submitted no further job is
queued, and its NODE is withdrawn when they are. -/
def Dev.jobWithdraw (d : Dev) (now vp j moved code k : Nat) : Dev :=
  let t := d.chainTask k 1
  match d.cmd k with
  | none => d
  | some c =>
    if c.submitted then
      match d.task t with
      | none => d
      | some x => if d.nodeAdmitted t x then d else (d.dropJobs vp j moved k).nodeFail now t (memStatus code)
    else (d.setCmd k (some { c with todo := [] })).dropJobs vp j moved k

/-- A job ends with error (R272): logged, SEN_ERR raised, LASTERR set, the other queued job ABORTED. -/
def Dev.jobError (d : Dev) (now vp code addr : Nat) : Dev :=
  match (d.engine vp).run with
  | none => d
  | some r =>
    let rcd := r.j % 2 * 2 ^ 61 + code % 16 * 2 ^ 56 + addr % 2 ^ 48
    let d1 := (d.logFirst (senReg vp .SEN_ERRLOG) rcd).raise (quarterOf (vp / 16)) (0x100 + localOf (vp / 16) * 16 + vp % 16)
    let d2 := d1.setReg (senReg vp .SEN_STAT) (putBits (d1.reg (senReg vp .SEN_STAT)) 27 24 code)
    let k := d2.jobCmd vp r.j
    let d3 := match k with
      | some key => d2.jobWithdraw now vp r.j r.total code key
      | none => d2
    (d3.closeJob vp r.j r.total code).abortJob vp (1 - r.j)

/-! ### JATTR, JOB_START -/

/-- JATTR is written: with VALID it queues the job; a write to an occupied job slot is refused (R267, R275). -/
def xJattr (m : Mst) (vp j v : Nat) (d : Dev) : Dev :=
  let x := senReg vp .JATTR j
  if !m.owner then d.denyOid m x
  else if (d.reg x).getLsbD 31 then d.refuse m x
  else
    let d1 := d.setRegN x (v &&& 0xFF3FFC00)
    if v.testBit 31 then
      let e := d1.engine vp
      let d2 := (d1.setJValid vp j true).setEngine vp { e with queue := e.queue ++ [j] }
      (if d2.vpBound vp then d2 else d2.engState vp 2).okay
    else d1.okay

/-- JATTR is written. -/
def execJattr (m : Mst) (vp j v : Nat) (s : State) : Host.Outcome State Fault Refusal :=
  .next { s with d := xJattr m vp j v s.d }

/-- The quarter and local index of media channel `m` (15 R415). -/
def mediaPlace (m : Nat) : Nat × Nat := if m < 64 then (m / 16, m % 16) else ((m - 64) / 128, 16 + (m - 64) % 128)

/-- Bytes of the buffer of media channel `m` (15 R421). -/
def chbufSize (m : Nat) : Nat := if m < 64 then 0x40000 else 0x20000

/-- The cause ALIGN of a job's own fields (MEM-6, R267, R421). -/
def jobMisaligned (addr len attr : Nat) : Bool :=
  let kind := bitsOf attr 26 24
  decide (len % 8 ≠ 0 ∨ len = 0) || decide (4 ≤ kind) || (decide (kind < 2) && decide (addr % 8 ≠ 0))
    || (decide (kind = 2) && (decide (addr % 8 ≠ 0) || decide (575 < bitsOf addr 57 48)
      || decide (chbufSize (bitsOf addr 57 48) < bitsOf addr 17 0 + len)))

/-- Whether a scatter list as the engine reads it obeys QUE-6 (14 R392): elements as address, length, flags. -/
def sglOk (l : List (Nat × Nat × Nat)) (len : Nat) : Bool :=
  let data := l.filter (fun e => !e.2.2.testBit 1)
  decide (data.length ≤ 1024) && decide (l.length - data.length ≤ 1024)
    && data.all (fun e => decide (e.2.1 ≠ 0 ∧ e.2.1 % 8 = 0 ∧ e.1 % 8 = 0))
    && decide (data.foldl (fun s e => s + e.2.1) 0 = len)
    && (match l.reverse with
      | e :: r => e.2.2.testBit 0 && !e.2.2.testBit 1 && r.all (fun x => x.2.2.testBit 1 || !x.2.2.testBit 0)
      | [] => false)

/-- The MEM-6 code of a failed host request; 0 where it did not fail (13 R362, R363). -/
def hostCode (issues : Bool) (a : HostAns) : Nat :=
  if !issues then 5
  else match a with
    | .timeout => 4
    | .poison => 3
    | .error => 5
    | _ => 0

/-- JOB_START (R267, R268): the oldest queued job runs once the engine is enabled and its port is bound; a job whose
fields or scatter list break their rules ends at once. -/
def xJobStart (vp : Nat) (sgl : List (Nat × Nat × Nat)) (ans : HostAns) (k : Clk) (d : Dev) : Dev :=
  let e := d.engine vp
  match e.run, e.queue with
  | none, j :: r =>
    if !(d.reg (senReg vp .SEN_CTRL)).getLsbD 0 then d
    else if !d.vpBound vp then d.engState vp 2
    else
      let attr := (d.jattr vp j).toNat
      let addr := d.regN (senReg vp .JADDR j)
      let len := d.regN (senReg vp .JLEN j)
      let kind := bitsOf attr 26 24
      let segs := if kind = 1 ∧ attr.testBit 10 = true
        then (sgl.filter (fun x => !x.2.2.testBit 1)).map (fun x => (x.1, x.2.1)) else [(addr, len)]
      let d1 := (d.setEngine vp { queue := r, run := some ⟨j, 0, 0, segs, false⟩ }).engState vp (if kind = 3 then 2 else 1)
      if jobMisaligned addr len attr then d1.jobError k.tick vp 6 addr
      else if kind = 1 ∧ attr.testBit 10 = true then
        let c := hostCode (d1.fnIssues (bitsOf attr 21 11)) ans
        if c ≠ 0 then d1.jobError k.tick vp c addr
        else if sglOk sgl len then d1 else d1.jobError k.tick vp 6 addr
      else d1
  | _, _ => d

/-- A queued job starts. -/
def execJobStart (vp : Nat) (sgl : List (Nat × Nat × Nat)) (ans : HostAns) (s : State) :
    Host.Outcome State Fault Refusal :=
  .next { s with d := s.d.unlessHalted (xJobStart vp sgl ans s.clk s.d) }

/-! ### ELEMENT_MOVE -/

/-- The host address of byte `off` of a job's pieces. -/
def segAddr : List (Nat × Nat) → Nat → Nat
  | [], off => off
  | (a, n) :: r, off => if off < n then a + off else segAddr r (off - n)

/-- Whether an HBM request of a master gets to its home quarter and stack (R22, R261). -/
def Dev.hbmReached (d : Dev) (mid a : Nat) : Bool :=
  d.routeOk (d.midQuarter mid) (homeOf a) && decide (d.domCur (homeOf a) (17 + stackOf a) ≠ 2)

/-- A MEM-6 code for a response of an HBM request (R272). -/
def Dev.hbmCode (d : Dev) (mid oid a : Nat) (write : Bool) (c : RespCode) : Nat :=
  match c with
  | .okay => 0
  | .collided => 9
  | .decerr => 2
  | .slverr =>
    if !d.hbmReached mid a then 9 else if !d.winOk oid a write then 1 else if !write && d.unitBad a then 3 else 9

/-- Whether a read of memory other than HBM that its target answered SLVERR met data that cannot be corrected. -/
def Dev.memBad (d : Dev) (m : Mst) (a : Nat) (e : HbmErr) : Bool :=
  let r : Access := ⟨m, a, 8, false, 0⟩
  if isBank a then
    d.routeOk (d.midQuarter m.mid) (bankOf a / 16) && d.bnkAccepts (bankOf a) r && !d.bnkMolting (bankOf a) && d.bnkBad (a / 8 * 8)
  else if isTmem a then d.tmemOk r && (nget Ecc.ok d.ecc (a / 8 * 8)).bad.isSome
  else isFlash a && m.owner && d.routeOk (d.midQuarter m.mid) (flashQuarter a) && !d.underErase a && decide (e = .ue)

/-- The MEM-6 code of a response at a device address (R272). -/
def Dev.devCode (d : Dev) (m : Mst) (a : Nat) (write : Bool) (e : HbmErr) (c : RespCode) : Nat :=
  if isHbm a then d.hbmCode m.mid m.oid a write c
  else match c with
    | .okay => 0
    | .decerr => 2
    | .collided => 9
    | .slverr => if !write && d.memBad m a e then 3 else 9

/-- One element of a KIND 0 job at its device address: HBM through the stream cache, or a home bank that is lent to the
engine (11 R328, R329), whose port 0 may write the same word in the same bcyc. -/
def Dev.senAcc (d : Dev) (k : Clk) (a : Access) (noalloc : Bool) (e : HbmErr) (port0 : Option Word) : Dev × Ans :=
  if isHbm a.addr then d.hbm a noalloc e
  else if isBank a.addr then
    d.bnkReq a (match port0 with
      | some w => [(a.addr % 0x80000 / 8, w.toNat)]
      | none => []) e
  else d.memAcc k a e

/-- An element of a channel buffer. -/
def Dev.chbufWord (d : Dev) (a : Nat) : Nat → Nat
  | 0 => 0
  | n + 1 => (nget (0 : Byte) d.chbuf a).toNat + 256 * d.chbufWord (a + 1) n

/-- Write bytes of a channel buffer, by media channel·256 KiB + offset. -/
def Dev.setChbuf (d : Dev) (a : Nat) : List Byte → Dev
  | [] => d
  | b :: bs => ({ d with chbuf := nset (0 : Byte) d.chbuf a b }).setChbuf (a + 1) bs

/-- The AER record of a host request that ends badly at the requester (13 R362): a completion timeout, or a poisoned
completion. -/
def Dev.hostErr (d : Dev) (oid : Nat) (ans : HostAns) (issued : Bool) : Dev :=
  match d.linkOf oid, ans with
  | some L, .timeout => if issued then d.fnError L oid 14 else d
  | some L, .poison => if issued then d.fnError L oid 12 else d
  | _, _ => d

/-- Fetch one element of an input job: its MEM-6 code, 0 if none, the word, and the records made. `wired`: the request to the
host is on the wire already, and its completion counts whatever the function may issue now (13 R375, HOST-7). An element is 8
bytes, within every MRRS and MPS (13 R362). -/
def Dev.fetchEl (d : Dev) (vp j : Nat) (r : SenRun) (ans : HostAns) (e : HbmErr) (port0 : Option Word) (wired : Bool)
    (k : Clk) : Nat × Word × Dev × Nat :=
  let attr := (d.jattr vp j).toNat
  let oid := bitsOf attr 21 11
  let base := d.regN (senReg vp .JADDR j)
  match bitsOf attr 26 24 with
  | 0 =>
    let a := base % 2 ^ 48 + r.moved
    let x := d.senAcc k (rdReq (senMid vp) oid a 8) (attr.testBit 28) e port0
    (x.1.devCode ⟨senMid vp, oid, false⟩ a false e x.2.code, BitVec.ofNat 64 (leNat x.2.data), x.1, a)
  | 1 =>
    let v := match ans with
      | .data w => w
      | _ => 0
    let a := segAddr r.segs r.moved
    let d1 := if !wired && d.fnIssues oid then d.send (.hostRead oid a 8) else d
    (hostCode (wired || d.fnIssues oid) ans, BitVec.ofNat 64 v, d1.hostErr oid ans (wired || d.fnIssues oid), a)
  | _ =>
    let m := bitsOf base 57 48
    let x := mediaPlace m
    let v := BitVec.ofNat 64 (d.chbufWord (m * 0x40000 + bitsOf base 17 0 + r.moved) 8)
    match e with
    | .ce => (0, v, d.bump (R.MSQ_CHBCE.at x.1 x.2), base + r.moved)
    | .ue => (3, 0, d, base + r.moved)
    | _ => (0, v, d, base + r.moved)

/-- Send one element of an output job to its sink: its MEM-6 code, the state, and the address. -/
def Dev.sinkEl (d : Dev) (vp j : Nat) (r : SenRun) (w : Word) (ans : HostAns) (e : HbmErr) (collide : Option Word) (k : Clk) :
    Nat × Dev × Nat :=
  let attr := (d.jattr vp j).toNat
  let oid := bitsOf attr 21 11
  let base := d.regN (senReg vp .JADDR j)
  match bitsOf attr 26 24 with
  | 0 =>
    let a := base % 2 ^ 48 + r.moved
    let x := d.senAcc k (wrReq (senMid vp) oid a 8 w.toNat) (attr.testBit 28) e collide
    (d.devCode ⟨senMid vp, oid, false⟩ a true e x.2.code, x.1, a)
  | 1 =>
    let a := segAddr r.segs r.moved
    let c := hostCode (d.fnIssues oid) ans
    (c, if c = 0 then d.send (.hostWrite oid a (leBytes w.toNat 8)) else d, a)
  | _ =>
    let m := bitsOf base 57 48
    let x := mediaPlace m
    if collide.isSome then (9, d.bump (R.MSQ_CHBCCNT.at x.1 x.2), base + r.moved)
    else (0, d.setChbuf (m * 0x40000 + bitsOf base 17 0 + r.moved) (leBytes w.toNat 8), base + r.moved)

/-- A running job has moved one more element; a RING job starts over at JLEN; the last element of a FENCE job starts
the fence. -/
def Dev.advance (d : Dev) (vp : Nat) (r : SenRun) : Dev :=
  let e := d.engine vp
  let len := d.regN (senReg vp .JLEN r.j)
  let attr := d.jattr vp r.j
  let n := r.moved + 8
  let d1 := d.setEngine vp { e with run := some { r with moved := if attr.getLsbD 29 ∧ len ≤ n then 0 else n, total := r.total + 8 } }
  if n = len ∧ attr.getLsbD 27 = true then { d1 with fences := nset false d1.fences (senMid vp) true } else d1

/-- Whether two running CHAIN jobs name each other with one OID and one JLEN (R271). -/
def Dev.chainFits (d : Dev) (vp b : Nat) (r rb : SenRun) : Bool :=
  let attr := d.jattr vp r.j
  let battr := d.jattr b rb.j
  decide (getBits attr 26 24 = 3) && decide (getBits battr 26 24 = 3) && decide (getBits (d.reg (senReg vp .JADDR r.j)) 9 0 = b)
    && decide (getBits (d.reg (senReg b .JADDR rb.j)) 9 0 = vp) && decide (getBits battr 21 11 = getBits attr 21 11)
    && decide (d.regN (senReg b .JLEN rb.j) = d.regN (senReg vp .JLEN r.j))

/-- One element from a sender's FIFO to its chain partner's, while the chain holds and its route is open (R22, R271). -/
def Dev.chainMove (d : Dev) (vp : Nat) (r : SenRun) : Dev :=
  let b := getBits (d.reg (senReg vp .JADDR r.j)) 9 0
  match (d.engine b).run, d.fifo vp with
  | some rb, .word w :: rest =>
    if r.chained && rb.chained && d.chainFits vp b r rb && d.vpIn b && decide (d.vpLevel b < 512)
        && d.routeOk (quarterOf (vp / 16)) (quarterOf (b / 16)) then
      (((d.setFifo vp rest).setFifo b (d.fifo b ++ [.word w])).advance vp r).advance b rb
    else d
  | _, _ => d

/-- One element between source or sink and the FIFO. `collide` is the word that the other port of the
memory (port 0 of a home bank, the far side of a channel buffer) writes at the same place in the same cycle. -/
def Dev.moveEl (d : Dev) (vp : Nat) (ans : HostAns) (e : HbmErr) (collide : Option Word) (wired : Bool) (k : Clk) : Dev :=
  match (d.engine vp).run with
  | none => d
  | some r =>
    let len := d.regN (senReg vp .JLEN r.j)
    let kind := getBits (d.jattr vp r.j) 26 24
    if len ≤ r.moved ∨ !d.vpBound vp then d
    else if kind = 3 then (if d.vpOut vp then d.chainMove vp r else d)
    else if d.vpOut vp then
      match d.fifo vp with
      | .word w :: rest =>
        let x := (d.setFifo vp rest).sinkEl vp r.j r w ans e collide k
        if x.1 = 0 then x.2.1.advance vp r else x.2.1.jobError k.tick vp x.1 x.2.2
      | _ => d
    else if d.vpLevel vp < 512 then
      let x := d.fetchEl vp r.j r ans e collide wired k
      if x.1 = 0 then (x.2.2.1.setFifo vp (x.2.2.1.fifo vp ++ [.word x.2.1])).advance vp r
      else x.2.2.1.jobError k.tick vp x.1 x.2.2.2
    else d

/-- ELEMENT_MOVE (R266): one element moves. -/
def xElementMove (vp : Nat) (ans : HostAns) (e : HbmErr) (collide : Option Word) (k : Clk) (d : Dev) : Dev :=
  d.moveEl vp ans e collide false k

/-- An engine moves an element. -/
def execElementMove (vp : Nat) (ans : HostAns) (e : HbmErr) (collide : Option Word) (s : State) :
    Host.Outcome State Fault Refusal :=
  .next { s with d := s.d.unlessHalted (xElementMove vp ans e collide s.clk s.d) }

/-! ### CHAIN_FORMED, JOB_END, SEN_CTRL -/

/-- Mark an engine's running job as chained. -/
def Dev.setChained (d : Dev) (vp : Nat) : Dev :=
  match (d.engine vp).run with
  | none => d
  | some r => (d.setEngine vp { d.engine vp with run := some { r with chained := true } }).engState vp 1

/-- CHAIN_FORMED (R271): the engine examines its partner's running job. -/
def xChainFormed (vp : Nat) (k : Clk) (d : Dev) : Dev :=
  match (d.engine vp).run with
  | none => d
  | some r =>
    let attr := d.jattr vp r.j
    let b := getBits (d.reg (senReg vp .JADDR r.j)) 9 0
    if getBits attr 26 24 ≠ 3 then d
    else if d.vpOut vp ∧ !d.vpIn b then d.jobError k.tick vp 7 b
    else match (d.engine b).run with
      | none => d.engState vp 2
      | some rb =>
        let battr := d.jattr b rb.j
        if getBits battr 26 24 ≠ 3 then d.engState vp 2
        else if d.chainFits vp b r rb = false then d.jobError k.tick vp 7 b
        else (d.setChained vp).setChained b

/-- A chain forms or fails. -/
def execChainFormed (vp : Nat) (s : State) : Host.Outcome State Fault Refusal :=
  .next { s with d := s.d.unlessHalted (xChainFormed vp s.clk s.d) }

/-- JOB_END (R267, R269): JLEN bytes moved and any fence complete; an input job with EOS leaves a mark behind. -/
def xJobEnd (vp : Nat) (d : Dev) : Dev :=
  match (d.engine vp).run with
  | none => d
  | some r =>
    let attr := d.jattr vp r.j
    if r.moved = d.regN (senReg vp .JLEN r.j) ∧ attr.getLsbD 29 = false ∧ nget false d.fences (senMid vp) = false then
      let d1 := if attr.getLsbD 30 = true ∧ d.vpIn vp = true then d.setFifo vp (d.fifo vp ++ [.eos]) else d
      d1.closeJob vp r.j r.total 0
    else d

/-- A job ends. -/
def execJobEnd (vp : Nat) (s : State) : Host.Outcome State Fault Refusal := .next { s with d := s.d.unlessHalted (xJobEnd vp s.d) }

/-- SEN_CTRL is written: clearing EN stops the engine (R273). -/
def xSenCtrl (m : Mst) (vp v : Nat) (d : Dev) : Dev :=
  let x := senReg vp .SEN_CTRL
  if !m.owner then d.denyOid m x
  else
    let d1 := d.setRegN x (v % 2)
    ((if (d.reg x).getLsbD 0 = true ∧ v % 2 = 0 then d1.stopEngine vp else d1)).okay

/-- SEN_CTRL is written. -/
def execSenCtrl (m : Mst) (vp v : Nat) (s : State) : Host.Outcome State Fault Refusal :=
  .next { s with d := xSenCtrl m vp v s.d }

end Sys2Proof.Machine
end

