-- ==== Sys2Proof/Machine/Slots.lean ====
section
/-! DEFINITION. Slots and clusters (chapter 06; rows DEFINE to RETIREMENT_TEARDOWN): definitions, commands, generations,
molts, bindings, regrowth, retirement. -/

namespace Sys2Proof.Machine

/-! ### SLOT_STAT -/

/-- The slot ID of position `p` of cluster `c`. -/
def slotId (c p : Nat) : Nat := c * 4 + p

/-- RESULT codes of SLOT-7. -/
inductive SlotRes where
  | ok | busy | state | cls | intersect | anchor | idInUse | unavail | conflict | config | badCmd
  deriving DecidableEq, Repr

/-- The number of a RESULT. -/
def SlotRes.code : SlotRes → Nat
  | .ok => 0x0
  | .busy => 0x1
  | .state => 0x2
  | .cls => 0x3
  | .intersect => 0x4
  | .anchor => 0x5
  | .idInUse => 0x6
  | .unavail => 0x7
  | .conflict => 0x8
  | .config => 0x9
  | .badCmd => 0xA

/-- Put RESULT and RCLUSTER into SLOT_STAT of slot `s`. Where no cluster decides a failing RESULT (STATE, CONFIG, BAD_CMD,
BUSY of another command than DEFINE) the model writes RCLUSTER 0 (assumption 124). -/
def Dev.slotResult (d : Dev) (s : Nat) (r : SlotRes) (rc : Nat := 0) : Dev :=
  let x := slotReg s .SLOT_STAT
  d.setReg x (putBits (putBits (d.reg x) 27 24 r.code) 21 16 rc)

/-- Whether a load writes slot `s`: it counts as a command in progress (08 R234). -/
def Dev.loadRuns (d : Dev) (s : Nat) : Bool := (nget none d.loading s).isSome

/-- Set what a slot block is busy with; BUSY shows it, and a load. -/
def Dev.setBusy (d : Dev) (s : Nat) (b : SlotBusy) : Dev :=
  (d.setCtl s { d.ctl s with busy := b }).setBit (slotReg s .SLOT_STAT) 31 (decide (b ≠ .idle) || d.loadRuns s)

/-- Whether the block of slot `s` handles a command. -/
def Dev.slotBusy (d : Dev) (s : Nat) : Bool := decide ((d.ctl s).busy ≠ .idle)

/-- Whether a stop has no effect on slot `s` (R173): a DEFINE, an UNDEFINE or a MOLT is in progress. -/
def Dev.stopsNothing (d : Dev) (s : Nat) : Bool :=
  match (d.ctl s).busy with
  | .defining _ _ => true
  | .undefining => true
  | .molting => true
  | _ => false

/-- The status of a management command by RESULT (14 R399). -/
def slotStatus (r : Nat) : Nat := if r = 0 then 0x00 else if r = 0x9 ∨ r = 0xA then 0x0B else 0x0A

/-- The commands that wait for a slot's stop or molt end, with SLOT_STAT as it reads (14 R399). -/
def Dev.slotDone (d : Dev) (s : Nat) : Dev :=
  let v := d.regN (slotReg s .SLOT_STAT)
  d.waitDone (.slot s) (slotStatus (bitsOf v 27 24)) (v % 2 ^ 32)

/-- The commands that wait for a slot's molt end. -/
def Dev.moltDone (d : Dev) (s : Nat) : Dev :=
  let v := d.regN (slotReg s .SLOT_STAT)
  d.waitDone (.molt s) (slotStatus (bitsOf v 27 24)) (v % 2 ^ 32)

/-- Whether slot `s` is anchored at its own position; otherwise its commands act on an UNDEFINED slot (R188). -/
def Dev.anchored (d : Dev) (s : Nat) : Bool := !d.posMember (s / 4) (s % 4)

/-- STATE of slot `s` as a command sees it (R188). -/
def Dev.cmdState (d : Dev) (s : Nat) : Nat := if d.anchored s then d.slotState s else stUndefined

/-! ### Loads that meet an event (08 IMG-13) -/

/-- A load in progress of slot `s` is interrupted: it fails INTERRUPTED at its completion. -/
def Dev.interrupt (d : Dev) (s : Nat) : Dev := d.loadHit s 0x0E

/-- Every load of a slot that holds a position in cluster `c` is interrupted. -/
def Dev.interruptClu (d : Dev) (c : Nat) : Dev :=
  (d.loading.map (fun e => e.1)).foldl (fun x s => if (x.footprint s).contains c then x.interrupt s else x) d

/-! ### Generations (R179–R182) -/

/-- The entry-table area: base address and end (14 R402). -/
def Dev.entArea (d : Dev) (q : Nat) : Nat × Nat :=
  let b := getBits (d.reg (R.QE_ENT_BASE.at q)) 47 11 * 2048
  (b, b + 1056 * 2048)

/-- Invalidate every entry of every owner that names slot `s` (R182): its VALID bit is cleared. -/
def Dev.sweepEntries (d : Dev) (s : Nat) : Dev :=
  let a := d.entArea (quarterOf (s / 4))
  let hits := d.mem.filter (fun e => decide (a.1 ≤ e.1) && decide (e.1 < a.2) && decide ((e.1 - a.1) % 8 = 7)
    && e.2.getLsbD 7 && decide ((d.byte (e.1 - 7)).toNat = s))
  hits.foldl (fun x e => x.setByte e.1 (e.2 &&& 0x7F)) d

/-- Every live NODE that names slot `s` completes ENTRY_STALE (R182). -/
def Dev.sweepNodes (d : Dev) (now s : Nat) : Dev :=
  (d.tasks.filterMap (fun e => match e.2 with
    | some x => if x.node ∧ x.slot = s ∧ !d.nodeAdmitted e.1 x then some e.1 else none
    | none => none)).foldl (fun y t => y.complete now t 0x07 0 0x0B 0x08) d

/-- The generation of slot `s` increments, or a sweep starts; during a sweep increments are absorbed (R180, R182). -/
def Dev.genInc (d : Dev) (now s : Nat) : Dev :=
  if d.sweeping s then d
  else
    let g := d.regN (slotReg s .SLOT_GEN)
    if g = 65535 then ((d.setBit (slotReg s .SLOT_STAT) 30 true).sweepEntries s).sweepNodes now s
    else ((d.setRegN (slotReg s .SLOT_GEN) (g + 1)).setCtl s { d.ctl s with feCount := 0 }).withdrawStale now s

/-- SWEEP_END (R182). -/
def xSweepEnd (c p : Nat) (k : Clk) (d : Dev) : Dev :=
  let s := slotId c p
  if d.sweeping s then
    (((d.sweepEntries s).sweepNodes k.tick s).setRegN (slotReg s .SLOT_GEN) 1).setBit (slotReg s .SLOT_STAT) 30 false
  else d

/-- A sweep ends. -/
def execSweepEnd (c p : Nat) (s : State) : Host.Outcome State Fault Refusal := .next { s with d := xSweepEnd c p s.clk s.d }

/-! ### Defining (R163–R165) -/

/-- Whether cluster `c` can take a definition or a START: ACTIVE, ON, not in reset (R160). -/
def Dev.cluReady (d : Dev) (c : Nat) : Bool :=
  decide (d.cluState c = 0) && decide (d.cluDomain c = 0) && !d.inReset (quarterOf c)

/-- The checks of SLOT-1 on a DEFINE of slot `s`: the RESULT and the cluster concerned, for the checks of the block itself
the anchor cluster (assumption 124). -/
def Dev.defineCheck (d : Dev) (s code phase : Nat) : SlotRes × Nat :=
  let foot := d.footprint s
  let meet (c : Nat) : Bool := (upTo 4).any (fun p => d.posValid c p &&
    classesMeet (strideOf code) phase (d.posClass c p).1 (d.posClass c p).2)
  if d.slotBusy s || d.sweeping s || d.loadRuns s then (.busy, s / 4)
  else if d.posValid (s / 4) (s % 4) then (.idInUse, s / 4)
  else if code = 3 ∨ strideOf code ≤ phase then (.cls, s / 4)
  else if foot.headD 64 ≠ s / 4 then (.anchor, foot.headD 0)
  else match foot.find? (fun c => !d.cluReady c) with
    | some c => (.unavail, c)
    | none => match foot.find? meet with
      | some c => (.intersect, c)
      | none => match foot.find? (fun c => nget 0 d.arr.resv c ≠ 0) with
        | some c => (.conflict, c)
        | none => (.ok, 0)

/-- DEFINE: the checks, then the reservation of the clusters. -/
def xDefine (m : Mst) (c p code phase : Nat) (d : Dev) : Dev :=
  let s := slotId c p
  if !m.owner then d.denyOid m (slotReg s .SLOT_CMD)
  else
    let r := d.defineCheck s code phase
    if r.1 = .ok then
      let d1 := { d with arr := { d.arr with resv := (d.footprint s).foldl (fun x e => nset 0 x e (s + 1)) d.arr.resv } }
      (d1.setBusy s (.defining code phase)).okay
    else (d.slotResult s r.1 r.2).okay

/-- DEFINE. -/
def execDefine (m : Mst) (c p stride phase : Nat) (s : State) : Host.Outcome State Fault Refusal :=
  .next { s with d := xDefine m c p stride phase s.d }

/-- The neighbour of cluster `c` across border `b` (0 N, 1 E, 2 S, 3 W) in its quarter. -/
def cluNeighbour (c b : Nat) : Option Nat :=
  if b = 0 then (if c / 8 % 4 = 0 then none else some (c - 8))
  else if b = 1 then (if c % 4 = 3 then none else some (c + 1))
  else if b = 2 then (if c / 8 % 4 = 3 then none else some (c + 8))
  else (if c % 4 = 0 then none else some (c - 1))

/-- Set or clear the pass tables of cluster `c` for its position of slot `s` (R162). -/
def Dev.passTables (d : Dev) (s c : Nat) (on : Bool) : Dev :=
  let p := d.posIn s c
  (upTo 4).foldl (fun x b => match cluNeighbour c b with
    | none => x
    | some n =>
      if (d.footprint s).contains n then
        let r := cluReg c .ISO_STAT
        x.setReg r (putBits (x.reg r) (16 * b + 4 * p + 3) (16 * b + 4 * p) (if on then 8 + d.posIn s n else 0))
      else x) d

/-- Take one position for slot `s` in cluster `c` (R164). -/
def Dev.takePos (d : Dev) (s code phase c : Nat) : Dev :=
  let p := if c = s / 4 then s % 4 else ((upTo 4).find? (fun i => !d.posValid c i)).getD 0
  let v := 2 ^ 31 + b2n (decide (c = s / 4)) * 2 ^ 30 + code * 2 ^ 24 + phase * 2 ^ 20 + stStopped * 2 ^ 16 + s
  let r := slotReg s .SLOT_MAP (c / 16)
  (d.setRegN (cluReg c .POS_CFG p) v).setReg r (putBits (d.reg r) (2 * (c % 16) + 1) (2 * (c % 16)) p)

/-- Release the reservations of slot `s`. -/
def Dev.release' (d : Dev) (s : Nat) : Dev :=
  { d with arr := { d.arr with resv := d.arr.resv.filter (fun e => decide (e.2 ≠ s + 1)) } }

/-- The load record of a slot becomes NONE (08 IMG-11). -/
def Dev.loadNone (d : Dev) (s : Nat) : Dev := { d with loads := nset LoadRec.none d.loads s LoadRec.none }

/-- DEFINITION_COMPLETE: positions, pass tables, STOPPED; or UNAVAIL where a cluster has become so (R164, R165). -/
def xDefinitionComplete (c p : Nat) (d : Dev) : Dev :=
  let s := slotId c p
  match (d.ctl s).busy with
  | .defining code phase =>
    let d0 := (d.release' s).setBusy s .idle
    match (d.footprint s).find? (fun x => !d.cluReady x) with
    | some x => d0.slotResult s .unavail x
    | none =>
      let d1 := (d.footprint s).foldl (fun x e => x.takePos s code phase e) d0
      let d2 := (d.footprint s).foldl (fun x e => x.passTables s e true) d1
      (((d2.setSlotState s stStopped).loadNone s).setCtl s SlotCtl.zero).slotResult s .ok
  | _ => d

/-- A definition completes. -/
def execDefinitionComplete (c p : Nat) (s : State) : Host.Outcome State Fault Refusal :=
  .next { s with d := xDefinitionComplete c p s.d }

/-! ### What a molt clears (R172, SLOT-4) -/

/-- Empty a bound vertical port: its engine stops first (R273), then stage and FIFO are emptied. -/
def Dev.emptyPort (d : Dev) (vp : Nat) : Dev :=
  let d1 := d.stopEngine vp
  let t := d1.vpTile vp
  let d2 := (d1.setFifo vp []).setTport t.1 t.2 TPort.zero
  { d2 with arr := { d2.arr with flight := d2.arr.flight.filter (fun f => match f.what with
      | .push v _ => decide (v ≠ vp)
      | _ => true) } }

/-- A leap port of cluster `c` is bound or released: its hold value becomes 0 (07 R194). -/
def Dev.leapRelease (d : Dev) (c : Nat) (w : Word) : Dev :=
  let ch := leapChan c (getBits w 33 33) (getBits w 4 0) (w.getLsbD 62)
  if w.getLsbD 62 then { d with leap := nmod LeapCh.zero d.leap ch (fun x => { x with hold := 0 }) }
  else d.setTport (tileOf c (getBits w 53 48)) (getBits w 40 40) TPort.zero

/-- Release the bindings of position `p` of cluster `c`. -/
def Dev.releasePorts (d : Dev) (c p : Nat) : Dev :=
  let d1 := (upTo 16).foldl (fun x n =>
    let w := x.reg (cluReg c .VP_CFG n)
    if w.getLsbD 63 ∧ getBits w 61 60 = p then (x.emptyPort (c * 16 + n)).setRegN (cluReg c .VP_CFG n) 0 else x) d
  (upTo 8).foldl (fun x i =>
    let w := x.reg (cluReg c .LPB i)
    if w.getLsbD 63 ∧ getBits w 61 60 = p then (x.leapRelease c w).setRegN (cluReg c .LPB i) 0 else x) d1

/-- The banks of tile `T` that position `p` owns. -/
def Dev.banksOwned (d : Dev) (p T : Nat) : List Nat :=
  (upTo 4).filter (fun b => decide (getBits (d.reg (d.tileReg T .TMEM_OWN)) (4 * b + 3) (4 * b) = 8 + p))

/-- The banks of tile `T` that position `p` owns molt: `drop` hands them to no owner, a handover whose own molt BANK_MOLT
ends (05 R150); else the molt is over and MOLTING reads 0. -/
def Dev.moltBanks (d : Dev) (p : Nat) (drop : Bool) (T : Nat) : Dev :=
  (d.banksOwned p T).foldl (fun x b =>
    if drop then x.handover T b 0 else (x.setBit (x.tileReg T .TMEM_STAT) b false).tmemZero T b) d

/-- MOLTING of the banks of tile `T` that position `p` owns: their molt begins. -/
def Dev.markBanks (d : Dev) (p T : Nat) : Dev :=
  (d.banksOwned p T).foldl (fun x b => x.setBit (x.tileReg T .TMEM_STAT) b true) d

/-- The molt of a slot begins: it is MOLTING, and so are its tile-memory banks (05 R150, SLOT-4). -/
def Dev.moltBegins (d : Dev) (s : Nat) : Dev :=
  (d.footprint s).foldl (fun x c => (upTo 64).foldl (fun y t => y.markBanks (d.posIn s c) (tileOf c t)) x)
    (d.setSlotState s stMolting)

/-- Zero what position `p` of cluster `c` holds at tile level: entries of its class, cell banks, read data, generators,
hops and held selections. -/
def Dev.moltPos (d : Dev) (c p : Nat) : Dev :=
  let cl := d.posClass c p
  let mine (k : Nat) : Bool := k % cl.1 == cl.2
  let here (T : Nat) : Bool := tileCluster T == c
  let ctx := ndrop d.arr.ctx (fun x => here (x / 1024) && mine (x % 64))
  let sw := ndrop d.arr.sw (fun x => here (x / 64) && mine (x % 64))
  let sq := ndrop d.arr.seqw (fun x => here (x / 64) && mine (x % 64))
  let ecc := ndrop d.arr.ecc (fun x =>
    if x % 4 = 0 then here (x / 4096) && mine (x / 4 % 64) else here (x / 256) && mine (x / 4 % 64))
  let banks := ndrop d.arr.banks (fun x => here (x / 64) && x % 4 == p)
  let mreg := ndrop d.arr.mreg (fun x => here (x / 16) && x / 4 % 4 == p)
  let hop := ndrop d.arr.hop (fun x => here (x / 32) && x / 8 % 4 == p)
  let held := ndrop d.arr.held (fun x => here (x / 32) && x / 8 % 4 == p)
  let a := { d.arr with ctx := ctx, sw := sw, seqw := sq, ecc := ecc }
  let d1 := { d with arr := { a with banks := banks, mreg := mreg, hop := hop, held := held } }
  let l := localOf c
  let q := quarterOf c
  d1.resetRegs (fun x => x.q == q && x.i == l && ((decide (x.r = .AGREG) && x.k / 8 == p)
    || (decide (x.r = .CSAT) && x.j == p) || (decide (x.r = .GFP) && x.j == p)))

/-- Molt one cluster's share of a slot. -/
def Dev.moltClu (d : Dev) (s : Nat) (drop : Bool) (c : Nat) : Dev :=
  let p := d.posIn s c
  let d1 := (d.moltPos c p).releasePorts c p
  (upTo 64).foldl (fun x t => x.moltBanks p drop (tileOf c t)) d1

/-- The molt of a slot (SLOT-4). -/
def Dev.moltSlot (d : Dev) (s : Nat) (drop : Bool) : Dev :=
  let d1 := (d.footprint s).foldl (fun x c => x.moltClu s drop c) d
  let d2 := ((d1.setRegN (slotReg s .SLOT_FRAME) 0).setRegN (slotReg s .SLOT_EXIT) 0).setRegN (slotReg s .SLOT_OID) 0
  ((d2.setRegN (slotReg s .SLOT_RUN) 0).loadNone s).setFrame s Frame.none

/-- Free the positions and pass tables of a slot: it is UNDEFINED (R169). -/
def Dev.freeSlot (d : Dev) (s : Nat) : Dev :=
  let d1 := (d.footprint s).foldl (fun x c => x.passTables s c false) d
  let d2 := (d.footprint s).foldl (fun x c => x.setRegN (cluReg c .POS_CFG (d.posIn s c)) 0) d1
  let d3 := (upTo 4).foldl (fun x w => x.setRegN (slotReg s .SLOT_MAP w) 0) d2
  (d3.setReg (slotReg s .SLOT_STAT) (putBits (d3.reg (slotReg s .SLOT_STAT)) 3 0 stUndefined)).setCtl s SlotCtl.zero

/-- Whether a result of slot `s` is in flight (R77). -/
def Dev.slotInFlight (d : Dev) (s : Nat) : Bool :=
  let at' (T p : Nat) : Bool := d.posValid (tileCluster T) p && d.posSlot (tileCluster T) p == s
  d.arr.flight.any (fun f => match f.what with
    | .cell T _ b _ _ _ _ _ _ => at' T b
    | .mreg T b _ _ => at' T b
    | .load T _ b _ _ _ _ _ _ _ _ => at' T b
    | .store T _ b _ _ _ _ => at' T b
    | .push _ _ => false)

/-! ### Commands (R169–R173) -/

/-- The molt that UNDEFINE, MOLT and a stop begin: the slot is MOLTING. -/
def Dev.startMolt (d : Dev) (s : Nat) (b : SlotBusy) : Dev := (d.setBusy s b).moltBegins s

/-- UNDEFINE (R169). -/
def xUndefine (m : Mst) (c p : Nat) (k : Clk) (d : Dev) : Dev :=
  let s := slotId c p
  let st := d.cmdState s
  if !m.owner then d.denyOid m (slotReg s .SLOT_CMD)
  else if d.slotBusy s || d.loadRuns s then (d.slotResult s .busy).okay
  else if st = stStopped ∨ st = stTadpole then ((d.genInc k.tick s).startMolt s .undefining).okay
  else (d.slotResult s .state).okay

/-- UNDEFINE. -/
def execUndefine (m : Mst) (c p : Nat) (s : State) : Host.Outcome State Fault Refusal :=
  .next { s with d := xUndefine m c p s.clk s.d }

/-- Whether every leap binding of slot `s` has its partner (R170, check 3). -/
def Dev.leapsMatched (d : Dev) (s : Nat) : Bool :=
  (d.footprint s).all (fun c => (upTo 8).all (fun i =>
    let w := d.reg (cluReg c .LPB i)
    if w.getLsbD 63 ∧ d.posIn s c = getBits w 61 60 then
      let ch := leapChan c (getBits w 33 33) (getBits w 4 0) (w.getLsbD 62)
      let far := if w.getLsbD 62 then leapTo ch else leapFrom ch
      match d.lpbOf far (brSel (ch / 64)) (ch % 32) (!w.getLsbD 62) with
      | some v => d.posValid far (getBits v 61 60) && d.posSlot far (getBits v 61 60) == s
      | none => false
    else true))

/-- The checks of START (R170). -/
def Dev.startCheck (d : Dev) (s : Nat) : SlotRes × Nat :=
  let x := d.reg (slotReg s .SLOT_EXIT)
  if d.slotF s = 0 ∨ d.slotF s < d.slotP s + d.slotE s then (.config, 0)
  else if x.getLsbD 31 ∧ !(d.footprint s).contains (getBits x 21 16) then (.config, 0)
  else if !d.leapsMatched s then (.config, 0)
  else match (d.footprint s).find? (fun c => !d.cluReady c) with
    | some c => (.unavail, c)
    | none => (.ok, 0)

/-- START (R170): LIVE follows at the second round boundary. -/
def xStart (m : Mst) (c p : Nat) (d : Dev) : Dev :=
  let s := slotId c p
  if !m.owner then d.denyOid m (slotReg s .SLOT_CMD)
  else if d.slotBusy s || d.sweeping s || d.loadRuns s then (d.slotResult s .busy).okay
  else if d.cmdState s ≠ stTadpole then (d.slotResult s .state).okay
  else
    let r := d.startCheck s
    if r.1 = .ok then ((d.setCtl s { d.ctl s with wait := 2 }).setBusy s .starting).okay
    else (d.slotResult s r.1 r.2).okay

/-- START. -/
def execStart (m : Mst) (c p : Nat) (s : State) : Host.Outcome State Fault Refusal := .next { s with d := xStart m c p s.d }

/-- SLOT_LIVE (R170): two executed round boundaries have passed. -/
def xSlotLive (c p : Nat) (d : Dev) : Dev :=
  let s := slotId c p
  if (d.ctl s).busy = .starting ∧ (d.ctl s).wait = 0 then
    (((d.setBusy s .idle).setSlotState s stLive).slotResult s .ok).slotDone s
  else d

/-- A slot becomes LIVE. -/
def execSlotLive (c p : Nat) (s : State) : Host.Outcome State Fault Refusal := .next { s with d := xSlotLive c p s.d }

/-- A START in progress is cancelled by a stop (R173). -/
def Dev.cancelStart (d : Dev) (now s : Nat) : Dev :=
  (((d.genInc now s).setBusy s .idle).slotResult s .state).slotDone s

/-- A stop of a PAUSED slot takes effect at once: it will enter TADPOLE instead of resuming (R171). -/
def Dev.stopPaused (d : Dev) (now s : Nat) : Dev :=
  ((d.genInc now s).setCtl s { d.ctl s with resume := true }).slotResult s .ok

/-- A stop with drain that takes effect (R171, R173); `retire` marks a stop that a retirement gives. -/
def Dev.drainStop (d : Dev) (now s : Nat) (after : After) : Dev :=
  let st := d.cmdState s
  if (d.ctl s).busy = .starting then d.cancelStart now s
  else if st = stLive then
    let d1 := d.genInc now s
    ((d1.setCtl s { d1.ctl s with drain := true, after := after }).setSlotState s stStopping).slotResult s .ok
  else if st = stStopping then
    let d1 := d.genInc now s
    (if after = .tadpole then d1 else d1.setCtl s { d1.ctl s with after := after }).slotResult s .ok
  else if st = stPaused then d.stopPaused now s
  else d.slotResult s .ok

/-- STOP_DRAIN (R173): no effect during a DEFINE, an UNDEFINE or a MOLT; a slot that a load writes is not live. -/
def Dev.stopDrain (d : Dev) (now s : Nat) (after : After) : Dev :=
  if d.stopsNothing s then d.slotResult s .ok else d.drainStop now s after

/-- STOP_DRAIN. -/
def xStopDrain (m : Mst) (c p : Nat) (k : Clk) (d : Dev) : Dev :=
  if !m.owner then d.denyOid m (slotReg (slotId c p) .SLOT_CMD) else (d.stopDrain k.tick (slotId c p) .tadpole).okay

/-- STOP_DRAIN. -/
def execStopDrain (m : Mst) (c p : Nat) (s : State) : Host.Outcome State Fault Refusal :=
  .next { s with d := xStopDrain m c p s.clk s.d }

/-- A stop with abort that takes effect (R56, R171): the running frame ends at the next tick boundary. -/
def Dev.abortStop (d : Dev) (now s : Nat) (after : After) : Dev :=
  let st := d.cmdState s
  if (d.ctl s).busy = .starting then d.cancelStart now s
  else if st = stLive ∨ st = stStopping then
    let d1 := d.genInc now s
    let a := if after = .tadpole ∧ st = stStopping then (d1.ctl s).after else after
    ((d1.setCtl s { d1.ctl s with drain := false, abort := true, after := a }).setSlotState s stStopping).slotResult s .ok
  else if st = stPaused then d.stopPaused now s
  else d.slotResult s .ok

/-- STOP_ABORT (R173): no effect during a DEFINE, an UNDEFINE or a MOLT. -/
def Dev.stopAbort (d : Dev) (now s : Nat) (after : After) : Dev :=
  if d.stopsNothing s then d.slotResult s .ok else d.abortStop now s after

/-- STOP_ABORT. -/
def xStopAbort (m : Mst) (c p : Nat) (k : Clk) (d : Dev) : Dev :=
  if !m.owner then d.denyOid m (slotReg (slotId c p) .SLOT_CMD) else (d.stopAbort k.tick (slotId c p) .tadpole).okay

/-- STOP_ABORT. -/
def execStopAbort (m : Mst) (c p : Nat) (s : State) : Host.Outcome State Fault Refusal :=
  .next { s with d := xStopAbort m c p s.clk s.d }

/-- MOLT (R172): from LIVE or STOPPING a stop with abort first; one increment for the whole. -/
def Dev.molt (d : Dev) (now s : Nat) : Dev :=
  let st := d.cmdState s
  if d.slotBusy s || decide (st = stPaused) || d.loadRuns s then d.slotResult s .busy
  else if st = stLive ∨ st = stStopping then (d.stopAbort now s .molt).setBusy s .molting
  else if st = stStopped ∨ st = stTadpole then (d.genInc now s).startMolt s .molting
  else d.slotResult s .state

/-- MOLT. -/
def xMolt (m : Mst) (c p : Nat) (k : Clk) (d : Dev) : Dev :=
  if !m.owner then d.denyOid m (slotReg (slotId c p) .SLOT_CMD) else (d.molt k.tick (slotId c p)).okay

/-- MOLT. -/
def execMolt (m : Mst) (c p : Nat) (s : State) : Host.Outcome State Fault Refusal :=
  .next { s with d := xMolt m c p s.clk s.d }

/-- MOLT_COMPLETE (R77, R172): everything of the slot has landed; the items of SLOT-4 are zero; UNDEFINE frees too. -/
def xMoltComplete (c p : Nat) (d : Dev) : Dev :=
  let s := slotId c p
  if d.slotState s ≠ stMolting ∨ d.slotInFlight s = true then d
  else if (d.ctl s).busy = .undefining then
    (((d.setBusy s .idle).moltSlot s true).freeSlot s).slotResult s .ok |>.moltDone s
  else
    ((((d.setBusy s .idle).moltSlot s false).setSlotState s stStopped).setCtl s SlotCtl.zero).slotResult s .ok |>.moltDone s

/-- A molt completes. -/
def execMoltComplete (c p : Nat) (s : State) : Host.Outcome State Fault Refusal :=
  .next { s with d := xMoltComplete c p s.d }

/-- A reserved SLOT_CMD code (R169); BUSY while a command is in progress (R173). -/
def xBadCmd (m : Mst) (c p _code : Nat) (d : Dev) : Dev :=
  let s := slotId c p
  if !m.owner then d.denyOid m (slotReg s .SLOT_CMD)
  else (d.slotResult s (if d.slotBusy s || d.loadRuns s then .busy else .badCmd)).okay

/-- A reserved SLOT_CMD code. -/
def execBadCmd (m : Mst) (c p code : Nat) (s : State) : Host.Outcome State Fault Refusal :=
  .next { s with d := xBadCmd m c p code s.d }

/-- A write of SLOT_CMD (SLOT-3). -/
def xSlotCmd (m : Mst) (c p v : Nat) (k : Clk) (d : Dev) : Dev :=
  match v % 16 with
  | 1 => xDefine m c p (bitsOf v 9 8) (bitsOf v 13 12) d
  | 2 => xUndefine m c p k d
  | 3 => xStart m c p d
  | 4 => xStopDrain m c p k d
  | 5 => xStopAbort m c p k d
  | 6 => xMolt m c p k d
  | n => xBadCmd m c p n d

/-! ### The registers of a slot (R168, R188) -/

/-- A TADPOLE whose contents are written becomes STOPPED (R168). -/
def Dev.untadpole (d : Dev) (s : Nat) : Dev := if d.slotState s = stTadpole then d.setSlotState s stStopped else d

/-- A write of a slot register that is accepted only while the slot is not live. -/
def Dev.slotWrite (d : Dev) (m : Mst) (s : Nat) (r : R) (v : Nat) (ok : Bool) : Dev :=
  let x := slotReg s r
  if !m.owner then d.denyOid m x
  else if !d.anchored s ∨ d.slotLive s = true ∨ ok = false then d.refuse m x
  else ((d.setRegN x v).untadpole s).okay

/-- SLOT_FOOT: writable only while UNDEFINED. The model's choice (assumption 125): a DEFINE in progress, and a load, refuse it
too. -/
def xSlotFoot (m : Mst) (c p v : Nat) (d : Dev) : Dev :=
  let s := slotId c p
  d.slotWrite m s .SLOT_FOOT (v % 2 ^ 64) (decide (d.slotState s = stUndefined) && !d.slotBusy s && !d.loadRuns s)

/-- SLOT_FOOT is written. -/
def execSlotFoot (m : Mst) (c p v : Nat) (s : State) : Host.Outcome State Fault Refusal :=
  .next { s with d := xSlotFoot m c p v s.d }

/-- SLOT_OID. -/
def xSlotOid (m : Mst) (c p v : Nat) (d : Dev) : Dev := d.slotWrite m (slotId c p) .SLOT_OID (v % 2048) true

/-- SLOT_OID is written. -/
def execSlotOid (m : Mst) (c p v : Nat) (s : State) : Host.Outcome State Fault Refusal :=
  .next { s with d := xSlotOid m c p v s.d }

/-- SLOT_FRAME: only with P + E ≤ F. -/
def xSlotFrame (m : Mst) (c p v : Nat) (d : Dev) : Dev :=
  d.slotWrite m (slotId c p) .SLOT_FRAME (v % 2 ^ 48) (decide (bitsOf v 31 16 + bitsOf v 47 32 ≤ bitsOf v 15 0))

/-- SLOT_FRAME is written. -/
def execSlotFrame (m : Mst) (c p v : Nat) (s : State) : Host.Outcome State Fault Refusal :=
  .next { s with d := xSlotFrame m c p v s.d }

/-- SLOT_EXIT. -/
def xSlotExit (m : Mst) (c p v : Nat) (d : Dev) : Dev := d.slotWrite m (slotId c p) .SLOT_EXIT (v &&& 0x803F3FF3) true

/-- SLOT_EXIT is written. -/
def execSlotExit (m : Mst) (c p v : Nat) (s : State) : Host.Outcome State Fault Refusal :=
  .next { s with d := xSlotExit m c p v s.d }

/-- GFP (04 R109, R188): only at a position that a slot holds, and only while that slot is not live. -/
def xGfp (m : Mst) (c p n v : Nat) (d : Dev) : Dev :=
  let x := cluReg c .GFP p n
  if !m.owner then d.denyOid m x
  else if !d.posValid c p ∨ d.posLive c p = true then d.refuse m x
  else ((d.setRegN x (v % 65536)).untadpole (d.posSlot c p)).okay

/-- GFP is written. -/
def execGfp (m : Mst) (c p n v : Nat) (s : State) : Host.Outcome State Fault Refusal :=
  .next { s with d := xGfp m c p n v s.d }

/-! ### Bindings (R176–R178) -/

/-- Whether a value binds a position whose slot is live. -/
def Dev.bindLive (d : Dev) (c : Nat) (w : Word) : Bool := w.getLsbD 63 && d.posLive c (getBits w 61 60)

/-- Whether port position of value `w` is bound by a register of cluster `c` other than `self`. -/
def Dev.tpTaken (d : Dev) (c : Nat) (w : Word) (self : RKey) : Bool :=
  let t := getBits w 53 48
  let tp := getBits w 40 40
  (upTo 16).any (fun n => decide (cluReg c .VP_CFG n ≠ self) && bindsTile (d.reg (cluReg c .VP_CFG n)) t tp)
    || (upTo 8).any (fun i => decide (cluReg c .LPB i ≠ self) && bindsTile (d.reg (cluReg c .LPB i)) t tp)

/-- The slot whose binding a value states loses TADPOLE; a load of it meets a written binding. -/
def Dev.bindUntadpole (d : Dev) (c : Nat) (w : Word) : Dev :=
  let p := getBits w 61 60
  if w.getLsbD 63 ∧ d.posValid c p = true then (d.untadpole (d.posSlot c p)).loadBound (d.posSlot c p) else d

/-- The bits of VP_CFG and LPB that are held. -/
def bindMask (leap : Bool) (v : Nat) : Nat := v &&& (if leap then 0xF03F01020000001F else 0xF03F0100000003FF)

/-- VP_CFG (R178): an accepted change stops the engine of an old binding and empties stage and FIFO; any accepted write ends
TADPOLE (R168). A value with BOUND 0 names no position and no tile (assumption 126). -/
def xVpCfg (m : Mst) (c n v : Nat) (d : Dev) : Dev :=
  let x := cluReg c .VP_CFG n
  let w := BitVec.ofNat 64 (bindMask false v)
  let old := d.reg x
  if !m.owner then d.denyOid m x
  else if d.bindLive c old ∨ d.bindLive c w = true ∨ 512 < getBits w 9 0
      ∨ (w.getLsbD 63 = true ∧ (d.tpTaken c w x = true ∨ d.cluState c = 2)) then d.refuse m x
  else
    let d1 := if old.getLsbD 63 = true ∧ w ≠ old then d.emptyPort (c * 16 + n) else d
    (((d1.setReg x w).bindUntadpole c old).bindUntadpole c w).okay

/-- VP_CFG is written. -/
def execVpCfg (m : Mst) (c n v : Nat) (s : State) : Host.Outcome State Fault Refusal :=
  .next { s with d := xVpCfg m c n v s.d }

/-- Whether the leap port of value `w` is reachable from cluster `c` (LEAP-3). -/
def leapReach (c : Nat) (w : Word) : Bool :=
  let ch := leapChan c (getBits w 33 33) (getBits w 4 0) (w.getLsbD 62)
  let l := leapClusters (ch / 64) (ch % 32)
  decide (l.1 = c) || decide (l.2 = c)

/-- Whether another register binds the same leap port in the same direction. -/
def Dev.leapTaken (d : Dev) (c : Nat) (w : Word) (self : RKey) : Bool :=
  (upTo 8).any (fun i => decide (cluReg c .LPB i ≠ self) &&
    (let u := d.reg (cluReg c .LPB i)
     u.getLsbD 63 && u.getLsbD 62 == w.getLsbD 62 && getBits u 33 33 == getBits w 33 33 && getBits u 4 0 == getBits w 4 0))

/-- LPB (R177, R178): binding or releasing sets the port's hold value to 0; any accepted write ends TADPOLE (R168). -/
def xLpb (m : Mst) (c i v : Nat) (d : Dev) : Dev :=
  let x := cluReg c .LPB i
  let w := BitVec.ofNat 64 (bindMask true v)
  let old := d.reg x
  if !m.owner then d.denyOid m x
  else if d.bindLive c old ∨ d.bindLive c w = true ∨ (w.getLsbD 63 = true ∧ (d.tpTaken c w x = true ∨ leapReach c w = false
      ∨ d.leapTaken c w x = true ∨ d.cluState c = 2)) then d.refuse m x
  else
    let d1 := if old.getLsbD 63 = true ∧ w ≠ old then d.leapRelease c old else d
    let d2 := if w.getLsbD 63 = true ∧ w ≠ old then d1.leapRelease c w else d1
    (((d2.setReg x w).bindUntadpole c old).bindUntadpole c w).okay

/-- LPB is written. -/
def execLpb (m : Mst) (c i v : Nat) (s : State) : Host.Outcome State Fault Refusal :=
  .next { s with d := xLpb m c i v s.d }

/-! ### Regrowth and retirement (R183–R186) -/

/-- The slots that hold a position in cluster `c`. -/
def Dev.slotsIn (d : Dev) (c : Nat) : List Nat :=
  (upTo 4).filterMap (fun p => if d.posValid c p then some (d.posSlot c p) else none)

/-- A field of CLU_STAT. -/
def Dev.setClu (d : Dev) (c hi lo v : Nat) : Dev :=
  d.setReg (cluReg c .CLU_STAT) (putBits (d.reg (cluReg c .CLU_STAT)) hi lo v)

/-- The regrowth of a cluster. -/
def Dev.regrow (d : Dev) (c : Nat) : Regrow := nget Regrow.none d.arr.regrow c

/-- Write the regrowth of a cluster. -/
def Dev.setRegrow (d : Dev) (c : Nat) (r : Regrow) : Dev :=
  { d with arr := { d.arr with regrow := nset Regrow.none d.arr.regrow c r } }

/-- Retirement starts (R185): every slot of the cluster receives a stop with drain. -/
def Dev.retire (d : Dev) (now c : Nat) : Dev :=
  let d0 := d.interruptClu c
  let d1 := (d0.slotsIn c).foldl (fun x s =>
    let st := x.slotState s
    if st = stLive ∨ st = stStopping ∨ st = stPaused ∨ (x.ctl s).busy = .starting then x.drainStop now s .retire
    else x.genInc now s) d0
  { d1 with arr := { d1.arr with retiring := nset false d1.arr.retiring c true } }

/-- Whether cluster `c` is RETIRED, or its retirement runs: an order on it has no effect (R186). -/
def Dev.retired (d : Dev) (c : Nat) : Bool := decide (d.cluState c = 2) || nget false d.arr.retiring c

/-- CLU_REGROW with CMD = REGROW (R183, R185, R186). -/
def xRegrow (m : Mst) (c col : Nat) (k : Clk) (d : Dev) : Dev :=
  let x := cluReg c .CLU_REGROW
  if !m.owner then d.denyOid m x
  else if 7 < col then d.refuse m x
  else if d.cluState c = 1 then (d.setClu c 23 20 3).okay
  else if d.retired c = true then d.okay
  else if (d.reg (cluReg c .CLU_STAT)).getLsbD 7 then (d.retire k.tick c).okay
  else ((((d.interruptClu c).setClu c 31 30 1).setClu c 19 16 0).setRegrow c
    ⟨true, col, 0, false, 0, getBits (d.reg (cluReg c .CLU_STAT)) 11 7⟩).okay

/-- A regrowth is ordered. -/
def execRegrow (m : Mst) (c col : Nat) (s : State) : Host.Outcome State Fault Refusal :=
  .next { s with d := xRegrow m c col s.clk s.d }

/-- CLU_REGROW with CMD = RETIRE. -/
def xRetire (m : Mst) (c : Nat) (k : Clk) (d : Dev) : Dev :=
  if !m.owner then d.denyOid m (cluReg c .CLU_REGROW)
  else if d.cluState c = 1 then (d.setClu c 23 20 3).okay
  else if d.retired c = true then d.okay
  else (d.retire k.tick c).okay

/-- A retirement is ordered. -/
def execRetire (m : Mst) (c : Nat) (s : State) : Host.Outcome State Fault Refusal :=
  .next { s with d := xRetire m c s.clk s.d }

/-- A write of CLU_REGROW: a reserved CMD has no effect and logs ACCESS_ERR (R186). The model's choice (assumption 127):
kind RESERVED for a reserved CMD, kind REFUSED for a COL above 7, SLVERR for both. -/
def xCluRegrow (m : Mst) (c v : Nat) (k : Clk) (d : Dev) : Dev :=
  match bitsOf v 9 8 with
  | 1 => xRegrow m c (v % 16) k d
  | 2 => xRetire m c k d
  | _ => if !m.owner then d.denyOid m (cluReg c .CLU_REGROW) else d.refuseAs m (cluReg c .CLU_REGROW) .reserved

/-- Whether a footprint cluster of slot `s` is REGROWING and not yet updated. -/
def Dev.regrowing (d : Dev) (s : Nat) : Bool := (d.footprint s).any (fun c => (d.regrow c).active && !(d.regrow c).updated)

/-- SLOT_PAUSE (R183): at a round boundary, once no frame window of the slot is open. -/
def xSlotPause (s : Nat) (k : Clk) (d : Dev) : Dev :=
  if k.cyc = 0 ∧ d.slotState s = stLive ∧ d.regrowing s = true ∧ (d.frame s).isOpen = false then d.setSlotState s stPaused
  else d

/-- A slot pauses. -/
def execSlotPause (slot : Nat) (s : State) : Host.Outcome State Fault Refusal :=
  .next { s with d := xSlotPause slot s.clk s.d }

/-- The registers of a tile page that move with its column (TILE-8, R183): owners and generators with the copy, a running
bank molt (MOLTING) with the update. -/
def movesWithColumn (r : R) : Bool := decide (r = .TMEM_OWN) || decide (r = .AGREG) || decide (r = .TMEM_STAT)

/-- Copy the owners and generators of one physical column of a cluster to the next. -/
def Dev.copyColumn (d : Dev) (c col : Nat) : Dev :=
  (upTo 8).foldl (fun x row =>
    let a := cluReg c .TMEM_OWN (row * 9 + col)
    let b := cluReg c .TMEM_OWN (row * 9 + col + 1)
    (upTo 32).foldl (fun y n =>
      y.setReg (cluReg c .AGREG (row * 9 + col + 1) n) (y.reg (cluReg c .AGREG (row * 9 + col) n)))
      (x.setReg b (x.reg a))) d

/-- What the copy reads as uncorrectable arrives poisoned (R184): logical column `j` of cluster `c`. -/
def Dev.poisonColumn (d : Dev) (c j : Nat) : Dev :=
  let up (m : Ecc) : Ecc := match m with
    | .ue s => .poison s
    | x => x
  let hit (x : Nat) : Bool :=
    let T := if x % 4 = 0 then x / 4096 else x / 256
    decide (T < 4096) && decide (tileCluster T = c) && decide (T % 8 = j)
  let hitM (x : Nat) : Bool :=
    let T := (x - 0x8000000000) / 0x10000
    decide (0x8000000000 ≤ x) && decide (x < 0x8010000000) && decide (tileCluster T = c) && decide (T % 8 = j)
  let ea := d.arr.ecc.map (fun e => if hit e.1 then (e.1, up e.2) else e)
  let em := d.ecc.map (fun e => if hitM e.1 then (e.1, up e.2) else e)
  { d with ecc := em, arr := { d.arr with ecc := ea } }

/-- TILE_ID of every page of a cluster with SHIFT_COL `f`. -/
def Dev.tileIds (d : Dev) (c f : Nat) : Dev :=
  (upTo 72).foldl (fun x p => x.setRegN (cluReg c .TILE_ID p) (tileIdOf c p f)) d

/-- Bank molts move with their columns: columns above `col` take MOLTING from the column before. -/
def Dev.moltsMove (d : Dev) (c col : Nat) : Dev :=
  (upTo 8).foldl (fun x row =>
    let r (j : Nat) : RKey := cluReg c .TMEM_STAT (row * 9 + j)
    ((upTo 9).foldl (fun y j => if col < j then y.setReg (r j) (x.reg (r (j - 1))) else y) x).setRegN (r col) 0) d

/-- The update that ends the copy (R183): SHIFT_COL, SPARE_USED, TILE_ID, RGRESULT DONE. -/
def Dev.shiftUpdate (d : Dev) (c col : Nat) : Dev :=
  ((((d.setClu c 11 8 col).setClu c 7 7 1).setClu c 23 20 1).moltsMove c col).tileIds c col

/-- A sparse map keyed by tile·`n` with what the tiles of logical column `j` of cluster `c` hold, held for the tiles that
serve no logical tile too. -/
def keepCol {α : Type} [DecidableEq α] (dflt : α) (c j n : Nat) (m : NMap α) : NMap α :=
  m.foldl (fun a e =>
    let T := e.1 / n
    if T < 4096 ∧ tileCluster T = c ∧ tileLogical T % 8 = j then
      nset dflt a (spareTile c (tileLogical T / 8) * n + e.1 % n) e.2
    else a) m

/-- The contents of the failed physical column stay where they are (R183): no logical tile maps to it. -/
def Dev.keepColumn (d : Dev) (c j : Nat) : Dev :=
  let a := d.arr
  let a1 := { a with ctx := keepCol 0 c j 1024 a.ctx, sw := keepCol 0 c j 64 a.sw, seqw := keepCol 0 c j 64 a.seqw }
  let a2 := { a1 with banks := keepCol CellBank.zero c j 64 a1.banks, mreg := keepCol 0 c j 16 a1.mreg }
  let a3 := { a2 with hop := keepCol 0 c j 32 a2.hop, held := keepCol 1 c j 32 a2.held, iso := keepCol 0 c j 32 a2.iso }
  let cells := a3.ecc.filter (fun e => decide (e.1 % 4 = 0))
  let others := a3.ecc.filter (fun e => decide (e.1 % 4 ≠ 0))
  let marks := ((keepCol .ok c j 4096 cells) ++ (keepCol .ok c j 256 others)).foldl (fun m e => nset .ok m e.1 e.2) a3.ecc
  let a4 := { a3 with tports := keepCol TPort.zero c j 2 a3.tports, ecc := marks }
  let here (x : Nat) : Bool :=
    let T := (x - 0x8000000000) / 0x10000
    decide (0x8000000000 ≤ x) && decide (T < 4096) && decide (tileCluster T = c) && decide (tileLogical T % 8 = j)
  let goal (x : Nat) : Nat :=
    let T := (x - 0x8000000000) / 0x10000
    0x8000000000 + spareTile c (tileLogical T / 8) * 0x10000 + x % 0x10000
  let d1 := (d.mem.filter (fun e => here e.1)).foldl (fun x e => x.setByte (goal e.1) e.2) { d with arr := a4 }
  { d1 with ecc := (d.ecc.filter (fun e => here e.1)).foldl (fun m e => nset .ok m (goal e.1) e.2) d.ecc }

/-- COLUMN_COPY (R183): one column, once every slot of the cluster is PAUSED or not live. -/
def xColumnCopy (c : Nat) (d : Dev) : Dev :=
  let r := d.regrow c
  if !r.active ∨ r.updated = true ∨ (d.slotsIn c).any (fun s => d.slotLive s && decide (d.slotState s ≠ stPaused)) then d
  else
    let col := 7 - r.copied
    let d0 := if col = r.col then d.keepColumn c col else d
    let d1 := ((d0.copyColumn c col).poisonColumn c col).setClu c 19 16 (r.copied + 1)
    if col = r.col then (d1.shiftUpdate c r.col).setRegrow c { r with copied := r.copied + 1, updated := true, wait := 2 }
    else d1.setRegrow c { r with copied := r.copied + 1 }

/-- A column is copied. -/
def execColumnCopy (c : Nat) (s : State) : Host.Outcome State Fault Refusal := .next { s with d := xColumnCopy c s.d }

/-- SLOT_RESUME (R171, R183): a PAUSED slot becomes LIVE, or TADPOLE where a stop has reached it, once no footprint
cluster is REGROWING. -/
def xSlotResume (s : Nat) (d : Dev) : Dev :=
  if d.slotState s = stPaused ∧ (d.footprint s).all (fun c => !(d.regrow c).active) then
    if (d.ctl s).resume then (((d.setCtl s { d.ctl s with resume := false }).setSlotState s stTadpole)).slotDone s
    else d.setSlotState s stLive
  else d

/-- A slot resumes. -/
def execSlotResume (slot : Nat) (s : State) : Host.Outcome State Fault Refusal := .next { s with d := xSlotResume slot s.d }

/-- Whether a result in flight is a result of cluster `c`. -/
def Flight.inCluster (f : Flight) (c : Nat) : Bool :=
  match f.what with
  | .cell T _ _ _ _ _ _ _ _ => tileCluster T == c
  | .mreg T _ _ _ => tileCluster T == c
  | .load T _ _ _ _ _ _ _ _ _ _ => tileCluster T == c
  | .store T _ _ _ _ _ _ => tileCluster T == c
  | .push vp _ => vp / 16 == c

/-- The NoC accesses that wait at banks of a cluster in reset are answered SLVERR (09 R261). -/
def Dev.failWaiting (d : Dev) (c : Nat) : Dev :=
  let mine := d.arr.tmemq.filter (fun r => tileCluster r.tile == c)
  let d1 := { d with arr := { d.arr with tmemq := d.arr.tmemq.filter (fun r => tileCluster r.tile != c) } }
  mine.foldl (fun x r => x.tmemFail r) d1

/-- Zero the whole of a cluster's array state and page (CELL-4, TILE-8): everything that belongs to its tiles. The
registers that survive a cluster reset are kept by `keep`. -/
def Dev.zeroCluster (d0 : Dev) (c : Nat) (keep : R → Bool) : Dev :=
  let d := d0.failWaiting c
  let here (T : Nat) : Bool := tileCluster T == c
  let a1 := { d.arr with ctx := ndrop d.arr.ctx (fun x => here (x / 1024)), sw := ndrop d.arr.sw (fun x => here (x / 64)) }
  let a2 := { a1 with seqw := ndrop a1.seqw (fun x => here (x / 64)), banks := ndrop a1.banks (fun x => here (x / 64)) }
  let a3 := { a2 with mreg := ndrop a2.mreg (fun x => here (x / 16)), hop := ndrop a2.hop (fun x => here (x / 32)) }
  let a4 := { a3 with held := ndrop a3.held (fun x => here (x / 32)), iso := ndrop a3.iso (fun x => here (x / 32)) }
  let a5 := { a4 with tports := ndrop a4.tports (fun x => here (x / 2)), fifos := a4.fifos }
  let a6 := { a5 with ecc := ndrop a5.ecc (fun x => here (if x % 4 = 0 then x / 4096 else x / 256)),
                      flight := a5.flight.filter (fun f => !f.inCluster c) }
  let inTmem (x : Nat) : Bool := decide (0x8000000000 ≤ x) && decide (x < 0x8100000000) && here ((x - 0x8000000000) / 0x10000)
  let d1 := { d with arr := a6, ecc := ndrop d.ecc inTmem, mem := d.mem.filter (fun e => !inTmem e.1) }
  let q := quarterOf c
  let l := localOf c
  d1.resetRegs (fun x => decide (x.r.desc.blk = .ARY) && x.q == q && x.i == l && !keep x.r)

/-- Registers of a tile page: a cluster reset is their reset (R156). -/
def tilePageReg (r : R) : Bool := decide (r.desc.blk = .ARY ∧ r.desc.off < 0x9000)

/-- The ARY registers that a cluster reset keeps: those outside the tile pages but CSAT (CELL-4), and TILE_ID. -/
def cluKeeps (r : R) : Bool := (!tilePageReg r && decide (r ≠ .CSAT)) || decide (r = .TILE_ID)

/-- RETIREMENT_TEARDOWN (R185): once every slot has stopped, each is molted and undefined, the cluster is molted whole and
its domain goes OFF; the end of the retirement is raised (12 R337). -/
def xRetirementTeardown (c : Nat) (d : Dev) : Dev :=
  if nget false d.arr.retiring c = false ∨ (d.slotsIn c).any (fun s => d.slotLive s || d.slotInFlight s) then d
  else
    let d1 := (d.slotsIn c).foldl (fun x s => (((x.setBusy s .idle).moltSlot s true).freeSlot s).moltDone s) d
    let d2 := d1.zeroCluster c cluKeeps
    let d3 := ((d2.setClu c 31 30 2).setClu c 23 20 2).setDom (quarterOf c) (localOf c) 2
    { d3 with arr := { d3.arr with retiring := nset false d3.arr.retiring c false } }.raiseClu c 3

/-- A retirement is carried out. -/
def execRetirementTeardown (c : Nat) (s : State) : Host.Outcome State Fault Refusal :=
  .next { s with d := xRetirementTeardown c s.d }

end Sys2Proof.Machine
end

