-- ==== Sys2Proof/Machine/Frames.lean ====
section
/-! DEFINITION. Frames (02 R45–R57): what happens to them at tick edges and round boundaries, and the row
FRAME_ADMISSION. -/

namespace Sys2Proof.Machine

/-! ### The ports of a slot -/

/-- The vertical ports of slot `s`, with their VP_CFG values. -/
def Dev.portsOf (d : Dev) (s : Nat) : List (Nat × Word) :=
  (d.footprint s).flatMap (fun c => (upTo 16).filterMap (fun n =>
    let w := d.vpCfg (c * 16 + n)
    if w.getLsbD 63 ∧ getBits w 61 60 = d.posIn s c then some (c * 16 + n, w) else none))

/-- Discard up to `n` words from the front of a port: stage, transit, FIFO, never past a mark. -/
def Dev.dropFront (d : Dev) (vp n : Nat) : Dev :=
  let t := d.vpTile vp
  let p := d.tport t.1 t.2
  let n1 := n - p.head.length
  let n2 := n1 - p.transit.length
  let a := aheadOfMark (d.fifo vp)
  (d.setFifo vp ((a.1.drop n2).map FEl.word ++ a.2)).setTport t.1 t.2
    { p with head := p.head.drop n, transit := p.transit.drop n1 }

/-- Remove the first mark of a FIFO. -/
def Dev.dropMark (d : Dev) (vp : Nat) : Dev :=
  let a := aheadOfMark (d.fifo vp)
  d.setFifo vp (a.1.map FEl.word ++ a.2.drop 1)

/-- Words of a port ahead of its first mark, the stage included. -/
def Dev.wordsAhead (d : Dev) (vp : Nat) : Nat :=
  let t := d.vpTile vp
  let p := d.tport t.1 t.2
  p.head.length + p.transit.length + (aheadOfMark (d.fifo vp)).1.length

/-- A frame ends: its declared elements that no pop has retired are discarded, and a mark within its declared count with
them (R51, 09 R267). -/
def Dev.discardUnpopped (d : Dev) (f : Frame) (v : Nat × Word) : Dev :=
  if v.2.getLsbD 62 then d
  else
    let count := getBits v.2 9 0
    let took := nget 0 f.took v.1
    let left := d.wordsAhead v.1
    let t := d.vpTile v.1
    if d.vpMark v.1 ∧ (took + left < count ∨ (left = 0 ∧ (d.tport t.1 t.2).eos = true)) then
      (d.dropFront v.1 left).dropMark v.1
    else d.dropFront v.1 (count - took)

/-! ### The end of a frame (R51, R54–R56) -/

/-- FE_LIMIT consecutive FRAME_ERRORs drain-stop the slot (20 R544). -/
def Dev.feStop (d : Dev) (now s status : Nat) : Dev :=
  let c := d.ctl s
  if status ≠ 0x06 then d.setCtl s { c with feCount := 0 }
  else
    let q := quarterOf (s / 4)
    let n := c.feCount + 1
    let d1 := d.setCtl s { c with feCount := n }
    if d.fld F.FLT_SLOTPOL_FE_LIMIT q ≠ 0 ∧ d.fld F.FLT_SLOTPOL_FE_LIMIT q ≤ n then
      ((d1.logFirst (R.FLT_SLOT_LOG.at q) (s * 2 ^ 32 + now % 2 ^ 32)).raiseClu (s / 4) 1).stopDrain now s .tadpole
    else d1

/-- A frame ends with a status after `rounds` executed rounds (R51, R54): SLOT_RUN, the FRAME source, the NODE. -/
def Dev.frameEnd (d : Dev) (now s status rounds : Nat) (exit : Bool) : Dev :=
  let f := d.frame s
  let d1 := (d.portsOf s).foldl (fun x v => x.discardUnpopped f v) d
  let d2 := d1.setRegN (slotReg s .SLOT_RUN) (status * 2 ^ 24 + b2n exit * 2 ^ 23 + rounds % 65536)
  let d3 := if status = 0 then d2.bump (slotReg s .SLOT_FRAMES) else d2
  let d4 := d3.raise (quarterOf (s / 4)) (0x0C0 + localOf (s / 4) * 4 + s % 4)
  let h := R.DSP_SLOT.at (quarterOf (s / 4)) (localOf (s / 4) * 4 + s % 4)
  let d5 := if (d4.reg h).getLsbD 62 then d4.setRegN h 0 else d4
  let d6 := d5.setFrame s { d5.frame s with phase := .idle, done := true }
  (d6.complete now f.task status (rounds % 65536 + b2n exit * 65536) 0x0A 0x00).feStop now s status

/-- A pending stop takes effect (R56, R171): TADPOLE, or the molt that asked for it. -/
def Dev.stopEffect (d : Dev) (s : Nat) : Dev :=
  let c := d.ctl s
  let d1 := d.setCtl s { c with drain := false, abort := false, after := .tadpole }
  if c.after = .molt then d1.moltBegins s else (d1.setSlotState s stTadpole).slotDone s

/-- A tick edge: a stop with abort ends the running frame, closes its window and stops the slot (R56). -/
def Dev.abortEdge (d : Dev) (now : Nat) (executed : Bool) (s : Nat) : Dev :=
  if (d.ctl s).abort = true ∧ d.slotState s = stStopping then
    let f := d.frame s
    let d1 := if f.isOpen ∧ !f.done then d.frameEnd now s 0x01 (f.round + b2n executed) f.exitTaken else d
    (d1.setFrame s Frame.none).stopEffect s
  else d

/-- Phase of round `j` without an early exit (R45). -/
def Dev.phaseAt (d : Dev) (s j : Nat) : Phase :=
  if j < d.slotP s then .prologue else if d.slotF s - d.slotE s ≤ j then .epilogue else .body

/-- The frame of slot `s` reaches the boundary that ends its round (R45, R52, R54, R55, R57). -/
def Dev.frameBoundary (d : Dev) (now s : Nat) : Dev :=
  let f := d.frame s
  if !f.isOpen then d
  else
    let j := f.round + 1
    let d1 :=
      if f.done then d.setFrame s { f with round := j }
      else if f.err then (d.frameEnd now s 0x06 j f.exitTaken).setFrame s { f with round := j, phase := .idle, done := true }
      else if f.exitAt = some j ∧ !f.exitTaken then
        if d.slotE s = 0 then
          (d.frameEnd now s 0x00 j true).setFrame s { f with round := j, phase := .idle, done := true, exitTaken := true }
        else d.setFrame s { f with round := j, phase := .epilogue, phaseStart := j, exitTaken := true }
      else if (f.exitTaken ∧ j = f.phaseStart + d.slotE s) ∨ j = d.slotF s then
        (d.frameEnd now s 0x00 j f.exitTaken).setFrame s { f with round := j, phase := .idle, done := true }
      else if f.exitTaken then d.setFrame s { f with round := j }
      else
        let ph := d.phaseAt s j
        d.setFrame s { f with round := j, phase := ph, phaseStart := if ph = f.phase then f.phaseStart else j }
    if d.slotF s ≤ j then d1.setFrame s Frame.none else d1

/-- A stop with drain takes effect at a round boundary at which no window of the slot is open (R56, R171). -/
def Dev.drainBoundary (d : Dev) (s : Nat) : Dev :=
  if (d.ctl s).drain = true ∧ d.slotState s = stStopping ∧ (d.frame s).isOpen = false then d.stopEffect s else d

/-- A START in progress counts the boundaries to LIVE (R170). -/
def Dev.startBoundary (d : Dev) (s : Nat) : Dev :=
  let c := d.ctl s
  if c.busy = .starting then d.setCtl s { c with wait := c.wait - 1 } else d

/-- An updated regrowth counts the boundaries to ACTIVE (R160, R183), where its end is raised (12 R337). -/
def Dev.regrowBoundary (d : Dev) (c : Nat) : Dev :=
  let r := d.regrow c
  if !r.updated then d
  else if r.wait ≤ 1 then ((d.setRegrow c Regrow.none).setClu c 31 30 0).raiseClu c 3
  else d.setRegrow c { r with wait := r.wait - 1 }

/-- The slots that the chip keeps a frame or a control record of. -/
def Dev.activeSlots (d : Dev) : List Nat :=
  (d.arr.frames.map (fun e => e.1) ++ d.arr.slots.map (fun e => e.1)).dedup

/-- What a tick edge does to slots: aborts at any edge, the rest at the boundary that ends an executed round. -/
def Dev.slotEdge (d : Dev) (now : Nat) (executed : Bool) : Dev :=
  let d1 := d.activeSlots.foldl (fun x s => x.abortEdge now executed s) d
  if !executed then d1
  else
    let d2 := d1.activeSlots.foldl (fun x s => x.frameBoundary now s) d1
    let d3 := d2.activeSlots.foldl (fun x s => (x.drainBoundary s).startBoundary s) d2
    (d3.arr.regrow.map (fun e => e.1)).foldl (fun x c => x.regrowBoundary c) d3

/-! ### FRAME_ADMISSION (R47) -/

/-- Conditions 4 and 5 of R47 for one port. -/
def Dev.portReady (d : Dev) (v : Nat × Word) : Bool :=
  let count := getBits v.2 9 0
  if v.2.getLsbD 62 then decide (d.vpLevel v.1 + count ≤ 512)
  else decide (count ≤ d.vpLevel v.1) || (d.vpMark v.1 && decide (count ≠ 0)) || decide (count = 0)

/-- Whether slot `s` admits a frame at the boundary at which DTIME is `b` (R47). -/
def Dev.admits (d : Dev) (s b : Nat) : Bool :=
  decide (d.slotState s = stLive) && !(d.frame s).isOpen && !d.regrowing s
    && (d.footprint s).all (fun c => d.cluDomain c == 0)
    && (d.handReg s).getLsbD 63 && decide (nget 0 d.handAt s ≤ b)
    && (d.portsOf s).all (fun v => d.portReady v)

/-- Clear the CSAT bits and EOS flags of a slot at admission (CELL-4, TILE-8). -/
def Dev.admitClear (d : Dev) (s : Nat) : Dev :=
  let d1 := (d.footprint s).foldl (fun x c =>
    (upTo 32).foldl (fun y n => y.setRegN (cluReg c .CSAT (d.posIn s c) n) 0) x) d
  (d1.portsOf s).foldl (fun x v =>
    let t := x.vpTile v.1
    x.setTport t.1 t.2 { x.tport t.1 t.2 with eos := false }) d1

/-- A frame is admitted: its window opens, its phase is set, the hand-over register is emptied (R45, R47). -/
def Dev.admitFrame (d : Dev) (s : Nat) : Dev :=
  let t := getBits (d.handReg s) 19 0
  let h := R.DSP_SLOT.at (quarterOf (s / 4)) (localOf (s / 4) * 4 + s % 4)
  let d1 := (d.admitClear s).setRegN h (2 ^ 62 + t)
  let d2 := { d1 with handAt := nset 0 d1.handAt s 0 }
  d2.setFrame s { Frame.none with isOpen := true, phase := d2.phaseAt s 0, task := t }

/-- FRAME_ADMISSION: at a round boundary, before the first cycle of an executed round. -/
def xFrameAdmission (s : Nat) (k : Clk) (d : Dev) : Dev :=
  if k.runs = true ∧ k.cyc = 0 ∧ d.admits s k.dtime = true then d.admitFrame s else d

/-- A slot admits a frame. -/
def execFrameAdmission (slot : Nat) (s : State) : Host.Outcome State Fault Refusal :=
  .next { s with d := xFrameAdmission slot s.clk s.d }

end Sys2Proof.Machine
end

