-- ==== Sys2Proof/Machine/Images.lean ====
section
/-! DEFINITION. Graph images and their loading (chapter 08): the container, the checks of IMG-9, the writes of IMG-10, the
read-back, and the row LOAD_COMPLETION. The rows FULL, PATCH, VERIFY and STATUS start a load through the queue engine. -/

namespace Sys2Proof.Machine

/-! ### Reading an image (R219–R221, R232) -/

/-- Read `n` bytes in bursts (09 R256): none where a burst is answered with an error. `fuel` bounds the bursts. -/
def Dev.readMem (d : Dev) (mid oid : Nat) : Nat → Nat → Nat → Dev × Option (List Byte)
  | 0, _, _ => (d, some [])
  | fuel + 1, a, n =>
    if n = 0 then (d, some [])
    else
      let c := Nat.min n (512 - a % 512)
      let r := d.hbm (rdReq mid oid a c) false .none
      if r.2.code ≠ .okay then (r.1, none)
      else
        let rest := r.1.readMem mid oid fuel (a + c) (n - c)
        (rest.1, rest.2.map (fun l => r.2.data ++ l))

/-- `n` bytes at offset `off` of an image as a number. -/
def im (b : List Byte) (off n : Nat) : Nat := leNat ((b.drop off).take n)

/-- A section table entry (IMG-2). -/
structure Sec where
  type : Nat
  memb : Nat
  tile : Nat
  bank : Nat
  resv : Nat
  off : Nat
  size : Nat
  deriving DecidableEq, Repr

/-- The section table of an image. -/
def secsOf (b : List Byte) : List Sec :=
  (upTo (im b 0x12 2)).map (fun i =>
    let o := im b 0x20 4 + 16 * i
    ⟨im b o 2, im b (o + 2) 1, im b (o + 3) 1, im b (o + 4) 1, im b (o + 5) 3, im b (o + 8) 4, im b (o + 12) 4⟩)

/-- The stride of an image. -/
def imStride (b : List Byte) : Nat := strideOf (im b 0x10 1)
/-- The number of members. -/
def imMembers (b : List Byte) : Nat := im b 0x11 1

/-- The section of a type, member, tile and bank. -/
def secFind (ss : List Sec) (type memb tile bank : Nat) : Option Sec :=
  ss.find? (fun s => decide (s.type = type ∧ s.memb = memb ∧ s.tile = tile ∧ s.bank = bank))

/-- Check 2 of IMG-9 on the 64 header bytes and the buffer length. -/
def headerOk (b : List Byte) (len : Nat) : Bool :=
  let n := im b 0x08 4
  decide (im b 0x00 4 = 0x49475950) && decide (im b 0x05 1 = 1) && decide (im b 0x06 2 = 64)
    && decide (im b 0x0C 4 < 4) && decide (im b 0x1A 2 = 0) && decide (im b 0x34 12 = 0)
    && decide (64 ≤ n ∧ n ≤ len) && decide (im b 0x10 1 ≤ 2) && decide (1 ≤ im b 0x11 1 ∧ im b 0x11 1 ≤ 64)
    && decide (1 ≤ im b 0x12 2) && decide (im b 0x20 4 % 16 = 0 ∧ 64 ≤ im b 0x20 4)
    && decide (im b 0x20 4 + 16 * im b 0x12 2 ≤ n) && decide (im b 0x1C 4 &&& 0x7FC0C00C = 0)

/-- The size that IMG-3 gives a section type, and its scope: 0 image, 1 member, 2 tile, 3 tile and bank. -/
def secForm (b : List Byte) (s : Sec) : Bool :=
  let n := 64 / imStride b
  let scope (k : Nat) : Bool :=
    (if k = 0 then decide (s.memb = 0xFF) else decide (s.memb < imMembers b))
      && (if k < 2 then decide (s.tile = 0xFF) else decide (s.tile < 64))
      && (if k < 3 then decide (s.bank = 0) else decide (s.bank < 4)) && decide (s.resv = 0)
  match s.type with
  | 0x0001 => scope 0 && decide (s.size = imMembers b * 4)
  | 0x0002 => scope 1 && decide (s.size % 8 = 0 ∧ s.size ≤ 192)
  | 0x0003 => scope 0 && decide (s.size = 8)
  | 0x0004 => scope 0 && decide (s.size % 32 = 0 ∧ 32 ≤ s.size ∧ s.size ≤ 512)
  | 0x0005 => scope 1 && decide (s.size = 64)
  | 0x0010 => scope 2 && decide (s.size = n * 256)
  | 0x0011 => scope 2 && decide (s.size = n * 32)
  | 0x0012 => scope 2 && decide (s.size = n * 2)
  | 0x0013 => scope 2 && decide (s.size = 64)
  | 0x0014 => scope 3 && decide (s.size % 8 = 0 ∧ s.size ≤ 16384)
  | 0x00FF => scope 0 && decide (s.size = 200) && decide (im b (s.off + 97) 3 = 0 ∧ im b (s.off + 196) 4 = 0)
  | t => decide (0x8000 ≤ t)

/-- The layout rules of R221 on the table: aligned, inside, apart from header and table, ascending and disjoint. -/
def secLayout (b : List Byte) (ss : List Sec) : Bool :=
  let t0 := im b 0x20 4
  let t1 := t0 + 16 * im b 0x12 2
  ss.all (fun s => decide (s.off % 16 = 0 ∧ s.off + s.size ≤ im b 0x08 4 ∧ 64 ≤ s.off
      ∧ (s.off + s.size ≤ t0 ∨ t1 ≤ s.off)))
    && (ss.zip (ss.drop 1)).all (fun p => decide (p.1.off ≤ p.2.off ∧ p.1.off + p.1.size ≤ p.2.off))

/-- Sections whose types may occur once for their scope do so (IMG-3); SHAPE and ENTRY once, SIG as SIGNED states, last. -/
def secCounts (b : List Byte) (ss : List Sec) : Bool :=
  let known := ss.filter (fun s => decide (s.type < 0x8000))
  let keys := known.map (fun s => (s.type, s.memb, s.tile, s.bank))
  let cnt (t : Nat) : Nat := (ss.filter (fun s => decide (s.type = t))).length
  decide (keys.dedup.length = keys.length) && decide (cnt 1 = 1) && decide (cnt 4 = 1)
    && decide (cnt 0xFF = im b 0x0C 4 % 2) && ss.dropLast.all (fun s => decide (s.type ≠ 0xFF))

/-- A signed byte. -/
def sbyte (n : Nat) : Int := signedOf n 8

/-- A shape record (IMG-4): column offset, row offset, borders, reserved byte. -/
def shapeOf (b : List Byte) (ss : List Sec) (m : Nat) : Int × Int × Nat × Nat :=
  match secFind ss 1 0xFF 0xFF 0 with
  | some s => (sbyte (im b (s.off + 4 * m) 1), sbyte (im b (s.off + 4 * m + 1) 1), im b (s.off + 4 * m + 2) 1,
      im b (s.off + 4 * m + 3) 1)
  | none => (0, 0, 0, 0)

/-- The member across border `i` of member `m`. -/
def shapeAcross (b : List Byte) (ss : List Sec) (m i : Nat) : Option Nat :=
  let x := shapeOf b ss m
  let dx : Int := if i = 1 then 1 else if i = 3 then -1 else 0
  let dy : Int := if i = 0 then -1 else if i = 2 then 1 else 0
  (upTo (imMembers b)).find? (fun k => (shapeOf b ss k).1 == x.1 + dx && (shapeOf b ss k).2.1 == x.2.1 + dy)

/-- The first member whose shape record breaks R222. -/
def shapeBad (b : List Byte) (ss : List Sec) : Option Nat :=
  let n := imMembers b
  (upTo n).find? (fun m =>
    let x := shapeOf b ss m
    !(decide (-7 ≤ x.1 ∧ x.1 ≤ 7) && decide (0 ≤ x.2.1 ∧ x.2.1 ≤ 7) && decide (x.2.2.1 < 16) && decide (x.2.2.2 = 0)
      && (if m = 0 then decide (x.1 = 0 ∧ x.2.1 = 0) else decide (0 < x.2.1 ∨ (x.2.1 = 0 ∧ 0 < x.1)))
      && (upTo m).all (fun k => !((shapeOf b ss k).1 == x.1 && (shapeOf b ss k).2.1 == x.2.1))
      && (upTo 4).all (fun i => !x.2.2.1.testBit i || (match shapeAcross b ss m i with
        | some k => (shapeOf b ss k).2.2.1.testBit ((i + 2) % 4)
        | none => false))))

/-- A port record (IMG-5). -/
structure PortRec where
  memb : Nat
  leap : Bool
  num : Nat
  tile : Nat
  dir : Nat
  count : Nat
  ok : Bool
  deriving DecidableEq, Repr

/-- The port records of an image. -/
def portRecs (b : List Byte) (ss : List Sec) : List PortRec :=
  (ss.filter (fun s => decide (s.type = 2))).flatMap (fun s => (upTo (s.size / 8)).map (fun i =>
    let o := s.off + 8 * i
    let kind := im b o 1
    let num := im b (o + 1) 1
    let tile := im b (o + 2) 1
    let dir := im b (o + 3) 1
    let cnt := im b (o + 4) 2
    ⟨s.memb, kind == 1, num, tile, dir, cnt, decide (kind < 2 ∧ num < 16 ∧ tile < 64 ∧ dir < 4 ∧ im b (o + 6) 2 = 0
      ∧ (if kind = 1 then cnt = 0 else cnt ≤ 512))⟩))

/-- The first port record that breaks R223: its own form, or a vertical port or a port position that an earlier record of
the member has. -/
def portBad (ps : List PortRec) : Option PortRec :=
  (ps.zip (upTo ps.length)).findSome? (fun x =>
    let p := x.1
    let before := (ps.take x.2).filter (fun r => decide (r.memb = p.memb))
    if !p.ok || before.any (fun r => decide (r.tile = p.tile ∧ r.dir % 2 = p.dir % 2) || (!r.leap && !p.leap && decide (r.num = p.num)))
    then some p else none)

/-- FLAGS LEAP is set exactly when some port record names a leap port (check 3). -/
def leapFlagOk (b : List Byte) (ss : List Sec) : Bool := (im b 0x0C 4).testBit 1 == (portRecs b ss).any (fun p => p.leap)

/-- The bank mask that BANKS gives a tile of a member. -/
def banksOf (b : List Byte) (ss : List Sec) (m t : Nat) : Nat :=
  match secFind ss 5 m 0xFF 0 with
  | some s => im b (s.off + t) 1
  | none => 0

/-- Check 3: the first section at fault gives member and tile; 0xFF, 0xFF where the table itself is at fault. -/
def sectionCheck (b : List Byte) (ss : List Sec) : Option (Nat × Nat) :=
  if !secLayout b ss then some (0xFF, 0xFF)
  else match ss.find? (fun s => !secForm b s) with
    | some s => some (s.memb, s.tile)
    | none =>
      if !secCounts b ss then some (0xFF, 0xFF)
      else match shapeBad b ss with
      | some m => some (m, 0xFF)
      | none => match portBad (portRecs b ss) with
      | some p => some (p.memb, p.tile)
      | none => if !leapFlagOk b ss then some (0xFF, 0xFF)
      else match ss.find? (fun s => decide (s.type = 0x14) && !(banksOf b ss s.memb s.tile).testBit s.bank) with
        | some s => some (s.memb, s.tile)
        | none => match ss.find? (fun s => decide (s.type = 5) && (upTo 64).any (fun t => decide (16 ≤ im b (s.off + t) 1))) with
          | some s => some (s.memb, 0xFF)
          | none => none

/-- The sections that a PATCH selects by SEL_MEMBER, SEL_TILE and SEL_UNITS (R238). -/
def secSelected (units selM selT : Nat) (s : Sec) : Bool :=
  (selM == 0xFF || selM == s.memb) && (selT == 0xFF || selT == s.tile)
    && ((decide (s.type = 0x10) && units.testBit 0) || (decide (s.type = 0x11) && units.testBit 1)
      || (decide (s.type = 0x12) && units.testBit 2) || (decide (s.type = 0x13) && units.testBit 3))

/-- Check 3 of a PATCH: layout, form and count of the selected sections (R238, assumption 129). -/
def sectionCheckSel (b : List Byte) (ss : List Sec) : Option (Nat × Nat) :=
  let keys := ss.map (fun s => (s.type, s.memb, s.tile, s.bank))
  if !secLayout b ss || decide (keys.dedup.length ≠ keys.length) then some (0xFF, 0xFF)
  else (ss.find? (fun s => !secForm b s)).map (fun s => (s.memb, s.tile))

/-- One byte of CRC-32C, reflected. -/
def crcByte (c : Nat) (x : Byte) : Nat :=
  (upTo 8).foldl (fun r _ => if r % 2 = 1 then r / 2 ^^^ 0x82F63B78 else r / 2) (c ^^^ x.toNat)

/-- CRC-32C of a byte string (R220). -/
def crc32c (l : List Byte) : Nat := l.foldl crcByte 0xFFFFFFFF ^^^ 0xFFFFFFFF

/-- The bytes that the CRC of an image covers: the CRC field as zero, the SIG section left out. -/
def crcBytes (b : List Byte) (ss : List Sec) : List Byte :=
  let z := b.take 0x24 ++ [0, 0, 0, 0] ++ b.drop 0x28
  match secFind ss 0xFF 0xFF 0xFF 0 with
  | some s => z.take s.off ++ z.drop (s.off + s.size)
  | none => z

/-- The image identity (R220). -/
def imIdent (b : List Byte) : Nat := im b 0x24 4 + im b 0x28 4 * 2 ^ 32

/-! ### What an image gives each place (R224, R229) -/

/-- The entry of cell `n` at context index `k`, as stored. -/
def imCtx (b : List Byte) (ss : List Sec) (m t n k : Nat) : Nat :=
  match secFind ss 0x10 m t 0 with
  | some s => im b (s.off + k / imStride b * 256 + n * 16) 12
  | none => 0

/-- The switch entry at context index `k`. -/
def imSw (b : List Byte) (ss : List Sec) (m t k : Nat) : Nat :=
  match secFind ss 0x11 m t 0 with
  | some s => im b (s.off + k / imStride b * 32) 32
  | none => 0

/-- The sequencer word at context index `k`. -/
def imSeq (b : List Byte) (ss : List Sec) (m t k : Nat) : Nat :=
  match secFind ss 0x12 m t 0 with
  | some s => im b (s.off + k / imStride b * 2) 2
  | none => 0

/-- Address generator `n` of the slot's position. -/
def imAg (b : List Byte) (ss : List Sec) (m t n : Nat) : Nat :=
  match secFind ss 0x13 m t 0 with
  | some s => im b (s.off + 8 * n) 8
  | none => 0

/-- Word `w` of a bank. -/
def imTmem (b : List Byte) (ss : List Sec) (m t bk w : Nat) : Nat :=
  match secFind ss 0x14 m t bk with
  | some s => if 8 * w < s.size then im b (s.off + 8 * w) 8 else 0
  | none => 0

/-- GFPn. -/
def imGfp (b : List Byte) (ss : List Sec) (n : Nat) : Nat :=
  match secFind ss 3 0xFF 0xFF 0 with
  | some s => im b (s.off + 2 * n) 2
  | none => 0

/-- The placed cluster of a member, if it has one (R228). -/
def placeOf (b : List Byte) (ss : List Sec) (anchor m : Nat) : Option Nat :=
  let x := shapeOf b ss m
  let r : Int := anchor / 8 + x.2.1
  let c : Int := ((anchor % 8 : Nat) : Int) + x.1
  if 0 ≤ c ∧ c ≤ 7 ∧ 0 ≤ r ∧ r ≤ 7 then some (r.toNat * 8 + c.toNat) else none

/-! ### Checks 5 to 10 of IMG-9 -/

/-- Whether a graph-signing key exists: the configured key hash is not all zero (R227). -/
def Dev.hasGkey (d : Dev) : Bool := (upTo 12).any (fun w => d.reg (R.AO_GKHASH.at 0 w) != 0)

/-- The configured key hash, its 48 bytes in order. -/
def Dev.gkey (d : Dev) : List Byte := (upTo 12).flatMap (fun w => leBytes (d.regN (R.AO_GKHASH.at 0 w)) 4)

/-- Check 5 (R227): the key hash matches and the signature verifies over the bytes ahead of the SIG section; an image without
a signature is accepted unless the policy is REQUIRED. -/
def Dev.sigOk (d : Dev) (b : List Byte) (ss : List Sec) : Bool :=
  if im b 0x0C 4 % 2 = 1 then
    d.hasGkey && (match secFind ss 0xFF 0xFF 0xFF 0 with
      | some s => sigBlockOk ((b.drop s.off).take 200) d.gkey (b.take s.off)
      | none => false)
  else !(d.reg (R.AO_GPOLICY.at 0)).getLsbD 0

/-- Check 6. -/
def paramsOk (b : List Byte) : Bool :=
  let e := im b 0x1C 4
  decide (1 ≤ im b 0x14 2) && decide (im b 0x16 2 + im b 0x18 2 ≤ im b 0x14 2)
    && (!e.testBit 31 || decide (bitsOf e 21 16 < imMembers b))

/-- Whether a member of a placed image crosses a quarter edge by a border of its shape (R230). -/
def crossesEdge (b : List Byte) (ss : List Sec) (anchor m : Nat) : Bool :=
  (upTo 4).any (fun i => (shapeOf b ss m).2.2.1.testBit i &&
    (match shapeAcross b ss m i with
    | some k => decide ((placeOf b ss anchor m).map quarterOf ≠ (placeOf b ss anchor k).map quarterOf)
    | none => true))

/-- Check 7: stride and shape match the slot, and no border of the shape is a quarter edge (R228, R230); the member at
fault, 0xFF for the whole. -/
def Dev.shapeFault (d : Dev) (s : Nat) (b : List Byte) (ss : List Sec) : Option Nat :=
  let n := imMembers b
  if (d.posClass (s / 4) (s % 4)).1 ≠ imStride b then some 0xFF
  else match (upTo n).find? (fun m => (placeOf b ss (s / 4) m).isNone) with
    | some m => some m
    | none =>
      let cs := (upTo n).filterMap (placeOf b ss (s / 4))
      if !cs.all (fun c => (d.footprint s).contains c) || decide (cs.length ≠ (d.footprint s).length) then some 0xFF
      else (upTo n).find? (crossesEdge b ss (s / 4))

/-- The cell entries of one tile at one index are free of reserved encodings (check 8). -/
def cellsOk (b : List Byte) (ss : List Sec) (m t k : Nat) : Bool :=
  let raw := (upTo 16).map (fun n => imCtx b ss m t n k)
  let es := raw.map (fun v => entryOf (BitVec.ofNat 96 v))
  (upTo 16).all (fun n => !cellBad es n && decide (bitsOf (raw.getD n 0) 63 54 = 0)
      && (decide ((entAt es n) = entryOf 0) || !srcIll (entAt es n)))
    && (match secFind ss 0x10 m t 0 with
      | some s => (upTo 16).all (fun n => decide (im b (s.off + k / imStride b * 256 + n * 16 + 12) 4 = 0))
      | none => true)

/-- A switch entry is free of reserved encodings. -/
def switchOk (sw : Nat) : Bool :=
  let se := swEntryOf (BitVec.ofNat 256 sw)
  decide (sw / 2 ^ 102 = 0) && se.sel.all (fun c => decide (swSrcOf c ≠ some .reserved))
    && decide (swSrcOf se.push0 ≠ some .reserved) && decide (swSrcOf se.push1 ≠ some .reserved)

/-- A sequencer word is free of reserved encodings. -/
def seqOk (sq : Nat) : Bool := decide (sq &&& 0xFF88 = 0) && decide (bitsOf sq 6 4 < 5)

/-- Check 8 on one tile: the entries of `units` at every owned index, and AGINIT. -/
def tileEncOk (b : List Byte) (ss : List Sec) (units m t : Nat) : Bool :=
  (upTo (64 / imStride b)).all (fun j =>
      (!units.testBit 0 || cellsOk b ss m t (j * imStride b))
        && (!units.testBit 1 || switchOk (imSw b ss m t (j * imStride b)))
        && (!units.testBit 2 || seqOk (imSeq b ss m t (j * imStride b))))
    && (!units.testBit 3 || (upTo 8).all (fun n => decide (imAg b ss m t n &&& 0xF000F800F800F800 = 0)))

/-- Check 8 over the selected members, tiles and units: the first at fault. -/
def encCheck (b : List Byte) (ss : List Sec) (units selM selT : Nat) : Option (Nat × Nat) :=
  ((upTo (imMembers b)).flatMap (fun m => (upTo 64).map (fun t => (m, t)))).find? (fun x =>
    (selM == 0xFF || selM == x.1) && (selT == 0xFF || selT == x.2) && !tileEncOk b ss units x.1 x.2)

/-- The VP_CFG or LPB value of a port record at position `p` of cluster `c` (R231). -/
def portValue (r : PortRec) (c p : Nat) : Nat :=
  let g := if r.num / 8 % 2 = 0 then c / 8 % 4 else c % 4
  2 ^ 63 + r.dir / 2 % 2 * 2 ^ 62 + p * 2 ^ 60 + r.tile * 2 ^ 48 + r.dir % 2 * 2 ^ 40
    + (if r.leap then r.num / 8 % 2 * 2 ^ 33 + (8 * g + r.num % 8) else r.count)

/-- Whether a bound register value of cluster `c` belongs to slot `s`. -/
def Dev.bindMine (d : Dev) (s c : Nat) (w : Word) : Bool := getBits w 61 60 == d.posIn s c && d.posValid c (getBits w 61 60)
  && d.posSlot c (getBits w 61 60) == s

/-- The register that a port record of cluster `c` writes: the named VP_CFG, or the LPB that binds the port already or else
the lowest free one. -/
def Dev.portReg (d : Dev) (r : PortRec) (c : Nat) (w : Word) : Option RKey :=
  if !r.leap then some (cluReg c .VP_CFG r.num)
  else
    let same (i : Nat) : Bool := (let u := d.reg (cluReg c .LPB i)
      u.getLsbD 63 && u.getLsbD 62 == w.getLsbD 62 && getBits u 33 33 == getBits w 33 33 && getBits u 4 0 == getBits w 4 0)
    match (upTo 8).find? same with
    | some i => some (cluReg c .LPB i)
    | none => ((upTo 8).find? (fun i => !(d.reg (cluReg c .LPB i)).getLsbD 63)).map (fun i => cluReg c .LPB i)

/-- Whether a port record can be bound for slot `s` (check 9). -/
def Dev.portFree (d : Dev) (s : Nat) (b : List Byte) (ss : List Sec) (r : PortRec) : Bool :=
  match placeOf b ss (s / 4) r.memb with
  | none => false
  | some c =>
    let w := BitVec.ofNat 64 (portValue r c (d.posIn s c))
    match d.portReg r c w with
    | none => false
    | some x =>
      let u := d.reg x
      let mineOrFree (v : Word) : Bool := !v.getLsbD 63 || d.bindMine s c v
      mineOrFree u
        && (upTo 16).all (fun n => !bindsTile (d.reg (cluReg c .VP_CFG n)) r.tile (r.dir % 2) || d.bindMine s c (d.reg (cluReg c .VP_CFG n)))
        && (upTo 8).all (fun i => !bindsTile (d.reg (cluReg c .LPB i)) r.tile (r.dir % 2) || d.bindMine s c (d.reg (cluReg c .LPB i)))
        && (!r.leap || (leapReach c w &&
          (let ch := leapChan c (getBits w 33 33) (getBits w 4 0) (w.getLsbD 62)
           let far := if w.getLsbD 62 then leapTo ch else leapFrom ch
           (portRecs b ss).any (fun q => q.leap && q.num == r.num && (q.dir / 2 % 2 != r.dir / 2 % 2)
             && placeOf b ss (s / 4) q.memb == some far))))

/-- Whether the banks that BANKS names for a tile can be handed over (check 9). -/
def Dev.banksFree (d : Dev) (c T mask : Nat) : Bool :=
  (onesOf mask 4).all (fun k =>
    let own := getBits (d.reg (d.tileReg T .TMEM_OWN)) (4 * k + 3) (4 * k)
    !d.ownLive c own && !d.bankMolting T k)

/-- The binding of one port record: none where it cannot be made. Step 6 is `strict`: it writes as R178 lets it, so a port
position that another port of the slot still binds refuses it; check 9 takes it as already bound to the slot. An accepted
write that changes a vertical binding empties the port (R178); a leap binding sets the hold value to 0. -/
def Dev.bindOne (d : Dev) (strict : Bool) (s : Nat) (b : List Byte) (ss : List Sec) (r : PortRec) : Option Dev :=
  if !d.portFree s b ss r then none
  else match placeOf b ss (s / 4) r.memb with
    | none => none
    | some c =>
      let w := BitVec.ofNat 64 (portValue r c (d.posIn s c))
      match d.portReg r c w with
      | none => none
      | some x =>
        if strict && d.tpTaken c w x then none
        else if d.reg x = w then some d
        else
          let d1 := if r.leap then d.leapRelease c w else if (d.reg x).getLsbD 63 then d.emptyPort (c * 16 + r.num) else d
          some (d1.setReg x w)

/-- Step 6: the bindings of the port records; none where one cannot be made. -/
def Dev.bindAll (d : Dev) (s : Nat) (b : List Byte) : List PortRec → Option Dev
  | [] => some d
  | r :: rest =>
    match d.bindOne true s b (secsOf b) r with
    | none => none
    | some d1 => d1.bindAll s b rest

/-- The first port record, in order, that cannot be bound. -/
def Dev.bindFault (d : Dev) (strict : Bool) (s : Nat) (b : List Byte) : List PortRec → Option PortRec
  | [] => none
  | r :: rest =>
    match d.bindOne strict s b (secsOf b) r with
    | none => some r
    | some d1 => d1.bindFault strict s b rest

/-- Check 9: the first member and tile at fault. -/
def Dev.bindCheck (d : Dev) (s : Nat) (b : List Byte) (ss : List Sec) : Option (Nat × Nat) :=
  match d.bindFault false s b (portRecs b ss) with
  | some r => some (r.memb, r.tile)
  | none =>
    ((upTo (imMembers b)).flatMap (fun m => (upTo 64).map (fun t => (m, t)))).find? (fun x =>
      match placeOf b ss (s / 4) x.1 with
      | some c => !d.banksFree c (tileOf c x.2) (banksOf b ss x.1 x.2)
      | none => false)

/-- The entry points of an image (IMG-6). -/
def epsOf (b : List Byte) (ss : List Sec) : List EpRec :=
  match secFind ss 4 0xFF 0xFF 0 with
  | none => []
  | some s => (upTo (s.size / 32)).map (fun i =>
      let o := s.off + 32 * i
      ⟨im b o 1, im b (o + 1) 1, im b (o + 4) 4, im b (o + 8) 4, [im b (o + 12) 2, im b (o + 14) 2, im b (o + 16) 2]⟩)

/-- Check 10 (R226). -/
def entriesOk (b : List Byte) (ss : List Sec) : Bool :=
  let es := epsOf b ss
  let resv := match secFind ss 4 0xFF 0xFF 0 with
    | none => true
    | some s => (upTo (s.size / 32)).all (fun i => decide (im b (s.off + 32 * i + 2) 2 = 0 ∧ im b (s.off + 32 * i + 18) 2 = 0))
  resv && decide ((es.map (fun e => e.ep)).dedup.length = es.length)
    && es.all (fun e => decide (e.ep < 16 ∧ e.flags < 8) && (e.flags.testBit 0 || decide (e.proFn = 0))
      && (e.flags.testBit 1 || decide (e.epiFn = 0))
      && e.bufs.all (fun f => decide (bitsOf f 7 4 = 0) && (!f.testBit 15 || (portRecs b ss).any (fun p =>
          !p.leap && decide (p.memb = bitsOf f 13 8 ∧ p.num = f % 16) && (p.dir.testBit 1 == f.testBit 14)))))

/-! ### The requests (R232–R240) -/

/-- A load request (IMG-8), with the record of its command. -/
structure LoadReq where
  slot : Nat
  mode : Nat
  oid : Nat
  addr : Nat
  len : Nat
  selM : Nat
  selT : Nat
  units : Nat
  cmd : Nat
  deriving DecidableEq, Repr

/-- The status of a result code (IMG-12). -/
def loadStatus (code : Nat) : Nat :=
  if code = 0 then 0x00
  else if code = 0x01 ∨ code = 0x07 ∨ code = 0x09 then 0x0A
  else if code = 0x0C then 0x03
  else if code = 0x0D ∨ code = 0x0F then 0x0C
  else if code = 0x0E then 0x01
  else 0x0B

/-- The 32-bit result (R240). -/
def loadResult (code memb tile rcd : Nat) : Nat := code + memb * 2 ^ 8 + tile * 2 ^ 16 + rcd * 2 ^ 24

/-- A load command ends. -/
def Dev.loadEnd (d : Dev) (cmd code memb tile rcd : Nat) : Dev := d.endCmd cmd (loadStatus code) (loadResult code memb tile rcd)

/-- Check 1 of a mode (R233, R238). -/
def Dev.loadState (d : Dev) (r : LoadReq) : Bool :=
  let s := r.slot
  let st := d.cmdState s
  d.posValid (s / 4) (s % 4) && !d.slotBusy s && (nget none d.loading s).isNone
    && (if r.mode = 0 then decide (st = stStopped) && decide ((d.load s).st ≠ 2)
      else (decide (st = stStopped) || decide (st = stTadpole)) && decide ((d.load s).st = 2))

/-- Checks 2 to 10 on an image that was read: none, or the code with member and tile at fault. -/
def Dev.imageCheck (d : Dev) (r : LoadReq) (b : List Byte) : Option (Nat × Nat × Nat) :=
  let ss := secsOf b
  let full := r.mode = 0
  let sel := if r.mode = 1 then (r.selM, r.selT) else (0xFF, 0xFF)
  match (if r.mode = 1 then sectionCheckSel b (ss.filter (secSelected r.units r.selM r.selT)) else sectionCheck b ss) with
  | some x => some (0x03, x.1, x.2)
  | none =>
    if crc32c (crcBytes b ss) ≠ im b 0x24 4 then some (0x04, 0xFF, 0xFF)
    else if !full && decide (imIdent b ≠ (d.load r.slot).ident) then some (0x0B, 0xFF, 0xFF)
    else if !d.sigOk b ss then some (0x05, 0xFF, 0xFF)
    else if full ∧ paramsOk b = false then some (0x06, 0xFF, 0xFF)
    else match (if full then d.shapeFault r.slot b ss else none) with
    | some m => some (0x07, m, 0xFF)
    | none => match encCheck b ss (if r.mode = 1 then r.units else 15) sel.1 sel.2 with
      | some x => some (0x08, x.1, x.2)
      | none =>
        if !full then none
        else match d.bindCheck r.slot b ss with
          | some x => some (0x09, x.1, x.2)
          | none => if entriesOk b ss then none else some (0x0A, 0xFF, 0xFF)

/-! ### The writes (IMG-10) -/

/-- Write one context entry, with valid check bits (R238). -/
def Dev.putCtx (d : Dev) (T n k v : Nat) : Dev :=
  let key := (T * 16 + n) * 64 + k
  let a := { d.arr with ctx := nset 0 d.arr.ctx key (BitVec.ofNat 96 v) }
  { d with arr := { a with ecc := nset .ok a.ecc (eccCtx T n k) .ok } }

/-- Write one switch entry. -/
def Dev.putSw (d : Dev) (T k v : Nat) : Dev :=
  let a := { d.arr with sw := nset 0 d.arr.sw (T * 64 + k) (BitVec.ofNat 256 v) }
  { d with arr := { a with ecc := nset .ok a.ecc (eccSw T k) .ok } }

/-- Write one sequencer word. -/
def Dev.putSeq (d : Dev) (T k v : Nat) : Dev :=
  let a := { d.arr with seqw := nset 0 d.arr.seqw (T * 64 + k) (BitVec.ofNat 16 v) }
  { d with arr := { a with ecc := nset .ok a.ecc (eccSeq T k) .ok } }

/-- The indices of the residue class of slot `s`. -/
def Dev.ownedIdx (d : Dev) (s : Nat) : List Nat :=
  let cl := d.posClass (s / 4) (s % 4)
  (upTo (64 / cl.1)).map (fun j => cl.1 * j + cl.2)

/-- Write the entries of one tile from the image: units cells, switch, sequencer, generators as bits 0 to 3. -/
def Dev.writeTile (d : Dev) (s : Nat) (b : List Byte) (units m c t : Nat) : Dev :=
  let ss := secsOf b
  let T := tileOf c t
  let p := d.posIn s c
  let d1 := (d.ownedIdx s).foldl (fun x k =>
    let x1 := if units.testBit 0 then (upTo 16).foldl (fun y n => y.putCtx T n k (imCtx b ss m t n k)) x else x
    let x2 := if units.testBit 1 then x1.putSw T k (imSw b ss m t k) else x1
    if units.testBit 2 then x2.putSeq T k (imSeq b ss m t k) else x2) d
  if units.testBit 3 then
    (upTo 8).foldl (fun x n => x.setRegN (x.tileReg T .AGREG (p * 8 + n)) (imAg b ss m t n)) d1
  else d1

/-- The members of an image with their placed clusters. -/
def membersOf (s : Nat) (b : List Byte) : List (Nat × Nat) :=
  (upTo (imMembers b)).filterMap (fun m => (placeOf b (secsOf b) (s / 4) m).map (fun c => (m, c)))

/-- The banks that BANKS names: member, cluster, tile and bank. -/
def bankList (s : Nat) (b : List Byte) : List (Nat × Nat × Nat × Nat) :=
  (membersOf s b).flatMap (fun mc => (upTo 64).flatMap (fun t =>
    (onesOf (banksOf b (secsOf b) mc.1 t) 4).map (fun k => (mc.1, mc.2, t, k))))

/-- The handovers of step 4 that a molt of step 1 holds back (R234): those that BANKS names and that molt. -/
def Dev.lateBanks (d : Dev) (s : Nat) (b : List Byte) : List (Nat × Nat × Nat) :=
  ((bankList s b).filter (fun x => d.bankMolting (tileOf x.2.1 x.2.2.1) x.2.2.2)).map (fun x => (x.1, x.2.2.1, x.2.2.2))

/-- The other handovers of step 4: each bank goes to the slot's position and molts (R150). -/
def Dev.takeBanks (d : Dev) (s : Nat) (b : List Byte) : Dev :=
  ((bankList s b).filter (fun x => !d.bankMolting (tileOf x.2.1 x.2.2.1) x.2.2.2)).foldl (fun y x =>
    y.handover (tileOf x.2.1 x.2.2.1) x.2.2.2 (8 + y.posIn s x.2.1)) d

/-- The handovers that waited, once the molt of step 1 is over; one that R149 refuses is the fault. -/
def Dev.takeLate (d : Dev) (s : Nat) (b : List Byte) : List (Nat × Nat × Nat) → Dev × Option (Nat × Nat)
  | [] => (d, none)
  | (m, t, k) :: r =>
    match placeOf b (secsOf b) (s / 4) m with
    | none => (d, some (m, t))
    | some c =>
      let T := tileOf c t
      let own := getBits (d.reg (d.tileReg T .TMEM_OWN)) (4 * k + 3) (4 * k)
      let d1 := if own = 0 then d.setBit (d.tileReg T .TMEM_STAT) k false else d
      if d1.handoverOk c T k own (8 + d.posIn s c) then (d1.handover T k (8 + d.posIn s c)).takeLate s b r
      else (d1, some (m, t))

/-- The words of the banks that the slot's position owns, once their molts are over: step 4 ends. -/
def Dev.writeBanks (d : Dev) (s : Nat) (b : List Byte) : Dev :=
  (bankList s b).foldl (fun x e =>
    let T := tileOf e.2.1 e.2.2.1
    let k := e.2.2.2
    if getBits (x.reg (x.tileReg T .TMEM_OWN)) (4 * k + 3) (4 * k) ≠ 8 + x.posIn s e.2.1 then x
    else
      let y := (x.setBit (x.tileReg T .TMEM_STAT) k false).tmemZero T k
      match secFind (secsOf b) 0x14 e.1 e.2.2.1 k with
      | some sec => (upTo (sec.size / 8)).foldl (fun z w =>
          z.tmemWrite T k w (BitVec.ofNat 64 (imTmem b (secsOf b) e.1 e.2.2.1 k w))) y
      | none => y) d

/-- The end of step 4: the handovers that waited, then the words. -/
def Dev.endBanks (d : Dev) (s : Nat) (l : LoadJob) : Dev × Option (Nat × Nat) :=
  if l.mode ≠ 0 then (d, none)
  else
    let x := d.takeLate s l.bytes l.late
    match x.2 with
    | some f => (x.1, some f)
    | none => (x.1.writeBanks s l.bytes, none)

/-- SLOT_EXIT of an image, its member replaced by the placed cluster. -/
def exitOf (s : Nat) (b : List Byte) : Nat :=
  let e := im b 0x1C 4
  if e.testBit 31 then
    match placeOf b (secsOf b) (s / 4) (bitsOf e 21 16) with
    | some c => setBitsN e 21 16 c
    | none => e
  else e

/-- Steps 1 to 3 of IMG-10. -/
def Dev.stepsFull (d : Dev) (s oid : Nat) (b : List Byte) : Dev :=
  let ss := secsOf b
  let d1 := (d.footprint s).foldl (fun x c => (upTo 64).foldl (fun y t => y.moltBanks (d.posIn s c) true (tileOf c t)) x) d
  let d2 := ((d1.setRegN (slotReg s .SLOT_OID) oid).setRegN (slotReg s .SLOT_FRAME)
    (im b 0x14 2 + im b 0x16 2 * 2 ^ 16 + im b 0x18 2 * 2 ^ 32)).setRegN (slotReg s .SLOT_EXIT) (exitOf s b)
  let d3 := (d.footprint s).foldl (fun x c =>
    (upTo 4).foldl (fun y n => y.setRegN (cluReg c .GFP (d.posIn s c) n) (imGfp b ss n)) x) d2
  (membersOf s b).foldl (fun x mc => (upTo 64).foldl (fun y t => y.writeTile s b 15 mc.1 mc.2 t) x) d3

/-- What a PATCH rewrites (R238). -/
def Dev.writePatch (d : Dev) (s : Nat) (b : List Byte) (units selM selT : Nat) : Dev :=
  ((membersOf s b).filter (fun mc => selM == 0xFF || selM == mc.1)).foldl (fun x mc =>
    ((upTo 64).filter (fun t => selT == 0xFF || selT == t)).foldl (fun y t => y.writeTile s b units mc.1 mc.2 t) x) d

/-! ### Read-back (R235, R238) -/

/-- Whether one entry reads back as the image gives it: value and no uncorrectable mark. -/
def Dev.entryIs (d : Dev) (key v want : Nat) : Bool := (d.mark key).bad.isNone && decide (v = want)

/-- Whether the entries of one tile read back as the image gives them. -/
def Dev.tileIs (d : Dev) (s : Nat) (b : List Byte) (units m c t : Nat) : Bool :=
  let ss := secsOf b
  let T := tileOf c t
  (d.ownedIdx s).all (fun k =>
    (!units.testBit 0 || (upTo 16).all (fun n => d.entryIs (eccCtx T n k)
        (nget 0 d.arr.ctx ((T * 16 + n) * 64 + k)).toNat (imCtx b ss m t n k % 2 ^ 96)))
      && (!units.testBit 1 || d.entryIs (eccSw T k) (nget 0 d.arr.sw (T * 64 + k)).toNat (imSw b ss m t k % 2 ^ 256))
      && (!units.testBit 2 || d.entryIs (eccSeq T k) (nget 0 d.arr.seqw (T * 64 + k)).toNat (imSeq b ss m t k % 2 ^ 16)))
    && (!units.testBit 3 || (upTo 8).all (fun n =>
        decide (d.regN (d.tileReg T .AGREG (d.posIn s c * 8 + n)) = imAg b ss m t n)))

/-- Whether the banks that BANKS names in one tile read back as given; where `own` is asked, they are still the slot's
position's (IMG-13). -/
def Dev.banksAre (d : Dev) (s : Nat) (b : List Byte) (own : Bool) (m c t : Nat) : Bool :=
  let ss := secsOf b
  let T := tileOf c t
  (onesOf (banksOf b ss m t) 4).all (fun k =>
    (!own || decide (getBits (d.reg (d.tileReg T .TMEM_OWN)) (4 * k + 3) (4 * k) = 8 + d.posIn s c)) && (upTo 2048).all (fun w =>
    (nget Ecc.ok d.ecc (tmemAddr T k w)).bad.isNone && decide (d.memN (tmemAddr T k w) 8 = imTmem b ss m t k w)))

/-- Whether the registers of step 2 read back as given. -/
def Dev.regsAre (d : Dev) (s : Nat) (b : List Byte) : Bool :=
  let ss := secsOf b
  decide (d.regN (slotReg s .SLOT_FRAME) = im b 0x14 2 + im b 0x16 2 * 2 ^ 16 + im b 0x18 2 * 2 ^ 32)
    && decide (d.regN (slotReg s .SLOT_EXIT) = exitOf s b)
    && (d.footprint s).all (fun c => (upTo 4).all (fun n => decide (d.regN (cluReg c .GFP (d.posIn s c) n) = imGfp b ss n)))

/-- The first place that does not read back as the image gives it. -/
def Dev.readBack (d : Dev) (s : Nat) (l : LoadJob) : Option (Nat × Nat) :=
  let full := l.mode ≠ 1
  if (full ∧ d.regsAre s l.bytes = false) ∨ (l.mode = 0 ∧ d.regN (slotReg s .SLOT_OID) ≠ l.oid) then some (0xFF, 0xFF)
  else
    (((membersOf s l.bytes).flatMap (fun mc => (upTo 64).map (fun t => (mc.1, mc.2, t)))).find? (fun x =>
      (l.selM == 0xFF || l.selM == x.1) && (l.selT == 0xFF || l.selT == x.2.2)
        && !(d.tileIs s l.bytes l.units x.1 x.2.1 x.2.2 && (decide (l.mode = 1) || d.banksAre s l.bytes (decide (l.mode = 0)) x.1 x.2.1 x.2.2)))).map
      (fun x => (x.1, x.2.2))

/-- The tiles that a load reads back. -/
def LoadJob.tiles (l : LoadJob) (s : Nat) : List Nat :=
  (membersOf s l.bytes).flatMap (fun mc => ((upTo 64).filter (fun t =>
    (l.selM == 0xFF || l.selM == mc.1) && (l.selT == 0xFF || l.selT == t))).map (tileOf mc.2))

/-- Whether an error mark of a store belongs to what a load reads back. -/
def Dev.readsMark (d : Dev) (s : Nat) (l : LoadJob) (x : Nat) : Bool :=
  (l.tiles s).contains (if x % 4 = 0 then x / 4096 else x / 256) && (d.ownedIdx s).contains (x / 4 % 64)
    && l.units.testBit (x % 4)

/-- Whether a tile-memory word belongs to the banks that a load reads back. -/
def readsWord (s : Nat) (l : LoadJob) (a : Nat) : Bool :=
  decide (l.mode ≠ 1) && (bankList s l.bytes).any (fun e =>
    let base := tmemAddr (tileOf e.2.1 e.2.2.1) e.2.2.2 0
    decide (base ≤ a) && decide (a < base + 0x4000))

/-- The read-back of one marked entry (R155, R235): a corrected one is counted, one that cannot be corrected is recorded. -/
def Dev.readEntry (d : Dev) (s x : Nat) : Dev :=
  let T := if x % 4 = 0 then x / 4096 else x / 256
  let c := tileCluster T
  let k := x / 4 % 64
  let p := d.posIn s c
  match d.mark x with
  | .ok => d
  | .ce _ => d.ctxCe c x
  | .found _ => d.ctxCe c x
  | .ue syn => if x % 4 = 0 then d.ctxUe c p (tileLogical T) (x / 256 % 16) k s syn
      else d.swUe c p (tileLogical T) k s (x % 4 - 1) syn
  | .poison syn => if x % 4 = 0 then d.ctxUe c p (tileLogical T) (x / 256 % 16) k s syn
      else d.swUe c p (tileLogical T) k s (x % 4 - 1) syn

/-- What the read-back of every item counts and records (R152, R155, R235). -/
def Dev.readMarks (d : Dev) (s : Nat) (l : LoadJob) : Dev :=
  let d1 := (d.arr.ecc.filter (fun e => d.readsMark s l e.1)).foldl (fun x e => x.readEntry s e.1) d
  (d1.ecc.filter (fun e => readsWord s l e.1)).foldl (fun x e =>
    (x.tmemRead ((e.1 - 0x8000000000) / 0x10000) (e.1 % 0x10000 / 0x4000) (e.1 % 0x4000 / 8) 1).2) d1

/-- A corrected item that the read-back finds, an entry or a word, is rewritten once (R235). -/
def Dev.rewriteCe (d : Dev) (s : Nat) (l : LoadJob) : Dev :=
  { d with ecc := d.ecc.filter (fun e => !(readsWord s l e.1 && e.2.isCe)),
           arr := { d.arr with ecc := d.arr.ecc.filter (fun e => !(d.readsMark s l e.1 && e.2.isCe)) } }

/-- The second read of the items rewritten: the first in which a new error stands, `d0` being the chip before the
rewrite. -/
def Dev.secondRead (d d0 : Dev) (s : Nat) (l : LoadJob) : Option Nat :=
  match (d0.arr.ecc.filter (fun e => d0.readsMark s l e.1 && e.2.isCe)).find? (fun e => decide (d.mark e.1 ≠ .ok)) with
  | some e => some (if e.1 % 4 = 0 then e.1 / 4096 else e.1 / 256)
  | none =>
    ((d0.ecc.filter (fun e => readsWord s l e.1 && e.2.isCe)).find? (fun e => decide (nget Ecc.ok d.ecc e.1 ≠ .ok))).map
      (fun e => (e.1 - 0x8000000000) / 0x10000)

/-- The member and tile of a tile number in an image loaded to slot `s`. -/
def LoadJob.place (l : LoadJob) (s T : Nat) : Nat × Nat :=
  (((membersOf s l.bytes).find? (fun mc => mc.2 == tileCluster T)).elim 0xFF (fun mc => mc.1), tileLogical T)

/-- The bindings of a slot in its footprint: cluster, whether a leap binding, and value. -/
def Dev.bindsOf (d : Dev) (s : Nat) : List (Nat × Bool × Nat × Word) :=
  (d.footprint s).flatMap (fun c =>
    ((upTo 16).map (fun n => (c, false, n, d.reg (cluReg c .VP_CFG n)))
      ++ (upTo 8).map (fun i => (c, true, i, d.reg (cluReg c .LPB i)))).filter (fun x =>
        x.2.2.2.getLsbD 63 && getBits x.2.2.2 61 60 == d.posIn s c))

/-- Whether a port record of an image gives a binding that stands. -/
def Dev.recStands (d : Dev) (s : Nat) (b : List Byte) (r : PortRec) : Bool :=
  match placeOf b (secsOf b) (s / 4) r.memb with
  | none => false
  | some c =>
    let v := BitVec.ofNat 64 (portValue r c (d.posIn s c))
    (d.bindsOf s).any (fun x => x.1 == c && x.2.1 == r.leap && (r.leap || x.2.2.1 == r.num) && x.2.2.2 == v)

/-- Whether a binding that stands is one that a port record of an image gives. -/
def Dev.bindStands (d : Dev) (s : Nat) (b : List Byte) (x : Nat × Bool × Nat × Word) : Bool :=
  (portRecs b (secsOf b)).any (fun r => r.leap == x.2.1 && (r.leap || r.num == x.2.2.1)
    && (placeOf b (secsOf b) (s / 4) r.memb).any (fun c => c == x.1 && BitVec.ofNat 64 (portValue r c (d.posIn s c)) == x.2.2.2))

/-- The first difference between the bindings of a slot and its image (R238, VERIFY). -/
def Dev.bindDiffers (d : Dev) (s : Nat) (b : List Byte) : Option (Nat × Nat) :=
  match (portRecs b (secsOf b)).find? (fun r => !d.recStands s b r) with
  | some r => some (r.memb, r.tile)
  | none => if (d.bindsOf s).all (d.bindStands s b) then none else some (0xFF, 0xFF)

/-! ### Starting and completing a load -/

/-- Note a load in progress: BUSY (R234), which a command in progress shows too. -/
def Dev.setLoading (d : Dev) (s : Nat) (l : Option LoadJob) : Dev :=
  ({ d with loading := nset none d.loading s l }).setBit (slotReg s .SLOT_STAT) 31 (l.isSome || d.slotBusy s)

/-- FULL, PATCH and VERIFY: the checks in order, then the writes; STATUS answers at once (R233–R240). -/
def Dev.loadStart (d : Dev) (r : LoadReq) : Dev :=
  if r.mode = 3 then d.loadEnd r.cmd 0 0xFF 0xFF (d.load r.slot).st
  else if !d.loadState r then d.loadEnd r.cmd 0x01 0xFF 0xFF 0
  else if r.len < 64 then d.loadEnd r.cmd 0x02 0xFF 0xFF 0
  else
    let mid := sliceMid (quarterOf (r.slot / 4))
    let h := d.readMem mid 0 2 r.addr 64
    match h.2 with
    | none => h.1.loadEnd r.cmd 0x0C 0xFF 0xFF 0
    | some hb =>
      if !headerOk hb r.len then h.1.loadEnd r.cmd 0x02 0xFF 0xFF 0
      else
        let n := im hb 0x08 4
        let x := h.1.readMem mid 0 (n / 512 + 2) r.addr n
        match x.2 with
        | none => x.1.loadEnd r.cmd 0x0C 0xFF 0xFF 0
        | some b =>
          match x.1.imageCheck r b with
          | some e => x.1.loadEnd r.cmd e.1 e.2.1 e.2.2 0
          | none =>
            let units := if r.mode = 1 then r.units else 15
            let sel := if r.mode = 1 then (r.selM, r.selT) else (0xFF, 0xFF)
            let job : LoadJob := ⟨r.mode, 0, 0xFF, 0xFF, r.cmd, b, units, sel.1, sel.2, r.addr, r.oid, [], false⟩
            let d1 := x.1.setLoading r.slot (some job)
            if r.mode = 0 then
              let d2 := d1.stepsFull r.slot r.oid b
              (d2.setLoading r.slot (some { job with late := d2.lateBanks r.slot b })).takeBanks r.slot b
            else if r.mode = 1 then (d1.untadpole r.slot).writePatch r.slot b units sel.1 sel.2
            else d1

/-- A load that has begun to write fails (R241). One that an event has stopped is PARTIAL from that event on, unless a molt
has made its record NONE since (IMG-13). -/
def Dev.loadFail (d : Dev) (s : Nat) (l : LoadJob) (code memb tile : Nat) : Dev :=
  let d1 := d.setLoading s none
  let d2 := if l.mode = 0 ∧ l.code = 0 then { d1 with loads := nset LoadRec.none d1.loads s ⟨1, 0, [], []⟩ } else d1
  let d3 := if l.mode = 2 then d2 else d2.raise (quarterOf (s / 4)) 0x013
  d3.loadEnd l.cmd code memb tile 0

/-- Steps 6 and 7 (R234): the bindings, where no other master has left one that the image does not give; then the load
record, and the slot is TADPOLE. -/
def Dev.loadBind (d : Dev) (s : Nat) (l : LoadJob) : Dev :=
  let ps := portRecs l.bytes (secsOf l.bytes)
  if l.bound ∧ (d.bindsOf s).all (d.bindStands s l.bytes) = false then d.loadFail s l 0x09 0xFF 0xFF
  else match d.bindAll s l.bytes ps with
    | none =>
      let r := d.bindFault true s l.bytes ps
      d.loadFail s l 0x09 (r.elim 0xFF (fun x => x.memb)) (r.elim 0xFF (fun x => x.tile))
    | some d2 =>
      let rcd : LoadRec := ⟨2, imIdent l.bytes, epsOf l.bytes (secsOf l.bytes), (membersOf s l.bytes).map (fun x => x.2)⟩
      let d3 := d2.setLoading s none
      (({ d3 with loads := nset LoadRec.none d3.loads s rcd }).setSlotState s stTadpole).loadEnd l.cmd 0 0xFF 0xFF 0

/-- The end of a load whose writes are done: the read-back (R235, R238), with the errors `ups` that strike between the
rewrite of corrected items and their second read. -/
def Dev.loadCheck (d : Dev) (s : Nat) (l : LoadJob) (ups : List Upset) : Dev :=
  let d1 := d.readMarks s l
  if l.mode = 2 then
    match (match d.readBack s l with
      | some x => some x
      | none => d.bindDiffers s l.bytes) with
    | some x => (d1.setLoading s none).loadEnd l.cmd 0x0F x.1 x.2 0
    | none => (d1.setLoading s none).loadEnd l.cmd 0 0xFF 0xFF 0
  else match d.readBack s l with
    | some x => d1.loadFail s l 0x0D x.1 x.2
    | none =>
      let d2 := ups.foldl (fun x u => x.upset u) (d1.rewriteCe s l)
      match d2.secondRead d1 s l with
      | some T => (d2.readMarks s l).loadFail s l 0x0D (l.place s T).1 (l.place s T).2
      | none =>
        if l.mode = 1 then ((d2.setLoading s none).setSlotState s stTadpole).loadEnd l.cmd 0 0xFF 0xFF 0
        else d2.loadBind s l

/-- LOAD_COMPLETION (R234, R235, R239–R241): the end of step 4, the read-back, the bindings, the load record, and the
command's end. -/
def xLoadCompletion (s : Nat) (ups : List Upset) (d : Dev) : Dev :=
  match nget none d.loading s with
  | none => d
  | some l =>
    if l.code ≠ 0 then d.loadFail s l l.code l.memb l.tile
    else
      let x := d.endBanks s l
      match x.2 with
      | some f => x.1.loadFail s l 0x09 f.1 f.2
      | none => x.1.loadCheck s l ups

/-- A load completes. -/
def execLoadCompletion (slot : Nat) (ups : List Upset) (s : State) : Host.Outcome State Fault Refusal :=
  .next { s with d := s.d.unlessHalted (xLoadCompletion slot ups s.d) }

end Sys2Proof.Machine
end

