-- ==== Sys2Proof/Machine/Funcs.lean ====
section
/-! DEFINITION. The functions of the host links as the queue engine and the event block see them (chapter 13): whether
they exist, their vectors, and the sending of MSI-X messages. -/

namespace Sys2Proof.Machine

/-- Whether a function of this OID exists (14 QUE-9): its link is enabled, and it is the PF or lies in the VF range. -/
def Dev.fnExists (d : Dev) (oid : Nat) : Bool := (d.linkOf oid).isSome

/-- The vector count of a function (R369). -/
def Dev.vecCount (d : Dev) (oid : Nat) : Nat :=
  match d.linkOf oid with
  | none => 0
  | some L => if oid < 32 then d.fld F.HIF_LCFG_PF_VECS (L / 8) (L % 8) else d.fld F.HIF_VFCFG_VF_VECS (L / 8) (L % 8)

/-- The doorbell pages of a function (R368). -/
def Dev.dbPages (d : Dev) (oid : Nat) : Nat :=
  match d.linkOf oid with
  | none => 0
  | some L => 2 ^ (if oid < 32 then d.fld F.HIF_LCFG_DBQ (L / 8) (L % 8) else d.fld F.HIF_VFCFG_VF_DBQ (L / 8) (L % 8))

/-- The size of a BAR of a function, 0 where it has none (R368). -/
def Dev.barSize (d : Dev) (oid bar : Nat) : Nat :=
  match bar with
  | 0 => if oid = 0 then 2 ^ 26 else 0x4000
  | 2 => 4096 * d.dbPages oid
  | 4 => if oid = 0 then 2 ^ 24 else 0
  | _ => 0

/-- The quarter of a function's link. -/
def Dev.fnQuarter (d : Dev) (oid : Nat) : Nat :=
  match d.linkOf oid with
  | none => 0
  | some L => L / 8

/-- Whether a function can send an MSI-X message (12 R343, 13 R363): it can issue, and MSI-X is enabled. -/
def Dev.msixReady (d : Dev) (oid : Nat) : Bool := d.fnIssues oid && (d.fn oid).msixEn

/-- Whether vector `v` of a function is masked: by the Function Mask or by its entry. -/
def Dev.vecMasked (d : Dev) (oid v : Nat) : Bool := (d.fn oid).msixMask || (d.reg (R.FN_MSIX.at 0 oid v 3)).getLsbD 0

/-- The message of vector `v`: the address and data of its table entry as it stands (HOST-7). -/
def Dev.msixMsg (d : Dev) (oid v : Nat) : OutMsg :=
  .msix oid v (d.regN (R.FN_MSIX.at 0 oid v 0) + d.regN (R.FN_MSIX.at 0 oid v 1) * 2 ^ 32) (d.regN (R.FN_MSIX.at 0 oid v 2))

/-- Send vector `v` of a function that can send: a masked vector sets its pending bit, a vector beyond the count sends
nothing (13 HOST-4, 14 R410). -/
def Dev.msixSend (d : Dev) (oid v : Nat) : Dev :=
  if d.vecCount oid ≤ v then d
  else if d.vecMasked oid v then d.setBit (R.FN_PBA.at 0 oid (v / 64)) (v % 64) true
  else d.send (d.msixMsg oid v)

/-- Vectors that have become unmasked send their pending messages. -/
def Dev.msixUnmask (d : Dev) (oid : Nat) : Dev :=
  if !d.msixReady oid then d
  else
    ((d.regs.filter (fun e => decide (e.1.r = .FN_PBA) && decide (e.1.i = oid))).flatMap (fun e =>
      (onesOf e.2.toNat 64).map (fun b => e.1.j * 64 + b))).foldl (fun x v =>
        if x.vecMasked oid v then x else (x.setBit (R.FN_PBA.at 0 oid (v / 64)) (v % 64) false).send (x.msixMsg oid v)) d

/-- The OIDs of the functions of a link: its PF, and every VF of its range. -/
def Dev.linkFns (d : Dev) (L : Nat) : List Nat :=
  L :: (upTo (d.fld F.HIF_VFCFG_TOTALVFS (L / 8) (L % 8))).map (fun i => d.fld F.HIF_VFBASE_VFBASE (L / 8) (L % 8) + i)

end Sys2Proof.Machine
end

