-- ==== Sys2Proof/Machine/Queues.lean ====
section
/-! DEFINITION. Queue pairs, fetch, and the commands of the queue engine (chapter 14; rows SQ_TAIL to PAIR_DRAINED, and
the four modes of LOAD_GRAPH of chapter 08). -/

namespace Sys2Proof.Machine

/-! ### Queue pairs -/

/-- What a pair holds behind its registers. -/
def Dev.pair (d : Dev) (q i : Nat) : Pair := nget Pair.zero d.pairs (q * 1024 + i)

/-- Write it. -/
def Dev.setPair (d : Dev) (q i : Nat) (p : Pair) : Dev := { d with pairs := nset Pair.zero d.pairs (q * 1024 + i) p }

/-- STATE of a pair (QUE-1): UNASSIGNED 0, ASSIGNED 1, ENABLED 2, DRAINING 3. -/
def Dev.qpState (d : Dev) (q i : Nat) : Nat := d.fld F.QP_STAT_STATE q i

/-- Set STATE. -/
def Dev.setQpState (d : Dev) (q i v : Nat) : Dev := d.setFld F.QP_STAT_STATE v q i

/-- OID of a pair. -/
def Dev.qpOid (d : Dev) (q i : Nat) : Nat := d.fld F.QP_OWN_OID q i

/-- Whether a pair is an admin pair. -/
def Dev.qpAdmin (d : Dev) (q i : Nat) : Bool := d.flag F.QP_OWN_ADMIN q i

/-- The entries of a ring. -/
def Dev.sqSize (d : Dev) (q i : Nat) : Nat := 2 ^ d.fld F.QP_SIZE_SQLOG q i
/-- The entries of the completion ring. -/
def Dev.cqSize (d : Dev) (q i : Nat) : Nat := 2 ^ d.fld F.QP_SIZE_CQLOG q i

/-- The difference of two indices in a ring of `n` entries. -/
def ringDist (a b n : Nat) : Nat := (a + n - b % n) % n

/-- Entries that wait to be fetched. -/
def Dev.sqWaiting (d : Dev) (q i : Nat) : Nat :=
  ringDist (d.regN (R.SQ_TAIL.at q i)) (d.regN (R.SQ_HEAD.at q i)) (d.sqSize q i)

/-- Entries of the CQ that the host has not released. -/
def Dev.cqHeld (d : Dev) (q i : Nat) : Nat :=
  ringDist (d.regN (R.CQ_TAIL.at q i)) (d.regN (R.CQ_HEAD.at q i)) (d.cqSize q i)

/-- The watermark of a pair follows its ring (R411). -/
def Dev.qpLevel (d : Dev) (q i : Nat) : Dev :=
  let x := (d.setRegN (R.QP_WM_LEVEL.at q i) (d.sqWaiting q i)).wmCheck wmQp q 0x452 i
  if x.2 then x.1.setBit (R.QE_WMPEND.at q (i / 32)) (i % 32) true else x.1

/-- An error of the queue engine (QE_ERR_LOG, QE_ERR_CNT, QE_ERR). -/
def Dev.qeErr (d : Dev) (now q kind qp : Nat) : Dev :=
  ((d.bump (R.QE_ERR_CNT.at q)).logFirst (R.QE_ERR_LOG.at q) (kind % 16 * 2 ^ 58 + qp % 4096 * 2 ^ 32 + now % 2 ^ 32)).raise
    q 0x014

/-- The pair that serves queue `n` of a function, if it is assigned. -/
def Dev.qpOf (d : Dev) (oid n : Nat) : Option (Nat × Nat) :=
  (d.regs.find? (fun e => decide (e.1.r = .QP_OWN) && e.2.getLsbD 63 && decide (getBits e.2 58 48 = oid)
    && decide (getBits e.2 43 32 = n))).map (fun e => (e.1.q, e.1.i))

/-- Every assigned pair of a function. -/
def Dev.qpsOf (d : Dev) (oid : Nat) : List (Nat × Nat) :=
  (d.regs.filter (fun e => decide (e.1.r = .QP_OWN) && e.2.getLsbD 63 && decide (getBits e.2 58 48 = oid))).map
    (fun e => (e.1.q, e.1.i))

/-- The registers of a pair's doorbell page return to their reset values (R383). -/
def Dev.resetPage (d : Dev) (q i : Nat) : Dev :=
  d.resetRegs (fun x => decide (x.r.desc.blk = .DB) && decide (x.q = q) && decide (x.i = i))

/-- Assign pair `i` of quarter `q` to queue `n` of a function (R381, QUE-9 CREATE_Q). -/
def Dev.assignQp (d : Dev) (q i oid n level maxlog : Nat) (admin : Bool) : Dev :=
  let own := 2 ^ 63 + b2n admin * 2 ^ 62 + oid % 2048 * 2 ^ 48 + n % 4096 * 2 ^ 32 + level % 32 * 2 ^ 24 + maxlog % 32 * 2 ^ 16
  let d1 := ((d.resetPage q i).setPair q i Pair.zero).setRegN (R.QP_OWN.at q i) own
  (d1.setRegN (R.QP_INFO.at q i) (level % 32 * 2 ^ 24 + maxlog % 32 * 2 ^ 16 + (1024 * q + i))).setQpState q i 1

/-- A pair becomes UNASSIGNED. -/
def Dev.unassignQp (d : Dev) (q i : Nat) : Dev :=
  ((((d.resetPage q i).setPair q i Pair.zero).setRegN (R.QP_OWN.at q i) 0).setRegN (R.QP_INFO.at q i) 0).qpLevel q i

/-- The admin pair of an enabled link (R381): level 30 for the owner PF, 27 for another (R396). The spec states no MAXLOG
for it, so that is a free value from 4 to 16. -/
def Dev.assignAdmin (d : Dev) (L : Nat) : Dev :=
  let f := d.fresh
  f.2.assignQp (L / 8) (L % 8) L 0 (if L = 0 then 30 else 27) (4 + f.1.toNat % 13) true

/-! ### Doorbells (R385, R386) -/

/-- A refused doorbell write: DBERR, QE_ERR_LOG, QE_ERR. -/
def Dev.dbRefuse (d : Dev) (now q i kind : Nat) : Dev :=
  ((d.setFld F.QP_STAT_DBERR 1 q i).qeErr now q kind (1024 * q + i)).answer .slverr 0

/-- An accepted doorbell write raises DOORBELL of the pair's group (12 EVT-1). -/
def Dev.dbAccept (d : Dev) (q i : Nat) : Dev := (d.raise q (0x2F0 + i / 16)).okay

/-- SQ_TAIL is written. -/
def xSqTail (_m : Mst) (q i v : Nat) (k : Clk) (d : Dev) : Dev :=
  if d.qpState q i = 2 ∧ v % 65536 < d.sqSize q i then
    ((d.setRegN (R.SQ_TAIL.at q i) (v % 65536)).qpLevel q i).dbAccept q i
  else d.dbRefuse k.tick q i 1

/-- The SQ tail doorbell. -/
def execSqTail (m : Mst) (q i v : Nat) (s : State) : Host.Outcome State Fault Refusal :=
  .next { s with d := xSqTail m q i v s.clk s.d }

/-- CQ_HEAD is written: refused if it would release entries not yet written. -/
def xCqHead (_m : Mst) (q i v : Nat) (k : Clk) (d : Dev) : Dev :=
  let n := d.cqSize q i
  let old := d.regN (R.CQ_HEAD.at q i)
  if d.qpState q i = 2 ∧ v % 65536 < n ∧ ringDist (v % 65536) old n ≤ d.cqHeld q i then
    (d.setRegN (R.CQ_HEAD.at q i) (v % 65536)).dbAccept q i
  else d.dbRefuse k.tick q i 2

/-- The CQ head doorbell. -/
def execCqHead (m : Mst) (q i v : Nat) (s : State) : Host.Outcome State Fault Refusal :=
  .next { s with d := xCqHead m q i v s.clk s.d }

/-- An ASSIGNED pair is enabled (R385). -/
def Dev.enableQp (d : Dev) (q i : Nat) : Dev :=
  let d1 := (((d.setRegN (R.SQ_TAIL.at q i) 0).setRegN (R.SQ_HEAD.at q i) 0).setRegN (R.CQ_HEAD.at q i) 0).setRegN (R.CQ_TAIL.at q i) 0
  let d2 := ((d1.setFld F.QP_STAT_PHASE 1 q i).setFld F.QP_STAT_DBERR 0 q i).setFld F.QP_STAT_FETCHERR 0 q i
  ((d2.setFld F.QP_CTRL_EN 1 q i).setQpState q i 2).qpLevel q i

/-- QP_CTRL is written. A write of EN = 1 in any other case leaves EN as it is; of EN = 0 in ENABLED, the pair drains. -/
def xQpCtrl (_m : Mst) (q i v : Nat) (d : Dev) : Dev :=
  let lim := d.fld F.QP_INFO_MAXLOG q i
  let fits := decide (d.fld F.QP_SIZE_SQLOG q i ≤ lim) && decide (d.fld F.QP_SIZE_CQLOG q i ≤ lim)
  if v % 2 = 1 then (if d.qpState q i = 1 ∧ fits = true then d.enableQp q i else d).okay
  else if d.qpState q i = 2 then ((d.setFld F.QP_CTRL_EN 0 q i).setQpState q i 3).okay
  else (d.setFld F.QP_CTRL_EN 0 q i).okay

/-- QP_CTRL is written. -/
def execQpCtrl (m : Mst) (q i v : Nat) (s : State) : Host.Outcome State Fault Refusal :=
  .next { s with d := xQpCtrl m q i v s.d }

/-! ### Submission entries (QUE-4, QUE-5): an entry as a 512-bit number -/

/-- OPC. -/
def sqOpc (e : Nat) : Nat := e % 256
/-- FLAGS. -/
def sqFlags (e : Nat) : Nat := bitsOf e 15 8
/-- CID. -/
def sqCid (e : Nat) : Nat := bitsOf e 31 16
/-- ARG. -/
def sqArg (e : Nat) : Nat := bitsOf e 63 32
/-- UTAG. -/
def sqUtag (e : Nat) : Nat := bitsOf e 127 64
/-- Parameter word `i`. -/
def sqP (e i : Nat) : Nat := e / 2 ^ (128 + 32 * i) % 2 ^ 32

/-- A buffer reference. -/
structure BufRef where
  addr : Nat
  len : Nat
  attr : Nat
  deriving DecidableEq, Repr

/-- Buffer reference `n` of an entry. -/
def sqBuf (e n : Nat) : BufRef := ⟨e / 2 ^ (128 + 128 * n) % 2 ^ 64, e / 2 ^ (192 + 128 * n) % 2 ^ 32, e / 2 ^ (224 + 128 * n) % 2 ^ 32⟩

/-- SPACE of a reference: NONE 0, HOST 1, DEVICE 2. -/
def BufRef.space (b : BufRef) : Nat := b.attr % 4
/-- DIR: out of the chip. -/
def BufRef.isOut (b : BufRef) : Bool := b.attr.testBit 2
/-- SGL. -/
def BufRef.sgl (b : BufRef) : Bool := b.attr.testBit 3
/-- Whether a reference is used. -/
def BufRef.used (b : BufRef) : Bool := b.space != 0

/-- R392 on one reference. -/
def BufRef.ok (b : BufRef) : Bool :=
  if b.space = 0 then decide (b.addr = 0 ∧ b.len = 0 ∧ b.attr = 0)
  else decide (b.space ≠ 3) && decide (b.attr < 32) && decide (b.addr % 8 = 0 ∧ b.len % 8 = 0 ∧ b.len ≠ 0)
    && (!b.sgl || decide (b.space = 1)) && (!b.attr.testBit 4 || decide (b.space = 2))

/-- The bits of ARG that an opcode defines; none for an opcode that QUE-9 does not list. -/
def argMask (opc : Nat) : Option Nat :=
  match opc with
  | 0x01 => some 0xFF
  | 0x02 => some 0
  | 0x03 => some 0
  | 0x04 => some 1
  | 0x05 => some 0
  | 0x06 => some 0xFFFF
  | 0x40 => some 0x0FFF07FF
  | 0x41 => some 0x0FFF07FF
  | 0x42 => some 0x1FFFF
  | 0x43 => some 0x07FF03FF
  | 0x44 => some 0xFF
  | 0x45 => some 0x1FF
  | 0x46 => some 0xFF
  | 0x47 => some 0x00FF07FF
  | 0x48 => some 0x1FFF0FFF
  | 0x49 => some 0x0FFF0FFF
  | 0x4A => some 0x3FF
  | 0x4B => some 0xFFFFFFFF
  | _ => none

/-- The bits of parameter word `i` that an opcode defines. -/
def parMask (opc i : Nat) : Nat :=
  match opc, i with
  | 0x40, 0 => 0x1F1F
  | 0x42, 0 => 0xE00007FF
  | 0x47, 0 => 0x80000FFF
  | 0x43, 4 => 0x000FFFFF
  | _, _ => 0

/-- Whether `v` has a bit outside `mask`. -/
def strayBits (v mask : Nat) : Bool := (v &&& mask) != v

/-- Checks 1 to 4 of R394 on an entry of a function. -/
def sqOk (oid e : Nat) : Bool :=
  let opc := sqOpc e
  let b0 := sqBuf e 0
  let b1 := sqBuf e 1
  let b2 := sqBuf e 2
  let pars (from_ : Nat) : Bool := (upTo 12).all (fun i => decide (i < from_) || !strayBits (sqP e i) (parMask opc i))
  match argMask opc with
  | none => false
  | some mask =>
    (decide (opc < 0x40) || decide (oid = 0)) && decide (sqFlags e < 4) && !strayBits (sqArg e) mask &&
    (if opc = 0x01 then b0.ok && b1.ok && b2.ok
      else if opc = 0x02 then b0.ok && b1.ok && decide (b2 = ⟨0, 0, 0⟩) && b0.used && b1.used && !b0.isOut && b1.isOut
        && decide (b0.len = b1.len)
      else if opc = 0x03 then b0.ok && b0.used && b0.isOut && decide (e / 2 ^ 320 = 0)
      else if opc = 0x43 then
        b0.ok && (if bitsOf (sqArg e) 9 8 = 3 then !b0.used else decide (b0.space = 2) && !b0.isOut) && pars 4
      else if opc = 0x4A then b0.ok && decide (b0.space = 2) && !b0.isOut && decide (b0.len % 16 = 0) && pars 4
      else if opc = 0x4B then true
      else pars 0)

/-! ### Entry tables (R402) -/

/-- The address of entry `n` of an owner, for the slice of quarter `q`. -/
def Dev.entAddr (d : Dev) (q oid n : Nat) : Nat := (d.entArea q).1 + oid * 2048 + 8 * n

/-- The lookup of an entry by a slice: the status of a failed read, 0 if it did not fail, the entry, the records made. -/
def Dev.entRead (d : Dev) (q oid n : Nat) : Nat × Nat × Dev :=
  let a := d.entAddr q oid n
  let r := d.hbm (rdReq (sliceMid q) 0 a 8) false .none
  (memStatus (r.1.hbmCode (sliceMid q) 0 a false r.2.code), leNat r.2.data, r.1)

/-! ### Fetch (R388, R394, R407, R408) -/

/-- The commands of a pair that were fetched before command number `seq`. -/
def Dev.earlier (d : Dev) (q i seq : Nat) : List (Nat × Cmd) := (d.cmdsOf q).filter (fun e => decide (e.2.qp = i ∧ e.2.seq < seq))

/-- The free records of home quarter `h` of slice `q`; the last 64 serve admin pairs only (R389). -/
def Dev.freeRecs (d : Dev) (q h : Nat) (admin : Bool) : List Nat :=
  (upTo (if admin then 1024 else 960)).filterMap (fun r =>
    if (d.cmd (cmdKey q (h * 1024 + r))).isNone then some (cmdKey q (h * 1024 + r)) else none)

/-- The home quarter of an entry: the anchor quarter of the slot that an INVOKE names, else the slice's own (R389). -/
def Dev.homeOfEntry (d : Dev) (q oid e : Nat) : Nat :=
  if sqOpc e = 0x01 then
    let v := d.memN (d.entAddr q oid (sqArg e % 256)) 8
    if v.testBit 63 then quarterOf (v % 256 / 4) else q
  else q

/-- Whether a pair may be chosen but for records, ready list and credit. -/
def Dev.fetchable (d : Dev) (q i : Nat) : Bool :=
  decide (d.qpState q i = 2) && decide (d.sqWaiting q i ≠ 0) && !d.flag F.QP_STAT_QUENCHED q i && !d.flag F.QP_STAT_FETCHERR q i
    && d.flag F.QP_OWN_VALID q i

/-- CQ credit of a pair: how many entries R388 lets it fetch. -/
def Dev.credit (d : Dev) (q i : Nat) : Nat := d.cqSize q i - 1 - (d.fld F.QP_STAT_INFL q i + d.cqHeld q i)

/-- Whether a list of the home quarter of a pair's last INVOKE is full for it (R407, 10 R294): the ready list at its level,
or the delay list. -/
def Dev.listHeld (d : Dev) (q i : Nat) : Bool :=
  let h := (d.pair q i).lastHome
  decide (h ≠ 0) && (!d.readyRoom (h - 1) (d.fld F.QP_OWN_LEVEL q i) || !d.delayRoom (h - 1))

/-- Whether back-pressure holds a pair (R407): no free record of its class, a full list of the home quarter of its last
INVOKE, or no credit. -/
def Dev.bpHeld (d : Dev) (q i : Nat) : Bool :=
  decide (d.credit q i = 0) || (d.freeRecs q q (d.qpAdmin q i)).isEmpty || d.listHeld q i

/-- The rank of a pair (R388): the owner's admin pair, the other admin pairs, then by LEVEL. -/
def Dev.qpRank (d : Dev) (q i : Nat) : Nat :=
  if d.qpAdmin q i then (if d.qpOid q i = 0 then 0 else 1) else 2 + (31 - d.fld F.QP_OWN_LEVEL q i)

/-- The pair that a fetch decision chooses: best rank, within it the next in turn. -/
def Dev.choosePair (d : Dev) (q : Nat) : Option Nat :=
  let l := (upTo 1024).filter (fun i => d.fetchable q i && !d.bpHeld q i)
  let best := l.foldl (fun m i => Nat.min m (d.qpRank q i)) 64
  let c := l.filter (fun i => decide (d.qpRank q i = best))
  let last := nget 0 d.rrobin (q * 64 + best)
  match c.find? (fun i => decide (last < i + 1)) with
  | some i => some i
  | none => c.head?

/-- Count the pairs that back-pressure newly holds, and let go those that it holds no more (R407); a hold by a full list
counts in the DSP_BP_CNT of its slice too (10 R294). -/
def Dev.countHolds (d : Dev) (q : Nat) : Dev :=
  ((upTo 1024).filter (fun i => d.fetchable q i)).foldl (fun x i =>
    let p := x.pair q i
    let y := if x.listHeld q i then x.bump (R.DSP_BP_CNT.at (p.lastHome - 1)) else x
    if x.bpHeld q i then (if p.held then x else (y.bump (R.QE_BP_CNT.at q)).setPair q i { p with held := true })
    else x.setPair q i { p with held := false }) d

/-- A new record for an entry: which of the free records it takes is open. -/
def Dev.takeRec (d : Dev) (q i e : Nat) : Option Dev :=
  let oid := d.qpOid q i
  match d.freeRecs q (d.homeOfEntry q oid e) (d.qpAdmin q i) with
  | [] => none
  | k0 :: r =>
    let f := d.fresh
    let k := (k0 :: r).getD (f.1.toNat % (k0 :: r).length) k0
    let c : Cmd := {
      qp := i, seq := f.2.runs, ent := e, st := .fetched, status := 0, result := 0, jobs := [], todo := [],
      fin := none, submitted := false, chain := [], discard := false, wait := .none }
    let d1 := ({ f.2 with runs := f.2.runs + 1 }).setCmd k (some c)
    let d2 := d1.setFld F.QP_STAT_INFL (d1.fld F.QP_STAT_INFL q i + 1) q i
    let d3 := d2.setRegN (R.SQ_HEAD.at q i) ((d2.regN (R.SQ_HEAD.at q i) + 1) % d2.sqSize q i)
    some (if sqOk oid e then d3 else d3.endCmd k 0x0B 0)

/-- Fetch the entries that the read returned, until a record is wanting. -/
def Dev.fetchAll (d : Dev) (q i : Nat) : List Nat → Dev
  | [] => d
  | e :: r =>
    match d.takeRec q i e with
    | none => d
    | some d1 => d1.fetchAll q i r

/-- The SQ read of a pair fails (R408). -/
def Dev.fetchErr (d : Dev) (now q i : Nat) : Dev := (d.setFld F.QP_STAT_FETCHERR 1 q i).qeErr now q 3 (1024 * q + i)

/-- A fetch decision with what the host's memory returns from SQ_HEAD on (R388): up to 8 entries, not across the wrap. -/
def xFetchDecision (q : Nat) (ents : List Nat) (k : Clk) (d : Dev) : Dev :=
  if !(d.reg (R.QE_CTRL.at q)).getLsbD 0 then d
  else
    let d0 := d.countHolds q
    match d0.choosePair q with
    | none => d0
    | some i =>
      let d1 := { d0 with rrobin := nset 0 d0.rrobin (q * 64 + d0.qpRank q i) (i + 1) }
      if !d1.fnIssues (d1.qpOid q i) then d1.fetchErr k.tick q i
      else
        let n := Nat.min (Nat.min 8 (d1.sqWaiting q i)) (Nat.min (d1.credit q i) (d1.sqSize q i - d1.regN (R.SQ_HEAD.at q i)))
        (d1.fetchAll q i (ents.take n)).qpLevel q i

/-- A fetch decision. -/
def execFetchDecision (q : Nat) (ents : List Nat) (s : State) : Host.Outcome State Fault Refusal :=
  .next { s with d := s.d.unlessHalted (xFetchDecision q ents s.clk s.d) }

/-- A fetch decision whose read fails (R408). -/
def xSqReadError (q : Nat) (k : Clk) (d : Dev) : Dev :=
  if !(d.reg (R.QE_CTRL.at q)).getLsbD 0 then d
  else
    let d0 := d.countHolds q
    match d0.choosePair q with
    | none => d0
    | some i => ({ d0 with rrobin := nset 0 d0.rrobin (q * 64 + d0.qpRank q i) (i + 1) }).fetchErr k.tick q i

/-- An SQ read fails. -/
def execSqReadError (q : Nat) (s : State) : Host.Outcome State Fault Refusal := .next { s with d := s.d.unlessHalted (xSqReadError q s.clk s.d) }

/-! ### Starting a command (R397) -/

/-- Whether a fetched command may start: commands of an SQ start in fetch order, none before a FENCE has completed, and
one with BARRIER after every earlier one has its CQ entry. -/
def Dev.mayStart (d : Dev) (q : Nat) (c : Cmd) : Bool :=
  let l := d.earlier q c.qp c.seq
  decide (c.st = .fetched) && l.all (fun e => decide (e.2.st ≠ .fetched) &&
      (decide (sqOpc e.2.ent ≠ 0x01) || decide (e.2.st = .ended) || e.2.submitted) &&
      (decide (sqOpc e.2.ent ≠ 0x04) || decide (e.2.st = .ended)))
    && (!(sqFlags c.ent).testBit 1 || l.isEmpty)

/-- Run `f` on record `r` of slice `q` if it holds a command of opcode `opc` that may start. -/
def Dev.start (d : Dev) (q r opc : Nat) (f : Nat → Cmd → Dev) : Dev :=
  match d.cmd (cmdKey q r) with
  | none => d
  | some c => if sqOpc c.ent = opc ∧ d.mayStart q c = true then f (cmdKey q r) c else d

/-- A command starts and waits. -/
def Dev.waitFor (d : Dev) (k : Nat) (c : Cmd) (w : CmdWait) : Dev := d.setCmd k (some { c with st := .running, wait := w })

/-- The master of a slice. -/
def sliceMst (q : Nat) : Mst := ⟨sliceMid q, 0, false⟩

/-! ### INVOKE (R390, R396) -/

/-- Whether the buffer references match the BUF fields of an entry point. -/
def bufsMatch (e : Nat) (p : EpRec) : Bool :=
  (upTo 3).all (fun n =>
    let f := p.bufs.getD n 0
    let b := sqBuf e n
    if f.testBit 15 then b.used && (b.isOut == f.testBit 14) else !b.used)

/-- The bytes of a TCB as a number: the common fields (R279, R396). -/
def tcbCommon (t kl dep succ0 oid compl user : Nat) : Nat :=
  t + kl * 2 ^ 32 + dep * 2 ^ 48 + succ0 * 2 ^ 128 + oid * 2 ^ 208 + compl * 2 ^ 256 + user * 2 ^ 320

/-- The fields of a chain THREAD (R390); `n` counts from QE_TCB_FIRST. -/
def Dev.tcbThread (d : Dev) (h n node fn : Nat) : Nat :=
  let save := getBits (d.reg (R.QE_TAREA_BASE.at h)) 47 12 * 4096 + n * 1024
  (getBits (d.reg (R.QE_THREAD_PC.at h)) 63 1 * 2 + d.tcbAddr node * 2 ^ 64 + save * 2 ^ 128 + (save + 512) * 2 ^ 192
    + fn * 2 ^ 256 + 0xFFFF * 2 ^ 288) * 2 ^ 512

/-- The tasks of an entry point's chain: 0 prologue, 1 NODE, 2 epilogue. -/
def EpRec.chain (p : EpRec) : List Nat := (if p.flags.testBit 0 then [0] else []) ++ [1] ++ (if p.flags.testBit 1 then [2] else [])

/-- Build the TCBs of a chain; none if a write is answered with an error (R396 step 1). -/
def Dev.buildChain (d : Dev) (k level oid : Nat) (ent v : Nat) (p : EpRec) : List Nat → Option Dev
  | [] => some d
  | j :: r =>
    let t := d.chainTask k j
    let h := k % 4096 / 1024
    let n := 3072 * (k / 4096) + 3 * (k % 1024) + j
    let dep := if j = 0 ∨ (j = 1 ∧ p.flags.testBit 0 = false) then 0 else 1
    let succ := if r = [] then 0 else 2 ^ 31 + d.chainTask k (j + 1)
    let f := d.fresh
    let compl := if r = [] then 2 ^ 63 + f.1.toNat % 2 ^ 63 else 0
    let common := tcbCommon t (level + (if j = 1 then 128 else 0)) dep succ oid compl (sqUtag ent)
    let body := if j = 1 then (v % 256 + p.ep * 2 ^ 8 + bitsOf v 47 32 * 2 ^ 16) * 2 ^ 512
      else d.tcbThread h n (d.chainTask k 1) (if j = 0 then p.proFn else p.epiFn)
    let w := f.2.hbm (wrReq (sliceMid (k / 4096)) 0 (d.tcbAddr t) 128 (common + body)) false .none
    if w.2.code = .okay then w.1.buildChain k level oid ent v p r else none

/-- Queue the job of reference `n` on the engine of its port (R396 step 2); none while both job slots are full. -/
def Dev.queueJob (d : Dev) (k oid : Nat) (b : BufRef) (vp : Nat) : Option Dev :=
  let j := if (d.jattr vp 0).getLsbD 31 then (if (d.jattr vp 1).getLsbD 31 then 2 else 1) else 0
  if j = 2 then none
  else
    let attr := 2 ^ 31 + b2n (!b.isOut) * 2 ^ 30 + b2n (b.attr.testBit 4) * 2 ^ 28 + b2n b.isOut * 2 ^ 27
      + (if b.space = 1 then 1 else 0) * 2 ^ 24 + oid % 2048 * 2 ^ 11 + b2n b.sgl * 2 ^ 10
    let d1 := ((d.setRegN (senReg vp .JADDR j) b.addr).setRegN (senReg vp .JLEN j) b.len).setRegN (senReg vp .JTAG j) (d.chainTask k 1)
    let d2 := xJattr (sliceMst (k / 4096)) vp j attr d1
    some (match d2.cmd k with
      | some c => d2.setCmd k (some { c with jobs := c.jobs ++ [⟨vp, j, none⟩] })
      | none => d2)

/-- Queue the jobs that are still to queue, as far as engines have room. -/
def Dev.queueJobs (d : Dev) (k oid ent : Nat) : List (Nat × Nat) → Dev
  | [] => d
  | n :: r =>
    match d.queueJob k oid (sqBuf ent n.1) n.2 with
    | none => d
    | some d1 =>
      (match d1.cmd k with
        | some c => d1.setCmd k (some { c with todo := r })
        | none => d1).queueJobs k oid ent r

/-- Submit the tasks of a chain in order (R396 step 3). A rejected SUBMIT ends the command RESOURCE. -/
def Dev.submitChain (d : Dev) (k : Nat) (clk : Clk) : List Nat → Dev
  | [] => d
  | j :: r =>
    let t := d.chainTask k j
    let q := t / 2 ^ 18
    let y := match d.dspGate (sliceMst (k / 4096)) q t with
      | some reason => (d, some reason)
      | none => d.submit clk.tick t none
    match y.2 with
    | none => y.1.submitChain k clk r
    | some reason => (y.1.dspErr q 1 t reason (sliceMid (k / 4096))).endCmd k 0x0A 0

/-- Where an INVOKE that passes its checks goes on: the entry, the entry point, the port of each reference. -/
structure Invoke where
  v : Nat
  ep : EpRec
  vps : List Nat
  deriving DecidableEq, Repr

/-- The checks of R396 on the entry `v`: the status of the first that fails, or the entry point with its ports. -/
def Dev.invokeCheck (d : Dev) (ent v : Nat) : Nat × Option Invoke :=
  let s := v % 256
  if !v.testBit 63 then (0x04, none)
  else if d.sweeping s ∨ bitsOf v 47 32 ≠ d.regN (slotReg s .SLOT_GEN) then (0x07, none)
  else
    match (d.load s).eps.find? (fun p => decide (p.ep = bitsOf v 59 56)) with
    | none => (0x0B, none)
    | some p =>
      let h := quarterOf (s / 4)
      if !bufsMatch ent p then (0x0B, none)
      else if decide (p.flags % 4 ≠ 0) && (decide (d.regN (R.QE_THREAD_PC.at h) = 0) || decide (d.regN (R.QE_TAREA_BASE.at h) = 0))
        then (0x0A, none)
      else (0, some ⟨v, p, p.bufs.map (fun f => (d.load s).memb.getD (bitsOf f 13 8) 0 * 16 + f % 16)⟩)

/-- The record moves to the slot's anchor quarter if it is not there (R389); none while no record is free. -/
def Dev.moveRec (d : Dev) (q k h : Nat) (c : Cmd) : Option (Nat × Dev) :=
  if k % 4096 / 1024 = h then some (k, d)
  else
    match d.freeRecs q h (d.qpAdmin q c.qp) with
    | [] => none
    | k0 :: r =>
      let f := d.fresh
      let k1 := (k0 :: r).getD (f.1.toNat % (k0 :: r).length) k0
      some (k1, (f.2.setCmd k none).setCmd k1 (some c))

/-- Steps 2 and 3 of a started INVOKE. -/
def Dev.invokeGo (d : Dev) (k oid : Nat) (clk : Clk) : Dev :=
  match d.cmd k with
  | none => d
  | some c =>
    let d1 := d.queueJobs k oid c.ent c.todo
    match d1.cmd k with
    | none => d1
    | some c1 =>
      if c1.st = .running ∧ c1.todo = [] ∧ c1.submitted = false then
        let d2 := (d1.setCmd k (some { c1 with submitted := true })).submitChain k clk c1.chain
        match jobFailed c1.jobs with
        | some st => d2.nodeFail clk.tick (d2.chainTask k 1) st
        | none => d2
      else d1

/-- INVOKE starts: lookup, checks, chain, jobs, tasks. -/
def Dev.invokeStart (d : Dev) (q k : Nat) (c : Cmd) (clk : Clk) : Dev :=
  let oid := d.qpOid q c.qp
  let e := d.entRead q oid (sqArg c.ent % 256)
  if e.1 ≠ 0 then e.2.2.endCmd k e.1 0
  else
    match e.2.2.invokeCheck c.ent e.2.1 with
    | (st, none) => e.2.2.endCmd k st 0
    | (_, some w) =>
      let h := quarterOf (w.v % 256 / 4)
      match e.2.2.moveRec q k h c with
      | none => e.2.2
      | some (k1, d1) =>
        match d1.buildChain k1 (d1.fld F.QP_OWN_LEVEL q c.qp) oid c.ent w.v w.ep w.ep.chain with
        | none => d1.endCmd k1 0x03 0
        | some d2 =>
          let todo := ((upTo 3).filter (fun n => (sqBuf c.ent n).used)).map (fun n => (n, w.vps.getD n 0))
          let d3 := (d2.setPair q c.qp { d2.pair q c.qp with lastHome := h + 1 }).setCmd k1 (some { c with st := .running, todo := todo, chain := w.ep.chain })
          d3.invokeGo k1 oid clk

/-- INVOKE: starts, or goes on once job slots have freed. The ports of a started one are those that its lookup gave. -/
def xInvoke (q r : Nat) (k : Clk) (d : Dev) : Dev :=
  let key := cmdKey q r
  match d.cmd key with
  | none => d
  | some c =>
    if sqOpc c.ent ≠ 0x01 then d
    else if d.mayStart q c then d.invokeStart q key c k
    else if c.st = .running ∧ c.submitted = false then d.invokeGo key (d.qpOid q c.qp) k
    else d

/-- The INVOKE of a record. -/
def execInvoke (q r : Nat) (s : State) : Host.Outcome State Fault Refusal := .next { s with d := s.d.unlessHalted (xInvoke q r s.clk s.d) }

/-! ### FENCE, NOP, QUERY -/

/-- Whether every earlier command in the scope of a FENCE has its CQ entry (R397). -/
def Dev.fenceMet (d : Dev) (q : Nat) (c : Cmd) : Bool :=
  if (sqArg c.ent).testBit 0 then
    (d.cmdsOf q).all (fun e => decide (c.seq ≤ e.2.seq) || decide (d.qpOid q e.2.qp ≠ d.qpOid q c.qp))
  else (d.earlier q c.qp c.seq).isEmpty

/-- The started FENCEs of a slice whose scope is empty complete. -/
def Dev.fenceSweep (d : Dev) (q : Nat) : Dev :=
  ((d.cmdsOf q).filter (fun e => decide (sqOpc e.2.ent = 0x04 ∧ e.2.st = .running) && d.fenceMet q e.2)).foldl
    (fun x e => x.endCmd e.1 0 0) d

/-- FENCE starts. -/
def xFence (q r : Nat) (d : Dev) : Dev :=
  (d.start q r 0x04 (fun k c => d.setCmd k (some { c with st := .running }))).fenceSweep q

/-- The FENCE of a record. -/
def execFence (q r : Nat) (s : State) : Host.Outcome State Fault Refusal := .next { s with d := s.d.unlessHalted (xFence q r s.d) }

/-- The NOP opcode. -/
def xQueNop (q r : Nat) (d : Dev) : Dev := d.start q r 0x05 (fun k _ => d.endCmd k 0 0)

/-- The NOP of a record. -/
def execQueNop (q r : Nat) (s : State) : Host.Outcome State Fault Refusal := .next { s with d := s.d.unlessHalted (xQueNop q r s.d) }

/-- Windows bound to an OID. -/
def Dev.windowsOf (d : Dev) (oid : Nat) : Nat :=
  (d.regs.filter (fun e => decide (e.1.r = .WIN_ENT) && e.2.getLsbD 31 && decide (getBits e.2 10 0 = oid))).length

/-- QUERY (QUE-10). -/
def xQuery (q r : Nat) (d : Dev) : Dev :=
  d.start q r 0x06 (fun k c =>
    let kind := sqArg c.ent % 256
    let idx := bitsOf (sqArg c.ent) 15 8
    let oid := d.qpOid q c.qp
    if kind = 0 then
      let e := d.entRead q oid idx
      let v := e.2.1
      let s := v % 256
      let stale := b2n (decide (bitsOf v 47 32 ≠ d.regN (slotReg s .SLOT_GEN)))
      e.2.2.endCmd k e.1 (if e.1 ≠ 0 then 0 else b2n (v.testBit 63) * 2 ^ 31 + stale * 2 ^ 30 + bitsOf v 59 56 * 2 ^ 24
        + d.slotState s % 16 * 2 ^ 16 + s)
    else if idx ≠ 0 then d.endCmd k 0x0B 0
    else if kind = 1 then d.endCmd k 0 (d.windowsOf oid)
    else if kind = 2 then d.endCmd k 0 (d.fld F.QP_STAT_INFL q c.qp)
    else d.endCmd k 0x0B 0)

/-- The QUERY of a record. -/
def execQuery (q r : Nat) (s : State) : Host.Outcome State Fault Refusal := .next { s with d := s.d.unlessHalted (xQuery q r s.d) }

/-! ### CREATE_Q, DELETE_Q -/

/-- The lowest free pair of a quarter, the admin pairs apart. -/
def Dev.freePair (d : Dev) (q : Nat) : Option Nat := (upTo 1024).find? (fun i => decide (8 ≤ i) && !d.flag F.QP_OWN_VALID q i)

/-- CREATE_Q. -/
def xCreateQ (q r : Nat) (d : Dev) : Dev :=
  d.start q r 0x40 (fun k c =>
    let oid := sqArg c.ent % 2048
    let n := bitsOf (sqArg c.ent) 27 16
    let level := sqP c.ent 0 % 32
    let maxlog := bitsOf (sqP c.ent 0) 12 8
    let lq := d.fnQuarter oid
    if !d.fnExists oid ∨ d.dbPages oid ≤ n ∨ (n = 0 ∧ oid < 32) ∨ 27 < level ∨ maxlog < 4 ∨ 16 < maxlog then d.endCmd k 0x0B 0
    else if (d.qpOf oid n).isSome then d.endCmd k 0x0A 0
    else
      match d.freePair lq with
      | none => d.endCmd k 0x0A 0
      | some i => (d.assignQp lq i oid n level maxlog false).endCmd k 0 (1024 * lq + i))

/-- The CREATE_Q of a record. -/
def execCreateQ (q r : Nat) (s : State) : Host.Outcome State Fault Refusal := .next { s with d := s.d.unlessHalted (xCreateQ q r s.d) }

/-- DELETE_Q: an ASSIGNED pair is unassigned, another drains first. -/
def xDeleteQ (q r : Nat) (d : Dev) : Dev :=
  d.start q r 0x41 (fun k c =>
    match d.qpOf (sqArg c.ent % 2048) (bitsOf (sqArg c.ent) 27 16) with
    | none => d.endCmd k 0x0B 0
    | some (lq, i) =>
      if d.qpAdmin lq i then d.endCmd k 0x0B 0
      else if d.qpState lq i = 1 then (d.unassignQp lq i).endCmd k 0 0
      else
        (((d.setPair lq i { d.pair lq i with delete := true }).setFld F.QP_CTRL_EN 0 lq i).setQpState lq i 3).waitFor k c (.pair lq i))

/-- The DELETE_Q of a record. -/
def execDeleteQ (q r : Nat) (s : State) : Host.Outcome State Fault Refusal := .next { s with d := s.d.unlessHalted (xDeleteQ q r s.d) }

/-- PAIR_DRAINED (R382, R409): the last command of a DRAINING pair has ended. -/
def xPairDrained (q i : Nat) (d : Dev) : Dev :=
  if d.qpState q i ≠ 3 ∨ d.fld F.QP_STAT_INFL q i ≠ 0 then d
  else if (d.pair q i).delete then (d.unassignQp q i).waitDone (.pair q i) 0 0
  else if d.flag F.QP_STAT_INRESET q i then
    let quench := d.fld F.QP_STAT_QUENCHED q i
    let info := d.reg (R.QP_INFO.at q i)
    (((((d.resetPage q i).setReg (R.QP_INFO.at q i) info).setFld F.QP_STAT_QUENCHED quench q i).setPair q i Pair.zero).setQpState q i 1).qpLevel q i
  else d.setQpState q i 1

/-- A pair has drained. -/
def execPairDrained (q i : Nat) (s : State) : Host.Outcome State Fault Refusal := .next { s with d := s.d.unlessHalted (xPairDrained q i s.d) }

/-! ### BIND_WINDOW -/

/-- BIND_WINDOW: WIN_ENT is written (09 R253); the command completes when the molt ends. -/
def xBindWindow (q r : Nat) (d : Dev) : Dev :=
  d.start q r 0x42 (fun k c =>
    let g := sqArg c.ent % 2 ^ 17
    let n := winPerQuarter Config.order
    let wq := g / n
    let i := g % n
    if 4 ≤ wq then d.endCmd k 0x0B 0
    else if !d.winEntOk wq i then d.endCmd k 0x0A 0
    else
      let d1 := d.winEntSet wq i (sqP c.ent 0)
      if (d1.reg (R.WIN_ENT.at wq i)).getLsbD 30 then d1.waitFor k c (.win wq i) else d1.endCmd k 0 0)

/-- The BIND_WINDOW of a record. -/
def execBindWindow (q r : Nat) (s : State) : Host.Outcome State Fault Refusal := .next { s with d := s.d.unlessHalted (xBindWindow q r s.d) }

/-! ### LOAD_GRAPH (08 R232) -/

/-- LOAD_GRAPH in one mode. -/
def Dev.loadCmd (d : Dev) (q r mode : Nat) : Dev :=
  d.start q r 0x43 (fun k c =>
    let a := sqArg c.ent
    let b := sqBuf c.ent 0
    let p := sqP c.ent 4
    if bitsOf a 9 8 ≠ mode then d
    else (d.waitFor k c (.load (a % 256))).loadStart ⟨a % 256, mode, bitsOf a 26 16, b.addr, b.len, p % 256, bitsOf p 15 8, bitsOf p 19 16, k⟩)

/-- LOAD_GRAPH FULL. -/
def xLoadFull (q r : Nat) (d : Dev) : Dev := d.loadCmd q r 0

/-- The LOAD_GRAPH FULL of a record. -/
def execLoadFull (q r : Nat) (s : State) : Host.Outcome State Fault Refusal :=
  .next { s with d := s.d.unlessHalted (xLoadFull q r s.d) }

/-- LOAD_GRAPH PATCH. -/
def xLoadPatch (q r : Nat) (d : Dev) : Dev := d.loadCmd q r 1

/-- The LOAD_GRAPH PATCH of a record. -/
def execLoadPatch (q r : Nat) (s : State) : Host.Outcome State Fault Refusal :=
  .next { s with d := s.d.unlessHalted (xLoadPatch q r s.d) }

/-- LOAD_GRAPH VERIFY. -/
def xLoadVerify (q r : Nat) (d : Dev) : Dev := d.loadCmd q r 2

/-- The LOAD_GRAPH VERIFY of a record. -/
def execLoadVerify (q r : Nat) (s : State) : Host.Outcome State Fault Refusal :=
  .next { s with d := s.d.unlessHalted (xLoadVerify q r s.d) }

/-- LOAD_GRAPH STATUS. -/
def xLoadStatus (q r : Nat) (d : Dev) : Dev := d.loadCmd q r 3

/-- The LOAD_GRAPH STATUS of a record. -/
def execLoadStatus (q r : Nat) (s : State) : Host.Outcome State Fault Refusal := .next { s with d := s.d.unlessHalted (xLoadStatus q r s.d) }

/-! ### START_SLOT, STOP_SLOT, MOLT (R399) -/

/-- Whether the position of a slot ID holds an anchor. -/
def Dev.hasAnchor (d : Dev) (s : Nat) : Bool := d.posValid (s / 4) (s % 4) && d.anchored s

/-- A slot command of a record: performed on the anchor block; the command waits for `w` while `busy`, else it completes
by RESULT. -/
def Dev.slotOp (d : Dev) (k : Nat) (c : Cmd) (op : Dev → Dev) (w : CmdWait) (busy : Dev → Bool) : Dev :=
  let s := sqArg c.ent % 256
  if !d.hasAnchor s then d.endCmd k 0x0B 0
  else
    let d1 := op d
    if busy d1 then d1.waitFor k c w
    else
      let v := d1.regN (slotReg s .SLOT_STAT)
      d1.endCmd k (slotStatus (bitsOf v 27 24)) (v % 2 ^ 32)

/-- START_SLOT. -/
def xStartSlot (q r : Nat) (d : Dev) : Dev :=
  d.start q r 0x44 (fun k c =>
    let s := sqArg c.ent % 256
    let idle := decide ((d.ctl s).busy ≠ .starting)
    d.slotOp k c (xStart (sliceMst q) (s / 4) (s % 4)) (.slot s) (fun x => idle && decide ((x.ctl s).busy = .starting)))

/-- The START_SLOT of a record. -/
def execStartSlot (q r : Nat) (s : State) : Host.Outcome State Fault Refusal := .next { s with d := s.d.unlessHalted (xStartSlot q r s.d) }

/-- Whether a stop of slot `s` has yet to take effect. -/
def Dev.stopRuns (d : Dev) (s : Nat) : Bool := decide (d.slotState s = stStopping) || (d.ctl s).resume

/-- STOP_SLOT in one of its forms. -/
def Dev.stopCmd (d : Dev) (q r : Nat) (clk : Clk) (abort : Bool) : Dev :=
  d.start q r 0x45 (fun k c =>
    let s := sqArg c.ent % 256
    if (sqArg c.ent).testBit 8 ≠ abort then d
    else d.slotOp k c (fun x => if abort then xStopAbort (sliceMst q) (s / 4) (s % 4) clk x else xStopDrain (sliceMst q) (s / 4) (s % 4) clk x)
      (.slot s) (fun x => x.stopRuns s))

/-- STOP_SLOT. -/
def xStopSlot (q r : Nat) (k : Clk) (d : Dev) : Dev := d.stopCmd q r k false

/-- The STOP_SLOT of a record. -/
def execStopSlot (q r : Nat) (s : State) : Host.Outcome State Fault Refusal := .next { s with d := s.d.unlessHalted (xStopSlot q r s.clk s.d) }

/-- STOP_SLOT with ABORT. -/
def xStopSlotAbort (q r : Nat) (k : Clk) (d : Dev) : Dev := d.stopCmd q r k true

/-- The STOP_SLOT with ABORT of a record. -/
def execStopSlotAbort (q r : Nat) (s : State) : Host.Outcome State Fault Refusal :=
  .next { s with d := s.d.unlessHalted (xStopSlotAbort q r s.clk s.d) }

/-- MOLT. -/
def xMgmtMolt (q r : Nat) (k : Clk) (d : Dev) : Dev :=
  d.start q r 0x46 (fun key c =>
    let s := sqArg c.ent % 256
    let idle := !d.slotBusy s
    d.slotOp key c (xMolt (sliceMst q) (s / 4) (s % 4) k) (.molt s) (fun x => idle && decide ((x.ctl s).busy = .molting)))

/-- The MOLT of a record. -/
def execMgmtMolt (q r : Nat) (s : State) : Host.Outcome State Fault Refusal := .next { s with d := s.d.unlessHalted (xMgmtMolt q r s.clk s.d) }

/-! ### SET_ENTRY (R403) -/

/-- Whether SET_ENTRY may name entry point `ep` of slot `s` for an owner (08 R244, R245). -/
def Dev.entryOk (d : Dev) (s ep oid : Nat) : Bool :=
  decide ((d.load s).st = 2) && (match (d.load s).eps.find? (fun p => decide (p.ep = ep)) with
    | none => false
    | some p => p.flags.testBit 2 || decide (d.regN (slotReg s .SLOT_OID) % 2048 = oid))

/-- SET_ENTRY; it waits while a sweep of the slot runs. -/
def xSetEntry (q r : Nat) (d : Dev) : Dev :=
  d.start q r 0x47 (fun k c =>
    let oid := sqArg c.ent % 2048
    let p := sqP c.ent 0
    let s := p % 256
    let ep := bitsOf p 11 8
    let a := d.entAddr q oid (bitsOf (sqArg c.ent) 23 16)
    let put (v : Nat) : Dev :=
      let w := d.hbm (wrReq (sliceMid q) 0 a 8 v) false .none
      w.1.endCmd k (memStatus (w.1.hbmCode (sliceMid q) 0 a true w.2.code)) 0
    if 1056 ≤ oid then d.endCmd k 0x0B 0
    else if !p.testBit 31 then put 0
    else if d.sweeping s then d
    else if !d.entryOk s ep oid then d.endCmd k 0x04 0
    else put (2 ^ 63 + ep * 2 ^ 56 + d.regN (slotReg s .SLOT_GEN) * 2 ^ 32 + s))

/-- The SET_ENTRY of a record. -/
def execSetEntry (q r : Nat) (s : State) : Host.Outcome State Fault Refusal := .next { s with d := s.d.unlessHalted (xSetEntry q r s.d) }

/-! ### QUENCH, UNQUENCH (R404) -/

/-- Whether any work of a command has started (R404): a task has been RUNNING, a job has moved data, or a management
action has begun. A FENCE that waits has done none; a FW_CALL waits for firmware (QUE-13). -/
def Dev.hasBegun (d : Dev) (k : Nat) (c : Cmd) : Bool :=
  let job (x : JobRef) : Bool := x.code.isSome || (match (d.engine x.vp).run with
    | some w => decide (w.j = x.j) && decide (0 < w.total)
    | none => false)
  let task (j : Nat) : Bool := match d.task (d.chainTask k j) with
    | some x => x.began
    | none => true
  match c.st with
  | .fetched => false
  | .ended => true
  | .running =>
    if sqOpc c.ent = 0x01 then c.jobs.any job || (c.submitted && c.chain.any task)
    else decide (sqOpc c.ent ≠ 0x04) && decide (sqOpc c.ent ≠ 0x4B)

/-- A command that has not started completes with a status; its tasks and jobs are cancelled. -/
def Dev.abortCmd (d : Dev) (now k : Nat) (c : Cmd) (status : Nat) : Dev :=
  let d1 := d.endCmd k status 0
  let d2 := if c.submitted then c.chain.foldl (fun x j => (x.cancel now (d.chainTask k j)).getD x) d1 else d1
  c.jobs.foldl (fun x j => if j.code = none then x.abortJob j.vp j.j else x) d2

/-- Every fetched command of a pair that has not started completes QUENCHED (MODE ABORT). -/
def Dev.abortUnstarted (d : Dev) (now q i : Nat) : Dev :=
  ((d.cmdsOf q).filter (fun e => decide (e.2.qp = i))).foldl (fun x e =>
    match x.cmd e.1 with
    | some c => if x.hasBegun e.1 c then x else x.abortCmd now e.1 c 0x02
    | none => x) d

/-- Quench pairs. -/
def Dev.quench (d : Dev) (now : Nat) (l : List (Nat × Nat)) (abort : Bool) : Dev :=
  l.foldl (fun x p =>
    let y := x.setFld F.QP_STAT_QUENCHED 1 p.1 p.2
    if abort then y.abortUnstarted now p.1 p.2 else y) d

/-- Unquench pairs. -/
def Dev.unquench (d : Dev) (l : List (Nat × Nat)) : Dev := l.foldl (fun x p => x.setFld F.QP_STAT_QUENCHED 0 p.1 p.2) d

/-- The pairs that an ARG of QUENCH or UNQUENCH names; none if there is no such pair. -/
def Dev.namedPairs (d : Dev) (a : Nat) : Option (List (Nat × Nat)) :=
  let oid := a % 2048
  if a.testBit 11 then (if d.fnExists oid then some (d.qpsOf oid) else none)
  else (d.qpOf oid (bitsOf a 27 16)).map (fun p => [p])

/-- QUENCH in one of its modes. The command itself has begun, so a quench of its own pair does not abort it. -/
def Dev.quenchCmd (d : Dev) (q r now : Nat) (abort : Bool) : Dev :=
  d.start q r 0x48 (fun k c =>
    if (sqArg c.ent).testBit 28 ≠ abort then d
    else match d.namedPairs (sqArg c.ent) with
      | none => d.endCmd k 0x0B 0
      | some l => ((d.waitFor k c .none).quench now l abort).endCmd k 0 l.length)

/-- QUENCH in MODE FINISH. -/
def xQuenchFinish (q r : Nat) (k : Clk) (d : Dev) : Dev := d.quenchCmd q r k.tick false

/-- The QUENCH, MODE FINISH, of a record. -/
def execQuenchFinish (q r : Nat) (s : State) : Host.Outcome State Fault Refusal :=
  .next { s with d := s.d.unlessHalted (xQuenchFinish q r s.clk s.d) }

/-- QUENCH in MODE ABORT. -/
def xQuenchAbort (q r : Nat) (k : Clk) (d : Dev) : Dev := d.quenchCmd q r k.tick true

/-- The QUENCH, MODE ABORT, of a record. -/
def execQuenchAbort (q r : Nat) (s : State) : Host.Outcome State Fault Refusal :=
  .next { s with d := s.d.unlessHalted (xQuenchAbort q r s.clk s.d) }

/-- UNQUENCH: only the tongue lifts a quench of the owner's admin pair. -/
def xUnquench (q r : Nat) (d : Dev) : Dev :=
  d.start q r 0x49 (fun k c =>
    match d.namedPairs (sqArg c.ent) with
    | none => d.endCmd k 0x0B 0
    | some l =>
      let l1 := l.filter (fun p => !(d.qpAdmin p.1 p.2 && decide (d.qpOid p.1 p.2 = 0)))
      (d.unquench l1).endCmd k 0 l1.length)

/-- The UNQUENCH of a record. -/
def execUnquench (q r : Nat) (s : State) : Host.Outcome State Fault Refusal := .next { s with d := s.d.unlessHalted (xUnquench q r s.d) }

/-! ### FW_CALL (R400) -/

/-- FW_CALL: the entry is copied for firmware, and a notice with the command's token is sent. -/
def xFwCall (q r : Nat) (d : Dev) : Dev :=
  d.start q r 0x4B (fun k c =>
    let ch := d.regN (R.QE_FW_CHAN.at q) % 256
    let a := getBits (d.reg (R.QE_FW_BASE.at q)) 47 11 * 2048 + 64 * (k % 4096)
    let w := d.memIdle (wrReq (sliceMid q) 0 a 64 c.ent)
    if w.2.code ≠ .okay then w.1.endCmd k 0x03 0
    else
      let d1 := xMbxSptr (sliceMst q) q ch a w.1
      if d1.out.code ≠ .okay then d1.endCmd k 0x0A 0
      else
        let token := k % 4096 + nget 0 d1.epochs k * 4096
        let d2 := xMbxSlt (sliceMst q) q ch (token * 2 ^ 32 + 64) d1
        if d2.out.code = .okay then d2.waitFor k c .firmware else d2.endCmd k 0x0A 0)

/-- The FW_CALL of a record. -/
def execFwCall (q r : Nat) (s : State) : Host.Outcome State Fault Refusal := .next { s with d := s.d.unlessHalted (xFwCall q r s.d) }

/-- QE_FWDONE is written. A STATUS above 0x0C, which no CQ entry ever carries (R401), is reserved (assumption 140). -/
def xQeFwdone (m : Mst) (q v : Nat) (k : Clk) (d : Dev) : Dev :=
  let x := R.QE_FWDONE.at q
  let key := cmdKey q (bitsOf v 59 48)
  let waits : Bool := match d.cmd key with
    | some c => decide (sqOpc c.ent = 0x4B ∧ c.st = .running ∧ nget 0 d.epochs key = bitsOf v 63 60)
    | none => false
  if !m.owner then d.denyOid m x
  else if 0x0C < bitsOf v 47 40 then d.refuseAs m x .reserved
  else if waits then (d.endCmd key (bitsOf v 47 40) (v % 2 ^ 32)).okay
  else (d.qeErr k.tick q 4 0).refuse m x

/-- Firmware completes a FW_CALL. -/
def execQeFwdone (m : Mst) (q v : Nat) (s : State) : Host.Outcome State Fault Refusal :=
  .next { s with d := xQeFwdone m q v s.clk s.d }

/-! ### The tongue (R405, R406) -/

/-- Write the waiting tongue commands; PENDING and BUSY show them. -/
def Dev.setTongue (d : Dev) (l : List Tongue) : Dev :=
  (({ d with tongue := l }).setFld F.QE_TONGUE_STAT_PENDING l.length 0).setFld F.QE_TONGUE_STAT_BUSY (b2n (decide (l ≠ []))) 0

/-- The head of the tongue has taken effect. -/
def Dev.tongueDone (d : Dev) (res : Nat) : Dev :=
  ((d.setTongue d.tongue.tail).setFld F.QE_TONGUE_STAT_DONE (d.fld F.QE_TONGUE_STAT_DONE 0 + 1) 0).setFld F.QE_TONGUE_STAT_RESULT res 0

/-- The masters that the tongue registers answer to: the owner PF's link, the control cores, the debug port. -/
def tongueMst (m : Mst) : Bool := decide (m.mid = 0x500) || decide (m.mid < 0x40) || decide (m.mid = 0x4C0)

/-- QE_TONGUE_ARG is written. -/
def xTongueArg (m : Mst) (v : Nat) (d : Dev) : Dev :=
  let x := R.QE_TONGUE_ARG.at 0
  if !m.owner then d.denyOid m x
  else if !tongueMst m then d.refuseSource m x
  else (d.setRegN x (v % 2 ^ 32)).okay

/-- QE_TONGUE_CMD is written: the command waits, TONGUE is raised. -/
def xTongueCmd (m : Mst) (v : Nat) (k : Clk) (d : Dev) : Dev :=
  let x := R.QE_TONGUE_CMD.at 0
  let c := bitsOf v 31 28
  if !m.owner then d.denyOid m x
  else if !tongueMst m then d.refuseSource m x
  else if c = 0 ∨ 3 < c then d.refuseAs m x .reserved
  else if 8 ≤ d.tongue.length then ((d.setFld F.QE_TONGUE_STAT_OVF 1 0).qeErr k.tick 0 5 0).refuse m x
  else
    ((((d.setTongue (d.tongue ++ [⟨c, d.regN (R.QE_TONGUE_ARG.at 0), false⟩])).setFld F.QE_TONGUE_STAT_ACCEPTED
      (d.fld F.QE_TONGUE_STAT_ACCEPTED 0 + 1) 0)).raise 0 0x030).okay

/-- A tongue QUENCH at the head takes effect. -/
def xTongueQuench (k : Clk) (d : Dev) : Dev :=
  match d.tongue with
  | [] => d
  | t :: _ =>
    if t.cmd ≠ 1 then d
    else match d.namedPairs t.arg with
      | none => d.tongueDone 1
      | some l => (d.quench k.tick l (t.arg.testBit 28)).tongueDone 0

/-- A tongue QUENCH takes effect. -/
def execTongueQuench (s : State) : Host.Outcome State Fault Refusal := .next { s with d := s.d.unlessHalted (xTongueQuench s.clk s.d) }

/-- A tongue UNQUENCH at the head takes effect. -/
def xTongueUnquench (d : Dev) : Dev :=
  match d.tongue with
  | [] => d
  | t :: _ =>
    if t.cmd ≠ 2 then d
    else match d.namedPairs t.arg with
      | none => d.tongueDone 1
      | some l => (d.unquench l).tongueDone 0

/-- A tongue UNQUENCH takes effect. -/
def execTongueUnquench (s : State) : Host.Outcome State Fault Refusal := .next { s with d := s.d.unlessHalted (xTongueUnquench s.d) }

/-- A tongue STOP_SLOT at the head: the slot stops; with ABORT it has taken effect once the running frame has ended. -/
def xTongueStopSlot (k : Clk) (d : Dev) : Dev :=
  match d.tongue with
  | [] => d
  | t :: r =>
    let s := t.arg % 256
    if t.cmd ≠ 3 then d
    else if t.begun then (if (d.ctl s).abort then d else d.tongueDone 0)
    else if !d.hasAnchor s then d.tongueDone 1
    else
      let d1 := if t.arg.testBit 8 then d.stopAbort k.tick s .tadpole else d.stopDrain k.tick s .tadpole
      let res := if getBits (d1.reg (slotReg s .SLOT_STAT)) 27 24 = 0 then 0 else 2
      if t.arg.testBit 8 ∧ (d1.ctl s).abort = true then d1.setTongue ({ t with begun := true } :: r) else d1.tongueDone res

/-- A tongue STOP_SLOT takes effect. -/
def execTongueStopSlot (s : State) : Host.Outcome State Fault Refusal := .next { s with d := s.d.unlessHalted (xTongueStopSlot s.clk s.d) }

/-! ### Completions (R387, R410) -/

/-- The interrupt of a pair is due: its vector is sent, or it waits until the function can send (R410, 12 R343). -/
def Dev.qpInterrupt (d : Dev) (q i : Nat) : Dev :=
  let oid := d.qpOid q i
  let p := d.pair q i
  let vec := bitsOf p.intr 24 16
  if d.vecCount oid ≤ vec then d.setPair q i { p with cnt := 0, due := false }
  else if d.msixReady oid then (d.setPair q i { p with cnt := 0, due := false }).msixSend oid vec
  else d.setPair q i { p with due := true }

/-- QP_INTR and QP_ITIME as they stand apply from this CQ entry on (R385). -/
def Dev.qpLatch (d : Dev) (q i : Nat) : Dev :=
  d.setPair q i { d.pair q i with intr := d.regN (R.QP_INTR.at q i), itime := d.fld F.QP_ITIME_ITIME q i }

/-- One more entry counts toward the interrupt of a pair. -/
def Dev.qpCount (d : Dev) (now q i : Nat) : Dev :=
  let p := d.pair q i
  let d1 := d.setPair q i { p with cnt := p.cnt + 1, since := if p.cnt = 0 then now else p.since }
  if p.intr.testBit 31 ∧ p.intr % 256 ≤ p.cnt + 1 then d1.qpInterrupt q i else d1

/-- The 16 bytes of a CQ entry (QUE-7). -/
def Dev.cqEntry (d : Dev) (now q : Nat) (c : Cmd) : List Byte :=
  leBytes (c.result % 2 ^ 32 + now % 2 ^ 32 * 2 ^ 32 + d.regN (R.SQ_HEAD.at q c.qp) * 2 ^ 64 + d.fld F.QP_OWN_N q c.qp * 2 ^ 80
    + sqCid c.ent * 2 ^ 96 + c.status % 256 * 2 ^ 112 + d.fld F.QP_STAT_PHASE q c.qp * 2 ^ 120) 16

/-- CQ_ENTRY_WRITE: the CQ entry of an ended command, unless its function cannot issue. -/
def xCqEntryWrite (q r : Nat) (k : Clk) (d : Dev) : Dev :=
  let key := cmdKey q r
  match d.cmd key with
  | none => d
  | some c =>
    let i := c.qp
    let oid := d.qpOid q i
    if c.st ≠ .ended ∨ !d.fnIssues oid then d
    else
      let tail := d.regN (R.CQ_TAIL.at q i)
      let next := (tail + 1) % d.cqSize q i
      let d1 := d.send (.hostWrite oid (d.regN (R.CQ_BASE.at q i) + 16 * tail) (d.cqEntry k.tick q c))
      let d2 := d1.setRegN (R.CQ_TAIL.at q i) next
      let d3 := if next = 0 then d2.setFld F.QP_STAT_PHASE (1 - d2.fld F.QP_STAT_PHASE q i) q i else d2
      let d4 := (d3.freeCmd key i).qpLatch q i
      (if (sqFlags c.ent).testBit 0 then d4 else d4.qpCount k.tick q i).fenceSweep q

/-- A CQ entry is written. -/
def execCqEntryWrite (q r : Nat) (s : State) : Host.Outcome State Fault Refusal :=
  .next { s with d := s.d.unlessHalted (xCqEntryWrite q r s.clk s.d) }

/-- ITIME_EXPIRY (R410). -/
def xItimeExpiry (q i : Nat) (k : Clk) (d : Dev) : Dev :=
  let p := d.pair q i
  if p.intr.testBit 31 ∧ p.itime ≠ 0 ∧ p.cnt ≠ 0 ∧ p.itime ≤ k.tick - p.since then d.qpInterrupt q i else d

/-- The time limit of a pair's interrupt has passed. -/
def execItimeExpiry (q i : Nat) (s : State) : Host.Outcome State Fault Refusal :=
  .next { s with d := s.d.unlessHalted (xItimeExpiry q i s.clk s.d) }

/-- Interrupts of pairs that wait are tried again at a tick edge (12 R343). -/
def Dev.qpRetry (d : Dev) : Dev :=
  (d.pairs.filterMap (fun e => if e.2.due then some e.1 else none)).foldl (fun x n => x.qpInterrupt (n / 1024) (n % 1024)) d

/-! ### Resets (R409, 20 R545) -/

/-- A function reset reaches the queue engine (R409): every pair of the function drains with INRESET; unstarted commands
are aborted, every CQ entry is discarded. -/
def Dev.qpReset (d : Dev) (now oid : Nat) : Dev :=
  (d.qpsOf oid).foldl (fun x p =>
    let q := p.1
    let i := p.2
    let y := if x.qpState q i = 2 ∨ x.qpState q i = 3 ∨ x.qpState q i = 1
      then ((x.setFld F.QP_CTRL_EN 0 q i).setFld F.QP_STAT_INRESET 1 q i).setQpState q i 3 else x
    let l := (y.cmdsOf q).filter (fun e => decide (e.2.qp = i))
    let z := l.foldl (fun w e => match w.cmd e.1 with
      | some c => if c.st = .ended then w.freeCmd e.1 i else w.setCmd e.1 (some { c with discard := true })
      | none => w) y
    ((z.abortUnstarted now q i).setPair q i { z.pair q i with cnt := 0, due := false }).fenceSweep q) d

/-- A record that no slice has: the command of a list whose MEDIA command a reset has discarded (20 R545). Its end completes
nothing, and the list still writes no completion record (15 R437; assumption 151). -/
def goneRec : Nat := 4 * 4096

/-- A list of a command of slice `q` runs on without its command. -/
def orphan (q : Nat) (k : Option Nat) : Option Nat := k.map (fun n => if n / 4096 = q then goneRec else n)

/-- The lists of every MEDIA command of slice `q` run on without it. -/
def MChan.orphans (c : MChan) (q : Nat) : MChan :=
  { c with
    posts := c.posts.map (fun p => { p with cmd := orphan q p.cmd }),
    ctxs := c.ctxs.map (fun e => (e.1, e.2.map (fun y => { y with cmd := orphan q y.cmd }))) }

/-- A quarter reset reaches the queue engine (20 R545): the slice discards its records and its pairs become UNASSIGNED;
commands of other slices whose tasks were homed there complete ABORTED and are counted in FLT_QLOST. -/
def Dev.qeReset (d : Dev) (q : Nat) : Dev :=
  let d1 : Dev := { d with
    cmds := ndrop d.cmds (fun k => decide (k / 4096 = q)), pairs := ndrop d.pairs (fun k => decide (k / 1024 = q)),
    epochs := ndrop d.epochs (fun k => decide (k / 4096 = q)),
    mch := d.mch.map (fun e => (e.1, e.2.orphans q)), tongue := if q = 0 then [] else d.tongue }
  let lost : List Nat := d1.cmds.filterMap (fun e => match e.2 with
    | some c => if e.1 % 4096 / 1024 = q ∧ c.st = .running ∧ sqOpc c.ent = 0x01 then some e.1 else none
    | none => none)
  lost.foldl (fun x k => match x.cmd k with
    | some c => ((x.setCmd k (some { c with fin := some (0x01, 0), todo := [], submitted := true })).cmdTry k).bump (R.FLT_QLOST.at (k / 4096))
    | none => x) d1

end Sys2Proof.Machine
end

