-- ==== Sys2Proof/Machine/Links.lean ====
section
/-! DEFINITION. Host links and their functions (chapter 13; rows HIF_LCTRL to COMPLETION_TIMEOUT, but for BAR_REQUEST). -/

namespace Sys2Proof.Machine

/-! ### Links (R367, R371, R373) -/

/-- Whether CONF_DONE has asserted. -/
def Dev.confDone (d : Dev) : Bool := d.fld F.AO_STATUS_CONF 0 == 1

/-- Whether HOST_PERST_N of the port of a link is released. -/
def Dev.perstOff (d : Dev) (L : Nat) : Bool := nget false d.perst (L / 4)

/-- A link's READY bits: UP, and CONF_DONE asserted (R371). -/
def Dev.linkReady (d : Dev) (L : Nat) : Dev :=
  let up := decide (getBits (d.reg (linkReg L .HIF_LSTAT)) 31 28 = 3)
  let r := up && d.confDone
  ((d.setBit (linkReg L .HIF_LSTAT) 8 r).setBit (R.HIF_STAT.at (L / 8)) (8 + L % 8) r).setBit (R.HIF_STAT.at (L / 8)) (L % 8) up

/-- READY of every link, when CONF_DONE asserts. -/
def Dev.linksReady (d : Dev) : Dev := (upTo 32).foldl (fun x L => x.linkReady L) d

/-- Put a link into a state of HOST-5; outside UP it has no rate and no width. -/
def Dev.setLink (d : Dev) (L st : Nat) : Dev :=
  let x := linkReg L .HIF_LSTAT
  let v := putBits (d.reg x) 31 28 st
  (d.setReg x (if st = 3 then v else putBits (putBits v 23 20 0) 19 9 0)).linkReady L

/-- The state source of a link. -/
def Dev.linkRaise (d : Dev) (L : Nat) : Dev := d.raise (L / 8) (0x2E0 + L % 8)

/-- HIF_LLOG and HIF_DOWN_CNT (R373). -/
def Dev.linkLog (d : Dev) (now L st : Nat) : Dev :=
  (d.logFirst (linkReg L .HIF_LLOG) (st * 2 ^ 58 + now % 2 ^ 32)).bump (linkReg L .HIF_DOWN_CNT)

/-- The link width of HOST-1; 0 where BIF makes the link absent. -/
def Dev.linkWidth (d : Dev) (L : Nat) : Nat :=
  let div := d.fld F.HIF_PCFG_BIF (L / 8) (L / 4 % 2)
  if div = 0 then (if L % 4 = 0 then 16 else 0) else if div = 1 then (if L % 4 < 2 then 8 else 0) else if div = 2 then 4 else 0

/-! ### Function resets (R374, R375) -/

/-- The bit of a function in HIF_FLRPEND of its link: 0 the PF, n VF n. -/
def Dev.flrBit (d : Dev) (L oid : Nat) : Nat := if oid < 32 then 0 else oid - d.fld F.HIF_VFBASE_VFBASE (L / 8) (L % 8) + 1

/-- One function is reset: its queues, its configuration space but for sticky error bits, its MSI-X table and pending bits
(R375). -/
def Dev.fnReset (d : Dev) (now oid : Nat) : Dev :=
  let d1 := (d.qpReset now oid).setFn oid { Fn.zero with reset := true, unc := (d.fn oid).unc }
  d1.resetRegs (fun x => (decide (x.r = .FN_MSIX) || decide (x.r = .FN_PBA)) && decide (x.i = oid))

/-- Functions of a link are reset: HIF_FLRPEND, one HOST_RESET occurrence (R374). -/
def Dev.resetFns (d : Dev) (now L : Nat) (l : List Nat) : Dev :=
  let d1 := l.foldl (fun x o =>
    (x.fnReset now o).setBit (R.HIF_FLRPEND.at (L / 8) (L % 8) (d.flrBit L o / 32)) (d.flrBit L o % 32) true) d
  if l = [] then d1 else d1.raise (L / 8) (0x031 + L % 8)

/-- The functions of a link that exist: the PF, and VF 1 to NumVFs while VF Enable is set (R366). -/
def Dev.liveFns (d : Dev) (L : Nat) : List Nat :=
  let f := d.fn L
  (d.linkFns L).filter (fun o => decide (o = L) || (f.vfEn && decide (d.flrBit L o ≤ f.numVfs)))

/-- Whether the running job of an engine moves host memory over a link. -/
def Dev.hostJobOn (d : Dev) (L vp : Nat) : Bool :=
  match (d.engine vp).run with
  | none => false
  | some r => decide (getBits (d.jattr vp r.j) 26 24 = 1) && decide (d.linkOf (getBits (d.jattr vp r.j) 21 11) = some L)

/-- Whether the running job of an engine is a read of host memory. -/
def Dev.hostRead (d : Dev) (vp : Nat) : Bool :=
  match (d.engine vp).run with
  | none => false
  | some r => decide (getBits (d.jattr vp r.j) 26 24 = 1) && !d.vpOut vp

/-- A link leaves UP: the reads of host memory outstanding on it end HOST_TO (R363). -/
def Dev.wireEnds (d : Dev) (now L : Nat) : Dev :=
  ((d.sen.map (fun e => e.1)).filter (fun v => d.hostJobOn L v && d.hostRead v)).foldl (fun x v => x.jobError now v 4 0) d

/-- A link leaves UP: the requests on it end, the loss is recorded and counted; the functions that exist are reset (R363,
R373, R374). -/
def Dev.linkDown (d : Dev) (now L st : Nat) : Dev :=
  let fns := d.liveFns L
  (((((d.wireEnds now L).setLink L st).linkRaise L).linkLog now L 1).resetFns now L fns)

/-- CONF_ERR asserts (R372, R373): every link leaves UP for NOCONF, its loss raised and recorded. -/
def Dev.linksFail (d : Dev) (now : Nat) : Dev :=
  (upTo 32).foldl (fun x L => if getBits (x.reg (linkReg L .HIF_LSTAT)) 31 28 = 3 then x.linkDown now L 1 else x) d

/-! ### HIF_LCTRL (R367) -/

/-- The PF and VF vectors that a link claims. -/
def Dev.linkVecs (d : Dev) (L : Nat) : Nat :=
  d.fld F.HIF_LCFG_PF_VECS (L / 8) (L % 8) + d.fld F.HIF_VFCFG_TOTALVFS (L / 8) (L % 8) * d.fld F.HIF_VFCFG_VF_VECS (L / 8) (L % 8)

/-- The first failing check of R367 as its CFGERR code, 0 for none. -/
def Dev.linkCheck (d : Dev) (L : Nat) : Nat :=
  let q := L / 8
  let l := L % 8
  let total := d.fld F.HIF_VFCFG_TOTALVFS q l
  let base := d.fld F.HIF_VFBASE_VFBASE q l
  let pfv := d.fld F.HIF_LCFG_PF_VECS q l
  let vfv := d.fld F.HIF_VFCFG_VF_VECS q l
  let others := (upTo 32).filter (fun x => decide (x ≠ L) && d.linkEn x)
  let laps (x : Nat) : Bool :=
    let b := d.fld F.HIF_VFBASE_VFBASE (x / 8) (x % 8)
    let n := d.fld F.HIF_VFCFG_TOTALVFS (x / 8) (x % 8)
    decide (0 < n) && decide (base < b + n) && decide (b < base + total)
  let sum (f : Nat → Nat) : Nat := others.foldl (fun a x => a + f x) (f L)
  if d.linkWidth L = 0 then 1
  else if 0 < total ∧ (base < 32 ∨ 1056 < base + total ∨ others.any laps = true) then 2
  else if 1024 < sum (fun x => d.fld F.HIF_VFCFG_TOTALVFS (x / 8) (x % 8)) then 3
  else if pfv = 0 ∨ 512 < pfv ∨ (0 < total ∧ (vfv = 0 ∨ 512 < vfv)) ∨ 16384 < sum d.linkVecs then 4
  else if 12 < d.fld F.HIF_LCFG_DBQ q l ∨ 12 < d.fld F.HIF_VFCFG_VF_DBQ q l then 5
  else 0

/-- The admin pair of a link that is disabled: it becomes UNASSIGNED, once it has drained (14 R381). -/
def Dev.dropAdmin (d : Dev) (L : Nat) : Dev :=
  let q := L / 8
  let i := L % 8
  if d.qpState q i = 1 then d.unassignQp q i
  else if d.qpState q i = 0 then d
  else ((d.setPair q i { d.pair q i with delete := true }).setFld F.QP_CTRL_EN 0 q i).setQpState q i 3

/-- HIF_LCTRL is written. -/
def xHifLctrl (m : Mst) (L v : Nat) (k : Clk) (d : Dev) : Dev :=
  let x := linkReg L .HIF_LCTRL
  let st := linkReg L .HIF_LSTAT
  if !m.owner then d.denyOid m x
  else if v % 2 = 1 then
    if d.linkEn L then d.okay
    else
      let e := d.linkCheck L
      if e ≠ 0 then (d.setReg st (putBits (d.reg st) 27 24 e)).refuse m x
      else
        let d1 := (d.setReg st (putBits (d.reg st) 27 24 0)).setBit x 0 true
        ((d1.setLink L 1).assignAdmin L).okay
  else if !d.linkEn L then d.okay
  else
    let d1 := if getBits (d.reg st) 31 28 = 3 then d.linkDown k.tick L 0 else d.setLink L 0
    ((d1.dropAdmin L).setBit x 0 false).okay

/-- HIF_LCTRL is written. -/
def execHifLctrl (m : Mst) (link v : Nat) (s : State) : Host.Outcome State Fault Refusal :=
  .next { s with d := xHifLctrl m link v s.clk s.d }

/-! ### Training (R370–R373) -/

/-- Whether the lanes of a link may leave electrical idle. -/
def Dev.mayTrain (d : Dev) (L : Nat) : Bool := d.linkEn L && d.perstOff L && decide (d.linkState L ≠ 6)

/-- RECEIVER_DETECTED: DETECT and ABSENT go to TRAINING. -/
def xReceiverDetected (L : Nat) (d : Dev) : Dev :=
  if d.mayTrain L ∧ (d.linkState L = 1 ∨ d.linkState L = 4) then d.setLink L 2 else d

/-- A receiver is seen. -/
def execReceiverDetected (link : Nat) (s : State) : Host.Outcome State Fault Refusal :=
  .next { s with d := xReceiverDetected link s.d }

/-- LINK_UP at a rate up to MAXSPEED and a width up to the link's; flit mode is required at 64 and 128 GT/s (R359, HOST-2). -/
def xLinkUp (L speed width : Nat) (flit : Bool) (d : Dev) : Dev :=
  let x := linkReg L .HIF_LSTAT
  let okW := [1, 2, 4, 8, 16].contains width && decide (width ≤ d.linkWidth L)
  let okS := decide (0 < speed ∧ speed ≤ 7 ∧ speed ≤ d.fld F.HIF_LCFG_MAXSPEED (L / 8) (L % 8)) && (decide (speed < 6) || flit)
  if d.mayTrain L ∧ (d.linkState L = 2 ∨ d.linkState L = 5) ∧ okW = true ∧ okS = true then
    let d1 := d.setLink L 3
    let d2 := d1.setFld F.CAL_HLINK_TTEMP (d1.fld F.PWR_TQ_TQ (L / 8)) (L / 8) (L % 8)
    (d2.setReg x (putBits (putBits (putBits (putBits (d2.reg x) 23 20 speed) 19 15 width) 14 14 (b2n flit)) 13 9 width)).linkRaise L
  else d

/-- A link comes up. -/
def execLinkUp (link speed width : Nat) (flit : Bool) (s : State) : Host.Outcome State Fault Refusal :=
  .next { s with d := xLinkUp link speed width flit s.d }

/-- ABSENT: no receiver for 1 s. -/
def xAbsent (L : Nat) (k : Clk) (d : Dev) : Dev :=
  if d.mayTrain L ∧ d.linkState L = 1 then ((d.setLink L 4).linkRaise L).linkLog k.tick L 4 else d

/-- A link finds no receiver. -/
def execAbsent (link : Nat) (s : State) : Host.Outcome State Fault Refusal := .next { s with d := xAbsent link s.clk s.d }

/-- TRAIN_FAIL: no L0 within 1 s. -/
def xTrainFail (L : Nat) (k : Clk) (d : Dev) : Dev :=
  if d.mayTrain L ∧ d.linkState L = 2 then ((d.setLink L 5).linkRaise L).linkLog k.tick L 5 else d

/-- A link fails to train. -/
def execTrainFail (link : Nat) (s : State) : Host.Outcome State Fault Refusal :=
  .next { s with d := xTrainFail link s.clk s.d }

/-- LINK_LOSS: the requests outstanding end as timeouts (R363), the functions are reset, the link detects again. -/
def xLinkLoss (L : Nat) (vps : List Nat) (k : Clk) (d : Dev) : Dev :=
  if d.linkState L ≠ 3 then d
  else
    let d1 := (vps.filter (fun v => d.hostJobOn L v)).foldl (fun x v => x.jobError k.tick v 4 0) d
    d1.linkDown k.tick L 1

/-- A link is lost. -/
def execLinkLoss (link : Nat) (vps : List Nat) (s : State) : Host.Outcome State Fault Refusal :=
  .next { s with d := xLinkLoss link vps s.clk s.d }

/-! ### Resets from the host (R374) -/

/-- A link of a port under HOST_PERST_N: every function reset, sticky bits included, its HIF_FLRPEND bits cleared, lanes idle
(R374, R379). -/
def Dev.perstLink (d : Dev) (now L : Nat) : Dev :=
  let clear (y : Dev) : Dev :=
    y.resetRegs (fun x => decide (x.r = .HIF_FLRPEND) && decide (x.q = L / 8) && decide (x.i = L % 8))
  if !d.linkEn L then clear d
  else
    let fns := d.liveFns L
    let d1 := if getBits (d.reg (linkReg L .HIF_LSTAT)) 31 28 = 3
      then (((d.wireEnds now L).setLink L 1).linkRaise L).linkLog now L 1
      else d.setLink L 1
    clear (fns.foldl (fun x o => x.setFn o { x.fn o with unc := 0 }) (d1.resetFns now L fns))

/-- HOST_PERST_N asserts. -/
def xHostPerstNAssert (p : Nat) (k : Clk) (d : Dev) : Dev :=
  if nget false d.perst p then
    (upTo 4).foldl (fun x j => x.perstLink k.tick (4 * p + j)) { d with perst := nset false d.perst p false }
  else d

/-- HOST_PERST_N of a port asserts. -/
def execHostPerstNAssert (port : Nat) (s : State) : Host.Outcome State Fault Refusal :=
  .next { s with d := xHostPerstNAssert port s.clk s.d }

/-- HOST_PERST_N releases: the port's links may train. -/
def xHostPerstNRelease (p : Nat) (d : Dev) : Dev := if p < 8 then { d with perst := nset false d.perst p true } else d

/-- HOST_PERST_N of a port releases. -/
def execHostPerstNRelease (port : Nat) (s : State) : Host.Outcome State Fault Refusal :=
  .next { s with d := xHostPerstNRelease port s.d }

/-- HOT_RESET: every function of the link is reset, and the link retrains. -/
def xHotReset (L : Nat) (k : Clk) (d : Dev) : Dev := if d.linkState L = 3 then d.linkDown k.tick L 1 else d

/-- A hot reset is received. -/
def execHotReset (link : Nat) (s : State) : Host.Outcome State Fault Refusal := .next { s with d := xHotReset link s.clk s.d }

/-- Whether a configuration request to a function is performed, not answered with retry status: CONF_DONE has asserted,
and no reset of it runs (R371, R375). -/
def Dev.cfgTaken (d : Dev) (oid : Nat) : Bool := d.confDone && !(d.fn oid).reset

/-- FLR_PF: the PF and its VFs. The host orders it, as every change below, by a configuration request. -/
def xFlrPf (oid : Nat) (k : Clk) (d : Dev) : Dev :=
  if oid < 32 ∧ d.linkState oid = 3 ∧ d.cfgTaken oid = true then d.resetFns k.tick oid (d.liveFns oid) else d

/-- An FLR of a PF. -/
def execFlrPf (oid : Nat) (s : State) : Host.Outcome State Fault Refusal := .next { s with d := xFlrPf oid s.clk s.d }

/-- FLR_VF; absorbed while its PF's FLR runs (HOST-7). -/
def xFlrVf (oid : Nat) (k : Clk) (d : Dev) : Dev :=
  match d.linkOf oid with
  | none => d
  | some L =>
    if 32 ≤ oid ∧ d.linkState L = 3 ∧ (d.liveFns L).contains oid = true ∧ (d.fn L).reset = false ∧ d.cfgTaken oid = true then
      d.resetFns k.tick L [oid] else d

/-- An FLR of a VF. -/
def execFlrVf (oid : Nat) (s : State) : Host.Outcome State Fault Refusal := .next { s with d := xFlrVf oid s.clk s.d }

/-- The host sets VF Enable and NumVFs of a PF; VFs that this removes are reset (R374). -/
def Dev.setVfs (d : Dev) (now L : Nat) (en : Bool) (n : Nat) : Dev :=
  let f := d.fn L
  let nv := Nat.min n (d.fld F.HIF_VFCFG_TOTALVFS (L / 8) (L % 8))
  let gone := (d.liveFns L).filter (fun o => decide (o ≠ L) && (!en || decide (nv < d.flrBit L o)))
  (d.resetFns now L gone).setFn L { f with vfEn := en, numVfs := nv }

/-- VF_ENABLE_CLEARED, or NumVFs reduced to `n`. -/
def xVfEnableCleared (oid n : Nat) (k : Clk) (d : Dev) : Dev :=
  if oid < 32 ∧ d.linkState oid = 3 ∧ (d.fn oid).vfEn = true ∧ n ≤ (d.fn oid).numVfs ∧ d.cfgTaken oid = true then
    d.setVfs k.tick oid (decide (0 < n)) n else d

/-- VFs are removed. -/
def execVfEnableCleared (oid n : Nat) (s : State) : Host.Outcome State Fault Refusal :=
  .next { s with d := xVfEnableCleared oid n s.clk s.d }

/-- FUNCTION_RESET_COMPLETE. -/
def xFunctionResetComplete (oid : Nat) (d : Dev) : Dev :=
  if (d.fn oid).reset then d.setFn oid { d.fn oid with reset := false } else d

/-- A function reset completes. -/
def execFunctionResetComplete (oid : Nat) (s : State) : Host.Outcome State Fault Refusal :=
  .next { s with d := xFunctionResetComplete oid s.d }

/-! ### Power states and widths (R377, R378) -/

/-- Whether the host reaches a function: its link is UP and it exists. -/
def Dev.fnReached (d : Dev) (oid : Nat) : Bool :=
  match d.linkOf oid with
  | none => false
  | some L => decide (d.linkState L = 3) && (d.liveFns L).contains oid

/-- D3HOT_ENTRY. -/
def xD3hotEntry (oid : Nat) (d : Dev) : Dev := 
  if d.fnReached oid ∧ d.cfgTaken oid = true then d.setFn oid { d.fn oid with d3 := true } else d

/-- A function enters D3hot. -/
def execD3hotEntry (oid : Nat) (s : State) : Host.Outcome State Fault Refusal := .next { s with d := xD3hotEntry oid s.d }

/-- D0_RETURN. -/
def xD0Return (oid : Nat) (d : Dev) : Dev := 
  if d.fnReached oid ∧ d.cfgTaken oid = true then d.setFn oid { d.fn oid with d3 := false } else d

/-- A function returns to D0. -/
def execD0Return (oid : Nat) (s : State) : Host.Outcome State Fault Refusal := .next { s with d := xD0Return oid s.d }

/-- L0P_WIDTH_CHANGE: granted in flit mode, within the trained width. -/
def xL0pWidthChange (L w : Nat) (d : Dev) : Dev :=
  let x := linkReg L .HIF_LSTAT
  if d.linkState L = 3 ∧ (d.reg x).getLsbD 14 = true ∧ [1, 2, 4, 8, 16].contains w = true ∧ w ≤ getBits (d.reg x) 19 15 then
    d.setReg x (putBits (d.reg x) 13 9 w)
  else d

/-- The partner changes the width. -/
def execL0pWidthChange (link w : Nat) (s : State) : Host.Outcome State Fault Refusal :=
  .next { s with d := xL0pWidthChange link w s.d }

/-! ### Configuration requests (R371) -/

/-- Transactions Pending of a function: a read of host memory runs for it (R375). -/
def Dev.transPending (d : Dev) (oid : Nat) : Bool :=
  d.sen.any (fun e => d.hostRead e.1 && (match e.2.run with
    | some r => decide (getBits (d.jattr e.1 r.j) 21 11 = oid)
    | none => false))

/-- The number of VFs times the size of a VF's BAR: what a VF BAR of a PF decodes. -/
def Dev.vfBarSize (d : Dev) (L n : Nat) : Nat :=
  let q := L / 8
  let l := L % 8
  let t := d.fld F.HIF_VFCFG_TOTALVFS q l
  if n = 0 then t * 0x4000 else if n = 1 then t * (4096 * 2 ^ d.fld F.HIF_VFCFG_VF_DBQ q l) else 0

/-- One dword of a 64-bit, non-prefetchable memory BAR register of `size` bytes that holds `v` (R368): the type code in the
low bits, the address bits below the size 0; a BAR that is not implemented reads 0. -/
def barDword (v size : Nat) (high : Bool) : Nat :=
  if size = 0 then 0
  else
    let base := v % 2 ^ 64 / size * size
    if high then base / 2 ^ 32 else base % 2 ^ 32 + 4

/-- What the spec fixes of a dword of the header: a mask and the bits under it (R361, R365, R368). -/
def Dev.headWord (d : Dev) (L oid dword : Nat) : Nat × Nat :=
  let f := d.fn oid
  let bar (n : Nat) : Nat := if oid < 32 then barDword (nget 0 f.bars (n / 2)) (d.barSize oid (n / 2 * 2)) (n % 2 == 1) else 0
  if dword = 0 then (0xFFFF0000, (if oid < 32 then 0x0496 else 0x0497) * 2 ^ 16)
  else if dword = 1 then (0x00100006, 0x00100000 + 4 * b2n f.bme + 2 * b2n f.mse)
  else if 4 ≤ dword ∧ dword < 10 then (0xFFFFFFFF, bar (dword - 4))
  else if dword = 11 then (0xFFFFFFFF, d.regN (linkReg L .HIF_IDCFG))
  else (0, 0)

/-- The capabilities that HOST-2 leaves out: MSI, and ACS, ATS, PRI, Resizable BAR, TPH, PASID, L1 PM substates, RTR, FRS,
DOE and IDE among the extended ones. -/
def capLeftOut (ext : Bool) (id : Nat) : Bool :=
  if ext then [0x0D, 0x0F, 0x13, 0x15, 0x17, 0x1B, 0x1E, 0x21, 0x22, 0x2E, 0x30].contains id else decide (id = 5)

/-- What the spec fixes of dword `off` of a capability: a mask and the bits under it. Power management (No_Soft_Reset, no D1,
D2 or PME), MSI-X (table size, control, where table and PBA lie), PCI Express (MPS, MRRS, Transactions Pending, link speed
and width, timeout ranges A to D, 10-bit tags), AER, SR-IOV of a PF. -/
def Dev.capWord (d : Dev) (L oid : Nat) (ext : Bool) (id off : Nat) : Nat × Nat :=
  let f := d.fn oid
  let x := d.reg (linkReg L .HIF_LSTAT)
  match ext, id, off with
  | false, 0x01, 0 => (0xFE000000, 0)
  | false, 0x01, 1 => (0x0000000B, 8 + (if f.d3 then 3 else 0))
  | false, 0x11, 0 => (0xC7FF0000, b2n f.msixEn * 2 ^ 31 + b2n f.msixMask * 2 ^ 30 + (d.vecCount oid - 1) * 2 ^ 16)
  | false, 0x11, 1 => (0xFFFFFFFF, if oid = 0 then 0x121000 else 0x1000)
  | false, 0x11, 2 => (0xFFFFFFFF, if oid = 0 then 0x123000 else 0x3000)
  | false, 0x10, 1 => (0x10000007, 0x10000005)
  | false, 0x10, 2 => (0x002070E0, f.mps % 8 * 2 ^ 5 + f.mrrs % 8 * 2 ^ 12 + b2n (d.transPending oid) * 2 ^ 21)
  | false, 0x10, 3 => (0x00000FFF, d.fld F.HIF_LCFG_MAXSPEED (L / 8) (L % 8) + d.linkWidth L * 2 ^ 4)
  | false, 0x10, 4 => (0x03FF0000, getBits x 23 20 * 2 ^ 16 + getBits x 19 15 * 2 ^ 20)
  | false, 0x10, 9 => (0x000303DF, 0x0003000F)
  | false, 0x10, 10 => (0x0000001F, f.cto % 16)
  | true, 0x01, 1 => (0xFFFFFFFF, f.unc)
  | true, 0x10, 2 => (0x00000001, b2n f.vfEn)
  | true, 0x10, 3 => (0xFFFFFFFF, d.fld F.HIF_VFCFG_TOTALVFS (L / 8) (L % 8) * 65537)
  | true, 0x10, 4 => (0x0000FFFF, f.numVfs)
  | true, 0x10, 9 => (0xFFFFFFFF, barDword (nget 0 f.bars 3) (d.vfBarSize L 0) false)
  | true, 0x10, 10 => (0xFFFFFFFF, barDword (nget 0 f.bars 3) (d.vfBarSize L 0) true)
  | true, 0x10, 11 => (0xFFFFFFFF, barDword (nget 0 f.bars 4) (d.vfBarSize L 1) false)
  | true, 0x10, 12 => (0xFFFFFFFF, barDword (nget 0 f.bars 4) (d.vfBarSize L 1) true)
  | true, 0x10, 13 => (0xFFFFFFFF, 0)
  | true, 0x10, 14 => (0xFFFFFFFF, 0)
  | _, _, _ => (0, 0)

/-- A configuration dword: the bits under the mask as the spec fixes them, the others the PCIe specification's and free. -/
def Dev.cfgValue (d : Dev) (p : Nat × Nat) : Nat × Dev :=
  let f := d.fresh
  ((f.1.toNat % 2 ^ 32 &&& (2 ^ 32 - 1 - p.1)) ||| (p.2 &&& p.1), f.2)

/-- The host writes a dword of a BAR register: `n` counts the dwords of BAR 0 to 5, then those of the VF BARs. -/
def Fn.setBar (f : Fn) (n v : Nat) : Fn :=
  let old := nget 0 f.bars (n / 2)
  let new := if n % 2 = 0 then old / 2 ^ 32 * 2 ^ 32 + v % 2 ^ 32 else v % 2 ^ 32 * 2 ^ 32 + old % 2 ^ 32
  { f with bars := nset 0 f.bars (n / 2) new }

/-- CONFIGURATION_REQUEST: retry status until the function is ready and while its reset runs, else performed. -/
def xConfigurationRequest (oid : Nat) (op : CfgOp) (k : Clk) (d : Dev) : Dev :=
  match d.linkOf oid with
  | none => d
  | some L =>
    let f := d.fn oid
    if !d.fnReached oid then d
    else if !d.cfgTaken oid then d.send (.cfg oid true 0)
    else match op with
      | .command bme mse => (d.setFn oid { f with bme := bme, mse := mse }).send (.cfg oid false 0)
      | .msix en mask => ((d.setFn oid { f with msixEn := en, msixMask := mask }).msixUnmask oid).send (.cfg oid false 0)
      | .sriov en n => (if oid < 32 then d.setVfs k.tick oid en n else d).send (.cfg oid false 0)
      | .devctl mps mrrs => (d.setFn oid { f with mps := mps, mrrs := mrrs }).send (.cfg oid false 0)
      | .devctl2 cto => (d.setFn oid { f with cto := cto }).send (.cfg oid false 0)
      | .aer c => (d.setFn oid { f with unc := f.unc &&& (2 ^ 32 - 1 - c % 2 ^ 32) }).send (.cfg oid false 0)
      | .bar n v => (if oid < 32 then d.setFn oid (f.setBar n v) else d).send (.cfg oid false 0)
      | .other _ _ => d.send (.cfg oid false 0)
      | .read w =>
        let r := d.cfgValue (d.headWord L oid w)
        r.2.send (.cfg oid false r.1)
      | .cap ext id off =>
        if capLeftOut ext id ∨ (ext = true ∧ id = 0x10 ∧ 32 ≤ oid) then d.send (.cfgAbsent oid id)
        else
          let r := d.cfgValue (d.capWord L oid ext id off)
          r.2.send (.cfg oid false r.1)

/-- A host's configuration request. -/
def execConfigurationRequest (oid : Nat) (op : CfgOp) (s : State) : Host.Outcome State Fault Refusal :=
  .next { s with d := s.d.unlessHalted (xConfigurationRequest oid op s.clk s.d) }

/-! ### Completions (R362) -/

/-- Whether the link of an engine's host job is UP: a request that has gone out can be answered. -/
def Dev.wired (d : Dev) (vp : Nat) : Bool := (upTo 32).any (fun L => d.hostJobOn L vp && decide (d.linkState L = 3))

/-- HOST_COMPLETION: the data of a host read moves on, or the job ends. A request on the wire completes whatever its function
may issue now (R375, HOST-7). -/
def xHostCompletion (vp : Nat) (ans : HostAns) (k : Clk) (d : Dev) : Dev :=
  if d.hostRead vp then d.moveEl vp ans .none none (d.wired vp) k else d

/-- A host completion arrives. -/
def execHostCompletion (vp : Nat) (ans : HostAns) (s : State) : Host.Outcome State Fault Refusal :=
  .next { s with d := s.d.unlessHalted (xHostCompletion vp ans s.clk s.d) }

/-- COMPLETION_TIMEOUT: the job ends HOST_TO. -/
def xCompletionTimeout (vp : Nat) (k : Clk) (d : Dev) : Dev :=
  if d.hostRead vp then d.moveEl vp .timeout .none none (d.wired vp) k else d

/-- A host request times out. -/
def execCompletionTimeout (vp : Nat) (s : State) : Host.Outcome State Fault Refusal :=
  .next { s with d := s.d.unlessHalted (xCompletionTimeout vp s.clk s.d) }

/-! ### Link resets that come from inside (R374, 20 R545) -/

/-- Every link of a quarter goes down, and the requests on it end, with a reset of the quarter or of the device. -/
def Dev.linksReset (d : Dev) (now q : Nat) : Dev :=
  let fns := (upTo 8).flatMap (fun l => if d.linkEn (8 * q + l) then d.linkFns (8 * q + l) else [])
  let d0 := (upTo 8).foldl (fun x l => if x.linkState (8 * q + l) = 3 then x.wireEnds now (8 * q + l) else x) d
  let d1 := fns.foldl (fun x o => { x with fns := nset Fn.zero x.fns o Fn.zero }) d0
  d1.resetRegs (fun x => (decide (x.r = .FN_MSIX) || decide (x.r = .FN_PBA)) && fns.contains x.i)

end Sys2Proof.Machine
end

