-- ==== Sys2Proof/Machine/Cal.lean ====
section
/-! DEFINITION. Live read-threshold tracking (chapter 17; rows FLIP_RECORD to CAL_FRBASE, and the lookup that LOOKUP of the
media channels makes). -/

namespace Sys2Proof.Machine

/-! ### Entries (R477, R478): 32 bytes as a number -/

/-- Entries of a table. -/
def calEntries : Nat := 278528

/-- The entry index of group `g` of LUN `u` on the channel with local index `i`. -/
def calIndex (i u g : Nat) : Nat := (if i < 16 then 16 * i + u else 256 + 32 * (i - 16) + u) * 64 + g

/-- The local index of the channel that an entry belongs to. -/
def calChan (e : Nat) : Nat := if e / 64 < 256 then e / 1024 else 16 + (e / 64 - 256) / 32

/-- Byte `i` of an entry. -/
def calByte (v i : Nat) : Nat := bitsOf v (8 * i + 7) (8 * i)
/-- Set byte `i`. -/
def calSetByte (v i x : Nat) : Nat := setBitsN v (8 * i + 7) (8 * i) (x % 256)
/-- VALID. -/
def calValid (v : Nat) : Bool := v.testBit 136
/-- COLD. -/
def calCold (v : Nat) : Bool := v.testBit 137
/-- VER. -/
def calVer (v : Nat) : Nat := calByte v 18 % 128
/-- TIME. -/
def calTime (v : Nat) : Nat := bitsOf v 191 160
/-- SAMPLES. -/
def calSamples (v : Nat) : Nat := bitsOf v 223 192

/-- TICK in time units (R478). -/
def timeUnits (tick : Nat) : Nat := tick / 2 ^ 20 % 2 ^ 32

/-- The 8-bit code of an offset, clamped to −128 to 127. -/
def clamp8 (x : Int) : Nat := wrapTo (if x < -128 then -128 else if 127 < x then 127 else x) 8

/-- Stamp TEMP and TIME. -/
def calStamp (v temp tick : Nat) : Nat := setBitsN (calSetByte v 16 temp) 191 160 (timeUnits tick)

/-! ### Channels and profiles (R479, R480) -/

/-- CAL_CHCFG of a channel. -/
def Dev.calChcfg (d : Dev) (q i : Nat) : Word := d.reg (R.CAL_CHCFG.at q i)
/-- TVALID. -/
def Dev.calTvalid (d : Dev) (q i : Nat) : Bool := (d.calChcfg q i).getLsbD 31
/-- The channel temperature as an 8-bit code. -/
def Dev.calTemp (d : Dev) (q i : Nat) : Nat := getBits (d.calChcfg q i) 7 0
/-- The profile of a channel. -/
def Dev.calProfile (d : Dev) (q i : Nat) : Nat := getBits (d.calChcfg q i) 19 16
/-- PMASK of a page type. -/
def Dev.calPmask (d : Dev) (q p t : Nat) : Nat := bitsOf (d.regN (R.CAL_PMASK.at q p (t / 2))) (16 * (t % 2) + 15) (16 * (t % 2))

/-- The model offset of threshold `i` of a profile at temperature `t`, as an 8-bit code. -/
def Dev.calModel (d : Dev) (q p i : Nat) (t : Int) : Nat :=
  let base := signedOf (bitsOf (d.regN (R.CAL_PBASE.at q p (i / 4))) (8 * (i % 4) + 7) (8 * (i % 4))) 8
  let tc := signedOf (bitsOf (d.regN (R.CAL_PTC.at q p (i / 4))) (8 * (i % 4) + 7) (8 * (i % 4))) 8
  clamp8 (base + roundDiv (tc * (t - 25)) 8)

/-- Model offsets of thresholds 1 to 15 at a temperature, as bytes 0 to 14. -/
def Dev.calModels (d : Dev) (q p : Nat) (t : Int) : Nat :=
  (upTo 15).foldl (fun v k => v + d.calModel q p (k + 1) t * 2 ^ (8 * k)) 0

/-! ### The table and its cache (R491) -/

/-- The master of the tracker's own reads and writes: the spec names none, the model takes sequencer group 0. -/
def calMid (q : Nat) : Nat := 0x480 + 16 * q

/-- The address of an entry. -/
def Dev.calAddr (d : Dev) (q e : Nat) : Nat := getBits (d.reg (R.CAL_TBASE.at q)) 47 12 * 4096 + 32 * e

/-- Tracking is enabled. -/
def Dev.calEn (d : Dev) (q : Nat) : Bool := (d.reg (R.CAL_CTRL.at q)).getLsbD 0

/-- A cached entry. -/
def Dev.calLine (d : Dev) (q e : Nat) : Option CalLine := nget none d.calTab (q * calEntries + e)

/-- The cached entries of a quarter. -/
def Dev.calKeys (d : Dev) (q : Nat) : List Nat := (d.calTab.filter (fun x => decide (x.1 / calEntries = q))).map (fun x => x.1 % calEntries)

/-- Put a line into the cache, or take it out; DIRTY counts the entries to write back. -/
def Dev.setCal (d : Dev) (q e : Nat) (l : Option CalLine) : Dev :=
  let d1 := { d with calTab := nset none d.calTab (q * calEntries + e) l }
  d1.setFld F.CAL_STAT_DIRTY ((d1.calTab.filter (fun x => decide (x.1 / calEntries = q) && (match x.2 with
    | some c => c.dirty
    | none => false))).length) q

/-- Write an entry to HBM; whether it was answered OKAY. -/
def Dev.calMemWrite (d : Dev) (q e v : Nat) : Dev × Bool :=
  let w := d.hbm (wrReq (calMid q) 0 (d.calAddr q e) 32 v) false .none
  (w.1, decide (w.2.code = .okay))

/-- Write a changed cached entry back. -/
def Dev.calWriteBack (d : Dev) (q e : Nat) : Dev × Bool :=
  match d.calLine q e with
  | some l =>
    if l.dirty then
      let w := d.calMemWrite q e l.bytes
      (w.1.setCal q e (some { l with dirty := false }), w.2)
    else (d, true)
  | none => (d, true)

/-- Room in the cache: which of 4,096 entries leaves for a new one is open. -/
def Dev.calEvict (d : Dev) (q : Nat) : Dev :=
  let l := d.calKeys q
  if l.length < 4096 then d
  else
    let f := d.fresh
    let e := l.getD (f.1.toNat % l.length) 0
    ((f.2.calWriteBack q e).1).setCal q e none

/-- Get an entry: from the cache, or from HBM into it; none where the read is answered with an error. While EN = 0 the
cache stays empty. -/
def Dev.calGet (d : Dev) (q e : Nat) : Dev × Option Nat :=
  match d.calLine q e with
  | some l => (d, some l.bytes)
  | none =>
    let r := d.hbm (rdReq (calMid q) 0 (d.calAddr q e) 32) false .none
    if r.2.code ≠ .okay then (r.1, none)
    else
      let v := leNat r.2.data
      (if d.calEn q then (r.1.calEvict q).setCal q e (some ⟨v, false⟩) else r.1, some v)

/-- Change an entry: in the cache, or in HBM while EN = 0. -/
def Dev.calPut (d : Dev) (q e v : Nat) : Dev :=
  if d.calEn q then d.setCal q e (some ⟨v, true⟩) else (d.calMemWrite q e v).1

/-- Write every changed entry back; whether all were answered OKAY. -/
def Dev.calFlush (d : Dev) (q : Nat) : Dev × Bool :=
  (d.calKeys q).foldl (fun x e =>
    let w := x.1.calWriteBack q e
    (w.1, x.2 && w.2)) (d, true)

/-! ### Lookups (R481–R483) -/

/-- Whether an entry is cold for a channel (R481). -/
def Dev.calIsCold (d : Dev) (q i tick v : Nat) : Bool :=
  let p := d.calProfile q i
  let dt := (signedOf (d.calTemp q i) 8 - signedOf (calByte v 16) 8).natAbs
  let age := (timeUnits tick + 2 ^ 32 - calTime v) % 2 ^ 32
  !calValid v || calCold v || decide (d.fld F.CAL_PCFG_TSTALE q p < dt) || decide (d.fld F.CAL_PASTALE_ASTALE q p < age)

/-- Reseed an entry at the channel's temperature (CAL-2). -/
def Dev.calReseed (d : Dev) (q i tick v : Nat) : Nat :=
  let temp := d.calTemp q i
  let offs := d.calModels q (d.calProfile q i) (signedOf temp 8)
  calStamp (offs + 1 * 2 ^ 136 + (calVer v + 1) % 128 * 2 ^ 144) temp tick

/-- The handle of a lookup (CAL-3). -/
def calHandle (q e ver ptype : Nat) : Nat := q * 2 ^ 30 + ver % 128 * 2 ^ 23 + ptype % 16 * 2 ^ 19 + e

/-- A lookup for group `g` of LUN `u` of the channel with local index `i`: the offsets as bytes 0 to 14, and the handle.
A table read that fails leaves the model's offsets, with no handle. -/
def Dev.calLookup (d : Dev) (q i u g ptype tick : Nat) : Dev × Nat × Option Nat :=
  let t : Int := if d.calTvalid q i then signedOf (d.calTemp q i) 8 else 25
  let model := d.calModels q (d.calProfile q i) t
  if !d.calEn q || !d.calTvalid q i then (d, model, none)
  else
    let e := calIndex i u g
    let r := d.calGet q e
    match r.2 with
    | none => (r.1, model, none)
    | some v =>
      if r.1.calIsCold q i tick v then
        let n := r.1.calReseed q i tick v
        ((r.1.calPut q e n).bump (R.CAL_COLD.at q), n % 2 ^ 120, some (calHandle q e (calVer n) ptype))
      else (r.1, v % 2 ^ 120, some (calHandle q e (calVer v) ptype))

/-! ### Flip records (R484–R489) -/

/-- Field of a flip record: `n` bytes at `off`. -/
def frField (r off n : Nat) : Nat := bitsOf r (8 * (off + n) - 1) (8 * off)

/-- The thresholds of a record's MASK, ascending. -/
def frMask (r : Nat) : List Nat := onesOf (frField r 4 2) 16

/-- R487: the form of a record. -/
def frOk (r : Nat) : Bool :=
  let n := (frMask r).length
  !(frField r 4 2).testBit 0 && decide (n ≤ 8) && decide (frField r 6 1 < 2) && decide (frField r 7 1 = 0)
    && decide (frField r 40 16 = 0) && decide (bitsOf r 319 64 / 2 ^ (32 * n) = 0)

/-- Apply the counts of a decoded record to an entry (R487). -/
def Dev.frApply (d : Dev) (q p ptype r v : Nat) : Nat :=
  let g := d.fld F.CAL_PCFG_G q p
  let pol := d.regN (R.CAL_PCFG.at q p)
  let pm := d.calPmask q p ptype
  ((frMask r).zip (upTo 8)).foldl (fun x t =>
    let i := t.1
    if !pm.testBit i then x
    else
      let n01 := frField r (8 + 4 * t.2) 2
      let n10 := frField r (10 + 4 * t.2) 2
      let dd := roundDiv ((g : Int) * ((n10 : Int) - (n01 : Int))) (n10 + n01 + 16)
      let off := signedOf (calByte x (i - 1)) 8
      calSetByte x (i - 1) (clamp8 (off + (if pol.testBit i then -dd else dd)))) v

/-- Write a sweep request (R489). -/
def Dev.sweepReq (d : Dev) (q r fails tick : Nat) : Dev :=
  let base := getBits (d.reg (R.CAL_SWBASE.at q)) 47 12 * 4096
  let n := 2 ^ (d.regN (R.CAL_SWSIZE.at q) % 32)
  let wp := d.regN (R.CAL_SWWP.at q)
  if base = 0 ∨ (wp + 1) % n = d.regN (R.CAL_SWRP.at q) then d.bump (R.CAL_SWLOST.at q)
  else
    let v := frField r 0 4 + frField r 4 2 * 2 ^ 32 + fails * 2 ^ 56 + tick % 2 ^ 32 * 2 ^ 64
    let w := d.hbm (wrReq (calMid q) 0 (base + 16 * wp) 16 v) false .none
    w.1.setRegN (R.CAL_SWWP.at q) ((wp + 1) % n)

/-- A taken record reaches the tracker that its handle names: dropped, a failed decode, or an update. -/
def Dev.frTake (d : Dev) (r tick : Nat) : Dev :=
  let dsh := frField r 0 4
  let q := bitsOf dsh 31 30
  let e := bitsOf dsh 18 0
  let drop (x : Dev) : Dev := x.bump (R.CAL_DROPPED.at q)
  if !frOk r ∨ calEntries ≤ e ∨ !d.calEn q then drop d
  else
    let i := calChan e
    let g := d.calGet q e
    match g.2 with
    | none => drop g.1
    | some v =>
      if calVer v ≠ bitsOf dsh 29 23 ∨ calValid v = false ∨ calCold v = true ∨ d.calTvalid q i = false then drop g.1
      else if frField r 6 1 % 2 = 0 then
        let fails := satAdd (calByte v 19) 1 255
        (g.1.calPut q e (calSetByte (calSetByte v 15 0) 19 fails)).sweepReq q r fails tick
      else
        let p := d.calProfile q i
        let v1 := d.frApply q p (bitsOf dsh 22 19) r v
        let v2 := calSetByte v1 15 (satAdd (calByte v1 15) 1 255)
        let v3 := setBitsN v2 223 192 (satAdd (calSamples v2) 1 (2 ^ 32 - 1))
        (g.1.calPut q e (calStamp v3 (d.calTemp q i) tick)).bump (R.CAL_APPLIED.at q)

/-- FLIP_RECORD: the tracker reads the next slot of a ring (R485). -/
def xFlipRecord (q ring : Nat) (k : Clk) (d : Dev) : Dev :=
  let base := getBits (d.reg (R.CAL_FRBASE.at q ring)) 47 12 * 4096
  let n := 2 ^ (d.regN (R.CAL_FRSIZE.at q ring) % 32)
  let rp := d.regN (R.CAL_FRRP.at q ring)
  let want := d.regN (R.CAL_FRSEQ.at q ring)
  if !d.calEn q ∨ base = 0 then d
  else
    let m := d.hbm (rdReq (calMid q) 0 (base + 64 * rp) 64) false .none
    if m.2.code ≠ .okay then m.1
    else
      let r := leNat m.2.data
      let seq := frField r 56 4
      let ahead := (seq + 2 ^ 32 - want) % 2 ^ 32
      if frField r 60 4 + seq ≠ 2 ^ 32 - 1 ∨ 2 ^ 31 ≤ ahead then m.1
      else
        let d1 := if ahead = 0 then m.1
          else m.1.setRegN (R.CAL_LOST.at q) (satAdd (m.1.regN (R.CAL_LOST.at q)) ahead 0xFFFFFFFF)
        ((d1.setRegN (R.CAL_FRRP.at q ring) ((rp + 1) % n)).setRegN (R.CAL_FRSEQ.at q ring) ((seq + 1) % 2 ^ 32)).frTake r k.tick

/-- The tracker reads a slot of a flip ring. -/
def execFlipRecord (q ring : Nat) (s : State) : Host.Outcome State Fault Refusal :=
  .next { s with d := s.d.unlessHalted (xFlipRecord q ring s.clk s.d) }

/-! ### CAL_ECMD (R491) -/

/-- An entry command ends. -/
def Dev.calDone (d : Dev) (q res : Nat) : Dev := (d.setRegN (R.CAL_ESTAT.at q) res).okay

/-- An entry command of code `cmd`: its master, its code, the range and EN, then its effect on the entry. -/
def Dev.calEcmd (d : Dev) (m : Mst) (q v cmd : Nat) (f : Dev → Nat → Nat → Dev) : Dev :=
  let x := R.CAL_ECMD.at q
  let e := bitsOf v 18 0
  if !m.owner then d.denyOid m x
  else if bitsOf v 63 60 ≠ cmd then d
  else if calEntries ≤ e then d.calDone q 2
  else if !d.calEn q then d.calDone q 4
  else
    let g := d.calGet q e
    match g.2 with
    | none => g.1.calDone q 3
    | some old => (f g.1 e old).calDone q 1

/-- READ: CAL_EDATA shows the entry. -/
def xCalRead (m : Mst) (q v : Nat) (d : Dev) : Dev :=
  d.calEcmd m q v 1 (fun x _ old => (upTo 4).foldl (fun y w => y.setRegN (R.CAL_EDATA.at q w) (bitsOf old (64 * w + 63) (64 * w))) x)

/-- CAL_ECMD READ. -/
def execCalRead (m : Mst) (q v : Nat) (s : State) : Host.Outcome State Fault Refusal := .next { s with d := xCalRead m q v s.d }

/-- WRITE: the entry becomes CAL_EDATA with a new VER. -/
def xCalWrite (m : Mst) (q v : Nat) (k : Clk) (d : Dev) : Dev :=
  d.calEcmd m q v 2 (fun x e old =>
    let n := (upTo 4).foldl (fun a w => a + x.regN (R.CAL_EDATA.at q w) * 2 ^ (64 * w)) 0
    let n1 := calSetByte n 18 ((calVer old + 1) % 128)
    x.calPut q e (if v.testBit 56 then calStamp n1 (x.calTemp q (calChan e)) k.tick else n1))

/-- CAL_ECMD WRITE. -/
def execCalWrite (m : Mst) (q v : Nat) (s : State) : Host.Outcome State Fault Refusal :=
  .next { s with d := xCalWrite m q v s.clk s.d }

/-- INVALIDATE: VALID clears, VER advances. -/
def xCalInvalidate (m : Mst) (q v : Nat) (d : Dev) : Dev :=
  d.calEcmd m q v 3 (fun x e old => x.calPut q e (calSetByte (setBitsN old 136 136 0) 18 ((calVer old + 1) % 128)))

/-- CAL_ECMD INVALIDATE. -/
def execCalInvalidate (m : Mst) (q v : Nat) (s : State) : Host.Outcome State Fault Refusal :=
  .next { s with d := xCalInvalidate m q v s.d }

/-- FLUSH: every changed entry is written back. -/
def xCalFlush (m : Mst) (q v : Nat) (d : Dev) : Dev :=
  if !m.owner then d.denyOid m (R.CAL_ECMD.at q)
  else if bitsOf v 63 60 ≠ 4 then d
  else
    let w := d.calFlush q
    w.1.calDone q (if w.2 then 1 else 3)

/-- CAL_ECMD FLUSH. -/
def execCalFlush (m : Mst) (q v : Nat) (s : State) : Host.Outcome State Fault Refusal := .next { s with d := xCalFlush m q v s.d }

/-- A write of CAL_ECMD: one of the four commands, or a reserved code (CAL-6). -/
def xCalEcmd (m : Mst) (q v : Nat) (k : Clk) (d : Dev) : Dev :=
  match bitsOf v 63 60 with
  | 1 => xCalRead m q v d
  | 2 => xCalWrite m q v k d
  | 3 => xCalInvalidate m q v d
  | 4 => xCalFlush m q v d
  | _ => if m.owner then d.refuseAs m (R.CAL_ECMD.at q) .reserved else d.denyOid m (R.CAL_ECMD.at q)

/-! ### CACHE_WRITEBACK, WALK, CAL_CTRL, CAL_FRBASE -/

/-- CACHE_WRITEBACK of one entry. -/
def xCacheWriteback (q e : Nat) (d : Dev) : Dev := (d.calWriteBack q e).1

/-- A changed entry is written back. -/
def execCacheWriteback (q e : Nat) (s : State) : Host.Outcome State Fault Refusal := .next { s with d := s.d.unlessHalted (xCacheWriteback q e s.d) }

/-- WALK visits one entry (R492). -/
def xCalWalk (q e : Nat) (k : Clk) (d : Dev) : Dev :=
  if !(d.reg (R.CAL_CTRL.at q)).getLsbD 1 ∨ d.regN (R.CAL_TBASE.at q) = 0 ∨ calEntries ≤ e then d
  else
    let g := d.calGet q e
    match g.2 with
    | none => g.1
    | some v =>
      let p := d.calProfile q (calChan e)
      let age := (timeUnits k.tick + 2 ^ 32 - calTime v) % 2 ^ 32
      if calValid v ∧ d.fld F.CAL_PASTALE_ASTALE q p < age then g.1.calPut q e (setBitsN v 137 137 1) else g.1

/-- The walk visits an entry. -/
def execCalWalk (q e : Nat) (s : State) : Host.Outcome State Fault Refusal := .next { s with d := s.d.unlessHalted (xCalWalk q e s.clk s.d) }

/-- A write that the LOCK bit of its block stops is refused, else `f` follows (00 R14). -/
def Dev.unlessLocked (d : Dev) (m : Mst) (x : RKey) (f : Dev) : Dev :=
  if d.locked x.r.desc.blk x.q then d.refuseAs m x .locked else f

/-- CAL_CTRL is written: EN needs a table; clearing it writes the cache back and empties it (R496, CAL-7). -/
def xCalCtrl (m : Mst) (q v : Nat) (d : Dev) : Dev :=
  let x := R.CAL_CTRL.at q
  if !m.owner then d.denyOid m x
  else d.unlessLocked m x
    (if v.testBit 0 ∧ d.regN (R.CAL_TBASE.at q) = 0 then d.refuse m x
      else
        let d1 := if d.calEn q ∧ v.testBit 0 = false then
            let w := (d.calFlush q).1
            ({ w with calTab := ndrop w.calTab (fun n => decide (n / calEntries = q)) }).setFld F.CAL_STAT_DIRTY 0 q
          else d
        (d1.setRegN x (v % 4)).okay)

/-- CAL_CTRL is written. -/
def execCalCtrl (m : Mst) (q v : Nat) (s : State) : Host.Outcome State Fault Refusal := .next { s with d := xCalCtrl m q v s.d }

/-- CAL_FRBASE is written while EN = 0: the ring starts afresh (R485, R496). -/
def xCalFrbase (m : Mst) (q r v : Nat) (d : Dev) : Dev :=
  let x := R.CAL_FRBASE.at q r
  if !m.owner then d.denyOid m x
  else d.unlessLocked m x
    (if d.calEn q then d.refuse m x
      else (((d.setRegN x (v &&& 0xFFFFFFFFF000)).setRegN (R.CAL_FRRP.at q r) 0).setRegN (R.CAL_FRSEQ.at q r) 0).okay)

/-- CAL_FRBASE is written. -/
def execCalFrbase (m : Mst) (q r v : Nat) (s : State) : Host.Outcome State Fault Refusal :=
  .next { s with d := xCalFrbase m q r v s.d }

/-- CAL_SWRP is written: a value that would pass CAL_SWWP is refused (CAL-10). -/
def xCalSwrp (m : Mst) (q v : Nat) (d : Dev) : Dev :=
  let x := R.CAL_SWRP.at q
  let n := 2 ^ (d.regN (R.CAL_SWSIZE.at q) % 32)
  let old := d.regN x
  if !m.owner then d.denyOid m x
  else if v % 65536 < n ∧ ringDist (v % 65536) old n ≤ ringDist (d.regN (R.CAL_SWWP.at q)) old n then (d.setRegN x (v % 65536)).okay
  else d.refuse m x

/-! ### RETRAIN_CHECK (R495) -/

/-- Whether a lane or link is due: training temperature, and the two margins. -/
def Dev.rtDue (d : Dev) (q ttemp h v : Nat) : Bool :=
  let dt := (signedOf (d.fld F.PWR_TQ_TQ q) 8 - signedOf ttemp 8).natAbs
  decide (d.fld F.CAL_RTCFG_TDELTA q < dt) && (decide (h < d.fld F.CAL_RTCFG_HMIN q) || decide (v < d.fld F.CAL_RTCFG_VMIN q))

/-- Examine tether lane `l` with its margins as measured, if it is UP; under CONF_ERR and in safe stop every lane is OFF (18 BOOT-8). -/
def Dev.rtLane (d : Dev) (q l : Nat) (g : Nat × Nat) : Dev :=
  let x := R.TET_EYE.at q l
  if !(d.reg (R.TET_STAT.at q)).getLsbD l || d.confFailed || d.safe then d
  else
    let d1 := d.setReg x (putBits (putBits (d.reg x) 15 8 g.1) 7 0 g.2)
    if d1.rtDue q (getBits (d1.reg x) 23 16) g.1 g.2 then d1.setBit (R.CAL_RTDUE.at q) l true else d1

/-- Examine host link `l` with its margins as measured; a link newly due requests equalisation once. -/
def Dev.rtLink (d : Dev) (q l : Nat) (g : Nat × Nat) : Dev :=
  let x := R.CAL_HLINK.at q l
  let due := R.CAL_RTDUE.at q
  if d.linkState (8 * q + l) ≠ 3 then d
  else
    let d1 := d.setReg x (putBits (putBits (d.reg x) 15 8 g.1) 7 0 g.2)
    if d1.rtDue q (getBits (d1.reg x) 23 16) g.1 g.2 && !(d1.reg due).getLsbD (16 + l) then
      (d1.setBit due (16 + l) true).send (.eqRequest (8 * q + l))
    else d1

/-- RETRAIN_CHECK: 16 lanes, then 8 links, each with its horizontal and vertical margin. -/
def xRetrainCheck (q : Nat) (margins : List (Nat × Nat)) (d : Dev) : Dev :=
  let d1 := (upTo 16).foldl (fun x l => x.rtLane q l (margins.getD l (255, 255))) d
  (upTo 8).foldl (fun x l => x.rtLink q l (margins.getD (16 + l) (255, 255))) d1

/-- Lanes and links are examined. -/
def execRetrainCheck (q : Nat) (margins : List (Nat × Nat)) (s : State) : Host.Outcome State Fault Refusal :=
  .next { s with d := s.d.unlessHalted (xRetrainCheck q margins s.d) }

end Sys2Proof.Machine
end

