-- ==== Sys2Proof/Machine/Media.lean ====
section
/-! DEFINITION. Media channels and their sequencers (chapter 15; rows MSQ_POST to MSQ_OPDARM, LOOKUP, MEDIA,
PF_WARN_N_DEASSERT). -/

namespace Sys2Proof.Machine

/-! ### Channels, contexts, lanes -/

/-- A register of the page of media channel `ch` (R447). -/
def mReg (ch : Nat) (r : R) (j : Nat := 0) : RKey := r.at (mediaPlace ch).1 (mediaPlace ch).2 j

/-- The sequencer group of a channel (R415). -/
def mGroup (ch : Nat) : Nat := (mediaPlace ch).2 / 9

/-- The MID of a channel's group. -/
def mMid (ch : Nat) : Nat := 0x480 + 16 * (mediaPlace ch).1 + mGroup ch

/-- A channel's record. -/
def Dev.mchan (d : Dev) (ch : Nat) : MChan := nget MChan.zero d.mch ch

/-- A list context. -/
def Dev.mctx (d : Dev) (ch x : Nat) : Option MCtx := nget none (d.mchan ch).ctxs x

/-- A field of MSQ_CHCFG. -/
def Dev.chcfg (d : Dev) (ch hi lo : Nat) : Nat := getBits (d.reg (mReg ch .MSQ_CHCFG)) hi lo

/-- EN of a channel. -/
def Dev.chEn (d : Dev) (ch : Nat) : Bool := (d.reg (mReg ch .MSQ_CHCFG)).getLsbD 31

/-- MSQ_LUNOP of LUN `u` = CE·4 + LUN. -/
def Dev.lunop (d : Dev) (ch u : Nat) : Word := d.reg (mReg ch .MSQ_LUNOP u)

/-- Open operations of a channel. -/
def Dev.openOps (d : Dev) (ch : Nat) : Nat := ((upTo 32).filter (fun u => (d.lunop ch u).getLsbD 63)).length

/-- MSQ_CHSTAT follows the channel. -/
def Dev.chStat (d : Dev) (ch : Nat) : Dev :=
  let c := d.mchan ch
  let run : List MCtx := c.ctxs.filterMap (fun e => e.2)
  let st : Nat := if !d.chEn ch then 0 else if run.any (fun x => x.stop) then 3 else if run = [] ∧ c.posts = [] then 1 else 2
  d.setRegN (mReg ch .MSQ_CHSTAT) (st * 2 ^ 28 + run.length * 2 ^ 24 + Nat.min 32 c.posts.length * 2 ^ 8 + d.openOps ch)

/-- Write a channel's record. -/
def Dev.setMchan (d : Dev) (ch : Nat) (c : MChan) : Dev := ({ d with mch := nset MChan.zero d.mch ch c }).chStat ch

/-- Write a context. -/
def Dev.setMctx (d : Dev) (ch x : Nat) (c : Option MCtx) : Dev :=
  d.setMchan ch { d.mchan ch with ctxs := nset none (d.mchan ch).ctxs x c }

/-- Write MSQ_LUNOP. -/
def Dev.setLunop (d : Dev) (ch u : Nat) (v : Word) : Dev := (d.setReg (mReg ch .MSQ_LUNOP u) v).chStat ch

/-- A register of the page of tether lane `L` (16 R450). -/
def tetReg (L : Nat) (r : R) (j : Nat := 0) : RKey := r.at (L / 16) (L % 16) j

/-- A lane's record. -/
def Dev.lane (d : Dev) (L : Nat) : Lane := nget Lane.zero d.lanes L

/-- Write a lane's record. -/
def Dev.setLane (d : Dev) (L : Nat) (x : Lane) : Dev := { d with lanes := nset Lane.zero d.lanes L x }

/-- STATE of a lane (16 TET-10); every lane is OFF under CONF_ERR and in safe stop (R452, 18 BOOT-8). -/
def Dev.laneState (d : Dev) (L : Nat) : Nat :=
  if d.confFailed || d.safe then 0 else getBits (d.reg (tetReg L .TET_LSTAT)) 31 28

/-- The lane of a tether channel, and its bridge channel. -/
def laneOf (ch : Nat) : Nat := (ch - 64) / 8
/-- The bridge channel of a tether channel. -/
def bridgeChan (ch : Nat) : Nat := (ch - 64) % 8

/-- Whether CMD flits of a context wait to be sent or to be answered (16 R464). -/
def Dev.tetBusy (d : Dev) (ch x : Nat) : Bool :=
  decide (64 ≤ ch) && ((d.lane (laneOf ch)).outq.any (fun g => decide (g.key = ch * 8 + x)) ||
    (d.lane (laneOf ch)).unans.any (fun u => decide (u.key = some (ch * 8 + x))))

/-! ### Micro-ops as 128-bit numbers (R428) -/

/-- Byte `i` of a micro-op. -/
def opByte (o i : Nat) : Nat := bitsOf o (8 * i + 7) (8 * i)

/-- The micro-op at the context's index. -/
def MCtx.op (c : MCtx) : Nat := c.ops.getD c.pc 0
/-- HDR of the list. -/
def MCtx.hdr (c : MCtx) : Nat := c.ops.getD 0 0
/-- CE of the list's target. -/
def MCtx.ce (c : MCtx) : Nat := bitsOf c.hdr 18 16
/-- LUN of the list. -/
def MCtx.lun (c : MCtx) : Nat := bitsOf c.hdr 21 20
/-- CE·4 + LUN. -/
def MCtx.u (c : MCtx) : Nat := 4 * c.ce + c.lun

/-- Bytes `lo` to `hi` of a micro-op, as a mask. -/
def byteMask (lo hi : Nat) : Nat := 2 ^ (8 * (hi + 1)) - 2 ^ (8 * lo)

/-- The bits of a micro-op that MED-2 names, by its opcode; none for a reserved opcode. -/
def opMask (opc : Nat) : Option Nat :=
  match opc with
  | 0x00 => some (byteMask 2 2 + byteMask 4 7)
  | 0x01 => some (0x37 * 2 ^ 16 + byteMask 4 5 + byteMask 8 11)
  | 0x02 => some (byteMask 2 2)
  | 0x03 => some (byteMask 2 2 + byteMask 4 11)
  | 0x04 => some (byteMask 4 11)
  | 0x05 => some (byteMask 4 11)
  | 0x06 => some (3 * 2 ^ 8 + byteMask 2 2 + byteMask 4 13)
  | 0x07 => some (byteMask 4 7)
  | 0x08 => some (byteMask 2 7)
  | 0x09 => some (2 ^ 8 + byteMask 2 5)
  | 0x0A => some (2 ^ 8 + byteMask 2 2 + 15 * 2 ^ 24 + byteMask 4 4 + byteMask 6 7)
  | 0x0B => some (2 ^ 8 + byteMask 3 15)
  | 0x0C => some (byteMask 2 7)
  | _ => none

/-- Whether every field of a micro-op lies in its range (MED-2): `buf` bytes of buffer, `n` micro-ops, PGBITS. -/
def opRange (tether : Bool) (buf n pg o : Nat) : Bool :=
  let w1 := bitsOf o 63 32
  let w2 := bitsOf o 95 64
  match o % 256 with
  | 0x00 => decide (opByte o 2 = 0 ∨ 0x80 ≤ opByte o 2)
  | 0x01 => (tether || !(opByte o 2).testBit 2) && decide (w1 ≤ 1055)
  | 0x03 => decide (1 ≤ opByte o 2 ∧ opByte o 2 ≤ 8)
  | 0x04 => decide (w1 % 2 = 0 ∧ w2 % 2 = 0 ∧ 2 ≤ w2 ∧ w2 ≤ 65536 ∧ w1 + w2 ≤ buf)
  | 0x05 => decide (w1 % 2 = 0 ∧ w2 % 2 = 0 ∧ 2 ≤ w2 ∧ w2 ≤ 65536 ∧ w1 + w2 ≤ buf)
  | 0x06 => decide (opByte o 2 ≤ 2 ∧ w1 ≠ 0)
  | 0x08 => decide (opByte o 2 ≤ 3)
  | 0x09 => decide (bitsOf o 47 32 < n)
  | 0x0A => decide (opByte o 2 ≤ 63)
  | 0x0B => decide (w1 % 2 ^ pg = 0)
  | 0x0C =>
    let k := opByte o 2
    decide (1 ≤ k ∧ k ≤ 5) && (if k ≤ 2 then decide (1 ≤ opByte o 3 ∧ opByte o 3 ≤ 4) else decide (opByte o 3 = 0))
  | _ => true

/-- The checks of R426 on a list; the index of the first micro-op at fault. -/
def listFault (tether : Bool) (buf pg : Nat) (ops : List Nat) : Option Nat :=
  let offs := ops.filter (fun o => decide (o % 256 = 0x0A))
  let look (o : Nat) : Nat := opByte o 2 * 16 + opByte o 3 % 16
  let first := look (offs.headD 0)
  let bad (i o : Nat) : Bool :=
    (match opMask (o % 256) with
      | none => true
      | some m => decide (o / 256 * 256 &&& m ≠ o / 256 * 256))
    || !opRange tether buf ops.length pg o || (decide (o % 256 = 1) != decide (i = 0))
    || (decide (o % 256 = 0x0A) && decide (look o ≠ first))
  (ops.zip (upTo ops.length)).findSome? (fun p => if bad p.2 p.1 then some p.2 else none)

/-! ### The end of a list (R435–R437) -/

/-- The status of a MEDIA command for a list status (MED-5). -/
def mediaStatus (s : Nat) : Nat :=
  match s with
  | 0x00 => 0x00
  | 0x01 => 0x0B
  | 0x02 => 0x08
  | 0x03 => 0x0B
  | 0x04 => 0x0A
  | 0x05 => 0x03
  | 0x06 => 0x0C
  | 0x07 => 0x08
  | 0x08 => 0x01
  | 0x09 => 0x01
  | 0x0A => 0x08
  | _ => 0x08

/-- TAG of a list; one that has no HDR has none, so its TAG is a free value. -/
def Dev.ctxTag (d : Dev) (c : MCtx) : Nat × Dev :=
  if c.hdr % 256 = 1 then (bitsOf c.hdr 95 64, d) else (d.fresh.1.toNat % 2 ^ 32, d.fresh.2)

/-- What a list leaves on its lane when it ends: flits that were sent belong to nobody, others are never sent. -/
def Dev.dropFlits (d : Dev) (ch x : Nat) : Dev :=
  if ch < 64 then d
  else
    let L := laneOf ch
    let l := d.lane L
    d.setLane L { l with
      outq := l.outq.filter (fun g => decide (g.key ≠ ch * 8 + x)),
      unans := l.unans.map (fun u => if u.key = some (ch * 8 + x) then { u with key := none } else u) }

/-- A list ends with a status, its RESULT or the micro-op at fault (R436): a hardware status is counted and logged; a
MEDIA command completes, another list waits for its completion record. -/
def Dev.endCtx (d : Dev) (now ch x status result : Nat) : Dev :=
  match d.mctx ch x with
  | none => d
  | some c =>
    let d0 := d.dropFlits ch x
    let d1 := if 1 ≤ status ∧ status ≤ 0x0A then
        let t := d0.ctxTag c
        ((t.2.bump (mReg ch .MSQ_CHERR)).logFirst (mReg ch .MSQ_CHLOG) (status * 2 ^ 48 + result % 256 * 2 ^ 40 + t.1))
      else d0
    match c.cmd with
    | some k => (d1.setMctx ch x none).endCmd k (mediaStatus status) (status + c.sr % 256 * 2 ^ 8 + c.pclass % 4 * 2 ^ 16)
    | none => d1.setMctx ch x (some { c with st := .ended, stop := false, status := status, result := result, tick := now % 2 ^ 32, grp := [] })

/-- A context goes on after a micro-op: STOP, 65,536 micro-ops or the end of the list may end it (R429, MED-10); the micro-op
at fault is then the one it has just executed. -/
def Dev.mput (d : Dev) (now ch x : Nat) (c : MCtx) : Dev :=
  let d1 := d.setMctx ch x (some c)
  let at' := match d.mctx ch x with
    | some y => y.pc
    | none => c.pc
  if c.stop then (if d1.tetBusy ch x then d1 else d1.endCtx now ch x 8 c.pc)
  else if 65536 ≤ c.n then d1.endCtx now ch x 3 at'
  else if c.ops.length ≤ c.pc then d1.endCtx now ch x 1 at'
  else d1

/-- The context after its micro-op. -/
def MCtx.next (c : MCtx) : MCtx := { c with pc := c.pc + 1, n := c.n + 1 }

/-- Whether a bus cycle of a list finds its lane not UP, its channel absent, or its CE absent (16 R450, R472). -/
def Dev.linkBad (d : Dev) (ch : Nat) (c : MCtx) : Bool :=
  if ch < 64 then false
  else
    let L := laneOf ch
    let s := d.laneState L
    !(s == 4 || s == 8) || decide (d.fld F.TET_LSTAT_NCHAN (L / 16) (L % 16) ≤ bridgeChan ch)
      || decide (d.fld F.TET_CHINFO_NCE (L / 16) (L % 16) (bridgeChan ch) ≤ c.ce)

/-- Run `f` on a context between micro-ops whose next micro-op has opcode `opc`; with `bus` it must hold the bus. -/
def Dev.mop (d : Dev) (now ch x opc : Nat) (bus : Bool) (f : MCtx → Nat → Dev) : Dev :=
  match d.mctx ch x with
  | none => d
  | some c =>
    if c.op % 256 ≠ opc ∨ c.stop then d
    else if bus then (if c.st ≠ .hold then d else if d.linkBad ch c then d.endCtx now ch x 7 c.pc else f c c.op)
    else if c.st = .hold ∨ c.st = .need then f c c.op
    else d

/-! ### Bus cycles (R416, 16 R462) -/

/-- A CMD record. -/
def recCmd (b : Nat) : Nat := 0x02 + b % 256 * 2 ^ 8
/-- An ADDR record of `n` cycles. -/
def recAddr (n a : Nat) : Nat := 0x03 + n * 2 ^ 8 + a % 2 ^ (8 * n) * 2 ^ 64
/-- A DOUT record. -/
def recDout (len : Nat) : Nat := 0x04 + len * 2 ^ 32
/-- A DIN record. -/
def recDin (len : Nat) : Nat := 0x05 + len * 2 ^ 32
/-- A DOUTI record of four bytes. -/
def recDouti (p : Nat) : Nat := 0x06 + 4 * 2 ^ 8 + p % 2 ^ 32 * 2 ^ 32
/-- A DINI record of four bytes. -/
def recDini : Nat := 0x07 + 4 * 2 ^ 8
/-- A DINZ record. -/
def recDinz (len : Nat) : Nat := 0x08 + len * 2 ^ 32
/-- A STAT record: 70h, or 78h with its row. -/
def recStat (enh : Bool) (cyc row : Nat) : Nat :=
  if enh then 0x09 + 0x78 * 2 ^ 8 + cyc * 2 ^ 16 + row % 2 ^ (8 * cyc) * 2 ^ 64 else 0x09 + 0x70 * 2 ^ 8

/-- Whether a record carries data (R462). -/
def recIsData (r : Nat) : Bool := decide (r % 256 = 4 ∨ r % 256 = 5 ∨ r % 256 = 8)

/-- Whether the pads of a local channel are disabled (R420). -/
def Dev.chanOff (d : Dev) (ch : Nat) : Bool := !d.chEn ch || d.confFailed

/-- Drive one record: on the pins of a local channel (nothing while its pads are disabled, R420), into the group of a tether
context. -/
def Dev.drive (d : Dev) (ch : Nat) (c : MCtx) (r off : Nat) (data : List Byte := []) : Dev × MCtx :=
  if ch < 64 then (if d.chanOff ch then d else d.send (.nand ch c.ce r data), c) else (d, { c with grp := c.grp ++ [(r, off)] })

/-- Drive records in order. -/
def Dev.driveAll (d : Dev) (ch : Nat) (c : MCtx) (rs : List Nat) : Dev × MCtx :=
  rs.foldl (fun p r => p.1.drive ch p.2 r 0) (d, c)

/-- Cut a group into flits of at most 63 records and 4 data records (R462). -/
def cutGroup : List (Nat × Nat) → List (Nat × Nat) → Nat → List (List (Nat × Nat))
  | [], cur, _ => if cur = [] then [] else [cur]
  | r :: rs, cur, n =>
    let k := b2n (recIsData r.1)
    if cur.length = 63 ∨ (k = 1 ∧ n = 4) then cur :: cutGroup rs [r] k else cutGroup rs (cur ++ [r]) (n + k)

/-- The group under way of a tether context goes to its lane as CMD flits, HOLD on all but the last (R462). -/
def Dev.flush (d : Dev) (ch x : Nat) (c : MCtx) : Dev × MCtx :=
  if c.grp = [] then (d, c)
  else
    let L := laneOf ch
    let l := d.lane L
    let parts := cutGroup c.grp [] 0
    let mk (p : List (Nat × Nat)) (i : Nat) : OutGrp :=
      { key := ch * 8 + x, chan := bridgeChan ch, ce := c.ce, recs := p, hold := decide (i + 1 < parts.length),
        conf := if p.any (fun r => decide (r.1 % 256 = 2 ∧ r.2 = 1)) then some c.u else none }
    (d.setLane L { l with outq := l.outq ++ (parts.zip (upTo parts.length)).map (fun p => mk p.1 p.2) }, { c with grp := [] })

/-- The STAT record of a poll: mode 2 names a row. -/
def Dev.pollRec (d : Dev) (ch mode row : Nat) : Nat := recStat (mode == 2) (d.chcfg ch 14 12) row

/-- A status poll of a waiting tether context leaves as a group of its own. -/
def Dev.poll (d : Dev) (ch x : Nat) (c : MCtx) (mode row : Nat) : Dev :=
  let p := d.drive ch c (d.pollRec ch mode row) 0
  let f := p.1.flush ch x p.2
  f.1.setMctx ch x (some f.2)

/-- R_B_N of the list's target as the bridge last reported it (16 R463). -/
def Dev.rbHigh (d : Dev) (ch : Nat) (c : MCtx) : Bool := (nget 0 (d.lane (laneOf ch)).rb (bridgeChan ch)).testBit c.ce

/-! ### Posting and fetching (R425, R426) -/

/-- A post joins the queue; beyond 32 it is not acknowledged (R425). -/
def Dev.addPost (d : Dev) (ch addr count : Nat) (cmd : Option Nat) : Dev :=
  d.setMchan ch { d.mchan ch with posts := (d.mchan ch).posts ++ [⟨addr, count, cmd, false, [], 0, 0⟩] }

/-- MSQ_POST is written. -/
def xMsqPost (m : Mst) (ch v : Nat) (d : Dev) : Dev :=
  let x := mReg ch .MSQ_POST
  let n := bitsOf v 63 52
  if !m.owner then d.denyOid m x
  else if !(decide (m.mid < 0x40) || decide (m.mid = 0x4C0)) then d.refuseSource m x
  else if !d.chEn ch then d.refuse m x
  else if bitsOf v 51 48 ≠ 0 ∨ v % 16 ≠ 0 ∨ n = 0 ∨ 256 < n then d.refuseAs m x .reserved
  else
    let d1 := d.addPost ch (bitsOf v 47 4 * 16) n none
    if (d.mchan ch).posts.length < 32 then d1.okay else d1

/-- MSQ_POST is written. -/
def execMsqPost (m : Mst) (ch v : Nat) (s : State) : Host.Outcome State Fault Refusal := .next { s with d := xMsqPost m ch v s.d }

/-- MEDIA (14 QUE-9, R437): a count of 0 or above 256 and a channel that does not exist are MALFORMED, a channel that is
not enabled is RESOURCE. -/
def xMedia (q r : Nat) (d : Dev) : Dev :=
  d.start q r 0x4A (fun k c =>
    let b := sqBuf c.ent 0
    let m := sqArg c.ent % 1024
    if 575 < m ∨ b.len % 16 ≠ 0 ∨ b.len = 0 ∨ 4096 < b.len then d.endCmd k 0x0B 0
    else if !d.chEn m then d.endCmd k 0x0A 0
    else (d.waitFor k c (.media (mediaPlace m).1 (mediaPlace m).2 0)).addPost m (b.addr / 16 * 16 % 2 ^ 48) (b.len / 16) (some k))

/-- MEDIA. -/
def execMedia (q r : Nat) (s : State) : Host.Outcome State Fault Refusal := .next { s with d := s.d.unlessHalted (xMedia q r s.d) }

/-- Read `n` micro-ops from an address (R251); none where a read is answered with an error. -/
def Dev.readOps (d : Dev) (mid a : Nat) (e : HbmErr) : Nat → Dev × Option (List Nat)
  | 0 => (d, some [])
  | n + 1 =>
    let r := d.hbm (rdReq mid 0 a 16) false e
    if r.2.code ≠ .okay then (r.1, none)
    else
      let t := r.1.readOps mid (a + 16) .none n
      (t.1, t.2.map (fun l => leNat r.2.data :: l))

/-- LIST_FETCH: the oldest post not yet fetched is read and checked. -/
def xListFetch (ch : Nat) (e : HbmErr) (d : Dev) : Dev :=
  let c := d.mchan ch
  match c.posts.find? (fun p => !p.fetched) with
  | none => d
  | some p =>
    let r := d.readOps (mMid ch) p.addr e p.count
    let p1 : MPost := match r.2 with
      | none => { p with fetched := true, bad := 5 }
      | some ops =>
        match listFault (decide (64 ≤ ch)) (chbufSize ch) (d.chcfg ch 18 15) ops with
        | none => { p with fetched := true, ops := ops }
        | some i => { p with fetched := true, ops := ops, bad := 1, badAt := i }
    let n := (c.posts.takeWhile (fun x => x.fetched)).length
    r.1.setMchan ch { r.1.mchan ch with posts := c.posts.take n ++ p1 :: c.posts.drop (n + 1) }

/-- A list is fetched. -/
def execListFetch (ch : Nat) (e : HbmErr) (s : State) : Host.Outcome State Fault Refusal := .next { s with d := s.d.unlessHalted (xListFetch ch e s.d) }

/-- The target and LUN that HDR of a list names. -/
def hdrLun (ops : List Nat) : Nat := bitsOf (ops.headD 0) 18 16 * 4 + bitsOf (ops.headD 0) 21 20

/-- Whether post `i` may start (R427): fetched, and no earlier list of its LUN waits or runs; a list that ends before it
starts waits for none. -/
def Dev.postReady (d : Dev) (ch i : Nat) : Bool :=
  let c := d.mchan ch
  match c.posts[i]? with
  | none => false
  | some p =>
    p.fetched && (decide (p.bad ≠ 0) ||
      ((c.posts.take i).all (fun y => decide (y.bad ≠ 0 ∨ hdrLun y.ops ≠ hdrLun p.ops)) &&
        c.ctxs.all (fun e => match e.2 with
          | some y => decide (y.st = .ended) || decide (y.u ≠ hdrLun p.ops)
          | none => true)))

/-- LIST_START: the first list that may start does, in a free context; one that a check or STOP ended ends there. -/
def xListStart (ch : Nat) (k : Clk) (d : Dev) : Dev :=
  let c := d.mchan ch
  match (upTo c.posts.length).find? (fun i => d.postReady ch i), (upTo 8).find? (fun x => (d.mctx ch x).isNone) with
  | some i, some x =>
    match c.posts[i]? with
    | none => d
    | some p =>
      let y : MCtx :=
        { ops := p.ops, cmd := p.cmd, pc := 0, n := 0, sr := 0, st := .need, status := 0, result := 0, tick := 0, stop := false,
          meas := none, dsh := none, look := none, pclass := 0, zc0 := 0, zc1 := 0, feat := 0, stage := 0, polled := false,
          grp := [], conf := false, rhold := false }
      let d1 := (d.setMchan ch { c with posts := c.posts.take i ++ c.posts.drop (i + 1) }).setMctx ch x (some y)
      let d2 := if 32 < c.posts.length then d1.okay else d1
      if p.bad = 0 then d2 else d2.endCtx k.tick ch x p.bad p.badAt
  | _, _ => d

/-- A queued list starts. -/
def execListStart (ch : Nat) (s : State) : Host.Outcome State Fault Refusal := .next { s with d := s.d.unlessHalted (xListStart ch s.clk s.d) }

/-- Whether a context needs the bus. -/
def MCtx.wantsBus (c : MCtx) : Bool :=
  decide (c.st = .need) && [2, 3, 4, 5, 8, 0x0A, 0x0B].contains (c.op % 256) && (!c.stop || decide (0 < c.stage))

/-- Whether training runs on a local channel (R419). -/
def Dev.training (d : Dev) (ch : Nat) : Bool := decide (ch < 64) && d.fld F.NPH_TSTAT_RESULT (ch / 16) (ch % 16) == 3

/-- BUS_GRANT (R427): the free bus goes to the next context that needs it, after the one that had it. -/
def xBusGrant (ch : Nat) (d : Dev) : Dev :=
  let c := d.mchan ch
  let held := c.ctxs.any (fun e => match e.2 with
    | some y => decide (y.st = .hold)
    | none => false)
  if held || d.training ch then d
  else
    let order := (upTo 8).map (fun i => (c.last + 1 + i) % 8)
    match order.find? (fun x => match d.mctx ch x with
        | some y => y.wantsBus
        | none => false) with
    | none => d
    | some x =>
      match d.mctx ch x with
      | none => d
      | some y => (d.setMchan ch { c with last := x }).setMctx ch x (some { y with st := .hold })

/-- The bus passes on. -/
def execBusGrant (ch : Nat) (s : State) : Host.Outcome State Fault Refusal := .next { s with d := s.d.unlessHalted (xBusGrant ch s.d) }

/-! ### Plain micro-ops -/

/-- END: with every flit of the list answered (16 R464), it ends. -/
def xListEnd (ch x : Nat) (k : Clk) (d : Dev) : Dev :=
  d.mop k.tick ch x 0x00 false (fun c o =>
    let f := d.flush ch x c
    if f.1.tetBusy ch x then f.1.setMctx ch x (some { f.2 with st := .need })
    else f.1.endCtx k.tick ch x (opByte o 2) (bitsOf o 63 32))

/-- END. -/
def execListEnd (ch x : Nat) (s : State) : Host.Outcome State Fault Refusal := .next { s with d := s.d.unlessHalted (xListEnd ch x s.clk s.d) }

/-- HDR names the target, LUN, owner and tag, which the context reads from it. -/
def xHdr (ch x : Nat) (k : Clk) (d : Dev) : Dev := d.mop k.tick ch x 0x01 false (fun c _ => d.mput k.tick ch x c.next)

/-- HDR. -/
def execHdr (ch x : Nat) (s : State) : Host.Outcome State Fault Refusal := .next { s with d := s.d.unlessHalted (xHdr ch x s.clk s.d) }

/-- Whether the PF latch is set (R440). -/
def Dev.pfSet (d : Dev) : Bool := d.flag F.MSQ_PFSTAT_LATCH d.liveQ

/-- Whether a byte is a program or an erase confirm in the channel's quarter (R432). -/
def Dev.isConfirm (d : Dev) (ch b : Nat) (erase : Bool) : Bool :=
  let v := d.regN (R.MSQ_CONF.at (mediaPlace ch).1)
  let p := if erase then v / 2 ^ 16 else v
  decide (b ≠ 0) && (decide (b = p % 256) || decide (b = p / 256 % 256))

/-- An operation is confirmed at a tick. -/
def Dev.confirm (d : Dev) (now ch u : Nat) : Dev :=
  if (d.lunop ch u).getLsbD 63 then d.setLunop ch u (putBits (putBits (d.lunop ch u) 62 62 1) 31 0 now) else d

/-- CMD: one command cycle; a confirm is driven only for an open operation of its kind, with the PF latch clear and WPN 1,
and makes the operation confirmed (R432). -/
def xCmd (ch x : Nat) (k : Clk) (d : Dev) : Dev :=
  d.mop k.tick ch x 0x02 true (fun c o =>
    let b := opByte o 2
    let pc := d.isConfirm ch b false
    let ec := d.isConfirm ch b true
    let w := d.lunop ch c.u
    let t := getBits w 60 59
    if !pc && !ec then
      let p := d.drive ch c (recCmd b) 0
      p.1.mput k.tick ch x p.2.next
    else if !(w.getLsbD 63 && !w.getLsbD 62 && !c.conf && ((pc && t == 1) || (ec && t == 2))) then d.endCtx k.tick ch x 4 c.pc
    else if d.pfSet then d.endCtx k.tick ch x 9 c.pc
    else if !d.flag F.MSQ_CHCTRL_WPN (mediaPlace ch).1 (mediaPlace ch).2 then d.endCtx k.tick ch x 0x0A c.pc
    else
      let p := d.drive ch c (recCmd b) 1
      if ch < 64 then (p.1.confirm k.tick ch c.u).mput k.tick ch x p.2.next
      else p.1.mput k.tick ch x { p.2.next with conf := true })

/-- CMD. -/
def execCmd (ch x : Nat) (s : State) : Host.Outcome State Fault Refusal := .next { s with d := s.d.unlessHalted (xCmd ch x s.clk s.d) }

/-- ADDR: NCYC address cycles. -/
def xAddr (ch x : Nat) (k : Clk) (d : Dev) : Dev :=
  d.mop k.tick ch x 0x03 true (fun c o =>
    let p := d.drive ch c (recAddr (opByte o 2) (bitsOf o 95 32)) 0
    p.1.mput k.tick ch x p.2.next)

/-- ADDR. -/
def execAddr (ch x : Nat) (s : State) : Host.Outcome State Fault Refusal := .next { s with d := s.d.unlessHalted (xAddr ch x s.clk s.d) }

/-- Bytes of a channel buffer. -/
def Dev.chbufBytes (d : Dev) (a : Nat) : Nat → List Byte
  | 0 => []
  | n + 1 => nget (0 : Byte) d.chbuf a :: d.chbufBytes (a + 1) n

/-- Corrected reads of a channel buffer (R423). -/
def Dev.chbufCe (d : Dev) (ch n : Nat) : Dev :=
  d.setRegN (mReg ch .MSQ_CHBCE) (satAdd (d.regN (mReg ch .MSQ_CHBCE)) n 0xFFFFFFFF)

/-- DOUT: buffer to NAND. `ue` is the offset in the transfer of an uncorrectable word, at which a local channel stops
driving and the list ends UE; `ce` counts corrected words (R423). On a tether channel WDATA reads the buffer. -/
def xDout (ch x : Nat) (ue : Option Nat) (ce : Nat) (k : Clk) (d : Dev) : Dev :=
  d.mop k.tick ch x 0x04 true (fun c o =>
    let off := bitsOf o 63 32
    let len := bitsOf o 95 64
    if 64 ≤ ch then
      let p := d.drive ch c (recDout len) off
      p.1.mput k.tick ch x p.2.next
    else
      let d1 := d.chbufCe ch ce
      match ue with
      | some n =>
        let m := Nat.min n len
        let p := d1.drive ch c (recDout m) off (d1.chbufBytes (ch * 0x40000 + off) m)
        p.1.endCtx k.tick ch x 6 c.pc
      | none =>
        let p := d1.drive ch c (recDout len) off (d1.chbufBytes (ch * 0x40000 + off) len)
        p.1.mput k.tick ch x p.2.next)

/-- DOUT. -/
def execDout (ch x : Nat) (ue : Option Nat) (ce : Nat) (s : State) : Host.Outcome State Fault Refusal :=
  .next { s with d := s.d.unlessHalted (xDout ch x ue ce s.clk s.d) }

/-- DIN: LEN bytes from the NAND into the buffer; on a tether channel RDATA writes it. -/
def xDin (ch x : Nat) (data : List Byte) (k : Clk) (d : Dev) : Dev :=
  d.mop k.tick ch x 0x05 true (fun c o =>
    let off := bitsOf o 63 32
    let len := bitsOf o 95 64
    let p := d.drive ch c (recDin len) off
    if 64 ≤ ch then p.1.mput k.tick ch x p.2.next
    else if data.length ≠ len then d
    else (p.1.setChbuf (ch * 0x40000 + off) data).mput k.tick ch x p.2.next)

/-- DIN. -/
def execDin (ch x : Nat) (data : List Byte) (s : State) : Host.Outcome State Fault Refusal :=
  .next { s with d := s.d.unlessHalted (xDin ch x data s.clk s.d) }

/-- DELAY: the bus passes on, the wait begins. -/
def xDelay (ch x : Nat) (k : Clk) (d : Dev) : Dev :=
  d.mop k.tick ch x 0x07 false (fun c _ =>
    let f := d.flush ch x c
    f.1.setMctx ch x (some { f.2 with st := .delay }))

/-- DELAY. -/
def execDelay (ch x : Nat) (s : State) : Host.Outcome State Fault Refusal := .next { s with d := s.d.unlessHalted (xDelay ch x s.clk s.d) }

/-- DELAY_EXPIRY. -/
def xDelayExpiry (ch x : Nat) (k : Clk) (d : Dev) : Dev :=
  match d.mctx ch x with
  | none => d
  | some c => if c.st = .delay then d.mput k.tick ch x { c.next with st := .need } else d

/-- A delay ends. -/
def execDelayExpiry (ch x : Nat) (s : State) : Host.Outcome State Fault Refusal := .next { s with d := s.d.unlessHalted (xDelayExpiry ch x s.clk s.d) }

/-- BRSTAT: jump to TARGET if (SR and MASK) is VALUE, or is not when NOT = 1. -/
def xBrstat (ch x : Nat) (k : Clk) (d : Dev) : Dev :=
  d.mop k.tick ch x 0x09 false (fun c o =>
    let hit := decide (c.sr &&& opByte o 2 = opByte o 3) != o.testBit 8
    d.mput k.tick ch x (if hit then { c.next with pc := bitsOf o 47 32 } else c.next))

/-- BRSTAT. -/
def execBrstat (ch x : Nat) (s : State) : Host.Outcome State Fault Refusal := .next { s with d := s.d.unlessHalted (xBrstat ch x s.clk s.d) }

/-! ### Tokens and operations (R431–R434) -/

/-- Tokens in use rise. -/
def Dev.takeTokens (d : Dev) (n : Nat) : Dev := d.setFld F.MSQ_OPUSE_USE (d.fld F.MSQ_OPUSE_USE d.liveQ + n) d.liveQ
/-- Tokens return. -/
def Dev.giveTokens (d : Dev) (n : Nat) : Dev := d.setFld F.MSQ_OPUSE_USE (d.fld F.MSQ_OPUSE_USE d.liveQ - n) d.liveQ
/-- Whether `n` tokens are within the cap. -/
def Dev.tokensFit (d : Dev) (n : Nat) : Bool := decide (d.fld F.MSQ_OPUSE_USE d.liveQ + n ≤ d.fld F.MSQ_OPCAP_CAP d.liveQ)

/-- Requests that wait for tokens in a quarter. -/
def Dev.tokWait (d : Dev) (q : Nat) : List Nat := nget [] d.tokq q

/-- Write a quarter's waiting requests; WAIT counts all of them. -/
def Dev.setTokWait (d : Dev) (q : Nat) (l : List Nat) : Dev :=
  let d1 := { d with tokq := nset [] d.tokq q l }
  d1.setFld F.MSQ_OPUSE_WAIT ((upTo 4).foldl (fun s i => s + (d1.tokWait i).length) 0) d1.liveQ

/-- The operation of a LUN closes; its tokens return unless SUSPEND returned them. -/
def Dev.closeOp (d : Dev) (ch u : Nat) : Dev :=
  let w := d.lunop ch u
  let d1 := if w.getLsbD 61 then d else d.giveTokens (getBits w 58 57 + 1)
  (d1.setMchan ch { d1.mchan ch with opens := (d1.mchan ch).opens.filter (fun e => decide (e.1 ≠ u)) }).setLunop ch u 0

/-- The tokens that a BEGIN or a RESUME takes. -/
def Dev.npl (d : Dev) (ch : Nat) (c : MCtx) : Nat :=
  if opByte c.op 2 = 5 then getBits (d.lunop ch c.u) 58 57 + 1 else opByte c.op 3

/-- A BEGIN or a RESUME with its tokens: it opens the operation, or clears the suspension (MED-3). -/
def Dev.grantTokens (d : Dev) (now ch x : Nat) (c : MCtx) : Dev :=
  let o := c.op
  let d1 := d.takeTokens (d.npl ch c)
  let c1 := { c.next with st := if c.st = .tokens then CtxSt.need else c.st }
  if opByte o 2 = 5 then (d1.setLunop ch c.u (putBits (d1.lunop ch c.u) 61 61 0)).mput now ch x c1
  else
    let row := bitsOf o 63 32
    let info : OpInfo := ⟨bitsOf c.hdr 47 32, bitsOf c.hdr 95 64, row⟩
    let v := 2 ^ 63 + opByte o 2 * 2 ^ 59 + (opByte o 3 - 1) * 2 ^ 57 + row % 2 ^ 24 * 2 ^ 32
    let d2 := d1.setMchan ch { d1.mchan ch with opens := nset ⟨0, 0, 2 ^ 32⟩ (d1.mchan ch).opens c.u info }
    (d2.setLunop ch c.u (BitVec.ofNat 64 v)).mput now ch x c1

/-- Ask for tokens: granted at once if nobody waits and they fit, else the context waits without the bus (R433). -/
def Dev.askTokens (d : Dev) (now ch x : Nat) (c : MCtx) : Dev :=
  if (upTo 4).all (fun q => decide (d.tokWait q = [])) && d.tokensFit (d.npl ch c) then d.grantTokens now ch x c
  else
    let f := d.flush ch x c
    let d1 := f.1.setMctx ch x (some { f.2 with st := .tokens })
    d1.setTokWait (mediaPlace ch).1 (d1.tokWait (mediaPlace ch).1 ++ [ch * 8 + x])

/-- MARK of a kind. -/
def Dev.mMark (d : Dev) (now ch x kind : Nat) (f : MCtx → Nat → Dev) : Dev :=
  d.mop now ch x 0x0C false (fun c o => if opByte o 2 = kind then f c o else d)

/-- BEGIN_PROG and BEGIN_ERASE (MED-3): PFAIL with the PF latch set (R440). -/
def Dev.beginOp (d : Dev) (now ch x kind : Nat) : Dev :=
  d.mMark now ch x kind (fun c _ =>
    if d.pfSet then d.endCtx now ch x 9 c.pc
    else if (d.lunop ch c.u).getLsbD 63 ∨ d.chcfg ch 28 24 ≤ d.openOps ch then d.endCtx now ch x 4 c.pc
    else d.askTokens now ch x c)

/-- BEGIN_PROG. -/
def xBeginProg (ch x : Nat) (k : Clk) (d : Dev) : Dev := d.beginOp k.tick ch x 1

/-- BEGIN_PROG. -/
def execBeginProg (ch x : Nat) (s : State) : Host.Outcome State Fault Refusal := .next { s with d := s.d.unlessHalted (xBeginProg ch x s.clk s.d) }

/-- BEGIN_ERASE. -/
def xBeginErase (ch x : Nat) (k : Clk) (d : Dev) : Dev := d.beginOp k.tick ch x 2

/-- BEGIN_ERASE. -/
def execBeginErase (ch x : Nat) (s : State) : Host.Outcome State Fault Refusal := .next { s with d := s.d.unlessHalted (xBeginErase ch x s.clk s.d) }

/-- A MARK after a confirm of the same group waits until the confirm is sent (16 R464). -/
def Dev.afterConf (d : Dev) (ch x : Nat) (c : MCtx) (g : Dev) : Dev :=
  if c.conf then
    let f := d.flush ch x c
    f.1.setMctx ch x (some f.2)
  else g

/-- END_OP: the open operation closes. -/
def xEndOp (ch x : Nat) (k : Clk) (d : Dev) : Dev :=
  d.mMark k.tick ch x 3 (fun c _ => d.afterConf ch x c
    (if (d.lunop ch c.u).getLsbD 63 then (d.closeOp ch c.u).mput k.tick ch x c.next else d.endCtx k.tick ch x 4 c.pc))

/-- END_OP. -/
def execEndOp (ch x : Nat) (s : State) : Host.Outcome State Fault Refusal := .next { s with d := s.d.unlessHalted (xEndOp ch x s.clk s.d) }

/-- SUSPEND: a confirmed operation is marked, its tokens return. -/
def xSuspend (ch x : Nat) (k : Clk) (d : Dev) : Dev :=
  d.mMark k.tick ch x 4 (fun c _ => d.afterConf ch x c
    (let w := d.lunop ch c.u
      if w.getLsbD 62 ∧ w.getLsbD 61 = false then
        ((d.giveTokens (getBits w 58 57 + 1)).setLunop ch c.u (putBits w 61 61 1)).mput k.tick ch x c.next
      else d.endCtx k.tick ch x 4 c.pc))

/-- SUSPEND. -/
def execSuspend (ch x : Nat) (s : State) : Host.Outcome State Fault Refusal := .next { s with d := s.d.unlessHalted (xSuspend ch x s.clk s.d) }

/-- RESUME: tokens for a suspended operation. -/
def xResume (ch x : Nat) (k : Clk) (d : Dev) : Dev :=
  d.mMark k.tick ch x 5 (fun c _ =>
    if d.pfSet then d.endCtx k.tick ch x 9 c.pc
    else if (d.lunop ch c.u).getLsbD 61 then d.askTokens k.tick ch x c
    else d.endCtx k.tick ch x 4 c.pc)

/-- RESUME. -/
def execResume (ch x : Nat) (s : State) : Host.Outcome State Fault Refusal := .next { s with d := s.d.unlessHalted (xResume ch x s.clk s.d) }

/-- TOKEN_GRANT (R433): the next quarter with a waiting request, its oldest one, once its tokens fit. -/
def xTokenGrant (k : Clk) (d : Dev) : Dev :=
  match ((upTo 4).map (fun i => (d.tokTurn + i) % 4)).find? (fun q => decide (d.tokWait q ≠ [])) with
  | none => d
  | some q =>
    let key := (d.tokWait q).headD 0
    let d1 := { d.setTokWait q ((d.tokWait q).drop 1) with tokTurn := (q + 1) % 4 }
    match d.mctx (key / 8) (key % 8) with
    | none => d1
    | some c =>
      if c.st ≠ .tokens then d1
      else if d.tokensFit (d.npl (key / 8) c) then d1.grantTokens k.tick (key / 8) (key % 8) c
      else d

/-- A waiting request receives its tokens. -/
def execTokenGrant (s : State) : Host.Outcome State Fault Refusal := .next { s with d := s.d.unlessHalted (xTokenGrant s.clk s.d) }

/-! ### WAITRB (R429, R434) -/

/-- Whether a status shows the end of a WAITRB: ARDY with ARRAY, else RDY. -/
def waitReady (o sr : Nat) : Bool := if o.testBit 9 then sr.testBit 5 else sr.testBit 6

/-- WAITRB: the bus passes on and the wait begins; in the wait, a poll falls due. PIN polls once, when R_B_N is high. -/
def xWaitrb (ch x sr : Nat) (k : Clk) (d : Dev) : Dev :=
  match d.mctx ch x with
  | none => d
  | some c =>
    let o := c.op
    let mode := opByte o 2
    if o % 256 ≠ 6 then d
    else if (c.st = .hold ∨ c.st = .need) ∧ c.stop = false then
      let f := d.flush ch x c
      f.1.setMctx ch x (some { f.2 with st := .waitrb, polled := false })
    else if c.st ≠ .waitrb ∨ (mode = 0 ∧ c.polled = true) then d
    else if ch < 64 then
      (d.send (.nand ch c.ce (d.pollRec ch mode (bitsOf o 95 64)) [])).setMctx ch x (some { c with sr := sr % 256, polled := true })
    else if d.linkBad ch c then d.endCtx k.tick ch x 7 c.pc
    else if d.tetBusy ch x ∨ (mode = 0 ∧ d.rbHigh ch c = false) then d
    else d.poll ch x c mode (bitsOf o 95 64)

/-- WAITRB. -/
def execWaitrb (ch x sr : Nat) (s : State) : Host.Outcome State Fault Refusal := .next { s with d := s.d.unlessHalted (xWaitrb ch x sr s.clk s.d) }

/-- READY_SEEN: the status that ends the wait is read, or came with the last RESP; with CLOSE a confirmed operation closes
and MEAS is kept (R434). -/
def xReadySeen (ch x sr meas : Nat) (k : Clk) (d : Dev) : Dev :=
  match d.mctx ch x with
  | none => d
  | some c =>
    let o := c.op
    let mode := opByte o 2
    let old := decide (64 ≤ ch) || (decide (mode = 0) && c.polled)
    let s := if old then c.sr else sr % 256
    if c.st ≠ .waitrb ∨ (old = true ∧ c.polled = false) ∨ d.tetBusy ch x = true ∨ waitReady o s = false then d
    else
      let d1 := if old then d else d.send (.nand ch c.ce (d.pollRec ch mode (bitsOf o 95 64)) [])
      let c1 := { c.next with sr := s, st := .need }
      if o.testBit 8 ∧ (d.lunop ch c.u).getLsbD 62 = true then
        (d1.closeOp ch c.u).mput k.tick ch x { c1 with meas := some (Nat.min meas (2 ^ 32 - 1)) }
      else d1.mput k.tick ch x c1

/-- A wait ends ready. -/
def execReadySeen (ch x sr meas : Nat) (s : State) : Host.Outcome State Fault Refusal :=
  .next { s with d := s.d.unlessHalted (xReadySeen ch x sr meas s.clk s.d) }

/-- WAITRB_TIMEOUT. -/
def xWaitrbTimeout (ch x : Nat) (k : Clk) (d : Dev) : Dev :=
  match d.mctx ch x with
  | none => d
  | some c => if c.st = .waitrb then d.endCtx k.tick ch x 2 c.pc else d

/-- A wait outlasts TIMEOUT. -/
def execWaitrbTimeout (ch x : Nat) (s : State) : Host.Outcome State Fault Refusal :=
  .next { s with d := s.d.unlessHalted (xWaitrbTimeout ch x s.clk s.d) }

/-! ### FEATURE, OFFSETS, PROBE (R428, R430, R444) -/

/-- The records of a Set or Get Features access; the LUN forms carry the LUN in their first address cycle. -/
def featRecs (lunf get : Bool) (lun fa p : Nat) : List Nat :=
  let code := if lunf then (if get then 0xD4 else 0xD5) else if get then 0xEE else 0xEF
  [recCmd code, if lunf then recAddr 2 (lun + fa * 256) else recAddr 1 fa, if get then recDini else recDouti p]

/-- The records of the page read that PROBE makes of a page. -/
def Dev.probeRead (d : Dev) (ch row : Nat) : List Nat :=
  let col := d.chcfg ch 11 10
  [recCmd 0x00, recAddr (col + d.chcfg ch 14 12) (row * 2 ^ (8 * col)), recCmd 0x30]

/-- The four parameters of OFFSETS: threshold TSEL nibble by nibble from the looked-up offsets, 0x00 for a nibble of 0. -/
def offsetParams (look tsel : Nat) : Nat :=
  (upTo 4).foldl (fun s k =>
    let t := bitsOf tsel (4 * k + 3) (4 * k)
    s + (if t = 0 then 0 else calByte look (t - 1)) * 2 ^ (8 * k)) 0

/-- The groups of bus cycles of a composite micro-op; a wait for ready follows each. -/
def Dev.opGroups (d : Dev) (ch : Nat) (c : MCtx) : List (List Nat) :=
  let o := c.op
  let w1 := bitsOf o 63 32
  let fa := opByte o 3
  match o % 256 with
  | 0x08 => [featRecs (decide (2 ≤ opByte o 2)) (decide (opByte o 2 % 2 = 1)) c.lun fa w1]
  | 0x0A => [featRecs (o.testBit 8) false c.lun (opByte o 4) (offsetParams (c.look.getD 0) (bitsOf o 63 48))]
  | 0x0B =>
    let len := d.fld F.MSQ_PROBELEN_LEN (mediaPlace ch).1
    [featRecs (o.testBit 8) false c.lun fa (bitsOf o 127 96), d.probeRead ch (w1 + bitsOf o 79 64),
      recDinz len :: d.probeRead ch (w1 + bitsOf o 95 80), recDinz len :: featRecs (o.testBit 8) false c.lun fa 0]
  | _ => []

/-- The row that a status poll by RBMODE STATUS_ENH names: the list's LUN. -/
def Dev.lunRow (d : Dev) (ch : Nat) (c : MCtx) : Nat := c.lun * 2 ^ (d.chcfg ch 18 15 + d.chcfg ch 23 19)

/-- A composite micro-op. `waits` is how many of its waits end ready in time, `sr` the last status read; `inp` takes what
a local channel reads, `post` closes the micro-op. On a local channel it runs whole; on a tether channel group by group,
each wait by RBMODE on the results that come back (16 R462, R464). -/
def Dev.composite (d : Dev) (now ch x opc waits sr : Nat) (inp post : MCtx → MCtx) : Dev :=
  match d.mctx ch x with
  | none => d
  | some c =>
    let gs := d.opGroups ch c
    let mode := d.chcfg ch 30 29
    if c.op % 256 ≠ opc ∨ (c.stop = true ∧ c.stage = 0) then d
    else if ch < 64 then
      if c.st ≠ .hold then d
      else
        let p := d.driveAll ch c ((gs.take (waits + 1)).foldl (fun a g => a ++ g) [] ++ [d.pollRec ch mode (d.lunRow ch c)])
        let c1 := inp { p.2 with sr := sr % 256 }
        if gs.length ≤ waits then p.1.mput now ch x (post { c1.next with st := .need })
        else (p.1.setMctx ch x (some c1)).endCtx now ch x 2 c.pc
    else if c.st = .hold then
      if d.linkBad ch c then d.endCtx now ch x 7 c.pc
      else
        let p := d.driveAll ch c (gs.getD c.stage [])
        let f := p.1.flush ch x p.2
        f.1.setMctx ch x (some { f.2 with st := .ready, stage := c.stage + 1, polled := false })
    else if c.st ≠ .ready then d
    else if waits < c.stage then d.endCtx now ch x 2 c.pc
    else if d.tetBusy ch x then d
    else if c.polled ∧ c.sr.testBit 6 = true then
      if c.stage < gs.length then d.setMctx ch x (some { c with st := .need })
      else d.mput now ch x (post { c.next with st := .need, stage := 0 })
    else if d.linkBad ch c then d.endCtx now ch x 7 c.pc
    else if mode = 0 ∧ (c.polled = true ∨ d.rbHigh ch c = false) then d
    else d.poll ch x c mode (d.lunRow ch c)

/-- FEATURE: bounded by 10 µs; a GET fills FEAT. -/
def xFeature (ch x : Nat) (ok : Bool) (sr vals : Nat) (k : Clk) (d : Dev) : Dev :=
  d.composite k.tick ch x 0x08 (b2n ok) sr (fun c => if opByte c.op 2 % 2 = 1 then { c with feat := vals % 2 ^ 32 } else c) id

/-- FEATURE. -/
def execFeature (ch x : Nat) (ok : Bool) (sr vals : Nat) (s : State) : Host.Outcome State Fault Refusal :=
  .next { s with d := s.d.unlessHalted (xFeature ch x ok sr vals s.clk s.d) }

/-- LOOKUP (17 R481–R483): the tracker answers the OFFSETS micro-op that a context has reached, once per list. -/
def xCalLookup (ch x : Nat) (k : Clk) (d : Dev) : Dev :=
  match d.mctx ch x with
  | none => d
  | some c =>
    if c.op % 256 ≠ 0x0A ∨ c.look ≠ none ∨ ¬(c.st = .need ∨ c.st = .hold) then d
    else
      let p := mediaPlace ch
      let r := d.calLookup p.1 p.2 c.u (opByte c.op 2) (opByte c.op 3 % 16) k.tick
      r.1.setMctx ch x (some { c with look := some r.2.1, dsh := r.2.2 })

/-- The tracker answers a lookup. -/
def execCalLookup (ch x : Nat) (s : State) : Host.Outcome State Fault Refusal := .next { s with d := s.d.unlessHalted (xCalLookup ch x s.clk s.d) }

/-- OFFSETS: after its lookup, Set Features with the offsets, and a wait as FEATURE's. -/
def xOffsets (ch x : Nat) (ok : Bool) (sr : Nat) (k : Clk) (d : Dev) : Dev :=
  match d.mctx ch x with
  | none => d
  | some c => if c.look = none then d else d.composite k.tick ch x 0x0A (b2n ok) sr id id

/-- OFFSETS. -/
def execOffsets (ch x : Nat) (ok : Bool) (sr : Nat) (s : State) : Host.Outcome State Fault Refusal :=
  .next { s with d := s.d.unlessHalted (xOffsets ch x ok sr s.clk s.d) }

/-- PCLASS of the larger zero count (R444). -/
def Dev.probeClass (d : Dev) (ch z0 z1 : Nat) : Nat :=
  let q := (mediaPlace ch).1
  let z := Nat.max z0 z1
  if z ≤ d.fld F.MSQ_PROBECFG_PROBE_T0 q then 1 else if z ≤ d.fld F.MSQ_PROBECFG_PROBE_T1 q then 2 else 3

/-- PROBE: `waits` of its four waits end ready in time; `z0` and `z1` zero bits are counted, saturating at 16 bits. An open
operation on the LUN ends the list with SEQUENCE (R431). -/
def xProbe (ch x waits sr z0 z1 : Nat) (k : Clk) (d : Dev) : Dev :=
  match d.mctx ch x with
  | none => d
  | some c =>
    if c.op % 256 = 0x0B ∧ c.stage = 0 ∧ (c.st = .hold ∨ c.st = .need) ∧ c.stop = false ∧ (d.lunop ch c.u).getLsbD 63 = true then
      d.endCtx k.tick ch x 4 c.pc
    else d.composite k.tick ch x 0x0B waits sr (fun y => { y with zc0 := Nat.min z0 65535, zc1 := Nat.min z1 65535 })
      (fun y => { y with pclass := d.probeClass ch y.zc0 y.zc1 })

/-- PROBE. -/
def execProbe (ch x waits sr z0 z1 : Nat) (s : State) : Host.Outcome State Fault Refusal :=
  .next { s with d := s.d.unlessHalted (xProbe ch x waits sr z0 z1 s.clk s.d) }

/-! ### Completion rings (R435, R436) -/

/-- Records of a group's ring. -/
def Dev.mRing (d : Dev) (q j : Nat) : Nat := 2 ^ d.fld F.MSQ_RSIZE_RSIZE q j

/-- The watermark of a ring follows its records (R447). -/
def Dev.ringLevel (d : Dev) (q j : Nat) : Dev :=
  let n := ringDist (d.fld F.MSQ_RWP_WP q j) (d.fld F.MSQ_RRP_RP q j) (d.mRing q j)
  let x := (d.setRegN (R.MSQ_RWM_LEVEL.at q j) n).wmCheck wmRing q 0x453 j
  if x.2 then x.1.setBit (R.MSQ_WMPEND.at q) j true else x.1

/-- A completion record as a number (MED-4). -/
def mRecord (ch ph tag : Nat) (c : MCtx) : Nat :=
  let chan := ch + c.pclass % 4 * 2 ^ 10 + b2n c.meas.isSome * 2 ^ 12 + b2n c.dsh.isSome * 2 ^ 13 + ph * 2 ^ 15
  tag + c.status % 256 * 2 ^ 32 + c.sr % 256 * 2 ^ 40 + chan * 2 ^ 48 + c.meas.getD 0 * 2 ^ 64 + c.tick * 2 ^ 96
    + c.dsh.getD 0 * 2 ^ 128 + c.result % 2 ^ 32 * 2 ^ 160 + c.feat * 2 ^ 192 + c.zc0 * 2 ^ 224 + c.zc1 * 2 ^ 240

/-- COMPLETION_RECORD: an ended list writes its record, unless the ring is full, which MSQ_RHOLD counts once. -/
def xCompletionRecord (ch x : Nat) (d : Dev) : Dev :=
  match d.mctx ch x with
  | none => d
  | some c =>
    let q := (mediaPlace ch).1
    let j := mGroup ch
    let wp := d.fld F.MSQ_RWP_WP q j
    let n := d.mRing q j
    if c.st ≠ .ended then d
    else if (wp + 1) % n = d.fld F.MSQ_RRP_RP q j then
      if c.rhold then d else (d.setMctx ch x (some { c with rhold := true })).bump (R.MSQ_RHOLD.at q j)
    else
      let t := d.ctxTag c
      let ph := d.fld F.MSQ_RWP_PH q j
      let w := (t.2.hbm (wrReq (mMid ch) 0 (d.fld F.MSQ_RBASE_BASE q j * 4096 + 32 * wp) 32 (mRecord ch ph t.1 c)) false .none).1
      let nx := (wp + 1) % n
      let d1 := (w.setRegN (R.MSQ_RWP.at q j) ((if nx = 0 then 1 - ph else ph) * 65536 + nx)).setMctx ch x none
      (d1.ringLevel q j).raise q (0x240 + (mediaPlace ch).2)

/-- An ended list writes its record. -/
def execCompletionRecord (ch x : Nat) (s : State) : Host.Outcome State Fault Refusal := .next { s with d := s.d.unlessHalted (xCompletionRecord ch x s.d) }

/-- MSQ_RRP is written; a value that would pass MSQ_RWP is refused (R447). -/
def xMsqRrp (m : Mst) (q j v : Nat) (d : Dev) : Dev :=
  let x := R.MSQ_RRP.at q j
  let n := d.mRing q j
  let old := d.fld F.MSQ_RRP_RP q j
  let rp := v % 65536
  if !m.owner then d.denyOid m x
  else if rp < n ∧ ringDist rp old n ≤ ringDist (d.fld F.MSQ_RWP_WP q j) old n then ((d.setRegN x rp).ringLevel q j).okay
  else d.refuse m x

/-- MSQ_RRP is written. -/
def execMsqRrp (m : Mst) (q j v : Nat) (s : State) : Host.Outcome State Fault Refusal := .next { s with d := xMsqRrp m q j v s.d }

/-! ### MSQ_CHCTRL, MSQ_CHCFG (MED-10, R447, R448) -/

/-- WPN of a channel. -/
def Dev.setWpn (d : Dev) (ch v : Nat) : Dev := d.setRegN (mReg ch .MSQ_CHCTRL) (v &&& 2)

/-- Every queued list of a channel ends ABORTED once it gets a context; every running one at its next boundary. -/
def Dev.stopLists (d : Dev) (now ch : Nat) : Dev :=
  let c := d.mchan ch
  let d1 := d.setMchan ch { c with posts := c.posts.map (fun p => { p with fetched := true, bad := if p.bad = 0 then 8 else p.bad }) }
  (upTo 8).foldl (fun y x => match y.mctx ch x with
    | none => y
    | some z =>
      if z.st = .ended then y
      else
        let y1 := y.setMctx ch x (some { z with stop := true })
        if (z.st = .need ∨ z.st = .hold) ∧ z.stage = 0 ∧ y1.tetBusy ch x = false then y1.endCtx now ch x 8 z.pc else y1) d1

/-- MSQ_CHCTRL is written with STOP = 1. -/
def xStop (m : Mst) (ch v : Nat) (k : Clk) (d : Dev) : Dev :=
  if !m.owner then d.denyOid m (mReg ch .MSQ_CHCTRL)
  else if v.testBit 0 then ((d.setWpn ch v).stopLists k.tick ch).okay
  else d

/-- STOP. -/
def execStop (m : Mst) (ch v : Nat) (s : State) : Host.Outcome State Fault Refusal := .next { s with d := xStop m ch v s.clk s.d }

/-- MSQ_CHCTRL is written: WPN drives WP_N of the channel. -/
def xWpn (m : Mst) (ch v : Nat) (d : Dev) : Dev :=
  if !m.owner then d.denyOid m (mReg ch .MSQ_CHCTRL) else (d.setWpn ch v).okay

/-- WPN. -/
def execWpn (m : Mst) (ch v : Nat) (s : State) : Host.Outcome State Fault Refusal := .next { s with d := xWpn m ch v s.d }

/-- Keep the old value of a field whose new value is reserved. -/
def keepField (old v hi lo : Nat) (ok : Nat → Bool) : Nat := if ok (bitsOf v hi lo) then v else setBitsN v hi lo (bitsOf old hi lo)

/-- MSQ_CHCFG with its reserved encodings left out (R16). -/
def chcfgOk (old v : Nat) : Nat :=
  let v1 := keepField old v 30 29 (fun f => decide (f ≤ 2))
  let v2 := keepField old v1 28 24 (fun f => decide (1 ≤ f))
  let v3 := keepField old v2 23 19 (fun f => decide (1 ≤ f ∧ f ≤ 20))
  let v4 := keepField old v3 18 15 (fun f => decide (f ≤ 12))
  let v5 := keepField old v4 14 12 (fun f => decide (1 ≤ f ∧ f ≤ 4))
  keepField old v5 11 10 (fun f => decide (1 ≤ f))

/-- MSQ_CHCFG is written: only while the channel is OFF or IDLE; EN = 1 needs the group's ring (R435, R447). -/
def xMsqChcfg (m : Mst) (ch v : Nat) (d : Dev) : Dev :=
  let x := mReg ch .MSQ_CHCFG
  let q := (mediaPlace ch).1
  let w := v &&& 0xFFFFFC00
  if !m.owner then d.denyOid m x
  else if 2 ≤ d.fld F.MSQ_CHSTAT_STATE q (mediaPlace ch).2 then d.refuse m x
  else if v.testBit 31 ∧ d.regN (R.MSQ_RBASE.at q (mGroup ch)) = 0 then d.refuse m x
  else
    let n := chcfgOk (d.regN x) w
    let d1 := if n = w then d else d.logWrite m x .reserved
    ((d1.setRegN x n).chStat ch).okay

/-- MSQ_CHCFG is written. -/
def execMsqChcfg (m : Mst) (ch v : Nat) (s : State) : Host.Outcome State Fault Refusal := .next { s with d := xMsqChcfg m ch v s.d }

/-! ### NAND PHYs (R418, R419) -/

/-- NPH_CFG of local channel `n`: a change only while the channel is OFF or IDLE and no training runs; a reserved DRV code
leaves DRV as it is (22 R590). -/
def xNphCfg (m : Mst) (n v : Nat) (d : Dev) : Dev :=
  let q := n / 16
  let i := n % 16
  let x := R.NPH_CFG.at q i
  let w := v &&& 0x773
  let n1 := keepField (d.regN x) w 6 4 (fun f => decide (f ≤ 4))
  if !m.owner then d.denyOid m x
  else if w ≠ d.regN x ∧ (2 ≤ d.fld F.MSQ_CHSTAT_STATE q i ∨ d.training n = true) then d.refuse m x
  else
    let d1 := if n1 = w then d else d.logWrite m x .reserved
    ((d1.setRegN x n1).setFld F.NPH_STAT_LPDDR4 (b2n (decide (n1 % 4 ≠ 0))) q i).okay

/-- NPH_CFG is written. -/
def execNphCfg (m : Mst) (n v : Nat) (s : State) : Host.Outcome State Fault Refusal := .next { s with d := xNphCfg m n v s.d }

/-- NPH_TRAIN with START: training runs. -/
def xNphTrain (m : Mst) (n v : Nat) (d : Dev) : Dev :=
  if !m.owner then d.denyOid m (R.NPH_TRAIN.at (n / 16) (n % 16))
  else if v.testBit 4 then (d.setFld F.NPH_TSTAT_RESULT 3 (n / 16) (n % 16)).okay
  else d.okay

/-- NPH_TRAIN is written. -/
def execNphTrain (m : Mst) (n v : Nat) (s : State) : Host.Outcome State Fault Refusal := .next { s with d := xNphTrain m n v s.d }

/-- NPH_TRAINING_DONE with its margins: a PASS puts the trained values in force, a FAIL leaves the previous ones. The
training had the bus, so no context holds it. -/
def xNphTrainingDone (n : Nat) (pass : Bool) (rm wm : Nat) (d : Dev) : Dev :=
  let q := n / 16
  let i := n % 16
  let held := (d.mchan n).ctxs.any (fun e => match e.2 with
    | some y => decide (y.st = .hold)
    | none => false)
  if !d.training n || held then d
  else
    let d1 := d.setRegN (R.NPH_TSTAT.at q i) ((if pass then 1 else 2) * 2 ^ 30 + rm % 256 * 256 + wm % 256)
    if pass then d1.setFld F.NPH_STAT_TRAINED 1 q i else d1

/-- Training completes. -/
def execNphTrainingDone (n : Nat) (pass : Bool) (rm wm : Nat) (s : State) : Host.Outcome State Fault Refusal :=
  .next { s with d := xNphTrainingDone n pass rm wm s.d }

/-! ### Tokens and the PF registers of the live quarter (R433, R440–R443) -/

/-- MSQ_OPCAP is written; it acts in the live quarter only. -/
def xMsqOpcap (m : Mst) (q v : Nat) (d : Dev) : Dev :=
  let x := R.MSQ_OPCAP.at q
  let n := v % 4096
  if !m.owner then d.denyOid m x
  else if q ≠ d.liveQ then d.okay
  else d.unlessLocked m x (if 1 ≤ n ∧ n ≤ 2048 then (d.setRegN x n).okay else (d.logWrite m x .reserved).okay)

/-- MSQ_OPCAP is written. -/
def execMsqOpcap (m : Mst) (q v : Nat) (s : State) : Host.Outcome State Fault Refusal := .next { s with d := xMsqOpcap m q v s.d }

/-- A source that the whole device raises: in every quarter. -/
def Dev.raiseAll (d : Dev) (src : Nat) : Dev := (upTo 4).foldl (fun x q => x.raise q src) d

/-- The device address of the boot flash of Q0 or Q3 (18 R499). -/
def flashBase (q : Nat) : Nat := if q = 3 then 0xF800800000 else 0xF800000000

/-- The device address of a half of a flash's OPDUMP region (18 BOOT-2). -/
def dumpBase (q half : Nat) : Nat := flashBase q + 0x700000 + half * 0x10000

/-- Whether `n` bytes of flash read erased. -/
def Dev.erased (d : Dev) (a n : Nat) : Bool := d.mem.all (fun e => !(decide (a ≤ e.1) && decide (e.1 < a + n)))

/-- Write free bytes, eight at a time. -/
def Dev.freeMem (d : Dev) (a : Nat) : Nat → Dev
  | 0 => d
  | n + 1 => (d.fresh.2.setMemN a 8 d.fresh.1.toNat).freeMem (a + 8) n

/-- The PF latch stops a flash erase (18 BOOT-12): RESULT reads ABORTED, what the sector holds is open. -/
def Dev.stopErase (d : Dev) (q : Nat) : Dev :=
  match nget none d.fls q with
  | some o =>
    if o.cmd = 2 then
      (({ d with fls := nset none d.fls q none }).setRegN (R.FLS_STAT.at q) (5 * 2 ^ 24)).freeMem (flashBase q + o.word / 1024 * 0x8000) 4096
    else d
  | none => d

/-- The dump record of an open operation (MED-8). -/
def Dev.dumpRec (d : Dev) (now ch u : Nat) (i : OpInfo) : Nat :=
  let w := d.lunop ch u
  let pg := d.chcfg ch 18 15
  let blk := d.chcfg ch 23 19
  let start := getBits w 31 0
  ch + u / 4 * 2 ^ 10 + u % 4 * 2 ^ 13 + (getBits w 60 59 + b2n (w.getLsbD 61) * 4 + getBits w 58 57 * 8) * 2 ^ 16
    + i.row / 2 ^ pg % 2 ^ blk * 2 ^ 32 + i.row % 2 ^ pg * 2 ^ 64 + i.oid % 2 ^ 11 * 2 ^ 80 + start * 2 ^ 96
    + (now + 2 ^ 32 - start) % 2 ^ 32 * 2 ^ 128 + i.tag * 2 ^ 160

/-- Put a record into the order of R441: operations not suspended first, then by START, the earliest first. -/
def insDump (r : Nat) : List Nat → List Nat
  | [] => [r]
  | y :: l =>
    let before := if r.testBit 18 = y.testBit 18 then decide (bitsOf y 159 128 < bitsOf r 159 128) else y.testBit 18
    if before then r :: y :: l else y :: insDump r l

/-- The records of every confirmed operation, in the order of R441. -/
def Dev.dumpRecs (d : Dev) (now : Nat) : List Nat :=
  let all : List Nat := d.mch.flatMap (fun e => e.2.opens.filterMap (fun o =>
    if (d.lunop e.1 o.1).getLsbD 62 then some (d.dumpRec now e.1 o.1 o.2) else none))
  all.foldl (fun l r => insDump r l) []

/-- The header word of a dump (MED-7). -/
def Dump.header (p : Dump) : Nat :=
  0x4844504F + p.seq * 2 ^ 32 + p.tick * 2 ^ 64 + p.recs.length * 2 ^ 128 + p.dropped * 2 ^ 144 + p.cap * 2 ^ 160

/-- The completion word of a dump. -/
def Dump.complete (p : Dump) : Nat :=
  let body : List Byte := leBytes p.header 32 ++ p.recs.flatMap (fun r => leBytes r 32)
  0x4544504F + p.seq * 2 ^ 32 + p.recs.length * 2 ^ 64 + crc32c body * 2 ^ 96

/-- The PF latch sets (R440, R441): waiting BEGINs and RESUMEs end PFAIL, the operations are reported and the header of
the armed half is written, or DUMP reads NOT_ARMED. -/
def Dev.pfLatch (d : Dev) (now : Nat) : Dev :=
  if d.pfSet then d
  else
    let q := d.liveQ
    let d1 := (d.setFld F.MSQ_PFSTAT_LATCH 1 q).raiseAll 0x001
    let wait : List Nat := (upTo 4).flatMap (fun i => d1.tokWait i)
    let d2 := (upTo 4).foldl (fun x i => x.setTokWait i []) d1
    let d3 := wait.foldl (fun x key => match x.mctx (key / 8) (key % 8) with
      | some c => if c.st = .tokens then x.endCtx now (key / 8) (key % 8) 9 c.pc else x
      | none => x) d2
    let d4 := (d3.stopErase 0).stopErase 3
    if d4.flag F.MSQ_PFSTAT_ARMED q then
      let half := d4.fld F.MSQ_PFSTAT_HALF q
      let rs := d4.dumpRecs now
      let p : Dump := ⟨half, d4.armSeq, now % 2 ^ 64, d4.fld F.MSQ_OPCAP_CAP q, rs.take 2046, (rs.length - 2046) % 65536⟩
      ({ d4 with dump := some p }.setFld F.MSQ_PFSTAT_DUMP 1 q).setMemN (dumpBase q half) 32 p.header
    else d4.setFld F.MSQ_PFSTAT_DUMP 3 q

/-- PF_WARN: PF_WARN_N asserts. -/
def xPfWarn (k : Clk) (d : Dev) : Dev :=
  ({ d with pfLow := true }.setFld F.MSQ_PFSTAT_PIN 1 d.liveQ).pfLatch k.tick

/-- PF_WARN_N asserts. -/
def execPfWarn (s : State) : Host.Outcome State Fault Refusal := .next { s with d := xPfWarn s.clk s.d }

/-- PF_WARN_N returns high. -/
def xPfWarnNDeassert (d : Dev) : Dev := { d with pfLow := false }.setFld F.MSQ_PFSTAT_PIN 0 d.liveQ

/-- PF_WARN_N returns high. -/
def execPfWarnNDeassert (s : State) : Host.Outcome State Fault Refusal := .next { s with d := xPfWarnNDeassert s.d }

/-- DUMP_COMPLETE: the records and the completion word stand in the half. -/
def xDumpComplete (d : Dev) : Dev :=
  match d.dump with
  | none => d
  | some p =>
    let q := d.liveQ
    let a := dumpBase q p.half
    let d1 := (p.recs.zip (upTo p.recs.length)).foldl (fun x r => x.setMemN (a + 64 + 32 * r.2) 32 r.1) d
    let d2 := { d1.setMemN (a + 32) 32 p.complete with dump := none }
    ((d2.setFld F.MSQ_PFSTAT_DUMP 2 q).setFld F.MSQ_PFSTAT_ARMED 0 q).setFld F.MSQ_PFSTAT_COUNT p.recs.length q

/-- The dump completes. -/
def execDumpComplete (s : State) : Host.Outcome State Fault Refusal := .next { s with d := xDumpComplete s.d }

/-- MSQ_PFCLR: the latch clears while PF_WARN_N is deasserted. -/
def xMsqPfclr (m : Mst) (q v : Nat) (d : Dev) : Dev :=
  let x := R.MSQ_PFCLR.at q
  if !m.owner then d.denyOid m x
  else if q ≠ d.liveQ ∨ v.testBit 0 = false then d.okay
  else if d.flag F.MSQ_PFSTAT_PIN q then d.refuse m x
  else (d.setFld F.MSQ_PFSTAT_LATCH 0 q).okay

/-- MSQ_PFCLR is written. -/
def execMsqPfclr (m : Mst) (q v : Nat) (s : State) : Host.Outcome State Fault Refusal := .next { s with d := xMsqPfclr m q v s.d }

/-- SEQ of a half whose header has its MAGIC; 0 for another. -/
def Dev.dumpSeq (d : Dev) (q half : Nat) : Nat :=
  if d.memN (dumpBase q half) 4 = 0x4844504F then d.memN (dumpBase q half + 4) 4 else 0

/-- MSQ_OPDARM: ARM arms an erased half (R443). -/
def xMsqOpdarm (m : Mst) (q v : Nat) (d : Dev) : Dev :=
  let x := R.MSQ_OPDARM.at q
  let h := v / 2 % 2
  if !m.owner then d.denyOid m x
  else if q ≠ d.liveQ then d.okay
  else if v.testBit 0 = false then (d.setRegN x (v &&& 2)).okay
  else if !d.erased (dumpBase q h) 0x10000 then d.refuse m x
  else
    let d1 := ((d.setRegN x (v &&& 2)).setFld F.MSQ_PFSTAT_ARMED 1 q).setFld F.MSQ_PFSTAT_HALF h q
    { d1 with armSeq := (Nat.max (d.dumpSeq q 0) (d.dumpSeq q 1) + 1) % 2 ^ 32 }.okay

/-- MSQ_OPDARM is written. -/
def execMsqOpdarm (m : Mst) (q v : Nat) (s : State) : Host.Outcome State Fault Refusal := .next { s with d := xMsqOpdarm m q v s.d }

/-- The lists of a channel end with its reset: a MEDIA command among them completes ABORTED, with the SR and PCLASS that its
list has (MED-5; assumption 151). -/
def Dev.abandonLists (d : Dev) (c : MChan) : Dev :=
  let finish (x : Dev) (k : Option Nat) (res : Nat) : Dev := match k with
    | some k => x.endCmd k (mediaStatus 8) res
    | none => x
  let d1 := c.posts.foldl (fun x p => finish x p.cmd 8) d
  c.ctxs.foldl (fun x e => match e.2 with
    | some y => finish x y.cmd (8 + y.sr % 256 * 2 ^ 8 + y.pclass % 4 * 2 ^ 16)
    | none => x) d1

/-- The channels of a quarter are reset (MED-10): lists end without records, open operations clear, their tokens return. -/
def Dev.mediaReset (d0 : Dev) (q : Nat) : Dev :=
  let mine (ch : Nat) : Bool := decide ((mediaPlace ch).1 = q)
  let d := (d0.mch.filter (fun e => mine e.1)).foldl (fun x e => x.abandonLists e.2) d0
  let used : Nat := d.mch.foldl (fun s e => if mine e.1 then e.2.opens.foldl (fun t o =>
    let w := d.lunop e.1 o.1
    if w.getLsbD 63 ∧ w.getLsbD 61 = false then t + getBits w 58 57 + 1 else t) s else s) 0
  let d1 := (d.giveTokens used).setTokWait q []
  let d2 := { d1 with mch := ndrop d1.mch mine }
  d2.resetRegs (fun x => decide (x.q = q) && (decide (x.r = .MSQ_LUNOP) || decide (x.r = .MSQ_CHSTAT)))

end Sys2Proof.Machine
end

