-- ==== Sys2Proof/Machine/Tether.lean ====
section
/-! DEFINITION. Flash tether lanes (chapter 16; rows TET_LCTRL to MGMT_TIMEOUT, CREDIT_RETURN_DUE). -/

namespace Sys2Proof.Machine

/-! ### Flits on the wire (R456, R457) -/

/-- One byte of the CRC-64, in the order of the wire. -/
def crc64Byte (c : Nat) (x : Byte) : Nat :=
  (upTo 8).foldl (fun r _ => if r % 2 = 1 then r / 2 ^^^ 0xC96C5795D7870F42 else r / 2) (c ^^^ x.toNat)

/-- The CRC-64 of a byte string. -/
def crc64 (l : List Byte) : Nat := l.foldl crc64Byte (2 ^ 64 - 1) ^^^ (2 ^ 64 - 1)

/-- The bytes that the CRC covers: the header, and the payload of a data flit padded with zeros. -/
def Flit.body (f : Flit) (ack : Nat) : List Byte :=
  let hdr := f.type % 256 + f.fl % 256 * 2 ^ 8 + f.chan % 256 * 2 ^ 16 + f.tag % 65536 * 2 ^ 32 + f.len % 65536 * 2 ^ 48
    + f.seq % 4096 * 2 ^ 64 + ack % 65536 * 2 ^ 80 + f.param % 2 ^ 32 * 2 ^ 96
  leBytes hdr 16 ++ (if f.type < 0x80 then f.payload.take 1024 ++ List.replicate (1024 - f.payload.length) 0 else [])

/-- A flit as it is sent. -/
def Flit.wire (f : Flit) (ack : Nat) : List Byte := f.body ack ++ leBytes (crc64 (f.body ack)) 8

/-- A field of a received flit. -/
def rxN (b : List Byte) (off n : Nat) : Nat := leNat ((b.drop off).take n)

/-- A received flit. -/
def rxFlitOf (b : List Byte) : Flit :=
  { seq := rxN b 8 2 % 4096, type := rxN b 0 1, fl := rxN b 1 1, chan := rxN b 2 1, tag := rxN b 4 2, param := rxN b 12 4,
    len := rxN b 6 2, payload := if rxN b 0 1 < 0x80 then (b.drop 16).take 1024 else [] }

/-- Whether the CRC of a received flit passes and its length is a flit's. -/
def rxCrcOk (b : List Byte) : Bool :=
  let n := b.length - 8
  (decide (b.length = 1048) || decide (b.length = 24)) && decide (crc64 (b.take n) = rxN b n 8)
    && (decide (rxN b 0 1 < 0x80) == decide (b.length = 1048))

/-- Whether TYPE is one of TET-5 and no reserved bit is set. -/
def rxFormOk (b : List Byte) : Bool :=
  let t := rxN b 0 1
  ([1, 2, 3, 4, 5, 6, 0x80, 0x81, 0x82].contains t) && decide (rxN b 1 1 < 16) && decide (rxN b 3 1 = 0)
    && decide (rxN b 8 2 < 4096) && decide (rxN b 10 2 / 4096 % 8 = 0)

/-- Whether a TYPE is sequenced. -/
def isSequenced (t : Nat) : Bool := decide (1 ≤ t ∧ t ≤ 5)

/-! ### Sending -/

/-- The ACK field: the last SEQ accepted in order, and ACKV. -/
def Lane.ackField (l : Lane) : Nat := (l.rxNext + 4095) % 4096 + b2n l.rxAny * 2 ^ 15

/-- Put a flit on the lane; it carries the ACK. -/
def Dev.txFlit (d : Dev) (L : Nat) (f : Flit) : Dev :=
  let l := d.lane L
  (d.setLane L { l with ackDue := false }).send (.flit L (f.wire l.ackField))

/-- Send a control flit. -/
def Dev.txCtl (d : Dev) (L type fl chan param : Nat) : Dev := d.txFlit L ⟨0, type, fl, chan, 0, param, 0, []⟩

/-- Whether a sequenced flit may be sent now (R460). -/
def Dev.canSend (d : Dev) (L : Nat) : Bool := d.laneState L == 4 && decide ((d.lane L).replay.length < 250)

/-- Send a sequenced flit: it takes the next SEQ and stays in the replay buffer (R458, R460). -/
def Dev.txSeqFlit (d : Dev) (L : Nat) (f : Flit) : Dev :=
  let l := d.lane L
  let g := { f with seq := l.txSeq }
  (d.setLane L { l with txSeq := (l.txSeq + 1) % 4096, replay := l.replay ++ [g] }).txFlit L g

/-- One NAK until an in-order flit is accepted (R459). -/
def Dev.nak (d : Dev) (L : Nat) : Dev :=
  let l := d.lane L
  if l.nakSent then d
  else
    let x := tetReg L .TET_NAK_CNT
    (((d.setLane L { l with nakSent := true }).setReg x
      (putBits (d.reg x) 15 0 (satAdd (getBits (d.reg x) 15 0) 1 65535))).txCtl L 0x81 0 255 0)

/-- Send the replay buffer again, in order (R460). -/
def Dev.resend (d : Dev) (L : Nat) : Dev :=
  (d.lane L).replay.foldl (fun x f => x.txFlit L f) (d.bump (tetReg L .TET_REPLAY_CNT))

/-- A waiting management request leaves as soon as it may. -/
def Dev.txMgmt (d : Dev) (L : Nat) : Dev :=
  match (d.lane L).mreq with
  | none => d
  | some f => if d.canSend L then (d.setLane L { d.lane L with mreq := none }).txSeqFlit L f else d

/-- An ACK releases every flit up to the SEQ it names. -/
def Dev.ackUpTo (d : Dev) (L ack : Nat) : Dev :=
  let l := d.lane L
  let rest := l.replay.filter (fun f => decide (2048 ≤ (ack + 4096 - f.seq) % 4096))
  if rest.length = l.replay.length then d
  else (d.setLane L { l with replay := rest, replays := 0 }).txMgmt L

/-! ### Lane states (R467, R470, R471) -/

/-- Put a lane into a state; TET_STAT shows the lanes that are UP. -/
def Dev.setLaneState (d : Dev) (L st : Nat) : Dev :=
  let x := tetReg L .TET_LSTAT
  (d.setReg x (putBits (d.reg x) 31 28 st)).setBit (R.TET_STAT.at (L / 16)) (L % 16) (decide (st = 4))

/-- CAUSE of a lane. -/
def Dev.laneCause (d : Dev) (L : Nat) : Nat := getBits (d.reg (tetReg L .TET_LSTAT)) 27 24
/-- Write CAUSE. -/
def Dev.setLaneCause (d : Dev) (L c : Nat) : Dev := d.setReg (tetReg L .TET_LSTAT) (putBits (d.reg (tetReg L .TET_LSTAT)) 27 24 c)

/-- A lane event: TET_LLOG, and the lane's state source. -/
def Dev.laneEvent (d : Dev) (now L : Nat) : Dev :=
  let v := getBits (d.reg (tetReg L .TET_LSTAT)) 31 28 * 2 ^ 56 + d.laneCause L * 2 ^ 52 + now % 2 ^ 32
  (d.logFirst (tetReg L .TET_LLOG) v).raise (L / 16) (0x2D0 + L % 16)

/-- ABSENT, MUTE or REJECT: one more consecutive failure (R470). -/
def Dev.laneFail (d : Dev) (now L st : Nat) : Dev :=
  let x := tetReg L .TET_LSTAT
  ((d.setReg x (putBits (d.reg x) 7 0 (satAdd (getBits (d.reg x) 7 0) 1 255))).setLaneState L st).laneEvent now L

/-- The transmit presets of TET-12 as c(−2), c(−1), c(0), c(+1) in fortieths. -/
def txPreset (p : Nat) : List Int :=
  match p with
  | 1 => [0, 0, 40, 0]
  | 2 => [0, -4, 32, -4]
  | 3 => [0, -6, 30, -4]
  | 4 => [-2, -6, 28, -4]
  | 5 => [-2, -8, 24, -6]
  | _ => [0, 0, 0, 0]

/-- Training starts over: initial preset, no RXREADY, no lock. -/
def Lane.retrainFrom (l : Lane) (preset : Nat) : Lane :=
  { l with rdyTx := 0, rdyRx := 0, codes := false, locked := false, run := 0, rxOk := false, fir := txPreset preset }

/-- A lane begins TRAIN, or a new attempt of it. -/
def Dev.beginTrain (d : Dev) (L st : Nat) : Dev :=
  let p := getBits (d.reg (tetReg L .TET_LCFG)) 2 0
  (d.setLane L ((d.lane L).retrainFrom p)).setLaneState L st

/-- A restart of training (R467). -/
def Dev.laneRestart (d : Dev) (L st : Nat) : Dev := (d.bump (tetReg L .TET_RESTART_CNT)).beginTrain L st

/-- Credits held for every channel go. -/
def Dev.dropCredits (d : Dev) (L : Nat) : Dev :=
  (upTo 8).foldl (fun x k => x.setReg (tetReg L .TET_CHINFO k) (putBits (x.reg (tetReg L .TET_CHINFO k)) 47 32 0)) d

/-- MSTAT shows the end of a management request. -/
def Dev.mgmtEnd (d : Dev) (L res rlen : Nat) : Dev := d.setRegN (tetReg L .TET_MSTAT) (rlen % 2048 * 65536 + res)

/-- Whether a management request is outstanding. -/
def Dev.mgmtBusy (d : Dev) (L : Nat) : Bool := (d.reg (tetReg L .TET_MSTAT)).getLsbD 31

/-- The contexts with flits on a lane that wait to be sent or answered. -/
def Lane.keys (l : Lane) : List Nat := (l.outq.map (fun g => g.key) ++ l.unans.filterMap (fun u => u.key)).eraseDups

/-- A lane leaves UP or RETRAIN (R471): for DETECT, or for OFF when EN was cleared. -/
def Dev.leaveUp (d : Dev) (now L cause st : Nat) : Dev :=
  let l := d.lane L
  let d1 := d.setLane L { Lane.zero with everUp := l.everUp }
  let d2 := (((d1.setLaneCause L cause).setLaneState L st).bump (tetReg L .TET_DOWN_CNT)).laneEvent now L
  let d3 := (if d2.mgmtBusy L then d2.mgmtEnd L 3 0 else d2).dropCredits L
  l.keys.foldl (fun x key => match x.mctx (key / 8) (key % 8) with
    | some c => x.endCtx now (key / 8) (key % 8) 7 c.pc
    | none => x) d3

/-! ### TET_LCTRL, TET_RETRAIN -/

/-- TET_LCTRL is written: EN (R475); every write of EN = 1 clears FAILS (R470). -/
def xTetLctrl (m : Mst) (L v : Nat) (k : Clk) (d : Dev) : Dev :=
  let x := tetReg L .TET_LCTRL
  let s := tetReg L .TET_LSTAT
  let was := (d.reg x).getLsbD 0
  if !m.owner then d.denyOid m x
  else if v.testBit 0 then
    let d1 := (d.setRegN x 1).setReg s (putBits (d.reg s) 7 0 0)
    (if was then d1 else d1.setLaneState L 1).okay
  else if !was then d.okay
  else
    let d1 := d.setRegN x 0
    let st := d.laneState L
    (if st = 4 ∨ st = 8 then d1.leaveUp k.tick L 6 0 else (d1.setLane L { Lane.zero with everUp := (d.lane L).everUp }).setLaneState L 0).okay

/-- TET_LCTRL is written. -/
def execTetLctrl (m : Mst) (lane v : Nat) (s : State) : Host.Outcome State Fault Refusal :=
  .next { s with d := xTetLctrl m lane v s.clk s.d }

/-- RETRAIN is entered: training frames again, everything of the link layer kept (R472). -/
def Dev.enterRetrain (d : Dev) (L : Nat) : Dev := d.beginTrain L 8

/-- TET_LCTRL is written with RETRAIN = 1: in UP the lane sends RTRN and retrains. -/
def xTetRetrain (m : Mst) (L v : Nat) (d : Dev) : Dev :=
  if !m.owner then d.denyOid m (tetReg L .TET_LCTRL)
  else if v.testBit 1 ∧ d.laneState L = 4 then ((d.txCtl L 0x82 0 255 0).enterRetrain L).okay
  else d.okay

/-- A retrain is asked for. -/
def execTetRetrain (m : Mst) (lane v : Nat) (s : State) : Host.Outcome State Fault Refusal :=
  .next { s with d := xTetRetrain m lane v s.d }

/-! ### Signal, training frames, codewords -/

/-- SIGNAL_DETECT: DETECT and ABSENT go to TRAIN. -/
def xSignalDetect (L : Nat) (d : Dev) : Dev :=
  if d.laneState L = 1 ∨ d.laneState L = 5 then d.beginTrain L 2 else d

/-- A signal is received. -/
def execSignalDetect (lane : Nat) (s : State) : Host.Outcome State Fault Refusal := .next { s with d := xSignalDetect lane s.d }

/-- LOSS_OF_SIGNAL: a restart in TRAIN and IDENT, a departure in UP, a failed retrain in RETRAIN. -/
def xLossOfSignal (L : Nat) (k : Clk) (d : Dev) : Dev :=
  match d.laneState L with
  | 2 => d.laneRestart L 1
  | 3 => d.laneRestart L 1
  | 4 => d.leaveUp k.tick L 1 1
  | 8 => d.leaveUp k.tick L 5 1
  | _ => d

/-- The signal is lost. -/
def execLossOfSignal (lane : Nat) (s : State) : Host.Outcome State Fault Refusal := .next { s with d := xLossOfSignal lane s.clk s.d }

/-- One step of a tap (R468): c(0) takes up what the taps leave of 1.00. None where it is at its limit. -/
def firStep (f : List Int) (tap : Nat) (inc : Bool) : Option (List Int) :=
  let i := if tap = 2 then 3 else tap
  let g := f.set i (f.getD i 0 + (if inc then 1 else -1))
  let others := (g.getD 0 0).natAbs + (g.getD 1 0).natAbs + (g.getD 3 0).natAbs
  let c0 : Int := 40 - (others : Int)
  if c0 < 20 then none else some (g.set 2 c0)

/-- What a received control word does to the FIR, and the STATUS that answers it. -/
def firRequest (f : List Int) (word : Nat) : List Int × Nat :=
  let preset := word % 8
  let tap := bitsOf word 4 3
  let step := bitsOf word 6 5
  if 1 ≤ preset ∧ preset ≤ 5 then (txPreset preset, 3)
  else if preset = 0 ∧ (step = 1 ∨ step = 2) ∧ tap ≤ 2 then
    match firStep f tap (decide (step = 1)) with
    | some g => (g, 1)
    | none => (f, 2)
  else (f, 0)

/-- TRAINING_FRAME: the partner's control word is received and the next frame is sent, with RXREADY if the own receiver is
adapted and the own request `req` (TET-11 bits 6:0). A word without CHECK is ignored. -/
def xTrainingFrame (L word req : Nat) (adapted : Bool) (d : Dev) : Dev :=
  if ¬(d.laneState L = 2 ∨ d.laneState L = 8) ∨ bitsOf word 31 24 ≠ 0xA5 then d
  else
    let l := d.lane L
    let f := firRequest l.fir word
    let rx := if word.testBit 16 then Nat.min 3 (l.rdyRx + 1) else 0
    let tx := if adapted then Nat.min 3 (l.rdyTx + 1) else 0
    let own := 0xA5 * 2 ^ 24 + b2n adapted * 2 ^ 16 + f.2 * 2 ^ 8 + req % 128
    (d.setLane L { l with fir := f.1, rdyRx := rx, rdyTx := tx, codes := l.codes || (decide (rx = 3) && decide (tx = 3)) }).send
      (.frame L own)

/-- A training frame arrives. -/
def execTrainingFrame (lane word req : Nat) (adapted : Bool) (s : State) : Host.Outcome State Fault Refusal :=
  .next { s with d := xTrainingFrame lane word req adapted s.d }

/-- CODEWORD (R453, R454): its header, the symbols corrected, whether it is corrupt. Three good codewords with consecutive
CWSEQ acquire lock, eight failing ones lose it. -/
def xCodeword (L hdr corrected : Nat) (corrupt : Bool) (k : Clk) (d : Dev) : Dev :=
  let st := d.laneState L
  if ¬(st = 2 ∨ st = 3 ∨ st = 4 ∨ st = 8) then d
  else
    let x := tetReg L .TET_FEC_CE
    let d1 := if corrupt then d.bump (tetReg L .TET_FEC_UE) else d.setRegN x (satAdd (d.regN x) corrected 0xFFFFFFFF)
    let l := d1.lane L
    let seq := bitsOf hdr 11 8
    let valid := !corrupt && decide (bitsOf hdr 19 12 = 0x5A)
    let want := (l.cwseq + 1) % 16
    if l.locked then
      let run := if valid && decide (seq = want) then 0 else l.run + 1
      let d2 := d1.setLane L { l with cwseq := want, run := run }
      if run < 8 then d2
      else match st with
        | 3 => d2.laneRestart L 1
        | 4 => d2.leaveUp k.tick L 2 1
        | _ => d2.setLane L { l with locked := false, run := 0 }
    else
      let run := if !valid then 0 else if l.run = 0 ∨ seq ≠ want then 1 else l.run + 1
      let d2 := d1.setLane L { l with cwseq := seq, run := if run = 3 then 0 else run, locked := decide (run = 3) }
      if run = 3 ∧ st = 2 then d2.setLaneState L 3 else d2

/-- A codeword arrives. -/
def execCodeword (lane hdr corrected : Nat) (corrupt : Bool) (s : State) : Host.Outcome State Fault Refusal :=
  .next { s with d := xCodeword lane hdr corrected corrupt s.clk s.d }

/-! ### IDENT (R469) -/

/-- The IDENT payload that the P4096 sends. -/
def Dev.identPayload (d : Dev) (L : Nat) : List Byte :=
  let l := d.lane L
  let half := getBits (d.reg (tetReg L .TET_LCFG)) 4 4
  let flags := b2n l.rxOk + half * 2 + b2n (decide (d.laneState L = 8)) * 4
  let cr := d.regN (R.TET_RXCRED.at (L / 16))
  let chan : List Byte := [0, 0, BitVec.ofNat 8 cr, BitVec.ofNat 8 (cr / 256)] ++ List.replicate 4 0
  leBytes 0x49545950 4 ++ [0, 1, 0, BitVec.ofNat 8 flags] ++ List.replicate 8 0 ++ leBytes L 2 ++ [8, 0] ++ List.replicate 4 0
    ++ (upTo 8).flatMap (fun _ => chan) ++ List.replicate 936 0

/-- IDENT_SEND: in IDENT, and in a retrain once codewords are locked. -/
def xIdentSend (L : Nat) (d : Dev) : Dev :=
  if d.laneState L = 3 ∨ (d.laneState L = 8 ∧ (d.lane L).locked = true) then
    d.txFlit L ⟨0, 6, 3, 255, 0, 0, 1024, d.identPayload L⟩
  else d

/-- The lane sends its IDENT. -/
def execIdentSend (lane : Nat) (s : State) : Host.Outcome State Fault Refusal := .next { s with d := xIdentSend lane s.d }

/-- The first check that a received IDENT fails, 0 for none. -/
def identCheck (p : List Byte) (half : Nat) : Nat :=
  let n := rxN p 18 1
  if rxN p 0 4 ≠ 0x49545950 ∨ rxN p 4 1 ≠ 1 then 1
  else if rxN p 5 1 ≠ 1 then 2
  else if ¬(1 ≤ n ∧ n ≤ 8) ∨ (upTo n).any (fun k => decide (rxN p (24 + 8 * k) 1 = 0 ∨ 8 < rxN p (24 + 8 * k) 1)) then 3
  else if (upTo n).any (fun k => decide (rxN p (26 + 8 * k) 1 = 0 ∨ rxN p (27 + 8 * k) 1 = 0)) then 4
  else if rxN p 7 1 / 2 % 2 ≠ half then 5
  else 0

/-- The training temperature of a lane, and its CAL_RTDUE bit (R472, 17 R495). -/
def Dev.laneTrained (d : Dev) (L : Nat) : Dev :=
  let q := L / 16
  let x := tetReg L .TET_EYE
  (d.setReg x (putBits (d.reg x) 23 16 (d.fld F.PWR_TQ_TQ q))).setBit (R.CAL_RTDUE.at q) (L % 16) false

/-- Entry to UP after an IDENT: the link layer starts afresh with the bridge's grants (R459, R461, R469). -/
def Dev.enterUp (d : Dev) (now L : Nat) (p : List Byte) : Dev :=
  let l := d.lane L
  let n := rxN p 18 1
  let ident := rxN p 8 8
  let s := tetReg L .TET_LSTAT
  let newId := l.everUp && decide (d.regN (tetReg L .TET_BRID) ≠ ident)
  let v := putBits (putBits (putBits (d.reg s) 23 20 n) 19 19 (rxN p 7 1 / 2 % 2)) 7 0 0
  let d1 := (d.setReg s (if newId then putBits v 18 18 1 else v)).setRegN (tetReg L .TET_BRID) ident
  let d2 := d1.setRegN (tetReg L .TET_BRINFO) (rxN p 5 1 * 2 ^ 24 + rxN p 6 1 * 2 ^ 16 + rxN p 19 1 * 2 ^ 8 + n)
  let d3 := (upTo 8).foldl (fun x k =>
    let nce := rxN p (24 + 8 * k) 1
    let c0 := rxN p (26 + 8 * k) 1
    let c1 := rxN p (27 + 8 * k) 1
    x.setRegN (tetReg L .TET_CHINFO k) (if k < n then
      2 ^ 63 + nce % 16 * 2 ^ 56 + rxN p (25 + 8 * k) 1 % 32 * 2 ^ 48 + c0 * 2 ^ 40 + c1 * 2 ^ 32 + c0 * 2 ^ 24 + c1 * 2 ^ 16 else 0)) d2
  let d4 := d3.setLane L
    { Lane.zero with locked := l.locked, run := l.run, cwseq := l.cwseq, codes := true, fir := l.fir, rxOk := true, everUp := true }
  ((d4.setLaneState L 4).laneTrained L).laneEvent now L

/-- IDENT: a received IDENT flit (R469, R471, R472). A corrupt one is discarded and counted. -/
def xIdent (L : Nat) (bytes : List Byte) (clean : Bool) (k : Clk) (d : Dev) : Dev :=
  let st := d.laneState L
  let l := d.lane L
  if ¬(st = 3 ∨ st = 4 ∨ st = 8) then d
  else if !clean || !rxCrcOk bytes || !rxFormOk bytes then d.bump (tetReg L .TET_CRC_ERR)
  else if rxN bytes 0 1 ≠ 6 then d
  else
    let p := (rxFlitOf bytes).payload
    let flags := rxN p 7 1
    let c := identCheck p (getBits (d.reg (tetReg L .TET_LCFG)) 4 4)
    if st = 4 then d.leaveUp k.tick L 4 1
    else if st = 8 then
      if !l.locked || decide (c ≠ 0) then d
      else if flags / 4 % 2 = 0 ∨ rxN p 8 8 ≠ d.regN (tetReg L .TET_BRID) then d.leaveUp k.tick L 5 1
      else
        let d1 := d.setLane L { l with rxOk := true }
        if flags % 2 = 1 then ((((d1.setLaneState L 4).laneTrained L).laneEvent k.tick L).resend L).txMgmt L else d1
    else if c ≠ 0 then (d.setLaneCause L c).laneFail k.tick L 7
    else
      let d1 := d.setLane L { l with rxOk := true }
      if flags % 2 = 1 then d1.enterUp k.tick L p else d1

/-- An IDENT arrives. -/
def execIdent (lane : Nat) (bytes : List Byte) (clean : Bool) (s : State) : Host.Outcome State Fault Refusal :=
  .next { s with d := xIdent lane bytes clean s.clk s.d }

/-! ### Times of a lane (R467, R470, R472) -/

/-- LANE_ABSENT: 500 ms in DETECT. -/
def xLaneAbsent (L : Nat) (k : Clk) (d : Dev) : Dev := if d.laneState L = 1 then d.laneFail k.tick L 5 else d

/-- A lane finds no partner. -/
def execLaneAbsent (lane : Nat) (s : State) : Host.Outcome State Fault Refusal := .next { s with d := xLaneAbsent lane s.clk s.d }

/-- TRAIN_RESTART: 200 ms in TRAIN without lock. -/
def xTrainRestart (L : Nat) (d : Dev) : Dev := if d.laneState L = 2 then d.laneRestart L 2 else d

/-- A training attempt starts over. -/
def execTrainRestart (lane : Nat) (s : State) : Host.Outcome State Fault Refusal := .next { s with d := xTrainRestart lane s.d }

/-- MUTE: 10 ms in IDENT, or 1 s in TRAIN and IDENT. -/
def xMute (L : Nat) (k : Clk) (d : Dev) : Dev := if d.laneState L = 2 ∨ d.laneState L = 3 then d.laneFail k.tick L 6 else d

/-- A lane goes mute. -/
def execMute (lane : Nat) (s : State) : Host.Outcome State Fault Refusal := .next { s with d := xMute lane s.clk s.d }

/-- BACKOFF_END: the wait of R470 ends in DETECT. -/
def xBackoffEnd (L : Nat) (d : Dev) : Dev :=
  if d.laneState L = 5 ∨ d.laneState L = 6 ∨ d.laneState L = 7 then d.setLaneState L 1 else d

/-- A backoff wait ends. -/
def execBackoffEnd (lane : Nat) (s : State) : Host.Outcome State Fault Refusal := .next { s with d := xBackoffEnd lane s.d }

/-- RETRAIN_TIMEOUT: 50 ms. -/
def xRetrainTimeout (L : Nat) (k : Clk) (d : Dev) : Dev := if d.laneState L = 8 then d.leaveUp k.tick L 5 1 else d

/-- A retrain fails. -/
def execRetrainTimeout (lane : Nat) (s : State) : Host.Outcome State Fault Refusal :=
  .next { s with d := xRetrainTimeout lane s.clk s.d }

/-! ### CMD and WDATA flits (R461, R462, R464, R466) -/

/-- Credits held for VC `vc` of bridge channel `k`. -/
def Dev.credits (d : Dev) (L k vc : Nat) : Nat :=
  getBits (d.reg (tetReg L .TET_CHINFO k)) (if vc = 0 then 47 else 39) (if vc = 0 then 40 else 32)

/-- Write the credits held. -/
def Dev.setCredits (d : Dev) (L k vc n : Nat) : Dev :=
  let x := tetReg L .TET_CHINFO k
  d.setReg x (putBits (d.reg x) (if vc = 0 then 47 else 39) (if vc = 0 then 40 else 32) n)

/-- The next TAG of a channel; 0 is the TAG of RB reports. -/
def nextTag (t : Nat) : Nat := if t % 65536 = 65535 then 1 else t % 65536 + 1

/-- The GROUP record. -/
def recGroup (ce n : Nat) (wp hold : Bool) : Nat := 1 + ce * 2 ^ 8 + (b2n wp + b2n hold * 2) * 2 ^ 16 + n * 2 ^ 24

/-- CMD_FLIT: the oldest group of bridge channel `k` is sent, with a VC0 credit; a confirm in it is driven now (R464). While
the system is halted none is sent (21 DBG-6). -/
def xCmdFlit (L kk : Nat) (k : Clk) (d : Dev) : Dev :=
  let l := d.lane L
  match l.outq.find? (fun g => decide (g.chan = kk)) with
  | none => d
  | some g =>
    if d.sysHalt || !d.canSend L || decide (d.credits L kk 0 = 0) then d
    else
      let ch := 64 + 8 * L + kk
      let tag := nextTag (d.mchan ch).tag
      let wpn := d.flag F.MSQ_CHCTRL_WPN (mediaPlace ch).1 (mediaPlace ch).2
      let payload := leBytes (recGroup g.ce g.recs.length wpn g.hold) 16 ++ g.recs.flatMap (fun r => leBytes r.1 16)
      let datas := g.recs.filter (fun r => recIsData r.1)
      let w : List WOut := (datas.zip (upTo datas.length)).filterMap (fun p =>
        if p.1.1 % 256 = 4 then some ⟨kk, tag, p.2, ch * 0x40000 + p.1.2, bitsOf p.1.1 63 32, 0, false⟩ else none)
      let l1 := { l with
        outq := l.outq.eraseP (fun y => decide (y.chan = kk)), wq := l.wq ++ w,
        unans := l.unans ++ [⟨some g.key, kk, tag, datas.map (fun r => ch * 0x40000 + r.2)⟩] }
      let d1 := ((d.setLane L l1).setMchan ch { d.mchan ch with tag := tag }).setCredits L kk 0 (d.credits L kk 0 - 1)
      let d2 := d1.txSeqFlit L ⟨0, 1, 0, kk, tag, 0, payload.length, payload⟩
      match g.conf with
      | none => d2
      | some u =>
        let d3 := d2.confirm k.tick ch u
        match d3.mctx ch (g.key % 8) with
        | some c => d3.setMctx ch (g.key % 8) (some { c with conf := false })
        | none => d3

/-- A CMD flit is sent. -/
def execCmdFlit (lane k : Nat) (s : State) : Host.Outcome State Fault Refusal := .next { s with d := xCmdFlit lane k s.clk s.d }

/-- WDATA: the next flit of the oldest DOUT record of bridge channel `k`, with a VC1 credit. `ue` tells that a word of it is
uncorrectable, which poisons it and the rest of the record; `ce` counts corrected words (R423, R466). -/
def xWdata (L kk : Nat) (ue : Option Nat) (ce : Nat) (d : Dev) : Dev :=
  let l := d.lane L
  match l.wq.find? (fun w => decide (w.chan = kk)) with
  | none => d
  | some w =>
    if !d.canSend L || decide (d.credits L kk 1 = 0) then d
    else
      let n := Nat.min 1024 (w.len - w.sent)
      let bad := w.poison || ue.isSome
      let more := decide (w.sent + n < w.len)
      let w1 := { w with sent := w.sent + n, poison := bad }
      let wq := if more then l.wq.map (fun y => if y = w then w1 else y) else l.wq.filter (fun y => decide (y ≠ w))
      let d1 := ((d.setLane L { l with wq := wq }).setCredits L kk 1 (d.credits L kk 1 - 1)).chbufCe (64 + 8 * L + kk) ce
      d1.txSeqFlit L ⟨0, 2, 1 + b2n more * 4 + b2n bad * 8, kk, w.tag, w.idx * 2 ^ 24 + w.sent, n, d1.chbufBytes (w.addr + w.sent) n⟩

/-- A WDATA flit is sent. -/
def execWdata (lane k : Nat) (ue : Option Nat) (ce : Nat) (s : State) : Host.Outcome State Fault Refusal :=
  .next { s with d := xWdata lane k ue ce s.d }

/-! ### Received flits (R459–R461) -/

/-- Return credits with an LCTL. -/
def Dev.returnCredits (d : Dev) (L key n : Nat) : Dev :=
  (d.setLane L { d.lane L with accr := nset 0 (d.lane L).accr key 0 }).txCtl L 0x80 (key % 2) (key / 2) n

/-- A credit accrues; four are returned at once. -/
def Dev.accrue (d : Dev) (L k vc : Nat) : Dev :=
  let key := k * 2 + vc
  let n := nget 0 (d.lane L).accr key + 1
  if 4 ≤ n then d.returnCredits L key n else d.setLane L { d.lane L with accr := nset 0 (d.lane L).accr key n }

/-- Take a received flit of type `want`: discarded for CRC, framing or form with one NAK where R459 asks for one, a
duplicate without, else accepted; its ACK releases what it names. -/
def Dev.rxFlit (d : Dev) (L want : Nat) (bytes : List Byte) (clean : Bool) (f : Dev → Flit → Dev) : Dev :=
  if ¬(d.laneState L = 4 ∨ d.laneState L = 8) then d
  else if !clean || !rxCrcOk bytes then (d.bump (tetReg L .TET_CRC_ERR)).nak L
  else
    let t := rxN bytes 0 1
    if !rxFormOk bytes then
      let d1 := d.bump (tetReg L .TET_CRC_ERR)
      if isSequenced t then d1.nak L else d1
    else if t ≠ want then d
    else
      let g := rxFlitOf bytes
      let ack := rxN bytes 10 2
      let d1 := if ack.testBit 15 then d.ackUpTo L (ack % 4096) else d
      if !isSequenced t then f d1 g
      else
        let l := d1.lane L
        if g.seq = l.rxNext then
          f (d1.setLane L { l with rxNext := (l.rxNext + 1) % 4096, rxAny := true, nakSent := false, ackDue := true }) g
        else if 2048 ≤ (g.seq + 4096 - l.rxNext) % 4096 then d1
        else d1.nak L

/-- One response record reaches its context (TET-7): SR, feature data, or a zero count. -/
def Dev.respRec (d : Dev) (key r : Nat) : Dev :=
  match d.mctx (key / 8) (key % 8) with
  | none => d
  | some c =>
    let w := bitsOf r 63 32
    let c1 := match r % 256 with
      | 0x82 => { c with sr := opByte r 1, polled := true }
      | 0x83 => { c with feat := w }
      | 0x84 => if c.stage ≤ 3 then { c with zc0 := Nat.min w 65535 } else { c with zc1 := Nat.min w 65535 }
      | _ => c
    d.setMctx (key / 8) (key % 8) (some c1)

/-- The records of a RESP payload. -/
def respRecs (p : List Byte) : Nat → List Nat
  | 0 => []
  | n + 1 => leNat (p.take 16) :: respRecs (p.drop 16) n

/-- A list whose DONE arrived with STOP pending ends at its boundary (TET-14). -/
def Dev.stopAt (d : Dev) (now key : Nat) : Dev :=
  match d.mctx (key / 8) (key % 8) with
  | none => d
  | some c =>
    if c.stop = true ∧ (c.st = .need ∨ c.st = .hold) ∧ c.stage = 0 ∧ d.tetBusy (key / 8) (key % 8) = false then
      d.endCtx now (key / 8) (key % 8) 8 c.pc
    else d

/-- A RESP is processed (R463): an RB report, or the results and the DONE of the CMD flit of its TAG. -/
def Dev.takeResp (d : Dev) (now L : Nat) (f : Flit) : Dev :=
  let rs := respRecs f.payload (f.len / 16)
  let k := f.chan % 8
  let l := d.lane L
  let d1 :=
    if f.tag = 0 then
      match rs.find? (fun r => decide (r % 256 = 0x85)) with
      | some r => d.setLane L { l with rb := nset 0 l.rb k (opByte r 1) }
      | none => d
    else match l.unans.find? (fun u => decide (u.chan = k ∧ u.tag = f.tag)) with
      | none => d
      | some u =>
        let y := d.setLane L { l with unans := l.unans.eraseP (fun z => decide (z.chan = k ∧ z.tag = f.tag)) }
        let done := (rs.find? (fun r => decide (r % 256 = 0x81))).map (fun r => opByte r 1)
        let y1 := if done = some 1 then y.bump (tetReg L .TET_CHERR k) else y
        match u.key with
        | none => y1
        | some key =>
          let y2 := rs.foldl (fun z r => z.respRec key r) y1
          let pc := match y2.mctx (key / 8) (key % 8) with
            | some c => c.pc
            | none => 0
          if done = some 1 then y2.endCtx now (key / 8) (key % 8) 7 pc
          else if done = some 2 then y2.endCtx now (key / 8) (key % 8) 6 pc
          else y2.stopAt now key
  d1.accrue L k 0

/-- An RDATA flit is processed: its bytes go into the channel buffer (R466). -/
def Dev.takeRdata (d : Dev) (L : Nat) (f : Flit) : Dev :=
  let k := f.chan % 8
  let d1 := match (d.lane L).unans.find? (fun u => decide (u.chan = k ∧ u.tag = f.tag)) with
    | none => d
    | some u =>
      match u.datas[f.param / 2 ^ 24]? with
      | none => d
      | some a => d.setChbuf (a + f.param % 2 ^ 24) (f.payload.take f.len)
  d1.accrue L k 1

/-- A RESP or RDATA flit: held for the sequencer while the system is halted (21 DBG-6). -/
def Dev.takeFlit (d : Dev) (now L : Nat) (f : Flit) : Dev :=
  if d.sysHalt then d.setLane L { d.lane L with kept := (d.lane L).kept ++ [f] }
  else if f.type = 3 then d.takeResp now L f else d.takeRdata L f

/-- The flits held during a system halt are processed at its end. -/
def Dev.releaseKept (d : Dev) (now : Nat) : Dev :=
  (upTo 64).foldl (fun x L =>
    (x.lane L).kept.foldl (fun y f => y.takeFlit now L f) (x.setLane L { x.lane L with kept := [] })) d

/-- RESP. -/
def xResp (L : Nat) (bytes : List Byte) (clean : Bool) (k : Clk) (d : Dev) : Dev :=
  d.rxFlit L 3 bytes clean (fun x f => x.takeFlit k.tick L f)

/-- A RESP arrives. -/
def execResp (lane : Nat) (bytes : List Byte) (clean : Bool) (s : State) : Host.Outcome State Fault Refusal :=
  .next { s with d := xResp lane bytes clean s.clk s.d }

/-- RDATA. -/
def xRdata (L : Nat) (bytes : List Byte) (clean : Bool) (k : Clk) (d : Dev) : Dev :=
  d.rxFlit L 4 bytes clean (fun x f => x.takeFlit k.tick L f)

/-- An RDATA flit arrives. -/
def execRdata (lane : Nat) (bytes : List Byte) (clean : Bool) (s : State) : Host.Outcome State Fault Refusal :=
  .next { s with d := xRdata lane bytes clean s.clk s.d }

/-- LCTL: credits come back. -/
def xLctl (L : Nat) (bytes : List Byte) (clean : Bool) (d : Dev) : Dev :=
  d.rxFlit L 0x80 bytes clean (fun x f =>
    if f.chan < 8 ∧ f.fl % 4 < 2 then
      x.setCredits L f.chan (f.fl % 4) (satAdd (x.credits L f.chan (f.fl % 4)) (f.param % 256) 255)
    else x)

/-- An LCTL arrives. -/
def execLctl (lane : Nat) (bytes : List Byte) (clean : Bool) (s : State) : Host.Outcome State Fault Refusal :=
  .next { s with d := xLctl lane bytes clean s.d }

/-- A replay of every unacknowledged flit; too many in a row from one flit take the lane out of UP (R460). -/
def Dev.startReplay (d : Dev) (now L : Nat) : Dev :=
  let l := d.lane L
  match l.replay with
  | [] => d
  | f :: _ =>
    let n := if l.from_ = f.seq ∧ 0 < l.replays then l.replays + 1 else 1
    let d1 := (d.setLane L { l with from_ := f.seq, replays := n }).resend L
    if getBits (d.reg (tetReg L .TET_LINKTO)) 19 16 ≤ n then d1.leaveUp now L 3 1 else d1

/-- NAK: in a retrain nothing is sent; the lane resumes at UP with a replay (R472). -/
def xNak (L : Nat) (bytes : List Byte) (clean : Bool) (k : Clk) (d : Dev) : Dev :=
  d.rxFlit L 0x81 bytes clean (fun x _ =>
    let r := tetReg L .TET_NAK_CNT
    let y := x.setReg r (putBits (x.reg r) 31 16 (satAdd (getBits (x.reg r) 31 16) 1 65535))
    if x.laneState L = 4 then y.startReplay k.tick L else y)

/-- A NAK arrives. -/
def execNak (lane : Nat) (bytes : List Byte) (clean : Bool) (s : State) : Host.Outcome State Fault Refusal :=
  .next { s with d := xNak lane bytes clean s.clk s.d }

/-- RTRN: UP goes to RETRAIN; during a retrain it changes nothing (TET-14). -/
def xRtrn (L : Nat) (bytes : List Byte) (clean : Bool) (d : Dev) : Dev :=
  d.rxFlit L 0x82 bytes clean (fun x _ => if x.laneState L = 4 then x.enterRetrain L else x)

/-- An RTRN arrives. -/
def execRtrn (lane : Nat) (bytes : List Byte) (clean : Bool) (s : State) : Host.Outcome State Fault Refusal :=
  .next { s with d := xRtrn lane bytes clean s.d }

/-- REPLAY_TIMEOUT: the oldest unacknowledged flit has waited REPLAY_TO. -/
def xReplayTimeout (L : Nat) (k : Clk) (d : Dev) : Dev := if d.laneState L = 4 then d.startReplay k.tick L else d

/-- A replay falls due. -/
def execReplayTimeout (lane : Nat) (s : State) : Host.Outcome State Fault Refusal :=
  .next { s with d := xReplayTimeout lane s.clk s.d }

/-- CREDIT_RETURN_DUE: the credits that have accrued, or an ACK alone, leave in LCTLs (R459, R461). -/
def xCreditReturnDue (L : Nat) (d : Dev) : Dev :=
  if d.laneState L ≠ 4 then d
  else
    let l := d.lane L
    if l.accr = [] then (if l.ackDue then d.txCtl L 0x80 0 0 0 else d)
    else l.accr.foldl (fun x e => x.returnCredits L e.1 e.2) d

/-- An LCTL falls due. -/
def execCreditReturnDue (lane : Nat) (s : State) : Host.Outcome State Fault Refusal := .next { s with d := xCreditReturnDue lane s.d }

/-! ### Bridge management (R473) -/

/-- Read `n` bytes in pieces that stay within 512-byte blocks; none where a piece is answered with an error. -/
def Dev.readBlock (d : Dev) (mid a n : Nat) : Nat → Dev × Option (List Byte)
  | 0 => (d, some [])
  | fuel + 1 =>
    if n = 0 then (d, some [])
    else
      let p := Nat.min n (512 - a % 512)
      let r := d.hbm (rdReq mid 0 a p) false .none
      if r.2.code ≠ .okay then (r.1, none)
      else
        let t := r.1.readBlock mid (a + p) (n - p) fuel
        (t.1, t.2.map (fun l => r.2.data ++ l))

/-- Write bytes in pieces that stay within 512-byte blocks; whether every piece was answered OKAY. -/
def Dev.writeBlock (d : Dev) (mid a : Nat) (b : List Byte) : Nat → Dev × Bool
  | 0 => (d, true)
  | fuel + 1 =>
    if b = [] then (d, true)
    else
      let p := Nat.min b.length (512 - a % 512)
      let w := d.hbm (wrReq mid 0 a p (leNat (b.take p))) false .none
      let t := w.1.writeBlock mid (a + p) (b.drop p) fuel
      (t.1, decide (w.2.code = .okay) && t.2)

/-- TET_MCMD is written: GO sends one request. -/
def xTetMcmd (m : Mst) (L v : Nat) (d : Dev) : Dev :=
  let x := tetReg L .TET_MCMD
  let len := v % 2048
  if !m.owner then d.denyOid m x
  else if v.testBit 31 = false then d.okay
  else if d.mgmtBusy L then d.refuse m x
  else if len = 0 ∨ 1024 < len then (d.mgmtEnd L 4 0).okay
  else if d.laneState L ≠ 4 then (d.mgmtEnd L 3 0).okay
  else
    let r := d.readBlock (mMid (64 + 8 * L)) (d.regN (tetReg L .TET_MADDR)) len 4
    match r.2 with
    | none => (r.1.mgmtEnd L 5 0).okay
    | some b =>
      let d1 := r.1.setRegN (tetReg L .TET_MSTAT) (2 ^ 31)
      ((d1.setLane L { d1.lane L with mreq := some ⟨0, 5, 2, 255, 0, 0, len, b⟩ }).txMgmt L).okay

/-- TET_MCMD is written. -/
def execTetMcmd (m : Mst) (lane v : Nat) (s : State) : Host.Outcome State Fault Refusal := .next { s with d := xTetMcmd m lane v s.d }

/-- MGMT: the bridge's reply goes to TET_MRADDR. -/
def xMgmt (L : Nat) (bytes : List Byte) (clean : Bool) (d : Dev) : Dev :=
  d.rxFlit L 5 bytes clean (fun x f =>
    if !x.mgmtBusy L then x
    else
      let w := x.writeBlock (mMid (64 + 8 * L)) (x.regN (tetReg L .TET_MRADDR)) (f.payload.take 1024) 4
      w.1.mgmtEnd L (if w.2 then 1 else 5) f.len)

/-- A management reply arrives. -/
def execMgmt (lane : Nat) (bytes : List Byte) (clean : Bool) (s : State) : Host.Outcome State Fault Refusal :=
  .next { s with d := xMgmt lane bytes clean s.d }

/-- MGMT_TIMEOUT. -/
def xMgmtTimeout (L : Nat) (d : Dev) : Dev :=
  if d.mgmtBusy L then (d.setLane L { d.lane L with mreq := none }).mgmtEnd L 2 0 else d

/-- No reply came. -/
def execMgmtTimeout (lane : Nat) (s : State) : Host.Outcome State Fault Refusal := .next { s with d := xMgmtTimeout lane s.d }

/-- The lanes of a quarter are reset (20 R545): every list with flits on one ends without a record with its channel. -/
def Dev.lanesReset (d : Dev) (q : Nat) : Dev := { d with lanes := ndrop d.lanes (fun L => decide (L / 16 = q)) }

end Sys2Proof.Machine
end

