-- ==== Sys2Proof/Machine/Power.lean ====
section
/-! DEFINITION. Resets, power domains, heat, safe stop, the governor's inputs, the core-voltage regulator, and row repair
(chapters 19 and 20): the rows PORST_N_ASSERT, SYSRST_N_ASSERT and PLL_LOCK_LOSS to PPR_COMPLETE. -/

namespace Sys2Proof.Machine

/-! ### Clusters and slots under a reset (06 R187, 19 R523) -/

/-- One slot that holds a position in a reset cluster: a stop with abort and one increment, then a molt over its whole
footprint; it stays defined in STOPPED. -/
def Dev.resetSlot (d : Dev) (now s : Nat) : Dev :=
  let st := d.slotState s
  if (d.ctl s).busy = .starting then (d.cancelStart now s).startMolt s .molting
  else if st = stLive ∨ st = stStopping then (d.abortStop now s .molt).setBusy s .molting
  else if st = stPaused then
    let d1 := d.genInc now s
    (d1.setCtl s { d1.ctl s with resume := false }).startMolt s .molting
  else if st = stMolting then d.genInc now s
  else (d.genInc now s).startMolt s .molting

/-- CLUSTER_RESET (R187): a regrowth is aborted, SHIFT_COL and SPARE_USED as before the order (R186), loads are interrupted, every slot of the cluster is reset, and the
cluster's own state is zeroed. -/
def Dev.clusterReset (d : Dev) (now c : Nat) : Dev :=
  let r := d.regrow c
  let d1 := if r.active then
      ((((d.setRegrow c Regrow.none).setClu c 31 30 0).setClu c 23 20 4).setClu c 11 7 r.old).tileIds c (r.old / 2)
    else d
  let d2 := d1.interruptClu c
  let d3 := (d2.slotsIn c).foldl (fun x s => x.resetSlot now s) d2
  d3.zeroCluster c cluKeeps

/-- RST_CLU: the clusters of MASK are reset. -/
def xRstClu (m : Mst) (q v : Nat) (k : Clk) (d : Dev) : Dev :=
  if !m.owner then d.denyOid m (R.RST_CLU.at q)
  else ((onesOf v 16).foldl (fun x l => x.clusterReset k.tick (clusterOf q l)) d).okay

/-- Clusters are reset. -/
def execRstClu (m : Mst) (q v : Nat) (s : State) : Host.Outcome State Fault Refusal :=
  .next { s with d := xRstClu m q v s.clk s.d }

/-! ### Power domains (19 R525–R528) -/

/-- Whether a domain may leave ON, or BASK, for BASK (1) or OFF (2): PWR-4. -/
def Dev.domAllows (d : Dev) (q i goal : Nat) : Bool :=
  let cluster (p : Nat → Bool) : Bool := (upTo 16).all (fun l => p (d.domCur q l))
  let cores (p : Core → Bool) : Bool := (upTo 16).all (fun j => p (d.core (q * 16 + j)))
  let engines : Bool := (upTo 256).all (fun e => d.fld F.SEN_STAT_STATE q e == 0)
  if i < 16 then !(upTo 4).any (fun p => d.posLive (clusterOf q i) p)
  else if i = 16 then
    if goal = 1 then cluster (fun c => decide (c ≠ 0)) && cores (fun c => decide (c.st = .idle) || decide (c.st = .reset)) && engines
    else cluster (fun c => decide (c = 2)) && decide (d.domCur q 17 = 2) && decide (d.domCur q 18 = 2)
      && cores (fun c => decide (c.st = .reset)) && engines && !(upTo 8).any (fun l => d.linkEn (8 * q + l))
  else decide (goal = 1) || !(d.regs.any (fun e => decide (e.1.r = .WIN_ENT) && decide (e.1.q = q) && e.2.getLsbD 31))

/-- RESULT of PWR_DOM. -/
def Dev.domResult (d : Dev) (q i v : Nat) : Dev := d.setFld F.PWR_DOM_RESULT v q i

/-- Start a transition: to ON always, else under PWR-4; a refused request changes nothing. Under safe stop and CONF_ERR the
domains keep the states that PWR-5 and BOOT-8 give them. -/
def Dev.domStart (d : Dev) (q i goal : Nat) : Dev :=
  if d.safe ∨ d.confFailed then d.domResult q i 2
  else if d.domCur q i = goal then (d.setFld F.PWR_DOM_REQ goal q i).domResult q i 1
  else if goal = 0 then ((d.setFld F.PWR_DOM_REQ goal q i).setDomTr q i (some ⟨0, none⟩)).domResult q i 1
  else if d.domAllows q i goal then
    let d1 := if i < 16 then d.interruptClu (clusterOf q i) else d
    ((d1.setFld F.PWR_DOM_REQ goal q i).setDomTr q i (some ⟨goal, none⟩)).domResult q i 1
  else d.domResult q i 2

/-- A write of REQ in PWR_DOM: a request made while a transition runs waits for its end with RESULT BUSY. -/
def Dev.domRequest (d : Dev) (m : Mst) (q i goal : Nat) : Dev :=
  if !m.owner then d.denyOid m (R.PWR_DOM.at q i)
  else if 18 < i then d.okay
  else match d.domTr q i with
  | some t => (((d.setDomTr q i (some { t with next := some goal })).setFld F.PWR_DOM_REQ goal q i).domResult q i 3).okay
  | none => (d.domStart q i goal).okay

/-- DOMAIN_ON. -/
def xDomainOn (m : Mst) (q i : Nat) (d : Dev) : Dev := d.domRequest m q i 0
/-- DOMAIN_BASK. -/
def xDomainBask (m : Mst) (q i : Nat) (d : Dev) : Dev := d.domRequest m q i 1
/-- DOMAIN_OFF. -/
def xDomainOff (m : Mst) (q i : Nat) (d : Dev) : Dev := d.domRequest m q i 2

/-- A domain is requested ON. -/
def execDomainOn (m : Mst) (q dom : Nat) (s : State) : Host.Outcome State Fault Refusal := .next { s with d := xDomainOn m q dom s.d }
/-- A domain is requested to bask. -/
def execDomainBask (m : Mst) (q dom : Nat) (s : State) : Host.Outcome State Fault Refusal := .next { s with d := xDomainBask m q dom s.d }
/-- A domain is requested OFF. -/
def execDomainOff (m : Mst) (q dom : Nat) (s : State) : Host.Outcome State Fault Refusal := .next { s with d := xDomainOff m q dom s.d }

/-- PWR_DOM is written: a reserved REQ is dropped with ACCESS_ERR. -/
def xPwrDom (m : Mst) (q i v : Nat) (d : Dev) : Dev :=
  match v % 4 with
  | 0 => xDomainOn m q i d
  | 1 => xDomainBask m q i d
  | 2 => xDomainOff m q i d
  | _ => if !m.owner then d.denyOid m (R.PWR_DOM.at q i) else d.refuse m (R.PWR_DOM.at q i)

/-! ### Quarter reset (19 R524, 20 R545, 10 R297, 09 R620) -/

/-- A flash command that a reset or a loss of power cuts off: the words it was to change hold free values. -/
def Dev.cutFlash (d : Dev) (q : Nat) : Dev :=
  match nget none d.fls q with
  | none => d
  | some o =>
    let d1 := { d with fls := nset none d.fls q none }
    if o.cmd = 1 then d1.freeMem (flashBase q + o.word * 32) 4
    else if o.cmd = 2 then d1.freeMem (flashBase q + o.word / 1024 * 0x8000) 4096
    else d1

/-- Dispatch of a quarter empties, without completions (R297); a core whose write the slice held goes on. -/
def Dev.dispatchReset (d : Dev) (q : Nat) : Dev :=
  let mids := (d.slice q).held.filterMap (fun h => match h with
    | .place _ _ ack => ack
    | _ => Option.none)
  let d0 := (mids.filter (fun n => decide (n < 64))).foldl (fun x n => x.setCore n { x.core n with await := false }) d
  let d1 := { d0 with tasks := ndrop d0.tasks (fun t => decide (t / 2 ^ 18 = q)), slices := ndrop d0.slices (fun x => decide (x = q)) }
  { d1 with handAt := ndrop d1.handAt (fun s => decide (quarterOf (s / 4) = q)) }

/-- The stream engines of a quarter (R620): their jobs vanish and count as ended. -/
def Dev.enginesReset (d : Dev) (q : Nat) : Dev :=
  let mine (vp : Nat) : Bool := decide (quarterOf (vp / 16) = q)
  let d1 := { d with sen := ndrop d.sen mine, arr := { d.arr with fifos := ndrop d.arr.fifos mine } }
  let end1 (c : Cmd) : Cmd := { c with jobs := c.jobs.map (fun x => if mine x.vp ∧ x.code = none then { x with code := some 0 } else x) }
  let hit := d1.cmds.filterMap (fun e => match e.2 with
    | some c => if c.jobs.any (fun x => mine x.vp && decide (x.code = none)) then some (e.1, c) else none
    | none => none)
  hit.foldl (fun x e => (x.setCmd e.1 (some (end1 e.2))).cmdTry e.1) d1

/-- The blocks that a quarter reset returns to their reset values (R545); ARY, LEAP, CLK, RST, DBG and the fuses are not
among them (06 R188, 07 R217, 19 R540, 21 R579). -/
def quarterBlk (b : Blk) : Bool :=
  match b with
  | .SYS | .PWR | .EVT | .DSP | .MBX | .NOC | .HBM | .SCC | .WIN | .HIF | .QE | .MSQ | .NPH | .TET | .CAL | .CORE | .BNK | .FLS
  | .SER | .SEN => true
  | _ => false

/-- Registers that a quarter reset keeps in those blocks: window entries and their molts, the state of the stacks. -/
def quarterKeeps (r : R) : Bool := decide (r = .WIN_ENT) || decide (r = .WIN_MOLT) || decide (r = .HBM_STAT)

/-- The registers of a quarter after its reset; the LOCK bits of every block but DBG return to 0 (24 R611). The PF latch
and what a dump under way shows stay (15 R440). -/
def Dev.quarterRegs (d : Dev) (q : Nat) : Dev :=
  let pf := d.reg (R.MSQ_PFSTAT.at q)
  let d1 := d.resetRegs (fun x => decide (x.q = q) && ((quarterBlk x.r.desc.blk && !quarterKeeps x.r)
    || (decide (x.r = .BLK_LOCK) && decide (x.i ≠ 0x28) && decide (x.i ≠ 0xF0))))
  d1.setReg (R.MSQ_PFSTAT.at q) (pf &&& (if d.dump.isSome then 0xF4000FFF else 0xC0000000))

/-- MSQ_OPUSE as the open operations give it. -/
def Dev.countTokens (d : Dev) : Dev :=
  let used : Nat := d.mch.foldl (fun s e => e.2.opens.foldl (fun t o =>
    let w := d.lunop e.1 o.1
    if w.getLsbD 63 ∧ w.getLsbD 61 = false then t + getBits w 58 57 + 1 else t) s) 0
  d.setRegN (R.MSQ_OPUSE.at d.liveQ) used

/-- Loads that a loader of a reset quarter was making end INTERRUPTED. -/
def Dev.loadersReset (d : Dev) (q : Nat) : Dev :=
  d.loading.foldl (fun x e => match e.2 with
    | some l => if l.cmd / 4096 = q then x.loadFail e.1 l 0x0E 0xFF 0xFF else x
    | none => x) d

/-- The masters that sit in quarter `q`. -/
def Dev.mastersOf (d : Dev) (q mid : Nat) : Bool := decide (d.midQuarter mid = q) && (decide (mid < 0x4C0) || decide (0x500 ≤ mid))

/-- Requests that wait for a domain of a quarter in reset are answered SLVERR at their target (09 R261). -/
def Dev.failWaiters (d : Dev) (q : Nat) : Dev :=
  (d.waiters.filter (fun w => decide (w.q = q))).foldl (fun x w =>
    x.unlessStale w.req.m.mid w.epoch ((x.fail q w.req .slverr).1.answer .slverr 0))
    { d with waiters := d.waiters.filter (fun w => decide (w.q ≠ q)) }

/-- What every block of quarter `q` loses with a reset of the quarter or with its power. The model's choice (assumption
128): the reset acts cluster by cluster, so a slot with positions in several clusters of the quarter increments its
generation once for each. -/
def Dev.quarterLoses (d : Dev) (now q : Nat) : Dev :=
  let d1 := (d.dispatchReset q).cutFlash q
  let d2 := (coresOf q).foldl (fun x n => x.coreReset now n) d1
  let d3 := (upTo 16).foldl (fun x l => x.clusterReset now (clusterOf q l)) d2
  let d4 := (((d3.enginesReset q).qeReset q).loadersReset q).linksReset now q
  let d5 := (d4.mediaReset q).lanesReset q
  let mine (x : Nat) : Bool := decide (x / 1536 = q)
  let d6 := { d5 with calTab := ndrop d5.calTab (fun x => decide (x / calEntries = q)),
                      mail := ndrop d5.mail (fun x => decide (x / 1024 = q)),
                      croaks := ndrop d5.croaks (fun x => decide (x / 1024 = q)) }
  let d7 := { d6 with occ := ndrop d6.occ mine, routes := ndrop d6.routes mine,
                      doms := ndrop d6.doms (fun x => decide (x / 32 = q)), ppr := nset none d6.ppr q none }
  let d7a := d7.failWaiters q
  let d8 := { d7a with scc := ndrop d7.scc (fun x => decide (x / 262144 = q)),
                       fences := ndrop d7.fences (fun m => d7.mastersOf q m),
                       uart := if q = 0 then [] else d7.uart, spi := if q = 0 then [] else d7.spi,
                       spiKeep := if q = 0 then [] else d7.spiKeep,
                       i3c := if q = 0 then none else d7.i3c }
  let d9 := (d8.quarterRegs q).countTokens
  let da := (upTo 16).foldl (fun x l => x.setDom q l 2) d9
  (coresOf q).foldl (fun x n => x.bnkPoison n) da

/-- RST_QCTL (R524): KEY 0x5A17 and GO. -/
def xRstQctl (m : Mst) (q v : Nat) (k : Clk) (d : Dev) : Dev :=
  let x := R.RST_QCTL.at q
  if !m.owner then d.denyOid m x
  else if bitsOf v 31 16 ≠ 0x5A17 then d.refuse m x
  else if v % 2 = 0 ∨ d.inReset q = true then d.okay
  else
    let d1 := ((d.truncate (fun mid => d.mastersOf q mid)).quarterLoses k.tick q).setRegN (R.RST_STAT.at q) 0xFFFF
    let d2 := (d1.setFld F.RST_CAUSE_CAUSE 2 q).setFld F.RST_CAUSE_QCOUNT (satAdd (d1.fld F.RST_CAUSE_QCOUNT q) 1 255) q
    ({ d2 with qrst := nset 0 d2.qrst q 1 }.setFld F.CLK_STAT_ALIGNED 0 q).okay

/-- A quarter reset begins. -/
def execRstQctl (m : Mst) (q v : Nat) (s : State) : Host.Outcome State Fault Refusal :=
  .next { s with d := xRstQctl m q v s.clk s.d }

/-- QUARTER_RESET_RELEASE: the quarter leaves reset; it realigns before it is used. -/
def xQuarterResetRelease (q : Nat) (d : Dev) : Dev :=
  if nget 0 d.qrst q = 1 then { d with qrst := nset 0 d.qrst q 2 }.setRegN (R.RST_STAT.at q) 0 else d

/-- A quarter leaves reset. -/
def execQuarterResetRelease (q : Nat) (s : State) : Host.Outcome State Fault Refusal :=
  .next { s with d := xQuarterResetRelease q s.d }

/-- QUARTER_REALIGNMENT (R522): the quarter loads DTIME from a working neighbour at an edge E. -/
def xQuarterRealignment (q : Nat) (k : Clk) (d : Dev) : Dev :=
  if nget 0 d.qrst q = 2 then
    ({ d with qrst := nset 0 d.qrst q 0 }.setFld F.CLK_STAT_ALIGNED 1 q).setRegN (R.CLK_ALIGN.at q) k.tick
  else d

/-- A quarter realigns. -/
def execQuarterRealignment (q : Nat) (s : State) : Host.Outcome State Fault Refusal :=
  .next { s with d := xQuarterRealignment q s.clk s.d }

/-! ### The end of a domain's transition (19 R525–R527) -/

/-- The contents of stack `s` of quarter `q` are lost (PWR-3). -/
def Dev.hbmLost (d : Dev) (q s : Nat) : Dev :=
  let mine (a : Nat) : Bool := isHbm a && decide (homeOf a = q ∧ stackOf a = s)
  { d with mem := d.mem.filter (fun e => !mine e.1), ecc := d.ecc.filter (fun e => !mine e.1) }

/-- A domain reaches the state its transition goes to: what OFF loses, and what the return from OFF does (PWR-3). -/
def Dev.domArrive (d : Dev) (k : Clk) (q i goal : Nat) : Dev :=
  let was := d.domCur q i
  let d1 := if goal = 2 ∧ i = 16 then
      ((d.quarterLoses k.tick q).mbxClearFor (fun r => decide (d.recvQuarter r = some q)) 3).setFld F.CLK_STAT_LOCK 0 q
    else if goal = 2 ∧ 16 < i then (d.hbmLost q (i - 17)).setFld F.HBM_STAT_TRAIN 0 q (i - 17)
    else d
  let d2 := if was = 2 ∧ i < 16 then d1.clusterReset k.tick (clusterOf q i)
    else if was = 2 ∧ i = 16 then
      let d3 := (coresOf q).foldl (fun x n => x.bnkZero n) d1
      ((((d3.setFld F.CLK_STAT_LOCK 1 q).setFld F.CLK_STAT_ALIGNED 1 q).setRegN (R.CLK_ALIGN.at q) k.tick).setFld F.RST_CAUSE_CAUSE 3 q)
    else if was = 2 then d1.setFld F.HBM_STAT_TRAIN 2 q (i - 17)
    else d1
  d2.setDom q i goal

/-- DOMAIN_TRANSITION_DONE: the transition ends, and a request made meanwhile takes effect. -/
def Dev.domDone (d : Dev) (k : Clk) (q i : Nat) : Dev :=
  match d.domTr q i with
  | none => d
  | some t =>
    let d1 := ((d.setDomTr q i none).domArrive k q i t.goal).domResult q i 1
    match t.next with
    | some g => d1.domStart q i g
    | none => d1

/-! ### Safe stop (19 R531, R532, PWR-5) -/

/-- Safe stop: the array stops and its frames are lost, loads are interrupted (08 IMG-13), the PF latch sets, clusters go OFF, HBM to self-refresh, every core
is held in reset, the links lose their partners, CONF_DONE falls. A second cause changes nothing. -/
def Dev.safeStop (d : Dev) (now cause sensor : Nat) : Dev :=
  if d.safe then d
  else
    let d1 := d.setRegN (R.SAFE_STAT.at 0) (2 ^ 31 + cause % 8 * 2 ^ 28 + sensor % 64)
    let d1a := (d1.loading.map (fun e => e.1)).foldl (fun x s => x.interrupt s) d1
    let d2 := { d1a with arr := { d1a.arr with frames := [], flight := [] }, doms := [], boot := { d1a.boot with on := false } }
    let d3 := d2.pfLatch now
    let d4 := (upTo 64).foldl (fun x n => x.coreReset now n) d3
    let d5 := (upTo 4).foldl (fun x q => (upTo 16).foldl (fun y l => y.setDom q l 2) ((x.setDom q 17 1).setDom q 18 1)) d4
    ((d5.linksFail now).setFld F.AO_STATUS_CONF 0 0).linksReady

/-- RAIL_FAULT (R532): raised, and safe stop with its cause. -/
def Dev.railFault (d : Dev) (now cause : Nat) : Dev := (d.raiseAll 0x002).safeStop now cause 0

/-- The clock of a part in safe stop: no further cycle executes. -/
def stopClk (d : Dev) (k : Clk) : Clk := if d.safe then { k with runs := false } else k

/-- The outcome of an event that may bring safe stop. -/
def State.withSafe (s : State) (d : Dev) : State := { s with d := d, clk := stopClk d s.clk }

/-- PLL_LOCK_LOSS (R518): a ROOT PLL that was locked loses lock. -/
def xPllLockLoss (q : Nat) (k : Clk) (d : Dev) : Dev :=
  if d.flag F.CLK_STAT_LOCK q then (d.setFld F.CLK_STAT_LOCK 0 q).railFault k.tick 2 else d

/-- A PLL loses lock. -/
def execPllLockLoss (q : Nat) (s : State) : Host.Outcome State Fault Refusal := .next (s.withSafe (xPllLockLoss q s.clk s.d))

/-- RAIL_OUT_OF_RANGE (R532). -/
def xRailOutOfRange (k : Clk) (d : Dev) : Dev := d.railFault k.tick 4

/-- A rail is out of range. -/
def execRailOutOfRange (s : State) : Host.Outcome State Fault Refusal := .next (s.withSafe (xRailOutOfRange s.clk s.d))

/-- DTIME_COMPARE (R521): the two ends of a bridge compare DTIME once both are aligned. -/
def xDtimeCompare (br : Nat) (eq : Bool) (k : Clk) (d : Dev) : Dev :=
  if eq ∨ k.started = false ∨ 4 ≤ br then d else d.railFault k.tick 3

/-- Two ends of a bridge compare DTIME. -/
def execDtimeCompare (bridge : Nat) (equal : Bool) (s : State) : Host.Outcome State Fault Refusal :=
  .next (s.withSafe (xDtimeCompare bridge equal s.clk s.d))

/-- THERM_TRIP (R531): the comparator of global sensor `g` trips; THERM_TRIP_N stays asserted until PORST_N. -/
def xThermTrip (g : Nat) (k : Clk) (d : Dev) : Dev :=
  if d.therm then d else ({ d with therm := true }.raiseAll 0x000).safeStop k.tick 1 g

/-- A thermal comparator trips. -/
def execThermTrip (g : Nat) (s : State) : Host.Outcome State Fault Refusal := .next (s.withSafe (xThermTrip g s.clk s.d))

/-! ### Alignment (19 R521) -/

/-- ALIGNMENT_EDGE: at a tick edge whose TICK is a multiple of 2^16, with the four PLLs locked and a boot running, DTIME
becomes 64·E in every quarter, and the array executes from there on: position 0 of a window is never skipped (02 R59). -/
def alignable (s : State) : Bool :=
  s.d.boot.on && decide (s.clk.tick % 65536 = 0) && !s.clk.started && (upTo 4).all (fun q => s.d.flag F.CLK_STAT_LOCK q)

/-- The registers after an alignment. -/
def xAlignmentEdge (k : Clk) (d : Dev) : Dev :=
  (upTo 4).foldl (fun x q => (x.setFld F.CLK_STAT_ALIGNED 1 q).setRegN (R.CLK_ALIGN.at q) k.tick) d

/-- DTIME is aligned. -/
def execAlignmentEdge (s : State) : Host.Outcome State Fault Refusal :=
  if alignable s then
    .next { s with d := xAlignmentEdge s.clk s.d,
                   clk := { s.clk with dtime := 64 * s.clk.tick, cyc := 0, runs := !s.d.safe && !s.d.sysHalt, started := true } }
  else .next s

/-! ### Temperature (19 R529, R530) -/

/-- The reading of a sensor in units of 0.25 °C, once it has converted. -/
def Dev.reading (d : Dev) (q i : Nat) : Option Int :=
  let w := d.reg (R.PWR_TSENS.at q i)
  if w.getLsbD 31 then some (signedOf w.toNat 12) else none

/-- The hottest of a list of sensors by global number: the first of the highest readings. -/
def Dev.hottest (d : Dev) (l : List Nat) : Option (Int × Nat) :=
  l.foldl (fun b g => match d.reading (g / 16) (g % 16), b with
    | some t, some (u, h) => if u < t then some (t, g) else some (u, h)
    | some t, none => some (t, g)
    | none, b => b) none

/-- A reading in whole °C, rounded to nearest. -/
def wholeDeg (t : Int) : Nat := wrapTo (roundDiv t 4) 8

/-- SENSOR_CONVERSION: sensor `i` of quarter `q` reads `raw`; Tq and the hottest sensor follow. -/
def xSensorConversion (q i raw : Nat) (d : Dev) : Dev :=
  if 4 ≤ q ∨ 16 ≤ i then d
  else
    let d1 := d.setRegN (R.PWR_TSENS.at q i) (2 ^ 31 + raw % 4096)
    let d2 := match d1.hottest ((upTo 16).map (fun j => q * 16 + j)) with
      | some (t, g) => d1.setRegN (R.PWR_TQ.at q) (g % 16 * 256 + wholeDeg t)
      | none => d1
    match d2.hottest (upTo 64) with
    | some (t, g) => d2.setRegN (R.GOV_HOT.at 0) (g * 256 + wholeDeg t)
    | none => d2

/-- A sensor converts. -/
def execSensorConversion (q i raw : Nat) (s : State) : Host.Outcome State Fault Refusal :=
  .next { s with d := xSensorConversion q i raw s.d }

/-- The counts of GOV_STAT. -/
def Dev.govShow (d : Dev) : Dev :=
  let g := d.gov
  let d1 := (d.setFld F.GOV_STAT_N_TH g.nt 0).setFld F.GOV_STAT_N_PEAK g.np 0
  let x := R.GOV_STAT.at 0
  let d2 := (d1.setBit x 28 g.actL).setBit x 29 g.actS
  d2.setFld F.GOV_STAT_N_PWR (Nat.max g.nl g.ns) 0

/-- THROTTLE_STEP: once a millisecond n_th rises, falls or holds. -/
def xThrottleStep (d : Dev) : Dev :=
  match d.hottest (upTo 64) with
  | none => d
  | some (t, _) =>
    let tthr : Int := getBits (d.reg (R.GOV_CFG.at 0)) 7 0
    let hyst : Int := getBits (d.reg (R.GOV_CFG.at 0)) 11 8
    let hot := decide (4 * tthr ≤ t)
    let n := d.gov.nt
    let n' := if hot then (if n < 63 then n + 1 else n) else if t < 4 * (tthr - hyst) then n - 1 else n
    ({ d with gov := { d.gov with nt := n' } }.setBit (R.GOV_STAT.at 0) 31 hot).govShow

/-- The thermal throttle steps. -/
def execThrottleStep (s : State) : Host.Outcome State Fault Refusal := .next { s with d := xThrottleStep s.d }

/-! ### Power readings (19 R533–R535) -/

/-- ESTIMATE_CORRECTION: the quarter's estimate after its correction against READ_IOUT. -/
def xEstimateCorrection (q watts : Nat) (d : Dev) : Dev := d.setRegN (R.PWR_QPOWER.at q) (watts % 65536)

/-- An estimate is corrected. -/
def execEstimateCorrection (q watts : Nat) (s : State) : Host.Outcome State Fault Refusal :=
  .next { s with d := xEstimateCorrection q watts s.d }

/-- PEAK_EXCURSION: a sample above PL_PEAK raises n_peak by 8, at most to 63; it acts at the next tick boundary. -/
def xPeakExcursion (amps : Nat) (d : Dev) : Dev :=
  if amps ≤ getBits (d.reg (R.GOV_PL_PEAK.at 0)) 15 0 then d
  else ({ d with gov := { d.gov with np := satAdd d.gov.np 8 63 } }.setBit (R.GOV_STAT.at 0) 30 true).govShow

/-- The array current exceeds PL_PEAK. -/
def execPeakExcursion (amps : Nat) (s : State) : Host.Outcome State Fault Refusal :=
  .next { s with d := xPeakExcursion amps s.d }

/-! ### AVS (19 R538), RC calibration (R519) -/

/-- VSET = VFUSE + TRIM, within 620 and 780 mV. -/
def Dev.vset (d : Dev) : Nat :=
  let v : Int := (getBits (d.reg (R.AVS_CFG.at 0)) 31 16 : Int) + signedOf (d.regN (R.AVS_TRIM.at 0)) 8
  (max 620 (min 780 v)).toNat

/-- AVS_STEP: one VOUT_COMMAND moves the output by at most 5 mV toward VSET; the regulator starts at VFUSE. -/
def xAvsStep (d : Dev) : Dev :=
  let goal := d.vset
  let d1 := d.setFld F.AVS_STAT_VSET goal 0
  let cur := d.avsOut.getD (getBits (d.reg (R.AVS_CFG.at 0)) 31 16)
  let nv := if cur + 5 ≤ goal then cur + 5 else if goal + 5 ≤ cur then cur - 5 else goal
  if d.avsOut = some goal then d1 else { d1 with avsOut := some nv }.send (.vout nv)

/-- The regulator is moved. -/
def execAvsStep (s : State) : Host.Outcome State Fault Refusal := .next { s with d := xAvsStep s.d }

/-- AVS_TELEMETRY: READ_VOUT gives `mv`, or the transaction fails; the third failure in a row counts. -/
def xAvsTelemetry (ok : Bool) (mv : Nat) (k : Clk) (d : Dev) : Dev :=
  if ok then
    let d1 := { d with avsFails := 0 }.setFld F.AVS_STAT_VREAD mv 0
    let goal := d1.vset
    if goal < 10 * (mv - goal) ∨ goal < 10 * (goal - mv) then d1.railFault k.tick 4 else d1
  else if d.avsFails = 2 then { d with avsFails := 0 }.bump (R.AVS_ERR_CNT.at 0)
  else { d with avsFails := d.avsFails + 1 }

/-- The regulator is read. -/
def execAvsTelemetry (ok : Bool) (mv : Nat) (s : State) : Host.Outcome State Fault Refusal :=
  .next (s.withSafe (xAvsTelemetry ok mv s.clk s.d))

/-- RC_CALIBRATION: against ROOT of Q0 once it is locked. -/
def xRcCalibration (d : Dev) : Dev := if d.flag F.CLK_STAT_LOCK 0 then { d with rcCal := true } else d

/-- The RC oscillator is calibrated. -/
def execRcCalibration (s : State) : Host.Outcome State Fault Refusal := .next { s with d := xRcCalibration s.d }

/-! ### Row repair (20 R548) -/

/-- FLT_PPR_CMD. -/
def xFltPprCmd (m : Mst) (q v : Nat) (d : Dev) : Dev :=
  let x := R.FLT_PPR_STAT.at q
  let a := bitsOf v 47 6 * 64
  if !m.owner then d.denyOid m (R.FLT_PPR_CMD.at q)
  else if v.testBit 63 = false then d.okay
  else if d.flag F.FLT_PPR_STAT_BUSY q then (d.setFld F.FLT_PPR_STAT_RESULT 3 q).okay
  else if !isHbm a ∨ homeOf a ≠ q then (d.setFld F.FLT_PPR_STAT_RESULT 4 q).okay
  else ({ d with ppr := nset none d.ppr q (some v) }.setRegN x (2 ^ 31)).okay

/-- A row repair is ordered. -/
def execFltPprCmd (m : Mst) (q v : Nat) (s : State) : Host.Outcome State Fault Refusal :=
  .next { s with d := xFltPprCmd m q v s.d }

/-- PPR_COMPLETE with RESULT OK, NOSPARE or FAILED: the row stands as it was; a poisoned unit stays poisoned. -/
def xPprComplete (q res : Nat) (d : Dev) : Dev :=
  if (nget none d.ppr q).isSome ∧ (res = 1 ∨ res = 2 ∨ res = 5) then
    { d with ppr := nset none d.ppr q none }.setRegN (R.FLT_PPR_STAT.at q) res
  else d

/-- A row repair completes. -/
def execPprComplete (q res : Nat) (s : State) : Host.Outcome State Fault Refusal :=
  .next { s with d := xPprComplete q res s.d }

/-! ### PORST_N and SYSRST_N (19 R523) -/

/-- Memory that a reset keeps: the boot flash always, HBM and home banks under SYSRST_N. -/
def keptMem (sys : Bool) (a : Nat) : Bool := isFlash a || (sys && (isHbm a || isBank a))

/-- PORST_N: everything but the contents of the boot flash and the levels of the input pins. -/
def xPorstNAssert (d : Dev) : Dev :=
  let d1 := (d.cutFlash 0).cutFlash 3
  let d2 := { Dev.reset with mem := d1.mem.filter (fun e => keptMem false e.1), perst := d1.perst, pfLow := d1.pfLow,
                             free := d1.free, out := d1.out }
  if d2.pfLow then d2.setFld F.MSQ_PFSTAT_PIN 1 0 else d2

/-- PORST_N asserts. -/
def execPorstNAssert (s : State) : Host.Outcome State Fault Refusal :=
  .next { s with d := xPorstNAssert s.d, clk := Clk.reset }

/-- Registers that SYSRST_N keeps: the always-on block and DBG, the last alignment edge. LOCK bits return to 0 everywhere
(24 R611). -/
def sysKeeps (r : R) : Bool := decide (r.desc.blk = .AO) || decide (r.desc.blk = .DBG) || decide (r.desc.blk = .DW) || decide (r = .CLK_ALIGN)

/-- SYSRST_N: everything except the always-on domain and debug; HBM and home banks keep their contents; a halt ends (21
R578). -/
def xSysrstNAssert (d : Dev) : Dev :=
  let q := d.liveQ
  let pf := d.reg (R.MSQ_PFSTAT.at q)
  let d1 := (d.cutFlash 0).cutFlash 3
  let d2 := { Dev.reset with
    regs := d1.regs.filter (fun e => sysKeeps e.1.r), mem := d1.mem.filter (fun e => keptMem true e.1),
    ecc := d1.ecc.filter (fun e => keptMem true e.1), perst := d1.perst, pfLow := d1.pfLow, free := d1.free, out := d1.out }
  let d3 := { d2 with porst := d1.porst, sysrst := true, therm := d1.therm, hb := d1.hb, aoFree := d1.aoFree, ballHold := d1.ballHold, avsOut := d1.avsOut,
                      avsFails := d1.avsFails, rcCal := d1.rcCal, dump := d1.dump, armSeq := d1.armSeq }
  let d4 := { d3 with capture := d1.capture, auth := d1.auth, dwBus := d1.dwBus, dwFault := d1.dwFault }
  let d5 := d4.setReg (R.MSQ_PFSTAT.at q) (pf &&& (if d1.dump.isSome then 0xF4000FFF else 0xC0000000))
  let d6 := (upTo 4).foldl (fun x i => (x.setRegN (R.RST_CAUSE.at i) 1).setRegN (R.DBG_STAT.at i) 0) d5
  let d7 := (upTo 64).foldl (fun x n => x.bnkPoison n) d6
  (((d7.setFld F.AO_STATUS_CONF 0 0).setFld F.AO_STATUS_CODE 0 0).govShow).setFld F.GOV_STAT_N 0 0

/-- SYSRST_N asserts; in safe stop it is ignored (R532). -/
def execSysrstNAssert (s : State) : Host.Outcome State Fault Refusal :=
  if s.d.safe then .next s
  else .next { s with d := xSysrstNAssert s.d,
                      clk := { s.clk with dtime := 0, cyc := 0, runs := false, started := false, n := 0 } }

end Sys2Proof.Machine
end

