-- ==== Sys2Proof/Machine/Flash.lean ====
section
/-! DEFINITION. The boot flash's commands and the pair of always-on domains (chapter 18: rows PROGRAM to TAKEOVER). -/

namespace Sys2Proof.Machine

/-! ### FLS commands (R500) -/

/-- Whether a word or sector of flash `q` lies in the armed OPDUMP half. -/
def Dev.inArmedHalf (d : Dev) (q word cmd : Nat) : Bool :=
  let off := if cmd = 2 then word / 1024 * 0x8000 else word * 32
  let h := 0x700000 + d.fld F.MSQ_PFSTAT_HALF q * 0x10000
  decide (q = d.liveQ) && d.flag F.MSQ_PFSTAT_ARMED q && decide (h ≤ off) && decide (off < h + 0x10000)

/-- The 256 bits of FLS_DATA. -/
def Dev.flsData (d : Dev) (q : Nat) : Nat := (upTo 8).foldl (fun s w => s + d.regN (R.FLS_DATA.at q w) % 2 ^ 32 * 2 ^ (32 * w)) 0

/-- A command to the FLS block of quarter `q`. -/
def Dev.flsCmd (d : Dev) (m : Mst) (q cmd : Nat) : Dev :=
  let x := R.FLS_CMD.at q
  let word := d.fld F.FLS_ADDR_WORD q
  if !m.owner then d.denyOid m x
  else if (q ≠ 0 ∧ q ≠ 3) ∨ d.flag F.FLS_STAT_BUSY q = true then d.refuse m x
  else if d.flag F.FLS_CTRL_WEN q = false then (d.setFld F.FLS_STAT_RESULT 4 q).okay
  else if cmd ≠ 3 ∧ d.inArmedHalf q word cmd = true then (d.setFld F.FLS_STAT_RESULT 3 q).okay
  else ({ d with fls := nset none d.fls q (some ⟨cmd, word, d.flsData q⟩) }.setFld F.FLS_STAT_BUSY 1 q).okay

/-- PROGRAM. -/
def xProgram (m : Mst) (q : Nat) (d : Dev) : Dev := d.flsCmd m q 1
/-- ERASE. -/
def xErase (m : Mst) (q : Nat) (d : Dev) : Dev := d.flsCmd m q 2
/-- BLANKCHK. -/
def xBlankchk (m : Mst) (q : Nat) (d : Dev) : Dev := d.flsCmd m q 3

/-- A word is to be programmed. -/
def execProgram (m : Mst) (q : Nat) (s : State) : Host.Outcome State Fault Refusal := .next { s with d := xProgram m q s.d }
/-- A sector is to be erased. -/
def execErase (m : Mst) (q : Nat) (s : State) : Host.Outcome State Fault Refusal := .next { s with d := xErase m q s.d }
/-- A sector is checked. -/
def execBlankchk (m : Mst) (q : Nat) (s : State) : Host.Outcome State Fault Refusal := .next { s with d := xBlankchk m q s.d }

/-- FLS_CMD is written: a reserved command has no action and is logged. -/
def xFlsCmd (m : Mst) (q v : Nat) (d : Dev) : Dev :=
  match v % 16 with
  | 1 => xProgram m q d
  | 2 => xErase m q d
  | 3 => xBlankchk m q d
  | _ => if !m.owner then d.denyOid m (R.FLS_CMD.at q) else (d.logWrite m (R.FLS_CMD.at q) .reserved).okay

/-- FLS_COMMAND_DONE. -/
def xFlsCommandDone (q : Nat) (d : Dev) : Dev :=
  match nget none d.fls q with
  | none => d
  | some o =>
    let d1 := { d with fls := nset none d.fls q none }.setFld F.FLS_STAT_BUSY 0 q
    let a := flashBase q + o.word * 32
    let sector := flashBase q + o.word / 1024 * 0x8000
    if o.cmd = 1 then
      if d1.erased a 32 then (d1.setMemN a 32 o.data).setFld F.FLS_STAT_RESULT 1 q else d1.setFld F.FLS_STAT_RESULT 2 q
    else if o.cmd = 2 then (d1.zeroMem sector 0x8000).setFld F.FLS_STAT_RESULT 1 q
    else (d1.setFld F.FLS_STAT_BLANK (b2n (d1.erased sector 0x8000)) q).setFld F.FLS_STAT_RESULT 1 q

/-- A flash command ends. -/
def execFlsCommandDone (q : Nat) (s : State) : Host.Outcome State Fault Refusal := .next { s with d := xFlsCommandDone q s.d }

/-! ### The standby always-on domain (R513, BOOT-11) -/

/-- Whether a takeover has occurred since PORST_N. -/
def Dev.failedOver (d : Dev) : Bool := d.flag F.AO_STATUS_FAILED_OVER 0

/-- The levels the live domain drives on CONF_DONE (bit 0), CONF_ERR (bit 1) and THERM_TRIP_N (bit 2) (01 R24, 22 ELEC-8). -/
def Dev.ballLevels (d : Dev) : Nat :=
  b2n (d.fld F.AO_STATUS_CONF 0 == 1) + 2 * b2n d.confFailed + 4 * b2n (!d.therm)

/-- The live domain releases its outputs for good: until the takeover bus-hold keeps their last levels (R513). -/
def Dev.aoRelease (d : Dev) : Dev := if d.aoFree then d else { d with aoFree := true, ballHold := d.ballLevels }

/-- AO_FAILOVER: ordered failover. -/
def xAoFailover (m : Mst) (v : Nat) (d : Dev) : Dev :=
  let x := R.AO_FAILOVER.at 0
  if !m.owner then d.denyOid m x
  else if bitsOf v 31 16 ≠ 0xA0F5 then d.refuse m x
  else if v % 2 = 0 then d.okay
  else if d.flag F.AO_STATUS_STBY_OK 0 = false ∨ d.failedOver = true ∨ d.aoFree = true then d.refuse m x
  else d.aoRelease.okay

/-- A failover is ordered. -/
def execAoFailover (m : Mst) (v : Nat) (s : State) : Host.Outcome State Fault Refusal := .next { s with d := xAoFailover m v s.d }

/-- AO_FAILOVER (EVT-2) in every quarter that works. -/
def Dev.raiseFailover (d : Dev) : Dev :=
  (upTo 4).foldl (fun x q => if x.inReset q ∨ x.domCur q 16 = 2 then x else x.raise q 0x003) d

/-- HEARTBEAT: one message each way, of which those named arrive; `healthy` is what the standby's tells. Counter 0 holds the
messages the standby has received, counter 1 those of the live domain. -/
def xHeartbeat (toLive toStandby healthy : Bool) (d : Dev) : Dev :=
  if d.failedOver then d
  else
    let sb := nget 0 d.hb 0
    let lv := nget 0 d.hb 1
    let d1 := if toStandby then { d with hb := nset 0 d.hb 0 ((sb + 1) % 65536) } else d
    let d2 := if toLive then { d1 with hb := nset 0 d1.hb 1 ((lv + 1) % 65536) }.setRegN (R.AO_HBSTAT.at 0) ((lv + 1) % 65536 * 65536 + sb)
      else d1
    let was := d2.flag F.AO_STATUS_STBY_OK 0
    let d3 := d2.setFld F.AO_STATUS_STBY_OK (b2n healthy) 0
    if was ∧ healthy = false then d3.raiseFailover else d3

/-- The always-on domains exchange a heartbeat. -/
def execHeartbeat (toLive toStandby healthy : Bool) (s : State) : Host.Outcome State Fault Refusal :=
  .next { s with d := xHeartbeat toLive toStandby healthy s.d }

/-- HEARTBEAT_TIMEOUT: the live domain releases its outputs; the timeout is suspended in a system halt (21 DBG-6). -/
def xHeartbeatTimeout (d : Dev) : Dev := if d.sysHalt ∨ d.failedOver = true then d else d.aoRelease

/-- Heartbeats are missing. -/
def execHeartbeatTimeout (s : State) : Host.Outcome State Fault Refusal := .next { s with d := xHeartbeatTimeout s.d }

/-- TAKEOVER: after a release, a healthy standby becomes live in Q3; the PF and dump registers act there from now on, with
nothing armed, and MSQ_OPUSE is counted again. -/
def xTakeover (d : Dev) : Dev :=
  if d.aoFree = false ∨ d.failedOver = true ∨ d.flag F.AO_STATUS_STBY_OK 0 = false then d
  else
    let pf := d.regN (R.MSQ_PFSTAT.at 0)
    let dumping := d.dump.isSome
    let d1 := ((d.setFld F.AO_STATUS_FAILED_OVER 1 0).setFld F.AO_STATUS_LIVE 3 0).setFld F.AO_STATUS_STBY_OK 0 0
    let d2 := { d1 with dump := none }.setRegN (R.MSQ_PFSTAT.at 3)
      (bitsOf pf 31 30 * 2 ^ 30 + (if dumping then 0 else bitsOf pf 29 28 * 2 ^ 28 + pf % 4096))
    let d3 := ((d2.setReg (R.MSQ_OPCAP.at 3) (d2.reg (R.MSQ_OPCAP.at 0))).setReg (R.MSQ_OPDARM.at 3) (d2.reg (R.MSQ_OPDARM.at 0))).countTokens
    d3.raiseFailover

/-- The standby takes over. -/
def execTakeover (s : State) : Host.Outcome State Fault Refusal := .next { s with d := xTakeover s.d }

end Sys2Proof.Machine
end

