-- ==== Sys2Proof/Machine/Gcm.lean ====
section
/-! DEFINITION. AES-256-GCM with an IV of 96 bits (18 R502; FIPS 197, NIST SP 800-38D), and the fused keys it and the
signatures are checked with (18 R501, R502). -/

namespace Sys2Proof.Machine

/-! ### AES-256 -/

/-- A word of the key schedule (byte 0 lowest) after RotWord. -/
def rotWord (w : Nat) : Nat := w / 256 + w % 256 * 2 ^ 24

/-- SubWord. -/
def subWord (w : Nat) : Nat := (upTo 4).foldl (fun s i => s + subByte (w / 256 ^ i % 256) * 256 ^ i) 0

/-- The next word of the schedule of a 256-bit key; the words so far, newest first. -/
def keyWord (ws : List Nat) : Nat :=
  let i := ws.length
  let t := ws.getD 0 0
  let u := if i % 8 = 0 then subWord (rotWord t) ^^^ aesPow 2 (i / 8 - 1) else if i % 8 = 4 then subWord t else t
  ws.getD 7 0 ^^^ u

/-- The 60 words of the schedule. -/
def keyWords (key : List Byte) : List Nat :=
  ((upTo 52).foldl (fun ws _ => keyWord ws :: ws) ((upTo 8).map (fun i => leNat ((key.drop (4 * i)).take 4))).reverse).reverse

/-- The 15 round keys, byte 0 lowest. -/
def roundKeys (key : List Byte) : List Nat :=
  let w := keyWords key
  (upTo 15).map (fun r => (upTo 4).foldl (fun s i => s + w.getD (4 * r + i) 0 * 2 ^ (32 * i)) 0)

/-- One block under the round keys, byte 0 lowest. -/
def aesBlock (rks : List Nat) (b : Nat) : Nat :=
  let s := (upTo 13).foldl (fun s i => aesRound 0 s (rks.getD (i + 1) 0)) (b ^^^ rks.getD 0 0)
  aesRound 1 s (rks.getD 14 0)

/-- The block cipher on 16 bytes. -/
def aesBytes (rks : List Nat) (b : List Byte) : List Byte :=
  let r := aesBlock rks (leNat b)
  (upTo 16).map (fun i => BitVec.ofNat 8 (r / 256 ^ i))

/-! ### GCM -/

/-- The product of two blocks (most significant bit first) in GF(2^128): `n` bits of `x` are left, `z` is the sum so far. -/
def ghashMul : Nat → Nat → Nat → Nat → Nat
  | 0, _, _, z => z
  | n + 1, x, v, z =>
    ghashMul n x (if v % 2 = 1 then v / 2 ^^^ 0xE1 * 2 ^ 120 else v / 2) (if x.testBit n then z ^^^ v else z)

/-- The blocks of 16 bytes of a string filled with zeros. -/
def gcmBlocks (l : List Byte) : List Nat :=
  (upTo ((l.length + 15) / 16)).map (fun i => beNat (((l.drop (16 * i)).take 16 ++ List.replicate 16 0).take 16))

/-- GHASH of the additional data and the ciphertext. -/
def ghash (h : Nat) (aad c : List Byte) : Nat :=
  (gcmBlocks aad ++ gcmBlocks c ++ [aad.length * 8 * 2 ^ 64 + c.length * 8]).foldl (fun y x => ghashMul 128 (y ^^^ x) h 0) 0

/-- The tag of a ciphertext. -/
def gcmTag (rks : List Nat) (iv aad c : List Byte) : List Byte :=
  let h := beNat (aesBytes rks (List.replicate 16 0))
  beBytes (beNat (aesBytes rks (iv ++ beBytes 1 4)) ^^^ ghash h aad c) 16

/-- A text under the counter blocks from 2 on. -/
def gcmCrypt (rks : List Nat) (iv c : List Byte) : List Byte :=
  (upTo ((c.length + 15) / 16)).flatMap (fun i =>
    (((c.drop (16 * i)).take 16).zip (aesBytes rks (iv ++ beBytes (i + 2) 4))).map (fun p => p.1 ^^^ p.2))

/-- A ciphertext decrypted, or none where its tag does not hold. -/
def gcmOpen (key iv aad tag c : List Byte) : Option (List Byte) :=
  let rks := roundKeys key
  if gcmTag rks iv aad c = tag then some (gcmCrypt rks iv c) else none

/-! ### The fused keys -/

/-- DEV_KEY, byte 0 lowest. -/
def devKey : List Byte := (upTo 32).map (fun i => BitVec.ofNat 8 (Config.fuseDevKey.toNat / 256 ^ i))

/-- OWNER_KHASH, bytes 4w to 4w + 3 in word w (24 R616). -/
def ownerKhash : List Byte := (upTo 48).map (fun i => BitVec.ofNat 8 ((Config.fuseKhash (i / 4)).toNat / 256 ^ (i % 4)))

end Sys2Proof.Machine
end

