-- ==== Sys2Proof/Machine/Csr.lean ====
section
/-! DEFINITION. The control and status registers of a core (chapter 11, CORE-1 and CORE-9) as an instruction or a debug
access reaches them, and the row XEVDEPTH. -/

namespace Sys2Proof.Machine

/-- CSRs that are held as they are written: mie, mtvec, mcounteren, menvcfg, mcountinhibit, mscratch, the events of the four
counters, the PMP, and the custom CSRs that hold a value. -/
def csrHeld (n : Nat) : Bool :=
  [0x304, 0x305, 0x306, 0x30A, 0x320, 0x323, 0x324, 0x325, 0x326, 0x340, 0x3A0, 0x3A2, 0x7C0, 0x7C1, 0x7C5, 0x7C7].contains n
    || decide (0x3B0 ≤ n ∧ n < 0x3C0)

/-- The bits of a held CSR that a write reaches. -/
def csrMask (n : Nat) : Nat :=
  if n = 0x304 then 0x800 else if n = 0x305 then 2 ^ 64 - 3 else if n = 0x306 ∨ n = 0x320 then 0xFFFFFFFF
  else if n = 0x30A then 1
  else if n = 0x7C0 then 7 else if n = 0x7C7 then 0xFF else if 0x3B0 ≤ n ∧ n < 0x3C0 then 2 ^ 54 - 1 else 2 ^ 64 - 1

/-- The counters: mcycle, minstret, mhpmcounter3–6, and their unprivileged views. They count clock cycles and instructions
that are no commands, so what they read is a free value (assumption 137). -/
def csrCounter (n : Nat) : Bool :=
  [0xB00, 0xB02, 0xB03, 0xB04, 0xB05, 0xB06, 0xC00, 0xC02, 0xC03, 0xC04, 0xC05, 0xC06].contains n

/-- The CSRs that read a constant (CORE-1), by number. -/
def csrConst (n core : Nat) : Option Nat :=
  if n = 0x301 then some 0x800000000010112D
  else if n = 0xF11 ∨ n = 0xF12 ∨ n = 0xF15 then some 0
  else if n = 0xF13 then some 0xB00
  else if n = 0xF14 ∨ n = 0xFC0 then some core
  else if n = 0xFC1 then some (core / 16)
  else if (0xB07 ≤ n ∧ n < 0xB20) ∨ (0xC07 ≤ n ∧ n < 0xC20) ∨ (0x327 ≤ n ∧ n < 0x340) then some 0
  else none

/-- mstatus: MIE, MPIE, MPP and FS of the current bank and level, TW as held, UXL 2. -/
def Core.mstatus (c : Core) : Nat :=
  let t := c.trap c.level
  let fs := c.fsOf c.cur
  b2n c.mie * 2 ^ 3 + b2n t.mpie * 2 ^ 7 + (if t.mppM then 3 else 0) * 2 ^ 11 + fs * 2 ^ 13 + getBits (c.csrGet 0x300) 21 21 * 2 ^ 21
    + 2 * 2 ^ 32 + (if fs = 3 then 2 ^ 63 else 0)

/-- XBSTAT, XTCB and XFPOWN (CORE-9). -/
def Core.xbstat (c : Core) : Nat :=
  b2n c.managed * 2 ^ 31 + b2n c.owner.isSome * 2 ^ 30 + c.boundMask % 64 * 2 ^ 24 + c.retf % 8 * 2 ^ 20 + c.retlf % 8 * 2 ^ 16
    + 6 * 2 ^ 12 + c.ret1 % 8 * 2 ^ 8 + c.level % 4 * 2 ^ 4 + c.cur % 8

/-- XTCB (CORE-9): the thread bound to the current bank, or in an event or fault bank to the thread bank that was
interrupted; none where the entry interrupted an idle core. -/
def Core.xtcb (c : Core) : Nat :=
  let ev := if c.ret1 = 7 then none else c.boundAt c.ret1
  let b := match c.level with
    | 0 => c.boundAt c.cur
    | 3 => if c.retf = 7 then none else if c.retlf = 0 then c.boundAt c.retf else ev
    | _ => ev
  match b with
  | some x => 2 ^ 63 + x.task
  | none => 0

/-- The configuration byte that a write of `v` leaves in PMP entry `i` (CORE-1): unchanged while locked; NA4 and write
without read are not selectable and keep the old field; bits 6 and 5 read 0. -/
def Core.pmpCfgByte (c : Core) (i v : Nat) : Nat :=
  let old := (c.pmp i).1
  if bitAt old 7 then old
  else
    let rw := if v % 4 = 2 then old % 4 else v % 4
    let a := if bitsOf v 4 3 = 2 then bitsOf old 4 3 else bitsOf v 4 3
    rw + bitsOf v 2 2 * 4 + a * 8 + bitsOf v 7 7 * 128

/-- A write of pmpcfg0 or pmpcfg2: the bytes of entries 0–7 or 8–15. -/
def Core.pmpCfgWrite (c : Core) (num v : Nat) : Core :=
  let first := (num - 0x3A0) / 2 * 8
  c.csrSet num (BitVec.ofNat 64 ((upTo 8).foldl (fun s j => s + c.pmpCfgByte (first + j) (v / 256 ^ j % 256) * 256 ^ j) 0))

/-- Whether pmpaddr of entry `i` is locked: by its own entry, or as the base of a locked TOR entry. -/
def Core.pmpAddrLocked (c : Core) (i : Nat) : Bool :=
  bitAt (c.pmp i).1 7 || (decide (i < 15) && bitAt (c.pmp (i + 1)).1 7 && decide (bitsOf (c.pmp (i + 1)).1 4 3 = 1))

/-- pmpaddr of entry `i` as it reads at a granularity of 4 KiB: bits [8:0] ones for NAPOT, bits [9:0] zeros else. -/
def Core.pmpAddrRead (c : Core) (i : Nat) : Nat :=
  let v := (c.pmp i).2
  if 2 ≤ bitsOf (c.pmp i).1 4 3 then v / 512 * 512 + 511 else v / 1024 * 1024

/-- CSR `num` of core `n` as it reads; none where it does not exist. -/
def Dev.csrRead (d : Dev) (k : Clk) (n num : Nat) : Option (Word × Dev) :=
  let c := d.core n
  let w (v : Nat) : Option (Word × Dev) := some (BitVec.ofNat 64 v, d)
  let t := c.trap c.level
  if csrCounter num then some d.fresh
  else if 0x3B0 ≤ num ∧ num < 0x3C0 then w (c.pmpAddrRead (num - 0x3B0))
  else if csrHeld num then some (c.csrGet num, d)
  else match csrConst num n with
  | some v => w v
  | none =>
    match num with
    | 0x001 => w ((nget 0 c.fp 32).toNat % 32)
    | 0x002 => w ((nget 0 c.fp 32).toNat / 32 % 8)
    | 0x003 => w ((nget 0 c.fp 32).toNat % 256)
    | 0x300 => w c.mstatus
    | 0x341 => w t.epc
    | 0x342 => w t.cause
    | 0x343 => w t.tval
    | 0x344 => w (b2n (d.eventLine n) * 2 ^ 11)
    | 0xC01 => w k.tick
    | 0x7C2 => w c.fltSp
    | 0x7C3 => w c.xbstat
    | 0x7C4 => w c.xtcb
    | 0x7C6 => w (match c.owner with
      | some o => 2 ^ 63 + b2n c.dirty * 2 ^ 62 + o
      | none => 0)
    | _ => none

/-- Write CSR `num` of a core; a read-only one, and a locked PMP entry, keeps its value. -/
def Core.csrWrite (c : Core) (num : Nat) (v : Word) : Core :=
  let t := c.trap c.level
  let fcsr := (nget 0 c.fp 32).toNat
  let setF (x : Nat) : Core := { c with fp := nset 0 c.fp 32 (BitVec.ofNat 64 (x % 256)) }
  if num = 0x7C5 then c.depthWrite v.toNat
  else if num = 0x3A0 ∨ num = 0x3A2 then c.pmpCfgWrite num v.toNat
  else if 0x3B0 ≤ num ∧ num < 0x3C0 ∧ c.pmpAddrLocked (num - 0x3B0) = true then c
  else if csrHeld num then c.csrSet num (v &&& BitVec.ofNat 64 (csrMask num))
  else match num with
  | 0x001 => setF (fcsr / 32 * 32 + v.toNat % 32)
  | 0x002 => setF (fcsr % 32 + v.toNat % 8 * 32)
  | 0x003 => setF v.toNat
  | 0x300 =>
    let m := getBits v 12 11
    let c1 := (c.setTrap c.level { t with mpie := v.getLsbD 7, mppM := if m = 3 then true else if m = 0 then false else t.mppM }).csrSet 0x300
      (v &&& BitVec.ofNat 64 (2 ^ 21))
    c1.setState c1.cur c1.pc c1.modeM (v.getLsbD 3)
  | 0x341 => c.setTrap c.level { t with epc := v.toNat / 2 * 2 }
  | 0x342 => c.setTrap c.level { t with cause := v.toNat }
  | 0x343 => c.setTrap c.level { t with tval := v.toNat }
  | 0x7C2 => c.csrSet 0x7C2 (v &&& 0xFF0)
  | _ => c


/-! ### CSR instructions (R302, R308, R326) -/

/-- Whether the privilege rules let a CSR instruction reach CSR `num`: the mode and read-only fields of the number, and
mcounteren for the counters that U-mode reads. -/
def Core.csrMay (c : Core) (num : Nat) (write : Bool) : Bool :=
  (c.modeM || decide (bitsOf num 9 8 = 0)) && !(write && decide (bitsOf num 11 10 = 3))
    && (c.modeM || decide (num / 32 ≠ 0xC00 / 32) || (c.csrGet 0x306).getLsbD (num % 32))

/-- Whether a CSR belongs to the FP file: fflags, frm, fcsr. -/
def csrFp (num : Nat) : Bool := decide (1 ≤ num ∧ num ≤ 3)

/-- The access itself: rd receives the old value, `w` is written if the instruction writes. -/
def Dev.csrDo (d : Dev) (k : Clk) (n num rd : Nat) (w : Option Nat) : Dev :=
  match d.csrRead k n num with
  | none => d.illegal n
  | some r =>
    let c := r.2.core n
    let c1 := match w with
      | some v => c.csrWrite num (BitVec.ofNat 64 v)
      | none => c
    r.2.setCore n ((c1.next 4).setX c1.cur rd r.1)

/-- A CSR instruction of core `n`: illegal where the privilege rules or FS forbid it; one that reaches the FP file is an FP
instruction, and exchanges it first (R318). -/
def xXevdepth (n num rd : Nat) (w : Option Nat) (k : Clk) (d : Dev) : Dev :=
  d.instr n (fun x =>
    let c := x.core n
    if !c.csrMay num w.isSome then x.illegal n
    else if !csrFp num then x.csrDo k n num rd w
    else match c.boundAt c.cur with
    | none => x.illegal n
    | some b =>
      if c.level ≠ 0 then x.illegal n
      else if c.owner = some b.task then x.csrDo k n num rd w
      else if b.fp = 0 then x.illegal n
      else
        let l := x.fpSwap n b.task b.fp
        if l.2 then l.1.csrDo k n num rd w else l.1)

/-- XEVDEPTH and every other CSR, by a CSR instruction. -/
def execXevdepth (n num rd : Nat) (w : Option Nat) (s : State) : Host.Outcome State Fault Refusal :=
  .next { s with d := xXevdepth n num rd w s.clk s.d }

end Sys2Proof.Machine
end

