-- ==== Sys2Proof/Machine/Serial.lean ====
section
/-! DEFINITION. The serial interfaces of the SER block (24 R617, R618: rows UART_TX to I3C_TRANSFER_DONE, UART_BYTE_SENT).
Pins stand in quarters as the ball map (chapter 23) places them. -/

namespace Sys2Proof.Machine

/-- Whether a pin of quarter `q` is held under R617: its quarter in reset or OFF, or its sub-link DOWN. -/
def Dev.pinHeld (d : Dev) (q : Nat) : Bool := d.inReset q || decide (d.domCur q 16 = 2) || !d.routeOk 0 q

/-- The quarter of the pins of SPI `s`. -/
def spiQuarter (s : Nat) : Nat := if s = 0 then 0 else 3

/-- A message leaves on the pins of the SER block; under CONF_ERR they carry none (18 BOOT-8). -/
def Dev.serSend (d : Dev) (o : OutMsg) : Dev := if d.confFailed then d else d.send o

/-- SER_ERR counts an access to held pins. -/
def Dev.serErr (d : Dev) : Dev := d.bump (R.SER_ERR.at 0)

/-- A UART's FIFOs. -/
def Dev.uartOf (d : Dev) (u : Nat) : Uart := nget Uart.zero d.uart u

/-- Write a UART's FIFOs; UART_STAT shows their levels. -/
def Dev.setUart (d : Dev) (u : Nat) (x : Uart) : Dev :=
  let d1 := { d with uart := nset Uart.zero d.uart u x }
  let r := R.UART_STAT.at 0 u
  d1.setReg r (putBits (putBits (d1.reg r) 14 8 x.rx.length) 6 0 x.tx.length)

/-- UART_TX is written. -/
def xUartTx (m : Mst) (u v : Nat) (d : Dev) : Dev :=
  let x := d.uartOf u
  if !m.owner then d.denyOid m (R.UART_TX.at 0 u)
  else if 64 ≤ x.tx.length then (d.setBit (R.UART_STAT.at 0 u) 31 true).okay
  else (d.setUart u { x with tx := x.tx ++ [BitVec.ofNat 8 v] }).okay

/-- A byte is queued. -/
def execUartTx (m : Mst) (u v : Nat) (s : State) : Host.Outcome State Fault Refusal := .next { s with d := xUartTx m u v s.d }

/-- UART_RX is read: the oldest byte is popped; nothing received reads 0. -/
def xUartRx (m : Mst) (u : Nat) (d : Dev) : Dev :=
  let x := d.uartOf u
  if !m.owner then d.denyOid m (R.UART_RX.at 0 u)
  else if d.pinHeld u then d.serErr.answer .okay 0
  else match x.rx with
  | [] => d.answer .okay 0
  | b :: r => (d.setUart u { x with rx := r }).answer .okay (BitVec.ofNat 64 (256 + b.toNat))

/-- A received byte is read. -/
def execUartRx (m : Mst) (u : Nat) (s : State) : Host.Outcome State Fault Refusal := .next { s with d := xUartRx m u s.d }

/-- Whether UART `u` is enabled and its pins are free. -/
def Dev.uartOn (d : Dev) (u : Nat) : Bool := decide (u < 4) && (d.reg (R.UART_CFG.at 0 u)).getLsbD 31 && !d.pinHeld u

/-- UART_BYTE_RECEIVED: `par` and `frm` are a parity and a framing error of the byte. -/
def xUartByteReceived (u byte : Nat) (par frm : Bool) (d : Dev) : Dev :=
  if d.uartOn u = false then d
  else
    let r := R.UART_STAT.at 0 u
    let x := d.uartOf u
    let d1 := if par ∧ (d.reg (R.UART_CFG.at 0 u)).getLsbD 30 = true then d.setBit r 29 true else d
    let d2 := if frm then d1.setBit r 28 true else d1
    if 64 ≤ x.rx.length then d2.setBit r 30 true else d2.setUart u { x with rx := x.rx ++ [BitVec.ofNat 8 byte] }

/-- A byte is received. -/
def execUartByteReceived (u byte : Nat) (par frm : Bool) (s : State) : Host.Outcome State Fault Refusal :=
  .next { s with d := xUartByteReceived u byte par frm s.d }

/-- UART_BYTE_SENT: the oldest queued byte has left. -/
def xUartByteSent (u : Nat) (d : Dev) : Dev :=
  let x := d.uartOf u
  if d.uartOn u = false then d
  else match x.tx with
  | [] => d
  | b :: r => (d.setUart u { x with tx := r }).serSend (.uart u b.toNat)

/-- A byte is sent. -/
def execUartByteSent (u : Nat) (s : State) : Host.Outcome State Fault Refusal := .next { s with d := xUartByteSent u s.d }

/-- `n` bytes of the data registers of a serial unit. -/
def Dev.serBytes (d : Dev) (reg : Nat → RKey) (n : Nat) : List Byte :=
  (upTo n).map (fun i => BitVec.ofNat 8 (d.regN (reg (i / 4)) / 256 ^ (i % 4) % 256))

/-- Put bytes into the data registers of a serial unit. -/
def Dev.setSerBytes (d : Dev) (reg : Nat → RKey) (bs : List Byte) : Dev :=
  (bs.zip (upTo bs.length)).foldl (fun x e =>
    x.setReg (reg (e.2 / 4)) (putBits (x.reg (reg (e.2 / 4))) (8 * (e.2 % 4) + 7) (8 * (e.2 % 4)) e.1.toNat)) d

/-- SPI_DATA of SPI `s`. -/
def spiData (s w : Nat) : RKey := R.SPI_DATA.at 0 s w

/-- GO of a SPI: the transfer begins, and CS_N goes low, to stay low after it where CSKEEP says so (REG-6). -/
def Dev.spiStart (d : Dev) (s len : Nat) (keep : Bool) : Dev :=
  ({ d with spi := nset none d.spi s (some (len, keep)), spiKeep := nset false d.spiKeep s keep }.setBit (R.SPI_STAT.at 0 s) 31 true).serSend
    (.spi s (d.serBytes (spiData s) len))

/-- SPI_CMD: GO starts a transfer of LEN bytes; without EN, while BUSY, or with a length out of its range it is dropped. -/
def xSpiCmd (m : Mst) (s v : Nat) (d : Dev) : Dev :=
  let x := R.SPI_CMD.at 0 s
  let len := v % 512
  if !m.owner then d.denyOid m x
  else if v.testBit 31 = false then d.okay
  else if (nget none d.spi s).isSome ∨ len = 0 ∨ 256 < len ∨ (d.reg (R.SPI_CFG.at 0 s)).getLsbD 31 = false then d.refuse m x
  else if d.pinHeld (spiQuarter s) then d.serErr.okay
  else (d.spiStart s len (v.testBit 24)).okay

/-- A transfer starts. -/
def execSpiCmd (m : Mst) (sp v : Nat) (s : State) : Host.Outcome State Fault Refusal := .next { s with d := xSpiCmd m sp v s.d }

/-- SPI_TRANSFER_DONE: as many bytes as were sent stand in SPI_DATA. -/
def xSpiTransferDone (s : Nat) (rx : List Byte) (d : Dev) : Dev :=
  match nget none d.spi s with
  | none => d
  | some t =>
    if rx.length ≠ t.1 then d
    else ({ d with spi := nset none d.spi s none }.setBit (R.SPI_STAT.at 0 s) 31 false).setSerBytes (spiData s) rx

/-- A transfer ends. -/
def execSpiTransferDone (sp : Nat) (rx : List Byte) (s : State) : Host.Outcome State Fault Refusal :=
  .next { s with d := xSpiTransferDone sp rx s.d }

/-- Free values in the data registers of a transfer that EN = 0 cut short. -/
def Dev.freeSer (d : Dev) (reg : Nat → RKey) (n : Nat) : Dev :=
  (upTo ((n + 3) / 4)).foldl (fun x w => let f := x.fresh; f.2.setRegN (reg w) (f.1.toNat % 2 ^ 32)) d

/-- SPI_CFG is written: a DIV below 8 is dropped; EN = 0 ends a transfer, whose received bytes are not defined (R618). -/
def xSpiCfg (m : Mst) (s v : Nat) (d : Dev) : Dev :=
  let x := R.SPI_CFG.at 0 s
  if !m.owner then d.denyOid m x
  else if v % 65536 < 8 then d.refuse m x
  else
    let d1 := d.setRegN x (v &&& 0x8000FFFF)
    match nget none d.spi s with
    | some t =>
      if v.testBit 31 then d1.okay
      else (({ d1 with spi := nset none d1.spi s none, spiKeep := nset false d1.spiKeep s false }.setBit (R.SPI_STAT.at 0 s) 31 false).freeSer (spiData s) t.1).okay
    | none => d1.okay

/-- I3C0_DATA. -/
def i3cData (w : Nat) : RKey := R.I3C0_DATA.at 0 w

/-- I3C0_CMD: GO starts a transaction of LEN bytes. -/
def xI3c0Cmd (m : Mst) (v : Nat) (d : Dev) : Dev :=
  let x := R.I3C0_CMD.at 0
  let len := v % 128
  if !m.owner then d.denyOid m x
  else if v.testBit 31 = false then d.okay
  else if d.i3c.isSome ∨ len = 0 ∨ 64 < len ∨ (d.reg (R.I3C0_CFG.at 0)).getLsbD 31 = false then d.refuse m x
  else ((({ d with i3c := some v }.setRegN (R.I3C0_STAT.at 0) (2 ^ 31)).serSend
    (.i3c (v % 2 ^ 31) (if v.testBit 30 then [] else d.serBytes i3cData len)))).okay

/-- A transaction starts. -/
def execI3c0Cmd (m : Mst) (v : Nat) (s : State) : Host.Outcome State Fault Refusal := .next { s with d := xI3c0Cmd m v s.d }

/-- I3C_TRANSFER_DONE with RESULT OK, NACK or ARBLOST; a read that is OK leaves its bytes in I3C0_DATA. -/
def xI3cTransferDone (res : Nat) (rx : List Byte) (d : Dev) : Dev :=
  match d.i3c with
  | none => d
  | some v =>
    if res = 0 ∨ 3 < res then d
    else
      let d1 := { d with i3c := none }.setRegN (R.I3C0_STAT.at 0) res
      if v.testBit 30 ∧ res = 1 then d1.setSerBytes i3cData (rx.take (v % 128)) else d1

/-- A transaction ends. -/
def execI3cTransferDone (res : Nat) (rx : List Byte) (s : State) : Host.Outcome State Fault Refusal :=
  .next { s with d := xI3cTransferDone res rx s.d }

/-- I3C0_CFG is written: EN = 0 ends a transaction, whose RESULT and bytes are not defined. -/
def xI3c0Cfg (m : Mst) (v : Nat) (d : Dev) : Dev :=
  let x := R.I3C0_CFG.at 0
  if !m.owner then d.denyOid m x
  else
    let d1 := d.setRegN x (v &&& 0xC000FFFF)
    match d1.i3c with
    | some c =>
      if v.testBit 31 then d1.okay
      else
        let f := d1.fresh
        (({ f.2 with i3c := none }.setRegN (R.I3C0_STAT.at 0) (f.1.toNat % 16)).freeSer i3cData (c % 128)).okay
    | none => d1.okay

/-- The levels of the 16 GPIO pins: a driven pin reads its level, another a free value, a held pin 0 (R617). Under CONF_ERR no
pin is driven (18 BOOT-8). -/
def Dev.gpioIn (d : Dev) : Word × Dev :=
  let f := d.fresh
  let out := d.regN (R.GPIO_OUT.at 0)
  let oe := d.regN (R.GPIO_OE.at 0)
  let held := (upTo 4).filter (fun q => d.pinHeld q)
  let v := (upTo 16).foldl (fun s i =>
    let b : Bool := !held.contains (i / 4) && (if oe.testBit i && !d.confFailed then out.testBit i else f.1.getLsbD i)
    s + b2n b * 2 ^ i) 0
  (BitVec.ofNat 64 v, if held = [] then f.2 else f.2.serErr)

/-! ### LINK_EQUALISATION_COMPLETE (17 R495) -/

/-- A host link has passed through Recovery; once equalisation is done its training temperature is current again. -/
def xLinkEqualisationComplete (L : Nat) (d : Dev) : Dev :=
  if d.linkState L ≠ 3 then d
  else
    let q := L / 8
    let l := L % 8
    let d1 := d.bump (linkReg L .HIF_RECOV_CNT)
    let t := d1.fld F.PWR_TQ_TQ q
    (d1.setFld F.CAL_HLINK_TTEMP t q l).setBit (R.CAL_RTDUE.at q) (16 + l) false

/-- A host link equalises again. -/
def execLinkEqualisationComplete (link : Nat) (s : State) : Host.Outcome State Fault Refusal :=
  .next { s with d := xLinkEqualisationComplete link s.d }

end Sys2Proof.Machine
end

