-- ==== Sys2Proof/Machine/Debug.lean ====
section
/-! DEFINITION. Halts, core state, cross triggers, captures, flash patches and block locks (chapter 21 and 24 R611: rows
CORE_HALT to BLK_LOCK). The Dweaz port itself stands in DebugPort. -/

namespace Sys2Proof.Machine

/-! ### Who may write the DBG block (R577) -/

/-- Whether master `m` may write register `r` of the DBG block of quarter `q`. -/
def Dev.dbgMay (d : Dev) (m : Mst) (q : Nat) (r : R) : Bool :=
  decide (m.mid = 0x4C0)
    || (m.owner && (decide (r = .DBG_CCMD) || decide (r = .DBG_CREG_SEL) || decide (r = .DBG_CREG_DATA) || decide (r = .DBG_EBHALT)
      || ((decide (r = .PATCH_CTL) || decide (r = .PATCH_DATA)) && (d.reg (R.DBG_CTRL.at q)).getLsbD 0)))

/-- A write of the DBG block by a master that may make it; another is dropped with kind SOURCE. -/
def Dev.dbgWrite (d : Dev) (m : Mst) (x : RKey) (f : Dev) : Dev :=
  if d.dbgMay m x.q x.r then f
  else if !m.owner then d.denyOid m x
  else d.refuseSource m x

/-! ### Halt, run and step (R565–R570) -/

/-- The cores of a DBG_CCMD mask. -/
def maskCores (q v : Nat) : List Nat := (onesOf v 16).map (fun c => q * 16 + c)

/-- CORE_HALT. -/
def xCoreHalt (m : Mst) (q v : Nat) (d : Dev) : Dev :=
  d.dbgWrite m (R.DBG_CCMD.at q) (((maskCores q v).foldl (fun x n => x.haltCore n) d).okay)

/-- CORE_RUN. -/
def xCoreRun (m : Mst) (q v : Nat) (d : Dev) : Dev :=
  d.dbgWrite m (R.DBG_CCMD.at q) (((maskCores q v).foldl (fun x n => x.runCore n) d).okay)

/-- CORE_STEP: each halted core of the mask may execute one instruction. -/
def xCoreStep (m : Mst) (q v : Nat) (d : Dev) : Dev :=
  d.dbgWrite m (R.DBG_CCMD.at q) (((maskCores q v).foldl (fun x n =>
    let c := x.core n
    if c.halted then x.setCore n { c with step := true } else x) d).okay)

/-- Cores halt. -/
def execCoreHalt (m : Mst) (q v : Nat) (s : State) : Host.Outcome State Fault Refusal := .next { s with d := xCoreHalt m q v s.d }
/-- Cores resume. -/
def execCoreRun (m : Mst) (q v : Nat) (s : State) : Host.Outcome State Fault Refusal := .next { s with d := xCoreRun m q v s.d }
/-- Cores step. -/
def execCoreStep (m : Mst) (q v : Nat) (s : State) : Host.Outcome State Fault Refusal := .next { s with d := xCoreStep m q v s.d }

/-- A reserved command code: no action, logged (R16). -/
def Dev.reservedCmd (d : Dev) (m : Mst) (x : RKey) : Dev := d.dbgWrite m x ((d.logWrite m x .reserved).okay)

/-- DBG_CCMD is written. -/
def xDbgCcmd (m : Mst) (q v : Nat) (d : Dev) : Dev :=
  match bitsOf v 31 28 with
  | 1 => xCoreHalt m q v d
  | 2 => xCoreRun m q v d
  | 3 => xCoreStep m q v d
  | _ => d.reservedCmd m (R.DBG_CCMD.at q)

/-- The system resumes (R569): its subsystems, its cores, and the flits held for the sequencers. -/
def Dev.resumeSystem (d : Dev) (now : Nat) : Dev :=
  ((upTo 64).foldl (fun x n => x.runCore n) (d.setSysHalt false)).releaseKept now

/-- SYSTEM_HALT. -/
def xSystemHalt (m : Mst) (_v : Nat) (d : Dev) : Dev := d.dbgWrite m (R.DBG_SHALT.at 0) d.haltSystem.okay

/-- SYSTEM_RUN: no effect in safe stop or under CONF_ERR (R570). -/
def xSystemRun (m : Mst) (_v : Nat) (k : Clk) (d : Dev) : Dev :=
  d.dbgWrite m (R.DBG_SHALT.at 0) (if d.safe ∨ d.confFailed = true ∨ d.sysHalt = false then d.okay
    else ({ d with haltLeft := 0 }.resumeSystem k.tick).okay)

/-- SYSTEM_STEP: the system runs until the array has executed COUNT rounds; COUNT 0 is reserved. `haltLeft` holds the rounds
that remain plus one. -/
def xSystemStep (m : Mst) (v : Nat) (k : Clk) (d : Dev) : Dev :=
  let x := R.DBG_SHALT.at 0
  if v % 65536 = 0 then d.reservedCmd m x
  else d.dbgWrite m x (if d.safe ∨ d.confFailed = true then d.okay
    else ({ d with haltLeft := v % 65536 + 1 }.resumeSystem k.tick).okay)

/-- The system halts. -/
def execSystemHalt (m : Mst) (v : Nat) (s : State) : Host.Outcome State Fault Refusal := .next { s with d := xSystemHalt m v s.d }
/-- The system resumes. -/
def execSystemRun (m : Mst) (v : Nat) (s : State) : Host.Outcome State Fault Refusal := .next { s with d := xSystemRun m v s.clk s.d }
/-- The system steps. -/
def execSystemStep (m : Mst) (v : Nat) (s : State) : Host.Outcome State Fault Refusal := .next { s with d := xSystemStep m v s.clk s.d }

/-- DBG_SHALT is written. -/
def xDbgShalt (m : Mst) (v : Nat) (k : Clk) (d : Dev) : Dev :=
  match bitsOf v 31 28 with
  | 1 => xSystemHalt m v d
  | 2 => xSystemRun m v k d
  | 3 => xSystemStep m v k d
  | _ => d.reservedCmd m (R.DBG_SHALT.at 0)

/-- STEP_COUNT_END: the rounds of a STEP have executed and the system halts again. -/
def xStepCountEnd (d : Dev) : Dev := if d.haltLeft = 1 then { d with haltLeft := 0 }.haltSystem else d

/-- A step's rounds are over. -/
def execStepCountEnd (s : State) : Host.Outcome State Fault Refusal := .next { s with d := xStepCountEnd s.d }

/-! ### The state of a halted core (R566) -/

/-- DBG_CREG_DATA: a read or a write of the state that DBG_CREG_SEL selects. -/
def xDbgCregData (m : Mst) (q : Nat) (write : Bool) (v : Nat) (k : Clk) (d : Dev) : Dev :=
  let x := R.DBG_CREG_DATA.at q
  let sel := d.reg (R.DBG_CREG_SEL.at q)
  let n := q * 16 + getBits sel 31 28
  let bank := getBits sel 22 20
  let idx := getBits sel 11 0
  let c := d.core n
  let w : Word := BitVec.ofNat 64 v
  let bad := d.slverr m x
  if !m.owner then d.denyOid m x
  else if c.halted = false then bad
  else match getBits sel 27 26 with
  | 0 =>
    if 31 < idx then bad
    else if write then
      (d.setCore n (if idx = 0 then c.setWord bank 0 (w &&& BitVec.ofNat 64 stateMask) else c.setWord bank idx w)).okay
    else d.answer .okay (c.read bank idx)
  | 1 =>
    if 32 < idx then bad
    else if write then (d.setCore n { c with fp := nset 0 c.fp idx (if idx = 32 then w &&& 0xFF else w) }).okay
    else d.answer .okay (nget 0 c.fp idx)
  | 2 => (match d.csrRead k n idx with
    | none => bad
    | some r => if write then (d.setCore n (c.csrWrite idx w)).okay else r.2.answer .okay r.1)
  | _ => bad

/-- The state of a halted core is read or written. -/
def execDbgCregData (m : Mst) (q : Nat) (write : Bool) (v : Nat) (s : State) : Host.Outcome State Fault Refusal :=
  .next { s with d := xDbgCregData m q write v s.clk s.d }

/-! ### Cross triggers (R571) -/

/-- XT_FIRE of rule `r`. -/
def xXtFire (m : Mst) (r v : Nat) (k : Clk) (d : Dev) : Dev :=
  d.dbgWrite m (R.XT_FIRE.at 0 r) (if v.testBit 0 then (d.fireInput k 4 (fun i => decide (i = r))).okay else d.okay)

/-- A trigger is fired. -/
def execXtFire (m : Mst) (r v : Nat) (s : State) : Host.Outcome State Fault Refusal := .next { s with d := xXtFire m r v s.clk s.d }

/-! ### Captures (R572, R573) -/

/-- ARM. -/
def xArm (m : Mst) (_v : Nat) (k : Clk) (d : Dev) : Dev :=
  let e := d.regN (R.CAP_DTIME.at 0)
  d.dbgWrite m (R.CAP_CTRL.at 0) (
    if d.capState ≠ 0 then (d.setCap d.capState 3).okay
    else if e < k.dtime then (d.setCap 0 2).okay
    else if d.sysHalt ∧ e = k.dtime then ((d.setCap 1 0).takeCapture k).okay
    else (d.setCap 1 0).okay)

/-- A capture is armed. -/
def execArm (m : Mst) (v : Nat) (s : State) : Host.Outcome State Fault Refusal := .next { s with d := xArm m v s.clk s.d }

/-- CAPTURE_TAKEN: at the edge that begins the executed cycle whose DTIME is E. -/
def xCaptureTaken (k : Clk) (d : Dev) : Dev :=
  if d.capState = 1 ∧ k.runs = true ∧ k.cyc < 64 ∧ k.dtime = d.regN (R.CAP_DTIME.at 0) then d.takeCapture k else d

/-- A capture is taken. -/
def execCaptureTaken (s : State) : Host.Outcome State Fault Refusal := .next { s with d := xCaptureTaken s.clk s.d }

/-- Word `i` of the header of quarter `q`'s image. -/
def Capture.headWord (c : Capture) (q i : Nat) : Nat :=
  match i with
  | 0 => 0x50435950
  | 1 => q
  | 2 => c.e % 2 ^ 32
  | 3 => c.e / 2 ^ 32 % 2 ^ 32
  | 4 => c.tick % 2 ^ 32
  | 5 => c.tick / 2 ^ 32 % 2 ^ 32
  | 6 => c.masks.getD q 0 % 65536 + 65536 * Config.capMapVersion.toNat
  | _ => 0

/-- The 64 header bytes of quarter `q`'s image, as a number. -/
def Capture.head (c : Capture) (q : Nat) : Nat := (upTo 16).foldl (fun s i => s + c.headWord q i * 2 ^ (32 * i)) 0

/-- DMA: an unload of a taken capture to HBM begins. -/
def xDma (m : Mst) (_v : Nat) (d : Dev) : Dev :=
  let x := R.CAP_CTRL.at 0
  d.dbgWrite m x (match d.capture with
    | some c => if d.capState = 2 then ({ d.setCap 3 0 with capture := some { c with quarter := none } }).okay else d.refuse m x
    | none => d.refuse m x)

/-- A capture is to be unloaded. -/
def execDma (m : Mst) (v : Nat) (s : State) : Host.Outcome State Fault Refusal := .next { s with d := xDma m v s.d }

/-- Bursts of 64 bytes from `a`: the capture map is the maker's, so the bits of the flip-flops are free values. -/
def Dev.dmaRest (d : Dev) (a : Nat) : Nat → Dev × Bool
  | 0 => (d, true)
  | n + 1 =>
    let f := d.fresh
    let r := f.2.memIdle (wrReq 0x4C0 0 a 64 f.1.toNat)
    if r.2.code = .okay then r.1.dmaRest (a + 64) n else (r.1, false)

/-- The image of quarter `q` at `a`. -/
def Dev.dmaImage (d : Dev) (c : Capture) (a q : Nat) : Dev × Bool :=
  let r := d.memIdle (wrReq 0x4C0 0 a 64 (c.head q))
  if r.2.code = .okay then r.1.dmaRest (a + 64) (Config.fuseCapSize.toNat / 64 - 1) else (r.1, false)

/-- The images of the quarters listed, to the first error. -/
def Dev.dmaAll (d : Dev) (c : Capture) (a : Nat) : List Nat → Dev × Bool
  | [] => (d, true)
  | q :: r =>
    let x := d.dmaImage c (a + q * Config.fuseCapSize.toNat) q
    if x.2 then x.1.dmaAll c a r else x

/-- UNLOAD_DONE: the four images stand in HBM, or an error ended the unload with FAULT. -/
def xUnloadDone (d : Dev) : Dev :=
  match d.capture with
  | none => d
  | some c =>
    if d.capState = 3 ∧ c.quarter = none then
      let r := d.dmaAll c (d.regN (R.CAP_BASE.at 0)) (upTo 4)
      { r.1.setCap 0 (if r.2 then 1 else 4) with capture := none }
    else d

/-- An unload ends. -/
def execUnloadDone (s : State) : Host.Outcome State Fault Refusal := .next { s with d := xUnloadDone s.d }

/-- STREAM: reads of CAP_DATA return the image of quarter QSEL from its start. -/
def xStream (m : Mst) (v : Nat) (d : Dev) : Dev :=
  let x := R.CAP_CTRL.at 0
  d.dbgWrite m x (match d.capture with
    | some c =>
      if d.capState = 2 ∨ (d.capState = 3 ∧ c.quarter.isSome) then
        ({ d.setCap 3 0 with capture := some { c with quarter := some (v % 4), read := 0 } }).okay
      else d.refuse m x
    | none => d.refuse m x)

/-- A streamed unload is selected. -/
def execStream (m : Mst) (v : Nat) (s : State) : Host.Outcome State Fault Refusal := .next { s with d := xStream m v s.d }

/-- DISARM: an armed capture is given up. -/
def xDisarm (m : Mst) (_v : Nat) (d : Dev) : Dev :=
  d.dbgWrite m (R.CAP_CTRL.at 0) (if d.capState = 1 then (d.setCap 0 0).okay else d.okay)

/-- A capture is disarmed. -/
def execDisarm (m : Mst) (v : Nat) (s : State) : Host.Outcome State Fault Refusal := .next { s with d := xDisarm m v s.d }

/-- CAP_CTRL is written. -/
def xCapCtrl (m : Mst) (v : Nat) (k : Clk) (d : Dev) : Dev :=
  match bitsOf v 31 28 with
  | 1 => xArm m v k d
  | 2 => xDma m v d
  | 3 => xStream m v d
  | 4 => xDisarm m v d
  | _ => d.reservedCmd m (R.CAP_CTRL.at 0)

/-- CAP_DATA is read: the next word of the streamed image; the last one completes the capture. -/
def xCapData (m : Mst) (d : Dev) : Dev :=
  if !m.owner then d.denyOid m (R.CAP_DATA.at 0)
  else match d.capture with
  | none => d.answer .okay 0
  | some c =>
    (match c.quarter with
    | none => d.answer .okay 0
    | some q =>
      let d1 := { d with capture := some { c with read := c.read + 1 } }
      let r := if c.read < 16 then (BitVec.ofNat 64 (c.headWord q c.read), d1)
        else let f := d1.fresh; (BitVec.ofNat 64 (f.1.toNat % 2 ^ 32), f.2)
      let d2 := if Config.fuseCapSize.toNat / 4 ≤ c.read + 1 then { r.2.setCap 0 1 with capture := none } else r.2
      d2.answer .okay r.1)

/-- A word of a capture is read. -/
def execCapData (m : Mst) (s : State) : Host.Outcome State Fault Refusal := .next { s with d := xCapData m s.d }

/-! ### Patch units (R574, R575), block locks (24 R611) -/

/-- PATCH_CTL. -/
def xPatchCtl (m : Mst) (q u v : Nat) (d : Dev) : Dev :=
  d.dbgWrite m (R.PATCH_CTL.at q u) ((d.setRegN (R.PATCH_CTL.at q u) (v &&& 0x8103FFFF)).okay)

/-- A patch unit is set. -/
def execPatchCtl (m : Mst) (q u v : Nat) (s : State) : Host.Outcome State Fault Refusal := .next { s with d := xPatchCtl m q u v s.d }

/-- PATCH_DATA: only while its unit has EN = 0. -/
def xPatchData (m : Mst) (q u w v : Nat) (d : Dev) : Dev :=
  let x := R.PATCH_DATA.at q u w
  d.dbgWrite m x (if (d.reg (R.PATCH_CTL.at q u)).getLsbD 31 then d.refuse m x else (d.setRegN x (v % 2 ^ 32)).okay)

/-- Whether quarter `q` holds the block with a code of REG-1 (R608, R609). -/
def blockIn (q code : Nat) : Bool :=
  if code = 0x09 ∨ code = 0x26 then decide (q = 0) || decide (q = 3)
  else if code = 0x27 then decide (q = 0)
  else true

/-- BLK_LOCK: a 1 sets LOCK; only a reset clears it. The DBG block takes this write too from MID 0x4C0 alone (R577). -/
def xBlkLock (m : Mst) (q code v : Nat) (d : Dev) : Dev :=
  let x := R.BLK_LOCK.at q code
  if !m.owner then d.denyOid m x
  else if code ≠ 0xF0 ∧ blockIn q code = false then d.refuse m x
  else if code = 0x28 ∧ m.mid ≠ 0x4C0 then d.refuseSource m x
  else (if v.testBit 0 then d.setRegN x 1 else d).okay

/-- A block is locked. -/
def execBlkLock (m : Mst) (q code v : Nat) (s : State) : Host.Outcome State Fault Refusal :=
  .next { s with d := xBlkLock m q code v s.d }

end Sys2Proof.Machine
end

