-- ==== Sys2Proof/Machine/Bus.lean ====
section
/-! DEFINITION. Registers by address (24 R607–R617): which register an offset holds, what a read of it gives and does,
what a write of it does, by its access code (00 R14–R16) or by its own row. -/

namespace Sys2Proof.Machine

/-! ### Which register an offset holds -/

/-- One level of repetition: the index and what is left of the offset. -/
def splitLevel (x c s : Nat) : Option (Nat × Nat) :=
  if c ≤ 1 then some (0, x) else if x / s < c then some (x / s, x % s) else none

/-- The indices of register row `r` at offset `o` of its space, if the row covers it. -/
def R.locate (r : R) (o : Nat) : Option (Nat × Nat × Nat) :=
  let t := r.desc
  let b := t.blk.base + t.off
  if o < b then none
  else match splitLevel (o - b) t.ci t.si with
  | none => none
  | some (i, x) =>
    match splitLevel x t.cj t.sj with
    | none => none
    | some (j, y) =>
      match splitLevel y t.ck t.sk with
      | none => none
      | some (k, z) => if z < (if t.wide then 8 else 4) then some (i, j, k) else none

/-- The register among those of `p` that covers offset `o`. -/
def findReg (p : R → Bool) (o : Nat) : Option (R × Nat × Nat × Nat) :=
  R.all.findSome? (fun r => if p r then (r.locate o).map (fun x => (r, x)) else none)

/-- The codes of REG-1: where a block begins, and with it its header. -/
def blkCodes : List Nat :=
  [0x00, 0x01, 0x02, 0x03, 0x04, 0x05, 0x06, 0x07, 0x08, 0x09, 0x0A, 0x0C, 0x0D, 0x10, 0x14, 0x18, 0x20, 0x21, 0x22,
   0x24, 0x25, 0x26, 0x27, 0x28, 0x30, 0x40]

/-- The ranges of a quarter's register space that hold no block (R609). -/
def inHole (o : Nat) : Bool :=
  let u := o / 65536
  decide (u = 0x0B) || decide (u = 0x23) || (decide (0x29 ≤ u) && decide (u < 0x30)) || decide (0x44 ≤ u)

/-- A block that REG-1 lists but the quarter does not hold (R609). -/
def absentAt (q o : Nat) : Bool := !blockIn q (o / 65536)

/-- Whether register row `r` lies in the register space of quarter `q` (R608). -/
def Dev.rowIn (d : Dev) (q : Nat) (r : R) : Bool :=
  match r with
  | .QE_TONGUE_ARG | .QE_TONGUE_CMD | .QE_TONGUE_STAT => decide (q = 0)
  | .MSQ_PFSTAT | .MSQ_PFCLR | .MSQ_OPDARM | .MSQ_OPCAP | .MSQ_OPUSE => decide (q = d.liveQ)
  | _ =>
    match r.desc.blk with
    | .AO | .FN | .DB | .DW => false
    | .DBG => decide (r.desc.off < 0x4000) || decide (q = 0)
    | _ => true

/-- The register of the function page of function `oid` at page offset `o` (13 HOST-4). -/
def fnRegAt (oid o : Nat) : Option RKey :=
  if o < 0x4000 then (findReg (fun r => decide (r.desc.blk = .FN)) o).map (fun x => x.1.at 0 oid x.2.2.1 x.2.2.2) else none

/-- The register of the doorbell page of a pair at page offset `o` (14 QUE-2). -/
def dbRegAt (q i o : Nat) : Option RKey :=
  if o < 0x1000 then (findReg (fun r => decide (r.desc.blk = .DB)) o).map (fun x => x.1.at q i) else none

/-- The register of the always-on block at offset `o` (R613). -/
def aoRegAt (o : Nat) : Option RKey :=
  if o / 4 = 0xFF00 / 4 then some (R.BLK_ID.at 0 0xF0)
  else if o / 4 = 0xFF04 / 4 then some (R.BLK_LOCK.at 0 0xF0)
  else (findReg (fun r => decide (r.desc.blk = .AO)) o).map (fun x => x.1.at 0 x.2.1 x.2.2.1 x.2.2.2)

/-- The register of quarter `q` at offset `o`: a header, the owner's function page in Q0, or a register of a block. -/
def Dev.qRegAt (d : Dev) (q o : Nat) : Option RKey :=
  let u := o / 65536
  let z := o % 65536
  if (z / 4 = 0xFF00 / 4 ∨ z / 4 = 0xFF04 / 4) ∧ blkCodes.contains u then
    some ((if z / 4 = 0xFF00 / 4 then R.BLK_ID else R.BLK_LOCK).at q u)
  else if 0x120000 ≤ o ∧ o < 0x124000 then (if q = 0 then fnRegAt 0 (o - 0x120000) else none)
  else (findReg (fun r => decide (r.desc.blk ≠ .HDR) && d.rowIn q r) o).map (fun x => x.1.at q x.2.1 x.2.2.1 x.2.2.2)

/-! ### What a register shows -/

/-- TPORT_STAT of a page: both port positions of its tile (05 TILE-10). -/
def Dev.tportStat (d : Dev) (q l p : Nat) : Nat :=
  if !d.pageMapped q l p then 0
  else
    let T := d.pageTile q l p
    (upTo 2).foldl (fun a tp =>
      let x := d.tport T tp
      let own := match d.tpBind (clusterOf q l) (tileLogical T) tp with
        | none => 0
        | some b => 2 ^ 7 + b2n b.leap * 2 ^ 6 + b2n b.out * 2 ^ 5
      let pos := match d.tpBind (clusterOf q l) (tileLogical T) tp with
        | none => 0
        | some b => b.pos % 4
      a + pos * 2 ^ (16 + 2 * tp) + (own + b2n x.eos * 16 + Nat.min 8 x.head.length) * 2 ^ (8 * tp)) 0

/-- POISON of TMEM_STAT: the banks of a tile that hold a poisoned word (05 R153). -/
def Dev.tmemPoison (d : Dev) (q l p : Nat) : Nat :=
  let T := if d.pageMapped q l p then d.pageTile q l p else spareTile (clusterOf q l) (p / 9)
  (upTo 4).foldl (fun a b =>
    let base := tmemAddr T b 0
    a + b2n (d.ecc.any (fun e => decide (base ≤ e.1) && decide (e.1 < base + 0x4000) && e.2.isPoison)) * 2 ^ b) 0

/-- FN_ID and FN_STAT of a function (13 HOST-8). -/
def Dev.fnIdent (d : Dev) (oid : Nat) : Nat :=
  match d.linkOf oid with
  | none => oid
  | some L => b2n (decide (32 ≤ oid)) * 2 ^ 31 + L * 2 ^ 24
      + (if oid < 32 then 0 else oid + 1 - d.fld F.HIF_VFBASE_VFBASE (L / 8) (L % 8)) * 2 ^ 12 + oid
/-- Readiness and the host-visible state. -/
def Dev.fnStat (d : Dev) (oid : Nat) : Nat :=
  let f := d.fn oid
  let ready := match d.linkOf oid with
    | none => 0
    | some L => d.fld F.HIF_LSTAT_READY (L / 8) (L % 8)
  ready * 2 ^ 31 + b2n f.bme * 2 ^ 30 + b2n f.msixEn * 2 ^ 29 + (if f.d3 then 3 else 0) * 2 ^ 27 + b2n f.reset * 2 ^ 26

/-- The cluster port number of an engine page. -/
def senPort (q i : Nat) : Nat := clusterOf q (i / 16) * 16 + i % 16

/-- The media channel of a page of MSQ. -/
def chanAt (q i : Nat) : Nat := if i < 16 then q * 16 + i else 64 + q * 128 + (i - 16)

/-- What a register shows: the value it holds, or what it reports of the state behind it. -/
def Dev.show (d : Dev) (k : Clk) (x : RKey) : Word :=
  let n (v : Nat) : Word := BitVec.ofNat 64 v
  let slot (w : Word) : Word := if d.anchored (slotId (clusterOf x.q x.i) x.j) then w else 0
  match x.r with
  | .TICK => n k.tick
  | .EVT_ROUTE => if sourceExists x.q x.i then d.reg x else 0
  | .DTIME => n k.dtime
  | .FN_TICK => n k.tick
  | .FN_ID => n (d.fnIdent x.i)
  | .FN_STAT => n (d.fnStat x.i)
  | .FN_MBX_STAT => d.reg (R.HMBX_STAT.at (x.i / 264) (x.i % 264))
  | .FN_MSIX => if x.j < d.vecCount x.i then d.reg x else 0
  | .TPORT_STAT => n (d.tportStat x.q x.i x.j)
  | .TMEM_STAT => putBits (d.reg x) 7 4 (d.tmemPoison x.q x.i x.j)
  | .SEN_FIFO => n (b2n (d.vpMark (senPort x.q x.i)) * 2 ^ 31 + d.vpLevel (senPort x.q x.i))
  | .HIF_LSTAT => putBits (d.reg x) 31 28 (d.linkState (8 * x.q + x.i))
  | .TET_LSTAT => putBits (d.reg x) 31 28 (d.laneState (16 * x.q + x.i))
  | .TET_STAT => if d.confFailed || d.safe then 0 else d.reg x
  | .QP_FLAGS => d.reg (R.QP_STAT.at x.q x.i)
  | .SLOT_FOOT => slot (d.reg x)
  | .SLOT_OID => slot (d.reg x)
  | .SLOT_FRAME => slot (d.reg x)
  | .SLOT_EXIT => slot (d.reg x)
  | .SLOT_RUN => slot (d.reg x)
  | .SLOT_FRAMES => slot (d.reg x)
  | .SLOT_MAP => slot (d.reg x)
  | .BLK_ID => if x.i = 0xF0 then putBits (d.reg x) 1 0 d.liveQ else d.reg x
  | _ => d.reg x

/-! ### Reads -/

/-- A read of a mailbox register that only the receiver or the sender reaches, or that the channel's mode does not have
(12 R349, R350). The registers of the sender are write-only. -/
def Dev.mbxGuard (d : Dev) (m : Mst) (x : RKey) (ch : Nat) (recv : Bool) (k : Clk) : Dev :=
  let may := if recv then d.mbxLocked x.q ch && decide (m.mid = d.mbxRecv x.q ch) else d.mbxSender m x.q ch
  if d.mbxCompat x.q ch then d.refuseRead m x .refused
  else if !may then d.refuseRead m x .source
  else d.answer .okay (if recv then d.show k x else 0)

/-- A write of MBX_RPTR or MBX_RLT: its receiver's is ignored, any other master's is refused, and every one on a
compatibility channel (12 R349, R350). -/
def Dev.mbxRecvWrite (d : Dev) (m : Mst) (x : RKey) (ch : Nat) : Dev :=
  if !m.owner then d.denyOid m x
  else if d.mbxCompat x.q ch then d.refuse m x
  else if d.mbxLocked x.q ch = false ∨ m.mid ≠ d.mbxRecv x.q ch then d.refuseSource m x
  else d.okay

/-- A read of a mailbox register of a function page while its receiver's domain is OFF: completer abort (EVT-7). -/
def Dev.fnMailOff (d : Dev) (oid : Nat) : Bool :=
  d.mbxLocked (oid / 264) (256 + oid % 264) && decide (d.recvState (d.mbxRecv (oid / 264) (256 + oid % 264)) = .off)

/-- A read of the send registers of a function page: they are write-only, and refuse in compatibility mode (12 R349). -/
def Dev.fnSendRead (d : Dev) (m : Mst) (oid : Nat) (r : R) (k : Clk) : Dev :=
  d.mbxGuard m (r.at (oid / 264) (oid % 264)) (256 + oid % 264) false k

/-- MBX_WORD of a function page is read: the function is the sender, so the read is refused (12 R350). -/
def Dev.fnWordRead (d : Dev) (m : Mst) (oid : Nat) : Dev :=
  let x := R.HMBX_WORD.at (oid / 264) (oid % 264)
  d.refuseRead m x (if d.mbxLocked x.q (256 + x.i) && !d.mbxCompat x.q (256 + x.i) then .refused else .source)

/-- A read of an eye's training temperature and margins: while the receiver works the margins are measured continuously (16
TET_EYE, 17 CAL-10), so they are free values. -/
def Dev.eyeRead (d : Dev) (x : RKey) (live : Bool) : Dev :=
  if live then d.fresh.2.answer .okay (putBits (d.reg x) 15 0 d.fresh.1.toNat) else d.answer .okay (d.reg x)

/-- A read of a whole register by its access code (00 R14), or as its own row says. -/
def Dev.regRead (d : Dev) (m : Mst) (x : RKey) (k : Clk) : Dev :=
  match x.r with
  | .EVT_CLAIM => xEvtClaim m x.q x.i d
  | .MBX_RLT => xMbxRlt m x.q x.i d
  | .HMBX_RLT => xMbxRlt m x.q (256 + x.i) d
  | .MBX_WORD => xMbxWordRead m x.q x.i d
  | .HMBX_WORD => xMbxWordRead m x.q (256 + x.i) d
  | .MBX_RPTR => d.mbxGuard m x x.i true k
  | .HMBX_RPTR => d.mbxGuard m x (256 + x.i) true k
  | .MBX_SPTR => d.mbxGuard m x x.i false k
  | .MBX_SLT => d.mbxGuard m x x.i false k
  | .HMBX_SPTR => d.mbxGuard m x (256 + x.i) false k
  | .HMBX_SLT => d.mbxGuard m x (256 + x.i) false k
  | .FN_MBX_WORD => if d.fnMailOff x.i then d.answer .slverr 0 else d.fnWordRead m x.i
  | .FN_MBX_SPTR => if d.fnMailOff x.i then d.answer .slverr 0 else d.fnSendRead m x.i .HMBX_SPTR k
  | .FN_MBX_SLT => if d.fnMailOff x.i then d.answer .slverr 0 else d.fnSendRead m x.i .HMBX_SLT k
  | .FN_MBX_STAT => if d.fnMailOff x.i then d.answer .slverr 0 else d.answer .okay (d.show k x)
  | .UART_RX => xUartRx m x.i d
  | .CAP_DATA => xCapData m d
  | .DBG_CREG_DATA => xDbgCregData m x.q false 0 k d
  | .GPIO_IN => d.gpioIn.2.answer .okay d.gpioIn.1
  | .TET_EYE => d.eyeRead x (decide (d.laneState (16 * x.q + x.i) = 4) || decide (d.laneState (16 * x.q + x.i) = 8))
  | .CAL_HLINK => d.eyeRead x (decide (d.linkState (8 * x.q + x.i) = 3))
  | .HBM_STAT => d.fresh.2.answer .okay (putBits (d.reg x) 7 0 d.fresh.1.toNat)
  | _ =>
    match x.r.desc.acc with
    | .wo => d.answer .okay 0
    | .rc => (d.setRegN x 0).answer .okay (d.show k x)
    | _ => d.answer .okay (d.show k x)

/-- Whether a read of a register has an effect (20 R550). -/
def Dev.readActs (d : Dev) (m : Mst) (x : RKey) : Bool :=
  decide (x.r.desc.acc = .rc) ||
    (match x.r with
    | .MBX_WORD => d.mbxLocked x.q x.i && decide (m.mid = d.mbxRecv x.q x.i)
    | .HMBX_WORD => d.mbxLocked x.q (256 + x.i) && decide (m.mid = d.mbxRecv x.q (256 + x.i))
    | _ => false)

/-! ### Writes -/

/-- The fields whose written encoding the owning chapter marks reserved (00 R16), as bit ranges. -/
def Dev.reservedFields (d : Dev) (x : RKey) (v : Nat) : List (Nat × Nat) :=
  let bad (hi lo : Nat) (ok : Nat → Bool) : List (Nat × Nat) := if ok (bitsOf v hi lo) then [] else [(hi, lo)]
  match x.r with
  | .DSP_TCB_COUNT => bad 18 0 (fun f => decide (f ≤ 262144))
  | .DSP_TRACE_SIZE => bad 4 0 (fun f => decide (12 ≤ f ∧ f ≤ 24))
  | .EVT_LOG_SIZE => bad 31 0 (fun f => decide (12 ≤ f ∧ f ≤ 24))
  | .MSQ_RSIZE => bad 4 0 (fun f => decide (4 ≤ f ∧ f ≤ 16))
  | .CAL_SWSIZE => bad 4 0 (fun f => decide (4 ≤ f ∧ f ≤ 16))
  | .CAL_FRSIZE => bad 4 0 (fun f => decide (4 ≤ f ∧ f ≤ 16))
  | .CAL_PCFG => bad 31 24 (fun f => decide (f ≠ 0))
  | .CAL_PASTALE => bad 30 0 (fun f => decide (1 ≤ f ∧ f ≤ 2 ^ 30))
  | .TET_LCFG => bad 2 0 (fun f => decide (1 ≤ f ∧ f ≤ 5))
  | .TET_BACKOFF => bad 15 0 (fun f => decide (f ≠ 0))
  | .TET_RXCRED => bad 15 8 (fun f => decide (1 ≤ f ∧ f ≤ 32)) ++ bad 7 0 (fun f => decide (1 ≤ f ∧ f ≤ 16))
  | .QP_SIZE =>
    let top := d.fld F.QP_INFO_MAXLOG x.q x.i
    bad 12 8 (fun f => decide (4 ≤ f ∧ f ≤ top)) ++ bad 4 0 (fun f => decide (4 ≤ f ∧ f ≤ top))
  | .QP_INTR => bad 7 0 (fun f => decide (f ≠ 0))
  | .QE_FW_BASE => bad 47 11 (fun f => decide (f % 2 = 0))
  | .HIF_LCFG => bad 31 28 (fun f => decide (f ≠ 0))
  | .HIF_PCFG => bad 1 0 (fun f => decide (f ≠ 3))
  | .AO_HBCFG => bad 7 0 (fun f => decide (4 ≤ f))
  | .DBG_CREG_SEL => bad 27 26 (fun f => decide (f ≠ 3))
  | .XT_IN => bad 2 0 (fun f => decide (f ≤ 4))
  | _ => []

/-- The bits that software may set, where they differ among the words of one row (17 CAL-10). -/
def maskOf (x : RKey) : Nat :=
  match x.r with
  | .CAL_PBASE => if x.j = 0 then 0xFFFFFF00 else 0xFFFFFFFF
  | .CAL_PTC => if x.j = 0 then 0xFFFFFF00 else 0xFFFFFFFF
  | .FN_MSIX => if x.k = 3 then 1 else if x.k = 0 then 0xFFFFFFFC else 0xFFFFFFFF
  | _ => x.r.desc.wmask

/-- The registers whose bit 30, written with 1, also clears COUNT (12 R347). -/
def isWmStatus (r : R) : Bool :=
  match r with
  | .TMEM_CE_STATUS | .CTX_CE_STATUS | .DSP_RDY_STATUS | .DSP_DLY_STATUS | .BNK_CE_STATUS | .QP_WM_STATUS
  | .MSQ_RWM_STATUS => true
  | _ => false

/-- A write by the access code of a register (00 R14, R16): reserved bits stay, W1C bits written with 1 clear, a
field with a reserved encoding keeps its value and is logged. -/
def Dev.plainWrite (d : Dev) (m : Mst) (x : RKey) (v : Nat) : Dev :=
  let old := d.reg x
  let bad := d.reservedFields x v
  let mask := bad.foldl (fun a f => setBitsN a f.1 f.2 0) (maskOf x)
  let cmask := x.r.desc.cmask
  let keep := old &&& ~~~(BitVec.ofNat 64 (mask ||| (v &&& cmask)))
  let new := keep ||| BitVec.ofNat 64 (v &&& mask)
  let new2 := if isWmStatus x.r ∧ v.testBit 30 = true then putBits new 7 0 0 else new
  ((if bad = [] then d else d.logWrite m x .reserved).setReg x new2).okay

/-- A write that a condition allows, else refused. -/
def Dev.writeIf (d : Dev) (ok : Bool) (m : Mst) (x : RKey) (v : Nat) : Dev := if ok then d.plainWrite m x v else d.refuse m x

/-- Writes of the ARY block (05 R156, 06 R188). -/
def Dev.wrAry (d : Dev) (m : Mst) (x : RKey) (v : Nat) (k : Clk) : Dev :=
  let c := clusterOf x.q x.i
  let mapped := d.pageMapped x.q x.i x.j
  match x.r with
  | .TMEM_OWN => xTmemOwn m x.q x.i x.j v d
  | .TMEM_CE_HI => if mapped then xWatermarkThresholdWrite m .tmem x.q x.i x.j true v d else d.refuse m x
  | .TMEM_CE_LO => if mapped then xWatermarkThresholdWrite m .tmem x.q x.i x.j false v d else d.refuse m x
  | .TMEM_NOCTO => d.writeIf mapped m x v
  | .AGREG => xAgreg m x.q x.i x.j x.k v d
  | .CLU_REGROW => xCluRegrow m c v k d
  | .CTX_CE_HI => xWatermarkThresholdWrite m .ctx x.q x.i 0 true v d
  | .CTX_CE_LO => xWatermarkThresholdWrite m .ctx x.q x.i 0 false v d
  | .GFP => xGfp m c x.j x.k v d
  | .SLOT_CMD => xSlotCmd m c x.j v k d
  | .SLOT_FOOT => xSlotFoot m c x.j v d
  | .SLOT_OID => xSlotOid m c x.j v d
  | .SLOT_FRAME => xSlotFrame m c x.j v d
  | .SLOT_EXIT => xSlotExit m c x.j v d
  | .SLOT_RUN => if d.anchored (slotId c x.j) then d.okay else d.refuse m x
  | .SLOT_FRAMES => if d.anchored (slotId c x.j) then d.okay else d.refuse m x
  | .SLOT_MAP => if d.anchored (slotId c x.j) then d.okay else d.refuse m x
  | .VP_CFG => xVpCfg m c x.j v d
  | .LPB => xLpb m c x.j v d
  | _ => d.plainWrite m x v

/-- REPAIR_CMD: a reserved CMD takes no action and is logged (07 LEAP-11). -/
def Dev.wrRepair (d : Dev) (m : Mst) (x : RKey) (v : Nat) : Dev :=
  match v % 4 with
  | 1 => xRepair m x.q x.i (bitsOf v 8 8) d
  | 2 => xRetrain m x.q x.i (bitsOf v 8 8) d
  | _ => (d.logWrite m x .reserved).okay

/-- Writes of LEAP, SEN, WIN, SCC, HBM and NOC (chapters 07, 09). -/
def Dev.wrMem (d : Dev) (m : Mst) (x : RKey) (v : Nat) : Dev :=
  let vp := senPort x.q x.i
  let idle := !(d.reg (R.JATTR.at x.q x.i x.j)).getLsbD 31
  match x.r with
  | .REPAIR_CMD => d.wrRepair m x v
  | .DIR_CFG => xDirCfg m x.q x.i x.j v d
  | .WIRE_FLAG => (d.plainWrite m x v).countFlags (brOf x.q x.i * 2 + x.j)
  | .SEN_CTRL => xSenCtrl m vp v d
  | .JADDR => d.writeIf idle m x v
  | .JLEN => d.writeIf idle m x v
  | .JTAG => d.writeIf idle m x v
  | .JATTR => xJattr m vp x.j v d
  | .WIN_ENT => xWinEnt m x.q x.i v d
  | .GRP_RATE => xGrpRate m x.q x.i v d
  | .NOC_WEIGHT => xNocWeight m x.q x.i v d
  | _ => d.plainWrite m x v

/-- Writes of DSP, CORE and BNK (chapters 10, 11). -/
def Dev.wrDsp (d : Dev) (m : Mst) (x : RKey) (v : Nat) (k : Clk) : Dev :=
  match x.r with
  | .DSP_CMD => xDspCmd m x.q v k d
  | .DSP_RDY_HI => xWatermarkThresholdWrite m .ready x.q 0 0 true v d
  | .DSP_RDY_LO => xWatermarkThresholdWrite m .ready x.q 0 0 false v d
  | .DSP_DLY_HI => xWatermarkThresholdWrite m .delay x.q 0 0 true v d
  | .DSP_DLY_LO => xWatermarkThresholdWrite m .delay x.q 0 0 false v d
  | .DSP_REPL => xDspRepl m x.q x.i false v d
  | .DSP_REPL_EN => xDspRepl m x.q x.i true v d
  | .CORE_CTRL => xCoreCtrl m (x.q * 16 + x.i) v k d
  | .BNK_OWNER => xBnkOwner m (x.q * 16 + x.i) v d
  | .BNK_CE_HI => xWatermarkThresholdWrite m .bank x.q x.i 0 true v d
  | .BNK_CE_LO => xWatermarkThresholdWrite m .bank x.q x.i 0 false v d
  | _ => d.plainWrite m x v

/-- An MSI-X table entry is written: entries beyond the vector count drop it; what it unmasks is sent (13 R369). -/
def Dev.wrMsix (d : Dev) (m : Mst) (x : RKey) (v : Nat) : Dev :=
  if x.j < d.vecCount x.i then (d.plainWrite m x v).msixUnmask x.i else d.okay

/-- Writes of EVT, MBX and function pages (chapters 12, 13). -/
def Dev.wrEvt (d : Dev) (m : Mst) (x : RKey) (v : Nat) : Dev :=
  match x.r with
  | .EVT_SWSET => xEvtSwset m x.q x.i v d
  | .EVT_ROUTE => xEvtRoute m x.q x.i v d
  | .EVT_TMR_CTRL => xEvtTmrCtrl m x.q x.i v d
  | .EVT_TMR_PERIOD => xEvtTmrPeriod m x.q x.i v d
  | .MBX_LOCK => xMbxLock m x.q x.i v d
  | .MBX_HLOCK => xMbxHlock m x.q x.i v d
  | .MBX_SPTR => xMbxSptr m x.q x.i v d
  | .MBX_SLT => xMbxSlt m x.q x.i v d
  | .MBX_WORD => xMbxWord m x.q x.i v d
  | .HMBX_SPTR => xMbxSptr m x.q (256 + x.i) v d
  | .HMBX_SLT => xMbxSlt m x.q (256 + x.i) v d
  | .HMBX_WORD => xMbxWord m x.q (256 + x.i) v d
  | .MBX_RPTR => d.mbxRecvWrite m x x.i
  | .MBX_RLT => d.mbxRecvWrite m x x.i
  | .HMBX_RPTR => d.mbxRecvWrite m x (256 + x.i)
  | .HMBX_RLT => d.mbxRecvWrite m x (256 + x.i)
  | .FN_MBX_SPTR => xMbxSptr m (x.i / 264) (256 + x.i % 264) v d
  | .FN_MBX_SLT => xMbxSlt m (x.i / 264) (256 + x.i % 264) v d
  | .FN_MBX_WORD => xMbxWord m (x.i / 264) (256 + x.i % 264) v d
  | .FN_MSIX => d.wrMsix m x v
  | _ => d.plainWrite m x v

/-- Writes of HIF, QE and doorbell pages (chapters 13, 14). -/
def Dev.wrHost (d : Dev) (m : Mst) (x : RKey) (v : Nat) (k : Clk) : Dev :=
  let off := !d.linkEn (8 * x.q + x.i)
  match x.r with
  | .HIF_LCTRL => xHifLctrl m (8 * x.q + x.i) v k d
  | .HIF_PCFG => d.writeIf (!(upTo 4).any (fun n => d.linkEn (8 * x.q + 4 * x.i + n))) m x v
  | .HIF_LCFG => d.writeIf off m x v
  | .HIF_VFCFG => d.writeIf off m x v
  | .HIF_VFBASE => d.writeIf off m x v
  | .HIF_IDCFG => d.writeIf off m x v
  | .SQ_TAIL => xSqTail m x.q x.i v k d
  | .CQ_HEAD => xCqHead m x.q x.i v k d
  | .QP_CTRL => xQpCtrl m x.q x.i v d
  | .SQ_BASE => d.writeIf (decide (d.qpState x.q x.i = 1)) m x v
  | .CQ_BASE => d.writeIf (decide (d.qpState x.q x.i = 1)) m x v
  | .QP_SIZE => d.writeIf (decide (d.qpState x.q x.i = 1)) m x v
  | .QE_FWDONE => xQeFwdone m x.q v k d
  | .QE_TONGUE_ARG => xTongueArg m v d
  | .QE_TONGUE_CMD => xTongueCmd m v k d
  | .QE_TONGUE_STAT => if tongueMst m then d.plainWrite m x v else d.refuseSource m x
  | .QP_WM_HI => xWatermarkThresholdWrite m .pair x.q x.i 0 true v d
  | .QP_WM_LO => xWatermarkThresholdWrite m .pair x.q x.i 0 false v d
  | _ => d.plainWrite m x v

/-- Writes of MSQ, NPH, TET and CAL (chapters 15 to 17). -/
def Dev.wrMedia (d : Dev) (m : Mst) (x : RKey) (v : Nat) (k : Clk) : Dev :=
  let ch := chanAt x.q x.i
  let n := x.q * 16 + x.i
  match x.r with
  | .MSQ_CHCFG => xMsqChcfg m ch v d
  | .MSQ_CHCTRL => if v.testBit 0 then xStop m ch v k d else xWpn m ch v d
  | .MSQ_POST => xMsqPost m ch v d
  | .MSQ_RRP => xMsqRrp m x.q x.i v d
  | .MSQ_RWM_HI => xWatermarkThresholdWrite m .ring x.q x.i 0 true v d
  | .MSQ_RWM_LO => xWatermarkThresholdWrite m .ring x.q x.i 0 false v d
  | .MSQ_PFCLR => xMsqPfclr m x.q v d
  | .MSQ_OPDARM => xMsqOpdarm m x.q v d
  | .MSQ_OPCAP => xMsqOpcap m x.q v d
  | .NPH_CFG => xNphCfg m n v d
  | .NPH_TRAIN => xNphTrain m n v d
  | .TET_LCTRL => if m.owner && v.testBit 1 then xTetRetrain m n v (xTetLctrl m n v k d) else xTetLctrl m n v k d
  | .TET_LCFG => d.writeIf (!(d.reg (tetReg n .TET_LCTRL)).getLsbD 0) m x v
  | .TET_MCMD => xTetMcmd m n v d
  | .CAL_CTRL => xCalCtrl m x.q v d
  | .CAL_TBASE => d.writeIf (!d.calEn x.q) m x v
  | .CAL_FRBASE => xCalFrbase m x.q x.i v d
  | .CAL_SWRP => xCalSwrp m x.q v d
  | .CAL_ECMD => xCalEcmd m x.q v k d
  | _ => d.plainWrite m x v

/-- Writes of FLS, the always-on block, RST, PWR and SYS (chapters 18 to 20): a limit outside its range is dropped. -/
def Dev.wrPower (d : Dev) (m : Mst) (x : RKey) (v : Nat) (k : Clk) : Dev :=
  let within (n a b : Nat) : Bool := decide (a ≤ n ∧ n ≤ b)
  match x.r with
  | .FLS_CMD => xFlsCmd m x.q v d
  | .AO_FAILOVER => xAoFailover m v d
  | .GOV_PL_LONG => d.writeIf (within (v % 65536) 200 950) m x v
  | .GOV_PL_SHORT => d.writeIf (within (v % 65536) 200 1250) m x v
  | .GOV_PL_PEAK => d.writeIf (within (v % 65536) 100 1400) m x v
  | .GOV_CFG => d.writeIf (within (bitsOf v 7 0) 60 110 && within (bitsOf v 11 8) 1 15 && within (bitsOf v 20 16) 1 10) m x v
  | .AVS_TRIM => d.writeIf (decide ((signedOf v 8).natAbs ≤ 20)) m x v
  | .RST_QCTL => xRstQctl m x.q v k d
  | .RST_CLU => xRstClu m x.q v k d
  | .PWR_DOM => xPwrDom m x.q x.i v d
  | .FLT_PPR_CMD => xFltPprCmd m x.q v d
  | _ => d.plainWrite m x v

/-- Writes of DBG, SER and block headers (chapters 21, 24); the DBG block admits the masters of R577. -/
def Dev.wrDebug (d : Dev) (m : Mst) (x : RKey) (v : Nat) (k : Clk) : Dev :=
  match x.r with
  | .BLK_LOCK => xBlkLock m x.q x.i v d
  | .DBG_CCMD => xDbgCcmd m x.q v d
  | .DBG_CREG_DATA => xDbgCregData m x.q true v k d
  | .PATCH_CTL => xPatchCtl m x.q x.i v d
  | .PATCH_DATA => xPatchData m x.q x.i x.j v d
  | .DBG_SHALT => xDbgShalt m v k d
  | .XT_FIRE => xXtFire m x.i v k d
  | .CAP_CTRL => xCapCtrl m v k d
  | .UART_TX => xUartTx m x.i v d
  | .UART_CFG => d.writeIf (decide (64 ≤ v % 2 ^ 20)) m x v
  | .SPI_CFG => xSpiCfg m x.i v d
  | .SPI_CMD => xSpiCmd m x.i v d
  | .SPI_DATA => d.writeIf (!(d.reg (R.SPI_STAT.at 0 x.i)).getLsbD 31) m x v
  | .I3C0_CFG => xI3c0Cfg m v d
  | .I3C0_CMD => xI3c0Cmd m v d
  | _ => if x.r.desc.blk = .DBG ∧ x.r.desc.acc ≠ .ro then d.dbgWrite m x (d.plainWrite m x v) else d.plainWrite m x v

/-- A write of a whole register: RWL registers of a locked block refuse it (00 R14, R619), else it acts as its row or
its access code says. -/
def Dev.regWrite (d : Dev) (m : Mst) (x : RKey) (v : Nat) (k : Clk) : Dev :=
  if x.r.desc.acc = .rwl ∧ d.locked x.r.desc.blk x.q = true then d.refuseAs m x .locked
  else match x.r.desc.blk with
  | .ARY => d.wrAry m x v k
  | .LEAP | .SEN | .WIN | .SCC | .HBM | .NOC => d.wrMem m x v
  | .DSP | .CORE | .BNK => d.wrDsp m x v k
  | .EVT | .MBX | .FN => d.wrEvt m x v
  | .HIF | .QE | .DB => d.wrHost m x v k
  | .MSQ | .NPH | .TET | .CAL => d.wrMedia m x v k
  | .FLS | .AO | .RST | .PWR | .SYS | .CLK | .FUSE => d.wrPower m x v k
  | .DBG | .SER | .HDR | .DW => d.wrDebug m x v k

/-! ### Accesses (20 R549–R552) -/

/-- Bytes of a register. -/
def regBytes (x : RKey) : Nat := if x.r.desc.wide then 8 else 4

/-- log2 of an access size in bytes, as FLT_AERR_LOG records it. -/
def sizeLog (n : Nat) : Nat := if n < 2 then 0 else if n < 4 then 1 else if n < 8 then 2 else 3

/-- Where an access falls: the quarter that logs it and the offset, or the always-on block. -/
structure Spot where
  q : Nat
  ao : Bool
  off : Nat
  deriving DecidableEq, Repr

/-- Log an access error at a place. -/
def Dev.spotErr (d : Dev) (m : Mst) (s : Spot) (k : AErr) (write : Bool) (size : Nat) : Dev :=
  d.accessErr k s.q m.mid write (sizeLog size) s.off s.ao

/-- An access that its target answers SLVERR, recorded where the place has a device address. -/
def Dev.spotFail (d : Dev) (m : Mst) (s : Spot) (addr : Option Nat) : Dev :=
  (match addr with
    | some a => d.nocErr s.q m.mid a .slverr
    | none => d).answer .slverr 0

/-- An access of 8 bytes or fewer that touches one register at most: reserved offsets read 0 and drop writes, a narrow
access follows R550, any other is performed. -/
def Dev.onePart (d : Dev) (m : Mst) (x : Option RKey) (s : Spot) (addr : Option Nat) (size : Nat) (write : Bool) (v : Nat)
    (k : Clk) : Dev :=
  match x with
  | none => d.answer .okay 0
  | some x =>
    if size < regBytes x then
      if write then
        if x.r = .FN_PBA ∧ size = 4 then d.okay
        else (d.spotErr m s .narrowWrite true size).spotFail m s addr
      else if d.readActs m x then (d.spotErr m s .narrowRead false size).answer .okay 0
      else
        let d1 := d.regRead m x k
        d1.answer d1.out.code (BitVec.ofNat 64 (d1.out.data.toNat / 256 ^ (s.off % regBytes x) % 256 ^ size))
    else if write then d.regWrite m x (v % 256 ^ size) k
    else d.regRead m x k

/-- An access to registers: `find` gives the register at an offset. More than 8 bytes and unaligned accesses are not
performed; 8 bytes over two 32-bit registers are two accesses, the low word first (R549–R551). -/
def Dev.regAccess (d : Dev) (find : Dev → Nat → Option RKey) (m : Mst) (s : Spot) (addr : Option Nat) (size : Nat)
    (write : Bool) (v : Nat) (k : Clk) : Dev :=
  if 8 < size then (d.spotErr m s .burst write 8).spotFail m s addr
  else if [1, 2, 4, 8].contains size = false ∨ s.off % size ≠ 0 then
    (d.spotErr m s (if write then .unalignedWrite else .unalignedRead) write size).spotFail m s addr
  else
    let x := find d s.off
    if size = 8 ∧ (x.map regBytes) ≠ some 8 then
      let lo := d.onePart m x s addr 4 write (v % 2 ^ 32) k
      let hi := lo.onePart m (find lo (s.off + 4)) { s with off := s.off + 4 } (addr.map (· + 4)) 4 write (v / 2 ^ 32 % 2 ^ 32) k
      hi.answer (lo.out.code.worse hi.out.code)
        (if write then 0 else BitVec.ofNat 64 (hi.out.data.toNat % 2 ^ 32 * 2 ^ 32 + lo.out.data.toNat % 2 ^ 32))
    else d.onePart m x s addr size write v k

/-- An access to a register by its device address, at its target (09 R249, R261, 24 R607–R613). -/
def Dev.regServe (d : Dev) (a : Access) (k : Clk) : Dev :=
  let o := a.addr % 2 ^ 24
  let q := if isAo a.addr then d.liveQ else (a.addr - 0xF000000000) / 2 ^ 24
  let s : Spot := ⟨q, isAo a.addr, o⟩
  if !isAo a.addr && inHole o then (d.nocErr q a.m.mid a.addr .decerr).answer .decerr 0
  else if !a.m.owner then d.spotFail a.m s (some a.addr)
  else if !isAo a.addr && absentAt q o then
    if a.write then (d.spotErr a.m s .refused true a.size).spotFail a.m s (some a.addr) else d.answer .okay 0
  else d.regAccess (fun x n => if isAo a.addr then aoRegAt n else x.qRegAt q n) a.m s (some a.addr) a.size a.write a.data k

end Sys2Proof.Machine
end

