-- ==== Sys2Proof/Machine/Noc.lean ====
section
/-! DEFINITION. Requests of masters (rows REGISTER_WRITE, NOC_REQUEST, BAR_REQUEST, DOMAIN_TRANSITION_DONE): the target of
an address, the wake of a basking domain, the BARs of a function (chapters 09, 13, 19). -/

namespace Sys2Proof.Machine

/-! ### Targets -/

/-- The quarter that serves a device address; none for an address in no row of MEM-1. -/
def Dev.targetQ (d : Dev) (a : Nat) : Option Nat :=
  if isHbm a then some (homeOf a)
  else if isTmem a then some (quarterOf (tileCluster (tmemPlace a).1))
  else if isBank a then some (bankOf a / 16)
  else if isFlash a then some (flashQuarter a)
  else if isQReg a then some ((a - 0xF000000000) / 2 ^ 24)
  else if isAo a then some d.liveQ
  else none

/-- The blocks that the wake island of a basking die serves: EVT and MBX (R527). -/
def onIsland (a : Nat) : Bool := isQReg a && (decide (a % 2 ^ 24 / 65536 = 0x05) || decide (a % 2 ^ 24 / 65536 = 0x07))

/-- The basking domains that a request wakes and waits for: the base dies of its route, and the stack of an HBM
address (R527). A request that meets an OFF die or stack, a reset or a sub-link that is DOWN wakes none. -/
def Dev.baskingOn (d : Dev) (a : Access) : List (Nat × Nat) :=
  match d.targetQ a.addr with
  | none => []
  | some t =>
    let s := d.midQuarter a.m.mid
    if !d.routeOk s t ∨ (isHbm a.addr = true ∧ d.domCur t (17 + stackOf a.addr) = 2) then []
    else
      let dies := (routeQuarters s t).filter (fun q => decide (d.domCur q 16 = 1) && !(decide (q = t) && onIsland a.addr))
      dies.map (fun q => (q, 16)) ++ (if isHbm a.addr ∧ d.domCur t (17 + stackOf a.addr) = 1 then [(t, 17 + stackOf a.addr)] else [])

/-! ### Service -/

/-- A request to the aperture queues at its bank (05 R147), or is refused there. -/
def Dev.tmemQueue (d : Dev) (a : Access) (tag epoch : Nat) : Dev :=
  let p := tmemPlace a.addr
  if !d.tmemOk a then
    let r := d.fail (quarterOf (tileCluster p.1)) a .slverr
    r.1.reply r.2
  else
    let words := (upTo (a.size / 8)).map (fun i => BitVec.ofNat 64 (a.data / 2 ^ (64 * i)))
    let r : TmemReq := { mid := a.m.mid, oid := a.m.oid, write := a.write, tile := p.1, bank := p.2.1, word := p.2.2,
                         data := if a.write then words else [], left := a.size / 8, collided := false, got := [],
                         tag := tag, epoch := epoch }
    { d with arr := { d.arr with tmemq := d.arr.tmemq ++ [r] } }

/-- A request to a register: its route, then its target. -/
def Dev.regRequest (d : Dev) (a : Access) (q : Nat) (k : Clk) : Dev :=
  if !d.routeOk (d.midQuarter a.m.mid) q then
    let r := d.fail q a .slverr
    r.1.reply r.2
  else d.regServe a k

/-- A request at its target, with its tag and epoch; memory bursts have the shape of R256. -/
def Dev.nocServeAs (d : Dev) (a : Access) (e : HbmErr) (k : Clk) (tag epoch : Nat) : Dev :=
  if isQReg a.addr || isAo a.addr then
    match d.targetQ a.addr with
    | some q => d.regRequest a q k
    | none => d
  else if !burstOk a then d
  else if isTmem a.addr then d.tmemQueue a tag epoch
  else
    let r := d.memAcc k a e
    r.1.reply r.2

/-- A request at its target, under the lowest free tag of its master. -/
def Dev.nocServe (d : Dev) (a : Access) (e : HbmErr) (k : Clk) : Dev :=
  d.nocServeAs a e k (d.freeTag a.m.mid) (d.epochOf a.m.mid)

/-- A request on the NoC: one that meets a basking domain wakes it and waits (R527). -/
def Dev.nocIssue (d : Dev) (a : Access) (e : HbmErr) (k : Clk) (tag epoch : Nat) : Dev :=
  match d.baskingOn a with
  | [] => d.nocServeAs a e k tag epoch
  | x :: r =>
    let d1 := (x :: r).foldl (fun y w => y.startWake w.1 w.2) d
    { d1 with waiters := d1.waiters ++ [⟨x.1, x.2, a, tag, epoch⟩] }

/-- NOC_REQUEST: held back by its master where it must be, else issued. -/
def xNocRequest (a : Access) (e : HbmErr) (k : Clk) (d : Dev) : Dev :=
  if d.mustHold a then d.hold a false e else d.nocIssue a e k (d.freeTag a.m.mid) (d.epochOf a.m.mid)

/-- A held request is issued, or held on. -/
def Dev.issueHeld (d : Dev) (k : Clk) (h : Held) : Dev :=
  if h.noalloc then xHbmAccess h.req true h.err d else xNocRequest h.req h.err k d

/-- Masters issue what they held back, in order, as far as they may. -/
def Dev.releaseHeld (d : Dev) (k : Clk) : Dev := d.held.foldl (fun x h => x.issueHeld k h) ({ d with held := [] } : Dev)

/-- A NoC request; with `fence` its master fences first (R258: a core's FENCE, a host's FENCE). -/
def execNocRequest (a : Access) (e : HbmErr) (fence : Bool) (s : State) : Host.Outcome State Fault Refusal :=
  let d1 := if fence then s.d.fence a.m.mid else s.d
  .next { s with d := s.d.unlessHaltedFor a.m (xNocRequest (s.d.issued a) e s.clk d1) }

/-- REGISTER_WRITE: an access to a register by its device address. -/
def xRegisterWrite (a : Access) (k : Clk) (d : Dev) : Dev :=
  if isQReg a.addr || isAo a.addr then xNocRequest a .none k d else d

/-- A register is accessed. -/
def execRegisterWrite (a : Access) (s : State) : Host.Outcome State Fault Refusal :=
  .next { s with d := s.d.unlessHaltedFor a.m (xRegisterWrite (s.d.issued a) s.clk s.d) }

/-- A waiting access to tile memory goes on; requests that its master held for it follow once it has ended. -/
def Dev.tmemTurn (d : Dev) (n : Nat) (k : Clk) (f : Dev → Dev) : Dev :=
  match d.arr.tmemq[n]? with
  | none => d
  | some r => (d.unlessStale r.mid r.epoch (f d)).releaseHeld k

/-- A NoC access to tile memory is performed. -/
def execTmemNocAccess (n : Nat) (s : State) : Host.Outcome State Fault Refusal :=
  .next { s with d := s.d.tmemTurn n s.clk (xTmemNocAccess n s.clk) }

/-- A NoC access to tile memory times out. -/
def execNocTimeout (n : Nat) (s : State) : Host.Outcome State Fault Refusal :=
  .next { s with d := s.d.tmemTurn n s.clk (xNocTimeout n) }

/-- A master's fence completes, and what it held is issued. -/
def execFenceCompletion (mid : Nat) (s : State) : Host.Outcome State Fault Refusal :=
  .next { s with d := s.d.unlessHalted ((xFenceCompletion mid s.d).releaseHeld s.clk) }

/-! ### The end of a domain's transition (R525–R527) -/

/-- DOMAIN_TRANSITION_DONE: the domain arrives, and the requests that waited for it are performed in their order. -/
def xDomainTransitionDone (q i : Nat) (k : Clk) (d : Dev) : Dev :=
  let d1 := d.domDone k q i
  if d1.domCur q i = 1 ∨ (d1.domTr q i).isSome = true then d1
  else
    let mine (w : Waiter) : Bool := decide (w.q = q) && decide (w.dom = i)
    let d2 := { d1 with waiters := d1.waiters.filter (fun w => !mine w) }
    ((d1.waiters.filter mine).foldl (fun x w =>
      x.unlessStale w.req.m.mid w.epoch (x.nocIssue w.req .none k w.tag w.epoch)) d2).releaseHeld k

/-- A domain's transition ends. -/
def execDomainTransitionDone (q dom : Nat) (s : State) : Host.Outcome State Fault Refusal :=
  .next { s with d := xDomainTransitionDone q dom s.clk s.d }

/-! ### BARs (13 R364, R368, R369, 24 R615) -/

/-- Whether a function answers memory requests to its BARs (R375, R377): Memory Space Enable, D0, no function reset. -/
def Dev.barOpen (d : Dev) (oid : Nat) : Bool := (d.fn oid).mse && !(d.fn oid).d3 && !(d.fn oid).reset

/-- A request to a doorbell page: queue `n` of the function, at its pair; a page without a pair reads 0 and drops
writes. -/
def Dev.dbAccess (d : Dev) (m : Mst) (oid L off size : Nat) (write : Bool) (v : Nat) (k : Clk) : Dev :=
  let find (x : Dev) (o : Nat) : Option RKey :=
    match x.qpOf oid (off / 4096) with
    | some p => dbRegAt p.1 p.2 o
    | none => none
  d.regAccess find m ⟨L / 8, false, off % 4096⟩ none size write v k

/-- A request that hits a BAR of a function, by the link that presents it. -/
def Dev.barServe (d : Dev) (L oid bar off size : Nat) (write : Bool) (v : Nat) (k : Clk) : Dev :=
  let m : Mst := ⟨0x500 + L, oid, write⟩
  let woken := d.wakeDom (L / 8) 16
  if bar = 2 then woken.dbAccess m oid L off size write v k
  else if oid = 0 then
    xNocRequest ⟨m, (if bar = 0 then 0xF000000000 else 0xF004000000) + off, size, write, v⟩ .none k d
  else woken.regAccess (fun _ o => fnRegAt oid o) m ⟨L / 8, false, off⟩ none size write v k

/-- What a request on a BAR comes to (R364): of a read, the response stands, SLVERR for Completer Abort and DECERR for
Unsupported Request, each logged in AER; a posted write is never answered, so the response before it stays. -/
def Dev.barEnd (d d0 : Dev) (L oid : Nat) (write : Bool) : Dev :=
  if write then { d with out := { d.out with code := d0.out.code, data := d0.out.data, burst := d0.out.burst } }
  else match d.out.code with
  | .slverr => d.fnError L oid 15
  | .decerr => d.fnError L oid 20
  | _ => d

/-- BAR_REQUEST: a function that does not answer gives Unsupported Request, the outcome of DECERR; a posted write to one in
D3hot or without Memory Space Enable is dropped and reported (R377). -/
def xBarRequest (oid bar off size : Nat) (write : Bool) (v : Nat) (k : Clk) (d : Dev) : Dev :=
  match d.linkOf oid with
  | none => d
  | some L =>
    if d.fnReached oid = false ∨ d.barSize oid bar ≤ off ∨ size = 0 then d
    else if !d.barOpen oid then (if write then d.fnError L oid 20 else (d.answer .decerr 0).barEnd d L oid false)
    else if d.domCur (L / 8) 16 = 2 ∨ d.inReset (L / 8) = true then (d.answer .slverr 0).barEnd d L oid write
    else (d.barServe L oid bar off size write v k).barEnd d L oid write

/-- A request on a BAR. -/
def execBarRequest (oid bar off size : Nat) (write : Bool) (data : Nat) (s : State) : Host.Outcome State Fault Refusal :=
  .next { s with d := s.d.unlessHalted (xBarRequest oid bar off size write data s.clk s.d) }

end Sys2Proof.Machine
end

