-- ==== Sys2Proof/Machine/Boot.lean ====
section
/-! DEFINITION. The course of a boot (chapter 18: rows PORST_N_RELEASE and SYSRST_N_RELEASE to CONF_DONE): source and slot
choice, the device configuration, the sections, the boot report. -/

namespace Sys2Proof.Machine

/-! ### A boot that fails (R508, R509) -/

/-- CONF_ERR with its code: the state of BOOT-8. CC0 of Q0 waits in the boot ROM, every other core is held in reset, the
clusters go OFF. -/
def Dev.bootFail (d : Dev) (now code : Nat) : Dev :=
  let d1 := d.confErr code
  let d2 := { d1 with arr := { d1.arr with frames := [], flight := [] }, boot := { d1.boot with on := false } }
  let d3 := ((upTo 64).filter (fun n => n ≠ 0)).foldl (fun x n => if (x.core n).st = .reset then x else x.coreReset now n) d2
  let d4 := (upTo 4).foldl (fun x q => (upTo 16).foldl (fun y l => (y.setDom q l 2).setDomTr q l none) x) d3
  (d4.linksFail now).linksReady

/-! ### The image (R501, R502) -/

/-- `n` bytes at offset `o` of an image, as a number, little-endian. -/
abbrev ImgRead := Nat → Nat → Nat

/-- The image of a flash slot as the boot engine sees it. -/
def Dev.slotImage (d : Dev) (q s : Nat) : ImgRead := fun o n => d.memN (flashBase q + s * 0x380000 + o) n

/-- The image on SPI0. -/
def spiImage (l : List Byte) : ImgRead := fun o n => leNat ((l.drop o).take n)

/-- The bytes at offset `o` of an image. -/
def imgBytes (g : ImgRead) (o n : Nat) : List Byte := (upTo n).map (fun i => BitVec.ofNat 8 (g (o + i) 1))

/-- A field of section entry `n` (BOOT-4). -/
def sectField (g : ImgRead) (n o w : Nat) : Nat := g (0x20 + 128 * n + o) w

/-- Whether section entry `n` meets BOOT-4 and the rules of R502 that concern it alone. -/
def sectOk (g : ImgRead) (n size : Nat) : Bool :=
  let f := sectField g n
  let ty := f 0 1
  let off := f 4 4
  let len := f 8 4
  let dest := f 0x10 8
  decide (1 ≤ ty ∧ ty ≤ 3) && decide (f 1 1 = 0) && decide (f 0xC 4 = 0) && decide (f 0x24 12 = 0) && decide (f 0x70 16 = 0)
    && (if ty = 2 then decide (f 2 2 < 64) else decide (f 2 2 = 0))
    && decide (off % 32 = 0) && decide (0x1000 ≤ off) && decide (len % 32 = 0) && decide (len ≠ 0) && decide (off + len ≤ size)
    && (if ty = 2 then decide (dest + len ≤ 0x80000) else if ty = 3 then decide (0x40000 ≤ dest ∧ dest + len ≤ 4 * hbmQuarter) else true)

/-- Check 2 of R504. -/
def imageFormat (g : ImgRead) : Bool :=
  let ns := g 6 2
  let size := g 8 4
  decide (g 4 2 / 256 = 1) && decide (1 ≤ ns ∧ ns ≤ 16) && decide (size ≤ 3584 * 1024)
    && decide (g 0x10 16 = 0) && decide (g 0x881 7 = 0) && decide (g 0x8E8 1816 = 0)
    && (upTo ns).all (fun n => sectOk g n size)
    && (upTo 16).all (fun n => decide (n < ns) || decide (sectField g n 0 128 = 0))
    && (upTo ns).all (fun n => decide (sectField g n 0 1 = 1) == decide (n = 0))
    && (upTo (ns - 1)).all (fun n => decide (sectField g n 4 4 + sectField g n 8 4 ≤ sectField g (n + 1) 4 4))

/-- Section entry `n`. -/
def imageSec (g : ImgRead) (n : Nat) : BootSec :=
  let b := imgBytes g (0x20 + 128 * n)
  { type := sectField g n 0 1, core := sectField g n 2 2, off := sectField g n 4 4, len := sectField g n 8 4,
    dest := sectField g n 0x10 8, entry := b 128 }

/-- The sections behind CONFIG. -/
def imageSecs (g : ImgRead) : List BootSec := (upTo (g 6 2 - 1)).map (fun n => imageSec g (n + 1))

/-- Whether a section as stored has the DIGEST of its entry. -/
def BootSec.digestOk (s : BootSec) (c : List Byte) : Bool := decide (sha384 c = (s.entry.drop 0x40).take 48)

/-- A section decrypted under DEV_KEY, or none where its tag does not hold (R502). -/
def BootSec.opened (s : BootSec) (c : List Byte) : Option (List Byte) :=
  gcmOpen devKey ((s.entry.drop 0x18).take 12) (s.entry.take 0x30) ((s.entry.drop 0x30).take 16) c

/-- A section as the image holds it. -/
def BootSec.stored (s : BootSec) (g : ImgRead) : List Byte := imgBytes g s.off s.len

/-! ### The device configuration (R503) -/

/-- `n` bytes at offset `o` of a configuration. -/
def cfgField (c : List Byte) (o n : Nat) : Nat := leNat ((c.drop o).take n)

/-- Whether a configuration meets BOOT-5; GPOLICY is checked when it is applied. -/
def cfgOk (c : List Byte) : Bool :=
  let nw := cfgField c 6 2
  decide (cfgField c 0 4 = 0x43445950) && decide (cfgField c 4 2 = 1) && decide (nw ≤ 4000) && decide (c.length ≤ 65536)
    && decide (0x60 + 16 * nw ≤ c.length)
    && (upTo nw).all (fun w =>
      let a := cfgField c (0x60 + 16 * w) 8 % 2 ^ 48
      isQReg a || isAo a)

/-! ### Choosing an image (R504, R505) -/

/-- Whether KEY of an image has the fused hash (R501). -/
def imageKeyOk (g : ImgRead) : Bool := decide (sha384 (imgBytes g 0x820 97) = ownerKhash)

/-- Whether SIG signs the bytes before it under KEY (R501). -/
def imageSigOk (g : ImgRead) : Bool :=
  let n (o : Nat) : Nat := beNat (imgBytes g o 48)
  decide (g 0x820 1 = 4)
    && ecdsaOk (n 0x821) (n 0x851) (n 0x888) (n 0x8B8) (beNat (sha384 (imgBytes g 0 0x888)))

/-- The device configuration of an image: its first section decrypted, none where the tag does not hold. -/
def imageCfg (g : ImgRead) : Option (List Byte) := (imageSec g 0).opened ((imageSec g 0).stored g)

/-- The result of an attempt on an image (R504, BOOT-9: 0 OK): `spi` for the image on SPI0, of which only CONFIG has its DIGEST
checked here. -/
def tryImage (g : ImgRead) (spi unread : Bool) : Nat :=
  if unread then 8
  else if g 0 4 ≠ 0x49425950 then 1
  else if !imageFormat g then 3
  else if !imageKeyOk g then 4
  else if !imageSigOk g then 5
  else if !((imageSec g 0 :: (if spi then [] else imageSecs g)).all (fun s => s.digestOk (s.stored g))) then 6
  else match imageCfg g with
  | some c => if cfgOk c then 0 else 7
  | none => 7

/-- An ATT word of the boot report. -/
def attWord (source slot result seq : Nat) : Nat := source + slot * 2 ^ 8 + result * 2 ^ 16 + seq % 2 ^ 32 * 2 ^ 32

/-- The address of a mark of a slot: 0 TRIED, 1 CONFIRM, 2 REJECT (BOOT-2). -/
def markAddr (q s w : Nat) : Nat := flashBase q + 0x720000 + s * 0x8000 + 0x20 * w

/-- Whether a mark is set: its word reads anything other than erased. -/
def Dev.markSet (d : Dev) (q s w : Nat) : Bool := !d.erased (markAddr q s w) 32

/-- Set a mark. -/
def Dev.putMark (d : Dev) (q s w : Nat) : Dev := d.setMemN (markAddr q s w) 32 0

/-- Whether MAGIC of a slot is correct. -/
def Dev.slotMagic (d : Dev) (q s : Nat) : Bool := decide (d.slotImage q s 0 4 = 0x49425950)

/-- SEQ of a slot. -/
def Dev.slotSeq (d : Dev) (q s : Nat) : Nat := d.slotImage q s 0xC 4

/-- The image of a source is accepted: its sections and configuration, AO_STATUS and AO_SEQ. -/
def Dev.acceptImage (d : Dev) (source slot : Nat) (trial : Bool) (g : ImgRead) : Dev :=
  let d1 := { d with boot := { d.boot with
    source := source, slot := slot, trial := trial, seq := g 0xC 4, secs := imageSecs g,
    cfg := (imageCfg g).getD [] } }
  (((d1.setFld F.AO_STATUS_SOURCE source 0).setFld F.AO_STATUS_SLOT slot 0).setFld F.AO_STATUS_TRIAL (b2n trial) 0).setRegN
    (R.AO_SEQ.at 0) (g 0xC 4)

/-- Add an attempt to the report. -/
def Dev.addAtt (d : Dev) (w : Nat) : Dev := { d with boot := { d.boot with atts := d.boot.atts ++ [w] } }

/-- Try the slots of a list in order, until one is accepted (R505). -/
def Dev.trySlots (d : Dev) (q : Nat) (b : BootIn) : List Nat → Dev × Bool
  | [] => (d, false)
  | s :: r =>
    let i := (if q = 3 then 2 else 0) + s
    let g := d.slotImage q s
    let res := tryImage g false (b.unread.getD i true)
    let d1 := d.addAtt (attWord (q / 3) s res (d.slotSeq q s))
    if res = 0 then
      let trial := !d1.markSet q s 1
      let d2 := d1.acceptImage (q / 3) s trial g
      (if trial then d2.putMark q s 0 else d2, true)
    else d1.trySlots q b r

/-- One boot flash (R505): slots with a wrong MAGIC are EMPTY; a candidate that was tried and never confirmed gets its
REJECT mark; the others are tried in descending SEQ, slot A first when the values are equal. -/
def Dev.tryFlash (d : Dev) (q : Nat) (b : BootIn) : Dev × Bool :=
  let d1 := [0, 1].foldl (fun x s =>
    if x.slotMagic q s && !x.markSet q s 2 && x.markSet q s 0 && !x.markSet q s 1 then x.putMark q s 2 else x) d
  let d2 := [0, 1].foldl (fun x s =>
    if !x.slotMagic q s then x.addAtt (attWord (q / 3) s 1 0)
    else if x.markSet q s 2 then x.addAtt (attWord (q / 3) s 2 (x.slotSeq q s)) else x) d1
  let left := [0, 1].filter (fun s => d2.slotMagic q s && !d2.markSet q s 2)
  d2.trySlots q b (if left = [0, 1] ∧ d2.slotSeq q 0 < d2.slotSeq q 1 then [1, 0] else left)

/-- SOURCE_CHECK (R504): Q0's flash, Q3's flash, SPI0; the first accepted image is used. -/
def Dev.sourceCheck (d : Dev) (now : Nat) (b : BootIn) : Dev :=
  let r0 := d.tryFlash 0 b
  if r0.2 then r0.1
  else
    let r3 := r0.1.tryFlash 3 b
    if r3.2 then r3.1
    else
      let g := spiImage b.spi
      let res := tryImage g true (b.unread.getD 4 true)
      let d1 := r3.1.addAtt (attWord 2 0 res (if res = 1 then 0 else g 0xC 4))
      if res = 0 then d1.acceptImage 2 0 false g else d1.bootFail now 0x11

/-! ### PORST_N_RELEASE, SYSRST_N_RELEASE, PLL_LOCK (R506, 19 R518) -/

/-- A boot begins. -/
def Dev.bootStart (d : Dev) (cause : Nat) : Dev :=
  { d with porst := false, sysrst := false, boot := { Boot.none with on := true, cause := cause } }

/-- PORST_N_RELEASE: the self-check and the fuses of stage 1, then the choice of a source. When Q0's always-on domain fails
its self-check, Q3's is the live one and drives CONF_ERR (BOOT-7). -/
def xPorstNRelease (b : BootIn) (k : Clk) (d : Dev) : Dev :=
  if !d.porst then d
  else
    let d1 := d.bootStart 0
    if !b.selftest then (d1.setFld F.AO_STATUS_LIVE 3 0).bootFail k.tick 0x01
    else if !b.fuses then ((upTo 4).foldl (fun x q => x.setBit (R.FUSE_STAT.at q) 30 true) d1).bootFail k.tick 0x02
    else d1.sourceCheck k.tick b

/-- PORST_N is released. -/
def execPorstNRelease (b : BootIn) (s : State) : Host.Outcome State Fault Refusal :=
  .next { s with d := xPorstNRelease b s.clk s.d }

/-- SYSRST_N_RELEASE: boot starts at stage 2. -/
def xSysrstNRelease (b : BootIn) (k : Clk) (d : Dev) : Dev :=
  if !d.sysrst ∨ d.porst = true then d else (d.bootStart 1).sourceCheck k.tick b

/-- SYSRST_N is released. -/
def execSysrstNRelease (b : BootIn) (s : State) : Host.Outcome State Fault Refusal :=
  .next { s with d := xSysrstNRelease b s.clk s.d }

/-- PLL_LOCK: during a boot, Q0 first. The quarter's base die leaves reset, its home banks are cleared after PORST_N (11
R331), and in Q0 CC0 is released into the boot ROM; once all four are locked the bridges train. A PLL that does not lock ends
the boot. -/
def xPllLock (q : Nat) (ok : Bool) (k : Clk) (d : Dev) : Dev :=
  if d.boot.on = false ∨ 4 ≤ q ∨ d.flag F.CLK_STAT_LOCK q = true ∨ (q ≠ 0 ∧ d.flag F.CLK_STAT_LOCK 0 = false) then d
  else if !ok then d.bootFail k.tick 0x03
  else
    let d1 := d.setFld F.CLK_STAT_LOCK 1 q
    let d1a := if (upTo 4).all (fun p => d1.flag F.CLK_STAT_LOCK p) then d1.bridgesStart else d1
    let d2 := if d1.boot.cause = 0 then (coresOf q).foldl (fun x n => x.setBit (coreReg n .BNK_STAT) 0 true) d1a else d1a
    if q = 0 then (d2.setRegN (coreReg 0 .CORE_CTRL) 0).coreRelease 0 else d2

/-- A ROOT PLL locks. -/
def execPllLock (q : Nat) (ok : Bool) (s : State) : Host.Outcome State Fault Refusal :=
  .next { s with d := xPllLock q ok s.clk s.d }

/-! ### HBM_TRAINING and the configuration (R503, R506, 19 R528) -/

/-- The writes of a configuration, in order; the second part tells whether every one was answered OKAY. -/
def Dev.cfgWrites (d : Dev) (c : List Byte) (k : Clk) : List Nat → Dev × Bool
  | [] => (d, true)
  | w :: r =>
    let o := 0x60 + 16 * w
    let a := cfgField c o 8
    let size := if a.testBit 63 then 8 else 4
    let d1 := d.nocServe ⟨⟨0x4C1, 0, false⟩, a % 2 ^ 48, size, true, cfgField c (o + 8) size⟩ .none k
    if d1.out.code = .okay then d1.cfgWrites c k r else (d1, false)

/-- CONFIGURATION_APPLY: GPOLICY first, clusters ON, the writes, GKHASH and GPOLICY, the retirements. -/
def Dev.cfgApply (d : Dev) (k : Clk) : Dev :=
  let c := d.boot.cfg
  let gp := cfgField c 0x38 1
  let retired := cfgField c 0x40 8
  if 1 < gp ∨ (gp = 1 ∧ cfgField c 8 48 = 0) then d.bootFail k.tick 0x12
  else
    let d1 := { d with boot := { d.boot with loaded := true } }
    let d2 := ((upTo 64).filter (fun n => !retired.testBit n)).foldl (fun x n => x.domStart (quarterOf n) (localOf n) 0) d1
    let r := d2.cfgWrites c k (upTo (cfgField c 6 2))
    if r.2 = false then r.1.bootFail k.tick 0x12
    else
      let d3 := (upTo 12).foldl (fun x w => x.setRegN (R.AO_GKHASH.at 0 w) (cfgField c (8 + 4 * w) 4)) r.1
      let d4 := d3.setRegN (R.AO_GPOLICY.at 0) gp
      ((upTo 64).filter (fun n => retired.testBit n)).foldl (fun x n => x.retire k.tick n) d4

/-- Whether stage 4 of a boot is behind it: every PLL locked, the bridges trained, DTIME aligned. -/
def Dev.stage4 (d : Dev) (k : Clk) : Bool :=
  d.boot.on && k.started && (upTo 4).all (fun q => d.flag F.CLK_STAT_LOCK q) && (upTo 8).all (fun x => d.nslUp x)

/-- HBM_TRAINING: the stacks train; those that fail (2·quarter + stack) end the boot. Then the configuration is applied. -/
def xHbmTraining (fails : List Nat) (k : Clk) (d : Dev) : Dev :=
  if !d.stage4 k ∨ d.boot.loaded = true then d
  else
    let d1 := (upTo 8).foldl (fun x n => x.setFld F.HBM_STAT_TRAIN (if fails.contains n then 3 else 2) (n / 2) (n % 2)) d
    if (upTo 8).any (fun n => fails.contains n) then d1.bootFail k.tick 0x31 else d1.cfgApply k

/-- The HBM stacks train. -/
def execHbmTraining (fails : List Nat) (s : State) : Host.Outcome State Fault Refusal :=
  .next { s with d := xHbmTraining fails s.clk s.d }

/-! ### CONF_DONE (R506, R507, R510) -/

/-- Every molt that waits in a quarter ends. -/
def Dev.drainMolts (d : Dev) (q : Nat) : Dev := (upTo (d.moltQ q).length).foldl (fun x _ => xWindowMolt q x) d

/-- A window is bound to OID 0, and so molted if that changes its binding. -/
def Dev.bootBind (d : Dev) (w : Nat) : Dev :=
  let q := w / winPerQuarter Config.order
  ((d.drainMolts q).winEntSet q (w % winPerQuarter Config.order) (2 ^ 31)).drainMolts q

/-- Write bytes with MID 0x4C1 in bursts that stay within 512 bytes; false once one is answered with an error. -/
def Dev.bootWrite (d : Dev) (a : Nat) (bs : List Byte) : Nat → Dev × Bool
  | 0 => (d, true)
  | n + 1 =>
    if bs = [] then (d, true)
    else
      let len := Nat.min bs.length (512 - a % 512)
      let r := d.memIdle (wrReq 0x4C1 0 a len (leNat (bs.take len)))
      if r.2.code = .okay then r.1.bootWrite (a + len) (bs.drop len) n else (r.1, false)

/-- The windows that the HBM sections touch. -/
def secWindows (l : List BootSec) : List Nat :=
  (l.flatMap (fun s =>
    if s.type = 3 then (upTo ((s.dest + s.len - 1) / 2 ^ 21 - s.dest / 2 ^ 21 + 1)).map (fun i => s.dest / 2 ^ 21 + i) else [])).dedup

/-- A section as stage 7 reads it from the source of the boot. -/
def Dev.bootStored (d : Dev) (s : BootSec) (x : SecIn) : List Byte :=
  if d.boot.source = 2 then x.spi else s.stored (d.slotImage (3 * d.boot.source) d.boot.slot)

/-- What a section holds, once its DIGEST and its tag are checked; none where it cannot be read or one of them fails. -/
def Dev.bootSection (d : Dev) (s : BootSec) (x : SecIn) : Option (List Byte) :=
  let c := d.bootStored s x
  if x.unread || !s.digestOk c then none else s.opened c

/-- The sections decrypted into place; false once one fails. -/
def Dev.bootSections (d : Dev) : List (BootSec × SecIn) → Dev × Bool
  | [] => (d, true)
  | (s, x) :: r =>
    match d.bootSection s x with
    | none => (d, false)
    | some data =>
      let a := if s.type = 2 then bankBase s.core + s.dest else s.dest
      let w := d.bootWrite a data (data.length + 1)
      if w.2 then w.1.bootSections r else w

/-- The header word of an OPDUMP half, if it is valid (15 MED-7). -/
def Dev.dumpHeader (d : Dev) (q half : Nat) : Option Nat :=
  let h := d.memN (dumpBase q half) 32
  if h % 2 ^ 32 = 0x4844504F then some h else none

/-- Whether the completion word of a half is valid: magic, SEQ and COUNT of the header, CRC over the header and the records
(15 R442, MED-7). -/
def Dev.dumpComplete (d : Dev) (q half h : Nat) : Bool :=
  let w := d.memN (dumpBase q half + 32) 32
  let count := bitsOf h 143 128
  let body := d.bytes (dumpBase q half) 32 ++ d.bytes (dumpBase q half + 64) (32 * count)
  decide (w % 2 ^ 32 = 0x4544504F) && decide (bitsOf w 63 32 = bitsOf h 63 32) && decide (bitsOf w 79 64 = count)
    && decide (count ≤ 2046) && decide (bitsOf w 127 96 = crc32c body)

/-- The half that R443 selects, with its header: the valid header of the highest SEQ, half 0 when the values are equal. -/
def Dev.dumpChoice (d : Dev) (q : Nat) : Option (Nat × Nat) :=
  match d.dumpHeader q 0, d.dumpHeader q 1 with
  | some a, some b => if bitsOf a 63 32 < bitsOf b 63 32 then some (1, b) else some (0, a)
  | some a, none => some (0, a)
  | none, some b => some (1, b)
  | none, none => none

/-- DUMP(i) of the boot report. -/
def Dev.dumpEntry (d : Dev) (i : Nat) : List Byte :=
  let q := 3 * i
  match d.dumpChoice q with
  | none => leBytes 0 32
  | some (half, h) =>
    leBytes ((if d.dumpComplete q half h then 1 else 2) + half * 2 ^ 8 + bitsOf h 63 32 * 2 ^ 32 + bitsOf h 159 128 * 2 ^ 64
      + bitsOf h 127 64 * 2 ^ 128 + (0x10000 + i * 0x10000) * 2 ^ 192) 32

/-- The head of the boot report, 0xC0 bytes (BOOT-9); ELAPSED is `us`. -/
def Dev.reportHead (d : Dev) (us : Nat) : List Byte :=
  let b := d.boot
  leBytes (0x52425950 + b.cause * 2 ^ 32 + b.source * 2 ^ 40 + b.slot * 2 ^ 48
      + (b2n b.trial + 2 * b2n (decide (d.liveQ = 3))) * 2 ^ 56) 8
    ++ leBytes b.seq 4 ++ leBytes us 4 ++ leBytes b.atts.length 16
    ++ leBytes ((b.atts.zip (upTo 5)).foldl (fun a w => a + w.1 * 2 ^ (64 * w.2)) 0) 96
    ++ d.dumpEntry 0 ++ d.dumpEntry 1

/-- BOOT_REPORT: window 0 bound to OID 0, the report and the copies of the chosen halves written. Microseconds are not
fixed by TICK, whose rate before lock is open (19 R520): a free value within the bound of stage 8. -/
def Dev.bootReport (d : Dev) : Dev :=
  let d0 := d.bootBind 0
  let d1 := d0.fresh.2
  let us := d0.fresh.1.toNat % 1500001
  let head := d1.reportHead us
  let d2 := (d1.bootWrite 0 head 2).1
  let d3 := (upTo 2).foldl (fun x i => match x.dumpChoice (3 * i) with
    | some (half, _) => (x.bootWrite (0x10000 + i * 0x10000) (x.bytes (dumpBase (3 * i) half) 0x10000) 129).1
    | none => x) d2
  d3.setRegN (R.AO_RPT.at 0) 0

/-- Cores named by RELEASE but CC0 of Q0 leave reset; CC0 leaves the ROM with a0 = the address of the report (R507). -/
def Dev.bootRelease (d : Dev) (mask : Nat) : Dev :=
  let d1 := ((onesOf mask 64).filter (fun n => n ≠ 0)).foldl (fun x n => (x.setRegN (coreReg n .CORE_CTRL) 0).coreRelease n) d
  d1.setCore 0 { Core.zero.setState 0 (d1.regN (coreReg 0 .CORE_RSTVEC)) true false with st := .run }

/-- Whether CONF_DONE can be reached: the configuration applied, no home bank being cleared, and what each section holds. -/
def Dev.doneReady (d : Dev) (secs : List SecIn) : Bool :=
  d.boot.on && d.boot.loaded && !(upTo 64).any (fun n => d.bnkMolting n) && decide (secs.length = d.boot.secs.length)
    && (d.boot.secs.zip secs).all (fun x => decide (d.boot.source ≠ 2) || x.2.unread || decide (x.2.spi.length = x.1.len))

/-- CONF_DONE: stages 7 and 8. -/
def xConfDone (secs : List SecIn) (k : Clk) (d : Dev) : Dev :=
  if !d.doneReady secs then d
  else
    let d1 := (secWindows d.boot.secs).foldl (fun x w => x.bootBind w) d
    let r := d1.bootSections (d1.boot.secs.zip secs)
    if r.2 = false then r.1.bootFail k.tick 0x13
    else
      let d2 := r.1.bootReport.bootRelease (cfgField d.boot.cfg 0x48 8)
      let d3 := { d2 with boot := { d2.boot with on := false } }
      ((d3.setFld F.AO_STATUS_CONF 1 0).setFld F.AO_STATUS_CODE 0 0).linksReady

/-- CONF_DONE asserts. -/
def execConfDone (secs : List SecIn) (s : State) : Host.Outcome State Fault Refusal :=
  .next { s with d := xConfDone secs s.clk s.d }

end Sys2Proof.Machine
end

