-- ==== Sys2Proof/Machine/Copy.lean ====
section
/-! DEFINITION. COPY and FILL of the queue engine (14 QUE-9, R392): elements of 8 bytes moved by the slice's engine with
the function's OID, in ascending order; the first failure ends the command with the status of its MEM-6 code. -/

namespace Sys2Proof.Machine

/-- One access of a slice's engine to any device address. -/
def Dev.engAcc (d : Dev) (a : Access) (noalloc : Bool) (e : HbmErr) (k : Clk) : Dev × Ans :=
  if isHbm a.addr then d.hbm a noalloc e
  else if isQReg a.addr || isAo a.addr then
    let x := d.nocServe a e k
    (x, ⟨x.out.code, leBytes x.out.data.toNat 8⟩)
  else d.memAcc k a e

/-- The pieces of host memory of a reference. -/
def BufRef.segs (b : BufRef) (sgl : List (Nat × Nat × Nat)) : List (Nat × Nat) :=
  if b.sgl then (sgl.filter (fun x => !x.2.2.testBit 1)).map (fun x => (x.1, x.2.1)) else [(b.addr, b.len)]

/-- The MEM-6 code with which a reference fails before its first element: its host requests or its scatter list. -/
def Dev.bufCode (d : Dev) (oid : Nat) (b : BufRef) (sgl : List (Nat × Nat × Nat)) (ans : HostAns) : Nat :=
  if b.space ≠ 1 then 0
  else if hostCode (d.fnIssues oid) ans ≠ 0 then hostCode (d.fnIssues oid) ans
  else if b.sgl ∧ sglOk sgl b.len = false then 6
  else 0

/-- Element `off` of an input reference: its code, its value, the state after the read. -/
def Dev.bufGet (d : Dev) (q oid : Nat) (b : BufRef) (ans : HostAns) (off : Nat) (e : HbmErr) (k : Clk) : Nat × Nat × Dev :=
  if b.space = 1 then
    let v := match ans with
      | .data w => w / 2 ^ (8 * off) % 2 ^ 64
      | _ => 0
    (0, v, d)
  else
    let a := b.addr % 2 ^ 48 + off
    let x := d.engAcc (rdReq (sliceMid q) oid a 8) (b.attr.testBit 4) e k
    (x.1.devCode ⟨sliceMid q, oid, false⟩ a false e x.2.code, leNat x.2.data, x.1)

/-- Write element `off` of an output reference: its code and the state after it. -/
def Dev.bufPut (d : Dev) (q oid : Nat) (b : BufRef) (segs : List (Nat × Nat)) (off v : Nat) (e : HbmErr) (k : Clk) : Nat × Dev :=
  if b.space = 1 then (0, d.send (.hostWrite oid (segAddr segs off) (leBytes v 8)))
  else
    let a := b.addr % 2 ^ 48 + off
    let x := d.engAcc (wrReq (sliceMid q) oid a 8 v) (b.attr.testBit 4) e k
    (d.devCode ⟨sliceMid q, oid, false⟩ a true e x.2.code, x.1)

/-- Move `n` elements from element `i` on: the code of the first failure, the bytes moved, the state. `get` reads an
element, `put` writes one. -/
def Dev.moveEls (d : Dev) (get : Dev → Nat → Nat × Nat × Dev) (put : Dev → Nat → Nat → Nat × Dev) (i : Nat) : Nat → Nat × Nat × Dev
  | 0 => (0, 8 * i, d)
  | n + 1 =>
    let x := get d (8 * i)
    if x.1 ≠ 0 then (x.1, 8 * i, x.2.2)
    else
      let y := put x.2.2 (8 * i) x.2.1
      if y.1 ≠ 0 then (y.1, 8 * i, y.2) else y.2.moveEls get put (i + 1) n

/-- COPY: BUF0 to BUF1. `ans0` is what host memory returns for BUF0, `ans1` how host requests for BUF1 end. -/
def xCopy (q r : Nat) (sgl0 sgl1 : List (Nat × Nat × Nat)) (ans0 ans1 : HostAns) (e : HbmErr) (clk : Clk) (d : Dev) : Dev :=
  d.start q r 0x02 (fun k c =>
    let oid := d.qpOid q c.qp
    let b0 := sqBuf c.ent 0
    let b1 := sqBuf c.ent 1
    let c0 := d.bufCode oid b0 sgl0 ans0
    let c1 := d.bufCode oid b1 sgl1 ans1
    if c0 ≠ 0 then d.endCmd k (memStatus c0) 0
    else if c1 ≠ 0 then d.endCmd k (memStatus c1) 0
    else
      let m := d.moveEls (fun x o => x.bufGet q oid b0 ans0 o (if o = 0 then e else .none) clk)
        (fun x o v => x.bufPut q oid b1 (b1.segs sgl1) o v .none clk) 0 (b0.len / 8)
      m.2.2.endCmd k (memStatus m.1) m.2.1)

/-- The COPY of a record. -/
def execCopy (q r : Nat) (sgl0 sgl1 : List (Nat × Nat × Nat)) (ans0 ans1 : HostAns) (e : HbmErr) (s : State) :
    Host.Outcome State Fault Refusal :=
  .next { s with d := s.d.unlessHalted (xCopy q r sgl0 sgl1 ans0 ans1 e s.clk s.d) }

/-- FILL: the pattern of bytes 32 to 39 repeated over BUF0. `e` is the error that the first write meets. -/
def xFill (q r : Nat) (sgl : List (Nat × Nat × Nat)) (ans : HostAns) (e : HbmErr) (clk : Clk) (d : Dev) : Dev :=
  d.start q r 0x03 (fun k c =>
    let oid := d.qpOid q c.qp
    let b := sqBuf c.ent 0
    let c0 := d.bufCode oid b sgl ans
    let pat := c.ent / 2 ^ 256 % 2 ^ 64
    if c0 ≠ 0 then d.endCmd k (memStatus c0) 0
    else
      let m := d.moveEls (fun x _ => (0, pat, x)) (fun x o v => x.bufPut q oid b (b.segs sgl) o v (if o = 0 then e else .none) clk) 0 (b.len / 8)
      m.2.2.endCmd k (memStatus m.1) m.2.1)

/-- The FILL of a record. -/
def execFill (q r : Nat) (sgl : List (Nat × Nat × Nat)) (ans : HostAns) (e : HbmErr) (s : State) :
    Host.Outcome State Fault Refusal :=
  .next { s with d := s.d.unlessHalted (xFill q r sgl ans e s.clk s.d) }

end Sys2Proof.Machine
end

