-- ==== Sys2Proof/Machine/DebugPort.lean ====
section
/-! DEFINITION. The Dweaz debug port (chapter 21: rows RGET to BUS_ACCESS_COMPLETE): frames, authentication, bus accesses. A
command stands for a frame; the status it is answered with, and the data and CRC of a read, leave the chip as a message. -/

namespace Sys2Proof.Machine

/-! ### Frames (R555–R559) -/

/-- One bit into the CRC-8 of R559: x^8 + x^2 + x + 1, bit 7 the coefficient of x^7. -/
def crc8Bit (c : Nat) (b : Bool) : Nat :=
  let fb := c.testBit 7 != b
  let s := c * 2 % 256
  if fb then s ^^^ 7 else s

/-- The CRC-8 over the 16 header bits and the 32 data bits, in the order sent. -/
def crc8 (hdr data : Nat) : Nat :=
  (upTo 32).foldl (fun c i => crc8Bit c (data.testBit i)) ((upTo 16).foldl (fun c i => crc8Bit c (hdr.testBit i)) 0xFF)

/-- Whether the port works: not after a failover (BOOT-11). -/
def Dev.dwUsable (d : Dev) : Bool := !d.failedOver

/-- A frame is answered with a status: 0 FAULT, 1 WAIT, 2 DENY, 3 OK. -/
def Dev.dwStatus (d : Dev) (s : Nat) : Dev := d.send (.dweaz s none)

/-- A read is answered with data and CRC. -/
def Dev.dwData (d : Dev) (hdr v : Nat) : Dev := d.send (.dweaz 3 (some (v % 2 ^ 32, crc8 hdr (v % 2 ^ 32))))

/-- The access level (R561). -/
def Dev.dwLevel (d : Dev) : Nat := d.fld F.DW_STAT_LEVEL 0

/-- Whether a bus access runs. -/
def Dev.dwBusy (d : Dev) : Bool := d.dwBus.isSome

/-- STAT: its stored fields, and what it derives. -/
def Dev.dwStat (d : Dev) : Nat :=
  let w := d.regN (R.DW_STAT.at 0)
  let low := bitsOf w 31 27 * 2 ^ 27 + bitsOf w 25 24 * 2 ^ 24 + bitsOf w 19 16 * 2 ^ 16
  low + b2n d.dwBusy * 2 ^ 26 + b2n d.sysHalt * 2 ^ 23 + b2n ((upTo 64).any (fun n => (d.core n).halted)) * 2 ^ 22
    + b2n d.confFailed * 2 ^ 21 + b2n d.safe * 2 ^ 20

/-- What the port does with a header that is not answered at all, is answered FAULT, or names a register (R557, R559): none
for no answer, `false` for FAULT, `true` to go on. -/
def Dev.dwHeader (d : Dev) (hdr cmd : Nat) : Option Bool :=
  if !d.dwUsable ∨ bitsOf hdr 15 14 ≠ 0 then none
  else
    let stat := decide (bitsOf hdr 7 3 = 0x10 ∧ bitsOf hdr 13 8 = 0x03)
    some (decide (hdr % 8 = 5) && decide (bitsOf hdr 7 3 = cmd) && (!d.flag F.DW_STAT_CRCERR 0 || stat))

/-! ### Authentication (R562, R563) -/

/-- Ticks of 10 s, for the expiry of a nonce. -/
def nonceLife : Nat := 15625000 * orderAclk Config.order

/-- A SUBMIT that fails: AFAILS, lockout. -/
def Dev.authFail (d : Dev) : Dev :=
  (d.setFld F.DW_STAT_AFAILS (satAdd (d.fld F.DW_STAT_AFAILS 0) 1 15) 0).setFld F.DW_STAT_AUTH 3 0

/-- AUTH_START: a fresh nonce is drawn for the level requested. -/
def xAuthStart (v : Nat) (k : Clk) (d : Dev) : Dev :=
  let lv := bitsOf v 9 8
  if !d.dwUsable then d
  else if d.fld F.DW_STAT_AUTH 0 = 3 then d.dwStatus 2
  else if d.fld F.DW_STAT_AUTH 0 = 2 then d.dwStatus 1
  else if lv = 0 ∨ lv = 3 then d.dwStatus 0
  else ({ d with auth := ⟨lv, k.tick, none, true, [], []⟩ }.setFld F.DW_STAT_AUTH 0 0).dwStatus 3

/-- Authentication starts. -/
def execAuthStart (v : Nat) (s : State) : Host.Outcome State Fault Refusal := .next { s with d := xAuthStart v s.clk s.d }

/-- NONCE_READY: twelve words of nonce. -/
def xNonceReady (words : List Nat) (d : Dev) : Dev :=
  if d.auth.live ∧ d.auth.nonce = none ∧ words.length = 12 then
    let ws := words.map (fun w => w % 2 ^ 32)
    { d with auth := { d.auth with nonce := some ws, drawn := ws } }.setFld F.DW_STAT_AUTH 1 0
  else d

/-- The nonce is ready. -/
def execNonceReady (words : List Nat) (s : State) : Host.Outcome State Fault Refusal :=
  .next { s with d := xNonceReady words s.d }

/-- NONCE: the next word, to the header given; WAIT before the nonce is ready. Past the twelfth the spec gives no word. -/
def Dev.dwNonce (d : Dev) (hdr : Nat) : Dev :=
  match d.auth.nonce with
  | none => d.dwStatus 1
  | some [] => d.fresh.2.dwData hdr d.fresh.1.toNat
  | some (w :: r) => { d with auth := { d.auth with nonce := some r } }.dwData hdr w

/-- A nonce word is read. -/
def xNonce (d : Dev) : Dev := if d.dwUsable then d.dwNonce 0x0685 else d

/-- A nonce word is read. -/
def execNonce (s : State) : Host.Outcome State Fault Refusal := .next { s with d := xNonce s.d }

/-- AUTH_DATA: the next word of the key and signature; one beyond 50 is kept to tell that there were more. -/
def xAuthData (v : Nat) (d : Dev) : Dev :=
  if d.dwUsable then { d with auth := { d.auth with words := (d.auth.words ++ [v % 2 ^ 32]).take 51 } }.dwStatus 3 else d

/-- A word of the key and signature is written. -/
def execAuthData (v : Nat) (s : State) : Host.Outcome State Fault Refusal := .next { s with d := xAuthData v s.d }

/-- AUTH_SUBMIT: verification starts, or fails at once for a nonce that is absent, used or expired, or a wrong number of
words. -/
def xAuthSubmit (_v : Nat) (k : Clk) (d : Dev) : Dev :=
  if !d.dwUsable then d
  else if d.fld F.DW_STAT_AUTH 0 = 3 then d.dwStatus 2
  else if d.fld F.DW_STAT_AUTH 0 = 2 then d.dwStatus 1
  else
    let good := d.auth.live && d.auth.nonce.isSome && decide (d.auth.words.length = 50) && decide (k.tick < d.auth.since + nonceLife)
    let d1 := { d with auth := { d.auth with live := false } }
    (if good then d1.setFld F.DW_STAT_AUTH 2 0 else d1.authFail).dwStatus 3

/-- The signature is submitted. -/
def execAuthSubmit (v : Nat) (s : State) : Host.Outcome State Fault Refusal := .next { s with d := xAuthSubmit v s.clk s.d }

/-- Words as bytes, four each, little-endian. -/
def wordBytes (ws : List Nat) : List Byte := ws.flatMap (fun w => (upTo 4).map (fun i => BitVec.ofNat 8 (w / 256 ^ i)))

/-- The message of 64 bytes that the probe signs (R562). -/
def Dev.authMsg (d : Dev) : List Byte :=
  wordBytes d.auth.drawn ++ (upTo 8).map (fun i => BitVec.ofNat 8 (Config.fuseUid.toNat / 256 ^ i))
    ++ [BitVec.ofNat 8 d.auth.want] ++ List.replicate 7 0

/-- The two checks of R562: the hash of the key, and the signature. -/
def Dev.authOk (d : Dev) : Bool := sigBlockOk (wordBytes (d.auth.words.take 50)) ownerKhash d.authMsg

/-- VERIFICATION_COMPLETE: the level is granted if the two checks pass. -/
def xVerificationComplete (d : Dev) : Dev :=
  if d.fld F.DW_STAT_AUTH 0 ≠ 2 then d
  else if d.authOk then (d.setFld F.DW_STAT_LEVEL d.auth.want 0).setFld F.DW_STAT_AUTH 0 0
  else d.authFail

/-- Verification ends. -/
def execVerificationComplete (s : State) : Host.Outcome State Fault Refusal :=
  .next { s with d := xVerificationComplete s.d }

/-- LOCKOUT_END. -/
def xLockoutEnd (d : Dev) : Dev := if d.fld F.DW_STAT_AUTH 0 = 3 then d.setFld F.DW_STAT_AUTH 0 0 else d

/-- The lockout ends. -/
def execLockoutEnd (s : State) : Host.Outcome State Fault Refusal := .next { s with d := xLockoutEnd s.d }

/-- AUTH_DROP: to a level lower than the one held; always allowed. -/
def xAuthDrop (v : Nat) (d : Dev) : Dev :=
  if !d.dwUsable then d
  else (if bitsOf v 9 8 < d.dwLevel then d.setFld F.DW_STAT_LEVEL (bitsOf v 9 8) 0 else d).dwStatus 3

/-- The level is lowered. -/
def execAuthDrop (v : Nat) (s : State) : Host.Outcome State Fault Refusal := .next { s with d := xAuthDrop v s.d }

/-! ### Bus accesses (R561, R564, R568) -/

/-- A register that OBSERVE does not read: mailbox notices and host mailbox pages, MSI-X tables, DBG_CREG_DATA (DBG-5). -/
def observeBars (r : R) : Bool :=
  match r with
  | .MBX_SPTR | .MBX_SLT | .MBX_RPTR | .MBX_RLT | .MBX_WORD | .HMBX_SPTR | .HMBX_SLT | .HMBX_RPTR | .HMBX_RLT | .HMBX_STAT
  | .HMBX_WORD | .FN_MSIX | .DBG_CREG_DATA => true
  | _ => false

/-- The MID of the port's accesses. -/
def dwMst : Mst := ⟨0x4C0, 0, false⟩

/-- Whether a range lies within a ring of `2^size` bytes at a base. -/
def inRing (a n base size : Nat) : Bool := decide (base / 4096 * 4096 ≤ a) && decide (a + n ≤ base / 4096 * 4096 + 2 ^ size)

/-- Whether OBSERVE may read `n` bytes at `a` (DBG-5). -/
def Dev.observeReads (d : Dev) (a n : Nat) : Bool :=
  if isQReg a || isAo a then
    let o := a % 2 ^ 24
    let q := (a - 0xF000000000) / 2 ^ 24
    let free (x : Option RKey) : Bool := match x with
      | none => true
      | some x => !d.readActs dwMst x && !observeBars x.r
    let at_ (o : Nat) : Option RKey := if isAo a then aoRegAt o else d.qRegAt q o
    free (at_ o) && (decide (n ≤ 4) || free (at_ (o + 4)))
  else (upTo 4).any (fun q =>
    inRing a n (d.regN (R.DSP_TRACE_BASE.at q)) (getBits (d.reg (R.DSP_TRACE_SIZE.at q)) 4 0)
      || inRing a n (d.regN (R.EVT_LOG_BASE.at q)) (getBits (d.reg (R.EVT_LOG_SIZE.at q)) 4 0))

/-- Whether the level held allows an access. -/
def Dev.dwAllows (d : Dev) (a : Access) : Bool :=
  decide (d.dwLevel = 2) || (decide (d.dwLevel = 1) && !a.write && d.observeReads a.addr a.size)

/-- The access that BUSCTL = `v` with GO would start. -/
def Dev.dwAccess (d : Dev) (v : Nat) : Access :=
  { m := dwMst, addr := bitsOf (d.regN (R.DW_ADDR_HI.at 0)) 15 0 * 2 ^ 32 + d.regN (R.DW_ADDR_LO.at 0) % 2 ^ 32,
    size := if bitsOf v 29 28 = 0 then 4 else 8, write := v.testBit 30,
    data := d.regN (R.DW_DATA.at 0) % 2 ^ 32 + (if bitsOf v 29 28 = 0 then 0 else d.regN (R.DW_DATA_HI.at 0) % 2 ^ 32 * 2 ^ 32) }

/-- BUSCTL is written. -/
def xBusctl (v : Nat) (d : Dev) : Dev :=
  if !d.dwUsable then d
  else if d.dwLevel = 0 then d.dwStatus 2
  else if d.dwBusy then d.dwStatus 1
  else if 1 < bitsOf v 29 28 then d.dwStatus 0
  else
    let d1 := d.setRegN (R.DW_BUSCTL.at 0) (v &&& 0x78000000)
    if v.testBit 31 = false then d1.dwStatus 3
    else if !d.dwAllows (d.dwAccess v) then d.dwStatus 2
    else { d1 with dwBus := some (d.dwAccess v), dwFault := false }.dwStatus 3

/-- A bus access is to start. -/
def execBusctl (v : Nat) (s : State) : Host.Outcome State Fault Refusal := .next { s with d := xBusctl v s.d }

/-- A bus access is performed: the state, the response and the data. -/
def Dev.dwPerform (d : Dev) (a : Access) (e : HbmErr) (k : Clk) : Dev × RespCode × Nat :=
  if isQReg a.addr || isAo a.addr then
    match d.targetQ a.addr with
    | some q =>
      let d1 := d.regRequest a q k
      (d1, d1.out.code, d1.out.data.toNat)
    | none => (d, .decerr, 0)
  else
    let r := d.memAcc k a e
    (r.1, r.2.code, leNat r.2.data)

/-- AUTOINC: the address advances by the size. -/
def Dev.dwAdvance (d : Dev) (a : Access) : Dev :=
  if (d.reg (R.DW_BUSCTL.at 0)).getLsbD 27 then
    let n := (a.addr + a.size) % 2 ^ 48
    (d.setRegN (R.DW_ADDR_LO.at 0) (n % 2 ^ 32)).setRegN (R.DW_ADDR_HI.at 0) (n / 2 ^ 32)
  else d

/-- The response reaches the port: BRESP, the data of a read, the address. -/
def Dev.dwFinish (d : Dev) (a : Access) (c : RespCode) (v : Nat) : Dev :=
  let bad := decide (2 ≤ c.num)
  let d1 := { d with dwBus := none, dwFault := bad }.setFld F.DW_STAT_BRESP c.num 0
  let d2 := if a.write || bad then d1
    else
      let d3 := d1.setRegN (R.DW_DATA.at 0) (v % 2 ^ 32)
      if a.size = 8 then d3.setRegN (R.DW_DATA_HI.at 0) (v / 2 ^ 32 % 2 ^ 32) else d3
  d2.dwAdvance a

/-- BUS_ACCESS_COMPLETE: the access is performed and answered; one that meets a basking domain wakes it and waits. -/
def xBusAccessComplete (e : HbmErr) (k : Clk) (d : Dev) : Dev :=
  match d.dwBus with
  | none => d
  | some a =>
    match d.baskingOn a with
    | [] =>
      let r := d.dwPerform a e k
      r.1.dwFinish a r.2.1 r.2.2
    | l => l.foldl (fun y w => y.startWake w.1 w.2) d

/-- A bus access completes. -/
def execBusAccessComplete (e : HbmErr) (s : State) : Host.Outcome State Fault Refusal :=
  .next { s with d := xBusAccessComplete e s.clk s.d }

/-- DBG_CANCEL: a CANCEL frame. An access that has left the port is performed and its response discarded. -/
def xDbgCancel (hdr : Nat) (left : Bool) (e : HbmErr) (k : Clk) (d : Dev) : Dev :=
  match d.dwHeader hdr 0x1C with
  | none => d
  | some ok =>
    if !ok ∨ bitsOf hdr 13 8 ≠ 0 then d.dwStatus 0
    else match d.dwBus with
    | none => d.dwStatus 3
    | some a =>
      let d1 := if left then (d.dwPerform a e k).1.dwAdvance a else d
      { d1 with dwBus := none }.dwStatus 3

/-- A CANCEL frame arrives. -/
def execDbgCancel (hdr : Nat) (left : Bool) (e : HbmErr) (s : State) : Host.Outcome State Fault Refusal :=
  .next { s with d := xDbgCancel hdr left e s.clk s.d }

/-- RESYNC: the partial frame is abandoned, CRCERR clears. -/
def xResync (d : Dev) : Dev := if d.dwUsable then d.setFld F.DW_STAT_CRCERR 0 0 else d

/-- A resync arrives. -/
def execResync (s : State) : Host.Outcome State Fault Refusal := .next { s with d := xResync s.d }

/-! ### RGET and RPUT -/

/-- The port register of an INDEX. -/
def dwIndex (i : Nat) : Option R :=
  match i with
  | 0x00 => some .DW_IDCODE
  | 0x01 => some .DW_UID_LO
  | 0x02 => some .DW_UID_HI
  | 0x03 => some .DW_STAT
  | 0x05 => some .DW_AUTH_CMD
  | 0x06 => some .DW_NONCE
  | 0x07 => some .DW_AUTH_DATA
  | 0x08 => some .DW_ADDR_LO
  | 0x09 => some .DW_ADDR_HI
  | 0x0A => some .DW_DATA
  | 0x0B => some .DW_DATA_HI
  | 0x0C => some .DW_BUSCTL
  | _ => none

/-- Registers of the bus access, which NONE does not reach. -/
def dwBusReg (r : R) : Bool :=
  match r with
  | .DW_ADDR_LO | .DW_ADDR_HI | .DW_DATA | .DW_DATA_HI | .DW_BUSCTL => true
  | _ => false

/-- RGET of register `r`. -/
def Dev.dwRead (d : Dev) (hdr : Nat) (r : R) : Dev :=
  let data := decide (r = .DW_DATA) || decide (r = .DW_DATA_HI)
  if dwBusReg r ∧ d.dwLevel = 0 then d.dwStatus 2
  else if data ∧ d.dwBusy = true then d.dwStatus 1
  else if data ∧ d.dwFault = true then d.dwStatus 0
  else match r with
  | .DW_STAT => d.dwData hdr d.dwStat
  | .DW_NONCE => d.dwNonce hdr
  | .DW_AUTH_CMD => d.dwData hdr 0
  | .DW_AUTH_DATA => d.dwData hdr 0
  | _ => d.dwData hdr (d.regN (r.at 0))

/-- RGET: a frame that reads a port register. -/
def xRget (hdr : Nat) (d : Dev) : Dev :=
  match d.dwHeader hdr 0x10 with
  | none => d
  | some ok =>
    match dwIndex (bitsOf hdr 13 8) with
    | none => d.dwStatus 0
    | some r => if ok then d.dwRead hdr r else d.dwStatus 0

/-- A port register is read. -/
def execRget (hdr : Nat) (s : State) : Host.Outcome State Fault Refusal := .next { s with d := xRget hdr s.d }

/-- RPUT of register `r`: read-only registers ignore it. -/
def Dev.dwWrite (d : Dev) (r : R) (v : Nat) (k : Clk) : Dev :=
  match r with
  | .DW_BUSCTL => xBusctl v d
  | .DW_AUTH_DATA => xAuthData v d
  | .DW_AUTH_CMD =>
    (match v % 16 with
    | 1 => xAuthStart v k d
    | 2 => xAuthSubmit v k d
    | 3 => xAuthDrop v d
    | _ => d.dwStatus 0)
  | _ =>
    if !dwBusReg r then d.dwStatus 3 else (d.setRegN (r.at 0) (v % 2 ^ 32 &&& r.desc.wmask)).dwStatus 3

/-- RPUT: a frame that writes a port register. DENY and WAIT end it before its data; with a wrong CRC it is not performed,
and CRCERR is set (R559). -/
def xRput (hdr data crc : Nat) (k : Clk) (d : Dev) : Dev :=
  match d.dwHeader hdr 0x11 with
  | none => d
  | some ok =>
    match dwIndex (bitsOf hdr 13 8) with
    | none => d.dwStatus 0
    | some r =>
      if !ok then d.dwStatus 0
      else if dwBusReg r ∧ d.dwLevel = 0 then d.dwStatus 2
      else if dwBusReg r ∧ d.dwBusy = true then d.dwStatus 1
      else if crc % 256 ≠ crc8 hdr (data % 2 ^ 32) then (d.setFld F.DW_STAT_CRCERR 1 0).dwStatus 3
      else d.dwWrite r (data % 2 ^ 32) k

/-- A port register is written. -/
def execRput (hdr data crc : Nat) (s : State) : Host.Outcome State Fault Refusal :=
  .next { s with d := xRput hdr data crc s.clk s.d }

end Sys2Proof.Machine
end

