-- ==== Sys2Proof/Machine/Tick.lean ====
section
/-! DEFINITION. The tick edge (row TICK_EDGE): event sampling and delivery (chapter 12), the governor and the skip decision
(chapters 02, 19), the actions of a round boundary, trigger rules (chapter 21). -/

namespace Sys2Proof.Machine

/-! ### Sampling (12 R340–R342, R345) -/

/-- The sources of a quarter whose occurrence latch is set, in rank order. -/
def Dev.latched (d : Dev) (q : Nat) : List Nat :=
  let l := (d.occ.filter (fun e => e.2 && decide (e.1 / 1536 = q))).map (fun e => e.1 % 1536)
  l.mergeSort (fun a b => d.ranks q a b)

/-- Whether a source is pending. -/
def Dev.pends (d : Dev) (q s : Nat) : Bool := (d.reg (R.EVT_PEND.at q (s / 32))).getLsbD (s % 32)

/-- TARGET of an event log record: core, task, or OID with VEC. -/
def routeTarget (w : Word) : Nat :=
  match getBits w 63 62 with
  | 1 => getBits w 3 0
  | 2 => getBits w 19 0
  | 3 => getBits w 42 32 + getBits w 10 0 * 2 ^ 16
  | _ => 0

/-- Write an event log record (R345). -/
def Dev.eventLog (d : Dev) (now q s : Nat) (coal : Bool) : Dev :=
  let c := d.reg (R.EVT_CTRL.at q)
  let r := d.routeNow q s
  if !c.getLsbD 0 ∨ getBits c 4 1 < d.classOf q s then d
  else
    let size := getBits (d.reg (R.EVT_LOG_SIZE.at q)) 4 0
    let wp := d.regN (R.EVT_LOG_WP.at q)
    if c.getLsbD 5 ∧ 2 ^ size / 16 ≤ wp then d.bump (R.EVT_LOG_DROP.at q)
    else
      let rcd := now % 2 ^ 32 + (q * 1536 + s) % 2 ^ 13 * 2 ^ 32 + d.classOf q s % 16 * 2 ^ 48 + getBits r 63 62 * 2 ^ 52
        + b2n coal * 2 ^ 54 + b2n (r.getLsbD 57) * 2 ^ 55 + routeTarget r * 2 ^ 96
      let w := d.hbm (wrReq (sliceMid q) 0
        (d.regN (R.EVT_LOG_BASE.at q) / 4096 * 4096 % 2 ^ 48 + wp * 16 % 2 ^ size) 16 rcd) false .none
      if w.2.code = .okay then w.1.setRegN (R.EVT_LOG_WP.at q) ((wp + 1) % 2 ^ 32)
      else w.1.bump (R.EVT_LOG_DROP.at q)

/-- One latch moves into its pending bit; a repeat is coalesced. -/
def Dev.sampleOne (d : Dev) (now q s : Nat) : Dev :=
  let coal := d.pends q s
  let d1 := { d with occ := nset false d.occ (q * 1536 + s) false }
  let d2 := if coal then d1.bump (R.EVT_COAL_CNT.at q) else d1.setPend q s true
  d2.eventLog now q s coal

/-- Every latch of a quarter, in rank order. -/
def Dev.sampleQ (d : Dev) (now q : Nat) : Dev := (d.latched q).foldl (fun x s => x.sampleOne now q s) d

/-! ### Delivery (12 R342, R343) -/

/-- The WAKE of a DISPATCH route at the task's home slice (10 R293); one that is rejected raises DSP_REJECT. -/
def Dev.eventWakeTo (d : Dev) (now q t : Nat) : Dev :=
  let h := t / 2 ^ 18
  match d.dspGate ⟨sliceMid q, 0, false⟩ h t with
  | some reason => d.dspErr h 3 t reason (sliceMid q)
  | none =>
    match d.task t with
    | none => d.dspErr h 3 t 3 (sliceMid q)
    | some x => d.eventWake now t x none

/-- Deliver one pending source by its route. -/
def Dev.deliverOne (d : Dev) (now q s : Nat) : Dev :=
  let r := d.routeNow q s
  if r.getLsbD 57 then d
  else match getBits r 63 62 with
  | 2 => (d.setPend q s false).eventWakeTo now q (getBits r 19 0)
  | 3 => if d.msixReady (getBits r 42 32) then (d.setPend q s false).msixSend (getBits r 42 32) (getBits r 10 0) else d
  | _ => d

/-- Deliver what is pending in a quarter, in rank order. -/
def Dev.deliverQ (d : Dev) (now q : Nat) : Dev :=
  ((d.pendingSources q).mergeSort (fun a b => d.ranks q a b)).foldl (fun x s => x.deliverOne now q s) d

/-- Delivery at an edge: not while the system is halted (21 DBG-6). Interrupts of queue pairs that wait are tried again. -/
def Dev.deliver (d : Dev) (now : Nat) : Dev :=
  if d.sysHalt then d else ((upTo 4).foldl (fun x q => x.deliverQ now q) d).qpRetry

/-! ### The governor (19 R535, R536) -/

/-- The count of PL_LONG or PL_SHORT at a tick edge: limit, average, P_w, HYST in percent, whether a window of 64 ticks
starts, the count, whether it is active, ticks since it last rose. -/
def govStep (lim avg pw hyst : Nat) (start : Bool) (n : Nat) (act : Bool) (since : Nat) : Nat × Bool × Nat :=
  let act1 := act || decide (lim ≤ avg)
  let s := Nat.min 16 (since + 1)
  let below (x : Nat) : Bool := decide (100 * x < lim * (100 - hyst))
  let rise := act1 && decide (lim < pw) && decide (16 ≤ s)
  let n1 := if rise then Nat.min 63 (n + 1) else if start && below pw then n - 1 else n
  (n1, act1 && !(decide (n1 = 0) && below avg), if rise then 0 else s)

/-- The governor's counts at a tick edge. -/
def Dev.govEdge (d : Dev) (i : TickIn) (start : Bool) : Dev :=
  let g := d.gov
  let hyst := d.fld F.GOV_CFG_HYST 0
  let peak := decide (d.fld F.GOV_PL_PEAK_LIMIT 0 < i.amps)
  let a := govStep (d.fld F.GOV_PL_LONG_LIMIT 0) i.plong i.watts hyst start g.nl g.actL g.sinceL
  let b := govStep (d.fld F.GOV_PL_SHORT_LIMIT 0) i.pshort i.watts hyst start g.ns g.actS g.sinceS
  let d1 := { d with gov := { g with nl := a.1, actL := a.2.1, sinceL := a.2.2, ns := b.1, actS := b.2.1, sinceS := b.2.2,
                                     np := if start && !peak then g.np - 1 else g.np } }
  let d2 := if peak then d1 else d1.setBit (R.GOV_STAT.at 0) 30 false
  ((d2.setRegN (R.GOV_PAVG.at 0) (i.plong % 65536 * 65536 + i.pshort % 65536)).setRegN (R.GOV_PNOW.at 0)
    (i.watts % 65536 * 65536 + i.amps % 65536)).govShow

/-- The skip count after an edge (02 R59, R536): all of it at the start of a window, and a rise of the governor's own
counts at any edge. -/
def Dev.skipCount (d : Dev) (start : Bool) (n : Nat) : Nat :=
  let g := d.gov
  let own := Nat.min 63 (Nat.max g.nl (Nat.max g.ns g.np))
  if start then Nat.min 63 (Nat.max own (Nat.max g.nt (d.fld F.GOV_FLOOR_SKIP_FLOOR 0))) else Nat.max n own

/-- Whether tick `t` is skipped with skip count `n` (02 R59). -/
def skippedTick (t n : Nat) : Bool :=
  let i := t % 64
  decide (i * n / 64 < (i + 1) * n / 64)

/-- The skip count takes effect: GOV_STAT, GOV_THROTTLE when it rises from 0, GOV_SKIP_CNT. -/
def Dev.skipShow (d : Dev) (old new : Nat) (skip : Bool) : Dev :=
  let d1 := d.setFld F.GOV_STAT_N new 0
  let d2 := if old = 0 ∧ 0 < new then d1.raiseAll 0x054 else d1
  if skip then d2.setRegN (R.GOV_SKIP_CNT.at 0) (d2.regN (R.GOV_SKIP_CNT.at 0) + 1) else d2

/-! ### The edge -/

/-- Whether the array may execute in the tick that begins: aligned, no safe stop, no system halt, no ended STEP. -/
def Dev.arrayFree (d : Dev) (k : Clk) : Bool := k.started && !d.safe && !d.sysHalt && decide (d.haltLeft ≠ 1)

/-- A round of a STEP has executed (21 R569). -/
def Dev.stepRound (d : Dev) (executed : Bool) : Dev :=
  if executed ∧ 1 < d.haltLeft then { d with haltLeft := d.haltLeft - 1 } else d

/-- Trigger inputs 2 and 3 at an edge (21 R571): sources that became pending, DTIME at the end of an executed round. -/
def Dev.edgeTriggers (d : Dev) (k : Clk) (fresh : List Nat) (executed : Bool) : Dev :=
  let d1 := d.fireInput k 2 (fun r => fresh.contains (getBits (d.reg (R.XT_IN.at 0 r)) 15 3))
  d1.fireInput k 3 (fun r =>
    let x := d.regN (R.XT_DTIME.at 0 r)
    executed && decide (x ≤ k.dtime) && decide (k.dtime < x + 64))

/-- The global numbers of the sources that an edge makes pending. -/
def Dev.newlyPending (d : Dev) : List Nat :=
  (d.occ.filter (fun e => e.2 && !d.pends (e.1 / 1536) (e.1 % 1536))).map (fun e => e.1)

/-- What a tick edge does to the chip behind its clock: `k` is the clock before the edge with TICK advanced. -/
def xTickEdge (i : TickIn) (k : Clk) (d : Dev) : Dev :=
  let executed := k.runs
  let start := decide (k.tick % 64 = 0)
  let fresh := d.newlyPending
  let d1 := { d with routes := [] }
  let d2 := (upTo 4).foldl (fun x q => x.sampleQ k.tick q) d1
  let d3 := d2.deliver k.tick
  let d4 := (d3.slotEdge k.tick executed).stepRound executed
  let d5 := d4.edgeTriggers k fresh executed
  d5.prbsTick.govEdge i start

/-- The clock after an edge, and the chip with the skip decision shown. -/
def tickDone (k : Clk) (d : Dev) : Clk × Dev :=
  let n := d.skipCount (decide (k.tick % 64 = 0)) k.n
  let free := d.arrayFree k
  let skip := skippedTick k.tick n
  ({ k with cyc := 0, runs := free && !skip, n := n }, d.skipShow k.n n (free && skip))

/-- TICK_EDGE: TICK advances; it falls due once the executed cycles of the tick in progress are over. -/
def execTickEdge (inp : TickIn) (s : State) : Host.Outcome State Fault Refusal :=
  if s.clk.runs = true ∧ s.clk.cyc < 64 then .next s
  else
    let k := { s.clk with tick := s.clk.tick + 1 }
    let r := tickDone k (xTickEdge inp k s.d)
    .next { s with clk := r.1, d := r.2 }

end Sys2Proof.Machine
end

