-- ==== Sys2Proof/Machine/Dispatch.lean ====
section
/-! DEFINITION. Every command to its meaning, one arm each, in the order of the table. -/

namespace Sys2Proof.Machine

/-- The effect of a command on everything but the queue. -/
def exec (i : Instr) (s : State) : Host.Outcome State Fault Refusal :=
  match i with
  | .registerWrite a => Sys2Proof.Machine.execRegisterWrite a s
  | .tickEdge inp => Sys2Proof.Machine.execTickEdge inp s
  | .executedCycle ups => Sys2Proof.Machine.execExecutedCycle ups s
  | .frameAdmission slot => Sys2Proof.Machine.execFrameAdmission slot s
  | .ctxWriteback store tile cell idx => Sys2Proof.Machine.execCtxWriteback store tile cell idx s
  | .draw vp => Sys2Proof.Machine.execDraw vp s
  | .headStageEntry vp => Sys2Proof.Machine.execHeadStageEntry vp s
  | .tmemNocAccess n => Sys2Proof.Machine.execTmemNocAccess n s
  | .nocTimeout n => Sys2Proof.Machine.execNocTimeout n s
  | .tmemWriteback tile bank word => Sys2Proof.Machine.execTmemWriteback tile bank word s
  | .tmemOwn m q l p v => Sys2Proof.Machine.execTmemOwn m q l p v s
  | .bankMolt tile bank => Sys2Proof.Machine.execBankMolt tile bank s
  | .agreg m q l p n v => Sys2Proof.Machine.execAgreg m q l p n v s
  | .define m c p stride phase => Sys2Proof.Machine.execDefine m c p stride phase s
  | .definitionComplete c p => Sys2Proof.Machine.execDefinitionComplete c p s
  | .undefine m c p => Sys2Proof.Machine.execUndefine m c p s
  | .start m c p => Sys2Proof.Machine.execStart m c p s
  | .slotLive c p => Sys2Proof.Machine.execSlotLive c p s
  | .stopDrain m c p => Sys2Proof.Machine.execStopDrain m c p s
  | .stopAbort m c p => Sys2Proof.Machine.execStopAbort m c p s
  | .sweepEnd c p => Sys2Proof.Machine.execSweepEnd c p s
  | .molt m c p => Sys2Proof.Machine.execMolt m c p s
  | .moltComplete c p => Sys2Proof.Machine.execMoltComplete c p s
  | .badCmd m c p code => Sys2Proof.Machine.execBadCmd m c p code s
  | .slotFoot m c p v => Sys2Proof.Machine.execSlotFoot m c p v s
  | .slotOid m c p v => Sys2Proof.Machine.execSlotOid m c p v s
  | .slotFrame m c p v => Sys2Proof.Machine.execSlotFrame m c p v s
  | .slotExit m c p v => Sys2Proof.Machine.execSlotExit m c p v s
  | .gfp m c p n v => Sys2Proof.Machine.execGfp m c p n v s
  | .vpCfg m c n v => Sys2Proof.Machine.execVpCfg m c n v s
  | .lpb m c ix v => Sys2Proof.Machine.execLpb m c ix v s
  | .regrow m c col => Sys2Proof.Machine.execRegrow m c col s
  | .slotPause slot => Sys2Proof.Machine.execSlotPause slot s
  | .columnCopy c => Sys2Proof.Machine.execColumnCopy c s
  | .slotResume slot => Sys2Proof.Machine.execSlotResume slot s
  | .retire m c => Sys2Proof.Machine.execRetire m c s
  | .retirementTeardown c => Sys2Proof.Machine.execRetirementTeardown c s
  | .blockCheck ch t0 flips drift => Sys2Proof.Machine.execBlockCheck ch t0 flips drift s
  | .resend dir t0 filler errs => Sys2Proof.Machine.execResend dir t0 filler errs s
  | .retryCheck dir t0 errs => Sys2Proof.Machine.execRetryCheck dir t0 errs s
  | .delayLineRelease ch => Sys2Proof.Machine.execDelayLineRelease ch s
  | .fillerBlock ch crcErr => Sys2Proof.Machine.execFillerBlock ch crcErr s
  | .rateWindow dir => Sys2Proof.Machine.execRateWindow dir s
  | .realignment ch drift => Sys2Proof.Machine.execRealignment ch drift s
  | .lfclkLoss dir => Sys2Proof.Machine.execLfclkLoss dir s
  | .bridgeTraining br t => Sys2Proof.Machine.execBridgeTraining br t s
  | .repair m q pg dir => Sys2Proof.Machine.execRepair m q pg dir s
  | .retrain m q pg dir => Sys2Proof.Machine.execRetrain m q pg dir s
  | .repairDone br bad ok => Sys2Proof.Machine.execRepairDone br bad ok s
  | .dirCfg m q pg dir v => Sys2Proof.Machine.execDirCfg m q pg dir v s
  | .nslFrame dir offer flips => Sys2Proof.Machine.execNslFrame dir offer flips s
  | .nfclkLoss dir => Sys2Proof.Machine.execNfclkLoss dir s
  | .loadFull q r => Sys2Proof.Machine.execLoadFull q r s
  | .loadPatch q r => Sys2Proof.Machine.execLoadPatch q r s
  | .loadVerify q r => Sys2Proof.Machine.execLoadVerify q r s
  | .loadStatus q r => Sys2Proof.Machine.execLoadStatus q r s
  | .loadCompletion slot ups => Sys2Proof.Machine.execLoadCompletion slot ups s
  | .nocRequest a e fence => Sys2Proof.Machine.execNocRequest a e fence s
  | .hbmAccess a noalloc e => Sys2Proof.Machine.execHbmAccess a noalloc e s
  | .winEnt m q ix v => Sys2Proof.Machine.execWinEnt m q ix v s
  | .windowMolt q => Sys2Proof.Machine.execWindowMolt q s
  | .fenceCompletion mid => Sys2Proof.Machine.execFenceCompletion mid s
  | .grpRate m q g v => Sys2Proof.Machine.execGrpRate m q g v s
  | .nocWeight m q g v => Sys2Proof.Machine.execNocWeight m q g v s
  | .jattr m vp j v => Sys2Proof.Machine.execJattr m vp j v s
  | .jobStart vp sgl ans => Sys2Proof.Machine.execJobStart vp sgl ans s
  | .elementMove vp ans e collide => Sys2Proof.Machine.execElementMove vp ans e collide s
  | .chainFormed vp => Sys2Proof.Machine.execChainFormed vp s
  | .jobEnd vp => Sys2Proof.Machine.execJobEnd vp s
  | .senCtrl m vp v => Sys2Proof.Machine.execSenCtrl m vp v s
  | .submit m q t => Sys2Proof.Machine.execSubmit m q t s
  | .signal m q t => Sys2Proof.Machine.execSignal m q t s
  | .wake m q t => Sys2Proof.Machine.execWake m q t s
  | .cancel m q t => Sys2Proof.Machine.execCancel m q t s
  | .run n => Sys2Proof.Machine.execRun n s
  | .preempt q => Sys2Proof.Machine.execPreempt q s
  | .hand slot => Sys2Proof.Machine.execHand slot s
  | .wakeTimeReached q => Sys2Proof.Machine.execWakeTimeReached q s
  | .heldCommandPlaced q => Sys2Proof.Machine.execHeldCommandPlaced q s
  | .dspRepl m q r en v => Sys2Proof.Machine.execDspRepl m q r en v s
  | .xbrd n rd ix => Sys2Proof.Machine.execXbrd n rd ix s
  | .xbwr n rs1 ix => Sys2Proof.Machine.execXbwr n rs1 ix s
  | .xyield n => Sys2Proof.Machine.execXyield n s
  | .xwaitEvent n rd => Sys2Proof.Machine.execXwaitEvent n rd s
  | .xwaitDep n rd => Sys2Proof.Machine.execXwaitDep n rd s
  | .xwaitDelay n rd rs1 => Sys2Proof.Machine.execXwaitDelay n rd rs1 s
  | .xwaitEventOrDelay n rd rs1 => Sys2Proof.Machine.execXwaitEventOrDelay n rd rs1 s
  | .xdone n rs1 rs2 => Sys2Proof.Machine.execXdone n rs1 rs2 s
  | .xsig n rd rs1 => Sys2Proof.Machine.execXsig n rd rs1 s
  | .eventEntry n => Sys2Proof.Machine.execEventEntry n s
  | .exceptionTrap n len x => Sys2Proof.Machine.execExceptionTrap n len x s
  | .mret n => Sys2Proof.Machine.execMret n s
  | .fpExchange n len w => Sys2Proof.Machine.execFpExchange n len w s
  | .ebreak n => Sys2Proof.Machine.execEbreak n s
  | .xevdepth n csr rd w => Sys2Proof.Machine.execXevdepth n csr rd w s
  | .coreCtrl m n v => Sys2Proof.Machine.execCoreCtrl m n v s
  | .bnkOwner m n v => Sys2Proof.Machine.execBnkOwner m n v s
  | .homeBankClear n => Sys2Proof.Machine.execHomeBankClear n s
  | .homeBankAccess a port0 e => Sys2Proof.Machine.execHomeBankAccess a port0 e s
  | .bnkCeWriteback n w => Sys2Proof.Machine.execBnkCeWriteback n w s
  | .evtClaim m q c => Sys2Proof.Machine.execEvtClaim m q c s
  | .evtSwset m q w v => Sys2Proof.Machine.execEvtSwset m q w v s
  | .evtRoute m q src v => Sys2Proof.Machine.execEvtRoute m q src v s
  | .timer q ix => Sys2Proof.Machine.execTimer q ix s
  | .evtTmrCtrl m q ix v => Sys2Proof.Machine.execEvtTmrCtrl m q ix v s
  | .evtTmrPeriod m q ix v => Sys2Proof.Machine.execEvtTmrPeriod m q ix v s
  | .watermarkThresholdWrite m w q ix j hi v => Sys2Proof.Machine.execWatermarkThresholdWrite m w q ix j hi v s
  | .mbxLock m q ch v => Sys2Proof.Machine.execMbxLock m q ch v s
  | .mbxHlock m q ix v => Sys2Proof.Machine.execMbxHlock m q ix v s
  | .mbxSptr m q ch v => Sys2Proof.Machine.execMbxSptr m q ch v s
  | .mbxSlt m q ch v => Sys2Proof.Machine.execMbxSlt m q ch v s
  | .croakDelivery q ch => Sys2Proof.Machine.execCroakDelivery q ch s
  | .mbxRlt m q ch => Sys2Proof.Machine.execMbxRlt m q ch s
  | .mbxWord m q ch v => Sys2Proof.Machine.execMbxWord m q ch v s
  | .mbxWordRead m q ch => Sys2Proof.Machine.execMbxWordRead m q ch s
  | .hifLctrl m link v => Sys2Proof.Machine.execHifLctrl m link v s
  | .receiverDetected link => Sys2Proof.Machine.execReceiverDetected link s
  | .linkUp link speed width flit => Sys2Proof.Machine.execLinkUp link speed width flit s
  | .absent link => Sys2Proof.Machine.execAbsent link s
  | .trainFail link => Sys2Proof.Machine.execTrainFail link s
  | .linkLoss link vps => Sys2Proof.Machine.execLinkLoss link vps s
  | .hostPerstNAssert port => Sys2Proof.Machine.execHostPerstNAssert port s
  | .hostPerstNRelease port => Sys2Proof.Machine.execHostPerstNRelease port s
  | .hotReset link => Sys2Proof.Machine.execHotReset link s
  | .flrPf oid => Sys2Proof.Machine.execFlrPf oid s
  | .flrVf oid => Sys2Proof.Machine.execFlrVf oid s
  | .vfEnableCleared oid n => Sys2Proof.Machine.execVfEnableCleared oid n s
  | .functionResetComplete oid => Sys2Proof.Machine.execFunctionResetComplete oid s
  | .d3hotEntry oid => Sys2Proof.Machine.execD3hotEntry oid s
  | .d0Return oid => Sys2Proof.Machine.execD0Return oid s
  | .l0pWidthChange link w => Sys2Proof.Machine.execL0pWidthChange link w s
  | .barRequest oid bar off size write data => Sys2Proof.Machine.execBarRequest oid bar off size write data s
  | .configurationRequest oid op => Sys2Proof.Machine.execConfigurationRequest oid op s
  | .hostCompletion vp ans => Sys2Proof.Machine.execHostCompletion vp ans s
  | .completionTimeout vp => Sys2Proof.Machine.execCompletionTimeout vp s
  | .sqTail m q ix v => Sys2Proof.Machine.execSqTail m q ix v s
  | .cqHead m q ix v => Sys2Proof.Machine.execCqHead m q ix v s
  | .qpCtrl m q ix v => Sys2Proof.Machine.execQpCtrl m q ix v s
  | .fetchDecision q ents => Sys2Proof.Machine.execFetchDecision q ents s
  | .sqReadError q => Sys2Proof.Machine.execSqReadError q s
  | .invoke q r => Sys2Proof.Machine.execInvoke q r s
  | .copy q r sgl0 sgl1 ans0 ans1 e => Sys2Proof.Machine.execCopy q r sgl0 sgl1 ans0 ans1 e s
  | .fill q r sgl ans e => Sys2Proof.Machine.execFill q r sgl ans e s
  | .fence q r => Sys2Proof.Machine.execFence q r s
  | .queNop q r => Sys2Proof.Machine.execQueNop q r s
  | .query q r => Sys2Proof.Machine.execQuery q r s
  | .createQ q r => Sys2Proof.Machine.execCreateQ q r s
  | .deleteQ q r => Sys2Proof.Machine.execDeleteQ q r s
  | .bindWindow q r => Sys2Proof.Machine.execBindWindow q r s
  | .startSlot q r => Sys2Proof.Machine.execStartSlot q r s
  | .stopSlot q r => Sys2Proof.Machine.execStopSlot q r s
  | .stopSlotAbort q r => Sys2Proof.Machine.execStopSlotAbort q r s
  | .mgmtMolt q r => Sys2Proof.Machine.execMgmtMolt q r s
  | .setEntry q r => Sys2Proof.Machine.execSetEntry q r s
  | .quenchFinish q r => Sys2Proof.Machine.execQuenchFinish q r s
  | .quenchAbort q r => Sys2Proof.Machine.execQuenchAbort q r s
  | .unquench q r => Sys2Proof.Machine.execUnquench q r s
  | .media q r => Sys2Proof.Machine.execMedia q r s
  | .fwCall q r => Sys2Proof.Machine.execFwCall q r s
  | .qeFwdone m q v => Sys2Proof.Machine.execQeFwdone m q v s
  | .tongueQuench => Sys2Proof.Machine.execTongueQuench s
  | .tongueUnquench => Sys2Proof.Machine.execTongueUnquench s
  | .tongueStopSlot => Sys2Proof.Machine.execTongueStopSlot s
  | .cqEntryWrite q r => Sys2Proof.Machine.execCqEntryWrite q r s
  | .itimeExpiry q ix => Sys2Proof.Machine.execItimeExpiry q ix s
  | .pairDrained q ix => Sys2Proof.Machine.execPairDrained q ix s
  | .msqPost m ch v => Sys2Proof.Machine.execMsqPost m ch v s
  | .listFetch ch e => Sys2Proof.Machine.execListFetch ch e s
  | .listStart ch => Sys2Proof.Machine.execListStart ch s
  | .busGrant ch => Sys2Proof.Machine.execBusGrant ch s
  | .listEnd ch x => Sys2Proof.Machine.execListEnd ch x s
  | .hdr ch x => Sys2Proof.Machine.execHdr ch x s
  | .cmd ch x => Sys2Proof.Machine.execCmd ch x s
  | .addr ch x => Sys2Proof.Machine.execAddr ch x s
  | .dout ch x ue ce => Sys2Proof.Machine.execDout ch x ue ce s
  | .din ch x data => Sys2Proof.Machine.execDin ch x data s
  | .waitrb ch x sr => Sys2Proof.Machine.execWaitrb ch x sr s
  | .readySeen ch x sr meas => Sys2Proof.Machine.execReadySeen ch x sr meas s
  | .waitrbTimeout ch x => Sys2Proof.Machine.execWaitrbTimeout ch x s
  | .delay ch x => Sys2Proof.Machine.execDelay ch x s
  | .delayExpiry ch x => Sys2Proof.Machine.execDelayExpiry ch x s
  | .feature ch x ok sr vals => Sys2Proof.Machine.execFeature ch x ok sr vals s
  | .brstat ch x => Sys2Proof.Machine.execBrstat ch x s
  | .offsets ch x ok sr => Sys2Proof.Machine.execOffsets ch x ok sr s
  | .probe ch x waits sr z0 z1 => Sys2Proof.Machine.execProbe ch x waits sr z0 z1 s
  | .beginProg ch x => Sys2Proof.Machine.execBeginProg ch x s
  | .beginErase ch x => Sys2Proof.Machine.execBeginErase ch x s
  | .endOp ch x => Sys2Proof.Machine.execEndOp ch x s
  | .suspend ch x => Sys2Proof.Machine.execSuspend ch x s
  | .resume ch x => Sys2Proof.Machine.execResume ch x s
  | .tokenGrant => Sys2Proof.Machine.execTokenGrant s
  | .completionRecord ch x => Sys2Proof.Machine.execCompletionRecord ch x s
  | .stop m ch v => Sys2Proof.Machine.execStop m ch v s
  | .wpn m ch v => Sys2Proof.Machine.execWpn m ch v s
  | .msqChcfg m ch v => Sys2Proof.Machine.execMsqChcfg m ch v s
  | .nphCfg m n v => Sys2Proof.Machine.execNphCfg m n v s
  | .nphTrain m n v => Sys2Proof.Machine.execNphTrain m n v s
  | .nphTrainingDone n pass rm wm => Sys2Proof.Machine.execNphTrainingDone n pass rm wm s
  | .msqRrp m q j v => Sys2Proof.Machine.execMsqRrp m q j v s
  | .msqOpcap m q v => Sys2Proof.Machine.execMsqOpcap m q v s
  | .pfWarn => Sys2Proof.Machine.execPfWarn s
  | .dumpComplete => Sys2Proof.Machine.execDumpComplete s
  | .msqPfclr m q v => Sys2Proof.Machine.execMsqPfclr m q v s
  | .msqOpdarm m q v => Sys2Proof.Machine.execMsqOpdarm m q v s
  | .tetLctrl m lane v => Sys2Proof.Machine.execTetLctrl m lane v s
  | .tetRetrain m lane v => Sys2Proof.Machine.execTetRetrain m lane v s
  | .signalDetect lane => Sys2Proof.Machine.execSignalDetect lane s
  | .lossOfSignal lane => Sys2Proof.Machine.execLossOfSignal lane s
  | .trainingFrame lane word req adapted => Sys2Proof.Machine.execTrainingFrame lane word req adapted s
  | .codeword lane hdr corrected corrupt => Sys2Proof.Machine.execCodeword lane hdr corrected corrupt s
  | .identSend lane => Sys2Proof.Machine.execIdentSend lane s
  | .ident lane bytes clean => Sys2Proof.Machine.execIdent lane bytes clean s
  | .laneAbsent lane => Sys2Proof.Machine.execLaneAbsent lane s
  | .trainRestart lane => Sys2Proof.Machine.execTrainRestart lane s
  | .mute lane => Sys2Proof.Machine.execMute lane s
  | .backoffEnd lane => Sys2Proof.Machine.execBackoffEnd lane s
  | .retrainTimeout lane => Sys2Proof.Machine.execRetrainTimeout lane s
  | .cmdFlit lane k => Sys2Proof.Machine.execCmdFlit lane k s
  | .wdata lane k ue ce => Sys2Proof.Machine.execWdata lane k ue ce s
  | .resp lane bytes clean => Sys2Proof.Machine.execResp lane bytes clean s
  | .rdata lane bytes clean => Sys2Proof.Machine.execRdata lane bytes clean s
  | .mgmt lane bytes clean => Sys2Proof.Machine.execMgmt lane bytes clean s
  | .lctl lane bytes clean => Sys2Proof.Machine.execLctl lane bytes clean s
  | .nak lane bytes clean => Sys2Proof.Machine.execNak lane bytes clean s
  | .rtrn lane bytes clean => Sys2Proof.Machine.execRtrn lane bytes clean s
  | .replayTimeout lane => Sys2Proof.Machine.execReplayTimeout lane s
  | .tetMcmd m lane v => Sys2Proof.Machine.execTetMcmd m lane v s
  | .mgmtTimeout lane => Sys2Proof.Machine.execMgmtTimeout lane s
  | .calLookup ch x => Sys2Proof.Machine.execCalLookup ch x s
  | .flipRecord q ring => Sys2Proof.Machine.execFlipRecord q ring s
  | .calRead m q v => Sys2Proof.Machine.execCalRead m q v s
  | .calWrite m q v => Sys2Proof.Machine.execCalWrite m q v s
  | .calInvalidate m q v => Sys2Proof.Machine.execCalInvalidate m q v s
  | .calFlush m q v => Sys2Proof.Machine.execCalFlush m q v s
  | .cacheWriteback q e => Sys2Proof.Machine.execCacheWriteback q e s
  | .calWalk q e => Sys2Proof.Machine.execCalWalk q e s
  | .retrainCheck q margins => Sys2Proof.Machine.execRetrainCheck q margins s
  | .calCtrl m q v => Sys2Proof.Machine.execCalCtrl m q v s
  | .calFrbase m q r v => Sys2Proof.Machine.execCalFrbase m q r v s
  | .porstNAssert => Sys2Proof.Machine.execPorstNAssert s
  | .porstNRelease b => Sys2Proof.Machine.execPorstNRelease b s
  | .sysrstNAssert => Sys2Proof.Machine.execSysrstNAssert s
  | .sysrstNRelease b => Sys2Proof.Machine.execSysrstNRelease b s
  | .pllLock q ok => Sys2Proof.Machine.execPllLock q ok s
  | .hbmTraining fails => Sys2Proof.Machine.execHbmTraining fails s
  | .confDone secs => Sys2Proof.Machine.execConfDone secs s
  | .program m q => Sys2Proof.Machine.execProgram m q s
  | .erase m q => Sys2Proof.Machine.execErase m q s
  | .blankchk m q => Sys2Proof.Machine.execBlankchk m q s
  | .flsCommandDone q => Sys2Proof.Machine.execFlsCommandDone q s
  | .aoFailover m v => Sys2Proof.Machine.execAoFailover m v s
  | .heartbeat toLive toStandby healthy => Sys2Proof.Machine.execHeartbeat toLive toStandby healthy s
  | .heartbeatTimeout => Sys2Proof.Machine.execHeartbeatTimeout s
  | .takeover => Sys2Proof.Machine.execTakeover s
  | .pllLockLoss q => Sys2Proof.Machine.execPllLockLoss q s
  | .railOutOfRange => Sys2Proof.Machine.execRailOutOfRange s
  | .dtimeCompare bridge equal => Sys2Proof.Machine.execDtimeCompare bridge equal s
  | .alignmentEdge => Sys2Proof.Machine.execAlignmentEdge s
  | .quarterRealignment q => Sys2Proof.Machine.execQuarterRealignment q s
  | .rstQctl m q v => Sys2Proof.Machine.execRstQctl m q v s
  | .quarterResetRelease q => Sys2Proof.Machine.execQuarterResetRelease q s
  | .rstClu m q v => Sys2Proof.Machine.execRstClu m q v s
  | .domainOn m q dom => Sys2Proof.Machine.execDomainOn m q dom s
  | .domainBask m q dom => Sys2Proof.Machine.execDomainBask m q dom s
  | .domainOff m q dom => Sys2Proof.Machine.execDomainOff m q dom s
  | .domainTransitionDone q dom => Sys2Proof.Machine.execDomainTransitionDone q dom s
  | .sensorConversion q unit raw => Sys2Proof.Machine.execSensorConversion q unit raw s
  | .throttleStep => Sys2Proof.Machine.execThrottleStep s
  | .thermTrip unit => Sys2Proof.Machine.execThermTrip unit s
  | .estimateCorrection q watts => Sys2Proof.Machine.execEstimateCorrection q watts s
  | .peakExcursion amps => Sys2Proof.Machine.execPeakExcursion amps s
  | .avsStep => Sys2Proof.Machine.execAvsStep s
  | .avsTelemetry ok mv => Sys2Proof.Machine.execAvsTelemetry ok mv s
  | .rcCalibration => Sys2Proof.Machine.execRcCalibration s
  | .fltPprCmd m q v => Sys2Proof.Machine.execFltPprCmd m q v s
  | .pprComplete q res => Sys2Proof.Machine.execPprComplete q res s
  | .rget hdr => Sys2Proof.Machine.execRget hdr s
  | .rput hdr data crc => Sys2Proof.Machine.execRput hdr data crc s
  | .dbgCancel hdr left e => Sys2Proof.Machine.execDbgCancel hdr left e s
  | .resync => Sys2Proof.Machine.execResync s
  | .authStart v => Sys2Proof.Machine.execAuthStart v s
  | .nonceReady words => Sys2Proof.Machine.execNonceReady words s
  | .nonce => Sys2Proof.Machine.execNonce s
  | .authData v => Sys2Proof.Machine.execAuthData v s
  | .authSubmit v => Sys2Proof.Machine.execAuthSubmit v s
  | .verificationComplete => Sys2Proof.Machine.execVerificationComplete s
  | .lockoutEnd => Sys2Proof.Machine.execLockoutEnd s
  | .authDrop v => Sys2Proof.Machine.execAuthDrop v s
  | .busctl v => Sys2Proof.Machine.execBusctl v s
  | .busAccessComplete e => Sys2Proof.Machine.execBusAccessComplete e s
  | .coreHalt m q v => Sys2Proof.Machine.execCoreHalt m q v s
  | .coreRun m q v => Sys2Proof.Machine.execCoreRun m q v s
  | .coreStep m q v => Sys2Proof.Machine.execCoreStep m q v s
  | .systemHalt m v => Sys2Proof.Machine.execSystemHalt m v s
  | .systemRun m v => Sys2Proof.Machine.execSystemRun m v s
  | .systemStep m v => Sys2Proof.Machine.execSystemStep m v s
  | .stepCountEnd => Sys2Proof.Machine.execStepCountEnd s
  | .dbgCregData m q write v => Sys2Proof.Machine.execDbgCregData m q write v s
  | .xtFire m r v => Sys2Proof.Machine.execXtFire m r v s
  | .arm m v => Sys2Proof.Machine.execArm m v s
  | .captureTaken => Sys2Proof.Machine.execCaptureTaken s
  | .dma m v => Sys2Proof.Machine.execDma m v s
  | .unloadDone => Sys2Proof.Machine.execUnloadDone s
  | .stream m v => Sys2Proof.Machine.execStream m v s
  | .disarm m v => Sys2Proof.Machine.execDisarm m v s
  | .capData m => Sys2Proof.Machine.execCapData m s
  | .patchCtl m q u v => Sys2Proof.Machine.execPatchCtl m q u v s
  | .blkLock m q code v => Sys2Proof.Machine.execBlkLock m q code v s
  | .uartTx m u v => Sys2Proof.Machine.execUartTx m u v s
  | .uartRx m u => Sys2Proof.Machine.execUartRx m u s
  | .uartByteReceived u byte par frm => Sys2Proof.Machine.execUartByteReceived u byte par frm s
  | .spiCmd m unit v => Sys2Proof.Machine.execSpiCmd m unit v s
  | .spiTransferDone unit rx => Sys2Proof.Machine.execSpiTransferDone unit rx s
  | .i3c0Cmd m v => Sys2Proof.Machine.execI3c0Cmd m v s
  | .i3cTransferDone res rx => Sys2Proof.Machine.execI3cTransferDone res rx s
  | .pfWarnNDeassert => Sys2Proof.Machine.execPfWarnNDeassert s
  | .linkEqualisationComplete link => Sys2Proof.Machine.execLinkEqualisationComplete link s
  | .creditReturnDue lane => Sys2Proof.Machine.execCreditReturnDue lane s
  | .uartByteSent u => Sys2Proof.Machine.execUartByteSent u s

end Sys2Proof.Machine
end

