-- ==== Sys2Proof/Machine/Pins.lean ====
section
/-! DEFINITION. What the chip drives on its pads (01 R24, 13 R359, 15 R416, R420, 16 R452, 18 BOOT-8, 19 R526, 22 R588,
R591), as it follows from the state: the device-wide signals, the NAND pads, the pads of the SER block, and the lane
groups that are OFF. -/

namespace Sys2Proof.Machine

/-- The weak pull of a pad that is not driven. -/
inductive Pull where
  | none | up | down | busHold
  deriving DecidableEq, Repr

/-- What the chip does at a pad: it drives a level, drives the signal of a transfer, or leaves the pad to its pull. -/
inductive Drive where
  | high | low | active
  | hiZ (pull : Pull)
  deriving DecidableEq, Repr

/-- A driven level. -/
def levelOf (b : Bool) : Drive := if b then .high else .low

/-! ### The device-wide outputs (R24, R513) -/

/-- The device-wide outputs, by the bit they have in `Dev.ballLevels`. -/
inductive WideOut where
  | confDone | confErr | thermTripN
  deriving DecidableEq, Repr

/-- The bit of an output. -/
def WideOut.bit : WideOut → Nat
  | .confDone => 0
  | .confErr => 1
  | .thermTripN => 2

/-- Whether the always-on domain of quarter `q` drives the device-wide outputs: only the live one does, and Q0's never
again once it has released them. -/
def Dev.wideDriver (d : Dev) (q : Nat) : Bool := decide (d.liveQ = q) && (decide (q = 3) || (decide (q = 0) && !d.aoFree))

/-- The pad of a device-wide output at base die `q`: the level of the live domain, high impedance of the other. -/
def Dev.widePad (d : Dev) (q : Nat) (o : WideOut) : Drive :=
  if d.wideDriver q then levelOf (d.ballLevels.testBit o.bit) else .hiZ .busHold

/-- The level at a ball of the package, which Q0 and Q3 share: that of the domain that drives it, or what bus-hold keeps. -/
def Dev.wideBall (d : Dev) (o : WideOut) : Bool :=
  (if d.wideDriver 0 || d.wideDriver 3 then d.ballLevels else d.ballHold).testBit o.bit

/-! ### NAND pads (R416, R420, R591) -/

/-- The 24 signals of a local channel. -/
inductive NandPad where
  | ceN (k : Nat) | wpN | weN | ale | cle | dqsT | dqsC | reT | reC
  | dq (i : Nat)
  | rbN (k : Nat)
  deriving DecidableEq, Repr

/-- The pad while its channel is disabled (ELEC-11). -/
def NandPad.off : NandPad → Drive
  | .ceN _ => .high
  | .wpN => .low
  | .weN | .dqsC | .reC | .rbN _ => .hiZ .up
  | .dq _ | .dqsT | .reT | .ale | .cle => .hiZ .down

/-- The context of a local channel that holds its bus, if any: its target is selected. -/
def Dev.busCtx (d : Dev) (ch : Nat) : Option MCtx :=
  ((upTo 8).filterMap (fun x => d.mctx ch x)).find? (fun c => decide (c.st = .hold))

/-- A pad of local channel `ch`: as ELEC-11 has it while the channel is disabled; else WP_N is high only while WPN is 1, CE_N is
low for the target whose list holds the bus, R_B_N is an input with its pull-up, and the sequencer drives the rest. -/
def Dev.nandPad (d : Dev) (ch : Nat) (p : NandPad) : Drive :=
  if d.chanOff ch then p.off
  else match p with
  | .rbN _ => .hiZ .up
  | .wpN => levelOf (d.flag F.MSQ_CHCTRL_WPN (mediaPlace ch).1 (mediaPlace ch).2)
  | .ceN k => levelOf (((d.busCtx ch).map (fun c => decide (c.ce = k))) != some true)
  | _ => .active

/-! ### Pads of the SER block (24 R617, R618, 22 ELEC-8, 18 BOOT-8) -/

/-- The output pads of the SER block. -/
inductive SerPad where
  | uartTx (u : Nat) | spiCsN (s : Nat) | spiSck (s : Nat) | spiMosi (s : Nat) | i3cScl | i3cSda
  | gpio (i : Nat)
  deriving DecidableEq, Repr

/-- The quarter of a pad (ARCH-5). -/
def SerPad.quarter : SerPad → Nat
  | .uartTx u => u
  | .spiCsN s | .spiSck s | .spiMosi s => spiQuarter s
  | .i3cScl | .i3cSda => 0
  | .gpio i => i / 4

/-- The pad before its block configures it, and while it is held (ELEC-8). -/
def SerPad.idle : SerPad → Drive
  | .uartTx _ | .spiCsN _ => .high
  | .spiSck _ | .spiMosi _ => .low
  | .i3cScl | .i3cSda => .hiZ .none
  | .gpio _ => .hiZ .down

/-- The pad under CONF_ERR (BOOT-8). -/
def SerPad.failed : SerPad → Drive
  | .uartTx _ | .spiCsN _ => .high
  | _ => .hiZ .none

/-- A pad of the SER block. -/
def Dev.serPad (d : Dev) (p : SerPad) : Drive :=
  if d.confFailed then p.failed
  else if d.pinHeld p.quarter then p.idle
  else match p with
  | .uartTx u => if d.uartOn u = true ∧ (d.uartOf u).tx ≠ [] then .active else p.idle
  | .spiCsN s => levelOf (!((nget none d.spi s).isSome || nget false d.spiKeep s))
  | .spiSck s | .spiMosi s => if (nget none d.spi s).isSome then .active else p.idle
  | .i3cScl | .i3cSda => if d.i3c.isSome then .active else p.idle
  | .gpio i => if (d.reg (R.GPIO_OE.at 0)).getLsbD i then levelOf ((d.reg (R.GPIO_OUT.at 0)).getLsbD i) else p.idle

/-! ### Lanes and lane groups (R359, R452, R526) -/

/-- Whether host port `p` of 8 is OFF: its four links all have EN = 0. -/
def Dev.hostPortOff (d : Dev) (p : Nat) : Bool := (upTo 4).all (fun i => !d.linkEn (4 * p + i))
/-- Whether group `g` of 16 of four tether lanes is OFF. -/
def Dev.laneGroupOff (d : Dev) (g : Nat) : Bool :=
  (upTo 4).all (fun i => !(d.reg (tetReg (4 * g + i) .TET_LCTRL)).getLsbD 0)
/-- Whether group `g` of 16 of four local channels is OFF. -/
def Dev.chanGroupOff (d : Dev) (g : Nat) : Bool := (upTo 4).all (fun i => !d.chEn (4 * g + i))

/-- Whether the transmitter of a tether lane is in electrical idle (R452). -/
def Dev.tetherIdle (d : Dev) (L : Nat) : Bool := decide (d.laneState L = 0)

/-- Whether lane `n` of link `L` is held in electrical idle with receiver detection off: under CONF_ERR, of a link that is
disabled or that BIF does not make present, and beyond the width of a link that is UP (R359, R372). -/
def Dev.hostLaneIdle (d : Dev) (L n : Nat) : Bool :=
  d.confFailed || !d.linkEn L || decide (d.linkWidth L ≤ n)
    || (decide (d.linkState L = 3) && decide (d.fld F.HIF_LSTAT_WIDTH (L / 8) (L % 8) ≤ n))

end Sys2Proof.Machine
end

