-- ==== Sys2Proof/Safety.lean ====
section
/-! DEFINITION. What a safe state is, in the terms the claims use: every store in its canonical form, and the clock
within its bounds. -/

namespace Sys2Proof.Safety

open Sys2Proof.Machine

/-- The clock is in its bounds: at most 64 executed cycles in a tick, DTIME never ahead of 64 per tick, a skip count of at
most 63, and, before an alignment, DTIME 0 and an array that does not run (02 R29, R59; 19 R521, R522). -/
def ClockOk (s : State) : Prop :=
  s.clk.cyc ≤ 64 ∧ s.clk.dtime ≤ 64 * s.clk.tick + s.clk.cyc ∧ s.clk.n ≤ 63 ∧
    (s.clk.started = false → s.clk.runs = false ∧ s.clk.dtime = 0)

/-- Record `r` of slice `q` holds the command `c` of opcode `opc`, which may start now: no system halt stops the queue
engine, and R397 lets it start. -/
def canStart (d : Dev) (q r opc : Nat) (c : Cmd) : Prop :=
  d.sysHalt = false ∧ d.cmd (cmdKey q r) = some c ∧ sqOpc c.ent = opc ∧ d.mayStart q c = true

/-- Context `x` of channel `ch` stands before a micro-op of opcode `opc`, on the bus or waiting for it, and nothing stops
it. -/
def atOp (d : Dev) (ch x opc : Nat) (c : MCtx) : Prop :=
  d.sysHalt = false ∧ d.mctx ch x = some c ∧ c.op % 256 = opc ∧ c.stop = false ∧ (c.st = .hold ∨ c.st = .need)

/-- Context `x` of channel `ch` holds the bus with a micro-op of opcode `opc` next, and nothing stops it; `bad` says
whether its lane, channel or CE is absent (always false for a local channel). -/
def onBus (d : Dev) (ch x opc : Nat) (bad : Bool) (c : MCtx) : Prop :=
  d.sysHalt = false ∧ d.mctx ch x = some c ∧ c.op % 256 = opc ∧ c.stop = false ∧ c.st = .hold ∧ d.linkBad ch c = bad

/-- Lane `L` is UP or in RETRAIN and the bytes are a flit of type `want` whose CRC passes and whose form TET-4 and TET-5
allow. -/
def goodFlit (d : Dev) (L want : Nat) (bytes : List Byte) : Prop :=
  (d.laneState L = 4 ∨ d.laneState L = 8) ∧ rxCrcOk bytes = true ∧ rxFormOk bytes = true ∧ rxN bytes 0 1 = want

/-- The chip after the ACK of a received flit has released what it names (R459, R460). -/
def acked (d : Dev) (L : Nat) (bytes : List Byte) : Dev :=
  if (rxN bytes 10 2).testBit 15 then d.ackUpTo L (rxN bytes 10 2 % 4096) else d

/-- The flit has the SEQ that the lane expects next (R459). -/
def inOrder (d : Dev) (L : Nat) (bytes : List Byte) : Prop :=
  rxN bytes 8 2 % 4096 = ((acked d L bytes).lane L).rxNext

/-- The chip after a sequenced flit was accepted in order, before the flit itself acts (R459). -/
def accepted (d : Dev) (L : Nat) (bytes : List Byte) : Dev :=
  let x := acked d L bytes
  let l := x.lane L
  x.setLane L { l with rxNext := (l.rxNext + 1) % 4096, rxAny := true, nakSent := false, ackDue := true }

end Sys2Proof.Safety
end

