-- ==== Sys2Proof/Certificates/Slice0/Obligations.lean ====
section
/-! DEFINITION. The statements for the provers. `exec` says what a command does to everything but the queue. An equation
`exec c s = .next { s with d := … }` gives the whole next state, and so the frame too: every register, every byte of memory
and every other part of the chip that the right side does not name is as before. Where a statement gives the next state by
some of its parts only, it states its frame. -/

open Sys2Proof Sys2Proof.Machine Sys2Proof.Safety

/-- Blocks of a leap crossing (07 R199–R208), of a direction that is UP with neither end in reset (log entry 152). A copy that fails its check, or whose SEQ is wrong, is rejected,
and a SEQ mismatch counts in ALIGN_ERR_CNT; a copy that passes waits as it was received; the second wrong marker in a row loses word
alignment. The one rejected block of a block time takes retry lane 0 when every lane is enabled; a clean resend makes it accepted, counts
it and counts the wires that differed; a rejected block that got no resend is lost; an accepted block shows its elements at its far port
14 executed cycles after entry, and a lost one shows zeros; a filler block counts a CRC error only; a rate window clears the error counts
of its direction; an aligned port is no longer lost. That a first wrong marker is retried, and what ends a row of misses, are the model's
choices, log entry 130; that a command carries the bits that arrive inverted is log entry 4. -/
def Obligations.LeapBlocks : Prop :=
  ((∀ ch t0 flips b s, s.d.dirUp (ch / 32) = true → s.d.blk ch t0 = some b → b.st = .accepted → (s.d.chan ch).lost = false →
    let rej (x : LBlk) : LBlk := { x with st := .rejected, flips := flips }
    let take (x : LBlk) : LBlk := { x with data := flipData x.data flips }
    let lose (x : LBlk) : LBlk := { x with st := .lost 3, flips := flips }
    let count (d : Dev) : Dev := d.bump (dirReg (ch / 32) .ALIGN_ERR_CNT)
    (checkBlk (ch % 32) t0 b.data flips = .fail →
      exec (.blockCheck ch t0 flips []) s = .next { s with d := s.d.modBlk ch t0 rej }) ∧
    (checkBlk (ch % 32) t0 b.data flips = .seq →
      exec (.blockCheck ch t0 flips []) s = .next { s with d := count (s.d.modBlk ch t0 rej) }) ∧
    (checkBlk (ch % 32) t0 b.data flips = .pass → isMarker t0 = false →
      exec (.blockCheck ch t0 flips []) s
        = .next { s with d := s.d.modBlk ch t0 take }) ∧
    (checkBlk (ch % 32) t0 b.data flips = .pass → isMarker t0 = true →
      exec (.blockCheck ch t0 flips []) s
        = .next { s with d := (s.d.setChan ch { s.d.chan ch with miss := 0 }).modBlk ch t0 take }) ∧
    (checkBlk (ch % 32) t0 b.data flips = .marker → (s.d.chan ch).miss = 0 →
      exec (.blockCheck ch t0 flips []) s
        = .next { s with d := count ((s.d.setChan ch { s.d.chan ch with miss := 1, lost := false }).modBlk ch t0 rej) }) ∧
    (checkBlk (ch % 32) t0 b.data flips = .marker → (s.d.chan ch).miss ≠ 0 →
      exec (.blockCheck ch t0 flips []) s
        = .next { s with
            d := count ((s.d.setChan ch { s.d.chan ch with miss := (s.d.chan ch).miss + 1, lost := true }).modBlk ch t0 lose) })) ∧
  (∀ ch t0 flips b s, s.d.dirUp (ch / 32) = true → s.d.blk ch t0 = some b → b.st = .accepted → (s.d.chan ch).lost = true →
    exec (.blockCheck ch t0 flips []) s
      = .next { s with d := s.d.modBlk ch t0 (fun x => { x with st := .lost 3, flips := flips }) }) ∧
  (∀ ch t0 flips s, s.d.dirUp (ch / 32) = false ∨ s.d.blk ch t0 = none → exec (.blockCheck ch t0 flips []) s = .next s)) ∧
  ((∀ dir t0 i b s, s.d.dirUp dir = true → i < 32 → s.d.blk (dir * 32 + i) t0 = some b → b.st = .rejected →
    (∀ j, j < 32 → j ≠ i → s.d.blk (dir * 32 + j) t0 = none) → getBits (s.d.reg (dirReg dir .DIR_CFG)) 27 24 = 0 →
    exec (.resend dir t0 false []) s
      = .next { s with d := s.d.modBlk (dir * 32 + i) t0 (fun x => { x with lane := some 0 }) }) ∧
  (∀ dir t0 s, (∀ j, j < 32 → s.d.blk (dir * 32 + j) t0 = none) ∨ s.d.dirUp dir = false →
    exec (.resend dir t0 false []) s = .next s) ∧
  (∀ dir t0 s, exec (.resend dir t0 true []) s = .next s)) ∧
  ((∀ dir t0 i r b s, i < 32 → s.d.blk (dir * 32 + i) t0 = some b → b.st = .rejected → b.lane = some r →
    (∀ j, j < 32 → j ≠ i → s.d.blk (dir * 32 + j) t0 = none) →
    let d1 := (s.d.modBlk (dir * 32 + i) t0 (fun x =>
      { x with st := .accepted, data := flipData b.data [], lane := none })).bump (dirReg dir .RETRY_CNT)
    exec (.retryCheck dir t0 []) s
      = .next { s with
          d := (wireDiff i (recvCopy i t0 b.data b.flips) (recvCopy i t0 b.data [])).foldl (fun x w => x.wireErr dir w) d1 }) ∧
  (∀ dir t0 i b s, i < 32 → s.d.blk (dir * 32 + i) t0 = some b → b.st = .rejected → b.lane = none →
    (∀ j, j < 32 → j ≠ i → s.d.blk (dir * 32 + j) t0 = none) → s.clk.dtime ≠ t0 + 13 →
    exec (.retryCheck dir t0 []) s = .next { s with d := s.d.loseBlk (dir * 32 + i) t0 2 })) ∧
  ((∀ ch b w s, (s.d.chan ch).line = [b] → b.t0 + 14 ≤ s.clk.dtime → s.clk.dtime < b.t0 + 18 →
    s.d.leapInBind ch = some w →
    let T := tileOf (leapTo ch) (getBits w 53 48)
    let d1 := s.d.setChan ch { s.d.chan ch with line := if s.clk.dtime < b.t0 + 17 then [b] else [] }
    let v := if b.st = .accepted then b.data.getD (s.clk.dtime - b.t0 - 14) 0 else 0
    exec (.delayLineRelease ch) s
      = .next { s with d := d1.setTport T (getBits w 40 40) { d1.tport T (getBits w 40 40) with leapV := v } }) ∧
  (∀ ch b s, (s.d.chan ch).line = [b] → s.d.leapInBind ch = none ∨ s.clk.dtime < b.t0 + 14 →
    exec (.delayLineRelease ch) s
      = .next { s with d := s.d.setChan ch { s.d.chan ch with line := if s.clk.dtime < b.t0 + 17 then [b] else [] } })) ∧
  (∀ ch s, exec (.fillerBlock ch true) s = .next { s with d := s.d.bump (dirReg (ch / 32) .FILLER_ERR_CNT) } ∧
    exec (.fillerBlock ch false) s = .next s) ∧
  (∀ dir s, ∃ t, exec (.rateWindow dir) s = .next t ∧
    (∀ w, t.d.reg (dirReg dir .WIRE_ERR w) = 0) ∧
    (∀ x, ¬ (x.r = .WIRE_ERR ∧ x.q = brOwner (dir / 2) ∧ x.i = brPage (dir / 2) ∧ x.j = dir % 2) → t.d.reg x = s.d.reg x) ∧
    t = { s with d := { s.d with regs := t.d.regs } }) ∧
  (∀ ch s, ((s.d.chan ch).lost = true → exec (.realignment ch []) s
      = .next { s with d := s.d.setChan ch { s.d.chan ch with lost := false, miss := 0 } }) ∧
    ((s.d.chan ch).lost = false → exec (.realignment ch []) s = .next s))

/-- Bridges (07 R205, R209–R211, R215): a lost forwarded clock takes its direction down and every block under way is lost for CLOCK; while
a boot trains the bridges, one whose tests pass comes up in both directions where the fuses that name the quarters are in order, and a
failed clock lock or wire test, a failed sub-link test and a failed identity end with their codes; REPAIR and RETRAIN are taken, or answer
BUSY or LIVE; a repair moves the flagged wire to a spare, and a retrain that holds brings the direction up with its ports aligned; DIR_CFG
takes its value, and keeps RATE_WIN where the value is reserved. The NoC sub-link (07 R213, R214): the next flit in order crosses and the
frame after it is expected, an idle frame changes nothing at its receiver, a frame whose CRC fails is counted and owes an ANAK, an ANAK
makes the sender replay, and a lost forwarded clock takes the direction DOWN. The model's choices are log entries 131 (a repair of a
direction not in service), 132 (a die without QPOS_VALID) and 133 (idle frames, credits); that a command carries what a test finds and the
bits inverted on the way is log entry 4. -/
def Obligations.LeapBridges : Prop :=
  ((∀ dir s, ∃ t, exec (.lfclkLoss dir) s = .next t ∧ t.d.clkLost dir = true ∧
    getBits (t.d.reg (dirReg dir .DIR_STAT)) 31 28 = 0 ∧
    (∀ i b, i < 32 → b ∈ (t.d.chan (dir * 32 + i)).line → b.st = .lost 4) ∧
    (∀ ch, ch / 32 ≠ dir → t.d.chan ch = s.d.chan ch) ∧
    (∀ x, x.r ≠ .DIR_STAT → x.r ≠ .BR_STAT → x.r ≠ .FAULT_CNT → x.r ≠ .FAULT_LOG → t.d.reg x = s.d.reg x) ∧
    t = { s with d := { s.d with lfLost := nset false s.d.lfLost dir true, regs := t.d.regs, leap := t.d.leap, occ := t.d.occ } }) ∧
  (∀ br p s, (s.d.bridgesTrain = false → exec (.bridgeTraining br p) s = .next s) ∧
    (s.d.bridgesTrain = true →
      let id := identityCode Config.fuseQpos
      (id ≠ 0 → exec (.bridgeTraining br p) s = .next { s with d := s.d.identityFail id }) ∧
      (id = 0 → p.clkOk = false ∨ sparesEnough p.fail0 p.bad0 = false ∨ sparesEnough p.fail1 p.bad1 = false →
        exec (.bridgeTraining br p) s = .next { s with d := s.d.bridgeFail br 0x24 }) ∧
      (id = 0 → p.clkOk = true → sparesEnough p.fail0 p.bad0 = true → sparesEnough p.fail1 p.bad1 = true →
        (p.nslOk = false ∨ 4 < p.nsl0.length ∨ 4 < p.nsl1.length →
          exec (.bridgeTraining br p) s = .next { s with d := s.d.bridgeFail br 0x25 }) ∧
        (p.nslOk = true → p.nsl0.length ≤ 4 → p.nsl1.length ≤ 4 →
          let d1 := (s.d.trainDir (br * 2) p.fail0 p.bad0).trainDir (br * 2 + 1) p.fail1 p.bad1
          let d2 := ((d1.trainNsl (br * 2) p.nsl0).trainNsl (br * 2 + 1) p.nsl1).prbsStart br
          exec (.bridgeTraining br p) s = .next { s with
            d := d2.setReg (brReg br .BR_STAT) (putBits (d2.reg (brReg br .BR_STAT)) 23 16 0) }))))) ∧
  ((∀ m q pg dir s, m.oid = 0 → q = 0 ∨ q = 3 →
    let br := brOf q pg
    let x := brReg br .REPAIR_STAT
    let run (kind : Nat) : Dev :=
      let d1 := (s.d.setRegN x (2 ^ 31 + dir % 2 * 2 ^ 8)).setDirState (br * 2 + dir % 2) 3
      { d1 with repairs := nset 0 d1.repairs br kind }
    ((s.d.reg x).getLsbD 31 = true →
      exec (.repair m q pg dir) s = .next { s with d := (s.d.setReg x (putBits (s.d.reg x) 27 24 4)).okay } ∧
      exec (.retrain m q pg dir) s = .next { s with d := (s.d.setReg x (putBits (s.d.reg x) 27 24 4)).okay }) ∧
    ((s.d.reg x).getLsbD 31 = false → s.d.dirLive (br * 2 + dir % 2) = true →
      exec (.repair m q pg dir) s = .next { s with d := (s.d.setRegN x (3 * 2 ^ 24 + dir % 2 * 2 ^ 8)).okay } ∧
      exec (.retrain m q pg dir) s = .next { s with d := (s.d.setRegN x (3 * 2 ^ 24 + dir % 2 * 2 ^ 8)).okay }) ∧
    ((s.d.reg x).getLsbD 31 = false → s.d.dirLive (br * 2 + dir % 2) = false →
      exec (.retrain m q pg dir) s = .next { s with d := (run 2).okay } ∧
      (s.d.dirUp (br * 2 + dir % 2) = true → exec (.repair m q pg dir) s = .next { s with d := (run 1).okay }) ∧
      (s.d.dirUp (br * 2 + dir % 2) = false →
        exec (.repair m q pg dir) s = .next { s with d := (s.d.setRegN x (5 * 2 ^ 24 + dir % 2 * 2 ^ 8)).okay }))) ∧
  (∀ br bad ok s,
    let dir := br * 2 + getBits (s.d.reg (brReg br .REPAIR_STAT)) 8 8
    let d0 : Dev := { s.d with repairs := nset 0 s.d.repairs br 0 }
    (nget 0 s.d.repairs br = 0 → exec (.repairDone br bad ok) s = .next s) ∧
    (2 ≤ nget 0 s.d.repairs br →
      exec (.repairDone br bad true) s = .next { s with
        d := ({ d0.portsAligned dir with lfLost := nset false s.d.lfLost dir false } : Dev).repairEnd dir 1 0 2 } ∧
      exec (.repairDone br bad false) s = .next { s with d := d0.repairEnd dir 5 0 4 }) ∧
    (nget 0 s.d.repairs br = 1 →
      let r := d0.moveFlagged dir bad
      exec (.repairDone br bad ok) s = .next { s with
        d := r.1.repairEnd dir (if r.2.2 = 0 then 1 else if r.2.2 = 1 then 2 else 5) r.2.1 2 })) ∧
  (∀ br w s, nget 0 s.d.repairs br = 1 →
    let dir := br * 2 + getBits (s.d.reg (brReg br .REPAIR_STAT)) 8 8
    s.d.flagged dir = [w] → (∀ k, k < 24 → s.d.reg (dirReg dir .SPARE_MAP k) = 0) →
    ∃ t, exec (.repairDone br [] true) s = .next t ∧ t.d.reg (dirReg dir .SPARE_MAP 0) = BitVec.ofNat 64 (2 ^ 31 + w) ∧
      t.d.wireFlag dir w = false ∧ getBits (t.d.reg (dirReg dir .DIR_STAT)) 31 28 = 2 ∧
      t.d.regN (brReg br .REPAIR_STAT) = 1 * 2 ^ 24 + dir % 2 * 2 ^ 8 + 1 ∧ t.d.leap = s.d.leap ∧
      nget 0 t.d.repairs br = 0) ∧
  (∀ m q pg dir v s, m.oid = 0 → q = 0 ∨ q = 3 → s.d.locked .LEAP q = false →
    let x := R.DIR_CFG.at q pg dir
    let y := R.DIR_STAT.at q pg dir
    let put (rw : Nat) : Dev :=
      let d1 := s.d.setRegN x (bitsOf v 27 24 * 2 ^ 24 + rw * 2 ^ 16 + bitsOf v 15 0)
      if getBits (s.d.reg y) 31 28 = 2 then d1.setReg y (putBits (s.d.reg y) 11 8 (lanesOn (bitsOf v 27 24))) else d1
    (16 ≤ bitsOf v 20 16 → bitsOf v 20 16 ≤ 30 →
      exec (.dirCfg m q pg dir v) s = .next { s with d := (put (bitsOf v 20 16)).okay }) ∧
    (bitsOf v 20 16 < 16 ∨ 30 < bitsOf v 20 16 →
      exec (.dirCfg m q pg dir v) s
        = .next { s with d := ((put (getBits (s.d.reg x) 20 16)).logWrite m x .reserved).okay })) ∧
  (∀ m q pg dir v s, m.oid = 0 → q = 0 ∨ q = 3 → s.d.locked .LEAP q = true →
    exec (.dirCfg m q pg dir v) s = .next { s with d := s.d.refuseAs m (R.DIR_CFG.at q pg dir) .locked })) ∧
  ((∀ dir f s, dir < 8 → s.d.nslUp dir = true →
    let x := s.d.nslDir dir
    let y := s.d.nslDir (revDir dir)
    x.wait = [] → x.buf = [] → x.sent = 0 → x.credit f.vc = true → x.next = x.expect → x.next < 1024 → y.nak = false →
    f.type ≠ 0 → f.type < 4 → f.vc < 4 → f.flit < 2 ^ 256 →
    ∃ t, exec (.nslFrame dir [f] []) s = .next t ∧ (t.d.nslDir dir).expect = (x.expect + 1) % 1024 ∧
      (t.d.nslDir dir).nak = false ∧ (t.d.nslDir dir).buf = [(x.next, f)] ∧ (t.d.nslDir dir).next = (x.next + 1) % 1024 ∧
      t.d.out = (s.d.send (.crossed dir f)).out ∧ (∀ e, e ≠ dir → e ≠ revDir dir → t.d.nslDir e = s.d.nslDir e) ∧
      t = { s with d := { s.d with nsl := t.d.nsl, out := t.d.out } }) ∧
  (∀ dir s, dir < 8 → s.d.nslUp dir = true → (s.d.nslDir dir).wait = [] →
    (s.d.nslDir dir).buf.drop (s.d.nslDir dir).sent = [] → (s.d.nslDir (revDir dir)).nak = false →
    ∃ t, exec (.nslFrame dir [] []) s = .next t ∧ t.d.nslDir dir = s.d.nslDir dir ∧
      (∀ e, e ≠ dir → e ≠ revDir dir → t.d.nslDir e = s.d.nslDir e) ∧ t = { s with d := { s.d with nsl := t.d.nsl } }) ∧
  (∀ dir s, dir < 8 → s.d.nslUp dir = true → s.d.nslUp (revDir dir) = true → (s.d.nslDir dir).wait = [] →
    (s.d.nslDir dir).buf.drop (s.d.nslDir dir).sent = [] →
    let y := s.d.nslDir (revDir dir)
    let aack := (y.expect + 1023) % 1024
    y.nak = true → y.buf ≠ [] → y.buf.findIdx? (fun e => e.1 == aack) = none → y.from_ ≠ aack →
    ∃ t, exec (.nslFrame dir [] []) s = .next t ∧ (t.d.nslDir (revDir dir)).sent = 0 ∧
      (t.d.nslDir (revDir dir)).from_ = aack ∧ (t.d.nslDir (revDir dir)).replays = 1 ∧
      (t.d.nslDir (revDir dir)).buf = y.buf ∧ t.d.nslDir dir = s.d.nslDir dir ∧
      t = { s with d := { s.d.bump (dirReg (revDir dir) .NSL_REPLAY_CNT) with nsl := t.d.nsl } }) ∧
  (∀ dir offer flips s, s.d.nslUp dir = true →
    let x := s.d.nslDir dir
    let y := s.d.nslDir (revDir dir)
    let r := ({ x with wait := x.wait ++ offer } : NslDir).send
    let w := nslWire (nslBody r.2 r.1 ((y.expect + 1023) % 1024) y.nak y.creditField) flips
    w.2 ≠ Config.crc24 w.1 % 2 ^ 24 →
    exec (.nslFrame dir offer flips) s
      = .next { s with d := ((s.d.setNsl dir r.2).setNsl dir { r.2 with nak := true }).bump (dirReg dir .NSL_CRC_CNT) }) ∧
  (∀ dir s, (s.d.nslUp dir = false → (∀ offer flips, exec (.nslFrame dir offer flips) s = .next s) ∧
      exec (.nfclkLoss dir) s = .next s) ∧
    (s.d.nslUp dir = true →
      exec (.nfclkLoss dir) s = .next { s with
        d := (s.d.setNslState dir 0).raise (brOwner (dir / 2)) (0x01C + 2 * brPage (dir / 2) + dir % 2) })))

/-- The array's commands (02 R28, R29, R38, R60; 03 R94, R96; 05 R136, R155). In a tick that executes, an executed cycle lets what lies 6
ACLK back enter its head stage, does what a cycle does, and advances DTIME by one, at most 64 times; in a tick that executes nothing it
changes nothing. An entry that a read has found corrected is written back, and any other stays as it is. A vertical port bound as an input
draws one committed word where stage and transit hold fewer than 8 and nothing has been drawn at this ACLK of an executing tick, and draws
nothing otherwise. The oldest element in transit enters the head stage 6 ACLK after its draw, and not before. That in a tick which
executes nothing a command tells that the 6 ACLK have passed is the model's choice, log entry 122. -/
def Obligations.ArrayCommands : Prop :=
  (∀ ups s, s.clk.runs = true → s.clk.cyc < 64 →
    exec (.executedCycle ups) s
      = .next { s with d := (s.d.stagesDue s.clk.aclk).cycle s.clk.dtime ups,
                       clk := { s.clk with dtime := s.clk.dtime + 1, cyc := s.clk.cyc + 1 } }) ∧
  (∀ ups s, s.clk.runs = false ∨ 64 ≤ s.clk.cyc → exec (.executedCycle ups) s = .next s) ∧
  (∀ T cell i s, (s.d.mark (eccCtx T cell i)).isFound = true →
    exec (.ctxWriteback .ctx T cell i) s = .next { s with d := s.d.setMark (eccCtx T cell i) .ok }) ∧
  (∀ T cell i s, (s.d.mark (eccSw T i)).isFound = true →
    exec (.ctxWriteback .sw T cell i) s = .next { s with d := s.d.setMark (eccSw T i) .ok }) ∧
  (∀ T cell i s, (s.d.mark (eccSeq T i)).isFound = true →
    exec (.ctxWriteback .seqw T cell i) s = .next { s with d := s.d.setMark (eccSeq T i) .ok }) ∧
  (∀ T cell i s, (s.d.mark (eccCtx T cell i)).isFound = false → exec (.ctxWriteback .ctx T cell i) s = .next s) ∧
  (∀ T cell i s, (s.d.mark (eccSw T i)).isFound = false → exec (.ctxWriteback .sw T cell i) s = .next s) ∧
  (∀ T cell i s, (s.d.mark (eccSeq T i)).isFound = false → exec (.ctxWriteback .seqw T cell i) s = .next s) ∧
  (∀ vp s,
    let t := s.d.vpTile vp
    let p := s.d.tport t.1 t.2
    let may := s.d.vpIn vp = true ∧ p.head.length + p.transit.length < 8 ∧
      (s.clk.runs = false ∨ ∀ e, e ∈ p.transit → e.2 ≠ s.clk.aclk)
    (∀ w r, may → s.d.fifo vp = .word w :: r →
      exec (.draw vp) s
        = .next { s with d := (s.d.setFifo vp r).setTport t.1 t.2 { p with transit := p.transit ++ [(w, s.clk.aclk)] } }) ∧
    (may → (∀ w r, s.d.fifo vp ≠ .word w :: r) → exec (.draw vp) s = .next s) ∧
    (¬ may → exec (.draw vp) s = .next s)) ∧
  (∀ vp s,
    let t := s.d.vpTile vp
    let p := s.d.tport t.1 t.2
    (∀ w at0 r, s.d.vpIn vp = true → p.transit = (w, at0) :: r →
      (s.clk.runs = false ∨ at0 + 6 ≤ s.clk.aclk →
        exec (.headStageEntry vp) s
          = .next { s with d := s.d.setTport t.1 t.2 { p with transit := r, head := p.head ++ [w] } }) ∧
      (s.clk.runs = true → s.clk.aclk < at0 + 6 → exec (.headStageEntry vp) s = .next s)) ∧
    (s.d.vpIn vp = false ∨ p.transit = [] → exec (.headStageEntry vp) s = .next s))

/-- NoC accesses to tile memory and the banks of a tile (05 R145–R152, 09 R257, R261). A waiting access with no earlier one of its master
to its block uses port B in a cycle that leaves it free: a word written is stored, unless a cell writes it through port A in that cycle,
when it is lost and COLLIDED is set; a word read gives what a cell stores in that cycle, else what the bank holds. The last word is
answered, COLLIDED where a word was lost, SLVERR where a word read cannot be corrected; a molting bank, and a cluster that is not ON,
answer SLVERR; a timed-out access sets NTO and is answered SLVERR; where the port is taken it waits. What its master held back is issued
next. A word that a read has found corrected is written back in a cycle without a port B write; an admitted change of TMEM_OWN hands over
each named bank, which molts until BANK_MOLT zeroes it, and others are dropped with a refusal; an address-generator register of a position
without a live slot takes its value. Which of the waiting accesses goes next is the command's operand, the model's choice, log entry 108.
-/
def Obligations.TileMemory : Prop :=
  (∀ n s, s.d.arr.tmemq[n]? = none → exec (.tmemNocAccess n) s = .next s ∧ exec (.nocTimeout n) s = .next s) ∧
  (∀ n r s, s.d.arr.tmemq[n]? = some r → r.epoch = s.d.epochOf r.mid →
    (s.d.tmemBehind n r = true → exec (.tmemNocAccess n) s = .next { s with d := s.d.releaseHeld s.clk }) ∧
    (s.d.tmemBehind n r = false → s.d.bankMolting r.tile r.bank = true ∨ s.d.cluDomain (tileCluster r.tile) ≠ 0 →
      exec (.tmemNocAccess n) s
        = .next { s with d := (((s.d.dropTmemReq n).nocErr (quarterOf (tileCluster r.tile)) r.mid r.addr .slverr).answer
            .slverr 0).releaseHeld s.clk }) ∧
    (s.d.tmemBehind n r = false → s.d.bankMolting r.tile r.bank = false → s.d.cluDomain (tileCluster r.tile) = 0 →
      (s.clk.runs = true ∧ s.clk.executing = false) ∨ s.d.portBusy s.clk r.write r.tile r.bank = true →
      exec (.tmemNocAccess n) s = .next { s with d := s.d.releaseHeld s.clk }) ∧
    (s.d.tmemBehind n r = false → s.d.bankMolting r.tile r.bank = false → s.d.cluDomain (tileCluster r.tile) = 0 →
      s.clk.runs = false ∨ s.clk.executing = true → s.d.portBusy s.clk r.write r.tile r.bank = false →
      let a := tmemAddr r.tile r.bank r.word
      (r.write = true → s.d.storeDue s.clk a true = none →
        let d1 := (s.d.tmemWrite r.tile r.bank r.word (r.data.headD 0)).takeB s.clk true r.tile r.bank
        (r.left ≤ 1 → exec (.tmemNocAccess n) s = .next { s with
          d := ((d1.dropTmemReq n).answer (if r.collided then .collided else .okay) 0).releaseHeld s.clk }) ∧
        (1 < r.left → exec (.tmemNocAccess n) s = .next { s with
          d := (d1.setTmemReq n { r with word := r.word + 1, data := r.data.drop 1, left := r.left - 1,
                                         got := r.got ++ [r.data.headD 0] }).releaseHeld s.clk })) ∧
      (∀ v, r.write = true → s.d.storeDue s.clk a true = some v →
        let d1 := ((s.d.tmemCollide r.tile r.bank).setBit (s.d.tileReg r.tile .TMEM_FLAGS) (4 + r.bank) true).takeB s.clk true r.tile r.bank
        (r.left ≤ 1 → exec (.tmemNocAccess n) s = .next { s with
          d := ((d1.dropTmemReq n).answer .collided 0).releaseHeld s.clk }) ∧
        (1 < r.left → exec (.tmemNocAccess n) s = .next { s with
          d := (d1.setTmemReq n { r with word := r.word + 1, data := r.data.drop 1, left := r.left - 1, collided := true,
                                         got := r.got ++ [r.data.headD 0] }).releaseHeld s.clk })) ∧
      (r.write = false →
        let x : Option Word × Dev := match s.d.storeDue s.clk a true, s.d.storeDue s.clk a false with
          | some v, _ => (some v, s.d)
          | none, some v => (some v, s.d)
          | none, none => s.d.tmemRead r.tile r.bank r.word 1
        let d1 := x.2.takeB s.clk false r.tile r.bank
        (∀ v, x.1 = some v → r.left ≤ 1 → r.collided = false → exec (.tmemNocAccess n) s = .next { s with
          d := ((d1.dropTmemReq n).answerBurst .okay (r.got ++ [v])).releaseHeld s.clk }) ∧
        (x.1 = none ∨ r.collided = true → r.left ≤ 1 → exec (.tmemNocAccess n) s = .next { s with
          d := ((((d1.dropTmemReq n).nocErr (quarterOf (tileCluster r.tile)) r.mid r.addr .slverr).answerBurst .slverr
            (r.got ++ [x.1.getD 0]))).releaseHeld s.clk }) ∧
        (1 < r.left → exec (.tmemNocAccess n) s = .next { s with
          d := (d1.setTmemReq n { r with word := r.word + 1, left := r.left - 1, collided := r.collided || x.1.isNone,
                                         got := r.got ++ [x.1.getD 0] }).releaseHeld s.clk }))) ∧
    (getBits (s.d.reg (s.d.tileReg r.tile .TMEM_NOCTO)) 15 0 ≠ 0 →
      exec (.nocTimeout n) s = .next { s with
        d := ((((s.d.dropTmemReq n).setBit (s.d.tileReg r.tile .TMEM_FLAGS) (8 + r.bank) true).nocErr
          (quarterOf (tileCluster r.tile)) r.mid r.addr .slverr).answer .slverr 0).releaseHeld s.clk }) ∧
    (getBits (s.d.reg (s.d.tileReg r.tile .TMEM_NOCTO)) 15 0 = 0 →
      exec (.nocTimeout n) s = .next { s with d := s.d.releaseHeld s.clk })) ∧
  (∀ T b w s,
    let a := tmemAddr T b w
    ((nget Ecc.ok s.d.ecc a).isFound = true → s.d.portBusy s.clk true T b = false →
      exec (.tmemWriteback T b w) s = .next { s with d := { s.d with ecc := nset .ok s.d.ecc a .ok } }) ∧
    ((nget Ecc.ok s.d.ecc a).isFound = false ∨ s.d.portBusy s.clk true T b = true →
      exec (.tmemWriteback T b w) s = .next s)) ∧
  (∀ m q l p v s, m.oid = 0 → s.d.pageMapped q l p = true →
    let T := s.d.pageTile q l p
    let old := s.d.regN (R.TMEM_OWN.at q l p)
    let ch := (upTo 4).filter (fun b => v / 2 ^ (4 * b) % 16 != old / 2 ^ (4 * b) % 16)
    let may (b : Nat) : Bool := s.d.handoverOk (clusterOf q l) T b (old / 2 ^ (4 * b) % 16) (v / 2 ^ (4 * b) % 16)
    ((∀ b, b ∈ ch → may b = true) →
      exec (.tmemOwn m q l p v) s
        = .next { s with d := (ch.foldl (fun y b => y.handover T b (v / 2 ^ (4 * b) % 16)) s.d).okay }) ∧
    (∀ b, b ∈ ch → may b = false →
      let d1 := (ch.filter may).foldl (fun y b => y.handover T b (v / 2 ^ (4 * b) % 16)) s.d
      exec (.tmemOwn m q l p v) s = .next { s with d := d1.refuse m (R.TMEM_OWN.at q l p) })) ∧
  (∀ T b s, (s.d.bankMolting T b = true → exec (.bankMolt T b) s
      = .next { s with d := (s.d.setBit (s.d.tileReg T .TMEM_STAT) b false).tmemZero T b }) ∧
    (s.d.bankMolting T b = false → exec (.bankMolt T b) s = .next s)) ∧
  (∀ m q l p n v s, m.oid = 0 → s.d.pageMapped q l p = true →
    (s.d.posLive (clusterOf q l) (n / 8) = false →
      exec (.agreg m q l p n v) s
        = .next { s with d := (s.d.setRegN (R.AGREG.at q l p n) (v &&& 0xFFF07FF07FF07FF)).okay }) ∧
    (s.d.posLive (clusterOf q l) (n / 8) = true →
      exec (.agreg m q l p n v) s = .next { s with d := s.d.refuse m (R.AGREG.at q l p n) })) ∧
  (∀ m q l p n v s, m.oid = 0 → s.d.pageMapped q l p = false →
    exec (.tmemOwn m q l p v) s = .next { s with d := s.d.refuse m (R.TMEM_OWN.at q l p) } ∧
    exec (.agreg m q l p n v) s = .next { s with d := s.d.refuse m (R.AGREG.at q l p n) })

/-- Requests to HBM (09 R249–R252, R256–R258, R261, R263, R265). A burst that breaks R256 changes nothing, and one that its master must
hold back is held; an address that is no HBM is answered DECERR, a route that is down and a stack that is OFF SLVERR. Otherwise the home
quarter's sleeping domains wake, and an access that fails the window check is answered SLVERR, counted, logged and raised; one that passes
it passes the stream cache line by line, then stores the bytes of its data, or returns the bytes that stand in memory; a read that meets a
poisoned 64-byte unit is answered SLVERR with that unit's bytes 0, the unit logged, counted and raised where its line was not cached, and
a corrected error is counted. Home banks (11 R328–R332). The words that port 0 writes in the same cycle land first. A read of sound words
returns their bytes; an aligned word written by a master that the bank accepts is stored with sound check bits; a word that port 0 writes
too is lost, counted and answered COLLIDED; a request that the bank does not accept, or that finds it molting, is answered SLVERR; a word
that a read found corrected is written back. The model's choices are log entries 15, 18 and 108. -/
def Obligations.MemoryAccess : Prop :=
  (∀ a0 noalloc e s, s.d.sysHalt = false ∨ a0.m.mid = 0x4C0 →
    let a := s.d.issued a0
    (burstOk a0 = false → exec (.hbmAccess a0 noalloc e) s = .next s) ∧
    (burstOk a0 = true → s.d.mustHold a = true →
      exec (.hbmAccess a0 noalloc e) s = .next { s with d := s.d.hold a noalloc e }) ∧
    (burstOk a0 = true → s.d.mustHold a = false →
      let q := homeOf a0.addr
      let st := 17 + stackOf a0.addr
      let bytes := List.replicate (if a0.write then 0 else a0.size) (0 : Byte)
      (isHbm a0.addr = false → exec (.hbmAccess a0 noalloc e) s = .next { s with
        d := (s.d.nocErr (s.d.midQuarter a0.m.mid) a0.m.mid a0.addr .decerr).reply ⟨.decerr, bytes⟩ }) ∧
      (isHbm a0.addr = true → s.d.routeOk (s.d.midQuarter a0.m.mid) q = false ∨ s.d.domCur q st = 2 →
        exec (.hbmAccess a0 noalloc e) s = .next { s with
          d := (s.d.nocErr q a0.m.mid a0.addr .slverr).reply ⟨.slverr, bytes⟩ }) ∧
      (isHbm a0.addr = true → s.d.routeOk (s.d.midQuarter a0.m.mid) q = true → s.d.domCur q st ≠ 2 →
        let w := (s.d.wakeDom q 16).wakeDom q st
        (w.winOk a.m.oid a0.addr a0.write = false →
          exec (.hbmAccess a0 noalloc e) s = .next { s with
            d := (w.winFault a0.m.mid a.m.oid a0.addr a0.write).reply ⟨.slverr, bytes⟩ }) ∧
        (w.winOk a.m.oid a0.addr a0.write = true →
          let r := w.sccPass a.m.oid a0.addr a0.size a0.write noalloc e
          let missed := r.2.contains (a0.addr / 256)
          let d1 := if missed = true ∧ e = .ce then r.1.bump (R.HBM_CE_CNT.at q (stackOf a0.addr))
            else if missed = true ∧ e = .ue then r.1.poisonUnits a0.addr 1 else r.1
          let bad := (unitsOf a0.addr a0.size).filter (fun u => d1.unitBad u)
          (a0.write = true → exec (.hbmAccess a0 noalloc e) s = .next { s with
            d := ((r.1.setBytes a0.addr (leBytes a0.data a0.size)).coverUnits a0.addr a0.size).reply ⟨.okay, []⟩ }) ∧
          (a0.write = false → bad = [] →
            exec (.hbmAccess a0 noalloc e) s = .next { s with d := d1.reply ⟨.okay, d1.bytes a0.addr a0.size⟩ }) ∧
          (a0.write = false → bad ≠ [] →
            let d2 := (bad.filter (fun u => r.2.contains (u / 256))).foldl (fun x u => x.hbmUe u) d1
            exec (.hbmAccess a0 noalloc e) s = .next { s with
              d := (d2.nocErr q a0.m.mid a0.addr .slverr).reply ⟨.slverr, d2.goodBytes a0.addr a0.size⟩ }))))) ∧
  (∀ a0 p0 e s, s.d.sysHalt = false ∨ a0.m.mid = 0x4C0 → burstOk a0 = true → isBank a0.addr = true →
    let a := s.d.issued a0
    let n := bankOf a0.addr
    let bytes := List.replicate (if a0.write then 0 else a0.size) (0 : Byte)
    (s.d.mustHold a = true → exec (.homeBankAccess a0 p0 e) s = .next { s with d := s.d.hold a false e }) ∧
    (s.d.mustHold a = false → s.d.routeOk (s.d.midQuarter a0.m.mid) (n / 16) = false →
      exec (.homeBankAccess a0 p0 e) s = .next { s with
        d := (s.d.nocErr (n / 16) a0.m.mid a0.addr .slverr).reply ⟨.slverr, bytes⟩ }) ∧
    (s.d.mustHold a = false → s.d.routeOk (s.d.midQuarter a0.m.mid) (n / 16) = true →
      let w := (s.d.wakeDom (n / 16) 16).bnkPort0 n p0
      (w.bnkMolting n = true ∨ w.bnkAccepts n a = false →
        exec (.homeBankAccess a0 p0 e) s = .next { s with
          d := (w.nocErr (n / 16) a0.m.mid a0.addr .slverr).reply ⟨.slverr, bytes⟩ }) ∧
      (w.bnkMolting n = false → w.bnkAccepts n a = true →
        (a0.write = false → e = .none → (∀ x, x ∈ wordsTouched a0.addr a0.size → w.bnkBad x = false) →
          exec (.homeBankAccess a0 p0 e) s = .next { s with d := w.reply ⟨.okay, w.bnkBytes a0.addr a0.size⟩ }) ∧
        (∀ x r, a0.write = false → e = .none → (wordsTouched a0.addr a0.size).filter (fun y => w.bnkBad y) = x :: r →
          let d2 := (x :: r).foldl (fun y z => y.bnkUe z 1) w
          exec (.homeBankAccess a0 p0 e) s = .next { s with
            d := (d2.nocErr (n / 16) a0.m.mid a0.addr .slverr).reply ⟨.slverr, d2.bnkBytes a0.addr a0.size⟩ }) ∧
        (a0.write = true → a0.addr % 8 = 0 → a0.size = 8 → (port0Words n p0).contains a0.addr = false →
          exec (.homeBankAccess a0 p0 e) s = .next { s with
            d := ((w.setBytes a0.addr (leBytes a0.data 8)).bnkMark a0.addr .ok).reply ⟨.okay, []⟩ }) ∧
        (a0.write = true → a0.addr % 8 = 0 → a0.size = 8 → (port0Words n p0).contains a0.addr = true →
          exec (.homeBankAccess a0 p0 e) s = .next { s with
            d := ((w.bumpTo (coreReg n .BNK_CCNT) 0xFFFF).setBit (coreReg n .BNK_FLAGS) 0 true).reply ⟨.collided, []⟩ })))) ∧
  (∀ a0 p0 e s, burstOk a0 = false ∨ isBank a0.addr = false → exec (.homeBankAccess a0 p0 e) s = .next s) ∧
  (∀ n w s,
    ((nget Ecc.ok s.d.ecc (bankBase n + w * 8)).isFound = true →
      exec (.bnkCeWriteback n w) s = .next { s with d := s.d.bnkMark (bankBase n + w * 8) .ok }) ∧
    ((nget Ecc.ok s.d.ecc (bankBase n + w * 8)).isFound = false → exec (.bnkCeWriteback n w) s = .next s))

/-- Windows, fences and bandwidth shares (09 R253, R258, R259, R264). A write of WIN_ENT that changes VALID or OID sets MOLTING and queues
a molt, and ends a load whose image lies in the window; one that changes WPROT alone takes effect at once; one that R253 does not accept
is refused. The molt at the head drops the cached lines, zeroes the 2 MiB and puts the new VALID and OID in effect; a fence completes when
its master has nothing outstanding, and what the master held behind it is issued; GRP_RATE and NOC_WEIGHT take a value that keeps the
quarter's sum in its limit and drop any other. The model's choices are log entries 27 and 111. -/
def Obligations.MemoryControl : Prop :=
  (∀ m q i v s, m.oid = 0 →
    let x := R.WIN_ENT.at q i
    let same := bitsOf v 31 31 = getBits (s.d.reg x) 31 31 ∧ bitsOf v 10 0 = getBits (s.d.reg x) 10 0
    let d1 := s.d.setReg x (putBits (s.d.reg x) 29 29 (v / 2 ^ 29))
    (s.d.winEntOk q i = true → ¬ same →
      exec (.winEnt m q i v) s = .next { s with
        d := (((d1.setBit x 30 true).setMoltQ q (d1.moltQ q ++ [(i, v)])).loadsWindow (q * hbmQuarter / 2 ^ 21 + i)).okay }) ∧
    (s.d.winEntOk q i = true → same → exec (.winEnt m q i v) s = .next { s with d := d1.okay }) ∧
    (s.d.winEntOk q i = false → exec (.winEnt m q i v) s = .next { s with d := s.d.refuse m x })) ∧
  (∀ q i v r s, s.d.moltQ q = (i, v) :: r →
    let a := q * hbmQuarter + i * 2 ^ 21
    ∃ t, exec (.windowMolt q) s = .next t ∧
      (∀ x, a ≤ x → x < a + 2 ^ 21 → t.d.byte x = memDflt x) ∧
      (∀ x, ¬ (a ≤ x ∧ x < a + 2 ^ 21) → t.d.byte x = s.d.byte x) ∧
      getBits (t.d.reg (R.WIN_ENT.at q i)) 31 31 = bitsOf v 31 31 ∧
      getBits (t.d.reg (R.WIN_ENT.at q i)) 10 0 = bitsOf v 10 0 ∧
      getBits (t.d.reg (R.WIN_ENT.at q i)) 30 30 = 0 ∧ t.d.moltQ q = r ∧
      (∀ x, x ≠ R.WIN_ENT.at q i → x ≠ R.WIN_MOLT.at q → t.d.reg x = s.d.reg x) ∧
      t = { s with d := { s.d with regs := t.d.regs, mem := t.d.mem, ecc := t.d.ecc, scc := t.d.scc, molts := t.d.molts,
                                   cmds := t.d.cmds } }) ∧
  (∀ q s, s.d.moltQ q = [] → exec (.windowMolt q) s = .next s) ∧
  (∀ mid s, s.d.sysHalt = false →
    (s.d.outstanding mid = false →
      let d1 : Dev := { s.d with fences := nset false s.d.fences mid false }
      exec (.fenceCompletion mid) s = .next { s with d := d1.releaseHeld s.clk }) ∧
    (s.d.outstanding mid = true → exec (.fenceCompletion mid) s = .next { s with d := s.d.releaseHeld s.clk })) ∧
  (∀ m q g v s, m.oid = 0 →
    let sum := s.d.regN (R.GRP_RSUM.at q) - s.d.fld F.GRP_RATE_RATE q g + v % 1024
    (sum ≤ 768 → exec (.grpRate m q g v) s
      = .next { s with d := ((s.d.setFld F.GRP_RATE_RATE v q g).setRegN (R.GRP_RSUM.at q) sum).okay }) ∧
    (768 < sum → exec (.grpRate m q g v) s = .next { s with d := s.d.refuse m (R.GRP_RATE.at q g) })) ∧
  (∀ m q g v s, m.oid = 0 →
    let sum := s.d.regN (R.NOC_WSUM.at q) - s.d.fld F.NOC_WEIGHT_W q g + v % 256
    (sum ≤ 240 → exec (.nocWeight m q g v) s
      = .next { s with d := ((s.d.setFld F.NOC_WEIGHT_W v q g).setRegN (R.NOC_WSUM.at q) sum).okay }) ∧
    (240 < sum → exec (.nocWeight m q g v) s = .next { s with d := s.d.refuse m (R.NOC_WEIGHT.at q g) }))

/-- The commands of DSP_CMD (10 R280, R282, R284, R291–R294). A SUBMIT of a task that is not live, whose TCB is read and checks, makes the
task of the TCB; one of a live task, of a TCB that cannot be read and of one that does not check is logged with its reason and answered
SLVERR, as is every command of a master or for a task that R282 does not allow; a SIGNAL lowers DEPCNT by one and the last one releases a
WAITING task; a WAKE releases a task that waits for an event and marks any other; a CANCEL completes a task that is not RUNNING, or a NODE
handed and not admitted, with status 0x01. An accepted command answers OKAY, and one whose task a full list holds back is not acknowledged
until it is placed. The model's choices are log entries 20, 21 and 135 (the order of STATE and RANGE). -/
def Obligations.DispatchCommands : Prop :=
  (∀ m q t s, s.d.dspGate m q t = none →
    let r := s.d.hbm (rdReq (sliceMid (t / 2 ^ 18)) 0 (s.d.tcbAddr t) 128) false .none
    (s.d.task t = none → r.2.code = .okay → r.1.tcbOk t r.2.data = true →
      exec (.submit m q t) s
        = .next { s with d := (r.1.submitTask s.clk.tick t (taskOf r.2.data) (some m.mid)).dspAck s.d m t }) ∧
    (s.d.task t ≠ none →
      exec (.submit m q t) s = .next { s with d := (s.d.dspErr q 1 t 3 m.mid).slverr m (R.DSP_CMD.at q) }) ∧
    (s.d.task t = none → r.2.code ≠ .okay →
      exec (.submit m q t) s = .next { s with d := (r.1.dspErr q 1 t 7 m.mid).slverr m (R.DSP_CMD.at q) }) ∧
    (s.d.task t = none → r.2.code = .okay → r.1.tcbOk t r.2.data = false →
      exec (.submit m q t) s = .next { s with d := (r.1.dspErr q 1 t 4 m.mid).slverr m (R.DSP_CMD.at q) })) ∧
  (∀ m q t reason s, s.d.dspGate m q t = some reason →
    exec (.submit m q t) s
      = .next { s with d := (s.d.dspErr q 1 t reason m.mid).slverr m (R.DSP_CMD.at q) } ∧
    exec (.wake m q t) s
      = .next { s with d := (s.d.dspErr q 3 t reason m.mid).slverr m (R.DSP_CMD.at q) } ∧
    exec (.cancel m q t) s
      = .next { s with d := (s.d.dspErr q 4 t reason m.mid).slverr m (R.DSP_CMD.at q) }) ∧
  (∀ m q t reason s, dspWho m q t = some reason ∨ (dspWho m q t = none ∧ s.d.sigReject t = some reason) →
    exec (.signal m q t) s
      = .next { s with d := (s.d.dspErr q 2 t reason m.mid).slverr m (R.DSP_CMD.at q) }) ∧
  (∀ m q t x s, dspWho m q t = none → s.d.sigReject t = none → s.d.task t = some x →
    let x1 : Task := { x with depcnt := x.depcnt - 1 }
    let d1 := ((s.d.setTask t (some x1)).tcbWrite t 0x06 2 x1.depcnt).trace s.clk.tick t x1 ⟨0x0D, 0, 0, 0, x1.depcnt⟩
    (2 ≤ x.depcnt ∨ x.st ≠ .waiting ∨ x.evwait = true → exec (.signal m q t) s = .next { s with d := d1.dspAck s.d m t }) ∧
    (x.depcnt = 1 → x.st = .waiting → x.evwait = false →
      exec (.signal m q t) s
        = .next { s with d := (d1.releaseOrHold s.clk.tick t x1 0x01 (some m.mid)).dspAck s.d m t })) ∧
  (∀ m q t s, s.d.dspGate m q t = none → s.d.task t = none →
    exec (.wake m q t) s = .next { s with d := (s.d.dspErr q 3 t 3 m.mid).slverr m (R.DSP_CMD.at q) } ∧
    exec (.cancel m q t) s = .next { s with d := (s.d.dspErr q 4 t 3 m.mid).slverr m (R.DSP_CMD.at q) }) ∧
  (∀ m q t x s, s.d.dspGate m q t = none → s.d.task t = some x →
    (x.evwait = false ∨ (x.st ≠ .waiting ∧ x.st ≠ .delayed) →
      exec (.wake m q t) s = .next { s with
        d := ((s.d.putTask t { x with pendwake := true }).trace s.clk.tick t x ⟨0x09, 0, 0x02, 0, 0⟩).dspAck s.d m t }) ∧
    (x.evwait = true → x.st = .waiting ∨ x.st = .delayed →
      let x1 : Task := { x with evwait := false, st := .waiting }
      let x2 : Task := { x with evwait := false }
      (x.depcnt ≠ 0 → exec (.wake m q t) s = .next { s with
        d := (((s.d.unlist t).putTask t x1).trace s.clk.tick t x1 ⟨0x09, 0, 0x02, 0, 0⟩).dspAck s.d m t }) ∧
      (x.depcnt = 0 → s.d.readyRoom (t / 2 ^ 18) x.level = true → exec (.wake m q t) s = .next { s with
        d := ((((s.d.unlist t).putTask t x1).trace s.clk.tick t x1 ⟨0x09, 0, 0x02, 0, 0⟩).releaseOrHold s.clk.tick t x1 0x02
          (some m.mid)).dspAck s.d m t }) ∧
      (x.depcnt = 0 → s.d.readyRoom (t / 2 ^ 18) x.level = false → exec (.wake m q t) s = .next { s with
        d := (((s.d.putTask t x2).trace s.clk.tick t x2 ⟨0x09, 0, 0x02, 0, 0⟩).releaseOrHold s.clk.tick t x2 0x02
          (some m.mid)).dspAck s.d m t }))) ∧
  (∀ m q t x s, s.d.dspGate m q t = none → s.d.task t = some x →
    (s.d.handedOnly t x = true →
      exec (.cancel m q t) s = .next { s with d := (s.d.complete s.clk.tick t 0x01 0 0x0C 0x0A).okay }) ∧
    (s.d.handedOnly t x = false → x.st ≠ .running →
      exec (.cancel m q t) s = .next { s with d := (s.d.complete s.clk.tick t 0x01 0 0x0A 0x0A).okay }) ∧
    (s.d.handedOnly t x = false → x.st = .running →
      exec (.cancel m q t) s = .next { s with d := (s.d.dspErr q 4 t 3 m.mid).slverr m (R.DSP_CMD.at q) }))

/-- The lists of a slice (10 R280, R289, R290, R292, R294, R301). Of the delayed tasks whose wake time has come the first becomes READY
while the ready list has room, and stays, counted once, while it has none; what a full list held back first is placed, acknowledged,
signalled or noted once there is room; with EN set, the first READY NODE that may go to a slot goes to a free slot that takes it, one
whose generation is stale completes with status 0x07, one whose slot is STOPPED, TADPOLE or UNDEFINED with status 0x05, and one that no
slot takes gives way to the next; a replica group takes a value that keeps R301 and drops any other. -/
def Obligations.DispatchLists : Prop :=
  (∀ q s, s.d.sysHalt = false →
    (s.d.firstDue s.clk.tick q = none → exec (.wakeTimeReached q) s = .next s) ∧
    (∀ t x, s.d.firstDue s.clk.tick q = some t → s.d.task t = some x →
      (s.d.readyRoom q x.level = true →
        exec (.wakeTimeReached q) s = .next { s with d := s.d.toReady s.clk.tick t x 0x03 }) ∧
      (s.d.readyRoom q x.level = false → x.placed = true →
        exec (.wakeTimeReached q) s
          = .next { s with d := (s.d.setTask t (some { x with placed := false })).bump (R.DSP_BP_CNT.at q) }) ∧
      (s.d.readyRoom q x.level = false → x.placed = false → exec (.wakeTimeReached q) s = .next s))) ∧
  (∀ q s, s.d.sysHalt = false →
    ((s.d.slice q).held = [] → exec (.heldCommandPlaced q) s = .next s) ∧
    (∀ t why ack x r, (s.d.slice q).held = .place t why ack :: r → s.d.task t = some x →
      let d1 := (s.d.setSlice q { s.d.slice q with held := r }).releaseFor s.clk.tick t x why
      (s.d.roomAfter s.clk.tick q x why = true → ack = none → exec (.heldCommandPlaced q) s = .next { s with d := d1 }) ∧
      (∀ mid, s.d.roomAfter s.clk.tick q x why = true → ack = some mid →
        exec (.heldCommandPlaced q) s = .next { s with d := d1.ackHeld mid }) ∧
      (s.d.roomAfter s.clk.tick q x why = false → exec (.heldCommandPlaced q) s = .next s)) ∧
    (∀ t st r, (s.d.slice q).held = .sig t st :: r →
      (s.d.sigBlocked s.clk.tick t = false →
        exec (.heldCommandPlaced q) s
          = .next { s with d := (s.d.setSlice q { s.d.slice q with held := r }).signal s.clk.tick q t st }) ∧
      (s.d.sigBlocked s.clk.tick t = true → exec (.heldCommandPlaced q) s = .next s)) ∧
    (∀ t st res r, (s.d.slice q).held = .compl t st res :: r →
      exec (.heldCommandPlaced q) s
        = .next { s with d := (s.d.setSlice q { s.d.slice q with held := r }).complNote t st res })) ∧
  (∀ slot s, s.d.sysHalt = false →
    let en := (s.d.reg (R.DSP_CTRL.at (quarterOf (slot / 4)))).getLsbD 0
    (en = false → exec (.hand slot) s = .next s) ∧
    (en = true → s.d.nodesFor slot = [] → exec (.hand slot) s = .next s) ∧
    (∀ t x r, en = true → s.d.nodesFor slot = (t, x) :: r →
      let stale := s.d.regN (slotReg x.slot .SLOT_GEN) ≠ x.gen ∨ s.d.sweeping x.slot = true
      let st := s.d.slotState x.slot
      (stale → exec (.hand slot) s = .next { s with d := s.d.complete s.clk.tick t 0x07 0 0x0B 0x08 }) ∧
      (¬ stale → st = stStopped ∨ st = stTadpole ∨ st = stUndefined →
        exec (.hand slot) s = .next { s with d := s.d.complete s.clk.tick t 0x05 0 0x0A 0x00 }) ∧
      (∀ mem byAff, ¬ stale → st = stLive ∨ st = stPaused → s.d.taker x = some (mem, byAff) →
        exec (.hand slot) s = .next { s with d := s.d.hand s.clk t x mem byAff }) ∧
      (¬ stale → st = stLive ∨ st = stPaused → s.d.taker x = none → r = [] → exec (.hand slot) s = .next s)) ∧
    (∀ t x t1 x1 r mem byAff, en = true → s.d.nodesFor slot = (t, x) :: (t1, x1) :: r →
      (∀ y, y = x ∨ y = x1 → s.d.regN (slotReg y.slot .SLOT_GEN) = y.gen ∧ s.d.sweeping y.slot = false ∧
        s.d.slotState y.slot = stLive) → s.d.taker x = none → s.d.taker x1 = some (mem, byAff) →
      exec (.hand slot) s = .next { s with d := s.d.hand s.clk t1 x1 mem byAff })) ∧
  (∀ m q r en v s, m.oid = 0 →
    let x := if en then R.DSP_REPL_EN.at q r else R.DSP_REPL.at q r
    let d1 := s.d.setRegN x (if en then v % 256 else v % 2 ^ 64)
    (d1.replOk q = true → exec (.dspRepl m q r en v) s = .next { s with d := d1.okay }) ∧
    (d1.replOk q = false → exec (.dspRepl m q r en v) s = .next { s with d := s.d.refuse m x }))

/-- What an accepted SUBMIT leaves (10 R280, R282): a task with dependencies is live and WAITING with the fields of its TCB, in its home
slice; every other task, every core, the array and the clock are as before. It rests in part on the model's own choices, log entry 20. -/
def Obligations.SubmitWaits : Prop :=
  ∀ m q t s, s.d.dspGate m q t = none → s.d.task t = none →
    let r := s.d.hbm (rdReq (sliceMid (t / 2 ^ 18)) 0 (s.d.tcbAddr t) 128) false .none
    r.2.code = .okay → r.1.tcbOk t r.2.data = true → (taskOf r.2.data).depcnt ≠ 0 →
    ∃ u, exec (.submit m q t) s = .next u ∧ u.d.task t = some (taskOf r.2.data) ∧ u.d.out.code = .okay ∧
      (∀ t', t' ≠ t → u.d.task t' = s.d.task t') ∧ (∀ q', u.d.slice q' = s.d.slice q') ∧
      u.d.cores = s.d.cores ∧ u.d.arr = s.d.arr ∧ u.clk = s.clk ∧ u.pending = s.pending

/-- Claims, software sources, routes (12 R342–R344, R355, R356). A claim returns the best pending source of the core with its class and
clears its pending bit, or 0 where there is none; EVT_SWSET makes one occurrence of each source selected; a valid route is held, and the
route in force stays until the next tick edge; an invalid one is dropped, and one of a source that does not exist changes nothing. The
model's choice is log entry 109. -/
def Obligations.EventSources : Prop :=
  (∀ m q c src s, m.oid = 0 → s.d.best q (s.d.forCore (q * 16 + c)) = some src →
    let v := BitVec.ofNat 64 (2 ^ 31 + s.d.classOf q src * 2 ^ 27 + q * 1536 + src)
    exec (.evtClaim m q c) s
      = .next { s with d := (s.d.setBit (R.EVT_PEND.at q (src / 32)) (src % 32) false).answer .okay v }) ∧
  (∀ m q c s, m.oid = 0 → s.d.best q (s.d.forCore (q * 16 + c)) = none →
    exec (.evtClaim m q c) s = .next { s with d := s.d.answer .okay 0 }) ∧
  (∀ m q w v s, m.oid = 0 → q < 4 → w < 8 →
    ∃ t, exec (.evtSwset m q w v) s = .next t ∧
      (∀ j, j < 32 → nget false t.d.occ (q * 1536 + (0x500 + 32 * w + j))
        = (v.testBit j || nget false s.d.occ (q * 1536 + (0x500 + 32 * w + j)))) ∧
      (∀ n, (∀ j, j < 32 → n ≠ q * 1536 + (0x500 + 32 * w + j)) → nget false t.d.occ n = nget false s.d.occ n) ∧
      t.d.out.code = .okay ∧ t = { s with d := { s.d with occ := t.d.occ, out := t.d.out } }) ∧
  (∀ m q src v s, m.oid = 0 → sourceExists q src = true → routeValid src v = true →
    let d1 := s.d.setRegN (R.EVT_ROUTE.at q src) (routeValue src v)
    exec (.evtRoute m q src v) s
      = .next { s with d := (({ d1 with
          routes := nset Option.none s.d.routes (q * 1536 + src) (some (s.d.routeNow q src)) } : Dev)).okay }) ∧
  (∀ m q src v s, m.oid = 0 → sourceExists q src = true → routeValid src v = false →
    exec (.evtRoute m q src v) s = .next { s with d := s.d.refuse m (R.EVT_ROUTE.at q src) }) ∧
  (∀ m q src v s, m.oid = 0 → sourceExists q src = false →
    exec (.evtRoute m q src v) s = .next { s with d := s.d.okay })

/-- Timers and watermark thresholds (12 R346–R348). A due one-shot timer makes its occurrence and disables itself, a due periodic one
advances NEXT by PERIOD modulo 2^32, each at most once per tick edge, and a timer that is not due does nothing; EVT_TMR_CTRL and
EVT_TMR_PERIOD keep a periodic timer's PERIOD in 1 to 2^31 − 1; a threshold that keeps LO below HI is written and compared at once, and
any other is dropped. -/
def Obligations.TimersThresholds : Prop :=
  (∀ q i s,
    let on := (s.d.reg (R.EVT_TMR_CTRL.at q i)).getLsbD 0
    let later := inFuture s.clk.tick (s.d.regN (R.EVT_TMR_NEXT.at q i))
    let d1 := ({ s.d with timerAt := nset 0 s.d.timerAt (q * 32 + i) (s.clk.tick + 1) } : Dev).raise q (0x330 + i)
    (on = true → later = false → nget 0 s.d.timerAt (q * 32 + i) ≠ s.clk.tick + 1 →
      ((s.d.reg (R.EVT_TMR_CTRL.at q i)).getLsbD 1 = false →
        exec (.timer q i) s = .next { s with d := d1.setBit (R.EVT_TMR_CTRL.at q i) 0 false }) ∧
      ((s.d.reg (R.EVT_TMR_CTRL.at q i)).getLsbD 1 = true →
        let next := (s.d.regN (R.EVT_TMR_NEXT.at q i) + s.d.regN (R.EVT_TMR_PERIOD.at q i)) % 2 ^ 32
        exec (.timer q i) s = .next { s with d := d1.setRegN (R.EVT_TMR_NEXT.at q i) next })) ∧
    (on = false ∨ later = true ∨ nget 0 s.d.timerAt (q * 32 + i) = s.clk.tick + 1 → exec (.timer q i) s = .next s)) ∧
  (∀ m q i v s, m.oid = 0 →
    (bitsOf v 1 1 = 0 ∨ periodOk (s.d.regN (R.EVT_TMR_PERIOD.at q i)) = true →
      exec (.evtTmrCtrl m q i v) s = .next { s with d := (s.d.setRegN (R.EVT_TMR_CTRL.at q i) (v % 4)).okay }) ∧
    (bitsOf v 1 1 = 1 → periodOk (s.d.regN (R.EVT_TMR_PERIOD.at q i)) = false →
      exec (.evtTmrCtrl m q i v) s = .next { s with d := s.d.refuse m (R.EVT_TMR_CTRL.at q i) })) ∧
  (∀ m q i v s, m.oid = 0 →
    ((s.d.reg (R.EVT_TMR_CTRL.at q i)).getLsbD 1 = false ∨ periodOk (v % 2 ^ 32) = true →
      exec (.evtTmrPeriod m q i v) s = .next { s with d := (s.d.setRegN (R.EVT_TMR_PERIOD.at q i) (v % 2 ^ 32)).okay }) ∧
    ((s.d.reg (R.EVT_TMR_CTRL.at q i)).getLsbD 1 = true → periodOk (v % 2 ^ 32) = false →
      exec (.evtTmrPeriod m q i v) s = .next { s with d := s.d.refuse m (R.EVT_TMR_PERIOD.at q i) })) ∧
  (∀ m w q i j v s, m.oid = 0 →
    let p := wmOf w i
    (s.d.regN (p.1.lo.at q i j) < v % 2 ^ 32 →
      exec (.watermarkThresholdWrite m w q i j true v) s
        = .next { s with d := ((s.d.setRegN (p.1.hi.at q i j) (v % 2 ^ 32)).wmCheck p.1 q p.2 i j).1.okay }) ∧
    (v % 2 ^ 32 < s.d.regN (p.1.hi.at q i j) →
      exec (.watermarkThresholdWrite m w q i j false v) s
        = .next { s with d := ((s.d.setRegN (p.1.lo.at q i j) (v % 2 ^ 32)).wmCheck p.1 q p.2 i j).1.okay }) ∧
    (v % 2 ^ 32 ≤ s.d.regN (p.1.lo.at q i j) →
      exec (.watermarkThresholdWrite m w q i j true v) s = .next { s with d := s.d.refuse m (p.1.hi.at q i j) }) ∧
    (s.d.regN (p.1.hi.at q i j) ≤ v % 2 ^ 32 →
      exec (.watermarkThresholdWrite m w q i j false v) s = .next { s with d := s.d.refuse m (p.1.lo.at q i j) }))

/-- Mailboxes (12 R349–R353). A free channel is bound by its first lock write and keeps that binding; its sender's pointer is held; a
notice sent to an awake receiver with room is queued behind the others, with RESULT 0 and its occurrence, one sent to a sleeping receiver
wakes its domain first, and one that finds the receiver OFF, in reset or full sets RESULT and is answered SLVERR, or dropped where a
function posted it; the receiver reads the oldest notice and it is gone; a word is sent, read once and gone; every other master's access,
and an access to the registers of the other mode, is refused and logged; a croak is delivered once the receiver's domain is ON, and waits
until then. The model's choices are log entries 41, 42 and 138. -/
def Obligations.Mailboxes : Prop :=
  (∀ m q ch v s, m.oid = 0 → ch < 256 →
    (s.d.mbxLocked q ch = false →
      exec (.mbxLock m q ch v) s
        = .next { s with d := (s.d.setRegN (R.MBX_LOCK.at q ch) (2 ^ 63 + (v &&& 0x4FFF000000000FFF))).okay }) ∧
    (s.d.mbxLocked q ch = true → exec (.mbxLock m q ch v) s = .next { s with d := s.d.refuse m (mbxLock q ch) })) ∧
  (∀ m q i v s, m.oid = 0 →
    (s.d.mbxLocked q (256 + i) = false →
      exec (.mbxHlock m q i v) s
        = .next { s with d := (s.d.setRegN (R.MBX_HLOCK.at q i) (2 ^ 63 + (v &&& 0x4FFF000000000000))).okay }) ∧
    (s.d.mbxLocked q (256 + i) = true → exec (.mbxHlock m q i v) s = .next { s with d := s.d.refuse m (mbxLock q (256 + i)) })) ∧
  (∀ m q ch v s, m.oid = 0 ∨ 256 ≤ ch →
    let ptr := mbxReg q ch .MBX_SPTR .HMBX_SPTR
    let slt := mbxReg q ch .MBX_SLT .HMBX_SLT
    (s.d.mbxCompat q ch = false → s.d.mbxSender m q ch = true →
      exec (.mbxSptr m q ch v) s = .next { s with d := (s.d.setRegN ptr (v % 2 ^ 64)).okay }) ∧
    (s.d.mbxCompat q ch = true →
      exec (.mbxSptr m q ch v) s = .next { s with d := s.d.refuse m ptr } ∧
      exec (.mbxSlt m q ch v) s = .next { s with d := s.d.refuse m slt }) ∧
    (s.d.mbxCompat q ch = false → s.d.mbxSender m q ch = false →
      exec (.mbxSptr m q ch v) s = .next { s with d := s.d.refuseSource m ptr } ∧
      exec (.mbxSlt m q ch v) s = .next { s with d := s.d.refuseSource m slt })) ∧
  (∀ m q ch v s, ch < 256 → m.oid = 0 → s.d.mbxCompat q ch = false → s.d.mbxSender m q ch = true →
    let n : Notice := ⟨s.d.regN (R.MBX_SPTR.at q ch), v % 2 ^ 32, v / 2 ^ 32 % 2 ^ 32⟩
    let st := s.d.recvState (s.d.mbxRecv q ch)
    let d1 := s.d.setNotices q ch (s.d.notices q ch ++ [n])
    let no (r : Nat) : Dev := (s.d.mbxResult q ch r).slverr m (R.MBX_SLT.at q ch)
    (st = .awake → (s.d.notices q ch).length < 8 →
      exec (.mbxSlt m q ch v) s = .next { s with d := (d1.mbxQueued q ch false).okay }) ∧
    (st = .asleep → (s.d.notices q ch).length < 8 →
      exec (.mbxSlt m q ch v) s = .next { s with d := (d1.mbxQueued q ch true).okay }) ∧
    (st = .awake ∨ st = .asleep → 8 ≤ (s.d.notices q ch).length → exec (.mbxSlt m q ch v) s = .next { s with d := no 1 }) ∧
    (st = .inReset → exec (.mbxSlt m q ch v) s = .next { s with d := no 2 }) ∧
    (st = .off → exec (.mbxSlt m q ch v) s = .next { s with d := no 3 })) ∧
  (∀ m q ch v s, 256 ≤ ch → s.d.mbxCompat q ch = false → s.d.mbxSender m q ch = true →
    (nget Fn.zero s.d.fns m.oid).d3 = false →
    let n : Notice := ⟨s.d.regN (R.HMBX_SPTR.at q (ch - 256)), v % 2 ^ 32, v / 2 ^ 32 % 2 ^ 32⟩
    let st := s.d.recvState (s.d.mbxRecv q ch)
    (st = .awake → (s.d.notices q ch).length < 4 →
      exec (.mbxSlt m q ch v) s = .next { s with d := ((s.d.setNotices q ch (s.d.notices q ch ++ [n])).mbxQueued q ch false).okay }) ∧
    (st = .awake ∨ st = .asleep → 4 ≤ (s.d.notices q ch).length →
      exec (.mbxSlt m q ch v) s = .next { s with d := (s.d.mbxResult q ch 1).okay }) ∧
    (st = .off → exec (.mbxSlt m q ch v) s
      = .next { s with d := ((s.d.mbxResult q ch 3).fnError (m.mid - 0x500) m.oid 20).answer .decerr 0 })) ∧
  (∀ m q ch s, m.oid = 0 →
    let x := mbxReg q ch .MBX_RLT .HMBX_RLT
    (s.d.mbxCompat q ch = false → s.d.mbxLocked q ch = true → m.mid = s.d.mbxRecv q ch →
      exec (.mbxRlt m q ch) s
        = .next { s with d := (s.d.setNotices q ch ((s.d.notices q ch).drop 1)).answer .okay (s.d.reg x) }) ∧
    (s.d.mbxCompat q ch = true → exec (.mbxRlt m q ch) s = .next { s with d := s.d.refuseRead m x .refused }) ∧
    (s.d.mbxCompat q ch = false → s.d.mbxLocked q ch = false ∨ m.mid ≠ s.d.mbxRecv q ch →
      exec (.mbxRlt m q ch) s = .next { s with d := s.d.refuseRead m x .source })) ∧
  (∀ m q ch v s, ch < 256 → m.oid = 0 → s.d.mbxCompat q ch = true → s.d.mbxSender m q ch = true →
    s.d.recvState (s.d.mbxRecv q ch) = .awake →
    let d1 := (s.d.setRegN (R.MBX_WORD.at q ch) (v % 2 ^ 32)).setBit (mbxStat q ch) 8 true
    (s.d.mbxFull q ch = false → exec (.mbxWord m q ch v) s = .next { s with d := (d1.mbxQueued q ch false).okay }) ∧
    (s.d.mbxFull q ch = true →
      exec (.mbxWord m q ch v) s = .next { s with d := (s.d.mbxResult q ch 1).slverr m (R.MBX_SLT.at q ch) })) ∧
  (∀ m q ch v s, 256 ≤ ch → s.d.mbxCompat q ch = true → s.d.mbxSender m q ch = true →
    (nget Fn.zero s.d.fns m.oid).d3 = false → s.d.recvState (s.d.mbxRecv q ch) = .awake → s.d.mbxFull q ch = false →
    let d1 := (s.d.setRegN (R.HMBX_WORD.at q (ch - 256)) (v % 2 ^ 32)).setBit (mbxStat q ch) 8 true
    exec (.mbxWord m q ch v) s = .next { s with d := (d1.mbxQueued q ch false).okay }) ∧
  (∀ m q ch s, m.oid = 0 →
    let x := mbxReg q ch .MBX_WORD .HMBX_WORD
    (s.d.mbxCompat q ch = true → s.d.mbxLocked q ch = true → m.mid = s.d.mbxRecv q ch →
      exec (.mbxWordRead m q ch) s
        = .next { s with d := (s.d.setBit (mbxStat q ch) 8 false).answer .okay (if s.d.mbxFull q ch then s.d.reg x else 0) }) ∧
    (s.d.mbxCompat q ch = false → s.d.mbxLocked q ch = true →
      exec (.mbxWordRead m q ch) s = .next { s with d := s.d.refuseRead m x .refused }) ∧
    (s.d.mbxCompat q ch = true → m.mid ≠ s.d.mbxRecv q ch →
      exec (.mbxWordRead m q ch) s = .next { s with d := s.d.refuseRead m x .source })) ∧
  (∀ q ch rq s, nget false s.d.croaks (q * 1024 + ch) = true → s.d.recvQuarter (s.d.mbxRecv q ch) = some rq →
    (s.d.domCur rq 16 = 0 →
      let d1 : Dev := { s.d with croaks := nset false s.d.croaks (q * 1024 + ch) false }
      exec (.croakDelivery q ch) s = .next { s with d := d1.mbxRaise q ch }) ∧
    (s.d.domCur rq 16 ≠ 0 → exec (.croakDelivery q ch) s = .next s))

/-- Traps and returns of a core (11 R302–R305, R308, R309, R312, R313, R315, R316, R322, R330, R332). In a thread bank an exception saves
pc, cause, mtval, MIE and mode at level 0 and goes to the base of mtvec in M-mode with MIE 0; in an event bank it enters bank 7 where its
core's own bank is usable and wedges the core where it is not, as in bank 7. An access that CORE-2, the PMP, its alignment or the lent
bank forbids raises the exception of its kind with its address, as does an uncorrectable word of the own bank; a good load writes rd and a
good store memory. A word of the custom-0 opcode is its instruction where its fields are as CORE-7 says, and illegal otherwise, as is an
instruction of an extension left out, an MRET in U-mode and a WFI in U-mode with TW; a WFI retires once the event line is up. An MRET
returns to the bank and level it was entered from; EBREAK traps or, where DBG_EBHALT says so, halts. An event entry from a thread bank, or
from event level 1 at depth 2, with the event line up, MIE and MEIE set and an entry sp that is in order, goes to its event bank and the
external vector, with the entry sp in x2 and pc, cause 11, MIE and mode saved at its level, and remembers the bank it left; with no level
left, or a bad entry sp, it is a fault entry. The model's choices are log entries 32, 33, 34, 37 and 136. -/
def Obligations.CoreTraps : Prop :=
  (∀ n len x s, (s.d.core n).executes = false →
    exec (.exceptionTrap n len x) s = .next s ∧ exec (.mret n) s = .next s ∧ exec (.ebreak n) s = .next s) ∧
  (∀ n s, (s.d.core n).executes = true →
    let c := s.d.core n
    let done (d : Dev) : Dev := if c.step then d.setCore n { d.core n with step := false } else d
    let thread (d : Dev) (cause tval : Nat) : Dev :=
      d.setCore n ((c.setTrap 0 ⟨c.pc, cause, tval, c.mie, c.modeM⟩).setState c.cur c.mtvecBase true false)
    let free := s.d.fresh.1.toNat
    (∀ len cause tval,
      (c.level = 0 → exec (.exceptionTrap n len (.raise cause tval)) s = .next { s with d := done (thread s.d cause tval) }) ∧
      (c.level = 1 ∨ c.level = 2 → s.d.ownUsable n = true →
        let c1 := (c.setWord 7 2 (BitVec.ofNat 64 c.fltSp)).setTrap 3 ⟨c.pc, cause, tval, c.mie, c.modeM⟩
        let c2 := (c1.csrSet 0x7C7 (BitVec.ofNat 64 (4 % 256))).setState 7 c.mtvecBase true false
        let d1 := s.d.setCore n { c2 with st := .run, cur := 7, level := 3, retf := c.cur, retlf := c.level }
        exec (.exceptionTrap n len (.raise cause tval)) s = .next { s with
          d := done ((d1.bump (coreReg n .CORE_FLT_CNT)).raise (n / 16) (0x200 + n % 16 * 4 + 1)) }) ∧
      (c.level = 1 ∨ c.level = 2 → s.d.ownUsable n = false →
        exec (.exceptionTrap n len (.raise cause tval)) s = .next { s with d := done (s.d.wedge n cause 4 c.pc) }) ∧
      (c.level = 3 → exec (.exceptionTrap n len (.raise cause tval)) s
        = .next { s with d := done (s.d.wedge n cause (getBits (c.csrGet 0x7C7) 7 0) c.pc) })) ∧
    (∀ len (a : CoreAcc) e,
      (∀ cause, s.d.accBad n a.addr a.size a.kind = some cause →
        exec (.exceptionTrap n len (.access a e)) s = .next { s with d := done (s.d.trapCore n cause a.addr) }) ∧
      (∀ p, s.d.accBad n a.addr a.size a.kind = none → coreXlat n a.addr = some p → inOwn n p = true →
        let rd := s.d.bnkRead p a.size 0 e
        let wr := s.d.bnkWrite p (leBytes a.value a.size) 0 []
        (a.kind = .load → rd.2.code = .okay →
          exec (.exceptionTrap n len (.access a e)) s = .next { s with
            d := done (rd.1.setCore n (((rd.1.core n).next len).setX (rd.1.core n).cur a.rd
              (BitVec.ofNat 64 (loadValue a.size a.signed rd.2.data)))) }) ∧
        (a.kind = .store → wr.2.code = .okay →
          exec (.exceptionTrap n len (.access a e)) s = .next { s with d := done (wr.1.setCore n ((wr.1.core n).next len)) }) ∧
        (a.kind = .fetch → rd.2.code = .okay → exec (.exceptionTrap n len (.access a e)) s = .next { s with d := done rd.1 }) ∧
        (a.kind = .amo → rd.2.code = .okay →
          let w := rd.1.bnkWrite p (leBytes a.value a.size) 0 []
          exec (.exceptionTrap n len (.access a e)) s = .next { s with
            d := done (w.1.setCore n (((w.1.core n).next len).setX (w.1.core n).cur a.rd
              (BitVec.ofNat 64 (loadValue a.size true rd.2.data)))) }) ∧
        (a.kind ≠ .store → rd.2.code ≠ .okay →
          exec (.exceptionTrap n len (.access a e)) s = .next { s with d := done (rd.1.trapCore n (accFault a.kind) a.addr) }) ∧
        (a.kind = .store → wr.2.code ≠ .okay →
          exec (.exceptionTrap n len (.access a e)) s = .next { s with d := done (wr.1.trapCore n 7 a.addr) })) ∧
      (∀ p, s.d.accBad n a.addr a.size a.kind = none → coreXlat n a.addr = some p → inOwn n p = false →
        exec (.exceptionTrap n len (.access a e)) s = .next { s with d := done s.d })) ∧
    (∀ len, exec (.exceptionTrap n len .leftOut) s = .next { s with d := done (s.d.fresh.2.trapCore n 2 free) }) ∧
    (∀ len, let barred := c.modeM = false ∧ (c.csrGet 0x300).getLsbD 21 = true
      (barred → exec (.exceptionTrap n len .wfi) s = .next { s with d := done (s.d.fresh.2.trapCore n 2 free) }) ∧
      (¬ barred → s.d.eventLine n = true →
        exec (.exceptionTrap n len .wfi) s = .next { s with d := done (s.d.setCore n (c.next len)) }) ∧
      (¬ barred → s.d.eventLine n = false → exec (.exceptionTrap n len .wfi) s = .next { s with d := done s.d })) ∧
    (∀ len w rd rs1 rs2 f, rd = bitsOf w 11 7 → rs1 = bitsOf w 19 15 → rs2 = bitsOf w 24 20 → f = bitsOf w 14 12 →
      bitsOf w 6 0 ≠ 0x0B ∨ bitsOf w 31 25 ≠ 0 ∨ 6 ≤ f ∨ (f = 0 ∧ rs1 ≠ 0) ∨ (f = 1 ∧ rd ≠ 0) ∨
        (f = 2 ∧ ¬ (rd = 0 ∧ rs1 = 0 ∧ rs2 = 0)) ∨ (f = 3 ∧ 4 ≤ rs2) ∨ (f = 4 ∧ rd ≠ 0) ∨ (f = 5 ∧ rs2 ≠ 0) →
      exec (.exceptionTrap n len (.custom w)) s = .next { s with d := done (s.d.fresh.2.trapCore n 2 free) }) ∧
    (c.modeM = false → exec (.mret n) s = .next { s with d := done (s.d.fresh.2.trapCore n 2 free) }) ∧
    (c.modeM = true →
      (c.level = 0 → exec (.mret n) s = .next { s with d := done (s.d.setCore n (c.mretTo c.cur 0)) }) ∧
      (c.level = 1 → exec (.mret n) s = .next { s with d := done (s.d.setCore n (c.mretTo c.ret1 0)) }) ∧
      (c.level = 2 → exec (.mret n) s = .next { s with d := done (s.d.setCore n (c.mretTo 6 1)) }) ∧
      (c.level = 3 → exec (.mret n) s = .next { s with d := done (s.d.setCore n (c.mretTo c.retf c.retlf)) })) ∧
    ((s.d.reg (R.DBG_EBHALT.at (n / 16))).getLsbD (n % 16) = true →
      exec (.ebreak n) s = .next { s with d := (s.d.haltCore n).fireInput s.clk 1 (fun _ => true) }) ∧
    ((s.d.reg (R.DBG_EBHALT.at (n / 16))).getLsbD (n % 16) = false → c.level = 0 →
      exec (.ebreak n) s = .next { s with d := done (thread s.d.fresh.2 3 free) })) ∧
  (∀ n len w rd rs1 rs2 s, bitsOf w 6 0 = 0x0B → bitsOf w 31 25 = 0 → rd = bitsOf w 11 7 → rs1 = bitsOf w 19 15 →
    rs2 = bitsOf w 24 20 →
    let f := bitsOf w 14 12
    (f = 0 → rs1 = 0 → exec (.exceptionTrap n len (.custom w)) s = exec (.xbrd n rd rs2) s) ∧
    (f = 1 → rd = 0 → exec (.exceptionTrap n len (.custom w)) s = exec (.xbwr n rs1 rs2) s) ∧
    (f = 2 → rd = 0 → rs1 = 0 → rs2 = 0 → exec (.exceptionTrap n len (.custom w)) s = exec (.xyield n) s) ∧
    (f = 3 → rs2 = 0 → exec (.exceptionTrap n len (.custom w)) s = exec (.xwaitEvent n rd) s) ∧
    (f = 3 → rs2 = 1 → exec (.exceptionTrap n len (.custom w)) s = exec (.xwaitDep n rd) s) ∧
    (f = 3 → rs2 = 2 → exec (.exceptionTrap n len (.custom w)) s = exec (.xwaitDelay n rd rs1) s) ∧
    (f = 3 → rs2 = 3 → exec (.exceptionTrap n len (.custom w)) s = exec (.xwaitEventOrDelay n rd rs1) s) ∧
    (f = 4 → rd = 0 → exec (.exceptionTrap n len (.custom w)) s = exec (.xdone n rs1 rs2) s) ∧
    (f = 5 → rs2 = 0 → exec (.exceptionTrap n len (.custom w)) s = exec (.xsig n rd rs1) s)) ∧
  (∀ n s, (s.d.entryDue n = false → exec (.eventEntry n) s = .next s) ∧
    (s.d.entryDue n = true →
      let c := s.d.core n
      (∀ l sp, c.entryLevel = some l → sp = c.entrySp l → c.spOk n sp = true →
        let b := if l = 1 then 6 else 5
        let c1 := (c.setWord b 2 (BitVec.ofNat 64 sp)).setTrap l ⟨c.pc, 2 ^ 63 + 11, 0, c.mie, c.modeM⟩
        let c2 : Core := { c1.setState b c.mtvecExt true false with
          st := .run, cur := b, level := l, ret1 := if l = 1 then (if c.st = .idle then 7 else c.cur) else c.ret1 }
        exec (.eventEntry n) s = .next { s with d := s.d.setCore n c2 }) ∧
      (∀ l, c.entryLevel = some l → c.spOk n (c.entrySp l) = false →
        exec (.eventEntry n) s = .next { s with d := s.d.faultEntry n 24 2 (c.entrySp l) c.pc }) ∧
      (c.entryLevel = none →
        exec (.eventEntry n) s = .next { s with d := s.d.fresh.2.faultEntry n 24 1 s.d.fresh.1.toNat c.pc })))

/-- The bank window, the CSRs and FP instructions (11 R302, R308, R317–R320, R326). XBRD reads a register of the selected bank into rd,
XBWR writes one, index 0 of another bank without its reserved bits; in U-mode both are illegal. A CSR instruction that the privilege rules
allow writes the old value of the CSR into rd, and its own value into the CSR if it writes; one that they forbid, or of a CSR that does
not exist, is illegal. XEVDEPTH takes 1 or 2 as the depth where CORE-10 lets it and keeps its value elsewhere; an FP instruction of the
owner's thread makes its write and sets FS Dirty; one of another thread exchanges the FP file first, and is not made where the exchange
fails; one without an FP area or a thread is illegal. Each that completes passes its instruction. The model's choices are log entries 9,
35, 36. -/
def Obligations.CoreWindow : Prop :=
  (∀ n s, (s.d.core n).executes = false → (∀ rd i, exec (.xbrd n rd i) s = .next s) ∧ (∀ rs1 i, exec (.xbwr n rs1 i) s = .next s) ∧
    (∀ num rd w, exec (.xevdepth n num rd w) s = .next s) ∧ (∀ len w, exec (.fpExchange n len w) s = .next s)) ∧
  (∀ n s, (s.d.core n).executes = true →
    let c := s.d.core n
    let done (d : Dev) : Dev := if c.step then d.setCore n { d.core n with step := false } else d
    let b := getBits (c.csrGet 0x7C0) 2 0
    let bad := done (s.d.fresh.2.trapCore n 2 s.d.fresh.1.toNat)
    (∀ rd i, c.modeM = true →
      exec (.xbrd n rd i) s = .next { s with d := done (s.d.setCore n ((c.next 4).setX c.cur rd (c.read b i))) }) ∧
    (∀ rs1 i, c.modeM = true →
      (i ≠ 0 → exec (.xbwr n rs1 i) s = .next { s with d := done (s.d.setCore n ((c.next 4).setWord b i (c.x rs1))) }) ∧
      (i = 0 → b ≠ c.cur → exec (.xbwr n rs1 i) s
        = .next { s with d := done (s.d.setCore n ((c.next 4).setWord b 0 (c.x rs1 &&& BitVec.ofNat 64 stateMask))) }) ∧
      (i = 0 → b = c.cur → exec (.xbwr n rs1 i) s = .next { s with d := done (s.d.setCore n (c.next 4)) })) ∧
    (∀ r i, c.modeM = false → exec (.xbrd n r i) s = .next { s with d := bad } ∧ exec (.xbwr n r i) s = .next { s with d := bad }) ∧
    (∀ num rd w, c.csrMay num w.isSome = false → exec (.xevdepth n num rd w) s = .next { s with d := bad }) ∧
    let plain (num : Nat) : Prop :=
      csrFp num = false ∨ (c.level = 0 ∧ ∃ t, c.boundAt c.cur = some t ∧ c.owner = some t.task)
    (∀ num rd w, c.csrMay num w.isSome = true → plain num → s.d.csrRead s.clk n num = none →
      exec (.xevdepth n num rd w) s = .next { s with d := bad }) ∧
    (∀ num rd v d1, c.csrMay num false = true → plain num → s.d.csrRead s.clk n num = some (v, d1) →
      exec (.xevdepth n num rd none) s
        = .next { s with d := done (d1.setCore n (((d1.core n).next 4).setX (d1.core n).cur rd v)) }) ∧
    (∀ num rd w v d1, c.csrMay num true = true → plain num → s.d.csrRead s.clk n num = some (v, d1) →
      let c1 := (d1.core n).csrWrite num (BitVec.ofNat 64 w)
      exec (.xevdepth n num rd (some w)) s = .next { s with d := done (d1.setCore n ((c1.next 4).setX c1.cur rd v)) }) ∧
    (∀ rd v, c.modeM = true →
      let put (c1 : Core) : Dev := done (s.d.setCore n ((c1.next 4).setX c1.cur rd (c.csrGet 0x7C5)))
      let two := v % 4 = 2 ∧ c.level = 0 ∧ c.boundAt 5 = none
      (c.level ≠ 1 → c.level ≠ 2 → v % 4 = 1 → v < 2 ^ 64 →
        exec (.xevdepth n 0x7C5 rd (some v)) s = .next { s with d := put (c.csrSet 0x7C5 1) }) ∧
      (two → v < 2 ^ 64 → exec (.xevdepth n 0x7C5 rd (some v)) s = .next { s with d := put (c.csrSet 0x7C5 2) }) ∧
      (c.level = 1 ∨ c.level = 2 ∨ (v % 4 ≠ 1 ∧ ¬ two) → v < 2 ^ 64 →
        exec (.xevdepth n 0x7C5 rd (some v)) s = .next { s with d := put c })) ∧
    (∀ len w t, c.level = 0 → c.boundAt c.cur = some t →
      (c.owner = some t.task → exec (.fpExchange n len w) s = .next { s with d := done (s.d.setCore n (c.fpDo len w)) }) ∧
      (c.owner ≠ some t.task → t.fp = 0 → exec (.fpExchange n len w) s = .next { s with d := bad }) ∧
      (c.owner ≠ some t.task → t.fp ≠ 0 →
        let l := s.d.fpSwap n t.task t.fp
        (l.2 = true → exec (.fpExchange n len w) s
          = .next { s with d := done (l.1.setCore n ((l.1.core n).fpDo len w)) }) ∧
        (l.2 = false → exec (.fpExchange n len w) s = .next { s with d := done l.1 }))) ∧
    (∀ len w, c.level ≠ 0 ∨ c.boundAt c.cur = none → exec (.fpExchange n len w) s = .next { s with d := bad }) ∧
    (∀ len i v, c.fpDo len (some (i, v)) = { c.next len with fp := nset 0 c.fp i (BitVec.ofNat 64 v), dirty := true }))

/-- Threads and the dispatcher (10 R280, R283, R287, R288, R291, R294; 11 R322–R324, R334). A free core of a die that is ON receives the
best READY thread, once EN is set; a privileged thread displaces one where none of its cores is free, unless the one to be displaced may
not be preempted now; a thread yields, waits for an event, its dependencies or a delay, sends a signal and completes, and its core is free
then; where a list is full it goes on or its instruction does not retire yet; a wait whose condition holds already returns at once with
code 0, one of 2^31 ticks or more with code 4; each instruction that would hand the core over gives way to a pending event entry, and is
illegal away from the thread level or without a thread, but XDONE, with which a core without a thread joins dispatch. The model's choices
are log entries 31, 39 and 134. -/
def Obligations.CoreThreads : Prop :=
  (∀ n s, s.d.sysHalt = false →
    let may := (s.d.core n).free = true ∧ (s.d.reg (R.DSP_CTRL.at (n / 16))).getLsbD 0 = true ∧ s.d.domCur (n / 16) 16 = 0
    (∀ t x why, may → s.d.pick n = some (t, x, why) →
      exec (.run n) s = .next { s with d := s.d.runThread s.clk.tick n t why }) ∧
    (¬ may ∨ s.d.pick n = none → exec (.run n) s = .next s)) ∧
  (∀ q s, s.d.sysHalt = false →
    let en := (s.d.reg (R.DSP_CTRL.at q)).getLsbD 0
    (en = false → exec (.preempt q) s = .next s) ∧
    (∀ t x r n, en = true → s.d.threads q = (t, x) :: r → 28 ≤ x.level →
      (∀ m, m ∈ coresOf q → x.coreMask.testBit (m % 16) = true → (s.d.core m).free = false) →
      s.d.victim q x.coreMask = some n → s.d.preemptable n = true →
      exec (.preempt q) s = .next { s with d := (s.d.displace s.clk.tick n t).runThread s.clk.tick n t 0x07 }) ∧
    (∀ t x n, en = true → s.d.threads q = [(t, x)] → s.d.victim q x.coreMask = some n → s.d.preemptable n = false →
      exec (.preempt q) s = .next s) ∧
    ((∀ e, e ∈ s.d.threads q → e.2.level < 28) → exec (.preempt q) s = .next s)) ∧
  (∀ n s, (s.d.core n).executes = true →
    let c := s.d.core n
    let done (d : Dev) : Dev := if c.step then d.setCore n { d.core n with step := false } else d
    let v (r : Nat) : Nat := (c.x r).toNat
    (s.d.entryDue n = true →
      let t : State := { s with d := done (xEventEntry n s.d) }
      exec (.xyield n) s = .next t ∧ (∀ rd, exec (.xwaitEvent n rd) s = .next t) ∧ (∀ rd, exec (.xwaitDep n rd) s = .next t) ∧
      (∀ rd r, exec (.xwaitDelay n rd r) s = .next t) ∧ (∀ rd r, exec (.xwaitEventOrDelay n rd r) s = .next t) ∧
      (∀ r r', exec (.xdone n r r') s = .next t)) ∧
    (s.d.entryDue n = false → s.d.runner n = none →
      let t : State := { s with d := done (s.d.fresh.2.trapCore n 2 s.d.fresh.1.toNat) }
      exec (.xyield n) s = .next t ∧ (∀ rd, exec (.xwaitEvent n rd) s = .next t) ∧ (∀ rd, exec (.xwaitDep n rd) s = .next t) ∧
      (∀ rd r, exec (.xwaitDelay n rd r) s = .next t) ∧ (∀ rd r, exec (.xwaitEventOrDelay n rd r) s = .next t) ∧
      (∀ r r', c.level ≠ 0 → exec (.xdone n r r') s = .next t)) ∧
    (∀ t x, s.d.entryDue n = false → s.d.runner n = some (t, x) →
      let full := (s.d.bump (R.DSP_BP_CNT.at (n / 16)))
      let back (ev : Bool) (rd r : Nat) : Dev :=
        let w := (s.clk.tick + v r) % 2 ^ 32
        ((s.d.leave n).tcbWrite t 0x08 4 w).toDelay s.clk.tick t { x with wake := w, evwait := ev, rd := some rd } n
      (s.d.readyRoom (t / 2 ^ 18) x.level = true →
        exec (.xyield n) s
          = .next { s with d := done ((s.d.leave n).toReady s.clk.tick t { x with rd := none } 0x04) }) ∧
      (s.d.readyRoom (t / 2 ^ 18) x.level = false →
        exec (.xyield n) s = .next { s with d := done (full.retire4 n 0 0) }) ∧
      (∀ rd, x.pendwake = false →
        exec (.xwaitEvent n rd) s = .next { s with d := done (s.d.waitThread s.clk.tick n t x rd true) }) ∧
      (∀ rd, x.pendwake = true →
        exec (.xwaitEvent n rd) s = .next { s with d := done ((s.d.putTask t { x with pendwake := false }).retire4 n rd 0) }) ∧
      (∀ rd, x.depcnt ≠ 0 →
        exec (.xwaitDep n rd) s = .next { s with d := done (s.d.waitThread s.clk.tick n t x rd false) }) ∧
      (∀ rd, x.depcnt = 0 → exec (.xwaitDep n rd) s = .next { s with d := done (s.d.retire4 n rd 0) }) ∧
      (∀ rd r, v r ≠ 0 → v r < 2 ^ 31 → s.d.delayRoom (t / 2 ^ 18) = true →
        exec (.xwaitDelay n rd r) s = .next { s with d := done (back false rd r) } ∧
        (x.pendwake = false → exec (.xwaitEventOrDelay n rd r) s = .next { s with d := done (back true rd r) })) ∧
      (∀ rd r, v r ≠ 0 → v r < 2 ^ 31 → s.d.delayRoom (t / 2 ^ 18) = false →
        exec (.xwaitDelay n rd r) s = .next { s with d := done (s.d.holdInstr n) } ∧
        (x.pendwake = false → exec (.xwaitEventOrDelay n rd r) s = .next { s with d := done (s.d.holdInstr n) })) ∧
      (∀ rd r, 2 ^ 31 ≤ v r →
        exec (.xwaitDelay n rd r) s = .next { s with d := done (s.d.retire4 n rd 4) } ∧
        (x.pendwake = false → exec (.xwaitEventOrDelay n rd r) s = .next { s with d := done (s.d.retire4 n rd 4) })) ∧
      (∀ rd r, v r = 0 → s.d.readyRoom (t / 2 ^ 18) x.level = true →
        exec (.xwaitDelay n rd r) s = .next { s with
          d := done ((s.d.leave n).toReady s.clk.tick t { x with evwait := false, rd := some rd } 0x04) }) ∧
      (∀ rd r, x.pendwake = true → exec (.xwaitEventOrDelay n rd r) s
        = .next { s with d := done ((s.d.putTask t { x with pendwake := false }).retire4 n rd 0) }) ∧
      (∀ r r', exec (.xdone n r r') s
        = .next { s with d := done (s.d.complete s.clk.tick t (v r % 256) (v r' % 2 ^ 32) 0x0A 0x00) })) ∧
    (s.d.entryDue n = false → c.level = 0 → c.task = none →
      ∀ r r', exec (.xdone n r r') s
        = .next { s with d := done (s.d.setCore n { c with managed := true, st := .idle }) }) ∧
    (∀ rd r,
      let t := v r % 2 ^ 20
      (s.d.sigReject t = none → s.d.sigBlocked s.clk.tick t = false →
        exec (.xsig n rd r) s = .next { s with d := done ((s.d.doSignal s.clk.tick t 0 none).retire4 n rd 0) }) ∧
      (s.d.sigReject t = none → s.d.sigBlocked s.clk.tick t = true →
        exec (.xsig n rd r) s = .next { s with d := done (s.d.holdInstr n) }) ∧
      (∀ reason, s.d.sigReject t = some reason →
        exec (.xsig n rd r) s = .next { s with d := done ((s.d.dspErr (t / 2 ^ 18) 2 t reason n).retire4 n rd reason) })))

/-- Reset and release of a core, home-bank handover (11 R324, R325, R330, R331). A write of 1 to CORE_CTRL resets the core, a write of 0
releases it: it starts unmanaged in bank 0, M-mode, at CORE_RSTVEC, at once or when the clear of its bank ends, and not in safe stop; a
handover of a bank whose core is in reset sets the new owner and molts the bank, unless it is to be preserved; one of a bank whose core
runs or which molts is refused; the bank is zero when the clear ends. While a boot runs CC0 of Q0 starts in the boot ROM, whose addresses
the spec does not give: a free pc. -/
def Obligations.CoreControl : Prop :=
  (∀ m n v s, m.oid = 0 →
    let c : Core := { Core.zero.setState 0 (s.d.regN (coreReg n .CORE_RSTVEC)) true false with st := .run }
    let d0 := s.d.setRegN (coreReg n .CORE_CTRL) 0
    (v % 2 = 1 → (s.d.core n).st ≠ .reset →
      exec (.coreCtrl m n v) s
        = .next { s with d := ((s.d.setRegN (coreReg n .CORE_CTRL) 1).coreReset s.clk.tick n).okay }) ∧
    (v % 2 = 1 → (s.d.core n).st = .reset → (s.d.reg (coreReg n .CORE_CTRL)).getLsbD 0 = true →
      exec (.coreCtrl m n v) s = .next { s with d := (s.d.setRegN (coreReg n .CORE_CTRL) 1).okay }) ∧
    (v % 2 = 0 → (s.d.core n).st = .reset → s.d.bnkMolting n = false → s.d.safe = false → n ≠ 0 ∨ s.d.boot.on = false →
      exec (.coreCtrl m n v) s = .next { s with d := (d0.setCore n c).okay }) ∧
    (v % 2 = 0 → n = 0 → (s.d.core n).st = .reset → s.d.bnkMolting n = false → s.d.safe = false → s.d.boot.on = true →
      exec (.coreCtrl m n v) s = .next { s with
        d := (d0.fresh.2.setCore 0 { Core.zero.setState 0 d0.fresh.1.toNat true false with st := .run }).okay }) ∧
    (v % 2 = 0 → (s.d.core n).st ≠ .reset ∨ s.d.bnkMolting n = true ∨ s.d.safe = true →
      exec (.coreCtrl m n v) s = .next { s with d := d0.okay })) ∧
  (∀ m n v s, m.oid = 0 →
    let x := coreReg n .BNK_OWNER
    let d1 := s.d.setRegN x (v &&& 0x20FFF)
    let same := v % 4096 = getBits (s.d.reg x) 11 0
    (same → exec (.bnkOwner m n v) s = .next { s with d := d1.okay }) ∧
    (¬ same → (s.d.core n).st ≠ .reset ∨ s.d.bnkMolting n = true →
      exec (.bnkOwner m n v) s = .next { s with d := s.d.refuse m x }) ∧
    (¬ same → (s.d.core n).st = .reset → s.d.bnkMolting n = false →
      exec (.bnkOwner m n v) s
        = .next { s with d := (if v.testBit 16 then d1 else d1.setBit (coreReg n .BNK_STAT) 0 true).okay })) ∧
  (∀ n s, (s.d.bnkMolting n = true → (s.d.core n).st ≠ .reset →
      exec (.homeBankClear n) s = .next { s with d := (s.d.bnkZero n).setBit (coreReg n .BNK_STAT) 0 false }) ∧
    (s.d.bnkMolting n = true → (s.d.core n).st = .reset → (s.d.reg (coreReg n .CORE_CTRL)).getLsbD 0 = true →
      exec (.homeBankClear n) s = .next { s with d := (s.d.bnkZero n).setBit (coreReg n .BNK_STAT) 0 false }) ∧
    (s.d.bnkMolting n = true → (s.d.core n).st = .reset → (s.d.reg (coreReg n .CORE_CTRL)).getLsbD 0 = false → s.d.safe = false →
      n ≠ 0 ∨ s.d.boot.on = false →
      let c : Core := { Core.zero.setState 0 (s.d.regN (coreReg n .CORE_RSTVEC)) true false with st := .run }
      exec (.homeBankClear n) s
        = .next { s with d := ((s.d.bnkZero n).setBit (coreReg n .BNK_STAT) 0 false).setCore n c }) ∧
    (s.d.bnkMolting n = false → exec (.homeBankClear n) s = .next s))

/-- Stream engines (09 R22, R261, R266–R273, R275; 13 R362, R363). JATTR with VALID queues the job of a free job slot, without VALID it is
held, and a write is refused for an occupied one; an enabled engine of a bound port starts its oldest queued job, and one whose fields or
scatter list break their rules ends with ALIGN; an element of a device, host or buffer job goes into the FIFO of an input port or from
that of an output port to its sink, and a failed one ends the job with the code of its cause; one of a chain passes to the partner's FIFO
while the chain holds; two running CHAIN jobs that name each other with equal OID and length form a chain, and others end with CHAIN; a
job that has moved JLEN bytes, its fence complete, closes its job slot; clearing EN stops the engine. The model's choices are log entries
4, 18 and 19. -/
def Obligations.StreamEngines : Prop :=
  (∀ m vp j v s, m.oid = 0 →
    let x := senReg vp .JATTR j
    let d1 := s.d.setRegN x (v &&& 0xFF3FFC00)
    ((s.d.reg x).getLsbD 31 = false → v.testBit 31 = true →
      let d2 := (d1.setJValid vp j true).setEngine vp { d1.engine vp with queue := (d1.engine vp).queue ++ [j] }
      exec (.jattr m vp j v) s = .next { s with d := (if d2.vpBound vp then d2 else d2.engState vp 2).okay }) ∧
    ((s.d.reg x).getLsbD 31 = false → v.testBit 31 = false → exec (.jattr m vp j v) s = .next { s with d := d1.okay }) ∧
    ((s.d.reg x).getLsbD 31 = true → exec (.jattr m vp j v) s = .next { s with d := s.d.refuse m x })) ∧
  (∀ vp sgl ans s, s.d.sysHalt = false →
    (∀ j r, (s.d.engine vp).run = none → (s.d.engine vp).queue = j :: r → (s.d.reg (senReg vp .SEN_CTRL)).getLsbD 0 = true →
      s.d.vpBound vp = true →
      let attr := (s.d.jattr vp j).toNat
      let addr := s.d.regN (senReg vp .JADDR j)
      let len := s.d.regN (senReg vp .JLEN j)
      let kind := bitsOf attr 26 24
      let list := kind = 1 ∧ attr.testBit 10 = true
      let go (segs : List (Nat × Nat)) : Dev :=
        (s.d.setEngine vp { queue := r, run := some ⟨j, 0, 0, segs, false⟩ }).engState vp (if kind = 3 then 2 else 1)
      let segs := (sgl.filter (fun x => !x.2.2.testBit 1)).map (fun x => (x.1, x.2.1))
      let code := hostCode (s.d.fnIssues (bitsOf attr 21 11)) ans
      (¬ list → jobMisaligned addr len attr = false → exec (.jobStart vp sgl ans) s = .next { s with d := go [(addr, len)] }) ∧
      (list → jobMisaligned addr len attr = false → code = 0 → sglOk sgl len = true →
        exec (.jobStart vp sgl ans) s = .next { s with d := go segs }) ∧
      (¬ list → jobMisaligned addr len attr = true →
        exec (.jobStart vp sgl ans) s = .next { s with d := (go [(addr, len)]).jobError s.clk.tick vp 6 addr }) ∧
      (list → jobMisaligned addr len attr = true ∨ (code = 0 ∧ sglOk sgl len = false) →
        exec (.jobStart vp sgl ans) s = .next { s with d := (go segs).jobError s.clk.tick vp 6 addr }) ∧
      (list → jobMisaligned addr len attr = false → code ≠ 0 →
        exec (.jobStart vp sgl ans) s = .next { s with d := (go segs).jobError s.clk.tick vp code addr })) ∧
    ((s.d.engine vp).run ≠ none ∨ (s.d.engine vp).queue = [] ∨ (s.d.reg (senReg vp .SEN_CTRL)).getLsbD 0 = false →
      exec (.jobStart vp sgl ans) s = .next s)) ∧
  (∀ vp r ans e col s, s.d.sysHalt = false → (s.d.engine vp).run = some r →
    let attr := (s.d.jattr vp r.j).toNat
    let kind := getBits (s.d.jattr vp r.j) 26 24
    let oid := bitsOf attr 21 11
    let base := s.d.regN (senReg vp .JADDR r.j)
    let more := r.moved < s.d.regN (senReg vp .JLEN r.j)
    let dev := base % 2 ^ 48 + r.moved
    let host := segAddr r.segs r.moved
    let buf := bitsOf base 57 48 * 0x40000 + bitsOf base 17 0 + r.moved
    let ch := mediaPlace (bitsOf base 57 48)
    (¬ more ∨ s.d.vpBound vp = false → exec (.elementMove vp ans e col) s = .next s) ∧
    (more → s.d.vpBound vp = true → s.d.vpOut vp = false → s.d.vpLevel vp < 512 →
      let put (d : Dev) (w : Word) : Dev := (d.setFifo vp (d.fifo vp ++ [.word w])).advance vp r
      (kind = 0 →
        let x := s.d.senAcc s.clk (rdReq (senMid vp) oid dev 8) (attr.testBit 28) e col
        let code := x.1.devCode ⟨senMid vp, oid, false⟩ dev false e x.2.code
        (code = 0 → exec (.elementMove vp ans e col) s = .next { s with d := put x.1 (BitVec.ofNat 64 (leNat x.2.data)) }) ∧
        (code ≠ 0 → exec (.elementMove vp ans e col) s = .next { s with d := x.1.jobError s.clk.tick vp code dev })) ∧
      (∀ w, kind = 1 → s.d.fnIssues oid = true → ans = .data w →
        let d1 := (s.d.send (.hostRead oid host 8)).hostErr oid ans true
        exec (.elementMove vp ans e col) s = .next { s with d := put d1 (BitVec.ofNat 64 w) }) ∧
      (kind = 1 → s.d.fnIssues oid = true → hostCode true ans ≠ 0 →
        let d1 := (s.d.send (.hostRead oid host 8)).hostErr oid ans true
        exec (.elementMove vp ans e col) s = .next { s with d := d1.jobError s.clk.tick vp (hostCode true ans) host }) ∧
      (kind = 1 → s.d.fnIssues oid = false →
        let d1 := s.d.hostErr oid ans false
        exec (.elementMove vp ans e col) s = .next { s with d := d1.jobError s.clk.tick vp 5 host }) ∧
      (kind = 2 → e ≠ .ce → e ≠ .ue →
        exec (.elementMove vp ans e col) s = .next { s with d := put s.d (BitVec.ofNat 64 (s.d.chbufWord buf 8)) }) ∧
      (kind = 2 → e = .ce → exec (.elementMove vp ans e col) s
        = .next { s with d := put (s.d.bump (R.MSQ_CHBCE.at ch.1 ch.2)) (BitVec.ofNat 64 (s.d.chbufWord buf 8)) }) ∧
      (kind = 2 → e = .ue →
        exec (.elementMove vp ans e col) s = .next { s with d := s.d.jobError s.clk.tick vp 3 (base + r.moved) })) ∧
    (∀ w rest, more → s.d.vpOut vp = true → s.d.fifo vp = .word w :: rest →
      let d0 := s.d.setFifo vp rest
      (kind = 0 →
        let x := d0.senAcc s.clk (wrReq (senMid vp) oid dev 8 w.toNat) (attr.testBit 28) e col
        let code := d0.devCode ⟨senMid vp, oid, false⟩ dev true e x.2.code
        (code = 0 → exec (.elementMove vp ans e col) s = .next { s with d := x.1.advance vp r }) ∧
        (code ≠ 0 → exec (.elementMove vp ans e col) s = .next { s with d := x.1.jobError s.clk.tick vp code dev })) ∧
      (kind = 1 → hostCode (d0.fnIssues oid) ans = 0 → exec (.elementMove vp ans e col) s
        = .next { s with d := (d0.send (.hostWrite oid host (leBytes w.toNat 8))).advance vp r }) ∧
      (kind = 1 → hostCode (d0.fnIssues oid) ans ≠ 0 → exec (.elementMove vp ans e col) s
        = .next { s with d := d0.jobError s.clk.tick vp (hostCode (d0.fnIssues oid) ans) host }) ∧
      (kind = 2 → col = none →
        exec (.elementMove vp ans e col) s = .next { s with d := (d0.setChbuf buf (leBytes w.toNat 8)).advance vp r }) ∧
      (kind = 2 → col ≠ none → exec (.elementMove vp ans e col) s
        = .next { s with d := (d0.bump (R.MSQ_CHBCCNT.at ch.1 ch.2)).jobError s.clk.tick vp 9 (base + r.moved) }) ∧
      (∀ rb, kind = 3 → r.chained = true →
        let b := getBits (s.d.reg (senReg vp .JADDR r.j)) 9 0
        (s.d.engine b).run = some rb → rb.chained = true → s.d.chainFits vp b r rb = true → s.d.vpIn b = true →
        s.d.vpLevel b < 512 → s.d.routeOk (quarterOf (vp / 16)) (quarterOf (b / 16)) = true →
        exec (.elementMove vp ans e col) s
          = .next { s with d := ((d0.setFifo b (s.d.fifo b ++ [.word w])).advance vp r).advance b rb }))) ∧
  (∀ vp r s, s.d.sysHalt = false → (s.d.engine vp).run = some r →
    let b := getBits (s.d.reg (senReg vp .JADDR r.j)) 9 0
    let chain := getBits (s.d.jattr vp r.j) 26 24 = 3
    (¬ chain → exec (.chainFormed vp) s = .next s) ∧
    (chain → s.d.vpOut vp = true → s.d.vpIn b = false →
      exec (.chainFormed vp) s = .next { s with d := s.d.jobError s.clk.tick vp 7 b }) ∧
    (chain → s.d.vpOut vp = false ∨ s.d.vpIn b = true → (s.d.engine b).run = none →
      exec (.chainFormed vp) s = .next { s with d := s.d.engState vp 2 }) ∧
    (∀ rb, chain → s.d.vpOut vp = false ∨ s.d.vpIn b = true → (s.d.engine b).run = some rb →
      (getBits (s.d.jattr b rb.j) 26 24 ≠ 3 → exec (.chainFormed vp) s = .next { s with d := s.d.engState vp 2 }) ∧
      (getBits (s.d.jattr b rb.j) 26 24 = 3 → getBits (s.d.reg (senReg b .JADDR rb.j)) 9 0 = vp →
        getBits (s.d.jattr b rb.j) 21 11 = getBits (s.d.jattr vp r.j) 21 11 →
        s.d.regN (senReg b .JLEN rb.j) = s.d.regN (senReg vp .JLEN r.j) →
        exec (.chainFormed vp) s = .next { s with d := (s.d.setChained vp).setChained b }) ∧
      (getBits (s.d.jattr b rb.j) 26 24 = 3 → getBits (s.d.reg (senReg b .JADDR rb.j)) 9 0 ≠ vp ∨
        getBits (s.d.jattr b rb.j) 21 11 ≠ getBits (s.d.jattr vp r.j) 21 11 ∨
        s.d.regN (senReg b .JLEN rb.j) ≠ s.d.regN (senReg vp .JLEN r.j) →
        exec (.chainFormed vp) s = .next { s with d := s.d.jobError s.clk.tick vp 7 b }))) ∧
  (∀ vp r s, s.d.sysHalt = false → (s.d.engine vp).run = some r →
    let ended := r.moved = s.d.regN (senReg vp .JLEN r.j) ∧ (s.d.jattr vp r.j).getLsbD 29 = false ∧
      nget false s.d.fences (senMid vp) = false
    let eos := (s.d.jattr vp r.j).getLsbD 30 = true ∧ s.d.vpIn vp = true
    (ended → ¬ eos → exec (.jobEnd vp) s = .next { s with d := s.d.closeJob vp r.j r.total 0 }) ∧
    (ended → eos → exec (.jobEnd vp) s
      = .next { s with d := (s.d.setFifo vp (s.d.fifo vp ++ [.eos])).closeJob vp r.j r.total 0 }) ∧
    (¬ ended → exec (.jobEnd vp) s = .next s)) ∧
  (∀ vp s, s.d.sysHalt = false → (s.d.engine vp).run = none →
    exec (.jobEnd vp) s = .next s ∧ exec (.chainFormed vp) s = .next s ∧
    (∀ ans e col, exec (.elementMove vp ans e col) s = .next s)) ∧
  (∀ m vp v s, m.oid = 0 →
    let stops := (s.d.reg (senReg vp .SEN_CTRL)).getLsbD 0 = true ∧ v % 2 = 0
    (¬ stops → exec (.senCtrl m vp v) s = .next { s with d := (s.d.setRegN (senReg vp .SEN_CTRL) (v % 2)).okay }) ∧
    (stops → exec (.senCtrl m vp v) s = .next { s with d := ((s.d.setRegN (senReg vp .SEN_CTRL) 0).stopEngine vp).okay }))

/-- Defining and undefining a slot (06 R163–R165, R169, R173). A DEFINE that passes every check of SLOT-1 reserves its clusters and makes
the slot block busy, any other puts RESULT and the deciding cluster into SLOT_STAT, BUSY during a command, a sweep or a load; at
completion every footprint cluster gets its position and its pass tables and the slot is STOPPED, or RESULT is UNAVAIL where a cluster is
no longer ready; an UNDEFINE of a STOPPED or TADPOLE slot increments the generation and begins the molt, of another slot it is answered
STATE; a reserved code is answered BAD_CMD, and both BUSY during a command or a load. RCLUSTER without a deciding cluster is the model's
choice, log entry 124. -/
def Obligations.SlotDefine : Prop :=
  (∀ m c p code phase s, m.oid = 0 →
    let sl := slotId c p
    let r := s.d.defineCheck sl code phase
    let resv := (s.d.footprint sl).foldl (fun x e => nset 0 x e (sl + 1)) s.d.arr.resv
    let d1 : Dev := { s.d with arr := { s.d.arr with resv := resv } }
    (r.1 = .ok → exec (.define m c p code phase) s = .next { s with d := (d1.setBusy sl (.defining code phase)).okay }) ∧
    (r.1 ≠ .ok → exec (.define m c p code phase) s = .next { s with d := (s.d.slotResult sl r.1 r.2).okay }) ∧
    (p < 4 → s.d.slotBusy sl = true ∨ s.d.sweeping sl = true ∨ s.d.loadRuns sl = true →
      exec (.define m c p code phase) s = .next { s with d := (s.d.slotResult sl .busy c).okay })) ∧
  (∀ c p s,
    let sl := slotId c p
    let d0 := (s.d.release' sl).setBusy sl .idle
    (∀ code phase, (s.d.ctl sl).busy = .defining code phase →
      ((∀ x, x ∈ s.d.footprint sl → s.d.cluReady x = true) →
        let d1 := (s.d.footprint sl).foldl (fun x e => x.takePos sl code phase e) d0
        let d2 := (s.d.footprint sl).foldl (fun x e => x.passTables sl e true) d1
        exec (.definitionComplete c p) s
          = .next { s with d := (((d2.setSlotState sl stStopped).loadNone sl).setCtl sl SlotCtl.zero).slotResult sl .ok }) ∧
      (∀ x, (s.d.footprint sl).find? (fun x => !s.d.cluReady x) = some x →
        exec (.definitionComplete c p) s = .next { s with d := d0.slotResult sl .unavail x })) ∧
    ((∀ code phase, (s.d.ctl sl).busy ≠ .defining code phase) → exec (.definitionComplete c p) s = .next s)) ∧
  (∀ m c p s, m.oid = 0 →
    let sl := slotId c p
    let runs := s.d.slotBusy sl = true ∨ s.d.loadRuns sl = true
    let still := s.d.cmdState sl = stStopped ∨ s.d.cmdState sl = stTadpole
    (¬ runs → still →
      exec (.undefine m c p) s = .next { s with d := ((s.d.genInc s.clk.tick sl).startMolt sl .undefining).okay }) ∧
    (¬ runs → ¬ still → exec (.undefine m c p) s = .next { s with d := (s.d.slotResult sl .state).okay }) ∧
    (runs → exec (.undefine m c p) s = .next { s with d := (s.d.slotResult sl .busy).okay }) ∧
    (∀ code, ¬ runs → exec (.badCmd m c p code) s = .next { s with d := (s.d.slotResult sl .badCmd).okay }) ∧
    (∀ code, runs → exec (.badCmd m c p code) s = .next { s with d := (s.d.slotResult sl .busy).okay }))

/-- Running and stopping a slot (02 R47; 06 R170–R173, R182). A START of a TADPOLE slot whose checks pass is carried out at the second
round boundary, when SLOT_LIVE makes the slot LIVE; another gets STATE, BUSY or the RESULT of the failed check. A LIVE slot is stopped
with drain or abort and is STOPPING, its generation incremented; a stop cancels a START, ends the pause of a PAUSED slot in TADPOLE, and
has no effect during a DEFINE, an UNDEFINE or a MOLT. A MOLT of a STOPPED or TADPOLE slot begins, from LIVE or STOPPING an abort comes
first, and its completion leaves the slot STOPPED and molted, that of an UNDEFINE undefined; a sweep ends with generation 1; a slot admits
a frame at the boundary at which R47 holds. -/
def Obligations.SlotRun : Prop :=
  (∀ m c p s, m.oid = 0 →
    let sl := slotId c p
    let runs := s.d.slotBusy sl = true ∨ s.d.sweeping sl = true ∨ s.d.loadRuns sl = true
    let r := s.d.startCheck sl
    (¬ runs → s.d.cmdState sl = stTadpole → r.1 = .ok →
      exec (.start m c p) s = .next { s with d := ((s.d.setCtl sl { s.d.ctl sl with wait := 2 }).setBusy sl .starting).okay }) ∧
    (¬ runs → s.d.cmdState sl = stTadpole → r.1 ≠ .ok →
      exec (.start m c p) s = .next { s with d := (s.d.slotResult sl r.1 r.2).okay }) ∧
    (¬ runs → s.d.cmdState sl ≠ stTadpole → exec (.start m c p) s = .next { s with d := (s.d.slotResult sl .state).okay }) ∧
    (runs → exec (.start m c p) s = .next { s with d := (s.d.slotResult sl .busy).okay })) ∧
  (∀ c p s,
    let sl := slotId c p
    let due := (s.d.ctl sl).busy = .starting ∧ (s.d.ctl sl).wait = 0
    (due → exec (.slotLive c p) s
      = .next { s with d := (((s.d.setBusy sl .idle).setSlotState sl stLive).slotResult sl .ok).slotDone sl }) ∧
    (¬ due → exec (.slotLive c p) s = .next s)) ∧
  (∀ m c p s, m.oid = 0 →
    let sl := slotId c p
    let d1 := s.d.genInc s.clk.tick sl
    let st := s.d.cmdState sl
    (s.d.stopsNothing sl = true →
      exec (.stopDrain m c p) s = .next { s with d := (s.d.slotResult sl .ok).okay } ∧
      exec (.stopAbort m c p) s = .next { s with d := (s.d.slotResult sl .ok).okay }) ∧
    ((s.d.ctl sl).busy = .starting →
      let d2 := ((d1.setBusy sl .idle).slotResult sl .state).slotDone sl
      exec (.stopDrain m c p) s = .next { s with d := d2.okay } ∧ exec (.stopAbort m c p) s = .next { s with d := d2.okay }) ∧
    ((s.d.ctl sl).busy = .idle →
      let abort (a : After) : SlotCtl := { d1.ctl sl with drain := false, abort := true, after := a }
      let stop (x : SlotCtl) : Dev := ((d1.setCtl sl x).setSlotState sl stStopping).slotResult sl .ok
      let paused := (d1.setCtl sl { s.d.ctl sl with resume := true }).slotResult sl .ok
      (st = stLive →
        exec (.stopDrain m c p) s = .next { s with d := (stop { d1.ctl sl with drain := true, after := .tadpole }).okay } ∧
        exec (.stopAbort m c p) s = .next { s with d := (stop (abort .tadpole)).okay }) ∧
      (st = stStopping →
        exec (.stopDrain m c p) s = .next { s with d := (d1.slotResult sl .ok).okay } ∧
        exec (.stopAbort m c p) s = .next { s with d := (stop (abort (d1.ctl sl).after)).okay }) ∧
      (st = stPaused →
        exec (.stopDrain m c p) s = .next { s with d := paused.okay } ∧ exec (.stopAbort m c p) s = .next { s with d := paused.okay }) ∧
      (st ≠ stLive → st ≠ stStopping → st ≠ stPaused →
        exec (.stopDrain m c p) s = .next { s with d := (s.d.slotResult sl .ok).okay } ∧
        exec (.stopAbort m c p) s = .next { s with d := (s.d.slotResult sl .ok).okay }))) ∧
  (∀ m c p s, m.oid = 0 →
    let sl := slotId c p
    let st := s.d.cmdState sl
    let busy := s.d.slotBusy sl = true ∨ st = stPaused ∨ s.d.loadRuns sl = true
    let still := st = stStopped ∨ st = stTadpole
    let runs := st = stLive ∨ st = stStopping
    (busy → exec (.molt m c p) s = .next { s with d := (s.d.slotResult sl .busy).okay }) ∧
    (¬ busy → runs →
      exec (.molt m c p) s = .next { s with d := ((s.d.stopAbort s.clk.tick sl .molt).setBusy sl .molting).okay }) ∧
    (¬ busy → still → exec (.molt m c p) s = .next { s with d := ((s.d.genInc s.clk.tick sl).startMolt sl .molting).okay }) ∧
    (¬ busy → ¬ runs → ¬ still → exec (.molt m c p) s = .next { s with d := (s.d.slotResult sl .state).okay })) ∧
  (∀ c p s,
    let sl := slotId c p
    let due := s.d.slotState sl = stMolting ∧ s.d.slotInFlight sl = false
    let d0 := s.d.setBusy sl .idle
    (due → (s.d.ctl sl).busy ≠ .undefining →
      let d1 := ((d0.moltSlot sl false).setSlotState sl stStopped).setCtl sl SlotCtl.zero
      exec (.moltComplete c p) s = .next { s with d := (d1.slotResult sl .ok).moltDone sl }) ∧
    (due → (s.d.ctl sl).busy = .undefining →
      exec (.moltComplete c p) s = .next { s with d := (((d0.moltSlot sl true).freeSlot sl).slotResult sl .ok).moltDone sl }) ∧
    (¬ due → exec (.moltComplete c p) s = .next s)) ∧
  (∀ c p s,
    let sl := slotId c p
    let d1 := (s.d.sweepEntries sl).sweepNodes s.clk.tick sl
    (s.d.sweeping sl = true → exec (.sweepEnd c p) s
      = .next { s with d := (d1.setRegN (slotReg sl .SLOT_GEN) 1).setBit (slotReg sl .SLOT_STAT) 30 false }) ∧
    (s.d.sweeping sl = false → exec (.sweepEnd c p) s = .next s)) ∧
  (∀ slot s,
    let due := s.clk.runs = true ∧ s.clk.cyc = 0 ∧ s.d.admits slot s.clk.dtime = true
    (due → exec (.frameAdmission slot) s = .next { s with d := s.d.admitFrame slot }) ∧
    (¬ due → exec (.frameAdmission slot) s = .next s))

/-- The registers of a slot and its bindings (04 R109; 06 R168, R176–R178, R188; 07 R194). Written by OID 0 while the slot is not live,
each holds its value, and a TADPOLE slot becomes STOPPED; SLOT_FOOT is written only while the slot is UNDEFINED, SLOT_FRAME only with P +
E ≤ F; a binding is written unless the slot of the old or the new one is live, the tile port or leap port is taken or out of reach, the
cluster is RETIRED or COUNT is above 512, and a changed one empties the port or sets the leap port's hold value to 0. Any other write is
refused. The model's own choices are log entries 125 and 126. -/
def Obligations.SlotRegisters : Prop :=
  (∀ m c p v s, m.oid = 0 →
    let sl := slotId c p
    let free := s.d.anchored sl = true ∧ s.d.slotLive sl = false
    let still := s.d.slotState sl = stUndefined ∧ s.d.slotBusy sl = false ∧ s.d.loadRuns sl = false
    let fits := bitsOf v 31 16 + bitsOf v 47 32 ≤ bitsOf v 15 0
    (free → still → exec (.slotFoot m c p v) s
      = .next { s with d := ((s.d.setRegN (slotReg sl .SLOT_FOOT) (v % 2 ^ 64)).untadpole sl).okay }) ∧
    (¬ (free ∧ still) → exec (.slotFoot m c p v) s = .next { s with d := s.d.refuse m (slotReg sl .SLOT_FOOT) }) ∧
    (free → exec (.slotOid m c p v) s
      = .next { s with d := ((s.d.setRegN (slotReg sl .SLOT_OID) (v % 2048)).untadpole sl).okay }) ∧
    (¬ free → exec (.slotOid m c p v) s = .next { s with d := s.d.refuse m (slotReg sl .SLOT_OID) }) ∧
    (free → fits → exec (.slotFrame m c p v) s
      = .next { s with d := ((s.d.setRegN (slotReg sl .SLOT_FRAME) (v % 2 ^ 48)).untadpole sl).okay }) ∧
    (¬ (free ∧ fits) → exec (.slotFrame m c p v) s = .next { s with d := s.d.refuse m (slotReg sl .SLOT_FRAME) }) ∧
    (free → exec (.slotExit m c p v) s
      = .next { s with d := ((s.d.setRegN (slotReg sl .SLOT_EXIT) (v &&& 0x803F3FF3)).untadpole sl).okay }) ∧
    (¬ free → exec (.slotExit m c p v) s = .next { s with d := s.d.refuse m (slotReg sl .SLOT_EXIT) })) ∧
  (∀ m c p n v s, m.oid = 0 →
    let free := s.d.posValid c p = true ∧ s.d.posLive c p = false
    (free → exec (.gfp m c p n v) s
      = .next { s with d := ((s.d.setRegN (cluReg c .GFP p n) (v % 65536)).untadpole (s.d.posSlot c p)).okay }) ∧
    (¬ free → exec (.gfp m c p n v) s = .next { s with d := s.d.refuse m (cluReg c .GFP p n) })) ∧
  (∀ m c n v s, m.oid = 0 →
    let x := cluReg c .VP_CFG n
    let w := BitVec.ofNat 64 (v &&& 0xF03F0100000003FF)
    let old := s.d.reg x
    let fits := s.d.bindLive c old = false ∧ s.d.bindLive c w = false ∧ getBits w 9 0 ≤ 512 ∧
      (w.getLsbD 63 = true → s.d.tpTaken c w x = false ∧ s.d.cluState c ≠ 2)
    let emptied := old.getLsbD 63 = true ∧ w ≠ old
    let put (d : Dev) : Dev := (((d.setReg x w).bindUntadpole c old).bindUntadpole c w).okay
    (fits → ¬ emptied → exec (.vpCfg m c n v) s = .next { s with d := put s.d }) ∧
    (fits → emptied → exec (.vpCfg m c n v) s = .next { s with d := put (s.d.emptyPort (c * 16 + n)) }) ∧
    (¬ fits → exec (.vpCfg m c n v) s = .next { s with d := s.d.refuse m x })) ∧
  (∀ m c i v s, m.oid = 0 →
    let x := cluReg c .LPB i
    let w := BitVec.ofNat 64 (v &&& 0xF03F01020000001F)
    let old := s.d.reg x
    let fits := s.d.bindLive c old = false ∧ s.d.bindLive c w = false ∧ (w.getLsbD 63 = true →
      s.d.tpTaken c w x = false ∧ leapReach c w = true ∧ s.d.leapTaken c w x = false ∧ s.d.cluState c ≠ 2)
    let put (d : Dev) : Dev := (((d.setReg x w).bindUntadpole c old).bindUntadpole c w).okay
    let was := old.getLsbD 63 = true
    let is := w.getLsbD 63 = true
    (fits → w = old ∨ ¬ was → w = old ∨ ¬ is → exec (.lpb m c i v) s = .next { s with d := put s.d }) ∧
    (fits → w ≠ old → ¬ was → is → exec (.lpb m c i v) s = .next { s with d := put (s.d.leapRelease c w) }) ∧
    (fits → w ≠ old → was → ¬ is → exec (.lpb m c i v) s = .next { s with d := put (s.d.leapRelease c old) }) ∧
    (fits → w ≠ old → was → is →
      exec (.lpb m c i v) s = .next { s with d := put ((s.d.leapRelease c old).leapRelease c w) }) ∧
    (¬ fits → exec (.lpb m c i v) s = .next { s with d := s.d.refuse m x }))

/-- Regrowth and retirement (06 R183–R186; 12 R337). A REGROW of an ACTIVE cluster with its spare unused begins, one with its spare used
retires it; a LIVE slot pauses at a round boundary with no window open; each column copy moves one column, and the copy of the failed one
updates SHIFT_COL, SPARE_USED and TILE_ID; a PAUSED slot resumes LIVE once no footprint cluster is REGROWING, or TADPOLE where a stop
reached it; an order on a REGROWING cluster only sets RGRESULT to BUSY, on a RETIRED one it has no effect, with COL above 7 it is refused
(the kind is the model's choice, log entry 127); a RETIRE stops the slots, and the teardown molts and undefines them, zeroes the cluster,
puts it OFF and raises the end of the retirement (the part of a position's own state, log entry 26). -/
def Obligations.Regrowth : Prop :=
  (∀ m c col s, m.oid = 0 →
    let stat := s.d.reg (cluReg c .CLU_STAT)
    let d1 := ((s.d.interruptClu c).setClu c 31 30 1).setClu c 19 16 0
    (7 < col → exec (.regrow m c col) s = .next { s with d := s.d.refuse m (cluReg c .CLU_REGROW) }) ∧
    (col < 8 → s.d.cluState c = 1 → exec (.regrow m c col) s = .next { s with d := (s.d.setClu c 23 20 3).okay }) ∧
    (col < 8 → s.d.cluState c ≠ 1 → s.d.retired c = true → exec (.regrow m c col) s = .next { s with d := s.d.okay }) ∧
    (col < 8 → s.d.cluState c ≠ 1 → s.d.retired c = false → stat.getLsbD 7 = true →
      exec (.regrow m c col) s = .next { s with d := (s.d.retire s.clk.tick c).okay }) ∧
    (col < 8 → s.d.cluState c ≠ 1 → s.d.retired c = false → stat.getLsbD 7 = false →
      exec (.regrow m c col) s = .next { s with d := (d1.setRegrow c ⟨true, col, 0, false, 0, getBits stat 11 7⟩).okay }) ∧
    (s.d.cluState c = 1 → exec (.retire m c) s = .next { s with d := (s.d.setClu c 23 20 3).okay }) ∧
    (s.d.cluState c ≠ 1 → s.d.retired c = true → exec (.retire m c) s = .next { s with d := s.d.okay }) ∧
    (s.d.cluState c ≠ 1 → s.d.retired c = false →
      exec (.retire m c) s = .next { s with d := (s.d.retire s.clk.tick c).okay })) ∧
  (∀ slot s,
    let due := s.clk.cyc = 0 ∧ s.d.slotState slot = stLive ∧ s.d.regrowing slot = true ∧ (s.d.frame slot).isOpen = false
    (due → exec (.slotPause slot) s = .next { s with d := s.d.setSlotState slot stPaused }) ∧
    (¬ due → exec (.slotPause slot) s = .next s)) ∧
  (∀ c s,
    let r := s.d.regrow c
    let due := r.active = true ∧ r.updated = false ∧ ∀ x, x ∈ s.d.slotsIn c → s.d.slotLive x = false ∨ s.d.slotState x = stPaused
    let col := 7 - r.copied
    let move (d : Dev) : Dev := ((d.copyColumn c col).poisonColumn c col).setClu c 19 16 (r.copied + 1)
    (due → col ≠ r.col →
      exec (.columnCopy c) s = .next { s with d := (move s.d).setRegrow c { r with copied := r.copied + 1 } }) ∧
    (due → col = r.col →
      let d1 := (move (s.d.keepColumn c col)).shiftUpdate c r.col
      exec (.columnCopy c) s
        = .next { s with d := d1.setRegrow c { r with copied := r.copied + 1, updated := true, wait := 2 } }) ∧
    (¬ due → exec (.columnCopy c) s = .next s)) ∧
  (∀ slot s,
    let due := s.d.slotState slot = stPaused ∧ ∀ x, x ∈ s.d.footprint slot → (s.d.regrow x).active = false
    (due → (s.d.ctl slot).resume = false → exec (.slotResume slot) s = .next { s with d := s.d.setSlotState slot stLive }) ∧
    (due → (s.d.ctl slot).resume = true →
      let d1 := (s.d.setCtl slot { s.d.ctl slot with resume := false }).setSlotState slot stTadpole
      exec (.slotResume slot) s = .next { s with d := d1.slotDone slot }) ∧
    (¬ due → exec (.slotResume slot) s = .next s)) ∧
  (∀ c s,
    let due := nget false s.d.arr.retiring c = true ∧
      ∀ x, x ∈ s.d.slotsIn c → s.d.slotLive x = false ∧ s.d.slotInFlight x = false
    (due →
      let d1 := (s.d.slotsIn c).foldl (fun x s => (((x.setBusy s .idle).moltSlot s true).freeSlot s).moltDone s) s.d
      let d3 := (((d1.zeroCluster c cluKeeps).setClu c 31 30 2).setClu c 23 20 2).setDom (quarterOf c) (localOf c) 2
      exec (.retirementTeardown c) s
        = .next { s with d := { d3 with arr := { d3.arr with retiring := nset false d3.arr.retiring c false } }.raiseClu c 3 }) ∧
    (¬ due → exec (.retirementTeardown c) s = .next s))

/-- Loads (08 R232–R242). FULL, PATCH and VERIFY of a record that may start begin the load with the request of its entry; STATUS answers
the load record. At its completion a load that an event stopped fails with that event's code; a late handover that R149 refuses fails
BINDING; the read-back counts and records what it finds, VERIFY compares the bindings too and changes nothing else; a load that reads back
otherwise than the image gives, or in whose rewritten items a new error stands, fails WRITE_FAULT; else PATCH leaves the slot TADPOLE, and
FULL makes the bindings, records the image and leaves the slot TADPOLE, or fails BINDING. The model's own choices are log entries 29 and
129. -/
def Obligations.Loads : Prop :=
  (∀ q r c s, canStart s.d q r 0x43 c →
    let k := cmdKey q r
    let a := sqArg c.ent
    let b := sqBuf c.ent 0
    let p := sqP c.ent 4
    let go (mode : Nat) : Dev := (s.d.waitFor k c (.load (a % 256))).loadStart
      ⟨a % 256, mode, bitsOf a 26 16, b.addr, b.len, p % 256, bitsOf p 15 8, bitsOf p 19 16, k⟩
    (bitsOf a 9 8 = 0 → exec (.loadFull q r) s = .next { s with d := go 0 }) ∧
    (bitsOf a 9 8 ≠ 0 → exec (.loadFull q r) s = .next s) ∧
    (bitsOf a 9 8 = 1 → exec (.loadPatch q r) s = .next { s with d := go 1 }) ∧
    (bitsOf a 9 8 ≠ 1 → exec (.loadPatch q r) s = .next s) ∧
    (bitsOf a 9 8 = 2 → exec (.loadVerify q r) s = .next { s with d := go 2 }) ∧
    (bitsOf a 9 8 ≠ 2 → exec (.loadVerify q r) s = .next s) ∧
    (bitsOf a 9 8 = 3 → exec (.loadStatus q r) s
      = .next { s with d := (s.d.waitFor k c (.load (a % 256))).loadEnd k 0 0xFF 0xFF (s.d.load (a % 256)).st }) ∧
    (bitsOf a 9 8 ≠ 3 → exec (.loadStatus q r) s = .next s)) ∧
  (∀ q r s, (∀ c, ¬ canStart s.d q r 0x43 c) →
    exec (.loadFull q r) s = .next s ∧ exec (.loadPatch q r) s = .next s ∧ exec (.loadVerify q r) s = .next s ∧
    exec (.loadStatus q r) s = .next s) ∧
  (∀ slot ups l s, s.d.sysHalt = false → nget none s.d.loading slot = some l →
    let e := s.d.endBanks slot l
    let d1 := e.1.readMarks slot l
    let d2 := ups.foldl (fun x u => x.upset u) (d1.rewriteCe slot l)
    let reads := l.code = 0 ∧ e.2 = none
    let clean := l.mode ≠ 2 ∧ e.1.readBack slot l = none
    (l.code ≠ 0 →
      exec (.loadCompletion slot ups) s = .next { s with d := s.d.loadFail slot l l.code l.memb l.tile }) ∧
    (∀ f, l.code = 0 → e.2 = some f →
      exec (.loadCompletion slot ups) s = .next { s with d := e.1.loadFail slot l 0x09 f.1 f.2 }) ∧
    (reads → l.mode = 2 → e.1.readBack slot l = none → e.1.bindDiffers slot l.bytes = none →
      exec (.loadCompletion slot ups) s = .next { s with d := (d1.setLoading slot none).loadEnd l.cmd 0 0xFF 0xFF 0 }) ∧
    (∀ x, reads → l.mode = 2 → e.1.readBack slot l = some x ∨
        (e.1.readBack slot l = none ∧ e.1.bindDiffers slot l.bytes = some x) →
      exec (.loadCompletion slot ups) s = .next { s with d := (d1.setLoading slot none).loadEnd l.cmd 0x0F x.1 x.2 0 }) ∧
    (∀ x, reads → l.mode ≠ 2 → e.1.readBack slot l = some x →
      exec (.loadCompletion slot ups) s = .next { s with d := d1.loadFail slot l 0x0D x.1 x.2 }) ∧
    (∀ T, reads → clean → d2.secondRead d1 slot l = some T →
      exec (.loadCompletion slot ups) s
        = .next { s with d := (d2.readMarks slot l).loadFail slot l 0x0D (l.place slot T).1 (l.place slot T).2 }) ∧
    (reads → clean → d2.secondRead d1 slot l = none → l.mode = 1 →
      exec (.loadCompletion slot ups) s
        = .next { s with d := ((d2.setLoading slot none).setSlotState slot stTadpole).loadEnd l.cmd 0 0xFF 0xFF 0 }) ∧
    (reads → clean → d2.secondRead d1 slot l = none → l.mode ≠ 1 →
      let ps := portRecs l.bytes (secsOf l.bytes)
      let foreign := l.bound = true ∧ (d2.bindsOf slot).all (d2.bindStands slot l.bytes) = false
      let f := d2.bindFault true slot l.bytes ps
      (foreign → exec (.loadCompletion slot ups) s = .next { s with d := d2.loadFail slot l 0x09 0xFF 0xFF }) ∧
      (¬ foreign → d2.bindAll slot l.bytes ps = none → exec (.loadCompletion slot ups) s
        = .next { s with d := d2.loadFail slot l 0x09 (f.elim 0xFF (fun x => x.memb)) (f.elim 0xFF (fun x => x.tile)) }) ∧
      (∀ d3, ¬ foreign → d2.bindAll slot l.bytes ps = some d3 →
        let rcd : LoadRec := ⟨2, imIdent l.bytes, epsOf l.bytes (secsOf l.bytes), (membersOf slot l.bytes).map (fun x => x.2)⟩
        let d4 := d3.setLoading slot none
        let d5 : Dev := { d4 with loads := nset LoadRec.none d4.loads slot rcd }
        exec (.loadCompletion slot ups) s
          = .next { s with d := (d5.setSlotState slot stTadpole).loadEnd l.cmd 0 0xFF 0xFF 0 }))) ∧
  (∀ slot ups s, nget none s.d.loading slot = none → exec (.loadCompletion slot ups) s = .next s)

/-- Doorbells and the states of a queue pair (14 R382, R385, R386, R409, R411). An ENABLED pair takes a tail inside its ring and a head
that releases only written entries, raises DOORBELL, and refuses any other with DBERR; EN = 1 enables an ASSIGNED pair whose rings fit
MAXLOG, EN = 0 drains an ENABLED one, any other write leaves the state; a drained pair is UNASSIGNED after a DELETE_Q, else ASSIGNED, and
after a function reset its page is reset but for QUENCHED. Fetch and completion (14 R387, R388, R407, R408, R410). A fetch decision reads
up to 8 entries of the pair it chooses, as far as its ring, credit and the wrap allow; a failed read, or one of a function that may not
issue, sets FETCHERR; an ended command whose function can issue gets its CQ entry at CQ_TAIL, PHASE turns at the wrap, its record is free
and the entry counts toward the interrupt unless FLAGS says not; the time limit of a pair's interrupt sends it. The model's own choices
are log entries 43, 44, 45, 52. -/
def Obligations.QueuePairs : Prop :=
  ((∀ m q i v s,
    let fits := s.d.qpState q i = 2 ∧ v % 65536 < s.d.sqSize q i
    (fits → exec (.sqTail m q i v) s
      = .next { s with d := ((s.d.setRegN (R.SQ_TAIL.at q i) (v % 65536)).qpLevel q i).dbAccept q i }) ∧
    (¬ fits → exec (.sqTail m q i v) s
      = .next { s with d := ((s.d.setFld F.QP_STAT_DBERR 1 q i).qeErr s.clk.tick q 1 (1024 * q + i)).answer .slverr 0 })) ∧
  (∀ m q i v s,
    let fits := s.d.qpState q i = 2 ∧ v % 65536 < s.d.cqSize q i ∧
      ringDist (v % 65536) (s.d.regN (R.CQ_HEAD.at q i)) (s.d.cqSize q i) ≤ s.d.cqHeld q i
    (fits → exec (.cqHead m q i v) s
      = .next { s with d := (s.d.setRegN (R.CQ_HEAD.at q i) (v % 65536)).dbAccept q i }) ∧
    (¬ fits → exec (.cqHead m q i v) s
      = .next { s with d := ((s.d.setFld F.QP_STAT_DBERR 1 q i).qeErr s.clk.tick q 2 (1024 * q + i)).answer .slverr 0 })) ∧
  (∀ m q i v s,
    let lim := s.d.fld F.QP_INFO_MAXLOG q i
    let may := s.d.qpState q i = 1 ∧ s.d.fld F.QP_SIZE_SQLOG q i ≤ lim ∧ s.d.fld F.QP_SIZE_CQLOG q i ≤ lim
    (v % 2 = 1 → may → exec (.qpCtrl m q i v) s = .next { s with d := (s.d.enableQp q i).okay }) ∧
    (v % 2 = 1 → ¬ may → exec (.qpCtrl m q i v) s = .next { s with d := s.d.okay }) ∧
    (v % 2 = 0 → s.d.qpState q i = 2 →
      exec (.qpCtrl m q i v) s = .next { s with d := ((s.d.setFld F.QP_CTRL_EN 0 q i).setQpState q i 3).okay }) ∧
    (v % 2 = 0 → s.d.qpState q i ≠ 2 →
      exec (.qpCtrl m q i v) s = .next { s with d := (s.d.setFld F.QP_CTRL_EN 0 q i).okay })) ∧
  (∀ q i s, s.d.sysHalt = false →
    let drained := s.d.qpState q i = 3 ∧ s.d.fld F.QP_STAT_INFL q i = 0
    let del := (s.d.pair q i).delete = true
    let rst := s.d.flag F.QP_STAT_INRESET q i = true
    (drained → del → exec (.pairDrained q i) s = .next { s with d := (s.d.unassignQp q i).waitDone (.pair q i) 0 0 }) ∧
    (drained → ¬ del → rst →
      let d1 := (s.d.resetPage q i).setReg (R.QP_INFO.at q i) (s.d.reg (R.QP_INFO.at q i))
      let d2 := (d1.setFld F.QP_STAT_QUENCHED (s.d.fld F.QP_STAT_QUENCHED q i) q i).setPair q i Pair.zero
      exec (.pairDrained q i) s = .next { s with d := (d2.setQpState q i 1).qpLevel q i }) ∧
    (drained → ¬ del → ¬ rst → exec (.pairDrained q i) s = .next { s with d := s.d.setQpState q i 1 }) ∧
    (¬ drained → exec (.pairDrained q i) s = .next s))) ∧
  ((∀ q ents s, s.d.sysHalt = false →
    let on := (s.d.reg (R.QE_CTRL.at q)).getLsbD 0 = true
    let d0 := s.d.countHolds q
    (¬ on → exec (.fetchDecision q ents) s = .next s ∧ exec (.sqReadError q) s = .next s) ∧
    (on → d0.choosePair q = none →
      exec (.fetchDecision q ents) s = .next { s with d := d0 } ∧ exec (.sqReadError q) s = .next { s with d := d0 }) ∧
    (∀ i, on → d0.choosePair q = some i →
      let d1 : Dev := { d0 with rrobin := nset 0 d0.rrobin (q * 64 + d0.qpRank q i) (i + 1) }
      let n := Nat.min (Nat.min 8 (d1.sqWaiting q i)) (Nat.min (d1.credit q i) (d1.sqSize q i - d1.regN (R.SQ_HEAD.at q i)))
      let bad := (d1.setFld F.QP_STAT_FETCHERR 1 q i).qeErr s.clk.tick q 3 (1024 * q + i)
      (d1.fnIssues (d1.qpOid q i) = true →
        exec (.fetchDecision q ents) s = .next { s with d := (d1.fetchAll q i (ents.take n)).qpLevel q i }) ∧
      (d1.fnIssues (d1.qpOid q i) = false → exec (.fetchDecision q ents) s = .next { s with d := bad }) ∧
      exec (.sqReadError q) s = .next { s with d := bad })) ∧
  (∀ q r s, s.d.sysHalt = false →
    (∀ c, s.d.cmd (cmdKey q r) = some c →
      let i := c.qp
      let tail := s.d.regN (R.CQ_TAIL.at q i)
      let next := (tail + 1) % s.d.cqSize q i
      let may := c.st = .ended ∧ s.d.fnIssues (s.d.qpOid q i) = true
      let d1 := s.d.send (.hostWrite (s.d.qpOid q i) (s.d.regN (R.CQ_BASE.at q i) + 16 * tail) (s.d.cqEntry s.clk.tick q c))
      let d2 := d1.setRegN (R.CQ_TAIL.at q i) next
      let d3 := if next = 0 then d2.setFld F.QP_STAT_PHASE (1 - d2.fld F.QP_STAT_PHASE q i) q i else d2
      let d4 := (d3.freeCmd (cmdKey q r) i).qpLatch q i
      (may → (sqFlags c.ent).testBit 0 = true → exec (.cqEntryWrite q r) s = .next { s with d := d4.fenceSweep q }) ∧
      (may → (sqFlags c.ent).testBit 0 = false →
        exec (.cqEntryWrite q r) s = .next { s with d := (d4.qpCount s.clk.tick q i).fenceSweep q }) ∧
      (¬ may → exec (.cqEntryWrite q r) s = .next s)) ∧
    (s.d.cmd (cmdKey q r) = none → exec (.cqEntryWrite q r) s = .next s)) ∧
  (∀ q i s, s.d.sysHalt = false →
    let p := s.d.pair q i
    let due := p.intr.testBit 31 = true ∧ p.itime ≠ 0 ∧ p.cnt ≠ 0 ∧ p.itime ≤ s.clk.tick - p.since
    (due → exec (.itimeExpiry q i) s = .next { s with d := s.d.qpInterrupt q i }) ∧
    (¬ due → exec (.itimeExpiry q i) s = .next s)))

/-- Data commands (14 R389, R390, R392, R396, R397, R437; QUE-9, QUE-10). An INVOKE that may start looks its entry up, ends with the
status of the first check that fails, waits for a record of the anchor's quarter, builds its chain (WINDOW_FAULT where a write fails),
queues its jobs and submits its tasks, and goes on once job slots have freed; COPY and FILL move 8-byte elements and end with the bytes
moved or the status of the first failure; a FENCE and a NOP complete, a QUERY answers, a MEDIA posts its op list to an enabled channel; a
record that holds no such command that may start, and every one during a system halt, changes nothing. The model's own choices are log
entries 24, 46, 105. -/
def Obligations.QueueCommands : Prop :=
  (∀ q r c s, canStart s.d q r 0x01 c →
    let k := cmdKey q r
    let oid := s.d.qpOid q c.qp
    let e := s.d.entRead q oid (sqArg c.ent % 256)
    let d0 := e.2.2
    (e.1 ≠ 0 → exec (.invoke q r) s = .next { s with d := d0.endCmd k e.1 0 }) ∧
    (∀ st, e.1 = 0 → d0.invokeCheck c.ent e.2.1 = (st, none) → exec (.invoke q r) s = .next { s with d := d0.endCmd k st 0 }) ∧
    (∀ st w, e.1 = 0 → d0.invokeCheck c.ent e.2.1 = (st, some w) →
      let h := quarterOf (w.v % 256 / 4)
      let todo := ((upTo 3).filter (fun n => (sqBuf c.ent n).used)).map (fun n => (n, w.vps.getD n 0))
      let c1 : Cmd := { c with st := .running, todo := todo, chain := w.ep.chain }
      (d0.moveRec q k h c = none → exec (.invoke q r) s = .next { s with d := d0 }) ∧
      (∀ k1 d1, d0.moveRec q k h c = some (k1, d1) →
        let built := d1.buildChain k1 (d1.fld F.QP_OWN_LEVEL q c.qp) oid c.ent w.v w.ep w.ep.chain
        (built = none → exec (.invoke q r) s = .next { s with d := d1.endCmd k1 0x03 0 }) ∧
        (∀ d2, built = some d2 →
          let d3 := (d2.setPair q c.qp { d2.pair q c.qp with lastHome := h + 1 }).setCmd k1 (some c1)
          exec (.invoke q r) s = .next { s with d := d3.invokeGo k1 oid s.clk })))) ∧
  (∀ q r c s, s.d.sysHalt = false → s.d.cmd (cmdKey q r) = some c → sqOpc c.ent = 0x01 → s.d.mayStart q c = false →
    (c.st = .running → c.submitted = false →
      exec (.invoke q r) s = .next { s with d := s.d.invokeGo (cmdKey q r) (s.d.qpOid q c.qp) s.clk }) ∧
    (c.st ≠ .running ∨ c.submitted = true → exec (.invoke q r) s = .next s)) ∧
  (∀ q r c sgl0 sgl1 ans0 ans1 e s, canStart s.d q r 0x02 c →
    let k := cmdKey q r
    let oid := s.d.qpOid q c.qp
    let b0 := sqBuf c.ent 0
    let b1 := sqBuf c.ent 1
    let c0 := s.d.bufCode oid b0 sgl0 ans0
    let c1 := s.d.bufCode oid b1 sgl1 ans1
    let x := s.d.moveEls (fun x o => x.bufGet q oid b0 ans0 o (if o = 0 then e else .none) s.clk)
      (fun x o v => x.bufPut q oid b1 (b1.segs sgl1) o v .none s.clk) 0 (b0.len / 8)
    (c0 = 0 → c1 = 0 →
      exec (.copy q r sgl0 sgl1 ans0 ans1 e) s = .next { s with d := x.2.2.endCmd k (memStatus x.1) x.2.1 }) ∧
    (c0 ≠ 0 → exec (.copy q r sgl0 sgl1 ans0 ans1 e) s = .next { s with d := s.d.endCmd k (memStatus c0) 0 }) ∧
    (c0 = 0 → c1 ≠ 0 → exec (.copy q r sgl0 sgl1 ans0 ans1 e) s = .next { s with d := s.d.endCmd k (memStatus c1) 0 })) ∧
  (∀ q r c sgl ans e s, canStart s.d q r 0x03 c →
    let k := cmdKey q r
    let oid := s.d.qpOid q c.qp
    let b := sqBuf c.ent 0
    let c0 := s.d.bufCode oid b sgl ans
    let x := s.d.moveEls (fun x _ => (0, c.ent / 2 ^ 256 % 2 ^ 64, x))
      (fun x o v => x.bufPut q oid b (b.segs sgl) o v (if o = 0 then e else .none) s.clk) 0 (b.len / 8)
    (c0 = 0 → exec (.fill q r sgl ans e) s = .next { s with d := x.2.2.endCmd k (memStatus x.1) x.2.1 }) ∧
    (c0 ≠ 0 → exec (.fill q r sgl ans e) s = .next { s with d := s.d.endCmd k (memStatus c0) 0 })) ∧
  (∀ q r s, s.d.sysHalt = false →
    (∀ c, canStart s.d q r 0x04 c →
      exec (.fence q r) s = .next { s with d := (s.d.setCmd (cmdKey q r) (some { c with st := .running })).fenceSweep q }) ∧
    ((∀ c, ¬ canStart s.d q r 0x04 c) → exec (.fence q r) s = .next { s with d := s.d.fenceSweep q })) ∧
  (∀ q r c s, canStart s.d q r 0x05 c → exec (.queNop q r) s = .next { s with d := s.d.endCmd (cmdKey q r) 0 0 }) ∧
  (∀ q r c s, canStart s.d q r 0x06 c →
    let k := cmdKey q r
    let kind := sqArg c.ent % 256
    let idx := bitsOf (sqArg c.ent) 15 8
    let e := s.d.entRead q (s.d.qpOid q c.qp) idx
    let v := e.2.1
    let stale := if bitsOf v 47 32 = s.d.regN (slotReg (v % 256) .SLOT_GEN) then 0 else 1
    let valid := if v.testBit 63 then 1 else 0
    (kind = 0 → e.1 ≠ 0 → exec (.query q r) s = .next { s with d := e.2.2.endCmd k e.1 0 }) ∧
    (kind = 0 → e.1 = 0 → exec (.query q r) s = .next { s with
      d := e.2.2.endCmd k 0 (valid * 2 ^ 31 + stale * 2 ^ 30 + bitsOf v 59 56 * 2 ^ 24 + s.d.slotState (v % 256) % 16 * 2 ^ 16 + v % 256) }) ∧
    (idx = 0 → kind = 1 → exec (.query q r) s = .next { s with d := s.d.endCmd k 0 (s.d.windowsOf (s.d.qpOid q c.qp)) }) ∧
    (idx = 0 → kind = 2 → exec (.query q r) s = .next { s with d := s.d.endCmd k 0 (s.d.fld F.QP_STAT_INFL q c.qp) }) ∧
    (2 < kind ∨ (kind ≠ 0 ∧ idx ≠ 0) → exec (.query q r) s = .next { s with d := s.d.endCmd k 0x0B 0 })) ∧
  (∀ q r c s, canStart s.d q r 0x4A c →
    let k := cmdKey q r
    let b := sqBuf c.ent 0
    let m := sqArg c.ent % 1024
    let good := m < 576 ∧ b.len % 16 = 0 ∧ 0 < b.len ∧ b.len ≤ 4096
    let d1 := s.d.waitFor k c (.media (mediaPlace m).1 (mediaPlace m).2 0)
    (good → s.d.chEn m = true →
      exec (.media q r) s = .next { s with d := d1.addPost m (b.addr / 16 * 16 % 2 ^ 48) (b.len / 16) (some k) }) ∧
    (good → s.d.chEn m = false → exec (.media q r) s = .next { s with d := s.d.endCmd k 0x0A 0 }) ∧
    (¬ good → exec (.media q r) s = .next { s with d := s.d.endCmd k 0x0B 0 })) ∧
  (∀ q r sgl0 sgl1 ans0 ans1 e s,
    ((∀ c, ¬ canStart s.d q r 0x02 c) → exec (.copy q r sgl0 sgl1 ans0 ans1 e) s = .next s) ∧
    ((∀ c, ¬ canStart s.d q r 0x03 c) → exec (.fill q r sgl0 ans0 e) s = .next s) ∧
    ((∀ c, ¬ canStart s.d q r 0x05 c) → exec (.queNop q r) s = .next s) ∧
    ((∀ c, ¬ canStart s.d q r 0x06 c) → exec (.query q r) s = .next s) ∧
    ((∀ c, ¬ canStart s.d q r 0x4A c) → exec (.media q r) s = .next s) ∧
    (s.d.sysHalt = true → exec (.invoke q r) s = .next s ∧ exec (.fence q r) s = .next s) ∧
    (s.d.cmd (cmdKey q r) = none → exec (.invoke q r) s = .next s) ∧
    (∀ c, s.d.cmd (cmdKey q r) = some c → sqOpc c.ent ≠ 0x01 → exec (.invoke q r) s = .next s))

/-- Management commands (14 R381, R382, R399, R403; 09 R253). CREATE_Q assigns the lowest free pair, MALFORMED with a wrong operand and
RESOURCE where the queue exists or no pair is free; DELETE_Q unassigns an ASSIGNED one and drains any other; BIND_WINDOW writes WIN_ENT
and waits for the molt; START_SLOT, STOP_SLOT in its two forms and MOLT act on the anchor's slot block and wait while that runs, else they
end by its RESULT; SET_ENTRY writes the entry that names a slot's entry point with its generation, or zero for an invalid one, waits
during a sweep, and is answered ENTRY_INVALID for an entry point that it may not name. -/
def Obligations.QueueManagement : Prop :=
  (∀ q r c s, canStart s.d q r 0x40 c →
    let k := cmdKey q r
    let oid := sqArg c.ent % 2048
    let n := bitsOf (sqArg c.ent) 27 16
    let level := sqP c.ent 0 % 32
    let maxlog := bitsOf (sqP c.ent 0) 12 8
    let lq := s.d.fnQuarter oid
    let good := s.d.fnExists oid = true ∧ n < s.d.dbPages oid ∧ ¬ (n = 0 ∧ oid < 32) ∧ level ≤ 27 ∧ 4 ≤ maxlog ∧ maxlog ≤ 16
    (¬ good → exec (.createQ q r) s = .next { s with d := s.d.endCmd k 0x0B 0 }) ∧
    (good → s.d.qpOf oid n ≠ none → exec (.createQ q r) s = .next { s with d := s.d.endCmd k 0x0A 0 }) ∧
    (good → s.d.freePair lq = none → exec (.createQ q r) s = .next { s with d := s.d.endCmd k 0x0A 0 }) ∧
    (∀ i, good → s.d.qpOf oid n = none → s.d.freePair lq = some i → exec (.createQ q r) s
      = .next { s with d := (s.d.assignQp lq i oid n level maxlog false).endCmd k 0 (1024 * lq + i) })) ∧
  (∀ q r c s, canStart s.d q r 0x41 c →
    let k := cmdKey q r
    let pair := s.d.qpOf (sqArg c.ent % 2048) (bitsOf (sqArg c.ent) 27 16)
    (pair = none → exec (.deleteQ q r) s = .next { s with d := s.d.endCmd k 0x0B 0 }) ∧
    (∀ lq i, pair = some (lq, i) →
      let d1 := ((s.d.setPair lq i { s.d.pair lq i with delete := true }).setFld F.QP_CTRL_EN 0 lq i).setQpState lq i 3
      (s.d.qpAdmin lq i = true → exec (.deleteQ q r) s = .next { s with d := s.d.endCmd k 0x0B 0 }) ∧
      (s.d.qpAdmin lq i = false → s.d.qpState lq i = 1 →
        exec (.deleteQ q r) s = .next { s with d := (s.d.unassignQp lq i).endCmd k 0 0 }) ∧
      (s.d.qpAdmin lq i = false → s.d.qpState lq i ≠ 1 →
        exec (.deleteQ q r) s = .next { s with d := d1.waitFor k c (.pair lq i) }))) ∧
  (∀ q r c s, canStart s.d q r 0x42 c →
    let k := cmdKey q r
    let g := sqArg c.ent % 2 ^ 17
    let wq := g / winPerQuarter Config.order
    let i := g % winPerQuarter Config.order
    let d1 := s.d.winEntSet wq i (sqP c.ent 0)
    let molts := (d1.reg (R.WIN_ENT.at wq i)).getLsbD 30 = true
    (4 ≤ wq → exec (.bindWindow q r) s = .next { s with d := s.d.endCmd k 0x0B 0 }) ∧
    (wq < 4 → s.d.winEntOk wq i = false → exec (.bindWindow q r) s = .next { s with d := s.d.endCmd k 0x0A 0 }) ∧
    (wq < 4 → s.d.winEntOk wq i = true → molts →
      exec (.bindWindow q r) s = .next { s with d := d1.waitFor k c (.win wq i) }) ∧
    (wq < 4 → s.d.winEntOk wq i = true → ¬ molts → exec (.bindWindow q r) s = .next { s with d := d1.endCmd k 0 0 })) ∧
  (∀ q r opc c s, canStart s.d q r opc c →
    let sl := sqArg c.ent % 256
    let k := cmdKey q r
    let m := sliceMst q
    let done (d : Dev) : State :=
      let v := d.regN (slotReg sl .SLOT_STAT)
      { s with d := d.endCmd k (slotStatus (bitsOf v 27 24)) (v % 2 ^ 32) }
    let wait (d : Dev) (w : CmdWait) : State := { s with d := d.waitFor k c w }
    let none' : State := { s with d := s.d.endCmd k 0x0B 0 }
    let dS := xStart m (sl / 4) (sl % 4) s.d
    let dD := xStopDrain m (sl / 4) (sl % 4) s.clk s.d
    let dA := xStopAbort m (sl / 4) (sl % 4) s.clk s.d
    let dM := xMolt m (sl / 4) (sl % 4) s.clk s.d
    let abort := (sqArg c.ent).testBit 8
    let starts := (s.d.ctl sl).busy ≠ .starting ∧ (dS.ctl sl).busy = .starting
    let molts := s.d.slotBusy sl = false ∧ (dM.ctl sl).busy = .molting
    (s.d.hasAnchor sl = true →
      (opc = 0x44 → starts → exec (.startSlot q r) s = .next (wait dS (.slot sl))) ∧
      (opc = 0x44 → ¬ starts → exec (.startSlot q r) s = .next (done dS)) ∧
      (opc = 0x45 → abort = false → dD.stopRuns sl = true → exec (.stopSlot q r) s = .next (wait dD (.slot sl))) ∧
      (opc = 0x45 → abort = false → dD.stopRuns sl = false → exec (.stopSlot q r) s = .next (done dD)) ∧
      (opc = 0x45 → abort = true → dA.stopRuns sl = true → exec (.stopSlotAbort q r) s = .next (wait dA (.slot sl))) ∧
      (opc = 0x45 → abort = true → dA.stopRuns sl = false → exec (.stopSlotAbort q r) s = .next (done dA)) ∧
      (opc = 0x46 → molts → exec (.mgmtMolt q r) s = .next (wait dM (.molt sl))) ∧
      (opc = 0x46 → ¬ molts → exec (.mgmtMolt q r) s = .next (done dM))) ∧
    (s.d.hasAnchor sl = false →
      (opc = 0x44 → exec (.startSlot q r) s = .next none') ∧
      (opc = 0x45 → abort = false → exec (.stopSlot q r) s = .next none') ∧
      (opc = 0x45 → abort = true → exec (.stopSlotAbort q r) s = .next none') ∧
      (opc = 0x46 → exec (.mgmtMolt q r) s = .next none')) ∧
    (opc = 0x45 → abort = true → exec (.stopSlot q r) s = .next s) ∧
    (opc = 0x45 → abort = false → exec (.stopSlotAbort q r) s = .next s)) ∧
  (∀ q r c s, canStart s.d q r 0x47 c →
    let k := cmdKey q r
    let oid := sqArg c.ent % 2048
    let p := sqP c.ent 0
    let sl := p % 256
    let a := s.d.entAddr q oid (bitsOf (sqArg c.ent) 23 16)
    let put (v : Nat) : State :=
      let w := s.d.hbm (wrReq (sliceMid q) 0 a 8 v) false .none
      { s with d := w.1.endCmd k (memStatus (w.1.hbmCode (sliceMid q) 0 a true w.2.code)) 0 }
    let names := oid < 1056 ∧ p.testBit 31 = true
    (1056 ≤ oid → exec (.setEntry q r) s = .next { s with d := s.d.endCmd k 0x0B 0 }) ∧
    (oid < 1056 → p.testBit 31 = false → exec (.setEntry q r) s = .next (put 0)) ∧
    (names → s.d.sweeping sl = true → exec (.setEntry q r) s = .next s) ∧
    (names → s.d.sweeping sl = false → s.d.entryOk sl (bitsOf p 11 8) oid = false →
      exec (.setEntry q r) s = .next { s with d := s.d.endCmd k 0x04 0 }) ∧
    (names → s.d.sweeping sl = false → s.d.entryOk sl (bitsOf p 11 8) oid = true → exec (.setEntry q r) s
      = .next (put (2 ^ 63 + bitsOf p 11 8 * 2 ^ 56 + s.d.regN (slotReg sl .SLOT_GEN) * 2 ^ 32 + sl)))) ∧
  (∀ q r s,
    ((∀ c, ¬ canStart s.d q r 0x40 c) → exec (.createQ q r) s = .next s) ∧
    ((∀ c, ¬ canStart s.d q r 0x41 c) → exec (.deleteQ q r) s = .next s) ∧
    ((∀ c, ¬ canStart s.d q r 0x42 c) → exec (.bindWindow q r) s = .next s) ∧
    ((∀ c, ¬ canStart s.d q r 0x44 c) → exec (.startSlot q r) s = .next s) ∧
    ((∀ c, ¬ canStart s.d q r 0x45 c) → exec (.stopSlot q r) s = .next s ∧ exec (.stopSlotAbort q r) s = .next s) ∧
    ((∀ c, ¬ canStart s.d q r 0x46 c) → exec (.mgmtMolt q r) s = .next s) ∧
    ((∀ c, ¬ canStart s.d q r 0x47 c) → exec (.setEntry q r) s = .next s))

/-- Quench, firmware calls, the tongue (14 R400, R401, R404, R406). QUENCH in its two modes quenches the pairs it names and UNQUENCH lifts
that, except from the owner's admin pair; both are MALFORMED where ARG names no pair; FW_CALL copies its entry, sends firmware a notice
with the command's token and waits, or ends where the copy or the mailbox fails; QE_FWDONE with that token ends it, with any other it is
refused and logged; the head of the tongue's queue takes effect and leaves it with RESULT. The model's own choices are log entries 48, 49,
50, 51, 140. -/
def Obligations.QuenchTongue : Prop :=
  (∀ q r c s, canStart s.d q r 0x48 c →
    let k := cmdKey q r
    let abort := (sqArg c.ent).testBit 28
    let named := s.d.namedPairs (sqArg c.ent)
    let go (l : List (Nat × Nat)) : Dev := ((s.d.waitFor k c .none).quench s.clk.tick l abort).endCmd k 0 l.length
    (∀ l, named = some l → abort = false → exec (.quenchFinish q r) s = .next { s with d := go l }) ∧
    (∀ l, named = some l → abort = true → exec (.quenchAbort q r) s = .next { s with d := go l }) ∧
    (named = none → abort = false → exec (.quenchFinish q r) s = .next { s with d := s.d.endCmd k 0x0B 0 }) ∧
    (named = none → abort = true → exec (.quenchAbort q r) s = .next { s with d := s.d.endCmd k 0x0B 0 }) ∧
    (abort = true → exec (.quenchFinish q r) s = .next s) ∧
    (abort = false → exec (.quenchAbort q r) s = .next s)) ∧
  (∀ q r c s, canStart s.d q r 0x49 c →
    let named := s.d.namedPairs (sqArg c.ent)
    (∀ l, named = some l →
      let l1 := l.filter (fun p => !(s.d.qpAdmin p.1 p.2 && decide (s.d.qpOid p.1 p.2 = 0)))
      exec (.unquench q r) s = .next { s with d := (s.d.unquench l1).endCmd (cmdKey q r) 0 l1.length }) ∧
    (named = none → exec (.unquench q r) s = .next { s with d := s.d.endCmd (cmdKey q r) 0x0B 0 })) ∧
  (∀ q r c s, canStart s.d q r 0x4B c →
    let k := cmdKey q r
    let ch := s.d.regN (R.QE_FW_CHAN.at q) % 256
    let a := getBits (s.d.reg (R.QE_FW_BASE.at q)) 47 11 * 2048 + 64 * (k % 4096)
    let w := s.d.memIdle (wrReq (sliceMid q) 0 a 64 c.ent)
    let d1 := xMbxSptr (sliceMst q) q ch a w.1
    let d2 := xMbxSlt (sliceMst q) q ch ((k % 4096 + nget 0 d1.epochs k * 4096) * 2 ^ 32 + 64) d1
    (w.2.code ≠ .okay → exec (.fwCall q r) s = .next { s with d := w.1.endCmd k 0x03 0 }) ∧
    (w.2.code = .okay → d1.out.code ≠ .okay → exec (.fwCall q r) s = .next { s with d := d1.endCmd k 0x0A 0 }) ∧
    (w.2.code = .okay → d1.out.code = .okay → d2.out.code ≠ .okay →
      exec (.fwCall q r) s = .next { s with d := d2.endCmd k 0x0A 0 }) ∧
    (w.2.code = .okay → d1.out.code = .okay → d2.out.code = .okay →
      exec (.fwCall q r) s = .next { s with d := d2.waitFor k c .firmware })) ∧
  (∀ m q v s, m.oid = 0 →
    let k := cmdKey q (bitsOf v 59 48)
    let x := R.QE_FWDONE.at q
    let waits (c : Cmd) : Prop := sqOpc c.ent = 0x4B ∧ c.st = .running ∧ nget 0 s.d.epochs k = bitsOf v 63 60
    (0x0C < bitsOf v 47 40 → exec (.qeFwdone m q v) s = .next { s with d := s.d.refuseAs m x .reserved }) ∧
    (∀ c, bitsOf v 47 40 ≤ 0x0C → s.d.cmd k = some c → waits c →
      exec (.qeFwdone m q v) s = .next { s with d := (s.d.endCmd k (bitsOf v 47 40) (v % 2 ^ 32)).okay }) ∧
    (bitsOf v 47 40 ≤ 0x0C → (∀ c, s.d.cmd k = some c → ¬ waits c) →
      exec (.qeFwdone m q v) s = .next { s with d := (s.d.qeErr s.clk.tick q 4 0).refuse m x })) ∧
  (∀ t r s, s.d.sysHalt = false → s.d.tongue = t :: r →
    (∀ l, s.d.namedPairs t.arg = some l →
      (t.cmd = 1 → exec .tongueQuench s = .next { s with d := (s.d.quench s.clk.tick l (t.arg.testBit 28)).tongueDone 0 }) ∧
      (t.cmd = 2 → exec .tongueUnquench s = .next { s with d := (s.d.unquench l).tongueDone 0 })) ∧
    (s.d.namedPairs t.arg = none →
      (t.cmd = 1 → exec .tongueQuench s = .next { s with d := s.d.tongueDone 1 }) ∧
      (t.cmd = 2 → exec .tongueUnquench s = .next { s with d := s.d.tongueDone 1 })) ∧
    (t.cmd ≠ 1 → exec .tongueQuench s = .next s) ∧
    (t.cmd ≠ 2 → exec .tongueUnquench s = .next s) ∧
    (t.cmd ≠ 3 → exec .tongueStopSlot s = .next s) ∧
    (t.cmd = 3 →
      let sl := t.arg % 256
      let abort := t.arg.testBit 8
      let dA := s.d.stopAbort s.clk.tick sl .tadpole
      let dD := s.d.stopDrain s.clk.tick sl .tadpole
      let res (d : Dev) : Nat := if getBits (d.reg (slotReg sl .SLOT_STAT)) 27 24 = 0 then 0 else 2
      (t.begun = true → (s.d.ctl sl).abort = true → exec .tongueStopSlot s = .next s) ∧
      (t.begun = true → (s.d.ctl sl).abort = false → exec .tongueStopSlot s = .next { s with d := s.d.tongueDone 0 }) ∧
      (t.begun = false → s.d.hasAnchor sl = false → exec .tongueStopSlot s = .next { s with d := s.d.tongueDone 1 }) ∧
      (t.begun = false → s.d.hasAnchor sl = true → abort = false →
        exec .tongueStopSlot s = .next { s with d := dD.tongueDone (res dD) }) ∧
      (t.begun = false → s.d.hasAnchor sl = true → abort = true → (dA.ctl sl).abort = true →
        exec .tongueStopSlot s = .next { s with d := dA.setTongue ({ t with begun := true } :: r) }) ∧
      (t.begun = false → s.d.hasAnchor sl = true → abort = true → (dA.ctl sl).abort = false →
        exec .tongueStopSlot s = .next { s with d := dA.tongueDone (res dA) }))) ∧
  (∀ q r s,
    ((∀ c, ¬ canStart s.d q r 0x48 c) → exec (.quenchFinish q r) s = .next s ∧ exec (.quenchAbort q r) s = .next s) ∧
    ((∀ c, ¬ canStart s.d q r 0x49 c) → exec (.unquench q r) s = .next s) ∧
    ((∀ c, ¬ canStart s.d q r 0x4B c) → exec (.fwCall q r) s = .next s) ∧
    (s.d.sysHalt = true ∨ s.d.tongue = [] →
      exec .tongueQuench s = .next s ∧ exec .tongueUnquench s = .next s ∧ exec .tongueStopSlot s = .next s))

/-- Host links (13 R359, R363, R367, R370–R373, R378). A write of EN that passes the checks of R367 enables the link, which is in DETECT
with its admin pair assigned, one that fails is refused with its CFGERR, one of EN = 0 takes the link down with its loss recorded and
drops its admin pair; a receiver takes a link that may train to TRAINING, an agreed rate and width to UP; a link without a receiver for 1
s is ABSENT, one without L0 for 1 s is FAILED; a partner changes the width in flit mode; what the state of the link does not allow changes
nothing. The model's own choice is log entry 56. -/
def Obligations.HostLinks : Prop :=
  (∀ m L v s, m.oid = 0 →
    let st := linkReg L .HIF_LSTAT
    let x := linkReg L .HIF_LCTRL
    let e := s.d.linkCheck L
    let d1 := s.d.setReg st (putBits (s.d.reg st) 27 24 e)
    (v % 2 = 1 → s.d.linkEn L = false → e = 0 →
      exec (.hifLctrl m L v) s = .next { s with d := (((d1.setBit x 0 true).setLink L 1).assignAdmin L).okay }) ∧
    (v % 2 = 1 → s.d.linkEn L = false → e ≠ 0 → exec (.hifLctrl m L v) s = .next { s with d := d1.refuse m x }) ∧
    (v % 2 = 1 → s.d.linkEn L = true → exec (.hifLctrl m L v) s = .next { s with d := s.d.okay }) ∧
    (v % 2 = 0 → s.d.linkEn L = false → exec (.hifLctrl m L v) s = .next { s with d := s.d.okay }) ∧
    (v % 2 = 0 → s.d.linkEn L = true → getBits (s.d.reg st) 31 28 = 3 → exec (.hifLctrl m L v) s
      = .next { s with d := (((s.d.linkDown s.clk.tick L 0).dropAdmin L).setBit x 0 false).okay }) ∧
    (v % 2 = 0 → s.d.linkEn L = true → getBits (s.d.reg st) 31 28 ≠ 3 → exec (.hifLctrl m L v) s
      = .next { s with d := (((s.d.setLink L 0).dropAdmin L).setBit x 0 false).okay })) ∧
  (∀ L s,
    let may := s.d.mayTrain L = true
    let st := s.d.linkState L
    (may → st = 1 ∨ st = 4 → exec (.receiverDetected L) s = .next { s with d := s.d.setLink L 2 }) ∧
    (¬ (may ∧ (st = 1 ∨ st = 4)) → exec (.receiverDetected L) s = .next s) ∧
    (may → st = 1 →
      exec (.absent L) s = .next { s with d := ((s.d.setLink L 4).linkRaise L).linkLog s.clk.tick L 4 }) ∧
    (¬ (may ∧ st = 1) → exec (.absent L) s = .next s) ∧
    (may → st = 2 →
      exec (.trainFail L) s = .next { s with d := ((s.d.setLink L 5).linkRaise L).linkLog s.clk.tick L 5 }) ∧
    (¬ (may ∧ st = 2) → exec (.trainFail L) s = .next s)) ∧
  (∀ L speed width flit s,
    let agreed := s.d.mayTrain L = true ∧ (s.d.linkState L = 2 ∨ s.d.linkState L = 5) ∧ width ∈ [1, 2, 4, 8, 16] ∧
      width ≤ s.d.linkWidth L ∧ 0 < speed ∧ speed ≤ 7 ∧ speed ≤ s.d.fld F.HIF_LCFG_MAXSPEED (L / 8) (L % 8) ∧
      (speed < 6 ∨ flit = true)
    let x := linkReg L .HIF_LSTAT
    let d1 := s.d.setLink L 3
    let d2 := d1.setFld F.CAL_HLINK_TTEMP (d1.fld F.PWR_TQ_TQ (L / 8)) (L / 8) (L % 8)
    let w := putBits (putBits (putBits (putBits (d2.reg x) 23 20 speed) 19 15 width) 14 14 (if flit then 1 else 0)) 13 9 width
    (agreed → exec (.linkUp L speed width flit) s = .next { s with d := (d2.setReg x w).linkRaise L }) ∧
    (¬ agreed → exec (.linkUp L speed width flit) s = .next s)) ∧
  (∀ L w s,
    let x := linkReg L .HIF_LSTAT
    let agreed := s.d.linkState L = 3 ∧ (s.d.reg x).getLsbD 14 = true ∧ w ∈ [1, 2, 4, 8, 16] ∧ w ≤ getBits (s.d.reg x) 19 15
    (agreed → exec (.l0pWidthChange L w) s = .next { s with d := s.d.setReg x (putBits (s.d.reg x) 13 9 w) }) ∧
    (¬ agreed → exec (.l0pWidthChange L w) s = .next s))

/-- Losses and resets from the host (13 R363, R373–R375, R379). A link lost or hot-reset while UP leaves UP, its reads of host memory end
HOST_TO, it is recorded and counted and has its functions reset; HOST_PERST_N holds and frees the links of its port; a function-level
reset resets a PF with its VFs, or one VF unless its PF's runs; VFs that NumVFs no longer covers are reset; a function's reset ends when
it completes; a function that the host does not reach, or that answers with retry status, is not reset. The model's own choices are log
entries 53, 54. -/
def Obligations.HostResets : Prop :=
  (∀ L vps s,
    let d1 := (vps.filter (fun v => s.d.hostJobOn L v)).foldl (fun x v => x.jobError s.clk.tick v 4 0) s.d
    (s.d.linkState L = 3 →
      exec (.linkLoss L vps) s = .next { s with d := d1.linkDown s.clk.tick L 1 } ∧
      exec (.hotReset L) s = .next { s with d := s.d.linkDown s.clk.tick L 1 }) ∧
    (s.d.linkState L ≠ 3 → exec (.linkLoss L vps) s = .next s ∧ exec (.hotReset L) s = .next s)) ∧
  (∀ p s,
    let d1 : Dev := { s.d with perst := nset false s.d.perst p false }
    (nget false s.d.perst p = true → exec (.hostPerstNAssert p) s
      = .next { s with d := (upTo 4).foldl (fun x j => x.perstLink s.clk.tick (4 * p + j)) d1 }) ∧
    (nget false s.d.perst p = false → exec (.hostPerstNAssert p) s = .next s) ∧
    (p < 8 → exec (.hostPerstNRelease p) s = .next { s with d := { s.d with perst := nset false s.d.perst p true } }) ∧
    (8 ≤ p → exec (.hostPerstNRelease p) s = .next s)) ∧
  (∀ L s,
    let taken := L < 32 ∧ s.d.linkState L = 3 ∧ s.d.cfgTaken L = true
    (taken → exec (.flrPf L) s = .next { s with d := s.d.resetFns s.clk.tick L (s.d.liveFns L) }) ∧
    (¬ taken → exec (.flrPf L) s = .next s)) ∧
  (∀ oid s,
    (∀ L, s.d.linkOf oid = some L →
      let taken := 32 ≤ oid ∧ s.d.linkState L = 3 ∧ oid ∈ s.d.liveFns L ∧ (s.d.fn L).reset = false ∧ s.d.cfgTaken oid = true
      (taken → exec (.flrVf oid) s = .next { s with d := s.d.resetFns s.clk.tick L [oid] }) ∧
      (¬ taken → exec (.flrVf oid) s = .next s)) ∧
    (s.d.linkOf oid = none → exec (.flrVf oid) s = .next s)) ∧
  (∀ L n s,
    let taken := L < 32 ∧ s.d.linkState L = 3 ∧ (s.d.fn L).vfEn = true ∧ n ≤ (s.d.fn L).numVfs ∧ s.d.cfgTaken L = true
    (taken → exec (.vfEnableCleared L n) s = .next { s with d := s.d.setVfs s.clk.tick L (decide (0 < n)) n }) ∧
    (¬ taken → exec (.vfEnableCleared L n) s = .next s)) ∧
  (∀ oid s,
    ((s.d.fn oid).reset = true →
      exec (.functionResetComplete oid) s = .next { s with d := s.d.setFn oid { s.d.fn oid with reset := false } }) ∧
    ((s.d.fn oid).reset = false → exec (.functionResetComplete oid) s = .next s))

/-- Functions (13 R361–R363, R365, R368, R371, R374–R377). A function that the host reaches enters D3hot and returns; a configuration
request is answered with retry status until CONF_DONE and while its reset runs, and performed otherwise: it writes Command, MSI-X control,
VF Enable with NumVFs, Device Control, the completion timeout, the AER status and the BARs, and it reads what the spec fixes of a dword of
the header or of a capability, a capability that HOST-2 leaves out being absent; a host completion moves its element, or ends the job as
one that timed out, poisoned or failed does, whatever the function may issue by then. What PCIe fixes and the spec does not is free, log
entries 55 and 139. -/
def Obligations.HostFunctions : Prop :=
  (∀ oid s,
    let taken := s.d.fnReached oid = true ∧ s.d.cfgTaken oid = true
    (taken →
      exec (.d3hotEntry oid) s = .next { s with d := s.d.setFn oid { s.d.fn oid with d3 := true } } ∧
      exec (.d0Return oid) s = .next { s with d := s.d.setFn oid { s.d.fn oid with d3 := false } }) ∧
    (¬ taken → exec (.d3hotEntry oid) s = .next s ∧ exec (.d0Return oid) s = .next s)) ∧
  (∀ oid op s, s.d.sysHalt = false →
    (s.d.linkOf oid = none ∨ s.d.fnReached oid = false → exec (.configurationRequest oid op) s = .next s) ∧
    (∀ L, s.d.linkOf oid = some L → s.d.fnReached oid = true → s.d.cfgTaken oid = false →
      exec (.configurationRequest oid op) s = .next { s with d := s.d.send (.cfg oid true 0) })) ∧
  (∀ oid L s, s.d.sysHalt = false → s.d.linkOf oid = some L → s.d.fnReached oid = true → s.d.cfgTaken oid = true →
    let f := s.d.fn oid
    let done (d : Dev) : State := { s with d := d.send (.cfg oid false 0) }
    let read (p : Nat × Nat) : State :=
      let r := s.d.cfgValue p
      { s with d := r.2.send (.cfg oid false r.1) }
    (∀ b e, exec (.configurationRequest oid (.command b e)) s = .next (done (s.d.setFn oid { f with bme := b, mse := e }))) ∧
    (∀ b e, exec (.configurationRequest oid (.msix b e)) s
      = .next (done ((s.d.setFn oid { f with msixEn := b, msixMask := e }).msixUnmask oid))) ∧
    (∀ b n, oid < 32 → exec (.configurationRequest oid (.sriov b n)) s = .next (done (s.d.setVfs s.clk.tick oid b n))) ∧
    (∀ b n, 32 ≤ oid → exec (.configurationRequest oid (.sriov b n)) s = .next (done s.d)) ∧
    (∀ a b, exec (.configurationRequest oid (.devctl a b)) s = .next (done (s.d.setFn oid { f with mps := a, mrrs := b }))) ∧
    (∀ a, exec (.configurationRequest oid (.devctl2 a)) s = .next (done (s.d.setFn oid { f with cto := a }))) ∧
    (∀ a, exec (.configurationRequest oid (.aer a)) s
      = .next (done (s.d.setFn oid { f with unc := f.unc &&& (2 ^ 32 - 1 - a % 2 ^ 32) }))) ∧
    (∀ n v, oid < 32 → exec (.configurationRequest oid (.bar n v)) s = .next (done (s.d.setFn oid (f.setBar n v)))) ∧
    (∀ n v, 32 ≤ oid → exec (.configurationRequest oid (.bar n v)) s = .next (done s.d)) ∧
    (∀ n v, exec (.configurationRequest oid (.other n v)) s = .next (done s.d)) ∧
    (∀ n, exec (.configurationRequest oid (.read n)) s = .next (read (s.d.headWord L oid n))) ∧
    (∀ x id n,
      let absent := capLeftOut x id = true ∨ (x = true ∧ id = 0x10 ∧ 32 ≤ oid)
      (absent → exec (.configurationRequest oid (.cap x id n)) s = .next { s with d := s.d.send (.cfgAbsent oid id) }) ∧
      (¬ absent → exec (.configurationRequest oid (.cap x id n)) s = .next (read (s.d.capWord L oid x id n))))) ∧
  (∀ vp r s, s.d.sysHalt = false → s.d.hostRead vp = true → (s.d.engine vp).run = some r →
    let oid := bitsOf (s.d.jattr vp r.j).toNat 21 11
    let a := segAddr r.segs r.moved
    let sent := s.d.wired vp || s.d.fnIssues oid
    let due := r.moved < s.d.regN (senReg vp .JLEN r.j) ∧ s.d.vpBound vp = true ∧ s.d.vpLevel vp < 512
    let d0 := if !s.d.wired vp && s.d.fnIssues oid then s.d.send (.hostRead oid a 8) else s.d
    let d1 (ans : HostAns) : Dev := d0.hostErr oid ans sent
    (∀ w, due → sent = true → exec (.hostCompletion vp (.data w)) s
      = .next { s with d := ((d1 (.data w)).setFifo vp ((d1 (.data w)).fifo vp ++ [.word (BitVec.ofNat 64 w)])).advance vp r }) ∧
    (∀ ans, due → hostCode sent ans ≠ 0 → exec (.hostCompletion vp ans) s
      = .next { s with d := (d1 ans).jobError s.clk.tick vp (hostCode sent ans) a }) ∧
    (due → sent = true →
      exec (.completionTimeout vp) s = .next { s with d := (d1 .timeout).jobError s.clk.tick vp 4 a }) ∧
    (due → sent = false →
      exec (.completionTimeout vp) s = .next { s with d := (d1 .timeout).jobError s.clk.tick vp 5 a }) ∧
    (¬ due → exec (.completionTimeout vp) s = .next s ∧ ∀ ans, exec (.hostCompletion vp ans) s = .next s)) ∧
  (∀ vp ans s, s.d.hostRead vp = false →
    exec (.hostCompletion vp ans) s = .next s ∧ exec (.completionTimeout vp) s = .next s)

/-- The read-voltage tracker (17 R491, R492, R496). READ shows an entry in CAL_EDATA, WRITE makes the entry CAL_EDATA with a new VER and,
where asked, a new time stamp, INVALIDATE clears VALID, FLUSH writes every changed entry back, and each reports its RESULT: DONE, an entry
out of range, a failed read, a tracker that is off; a changed entry is written back; the walk marks a valid entry past its age COLD. A
code other than the command's changes nothing. The model's own choice is log entry 58. -/
def Obligations.TrackerEntries : Prop :=
  (∀ m q v s, m.oid = 0 →
    let e := bitsOf v 18 0
    let cmd := bitsOf v 63 60
    let g := s.d.calGet q e
    let d1 := g.1
    let res (n : Nat) : State := { s with d := s.d.calDone q n }
    let run := e < calEntries ∧ s.d.calEn q = true
    let data := (upTo 4).foldl (fun a w => a + d1.regN (R.CAL_EDATA.at q w) * 2 ^ (64 * w)) 0
    let next (old n : Nat) : Nat := calSetByte n 18 ((calVer old + 1) % 128)
    (∀ old, run → g.2 = some old →
      (cmd = 1 → exec (.calRead m q v) s
        = .next { s with
            d := ((upTo 4).foldl (fun y w => y.setRegN (R.CAL_EDATA.at q w) (bitsOf old (64 * w + 63) (64 * w))) d1).calDone q 1 }) ∧
      (cmd = 2 → v.testBit 56 = false →
        exec (.calWrite m q v) s = .next { s with d := (d1.calPut q e (next old data)).calDone q 1 }) ∧
      (cmd = 2 → v.testBit 56 = true → exec (.calWrite m q v) s = .next { s with
        d := (d1.calPut q e (calStamp (next old data) (d1.calTemp q (calChan e)) s.clk.tick)).calDone q 1 }) ∧
      (cmd = 3 →
        exec (.calInvalidate m q v) s = .next { s with d := (d1.calPut q e (next old (setBitsN old 136 136 0))).calDone q 1 })) ∧
    (run → g.2 = none →
      (cmd = 1 → exec (.calRead m q v) s = .next { s with d := d1.calDone q 3 }) ∧
      (cmd = 2 → exec (.calWrite m q v) s = .next { s with d := d1.calDone q 3 }) ∧
      (cmd = 3 → exec (.calInvalidate m q v) s = .next { s with d := d1.calDone q 3 })) ∧
    (calEntries ≤ e →
      (cmd = 1 → exec (.calRead m q v) s = .next (res 2)) ∧ (cmd = 2 → exec (.calWrite m q v) s = .next (res 2)) ∧
      (cmd = 3 → exec (.calInvalidate m q v) s = .next (res 2))) ∧
    (e < calEntries → s.d.calEn q = false →
      (cmd = 1 → exec (.calRead m q v) s = .next (res 4)) ∧ (cmd = 2 → exec (.calWrite m q v) s = .next (res 4)) ∧
      (cmd = 3 → exec (.calInvalidate m q v) s = .next (res 4))) ∧
    (cmd = 4 →
      ((s.d.calFlush q).2 = true → exec (.calFlush m q v) s = .next { s with d := (s.d.calFlush q).1.calDone q 1 }) ∧
      ((s.d.calFlush q).2 = false → exec (.calFlush m q v) s = .next { s with d := (s.d.calFlush q).1.calDone q 3 })) ∧
    (cmd ≠ 1 → exec (.calRead m q v) s = .next s) ∧ (cmd ≠ 2 → exec (.calWrite m q v) s = .next s) ∧
    (cmd ≠ 3 → exec (.calInvalidate m q v) s = .next s) ∧ (cmd ≠ 4 → exec (.calFlush m q v) s = .next s)) ∧
  (∀ q e s, s.d.sysHalt = false →
    (∀ l, s.d.calLine q e = some l → l.dirty = true → exec (.cacheWriteback q e) s
      = .next { s with d := (s.d.calMemWrite q e l.bytes).1.setCal q e (some { l with dirty := false }) }) ∧
    (∀ l, s.d.calLine q e = some l → l.dirty = false → exec (.cacheWriteback q e) s = .next s) ∧
    (s.d.calLine q e = none → exec (.cacheWriteback q e) s = .next s)) ∧
  (∀ q e s, s.d.sysHalt = false →
    let walks := (s.d.reg (R.CAL_CTRL.at q)).getLsbD 1 = true ∧ s.d.regN (R.CAL_TBASE.at q) ≠ 0 ∧ e < calEntries
    let g := s.d.calGet q e
    (∀ v, walks → g.2 = some v →
      let age := (timeUnits s.clk.tick + 2 ^ 32 - calTime v) % 2 ^ 32
      let old := calValid v = true ∧ s.d.fld F.CAL_PASTALE_ASTALE q (s.d.calProfile q (calChan e)) < age
      (old → exec (.calWalk q e) s = .next { s with d := g.1.calPut q e (setBitsN v 137 137 1) }) ∧
      (¬ old → exec (.calWalk q e) s = .next { s with d := g.1 })) ∧
    (walks → g.2 = none → exec (.calWalk q e) s = .next { s with d := g.1 }) ∧
    (¬ walks → exec (.calWalk q e) s = .next s))

/-- Flip rings, the retrain check and the tracker's control (17 R485, R495, R496). A slot whose sequence is the next is taken, moves the
read pointer and reaches the tracker, one ahead is taken with the lost ones counted, one behind or torn leaves the ring where it is; lanes
and links are examined with the margins measured; CAL_CTRL and CAL_FRBASE are held, EN = 0 writes the cache back and empties it, and each
is refused where its rule or the LOCK bit says so. The model's own choices are log entries 58, 59. -/
def Obligations.TrackerControl : Prop :=
  (∀ q ring s, s.d.sysHalt = false →
    let base := getBits (s.d.reg (R.CAL_FRBASE.at q ring)) 47 12 * 4096
    let rp := s.d.regN (R.CAL_FRRP.at q ring)
    let want := s.d.regN (R.CAL_FRSEQ.at q ring)
    let n := 2 ^ (s.d.regN (R.CAL_FRSIZE.at q ring) % 32)
    let on := s.d.calEn q = true ∧ base ≠ 0
    let w := s.d.hbm (rdReq (calMid q) 0 (base + 64 * rp) 64) false .none
    let rcd := leNat w.2.data
    let seq := frField rcd 56 4
    let ahead := (seq + 2 ^ 32 - want) % 2 ^ 32
    let whole := frField rcd 60 4 + seq = 2 ^ 32 - 1
    let take (d : Dev) : Dev :=
      ((d.setRegN (R.CAL_FRRP.at q ring) ((rp + 1) % n)).setRegN (R.CAL_FRSEQ.at q ring) ((seq + 1) % 2 ^ 32)).frTake rcd s.clk.tick
    (on → w.2.code = .okay → whole → ahead = 0 → exec (.flipRecord q ring) s = .next { s with d := take w.1 }) ∧
    (on → w.2.code = .okay → whole → 0 < ahead → ahead < 2 ^ 31 → exec (.flipRecord q ring) s = .next { s with
      d := take (w.1.setRegN (R.CAL_LOST.at q) (satAdd (w.1.regN (R.CAL_LOST.at q)) ahead 0xFFFFFFFF)) }) ∧
    (on → w.2.code = .okay → ¬ whole ∨ 2 ^ 31 ≤ ahead → exec (.flipRecord q ring) s = .next { s with d := w.1 }) ∧
    (on → w.2.code ≠ .okay → exec (.flipRecord q ring) s = .next { s with d := w.1 }) ∧
    (¬ on → exec (.flipRecord q ring) s = .next s)) ∧
  (∀ q margins s, s.d.sysHalt = false →
    let d1 := (upTo 16).foldl (fun x l => x.rtLane q l (margins.getD l (255, 255))) s.d
    exec (.retrainCheck q margins) s
      = .next { s with d := (upTo 8).foldl (fun x l => x.rtLink q l (margins.getD (16 + l) (255, 255))) d1 }) ∧
  (∀ m q v s, m.oid = 0 →
    let x := R.CAL_CTRL.at q
    let ends := s.d.calEn q = true ∧ v.testBit 0 = false
    let bare := v.testBit 0 = true ∧ s.d.regN (R.CAL_TBASE.at q) = 0
    let w := (s.d.calFlush q).1
    let d1 : Dev := { w with calTab := ndrop w.calTab (fun n => decide (n / calEntries = q)) }
    (s.d.locked .CAL q = true → exec (.calCtrl m q v) s = .next { s with d := s.d.refuseAs m x .locked }) ∧
    (s.d.locked .CAL q = false →
      (bare → exec (.calCtrl m q v) s = .next { s with d := s.d.refuse m x }) ∧
      (ends → exec (.calCtrl m q v) s = .next { s with d := ((d1.setFld F.CAL_STAT_DIRTY 0 q).setRegN x (v % 4)).okay }) ∧
      (¬ bare → ¬ ends → exec (.calCtrl m q v) s = .next { s with d := (s.d.setRegN x (v % 4)).okay }))) ∧
  (∀ m q r v s, m.oid = 0 →
    let x := R.CAL_FRBASE.at q r
    let d1 := s.d.setRegN x (v &&& 0xFFFFFFFFF000)
    (s.d.locked .CAL q = true → exec (.calFrbase m q r v) s = .next { s with d := s.d.refuseAs m x .locked }) ∧
    (s.d.locked .CAL q = false → s.d.calEn q = true → exec (.calFrbase m q r v) s = .next { s with d := s.d.refuse m x }) ∧
    (s.d.locked .CAL q = false → s.d.calEn q = false → exec (.calFrbase m q r v) s
      = .next { s with d := ((d1.setRegN (R.CAL_FRRP.at q r) 0).setRegN (R.CAL_FRSEQ.at q r) 0).okay }))

/-- Posting and running op lists (15 R425–R427, R429, R435, R436, R464). A core's post to an enabled channel joins its queue, beyond 32
without its acknowledgement, another is refused; a list that is read waits with its micro-ops, one that fails the checks of R426 or cannot
be read with its fault; the first list that may start takes the first free context; a free bus goes to the next context that needs it; END
ends a list once its flits are answered; an ended list writes its record to the ring of its group, or waits while that is full, which is
counted once. The model's own choices are log entries 60, 61. -/
def Obligations.MediaLists : Prop :=
  (∀ m ch v s, m.oid = 0 →
    let x := mReg ch .MSQ_POST
    let core := m.mid < 0x40 ∨ m.mid = 0x4C0
    let good := bitsOf v 51 48 = 0 ∧ v % 16 = 0 ∧ 0 < bitsOf v 63 52 ∧ bitsOf v 63 52 ≤ 256
    let d1 := s.d.addPost ch (bitsOf v 47 4 * 16) (bitsOf v 63 52) none
    (¬ core → exec (.msqPost m ch v) s = .next { s with d := s.d.refuseSource m x }) ∧
    (core → s.d.chEn ch = false → exec (.msqPost m ch v) s = .next { s with d := s.d.refuse m x }) ∧
    (core → s.d.chEn ch = true → ¬ good → exec (.msqPost m ch v) s = .next { s with d := s.d.refuseAs m x .reserved }) ∧
    (core → s.d.chEn ch = true → good → (s.d.mchan ch).posts.length < 32 →
      exec (.msqPost m ch v) s = .next { s with d := d1.okay }) ∧
    (core → s.d.chEn ch = true → good → 32 ≤ (s.d.mchan ch).posts.length →
      exec (.msqPost m ch v) s = .next { s with d := d1 })) ∧
  (∀ ch e s, s.d.sysHalt = false →
    let posts := (s.d.mchan ch).posts
    (∀ p, posts.find? (fun p => !p.fetched) = some p →
      let r := s.d.readOps (mMid ch) p.addr e p.count
      let n := (posts.takeWhile (fun x => x.fetched)).length
      let put (p1 : MPost) : State :=
        { s with d := r.1.setMchan ch { r.1.mchan ch with posts := posts.take n ++ p1 :: posts.drop (n + 1) } }
      let check (ops : List Nat) : Option Nat := listFault (decide (64 ≤ ch)) (chbufSize ch) (s.d.chcfg ch 18 15) ops
      (r.2 = none → exec (.listFetch ch e) s = .next (put { p with fetched := true, bad := 5 })) ∧
      (∀ ops, r.2 = some ops → check ops = none →
        exec (.listFetch ch e) s = .next (put { p with fetched := true, ops := ops })) ∧
      (∀ ops i, r.2 = some ops → check ops = some i →
        exec (.listFetch ch e) s = .next (put { p with fetched := true, ops := ops, bad := 1, badAt := i }))) ∧
    (posts.find? (fun p => !p.fetched) = none → exec (.listFetch ch e) s = .next s)) ∧
  (∀ ch s, s.d.sysHalt = false →
    let c := s.d.mchan ch
    let ready := (upTo c.posts.length).find? (fun i => s.d.postReady ch i)
    let room := (upTo 8).find? (fun x => (s.d.mctx ch x).isNone)
    (∀ i x p, ready = some i → room = some x → c.posts[i]? = some p →
      let y : MCtx :=
        { ops := p.ops, cmd := p.cmd, pc := 0, n := 0, sr := 0, st := .need, status := 0, result := 0, tick := 0, stop := false,
          meas := none, dsh := none, look := none, pclass := 0, zc0 := 0, zc1 := 0, feat := 0, stage := 0, polled := false,
          grp := [], conf := false, rhold := false }
      let d1 := (s.d.setMchan ch { c with posts := c.posts.take i ++ c.posts.drop (i + 1) }).setMctx ch x (some y)
      let d2 := if 32 < c.posts.length then d1.okay else d1
      (p.bad = 0 → exec (.listStart ch) s = .next { s with d := d2 }) ∧
      (p.bad ≠ 0 → exec (.listStart ch) s = .next { s with d := d2.endCtx s.clk.tick ch x p.bad p.badAt })) ∧
    (ready = none ∨ room = none → exec (.listStart ch) s = .next s)) ∧
  (∀ ch s, s.d.sysHalt = false →
    let c := s.d.mchan ch
    let held := ∃ n z, (n, some z) ∈ c.ctxs ∧ z.st = .hold
    let wants (x : Nat) : Bool := (s.d.mctx ch x).any (fun y => y.wantsBus)
    let next := ((upTo 8).map (fun i => (c.last + 1 + i) % 8)).find? wants
    (∀ x y, ¬ held → s.d.training ch = false → next = some x → s.d.mctx ch x = some y → exec (.busGrant ch) s
      = .next { s with d := (s.d.setMchan ch { c with last := x }).setMctx ch x (some { y with st := .hold }) }) ∧
    (held ∨ s.d.training ch = true ∨ next = none → exec (.busGrant ch) s = .next s)) ∧
  (∀ ch x s,
    (∀ c, atOp s.d ch x 0x00 c →
      let f := s.d.flush ch x c
      (f.1.tetBusy ch x = false →
        exec (.listEnd ch x) s = .next { s with d := f.1.endCtx s.clk.tick ch x (opByte c.op 2) (bitsOf c.op 63 32) }) ∧
      (f.1.tetBusy ch x = true → exec (.listEnd ch x) s = .next { s with d := f.1.setMctx ch x (some { f.2 with st := .need }) })) ∧
    ((∀ c, ¬ atOp s.d ch x 0x00 c) → exec (.listEnd ch x) s = .next s)) ∧
  (∀ ch x s, s.d.sysHalt = false →
    (∀ c, s.d.mctx ch x = some c →
      let q := (mediaPlace ch).1
      let j := mGroup ch
      let wp := s.d.fld F.MSQ_RWP_WP q j
      let ph := s.d.fld F.MSQ_RWP_PH q j
      let nx := (wp + 1) % s.d.mRing q j
      let t := s.d.ctxTag c
      let w := (t.2.hbm (wrReq (mMid ch) 0 (s.d.fld F.MSQ_RBASE_BASE q j * 4096 + 32 * wp) 32 (mRecord ch ph t.1 c)) false .none).1
      let d1 := (w.setRegN (R.MSQ_RWP.at q j) ((if nx = 0 then 1 - ph else ph) * 65536 + nx)).setMctx ch x none
      let full := nx = s.d.fld F.MSQ_RRP_RP q j
      (c.st = .ended → ¬ full → exec (.completionRecord ch x) s
        = .next { s with d := (d1.ringLevel q j).raise q (0x240 + (mediaPlace ch).2) }) ∧
      (c.st = .ended → full → c.rhold = false → exec (.completionRecord ch x) s
        = .next { s with d := (s.d.setMctx ch x (some { c with rhold := true })).bump (R.MSQ_RHOLD.at q j) }) ∧
      (c.st = .ended → full → c.rhold = true → exec (.completionRecord ch x) s = .next s) ∧
      (c.st ≠ .ended → exec (.completionRecord ch x) s = .next s)) ∧
    (s.d.mctx ch x = none → exec (.completionRecord ch x) s = .next s))

/-- Micro-ops of a channel (15 R416, R423, R428, R429, R432; 16 R462, R464, R472; MED-2). HDR passes; CMD, ADDR and DOUT drive their
cycles on the pins of a local channel or into the group of a tether channel, a confirm only for an open operation of its kind with the PF
latch clear and WPN 1; DIN fills the channel buffer, from a tether bridge later; an uncorrectable word of the buffer stops DOUT and ends
the list; DELAY gives up the bus until its time has passed; BRSTAT jumps where SR shows the value; a bus cycle on a lane that is not UP
ends the list with status 7. In any other state of the context the micro-op is not run. -/
def Obligations.MicroOps : Prop :=
  (∀ ch x s,
    let tick := s.clk.tick
    (∀ c, atOp s.d ch x 0x01 c → exec (.hdr ch x) s = .next { s with d := s.d.mput tick ch x c.next }) ∧
    ((∀ c, ¬ atOp s.d ch x 0x01 c) → exec (.hdr ch x) s = .next s) ∧
    (∀ c, atOp s.d ch x 0x07 c →
      let f := s.d.flush ch x c
      exec (.delay ch x) s = .next { s with d := f.1.setMctx ch x (some { f.2 with st := .delay }) }) ∧
    ((∀ c, ¬ atOp s.d ch x 0x07 c) → exec (.delay ch x) s = .next s) ∧
    (∀ c, s.d.sysHalt = false → s.d.mctx ch x = some c → c.st = .delay →
      exec (.delayExpiry ch x) s = .next { s with d := s.d.mput tick ch x { c.next with st := .need } }) ∧
    ((∀ c, s.d.mctx ch x = some c → c.st ≠ .delay) → exec (.delayExpiry ch x) s = .next s) ∧
    (∀ c, atOp s.d ch x 0x09 c →
      let hit := (c.sr &&& opByte c.op 2 = opByte c.op 3) ↔ c.op.testBit 8 = false
      (hit → exec (.brstat ch x) s = .next { s with d := s.d.mput tick ch x { c.next with pc := bitsOf c.op 47 32 } }) ∧
      (¬ hit → exec (.brstat ch x) s = .next { s with d := s.d.mput tick ch x c.next })) ∧
    ((∀ c, ¬ atOp s.d ch x 0x09 c) → exec (.brstat ch x) s = .next s)) ∧
  (∀ ch x s,
    let tick := s.clk.tick
    (∀ c, onBus s.d ch x 0x02 false c →
      let b := opByte c.op 2
      let isP := s.d.isConfirm ch b false = true
      let isE := s.d.isConfirm ch b true = true
      let w := s.d.lunop ch c.u
      let t := getBits w 60 59
      let open' := w.getLsbD 63 = true ∧ w.getLsbD 62 = false ∧ c.conf = false ∧ ((isP ∧ t = 1) ∨ (isE ∧ t = 2))
      let wpn := s.d.flag F.MSQ_CHCTRL_WPN (mediaPlace ch).1 (mediaPlace ch).2 = true
      let p (k : Nat) := s.d.drive ch c (recCmd b) k
      let last (st : Nat) : State := { s with d := s.d.endCtx tick ch x st c.pc }
      (¬ isP → ¬ isE → exec (.cmd ch x) s = .next { s with d := (p 0).1.mput tick ch x (p 0).2.next }) ∧
      (isP ∨ isE → ¬ open' → exec (.cmd ch x) s = .next (last 4)) ∧
      (isP ∨ isE → open' → s.d.pfSet = true → exec (.cmd ch x) s = .next (last 9)) ∧
      (isP ∨ isE → open' → s.d.pfSet = false → ¬ wpn → exec (.cmd ch x) s = .next (last 0x0A)) ∧
      (isP ∨ isE → open' → s.d.pfSet = false → wpn → ch < 64 →
        exec (.cmd ch x) s = .next { s with d := ((p 1).1.confirm tick ch c.u).mput tick ch x (p 1).2.next }) ∧
      (isP ∨ isE → open' → s.d.pfSet = false → wpn → 64 ≤ ch →
        exec (.cmd ch x) s = .next { s with d := (p 1).1.mput tick ch x { (p 1).2.next with conf := true } })) ∧
    (∀ c, onBus s.d ch x 0x03 false c →
      let p := s.d.drive ch c (recAddr (opByte c.op 2) (bitsOf c.op 95 32)) 0
      exec (.addr ch x) s = .next { s with d := p.1.mput tick ch x p.2.next }) ∧
    (∀ c n, onBus s.d ch x 0x04 false c →
      let off := bitsOf c.op 63 32
      let len := bitsOf c.op 95 64
      let d1 := s.d.chbufCe ch n
      let data (m : Nat) : List Byte := d1.chbufBytes (ch * 0x40000 + off) m
      (∀ ue, 64 ≤ ch →
        let p := s.d.drive ch c (recDout len) off
        exec (.dout ch x ue n) s = .next { s with d := p.1.mput tick ch x p.2.next }) ∧
      (ch < 64 →
        let p := d1.drive ch c (recDout len) off (data len)
        exec (.dout ch x none n) s = .next { s with d := p.1.mput tick ch x p.2.next }) ∧
      (∀ u, ch < 64 →
        let m := Nat.min u len
        exec (.dout ch x (some u) n) s
          = .next { s with d := (d1.drive ch c (recDout m) off (data m)).1.endCtx tick ch x 6 c.pc })) ∧
    (∀ c data, onBus s.d ch x 0x05 false c →
      let off := bitsOf c.op 63 32
      let len := bitsOf c.op 95 64
      let p := s.d.drive ch c (recDin len) off
      (64 ≤ ch → exec (.din ch x data) s = .next { s with d := p.1.mput tick ch x p.2.next }) ∧
      (ch < 64 → data.length = len → exec (.din ch x data) s
        = .next { s with d := (p.1.setChbuf (ch * 0x40000 + off) data).mput tick ch x p.2.next }) ∧
      (ch < 64 → data.length ≠ len → exec (.din ch x data) s = .next s))) ∧
  (∀ ch x ue n data s,
    let lost (c : MCtx) : State := { s with d := s.d.endCtx s.clk.tick ch x 7 c.pc }
    (∀ c, onBus s.d ch x 0x02 true c → exec (.cmd ch x) s = .next (lost c)) ∧
    (∀ c, onBus s.d ch x 0x03 true c → exec (.addr ch x) s = .next (lost c)) ∧
    (∀ c, onBus s.d ch x 0x04 true c → exec (.dout ch x ue n) s = .next (lost c)) ∧
    (∀ c, onBus s.d ch x 0x05 true c → exec (.din ch x data) s = .next (lost c)) ∧
    ((∀ b c, ¬ onBus s.d ch x 0x02 b c) → exec (.cmd ch x) s = .next s) ∧
    ((∀ b c, ¬ onBus s.d ch x 0x03 b c) → exec (.addr ch x) s = .next s) ∧
    ((∀ b c, ¬ onBus s.d ch x 0x04 b c) → exec (.dout ch x ue n) s = .next s) ∧
    ((∀ b c, ¬ onBus s.d ch x 0x05 b c) → exec (.din ch x data) s = .next s))

/-- Waits and composite micro-ops of a channel (15 R428–R431, R434, R444; 16 R462–R464, R472; 17 R481–R483). WAITRB gives up the bus and
polls; a ready status ends the wait, with CLOSE the operation too, an outlasted one ends the list with status 2; FEATURE drives its access
and GET fills FEAT; a lookup answers the OFFSETS micro-op, which then drives its access; PROBE counts zeros and sets PCLASS, and ends the
list on a LUN with an open operation. On a local channel a composite micro-op runs whole, on a tether channel group by group. The model's
own choice is log entry 62. -/
def Obligations.MicroWaits : Prop :=
  (∀ ch x sr s,
    let tick := s.clk.tick
    (∀ c, atOp s.d ch x 0x06 c →
      let f := s.d.flush ch x c
      exec (.waitrb ch x sr) s = .next { s with d := f.1.setMctx ch x (some { f.2 with st := .waitrb, polled := false }) }) ∧
    (∀ c, s.d.sysHalt = false → s.d.mctx ch x = some c → c.op % 256 = 0x06 → c.st = .waitrb →
      let mode := opByte c.op 2
      let row := bitsOf c.op 95 64
      let due := ¬ (mode = 0 ∧ c.polled = true)
      let held := s.d.tetBusy ch x = true ∨ (mode = 0 ∧ s.d.rbHigh ch c = false)
      (due → ch < 64 →
        let d1 := s.d.send (.nand ch c.ce (s.d.pollRec ch mode row) [])
        exec (.waitrb ch x sr) s = .next { s with d := d1.setMctx ch x (some { c with sr := sr % 256, polled := true }) }) ∧
      (due → 64 ≤ ch → s.d.linkBad ch c = true →
        exec (.waitrb ch x sr) s = .next { s with d := s.d.endCtx tick ch x 7 c.pc }) ∧
      (due → 64 ≤ ch → s.d.linkBad ch c = false → ¬ held →
        exec (.waitrb ch x sr) s = .next { s with d := s.d.poll ch x c mode row }) ∧
      (due → 64 ≤ ch → s.d.linkBad ch c = false → held → exec (.waitrb ch x sr) s = .next s) ∧
      (¬ due → exec (.waitrb ch x sr) s = .next s)) ∧
    (∀ c, s.d.mctx ch x = some c → c.op % 256 ≠ 0x06 → exec (.waitrb ch x sr) s = .next s) ∧
    (∀ c, s.d.sysHalt = false → s.d.mctx ch x = some c → c.st = .waitrb →
      exec (.waitrbTimeout ch x) s = .next { s with d := s.d.endCtx tick ch x 2 c.pc }) ∧
    (∀ c, s.d.mctx ch x = some c → c.st ≠ .waitrb → exec (.waitrbTimeout ch x) s = .next s) ∧
    (s.d.mctx ch x = none → exec (.waitrb ch x sr) s = .next s ∧ exec (.waitrbTimeout ch x) s = .next s ∧
      ∀ meas, exec (.readySeen ch x sr meas) s = .next s)) ∧
  (∀ ch x sr meas c s, s.d.sysHalt = false → s.d.mctx ch x = some c →
    let mode := opByte c.op 2
    let old := 64 ≤ ch ∨ (mode = 0 ∧ c.polled = true)
    let st := if old then c.sr else sr % 256
    let ends := c.st = .waitrb ∧ (old → c.polled = true) ∧ s.d.tetBusy ch x = false ∧ waitReady c.op st = true
    let closes := c.op.testBit 8 = true ∧ (s.d.lunop ch c.u).getLsbD 62 = true
    let d1 := if old then s.d else s.d.send (.nand ch c.ce (s.d.pollRec ch mode (bitsOf c.op 95 64)) [])
    let c1 : MCtx := { c.next with sr := st, st := .need }
    (ends → ¬ closes → exec (.readySeen ch x sr meas) s = .next { s with d := d1.mput s.clk.tick ch x c1 }) ∧
    (ends → closes → exec (.readySeen ch x sr meas) s = .next { s with
      d := (d1.closeOp ch c.u).mput s.clk.tick ch x { c1 with meas := some (Nat.min meas (2 ^ 32 - 1)) } }) ∧
    (¬ ends → exec (.readySeen ch x sr meas) s = .next s)) ∧
  (∀ ch x s, s.d.sysHalt = false →
    (∀ c, s.d.mctx ch x = some c →
      let asks := c.op % 256 = 0x0A ∧ c.look = none ∧ (c.st = .need ∨ c.st = .hold)
      let r := s.d.calLookup (mediaPlace ch).1 (mediaPlace ch).2 c.u (opByte c.op 2) (opByte c.op 3 % 16) s.clk.tick
      (asks → exec (.calLookup ch x) s
        = .next { s with d := r.1.setMctx ch x (some { c with look := some r.2.1, dsh := r.2.2 }) }) ∧
      (¬ asks → exec (.calLookup ch x) s = .next s)) ∧
    (s.d.mctx ch x = none → exec (.calLookup ch x) s = .next s)) ∧
  (∀ ch x ok sr vals waits z0 z1 c s, onBus s.d ch x (c.op % 256) false c → c.stage = 0 ∨ 64 ≤ ch →
    let tick := s.clk.tick
    let gs := s.d.opGroups ch c
    let local' (n : Nat) := s.d.driveAll ch c
      ((gs.take (n + 1)).foldl (fun a g => a ++ g) [] ++ [s.d.pollRec ch (s.d.chcfg ch 30 29) (s.d.lunRow ch c)])
    let late (n : Nat) (c1 : MCtx) : State := { s with d := ((local' n).1.setMctx ch x (some c1)).endCtx tick ch x 2 c.pc }
    let done (n : Nat) (c1 : MCtx) : State := { s with d := (local' n).1.mput tick ch x { c1.next with st := .need } }
    let p := s.d.driveAll ch c (gs.getD c.stage [])
    let f := p.1.flush ch x p.2
    let group : State := { s with d := f.1.setMctx ch x (some { f.2 with st := .ready, stage := c.stage + 1, polled := false }) }
    let c0 : MCtx := { c with sr := sr % 256 }
    let isOpen := (s.d.lunop ch c.u).getLsbD 63 = true
    (c.op % 256 = 0x08 →
      let c1 : MCtx := { c0 with feat := if opByte c.op 2 % 2 = 1 then vals % 2 ^ 32 else c.feat }
      (ch < 64 → ok = true → exec (.feature ch x ok sr vals) s = .next (done 1 c1)) ∧
      (ch < 64 → ok = false → exec (.feature ch x ok sr vals) s = .next (late 0 c1)) ∧
      (64 ≤ ch → exec (.feature ch x ok sr vals) s = .next group)) ∧
    (c.op % 256 = 0x0A → c.look ≠ none →
      (ch < 64 → ok = true → exec (.offsets ch x ok sr) s = .next (done 1 c0)) ∧
      (ch < 64 → ok = false → exec (.offsets ch x ok sr) s = .next (late 0 c0)) ∧
      (64 ≤ ch → exec (.offsets ch x ok sr) s = .next group)) ∧
    (c.op % 256 = 0x0B → isOpen → c.stage = 0 →
      exec (.probe ch x waits sr z0 z1) s = .next { s with d := s.d.endCtx tick ch x 4 c.pc }) ∧
    (c.op % 256 = 0x0B → ¬ isOpen →
      let c1 : MCtx := { c0 with zc0 := Nat.min z0 65535, zc1 := Nat.min z1 65535 }
      (ch < 64 → 4 ≤ waits →
        exec (.probe ch x waits sr z0 z1) s = .next (done waits { c1 with pclass := s.d.probeClass ch c1.zc0 c1.zc1 })) ∧
      (ch < 64 → waits < 4 → exec (.probe ch x waits sr z0 z1) s = .next (late waits c1)) ∧
      (64 ≤ ch → exec (.probe ch x waits sr z0 z1) s = .next group))) ∧
  (∀ ch x ok sr vals waits z0 z1 c s, s.d.sysHalt = false → s.d.mctx ch x = some c → 64 ≤ ch → c.st = .ready →
    c.stop = false ∨ c.stage ≠ 0 →
    let tick := s.clk.tick
    let gs := s.d.opGroups ch c
    let mode := s.d.chcfg ch 30 29
    let seen := c.polled = true ∧ c.sr.testBit 6 = true
    let held := mode = 0 ∧ (c.polled = true ∨ s.d.rbHigh ch c = false)
    let next (ws : Nat) (c1 : MCtx) (t : State) : Prop :=
      (ws < c.stage → t = { s with d := s.d.endCtx tick ch x 2 c.pc }) ∧
      (c.stage ≤ ws → s.d.tetBusy ch x = true → t = s) ∧
      (c.stage ≤ ws → s.d.tetBusy ch x = false →
        (seen → c.stage < gs.length → t = { s with d := s.d.setMctx ch x (some { c with st := .need }) }) ∧
        (seen → gs.length ≤ c.stage → t = { s with d := s.d.mput tick ch x { c1.next with st := .need, stage := 0 } }) ∧
        (¬ seen → s.d.linkBad ch c = true → t = { s with d := s.d.endCtx tick ch x 7 c.pc }) ∧
        (¬ seen → s.d.linkBad ch c = false → held → t = s) ∧
        (¬ seen → s.d.linkBad ch c = false → ¬ held →
          t = { s with d := s.d.poll ch x c mode (s.d.lunRow ch c) }))
    let w := if ok then 1 else 0
    (c.op % 256 = 0x08 → ∃ t, exec (.feature ch x ok sr vals) s = .next t ∧ next w c t) ∧
    (c.op % 256 = 0x0A → c.look ≠ none → ∃ t, exec (.offsets ch x ok sr) s = .next t ∧ next w c t) ∧
    (c.op % 256 = 0x0B → ∃ t, exec (.probe ch x waits sr z0 z1) s = .next t ∧
      next waits { c with pclass := s.d.probeClass ch c.zc0 c.zc1 } t)) ∧
  (∀ ch x ok sr vals waits z0 z1 s,
    (∀ c, onBus s.d ch x 0x08 true c →
      exec (.feature ch x ok sr vals) s = .next { s with d := s.d.endCtx s.clk.tick ch x 7 c.pc }) ∧
    (∀ c, onBus s.d ch x 0x0A true c → c.look ≠ none →
      exec (.offsets ch x ok sr) s = .next { s with d := s.d.endCtx s.clk.tick ch x 7 c.pc }) ∧
    (∀ c, onBus s.d ch x 0x0B true c → (s.d.lunop ch c.u).getLsbD 63 = false →
      exec (.probe ch x waits sr z0 z1) s = .next { s with d := s.d.endCtx s.clk.tick ch x 7 c.pc }) ∧
    ((∀ c, s.d.mctx ch x = some c → c.op % 256 ≠ 0x08) → exec (.feature ch x ok sr vals) s = .next s) ∧
    ((∀ c, s.d.mctx ch x = some c → c.op % 256 ≠ 0x0A) → exec (.offsets ch x ok sr) s = .next s) ∧
    ((∀ c, s.d.mctx ch x = some c → c.op % 256 ≠ 0x0B) → exec (.probe ch x waits sr z0 z1) s = .next s))

/-- Operations and tokens (15 R431–R434, R440; 16 R464; MED-3). BEGIN_PROG and BEGIN_ERASE of a LUN without an open operation, the
channel's limit not reached, ask for tokens, END_OP closes, SUSPEND returns the tokens of a confirmed operation, RESUME asks for them
again; each other use is SEQUENCE, with the PF latch set PFAIL; END_OP and SUSPEND wait for a confirm of their group; with nobody waiting
and the tokens within the cap a request is granted at once, a waiting one when its turn comes and it fits. The model's own choice is log
entry 63. -/
def Obligations.MediaTokens : Prop :=
  (∀ ch x c s, atOp s.d ch x 0x0C c →
    let tick := s.clk.tick
    let kind := opByte c.op 2
    let w := s.d.lunop ch c.u
    let last (st : Nat) : State := { s with d := s.d.endCtx tick ch x st c.pc }
    let free := w.getLsbD 63 = false ∧ s.d.openOps ch < s.d.chcfg ch 28 24
    let asks : State := { s with d := s.d.askTokens tick ch x c }
    let f := s.d.flush ch x c
    let waits : State := { s with d := f.1.setMctx ch x (some f.2) }
    (s.d.pfSet = true →
      (kind = 1 → exec (.beginProg ch x) s = .next (last 9)) ∧ (kind = 2 → exec (.beginErase ch x) s = .next (last 9)) ∧
      (kind = 5 → exec (.resume ch x) s = .next (last 9))) ∧
    (s.d.pfSet = false → free →
      (kind = 1 → exec (.beginProg ch x) s = .next asks) ∧ (kind = 2 → exec (.beginErase ch x) s = .next asks)) ∧
    (s.d.pfSet = false → ¬ free →
      (kind = 1 → exec (.beginProg ch x) s = .next (last 4)) ∧ (kind = 2 → exec (.beginErase ch x) s = .next (last 4))) ∧
    (s.d.pfSet = false → kind = 5 →
      (w.getLsbD 61 = true → exec (.resume ch x) s = .next asks) ∧
      (w.getLsbD 61 = false → exec (.resume ch x) s = .next (last 4))) ∧
    (c.conf = true →
      (kind = 3 → exec (.endOp ch x) s = .next waits) ∧ (kind = 4 → exec (.suspend ch x) s = .next waits)) ∧
    (c.conf = false →
      (kind = 3 → w.getLsbD 63 = true → exec (.endOp ch x) s = .next { s with d := (s.d.closeOp ch c.u).mput tick ch x c.next }) ∧
      (kind = 3 → w.getLsbD 63 = false → exec (.endOp ch x) s = .next (last 4)) ∧
      (kind = 4 → w.getLsbD 62 = true → w.getLsbD 61 = false →
        let d1 := (s.d.giveTokens (getBits w 58 57 + 1)).setLunop ch c.u (putBits w 61 61 1)
        exec (.suspend ch x) s = .next { s with d := d1.mput tick ch x c.next }) ∧
      (kind = 4 → w.getLsbD 62 = false ∨ w.getLsbD 61 = true → exec (.suspend ch x) s = .next (last 4))) ∧
    (kind ≠ 1 → exec (.beginProg ch x) s = .next s) ∧ (kind ≠ 2 → exec (.beginErase ch x) s = .next s) ∧
    (kind ≠ 3 → exec (.endOp ch x) s = .next s) ∧ (kind ≠ 4 → exec (.suspend ch x) s = .next s) ∧
    (kind ≠ 5 → exec (.resume ch x) s = .next s)) ∧
  (∀ ch x s, (∀ c, ¬ atOp s.d ch x 0x0C c) →
    exec (.beginProg ch x) s = .next s ∧ exec (.beginErase ch x) s = .next s ∧ exec (.endOp ch x) s = .next s ∧
    exec (.suspend ch x) s = .next s ∧ exec (.resume ch x) s = .next s) ∧
  (∀ s, s.d.sysHalt = false →
    let turn := ((upTo 4).map (fun i => (s.d.tokTurn + i) % 4)).find? (fun q => decide (s.d.tokWait q ≠ []))
    (turn = none → exec .tokenGrant s = .next s) ∧
    (∀ q key r, turn = some q → s.d.tokWait q = key :: r →
      let d1 : Dev := { s.d.setTokWait q r with tokTurn := (q + 1) % 4 }
      let ctx := s.d.mctx (key / 8) (key % 8)
      (∀ c, ctx = some c → c.st = .tokens → s.d.tokensFit (s.d.npl (key / 8) c) = true →
        exec .tokenGrant s = .next { s with d := d1.grantTokens s.clk.tick (key / 8) (key % 8) c }) ∧
      (∀ c, ctx = some c → c.st = .tokens → s.d.tokensFit (s.d.npl (key / 8) c) = false → exec .tokenGrant s = .next s) ∧
      ((∀ c, ctx = some c → c.st ≠ .tokens) → exec .tokenGrant s = .next { s with d := d1 })))

/-- Registers of the media sequencers and NAND PHYs, and the pads of a channel (15 R418–R420, R425, R433, R435, R447, R448; 22 R590,
R591). STOP ends the lists of a channel, WPN drives its WP_N; MSQ_CHCFG and NPH_CFG are held while the channel is OFF or IDLE, without
their reserved codes, EN = 1 only where the group has a ring; a read pointer moves over written records only; the token cap is held in the
live quarter; training starts, and puts trained values in force when it passes. The pads of a disabled channel, and of every channel under
CONF_ERR, are CE_N high, WP_N low whatever WPN holds, the others on their pulls; an enabled one has WP_N at WPN and CE_N low for the
target on the bus. The model's own choice is log entry 69. -/
def Obligations.MediaRegisters : Prop :=
  (∀ m ch v s, m.oid = 0 →
    let d1 := s.d.setRegN (mReg ch .MSQ_CHCTRL) (v &&& 2)
    (v.testBit 0 = true → exec (.stop m ch v) s = .next { s with d := (d1.stopLists s.clk.tick ch).okay }) ∧
    (v.testBit 0 = false → exec (.stop m ch v) s = .next s) ∧
    exec (.wpn m ch v) s = .next { s with d := d1.okay }) ∧
  (∀ m ch v s, m.oid = 0 →
    let x := mReg ch .MSQ_CHCFG
    let w := v &&& 0xFFFFFC00
    let n := chcfgOk (s.d.regN x) w
    let may := s.d.fld F.MSQ_CHSTAT_STATE (mediaPlace ch).1 (mediaPlace ch).2 < 2 ∧
      ¬ (v.testBit 31 = true ∧ s.d.regN (R.MSQ_RBASE.at (mediaPlace ch).1 (mGroup ch)) = 0)
    (may → n = w → exec (.msqChcfg m ch v) s = .next { s with d := ((s.d.setRegN x n).chStat ch).okay }) ∧
    (may → n ≠ w →
      exec (.msqChcfg m ch v) s = .next { s with d := (((s.d.logWrite m x .reserved).setRegN x n).chStat ch).okay }) ∧
    (¬ may → exec (.msqChcfg m ch v) s = .next { s with d := s.d.refuse m x })) ∧
  (∀ m q j v s, m.oid = 0 →
    let old := s.d.fld F.MSQ_RRP_RP q j
    let rp := v % 65536
    let may := rp < s.d.mRing q j ∧
      ringDist rp old (s.d.mRing q j) ≤ ringDist (s.d.fld F.MSQ_RWP_WP q j) old (s.d.mRing q j)
    (may → exec (.msqRrp m q j v) s = .next { s with d := ((s.d.setRegN (R.MSQ_RRP.at q j) rp).ringLevel q j).okay }) ∧
    (¬ may → exec (.msqRrp m q j v) s = .next { s with d := s.d.refuse m (R.MSQ_RRP.at q j) })) ∧
  (∀ m q v s, m.oid = 0 →
    let x := R.MSQ_OPCAP.at q
    let n := v % 4096
    let live := q = s.d.liveQ
    let lock := s.d.locked .MSQ q = true
    (¬ live → exec (.msqOpcap m q v) s = .next { s with d := s.d.okay }) ∧
    (live → lock → exec (.msqOpcap m q v) s = .next { s with d := s.d.refuseAs m x .locked }) ∧
    (live → ¬ lock → 1 ≤ n → n ≤ 2048 → exec (.msqOpcap m q v) s = .next { s with d := (s.d.setRegN x n).okay }) ∧
    (live → ¬ lock → n = 0 ∨ 2048 < n →
      exec (.msqOpcap m q v) s = .next { s with d := (s.d.logWrite m x .reserved).okay })) ∧
  (∀ m n v s, m.oid = 0 →
    let x := R.NPH_CFG.at (n / 16) (n % 16)
    let w := v &&& 0x773
    let drv := if bitsOf w 6 4 ≤ 4 then w else setBitsN w 6 4 (bitsOf (s.d.regN x) 6 4)
    let may := w = s.d.regN x ∨ (s.d.fld F.MSQ_CHSTAT_STATE (n / 16) (n % 16) < 2 ∧ s.d.training n = false)
    let put (d : Dev) : State :=
      { s with d := ((d.setRegN x drv).setFld F.NPH_STAT_LPDDR4 (if drv % 4 = 0 then 0 else 1) (n / 16) (n % 16)).okay }
    (may → bitsOf w 6 4 ≤ 4 → exec (.nphCfg m n v) s = .next (put s.d)) ∧
    (may → 4 < bitsOf w 6 4 → drv ≠ w → exec (.nphCfg m n v) s = .next (put (s.d.logWrite m x .reserved))) ∧
    (¬ may → exec (.nphCfg m n v) s = .next { s with d := s.d.refuse m x }) ∧
    (v.testBit 4 = true →
      exec (.nphTrain m n v) s = .next { s with d := (s.d.setFld F.NPH_TSTAT_RESULT 3 (n / 16) (n % 16)).okay }) ∧
    (v.testBit 4 = false → exec (.nphTrain m n v) s = .next { s with d := s.d.okay })) ∧
  (∀ n rm wm s,
    let ends := s.d.training n = true ∧ ∀ i z, (i, some z) ∈ (s.d.mchan n).ctxs → z.st ≠ .hold
    let v (res : Nat) := res * 2 ^ 30 + rm % 256 * 256 + wm % 256
    let d1 (res : Nat) := s.d.setRegN (R.NPH_TSTAT.at (n / 16) (n % 16)) (v res)
    (ends → exec (.nphTrainingDone n true rm wm) s
        = .next { s with d := (d1 1).setFld F.NPH_STAT_TRAINED 1 (n / 16) (n % 16) } ∧
      exec (.nphTrainingDone n false rm wm) s = .next { s with d := d1 2 }) ∧
    (¬ ends → ∀ pass, exec (.nphTrainingDone n pass rm wm) s = .next s)) ∧
  (∀ ch k (d : Dev),
    let wpn := d.flag F.MSQ_CHCTRL_WPN (mediaPlace ch).1 (mediaPlace ch).2
    (d.chEn ch = false ∨ d.confFailed = true →
      d.nandPad ch (.ceN k) = .high ∧ d.nandPad ch .wpN = .low ∧ d.nandPad ch .weN = .hiZ .up ∧
      d.nandPad ch .reC = .hiZ .up ∧ d.nandPad ch .dqsC = .hiZ .up ∧ d.nandPad ch (.rbN k) = .hiZ .up ∧
      d.nandPad ch (.dq k) = .hiZ .down ∧ d.nandPad ch .dqsT = .hiZ .down ∧ d.nandPad ch .reT = .hiZ .down ∧
      d.nandPad ch .ale = .hiZ .down ∧ d.nandPad ch .cle = .hiZ .down) ∧
    (d.chEn ch = true → d.confFailed = false →
      d.nandPad ch .wpN = (if wpn then .high else .low) ∧
      (d.busCtx ch = none → d.nandPad ch (.ceN k) = .high) ∧
      (∀ c, d.busCtx ch = some c → d.nandPad ch (.ceN k) = if c.ce = k then .low else .high)))

/-- Power-fail (15 R440–R443). PF_WARN_N shows in PIN and sets the latch; its return clears PIN alone; the dump that is under way stands
complete in its half; the latch clears while the pin is high, and is kept while it is low; an erased half is armed with the next SEQ, one
that is not erased is refused; outside the live quarter both registers do nothing. The model's own choice is log entry 68. -/
def Obligations.PowerFail : Prop :=
  (∀ s,
    let d1 : Dev := { s.d with pfLow := true }
    let d2 : Dev := { s.d with pfLow := false }
    exec .pfWarn s = .next { s with d := (d1.setFld F.MSQ_PFSTAT_PIN 1 s.d.liveQ).pfLatch s.clk.tick } ∧
    exec .pfWarnNDeassert s = .next { s with d := d2.setFld F.MSQ_PFSTAT_PIN 0 s.d.liveQ }) ∧
  (∀ s,
    (∀ p, s.d.dump = some p →
      let q := s.d.liveQ
      let a := dumpBase q p.half
      let d1 := (p.recs.zip (upTo p.recs.length)).foldl (fun x r => x.setMemN (a + 64 + 32 * r.2) 32 r.1) s.d
      let d2 : Dev := { d1.setMemN (a + 32) 32 p.complete with dump := none }
      exec .dumpComplete s
        = .next { s with
            d := ((d2.setFld F.MSQ_PFSTAT_DUMP 2 q).setFld F.MSQ_PFSTAT_ARMED 0 q).setFld F.MSQ_PFSTAT_COUNT p.recs.length q }) ∧
    (s.d.dump = none → exec .dumpComplete s = .next s)) ∧
  (∀ m q v s, m.oid = 0 →
    let live := q = s.d.liveQ
    let h := v / 2 % 2
    let d1 := ((s.d.setRegN (R.MSQ_OPDARM.at q) (v &&& 2)).setFld F.MSQ_PFSTAT_ARMED 1 q).setFld F.MSQ_PFSTAT_HALF h q
    let d2 : Dev := { d1 with armSeq := (Nat.max (s.d.dumpSeq q 0) (s.d.dumpSeq q 1) + 1) % 2 ^ 32 }
    (¬ live → exec (.msqPfclr m q v) s = .next { s with d := s.d.okay } ∧
      exec (.msqOpdarm m q v) s = .next { s with d := s.d.okay }) ∧
    (live → v.testBit 0 = true → s.d.flag F.MSQ_PFSTAT_PIN q = false →
      exec (.msqPfclr m q v) s = .next { s with d := (s.d.setFld F.MSQ_PFSTAT_LATCH 0 q).okay }) ∧
    (live → v.testBit 0 = true → s.d.flag F.MSQ_PFSTAT_PIN q = true →
      exec (.msqPfclr m q v) s = .next { s with d := s.d.refuse m (R.MSQ_PFCLR.at q) }) ∧
    (live → v.testBit 0 = true → s.d.erased (dumpBase q h) 0x10000 = true →
      exec (.msqOpdarm m q v) s = .next { s with d := d2.okay }) ∧
    (live → v.testBit 0 = true → s.d.erased (dumpBase q h) 0x10000 = false →
      exec (.msqOpdarm m q v) s = .next { s with d := s.d.refuse m (R.MSQ_OPDARM.at q) }) ∧
    (live → v.testBit 0 = false → exec (.msqPfclr m q v) s = .next { s with d := s.d.okay } ∧
      exec (.msqOpdarm m q v) s = .next { s with d := (s.d.setRegN (R.MSQ_OPDARM.at q) (v &&& 2)).okay }))

/-- Lane training (16 R453, R454, R467, R468, R470, R475). A write of EN by the owner enables a lane that is OFF, which goes to DETECT
with FAILS 0, or takes one that is neither UP nor in RETRAIN to OFF; a signal takes DETECT and ABSENT to TRAIN and its loss starts over; a
training frame moves the FIR and is answered; three good codewords in a row with consecutive CWSEQ lock a lane, which goes from TRAIN to
IDENT, eight failing ones lose the lock, each corrected symbol and each corrupt codeword counted; what times out ends in ABSENT or MUTE, a
training attempt starts over, and a backoff ends in DETECT; in any other state the lane is unchanged. The model's own choices are log
entries 73, 75. -/
def Obligations.TetherTraining : Prop :=
  (∀ m L v s, m.owner = true →
    let x := tetReg L .TET_LCTRL
    let st := tetReg L .TET_LSTAT
    let was := (s.d.reg x).getLsbD 0
    let d1 := (s.d.setRegN x 1).setReg st (putBits (s.d.reg st) 7 0 0)
    (v.testBit 0 = true → was = false → exec (.tetLctrl m L v) s = .next { s with d := (d1.setLaneState L 1).okay }) ∧
    (v.testBit 0 = true → was = true → exec (.tetLctrl m L v) s = .next { s with d := d1.okay }) ∧
    (v.testBit 0 = false → was = false → exec (.tetLctrl m L v) s = .next { s with d := s.d.okay }) ∧
    (v.testBit 0 = false → was = true → s.d.laneState L ≠ 4 → s.d.laneState L ≠ 8 → exec (.tetLctrl m L v) s = .next { s with
      d := (((s.d.setRegN x 0).setLane L { Lane.zero with everUp := (s.d.lane L).everUp }).setLaneState L 0).okay }) ∧
    (v.testBit 0 = false → was = true → s.d.laneState L = 4 ∨ s.d.laneState L = 8 →
      exec (.tetLctrl m L v) s = .next { s with d := ((s.d.setRegN x 0).leaveUp s.clk.tick L 6 0).okay })) ∧
  (∀ L s,
    let st := s.d.laneState L
    let tick := s.clk.tick
    (st = 1 ∨ st = 5 → exec (.signalDetect L) s = .next { s with d := s.d.beginTrain L 2 }) ∧
    (st ≠ 1 → st ≠ 5 → exec (.signalDetect L) s = .next s) ∧
    (st = 2 ∨ st = 3 → exec (.lossOfSignal L) s = .next { s with d := s.d.laneRestart L 1 }) ∧
    (st = 4 → exec (.lossOfSignal L) s = .next { s with d := s.d.leaveUp tick L 1 1 }) ∧
    (st = 8 → exec (.lossOfSignal L) s = .next { s with d := s.d.leaveUp tick L 5 1 }) ∧
    (st ∉ [2, 3, 4, 8] → exec (.lossOfSignal L) s = .next s) ∧
    (st = 1 → exec (.laneAbsent L) s = .next { s with d := s.d.laneFail tick L 5 }) ∧
    (st ≠ 1 → exec (.laneAbsent L) s = .next s) ∧
    (st = 2 → exec (.trainRestart L) s = .next { s with d := s.d.laneRestart L 2 }) ∧
    (st ≠ 2 → exec (.trainRestart L) s = .next s) ∧
    (st = 2 ∨ st = 3 → exec (.mute L) s = .next { s with d := s.d.laneFail tick L 6 }) ∧
    (st ≠ 2 → st ≠ 3 → exec (.mute L) s = .next s) ∧
    (st = 5 ∨ st = 6 ∨ st = 7 → exec (.backoffEnd L) s = .next { s with d := s.d.setLaneState L 1 }) ∧
    (st ≠ 5 → st ≠ 6 → st ≠ 7 → exec (.backoffEnd L) s = .next s)) ∧
  (∀ L word req adapted s,
    let heard := (s.d.laneState L = 2 ∨ s.d.laneState L = 8) ∧ bitsOf word 31 24 = 0xA5
    let l := s.d.lane L
    let f := firRequest l.fir word
    let rx := if word.testBit 16 then Nat.min 3 (l.rdyRx + 1) else 0
    let tx := if adapted then Nat.min 3 (l.rdyTx + 1) else 0
    let own := 0xA5 * 2 ^ 24 + (if adapted then 2 ^ 16 else 0) + f.2 * 2 ^ 8 + req % 128
    (heard → exec (.trainingFrame L word req adapted) s = .next { s with
      d := (s.d.setLane L { l with
        fir := f.1, rdyRx := rx, rdyTx := tx, codes := l.codes || (decide (rx = 3) && decide (tx = 3)) }).send (.frame L own) }) ∧
    (¬ heard → exec (.trainingFrame L word req adapted) s = .next s)) ∧
  (∀ L hdr n corrupt s,
    let st := s.d.laneState L
    let x := tetReg L .TET_FEC_CE
    let d1 := if corrupt then s.d.bump (tetReg L .TET_FEC_UE) else s.d.setRegN x (satAdd (s.d.regN x) n 0xFFFFFFFF)
    let l := d1.lane L
    let seq := bitsOf hdr 11 8
    let want := (l.cwseq + 1) % 16
    let valid := corrupt = false ∧ bitsOf hdr 19 12 = 0x5A
    (st ∉ [2, 3, 4, 8] → exec (.codeword L hdr n corrupt) s = .next s) ∧
    (st ∈ [2, 3, 4, 8] → l.locked = true →
      let fails := ¬ (valid ∧ seq = want)
      let d2 := d1.setLane L { l with cwseq := want, run := l.run + 1 }
      (¬ fails →
        exec (.codeword L hdr n corrupt) s = .next { s with d := d1.setLane L { l with cwseq := want, run := 0 } }) ∧
      (fails → l.run < 7 → exec (.codeword L hdr n corrupt) s = .next { s with d := d2 }) ∧
      (fails → 7 ≤ l.run → st = 3 → exec (.codeword L hdr n corrupt) s = .next { s with d := d2.laneRestart L 1 }) ∧
      (fails → 7 ≤ l.run → st = 4 → exec (.codeword L hdr n corrupt) s = .next { s with d := d2.leaveUp s.clk.tick L 2 1 }) ∧
      (fails → 7 ≤ l.run → st = 2 ∨ st = 8 → exec (.codeword L hdr n corrupt) s
        = .next { s with d := d2.setLane L { l with cwseq := want, locked := false, run := 0 } })) ∧
    (st ∈ [2, 3, 4, 8] → l.locked = false →
      let go (run : Nat) (lock : Bool) : Dev := d1.setLane L { l with cwseq := seq, run := run, locked := lock }
      (¬ valid → exec (.codeword L hdr n corrupt) s = .next { s with d := go 0 false }) ∧
      (valid → l.run = 0 ∨ seq ≠ want → exec (.codeword L hdr n corrupt) s = .next { s with d := go 1 false }) ∧
      (valid → l.run = 1 → seq = want → exec (.codeword L hdr n corrupt) s = .next { s with d := go 2 false }) ∧
      (valid → l.run = 2 → seq = want → st = 2 →
        exec (.codeword L hdr n corrupt) s = .next { s with d := (go 0 true).setLaneState L 3 }) ∧
      (valid → l.run = 2 → seq = want → st ≠ 2 → exec (.codeword L hdr n corrupt) s = .next { s with d := go 0 true })))

/-- A lane comes UP and leaves it (16 R469, R471, R472). In IDENT, and in a locked RETRAIN, the lane sends its IDENT; a good IDENT whose
checks pass and whose flag says that the partner is ready takes IDENT to UP, and RETRAIN to UP with a replay where it names the bridge of
before; one that fails a check takes IDENT to REJECT with the check's CAUSE; one received in UP, or in RETRAIN of another bridge, is a
departure; a corrupt one is counted; a lane in UP retrains when asked, and a retrain that times out is a departure. The model's own choice
is log entry 74. -/
def Obligations.TetherUpDown : Prop :=
  (∀ L s,
    let sends := s.d.laneState L = 3 ∨ (s.d.laneState L = 8 ∧ (s.d.lane L).locked = true)
    (sends → exec (.identSend L) s = .next { s with d := s.d.txFlit L ⟨0, 6, 3, 255, 0, 0, 1024, s.d.identPayload L⟩ }) ∧
    (¬ sends → exec (.identSend L) s = .next s)) ∧
  (∀ L bytes clean s,
    let st := s.d.laneState L
    let l := s.d.lane L
    let hears := st = 3 ∨ st = 4 ∨ st = 8
    let whole := clean = true ∧ rxCrcOk bytes = true ∧ rxFormOk bytes = true
    let isIdent := hears ∧ whole ∧ rxN bytes 0 1 = 6
    let p := (rxFlitOf bytes).payload
    let c := identCheck p (getBits (s.d.reg (tetReg L .TET_LCFG)) 4 4)
    let ready := rxN p 7 1 % 2 = 1
    let same := rxN p 7 1 / 4 % 2 = 1 ∧ rxN p 8 8 = s.d.regN (tetReg L .TET_BRID)
    let d1 := s.d.setLane L { l with rxOk := true }
    (¬ hears → exec (.ident L bytes clean) s = .next s) ∧
    (hears → ¬ whole → exec (.ident L bytes clean) s = .next { s with d := s.d.bump (tetReg L .TET_CRC_ERR) }) ∧
    (hears → whole → rxN bytes 0 1 ≠ 6 → exec (.ident L bytes clean) s = .next s) ∧
    (isIdent → st = 3 → c = 0 → ready →
      exec (.ident L bytes clean) s = .next { s with d := d1.enterUp s.clk.tick L p }) ∧
    (isIdent → st = 3 → c = 0 → ¬ ready → exec (.ident L bytes clean) s = .next { s with d := d1 }) ∧
    (isIdent → st = 3 → c ≠ 0 →
      exec (.ident L bytes clean) s = .next { s with d := (s.d.setLaneCause L c).laneFail s.clk.tick L 7 }) ∧
    (isIdent → st = 4 → exec (.ident L bytes clean) s = .next { s with d := s.d.leaveUp s.clk.tick L 4 1 }) ∧
    (isIdent → st = 8 → l.locked = false ∨ c ≠ 0 → exec (.ident L bytes clean) s = .next s) ∧
    (isIdent → st = 8 → l.locked = true → c = 0 → ¬ same →
      exec (.ident L bytes clean) s = .next { s with d := s.d.leaveUp s.clk.tick L 5 1 }) ∧
    (isIdent → st = 8 → l.locked = true → c = 0 → same → ready → exec (.ident L bytes clean) s = .next { s with
      d := ((((d1.setLaneState L 4).laneTrained L).laneEvent s.clk.tick L).resend L).txMgmt L }) ∧
    (isIdent → st = 8 → l.locked = true → c = 0 → same → ¬ ready →
      exec (.ident L bytes clean) s = .next { s with d := d1 })) ∧
  (∀ m L v s, m.owner = true →
    let goes := v.testBit 1 = true ∧ s.d.laneState L = 4
    (goes → exec (.tetRetrain m L v) s = .next { s with d := ((s.d.txCtl L 0x82 0 255 0).enterRetrain L).okay }) ∧
    (¬ goes → exec (.tetRetrain m L v) s = .next { s with d := s.d.okay })) ∧
  (∀ L s,
    (s.d.laneState L = 8 → exec (.retrainTimeout L) s = .next { s with d := s.d.leaveUp s.clk.tick L 5 1 }) ∧
    (s.d.laneState L ≠ 8 → exec (.retrainTimeout L) s = .next s))

/-- The flits of a lane (16 R459–R466). A group whose lane can send and whose channel holds a VC0 credit leaves as a CMD flit and takes
the credit, and its confirm counts now; a DOUT record leaves in WDATA flits of up to 1,024 bytes, each for one VC1 credit; a good flit in
order is accepted and acts: RESP and RDATA as sequenced flits, LCTL, NAK and RTRN as control flits; one behind is a duplicate, one ahead
is NAKed; a flit whose CRC fails, or a sequenced one of a bad form, is counted and discarded with one NAK; a replay timeout sends the
replay buffer again; accrued credits return. The model's own choices are log entries 70, 71, 72, 73. -/
def Obligations.TetherFlits : Prop :=
  (∀ L kk s,
    let group := (s.d.lane L).outq.find? (fun y => decide (y.chan = kk))
    let may := s.d.sysHalt = false ∧ s.d.canSend L = true ∧ s.d.credits L kk 0 ≠ 0
    (∀ g, group = some g → may →
      let l := s.d.lane L
      let ch := 64 + 8 * L + kk
      let tag := nextTag (s.d.mchan ch).tag
      let wpn := s.d.flag F.MSQ_CHCTRL_WPN (mediaPlace ch).1 (mediaPlace ch).2
      let payload := leBytes (recGroup g.ce g.recs.length wpn g.hold) 16 ++ g.recs.flatMap (fun r => leBytes r.1 16)
      let datas := g.recs.filter (fun r => recIsData r.1)
      let w : List WOut := (datas.zip (upTo datas.length)).filterMap (fun p =>
          if p.1.1 % 256 = 4 then some ⟨kk, tag, p.2, ch * 0x40000 + p.1.2, bitsOf p.1.1 63 32, 0, false⟩ else none)
      let l1 : Lane := { l with
          outq := l.outq.eraseP (fun y => decide (y.chan = kk)), wq := l.wq ++ w,
          unans := l.unans ++ [⟨some g.key, kk, tag, datas.map (fun r => ch * 0x40000 + r.2)⟩] }
      let d1 := ((s.d.setLane L l1).setMchan ch { s.d.mchan ch with tag := tag }).setCredits L kk 0 (s.d.credits L kk 0 - 1)
      let d2 := d1.txSeqFlit L ⟨0, 1, 0, kk, tag, 0, payload.length, payload⟩
      (g.conf = none → exec (.cmdFlit L kk) s = .next { s with d := d2 }) ∧
      (∀ u c, g.conf = some u → (d2.confirm s.clk.tick ch u).mctx ch (g.key % 8) = some c → exec (.cmdFlit L kk) s
        = .next { s with d := (d2.confirm s.clk.tick ch u).setMctx ch (g.key % 8) (some { c with conf := false }) }) ∧
      (∀ u, g.conf = some u → (d2.confirm s.clk.tick ch u).mctx ch (g.key % 8) = none →
        exec (.cmdFlit L kk) s = .next { s with d := d2.confirm s.clk.tick ch u })) ∧
    (group = none ∨ ¬ may → exec (.cmdFlit L kk) s = .next s)) ∧
  (∀ L kk ue ce s,
    let next := (s.d.lane L).wq.find? (fun y => decide (y.chan = kk))
    let may := s.d.canSend L = true ∧ s.d.credits L kk 1 ≠ 0
    (∀ w, next = some w → may →
      let n := Nat.min 1024 (w.len - w.sent)
      let bad := w.poison || ue.isSome
      let fl := 1 + (if w.sent + n < w.len then 4 else 0) + (if bad then 8 else 0)
      let w1 : WOut := { w with sent := w.sent + n, poison := bad }
      let wq := if w.sent + n < w.len then (s.d.lane L).wq.map (fun y => if y = w then w1 else y)
        else (s.d.lane L).wq.filter (fun y => decide (y ≠ w))
      let d0 := (s.d.setLane L { s.d.lane L with wq := wq }).setCredits L kk 1 (s.d.credits L kk 1 - 1)
      let d1 := d0.chbufCe (64 + 8 * L + kk) ce
      exec (.wdata L kk ue ce) s = .next { s with
        d := d1.txSeqFlit L ⟨0, 2, fl, kk, w.tag, w.idx * 2 ^ 24 + w.sent, n, d1.chbufBytes (w.addr + w.sent) n⟩ }) ∧
    (next = none ∨ ¬ may → exec (.wdata L kk ue ce) s = .next s)) ∧
  (∀ L bytes s,
    let x := acked s.d L bytes
    let y := accepted s.d L bytes
    let behind := 2048 ≤ (rxN bytes 8 2 % 4096 + 4096 - (x.lane L).rxNext) % 4096
    let cnt := tetReg L .TET_NAK_CNT
    let k := rxN bytes 2 1
    let vc := rxN bytes 1 1 % 4
    (∀ t, t = 3 ∨ t = 4 → goodFlit s.d L t bytes →
      let row : Instr := if t = 3 then .resp L bytes true else .rdata L bytes true
      (inOrder s.d L bytes → exec row s = .next { s with d := y.takeFlit s.clk.tick L (rxFlitOf bytes) }) ∧
      (¬ inOrder s.d L bytes → behind → exec row s = .next { s with d := x }) ∧
      (¬ inOrder s.d L bytes → ¬ behind → exec row s = .next { s with d := x.nak L })) ∧
    (goodFlit s.d L 0x80 bytes →
      (k < 8 → vc < 2 → exec (.lctl L bytes true) s
        = .next { s with d := x.setCredits L k vc (satAdd (x.credits L k vc) (rxN bytes 12 4 % 256) 255) }) ∧
      (8 ≤ k ∨ 2 ≤ vc → exec (.lctl L bytes true) s = .next { s with d := x })) ∧
    (goodFlit s.d L 0x81 bytes →
      let z := x.setReg cnt (putBits (x.reg cnt) 31 16 (satAdd (getBits (x.reg cnt) 31 16) 1 65535))
      (x.laneState L = 4 → exec (.nak L bytes true) s = .next { s with d := z.startReplay s.clk.tick L }) ∧
      (x.laneState L ≠ 4 → exec (.nak L bytes true) s = .next { s with d := z })) ∧
    (goodFlit s.d L 0x82 bytes →
      (x.laneState L = 4 → exec (.rtrn L bytes true) s = .next { s with d := x.enterRetrain L }) ∧
      (x.laneState L ≠ 4 → exec (.rtrn L bytes true) s = .next { s with d := x }))) ∧
  (∀ L bytes clean s,
    let st := s.d.laneState L
    let hears := st = 4 ∨ st = 8
    let t := rxN bytes 0 1
    let ok := clean = true ∧ rxCrcOk bytes = true
    let all (o : Host.Outcome State Fault Refusal) : Prop :=
      exec (.resp L bytes clean) s = o ∧ exec (.rdata L bytes clean) s = o ∧ exec (.mgmt L bytes clean) s = o ∧
      exec (.lctl L bytes clean) s = o ∧ exec (.nak L bytes clean) s = o ∧ exec (.rtrn L bytes clean) s = o
    let d1 := s.d.bump (tetReg L .TET_CRC_ERR)
    let good := hears ∧ ok ∧ rxFormOk bytes = true
    (¬ hears → all (.next s)) ∧
    (hears → ¬ ok → all (.next { s with d := d1.nak L })) ∧
    (hears → ok → rxFormOk bytes = false → isSequenced t = true → all (.next { s with d := d1.nak L })) ∧
    (hears → ok → rxFormOk bytes = false → isSequenced t = false → all (.next { s with d := d1 })) ∧
    (good → t ≠ 3 → exec (.resp L bytes clean) s = .next s) ∧ (good → t ≠ 4 → exec (.rdata L bytes clean) s = .next s) ∧
    (good → t ≠ 5 → exec (.mgmt L bytes clean) s = .next s) ∧ (good → t ≠ 0x80 → exec (.lctl L bytes clean) s = .next s) ∧
    (good → t ≠ 0x81 → exec (.nak L bytes clean) s = .next s) ∧ (good → t ≠ 0x82 → exec (.rtrn L bytes clean) s = .next s)) ∧
  (∀ L s,
    let up := s.d.laneState L = 4
    let accr := (s.d.lane L).accr
    (up → exec (.replayTimeout L) s = .next { s with d := s.d.startReplay s.clk.tick L }) ∧
    (¬ up → exec (.replayTimeout L) s = .next s ∧ exec (.creditReturnDue L) s = .next s) ∧
    (up → accr ≠ [] →
      exec (.creditReturnDue L) s = .next { s with d := accr.foldl (fun x e => x.returnCredits L e.1 e.2) s.d }) ∧
    (up → accr = [] → (s.d.lane L).ackDue = true → exec (.creditReturnDue L) s = .next { s with d := s.d.txCtl L 0x80 0 0 0 }) ∧
    (up → accr = [] → (s.d.lane L).ackDue = false → exec (.creditReturnDue L) s = .next s))

/-- Bridge management (16 R459, R473, R474). GO with a legal length on a lane in UP reads the request and sends it, and MSTAT shows it
outstanding, a failed read ends with RESULT 5; a second one is refused while it is; a length outside 1–1,024 ends with RESULT 4 and a lane
that is not UP with RESULT 3; a write without GO does nothing; the reply in order is written to TET_MRADDR and ends the request, and so
does its timeout; a reply that no request awaits is taken without effect. -/
def Obligations.TetherManagement : Prop :=
  (∀ m L v s, m.owner = true →
    let go := v.testBit 31 = true
    let busy := s.d.mgmtBusy L = true
    let len := v % 2048
    let fits := len ≠ 0 ∧ len ≤ 1024
    let r := s.d.readBlock (mMid (64 + 8 * L)) (s.d.regN (tetReg L .TET_MADDR)) len 4
    let d1 := r.1.setRegN (tetReg L .TET_MSTAT) (2 ^ 31)
    (¬ go → exec (.tetMcmd m L v) s = .next { s with d := s.d.okay }) ∧
    (go → busy → exec (.tetMcmd m L v) s = .next { s with d := s.d.refuse m (tetReg L .TET_MCMD) }) ∧
    (go → ¬ busy → ¬ fits → exec (.tetMcmd m L v) s = .next { s with d := (s.d.mgmtEnd L 4 0).okay }) ∧
    (go → ¬ busy → fits → s.d.laneState L ≠ 4 → exec (.tetMcmd m L v) s = .next { s with d := (s.d.mgmtEnd L 3 0).okay }) ∧
    (go → ¬ busy → fits → s.d.laneState L = 4 → r.2 = none →
      exec (.tetMcmd m L v) s = .next { s with d := (r.1.mgmtEnd L 5 0).okay }) ∧
    (∀ b, go → ¬ busy → fits → s.d.laneState L = 4 → r.2 = some b → exec (.tetMcmd m L v) s = .next { s with
      d := ((d1.setLane L { d1.lane L with mreq := some ⟨0, 5, 2, 255, 0, 0, len, b⟩ }).txMgmt L).okay })) ∧
  (∀ L bytes s, goodFlit s.d L 5 bytes →
    let x := acked s.d L bytes
    let y := accepted s.d L bytes
    let f := rxFlitOf bytes
    let w := y.writeBlock (mMid (64 + 8 * L)) (y.regN (tetReg L .TET_MRADDR)) (f.payload.take 1024) 4
    let behind := 2048 ≤ (rxN bytes 8 2 % 4096 + 4096 - (x.lane L).rxNext) % 4096
    (inOrder s.d L bytes → y.mgmtBusy L = true → w.2 = true →
      exec (.mgmt L bytes true) s = .next { s with d := w.1.mgmtEnd L 1 f.len }) ∧
    (inOrder s.d L bytes → y.mgmtBusy L = true → w.2 = false →
      exec (.mgmt L bytes true) s = .next { s with d := w.1.mgmtEnd L 5 f.len }) ∧
    (inOrder s.d L bytes → y.mgmtBusy L = false → exec (.mgmt L bytes true) s = .next { s with d := y }) ∧
    (¬ inOrder s.d L bytes → behind → exec (.mgmt L bytes true) s = .next { s with d := x }) ∧
    (¬ inOrder s.d L bytes → ¬ behind → exec (.mgmt L bytes true) s = .next { s with d := x.nak L })) ∧
  (∀ L s,
    (s.d.mgmtBusy L = true →
      exec (.mgmtTimeout L) s = .next { s with d := (s.d.setLane L { s.d.lane L with mreq := none }).mgmtEnd L 2 0 }) ∧
    (s.d.mgmtBusy L = false → exec (.mgmtTimeout L) s = .next s))

/-- Power domains and clusters (19 R525–R527, 06 R187). A request of the owner is REFUSED in safe stop and after CONF_ERR, ends OK at once
where the domain is so already, starts a transition to ON always and to BASK or OFF where PWR-4 allows it (a cluster's OFF interrupts
loads over it), and is REFUSED where it does not; one made during a transition waits for its end with RESULT BUSY; a domain number that
names none does nothing. The end of a transition takes the domain where it goes and, unless it basks or moves on, serves the requests that
waited for it, in order, then those that their masters held. RST_CLU resets the clusters of its mask. The model's own choices are log
entries 14, 79, 141. -/
def Obligations.PowerDomains : Prop :=
  (∀ m q i goal row s, m.oid = 0 →
    (row = Instr.domainOn m q i ∧ goal = 0) ∨ (row = .domainBask m q i ∧ goal = 1) ∨ (row = .domainOff m q i ∧ goal = 2) →
    let idle := i ≤ 18 ∧ s.d.domTr q i = none
    let mayNot := s.d.safe = true ∨ s.d.confFailed = true
    let at' := s.d.domCur q i = goal
    let asked (d : Dev) : Dev := d.setFld F.PWR_DOM_REQ goal q i
    let go (d : Dev) : Dev := (((asked d).setDomTr q i (some ⟨goal, none⟩)).domResult q i 1).okay
    let allowed := goal = 0 ∨ s.d.domAllows q i goal = true
    (idle → mayNot → exec row s = .next { s with d := (s.d.domResult q i 2).okay }) ∧
    (idle → ¬ mayNot → at' → exec row s = .next { s with d := ((asked s.d).domResult q i 1).okay }) ∧
    (idle → ¬ mayNot → ¬ at' → ¬ allowed → exec row s = .next { s with d := (s.d.domResult q i 2).okay }) ∧
    (idle → ¬ mayNot → ¬ at' → allowed → goal = 0 ∨ 16 ≤ i → exec row s = .next { s with d := go s.d }) ∧
    (idle → ¬ mayNot → ¬ at' → allowed → goal ≠ 0 → i < 16 →
      exec row s = .next { s with d := go (s.d.interruptClu (clusterOf q i)) }) ∧
    (18 < i → exec row s = .next { s with d := s.d.okay }) ∧
    (∀ t, i ≤ 18 → s.d.domTr q i = some t → exec row s = .next { s with
      d := ((asked (s.d.setDomTr q i (some { t with next := some goal }))).domResult q i 3).okay })) ∧
  (∀ q i s,
    let there (t : DomTr) : Dev := ((s.d.setDomTr q i none).domArrive s.clk q i t.goal).domResult q i 1
    let waits (d : Dev) := d.domCur q i = 1 ∨ (d.domTr q i).isSome = true
    let mine (w : Waiter) : Bool := decide (w.q = q) && decide (w.dom = i)
    let serve (d : Dev) (w : Waiter) : Dev :=
      if w.epoch = d.epochOf w.req.m.mid then d.nocIssue w.req .none s.clk w.tag w.epoch
      else { d.nocIssue w.req .none s.clk w.tag w.epoch with out := d.out }
    let served (d : Dev) : Dev := ((d.waiters.filter mine).foldl serve
      ({ d with waiters := d.waiters.filter (fun w => !mine w) } : Dev)).releaseHeld s.clk
    ∀ d, (s.d.domTr q i = none ∧ d = s.d) ∨ (∃ t, s.d.domTr q i = some t ∧ t.next = none ∧ d = there t) ∨
        (∃ t g, s.d.domTr q i = some t ∧ t.next = some g ∧ d = (there t).domStart q i g) →
      (waits d → exec (.domainTransitionDone q i) s = .next { s with d := d }) ∧
      (¬ waits d → exec (.domainTransitionDone q i) s = .next { s with d := served d })) ∧
  (∀ m q v s, m.oid = 0 →
    exec (.rstClu m q v) s = .next { s with
      d := ((onesOf v 16).foldl (fun x l => x.clusterReset s.clk.tick (clusterOf q l)) s.d).okay })

/-- Resets of a quarter and of the device (19 R520, R522–R524, R532; 20 R545; 09 R620). RST_QCTL with its key and GO resets a quarter: its
masters end, its blocks lose their state, RST_STAT shows it and RST_CAUSE counts it; without the key it is refused, without GO or during a
reset it does nothing; the release ends RST_STAT and the realignment aligns the quarter, each only when it is due. PORST_N returns
everything but the boot flash and the levels of the pins to reset and stops the clock at TICK 0; SYSRST_N keeps the always-on block,
debug, HBM and home banks, stops the array with DTIME 0 and goes on with TICK, and is ignored in safe stop. Where the reset leaves values
open the model's own choices are log entries 78, 80, 128. -/
def Obligations.Resets : Prop :=
  (∀ m q v s, m.oid = 0 →
    let key := bitsOf v 31 16 = 0x5A17
    let goes := v % 2 = 1 ∧ s.d.inReset q = false
    let d1 := ((s.d.truncate (fun mid => s.d.mastersOf q mid)).quarterLoses s.clk.tick q).setRegN (R.RST_STAT.at q) 0xFFFF
    let d2 := (d1.setFld F.RST_CAUSE_CAUSE 2 q).setFld F.RST_CAUSE_QCOUNT (satAdd (d1.fld F.RST_CAUSE_QCOUNT q) 1 255) q
    (key → goes → exec (.rstQctl m q v) s = .next { s with
      d := ({ d2 with qrst := nset 0 d2.qrst q 1 }.setFld F.CLK_STAT_ALIGNED 0 q).okay }) ∧
    (key → ¬ goes → exec (.rstQctl m q v) s = .next { s with d := s.d.okay }) ∧
    (¬ key → exec (.rstQctl m q v) s = .next { s with d := s.d.refuse m (R.RST_QCTL.at q) })) ∧
  (∀ q s,
    let ph := nget 0 s.d.qrst q
    (ph = 1 → exec (.quarterResetRelease q) s = .next { s with
      d := { s.d with qrst := nset 0 s.d.qrst q 2 }.setRegN (R.RST_STAT.at q) 0 }) ∧
    (ph ≠ 1 → exec (.quarterResetRelease q) s = .next s) ∧
    (ph = 2 → exec (.quarterRealignment q) s = .next { s with
      d := ({ s.d with qrst := nset 0 s.d.qrst q 0 }.setFld F.CLK_STAT_ALIGNED 1 q).setRegN (R.CLK_ALIGN.at q) s.clk.tick }) ∧
    (ph ≠ 2 → exec (.quarterRealignment q) s = .next s)) ∧
  (∀ s,
    let d := xPorstNAssert s.d
    exec .porstNAssert s = .next { s with d := d, clk := Clk.reset } ∧
    d.cores = [] ∧ d.tasks = [] ∧ d.slices = [] ∧ d.cmds = [] ∧ d.sen = [] ∧ d.lanes = [] ∧ d.waiters = [] ∧ d.held = [] ∧
    d.arr = Dev.reset.arr ∧ d.boot = Dev.reset.boot ∧ d.safe = false ∧ d.therm = false ∧ d.perst = s.d.perst ∧ d.pfLow = s.d.pfLow ∧
    (∀ x, x ≠ R.MSQ_PFSTAT.at 0 → d.reg x = regReset x) ∧
    (s.d.pfLow = false → d.reg (R.MSQ_PFSTAT.at 0) = regReset (R.MSQ_PFSTAT.at 0)) ∧
    (s.d.pfLow = true → d.reg (R.MSQ_PFSTAT.at 0) = putBits (regReset (R.MSQ_PFSTAT.at 0)) 30 30 1) ∧
    (∀ a, isFlash a = false → d.byte a = memDflt a)) ∧
  (∀ s,
    let d := xSysrstNAssert s.d
    let clk1 : Clk := { s.clk with dtime := 0, cyc := 0, runs := false, started := false, n := 0 }
    (s.d.safe = true → exec .sysrstNAssert s = .next s) ∧
    (s.d.safe = false → exec .sysrstNAssert s = .next { s with d := d, clk := clk1 }) ∧
    d.sysrst = true ∧ d.cores = [] ∧ d.tasks = [] ∧ d.slices = [] ∧ d.cmds = [] ∧ d.sen = [] ∧ d.lanes = [] ∧ d.waiters = [] ∧
    d.arr = Dev.reset.arr ∧ d.boot = Dev.reset.boot ∧ d.porst = s.d.porst ∧ d.therm = s.d.therm ∧ d.auth = s.d.auth ∧
    d.capture = s.d.capture ∧ d.perst = s.d.perst ∧
    (∀ x, x.r.desc.blk = .DBG ∨ x.r.desc.blk = .DW → x.r ≠ .DBG_STAT → d.reg x = s.d.reg x) ∧
    (∀ q, q < 4 → d.regN (R.RST_CAUSE.at q) = 1))

/-- Clock faults and safe stop (19 R517–R521, R531, R532). A PLL that loses its lock, a rail out of range, ends of a bridge whose DTIME
differ once the array is aligned, and the first thermal trip bring safe stop with their causes, raised as an event, and no further cycle
executes; a PLL that was not locked, ends that agree or are not aligned, a bridge that does not exist and a second trip change nothing,
and in safe stop a second cause changes nothing but the event. Safe stop shows its cause, drops the frames, resets every core, puts every
cluster OFF and the stacks to bask and ends CONF. At a tick edge whose TICK is a multiple of 2^16 with four locked PLLs in a boot, DTIME
is aligned and the array executes; at any other edge nothing happens. The RC oscillator is calibrated against ROOT of Q0 once that is
locked. The model's own choices are log entries 10, 85. -/
def Obligations.ClockFaults : Prop :=
  (∀ q s,
    let locked := s.d.flag F.CLK_STAT_LOCK q = true
    (locked → exec (.pllLockLoss q) s = .next (s.withSafe ((s.d.setFld F.CLK_STAT_LOCK 0 q).railFault s.clk.tick 2))) ∧
    (¬ locked → exec (.pllLockLoss q) s = .next (s.withSafe s.d))) ∧
  (∀ s, exec .railOutOfRange s = .next (s.withSafe (s.d.railFault s.clk.tick 4))) ∧
  (∀ br eq s,
    let differ := eq = false ∧ s.clk.started = true ∧ br < 4
    (differ → exec (.dtimeCompare br eq) s = .next (s.withSafe (s.d.railFault s.clk.tick 3))) ∧
    (¬ differ → exec (.dtimeCompare br eq) s = .next (s.withSafe s.d))) ∧
  (∀ g s,
    (s.d.therm = false → exec (.thermTrip g) s
      = .next (s.withSafe (({ s.d with therm := true }.raiseAll 0x000).safeStop s.clk.tick 1 g))) ∧
    (s.d.therm = true → exec (.thermTrip g) s = .next (s.withSafe s.d))) ∧
  (∀ s,
    let aligns := s.d.boot.on = true ∧ s.clk.tick % 65536 = 0 ∧ s.clk.started = false ∧
      ∀ q, q < 4 → s.d.flag F.CLK_STAT_LOCK q = true
    let at' (d : Dev) (q : Nat) : Dev := (d.setFld F.CLK_STAT_ALIGNED 1 q).setRegN (R.CLK_ALIGN.at q) s.clk.tick
    (aligns → exec .alignmentEdge s = .next { s with
      d := (upTo 4).foldl at' s.d,
      clk := { s.clk with
        dtime := 64 * s.clk.tick, cyc := 0, runs := !(s.d.safe || s.d.sysHalt), started := true } }) ∧
    (¬ aligns → exec .alignmentEdge s = .next s)) ∧
  (∀ s,
    (s.d.flag F.CLK_STAT_LOCK 0 = true → exec .rcCalibration s = .next { s with d := { s.d with rcCal := true } }) ∧
    (s.d.flag F.CLK_STAT_LOCK 0 = false → exec .rcCalibration s = .next s)) ∧
  (∀ (s : State) (d : Dev), (s.withSafe d).d = d ∧ (s.withSafe d).pending = s.pending ∧
    (d.safe = true → (s.withSafe d).clk = { s.clk with runs := false }) ∧ (d.safe = false → (s.withSafe d).clk = s.clk)) ∧
  (∀ (d : Dev) now cause g,
    (d.safe = true → d.safeStop now cause g = d) ∧
    (d.safe = false →
      let d1 := d.setRegN (R.SAFE_STAT.at 0) (2 ^ 31 + cause % 8 * 2 ^ 28 + g % 64)
      let d2 := (d1.loading.map (fun e => e.1)).foldl (fun x sl => x.interrupt sl) d1
      let d3 : Dev := { d2 with
        arr := { d2.arr with frames := [], flight := [] }, doms := [], boot := { d2.boot with on := false } }
      let d4 := (upTo 64).foldl (fun x n => x.coreReset now n) (d3.pfLatch now)
      let rest (x : Dev) (q : Nat) : Dev := (upTo 16).foldl (fun y l => y.setDom q l 2) ((x.setDom q 17 1).setDom q 18 1)
      d.safeStop now cause g = ((((upTo 4).foldl rest d4).linksFail now).setFld F.AO_STATUS_CONF 0 0).linksReady))

/-- Heat, power and the core voltage (19 R529, R530, R533–R538). A sensor's reading is shown and the hottest of its quarter and of the
device are found; the thermal throttle raises n_th at or above TTHR, at most to 63, lowers it below TTHR − HYST and holds it between; an
estimate is corrected; a peak excursion raises n_peak by 8, at most to 63; the regulator moves by at most 5 mV toward VSET = VFUSE + TRIM
within 620 and 780 mV and rests there; its telemetry is shown, a reading more than 10 % off VSET is a rail fault, and every third failure
in a row is counted. The model's own choices are log entries 82, 83. -/
def Obligations.PowerControl : Prop :=
  (∀ q i raw s,
    let d1 := s.d.setRegN (R.PWR_TSENS.at q i) (2 ^ 31 + raw % 4096)
    (q < 4 → i < 16 → ∃ t g t2 g2,
      let d2 := d1.setRegN (R.PWR_TQ.at q) (g % 16 * 256 + wholeDeg t)
      d1.hottest ((upTo 16).map (fun j => q * 16 + j)) = some (t, g) ∧ (∀ j u, j < 16 → d1.reading q j = some u → u ≤ t) ∧
      d2.hottest (upTo 64) = some (t2, g2) ∧ (∀ p j u, p < 4 → j < 16 → d2.reading p j = some u → u ≤ t2) ∧
      exec (.sensorConversion q i raw) s = .next { s with d := d2.setRegN (R.GOV_HOT.at 0) (g2 * 256 + wholeDeg t2) }) ∧
    (4 ≤ q ∨ 16 ≤ i → exec (.sensorConversion q i raw) s = .next s)) ∧
  (∀ s,
    let tthr : Int := getBits (s.d.reg (R.GOV_CFG.at 0)) 7 0
    let hyst : Int := getBits (s.d.reg (R.GOV_CFG.at 0)) 11 8
    let n := s.d.gov.nt
    let out (n' : Nat) (hot : Bool) : Host.Outcome State Fault Refusal :=
      .next { s with d := ({ s.d with gov := { s.d.gov with nt := n' } }.setBit (R.GOV_STAT.at 0) 31 hot).govShow }
    (∀ t g, s.d.hottest (upTo 64) = some (t, g) →
      (4 * tthr ≤ t → n < 63 → exec .throttleStep s = out (n + 1) true) ∧
      (4 * tthr ≤ t → 63 ≤ n → exec .throttleStep s = out n true) ∧
      (t < 4 * tthr → t < 4 * (tthr - hyst) → exec .throttleStep s = out (n - 1) false) ∧
      (t < 4 * tthr → 4 * (tthr - hyst) ≤ t → exec .throttleStep s = out n false)) ∧
    (s.d.hottest (upTo 64) = none → exec .throttleStep s = .next s)) ∧
  (∀ q w s, exec (.estimateCorrection q w) s = .next { s with d := s.d.setRegN (R.PWR_QPOWER.at q) (w % 65536) }) ∧
  (∀ a s,
    let peak := getBits (s.d.reg (R.GOV_PL_PEAK.at 0)) 15 0
    let np := if s.d.gov.np + 8 ≤ 63 then s.d.gov.np + 8 else 63
    (peak < a → exec (.peakExcursion a) s = .next { s with
      d := ({ s.d with gov := { s.d.gov with np := np } }.setBit (R.GOV_STAT.at 0) 30 true).govShow }) ∧
    (a ≤ peak → exec (.peakExcursion a) s = .next s)) ∧
  (∀ s : State,
    let vfuse := getBits (s.d.reg (R.AVS_CFG.at 0)) 31 16
    let goal := s.d.vset
    let cur := s.d.avsOut.getD vfuse
    let d1 := s.d.setFld F.AVS_STAT_VSET goal 0
    let go (mv : Nat) : Host.Outcome State Fault Refusal := .next { s with d := { d1 with avsOut := some mv }.send (.vout mv) }
    (goal : Int) = max 620 (min 780 ((vfuse : Int) + signedOf (s.d.regN (R.AVS_TRIM.at 0)) 8)) ∧
    (s.d.avsOut = some goal → exec .avsStep s = .next { s with d := d1 }) ∧
    (s.d.avsOut ≠ some goal → cur + 5 ≤ goal → exec .avsStep s = go (cur + 5)) ∧
    (s.d.avsOut ≠ some goal → goal + 5 ≤ cur → exec .avsStep s = go (cur - 5)) ∧
    (s.d.avsOut ≠ some goal → goal < cur + 5 → cur < goal + 5 → exec .avsStep s = go goal)) ∧
  (∀ mv s,
    let d1 := { s.d with avsFails := 0 }.setFld F.AVS_STAT_VREAD mv 0
    let near := 10 * mv ≤ 11 * d1.vset ∧ 9 * d1.vset ≤ 10 * mv
    (near → exec (.avsTelemetry true mv) s = .next (s.withSafe d1)) ∧
    (¬ near → exec (.avsTelemetry true mv) s = .next (s.withSafe (d1.railFault s.clk.tick 4))) ∧
    (s.d.avsFails ≠ 2 →
      exec (.avsTelemetry false mv) s = .next (s.withSafe { s.d with avsFails := s.d.avsFails + 1 })) ∧
    (s.d.avsFails = 2 →
      exec (.avsTelemetry false mv) s = .next (s.withSafe ({ s.d with avsFails := 0 }.bump (R.AVS_ERR_CNT.at 0)))))

/-- Flash commands, the pair of always-on domains, row repair (18 R500, R513, 20 R548, 01 R24). With WEN set and the block idle in Q0 or
Q3, PROGRAM, ERASE and BLANKCHK start; without WEN they end PROTECTED, on the armed dump half REFUSED, elsewhere or while BUSY they are
refused; a program ends OK and writes its word only where it is erased; an erase leaves the sector as erased; a blank check tells whether
it is. An ordered failover, refused without a healthy standby or after a release, and missing heartbeats release the outputs, whose last
levels stay held; a healthy standby takes over in Q3; heartbeats are counted, and the loss of the standby's health is raised; none of this
happens again after a takeover. A row repair of the own quarter starts, one while BUSY or elsewhere ends so, and its completion shows the
result. The model's own choices are log entries 84, 90, 110. -/
def Obligations.FlashAndStandby : Prop :=
  (∀ m q cmd row s, m.oid = 0 →
    (row = Instr.program m q ∧ cmd = 1) ∨ (row = .erase m q ∧ cmd = 2) ∨ (row = .blankchk m q ∧ cmd = 3) →
    let word := s.d.fld F.FLS_ADDR_WORD q
    let free := (q = 0 ∨ q = 3) ∧ s.d.flag F.FLS_STAT_BUSY q = false
    let wen := s.d.flag F.FLS_CTRL_WEN q = true
    let dumps := cmd ≠ 3 ∧ s.d.inArmedHalf q word cmd = true
    (¬ free → exec row s = .next { s with d := s.d.refuse m (R.FLS_CMD.at q) }) ∧
    (free → ¬ wen → exec row s = .next { s with d := (s.d.setFld F.FLS_STAT_RESULT 4 q).okay }) ∧
    (free → wen → dumps → exec row s = .next { s with d := (s.d.setFld F.FLS_STAT_RESULT 3 q).okay }) ∧
    (free → wen → ¬ dumps → exec row s = .next { s with
      d := ({ s.d with fls := nset none s.d.fls q (some ⟨cmd, word, s.d.flsData q⟩) }.setFld F.FLS_STAT_BUSY 1 q).okay })) ∧
  (∀ q s,
    let o := nget none s.d.fls q
    (o = none → exec (.flsCommandDone q) s = .next s) ∧
    (∀ c, o = some c →
      let d1 := { s.d with fls := nset none s.d.fls q none }.setFld F.FLS_STAT_BUSY 0 q
      let a := flashBase q + c.word * 32
      let sector := flashBase q + c.word / 1024 * 0x8000
      let out (d : Dev) (res : Nat) : Host.Outcome State Fault Refusal := .next { s with d := d.setFld F.FLS_STAT_RESULT res q }
      let done := exec (.flsCommandDone q) s
      (c.cmd = 1 → d1.erased a 32 = true → done = out (d1.setMemN a 32 c.data) 1) ∧
      (c.cmd = 1 → d1.erased a 32 = false → done = out d1 2) ∧
      (c.cmd = 2 → done = out (d1.zeroMem sector 0x8000) 1) ∧
      (c.cmd = 3 → d1.erased sector 0x8000 = true → done = out (d1.setFld F.FLS_STAT_BLANK 1 q) 1) ∧
      (c.cmd = 3 → d1.erased sector 0x8000 = false → done = out (d1.setFld F.FLS_STAT_BLANK 0 q) 1))) ∧
  (∀ m v s, m.oid = 0 →
    let key := bitsOf v 31 16 = 0xA0F5
    let may := s.d.flag F.AO_STATUS_STBY_OK 0 = true ∧ s.d.failedOver = false ∧ s.d.aoFree = false
    (¬ key → exec (.aoFailover m v) s = .next { s with d := s.d.refuse m (R.AO_FAILOVER.at 0) }) ∧
    (key → v % 2 = 0 → exec (.aoFailover m v) s = .next { s with d := s.d.okay }) ∧
    (key → v % 2 = 1 → ¬ may → exec (.aoFailover m v) s = .next { s with d := s.d.refuse m (R.AO_FAILOVER.at 0) }) ∧
    (key → v % 2 = 1 → may → exec (.aoFailover m v) s
      = .next { s with d := { s.d with aoFree := true, ballHold := s.d.ballLevels }.okay })) ∧
  (∀ s,
    let off := s.d.sysHalt = true ∨ s.d.failedOver = true ∨ s.d.aoFree = true
    (off → exec .heartbeatTimeout s = .next s) ∧
    (¬ off → exec .heartbeatTimeout s = .next { s with d := { s.d with aoFree := true, ballHold := s.d.ballLevels } })) ∧
  (∀ toLive toStandby healthy s,
    let sb := nget 0 s.d.hb 0
    let lv := nget 0 s.d.hb 1
    let row := Instr.heartbeat toLive toStandby healthy
    ∀ d1 d2, (toStandby = true → d1 = { s.d with hb := nset 0 s.d.hb 0 ((sb + 1) % 65536) }) → (toStandby = false → d1 = s.d) →
      (toLive = true → d2 = { d1 with hb := nset 0 d1.hb 1 ((lv + 1) % 65536) }.setRegN (R.AO_HBSTAT.at 0)
        ((lv + 1) % 65536 * 65536 + sb)) → (toLive = false → d2 = d1) →
      (s.d.failedOver = true → exec row s = .next s) ∧
      (s.d.failedOver = false → healthy = true → exec row s = .next { s with d := d2.setFld F.AO_STATUS_STBY_OK 1 0 }) ∧
      (s.d.failedOver = false → healthy = false → d2.flag F.AO_STATUS_STBY_OK 0 = false →
        exec row s = .next { s with d := d2.setFld F.AO_STATUS_STBY_OK 0 0 }) ∧
      (s.d.failedOver = false → healthy = false → d2.flag F.AO_STATUS_STBY_OK 0 = true →
        exec row s = .next { s with d := (d2.setFld F.AO_STATUS_STBY_OK 0 0).raiseFailover })) ∧
  (∀ s,
    let takes := s.d.aoFree = true ∧ s.d.failedOver = false ∧ s.d.flag F.AO_STATUS_STBY_OK 0 = true
    let pf := s.d.regN (R.MSQ_PFSTAT.at 0)
    let armed := if s.d.dump = none then bitsOf pf 29 28 * 2 ^ 28 + pf % 4096 else 0
    let d1 := ((s.d.setFld F.AO_STATUS_FAILED_OVER 1 0).setFld F.AO_STATUS_LIVE 3 0).setFld F.AO_STATUS_STBY_OK 0 0
    let d2 := { d1 with dump := none }.setRegN (R.MSQ_PFSTAT.at 3) (bitsOf pf 31 30 * 2 ^ 30 + armed)
    let d3 := d2.setReg (R.MSQ_OPCAP.at 3) (d2.reg (R.MSQ_OPCAP.at 0))
    let d4 := (d3.setReg (R.MSQ_OPDARM.at 3) (d2.reg (R.MSQ_OPDARM.at 0))).countTokens
    (takes → exec .takeover s = .next { s with d := d4.raiseFailover }) ∧ (¬ takes → exec .takeover s = .next s)) ∧
  (∀ m q v s, m.oid = 0 →
    let busy := s.d.flag F.FLT_PPR_STAT_BUSY q = true
    let mine := isHbm (bitsOf v 47 6 * 64) = true ∧ homeOf (bitsOf v 47 6 * 64) = q
    let go := v.testBit 63 = true
    (¬ go → exec (.fltPprCmd m q v) s = .next { s with d := s.d.okay }) ∧
    (go → busy → exec (.fltPprCmd m q v) s = .next { s with d := (s.d.setFld F.FLT_PPR_STAT_RESULT 3 q).okay }) ∧
    (go → ¬ busy → ¬ mine → exec (.fltPprCmd m q v) s = .next { s with d := (s.d.setFld F.FLT_PPR_STAT_RESULT 4 q).okay }) ∧
    (go → ¬ busy → mine → exec (.fltPprCmd m q v) s = .next { s with
      d := ({ s.d with ppr := nset none s.d.ppr q (some v) }.setRegN (R.FLT_PPR_STAT.at q) (2 ^ 31)).okay })) ∧
  (∀ q res s,
    let ends := nget none s.d.ppr q ≠ none ∧ (res = 1 ∨ res = 2 ∨ res = 5)
    (ends → exec (.pprComplete q res) s = .next { s with
      d := { s.d with ppr := nset none s.d.ppr q none }.setRegN (R.FLT_PPR_STAT.at q) res }) ∧
    (¬ ends → exec (.pprComplete q res) s = .next s))

/-- Serial interfaces (24 R617, R618; 17 R495) and the pads of the SER block (01 R24, 18 R510, 22 R588). A byte written to a UART with
room queues and one written to a full FIFO is dropped and shown; a received byte enters the FIFO, with its errors shown, or is dropped and
shown; a read pops the oldest, an empty FIFO reads 0 and held pins count an error; a sent byte leaves. SPI and I3C transfers start on GO,
are refused without EN, while BUSY or with a length out of range, and end with the bytes received. Under CONF_ERR the pads carry nothing:
UART_TX and CS_N are high and the others high-Z; while their quarter is held they idle. A host link that equalised again records the
temperature. The model's own choice is log entry 89. -/
def Obligations.SerialUnits : Prop :=
  (∀ m u v s, m.oid = 0 →
    let x := s.d.uartOf u
    (x.tx.length < 64 → exec (.uartTx m u v) s
      = .next { s with d := (s.d.setUart u { x with tx := x.tx ++ [BitVec.ofNat 8 v] }).okay }) ∧
    (64 ≤ x.tx.length → exec (.uartTx m u v) s = .next { s with d := (s.d.setBit (R.UART_STAT.at 0 u) 31 true).okay }) ∧
    (s.d.pinHeld u = true → exec (.uartRx m u) s = .next { s with d := (s.d.bump (R.SER_ERR.at 0)).answer .okay 0 }) ∧
    (s.d.pinHeld u = false → x.rx = [] → exec (.uartRx m u) s = .next { s with d := s.d.answer .okay 0 }) ∧
    (∀ b r, s.d.pinHeld u = false → x.rx = b :: r → exec (.uartRx m u) s
      = .next { s with d := (s.d.setUart u { x with rx := r }).answer .okay (BitVec.ofNat 64 (256 + b.toNat)) })) ∧
  (∀ u byte par frm s,
    let x := s.d.uartOf u
    let stat := R.UART_STAT.at 0 u
    let bad := par = true ∧ (s.d.reg (R.UART_CFG.at 0 u)).getLsbD 30 = true
    ∀ d1 d2, (bad → d1 = s.d.setBit stat 29 true) → (¬ bad → d1 = s.d) → (frm = true → d2 = d1.setBit stat 28 true) →
      (frm = false → d2 = d1) →
      (s.d.uartOn u = false → exec (.uartByteReceived u byte par frm) s = .next s ∧ exec (.uartByteSent u) s = .next s) ∧
      (s.d.uartOn u = true → 64 ≤ x.rx.length →
        exec (.uartByteReceived u byte par frm) s = .next { s with d := d2.setBit stat 30 true }) ∧
      (s.d.uartOn u = true → x.rx.length < 64 → exec (.uartByteReceived u byte par frm) s
        = .next { s with d := d2.setUart u { x with rx := x.rx ++ [BitVec.ofNat 8 byte] } }) ∧
      (s.d.uartOn u = true → x.tx = [] → exec (.uartByteSent u) s = .next s) ∧
      (∀ b r, s.d.uartOn u = true → x.tx = b :: r → exec (.uartByteSent u) s
        = .next { s with d := (s.d.setUart u { x with tx := r }).serSend (.uart u b.toNat) })) ∧
  (∀ m sp v s, m.oid = 0 →
    let go := v.testBit 31 = true
    let len := v % 512
    let fits := nget none s.d.spi sp = none ∧ len ≠ 0 ∧ len ≤ 256 ∧ (s.d.reg (R.SPI_CFG.at 0 sp)).getLsbD 31 = true
    let held := s.d.pinHeld (spiQuarter sp) = true
    let d1 : Dev := { s.d with spi := nset none s.d.spi sp (some (len, v.testBit 24)), spiKeep := nset false s.d.spiKeep sp (v.testBit 24) }
    (¬ go → exec (.spiCmd m sp v) s = .next { s with d := s.d.okay }) ∧
    (go → ¬ fits → exec (.spiCmd m sp v) s = .next { s with d := s.d.refuse m (R.SPI_CMD.at 0 sp) }) ∧
    (go → fits → held → exec (.spiCmd m sp v) s = .next { s with d := (s.d.bump (R.SER_ERR.at 0)).okay }) ∧
    (go → fits → ¬ held → exec (.spiCmd m sp v) s = .next { s with
      d := ((d1.setBit (R.SPI_STAT.at 0 sp) 31 true).serSend (.spi sp (s.d.serBytes (spiData sp) len))).okay })) ∧
  (∀ sp rx s,
    (∀ t, nget none s.d.spi sp = some t → rx.length = t.1 → exec (.spiTransferDone sp rx) s = .next { s with
      d := ({ s.d with spi := nset none s.d.spi sp none }.setBit (R.SPI_STAT.at 0 sp) 31 false).setSerBytes (spiData sp) rx }) ∧
    ((∀ t, nget none s.d.spi sp = some t → rx.length ≠ t.1) → exec (.spiTransferDone sp rx) s = .next s)) ∧
  (∀ m v s, m.oid = 0 →
    let go := v.testBit 31 = true
    let len := v % 128
    let fits := s.d.i3c = none ∧ len ≠ 0 ∧ len ≤ 64 ∧ (s.d.reg (R.I3C0_CFG.at 0)).getLsbD 31 = true
    let d1 := { s.d with i3c := some v }.setRegN (R.I3C0_STAT.at 0) (2 ^ 31)
    let bytes := if v.testBit 30 then [] else s.d.serBytes i3cData len
    (¬ go → exec (.i3c0Cmd m v) s = .next { s with d := s.d.okay }) ∧
    (go → ¬ fits → exec (.i3c0Cmd m v) s = .next { s with d := s.d.refuse m (R.I3C0_CMD.at 0) }) ∧
    (go → fits → exec (.i3c0Cmd m v) s = .next { s with d := (d1.serSend (.i3c (v % 2 ^ 31) bytes)).okay })) ∧
  (∀ res rx s,
    (∀ v, s.d.i3c = some v → 0 < res → res ≤ 3 →
      let d1 := { s.d with i3c := none }.setRegN (R.I3C0_STAT.at 0) res
      (v.testBit 30 = true → res = 1 →
        exec (.i3cTransferDone res rx) s = .next { s with d := d1.setSerBytes i3cData (rx.take (v % 128)) }) ∧
      (v.testBit 30 = false ∨ res ≠ 1 → exec (.i3cTransferDone res rx) s = .next { s with d := d1 })) ∧
    (s.d.i3c = none ∨ res = 0 ∨ 3 < res → exec (.i3cTransferDone res rx) s = .next s)) ∧
  (∀ (d : Dev) (o : OutMsg) (p : SerPad),
    (d.confFailed = true → d.serSend o = d ∧ ((∃ u, p = .uartTx u) ∨ (∃ sp, p = .spiCsN sp) → d.serPad p = .high) ∧
      ((∀ u, p ≠ .uartTx u) → (∀ sp, p ≠ .spiCsN sp) → d.serPad p = .hiZ .none)) ∧
    (d.confFailed = false → d.serSend o = d.send o ∧ (d.pinHeld p.quarter = true → d.serPad p = p.idle)) ∧
    (∀ i, d.confFailed = false → d.pinHeld (i / 4) = false →
      ((d.reg (R.GPIO_OE.at 0)).getLsbD i = true → (d.reg (R.GPIO_OUT.at 0)).getLsbD i = true → d.serPad (.gpio i) = .high) ∧
      ((d.reg (R.GPIO_OE.at 0)).getLsbD i = true → (d.reg (R.GPIO_OUT.at 0)).getLsbD i = false → d.serPad (.gpio i) = .low) ∧
      ((d.reg (R.GPIO_OE.at 0)).getLsbD i = false → d.serPad (.gpio i) = .hiZ .down)) ∧
    (∀ sp, d.confFailed = false → d.pinHeld (spiQuarter sp) = false →
      (d.serPad (.spiCsN sp) = .low ↔ nget none d.spi sp ≠ none ∨ nget false d.spiKeep sp = true))) ∧
  (∀ L s,
    let d1 := s.d.bump (linkReg L .HIF_RECOV_CNT)
    (s.d.linkState L = 3 → exec (.linkEqualisationComplete L) s = .next { s with
      d := (d1.setFld F.CAL_HLINK_TTEMP (d1.fld F.PWR_TQ_TQ (L / 8)) (L / 8) (L % 8)).setBit (R.CAL_RTDUE.at (L / 8)) (16 + L % 8)
        false }) ∧
    (s.d.linkState L ≠ 3 → exec (.linkEqualisationComplete L) s = .next s))

/-- Halts, steps, trigger rules and core state (21 R565–R571, R577). The debug port and, for cores, the owner halt, run and step cores;
the debug port halts, runs and steps the system, but in safe stop and under CONF_ERR nothing happens, and a step of 0 rounds is reserved;
a step's end halts it again; a rule whose input is XT_FIRE is fired by a 1. The general registers, the floating-point registers and the
CSRs of a halted core are read and written; those of a core that runs, and what the selection does not name, answer SLVERR. Another
owner's write of the system's commands or of a trigger is dropped with SOURCE. The model's own choices are log entries 86, 88. -/
def Obligations.DebugHalts : Prop :=
  (∀ m q v s, m.mid = 0x4C0 ∨ m.oid = 0 →
    exec (.coreHalt m q v) s = .next { s with d := ((maskCores q v).foldl (fun x n => x.haltCore n) s.d).okay } ∧
    exec (.coreRun m q v) s = .next { s with d := ((maskCores q v).foldl (fun x n => x.runCore n) s.d).okay } ∧
    exec (.coreStep m q v) s = .next { s with d := ((maskCores q v).foldl (fun x n =>
      if (x.core n).halted then x.setCore n { x.core n with step := true } else x) s.d).okay }) ∧
  (∀ m v s, m.mid = 0x4C0 →
    let stopped := s.d.safe = true ∨ s.d.confFailed = true
    let halt1 := (upTo 64).foldl (fun x n => x.haltCore n) (s.d.setSysHalt true)
    let goes (d : Dev) : Dev := ((upTo 64).foldl (fun x n => x.runCore n) (d.setSysHalt false)).releaseKept s.clk.tick
    (stopped → exec (.systemHalt m v) s = .next { s with d := s.d.okay } ∧ exec (.systemRun m v) s = .next { s with d := s.d.okay }) ∧
    (¬ stopped → exec (.systemHalt m v) s
      = .next { s with d := ((upTo 4).foldl (fun (x : Dev) q => x.raise q 0x040) { halt1 with haltLeft := 0 }).okay }) ∧
    (¬ stopped → s.d.sysHalt = false → exec (.systemRun m v) s = .next { s with d := s.d.okay }) ∧
    (¬ stopped → s.d.sysHalt = true →
      exec (.systemRun m v) s = .next { s with d := (goes { s.d with haltLeft := 0 }).okay }) ∧
    (stopped → v % 65536 ≠ 0 → exec (.systemStep m v) s = .next { s with d := s.d.okay }) ∧
    (¬ stopped → v % 65536 ≠ 0 →
      exec (.systemStep m v) s = .next { s with d := (goes { s.d with haltLeft := v % 65536 + 1 }).okay }) ∧
    (v % 65536 = 0 →
      exec (.systemStep m v) s = .next { s with d := (s.d.logWrite m (R.DBG_SHALT.at 0) .reserved).okay })) ∧
  (∀ m v r s, m.mid ≠ 0x4C0 → m.oid = 0 →
    let no (x : RKey) : Host.Outcome State Fault Refusal := .next { s with d := s.d.refuseSource m x }
    exec (.systemHalt m v) s = no (R.DBG_SHALT.at 0) ∧ exec (.systemRun m v) s = no (R.DBG_SHALT.at 0) ∧
    exec (.systemStep m v) s = no (R.DBG_SHALT.at 0) ∧ exec (.xtFire m r v) s = no (R.XT_FIRE.at 0 r)) ∧
  (∀ s,
    (s.d.haltLeft = 1 → exec .stepCountEnd s = .next { s with d := { s.d with haltLeft := 0 }.haltSystem }) ∧
    (s.d.haltLeft ≠ 1 → exec .stepCountEnd s = .next s)) ∧
  (∀ m r v s, m.mid = 0x4C0 →
    let fires := v.testBit 0 = true ∧ r < 4 ∧ getBits (s.d.reg (R.XT_IN.at 0 r)) 2 0 = 4
    (fires → exec (.xtFire m r v) s = .next { s with d := (s.d.fireRule s.clk r).okay }) ∧
    (¬ fires → exec (.xtFire m r v) s = .next { s with d := s.d.okay })) ∧
  (∀ m q w v s, m.oid = 0 →
    let sel := s.d.reg (R.DBG_CREG_SEL.at q)
    let n := q * 16 + getBits sel 31 28
    let bank := getBits sel 22 20
    let kind := getBits sel 27 26
    let idx := getBits sel 11 0
    let c := s.d.core n
    let val : Word := BitVec.ofNat 64 v
    let row := Instr.dbgCregData m q w v
    let csr := s.d.csrRead s.clk n idx
    let none' := c.halted = false ∨ kind = 3 ∨ (kind = 0 ∧ 31 < idx) ∨ (kind = 1 ∧ 32 < idx) ∨ (kind = 2 ∧ csr = none)
    (none' → exec row s = .next { s with d := s.d.slverr m (R.DBG_CREG_DATA.at q) }) ∧
    (c.halted = true → kind = 0 → idx ≤ 31 →
      (w = false → exec row s = .next { s with d := s.d.answer .okay (c.read bank idx) }) ∧
      (w = true → idx = 0 →
        exec row s = .next { s with d := (s.d.setCore n (c.setWord bank 0 (val &&& BitVec.ofNat 64 stateMask))).okay }) ∧
      (w = true → idx ≠ 0 → exec row s = .next { s with d := (s.d.setCore n (c.setWord bank idx val)).okay })) ∧
    (c.halted = true → kind = 1 → idx ≤ 32 →
      (w = false → exec row s = .next { s with d := s.d.answer .okay (nget 0 c.fp idx) }) ∧
      (w = true → idx ≠ 32 → exec row s = .next { s with d := (s.d.setCore n { c with fp := nset 0 c.fp idx val }).okay }) ∧
      (w = true → idx = 32 →
        exec row s = .next { s with d := (s.d.setCore n { c with fp := nset 0 c.fp 32 (val &&& 0xFF) }).okay })) ∧
    (∀ r, c.halted = true → kind = 2 → csr = some r →
      (w = false → exec row s = .next { s with d := r.2.answer .okay r.1 }) ∧
      (w = true → exec row s = .next { s with d := (s.d.setCore n (c.csrWrite idx val)).okay })))

/-- Captures, patch units and block locks (21 R572–R574, R577; 24 R611). An idle capture is armed where its edge lies ahead, is taken at
once where the system is halted at it, and fails where it has passed; one that is not idle stays with RESULT 3; it is taken at the edge
whose DTIME is E, unloaded to HBM or streamed word by word, which is refused without a taken capture, or disarmed; the last word read ends
it, and the flip-flops' words are free values; CAP_DATA reads 0 without a stream; a patch unit takes its control word; a 1 sets LOCK, and
only the debug port locks the DBG block. Another owner's write of the DBG block is dropped with SOURCE. The model's own choice is log
entry 87. -/
def Obligations.Captures : Prop :=
  (∀ m v s, m.mid = 0x4C0 →
    let e := s.d.regN (R.CAP_DTIME.at 0)
    let st := s.d.capState
    let here := s.d.sysHalt = true ∧ e = s.clk.dtime
    (st ≠ 0 → exec (.arm m v) s = .next { s with d := (s.d.setCap st 3).okay }) ∧
    (st = 0 → e < s.clk.dtime → exec (.arm m v) s = .next { s with d := (s.d.setCap 0 2).okay }) ∧
    (st = 0 → s.clk.dtime ≤ e → ¬ here → exec (.arm m v) s = .next { s with d := (s.d.setCap 1 0).okay }) ∧
    (st = 0 → here → exec (.arm m v) s = .next { s with d := ((s.d.setCap 1 0).takeCapture s.clk).okay }) ∧
    (st = 1 → exec (.disarm m v) s = .next { s with d := (s.d.setCap 0 0).okay }) ∧
    (st ≠ 1 → exec (.disarm m v) s = .next { s with d := s.d.okay })) ∧
  (∀ s,
    let due := s.d.capState = 1 ∧ s.clk.runs = true ∧ s.clk.cyc < 64 ∧ s.clk.dtime = s.d.regN (R.CAP_DTIME.at 0)
    (due → exec .captureTaken s = .next { s with d := { s.d.setCap 2 0 with
      capture := some ⟨s.clk.dtime, s.clk.tick, (upTo 4).map (fun q => s.d.onMask q), 0, none⟩ } }) ∧
    (¬ due → exec .captureTaken s = .next s)) ∧
  (∀ m v s, m.mid = 0x4C0 →
    let st := s.d.capState
    let no : Host.Outcome State Fault Refusal := .next { s with d := s.d.refuse m (R.CAP_CTRL.at 0) }
    (s.d.capture = none → exec (.dma m v) s = no ∧ exec (.stream m v) s = no) ∧
    (∀ c, s.d.capture = some c →
      let selects := st = 2 ∨ (st = 3 ∧ c.quarter ≠ none)
      (st = 2 → exec (.dma m v) s
        = .next { s with d := { s.d.setCap 3 0 with capture := some { c with quarter := none } }.okay }) ∧
      (st ≠ 2 → exec (.dma m v) s = no) ∧
      (selects → exec (.stream m v) s
        = .next { s with d := { s.d.setCap 3 0 with capture := some { c with quarter := some (v % 4), read := 0 } }.okay }) ∧
      (¬ selects → exec (.stream m v) s = no))) ∧
  (∀ s,
    (s.d.capture = none → exec .unloadDone s = .next s) ∧
    (∀ c, s.d.capture = some c →
      let unloads := s.d.capState = 3 ∧ c.quarter = none
      let r := s.d.dmaAll c (s.d.regN (R.CAP_BASE.at 0)) (upTo 4)
      (unloads → r.2 = true → exec .unloadDone s = .next { s with d := { r.1.setCap 0 1 with capture := none } }) ∧
      (unloads → r.2 = false → exec .unloadDone s = .next { s with d := { r.1.setCap 0 4 with capture := none } }) ∧
      (¬ unloads → exec .unloadDone s = .next s))) ∧
  (∀ m s, m.oid = 0 →
    let none' := s.d.capture = none ∨ ∃ c, s.d.capture = some c ∧ c.quarter = none
    (none' → exec (.capData m) s = .next { s with d := s.d.answer .okay 0 }) ∧
    (∀ c q, s.d.capture = some c → c.quarter = some q →
      let d1 : Dev := { s.d with capture := some { c with read := c.read + 1 } }
      let last (d : Dev) : Dev := if Config.fuseCapSize.toNat / 4 ≤ c.read + 1 then { d.setCap 0 1 with capture := none } else d
      (c.read < 16 → exec (.capData m) s
        = .next { s with d := (last d1).answer .okay (BitVec.ofNat 64 (c.headWord q c.read)) }) ∧
      (16 ≤ c.read → exec (.capData m) s
        = .next { s with d := (last d1.fresh.2).answer .okay (BitVec.ofNat 64 (d1.fresh.1.toNat % 2 ^ 32)) }))) ∧
  (∀ m q u v s,
    let may := m.mid = 0x4C0 ∨ (m.oid = 0 ∧ (s.d.reg (R.DBG_CTRL.at q)).getLsbD 0 = true)
    (may → exec (.patchCtl m q u v) s = .next { s with d := (s.d.setRegN (R.PATCH_CTL.at q u) (v &&& 0x8103FFFF)).okay }) ∧
    (m.oid = 0 → ¬ may → exec (.patchCtl m q u v) s = .next { s with d := s.d.refuseSource m (R.PATCH_CTL.at q u) })) ∧
  (∀ m v s, m.mid ≠ 0x4C0 → m.oid = 0 →
    let no : Host.Outcome State Fault Refusal := .next { s with d := s.d.refuseSource m (R.CAP_CTRL.at 0) }
    exec (.arm m v) s = no ∧ exec (.disarm m v) s = no ∧ exec (.dma m v) s = no ∧ exec (.stream m v) s = no) ∧
  (∀ m q code v s, m.oid = 0 →
    let x := R.BLK_LOCK.at q code
    let here := code = 0xF0 ∨ blockIn q code = true
    let may := code ≠ 0x28 ∨ m.mid = 0x4C0
    (here → may → v % 2 = 1 → exec (.blkLock m q code v) s = .next { s with d := (s.d.setRegN x 1).okay }) ∧
    (here → may → v % 2 = 0 → exec (.blkLock m q code v) s = .next { s with d := s.d.okay }) ∧
    (here → ¬ may → exec (.blkLock m q code v) s = .next { s with d := s.d.refuseSource m x }) ∧
    (¬ here → exec (.blkLock m q code v) s = .next { s with d := s.d.refuse m x }))

/-- Requests of masters (09 R249, R252, R256–R258, R261, 13 R364, R377, 19 R527, 20 R549–R552, 24 R607–R609). A request carries the OID of
its master; one that its master must hold back is held, with `fence` behind what is outstanding; one that meets a basking domain wakes it
and waits. At its target a register access whose route is down is answered SLVERR, one in a hole DECERR, one of another owner SLVERR; an
absent block reads 0 and refuses writes; a burst and an unaligned access are logged; an access of the register's own width by the owner
acts as the register's row or access code says; a reserved offset reads 0 and drops writes; a narrow write is refused, a narrow read gives
its bytes, but of a register whose read acts 0; 8 bytes over 32-bit registers are two accesses, the low word first. A burst to memory is
performed and answered, one to tile memory queues at its bank, one of a bad shape is none. A request on a BAR of an open function is
served, the outcomes of a read are logged in AER and a posted write is never answered; one that does not answer is Unsupported Request. In
a system halt only the debug port's requests run. A write, or an acting read, of a register by a master with another OID is answered
SLVERR. The model's own choices are log entries 12, 13, 14, 15, 106, 139, 141. -/
def Obligations.Requests : Prop :=
  (∀ a0 e fence row s, s.d.sysHalt = false ∨ a0.m.mid = 0x4C0 →
    let isReg := isQReg a0.addr = true ∨ isAo a0.addr = true
    (row = Instr.nocRequest a0 e fence) ∨ (row = .registerWrite a0 ∧ e = .none ∧ fence = false ∧ isReg) →
    let a := s.d.issued a0
    let mid := a0.m.mid
    ∀ d0, (fence = true → d0 = { s.d with fences := nset false s.d.fences mid (s.d.outstanding mid) }) →
      (fence = false → d0 = s.d) →
      let free := d0.mustHold a = false ∧ d0.baskingOn a = []
      (d0.mustHold a = true → exec row s = .next { s with d := { d0 with held := d0.held ++ [⟨a, false, e⟩] } }) ∧
      (∀ x r, d0.mustHold a = false → d0.baskingOn a = x :: r →
        let d1 := (x :: r).foldl (fun y w => y.startWake w.1 w.2) d0
        exec row s = .next { s with d := { d1 with
          waiters := d1.waiters ++ [⟨x.1, x.2, a, d0.freeTag mid, d0.epochOf mid⟩] } }) ∧
      (free → ¬ isReg → burstOk a0 = false → exec row s = .next { s with d := d0 }) ∧
      (free → ¬ isReg → burstOk a0 = true → isTmem a0.addr = true →
        exec row s = .next { s with d := d0.tmemQueue a (d0.freeTag mid) (d0.epochOf mid) }) ∧
      (free → ¬ isReg → burstOk a0 = true → isTmem a0.addr = false →
        exec row s = .next { s with d := (d0.memAcc s.clk a e).1.reply (d0.memAcc s.clk a e).2 }) ∧
      (∀ t, free → isReg → d0.targetQ a0.addr = some t →
        let ao := isAo a0.addr
        let q := if ao then d0.liveQ else (a0.addr - 0xF000000000) / 2 ^ 24
        let o := a0.addr % 2 ^ 24
        let up := d0.routeOk (d0.midQuarter mid) t = true
        let there := up ∧ (ao = true ∨ inHole o = false)
        let mine := there ∧ a.m.oid = 0
        let present := mine ∧ (ao = true ∨ absentAt q o = false)
        let absent := mine ∧ ao = false ∧ absentAt q o = true
        let n := a0.size
        let w := a0.write
        let zeros := List.replicate (if w then 0 else n) (0 : Byte)
        let nocErr (d : Dev) : Host.Outcome State Fault Refusal := .next { s with
          d := (d.nocErr q mid a0.addr .slverr).answer .slverr 0 }
        let log (k : AErr) : Dev := d0.accessErr k q mid w (if k = .burst then 3 else sizeLog n) o ao
        let sized := present ∧ n ≤ 8 ∧ [1, 2, 4, 8].contains n = true ∧ o % n = 0
        let reg := if ao then aoRegAt o else d0.qRegAt q o
        (¬ up → exec row s = .next { s with d := (d0.nocErr t mid a0.addr .slverr).reply ⟨.slverr, zeros⟩ }) ∧
        (up → ao = false → inHole o = true →
          exec row s = .next { s with d := (d0.nocErr q mid a0.addr .decerr).answer .decerr 0 }) ∧
        (there → a.m.oid ≠ 0 → exec row s = nocErr d0) ∧
        (absent → w = true → exec row s = nocErr (d0.accessErr .refused q mid true (sizeLog n) o ao)) ∧
        (absent → w = false → exec row s = .next { s with d := d0.answer .okay 0 }) ∧
        (present → 8 < n → exec row s = nocErr (log .burst)) ∧
        (present → n ≤ 8 → [1, 2, 4, 8].contains n = false ∨ o % n ≠ 0 →
          exec row s = nocErr (log (if w then .unalignedWrite else .unalignedRead))) ∧
        (sized → n ≠ 8 → reg = none → exec row s = .next { s with d := d0.answer .okay 0 }) ∧
        (∀ x, sized → reg = some x → n = regBytes x →
          (w = true → exec row s = .next { s with d := d0.regWrite a.m x (a0.data % 256 ^ n) s.clk }) ∧
          (w = false → exec row s = .next { s with d := d0.regRead a.m x s.clk })) ∧
        (∀ x, sized → reg = some x → n < regBytes x →
          (w = true → x.r ≠ .FN_PBA ∨ n ≠ 4 → exec row s = nocErr (log .narrowWrite)) ∧
          (w = false → d0.readActs a.m x = true → exec row s = .next { s with d := (log .narrowRead).answer .okay 0 }) ∧
          (w = false → d0.readActs a.m x = false →
            let d1 := d0.regRead a.m x s.clk
            let bytes := BitVec.ofNat 64 (d1.out.data.toNat / 256 ^ (o % regBytes x) % 256 ^ n)
            exec row s = .next { s with d := d1.answer d1.out.code bytes })) ∧
        (sized → n = 8 → (∀ x, reg = some x → regBytes x ≠ 8) →
          let find (d : Dev) (i : Nat) : Option RKey := if ao then aoRegAt i else d.qRegAt q i
          let part (d : Dev) (i v : Nat) : Dev := d.onePart a.m (find d (o + i)) ⟨q, ao, o + i⟩ (some (a0.addr + i)) 4 w v s.clk
          let lo := part d0 0 (a0.data % 2 ^ 32)
          let hi := part lo 4 (a0.data / 2 ^ 32 % 2 ^ 32)
          let word := if w then 0 else BitVec.ofNat 64 (hi.out.data.toNat % 2 ^ 32 * 2 ^ 32 + lo.out.data.toNat % 2 ^ 32)
          exec row s = .next { s with d := hi.answer (lo.out.code.worse hi.out.code) word }))) ∧
  (∀ a e fence s,
    (s.d.sysHalt = true → a.m.mid ≠ 0x4C0 →
      exec (.nocRequest a e fence) s = .next s ∧ exec (.registerWrite a) s = .next s) ∧
    (isQReg a.addr = false → isAo a.addr = false → exec (.registerWrite a) s = .next s)) ∧
  (∀ oid bar off size write data s,
    let row := Instr.barRequest oid bar off size write data
    let hits (L : Nat) := s.d.sysHalt = false ∧ s.d.linkOf oid = some L ∧ s.d.fnReached oid = true ∧ off < s.d.barSize oid bar ∧ size ≠ 0
    let alive (L : Nat) := s.d.domCur (L / 8) 16 ≠ 2 ∧ s.d.inReset (L / 8) = false
    ((∀ L, ¬ hits L) → exec row s = .next s) ∧
    (∀ L, hits L → s.d.barOpen oid = false →
      (write = true → exec row s = .next { s with d := s.d.fnError L oid 20 }) ∧
      (write = false → exec row s = .next { s with d := (s.d.answer .decerr 0).fnError L oid 20 })) ∧
    (∀ L, hits L → s.d.barOpen oid = true →
      let x := s.d.barServe L oid bar off size write data s.clk
      let silent (d : Dev) : Dev := { d with
        out := { d.out with code := s.d.out.code, data := s.d.out.data, burst := s.d.out.burst } }
      (¬ alive L → write = false → exec row s = .next { s with d := (s.d.answer .slverr 0).fnError L oid 15 }) ∧
      (¬ alive L → write = true → exec row s = .next { s with d := silent (s.d.answer .slverr 0) }) ∧
      (alive L → write = true → exec row s = .next { s with d := silent x }) ∧
      (alive L → write = false → x.out.code = .slverr → exec row s = .next { s with d := x.fnError L oid 15 }) ∧
      (alive L → write = false → x.out.code = .decerr → exec row s = .next { s with d := x.fnError L oid 20 }) ∧
      (alive L → write = false → x.out.code ≠ .slverr → x.out.code ≠ .decerr → exec row s = .next { s with d := x }))) ∧
  (∀ m s, m.oid ≠ 0 →
    let no (row : Instr) (x : RKey) : Prop := exec row s = .next { s with d := s.d.slverr m x }
    (∀ c p a b v, no (.define m c p a b) (slotReg (slotId c p) .SLOT_CMD) ∧ no (.undefine m c p) (slotReg (slotId c p) .SLOT_CMD) ∧
      no (.start m c p) (slotReg (slotId c p) .SLOT_CMD) ∧ no (.stopDrain m c p) (slotReg (slotId c p) .SLOT_CMD) ∧
      no (.stopAbort m c p) (slotReg (slotId c p) .SLOT_CMD) ∧ no (.molt m c p) (slotReg (slotId c p) .SLOT_CMD) ∧
      no (.badCmd m c p a) (slotReg (slotId c p) .SLOT_CMD) ∧ no (.slotFoot m c p v) (slotReg (slotId c p) .SLOT_FOOT) ∧
      no (.slotOid m c p v) (slotReg (slotId c p) .SLOT_OID) ∧ no (.slotFrame m c p v) (slotReg (slotId c p) .SLOT_FRAME) ∧
      no (.slotExit m c p v) (slotReg (slotId c p) .SLOT_EXIT) ∧ no (.gfp m c p a v) (cluReg c .GFP p a) ∧
      no (.vpCfg m c a v) (cluReg c .VP_CFG a) ∧ no (.lpb m c a v) (cluReg c .LPB a) ∧ no (.regrow m c a) (cluReg c .CLU_REGROW) ∧
      no (.retire m c) (cluReg c .CLU_REGROW)) ∧
    (∀ q i j v, no (.repair m q i j) (R.REPAIR_CMD.at q i) ∧ no (.retrain m q i j) (R.REPAIR_CMD.at q i) ∧
      no (.dirCfg m q i j v) (R.DIR_CFG.at q i j) ∧ no (.winEnt m q i v) (R.WIN_ENT.at q i) ∧ no (.grpRate m q i v) (R.GRP_RATE.at q i) ∧
      no (.nocWeight m q i v) (R.NOC_WEIGHT.at q i) ∧ no (.jattr m q i v) (senReg q .JATTR i) ∧ no (.senCtrl m q v) (senReg q .SEN_CTRL) ∧
      no (.coreCtrl m q v) (coreReg q .CORE_CTRL) ∧ no (.bnkOwner m q v) (coreReg q .BNK_OWNER)) ∧
    (∀ q i v, no (.dspRepl m q i true v) (R.DSP_REPL_EN.at q i) ∧ no (.dspRepl m q i false v) (R.DSP_REPL.at q i) ∧
      no (.evtClaim m q i) (R.EVT_CLAIM.at q i) ∧ no (.evtSwset m q i v) (R.EVT_SWSET.at q i) ∧
      no (.evtRoute m q i v) (R.EVT_ROUTE.at q i) ∧ no (.evtTmrCtrl m q i v) (R.EVT_TMR_CTRL.at q i) ∧
      no (.evtTmrPeriod m q i v) (R.EVT_TMR_PERIOD.at q i) ∧ no (.mbxLock m q i v) (mbxLock q i) ∧
      no (.mbxHlock m q i v) (mbxLock q (256 + i)) ∧ no (.hifLctrl m q v) (linkReg q .HIF_LCTRL) ∧ no (.qeFwdone m q v) (R.QE_FWDONE.at q)) ∧
    (∀ q i v, no (.msqPost m q v) (mReg q .MSQ_POST) ∧ no (.stop m q v) (mReg q .MSQ_CHCTRL) ∧ no (.wpn m q v) (mReg q .MSQ_CHCTRL) ∧
      no (.msqChcfg m q v) (mReg q .MSQ_CHCFG) ∧ no (.msqRrp m q i v) (R.MSQ_RRP.at q i) ∧ no (.msqOpcap m q v) (R.MSQ_OPCAP.at q) ∧
      no (.msqPfclr m q v) (R.MSQ_PFCLR.at q) ∧ no (.msqOpdarm m q v) (R.MSQ_OPDARM.at q) ∧ no (.tetLctrl m q v) (tetReg q .TET_LCTRL) ∧
      no (.tetRetrain m q v) (tetReg q .TET_LCTRL) ∧ no (.tetMcmd m q v) (tetReg q .TET_MCMD) ∧ no (.calRead m q v) (R.CAL_ECMD.at q) ∧
      no (.calWrite m q v) (R.CAL_ECMD.at q) ∧ no (.calInvalidate m q v) (R.CAL_ECMD.at q) ∧ no (.calFlush m q v) (R.CAL_ECMD.at q) ∧
      no (.calCtrl m q v) (R.CAL_CTRL.at q) ∧ no (.calFrbase m q i v) (R.CAL_FRBASE.at q i)) ∧
    (∀ q i v, no (.program m q) (R.FLS_CMD.at q) ∧ no (.erase m q) (R.FLS_CMD.at q) ∧ no (.blankchk m q) (R.FLS_CMD.at q) ∧
      no (.aoFailover m v) (R.AO_FAILOVER.at 0) ∧ no (.rstQctl m q v) (R.RST_QCTL.at q) ∧ no (.rstClu m q v) (R.RST_CLU.at q) ∧
      no (.domainOn m q i) (R.PWR_DOM.at q i) ∧ no (.domainBask m q i) (R.PWR_DOM.at q i) ∧ no (.domainOff m q i) (R.PWR_DOM.at q i) ∧
      no (.fltPprCmd m q v) (R.FLT_PPR_CMD.at q) ∧ no (.capData m) (R.CAP_DATA.at 0) ∧ no (.blkLock m q i v) (R.BLK_LOCK.at q i) ∧
      no (.uartTx m q v) (R.UART_TX.at 0 q) ∧ no (.uartRx m q) (R.UART_RX.at 0 q) ∧ no (.spiCmd m q v) (R.SPI_CMD.at 0 q) ∧
      no (.i3c0Cmd m v) (R.I3C0_CMD.at 0)))

/-- The course of a boot (18 R504–R509, 19 R518; 01 R24). PORST_N's release starts a boot that tries Q0's flash, Q3's and SPI0 in this
order and fails with 0x11 without an image, unless the self-check or the fuses fail, which end it with their codes; SYSRST_N's release
starts one at stage 2; a release that no assertion preceded does nothing. An image is tried by its first failing check. The PLLs lock, Q0
first; the one of Q0 releases its CC0, the last starts the bridges, and one that does not lock ends the boot. The stacks train, those that
fail end the boot, and the configuration is applied. With every section in place the report is written, the cores named leave reset and
CONF_DONE asserts; a section that cannot be placed ends the boot with 0x13. The live domain alone drives the device-wide outputs, and Q0's
never again after a release, when bus-hold keeps their levels. The model's own choices are log entries 91, 92, 93, 94, 95. -/
def Obligations.BootCourse : Prop :=
  (∀ b s,
    let d1 := s.d.bootStart 0
    let bad := (upTo 4).foldl (fun (x : Dev) q => x.setBit (R.FUSE_STAT.at q) 30 true) d1
    (s.d.porst = false → exec (.porstNRelease b) s = .next s) ∧
    (s.d.porst = true → b.selftest = false →
      exec (.porstNRelease b) s = .next { s with d := (d1.setFld F.AO_STATUS_LIVE 3 0).bootFail s.clk.tick 0x01 }) ∧
    (s.d.porst = true → b.selftest = true → b.fuses = false →
      exec (.porstNRelease b) s = .next { s with d := bad.bootFail s.clk.tick 0x02 }) ∧
    (s.d.porst = true → b.selftest = true → b.fuses = true →
      exec (.porstNRelease b) s = .next { s with d := d1.sourceCheck s.clk.tick b }) ∧
    (s.d.sysrst = true → s.d.porst = false →
      exec (.sysrstNRelease b) s = .next { s with d := (s.d.bootStart 1).sourceCheck s.clk.tick b }) ∧
    (s.d.sysrst = false ∨ s.d.porst = true → exec (.sysrstNRelease b) s = .next s)) ∧
  (∀ d now b,
    let r0 := Dev.tryFlash d 0 b
    let r3 := r0.1.tryFlash 3 b
    let g := spiImage b.spi
    let res := tryImage g true (b.unread.getD 4 true)
    (r0.2 = true → d.sourceCheck now b = r0.1) ∧
    (r0.2 = false → r3.2 = true → d.sourceCheck now b = r3.1) ∧
    (r0.2 = false → r3.2 = false → res = 0 →
      d.sourceCheck now b = (r3.1.addAtt (attWord 2 0 0 (g 0xC 4))).acceptImage 2 0 false g) ∧
    (r0.2 = false → r3.2 = false → res ≠ 0 →
      d.sourceCheck now b = (r3.1.addAtt (attWord 2 0 res (if res = 1 then 0 else g 0xC 4))).bootFail now 0x11)) ∧
  (∀ g spi unread,
    let digests := (imageSec g 0 :: (if spi then [] else imageSecs g)).all (fun x => x.digestOk (x.stored g)) = true
    let c1 := unread = false
    let c2 := c1 ∧ g 0 4 = 0x49425950
    let c3 := c2 ∧ imageFormat g = true
    let c4 := c3 ∧ imageKeyOk g = true
    let c5 := c4 ∧ imageSigOk g = true
    let c6 := c5 ∧ digests
    let c7 := c6 ∧ ∃ c, imageCfg g = some c ∧ cfgOk c = true
    let res := tryImage g spi unread
    (¬ c1 → res = 8) ∧ (c1 → ¬ c2 → res = 1) ∧ (c2 → ¬ c3 → res = 3) ∧ (c3 → ¬ c4 → res = 4) ∧ (c4 → ¬ c5 → res = 5) ∧
    (c5 → ¬ c6 → res = 6) ∧ (c6 → ¬ c7 → res = 7) ∧ (c7 → res = 0)) ∧
  (∀ q s,
    let may := s.d.boot.on = true ∧ q < 4 ∧ s.d.flag F.CLK_STAT_LOCK q = false ∧ (q = 0 ∨ s.d.flag F.CLK_STAT_LOCK 0 = true)
    let d1 := s.d.setFld F.CLK_STAT_LOCK 1 q
    let all := ∀ p, p < 4 → d1.flag F.CLK_STAT_LOCK p = true
    ∀ d2 d3, (all → d2 = d1.bridgesStart) → (¬ all → d2 = d1) →
      (s.d.boot.cause = 0 → d3 = (coresOf q).foldl (fun (x : Dev) n => x.setBit (coreReg n .BNK_STAT) 0 true) d2) →
      (s.d.boot.cause ≠ 0 → d3 = d2) →
      (may → q = 0 → exec (.pllLock q true) s = .next { s with d := (d3.setRegN (coreReg 0 .CORE_CTRL) 0).coreRelease 0 }) ∧
      (may → q ≠ 0 → exec (.pllLock q true) s = .next { s with d := d3 }) ∧
      (may → exec (.pllLock q false) s = .next { s with d := s.d.bootFail s.clk.tick 0x03 }) ∧
      (¬ may → exec (.pllLock q true) s = .next s ∧ exec (.pllLock q false) s = .next s)) ∧
  (∀ fails s,
    let due := s.d.stage4 s.clk = true ∧ s.d.boot.loaded = false
    let bad := ∃ n, n < 8 ∧ n ∈ fails
    let d1 := (upTo 8).foldl (fun (x : Dev) n => x.setFld F.HBM_STAT_TRAIN (if n ∈ fails then 3 else 2) (n / 2) (n % 2)) s.d
    (due → ¬ bad → exec (.hbmTraining fails) s = .next { s with d := d1.cfgApply s.clk }) ∧
    (due → bad → exec (.hbmTraining fails) s = .next { s with d := d1.bootFail s.clk.tick 0x31 }) ∧
    (¬ due → exec (.hbmTraining fails) s = .next s)) ∧
  (∀ secs s,
    let d1 := (secWindows s.d.boot.secs).foldl (fun (x : Dev) w => x.bootBind w) s.d
    let r := d1.bootSections (d1.boot.secs.zip secs)
    let d2 := r.1.bootReport.bootRelease (cfgField s.d.boot.cfg 0x48 8)
    let d3 := { d2 with boot := { d2.boot with on := false } }
    let ready := s.d.doneReady secs = true
    (ready → r.2 = true → exec (.confDone secs) s
      = .next { s with d := ((d3.setFld F.AO_STATUS_CONF 1 0).setFld F.AO_STATUS_CODE 0 0).linksReady }) ∧
    (ready → r.2 = false → exec (.confDone secs) s = .next { s with d := r.1.bootFail s.clk.tick 0x13 }) ∧
    (¬ ready → exec (.confDone secs) s = .next s)) ∧
  (∀ (d : Dev) (o : WideOut),
    let level : Drive := if d.ballLevels.testBit o.bit then .high else .low
    (d.liveQ = 0 → d.aoFree = false →
      d.widePad 0 o = level ∧ d.widePad 3 o = .hiZ .busHold ∧ d.wideBall o = d.ballLevels.testBit o.bit) ∧
    (d.liveQ = 3 → d.widePad 3 o = level ∧ d.widePad 0 o = .hiZ .busHold ∧ d.wideBall o = d.ballLevels.testBit o.bit) ∧
    (d.liveQ = 0 → d.aoFree = true →
      d.widePad 0 o = .hiZ .busHold ∧ d.widePad 3 o = .hiZ .busHold ∧ d.wideBall o = d.ballHold.testBit o.bit) ∧
    d.ballLevels.testBit WideOut.confDone.bit = decide (d.fld F.AO_STATUS_CONF 0 = 1) ∧
    d.ballLevels.testBit WideOut.confErr.bit = d.confFailed ∧ d.ballLevels.testBit WideOut.thermTripN.bit = !d.therm)

/-- Authentication of the debug port (21 R559, R561–R563). START draws a nonce for level 1 or 2 and faults for another, its words are
read, with WAIT before they are ready, and those of key and signature written; SUBMIT verifies with 50 words against a live nonce that has
not expired and fails at once otherwise, which adds 1 to AFAILS, at most to 15, and locks out; while locked out START and SUBMIT answer
DENY, during a verification WAIT; a verification whose key hash and signature over nonce, UID and level hold gives the level asked for,
any other leaves it; the lockout ends; DROP only lowers. After a failover the port answers nothing. The model's own choice is log entry
97. -/
def Obligations.DebugAuth : Prop :=
  (∀ v s,
    let up := s.d.dwUsable = true
    let st := s.d.fld F.DW_STAT_AUTH 0
    let lv := bitsOf v 9 8
    let nonce := s.d.auth.nonce
    let words := s.d.auth.words
    let good := s.d.auth.live = true ∧ nonce ≠ none ∧ words.length = 50 ∧ s.clk.tick < s.d.auth.since + nonceLife
    let used : Dev := { s.d with auth := { s.d.auth with live := false } }
    (¬ up → exec (.authStart v) s = .next s ∧ exec (.authSubmit v) s = .next s ∧ exec (.authData v) s = .next s ∧
      exec (.authDrop v) s = .next s ∧ exec .nonce s = .next s) ∧
    (up → st = 3 → exec (.authStart v) s = .next { s with d := s.d.dwStatus 2 } ∧
      exec (.authSubmit v) s = .next { s with d := s.d.dwStatus 2 }) ∧
    (up → st = 2 → exec (.authStart v) s = .next { s with d := s.d.dwStatus 1 } ∧
      exec (.authSubmit v) s = .next { s with d := s.d.dwStatus 1 }) ∧
    (up → st ≠ 2 → st ≠ 3 → lv = 1 ∨ lv = 2 → exec (.authStart v) s = .next { s with
      d := ({ s.d with auth := ⟨lv, s.clk.tick, none, true, [], []⟩ }.setFld F.DW_STAT_AUTH 0 0).dwStatus 3 }) ∧
    (up → st ≠ 2 → st ≠ 3 → lv = 0 ∨ lv = 3 → exec (.authStart v) s = .next { s with d := s.d.dwStatus 0 }) ∧
    (up → st ≠ 2 → st ≠ 3 → good →
      exec (.authSubmit v) s = .next { s with d := (used.setFld F.DW_STAT_AUTH 2 0).dwStatus 3 }) ∧
    (up → st ≠ 2 → st ≠ 3 → ¬ good → exec (.authSubmit v) s = .next { s with d := used.authFail.dwStatus 3 }) ∧
    (up → exec (.authData v) s = .next { s with
      d := { s.d with auth := { s.d.auth with words := (words ++ [v % 2 ^ 32]).take 51 } }.dwStatus 3 }) ∧
    (up → lv < s.d.dwLevel → exec (.authDrop v) s = .next { s with d := (s.d.setFld F.DW_STAT_LEVEL lv 0).dwStatus 3 }) ∧
    (up → s.d.dwLevel ≤ lv → exec (.authDrop v) s = .next { s with d := s.d.dwStatus 3 }) ∧
    (up → nonce = none → exec .nonce s = .next { s with d := s.d.dwStatus 1 }) ∧
    (∀ w r, up → nonce = some (w :: r) →
      exec .nonce s = .next { s with d := { s.d with auth := { s.d.auth with nonce := some r } }.dwData 0x0685 w }) ∧
    (up → nonce = some [] → exec .nonce s = .next { s with d := s.d.fresh.2.dwData 0x0685 s.d.fresh.1.toNat })) ∧
  (∀ ws s,
    let draws := s.d.auth.live = true ∧ s.d.auth.nonce = none ∧ ws.length = 12
    let w := ws.map (fun (x : Nat) => x % 2 ^ 32)
    (draws → exec (.nonceReady ws) s = .next { s with
      d := { s.d with auth := { s.d.auth with nonce := some w, drawn := w } }.setFld F.DW_STAT_AUTH 1 0 }) ∧
    (¬ draws → exec (.nonceReady ws) s = .next s)) ∧
  (∀ s,
    let st := s.d.fld F.DW_STAT_AUTH 0
    let a := s.d.auth
    let uid := (upTo 8).map (fun i => BitVec.ofNat 8 (Config.fuseUid.toNat / 256 ^ i))
    let msg := wordBytes a.drawn ++ uid ++ [BitVec.ofNat 8 a.want] ++ List.replicate 7 (0 : Byte)
    let signed := sigBlockOk (wordBytes (a.words.take 50)) ownerKhash msg = true
    (st = 2 → signed → exec .verificationComplete s = .next { s with
      d := (s.d.setFld F.DW_STAT_LEVEL a.want 0).setFld F.DW_STAT_AUTH 0 0 }) ∧
    (st = 2 → ¬ signed → exec .verificationComplete s = .next { s with d := s.d.authFail }) ∧
    (st ≠ 2 → exec .verificationComplete s = .next s) ∧
    (st = 3 → exec .lockoutEnd s = .next { s with d := s.d.setFld F.DW_STAT_AUTH 0 0 }) ∧
    (st ≠ 3 → exec .lockoutEnd s = .next s)) ∧
  (∀ d : Dev, d.authFail.dwLevel = d.dwLevel ∧ d.authFail.fld F.DW_STAT_AUTH 0 = 3 ∧
    d.authFail.fld F.DW_STAT_AFAILS 0 = if d.fld F.DW_STAT_AFAILS 0 < 15 then d.fld F.DW_STAT_AFAILS 0 + 1 else 15)

/-- Frames and bus accesses of the debug port (21 R555–R561, R564). A frame that the port does not answer changes nothing, one whose
header is bad or names no register is answered FAULT; a good read frame gives the register with its CRC, the data of a faulted access
FAULT and of a running one WAIT; a good write frame with a right CRC writes it and one with a wrong CRC writes nothing and sets CRCERR,
which a resync clears; at level NONE the bus registers are denied, and during an access writes wait. GO starts an access that the level
allows, which completes with its response, wakes a basking domain first, and fills DATA unless it fails; CANCEL ends it, performed where
it has left the port. The model's own choices are log entries 96, 97, 98. -/
def Obligations.DebugFrames : Prop :=
  (∀ hdr data crc s,
    let dead := s.d.dwUsable = false ∨ bitsOf hdr 15 14 ≠ 0
    let isStat := bitsOf hdr 7 3 = 0x10 ∧ bitsOf hdr 13 8 = 0x03
    let ok (cmd : Nat) := ¬ dead ∧ hdr % 8 = 5 ∧ bitsOf hdr 7 3 = cmd ∧ (s.d.flag F.DW_STAT_CRCERR 0 = false ∨ isStat)
    let bad (cmd : Nat) := ¬ dead ∧ ¬ (ok cmd ∧ dwIndex (bitsOf hdr 13 8) ≠ none)
    let fault : Host.Outcome State Fault Refusal := .next { s with d := s.d.dwStatus 0 }
    (dead → exec (.rget hdr) s = .next s ∧ exec (.rput hdr data crc) s = .next s) ∧
    (bad 0x10 → exec (.rget hdr) s = fault) ∧ (bad 0x11 → exec (.rput hdr data crc) s = fault) ∧
    (∀ r, ok 0x10 → dwIndex (bitsOf hdr 13 8) = some r →
      let isData := r = .DW_DATA ∨ r = .DW_DATA_HI
      let denied := dwBusReg r = true ∧ s.d.dwLevel = 0
      let busy := isData ∧ s.d.dwBus ≠ none
      let faulty := isData ∧ s.d.dwFault = true
      let out (v : Nat) : Host.Outcome State Fault Refusal := .next { s with
        d := s.d.send (.dweaz 3 (some (v % 2 ^ 32, crc8 hdr (v % 2 ^ 32)))) }
      (denied → exec (.rget hdr) s = .next { s with d := s.d.dwStatus 2 }) ∧
      (¬ denied → busy → exec (.rget hdr) s = .next { s with d := s.d.dwStatus 1 }) ∧
      (¬ denied → ¬ busy → faulty → exec (.rget hdr) s = fault) ∧
      (r = .DW_STAT → exec (.rget hdr) s = out s.d.dwStat) ∧
      (r = .DW_AUTH_CMD ∨ r = .DW_AUTH_DATA → exec (.rget hdr) s = out 0) ∧
      (r = .DW_NONCE → exec (.rget hdr) s = .next { s with d := s.d.dwNonce hdr }) ∧
      (¬ denied → ¬ busy → ¬ faulty → r ≠ .DW_STAT → r ≠ .DW_AUTH_CMD → r ≠ .DW_AUTH_DATA → r ≠ .DW_NONCE →
        exec (.rget hdr) s = out (s.d.regN (r.at 0)))) ∧
    (∀ r, ok 0x11 → dwIndex (bitsOf hdr 13 8) = some r →
      let denied := dwBusReg r = true ∧ s.d.dwLevel = 0
      let busy := dwBusReg r = true ∧ s.d.dwBus ≠ none
      let right := crc % 256 = crc8 hdr (data % 2 ^ 32)
      (denied → exec (.rput hdr data crc) s = .next { s with d := s.d.dwStatus 2 }) ∧
      (¬ denied → busy → exec (.rput hdr data crc) s = .next { s with d := s.d.dwStatus 1 }) ∧
      (¬ denied → ¬ busy → right → exec (.rput hdr data crc) s = .next { s with d := s.d.dwWrite r (data % 2 ^ 32) s.clk }) ∧
      (¬ denied → ¬ busy → ¬ right →
        exec (.rput hdr data crc) s = .next { s with d := (s.d.setFld F.DW_STAT_CRCERR 1 0).dwStatus 3 }))) ∧
  (∀ s, (s.d.dwUsable = true → exec .resync s = .next { s with d := s.d.setFld F.DW_STAT_CRCERR 0 0 }) ∧
    (s.d.dwUsable = false → exec .resync s = .next s)) ∧
  (∀ v s,
    let up := s.d.dwUsable = true
    let lvl := s.d.dwLevel ≠ 0
    let free := s.d.dwBus = none
    let size := bitsOf v 29 28
    let go := v.testBit 31 = true
    let d1 := s.d.setRegN (R.DW_BUSCTL.at 0) (v &&& 0x78000000)
    let n := if size = 0 then 4 else 8
    let addr := bitsOf (s.d.regN (R.DW_ADDR_HI.at 0)) 15 0 * 2 ^ 32 + s.d.regN (R.DW_ADDR_LO.at 0) % 2 ^ 32
    let hi := if size = 0 then 0 else s.d.regN (R.DW_DATA_HI.at 0) % 2 ^ 32 * 2 ^ 32
    let a : Access := ⟨⟨0x4C0, 0, false⟩, addr, n, v.testBit 30, s.d.regN (R.DW_DATA.at 0) % 2 ^ 32 + hi⟩
    let may := s.d.dwLevel = 2 ∨ (s.d.dwLevel = 1 ∧ a.write = false ∧ s.d.observeReads a.addr a.size = true)
    (¬ up → exec (.busctl v) s = .next s) ∧
    (up → ¬ lvl → exec (.busctl v) s = .next { s with d := s.d.dwStatus 2 }) ∧
    (up → lvl → ¬ free → exec (.busctl v) s = .next { s with d := s.d.dwStatus 1 }) ∧
    (up → lvl → free → 1 < size → exec (.busctl v) s = .next { s with d := s.d.dwStatus 0 }) ∧
    (up → lvl → free → size ≤ 1 → ¬ go → exec (.busctl v) s = .next { s with d := d1.dwStatus 3 }) ∧
    (up → lvl → free → size ≤ 1 → go → ¬ may → exec (.busctl v) s = .next { s with d := s.d.dwStatus 2 }) ∧
    (up → lvl → free → size ≤ 1 → go → may →
      exec (.busctl v) s = .next { s with d := { d1 with dwBus := some a, dwFault := false }.dwStatus 3 })) ∧
  (∀ e s,
    (s.d.dwBus = none → exec (.busAccessComplete e) s = .next s) ∧
    (∀ a, s.d.dwBus = some a → s.d.baskingOn a = [] →
      let r := s.d.dwPerform a e s.clk
      let bad := r.2.1 = .slverr ∨ r.2.1 = .decerr
      let d1 (b : Bool) : Dev := { r.1 with dwBus := none, dwFault := b }.setFld F.DW_STAT_BRESP r.2.1.num 0
      let got := (d1 false).setRegN (R.DW_DATA.at 0) (r.2.2 % 2 ^ 32)
      (bad → exec (.busAccessComplete e) s = .next { s with d := (d1 true).dwAdvance a }) ∧
      (¬ bad → a.write = true → exec (.busAccessComplete e) s = .next { s with d := (d1 false).dwAdvance a }) ∧
      (¬ bad → a.write = false → a.size ≠ 8 → exec (.busAccessComplete e) s = .next { s with d := got.dwAdvance a }) ∧
      (¬ bad → a.write = false → a.size = 8 → exec (.busAccessComplete e) s
        = .next { s with d := (got.setRegN (R.DW_DATA_HI.at 0) (r.2.2 / 2 ^ 32 % 2 ^ 32)).dwAdvance a })) ∧
    (∀ a x l, s.d.dwBus = some a → s.d.baskingOn a = x :: l →
      exec (.busAccessComplete e) s = .next { s with d := (x :: l).foldl (fun y w => y.startWake w.1 w.2) s.d })) ∧
  (∀ hdr left e s,
    let dead := s.d.dwUsable = false ∨ bitsOf hdr 15 14 ≠ 0
    let ok := hdr % 8 = 5 ∧ bitsOf hdr 7 3 = 0x1C ∧ s.d.flag F.DW_STAT_CRCERR 0 = false ∧ bitsOf hdr 13 8 = 0
    let row := Instr.dbgCancel hdr left e
    (dead → exec row s = .next s) ∧
    (¬ dead → ¬ ok → exec row s = .next { s with d := s.d.dwStatus 0 }) ∧
    (¬ dead → ok → s.d.dwBus = none → exec row s = .next { s with d := s.d.dwStatus 3 }) ∧
    (∀ a, ¬ dead → ok → s.d.dwBus = some a → left = false →
      exec row s = .next { s with d := { s.d with dwBus := none }.dwStatus 3 }) ∧
    (∀ a, ¬ dead → ok → s.d.dwBus = some a → left = true → exec row s = .next { s with
      d := { (s.d.dwPerform a e s.clk).1.dwAdvance a with dwBus := none }.dwStatus 3 }))

/-- The tick edge and the skip decision (02 R59). An edge is due once the executed cycles of the tick in progress are over; TICK advances
by one; the skip count n stays within 0 to 63, changes only at the start of an aligned window of 64 ticks, except that a governor's count
above it may raise it; the tick that begins is skipped exactly where the rule of R59 says so, and the array executes in any other where
nothing holds it; under one n, a window has exactly n skipped ticks, so never 64, and its first tick is none of them. -/
def Obligations.SkipWindows : Prop :=
  (∀ inp s, s.clk.runs = false ∨ 64 ≤ s.clk.cyc →
    let k : Clk := { s.clk with tick := s.clk.tick + 1 }
    let d1 := xTickEdge inp k s.d
    let own := Nat.max d1.gov.nl (Nat.max d1.gov.ns d1.gov.np)
    ∃ u, exec (.tickEdge inp) s = .next u ∧ u.clk.tick = s.clk.tick + 1 ∧ u.clk.dtime = s.clk.dtime ∧ u.clk.cyc = 0 ∧
      u.d = d1.skipShow s.clk.n u.clk.n (d1.arrayFree k && skippedTick u.clk.tick u.clk.n) ∧
      (s.clk.n ≤ 63 → u.clk.n ≤ 63) ∧
      (u.clk.tick % 64 ≠ 0 → s.clk.n ≤ u.clk.n ∧ (own ≤ s.clk.n → u.clk.n = s.clk.n)) ∧
      (u.clk.runs = true ↔ d1.arrayFree k = true ∧
        ¬ (u.clk.tick % 64 * u.clk.n / 64 < (u.clk.tick % 64 + 1) * u.clk.n / 64))) ∧
  (∀ inp s, s.clk.runs = true → s.clk.cyc < 64 → exec (.tickEdge inp) s = .next s) ∧
  (∀ w n, n ≤ 63 →
    ((List.range 64).filter (fun i => skippedTick (64 * w + i) n)).length = n ∧ skippedTick (64 * w) n = false)

/-- A step is the command at the front of the queue, and no command stops the model: `step` with `c` in front is `exec c` with the queue's
rest, every command answers a next state whose queue is as before, and with none waiting the chip idles (the model's choice: log entry 1).
-/
def Obligations.StepRunsFront : Prop :=
  (∀ c rest (s : State), step { s with pending := c :: rest } = exec c { s with pending := rest }) ∧
  (∀ s : State, s.pending = [] → step s = .next s) ∧
  (∀ c s, ∃ u, exec c s = .next u ∧ u.pending = s.pending)

/-- Every step keeps the clock in its bounds, from any state that has it so (02 R28–R30, R59; 19 R521, R522): at most 64 executed cycles
in a tick, DTIME at most 64·TICK at a tick edge, a skip count of at most 63, and no array running, and DTIME 0, before an alignment. It
rests in part on the model's own choices, log entries 76, 103. -/
def Obligations.ClockInvariant : Prop := ∀ s t, ClockOk s → step s = .next t → ClockOk t

/-- What moves TICK and DTIME (02 R28–R30, R63; 19 R520–R523), of all commands: a tick edge that is due advances TICK by one and holds
DTIME; an executed cycle advances DTIME by one while the array runs; an alignment sets DTIME to 64·TICK; PORST_N sets both to 0; SYSRST_N
sets DTIME to 0 and keeps TICK; every other command keeps both. So TICK goes back at PORST_N alone. It rests in part on the model's own
choices, log entries 4, 103. -/
def Obligations.TickAndDtime : Prop :=
  ∀ c s u, exec c s = .next u →
    (u.clk.tick, u.clk.dtime) = (match c with
      | .tickEdge _ => if s.clk.runs = true ∧ s.clk.cyc < 64 then (s.clk.tick, s.clk.dtime) else (s.clk.tick + 1, s.clk.dtime)
      | .executedCycle _ =>
        if s.clk.runs = true ∧ s.clk.cyc < 64 then (s.clk.tick, s.clk.dtime + 1) else (s.clk.tick, s.clk.dtime)
      | .alignmentEdge => if alignable s = true then (s.clk.tick, 64 * s.clk.tick) else (s.clk.tick, s.clk.dtime)
      | .porstNAssert => (0, 0)
      | .sysrstNAssert => if s.d.safe = true then (s.clk.tick, s.clk.dtime) else (s.clk.tick, 0)
      | _ => (s.clk.tick, s.clk.dtime))

/-- The machine right after reset: TICK and DTIME 0 and nothing executes (19 R520, R522), the clock in its bounds; every memory in its
canonical form with nothing listed; every slot generation 1 (06 R179); the limits and identity that the register tables give (19 PWR-7, 21
DBG-3); no command waits. It rests in part on the model's own choices, log entry 5. -/
def Obligations.ResetValues : Prop :=
  ClockOk State.reset ∧ State.reset.clk.tick = 0 ∧ State.reset.clk.dtime = 0 ∧ State.reset.clk.runs = false ∧
  State.reset.pending = [] ∧ State.reset.d.mem = [] ∧ Memory.wf State.reset.d.mem = true ∧
  (∀ slot, State.reset.d.regN (slotReg slot .SLOT_GEN) = 1) ∧
  State.reset.d.regN (R.DW_IDCODE.at 0) = 0x14096567 ∧ State.reset.d.regN (R.GOV_PL_PEAK.at 0) = 1400

/-- The fault-bank stack area (11 R314). XFLTSP of any core reads 0x8007_F000 + 16·FSP, which lies in the top 4 KiB of the own home bank;
a write to it through the debug registers changes FSP alone: no other CSR of the core, no other part of it and no other core (the
registers that show a core are written again). -/
def Obligations.FaultStackArea : Prop :=
  (∀ c : Core, 0x8007F000 ≤ c.fltSp ∧ c.fltSp ≤ 0x8007FFFF ∧ c.fltSp % 16 = 0) ∧
  (∀ m q v s, m.owner = true →
    let sel := s.d.reg (R.DBG_CREG_SEL.at q)
    let n := q * 16 + getBits sel 31 28
    let c := s.d.core n
    getBits sel 27 26 = 2 → getBits sel 11 0 = 0x7C2 → c.halted = true →
    exec (.dbgCregData m q false v) s
      = .next { s with d := s.d.answer .okay (BitVec.ofNat 64 (0x8007F000 + 16 * getBits (c.csrGet 0x7C2) 11 4)) } ∧
    ∃ u, exec (.dbgCregData m q true v) s = .next u ∧
      (u.d.core n).fltSp = 0x8007F000 + 16 * (v / 16 % 256) ∧
      (∀ num, num ≠ 0x7C2 → (u.d.core n).csrGet num = c.csrGet num) ∧ { u.d.core n with csr := c.csr } = c ∧
      (∀ n', n' ≠ n → u.d.core n' = s.d.core n') ∧ { u.d with cores := s.d.cores, regs := s.d.regs } = s.d.okay ∧
      (∀ x, x.r ≠ .CORE_STAT → x.r ≠ .DSP_CORE → x.r ≠ .DBG_STAT → u.d.reg x = s.d.reg x) ∧ u.clk = s.clk ∧
      u.pending = s.pending)

/-- Halts in safe stop and under CONF_ERR (21 R570). A halt, a resume or a step of the system written then changes nothing but the answer;
one of cores touches the cores alone, with the registers that show them: the array, the clusters, the links and the sequencers are as
before. -/
def Obligations.HaltsWhileStopped : Prop :=
  (∀ m v s, m.mid = 0x4C0 → s.d.safe = true ∨ s.d.confFailed = true →
    exec (.systemHalt m v) s = .next { s with d := s.d.okay } ∧
    exec (.systemRun m v) s = .next { s with d := s.d.okay } ∧
    (v % 65536 ≠ 0 → exec (.systemStep m v) s = .next { s with d := s.d.okay }) ∧
    (v % 65536 = 0 → exec (.systemStep m v) s = .next { s with d := s.d.reservedCmd m (R.DBG_SHALT.at 0) })) ∧
  (∀ m q v s, m.mid = 0x4C0 ∨ m.owner = true → s.d.safe = true ∨ s.d.confFailed = true →
    ∃ h r t, exec (.coreHalt m q v) s = .next h ∧ exec (.coreRun m q v) s = .next r ∧ exec (.coreStep m q v) s = .next t ∧
      (∀ u, u = h ∨ u = r ∨ u = t → { u.d with cores := s.d.cores, regs := s.d.regs } = s.d.okay ∧ u.clk = s.clk ∧
        ∀ x, x.r ≠ .CORE_STAT → x.r ≠ .DSP_CORE → x.r ≠ .DBG_STAT → u.d.reg x = s.d.reg x))
end

