-- ==== Sys2Proof/Laws/Assoc.lean ====
section
/-! SUPPORT. The laws of sparse maps: a read after a write at the same key gives the value written, at another key what it
gave before, and every operation keeps the canonical form. -/

namespace Sys2Proof.Laws

open Sys2Proof.Machine

variable {κ α : Type} [DecidableEq κ]

theorem aget_adel_self (d : α) (m : Assoc κ α) (k : κ) : aget d (adel m k) k = d := by
  induction m with
  | nil => rfl
  | cons e r ih =>
    obtain ⟨k', v⟩ := e
    by_cases h : k' = k
    · subst h; simpa [adel] using ih
    · simp only [adel, List.filter_cons, ne_eq, h, not_false_eq_true, decide_true, if_true, aget, if_false]
      exact ih

theorem aget_adel_other (d : α) (m : Assoc κ α) {k j : κ} (h : j ≠ k) : aget d (adel m k) j = aget d m j := by
  induction m with
  | nil => rfl
  | cons e r ih =>
    obtain ⟨k', v⟩ := e
    by_cases hk : k' = k
    · subst hk
      have hj : ¬ k' = j := fun e => h e.symm
      have hd : adel ((k', v) :: r) k' = adel r k' := by simp [adel]
      rw [hd, ih]
      simp [aget, hj]
    · have hd : adel ((k', v) :: r) k = (k', v) :: adel r k := by simp [adel, hk]
      rw [hd]
      simp only [aget, ih]

theorem aget_ains_self (d : α) (lt : κ → κ → Bool) (k : κ) (v : α) (m : Assoc κ α)
    (h : aget d m k = d ∧ ∀ e ∈ m, e.1 ≠ k) : aget d (ains lt k v m) k = v := by
  obtain ⟨-, h⟩ := h
  induction m with
  | nil => simp [ains, aget]
  | cons e r ih =>
    obtain ⟨k', v'⟩ := e
    have hk : k' ≠ k := h (k', v') (by simp)
    unfold ains
    split
    · simp [aget]
    · simp only [aget, hk, if_false]
      exact ih (fun e he => h e (by simp [he]))

theorem aget_ains_other (d : α) (lt : κ → κ → Bool) {k j : κ} (v : α) (m : Assoc κ α) (h : j ≠ k) :
    aget d (ains lt k v m) j = aget d m j := by
  have hk : ¬ k = j := fun e => h e.symm
  induction m with
  | nil => simp [ains, aget, hk]
  | cons e r ih =>
    obtain ⟨k', v'⟩ := e
    unfold ains
    split
    · simp [aget, hk]
    · simp only [aget]; split
      · rfl
      · exact ih

theorem adel_keys (m : Assoc κ α) (k : κ) : ∀ e ∈ adel m k, e.1 ≠ k := by
  intro e he
  simpa [adel] using (List.mem_filter.1 he).2

variable [DecidableEq α]

/-- A read after a write at the same key. -/
@[simp] theorem aget_aset_self (lt : κ → κ → Bool) (d : α) (m : Assoc κ α) (k : κ) (v : α) :
    aget d (aset lt d m k v) k = v := by
  unfold aset
  split
  · next h => rw [aget_adel_self, h]
  · exact aget_ains_self d lt k v _ ⟨aget_adel_self d m k, adel_keys m k⟩

/-- A write leaves what every other key reads, whatever the two keys read as by default. -/
theorem aget_aset_other (lt : κ → κ → Bool) (d d' : α) (m : Assoc κ α) {k j : κ} (v : α) (h : j ≠ k) :
    aget d' (aset lt d m k v) j = aget d' m j := by
  unfold aset
  split
  · exact aget_adel_other d' m h
  · rw [aget_ains_other d' lt v _ h, aget_adel_other d' m h]

@[simp] theorem nget_nset_self (d : α) (m : NMap α) (k : Nat) (v : α) : nget d (nset d m k v) k = v :=
  aget_aset_self natLt d m k v

theorem nget_nset_other (d : α) (m : NMap α) {k j : Nat} (v : α) (h : j ≠ k) : nget d (nset d m k v) j = nget d m j :=
  aget_aset_other natLt d d m v h

/-- A read of one key after a write of another or of the same. -/
theorem nget_nset (d : α) (m : NMap α) (k j : Nat) (v : α) :
    nget d (nset d m k v) j = if j = k then v else nget d m j := by
  by_cases h : j = k
  · subst h; simp
  · simp [h, nget_nset_other d m v h]

end Sys2Proof.Laws
end

