-- ==== Sys2Proof/Laws/State.lean ====
section
/-! SUPPORT. What each update of the chip's state leaves as it was: one lemma for each field and update, so that no proof unfolds a
record update. -/

namespace Sys2Proof.Laws

open Sys2Proof.Machine

variable (d : Dev) (x : RKey) (v : Word) (n : Nat) (f : Field) (q i j k : Nat) (b : Bool) (c : RespCode) (m : OutMsg)

@[simp] theorem setReg_mem : (d.setReg x v).mem = d.mem := rfl
@[simp] theorem setReg_ecc : (d.setReg x v).ecc = d.ecc := rfl
@[simp] theorem setReg_arr : (d.setReg x v).arr = d.arr := rfl
@[simp] theorem setReg_leap : (d.setReg x v).leap = d.leap := rfl
@[simp] theorem setReg_lfLost : (d.setReg x v).lfLost = d.lfLost := rfl
@[simp] theorem setReg_nsl : (d.setReg x v).nsl = d.nsl := rfl
@[simp] theorem setReg_repairs : (d.setReg x v).repairs = d.repairs := rfl
@[simp] theorem setReg_prbs : (d.setReg x v).prbs = d.prbs := rfl
@[simp] theorem setReg_scc : (d.setReg x v).scc = d.scc := rfl
@[simp] theorem setReg_molts : (d.setReg x v).molts = d.molts := rfl
@[simp] theorem setReg_fences : (d.setReg x v).fences = d.fences := rfl
@[simp] theorem setReg_sen : (d.setReg x v).sen = d.sen := rfl
@[simp] theorem setReg_chbuf : (d.setReg x v).chbuf = d.chbuf := rfl
@[simp] theorem setReg_waiters : (d.setReg x v).waiters = d.waiters := rfl
@[simp] theorem setReg_held : (d.setReg x v).held = d.held := rfl
@[simp] theorem setReg_mepoch : (d.setReg x v).mepoch = d.mepoch := rfl
@[simp] theorem setReg_tasks : (d.setReg x v).tasks = d.tasks := rfl
@[simp] theorem setReg_slices : (d.setReg x v).slices = d.slices := rfl
@[simp] theorem setReg_handAt : (d.setReg x v).handAt = d.handAt := rfl
@[simp] theorem setReg_cmds : (d.setReg x v).cmds = d.cmds := rfl
@[simp] theorem setReg_pairs : (d.setReg x v).pairs = d.pairs := rfl
@[simp] theorem setReg_epochs : (d.setReg x v).epochs = d.epochs := rfl
@[simp] theorem setReg_tongue : (d.setReg x v).tongue = d.tongue := rfl
@[simp] theorem setReg_loads : (d.setReg x v).loads = d.loads := rfl
@[simp] theorem setReg_loading : (d.setReg x v).loading = d.loading := rfl
@[simp] theorem setReg_fns : (d.setReg x v).fns = d.fns := rfl
@[simp] theorem setReg_qrst : (d.setReg x v).qrst = d.qrst := rfl
@[simp] theorem setReg_cores : (d.setReg x v).cores = d.cores := rfl
@[simp] theorem setReg_runs : (d.setReg x v).runs = d.runs := rfl
@[simp] theorem setReg_mail : (d.setReg x v).mail = d.mail := rfl
@[simp] theorem setReg_croaks : (d.setReg x v).croaks = d.croaks := rfl
@[simp] theorem setReg_timerAt : (d.setReg x v).timerAt = d.timerAt := rfl
@[simp] theorem setReg_doms : (d.setReg x v).doms = d.doms := rfl
@[simp] theorem setReg_routes : (d.setReg x v).routes = d.routes := rfl
@[simp] theorem setReg_sysHalt : (d.setReg x v).sysHalt = d.sysHalt := rfl
@[simp] theorem setReg_haltLeft : (d.setReg x v).haltLeft = d.haltLeft := rfl
@[simp] theorem setReg_capture : (d.setReg x v).capture = d.capture := rfl
@[simp] theorem setReg_rrobin : (d.setReg x v).rrobin = d.rrobin := rfl
@[simp] theorem setReg_perst : (d.setReg x v).perst = d.perst := rfl
@[simp] theorem setReg_calTab : (d.setReg x v).calTab = d.calTab := rfl
@[simp] theorem setReg_mch : (d.setReg x v).mch = d.mch := rfl
@[simp] theorem setReg_tokq : (d.setReg x v).tokq = d.tokq := rfl
@[simp] theorem setReg_tokTurn : (d.setReg x v).tokTurn = d.tokTurn := rfl
@[simp] theorem setReg_dump : (d.setReg x v).dump = d.dump := rfl
@[simp] theorem setReg_armSeq : (d.setReg x v).armSeq = d.armSeq := rfl
@[simp] theorem setReg_lanes : (d.setReg x v).lanes = d.lanes := rfl
@[simp] theorem setReg_therm : (d.setReg x v).therm = d.therm := rfl
@[simp] theorem setReg_boot : (d.setReg x v).boot = d.boot := rfl
@[simp] theorem setReg_fls : (d.setReg x v).fls = d.fls := rfl
@[simp] theorem setReg_aoFree : (d.setReg x v).aoFree = d.aoFree := rfl
@[simp] theorem setReg_ballHold : (d.setReg x v).ballHold = d.ballHold := rfl
@[simp] theorem setReg_hb : (d.setReg x v).hb = d.hb := rfl
@[simp] theorem setReg_porst : (d.setReg x v).porst = d.porst := rfl
@[simp] theorem setReg_sysrst : (d.setReg x v).sysrst = d.sysrst := rfl
@[simp] theorem setReg_pfLow : (d.setReg x v).pfLow = d.pfLow := rfl
@[simp] theorem setReg_avsOut : (d.setReg x v).avsOut = d.avsOut := rfl
@[simp] theorem setReg_avsFails : (d.setReg x v).avsFails = d.avsFails := rfl
@[simp] theorem setReg_rcCal : (d.setReg x v).rcCal = d.rcCal := rfl
@[simp] theorem setReg_gov : (d.setReg x v).gov = d.gov := rfl
@[simp] theorem setReg_ppr : (d.setReg x v).ppr = d.ppr := rfl
@[simp] theorem setReg_auth : (d.setReg x v).auth = d.auth := rfl
@[simp] theorem setReg_dwBus : (d.setReg x v).dwBus = d.dwBus := rfl
@[simp] theorem setReg_dwFault : (d.setReg x v).dwFault = d.dwFault := rfl
@[simp] theorem setReg_uart : (d.setReg x v).uart = d.uart := rfl
@[simp] theorem setReg_spi : (d.setReg x v).spi = d.spi := rfl
@[simp] theorem setReg_spiKeep : (d.setReg x v).spiKeep = d.spiKeep := rfl
@[simp] theorem setReg_i3c : (d.setReg x v).i3c = d.i3c := rfl
@[simp] theorem setReg_occ : (d.setReg x v).occ = d.occ := rfl
@[simp] theorem setReg_out : (d.setReg x v).out = d.out := rfl
@[simp] theorem setReg_free : (d.setReg x v).free = d.free := rfl

@[simp] theorem setRegN_mem : (d.setRegN x n).mem = d.mem := rfl
@[simp] theorem setRegN_ecc : (d.setRegN x n).ecc = d.ecc := rfl
@[simp] theorem setRegN_arr : (d.setRegN x n).arr = d.arr := rfl
@[simp] theorem setRegN_leap : (d.setRegN x n).leap = d.leap := rfl
@[simp] theorem setRegN_lfLost : (d.setRegN x n).lfLost = d.lfLost := rfl
@[simp] theorem setRegN_nsl : (d.setRegN x n).nsl = d.nsl := rfl
@[simp] theorem setRegN_repairs : (d.setRegN x n).repairs = d.repairs := rfl
@[simp] theorem setRegN_prbs : (d.setRegN x n).prbs = d.prbs := rfl
@[simp] theorem setRegN_scc : (d.setRegN x n).scc = d.scc := rfl
@[simp] theorem setRegN_molts : (d.setRegN x n).molts = d.molts := rfl
@[simp] theorem setRegN_fences : (d.setRegN x n).fences = d.fences := rfl
@[simp] theorem setRegN_sen : (d.setRegN x n).sen = d.sen := rfl
@[simp] theorem setRegN_chbuf : (d.setRegN x n).chbuf = d.chbuf := rfl
@[simp] theorem setRegN_waiters : (d.setRegN x n).waiters = d.waiters := rfl
@[simp] theorem setRegN_held : (d.setRegN x n).held = d.held := rfl
@[simp] theorem setRegN_mepoch : (d.setRegN x n).mepoch = d.mepoch := rfl
@[simp] theorem setRegN_tasks : (d.setRegN x n).tasks = d.tasks := rfl
@[simp] theorem setRegN_slices : (d.setRegN x n).slices = d.slices := rfl
@[simp] theorem setRegN_handAt : (d.setRegN x n).handAt = d.handAt := rfl
@[simp] theorem setRegN_cmds : (d.setRegN x n).cmds = d.cmds := rfl
@[simp] theorem setRegN_pairs : (d.setRegN x n).pairs = d.pairs := rfl
@[simp] theorem setRegN_epochs : (d.setRegN x n).epochs = d.epochs := rfl
@[simp] theorem setRegN_tongue : (d.setRegN x n).tongue = d.tongue := rfl
@[simp] theorem setRegN_loads : (d.setRegN x n).loads = d.loads := rfl
@[simp] theorem setRegN_loading : (d.setRegN x n).loading = d.loading := rfl
@[simp] theorem setRegN_fns : (d.setRegN x n).fns = d.fns := rfl
@[simp] theorem setRegN_qrst : (d.setRegN x n).qrst = d.qrst := rfl
@[simp] theorem setRegN_cores : (d.setRegN x n).cores = d.cores := rfl
@[simp] theorem setRegN_runs : (d.setRegN x n).runs = d.runs := rfl
@[simp] theorem setRegN_mail : (d.setRegN x n).mail = d.mail := rfl
@[simp] theorem setRegN_croaks : (d.setRegN x n).croaks = d.croaks := rfl
@[simp] theorem setRegN_timerAt : (d.setRegN x n).timerAt = d.timerAt := rfl
@[simp] theorem setRegN_doms : (d.setRegN x n).doms = d.doms := rfl
@[simp] theorem setRegN_routes : (d.setRegN x n).routes = d.routes := rfl
@[simp] theorem setRegN_sysHalt : (d.setRegN x n).sysHalt = d.sysHalt := rfl
@[simp] theorem setRegN_haltLeft : (d.setRegN x n).haltLeft = d.haltLeft := rfl
@[simp] theorem setRegN_capture : (d.setRegN x n).capture = d.capture := rfl
@[simp] theorem setRegN_rrobin : (d.setRegN x n).rrobin = d.rrobin := rfl
@[simp] theorem setRegN_perst : (d.setRegN x n).perst = d.perst := rfl
@[simp] theorem setRegN_calTab : (d.setRegN x n).calTab = d.calTab := rfl
@[simp] theorem setRegN_mch : (d.setRegN x n).mch = d.mch := rfl
@[simp] theorem setRegN_tokq : (d.setRegN x n).tokq = d.tokq := rfl
@[simp] theorem setRegN_tokTurn : (d.setRegN x n).tokTurn = d.tokTurn := rfl
@[simp] theorem setRegN_dump : (d.setRegN x n).dump = d.dump := rfl
@[simp] theorem setRegN_armSeq : (d.setRegN x n).armSeq = d.armSeq := rfl
@[simp] theorem setRegN_lanes : (d.setRegN x n).lanes = d.lanes := rfl
@[simp] theorem setRegN_therm : (d.setRegN x n).therm = d.therm := rfl
@[simp] theorem setRegN_boot : (d.setRegN x n).boot = d.boot := rfl
@[simp] theorem setRegN_fls : (d.setRegN x n).fls = d.fls := rfl
@[simp] theorem setRegN_aoFree : (d.setRegN x n).aoFree = d.aoFree := rfl
@[simp] theorem setRegN_ballHold : (d.setRegN x n).ballHold = d.ballHold := rfl
@[simp] theorem setRegN_hb : (d.setRegN x n).hb = d.hb := rfl
@[simp] theorem setRegN_porst : (d.setRegN x n).porst = d.porst := rfl
@[simp] theorem setRegN_sysrst : (d.setRegN x n).sysrst = d.sysrst := rfl
@[simp] theorem setRegN_pfLow : (d.setRegN x n).pfLow = d.pfLow := rfl
@[simp] theorem setRegN_avsOut : (d.setRegN x n).avsOut = d.avsOut := rfl
@[simp] theorem setRegN_avsFails : (d.setRegN x n).avsFails = d.avsFails := rfl
@[simp] theorem setRegN_rcCal : (d.setRegN x n).rcCal = d.rcCal := rfl
@[simp] theorem setRegN_gov : (d.setRegN x n).gov = d.gov := rfl
@[simp] theorem setRegN_ppr : (d.setRegN x n).ppr = d.ppr := rfl
@[simp] theorem setRegN_auth : (d.setRegN x n).auth = d.auth := rfl
@[simp] theorem setRegN_dwBus : (d.setRegN x n).dwBus = d.dwBus := rfl
@[simp] theorem setRegN_dwFault : (d.setRegN x n).dwFault = d.dwFault := rfl
@[simp] theorem setRegN_uart : (d.setRegN x n).uart = d.uart := rfl
@[simp] theorem setRegN_spi : (d.setRegN x n).spi = d.spi := rfl
@[simp] theorem setRegN_spiKeep : (d.setRegN x n).spiKeep = d.spiKeep := rfl
@[simp] theorem setRegN_i3c : (d.setRegN x n).i3c = d.i3c := rfl
@[simp] theorem setRegN_occ : (d.setRegN x n).occ = d.occ := rfl
@[simp] theorem setRegN_out : (d.setRegN x n).out = d.out := rfl
@[simp] theorem setRegN_free : (d.setRegN x n).free = d.free := rfl

@[simp] theorem setFld_mem : (d.setFld f n q i j k).mem = d.mem := rfl
@[simp] theorem setFld_ecc : (d.setFld f n q i j k).ecc = d.ecc := rfl
@[simp] theorem setFld_arr : (d.setFld f n q i j k).arr = d.arr := rfl
@[simp] theorem setFld_leap : (d.setFld f n q i j k).leap = d.leap := rfl
@[simp] theorem setFld_lfLost : (d.setFld f n q i j k).lfLost = d.lfLost := rfl
@[simp] theorem setFld_nsl : (d.setFld f n q i j k).nsl = d.nsl := rfl
@[simp] theorem setFld_repairs : (d.setFld f n q i j k).repairs = d.repairs := rfl
@[simp] theorem setFld_prbs : (d.setFld f n q i j k).prbs = d.prbs := rfl
@[simp] theorem setFld_scc : (d.setFld f n q i j k).scc = d.scc := rfl
@[simp] theorem setFld_molts : (d.setFld f n q i j k).molts = d.molts := rfl
@[simp] theorem setFld_fences : (d.setFld f n q i j k).fences = d.fences := rfl
@[simp] theorem setFld_sen : (d.setFld f n q i j k).sen = d.sen := rfl
@[simp] theorem setFld_chbuf : (d.setFld f n q i j k).chbuf = d.chbuf := rfl
@[simp] theorem setFld_waiters : (d.setFld f n q i j k).waiters = d.waiters := rfl
@[simp] theorem setFld_held : (d.setFld f n q i j k).held = d.held := rfl
@[simp] theorem setFld_mepoch : (d.setFld f n q i j k).mepoch = d.mepoch := rfl
@[simp] theorem setFld_tasks : (d.setFld f n q i j k).tasks = d.tasks := rfl
@[simp] theorem setFld_slices : (d.setFld f n q i j k).slices = d.slices := rfl
@[simp] theorem setFld_handAt : (d.setFld f n q i j k).handAt = d.handAt := rfl
@[simp] theorem setFld_cmds : (d.setFld f n q i j k).cmds = d.cmds := rfl
@[simp] theorem setFld_pairs : (d.setFld f n q i j k).pairs = d.pairs := rfl
@[simp] theorem setFld_epochs : (d.setFld f n q i j k).epochs = d.epochs := rfl
@[simp] theorem setFld_tongue : (d.setFld f n q i j k).tongue = d.tongue := rfl
@[simp] theorem setFld_loads : (d.setFld f n q i j k).loads = d.loads := rfl
@[simp] theorem setFld_loading : (d.setFld f n q i j k).loading = d.loading := rfl
@[simp] theorem setFld_fns : (d.setFld f n q i j k).fns = d.fns := rfl
@[simp] theorem setFld_qrst : (d.setFld f n q i j k).qrst = d.qrst := rfl
@[simp] theorem setFld_cores : (d.setFld f n q i j k).cores = d.cores := rfl
@[simp] theorem setFld_runs : (d.setFld f n q i j k).runs = d.runs := rfl
@[simp] theorem setFld_mail : (d.setFld f n q i j k).mail = d.mail := rfl
@[simp] theorem setFld_croaks : (d.setFld f n q i j k).croaks = d.croaks := rfl
@[simp] theorem setFld_timerAt : (d.setFld f n q i j k).timerAt = d.timerAt := rfl
@[simp] theorem setFld_doms : (d.setFld f n q i j k).doms = d.doms := rfl
@[simp] theorem setFld_routes : (d.setFld f n q i j k).routes = d.routes := rfl
@[simp] theorem setFld_sysHalt : (d.setFld f n q i j k).sysHalt = d.sysHalt := rfl
@[simp] theorem setFld_haltLeft : (d.setFld f n q i j k).haltLeft = d.haltLeft := rfl
@[simp] theorem setFld_capture : (d.setFld f n q i j k).capture = d.capture := rfl
@[simp] theorem setFld_rrobin : (d.setFld f n q i j k).rrobin = d.rrobin := rfl
@[simp] theorem setFld_perst : (d.setFld f n q i j k).perst = d.perst := rfl
@[simp] theorem setFld_calTab : (d.setFld f n q i j k).calTab = d.calTab := rfl
@[simp] theorem setFld_mch : (d.setFld f n q i j k).mch = d.mch := rfl
@[simp] theorem setFld_tokq : (d.setFld f n q i j k).tokq = d.tokq := rfl
@[simp] theorem setFld_tokTurn : (d.setFld f n q i j k).tokTurn = d.tokTurn := rfl
@[simp] theorem setFld_dump : (d.setFld f n q i j k).dump = d.dump := rfl
@[simp] theorem setFld_armSeq : (d.setFld f n q i j k).armSeq = d.armSeq := rfl
@[simp] theorem setFld_lanes : (d.setFld f n q i j k).lanes = d.lanes := rfl
@[simp] theorem setFld_therm : (d.setFld f n q i j k).therm = d.therm := rfl
@[simp] theorem setFld_boot : (d.setFld f n q i j k).boot = d.boot := rfl
@[simp] theorem setFld_fls : (d.setFld f n q i j k).fls = d.fls := rfl
@[simp] theorem setFld_aoFree : (d.setFld f n q i j k).aoFree = d.aoFree := rfl
@[simp] theorem setFld_ballHold : (d.setFld f n q i j k).ballHold = d.ballHold := rfl
@[simp] theorem setFld_hb : (d.setFld f n q i j k).hb = d.hb := rfl
@[simp] theorem setFld_porst : (d.setFld f n q i j k).porst = d.porst := rfl
@[simp] theorem setFld_sysrst : (d.setFld f n q i j k).sysrst = d.sysrst := rfl
@[simp] theorem setFld_pfLow : (d.setFld f n q i j k).pfLow = d.pfLow := rfl
@[simp] theorem setFld_avsOut : (d.setFld f n q i j k).avsOut = d.avsOut := rfl
@[simp] theorem setFld_avsFails : (d.setFld f n q i j k).avsFails = d.avsFails := rfl
@[simp] theorem setFld_rcCal : (d.setFld f n q i j k).rcCal = d.rcCal := rfl
@[simp] theorem setFld_gov : (d.setFld f n q i j k).gov = d.gov := rfl
@[simp] theorem setFld_ppr : (d.setFld f n q i j k).ppr = d.ppr := rfl
@[simp] theorem setFld_auth : (d.setFld f n q i j k).auth = d.auth := rfl
@[simp] theorem setFld_dwBus : (d.setFld f n q i j k).dwBus = d.dwBus := rfl
@[simp] theorem setFld_dwFault : (d.setFld f n q i j k).dwFault = d.dwFault := rfl
@[simp] theorem setFld_uart : (d.setFld f n q i j k).uart = d.uart := rfl
@[simp] theorem setFld_spi : (d.setFld f n q i j k).spi = d.spi := rfl
@[simp] theorem setFld_spiKeep : (d.setFld f n q i j k).spiKeep = d.spiKeep := rfl
@[simp] theorem setFld_i3c : (d.setFld f n q i j k).i3c = d.i3c := rfl
@[simp] theorem setFld_occ : (d.setFld f n q i j k).occ = d.occ := rfl
@[simp] theorem setFld_out : (d.setFld f n q i j k).out = d.out := rfl
@[simp] theorem setFld_free : (d.setFld f n q i j k).free = d.free := rfl

@[simp] theorem setBit_mem : (d.setBit x n b).mem = d.mem := rfl
@[simp] theorem setBit_ecc : (d.setBit x n b).ecc = d.ecc := rfl
@[simp] theorem setBit_arr : (d.setBit x n b).arr = d.arr := rfl
@[simp] theorem setBit_leap : (d.setBit x n b).leap = d.leap := rfl
@[simp] theorem setBit_lfLost : (d.setBit x n b).lfLost = d.lfLost := rfl
@[simp] theorem setBit_nsl : (d.setBit x n b).nsl = d.nsl := rfl
@[simp] theorem setBit_repairs : (d.setBit x n b).repairs = d.repairs := rfl
@[simp] theorem setBit_prbs : (d.setBit x n b).prbs = d.prbs := rfl
@[simp] theorem setBit_scc : (d.setBit x n b).scc = d.scc := rfl
@[simp] theorem setBit_molts : (d.setBit x n b).molts = d.molts := rfl
@[simp] theorem setBit_fences : (d.setBit x n b).fences = d.fences := rfl
@[simp] theorem setBit_sen : (d.setBit x n b).sen = d.sen := rfl
@[simp] theorem setBit_chbuf : (d.setBit x n b).chbuf = d.chbuf := rfl
@[simp] theorem setBit_waiters : (d.setBit x n b).waiters = d.waiters := rfl
@[simp] theorem setBit_held : (d.setBit x n b).held = d.held := rfl
@[simp] theorem setBit_mepoch : (d.setBit x n b).mepoch = d.mepoch := rfl
@[simp] theorem setBit_tasks : (d.setBit x n b).tasks = d.tasks := rfl
@[simp] theorem setBit_slices : (d.setBit x n b).slices = d.slices := rfl
@[simp] theorem setBit_handAt : (d.setBit x n b).handAt = d.handAt := rfl
@[simp] theorem setBit_cmds : (d.setBit x n b).cmds = d.cmds := rfl
@[simp] theorem setBit_pairs : (d.setBit x n b).pairs = d.pairs := rfl
@[simp] theorem setBit_epochs : (d.setBit x n b).epochs = d.epochs := rfl
@[simp] theorem setBit_tongue : (d.setBit x n b).tongue = d.tongue := rfl
@[simp] theorem setBit_loads : (d.setBit x n b).loads = d.loads := rfl
@[simp] theorem setBit_loading : (d.setBit x n b).loading = d.loading := rfl
@[simp] theorem setBit_fns : (d.setBit x n b).fns = d.fns := rfl
@[simp] theorem setBit_qrst : (d.setBit x n b).qrst = d.qrst := rfl
@[simp] theorem setBit_cores : (d.setBit x n b).cores = d.cores := rfl
@[simp] theorem setBit_runs : (d.setBit x n b).runs = d.runs := rfl
@[simp] theorem setBit_mail : (d.setBit x n b).mail = d.mail := rfl
@[simp] theorem setBit_croaks : (d.setBit x n b).croaks = d.croaks := rfl
@[simp] theorem setBit_timerAt : (d.setBit x n b).timerAt = d.timerAt := rfl
@[simp] theorem setBit_doms : (d.setBit x n b).doms = d.doms := rfl
@[simp] theorem setBit_routes : (d.setBit x n b).routes = d.routes := rfl
@[simp] theorem setBit_sysHalt : (d.setBit x n b).sysHalt = d.sysHalt := rfl
@[simp] theorem setBit_haltLeft : (d.setBit x n b).haltLeft = d.haltLeft := rfl
@[simp] theorem setBit_capture : (d.setBit x n b).capture = d.capture := rfl
@[simp] theorem setBit_rrobin : (d.setBit x n b).rrobin = d.rrobin := rfl
@[simp] theorem setBit_perst : (d.setBit x n b).perst = d.perst := rfl
@[simp] theorem setBit_calTab : (d.setBit x n b).calTab = d.calTab := rfl
@[simp] theorem setBit_mch : (d.setBit x n b).mch = d.mch := rfl
@[simp] theorem setBit_tokq : (d.setBit x n b).tokq = d.tokq := rfl
@[simp] theorem setBit_tokTurn : (d.setBit x n b).tokTurn = d.tokTurn := rfl
@[simp] theorem setBit_dump : (d.setBit x n b).dump = d.dump := rfl
@[simp] theorem setBit_armSeq : (d.setBit x n b).armSeq = d.armSeq := rfl
@[simp] theorem setBit_lanes : (d.setBit x n b).lanes = d.lanes := rfl
@[simp] theorem setBit_therm : (d.setBit x n b).therm = d.therm := rfl
@[simp] theorem setBit_boot : (d.setBit x n b).boot = d.boot := rfl
@[simp] theorem setBit_fls : (d.setBit x n b).fls = d.fls := rfl
@[simp] theorem setBit_aoFree : (d.setBit x n b).aoFree = d.aoFree := rfl
@[simp] theorem setBit_ballHold : (d.setBit x n b).ballHold = d.ballHold := rfl
@[simp] theorem setBit_hb : (d.setBit x n b).hb = d.hb := rfl
@[simp] theorem setBit_porst : (d.setBit x n b).porst = d.porst := rfl
@[simp] theorem setBit_sysrst : (d.setBit x n b).sysrst = d.sysrst := rfl
@[simp] theorem setBit_pfLow : (d.setBit x n b).pfLow = d.pfLow := rfl
@[simp] theorem setBit_avsOut : (d.setBit x n b).avsOut = d.avsOut := rfl
@[simp] theorem setBit_avsFails : (d.setBit x n b).avsFails = d.avsFails := rfl
@[simp] theorem setBit_rcCal : (d.setBit x n b).rcCal = d.rcCal := rfl
@[simp] theorem setBit_gov : (d.setBit x n b).gov = d.gov := rfl
@[simp] theorem setBit_ppr : (d.setBit x n b).ppr = d.ppr := rfl
@[simp] theorem setBit_auth : (d.setBit x n b).auth = d.auth := rfl
@[simp] theorem setBit_dwBus : (d.setBit x n b).dwBus = d.dwBus := rfl
@[simp] theorem setBit_dwFault : (d.setBit x n b).dwFault = d.dwFault := rfl
@[simp] theorem setBit_uart : (d.setBit x n b).uart = d.uart := rfl
@[simp] theorem setBit_spi : (d.setBit x n b).spi = d.spi := rfl
@[simp] theorem setBit_spiKeep : (d.setBit x n b).spiKeep = d.spiKeep := rfl
@[simp] theorem setBit_i3c : (d.setBit x n b).i3c = d.i3c := rfl
@[simp] theorem setBit_occ : (d.setBit x n b).occ = d.occ := rfl
@[simp] theorem setBit_out : (d.setBit x n b).out = d.out := rfl
@[simp] theorem setBit_free : (d.setBit x n b).free = d.free := rfl

@[simp] theorem answer_regs : (d.answer c v).regs = d.regs := rfl
@[simp] theorem answer_mem : (d.answer c v).mem = d.mem := rfl
@[simp] theorem answer_ecc : (d.answer c v).ecc = d.ecc := rfl
@[simp] theorem answer_arr : (d.answer c v).arr = d.arr := rfl
@[simp] theorem answer_leap : (d.answer c v).leap = d.leap := rfl
@[simp] theorem answer_lfLost : (d.answer c v).lfLost = d.lfLost := rfl
@[simp] theorem answer_nsl : (d.answer c v).nsl = d.nsl := rfl
@[simp] theorem answer_repairs : (d.answer c v).repairs = d.repairs := rfl
@[simp] theorem answer_prbs : (d.answer c v).prbs = d.prbs := rfl
@[simp] theorem answer_scc : (d.answer c v).scc = d.scc := rfl
@[simp] theorem answer_molts : (d.answer c v).molts = d.molts := rfl
@[simp] theorem answer_fences : (d.answer c v).fences = d.fences := rfl
@[simp] theorem answer_sen : (d.answer c v).sen = d.sen := rfl
@[simp] theorem answer_chbuf : (d.answer c v).chbuf = d.chbuf := rfl
@[simp] theorem answer_waiters : (d.answer c v).waiters = d.waiters := rfl
@[simp] theorem answer_held : (d.answer c v).held = d.held := rfl
@[simp] theorem answer_mepoch : (d.answer c v).mepoch = d.mepoch := rfl
@[simp] theorem answer_tasks : (d.answer c v).tasks = d.tasks := rfl
@[simp] theorem answer_slices : (d.answer c v).slices = d.slices := rfl
@[simp] theorem answer_handAt : (d.answer c v).handAt = d.handAt := rfl
@[simp] theorem answer_cmds : (d.answer c v).cmds = d.cmds := rfl
@[simp] theorem answer_pairs : (d.answer c v).pairs = d.pairs := rfl
@[simp] theorem answer_epochs : (d.answer c v).epochs = d.epochs := rfl
@[simp] theorem answer_tongue : (d.answer c v).tongue = d.tongue := rfl
@[simp] theorem answer_loads : (d.answer c v).loads = d.loads := rfl
@[simp] theorem answer_loading : (d.answer c v).loading = d.loading := rfl
@[simp] theorem answer_fns : (d.answer c v).fns = d.fns := rfl
@[simp] theorem answer_qrst : (d.answer c v).qrst = d.qrst := rfl
@[simp] theorem answer_cores : (d.answer c v).cores = d.cores := rfl
@[simp] theorem answer_runs : (d.answer c v).runs = d.runs := rfl
@[simp] theorem answer_mail : (d.answer c v).mail = d.mail := rfl
@[simp] theorem answer_croaks : (d.answer c v).croaks = d.croaks := rfl
@[simp] theorem answer_timerAt : (d.answer c v).timerAt = d.timerAt := rfl
@[simp] theorem answer_doms : (d.answer c v).doms = d.doms := rfl
@[simp] theorem answer_routes : (d.answer c v).routes = d.routes := rfl
@[simp] theorem answer_sysHalt : (d.answer c v).sysHalt = d.sysHalt := rfl
@[simp] theorem answer_haltLeft : (d.answer c v).haltLeft = d.haltLeft := rfl
@[simp] theorem answer_capture : (d.answer c v).capture = d.capture := rfl
@[simp] theorem answer_rrobin : (d.answer c v).rrobin = d.rrobin := rfl
@[simp] theorem answer_perst : (d.answer c v).perst = d.perst := rfl
@[simp] theorem answer_calTab : (d.answer c v).calTab = d.calTab := rfl
@[simp] theorem answer_mch : (d.answer c v).mch = d.mch := rfl
@[simp] theorem answer_tokq : (d.answer c v).tokq = d.tokq := rfl
@[simp] theorem answer_tokTurn : (d.answer c v).tokTurn = d.tokTurn := rfl
@[simp] theorem answer_dump : (d.answer c v).dump = d.dump := rfl
@[simp] theorem answer_armSeq : (d.answer c v).armSeq = d.armSeq := rfl
@[simp] theorem answer_lanes : (d.answer c v).lanes = d.lanes := rfl
@[simp] theorem answer_therm : (d.answer c v).therm = d.therm := rfl
@[simp] theorem answer_boot : (d.answer c v).boot = d.boot := rfl
@[simp] theorem answer_fls : (d.answer c v).fls = d.fls := rfl
@[simp] theorem answer_aoFree : (d.answer c v).aoFree = d.aoFree := rfl
@[simp] theorem answer_ballHold : (d.answer c v).ballHold = d.ballHold := rfl
@[simp] theorem answer_hb : (d.answer c v).hb = d.hb := rfl
@[simp] theorem answer_porst : (d.answer c v).porst = d.porst := rfl
@[simp] theorem answer_sysrst : (d.answer c v).sysrst = d.sysrst := rfl
@[simp] theorem answer_pfLow : (d.answer c v).pfLow = d.pfLow := rfl
@[simp] theorem answer_avsOut : (d.answer c v).avsOut = d.avsOut := rfl
@[simp] theorem answer_avsFails : (d.answer c v).avsFails = d.avsFails := rfl
@[simp] theorem answer_rcCal : (d.answer c v).rcCal = d.rcCal := rfl
@[simp] theorem answer_gov : (d.answer c v).gov = d.gov := rfl
@[simp] theorem answer_ppr : (d.answer c v).ppr = d.ppr := rfl
@[simp] theorem answer_auth : (d.answer c v).auth = d.auth := rfl
@[simp] theorem answer_dwBus : (d.answer c v).dwBus = d.dwBus := rfl
@[simp] theorem answer_dwFault : (d.answer c v).dwFault = d.dwFault := rfl
@[simp] theorem answer_uart : (d.answer c v).uart = d.uart := rfl
@[simp] theorem answer_spi : (d.answer c v).spi = d.spi := rfl
@[simp] theorem answer_spiKeep : (d.answer c v).spiKeep = d.spiKeep := rfl
@[simp] theorem answer_i3c : (d.answer c v).i3c = d.i3c := rfl
@[simp] theorem answer_occ : (d.answer c v).occ = d.occ := rfl
@[simp] theorem answer_free : (d.answer c v).free = d.free := rfl

@[simp] theorem okay_regs : (d.okay).regs = d.regs := rfl
@[simp] theorem okay_mem : (d.okay).mem = d.mem := rfl
@[simp] theorem okay_ecc : (d.okay).ecc = d.ecc := rfl
@[simp] theorem okay_arr : (d.okay).arr = d.arr := rfl
@[simp] theorem okay_leap : (d.okay).leap = d.leap := rfl
@[simp] theorem okay_lfLost : (d.okay).lfLost = d.lfLost := rfl
@[simp] theorem okay_nsl : (d.okay).nsl = d.nsl := rfl
@[simp] theorem okay_repairs : (d.okay).repairs = d.repairs := rfl
@[simp] theorem okay_prbs : (d.okay).prbs = d.prbs := rfl
@[simp] theorem okay_scc : (d.okay).scc = d.scc := rfl
@[simp] theorem okay_molts : (d.okay).molts = d.molts := rfl
@[simp] theorem okay_fences : (d.okay).fences = d.fences := rfl
@[simp] theorem okay_sen : (d.okay).sen = d.sen := rfl
@[simp] theorem okay_chbuf : (d.okay).chbuf = d.chbuf := rfl
@[simp] theorem okay_waiters : (d.okay).waiters = d.waiters := rfl
@[simp] theorem okay_held : (d.okay).held = d.held := rfl
@[simp] theorem okay_mepoch : (d.okay).mepoch = d.mepoch := rfl
@[simp] theorem okay_tasks : (d.okay).tasks = d.tasks := rfl
@[simp] theorem okay_slices : (d.okay).slices = d.slices := rfl
@[simp] theorem okay_handAt : (d.okay).handAt = d.handAt := rfl
@[simp] theorem okay_cmds : (d.okay).cmds = d.cmds := rfl
@[simp] theorem okay_pairs : (d.okay).pairs = d.pairs := rfl
@[simp] theorem okay_epochs : (d.okay).epochs = d.epochs := rfl
@[simp] theorem okay_tongue : (d.okay).tongue = d.tongue := rfl
@[simp] theorem okay_loads : (d.okay).loads = d.loads := rfl
@[simp] theorem okay_loading : (d.okay).loading = d.loading := rfl
@[simp] theorem okay_fns : (d.okay).fns = d.fns := rfl
@[simp] theorem okay_qrst : (d.okay).qrst = d.qrst := rfl
@[simp] theorem okay_cores : (d.okay).cores = d.cores := rfl
@[simp] theorem okay_runs : (d.okay).runs = d.runs := rfl
@[simp] theorem okay_mail : (d.okay).mail = d.mail := rfl
@[simp] theorem okay_croaks : (d.okay).croaks = d.croaks := rfl
@[simp] theorem okay_timerAt : (d.okay).timerAt = d.timerAt := rfl
@[simp] theorem okay_doms : (d.okay).doms = d.doms := rfl
@[simp] theorem okay_routes : (d.okay).routes = d.routes := rfl
@[simp] theorem okay_sysHalt : (d.okay).sysHalt = d.sysHalt := rfl
@[simp] theorem okay_haltLeft : (d.okay).haltLeft = d.haltLeft := rfl
@[simp] theorem okay_capture : (d.okay).capture = d.capture := rfl
@[simp] theorem okay_rrobin : (d.okay).rrobin = d.rrobin := rfl
@[simp] theorem okay_perst : (d.okay).perst = d.perst := rfl
@[simp] theorem okay_calTab : (d.okay).calTab = d.calTab := rfl
@[simp] theorem okay_mch : (d.okay).mch = d.mch := rfl
@[simp] theorem okay_tokq : (d.okay).tokq = d.tokq := rfl
@[simp] theorem okay_tokTurn : (d.okay).tokTurn = d.tokTurn := rfl
@[simp] theorem okay_dump : (d.okay).dump = d.dump := rfl
@[simp] theorem okay_armSeq : (d.okay).armSeq = d.armSeq := rfl
@[simp] theorem okay_lanes : (d.okay).lanes = d.lanes := rfl
@[simp] theorem okay_therm : (d.okay).therm = d.therm := rfl
@[simp] theorem okay_boot : (d.okay).boot = d.boot := rfl
@[simp] theorem okay_fls : (d.okay).fls = d.fls := rfl
@[simp] theorem okay_aoFree : (d.okay).aoFree = d.aoFree := rfl
@[simp] theorem okay_ballHold : (d.okay).ballHold = d.ballHold := rfl
@[simp] theorem okay_hb : (d.okay).hb = d.hb := rfl
@[simp] theorem okay_porst : (d.okay).porst = d.porst := rfl
@[simp] theorem okay_sysrst : (d.okay).sysrst = d.sysrst := rfl
@[simp] theorem okay_pfLow : (d.okay).pfLow = d.pfLow := rfl
@[simp] theorem okay_avsOut : (d.okay).avsOut = d.avsOut := rfl
@[simp] theorem okay_avsFails : (d.okay).avsFails = d.avsFails := rfl
@[simp] theorem okay_rcCal : (d.okay).rcCal = d.rcCal := rfl
@[simp] theorem okay_gov : (d.okay).gov = d.gov := rfl
@[simp] theorem okay_ppr : (d.okay).ppr = d.ppr := rfl
@[simp] theorem okay_auth : (d.okay).auth = d.auth := rfl
@[simp] theorem okay_dwBus : (d.okay).dwBus = d.dwBus := rfl
@[simp] theorem okay_dwFault : (d.okay).dwFault = d.dwFault := rfl
@[simp] theorem okay_uart : (d.okay).uart = d.uart := rfl
@[simp] theorem okay_spi : (d.okay).spi = d.spi := rfl
@[simp] theorem okay_spiKeep : (d.okay).spiKeep = d.spiKeep := rfl
@[simp] theorem okay_i3c : (d.okay).i3c = d.i3c := rfl
@[simp] theorem okay_occ : (d.okay).occ = d.occ := rfl
@[simp] theorem okay_free : (d.okay).free = d.free := rfl

@[simp] theorem send_regs : (d.send m).regs = d.regs := rfl
@[simp] theorem send_mem : (d.send m).mem = d.mem := rfl
@[simp] theorem send_ecc : (d.send m).ecc = d.ecc := rfl
@[simp] theorem send_arr : (d.send m).arr = d.arr := rfl
@[simp] theorem send_leap : (d.send m).leap = d.leap := rfl
@[simp] theorem send_lfLost : (d.send m).lfLost = d.lfLost := rfl
@[simp] theorem send_nsl : (d.send m).nsl = d.nsl := rfl
@[simp] theorem send_repairs : (d.send m).repairs = d.repairs := rfl
@[simp] theorem send_prbs : (d.send m).prbs = d.prbs := rfl
@[simp] theorem send_scc : (d.send m).scc = d.scc := rfl
@[simp] theorem send_molts : (d.send m).molts = d.molts := rfl
@[simp] theorem send_fences : (d.send m).fences = d.fences := rfl
@[simp] theorem send_sen : (d.send m).sen = d.sen := rfl
@[simp] theorem send_chbuf : (d.send m).chbuf = d.chbuf := rfl
@[simp] theorem send_waiters : (d.send m).waiters = d.waiters := rfl
@[simp] theorem send_held : (d.send m).held = d.held := rfl
@[simp] theorem send_mepoch : (d.send m).mepoch = d.mepoch := rfl
@[simp] theorem send_tasks : (d.send m).tasks = d.tasks := rfl
@[simp] theorem send_slices : (d.send m).slices = d.slices := rfl
@[simp] theorem send_handAt : (d.send m).handAt = d.handAt := rfl
@[simp] theorem send_cmds : (d.send m).cmds = d.cmds := rfl
@[simp] theorem send_pairs : (d.send m).pairs = d.pairs := rfl
@[simp] theorem send_epochs : (d.send m).epochs = d.epochs := rfl
@[simp] theorem send_tongue : (d.send m).tongue = d.tongue := rfl
@[simp] theorem send_loads : (d.send m).loads = d.loads := rfl
@[simp] theorem send_loading : (d.send m).loading = d.loading := rfl
@[simp] theorem send_fns : (d.send m).fns = d.fns := rfl
@[simp] theorem send_qrst : (d.send m).qrst = d.qrst := rfl
@[simp] theorem send_cores : (d.send m).cores = d.cores := rfl
@[simp] theorem send_runs : (d.send m).runs = d.runs := rfl
@[simp] theorem send_mail : (d.send m).mail = d.mail := rfl
@[simp] theorem send_croaks : (d.send m).croaks = d.croaks := rfl
@[simp] theorem send_timerAt : (d.send m).timerAt = d.timerAt := rfl
@[simp] theorem send_doms : (d.send m).doms = d.doms := rfl
@[simp] theorem send_routes : (d.send m).routes = d.routes := rfl
@[simp] theorem send_sysHalt : (d.send m).sysHalt = d.sysHalt := rfl
@[simp] theorem send_haltLeft : (d.send m).haltLeft = d.haltLeft := rfl
@[simp] theorem send_capture : (d.send m).capture = d.capture := rfl
@[simp] theorem send_rrobin : (d.send m).rrobin = d.rrobin := rfl
@[simp] theorem send_perst : (d.send m).perst = d.perst := rfl
@[simp] theorem send_calTab : (d.send m).calTab = d.calTab := rfl
@[simp] theorem send_mch : (d.send m).mch = d.mch := rfl
@[simp] theorem send_tokq : (d.send m).tokq = d.tokq := rfl
@[simp] theorem send_tokTurn : (d.send m).tokTurn = d.tokTurn := rfl
@[simp] theorem send_dump : (d.send m).dump = d.dump := rfl
@[simp] theorem send_armSeq : (d.send m).armSeq = d.armSeq := rfl
@[simp] theorem send_lanes : (d.send m).lanes = d.lanes := rfl
@[simp] theorem send_therm : (d.send m).therm = d.therm := rfl
@[simp] theorem send_boot : (d.send m).boot = d.boot := rfl
@[simp] theorem send_fls : (d.send m).fls = d.fls := rfl
@[simp] theorem send_aoFree : (d.send m).aoFree = d.aoFree := rfl
@[simp] theorem send_ballHold : (d.send m).ballHold = d.ballHold := rfl
@[simp] theorem send_hb : (d.send m).hb = d.hb := rfl
@[simp] theorem send_porst : (d.send m).porst = d.porst := rfl
@[simp] theorem send_sysrst : (d.send m).sysrst = d.sysrst := rfl
@[simp] theorem send_pfLow : (d.send m).pfLow = d.pfLow := rfl
@[simp] theorem send_avsOut : (d.send m).avsOut = d.avsOut := rfl
@[simp] theorem send_avsFails : (d.send m).avsFails = d.avsFails := rfl
@[simp] theorem send_rcCal : (d.send m).rcCal = d.rcCal := rfl
@[simp] theorem send_gov : (d.send m).gov = d.gov := rfl
@[simp] theorem send_ppr : (d.send m).ppr = d.ppr := rfl
@[simp] theorem send_auth : (d.send m).auth = d.auth := rfl
@[simp] theorem send_dwBus : (d.send m).dwBus = d.dwBus := rfl
@[simp] theorem send_dwFault : (d.send m).dwFault = d.dwFault := rfl
@[simp] theorem send_uart : (d.send m).uart = d.uart := rfl
@[simp] theorem send_spi : (d.send m).spi = d.spi := rfl
@[simp] theorem send_spiKeep : (d.send m).spiKeep = d.spiKeep := rfl
@[simp] theorem send_i3c : (d.send m).i3c = d.i3c := rfl
@[simp] theorem send_occ : (d.send m).occ = d.occ := rfl
@[simp] theorem send_free : (d.send m).free = d.free := rfl

@[simp] theorem setReg_byte (a : Nat) : (d.setReg x v).byte a = d.byte a := rfl
@[simp] theorem setRegN_byte (a : Nat) : (d.setRegN x n).byte a = d.byte a := rfl
@[simp] theorem setFld_byte (a : Nat) : (d.setFld f n q i j k).byte a = d.byte a := rfl
@[simp] theorem setBit_byte (a : Nat) : (d.setBit x n b).byte a = d.byte a := rfl
@[simp] theorem answer_reg : (d.answer c v).reg x = d.reg x := rfl
@[simp] theorem answer_byte : (d.answer c v).byte n = d.byte n := rfl
@[simp] theorem okay_reg : (d.okay).reg x = d.reg x := rfl
@[simp] theorem okay_byte : (d.okay).byte n = d.byte n := rfl
@[simp] theorem send_reg : (d.send m).reg x = d.reg x := rfl
@[simp] theorem send_byte : (d.send m).byte n = d.byte n := rfl

/-- An occurrence sets its latch, where the source exists, and nothing else (12 R340). -/
theorem raise_eq (s : Nat) :
    d.raise q s = if sourceExists q s then { d with occ := nset false d.occ (q * 1536 + s) true } else d := rfl

@[simp] theorem raise_reg (s : Nat) : (d.raise q s).reg x = d.reg x := by
  unfold Dev.raise; split <;> rfl

@[simp] theorem raise_byte (s a : Nat) : (d.raise q s).byte a = d.byte a := by
  unfold Dev.raise; split <;> rfl

end Sys2Proof.Laws
end

