-- ==== Sys2Proof/Laws/Cores.lean ====
section
/-! SUPPORT. What the operations on a control core leave and change. -/

namespace Sys2Proof.Laws

open Sys2Proof.Machine

/-- The core that was written reads back. -/
@[simp] theorem core_setCore_self (d : Dev) (n : Nat) (c : Core) : (d.setCore n c).core n = c :=
  nget_nset_self Core.zero d.cores n c

/-- Another core is as before. -/
theorem core_setCore_other (d : Dev) {n j : Nat} (c : Core) (h : j ≠ n) : (d.setCore n c).core j = d.core j :=
  nget_nset_other Core.zero d.cores c h

@[simp] theorem core_setReg (d : Dev) (x : RKey) (v : Word) (n : Nat) : (d.setReg x v).core n = d.core n := rfl
@[simp] theorem core_setRegN (d : Dev) (x : RKey) (v n : Nat) : (d.setRegN x v).core n = d.core n := rfl
@[simp] theorem core_setBit (d : Dev) (x : RKey) (b : Nat) (v : Bool) (n : Nat) : (d.setBit x b v).core n = d.core n := rfl
@[simp] theorem core_okay (d : Dev) (n : Nat) : d.okay.core n = d.core n := rfl
@[simp] theorem core_fresh (d : Dev) (n : Nat) : d.fresh.2.core n = d.core n := rfl
@[simp] theorem core_raise (d : Dev) (q s n : Nat) : (d.raise q s).core n = d.core n := by
  unfold Dev.raise; split <;> rfl

/-- An instruction of a core that is not stepped does what its meaning says. -/
theorem instr_eq (d : Dev) (n : Nat) (f : Dev → Dev) (h : (d.core n).executes = true) (hs : (d.core n).step = false) :
    d.instr n f = f d := by
  simp [Dev.instr, h, hs]

end Sys2Proof.Laws
end

