-- ==== Sys2Proof/Laws/Exec.lean ====
section
/-! SUPPORT. What `exec` does with each command is its meaning: one lemma for each constructor. -/

namespace Sys2Proof.Laws

open Sys2Proof.Machine

theorem exec_registerWrite a s : exec (.registerWrite a) s = execRegisterWrite a s := rfl
theorem exec_tickEdge inp s : exec (.tickEdge inp) s = execTickEdge inp s := rfl
theorem exec_executedCycle ups s : exec (.executedCycle ups) s = execExecutedCycle ups s := rfl
theorem exec_frameAdmission slot s : exec (.frameAdmission slot) s = execFrameAdmission slot s := rfl
theorem exec_ctxWriteback store tile cell idx s : exec (.ctxWriteback store tile cell idx) s = execCtxWriteback store tile cell idx s := rfl
theorem exec_draw vp s : exec (.draw vp) s = execDraw vp s := rfl
theorem exec_headStageEntry vp s : exec (.headStageEntry vp) s = execHeadStageEntry vp s := rfl
theorem exec_tmemNocAccess n s : exec (.tmemNocAccess n) s = execTmemNocAccess n s := rfl
theorem exec_nocTimeout n s : exec (.nocTimeout n) s = execNocTimeout n s := rfl
theorem exec_tmemWriteback tile bank word s : exec (.tmemWriteback tile bank word) s = execTmemWriteback tile bank word s := rfl
theorem exec_tmemOwn m q l p v s : exec (.tmemOwn m q l p v) s = execTmemOwn m q l p v s := rfl
theorem exec_bankMolt tile bank s : exec (.bankMolt tile bank) s = execBankMolt tile bank s := rfl
theorem exec_agreg m q l p n v s : exec (.agreg m q l p n v) s = execAgreg m q l p n v s := rfl
theorem exec_define m c p stride phase s : exec (.define m c p stride phase) s = execDefine m c p stride phase s := rfl
theorem exec_definitionComplete c p s : exec (.definitionComplete c p) s = execDefinitionComplete c p s := rfl
theorem exec_undefine m c p s : exec (.undefine m c p) s = execUndefine m c p s := rfl
theorem exec_start m c p s : exec (.start m c p) s = execStart m c p s := rfl
theorem exec_slotLive c p s : exec (.slotLive c p) s = execSlotLive c p s := rfl
theorem exec_stopDrain m c p s : exec (.stopDrain m c p) s = execStopDrain m c p s := rfl
theorem exec_stopAbort m c p s : exec (.stopAbort m c p) s = execStopAbort m c p s := rfl
theorem exec_sweepEnd c p s : exec (.sweepEnd c p) s = execSweepEnd c p s := rfl
theorem exec_molt m c p s : exec (.molt m c p) s = execMolt m c p s := rfl
theorem exec_moltComplete c p s : exec (.moltComplete c p) s = execMoltComplete c p s := rfl
theorem exec_badCmd m c p code s : exec (.badCmd m c p code) s = execBadCmd m c p code s := rfl
theorem exec_slotFoot m c p v s : exec (.slotFoot m c p v) s = execSlotFoot m c p v s := rfl
theorem exec_slotOid m c p v s : exec (.slotOid m c p v) s = execSlotOid m c p v s := rfl
theorem exec_slotFrame m c p v s : exec (.slotFrame m c p v) s = execSlotFrame m c p v s := rfl
theorem exec_slotExit m c p v s : exec (.slotExit m c p v) s = execSlotExit m c p v s := rfl
theorem exec_gfp m c p n v s : exec (.gfp m c p n v) s = execGfp m c p n v s := rfl
theorem exec_vpCfg m c n v s : exec (.vpCfg m c n v) s = execVpCfg m c n v s := rfl
theorem exec_lpb m c ix v s : exec (.lpb m c ix v) s = execLpb m c ix v s := rfl
theorem exec_regrow m c col s : exec (.regrow m c col) s = execRegrow m c col s := rfl
theorem exec_slotPause slot s : exec (.slotPause slot) s = execSlotPause slot s := rfl
theorem exec_columnCopy c s : exec (.columnCopy c) s = execColumnCopy c s := rfl
theorem exec_slotResume slot s : exec (.slotResume slot) s = execSlotResume slot s := rfl
theorem exec_retire m c s : exec (.retire m c) s = execRetire m c s := rfl
theorem exec_retirementTeardown c s : exec (.retirementTeardown c) s = execRetirementTeardown c s := rfl
theorem exec_blockCheck ch t0 flips drift s : exec (.blockCheck ch t0 flips drift) s = execBlockCheck ch t0 flips drift s := rfl
theorem exec_resend dir t0 filler errs s : exec (.resend dir t0 filler errs) s = execResend dir t0 filler errs s := rfl
theorem exec_retryCheck dir t0 errs s : exec (.retryCheck dir t0 errs) s = execRetryCheck dir t0 errs s := rfl
theorem exec_delayLineRelease ch s : exec (.delayLineRelease ch) s = execDelayLineRelease ch s := rfl
theorem exec_fillerBlock ch crcErr s : exec (.fillerBlock ch crcErr) s = execFillerBlock ch crcErr s := rfl
theorem exec_rateWindow dir s : exec (.rateWindow dir) s = execRateWindow dir s := rfl
theorem exec_realignment ch drift s : exec (.realignment ch drift) s = execRealignment ch drift s := rfl
theorem exec_lfclkLoss dir s : exec (.lfclkLoss dir) s = execLfclkLoss dir s := rfl
theorem exec_bridgeTraining br t s : exec (.bridgeTraining br t) s = execBridgeTraining br t s := rfl
theorem exec_repair m q pg dir s : exec (.repair m q pg dir) s = execRepair m q pg dir s := rfl
theorem exec_retrain m q pg dir s : exec (.retrain m q pg dir) s = execRetrain m q pg dir s := rfl
theorem exec_repairDone br bad ok s : exec (.repairDone br bad ok) s = execRepairDone br bad ok s := rfl
theorem exec_dirCfg m q pg dir v s : exec (.dirCfg m q pg dir v) s = execDirCfg m q pg dir v s := rfl
theorem exec_nslFrame dir offer flips s : exec (.nslFrame dir offer flips) s = execNslFrame dir offer flips s := rfl
theorem exec_nfclkLoss dir s : exec (.nfclkLoss dir) s = execNfclkLoss dir s := rfl
theorem exec_loadFull q r s : exec (.loadFull q r) s = execLoadFull q r s := rfl
theorem exec_loadPatch q r s : exec (.loadPatch q r) s = execLoadPatch q r s := rfl
theorem exec_loadVerify q r s : exec (.loadVerify q r) s = execLoadVerify q r s := rfl
theorem exec_loadStatus q r s : exec (.loadStatus q r) s = execLoadStatus q r s := rfl
theorem exec_loadCompletion slot ups s : exec (.loadCompletion slot ups) s = execLoadCompletion slot ups s := rfl
theorem exec_nocRequest a e fence s : exec (.nocRequest a e fence) s = execNocRequest a e fence s := rfl
theorem exec_hbmAccess a noalloc e s : exec (.hbmAccess a noalloc e) s = execHbmAccess a noalloc e s := rfl
theorem exec_winEnt m q ix v s : exec (.winEnt m q ix v) s = execWinEnt m q ix v s := rfl
theorem exec_windowMolt q s : exec (.windowMolt q) s = execWindowMolt q s := rfl
theorem exec_fenceCompletion mid s : exec (.fenceCompletion mid) s = execFenceCompletion mid s := rfl
theorem exec_grpRate m q g v s : exec (.grpRate m q g v) s = execGrpRate m q g v s := rfl
theorem exec_nocWeight m q g v s : exec (.nocWeight m q g v) s = execNocWeight m q g v s := rfl
theorem exec_jattr m vp j v s : exec (.jattr m vp j v) s = execJattr m vp j v s := rfl
theorem exec_jobStart vp sgl ans s : exec (.jobStart vp sgl ans) s = execJobStart vp sgl ans s := rfl
theorem exec_elementMove vp ans e collide s : exec (.elementMove vp ans e collide) s = execElementMove vp ans e collide s := rfl
theorem exec_chainFormed vp s : exec (.chainFormed vp) s = execChainFormed vp s := rfl
theorem exec_jobEnd vp s : exec (.jobEnd vp) s = execJobEnd vp s := rfl
theorem exec_senCtrl m vp v s : exec (.senCtrl m vp v) s = execSenCtrl m vp v s := rfl
theorem exec_submit m q t s : exec (.submit m q t) s = execSubmit m q t s := rfl
theorem exec_signal m q t s : exec (.signal m q t) s = execSignal m q t s := rfl
theorem exec_wake m q t s : exec (.wake m q t) s = execWake m q t s := rfl
theorem exec_cancel m q t s : exec (.cancel m q t) s = execCancel m q t s := rfl
theorem exec_run n s : exec (.run n) s = execRun n s := rfl
theorem exec_preempt q s : exec (.preempt q) s = execPreempt q s := rfl
theorem exec_hand slot s : exec (.hand slot) s = execHand slot s := rfl
theorem exec_wakeTimeReached q s : exec (.wakeTimeReached q) s = execWakeTimeReached q s := rfl
theorem exec_heldCommandPlaced q s : exec (.heldCommandPlaced q) s = execHeldCommandPlaced q s := rfl
theorem exec_dspRepl m q r en v s : exec (.dspRepl m q r en v) s = execDspRepl m q r en v s := rfl
theorem exec_xbrd n rd ix s : exec (.xbrd n rd ix) s = execXbrd n rd ix s := rfl
theorem exec_xbwr n rs1 ix s : exec (.xbwr n rs1 ix) s = execXbwr n rs1 ix s := rfl
theorem exec_xyield n s : exec (.xyield n) s = execXyield n s := rfl
theorem exec_xwaitEvent n rd s : exec (.xwaitEvent n rd) s = execXwaitEvent n rd s := rfl
theorem exec_xwaitDep n rd s : exec (.xwaitDep n rd) s = execXwaitDep n rd s := rfl
theorem exec_xwaitDelay n rd rs1 s : exec (.xwaitDelay n rd rs1) s = execXwaitDelay n rd rs1 s := rfl
theorem exec_xwaitEventOrDelay n rd rs1 s : exec (.xwaitEventOrDelay n rd rs1) s = execXwaitEventOrDelay n rd rs1 s := rfl
theorem exec_xdone n rs1 rs2 s : exec (.xdone n rs1 rs2) s = execXdone n rs1 rs2 s := rfl
theorem exec_xsig n rd rs1 s : exec (.xsig n rd rs1) s = execXsig n rd rs1 s := rfl
theorem exec_eventEntry n s : exec (.eventEntry n) s = execEventEntry n s := rfl
theorem exec_exceptionTrap n len x s : exec (.exceptionTrap n len x) s = execExceptionTrap n len x s := rfl
theorem exec_mret n s : exec (.mret n) s = execMret n s := rfl
theorem exec_fpExchange n len w s : exec (.fpExchange n len w) s = execFpExchange n len w s := rfl
theorem exec_ebreak n s : exec (.ebreak n) s = execEbreak n s := rfl
theorem exec_xevdepth n csr rd w s : exec (.xevdepth n csr rd w) s = execXevdepth n csr rd w s := rfl
theorem exec_coreCtrl m n v s : exec (.coreCtrl m n v) s = execCoreCtrl m n v s := rfl
theorem exec_bnkOwner m n v s : exec (.bnkOwner m n v) s = execBnkOwner m n v s := rfl
theorem exec_homeBankClear n s : exec (.homeBankClear n) s = execHomeBankClear n s := rfl
theorem exec_homeBankAccess a port0 e s : exec (.homeBankAccess a port0 e) s = execHomeBankAccess a port0 e s := rfl
theorem exec_bnkCeWriteback n w s : exec (.bnkCeWriteback n w) s = execBnkCeWriteback n w s := rfl
theorem exec_evtClaim m q c s : exec (.evtClaim m q c) s = execEvtClaim m q c s := rfl
theorem exec_evtSwset m q w v s : exec (.evtSwset m q w v) s = execEvtSwset m q w v s := rfl
theorem exec_evtRoute m q src v s : exec (.evtRoute m q src v) s = execEvtRoute m q src v s := rfl
theorem exec_timer q ix s : exec (.timer q ix) s = execTimer q ix s := rfl
theorem exec_evtTmrCtrl m q ix v s : exec (.evtTmrCtrl m q ix v) s = execEvtTmrCtrl m q ix v s := rfl
theorem exec_evtTmrPeriod m q ix v s : exec (.evtTmrPeriod m q ix v) s = execEvtTmrPeriod m q ix v s := rfl
theorem exec_watermarkThresholdWrite m w q ix j hi v s : exec (.watermarkThresholdWrite m w q ix j hi v) s = execWatermarkThresholdWrite m w q ix j hi v s := rfl
theorem exec_mbxLock m q ch v s : exec (.mbxLock m q ch v) s = execMbxLock m q ch v s := rfl
theorem exec_mbxHlock m q ix v s : exec (.mbxHlock m q ix v) s = execMbxHlock m q ix v s := rfl
theorem exec_mbxSptr m q ch v s : exec (.mbxSptr m q ch v) s = execMbxSptr m q ch v s := rfl
theorem exec_mbxSlt m q ch v s : exec (.mbxSlt m q ch v) s = execMbxSlt m q ch v s := rfl
theorem exec_croakDelivery q ch s : exec (.croakDelivery q ch) s = execCroakDelivery q ch s := rfl
theorem exec_mbxRlt m q ch s : exec (.mbxRlt m q ch) s = execMbxRlt m q ch s := rfl
theorem exec_mbxWord m q ch v s : exec (.mbxWord m q ch v) s = execMbxWord m q ch v s := rfl
theorem exec_mbxWordRead m q ch s : exec (.mbxWordRead m q ch) s = execMbxWordRead m q ch s := rfl
theorem exec_hifLctrl m link v s : exec (.hifLctrl m link v) s = execHifLctrl m link v s := rfl
theorem exec_receiverDetected link s : exec (.receiverDetected link) s = execReceiverDetected link s := rfl
theorem exec_linkUp link speed width flit s : exec (.linkUp link speed width flit) s = execLinkUp link speed width flit s := rfl
theorem exec_absent link s : exec (.absent link) s = execAbsent link s := rfl
theorem exec_trainFail link s : exec (.trainFail link) s = execTrainFail link s := rfl
theorem exec_linkLoss link vps s : exec (.linkLoss link vps) s = execLinkLoss link vps s := rfl
theorem exec_hostPerstNAssert port s : exec (.hostPerstNAssert port) s = execHostPerstNAssert port s := rfl
theorem exec_hostPerstNRelease port s : exec (.hostPerstNRelease port) s = execHostPerstNRelease port s := rfl
theorem exec_hotReset link s : exec (.hotReset link) s = execHotReset link s := rfl
theorem exec_flrPf oid s : exec (.flrPf oid) s = execFlrPf oid s := rfl
theorem exec_flrVf oid s : exec (.flrVf oid) s = execFlrVf oid s := rfl
theorem exec_vfEnableCleared oid n s : exec (.vfEnableCleared oid n) s = execVfEnableCleared oid n s := rfl
theorem exec_functionResetComplete oid s : exec (.functionResetComplete oid) s = execFunctionResetComplete oid s := rfl
theorem exec_d3hotEntry oid s : exec (.d3hotEntry oid) s = execD3hotEntry oid s := rfl
theorem exec_d0Return oid s : exec (.d0Return oid) s = execD0Return oid s := rfl
theorem exec_l0pWidthChange link w s : exec (.l0pWidthChange link w) s = execL0pWidthChange link w s := rfl
theorem exec_barRequest oid bar off size write data s : exec (.barRequest oid bar off size write data) s = execBarRequest oid bar off size write data s := rfl
theorem exec_configurationRequest oid op s : exec (.configurationRequest oid op) s = execConfigurationRequest oid op s := rfl
theorem exec_hostCompletion vp ans s : exec (.hostCompletion vp ans) s = execHostCompletion vp ans s := rfl
theorem exec_completionTimeout vp s : exec (.completionTimeout vp) s = execCompletionTimeout vp s := rfl
theorem exec_sqTail m q ix v s : exec (.sqTail m q ix v) s = execSqTail m q ix v s := rfl
theorem exec_cqHead m q ix v s : exec (.cqHead m q ix v) s = execCqHead m q ix v s := rfl
theorem exec_qpCtrl m q ix v s : exec (.qpCtrl m q ix v) s = execQpCtrl m q ix v s := rfl
theorem exec_fetchDecision q ents s : exec (.fetchDecision q ents) s = execFetchDecision q ents s := rfl
theorem exec_sqReadError q s : exec (.sqReadError q) s = execSqReadError q s := rfl
theorem exec_invoke q r s : exec (.invoke q r) s = execInvoke q r s := rfl
theorem exec_copy q r sgl0 sgl1 ans0 ans1 e s : exec (.copy q r sgl0 sgl1 ans0 ans1 e) s = execCopy q r sgl0 sgl1 ans0 ans1 e s := rfl
theorem exec_fill q r sgl ans e s : exec (.fill q r sgl ans e) s = execFill q r sgl ans e s := rfl
theorem exec_fence q r s : exec (.fence q r) s = execFence q r s := rfl
theorem exec_queNop q r s : exec (.queNop q r) s = execQueNop q r s := rfl
theorem exec_query q r s : exec (.query q r) s = execQuery q r s := rfl
theorem exec_createQ q r s : exec (.createQ q r) s = execCreateQ q r s := rfl
theorem exec_deleteQ q r s : exec (.deleteQ q r) s = execDeleteQ q r s := rfl
theorem exec_bindWindow q r s : exec (.bindWindow q r) s = execBindWindow q r s := rfl
theorem exec_startSlot q r s : exec (.startSlot q r) s = execStartSlot q r s := rfl
theorem exec_stopSlot q r s : exec (.stopSlot q r) s = execStopSlot q r s := rfl
theorem exec_stopSlotAbort q r s : exec (.stopSlotAbort q r) s = execStopSlotAbort q r s := rfl
theorem exec_mgmtMolt q r s : exec (.mgmtMolt q r) s = execMgmtMolt q r s := rfl
theorem exec_setEntry q r s : exec (.setEntry q r) s = execSetEntry q r s := rfl
theorem exec_quenchFinish q r s : exec (.quenchFinish q r) s = execQuenchFinish q r s := rfl
theorem exec_quenchAbort q r s : exec (.quenchAbort q r) s = execQuenchAbort q r s := rfl
theorem exec_unquench q r s : exec (.unquench q r) s = execUnquench q r s := rfl
theorem exec_media q r s : exec (.media q r) s = execMedia q r s := rfl
theorem exec_fwCall q r s : exec (.fwCall q r) s = execFwCall q r s := rfl
theorem exec_qeFwdone m q v s : exec (.qeFwdone m q v) s = execQeFwdone m q v s := rfl
theorem exec_tongueQuench s : exec (.tongueQuench) s = execTongueQuench s := rfl
theorem exec_tongueUnquench s : exec (.tongueUnquench) s = execTongueUnquench s := rfl
theorem exec_tongueStopSlot s : exec (.tongueStopSlot) s = execTongueStopSlot s := rfl
theorem exec_cqEntryWrite q r s : exec (.cqEntryWrite q r) s = execCqEntryWrite q r s := rfl
theorem exec_itimeExpiry q ix s : exec (.itimeExpiry q ix) s = execItimeExpiry q ix s := rfl
theorem exec_pairDrained q ix s : exec (.pairDrained q ix) s = execPairDrained q ix s := rfl
theorem exec_msqPost m ch v s : exec (.msqPost m ch v) s = execMsqPost m ch v s := rfl
theorem exec_listFetch ch e s : exec (.listFetch ch e) s = execListFetch ch e s := rfl
theorem exec_listStart ch s : exec (.listStart ch) s = execListStart ch s := rfl
theorem exec_busGrant ch s : exec (.busGrant ch) s = execBusGrant ch s := rfl
theorem exec_listEnd ch x s : exec (.listEnd ch x) s = execListEnd ch x s := rfl
theorem exec_hdr ch x s : exec (.hdr ch x) s = execHdr ch x s := rfl
theorem exec_cmd ch x s : exec (.cmd ch x) s = execCmd ch x s := rfl
theorem exec_addr ch x s : exec (.addr ch x) s = execAddr ch x s := rfl
theorem exec_dout ch x ue ce s : exec (.dout ch x ue ce) s = execDout ch x ue ce s := rfl
theorem exec_din ch x data s : exec (.din ch x data) s = execDin ch x data s := rfl
theorem exec_waitrb ch x sr s : exec (.waitrb ch x sr) s = execWaitrb ch x sr s := rfl
theorem exec_readySeen ch x sr meas s : exec (.readySeen ch x sr meas) s = execReadySeen ch x sr meas s := rfl
theorem exec_waitrbTimeout ch x s : exec (.waitrbTimeout ch x) s = execWaitrbTimeout ch x s := rfl
theorem exec_delay ch x s : exec (.delay ch x) s = execDelay ch x s := rfl
theorem exec_delayExpiry ch x s : exec (.delayExpiry ch x) s = execDelayExpiry ch x s := rfl
theorem exec_feature ch x ok sr vals s : exec (.feature ch x ok sr vals) s = execFeature ch x ok sr vals s := rfl
theorem exec_brstat ch x s : exec (.brstat ch x) s = execBrstat ch x s := rfl
theorem exec_offsets ch x ok sr s : exec (.offsets ch x ok sr) s = execOffsets ch x ok sr s := rfl
theorem exec_probe ch x waits sr z0 z1 s : exec (.probe ch x waits sr z0 z1) s = execProbe ch x waits sr z0 z1 s := rfl
theorem exec_beginProg ch x s : exec (.beginProg ch x) s = execBeginProg ch x s := rfl
theorem exec_beginErase ch x s : exec (.beginErase ch x) s = execBeginErase ch x s := rfl
theorem exec_endOp ch x s : exec (.endOp ch x) s = execEndOp ch x s := rfl
theorem exec_suspend ch x s : exec (.suspend ch x) s = execSuspend ch x s := rfl
theorem exec_resume ch x s : exec (.resume ch x) s = execResume ch x s := rfl
theorem exec_tokenGrant s : exec (.tokenGrant) s = execTokenGrant s := rfl
theorem exec_completionRecord ch x s : exec (.completionRecord ch x) s = execCompletionRecord ch x s := rfl
theorem exec_stop m ch v s : exec (.stop m ch v) s = execStop m ch v s := rfl
theorem exec_wpn m ch v s : exec (.wpn m ch v) s = execWpn m ch v s := rfl
theorem exec_msqChcfg m ch v s : exec (.msqChcfg m ch v) s = execMsqChcfg m ch v s := rfl
theorem exec_nphCfg m n v s : exec (.nphCfg m n v) s = execNphCfg m n v s := rfl
theorem exec_nphTrain m n v s : exec (.nphTrain m n v) s = execNphTrain m n v s := rfl
theorem exec_nphTrainingDone n pass rm wm s : exec (.nphTrainingDone n pass rm wm) s = execNphTrainingDone n pass rm wm s := rfl
theorem exec_msqRrp m q j v s : exec (.msqRrp m q j v) s = execMsqRrp m q j v s := rfl
theorem exec_msqOpcap m q v s : exec (.msqOpcap m q v) s = execMsqOpcap m q v s := rfl
theorem exec_pfWarn s : exec (.pfWarn) s = execPfWarn s := rfl
theorem exec_dumpComplete s : exec (.dumpComplete) s = execDumpComplete s := rfl
theorem exec_msqPfclr m q v s : exec (.msqPfclr m q v) s = execMsqPfclr m q v s := rfl
theorem exec_msqOpdarm m q v s : exec (.msqOpdarm m q v) s = execMsqOpdarm m q v s := rfl
theorem exec_tetLctrl m lane v s : exec (.tetLctrl m lane v) s = execTetLctrl m lane v s := rfl
theorem exec_tetRetrain m lane v s : exec (.tetRetrain m lane v) s = execTetRetrain m lane v s := rfl
theorem exec_signalDetect lane s : exec (.signalDetect lane) s = execSignalDetect lane s := rfl
theorem exec_lossOfSignal lane s : exec (.lossOfSignal lane) s = execLossOfSignal lane s := rfl
theorem exec_trainingFrame lane word req adapted s : exec (.trainingFrame lane word req adapted) s = execTrainingFrame lane word req adapted s := rfl
theorem exec_codeword lane hdr corrected corrupt s : exec (.codeword lane hdr corrected corrupt) s = execCodeword lane hdr corrected corrupt s := rfl
theorem exec_identSend lane s : exec (.identSend lane) s = execIdentSend lane s := rfl
theorem exec_ident lane bytes clean s : exec (.ident lane bytes clean) s = execIdent lane bytes clean s := rfl
theorem exec_laneAbsent lane s : exec (.laneAbsent lane) s = execLaneAbsent lane s := rfl
theorem exec_trainRestart lane s : exec (.trainRestart lane) s = execTrainRestart lane s := rfl
theorem exec_mute lane s : exec (.mute lane) s = execMute lane s := rfl
theorem exec_backoffEnd lane s : exec (.backoffEnd lane) s = execBackoffEnd lane s := rfl
theorem exec_retrainTimeout lane s : exec (.retrainTimeout lane) s = execRetrainTimeout lane s := rfl
theorem exec_cmdFlit lane k s : exec (.cmdFlit lane k) s = execCmdFlit lane k s := rfl
theorem exec_wdata lane k ue ce s : exec (.wdata lane k ue ce) s = execWdata lane k ue ce s := rfl
theorem exec_resp lane bytes clean s : exec (.resp lane bytes clean) s = execResp lane bytes clean s := rfl
theorem exec_rdata lane bytes clean s : exec (.rdata lane bytes clean) s = execRdata lane bytes clean s := rfl
theorem exec_mgmt lane bytes clean s : exec (.mgmt lane bytes clean) s = execMgmt lane bytes clean s := rfl
theorem exec_lctl lane bytes clean s : exec (.lctl lane bytes clean) s = execLctl lane bytes clean s := rfl
theorem exec_nak lane bytes clean s : exec (.nak lane bytes clean) s = execNak lane bytes clean s := rfl
theorem exec_rtrn lane bytes clean s : exec (.rtrn lane bytes clean) s = execRtrn lane bytes clean s := rfl
theorem exec_replayTimeout lane s : exec (.replayTimeout lane) s = execReplayTimeout lane s := rfl
theorem exec_tetMcmd m lane v s : exec (.tetMcmd m lane v) s = execTetMcmd m lane v s := rfl
theorem exec_mgmtTimeout lane s : exec (.mgmtTimeout lane) s = execMgmtTimeout lane s := rfl
theorem exec_calLookup ch x s : exec (.calLookup ch x) s = execCalLookup ch x s := rfl
theorem exec_flipRecord q ring s : exec (.flipRecord q ring) s = execFlipRecord q ring s := rfl
theorem exec_calRead m q v s : exec (.calRead m q v) s = execCalRead m q v s := rfl
theorem exec_calWrite m q v s : exec (.calWrite m q v) s = execCalWrite m q v s := rfl
theorem exec_calInvalidate m q v s : exec (.calInvalidate m q v) s = execCalInvalidate m q v s := rfl
theorem exec_calFlush m q v s : exec (.calFlush m q v) s = execCalFlush m q v s := rfl
theorem exec_cacheWriteback q e s : exec (.cacheWriteback q e) s = execCacheWriteback q e s := rfl
theorem exec_calWalk q e s : exec (.calWalk q e) s = execCalWalk q e s := rfl
theorem exec_retrainCheck q margins s : exec (.retrainCheck q margins) s = execRetrainCheck q margins s := rfl
theorem exec_calCtrl m q v s : exec (.calCtrl m q v) s = execCalCtrl m q v s := rfl
theorem exec_calFrbase m q r v s : exec (.calFrbase m q r v) s = execCalFrbase m q r v s := rfl
theorem exec_porstNAssert s : exec (.porstNAssert) s = execPorstNAssert s := rfl
theorem exec_porstNRelease b s : exec (.porstNRelease b) s = execPorstNRelease b s := rfl
theorem exec_sysrstNAssert s : exec (.sysrstNAssert) s = execSysrstNAssert s := rfl
theorem exec_sysrstNRelease b s : exec (.sysrstNRelease b) s = execSysrstNRelease b s := rfl
theorem exec_pllLock q ok s : exec (.pllLock q ok) s = execPllLock q ok s := rfl
theorem exec_hbmTraining fails s : exec (.hbmTraining fails) s = execHbmTraining fails s := rfl
theorem exec_confDone secs s : exec (.confDone secs) s = execConfDone secs s := rfl
theorem exec_program m q s : exec (.program m q) s = execProgram m q s := rfl
theorem exec_erase m q s : exec (.erase m q) s = execErase m q s := rfl
theorem exec_blankchk m q s : exec (.blankchk m q) s = execBlankchk m q s := rfl
theorem exec_flsCommandDone q s : exec (.flsCommandDone q) s = execFlsCommandDone q s := rfl
theorem exec_aoFailover m v s : exec (.aoFailover m v) s = execAoFailover m v s := rfl
theorem exec_heartbeat toLive toStandby healthy s : exec (.heartbeat toLive toStandby healthy) s = execHeartbeat toLive toStandby healthy s := rfl
theorem exec_heartbeatTimeout s : exec (.heartbeatTimeout) s = execHeartbeatTimeout s := rfl
theorem exec_takeover s : exec (.takeover) s = execTakeover s := rfl
theorem exec_pllLockLoss q s : exec (.pllLockLoss q) s = execPllLockLoss q s := rfl
theorem exec_railOutOfRange s : exec (.railOutOfRange) s = execRailOutOfRange s := rfl
theorem exec_dtimeCompare bridge equal s : exec (.dtimeCompare bridge equal) s = execDtimeCompare bridge equal s := rfl
theorem exec_alignmentEdge s : exec (.alignmentEdge) s = execAlignmentEdge s := rfl
theorem exec_quarterRealignment q s : exec (.quarterRealignment q) s = execQuarterRealignment q s := rfl
theorem exec_rstQctl m q v s : exec (.rstQctl m q v) s = execRstQctl m q v s := rfl
theorem exec_quarterResetRelease q s : exec (.quarterResetRelease q) s = execQuarterResetRelease q s := rfl
theorem exec_rstClu m q v s : exec (.rstClu m q v) s = execRstClu m q v s := rfl
theorem exec_domainOn m q dom s : exec (.domainOn m q dom) s = execDomainOn m q dom s := rfl
theorem exec_domainBask m q dom s : exec (.domainBask m q dom) s = execDomainBask m q dom s := rfl
theorem exec_domainOff m q dom s : exec (.domainOff m q dom) s = execDomainOff m q dom s := rfl
theorem exec_domainTransitionDone q dom s : exec (.domainTransitionDone q dom) s = execDomainTransitionDone q dom s := rfl
theorem exec_sensorConversion q unit raw s : exec (.sensorConversion q unit raw) s = execSensorConversion q unit raw s := rfl
theorem exec_throttleStep s : exec (.throttleStep) s = execThrottleStep s := rfl
theorem exec_thermTrip unit s : exec (.thermTrip unit) s = execThermTrip unit s := rfl
theorem exec_estimateCorrection q watts s : exec (.estimateCorrection q watts) s = execEstimateCorrection q watts s := rfl
theorem exec_peakExcursion amps s : exec (.peakExcursion amps) s = execPeakExcursion amps s := rfl
theorem exec_avsStep s : exec (.avsStep) s = execAvsStep s := rfl
theorem exec_avsTelemetry ok mv s : exec (.avsTelemetry ok mv) s = execAvsTelemetry ok mv s := rfl
theorem exec_rcCalibration s : exec (.rcCalibration) s = execRcCalibration s := rfl
theorem exec_fltPprCmd m q v s : exec (.fltPprCmd m q v) s = execFltPprCmd m q v s := rfl
theorem exec_pprComplete q res s : exec (.pprComplete q res) s = execPprComplete q res s := rfl
theorem exec_rget hdr s : exec (.rget hdr) s = execRget hdr s := rfl
theorem exec_rput hdr data crc s : exec (.rput hdr data crc) s = execRput hdr data crc s := rfl
theorem exec_dbgCancel hdr left e s : exec (.dbgCancel hdr left e) s = execDbgCancel hdr left e s := rfl
theorem exec_resync s : exec (.resync) s = execResync s := rfl
theorem exec_authStart v s : exec (.authStart v) s = execAuthStart v s := rfl
theorem exec_nonceReady words s : exec (.nonceReady words) s = execNonceReady words s := rfl
theorem exec_nonce s : exec (.nonce) s = execNonce s := rfl
theorem exec_authData v s : exec (.authData v) s = execAuthData v s := rfl
theorem exec_authSubmit v s : exec (.authSubmit v) s = execAuthSubmit v s := rfl
theorem exec_verificationComplete s : exec .verificationComplete s = execVerificationComplete s := rfl
theorem exec_lockoutEnd s : exec (.lockoutEnd) s = execLockoutEnd s := rfl
theorem exec_authDrop v s : exec (.authDrop v) s = execAuthDrop v s := rfl
theorem exec_busctl v s : exec (.busctl v) s = execBusctl v s := rfl
theorem exec_busAccessComplete e s : exec (.busAccessComplete e) s = execBusAccessComplete e s := rfl
theorem exec_coreHalt m q v s : exec (.coreHalt m q v) s = execCoreHalt m q v s := rfl
theorem exec_coreRun m q v s : exec (.coreRun m q v) s = execCoreRun m q v s := rfl
theorem exec_coreStep m q v s : exec (.coreStep m q v) s = execCoreStep m q v s := rfl
theorem exec_systemHalt m v s : exec (.systemHalt m v) s = execSystemHalt m v s := rfl
theorem exec_systemRun m v s : exec (.systemRun m v) s = execSystemRun m v s := rfl
theorem exec_systemStep m v s : exec (.systemStep m v) s = execSystemStep m v s := rfl
theorem exec_stepCountEnd s : exec (.stepCountEnd) s = execStepCountEnd s := rfl
theorem exec_dbgCregData m q write v s : exec (.dbgCregData m q write v) s = execDbgCregData m q write v s := rfl
theorem exec_xtFire m r v s : exec (.xtFire m r v) s = execXtFire m r v s := rfl
theorem exec_arm m v s : exec (.arm m v) s = execArm m v s := rfl
theorem exec_captureTaken s : exec (.captureTaken) s = execCaptureTaken s := rfl
theorem exec_dma m v s : exec (.dma m v) s = execDma m v s := rfl
theorem exec_unloadDone s : exec (.unloadDone) s = execUnloadDone s := rfl
theorem exec_stream m v s : exec (.stream m v) s = execStream m v s := rfl
theorem exec_disarm m v s : exec (.disarm m v) s = execDisarm m v s := rfl
theorem exec_capData m s : exec (.capData m) s = execCapData m s := rfl
theorem exec_patchCtl m q u v s : exec (.patchCtl m q u v) s = execPatchCtl m q u v s := rfl
theorem exec_blkLock m q code v s : exec (.blkLock m q code v) s = execBlkLock m q code v s := rfl
theorem exec_uartTx m u v s : exec (.uartTx m u v) s = execUartTx m u v s := rfl
theorem exec_uartRx m u s : exec (.uartRx m u) s = execUartRx m u s := rfl
theorem exec_uartByteReceived u byte par frm s : exec (.uartByteReceived u byte par frm) s = execUartByteReceived u byte par frm s := rfl
theorem exec_spiCmd m unit v s : exec (.spiCmd m unit v) s = execSpiCmd m unit v s := rfl
theorem exec_spiTransferDone unit rx s : exec (.spiTransferDone unit rx) s = execSpiTransferDone unit rx s := rfl
theorem exec_i3c0Cmd m v s : exec (.i3c0Cmd m v) s = execI3c0Cmd m v s := rfl
theorem exec_i3cTransferDone res rx s : exec (.i3cTransferDone res rx) s = execI3cTransferDone res rx s := rfl
theorem exec_pfWarnNDeassert s : exec (.pfWarnNDeassert) s = execPfWarnNDeassert s := rfl
theorem exec_linkEqualisationComplete link s : exec (.linkEqualisationComplete link) s = execLinkEqualisationComplete link s := rfl
theorem exec_creditReturnDue lane s : exec (.creditReturnDue lane) s = execCreditReturnDue lane s := rfl
theorem exec_uartByteSent u s : exec (.uartByteSent u) s = execUartByteSent u s := rfl

end Sys2Proof.Laws
end

