-- ==== Sys2Proof/Laws/Regs.lean ====
section
/-! SUPPORT. Registers and their fields: a read after a write, and what the operations over registers leave alone. -/

namespace Sys2Proof.Laws

open Sys2Proof.Machine

/-! ### Registers -/

@[simp] theorem reg_setReg_self (d : Dev) (x : RKey) (v : Word) : (d.setReg x v).reg x = v := by
  simp [Dev.reg, Dev.setReg]

theorem reg_setReg_other (d : Dev) {x y : RKey} (v : Word) (h : y ≠ x) : (d.setReg x v).reg y = d.reg y := by
  simpa [Dev.reg, Dev.setReg] using aget_aset_other rkeyLt (regReset x) (regReset y) d.regs v h

/-- A read of one register after a write of another or of the same. -/
theorem reg_setReg (d : Dev) (x y : RKey) (v : Word) : (d.setReg x v).reg y = if y = x then v else d.reg y := by
  by_cases h : y = x
  · subst h; simp
  · simp [h, reg_setReg_other d v h]

theorem setRegN_eq (d : Dev) (x : RKey) (v : Nat) : d.setRegN x v = d.setReg x (BitVec.ofNat 64 v) := rfl

theorem setBit_eq (d : Dev) (x : RKey) (b : Nat) (v : Bool) :
    d.setBit x b v = d.setReg x (putBits (d.reg x) b b (b2n v)) := rfl

theorem setFld_eq (d : Dev) (f : Field) (v q i j k : Nat) :
    d.setFld f v q i j k = d.setReg (f.reg.at q i j k) (putBits (d.reg (f.reg.at q i j k)) f.hi f.lo v) := rfl

theorem bumpTo_eq (d : Dev) (x : RKey) (top : Nat) :
    d.bumpTo x top = d.setReg x (BitVec.ofNat 64 (satAdd (d.regN x) 1 top)) := rfl

theorem bump_eq (d : Dev) (x : RKey) :
    d.bump x = d.setReg x (BitVec.ofNat 64 (satAdd (d.regN x) 1 0xFFFFFFFF)) := rfl

@[simp] theorem reg_answer (d : Dev) (c : RespCode) (v : Word) (x : RKey) : (d.answer c v).reg x = d.reg x := rfl
@[simp] theorem reg_okay (d : Dev) (x : RKey) : d.okay.reg x = d.reg x := rfl
@[simp] theorem reg_send (d : Dev) (m : OutMsg) (x : RKey) : (d.send m).reg x = d.reg x := rfl
@[simp] theorem reg_setByte (d : Dev) (a : Nat) (v : Byte) (x : RKey) : (d.setByte a v).reg x = d.reg x := rfl

@[simp] theorem reg_raise (d : Dev) (q s : Nat) (x : RKey) : (d.raise q s).reg x = d.reg x := by
  unfold Dev.raise; split <;> rfl

/-- An occurrence of a source that exists sets its latch and no other. -/
theorem occ_raise (d : Dev) (q s n : Nat) (h : sourceExists q s = true) :
    nget false (d.raise q s).occ n = if n = q * 1536 + s then true else nget false d.occ n := by
  simp [Dev.raise, h, nget_nset]

/-! ### Fields -/

/-- A field read where it was written. -/
theorem getBits_putBits_self (w : Word) (hi lo v : Nat) (h : lo ≤ hi) (h2 : hi < 64) :
    getBits (putBits w hi lo v) hi lo = v % 2 ^ (hi + 1 - lo) := by
  have hw : w.toNat < 2 ^ 64 := w.isLt
  obtain ⟨n, rfl⟩ : ∃ n, hi = lo + n := ⟨hi - lo, by omega⟩
  have e : lo + n + 1 - lo = n + 1 := by omega
  simp only [getBits, putBits, bitsOf, setBitsN, BitVec.toNat_ofNat, e]
  have hp : 2 ^ (lo + n + 1) = 2 ^ lo * 2 ^ (n + 1) := by rw [← pow_add]; ring_nf
  have hlt : w.toNat / 2 ^ (lo + n + 1) * 2 ^ (lo + n + 1) + v % 2 ^ (n + 1) * 2 ^ lo + w.toNat % 2 ^ lo < 2 ^ 64 := by
    obtain ⟨k, hk⟩ : ∃ k, 64 = lo + n + 1 + k := ⟨64 - (lo + n + 1), by omega⟩
    have h1 : w.toNat / 2 ^ (lo + n + 1) < 2 ^ k := by
      rw [Nat.div_lt_iff_lt_mul (by positivity), ← pow_add]
      exact lt_of_lt_of_eq hw (by rw [hk]; ring_nf)
    have h2 : v % 2 ^ (n + 1) < 2 ^ (n + 1) := Nat.mod_lt _ (by positivity)
    have h3 : w.toNat % 2 ^ lo < 2 ^ lo := Nat.mod_lt _ (by positivity)
    have h4 : (w.toNat / 2 ^ (lo + n + 1) + 1) * 2 ^ (lo + n + 1) ≤ 2 ^ k * 2 ^ (lo + n + 1) :=
      Nat.mul_le_mul_right _ h1
    have h5 : (v % 2 ^ (n + 1) + 1) * 2 ^ lo ≤ 2 ^ (n + 1) * 2 ^ lo := Nat.mul_le_mul_right _ h2
    have h6 : (2 : Nat) ^ 64 = 2 ^ k * 2 ^ (lo + n + 1) := by rw [hk, ← pow_add]; ring_nf
    rw [h6]
    rw [hp] at h4 ⊢
    nlinarith
  rw [Nat.mod_eq_of_lt hlt]
  have h3 : w.toNat % 2 ^ lo < 2 ^ lo := Nat.mod_lt _ (by positivity)
  have hdiv : (w.toNat / 2 ^ (lo + n + 1) * 2 ^ (lo + n + 1) + v % 2 ^ (n + 1) * 2 ^ lo + w.toNat % 2 ^ lo) / 2 ^ lo
      = w.toNat / 2 ^ (lo + n + 1) * 2 ^ (n + 1) + v % 2 ^ (n + 1) := by
    have : w.toNat / 2 ^ (lo + n + 1) * 2 ^ (lo + n + 1) + v % 2 ^ (n + 1) * 2 ^ lo + w.toNat % 2 ^ lo
        = w.toNat % 2 ^ lo + 2 ^ lo * (w.toNat / 2 ^ (lo + n + 1) * 2 ^ (n + 1) + v % 2 ^ (n + 1)) := by
      rw [hp]; ring
    rw [this, Nat.add_mul_div_left _ _ (by positivity), Nat.div_eq_of_lt h3, Nat.zero_add]
  rw [hdiv, Nat.mul_comm, Nat.mul_add_mod, Nat.mod_mod]

/-- The bits of a word after a field is written: inside the field those of the value, outside it those held before. -/
theorem testBit_setBitsN (n hi lo v b : Nat) (h : lo ≤ hi) :
    (setBitsN n hi lo v).testBit b = if lo ≤ b ∧ b ≤ hi then v.testBit (b - lo) else n.testBit b := by
  have e : hi + 1 = lo + (hi + 1 - lo) := by omega
  have h3 : n % 2 ^ lo < 2 ^ lo := Nat.mod_lt _ (by positivity)
  have h5 : v % 2 ^ (hi + 1 - lo) < 2 ^ (hi + 1 - lo) := Nat.mod_lt _ (by positivity)
  have hs : setBitsN n hi lo v
      = 2 ^ lo * (2 ^ (hi + 1 - lo) * (n / 2 ^ (hi + 1)) + v % 2 ^ (hi + 1 - lo)) + n % 2 ^ lo := by
    have : 2 ^ (hi + 1) = 2 ^ lo * 2 ^ (hi + 1 - lo) := by rw [← pow_add, ← e]
    simp only [setBitsN]
    rw [show n / 2 ^ (hi + 1) * 2 ^ (hi + 1) = n / 2 ^ (hi + 1) * (2 ^ lo * 2 ^ (hi + 1 - lo)) by rw [← this]]
    ring
  rw [hs, Nat.testBit_two_pow_mul_add _ h3]
  by_cases hb : b < lo
  · simp [hb, Nat.testBit_mod_two_pow, show ¬ lo ≤ b by omega]
  · rw [if_neg hb, Nat.testBit_two_pow_mul_add _ h5]
    by_cases hc : b - lo < hi + 1 - lo
    · simp [hc, Nat.testBit_mod_two_pow, show lo ≤ b by omega, show b ≤ hi by omega]
    · rw [if_neg hc, Nat.testBit_div_two_pow]
      have : b - lo - (hi + 1 - lo) + (hi + 1) = b := by omega
      simp [show ¬ (lo ≤ b ∧ b ≤ hi) by omega, this]

/-- Every bit of a register value after a field is written. -/
theorem getLsbD_putBits (w : Word) (hi lo v b : Nat) (h : lo ≤ hi) (hb : b < 64) :
    (putBits w hi lo v).getLsbD b = if lo ≤ b ∧ b ≤ hi then v.testBit (b - lo) else w.getLsbD b := by
  simp only [putBits, BitVec.getLsbD_ofNat, hb, decide_true, Bool.true_and, testBit_setBitsN _ _ _ _ _ h]
  rfl

/-- A field that does not meet the one written. -/
theorem getBits_putBits_other (w : Word) (hi lo v hi' lo' : Nat) (h : lo ≤ hi) (h' : hi' < 64) (hd : hi' < lo ∨ hi < lo') :
    getBits (putBits w hi lo v) hi' lo' = getBits w hi' lo' := by
  apply Nat.eq_of_testBit_eq
  intro b
  simp only [getBits, bitsOf, Nat.testBit_mod_two_pow, Nat.testBit_div_two_pow]
  by_cases hb : b < hi' + 1 - lo'
  · simp only [hb, decide_true, Bool.true_and]
    have := getLsbD_putBits w hi lo v (b + lo') h (by omega)
    simp only [BitVec.getLsbD, show ¬ (lo ≤ b + lo' ∧ b + lo' ≤ hi) by omega, if_false] at this
    exact this
  · simp [hb]

end Sys2Proof.Laws
end

