-- ==== Sys2Proof/Laws/Hbm.lean ====
section
/-! SUPPORT. The lower part of HBM, which every ordering code has: where it is homed and which window entry checks it. -/

namespace Sys2Proof.Machine

/-- Every ordering code has at least 96 GiB of HBM (00 R2, R6). -/
theorem orderHbm_ge : 96 ≤ orderHbm Config.order := by
  generalize Config.order = o
  cases o <;> decide

theorem hbmQuarter_ge : 0x200000000 < hbmQuarter := by
  have := orderHbm_ge
  unfold hbmQuarter
  omega

theorem homeOf_low (a : Nat) (h : a < 0x200000000) : homeOf a = 0 := by
  have := hbmQuarter_ge
  exact Nat.div_eq_of_lt (by omega)

theorem isHbm_low (a : Nat) (h : a < 0x200000000) : isHbm a = true := by
  have := hbmQuarter_ge
  simp only [isHbm, decide_eq_true_eq]
  omega

theorem winReg_low (a : Nat) (h : a < 0x200000000) : winReg a = R.WIN_ENT.at 0 (a / 2 ^ 21) := by
  have := hbmQuarter_ge
  simp only [winReg, homeOf_low a h, Nat.mod_eq_of_lt (show a < hbmQuarter by omega)]

theorem stackOf_low (a : Nat) (h : a < 0x200000000) : stackOf a = a / 2 ^ 13 % 2 := by
  have := hbmQuarter_ge
  simp only [stackOf, Nat.mod_eq_of_lt (show a < hbmQuarter by omega)]

/-- Every quarter has its first windows. -/
theorem winPerQuarter_ge : 12288 ≤ winPerQuarter Config.order := by
  have := orderHbm_ge
  unfold winPerQuarter
  omega

/-- What a request that touches `n` lines leaves of a chip whose stream cache is off: a miss of its class for each (09 R265,
MEM-9). -/
def Dev.sccMissed (d : Dev) (oid q : Nat) : Nat → Dev
  | 0 => d
  | n + 1 => (d.bump (R.SCC_MISS.at q (d.sccClass q oid))).sccMissed oid q n

@[simp] theorem sccMissed_mem (n : Nat) : ∀ (d : Dev) (oid q : Nat), (d.sccMissed oid q n).mem = d.mem := by
  induction n with
  | zero => intros; rfl
  | succ n ih => intro d oid q; exact ih _ oid q

@[simp] theorem sccMissed_ecc (n : Nat) : ∀ (d : Dev) (oid q : Nat), (d.sccMissed oid q n).ecc = d.ecc := by
  induction n with
  | zero => intros; rfl
  | succ n ih => intro d oid q; exact ih _ oid q

@[simp] theorem sccMissed_unitBad (d : Dev) (oid q n a : Nat) : (d.sccMissed oid q n).unitBad a = d.unitBad a := by
  simp [Dev.unitBad]

@[simp] theorem sccMissed_bytes (d : Dev) (oid q n k : Nat) : ∀ a, (d.sccMissed oid q n).bytes a k = d.bytes a k := by
  induction k with
  | zero => intro a; rfl
  | succ k ih => intro a; simp [Dev.bytes, Dev.byte, ih]

/-- A count of misses leaves the cache off. -/
theorem bump_sccOff (d : Dev) (c : Nat) :
    ((d.bump (R.SCC_MISS.at 0 c)).reg (R.SCC_CFG.at 0)).getLsbD 0 = (d.reg (R.SCC_CFG.at 0)).getLsbD 0 := by
  rw [Laws.bump_eq, Laws.reg_setReg_other]
  intro h
  cases h

/-- With the stream cache of Q0 off, a request passes it with a miss at each of its lines (09 R265, MEM-9). -/
theorem sccPass_off (d : Dev) (oid a n : Nat) (w x : Bool) (e : HbmErr) (h : a < 0x200000000)
    (hc : (d.reg (R.SCC_CFG.at 0)).getLsbD 0 = false) :
    d.sccPass oid a n w x e = (d.sccMissed oid 0 (blocksOf a n).length, blocksOf a n) := by
  have go : ∀ (l acc : List Nat) (d : Dev), (d.reg (R.SCC_CFG.at 0)).getLsbD 0 = false →
      l.foldl (fun (x' : Dev × List Nat) blk =>
        let r := x'.1.sccLineOf oid (homeOf a) blk w x (if blk = a / 256 then e else .none)
        (r.1, if r.2 then x'.2 else x'.2 ++ [blk])) (d, acc) = (d.sccMissed oid 0 l.length, acc ++ l) := by
    intro l
    induction l with
    | nil => intro acc d _; simp [Dev.sccMissed]
    | cons b l ih =>
      intro acc d hd
      rw [List.foldl_cons]
      simp only [Dev.sccLineOf, homeOf_low a h, hd, if_true]
      have := ih (acc ++ [b]) (d.bump (R.SCC_MISS.at 0 (d.sccClass 0 oid))) (by rw [bump_sccOff]; exact hd)
      simp only [homeOf_low a h] at this
      simpa [Dev.sccLineOf, Dev.sccMissed] using this
  simpa [Dev.sccPass] using go (blocksOf a n) [] d hc

/-- A window that is not fenced lets the owner read and write (09 R250, R258). -/
theorem winOk_low (d : Dev) (a : Nat) (w : Bool) (h : a < 0x200000000)
    (hw : (d.reg (R.WIN_ENT.at 0 (a / 2 ^ 21))).getLsbD 30 = false) : d.winOk 0 a w = true := by
  unfold Dev.winOk
  simp only [winReg_low a h, hw]
  rfl

/-- A domain that is awake is not woken. -/
theorem wakeDom_on (d : Dev) (q i : Nat) (h : d.domCur q i = 0) : d.wakeDom q i = d := by
  unfold Dev.wakeDom
  rw [h]
  rfl

/-- A read of low HBM by the owner, with its dies and stack awake, its window not fenced, the stream cache off and no
marked word, counts its misses and answers the bytes. -/
theorem hbm_read_low (d : Dev) (mid a n : Nat) (x : Bool) (h : a < 0x200000000)
    (hr : d.routeOk (d.midQuarter mid) 0 = true) (hd : d.domCur 0 16 = 0) (hs : d.domCur 0 (17 + a / 2 ^ 13 % 2) = 0)
    (hw : (d.reg (R.WIN_ENT.at 0 (a / 2 ^ 21))).getLsbD 30 = false) (hc : (d.reg (R.SCC_CFG.at 0)).getLsbD 0 = false)
    (hu : (unitsOf a n).filter (fun u => d.unitBad u) = []) :
    d.hbm (rdReq mid 0 a n) x .none = (d.sccMissed 0 0 (blocksOf a n).length, ⟨.okay, d.bytes a n⟩) := by
  have hb : (unitsOf a n).filter (fun u => (d.sccMissed 0 0 (blocksOf a n).length).unitBad u) = [] := by simpa using hu
  simp only [Dev.hbm, rdReq, homeOf_low a h, isHbm_low a h, stackOf_low a h, hr, hs, wakeDom_on d _ _ hd, wakeDom_on d _ _ hs,
    Dev.hbmServe, winOk_low d a _ h hw, sccPass_off d _ a n _ _ _ h hc, Bool.not_true, Bool.false_eq_true, if_false,
    false_or, show ((0 : Nat) = 2) = False from by simp, ite_self, hb, if_true, List.filter_nil, List.foldl_nil, sccMissed_bytes]

/-- A write of low HBM by the owner, with its dies and stack awake, its window not fenced and the stream cache off, counts
its misses and stores the bytes. -/
theorem hbm_write_low (d : Dev) (mid a n v : Nat) (x : Bool) (h : a < 0x200000000)
    (hr : d.routeOk (d.midQuarter mid) 0 = true) (hd : d.domCur 0 16 = 0) (hs : d.domCur 0 (17 + a / 2 ^ 13 % 2) = 0)
    (hw : (d.reg (R.WIN_ENT.at 0 (a / 2 ^ 21))).getLsbD 30 = false) (hc : (d.reg (R.SCC_CFG.at 0)).getLsbD 0 = false) :
    d.hbm (wrReq mid 0 a n v) x .none =
      (((d.sccMissed 0 0 (blocksOf a n).length).setBytes a (leBytes v n)).coverUnits a n, ⟨.okay, []⟩) := by
  simp only [Dev.hbm, wrReq, homeOf_low a h, isHbm_low a h, stackOf_low a h, hr, hs, wakeDom_on d _ _ hd, wakeDom_on d _ _ hs,
    Dev.hbmServe, winOk_low d a _ h hw, sccPass_off d _ a n _ _ _ h hc, Bool.not_true, Bool.false_eq_true, if_false,
    false_or, if_true, show ((0 : Nat) = 2) = False from by simp]

/-- A request of low HBM whose stack is OFF answers SLVERR (19 R527). -/
theorem hbm_off_low (d : Dev) (a : Access) (x : Bool) (e : HbmErr) (h : a.addr < 0x200000000)
    (hs : d.domCur 0 (17 + a.addr / 2 ^ 13 % 2) = 2) : d.hbm a x e = d.fail 0 a .slverr := by
  simp only [Dev.hbm, homeOf_low _ h, isHbm_low _ h, stackOf_low _ h, hs, Bool.not_true, Bool.false_eq_true, if_false, or_true, if_true]

end Sys2Proof.Machine
end

