-- ==== Sys2Proof/Laws/Memory.lean ====
section
/-! SUPPORT. Device memory: a byte read after a write, and the canonical form that every operation over memory keeps. -/

namespace Sys2Proof.Laws

open Sys2Proof.Machine

/-! ### Read after write -/

@[simp] theorem byte_setByte_self (d : Dev) (a : Nat) (v : Byte) : (d.setByte a v).byte a = v := by
  simp [Dev.byte, Dev.setByte]

theorem byte_setByte_other (d : Dev) {a b : Nat} (v : Byte) (h : b ≠ a) : (d.setByte a v).byte b = d.byte b := by
  simpa [Dev.byte, Dev.setByte] using aget_aset_other natLt (memDflt a) (memDflt b) d.mem v h

/-- A write of bytes leaves every address outside them. -/
theorem byte_setBytes_outside (bs : List Byte) (d : Dev) {a b : Nat} (h : b < a ∨ a + bs.length ≤ b) :
    (d.setBytes a bs).byte b = d.byte b := by
  induction bs generalizing d a with
  | nil => rfl
  | cons x r ih =>
    simp only [List.length_cons] at h
    rw [Dev.setBytes, ih (d.setByte a x) (by omega), byte_setByte_other d x (by omega)]

/-- Bytes read where they were written. -/
theorem byte_setBytes_inside (bs : List Byte) (d : Dev) (a i : Nat) (h : i < bs.length) :
    (d.setBytes a bs).byte (a + i) = bs[i] := by
  induction bs generalizing d a i with
  | nil => simp at h
  | cons x r ih =>
    rw [Dev.setBytes]
    cases i with
    | zero => rw [byte_setBytes_outside r _ (by omega)]; simp
    | succ j =>
      simp only [List.length_cons] at h
      have := ih (d.setByte a x) (a + 1) j (by omega)
      simpa [Nat.add_comm, Nat.add_left_comm, Nat.add_assoc] using this

/-! ### The canonical form -/

theorem memory_wf_cons {a : Nat} {v : Byte} {r : List Host.Cell} :
    Memory.wf ((a, v) :: r) = true ↔ v ≠ memDflt a ∧ (∀ e ∈ r, a < e.1) ∧ Memory.wf r = true := by
  simp [Memory.wf, and_assoc]

/-- Forgetting entries keeps the form. -/
theorem memory_wf_filter (p : Host.Cell → Bool) (m : List Host.Cell) (h : Memory.wf m = true) :
    Memory.wf (m.filter p) = true := by
  induction m with
  | nil => rfl
  | cons e r ih =>
    obtain ⟨a, v⟩ := e
    obtain ⟨hv, hr, hw⟩ := memory_wf_cons.1 h
    rw [List.filter_cons]
    split
    · exact memory_wf_cons.2 ⟨hv, fun e he => hr e (List.mem_of_mem_filter he), ih hw⟩
    · exact ih hw

theorem mem_ains {lt : Nat → Nat → Bool} {k : Nat} {v : Byte} {m : List Host.Cell} {e : Host.Cell}
    (h : e ∈ ains lt k v m) : e = (k, v) ∨ e ∈ m := by
  induction m with
  | nil => simpa [ains] using h
  | cons x r ih =>
    obtain ⟨k', v'⟩ := x
    unfold ains at h
    split at h
    · simpa using h
    · rcases List.mem_cons.1 h with h | h
      · exact .inr (by simp [h])
      · rcases ih h with h | h
        · exact .inl h
        · exact .inr (List.mem_cons_of_mem _ h)

/-- Putting in an entry at a key that is not listed keeps the form. -/
theorem memory_wf_ains (a : Nat) (v : Byte) (m : List Host.Cell) (h : Memory.wf m = true) (hv : v ≠ memDflt a)
    (hn : ∀ e ∈ m, e.1 ≠ a) : Memory.wf (ains natLt a v m) = true := by
  induction m with
  | nil => exact memory_wf_cons.2 ⟨hv, by simp, rfl⟩
  | cons x r ih =>
    obtain ⟨k, w⟩ := x
    obtain ⟨hw, hr, hwf⟩ := memory_wf_cons.1 h
    have hk : k ≠ a := hn (k, w) (by simp)
    unfold ains
    split
    · next hlt =>
      have hlt' : a < k := by simpa [natLt] using hlt
      refine memory_wf_cons.2 ⟨hv, fun e he => ?_, h⟩
      rcases List.mem_cons.1 he with rfl | he
      · exact hlt'
      · exact Nat.lt_trans hlt' (hr e he)
    · next hge =>
      have hge' : k < a := by have : ¬ a < k := by simpa [natLt] using hge
                              omega
      refine memory_wf_cons.2 ⟨hw, fun e he => ?_, ih hwf (fun e he => hn e (List.mem_cons_of_mem _ he))⟩
      rcases mem_ains he with rfl | he
      · exact hge'
      · exact hr e he

/-- A byte write keeps the form. -/
theorem memory_wf_setByte (d : Dev) (a : Nat) (v : Byte) (h : Memory.wf d.mem = true) :
    Memory.wf (d.setByte a v).mem = true := by
  have hdel : Memory.wf (adel d.mem a) = true := memory_wf_filter _ _ h
  show Memory.wf (aset natLt (memDflt a) d.mem a v) = true
  unfold aset
  split
  · exact hdel
  · next hv => exact memory_wf_ains a v _ hdel hv (adel_keys d.mem a)

/-- A write of several bytes keeps the form. -/
theorem memory_wf_setBytes (bs : List Byte) (d : Dev) (a : Nat) (h : Memory.wf d.mem = true) :
    Memory.wf (d.setBytes a bs).mem = true := by
  induction bs generalizing d a with
  | nil => exact h
  | cons x r ih => exact ih (d.setByte a x) (a + 1) (memory_wf_setByte d a x h)

/-- A write of a word keeps the form. -/
theorem memory_wf_setMemN (d : Dev) (a n v : Nat) (h : Memory.wf d.mem = true) : Memory.wf (d.setMemN a n v).mem = true :=
  memory_wf_setBytes _ d a h

/-- Zeroing a range keeps the form. -/
theorem memory_wf_zeroMem (d : Dev) (a n : Nat) (h : Memory.wf d.mem = true) : Memory.wf (d.zeroMem a n).mem = true :=
  memory_wf_filter _ _ h

end Sys2Proof.Laws
end

