-- ==== Sys2Proof/WellFormed.lean ====
section
/-! DEFINITION. Which commands are well-formed: every operand lies in the range that the spec gives the thing it names. The
machine gives every command a meaning; these ranges say which of them can occur. -/

namespace Sys2Proof

/-- A master of the NoC has a 12-bit MID and an 11-bit OID (09 MEM-2, R251); cores, channel-sequencer groups, debug, boot
engine and power manager carry OID 0. -/
abbrev Mst.wf (m : Mst) : Prop :=
  m.mid < 4096 ∧ m.oid < 2048 ∧ (m.mid < 0x40 ∨ (0x480 ≤ m.mid ∧ m.mid < 0x500) → m.oid = 0)

/-- An access has a 48-bit address, 1 to 512 bytes and no more data than that (09 R249, R256). -/
abbrev Access.wf (a : Access) : Prop := a.m.wf ∧ a.addr < 2 ^ 48 ∧ 0 < a.size ∧ a.size ≤ 512 ∧ a.data < 256 ^ a.size

/-- An access of a core: 1, 2, 4 or 8 bytes, an AMO 4 or 8, a fetch 2 or 4. -/
def CoreAcc.wf (a : CoreAcc) : Bool :=
  decide (a.addr < 2 ^ 64 ∧ a.rd < 32 ∧ a.value < 256 ^ a.size) && (match a.kind with
    | .fetch => [2, 4].contains a.size
    | .amo => [4, 8].contains a.size
    | _ => [1, 2, 4, 8].contains a.size)

/-- What a core executes: a trap value and an instruction word have the widths of CORE. -/
def CoreAct.wf : CoreAct → Bool
  | .raise _ tval => decide (tval < 2 ^ 64)
  | .access a _ => a.wf
  | .custom w => decide (w < 2 ^ 32)
  | .leftOut => true
  | .wfi => true

/-- An error strikes a store of one of the 4,608 physical tiles: a context entry (cell, index), a switch entry or a sequencer
word (index), a tile-memory word (bank, word) (05 TILE-1). -/
abbrev Upset.wf (u : Upset) : Prop :=
  u.tile < 4608 ∧ u.syn < 1024 ∧ u.cell < 16 ∧ (if u.store = .tmem then u.cell < 4 ∧ u.idx < 2048 else u.idx < 64)

/-- A flit names one of four virtual channels and is head, body or tail, of 256 bits (07 LEAP-9). -/
abbrev NslFlit.wf (f : NslFlit) : Bool := decide (f.vc < 4 ∧ 0 < f.type ∧ f.type < 4 ∧ f.flit < 2 ^ 256)

/-- A boot checks five sources (18 R504). -/
abbrev BootIn.wf (b : BootIn) : Prop := b.unread.length = 5

/-- The widths of a link (13 R366). -/
def laneWidths : List Nat := [1, 2, 4, 8, 16]

/-- Every operand in its range: quarter below 4, cluster below 64, slot position below 4, vertical port below 1,024, core below
64, link below 32, lane below 64, media channel below 576, queue record below 4,096, task below 2^20, a leap block's first
cycle a multiple of 4, and so on, by the register maps of 24 and the chapters of the blocks. -/
def Instr.wf (i : Instr) : Bool :=
  match i with
  | .registerWrite a => decide (a.wf)
  | .tickEdge _ => true
  | .executedCycle ups => ups.all (fun u => decide u.wf)
  | .frameAdmission slot => decide (slot < 256)
  | .ctxWriteback _ tile cell idx => decide (tile < 4096 ∧ cell < 16 ∧ idx < 64)
  | .draw vp => decide (vp < 1024)
  | .headStageEntry vp => decide (vp < 1024)
  | .tmemNocAccess _ => true
  | .nocTimeout _ => true
  | .tmemWriteback tile bank word => decide (tile < 4096 ∧ bank < 4 ∧ word < 2048)
  | .tmemOwn m q l p v => decide (m.wf ∧ q < 4 ∧ l < 16 ∧ p < 72 ∧ v < 2 ^ 64)
  | .bankMolt tile bank => decide (tile < 4096 ∧ bank < 4)
  | .agreg m q l p n v => decide (m.wf ∧ q < 4 ∧ l < 16 ∧ p < 72 ∧ n < 32 ∧ v < 2 ^ 64)
  | .define m c p stride phase => decide (m.wf ∧ c < 64 ∧ p < 4 ∧ stride < 4 ∧ phase < 4)
  | .definitionComplete c p => decide (c < 64 ∧ p < 4)
  | .undefine m c p => decide (m.wf ∧ c < 64 ∧ p < 4)
  | .start m c p => decide (m.wf ∧ c < 64 ∧ p < 4)
  | .slotLive c p => decide (c < 64 ∧ p < 4)
  | .stopDrain m c p => decide (m.wf ∧ c < 64 ∧ p < 4)
  | .stopAbort m c p => decide (m.wf ∧ c < 64 ∧ p < 4)
  | .sweepEnd c p => decide (c < 64 ∧ p < 4)
  | .molt m c p => decide (m.wf ∧ c < 64 ∧ p < 4)
  | .moltComplete c p => decide (c < 64 ∧ p < 4)
  | .badCmd m c p code => decide (m.wf ∧ c < 64 ∧ p < 4 ∧ (code = 0 ∨ 7 ≤ code ∧ code < 16))
  | .slotFoot m c p v => decide (m.wf ∧ c < 64 ∧ p < 4 ∧ v < 2 ^ 64)
  | .slotOid m c p v => decide (m.wf ∧ c < 64 ∧ p < 4 ∧ v < 2 ^ 64)
  | .slotFrame m c p v => decide (m.wf ∧ c < 64 ∧ p < 4 ∧ v < 2 ^ 64)
  | .slotExit m c p v => decide (m.wf ∧ c < 64 ∧ p < 4 ∧ v < 2 ^ 64)
  | .gfp m c p n v => decide (m.wf ∧ c < 64 ∧ p < 4 ∧ n < 4 ∧ v < 2 ^ 64)
  | .vpCfg m c n v => decide (m.wf ∧ c < 64 ∧ n < 16 ∧ v < 2 ^ 64)
  | .lpb m c ix v => decide (m.wf ∧ c < 64 ∧ ix < 8 ∧ v < 2 ^ 64)
  | .regrow m c col => decide (m.wf ∧ c < 64 ∧ col < 16)
  | .slotPause slot => decide (slot < 256)
  | .columnCopy c => decide (c < 64)
  | .slotResume slot => decide (slot < 256)
  | .retire m c => decide (m.wf ∧ c < 64)
  | .retirementTeardown c => decide (c < 64)
  | .blockCheck ch t0 _ _ => decide (ch < 256 ∧ t0 % 4 = 0)
  | .resend dir t0 _ _ => decide (dir < 8 ∧ t0 % 4 = 0)
  | .retryCheck dir t0 _ => decide (dir < 8 ∧ t0 % 4 = 0)
  | .delayLineRelease ch => decide (ch < 256)
  | .fillerBlock ch _ => decide (ch < 256)
  | .rateWindow dir => decide (dir < 8)
  | .realignment ch _ => decide (ch < 256)
  | .lfclkLoss dir => decide (dir < 8)
  | .bridgeTraining br _ => decide (br < 4)
  | .repair m q pg dir => decide (m.wf ∧ q < 4 ∧ pg < 2 ∧ dir < 2)
  | .retrain m q pg dir => decide (m.wf ∧ q < 4 ∧ pg < 2 ∧ dir < 2)
  | .repairDone br _ _ => decide (br < 4)
  | .dirCfg m q pg dir v => decide (m.wf ∧ q < 4 ∧ pg < 2 ∧ dir < 2 ∧ v < 2 ^ 64)
  | .nslFrame dir offer _ => decide (dir < 8) && offer.all NslFlit.wf
  | .nfclkLoss dir => decide (dir < 8)
  | .loadFull q r => decide (q < 4 ∧ r < 4096)
  | .loadPatch q r => decide (q < 4 ∧ r < 4096)
  | .loadVerify q r => decide (q < 4 ∧ r < 4096)
  | .loadStatus q r => decide (q < 4 ∧ r < 4096)
  | .loadCompletion slot ups => decide (slot < 256) && ups.all (fun u => decide u.wf)
  | .nocRequest a _ _ => decide (a.wf)
  | .hbmAccess a _ _ => decide (a.wf)
  | .winEnt m q ix v => decide (m.wf ∧ q < 4 ∧ ix < 24576 ∧ v < 2 ^ 64)
  | .windowMolt q => decide (q < 4)
  | .fenceCompletion mid => decide (mid < 4096)
  | .grpRate m q g v => decide (m.wf ∧ q < 4 ∧ g < 64 ∧ v < 2 ^ 64)
  | .nocWeight m q g v => decide (m.wf ∧ q < 4 ∧ g < 64 ∧ v < 2 ^ 64)
  | .jattr m vp j v => decide (m.wf ∧ vp < 1024 ∧ j < 2 ∧ v < 2 ^ 64)
  | .jobStart vp _ _ => decide (vp < 1024)
  | .elementMove vp _ _ _ => decide (vp < 1024)
  | .chainFormed vp => decide (vp < 1024)
  | .jobEnd vp => decide (vp < 1024)
  | .senCtrl m vp v => decide (m.wf ∧ vp < 1024 ∧ v < 2 ^ 64)
  | .submit m q t => decide (m.wf ∧ q < 4 ∧ t < 2 ^ 20)
  | .signal m q t => decide (m.wf ∧ q < 4 ∧ t < 2 ^ 20)
  | .wake m q t => decide (m.wf ∧ q < 4 ∧ t < 2 ^ 20)
  | .cancel m q t => decide (m.wf ∧ q < 4 ∧ t < 2 ^ 20)
  | .run n => decide (n < 64)
  | .preempt q => decide (q < 4)
  | .hand slot => decide (slot < 256)
  | .wakeTimeReached q => decide (q < 4)
  | .heldCommandPlaced q => decide (q < 4)
  | .dspRepl m q r _ v => decide (m.wf ∧ q < 4 ∧ r < 16 ∧ v < 2 ^ 64)
  | .xbrd n rd ix => decide (n < 64 ∧ rd < 32 ∧ ix < 32)
  | .xbwr n rs1 ix => decide (n < 64 ∧ rs1 < 32 ∧ ix < 32)
  | .xyield n => decide (n < 64)
  | .xwaitEvent n rd => decide (n < 64 ∧ rd < 32)
  | .xwaitDep n rd => decide (n < 64 ∧ rd < 32)
  | .xwaitDelay n rd rs1 => decide (n < 64 ∧ rd < 32 ∧ rs1 < 32)
  | .xwaitEventOrDelay n rd rs1 => decide (n < 64 ∧ rd < 32 ∧ rs1 < 32)
  | .xdone n rs1 rs2 => decide (n < 64 ∧ rs1 < 32 ∧ rs2 < 32)
  | .xsig n rd rs1 => decide (n < 64 ∧ rd < 32 ∧ rs1 < 32)
  | .eventEntry n => decide (n < 64)
  | .exceptionTrap n len x => decide (n < 64) && (decide (len = 2) || decide (len = 4)) && x.wf
  | .mret n => decide (n < 64)
  | .fpExchange n _ _ => decide (n < 64)
  | .ebreak n => decide (n < 64)
  | .xevdepth n csr rd w => decide (n < 64 ∧ csr < 4096 ∧ rd < 32) && decide (w.getD 0 < 2 ^ 64)
  | .coreCtrl m n v => decide (m.wf ∧ n < 64 ∧ v < 2 ^ 64)
  | .bnkOwner m n v => decide (m.wf ∧ n < 64 ∧ v < 2 ^ 64)
  | .homeBankClear n => decide (n < 64)
  | .homeBankAccess a port0 _ => decide (a.wf) && port0.all (fun p => decide (p.1 < 65536 ∧ p.2 < 2 ^ 64))
  | .bnkCeWriteback n w => decide (n < 64 ∧ w < 2 ^ 16)
  | .evtClaim m q c => decide (m.wf ∧ q < 4 ∧ c < 16)
  | .evtSwset m q w v => decide (m.wf ∧ q < 4 ∧ w < 8 ∧ v < 2 ^ 64)
  | .evtRoute m q src v => decide (m.wf ∧ q < 4 ∧ src < 1536 ∧ v < 2 ^ 64)
  | .timer q ix => decide (q < 4 ∧ ix < 32)
  | .evtTmrCtrl m q ix v => decide (m.wf ∧ q < 4 ∧ ix < 32 ∧ v < 2 ^ 64)
  | .evtTmrPeriod m q ix v => decide (m.wf ∧ q < 4 ∧ ix < 32 ∧ v < 2 ^ 64)
  | .watermarkThresholdWrite m _ q _ _ _ v => decide (m.wf ∧ q < 4 ∧ v < 2 ^ 64)
  | .mbxLock m q ch v => decide (m.wf ∧ q < 4 ∧ ch < 256 ∧ v < 2 ^ 64)
  | .mbxHlock m q ix v => decide (m.wf ∧ q < 4 ∧ ix < 264 ∧ v < 2 ^ 64)
  | .mbxSptr m q ch v => decide (m.wf ∧ q < 4 ∧ ch < 520 ∧ v < 2 ^ 64)
  | .mbxSlt m q ch v => decide (m.wf ∧ q < 4 ∧ ch < 520 ∧ v < 2 ^ 64)
  | .croakDelivery q ch => decide (q < 4 ∧ ch < 520)
  | .mbxRlt m q ch => decide (m.wf ∧ q < 4 ∧ ch < 520)
  | .mbxWord m q ch v => decide (m.wf ∧ q < 4 ∧ ch < 520 ∧ v < 2 ^ 64)
  | .mbxWordRead m q ch => decide (m.wf ∧ q < 4 ∧ ch < 520)
  | .hifLctrl m link v => decide (m.wf ∧ link < 32 ∧ v < 2 ^ 64)
  | .receiverDetected link => decide (link < 32)
  | .linkUp link speed width _ => decide (link < 32 ∧ speed < 8 ∧ width ∈ laneWidths)
  | .absent link => decide (link < 32)
  | .trainFail link => decide (link < 32)
  | .linkLoss link vps => decide (link < 32 ∧ vps.all (fun v => decide (v < 1024)) = true)
  | .hostPerstNAssert port => decide (port < 8)
  | .hostPerstNRelease port => decide (port < 8)
  | .hotReset link => decide (link < 32)
  | .flrPf oid => decide (oid < 2048)
  | .flrVf oid => decide (oid < 2048)
  | .vfEnableCleared oid _ => decide (oid < 2048)
  | .functionResetComplete oid => decide (oid < 2048)
  | .d3hotEntry oid => decide (oid < 2048)
  | .d0Return oid => decide (oid < 2048)
  | .l0pWidthChange link w => decide (link < 32 ∧ w ∈ laneWidths)
  | .barRequest oid bar _ _ _ _ => decide (oid < 2048 ∧ bar < 6)
  | .configurationRequest oid _ => decide (oid < 2048)
  | .hostCompletion vp _ => decide (vp < 1024)
  | .completionTimeout vp => decide (vp < 1024)
  | .sqTail m q ix v => decide (m.wf ∧ q < 4 ∧ ix < 1024 ∧ v < 2 ^ 64)
  | .cqHead m q ix v => decide (m.wf ∧ q < 4 ∧ ix < 1024 ∧ v < 2 ^ 64)
  | .qpCtrl m q ix v => decide (m.wf ∧ q < 4 ∧ ix < 1024 ∧ v < 2 ^ 64)
  | .fetchDecision q _ => decide (q < 4)
  | .sqReadError q => decide (q < 4)
  | .invoke q r => decide (q < 4 ∧ r < 4096)
  | .copy q r _ _ _ _ _ => decide (q < 4 ∧ r < 4096)
  | .fill q r _ _ _ => decide (q < 4 ∧ r < 4096)
  | .fence q r => decide (q < 4 ∧ r < 4096)
  | .queNop q r => decide (q < 4 ∧ r < 4096)
  | .query q r => decide (q < 4 ∧ r < 4096)
  | .createQ q r => decide (q < 4 ∧ r < 4096)
  | .deleteQ q r => decide (q < 4 ∧ r < 4096)
  | .bindWindow q r => decide (q < 4 ∧ r < 4096)
  | .startSlot q r => decide (q < 4 ∧ r < 4096)
  | .stopSlot q r => decide (q < 4 ∧ r < 4096)
  | .stopSlotAbort q r => decide (q < 4 ∧ r < 4096)
  | .mgmtMolt q r => decide (q < 4 ∧ r < 4096)
  | .setEntry q r => decide (q < 4 ∧ r < 4096)
  | .quenchFinish q r => decide (q < 4 ∧ r < 4096)
  | .quenchAbort q r => decide (q < 4 ∧ r < 4096)
  | .unquench q r => decide (q < 4 ∧ r < 4096)
  | .media q r => decide (q < 4 ∧ r < 4096)
  | .fwCall q r => decide (q < 4 ∧ r < 4096)
  | .qeFwdone m q v => decide (m.wf ∧ q < 4 ∧ v < 2 ^ 64)
  | .tongueQuench => true
  | .tongueUnquench => true
  | .tongueStopSlot => true
  | .cqEntryWrite q r => decide (q < 4 ∧ r < 4096)
  | .itimeExpiry q ix => decide (q < 4 ∧ ix < 1024)
  | .pairDrained q ix => decide (q < 4 ∧ ix < 1024)
  | .msqPost m ch v => decide (m.wf ∧ ch < 576 ∧ v < 2 ^ 64)
  | .listFetch ch _ => decide (ch < 576)
  | .listStart ch => decide (ch < 576)
  | .busGrant ch => decide (ch < 576)
  | .listEnd ch x => decide (ch < 576 ∧ x < 8)
  | .hdr ch x => decide (ch < 576 ∧ x < 8)
  | .cmd ch x => decide (ch < 576 ∧ x < 8)
  | .addr ch x => decide (ch < 576 ∧ x < 8)
  | .dout ch x _ _ => decide (ch < 576 ∧ x < 8)
  | .din ch x _ => decide (ch < 576 ∧ x < 8)
  | .waitrb ch x sr => decide (ch < 576 ∧ x < 8 ∧ sr < 256)
  | .readySeen ch x sr _ => decide (ch < 576 ∧ x < 8 ∧ sr < 256)
  | .waitrbTimeout ch x => decide (ch < 576 ∧ x < 8)
  | .delay ch x => decide (ch < 576 ∧ x < 8)
  | .delayExpiry ch x => decide (ch < 576 ∧ x < 8)
  | .feature ch x _ sr _ => decide (ch < 576 ∧ x < 8 ∧ sr < 256)
  | .brstat ch x => decide (ch < 576 ∧ x < 8)
  | .offsets ch x _ sr => decide (ch < 576 ∧ x < 8 ∧ sr < 256)
  | .probe ch x _ sr _ _ => decide (ch < 576 ∧ x < 8 ∧ sr < 256)
  | .beginProg ch x => decide (ch < 576 ∧ x < 8)
  | .beginErase ch x => decide (ch < 576 ∧ x < 8)
  | .endOp ch x => decide (ch < 576 ∧ x < 8)
  | .suspend ch x => decide (ch < 576 ∧ x < 8)
  | .resume ch x => decide (ch < 576 ∧ x < 8)
  | .tokenGrant => true
  | .completionRecord ch x => decide (ch < 576 ∧ x < 8)
  | .stop m ch v => decide (m.wf ∧ ch < 576 ∧ v < 2 ^ 64)
  | .wpn m ch v => decide (m.wf ∧ ch < 576 ∧ v < 2 ^ 64)
  | .msqChcfg m ch v => decide (m.wf ∧ ch < 576 ∧ v < 2 ^ 64)
  | .nphCfg m n v => decide (m.wf ∧ n < 64 ∧ v < 2 ^ 64)
  | .nphTrain m n v => decide (m.wf ∧ n < 64 ∧ v < 2 ^ 64)
  | .nphTrainingDone n _ rm wm => decide (n < 64 ∧ rm < 256 ∧ wm < 256)
  | .msqRrp m q j v => decide (m.wf ∧ q < 4 ∧ j < 16 ∧ v < 2 ^ 64)
  | .msqOpcap m q v => decide (m.wf ∧ q < 4 ∧ v < 2 ^ 64)
  | .pfWarn => true
  | .dumpComplete => true
  | .msqPfclr m q v => decide (m.wf ∧ q < 4 ∧ v < 2 ^ 64)
  | .msqOpdarm m q v => decide (m.wf ∧ q < 4 ∧ v < 2 ^ 64)
  | .tetLctrl m lane v => decide (m.wf ∧ lane < 64 ∧ v < 2 ^ 64)
  | .tetRetrain m lane v => decide (m.wf ∧ lane < 64 ∧ v < 2 ^ 64)
  | .signalDetect lane => decide (lane < 64)
  | .lossOfSignal lane => decide (lane < 64)
  | .trainingFrame lane word _ _ => decide (lane < 64 ∧ word < 2048)
  | .codeword lane head _ _ => decide (lane < 64 ∧ head < 2 ^ 20)
  | .identSend lane => decide (lane < 64)
  | .ident lane _ _ => decide (lane < 64)
  | .laneAbsent lane => decide (lane < 64)
  | .trainRestart lane => decide (lane < 64)
  | .mute lane => decide (lane < 64)
  | .backoffEnd lane => decide (lane < 64)
  | .retrainTimeout lane => decide (lane < 64)
  | .cmdFlit lane k => decide (lane < 64 ∧ k < 8)
  | .wdata lane k _ _ => decide (lane < 64 ∧ k < 8)
  | .resp lane _ _ => decide (lane < 64)
  | .rdata lane _ _ => decide (lane < 64)
  | .mgmt lane _ _ => decide (lane < 64)
  | .lctl lane _ _ => decide (lane < 64)
  | .nak lane _ _ => decide (lane < 64)
  | .rtrn lane _ _ => decide (lane < 64)
  | .replayTimeout lane => decide (lane < 64)
  | .tetMcmd m lane v => decide (m.wf ∧ lane < 64 ∧ v < 2 ^ 64)
  | .mgmtTimeout lane => decide (lane < 64)
  | .calLookup ch x => decide (ch < 576 ∧ x < 8)
  | .flipRecord q ring => decide (q < 4 ∧ ring < 8)
  | .calRead m q v => decide (m.wf ∧ q < 4 ∧ v < 2 ^ 64)
  | .calWrite m q v => decide (m.wf ∧ q < 4 ∧ v < 2 ^ 64)
  | .calInvalidate m q v => decide (m.wf ∧ q < 4 ∧ v < 2 ^ 64)
  | .calFlush m q v => decide (m.wf ∧ q < 4 ∧ v < 2 ^ 64)
  | .cacheWriteback q e => decide (q < 4 ∧ e < 278528)
  | .calWalk q e => decide (q < 4 ∧ e < 278528)
  | .retrainCheck q _ => decide (q < 4)
  | .calCtrl m q v => decide (m.wf ∧ q < 4 ∧ v < 2 ^ 64)
  | .calFrbase m q r v => decide (m.wf ∧ q < 4 ∧ r < 8 ∧ v < 2 ^ 64)
  | .porstNAssert => true
  | .porstNRelease b => decide (b.wf)
  | .sysrstNAssert => true
  | .sysrstNRelease b => decide (b.wf)
  | .pllLock q _ => decide (q < 4)
  | .hbmTraining _ => true
  | .confDone _ => true
  | .program m q => decide (m.wf ∧ q < 4)
  | .erase m q => decide (m.wf ∧ q < 4)
  | .blankchk m q => decide (m.wf ∧ q < 4)
  | .flsCommandDone q => decide (q < 4)
  | .aoFailover m v => decide (m.wf ∧ v < 2 ^ 64)
  | .heartbeat _ _ _ => true
  | .heartbeatTimeout => true
  | .takeover => true
  | .pllLockLoss q => decide (q < 4)
  | .railOutOfRange => true
  | .dtimeCompare bridge _ => decide (bridge < 4)
  | .alignmentEdge => true
  | .quarterRealignment q => decide (q < 4)
  | .rstQctl m q v => decide (m.wf ∧ q < 4 ∧ v < 2 ^ 64)
  | .quarterResetRelease q => decide (q < 4)
  | .rstClu m q v => decide (m.wf ∧ q < 4 ∧ v < 2 ^ 64)
  | .domainOn m q dom => decide (m.wf ∧ q < 4 ∧ dom < 19)
  | .domainBask m q dom => decide (m.wf ∧ q < 4 ∧ dom < 19)
  | .domainOff m q dom => decide (m.wf ∧ q < 4 ∧ dom < 19)
  | .domainTransitionDone q dom => decide (q < 4 ∧ dom < 19)
  | .sensorConversion q unit raw => decide (q < 4 ∧ unit < 16 ∧ raw < 4096)
  | .throttleStep => true
  | .thermTrip unit => decide (unit < 64)
  | .estimateCorrection q _ => decide (q < 4)
  | .peakExcursion _ => true
  | .avsStep => true
  | .avsTelemetry _ _ => true
  | .rcCalibration => true
  | .fltPprCmd m q v => decide (m.wf ∧ q < 4 ∧ v < 2 ^ 64)
  | .pprComplete q res => decide (q < 4 ∧ res < 8)
  | .rget head => decide (head < 2 ^ 16)
  | .rput head data crc => decide (head < 2 ^ 16 ∧ data < 2 ^ 32 ∧ crc < 256)
  | .dbgCancel head _ _ => decide (head < 2 ^ 16)
  | .resync => true
  | .authStart v => decide (v < 2 ^ 64)
  | .nonceReady _ => true
  | .nonce => true
  | .authData v => decide (v < 2 ^ 64)
  | .authSubmit v => decide (v < 2 ^ 64)
  | .verificationComplete => true
  | .lockoutEnd => true
  | .authDrop v => decide (v < 2 ^ 64)
  | .busctl v => decide (v < 2 ^ 64)
  | .busAccessComplete _ => true
  | .coreHalt m q v => decide (m.wf ∧ q < 4 ∧ v < 2 ^ 64)
  | .coreRun m q v => decide (m.wf ∧ q < 4 ∧ v < 2 ^ 64)
  | .coreStep m q v => decide (m.wf ∧ q < 4 ∧ v < 2 ^ 64)
  | .systemHalt m v => decide (m.wf ∧ v < 2 ^ 64)
  | .systemRun m v => decide (m.wf ∧ v < 2 ^ 64)
  | .systemStep m v => decide (m.wf ∧ v < 2 ^ 64)
  | .stepCountEnd => true
  | .dbgCregData m q _ v => decide (m.wf ∧ q < 4 ∧ v < 2 ^ 64)
  | .xtFire m r v => decide (m.wf ∧ r < 4 ∧ v < 2 ^ 64)
  | .arm m v => decide (m.wf ∧ v < 2 ^ 64)
  | .captureTaken => true
  | .dma m v => decide (m.wf ∧ v < 2 ^ 64)
  | .unloadDone => true
  | .stream m v => decide (m.wf ∧ v < 2 ^ 64)
  | .disarm m v => decide (m.wf ∧ v < 2 ^ 64)
  | .capData m => decide (m.wf)
  | .patchCtl m q u v => decide (m.wf ∧ q < 4 ∧ u < 64 ∧ v < 2 ^ 64)
  | .blkLock m q code v => decide (m.wf ∧ q < 4 ∧ code < 256 ∧ v < 2 ^ 64)
  | .uartTx m u v => decide (m.wf ∧ u < 4 ∧ v < 2 ^ 64)
  | .uartRx m u => decide (m.wf ∧ u < 4)
  | .uartByteReceived u byte _ _ => decide (u < 4 ∧ byte < 256)
  | .spiCmd m unit v => decide (m.wf ∧ unit < 2 ∧ v < 2 ^ 64)
  | .spiTransferDone unit _ => decide (unit < 2)
  | .i3c0Cmd m v => decide (m.wf ∧ v < 2 ^ 64)
  | .i3cTransferDone res _ => decide (res < 8)
  | .pfWarnNDeassert => true
  | .linkEqualisationComplete link => decide (link < 32)
  | .creditReturnDue lane => decide (lane < 64)
  | .uartByteSent u => decide (u < 4)

end Sys2Proof
end

