-- ==== Sys2Proof/Tests/Slice0.lean ====
section
/-! SUPPORT. Tests. The first part holds the states and the lemmas that the rest shares. The second checks definitions against
the worked examples and tables of the spec, and of the standards it names: every expected value stands there, at the place the
comment cites. The third checks that ill-formed commands are refused. The fourth gives, for every clause of every obligation, a
concrete state and concrete operands that meet its hypotheses; where a clause rests on what is fused into the device, which no
state holds, the witness says under which fuses. -/

namespace Sys2Proof.Tests

open Sys2Proof Sys2Proof.Machine Sys2Proof.Safety

set_option Elab.async false

/-- The state of a chip at a time of its clocks, with no command waiting. -/
def stOf (d : Dev) (k : Clk := Clk.reset) : State := ⟨d, k, []⟩

theorem winEntOk_of (d : Dev) (q i : Nat) (h : i < winPerQuarter Config.order) (h1 : (d.reg (R.WIN_ENT.at q i)).getLsbD 30 = false)
    (h2 : (d.moltQ q).length ≤ 64) : d.winEntOk q i = true := by
  simp only [Dev.winEntOk, h, h1, h2, decide_true, Bool.not_false, Bool.and_self]

theorem orderHbm_le : orderHbm Config.order ≤ 192 := by
  generalize Config.order = o
  cases o <;> decide

theorem isHbm_high (a : Nat) (h : 0x3000000000 ≤ a) : isHbm a = false := by
  have h2 : hbmQuarter ≤ 2 ^ 28 * 192 := Nat.mul_le_mul_left _ orderHbm_le
  simp only [isHbm, decide_eq_false_iff_not]
  omega

/-- A flit: its 1,040 bytes and their CRC-64 behind them (16 TET-4). -/
def flit (h : List Byte) : List Byte := h ++ leBytes (crc64 h) 8

theorem leBytes_length (v n : Nat) : (leBytes v n).length = n := by
  induction n generalizing v with
  | zero => rfl
  | succ n ih => simp [leBytes, ih]

theorem leNat_leBytes (v n : Nat) : leNat (leBytes v n) = v % 256 ^ n := by
  induction n generalizing v with
  | zero => simp [leBytes, leNat, Nat.mod_one]
  | succ n ih => simp [leBytes, leNat, ih, pow_succ', Nat.mod_mul]

theorem crc64Byte_lt (c : Nat) (x : Byte) (h : c < 2 ^ 64) : crc64Byte c x < 2 ^ 64 := by
  have hx : c ^^^ x.toNat < 2 ^ 64 := Nat.xor_lt_two_pow h (by have := x.isLt; omega)
  unfold crc64Byte
  generalize c ^^^ x.toNat = r at hx
  generalize upTo 8 = l
  induction l generalizing r with
  | nil => exact hx
  | cons _ l ih =>
    apply ih
    dsimp only
    split
    · exact Nat.xor_lt_two_pow (by omega) (by decide)
    · omega

theorem crc64_lt (l : List Byte) : crc64 l < 2 ^ 64 := by
  refine Nat.xor_lt_two_pow ?_ (by decide)
  generalize hr : 2 ^ 64 - 1 = r
  have h : r < 2 ^ 64 := by omega
  clear hr
  induction l generalizing r with
  | nil => exact h
  | cons b l ih => exact ih _ (crc64Byte_lt _ _ h)

theorem rxN_flit (h : List Byte) (off n : Nat) (hl : off + n ≤ h.length) : rxN (flit h) off n = rxN h off n := by
  unfold rxN flit
  rw [List.drop_append_of_le_length (by omega), List.take_append_of_le_length (by rw [List.length_drop]; omega)]

theorem rxCrcOk_flit (h : List Byte) (hl : h.length = 1040) (ht : rxN h 0 1 < 0x80) : rxCrcOk (flit h) = true := by
  have e : (flit h).length = 1048 := by simp [flit, hl, leBytes_length]
  have e1 : (flit h).take 1040 = h := by rw [flit, ← hl, List.take_left]
  have e2 : rxN (flit h) 1040 8 = crc64 h := by
    have := crc64_lt h
    unfold rxN flit
    rw [← hl, List.drop_left, List.take_of_length_le (by rw [leBytes_length]), leNat_leBytes, Nat.mod_eq_of_lt (by rw [show 256 ^ 8 = 2 ^ 64 from rfl]; exact this)]
  simp only [rxCrcOk, e, e1, e2, rxN_flit h 0 1 (by omega), ht]
  rfl

theorem rxFormOk_flit (h : List Byte) (hl : h.length = 1040) : rxFormOk (flit h) = rxFormOk h := by
  simp only [rxFormOk, rxN_flit h 0 1 (by omega), rxN_flit h 1 1 (by omega), rxN_flit h 3 1 (by omega), rxN_flit h 8 2 (by omega),
    rxN_flit h 10 2 (by omega)]

theorem payload_flit (h : List Byte) (hl : h.length = 1040) (ht : rxN h 0 1 < 0x80) : (rxFlitOf (flit h)).payload = h.drop 16 := by
  have e : ((flit h).drop 16).take 1024 = h.drop 16 := by
    rw [flit, List.drop_append_of_le_length (by omega), List.take_append_of_le_length (by rw [List.length_drop]; omega),
      List.take_of_length_le (by rw [List.length_drop]; omega)]
  simp only [rxFlitOf, rxN_flit h 0 1 (by omega), ht, e, if_true]

/-- A flit of one type whose other bytes are zero. -/
def plain (t : Byte) : List Byte := t :: List.replicate 1039 0

/-- An identification flit of a lane: a bridge of the expected protocol. -/
def ident (t : Byte) : List Byte :=
  [6, 0, 0, 0, 0, 0, 0, 0, 0, 0, 0, 0, 0, 0, 0, 0, t, 0x59, 0x54, 0x49, 1, 1, 0, 1] ++ List.replicate 10 0 ++ [1] ++ List.replicate 5 0
    ++ [1, 0, 1, 1] ++ List.replicate 996 0

/-- An identification flit of a lane with given flags. -/
def identR (f : Byte) : List Byte :=
  [6, 0, 0, 0, 0, 0, 0, 0, 0, 0, 0, 0, 0, 0, 0, 0, 0x50, 0x59, 0x54, 0x49, 1, 1, 0, f] ++ List.replicate 10 0 ++ [1] ++ List.replicate 5 0
    ++ [1, 0, 1, 1] ++ List.replicate 996 0

theorem identR_length (t : Byte) : (identR t).length = 1040 := by
  simp only [identR, List.length_append, List.length_replicate, List.length_cons, List.length_nil]

theorem plain_length (t : Byte) : (plain t).length = 1040 := by
  rw [plain, List.length_cons, List.length_replicate]

theorem ident_length (t : Byte) : (ident t).length = 1040 := by
  simp only [ident, List.length_append, List.length_replicate, List.length_cons, List.length_nil]

theorem some_getD {α : Type} (x : Option α) (y : α) (h : x.isSome = true) : x = some (x.getD y) := by
  cases x with
  | none => cases h
  | some _ => rfl

/-- Firmware of quarter 0. -/
def fw : Mst := ⟨0, 0, false⟩

/-- A chip with one cluster ON, its shift column and its spare known. -/
def on (c : Nat) (v : Nat := 0) : Dev := { Dev.reset with regs := [(cluReg c .CLU_STAT, BitVec.ofNat 64 v)] }

theorem xor_ne (c : Nat) : c ^^^ 2 ^ (319 - 296) ≠ c := by
  intro h
  have h2 := congrArg (fun n => Nat.testBit n 23) h
  rw [Nat.testBit_xor, show Nat.testBit (2 ^ (319 - 296)) 23 = true by decide] at h2
  cases h3 : Nat.testBit c 23 <;> rw [h3] at h2 <;> cases h2

theorem nslWire_319 (n : Nat) : (nslWire n [319]).2 ≠ Config.crc24 (nslWire n [319]).1 % 2 ^ 24 := by
  have h : nslWire n [319] = (n, Config.crc24 n % 2 ^ 24 ^^^ 2 ^ (319 - 296)) := by
    simp only [nslWire, List.foldl_cons, List.foldl_nil, show ¬ (319 < 296) by decide, if_false, show (319 < 320) by decide, if_true]
  rw [h]
  exact xor_ne _

theorem winEntOk_not (d : Dev) (q i : Nat) (h1 : (d.reg (R.WIN_ENT.at q i)).getLsbD 30 = true) : d.winEntOk q i = false := by
  simp only [Dev.winEntOk, h1, Bool.not_true, Bool.and_false, Bool.false_and]

/-- A chip whose slice 0 has two tasks' TCBs, at address 0, with its stream cache off and a task of number 1 there. -/
def tcbs : Dev := (((Dev.reset.setRegN (R.DSP_TCB_COUNT.at 0) 2).setRegN (R.SCC_CFG.at 0) 0).setBytes (128 + 0x64) [1]).setBytes 128 [1]

/-- A chip whose slice 3 has the most tasks. -/
def full3 : Dev := Dev.reset.setRegN (R.DSP_TCB_COUNT.at 3) (2 ^ 18)

/-- As many READY tasks as leave no room for a level below 28. -/
@[irreducible] def many : List Nat := List.replicate 16128 0

theorem noRoom (d : Dev) (q lv : Nat) (h1 : (d.slice q).ready = many) (h2 : lv < 28) : d.readyRoom q lv = false := by
  unfold Dev.readyRoom
  rw [h1, many, List.length_replicate, if_neg (by omega)]
  rfl

theorem blocked (d : Dev) (now t : Nat) (x : Machine.Task) (h : d.task t = some x) (h1 : x.depcnt = 1 ∧ x.st = .waiting ∧ x.evwait = false)
    (h2 : x.delays now = false) (h3 : d.readyRoom (t / 2 ^ 18) x.level = false) : d.sigBlocked now t = true := by
  simp only [Dev.sigBlocked, h, decide_eq_true h1, Dev.roomFor, h2, h3, Bool.false_eq_true, if_false, Bool.not_false, Bool.and_self]

theorem noRoomAfter (d : Dev) (now q : Nat) (x : Machine.Task) (h1 : (d.slice q).ready = many) (h2 : x.level < 28) :
    d.roomAfter now q x 2 = false := by
  rw [Dev.roomAfter, if_pos rfl, noRoom d q _ h1 h2]

theorem noDelayRoom (d : Dev) (q : Nat) (h1 : (d.slice q).delay = many) : d.delayRoom q = false := by
  unfold Dev.delayRoom
  rw [h1, many, List.length_replicate]
  rfl

/-- A core that executes in M-mode with interrupts enabled. -/
def runs : Core := { Core.zero with st := .run, file := [(0, stateWord 0 true true)] }

/-- A core that executes in U-mode. -/
def runsU : Core := { Core.zero with st := .run }

/-- A chip with the last core as given, and an event routed to it pending. -/
def evt (c : Core) : Dev :=
  ((Dev.reset.setReg (R.EVT_ROUTE.at 3 0x450) (BitVec.ofNat 64 (2 ^ 62 + 15))).setPend 3 0x450 true).setCore 63 c

theorem senAcc_high (d : Dev) (k : Clk) (a : Access) (x : Bool) (e : HbmErr) (p : Option Word) (h : 0x3000000000 ≤ a.addr)
    (hb : isBank a.addr = true) : d.senAcc k a x e p = d.bnkReq a (match p with
      | some w => [(a.addr % 0x80000 / 8, w.toNat)]
      | none => []) e := by
  simp only [Dev.senAcc, isHbm_high _ h, Bool.false_eq_true, if_false, hb, if_true] <;> (cases p <;> rfl)

theorem devCode_high (d : Dev) (m : Mst) (a : Nat) (w : Bool) (e : HbmErr) (c : RespCode) (h : 0x3000000000 ≤ a) :
    d.devCode m a w e c = match c with
      | .okay => 0
      | .decerr => 2
      | .collided => 9
      | .slverr => if !w && d.memBad m a e then 3 else 9 := by
  simp only [Dev.devCode, isHbm_high _ h, Bool.false_eq_true, if_false] <;> (cases c <;> rfl)

/-- A chip that is configured, its last link up with its PF's Bus Master Enable set. -/
def host : Dev :=
  (({ Dev.reset with boot := { Boot.none with loaded := true },
                     fns := nset Fn.zero [] 31 { Fn.zero with bme := true, mse := true } }).setRegN
    (linkReg 31 .HIF_LSTAT) (3 * 2 ^ 28)).setRegN (linkReg 31 .HIF_LCTRL) 1

/-- The last slot, anchored, in a state. -/
def slot255 (st : Nat) (d : Dev := Dev.reset) : Dev :=
  (d.setReg (cluReg 63 .POS_CFG 3) (BitVec.ofNat 64 (2 ^ 31 + 2 ^ 30 + 255))).setReg (slotReg 255 .SLOT_STAT) (BitVec.ofNat 64 st)

/-- An engine of the last port that runs its job slot 1 of 512 bytes, of a kind of 0 to 3. -/
def job (d : Dev) (r : SenRun) (attr addr : Nat) : Dev :=
  ((({ d with sen := nset Sen.zero [] 1023 ⟨[], some r⟩ }).setRegN (senReg 1023 .JATTR 1) attr).setRegN (senReg 1023 .JADDR 1)
    addr).setRegN (senReg 1023 .JLEN 1) 512

theorem noCmd {d : Dev} {q r : Nat} (h : d.cmd (cmdKey q r) = none) (opc : Nat) (c : Cmd) : ¬ canStart d q r opc c :=
  fun x => by cases h.symm.trans x.2.1

theorem status_slverr (d : Dev) (m o a : Nat) (w : Bool) : memStatus (d.hbmCode m o a w .slverr) ≠ 0 := by
  unfold Dev.hbmCode
  dsimp only
  split_ifs <;> decide

theorem four_le (g : Nat) (h : 98304 ≤ g) : 4 ≤ g / winPerQuarter Config.order := by
  have h1 := orderHbm_le
  have h2 := winPerQuarter_ge
  rw [Nat.le_div_iff_mul_le (by omega)]
  unfold winPerQuarter
  omega

theorem aget_pairs (v dflt : Word) (r : Assoc RKey Word) (i : Nat) (l : List Nat) (h : i ∈ l)
    (hr : r.all (fun e => decide (e.1.r ≠ .QP_OWN)) = true) :
    aget dflt (r ++ l.map (fun j => (R.QP_OWN.at 3 j, v))) (R.QP_OWN.at 3 i) = v := by
  induction r with
  | nil =>
    rw [List.nil_append]
    induction l with
    | nil => cases h
    | cons j l ih =>
      rw [List.map_cons, aget]
      split
      · rfl
      · rename_i hne
        refine ih ((List.mem_cons.1 h).resolve_left ?_)
        rintro rfl
        exact hne rfl
  | cons e r ih =>
    rw [List.all_cons, Bool.and_eq_true] at hr
    have he : e.1 ≠ R.QP_OWN.at 3 i := fun h => by
      rw [h] at hr
      exact absurd rfl (of_decide_eq_true hr.1)
    obtain ⟨k, v⟩ := e
    rw [List.cons_append, aget, if_neg he]
    exact ih hr.2

theorem nget_full {α : Type} (v : Option α) (i : Nat) (l : List Nat) (h : i ∈ l) :
    nget none (l.map (fun j => (j, v))) i = v := by
  induction l with
  | nil => cases h
  | cons j l ih =>
    simp only [List.map_cons, nget, aget]
    split
    · rfl
    · rename_i hne
      refine ih ((List.mem_cons.1 h).resolve_left ?_)
      rintro rfl
      exact hne rfl

/-- Every queue pair of a quarter in use. -/
@[irreducible] def owned : Assoc RKey Word := (upTo 1024).map (fun j => (R.QP_OWN.at 3 j, BitVec.ofNat 64 (2 ^ 63)))

theorem noPair (d : Dev) (r : Assoc RKey Word) (h : d.regs = r ++ owned)
    (hr : r.all (fun e => decide (e.1.r ≠ .QP_OWN)) = true) : d.freePair 3 = none := by
  unfold Dev.freePair
  refine List.find?_eq_none.2 ?_
  unfold owned at h
  generalize upTo 1024 = l at *
  intro i hm
  have key : d.reg (R.QP_OWN.at 3 i) = BitVec.ofNat 64 (2 ^ 63) := by
    rw [Dev.reg, h]
    exact aget_pairs _ _ _ _ _ hm hr
  have e : d.flag F.QP_OWN_VALID 3 i = true := by
    unfold Dev.flag Dev.fld
    show (getBits (d.reg (R.QP_OWN.at 3 i)) 63 63 != 0) = true
    rw [key]
    decide
  simp [e]

@[irreducible] def fullOf (c : Cmd) : NMap (Option Cmd) := (upTo 4096).map (fun j => (j, some c))

theorem mem_upTo (k n : Nat) (h : k < n) : k ∈ upTo n := List.mem_range.2 h

theorem fullOf_get (c : Cmd) (n k : Nat) (h : k < n) : nget none ((upTo n).map (fun j => (j, some c))) k = some c :=
  nget_full _ _ _ (mem_upTo k n h)

theorem full_cmd (d : Dev) (c : Cmd) (h : d.cmds = fullOf c) (k : Nat) (hk : k < 4096) : d.cmd k = some c := by
  unfold Dev.cmd
  rw [h]
  unfold fullOf
  exact fullOf_get c 4096 k hk

theorem earlier_nil (c : Cmd) (q : Nat) (l : List Nat) :
    ((l.map (fun j => (j, some c))).filterMap (fun e => if e.1 / 4096 = q then e.2.map (fun c => (e.1, c)) else none)).filter
      (fun e => decide (e.2.qp = c.qp ∧ e.2.seq < c.seq)) = [] := by
  induction l with
  | nil => rfl
  | cons j l ih =>
    rw [List.map_cons, List.filterMap_cons]
    by_cases hq : j / 4096 = q
    · simpa [hq] using ih
    · simpa [hq] using ih

theorem full_start (d : Dev) (c : Cmd) (h : d.cmds = fullOf c) (q : Nat) (hs : c.st = .fetched) : d.mayStart q c = true := by
  have e : d.earlier q c.qp c.seq = [] := by
    unfold Dev.earlier Dev.cmdsOf
    rw [h]
    unfold fullOf
    exact earlier_nil c q _
  simp [Dev.mayStart, e, hs]

theorem noRec (d : Dev) (c : Cmd) (h : d.cmds = fullOf c) (ha : d.qpAdmin 0 c.qp = false) : d.moveRec 0 0 3 c = none := by
  have e : d.freeRecs 0 3 false = [] := by
    unfold Dev.freeRecs
    simp only [Bool.false_eq_true, if_false]
    have hm : ∀ i, i ∈ upTo 960 → i < 960 := fun i => List.mem_range.1
    generalize upTo 960 = l at *
    refine List.filterMap_eq_nil_iff.2 ?_
    intro i hi
    have := hm i hi
    rw [full_cmd d c h _ (by unfold cmdKey; omega)]
    rfl
  unfold Dev.moveRec
  rw [if_neg (by decide), ha, e]

theorem noOp {d : Dev} {ch x : Nat} (h : d.mctx ch x = none) (opc : Nat) (c : MCtx) : ¬ atOp d ch x opc c :=
  fun y => by cases h.symm.trans y.2.1

theorem noBus {d : Dev} {ch x : Nat} (h : d.mctx ch x = none) (opc : Nat) (b : Bool) (c : MCtx) : ¬ onBus d ch x opc b c :=
  fun y => by cases h.symm.trans y.2.1

theorem calGet_off (d : Dev) (q e : Nat) (h1 : d.calLine q e = none) (h : d.calAddr q e < 0x200000000)
    (hs : d.domCur 0 (17 + d.calAddr q e / 2 ^ 13 % 2) = 2) : (d.calGet q e).2 = none := by
  have e := hbm_off_low d (rdReq (calMid q) 0 (d.calAddr q e) 32) false .none h hs
  simp only [Dev.calGet, h1, e, Dev.fail, ne_eq, reduceCtorEq, not_false_eq_true, if_true]

theorem calFlush_off (d : Dev) (q e : Nat) (l : CalLine) (hk : d.calKeys q = [e]) (h1 : d.calLine q e = some l) (hd : l.dirty = true)
    (h : d.calAddr q e < 0x200000000) (hs : d.domCur 0 (17 + d.calAddr q e / 2 ^ 13 % 2) = 2) : (d.calFlush q).2 = false := by
  have e := hbm_off_low d (wrReq (calMid q) 0 (d.calAddr q e) 32 l.bytes) false .none h hs
  simp only [Dev.calFlush, hk, List.foldl_cons, List.foldl_nil, Dev.calWriteBack, h1, hd, if_true, Dev.calMemWrite, e, Dev.fail,
    reduceCtorEq, decide_false, Bool.and_false]

theorem readOps_off (d : Dev) (mid n a : Nat) (e : HbmErr) (h : a < 0x200000000) (hs : d.domCur 0 (17 + a / 2 ^ 13 % 2) = 2) :
    (d.readOps mid a e (n + 1)).2 = none := by
  have w := hbm_off_low d (rdReq mid 0 a 16) false e h hs
  simp only [Dev.readOps, w, Dev.fail, ne_eq, reduceCtorEq, not_false_eq_true, if_true]

theorem readOps_one (d : Dev) (mid a : Nat) (h : a < 0x200000000)
    (hr : d.routeOk (d.midQuarter mid) 0 = true) (hd : d.domCur 0 16 = 0) (hs : d.domCur 0 (17 + a / 2 ^ 13 % 2) = 0)
    (hw : (d.reg (R.WIN_ENT.at 0 (a / 2 ^ 21))).getLsbD 30 = false) (hc : (d.reg (R.SCC_CFG.at 0)).getLsbD 0 = false)
    (hu : (unitsOf a 16).filter (fun u => d.unitBad u) = []) : (d.readOps mid a .none 1).2 = some [leNat (d.bytes a 16)] := by
  have w := hbm_read_low d mid a 16 false h hr hd hs hw hc hu
  simp only [Dev.readOps, w, ne_eq, not_true_eq_false, if_false, Option.map_some]

/-- A sequenced flit's bytes with a reserved FL bit set. -/
def badForm (t : Byte) : List Byte := t :: 16 :: List.replicate 1038 0

theorem badForm_length (t : Byte) : (badForm t).length = 1040 := by
  rw [badForm, List.length_cons, List.length_cons, List.length_replicate]

theorem readBlock_off (d : Dev) (mid a n f : Nat) (hn : n ≠ 0) (h : a < 0x200000000) (hs : d.domCur 0 (17 + a / 2 ^ 13 % 2) = 2) :
    (d.readBlock mid a n (f + 1)).2 = none := by
  have w := hbm_off_low d (rdReq mid 0 a (Nat.min n (512 - a % 512))) false .none h hs
  simp only [Dev.readBlock, hn, w, Dev.fail, ne_eq, reduceCtorEq, not_false_eq_true, if_true, if_false]

theorem readBlock_one (d : Dev) (mid a n f : Nat) (hn : n ≠ 0) (hm : n ≤ 512 - a % 512) (h : a < 0x200000000)
    (hr : d.routeOk (d.midQuarter mid) 0 = true) (hd : d.domCur 0 16 = 0) (hs : d.domCur 0 (17 + a / 2 ^ 13 % 2) = 0)
    (hw : (d.reg (R.WIN_ENT.at 0 (a / 2 ^ 21))).getLsbD 30 = false) (hc : (d.reg (R.SCC_CFG.at 0)).getLsbD 0 = false)
    (hu : (unitsOf a n).filter (fun u => d.unitBad u) = []) : (d.readBlock mid a n (f + 2)).2 = some (d.bytes a n) := by
  have w := hbm_read_low d mid a n false h hr hd hs hw hc hu
  have e : Nat.min n (512 - a % 512) = n := Nat.min_eq_left hm
  simp only [Dev.readBlock, hn, e, w, ne_eq, not_true_eq_false, if_true, if_false, Nat.sub_self, Option.map_some, List.append_nil]

theorem writeBlock_off (d : Dev) (mid a f : Nat) (b : List Byte) (hn : b ≠ []) (h : a < 0x200000000)
    (hs : d.domCur 0 (17 + a / 2 ^ 13 % 2) = 2) : (d.writeBlock mid a b (f + 1)).2 = false := by
  have w := hbm_off_low d (wrReq mid 0 a (Nat.min b.length (512 - a % 512)) (leNat (b.take (Nat.min b.length (512 - a % 512))))) false
    .none h hs
  simp only [Dev.writeBlock, hn, w, Dev.fail, if_false, reduceCtorEq, decide_false, Bool.false_and]

theorem payload_of (h : List Byte) (hl : h.length = 1040) (ht : rxN h 0 1 < 0x80) (n : Nat) :
    ((rxFlitOf (flit h)).payload).take n = (h.drop 16).take n := by rw [payload_flit h hl ht]

theorem writeBlock_two (d d1 : Dev) (mid : Nat) (b : List Byte) (hb : b.length = 1024)
    (h1 : d.hbm (wrReq mid 0 0 512 (leNat (b.take 512))) false .none = (d1, ⟨.okay, []⟩))
    (h2 : (d1.hbm (wrReq mid 0 512 512 (leNat ((b.drop 512).take 512))) false .none).2.code = .okay) :
    (d.writeBlock mid 0 b 4).2 = true := by
  have n1 : b ≠ [] := fun h => by rw [h] at hb; cases hb
  have n2 : b.drop 512 ≠ [] := fun h => by
    have := congrArg List.length h
    rw [List.length_drop, hb] at this
    cases this
  have e1 : Nat.min b.length (512 - 0 % 512) = 512 := by rw [hb]; rfl
  have e2 : Nat.min (b.drop 512).length (512 - 512 % 512) = 512 := by rw [List.length_drop, hb]; rfl
  have n3 : (b.drop 512).drop 512 = [] := by
    apply List.eq_nil_of_length_eq_zero
    rw [List.length_drop, List.length_drop, hb]
  simp only [Dev.writeBlock, n1, n2, e1, h1, if_false, if_true, Nat.zero_add, e2, n3, h2, decide_true, Bool.and_self]

theorem memIdle_low (d : Dev) (mid a n v : Nat) (h : a < 0x200000000)
    (hr : d.routeOk (d.midQuarter mid) 0 = true) (hd : d.domCur 0 16 = 0) (hs : d.domCur 0 (17 + a / 2 ^ 13 % 2) = 0)
    (hw : (d.reg (R.WIN_ENT.at 0 (a / 2 ^ 21))).getLsbD 30 = false) (hc : (d.reg (R.SCC_CFG.at 0)).getLsbD 0 = false) :
    d.memIdle (wrReq mid 0 a n v) = (((d.sccMissed 0 0 (blocksOf a n).length).setBytes a (leBytes v n)).coverUnits a n, ⟨.okay, []⟩) := by
  have e : isHbm (wrReq mid 0 a n v).addr = true := isHbm_low a h
  rw [Dev.memIdle, Dev.memAcc, if_pos e, hbm_write_low d mid a n v _ h hr hd hs hw hc]

theorem memIdle_off (d : Dev) (mid a n v : Nat) (h : a < 0x200000000) (hs : d.domCur 0 (17 + a / 2 ^ 13 % 2) = 2) :
    (d.memIdle (wrReq mid 0 a n v)).2.code = .slverr := by
  have e : isHbm (wrReq mid 0 a n v).addr = true := isHbm_low a h
  rw [Dev.memIdle, Dev.memAcc, if_pos e, hbm_off_low d (wrReq mid 0 a n v) _ _ h hs]
  rfl

theorem dmaImage_ok (d d1 : Dev) (c : Capture) (a q : Nat) (hc : Config.fuseCapSize.toNat = 64)
    (h : d.memIdle (wrReq 0x4C0 0 a 64 (c.head q)) = (d1, ⟨.okay, []⟩)) : d.dmaImage c a q = (d1, true) := by
  rw [Dev.dmaImage, h, hc]
  rfl

theorem dmaAll_off (d : Dev) (c : Capture) (a : Nat) (h : a < 0x200000000) (hs : d.domCur 0 (17 + a / 2 ^ 13 % 2) = 2) :
    (d.dmaAll c a (upTo 4)).2 = false := by
  have e := memIdle_off d 0x4C0 a 64 (c.head 0) h hs
  have i : (d.dmaImage c (a + 0 * Config.fuseCapSize.toNat) 0).2 = false := by
    rw [Nat.zero_mul, Nat.add_zero, Dev.dmaImage]
    simp only [e, reduceCtorEq, if_false]
  rw [show upTo 4 = [0, 1, 2, 3] from rfl, Dev.dmaAll]
  simp only [i, Bool.false_eq_true, if_false]

/-- Where an address above HBM leads. -/
def targetHi (d : Dev) (a : Nat) : Option Nat :=
  if isTmem a then some (quarterOf (tileCluster (tmemPlace a).1))
  else if isBank a then some (bankOf a / 16)
  else if isFlash a then some (flashQuarter a)
  else if isQReg a then some ((a - 0xF000000000) / 2 ^ 24)
  else if isAo a then some d.liveQ
  else none

theorem targetQ_high (d : Dev) (a : Nat) (h : 0x3000000000 ≤ a) : d.targetQ a = targetHi d a := by
  simp only [Dev.targetQ, targetHi, isHbm_high _ h, Bool.false_eq_true, if_false]

/-- The basking domains that a request above HBM waits for. -/
def baskHi (d : Dev) (a : Access) : List (Nat × Nat) :=
  match targetHi d a.addr with
  | none => []
  | some t =>
    if !d.routeOk (d.midQuarter a.m.mid) t then []
    else ((routeQuarters (d.midQuarter a.m.mid) t).filter (fun q => decide (d.domCur q 16 = 1) && !(decide (q = t) && onIsland a.addr))).map
      (fun q => (q, 16))

theorem basking_high (d : Dev) (a : Access) (h : 0x3000000000 ≤ a.addr) : d.baskingOn a = baskHi d a := by
  simp only [Dev.baskingOn, baskHi, targetQ_high _ _ h, isHbm_high _ h, Bool.false_eq_true, false_and, or_false, if_false, List.append_nil] <;>
    (cases targetHi d a.addr <;> rfl)

theorem noc_reg (d : Dev) (a : Access) (e : HbmErr) (k : Clk) (q : Nat) (h : 0x3000000000 ≤ a.addr) (hh : d.mustHold a = false)
    (hb : baskHi d a = []) (hq : (isQReg a.addr || isAo a.addr) = true) (ht : targetHi d a.addr = some q)
    (hr : d.routeOk (d.midQuarter a.m.mid) q = true) : xNocRequest a e k d = d.regServe a k := by
  simp only [xNocRequest, hh, Dev.nocIssue, basking_high _ _ h, hb, Dev.nocServeAs, hq, targetQ_high _ _ h, ht, Dev.regRequest, hr,
    Bool.false_eq_true, if_false, if_true, Bool.not_true]

/-- Bytes `o` to `o + n - 1` of a store. -/
def fbytes (f : Nat → Byte) (o : Nat) : Nat → List Byte
  | 0 => []
  | n + 1 => f o :: fbytes f (o + 1) n

/-- The image that a store holds. -/
def gOf (f : Nat → Byte) : ImgRead := fun o n => leNat (fbytes f o n)

/-- The bytes of a number. -/
def numF (n i : Nat) : Byte := BitVec.ofNat 8 (n / 256 ^ i)

/-- The bytes of the image. -/
def imgLen : Nat := 0x1060

/-- The image in a flash, which reads erased behind it. -/
def flashF (n base i : Nat) : Byte := if i < imgLen then numF n i else memDflt (base + i)

/-- A flash with the image in its slot A. -/
@[irreducible] def imgMem (n base : Nat) : List Host.Cell := (upTo imgLen).map (fun i => (base + i, numF n i))

theorem aget_img (n base j : Nat) (dflt : Byte) (l : List Nat) :
    aget dflt (l.map (fun i => (base + i, numF n i))) (base + j) = if j ∈ l then numF n j else dflt := by
  induction l with
  | nil => simp [aget]
  | cons k l ih =>
    rw [List.map_cons, aget, ih]
    by_cases hk : k = j
    · simp [hk]
    · rw [if_neg (by omega)]
      simp [Ne.symm hk]

theorem imgMem_byte (d : Dev) (n base j : Nat) (h : d.mem = imgMem n base) : d.byte (base + j) = flashF n base j := by
  unfold Dev.byte flashF
  rw [h]
  unfold imgMem
  rw [aget_img]
  exact if_congr List.mem_range rfl rfl

theorem bytes_fbytes (d : Dev) (f : Nat → Byte) (base : Nat) (h : ∀ j, d.byte (base + j) = f j) (k : Nat) :
    ∀ o, d.bytes (base + o) k = fbytes f o k := by
  induction k with
  | zero => intro o; rfl
  | succ k ih => intro o; rw [Dev.bytes, fbytes, h, Nat.add_assoc, ih]

theorem slotImage_img (d : Dev) (n q : Nat) (h : d.mem = imgMem n (flashBase q)) : d.slotImage q 0 = gOf (flashF n (flashBase q)) := by
  funext o k
  show leNat (d.bytes _ k) = leNat _
  rw [Nat.zero_mul, Nat.add_zero, bytes_fbytes d _ _ (fun j => imgMem_byte d n _ j h)]

theorem fbytes_zero (f : Nat → Byte) (k : Nat) : ∀ o, (∀ j, o ≤ j → f j = 0) → leNat (fbytes f o k) = 0 := by
  induction k with
  | zero => intro o _; rfl
  | succ k ih => intro o h; rw [fbytes, leNat, h o (Nat.le_refl o), ih (o + 1) (fun j hj => h j (by omega))]; rfl

theorem spiImage_map (f : Nat → Byte) (n : Nat) (hz : ∀ j, n ≤ j → f j = 0) : spiImage ((upTo n).map f) = gOf f := by
  have key : ∀ k o, leNat ((((upTo n).map f).drop o).take k) = leNat (fbytes f o k) := by
    intro k
    induction k with
    | zero => intro o; rfl
    | succ k ih =>
      intro o
      have len : ((upTo n).map f).length = n := (List.length_map _).trans List.length_range
      by_cases ho : o < n
      · have hl : o < ((upTo n).map f).length := ho.trans_eq len.symm
        have hg : ((upTo n).map f)[o] = f o := by simp [upTo]
        rw [List.drop_eq_getElem_cons hl, List.take_succ_cons, fbytes, leNat, leNat, ih (o + 1), hg]
      · rw [List.drop_of_length_le (by omega), List.take_nil]
        exact (fbytes_zero f (k + 1) o (fun j hj => hz j (by omega))).symm
  funext o k
  exact key k o

theorem imgBytes_congr (f g : Nat → Byte) (o n m : Nat) (h : ∀ j, j < m → f j = g j) (hm : o + n ≤ m) :
    imgBytes (gOf f) o n = imgBytes (gOf g) o n := by
  refine List.map_congr_left fun i hi => ?_
  have hi2 : i < n := List.mem_range.1 hi
  simp only [gOf, fbytes, leNat, h (o + i) (by omega)]

theorem imageSigOk_congr (f g : Nat → Byte) (h : ∀ j, j < imgLen → f j = g j) : imageSigOk (gOf f) = imageSigOk (gOf g) := by
  have e : gOf f 0x820 1 = gOf g 0x820 1 := by simp only [gOf, fbytes, leNat, h 0x820 (by decide)]
  simp only [imageSigOk, e, imgBytes_congr f g _ _ imgLen h (by decide : 0x821 + 48 ≤ imgLen),
    imgBytes_congr f g _ _ imgLen h (by decide : 0x851 + 48 ≤ imgLen), imgBytes_congr f g _ _ imgLen h (by decide : 0x888 + 48 ≤ imgLen),
    imgBytes_congr f g _ _ imgLen h (by decide : 0x8B8 + 48 ≤ imgLen), imgBytes_congr f g _ _ imgLen h (by decide : 0 + 0x888 ≤ imgLen)]

/-- A boot image of one section: its header and entry, the digest of 96 bytes of zeros, a key and a signature. -/
def imgN (sig : Nat) : Nat :=
  0x7000010600001010049425950 + 0x600000100000000001 * 256 ^ 0x20 +
  0x17837DD00CD0DD396AFD0FDB0385EBB60E4B34F24039BECCE8835513392AD4C792C5389387C9E6294AAEC682EDB77BF5 * 256 ^ 0x60 +
  0x5F0EEA907C1D437A9D817E1DCEB1600AC0B8F0B51331DAE97C149A28BD1DF4F829DC9292BF989E5D6F2C26964ADE1736B70A7672385E543A6C2955BF5DF20255382A5482E041F759989BA78B623B1D6E74AD20F31EC7B18E37058BBE22CA87AA04 * 256 ^ 0x820 +
  sig * 256 ^ 0x888

/-- A signature of the image under its key. -/
def imgSig : Nat :=
  0xCE2C073515A73B5F00E2DF4BC5A607CFF9ECC81703AF9678F0846987C3F2EB1D699CE988F0AD21FF350821A5E8C154DB2B3003436FFD5058B43F4ED8E4F20075B95DEDC336CD4EA4E8FB08460F24666C1F19E51B07EFC1704C796011DBE1E97A

/-- What an image needs to be accepted beyond its key and its configuration. -/
def imgGood (f : Nat → Byte) : Prop := gOf f 0 4 = 0x49425950 ∧ imageFormat (gOf f) = true ∧
  ∀ spi, (imageSec (gOf f) 0 :: (if spi = true then [] else imageSecs (gOf f))).all (fun s => s.digestOk (s.stored (gOf f))) = true

theorem img_good : imgGood (numF (imgN imgSig)) ∧ imgGood (flashF (imgN imgSig) (flashBase 0)) ∧ imgGood (flashF (imgN imgSig) (flashBase 3)) := by
  refine ⟨⟨?_, ?_, ?_⟩, ⟨?_, ?_, ?_⟩, ⟨?_, ?_, ?_⟩⟩ <;> decide +kernel

theorem img_sig : imageSigOk (gOf (numF (imgN imgSig))) = true := by decide +kernel

theorem img_sig_flash (base : Nat) : imageSigOk (gOf (flashF (imgN imgSig) base)) = true :=
  (imageSigOk_congr _ _ (fun _ h => if_pos h)).trans img_sig

/-- The key and the configuration of an image, which depend on what is fused into the device, are accepted. -/
def fusedOk (g : ImgRead) : Prop := imageKeyOk g = true ∧ ∃ c, imageCfg g = some c ∧ cfgOk c = true

theorem tryImage_ok (f : Nat → Byte) (spi : Bool) (hg : imgGood f) (hs : imageSigOk (gOf f) = true) (hf : fusedOk (gOf f)) :
    tryImage (gOf f) spi false = 0 := by
  obtain ⟨h1, h2, h3⟩ := hg
  obtain ⟨h4, c, h5, h6⟩ := hf
  unfold tryImage
  rw [h3 spi]
  simp [h1, h2, h4, hs, h5, h6]

theorem markSet_img (q n w : Nat) (hw : w < 3) (x : Dev) (hm : x.mem = imgMem n (flashBase q)) : x.markSet q 0 w = false := by
  have hl : imgLen ≤ 0x1060 := Nat.le_refl _
  unfold Dev.markSet Dev.erased
  rw [hm]
  unfold imgMem
  generalize imgLen = len at hl
  rw [List.all_map, Bool.not_eq_false', List.all_eq_true]
  intro i hi
  have hi2 : i < len := List.mem_range.1 hi
  have ha : markAddr q 0 w = flashBase q + (0x720000 + 0x20 * w) := by unfold markAddr; omega
  rw [ha]
  generalize flashBase q = b
  simp only [Function.comp, Bool.not_eq_true', Bool.and_eq_false_iff, decide_eq_false_iff_not]
  left
  omega

theorem slotMagic_img (q : Nat) (h : q = 0 ∨ q = 3) (x : Dev) (hm : x.mem = imgMem (imgN imgSig) (flashBase q)) :
    x.slotMagic q 0 = true ∧ x.slotMagic q 1 = false ∧ ∀ w, w < 3 → x.markSet q 0 w = false := by
  have hb : ∀ o k, x.bytes (flashBase q + o) k = fbytes (flashF (imgN imgSig) (flashBase q)) o k :=
    fun o k => bytes_fbytes x _ _ (fun j => imgMem_byte x _ _ j hm) k o
  refine ⟨?_, ?_, ?_⟩
  · show decide (leNat (x.bytes (flashBase q + 0) 4) = 0x49425950) = true
    rw [hb]
    obtain rfl | rfl := h <;> decide +kernel
  · show decide (leNat (x.bytes (flashBase q + 0x380000) 4) = 0x49425950) = false
    rw [hb]
    obtain rfl | rfl := h <;> decide +kernel
  · exact fun w hw => markSet_img q _ w hw x hm

theorem tryFlash_img (q : Nat) (h : q = 0 ∨ q = 3) (d : Dev) (b : BootIn) (hm : d.mem = imgMem (imgN imgSig) (flashBase q))
    (hb : b.unread = [false, true, false, true, true]) (hf : fusedOk (gOf (flashF (imgN imgSig) (flashBase q)))) : (d.tryFlash q b).2 = true := by
  have M := slotMagic_img q h
  have e : ∀ x : Dev, x.mem = imgMem (imgN imgSig) (flashBase q) → tryImage (x.slotImage q 0) false false = 0 := by
    intro x hx
    rw [slotImage_img x _ _ hx]
    refine tryImage_ok _ _ ?_ (img_sig_flash _) hf
    obtain rfl | rfl := h
    · exact img_good.2.1
    · exact img_good.2.2
  have hu : b.unread.getD ((if q = 3 then 2 else 0) + 0) true = false := by obtain rfl | rfl := h <;> rw [hb] <;> rfl
  have m0 := (M d hm).1
  have m1 := (M d hm).2.1
  have mk := (M d hm).2.2
  have d1 : [0, 1].foldl (fun x s => if x.slotMagic q s && !x.markSet q s 2 && x.markSet q s 0 && !x.markSet q s 1 then x.putMark q s 2 else x) d = d := by
    simp [m0, m1, mk 0, mk 1, mk 2]
  have d2 : [0, 1].foldl (fun x s =>
    if !x.slotMagic q s then x.addAtt (attWord (q / 3) s 1 0)
    else if x.markSet q s 2 then x.addAtt (attWord (q / 3) s 2 (x.slotSeq q s)) else x) d = d.addAtt (attWord (q / 3) 1 1 0) := by
    simp [m0, m1, mk 2]
  have a := M (d.addAtt (attWord (q / 3) 1 1 0)) hm
  have l : [0, 1].filter (fun s => (d.addAtt (attWord (q / 3) 1 1 0)).slotMagic q s && !(d.addAtt (attWord (q / 3) 1 1 0)).markSet q s 2) = [0] := by
    simp [a.1, a.2.1, a.2.2 2]
  unfold Dev.tryFlash
  simp only [d1, d2, l]
  rw [if_neg (by simp)]
  unfold Dev.trySlots
  simp only [hu, e (d.addAtt (attWord (q / 3) 1 1 0)) hm, if_true]

theorem numF_zero (j : Nat) (h : imgLen ≤ j) : numF (imgN imgSig) j = 0 := by
  have hn : imgN imgSig < 256 ^ imgLen := by decide +kernel
  unfold numF
  rw [Nat.div_eq_of_lt (hn.trans_le (Nat.pow_le_pow_right (by decide) h))]
  rfl

theorem tryImage_spi (hf : fusedOk (gOf (numF (imgN imgSig)))) : tryImage (spiImage ((upTo imgLen).map (numF (imgN imgSig)))) true false = 0 := by
  rw [spiImage_map _ _ numF_zero]
  exact tryImage_ok _ _ img_good.1 img_sig hf

/-- The image is formed as check 2 asks whatever its signature says and whatever its section holds. -/
theorem img_format (f : Nat → Byte) (s x : Nat) (hf : f = numF (imgN s + x * 256 ^ 0x1000)) (h : s = 0 ∧ x = 0 ∨ s = imgSig ∧ x = 1) :
    gOf f 0 4 = 0x49425950 ∧ imageFormat (gOf f) = true := by
  subst hf
  obtain ⟨rfl, rfl⟩ | ⟨rfl, rfl⟩ := h <;> exact ⟨by decide +kernel, by decide +kernel⟩

theorem tryFlash_empty (d : Dev) (q : Nat) (b : BootIn) (h0 : d.slotMagic q 0 = false) (h1 : d.slotMagic q 1 = false) :
    d.tryFlash q b = ((d.addAtt (attWord (q / 3) 0 1 0)).addAtt (attWord (q / 3) 1 1 0), false) := by
  have d1 : [0, 1].foldl (fun x s => if x.slotMagic q s && !x.markSet q s 2 && x.markSet q s 0 && !x.markSet q s 1 then x.putMark q s 2 else x) d = d := by
    simp [h0, h1]
  have a : (d.addAtt (attWord (q / 3) 0 1 0)).slotMagic q 1 = false := h1
  have d2 : [0, 1].foldl (fun x s =>
    if !x.slotMagic q s then x.addAtt (attWord (q / 3) s 1 0)
    else if x.markSet q s 2 then x.addAtt (attWord (q / 3) s 2 (x.slotSeq q s)) else x) d
      = (d.addAtt (attWord (q / 3) 0 1 0)).addAtt (attWord (q / 3) 1 1 0) := by
    simp [h0, a]
  have l0 : ((d.addAtt (attWord (q / 3) 0 1 0)).addAtt (attWord (q / 3) 1 1 0)).slotMagic q 0 = false := h0
  have l1 : ((d.addAtt (attWord (q / 3) 0 1 0)).addAtt (attWord (q / 3) 1 1 0)).slotMagic q 1 = false := h1
  unfold Dev.tryFlash
  simp only [d1, d2]
  simp [l0, l1, Dev.trySlots]

theorem imgMem_below (d : Dev) (n base a : Nat) (h : d.mem = imgMem n base) (ha : a < base) : d.byte a = memDflt a := by
  unfold Dev.byte
  rw [h]
  unfold imgMem
  generalize upTo imgLen = l
  induction l with
  | nil => rfl
  | cons k l ih => rw [List.map_cons, aget, ih, if_neg (by omega)]

theorem slotMagic_below (d : Dev) (n s : Nat) (hs : s < 2) (h : d.mem = imgMem n (flashBase 3)) : d.slotMagic 0 s = false := by
  have e : ∀ a, a < flashBase 3 → d.byte a = memDflt a := fun a ha => imgMem_below d n _ a h ha
  have e1 : d.slotImage 0 s 0 4 = (memDflt (flashBase 0 + s * 0x380000)).toNat + 256 * ((memDflt (flashBase 0 + s * 0x380000 + 1)).toNat
      + 256 * ((memDflt (flashBase 0 + s * 0x380000 + 2)).toNat + 256 * ((memDflt (flashBase 0 + s * 0x380000 + 3)).toNat + 256 * 0))) := by
    show leNat (d.bytes (flashBase 0 + s * 0x380000 + 0) 4) = _
    simp only [Dev.bytes, leNat]
    rw [e, e, e, e] <;> simp only [flashBase] <;> norm_num <;> omega
  unfold Dev.slotMagic
  rw [e1]
  match s, hs with
  | 0, _ => decide +kernel
  | 1, _ => decide +kernel

theorem img_sig_changed : imageSigOk (gOf (numF (imgN imgSig + 1 * 256 ^ 0x1000))) = true := by decide +kernel

theorem lock_other (d : Dev) (q p v : Nat) (h : p ≠ q) : (d.setFld F.CLK_STAT_LOCK v q).flag F.CLK_STAT_LOCK p = d.flag F.CLK_STAT_LOCK p := by
  have hk : R.CLK_STAT.at p ≠ R.CLK_STAT.at q := fun e => h (congrArg RKey.q e)
  show (getBits ((d.setReg (R.CLK_STAT.at q) _).reg (R.CLK_STAT.at p)) 31 31 != 0) = (getBits (d.reg (R.CLK_STAT.at p)) 31 31 != 0)
  rw [Laws.reg_setReg_other d _ hk]

/-- The words of a key block whose signature covers a nonce of zeros, a UID of zeros and level 1. -/
def dbgKey : List Nat :=
  [0x1D3C2804, 0x47CE6573, 0x8E9FF288, 0xDF4E23BF, 0xE96FADFE, 0x5FEAFB97, 0xCC582DFA, 0x1C7BFA9D, 0x52058B50,
   0xEBB9556F, 0x50F04B2, 0xD0B68FB4, 0xC97594E1, 0x1BE46190, 0xEF52BA88, 0x90168CDB, 0xD8611A47, 0x9779ED67,
   0x2CC9D929, 0x22BD1DD0, 0x4ED83056, 0x8FA732DE, 0x4C66649E, 0xEF12C5DA, 0x8C, 0xDBE1E97A, 0x4C796011,
   0x7EFC170, 0x1F19E51B, 0xF24666C, 0xE8FB0846, 0x36CD4EA4, 0xB95DEDC3, 0xE4F20075, 0xB43F4ED8, 0x6FFD5058,
   0x2B300343, 0x25F98465, 0x369F3A80, 0xD4F72D4, 0x46F42F96, 0xEBB23AC9, 0x32CAE19B, 0xA4E851B0, 0x814F0EFE,
   0x9BDD01F1, 0xD7CCCE0D, 0xCDC8434A, 0x3F231802, 0x0]

theorem dbgKey_sign (k : List Byte) (h : sha384 ((wordBytes (dbgKey.take 50)).take 97) = k) :
    sigBlockOk (wordBytes (dbgKey.take 50)) k (wordBytes (List.replicate 12 0) ++ (upTo 8).map (fun i => BitVec.ofNat 8 (0 / 256 ^ i))
      ++ [BitVec.ofNat 8 1] ++ List.replicate 7 0) = true := by
  unfold sigBlockOk
  rw [h]
  simp only [decide_true, Bool.true_and]
  decide +kernel

theorem sigBlock_empty (k m : List Byte) : sigBlockOk (wordBytes ([].take 50)) k m = false := by
  have e : wordBytes ([].take 50) = [] := rfl
  have e1 : decide (beNat ((([] : List Byte).drop 0).take 1) = 4) = false := rfl
  unfold sigBlockOk
  rw [e]
  simp only [e1, Bool.and_false, Bool.false_and]

/-- A bus access of the debug port above the HBM. -/
def performHi (d : Dev) (a : Access) (e : HbmErr) (k : Clk) : Dev × RespCode × Nat :=
  let r := if isTmem a.addr then d.tmemReq k a else if isBank a.addr then d.bnkReq a [] e
    else if isFlash a.addr then d.flashReq a e else d.fail (d.midQuarter a.m.mid) a .decerr
  (r.1, r.2.code, leNat r.2.data)

theorem perform_high (d : Dev) (a : Access) (e : HbmErr) (k : Clk) (h : 0x3000000000 ≤ a.addr) (hr : isQReg a.addr = false) (ha : isAo a.addr = false) :
    d.dwPerform a e k = performHi d a e k := by
  simp only [Dev.dwPerform, performHi, hr, ha, Dev.memAcc, isHbm_high _ h, Bool.or_self, Bool.false_eq_true, if_false]

theorem lifeLong : 0 < 0 + nonceLife := by
  unfold nonceLife
  cases Config.order <;> decide

/-- The chip after a command, or the reset chip where the command does not answer a next state. -/
def after (o : Host.Outcome State Fault Refusal) : Dev :=
  match o with
  | .next t => t.d
  | _ => Dev.reset

/-! Rounding, classes and numbering (00, 02, 06, 15, 16, 17). -/

/-- 00_scope, the example under the rounding rule: 80/56 = 1.43 gives 1, −1.43 gives −1, 56/40 = 1.4 gives 1. -/
theorem test_rounding : roundDiv 80 56 = 1 ∧ roundDiv (-80) 56 = -1 ∧ roundDiv 56 40 = 1 := by decide

/-- 02, the example under the residue classes: beside (2, 1), the classes (2, 0), (4, 0) and (4, 2) fit; (4, 1) does not. -/
theorem test_classes : classesMeet 2 1 2 0 = false ∧ classesMeet 2 1 4 0 = false ∧ classesMeet 2 1 4 2 = false ∧
    classesMeet 2 1 4 1 = true := by decide

/-- 15 R408 and 16 R425, the examples: TC137 lies in Q1 with local index 25, in group 2, and is channel 1 of TL17. -/
theorem test_channel_numbers : mediaPlace (64 + 137) = (1, 25) ∧ mGroup (64 + 137) = 2 ∧ laneOf (64 + 137) = 17 ∧
    bridgeChan (64 + 137) = 1 := by decide

/-- 17, the example: group 21 of CE 3, LUN 0 on local channel 25, PE unit 12, has the entry index 35,605. -/
theorem test_cal_index : calIndex 25 12 21 = 35605 := by decide

/-- 10, the example under the wake time: TICK 0xFFFF_FF00 and W = 0x100; W is in the future. -/
theorem test_wake_future : inFuture 0xFFFFFF00 0x100 = true := by decide

/-- Addresses that the examples of 06, 07, 12, 16, 17 and 19 name. -/
theorem test_addresses :
    (slotReg 48 .SLOT_FOOT).addr = 0x00F001349208 ∧ (R.MBX_LOCK.at 2 17).addr = 0x00F002070088 ∧
    (R.MBX_SPTR.at 2 17).addr = 0x00F002071440 ∧ (R.MBX_RLT.at 2 17).addr = 0x00F002071458 ∧
    (coreReg 37 .BNK_OWNER).addr = 0x00F002250500 ∧ (coreReg 37 .CORE_CTRL).addr = 0x00F002245004 ∧
    (dirReg 0 .DIR_STAT).addr = 0x00F000091000 ∧ (R.WIRE_FLAG.at 0 0 0 1).addr = 0x00F000091904 ∧
    (tetReg 17 .TET_LSTAT).addr = 0x00F001200808 ∧ (R.GOV_PL_LONG.at 0).addr = 0x00F004000100 ∧
    (R.CAL_CHCFG.at 1 25).addr = 0x00F001220264 ∧ (R.EVT_CLAIM.at 1 2).addr = 0x00F001050110 := by decide +kernel

/-! Cells (03, 04). -/

/-- 03 CELL-13 and CELL-14: the entry ADD at H16, signed and saturating, over the lanes of the example. -/
theorem test_add_lanes :
    lanesOf .add (entryOf (BitVec.ofNat 96 (0xD00B6901 + 0x6D6 * 2 ^ 32))) 0 (BitVec.ofNat 64 0x7FF000058000FFFF)
      (BitVec.ofNat 64 0x00200003FFFF0001) 0 =
    [⟨0, false, false⟩, ⟨0x8000, true, true⟩, ⟨8, true, false⟩, ⟨0x7FFF, true, true⟩] := by decide +kernel

/-- 04, the BFX example: at W32, IMM 0x810 takes bits 23 to 16 of each lane. -/
theorem test_bfx : (lanesOf .bfx (entryOf (BitVec.ofNat 96 (0x16 + 2 * 2 ^ 8 + 0x810 * 2 ^ 64))) 0
    (BitVec.ofNat 64 0x11AB111122CD2222) 0 0).map (fun l => l.r) = [0xCD, 0xAB] := by decide +kernel

/-- 04, the TAPMV example: at H16, signed, 0x4000 times 0x2000 adds 0x1000. -/
theorem test_tapmv : ((tapLanes (entryOf (BitVec.ofNat 96 (0x23 + 1 * 2 ^ 8 + 2 ^ 42))) (BitVec.ofNat 64 0x4000)
    (BitVec.ofNat 64 0x2000) (BitVec.ofNat 64 5)).take 1).map (fun l => l.r) = [0x1005] := by decide +kernel

/-- 04, the GFMUL8 example: with the polynomial 0x11D, 0x8E times 2, 4 and 8 is 1, 2 and 4. -/
theorem test_gfmul : gfMul 2 0x8E 8 0x11D = 1 ∧ gfMul 4 0x8E 8 0x11D = 2 ∧ gfMul 8 0x8E 8 0x11D = 4 := by decide +kernel

/-- 04, the PLUT example: IMM 0x8888 is P0 and P1, whatever P2 and P3 hold. -/
theorem test_plut : (upTo 16).map (fun p => plutBit 0x8888 p) = (upTo 16).map (fun p => p % 4 == 3) := by decide +kernel

/-! Slots and tile memory (05, 06). -/

/-- Clusters 12 and 13 of 06's example: cluster 12 empty, slot 52 stopped at position 0 of cluster 13 with class (4, 1), and
the footprint of slot 48 written. -/
def defDev : Dev :=
  (({ Dev.reset with regs := [(cluReg 12 .CLU_STAT, 0), (cluReg 13 .CLU_STAT, 0)] }).setReg (cluReg 13 .POS_CFG 0)
    (BitVec.ofNat 64 (2 ^ 31 + 2 ^ 30 + 2 * 2 ^ 24 + 1 * 2 ^ 20 + stStopped * 2 ^ 16 + 52))).setRegN (slotReg 48 .SLOT_FOOT)
    0x3000

/-- The chip after DEFINE of slot 48 with class (2, 0) and its completion. -/
def defined : Dev := after (exec (.definitionComplete 12 0) (stOf (after (exec (.define fw 12 0 1 0) (stOf defDev)))))

/-- 06, the DEFINE example: position 0 of cluster 12 and position 1 of cluster 13, and the isolated borders. -/
theorem test_define : defined.regN (slotReg 48 .SLOT_MAP 0) = 0x04000000 ∧ defined.regN (cluReg 12 .ISO_STAT) = 0x90000 ∧
    defined.regN (cluReg 13 .ISO_STAT) = 0x80000000000000 := by decide +kernel

/-- A chip whose page 0 of one cluster serves a logical tile, by its column and row, its spare column unused. -/
def mapped (q l col row : Nat) : Dev :=
  { Dev.reset with regs := [(R.TILE_ID.at q l 0, BitVec.ofNat 64 (2 ^ 30 + row * 2 ^ 16 + col * 2 ^ 8)),
    (cluReg (clusterOf q l) .CLU_STAT, BitVec.ofNat 64 (8 * 2 ^ 8))] }

/-- 05, the TMEM_OWN example: tile (48, 8) is page 0 of cluster 14, the sixth cluster of Q1; 0xAA00 gives banks 2 and 3 to
position 2, and MOLTING reads 0b1100. -/
theorem test_tmem_own :
    let d := after (exec (.tmemOwn fw 1 6 0 0xAA00) (stOf (mapped 1 6 48 8)))
    d.regN (R.TMEM_OWN.at 1 6 0) = 0xAA00 ∧ d.regN (R.TMEM_STAT.at 1 6 0) = 0xC := by decide +kernel

/-! Control cores, events, mailboxes (11, 12). -/

/-- 11, the bank example: BNK_OWNER of CC37 with MID 0x298 molts the bank, which lies at 0x00E0_0128_0000. -/
theorem test_bank_owner : (after (exec (.bnkOwner fw 37 0x20298) State.reset)).regN (coreReg 37 .BNK_STAT) = 1 ∧
    bankBase 37 = 0xE001280000 := by decide +kernel

/-- Q1 of 12's claim example: four sources pending, all routed to quarter-local core 2. -/
def evDev : Dev := [0x143, 0x0D1, 0x355, 0x450].foldl (fun d s =>
  (d.setReg (R.EVT_ROUTE.at 1 s) (BitVec.ofNat 64 (2 ^ 62 + 2))).setPend 1 s true) Dev.reset

/-- The chip after CC18 reads EVT_CLAIM. -/
def claim (d : Dev) : Dev := after (exec (.evtClaim ⟨0x12, 0, false⟩ 1 2) (stOf d))

/-- 12, the watermark example, on the first tile of cluster 4: the write of LO makes the down crossing, and STATUS reads DOWN_SEEN after UP_SEEN is cleared. -/
theorem test_watermark :
    let m := R.TMEM_CE_STATUS.at 1 0 0
    let d0 := ((mapped 1 0 32 0).setRegN (R.TMEM_CE_LEVEL.at 1 0 0) 16).setRegN m 0xC0000001
    let d1 := after (exec (.watermarkThresholdWrite fw .tmem 1 0 0 true 0x20) (stOf d0))
    let d2 := after (exec (.watermarkThresholdWrite fw .tmem 1 0 0 false 0x10) (stOf d1))
    let d3 := d2.regWrite fw m 0x40000000 Clk.reset
    d2.regN m = 0x60000001 ∧ d3.regN m = 0x20000000 := by decide +kernel

/-- 12, the claim example: the claims of CC18 in order, and 0 when none is left. -/
theorem test_claim_order :
    [claim evDev, claim (claim evDev), claim (claim (claim evDev)), claim (claim (claim (claim evDev))),
      claim (claim (claim (claim (claim evDev))))].map (fun d => d.out.data.toNat) =
    [0x88000743, 0xA80006D1, 0xC0000955, 0xC8000A50, 0] := by decide +kernel

/-- 12, the mailbox example: Q2 basks with CC41 idle; a notice on channel 17 croaks. -/
def mbxDev : Dev :=
  let d := ((Dev.reset.setRegN (R.MBX_LOCK.at 2 17) 0x8029000000000003).setFld F.PWR_DOM_CUR 1 2 16).setCore 41
    { Core.zero with st := .idle, managed := true }
  after (exec (.mbxSlt ⟨3, 0, false⟩ 2 17 0x0000004200000200) (stOf
    (after (exec (.mbxSptr ⟨3, 0, false⟩ 2 17 0x9200001000) (stOf d)))))

/-- 12, the mailbox example: RESULT reads OK with LEVEL 1, the count reads 1, the die wakes, and the receiver's MBX_RLT returns
the tag and the length. -/
theorem test_mailbox : mbxDev.regN (R.MBX_STAT.at 2 17) = 1 ∧ mbxDev.regN (R.MBX_CROAK_CNT.at 2) = 1 ∧
    (mbxDev.domTr 2 16).isSome = true ∧
    (after (exec (.mbxRlt ⟨0x29, 0, false⟩ 2 17) (stOf (mbxDev.setFld F.PWR_DOM_CUR 0 2 16)))).out.data =
      0x0000004200000200 := by decide +kernel

/-! Queues, tethers (14, 16). -/

/-- 14, the INVOKE example: the CQ entry of a command with RESULT 0xC000 and CID 0x42, ended OK at tick 0x0340_1A2C. -/
theorem test_cq_entry :
    let c : Cmd := ⟨0, 0, 0x42 * 2 ^ 16, .ended, 0, 0xC000, [], [], none, false, [], false, .none⟩
    let d := ((Dev.reset.setRegN (R.SQ_HEAD.at 0 0) 1).setFld F.QP_OWN_N 2 0 0).setFld F.QP_STAT_PHASE 1 0 0
    d.cqEntry 0x03401A2C 0 c = [0x00, 0xC0, 0, 0, 0x2C, 0x1A, 0x40, 0x03, 1, 0, 2, 0, 0x42, 0, 0, 1] := by decide +kernel

/-- 16 TET-9, the CMD flit of the example: its first 16 bytes. -/
theorem test_cmd_flit : ((⟨0x7FE, 1, 0, 1, 0x103, 0, 0x40, []⟩ : Flit).body 0x8231).take 16 =
    [1, 0, 1, 0, 3, 1, 0x40, 0, 0xFE, 7, 0x31, 0x82, 0, 0, 0, 0] := by decide +kernel

/-! The algorithms that 18 names, by the examples of their standards. -/

/-- SHA-384 of the message abc (FIPS 180-4's example). -/
theorem test_sha384 : beNat (sha384 [0x61, 0x62, 0x63]) =
    0xCB00753F45A35E8BB5A03D699AC65007272C32AB0EDED1631A8B605A43FF5BED8086072BA1E7CC2358BAECA134C825A7 := by decide +kernel

/-- AES-256-GCM of 16 zero bytes under the zero key and the zero nonce (the GCM specification's test case 14). -/
theorem test_gcm : gcmOpen (List.replicate 32 0) (List.replicate 12 0) [] (beBytes 0xD0D1C8A799996BF0265B98B5D48AB919 16)
    (beBytes 0xCEA7403D4D606B6E074EC5D3BAF39D18 16) = some (List.replicate 16 0) := by decide +kernel

/-! The queue (assumptions 1 and 2). -/

/-- An empty queue idles; no word of the table spells a command. -/
theorem test_idle : step State.reset = .next State.reset ∧ decodeTableWord 32 0xFFFFFFFF = none ∧
    State.withFetchWord State.reset 32 0xFFFFFFFF = State.reset := ⟨rfl, rfl, rfl⟩

/-! Well-formedness: for each kind of check an ill-formed command, which is refused, and a well-formed one at the bound. -/

/-- A boot whose list of sources is short. -/
def shortBoot : BootIn := ⟨true, true, [], []⟩

/-- Masters, accesses and boots out of range. -/
theorem test_wf_accesses :
    [Instr.nocRequest ⟨⟨4096, 0, false⟩, 0, 8, false, 0⟩ .none false, .nocRequest ⟨⟨0x500, 2048, false⟩, 0, 8, false, 0⟩ .none false, .nocRequest ⟨⟨1, 1, false⟩, 0, 8, false, 0⟩ .none false,
      .nocRequest ⟨fw, 2 ^ 48, 8, false, 0⟩ .none false, .nocRequest ⟨fw, 0, 0, false, 0⟩ .none false,
      .nocRequest ⟨fw, 0, 513, false, 0⟩ .none false, .nocRequest ⟨fw, 0, 1, true, 256⟩ .none false, .porstNRelease shortBoot,
      .evtRoute fw 0 0 (2 ^ 64), .rput (2 ^ 16) 0 0, .rput 0 (2 ^ 32) 0, .rput 0 0 256].all (fun i => !i.wf) = true ∧
    (Instr.nocRequest ⟨⟨4095, 2047, true⟩, 2 ^ 48 - 1, 512, true, 256 ^ 512 - 1⟩ .none false).wf = true := by decide +kernel

/-- Instance numbers out of range: quarter, cluster, position, tile, bank, word, port, core, link, lane, channel, context,
record, task, slot, and the numbers of one block. -/
theorem test_wf_numbers :
    [Instr.pllLock 4 true, .define fw 64 0 0 0, .define fw 0 4 0 0, .define fw 0 0 4 0, .bankMolt 4096 0, .bankMolt 0 4,
      .tmemWriteback 0 0 2048, .ctxWriteback .ctx 0 16 0, .ctxWriteback .ctx 0 0 64, .tmemOwn fw 0 16 0 0,
      .tmemOwn fw 0 0 81 0, .agreg fw 0 0 0 32 0, .badCmd fw 0 0 5, .gfp fw 0 0 4 0, .vpCfg fw 0 16 0, .lpb fw 0 8 0,
      .regrow fw 0 16, .draw 1024, .jattr fw 0 2 0, .run 64, .receiverDetected 32, .linkUp 0 5 3 false, .linkUp 0 8 16 false,
      .linkLoss 0 [1024], .hostPerstNAssert 8, .flrPf 2048, .barRequest 0 6 0 4 false 0, .sqTail fw 0 1024 0, .listStart 576,
      .hdr 0 8, .waitrb 0 0 256, .nphCfg fw 64 0, .nphTrainingDone 0 true 256 0, .msqRrp fw 0 16 0, .signalDetect 64,
      .trainingFrame 0 2048 0 false, .codeword 0 (2 ^ 20) 0 false, .cmdFlit 0 8, .flipRecord 0 8, .cacheWriteback 0 278528,
      .dtimeCompare 4 true, .domainOn fw 0 19, .sensorConversion 0 16 0, .sensorConversion 0 0 4096, .thermTrip 64,
      .pprComplete 0 8, .xtFire fw 4 0, .patchCtl fw 0 64 0, .blkLock fw 0 256 0, .uartByteSent 4, .spiTransferDone 2 [],
      .i3cTransferDone 8 []].all (fun i => !i.wf) = true := by decide +kernel

/-- The same for the rest: leap blocks, queue records, tasks, slots, doorbells, event sources and mailbox channels; and some
commands at their bounds. -/
theorem test_wf_rest :
    [Instr.blockCheck 256 0 [] [], .blockCheck 0 2 [] [], .resend 8 0 false [], .bridgeTraining 4 ⟨true, [], [], [], [], true, [], []⟩,
      .repair fw 0 2 0, .repair fw 0 0 2, .loadFull 0 4096, .submit fw 0 (2 ^ 20), .slotPause 256, .winEnt fw 0 24576 0,
      .grpRate fw 0 64 0, .dspRepl fw 0 16 true 0, .xbrd 0 32 0, .xbwr 0 0 32, .exceptionTrap 0 4 (.raise 2 (2 ^ 64)), .evtClaim fw 0 16,
      .evtSwset fw 0 8 0, .evtRoute fw 0 1536 0, .timer 0 32, .mbxLock fw 0 256 0, .mbxHlock fw 0 264 0, .mbxSptr fw 0 520 0,
      .bnkCeWriteback 0 (2 ^ 16), .fenceCompletion 4096, .rget (2 ^ 16)].all (fun i => !i.wf) = true ∧
    [Instr.blockCheck 255 4 [] [], .submit fw 3 (2 ^ 20 - 1), .winEnt fw 3 24575 0, .mbxSptr fw 3 519 0, .linkUp 31 5 16 true,
      .badCmd fw 63 3 7].all (fun i => i.wf) = true := by decide +kernel

/-! Witnesses of the obligations. -/

/-- What LeapBlocks asks of a state and of operands is met, case by case. -/
theorem witness_LeapBlocks :
    (let ch : Nat := 255;
     let t0 : Nat := 4;
     let flips : List Nat := [0];
     let b : LBlk := ⟨4, [1, 2, 3, 4], .accepted, [], none, false⟩;
     let s : State := stOf ((Dev.reset.setDirState 7 2).setChan ch { LeapCh.zero with line := [b] });
     s.d.dirUp (ch / 32) = true ∧ s.d.blk ch t0 = some b ∧ b.st = .accepted ∧ (s.d.chan ch).lost = false ∧ checkBlk (ch % 32) t0 b.data flips
     = .fail) ∧
    (let ch : Nat := 255;
     let t0 : Nat := 4;
     let flips : List Nat := [0, 268];
     let b : LBlk := ⟨4, [1, 2, 3, 4], .accepted, [], none, false⟩;
     let s : State := stOf ((Dev.reset.setDirState 7 2).setChan ch { LeapCh.zero with line := [b] });
     s.d.dirUp (ch / 32) = true ∧ s.d.blk ch t0 = some b ∧ b.st = .accepted ∧ (s.d.chan ch).lost = false ∧ checkBlk (ch % 32) t0 b.data flips
     = .seq) ∧
    (let ch : Nat := 255;
     let t0 : Nat := 4;
     let flips : List Nat := [];
     let b : LBlk := ⟨4, [1, 2, 3, 4], .accepted, [], none, false⟩;
     let s : State := stOf ((Dev.reset.setDirState 7 2).setChan ch { LeapCh.zero with line := [b] });
     s.d.dirUp (ch / 32) = true ∧ s.d.blk ch t0 = some b ∧ b.st = .accepted ∧ (s.d.chan ch).lost = false ∧ checkBlk (ch % 32) t0 b.data flips
     = .pass ∧ isMarker t0 = false) ∧
    (let ch : Nat := 255;
     let t0 : Nat := 256;
     let flips : List Nat := [];
     let b : LBlk := ⟨256, [1, 2, 3, 4], .accepted, [], none, false⟩;
     let s : State := stOf ((Dev.reset.setDirState 7 2).setChan ch { LeapCh.zero with line := [b] });
     s.d.dirUp (ch / 32) = true ∧ s.d.blk ch t0 = some b ∧ b.st = .accepted ∧ (s.d.chan ch).lost = false ∧ checkBlk (ch % 32) t0 b.data flips
     = .pass ∧ isMarker t0 = true) ∧
    (let ch : Nat := 255;
     let t0 : Nat := 256;
     let flips : List Nat := (upTo 12).map (fun i => 256 + i);
     let b : LBlk := ⟨256, [1, 2, 3, 4], .accepted, [], none, false⟩;
     let s : State := stOf ((Dev.reset.setDirState 7 2).setChan ch { LeapCh.zero with line := [b] });
     s.d.dirUp (ch / 32) = true ∧ s.d.blk ch t0 = some b ∧ b.st = .accepted ∧ (s.d.chan ch).lost = false ∧ checkBlk (ch % 32) t0 b.data flips
     = .marker ∧ (s.d.chan ch).miss = 0) ∧
    (let ch : Nat := 255;
     let t0 : Nat := 256;
     let flips : List Nat := (upTo 12).map (fun i => 256 + i);
     let b : LBlk := ⟨256, [1, 2, 3, 4], .accepted, [], none, false⟩;
     let s : State := stOf ((Dev.reset.setDirState 7 2).setChan ch { LeapCh.zero with line := [b], miss := 1 });
     s.d.dirUp (ch / 32) = true ∧ s.d.blk ch t0 = some b ∧ b.st = .accepted ∧ (s.d.chan ch).lost = false ∧ checkBlk (ch % 32) t0 b.data flips
     = .marker ∧ (s.d.chan ch).miss ≠ 0) ∧
    (let ch : Nat := 255;
     let t0 : Nat := 4;
     let b : LBlk := ⟨4, [1, 2, 3, 4], .accepted, [], none, false⟩;
     let s : State := stOf ((Dev.reset.setDirState 7 2).setChan ch { LeapCh.zero with line := [b], lost := true });
     s.d.dirUp (ch / 32) = true ∧ s.d.blk ch t0 = some b ∧ b.st = .accepted ∧ (s.d.chan ch).lost = true) ∧
    (let ch : Nat := 0;
     let t0 : Nat := 0;
     let s : State := State.reset;
     (s.d.dirUp (ch / 32) = false ∨ s.d.blk ch t0 = none)) ∧
    (let dir : Nat := 7;
     let t0 : Nat := 4;
     let i : Nat := 31;
     let b : LBlk := ⟨4, [1, 2, 3, 4], .rejected, [], none, false⟩;
     let s : State := stOf ((Dev.reset.setDirState 7 2).setChan 255 { LeapCh.zero with line := [b] });
     s.d.dirUp dir = true ∧ i < 32 ∧ s.d.blk (dir * 32 + i) t0 = some b ∧ b.st = .rejected ∧ (∀ j, j < 32 → j ≠ i → s.d.blk (dir * 32 + j) t0
     = none) ∧ getBits (s.d.reg (dirReg dir .DIR_CFG)) 27 24 = 0) ∧
    (let dir : Nat := 0;
     let t0 : Nat := 0;
     let s : State := State.reset;
     ((∀ j, j < 32 → s.d.blk (dir * 32 + j) t0 = none) ∨ s.d.dirUp dir = false)) ∧
    (let dir : Nat := 7;
     let t0 : Nat := 4;
     let i : Nat := 31;
     let r : Nat := 0;
     let b : LBlk := ⟨4, [1, 2, 3, 4], .rejected, [], some 0, false⟩;
     let s : State := stOf ((Dev.reset.setDirState 7 2).setChan 255 { LeapCh.zero with line := [b] });
     i < 32 ∧ s.d.blk (dir * 32 + i) t0 = some b ∧ b.st = .rejected ∧ b.lane = some r ∧ (∀ j, j < 32 → j ≠ i → s.d.blk (dir * 32 + j) t0 =
     none)) ∧
    (let dir : Nat := 7;
     let t0 : Nat := 4;
     let i : Nat := 31;
     let b : LBlk := ⟨4, [1, 2, 3, 4], .rejected, [], none, false⟩;
     let s : State := stOf ((Dev.reset.setDirState 7 2).setChan 255 { LeapCh.zero with line := [b] });
     i < 32 ∧ s.d.blk (dir * 32 + i) t0 = some b ∧ b.st = .rejected ∧ b.lane = none ∧ (∀ j, j < 32 → j ≠ i → s.d.blk (dir * 32 + j) t0 =
     none) ∧ s.clk.dtime ≠ t0 + 13) ∧
    (let ch : Nat := 255;
     let b : LBlk := ⟨0, [1, 2, 3, 4], .accepted, [], none, false⟩;
     let w : Word := BitVec.ofNat 64 (2 ^ 63 + brSel 3 * 2 ^ 33 + 31);
     let s : State := stOf ((Dev.reset.setChan ch { LeapCh.zero with line := [b] }).setReg (cluReg (leapTo 255) .LPB 0) (BitVec.ofNat 64 (2 ^
       63 + brSel 3 * 2 ^ 33 + 31))) (⟨0, 17, 0, false, false, 0⟩);
     (s.d.chan ch).line = [b] ∧ b.t0 + 14 ≤ s.clk.dtime ∧ s.clk.dtime < b.t0 + 18 ∧ s.d.leapInBind ch = some w) ∧
    (let ch : Nat := 255;
     let b : LBlk := ⟨0, [1, 2, 3, 4], .accepted, [], none, false⟩;
     let s : State := stOf ((Dev.reset.setChan ch { LeapCh.zero with line := [b] }).setReg (cluReg (leapTo 255) .LPB 0) (BitVec.ofNat 64 (2 ^
       63 + brSel 3 * 2 ^ 33 + 31))) (⟨0, 13, 0, false, false, 0⟩);
     (s.d.chan ch).line = [b] ∧ (s.d.leapInBind ch = none ∨ s.clk.dtime < b.t0 + 14)) ∧
    (let ch : Nat := 255;
     let s : State := stOf (Dev.reset.setChan ch { LeapCh.zero with lost := true }) (⟨0, 17, 0, false, false, 0⟩);
     (s.d.chan ch).lost = true) ∧
    (let ch : Nat := 0;
     let s : State := State.reset;
     (s.d.chan ch).lost = false) := by
  refine ⟨?_, ?_, ?_, ?_, ?_, ?_, ?_, ?_, ?_, ?_, ?_, ?_, ?_, ?_, ?_, ?_⟩
  · try dsimp only
    refine ⟨?_, ?_, ?_, ?_, ?_⟩
    · decide +kernel
    · decide +kernel
    · decide +kernel
    · decide +kernel
    · decide +kernel
  · try dsimp only
    refine ⟨?_, ?_, ?_, ?_, ?_⟩
    · decide +kernel
    · decide +kernel
    · decide +kernel
    · decide +kernel
    · decide +kernel
  · try dsimp only
    refine ⟨?_, ?_, ?_, ?_, ?_, ?_⟩
    · decide +kernel
    · decide +kernel
    · decide +kernel
    · decide +kernel
    · decide +kernel
    · decide +kernel
  · try dsimp only
    refine ⟨?_, ?_, ?_, ?_, ?_, ?_⟩
    · decide +kernel
    · decide +kernel
    · decide +kernel
    · decide +kernel
    · decide +kernel
    · decide +kernel
  · try dsimp only
    refine ⟨?_, ?_, ?_, ?_, ?_, ?_⟩
    · decide +kernel
    · decide +kernel
    · decide +kernel
    · decide +kernel
    · decide +kernel
    · decide +kernel
  · try dsimp only
    refine ⟨?_, ?_, ?_, ?_, ?_, ?_⟩
    · decide +kernel
    · decide +kernel
    · decide +kernel
    · decide +kernel
    · decide +kernel
    · decide +kernel
  · try dsimp only
    refine ⟨?_, ?_, ?_, ?_⟩
    · decide +kernel
    · decide +kernel
    · decide +kernel
    · decide +kernel
  · try dsimp only
    decide +kernel
  · try dsimp only
    refine ⟨?_, ?_, ?_, ?_, ?_, ?_⟩
    · decide +kernel
    · decide +kernel
    · decide +kernel
    · decide +kernel
    · decide +kernel
    · decide +kernel
  · try dsimp only
    decide +kernel
  · try dsimp only
    refine ⟨?_, ?_, ?_, ?_, ?_⟩
    · decide +kernel
    · decide +kernel
    · decide +kernel
    · decide +kernel
    · decide +kernel
  · try dsimp only
    refine ⟨?_, ?_, ?_, ?_, ?_, ?_⟩
    · decide +kernel
    · decide +kernel
    · decide +kernel
    · decide +kernel
    · decide +kernel
    · decide +kernel
  · try dsimp only
    refine ⟨?_, ?_, ?_, ?_⟩
    · decide +kernel
    · decide +kernel
    · decide +kernel
    · decide +kernel
  · try dsimp only
    refine ⟨?_, ?_⟩
    · decide +kernel
    · decide +kernel
  · try dsimp only
    decide +kernel
  · try dsimp only
    decide +kernel

/-- What LeapBridges asks of a state and of operands is met, case by case. -/
theorem witness_LeapBridges :
    (let s : State := State.reset;
     s.d.bridgesTrain = false) ∧
    (identityCode Config.fuseQpos ≠ 0 →
     let s : State := stOf ({ Dev.reset with boot := { Boot.none with on := true } });
     s.d.bridgesTrain = true ∧
     let id := identityCode Config.fuseQpos;
     id ≠ 0) ∧
    (identityCode Config.fuseQpos = 0 →
     let p : BridgeTest := ⟨false, [], [], [], [], true, [], []⟩;
     let s : State := stOf ({ Dev.reset with boot := { Boot.none with on := true } });
     s.d.bridgesTrain = true ∧
     let id := identityCode Config.fuseQpos;
     id = 0 ∧ (p.clkOk = false ∨ sparesEnough p.fail0 p.bad0 = false ∨ sparesEnough p.fail1 p.bad1 = false)) ∧
    (identityCode Config.fuseQpos = 0 →
     let p : BridgeTest := ⟨true, [], [], [], [], false, [], []⟩;
     let s : State := stOf ({ Dev.reset with boot := { Boot.none with on := true } });
     s.d.bridgesTrain = true ∧
     let id := identityCode Config.fuseQpos;
     id = 0 ∧ p.clkOk = true ∧ sparesEnough p.fail0 p.bad0 = true ∧ sparesEnough p.fail1 p.bad1 = true ∧ (p.nslOk = false ∨ 4 < p.nsl0.length
     ∨ 4 < p.nsl1.length)) ∧
    (identityCode Config.fuseQpos = 0 →
     let p : BridgeTest := ⟨true, [], [], [], [], true, [0, 1, 2, 3], []⟩;
     let s : State := stOf ({ Dev.reset with boot := { Boot.none with on := true } });
     s.d.bridgesTrain = true ∧
     let id := identityCode Config.fuseQpos;
     id = 0 ∧ p.clkOk = true ∧ sparesEnough p.fail0 p.bad0 = true ∧ sparesEnough p.fail1 p.bad1 = true ∧ p.nslOk = true ∧ p.nsl0.length ≤ 4 ∧
     p.nsl1.length ≤ 4) ∧
    (let m : Mst := fw;
     let q : Nat := 3;
     let pg : Nat := 1;
     let s : State := stOf (Dev.reset.setBit (brReg 3 .REPAIR_STAT) 31 true);
     m.oid = 0 ∧ (q = 0 ∨ q = 3) ∧
     let br := brOf q pg;
     let x := brReg br .REPAIR_STAT;
     (s.d.reg x).getLsbD 31 = true) ∧
    (let m : Mst := fw;
     let q : Nat := 3;
     let pg : Nat := 1;
     let dir : Nat := 1;
     let s : State := stOf (((Dev.reset.setReg (cluReg (leapTo 224) .LPB 0) (BitVec.ofNat 64 (2 ^ 63 + brSel 3 * 2 ^ 33))).setReg (cluReg
       (leapTo 224) .POS_CFG 0) (BitVec.ofNat 64 (2 ^ 31 + 3))).setReg (slotReg 3 .SLOT_STAT) (BitVec.ofNat 64 stLive));
     m.oid = 0 ∧ (q = 0 ∨ q = 3) ∧
     let br := brOf q pg;
     let x := brReg br .REPAIR_STAT;
     (s.d.reg x).getLsbD 31 = false ∧ s.d.dirLive (br * 2 + dir % 2) = true) ∧
    (let m : Mst := fw;
     let q : Nat := 3;
     let pg : Nat := 1;
     let dir : Nat := 1;
     let s : State := State.reset;
     m.oid = 0 ∧ (q = 0 ∨ q = 3) ∧
     let br := brOf q pg;
     let x := brReg br .REPAIR_STAT;
     (s.d.reg x).getLsbD 31 = false ∧ s.d.dirLive (br * 2 + dir % 2) = false) ∧
    (let br : Nat := 0;
     let s : State := State.reset;
     nget 0 s.d.repairs br = 0) ∧
    (let br : Nat := 3;
     let s : State := stOf ({ Dev.reset with repairs := nset 0 [] 3 2 });
     2 ≤ nget 0 s.d.repairs br) ∧
    (let br : Nat := 3;
     let s : State := stOf ({ Dev.reset with repairs := nset 0 [] 3 1 });
     nget 0 s.d.repairs br = 1) ∧
    (let br : Nat := 3;
     let w : Nat := 611;
     let s : State := stOf ({ Dev.reset.setBit (dirReg 6 .WIRE_FLAG 19) 3 true with repairs := nset 0 [] 3 1 });
     nget 0 s.d.repairs br = 1 ∧
     let dir := br * 2 + getBits (s.d.reg (brReg br .REPAIR_STAT)) 8 8;
     s.d.flagged dir = [w] ∧ (∀ k, k < 24 → s.d.reg (dirReg dir .SPARE_MAP k) = 0)) ∧
    (let m : Mst := fw;
     let q : Nat := 3;
     let v : Nat := 30 * 2 ^ 16;
     let s : State := State.reset;
     m.oid = 0 ∧ (q = 0 ∨ q = 3) ∧ s.d.locked .LEAP q = false ∧ 16 ≤ bitsOf v 20 16 ∧ bitsOf v 20 16 ≤ 30) ∧
    (let m : Mst := fw;
     let q : Nat := 0;
     let v : Nat := 0;
     let s : State := State.reset;
     m.oid = 0 ∧ (q = 0 ∨ q = 3) ∧ s.d.locked .LEAP q = false ∧ (bitsOf v 20 16 < 16 ∨ 30 < bitsOf v 20 16)) ∧
    (let m : Mst := fw;
     let q : Nat := 3;
     let s : State := stOf (Dev.reset.setRegN (R.BLK_LOCK.at 3 (Blk.LEAP.base / 65536)) 1);
     m.oid = 0 ∧ (q = 0 ∨ q = 3) ∧ s.d.locked .LEAP q = true) ∧
    (0 < Config.nslCredits 3 →
     let dir : Nat := 7;
     let f : NslFlit := ⟨3, 3, 2 ^ 256 - 1⟩;
     let s : State := stOf (Dev.reset.setNslState 7 2);
     dir < 8 ∧ s.d.nslUp dir = true ∧
     let x := s.d.nslDir dir;
     let y := s.d.nslDir (revDir dir);
     x.wait = [] ∧ x.buf = [] ∧ x.sent = 0 ∧ x.credit f.vc = true ∧ x.next = x.expect ∧ x.next < 1024 ∧ y.nak = false ∧ f.type ≠ 0 ∧ f.type <
     4 ∧ f.vc < 4 ∧ f.flit < 2 ^ 256) ∧
    (let dir : Nat := 7;
     let s : State := stOf (Dev.reset.setNslState 7 2);
     dir < 8 ∧ s.d.nslUp dir = true ∧ (s.d.nslDir dir).wait = [] ∧ (s.d.nslDir dir).buf.drop (s.d.nslDir dir).sent = [] ∧ (s.d.nslDir (revDir
     dir)).nak = false) ∧
    (let dir : Nat := 7;
     let s : State := stOf (((Dev.reset.setNslState 7 2).setNslState 6 2).setNsl 6
       { NslDir.zero with nak := true, buf := [(1, ⟨0, 1, 0⟩)], expect := 6 });
     dir < 8 ∧ s.d.nslUp dir = true ∧ s.d.nslUp (revDir dir) = true ∧ (s.d.nslDir dir).wait = [] ∧ (s.d.nslDir dir).buf.drop (s.d.nslDir
     dir).sent = [] ∧
     let y := s.d.nslDir (revDir dir);
     let aack := (y.expect + 1023) % 1024;
     y.nak = true ∧ y.buf ≠ [] ∧ y.buf.findIdx? (fun e => e.1 == aack) = none ∧ y.from_ ≠ aack) ∧
    (let dir : Nat := 7;
     let offer : List NslFlit := [];
     let flips : List Nat := [319];
     let s : State := stOf (Dev.reset.setNslState 7 2);
     s.d.nslUp dir = true ∧
     let x := s.d.nslDir dir;
     let y := s.d.nslDir (revDir dir);
     let r := ({ x with wait := x.wait ++ offer } : NslDir).send;
     let w := nslWire (nslBody r.2 r.1 ((y.expect + 1023) % 1024) y.nak y.creditField) flips;
     w.2 ≠ Config.crc24 w.1 % 2 ^ 24) ∧
    (let dir : Nat := 7;
     let s : State := stOf Dev.reset;
     s.d.nslUp dir = false) ∧
    (let dir : Nat := 7;
     let s : State := stOf Dev.reset;
     s.d.nslUp dir = false) ∧
    (let dir : Nat := 7;
     let s : State := stOf (Dev.reset.setNslState 7 2);
     s.d.nslUp dir = true) := by
  refine ⟨?_, ?_, ?_, ?_, ?_, ?_, ?_, ?_, ?_, ?_, ?_, ?_, ?_, ?_, ?_, ?_, ?_, ?_, ?_, ?_, ?_, ?_⟩
  · try dsimp only
    decide +kernel
  · intro hc
    try dsimp only
    refine ⟨?_, ?_⟩
    · first | decide +kernel | exact hc
    · first | decide +kernel | exact hc
  · intro hc
    try dsimp only
    refine ⟨?_, ?_, ?_⟩
    · first | decide +kernel | exact hc
    · first | decide +kernel | exact hc
    · first | decide +kernel | exact hc
  · intro hc
    try dsimp only
    refine ⟨?_, ?_, ?_, ?_, ?_, ?_⟩
    · first | decide +kernel | exact hc
    · first | decide +kernel | exact hc
    · first | decide +kernel | exact hc
    · first | decide +kernel | exact hc
    · first | decide +kernel | exact hc
    · first | decide +kernel | exact hc
  · intro hc
    try dsimp only
    refine ⟨?_, ?_, ?_, ?_, ?_, ?_, ?_, ?_⟩
    · first | decide +kernel | exact hc
    · first | decide +kernel | exact hc
    · first | decide +kernel | exact hc
    · first | decide +kernel | exact hc
    · first | decide +kernel | exact hc
    · first | decide +kernel | exact hc
    · first | decide +kernel | exact hc
    · first | decide +kernel | exact hc
  · try dsimp only
    refine ⟨?_, ?_, ?_⟩
    · decide +kernel
    · decide +kernel
    · decide +kernel
  · try dsimp only
    refine ⟨?_, ?_, ?_, ?_⟩
    · decide +kernel
    · decide +kernel
    · decide +kernel
    · decide +kernel
  · try dsimp only
    refine ⟨?_, ?_, ?_, ?_⟩
    · decide +kernel
    · decide +kernel
    · decide +kernel
    · decide +kernel
  · try dsimp only
    decide +kernel
  · try dsimp only
    decide +kernel
  · try dsimp only
    decide +kernel
  · try dsimp only
    refine ⟨?_, ?_, ?_⟩
    · decide +kernel
    · decide +kernel
    · decide +kernel
  · try dsimp only
    refine ⟨?_, ?_, ?_, ?_, ?_⟩
    · decide +kernel
    · decide +kernel
    · decide +kernel
    · decide +kernel
    · decide +kernel
  · try dsimp only
    refine ⟨?_, ?_, ?_, ?_⟩
    · decide +kernel
    · decide +kernel
    · decide +kernel
    · decide +kernel
  · try dsimp only
    refine ⟨?_, ?_, ?_⟩
    · decide +kernel
    · decide +kernel
    · decide +kernel
  · intro hc
    refine ⟨by decide +kernel, by decide +kernel, by decide +kernel, by decide +kernel, by decide +kernel, ?_, by decide +kernel, by decide +kernel,
      by decide +kernel, by decide +kernel, by decide +kernel, by decide +kernel, by decide +kernel⟩
    show decide (0 < Config.nslCredits 3) = true
    exact decide_eq_true hc
  · try dsimp only
    refine ⟨?_, ?_, ?_, ?_, ?_⟩
    · decide +kernel
    · decide +kernel
    · decide +kernel
    · decide +kernel
    · decide +kernel
  · try dsimp only
    refine ⟨?_, ?_, ?_, ?_, ?_, ?_, ?_, ?_, ?_⟩
    · decide +kernel
    · decide +kernel
    · decide +kernel
    · decide +kernel
    · decide +kernel
    · decide +kernel
    · decide +kernel
    · decide +kernel
    · decide +kernel
  · exact ⟨by decide +kernel, nslWire_319 _⟩
  · try dsimp only
    decide +kernel
  · try dsimp only
    decide +kernel
  · try dsimp only
    decide +kernel

/-- What ArrayCommands asks of a state and of operands is met, case by case. -/
theorem witness_ArrayCommands :
    (let s : State := stOf Dev.reset (⟨0, 0, 63, true, false, 0⟩);
     s.clk.runs = true ∧ s.clk.cyc < 64) ∧
    (let s : State := stOf Dev.reset (⟨0, 0, 64, true, false, 0⟩);
     (s.clk.runs = false ∨ 64 ≤ s.clk.cyc)) ∧
    (let T : Nat := 4095;
     let cell : Nat := 15;
     let i : Nat := 63;
     let s : State := stOf (Dev.reset.setMark (eccCtx T cell i) (.found 5));
     (s.d.mark (eccCtx T cell i)).isFound = true) ∧
    (let T : Nat := 4095;
     let i : Nat := 63;
     let s : State := stOf (Dev.reset.setMark (eccSw T i) (.found 5));
     (s.d.mark (eccSw T i)).isFound = true) ∧
    (let T : Nat := 4095;
     let i : Nat := 63;
     let s : State := stOf (Dev.reset.setMark (eccSeq T i) (.found 5));
     (s.d.mark (eccSeq T i)).isFound = true) ∧
    (let T : Nat := 4095;
     let cell : Nat := 15;
     let i : Nat := 63;
     let s : State := stOf (Dev.reset.setMark (eccCtx T cell i) (.ce 5));
     (s.d.mark (eccCtx T cell i)).isFound = false) ∧
    (let T : Nat := 4095;
     let i : Nat := 63;
     let s : State := stOf (Dev.reset.setMark (eccSw T i) (.ce 5));
     (s.d.mark (eccSw T i)).isFound = false) ∧
    (let T : Nat := 4095;
     let i : Nat := 63;
     let s : State := stOf (Dev.reset.setMark (eccSeq T i) (.ce 5));
     (s.d.mark (eccSeq T i)).isFound = false) ∧
    (let vp : Nat := 1023;
     let w : Word := 7;
     let r : List FEl := [];
     let s : State := stOf ((Dev.reset.setReg (cluReg 63 .VP_CFG 15) (BitVec.ofNat 64 (2 ^ 63))).setFifo 1023 [.word 7]);
     let t := s.d.vpTile vp;
     let p := s.d.tport t.1 t.2;
     let may := s.d.vpIn vp = true ∧ p.head.length + p.transit.length < 8 ∧ (s.clk.runs = false ∨ ∀ e, e ∈ p.transit → e.2 ≠ s.clk.aclk);
     may ∧ s.d.fifo vp = .word w :: r) ∧
    (let vp : Nat := 1023;
     let s : State := stOf (Dev.reset.setReg (cluReg 63 .VP_CFG 15) (BitVec.ofNat 64 (2 ^ 63)));
     let t := s.d.vpTile vp;
     let p := s.d.tport t.1 t.2;
     let may := s.d.vpIn vp = true ∧ p.head.length + p.transit.length < 8 ∧ (s.clk.runs = false ∨ ∀ e, e ∈ p.transit → e.2 ≠ s.clk.aclk);
     may ∧ (∀ w r, s.d.fifo vp ≠ .word w :: r)) ∧
    (let vp : Nat := 0;
     let s : State := State.reset;
     let t := s.d.vpTile vp;
     let p := s.d.tport t.1 t.2;
     let may := s.d.vpIn vp = true ∧ p.head.length + p.transit.length < 8 ∧ (s.clk.runs = false ∨ ∀ e, e ∈ p.transit → e.2 ≠ s.clk.aclk);
     ¬ may) ∧
    (let vp : Nat := 1023;
     let w : Word := 7;
     let at0 : Nat := 58;
     let r : List (Word × Nat) := [];
     let s : State := stOf ((Dev.reset.setReg (cluReg 63 .VP_CFG 15) (BitVec.ofNat 64 (2 ^ 63))).setTport (tileOf 63 0) 0
       { TPort.zero with transit := [(7, 58)] }) (⟨0, 0, 64, true, false, 0⟩);
     let t := s.d.vpTile vp;
     let p := s.d.tport t.1 t.2;
     s.d.vpIn vp = true ∧ p.transit = (w, at0) :: r ∧ (s.clk.runs = false ∨ at0 + 6 ≤ s.clk.aclk)) ∧
    (let vp : Nat := 1023;
     let w : Word := 7;
     let at0 : Nat := 58;
     let r : List (Word × Nat) := [];
     let s : State := stOf ((Dev.reset.setReg (cluReg 63 .VP_CFG 15) (BitVec.ofNat 64 (2 ^ 63))).setTport (tileOf 63 0) 0
       { TPort.zero with transit := [(7, 58)] }) (⟨0, 0, 63, true, false, 0⟩);
     let t := s.d.vpTile vp;
     let p := s.d.tport t.1 t.2;
     s.d.vpIn vp = true ∧ p.transit = (w, at0) :: r ∧ s.clk.runs = true ∧ s.clk.aclk < at0 + 6) ∧
    (let vp : Nat := 0;
     let s : State := State.reset;
     let t := s.d.vpTile vp;
     let p := s.d.tport t.1 t.2;
     (s.d.vpIn vp = false ∨ p.transit = [])) := by
  refine ⟨?_, ?_, ?_, ?_, ?_, ?_, ?_, ?_, ?_, ?_, ?_, ?_, ?_, ?_⟩
  · try dsimp only
    refine ⟨?_, ?_⟩
    · decide +kernel
    · decide +kernel
  · try dsimp only
    decide +kernel
  · try dsimp only
    decide +kernel
  · try dsimp only
    decide +kernel
  · try dsimp only
    decide +kernel
  · try dsimp only
    decide +kernel
  · try dsimp only
    decide +kernel
  · try dsimp only
    decide +kernel
  · try dsimp only
    refine ⟨?_, ?_⟩
    · decide +kernel
    · decide +kernel
  · refine ⟨by decide +kernel, ?_⟩
    intro w r h
    cases h
  · try dsimp only
    decide +kernel
  · try dsimp only
    refine ⟨?_, ?_, ?_⟩
    · decide +kernel
    · decide +kernel
    · decide +kernel
  · try dsimp only
    refine ⟨?_, ?_, ?_, ?_⟩
    · decide +kernel
    · decide +kernel
    · decide +kernel
    · decide +kernel
  · try dsimp only
    decide +kernel

/-- What TileMemory asks of a state and of operands is met, case by case. -/
theorem witness_TileMemory :
    (let n : Nat := 0;
     let s : State := State.reset;
     s.d.arr.tmemq[n]? = none) ∧
    (let n : Nat := 1;
     let r : TmemReq := ⟨0, 0, true, 4095, 3, 2047, [5], 1, false, [], 0, 0⟩;
     let s : State := stOf
       ({ Dev.reset with regs := [(cluReg (tileCluster 4095) .CLU_STAT, BitVec.ofNat 64 (0))], arr := { Dev.reset.arr with tmemq := [r, r] } });
     s.d.arr.tmemq[n]? = some r ∧ r.epoch = s.d.epochOf r.mid ∧ s.d.tmemBehind n r = true) ∧
    (let n : Nat := 0;
     let r : TmemReq := ⟨0, 0, true, 4095, 3, 2047, [5], 1, false, [], 0, 0⟩;
     let s : State := stOf
       ({ Dev.reset with regs := [(cluReg (tileCluster 4095) .CLU_STAT, BitVec.ofNat 64 (2 ^ 29))], arr := { Dev.reset.arr with tmemq := [r] } });
     s.d.arr.tmemq[n]? = some r ∧ r.epoch = s.d.epochOf r.mid ∧ s.d.tmemBehind n r = false ∧ (s.d.bankMolting r.tile r.bank = true ∨
     s.d.cluDomain (tileCluster r.tile) ≠ 0)) ∧
    (let n : Nat := 0;
     let r : TmemReq := ⟨0, 0, true, 4095, 3, 2047, [5], 1, false, [], 0, 0⟩;
     let s : State := stOf
       ({ Dev.reset with regs := [(cluReg (tileCluster 4095) .CLU_STAT, BitVec.ofNat 64 (0))], arr := { Dev.reset.arr with tmemq := [r] } })
       (⟨0, 0, 64, true, false, 0⟩);
     s.d.arr.tmemq[n]? = some r ∧ r.epoch = s.d.epochOf r.mid ∧ s.d.tmemBehind n r = false ∧ s.d.bankMolting r.tile r.bank = false ∧
     s.d.cluDomain (tileCluster r.tile) = 0 ∧ ((s.clk.runs = true ∧ s.clk.executing = false) ∨ s.d.portBusy s.clk r.write r.tile r.bank
     = true)) ∧
    (let n : Nat := 0;
     let r : TmemReq := ⟨0, 0, true, 4095, 3, 2047, [5], 1, false, [], 0, 0⟩;
     let s : State := stOf
       ({ Dev.reset with regs := [(cluReg (tileCluster 4095) .CLU_STAT, BitVec.ofNat 64 (0))], arr := { Dev.reset.arr with tmemq := [r] } });
     s.d.arr.tmemq[n]? = some r ∧ r.epoch = s.d.epochOf r.mid ∧ s.d.tmemBehind n r = false ∧ s.d.bankMolting r.tile r.bank = false ∧
     s.d.cluDomain (tileCluster r.tile) = 0 ∧ (s.clk.runs = false ∨ s.clk.executing = true) ∧ s.d.portBusy s.clk r.write r.tile r.bank =
     false ∧
     let a := tmemAddr r.tile r.bank r.word;
     r.write = true ∧ s.d.storeDue s.clk a true = none ∧ r.left ≤ 1) ∧
    (let n : Nat := 0;
     let r : TmemReq := ⟨0, 0, true, 4095, 3, 2047, [5], 2, false, [], 0, 0⟩;
     let s : State := stOf
       ({ Dev.reset with regs := [(cluReg (tileCluster 4095) .CLU_STAT, BitVec.ofNat 64 (0))], arr := { Dev.reset.arr with tmemq := [r] } });
     s.d.arr.tmemq[n]? = some r ∧ r.epoch = s.d.epochOf r.mid ∧ s.d.tmemBehind n r = false ∧ s.d.bankMolting r.tile r.bank = false ∧
     s.d.cluDomain (tileCluster r.tile) = 0 ∧ (s.clk.runs = false ∨ s.clk.executing = true) ∧ s.d.portBusy s.clk r.write r.tile r.bank =
     false ∧
     let a := tmemAddr r.tile r.bank r.word;
     r.write = true ∧ s.d.storeDue s.clk a true = none ∧ 1 < r.left) ∧
    (let n : Nat := 0;
     let r : TmemReq := ⟨0, 0, true, 4095, 3, 2047, [5], 1, false, [], 0, 0⟩;
     let v : Word := 7;
     let s : State := stOf
       ({ Dev.reset with regs := [(cluReg (tileCluster 4095) .CLU_STAT, 0)], arr := { Dev.reset.arr with tmemq := [r], flight := [⟨9, 0, .store 4095 0 0 3 2047 true 7⟩] } })
       (⟨0, 9, 63, true, false, 0⟩);
     s.d.arr.tmemq[n]? = some r ∧ r.epoch = s.d.epochOf r.mid ∧ s.d.tmemBehind n r = false ∧ s.d.bankMolting r.tile r.bank = false ∧
     s.d.cluDomain (tileCluster r.tile) = 0 ∧ (s.clk.runs = false ∨ s.clk.executing = true) ∧ s.d.portBusy s.clk r.write r.tile r.bank =
     false ∧
     let a := tmemAddr r.tile r.bank r.word;
     r.write = true ∧ s.d.storeDue s.clk a true = some v ∧ r.left ≤ 1) ∧
    (let n : Nat := 0;
     let r : TmemReq := ⟨0, 0, true, 4095, 3, 2047, [5], 2, false, [], 0, 0⟩;
     let v : Word := 7;
     let s : State := stOf
       ({ Dev.reset with regs := [(cluReg (tileCluster 4095) .CLU_STAT, 0)], arr := { Dev.reset.arr with tmemq := [r], flight := [⟨9, 0, .store 4095 0 0 3 2047 true 7⟩] } })
       (⟨0, 9, 63, true, false, 0⟩);
     s.d.arr.tmemq[n]? = some r ∧ r.epoch = s.d.epochOf r.mid ∧ s.d.tmemBehind n r = false ∧ s.d.bankMolting r.tile r.bank = false ∧
     s.d.cluDomain (tileCluster r.tile) = 0 ∧ (s.clk.runs = false ∨ s.clk.executing = true) ∧ s.d.portBusy s.clk r.write r.tile r.bank =
     false ∧
     let a := tmemAddr r.tile r.bank r.word;
     r.write = true ∧ s.d.storeDue s.clk a true = some v ∧ 1 < r.left) ∧
    (let n : Nat := 0;
     let r : TmemReq := ⟨0, 0, false, 4095, 3, 2047, [5], 1, false, [], 0, 0⟩;
     let v : Word := 0;
     let s : State := stOf
       ({ Dev.reset with regs := [(cluReg (tileCluster 4095) .CLU_STAT, BitVec.ofNat 64 (0))], arr := { Dev.reset.arr with tmemq := [r] } });
     s.d.arr.tmemq[n]? = some r ∧ r.epoch = s.d.epochOf r.mid ∧ s.d.tmemBehind n r = false ∧ s.d.bankMolting r.tile r.bank = false ∧
     s.d.cluDomain (tileCluster r.tile) = 0 ∧ (s.clk.runs = false ∨ s.clk.executing = true) ∧ s.d.portBusy s.clk r.write r.tile r.bank =
     false ∧
     let a := tmemAddr r.tile r.bank r.word;
     r.write = false ∧
     let x : Option Word × Dev := match s.d.storeDue s.clk a true, s.d.storeDue s.clk a false with | some v, _ => (some v, s.d) | none, some v => (some v, s.d) | none, none => s.d.tmemRead r.tile r.bank r.word 1;
     x.1 = some v ∧ r.left ≤ 1 ∧ r.collided = false) ∧
    (let n : Nat := 0;
     let r : TmemReq := ⟨0, 0, false, 4095, 3, 2047, [5], 1, true, [], 0, 0⟩;
     let s : State := stOf
       ({ Dev.reset with regs := [(cluReg (tileCluster 4095) .CLU_STAT, BitVec.ofNat 64 (0))], arr := { Dev.reset.arr with tmemq := [r] } });
     s.d.arr.tmemq[n]? = some r ∧ r.epoch = s.d.epochOf r.mid ∧ s.d.tmemBehind n r = false ∧ s.d.bankMolting r.tile r.bank = false ∧
     s.d.cluDomain (tileCluster r.tile) = 0 ∧ (s.clk.runs = false ∨ s.clk.executing = true) ∧ s.d.portBusy s.clk r.write r.tile r.bank =
     false ∧
     let a := tmemAddr r.tile r.bank r.word;
     r.write = false ∧
     let x : Option Word × Dev := match s.d.storeDue s.clk a true, s.d.storeDue s.clk a false with | some v, _ => (some v, s.d) | none, some v => (some v, s.d) | none, none => s.d.tmemRead r.tile r.bank r.word 1;
     (x.1 = none ∨ r.collided = true) ∧ r.left ≤ 1) ∧
    (let n : Nat := 0;
     let r : TmemReq := ⟨0, 0, false, 4095, 3, 2047, [5], 2, false, [], 0, 0⟩;
     let s : State := stOf
       ({ Dev.reset with regs := [(cluReg (tileCluster 4095) .CLU_STAT, BitVec.ofNat 64 (0))], arr := { Dev.reset.arr with tmemq := [r] } });
     s.d.arr.tmemq[n]? = some r ∧ r.epoch = s.d.epochOf r.mid ∧ s.d.tmemBehind n r = false ∧ s.d.bankMolting r.tile r.bank = false ∧
     s.d.cluDomain (tileCluster r.tile) = 0 ∧ (s.clk.runs = false ∨ s.clk.executing = true) ∧ s.d.portBusy s.clk r.write r.tile r.bank =
     false ∧ r.write = false ∧ 1 < r.left) ∧
    (let n : Nat := 0;
     let r : TmemReq := ⟨0, 0, true, 4095, 3, 2047, [5], 1, false, [], 0, 0⟩;
     let s : State := stOf
       ({ Dev.reset with regs := [(cluReg (tileCluster 4095) .CLU_STAT, BitVec.ofNat 64 (0))], arr := { Dev.reset.arr with tmemq := [r] } });
     s.d.arr.tmemq[n]? = some r ∧ r.epoch = s.d.epochOf r.mid ∧ getBits (s.d.reg (s.d.tileReg r.tile .TMEM_NOCTO)) 15 0 ≠ 0) ∧
    (let n : Nat := 0;
     let r : TmemReq := ⟨0, 0, true, 4095, 3, 2047, [5], 1, false, [], 0, 0⟩;
     let s : State := stOf ({ (on 63).setRegN ((on 63).tileReg 4095 .TMEM_NOCTO) 0 with arr := { Dev.reset.arr with tmemq := [r] } });
     s.d.arr.tmemq[n]? = some r ∧ r.epoch = s.d.epochOf r.mid ∧ getBits (s.d.reg (s.d.tileReg r.tile .TMEM_NOCTO)) 15 0 = 0) ∧
    (let T : Nat := 4095;
     let b : Nat := 3;
     let w : Nat := 2047;
     let s : State := stOf ({ Dev.reset with ecc := nset .ok [] (tmemAddr 4095 3 2047) (.found 5) });
     let a := tmemAddr T b w;
     (nget Ecc.ok s.d.ecc a).isFound = true ∧ s.d.portBusy s.clk true T b = false) ∧
    (let T : Nat := 4095;
     let b : Nat := 3;
     let w : Nat := 2047;
     let s : State := stOf ({ Dev.reset with ecc := nset .ok [] (tmemAddr 4095 3 2047) (.ce 5) });
     let a := tmemAddr T b w;
     ((nget Ecc.ok s.d.ecc a).isFound = false ∨ s.d.portBusy s.clk true T b = true)) ∧
    (let m : Mst := fw;
     let q : Nat := 3;
     let l : Nat := 15;
     let p : Nat := 80;
     let v : Nat := 8 * 2 ^ 12;
     let s : State := stOf ({ Dev.reset with regs := [(R.TILE_ID.at 3 15 80, BitVec.ofNat 64 (2 ^ 30))] });
     m.oid = 0 ∧ s.d.pageMapped q l p = true ∧
     let T := s.d.pageTile q l p;
     let old := s.d.regN (R.TMEM_OWN.at q l p);
     let ch := (upTo 4).filter (fun b => v / 2 ^ (4 * b) % 16 != old / 2 ^ (4 * b) % 16);
     let may (b : Nat) : Bool := s.d.handoverOk (clusterOf q l) T b (old / 2 ^ (4 * b) % 16) (v / 2 ^ (4 * b) % 16);
     (∀ b, b ∈ ch → may b = true)) ∧
    (let m : Mst := fw;
     let q : Nat := 3;
     let l : Nat := 15;
     let p : Nat := 80;
     let v : Nat := 4 * 2 ^ 12;
     let b : Nat := 3;
     let s : State := stOf ({ Dev.reset with regs := [(R.TILE_ID.at 3 15 80, BitVec.ofNat 64 (2 ^ 30))] });
     m.oid = 0 ∧ s.d.pageMapped q l p = true ∧
     let T := s.d.pageTile q l p;
     let old := s.d.regN (R.TMEM_OWN.at q l p);
     let ch := (upTo 4).filter (fun b => v / 2 ^ (4 * b) % 16 != old / 2 ^ (4 * b) % 16);
     let may (b : Nat) : Bool := s.d.handoverOk (clusterOf q l) T b (old / 2 ^ (4 * b) % 16) (v / 2 ^ (4 * b) % 16);
     b ∈ ch ∧ may b = false) ∧
    (let T : Nat := 4095;
     let b : Nat := 3;
     let s : State := stOf ((on 63).setBit ((on 63).tileReg 4095 .TMEM_STAT) 3 true);
     s.d.bankMolting T b = true) ∧
    (let T : Nat := 0;
     let b : Nat := 0;
     let s : State := State.reset;
     s.d.bankMolting T b = false) ∧
    (let m : Mst := fw;
     let q : Nat := 3;
     let l : Nat := 15;
     let p : Nat := 80;
     let n : Nat := 31;
     let s : State := stOf ({ Dev.reset with regs := [(R.TILE_ID.at 3 15 80, BitVec.ofNat 64 (2 ^ 30))] });
     m.oid = 0 ∧ s.d.pageMapped q l p = true ∧ s.d.posLive (clusterOf q l) (n / 8) = false) ∧
    (let m : Mst := fw;
     let q : Nat := 3;
     let l : Nat := 15;
     let p : Nat := 80;
     let n : Nat := 31;
     let s : State := stOf ((({ Dev.reset with regs := [(R.TILE_ID.at 3 15 80, BitVec.ofNat 64 (2 ^ 30))] }).setReg (cluReg 63 .POS_CFG 3)
       (BitVec.ofNat 64 (2 ^ 31 + 255))).setReg (slotReg 255 .SLOT_STAT) (BitVec.ofNat 64 stLive));
     m.oid = 0 ∧ s.d.pageMapped q l p = true ∧ s.d.posLive (clusterOf q l) (n / 8) = true) ∧
    (let m : Mst := fw;
     let q : Nat := 3;
     let l : Nat := 15;
     let p : Nat := 80;
     let s : State := stOf ({ Dev.reset with regs := [(R.TILE_ID.at 3 15 80, 0)] });
     m.oid = 0 ∧ s.d.pageMapped q l p = false) := by
  refine ⟨?_, ?_, ?_, ?_, ?_, ?_, ?_, ?_, ?_, ?_, ?_, ?_, ?_, ?_, ?_, ?_, ?_, ?_, ?_, ?_, ?_, ?_⟩
  · try dsimp only
    decide +kernel
  · try dsimp only
    refine ⟨?_, ?_, ?_⟩
    · decide +kernel
    · decide +kernel
    · decide +kernel
  · try dsimp only
    refine ⟨?_, ?_, ?_, ?_⟩
    · decide +kernel
    · decide +kernel
    · decide +kernel
    · decide +kernel
  · try dsimp only
    refine ⟨?_, ?_, ?_, ?_, ?_, ?_⟩
    · decide +kernel
    · decide +kernel
    · decide +kernel
    · decide +kernel
    · decide +kernel
    · decide +kernel
  · try dsimp only
    refine ⟨?_, ?_, ?_, ?_, ?_, ?_, ?_, ?_, ?_, ?_⟩
    · decide +kernel
    · decide +kernel
    · decide +kernel
    · decide +kernel
    · decide +kernel
    · decide +kernel
    · decide +kernel
    · decide +kernel
    · decide +kernel
    · decide +kernel
  · try dsimp only
    refine ⟨?_, ?_, ?_, ?_, ?_, ?_, ?_, ?_, ?_, ?_⟩
    · decide +kernel
    · decide +kernel
    · decide +kernel
    · decide +kernel
    · decide +kernel
    · decide +kernel
    · decide +kernel
    · decide +kernel
    · decide +kernel
    · decide +kernel
  · try dsimp only
    refine ⟨?_, ?_, ?_, ?_, ?_, ?_, ?_, ?_, ?_, ?_⟩
    · decide +kernel
    · decide +kernel
    · decide +kernel
    · decide +kernel
    · decide +kernel
    · decide +kernel
    · decide +kernel
    · decide +kernel
    · decide +kernel
    · decide +kernel
  · try dsimp only
    refine ⟨?_, ?_, ?_, ?_, ?_, ?_, ?_, ?_, ?_, ?_⟩
    · decide +kernel
    · decide +kernel
    · decide +kernel
    · decide +kernel
    · decide +kernel
    · decide +kernel
    · decide +kernel
    · decide +kernel
    · decide +kernel
    · decide +kernel
  · try dsimp only
    refine ⟨?_, ?_, ?_, ?_, ?_, ?_, ?_, ?_, ?_, ?_, ?_⟩
    · decide +kernel
    · decide +kernel
    · decide +kernel
    · decide +kernel
    · decide +kernel
    · decide +kernel
    · decide +kernel
    · decide +kernel
    · decide +kernel
    · decide +kernel
    · decide +kernel
  · try dsimp only
    refine ⟨?_, ?_, ?_, ?_, ?_, ?_, ?_, ?_, ?_, ?_⟩
    · decide +kernel
    · decide +kernel
    · decide +kernel
    · decide +kernel
    · decide +kernel
    · decide +kernel
    · decide +kernel
    · decide +kernel
    · decide +kernel
    · decide +kernel
  · try dsimp only
    refine ⟨?_, ?_, ?_, ?_, ?_, ?_, ?_, ?_, ?_⟩
    · decide +kernel
    · decide +kernel
    · decide +kernel
    · decide +kernel
    · decide +kernel
    · decide +kernel
    · decide +kernel
    · decide +kernel
    · decide +kernel
  · try dsimp only
    refine ⟨?_, ?_, ?_⟩
    · decide +kernel
    · decide +kernel
    · decide +kernel
  · try dsimp only
    refine ⟨?_, ?_, ?_⟩
    · decide +kernel
    · decide +kernel
    · decide +kernel
  · try dsimp only
    refine ⟨?_, ?_⟩
    · decide +kernel
    · decide +kernel
  · try dsimp only
    decide +kernel
  · try dsimp only
    refine ⟨?_, ?_, ?_⟩
    · decide +kernel
    · decide +kernel
    · decide +kernel
  · try dsimp only
    refine ⟨?_, ?_, ?_, ?_⟩
    · decide +kernel
    · decide +kernel
    · decide +kernel
    · decide +kernel
  · try dsimp only
    decide +kernel
  · try dsimp only
    decide +kernel
  · try dsimp only
    refine ⟨?_, ?_, ?_⟩
    · decide +kernel
    · decide +kernel
    · decide +kernel
  · try dsimp only
    refine ⟨?_, ?_, ?_⟩
    · decide +kernel
    · decide +kernel
    · decide +kernel
  · try dsimp only
    refine ⟨?_, ?_⟩
    · decide +kernel
    · decide +kernel

/-- What MemoryAccess asks of a state and of operands is met, case by case. -/
theorem witness_MemoryAccess :
    (let a0 : Access := ⟨⟨0x440, 0, false⟩, 504, 9, true, 0⟩;
     let s : State := stOf (Dev.reset.setRegN (R.SCC_CFG.at 0) 0);
     (s.d.sysHalt = false ∨ a0.m.mid = 0x4C0) ∧ burstOk a0 = false) ∧
    (let a0 : Access := ⟨⟨0x440, 0, false⟩, 504, 8, true, 0⟩;
     let s : State := stOf ({ Dev.reset with fences := nset false [] 0x440 true });
     (s.d.sysHalt = false ∨ a0.m.mid = 0x4C0) ∧
     let a := s.d.issued a0;
     burstOk a0 = true ∧ s.d.mustHold a = true) ∧
    (let a0 : Access := ⟨⟨0x440, 0, false⟩, 0xFFFFFFFFFFF8, 8, true, 0⟩;
     let s : State := stOf (Dev.reset.setRegN (R.SCC_CFG.at 0) 0);
     (s.d.sysHalt = false ∨ a0.m.mid = 0x4C0) ∧
     let a := s.d.issued a0;
     burstOk a0 = true ∧ s.d.mustHold a = false ∧ isHbm a0.addr = false) ∧
    (let a0 : Access := ⟨⟨0x440, 0, false⟩, 504, 8, true, 0⟩;
     let s : State := stOf (Dev.reset.setFld F.PWR_DOM_CUR 2 0 17);
     (s.d.sysHalt = false ∨ a0.m.mid = 0x4C0) ∧
     let a := s.d.issued a0;
     burstOk a0 = true ∧ s.d.mustHold a = false ∧
     let q := homeOf a0.addr;
     let st := 17 + stackOf a0.addr;
     isHbm a0.addr = true ∧ (s.d.routeOk (s.d.midQuarter a0.m.mid) q = false ∨ s.d.domCur q st = 2)) ∧
    (let a0 : Access := ⟨⟨0x500, 5, false⟩, 504, 8, true, 0⟩;
     let s : State := stOf (Dev.reset.setRegN (R.SCC_CFG.at 0) 0);
     (s.d.sysHalt = false ∨ a0.m.mid = 0x4C0) ∧
     let a := s.d.issued a0;
     burstOk a0 = true ∧ s.d.mustHold a = false ∧
     let q := homeOf a0.addr;
     let st := 17 + stackOf a0.addr;
     isHbm a0.addr = true ∧ s.d.routeOk (s.d.midQuarter a0.m.mid) q = true ∧ s.d.domCur q st ≠ 2 ∧
     let w := (s.d.wakeDom q 16).wakeDom q st;
     w.winOk a.m.oid a0.addr a0.write = false) ∧
    (let a0 : Access := ⟨⟨0x440, 0, false⟩, 504, 8, true, 0⟩;
     let s : State := stOf (Dev.reset.setRegN (R.SCC_CFG.at 0) 0);
     (s.d.sysHalt = false ∨ a0.m.mid = 0x4C0) ∧
     let a := s.d.issued a0;
     burstOk a0 = true ∧ s.d.mustHold a = false ∧
     let q := homeOf a0.addr;
     let st := 17 + stackOf a0.addr;
     isHbm a0.addr = true ∧ s.d.routeOk (s.d.midQuarter a0.m.mid) q = true ∧ s.d.domCur q st ≠ 2 ∧
     let w := (s.d.wakeDom q 16).wakeDom q st;
     w.winOk a.m.oid a0.addr a0.write = true ∧ a0.write = true) ∧
    (let a0 : Access := ⟨⟨0x440, 0, false⟩, 504, 8, false, 0⟩;
     let noalloc : Bool := true;
     let e : HbmErr := .none;
     let s : State := stOf (Dev.reset.setRegN (R.SCC_CFG.at 0) 0);
     (s.d.sysHalt = false ∨ a0.m.mid = 0x4C0) ∧
     let a := s.d.issued a0;
     burstOk a0 = true ∧ s.d.mustHold a = false ∧
     let q := homeOf a0.addr;
     let st := 17 + stackOf a0.addr;
     isHbm a0.addr = true ∧ s.d.routeOk (s.d.midQuarter a0.m.mid) q = true ∧ s.d.domCur q st ≠ 2 ∧
     let w := (s.d.wakeDom q 16).wakeDom q st;
     w.winOk a.m.oid a0.addr a0.write = true ∧
     let r := w.sccPass a.m.oid a0.addr a0.size a0.write noalloc e;
     let missed := r.2.contains (a0.addr / 256);
     let d1 := if missed = true ∧ e = .ce then r.1.bump (R.HBM_CE_CNT.at q (stackOf a0.addr)) else if missed = true ∧ e = .ue then
       r.1.poisonUnits a0.addr 1 else r.1;
     let bad := (unitsOf a0.addr a0.size).filter (fun u => d1.unitBad u);
     a0.write = false ∧ bad = []) ∧
    (let a0 : Access := ⟨⟨0x440, 0, false⟩, 504, 8, false, 0⟩;
     let noalloc : Bool := true;
     let e : HbmErr := .ue;
     let s : State := stOf (Dev.reset.setRegN (R.SCC_CFG.at 0) 0);
     (s.d.sysHalt = false ∨ a0.m.mid = 0x4C0) ∧
     let a := s.d.issued a0;
     burstOk a0 = true ∧ s.d.mustHold a = false ∧
     let q := homeOf a0.addr;
     let st := 17 + stackOf a0.addr;
     isHbm a0.addr = true ∧ s.d.routeOk (s.d.midQuarter a0.m.mid) q = true ∧ s.d.domCur q st ≠ 2 ∧
     let w := (s.d.wakeDom q 16).wakeDom q st;
     w.winOk a.m.oid a0.addr a0.write = true ∧
     let r := w.sccPass a.m.oid a0.addr a0.size a0.write noalloc e;
     let missed := r.2.contains (a0.addr / 256);
     let d1 := if missed = true ∧ e = .ce then r.1.bump (R.HBM_CE_CNT.at q (stackOf a0.addr)) else if missed = true ∧ e = .ue then
       r.1.poisonUnits a0.addr 1 else r.1;
     let bad := (unitsOf a0.addr a0.size).filter (fun u => d1.unitBad u);
     a0.write = false ∧ bad ≠ []) ∧
    (let a0 : Access := ⟨⟨0x470, 0, false⟩, 0xE000000000 + 0x1FFFFF8, 8, true, 0⟩;
     let s : State := stOf ({ Dev.reset with fences := nset false [] 0x470 true });
     (s.d.sysHalt = false ∨ a0.m.mid = 0x4C0) ∧ burstOk a0 = true ∧ isBank a0.addr = true ∧
     let a := s.d.issued a0;
     s.d.mustHold a = true) ∧
    (let a0 : Access := ⟨⟨0x440, 0, false⟩, 0xE000000000 + 0x1FFFFF8, 8, true, 0⟩;
     let s : State := stOf Dev.reset;
     (s.d.sysHalt = false ∨ a0.m.mid = 0x4C0) ∧ burstOk a0 = true ∧ isBank a0.addr = true ∧
     let a := s.d.issued a0;
     let n := bankOf a0.addr;
     s.d.mustHold a = false ∧ s.d.routeOk (s.d.midQuarter a0.m.mid) (n / 16) = false) ∧
    (let a0 : Access := ⟨⟨0x518, 5, false⟩, 0xE000000000 + 0x1FFFFF8, 8, true, 0⟩;
     let p0 : List (Nat × Nat) := [];
     let s : State := stOf Dev.reset;
     (s.d.sysHalt = false ∨ a0.m.mid = 0x4C0) ∧ burstOk a0 = true ∧ isBank a0.addr = true ∧
     let a := s.d.issued a0;
     let n := bankOf a0.addr;
     s.d.mustHold a = false ∧ s.d.routeOk (s.d.midQuarter a0.m.mid) (n / 16) = true ∧
     let w := (s.d.wakeDom (n / 16) 16).bnkPort0 n p0;
     (w.bnkMolting n = true ∨ w.bnkAccepts n a = false)) ∧
    (let a0 : Access := ⟨⟨0x470, 0, false⟩, 0xE000000000 + 0x1FFFFF8, 8, false, 0⟩;
     let p0 : List (Nat × Nat) := [];
     let e : HbmErr := .none;
     let s : State := stOf Dev.reset;
     (s.d.sysHalt = false ∨ a0.m.mid = 0x4C0) ∧ burstOk a0 = true ∧ isBank a0.addr = true ∧
     let a := s.d.issued a0;
     let n := bankOf a0.addr;
     s.d.mustHold a = false ∧ s.d.routeOk (s.d.midQuarter a0.m.mid) (n / 16) = true ∧
     let w := (s.d.wakeDom (n / 16) 16).bnkPort0 n p0;
     w.bnkMolting n = false ∧ w.bnkAccepts n a = true ∧ a0.write = false ∧ e = .none ∧ (∀ x, x ∈ wordsTouched a0.addr a0.size → w.bnkBad x =
     false)) ∧
    (let a0 : Access := ⟨⟨0x470, 0, false⟩, 0xE000000000 + 0x1FFFFF8, 8, false, 0⟩;
     let p0 : List (Nat × Nat) := [];
     let e : HbmErr := .none;
     let x : Nat := 0xE000000000 + 0x1FFFFF8;
     let r : List Nat := [];
     let s : State := stOf ({ Dev.reset with ecc := nset .ok [] (0xE000000000 + 0x1FFFFF8) (.poison 3) });
     (s.d.sysHalt = false ∨ a0.m.mid = 0x4C0) ∧ burstOk a0 = true ∧ isBank a0.addr = true ∧
     let a := s.d.issued a0;
     let n := bankOf a0.addr;
     s.d.mustHold a = false ∧ s.d.routeOk (s.d.midQuarter a0.m.mid) (n / 16) = true ∧
     let w := (s.d.wakeDom (n / 16) 16).bnkPort0 n p0;
     w.bnkMolting n = false ∧ w.bnkAccepts n a = true ∧ a0.write = false ∧ e = .none ∧ (wordsTouched a0.addr a0.size).filter (fun y =>
     w.bnkBad y) = x :: r) ∧
    (let a0 : Access := ⟨⟨0x470, 0, false⟩, 0xE000000000 + 0x1FFFFF8, 8, true, 0⟩;
     let p0 : List (Nat × Nat) := [];
     let s : State := stOf Dev.reset;
     (s.d.sysHalt = false ∨ a0.m.mid = 0x4C0) ∧ burstOk a0 = true ∧ isBank a0.addr = true ∧
     let a := s.d.issued a0;
     let n := bankOf a0.addr;
     s.d.mustHold a = false ∧ s.d.routeOk (s.d.midQuarter a0.m.mid) (n / 16) = true ∧
     let w := (s.d.wakeDom (n / 16) 16).bnkPort0 n p0;
     w.bnkMolting n = false ∧ w.bnkAccepts n a = true ∧ a0.write = true ∧ a0.addr % 8 = 0 ∧ a0.size = 8 ∧ (port0Words n p0).contains a0.addr
     = false) ∧
    (let a0 : Access := ⟨⟨0x470, 0, false⟩, 0xE000000000 + 0x1FFFFF8, 8, true, 0⟩;
     let p0 : List (Nat × Nat) := [(65535, 7)];
     let s : State := stOf Dev.reset;
     (s.d.sysHalt = false ∨ a0.m.mid = 0x4C0) ∧ burstOk a0 = true ∧ isBank a0.addr = true ∧
     let a := s.d.issued a0;
     let n := bankOf a0.addr;
     s.d.mustHold a = false ∧ s.d.routeOk (s.d.midQuarter a0.m.mid) (n / 16) = true ∧
     let w := (s.d.wakeDom (n / 16) 16).bnkPort0 n p0;
     w.bnkMolting n = false ∧ w.bnkAccepts n a = true ∧ a0.write = true ∧ a0.addr % 8 = 0 ∧ a0.size = 8 ∧ (port0Words n p0).contains a0.addr
     = true) ∧
    (let a0 : Access := ⟨⟨0x440, 0, false⟩, 504, 9, true, 0⟩;
     (burstOk a0 = false ∨ isBank a0.addr = false)) ∧
    (let n : Nat := 63;
     let w : Nat := 65535;
     let s : State := stOf ({ Dev.reset with ecc := nset .ok [] (bankBase 63 + 65535 * 8) (.found 5) });
     (nget Ecc.ok s.d.ecc (bankBase n + w * 8)).isFound = true) ∧
    (let n : Nat := 63;
     let w : Nat := 65535;
     let s : State := stOf ({ Dev.reset with ecc := nset .ok [] (bankBase 63 + 65535 * 8) (.ce 5) });
     (nget Ecc.ok s.d.ecc (bankBase n + w * 8)).isFound = false) := by
  refine ⟨?_, ?_, ?_, ?_, ?_, ?_, ?_, ?_, ?_, ?_, ?_, ?_, ?_, ?_, ?_, ?_, ?_, ?_⟩
  · try dsimp only
    refine ⟨?_, ?_⟩
    · decide +kernel
    · decide +kernel
  · try dsimp only
    refine ⟨?_, ?_, ?_⟩
    · decide +kernel
    · decide +kernel
    · decide +kernel
  · refine ⟨by decide +kernel, by decide +kernel, by decide +kernel, ?_⟩
    exact isHbm_high _ (by decide)
  · dsimp only
    simp only [homeOf_low 504 (by decide), isHbm_low 504 (by decide), stackOf_low 504 (by decide), Dev.winOk, winReg_low 504 (by decide)]
    decide +kernel
  · dsimp only
    simp only [homeOf_low 504 (by decide), isHbm_low 504 (by decide), stackOf_low 504 (by decide), Dev.winOk, winReg_low 504 (by decide)]
    decide +kernel
  · dsimp only
    simp only [homeOf_low 504 (by decide), isHbm_low 504 (by decide), stackOf_low 504 (by decide), Dev.winOk, winReg_low 504 (by decide)]
    decide +kernel
  · dsimp only
    simp only [homeOf_low 504 (by decide), isHbm_low 504 (by decide), stackOf_low 504 (by decide), Dev.winOk, winReg_low 504 (by decide)]
    rw [sccPass_off _ _ _ _ _ _ _ (by decide) (by decide +kernel)]
    decide +kernel
  · dsimp only
    simp only [homeOf_low 504 (by decide), isHbm_low 504 (by decide), stackOf_low 504 (by decide), Dev.winOk, winReg_low 504 (by decide)]
    rw [sccPass_off _ _ _ _ _ _ _ (by decide) (by decide +kernel)]
    decide +kernel
  · try dsimp only
    refine ⟨?_, ?_, ?_, ?_⟩
    · decide +kernel
    · decide +kernel
    · decide +kernel
    · decide +kernel
  · try dsimp only
    refine ⟨?_, ?_, ?_, ?_, ?_⟩
    · decide +kernel
    · decide +kernel
    · decide +kernel
    · decide +kernel
    · decide +kernel
  · try dsimp only
    refine ⟨?_, ?_, ?_, ?_, ?_, ?_⟩
    · decide +kernel
    · decide +kernel
    · decide +kernel
    · decide +kernel
    · decide +kernel
    · decide +kernel
  · try dsimp only
    refine ⟨?_, ?_, ?_, ?_, ?_, ?_, ?_, ?_, ?_, ?_⟩
    · decide +kernel
    · decide +kernel
    · decide +kernel
    · decide +kernel
    · decide +kernel
    · decide +kernel
    · decide +kernel
    · decide +kernel
    · decide +kernel
    · decide +kernel
  · try dsimp only
    refine ⟨?_, ?_, ?_, ?_, ?_, ?_, ?_, ?_, ?_, ?_⟩
    · decide +kernel
    · decide +kernel
    · decide +kernel
    · decide +kernel
    · decide +kernel
    · decide +kernel
    · decide +kernel
    · decide +kernel
    · decide +kernel
    · decide +kernel
  · try dsimp only
    refine ⟨?_, ?_, ?_, ?_, ?_, ?_, ?_, ?_, ?_, ?_, ?_⟩
    · decide +kernel
    · decide +kernel
    · decide +kernel
    · decide +kernel
    · decide +kernel
    · decide +kernel
    · decide +kernel
    · decide +kernel
    · decide +kernel
    · decide +kernel
    · decide +kernel
  · try dsimp only
    refine ⟨?_, ?_, ?_, ?_, ?_, ?_, ?_, ?_, ?_, ?_, ?_⟩
    · decide +kernel
    · decide +kernel
    · decide +kernel
    · decide +kernel
    · decide +kernel
    · decide +kernel
    · decide +kernel
    · decide +kernel
    · decide +kernel
    · decide +kernel
    · decide +kernel
  · try dsimp only
    decide +kernel
  · try dsimp only
    decide +kernel
  · try dsimp only
    decide +kernel

/-- What MemoryControl asks of a state and of operands is met, case by case. -/
theorem witness_MemoryControl :
    (let m : Mst := fw;
     let q : Nat := 3;
     let i : Nat := 12287;
     let v : Nat := 2 ^ 31 + 2047;
     let s : State := State.reset;
     m.oid = 0 ∧
     let x := R.WIN_ENT.at q i;
     let same := bitsOf v 31 31 = getBits (s.d.reg x) 31 31 ∧ bitsOf v 10 0 = getBits (s.d.reg x) 10 0;
     s.d.winEntOk q i = true ∧ ¬ same) ∧
    (let m : Mst := fw;
     let q : Nat := 3;
     let i : Nat := 12287;
     let v : Nat := 0;
     let s : State := State.reset;
     m.oid = 0 ∧
     let x := R.WIN_ENT.at q i;
     let same := bitsOf v 31 31 = getBits (s.d.reg x) 31 31 ∧ bitsOf v 10 0 = getBits (s.d.reg x) 10 0;
     s.d.winEntOk q i = true ∧ same) ∧
    (let m : Mst := fw;
     let q : Nat := 3;
     let i : Nat := 12287;
     let s : State := stOf (Dev.reset.setBit (R.WIN_ENT.at 3 12287) 30 true);
     m.oid = 0 ∧ s.d.winEntOk q i = false) ∧
    (let q : Nat := 3;
     let i : Nat := 24575;
     let v : Nat := 5;
     let r : List (Nat × Nat) := [];
     let s : State := stOf ({ Dev.reset with molts := nset [] [] 3 [(24575, 5)] });
     s.d.moltQ q = (i, v) :: r) ∧
    (let q : Nat := 0;
     let s : State := State.reset;
     s.d.moltQ q = []) ∧
    (let mid : Nat := 4095;
     let s : State := State.reset;
     s.d.sysHalt = false ∧ s.d.outstanding mid = false) ∧
    (let mid : Nat := 1088;
     let s : State := stOf ({ Dev.reset with arr := { Dev.reset.arr with tmemq := [⟨0x440, 0, true, 0, 0, 0, [0], 1, false, [], 0, 0⟩] } });
     s.d.sysHalt = false ∧ s.d.outstanding mid = true) ∧
    (let m : Mst := fw;
     let q : Nat := 3;
     let g : Nat := 63;
     let v : Nat := 768;
     let s : State := stOf (Dev.reset.setFld F.GRP_RATE_RATE 5 3 63);
     m.oid = 0 ∧
     let sum := s.d.regN (R.GRP_RSUM.at q) - s.d.fld F.GRP_RATE_RATE q g + v % 1024;
     sum ≤ 768) ∧
    (let m : Mst := fw;
     let q : Nat := 3;
     let g : Nat := 63;
     let v : Nat := 769;
     let s : State := State.reset;
     m.oid = 0 ∧
     let sum := s.d.regN (R.GRP_RSUM.at q) - s.d.fld F.GRP_RATE_RATE q g + v % 1024;
     768 < sum) ∧
    (let m : Mst := fw;
     let q : Nat := 3;
     let g : Nat := 63;
     let v : Nat := 240;
     let s : State := State.reset;
     m.oid = 0 ∧
     let sum := s.d.regN (R.NOC_WSUM.at q) - s.d.fld F.NOC_WEIGHT_W q g + v % 256;
     sum ≤ 240) ∧
    (let m : Mst := fw;
     let q : Nat := 3;
     let g : Nat := 63;
     let v : Nat := 241;
     let s : State := State.reset;
     m.oid = 0 ∧
     let sum := s.d.regN (R.NOC_WSUM.at q) - s.d.fld F.NOC_WEIGHT_W q g + v % 256;
     240 < sum) := by
  refine ⟨?_, ?_, ?_, ?_, ?_, ?_, ?_, ?_, ?_, ?_, ?_⟩
  · refine ⟨by decide +kernel, ?_, by decide +kernel⟩
    exact winEntOk_of _ _ _ (by have := winPerQuarter_ge; omega) (by decide +kernel) (by decide +kernel)
  · refine ⟨by decide +kernel, ?_, by decide +kernel⟩
    exact winEntOk_of _ _ _ (by have := winPerQuarter_ge; omega) (by decide +kernel) (by decide +kernel)
  · refine ⟨by decide +kernel, ?_⟩
    exact winEntOk_not _ _ _ (by decide +kernel)
  · try dsimp only
    decide +kernel
  · try dsimp only
    decide +kernel
  · try dsimp only
    refine ⟨?_, ?_⟩
    · decide +kernel
    · decide +kernel
  · try dsimp only
    refine ⟨?_, ?_⟩
    · decide +kernel
    · decide +kernel
  · try dsimp only
    refine ⟨?_, ?_⟩
    · decide +kernel
    · decide +kernel
  · try dsimp only
    refine ⟨?_, ?_⟩
    · decide +kernel
    · decide +kernel
  · try dsimp only
    refine ⟨?_, ?_⟩
    · decide +kernel
    · decide +kernel
  · try dsimp only
    refine ⟨?_, ?_⟩
    · decide +kernel
    · decide +kernel

/-- What DispatchCommands asks of a state and of operands is met, case by case. -/
theorem witness_DispatchCommands :
    (let m : Mst := fw;
     let q : Nat := 0;
     let t : Nat := 1;
     let s : State := stOf tcbs;
     s.d.dspGate m q t = none ∧
     let r := s.d.hbm (rdReq (sliceMid (t / 2 ^ 18)) 0 (s.d.tcbAddr t) 128) false .none;
     s.d.task t = none ∧ r.2.code = .okay ∧ r.1.tcbOk t r.2.data = true) ∧
    (let m : Mst := fw;
     let q : Nat := 3;
     let t : Nat := 3 * 2 ^ 18 + (2 ^ 18 - 1);
     let s : State := stOf (full3.setTask t (some (taskOf [])));
     s.d.dspGate m q t = none ∧ s.d.task t ≠ none) ∧
    (let m : Mst := fw;
     let q : Nat := 0;
     let t : Nat := 1;
     let s : State := stOf (tcbs.setFld F.PWR_DOM_CUR 2 0 17);
     s.d.dspGate m q t = none ∧
     let r := s.d.hbm (rdReq (sliceMid (t / 2 ^ 18)) 0 (s.d.tcbAddr t) 128) false .none;
     s.d.task t = none ∧ r.2.code ≠ .okay) ∧
    (let m : Mst := fw;
     let q : Nat := 0;
     let t : Nat := 1;
     let s : State := stOf (tcbs.setBytes 128 [2]);
     s.d.dspGate m q t = none ∧
     let r := s.d.hbm (rdReq (sliceMid (t / 2 ^ 18)) 0 (s.d.tcbAddr t) 128) false .none;
     s.d.task t = none ∧ r.2.code = .okay ∧ r.1.tcbOk t r.2.data = false) ∧
    (let m : Mst := ⟨0x500, 0, false⟩;
     let q : Nat := 3;
     let t : Nat := 3 * 2 ^ 18 + (2 ^ 18 - 1);
     let reason : Nat := 6;
     let s : State := stOf tcbs;
     s.d.dspGate m q t = some reason) ∧
    (let m : Mst := fw;
     let q : Nat := 3;
     let t : Nat := 3 * 2 ^ 18 + (2 ^ 18 - 1);
     let reason : Nat := 3;
     let s : State := stOf tcbs;
     (dspWho m q t = some reason ∨ (dspWho m q t = none ∧ s.d.sigReject t = some reason))) ∧
    (let m : Mst := fw;
     let q : Nat := 3;
     let t : Nat := 3 * 2 ^ 18 + (2 ^ 18 - 1);
     let x : Task := { taskOf [] with depcnt := 2 };
     let s : State := stOf (full3.setTask t (some x));
     dspWho m q t = none ∧ s.d.sigReject t = none ∧ s.d.task t = some x ∧ (2 ≤ x.depcnt ∨ x.st ≠ .waiting ∨ x.evwait = true)) ∧
    (let m : Mst := fw;
     let q : Nat := 3;
     let t : Nat := 3 * 2 ^ 18 + (2 ^ 18 - 1);
     let x : Task := { taskOf [] with depcnt := 1 };
     let s : State := stOf (full3.setTask t (some x));
     dspWho m q t = none ∧ s.d.sigReject t = none ∧ s.d.task t = some x ∧ x.depcnt = 1 ∧ x.st = .waiting ∧ x.evwait = false) ∧
    (let m : Mst := fw;
     let q : Nat := 3;
     let t : Nat := 3 * 2 ^ 18 + (2 ^ 18 - 1);
     let s : State := stOf full3;
     s.d.dspGate m q t = none ∧ s.d.task t = none) ∧
    (let m : Mst := fw;
     let q : Nat := 3;
     let t : Nat := 3 * 2 ^ 18 + (2 ^ 18 - 1);
     let x : Task := { taskOf [] with evwait := false };
     let s : State := stOf (full3.setTask t (some x));
     s.d.dspGate m q t = none ∧ s.d.task t = some x ∧ (x.evwait = false ∨ (x.st ≠ .waiting ∧ x.st ≠ .delayed))) ∧
    (let m : Mst := fw;
     let q : Nat := 3;
     let t : Nat := 3 * 2 ^ 18 + (2 ^ 18 - 1);
     let x : Task := { taskOf [] with evwait := true, st := .delayed, depcnt := 1 };
     let s : State := stOf (full3.setTask t (some x));
     s.d.dspGate m q t = none ∧ s.d.task t = some x ∧ x.evwait = true ∧ (x.st = .waiting ∨ x.st = .delayed) ∧ x.depcnt ≠ 0) ∧
    (let m : Mst := fw;
     let q : Nat := 3;
     let t : Nat := 3 * 2 ^ 18 + (2 ^ 18 - 1);
     let x : Task := { taskOf [] with evwait := true, depcnt := 0 };
     let s : State := stOf (full3.setTask t (some x));
     s.d.dspGate m q t = none ∧ s.d.task t = some x ∧ x.evwait = true ∧ (x.st = .waiting ∨ x.st = .delayed) ∧ x.depcnt = 0 ∧ s.d.readyRoom (t
     / 2 ^ 18) x.level = true) ∧
    (let m : Mst := fw;
     let q : Nat := 3;
     let t : Nat := 3 * 2 ^ 18 + (2 ^ 18 - 1);
     let x : Task := { taskOf [] with evwait := true };
     let s : State := stOf ({ full3.setTask t (some x) with slices := nset Slice.zero [] 3 { Slice.zero with ready := many } });
     s.d.dspGate m q t = none ∧ s.d.task t = some x ∧ x.evwait = true ∧ (x.st = .waiting ∨ x.st = .delayed) ∧ x.depcnt = 0 ∧ s.d.readyRoom (t
     / 2 ^ 18) x.level = false) ∧
    (let m : Mst := fw;
     let q : Nat := 3;
     let t : Nat := 3 * 2 ^ 18 + (2 ^ 18 - 1);
     let x : Task := { taskOf [] with node := true, st := .running, held := 255 };
     let s : State := stOf (((full3.setTask t (some x)).setReg (R.DSP_SLOT.at 3 63) (BitVec.ofNat 64 (3 * 2 ^ 18 + (2 ^ 18 - 1)))));
     s.d.dspGate m q t = none ∧ s.d.task t = some x ∧ s.d.handedOnly t x = true) ∧
    (let m : Mst := fw;
     let q : Nat := 3;
     let t : Nat := 3 * 2 ^ 18 + (2 ^ 18 - 1);
     let x : Task := { taskOf [] with st := .ready };
     let s : State := stOf (full3.setTask t (some x));
     s.d.dspGate m q t = none ∧ s.d.task t = some x ∧ s.d.handedOnly t x = false ∧ x.st ≠ .running) ∧
    (let m : Mst := fw;
     let q : Nat := 3;
     let t : Nat := 3 * 2 ^ 18 + (2 ^ 18 - 1);
     let x : Task := { taskOf [] with st := .running };
     let s : State := stOf (full3.setTask t (some x));
     s.d.dspGate m q t = none ∧ s.d.task t = some x ∧ s.d.handedOnly t x = false ∧ x.st = .running) := by
  refine ⟨?_, ?_, ?_, ?_, ?_, ?_, ?_, ?_, ?_, ?_, ?_, ?_, ?_, ?_, ?_, ?_⟩
  · dsimp only
    rw [hbm_read_low _ _ _ _ _ (by decide +kernel) (by decide +kernel) (by decide +kernel) (by decide +kernel) (by decide +kernel) (by decide +kernel) (by decide +kernel)]
    decide +kernel
  · try dsimp only
    refine ⟨?_, ?_⟩
    · decide +kernel
    · decide +kernel
  · dsimp only
    rw [hbm_off_low _ _ _ _ (by decide +kernel) (by decide +kernel)]
    decide +kernel
  · dsimp only
    rw [hbm_read_low _ _ _ _ _ (by decide +kernel) (by decide +kernel) (by decide +kernel) (by decide +kernel) (by decide +kernel) (by decide +kernel) (by decide +kernel)]
    decide +kernel
  · try dsimp only
    decide +kernel
  · try dsimp only
    decide +kernel
  · try dsimp only
    refine ⟨?_, ?_, ?_, ?_⟩
    · decide +kernel
    · decide +kernel
    · decide +kernel
    · decide +kernel
  · try dsimp only
    refine ⟨?_, ?_, ?_, ?_, ?_, ?_⟩
    · decide +kernel
    · decide +kernel
    · decide +kernel
    · decide +kernel
    · decide +kernel
    · decide +kernel
  · try dsimp only
    refine ⟨?_, ?_⟩
    · decide +kernel
    · decide +kernel
  · try dsimp only
    refine ⟨?_, ?_, ?_⟩
    · decide +kernel
    · decide +kernel
    · decide +kernel
  · try dsimp only
    refine ⟨?_, ?_, ?_, ?_, ?_⟩
    · decide +kernel
    · decide +kernel
    · decide +kernel
    · decide +kernel
    · decide +kernel
  · try dsimp only
    refine ⟨?_, ?_, ?_, ?_, ?_, ?_⟩
    · decide +kernel
    · decide +kernel
    · decide +kernel
    · decide +kernel
    · decide +kernel
    · decide +kernel
  · exact ⟨by decide +kernel, rfl, by decide +kernel, by decide +kernel, by decide +kernel, noRoom _ _ _ (congrArg Slice.ready (Laws.nget_nset_self _ _ _ _)) (by decide +kernel)⟩
  · try dsimp only
    refine ⟨?_, ?_, ?_⟩
    · decide +kernel
    · decide +kernel
    · decide +kernel
  · try dsimp only
    refine ⟨?_, ?_, ?_, ?_⟩
    · decide +kernel
    · decide +kernel
    · decide +kernel
    · decide +kernel
  · try dsimp only
    refine ⟨?_, ?_, ?_, ?_⟩
    · decide +kernel
    · decide +kernel
    · decide +kernel
    · decide +kernel

/-- What DispatchLists asks of a state and of operands is met, case by case. -/
theorem witness_DispatchLists :
    (let q : Nat := 0;
     let s : State := State.reset;
     s.d.sysHalt = false ∧ s.d.firstDue s.clk.tick q = none) ∧
    (let q : Nat := 3;
     let t : Nat := 3 * 2 ^ 18 + (2 ^ 18 - 1);
     let x : Task := { taskOf [] with st := .delayed };
     let s : State := stOf ({ Dev.reset.setTask t (some x) with slices := nset Slice.zero [] 3 { Slice.zero with delay := [t] } });
     s.d.sysHalt = false ∧ s.d.firstDue s.clk.tick q = some t ∧ s.d.task t = some x ∧ s.d.readyRoom q x.level = true) ∧
    (let q : Nat := 3;
     let t : Nat := 3 * 2 ^ 18 + (2 ^ 18 - 1);
     let x : Task := { taskOf [] with st := .delayed, placed := true };
     let s : State := stOf
       ({ Dev.reset.setTask t (some x) with slices := nset Slice.zero [] 3 { Slice.zero with delay := [t], ready := many } });
     s.d.sysHalt = false ∧ s.d.firstDue s.clk.tick q = some t ∧ s.d.task t = some x ∧ s.d.readyRoom q x.level = false ∧ x.placed = true) ∧
    (let q : Nat := 3;
     let t : Nat := 3 * 2 ^ 18 + (2 ^ 18 - 1);
     let x : Task := { taskOf [] with st := .delayed, placed := false };
     let s : State := stOf
       ({ Dev.reset.setTask t (some x) with slices := nset Slice.zero [] 3 { Slice.zero with delay := [t], ready := many } });
     s.d.sysHalt = false ∧ s.d.firstDue s.clk.tick q = some t ∧ s.d.task t = some x ∧ s.d.readyRoom q x.level = false ∧ x.placed = false) ∧
    (let q : Nat := 0;
     let s : State := State.reset;
     s.d.sysHalt = false ∧ (s.d.slice q).held = []) ∧
    (let q : Nat := 3;
     let t : Nat := 3 * 2 ^ 18 + (2 ^ 18 - 1);
     let why : Nat := 2;
     let ack : Option Nat := none;
     let x : Task := { taskOf [] with level := 31 };
     let r : List HeldOp := [];
     let s : State := stOf
       ({ Dev.reset.setTask t (some x) with slices := nset Slice.zero [] 3 { Slice.zero with held := [.place t why none] } });
     s.d.sysHalt = false ∧ (s.d.slice q).held = .place t why ack :: r ∧ s.d.task t = some x ∧ s.d.roomAfter s.clk.tick q x why = true ∧ ack =
     none) ∧
    (let q : Nat := 3;
     let t : Nat := 3 * 2 ^ 18 + (2 ^ 18 - 1);
     let why : Nat := 2;
     let ack : Option Nat := some 0x440;
     let x : Task := { taskOf [] with level := 31 };
     let r : List HeldOp := [];
     let mid : Nat := 1088;
     let s : State := stOf
       ({ Dev.reset.setTask t (some x) with slices := nset Slice.zero [] 3 { Slice.zero with held := [.place t why (some 0x440)] } });
     s.d.sysHalt = false ∧ (s.d.slice q).held = .place t why ack :: r ∧ s.d.task t = some x ∧ s.d.roomAfter s.clk.tick q x why = true ∧ ack =
     some mid) ∧
    (let q : Nat := 3;
     let t : Nat := 3 * 2 ^ 18 + (2 ^ 18 - 1);
     let why : Nat := 2;
     let ack : Option Nat := none;
     let x : Task := { taskOf [] with level := 0 };
     let r : List HeldOp := [];
     let s : State := stOf
       ({ Dev.reset.setTask t (some x) with slices := nset Slice.zero [] 3 { Slice.zero with held := [.place t why none], ready := many } });
     s.d.sysHalt = false ∧ (s.d.slice q).held = .place t why ack :: r ∧ s.d.task t = some x ∧ s.d.roomAfter s.clk.tick q x why = false) ∧
    (let q : Nat := 3;
     let t : Nat := 3 * 2 ^ 18 + (2 ^ 18 - 1);
     let st : Nat := 5;
     let r : List HeldOp := [];
     let s : State := stOf
       ({ Dev.reset.setTask t (some { taskOf [] with depcnt := 2 }) with slices := nset Slice.zero [] 3 { Slice.zero with held := [.sig t 5] } });
     s.d.sysHalt = false ∧ (s.d.slice q).held = .sig t st :: r ∧ s.d.sigBlocked s.clk.tick t = false) ∧
    (let q : Nat := 3;
     let t : Nat := 3 * 2 ^ 18 + (2 ^ 18 - 1);
     let st : Nat := 5;
     let r : List HeldOp := [];
     let s : State := stOf
       ({ Dev.reset.setTask t (some { taskOf [] with depcnt := 1 }) with slices := nset Slice.zero [] 3 { Slice.zero with held := [.sig t 5], ready := many } });
     s.d.sysHalt = false ∧ (s.d.slice q).held = .sig t st :: r ∧ s.d.sigBlocked s.clk.tick t = true) ∧
    (let q : Nat := 3;
     let t : Nat := 3 * 2 ^ 18 + (2 ^ 18 - 1);
     let st : Nat := 5;
     let res : Nat := 7;
     let r : List HeldOp := [];
     let s : State := stOf
       ({ Dev.reset.setTask t (some { taskOf [] with depcnt := 1 }) with slices := nset Slice.zero [] 3 { Slice.zero with held := [.compl t 5 7] } });
     s.d.sysHalt = false ∧ (s.d.slice q).held = .compl t st res :: r) ∧
    (let slot : Nat := 255;
     let s : State := stOf ((Dev.reset.setRegN (R.DSP_CTRL.at 3) 0));
     s.d.sysHalt = false ∧
     let en := (s.d.reg (R.DSP_CTRL.at (quarterOf (slot / 4)))).getLsbD 0;
     en = false) ∧
    (let slot : Nat := 255;
     let s : State := State.reset;
     s.d.sysHalt = false ∧
     let en := (s.d.reg (R.DSP_CTRL.at (quarterOf (slot / 4)))).getLsbD 0;
     en = true ∧ s.d.nodesFor slot = []) ∧
    (let slot : Nat := 255;
     let t : Nat := 3 * 2 ^ 18 + (2 ^ 18 - 1);
     let x : Task := { taskOf [] with node := true, slot := 255, gen := 9 };
     let r : List (Nat × Task) := [];
     let s : State := stOf (((Dev.reset).setTask t (some x)).setSlice 3 { Slice.zero with ready := [t] });
     s.d.sysHalt = false ∧
     let en := (s.d.reg (R.DSP_CTRL.at (quarterOf (slot / 4)))).getLsbD 0;
     en = true ∧ s.d.nodesFor slot = (t, x) :: r ∧
     let stale := s.d.regN (slotReg x.slot .SLOT_GEN) ≠ x.gen ∨ s.d.sweeping x.slot = true;
     stale) ∧
    (let slot : Nat := 255;
     let t : Nat := 3 * 2 ^ 18 + (2 ^ 18 - 1);
     let x : Task := { taskOf [] with node := true, slot := 255, gen := 1 };
     let r : List (Nat × Task) := [];
     let s : State := stOf (((((Dev.reset.setReg (slotReg 255 .SLOT_STAT) (BitVec.ofNat 64 stStopped)).setRegN (slotReg 255 .SLOT_GEN)
       1)).setTask t (some x)).setSlice 3 { Slice.zero with ready := [t] });
     s.d.sysHalt = false ∧
     let en := (s.d.reg (R.DSP_CTRL.at (quarterOf (slot / 4)))).getLsbD 0;
     en = true ∧ s.d.nodesFor slot = (t, x) :: r ∧
     let stale := s.d.regN (slotReg x.slot .SLOT_GEN) ≠ x.gen ∨ s.d.sweeping x.slot = true;
     let st := s.d.slotState x.slot;
     ¬ stale ∧ (st = stStopped ∨ st = stTadpole ∨ st = stUndefined)) ∧
    (let slot : Nat := 255;
     let t : Nat := 3 * 2 ^ 18 + (2 ^ 18 - 1);
     let x : Task := { taskOf [] with node := true, slot := 255, gen := 1 };
     let r : List (Nat × Task) := [];
     let mem : Nat := 255;
     let byAff : Bool := false;
     let s : State := stOf (((((Dev.reset.setReg (slotReg 255 .SLOT_STAT) (BitVec.ofNat 64 stLive)).setRegN (slotReg 255 .SLOT_GEN)
       1)).setTask t (some x)).setSlice 3 { Slice.zero with ready := [t] });
     s.d.sysHalt = false ∧
     let en := (s.d.reg (R.DSP_CTRL.at (quarterOf (slot / 4)))).getLsbD 0;
     en = true ∧ s.d.nodesFor slot = (t, x) :: r ∧
     let stale := s.d.regN (slotReg x.slot .SLOT_GEN) ≠ x.gen ∨ s.d.sweeping x.slot = true;
     let st := s.d.slotState x.slot;
     ¬ stale ∧ (st = stLive ∨ st = stPaused) ∧ s.d.taker x = some (mem, byAff)) ∧
    (let slot : Nat := 255;
     let t : Nat := 3 * 2 ^ 18 + (2 ^ 18 - 1);
     let x : Task := { taskOf [] with node := true, slot := 255, gen := 1 };
     let r : List (Nat × Task) := [];
     let s : State := stOf ((((((Dev.reset.setReg (slotReg 255 .SLOT_STAT) (BitVec.ofNat 64 stPaused)).setRegN (slotReg 255 .SLOT_GEN)
       1).setReg (R.DSP_SLOT.at 3 63) (BitVec.ofNat 64 (2 ^ 63)))).setTask t (some x)).setSlice 3 { Slice.zero with ready := [t] });
     s.d.sysHalt = false ∧
     let en := (s.d.reg (R.DSP_CTRL.at (quarterOf (slot / 4)))).getLsbD 0;
     en = true ∧ s.d.nodesFor slot = (t, x) :: r ∧
     let stale := s.d.regN (slotReg x.slot .SLOT_GEN) ≠ x.gen ∨ s.d.sweeping x.slot = true;
     let st := s.d.slotState x.slot;
     ¬ stale ∧ (st = stLive ∨ st = stPaused) ∧ s.d.taker x = none ∧ r = []) ∧
    (let slot : Nat := 255;
     let t : Nat := 3 * 2 ^ 18 + (2 ^ 18 - 1);
     let x : Task := { taskOf [] with node := true, slot := 255, gen := 1, ep := 2 };
     let t1 : Nat := 3 * 2 ^ 18;
     let x1 : Task := { taskOf [] with node := true, slot := 255, gen := 1, ep := 1 };
     let r : List (Nat × Task) := [];
     let mem : Nat := 255;
     let byAff : Bool := false;
     let s : State := stOf
       (((((({ ((Dev.reset.setReg (slotReg 255 .SLOT_STAT) (BitVec.ofNat 64 stLive)).setRegN (slotReg 255 .SLOT_GEN) 1) with loads := nset LoadRec.none [] 255 ⟨2, 0, [⟨1, 0, 0, 0, []⟩], []⟩ }).setRegN
       (R.DSP_REPL_EN.at 3 15) 1).setRegN (R.DSP_REPL.at 3 15) 255).setTask t (some x)).setTask t1 (some x1)).setSlice 3
       { Slice.zero with ready := [t, t1] });
     s.d.sysHalt = false ∧
     let en := (s.d.reg (R.DSP_CTRL.at (quarterOf (slot / 4)))).getLsbD 0;
     en = true ∧ s.d.nodesFor slot = (t, x) :: (t1, x1) :: r ∧ (∀ y, y = x ∨ y = x1 → s.d.regN (slotReg y.slot .SLOT_GEN) = y.gen ∧
     s.d.sweeping y.slot = false ∧ s.d.slotState y.slot = stLive) ∧ s.d.taker x = none ∧ s.d.taker x1 = some (mem, byAff)) ∧
    (let m : Mst := fw;
     let q : Nat := 3;
     let r : Nat := 15;
     let en : Bool := true;
     let v : Nat := 0;
     let s : State := State.reset;
     m.oid = 0 ∧
     let x := if en then R.DSP_REPL_EN.at q r else R.DSP_REPL.at q r;
     let d1 := s.d.setRegN x (if en then v % 256 else v % 2 ^ 64);
     d1.replOk q = true) ∧
    (let m : Mst := fw;
     let q : Nat := 3;
     let r : Nat := 15;
     let en : Bool := true;
     let v : Nat := 1;
     let s : State := State.reset;
     m.oid = 0 ∧
     let x := if en then R.DSP_REPL_EN.at q r else R.DSP_REPL.at q r;
     let d1 := s.d.setRegN x (if en then v % 256 else v % 2 ^ 64);
     d1.replOk q = false) := by
  refine ⟨?_, ?_, ?_, ?_, ?_, ?_, ?_, ?_, ?_, ?_, ?_, ?_, ?_, ?_, ?_, ?_, ?_, ?_, ?_, ?_⟩
  · try dsimp only
    refine ⟨?_, ?_⟩
    · decide +kernel
    · decide +kernel
  · try dsimp only
    refine ⟨?_, ?_, ?_, ?_⟩
    · decide +kernel
    · decide +kernel
    · decide +kernel
    · decide +kernel
  · exact ⟨by decide +kernel, by decide +kernel, by decide +kernel, noRoom _ _ _ (congrArg Slice.ready (Laws.nget_nset_self _ _ _ _)) (by decide +kernel), by decide +kernel⟩
  · exact ⟨by decide +kernel, by decide +kernel, by decide +kernel, noRoom _ _ _ (congrArg Slice.ready (Laws.nget_nset_self _ _ _ _)) (by decide +kernel), by decide +kernel⟩
  · try dsimp only
    refine ⟨?_, ?_⟩
    · decide +kernel
    · decide +kernel
  · try dsimp only
    refine ⟨?_, ?_, ?_, ?_, ?_⟩
    · decide +kernel
    · decide +kernel
    · decide +kernel
    · decide +kernel
    · decide +kernel
  · try dsimp only
    refine ⟨?_, ?_, ?_, ?_, ?_⟩
    · decide +kernel
    · decide +kernel
    · decide +kernel
    · decide +kernel
    · decide +kernel
  · exact ⟨by decide +kernel, congrArg Slice.held (Laws.nget_nset_self _ _ _ _), by decide +kernel, noRoomAfter _ _ _ _ (congrArg Slice.ready (Laws.nget_nset_self _ _ _ _)) (by decide +kernel)⟩
  · try dsimp only
    refine ⟨?_, ?_, ?_⟩
    · decide +kernel
    · decide +kernel
    · decide +kernel
  · exact ⟨by decide +kernel, congrArg Slice.held (Laws.nget_nset_self _ _ _ _), blocked _ _ _ { taskOf [] with depcnt := 1 } (by decide +kernel) ⟨by decide +kernel, by decide +kernel, by decide +kernel⟩ (by decide +kernel) (noRoom _ _ _ (congrArg Slice.ready (Laws.nget_nset_self _ _ _ _)) (by decide +kernel))⟩
  · try dsimp only
    refine ⟨?_, ?_⟩
    · decide +kernel
    · decide +kernel
  · try dsimp only
    refine ⟨?_, ?_⟩
    · decide +kernel
    · decide +kernel
  · try dsimp only
    refine ⟨?_, ?_, ?_⟩
    · decide +kernel
    · decide +kernel
    · decide +kernel
  · try dsimp only
    refine ⟨?_, ?_, ?_, ?_⟩
    · decide +kernel
    · decide +kernel
    · decide +kernel
    · decide +kernel
  · try dsimp only
    refine ⟨?_, ?_, ?_, ?_, ?_⟩
    · decide +kernel
    · decide +kernel
    · decide +kernel
    · decide +kernel
    · decide +kernel
  · try dsimp only
    refine ⟨?_, ?_, ?_, ?_, ?_, ?_⟩
    · decide +kernel
    · decide +kernel
    · decide +kernel
    · decide +kernel
    · decide +kernel
    · decide +kernel
  · try dsimp only
    refine ⟨?_, ?_, ?_, ?_, ?_, ?_, ?_⟩
    · decide +kernel
    · decide +kernel
    · decide +kernel
    · decide +kernel
    · decide +kernel
    · decide +kernel
    · decide +kernel
  · exact ⟨by decide +kernel, by decide +kernel, by decide +kernel, (by rintro y (rfl | rfl) <;> decide +kernel), by decide +kernel, by decide +kernel⟩
  · try dsimp only
    refine ⟨?_, ?_⟩
    · decide +kernel
    · decide +kernel
  · try dsimp only
    refine ⟨?_, ?_⟩
    · decide +kernel
    · decide +kernel

/-- What SubmitWaits asks of a state and of operands is met, case by case. -/
theorem witness_SubmitWaits :
    let m : Mst := fw;
    let q : Nat := 0;
    let t : Nat := 1;
    let s : State := stOf (tcbs.setBytes (128 + 6) [2]);
    s.d.dspGate m q t = none ∧ s.d.task t = none ∧
    let r := s.d.hbm (rdReq (sliceMid (t / 2 ^ 18)) 0 (s.d.tcbAddr t) 128) false .none;
    r.2.code = .okay ∧ r.1.tcbOk t r.2.data = true ∧ (taskOf r.2.data).depcnt ≠ 0 := by
  dsimp only
  rw [hbm_read_low _ _ _ _ _ (by decide +kernel) (by decide +kernel) (by decide +kernel) (by decide +kernel) (by decide +kernel) (by decide +kernel) (by decide +kernel)]
  decide +kernel

/-- What EventSources asks of a state and of operands is met, case by case. -/
theorem witness_EventSources :
    (let m : Mst := fw;
     let q : Nat := 3;
     let c : Nat := 15;
     let src : Nat := 1104;
     let s : State := stOf ((Dev.reset.setReg (R.EVT_ROUTE.at 3 0x450) (BitVec.ofNat 64 (2 ^ 62 + 15))).setPend 3 0x450 true);
     m.oid = 0 ∧ s.d.best q (s.d.forCore (q * 16 + c)) = some src) ∧
    (let m : Mst := fw;
     let q : Nat := 3;
     let c : Nat := 15;
     let s : State := State.reset;
     m.oid = 0 ∧ s.d.best q (s.d.forCore (q * 16 + c)) = none) ∧
    (let m : Mst := fw;
     let q : Nat := 3;
     let w : Nat := 7;
     m.oid = 0 ∧ q < 4 ∧ w < 8) ∧
    (let m : Mst := fw;
     let q : Nat := 3;
     let src : Nat := 1104;
     let v : Nat := 2 ^ 62 + 15;
     m.oid = 0 ∧ sourceExists q src = true ∧ routeValid src v = true) ∧
    (let m : Mst := fw;
     let q : Nat := 3;
     let src : Nat := 1104;
     let v : Nat := 2 ^ 62 + 16;
     m.oid = 0 ∧ sourceExists q src = true ∧ routeValid src v = false) ∧
    (let m : Mst := fw;
     let q : Nat := 3;
     let src : Nat := 5;
     m.oid = 0 ∧ sourceExists q src = false) := by
  refine ⟨?_, ?_, ?_, ?_, ?_, ?_⟩
  · try dsimp only
    refine ⟨?_, ?_⟩
    · decide +kernel
    · decide +kernel
  · try dsimp only
    refine ⟨?_, ?_⟩
    · decide +kernel
    · decide +kernel
  · try dsimp only
    refine ⟨?_, ?_, ?_⟩
    · decide +kernel
    · decide +kernel
    · decide +kernel
  · try dsimp only
    refine ⟨?_, ?_, ?_⟩
    · decide +kernel
    · decide +kernel
    · decide +kernel
  · try dsimp only
    refine ⟨?_, ?_, ?_⟩
    · decide +kernel
    · decide +kernel
    · decide +kernel
  · try dsimp only
    refine ⟨?_, ?_⟩
    · decide +kernel
    · decide +kernel

/-- What TimersThresholds asks of a state and of operands is met, case by case. -/
theorem witness_TimersThresholds :
    (let q : Nat := 3;
     let i : Nat := 31;
     let s : State := stOf (Dev.reset.setRegN (R.EVT_TMR_CTRL.at 3 31) 1);
     let on := (s.d.reg (R.EVT_TMR_CTRL.at q i)).getLsbD 0;
     let later := inFuture s.clk.tick (s.d.regN (R.EVT_TMR_NEXT.at q i));
     on = true ∧ later = false ∧ nget 0 s.d.timerAt (q * 32 + i) ≠ s.clk.tick + 1 ∧ (s.d.reg (R.EVT_TMR_CTRL.at q i)).getLsbD 1 = false) ∧
    (let q : Nat := 3;
     let i : Nat := 31;
     let s : State := stOf (Dev.reset.setRegN (R.EVT_TMR_CTRL.at 3 31) 3);
     let on := (s.d.reg (R.EVT_TMR_CTRL.at q i)).getLsbD 0;
     let later := inFuture s.clk.tick (s.d.regN (R.EVT_TMR_NEXT.at q i));
     on = true ∧ later = false ∧ nget 0 s.d.timerAt (q * 32 + i) ≠ s.clk.tick + 1 ∧ (s.d.reg (R.EVT_TMR_CTRL.at q i)).getLsbD 1 = true) ∧
    (let q : Nat := 3;
     let i : Nat := 31;
     let s : State := stOf ({ Dev.reset.setRegN (R.EVT_TMR_CTRL.at 3 31) 1 with timerAt := nset 0 [] 127 6 }) (⟨5, 0, 0, false, false, 0⟩);
     let on := (s.d.reg (R.EVT_TMR_CTRL.at q i)).getLsbD 0;
     let later := inFuture s.clk.tick (s.d.regN (R.EVT_TMR_NEXT.at q i));
     (on = false ∨ later = true ∨ nget 0 s.d.timerAt (q * 32 + i) = s.clk.tick + 1)) ∧
    (let m : Mst := fw;
     let q : Nat := 3;
     let i : Nat := 31;
     let v : Nat := 1;
     let s : State := State.reset;
     m.oid = 0 ∧ (bitsOf v 1 1 = 0 ∨ periodOk (s.d.regN (R.EVT_TMR_PERIOD.at q i)) = true)) ∧
    (let m : Mst := fw;
     let q : Nat := 3;
     let i : Nat := 31;
     let v : Nat := 2;
     let s : State := State.reset;
     m.oid = 0 ∧ bitsOf v 1 1 = 1 ∧ periodOk (s.d.regN (R.EVT_TMR_PERIOD.at q i)) = false) ∧
    (let m : Mst := fw;
     let q : Nat := 3;
     let i : Nat := 31;
     let v : Nat := 2 ^ 31;
     let s : State := State.reset;
     m.oid = 0 ∧ ((s.d.reg (R.EVT_TMR_CTRL.at q i)).getLsbD 1 = false ∨ periodOk (v % 2 ^ 32) = true)) ∧
    (let m : Mst := fw;
     let q : Nat := 3;
     let i : Nat := 31;
     let v : Nat := 2 ^ 31;
     let s : State := stOf (Dev.reset.setRegN (R.EVT_TMR_CTRL.at 3 31) 2);
     m.oid = 0 ∧ (s.d.reg (R.EVT_TMR_CTRL.at q i)).getLsbD 1 = true ∧ periodOk (v % 2 ^ 32) = false) ∧
    (let m : Mst := fw;
     let w : WmName := .ready;
     let q : Nat := 3;
     let i : Nat := 0;
     let j : Nat := 0;
     let v : Nat := 2 ^ 32 - 1;
     let s : State := State.reset;
     m.oid = 0 ∧
     let p := wmOf w i;
     s.d.regN (p.1.lo.at q i j) < v % 2 ^ 32) ∧
    (let m : Mst := fw;
     let w : WmName := .ready;
     let q : Nat := 3;
     let i : Nat := 0;
     let j : Nat := 0;
     let v : Nat := 0;
     let s : State := stOf (Dev.reset.setRegN ((wmOf .ready 0).1.hi.at 3) 1);
     m.oid = 0 ∧
     let p := wmOf w i;
     v % 2 ^ 32 < s.d.regN (p.1.hi.at q i j)) ∧
    (let m : Mst := fw;
     let w : WmName := .ready;
     let q : Nat := 3;
     let i : Nat := 0;
     let j : Nat := 0;
     let v : Nat := 0;
     let s : State := State.reset;
     m.oid = 0 ∧
     let p := wmOf w i;
     v % 2 ^ 32 ≤ s.d.regN (p.1.lo.at q i j)) ∧
    (let m : Mst := fw;
     let w : WmName := .ready;
     let q : Nat := 3;
     let i : Nat := 0;
     let j : Nat := 0;
     let v : Nat := 2 ^ 32 - 1;
     let s : State := State.reset;
     m.oid = 0 ∧
     let p := wmOf w i;
     s.d.regN (p.1.hi.at q i j) ≤ v % 2 ^ 32) := by
  refine ⟨?_, ?_, ?_, ?_, ?_, ?_, ?_, ?_, ?_, ?_, ?_⟩
  · try dsimp only
    refine ⟨?_, ?_, ?_, ?_⟩
    · decide +kernel
    · decide +kernel
    · decide +kernel
    · decide +kernel
  · try dsimp only
    refine ⟨?_, ?_, ?_, ?_⟩
    · decide +kernel
    · decide +kernel
    · decide +kernel
    · decide +kernel
  · try dsimp only
    decide +kernel
  · try dsimp only
    refine ⟨?_, ?_⟩
    · decide +kernel
    · decide +kernel
  · try dsimp only
    refine ⟨?_, ?_, ?_⟩
    · decide +kernel
    · decide +kernel
    · decide +kernel
  · try dsimp only
    refine ⟨?_, ?_⟩
    · decide +kernel
    · decide +kernel
  · try dsimp only
    refine ⟨?_, ?_, ?_⟩
    · decide +kernel
    · decide +kernel
    · decide +kernel
  · try dsimp only
    refine ⟨?_, ?_⟩
    · decide +kernel
    · decide +kernel
  · try dsimp only
    refine ⟨?_, ?_⟩
    · decide +kernel
    · decide +kernel
  · try dsimp only
    refine ⟨?_, ?_⟩
    · decide +kernel
    · decide +kernel
  · try dsimp only
    refine ⟨?_, ?_⟩
    · decide +kernel
    · decide +kernel

/-- What Mailboxes asks of a state and of operands is met, case by case. -/
theorem witness_Mailboxes :
    (let m : Mst := fw;
     let q : Nat := 3;
     let ch : Nat := 255;
     let s : State := State.reset;
     m.oid = 0 ∧ ch < 256 ∧ s.d.mbxLocked q ch = false) ∧
    (let m : Mst := fw;
     let q : Nat := 3;
     let ch : Nat := 255;
     let s : State := stOf (Dev.reset.setRegN (mbxLock 3 255) (2 ^ 63 + 0x4C0 * 2 ^ 48 + 0));
     m.oid = 0 ∧ ch < 256 ∧ s.d.mbxLocked q ch = true) ∧
    (let m : Mst := fw;
     let q : Nat := 3;
     let i : Nat := 263;
     let s : State := State.reset;
     m.oid = 0 ∧ s.d.mbxLocked q (256 + i) = false) ∧
    (let m : Mst := fw;
     let q : Nat := 3;
     let i : Nat := 263;
     let s : State := stOf (Dev.reset.setRegN (mbxLock 3 519) (2 ^ 63 + 0x4C0 * 2 ^ 48 + 0));
     m.oid = 0 ∧ s.d.mbxLocked q (256 + i) = true) ∧
    (let m : Mst := fw;
     let q : Nat := 3;
     let ch : Nat := 255;
     let s : State := stOf (Dev.reset.setRegN (mbxLock 3 255) (2 ^ 63 + 0x4C0 * 2 ^ 48 + 0));
     (m.oid = 0 ∨ 256 ≤ ch) ∧ s.d.mbxCompat q ch = false ∧ s.d.mbxSender m q ch = true) ∧
    (let m : Mst := fw;
     let q : Nat := 3;
     let ch : Nat := 255;
     let s : State := stOf (Dev.reset.setRegN (mbxLock 3 255) (2 ^ 62 + 2 ^ 63 + 0x4C0 * 2 ^ 48 + 0));
     (m.oid = 0 ∨ 256 ≤ ch) ∧ s.d.mbxCompat q ch = true) ∧
    (let m : Mst := fw;
     let q : Nat := 3;
     let ch : Nat := 255;
     let s : State := State.reset;
     (m.oid = 0 ∨ 256 ≤ ch) ∧ s.d.mbxCompat q ch = false ∧ s.d.mbxSender m q ch = false) ∧
    (let m : Mst := fw;
     let q : Nat := 3;
     let ch : Nat := 255;
     let s : State := stOf (Dev.reset.setRegN (mbxLock 3 255) (2 ^ 63 + 0x4C0 * 2 ^ 48 + 0));
     ch < 256 ∧ m.oid = 0 ∧ s.d.mbxCompat q ch = false ∧ s.d.mbxSender m q ch = true ∧
     let st := s.d.recvState (s.d.mbxRecv q ch);
     st = .awake ∧ (s.d.notices q ch).length < 8) ∧
    (let m : Mst := fw;
     let q : Nat := 3;
     let ch : Nat := 255;
     let s : State := stOf ((Dev.reset.setRegN (mbxLock 3 255) (2 ^ 63 + 0x470 * 2 ^ 48 + 0)).setFld F.PWR_DOM_CUR 1 3 16);
     ch < 256 ∧ m.oid = 0 ∧ s.d.mbxCompat q ch = false ∧ s.d.mbxSender m q ch = true ∧
     let st := s.d.recvState (s.d.mbxRecv q ch);
     st = .asleep ∧ (s.d.notices q ch).length < 8) ∧
    (let m : Mst := fw;
     let q : Nat := 3;
     let ch : Nat := 255;
     let s : State := stOf
       ({ Dev.reset.setRegN (mbxLock 3 255) (2 ^ 63 + 0x4C0 * 2 ^ 48 + 0) with mail := nset [] [] (3 * 1024 + 255) (List.replicate 8 ⟨0, 0, 0⟩) });
     ch < 256 ∧ m.oid = 0 ∧ s.d.mbxCompat q ch = false ∧ s.d.mbxSender m q ch = true ∧
     let st := s.d.recvState (s.d.mbxRecv q ch);
     (st = .awake ∨ st = .asleep) ∧ 8 ≤ (s.d.notices q ch).length) ∧
    (let m : Mst := fw;
     let q : Nat := 3;
     let ch : Nat := 255;
     let s : State := stOf (Dev.reset.setRegN (mbxLock 3 255) (2 ^ 63 + 0x3F * 2 ^ 48 + 0));
     ch < 256 ∧ m.oid = 0 ∧ s.d.mbxCompat q ch = false ∧ s.d.mbxSender m q ch = true ∧
     let st := s.d.recvState (s.d.mbxRecv q ch);
     st = .inReset) ∧
    (let m : Mst := fw;
     let q : Nat := 3;
     let ch : Nat := 255;
     let s : State := stOf ((Dev.reset.setRegN (mbxLock 3 255) (2 ^ 63 + 0x470 * 2 ^ 48 + 0)).setFld F.PWR_DOM_CUR 2 3 16);
     ch < 256 ∧ m.oid = 0 ∧ s.d.mbxCompat q ch = false ∧ s.d.mbxSender m q ch = true ∧
     let st := s.d.recvState (s.d.mbxRecv q ch);
     st = .off) ∧
    (let m : Mst := ⟨0x500, 1055, true⟩;
     let q : Nat := 3;
     let ch : Nat := 519;
     let s : State := stOf (Dev.reset.setRegN (mbxLock 3 519) (2 ^ 63 + 0x4C0 * 2 ^ 48 + 0));
     256 ≤ ch ∧ s.d.mbxCompat q ch = false ∧ s.d.mbxSender m q ch = true ∧ (nget Fn.zero s.d.fns m.oid).d3 = false ∧
     let st := s.d.recvState (s.d.mbxRecv q ch);
     st = .awake ∧ (s.d.notices q ch).length < 4) ∧
    (let m : Mst := ⟨0x500, 1055, true⟩;
     let q : Nat := 3;
     let ch : Nat := 519;
     let s : State := stOf
       ({ Dev.reset.setRegN (mbxLock 3 519) (2 ^ 63 + 0x4C0 * 2 ^ 48 + 0) with mail := nset [] [] (3 * 1024 + 519) (List.replicate 4 ⟨0, 0, 0⟩) });
     256 ≤ ch ∧ s.d.mbxCompat q ch = false ∧ s.d.mbxSender m q ch = true ∧ (nget Fn.zero s.d.fns m.oid).d3 = false ∧
     let st := s.d.recvState (s.d.mbxRecv q ch);
     (st = .awake ∨ st = .asleep) ∧ 4 ≤ (s.d.notices q ch).length) ∧
    (let m : Mst := ⟨0x500, 1055, true⟩;
     let q : Nat := 3;
     let ch : Nat := 519;
     let s : State := stOf ((Dev.reset.setRegN (mbxLock 3 519) (2 ^ 63 + 0x470 * 2 ^ 48 + 0)).setFld F.PWR_DOM_CUR 2 3 16);
     256 ≤ ch ∧ s.d.mbxCompat q ch = false ∧ s.d.mbxSender m q ch = true ∧ (nget Fn.zero s.d.fns m.oid).d3 = false ∧
     let st := s.d.recvState (s.d.mbxRecv q ch);
     st = .off) ∧
    (let m : Mst := ⟨0x4C0, 0, false⟩;
     let q : Nat := 3;
     let ch : Nat := 255;
     let s : State := stOf (Dev.reset.setRegN (mbxLock 3 255) (2 ^ 63 + 0x4C0 * 2 ^ 48 + 5));
     m.oid = 0 ∧ s.d.mbxCompat q ch = false ∧ s.d.mbxLocked q ch = true ∧ m.mid = s.d.mbxRecv q ch) ∧
    (let m : Mst := fw;
     let q : Nat := 3;
     let ch : Nat := 255;
     let s : State := stOf (Dev.reset.setRegN (mbxLock 3 255) (2 ^ 62 + 2 ^ 63 + 0x4C0 * 2 ^ 48 + 0));
     m.oid = 0 ∧ s.d.mbxCompat q ch = true) ∧
    (let m : Mst := fw;
     let q : Nat := 3;
     let ch : Nat := 255;
     let s : State := State.reset;
     m.oid = 0 ∧ s.d.mbxCompat q ch = false ∧ (s.d.mbxLocked q ch = false ∨ m.mid ≠ s.d.mbxRecv q ch)) ∧
    (let m : Mst := fw;
     let q : Nat := 3;
     let ch : Nat := 255;
     let s : State := stOf (Dev.reset.setRegN (mbxLock 3 255) (2 ^ 62 + 2 ^ 63 + 0x4C0 * 2 ^ 48 + 0));
     ch < 256 ∧ m.oid = 0 ∧ s.d.mbxCompat q ch = true ∧ s.d.mbxSender m q ch = true ∧ s.d.recvState (s.d.mbxRecv q ch) = .awake ∧ s.d.mbxFull
     q ch = false) ∧
    (let m : Mst := fw;
     let q : Nat := 3;
     let ch : Nat := 255;
     let s : State := stOf ((Dev.reset.setRegN (mbxLock 3 255) (2 ^ 62 + 2 ^ 63 + 0x4C0 * 2 ^ 48 + 0)).setBit (mbxStat 3 255) 8 true);
     ch < 256 ∧ m.oid = 0 ∧ s.d.mbxCompat q ch = true ∧ s.d.mbxSender m q ch = true ∧ s.d.recvState (s.d.mbxRecv q ch) = .awake ∧ s.d.mbxFull
     q ch = true) ∧
    (let m : Mst := ⟨0x500, 1055, true⟩;
     let q : Nat := 3;
     let ch : Nat := 519;
     let s : State := stOf (Dev.reset.setRegN (mbxLock 3 519) (2 ^ 62 + 2 ^ 63 + 0x4C0 * 2 ^ 48 + 0));
     256 ≤ ch ∧ s.d.mbxCompat q ch = true ∧ s.d.mbxSender m q ch = true ∧ (nget Fn.zero s.d.fns m.oid).d3 = false ∧ s.d.recvState
     (s.d.mbxRecv q ch) = .awake ∧ s.d.mbxFull q ch = false) ∧
    (let m : Mst := ⟨0x4C0, 0, false⟩;
     let q : Nat := 3;
     let ch : Nat := 255;
     let s : State := stOf (Dev.reset.setRegN (mbxLock 3 255) (2 ^ 62 + 2 ^ 63 + 0x4C0 * 2 ^ 48 + 0));
     m.oid = 0 ∧ s.d.mbxCompat q ch = true ∧ s.d.mbxLocked q ch = true ∧ m.mid = s.d.mbxRecv q ch) ∧
    (let m : Mst := fw;
     let q : Nat := 3;
     let ch : Nat := 255;
     let s : State := stOf (Dev.reset.setRegN (mbxLock 3 255) (2 ^ 63 + 0x4C0 * 2 ^ 48 + 0));
     m.oid = 0 ∧ s.d.mbxCompat q ch = false ∧ s.d.mbxLocked q ch = true) ∧
    (let m : Mst := fw;
     let q : Nat := 3;
     let ch : Nat := 255;
     let s : State := stOf (Dev.reset.setRegN (mbxLock 3 255) (2 ^ 62 + 2 ^ 63 + 0x4C0 * 2 ^ 48 + 0));
     m.oid = 0 ∧ s.d.mbxCompat q ch = true ∧ m.mid ≠ s.d.mbxRecv q ch) ∧
    (let q : Nat := 3;
     let ch : Nat := 255;
     let rq : Nat := 3;
     let s : State := stOf
       ({ Dev.reset.setRegN (mbxLock 3 255) (2 ^ 63 + 0x470 * 2 ^ 48 + 0) with croaks := nset false [] (3 * 1024 + 255) true });
     nget false s.d.croaks (q * 1024 + ch) = true ∧ s.d.recvQuarter (s.d.mbxRecv q ch) = some rq ∧ s.d.domCur rq 16 = 0) ∧
    (let q : Nat := 3;
     let ch : Nat := 255;
     let rq : Nat := 3;
     let s : State := stOf
       (({ Dev.reset.setRegN (mbxLock 3 255) (2 ^ 63 + 0x470 * 2 ^ 48 + 0) with croaks := nset false [] (3 * 1024 + 255) true }).setFld
       F.PWR_DOM_CUR 1 3 16);
     nget false s.d.croaks (q * 1024 + ch) = true ∧ s.d.recvQuarter (s.d.mbxRecv q ch) = some rq ∧ s.d.domCur rq 16 ≠ 0) := by
  refine ⟨?_, ?_, ?_, ?_, ?_, ?_, ?_, ?_, ?_, ?_, ?_, ?_, ?_, ?_, ?_, ?_, ?_, ?_, ?_, ?_, ?_, ?_, ?_, ?_, ?_, ?_⟩
  · try dsimp only
    refine ⟨?_, ?_, ?_⟩
    · decide +kernel
    · decide +kernel
    · decide +kernel
  · try dsimp only
    refine ⟨?_, ?_, ?_⟩
    · decide +kernel
    · decide +kernel
    · decide +kernel
  · try dsimp only
    refine ⟨?_, ?_⟩
    · decide +kernel
    · decide +kernel
  · try dsimp only
    refine ⟨?_, ?_⟩
    · decide +kernel
    · decide +kernel
  · try dsimp only
    refine ⟨?_, ?_, ?_⟩
    · decide +kernel
    · decide +kernel
    · decide +kernel
  · try dsimp only
    refine ⟨?_, ?_⟩
    · decide +kernel
    · decide +kernel
  · try dsimp only
    refine ⟨?_, ?_, ?_⟩
    · decide +kernel
    · decide +kernel
    · decide +kernel
  · try dsimp only
    refine ⟨?_, ?_, ?_, ?_, ?_, ?_⟩
    · decide +kernel
    · decide +kernel
    · decide +kernel
    · decide +kernel
    · decide +kernel
    · decide +kernel
  · try dsimp only
    refine ⟨?_, ?_, ?_, ?_, ?_, ?_⟩
    · decide +kernel
    · decide +kernel
    · decide +kernel
    · decide +kernel
    · decide +kernel
    · decide +kernel
  · try dsimp only
    refine ⟨?_, ?_, ?_, ?_, ?_, ?_⟩
    · decide +kernel
    · decide +kernel
    · decide +kernel
    · decide +kernel
    · decide +kernel
    · decide +kernel
  · try dsimp only
    refine ⟨?_, ?_, ?_, ?_, ?_⟩
    · decide +kernel
    · decide +kernel
    · decide +kernel
    · decide +kernel
    · decide +kernel
  · try dsimp only
    refine ⟨?_, ?_, ?_, ?_, ?_⟩
    · decide +kernel
    · decide +kernel
    · decide +kernel
    · decide +kernel
    · decide +kernel
  · try dsimp only
    refine ⟨?_, ?_, ?_, ?_, ?_, ?_⟩
    · decide +kernel
    · decide +kernel
    · decide +kernel
    · decide +kernel
    · decide +kernel
    · decide +kernel
  · try dsimp only
    refine ⟨?_, ?_, ?_, ?_, ?_, ?_⟩
    · decide +kernel
    · decide +kernel
    · decide +kernel
    · decide +kernel
    · decide +kernel
    · decide +kernel
  · try dsimp only
    refine ⟨?_, ?_, ?_, ?_, ?_⟩
    · decide +kernel
    · decide +kernel
    · decide +kernel
    · decide +kernel
    · decide +kernel
  · try dsimp only
    refine ⟨?_, ?_, ?_, ?_⟩
    · decide +kernel
    · decide +kernel
    · decide +kernel
    · decide +kernel
  · try dsimp only
    refine ⟨?_, ?_⟩
    · decide +kernel
    · decide +kernel
  · try dsimp only
    refine ⟨?_, ?_, ?_⟩
    · decide +kernel
    · decide +kernel
    · decide +kernel
  · try dsimp only
    refine ⟨?_, ?_, ?_, ?_, ?_, ?_⟩
    · decide +kernel
    · decide +kernel
    · decide +kernel
    · decide +kernel
    · decide +kernel
    · decide +kernel
  · try dsimp only
    refine ⟨?_, ?_, ?_, ?_, ?_, ?_⟩
    · decide +kernel
    · decide +kernel
    · decide +kernel
    · decide +kernel
    · decide +kernel
    · decide +kernel
  · try dsimp only
    refine ⟨?_, ?_, ?_, ?_, ?_, ?_⟩
    · decide +kernel
    · decide +kernel
    · decide +kernel
    · decide +kernel
    · decide +kernel
    · decide +kernel
  · try dsimp only
    refine ⟨?_, ?_, ?_, ?_⟩
    · decide +kernel
    · decide +kernel
    · decide +kernel
    · decide +kernel
  · try dsimp only
    refine ⟨?_, ?_, ?_⟩
    · decide +kernel
    · decide +kernel
    · decide +kernel
  · try dsimp only
    refine ⟨?_, ?_, ?_⟩
    · decide +kernel
    · decide +kernel
    · decide +kernel
  · try dsimp only
    refine ⟨?_, ?_, ?_⟩
    · decide +kernel
    · decide +kernel
    · decide +kernel
  · try dsimp only
    refine ⟨?_, ?_, ?_⟩
    · decide +kernel
    · decide +kernel
    · decide +kernel

/-- What CoreTraps asks of a state and of operands is met, case by case. -/
theorem witness_CoreTraps :
    (let n : Nat := 63;
     let s : State := stOf Dev.reset;
     (s.d.core n).executes = false) ∧
    (let n : Nat := 63;
     let s : State := stOf (Dev.reset.setCore 63 runs);
     (s.d.core n).executes = true ∧
     let c := s.d.core n;
     c.level = 0) ∧
    (let n : Nat := 63;
     let s : State := stOf (Dev.reset.setCore 63 { runs with level := 2 });
     (s.d.core n).executes = true ∧
     let c := s.d.core n;
     (c.level = 1 ∨ c.level = 2) ∧ s.d.ownUsable n = true) ∧
    (let n : Nat := 63;
     let s : State := stOf ((Dev.reset.setCore 63 { runs with level := 2 }).setRegN (coreReg 63 .BNK_OWNER) 5);
     (s.d.core n).executes = true ∧
     let c := s.d.core n;
     (c.level = 1 ∨ c.level = 2) ∧ s.d.ownUsable n = false) ∧
    (let n : Nat := 63;
     let s : State := stOf (Dev.reset.setCore 63 { runs with level := 3 });
     (s.d.core n).executes = true ∧
     let c := s.d.core n;
     c.level = 3) ∧
    (let n : Nat := 63;
     let a : CoreAcc := ⟨.load, 0x80000001, 8, 31, true, 0⟩;
     let cause : Nat := 4;
     let s : State := stOf (Dev.reset.setCore 63 runs);
     (s.d.core n).executes = true ∧ s.d.accBad n a.addr a.size a.kind = some cause) ∧
    (let n : Nat := 63;
     let a : CoreAcc := ⟨.load, 0x8007FFF8, 8, 31, true, 0⟩;
     let e : HbmErr := .none;
     let p : Nat := bankBase 63 + 0x7FFF8;
     let s : State := stOf (Dev.reset.setCore 63 runs);
     (s.d.core n).executes = true ∧ s.d.accBad n a.addr a.size a.kind = none ∧ coreXlat n a.addr = some p ∧ inOwn n p = true ∧
     let rd := s.d.bnkRead p a.size 0 e;
     a.kind = .load ∧ rd.2.code = .okay) ∧
    (let n : Nat := 63;
     let a : CoreAcc := ⟨.store, 0x8007FFF8, 8, 31, true, 0⟩;
     let p : Nat := bankBase 63 + 0x7FFF8;
     let s : State := stOf (Dev.reset.setCore 63 runs);
     (s.d.core n).executes = true ∧ s.d.accBad n a.addr a.size a.kind = none ∧ coreXlat n a.addr = some p ∧ inOwn n p = true ∧
     let wr := s.d.bnkWrite p (leBytes a.value a.size) 0 [];
     a.kind = .store ∧ wr.2.code = .okay) ∧
    (let n : Nat := 63;
     let a : CoreAcc := ⟨.fetch, 0x8007FFF8, 4, 31, true, 0⟩;
     let e : HbmErr := .none;
     let p : Nat := bankBase 63 + 0x7FFF8;
     let s : State := stOf (Dev.reset.setCore 63 runs);
     (s.d.core n).executes = true ∧ s.d.accBad n a.addr a.size a.kind = none ∧ coreXlat n a.addr = some p ∧ inOwn n p = true ∧
     let rd := s.d.bnkRead p a.size 0 e;
     a.kind = .fetch ∧ rd.2.code = .okay) ∧
    (let n : Nat := 63;
     let a : CoreAcc := ⟨.amo, 0x8007FFF8, 8, 31, true, 0⟩;
     let e : HbmErr := .none;
     let p : Nat := bankBase 63 + 0x7FFF8;
     let s : State := stOf (Dev.reset.setCore 63 runs);
     (s.d.core n).executes = true ∧ s.d.accBad n a.addr a.size a.kind = none ∧ coreXlat n a.addr = some p ∧ inOwn n p = true ∧
     let rd := s.d.bnkRead p a.size 0 e;
     a.kind = .amo ∧ rd.2.code = .okay) ∧
    (let n : Nat := 63;
     let a : CoreAcc := ⟨.load, 0x8007FFF8, 8, 31, true, 0⟩;
     let e : HbmErr := .none;
     let p : Nat := bankBase 63 + 0x7FFF8;
     let s : State := stOf ({ Dev.reset.setCore 63 runs with ecc := nset .ok [] (bankBase 63 + 0x7FFF8) (.poison 5) });
     (s.d.core n).executes = true ∧ s.d.accBad n a.addr a.size a.kind = none ∧ coreXlat n a.addr = some p ∧ inOwn n p = true ∧
     let rd := s.d.bnkRead p a.size 0 e;
     a.kind ≠ .store ∧ rd.2.code ≠ .okay) ∧
    (let n : Nat := 63;
     let a : CoreAcc := ⟨.store, 0x8007FFF8, 4, 31, true, 0⟩;
     let p : Nat := bankBase 63 + 0x7FFF8;
     let s : State := stOf ({ Dev.reset.setCore 63 runs with ecc := nset .ok [] (bankBase 63 + 0x7FFF8) (.poison 5) });
     (s.d.core n).executes = true ∧ s.d.accBad n a.addr a.size a.kind = none ∧ coreXlat n a.addr = some p ∧ inOwn n p = true ∧
     let wr := s.d.bnkWrite p (leBytes a.value a.size) 0 [];
     a.kind = .store ∧ wr.2.code ≠ .okay) ∧
    (let n : Nat := 63;
     let a : CoreAcc := ⟨.load, 0xFFFFFFF8, 8, 31, true, 0⟩;
     let p : Nat := 0xFFFFFFF8;
     let s : State := stOf (Dev.reset.setCore 63 runs);
     (s.d.core n).executes = true ∧ s.d.accBad n a.addr a.size a.kind = none ∧ coreXlat n a.addr = some p ∧ inOwn n p = false) ∧
    (let n : Nat := 63;
     let s : State := stOf (Dev.reset.setCore 63 runs);
     (s.d.core n).executes = true) ∧
    (let n : Nat := 63;
     let s : State := stOf (Dev.reset.setCore 63 { runsU with csr := nset none [] 0x300 (some (BitVec.ofNat 64 (2 ^ 21))) });
     (s.d.core n).executes = true ∧
     let c := s.d.core n;
     let barred := c.modeM = false ∧ (c.csrGet 0x300).getLsbD 21 = true;
     barred) ∧
    (let n : Nat := 63;
     let s : State := stOf (evt runs);
     (s.d.core n).executes = true ∧
     let c := s.d.core n;
     let barred := c.modeM = false ∧ (c.csrGet 0x300).getLsbD 21 = true;
     ¬ barred ∧ s.d.eventLine n = true) ∧
    (let n : Nat := 63;
     let s : State := stOf (Dev.reset.setCore 63 runs);
     (s.d.core n).executes = true ∧
     let c := s.d.core n;
     let barred := c.modeM = false ∧ (c.csrGet 0x300).getLsbD 21 = true;
     ¬ barred ∧ s.d.eventLine n = false) ∧
    (let n : Nat := 63;
     let w : Nat := 2 ^ 32 - 1;
     let rd : Nat := 31;
     let rs1 : Nat := 31;
     let rs2 : Nat := 31;
     let f : Nat := 7;
     let s : State := stOf (Dev.reset.setCore 63 runs);
     (s.d.core n).executes = true ∧ rd = bitsOf w 11 7 ∧ rs1 = bitsOf w 19 15 ∧ rs2 = bitsOf w 24 20 ∧ f = bitsOf w 14 12 ∧ (bitsOf w 6 0 ≠
     0x0B ∨ bitsOf w 31 25 ≠ 0 ∨ 6 ≤ f ∨ (f = 0 ∧ rs1 ≠ 0) ∨ (f = 1 ∧ rd ≠ 0) ∨ (f = 2 ∧ ¬ (rd = 0 ∧ rs1 = 0 ∧ rs2 = 0)) ∨ (f = 3 ∧ 4 ≤
     rs2) ∨ (f = 4 ∧ rd ≠ 0) ∨ (f = 5 ∧ rs2 ≠ 0))) ∧
    (let n : Nat := 63;
     let s : State := stOf (Dev.reset.setCore 63 runsU);
     (s.d.core n).executes = true ∧
     let c := s.d.core n;
     c.modeM = false) ∧
    (let n : Nat := 63;
     let s : State := stOf (Dev.reset.setCore 63 runs);
     (s.d.core n).executes = true ∧
     let c := s.d.core n;
     c.modeM = true ∧ c.level = 0) ∧
    (let n : Nat := 63;
     let s : State := stOf (Dev.reset.setCore 63 { runs with level := 1 });
     (s.d.core n).executes = true ∧
     let c := s.d.core n;
     c.modeM = true ∧ c.level = 1) ∧
    (let n : Nat := 63;
     let s : State := stOf (Dev.reset.setCore 63 { runs with level := 2 });
     (s.d.core n).executes = true ∧
     let c := s.d.core n;
     c.modeM = true ∧ c.level = 2) ∧
    (let n : Nat := 63;
     let s : State := stOf (Dev.reset.setCore 63 { runs with level := 3 });
     (s.d.core n).executes = true ∧
     let c := s.d.core n;
     c.modeM = true ∧ c.level = 3) ∧
    (let n : Nat := 63;
     let s : State := stOf ((Dev.reset.setCore 63 runs).setBit (R.DBG_EBHALT.at 3) 15 true);
     (s.d.core n).executes = true ∧ (s.d.reg (R.DBG_EBHALT.at (n / 16))).getLsbD (n % 16) = true) ∧
    (let n : Nat := 63;
     let s : State := stOf (Dev.reset.setCore 63 runs);
     (s.d.core n).executes = true ∧
     let c := s.d.core n;
     (s.d.reg (R.DBG_EBHALT.at (n / 16))).getLsbD (n % 16) = false ∧ c.level = 0) ∧
    (let w : Nat := 0x0B + 31 * 2 ^ 7 + 0 * 2 ^ 12 + 0 * 2 ^ 15 + 31 * 2 ^ 20;
     let rd : Nat := 31;
     let rs1 : Nat := 0;
     let rs2 : Nat := 31;
     bitsOf w 6 0 = 0x0B ∧ bitsOf w 31 25 = 0 ∧ rd = bitsOf w 11 7 ∧ rs1 = bitsOf w 19 15 ∧ rs2 = bitsOf w 24 20 ∧
     let f := bitsOf w 14 12;
     f = 0 ∧ rs1 = 0) ∧
    (let w : Nat := 0x0B + 0 * 2 ^ 7 + 1 * 2 ^ 12 + 31 * 2 ^ 15 + 31 * 2 ^ 20;
     let rd : Nat := 0;
     let rs1 : Nat := 31;
     let rs2 : Nat := 31;
     bitsOf w 6 0 = 0x0B ∧ bitsOf w 31 25 = 0 ∧ rd = bitsOf w 11 7 ∧ rs1 = bitsOf w 19 15 ∧ rs2 = bitsOf w 24 20 ∧
     let f := bitsOf w 14 12;
     f = 1 ∧ rd = 0) ∧
    (let w : Nat := 0x0B + 0 * 2 ^ 7 + 2 * 2 ^ 12 + 0 * 2 ^ 15 + 0 * 2 ^ 20;
     let rd : Nat := 0;
     let rs1 : Nat := 0;
     let rs2 : Nat := 0;
     bitsOf w 6 0 = 0x0B ∧ bitsOf w 31 25 = 0 ∧ rd = bitsOf w 11 7 ∧ rs1 = bitsOf w 19 15 ∧ rs2 = bitsOf w 24 20 ∧
     let f := bitsOf w 14 12;
     f = 2 ∧ rd = 0 ∧ rs1 = 0 ∧ rs2 = 0) ∧
    (let w : Nat := 0x0B + 31 * 2 ^ 7 + 3 * 2 ^ 12 + 31 * 2 ^ 15 + 0 * 2 ^ 20;
     let rd : Nat := 31;
     let rs1 : Nat := 31;
     let rs2 : Nat := 0;
     bitsOf w 6 0 = 0x0B ∧ bitsOf w 31 25 = 0 ∧ rd = bitsOf w 11 7 ∧ rs1 = bitsOf w 19 15 ∧ rs2 = bitsOf w 24 20 ∧
     let f := bitsOf w 14 12;
     f = 3 ∧ rs2 = 0) ∧
    (let w : Nat := 0x0B + 31 * 2 ^ 7 + 3 * 2 ^ 12 + 31 * 2 ^ 15 + 1 * 2 ^ 20;
     let rd : Nat := 31;
     let rs1 : Nat := 31;
     let rs2 : Nat := 1;
     bitsOf w 6 0 = 0x0B ∧ bitsOf w 31 25 = 0 ∧ rd = bitsOf w 11 7 ∧ rs1 = bitsOf w 19 15 ∧ rs2 = bitsOf w 24 20 ∧
     let f := bitsOf w 14 12;
     f = 3 ∧ rs2 = 1) ∧
    (let w : Nat := 0x0B + 31 * 2 ^ 7 + 3 * 2 ^ 12 + 31 * 2 ^ 15 + 2 * 2 ^ 20;
     let rd : Nat := 31;
     let rs1 : Nat := 31;
     let rs2 : Nat := 2;
     bitsOf w 6 0 = 0x0B ∧ bitsOf w 31 25 = 0 ∧ rd = bitsOf w 11 7 ∧ rs1 = bitsOf w 19 15 ∧ rs2 = bitsOf w 24 20 ∧
     let f := bitsOf w 14 12;
     f = 3 ∧ rs2 = 2) ∧
    (let w : Nat := 0x0B + 31 * 2 ^ 7 + 3 * 2 ^ 12 + 31 * 2 ^ 15 + 3 * 2 ^ 20;
     let rd : Nat := 31;
     let rs1 : Nat := 31;
     let rs2 : Nat := 3;
     bitsOf w 6 0 = 0x0B ∧ bitsOf w 31 25 = 0 ∧ rd = bitsOf w 11 7 ∧ rs1 = bitsOf w 19 15 ∧ rs2 = bitsOf w 24 20 ∧
     let f := bitsOf w 14 12;
     f = 3 ∧ rs2 = 3) ∧
    (let w : Nat := 0x0B + 0 * 2 ^ 7 + 4 * 2 ^ 12 + 31 * 2 ^ 15 + 31 * 2 ^ 20;
     let rd : Nat := 0;
     let rs1 : Nat := 31;
     let rs2 : Nat := 31;
     bitsOf w 6 0 = 0x0B ∧ bitsOf w 31 25 = 0 ∧ rd = bitsOf w 11 7 ∧ rs1 = bitsOf w 19 15 ∧ rs2 = bitsOf w 24 20 ∧
     let f := bitsOf w 14 12;
     f = 4 ∧ rd = 0) ∧
    (let w : Nat := 0x0B + 31 * 2 ^ 7 + 5 * 2 ^ 12 + 31 * 2 ^ 15 + 0 * 2 ^ 20;
     let rd : Nat := 31;
     let rs1 : Nat := 31;
     let rs2 : Nat := 0;
     bitsOf w 6 0 = 0x0B ∧ bitsOf w 31 25 = 0 ∧ rd = bitsOf w 11 7 ∧ rs1 = bitsOf w 19 15 ∧ rs2 = bitsOf w 24 20 ∧
     let f := bitsOf w 14 12;
     f = 5 ∧ rs2 = 0) ∧
    (let n : Nat := 63;
     let s : State := stOf Dev.reset;
     s.d.entryDue n = false) ∧
    (let n : Nat := 63;
     let l : Nat := 1;
     let sp : Nat := 0x80080000;
     let s : State := stOf (evt { runs with csr := nset none (nset none [] 0x304 (some 2048)) 0x7C1 (some 0x80080000) });
     s.d.entryDue n = true ∧
     let c := s.d.core n;
     c.entryLevel = some l ∧ sp = c.entrySp l ∧ c.spOk n sp = true) ∧
    (let n : Nat := 63;
     let l : Nat := 1;
     let s : State := stOf (evt { runs with csr := (nset none [] 0x304 (some 2048)) });
     s.d.entryDue n = true ∧
     let c := s.d.core n;
     c.entryLevel = some l ∧ c.spOk n (c.entrySp l) = false) ∧
    (let n : Nat := 63;
     let s : State := stOf (evt { runs with csr := (nset none [] 0x304 (some 2048)), level := 2 });
     s.d.entryDue n = true ∧
     let c := s.d.core n;
     c.entryLevel = none) := by
  refine ⟨?_, ?_, ?_, ?_, ?_, ?_, ?_, ?_, ?_, ?_, ?_, ?_, ?_, ?_, ?_, ?_, ?_, ?_, ?_, ?_, ?_, ?_, ?_, ?_, ?_, ?_, ?_, ?_, ?_, ?_, ?_,
    ?_, ?_, ?_, ?_, ?_, ?_, ?_⟩
  · try dsimp only
    decide +kernel
  · try dsimp only
    refine ⟨?_, ?_⟩
    · decide +kernel
    · decide +kernel
  · try dsimp only
    refine ⟨?_, ?_, ?_⟩
    · decide +kernel
    · decide +kernel
    · decide +kernel
  · try dsimp only
    refine ⟨?_, ?_, ?_⟩
    · decide +kernel
    · decide +kernel
    · decide +kernel
  · try dsimp only
    refine ⟨?_, ?_⟩
    · decide +kernel
    · decide +kernel
  · try dsimp only
    refine ⟨?_, ?_⟩
    · decide +kernel
    · decide +kernel
  · try dsimp only
    refine ⟨?_, ?_, ?_, ?_, ?_, ?_⟩
    · decide +kernel
    · decide +kernel
    · decide +kernel
    · decide +kernel
    · decide +kernel
    · decide +kernel
  · try dsimp only
    refine ⟨?_, ?_, ?_, ?_, ?_, ?_⟩
    · decide +kernel
    · decide +kernel
    · decide +kernel
    · decide +kernel
    · decide +kernel
    · decide +kernel
  · try dsimp only
    refine ⟨?_, ?_, ?_, ?_, ?_, ?_⟩
    · decide +kernel
    · decide +kernel
    · decide +kernel
    · decide +kernel
    · decide +kernel
    · decide +kernel
  · try dsimp only
    refine ⟨?_, ?_, ?_, ?_, ?_, ?_⟩
    · decide +kernel
    · decide +kernel
    · decide +kernel
    · decide +kernel
    · decide +kernel
    · decide +kernel
  · try dsimp only
    refine ⟨?_, ?_, ?_, ?_, ?_, ?_⟩
    · decide +kernel
    · decide +kernel
    · decide +kernel
    · decide +kernel
    · decide +kernel
    · decide +kernel
  · try dsimp only
    refine ⟨?_, ?_, ?_, ?_, ?_, ?_⟩
    · decide +kernel
    · decide +kernel
    · decide +kernel
    · decide +kernel
    · decide +kernel
    · decide +kernel
  · try dsimp only
    refine ⟨?_, ?_, ?_, ?_⟩
    · decide +kernel
    · decide +kernel
    · decide +kernel
    · decide +kernel
  · try dsimp only
    decide +kernel
  · try dsimp only
    refine ⟨?_, ?_⟩
    · decide +kernel
    · decide +kernel
  · try dsimp only
    refine ⟨?_, ?_, ?_⟩
    · decide +kernel
    · decide +kernel
    · decide +kernel
  · try dsimp only
    refine ⟨?_, ?_, ?_⟩
    · decide +kernel
    · decide +kernel
    · decide +kernel
  · try dsimp only
    refine ⟨?_, ?_, ?_, ?_, ?_, ?_⟩
    · decide +kernel
    · decide +kernel
    · decide +kernel
    · decide +kernel
    · decide +kernel
    · decide +kernel
  · try dsimp only
    refine ⟨?_, ?_⟩
    · decide +kernel
    · decide +kernel
  · try dsimp only
    refine ⟨?_, ?_, ?_⟩
    · decide +kernel
    · decide +kernel
    · decide +kernel
  · try dsimp only
    refine ⟨?_, ?_, ?_⟩
    · decide +kernel
    · decide +kernel
    · decide +kernel
  · try dsimp only
    refine ⟨?_, ?_, ?_⟩
    · decide +kernel
    · decide +kernel
    · decide +kernel
  · try dsimp only
    refine ⟨?_, ?_, ?_⟩
    · decide +kernel
    · decide +kernel
    · decide +kernel
  · try dsimp only
    refine ⟨?_, ?_⟩
    · decide +kernel
    · decide +kernel
  · try dsimp only
    refine ⟨?_, ?_, ?_⟩
    · decide +kernel
    · decide +kernel
    · decide +kernel
  · try dsimp only
    refine ⟨?_, ?_, ?_, ?_, ?_, ?_, ?_⟩
    · decide +kernel
    · decide +kernel
    · decide +kernel
    · decide +kernel
    · decide +kernel
    · decide +kernel
    · decide +kernel
  · try dsimp only
    refine ⟨?_, ?_, ?_, ?_, ?_, ?_, ?_⟩
    · decide +kernel
    · decide +kernel
    · decide +kernel
    · decide +kernel
    · decide +kernel
    · decide +kernel
    · decide +kernel
  · try dsimp only
    refine ⟨?_, ?_, ?_, ?_, ?_, ?_, ?_, ?_, ?_⟩
    · decide +kernel
    · decide +kernel
    · decide +kernel
    · decide +kernel
    · decide +kernel
    · decide +kernel
    · decide +kernel
    · decide +kernel
    · decide +kernel
  · try dsimp only
    refine ⟨?_, ?_, ?_, ?_, ?_, ?_, ?_⟩
    · decide +kernel
    · decide +kernel
    · decide +kernel
    · decide +kernel
    · decide +kernel
    · decide +kernel
    · decide +kernel
  · try dsimp only
    refine ⟨?_, ?_, ?_, ?_, ?_, ?_, ?_⟩
    · decide +kernel
    · decide +kernel
    · decide +kernel
    · decide +kernel
    · decide +kernel
    · decide +kernel
    · decide +kernel
  · try dsimp only
    refine ⟨?_, ?_, ?_, ?_, ?_, ?_, ?_⟩
    · decide +kernel
    · decide +kernel
    · decide +kernel
    · decide +kernel
    · decide +kernel
    · decide +kernel
    · decide +kernel
  · try dsimp only
    refine ⟨?_, ?_, ?_, ?_, ?_, ?_, ?_⟩
    · decide +kernel
    · decide +kernel
    · decide +kernel
    · decide +kernel
    · decide +kernel
    · decide +kernel
    · decide +kernel
  · try dsimp only
    refine ⟨?_, ?_, ?_, ?_, ?_, ?_, ?_⟩
    · decide +kernel
    · decide +kernel
    · decide +kernel
    · decide +kernel
    · decide +kernel
    · decide +kernel
    · decide +kernel
  · try dsimp only
    refine ⟨?_, ?_, ?_, ?_, ?_, ?_, ?_⟩
    · decide +kernel
    · decide +kernel
    · decide +kernel
    · decide +kernel
    · decide +kernel
    · decide +kernel
    · decide +kernel
  · try dsimp only
    decide +kernel
  · try dsimp only
    refine ⟨?_, ?_, ?_, ?_⟩
    · decide +kernel
    · decide +kernel
    · decide +kernel
    · decide +kernel
  · try dsimp only
    refine ⟨?_, ?_, ?_⟩
    · decide +kernel
    · decide +kernel
    · decide +kernel
  · try dsimp only
    refine ⟨?_, ?_⟩
    · decide +kernel
    · decide +kernel

/-- What CoreWindow asks of a state and of operands is met, case by case. -/
theorem witness_CoreWindow :
    (let n : Nat := 63;
     let s : State := stOf Dev.reset;
     (s.d.core n).executes = false) ∧
    (let n : Nat := 63;
     let s : State := stOf Dev.reset;
     (s.d.core n).executes = false) ∧
    (let n : Nat := 63;
     let s : State := stOf Dev.reset;
     (s.d.core n).executes = false) ∧
    (let n : Nat := 63;
     let s : State := stOf Dev.reset;
     (s.d.core n).executes = false) ∧
    (let n : Nat := 63;
     let s : State := stOf (Dev.reset.setCore 63 runs);
     (s.d.core n).executes = true ∧
     let c := s.d.core n;
     c.modeM = true) ∧
    (let n : Nat := 63;
     let i : Nat := 31;
     let s : State := stOf (Dev.reset.setCore 63 runs);
     (s.d.core n).executes = true ∧
     let c := s.d.core n;
     c.modeM = true ∧ i ≠ 0) ∧
    (let n : Nat := 63;
     let i : Nat := 0;
     let s : State := stOf (Dev.reset.setCore 63 { runs with csr := nset none [] 0x7C0 (some 7) });
     (s.d.core n).executes = true ∧
     let c := s.d.core n;
     let b := getBits (c.csrGet 0x7C0) 2 0;
     c.modeM = true ∧ i = 0 ∧ b ≠ c.cur) ∧
    (let n : Nat := 63;
     let i : Nat := 0;
     let s : State := stOf (Dev.reset.setCore 63 runs);
     (s.d.core n).executes = true ∧
     let c := s.d.core n;
     let b := getBits (c.csrGet 0x7C0) 2 0;
     c.modeM = true ∧ i = 0 ∧ b = c.cur) ∧
    (let n : Nat := 63;
     let s : State := stOf (Dev.reset.setCore 63 runsU);
     (s.d.core n).executes = true ∧
     let c := s.d.core n;
     c.modeM = false) ∧
    (let n : Nat := 63;
     let num : Nat := 0xFFF;
     let w : Option Nat := some (2 ^ 64 - 1);
     let s : State := stOf (Dev.reset.setCore 63 runs);
     (s.d.core n).executes = true ∧
     let c := s.d.core n;
     c.csrMay num w.isSome = false) ∧
    (let n : Nat := 63;
     let num : Nat := 0x7FF;
     let w : Option Nat := none;
     let s : State := stOf (Dev.reset.setCore 63 runs);
     (s.d.core n).executes = true ∧
     let c := s.d.core n;
     let plain (num : Nat) : Prop := csrFp num = false ∨ (c.level = 0 ∧ ∃ t, c.boundAt c.cur = some t ∧ c.owner = some t.task);
     c.csrMay num w.isSome = true ∧ plain num ∧ s.d.csrRead s.clk n num = none) ∧
    (let n : Nat := 63;
     let num : Nat := 0xF14;
     let v : Word := 63;
     let d1 : Dev := Dev.reset.setCore 63 runs;
     let s : State := stOf (Dev.reset.setCore 63 runs);
     (s.d.core n).executes = true ∧
     let c := s.d.core n;
     let plain (num : Nat) : Prop := csrFp num = false ∨ (c.level = 0 ∧ ∃ t, c.boundAt c.cur = some t ∧ c.owner = some t.task);
     c.csrMay num false = true ∧ plain num ∧ s.d.csrRead s.clk n num = some (v, d1)) ∧
    (let n : Nat := 63;
     let num : Nat := 0x340;
     let v : Word := 0;
     let d1 : Dev := Dev.reset.setCore 63 runs;
     let s : State := stOf (Dev.reset.setCore 63 runs);
     (s.d.core n).executes = true ∧
     let c := s.d.core n;
     let plain (num : Nat) : Prop := csrFp num = false ∨ (c.level = 0 ∧ ∃ t, c.boundAt c.cur = some t ∧ c.owner = some t.task);
     c.csrMay num true = true ∧ plain num ∧ s.d.csrRead s.clk n num = some (v, d1)) ∧
    (let n : Nat := 63;
     let v : Nat := 2 ^ 64 - 3;
     let s : State := stOf (Dev.reset.setCore 63 runs);
     (s.d.core n).executes = true ∧
     let c := s.d.core n;
     c.modeM = true ∧ c.level ≠ 1 ∧ c.level ≠ 2 ∧ v % 4 = 1 ∧ v < 2 ^ 64) ∧
    (let n : Nat := 63;
     let v : Nat := 2;
     let s : State := stOf (Dev.reset.setCore 63 runs);
     (s.d.core n).executes = true ∧
     let c := s.d.core n;
     c.modeM = true ∧
     let two := v % 4 = 2 ∧ c.level = 0 ∧ c.boundAt 5 = none;
     two ∧ v < 2 ^ 64) ∧
    (let n : Nat := 63;
     let v : Nat := 2 ^ 64 - 1;
     let s : State := stOf (Dev.reset.setCore 63 runs);
     (s.d.core n).executes = true ∧
     let c := s.d.core n;
     c.modeM = true ∧
     let two := v % 4 = 2 ∧ c.level = 0 ∧ c.boundAt 5 = none;
     (c.level = 1 ∨ c.level = 2 ∨ (v % 4 ≠ 1 ∧ ¬ two)) ∧ v < 2 ^ 64) ∧
    (let n : Nat := 63;
     let t : Bound := ⟨5, 0, 0⟩;
     let s : State := stOf (Dev.reset.setCore 63 { runs with bound := nset none [] 0 (some t), owner := some 5 });
     (s.d.core n).executes = true ∧
     let c := s.d.core n;
     c.level = 0 ∧ c.boundAt c.cur = some t ∧ c.owner = some t.task) ∧
    (let n : Nat := 63;
     let t : Bound := ⟨5, 0, 0⟩;
     let s : State := stOf (Dev.reset.setCore 63 { runs with bound := nset none [] 0 (some t) });
     (s.d.core n).executes = true ∧
     let c := s.d.core n;
     c.level = 0 ∧ c.boundAt c.cur = some t ∧ c.owner ≠ some t.task ∧ t.fp = 0) ∧
    (let n : Nat := 63;
     let t : Bound := ⟨5, 0, 0x80000200⟩;
     let s : State := stOf (Dev.reset.setCore 63 { runs with bound := nset none [] 0 (some t) });
     (s.d.core n).executes = true ∧
     let c := s.d.core n;
     c.level = 0 ∧ c.boundAt c.cur = some t ∧ c.owner ≠ some t.task ∧ t.fp ≠ 0 ∧
     let l := s.d.fpSwap n t.task t.fp;
     l.2 = true) ∧
    (let n : Nat := 63;
     let t : Bound := ⟨5, 0, 2 ^ 49⟩;
     let s : State := stOf (Dev.reset.setCore 63 { runs with bound := nset none [] 0 (some t) });
     (s.d.core n).executes = true ∧
     let c := s.d.core n;
     c.level = 0 ∧ c.boundAt c.cur = some t ∧ c.owner ≠ some t.task ∧ t.fp ≠ 0 ∧
     let l := s.d.fpSwap n t.task t.fp;
     l.2 = false) ∧
    (let n : Nat := 63;
     let s : State := stOf (Dev.reset.setCore 63 runs);
     (s.d.core n).executes = true ∧
     let c := s.d.core n;
     (c.level ≠ 0 ∨ c.boundAt c.cur = none)) ∧
    (let n : Nat := 63;
     let s : State := stOf (Dev.reset.setCore 63 runs);
     (s.d.core n).executes = true) := by
  refine ⟨?_, ?_, ?_, ?_, ?_, ?_, ?_, ?_, ?_, ?_, ?_, ?_, ?_, ?_, ?_, ?_, ?_, ?_, ?_, ?_, ?_, ?_⟩
  · try dsimp only
    decide +kernel
  · try dsimp only
    decide +kernel
  · try dsimp only
    decide +kernel
  · try dsimp only
    decide +kernel
  · try dsimp only
    refine ⟨?_, ?_⟩
    · decide +kernel
    · decide +kernel
  · try dsimp only
    refine ⟨?_, ?_, ?_⟩
    · decide +kernel
    · decide +kernel
    · decide +kernel
  · try dsimp only
    refine ⟨?_, ?_, ?_, ?_⟩
    · decide +kernel
    · decide +kernel
    · decide +kernel
    · decide +kernel
  · try dsimp only
    refine ⟨?_, ?_, ?_, ?_⟩
    · decide +kernel
    · decide +kernel
    · decide +kernel
    · decide +kernel
  · try dsimp only
    refine ⟨?_, ?_⟩
    · decide +kernel
    · decide +kernel
  · try dsimp only
    refine ⟨?_, ?_⟩
    · decide +kernel
    · decide +kernel
  · exact ⟨by decide +kernel, by decide +kernel, Or.inl (by decide +kernel), by decide +kernel⟩
  · exact ⟨by decide +kernel, by decide +kernel, Or.inl (by decide +kernel), by decide +kernel⟩
  · exact ⟨by decide +kernel, by decide +kernel, Or.inl (by decide +kernel), by decide +kernel⟩
  · try dsimp only
    refine ⟨?_, ?_, ?_, ?_, ?_, ?_⟩
    · decide +kernel
    · decide +kernel
    · decide +kernel
    · decide +kernel
    · decide +kernel
    · decide +kernel
  · try dsimp only
    refine ⟨?_, ?_, ?_, ?_⟩
    · decide +kernel
    · decide +kernel
    · decide +kernel
    · decide +kernel
  · try dsimp only
    refine ⟨?_, ?_, ?_, ?_⟩
    · decide +kernel
    · decide +kernel
    · decide +kernel
    · decide +kernel
  · try dsimp only
    refine ⟨?_, ?_, ?_, ?_⟩
    · decide +kernel
    · decide +kernel
    · decide +kernel
    · decide +kernel
  · try dsimp only
    refine ⟨?_, ?_, ?_, ?_, ?_⟩
    · decide +kernel
    · decide +kernel
    · decide +kernel
    · decide +kernel
    · decide +kernel
  · try dsimp only
    refine ⟨?_, ?_, ?_, ?_, ?_, ?_⟩
    · decide +kernel
    · decide +kernel
    · decide +kernel
    · decide +kernel
    · decide +kernel
    · decide +kernel
  · try dsimp only
    refine ⟨?_, ?_, ?_, ?_, ?_, ?_⟩
    · decide +kernel
    · decide +kernel
    · decide +kernel
    · decide +kernel
    · decide +kernel
    · decide +kernel
  · try dsimp only
    refine ⟨?_, ?_⟩
    · decide +kernel
    · decide +kernel
  · try dsimp only
    decide +kernel

/-- What CoreThreads asks of a state and of operands is met, case by case. -/
theorem witness_CoreThreads :
    (let n : Nat := 63;
     let t : Nat := 3 * 2 ^ 18 + (2 ^ 18 - 1);
     let x : Task := { taskOf [] with st := .ready, level := 27, coreMask := 0x8000 };
     let why : Nat := 6;
     let s : State := stOf
       ({ (Dev.reset.setCore 63 { Core.zero with st := .idle, managed := true }).setTask t (some x) with slices := nset Slice.zero [] 3 { Slice.zero with ready := [t] } });
     s.d.sysHalt = false ∧
     let may := (s.d.core n).free = true ∧ (s.d.reg (R.DSP_CTRL.at (n / 16))).getLsbD 0 = true ∧ s.d.domCur (n / 16) 16 = 0;
     may ∧ s.d.pick n = some (t, x, why)) ∧
    (let n : Nat := 63;
     let s : State := State.reset;
     s.d.sysHalt = false ∧
     let may := (s.d.core n).free = true ∧ (s.d.reg (R.DSP_CTRL.at (n / 16))).getLsbD 0 = true ∧ s.d.domCur (n / 16) 16 = 0;
     (¬ may ∨ s.d.pick n = none)) ∧
    (let q : Nat := 3;
     let s : State := stOf (Dev.reset.setRegN (R.DSP_CTRL.at 3) 0);
     s.d.sysHalt = false ∧
     let en := (s.d.reg (R.DSP_CTRL.at q)).getLsbD 0;
     en = false) ∧
    (let q : Nat := 3;
     let t : Nat := 3 * 2 ^ 18 + (2 ^ 18 - 1);
     let x : Task := { taskOf [] with st := .ready, level := 31, coreMask := 0x8000 };
     let r : List (Nat × Task) := [];
     let n : Nat := 63;
     let s : State := stOf
       ({ (((Dev.reset.setCore 63 { runs with task := some 786432 }).setTask 786432 (some (taskOf [])))).setTask t (some x) with slices := nset Slice.zero [] 3 { Slice.zero with ready := [t] } });
     s.d.sysHalt = false ∧
     let en := (s.d.reg (R.DSP_CTRL.at q)).getLsbD 0;
     en = true ∧ s.d.threads q = (t, x) :: r ∧ 28 ≤ x.level ∧ (∀ m, m ∈ coresOf q → x.coreMask.testBit (m % 16) = true → (s.d.core m).free =
     false) ∧ s.d.victim q x.coreMask = some n ∧ s.d.preemptable n = true) ∧
    (let q : Nat := 3;
     let t : Nat := 3 * 2 ^ 18 + (2 ^ 18 - 1);
     let x : Task := { taskOf [] with st := .ready, level := 31, coreMask := 0x8000 };
     let n : Nat := 63;
     let s : State := stOf
       ({ (((Dev.reset.setCore 63 { runs with level := 1, task := some 786432 }).setTask 786432 (some (taskOf [])))).setTask t (some x) with slices := nset Slice.zero [] 3 { Slice.zero with ready := [t] } });
     s.d.sysHalt = false ∧
     let en := (s.d.reg (R.DSP_CTRL.at q)).getLsbD 0;
     en = true ∧ s.d.threads q = [(t, x)] ∧ s.d.victim q x.coreMask = some n ∧ s.d.preemptable n = false) ∧
    (let q : Nat := 3;
     let s : State := State.reset;
     s.d.sysHalt = false ∧ (∀ e, e ∈ s.d.threads q → e.2.level < 28)) ∧
    (let n : Nat := 63;
     let s : State := stOf (evt { runs with csr := (nset none [] 0x304 (some 2048)) });
     (s.d.core n).executes = true ∧ s.d.entryDue n = true) ∧
    (let n : Nat := 63;
     let s : State := stOf (Dev.reset.setCore 63 runs);
     (s.d.core n).executes = true ∧ s.d.entryDue n = false ∧ s.d.runner n = none) ∧
    (let n : Nat := 63;
     let t : Nat := 3 * 2 ^ 18 + (2 ^ 18 - 1);
     let x : Task := { taskOf [] with st := .running };
     let s : State := stOf
       ({ (Dev.reset.setCore 63 { runs with task := some t }).setTask t (some x) with slices := nset Slice.zero [] 3 { Slice.zero with aff := [] } });
     (s.d.core n).executes = true ∧ s.d.entryDue n = false ∧ s.d.runner n = some (t, x) ∧ s.d.readyRoom (t / 2 ^ 18) x.level = true) ∧
    (let n : Nat := 63;
     let t : Nat := 3 * 2 ^ 18 + (2 ^ 18 - 1);
     let x : Task := { taskOf [] with st := .running };
     let s : State := stOf
       ({ (Dev.reset.setCore 63 { runs with task := some t }).setTask t (some x) with slices := nset Slice.zero [] 3 { Slice.zero with ready := many } });
     (s.d.core n).executes = true ∧ s.d.entryDue n = false ∧ s.d.runner n = some (t, x) ∧ s.d.readyRoom (t / 2 ^ 18) x.level = false) ∧
    (let n : Nat := 63;
     let t : Nat := 3 * 2 ^ 18 + (2 ^ 18 - 1);
     let x : Task := { taskOf [] with st := .running };
     let s : State := stOf
       ({ (Dev.reset.setCore 63 { runs with task := some t }).setTask t (some x) with slices := nset Slice.zero [] 3 { Slice.zero with aff := [] } });
     (s.d.core n).executes = true ∧ s.d.entryDue n = false ∧ s.d.runner n = some (t, x) ∧ x.pendwake = false) ∧
    (let n : Nat := 63;
     let t : Nat := 3 * 2 ^ 18 + (2 ^ 18 - 1);
     let x : Task := { taskOf [] with st := .running, pendwake := true };
     let s : State := stOf
       ({ (Dev.reset.setCore 63 { runs with task := some t }).setTask t (some x) with slices := nset Slice.zero [] 3 { Slice.zero with aff := [] } });
     (s.d.core n).executes = true ∧ s.d.entryDue n = false ∧ s.d.runner n = some (t, x) ∧ x.pendwake = true) ∧
    (let n : Nat := 63;
     let t : Nat := 3 * 2 ^ 18 + (2 ^ 18 - 1);
     let x : Task := { taskOf [] with depcnt := 1 };
     let s : State := stOf
       ({ (Dev.reset.setCore 63 { runs with task := some t }).setTask t (some x) with slices := nset Slice.zero [] 3 { Slice.zero with aff := [] } });
     (s.d.core n).executes = true ∧ s.d.entryDue n = false ∧ s.d.runner n = some (t, x) ∧ x.depcnt ≠ 0) ∧
    (let n : Nat := 63;
     let t : Nat := 3 * 2 ^ 18 + (2 ^ 18 - 1);
     let x : Task := { taskOf [] with depcnt := 0 };
     let s : State := stOf
       ({ (Dev.reset.setCore 63 { runs with task := some t }).setTask t (some x) with slices := nset Slice.zero [] 3 { Slice.zero with aff := [] } });
     (s.d.core n).executes = true ∧ s.d.entryDue n = false ∧ s.d.runner n = some (t, x) ∧ x.depcnt = 0) ∧
    (let n : Nat := 63;
     let t : Nat := 3 * 2 ^ 18 + (2 ^ 18 - 1);
     let x : Task := { taskOf [] with st := .running };
     let r : Nat := 31;
     let s : State := stOf
       ({ (Dev.reset.setCore 63 { runs with task := some t, file := nset 0 runs.file 31 (BitVec.ofNat 64 (2 ^ 31 - 1)) }).setTask t (some x) with slices := nset Slice.zero [] 3 { Slice.zero with aff := [] } });
     (s.d.core n).executes = true ∧
     let c := s.d.core n;
     let v (r : Nat) : Nat := (c.x r).toNat;
     s.d.entryDue n = false ∧ s.d.runner n = some (t, x) ∧ v r ≠ 0 ∧ v r < 2 ^ 31 ∧ s.d.delayRoom (t / 2 ^ 18) = true) ∧
    (let n : Nat := 63;
     let t : Nat := 3 * 2 ^ 18 + (2 ^ 18 - 1);
     let x : Task := { taskOf [] with st := .running };
     let r : Nat := 31;
     let s : State := stOf
       ({ (Dev.reset.setCore 63 { runs with task := some t, file := nset 0 runs.file 31 (BitVec.ofNat 64 (2 ^ 31 - 1)) }).setTask t (some x) with slices := nset Slice.zero [] 3 { Slice.zero with delay := many } });
     (s.d.core n).executes = true ∧
     let c := s.d.core n;
     let v (r : Nat) : Nat := (c.x r).toNat;
     s.d.entryDue n = false ∧ s.d.runner n = some (t, x) ∧ v r ≠ 0 ∧ v r < 2 ^ 31 ∧ s.d.delayRoom (t / 2 ^ 18) = false) ∧
    (let n : Nat := 63;
     let t : Nat := 3 * 2 ^ 18 + (2 ^ 18 - 1);
     let x : Task := { taskOf [] with st := .running };
     let r : Nat := 31;
     let s : State := stOf
       ({ (Dev.reset.setCore 63 { runs with task := some t, file := nset 0 runs.file 31 (BitVec.ofNat 64 (2 ^ 31)) }).setTask t (some x) with slices := nset Slice.zero [] 3 { Slice.zero with aff := [] } });
     (s.d.core n).executes = true ∧
     let c := s.d.core n;
     let v (r : Nat) : Nat := (c.x r).toNat;
     s.d.entryDue n = false ∧ s.d.runner n = some (t, x) ∧ 2 ^ 31 ≤ v r) ∧
    (let n : Nat := 63;
     let t : Nat := 3 * 2 ^ 18 + (2 ^ 18 - 1);
     let x : Task := { taskOf [] with st := .running };
     let r : Nat := 31;
     let s : State := stOf
       ({ (Dev.reset.setCore 63 { runs with task := some t }).setTask t (some x) with slices := nset Slice.zero [] 3 { Slice.zero with aff := [] } });
     (s.d.core n).executes = true ∧
     let c := s.d.core n;
     let v (r : Nat) : Nat := (c.x r).toNat;
     s.d.entryDue n = false ∧ s.d.runner n = some (t, x) ∧ v r = 0 ∧ s.d.readyRoom (t / 2 ^ 18) x.level = true) ∧
    (let n : Nat := 63;
     let t : Nat := 3 * 2 ^ 18 + (2 ^ 18 - 1);
     let x : Task := { taskOf [] with pendwake := true };
     let s : State := stOf
       ({ (Dev.reset.setCore 63 { runs with task := some t }).setTask t (some x) with slices := nset Slice.zero [] 3 { Slice.zero with aff := [] } });
     (s.d.core n).executes = true ∧ s.d.entryDue n = false ∧ s.d.runner n = some (t, x) ∧ x.pendwake = true) ∧
    (let n : Nat := 63;
     let t : Nat := 3 * 2 ^ 18 + (2 ^ 18 - 1);
     let x : Task := { taskOf [] with st := .running };
     let s : State := stOf
       ({ (Dev.reset.setCore 63 { runs with task := some t }).setTask t (some x) with slices := nset Slice.zero [] 3 { Slice.zero with aff := [] } });
     (s.d.core n).executes = true ∧ s.d.entryDue n = false ∧ s.d.runner n = some (t, x)) ∧
    (let n : Nat := 63;
     let s : State := stOf (Dev.reset.setCore 63 runs);
     (s.d.core n).executes = true ∧
     let c := s.d.core n;
     s.d.entryDue n = false ∧ c.level = 0 ∧ c.task = none) ∧
    (let n : Nat := 63;
     let r : Nat := 31;
     let s : State := stOf
       ({ ((Dev.reset.setCore 63 { runs with file := nset 0 runs.file 31 (BitVec.ofNat 64 (3 * 2 ^ 18 + (2 ^ 18 - 1))) }).setRegN (R.DSP_TCB_COUNT.at 3) (2 ^ 18)).setTask (3 * 2 ^ 18 + (2 ^ 18 - 1)) (some { taskOf [] with depcnt := 2 }) with slices := nset Slice.zero [] 3 { Slice.zero with aff := [] } });
     (s.d.core n).executes = true ∧
     let c := s.d.core n;
     let v (r : Nat) : Nat := (c.x r).toNat;
     let t := v r % 2 ^ 20;
     s.d.sigReject t = none ∧ s.d.sigBlocked s.clk.tick t = false) ∧
    (let n : Nat := 63;
     let r : Nat := 31;
     let s : State := stOf
       ({ ((Dev.reset.setCore 63 { runs with file := nset 0 runs.file 31 (BitVec.ofNat 64 (3 * 2 ^ 18 + (2 ^ 18 - 1))) }).setRegN (R.DSP_TCB_COUNT.at 3) (2 ^ 18)).setTask (3 * 2 ^ 18 + (2 ^ 18 - 1)) (some { taskOf [] with depcnt := 1 }) with slices := nset Slice.zero [] 3 { Slice.zero with ready := many } });
     (s.d.core n).executes = true ∧
     let c := s.d.core n;
     let v (r : Nat) : Nat := (c.x r).toNat;
     let t := v r % 2 ^ 20;
     s.d.sigReject t = none ∧ s.d.sigBlocked s.clk.tick t = true) ∧
    (let n : Nat := 63;
     let r : Nat := 31;
     let reason : Nat := 5;
     let s : State := stOf
       ({ ((Dev.reset.setCore 63 { runs with file := nset 0 runs.file 31 (BitVec.ofNat 64 (3 * 2 ^ 18 + (2 ^ 18 - 1))) }).setRegN (R.DSP_TCB_COUNT.at 3) (2 ^ 18)).setTask (3 * 2 ^ 18 + (2 ^ 18 - 1)) (some { taskOf [] with depcnt := 0 }) with slices := nset Slice.zero [] 3 { Slice.zero with aff := [] } });
     (s.d.core n).executes = true ∧
     let c := s.d.core n;
     let v (r : Nat) : Nat := (c.x r).toNat;
     let t := v r % 2 ^ 20;
     s.d.sigReject t = some reason) := by
  refine ⟨?_, ?_, ?_, ?_, ?_, ?_, ?_, ?_, ?_, ?_, ?_, ?_, ?_, ?_, ?_, ?_, ?_, ?_, ?_, ?_, ?_, ?_, ?_, ?_⟩
  · try dsimp only
    refine ⟨?_, ?_, ?_⟩
    · decide +kernel
    · decide +kernel
    · decide +kernel
  · try dsimp only
    refine ⟨?_, ?_⟩
    · decide +kernel
    · decide +kernel
  · try dsimp only
    refine ⟨?_, ?_⟩
    · decide +kernel
    · decide +kernel
  · try dsimp only
    refine ⟨?_, ?_, ?_, ?_, ?_, ?_, ?_⟩
    · decide +kernel
    · decide +kernel
    · decide +kernel
    · decide +kernel
    · decide +kernel
    · decide +kernel
    · decide +kernel
  · try dsimp only
    refine ⟨?_, ?_, ?_, ?_, ?_⟩
    · decide +kernel
    · decide +kernel
    · decide +kernel
    · decide +kernel
    · decide +kernel
  · try dsimp only
    refine ⟨?_, ?_⟩
    · decide +kernel
    · decide +kernel
  · try dsimp only
    refine ⟨?_, ?_⟩
    · decide +kernel
    · decide +kernel
  · try dsimp only
    refine ⟨?_, ?_, ?_⟩
    · decide +kernel
    · decide +kernel
    · decide +kernel
  · try dsimp only
    refine ⟨?_, ?_, ?_, ?_⟩
    · decide +kernel
    · decide +kernel
    · decide +kernel
    · decide +kernel
  · exact ⟨by decide +kernel, by decide +kernel, by decide +kernel, noRoom _ _ _ (congrArg Slice.ready (Laws.nget_nset_self _ _ _ _)) (by decide +kernel)⟩
  · try dsimp only
    refine ⟨?_, ?_, ?_, ?_⟩
    · decide +kernel
    · decide +kernel
    · decide +kernel
    · decide +kernel
  · try dsimp only
    refine ⟨?_, ?_, ?_, ?_⟩
    · decide +kernel
    · decide +kernel
    · decide +kernel
    · decide +kernel
  · try dsimp only
    refine ⟨?_, ?_, ?_, ?_⟩
    · decide +kernel
    · decide +kernel
    · decide +kernel
    · decide +kernel
  · try dsimp only
    refine ⟨?_, ?_, ?_, ?_⟩
    · decide +kernel
    · decide +kernel
    · decide +kernel
    · decide +kernel
  · try dsimp only
    refine ⟨?_, ?_, ?_, ?_, ?_, ?_⟩
    · decide +kernel
    · decide +kernel
    · decide +kernel
    · decide +kernel
    · decide +kernel
    · decide +kernel
  · exact ⟨by decide +kernel, by decide +kernel, by decide +kernel, by decide +kernel, by decide +kernel, noDelayRoom _ _ (congrArg Slice.delay (Laws.nget_nset_self _ _ _ _))⟩
  · try dsimp only
    refine ⟨?_, ?_, ?_, ?_⟩
    · decide +kernel
    · decide +kernel
    · decide +kernel
    · decide +kernel
  · try dsimp only
    refine ⟨?_, ?_, ?_, ?_, ?_⟩
    · decide +kernel
    · decide +kernel
    · decide +kernel
    · decide +kernel
    · decide +kernel
  · try dsimp only
    refine ⟨?_, ?_, ?_, ?_⟩
    · decide +kernel
    · decide +kernel
    · decide +kernel
    · decide +kernel
  · try dsimp only
    refine ⟨?_, ?_, ?_⟩
    · decide +kernel
    · decide +kernel
    · decide +kernel
  · try dsimp only
    refine ⟨?_, ?_, ?_, ?_⟩
    · decide +kernel
    · decide +kernel
    · decide +kernel
    · decide +kernel
  · try dsimp only
    refine ⟨?_, ?_, ?_⟩
    · decide +kernel
    · decide +kernel
    · decide +kernel
  · exact ⟨by decide +kernel, by decide +kernel, blocked _ _ _ { taskOf [] with depcnt := 1 } (by decide +kernel) ⟨by decide +kernel, by decide +kernel, by decide +kernel⟩ (by decide +kernel) (noRoom _ _ _ (congrArg Slice.ready (Laws.nget_nset_self _ _ _ _)) (by decide +kernel))⟩
  · try dsimp only
    refine ⟨?_, ?_⟩
    · decide +kernel
    · decide +kernel

/-- What CoreControl asks of a state and of operands is met, case by case. -/
theorem witness_CoreControl :
    (let m : Mst := fw;
     let n : Nat := 63;
     let v : Nat := 3;
     let s : State := stOf (Dev.reset.setCore 63 runs);
     m.oid = 0 ∧ v % 2 = 1 ∧ (s.d.core n).st ≠ .reset) ∧
    (let m : Mst := fw;
     let n : Nat := 63;
     let v : Nat := 3;
     let s : State := State.reset;
     m.oid = 0 ∧ v % 2 = 1 ∧ (s.d.core n).st = .reset ∧ (s.d.reg (coreReg n .CORE_CTRL)).getLsbD 0 = true) ∧
    (let m : Mst := fw;
     let n : Nat := 63;
     let v : Nat := 2;
     let s : State := State.reset;
     m.oid = 0 ∧ v % 2 = 0 ∧ (s.d.core n).st = .reset ∧ s.d.bnkMolting n = false ∧ s.d.safe = false ∧ (n ≠ 0 ∨ s.d.boot.on = false)) ∧
    (let m : Mst := fw;
     let n : Nat := 0;
     let v : Nat := 2;
     let s : State := stOf ({ Dev.reset with boot := { Boot.none with on := true } });
     m.oid = 0 ∧ v % 2 = 0 ∧ n = 0 ∧ (s.d.core n).st = .reset ∧ s.d.bnkMolting n = false ∧ s.d.safe = false ∧ s.d.boot.on = true) ∧
    (let m : Mst := fw;
     let n : Nat := 63;
     let v : Nat := 2;
     let s : State := stOf ((Dev.reset).setBit (coreReg 63 .BNK_STAT) 0 true);
     m.oid = 0 ∧ v % 2 = 0 ∧ ((s.d.core n).st ≠ .reset ∨ s.d.bnkMolting n = true ∨ s.d.safe = true)) ∧
    (let m : Mst := fw;
     let n : Nat := 63;
     let v : Nat := 63;
     let s : State := State.reset;
     m.oid = 0 ∧
     let x := coreReg n .BNK_OWNER;
     let same := v % 4096 = getBits (s.d.reg x) 11 0;
     same) ∧
    (let m : Mst := fw;
     let n : Nat := 63;
     let v : Nat := 5;
     let s : State := stOf ((Dev.reset).setBit (coreReg 63 .BNK_STAT) 0 true);
     m.oid = 0 ∧
     let x := coreReg n .BNK_OWNER;
     let same := v % 4096 = getBits (s.d.reg x) 11 0;
     ¬ same ∧ ((s.d.core n).st ≠ .reset ∨ s.d.bnkMolting n = true)) ∧
    (let m : Mst := fw;
     let n : Nat := 63;
     let v : Nat := 5;
     let s : State := State.reset;
     m.oid = 0 ∧
     let x := coreReg n .BNK_OWNER;
     let same := v % 4096 = getBits (s.d.reg x) 11 0;
     ¬ same ∧ (s.d.core n).st = .reset ∧ s.d.bnkMolting n = false) ∧
    (let n : Nat := 63;
     let s : State := stOf ((Dev.reset.setCore 63 runs).setBit (coreReg 63 .BNK_STAT) 0 true);
     s.d.bnkMolting n = true ∧ (s.d.core n).st ≠ .reset) ∧
    (let n : Nat := 63;
     let s : State := stOf ((Dev.reset).setBit (coreReg 63 .BNK_STAT) 0 true);
     s.d.bnkMolting n = true ∧ (s.d.core n).st = .reset ∧ (s.d.reg (coreReg n .CORE_CTRL)).getLsbD 0 = true) ∧
    (let n : Nat := 63;
     let s : State := stOf ((Dev.reset.setRegN (coreReg 63 .CORE_CTRL) 0).setBit (coreReg 63 .BNK_STAT) 0 true);
     s.d.bnkMolting n = true ∧ (s.d.core n).st = .reset ∧ (s.d.reg (coreReg n .CORE_CTRL)).getLsbD 0 = false ∧ s.d.safe = false ∧ (n ≠ 0 ∨
     s.d.boot.on = false)) ∧
    (let n : Nat := 63;
     let s : State := State.reset;
     s.d.bnkMolting n = false) := by
  refine ⟨?_, ?_, ?_, ?_, ?_, ?_, ?_, ?_, ?_, ?_, ?_, ?_⟩
  · try dsimp only
    refine ⟨?_, ?_, ?_⟩
    · decide +kernel
    · decide +kernel
    · decide +kernel
  · try dsimp only
    refine ⟨?_, ?_, ?_, ?_⟩
    · decide +kernel
    · decide +kernel
    · decide +kernel
    · decide +kernel
  · try dsimp only
    refine ⟨?_, ?_, ?_, ?_, ?_, ?_⟩
    · decide +kernel
    · decide +kernel
    · decide +kernel
    · decide +kernel
    · decide +kernel
    · decide +kernel
  · try dsimp only
    refine ⟨?_, ?_, ?_, ?_, ?_, ?_, ?_⟩
    · decide +kernel
    · decide +kernel
    · decide +kernel
    · decide +kernel
    · decide +kernel
    · decide +kernel
    · decide +kernel
  · try dsimp only
    refine ⟨?_, ?_, ?_⟩
    · decide +kernel
    · decide +kernel
    · decide +kernel
  · try dsimp only
    refine ⟨?_, ?_⟩
    · decide +kernel
    · decide +kernel
  · try dsimp only
    refine ⟨?_, ?_, ?_⟩
    · decide +kernel
    · decide +kernel
    · decide +kernel
  · try dsimp only
    refine ⟨?_, ?_, ?_, ?_⟩
    · decide +kernel
    · decide +kernel
    · decide +kernel
    · decide +kernel
  · try dsimp only
    refine ⟨?_, ?_⟩
    · decide +kernel
    · decide +kernel
  · try dsimp only
    refine ⟨?_, ?_, ?_⟩
    · decide +kernel
    · decide +kernel
    · decide +kernel
  · try dsimp only
    refine ⟨?_, ?_, ?_, ?_, ?_⟩
    · decide +kernel
    · decide +kernel
    · decide +kernel
    · decide +kernel
    · decide +kernel
  · try dsimp only
    decide +kernel

/-- What StreamEngines asks of a state and of operands is met, case by case. -/
theorem witness_StreamEngines :
    (let m : Mst := fw;
     let vp : Nat := 1023;
     let j : Nat := 1;
     let v : Nat := 2 ^ 31;
     let s : State := State.reset;
     m.oid = 0 ∧
     let x := senReg vp .JATTR j;
     (s.d.reg x).getLsbD 31 = false ∧ v.testBit 31 = true) ∧
    (let m : Mst := fw;
     let vp : Nat := 1023;
     let j : Nat := 1;
     let v : Nat := 0;
     let s : State := State.reset;
     m.oid = 0 ∧
     let x := senReg vp .JATTR j;
     (s.d.reg x).getLsbD 31 = false ∧ v.testBit 31 = false) ∧
    (let m : Mst := fw;
     let vp : Nat := 1023;
     let j : Nat := 1;
     let s : State := stOf (Dev.reset.setBit (senReg 1023 .JATTR 1) 31 true);
     m.oid = 0 ∧
     let x := senReg vp .JATTR j;
     (s.d.reg x).getLsbD 31 = true) ∧
    (let vp : Nat := 1023;
     let j : Nat := 1;
     let r : List Nat := [];
     let s : State := stOf (((((({ Dev.reset with sen := nset Sen.zero [] 1023 ⟨[1], none⟩ }).setReg (cluReg 63 .VP_CFG 15) (BitVec.ofNat 64
       (2 ^ 63))).setRegN (senReg 1023 .SEN_CTRL) 1).setRegN (senReg 1023 .JATTR 1) (0)).setRegN (senReg 1023 .JADDR 1) (8)).setRegN
       (senReg 1023 .JLEN 1) 512);
     s.d.sysHalt = false ∧ (s.d.engine vp).run = none ∧ (s.d.engine vp).queue = j :: r ∧ (s.d.reg (senReg vp .SEN_CTRL)).getLsbD 0 = true ∧
     s.d.vpBound vp = true ∧
     let attr := (s.d.jattr vp j).toNat;
     let addr := s.d.regN (senReg vp .JADDR j);
     let len := s.d.regN (senReg vp .JLEN j);
     let kind := bitsOf attr 26 24;
     let list := kind = 1 ∧ attr.testBit 10 = true;
     ¬ list ∧ jobMisaligned addr len attr = false) ∧
    (let vp : Nat := 1023;
     let sgl : List (Nat × Nat × Nat) := [(0, 512, 1)];
     let ans : HostAns := .none;
     let j : Nat := 1;
     let r : List Nat := [];
     let s : State := stOf (((((({ host with sen := nset Sen.zero [] 1023 ⟨[1], none⟩ }).setReg (cluReg 63 .VP_CFG 15) (BitVec.ofNat 64 (2 ^
       63))).setRegN (senReg 1023 .SEN_CTRL) 1).setRegN (senReg 1023 .JATTR 1) (2 ^ 24 + 31 * 2 ^ 11 + 2 ^ 10)).setRegN (senReg 1023
       .JADDR 1) (8)).setRegN (senReg 1023 .JLEN 1) 512);
     s.d.sysHalt = false ∧ (s.d.engine vp).run = none ∧ (s.d.engine vp).queue = j :: r ∧ (s.d.reg (senReg vp .SEN_CTRL)).getLsbD 0 = true ∧
     s.d.vpBound vp = true ∧
     let attr := (s.d.jattr vp j).toNat;
     let addr := s.d.regN (senReg vp .JADDR j);
     let len := s.d.regN (senReg vp .JLEN j);
     let kind := bitsOf attr 26 24;
     let list := kind = 1 ∧ attr.testBit 10 = true;
     let code := hostCode (s.d.fnIssues (bitsOf attr 21 11)) ans;
     list ∧ jobMisaligned addr len attr = false ∧ code = 0 ∧ sglOk sgl len = true) ∧
    (let vp : Nat := 1023;
     let j : Nat := 1;
     let r : List Nat := [];
     let s : State := stOf (((((({ Dev.reset with sen := nset Sen.zero [] 1023 ⟨[1], none⟩ }).setReg (cluReg 63 .VP_CFG 15) (BitVec.ofNat 64
       (2 ^ 63))).setRegN (senReg 1023 .SEN_CTRL) 1).setRegN (senReg 1023 .JATTR 1) (0)).setRegN (senReg 1023 .JADDR 1) (8)).setRegN
       (senReg 1023 .JLEN 1) 513);
     s.d.sysHalt = false ∧ (s.d.engine vp).run = none ∧ (s.d.engine vp).queue = j :: r ∧ (s.d.reg (senReg vp .SEN_CTRL)).getLsbD 0 = true ∧
     s.d.vpBound vp = true ∧
     let attr := (s.d.jattr vp j).toNat;
     let addr := s.d.regN (senReg vp .JADDR j);
     let len := s.d.regN (senReg vp .JLEN j);
     let kind := bitsOf attr 26 24;
     let list := kind = 1 ∧ attr.testBit 10 = true;
     ¬ list ∧ jobMisaligned addr len attr = true) ∧
    (let vp : Nat := 1023;
     let sgl : List (Nat × Nat × Nat) := [(0, 512, 1)];
     let ans : HostAns := .none;
     let j : Nat := 1;
     let r : List Nat := [];
     let s : State := stOf (((((({ host with sen := nset Sen.zero [] 1023 ⟨[1], none⟩ }).setReg (cluReg 63 .VP_CFG 15) (BitVec.ofNat 64 (2 ^
       63))).setRegN (senReg 1023 .SEN_CTRL) 1).setRegN (senReg 1023 .JATTR 1) (2 ^ 24 + 31 * 2 ^ 11 + 2 ^ 10)).setRegN (senReg 1023
       .JADDR 1) (8)).setRegN (senReg 1023 .JLEN 1) 520);
     s.d.sysHalt = false ∧ (s.d.engine vp).run = none ∧ (s.d.engine vp).queue = j :: r ∧ (s.d.reg (senReg vp .SEN_CTRL)).getLsbD 0 = true ∧
     s.d.vpBound vp = true ∧
     let attr := (s.d.jattr vp j).toNat;
     let addr := s.d.regN (senReg vp .JADDR j);
     let len := s.d.regN (senReg vp .JLEN j);
     let kind := bitsOf attr 26 24;
     let list := kind = 1 ∧ attr.testBit 10 = true;
     let code := hostCode (s.d.fnIssues (bitsOf attr 21 11)) ans;
     list ∧ (jobMisaligned addr len attr = true ∨ (code = 0 ∧ sglOk sgl len = false))) ∧
    (let vp : Nat := 1023;
     let ans : HostAns := .timeout;
     let j : Nat := 1;
     let r : List Nat := [];
     let s : State := stOf (((((({ host with sen := nset Sen.zero [] 1023 ⟨[1], none⟩ }).setReg (cluReg 63 .VP_CFG 15) (BitVec.ofNat 64 (2 ^
       63))).setRegN (senReg 1023 .SEN_CTRL) 1).setRegN (senReg 1023 .JATTR 1) (2 ^ 24 + 31 * 2 ^ 11 + 2 ^ 10)).setRegN (senReg 1023
       .JADDR 1) (8)).setRegN (senReg 1023 .JLEN 1) 512);
     s.d.sysHalt = false ∧ (s.d.engine vp).run = none ∧ (s.d.engine vp).queue = j :: r ∧ (s.d.reg (senReg vp .SEN_CTRL)).getLsbD 0 = true ∧
     s.d.vpBound vp = true ∧
     let attr := (s.d.jattr vp j).toNat;
     let addr := s.d.regN (senReg vp .JADDR j);
     let len := s.d.regN (senReg vp .JLEN j);
     let kind := bitsOf attr 26 24;
     let list := kind = 1 ∧ attr.testBit 10 = true;
     let code := hostCode (s.d.fnIssues (bitsOf attr 21 11)) ans;
     list ∧ jobMisaligned addr len attr = false ∧ code ≠ 0) ∧
    (let vp : Nat := 1023;
     let s : State := stOf ((Dev.reset.setReg (cluReg 63 .VP_CFG 15) (BitVec.ofNat 64 (2 ^ 63))));
     s.d.sysHalt = false ∧ ((s.d.engine vp).run ≠ none ∨ (s.d.engine vp).queue = [] ∨ (s.d.reg (senReg vp .SEN_CTRL)).getLsbD 0 = false)) ∧
    (let vp : Nat := 1023;
     let r : SenRun := ⟨1, 512, 512, [], false⟩;
     let s : State := stOf (job (Dev.reset.setReg (cluReg 63 .VP_CFG 15) (BitVec.ofNat 64 (2 ^ 63))) r (0) (bankBase 63 + 0x7FE00));
     s.d.sysHalt = false ∧ (s.d.engine vp).run = some r ∧
     let more := r.moved < s.d.regN (senReg vp .JLEN r.j);
     (¬ more ∨ s.d.vpBound vp = false)) ∧
    (let vp : Nat := 1023;
     let r : SenRun := ⟨1, 504, 504, [], false⟩;
     let e : HbmErr := .none;
     let col : Option Word := none;
     let s : State := stOf (job (Dev.reset.setReg (cluReg 63 .VP_CFG 15) (BitVec.ofNat 64 (2 ^ 63))) r (0) (bankBase 63 + 0x7FE00));
     s.d.sysHalt = false ∧ (s.d.engine vp).run = some r ∧
     let attr := (s.d.jattr vp r.j).toNat;
     let kind := getBits (s.d.jattr vp r.j) 26 24;
     let oid := bitsOf attr 21 11;
     let base := s.d.regN (senReg vp .JADDR r.j);
     let more := r.moved < s.d.regN (senReg vp .JLEN r.j);
     let dev := base % 2 ^ 48 + r.moved;
     more ∧ s.d.vpBound vp = true ∧ s.d.vpOut vp = false ∧ s.d.vpLevel vp < 512 ∧ kind = 0 ∧
     let x := s.d.senAcc s.clk (rdReq (senMid vp) oid dev 8) (attr.testBit 28) e col;
     let code := x.1.devCode ⟨senMid vp, oid, false⟩ dev false e x.2.code;
     code = 0) ∧
    (let vp : Nat := 1023;
     let r : SenRun := ⟨1, 504, 504, [], false⟩;
     let e : HbmErr := .none;
     let col : Option Word := none;
     let s : State := stOf (job ((Dev.reset.setReg (cluReg 63 .VP_CFG 15) (BitVec.ofNat 64 (2 ^ 63))).setBit (coreReg 63 .BNK_STAT) 0 true) r
       (0) (bankBase 63 + 0x7FE00));
     s.d.sysHalt = false ∧ (s.d.engine vp).run = some r ∧
     let attr := (s.d.jattr vp r.j).toNat;
     let kind := getBits (s.d.jattr vp r.j) 26 24;
     let oid := bitsOf attr 21 11;
     let base := s.d.regN (senReg vp .JADDR r.j);
     let more := r.moved < s.d.regN (senReg vp .JLEN r.j);
     let dev := base % 2 ^ 48 + r.moved;
     more ∧ s.d.vpBound vp = true ∧ s.d.vpOut vp = false ∧ s.d.vpLevel vp < 512 ∧ kind = 0 ∧
     let x := s.d.senAcc s.clk (rdReq (senMid vp) oid dev 8) (attr.testBit 28) e col;
     let code := x.1.devCode ⟨senMid vp, oid, false⟩ dev false e x.2.code;
     code ≠ 0) ∧
    (let vp : Nat := 1023;
     let r : SenRun := ⟨1, 504, 504, [], false⟩;
     let ans : HostAns := .data (2 ^ 64 - 1);
     let w : Nat := 2 ^ 64 - 1;
     let s : State := stOf (job (host.setReg (cluReg 63 .VP_CFG 15) (BitVec.ofNat 64 (2 ^ 63))) r (2 ^ 24 + 31 * 2 ^ 11) (8));
     s.d.sysHalt = false ∧ (s.d.engine vp).run = some r ∧
     let attr := (s.d.jattr vp r.j).toNat;
     let kind := getBits (s.d.jattr vp r.j) 26 24;
     let oid := bitsOf attr 21 11;
     let more := r.moved < s.d.regN (senReg vp .JLEN r.j);
     more ∧ s.d.vpBound vp = true ∧ s.d.vpOut vp = false ∧ s.d.vpLevel vp < 512 ∧ kind = 1 ∧ s.d.fnIssues oid = true ∧ ans = .data w) ∧
    (let vp : Nat := 1023;
     let r : SenRun := ⟨1, 504, 504, [], false⟩;
     let ans : HostAns := .poison;
     let s : State := stOf (job (host.setReg (cluReg 63 .VP_CFG 15) (BitVec.ofNat 64 (2 ^ 63))) r (2 ^ 24 + 31 * 2 ^ 11) (8));
     s.d.sysHalt = false ∧ (s.d.engine vp).run = some r ∧
     let attr := (s.d.jattr vp r.j).toNat;
     let kind := getBits (s.d.jattr vp r.j) 26 24;
     let oid := bitsOf attr 21 11;
     let more := r.moved < s.d.regN (senReg vp .JLEN r.j);
     more ∧ s.d.vpBound vp = true ∧ s.d.vpOut vp = false ∧ s.d.vpLevel vp < 512 ∧ kind = 1 ∧ s.d.fnIssues oid = true ∧ hostCode true ans ≠ 0) ∧
    (let vp : Nat := 1023;
     let r : SenRun := ⟨1, 504, 504, [], false⟩;
     let s : State := stOf (job (Dev.reset.setReg (cluReg 63 .VP_CFG 15) (BitVec.ofNat 64 (2 ^ 63))) r (2 ^ 24 + 31 * 2 ^ 11) (8));
     s.d.sysHalt = false ∧ (s.d.engine vp).run = some r ∧
     let attr := (s.d.jattr vp r.j).toNat;
     let kind := getBits (s.d.jattr vp r.j) 26 24;
     let oid := bitsOf attr 21 11;
     let more := r.moved < s.d.regN (senReg vp .JLEN r.j);
     more ∧ s.d.vpBound vp = true ∧ s.d.vpOut vp = false ∧ s.d.vpLevel vp < 512 ∧ kind = 1 ∧ s.d.fnIssues oid = false) ∧
    (let vp : Nat := 1023;
     let r : SenRun := ⟨1, 504, 504, [], false⟩;
     let e : HbmErr := .none;
     let s : State := stOf (job (Dev.reset.setReg (cluReg 63 .VP_CFG 15) (BitVec.ofNat 64 (2 ^ 63))) r (2 * 2 ^ 24) (8));
     s.d.sysHalt = false ∧ (s.d.engine vp).run = some r ∧
     let kind := getBits (s.d.jattr vp r.j) 26 24;
     let more := r.moved < s.d.regN (senReg vp .JLEN r.j);
     more ∧ s.d.vpBound vp = true ∧ s.d.vpOut vp = false ∧ s.d.vpLevel vp < 512 ∧ kind = 2 ∧ e ≠ .ce ∧ e ≠ .ue) ∧
    (let vp : Nat := 1023;
     let r : SenRun := ⟨1, 504, 504, [], false⟩;
     let e : HbmErr := .ce;
     let s : State := stOf (job (Dev.reset.setReg (cluReg 63 .VP_CFG 15) (BitVec.ofNat 64 (2 ^ 63))) r (2 * 2 ^ 24) (8));
     s.d.sysHalt = false ∧ (s.d.engine vp).run = some r ∧
     let kind := getBits (s.d.jattr vp r.j) 26 24;
     let more := r.moved < s.d.regN (senReg vp .JLEN r.j);
     more ∧ s.d.vpBound vp = true ∧ s.d.vpOut vp = false ∧ s.d.vpLevel vp < 512 ∧ kind = 2 ∧ e = .ce) ∧
    (let vp : Nat := 1023;
     let r : SenRun := ⟨1, 504, 504, [], false⟩;
     let e : HbmErr := .ue;
     let s : State := stOf (job (Dev.reset.setReg (cluReg 63 .VP_CFG 15) (BitVec.ofNat 64 (2 ^ 63))) r (2 * 2 ^ 24) (8));
     s.d.sysHalt = false ∧ (s.d.engine vp).run = some r ∧
     let kind := getBits (s.d.jattr vp r.j) 26 24;
     let more := r.moved < s.d.regN (senReg vp .JLEN r.j);
     more ∧ s.d.vpBound vp = true ∧ s.d.vpOut vp = false ∧ s.d.vpLevel vp < 512 ∧ kind = 2 ∧ e = .ue) ∧
    (let vp : Nat := 1023;
     let r : SenRun := ⟨1, 504, 504, [], false⟩;
     let e : HbmErr := .none;
     let col : Option Word := none;
     let w : Word := 7;
     let rest : List FEl := [];
     let s : State := stOf (job ((Dev.reset.setReg (cluReg 63 .VP_CFG 15) (BitVec.ofNat 64 (2 ^ 63 + 2 ^ 62))).setFifo 1023 [.word 7]) r (0)
       (bankBase 63 + 0x7FE00));
     s.d.sysHalt = false ∧ (s.d.engine vp).run = some r ∧
     let attr := (s.d.jattr vp r.j).toNat;
     let kind := getBits (s.d.jattr vp r.j) 26 24;
     let oid := bitsOf attr 21 11;
     let base := s.d.regN (senReg vp .JADDR r.j);
     let more := r.moved < s.d.regN (senReg vp .JLEN r.j);
     let dev := base % 2 ^ 48 + r.moved;
     more ∧ s.d.vpOut vp = true ∧ s.d.fifo vp = .word w :: rest ∧
     let d0 := s.d.setFifo vp rest;
     kind = 0 ∧
     let x := d0.senAcc s.clk (wrReq (senMid vp) oid dev 8 w.toNat) (attr.testBit 28) e col;
     let code := d0.devCode ⟨senMid vp, oid, false⟩ dev true e x.2.code;
     code = 0) ∧
    (let vp : Nat := 1023;
     let r : SenRun := ⟨1, 504, 504, [], false⟩;
     let e : HbmErr := .none;
     let col : Option Word := some 5;
     let w : Word := 7;
     let rest : List FEl := [];
     let s : State := stOf (job ((Dev.reset.setReg (cluReg 63 .VP_CFG 15) (BitVec.ofNat 64 (2 ^ 63 + 2 ^ 62))).setFifo 1023 [.word 7]) r (0)
       (bankBase 63 + 0x7FE00));
     s.d.sysHalt = false ∧ (s.d.engine vp).run = some r ∧
     let attr := (s.d.jattr vp r.j).toNat;
     let kind := getBits (s.d.jattr vp r.j) 26 24;
     let oid := bitsOf attr 21 11;
     let base := s.d.regN (senReg vp .JADDR r.j);
     let more := r.moved < s.d.regN (senReg vp .JLEN r.j);
     let dev := base % 2 ^ 48 + r.moved;
     more ∧ s.d.vpOut vp = true ∧ s.d.fifo vp = .word w :: rest ∧
     let d0 := s.d.setFifo vp rest;
     kind = 0 ∧
     let x := d0.senAcc s.clk (wrReq (senMid vp) oid dev 8 w.toNat) (attr.testBit 28) e col;
     let code := d0.devCode ⟨senMid vp, oid, false⟩ dev true e x.2.code;
     code ≠ 0) ∧
    (let vp : Nat := 1023;
     let r : SenRun := ⟨1, 504, 504, [], false⟩;
     let ans : HostAns := .none;
     let w : Word := 7;
     let rest : List FEl := [];
     let s : State := stOf (job ((host.setReg (cluReg 63 .VP_CFG 15) (BitVec.ofNat 64 (2 ^ 63 + 2 ^ 62))).setFifo 1023 [.word 7]) r (2 ^ 24 +
       31 * 2 ^ 11) (8));
     s.d.sysHalt = false ∧ (s.d.engine vp).run = some r ∧
     let attr := (s.d.jattr vp r.j).toNat;
     let kind := getBits (s.d.jattr vp r.j) 26 24;
     let oid := bitsOf attr 21 11;
     let more := r.moved < s.d.regN (senReg vp .JLEN r.j);
     more ∧ s.d.vpOut vp = true ∧ s.d.fifo vp = .word w :: rest ∧
     let d0 := s.d.setFifo vp rest;
     kind = 1 ∧ hostCode (d0.fnIssues oid) ans = 0) ∧
    (let vp : Nat := 1023;
     let r : SenRun := ⟨1, 504, 504, [], false⟩;
     let ans : HostAns := .error;
     let w : Word := 7;
     let rest : List FEl := [];
     let s : State := stOf (job ((host.setReg (cluReg 63 .VP_CFG 15) (BitVec.ofNat 64 (2 ^ 63 + 2 ^ 62))).setFifo 1023 [.word 7]) r (2 ^ 24 +
       31 * 2 ^ 11) (8));
     s.d.sysHalt = false ∧ (s.d.engine vp).run = some r ∧
     let attr := (s.d.jattr vp r.j).toNat;
     let kind := getBits (s.d.jattr vp r.j) 26 24;
     let oid := bitsOf attr 21 11;
     let more := r.moved < s.d.regN (senReg vp .JLEN r.j);
     more ∧ s.d.vpOut vp = true ∧ s.d.fifo vp = .word w :: rest ∧
     let d0 := s.d.setFifo vp rest;
     kind = 1 ∧ hostCode (d0.fnIssues oid) ans ≠ 0) ∧
    (let vp : Nat := 1023;
     let r : SenRun := ⟨1, 504, 504, [], false⟩;
     let col : Option Word := none;
     let w : Word := 7;
     let rest : List FEl := [];
     let s : State := stOf (job ((Dev.reset.setReg (cluReg 63 .VP_CFG 15) (BitVec.ofNat 64 (2 ^ 63 + 2 ^ 62))).setFifo 1023 [.word 7]) r (2 *
       2 ^ 24) (8));
     s.d.sysHalt = false ∧ (s.d.engine vp).run = some r ∧
     let kind := getBits (s.d.jattr vp r.j) 26 24;
     let more := r.moved < s.d.regN (senReg vp .JLEN r.j);
     more ∧ s.d.vpOut vp = true ∧ s.d.fifo vp = .word w :: rest ∧ kind = 2 ∧ col = none) ∧
    (let vp : Nat := 1023;
     let r : SenRun := ⟨1, 504, 504, [], false⟩;
     let col : Option Word := some 5;
     let w : Word := 7;
     let rest : List FEl := [];
     let s : State := stOf (job ((Dev.reset.setReg (cluReg 63 .VP_CFG 15) (BitVec.ofNat 64 (2 ^ 63 + 2 ^ 62))).setFifo 1023 [.word 7]) r (2 *
       2 ^ 24) (8));
     s.d.sysHalt = false ∧ (s.d.engine vp).run = some r ∧
     let kind := getBits (s.d.jattr vp r.j) 26 24;
     let more := r.moved < s.d.regN (senReg vp .JLEN r.j);
     more ∧ s.d.vpOut vp = true ∧ s.d.fifo vp = .word w :: rest ∧ kind = 2 ∧ col ≠ none) ∧
    (let vp : Nat := 1023;
     let r : SenRun := ⟨1, 504, 504, [], true⟩;
     let w : Word := 7;
     let rest : List FEl := [];
     let rb : SenRun := ⟨1, 504, 504, [], true⟩;
     let s : State := stOf
       (((({ job ((((Dev.reset.setReg (cluReg 63 .VP_CFG 15) (BitVec.ofNat 64 (2 ^ 63 + 2 ^ 62))).setFifo 1023 [.word 7])).setReg (cluReg 63 .VP_CFG 14) (BitVec.ofNat 64 (2 ^ 63))) r (3 * 2 ^ 24) 1022 with sen := nset Sen.zero (nset Sen.zero [] 1023 ⟨[], some r⟩) 1022 ⟨[], some rb⟩ }).setRegN
       (senReg 1022 .JATTR 1) (3 * 2 ^ 24)).setRegN (senReg 1022 .JADDR 1) 1023).setRegN (senReg 1022 .JLEN 1) 512);
     s.d.sysHalt = false ∧ (s.d.engine vp).run = some r ∧
     let kind := getBits (s.d.jattr vp r.j) 26 24;
     let more := r.moved < s.d.regN (senReg vp .JLEN r.j);
     more ∧ s.d.vpOut vp = true ∧ s.d.fifo vp = .word w :: rest ∧ kind = 3 ∧ r.chained = true ∧
     let b := getBits (s.d.reg (senReg vp .JADDR r.j)) 9 0;
     (s.d.engine b).run = some rb ∧ rb.chained = true ∧ s.d.chainFits vp b r rb = true ∧ s.d.vpIn b = true ∧ s.d.vpLevel b < 512 ∧
     s.d.routeOk (quarterOf (vp / 16)) (quarterOf (b / 16)) = true) ∧
    (let vp : Nat := 1023;
     let r : SenRun := ⟨1, 504, 504, [], false⟩;
     let s : State := stOf (job (Dev.reset.setReg (cluReg 63 .VP_CFG 15) (BitVec.ofNat 64 (2 ^ 63))) r (0) (8));
     s.d.sysHalt = false ∧ (s.d.engine vp).run = some r ∧
     let chain := getBits (s.d.jattr vp r.j) 26 24 = 3;
     ¬ chain) ∧
    (let vp : Nat := 1023;
     let r : SenRun := ⟨1, 504, 504, [], false⟩;
     let s : State := stOf
       (((({ job (Dev.reset.setReg (cluReg 63 .VP_CFG 15) (BitVec.ofNat 64 (2 ^ 63 + 2 ^ 62))) r (3 * 2 ^ 24) 1022 with sen := nset Sen.zero (nset Sen.zero [] 1023 ⟨[], some r⟩) 1022 ⟨[], none⟩ }).setRegN
       (senReg 1022 .JATTR 1) (3 * 2 ^ 24)).setRegN (senReg 1022 .JADDR 1) 1023).setRegN (senReg 1022 .JLEN 1) 512);
     s.d.sysHalt = false ∧ (s.d.engine vp).run = some r ∧
     let b := getBits (s.d.reg (senReg vp .JADDR r.j)) 9 0;
     let chain := getBits (s.d.jattr vp r.j) 26 24 = 3;
     chain ∧ s.d.vpOut vp = true ∧ s.d.vpIn b = false) ∧
    (let vp : Nat := 1023;
     let r : SenRun := ⟨1, 504, 504, [], false⟩;
     let s : State := stOf
       (((({ job (((Dev.reset.setReg (cluReg 63 .VP_CFG 15) (BitVec.ofNat 64 (2 ^ 63 + 2 ^ 62)))).setReg (cluReg 63 .VP_CFG 14) (BitVec.ofNat 64 (2 ^ 63))) r (3 * 2 ^ 24) 1022 with sen := nset Sen.zero (nset Sen.zero [] 1023 ⟨[], some r⟩) 1022 ⟨[], none⟩ }).setRegN
       (senReg 1022 .JATTR 1) (3 * 2 ^ 24)).setRegN (senReg 1022 .JADDR 1) 1023).setRegN (senReg 1022 .JLEN 1) 512);
     s.d.sysHalt = false ∧ (s.d.engine vp).run = some r ∧
     let b := getBits (s.d.reg (senReg vp .JADDR r.j)) 9 0;
     let chain := getBits (s.d.jattr vp r.j) 26 24 = 3;
     chain ∧ (s.d.vpOut vp = false ∨ s.d.vpIn b = true) ∧ (s.d.engine b).run = none) ∧
    (let vp : Nat := 1023;
     let r : SenRun := ⟨1, 504, 504, [], false⟩;
     let rb : SenRun := ⟨1, 504, 504, [], true⟩;
     let s : State := stOf
       (((({ job (((Dev.reset.setReg (cluReg 63 .VP_CFG 15) (BitVec.ofNat 64 (2 ^ 63 + 2 ^ 62)))).setReg (cluReg 63 .VP_CFG 14) (BitVec.ofNat 64 (2 ^ 63))) r (3 * 2 ^ 24) 1022 with sen := nset Sen.zero (nset Sen.zero [] 1023 ⟨[], some r⟩) 1022 ⟨[], some rb⟩ }).setRegN
       (senReg 1022 .JATTR 1) (0)).setRegN (senReg 1022 .JADDR 1) 1023).setRegN (senReg 1022 .JLEN 1) 512);
     s.d.sysHalt = false ∧ (s.d.engine vp).run = some r ∧
     let b := getBits (s.d.reg (senReg vp .JADDR r.j)) 9 0;
     let chain := getBits (s.d.jattr vp r.j) 26 24 = 3;
     chain ∧ (s.d.vpOut vp = false ∨ s.d.vpIn b = true) ∧ (s.d.engine b).run = some rb ∧ getBits (s.d.jattr b rb.j) 26 24 ≠ 3) ∧
    (let vp : Nat := 1023;
     let r : SenRun := ⟨1, 504, 504, [], false⟩;
     let rb : SenRun := ⟨1, 504, 504, [], true⟩;
     let s : State := stOf
       (((({ job (((Dev.reset.setReg (cluReg 63 .VP_CFG 15) (BitVec.ofNat 64 (2 ^ 63 + 2 ^ 62)))).setReg (cluReg 63 .VP_CFG 14) (BitVec.ofNat 64 (2 ^ 63))) r (3 * 2 ^ 24) 1022 with sen := nset Sen.zero (nset Sen.zero [] 1023 ⟨[], some r⟩) 1022 ⟨[], some rb⟩ }).setRegN
       (senReg 1022 .JATTR 1) (3 * 2 ^ 24)).setRegN (senReg 1022 .JADDR 1) 1023).setRegN (senReg 1022 .JLEN 1) 512);
     s.d.sysHalt = false ∧ (s.d.engine vp).run = some r ∧
     let b := getBits (s.d.reg (senReg vp .JADDR r.j)) 9 0;
     let chain := getBits (s.d.jattr vp r.j) 26 24 = 3;
     chain ∧ (s.d.vpOut vp = false ∨ s.d.vpIn b = true) ∧ (s.d.engine b).run = some rb ∧ getBits (s.d.jattr b rb.j) 26 24 = 3 ∧ getBits
     (s.d.reg (senReg b .JADDR rb.j)) 9 0 = vp ∧ getBits (s.d.jattr b rb.j) 21 11 = getBits (s.d.jattr vp r.j) 21 11 ∧ s.d.regN (senReg
     b .JLEN rb.j) = s.d.regN (senReg vp .JLEN r.j)) ∧
    (let vp : Nat := 1023;
     let r : SenRun := ⟨1, 504, 504, [], false⟩;
     let rb : SenRun := ⟨1, 504, 504, [], true⟩;
     let s : State := stOf
       (((({ job (((Dev.reset.setReg (cluReg 63 .VP_CFG 15) (BitVec.ofNat 64 (2 ^ 63 + 2 ^ 62)))).setReg (cluReg 63 .VP_CFG 14) (BitVec.ofNat 64 (2 ^ 63))) r (3 * 2 ^ 24) 1022 with sen := nset Sen.zero (nset Sen.zero [] 1023 ⟨[], some r⟩) 1022 ⟨[], some rb⟩ }).setRegN
       (senReg 1022 .JATTR 1) (3 * 2 ^ 24)).setRegN (senReg 1022 .JADDR 1) 1023).setRegN (senReg 1022 .JLEN 1) 504);
     s.d.sysHalt = false ∧ (s.d.engine vp).run = some r ∧
     let b := getBits (s.d.reg (senReg vp .JADDR r.j)) 9 0;
     let chain := getBits (s.d.jattr vp r.j) 26 24 = 3;
     chain ∧ (s.d.vpOut vp = false ∨ s.d.vpIn b = true) ∧ (s.d.engine b).run = some rb ∧ getBits (s.d.jattr b rb.j) 26 24 = 3 ∧ (getBits
     (s.d.reg (senReg b .JADDR rb.j)) 9 0 ≠ vp ∨ getBits (s.d.jattr b rb.j) 21 11 ≠ getBits (s.d.jattr vp r.j) 21 11 ∨ s.d.regN (senReg
     b .JLEN rb.j) ≠ s.d.regN (senReg vp .JLEN r.j))) ∧
    (let vp : Nat := 1023;
     let r : SenRun := ⟨1, 512, 512, [], false⟩;
     let s : State := stOf (job (Dev.reset.setReg (cluReg 63 .VP_CFG 15) (BitVec.ofNat 64 (2 ^ 63 + 2 ^ 62))) r (0) (8));
     s.d.sysHalt = false ∧ (s.d.engine vp).run = some r ∧
     let ended := r.moved = s.d.regN (senReg vp .JLEN r.j) ∧ (s.d.jattr vp r.j).getLsbD 29 = false ∧ nget false s.d.fences (senMid vp) =
       false;
     let eos := (s.d.jattr vp r.j).getLsbD 30 = true ∧ s.d.vpIn vp = true;
     ended ∧ ¬ eos) ∧
    (let vp : Nat := 1023;
     let r : SenRun := ⟨1, 512, 512, [], false⟩;
     let s : State := stOf (job (Dev.reset.setReg (cluReg 63 .VP_CFG 15) (BitVec.ofNat 64 (2 ^ 63))) r (2 ^ 30) (8));
     s.d.sysHalt = false ∧ (s.d.engine vp).run = some r ∧
     let ended := r.moved = s.d.regN (senReg vp .JLEN r.j) ∧ (s.d.jattr vp r.j).getLsbD 29 = false ∧ nget false s.d.fences (senMid vp) =
       false;
     let eos := (s.d.jattr vp r.j).getLsbD 30 = true ∧ s.d.vpIn vp = true;
     ended ∧ eos) ∧
    (let vp : Nat := 1023;
     let r : SenRun := ⟨1, 504, 504, [], false⟩;
     let s : State := stOf (job (Dev.reset.setReg (cluReg 63 .VP_CFG 15) (BitVec.ofNat 64 (2 ^ 63))) r (0) (8));
     s.d.sysHalt = false ∧ (s.d.engine vp).run = some r ∧
     let ended := r.moved = s.d.regN (senReg vp .JLEN r.j) ∧ (s.d.jattr vp r.j).getLsbD 29 = false ∧ nget false s.d.fences (senMid vp) =
       false;
     ¬ ended) ∧
    (let vp : Nat := 1023;
     let s : State := State.reset;
     s.d.sysHalt = false ∧ (s.d.engine vp).run = none) ∧
    (let m : Mst := fw;
     let vp : Nat := 1023;
     let v : Nat := 1;
     let s : State := State.reset;
     m.oid = 0 ∧
     let stops := (s.d.reg (senReg vp .SEN_CTRL)).getLsbD 0 = true ∧ v % 2 = 0;
     ¬ stops) ∧
    (let m : Mst := fw;
     let vp : Nat := 1023;
     let v : Nat := 2;
     let s : State := stOf (Dev.reset.setRegN (senReg 1023 .SEN_CTRL) 1);
     m.oid = 0 ∧
     let stops := (s.d.reg (senReg vp .SEN_CTRL)).getLsbD 0 = true ∧ v % 2 = 0;
     stops) := by
  refine ⟨?_, ?_, ?_, ?_, ?_, ?_, ?_, ?_, ?_, ?_, ?_, ?_, ?_, ?_, ?_, ?_, ?_, ?_, ?_, ?_, ?_, ?_, ?_, ?_, ?_, ?_, ?_, ?_, ?_, ?_, ?_,
    ?_, ?_, ?_, ?_, ?_, ?_⟩
  · try dsimp only
    refine ⟨?_, ?_, ?_⟩
    · decide +kernel
    · decide +kernel
    · decide +kernel
  · try dsimp only
    refine ⟨?_, ?_, ?_⟩
    · decide +kernel
    · decide +kernel
    · decide +kernel
  · try dsimp only
    refine ⟨?_, ?_⟩
    · decide +kernel
    · decide +kernel
  · try dsimp only
    refine ⟨?_, ?_, ?_, ?_, ?_, ?_, ?_⟩
    · decide +kernel
    · decide +kernel
    · decide +kernel
    · decide +kernel
    · decide +kernel
    · decide +kernel
    · decide +kernel
  · try dsimp only
    refine ⟨?_, ?_, ?_, ?_, ?_, ?_, ?_, ?_, ?_⟩
    · decide +kernel
    · decide +kernel
    · decide +kernel
    · decide +kernel
    · decide +kernel
    · decide +kernel
    · decide +kernel
    · decide +kernel
    · decide +kernel
  · try dsimp only
    refine ⟨?_, ?_, ?_, ?_, ?_, ?_, ?_⟩
    · decide +kernel
    · decide +kernel
    · decide +kernel
    · decide +kernel
    · decide +kernel
    · decide +kernel
    · decide +kernel
  · try dsimp only
    refine ⟨?_, ?_, ?_, ?_, ?_, ?_, ?_⟩
    · decide +kernel
    · decide +kernel
    · decide +kernel
    · decide +kernel
    · decide +kernel
    · decide +kernel
    · decide +kernel
  · try dsimp only
    refine ⟨?_, ?_, ?_, ?_, ?_, ?_, ?_, ?_⟩
    · decide +kernel
    · decide +kernel
    · decide +kernel
    · decide +kernel
    · decide +kernel
    · decide +kernel
    · decide +kernel
    · decide +kernel
  · try dsimp only
    refine ⟨?_, ?_⟩
    · decide +kernel
    · decide +kernel
  · try dsimp only
    refine ⟨?_, ?_, ?_⟩
    · decide +kernel
    · decide +kernel
    · decide +kernel
  · refine ⟨by decide +kernel, by decide +kernel, by decide +kernel, by decide +kernel, by decide +kernel, by decide +kernel, by decide +kernel, ?_⟩
    dsimp only
    rw [devCode_high _ _ _ _ _ _ (by decide +kernel), senAcc_high _ _ _ _ _ _ (by decide +kernel) (by decide +kernel)]
    decide +kernel
  · refine ⟨by decide +kernel, by decide +kernel, by decide +kernel, by decide +kernel, by decide +kernel, by decide +kernel, by decide +kernel, ?_⟩
    dsimp only
    rw [devCode_high _ _ _ _ _ _ (by decide +kernel), senAcc_high _ _ _ _ _ _ (by decide +kernel) (by decide +kernel)]
    decide +kernel
  · try dsimp only
    refine ⟨?_, ?_, ?_, ?_, ?_, ?_, ?_, ?_, ?_⟩
    · decide +kernel
    · decide +kernel
    · decide +kernel
    · decide +kernel
    · decide +kernel
    · decide +kernel
    · decide +kernel
    · decide +kernel
    · decide +kernel
  · try dsimp only
    refine ⟨?_, ?_, ?_, ?_, ?_, ?_, ?_, ?_, ?_⟩
    · decide +kernel
    · decide +kernel
    · decide +kernel
    · decide +kernel
    · decide +kernel
    · decide +kernel
    · decide +kernel
    · decide +kernel
    · decide +kernel
  · try dsimp only
    refine ⟨?_, ?_, ?_, ?_, ?_, ?_, ?_, ?_⟩
    · decide +kernel
    · decide +kernel
    · decide +kernel
    · decide +kernel
    · decide +kernel
    · decide +kernel
    · decide +kernel
    · decide +kernel
  · try dsimp only
    refine ⟨?_, ?_, ?_, ?_, ?_, ?_, ?_, ?_, ?_⟩
    · decide +kernel
    · decide +kernel
    · decide +kernel
    · decide +kernel
    · decide +kernel
    · decide +kernel
    · decide +kernel
    · decide +kernel
    · decide +kernel
  · try dsimp only
    refine ⟨?_, ?_, ?_, ?_, ?_, ?_, ?_, ?_⟩
    · decide +kernel
    · decide +kernel
    · decide +kernel
    · decide +kernel
    · decide +kernel
    · decide +kernel
    · decide +kernel
    · decide +kernel
  · try dsimp only
    refine ⟨?_, ?_, ?_, ?_, ?_, ?_, ?_, ?_⟩
    · decide +kernel
    · decide +kernel
    · decide +kernel
    · decide +kernel
    · decide +kernel
    · decide +kernel
    · decide +kernel
    · decide +kernel
  · refine ⟨by decide +kernel, by decide +kernel, by decide +kernel, by decide +kernel, by decide +kernel, by decide +kernel, ?_⟩
    dsimp only
    rw [devCode_high _ _ _ _ _ _ (by decide +kernel), senAcc_high _ _ _ _ _ _ (by decide +kernel) (by decide +kernel)]
    decide +kernel
  · refine ⟨by decide +kernel, by decide +kernel, by decide +kernel, by decide +kernel, by decide +kernel, by decide +kernel, ?_⟩
    dsimp only
    rw [devCode_high _ _ _ _ _ _ (by decide +kernel), senAcc_high _ _ _ _ _ _ (by decide +kernel) (by decide +kernel)]
    decide +kernel
  · try dsimp only
    refine ⟨?_, ?_, ?_, ?_, ?_, ?_, ?_⟩
    · decide +kernel
    · decide +kernel
    · decide +kernel
    · decide +kernel
    · decide +kernel
    · decide +kernel
    · decide +kernel
  · try dsimp only
    refine ⟨?_, ?_, ?_, ?_, ?_, ?_, ?_⟩
    · decide +kernel
    · decide +kernel
    · decide +kernel
    · decide +kernel
    · decide +kernel
    · decide +kernel
    · decide +kernel
  · try dsimp only
    refine ⟨?_, ?_, ?_, ?_, ?_, ?_, ?_⟩
    · decide +kernel
    · decide +kernel
    · decide +kernel
    · decide +kernel
    · decide +kernel
    · decide +kernel
    · decide +kernel
  · try dsimp only
    refine ⟨?_, ?_, ?_, ?_, ?_, ?_, ?_⟩
    · decide +kernel
    · decide +kernel
    · decide +kernel
    · decide +kernel
    · decide +kernel
    · decide +kernel
    · decide +kernel
  · try dsimp only
    refine ⟨?_, ?_, ?_, ?_, ?_, ?_, ?_, ?_, ?_, ?_, ?_, ?_, ?_⟩
    · decide +kernel
    · decide +kernel
    · decide +kernel
    · decide +kernel
    · decide +kernel
    · decide +kernel
    · decide +kernel
    · decide +kernel
    · decide +kernel
    · decide +kernel
    · decide +kernel
    · decide +kernel
    · decide +kernel
  · try dsimp only
    refine ⟨?_, ?_, ?_⟩
    · decide +kernel
    · decide +kernel
    · decide +kernel
  · try dsimp only
    refine ⟨?_, ?_, ?_, ?_, ?_⟩
    · decide +kernel
    · decide +kernel
    · decide +kernel
    · decide +kernel
    · decide +kernel
  · try dsimp only
    refine ⟨?_, ?_, ?_, ?_, ?_⟩
    · decide +kernel
    · decide +kernel
    · decide +kernel
    · decide +kernel
    · decide +kernel
  · try dsimp only
    refine ⟨?_, ?_, ?_, ?_, ?_, ?_⟩
    · decide +kernel
    · decide +kernel
    · decide +kernel
    · decide +kernel
    · decide +kernel
    · decide +kernel
  · try dsimp only
    refine ⟨?_, ?_, ?_, ?_, ?_, ?_, ?_, ?_, ?_⟩
    · decide +kernel
    · decide +kernel
    · decide +kernel
    · decide +kernel
    · decide +kernel
    · decide +kernel
    · decide +kernel
    · decide +kernel
    · decide +kernel
  · try dsimp only
    refine ⟨?_, ?_, ?_, ?_, ?_, ?_, ?_⟩
    · decide +kernel
    · decide +kernel
    · decide +kernel
    · decide +kernel
    · decide +kernel
    · decide +kernel
    · decide +kernel
  · try dsimp only
    refine ⟨?_, ?_, ?_, ?_⟩
    · decide +kernel
    · decide +kernel
    · decide +kernel
    · decide +kernel
  · try dsimp only
    refine ⟨?_, ?_, ?_, ?_⟩
    · decide +kernel
    · decide +kernel
    · decide +kernel
    · decide +kernel
  · try dsimp only
    refine ⟨?_, ?_, ?_⟩
    · decide +kernel
    · decide +kernel
    · decide +kernel
  · try dsimp only
    refine ⟨?_, ?_⟩
    · decide +kernel
    · decide +kernel
  · try dsimp only
    refine ⟨?_, ?_⟩
    · decide +kernel
    · decide +kernel
  · try dsimp only
    refine ⟨?_, ?_⟩
    · decide +kernel
    · decide +kernel

/-- What SlotDefine asks of a state and of operands is met, case by case. -/
theorem witness_SlotDefine :
    (let m : Mst := fw;
     let c : Nat := 63;
     let p : Nat := 3;
     let code : Nat := 0;
     let phase : Nat := 0;
     let s : State := stOf ((on 63).setRegN (slotReg 255 .SLOT_FOOT) (2 ^ 63));
     m.oid = 0 ∧
     let sl := slotId c p;
     let r := s.d.defineCheck sl code phase;
     r.1 = .ok) ∧
    (let m : Mst := fw;
     let c : Nat := 63;
     let p : Nat := 3;
     let code : Nat := 3;
     let phase : Nat := 0;
     let s : State := State.reset;
     m.oid = 0 ∧
     let sl := slotId c p;
     let r := s.d.defineCheck sl code phase;
     r.1 ≠ .ok) ∧
    (let m : Mst := fw;
     let c : Nat := 63;
     let p : Nat := 3;
     let s : State := stOf ((Dev.reset).setCtl 255 { SlotCtl.zero with busy := .molting });
     m.oid = 0 ∧
     let sl := slotId c p;
     p < 4 ∧ (s.d.slotBusy sl = true ∨ s.d.sweeping sl = true ∨ s.d.loadRuns sl = true)) ∧
    (let c : Nat := 63;
     let p : Nat := 3;
     let code : Nat := 4;
     let phase : Nat := 3;
     let s : State := stOf (((on 63).setRegN (slotReg 255 .SLOT_FOOT) (2 ^ 63)).setCtl 255 { SlotCtl.zero with busy := .defining 4 3 });
     let sl := slotId c p;
     (s.d.ctl sl).busy = .defining code phase ∧ (∀ x, x ∈ s.d.footprint sl → s.d.cluReady x = true)) ∧
    (let c : Nat := 63;
     let p : Nat := 3;
     let code : Nat := 4;
     let phase : Nat := 3;
     let x : Nat := 63;
     let s : State := stOf (((on 63 (2 ^ 29)).setRegN (slotReg 255 .SLOT_FOOT) (2 ^ 63)).setCtl 255
       { SlotCtl.zero with busy := .defining 4 3 });
     let sl := slotId c p;
     (s.d.ctl sl).busy = .defining code phase ∧ (s.d.footprint sl).find? (fun x => !s.d.cluReady x) = some x) ∧
    (let c : Nat := 63;
     let p : Nat := 3;
     let s : State := State.reset;
     let sl := slotId c p;
     (∀ code phase, (s.d.ctl sl).busy ≠ .defining code phase)) ∧
    (let m : Mst := fw;
     let c : Nat := 63;
     let p : Nat := 3;
     let s : State := stOf (slot255 stStopped);
     m.oid = 0 ∧
     let sl := slotId c p;
     let runs := s.d.slotBusy sl = true ∨ s.d.loadRuns sl = true;
     let still := s.d.cmdState sl = stStopped ∨ s.d.cmdState sl = stTadpole;
     ¬ runs ∧ still) ∧
    (let m : Mst := fw;
     let c : Nat := 63;
     let p : Nat := 3;
     let s : State := State.reset;
     m.oid = 0 ∧
     let sl := slotId c p;
     let runs := s.d.slotBusy sl = true ∨ s.d.loadRuns sl = true;
     let still := s.d.cmdState sl = stStopped ∨ s.d.cmdState sl = stTadpole;
     ¬ runs ∧ ¬ still) ∧
    (let m : Mst := fw;
     let c : Nat := 63;
     let p : Nat := 3;
     let s : State := stOf ((Dev.reset).setCtl 255 { SlotCtl.zero with busy := .molting });
     m.oid = 0 ∧
     let sl := slotId c p;
     let runs := s.d.slotBusy sl = true ∨ s.d.loadRuns sl = true;
     runs) ∧
    (let m : Mst := fw;
     let c : Nat := 63;
     let p : Nat := 3;
     let s : State := State.reset;
     m.oid = 0 ∧
     let sl := slotId c p;
     let runs := s.d.slotBusy sl = true ∨ s.d.loadRuns sl = true;
     ¬ runs) ∧
    (let m : Mst := fw;
     let c : Nat := 63;
     let p : Nat := 3;
     let s : State := stOf ((Dev.reset).setCtl 255 { SlotCtl.zero with busy := .molting });
     m.oid = 0 ∧
     let sl := slotId c p;
     let runs := s.d.slotBusy sl = true ∨ s.d.loadRuns sl = true;
     runs) := by
  refine ⟨?_, ?_, ?_, ?_, ?_, ?_, ?_, ?_, ?_, ?_, ?_⟩
  · try dsimp only
    refine ⟨?_, ?_⟩
    · decide +kernel
    · decide +kernel
  · try dsimp only
    refine ⟨?_, ?_⟩
    · decide +kernel
    · decide +kernel
  · try dsimp only
    refine ⟨?_, ?_, ?_⟩
    · decide +kernel
    · decide +kernel
    · decide +kernel
  · try dsimp only
    refine ⟨?_, ?_⟩
    · decide +kernel
    · decide +kernel
  · try dsimp only
    refine ⟨?_, ?_⟩
    · decide +kernel
    · decide +kernel
  · intro c p s sl code phase h
    cases h
  · try dsimp only
    refine ⟨?_, ?_, ?_⟩
    · decide +kernel
    · decide +kernel
    · decide +kernel
  · try dsimp only
    refine ⟨?_, ?_, ?_⟩
    · decide +kernel
    · decide +kernel
    · decide +kernel
  · try dsimp only
    refine ⟨?_, ?_⟩
    · decide +kernel
    · decide +kernel
  · try dsimp only
    refine ⟨?_, ?_⟩
    · decide +kernel
    · decide +kernel
  · try dsimp only
    refine ⟨?_, ?_⟩
    · decide +kernel
    · decide +kernel

/-- What SlotRun asks of a state and of operands is met, case by case. -/
theorem witness_SlotRun :
    (let m : Mst := fw;
     let c : Nat := 63;
     let p : Nat := 3;
     let s : State := stOf ((slot255 stTadpole).setRegN (slotReg 255 .SLOT_FRAME) 65535);
     m.oid = 0 ∧
     let sl := slotId c p;
     let runs := s.d.slotBusy sl = true ∨ s.d.sweeping sl = true ∨ s.d.loadRuns sl = true;
     let r := s.d.startCheck sl;
     ¬ runs ∧ s.d.cmdState sl = stTadpole ∧ r.1 = .ok) ∧
    (let m : Mst := fw;
     let c : Nat := 63;
     let p : Nat := 3;
     let s : State := stOf (slot255 stTadpole);
     m.oid = 0 ∧
     let sl := slotId c p;
     let runs := s.d.slotBusy sl = true ∨ s.d.sweeping sl = true ∨ s.d.loadRuns sl = true;
     let r := s.d.startCheck sl;
     ¬ runs ∧ s.d.cmdState sl = stTadpole ∧ r.1 ≠ .ok) ∧
    (let m : Mst := fw;
     let c : Nat := 63;
     let p : Nat := 3;
     let s : State := State.reset;
     m.oid = 0 ∧
     let sl := slotId c p;
     let runs := s.d.slotBusy sl = true ∨ s.d.sweeping sl = true ∨ s.d.loadRuns sl = true;
     ¬ runs ∧ s.d.cmdState sl ≠ stTadpole) ∧
    (let m : Mst := fw;
     let c : Nat := 63;
     let p : Nat := 3;
     let s : State := stOf ((Dev.reset).setCtl 255 { SlotCtl.zero with busy := .molting });
     m.oid = 0 ∧
     let sl := slotId c p;
     let runs := s.d.slotBusy sl = true ∨ s.d.sweeping sl = true ∨ s.d.loadRuns sl = true;
     runs) ∧
    (let c : Nat := 63;
     let p : Nat := 3;
     let s : State := stOf ((Dev.reset).setCtl 255 { SlotCtl.zero with busy := .starting });
     let sl := slotId c p;
     let due := (s.d.ctl sl).busy = .starting ∧ (s.d.ctl sl).wait = 0;
     due) ∧
    (let c : Nat := 63;
     let p : Nat := 3;
     let s : State := State.reset;
     let sl := slotId c p;
     let due := (s.d.ctl sl).busy = .starting ∧ (s.d.ctl sl).wait = 0;
     ¬ due) ∧
    (let m : Mst := fw;
     let c : Nat := 63;
     let p : Nat := 3;
     let s : State := stOf ((Dev.reset).setCtl 255 { SlotCtl.zero with busy := .undefining });
     m.oid = 0 ∧
     let sl := slotId c p;
     s.d.stopsNothing sl = true) ∧
    (let m : Mst := fw;
     let c : Nat := 63;
     let p : Nat := 3;
     let s : State := stOf ((Dev.reset).setCtl 255 { SlotCtl.zero with busy := .starting });
     m.oid = 0 ∧
     let sl := slotId c p;
     (s.d.ctl sl).busy = .starting) ∧
    (let m : Mst := fw;
     let c : Nat := 63;
     let p : Nat := 3;
     let s : State := stOf (slot255 stLive);
     m.oid = 0 ∧
     let sl := slotId c p;
     let st := s.d.cmdState sl;
     (s.d.ctl sl).busy = .idle ∧ st = stLive) ∧
    (let m : Mst := fw;
     let c : Nat := 63;
     let p : Nat := 3;
     let s : State := stOf (slot255 stStopping);
     m.oid = 0 ∧
     let sl := slotId c p;
     let st := s.d.cmdState sl;
     (s.d.ctl sl).busy = .idle ∧ st = stStopping) ∧
    (let m : Mst := fw;
     let c : Nat := 63;
     let p : Nat := 3;
     let s : State := stOf (slot255 stPaused);
     m.oid = 0 ∧
     let sl := slotId c p;
     let st := s.d.cmdState sl;
     (s.d.ctl sl).busy = .idle ∧ st = stPaused) ∧
    (let m : Mst := fw;
     let c : Nat := 63;
     let p : Nat := 3;
     let s : State := State.reset;
     m.oid = 0 ∧
     let sl := slotId c p;
     let st := s.d.cmdState sl;
     (s.d.ctl sl).busy = .idle ∧ st ≠ stLive ∧ st ≠ stStopping ∧ st ≠ stPaused) ∧
    (let m : Mst := fw;
     let c : Nat := 63;
     let p : Nat := 3;
     let s : State := stOf (slot255 stPaused);
     m.oid = 0 ∧
     let sl := slotId c p;
     let st := s.d.cmdState sl;
     let busy := s.d.slotBusy sl = true ∨ st = stPaused ∨ s.d.loadRuns sl = true;
     busy) ∧
    (let m : Mst := fw;
     let c : Nat := 63;
     let p : Nat := 3;
     let s : State := stOf (slot255 stStopping);
     m.oid = 0 ∧
     let sl := slotId c p;
     let st := s.d.cmdState sl;
     let busy := s.d.slotBusy sl = true ∨ st = stPaused ∨ s.d.loadRuns sl = true;
     let runs := st = stLive ∨ st = stStopping;
     ¬ busy ∧ runs) ∧
    (let m : Mst := fw;
     let c : Nat := 63;
     let p : Nat := 3;
     let s : State := stOf (slot255 stTadpole);
     m.oid = 0 ∧
     let sl := slotId c p;
     let st := s.d.cmdState sl;
     let busy := s.d.slotBusy sl = true ∨ st = stPaused ∨ s.d.loadRuns sl = true;
     let still := st = stStopped ∨ st = stTadpole;
     ¬ busy ∧ still) ∧
    (let m : Mst := fw;
     let c : Nat := 63;
     let p : Nat := 3;
     let s : State := State.reset;
     m.oid = 0 ∧
     let sl := slotId c p;
     let st := s.d.cmdState sl;
     let busy := s.d.slotBusy sl = true ∨ st = stPaused ∨ s.d.loadRuns sl = true;
     let still := st = stStopped ∨ st = stTadpole;
     let runs := st = stLive ∨ st = stStopping;
     ¬ busy ∧ ¬ runs ∧ ¬ still) ∧
    (let c : Nat := 63;
     let p : Nat := 3;
     let s : State := stOf (slot255 stMolting);
     let sl := slotId c p;
     let due := s.d.slotState sl = stMolting ∧ s.d.slotInFlight sl = false;
     due ∧ (s.d.ctl sl).busy ≠ .undefining) ∧
    (let c : Nat := 63;
     let p : Nat := 3;
     let s : State := stOf ((slot255 stMolting).setCtl 255 { SlotCtl.zero with busy := .undefining });
     let sl := slotId c p;
     let due := s.d.slotState sl = stMolting ∧ s.d.slotInFlight sl = false;
     due ∧ (s.d.ctl sl).busy = .undefining) ∧
    (let c : Nat := 63;
     let p : Nat := 3;
     let s : State := State.reset;
     let sl := slotId c p;
     let due := s.d.slotState sl = stMolting ∧ s.d.slotInFlight sl = false;
     ¬ due) ∧
    (let c : Nat := 63;
     let p : Nat := 3;
     let s : State := stOf (Dev.reset.setBit (slotReg 255 .SLOT_STAT) 30 true);
     let sl := slotId c p;
     s.d.sweeping sl = true) ∧
    (let c : Nat := 63;
     let p : Nat := 3;
     let s : State := State.reset;
     let sl := slotId c p;
     s.d.sweeping sl = false) ∧
    (let slot : Nat := 255;
     let s : State := stOf ((slot255 stLive).setReg (R.DSP_SLOT.at 3 63) (BitVec.ofNat 64 (2 ^ 63))) (⟨0, 0, 0, true, false, 0⟩);
     let due := s.clk.runs = true ∧ s.clk.cyc = 0 ∧ s.d.admits slot s.clk.dtime = true;
     due) ∧
    (let slot : Nat := 255;
     let s : State := State.reset;
     let due := s.clk.runs = true ∧ s.clk.cyc = 0 ∧ s.d.admits slot s.clk.dtime = true;
     ¬ due) := by
  refine ⟨?_, ?_, ?_, ?_, ?_, ?_, ?_, ?_, ?_, ?_, ?_, ?_, ?_, ?_, ?_, ?_, ?_, ?_, ?_, ?_, ?_, ?_, ?_⟩
  · try dsimp only
    refine ⟨?_, ?_, ?_, ?_⟩
    · decide +kernel
    · decide +kernel
    · decide +kernel
    · decide +kernel
  · try dsimp only
    refine ⟨?_, ?_, ?_, ?_⟩
    · decide +kernel
    · decide +kernel
    · decide +kernel
    · decide +kernel
  · try dsimp only
    refine ⟨?_, ?_, ?_⟩
    · decide +kernel
    · decide +kernel
    · decide +kernel
  · try dsimp only
    refine ⟨?_, ?_⟩
    · decide +kernel
    · decide +kernel
  · try dsimp only
    decide +kernel
  · try dsimp only
    decide +kernel
  · try dsimp only
    refine ⟨?_, ?_⟩
    · decide +kernel
    · decide +kernel
  · try dsimp only
    refine ⟨?_, ?_⟩
    · decide +kernel
    · decide +kernel
  · try dsimp only
    refine ⟨?_, ?_, ?_⟩
    · decide +kernel
    · decide +kernel
    · decide +kernel
  · try dsimp only
    refine ⟨?_, ?_, ?_⟩
    · decide +kernel
    · decide +kernel
    · decide +kernel
  · try dsimp only
    refine ⟨?_, ?_, ?_⟩
    · decide +kernel
    · decide +kernel
    · decide +kernel
  · try dsimp only
    refine ⟨?_, ?_, ?_, ?_, ?_⟩
    · decide +kernel
    · decide +kernel
    · decide +kernel
    · decide +kernel
    · decide +kernel
  · try dsimp only
    refine ⟨?_, ?_⟩
    · decide +kernel
    · decide +kernel
  · try dsimp only
    refine ⟨?_, ?_, ?_⟩
    · decide +kernel
    · decide +kernel
    · decide +kernel
  · try dsimp only
    refine ⟨?_, ?_, ?_⟩
    · decide +kernel
    · decide +kernel
    · decide +kernel
  · try dsimp only
    refine ⟨?_, ?_, ?_, ?_⟩
    · decide +kernel
    · decide +kernel
    · decide +kernel
    · decide +kernel
  · try dsimp only
    refine ⟨?_, ?_⟩
    · decide +kernel
    · decide +kernel
  · try dsimp only
    refine ⟨?_, ?_⟩
    · decide +kernel
    · decide +kernel
  · try dsimp only
    decide +kernel
  · try dsimp only
    decide +kernel
  · try dsimp only
    decide +kernel
  · try dsimp only
    decide +kernel
  · try dsimp only
    decide +kernel

/-- What SlotRegisters asks of a state and of operands is met, case by case. -/
theorem witness_SlotRegisters :
    (let m : Mst := fw;
     let c : Nat := 63;
     let p : Nat := 3;
     let s : State := stOf (slot255 stUndefined);
     m.oid = 0 ∧
     let sl := slotId c p;
     let free := s.d.anchored sl = true ∧ s.d.slotLive sl = false;
     let still := s.d.slotState sl = stUndefined ∧ s.d.slotBusy sl = false ∧ s.d.loadRuns sl = false;
     free ∧ still) ∧
    (let m : Mst := fw;
     let c : Nat := 63;
     let p : Nat := 3;
     let s : State := stOf (slot255 stStopped);
     m.oid = 0 ∧
     let sl := slotId c p;
     let free := s.d.anchored sl = true ∧ s.d.slotLive sl = false;
     let still := s.d.slotState sl = stUndefined ∧ s.d.slotBusy sl = false ∧ s.d.loadRuns sl = false;
     ¬ (free ∧ still)) ∧
    (let m : Mst := fw;
     let c : Nat := 63;
     let p : Nat := 3;
     let s : State := stOf (slot255 stUndefined);
     m.oid = 0 ∧
     let sl := slotId c p;
     let free := s.d.anchored sl = true ∧ s.d.slotLive sl = false;
     free) ∧
    (let m : Mst := fw;
     let c : Nat := 63;
     let p : Nat := 3;
     let s : State := stOf (slot255 stLive);
     m.oid = 0 ∧
     let sl := slotId c p;
     let free := s.d.anchored sl = true ∧ s.d.slotLive sl = false;
     ¬ free) ∧
    (let m : Mst := fw;
     let c : Nat := 63;
     let p : Nat := 3;
     let v : Nat := 65535;
     let s : State := stOf (slot255 stUndefined);
     m.oid = 0 ∧
     let sl := slotId c p;
     let free := s.d.anchored sl = true ∧ s.d.slotLive sl = false;
     let fits := bitsOf v 31 16 + bitsOf v 47 32 ≤ bitsOf v 15 0;
     free ∧ fits) ∧
    (let m : Mst := fw;
     let c : Nat := 63;
     let p : Nat := 3;
     let v : Nat := 2 ^ 16;
     let s : State := stOf (slot255 stUndefined);
     m.oid = 0 ∧
     let sl := slotId c p;
     let free := s.d.anchored sl = true ∧ s.d.slotLive sl = false;
     let fits := bitsOf v 31 16 + bitsOf v 47 32 ≤ bitsOf v 15 0;
     ¬ (free ∧ fits)) ∧
    (let m : Mst := fw;
     let c : Nat := 63;
     let p : Nat := 3;
     let s : State := stOf (slot255 stUndefined);
     m.oid = 0 ∧
     let sl := slotId c p;
     let free := s.d.anchored sl = true ∧ s.d.slotLive sl = false;
     free) ∧
    (let m : Mst := fw;
     let c : Nat := 63;
     let p : Nat := 3;
     let s : State := stOf (slot255 stLive);
     m.oid = 0 ∧
     let sl := slotId c p;
     let free := s.d.anchored sl = true ∧ s.d.slotLive sl = false;
     ¬ free) ∧
    (let m : Mst := fw;
     let c : Nat := 63;
     let p : Nat := 3;
     let s : State := stOf (slot255 stUndefined);
     m.oid = 0 ∧
     let free := s.d.posValid c p = true ∧ s.d.posLive c p = false;
     free) ∧
    (let m : Mst := fw;
     let c : Nat := 63;
     let p : Nat := 3;
     let s : State := stOf (slot255 stLive);
     m.oid = 0 ∧
     let free := s.d.posValid c p = true ∧ s.d.posLive c p = false;
     ¬ free) ∧
    (let m : Mst := fw;
     let c : Nat := 63;
     let n : Nat := 15;
     let v : Nat := 2 ^ 63 + 512;
     let s : State := stOf (on 63);
     m.oid = 0 ∧
     let x := cluReg c .VP_CFG n;
     let w := BitVec.ofNat 64 (v &&& 0xF03F0100000003FF);
     let old := s.d.reg x;
     let fits := s.d.bindLive c old = false ∧ s.d.bindLive c w = false ∧ getBits w 9 0 ≤ 512 ∧ (w.getLsbD 63 = true → s.d.tpTaken c w x =
       false ∧ s.d.cluState c ≠ 2);
     let emptied := old.getLsbD 63 = true ∧ w ≠ old;
     fits ∧ ¬ emptied) ∧
    (let m : Mst := fw;
     let c : Nat := 63;
     let n : Nat := 15;
     let v : Nat := 0;
     let s : State := stOf ((Dev.reset.setReg (cluReg 63 .VP_CFG 15) (BitVec.ofNat 64 (2 ^ 63))));
     m.oid = 0 ∧
     let x := cluReg c .VP_CFG n;
     let w := BitVec.ofNat 64 (v &&& 0xF03F0100000003FF);
     let old := s.d.reg x;
     let fits := s.d.bindLive c old = false ∧ s.d.bindLive c w = false ∧ getBits w 9 0 ≤ 512 ∧ (w.getLsbD 63 = true → s.d.tpTaken c w x =
       false ∧ s.d.cluState c ≠ 2);
     let emptied := old.getLsbD 63 = true ∧ w ≠ old;
     fits ∧ emptied) ∧
    (let m : Mst := fw;
     let c : Nat := 63;
     let n : Nat := 15;
     let v : Nat := 513;
     let s : State := State.reset;
     m.oid = 0 ∧
     let x := cluReg c .VP_CFG n;
     let w := BitVec.ofNat 64 (v &&& 0xF03F0100000003FF);
     let old := s.d.reg x;
     let fits := s.d.bindLive c old = false ∧ s.d.bindLive c w = false ∧ getBits w 9 0 ≤ 512 ∧ (w.getLsbD 63 = true → s.d.tpTaken c w x =
       false ∧ s.d.cluState c ≠ 2);
     ¬ fits) ∧
    (let m : Mst := fw;
     let c : Nat := leapTo 255;
     let i : Nat := 7;
     let v : Nat := 0;
     let s : State := State.reset;
     m.oid = 0 ∧
     let x := cluReg c .LPB i;
     let w := BitVec.ofNat 64 (v &&& 0xF03F01020000001F);
     let old := s.d.reg x;
     let fits := s.d.bindLive c old = false ∧ s.d.bindLive c w = false ∧ (w.getLsbD 63 = true → s.d.tpTaken c w x = false ∧ leapReach c w =
       true ∧ s.d.leapTaken c w x = false ∧ s.d.cluState c ≠ 2);
     let was := old.getLsbD 63 = true;
     let is := w.getLsbD 63 = true;
     fits ∧ (w = old ∨ ¬ was) ∧ (w = old ∨ ¬ is)) ∧
    (let m : Mst := fw;
     let c : Nat := leapTo 255;
     let i : Nat := 7;
     let v : Nat := 2 ^ 63 + brSel 3 * 2 ^ 33 + 31;
     let s : State := stOf (on (leapTo 255));
     m.oid = 0 ∧
     let x := cluReg c .LPB i;
     let w := BitVec.ofNat 64 (v &&& 0xF03F01020000001F);
     let old := s.d.reg x;
     let fits := s.d.bindLive c old = false ∧ s.d.bindLive c w = false ∧ (w.getLsbD 63 = true → s.d.tpTaken c w x = false ∧ leapReach c w =
       true ∧ s.d.leapTaken c w x = false ∧ s.d.cluState c ≠ 2);
     let was := old.getLsbD 63 = true;
     let is := w.getLsbD 63 = true;
     fits ∧ w ≠ old ∧ ¬ was ∧ is) ∧
    (let m : Mst := fw;
     let c : Nat := leapTo 255;
     let i : Nat := 7;
     let v : Nat := 0;
     let s : State := stOf ((Dev.reset.setReg (cluReg (leapTo 255) .LPB 7) (BitVec.ofNat 64 (2 ^ 63 + brSel 3 * 2 ^ 33 + 31))));
     m.oid = 0 ∧
     let x := cluReg c .LPB i;
     let w := BitVec.ofNat 64 (v &&& 0xF03F01020000001F);
     let old := s.d.reg x;
     let fits := s.d.bindLive c old = false ∧ s.d.bindLive c w = false ∧ (w.getLsbD 63 = true → s.d.tpTaken c w x = false ∧ leapReach c w =
       true ∧ s.d.leapTaken c w x = false ∧ s.d.cluState c ≠ 2);
     let was := old.getLsbD 63 = true;
     let is := w.getLsbD 63 = true;
     fits ∧ w ≠ old ∧ was ∧ ¬ is) ∧
    (let m : Mst := fw;
     let c : Nat := leapTo 255;
     let i : Nat := 7;
     let v : Nat := 2 ^ 63 + brSel 3 * 2 ^ 33 + 31 + 2 ^ 48;
     let s : State := stOf (((on (leapTo 255)).setReg (cluReg (leapTo 255) .LPB 7) (BitVec.ofNat 64 (2 ^ 63 + brSel 3 * 2 ^ 33 + 31))));
     m.oid = 0 ∧
     let x := cluReg c .LPB i;
     let w := BitVec.ofNat 64 (v &&& 0xF03F01020000001F);
     let old := s.d.reg x;
     let fits := s.d.bindLive c old = false ∧ s.d.bindLive c w = false ∧ (w.getLsbD 63 = true → s.d.tpTaken c w x = false ∧ leapReach c w =
       true ∧ s.d.leapTaken c w x = false ∧ s.d.cluState c ≠ 2);
     let was := old.getLsbD 63 = true;
     let is := w.getLsbD 63 = true;
     fits ∧ w ≠ old ∧ was ∧ is) ∧
    (let m : Mst := fw;
     let c : Nat := 0;
     let i : Nat := 7;
     let v : Nat := 2 ^ 63 + 31;
     let s : State := State.reset;
     m.oid = 0 ∧
     let x := cluReg c .LPB i;
     let w := BitVec.ofNat 64 (v &&& 0xF03F01020000001F);
     let old := s.d.reg x;
     let fits := s.d.bindLive c old = false ∧ s.d.bindLive c w = false ∧ (w.getLsbD 63 = true → s.d.tpTaken c w x = false ∧ leapReach c w =
       true ∧ s.d.leapTaken c w x = false ∧ s.d.cluState c ≠ 2);
     ¬ fits) := by
  refine ⟨?_, ?_, ?_, ?_, ?_, ?_, ?_, ?_, ?_, ?_, ?_, ?_, ?_, ?_, ?_, ?_, ?_, ?_⟩
  · try dsimp only
    refine ⟨?_, ?_, ?_⟩
    · decide +kernel
    · decide +kernel
    · decide +kernel
  · try dsimp only
    refine ⟨?_, ?_⟩
    · decide +kernel
    · decide +kernel
  · try dsimp only
    refine ⟨?_, ?_⟩
    · decide +kernel
    · decide +kernel
  · try dsimp only
    refine ⟨?_, ?_⟩
    · decide +kernel
    · decide +kernel
  · try dsimp only
    refine ⟨?_, ?_, ?_⟩
    · decide +kernel
    · decide +kernel
    · decide +kernel
  · try dsimp only
    refine ⟨?_, ?_⟩
    · decide +kernel
    · decide +kernel
  · try dsimp only
    refine ⟨?_, ?_⟩
    · decide +kernel
    · decide +kernel
  · try dsimp only
    refine ⟨?_, ?_⟩
    · decide +kernel
    · decide +kernel
  · try dsimp only
    refine ⟨?_, ?_⟩
    · decide +kernel
    · decide +kernel
  · try dsimp only
    refine ⟨?_, ?_⟩
    · decide +kernel
    · decide +kernel
  · try dsimp only
    refine ⟨?_, ?_, ?_⟩
    · decide +kernel
    · decide +kernel
    · decide +kernel
  · try dsimp only
    refine ⟨?_, ?_, ?_⟩
    · decide +kernel
    · decide +kernel
    · decide +kernel
  · try dsimp only
    refine ⟨?_, ?_⟩
    · decide +kernel
    · decide +kernel
  · try dsimp only
    refine ⟨?_, ?_, ?_, ?_⟩
    · decide +kernel
    · decide +kernel
    · decide +kernel
    · decide +kernel
  · try dsimp only
    refine ⟨?_, ?_, ?_, ?_, ?_⟩
    · decide +kernel
    · decide +kernel
    · decide +kernel
    · decide +kernel
    · decide +kernel
  · try dsimp only
    refine ⟨?_, ?_, ?_, ?_, ?_⟩
    · decide +kernel
    · decide +kernel
    · decide +kernel
    · decide +kernel
    · decide +kernel
  · try dsimp only
    refine ⟨?_, ?_, ?_, ?_, ?_⟩
    · decide +kernel
    · decide +kernel
    · decide +kernel
    · decide +kernel
    · decide +kernel
  · try dsimp only
    refine ⟨?_, ?_⟩
    · decide +kernel
    · decide +kernel

/-- What Regrowth asks of a state and of operands is met, case by case. -/
theorem witness_Regrowth :
    (let m : Mst := fw;
     let col : Nat := 8;
     m.oid = 0 ∧ 7 < col) ∧
    (let m : Mst := fw;
     let c : Nat := 63;
     let col : Nat := 7;
     let s : State := stOf (on 63 (2 ^ 30));
     m.oid = 0 ∧ col < 8 ∧ s.d.cluState c = 1) ∧
    (let m : Mst := fw;
     let c : Nat := 63;
     let col : Nat := 7;
     let s : State := stOf (on 63 (2 ^ 31));
     m.oid = 0 ∧ col < 8 ∧ s.d.cluState c ≠ 1 ∧ s.d.retired c = true) ∧
    (let m : Mst := fw;
     let c : Nat := 63;
     let col : Nat := 7;
     let s : State := stOf (on 63 (2 ^ 7));
     m.oid = 0 ∧
     let stat := s.d.reg (cluReg c .CLU_STAT);
     col < 8 ∧ s.d.cluState c ≠ 1 ∧ s.d.retired c = false ∧ stat.getLsbD 7 = true) ∧
    (let m : Mst := fw;
     let c : Nat := 63;
     let col : Nat := 7;
     let s : State := stOf (on 63);
     m.oid = 0 ∧
     let stat := s.d.reg (cluReg c .CLU_STAT);
     col < 8 ∧ s.d.cluState c ≠ 1 ∧ s.d.retired c = false ∧ stat.getLsbD 7 = false) ∧
    (let m : Mst := fw;
     let c : Nat := 63;
     let s : State := stOf (on 63 (2 ^ 30));
     m.oid = 0 ∧ s.d.cluState c = 1) ∧
    (let m : Mst := fw;
     let c : Nat := 63;
     let s : State := stOf (on 63 (2 ^ 31));
     m.oid = 0 ∧ s.d.cluState c ≠ 1 ∧ s.d.retired c = true) ∧
    (let m : Mst := fw;
     let c : Nat := 63;
     let s : State := stOf (on 63);
     m.oid = 0 ∧ s.d.cluState c ≠ 1 ∧ s.d.retired c = false) ∧
    (let slot : Nat := 255;
     let s : State := stOf (((slot255 stLive).setRegN (slotReg 255 .SLOT_FOOT) (2 ^ 63)).setRegrow 63 { Regrow.none with active := true });
     let due := s.clk.cyc = 0 ∧ s.d.slotState slot = stLive ∧ s.d.regrowing slot = true ∧ (s.d.frame slot).isOpen = false;
     due) ∧
    (let slot : Nat := 255;
     let s : State := State.reset;
     let due := s.clk.cyc = 0 ∧ s.d.slotState slot = stLive ∧ s.d.regrowing slot = true ∧ (s.d.frame slot).isOpen = false;
     ¬ due) ∧
    (let c : Nat := 63;
     let s : State := stOf ((on 63).setRegrow 63 { Regrow.none with active := true, col := 0 });
     let r := s.d.regrow c;
     let due := r.active = true ∧ r.updated = false ∧ ∀ x, x ∈ s.d.slotsIn c → s.d.slotLive x = false ∨ s.d.slotState x = stPaused;
     let col := 7 - r.copied;
     due ∧ col ≠ r.col) ∧
    (let c : Nat := 63;
     let s : State := stOf ((on 63).setRegrow 63 { Regrow.none with active := true, col := 7 });
     let r := s.d.regrow c;
     let due := r.active = true ∧ r.updated = false ∧ ∀ x, x ∈ s.d.slotsIn c → s.d.slotLive x = false ∨ s.d.slotState x = stPaused;
     let col := 7 - r.copied;
     due ∧ col = r.col) ∧
    (let c : Nat := 63;
     let s : State := State.reset;
     let r := s.d.regrow c;
     let due := r.active = true ∧ r.updated = false ∧ ∀ x, x ∈ s.d.slotsIn c → s.d.slotLive x = false ∨ s.d.slotState x = stPaused;
     ¬ due) ∧
    (let slot : Nat := 255;
     let s : State := stOf ((slot255 stPaused).setRegN (slotReg 255 .SLOT_FOOT) (2 ^ 63));
     let due := s.d.slotState slot = stPaused ∧ ∀ x, x ∈ s.d.footprint slot → (s.d.regrow x).active = false;
     due ∧ (s.d.ctl slot).resume = false) ∧
    (let slot : Nat := 255;
     let s : State := stOf (((slot255 stPaused).setRegN (slotReg 255 .SLOT_FOOT) (2 ^ 63)).setCtl 255 { SlotCtl.zero with resume := true });
     let due := s.d.slotState slot = stPaused ∧ ∀ x, x ∈ s.d.footprint slot → (s.d.regrow x).active = false;
     due ∧ (s.d.ctl slot).resume = true) ∧
    (let slot : Nat := 255;
     let s : State := State.reset;
     let due := s.d.slotState slot = stPaused ∧ ∀ x, x ∈ s.d.footprint slot → (s.d.regrow x).active = false;
     ¬ due) ∧
    (let c : Nat := 63;
     let s : State := stOf ({ Dev.reset with arr := { Dev.reset.arr with retiring := nset false [] 63 true } });
     let due := nget false s.d.arr.retiring c = true ∧ ∀ x, x ∈ s.d.slotsIn c → s.d.slotLive x = false ∧ s.d.slotInFlight x = false;
     due) ∧
    (let c : Nat := 63;
     let s : State := State.reset;
     let due := nget false s.d.arr.retiring c = true ∧ ∀ x, x ∈ s.d.slotsIn c → s.d.slotLive x = false ∧ s.d.slotInFlight x = false;
     ¬ due) := by
  refine ⟨?_, ?_, ?_, ?_, ?_, ?_, ?_, ?_, ?_, ?_, ?_, ?_, ?_, ?_, ?_, ?_, ?_, ?_⟩
  · try dsimp only
    refine ⟨?_, ?_⟩
    · decide +kernel
    · decide +kernel
  · try dsimp only
    refine ⟨?_, ?_, ?_⟩
    · decide +kernel
    · decide +kernel
    · decide +kernel
  · try dsimp only
    refine ⟨?_, ?_, ?_, ?_⟩
    · decide +kernel
    · decide +kernel
    · decide +kernel
    · decide +kernel
  · try dsimp only
    refine ⟨?_, ?_, ?_, ?_, ?_⟩
    · decide +kernel
    · decide +kernel
    · decide +kernel
    · decide +kernel
    · decide +kernel
  · try dsimp only
    refine ⟨?_, ?_, ?_, ?_, ?_⟩
    · decide +kernel
    · decide +kernel
    · decide +kernel
    · decide +kernel
    · decide +kernel
  · try dsimp only
    refine ⟨?_, ?_⟩
    · decide +kernel
    · decide +kernel
  · try dsimp only
    refine ⟨?_, ?_, ?_⟩
    · decide +kernel
    · decide +kernel
    · decide +kernel
  · try dsimp only
    refine ⟨?_, ?_, ?_⟩
    · decide +kernel
    · decide +kernel
    · decide +kernel
  · try dsimp only
    decide +kernel
  · try dsimp only
    decide +kernel
  · try dsimp only
    refine ⟨?_, ?_⟩
    · decide +kernel
    · decide +kernel
  · try dsimp only
    refine ⟨?_, ?_⟩
    · decide +kernel
    · decide +kernel
  · try dsimp only
    decide +kernel
  · try dsimp only
    refine ⟨?_, ?_⟩
    · decide +kernel
    · decide +kernel
  · try dsimp only
    refine ⟨?_, ?_⟩
    · decide +kernel
    · decide +kernel
  · try dsimp only
    decide +kernel
  · try dsimp only
    decide +kernel
  · try dsimp only
    decide +kernel

/-- What Loads asks of a state and of operands is met, case by case. -/
theorem witness_Loads :
    (let q : Nat := 3;
     let r : Nat := 4095;
     let c : Cmd := ⟨0, 0, 0x43 + 0 * 2 ^ 32, .fetched, 0, 0, [], [], none, false, [], false, .none⟩;
     let s : State := stOf ({ Dev.reset with cmds := nset none [] (cmdKey 3 4095) (some c) });
     canStart s.d q r 0x43 c ∧
     let a := sqArg c.ent;
     bitsOf a 9 8 = 0) ∧
    (let q : Nat := 3;
     let r : Nat := 4095;
     let c : Cmd := ⟨0, 0, 0x43 + 256 * 2 ^ 32, .fetched, 0, 0, [], [], none, false, [], false, .none⟩;
     let s : State := stOf ({ Dev.reset with cmds := nset none [] (cmdKey 3 4095) (some c) });
     canStart s.d q r 0x43 c ∧
     let a := sqArg c.ent;
     bitsOf a 9 8 ≠ 0) ∧
    (let q : Nat := 3;
     let r : Nat := 4095;
     let c : Cmd := ⟨0, 0, 0x43 + 256 * 2 ^ 32, .fetched, 0, 0, [], [], none, false, [], false, .none⟩;
     let s : State := stOf ({ Dev.reset with cmds := nset none [] (cmdKey 3 4095) (some c) });
     canStart s.d q r 0x43 c ∧
     let a := sqArg c.ent;
     bitsOf a 9 8 = 1) ∧
    (let q : Nat := 3;
     let r : Nat := 4095;
     let c : Cmd := ⟨0, 0, 0x43 + 0 * 2 ^ 32, .fetched, 0, 0, [], [], none, false, [], false, .none⟩;
     let s : State := stOf ({ Dev.reset with cmds := nset none [] (cmdKey 3 4095) (some c) });
     canStart s.d q r 0x43 c ∧
     let a := sqArg c.ent;
     bitsOf a 9 8 ≠ 1) ∧
    (let q : Nat := 3;
     let r : Nat := 4095;
     let c : Cmd := ⟨0, 0, 0x43 + 512 * 2 ^ 32, .fetched, 0, 0, [], [], none, false, [], false, .none⟩;
     let s : State := stOf ({ Dev.reset with cmds := nset none [] (cmdKey 3 4095) (some c) });
     canStart s.d q r 0x43 c ∧
     let a := sqArg c.ent;
     bitsOf a 9 8 = 2) ∧
    (let q : Nat := 3;
     let r : Nat := 4095;
     let c : Cmd := ⟨0, 0, 0x43 + 0 * 2 ^ 32, .fetched, 0, 0, [], [], none, false, [], false, .none⟩;
     let s : State := stOf ({ Dev.reset with cmds := nset none [] (cmdKey 3 4095) (some c) });
     canStart s.d q r 0x43 c ∧
     let a := sqArg c.ent;
     bitsOf a 9 8 ≠ 2) ∧
    (let q : Nat := 3;
     let r : Nat := 4095;
     let c : Cmd := ⟨0, 0, 0x43 + 768 * 2 ^ 32, .fetched, 0, 0, [], [], none, false, [], false, .none⟩;
     let s : State := stOf ({ Dev.reset with cmds := nset none [] (cmdKey 3 4095) (some c) });
     canStart s.d q r 0x43 c ∧
     let a := sqArg c.ent;
     bitsOf a 9 8 = 3) ∧
    (let q : Nat := 3;
     let r : Nat := 4095;
     let c : Cmd := ⟨0, 0, 0x43 + 0 * 2 ^ 32, .fetched, 0, 0, [], [], none, false, [], false, .none⟩;
     let s : State := stOf ({ Dev.reset with cmds := nset none [] (cmdKey 3 4095) (some c) });
     canStart s.d q r 0x43 c ∧
     let a := sqArg c.ent;
     bitsOf a 9 8 ≠ 3) ∧
    (let q : Nat := 3;
     let r : Nat := 4095;
     let s : State := State.reset;
     (∀ c, ¬ canStart s.d q r 0x43 c)) ∧
    (let slot : Nat := 255;
     let l : LoadJob := ⟨0, 9, 0xFF, 0xFF, 0, [], 4, 0xFF, 0xFF, 0, 0, [], false⟩;
     let s : State := stOf ({ Dev.reset with loading := nset none [] 255 (some l) });
     s.d.sysHalt = false ∧ nget none s.d.loading slot = some l ∧ l.code ≠ 0) ∧
    (let slot : Nat := 255;
     let l : LoadJob := ⟨0, 0, 0xFF, 0xFF, 0, [], 4, 0xFF, 0xFF, 0, 0, [(0, 63, 3)], false⟩;
     let f : Nat × Nat := (0, 63);
     let s : State := stOf
       ({ (slot255 stLive (on 63)).setRegN ((on 63).tileReg (tileOf 63 63) .TMEM_OWN) (11 * 2 ^ 12) with loading := nset none [] 255 (some l) });
     s.d.sysHalt = false ∧ nget none s.d.loading slot = some l ∧
     let e := s.d.endBanks slot l;
     l.code = 0 ∧ e.2 = some f) ∧
    (let slot : Nat := 255;
     let l : LoadJob := ⟨2, 0, 0xFF, 0xFF, 0, [], 4, 0xFF, 0xFF, 0, 0, [], false⟩;
     let s : State := stOf ({ Dev.reset with loading := nset none [] 255 (some l) });
     s.d.sysHalt = false ∧ nget none s.d.loading slot = some l ∧
     let e := s.d.endBanks slot l;
     let reads := l.code = 0 ∧ e.2 = none;
     reads ∧ l.mode = 2 ∧ e.1.readBack slot l = none ∧ e.1.bindDiffers slot l.bytes = none) ∧
    (let slot : Nat := 255;
     let l : LoadJob := ⟨2, 0, 0xFF, 0xFF, 0, [], 4, 0xFF, 0xFF, 0, 0, [], false⟩;
     let x : Nat × Nat := (0xFF, 0xFF);
     let s : State := stOf ({ Dev.reset.setRegN (slotReg 255 .SLOT_FRAME) 5 with loading := nset none [] 255 (some l) });
     s.d.sysHalt = false ∧ nget none s.d.loading slot = some l ∧
     let e := s.d.endBanks slot l;
     let reads := l.code = 0 ∧ e.2 = none;
     reads ∧ l.mode = 2 ∧ (e.1.readBack slot l = some x ∨ (e.1.readBack slot l = none ∧ e.1.bindDiffers slot l.bytes = some x))) ∧
    (let slot : Nat := 255;
     let l : LoadJob := ⟨0, 0, 0xFF, 0xFF, 0, [], 4, 0xFF, 0xFF, 0, 0, [], false⟩;
     let x : Nat × Nat := (0xFF, 0xFF);
     let s : State := stOf ({ Dev.reset.setRegN (slotReg 255 .SLOT_FRAME) 5 with loading := nset none [] 255 (some l) });
     s.d.sysHalt = false ∧ nget none s.d.loading slot = some l ∧
     let e := s.d.endBanks slot l;
     let reads := l.code = 0 ∧ e.2 = none;
     reads ∧ l.mode ≠ 2 ∧ e.1.readBack slot l = some x) ∧
    (let slot : Nat := 255;
     let ups : List Upset := [⟨.seqw, tileOf 63 63, 0, 63, true, 3⟩];
     let l : LoadJob := ⟨1, 0, 0xFF, 0xFF, 0, (List.replicate 17 0 ++ [1] ++ List.replicate 30 0), 4, 0, 63, 0, 0, [], false⟩;
     let T : Nat := tileOf 63 63;
     let s : State := stOf ({ Dev.reset.setMark (eccSeq (tileOf 63 63) 63) (.ce 5) with loading := nset none [] 255 (some l) });
     s.d.sysHalt = false ∧ nget none s.d.loading slot = some l ∧
     let e := s.d.endBanks slot l;
     let d1 := e.1.readMarks slot l;
     let d2 := ups.foldl (fun x u => x.upset u) (d1.rewriteCe slot l);
     let reads := l.code = 0 ∧ e.2 = none;
     let clean := l.mode ≠ 2 ∧ e.1.readBack slot l = none;
     reads ∧ clean ∧ d2.secondRead d1 slot l = some T) ∧
    (let slot : Nat := 255;
     let ups : List Upset := [];
     let l : LoadJob := ⟨1, 0, 0xFF, 0xFF, 0, [], 4, 0xFF, 0xFF, 0, 0, [], false⟩;
     let s : State := stOf ({ Dev.reset with loading := nset none [] 255 (some l) });
     s.d.sysHalt = false ∧ nget none s.d.loading slot = some l ∧
     let e := s.d.endBanks slot l;
     let d1 := e.1.readMarks slot l;
     let d2 := ups.foldl (fun x u => x.upset u) (d1.rewriteCe slot l);
     let reads := l.code = 0 ∧ e.2 = none;
     let clean := l.mode ≠ 2 ∧ e.1.readBack slot l = none;
     reads ∧ clean ∧ d2.secondRead d1 slot l = none ∧ l.mode = 1) ∧
    (let slot : Nat := 255;
     let ups : List Upset := [];
     let l : LoadJob := ⟨0, 0, 0xFF, 0xFF, 0, [], 4, 0xFF, 0xFF, 0, 0, [], true⟩;
     let s : State := stOf
       ({ ((slot255 stUndefined).setRegN (slotReg 255 .SLOT_FOOT) (2 ^ 63)).setReg (cluReg 63 .VP_CFG 15) (BitVec.ofNat 64 (2 ^ 63 + 0 * 2 ^ 60)) with loading := nset none [] 255 (some l) });
     s.d.sysHalt = false ∧ nget none s.d.loading slot = some l ∧
     let e := s.d.endBanks slot l;
     let d1 := e.1.readMarks slot l;
     let d2 := ups.foldl (fun x u => x.upset u) (d1.rewriteCe slot l);
     let reads := l.code = 0 ∧ e.2 = none;
     let clean := l.mode ≠ 2 ∧ e.1.readBack slot l = none;
     reads ∧ clean ∧ d2.secondRead d1 slot l = none ∧ l.mode ≠ 1 ∧
     let foreign := l.bound = true ∧ (d2.bindsOf slot).all (d2.bindStands slot l.bytes) = false;
     foreign) ∧
    (let slot : Nat := 255;
     let ups : List Upset := [];
     let l : LoadJob := ⟨0, 0, 0xFF, 0xFF, 0, (List.replicate 18 0 ++ [1, 0] ++ List.replicate 12 0 ++ [0x28] ++ List.replicate 7 0 ++ [2, 0]
       ++ List.replicate 6 0 ++ [0x38, 0, 0, 0, 8, 0, 0, 0] ++ [0, 15, 0, 0, 0, 0, 0, 0]), 4, 0xFF, 0xFF, 0, 0, [], false⟩;
     let s : State := stOf
       ({ ((slot255 stUndefined).setRegN (slotReg 255 .SLOT_FOOT) (2 ^ 63)).setReg (cluReg 63 .VP_CFG 15) (BitVec.ofNat 64 (2 ^ 63 + 1 * 2 ^ 60)) with loading := nset none [] 255 (some l) });
     s.d.sysHalt = false ∧ nget none s.d.loading slot = some l ∧
     let e := s.d.endBanks slot l;
     let d1 := e.1.readMarks slot l;
     let d2 := ups.foldl (fun x u => x.upset u) (d1.rewriteCe slot l);
     let reads := l.code = 0 ∧ e.2 = none;
     let clean := l.mode ≠ 2 ∧ e.1.readBack slot l = none;
     reads ∧ clean ∧ d2.secondRead d1 slot l = none ∧ l.mode ≠ 1 ∧
     let ps := portRecs l.bytes (secsOf l.bytes);
     let foreign := l.bound = true ∧ (d2.bindsOf slot).all (d2.bindStands slot l.bytes) = false;
     ¬ foreign ∧ d2.bindAll slot l.bytes ps = none) ∧
    (let slot : Nat := 255;
     let ups : List Upset := [];
     let l : LoadJob := ⟨0, 0, 0xFF, 0xFF, 0, [], 4, 0xFF, 0xFF, 0, 0, [], false⟩;
     let s : State := stOf ({ Dev.reset with loading := nset none [] 255 (some l) });
     s.d.sysHalt = false ∧ nget none s.d.loading slot = some l ∧
     let e := s.d.endBanks slot l;
     let d1 := e.1.readMarks slot l;
     let d2 := ups.foldl (fun x u => x.upset u) (d1.rewriteCe slot l);
     let reads := l.code = 0 ∧ e.2 = none;
     let clean := l.mode ≠ 2 ∧ e.1.readBack slot l = none;
     reads ∧ clean ∧ d2.secondRead d1 slot l = none ∧ l.mode ≠ 1 ∧
     let ps := portRecs l.bytes (secsOf l.bytes);
     let foreign := l.bound = true ∧ (d2.bindsOf slot).all (d2.bindStands slot l.bytes) = false;
     let d3 : Dev := d2;
     ¬ foreign ∧ d2.bindAll slot l.bytes ps = some d3) ∧
    (let slot : Nat := 0;
     let s : State := State.reset;
     nget none s.d.loading slot = none) := by
  refine ⟨?_, ?_, ?_, ?_, ?_, ?_, ?_, ?_, ?_, ?_, ?_, ?_, ?_, ?_, ?_, ?_, ?_, ?_, ?_, ?_⟩
  · exact ⟨⟨by decide +kernel, by decide +kernel, by decide +kernel, by decide +kernel⟩, by decide +kernel⟩
  · exact ⟨⟨by decide +kernel, by decide +kernel, by decide +kernel, by decide +kernel⟩, by decide +kernel⟩
  · exact ⟨⟨by decide +kernel, by decide +kernel, by decide +kernel, by decide +kernel⟩, by decide +kernel⟩
  · exact ⟨⟨by decide +kernel, by decide +kernel, by decide +kernel, by decide +kernel⟩, by decide +kernel⟩
  · exact ⟨⟨by decide +kernel, by decide +kernel, by decide +kernel, by decide +kernel⟩, by decide +kernel⟩
  · exact ⟨⟨by decide +kernel, by decide +kernel, by decide +kernel, by decide +kernel⟩, by decide +kernel⟩
  · exact ⟨⟨by decide +kernel, by decide +kernel, by decide +kernel, by decide +kernel⟩, by decide +kernel⟩
  · exact ⟨⟨by decide +kernel, by decide +kernel, by decide +kernel, by decide +kernel⟩, by decide +kernel⟩
  · exact noCmd (by decide +kernel) _
  · try dsimp only
    refine ⟨?_, ?_, ?_⟩
    · decide +kernel
    · decide +kernel
    · decide +kernel
  · try dsimp only
    refine ⟨?_, ?_, ?_, ?_⟩
    · decide +kernel
    · decide +kernel
    · decide +kernel
    · decide +kernel
  · try dsimp only
    refine ⟨?_, ?_, ?_, ?_, ?_, ?_⟩
    · decide +kernel
    · decide +kernel
    · decide +kernel
    · decide +kernel
    · decide +kernel
    · decide +kernel
  · try dsimp only
    refine ⟨?_, ?_, ?_, ?_, ?_⟩
    · decide +kernel
    · decide +kernel
    · decide +kernel
    · decide +kernel
    · decide +kernel
  · try dsimp only
    refine ⟨?_, ?_, ?_, ?_, ?_⟩
    · decide +kernel
    · decide +kernel
    · decide +kernel
    · decide +kernel
    · decide +kernel
  · try dsimp only
    refine ⟨?_, ?_, ?_, ?_, ?_⟩
    · decide +kernel
    · decide +kernel
    · decide +kernel
    · decide +kernel
    · decide +kernel
  · try dsimp only
    refine ⟨?_, ?_, ?_, ?_, ?_, ?_⟩
    · decide +kernel
    · decide +kernel
    · decide +kernel
    · decide +kernel
    · decide +kernel
    · decide +kernel
  · try dsimp only
    refine ⟨?_, ?_, ?_, ?_, ?_, ?_, ?_⟩
    · decide +kernel
    · decide +kernel
    · decide +kernel
    · decide +kernel
    · decide +kernel
    · decide +kernel
    · decide +kernel
  · try dsimp only
    refine ⟨?_, ?_, ?_, ?_, ?_, ?_, ?_, ?_⟩
    · decide +kernel
    · decide +kernel
    · decide +kernel
    · decide +kernel
    · decide +kernel
    · decide +kernel
    · decide +kernel
    · decide +kernel
  · try dsimp only
    refine ⟨?_, ?_, ?_, ?_, ?_, ?_, ?_, ?_⟩
    · decide +kernel
    · decide +kernel
    · decide +kernel
    · decide +kernel
    · decide +kernel
    · decide +kernel
    · decide +kernel
    · decide +kernel
  · try dsimp only
    decide +kernel

/-- What QueuePairs asks of a state and of operands is met, case by case. -/
theorem witness_QueuePairs :
    (let q : Nat := 3;
     let i : Nat := 1023;
     let v : Nat := 15;
     let s : State := stOf (((Dev.reset).setFld F.QP_STAT_STATE 2 3 1023).setFld F.QP_SIZE_SQLOG 4 3 1023);
     let fits := s.d.qpState q i = 2 ∧ v % 65536 < s.d.sqSize q i;
     fits) ∧
    (let q : Nat := 3;
     let i : Nat := 1023;
     let v : Nat := 0;
     let s : State := State.reset;
     let fits := s.d.qpState q i = 2 ∧ v % 65536 < s.d.sqSize q i;
     ¬ fits) ∧
    (let q : Nat := 3;
     let i : Nat := 1023;
     let v : Nat := 15;
     let s : State := stOf ((((Dev.reset).setFld F.QP_STAT_STATE 2 3 1023).setFld F.QP_SIZE_CQLOG 4 3 1023).setRegN (R.CQ_TAIL.at 3 1023)
       15);
     let fits := s.d.qpState q i = 2 ∧ v % 65536 < s.d.cqSize q i ∧ ringDist (v % 65536) (s.d.regN (R.CQ_HEAD.at q i)) (s.d.cqSize q i) ≤
       s.d.cqHeld q i;
     fits) ∧
    (let q : Nat := 3;
     let i : Nat := 1023;
     let v : Nat := 0;
     let s : State := State.reset;
     let fits := s.d.qpState q i = 2 ∧ v % 65536 < s.d.cqSize q i ∧ ringDist (v % 65536) (s.d.regN (R.CQ_HEAD.at q i)) (s.d.cqSize q i) ≤
       s.d.cqHeld q i;
     ¬ fits) ∧
    (let q : Nat := 3;
     let i : Nat := 1023;
     let v : Nat := 1;
     let s : State := stOf ((((Dev.reset).setFld F.QP_STAT_STATE 1 3 1023).setFld F.QP_INFO_MAXLOG 16 3 1023).setFld F.QP_SIZE_SQLOG 16 3
       1023);
     let lim := s.d.fld F.QP_INFO_MAXLOG q i;
     let may := s.d.qpState q i = 1 ∧ s.d.fld F.QP_SIZE_SQLOG q i ≤ lim ∧ s.d.fld F.QP_SIZE_CQLOG q i ≤ lim;
     v % 2 = 1 ∧ may) ∧
    (let q : Nat := 3;
     let i : Nat := 1023;
     let v : Nat := 1;
     let s : State := State.reset;
     let lim := s.d.fld F.QP_INFO_MAXLOG q i;
     let may := s.d.qpState q i = 1 ∧ s.d.fld F.QP_SIZE_SQLOG q i ≤ lim ∧ s.d.fld F.QP_SIZE_CQLOG q i ≤ lim;
     v % 2 = 1 ∧ ¬ may) ∧
    (let q : Nat := 3;
     let i : Nat := 1023;
     let v : Nat := 2;
     let s : State := stOf ((Dev.reset).setFld F.QP_STAT_STATE 2 3 1023);
     v % 2 = 0 ∧ s.d.qpState q i = 2) ∧
    (let q : Nat := 3;
     let i : Nat := 1023;
     let v : Nat := 2;
     let s : State := State.reset;
     v % 2 = 0 ∧ s.d.qpState q i ≠ 2) ∧
    (let q : Nat := 3;
     let i : Nat := 1023;
     let s : State := stOf
       ({ (Dev.reset).setFld F.QP_STAT_STATE 3 3 1023 with pairs := nset Pair.zero [] (3 * 1024 + 1023) { Pair.zero with delete := true } });
     s.d.sysHalt = false ∧
     let drained := s.d.qpState q i = 3 ∧ s.d.fld F.QP_STAT_INFL q i = 0;
     let del := (s.d.pair q i).delete = true;
     drained ∧ del) ∧
    (let q : Nat := 3;
     let i : Nat := 1023;
     let s : State := stOf (((Dev.reset).setFld F.QP_STAT_STATE 3 3 1023).setFld F.QP_STAT_INRESET 1 3 1023);
     s.d.sysHalt = false ∧
     let drained := s.d.qpState q i = 3 ∧ s.d.fld F.QP_STAT_INFL q i = 0;
     let del := (s.d.pair q i).delete = true;
     let rst := s.d.flag F.QP_STAT_INRESET q i = true;
     drained ∧ ¬ del ∧ rst) ∧
    (let q : Nat := 3;
     let i : Nat := 1023;
     let s : State := stOf ((Dev.reset).setFld F.QP_STAT_STATE 3 3 1023);
     s.d.sysHalt = false ∧
     let drained := s.d.qpState q i = 3 ∧ s.d.fld F.QP_STAT_INFL q i = 0;
     let del := (s.d.pair q i).delete = true;
     let rst := s.d.flag F.QP_STAT_INRESET q i = true;
     drained ∧ ¬ del ∧ ¬ rst) ∧
    (let q : Nat := 3;
     let i : Nat := 1023;
     let s : State := State.reset;
     s.d.sysHalt = false ∧
     let drained := s.d.qpState q i = 3 ∧ s.d.fld F.QP_STAT_INFL q i = 0;
     ¬ drained) ∧
    (let q : Nat := 3;
     let s : State := stOf (Dev.reset.setRegN (R.QE_CTRL.at 3) 0);
     s.d.sysHalt = false ∧
     let on := (s.d.reg (R.QE_CTRL.at q)).getLsbD 0 = true;
     ¬ on) ∧
    (let q : Nat := 3;
     let s : State := State.reset;
     s.d.sysHalt = false ∧
     let on := (s.d.reg (R.QE_CTRL.at q)).getLsbD 0 = true;
     let d0 := s.d.countHolds q;
     on ∧ d0.choosePair q = none) ∧
    (let q : Nat := 3;
     let i : Nat := 1023;
     let s : State := stOf ((((((host).setFld F.QP_STAT_STATE 2 3 1023).setFld F.QP_SIZE_SQLOG 4 3 1023).setFld F.QP_SIZE_CQLOG 4 3
       1023).setRegN (R.SQ_TAIL.at 3 1023) 1).setReg (R.QP_OWN.at 3 1023) (BitVec.ofNat 64 (2 ^ 63 + 31 * 2 ^ 48)));
     s.d.sysHalt = false ∧
     let on := (s.d.reg (R.QE_CTRL.at q)).getLsbD 0 = true;
     let d0 := s.d.countHolds q;
     on ∧ d0.choosePair q = some i ∧
     let d1 : Dev := { d0 with rrobin := nset 0 d0.rrobin (q * 64 + d0.qpRank q i) (i + 1) };
     d1.fnIssues (d1.qpOid q i) = true) ∧
    (let q : Nat := 3;
     let i : Nat := 1023;
     let s : State := stOf ((((((Dev.reset).setFld F.QP_STAT_STATE 2 3 1023).setFld F.QP_SIZE_SQLOG 4 3 1023).setFld F.QP_SIZE_CQLOG 4 3
       1023).setRegN (R.SQ_TAIL.at 3 1023) 1).setReg (R.QP_OWN.at 3 1023) (BitVec.ofNat 64 (2 ^ 63 + 31 * 2 ^ 48)));
     s.d.sysHalt = false ∧
     let on := (s.d.reg (R.QE_CTRL.at q)).getLsbD 0 = true;
     let d0 := s.d.countHolds q;
     on ∧ d0.choosePair q = some i ∧
     let d1 : Dev := { d0 with rrobin := nset 0 d0.rrobin (q * 64 + d0.qpRank q i) (i + 1) };
     d1.fnIssues (d1.qpOid q i) = false) ∧
    (let q : Nat := 3;
     let i : Nat := 1023;
     let s : State := stOf ((((((Dev.reset).setFld F.QP_STAT_STATE 2 3 1023).setFld F.QP_SIZE_SQLOG 4 3 1023).setFld F.QP_SIZE_CQLOG 4 3
       1023).setRegN (R.SQ_TAIL.at 3 1023) 1).setReg (R.QP_OWN.at 3 1023) (BitVec.ofNat 64 (2 ^ 63 + 31 * 2 ^ 48)));
     s.d.sysHalt = false ∧
     let on := (s.d.reg (R.QE_CTRL.at q)).getLsbD 0 = true;
     let d0 := s.d.countHolds q;
     on ∧ d0.choosePair q = some i) ∧
    (let q : Nat := 3;
     let r : Nat := 4095;
     let c : Cmd := ⟨1023, 0, 256, .ended, 0, 0, [], [], none, false, [], false, .none⟩;
     let s : State := stOf
       ({ (host.setReg (R.QP_OWN.at 3 1023) (BitVec.ofNat 64 (2 ^ 63 + 31 * 2 ^ 48))) with cmds := nset none [] (cmdKey 3 4095) (some c) });
     s.d.sysHalt = false ∧ s.d.cmd (cmdKey q r) = some c ∧
     let i := c.qp;
     let may := c.st = .ended ∧ s.d.fnIssues (s.d.qpOid q i) = true;
     may ∧ (sqFlags c.ent).testBit 0 = true) ∧
    (let q : Nat := 3;
     let r : Nat := 4095;
     let c : Cmd := ⟨1023, 0, 0, .ended, 0, 0, [], [], none, false, [], false, .none⟩;
     let s : State := stOf
       ({ (host.setReg (R.QP_OWN.at 3 1023) (BitVec.ofNat 64 (2 ^ 63 + 31 * 2 ^ 48))) with cmds := nset none [] (cmdKey 3 4095) (some c) });
     s.d.sysHalt = false ∧ s.d.cmd (cmdKey q r) = some c ∧
     let i := c.qp;
     let may := c.st = .ended ∧ s.d.fnIssues (s.d.qpOid q i) = true;
     may ∧ (sqFlags c.ent).testBit 0 = false) ∧
    (let q : Nat := 3;
     let r : Nat := 4095;
     let c : Cmd := ⟨1023, 0, 0, .ended, 0, 0, [], [], none, false, [], false, .none⟩;
     let s : State := stOf ({ Dev.reset with cmds := nset none [] (cmdKey 3 4095) (some c) });
     s.d.sysHalt = false ∧ s.d.cmd (cmdKey q r) = some c ∧
     let i := c.qp;
     let may := c.st = .ended ∧ s.d.fnIssues (s.d.qpOid q i) = true;
     ¬ may) ∧
    (let q : Nat := 3;
     let r : Nat := 4095;
     let s : State := State.reset;
     s.d.sysHalt = false ∧ s.d.cmd (cmdKey q r) = none) ∧
    (let q : Nat := 3;
     let i : Nat := 1023;
     let s : State := stOf ({ Dev.reset with pairs := nset Pair.zero [] (3 * 1024 + 1023) ⟨0, false, 1, 0, false, 0, false, 2 ^ 31, 5⟩ })
       (⟨5, 0, 0, false, false, 0⟩);
     s.d.sysHalt = false ∧
     let p := s.d.pair q i;
     let due := p.intr.testBit 31 = true ∧ p.itime ≠ 0 ∧ p.cnt ≠ 0 ∧ p.itime ≤ s.clk.tick - p.since;
     due) ∧
    (let q : Nat := 3;
     let i : Nat := 1023;
     let s : State := State.reset;
     s.d.sysHalt = false ∧
     let p := s.d.pair q i;
     let due := p.intr.testBit 31 = true ∧ p.itime ≠ 0 ∧ p.cnt ≠ 0 ∧ p.itime ≤ s.clk.tick - p.since;
     ¬ due) := by
  refine ⟨?_, ?_, ?_, ?_, ?_, ?_, ?_, ?_, ?_, ?_, ?_, ?_, ?_, ?_, ?_, ?_, ?_, ?_, ?_, ?_, ?_, ?_, ?_⟩
  · try dsimp only
    decide +kernel
  · try dsimp only
    decide +kernel
  · try dsimp only
    decide +kernel
  · try dsimp only
    decide +kernel
  · try dsimp only
    refine ⟨?_, ?_⟩
    · decide +kernel
    · decide +kernel
  · try dsimp only
    refine ⟨?_, ?_⟩
    · decide +kernel
    · decide +kernel
  · try dsimp only
    refine ⟨?_, ?_⟩
    · decide +kernel
    · decide +kernel
  · try dsimp only
    refine ⟨?_, ?_⟩
    · decide +kernel
    · decide +kernel
  · try dsimp only
    refine ⟨?_, ?_, ?_⟩
    · decide +kernel
    · decide +kernel
    · decide +kernel
  · try dsimp only
    refine ⟨?_, ?_, ?_, ?_⟩
    · decide +kernel
    · decide +kernel
    · decide +kernel
    · decide +kernel
  · try dsimp only
    refine ⟨?_, ?_, ?_, ?_⟩
    · decide +kernel
    · decide +kernel
    · decide +kernel
    · decide +kernel
  · try dsimp only
    refine ⟨?_, ?_⟩
    · decide +kernel
    · decide +kernel
  · try dsimp only
    refine ⟨?_, ?_⟩
    · decide +kernel
    · decide +kernel
  · try dsimp only
    refine ⟨?_, ?_, ?_⟩
    · decide +kernel
    · decide +kernel
    · decide +kernel
  · try dsimp only
    refine ⟨?_, ?_, ?_, ?_⟩
    · decide +kernel
    · decide +kernel
    · decide +kernel
    · decide +kernel
  · try dsimp only
    refine ⟨?_, ?_, ?_, ?_⟩
    · decide +kernel
    · decide +kernel
    · decide +kernel
    · decide +kernel
  · try dsimp only
    refine ⟨?_, ?_, ?_⟩
    · decide +kernel
    · decide +kernel
    · decide +kernel
  · try dsimp only
    refine ⟨?_, ?_, ?_, ?_⟩
    · decide +kernel
    · decide +kernel
    · decide +kernel
    · decide +kernel
  · try dsimp only
    refine ⟨?_, ?_, ?_, ?_⟩
    · decide +kernel
    · decide +kernel
    · decide +kernel
    · decide +kernel
  · try dsimp only
    refine ⟨?_, ?_, ?_⟩
    · decide +kernel
    · decide +kernel
    · decide +kernel
  · try dsimp only
    refine ⟨?_, ?_⟩
    · decide +kernel
    · decide +kernel
  · try dsimp only
    refine ⟨?_, ?_⟩
    · decide +kernel
    · decide +kernel
  · try dsimp only
    refine ⟨?_, ?_⟩
    · decide +kernel
    · decide +kernel

/-- What QueueCommands asks of a state and of operands is met, case by case. -/
theorem witness_QueueCommands :
    (let q : Nat := 0;
     let r : Nat := 0;
     let c : Cmd := ⟨0, 0, 1, .fetched, 0, 0, [], [], none, false, [], false, .none⟩;
     let s : State := stOf ({ (Dev.reset.setFld F.PWR_DOM_CUR 2 0 17) with cmds := nset none [] (cmdKey 0 0) (some c) });
     canStart s.d q r 0x01 c ∧
     let oid := s.d.qpOid q c.qp;
     let e := s.d.entRead q oid (sqArg c.ent % 256);
     e.1 ≠ 0) ∧
    (let q : Nat := 0;
     let r : Nat := 0;
     let c : Cmd := ⟨0, 0, 1, .fetched, 0, 0, [], [], none, false, [], false, .none⟩;
     let st : Nat := 4;
     let s : State := stOf
       ({ (Dev.reset.setRegN (R.SCC_CFG.at 0) 0) with mem := [], cmds := nset none [] 0 (some (⟨0, 0, 1, .fetched, 0, 0, [], [], none, false, [], false, .none⟩)) });
     canStart s.d q r 0x01 c ∧
     let oid := s.d.qpOid q c.qp;
     let e := s.d.entRead q oid (sqArg c.ent % 256);
     let d0 := e.2.2;
     e.1 = 0 ∧ d0.invokeCheck c.ent e.2.1 = (st, none)) ∧
    (let q : Nat := 0;
     let r : Nat := 0;
     let c : Cmd := ⟨0, 0, 1, .fetched, 0, 0, [], [], none, false, [], false, .none⟩;
     let st : Nat := 0;
     let w : Invoke := ⟨2 ^ 63 + 2 ^ 32 + 255, ⟨0, 0, 0, 0, []⟩, []⟩;
     let s : State := stOf
       ({ (Dev.reset.setRegN (R.SCC_CFG.at 0) 0) with mem := [(0, 255), (4, 1), (7, 0x80)], loads := nset LoadRec.none [] 255 ⟨2, 0, [⟨0, 0, 0, 0, []⟩], []⟩, cmds := fullOf (⟨0, 0, 1, .fetched, 0, 0, [], [], none, false, [], false, .none⟩) });
     canStart s.d q r 0x01 c ∧
     let k := cmdKey q r;
     let oid := s.d.qpOid q c.qp;
     let e := s.d.entRead q oid (sqArg c.ent % 256);
     let d0 := e.2.2;
     e.1 = 0 ∧ d0.invokeCheck c.ent e.2.1 = (st, some w) ∧
     let h := quarterOf (w.v % 256 / 4);
     d0.moveRec q k h c = none) ∧
    (let q : Nat := 0;
     let r : Nat := 0;
     let c : Cmd := ⟨0, 0, 1, .fetched, 0, 0, [], [], none, false, [], false, .none⟩;
     let st : Nat := 0;
     let w : Invoke := ⟨2 ^ 63 + 2 ^ 32, ⟨0, 0, 0, 0, []⟩, []⟩;
     let k1 : Nat := 0;
     let d1 : Dev :=
       ({ (((Dev.reset.setRegN (R.SCC_CFG.at 0) 0).setRegN (R.DSP_TCB_BASE.at 0) 0x2000).setFld F.PWR_DOM_CUR 2 0 18) with mem := [(4, 1), (7, 0x80)], cmds := nset none [] 0 (some (⟨0, 0, 1, .fetched, 0, 0, [], [], none, false, [], false, .none⟩)), loads := nset LoadRec.none [] 0 ⟨2, 0, [⟨0, 0, 0, 0, []⟩], []⟩ }).sccMissed
       0 0 1;
     let s : State := stOf
       ({ (((Dev.reset.setRegN (R.SCC_CFG.at 0) 0).setRegN (R.DSP_TCB_BASE.at 0) 0x2000).setFld F.PWR_DOM_CUR 2 0 18) with mem := [(4, 1), (7, 0x80)], cmds := nset none [] 0 (some (⟨0, 0, 1, .fetched, 0, 0, [], [], none, false, [], false, .none⟩)), loads := nset LoadRec.none [] 0 ⟨2, 0, [⟨0, 0, 0, 0, []⟩], []⟩ });
     canStart s.d q r 0x01 c ∧
     let k := cmdKey q r;
     let oid := s.d.qpOid q c.qp;
     let e := s.d.entRead q oid (sqArg c.ent % 256);
     let d0 := e.2.2;
     e.1 = 0 ∧ d0.invokeCheck c.ent e.2.1 = (st, some w) ∧
     let h := quarterOf (w.v % 256 / 4);
     d0.moveRec q k h c = some (k1, d1) ∧
     let built := d1.buildChain k1 (d1.fld F.QP_OWN_LEVEL q c.qp) oid c.ent w.v w.ep w.ep.chain;
     built = none) ∧
    (let q : Nat := 0;
     let r : Nat := 0;
     let c : Cmd := ⟨0, 0, 1, .fetched, 0, 0, [], [], none, false, [], false, .none⟩;
     let st : Nat := 0;
     let w : Invoke := ⟨2 ^ 63 + 2 ^ 32, ⟨0, 0, 0, 0, []⟩, []⟩;
     let k1 : Nat := 0;
     let d1 : Dev :=
       ({ (Dev.reset.setRegN (R.SCC_CFG.at 0) 0) with mem := [(4, 1), (7, 0x80)], cmds := nset none [] 0 (some (⟨0, 0, 1, .fetched, 0, 0, [], [], none, false, [], false, .none⟩)), loads := nset LoadRec.none [] 0 ⟨2, 0, [⟨0, 0, 0, 0, []⟩], []⟩ }).sccMissed
       0 0 1;
     let d2 : Dev :=
       ((({ (Dev.reset.setRegN (R.SCC_CFG.at 0) 0) with mem := [(4, 1), (7, 0x80)], cmds := nset none [] 0 (some (⟨0, 0, 1, .fetched, 0, 0, [], [], none, false, [], false, .none⟩)), loads := nset LoadRec.none [] 0 ⟨2, 0, [⟨0, 0, 0, 0, []⟩], []⟩ }).sccMissed
       0 0 1).buildChain 0
       ((({ (Dev.reset.setRegN (R.SCC_CFG.at 0) 0) with mem := [(4, 1), (7, 0x80)], cmds := nset none [] 0 (some (⟨0, 0, 1, .fetched, 0, 0, [], [], none, false, [], false, .none⟩)), loads := nset LoadRec.none [] 0 ⟨2, 0, [⟨0, 0, 0, 0, []⟩], []⟩ }).sccMissed
       0 0 1).fld F.QP_OWN_LEVEL 0 0)
       (({ (Dev.reset.setRegN (R.SCC_CFG.at 0) 0) with mem := [(4, 1), (7, 0x80)], cmds := nset none [] 0 (some (⟨0, 0, 1, .fetched, 0, 0, [], [], none, false, [], false, .none⟩)), loads := nset LoadRec.none [] 0 ⟨2, 0, [⟨0, 0, 0, 0, []⟩], []⟩ }).qpOid
       0 0) 1 (2 ^ 63 + 2 ^ 32) ⟨0, 0, 0, 0, []⟩ [1]).getD Dev.reset;
     let s : State := stOf
       ({ (Dev.reset.setRegN (R.SCC_CFG.at 0) 0) with mem := [(4, 1), (7, 0x80)], cmds := nset none [] 0 (some (⟨0, 0, 1, .fetched, 0, 0, [], [], none, false, [], false, .none⟩)), loads := nset LoadRec.none [] 0 ⟨2, 0, [⟨0, 0, 0, 0, []⟩], []⟩ });
     canStart s.d q r 0x01 c ∧
     let k := cmdKey q r;
     let oid := s.d.qpOid q c.qp;
     let e := s.d.entRead q oid (sqArg c.ent % 256);
     let d0 := e.2.2;
     e.1 = 0 ∧ d0.invokeCheck c.ent e.2.1 = (st, some w) ∧
     let h := quarterOf (w.v % 256 / 4);
     d0.moveRec q k h c = some (k1, d1) ∧
     let built := d1.buildChain k1 (d1.fld F.QP_OWN_LEVEL q c.qp) oid c.ent w.v w.ep w.ep.chain;
     built = some d2) ∧
    (let q : Nat := 3;
     let r : Nat := 4095;
     let c : Cmd := ⟨0, 0, 1, .running, 0, 0, [], [], none, false, [], false, .none⟩;
     let s : State := stOf ({ Dev.reset with cmds := nset none [] (cmdKey 3 4095) (some c) });
     s.d.sysHalt = false ∧ s.d.cmd (cmdKey q r) = some c ∧ sqOpc c.ent = 0x01 ∧ s.d.mayStart q c = false ∧ c.st = .running ∧ c.submitted =
     false) ∧
    (let q : Nat := 3;
     let r : Nat := 4095;
     let c : Cmd := ⟨0, 0, 1, .ended, 0, 0, [], [], none, false, [], false, .none⟩;
     let s : State := stOf ({ Dev.reset with cmds := nset none [] (cmdKey 3 4095) (some c) });
     s.d.sysHalt = false ∧ s.d.cmd (cmdKey q r) = some c ∧ sqOpc c.ent = 0x01 ∧ s.d.mayStart q c = false ∧ (c.st ≠ .running ∨ c.submitted =
     true)) ∧
    (let q : Nat := 3;
     let r : Nat := 4095;
     let c : Cmd := ⟨0, 0, 2, .fetched, 0, 0, [], [], none, false, [], false, .none⟩;
     let sgl0 : List (Nat × Nat × Nat) := [];
     let sgl1 : List (Nat × Nat × Nat) := [];
     let ans0 : HostAns := .none;
     let ans1 : HostAns := .none;
     let s : State := stOf ({ Dev.reset with cmds := nset none [] (cmdKey 3 4095) (some c) });
     canStart s.d q r 0x02 c ∧
     let oid := s.d.qpOid q c.qp;
     let b0 := sqBuf c.ent 0;
     let b1 := sqBuf c.ent 1;
     let c0 := s.d.bufCode oid b0 sgl0 ans0;
     let c1 := s.d.bufCode oid b1 sgl1 ans1;
     c0 = 0 ∧ c1 = 0) ∧
    (let q : Nat := 3;
     let r : Nat := 4095;
     let c : Cmd := ⟨0, 0, 2 + 2 ^ 224, .fetched, 0, 0, [], [], none, false, [], false, .none⟩;
     let sgl0 : List (Nat × Nat × Nat) := [];
     let ans0 : HostAns := .none;
     let s : State := stOf ({ Dev.reset with cmds := nset none [] (cmdKey 3 4095) (some c) });
     canStart s.d q r 0x02 c ∧
     let oid := s.d.qpOid q c.qp;
     let b0 := sqBuf c.ent 0;
     let c0 := s.d.bufCode oid b0 sgl0 ans0;
     c0 ≠ 0) ∧
    (let q : Nat := 3;
     let r : Nat := 4095;
     let c : Cmd := ⟨0, 0, 2 + 2 ^ 352, .fetched, 0, 0, [], [], none, false, [], false, .none⟩;
     let sgl0 : List (Nat × Nat × Nat) := [];
     let sgl1 : List (Nat × Nat × Nat) := [];
     let ans0 : HostAns := .none;
     let ans1 : HostAns := .none;
     let s : State := stOf ({ Dev.reset with cmds := nset none [] (cmdKey 3 4095) (some c) });
     canStart s.d q r 0x02 c ∧
     let oid := s.d.qpOid q c.qp;
     let b0 := sqBuf c.ent 0;
     let b1 := sqBuf c.ent 1;
     let c0 := s.d.bufCode oid b0 sgl0 ans0;
     let c1 := s.d.bufCode oid b1 sgl1 ans1;
     c0 = 0 ∧ c1 ≠ 0) ∧
    (let q : Nat := 3;
     let r : Nat := 4095;
     let c : Cmd := ⟨0, 0, 3, .fetched, 0, 0, [], [], none, false, [], false, .none⟩;
     let sgl : List (Nat × Nat × Nat) := [];
     let ans : HostAns := .none;
     let s : State := stOf ({ Dev.reset with cmds := nset none [] (cmdKey 3 4095) (some c) });
     canStart s.d q r 0x03 c ∧
     let oid := s.d.qpOid q c.qp;
     let b := sqBuf c.ent 0;
     let c0 := s.d.bufCode oid b sgl ans;
     c0 = 0) ∧
    (let q : Nat := 3;
     let r : Nat := 4095;
     let c : Cmd := ⟨0, 0, 3 + 2 ^ 224, .fetched, 0, 0, [], [], none, false, [], false, .none⟩;
     let sgl : List (Nat × Nat × Nat) := [];
     let ans : HostAns := .none;
     let s : State := stOf ({ Dev.reset with cmds := nset none [] (cmdKey 3 4095) (some c) });
     canStart s.d q r 0x03 c ∧
     let oid := s.d.qpOid q c.qp;
     let b := sqBuf c.ent 0;
     let c0 := s.d.bufCode oid b sgl ans;
     c0 ≠ 0) ∧
    (let q : Nat := 3;
     let r : Nat := 4095;
     let c : Cmd := ⟨0, 0, 4, .fetched, 0, 0, [], [], none, false, [], false, .none⟩;
     let s : State := stOf ({ Dev.reset with cmds := nset none [] (cmdKey 3 4095) (some c) });
     s.d.sysHalt = false ∧ canStart s.d q r 0x04 c) ∧
    (let q : Nat := 3;
     let r : Nat := 4095;
     let s : State := State.reset;
     s.d.sysHalt = false ∧ (∀ c, ¬ canStart s.d q r 0x04 c)) ∧
    (let q : Nat := 3;
     let r : Nat := 4095;
     let c : Cmd := ⟨0, 0, 5, .fetched, 0, 0, [], [], none, false, [], false, .none⟩;
     let s : State := stOf ({ Dev.reset with cmds := nset none [] (cmdKey 3 4095) (some c) });
     canStart s.d q r 0x05 c) ∧
    (let q : Nat := 0;
     let r : Nat := 0;
     let c : Cmd := ⟨0, 0, 6, .fetched, 0, 0, [], [], none, false, [], false, .none⟩;
     let s : State := stOf ({ (Dev.reset.setFld F.PWR_DOM_CUR 2 0 17) with cmds := nset none [] (cmdKey 0 0) (some c) });
     canStart s.d q r 0x06 c ∧
     let kind := sqArg c.ent % 256;
     let idx := bitsOf (sqArg c.ent) 15 8;
     let e := s.d.entRead q (s.d.qpOid q c.qp) idx;
     kind = 0 ∧ e.1 ≠ 0) ∧
    (let q : Nat := 0;
     let r : Nat := 0;
     let c : Cmd := ⟨0, 0, 6, .fetched, 0, 0, [], [], none, false, [], false, .none⟩;
     let s : State := stOf
       ({ (Dev.reset.setRegN (R.SCC_CFG.at 0) 0) with cmds := nset none [] 0 (some (⟨0, 0, 6, .fetched, 0, 0, [], [], none, false, [], false, .none⟩)) });
     canStart s.d q r 0x06 c ∧
     let kind := sqArg c.ent % 256;
     let idx := bitsOf (sqArg c.ent) 15 8;
     let e := s.d.entRead q (s.d.qpOid q c.qp) idx;
     kind = 0 ∧ e.1 = 0) ∧
    (let q : Nat := 3;
     let r : Nat := 4095;
     let c : Cmd := ⟨0, 0, 6 + 1 * 2 ^ 32, .fetched, 0, 0, [], [], none, false, [], false, .none⟩;
     let s : State := stOf ({ Dev.reset with cmds := nset none [] (cmdKey 3 4095) (some c) });
     canStart s.d q r 0x06 c ∧
     let kind := sqArg c.ent % 256;
     let idx := bitsOf (sqArg c.ent) 15 8;
     idx = 0 ∧ kind = 1) ∧
    (let q : Nat := 3;
     let r : Nat := 4095;
     let c : Cmd := ⟨0, 0, 6 + 2 * 2 ^ 32, .fetched, 0, 0, [], [], none, false, [], false, .none⟩;
     let s : State := stOf ({ Dev.reset with cmds := nset none [] (cmdKey 3 4095) (some c) });
     canStart s.d q r 0x06 c ∧
     let kind := sqArg c.ent % 256;
     let idx := bitsOf (sqArg c.ent) 15 8;
     idx = 0 ∧ kind = 2) ∧
    (let q : Nat := 3;
     let r : Nat := 4095;
     let c : Cmd := ⟨0, 0, 6 + 0x101 * 2 ^ 32, .fetched, 0, 0, [], [], none, false, [], false, .none⟩;
     let s : State := stOf ({ Dev.reset with cmds := nset none [] (cmdKey 3 4095) (some c) });
     canStart s.d q r 0x06 c ∧
     let kind := sqArg c.ent % 256;
     let idx := bitsOf (sqArg c.ent) 15 8;
     (2 < kind ∨ (kind ≠ 0 ∧ idx ≠ 0))) ∧
    (let q : Nat := 3;
     let r : Nat := 4095;
     let c : Cmd := ⟨0, 0, 0x4A + 575 * 2 ^ 32 + 4096 * 2 ^ 192, .fetched, 0, 0, [], [], none, false, [], false, .none⟩;
     let s : State := stOf ({ (Dev.reset.setBit (mReg 575 .MSQ_CHCFG) 31 true) with cmds := nset none [] (cmdKey 3 4095) (some c) });
     canStart s.d q r 0x4A c ∧
     let b := sqBuf c.ent 0;
     let m := sqArg c.ent % 1024;
     let good := m < 576 ∧ b.len % 16 = 0 ∧ 0 < b.len ∧ b.len ≤ 4096;
     good ∧ s.d.chEn m = true) ∧
    (let q : Nat := 3;
     let r : Nat := 4095;
     let c : Cmd := ⟨0, 0, 0x4A + 575 * 2 ^ 32 + 4096 * 2 ^ 192, .fetched, 0, 0, [], [], none, false, [], false, .none⟩;
     let s : State := stOf ({ Dev.reset with cmds := nset none [] (cmdKey 3 4095) (some c) });
     canStart s.d q r 0x4A c ∧
     let b := sqBuf c.ent 0;
     let m := sqArg c.ent % 1024;
     let good := m < 576 ∧ b.len % 16 = 0 ∧ 0 < b.len ∧ b.len ≤ 4096;
     good ∧ s.d.chEn m = false) ∧
    (let q : Nat := 3;
     let r : Nat := 4095;
     let c : Cmd := ⟨0, 0, 0x4A + 576 * 2 ^ 32 + 4096 * 2 ^ 192, .fetched, 0, 0, [], [], none, false, [], false, .none⟩;
     let s : State := stOf ({ Dev.reset with cmds := nset none [] (cmdKey 3 4095) (some c) });
     canStart s.d q r 0x4A c ∧
     let b := sqBuf c.ent 0;
     let m := sqArg c.ent % 1024;
     let good := m < 576 ∧ b.len % 16 = 0 ∧ 0 < b.len ∧ b.len ≤ 4096;
     ¬ good) ∧
    (let q : Nat := 3;
     let r : Nat := 4095;
     let s : State := State.reset;
     (∀ c, ¬ canStart s.d q r 0x02 c)) ∧
    (let q : Nat := 3;
     let r : Nat := 4095;
     let s : State := State.reset;
     (∀ c, ¬ canStart s.d q r 0x03 c)) ∧
    (let q : Nat := 3;
     let r : Nat := 4095;
     let s : State := State.reset;
     (∀ c, ¬ canStart s.d q r 0x05 c)) ∧
    (let q : Nat := 3;
     let r : Nat := 4095;
     let s : State := State.reset;
     (∀ c, ¬ canStart s.d q r 0x06 c)) ∧
    (let q : Nat := 3;
     let r : Nat := 4095;
     let s : State := State.reset;
     (∀ c, ¬ canStart s.d q r 0x4A c)) ∧
    (let s : State := stOf ({ Dev.reset with sysHalt := true });
     s.d.sysHalt = true) ∧
    (let q : Nat := 3;
     let r : Nat := 4095;
     let s : State := State.reset;
     s.d.cmd (cmdKey q r) = none) ∧
    (let q : Nat := 3;
     let r : Nat := 4095;
     let c : Cmd := ⟨0, 0, 2, .fetched, 0, 0, [], [], none, false, [], false, .none⟩;
     let s : State := stOf ({ Dev.reset with cmds := nset none [] (cmdKey 3 4095) (some c) });
     s.d.cmd (cmdKey q r) = some c ∧ sqOpc c.ent ≠ 0x01) := by
  refine ⟨?_, ?_, ?_, ?_, ?_, ?_, ?_, ?_, ?_, ?_, ?_, ?_, ?_, ?_, ?_, ?_, ?_, ?_, ?_, ?_, ?_, ?_, ?_, ?_, ?_, ?_, ?_, ?_, ?_, ?_, ?_⟩
  · refine ⟨⟨by decide +kernel, by decide +kernel, by decide +kernel, by decide +kernel⟩, ?_⟩
    dsimp only
    simp only [Dev.entRead]
    rw [hbm_off_low _ _ _ _ (by decide +kernel) (by decide +kernel)]
    exact status_slverr _ _ _ _ _
  · have he : ∀ oid n, oid = 0 → n = 0 → (stOf ({ (Dev.reset.setRegN (R.SCC_CFG.at 0) 0) with mem := [], cmds := nset none [] 0 (some (⟨0, 0, 1, .fetched, 0, 0, [], [], none, false, [], false, .none⟩)) })).d.entRead 0 oid n = (0, 0, (({ (Dev.reset.setRegN (R.SCC_CFG.at 0) 0) with mem := [], cmds := nset none [] 0 (some (⟨0, 0, 1, .fetched, 0, 0, [], [], none, false, [], false, .none⟩)) })).sccMissed 0 0 1) := by
      intro oid n ho hn
      subst ho hn
      simp only [Dev.entRead]
      rw [hbm_read_low] <;> decide +kernel
    refine ⟨⟨by decide +kernel, by decide +kernel, by decide +kernel, by decide +kernel⟩, ?_⟩
    dsimp only
    rw [he _ _ (by decide +kernel) (by decide +kernel)]
    decide +kernel
  · have he : ∀ oid n, oid = 0 → n = 0 → (stOf ({ (Dev.reset.setRegN (R.SCC_CFG.at 0) 0) with mem := [(0, 255), (4, 1), (7, 0x80)], loads := nset LoadRec.none [] 255 ⟨2, 0, [⟨0, 0, 0, 0, []⟩], []⟩, cmds := fullOf (⟨0, 0, 1, .fetched, 0, 0, [], [], none, false, [], false, .none⟩) })).d.entRead 0 oid n = (0, 2 ^ 63 + 2 ^ 32 + 255, ({ (Dev.reset.setRegN (R.SCC_CFG.at 0) 0) with mem := [(0, 255), (4, 1), (7, 0x80)], loads := nset LoadRec.none [] 255 ⟨2, 0, [⟨0, 0, 0, 0, []⟩], []⟩, cmds := fullOf (⟨0, 0, 1, .fetched, 0, 0, [], [], none, false, [], false, .none⟩) }).sccMissed 0 0 1) := by
      intro oid n ho hn
      subst ho hn
      simp only [Dev.entRead]
      rw [hbm_read_low]
      · exact Prod.ext (by decide +kernel) (Prod.ext (by decide +kernel) rfl)
      all_goals decide +kernel
    refine ⟨⟨rfl, full_cmd _ _ rfl _ (by decide), by decide +kernel, full_start _ _ rfl _ rfl⟩, ?_⟩
    dsimp only
    rw [he _ _ (by decide +kernel) (by decide +kernel)]
    exact ⟨rfl, by decide +kernel, noRec _ _ rfl (by decide +kernel)⟩
  · have he : ∀ oid n, oid = 0 → n = 0 → (stOf ({ (((Dev.reset.setRegN (R.SCC_CFG.at 0) 0).setRegN (R.DSP_TCB_BASE.at 0) 0x2000).setFld F.PWR_DOM_CUR 2 0 18) with mem := [(4, 1), (7, 0x80)], cmds := nset none [] 0 (some (⟨0, 0, 1, .fetched, 0, 0, [], [], none, false, [], false, .none⟩)), loads := nset LoadRec.none [] 0 ⟨2, 0, [⟨0, 0, 0, 0, []⟩], []⟩ })).d.entRead 0 oid n = (0, 2 ^ 63 + 2 ^ 32, (({ (((Dev.reset.setRegN (R.SCC_CFG.at 0) 0).setRegN (R.DSP_TCB_BASE.at 0) 0x2000).setFld F.PWR_DOM_CUR 2 0 18) with mem := [(4, 1), (7, 0x80)], cmds := nset none [] 0 (some (⟨0, 0, 1, .fetched, 0, 0, [], [], none, false, [], false, .none⟩)), loads := nset LoadRec.none [] 0 ⟨2, 0, [⟨0, 0, 0, 0, []⟩], []⟩ })).sccMissed 0 0 1) := by
      intro oid n ho hn
      subst ho hn
      simp only [Dev.entRead]
      rw [hbm_read_low] <;> decide +kernel
    have hb : (({ (((Dev.reset.setRegN (R.SCC_CFG.at 0) 0).setRegN (R.DSP_TCB_BASE.at 0) 0x2000).setFld F.PWR_DOM_CUR 2 0 18) with mem := [(4, 1), (7, 0x80)], cmds := nset none [] 0 (some (⟨0, 0, 1, .fetched, 0, 0, [], [], none, false, [], false, .none⟩)), loads := nset LoadRec.none [] 0 ⟨2, 0, [⟨0, 0, 0, 0, []⟩], []⟩ }).sccMissed 0 0 1).buildChain 0 ((({ (((Dev.reset.setRegN (R.SCC_CFG.at 0) 0).setRegN (R.DSP_TCB_BASE.at 0) 0x2000).setFld F.PWR_DOM_CUR 2 0 18) with mem := [(4, 1), (7, 0x80)], cmds := nset none [] 0 (some (⟨0, 0, 1, .fetched, 0, 0, [], [], none, false, [], false, .none⟩)), loads := nset LoadRec.none [] 0 ⟨2, 0, [⟨0, 0, 0, 0, []⟩], []⟩ }).sccMissed 0 0 1).fld F.QP_OWN_LEVEL 0 0) (({ (((Dev.reset.setRegN (R.SCC_CFG.at 0) 0).setRegN (R.DSP_TCB_BASE.at 0) 0x2000).setFld F.PWR_DOM_CUR 2 0 18) with mem := [(4, 1), (7, 0x80)], cmds := nset none [] 0 (some (⟨0, 0, 1, .fetched, 0, 0, [], [], none, false, [], false, .none⟩)), loads := nset LoadRec.none [] 0 ⟨2, 0, [⟨0, 0, 0, 0, []⟩], []⟩ }).qpOid 0 0) 1 (2 ^ 63 + 2 ^ 32) ⟨0, 0, 0, 0, []⟩ [1] = none := by
      simp only [Dev.buildChain]
      rw [hbm_off_low _ _ _ _ (by decide +kernel) (by decide +kernel)]
      rfl
    refine ⟨⟨by decide +kernel, by decide +kernel, by decide +kernel, by decide +kernel⟩, ?_⟩
    dsimp only
    rw [he _ _ (by decide +kernel) (by decide +kernel)]
    exact ⟨by decide +kernel, by decide +kernel, by decide +kernel, hb⟩
  · have he : ∀ oid n, oid = 0 → n = 0 → (stOf ({ (Dev.reset.setRegN (R.SCC_CFG.at 0) 0) with mem := [(4, 1), (7, 0x80)], cmds := nset none [] 0 (some (⟨0, 0, 1, .fetched, 0, 0, [], [], none, false, [], false, .none⟩)), loads := nset LoadRec.none [] 0 ⟨2, 0, [⟨0, 0, 0, 0, []⟩], []⟩ })).d.entRead 0 oid n = (0, 2 ^ 63 + 2 ^ 32, (({ (Dev.reset.setRegN (R.SCC_CFG.at 0) 0) with mem := [(4, 1), (7, 0x80)], cmds := nset none [] 0 (some (⟨0, 0, 1, .fetched, 0, 0, [], [], none, false, [], false, .none⟩)), loads := nset LoadRec.none [] 0 ⟨2, 0, [⟨0, 0, 0, 0, []⟩], []⟩ })).sccMissed 0 0 1) := by
      intro oid n ho hn
      subst ho hn
      simp only [Dev.entRead]
      rw [hbm_read_low] <;> decide +kernel
    have hb : ((({ (Dev.reset.setRegN (R.SCC_CFG.at 0) 0) with mem := [(4, 1), (7, 0x80)], cmds := nset none [] 0 (some (⟨0, 0, 1, .fetched, 0, 0, [], [], none, false, [], false, .none⟩)), loads := nset LoadRec.none [] 0 ⟨2, 0, [⟨0, 0, 0, 0, []⟩], []⟩ }).sccMissed 0 0 1).buildChain 0 ((({ (Dev.reset.setRegN (R.SCC_CFG.at 0) 0) with mem := [(4, 1), (7, 0x80)], cmds := nset none [] 0 (some (⟨0, 0, 1, .fetched, 0, 0, [], [], none, false, [], false, .none⟩)), loads := nset LoadRec.none [] 0 ⟨2, 0, [⟨0, 0, 0, 0, []⟩], []⟩ }).sccMissed 0 0 1).fld F.QP_OWN_LEVEL 0 0) (({ (Dev.reset.setRegN (R.SCC_CFG.at 0) 0) with mem := [(4, 1), (7, 0x80)], cmds := nset none [] 0 (some (⟨0, 0, 1, .fetched, 0, 0, [], [], none, false, [], false, .none⟩)), loads := nset LoadRec.none [] 0 ⟨2, 0, [⟨0, 0, 0, 0, []⟩], []⟩ }).qpOid 0 0) 1 (2 ^ 63 + 2 ^ 32) ⟨0, 0, 0, 0, []⟩ [1]).isSome = true := by
      simp only [Dev.buildChain]
      rw [hbm_write_low]
      · rfl
      all_goals decide +kernel
    refine ⟨⟨by decide +kernel, by decide +kernel, by decide +kernel, by decide +kernel⟩, ?_⟩
    dsimp only
    rw [he _ _ (by decide +kernel) (by decide +kernel)]
    exact ⟨by decide +kernel, by decide +kernel, by decide +kernel, some_getD _ _ hb⟩
  · try dsimp only
    refine ⟨?_, ?_, ?_, ?_, ?_, ?_⟩
    · decide +kernel
    · decide +kernel
    · decide +kernel
    · decide +kernel
    · decide +kernel
    · decide +kernel
  · try dsimp only
    refine ⟨?_, ?_, ?_, ?_, ?_⟩
    · decide +kernel
    · decide +kernel
    · decide +kernel
    · decide +kernel
    · decide +kernel
  · exact ⟨⟨by decide +kernel, by decide +kernel, by decide +kernel, by decide +kernel⟩, by decide +kernel, by decide +kernel⟩
  · exact ⟨⟨by decide +kernel, by decide +kernel, by decide +kernel, by decide +kernel⟩, by decide +kernel⟩
  · exact ⟨⟨by decide +kernel, by decide +kernel, by decide +kernel, by decide +kernel⟩, by decide +kernel, by decide +kernel⟩
  · exact ⟨⟨by decide +kernel, by decide +kernel, by decide +kernel, by decide +kernel⟩, by decide +kernel⟩
  · exact ⟨⟨by decide +kernel, by decide +kernel, by decide +kernel, by decide +kernel⟩, by decide +kernel⟩
  · exact ⟨by decide +kernel, ⟨by decide +kernel, by decide +kernel, by decide +kernel, by decide +kernel⟩⟩
  · exact ⟨by decide +kernel, noCmd (by decide +kernel) _⟩
  · exact ⟨by decide +kernel, by decide +kernel, by decide +kernel, by decide +kernel⟩
  · refine ⟨⟨by decide +kernel, by decide +kernel, by decide +kernel, by decide +kernel⟩, by decide +kernel, ?_⟩
    dsimp only
    simp only [Dev.entRead]
    rw [hbm_off_low _ _ _ _ (by decide +kernel) (by decide +kernel)]
    exact status_slverr _ _ _ _ _
  · have he : ∀ oid n, oid = 0 → n = 0 → (stOf ({ (Dev.reset.setRegN (R.SCC_CFG.at 0) 0) with cmds := nset none [] 0 (some (⟨0, 0, 6, .fetched, 0, 0, [], [], none, false, [], false, .none⟩)) })).d.entRead 0 oid n = (0, 0, (({ (Dev.reset.setRegN (R.SCC_CFG.at 0) 0) with cmds := nset none [] 0 (some (⟨0, 0, 6, .fetched, 0, 0, [], [], none, false, [], false, .none⟩)) })).sccMissed 0 0 1) := by
      intro oid n ho hn
      subst ho hn
      simp only [Dev.entRead]
      rw [hbm_read_low] <;> decide +kernel
    refine ⟨⟨by decide +kernel, by decide +kernel, by decide +kernel, by decide +kernel⟩, by decide +kernel, ?_⟩
    dsimp only
    rw [he _ _ (by decide +kernel) (by decide +kernel)]
  · exact ⟨⟨by decide +kernel, by decide +kernel, by decide +kernel, by decide +kernel⟩, by decide +kernel, by decide +kernel⟩
  · exact ⟨⟨by decide +kernel, by decide +kernel, by decide +kernel, by decide +kernel⟩, by decide +kernel, by decide +kernel⟩
  · exact ⟨⟨by decide +kernel, by decide +kernel, by decide +kernel, by decide +kernel⟩, by decide +kernel⟩
  · exact ⟨⟨by decide +kernel, by decide +kernel, by decide +kernel, by decide +kernel⟩, by decide +kernel, by decide +kernel⟩
  · exact ⟨⟨by decide +kernel, by decide +kernel, by decide +kernel, by decide +kernel⟩, by decide +kernel, by decide +kernel⟩
  · exact ⟨⟨by decide +kernel, by decide +kernel, by decide +kernel, by decide +kernel⟩, by decide +kernel⟩
  · exact noCmd (by decide +kernel) _
  · exact noCmd (by decide +kernel) _
  · exact noCmd (by decide +kernel) _
  · exact noCmd (by decide +kernel) _
  · exact noCmd (by decide +kernel) _
  · try dsimp only
    decide +kernel
  · try dsimp only
    decide +kernel
  · try dsimp only
    refine ⟨?_, ?_⟩
    · decide +kernel
    · decide +kernel

/-- What QueueManagement asks of a state and of operands is met, case by case. -/
theorem witness_QueueManagement :
    (let q : Nat := 3;
     let r : Nat := 4095;
     let c : Cmd := ⟨0, 0, 0x40 + (31 + 65536) * 2 ^ 32 + (16 * 256 + 27) * 2 ^ 128, .fetched, 0, 0, [], [], none, false, [], false, .none⟩;
     let s : State := stOf ({ Dev.reset with cmds := nset none [] (cmdKey 3 4095) (some c) });
     canStart s.d q r 0x40 c ∧
     let oid := sqArg c.ent % 2048;
     let n := bitsOf (sqArg c.ent) 27 16;
     let level := sqP c.ent 0 % 32;
     let maxlog := bitsOf (sqP c.ent 0) 12 8;
     let good := s.d.fnExists oid = true ∧ n < s.d.dbPages oid ∧ ¬ (n = 0 ∧ oid < 32) ∧ level ≤ 27 ∧ 4 ≤ maxlog ∧ maxlog ≤ 16;
     ¬ good) ∧
    (let q : Nat := 3;
     let r : Nat := 4095;
     let c : Cmd := ⟨0, 0, 0x40 + (31 + 65536) * 2 ^ 32 + (16 * 256 + 27) * 2 ^ 128, .fetched, 0, 0, [], [], none, false, [], false, .none⟩;
     let s : State := stOf
       ({ ((host.setFld F.HIF_LCFG_DBQ 1 3 7).setReg (R.QP_OWN.at 3 1023) (BitVec.ofNat 64 (2 ^ 63 + 31 * 2 ^ 48 + 1 * 2 ^ 32))) with cmds := nset none [] (cmdKey 3 4095) (some c) });
     canStart s.d q r 0x40 c ∧
     let oid := sqArg c.ent % 2048;
     let n := bitsOf (sqArg c.ent) 27 16;
     let level := sqP c.ent 0 % 32;
     let maxlog := bitsOf (sqP c.ent 0) 12 8;
     let good := s.d.fnExists oid = true ∧ n < s.d.dbPages oid ∧ ¬ (n = 0 ∧ oid < 32) ∧ level ≤ 27 ∧ 4 ≤ maxlog ∧ maxlog ≤ 16;
     good ∧ s.d.qpOf oid n ≠ none) ∧
    (let q : Nat := 3;
     let r : Nat := 4095;
     let c : Cmd := ⟨0, 0, 0x40 + (31 + 65536) * 2 ^ 32 + (16 * 256 + 27) * 2 ^ 128, .fetched, 0, 0, [], [], none, false, [], false, .none⟩;
     let s : State := stOf
       ({ ({ (host.setFld F.HIF_LCFG_DBQ 1 3 7) with regs := (host.setFld F.HIF_LCFG_DBQ 1 3 7).regs ++ owned }) with cmds := nset none [] (cmdKey 3 4095) (some c) });
     canStart s.d q r 0x40 c ∧
     let oid := sqArg c.ent % 2048;
     let n := bitsOf (sqArg c.ent) 27 16;
     let level := sqP c.ent 0 % 32;
     let maxlog := bitsOf (sqP c.ent 0) 12 8;
     let lq := s.d.fnQuarter oid;
     let good := s.d.fnExists oid = true ∧ n < s.d.dbPages oid ∧ ¬ (n = 0 ∧ oid < 32) ∧ level ≤ 27 ∧ 4 ≤ maxlog ∧ maxlog ≤ 16;
     good ∧ s.d.freePair lq = none) ∧
    (let q : Nat := 3;
     let r : Nat := 4095;
     let c : Cmd := ⟨0, 0, 0x40 + (31 + 65536) * 2 ^ 32 + (16 * 256 + 27) * 2 ^ 128, .fetched, 0, 0, [], [], none, false, [], false, .none⟩;
     let i : Nat := 8;
     let s : State := stOf ({ (host.setFld F.HIF_LCFG_DBQ 1 3 7) with cmds := nset none [] (cmdKey 3 4095) (some c) });
     canStart s.d q r 0x40 c ∧
     let oid := sqArg c.ent % 2048;
     let n := bitsOf (sqArg c.ent) 27 16;
     let level := sqP c.ent 0 % 32;
     let maxlog := bitsOf (sqP c.ent 0) 12 8;
     let lq := s.d.fnQuarter oid;
     let good := s.d.fnExists oid = true ∧ n < s.d.dbPages oid ∧ ¬ (n = 0 ∧ oid < 32) ∧ level ≤ 27 ∧ 4 ≤ maxlog ∧ maxlog ≤ 16;
     good ∧ s.d.qpOf oid n = none ∧ s.d.freePair lq = some i) ∧
    (let q : Nat := 3;
     let r : Nat := 4095;
     let c : Cmd := ⟨0, 0, 0x41 + 65567 * 2 ^ 32, .fetched, 0, 0, [], [], none, false, [], false, .none⟩;
     let s : State := stOf ({ Dev.reset with cmds := nset none [] (cmdKey 3 4095) (some c) });
     canStart s.d q r 0x41 c ∧
     let pair := s.d.qpOf (sqArg c.ent % 2048) (bitsOf (sqArg c.ent) 27 16);
     pair = none) ∧
    (let q : Nat := 3;
     let r : Nat := 4095;
     let c : Cmd := ⟨0, 0, 0x41 + 65567 * 2 ^ 32, .fetched, 0, 0, [], [], none, false, [], false, .none⟩;
     let lq : Nat := 3;
     let i : Nat := 1023;
     let s : State := stOf
       ({ ((Dev.reset.setReg (R.QP_OWN.at 3 1023) (BitVec.ofNat 64 (2 ^ 63 + 31 * 2 ^ 48 + 1 * 2 ^ 32))).setFld F.QP_OWN_ADMIN 1 3 1023) with cmds := nset none [] (cmdKey 3 4095) (some c) });
     canStart s.d q r 0x41 c ∧
     let pair := s.d.qpOf (sqArg c.ent % 2048) (bitsOf (sqArg c.ent) 27 16);
     pair = some (lq, i) ∧ s.d.qpAdmin lq i = true) ∧
    (let q : Nat := 3;
     let r : Nat := 4095;
     let c : Cmd := ⟨0, 0, 0x41 + 65567 * 2 ^ 32, .fetched, 0, 0, [], [], none, false, [], false, .none⟩;
     let lq : Nat := 3;
     let i : Nat := 1023;
     let s : State := stOf
       ({ ((Dev.reset.setReg (R.QP_OWN.at 3 1023) (BitVec.ofNat 64 (2 ^ 63 + 31 * 2 ^ 48 + 1 * 2 ^ 32))).setFld F.QP_STAT_STATE 1 3 1023) with cmds := nset none [] (cmdKey 3 4095) (some c) });
     canStart s.d q r 0x41 c ∧
     let pair := s.d.qpOf (sqArg c.ent % 2048) (bitsOf (sqArg c.ent) 27 16);
     pair = some (lq, i) ∧ s.d.qpAdmin lq i = false ∧ s.d.qpState lq i = 1) ∧
    (let q : Nat := 3;
     let r : Nat := 4095;
     let c : Cmd := ⟨0, 0, 0x41 + 65567 * 2 ^ 32, .fetched, 0, 0, [], [], none, false, [], false, .none⟩;
     let lq : Nat := 3;
     let i : Nat := 1023;
     let s : State := stOf
       ({ ((Dev.reset.setReg (R.QP_OWN.at 3 1023) (BitVec.ofNat 64 (2 ^ 63 + 31 * 2 ^ 48 + 1 * 2 ^ 32))).setFld F.QP_STAT_STATE 2 3 1023) with cmds := nset none [] (cmdKey 3 4095) (some c) });
     canStart s.d q r 0x41 c ∧
     let pair := s.d.qpOf (sqArg c.ent % 2048) (bitsOf (sqArg c.ent) 27 16);
     pair = some (lq, i) ∧ s.d.qpAdmin lq i = false ∧ s.d.qpState lq i ≠ 1) ∧
    (let q : Nat := 3;
     let r : Nat := 4095;
     let c : Cmd := ⟨0, 0, 0x42 + (2 ^ 17 - 1) * 2 ^ 32, .fetched, 0, 0, [], [], none, false, [], false, .none⟩;
     let s : State := stOf ({ Dev.reset with cmds := nset none [] (cmdKey 3 4095) (some c) });
     canStart s.d q r 0x42 c ∧
     let g := sqArg c.ent % 2 ^ 17;
     let wq := g / winPerQuarter Config.order;
     4 ≤ wq) ∧
    (let q : Nat := 3;
     let r : Nat := 4095;
     let c : Cmd := ⟨0, 0, 0x42, .fetched, 0, 0, [], [], none, false, [], false, .none⟩;
     let s : State := stOf ({ (Dev.reset.setBit (R.WIN_ENT.at 0 0) 30 true) with cmds := nset none [] (cmdKey 3 4095) (some c) });
     canStart s.d q r 0x42 c ∧
     let g := sqArg c.ent % 2 ^ 17;
     let wq := g / winPerQuarter Config.order;
     let i := g % winPerQuarter Config.order;
     wq < 4 ∧ s.d.winEntOk wq i = false) ∧
    (let q : Nat := 3;
     let r : Nat := 4095;
     let c : Cmd := ⟨0, 0, 0x42 + 2047 * 2 ^ 128, .fetched, 0, 0, [], [], none, false, [], false, .none⟩;
     let s : State := stOf ({ Dev.reset with cmds := nset none [] (cmdKey 3 4095) (some c) });
     canStart s.d q r 0x42 c ∧
     let g := sqArg c.ent % 2 ^ 17;
     let wq := g / winPerQuarter Config.order;
     let i := g % winPerQuarter Config.order;
     let d1 := s.d.winEntSet wq i (sqP c.ent 0);
     let molts := (d1.reg (R.WIN_ENT.at wq i)).getLsbD 30 = true;
     wq < 4 ∧ s.d.winEntOk wq i = true ∧ molts) ∧
    (let q : Nat := 3;
     let r : Nat := 4095;
     let c : Cmd := ⟨0, 0, 0x42, .fetched, 0, 0, [], [], none, false, [], false, .none⟩;
     let s : State := stOf ({ Dev.reset with cmds := nset none [] (cmdKey 3 4095) (some c) });
     canStart s.d q r 0x42 c ∧
     let g := sqArg c.ent % 2 ^ 17;
     let wq := g / winPerQuarter Config.order;
     let i := g % winPerQuarter Config.order;
     let d1 := s.d.winEntSet wq i (sqP c.ent 0);
     let molts := (d1.reg (R.WIN_ENT.at wq i)).getLsbD 30 = true;
     wq < 4 ∧ s.d.winEntOk wq i = true ∧ ¬ molts) ∧
    (let q : Nat := 3;
     let r : Nat := 4095;
     let opc : Nat := 0x44;
     let c : Cmd := ⟨0, 0, 0x44 + (255) * 2 ^ 32, .fetched, 0, 0, [], [], none, false, [], false, .none⟩;
     let s : State := stOf
       ({ ((slot255 stTadpole).setRegN (slotReg 255 .SLOT_FRAME) 65535) with cmds := nset none [] (cmdKey 3 4095) (some c) });
     canStart s.d q r opc c ∧
     let sl := sqArg c.ent % 256;
     let m := sliceMst q;
     let dS := xStart m (sl / 4) (sl % 4) s.d;
     let starts := (s.d.ctl sl).busy ≠ .starting ∧ (dS.ctl sl).busy = .starting;
     s.d.hasAnchor sl = true ∧ opc = 0x44 ∧ starts) ∧
    (let q : Nat := 3;
     let r : Nat := 4095;
     let opc : Nat := 0x44;
     let c : Cmd := ⟨0, 0, 0x44 + (255) * 2 ^ 32, .fetched, 0, 0, [], [], none, false, [], false, .none⟩;
     let s : State := stOf ({ (slot255 stLive) with cmds := nset none [] (cmdKey 3 4095) (some c) });
     canStart s.d q r opc c ∧
     let sl := sqArg c.ent % 256;
     let m := sliceMst q;
     let dS := xStart m (sl / 4) (sl % 4) s.d;
     let starts := (s.d.ctl sl).busy ≠ .starting ∧ (dS.ctl sl).busy = .starting;
     s.d.hasAnchor sl = true ∧ opc = 0x44 ∧ ¬ starts) ∧
    (let q : Nat := 3;
     let r : Nat := 4095;
     let opc : Nat := 0x45;
     let c : Cmd := ⟨0, 0, 0x45 + (255) * 2 ^ 32, .fetched, 0, 0, [], [], none, false, [], false, .none⟩;
     let s : State := stOf ({ (slot255 stLive) with cmds := nset none [] (cmdKey 3 4095) (some c) });
     canStart s.d q r opc c ∧
     let sl := sqArg c.ent % 256;
     let m := sliceMst q;
     let dD := xStopDrain m (sl / 4) (sl % 4) s.clk s.d;
     let abort := (sqArg c.ent).testBit 8;
     s.d.hasAnchor sl = true ∧ opc = 0x45 ∧ abort = false ∧ dD.stopRuns sl = true) ∧
    (let q : Nat := 3;
     let r : Nat := 4095;
     let opc : Nat := 0x45;
     let c : Cmd := ⟨0, 0, 0x45 + (255) * 2 ^ 32, .fetched, 0, 0, [], [], none, false, [], false, .none⟩;
     let s : State := stOf ({ (slot255 stStopped) with cmds := nset none [] (cmdKey 3 4095) (some c) });
     canStart s.d q r opc c ∧
     let sl := sqArg c.ent % 256;
     let m := sliceMst q;
     let dD := xStopDrain m (sl / 4) (sl % 4) s.clk s.d;
     let abort := (sqArg c.ent).testBit 8;
     s.d.hasAnchor sl = true ∧ opc = 0x45 ∧ abort = false ∧ dD.stopRuns sl = false) ∧
    (let q : Nat := 3;
     let r : Nat := 4095;
     let opc : Nat := 0x45;
     let c : Cmd := ⟨0, 0, 0x45 + (255 + 256) * 2 ^ 32, .fetched, 0, 0, [], [], none, false, [], false, .none⟩;
     let s : State := stOf ({ (slot255 stLive) with cmds := nset none [] (cmdKey 3 4095) (some c) });
     canStart s.d q r opc c ∧
     let sl := sqArg c.ent % 256;
     let m := sliceMst q;
     let dA := xStopAbort m (sl / 4) (sl % 4) s.clk s.d;
     let abort := (sqArg c.ent).testBit 8;
     s.d.hasAnchor sl = true ∧ opc = 0x45 ∧ abort = true ∧ dA.stopRuns sl = true) ∧
    (let q : Nat := 3;
     let r : Nat := 4095;
     let opc : Nat := 0x45;
     let c : Cmd := ⟨0, 0, 0x45 + (255 + 256) * 2 ^ 32, .fetched, 0, 0, [], [], none, false, [], false, .none⟩;
     let s : State := stOf ({ (slot255 stStopped) with cmds := nset none [] (cmdKey 3 4095) (some c) });
     canStart s.d q r opc c ∧
     let sl := sqArg c.ent % 256;
     let m := sliceMst q;
     let dA := xStopAbort m (sl / 4) (sl % 4) s.clk s.d;
     let abort := (sqArg c.ent).testBit 8;
     s.d.hasAnchor sl = true ∧ opc = 0x45 ∧ abort = true ∧ dA.stopRuns sl = false) ∧
    (let q : Nat := 3;
     let r : Nat := 4095;
     let opc : Nat := 0x46;
     let c : Cmd := ⟨0, 0, 0x46 + (255) * 2 ^ 32, .fetched, 0, 0, [], [], none, false, [], false, .none⟩;
     let s : State := stOf ({ (slot255 stStopped) with cmds := nset none [] (cmdKey 3 4095) (some c) });
     canStart s.d q r opc c ∧
     let sl := sqArg c.ent % 256;
     let m := sliceMst q;
     let dM := xMolt m (sl / 4) (sl % 4) s.clk s.d;
     let molts := s.d.slotBusy sl = false ∧ (dM.ctl sl).busy = .molting;
     s.d.hasAnchor sl = true ∧ opc = 0x46 ∧ molts) ∧
    (let q : Nat := 3;
     let r : Nat := 4095;
     let opc : Nat := 0x46;
     let c : Cmd := ⟨0, 0, 0x46 + (255) * 2 ^ 32, .fetched, 0, 0, [], [], none, false, [], false, .none⟩;
     let s : State := stOf
       ({ ((slot255 stStopped).setCtl 255 { SlotCtl.zero with busy := .starting }) with cmds := nset none [] (cmdKey 3 4095) (some c) });
     canStart s.d q r opc c ∧
     let sl := sqArg c.ent % 256;
     let m := sliceMst q;
     let dM := xMolt m (sl / 4) (sl % 4) s.clk s.d;
     let molts := s.d.slotBusy sl = false ∧ (dM.ctl sl).busy = .molting;
     s.d.hasAnchor sl = true ∧ opc = 0x46 ∧ ¬ molts) ∧
    (let q : Nat := 3;
     let r : Nat := 4095;
     let opc : Nat := 0x44;
     let c : Cmd := ⟨0, 0, 0x44 + (255) * 2 ^ 32, .fetched, 0, 0, [], [], none, false, [], false, .none⟩;
     let s : State := stOf ({ Dev.reset with cmds := nset none [] (cmdKey 3 4095) (some c) });
     canStart s.d q r opc c ∧
     let sl := sqArg c.ent % 256;
     s.d.hasAnchor sl = false ∧ opc = 0x44) ∧
    (let q : Nat := 3;
     let r : Nat := 4095;
     let opc : Nat := 0x45;
     let c : Cmd := ⟨0, 0, 0x45 + (255) * 2 ^ 32, .fetched, 0, 0, [], [], none, false, [], false, .none⟩;
     let s : State := stOf ({ Dev.reset with cmds := nset none [] (cmdKey 3 4095) (some c) });
     canStart s.d q r opc c ∧
     let sl := sqArg c.ent % 256;
     let abort := (sqArg c.ent).testBit 8;
     s.d.hasAnchor sl = false ∧ opc = 0x45 ∧ abort = false) ∧
    (let q : Nat := 3;
     let r : Nat := 4095;
     let opc : Nat := 0x45;
     let c : Cmd := ⟨0, 0, 0x45 + (255 + 256) * 2 ^ 32, .fetched, 0, 0, [], [], none, false, [], false, .none⟩;
     let s : State := stOf ({ Dev.reset with cmds := nset none [] (cmdKey 3 4095) (some c) });
     canStart s.d q r opc c ∧
     let sl := sqArg c.ent % 256;
     let abort := (sqArg c.ent).testBit 8;
     s.d.hasAnchor sl = false ∧ opc = 0x45 ∧ abort = true) ∧
    (let q : Nat := 3;
     let r : Nat := 4095;
     let opc : Nat := 0x46;
     let c : Cmd := ⟨0, 0, 0x46 + (255) * 2 ^ 32, .fetched, 0, 0, [], [], none, false, [], false, .none⟩;
     let s : State := stOf ({ Dev.reset with cmds := nset none [] (cmdKey 3 4095) (some c) });
     canStart s.d q r opc c ∧
     let sl := sqArg c.ent % 256;
     s.d.hasAnchor sl = false ∧ opc = 0x46) ∧
    (let q : Nat := 3;
     let r : Nat := 4095;
     let opc : Nat := 0x45;
     let c : Cmd := ⟨0, 0, 0x45 + (256) * 2 ^ 32, .fetched, 0, 0, [], [], none, false, [], false, .none⟩;
     let s : State := stOf ({ Dev.reset with cmds := nset none [] (cmdKey 3 4095) (some c) });
     canStart s.d q r opc c ∧
     let abort := (sqArg c.ent).testBit 8;
     opc = 0x45 ∧ abort = true) ∧
    (let q : Nat := 3;
     let r : Nat := 4095;
     let opc : Nat := 0x45;
     let c : Cmd := ⟨0, 0, 0x45 + (0) * 2 ^ 32, .fetched, 0, 0, [], [], none, false, [], false, .none⟩;
     let s : State := stOf ({ Dev.reset with cmds := nset none [] (cmdKey 3 4095) (some c) });
     canStart s.d q r opc c ∧
     let abort := (sqArg c.ent).testBit 8;
     opc = 0x45 ∧ abort = false) ∧
    (let q : Nat := 3;
     let r : Nat := 4095;
     let c : Cmd := ⟨0, 0, 0x47 + 1056 * 2 ^ 32, .fetched, 0, 0, [], [], none, false, [], false, .none⟩;
     let s : State := stOf ({ Dev.reset with cmds := nset none [] (cmdKey 3 4095) (some c) });
     canStart s.d q r 0x47 c ∧
     let oid := sqArg c.ent % 2048;
     1056 ≤ oid) ∧
    (let q : Nat := 3;
     let r : Nat := 4095;
     let c : Cmd := ⟨0, 0, 0x47 + 1055 * 2 ^ 32, .fetched, 0, 0, [], [], none, false, [], false, .none⟩;
     let s : State := stOf ({ Dev.reset with cmds := nset none [] (cmdKey 3 4095) (some c) });
     canStart s.d q r 0x47 c ∧
     let oid := sqArg c.ent % 2048;
     let p := sqP c.ent 0;
     oid < 1056 ∧ p.testBit 31 = false) ∧
    (let q : Nat := 3;
     let r : Nat := 4095;
     let c : Cmd := ⟨0, 0, 0x47 + 1055 * 2 ^ 32 + (2 ^ 31 + 255) * 2 ^ 128, .fetched, 0, 0, [], [], none, false, [], false, .none⟩;
     let s : State := stOf ({ (Dev.reset.setBit (slotReg 255 .SLOT_STAT) 30 true) with cmds := nset none [] (cmdKey 3 4095) (some c) });
     canStart s.d q r 0x47 c ∧
     let oid := sqArg c.ent % 2048;
     let p := sqP c.ent 0;
     let sl := p % 256;
     let names := oid < 1056 ∧ p.testBit 31 = true;
     names ∧ s.d.sweeping sl = true) ∧
    (let q : Nat := 3;
     let r : Nat := 4095;
     let c : Cmd := ⟨0, 0, 0x47 + 1055 * 2 ^ 32 + (2 ^ 31 + 255) * 2 ^ 128, .fetched, 0, 0, [], [], none, false, [], false, .none⟩;
     let s : State := stOf ({ Dev.reset with cmds := nset none [] (cmdKey 3 4095) (some c) });
     canStart s.d q r 0x47 c ∧
     let oid := sqArg c.ent % 2048;
     let p := sqP c.ent 0;
     let sl := p % 256;
     let names := oid < 1056 ∧ p.testBit 31 = true;
     names ∧ s.d.sweeping sl = false ∧ s.d.entryOk sl (bitsOf p 11 8) oid = false) ∧
    (let q : Nat := 3;
     let r : Nat := 4095;
     let c : Cmd := ⟨0, 0, 0x47 + 1055 * 2 ^ 32 + (2 ^ 31 + 255) * 2 ^ 128, .fetched, 0, 0, [], [], none, false, [], false, .none⟩;
     let s : State := stOf
       ({ ({ Dev.reset with loads := nset LoadRec.none [] 255 ⟨2, 0, [⟨0, 4, 0, 0, []⟩], []⟩ }) with cmds := nset none [] (cmdKey 3 4095) (some c) });
     canStart s.d q r 0x47 c ∧
     let oid := sqArg c.ent % 2048;
     let p := sqP c.ent 0;
     let sl := p % 256;
     let names := oid < 1056 ∧ p.testBit 31 = true;
     names ∧ s.d.sweeping sl = false ∧ s.d.entryOk sl (bitsOf p 11 8) oid = true) ∧
    (let q : Nat := 3;
     let r : Nat := 4095;
     let s : State := State.reset;
     (∀ c, ¬ canStart s.d q r 0x40 c)) ∧
    (let q : Nat := 3;
     let r : Nat := 4095;
     let s : State := State.reset;
     (∀ c, ¬ canStart s.d q r 0x41 c)) ∧
    (let q : Nat := 3;
     let r : Nat := 4095;
     let s : State := State.reset;
     (∀ c, ¬ canStart s.d q r 0x42 c)) ∧
    (let q : Nat := 3;
     let r : Nat := 4095;
     let s : State := State.reset;
     (∀ c, ¬ canStart s.d q r 0x44 c)) ∧
    (let q : Nat := 3;
     let r : Nat := 4095;
     let s : State := State.reset;
     (∀ c, ¬ canStart s.d q r 0x45 c)) ∧
    (let q : Nat := 3;
     let r : Nat := 4095;
     let s : State := State.reset;
     (∀ c, ¬ canStart s.d q r 0x46 c)) ∧
    (let q : Nat := 3;
     let r : Nat := 4095;
     let s : State := State.reset;
     (∀ c, ¬ canStart s.d q r 0x47 c)) := by
  refine ⟨?_, ?_, ?_, ?_, ?_, ?_, ?_, ?_, ?_, ?_, ?_, ?_, ?_, ?_, ?_, ?_, ?_, ?_, ?_, ?_, ?_, ?_, ?_, ?_, ?_, ?_, ?_, ?_, ?_, ?_, ?_,
    ?_, ?_, ?_, ?_, ?_, ?_, ?_⟩
  · exact ⟨⟨by decide +kernel, by decide +kernel, by decide +kernel, by decide +kernel⟩, by decide +kernel⟩
  · exact ⟨⟨by decide +kernel, by decide +kernel, by decide +kernel, by decide +kernel⟩, by decide +kernel, by decide +kernel⟩
  · refine ⟨⟨by decide +kernel, by decide +kernel, by decide +kernel, by decide +kernel⟩, by decide +kernel, ?_⟩
    exact noPair _ _ rfl (by decide +kernel)
  · exact ⟨⟨by decide +kernel, by decide +kernel, by decide +kernel, by decide +kernel⟩, by decide +kernel, by decide +kernel, by decide +kernel⟩
  · exact ⟨⟨by decide +kernel, by decide +kernel, by decide +kernel, by decide +kernel⟩, by decide +kernel⟩
  · exact ⟨⟨by decide +kernel, by decide +kernel, by decide +kernel, by decide +kernel⟩, by decide +kernel, by decide +kernel⟩
  · exact ⟨⟨by decide +kernel, by decide +kernel, by decide +kernel, by decide +kernel⟩, by decide +kernel, by decide +kernel, by decide +kernel⟩
  · exact ⟨⟨by decide +kernel, by decide +kernel, by decide +kernel, by decide +kernel⟩, by decide +kernel, by decide +kernel, by decide +kernel⟩
  · exact ⟨⟨by decide +kernel, by decide +kernel, by decide +kernel, by decide +kernel⟩, four_le _ (by decide +kernel)⟩
  · refine ⟨⟨by decide +kernel, by decide +kernel, by decide +kernel, by decide +kernel⟩, ?_⟩
    dsimp only
    rw [show sqArg 0x42 % 2 ^ 17 = 0 by decide +kernel, Nat.zero_div, Nat.zero_mod]
    exact ⟨by decide +kernel, winEntOk_not _ _ _ (by decide +kernel)⟩
  · refine ⟨⟨by decide +kernel, by decide +kernel, by decide +kernel, by decide +kernel⟩, ?_⟩
    dsimp only
    rw [show sqArg (0x42 + 2047 * 2 ^ 128) % 2 ^ 17 = 0 by decide +kernel, Nat.zero_div, Nat.zero_mod]
    refine ⟨by decide +kernel, winEntOk_of _ _ _ (by have := winPerQuarter_ge; omega) (by decide +kernel) (by decide +kernel), ?_⟩
    decide +kernel
  · refine ⟨⟨by decide +kernel, by decide +kernel, by decide +kernel, by decide +kernel⟩, ?_⟩
    dsimp only
    rw [show sqArg 0x42 % 2 ^ 17 = 0 by decide +kernel, Nat.zero_div, Nat.zero_mod]
    exact ⟨by decide +kernel, winEntOk_of _ _ _ (by have := winPerQuarter_ge; omega) (by decide +kernel) (by decide +kernel), by decide +kernel⟩
  · exact ⟨⟨by decide +kernel, by decide +kernel, by decide +kernel, by decide +kernel⟩, by decide +kernel, by decide +kernel, by decide +kernel⟩
  · exact ⟨⟨by decide +kernel, by decide +kernel, by decide +kernel, by decide +kernel⟩, by decide +kernel, by decide +kernel, by decide +kernel⟩
  · exact ⟨⟨by decide +kernel, by decide +kernel, by decide +kernel, by decide +kernel⟩, by decide +kernel, by decide +kernel, by decide +kernel, by decide +kernel⟩
  · exact ⟨⟨by decide +kernel, by decide +kernel, by decide +kernel, by decide +kernel⟩, by decide +kernel, by decide +kernel, by decide +kernel, by decide +kernel⟩
  · exact ⟨⟨by decide +kernel, by decide +kernel, by decide +kernel, by decide +kernel⟩, by decide +kernel, by decide +kernel, by decide +kernel, by decide +kernel⟩
  · exact ⟨⟨by decide +kernel, by decide +kernel, by decide +kernel, by decide +kernel⟩, by decide +kernel, by decide +kernel, by decide +kernel, by decide +kernel⟩
  · exact ⟨⟨by decide +kernel, by decide +kernel, by decide +kernel, by decide +kernel⟩, by decide +kernel, by decide +kernel, by decide +kernel⟩
  · exact ⟨⟨by decide +kernel, by decide +kernel, by decide +kernel, by decide +kernel⟩, by decide +kernel, by decide +kernel, by decide +kernel⟩
  · exact ⟨⟨by decide +kernel, by decide +kernel, by decide +kernel, by decide +kernel⟩, by decide +kernel, by decide +kernel⟩
  · exact ⟨⟨by decide +kernel, by decide +kernel, by decide +kernel, by decide +kernel⟩, by decide +kernel, by decide +kernel, by decide +kernel⟩
  · exact ⟨⟨by decide +kernel, by decide +kernel, by decide +kernel, by decide +kernel⟩, by decide +kernel, by decide +kernel, by decide +kernel⟩
  · exact ⟨⟨by decide +kernel, by decide +kernel, by decide +kernel, by decide +kernel⟩, by decide +kernel, by decide +kernel⟩
  · exact ⟨⟨by decide +kernel, by decide +kernel, by decide +kernel, by decide +kernel⟩, by decide +kernel, by decide +kernel⟩
  · exact ⟨⟨by decide +kernel, by decide +kernel, by decide +kernel, by decide +kernel⟩, by decide +kernel, by decide +kernel⟩
  · exact ⟨⟨by decide +kernel, by decide +kernel, by decide +kernel, by decide +kernel⟩, by decide +kernel⟩
  · exact ⟨⟨by decide +kernel, by decide +kernel, by decide +kernel, by decide +kernel⟩, by decide +kernel, by decide +kernel⟩
  · exact ⟨⟨by decide +kernel, by decide +kernel, by decide +kernel, by decide +kernel⟩, by decide +kernel, by decide +kernel⟩
  · exact ⟨⟨by decide +kernel, by decide +kernel, by decide +kernel, by decide +kernel⟩, by decide +kernel, by decide +kernel, by decide +kernel⟩
  · exact ⟨⟨by decide +kernel, by decide +kernel, by decide +kernel, by decide +kernel⟩, by decide +kernel, by decide +kernel, by decide +kernel⟩
  · exact noCmd (by decide +kernel) _
  · exact noCmd (by decide +kernel) _
  · exact noCmd (by decide +kernel) _
  · exact noCmd (by decide +kernel) _
  · exact noCmd (by decide +kernel) _
  · exact noCmd (by decide +kernel) _
  · exact noCmd (by decide +kernel) _

/-- What QuenchTongue asks of a state and of operands is met, case by case. -/
theorem witness_QuenchTongue :
    (let q : Nat := 3;
     let r : Nat := 4095;
     let c : Cmd := ⟨0, 0, 0x48 + (65567) * 2 ^ 32, .fetched, 0, 0, [], [], none, false, [], false, .none⟩;
     let l : List (Nat × Nat) := [(3, 1023)];
     let s : State := stOf
       ({ (Dev.reset.setReg (R.QP_OWN.at 3 1023) (BitVec.ofNat 64 (2 ^ 63 + 31 * 2 ^ 48 + 1 * 2 ^ 32))) with cmds := nset none [] (cmdKey 3 4095) (some c) });
     canStart s.d q r 0x48 c ∧
     let abort := (sqArg c.ent).testBit 28;
     let named := s.d.namedPairs (sqArg c.ent);
     named = some l ∧ abort = false) ∧
    (let q : Nat := 3;
     let r : Nat := 4095;
     let c : Cmd := ⟨0, 0, 0x48 + (268501023) * 2 ^ 32, .fetched, 0, 0, [], [], none, false, [], false, .none⟩;
     let l : List (Nat × Nat) := [(3, 1023)];
     let s : State := stOf
       ({ (Dev.reset.setReg (R.QP_OWN.at 3 1023) (BitVec.ofNat 64 (2 ^ 63 + 31 * 2 ^ 48 + 1 * 2 ^ 32))) with cmds := nset none [] (cmdKey 3 4095) (some c) });
     canStart s.d q r 0x48 c ∧
     let abort := (sqArg c.ent).testBit 28;
     let named := s.d.namedPairs (sqArg c.ent);
     named = some l ∧ abort = true) ∧
    (let q : Nat := 3;
     let r : Nat := 4095;
     let c : Cmd := ⟨0, 0, 0x48 + (65567) * 2 ^ 32, .fetched, 0, 0, [], [], none, false, [], false, .none⟩;
     let s : State := stOf ({ Dev.reset with cmds := nset none [] (cmdKey 3 4095) (some c) });
     canStart s.d q r 0x48 c ∧
     let abort := (sqArg c.ent).testBit 28;
     let named := s.d.namedPairs (sqArg c.ent);
     named = none ∧ abort = false) ∧
    (let q : Nat := 3;
     let r : Nat := 4095;
     let c : Cmd := ⟨0, 0, 0x48 + (268501023) * 2 ^ 32, .fetched, 0, 0, [], [], none, false, [], false, .none⟩;
     let s : State := stOf ({ Dev.reset with cmds := nset none [] (cmdKey 3 4095) (some c) });
     canStart s.d q r 0x48 c ∧
     let abort := (sqArg c.ent).testBit 28;
     let named := s.d.namedPairs (sqArg c.ent);
     named = none ∧ abort = true) ∧
    (let q : Nat := 3;
     let r : Nat := 4095;
     let c : Cmd := ⟨0, 0, 0x48 + (268501023) * 2 ^ 32, .fetched, 0, 0, [], [], none, false, [], false, .none⟩;
     let s : State := stOf ({ Dev.reset with cmds := nset none [] (cmdKey 3 4095) (some c) });
     canStart s.d q r 0x48 c ∧
     let abort := (sqArg c.ent).testBit 28;
     abort = true) ∧
    (let q : Nat := 3;
     let r : Nat := 4095;
     let c : Cmd := ⟨0, 0, 0x48 + (65567) * 2 ^ 32, .fetched, 0, 0, [], [], none, false, [], false, .none⟩;
     let s : State := stOf ({ Dev.reset with cmds := nset none [] (cmdKey 3 4095) (some c) });
     canStart s.d q r 0x48 c ∧
     let abort := (sqArg c.ent).testBit 28;
     abort = false) ∧
    (let q : Nat := 3;
     let r : Nat := 4095;
     let c : Cmd := ⟨0, 0, 0x49 + (65567) * 2 ^ 32, .fetched, 0, 0, [], [], none, false, [], false, .none⟩;
     let l : List (Nat × Nat) := [(3, 1023)];
     let s : State := stOf
       ({ (Dev.reset.setReg (R.QP_OWN.at 3 1023) (BitVec.ofNat 64 (2 ^ 63 + 31 * 2 ^ 48 + 1 * 2 ^ 32))) with cmds := nset none [] (cmdKey 3 4095) (some c) });
     canStart s.d q r 0x49 c ∧
     let named := s.d.namedPairs (sqArg c.ent);
     named = some l) ∧
    (let q : Nat := 3;
     let r : Nat := 4095;
     let c : Cmd := ⟨0, 0, 0x49 + (65567) * 2 ^ 32, .fetched, 0, 0, [], [], none, false, [], false, .none⟩;
     let s : State := stOf ({ Dev.reset with cmds := nset none [] (cmdKey 3 4095) (some c) });
     canStart s.d q r 0x49 c ∧
     let named := s.d.namedPairs (sqArg c.ent);
     named = none) ∧
    (let q : Nat := 0;
     let r : Nat := 0;
     let c : Cmd := ⟨0, 0, 0x4B, .fetched, 0, 0, [], [], none, false, [], false, .none⟩;
     let s : State := stOf
       ({ (Dev.reset.setFld F.PWR_DOM_CUR 2 0 17) with cmds := nset none [] 0 (some (⟨0, 0, 0x4B, .fetched, 0, 0, [], [], none, false, [], false, .none⟩)) });
     canStart s.d q r 0x4B c ∧
     let k := cmdKey q r;
     let a := getBits (s.d.reg (R.QE_FW_BASE.at q)) 47 11 * 2048 + 64 * (k % 4096);
     let w := s.d.memIdle (wrReq (sliceMid q) 0 a 64 c.ent);
     w.2.code ≠ .okay) ∧
    (let q : Nat := 0;
     let r : Nat := 0;
     let c : Cmd := ⟨0, 0, 0x4B, .fetched, 0, 0, [], [], none, false, [], false, .none⟩;
     let s : State := stOf
       ({ (Dev.reset.setRegN (R.SCC_CFG.at 0) 0) with cmds := nset none [] 0 (some (⟨0, 0, 0x4B, .fetched, 0, 0, [], [], none, false, [], false, .none⟩)) });
     canStart s.d q r 0x4B c ∧
     let k := cmdKey q r;
     let ch := s.d.regN (R.QE_FW_CHAN.at q) % 256;
     let a := getBits (s.d.reg (R.QE_FW_BASE.at q)) 47 11 * 2048 + 64 * (k % 4096);
     let w := s.d.memIdle (wrReq (sliceMid q) 0 a 64 c.ent);
     let d1 := xMbxSptr (sliceMst q) q ch a w.1;
     w.2.code = .okay ∧ d1.out.code ≠ .okay) ∧
    (let q : Nat := 0;
     let r : Nat := 0;
     let c : Cmd := ⟨0, 0, 0x4B, .fetched, 0, 0, [], [], none, false, [], false, .none⟩;
     let s : State := stOf
       ({ ((Dev.reset.setRegN (R.SCC_CFG.at 0) 0).setRegN (R.MBX_LOCK.at 0 0) (2 ^ 63 + 0x03F * 2 ^ 48 + 0x440)) with cmds := nset none [] 0 (some (⟨0, 0, 0x4B, .fetched, 0, 0, [], [], none, false, [], false, .none⟩)) });
     canStart s.d q r 0x4B c ∧
     let k := cmdKey q r;
     let ch := s.d.regN (R.QE_FW_CHAN.at q) % 256;
     let a := getBits (s.d.reg (R.QE_FW_BASE.at q)) 47 11 * 2048 + 64 * (k % 4096);
     let w := s.d.memIdle (wrReq (sliceMid q) 0 a 64 c.ent);
     let d1 := xMbxSptr (sliceMst q) q ch a w.1;
     let d2 := xMbxSlt (sliceMst q) q ch ((k % 4096 + nget 0 d1.epochs k * 4096) * 2 ^ 32 + 64) d1;
     w.2.code = .okay ∧ d1.out.code = .okay ∧ d2.out.code ≠ .okay) ∧
    (let q : Nat := 0;
     let r : Nat := 0;
     let c : Cmd := ⟨0, 0, 0x4B, .fetched, 0, 0, [], [], none, false, [], false, .none⟩;
     let s : State := stOf
       ({ ((Dev.reset.setRegN (R.SCC_CFG.at 0) 0).setRegN (R.MBX_LOCK.at 0 0) (2 ^ 63 + 0x4C0 * 2 ^ 48 + 0x440)) with cmds := nset none [] 0 (some (⟨0, 0, 0x4B, .fetched, 0, 0, [], [], none, false, [], false, .none⟩)) });
     canStart s.d q r 0x4B c ∧
     let k := cmdKey q r;
     let ch := s.d.regN (R.QE_FW_CHAN.at q) % 256;
     let a := getBits (s.d.reg (R.QE_FW_BASE.at q)) 47 11 * 2048 + 64 * (k % 4096);
     let w := s.d.memIdle (wrReq (sliceMid q) 0 a 64 c.ent);
     let d1 := xMbxSptr (sliceMst q) q ch a w.1;
     let d2 := xMbxSlt (sliceMst q) q ch ((k % 4096 + nget 0 d1.epochs k * 4096) * 2 ^ 32 + 64) d1;
     w.2.code = .okay ∧ d1.out.code = .okay ∧ d2.out.code = .okay) ∧
    (let m : Mst := fw;
     let v : Nat := 255 * 2 ^ 40;
     m.oid = 0 ∧ 0x0C < bitsOf v 47 40) ∧
    (let m : Mst := fw;
     let q : Nat := 3;
     let v : Nat := 4095 * 2 ^ 48;
     let c : Cmd := ⟨0, 0, 0x4B, .running, 0, 0, [], [], none, false, [], false, .none⟩;
     let s : State := stOf ({ Dev.reset with cmds := nset none [] (cmdKey 3 4095) (some c) });
     m.oid = 0 ∧
     let k := cmdKey q (bitsOf v 59 48);
     let waits (c : Cmd) : Prop := sqOpc c.ent = 0x4B ∧ c.st = .running ∧ nget 0 s.d.epochs k = bitsOf v 63 60;
     bitsOf v 47 40 ≤ 0x0C ∧ s.d.cmd k = some c ∧ waits c) ∧
    (let m : Mst := fw;
     let q : Nat := 3;
     let v : Nat := 0x0C * 2 ^ 40;
     let s : State := State.reset;
     m.oid = 0 ∧
     let k := cmdKey q (bitsOf v 59 48);
     let waits (c : Cmd) : Prop := sqOpc c.ent = 0x4B ∧ c.st = .running ∧ nget 0 s.d.epochs k = bitsOf v 63 60;
     bitsOf v 47 40 ≤ 0x0C ∧ (∀ c, s.d.cmd k = some c → ¬ waits c)) ∧
    (let t : Tongue := ⟨1, 65567, false⟩;
     let r : List Tongue := [];
     let l : List (Nat × Nat) := [(3, 1023)];
     let s : State := stOf
       ({ (Dev.reset.setReg (R.QP_OWN.at 3 1023) (BitVec.ofNat 64 (2 ^ 63 + 31 * 2 ^ 48 + 1 * 2 ^ 32))) with tongue := [t] });
     s.d.sysHalt = false ∧ s.d.tongue = t :: r ∧ s.d.namedPairs t.arg = some l ∧ t.cmd = 1) ∧
    (let t : Tongue := ⟨2, 65567, false⟩;
     let r : List Tongue := [];
     let l : List (Nat × Nat) := [(3, 1023)];
     let s : State := stOf
       ({ (Dev.reset.setReg (R.QP_OWN.at 3 1023) (BitVec.ofNat 64 (2 ^ 63 + 31 * 2 ^ 48 + 1 * 2 ^ 32))) with tongue := [t] });
     s.d.sysHalt = false ∧ s.d.tongue = t :: r ∧ s.d.namedPairs t.arg = some l ∧ t.cmd = 2) ∧
    (let t : Tongue := ⟨1, 65567, false⟩;
     let r : List Tongue := [];
     let s : State := stOf ({ Dev.reset with tongue := [t] });
     s.d.sysHalt = false ∧ s.d.tongue = t :: r ∧ s.d.namedPairs t.arg = none ∧ t.cmd = 1) ∧
    (let t : Tongue := ⟨2, 65567, false⟩;
     let r : List Tongue := [];
     let s : State := stOf ({ Dev.reset with tongue := [t] });
     s.d.sysHalt = false ∧ s.d.tongue = t :: r ∧ s.d.namedPairs t.arg = none ∧ t.cmd = 2) ∧
    (let t : Tongue := ⟨2, 65567, false⟩;
     let r : List Tongue := [];
     let s : State := stOf ({ Dev.reset with tongue := [t] });
     s.d.sysHalt = false ∧ s.d.tongue = t :: r ∧ t.cmd ≠ 1) ∧
    (let t : Tongue := ⟨1, 65567, false⟩;
     let r : List Tongue := [];
     let s : State := stOf ({ Dev.reset with tongue := [t] });
     s.d.sysHalt = false ∧ s.d.tongue = t :: r ∧ t.cmd ≠ 2) ∧
    (let t : Tongue := ⟨1, 65567, false⟩;
     let r : List Tongue := [];
     let s : State := stOf ({ Dev.reset with tongue := [t] });
     s.d.sysHalt = false ∧ s.d.tongue = t :: r ∧ t.cmd ≠ 3) ∧
    (let t : Tongue := ⟨3, 255, true⟩;
     let r : List Tongue := [];
     let s : State := stOf ({ Dev.reset.setCtl 255 { SlotCtl.zero with abort := true } with tongue := [t] });
     s.d.sysHalt = false ∧ s.d.tongue = t :: r ∧ t.cmd = 3 ∧
     let sl := t.arg % 256;
     t.begun = true ∧ (s.d.ctl sl).abort = true) ∧
    (let t : Tongue := ⟨3, 255, true⟩;
     let r : List Tongue := [];
     let s : State := stOf ({ Dev.reset with tongue := [t] });
     s.d.sysHalt = false ∧ s.d.tongue = t :: r ∧ t.cmd = 3 ∧
     let sl := t.arg % 256;
     t.begun = true ∧ (s.d.ctl sl).abort = false) ∧
    (let t : Tongue := ⟨3, 255, false⟩;
     let r : List Tongue := [];
     let s : State := stOf ({ Dev.reset with tongue := [t] });
     s.d.sysHalt = false ∧ s.d.tongue = t :: r ∧ t.cmd = 3 ∧
     let sl := t.arg % 256;
     t.begun = false ∧ s.d.hasAnchor sl = false) ∧
    (let t : Tongue := ⟨3, 255, false⟩;
     let r : List Tongue := [];
     let s : State := stOf ({ (slot255 stLive) with tongue := [t] });
     s.d.sysHalt = false ∧ s.d.tongue = t :: r ∧ t.cmd = 3 ∧
     let sl := t.arg % 256;
     let abort := t.arg.testBit 8;
     t.begun = false ∧ s.d.hasAnchor sl = true ∧ abort = false) ∧
    (let t : Tongue := ⟨3, 511, false⟩;
     let r : List Tongue := [];
     let s : State := stOf ({ (slot255 stLive) with tongue := [t] });
     s.d.sysHalt = false ∧ s.d.tongue = t :: r ∧ t.cmd = 3 ∧
     let sl := t.arg % 256;
     let abort := t.arg.testBit 8;
     let dA := s.d.stopAbort s.clk.tick sl .tadpole;
     t.begun = false ∧ s.d.hasAnchor sl = true ∧ abort = true ∧ (dA.ctl sl).abort = true) ∧
    (let t : Tongue := ⟨3, 511, false⟩;
     let r : List Tongue := [];
     let s : State := stOf ({ (slot255 stStopped) with tongue := [t] });
     s.d.sysHalt = false ∧ s.d.tongue = t :: r ∧ t.cmd = 3 ∧
     let sl := t.arg % 256;
     let abort := t.arg.testBit 8;
     let dA := s.d.stopAbort s.clk.tick sl .tadpole;
     t.begun = false ∧ s.d.hasAnchor sl = true ∧ abort = true ∧ (dA.ctl sl).abort = false) ∧
    (let q : Nat := 3;
     let r : Nat := 4095;
     let s : State := State.reset;
     (∀ c, ¬ canStart s.d q r 0x48 c)) ∧
    (let q : Nat := 3;
     let r : Nat := 4095;
     let s : State := State.reset;
     (∀ c, ¬ canStart s.d q r 0x49 c)) ∧
    (let q : Nat := 3;
     let r : Nat := 4095;
     let s : State := State.reset;
     (∀ c, ¬ canStart s.d q r 0x4B c)) ∧
    (let s : State := State.reset;
     (s.d.sysHalt = true ∨ s.d.tongue = [])) := by
  refine ⟨?_, ?_, ?_, ?_, ?_, ?_, ?_, ?_, ?_, ?_, ?_, ?_, ?_, ?_, ?_, ?_, ?_, ?_, ?_, ?_, ?_, ?_, ?_, ?_, ?_, ?_, ?_, ?_, ?_, ?_, ?_,
    ?_⟩
  · exact ⟨⟨by decide +kernel, by decide +kernel, by decide +kernel, by decide +kernel⟩, by decide +kernel, by decide +kernel⟩
  · exact ⟨⟨by decide +kernel, by decide +kernel, by decide +kernel, by decide +kernel⟩, by decide +kernel, by decide +kernel⟩
  · exact ⟨⟨by decide +kernel, by decide +kernel, by decide +kernel, by decide +kernel⟩, by decide +kernel, by decide +kernel⟩
  · exact ⟨⟨by decide +kernel, by decide +kernel, by decide +kernel, by decide +kernel⟩, by decide +kernel, by decide +kernel⟩
  · exact ⟨⟨by decide +kernel, by decide +kernel, by decide +kernel, by decide +kernel⟩, by decide +kernel⟩
  · exact ⟨⟨by decide +kernel, by decide +kernel, by decide +kernel, by decide +kernel⟩, by decide +kernel⟩
  · exact ⟨⟨by decide +kernel, by decide +kernel, by decide +kernel, by decide +kernel⟩, by decide +kernel⟩
  · exact ⟨⟨by decide +kernel, by decide +kernel, by decide +kernel, by decide +kernel⟩, by decide +kernel⟩
  · refine ⟨⟨by decide +kernel, by decide +kernel, by decide +kernel, by decide +kernel⟩, ?_⟩
    dsimp only
    rw [Dev.memIdle, Dev.memAcc, if_pos (isHbm_low _ (by decide +kernel)), hbm_off_low _ _ _ _ (by decide +kernel) (by decide +kernel)]
    exact fun h => by cases h
  · have he : ∀ a, a = 0 → (stOf ({ (Dev.reset.setRegN (R.SCC_CFG.at 0) 0) with cmds := nset none [] 0 (some (⟨0, 0, 0x4B, .fetched, 0, 0, [], [], none, false, [], false, .none⟩)) })).d.memIdle (wrReq (sliceMid 0) 0 a 64 0x4B) = (((({ (Dev.reset.setRegN (R.SCC_CFG.at 0) 0) with cmds := nset none [] 0 (some (⟨0, 0, 0x4B, .fetched, 0, 0, [], [], none, false, [], false, .none⟩)) }).sccMissed 0 0 1).setBytes 0 (leBytes 0x4B 64)).coverUnits 0 64, ⟨.okay, []⟩) := by
      intro a ha
      subst ha
      rw [Dev.memIdle, Dev.memAcc, if_pos (isHbm_low _ (by decide +kernel)), hbm_write_low] <;> decide +kernel
    refine ⟨⟨by decide +kernel, by decide +kernel, by decide +kernel, by decide +kernel⟩, ?_⟩
    dsimp only
    have h0 : getBits ((stOf ({ (Dev.reset.setRegN (R.SCC_CFG.at 0) 0) with cmds := nset none [] 0 (some (⟨0, 0, 0x4B, .fetched, 0, 0, [], [], none, false, [], false, .none⟩)) })).d.reg (R.QE_FW_BASE.at 0)) 47 11 * 2048 + 64 * (cmdKey 0 0 % 4096) = 0 := by decide +kernel
    rw [h0, he 0 rfl]
    exact ⟨by decide +kernel, by decide +kernel⟩
  · have he : ∀ a, a = 0 → (stOf ({ ((Dev.reset.setRegN (R.SCC_CFG.at 0) 0).setRegN (R.MBX_LOCK.at 0 0) (2 ^ 63 + 0x03F * 2 ^ 48 + 0x440)) with cmds := nset none [] 0 (some (⟨0, 0, 0x4B, .fetched, 0, 0, [], [], none, false, [], false, .none⟩)) })).d.memIdle (wrReq (sliceMid 0) 0 a 64 0x4B) = (((({ ((Dev.reset.setRegN (R.SCC_CFG.at 0) 0).setRegN (R.MBX_LOCK.at 0 0) (2 ^ 63 + 0x03F * 2 ^ 48 + 0x440)) with cmds := nset none [] 0 (some (⟨0, 0, 0x4B, .fetched, 0, 0, [], [], none, false, [], false, .none⟩)) }).sccMissed 0 0 1).setBytes 0 (leBytes 0x4B 64)).coverUnits 0 64, ⟨.okay, []⟩) := by
      intro a ha
      subst ha
      rw [Dev.memIdle, Dev.memAcc, if_pos (isHbm_low _ (by decide +kernel)), hbm_write_low] <;> decide +kernel
    refine ⟨⟨by decide +kernel, by decide +kernel, by decide +kernel, by decide +kernel⟩, ?_⟩
    dsimp only
    have h0 : getBits ((stOf ({ ((Dev.reset.setRegN (R.SCC_CFG.at 0) 0).setRegN (R.MBX_LOCK.at 0 0) (2 ^ 63 + 0x03F * 2 ^ 48 + 0x440)) with cmds := nset none [] 0 (some (⟨0, 0, 0x4B, .fetched, 0, 0, [], [], none, false, [], false, .none⟩)) })).d.reg (R.QE_FW_BASE.at 0)) 47 11 * 2048 + 64 * (cmdKey 0 0 % 4096) = 0 := by decide +kernel
    rw [h0, he 0 rfl]
    exact ⟨by decide +kernel, by decide +kernel, by decide +kernel⟩
  · have he : ∀ a, a = 0 → (stOf ({ ((Dev.reset.setRegN (R.SCC_CFG.at 0) 0).setRegN (R.MBX_LOCK.at 0 0) (2 ^ 63 + 0x4C0 * 2 ^ 48 + 0x440)) with cmds := nset none [] 0 (some (⟨0, 0, 0x4B, .fetched, 0, 0, [], [], none, false, [], false, .none⟩)) })).d.memIdle (wrReq (sliceMid 0) 0 a 64 0x4B) = (((({ ((Dev.reset.setRegN (R.SCC_CFG.at 0) 0).setRegN (R.MBX_LOCK.at 0 0) (2 ^ 63 + 0x4C0 * 2 ^ 48 + 0x440)) with cmds := nset none [] 0 (some (⟨0, 0, 0x4B, .fetched, 0, 0, [], [], none, false, [], false, .none⟩)) }).sccMissed 0 0 1).setBytes 0 (leBytes 0x4B 64)).coverUnits 0 64, ⟨.okay, []⟩) := by
      intro a ha
      subst ha
      rw [Dev.memIdle, Dev.memAcc, if_pos (isHbm_low _ (by decide +kernel)), hbm_write_low] <;> decide +kernel
    refine ⟨⟨by decide +kernel, by decide +kernel, by decide +kernel, by decide +kernel⟩, ?_⟩
    dsimp only
    have h0 : getBits ((stOf ({ ((Dev.reset.setRegN (R.SCC_CFG.at 0) 0).setRegN (R.MBX_LOCK.at 0 0) (2 ^ 63 + 0x4C0 * 2 ^ 48 + 0x440)) with cmds := nset none [] 0 (some (⟨0, 0, 0x4B, .fetched, 0, 0, [], [], none, false, [], false, .none⟩)) })).d.reg (R.QE_FW_BASE.at 0)) 47 11 * 2048 + 64 * (cmdKey 0 0 % 4096) = 0 := by decide +kernel
    rw [h0, he 0 rfl]
    exact ⟨by decide +kernel, by decide +kernel, by decide +kernel⟩
  · try dsimp only
    refine ⟨?_, ?_⟩
    · decide +kernel
    · decide +kernel
  · try dsimp only
    refine ⟨?_, ?_, ?_, ?_⟩
    · decide +kernel
    · decide +kernel
    · decide +kernel
    · decide +kernel
  · try dsimp only
    refine ⟨?_, ?_, ?_⟩
    · decide +kernel
    · decide +kernel
    · decide +kernel
  · try dsimp only
    refine ⟨?_, ?_, ?_, ?_⟩
    · decide +kernel
    · decide +kernel
    · decide +kernel
    · decide +kernel
  · try dsimp only
    refine ⟨?_, ?_, ?_, ?_⟩
    · decide +kernel
    · decide +kernel
    · decide +kernel
    · decide +kernel
  · try dsimp only
    refine ⟨?_, ?_, ?_, ?_⟩
    · decide +kernel
    · decide +kernel
    · decide +kernel
    · decide +kernel
  · try dsimp only
    refine ⟨?_, ?_, ?_, ?_⟩
    · decide +kernel
    · decide +kernel
    · decide +kernel
    · decide +kernel
  · try dsimp only
    refine ⟨?_, ?_, ?_⟩
    · decide +kernel
    · decide +kernel
    · decide +kernel
  · try dsimp only
    refine ⟨?_, ?_, ?_⟩
    · decide +kernel
    · decide +kernel
    · decide +kernel
  · try dsimp only
    refine ⟨?_, ?_, ?_⟩
    · decide +kernel
    · decide +kernel
    · decide +kernel
  · try dsimp only
    refine ⟨?_, ?_, ?_, ?_, ?_⟩
    · decide +kernel
    · decide +kernel
    · decide +kernel
    · decide +kernel
    · decide +kernel
  · try dsimp only
    refine ⟨?_, ?_, ?_, ?_, ?_⟩
    · decide +kernel
    · decide +kernel
    · decide +kernel
    · decide +kernel
    · decide +kernel
  · try dsimp only
    refine ⟨?_, ?_, ?_, ?_, ?_⟩
    · decide +kernel
    · decide +kernel
    · decide +kernel
    · decide +kernel
    · decide +kernel
  · try dsimp only
    refine ⟨?_, ?_, ?_, ?_, ?_, ?_⟩
    · decide +kernel
    · decide +kernel
    · decide +kernel
    · decide +kernel
    · decide +kernel
    · decide +kernel
  · try dsimp only
    refine ⟨?_, ?_, ?_, ?_, ?_, ?_, ?_⟩
    · decide +kernel
    · decide +kernel
    · decide +kernel
    · decide +kernel
    · decide +kernel
    · decide +kernel
    · decide +kernel
  · try dsimp only
    refine ⟨?_, ?_, ?_, ?_, ?_, ?_, ?_⟩
    · decide +kernel
    · decide +kernel
    · decide +kernel
    · decide +kernel
    · decide +kernel
    · decide +kernel
    · decide +kernel
  · exact noCmd (by decide +kernel) _
  · exact noCmd (by decide +kernel) _
  · exact noCmd (by decide +kernel) _
  · try dsimp only
    decide +kernel

/-- What HostLinks asks of a state and of operands is met, case by case. -/
theorem witness_HostLinks :
    (let m : Mst := fw;
     let L : Nat := 31;
     let v : Nat := 1;
     let s : State := stOf ((Dev.reset.setFld F.HIF_PCFG_BIF 2 3 1).setFld F.HIF_LCFG_PF_VECS 1 3 7);
     m.oid = 0 ∧
     let e := s.d.linkCheck L;
     v % 2 = 1 ∧ s.d.linkEn L = false ∧ e = 0) ∧
    (let m : Mst := fw;
     let L : Nat := 31;
     let v : Nat := 1;
     let s : State := State.reset;
     m.oid = 0 ∧
     let e := s.d.linkCheck L;
     v % 2 = 1 ∧ s.d.linkEn L = false ∧ e ≠ 0) ∧
    (let m : Mst := fw;
     let L : Nat := 31;
     let v : Nat := 1;
     let s : State := stOf (((({ Dev.reset with boot := { Boot.none with loaded := true }, perst := nset false [] 7 true }).setRegN (linkReg
       31 .HIF_LSTAT) (1 * 2 ^ 28)).setRegN (linkReg 31 .HIF_LCTRL) 1));
     m.oid = 0 ∧ v % 2 = 1 ∧ s.d.linkEn L = true) ∧
    (let m : Mst := fw;
     let L : Nat := 31;
     let v : Nat := 2 ^ 64 - 2;
     let s : State := State.reset;
     m.oid = 0 ∧ v % 2 = 0 ∧ s.d.linkEn L = false) ∧
    (let m : Mst := fw;
     let L : Nat := 31;
     let v : Nat := 0;
     let s : State := stOf (((({ Dev.reset with boot := { Boot.none with loaded := true }, perst := nset false [] 7 true }).setRegN (linkReg
       31 .HIF_LSTAT) (3 * 2 ^ 28)).setRegN (linkReg 31 .HIF_LCTRL) 1));
     m.oid = 0 ∧
     let st := linkReg L .HIF_LSTAT;
     v % 2 = 0 ∧ s.d.linkEn L = true ∧ getBits (s.d.reg st) 31 28 = 3) ∧
    (let m : Mst := fw;
     let L : Nat := 31;
     let v : Nat := 0;
     let s : State := stOf (((({ Dev.reset with boot := { Boot.none with loaded := true }, perst := nset false [] 7 true }).setRegN (linkReg
       31 .HIF_LSTAT) (2 * 2 ^ 28)).setRegN (linkReg 31 .HIF_LCTRL) 1));
     m.oid = 0 ∧
     let st := linkReg L .HIF_LSTAT;
     v % 2 = 0 ∧ s.d.linkEn L = true ∧ getBits (s.d.reg st) 31 28 ≠ 3) ∧
    (let L : Nat := 31;
     let s : State := stOf (((({ Dev.reset with boot := { Boot.none with loaded := true }, perst := nset false [] 7 true }).setRegN (linkReg
       31 .HIF_LSTAT) (4 * 2 ^ 28)).setRegN (linkReg 31 .HIF_LCTRL) 1));
     let may := s.d.mayTrain L = true;
     let st := s.d.linkState L;
     may ∧ (st = 1 ∨ st = 4)) ∧
    (let L : Nat := 31;
     let s : State := State.reset;
     let may := s.d.mayTrain L = true;
     let st := s.d.linkState L;
     ¬ (may ∧ (st = 1 ∨ st = 4))) ∧
    (let L : Nat := 31;
     let s : State := stOf (((({ Dev.reset with boot := { Boot.none with loaded := true }, perst := nset false [] 7 true }).setRegN (linkReg
       31 .HIF_LSTAT) (1 * 2 ^ 28)).setRegN (linkReg 31 .HIF_LCTRL) 1));
     let may := s.d.mayTrain L = true;
     let st := s.d.linkState L;
     may ∧ st = 1) ∧
    (let L : Nat := 31;
     let s : State := stOf (((({ Dev.reset with boot := { Boot.none with loaded := true }, perst := nset false [] 7 true }).setRegN (linkReg
       31 .HIF_LSTAT) (3 * 2 ^ 28)).setRegN (linkReg 31 .HIF_LCTRL) 1));
     let may := s.d.mayTrain L = true;
     let st := s.d.linkState L;
     ¬ (may ∧ st = 1)) ∧
    (let L : Nat := 31;
     let s : State := stOf (((({ Dev.reset with boot := { Boot.none with loaded := true }, perst := nset false [] 7 true }).setRegN (linkReg
       31 .HIF_LSTAT) (2 * 2 ^ 28)).setRegN (linkReg 31 .HIF_LCTRL) 1));
     let may := s.d.mayTrain L = true;
     let st := s.d.linkState L;
     may ∧ st = 2) ∧
    (let L : Nat := 31;
     let s : State := stOf (((({ Dev.reset with boot := { Boot.none with loaded := true }, perst := nset false [] 7 true }).setRegN (linkReg
       31 .HIF_LSTAT) (1 * 2 ^ 28)).setRegN (linkReg 31 .HIF_LCTRL) 1));
     let may := s.d.mayTrain L = true;
     let st := s.d.linkState L;
     ¬ (may ∧ st = 2)) ∧
    (let L : Nat := 31;
     let speed : Nat := 7;
     let width : Nat := 4;
     let flit : Bool := true;
     let s : State := stOf
       (((({ ((Dev.reset.setFld F.HIF_PCFG_BIF 2 3 1).setFld F.HIF_LCFG_MAXSPEED 7 3 7) with boot := { Boot.none with loaded := true }, perst := nset false [] 7 true }).setRegN
       (linkReg 31 .HIF_LSTAT) (5 * 2 ^ 28)).setRegN (linkReg 31 .HIF_LCTRL) 1));
     let agreed := s.d.mayTrain L = true ∧ (s.d.linkState L = 2 ∨ s.d.linkState L = 5) ∧ width ∈ [1, 2, 4, 8, 16] ∧ width ≤ s.d.linkWidth L ∧
       0 < speed ∧ speed ≤ 7 ∧ speed ≤ s.d.fld F.HIF_LCFG_MAXSPEED (L / 8) (L % 8) ∧ (speed < 6 ∨ flit = true);
     agreed) ∧
    (let L : Nat := 31;
     let speed : Nat := 7;
     let width : Nat := 4;
     let flit : Bool := false;
     let s : State := stOf
       (((({ ((Dev.reset.setFld F.HIF_PCFG_BIF 2 3 1).setFld F.HIF_LCFG_MAXSPEED 7 3 7) with boot := { Boot.none with loaded := true }, perst := nset false [] 7 true }).setRegN
       (linkReg 31 .HIF_LSTAT) (5 * 2 ^ 28)).setRegN (linkReg 31 .HIF_LCTRL) 1));
     let agreed := s.d.mayTrain L = true ∧ (s.d.linkState L = 2 ∨ s.d.linkState L = 5) ∧ width ∈ [1, 2, 4, 8, 16] ∧ width ≤ s.d.linkWidth L ∧
       0 < speed ∧ speed ≤ 7 ∧ speed ≤ s.d.fld F.HIF_LCFG_MAXSPEED (L / 8) (L % 8) ∧ (speed < 6 ∨ flit = true);
     ¬ agreed) ∧
    (let L : Nat := 31;
     let w : Nat := 4;
     let s : State := stOf (((({ Dev.reset with boot := { Boot.none with loaded := true }, perst := nset false [] 7 true }).setRegN (linkReg
       31 .HIF_LSTAT) (3 * 2 ^ 28 + 2 ^ 14 + 4 * 2 ^ 15)).setRegN (linkReg 31 .HIF_LCTRL) 1));
     let x := linkReg L .HIF_LSTAT;
     let agreed := s.d.linkState L = 3 ∧ (s.d.reg x).getLsbD 14 = true ∧ w ∈ [1, 2, 4, 8, 16] ∧ w ≤ getBits (s.d.reg x) 19 15;
     agreed) ∧
    (let L : Nat := 31;
     let w : Nat := 3;
     let s : State := stOf (((({ Dev.reset with boot := { Boot.none with loaded := true }, perst := nset false [] 7 true }).setRegN (linkReg
       31 .HIF_LSTAT) (3 * 2 ^ 28 + 2 ^ 14 + 4 * 2 ^ 15)).setRegN (linkReg 31 .HIF_LCTRL) 1));
     let x := linkReg L .HIF_LSTAT;
     let agreed := s.d.linkState L = 3 ∧ (s.d.reg x).getLsbD 14 = true ∧ w ∈ [1, 2, 4, 8, 16] ∧ w ≤ getBits (s.d.reg x) 19 15;
     ¬ agreed) := by
  refine ⟨?_, ?_, ?_, ?_, ?_, ?_, ?_, ?_, ?_, ?_, ?_, ?_, ?_, ?_, ?_, ?_⟩
  · try dsimp only
    refine ⟨?_, ?_, ?_, ?_⟩
    · decide +kernel
    · decide +kernel
    · decide +kernel
    · decide +kernel
  · try dsimp only
    refine ⟨?_, ?_, ?_, ?_⟩
    · decide +kernel
    · decide +kernel
    · decide +kernel
    · decide +kernel
  · try dsimp only
    refine ⟨?_, ?_, ?_⟩
    · decide +kernel
    · decide +kernel
    · decide +kernel
  · try dsimp only
    refine ⟨?_, ?_, ?_⟩
    · decide +kernel
    · decide +kernel
    · decide +kernel
  · try dsimp only
    refine ⟨?_, ?_, ?_, ?_⟩
    · decide +kernel
    · decide +kernel
    · decide +kernel
    · decide +kernel
  · try dsimp only
    refine ⟨?_, ?_, ?_, ?_⟩
    · decide +kernel
    · decide +kernel
    · decide +kernel
    · decide +kernel
  · try dsimp only
    refine ⟨?_, ?_⟩
    · decide +kernel
    · decide +kernel
  · try dsimp only
    decide +kernel
  · try dsimp only
    refine ⟨?_, ?_⟩
    · decide +kernel
    · decide +kernel
  · try dsimp only
    decide +kernel
  · try dsimp only
    refine ⟨?_, ?_⟩
    · decide +kernel
    · decide +kernel
  · try dsimp only
    decide +kernel
  · try dsimp only
    decide +kernel
  · try dsimp only
    decide +kernel
  · try dsimp only
    decide +kernel
  · try dsimp only
    decide +kernel

/-- What HostResets asks of a state and of operands is met, case by case. -/
theorem witness_HostResets :
    (let L : Nat := 31;
     let s : State := stOf host;
     s.d.linkState L = 3) ∧
    (let L : Nat := 31;
     let s : State := State.reset;
     s.d.linkState L ≠ 3) ∧
    (let p : Nat := 7;
     let s : State := stOf ({ Dev.reset with perst := nset false [] 7 true });
     nget false s.d.perst p = true) ∧
    (let p : Nat := 7;
     let s : State := State.reset;
     nget false s.d.perst p = false) ∧
    (let p : Nat := 7;
     p < 8) ∧
    (let p : Nat := 8;
     8 ≤ p) ∧
    (let L : Nat := 31;
     let s : State := stOf ((host.setFld F.AO_STATUS_CONF 1 0));
     let taken := L < 32 ∧ s.d.linkState L = 3 ∧ s.d.cfgTaken L = true;
     taken) ∧
    (let L : Nat := 31;
     let s : State := stOf host;
     let taken := L < 32 ∧ s.d.linkState L = 3 ∧ s.d.cfgTaken L = true;
     ¬ taken) ∧
    (let oid : Nat := 1055;
     let L : Nat := 31;
     let s : State := stOf
       (((({ host with fns := nset Fn.zero [] 31 { Fn.zero with bme := true, mse := true, vfEn := true, numVfs := 1 } }).setFld
       F.AO_STATUS_CONF 1 0).setRegN (linkReg 31 .HIF_VFBASE) 1055).setRegN (linkReg 31 .HIF_VFCFG) 1);
     s.d.linkOf oid = some L ∧
     let taken := 32 ≤ oid ∧ s.d.linkState L = 3 ∧ oid ∈ s.d.liveFns L ∧ (s.d.fn L).reset = false ∧ s.d.cfgTaken oid = true;
     taken) ∧
    (let oid : Nat := 31;
     let L : Nat := 31;
     let s : State := stOf
       (((({ host with fns := nset Fn.zero [] 31 { Fn.zero with bme := true, mse := true, vfEn := true, numVfs := 1 } }).setFld
       F.AO_STATUS_CONF 1 0).setRegN (linkReg 31 .HIF_VFBASE) 1055).setRegN (linkReg 31 .HIF_VFCFG) 1);
     s.d.linkOf oid = some L ∧
     let taken := 32 ≤ oid ∧ s.d.linkState L = 3 ∧ oid ∈ s.d.liveFns L ∧ (s.d.fn L).reset = false ∧ s.d.cfgTaken oid = true;
     ¬ taken) ∧
    (let oid : Nat := 1055;
     let s : State := State.reset;
     s.d.linkOf oid = none) ∧
    (let L : Nat := 31;
     let n : Nat := 1;
     let s : State := stOf
       (((({ host with fns := nset Fn.zero [] 31 { Fn.zero with bme := true, mse := true, vfEn := true, numVfs := 1 } }).setFld
       F.AO_STATUS_CONF 1 0).setRegN (linkReg 31 .HIF_VFBASE) 1055).setRegN (linkReg 31 .HIF_VFCFG) 1);
     let taken := L < 32 ∧ s.d.linkState L = 3 ∧ (s.d.fn L).vfEn = true ∧ n ≤ (s.d.fn L).numVfs ∧ s.d.cfgTaken L = true;
     taken) ∧
    (let L : Nat := 31;
     let n : Nat := 2;
     let s : State := stOf
       (((({ host with fns := nset Fn.zero [] 31 { Fn.zero with bme := true, mse := true, vfEn := true, numVfs := 1 } }).setFld
       F.AO_STATUS_CONF 1 0).setRegN (linkReg 31 .HIF_VFBASE) 1055).setRegN (linkReg 31 .HIF_VFCFG) 1);
     let taken := L < 32 ∧ s.d.linkState L = 3 ∧ (s.d.fn L).vfEn = true ∧ n ≤ (s.d.fn L).numVfs ∧ s.d.cfgTaken L = true;
     ¬ taken) ∧
    (let oid : Nat := 1055;
     let s : State := stOf (Dev.reset.setFn 1055 { Fn.zero with reset := true });
     (s.d.fn oid).reset = true) ∧
    (let oid : Nat := 1055;
     let s : State := State.reset;
     (s.d.fn oid).reset = false) := by
  refine ⟨?_, ?_, ?_, ?_, ?_, ?_, ?_, ?_, ?_, ?_, ?_, ?_, ?_, ?_, ?_⟩
  · try dsimp only
    decide +kernel
  · try dsimp only
    decide +kernel
  · try dsimp only
    decide +kernel
  · try dsimp only
    decide +kernel
  · try dsimp only
    decide +kernel
  · try dsimp only
    decide +kernel
  · try dsimp only
    decide +kernel
  · try dsimp only
    decide +kernel
  · try dsimp only
    refine ⟨?_, ?_⟩
    · decide +kernel
    · decide +kernel
  · try dsimp only
    refine ⟨?_, ?_⟩
    · decide +kernel
    · decide +kernel
  · try dsimp only
    decide +kernel
  · try dsimp only
    decide +kernel
  · try dsimp only
    decide +kernel
  · try dsimp only
    decide +kernel
  · try dsimp only
    decide +kernel

/-- What HostFunctions asks of a state and of operands is met, case by case. -/
theorem witness_HostFunctions :
    (let oid : Nat := 1055;
     let s : State := stOf
       (((({ host with fns := nset Fn.zero [] 31 { Fn.zero with bme := true, mse := true, vfEn := true, numVfs := 1 } }).setFld
       F.AO_STATUS_CONF 1 0).setRegN (linkReg 31 .HIF_VFBASE) 1055).setRegN (linkReg 31 .HIF_VFCFG) 1);
     let taken := s.d.fnReached oid = true ∧ s.d.cfgTaken oid = true;
     taken) ∧
    (let oid : Nat := 1055;
     let s : State := stOf host;
     let taken := s.d.fnReached oid = true ∧ s.d.cfgTaken oid = true;
     ¬ taken) ∧
    (let oid : Nat := 1055;
     let s : State := stOf Dev.reset;
     s.d.sysHalt = false ∧ (s.d.linkOf oid = none ∨ s.d.fnReached oid = false)) ∧
    (let oid : Nat := 1055;
     let L : Nat := 31;
     let s : State := stOf
       ((((({ host with fns := nset Fn.zero [] 31 { Fn.zero with bme := true, mse := true, vfEn := true, numVfs := 1 } }).setFld
       F.AO_STATUS_CONF 1 0).setRegN (linkReg 31 .HIF_VFBASE) 1055).setRegN (linkReg 31 .HIF_VFCFG) 1).setFn 1055
       { Fn.zero with reset := true });
     s.d.sysHalt = false ∧ s.d.linkOf oid = some L ∧ s.d.fnReached oid = true ∧ s.d.cfgTaken oid = false) ∧
    (let oid : Nat := 1055;
     let L : Nat := 31;
     let s : State := stOf
       (((({ host with fns := nset Fn.zero [] 31 { Fn.zero with bme := true, mse := true, vfEn := true, numVfs := 1 } }).setFld
       F.AO_STATUS_CONF 1 0).setRegN (linkReg 31 .HIF_VFBASE) 1055).setRegN (linkReg 31 .HIF_VFCFG) 1);
     s.d.sysHalt = false ∧ s.d.linkOf oid = some L ∧ s.d.fnReached oid = true ∧ s.d.cfgTaken oid = true) ∧
    (let oid : Nat := 1055;
     let L : Nat := 31;
     let s : State := stOf
       (((({ host with fns := nset Fn.zero [] 31 { Fn.zero with bme := true, mse := true, vfEn := true, numVfs := 1 } }).setFld
       F.AO_STATUS_CONF 1 0).setRegN (linkReg 31 .HIF_VFBASE) 1055).setRegN (linkReg 31 .HIF_VFCFG) 1);
     s.d.sysHalt = false ∧ s.d.linkOf oid = some L ∧ s.d.fnReached oid = true ∧ s.d.cfgTaken oid = true) ∧
    (let oid : Nat := 31;
     let L : Nat := 31;
     let s : State := stOf
       (((({ host with fns := nset Fn.zero [] 31 { Fn.zero with bme := true, mse := true, vfEn := true, numVfs := 1 } }).setFld
       F.AO_STATUS_CONF 1 0).setRegN (linkReg 31 .HIF_VFBASE) 1055).setRegN (linkReg 31 .HIF_VFCFG) 1);
     s.d.sysHalt = false ∧ s.d.linkOf oid = some L ∧ s.d.fnReached oid = true ∧ s.d.cfgTaken oid = true ∧ oid < 32) ∧
    (let oid : Nat := 1055;
     let L : Nat := 31;
     let s : State := stOf
       (((({ host with fns := nset Fn.zero [] 31 { Fn.zero with bme := true, mse := true, vfEn := true, numVfs := 1 } }).setFld
       F.AO_STATUS_CONF 1 0).setRegN (linkReg 31 .HIF_VFBASE) 1055).setRegN (linkReg 31 .HIF_VFCFG) 1);
     s.d.sysHalt = false ∧ s.d.linkOf oid = some L ∧ s.d.fnReached oid = true ∧ s.d.cfgTaken oid = true ∧ 32 ≤ oid) ∧
    (let oid : Nat := 1055;
     let L : Nat := 31;
     let s : State := stOf
       (((({ host with fns := nset Fn.zero [] 31 { Fn.zero with bme := true, mse := true, vfEn := true, numVfs := 1 } }).setFld
       F.AO_STATUS_CONF 1 0).setRegN (linkReg 31 .HIF_VFBASE) 1055).setRegN (linkReg 31 .HIF_VFCFG) 1);
     s.d.sysHalt = false ∧ s.d.linkOf oid = some L ∧ s.d.fnReached oid = true ∧ s.d.cfgTaken oid = true) ∧
    (let oid : Nat := 1055;
     let L : Nat := 31;
     let s : State := stOf
       (((({ host with fns := nset Fn.zero [] 31 { Fn.zero with bme := true, mse := true, vfEn := true, numVfs := 1 } }).setFld
       F.AO_STATUS_CONF 1 0).setRegN (linkReg 31 .HIF_VFBASE) 1055).setRegN (linkReg 31 .HIF_VFCFG) 1);
     s.d.sysHalt = false ∧ s.d.linkOf oid = some L ∧ s.d.fnReached oid = true ∧ s.d.cfgTaken oid = true) ∧
    (let oid : Nat := 1055;
     let L : Nat := 31;
     let s : State := stOf
       (((({ host with fns := nset Fn.zero [] 31 { Fn.zero with bme := true, mse := true, vfEn := true, numVfs := 1 } }).setFld
       F.AO_STATUS_CONF 1 0).setRegN (linkReg 31 .HIF_VFBASE) 1055).setRegN (linkReg 31 .HIF_VFCFG) 1);
     s.d.sysHalt = false ∧ s.d.linkOf oid = some L ∧ s.d.fnReached oid = true ∧ s.d.cfgTaken oid = true) ∧
    (let oid : Nat := 31;
     let L : Nat := 31;
     let s : State := stOf
       (((({ host with fns := nset Fn.zero [] 31 { Fn.zero with bme := true, mse := true, vfEn := true, numVfs := 1 } }).setFld
       F.AO_STATUS_CONF 1 0).setRegN (linkReg 31 .HIF_VFBASE) 1055).setRegN (linkReg 31 .HIF_VFCFG) 1);
     s.d.sysHalt = false ∧ s.d.linkOf oid = some L ∧ s.d.fnReached oid = true ∧ s.d.cfgTaken oid = true ∧ oid < 32) ∧
    (let oid : Nat := 1055;
     let L : Nat := 31;
     let s : State := stOf
       (((({ host with fns := nset Fn.zero [] 31 { Fn.zero with bme := true, mse := true, vfEn := true, numVfs := 1 } }).setFld
       F.AO_STATUS_CONF 1 0).setRegN (linkReg 31 .HIF_VFBASE) 1055).setRegN (linkReg 31 .HIF_VFCFG) 1);
     s.d.sysHalt = false ∧ s.d.linkOf oid = some L ∧ s.d.fnReached oid = true ∧ s.d.cfgTaken oid = true ∧ 32 ≤ oid) ∧
    (let oid : Nat := 1055;
     let L : Nat := 31;
     let s : State := stOf
       (((({ host with fns := nset Fn.zero [] 31 { Fn.zero with bme := true, mse := true, vfEn := true, numVfs := 1 } }).setFld
       F.AO_STATUS_CONF 1 0).setRegN (linkReg 31 .HIF_VFBASE) 1055).setRegN (linkReg 31 .HIF_VFCFG) 1);
     s.d.sysHalt = false ∧ s.d.linkOf oid = some L ∧ s.d.fnReached oid = true ∧ s.d.cfgTaken oid = true) ∧
    (let oid : Nat := 1055;
     let L : Nat := 31;
     let s : State := stOf
       (((({ host with fns := nset Fn.zero [] 31 { Fn.zero with bme := true, mse := true, vfEn := true, numVfs := 1 } }).setFld
       F.AO_STATUS_CONF 1 0).setRegN (linkReg 31 .HIF_VFBASE) 1055).setRegN (linkReg 31 .HIF_VFCFG) 1);
     s.d.sysHalt = false ∧ s.d.linkOf oid = some L ∧ s.d.fnReached oid = true ∧ s.d.cfgTaken oid = true) ∧
    (let oid : Nat := 1055;
     let L : Nat := 31;
     let x : Bool := true;
     let id : Nat := 0x10;
     let s : State := stOf
       (((({ host with fns := nset Fn.zero [] 31 { Fn.zero with bme := true, mse := true, vfEn := true, numVfs := 1 } }).setFld
       F.AO_STATUS_CONF 1 0).setRegN (linkReg 31 .HIF_VFBASE) 1055).setRegN (linkReg 31 .HIF_VFCFG) 1);
     s.d.sysHalt = false ∧ s.d.linkOf oid = some L ∧ s.d.fnReached oid = true ∧ s.d.cfgTaken oid = true ∧
     let absent := capLeftOut x id = true ∨ (x = true ∧ id = 0x10 ∧ 32 ≤ oid);
     absent) ∧
    (let oid : Nat := 1055;
     let L : Nat := 31;
     let x : Bool := true;
     let id : Nat := 0x01;
     let s : State := stOf
       (((({ host with fns := nset Fn.zero [] 31 { Fn.zero with bme := true, mse := true, vfEn := true, numVfs := 1 } }).setFld
       F.AO_STATUS_CONF 1 0).setRegN (linkReg 31 .HIF_VFBASE) 1055).setRegN (linkReg 31 .HIF_VFCFG) 1);
     s.d.sysHalt = false ∧ s.d.linkOf oid = some L ∧ s.d.fnReached oid = true ∧ s.d.cfgTaken oid = true ∧
     let absent := capLeftOut x id = true ∨ (x = true ∧ id = 0x10 ∧ 32 ≤ oid);
     ¬ absent) ∧
    (let vp : Nat := 1023;
     let r : SenRun := ⟨1, 504, 504, [], false⟩;
     let s : State := stOf (job (host.setReg (cluReg 63 .VP_CFG 15) (BitVec.ofNat 64 (2 ^ 63))) r (2 ^ 24 + 31 * 2 ^ 11) 8);
     s.d.sysHalt = false ∧ s.d.hostRead vp = true ∧ (s.d.engine vp).run = some r ∧
     let oid := bitsOf (s.d.jattr vp r.j).toNat 21 11;
     let sent := s.d.wired vp || s.d.fnIssues oid;
     let due := r.moved < s.d.regN (senReg vp .JLEN r.j) ∧ s.d.vpBound vp = true ∧ s.d.vpLevel vp < 512;
     due ∧ sent = true) ∧
    (let vp : Nat := 1023;
     let r : SenRun := ⟨1, 504, 504, [], false⟩;
     let ans : HostAns := .poison;
     let s : State := stOf (job (host.setReg (cluReg 63 .VP_CFG 15) (BitVec.ofNat 64 (2 ^ 63))) r (2 ^ 24 + 31 * 2 ^ 11) 8);
     s.d.sysHalt = false ∧ s.d.hostRead vp = true ∧ (s.d.engine vp).run = some r ∧
     let oid := bitsOf (s.d.jattr vp r.j).toNat 21 11;
     let sent := s.d.wired vp || s.d.fnIssues oid;
     let due := r.moved < s.d.regN (senReg vp .JLEN r.j) ∧ s.d.vpBound vp = true ∧ s.d.vpLevel vp < 512;
     due ∧ hostCode sent ans ≠ 0) ∧
    (let vp : Nat := 1023;
     let r : SenRun := ⟨1, 504, 504, [], false⟩;
     let s : State := stOf (job (host.setReg (cluReg 63 .VP_CFG 15) (BitVec.ofNat 64 (2 ^ 63))) r (2 ^ 24 + 31 * 2 ^ 11) 8);
     s.d.sysHalt = false ∧ s.d.hostRead vp = true ∧ (s.d.engine vp).run = some r ∧
     let oid := bitsOf (s.d.jattr vp r.j).toNat 21 11;
     let sent := s.d.wired vp || s.d.fnIssues oid;
     let due := r.moved < s.d.regN (senReg vp .JLEN r.j) ∧ s.d.vpBound vp = true ∧ s.d.vpLevel vp < 512;
     due ∧ sent = true) ∧
    (let vp : Nat := 1023;
     let r : SenRun := ⟨1, 504, 504, [], false⟩;
     let s : State := stOf (job (Dev.reset.setReg (cluReg 63 .VP_CFG 15) (BitVec.ofNat 64 (2 ^ 63))) r (2 ^ 24 + 31 * 2 ^ 11) 8);
     s.d.sysHalt = false ∧ s.d.hostRead vp = true ∧ (s.d.engine vp).run = some r ∧
     let oid := bitsOf (s.d.jattr vp r.j).toNat 21 11;
     let sent := s.d.wired vp || s.d.fnIssues oid;
     let due := r.moved < s.d.regN (senReg vp .JLEN r.j) ∧ s.d.vpBound vp = true ∧ s.d.vpLevel vp < 512;
     due ∧ sent = false) ∧
    (let vp : Nat := 1023;
     let r : SenRun := ⟨1, 512, 512, [], false⟩;
     let s : State := stOf (job (host.setReg (cluReg 63 .VP_CFG 15) (BitVec.ofNat 64 (2 ^ 63))) r (2 ^ 24 + 31 * 2 ^ 11) 8);
     s.d.sysHalt = false ∧ s.d.hostRead vp = true ∧ (s.d.engine vp).run = some r ∧
     let due := r.moved < s.d.regN (senReg vp .JLEN r.j) ∧ s.d.vpBound vp = true ∧ s.d.vpLevel vp < 512;
     ¬ due) ∧
    (let vp : Nat := 1023;
     let s : State := stOf Dev.reset;
     s.d.hostRead vp = false) := by
  refine ⟨?_, ?_, ?_, ?_, ?_, ?_, ?_, ?_, ?_, ?_, ?_, ?_, ?_, ?_, ?_, ?_, ?_, ?_, ?_, ?_, ?_, ?_, ?_⟩
  · try dsimp only
    decide +kernel
  · try dsimp only
    decide +kernel
  · try dsimp only
    refine ⟨?_, ?_⟩
    · decide +kernel
    · decide +kernel
  · try dsimp only
    refine ⟨?_, ?_, ?_, ?_⟩
    · decide +kernel
    · decide +kernel
    · decide +kernel
    · decide +kernel
  · try dsimp only
    refine ⟨?_, ?_, ?_, ?_⟩
    · decide +kernel
    · decide +kernel
    · decide +kernel
    · decide +kernel
  · try dsimp only
    refine ⟨?_, ?_, ?_, ?_⟩
    · decide +kernel
    · decide +kernel
    · decide +kernel
    · decide +kernel
  · try dsimp only
    refine ⟨?_, ?_, ?_, ?_, ?_⟩
    · decide +kernel
    · decide +kernel
    · decide +kernel
    · decide +kernel
    · decide +kernel
  · try dsimp only
    refine ⟨?_, ?_, ?_, ?_, ?_⟩
    · decide +kernel
    · decide +kernel
    · decide +kernel
    · decide +kernel
    · decide +kernel
  · try dsimp only
    refine ⟨?_, ?_, ?_, ?_⟩
    · decide +kernel
    · decide +kernel
    · decide +kernel
    · decide +kernel
  · try dsimp only
    refine ⟨?_, ?_, ?_, ?_⟩
    · decide +kernel
    · decide +kernel
    · decide +kernel
    · decide +kernel
  · try dsimp only
    refine ⟨?_, ?_, ?_, ?_⟩
    · decide +kernel
    · decide +kernel
    · decide +kernel
    · decide +kernel
  · try dsimp only
    refine ⟨?_, ?_, ?_, ?_, ?_⟩
    · decide +kernel
    · decide +kernel
    · decide +kernel
    · decide +kernel
    · decide +kernel
  · try dsimp only
    refine ⟨?_, ?_, ?_, ?_, ?_⟩
    · decide +kernel
    · decide +kernel
    · decide +kernel
    · decide +kernel
    · decide +kernel
  · try dsimp only
    refine ⟨?_, ?_, ?_, ?_⟩
    · decide +kernel
    · decide +kernel
    · decide +kernel
    · decide +kernel
  · try dsimp only
    refine ⟨?_, ?_, ?_, ?_⟩
    · decide +kernel
    · decide +kernel
    · decide +kernel
    · decide +kernel
  · try dsimp only
    refine ⟨?_, ?_, ?_, ?_, ?_⟩
    · decide +kernel
    · decide +kernel
    · decide +kernel
    · decide +kernel
    · decide +kernel
  · try dsimp only
    refine ⟨?_, ?_, ?_, ?_, ?_⟩
    · decide +kernel
    · decide +kernel
    · decide +kernel
    · decide +kernel
    · decide +kernel
  · try dsimp only
    refine ⟨?_, ?_, ?_, ?_, ?_⟩
    · decide +kernel
    · decide +kernel
    · decide +kernel
    · decide +kernel
    · decide +kernel
  · try dsimp only
    refine ⟨?_, ?_, ?_, ?_, ?_⟩
    · decide +kernel
    · decide +kernel
    · decide +kernel
    · decide +kernel
    · decide +kernel
  · try dsimp only
    refine ⟨?_, ?_, ?_, ?_, ?_⟩
    · decide +kernel
    · decide +kernel
    · decide +kernel
    · decide +kernel
    · decide +kernel
  · try dsimp only
    refine ⟨?_, ?_, ?_, ?_, ?_⟩
    · decide +kernel
    · decide +kernel
    · decide +kernel
    · decide +kernel
    · decide +kernel
  · try dsimp only
    refine ⟨?_, ?_, ?_, ?_⟩
    · decide +kernel
    · decide +kernel
    · decide +kernel
    · decide +kernel
  · try dsimp only
    decide +kernel

/-- What TrackerEntries asks of a state and of operands is met, case by case. -/
theorem witness_TrackerEntries :
    (let m : Mst := fw;
     let q : Nat := 3;
     let v : Nat := 1 * 2 ^ 60 + 0 + 278527;
     let old : Nat := 5;
     let s : State := stOf
       ({ (Dev.reset.setRegN (R.CAL_CTRL.at 3) 3) with calTab := nset none [] (3 * calEntries + 278527) (some ⟨5, false⟩) });
     m.oid = 0 ∧
     let e := bitsOf v 18 0;
     let cmd := bitsOf v 63 60;
     let g := s.d.calGet q e;
     let run := e < calEntries ∧ s.d.calEn q = true;
     run ∧ g.2 = some old ∧ cmd = 1) ∧
    (let m : Mst := fw;
     let q : Nat := 3;
     let v : Nat := 2 * 2 ^ 60 + 0 + 278527;
     let old : Nat := 5;
     let s : State := stOf
       ({ (Dev.reset.setRegN (R.CAL_CTRL.at 3) 3) with calTab := nset none [] (3 * calEntries + 278527) (some ⟨5, false⟩) });
     m.oid = 0 ∧
     let e := bitsOf v 18 0;
     let cmd := bitsOf v 63 60;
     let g := s.d.calGet q e;
     let run := e < calEntries ∧ s.d.calEn q = true;
     run ∧ g.2 = some old ∧ cmd = 2 ∧ v.testBit 56 = false) ∧
    (let m : Mst := fw;
     let q : Nat := 3;
     let v : Nat := 2 * 2 ^ 60 + 72057594037927936 + 278527;
     let old : Nat := 5;
     let s : State := stOf
       ({ (Dev.reset.setRegN (R.CAL_CTRL.at 3) 3) with calTab := nset none [] (3 * calEntries + 278527) (some ⟨5, false⟩) });
     m.oid = 0 ∧
     let e := bitsOf v 18 0;
     let cmd := bitsOf v 63 60;
     let g := s.d.calGet q e;
     let run := e < calEntries ∧ s.d.calEn q = true;
     run ∧ g.2 = some old ∧ cmd = 2 ∧ v.testBit 56 = true) ∧
    (let m : Mst := fw;
     let q : Nat := 3;
     let v : Nat := 3 * 2 ^ 60 + 0 + 278527;
     let old : Nat := 5;
     let s : State := stOf
       ({ (Dev.reset.setRegN (R.CAL_CTRL.at 3) 3) with calTab := nset none [] (3 * calEntries + 278527) (some ⟨5, false⟩) });
     m.oid = 0 ∧
     let e := bitsOf v 18 0;
     let cmd := bitsOf v 63 60;
     let g := s.d.calGet q e;
     let run := e < calEntries ∧ s.d.calEn q = true;
     run ∧ g.2 = some old ∧ cmd = 3) ∧
    (let m : Mst := fw;
     let q : Nat := 3;
     let v : Nat := 1 * 2 ^ 60 + 278527;
     let s : State := stOf ((((Dev.reset.setRegN (R.CAL_CTRL.at 3) 3).setFld F.PWR_DOM_CUR 2 0 17).setFld F.PWR_DOM_CUR 2 0 18));
     m.oid = 0 ∧
     let e := bitsOf v 18 0;
     let cmd := bitsOf v 63 60;
     let g := s.d.calGet q e;
     let run := e < calEntries ∧ s.d.calEn q = true;
     run ∧ g.2 = none ∧ cmd = 1) ∧
    (let m : Mst := fw;
     let q : Nat := 3;
     let v : Nat := 2 * 2 ^ 60 + 278527;
     let s : State := stOf ((((Dev.reset.setRegN (R.CAL_CTRL.at 3) 3).setFld F.PWR_DOM_CUR 2 0 17).setFld F.PWR_DOM_CUR 2 0 18));
     m.oid = 0 ∧
     let e := bitsOf v 18 0;
     let cmd := bitsOf v 63 60;
     let g := s.d.calGet q e;
     let run := e < calEntries ∧ s.d.calEn q = true;
     run ∧ g.2 = none ∧ cmd = 2) ∧
    (let m : Mst := fw;
     let q : Nat := 3;
     let v : Nat := 3 * 2 ^ 60 + 278527;
     let s : State := stOf ((((Dev.reset.setRegN (R.CAL_CTRL.at 3) 3).setFld F.PWR_DOM_CUR 2 0 17).setFld F.PWR_DOM_CUR 2 0 18));
     m.oid = 0 ∧
     let e := bitsOf v 18 0;
     let cmd := bitsOf v 63 60;
     let g := s.d.calGet q e;
     let run := e < calEntries ∧ s.d.calEn q = true;
     run ∧ g.2 = none ∧ cmd = 3) ∧
    (let m : Mst := fw;
     let v : Nat := 1 * 2 ^ 60 + 278528;
     m.oid = 0 ∧
     let e := bitsOf v 18 0;
     let cmd := bitsOf v 63 60;
     calEntries ≤ e ∧ cmd = 1) ∧
    (let m : Mst := fw;
     let v : Nat := 2 * 2 ^ 60 + 278528;
     m.oid = 0 ∧
     let e := bitsOf v 18 0;
     let cmd := bitsOf v 63 60;
     calEntries ≤ e ∧ cmd = 2) ∧
    (let m : Mst := fw;
     let v : Nat := 3 * 2 ^ 60 + 278528;
     m.oid = 0 ∧
     let e := bitsOf v 18 0;
     let cmd := bitsOf v 63 60;
     calEntries ≤ e ∧ cmd = 3) ∧
    (let m : Mst := fw;
     let q : Nat := 3;
     let v : Nat := 1 * 2 ^ 60 + 278527;
     let s : State := State.reset;
     m.oid = 0 ∧
     let e := bitsOf v 18 0;
     let cmd := bitsOf v 63 60;
     e < calEntries ∧ s.d.calEn q = false ∧ cmd = 1) ∧
    (let m : Mst := fw;
     let q : Nat := 3;
     let v : Nat := 2 * 2 ^ 60 + 278527;
     let s : State := State.reset;
     m.oid = 0 ∧
     let e := bitsOf v 18 0;
     let cmd := bitsOf v 63 60;
     e < calEntries ∧ s.d.calEn q = false ∧ cmd = 2) ∧
    (let m : Mst := fw;
     let q : Nat := 3;
     let v : Nat := 3 * 2 ^ 60 + 278527;
     let s : State := State.reset;
     m.oid = 0 ∧
     let e := bitsOf v 18 0;
     let cmd := bitsOf v 63 60;
     e < calEntries ∧ s.d.calEn q = false ∧ cmd = 3) ∧
    (let m : Mst := fw;
     let q : Nat := 3;
     let v : Nat := 4 * 2 ^ 60;
     let s : State := State.reset;
     m.oid = 0 ∧
     let cmd := bitsOf v 63 60;
     cmd = 4 ∧ (s.d.calFlush q).2 = true) ∧
    (let m : Mst := fw;
     let q : Nat := 3;
     let v : Nat := 4 * 2 ^ 60;
     let s : State := stOf
       ({ (((Dev.reset.setRegN (R.CAL_CTRL.at 3) 3).setFld F.PWR_DOM_CUR 2 0 17).setFld F.PWR_DOM_CUR 2 0 18) with calTab := nset none [] (3 * calEntries + 278527) (some ⟨5, true⟩) });
     m.oid = 0 ∧
     let cmd := bitsOf v 63 60;
     cmd = 4 ∧ (s.d.calFlush q).2 = false) ∧
    (let m : Mst := fw;
     let v : Nat := 4 * 2 ^ 60;
     m.oid = 0 ∧
     let cmd := bitsOf v 63 60;
     cmd ≠ 1) ∧
    (let m : Mst := fw;
     let v : Nat := 4 * 2 ^ 60;
     m.oid = 0 ∧
     let cmd := bitsOf v 63 60;
     cmd ≠ 2) ∧
    (let m : Mst := fw;
     let v : Nat := 4 * 2 ^ 60;
     m.oid = 0 ∧
     let cmd := bitsOf v 63 60;
     cmd ≠ 3) ∧
    (let m : Mst := fw;
     let v : Nat := 5 * 2 ^ 60;
     m.oid = 0 ∧
     let cmd := bitsOf v 63 60;
     cmd ≠ 4) ∧
    (let q : Nat := 3;
     let e : Nat := 278527;
     let l : CalLine := ⟨5, true⟩;
     let s : State := stOf
       ({ (Dev.reset.setRegN (R.CAL_CTRL.at 3) 3) with calTab := nset none [] (3 * calEntries + 278527) (some ⟨5, true⟩) });
     s.d.sysHalt = false ∧ s.d.calLine q e = some l ∧ l.dirty = true) ∧
    (let q : Nat := 3;
     let e : Nat := 278527;
     let l : CalLine := ⟨5, false⟩;
     let s : State := stOf
       ({ (Dev.reset.setRegN (R.CAL_CTRL.at 3) 3) with calTab := nset none [] (3 * calEntries + 278527) (some ⟨5, false⟩) });
     s.d.sysHalt = false ∧ s.d.calLine q e = some l ∧ l.dirty = false) ∧
    (let q : Nat := 3;
     let e : Nat := 278527;
     let s : State := State.reset;
     s.d.sysHalt = false ∧ s.d.calLine q e = none) ∧
    (let q : Nat := 3;
     let e : Nat := 278527;
     let v : Nat := 2 ^ 136;
     let s : State := stOf
       (({ (Dev.reset.setRegN (R.CAL_CTRL.at 3) 3) with calTab := nset none [] (3 * calEntries + 278527) (some ⟨2 ^ 136, false⟩) }).setRegN
       (R.CAL_TBASE.at 3) 4096) (⟨2 ^ 51, 0, 0, false, false, 0⟩);
     s.d.sysHalt = false ∧
     let walks := (s.d.reg (R.CAL_CTRL.at q)).getLsbD 1 = true ∧ s.d.regN (R.CAL_TBASE.at q) ≠ 0 ∧ e < calEntries;
     let g := s.d.calGet q e;
     walks ∧ g.2 = some v ∧
     let age := (timeUnits s.clk.tick + 2 ^ 32 - calTime v) % 2 ^ 32;
     let old := calValid v = true ∧ s.d.fld F.CAL_PASTALE_ASTALE q (s.d.calProfile q (calChan e)) < age;
     old) ∧
    (let q : Nat := 3;
     let e : Nat := 278527;
     let v : Nat := 2 ^ 136;
     let s : State := stOf
       (({ (Dev.reset.setRegN (R.CAL_CTRL.at 3) 3) with calTab := nset none [] (3 * calEntries + 278527) (some ⟨2 ^ 136, false⟩) }).setRegN
       (R.CAL_TBASE.at 3) 4096);
     s.d.sysHalt = false ∧
     let walks := (s.d.reg (R.CAL_CTRL.at q)).getLsbD 1 = true ∧ s.d.regN (R.CAL_TBASE.at q) ≠ 0 ∧ e < calEntries;
     let g := s.d.calGet q e;
     walks ∧ g.2 = some v ∧
     let age := (timeUnits s.clk.tick + 2 ^ 32 - calTime v) % 2 ^ 32;
     let old := calValid v = true ∧ s.d.fld F.CAL_PASTALE_ASTALE q (s.d.calProfile q (calChan e)) < age;
     ¬ old) ∧
    (let q : Nat := 3;
     let e : Nat := 278527;
     let s : State := stOf (((((Dev.reset.setRegN (R.CAL_CTRL.at 3) 3).setFld F.PWR_DOM_CUR 2 0 17).setFld F.PWR_DOM_CUR 2 0 18)).setRegN
       (R.CAL_TBASE.at 3) 4096);
     s.d.sysHalt = false ∧
     let walks := (s.d.reg (R.CAL_CTRL.at q)).getLsbD 1 = true ∧ s.d.regN (R.CAL_TBASE.at q) ≠ 0 ∧ e < calEntries;
     let g := s.d.calGet q e;
     walks ∧ g.2 = none) ∧
    (let q : Nat := 3;
     let e : Nat := 278527;
     let s : State := State.reset;
     s.d.sysHalt = false ∧
     let walks := (s.d.reg (R.CAL_CTRL.at q)).getLsbD 1 = true ∧ s.d.regN (R.CAL_TBASE.at q) ≠ 0 ∧ e < calEntries;
     ¬ walks) := by
  refine ⟨?_, ?_, ?_, ?_, ?_, ?_, ?_, ?_, ?_, ?_, ?_, ?_, ?_, ?_, ?_, ?_, ?_, ?_, ?_, ?_, ?_, ?_, ?_, ?_, ?_, ?_⟩
  · try dsimp only
    refine ⟨?_, ?_, ?_, ?_⟩
    · decide +kernel
    · decide +kernel
    · decide +kernel
    · decide +kernel
  · try dsimp only
    refine ⟨?_, ?_, ?_, ?_, ?_⟩
    · decide +kernel
    · decide +kernel
    · decide +kernel
    · decide +kernel
    · decide +kernel
  · try dsimp only
    refine ⟨?_, ?_, ?_, ?_, ?_⟩
    · decide +kernel
    · decide +kernel
    · decide +kernel
    · decide +kernel
    · decide +kernel
  · try dsimp only
    refine ⟨?_, ?_, ?_, ?_⟩
    · decide +kernel
    · decide +kernel
    · decide +kernel
    · decide +kernel
  · try dsimp only
    refine ⟨?_, ?_, ?_, ?_⟩
    · decide +kernel
    · decide +kernel
    · exact calGet_off _ _ _ (by decide +kernel) (by decide +kernel) (by decide +kernel)
    · decide +kernel
  · try dsimp only
    refine ⟨?_, ?_, ?_, ?_⟩
    · decide +kernel
    · decide +kernel
    · exact calGet_off _ _ _ (by decide +kernel) (by decide +kernel) (by decide +kernel)
    · decide +kernel
  · try dsimp only
    refine ⟨?_, ?_, ?_, ?_⟩
    · decide +kernel
    · decide +kernel
    · exact calGet_off _ _ _ (by decide +kernel) (by decide +kernel) (by decide +kernel)
    · decide +kernel
  · try dsimp only
    refine ⟨?_, ?_, ?_⟩
    · decide +kernel
    · decide +kernel
    · decide +kernel
  · try dsimp only
    refine ⟨?_, ?_, ?_⟩
    · decide +kernel
    · decide +kernel
    · decide +kernel
  · try dsimp only
    refine ⟨?_, ?_, ?_⟩
    · decide +kernel
    · decide +kernel
    · decide +kernel
  · try dsimp only
    refine ⟨?_, ?_, ?_, ?_⟩
    · decide +kernel
    · decide +kernel
    · decide +kernel
    · decide +kernel
  · try dsimp only
    refine ⟨?_, ?_, ?_, ?_⟩
    · decide +kernel
    · decide +kernel
    · decide +kernel
    · decide +kernel
  · try dsimp only
    refine ⟨?_, ?_, ?_, ?_⟩
    · decide +kernel
    · decide +kernel
    · decide +kernel
    · decide +kernel
  · try dsimp only
    refine ⟨?_, ?_, ?_⟩
    · decide +kernel
    · decide +kernel
    · decide +kernel
  · try dsimp only
    refine ⟨?_, ?_, ?_⟩
    · decide +kernel
    · decide +kernel
    · exact calFlush_off _ 3 278527 ⟨5, true⟩ (by decide +kernel) (by decide +kernel) rfl (by decide +kernel) (by decide +kernel)
  · try dsimp only
    refine ⟨?_, ?_⟩
    · decide +kernel
    · decide +kernel
  · try dsimp only
    refine ⟨?_, ?_⟩
    · decide +kernel
    · decide +kernel
  · try dsimp only
    refine ⟨?_, ?_⟩
    · decide +kernel
    · decide +kernel
  · try dsimp only
    refine ⟨?_, ?_⟩
    · decide +kernel
    · decide +kernel
  · try dsimp only
    refine ⟨?_, ?_, ?_⟩
    · decide +kernel
    · decide +kernel
    · decide +kernel
  · try dsimp only
    refine ⟨?_, ?_, ?_⟩
    · decide +kernel
    · decide +kernel
    · decide +kernel
  · try dsimp only
    refine ⟨?_, ?_⟩
    · decide +kernel
    · decide +kernel
  · try dsimp only
    refine ⟨?_, ?_, ?_, ?_⟩
    · decide +kernel
    · decide +kernel
    · decide +kernel
    · decide +kernel
  · try dsimp only
    refine ⟨?_, ?_, ?_, ?_⟩
    · decide +kernel
    · decide +kernel
    · decide +kernel
    · decide +kernel
  · try dsimp only
    refine ⟨?_, ?_, ?_⟩
    · decide +kernel
    · decide +kernel
    · exact calGet_off _ _ _ (by decide +kernel) (by decide +kernel) (by decide +kernel)
  · try dsimp only
    refine ⟨?_, ?_⟩
    · decide +kernel
    · decide +kernel

/-- What TrackerControl asks of a state and of operands is met, case by case. -/
theorem witness_TrackerControl :
    (let q : Nat := 0;
     let ring : Nat := 0;
     let s : State := stOf
       ({ (((Dev.reset.setRegN (R.SCC_CFG.at 0) 0).setRegN (R.CAL_CTRL.at 0) 1).setRegN (R.CAL_FRBASE.at 0 0) 4096) with mem := [(4156, 0xFF), (4157, 0xFF), (4158, 0xFF), (4159, 0xFF)] });
     s.d.sysHalt = false ∧
     let base := getBits (s.d.reg (R.CAL_FRBASE.at q ring)) 47 12 * 4096;
     let rp := s.d.regN (R.CAL_FRRP.at q ring);
     let want := s.d.regN (R.CAL_FRSEQ.at q ring);
     let on := s.d.calEn q = true ∧ base ≠ 0;
     let w := s.d.hbm (rdReq (calMid q) 0 (base + 64 * rp) 64) false .none;
     let rcd := leNat w.2.data;
     let seq := frField rcd 56 4;
     let ahead := (seq + 2 ^ 32 - want) % 2 ^ 32;
     let whole := frField rcd 60 4 + seq = 2 ^ 32 - 1;
     on ∧ w.2.code = .okay ∧ whole ∧ ahead = 0) ∧
    (let q : Nat := 0;
     let ring : Nat := 0;
     let s : State := stOf
       ({ (((Dev.reset.setRegN (R.SCC_CFG.at 0) 0).setRegN (R.CAL_CTRL.at 0) 1).setRegN (R.CAL_FRBASE.at 0 0) 4096) with mem := [(4152, 0x1), (4156, 0xFE), (4157, 0xFF), (4158, 0xFF), (4159, 0xFF)] });
     s.d.sysHalt = false ∧
     let base := getBits (s.d.reg (R.CAL_FRBASE.at q ring)) 47 12 * 4096;
     let rp := s.d.regN (R.CAL_FRRP.at q ring);
     let want := s.d.regN (R.CAL_FRSEQ.at q ring);
     let on := s.d.calEn q = true ∧ base ≠ 0;
     let w := s.d.hbm (rdReq (calMid q) 0 (base + 64 * rp) 64) false .none;
     let rcd := leNat w.2.data;
     let seq := frField rcd 56 4;
     let ahead := (seq + 2 ^ 32 - want) % 2 ^ 32;
     let whole := frField rcd 60 4 + seq = 2 ^ 32 - 1;
     on ∧ w.2.code = .okay ∧ whole ∧ 0 < ahead ∧ ahead < 2 ^ 31) ∧
    (let q : Nat := 0;
     let ring : Nat := 0;
     let s : State := stOf
       ({ (((Dev.reset.setRegN (R.SCC_CFG.at 0) 0).setRegN (R.CAL_CTRL.at 0) 1).setRegN (R.CAL_FRBASE.at 0 0) 4096) with mem := [(4152, 0x1)] });
     s.d.sysHalt = false ∧
     let base := getBits (s.d.reg (R.CAL_FRBASE.at q ring)) 47 12 * 4096;
     let rp := s.d.regN (R.CAL_FRRP.at q ring);
     let want := s.d.regN (R.CAL_FRSEQ.at q ring);
     let on := s.d.calEn q = true ∧ base ≠ 0;
     let w := s.d.hbm (rdReq (calMid q) 0 (base + 64 * rp) 64) false .none;
     let rcd := leNat w.2.data;
     let seq := frField rcd 56 4;
     let ahead := (seq + 2 ^ 32 - want) % 2 ^ 32;
     let whole := frField rcd 60 4 + seq = 2 ^ 32 - 1;
     on ∧ w.2.code = .okay ∧ (¬ whole ∨ 2 ^ 31 ≤ ahead)) ∧
    (let q : Nat := 0;
     let ring : Nat := 0;
     let s : State := stOf (((((Dev.reset.setRegN (R.CAL_CTRL.at 0) 1).setRegN (R.CAL_FRBASE.at 0 0) 4096).setFld F.PWR_DOM_CUR 2 0
       17).setFld F.PWR_DOM_CUR 2 0 18));
     s.d.sysHalt = false ∧
     let base := getBits (s.d.reg (R.CAL_FRBASE.at q ring)) 47 12 * 4096;
     let rp := s.d.regN (R.CAL_FRRP.at q ring);
     let on := s.d.calEn q = true ∧ base ≠ 0;
     let w := s.d.hbm (rdReq (calMid q) 0 (base + 64 * rp) 64) false .none;
     on ∧ w.2.code ≠ .okay) ∧
    (let q : Nat := 0;
     let ring : Nat := 0;
     let s : State := State.reset;
     s.d.sysHalt = false ∧
     let base := getBits (s.d.reg (R.CAL_FRBASE.at q ring)) 47 12 * 4096;
     let on := s.d.calEn q = true ∧ base ≠ 0;
     ¬ on) ∧
    (let s : State := State.reset;
     s.d.sysHalt = false) ∧
    (let m : Mst := fw;
     let q : Nat := 3;
     let s : State := stOf (Dev.reset.setRegN (R.BLK_LOCK.at 3 (Blk.CAL.base / 65536)) 1);
     m.oid = 0 ∧ s.d.locked .CAL q = true) ∧
    (let m : Mst := fw;
     let q : Nat := 3;
     let v : Nat := 1;
     let s : State := State.reset;
     m.oid = 0 ∧
     let bare := v.testBit 0 = true ∧ s.d.regN (R.CAL_TBASE.at q) = 0;
     s.d.locked .CAL q = false ∧ bare) ∧
    (let m : Mst := fw;
     let q : Nat := 3;
     let v : Nat := 2;
     let s : State := stOf (Dev.reset.setRegN (R.CAL_CTRL.at 3) 1);
     m.oid = 0 ∧
     let ends := s.d.calEn q = true ∧ v.testBit 0 = false;
     s.d.locked .CAL q = false ∧ ends) ∧
    (let m : Mst := fw;
     let q : Nat := 3;
     let v : Nat := 3;
     let s : State := stOf ((Dev.reset.setRegN (R.CAL_CTRL.at 3) 1).setRegN (R.CAL_TBASE.at 3) 4096);
     m.oid = 0 ∧
     let ends := s.d.calEn q = true ∧ v.testBit 0 = false;
     let bare := v.testBit 0 = true ∧ s.d.regN (R.CAL_TBASE.at q) = 0;
     s.d.locked .CAL q = false ∧ ¬ bare ∧ ¬ ends) ∧
    (let m : Mst := fw;
     let q : Nat := 3;
     let s : State := stOf (Dev.reset.setRegN (R.BLK_LOCK.at 3 (Blk.CAL.base / 65536)) 1);
     m.oid = 0 ∧ s.d.locked .CAL q = true) ∧
    (let m : Mst := fw;
     let q : Nat := 3;
     let s : State := stOf (Dev.reset.setRegN (R.CAL_CTRL.at 3) 1);
     m.oid = 0 ∧ s.d.locked .CAL q = false ∧ s.d.calEn q = true) ∧
    (let m : Mst := fw;
     let q : Nat := 3;
     let s : State := State.reset;
     m.oid = 0 ∧ s.d.locked .CAL q = false ∧ s.d.calEn q = false) := by
  refine ⟨?_, ?_, ?_, ?_, ?_, ?_, ?_, ?_, ?_, ?_, ?_, ?_, ?_⟩
  · have hw : ∀ a, a = 4096 → (stOf ({ (((Dev.reset.setRegN (R.SCC_CFG.at 0) 0).setRegN (R.CAL_CTRL.at 0) 1).setRegN (R.CAL_FRBASE.at 0 0) 4096) with mem := [(4156, 0xFF), (4157, 0xFF), (4158, 0xFF), (4159, 0xFF)] })).d.hbm (rdReq (calMid 0) 0 a 64) false .none = (({ (((Dev.reset.setRegN (R.SCC_CFG.at 0) 0).setRegN (R.CAL_CTRL.at 0) 1).setRegN (R.CAL_FRBASE.at 0 0) 4096) with mem := [(4156, 0xFF), (4157, 0xFF), (4158, 0xFF), (4159, 0xFF)] }).sccMissed 0 0 1, ⟨.okay, [0, 0, 0, 0, 0, 0, 0, 0, 0, 0, 0, 0, 0, 0, 0, 0, 0, 0, 0, 0, 0, 0, 0, 0, 0, 0, 0, 0, 0, 0, 0, 0, 0, 0, 0, 0, 0, 0, 0, 0, 0, 0, 0, 0, 0, 0, 0, 0, 0, 0, 0, 0, 0, 0, 0, 0, 0, 0, 0, 0, 255, 255, 255, 255]⟩) := by
      intro a ha
      subst ha
      rw [hbm_read_low] <;> decide +kernel
    dsimp only
    rw [hw _ (by decide +kernel)]
    decide +kernel
  · have hw : ∀ a, a = 4096 → (stOf ({ (((Dev.reset.setRegN (R.SCC_CFG.at 0) 0).setRegN (R.CAL_CTRL.at 0) 1).setRegN (R.CAL_FRBASE.at 0 0) 4096) with mem := [(4152, 0x1), (4156, 0xFE), (4157, 0xFF), (4158, 0xFF), (4159, 0xFF)] })).d.hbm (rdReq (calMid 0) 0 a 64) false .none = (({ (((Dev.reset.setRegN (R.SCC_CFG.at 0) 0).setRegN (R.CAL_CTRL.at 0) 1).setRegN (R.CAL_FRBASE.at 0 0) 4096) with mem := [(4152, 0x1), (4156, 0xFE), (4157, 0xFF), (4158, 0xFF), (4159, 0xFF)] }).sccMissed 0 0 1, ⟨.okay, [0, 0, 0, 0, 0, 0, 0, 0, 0, 0, 0, 0, 0, 0, 0, 0, 0, 0, 0, 0, 0, 0, 0, 0, 0, 0, 0, 0, 0, 0, 0, 0, 0, 0, 0, 0, 0, 0, 0, 0, 0, 0, 0, 0, 0, 0, 0, 0, 0, 0, 0, 0, 0, 0, 0, 0, 1, 0, 0, 0, 254, 255, 255, 255]⟩) := by
      intro a ha
      subst ha
      rw [hbm_read_low] <;> decide +kernel
    dsimp only
    rw [hw _ (by decide +kernel)]
    decide +kernel
  · have hw : ∀ a, a = 4096 → (stOf ({ (((Dev.reset.setRegN (R.SCC_CFG.at 0) 0).setRegN (R.CAL_CTRL.at 0) 1).setRegN (R.CAL_FRBASE.at 0 0) 4096) with mem := [(4152, 0x1)] })).d.hbm (rdReq (calMid 0) 0 a 64) false .none = (({ (((Dev.reset.setRegN (R.SCC_CFG.at 0) 0).setRegN (R.CAL_CTRL.at 0) 1).setRegN (R.CAL_FRBASE.at 0 0) 4096) with mem := [(4152, 0x1)] }).sccMissed 0 0 1, ⟨.okay, [0, 0, 0, 0, 0, 0, 0, 0, 0, 0, 0, 0, 0, 0, 0, 0, 0, 0, 0, 0, 0, 0, 0, 0, 0, 0, 0, 0, 0, 0, 0, 0, 0, 0, 0, 0, 0, 0, 0, 0, 0, 0, 0, 0, 0, 0, 0, 0, 0, 0, 0, 0, 0, 0, 0, 0, 1, 0, 0, 0, 0, 0, 0, 0]⟩) := by
      intro a ha
      subst ha
      rw [hbm_read_low] <;> decide +kernel
    dsimp only
    rw [hw _ (by decide +kernel)]
    decide +kernel
  · refine ⟨by decide +kernel, by decide +kernel, ?_⟩
    rw [hbm_off_low _ _ _ _ (by decide +kernel) (by decide +kernel)]
    exact fun h => by cases h
  · try dsimp only
    refine ⟨?_, ?_⟩
    · decide +kernel
    · decide +kernel
  · try dsimp only
    decide +kernel
  · try dsimp only
    refine ⟨?_, ?_⟩
    · decide +kernel
    · decide +kernel
  · try dsimp only
    refine ⟨?_, ?_, ?_⟩
    · decide +kernel
    · decide +kernel
    · decide +kernel
  · try dsimp only
    refine ⟨?_, ?_, ?_⟩
    · decide +kernel
    · decide +kernel
    · decide +kernel
  · try dsimp only
    refine ⟨?_, ?_, ?_, ?_⟩
    · decide +kernel
    · decide +kernel
    · decide +kernel
    · decide +kernel
  · try dsimp only
    refine ⟨?_, ?_⟩
    · decide +kernel
    · decide +kernel
  · try dsimp only
    refine ⟨?_, ?_, ?_⟩
    · decide +kernel
    · decide +kernel
    · decide +kernel
  · try dsimp only
    refine ⟨?_, ?_, ?_⟩
    · decide +kernel
    · decide +kernel
    · decide +kernel

/-- What MediaLists asks of a state and of operands is met, case by case. -/
theorem witness_MediaLists :
    (let m : Mst := ⟨0x40, 0, false⟩;
     m.oid = 0 ∧
     let core := m.mid < 0x40 ∨ m.mid = 0x4C0;
     ¬ core) ∧
    (let m : Mst := fw;
     let ch : Nat := 575;
     let s : State := State.reset;
     m.oid = 0 ∧
     let core := m.mid < 0x40 ∨ m.mid = 0x4C0;
     core ∧ s.d.chEn ch = false) ∧
    (let m : Mst := fw;
     let ch : Nat := 575;
     let v : Nat := 257 * 2 ^ 52;
     let s : State := stOf ((Dev.reset.setBit (mReg 575 .MSQ_CHCFG) 31 true));
     m.oid = 0 ∧
     let core := m.mid < 0x40 ∨ m.mid = 0x4C0;
     let good := bitsOf v 51 48 = 0 ∧ v % 16 = 0 ∧ 0 < bitsOf v 63 52 ∧ bitsOf v 63 52 ≤ 256;
     core ∧ s.d.chEn ch = true ∧ ¬ good) ∧
    (let m : Mst := fw;
     let ch : Nat := 575;
     let v : Nat := 256 * 2 ^ 52 + (2 ^ 48 - 16);
     let s : State := stOf ((Dev.reset.setBit (mReg 575 .MSQ_CHCFG) 31 true));
     m.oid = 0 ∧
     let core := m.mid < 0x40 ∨ m.mid = 0x4C0;
     let good := bitsOf v 51 48 = 0 ∧ v % 16 = 0 ∧ 0 < bitsOf v 63 52 ∧ bitsOf v 63 52 ≤ 256;
     core ∧ s.d.chEn ch = true ∧ good ∧ (s.d.mchan ch).posts.length < 32) ∧
    (let m : Mst := fw;
     let ch : Nat := 575;
     let v : Nat := 256 * 2 ^ 52;
     let s : State := stOf
       ({ (Dev.reset.setBit (mReg 575 .MSQ_CHCFG) 31 true) with mch := nset MChan.zero [] 575 { MChan.zero with posts := List.replicate 32 ⟨0, 1, none, false, [], 0, 0⟩ } });
     m.oid = 0 ∧
     let core := m.mid < 0x40 ∨ m.mid = 0x4C0;
     let good := bitsOf v 51 48 = 0 ∧ v % 16 = 0 ∧ 0 < bitsOf v 63 52 ∧ bitsOf v 63 52 ≤ 256;
     core ∧ s.d.chEn ch = true ∧ good ∧ 32 ≤ (s.d.mchan ch).posts.length) ∧
    (let ch : Nat := 15;
     let e : HbmErr := .none;
     let p : MPost := ⟨0, 1, none, false, [], 0, 0⟩;
     let s : State := stOf
       ({ ((Dev.reset.setFld F.PWR_DOM_CUR 2 0 17).setFld F.PWR_DOM_CUR 2 0 18) with mch := nset MChan.zero [] 15 { MChan.zero with posts := [⟨0, 1, none, false, [], 0, 0⟩] } });
     s.d.sysHalt = false ∧
     let posts := (s.d.mchan ch).posts;
     posts.find? (fun p => !p.fetched) = some p ∧
     let r := s.d.readOps (mMid ch) p.addr e p.count;
     r.2 = none) ∧
    (let ch : Nat := 15;
     let e : HbmErr := .none;
     let p : MPost := ⟨0, 1, none, false, [], 0, 0⟩;
     let ops : List Nat := [1];
     let s : State := stOf
       ({ ({ (Dev.reset.setRegN (R.SCC_CFG.at 0) 0) with mem := [(0, 1)] }) with mch := nset MChan.zero [] 15 { MChan.zero with posts := [⟨0, 1, none, false, [], 0, 0⟩] } });
     s.d.sysHalt = false ∧
     let posts := (s.d.mchan ch).posts;
     posts.find? (fun p => !p.fetched) = some p ∧
     let r := s.d.readOps (mMid ch) p.addr e p.count;
     let check (ops : List Nat) : Option Nat := listFault (decide (64 ≤ ch)) (chbufSize ch) (s.d.chcfg ch 18 15) ops;
     r.2 = some ops ∧ check ops = none) ∧
    (let ch : Nat := 15;
     let e : HbmErr := .none;
     let p : MPost := ⟨0, 1, none, false, [], 0, 0⟩;
     let ops : List Nat := [0];
     let i : Nat := 0;
     let s : State := stOf
       ({ ({ (Dev.reset.setRegN (R.SCC_CFG.at 0) 0) with mem := [] }) with mch := nset MChan.zero [] 15 { MChan.zero with posts := [⟨0, 1, none, false, [], 0, 0⟩] } });
     s.d.sysHalt = false ∧
     let posts := (s.d.mchan ch).posts;
     posts.find? (fun p => !p.fetched) = some p ∧
     let r := s.d.readOps (mMid ch) p.addr e p.count;
     let check (ops : List Nat) : Option Nat := listFault (decide (64 ≤ ch)) (chbufSize ch) (s.d.chcfg ch 18 15) ops;
     r.2 = some ops ∧ check ops = some i) ∧
    (let ch : Nat := 575;
     let s : State := State.reset;
     s.d.sysHalt = false ∧
     let posts := (s.d.mchan ch).posts;
     posts.find? (fun p => !p.fetched) = none) ∧
    (let ch : Nat := 575;
     let i : Nat := 0;
     let x : Nat := 0;
     let p : MPost := ⟨0, 1, none, true, [1], 0, 0⟩;
     let s : State := stOf ({ Dev.reset with mch := nset MChan.zero [] 575 { MChan.zero with posts := [⟨0, 1, none, true, [1], 0, 0⟩] } });
     s.d.sysHalt = false ∧
     let c := s.d.mchan ch;
     let ready := (upTo c.posts.length).find? (fun i => s.d.postReady ch i);
     let room := (upTo 8).find? (fun x => (s.d.mctx ch x).isNone);
     ready = some i ∧ room = some x ∧ c.posts[i]? = some p ∧ p.bad = 0) ∧
    (let ch : Nat := 575;
     let i : Nat := 0;
     let x : Nat := 0;
     let p : MPost := ⟨0, 1, none, true, [1], 1, 0⟩;
     let s : State := stOf ({ Dev.reset with mch := nset MChan.zero [] 575 { MChan.zero with posts := [⟨0, 1, none, true, [1], 1, 0⟩] } });
     s.d.sysHalt = false ∧
     let c := s.d.mchan ch;
     let ready := (upTo c.posts.length).find? (fun i => s.d.postReady ch i);
     let room := (upTo 8).find? (fun x => (s.d.mctx ch x).isNone);
     ready = some i ∧ room = some x ∧ c.posts[i]? = some p ∧ p.bad ≠ 0) ∧
    (let ch : Nat := 575;
     let s : State := State.reset;
     s.d.sysHalt = false ∧
     let c := s.d.mchan ch;
     let ready := (upTo c.posts.length).find? (fun i => s.d.postReady ch i);
     let room := (upTo 8).find? (fun x => (s.d.mctx ch x).isNone);
     (ready = none ∨ room = none)) ∧
    (let ch : Nat := 575;
     let x : Nat := 7;
     let y : MCtx := ⟨[1 + 0x37 * 2 ^ 16, 2], none, 1, 0, 0, .need, 0, 0, 0, false, none, none, none, 0, 0, 0, 0, 0, false, [], false,
       false⟩;
     let s : State := stOf
       ({ Dev.reset with mch := nset MChan.zero [] 575 { MChan.zero with ctxs := [(7, some ⟨[1 + 0x37 * 2 ^ 16, 2], none, 1, 0, 0, .need, 0, 0, 0, false, none, none, none, 0, 0, 0, 0, 0, false, [], false, false⟩)] } });
     s.d.sysHalt = false ∧
     let c := s.d.mchan ch;
     let held := ∃ n z, (n, some z) ∈ c.ctxs ∧ z.st = .hold;
     let wants (x : Nat) : Bool := (s.d.mctx ch x).any (fun y => y.wantsBus);
     let next := ((upTo 8).map (fun i => (c.last + 1 + i) % 8)).find? wants;
     ¬ held ∧ s.d.training ch = false ∧ next = some x ∧ s.d.mctx ch x = some y) ∧
    (let ch : Nat := 63;
     let s : State := stOf
       ({ (Dev.reset.setFld F.NPH_TSTAT_RESULT 3 3 15) with mch := nset MChan.zero [] 63 { MChan.zero with ctxs := [(7, some ⟨[1 + 0x37 * 2 ^ 16, 2], none, 1, 0, 0, .need, 0, 0, 0, false, none, none, none, 0, 0, 0, 0, 0, false, [], false, false⟩)] } });
     s.d.sysHalt = false ∧
     let c := s.d.mchan ch;
     let held := ∃ n z, (n, some z) ∈ c.ctxs ∧ z.st = .hold;
     let wants (x : Nat) : Bool := (s.d.mctx ch x).any (fun y => y.wantsBus);
     let next := ((upTo 8).map (fun i => (c.last + 1 + i) % 8)).find? wants;
     (held ∨ s.d.training ch = true ∨ next = none)) ∧
    (let ch : Nat := 575;
     let x : Nat := 7;
     let c : MCtx := ⟨[1 + 0x37 * 2 ^ 16, 0], none, 1, 0, 0, .hold, 0, 0, 0, false, none, none, none, 0, 0, 0, 0, 0, false, [], false,
       false⟩;
     let s : State := stOf
       ({ (((Dev.reset.setRegN (R.TET_LSTAT.at 3 15) (4 * 2 ^ 28)).setFld F.TET_LSTAT_NCHAN 8 3 15).setFld F.TET_CHINFO_NCE 8 3 15 7) with mch := nset MChan.zero [] 575 { MChan.zero with ctxs := [(7, some ⟨[1 + 0x37 * 2 ^ 16, 0], none, 1, 0, 0, .hold, 0, 0, 0, false, none, none, none, 0, 0, 0, 0, 0, false, [], false, false⟩)] } });
     atOp s.d ch x 0x00 c ∧
     let f := s.d.flush ch x c;
     f.1.tetBusy ch x = false) ∧
    (let ch : Nat := 575;
     let x : Nat := 7;
     let c : MCtx := ⟨[1 + 0x37 * 2 ^ 16, 0], none, 1, 0, 0, .hold, 0, 0, 0, false, none, none, none, 0, 0, 0, 0, 0, false, [], false,
       false⟩;
     let s : State := stOf
       ({ ({ (((Dev.reset.setRegN (R.TET_LSTAT.at 3 15) (4 * 2 ^ 28)).setFld F.TET_LSTAT_NCHAN 8 3 15).setFld F.TET_CHINFO_NCE 8 3 15 7) with lanes := nset Lane.zero [] 63 { Lane.zero with outq := [⟨575 * 8 + 7, 7, 3, [], false, none⟩] } }) with mch := nset MChan.zero [] 575 { MChan.zero with ctxs := [(7, some ⟨[1 + 0x37 * 2 ^ 16, 0], none, 1, 0, 0, .hold, 0, 0, 0, false, none, none, none, 0, 0, 0, 0, 0, false, [], false, false⟩)] } });
     atOp s.d ch x 0x00 c ∧
     let f := s.d.flush ch x c;
     f.1.tetBusy ch x = true) ∧
    (let ch : Nat := 575;
     let x : Nat := 7;
     let s : State := State.reset;
     (∀ c, ¬ atOp s.d ch x 0x00 c)) ∧
    (let ch : Nat := 575;
     let x : Nat := 7;
     let c : MCtx := ⟨[1 + 0x37 * 2 ^ 16, 0], none, 1, 0, 0, .ended, 0, 0, 0, false, none, none, none, 0, 0, 0, 0, 0, false, [], false,
       false⟩;
     let s : State := stOf
       ({ (Dev.reset.setFld F.MSQ_RSIZE_RSIZE 4 (mediaPlace 575).1 (mGroup 575)) with mch := nset MChan.zero [] 575 { MChan.zero with ctxs := [(7, some ⟨[1 + 0x37 * 2 ^ 16, 0], none, 1, 0, 0, .ended, 0, 0, 0, false, none, none, none, 0, 0, 0, 0, 0, false, [], false, false⟩)] } });
     s.d.sysHalt = false ∧ s.d.mctx ch x = some c ∧
     let q := (mediaPlace ch).1;
     let j := mGroup ch;
     let wp := s.d.fld F.MSQ_RWP_WP q j;
     let nx := (wp + 1) % s.d.mRing q j;
     let full := nx = s.d.fld F.MSQ_RRP_RP q j;
     c.st = .ended ∧ ¬ full) ∧
    (let ch : Nat := 575;
     let x : Nat := 7;
     let c : MCtx := ⟨[1 + 0x37 * 2 ^ 16, 0], none, 1, 0, 0, .ended, 0, 0, 0, false, none, none, none, 0, 0, 0, 0, 0, false, [], false,
       false⟩;
     let s : State := stOf
       ({ (Dev.reset.setFld F.MSQ_RSIZE_RSIZE 0 (mediaPlace 575).1 (mGroup 575)) with mch := nset MChan.zero [] 575 { MChan.zero with ctxs := [(7, some ⟨[1 + 0x37 * 2 ^ 16, 0], none, 1, 0, 0, .ended, 0, 0, 0, false, none, none, none, 0, 0, 0, 0, 0, false, [], false, false⟩)] } });
     s.d.sysHalt = false ∧ s.d.mctx ch x = some c ∧
     let q := (mediaPlace ch).1;
     let j := mGroup ch;
     let wp := s.d.fld F.MSQ_RWP_WP q j;
     let nx := (wp + 1) % s.d.mRing q j;
     let full := nx = s.d.fld F.MSQ_RRP_RP q j;
     c.st = .ended ∧ full ∧ c.rhold = false) ∧
    (let ch : Nat := 575;
     let x : Nat := 7;
     let c : MCtx := ⟨[1 + 0x37 * 2 ^ 16, 0], none, 1, 0, 0, .ended, 0, 0, 0, false, none, none, none, 0, 0, 0, 0, 0, false, [], false,
       true⟩;
     let s : State := stOf
       ({ (Dev.reset.setFld F.MSQ_RSIZE_RSIZE 0 (mediaPlace 575).1 (mGroup 575)) with mch := nset MChan.zero [] 575 { MChan.zero with ctxs := [(7, some ⟨[1 + 0x37 * 2 ^ 16, 0], none, 1, 0, 0, .ended, 0, 0, 0, false, none, none, none, 0, 0, 0, 0, 0, false, [], false, true⟩)] } });
     s.d.sysHalt = false ∧ s.d.mctx ch x = some c ∧
     let q := (mediaPlace ch).1;
     let j := mGroup ch;
     let wp := s.d.fld F.MSQ_RWP_WP q j;
     let nx := (wp + 1) % s.d.mRing q j;
     let full := nx = s.d.fld F.MSQ_RRP_RP q j;
     c.st = .ended ∧ full ∧ c.rhold = true) ∧
    (let ch : Nat := 575;
     let x : Nat := 7;
     let c : MCtx := ⟨[1 + 0x37 * 2 ^ 16, 0], none, 1, 0, 0, .need, 0, 0, 0, false, none, none, none, 0, 0, 0, 0, 0, false, [], false,
       false⟩;
     let s : State := stOf
       ({ Dev.reset with mch := nset MChan.zero [] 575 { MChan.zero with ctxs := [(7, some ⟨[1 + 0x37 * 2 ^ 16, 0], none, 1, 0, 0, .need, 0, 0, 0, false, none, none, none, 0, 0, 0, 0, 0, false, [], false, false⟩)] } });
     s.d.sysHalt = false ∧ s.d.mctx ch x = some c ∧ c.st ≠ .ended) ∧
    (let ch : Nat := 575;
     let x : Nat := 0;
     let s : State := State.reset;
     s.d.sysHalt = false ∧ s.d.mctx ch x = none) := by
  refine ⟨?_, ?_, ?_, ?_, ?_, ?_, ?_, ?_, ?_, ?_, ?_, ?_, ?_, ?_, ?_, ?_, ?_, ?_, ?_, ?_, ?_, ?_⟩
  · try dsimp only
    refine ⟨?_, ?_⟩
    · decide +kernel
    · decide +kernel
  · try dsimp only
    refine ⟨?_, ?_, ?_⟩
    · decide +kernel
    · decide +kernel
    · decide +kernel
  · try dsimp only
    refine ⟨?_, ?_, ?_, ?_⟩
    · decide +kernel
    · decide +kernel
    · decide +kernel
    · decide +kernel
  · try dsimp only
    refine ⟨?_, ?_, ?_, ?_, ?_⟩
    · decide +kernel
    · decide +kernel
    · decide +kernel
    · decide +kernel
    · decide +kernel
  · try dsimp only
    refine ⟨?_, ?_, ?_, ?_, ?_⟩
    · decide +kernel
    · decide +kernel
    · decide +kernel
    · decide +kernel
    · decide +kernel
  · try dsimp only
    refine ⟨?_, ?_, ?_⟩
    · decide +kernel
    · decide +kernel
    · exact readOps_off _ _ 0 0 _ (by decide +kernel) (by decide +kernel)
  · try dsimp only
    refine ⟨?_, ?_, ?_, ?_⟩
    · decide +kernel
    · decide +kernel
    · exact (readOps_one _ _ _ (by decide +kernel) (by decide +kernel) (by decide +kernel) (by decide +kernel) (by decide +kernel) (by decide +kernel) (by decide +kernel)).trans (by decide +kernel)
    · decide +kernel
  · try dsimp only
    refine ⟨?_, ?_, ?_, ?_⟩
    · decide +kernel
    · decide +kernel
    · exact (readOps_one _ _ _ (by decide +kernel) (by decide +kernel) (by decide +kernel) (by decide +kernel) (by decide +kernel) (by decide +kernel) (by decide +kernel)).trans (by decide +kernel)
    · decide +kernel
  · try dsimp only
    refine ⟨?_, ?_⟩
    · decide +kernel
    · decide +kernel
  · try dsimp only
    refine ⟨?_, ?_, ?_, ?_, ?_⟩
    · decide +kernel
    · decide +kernel
    · decide +kernel
    · decide +kernel
    · decide +kernel
  · try dsimp only
    refine ⟨?_, ?_, ?_, ?_, ?_⟩
    · decide +kernel
    · decide +kernel
    · decide +kernel
    · decide +kernel
    · decide +kernel
  · try dsimp only
    refine ⟨?_, ?_⟩
    · decide +kernel
    · decide +kernel
  · try dsimp only
    refine ⟨?_, ?_, ?_, ?_, ?_⟩
    · decide +kernel
    · rintro ⟨n, z, h, hz⟩
      rw [show ((stOf ({ Dev.reset with mch := nset MChan.zero [] 575 { MChan.zero with ctxs := [(7, some ⟨[1 + 0x37 * 2 ^ 16, 2], none, 1, 0, 0, .need, 0, 0, 0, false, none, none, none, 0, 0, 0, 0, 0, false, [], false, false⟩)] } })).d.mchan 575).ctxs = [(7, some ⟨[1 + 0x37 * 2 ^ 16, 2], none, 1, 0, 0, .need, 0, 0, 0, false, none, none, none, 0, 0, 0, 0, 0, false, [], false, false⟩)] from by decide +kernel] at h
      simp only [List.mem_singleton, Prod.mk.injEq, Option.some.injEq] at h
      rw [h.2] at hz
      exact absurd hz (by decide +kernel)
    · decide +kernel
    · decide +kernel
    · decide +kernel
  · try dsimp only
    refine ⟨?_, ?_⟩
    · decide +kernel
    · exact Or.inr (Or.inl (by decide +kernel))
  · try dsimp only
    refine ⟨?_, ?_⟩
    · exact ⟨by decide +kernel, by decide +kernel, by decide +kernel, by decide +kernel, by decide +kernel⟩
    · decide +kernel
  · try dsimp only
    refine ⟨?_, ?_⟩
    · exact ⟨by decide +kernel, by decide +kernel, by decide +kernel, by decide +kernel, by decide +kernel⟩
    · decide +kernel
  · try dsimp only
    exact noOp (by decide +kernel) _
  · try dsimp only
    refine ⟨?_, ?_, ?_, ?_⟩
    · decide +kernel
    · decide +kernel
    · decide +kernel
    · decide +kernel
  · try dsimp only
    refine ⟨?_, ?_, ?_, ?_, ?_⟩
    · decide +kernel
    · decide +kernel
    · decide +kernel
    · decide +kernel
    · decide +kernel
  · try dsimp only
    refine ⟨?_, ?_, ?_, ?_, ?_⟩
    · decide +kernel
    · decide +kernel
    · decide +kernel
    · decide +kernel
    · decide +kernel
  · try dsimp only
    refine ⟨?_, ?_, ?_⟩
    · decide +kernel
    · decide +kernel
    · decide +kernel
  · try dsimp only
    refine ⟨?_, ?_⟩
    · decide +kernel
    · decide +kernel

/-- What MicroOps asks of a state and of operands is met, case by case. -/
theorem witness_MicroOps :
    (let ch : Nat := 575;
     let x : Nat := 7;
     let c : MCtx := ⟨[1 + 0x37 * 2 ^ 16], none, 0, 0, 0, .hold, 0, 0, 0, false, none, none, none, 0, 0, 0, 0, 0, false, [], false, false⟩;
     let s : State := stOf
       ({ Dev.reset with mch := nset MChan.zero [] 575 { MChan.zero with ctxs := [(7, some ⟨[1 + 0x37 * 2 ^ 16], none, 0, 0, 0, .hold, 0, 0, 0, false, none, none, none, 0, 0, 0, 0, 0, false, [], false, false⟩)] } });
     atOp s.d ch x 0x01 c) ∧
    (let ch : Nat := 575;
     let x : Nat := 7;
     let s : State := State.reset;
     (∀ c, ¬ atOp s.d ch x 0x01 c)) ∧
    (let ch : Nat := 575;
     let x : Nat := 7;
     let c : MCtx := ⟨[1 + 0x37 * 2 ^ 16, 7 + 65535 * 2 ^ 16], none, 1, 0, 0, .hold, 0, 0, 0, false, none, none, none, 0, 0, 0, 0, 0, false,
       [], false, false⟩;
     let s : State := stOf
       ({ Dev.reset with mch := nset MChan.zero [] 575 { MChan.zero with ctxs := [(7, some ⟨[1 + 0x37 * 2 ^ 16, 7 + 65535 * 2 ^ 16], none, 1, 0, 0, .hold, 0, 0, 0, false, none, none, none, 0, 0, 0, 0, 0, false, [], false, false⟩)] } });
     atOp s.d ch x 0x07 c) ∧
    (let ch : Nat := 575;
     let x : Nat := 7;
     let s : State := State.reset;
     (∀ c, ¬ atOp s.d ch x 0x07 c)) ∧
    (let ch : Nat := 575;
     let x : Nat := 7;
     let c : MCtx := ⟨[1 + 0x37 * 2 ^ 16, 7 + 65535 * 2 ^ 16], none, 1, 0, 0, .delay, 0, 0, 0, false, none, none, none, 0, 0, 0, 0, 0, false,
       [], false, false⟩;
     let s : State := stOf
       ({ Dev.reset with mch := nset MChan.zero [] 575 { MChan.zero with ctxs := [(7, some ⟨[1 + 0x37 * 2 ^ 16, 7 + 65535 * 2 ^ 16], none, 1, 0, 0, .delay, 0, 0, 0, false, none, none, none, 0, 0, 0, 0, 0, false, [], false, false⟩)] } });
     s.d.sysHalt = false ∧ s.d.mctx ch x = some c ∧ c.st = .delay) ∧
    (let ch : Nat := 575;
     let x : Nat := 7;
     let s : State := State.reset;
     (∀ c, s.d.mctx ch x = some c → c.st ≠ .delay)) ∧
    (let ch : Nat := 575;
     let x : Nat := 7;
     let c : MCtx := ⟨[1 + 0x37 * 2 ^ 16, 9 + 0x40 * 2 ^ 16 + 0x40 * 2 ^ 24], none, 1, 0, 0x40, .hold, 0, 0, 0, false, none, none, none, 0,
       0, 0, 0, 0, false, [], false, false⟩;
     let s : State := stOf
       ({ Dev.reset with mch := nset MChan.zero [] 575 { MChan.zero with ctxs := [(7, some ⟨[1 + 0x37 * 2 ^ 16, 9 + 0x40 * 2 ^ 16 + 0x40 * 2 ^ 24], none, 1, 0, 0x40, .hold, 0, 0, 0, false, none, none, none, 0, 0, 0, 0, 0, false, [], false, false⟩)] } });
     atOp s.d ch x 0x09 c ∧
     let hit := (c.sr &&& opByte c.op 2 = opByte c.op 3) ↔ c.op.testBit 8 = false;
     hit) ∧
    (let ch : Nat := 575;
     let x : Nat := 7;
     let c : MCtx := ⟨[1 + 0x37 * 2 ^ 16, 9 + 0x40 * 2 ^ 16 + 0x40 * 2 ^ 24], none, 1, 0, 0, .hold, 0, 0, 0, false, none, none, none, 0, 0,
       0, 0, 0, false, [], false, false⟩;
     let s : State := stOf
       ({ Dev.reset with mch := nset MChan.zero [] 575 { MChan.zero with ctxs := [(7, some ⟨[1 + 0x37 * 2 ^ 16, 9 + 0x40 * 2 ^ 16 + 0x40 * 2 ^ 24], none, 1, 0, 0, .hold, 0, 0, 0, false, none, none, none, 0, 0, 0, 0, 0, false, [], false, false⟩)] } });
     atOp s.d ch x 0x09 c ∧
     let hit := (c.sr &&& opByte c.op 2 = opByte c.op 3) ↔ c.op.testBit 8 = false;
     ¬ hit) ∧
    (let ch : Nat := 575;
     let x : Nat := 7;
     let s : State := State.reset;
     (∀ c, ¬ atOp s.d ch x 0x09 c)) ∧
    (let ch : Nat := 63;
     let x : Nat := 7;
     let c : MCtx := ⟨[1 + 0x37 * 2 ^ 16, 2 + 0x77 * 2 ^ 16], none, 1, 0, 0, .hold, 0, 0, 0, false, none, none, none, 0, 0, 0, 0, 0, false,
       [], false, false⟩;
     let s : State := stOf
       ({ Dev.reset with mch := nset MChan.zero [] 63 { MChan.zero with ctxs := [(7, some ⟨[1 + 0x37 * 2 ^ 16, 2 + 0x77 * 2 ^ 16], none, 1, 0, 0, .hold, 0, 0, 0, false, none, none, none, 0, 0, 0, 0, 0, false, [], false, false⟩)] } });
     onBus s.d ch x 0x02 false c ∧
     let b := opByte c.op 2;
     let isP := s.d.isConfirm ch b false = true;
     let isE := s.d.isConfirm ch b true = true;
     ¬ isP ∧ ¬ isE) ∧
    (let ch : Nat := 63;
     let x : Nat := 7;
     let c : MCtx := ⟨[1 + 0x37 * 2 ^ 16, 2 + 0x10 * 2 ^ 16], none, 1, 0, 0, .hold, 0, 0, 0, false, none, none, none, 0, 0, 0, 0, 0, false,
       [], false, false⟩;
     let s : State := stOf
       ({ Dev.reset with mch := nset MChan.zero [] 63 { MChan.zero with ctxs := [(7, some ⟨[1 + 0x37 * 2 ^ 16, 2 + 0x10 * 2 ^ 16], none, 1, 0, 0, .hold, 0, 0, 0, false, none, none, none, 0, 0, 0, 0, 0, false, [], false, false⟩)] } });
     onBus s.d ch x 0x02 false c ∧
     let b := opByte c.op 2;
     let isP := s.d.isConfirm ch b false = true;
     let isE := s.d.isConfirm ch b true = true;
     let w := s.d.lunop ch c.u;
     let t := getBits w 60 59;
     let open' := w.getLsbD 63 = true ∧ w.getLsbD 62 = false ∧ c.conf = false ∧ ((isP ∧ t = 1) ∨ (isE ∧ t = 2));
     (isP ∨ isE) ∧ ¬ open') ∧
    (let ch : Nat := 63;
     let x : Nat := 7;
     let c : MCtx := ⟨[1 + 0x37 * 2 ^ 16, 2 + 0x10 * 2 ^ 16], none, 1, 0, 0, .hold, 0, 0, 0, false, none, none, none, 0, 0, 0, 0, 0, false,
       [], false, false⟩;
     let s : State := stOf
       ({ ((Dev.reset.setFld F.MSQ_PFSTAT_LATCH 1 Dev.reset.liveQ).setReg (mReg 63 .MSQ_LUNOP 31) (BitVec.ofNat 64 (2 ^ 63 + 0 * 2 ^ 62 + 1 * 2 ^ 59))) with mch := nset MChan.zero [] 63 { MChan.zero with ctxs := [(7, some ⟨[1 + 0x37 * 2 ^ 16, 2 + 0x10 * 2 ^ 16], none, 1, 0, 0, .hold, 0, 0, 0, false, none, none, none, 0, 0, 0, 0, 0, false, [], false, false⟩)] } });
     onBus s.d ch x 0x02 false c ∧
     let b := opByte c.op 2;
     let isP := s.d.isConfirm ch b false = true;
     let isE := s.d.isConfirm ch b true = true;
     let w := s.d.lunop ch c.u;
     let t := getBits w 60 59;
     let open' := w.getLsbD 63 = true ∧ w.getLsbD 62 = false ∧ c.conf = false ∧ ((isP ∧ t = 1) ∨ (isE ∧ t = 2));
     (isP ∨ isE) ∧ open' ∧ s.d.pfSet = true) ∧
    (let ch : Nat := 63;
     let x : Nat := 7;
     let c : MCtx := ⟨[1 + 0x37 * 2 ^ 16, 2 + 208 * 2 ^ 16], none, 1, 0, 0, .hold, 0, 0, 0, false, none, none, none, 0, 0, 0, 0, 0, false,
       [], false, false⟩;
     let s : State := stOf
       ({ (Dev.reset.setReg (mReg 63 .MSQ_LUNOP 31) (BitVec.ofNat 64 (2 ^ 63 + 0 * 2 ^ 62 + 2 * 2 ^ 59))) with mch := nset MChan.zero [] 63 { MChan.zero with ctxs := [(7, some ⟨[1 + 0x37 * 2 ^ 16, 2 + 208 * 2 ^ 16], none, 1, 0, 0, .hold, 0, 0, 0, false, none, none, none, 0, 0, 0, 0, 0, false, [], false, false⟩)] } });
     onBus s.d ch x 0x02 false c ∧
     let b := opByte c.op 2;
     let isP := s.d.isConfirm ch b false = true;
     let isE := s.d.isConfirm ch b true = true;
     let w := s.d.lunop ch c.u;
     let t := getBits w 60 59;
     let open' := w.getLsbD 63 = true ∧ w.getLsbD 62 = false ∧ c.conf = false ∧ ((isP ∧ t = 1) ∨ (isE ∧ t = 2));
     let wpn := s.d.flag F.MSQ_CHCTRL_WPN (mediaPlace ch).1 (mediaPlace ch).2 = true;
     (isP ∨ isE) ∧ open' ∧ s.d.pfSet = false ∧ ¬ wpn) ∧
    (let ch : Nat := 63;
     let x : Nat := 7;
     let c : MCtx := ⟨[1 + 0x37 * 2 ^ 16, 2 + 208 * 2 ^ 16], none, 1, 0, 0, .hold, 0, 0, 0, false, none, none, none, 0, 0, 0, 0, 0, false,
       [], false, false⟩;
     let s : State := stOf
       ({ ((Dev.reset.setFld F.MSQ_CHCTRL_WPN 1 (mediaPlace 63).1 (mediaPlace 63).2).setReg (mReg 63 .MSQ_LUNOP 31) (BitVec.ofNat 64 (2 ^ 63 + 0 * 2 ^ 62 + 2 * 2 ^ 59))) with mch := nset MChan.zero [] 63 { MChan.zero with ctxs := [(7, some ⟨[1 + 0x37 * 2 ^ 16, 2 + 208 * 2 ^ 16], none, 1, 0, 0, .hold, 0, 0, 0, false, none, none, none, 0, 0, 0, 0, 0, false, [], false, false⟩)] } });
     onBus s.d ch x 0x02 false c ∧
     let b := opByte c.op 2;
     let isP := s.d.isConfirm ch b false = true;
     let isE := s.d.isConfirm ch b true = true;
     let w := s.d.lunop ch c.u;
     let t := getBits w 60 59;
     let open' := w.getLsbD 63 = true ∧ w.getLsbD 62 = false ∧ c.conf = false ∧ ((isP ∧ t = 1) ∨ (isE ∧ t = 2));
     let wpn := s.d.flag F.MSQ_CHCTRL_WPN (mediaPlace ch).1 (mediaPlace ch).2 = true;
     (isP ∨ isE) ∧ open' ∧ s.d.pfSet = false ∧ wpn ∧ ch < 64) ∧
    (let ch : Nat := 575;
     let x : Nat := 7;
     let c : MCtx := ⟨[1 + 0x37 * 2 ^ 16, 2 + 0x10 * 2 ^ 16], none, 1, 0, 0, .hold, 0, 0, 0, false, none, none, none, 0, 0, 0, 0, 0, false,
       [], false, false⟩;
     let s : State := stOf
       ({ (((((Dev.reset.setRegN (R.TET_LSTAT.at 3 15) (4 * 2 ^ 28)).setFld F.TET_LSTAT_NCHAN 8 3 15).setFld F.TET_CHINFO_NCE 8 3 15 7).setFld F.MSQ_CHCTRL_WPN 1 (mediaPlace 575).1 (mediaPlace 575).2).setReg (mReg 575 .MSQ_LUNOP 31) (BitVec.ofNat 64 (2 ^ 63 + 0 * 2 ^ 62 + 1 * 2 ^ 59))) with mch := nset MChan.zero [] 575 { MChan.zero with ctxs := [(7, some ⟨[1 + 0x37 * 2 ^ 16, 2 + 0x10 * 2 ^ 16], none, 1, 0, 0, .hold, 0, 0, 0, false, none, none, none, 0, 0, 0, 0, 0, false, [], false, false⟩)] } });
     onBus s.d ch x 0x02 false c ∧
     let b := opByte c.op 2;
     let isP := s.d.isConfirm ch b false = true;
     let isE := s.d.isConfirm ch b true = true;
     let w := s.d.lunop ch c.u;
     let t := getBits w 60 59;
     let open' := w.getLsbD 63 = true ∧ w.getLsbD 62 = false ∧ c.conf = false ∧ ((isP ∧ t = 1) ∨ (isE ∧ t = 2));
     let wpn := s.d.flag F.MSQ_CHCTRL_WPN (mediaPlace ch).1 (mediaPlace ch).2 = true;
     (isP ∨ isE) ∧ open' ∧ s.d.pfSet = false ∧ wpn ∧ 64 ≤ ch) ∧
    (let ch : Nat := 63;
     let x : Nat := 7;
     let c : MCtx := ⟨[1 + 0x37 * 2 ^ 16, 3 + 5 * 2 ^ 16], none, 1, 0, 0, .hold, 0, 0, 0, false, none, none, none, 0, 0, 0, 0, 0, false, [],
       false, false⟩;
     let s : State := stOf
       ({ Dev.reset with mch := nset MChan.zero [] 63 { MChan.zero with ctxs := [(7, some ⟨[1 + 0x37 * 2 ^ 16, 3 + 5 * 2 ^ 16], none, 1, 0, 0, .hold, 0, 0, 0, false, none, none, none, 0, 0, 0, 0, 0, false, [], false, false⟩)] } });
     onBus s.d ch x 0x03 false c) ∧
    (let ch : Nat := 575;
     let x : Nat := 7;
     let c : MCtx := ⟨[1 + 0x37 * 2 ^ 16, 4 + 2 * 2 ^ 64], none, 1, 0, 0, .hold, 0, 0, 0, false, none, none, none, 0, 0, 0, 0, 0, false, [],
       false, false⟩;
     let s : State := stOf
       ({ (((Dev.reset.setRegN (R.TET_LSTAT.at 3 15) (4 * 2 ^ 28)).setFld F.TET_LSTAT_NCHAN 8 3 15).setFld F.TET_CHINFO_NCE 8 3 15 7) with mch := nset MChan.zero [] 575 { MChan.zero with ctxs := [(7, some ⟨[1 + 0x37 * 2 ^ 16, 4 + 2 * 2 ^ 64], none, 1, 0, 0, .hold, 0, 0, 0, false, none, none, none, 0, 0, 0, 0, 0, false, [], false, false⟩)] } });
     onBus s.d ch x 0x04 false c ∧ 64 ≤ ch) ∧
    (let ch : Nat := 63;
     let x : Nat := 7;
     let c : MCtx := ⟨[1 + 0x37 * 2 ^ 16, 4 + 2 * 2 ^ 64], none, 1, 0, 0, .hold, 0, 0, 0, false, none, none, none, 0, 0, 0, 0, 0, false, [],
       false, false⟩;
     let s : State := stOf
       ({ Dev.reset with mch := nset MChan.zero [] 63 { MChan.zero with ctxs := [(7, some ⟨[1 + 0x37 * 2 ^ 16, 4 + 2 * 2 ^ 64], none, 1, 0, 0, .hold, 0, 0, 0, false, none, none, none, 0, 0, 0, 0, 0, false, [], false, false⟩)] } });
     onBus s.d ch x 0x04 false c ∧ ch < 64) ∧
    (let ch : Nat := 63;
     let x : Nat := 7;
     let c : MCtx := ⟨[1 + 0x37 * 2 ^ 16, 4 + 2 * 2 ^ 64], none, 1, 0, 0, .hold, 0, 0, 0, false, none, none, none, 0, 0, 0, 0, 0, false, [],
       false, false⟩;
     let s : State := stOf
       ({ Dev.reset with mch := nset MChan.zero [] 63 { MChan.zero with ctxs := [(7, some ⟨[1 + 0x37 * 2 ^ 16, 4 + 2 * 2 ^ 64], none, 1, 0, 0, .hold, 0, 0, 0, false, none, none, none, 0, 0, 0, 0, 0, false, [], false, false⟩)] } });
     onBus s.d ch x 0x04 false c ∧ ch < 64) ∧
    (let ch : Nat := 575;
     let x : Nat := 7;
     let c : MCtx := ⟨[1 + 0x37 * 2 ^ 16, 5 + 2 * 2 ^ 64], none, 1, 0, 0, .hold, 0, 0, 0, false, none, none, none, 0, 0, 0, 0, 0, false, [],
       false, false⟩;
     let s : State := stOf
       ({ (((Dev.reset.setRegN (R.TET_LSTAT.at 3 15) (4 * 2 ^ 28)).setFld F.TET_LSTAT_NCHAN 8 3 15).setFld F.TET_CHINFO_NCE 8 3 15 7) with mch := nset MChan.zero [] 575 { MChan.zero with ctxs := [(7, some ⟨[1 + 0x37 * 2 ^ 16, 5 + 2 * 2 ^ 64], none, 1, 0, 0, .hold, 0, 0, 0, false, none, none, none, 0, 0, 0, 0, 0, false, [], false, false⟩)] } });
     onBus s.d ch x 0x05 false c ∧ 64 ≤ ch) ∧
    (let ch : Nat := 63;
     let x : Nat := 7;
     let c : MCtx := ⟨[1 + 0x37 * 2 ^ 16, 5 + 2 * 2 ^ 64], none, 1, 0, 0, .hold, 0, 0, 0, false, none, none, none, 0, 0, 0, 0, 0, false, [],
       false, false⟩;
     let data : List Byte := [1, 2];
     let s : State := stOf
       ({ Dev.reset with mch := nset MChan.zero [] 63 { MChan.zero with ctxs := [(7, some ⟨[1 + 0x37 * 2 ^ 16, 5 + 2 * 2 ^ 64], none, 1, 0, 0, .hold, 0, 0, 0, false, none, none, none, 0, 0, 0, 0, 0, false, [], false, false⟩)] } });
     onBus s.d ch x 0x05 false c ∧
     let len := bitsOf c.op 95 64;
     ch < 64 ∧ data.length = len) ∧
    (let ch : Nat := 63;
     let x : Nat := 7;
     let c : MCtx := ⟨[1 + 0x37 * 2 ^ 16, 5 + 2 * 2 ^ 64], none, 1, 0, 0, .hold, 0, 0, 0, false, none, none, none, 0, 0, 0, 0, 0, false, [],
       false, false⟩;
     let data : List Byte := [1];
     let s : State := stOf
       ({ Dev.reset with mch := nset MChan.zero [] 63 { MChan.zero with ctxs := [(7, some ⟨[1 + 0x37 * 2 ^ 16, 5 + 2 * 2 ^ 64], none, 1, 0, 0, .hold, 0, 0, 0, false, none, none, none, 0, 0, 0, 0, 0, false, [], false, false⟩)] } });
     onBus s.d ch x 0x05 false c ∧
     let len := bitsOf c.op 95 64;
     ch < 64 ∧ data.length ≠ len) ∧
    (let ch : Nat := 575;
     let x : Nat := 7;
     let c : MCtx := ⟨[1 + 0x37 * 2 ^ 16, 2 + 0x10 * 2 ^ 16], none, 1, 0, 0, .hold, 0, 0, 0, false, none, none, none, 0, 0, 0, 0, 0, false,
       [], false, false⟩;
     let s : State := stOf
       ({ Dev.reset with mch := nset MChan.zero [] 575 { MChan.zero with ctxs := [(7, some ⟨[1 + 0x37 * 2 ^ 16, 2 + 0x10 * 2 ^ 16], none, 1, 0, 0, .hold, 0, 0, 0, false, none, none, none, 0, 0, 0, 0, 0, false, [], false, false⟩)] } });
     onBus s.d ch x 0x02 true c) ∧
    (let ch : Nat := 575;
     let x : Nat := 7;
     let c : MCtx := ⟨[1 + 0x37 * 2 ^ 16, 3], none, 1, 0, 0, .hold, 0, 0, 0, false, none, none, none, 0, 0, 0, 0, 0, false, [], false,
       false⟩;
     let s : State := stOf
       ({ Dev.reset with mch := nset MChan.zero [] 575 { MChan.zero with ctxs := [(7, some ⟨[1 + 0x37 * 2 ^ 16, 3], none, 1, 0, 0, .hold, 0, 0, 0, false, none, none, none, 0, 0, 0, 0, 0, false, [], false, false⟩)] } });
     onBus s.d ch x 0x03 true c) ∧
    (let ch : Nat := 575;
     let x : Nat := 7;
     let c : MCtx := ⟨[1 + 0x37 * 2 ^ 16, 4 + 2 * 2 ^ 64], none, 1, 0, 0, .hold, 0, 0, 0, false, none, none, none, 0, 0, 0, 0, 0, false, [],
       false, false⟩;
     let s : State := stOf
       ({ Dev.reset with mch := nset MChan.zero [] 575 { MChan.zero with ctxs := [(7, some ⟨[1 + 0x37 * 2 ^ 16, 4 + 2 * 2 ^ 64], none, 1, 0, 0, .hold, 0, 0, 0, false, none, none, none, 0, 0, 0, 0, 0, false, [], false, false⟩)] } });
     onBus s.d ch x 0x04 true c) ∧
    (let ch : Nat := 575;
     let x : Nat := 7;
     let c : MCtx := ⟨[1 + 0x37 * 2 ^ 16, 5 + 2 * 2 ^ 64], none, 1, 0, 0, .hold, 0, 0, 0, false, none, none, none, 0, 0, 0, 0, 0, false, [],
       false, false⟩;
     let s : State := stOf
       ({ Dev.reset with mch := nset MChan.zero [] 575 { MChan.zero with ctxs := [(7, some ⟨[1 + 0x37 * 2 ^ 16, 5 + 2 * 2 ^ 64], none, 1, 0, 0, .hold, 0, 0, 0, false, none, none, none, 0, 0, 0, 0, 0, false, [], false, false⟩)] } });
     onBus s.d ch x 0x05 true c) ∧
    (let ch : Nat := 575;
     let x : Nat := 7;
     let s : State := State.reset;
     (∀ b c, ¬ onBus s.d ch x 0x02 b c)) ∧
    (let ch : Nat := 575;
     let x : Nat := 7;
     let s : State := State.reset;
     (∀ b c, ¬ onBus s.d ch x 0x03 b c)) ∧
    (let ch : Nat := 575;
     let x : Nat := 7;
     let s : State := State.reset;
     (∀ b c, ¬ onBus s.d ch x 0x04 b c)) ∧
    (let ch : Nat := 575;
     let x : Nat := 7;
     let s : State := State.reset;
     (∀ b c, ¬ onBus s.d ch x 0x05 b c)) := by
  refine ⟨?_, ?_, ?_, ?_, ?_, ?_, ?_, ?_, ?_, ?_, ?_, ?_, ?_, ?_, ?_, ?_, ?_, ?_, ?_, ?_, ?_, ?_, ?_, ?_, ?_, ?_, ?_, ?_, ?_, ?_⟩
  · try dsimp only
    exact ⟨by decide +kernel, by decide +kernel, by decide +kernel, by decide +kernel, by decide +kernel⟩
  · try dsimp only
    exact noOp (by decide +kernel) _
  · try dsimp only
    exact ⟨by decide +kernel, by decide +kernel, by decide +kernel, by decide +kernel, by decide +kernel⟩
  · try dsimp only
    exact noOp (by decide +kernel) _
  · try dsimp only
    refine ⟨?_, ?_, ?_⟩
    · decide +kernel
    · decide +kernel
    · decide +kernel
  · try dsimp only
    decide +kernel
  · try dsimp only
    refine ⟨?_, ?_⟩
    · exact ⟨by decide +kernel, by decide +kernel, by decide +kernel, by decide +kernel, by decide +kernel⟩
    · decide +kernel
  · try dsimp only
    refine ⟨?_, ?_⟩
    · exact ⟨by decide +kernel, by decide +kernel, by decide +kernel, by decide +kernel, by decide +kernel⟩
    · decide +kernel
  · try dsimp only
    exact noOp (by decide +kernel) _
  · try dsimp only
    refine ⟨?_, ?_, ?_⟩
    · exact ⟨by decide +kernel, by decide +kernel, by decide +kernel, by decide +kernel, by decide +kernel, by decide +kernel⟩
    · decide +kernel
    · decide +kernel
  · try dsimp only
    refine ⟨?_, ?_, ?_⟩
    · exact ⟨by decide +kernel, by decide +kernel, by decide +kernel, by decide +kernel, by decide +kernel, by decide +kernel⟩
    · decide +kernel
    · decide +kernel
  · try dsimp only
    refine ⟨?_, ?_, ?_, ?_⟩
    · exact ⟨by decide +kernel, by decide +kernel, by decide +kernel, by decide +kernel, by decide +kernel, by decide +kernel⟩
    · decide +kernel
    · decide +kernel
    · decide +kernel
  · try dsimp only
    refine ⟨?_, ?_, ?_, ?_, ?_⟩
    · exact ⟨by decide +kernel, by decide +kernel, by decide +kernel, by decide +kernel, by decide +kernel, by decide +kernel⟩
    · decide +kernel
    · decide +kernel
    · decide +kernel
    · decide +kernel
  · try dsimp only
    refine ⟨?_, ?_, ?_, ?_, ?_, ?_⟩
    · exact ⟨by decide +kernel, by decide +kernel, by decide +kernel, by decide +kernel, by decide +kernel, by decide +kernel⟩
    · decide +kernel
    · decide +kernel
    · decide +kernel
    · decide +kernel
    · decide +kernel
  · try dsimp only
    refine ⟨?_, ?_, ?_, ?_, ?_, ?_⟩
    · exact ⟨by decide +kernel, by decide +kernel, by decide +kernel, by decide +kernel, by decide +kernel, by decide +kernel⟩
    · decide +kernel
    · decide +kernel
    · decide +kernel
    · decide +kernel
    · decide +kernel
  · try dsimp only
    exact ⟨by decide +kernel, by decide +kernel, by decide +kernel, by decide +kernel, by decide +kernel, by decide +kernel⟩
  · try dsimp only
    refine ⟨?_, ?_⟩
    · exact ⟨by decide +kernel, by decide +kernel, by decide +kernel, by decide +kernel, by decide +kernel, by decide +kernel⟩
    · decide +kernel
  · try dsimp only
    refine ⟨?_, ?_⟩
    · exact ⟨by decide +kernel, by decide +kernel, by decide +kernel, by decide +kernel, by decide +kernel, by decide +kernel⟩
    · decide +kernel
  · try dsimp only
    refine ⟨?_, ?_⟩
    · exact ⟨by decide +kernel, by decide +kernel, by decide +kernel, by decide +kernel, by decide +kernel, by decide +kernel⟩
    · decide +kernel
  · try dsimp only
    refine ⟨?_, ?_⟩
    · exact ⟨by decide +kernel, by decide +kernel, by decide +kernel, by decide +kernel, by decide +kernel, by decide +kernel⟩
    · decide +kernel
  · try dsimp only
    refine ⟨?_, ?_, ?_⟩
    · exact ⟨by decide +kernel, by decide +kernel, by decide +kernel, by decide +kernel, by decide +kernel, by decide +kernel⟩
    · decide +kernel
    · decide +kernel
  · try dsimp only
    refine ⟨?_, ?_, ?_⟩
    · exact ⟨by decide +kernel, by decide +kernel, by decide +kernel, by decide +kernel, by decide +kernel, by decide +kernel⟩
    · decide +kernel
    · decide +kernel
  · try dsimp only
    exact ⟨by decide +kernel, by decide +kernel, by decide +kernel, by decide +kernel, by decide +kernel, by decide +kernel⟩
  · try dsimp only
    exact ⟨by decide +kernel, by decide +kernel, by decide +kernel, by decide +kernel, by decide +kernel, by decide +kernel⟩
  · try dsimp only
    exact ⟨by decide +kernel, by decide +kernel, by decide +kernel, by decide +kernel, by decide +kernel, by decide +kernel⟩
  · try dsimp only
    exact ⟨by decide +kernel, by decide +kernel, by decide +kernel, by decide +kernel, by decide +kernel, by decide +kernel⟩
  · try dsimp only
    exact noBus (by decide +kernel) _
  · try dsimp only
    exact noBus (by decide +kernel) _
  · try dsimp only
    exact noBus (by decide +kernel) _
  · try dsimp only
    exact noBus (by decide +kernel) _

/-- What MicroWaits asks of a state and of operands is met, case by case. -/
theorem witness_MicroWaits :
    (let ch : Nat := 63;
     let x : Nat := 7;
     let c : MCtx := ⟨[1 + 0x37 * 2 ^ 16, 6], none, 1, 0, 0, .hold, 0, 0, 0, false, none, none, none, 0, 0, 0, 0, 0, false, [], false,
       false⟩;
     let s : State := stOf
       ({ Dev.reset with mch := nset MChan.zero [] 63 { MChan.zero with ctxs := [(7, some ⟨[1 + 0x37 * 2 ^ 16, 6], none, 1, 0, 0, .hold, 0, 0, 0, false, none, none, none, 0, 0, 0, 0, 0, false, [], false, false⟩)] } });
     atOp s.d ch x 0x06 c) ∧
    (let ch : Nat := 63;
     let x : Nat := 7;
     let c : MCtx := ⟨[1 + 0x37 * 2 ^ 16, 6], none, 1, 0, 0, .waitrb, 0, 0, 0, false, none, none, none, 0, 0, 0, 0, 0, false, [], false,
       false⟩;
     let s : State := stOf
       ({ Dev.reset with mch := nset MChan.zero [] 63 { MChan.zero with ctxs := [(7, some ⟨[1 + 0x37 * 2 ^ 16, 6], none, 1, 0, 0, .waitrb, 0, 0, 0, false, none, none, none, 0, 0, 0, 0, 0, false, [], false, false⟩)] } });
     s.d.sysHalt = false ∧ s.d.mctx ch x = some c ∧ c.op % 256 = 0x06 ∧ c.st = .waitrb ∧
     let mode := opByte c.op 2;
     let due := ¬ (mode = 0 ∧ c.polled = true);
     due ∧ ch < 64) ∧
    (let ch : Nat := 575;
     let x : Nat := 7;
     let c : MCtx := ⟨[1 + 0x37 * 2 ^ 16, 6 + 2 ^ 16], none, 1, 0, 0, .waitrb, 0, 0, 0, false, none, none, none, 0, 0, 0, 0, 0, false, [],
       false, false⟩;
     let s : State := stOf
       ({ Dev.reset with mch := nset MChan.zero [] 575 { MChan.zero with ctxs := [(7, some ⟨[1 + 0x37 * 2 ^ 16, 6 + 2 ^ 16], none, 1, 0, 0, .waitrb, 0, 0, 0, false, none, none, none, 0, 0, 0, 0, 0, false, [], false, false⟩)] } });
     s.d.sysHalt = false ∧ s.d.mctx ch x = some c ∧ c.op % 256 = 0x06 ∧ c.st = .waitrb ∧
     let mode := opByte c.op 2;
     let due := ¬ (mode = 0 ∧ c.polled = true);
     due ∧ 64 ≤ ch ∧ s.d.linkBad ch c = true) ∧
    (let ch : Nat := 575;
     let x : Nat := 7;
     let c : MCtx := ⟨[1 + 0x37 * 2 ^ 16, 6 + 2 ^ 16], none, 1, 0, 0, .waitrb, 0, 0, 0, false, none, none, none, 0, 0, 0, 0, 0, false, [],
       false, false⟩;
     let s : State := stOf
       ({ (((Dev.reset.setRegN (R.TET_LSTAT.at 3 15) (4 * 2 ^ 28)).setFld F.TET_LSTAT_NCHAN 8 3 15).setFld F.TET_CHINFO_NCE 8 3 15 7) with mch := nset MChan.zero [] 575 { MChan.zero with ctxs := [(7, some ⟨[1 + 0x37 * 2 ^ 16, 6 + 2 ^ 16], none, 1, 0, 0, .waitrb, 0, 0, 0, false, none, none, none, 0, 0, 0, 0, 0, false, [], false, false⟩)] } });
     s.d.sysHalt = false ∧ s.d.mctx ch x = some c ∧ c.op % 256 = 0x06 ∧ c.st = .waitrb ∧
     let mode := opByte c.op 2;
     let due := ¬ (mode = 0 ∧ c.polled = true);
     let held := s.d.tetBusy ch x = true ∨ (mode = 0 ∧ s.d.rbHigh ch c = false);
     due ∧ 64 ≤ ch ∧ s.d.linkBad ch c = false ∧ ¬ held) ∧
    (let ch : Nat := 575;
     let x : Nat := 7;
     let c : MCtx := ⟨[1 + 0x37 * 2 ^ 16, 6], none, 1, 0, 0, .waitrb, 0, 0, 0, false, none, none, none, 0, 0, 0, 0, 0, false, [], false,
       false⟩;
     let s : State := stOf
       ({ (((Dev.reset.setRegN (R.TET_LSTAT.at 3 15) (4 * 2 ^ 28)).setFld F.TET_LSTAT_NCHAN 8 3 15).setFld F.TET_CHINFO_NCE 8 3 15 7) with mch := nset MChan.zero [] 575 { MChan.zero with ctxs := [(7, some ⟨[1 + 0x37 * 2 ^ 16, 6], none, 1, 0, 0, .waitrb, 0, 0, 0, false, none, none, none, 0, 0, 0, 0, 0, false, [], false, false⟩)] } });
     s.d.sysHalt = false ∧ s.d.mctx ch x = some c ∧ c.op % 256 = 0x06 ∧ c.st = .waitrb ∧
     let mode := opByte c.op 2;
     let due := ¬ (mode = 0 ∧ c.polled = true);
     let held := s.d.tetBusy ch x = true ∨ (mode = 0 ∧ s.d.rbHigh ch c = false);
     due ∧ 64 ≤ ch ∧ s.d.linkBad ch c = false ∧ held) ∧
    (let ch : Nat := 575;
     let x : Nat := 7;
     let c : MCtx := ⟨[1 + 0x37 * 2 ^ 16, 6], none, 1, 0, 0, .waitrb, 0, 0, 0, false, none, none, none, 0, 0, 0, 0, 0, true, [], false,
       false⟩;
     let s : State := stOf
       ({ Dev.reset with mch := nset MChan.zero [] 575 { MChan.zero with ctxs := [(7, some ⟨[1 + 0x37 * 2 ^ 16, 6], none, 1, 0, 0, .waitrb, 0, 0, 0, false, none, none, none, 0, 0, 0, 0, 0, true, [], false, false⟩)] } });
     s.d.sysHalt = false ∧ s.d.mctx ch x = some c ∧ c.op % 256 = 0x06 ∧ c.st = .waitrb ∧
     let mode := opByte c.op 2;
     let due := ¬ (mode = 0 ∧ c.polled = true);
     ¬ due) ∧
    (let ch : Nat := 63;
     let x : Nat := 7;
     let c : MCtx := ⟨[1 + 0x37 * 2 ^ 16, 7], none, 1, 0, 0, .hold, 0, 0, 0, false, none, none, none, 0, 0, 0, 0, 0, false, [], false,
       false⟩;
     let s : State := stOf
       ({ Dev.reset with mch := nset MChan.zero [] 63 { MChan.zero with ctxs := [(7, some ⟨[1 + 0x37 * 2 ^ 16, 7], none, 1, 0, 0, .hold, 0, 0, 0, false, none, none, none, 0, 0, 0, 0, 0, false, [], false, false⟩)] } });
     s.d.mctx ch x = some c ∧ c.op % 256 ≠ 0x06) ∧
    (let ch : Nat := 63;
     let x : Nat := 7;
     let c : MCtx := ⟨[1 + 0x37 * 2 ^ 16, 6], none, 1, 0, 0, .waitrb, 0, 0, 0, false, none, none, none, 0, 0, 0, 0, 0, false, [], false,
       false⟩;
     let s : State := stOf
       ({ Dev.reset with mch := nset MChan.zero [] 63 { MChan.zero with ctxs := [(7, some ⟨[1 + 0x37 * 2 ^ 16, 6], none, 1, 0, 0, .waitrb, 0, 0, 0, false, none, none, none, 0, 0, 0, 0, 0, false, [], false, false⟩)] } });
     s.d.sysHalt = false ∧ s.d.mctx ch x = some c ∧ c.st = .waitrb) ∧
    (let ch : Nat := 63;
     let x : Nat := 7;
     let c : MCtx := ⟨[1 + 0x37 * 2 ^ 16, 6], none, 1, 0, 0, .hold, 0, 0, 0, false, none, none, none, 0, 0, 0, 0, 0, false, [], false,
       false⟩;
     let s : State := stOf
       ({ Dev.reset with mch := nset MChan.zero [] 63 { MChan.zero with ctxs := [(7, some ⟨[1 + 0x37 * 2 ^ 16, 6], none, 1, 0, 0, .hold, 0, 0, 0, false, none, none, none, 0, 0, 0, 0, 0, false, [], false, false⟩)] } });
     s.d.mctx ch x = some c ∧ c.st ≠ .waitrb) ∧
    (let ch : Nat := 575;
     let x : Nat := 7;
     let s : State := State.reset;
     s.d.mctx ch x = none) ∧
    (let ch : Nat := 575;
     let x : Nat := 7;
     let sr : Nat := 0;
     let c : MCtx := ⟨[1 + 0x37 * 2 ^ 16, 6], none, 1, 0, 0x40, .waitrb, 0, 0, 0, false, none, none, none, 0, 0, 0, 0, 0, true, [], false,
       false⟩;
     let s : State := stOf
       ({ Dev.reset with mch := nset MChan.zero [] 575 { MChan.zero with ctxs := [(7, some ⟨[1 + 0x37 * 2 ^ 16, 6], none, 1, 0, 0x40, .waitrb, 0, 0, 0, false, none, none, none, 0, 0, 0, 0, 0, true, [], false, false⟩)] } });
     s.d.sysHalt = false ∧ s.d.mctx ch x = some c ∧
     let mode := opByte c.op 2;
     let old := 64 ≤ ch ∨ (mode = 0 ∧ c.polled = true);
     let st := if old then c.sr else sr % 256;
     let ends := c.st = .waitrb ∧ (old → c.polled = true) ∧ s.d.tetBusy ch x = false ∧ waitReady c.op st = true;
     let closes := c.op.testBit 8 = true ∧ (s.d.lunop ch c.u).getLsbD 62 = true;
     ends ∧ ¬ closes) ∧
    (let ch : Nat := 63;
     let x : Nat := 7;
     let sr : Nat := 0x40;
     let c : MCtx := ⟨[1 + 0x37 * 2 ^ 16, 6 + 2 ^ 8 + 2 ^ 16], none, 1, 0, 0, .waitrb, 0, 0, 0, false, none, none, none, 0, 0, 0, 0, 0,
       false, [], false, false⟩;
     let s : State := stOf
       ({ (Dev.reset.setReg (mReg 63 .MSQ_LUNOP 31) (BitVec.ofNat 64 (2 ^ 63 + 1 * 2 ^ 62 + 1 * 2 ^ 59))) with mch := nset MChan.zero [] 63 { MChan.zero with ctxs := [(7, some ⟨[1 + 0x37 * 2 ^ 16, 6 + 2 ^ 8 + 2 ^ 16], none, 1, 0, 0, .waitrb, 0, 0, 0, false, none, none, none, 0, 0, 0, 0, 0, false, [], false, false⟩)] } });
     s.d.sysHalt = false ∧ s.d.mctx ch x = some c ∧
     let mode := opByte c.op 2;
     let old := 64 ≤ ch ∨ (mode = 0 ∧ c.polled = true);
     let st := if old then c.sr else sr % 256;
     let ends := c.st = .waitrb ∧ (old → c.polled = true) ∧ s.d.tetBusy ch x = false ∧ waitReady c.op st = true;
     let closes := c.op.testBit 8 = true ∧ (s.d.lunop ch c.u).getLsbD 62 = true;
     ends ∧ closes) ∧
    (let ch : Nat := 63;
     let x : Nat := 7;
     let sr : Nat := 0x20;
     let c : MCtx := ⟨[1 + 0x37 * 2 ^ 16, 6 + 2 ^ 16], none, 1, 0, 0, .waitrb, 0, 0, 0, false, none, none, none, 0, 0, 0, 0, 0, false, [],
       false, false⟩;
     let s : State := stOf
       ({ Dev.reset with mch := nset MChan.zero [] 63 { MChan.zero with ctxs := [(7, some ⟨[1 + 0x37 * 2 ^ 16, 6 + 2 ^ 16], none, 1, 0, 0, .waitrb, 0, 0, 0, false, none, none, none, 0, 0, 0, 0, 0, false, [], false, false⟩)] } });
     s.d.sysHalt = false ∧ s.d.mctx ch x = some c ∧
     let mode := opByte c.op 2;
     let old := 64 ≤ ch ∨ (mode = 0 ∧ c.polled = true);
     let st := if old then c.sr else sr % 256;
     let ends := c.st = .waitrb ∧ (old → c.polled = true) ∧ s.d.tetBusy ch x = false ∧ waitReady c.op st = true;
     ¬ ends) ∧
    (let ch : Nat := 575;
     let x : Nat := 7;
     let c : MCtx := ⟨[1 + 0x37 * 2 ^ 16, 0x0A], none, 1, 0, 0, .need, 0, 0, 0, false, none, none, none, 0, 0, 0, 0, 0, false, [], false,
       false⟩;
     let s : State := stOf
       ({ Dev.reset with mch := nset MChan.zero [] 575 { MChan.zero with ctxs := [(7, some ⟨[1 + 0x37 * 2 ^ 16, 0x0A], none, 1, 0, 0, .need, 0, 0, 0, false, none, none, none, 0, 0, 0, 0, 0, false, [], false, false⟩)] } });
     s.d.sysHalt = false ∧ s.d.mctx ch x = some c ∧
     let asks := c.op % 256 = 0x0A ∧ c.look = none ∧ (c.st = .need ∨ c.st = .hold);
     asks) ∧
    (let ch : Nat := 575;
     let x : Nat := 7;
     let c : MCtx := ⟨[1 + 0x37 * 2 ^ 16, 0x0A], none, 1, 0, 0, .need, 0, 0, 0, false, none, none, (some 0), 0, 0, 0, 0, 0, false, [], false,
       false⟩;
     let s : State := stOf
       ({ Dev.reset with mch := nset MChan.zero [] 575 { MChan.zero with ctxs := [(7, some ⟨[1 + 0x37 * 2 ^ 16, 0x0A], none, 1, 0, 0, .need, 0, 0, 0, false, none, none, (some 0), 0, 0, 0, 0, 0, false, [], false, false⟩)] } });
     s.d.sysHalt = false ∧ s.d.mctx ch x = some c ∧
     let asks := c.op % 256 = 0x0A ∧ c.look = none ∧ (c.st = .need ∨ c.st = .hold);
     ¬ asks) ∧
    (let ch : Nat := 575;
     let x : Nat := 7;
     let s : State := State.reset;
     s.d.sysHalt = false ∧ s.d.mctx ch x = none) ∧
    (let ch : Nat := 63;
     let x : Nat := 7;
     let ok : Bool := true;
     let c : MCtx := ⟨[1 + 0x37 * 2 ^ 16, 8 + 3 * 2 ^ 16], none, 1, 0, 0, .hold, 0, 0, 0, false, none, none, none, 0, 0, 0, 0, 0, false, [],
       false, false⟩;
     let s : State := stOf
       ({ Dev.reset with mch := nset MChan.zero [] 63 { MChan.zero with ctxs := [(7, some ⟨[1 + 0x37 * 2 ^ 16, 8 + 3 * 2 ^ 16], none, 1, 0, 0, .hold, 0, 0, 0, false, none, none, none, 0, 0, 0, 0, 0, false, [], false, false⟩)] } });
     onBus s.d ch x (c.op % 256) false c ∧ (c.stage = 0 ∨ 64 ≤ ch) ∧ c.op % 256 = 0x08 ∧ ch < 64 ∧ ok = true) ∧
    (let ch : Nat := 63;
     let x : Nat := 7;
     let ok : Bool := false;
     let c : MCtx := ⟨[1 + 0x37 * 2 ^ 16, 8 + 3 * 2 ^ 16], none, 1, 0, 0, .hold, 0, 0, 0, false, none, none, none, 0, 0, 0, 0, 0, false, [],
       false, false⟩;
     let s : State := stOf
       ({ Dev.reset with mch := nset MChan.zero [] 63 { MChan.zero with ctxs := [(7, some ⟨[1 + 0x37 * 2 ^ 16, 8 + 3 * 2 ^ 16], none, 1, 0, 0, .hold, 0, 0, 0, false, none, none, none, 0, 0, 0, 0, 0, false, [], false, false⟩)] } });
     onBus s.d ch x (c.op % 256) false c ∧ (c.stage = 0 ∨ 64 ≤ ch) ∧ c.op % 256 = 0x08 ∧ ch < 64 ∧ ok = false) ∧
    (let ch : Nat := 575;
     let x : Nat := 7;
     let c : MCtx := ⟨[1 + 0x37 * 2 ^ 16, 8 + 3 * 2 ^ 16], none, 1, 0, 0, .hold, 0, 0, 0, false, none, none, none, 0, 0, 0, 0, 0, false, [],
       false, false⟩;
     let s : State := stOf
       ({ (((Dev.reset.setRegN (R.TET_LSTAT.at 3 15) (4 * 2 ^ 28)).setFld F.TET_LSTAT_NCHAN 8 3 15).setFld F.TET_CHINFO_NCE 8 3 15 7) with mch := nset MChan.zero [] 575 { MChan.zero with ctxs := [(7, some ⟨[1 + 0x37 * 2 ^ 16, 8 + 3 * 2 ^ 16], none, 1, 0, 0, .hold, 0, 0, 0, false, none, none, none, 0, 0, 0, 0, 0, false, [], false, false⟩)] } });
     onBus s.d ch x (c.op % 256) false c ∧ (c.stage = 0 ∨ 64 ≤ ch) ∧ c.op % 256 = 0x08 ∧ 64 ≤ ch) ∧
    (let ch : Nat := 63;
     let x : Nat := 7;
     let ok : Bool := true;
     let c : MCtx := ⟨[1 + 0x37 * 2 ^ 16, 0x0A], none, 1, 0, 0, .hold, 0, 0, 0, false, none, none, (some 0), 0, 0, 0, 0, 0, false, [], false,
       false⟩;
     let s : State := stOf
       ({ Dev.reset with mch := nset MChan.zero [] 63 { MChan.zero with ctxs := [(7, some ⟨[1 + 0x37 * 2 ^ 16, 0x0A], none, 1, 0, 0, .hold, 0, 0, 0, false, none, none, (some 0), 0, 0, 0, 0, 0, false, [], false, false⟩)] } });
     onBus s.d ch x (c.op % 256) false c ∧ (c.stage = 0 ∨ 64 ≤ ch) ∧ c.op % 256 = 0x0A ∧ c.look ≠ none ∧ ch < 64 ∧ ok = true) ∧
    (let ch : Nat := 63;
     let x : Nat := 7;
     let ok : Bool := false;
     let c : MCtx := ⟨[1 + 0x37 * 2 ^ 16, 0x0A], none, 1, 0, 0, .hold, 0, 0, 0, false, none, none, (some 0), 0, 0, 0, 0, 0, false, [], false,
       false⟩;
     let s : State := stOf
       ({ Dev.reset with mch := nset MChan.zero [] 63 { MChan.zero with ctxs := [(7, some ⟨[1 + 0x37 * 2 ^ 16, 0x0A], none, 1, 0, 0, .hold, 0, 0, 0, false, none, none, (some 0), 0, 0, 0, 0, 0, false, [], false, false⟩)] } });
     onBus s.d ch x (c.op % 256) false c ∧ (c.stage = 0 ∨ 64 ≤ ch) ∧ c.op % 256 = 0x0A ∧ c.look ≠ none ∧ ch < 64 ∧ ok = false) ∧
    (let ch : Nat := 575;
     let x : Nat := 7;
     let c : MCtx := ⟨[1 + 0x37 * 2 ^ 16, 0x0A], none, 1, 0, 0, .hold, 0, 0, 0, false, none, none, (some 0), 0, 0, 0, 0, 0, false, [], false,
       false⟩;
     let s : State := stOf
       ({ (((Dev.reset.setRegN (R.TET_LSTAT.at 3 15) (4 * 2 ^ 28)).setFld F.TET_LSTAT_NCHAN 8 3 15).setFld F.TET_CHINFO_NCE 8 3 15 7) with mch := nset MChan.zero [] 575 { MChan.zero with ctxs := [(7, some ⟨[1 + 0x37 * 2 ^ 16, 0x0A], none, 1, 0, 0, .hold, 0, 0, 0, false, none, none, (some 0), 0, 0, 0, 0, 0, false, [], false, false⟩)] } });
     onBus s.d ch x (c.op % 256) false c ∧ (c.stage = 0 ∨ 64 ≤ ch) ∧ c.op % 256 = 0x0A ∧ c.look ≠ none ∧ 64 ≤ ch) ∧
    (let ch : Nat := 63;
     let x : Nat := 7;
     let c : MCtx := ⟨[1 + 0x37 * 2 ^ 16, 0x0B], none, 1, 0, 0, .hold, 0, 0, 0, false, none, none, none, 0, 0, 0, 0, 0, false, [], false,
       false⟩;
     let s : State := stOf
       ({ (Dev.reset.setReg (mReg 63 .MSQ_LUNOP 31) (BitVec.ofNat 64 (2 ^ 63 + 0 * 2 ^ 62 + 1 * 2 ^ 59))) with mch := nset MChan.zero [] 63 { MChan.zero with ctxs := [(7, some ⟨[1 + 0x37 * 2 ^ 16, 0x0B], none, 1, 0, 0, .hold, 0, 0, 0, false, none, none, none, 0, 0, 0, 0, 0, false, [], false, false⟩)] } });
     onBus s.d ch x (c.op % 256) false c ∧ (c.stage = 0 ∨ 64 ≤ ch) ∧
     let isOpen := (s.d.lunop ch c.u).getLsbD 63 = true;
     c.op % 256 = 0x0B ∧ isOpen ∧ c.stage = 0) ∧
    (let ch : Nat := 63;
     let x : Nat := 7;
     let waits : Nat := 4;
     let c : MCtx := ⟨[1 + 0x37 * 2 ^ 16, 0x0B], none, 1, 0, 0, .hold, 0, 0, 0, false, none, none, none, 0, 0, 0, 0, 0, false, [], false,
       false⟩;
     let s : State := stOf
       ({ Dev.reset with mch := nset MChan.zero [] 63 { MChan.zero with ctxs := [(7, some ⟨[1 + 0x37 * 2 ^ 16, 0x0B], none, 1, 0, 0, .hold, 0, 0, 0, false, none, none, none, 0, 0, 0, 0, 0, false, [], false, false⟩)] } });
     onBus s.d ch x (c.op % 256) false c ∧ (c.stage = 0 ∨ 64 ≤ ch) ∧
     let isOpen := (s.d.lunop ch c.u).getLsbD 63 = true;
     c.op % 256 = 0x0B ∧ ¬ isOpen ∧ ch < 64 ∧ 4 ≤ waits) ∧
    (let ch : Nat := 63;
     let x : Nat := 7;
     let waits : Nat := 3;
     let c : MCtx := ⟨[1 + 0x37 * 2 ^ 16, 0x0B], none, 1, 0, 0, .hold, 0, 0, 0, false, none, none, none, 0, 0, 0, 0, 0, false, [], false,
       false⟩;
     let s : State := stOf
       ({ Dev.reset with mch := nset MChan.zero [] 63 { MChan.zero with ctxs := [(7, some ⟨[1 + 0x37 * 2 ^ 16, 0x0B], none, 1, 0, 0, .hold, 0, 0, 0, false, none, none, none, 0, 0, 0, 0, 0, false, [], false, false⟩)] } });
     onBus s.d ch x (c.op % 256) false c ∧ (c.stage = 0 ∨ 64 ≤ ch) ∧
     let isOpen := (s.d.lunop ch c.u).getLsbD 63 = true;
     c.op % 256 = 0x0B ∧ ¬ isOpen ∧ ch < 64 ∧ waits < 4) ∧
    (let ch : Nat := 575;
     let x : Nat := 7;
     let c : MCtx := ⟨[1 + 0x37 * 2 ^ 16, 0x0B], none, 1, 0, 0, .hold, 0, 0, 0, false, none, none, none, 0, 0, 0, 0, 0, false, [], false,
       false⟩;
     let s : State := stOf
       ({ (((Dev.reset.setRegN (R.TET_LSTAT.at 3 15) (4 * 2 ^ 28)).setFld F.TET_LSTAT_NCHAN 8 3 15).setFld F.TET_CHINFO_NCE 8 3 15 7) with mch := nset MChan.zero [] 575 { MChan.zero with ctxs := [(7, some ⟨[1 + 0x37 * 2 ^ 16, 0x0B], none, 1, 0, 0, .hold, 0, 0, 0, false, none, none, none, 0, 0, 0, 0, 0, false, [], false, false⟩)] } });
     onBus s.d ch x (c.op % 256) false c ∧ (c.stage = 0 ∨ 64 ≤ ch) ∧
     let isOpen := (s.d.lunop ch c.u).getLsbD 63 = true;
     c.op % 256 = 0x0B ∧ ¬ isOpen ∧ 64 ≤ ch) ∧
    (let ch : Nat := 575;
     let x : Nat := 7;
     let c : MCtx := ⟨[1 + 0x37 * 2 ^ 16, 8 + 3 * 2 ^ 16], none, 1, 0, 0, .ready, 0, 0, 0, false, none, none, none, 0, 0, 0, 0, 0, false, [],
       false, false⟩;
     let s : State := stOf
       ({ Dev.reset with mch := nset MChan.zero [] 575 { MChan.zero with ctxs := [(7, some ⟨[1 + 0x37 * 2 ^ 16, 8 + 3 * 2 ^ 16], none, 1, 0, 0, .ready, 0, 0, 0, false, none, none, none, 0, 0, 0, 0, 0, false, [], false, false⟩)] } });
     s.d.sysHalt = false ∧ s.d.mctx ch x = some c ∧ 64 ≤ ch ∧ c.st = .ready ∧ (c.stop = false ∨ c.stage ≠ 0) ∧ c.op % 256 = 0x08) ∧
    (let ch : Nat := 575;
     let x : Nat := 7;
     let c : MCtx := ⟨[1 + 0x37 * 2 ^ 16, 0x0A], none, 1, 0, 0, .ready, 0, 0, 0, false, none, none, (some 0), 0, 0, 0, 0, 0, false, [],
       false, false⟩;
     let s : State := stOf
       ({ Dev.reset with mch := nset MChan.zero [] 575 { MChan.zero with ctxs := [(7, some ⟨[1 + 0x37 * 2 ^ 16, 0x0A], none, 1, 0, 0, .ready, 0, 0, 0, false, none, none, (some 0), 0, 0, 0, 0, 0, false, [], false, false⟩)] } });
     s.d.sysHalt = false ∧ s.d.mctx ch x = some c ∧ 64 ≤ ch ∧ c.st = .ready ∧ (c.stop = false ∨ c.stage ≠ 0) ∧ c.op % 256 = 0x0A ∧ c.look ≠
     none) ∧
    (let ch : Nat := 575;
     let x : Nat := 7;
     let c : MCtx := ⟨[1 + 0x37 * 2 ^ 16, 0x0B], none, 1, 0, 0, .ready, 0, 0, 0, false, none, none, none, 0, 0, 0, 0, 0, false, [], false,
       false⟩;
     let s : State := stOf
       ({ Dev.reset with mch := nset MChan.zero [] 575 { MChan.zero with ctxs := [(7, some ⟨[1 + 0x37 * 2 ^ 16, 0x0B], none, 1, 0, 0, .ready, 0, 0, 0, false, none, none, none, 0, 0, 0, 0, 0, false, [], false, false⟩)] } });
     s.d.sysHalt = false ∧ s.d.mctx ch x = some c ∧ 64 ≤ ch ∧ c.st = .ready ∧ (c.stop = false ∨ c.stage ≠ 0) ∧ c.op % 256 = 0x0B) ∧
    (let ch : Nat := 575;
     let x : Nat := 7;
     let c : MCtx := ⟨[1 + 0x37 * 2 ^ 16, 8 + 3 * 2 ^ 16], none, 1, 0, 0, .hold, 0, 0, 0, false, none, none, none, 0, 0, 0, 0, 0, false, [],
       false, false⟩;
     let s : State := stOf
       ({ Dev.reset with mch := nset MChan.zero [] 575 { MChan.zero with ctxs := [(7, some ⟨[1 + 0x37 * 2 ^ 16, 8 + 3 * 2 ^ 16], none, 1, 0, 0, .hold, 0, 0, 0, false, none, none, none, 0, 0, 0, 0, 0, false, [], false, false⟩)] } });
     onBus s.d ch x 0x08 true c) ∧
    (let ch : Nat := 575;
     let x : Nat := 7;
     let c : MCtx := ⟨[1 + 0x37 * 2 ^ 16, 0x0A], none, 1, 0, 0, .hold, 0, 0, 0, false, none, none, (some 0), 0, 0, 0, 0, 0, false, [], false,
       false⟩;
     let s : State := stOf
       ({ Dev.reset with mch := nset MChan.zero [] 575 { MChan.zero with ctxs := [(7, some ⟨[1 + 0x37 * 2 ^ 16, 0x0A], none, 1, 0, 0, .hold, 0, 0, 0, false, none, none, (some 0), 0, 0, 0, 0, 0, false, [], false, false⟩)] } });
     onBus s.d ch x 0x0A true c ∧ c.look ≠ none) ∧
    (let ch : Nat := 575;
     let x : Nat := 7;
     let c : MCtx := ⟨[1 + 0x37 * 2 ^ 16, 0x0B], none, 1, 0, 0, .hold, 0, 0, 0, false, none, none, none, 0, 0, 0, 0, 0, false, [], false,
       false⟩;
     let s : State := stOf
       ({ Dev.reset with mch := nset MChan.zero [] 575 { MChan.zero with ctxs := [(7, some ⟨[1 + 0x37 * 2 ^ 16, 0x0B], none, 1, 0, 0, .hold, 0, 0, 0, false, none, none, none, 0, 0, 0, 0, 0, false, [], false, false⟩)] } });
     onBus s.d ch x 0x0B true c ∧ (s.d.lunop ch c.u).getLsbD 63 = false) ∧
    (let ch : Nat := 575;
     let x : Nat := 7;
     let s : State := State.reset;
     (∀ c, s.d.mctx ch x = some c → c.op % 256 ≠ 0x08)) ∧
    (let ch : Nat := 575;
     let x : Nat := 7;
     let s : State := State.reset;
     (∀ c, s.d.mctx ch x = some c → c.op % 256 ≠ 0x0A)) ∧
    (let ch : Nat := 575;
     let x : Nat := 7;
     let s : State := State.reset;
     (∀ c, s.d.mctx ch x = some c → c.op % 256 ≠ 0x0B)) := by
  refine ⟨?_, ?_, ?_, ?_, ?_, ?_, ?_, ?_, ?_, ?_, ?_, ?_, ?_, ?_, ?_, ?_, ?_, ?_, ?_, ?_, ?_, ?_, ?_, ?_, ?_, ?_, ?_, ?_, ?_, ?_, ?_,
    ?_, ?_, ?_, ?_⟩
  · try dsimp only
    exact ⟨by decide +kernel, by decide +kernel, by decide +kernel, by decide +kernel, by decide +kernel⟩
  · try dsimp only
    refine ⟨?_, ?_, ?_, ?_, ?_, ?_⟩
    · decide +kernel
    · decide +kernel
    · decide +kernel
    · decide +kernel
    · decide +kernel
    · decide +kernel
  · try dsimp only
    refine ⟨?_, ?_, ?_, ?_, ?_, ?_, ?_⟩
    · decide +kernel
    · decide +kernel
    · decide +kernel
    · decide +kernel
    · decide +kernel
    · decide +kernel
    · decide +kernel
  · try dsimp only
    refine ⟨?_, ?_, ?_, ?_, ?_, ?_, ?_, ?_⟩
    · decide +kernel
    · decide +kernel
    · decide +kernel
    · decide +kernel
    · decide +kernel
    · decide +kernel
    · decide +kernel
    · decide +kernel
  · try dsimp only
    refine ⟨?_, ?_, ?_, ?_, ?_, ?_, ?_, ?_⟩
    · decide +kernel
    · decide +kernel
    · decide +kernel
    · decide +kernel
    · decide +kernel
    · decide +kernel
    · decide +kernel
    · decide +kernel
  · try dsimp only
    refine ⟨?_, ?_, ?_, ?_, ?_⟩
    · decide +kernel
    · decide +kernel
    · decide +kernel
    · decide +kernel
    · decide +kernel
  · try dsimp only
    refine ⟨?_, ?_⟩
    · decide +kernel
    · decide +kernel
  · try dsimp only
    refine ⟨?_, ?_, ?_⟩
    · decide +kernel
    · decide +kernel
    · decide +kernel
  · try dsimp only
    refine ⟨?_, ?_⟩
    · decide +kernel
    · decide +kernel
  · try dsimp only
    decide +kernel
  · try dsimp only
    refine ⟨?_, ?_, ?_, ?_⟩
    · decide +kernel
    · decide +kernel
    · decide +kernel
    · decide +kernel
  · try dsimp only
    refine ⟨?_, ?_, ?_, ?_⟩
    · decide +kernel
    · decide +kernel
    · decide +kernel
    · decide +kernel
  · try dsimp only
    refine ⟨?_, ?_, ?_⟩
    · decide +kernel
    · decide +kernel
    · decide +kernel
  · try dsimp only
    refine ⟨?_, ?_, ?_⟩
    · decide +kernel
    · decide +kernel
    · decide +kernel
  · try dsimp only
    refine ⟨?_, ?_, ?_⟩
    · decide +kernel
    · decide +kernel
    · decide +kernel
  · try dsimp only
    refine ⟨?_, ?_⟩
    · decide +kernel
    · decide +kernel
  · try dsimp only
    refine ⟨?_, ?_, ?_, ?_, ?_⟩
    · exact ⟨by decide +kernel, by decide +kernel, by decide +kernel, by decide +kernel, by decide +kernel, by decide +kernel⟩
    · decide +kernel
    · decide +kernel
    · decide +kernel
    · decide +kernel
  · try dsimp only
    refine ⟨?_, ?_, ?_, ?_, ?_⟩
    · exact ⟨by decide +kernel, by decide +kernel, by decide +kernel, by decide +kernel, by decide +kernel, by decide +kernel⟩
    · decide +kernel
    · decide +kernel
    · decide +kernel
    · decide +kernel
  · try dsimp only
    refine ⟨?_, ?_, ?_, ?_⟩
    · exact ⟨by decide +kernel, by decide +kernel, by decide +kernel, by decide +kernel, by decide +kernel, by decide +kernel⟩
    · decide +kernel
    · decide +kernel
    · decide +kernel
  · try dsimp only
    refine ⟨?_, ?_, ?_, ?_, ?_, ?_⟩
    · exact ⟨by decide +kernel, by decide +kernel, by decide +kernel, by decide +kernel, by decide +kernel, by decide +kernel⟩
    · decide +kernel
    · decide +kernel
    · decide +kernel
    · decide +kernel
    · decide +kernel
  · try dsimp only
    refine ⟨?_, ?_, ?_, ?_, ?_, ?_⟩
    · exact ⟨by decide +kernel, by decide +kernel, by decide +kernel, by decide +kernel, by decide +kernel, by decide +kernel⟩
    · decide +kernel
    · decide +kernel
    · decide +kernel
    · decide +kernel
    · decide +kernel
  · try dsimp only
    refine ⟨?_, ?_, ?_, ?_, ?_⟩
    · exact ⟨by decide +kernel, by decide +kernel, by decide +kernel, by decide +kernel, by decide +kernel, by decide +kernel⟩
    · decide +kernel
    · decide +kernel
    · decide +kernel
    · decide +kernel
  · try dsimp only
    refine ⟨?_, ?_, ?_, ?_, ?_⟩
    · exact ⟨by decide +kernel, by decide +kernel, by decide +kernel, by decide +kernel, by decide +kernel, by decide +kernel⟩
    · decide +kernel
    · decide +kernel
    · decide +kernel
    · decide +kernel
  · try dsimp only
    refine ⟨?_, ?_, ?_, ?_, ?_, ?_⟩
    · exact ⟨by decide +kernel, by decide +kernel, by decide +kernel, by decide +kernel, by decide +kernel, by decide +kernel⟩
    · decide +kernel
    · decide +kernel
    · decide +kernel
    · decide +kernel
    · decide +kernel
  · try dsimp only
    refine ⟨?_, ?_, ?_, ?_, ?_, ?_⟩
    · exact ⟨by decide +kernel, by decide +kernel, by decide +kernel, by decide +kernel, by decide +kernel, by decide +kernel⟩
    · decide +kernel
    · decide +kernel
    · decide +kernel
    · decide +kernel
    · decide +kernel
  · try dsimp only
    refine ⟨?_, ?_, ?_, ?_, ?_⟩
    · exact ⟨by decide +kernel, by decide +kernel, by decide +kernel, by decide +kernel, by decide +kernel, by decide +kernel⟩
    · decide +kernel
    · decide +kernel
    · decide +kernel
    · decide +kernel
  · try dsimp only
    refine ⟨?_, ?_, ?_, ?_, ?_, ?_⟩
    · decide +kernel
    · decide +kernel
    · decide +kernel
    · decide +kernel
    · decide +kernel
    · decide +kernel
  · try dsimp only
    refine ⟨?_, ?_, ?_, ?_, ?_, ?_, ?_⟩
    · decide +kernel
    · decide +kernel
    · decide +kernel
    · decide +kernel
    · decide +kernel
    · decide +kernel
    · decide +kernel
  · try dsimp only
    refine ⟨?_, ?_, ?_, ?_, ?_, ?_⟩
    · decide +kernel
    · decide +kernel
    · decide +kernel
    · decide +kernel
    · decide +kernel
    · decide +kernel
  · try dsimp only
    exact ⟨by decide +kernel, by decide +kernel, by decide +kernel, by decide +kernel, by decide +kernel, by decide +kernel⟩
  · try dsimp only
    refine ⟨?_, ?_⟩
    · exact ⟨by decide +kernel, by decide +kernel, by decide +kernel, by decide +kernel, by decide +kernel, by decide +kernel⟩
    · decide +kernel
  · try dsimp only
    refine ⟨?_, ?_⟩
    · exact ⟨by decide +kernel, by decide +kernel, by decide +kernel, by decide +kernel, by decide +kernel, by decide +kernel⟩
    · decide +kernel
  · try dsimp only
    decide +kernel
  · try dsimp only
    decide +kernel
  · try dsimp only
    decide +kernel

/-- What MediaTokens asks of a state and of operands is met, case by case. -/
theorem witness_MediaTokens :
    (let ch : Nat := 575;
     let x : Nat := 7;
     let c : MCtx := ⟨[1 + 0x37 * 2 ^ 16, 0x0C + 1 * 2 ^ 16 + 1 * 2 ^ 24], none, 1, 0, 0, .hold, 0, 0, 0, false, none, none, none, 0, 0, 0,
       0, 0, false, [], false, false⟩;
     let s : State := stOf
       ({ (Dev.reset.setFld F.MSQ_PFSTAT_LATCH 1 Dev.reset.liveQ) with mch := nset MChan.zero [] 575 { MChan.zero with ctxs := [(7, some ⟨[1 + 0x37 * 2 ^ 16, 0x0C + 1 * 2 ^ 16 + 1 * 2 ^ 24], none, 1, 0, 0, .hold, 0, 0, 0, false, none, none, none, 0, 0, 0, 0, 0, false, [], false, false⟩)] } });
     atOp s.d ch x 0x0C c ∧
     let kind := opByte c.op 2;
     s.d.pfSet = true ∧ kind = 1) ∧
    (let ch : Nat := 575;
     let x : Nat := 7;
     let c : MCtx := ⟨[1 + 0x37 * 2 ^ 16, 0x0C + 2 * 2 ^ 16 + 1 * 2 ^ 24], none, 1, 0, 0, .hold, 0, 0, 0, false, none, none, none, 0, 0, 0,
       0, 0, false, [], false, false⟩;
     let s : State := stOf
       ({ (Dev.reset.setFld F.MSQ_PFSTAT_LATCH 1 Dev.reset.liveQ) with mch := nset MChan.zero [] 575 { MChan.zero with ctxs := [(7, some ⟨[1 + 0x37 * 2 ^ 16, 0x0C + 2 * 2 ^ 16 + 1 * 2 ^ 24], none, 1, 0, 0, .hold, 0, 0, 0, false, none, none, none, 0, 0, 0, 0, 0, false, [], false, false⟩)] } });
     atOp s.d ch x 0x0C c ∧
     let kind := opByte c.op 2;
     s.d.pfSet = true ∧ kind = 2) ∧
    (let ch : Nat := 575;
     let x : Nat := 7;
     let c : MCtx := ⟨[1 + 0x37 * 2 ^ 16, 0x0C + 5 * 2 ^ 16 + 1 * 2 ^ 24], none, 1, 0, 0, .hold, 0, 0, 0, false, none, none, none, 0, 0, 0,
       0, 0, false, [], false, false⟩;
     let s : State := stOf
       ({ (Dev.reset.setFld F.MSQ_PFSTAT_LATCH 1 Dev.reset.liveQ) with mch := nset MChan.zero [] 575 { MChan.zero with ctxs := [(7, some ⟨[1 + 0x37 * 2 ^ 16, 0x0C + 5 * 2 ^ 16 + 1 * 2 ^ 24], none, 1, 0, 0, .hold, 0, 0, 0, false, none, none, none, 0, 0, 0, 0, 0, false, [], false, false⟩)] } });
     atOp s.d ch x 0x0C c ∧
     let kind := opByte c.op 2;
     s.d.pfSet = true ∧ kind = 5) ∧
    (let ch : Nat := 575;
     let x : Nat := 7;
     let c : MCtx := ⟨[1 + 0x37 * 2 ^ 16, 0x0C + 1 * 2 ^ 16 + 1 * 2 ^ 24], none, 1, 0, 0, .hold, 0, 0, 0, false, none, none, none, 0, 0, 0,
       0, 0, false, [], false, false⟩;
     let s : State := stOf
       ({ Dev.reset with mch := nset MChan.zero [] 575 { MChan.zero with ctxs := [(7, some ⟨[1 + 0x37 * 2 ^ 16, 0x0C + 1 * 2 ^ 16 + 1 * 2 ^ 24], none, 1, 0, 0, .hold, 0, 0, 0, false, none, none, none, 0, 0, 0, 0, 0, false, [], false, false⟩)] } });
     atOp s.d ch x 0x0C c ∧
     let kind := opByte c.op 2;
     let w := s.d.lunop ch c.u;
     let free := w.getLsbD 63 = false ∧ s.d.openOps ch < s.d.chcfg ch 28 24;
     s.d.pfSet = false ∧ free ∧ kind = 1) ∧
    (let ch : Nat := 575;
     let x : Nat := 7;
     let c : MCtx := ⟨[1 + 0x37 * 2 ^ 16, 0x0C + 2 * 2 ^ 16 + 4 * 2 ^ 24], none, 1, 0, 0, .hold, 0, 0, 0, false, none, none, none, 0, 0, 0,
       0, 0, false, [], false, false⟩;
     let s : State := stOf
       ({ Dev.reset with mch := nset MChan.zero [] 575 { MChan.zero with ctxs := [(7, some ⟨[1 + 0x37 * 2 ^ 16, 0x0C + 2 * 2 ^ 16 + 4 * 2 ^ 24], none, 1, 0, 0, .hold, 0, 0, 0, false, none, none, none, 0, 0, 0, 0, 0, false, [], false, false⟩)] } });
     atOp s.d ch x 0x0C c ∧
     let kind := opByte c.op 2;
     let w := s.d.lunop ch c.u;
     let free := w.getLsbD 63 = false ∧ s.d.openOps ch < s.d.chcfg ch 28 24;
     s.d.pfSet = false ∧ free ∧ kind = 2) ∧
    (let ch : Nat := 575;
     let x : Nat := 7;
     let c : MCtx := ⟨[1 + 0x37 * 2 ^ 16, 0x0C + 1 * 2 ^ 16 + 1 * 2 ^ 24], none, 1, 0, 0, .hold, 0, 0, 0, false, none, none, none, 0, 0, 0,
       0, 0, false, [], false, false⟩;
     let s : State := stOf
       ({ (Dev.reset.setReg (mReg 575 .MSQ_LUNOP 31) (BitVec.ofNat 64 (2 ^ 63))) with mch := nset MChan.zero [] 575 { MChan.zero with ctxs := [(7, some ⟨[1 + 0x37 * 2 ^ 16, 0x0C + 1 * 2 ^ 16 + 1 * 2 ^ 24], none, 1, 0, 0, .hold, 0, 0, 0, false, none, none, none, 0, 0, 0, 0, 0, false, [], false, false⟩)] } });
     atOp s.d ch x 0x0C c ∧
     let kind := opByte c.op 2;
     let w := s.d.lunop ch c.u;
     let free := w.getLsbD 63 = false ∧ s.d.openOps ch < s.d.chcfg ch 28 24;
     s.d.pfSet = false ∧ ¬ free ∧ kind = 1) ∧
    (let ch : Nat := 575;
     let x : Nat := 7;
     let c : MCtx := ⟨[1 + 0x37 * 2 ^ 16, 0x0C + 2 * 2 ^ 16 + 1 * 2 ^ 24], none, 1, 0, 0, .hold, 0, 0, 0, false, none, none, none, 0, 0, 0,
       0, 0, false, [], false, false⟩;
     let s : State := stOf
       ({ (Dev.reset.setReg (mReg 575 .MSQ_LUNOP 31) (BitVec.ofNat 64 (2 ^ 63))) with mch := nset MChan.zero [] 575 { MChan.zero with ctxs := [(7, some ⟨[1 + 0x37 * 2 ^ 16, 0x0C + 2 * 2 ^ 16 + 1 * 2 ^ 24], none, 1, 0, 0, .hold, 0, 0, 0, false, none, none, none, 0, 0, 0, 0, 0, false, [], false, false⟩)] } });
     atOp s.d ch x 0x0C c ∧
     let kind := opByte c.op 2;
     let w := s.d.lunop ch c.u;
     let free := w.getLsbD 63 = false ∧ s.d.openOps ch < s.d.chcfg ch 28 24;
     s.d.pfSet = false ∧ ¬ free ∧ kind = 2) ∧
    (let ch : Nat := 575;
     let x : Nat := 7;
     let c : MCtx := ⟨[1 + 0x37 * 2 ^ 16, 0x0C + 5 * 2 ^ 16 + 1 * 2 ^ 24], none, 1, 0, 0, .hold, 0, 0, 0, false, none, none, none, 0, 0, 0,
       0, 0, false, [], false, false⟩;
     let s : State := stOf
       ({ (Dev.reset.setReg (mReg 575 .MSQ_LUNOP 31) (BitVec.ofNat 64 (2 ^ 61))) with mch := nset MChan.zero [] 575 { MChan.zero with ctxs := [(7, some ⟨[1 + 0x37 * 2 ^ 16, 0x0C + 5 * 2 ^ 16 + 1 * 2 ^ 24], none, 1, 0, 0, .hold, 0, 0, 0, false, none, none, none, 0, 0, 0, 0, 0, false, [], false, false⟩)] } });
     atOp s.d ch x 0x0C c ∧
     let kind := opByte c.op 2;
     let w := s.d.lunop ch c.u;
     s.d.pfSet = false ∧ kind = 5 ∧ w.getLsbD 61 = true) ∧
    (let ch : Nat := 575;
     let x : Nat := 7;
     let c : MCtx := ⟨[1 + 0x37 * 2 ^ 16, 0x0C + 5 * 2 ^ 16 + 1 * 2 ^ 24], none, 1, 0, 0, .hold, 0, 0, 0, false, none, none, none, 0, 0, 0,
       0, 0, false, [], false, false⟩;
     let s : State := stOf
       ({ Dev.reset with mch := nset MChan.zero [] 575 { MChan.zero with ctxs := [(7, some ⟨[1 + 0x37 * 2 ^ 16, 0x0C + 5 * 2 ^ 16 + 1 * 2 ^ 24], none, 1, 0, 0, .hold, 0, 0, 0, false, none, none, none, 0, 0, 0, 0, 0, false, [], false, false⟩)] } });
     atOp s.d ch x 0x0C c ∧
     let kind := opByte c.op 2;
     let w := s.d.lunop ch c.u;
     s.d.pfSet = false ∧ kind = 5 ∧ w.getLsbD 61 = false) ∧
    (let ch : Nat := 575;
     let x : Nat := 7;
     let c : MCtx := ⟨[1 + 0x37 * 2 ^ 16, 0x0C + 3 * 2 ^ 16 + 1 * 2 ^ 24], none, 1, 0, 0, .hold, 0, 0, 0, false, none, none, none, 0, 0, 0,
       0, 0, false, [], true, false⟩;
     let s : State := stOf
       ({ Dev.reset with mch := nset MChan.zero [] 575 { MChan.zero with ctxs := [(7, some ⟨[1 + 0x37 * 2 ^ 16, 0x0C + 3 * 2 ^ 16 + 1 * 2 ^ 24], none, 1, 0, 0, .hold, 0, 0, 0, false, none, none, none, 0, 0, 0, 0, 0, false, [], true, false⟩)] } });
     atOp s.d ch x 0x0C c ∧
     let kind := opByte c.op 2;
     c.conf = true ∧ kind = 3) ∧
    (let ch : Nat := 575;
     let x : Nat := 7;
     let c : MCtx := ⟨[1 + 0x37 * 2 ^ 16, 0x0C + 4 * 2 ^ 16 + 1 * 2 ^ 24], none, 1, 0, 0, .hold, 0, 0, 0, false, none, none, none, 0, 0, 0,
       0, 0, false, [], true, false⟩;
     let s : State := stOf
       ({ Dev.reset with mch := nset MChan.zero [] 575 { MChan.zero with ctxs := [(7, some ⟨[1 + 0x37 * 2 ^ 16, 0x0C + 4 * 2 ^ 16 + 1 * 2 ^ 24], none, 1, 0, 0, .hold, 0, 0, 0, false, none, none, none, 0, 0, 0, 0, 0, false, [], true, false⟩)] } });
     atOp s.d ch x 0x0C c ∧
     let kind := opByte c.op 2;
     c.conf = true ∧ kind = 4) ∧
    (let ch : Nat := 575;
     let x : Nat := 7;
     let c : MCtx := ⟨[1 + 0x37 * 2 ^ 16, 0x0C + 3 * 2 ^ 16 + 1 * 2 ^ 24], none, 1, 0, 0, .hold, 0, 0, 0, false, none, none, none, 0, 0, 0,
       0, 0, false, [], false, false⟩;
     let s : State := stOf
       ({ (Dev.reset.setReg (mReg 575 .MSQ_LUNOP 31) (BitVec.ofNat 64 (2 ^ 63))) with mch := nset MChan.zero [] 575 { MChan.zero with ctxs := [(7, some ⟨[1 + 0x37 * 2 ^ 16, 0x0C + 3 * 2 ^ 16 + 1 * 2 ^ 24], none, 1, 0, 0, .hold, 0, 0, 0, false, none, none, none, 0, 0, 0, 0, 0, false, [], false, false⟩)] } });
     atOp s.d ch x 0x0C c ∧
     let kind := opByte c.op 2;
     let w := s.d.lunop ch c.u;
     c.conf = false ∧ kind = 3 ∧ w.getLsbD 63 = true) ∧
    (let ch : Nat := 575;
     let x : Nat := 7;
     let c : MCtx := ⟨[1 + 0x37 * 2 ^ 16, 0x0C + 3 * 2 ^ 16 + 1 * 2 ^ 24], none, 1, 0, 0, .hold, 0, 0, 0, false, none, none, none, 0, 0, 0,
       0, 0, false, [], false, false⟩;
     let s : State := stOf
       ({ Dev.reset with mch := nset MChan.zero [] 575 { MChan.zero with ctxs := [(7, some ⟨[1 + 0x37 * 2 ^ 16, 0x0C + 3 * 2 ^ 16 + 1 * 2 ^ 24], none, 1, 0, 0, .hold, 0, 0, 0, false, none, none, none, 0, 0, 0, 0, 0, false, [], false, false⟩)] } });
     atOp s.d ch x 0x0C c ∧
     let kind := opByte c.op 2;
     let w := s.d.lunop ch c.u;
     c.conf = false ∧ kind = 3 ∧ w.getLsbD 63 = false) ∧
    (let ch : Nat := 575;
     let x : Nat := 7;
     let c : MCtx := ⟨[1 + 0x37 * 2 ^ 16, 0x0C + 4 * 2 ^ 16 + 1 * 2 ^ 24], none, 1, 0, 0, .hold, 0, 0, 0, false, none, none, none, 0, 0, 0,
       0, 0, false, [], false, false⟩;
     let s : State := stOf
       ({ (Dev.reset.setReg (mReg 575 .MSQ_LUNOP 31) (BitVec.ofNat 64 (2 ^ 62))) with mch := nset MChan.zero [] 575 { MChan.zero with ctxs := [(7, some ⟨[1 + 0x37 * 2 ^ 16, 0x0C + 4 * 2 ^ 16 + 1 * 2 ^ 24], none, 1, 0, 0, .hold, 0, 0, 0, false, none, none, none, 0, 0, 0, 0, 0, false, [], false, false⟩)] } });
     atOp s.d ch x 0x0C c ∧
     let kind := opByte c.op 2;
     let w := s.d.lunop ch c.u;
     c.conf = false ∧ kind = 4 ∧ w.getLsbD 62 = true ∧ w.getLsbD 61 = false) ∧
    (let ch : Nat := 575;
     let x : Nat := 7;
     let c : MCtx := ⟨[1 + 0x37 * 2 ^ 16, 0x0C + 4 * 2 ^ 16 + 1 * 2 ^ 24], none, 1, 0, 0, .hold, 0, 0, 0, false, none, none, none, 0, 0, 0,
       0, 0, false, [], false, false⟩;
     let s : State := stOf
       ({ (Dev.reset.setReg (mReg 575 .MSQ_LUNOP 31) (BitVec.ofNat 64 (2 ^ 62 + 2 ^ 61))) with mch := nset MChan.zero [] 575 { MChan.zero with ctxs := [(7, some ⟨[1 + 0x37 * 2 ^ 16, 0x0C + 4 * 2 ^ 16 + 1 * 2 ^ 24], none, 1, 0, 0, .hold, 0, 0, 0, false, none, none, none, 0, 0, 0, 0, 0, false, [], false, false⟩)] } });
     atOp s.d ch x 0x0C c ∧
     let kind := opByte c.op 2;
     let w := s.d.lunop ch c.u;
     c.conf = false ∧ kind = 4 ∧ (w.getLsbD 62 = false ∨ w.getLsbD 61 = true)) ∧
    (let ch : Nat := 575;
     let x : Nat := 7;
     let c : MCtx := ⟨[1 + 0x37 * 2 ^ 16, 0x0C + 2 * 2 ^ 16 + 1 * 2 ^ 24], none, 1, 0, 0, .hold, 0, 0, 0, false, none, none, none, 0, 0, 0,
       0, 0, false, [], false, false⟩;
     let s : State := stOf
       ({ Dev.reset with mch := nset MChan.zero [] 575 { MChan.zero with ctxs := [(7, some ⟨[1 + 0x37 * 2 ^ 16, 0x0C + 2 * 2 ^ 16 + 1 * 2 ^ 24], none, 1, 0, 0, .hold, 0, 0, 0, false, none, none, none, 0, 0, 0, 0, 0, false, [], false, false⟩)] } });
     atOp s.d ch x 0x0C c ∧
     let kind := opByte c.op 2;
     kind ≠ 1) ∧
    (let ch : Nat := 575;
     let x : Nat := 7;
     let c : MCtx := ⟨[1 + 0x37 * 2 ^ 16, 0x0C + 3 * 2 ^ 16 + 1 * 2 ^ 24], none, 1, 0, 0, .hold, 0, 0, 0, false, none, none, none, 0, 0, 0,
       0, 0, false, [], false, false⟩;
     let s : State := stOf
       ({ Dev.reset with mch := nset MChan.zero [] 575 { MChan.zero with ctxs := [(7, some ⟨[1 + 0x37 * 2 ^ 16, 0x0C + 3 * 2 ^ 16 + 1 * 2 ^ 24], none, 1, 0, 0, .hold, 0, 0, 0, false, none, none, none, 0, 0, 0, 0, 0, false, [], false, false⟩)] } });
     atOp s.d ch x 0x0C c ∧
     let kind := opByte c.op 2;
     kind ≠ 2) ∧
    (let ch : Nat := 575;
     let x : Nat := 7;
     let c : MCtx := ⟨[1 + 0x37 * 2 ^ 16, 0x0C + 4 * 2 ^ 16 + 1 * 2 ^ 24], none, 1, 0, 0, .hold, 0, 0, 0, false, none, none, none, 0, 0, 0,
       0, 0, false, [], false, false⟩;
     let s : State := stOf
       ({ Dev.reset with mch := nset MChan.zero [] 575 { MChan.zero with ctxs := [(7, some ⟨[1 + 0x37 * 2 ^ 16, 0x0C + 4 * 2 ^ 16 + 1 * 2 ^ 24], none, 1, 0, 0, .hold, 0, 0, 0, false, none, none, none, 0, 0, 0, 0, 0, false, [], false, false⟩)] } });
     atOp s.d ch x 0x0C c ∧
     let kind := opByte c.op 2;
     kind ≠ 3) ∧
    (let ch : Nat := 575;
     let x : Nat := 7;
     let c : MCtx := ⟨[1 + 0x37 * 2 ^ 16, 0x0C + 5 * 2 ^ 16 + 1 * 2 ^ 24], none, 1, 0, 0, .hold, 0, 0, 0, false, none, none, none, 0, 0, 0,
       0, 0, false, [], false, false⟩;
     let s : State := stOf
       ({ Dev.reset with mch := nset MChan.zero [] 575 { MChan.zero with ctxs := [(7, some ⟨[1 + 0x37 * 2 ^ 16, 0x0C + 5 * 2 ^ 16 + 1 * 2 ^ 24], none, 1, 0, 0, .hold, 0, 0, 0, false, none, none, none, 0, 0, 0, 0, 0, false, [], false, false⟩)] } });
     atOp s.d ch x 0x0C c ∧
     let kind := opByte c.op 2;
     kind ≠ 4) ∧
    (let ch : Nat := 575;
     let x : Nat := 7;
     let c : MCtx := ⟨[1 + 0x37 * 2 ^ 16, 0x0C + 1 * 2 ^ 16 + 1 * 2 ^ 24], none, 1, 0, 0, .hold, 0, 0, 0, false, none, none, none, 0, 0, 0,
       0, 0, false, [], false, false⟩;
     let s : State := stOf
       ({ Dev.reset with mch := nset MChan.zero [] 575 { MChan.zero with ctxs := [(7, some ⟨[1 + 0x37 * 2 ^ 16, 0x0C + 1 * 2 ^ 16 + 1 * 2 ^ 24], none, 1, 0, 0, .hold, 0, 0, 0, false, none, none, none, 0, 0, 0, 0, 0, false, [], false, false⟩)] } });
     atOp s.d ch x 0x0C c ∧
     let kind := opByte c.op 2;
     kind ≠ 5) ∧
    (let ch : Nat := 575;
     let x : Nat := 7;
     let s : State := State.reset;
     (∀ c, ¬ atOp s.d ch x 0x0C c)) ∧
    (let s : State := State.reset;
     s.d.sysHalt = false ∧
     let turn := ((upTo 4).map (fun i => (s.d.tokTurn + i) % 4)).find? (fun q => decide (s.d.tokWait q ≠ []));
     turn = none) ∧
    (let q : Nat := 3;
     let key : Nat := 4607;
     let r : List Nat := [];
     let c : MCtx := ⟨[1 + 0x37 * 2 ^ 16, 0x0C + 1 * 2 ^ 16 + 1 * 2 ^ 24], none, 1, 0, 0, .tokens, 0, 0, 0, false, none, none, none, 0, 0, 0,
       0, 0, false, [], false, false⟩;
     let s : State := stOf
       ({ Dev.reset with mch := nset MChan.zero [] 575 { MChan.zero with ctxs := [(7, some ⟨[1 + 0x37 * 2 ^ 16, 0x0C + 1 * 2 ^ 16 + 1 * 2 ^ 24], none, 1, 0, 0, .tokens, 0, 0, 0, false, none, none, none, 0, 0, 0, 0, 0, false, [], false, false⟩)] }, tokq := nset [] [] 3 [4607] });
     s.d.sysHalt = false ∧
     let turn := ((upTo 4).map (fun i => (s.d.tokTurn + i) % 4)).find? (fun q => decide (s.d.tokWait q ≠ []));
     turn = some q ∧ s.d.tokWait q = key :: r ∧
     let ctx := s.d.mctx (key / 8) (key % 8);
     ctx = some c ∧ c.st = .tokens ∧ s.d.tokensFit (s.d.npl (key / 8) c) = true) ∧
    (let q : Nat := 3;
     let key : Nat := 4607;
     let r : List Nat := [];
     let c : MCtx := ⟨[1 + 0x37 * 2 ^ 16, 0x0C + 1 * 2 ^ 16 + 4 * 2 ^ 24], none, 1, 0, 0, .tokens, 0, 0, 0, false, none, none, none, 0, 0, 0,
       0, 0, false, [], false, false⟩;
     let s : State := stOf
       ({ (Dev.reset.setFld F.MSQ_OPUSE_USE 1023 Dev.reset.liveQ) with mch := nset MChan.zero [] 575 { MChan.zero with ctxs := [(7, some ⟨[1 + 0x37 * 2 ^ 16, 0x0C + 1 * 2 ^ 16 + 4 * 2 ^ 24], none, 1, 0, 0, .tokens, 0, 0, 0, false, none, none, none, 0, 0, 0, 0, 0, false, [], false, false⟩)] }, tokq := nset [] [] 3 [4607] });
     s.d.sysHalt = false ∧
     let turn := ((upTo 4).map (fun i => (s.d.tokTurn + i) % 4)).find? (fun q => decide (s.d.tokWait q ≠ []));
     turn = some q ∧ s.d.tokWait q = key :: r ∧
     let ctx := s.d.mctx (key / 8) (key % 8);
     ctx = some c ∧ c.st = .tokens ∧ s.d.tokensFit (s.d.npl (key / 8) c) = false) ∧
    (let q : Nat := 3;
     let key : Nat := 4607;
     let r : List Nat := [];
     let s : State := stOf ({ Dev.reset with tokq := nset [] [] 3 [4607] });
     s.d.sysHalt = false ∧
     let turn := ((upTo 4).map (fun i => (s.d.tokTurn + i) % 4)).find? (fun q => decide (s.d.tokWait q ≠ []));
     turn = some q ∧ s.d.tokWait q = key :: r ∧
     let ctx := s.d.mctx (key / 8) (key % 8);
     (∀ c, ctx = some c → c.st ≠ .tokens)) := by
  refine ⟨?_, ?_, ?_, ?_, ?_, ?_, ?_, ?_, ?_, ?_, ?_, ?_, ?_, ?_, ?_, ?_, ?_, ?_, ?_, ?_, ?_, ?_, ?_, ?_, ?_⟩
  · try dsimp only
    refine ⟨?_, ?_, ?_⟩
    · exact ⟨by decide +kernel, by decide +kernel, by decide +kernel, by decide +kernel, by decide +kernel⟩
    · decide +kernel
    · decide +kernel
  · try dsimp only
    refine ⟨?_, ?_, ?_⟩
    · exact ⟨by decide +kernel, by decide +kernel, by decide +kernel, by decide +kernel, by decide +kernel⟩
    · decide +kernel
    · decide +kernel
  · try dsimp only
    refine ⟨?_, ?_, ?_⟩
    · exact ⟨by decide +kernel, by decide +kernel, by decide +kernel, by decide +kernel, by decide +kernel⟩
    · decide +kernel
    · decide +kernel
  · try dsimp only
    refine ⟨?_, ?_, ?_, ?_⟩
    · exact ⟨by decide +kernel, by decide +kernel, by decide +kernel, by decide +kernel, by decide +kernel⟩
    · decide +kernel
    · decide +kernel
    · decide +kernel
  · try dsimp only
    refine ⟨?_, ?_, ?_, ?_⟩
    · exact ⟨by decide +kernel, by decide +kernel, by decide +kernel, by decide +kernel, by decide +kernel⟩
    · decide +kernel
    · decide +kernel
    · decide +kernel
  · try dsimp only
    refine ⟨?_, ?_, ?_, ?_⟩
    · exact ⟨by decide +kernel, by decide +kernel, by decide +kernel, by decide +kernel, by decide +kernel⟩
    · decide +kernel
    · decide +kernel
    · decide +kernel
  · try dsimp only
    refine ⟨?_, ?_, ?_, ?_⟩
    · exact ⟨by decide +kernel, by decide +kernel, by decide +kernel, by decide +kernel, by decide +kernel⟩
    · decide +kernel
    · decide +kernel
    · decide +kernel
  · try dsimp only
    refine ⟨?_, ?_, ?_, ?_⟩
    · exact ⟨by decide +kernel, by decide +kernel, by decide +kernel, by decide +kernel, by decide +kernel⟩
    · decide +kernel
    · decide +kernel
    · decide +kernel
  · try dsimp only
    refine ⟨?_, ?_, ?_, ?_⟩
    · exact ⟨by decide +kernel, by decide +kernel, by decide +kernel, by decide +kernel, by decide +kernel⟩
    · decide +kernel
    · decide +kernel
    · decide +kernel
  · try dsimp only
    refine ⟨?_, ?_, ?_⟩
    · exact ⟨by decide +kernel, by decide +kernel, by decide +kernel, by decide +kernel, by decide +kernel⟩
    · decide +kernel
    · decide +kernel
  · try dsimp only
    refine ⟨?_, ?_, ?_⟩
    · exact ⟨by decide +kernel, by decide +kernel, by decide +kernel, by decide +kernel, by decide +kernel⟩
    · decide +kernel
    · decide +kernel
  · try dsimp only
    refine ⟨?_, ?_, ?_, ?_⟩
    · exact ⟨by decide +kernel, by decide +kernel, by decide +kernel, by decide +kernel, by decide +kernel⟩
    · decide +kernel
    · decide +kernel
    · decide +kernel
  · try dsimp only
    refine ⟨?_, ?_, ?_, ?_⟩
    · exact ⟨by decide +kernel, by decide +kernel, by decide +kernel, by decide +kernel, by decide +kernel⟩
    · decide +kernel
    · decide +kernel
    · decide +kernel
  · try dsimp only
    refine ⟨?_, ?_, ?_, ?_, ?_⟩
    · exact ⟨by decide +kernel, by decide +kernel, by decide +kernel, by decide +kernel, by decide +kernel⟩
    · decide +kernel
    · decide +kernel
    · decide +kernel
    · decide +kernel
  · try dsimp only
    refine ⟨?_, ?_, ?_, ?_⟩
    · exact ⟨by decide +kernel, by decide +kernel, by decide +kernel, by decide +kernel, by decide +kernel⟩
    · decide +kernel
    · decide +kernel
    · decide +kernel
  · try dsimp only
    refine ⟨?_, ?_⟩
    · exact ⟨by decide +kernel, by decide +kernel, by decide +kernel, by decide +kernel, by decide +kernel⟩
    · decide +kernel
  · try dsimp only
    refine ⟨?_, ?_⟩
    · exact ⟨by decide +kernel, by decide +kernel, by decide +kernel, by decide +kernel, by decide +kernel⟩
    · decide +kernel
  · try dsimp only
    refine ⟨?_, ?_⟩
    · exact ⟨by decide +kernel, by decide +kernel, by decide +kernel, by decide +kernel, by decide +kernel⟩
    · decide +kernel
  · try dsimp only
    refine ⟨?_, ?_⟩
    · exact ⟨by decide +kernel, by decide +kernel, by decide +kernel, by decide +kernel, by decide +kernel⟩
    · decide +kernel
  · try dsimp only
    refine ⟨?_, ?_⟩
    · exact ⟨by decide +kernel, by decide +kernel, by decide +kernel, by decide +kernel, by decide +kernel⟩
    · decide +kernel
  · try dsimp only
    exact noOp (by decide +kernel) _
  · try dsimp only
    refine ⟨?_, ?_⟩
    · decide +kernel
    · decide +kernel
  · try dsimp only
    refine ⟨?_, ?_, ?_, ?_, ?_, ?_⟩
    · decide +kernel
    · decide +kernel
    · decide +kernel
    · decide +kernel
    · decide +kernel
    · decide +kernel
  · try dsimp only
    refine ⟨?_, ?_, ?_, ?_, ?_, ?_⟩
    · decide +kernel
    · decide +kernel
    · decide +kernel
    · decide +kernel
    · decide +kernel
    · decide +kernel
  · try dsimp only
    refine ⟨?_, ?_, ?_, ?_⟩
    · decide +kernel
    · decide +kernel
    · decide +kernel
    · intro c h
      have e : (stOf { Dev.reset with tokq := nset [] [] 3 [4607] }).d.mctx (4607 / 8) (4607 % 8) = none := by decide +kernel
      cases e.symm.trans h

/-- What MediaRegisters asks of a state and of operands is met, case by case. -/
theorem witness_MediaRegisters :
    (let m : Mst := fw;
     let v : Nat := 1;
     m.oid = 0 ∧ v.testBit 0 = true) ∧
    (let m : Mst := fw;
     let v : Nat := 2;
     m.oid = 0 ∧ v.testBit 0 = false) ∧
    (let m : Mst := fw;
     m.oid = 0) ∧
    (let m : Mst := fw;
     let ch : Nat := 575;
     let v : Nat := 2 ^ 31 + 0x1064B800;
     let s : State := stOf (Dev.reset.setRegN (R.MSQ_RBASE.at (mediaPlace 575).1 (mGroup 575)) 4096);
     m.oid = 0 ∧
     let x := mReg ch .MSQ_CHCFG;
     let w := v &&& 0xFFFFFC00;
     let n := chcfgOk (s.d.regN x) w;
     let may := s.d.fld F.MSQ_CHSTAT_STATE (mediaPlace ch).1 (mediaPlace ch).2 < 2 ∧ ¬ (v.testBit 31 = true ∧ s.d.regN (R.MSQ_RBASE.at
       (mediaPlace ch).1 (mGroup ch)) = 0);
     may ∧ n = w) ∧
    (let m : Mst := fw;
     let ch : Nat := 575;
     let v : Nat := 0;
     let s : State := State.reset;
     m.oid = 0 ∧
     let x := mReg ch .MSQ_CHCFG;
     let w := v &&& 0xFFFFFC00;
     let n := chcfgOk (s.d.regN x) w;
     let may := s.d.fld F.MSQ_CHSTAT_STATE (mediaPlace ch).1 (mediaPlace ch).2 < 2 ∧ ¬ (v.testBit 31 = true ∧ s.d.regN (R.MSQ_RBASE.at
       (mediaPlace ch).1 (mGroup ch)) = 0);
     may ∧ n ≠ w) ∧
    (let m : Mst := fw;
     let ch : Nat := 575;
     let v : Nat := 2 ^ 31;
     let s : State := State.reset;
     m.oid = 0 ∧
     let may := s.d.fld F.MSQ_CHSTAT_STATE (mediaPlace ch).1 (mediaPlace ch).2 < 2 ∧ ¬ (v.testBit 31 = true ∧ s.d.regN (R.MSQ_RBASE.at
       (mediaPlace ch).1 (mGroup ch)) = 0);
     ¬ may) ∧
    (let m : Mst := fw;
     let q : Nat := 3;
     let j : Nat := 15;
     let v : Nat := 0;
     let s : State := stOf (Dev.reset.setFld F.MSQ_RSIZE_RSIZE 4 3 15);
     m.oid = 0 ∧
     let old := s.d.fld F.MSQ_RRP_RP q j;
     let rp := v % 65536;
     let may := rp < s.d.mRing q j ∧ ringDist rp old (s.d.mRing q j) ≤ ringDist (s.d.fld F.MSQ_RWP_WP q j) old (s.d.mRing q j);
     may) ∧
    (let m : Mst := fw;
     let q : Nat := 3;
     let j : Nat := 15;
     let v : Nat := 15;
     let s : State := stOf (Dev.reset.setFld F.MSQ_RSIZE_RSIZE 4 3 15);
     m.oid = 0 ∧
     let old := s.d.fld F.MSQ_RRP_RP q j;
     let rp := v % 65536;
     let may := rp < s.d.mRing q j ∧ ringDist rp old (s.d.mRing q j) ≤ ringDist (s.d.fld F.MSQ_RWP_WP q j) old (s.d.mRing q j);
     ¬ may) ∧
    (let m : Mst := fw;
     let q : Nat := 3;
     let s : State := State.reset;
     m.oid = 0 ∧
     let live := q = s.d.liveQ;
     ¬ live) ∧
    (let m : Mst := fw;
     let q : Nat := 0;
     let s : State := stOf (Dev.reset.setRegN (R.BLK_LOCK.at 0 (Blk.MSQ.base / 65536)) 1);
     m.oid = 0 ∧
     let live := q = s.d.liveQ;
     let lock := s.d.locked .MSQ q = true;
     live ∧ lock) ∧
    (let m : Mst := fw;
     let q : Nat := 0;
     let v : Nat := 2048;
     let s : State := State.reset;
     m.oid = 0 ∧
     let n := v % 4096;
     let live := q = s.d.liveQ;
     let lock := s.d.locked .MSQ q = true;
     live ∧ ¬ lock ∧ 1 ≤ n ∧ n ≤ 2048) ∧
    (let m : Mst := fw;
     let q : Nat := 0;
     let v : Nat := 2049;
     let s : State := State.reset;
     m.oid = 0 ∧
     let n := v % 4096;
     let live := q = s.d.liveQ;
     let lock := s.d.locked .MSQ q = true;
     live ∧ ¬ lock ∧ (n = 0 ∨ 2048 < n)) ∧
    (let m : Mst := fw;
     let n : Nat := 63;
     let v : Nat := 0x433;
     let s : State := State.reset;
     m.oid = 0 ∧
     let x := R.NPH_CFG.at (n / 16) (n % 16);
     let w := v &&& 0x773;
     let may := w = s.d.regN x ∨ (s.d.fld F.MSQ_CHSTAT_STATE (n / 16) (n % 16) < 2 ∧ s.d.training n = false);
     may ∧ bitsOf w 6 4 ≤ 4) ∧
    (let m : Mst := fw;
     let n : Nat := 63;
     let v : Nat := 0x70;
     let s : State := State.reset;
     m.oid = 0 ∧
     let x := R.NPH_CFG.at (n / 16) (n % 16);
     let w := v &&& 0x773;
     let drv := if bitsOf w 6 4 ≤ 4 then w else setBitsN w 6 4 (bitsOf (s.d.regN x) 6 4);
     let may := w = s.d.regN x ∨ (s.d.fld F.MSQ_CHSTAT_STATE (n / 16) (n % 16) < 2 ∧ s.d.training n = false);
     may ∧ 4 < bitsOf w 6 4 ∧ drv ≠ w) ∧
    (let m : Mst := fw;
     let n : Nat := 63;
     let v : Nat := 0x433;
     let s : State := stOf (Dev.reset.setFld F.MSQ_CHSTAT_STATE 2 3 15);
     m.oid = 0 ∧
     let x := R.NPH_CFG.at (n / 16) (n % 16);
     let w := v &&& 0x773;
     let may := w = s.d.regN x ∨ (s.d.fld F.MSQ_CHSTAT_STATE (n / 16) (n % 16) < 2 ∧ s.d.training n = false);
     ¬ may) ∧
    (let m : Mst := fw;
     let v : Nat := 16;
     m.oid = 0 ∧ v.testBit 4 = true) ∧
    (let m : Mst := fw;
     let v : Nat := 0;
     m.oid = 0 ∧ v.testBit 4 = false) ∧
    (let n : Nat := 63;
     let s : State := stOf (Dev.reset.setFld F.NPH_TSTAT_RESULT 3 3 15);
     let ends := s.d.training n = true ∧ ∀ i z, (i, some z) ∈ (s.d.mchan n).ctxs → z.st ≠ .hold;
     ends) ∧
    (let n : Nat := 63;
     let s : State := State.reset;
     let ends := s.d.training n = true ∧ ∀ i z, (i, some z) ∈ (s.d.mchan n).ctxs → z.st ≠ .hold;
     ¬ ends) ∧
    (let ch : Nat := 575;
     let d : Dev := Dev.reset;
     (d.chEn ch = false ∨ d.confFailed = true)) ∧
    (let ch : Nat := 575;
     let d : Dev := Dev.reset.setBit (mReg 575 .MSQ_CHCFG) 31 true;
     d.chEn ch = true ∧ d.confFailed = false) := by
  refine ⟨?_, ?_, ?_, ?_, ?_, ?_, ?_, ?_, ?_, ?_, ?_, ?_, ?_, ?_, ?_, ?_, ?_, ?_, ?_, ?_, ?_⟩
  · try dsimp only
    refine ⟨?_, ?_⟩
    · decide +kernel
    · decide +kernel
  · try dsimp only
    refine ⟨?_, ?_⟩
    · decide +kernel
    · decide +kernel
  · try dsimp only
    decide +kernel
  · try dsimp only
    refine ⟨?_, ?_, ?_⟩
    · decide +kernel
    · decide +kernel
    · decide +kernel
  · try dsimp only
    refine ⟨?_, ?_, ?_⟩
    · decide +kernel
    · decide +kernel
    · decide +kernel
  · try dsimp only
    refine ⟨?_, ?_⟩
    · decide +kernel
    · decide +kernel
  · try dsimp only
    refine ⟨?_, ?_⟩
    · decide +kernel
    · decide +kernel
  · try dsimp only
    refine ⟨?_, ?_⟩
    · decide +kernel
    · decide +kernel
  · try dsimp only
    refine ⟨?_, ?_⟩
    · decide +kernel
    · decide +kernel
  · try dsimp only
    refine ⟨?_, ?_, ?_⟩
    · decide +kernel
    · decide +kernel
    · decide +kernel
  · try dsimp only
    refine ⟨?_, ?_, ?_, ?_, ?_⟩
    · decide +kernel
    · decide +kernel
    · decide +kernel
    · decide +kernel
    · decide +kernel
  · try dsimp only
    refine ⟨?_, ?_, ?_, ?_⟩
    · decide +kernel
    · decide +kernel
    · decide +kernel
    · decide +kernel
  · try dsimp only
    refine ⟨?_, ?_, ?_⟩
    · decide +kernel
    · decide +kernel
    · decide +kernel
  · try dsimp only
    refine ⟨?_, ?_, ?_, ?_⟩
    · decide +kernel
    · decide +kernel
    · decide +kernel
    · decide +kernel
  · try dsimp only
    refine ⟨?_, ?_⟩
    · decide +kernel
    · decide +kernel
  · try dsimp only
    refine ⟨?_, ?_⟩
    · decide +kernel
    · decide +kernel
  · try dsimp only
    refine ⟨?_, ?_⟩
    · decide +kernel
    · decide +kernel
  · refine ⟨by decide +kernel, fun i z h => ?_⟩
    exact absurd h (by rw [show (stOf _).d.mchan 63 = MChan.zero from by decide +kernel]; simp [MChan.zero])
  · exact fun h => absurd h.1 (by decide +kernel)
  · try dsimp only
    decide +kernel
  · try dsimp only
    refine ⟨?_, ?_⟩
    · decide +kernel
    · decide +kernel

/-- What PowerFail asks of a state and of operands is met, case by case. -/
theorem witness_PowerFail :
    (let p : Dump := ⟨1, 0, 0, 0, [], 0⟩;
     let s : State := stOf ({ Dev.reset with dump := some ⟨1, 0, 0, 0, [], 0⟩ });
     s.d.dump = some p) ∧
    (let s : State := State.reset;
     s.d.dump = none) ∧
    (let m : Mst := fw;
     let q : Nat := 3;
     let s : State := State.reset;
     m.oid = 0 ∧
     let live := q = s.d.liveQ;
     ¬ live) ∧
    (let m : Mst := fw;
     let q : Nat := 0;
     let v : Nat := 1;
     let s : State := State.reset;
     m.oid = 0 ∧
     let live := q = s.d.liveQ;
     live ∧ v.testBit 0 = true ∧ s.d.flag F.MSQ_PFSTAT_PIN q = false) ∧
    (let m : Mst := fw;
     let q : Nat := 0;
     let v : Nat := 1;
     let s : State := stOf (Dev.reset.setFld F.MSQ_PFSTAT_PIN 1 Dev.reset.liveQ);
     m.oid = 0 ∧
     let live := q = s.d.liveQ;
     live ∧ v.testBit 0 = true ∧ s.d.flag F.MSQ_PFSTAT_PIN q = true) ∧
    (let m : Mst := fw;
     let q : Nat := 0;
     let v : Nat := 3;
     let s : State := State.reset;
     m.oid = 0 ∧
     let live := q = s.d.liveQ;
     let h := v / 2 % 2;
     live ∧ v.testBit 0 = true ∧ s.d.erased (dumpBase q h) 0x10000 = true) ∧
    (let m : Mst := fw;
     let q : Nat := 0;
     let v : Nat := 3;
     let s : State := stOf ({ Dev.reset with mem := [(dumpBase 0 1 + 0xFFFF, 1)] });
     m.oid = 0 ∧
     let live := q = s.d.liveQ;
     let h := v / 2 % 2;
     live ∧ v.testBit 0 = true ∧ s.d.erased (dumpBase q h) 0x10000 = false) ∧
    (let m : Mst := fw;
     let q : Nat := 0;
     let v : Nat := 2;
     let s : State := State.reset;
     m.oid = 0 ∧
     let live := q = s.d.liveQ;
     live ∧ v.testBit 0 = false) := by
  refine ⟨?_, ?_, ?_, ?_, ?_, ?_, ?_, ?_⟩
  · try dsimp only
    decide +kernel
  · try dsimp only
    decide +kernel
  · try dsimp only
    refine ⟨?_, ?_⟩
    · decide +kernel
    · decide +kernel
  · try dsimp only
    refine ⟨?_, ?_, ?_, ?_⟩
    · decide +kernel
    · decide +kernel
    · decide +kernel
    · decide +kernel
  · try dsimp only
    refine ⟨?_, ?_, ?_, ?_⟩
    · decide +kernel
    · decide +kernel
    · decide +kernel
    · decide +kernel
  · try dsimp only
    refine ⟨?_, ?_, ?_, ?_⟩
    · decide +kernel
    · decide +kernel
    · decide +kernel
    · decide +kernel
  · try dsimp only
    refine ⟨?_, ?_, ?_, ?_⟩
    · decide +kernel
    · decide +kernel
    · decide +kernel
    · decide +kernel
  · try dsimp only
    refine ⟨?_, ?_, ?_⟩
    · decide +kernel
    · decide +kernel
    · decide +kernel

/-- What TetherTraining asks of a state and of operands is met, case by case. -/
theorem witness_TetherTraining :
    (let m : Mst := fw;
     let L : Nat := 63;
     let v : Nat := 1;
     let s : State := State.reset;
     m.owner = true ∧
     let x := tetReg L .TET_LCTRL;
     let was := (s.d.reg x).getLsbD 0;
     v.testBit 0 = true ∧ was = false) ∧
    (let m : Mst := fw;
     let L : Nat := 63;
     let v : Nat := 1;
     let s : State := stOf ((Dev.reset.setRegN (tetReg 63 .TET_LCTRL) 1));
     m.owner = true ∧
     let x := tetReg L .TET_LCTRL;
     let was := (s.d.reg x).getLsbD 0;
     v.testBit 0 = true ∧ was = true) ∧
    (let m : Mst := fw;
     let L : Nat := 63;
     let v : Nat := 0;
     let s : State := State.reset;
     m.owner = true ∧
     let x := tetReg L .TET_LCTRL;
     let was := (s.d.reg x).getLsbD 0;
     v.testBit 0 = false ∧ was = false) ∧
    (let m : Mst := fw;
     let L : Nat := 63;
     let v : Nat := 0;
     let s : State := stOf ((Dev.reset.setRegN (tetReg 63 .TET_LCTRL) 1));
     m.owner = true ∧
     let x := tetReg L .TET_LCTRL;
     let was := (s.d.reg x).getLsbD 0;
     v.testBit 0 = false ∧ was = true ∧ s.d.laneState L ≠ 4 ∧ s.d.laneState L ≠ 8) ∧
    (let m : Mst := fw;
     let L : Nat := 63;
     let v : Nat := 0;
     let s : State := stOf (((Dev.reset.setRegN (tetReg 63 .TET_LCTRL) 1).setRegN (tetReg 63 .TET_LSTAT) (8 * 2 ^ 28)));
     m.owner = true ∧
     let x := tetReg L .TET_LCTRL;
     let was := (s.d.reg x).getLsbD 0;
     v.testBit 0 = false ∧ was = true ∧ (s.d.laneState L = 4 ∨ s.d.laneState L = 8)) ∧
    (let L : Nat := 63;
     let s : State := stOf ((Dev.reset.setRegN (tetReg 63 .TET_LSTAT) (5 * 2 ^ 28)));
     let st := s.d.laneState L;
     (st = 1 ∨ st = 5)) ∧
    (let L : Nat := 63;
     let s : State := stOf ((Dev.reset.setRegN (tetReg 63 .TET_LSTAT) (2 * 2 ^ 28)));
     let st := s.d.laneState L;
     st ≠ 1 ∧ st ≠ 5) ∧
    (let L : Nat := 63;
     let s : State := stOf ((Dev.reset.setRegN (tetReg 63 .TET_LSTAT) (3 * 2 ^ 28)));
     let st := s.d.laneState L;
     (st = 2 ∨ st = 3)) ∧
    (let L : Nat := 63;
     let s : State := stOf ((Dev.reset.setRegN (tetReg 63 .TET_LSTAT) (4 * 2 ^ 28)));
     let st := s.d.laneState L;
     st = 4) ∧
    (let L : Nat := 63;
     let s : State := stOf ((Dev.reset.setRegN (tetReg 63 .TET_LSTAT) (8 * 2 ^ 28)));
     let st := s.d.laneState L;
     st = 8) ∧
    (let L : Nat := 63;
     let s : State := stOf ((Dev.reset.setRegN (tetReg 63 .TET_LSTAT) (1 * 2 ^ 28)));
     let st := s.d.laneState L;
     st ∉ [2, 3, 4, 8]) ∧
    (let L : Nat := 63;
     let s : State := stOf ((Dev.reset.setRegN (tetReg 63 .TET_LSTAT) (1 * 2 ^ 28)));
     let st := s.d.laneState L;
     st = 1) ∧
    (let L : Nat := 63;
     let s : State := stOf ((Dev.reset.setRegN (tetReg 63 .TET_LSTAT) (2 * 2 ^ 28)));
     let st := s.d.laneState L;
     st ≠ 1) ∧
    (let L : Nat := 63;
     let s : State := stOf ((Dev.reset.setRegN (tetReg 63 .TET_LSTAT) (2 * 2 ^ 28)));
     let st := s.d.laneState L;
     st = 2) ∧
    (let L : Nat := 63;
     let s : State := stOf ((Dev.reset.setRegN (tetReg 63 .TET_LSTAT) (3 * 2 ^ 28)));
     let st := s.d.laneState L;
     st ≠ 2) ∧
    (let L : Nat := 63;
     let s : State := stOf ((Dev.reset.setRegN (tetReg 63 .TET_LSTAT) (3 * 2 ^ 28)));
     let st := s.d.laneState L;
     (st = 2 ∨ st = 3)) ∧
    (let L : Nat := 63;
     let s : State := stOf ((Dev.reset.setRegN (tetReg 63 .TET_LSTAT) (4 * 2 ^ 28)));
     let st := s.d.laneState L;
     st ≠ 2 ∧ st ≠ 3) ∧
    (let L : Nat := 63;
     let s : State := stOf ((Dev.reset.setRegN (tetReg 63 .TET_LSTAT) (7 * 2 ^ 28)));
     let st := s.d.laneState L;
     (st = 5 ∨ st = 6 ∨ st = 7)) ∧
    (let L : Nat := 63;
     let s : State := stOf ((Dev.reset.setRegN (tetReg 63 .TET_LSTAT) (8 * 2 ^ 28)));
     let st := s.d.laneState L;
     st ≠ 5 ∧ st ≠ 6 ∧ st ≠ 7) ∧
    (let L : Nat := 63;
     let word : Nat := 0xA5 * 2 ^ 24;
     let s : State := stOf ((Dev.reset.setRegN (tetReg 63 .TET_LSTAT) (8 * 2 ^ 28)));
     let heard := (s.d.laneState L = 2 ∨ s.d.laneState L = 8) ∧ bitsOf word 31 24 = 0xA5;
     heard) ∧
    (let L : Nat := 63;
     let word : Nat := 0xA4 * 2 ^ 24;
     let s : State := stOf ((Dev.reset.setRegN (tetReg 63 .TET_LSTAT) (8 * 2 ^ 28)));
     let heard := (s.d.laneState L = 2 ∨ s.d.laneState L = 8) ∧ bitsOf word 31 24 = 0xA5;
     ¬ heard) ∧
    (let L : Nat := 63;
     let s : State := stOf ((Dev.reset.setRegN (tetReg 63 .TET_LSTAT) (7 * 2 ^ 28)));
     let st := s.d.laneState L;
     st ∉ [2, 3, 4, 8]) ∧
    (let L : Nat := 63;
     let hdr : Nat := 0x5A * 2 ^ 12;
     let n : Nat := 0;
     let corrupt : Bool := false;
     let s : State := stOf ((Dev.reset.setRegN (tetReg 63 .TET_LSTAT) (2 * 2 ^ 28)).setLane 63
       { Lane.zero with locked := true, run := 0, cwseq := 15 });
     let st := s.d.laneState L;
     let x := tetReg L .TET_FEC_CE;
     let d1 := if corrupt then s.d.bump (tetReg L .TET_FEC_UE) else s.d.setRegN x (satAdd (s.d.regN x) n 0xFFFFFFFF);
     let l := d1.lane L;
     let seq := bitsOf hdr 11 8;
     let want := (l.cwseq + 1) % 16;
     let valid := corrupt = false ∧ bitsOf hdr 19 12 = 0x5A;
     st ∈ [2, 3, 4, 8] ∧ l.locked = true ∧
     let fails := ¬ (valid ∧ seq = want);
     ¬ fails) ∧
    (let L : Nat := 63;
     let hdr : Nat := 0x5A * 2 ^ 12;
     let n : Nat := 0;
     let corrupt : Bool := false;
     let s : State := stOf ((Dev.reset.setRegN (tetReg 63 .TET_LSTAT) (3 * 2 ^ 28)).setLane 63
       { Lane.zero with locked := true, run := 6, cwseq := 0 });
     let st := s.d.laneState L;
     let x := tetReg L .TET_FEC_CE;
     let d1 := if corrupt then s.d.bump (tetReg L .TET_FEC_UE) else s.d.setRegN x (satAdd (s.d.regN x) n 0xFFFFFFFF);
     let l := d1.lane L;
     let seq := bitsOf hdr 11 8;
     let want := (l.cwseq + 1) % 16;
     let valid := corrupt = false ∧ bitsOf hdr 19 12 = 0x5A;
     st ∈ [2, 3, 4, 8] ∧ l.locked = true ∧
     let fails := ¬ (valid ∧ seq = want);
     fails ∧ l.run < 7) ∧
    (let L : Nat := 63;
     let hdr : Nat := 0x5A * 2 ^ 12;
     let n : Nat := 0;
     let corrupt : Bool := false;
     let s : State := stOf ((Dev.reset.setRegN (tetReg 63 .TET_LSTAT) (3 * 2 ^ 28)).setLane 63
       { Lane.zero with locked := true, run := 7, cwseq := 0 });
     let st := s.d.laneState L;
     let x := tetReg L .TET_FEC_CE;
     let d1 := if corrupt then s.d.bump (tetReg L .TET_FEC_UE) else s.d.setRegN x (satAdd (s.d.regN x) n 0xFFFFFFFF);
     let l := d1.lane L;
     let seq := bitsOf hdr 11 8;
     let want := (l.cwseq + 1) % 16;
     let valid := corrupt = false ∧ bitsOf hdr 19 12 = 0x5A;
     st ∈ [2, 3, 4, 8] ∧ l.locked = true ∧
     let fails := ¬ (valid ∧ seq = want);
     fails ∧ 7 ≤ l.run ∧ st = 3) ∧
    (let L : Nat := 63;
     let hdr : Nat := 0x5A * 2 ^ 12;
     let n : Nat := 0;
     let corrupt : Bool := true;
     let s : State := stOf ((Dev.reset.setRegN (tetReg 63 .TET_LSTAT) (4 * 2 ^ 28)).setLane 63
       { Lane.zero with locked := true, run := 7, cwseq := 15 });
     let st := s.d.laneState L;
     let x := tetReg L .TET_FEC_CE;
     let d1 := if corrupt then s.d.bump (tetReg L .TET_FEC_UE) else s.d.setRegN x (satAdd (s.d.regN x) n 0xFFFFFFFF);
     let l := d1.lane L;
     let seq := bitsOf hdr 11 8;
     let want := (l.cwseq + 1) % 16;
     let valid := corrupt = false ∧ bitsOf hdr 19 12 = 0x5A;
     st ∈ [2, 3, 4, 8] ∧ l.locked = true ∧
     let fails := ¬ (valid ∧ seq = want);
     fails ∧ 7 ≤ l.run ∧ st = 4) ∧
    (let L : Nat := 63;
     let hdr : Nat := 0x5A * 2 ^ 12;
     let n : Nat := 0;
     let corrupt : Bool := false;
     let s : State := stOf ((Dev.reset.setRegN (tetReg 63 .TET_LSTAT) (8 * 2 ^ 28)).setLane 63
       { Lane.zero with locked := true, run := 7, cwseq := 0 });
     let st := s.d.laneState L;
     let x := tetReg L .TET_FEC_CE;
     let d1 := if corrupt then s.d.bump (tetReg L .TET_FEC_UE) else s.d.setRegN x (satAdd (s.d.regN x) n 0xFFFFFFFF);
     let l := d1.lane L;
     let seq := bitsOf hdr 11 8;
     let want := (l.cwseq + 1) % 16;
     let valid := corrupt = false ∧ bitsOf hdr 19 12 = 0x5A;
     st ∈ [2, 3, 4, 8] ∧ l.locked = true ∧
     let fails := ¬ (valid ∧ seq = want);
     fails ∧ 7 ≤ l.run ∧ (st = 2 ∨ st = 8)) ∧
    (let L : Nat := 63;
     let hdr : Nat := 0x5A * 2 ^ 12;
     let n : Nat := 0;
     let corrupt : Bool := true;
     let s : State := stOf ((Dev.reset.setRegN (tetReg 63 .TET_LSTAT) (2 * 2 ^ 28)).setLane 63
       { Lane.zero with locked := false, run := 0, cwseq := 15 });
     let st := s.d.laneState L;
     let x := tetReg L .TET_FEC_CE;
     let d1 := if corrupt then s.d.bump (tetReg L .TET_FEC_UE) else s.d.setRegN x (satAdd (s.d.regN x) n 0xFFFFFFFF);
     let l := d1.lane L;
     let valid := corrupt = false ∧ bitsOf hdr 19 12 = 0x5A;
     st ∈ [2, 3, 4, 8] ∧ l.locked = false ∧ ¬ valid) ∧
    (let L : Nat := 63;
     let hdr : Nat := 0x5A * 2 ^ 12;
     let n : Nat := 0;
     let corrupt : Bool := false;
     let s : State := stOf ((Dev.reset.setRegN (tetReg 63 .TET_LSTAT) (2 * 2 ^ 28)).setLane 63
       { Lane.zero with locked := false, run := 1, cwseq := 14 });
     let st := s.d.laneState L;
     let x := tetReg L .TET_FEC_CE;
     let d1 := if corrupt then s.d.bump (tetReg L .TET_FEC_UE) else s.d.setRegN x (satAdd (s.d.regN x) n 0xFFFFFFFF);
     let l := d1.lane L;
     let seq := bitsOf hdr 11 8;
     let want := (l.cwseq + 1) % 16;
     let valid := corrupt = false ∧ bitsOf hdr 19 12 = 0x5A;
     st ∈ [2, 3, 4, 8] ∧ l.locked = false ∧ valid ∧ (l.run = 0 ∨ seq ≠ want)) ∧
    (let L : Nat := 63;
     let hdr : Nat := 0x5A * 2 ^ 12;
     let n : Nat := 0;
     let corrupt : Bool := false;
     let s : State := stOf ((Dev.reset.setRegN (tetReg 63 .TET_LSTAT) (2 * 2 ^ 28)).setLane 63
       { Lane.zero with locked := false, run := 1, cwseq := 15 });
     let st := s.d.laneState L;
     let x := tetReg L .TET_FEC_CE;
     let d1 := if corrupt then s.d.bump (tetReg L .TET_FEC_UE) else s.d.setRegN x (satAdd (s.d.regN x) n 0xFFFFFFFF);
     let l := d1.lane L;
     let seq := bitsOf hdr 11 8;
     let want := (l.cwseq + 1) % 16;
     let valid := corrupt = false ∧ bitsOf hdr 19 12 = 0x5A;
     st ∈ [2, 3, 4, 8] ∧ l.locked = false ∧ valid ∧ l.run = 1 ∧ seq = want) ∧
    (let L : Nat := 63;
     let hdr : Nat := 0x5A * 2 ^ 12;
     let n : Nat := 0;
     let corrupt : Bool := false;
     let s : State := stOf ((Dev.reset.setRegN (tetReg 63 .TET_LSTAT) (2 * 2 ^ 28)).setLane 63
       { Lane.zero with locked := false, run := 2, cwseq := 15 });
     let st := s.d.laneState L;
     let x := tetReg L .TET_FEC_CE;
     let d1 := if corrupt then s.d.bump (tetReg L .TET_FEC_UE) else s.d.setRegN x (satAdd (s.d.regN x) n 0xFFFFFFFF);
     let l := d1.lane L;
     let seq := bitsOf hdr 11 8;
     let want := (l.cwseq + 1) % 16;
     let valid := corrupt = false ∧ bitsOf hdr 19 12 = 0x5A;
     st ∈ [2, 3, 4, 8] ∧ l.locked = false ∧ valid ∧ l.run = 2 ∧ seq = want ∧ st = 2) ∧
    (let L : Nat := 63;
     let hdr : Nat := 0x5A * 2 ^ 12;
     let n : Nat := 0;
     let corrupt : Bool := false;
     let s : State := stOf ((Dev.reset.setRegN (tetReg 63 .TET_LSTAT) (8 * 2 ^ 28)).setLane 63
       { Lane.zero with locked := false, run := 2, cwseq := 15 });
     let st := s.d.laneState L;
     let x := tetReg L .TET_FEC_CE;
     let d1 := if corrupt then s.d.bump (tetReg L .TET_FEC_UE) else s.d.setRegN x (satAdd (s.d.regN x) n 0xFFFFFFFF);
     let l := d1.lane L;
     let seq := bitsOf hdr 11 8;
     let want := (l.cwseq + 1) % 16;
     let valid := corrupt = false ∧ bitsOf hdr 19 12 = 0x5A;
     st ∈ [2, 3, 4, 8] ∧ l.locked = false ∧ valid ∧ l.run = 2 ∧ seq = want ∧ st ≠ 2) := by
  refine ⟨?_, ?_, ?_, ?_, ?_, ?_, ?_, ?_, ?_, ?_, ?_, ?_, ?_, ?_, ?_, ?_, ?_, ?_, ?_, ?_, ?_, ?_, ?_, ?_, ?_, ?_, ?_, ?_, ?_, ?_, ?_,
    ?_⟩
  · try dsimp only
    refine ⟨?_, ?_, ?_⟩
    · decide +kernel
    · decide +kernel
    · decide +kernel
  · try dsimp only
    refine ⟨?_, ?_, ?_⟩
    · decide +kernel
    · decide +kernel
    · decide +kernel
  · try dsimp only
    refine ⟨?_, ?_, ?_⟩
    · decide +kernel
    · decide +kernel
    · decide +kernel
  · try dsimp only
    refine ⟨?_, ?_, ?_, ?_, ?_⟩
    · decide +kernel
    · decide +kernel
    · decide +kernel
    · decide +kernel
    · decide +kernel
  · try dsimp only
    refine ⟨?_, ?_, ?_, ?_⟩
    · decide +kernel
    · decide +kernel
    · decide +kernel
    · decide +kernel
  · try dsimp only
    decide +kernel
  · try dsimp only
    refine ⟨?_, ?_⟩
    · decide +kernel
    · decide +kernel
  · try dsimp only
    decide +kernel
  · try dsimp only
    decide +kernel
  · try dsimp only
    decide +kernel
  · try dsimp only
    decide +kernel
  · try dsimp only
    decide +kernel
  · try dsimp only
    decide +kernel
  · try dsimp only
    decide +kernel
  · try dsimp only
    decide +kernel
  · try dsimp only
    decide +kernel
  · try dsimp only
    refine ⟨?_, ?_⟩
    · decide +kernel
    · decide +kernel
  · try dsimp only
    decide +kernel
  · try dsimp only
    refine ⟨?_, ?_, ?_⟩
    · decide +kernel
    · decide +kernel
    · decide +kernel
  · try dsimp only
    decide +kernel
  · try dsimp only
    decide +kernel
  · try dsimp only
    decide +kernel
  · try dsimp only
    refine ⟨?_, ?_, ?_⟩
    · decide +kernel
    · decide +kernel
    · decide +kernel
  · try dsimp only
    refine ⟨?_, ?_, ?_, ?_⟩
    · decide +kernel
    · decide +kernel
    · decide +kernel
    · decide +kernel
  · try dsimp only
    refine ⟨?_, ?_, ?_, ?_, ?_⟩
    · decide +kernel
    · decide +kernel
    · decide +kernel
    · decide +kernel
    · decide +kernel
  · try dsimp only
    refine ⟨?_, ?_, ?_, ?_, ?_⟩
    · decide +kernel
    · decide +kernel
    · decide +kernel
    · decide +kernel
    · decide +kernel
  · try dsimp only
    refine ⟨?_, ?_, ?_, ?_, ?_⟩
    · decide +kernel
    · decide +kernel
    · decide +kernel
    · decide +kernel
    · decide +kernel
  · try dsimp only
    refine ⟨?_, ?_, ?_⟩
    · decide +kernel
    · decide +kernel
    · decide +kernel
  · try dsimp only
    refine ⟨?_, ?_, ?_, ?_⟩
    · decide +kernel
    · decide +kernel
    · decide +kernel
    · decide +kernel
  · try dsimp only
    refine ⟨?_, ?_, ?_, ?_, ?_⟩
    · decide +kernel
    · decide +kernel
    · decide +kernel
    · decide +kernel
    · decide +kernel
  · try dsimp only
    refine ⟨?_, ?_, ?_, ?_, ?_, ?_⟩
    · decide +kernel
    · decide +kernel
    · decide +kernel
    · decide +kernel
    · decide +kernel
    · decide +kernel
  · try dsimp only
    refine ⟨?_, ?_, ?_, ?_, ?_, ?_⟩
    · decide +kernel
    · decide +kernel
    · decide +kernel
    · decide +kernel
    · decide +kernel
    · decide +kernel

/-- What TetherUpDown asks of a state and of operands is met, case by case. -/
theorem witness_TetherUpDown :
    (let L : Nat := 63;
     let s : State := stOf ((Dev.reset.setRegN (tetReg 63 .TET_LSTAT) (8 * 2 ^ 28)).setLane 63 { Lane.zero with locked := true });
     let sends := s.d.laneState L = 3 ∨ (s.d.laneState L = 8 ∧ (s.d.lane L).locked = true);
     sends) ∧
    (let L : Nat := 63;
     let s : State := stOf ((Dev.reset.setRegN (tetReg 63 .TET_LSTAT) (4 * 2 ^ 28)).setLane 63 { Lane.zero with locked := true });
     let sends := s.d.laneState L = 3 ∨ (s.d.laneState L = 8 ∧ (s.d.lane L).locked = true);
     ¬ sends) ∧
    (let L : Nat := 63;
     let s : State := stOf ((Dev.reset.setRegN (tetReg 63 .TET_LSTAT) (2 * 2 ^ 28)));
     let st := s.d.laneState L;
     let hears := st = 3 ∨ st = 4 ∨ st = 8;
     ¬ hears) ∧
    (let L : Nat := 63;
     let bytes : List Byte := [];
     let clean : Bool := true;
     let s : State := stOf ((Dev.reset.setRegN (tetReg 63 .TET_LSTAT) (8 * 2 ^ 28)));
     let st := s.d.laneState L;
     let hears := st = 3 ∨ st = 4 ∨ st = 8;
     let whole := clean = true ∧ rxCrcOk bytes = true ∧ rxFormOk bytes = true;
     hears ∧ ¬ whole) ∧
    (let L : Nat := 63;
     let bytes : List Byte := flit (plain 3);
     let clean : Bool := true;
     let s : State := stOf ((Dev.reset.setRegN (tetReg 63 .TET_LSTAT) (4 * 2 ^ 28)));
     let st := s.d.laneState L;
     let hears := st = 3 ∨ st = 4 ∨ st = 8;
     let whole := clean = true ∧ rxCrcOk bytes = true ∧ rxFormOk bytes = true;
     hears ∧ whole ∧ rxN bytes 0 1 ≠ 6) ∧
    (let L : Nat := 63;
     let bytes : List Byte := flit (ident 0x50);
     let clean : Bool := true;
     let s : State := stOf ((Dev.reset.setRegN (tetReg 63 .TET_LSTAT) (3 * 2 ^ 28)));
     let st := s.d.laneState L;
     let hears := st = 3 ∨ st = 4 ∨ st = 8;
     let whole := clean = true ∧ rxCrcOk bytes = true ∧ rxFormOk bytes = true;
     let isIdent := hears ∧ whole ∧ rxN bytes 0 1 = 6;
     let p := (rxFlitOf bytes).payload;
     let c := identCheck p (getBits (s.d.reg (tetReg L .TET_LCFG)) 4 4);
     let ready := rxN p 7 1 % 2 = 1;
     isIdent ∧ st = 3 ∧ c = 0 ∧ ready) ∧
    (let L : Nat := 63;
     let bytes : List Byte := flit (identR 0);
     let clean : Bool := true;
     let s : State := stOf ((Dev.reset.setRegN (tetReg 63 .TET_LSTAT) (3 * 2 ^ 28)));
     let st := s.d.laneState L;
     let hears := st = 3 ∨ st = 4 ∨ st = 8;
     let whole := clean = true ∧ rxCrcOk bytes = true ∧ rxFormOk bytes = true;
     let isIdent := hears ∧ whole ∧ rxN bytes 0 1 = 6;
     let p := (rxFlitOf bytes).payload;
     let c := identCheck p (getBits (s.d.reg (tetReg L .TET_LCFG)) 4 4);
     let ready := rxN p 7 1 % 2 = 1;
     isIdent ∧ st = 3 ∧ c = 0 ∧ ¬ ready) ∧
    (let L : Nat := 63;
     let bytes : List Byte := flit (ident 0x51);
     let clean : Bool := true;
     let s : State := stOf ((Dev.reset.setRegN (tetReg 63 .TET_LSTAT) (3 * 2 ^ 28)));
     let st := s.d.laneState L;
     let hears := st = 3 ∨ st = 4 ∨ st = 8;
     let whole := clean = true ∧ rxCrcOk bytes = true ∧ rxFormOk bytes = true;
     let isIdent := hears ∧ whole ∧ rxN bytes 0 1 = 6;
     let p := (rxFlitOf bytes).payload;
     let c := identCheck p (getBits (s.d.reg (tetReg L .TET_LCFG)) 4 4);
     isIdent ∧ st = 3 ∧ c ≠ 0) ∧
    (let L : Nat := 63;
     let bytes : List Byte := flit (ident 0x50);
     let clean : Bool := true;
     let s : State := stOf ((Dev.reset.setRegN (tetReg 63 .TET_LSTAT) (4 * 2 ^ 28)));
     let st := s.d.laneState L;
     let hears := st = 3 ∨ st = 4 ∨ st = 8;
     let whole := clean = true ∧ rxCrcOk bytes = true ∧ rxFormOk bytes = true;
     let isIdent := hears ∧ whole ∧ rxN bytes 0 1 = 6;
     isIdent ∧ st = 4) ∧
    (let L : Nat := 63;
     let bytes : List Byte := flit (ident 0x50);
     let clean : Bool := true;
     let s : State := stOf ((Dev.reset.setRegN (tetReg 63 .TET_LSTAT) (8 * 2 ^ 28)));
     let st := s.d.laneState L;
     let l := s.d.lane L;
     let hears := st = 3 ∨ st = 4 ∨ st = 8;
     let whole := clean = true ∧ rxCrcOk bytes = true ∧ rxFormOk bytes = true;
     let isIdent := hears ∧ whole ∧ rxN bytes 0 1 = 6;
     let p := (rxFlitOf bytes).payload;
     let c := identCheck p (getBits (s.d.reg (tetReg L .TET_LCFG)) 4 4);
     isIdent ∧ st = 8 ∧ (l.locked = false ∨ c ≠ 0)) ∧
    (let L : Nat := 63;
     let bytes : List Byte := flit (ident 0x50);
     let clean : Bool := true;
     let s : State := stOf ((Dev.reset.setRegN (tetReg 63 .TET_LSTAT) (8 * 2 ^ 28)).setLane 63 { Lane.zero with locked := true });
     let st := s.d.laneState L;
     let l := s.d.lane L;
     let hears := st = 3 ∨ st = 4 ∨ st = 8;
     let whole := clean = true ∧ rxCrcOk bytes = true ∧ rxFormOk bytes = true;
     let isIdent := hears ∧ whole ∧ rxN bytes 0 1 = 6;
     let p := (rxFlitOf bytes).payload;
     let c := identCheck p (getBits (s.d.reg (tetReg L .TET_LCFG)) 4 4);
     let same := rxN p 7 1 / 4 % 2 = 1 ∧ rxN p 8 8 = s.d.regN (tetReg L .TET_BRID);
     isIdent ∧ st = 8 ∧ l.locked = true ∧ c = 0 ∧ ¬ same) ∧
    (let L : Nat := 63;
     let bytes : List Byte := flit (identR 5);
     let clean : Bool := true;
     let s : State := stOf ((Dev.reset.setRegN (tetReg 63 .TET_LSTAT) (8 * 2 ^ 28)).setLane 63 { Lane.zero with locked := true });
     let st := s.d.laneState L;
     let l := s.d.lane L;
     let hears := st = 3 ∨ st = 4 ∨ st = 8;
     let whole := clean = true ∧ rxCrcOk bytes = true ∧ rxFormOk bytes = true;
     let isIdent := hears ∧ whole ∧ rxN bytes 0 1 = 6;
     let p := (rxFlitOf bytes).payload;
     let c := identCheck p (getBits (s.d.reg (tetReg L .TET_LCFG)) 4 4);
     let ready := rxN p 7 1 % 2 = 1;
     let same := rxN p 7 1 / 4 % 2 = 1 ∧ rxN p 8 8 = s.d.regN (tetReg L .TET_BRID);
     isIdent ∧ st = 8 ∧ l.locked = true ∧ c = 0 ∧ same ∧ ready) ∧
    (let L : Nat := 63;
     let bytes : List Byte := flit (identR 4);
     let clean : Bool := true;
     let s : State := stOf ((Dev.reset.setRegN (tetReg 63 .TET_LSTAT) (8 * 2 ^ 28)).setLane 63 { Lane.zero with locked := true });
     let st := s.d.laneState L;
     let l := s.d.lane L;
     let hears := st = 3 ∨ st = 4 ∨ st = 8;
     let whole := clean = true ∧ rxCrcOk bytes = true ∧ rxFormOk bytes = true;
     let isIdent := hears ∧ whole ∧ rxN bytes 0 1 = 6;
     let p := (rxFlitOf bytes).payload;
     let c := identCheck p (getBits (s.d.reg (tetReg L .TET_LCFG)) 4 4);
     let ready := rxN p 7 1 % 2 = 1;
     let same := rxN p 7 1 / 4 % 2 = 1 ∧ rxN p 8 8 = s.d.regN (tetReg L .TET_BRID);
     isIdent ∧ st = 8 ∧ l.locked = true ∧ c = 0 ∧ same ∧ ¬ ready) ∧
    (let m : Mst := fw;
     let L : Nat := 63;
     let v : Nat := 2;
     let s : State := stOf ((Dev.reset.setRegN (tetReg 63 .TET_LSTAT) (4 * 2 ^ 28)));
     m.owner = true ∧
     let goes := v.testBit 1 = true ∧ s.d.laneState L = 4;
     goes) ∧
    (let m : Mst := fw;
     let L : Nat := 63;
     let v : Nat := 2;
     let s : State := stOf ((Dev.reset.setRegN (tetReg 63 .TET_LSTAT) (8 * 2 ^ 28)));
     m.owner = true ∧
     let goes := v.testBit 1 = true ∧ s.d.laneState L = 4;
     ¬ goes) ∧
    (let L : Nat := 63;
     let s : State := stOf ((Dev.reset.setRegN (tetReg 63 .TET_LSTAT) (8 * 2 ^ 28)));
     s.d.laneState L = 8) ∧
    (let L : Nat := 63;
     let s : State := stOf ((Dev.reset.setRegN (tetReg 63 .TET_LSTAT) (4 * 2 ^ 28)));
     s.d.laneState L ≠ 8) := by
  refine ⟨?_, ?_, ?_, ?_, ?_, ?_, ?_, ?_, ?_, ?_, ?_, ?_, ?_, ?_, ?_, ?_, ?_⟩
  · try dsimp only
    decide +kernel
  · try dsimp only
    decide +kernel
  · try dsimp only
    decide +kernel
  · try dsimp only
    refine ⟨?_, ?_⟩
    · decide +kernel
    · decide +kernel
  · have hl := plain_length 3
    have ht : rxN (plain 3) 0 1 < 0x80 := by decide +kernel
    try dsimp only
    simp only [rxCrcOk_flit _ hl ht, rxFormOk_flit _ hl, payload_flit _ hl ht, rxN_flit (plain 3) 0 1 (by omega),
      rxN_flit (plain 3) 8 2 (by omega), rxN_flit (plain 3) 10 2 (by omega), true_and, and_true]
    decide +kernel
  · have hl := ident_length 0x50
    have ht : rxN (ident 0x50) 0 1 < 0x80 := by decide +kernel
    try dsimp only
    simp only [rxCrcOk_flit _ hl ht, rxFormOk_flit _ hl, payload_flit _ hl ht, rxN_flit (ident 0x50) 0 1 (by omega),
      rxN_flit (ident 0x50) 8 2 (by omega), rxN_flit (ident 0x50) 10 2 (by omega), true_and, and_true]
    decide +kernel
  · have hl := identR_length 0
    have ht : rxN (identR 0) 0 1 < 0x80 := by decide +kernel
    try dsimp only
    simp only [rxCrcOk_flit _ hl ht, rxFormOk_flit _ hl, payload_flit _ hl ht, rxN_flit (identR 0) 0 1 (by omega),
      rxN_flit (identR 0) 8 2 (by omega), rxN_flit (identR 0) 10 2 (by omega), true_and, and_true]
    decide +kernel
  · have hl := ident_length 0x51
    have ht : rxN (ident 0x51) 0 1 < 0x80 := by decide +kernel
    try dsimp only
    simp only [rxCrcOk_flit _ hl ht, rxFormOk_flit _ hl, payload_flit _ hl ht, rxN_flit (ident 0x51) 0 1 (by omega),
      rxN_flit (ident 0x51) 8 2 (by omega), rxN_flit (ident 0x51) 10 2 (by omega), true_and, and_true]
    decide +kernel
  · have hl := ident_length 0x50
    have ht : rxN (ident 0x50) 0 1 < 0x80 := by decide +kernel
    try dsimp only
    simp only [rxCrcOk_flit _ hl ht, rxFormOk_flit _ hl, payload_flit _ hl ht, rxN_flit (ident 0x50) 0 1 (by omega),
      rxN_flit (ident 0x50) 8 2 (by omega), rxN_flit (ident 0x50) 10 2 (by omega), true_and, and_true]
    decide +kernel
  · have hl := ident_length 0x50
    have ht : rxN (ident 0x50) 0 1 < 0x80 := by decide +kernel
    try dsimp only
    simp only [rxCrcOk_flit _ hl ht, rxFormOk_flit _ hl, payload_flit _ hl ht, rxN_flit (ident 0x50) 0 1 (by omega),
      rxN_flit (ident 0x50) 8 2 (by omega), rxN_flit (ident 0x50) 10 2 (by omega), true_and, and_true]
    decide +kernel
  · have hl := ident_length 0x50
    have ht : rxN (ident 0x50) 0 1 < 0x80 := by decide +kernel
    try dsimp only
    simp only [rxCrcOk_flit _ hl ht, rxFormOk_flit _ hl, payload_flit _ hl ht, rxN_flit (ident 0x50) 0 1 (by omega),
      rxN_flit (ident 0x50) 8 2 (by omega), rxN_flit (ident 0x50) 10 2 (by omega), true_and, and_true]
    decide +kernel
  · have hl := identR_length 5
    have ht : rxN (identR 5) 0 1 < 0x80 := by decide +kernel
    try dsimp only
    simp only [rxCrcOk_flit _ hl ht, rxFormOk_flit _ hl, payload_flit _ hl ht, rxN_flit (identR 5) 0 1 (by omega),
      rxN_flit (identR 5) 8 2 (by omega), rxN_flit (identR 5) 10 2 (by omega), true_and, and_true]
    decide +kernel
  · have hl := identR_length 4
    have ht : rxN (identR 4) 0 1 < 0x80 := by decide +kernel
    try dsimp only
    simp only [rxCrcOk_flit _ hl ht, rxFormOk_flit _ hl, payload_flit _ hl ht, rxN_flit (identR 4) 0 1 (by omega),
      rxN_flit (identR 4) 8 2 (by omega), rxN_flit (identR 4) 10 2 (by omega), true_and, and_true]
    decide +kernel
  · try dsimp only
    refine ⟨?_, ?_⟩
    · decide +kernel
    · decide +kernel
  · try dsimp only
    refine ⟨?_, ?_⟩
    · decide +kernel
    · decide +kernel
  · try dsimp only
    decide +kernel
  · try dsimp only
    decide +kernel

/-- What TetherFlits asks of a state and of operands is met, case by case. -/
theorem witness_TetherFlits :
    (let L : Nat := 63;
     let kk : Nat := 7;
     let g : OutGrp := ⟨4607, 7, 0, [], false, none⟩;
     let s : State := stOf (((Dev.reset.setRegN (tetReg 63 .TET_LSTAT) (4 * 2 ^ 28)).setReg (tetReg 63 .TET_CHINFO 7) (BitVec.ofNat 64 (2 ^
       40 + 2 ^ 32))).setLane 63 { Lane.zero with outq := [⟨4607, 7, 0, [], false, none⟩] });
     let group := (s.d.lane L).outq.find? (fun y => decide (y.chan = kk));
     let may := s.d.sysHalt = false ∧ s.d.canSend L = true ∧ s.d.credits L kk 0 ≠ 0;
     group = some g ∧ may ∧ g.conf = none) ∧
    (let L : Nat := 63;
     let kk : Nat := 7;
     let g : OutGrp := ⟨4607, 7, 0, [], false, (some 31)⟩;
     let u : Nat := 31;
     let c : MCtx := ⟨[1 + 0x37 * 2 ^ 16, 0], none, 1, 0, 0, .hold, 0, 0, 0, false, none, none, none, 0, 0, 0, 0, 0, false, [], false,
       false⟩;
     let s : State := stOf
       ({ (((Dev.reset.setRegN (tetReg 63 .TET_LSTAT) (4 * 2 ^ 28)).setReg (tetReg 63 .TET_CHINFO 7) (BitVec.ofNat 64 (2 ^ 40 + 2 ^ 32))).setLane 63 { Lane.zero with outq := [⟨4607, 7, 0, [], false, (some 31)⟩] }) with mch := nset MChan.zero [] 575 { MChan.zero with ctxs := [(7, some ⟨[1 + 0x37 * 2 ^ 16, 0], none, 1, 0, 0, .hold, 0, 0, 0, false, none, none, none, 0, 0, 0, 0, 0, false, [], false, false⟩)] } });
     let group := (s.d.lane L).outq.find? (fun y => decide (y.chan = kk));
     let may := s.d.sysHalt = false ∧ s.d.canSend L = true ∧ s.d.credits L kk 0 ≠ 0;
     group = some g ∧ may ∧
     let l := s.d.lane L;
     let ch := 64 + 8 * L + kk;
     let tag := nextTag (s.d.mchan ch).tag;
     let wpn := s.d.flag F.MSQ_CHCTRL_WPN (mediaPlace ch).1 (mediaPlace ch).2;
     let payload := leBytes (recGroup g.ce g.recs.length wpn g.hold) 16 ++ g.recs.flatMap (fun r => leBytes r.1 16);
     let datas := g.recs.filter (fun r => recIsData r.1);
     let w : List WOut := (datas.zip (upTo datas.length)).filterMap (fun p => if p.1.1 % 256 = 4 then some ⟨kk, tag, p.2, ch * 0x40000 +
       p.1.2, bitsOf p.1.1 63 32, 0, false⟩ else none);
     let l1 : Lane :=
       { l with outq := l.outq.eraseP (fun y => decide (y.chan = kk)), wq := l.wq ++ w, unans := l.unans ++ [⟨some g.key, kk, tag, datas.map (fun r => ch * 0x40000 + r.2)⟩] };
     let d1 := ((s.d.setLane L l1).setMchan ch { s.d.mchan ch with tag := tag }).setCredits L kk 0 (s.d.credits L kk 0 - 1);
     let d2 := d1.txSeqFlit L ⟨0, 1, 0, kk, tag, 0, payload.length, payload⟩;
     g.conf = some u ∧ (d2.confirm s.clk.tick ch u).mctx ch (g.key % 8) = some c) ∧
    (let L : Nat := 63;
     let kk : Nat := 7;
     let g : OutGrp := ⟨4607, 7, 0, [], false, (some 31)⟩;
     let u : Nat := 31;
     let s : State := stOf (((Dev.reset.setRegN (tetReg 63 .TET_LSTAT) (4 * 2 ^ 28)).setReg (tetReg 63 .TET_CHINFO 7) (BitVec.ofNat 64 (2 ^
       40 + 2 ^ 32))).setLane 63 { Lane.zero with outq := [⟨4607, 7, 0, [], false, (some 31)⟩] });
     let group := (s.d.lane L).outq.find? (fun y => decide (y.chan = kk));
     let may := s.d.sysHalt = false ∧ s.d.canSend L = true ∧ s.d.credits L kk 0 ≠ 0;
     group = some g ∧ may ∧
     let l := s.d.lane L;
     let ch := 64 + 8 * L + kk;
     let tag := nextTag (s.d.mchan ch).tag;
     let wpn := s.d.flag F.MSQ_CHCTRL_WPN (mediaPlace ch).1 (mediaPlace ch).2;
     let payload := leBytes (recGroup g.ce g.recs.length wpn g.hold) 16 ++ g.recs.flatMap (fun r => leBytes r.1 16);
     let datas := g.recs.filter (fun r => recIsData r.1);
     let w : List WOut := (datas.zip (upTo datas.length)).filterMap (fun p => if p.1.1 % 256 = 4 then some ⟨kk, tag, p.2, ch * 0x40000 +
       p.1.2, bitsOf p.1.1 63 32, 0, false⟩ else none);
     let l1 : Lane :=
       { l with outq := l.outq.eraseP (fun y => decide (y.chan = kk)), wq := l.wq ++ w, unans := l.unans ++ [⟨some g.key, kk, tag, datas.map (fun r => ch * 0x40000 + r.2)⟩] };
     let d1 := ((s.d.setLane L l1).setMchan ch { s.d.mchan ch with tag := tag }).setCredits L kk 0 (s.d.credits L kk 0 - 1);
     let d2 := d1.txSeqFlit L ⟨0, 1, 0, kk, tag, 0, payload.length, payload⟩;
     g.conf = some u ∧ (d2.confirm s.clk.tick ch u).mctx ch (g.key % 8) = none) ∧
    (let L : Nat := 63;
     let kk : Nat := 7;
     let s : State := stOf (((Dev.reset.setRegN (tetReg 63 .TET_LSTAT) (4 * 2 ^ 28)).setReg (tetReg 63 .TET_CHINFO 7) (BitVec.ofNat 64 (2 ^
       40 + 2 ^ 32))));
     let group := (s.d.lane L).outq.find? (fun y => decide (y.chan = kk));
     let may := s.d.sysHalt = false ∧ s.d.canSend L = true ∧ s.d.credits L kk 0 ≠ 0;
     (group = none ∨ ¬ may)) ∧
    (let L : Nat := 63;
     let kk : Nat := 7;
     let w : WOut := ⟨7, 0, 0, 0, 1024, 0, false⟩;
     let s : State := stOf (((Dev.reset.setRegN (tetReg 63 .TET_LSTAT) (4 * 2 ^ 28)).setReg (tetReg 63 .TET_CHINFO 7) (BitVec.ofNat 64 (2 ^
       40 + 2 ^ 32))).setLane 63 { Lane.zero with wq := [⟨7, 0, 0, 0, 1024, 0, false⟩] });
     let next := (s.d.lane L).wq.find? (fun y => decide (y.chan = kk));
     let may := s.d.canSend L = true ∧ s.d.credits L kk 1 ≠ 0;
     next = some w ∧ may) ∧
    (let L : Nat := 63;
     let kk : Nat := 7;
     let s : State := stOf (((Dev.reset.setRegN (tetReg 63 .TET_LSTAT) (4 * 2 ^ 28)).setReg (tetReg 63 .TET_CHINFO 7) (BitVec.ofNat 64 (2 ^
       40 + 2 ^ 32))));
     let next := (s.d.lane L).wq.find? (fun y => decide (y.chan = kk));
     let may := s.d.canSend L = true ∧ s.d.credits L kk 1 ≠ 0;
     (next = none ∨ ¬ may)) ∧
    (let L : Nat := 63;
     let bytes : List Byte := flit (plain 3);
     let t : Nat := 3;
     let s : State := stOf ((Dev.reset.setRegN (tetReg 63 .TET_LSTAT) (4 * 2 ^ 28)));
     (t = 3 ∨ t = 4) ∧ goodFlit s.d L t bytes ∧ inOrder s.d L bytes) ∧
    (let L : Nat := 63;
     let bytes : List Byte := flit (plain 4);
     let t : Nat := 4;
     let s : State := stOf ((Dev.reset.setRegN (tetReg 63 .TET_LSTAT) (8 * 2 ^ 28)).setLane 63 { Lane.zero with rxNext := 2048 });
     let x := acked s.d L bytes;
     let behind := 2048 ≤ (rxN bytes 8 2 % 4096 + 4096 - (x.lane L).rxNext) % 4096;
     (t = 3 ∨ t = 4) ∧ goodFlit s.d L t bytes ∧ ¬ inOrder s.d L bytes ∧ behind) ∧
    (let L : Nat := 63;
     let bytes : List Byte := flit (plain 3);
     let t : Nat := 3;
     let s : State := stOf ((Dev.reset.setRegN (tetReg 63 .TET_LSTAT) (8 * 2 ^ 28)).setLane 63 { Lane.zero with rxNext := 2049 });
     let x := acked s.d L bytes;
     let behind := 2048 ≤ (rxN bytes 8 2 % 4096 + 4096 - (x.lane L).rxNext) % 4096;
     (t = 3 ∨ t = 4) ∧ goodFlit s.d L t bytes ∧ ¬ inOrder s.d L bytes ∧ ¬ behind) ∧
    (let L : Nat := 63;
     let bytes : List Byte := flit (0x80 :: 1 :: 7 :: List.replicate 13 0);
     let s : State := stOf ((Dev.reset.setRegN (tetReg 63 .TET_LSTAT) (8 * 2 ^ 28)));
     let k := rxN bytes 2 1;
     let vc := rxN bytes 1 1 % 4;
     goodFlit s.d L 0x80 bytes ∧ k < 8 ∧ vc < 2) ∧
    (let L : Nat := 63;
     let bytes : List Byte := flit (0x80 :: 2 :: 7 :: List.replicate 13 0);
     let s : State := stOf ((Dev.reset.setRegN (tetReg 63 .TET_LSTAT) (8 * 2 ^ 28)));
     let k := rxN bytes 2 1;
     let vc := rxN bytes 1 1 % 4;
     goodFlit s.d L 0x80 bytes ∧ (8 ≤ k ∨ 2 ≤ vc)) ∧
    (let L : Nat := 63;
     let bytes : List Byte := flit (0x81 :: 0 :: 0 :: List.replicate 13 0);
     let s : State := stOf ((Dev.reset.setRegN (tetReg 63 .TET_LSTAT) (4 * 2 ^ 28)));
     let x := acked s.d L bytes;
     goodFlit s.d L 0x81 bytes ∧ x.laneState L = 4) ∧
    (let L : Nat := 63;
     let bytes : List Byte := flit (0x81 :: 0 :: 0 :: List.replicate 13 0);
     let s : State := stOf ((Dev.reset.setRegN (tetReg 63 .TET_LSTAT) (8 * 2 ^ 28)));
     let x := acked s.d L bytes;
     goodFlit s.d L 0x81 bytes ∧ x.laneState L ≠ 4) ∧
    (let L : Nat := 63;
     let bytes : List Byte := flit (0x82 :: 0 :: 0 :: List.replicate 13 0);
     let s : State := stOf ((Dev.reset.setRegN (tetReg 63 .TET_LSTAT) (4 * 2 ^ 28)));
     let x := acked s.d L bytes;
     goodFlit s.d L 0x82 bytes ∧ x.laneState L = 4) ∧
    (let L : Nat := 63;
     let bytes : List Byte := flit (0x82 :: 0 :: 0 :: List.replicate 13 0);
     let s : State := stOf ((Dev.reset.setRegN (tetReg 63 .TET_LSTAT) (8 * 2 ^ 28)));
     let x := acked s.d L bytes;
     goodFlit s.d L 0x82 bytes ∧ x.laneState L ≠ 4) ∧
    (let L : Nat := 63;
     let s : State := stOf ((Dev.reset.setRegN (tetReg 63 .TET_LSTAT) (3 * 2 ^ 28)));
     let st := s.d.laneState L;
     let hears := st = 4 ∨ st = 8;
     ¬ hears) ∧
    (let L : Nat := 63;
     let bytes : List Byte := [];
     let clean : Bool := true;
     let s : State := stOf ((Dev.reset.setRegN (tetReg 63 .TET_LSTAT) (8 * 2 ^ 28)));
     let st := s.d.laneState L;
     let hears := st = 4 ∨ st = 8;
     let ok := clean = true ∧ rxCrcOk bytes = true;
     hears ∧ ¬ ok) ∧
    (let L : Nat := 63;
     let bytes : List Byte := flit (badForm 3);
     let clean : Bool := true;
     let s : State := stOf ((Dev.reset.setRegN (tetReg 63 .TET_LSTAT) (8 * 2 ^ 28)));
     let st := s.d.laneState L;
     let hears := st = 4 ∨ st = 8;
     let t := rxN bytes 0 1;
     let ok := clean = true ∧ rxCrcOk bytes = true;
     hears ∧ ok ∧ rxFormOk bytes = false ∧ isSequenced t = true) ∧
    (let L : Nat := 63;
     let bytes : List Byte := flit (0x80 :: 16 :: 0 :: List.replicate 13 0);
     let clean : Bool := true;
     let s : State := stOf ((Dev.reset.setRegN (tetReg 63 .TET_LSTAT) (8 * 2 ^ 28)));
     let st := s.d.laneState L;
     let hears := st = 4 ∨ st = 8;
     let t := rxN bytes 0 1;
     let ok := clean = true ∧ rxCrcOk bytes = true;
     hears ∧ ok ∧ rxFormOk bytes = false ∧ isSequenced t = false) ∧
    (let L : Nat := 63;
     let bytes : List Byte := flit (0x81 :: 0 :: 0 :: List.replicate 13 0);
     let clean : Bool := true;
     let s : State := stOf ((Dev.reset.setRegN (tetReg 63 .TET_LSTAT) (8 * 2 ^ 28)));
     let st := s.d.laneState L;
     let hears := st = 4 ∨ st = 8;
     let t := rxN bytes 0 1;
     let ok := clean = true ∧ rxCrcOk bytes = true;
     let good := hears ∧ ok ∧ rxFormOk bytes = true;
     good ∧ t ≠ 3) ∧
    (let L : Nat := 63;
     let bytes : List Byte := flit (0x81 :: 0 :: 0 :: List.replicate 13 0);
     let clean : Bool := true;
     let s : State := stOf ((Dev.reset.setRegN (tetReg 63 .TET_LSTAT) (8 * 2 ^ 28)));
     let st := s.d.laneState L;
     let hears := st = 4 ∨ st = 8;
     let t := rxN bytes 0 1;
     let ok := clean = true ∧ rxCrcOk bytes = true;
     let good := hears ∧ ok ∧ rxFormOk bytes = true;
     good ∧ t ≠ 4) ∧
    (let L : Nat := 63;
     let bytes : List Byte := flit (0x81 :: 0 :: 0 :: List.replicate 13 0);
     let clean : Bool := true;
     let s : State := stOf ((Dev.reset.setRegN (tetReg 63 .TET_LSTAT) (8 * 2 ^ 28)));
     let st := s.d.laneState L;
     let hears := st = 4 ∨ st = 8;
     let t := rxN bytes 0 1;
     let ok := clean = true ∧ rxCrcOk bytes = true;
     let good := hears ∧ ok ∧ rxFormOk bytes = true;
     good ∧ t ≠ 5) ∧
    (let L : Nat := 63;
     let bytes : List Byte := flit (0x81 :: 0 :: 0 :: List.replicate 13 0);
     let clean : Bool := true;
     let s : State := stOf ((Dev.reset.setRegN (tetReg 63 .TET_LSTAT) (8 * 2 ^ 28)));
     let st := s.d.laneState L;
     let hears := st = 4 ∨ st = 8;
     let t := rxN bytes 0 1;
     let ok := clean = true ∧ rxCrcOk bytes = true;
     let good := hears ∧ ok ∧ rxFormOk bytes = true;
     good ∧ t ≠ 0x80) ∧
    (let L : Nat := 63;
     let bytes : List Byte := flit (0x82 :: 0 :: 0 :: List.replicate 13 0);
     let clean : Bool := true;
     let s : State := stOf ((Dev.reset.setRegN (tetReg 63 .TET_LSTAT) (4 * 2 ^ 28)));
     let st := s.d.laneState L;
     let hears := st = 4 ∨ st = 8;
     let t := rxN bytes 0 1;
     let ok := clean = true ∧ rxCrcOk bytes = true;
     let good := hears ∧ ok ∧ rxFormOk bytes = true;
     good ∧ t ≠ 0x81) ∧
    (let L : Nat := 63;
     let bytes : List Byte := flit (0x81 :: 0 :: 0 :: List.replicate 13 0);
     let clean : Bool := true;
     let s : State := stOf ((Dev.reset.setRegN (tetReg 63 .TET_LSTAT) (8 * 2 ^ 28)));
     let st := s.d.laneState L;
     let hears := st = 4 ∨ st = 8;
     let t := rxN bytes 0 1;
     let ok := clean = true ∧ rxCrcOk bytes = true;
     let good := hears ∧ ok ∧ rxFormOk bytes = true;
     good ∧ t ≠ 0x82) ∧
    (let L : Nat := 63;
     let s : State := stOf ((Dev.reset.setRegN (tetReg 63 .TET_LSTAT) (4 * 2 ^ 28)));
     let up := s.d.laneState L = 4;
     up) ∧
    (let L : Nat := 63;
     let s : State := stOf ((Dev.reset.setRegN (tetReg 63 .TET_LSTAT) (8 * 2 ^ 28)));
     let up := s.d.laneState L = 4;
     ¬ up) ∧
    (let L : Nat := 63;
     let s : State := stOf ((Dev.reset.setRegN (tetReg 63 .TET_LSTAT) (4 * 2 ^ 28)).setLane 63 { Lane.zero with accr := nset 0 [] 15 1 });
     let up := s.d.laneState L = 4;
     let accr := (s.d.lane L).accr;
     up ∧ accr ≠ []) ∧
    (let L : Nat := 63;
     let s : State := stOf ((Dev.reset.setRegN (tetReg 63 .TET_LSTAT) (4 * 2 ^ 28)).setLane 63 { Lane.zero with ackDue := true });
     let up := s.d.laneState L = 4;
     let accr := (s.d.lane L).accr;
     up ∧ accr = [] ∧ (s.d.lane L).ackDue = true) ∧
    (let L : Nat := 63;
     let s : State := stOf ((Dev.reset.setRegN (tetReg 63 .TET_LSTAT) (4 * 2 ^ 28)));
     let up := s.d.laneState L = 4;
     let accr := (s.d.lane L).accr;
     up ∧ accr = [] ∧ (s.d.lane L).ackDue = false) := by
  refine ⟨?_, ?_, ?_, ?_, ?_, ?_, ?_, ?_, ?_, ?_, ?_, ?_, ?_, ?_, ?_, ?_, ?_, ?_, ?_, ?_, ?_, ?_, ?_, ?_, ?_, ?_, ?_, ?_, ?_, ?_⟩
  · try dsimp only
    refine ⟨?_, ?_, ?_⟩
    · decide +kernel
    · decide +kernel
    · decide +kernel
  · try dsimp only
    refine ⟨?_, ?_, ?_, ?_⟩
    · decide +kernel
    · decide +kernel
    · decide +kernel
    · decide +kernel
  · try dsimp only
    refine ⟨?_, ?_, ?_, ?_⟩
    · decide +kernel
    · decide +kernel
    · decide +kernel
    · decide +kernel
  · try dsimp only
    decide +kernel
  · try dsimp only
    refine ⟨?_, ?_⟩
    · decide +kernel
    · decide +kernel
  · try dsimp only
    decide +kernel
  · have hl := plain_length 3
    have ht : rxN (plain 3) 0 1 < 0x80 := by decide +kernel
    try dsimp only
    unfold inOrder goodFlit acked
    simp only [rxCrcOk_flit _ hl ht, rxFormOk_flit _ hl, payload_flit _ hl ht, rxN_flit (plain 3) 0 1 (by omega),
      rxN_flit (plain 3) 8 2 (by omega), rxN_flit (plain 3) 10 2 (by omega), true_and, and_true]
    decide +kernel
  · have hl := plain_length 4
    have ht : rxN (plain 4) 0 1 < 0x80 := by decide +kernel
    try dsimp only
    unfold inOrder goodFlit acked
    simp only [rxCrcOk_flit _ hl ht, rxFormOk_flit _ hl, payload_flit _ hl ht, rxN_flit (plain 4) 0 1 (by omega),
      rxN_flit (plain 4) 8 2 (by omega), rxN_flit (plain 4) 10 2 (by omega), true_and, and_true]
    decide +kernel
  · have hl := plain_length 3
    have ht : rxN (plain 3) 0 1 < 0x80 := by decide +kernel
    try dsimp only
    unfold inOrder goodFlit acked
    simp only [rxCrcOk_flit _ hl ht, rxFormOk_flit _ hl, payload_flit _ hl ht, rxN_flit (plain 3) 0 1 (by omega),
      rxN_flit (plain 3) 8 2 (by omega), rxN_flit (plain 3) 10 2 (by omega), true_and, and_true]
    decide +kernel
  · try dsimp only
    refine ⟨?_, ?_, ?_⟩
    · exact ⟨by decide +kernel, by decide +kernel, by decide +kernel, by decide +kernel⟩
    · decide +kernel
    · decide +kernel
  · try dsimp only
    refine ⟨?_, ?_⟩
    · exact ⟨by decide +kernel, by decide +kernel, by decide +kernel, by decide +kernel⟩
    · decide +kernel
  · try dsimp only
    refine ⟨?_, ?_⟩
    · exact ⟨by decide +kernel, by decide +kernel, by decide +kernel, by decide +kernel⟩
    · decide +kernel
  · try dsimp only
    refine ⟨?_, ?_⟩
    · exact ⟨by decide +kernel, by decide +kernel, by decide +kernel, by decide +kernel⟩
    · decide +kernel
  · try dsimp only
    refine ⟨?_, ?_⟩
    · exact ⟨by decide +kernel, by decide +kernel, by decide +kernel, by decide +kernel⟩
    · decide +kernel
  · try dsimp only
    refine ⟨?_, ?_⟩
    · exact ⟨by decide +kernel, by decide +kernel, by decide +kernel, by decide +kernel⟩
    · decide +kernel
  · try dsimp only
    decide +kernel
  · try dsimp only
    refine ⟨?_, ?_⟩
    · decide +kernel
    · decide +kernel
  · have hl := badForm_length 3
    have ht : rxN (badForm 3) 0 1 < 0x80 := by decide +kernel
    try dsimp only
    simp only [rxCrcOk_flit _ hl ht, rxFormOk_flit _ hl, payload_flit _ hl ht, rxN_flit (badForm 3) 0 1 (by omega),
      rxN_flit (badForm 3) 8 2 (by omega), rxN_flit (badForm 3) 10 2 (by omega), true_and, and_true]
    decide +kernel
  · try dsimp only
    refine ⟨?_, ?_, ?_, ?_⟩
    · decide +kernel
    · decide +kernel
    · decide +kernel
    · decide +kernel
  · try dsimp only
    refine ⟨?_, ?_⟩
    · decide +kernel
    · decide +kernel
  · try dsimp only
    refine ⟨?_, ?_⟩
    · decide +kernel
    · decide +kernel
  · try dsimp only
    refine ⟨?_, ?_⟩
    · decide +kernel
    · decide +kernel
  · try dsimp only
    refine ⟨?_, ?_⟩
    · decide +kernel
    · decide +kernel
  · try dsimp only
    refine ⟨?_, ?_⟩
    · decide +kernel
    · decide +kernel
  · try dsimp only
    refine ⟨?_, ?_⟩
    · decide +kernel
    · decide +kernel
  · try dsimp only
    decide +kernel
  · try dsimp only
    decide +kernel
  · try dsimp only
    refine ⟨?_, ?_⟩
    · decide +kernel
    · decide +kernel
  · try dsimp only
    refine ⟨?_, ?_, ?_⟩
    · decide +kernel
    · decide +kernel
    · decide +kernel
  · try dsimp only
    refine ⟨?_, ?_, ?_⟩
    · decide +kernel
    · decide +kernel
    · decide +kernel

/-- What TetherManagement asks of a state and of operands is met, case by case. -/
theorem witness_TetherManagement :
    (let m : Mst := fw;
     let v : Nat := 2 ^ 31 - 1;
     m.owner = true ∧
     let go := v.testBit 31 = true;
     ¬ go) ∧
    (let m : Mst := fw;
     let L : Nat := 63;
     let v : Nat := 2 ^ 31 + 1024;
     let s : State := stOf (((Dev.reset.setRegN (tetReg 63 .TET_LSTAT) (4 * 2 ^ 28)).setRegN (tetReg 63 .TET_MSTAT) (2 ^ 31)));
     m.owner = true ∧
     let go := v.testBit 31 = true;
     let busy := s.d.mgmtBusy L = true;
     go ∧ busy) ∧
    (let m : Mst := fw;
     let L : Nat := 63;
     let v : Nat := 2 ^ 31 + 1025;
     let s : State := stOf ((Dev.reset.setRegN (tetReg 63 .TET_LSTAT) (4 * 2 ^ 28)));
     m.owner = true ∧
     let go := v.testBit 31 = true;
     let busy := s.d.mgmtBusy L = true;
     let len := v % 2048;
     let fits := len ≠ 0 ∧ len ≤ 1024;
     go ∧ ¬ busy ∧ ¬ fits) ∧
    (let m : Mst := fw;
     let L : Nat := 63;
     let v : Nat := 2 ^ 31 + 1024;
     let s : State := stOf ((Dev.reset.setRegN (tetReg 63 .TET_LSTAT) (8 * 2 ^ 28)));
     m.owner = true ∧
     let go := v.testBit 31 = true;
     let busy := s.d.mgmtBusy L = true;
     let len := v % 2048;
     let fits := len ≠ 0 ∧ len ≤ 1024;
     go ∧ ¬ busy ∧ fits ∧ s.d.laneState L ≠ 4) ∧
    (let m : Mst := fw;
     let L : Nat := 63;
     let v : Nat := 2 ^ 31 + 1024;
     let s : State := stOf ((((Dev.reset.setFld F.PWR_DOM_CUR 2 0 17).setFld F.PWR_DOM_CUR 2 0 18).setRegN (tetReg 63 .TET_LSTAT) (4 * 2 ^
       28)));
     m.owner = true ∧
     let go := v.testBit 31 = true;
     let busy := s.d.mgmtBusy L = true;
     let len := v % 2048;
     let fits := len ≠ 0 ∧ len ≤ 1024;
     let r := s.d.readBlock (mMid (64 + 8 * L)) (s.d.regN (tetReg L .TET_MADDR)) len 4;
     go ∧ ¬ busy ∧ fits ∧ s.d.laneState L = 4 ∧ r.2 = none) ∧
    (let m : Mst := fw;
     let L : Nat := 0;
     let v : Nat := 2 ^ 31 + 512;
     let b : List Byte := (stOf ((Dev.reset.setRegN (R.SCC_CFG.at 0) 0).setRegN (tetReg 0 .TET_LSTAT) (4 * 2 ^ 28))).d.bytes 0 512;
     let s : State := stOf (((Dev.reset.setRegN (R.SCC_CFG.at 0) 0).setRegN (tetReg 0 .TET_LSTAT) (4 * 2 ^ 28)));
     m.owner = true ∧
     let go := v.testBit 31 = true;
     let busy := s.d.mgmtBusy L = true;
     let len := v % 2048;
     let fits := len ≠ 0 ∧ len ≤ 1024;
     let r := s.d.readBlock (mMid (64 + 8 * L)) (s.d.regN (tetReg L .TET_MADDR)) len 4;
     go ∧ ¬ busy ∧ fits ∧ s.d.laneState L = 4 ∧ r.2 = some b) ∧
    (let L : Nat := 0;
     let bytes : List Byte := flit (plain 5);
     let s : State := stOf ((((Dev.reset.setRegN (R.SCC_CFG.at 0) 0).setRegN (tetReg 0 .TET_LSTAT) (4 * 2 ^ 28)).setRegN (tetReg 0
       .TET_MSTAT) (2 ^ 31)));
     goodFlit s.d L 5 bytes ∧
     let y := accepted s.d L bytes;
     let f := rxFlitOf bytes;
     let w := y.writeBlock (mMid (64 + 8 * L)) (y.regN (tetReg L .TET_MRADDR)) (f.payload.take 1024) 4;
     inOrder s.d L bytes ∧ y.mgmtBusy L = true ∧ w.2 = true) ∧
    (let L : Nat := 63;
     let bytes : List Byte := flit (plain 5);
     let s : State := stOf (((((Dev.reset.setFld F.PWR_DOM_CUR 2 0 17).setFld F.PWR_DOM_CUR 2 0 18).setRegN (tetReg 63 .TET_LSTAT) (4 * 2 ^
       28)).setRegN (tetReg 63 .TET_MSTAT) (2 ^ 31)).setLane 63 { Lane.zero with everUp := true });
     goodFlit s.d L 5 bytes ∧
     let y := accepted s.d L bytes;
     let f := rxFlitOf bytes;
     let w := y.writeBlock (mMid (64 + 8 * L)) (y.regN (tetReg L .TET_MRADDR)) (f.payload.take 1024) 4;
     inOrder s.d L bytes ∧ y.mgmtBusy L = true ∧ w.2 = false) ∧
    (let L : Nat := 63;
     let bytes : List Byte := flit (plain 5);
     let s : State := stOf ((Dev.reset.setRegN (tetReg 63 .TET_LSTAT) (4 * 2 ^ 28)));
     goodFlit s.d L 5 bytes ∧
     let y := accepted s.d L bytes;
     inOrder s.d L bytes ∧ y.mgmtBusy L = false) ∧
    (let L : Nat := 63;
     let bytes : List Byte := flit (plain 5);
     let s : State := stOf ((Dev.reset.setRegN (tetReg 63 .TET_LSTAT) (4 * 2 ^ 28)).setLane 63 { Lane.zero with rxNext := 2048 });
     goodFlit s.d L 5 bytes ∧
     let x := acked s.d L bytes;
     let behind := 2048 ≤ (rxN bytes 8 2 % 4096 + 4096 - (x.lane L).rxNext) % 4096;
     ¬ inOrder s.d L bytes ∧ behind) ∧
    (let L : Nat := 63;
     let bytes : List Byte := flit (plain 5);
     let s : State := stOf ((Dev.reset.setRegN (tetReg 63 .TET_LSTAT) (4 * 2 ^ 28)).setLane 63 { Lane.zero with rxNext := 2049 });
     goodFlit s.d L 5 bytes ∧
     let x := acked s.d L bytes;
     let behind := 2048 ≤ (rxN bytes 8 2 % 4096 + 4096 - (x.lane L).rxNext) % 4096;
     ¬ inOrder s.d L bytes ∧ ¬ behind) ∧
    (let L : Nat := 63;
     let s : State := stOf (((Dev.reset.setRegN (tetReg 63 .TET_LSTAT) (4 * 2 ^ 28)).setRegN (tetReg 63 .TET_MSTAT) (2 ^ 31)));
     s.d.mgmtBusy L = true) ∧
    (let L : Nat := 63;
     let s : State := State.reset;
     s.d.mgmtBusy L = false) := by
  refine ⟨?_, ?_, ?_, ?_, ?_, ?_, ?_, ?_, ?_, ?_, ?_, ?_, ?_⟩
  · try dsimp only
    refine ⟨?_, ?_⟩
    · decide +kernel
    · decide +kernel
  · try dsimp only
    refine ⟨?_, ?_, ?_⟩
    · decide +kernel
    · decide +kernel
    · decide +kernel
  · try dsimp only
    refine ⟨?_, ?_, ?_, ?_⟩
    · decide +kernel
    · decide +kernel
    · decide +kernel
    · decide +kernel
  · try dsimp only
    refine ⟨?_, ?_, ?_, ?_, ?_⟩
    · decide +kernel
    · decide +kernel
    · decide +kernel
    · decide +kernel
    · decide +kernel
  · try dsimp only
    refine ⟨?_, ?_, ?_, ?_, ?_, ?_⟩
    · decide +kernel
    · decide +kernel
    · decide +kernel
    · decide +kernel
    · decide +kernel
    · exact readBlock_off _ _ _ _ 3 (by decide +kernel) (by decide +kernel) (by decide +kernel)
  · try dsimp only
    refine ⟨?_, ?_, ?_, ?_, ?_, ?_⟩
    · decide +kernel
    · decide +kernel
    · decide +kernel
    · decide +kernel
    · decide +kernel
    · exact readBlock_one _ _ _ _ 2 (by decide +kernel) (by decide +kernel) (by decide +kernel) (by decide +kernel) (by decide +kernel) (by decide +kernel) (by decide +kernel) (by decide +kernel) (by decide +kernel)
  · have hl := plain_length 5
    have ht : rxN (plain 5) 0 1 < 0x80 := by decide +kernel
    refine ⟨⟨by decide +kernel, rxCrcOk_flit _ hl ht, (rxFormOk_flit _ hl).trans (by decide +kernel), (rxN_flit _ 0 1 (by decide +kernel)).trans (by decide +kernel)⟩, ?_⟩
    have h8 : rxN (flit (plain 5)) 8 2 = 0 := (rxN_flit _ 8 2 (by decide +kernel)).trans (by decide +kernel)
    have h10 : rxN (flit (plain 5)) 10 2 = 0 := (rxN_flit _ 10 2 (by decide +kernel)).trans (by decide +kernel)
    have ha : ∀ d L, acked d L (flit (plain 5)) = d := fun d L => by
      rw [acked, h10]
      rfl
    dsimp only
    unfold inOrder accepted
    simp only [ha, h8]
    refine ⟨by decide +kernel, by decide +kernel, ?_⟩
    rw [payload_of _ hl ht]
    generalize hA : Dev.regN _ (tetReg 0 .TET_MRADDR) = a
    have ha0 : a = 0 := hA.symm.trans (by decide +kernel)
    subst ha0
    clear hA
    have hl2 : (((plain 5).drop 16).take 1024).length = 1024 := by rw [List.length_take, List.length_drop, hl]; rfl
    refine writeBlock_two _ _ _ _ hl2 (hbm_write_low _ _ _ _ _ _ (by decide +kernel) (by decide +kernel) (by decide +kernel) (by decide +kernel) (by decide +kernel) (by decide +kernel)) ?_
    rw [hbm_write_low] <;> decide +kernel
  · have hl := plain_length 5
    have ht : rxN (plain 5) 0 1 < 0x80 := by decide +kernel
    refine ⟨⟨by decide +kernel, rxCrcOk_flit _ hl ht, (rxFormOk_flit _ hl).trans (by decide +kernel), (rxN_flit _ 0 1 (by decide +kernel)).trans (by decide +kernel)⟩, ?_⟩
    have h8 : rxN (flit (plain 5)) 8 2 = 0 := (rxN_flit _ 8 2 (by decide +kernel)).trans (by decide +kernel)
    have h10 : rxN (flit (plain 5)) 10 2 = 0 := (rxN_flit _ 10 2 (by decide +kernel)).trans (by decide +kernel)
    have ha : ∀ d L, acked d L (flit (plain 5)) = d := fun d L => by
      rw [acked, h10]
      rfl
    dsimp only
    unfold inOrder accepted
    simp only [ha, h8]
    refine ⟨by decide +kernel, by decide +kernel, ?_⟩
    rw [payload_of _ hl ht]
    exact writeBlock_off _ _ _ 3 _ (by decide +kernel) (by decide +kernel) (by decide +kernel)
  · have hl := plain_length 5
    have ht : rxN (plain 5) 0 1 < 0x80 := by decide +kernel
    try dsimp only
    unfold goodFlit inOrder accepted acked
    simp only [rxCrcOk_flit _ hl ht, rxFormOk_flit _ hl, payload_flit _ hl ht, rxN_flit (plain 5) 0 1 (by omega),
      rxN_flit (plain 5) 8 2 (by omega), rxN_flit (plain 5) 10 2 (by omega), true_and, and_true]
    decide +kernel
  · have hl := plain_length 5
    have ht : rxN (plain 5) 0 1 < 0x80 := by decide +kernel
    try dsimp only
    unfold goodFlit inOrder acked
    simp only [rxCrcOk_flit _ hl ht, rxFormOk_flit _ hl, payload_flit _ hl ht, rxN_flit (plain 5) 0 1 (by omega),
      rxN_flit (plain 5) 8 2 (by omega), rxN_flit (plain 5) 10 2 (by omega), true_and, and_true]
    decide +kernel
  · have hl := plain_length 5
    have ht : rxN (plain 5) 0 1 < 0x80 := by decide +kernel
    try dsimp only
    unfold goodFlit inOrder acked
    simp only [rxCrcOk_flit _ hl ht, rxFormOk_flit _ hl, payload_flit _ hl ht, rxN_flit (plain 5) 0 1 (by omega),
      rxN_flit (plain 5) 8 2 (by omega), rxN_flit (plain 5) 10 2 (by omega), true_and, and_true]
    decide +kernel
  · try dsimp only
    decide +kernel
  · try dsimp only
    decide +kernel

/-- What PowerDomains asks of a state and of operands is met, case by case. -/
theorem witness_PowerDomains :
    (let m : Mst := fw;
     let q : Nat := 3;
     let i : Nat := 18;
     let goal : Nat := 0;
     let row : Instr := Instr.domainOn fw 3 18;
     let s : State := stOf (Dev.reset.setRegN (R.SAFE_STAT.at 0) (2 ^ 31));
     m.oid = 0 ∧ ((row = Instr.domainOn m q i ∧ goal = 0) ∨ (row = .domainBask m q i ∧ goal = 1) ∨ (row = .domainOff m q i ∧ goal = 2)) ∧
     let idle := i ≤ 18 ∧ s.d.domTr q i = none;
     let mayNot := s.d.safe = true ∨ s.d.confFailed = true;
     idle ∧ mayNot) ∧
    (let m : Mst := fw;
     let q : Nat := 3;
     let i : Nat := 18;
     let goal : Nat := 2;
     let row : Instr := Instr.domainOff fw 3 18;
     let s : State := stOf (Dev.reset.setFld F.PWR_DOM_CUR 2 3 18);
     m.oid = 0 ∧ ((row = Instr.domainOn m q i ∧ goal = 0) ∨ (row = .domainBask m q i ∧ goal = 1) ∨ (row = .domainOff m q i ∧ goal = 2)) ∧
     let idle := i ≤ 18 ∧ s.d.domTr q i = none;
     let mayNot := s.d.safe = true ∨ s.d.confFailed = true;
     let at' := s.d.domCur q i = goal;
     idle ∧ ¬ mayNot ∧ at') ∧
    (let m : Mst := fw;
     let q : Nat := 3;
     let i : Nat := 15;
     let goal : Nat := 2;
     let row : Instr := Instr.domainOff fw 3 15;
     let s : State := stOf
       ({ ((Dev.reset.setReg (cluReg 63 .POS_CFG 3) (BitVec.ofNat 64 (2 ^ 31 + 2 ^ 30 + 255))).setReg (slotReg 255 .SLOT_STAT) (BitVec.ofNat 64 stLive)) with regs := (R.PWR_DOM.at 3 15, 0) :: ((Dev.reset.setReg (cluReg 63 .POS_CFG 3) (BitVec.ofNat 64 (2 ^ 31 + 2 ^ 30 + 255))).setReg (slotReg 255 .SLOT_STAT) (BitVec.ofNat 64 stLive)).regs });
     m.oid = 0 ∧ ((row = Instr.domainOn m q i ∧ goal = 0) ∨ (row = .domainBask m q i ∧ goal = 1) ∨ (row = .domainOff m q i ∧ goal = 2)) ∧
     let idle := i ≤ 18 ∧ s.d.domTr q i = none;
     let mayNot := s.d.safe = true ∨ s.d.confFailed = true;
     let at' := s.d.domCur q i = goal;
     let allowed := goal = 0 ∨ s.d.domAllows q i goal = true;
     idle ∧ ¬ mayNot ∧ ¬ at' ∧ ¬ allowed) ∧
    (let m : Mst := fw;
     let q : Nat := 3;
     let i : Nat := 15;
     let goal : Nat := 0;
     let row : Instr := Instr.domainOn fw 3 15;
     let s : State := stOf Dev.reset;
     m.oid = 0 ∧ ((row = Instr.domainOn m q i ∧ goal = 0) ∨ (row = .domainBask m q i ∧ goal = 1) ∨ (row = .domainOff m q i ∧ goal = 2)) ∧
     let idle := i ≤ 18 ∧ s.d.domTr q i = none;
     let mayNot := s.d.safe = true ∨ s.d.confFailed = true;
     let at' := s.d.domCur q i = goal;
     let allowed := goal = 0 ∨ s.d.domAllows q i goal = true;
     idle ∧ ¬ mayNot ∧ ¬ at' ∧ allowed ∧ (goal = 0 ∨ 16 ≤ i)) ∧
    (let m : Mst := fw;
     let q : Nat := 3;
     let i : Nat := 15;
     let goal : Nat := 2;
     let row : Instr := Instr.domainOff fw 3 15;
     let s : State := stOf ({ Dev.reset with regs := [(R.PWR_DOM.at 3 15, 0)] });
     m.oid = 0 ∧ ((row = Instr.domainOn m q i ∧ goal = 0) ∨ (row = .domainBask m q i ∧ goal = 1) ∨ (row = .domainOff m q i ∧ goal = 2)) ∧
     let idle := i ≤ 18 ∧ s.d.domTr q i = none;
     let mayNot := s.d.safe = true ∨ s.d.confFailed = true;
     let at' := s.d.domCur q i = goal;
     let allowed := goal = 0 ∨ s.d.domAllows q i goal = true;
     idle ∧ ¬ mayNot ∧ ¬ at' ∧ allowed ∧ goal ≠ 0 ∧ i < 16) ∧
    (let m : Mst := fw;
     let q : Nat := 3;
     let i : Nat := 19;
     let goal : Nat := 2;
     let row : Instr := Instr.domainOff fw 3 19;
     m.oid = 0 ∧ ((row = Instr.domainOn m q i ∧ goal = 0) ∨ (row = .domainBask m q i ∧ goal = 1) ∨ (row = .domainOff m q i ∧ goal = 2)) ∧ 18
     < i) ∧
    (let m : Mst := fw;
     let q : Nat := 3;
     let i : Nat := 18;
     let goal : Nat := 1;
     let row : Instr := Instr.domainBask fw 3 18;
     let t : DomTr := ⟨2, none⟩;
     let s : State := stOf (Dev.reset.setDomTr 3 18 (some ⟨2, none⟩));
     m.oid = 0 ∧ ((row = Instr.domainOn m q i ∧ goal = 0) ∨ (row = .domainBask m q i ∧ goal = 1) ∨ (row = .domainOff m q i ∧ goal = 2)) ∧ i ≤
     18 ∧ s.d.domTr q i = some t) ∧
    (let q : Nat := 3;
     let i : Nat := 18;
     let d : Dev := (stOf (Dev.reset.setFld F.PWR_DOM_CUR 1 3 18)).d;
     let s : State := stOf (Dev.reset.setFld F.PWR_DOM_CUR 1 3 18);
     let there (t : DomTr) : Dev := ((s.d.setDomTr q i none).domArrive s.clk q i t.goal).domResult q i 1;
     let waits (d : Dev) := d.domCur q i = 1 ∨ (d.domTr q i).isSome = true;
     ((s.d.domTr q i = none ∧ d = s.d) ∨ (∃ t, s.d.domTr q i = some t ∧ t.next = none ∧ d = there t) ∨ (∃ t g, s.d.domTr q i = some t ∧
     t.next = some g ∧ d = (there t).domStart q i g)) ∧ waits d) ∧
    (let q : Nat := 3;
     let i : Nat := 18;
     let d : Dev := (stOf (Dev.reset.setFld F.PWR_DOM_CUR 0 3 18)).d;
     let s : State := stOf (Dev.reset.setFld F.PWR_DOM_CUR 0 3 18);
     let there (t : DomTr) : Dev := ((s.d.setDomTr q i none).domArrive s.clk q i t.goal).domResult q i 1;
     let waits (d : Dev) := d.domCur q i = 1 ∨ (d.domTr q i).isSome = true;
     ((s.d.domTr q i = none ∧ d = s.d) ∨ (∃ t, s.d.domTr q i = some t ∧ t.next = none ∧ d = there t) ∨ (∃ t g, s.d.domTr q i = some t ∧
     t.next = some g ∧ d = (there t).domStart q i g)) ∧ ¬ waits d) ∧
    (let m : Mst := fw;
     m.oid = 0) := by
  refine ⟨?_, ?_, ?_, ?_, ?_, ?_, ?_, ?_, ?_, ?_⟩
  · try dsimp only
    refine ⟨?_, ?_, ?_, ?_⟩
    · decide +kernel
    · exact Or.inl ⟨rfl, rfl⟩
    · decide +kernel
    · decide +kernel
  · try dsimp only
    refine ⟨?_, ?_, ?_, ?_, ?_⟩
    · decide +kernel
    · exact Or.inr (Or.inr ⟨rfl, rfl⟩)
    · decide +kernel
    · decide +kernel
    · decide +kernel
  · try dsimp only
    refine ⟨?_, ?_, ?_, ?_, ?_, ?_⟩
    · decide +kernel
    · exact Or.inr (Or.inr ⟨rfl, rfl⟩)
    · decide +kernel
    · decide +kernel
    · decide +kernel
    · decide +kernel
  · try dsimp only
    refine ⟨?_, ?_, ?_, ?_, ?_, ?_, ?_⟩
    · decide +kernel
    · exact Or.inl ⟨rfl, rfl⟩
    · decide +kernel
    · decide +kernel
    · decide +kernel
    · decide +kernel
    · decide +kernel
  · try dsimp only
    refine ⟨?_, ?_, ?_, ?_, ?_, ?_, ?_, ?_⟩
    · decide +kernel
    · exact Or.inr (Or.inr ⟨rfl, rfl⟩)
    · decide +kernel
    · decide +kernel
    · decide +kernel
    · decide +kernel
    · decide +kernel
    · decide +kernel
  · try dsimp only
    refine ⟨?_, ?_, ?_⟩
    · decide +kernel
    · exact Or.inr (Or.inr ⟨rfl, rfl⟩)
    · decide +kernel
  · try dsimp only
    refine ⟨?_, ?_, ?_, ?_⟩
    · decide +kernel
    · exact Or.inr (Or.inl ⟨rfl, rfl⟩)
    · decide +kernel
    · decide +kernel
  · try dsimp only
    refine ⟨?_, ?_⟩
    · exact Or.inl ⟨by decide +kernel, rfl⟩
    · decide +kernel
  · try dsimp only
    refine ⟨?_, ?_⟩
    · exact Or.inl ⟨by decide +kernel, rfl⟩
    · decide +kernel
  · try dsimp only
    decide +kernel

/-- What Resets asks of a state and of operands is met, case by case. -/
theorem witness_Resets :
    (let m : Mst := fw;
     let q : Nat := 3;
     let v : Nat := 0x5A170001;
     let s : State := State.reset;
     m.oid = 0 ∧
     let key := bitsOf v 31 16 = 0x5A17;
     let goes := v % 2 = 1 ∧ s.d.inReset q = false;
     key ∧ goes) ∧
    (let m : Mst := fw;
     let q : Nat := 3;
     let v : Nat := 0x5A170000;
     let s : State := State.reset;
     m.oid = 0 ∧
     let key := bitsOf v 31 16 = 0x5A17;
     let goes := v % 2 = 1 ∧ s.d.inReset q = false;
     key ∧ ¬ goes) ∧
    (let m : Mst := fw;
     let v : Nat := 0x5A160001;
     m.oid = 0 ∧
     let key := bitsOf v 31 16 = 0x5A17;
     ¬ key) ∧
    (let q : Nat := 3;
     let s : State := stOf ({ Dev.reset with qrst := nset 0 [] 3 1 });
     let ph := nget 0 s.d.qrst q;
     ph = 1) ∧
    (let q : Nat := 3;
     let s : State := stOf ({ Dev.reset with qrst := nset 0 [] 3 2 });
     let ph := nget 0 s.d.qrst q;
     ph ≠ 1) ∧
    (let q : Nat := 3;
     let s : State := stOf ({ Dev.reset with qrst := nset 0 [] 3 2 });
     let ph := nget 0 s.d.qrst q;
     ph = 2) ∧
    (let q : Nat := 3;
     let s : State := stOf ({ Dev.reset with qrst := nset 0 [] 3 3 });
     let ph := nget 0 s.d.qrst q;
     ph ≠ 2) ∧
    (let s : State := stOf (Dev.reset.setRegN (R.SAFE_STAT.at 0) (2 ^ 31));
     s.d.safe = true) ∧
    (let s : State := State.reset;
     s.d.safe = false) := by
  refine ⟨?_, ?_, ?_, ?_, ?_, ?_, ?_, ?_, ?_⟩
  · try dsimp only
    refine ⟨?_, ?_, ?_⟩
    · decide +kernel
    · decide +kernel
    · decide +kernel
  · try dsimp only
    refine ⟨?_, ?_, ?_⟩
    · decide +kernel
    · decide +kernel
    · decide +kernel
  · try dsimp only
    refine ⟨?_, ?_⟩
    · decide +kernel
    · decide +kernel
  · try dsimp only
    decide +kernel
  · try dsimp only
    decide +kernel
  · try dsimp only
    decide +kernel
  · try dsimp only
    decide +kernel
  · try dsimp only
    decide +kernel
  · try dsimp only
    decide +kernel

/-- What ClockFaults asks of a state and of operands is met, case by case. -/
theorem witness_ClockFaults :
    (let q : Nat := 3;
     let s : State := stOf
       ({ Dev.reset with regs := [(R.CLK_STAT.at 0, BitVec.ofNat 64 (2 ^ 64 - 1)), (R.CLK_STAT.at 1, BitVec.ofNat 64 (2 ^ 64 - 1)), (R.CLK_STAT.at 2, BitVec.ofNat 64 (2 ^ 64 - 1)), (R.CLK_STAT.at 3, BitVec.ofNat 64 (2 ^ 64 - 1))] });
     let locked := s.d.flag F.CLK_STAT_LOCK q = true;
     locked) ∧
    (let q : Nat := 3;
     let s : State := stOf
       ({ Dev.reset with regs := [(R.CLK_STAT.at 0, 0), (R.CLK_STAT.at 1, 0), (R.CLK_STAT.at 2, 0), (R.CLK_STAT.at 3, 0)] });
     let locked := s.d.flag F.CLK_STAT_LOCK q = true;
     ¬ locked) ∧
    (let br : Nat := 3;
     let eq : Bool := false;
     let s : State := stOf Dev.reset (⟨0, 0, 0, false, true, 0⟩);
     let differ := eq = false ∧ s.clk.started = true ∧ br < 4;
     differ) ∧
    (let br : Nat := 4;
     let eq : Bool := false;
     let s : State := stOf Dev.reset (⟨0, 0, 0, false, true, 0⟩);
     let differ := eq = false ∧ s.clk.started = true ∧ br < 4;
     ¬ differ) ∧
    (let s : State := State.reset;
     s.d.therm = false) ∧
    (let s : State := stOf ({ Dev.reset with therm := true });
     s.d.therm = true) ∧
    (let s : State := stOf
       ({ Dev.reset with regs := [(R.CLK_STAT.at 0, BitVec.ofNat 64 (2 ^ 64 - 1)), (R.CLK_STAT.at 1, BitVec.ofNat 64 (2 ^ 64 - 1)), (R.CLK_STAT.at 2, BitVec.ofNat 64 (2 ^ 64 - 1)), (R.CLK_STAT.at 3, BitVec.ofNat 64 (2 ^ 64 - 1))], boot := { Boot.none with on := true } });
     let aligns := s.d.boot.on = true ∧ s.clk.tick % 65536 = 0 ∧ s.clk.started = false ∧ ∀ q, q < 4 → s.d.flag F.CLK_STAT_LOCK q = true;
     aligns) ∧
    (let s : State := State.reset;
     let aligns := s.d.boot.on = true ∧ s.clk.tick % 65536 = 0 ∧ s.clk.started = false ∧ ∀ q, q < 4 → s.d.flag F.CLK_STAT_LOCK q = true;
     ¬ aligns) ∧
    (let s : State := stOf
       ({ Dev.reset with regs := [(R.CLK_STAT.at 0, BitVec.ofNat 64 (2 ^ 64 - 1)), (R.CLK_STAT.at 1, BitVec.ofNat 64 (2 ^ 64 - 1)), (R.CLK_STAT.at 2, BitVec.ofNat 64 (2 ^ 64 - 1)), (R.CLK_STAT.at 3, BitVec.ofNat 64 (2 ^ 64 - 1))] });
     s.d.flag F.CLK_STAT_LOCK 0 = true) ∧
    (let s : State := stOf
       ({ Dev.reset with regs := [(R.CLK_STAT.at 0, 0), (R.CLK_STAT.at 1, 0), (R.CLK_STAT.at 2, 0), (R.CLK_STAT.at 3, 0)] });
     s.d.flag F.CLK_STAT_LOCK 0 = false) ∧
    (let d : Dev := Dev.reset.setRegN (R.SAFE_STAT.at 0) (2 ^ 31);
     d.safe = true) ∧
    (let d : Dev := Dev.reset;
     d.safe = false) := by
  refine ⟨?_, ?_, ?_, ?_, ?_, ?_, ?_, ?_, ?_, ?_, ?_, ?_⟩
  · try dsimp only
    decide +kernel
  · try dsimp only
    decide +kernel
  · try dsimp only
    decide +kernel
  · try dsimp only
    decide +kernel
  · try dsimp only
    decide +kernel
  · try dsimp only
    decide +kernel
  · exact ⟨by decide +kernel, by decide +kernel, by decide +kernel, by decide +kernel⟩
  · exact fun h => absurd h.1 (by decide +kernel)
  · try dsimp only
    decide +kernel
  · try dsimp only
    decide +kernel
  · try dsimp only
    decide +kernel
  · try dsimp only
    decide +kernel

/-- What PowerControl asks of a state and of operands is met, case by case. -/
theorem witness_PowerControl :
    (let q : Nat := 3;
     let i : Nat := 15;
     q < 4 ∧ i < 16) ∧
    (let q : Nat := 3;
     let i : Nat := 16;
     (4 ≤ q ∨ 16 ≤ i)) ∧
    (let t : Int := 400;
     let g : Nat := 63;
     let s : State := stOf ({ (Dev.reset.setRegN (R.PWR_TSENS.at 3 15) (2 ^ 31 + 400)) with gov := { Gov.zero with nt := 62 } });
     let tthr : Int := getBits (s.d.reg (R.GOV_CFG.at 0)) 7 0;
     let n := s.d.gov.nt;
     s.d.hottest (upTo 64) = some (t, g) ∧ 4 * tthr ≤ t ∧ n < 63) ∧
    (let t : Int := 400;
     let g : Nat := 63;
     let s : State := stOf ({ (Dev.reset.setRegN (R.PWR_TSENS.at 3 15) (2 ^ 31 + 400)) with gov := { Gov.zero with nt := 63 } });
     let tthr : Int := getBits (s.d.reg (R.GOV_CFG.at 0)) 7 0;
     let n := s.d.gov.nt;
     s.d.hottest (upTo 64) = some (t, g) ∧ 4 * tthr ≤ t ∧ 63 ≤ n) ∧
    (let t : Int := 387;
     let g : Nat := 63;
     let s : State := stOf ({ (Dev.reset.setRegN (R.PWR_TSENS.at 3 15) (2 ^ 31 + 387)) with gov := { Gov.zero with nt := 0 } });
     let tthr : Int := getBits (s.d.reg (R.GOV_CFG.at 0)) 7 0;
     let hyst : Int := getBits (s.d.reg (R.GOV_CFG.at 0)) 11 8;
     s.d.hottest (upTo 64) = some (t, g) ∧ t < 4 * tthr ∧ t < 4 * (tthr - hyst)) ∧
    (let t : Int := 388;
     let g : Nat := 63;
     let s : State := stOf ({ (Dev.reset.setRegN (R.PWR_TSENS.at 3 15) (2 ^ 31 + 388)) with gov := { Gov.zero with nt := 0 } });
     let tthr : Int := getBits (s.d.reg (R.GOV_CFG.at 0)) 7 0;
     let hyst : Int := getBits (s.d.reg (R.GOV_CFG.at 0)) 11 8;
     s.d.hottest (upTo 64) = some (t, g) ∧ t < 4 * tthr ∧ 4 * (tthr - hyst) ≤ t) ∧
    (let s : State := State.reset;
     s.d.hottest (upTo 64) = none) ∧
    (let a : Nat := 65536;
     let s : State := State.reset;
     let peak := getBits (s.d.reg (R.GOV_PL_PEAK.at 0)) 15 0;
     peak < a) ∧
    (let a : Nat := 0;
     let s : State := State.reset;
     let peak := getBits (s.d.reg (R.GOV_PL_PEAK.at 0)) 15 0;
     a ≤ peak) ∧
    (let mv : Nat := 770;
     let s : State := stOf ({ Dev.reset with regs := [(R.AVS_CFG.at 0, BitVec.ofNat 64 (700 * 2 ^ 16))] });
     let d1 := { s.d with avsFails := 0 }.setFld F.AVS_STAT_VREAD mv 0;
     let near := 10 * mv ≤ 11 * d1.vset ∧ 9 * d1.vset ≤ 10 * mv;
     near) ∧
    (let mv : Nat := 771;
     let s : State := stOf ({ Dev.reset with regs := [(R.AVS_CFG.at 0, BitVec.ofNat 64 (700 * 2 ^ 16))] });
     let d1 := { s.d with avsFails := 0 }.setFld F.AVS_STAT_VREAD mv 0;
     let near := 10 * mv ≤ 11 * d1.vset ∧ 9 * d1.vset ≤ 10 * mv;
     ¬ near) ∧
    (let s : State := State.reset;
     s.d.avsFails ≠ 2) ∧
    (let s : State := stOf ({ Dev.reset with avsFails := 2 });
     s.d.avsFails = 2) := by
  refine ⟨?_, ?_, ?_, ?_, ?_, ?_, ?_, ?_, ?_, ?_, ?_, ?_, ?_⟩
  · try dsimp only
    refine ⟨?_, ?_⟩
    · decide +kernel
    · decide +kernel
  · try dsimp only
    decide +kernel
  · try dsimp only
    refine ⟨?_, ?_, ?_⟩
    · decide +kernel
    · decide +kernel
    · decide +kernel
  · try dsimp only
    refine ⟨?_, ?_, ?_⟩
    · decide +kernel
    · decide +kernel
    · decide +kernel
  · try dsimp only
    refine ⟨?_, ?_, ?_⟩
    · decide +kernel
    · decide +kernel
    · decide +kernel
  · try dsimp only
    refine ⟨?_, ?_, ?_⟩
    · decide +kernel
    · decide +kernel
    · decide +kernel
  · try dsimp only
    decide +kernel
  · try dsimp only
    decide +kernel
  · try dsimp only
    decide +kernel
  · try dsimp only
    decide +kernel
  · try dsimp only
    decide +kernel
  · try dsimp only
    decide +kernel
  · try dsimp only
    decide +kernel

/-- What FlashAndStandby asks of a state and of operands is met, case by case. -/
theorem witness_FlashAndStandby :
    (let m : Mst := fw;
     let q : Nat := 1;
     let cmd : Nat := 3;
     let row : Instr := Instr.blankchk fw 1;
     let s : State := stOf Dev.reset;
     m.oid = 0 ∧ ((row = Instr.program m q ∧ cmd = 1) ∨ (row = .erase m q ∧ cmd = 2) ∨ (row = .blankchk m q ∧ cmd = 3)) ∧
     let free := (q = 0 ∨ q = 3) ∧ s.d.flag F.FLS_STAT_BUSY q = false;
     ¬ free) ∧
    (let m : Mst := fw;
     let q : Nat := 3;
     let cmd : Nat := 2;
     let row : Instr := Instr.erase fw 3;
     let s : State := stOf Dev.reset;
     m.oid = 0 ∧ ((row = Instr.program m q ∧ cmd = 1) ∨ (row = .erase m q ∧ cmd = 2) ∨ (row = .blankchk m q ∧ cmd = 3)) ∧
     let free := (q = 0 ∨ q = 3) ∧ s.d.flag F.FLS_STAT_BUSY q = false;
     let wen := s.d.flag F.FLS_CTRL_WEN q = true;
     free ∧ ¬ wen) ∧
    (let m : Mst := fw;
     let q : Nat := 0;
     let cmd : Nat := 1;
     let row : Instr := Instr.program fw 0;
     let s : State := stOf ((((Dev.reset.setFld F.FLS_CTRL_WEN 1 0).setFld F.MSQ_PFSTAT_ARMED 1 0).setFld F.MSQ_PFSTAT_HALF 1 0).setFld
       F.FLS_ADDR_WORD (0x71FFE0 / 32) 0);
     m.oid = 0 ∧ ((row = Instr.program m q ∧ cmd = 1) ∨ (row = .erase m q ∧ cmd = 2) ∨ (row = .blankchk m q ∧ cmd = 3)) ∧
     let word := s.d.fld F.FLS_ADDR_WORD q;
     let free := (q = 0 ∨ q = 3) ∧ s.d.flag F.FLS_STAT_BUSY q = false;
     let wen := s.d.flag F.FLS_CTRL_WEN q = true;
     let dumps := cmd ≠ 3 ∧ s.d.inArmedHalf q word cmd = true;
     free ∧ wen ∧ dumps) ∧
    (let m : Mst := fw;
     let q : Nat := 3;
     let cmd : Nat := 1;
     let row : Instr := Instr.program fw 3;
     let s : State := stOf ((Dev.reset.setFld F.FLS_CTRL_WEN 1 3));
     m.oid = 0 ∧ ((row = Instr.program m q ∧ cmd = 1) ∨ (row = .erase m q ∧ cmd = 2) ∨ (row = .blankchk m q ∧ cmd = 3)) ∧
     let word := s.d.fld F.FLS_ADDR_WORD q;
     let free := (q = 0 ∨ q = 3) ∧ s.d.flag F.FLS_STAT_BUSY q = false;
     let wen := s.d.flag F.FLS_CTRL_WEN q = true;
     let dumps := cmd ≠ 3 ∧ s.d.inArmedHalf q word cmd = true;
     free ∧ wen ∧ ¬ dumps) ∧
    (let q : Nat := 3;
     let s : State := State.reset;
     let o := nget none s.d.fls q;
     o = none) ∧
    (let q : Nat := 3;
     let c : FlsOp := ⟨1, 0, 0⟩;
     let s : State := stOf ({ Dev.reset with fls := nset none [] 3 (some ⟨1, 0, 0⟩) });
     let o := nget none s.d.fls q;
     o = some c ∧
     let d1 := { s.d with fls := nset none s.d.fls q none }.setFld F.FLS_STAT_BUSY 0 q;
     let a := flashBase q + c.word * 32;
     c.cmd = 1 ∧ d1.erased a 32 = true) ∧
    (let q : Nat := 3;
     let c : FlsOp := ⟨1, 0, 0⟩;
     let s : State := stOf ({ Dev.reset with fls := nset none [] 3 (some ⟨1, 0, 0⟩), mem := [(flashBase 3 + 31, 1)] });
     let o := nget none s.d.fls q;
     o = some c ∧
     let d1 := { s.d with fls := nset none s.d.fls q none }.setFld F.FLS_STAT_BUSY 0 q;
     let a := flashBase q + c.word * 32;
     c.cmd = 1 ∧ d1.erased a 32 = false) ∧
    (let q : Nat := 3;
     let c : FlsOp := ⟨2, 0, 0⟩;
     let s : State := stOf ({ Dev.reset with fls := nset none [] 3 (some ⟨2, 0, 0⟩) });
     let o := nget none s.d.fls q;
     o = some c ∧ c.cmd = 2) ∧
    (let q : Nat := 3;
     let c : FlsOp := ⟨3, 0, 0⟩;
     let s : State := stOf ({ Dev.reset with fls := nset none [] 3 (some ⟨3, 0, 0⟩) });
     let o := nget none s.d.fls q;
     o = some c ∧
     let d1 := { s.d with fls := nset none s.d.fls q none }.setFld F.FLS_STAT_BUSY 0 q;
     let sector := flashBase q + c.word / 1024 * 0x8000;
     c.cmd = 3 ∧ d1.erased sector 0x8000 = true) ∧
    (let q : Nat := 3;
     let c : FlsOp := ⟨3, 1023, 0⟩;
     let s : State := stOf ({ Dev.reset with fls := nset none [] 3 (some ⟨3, 1023, 0⟩), mem := [(flashBase 3 + 0x7FFF, 1)] });
     let o := nget none s.d.fls q;
     o = some c ∧
     let d1 := { s.d with fls := nset none s.d.fls q none }.setFld F.FLS_STAT_BUSY 0 q;
     let sector := flashBase q + c.word / 1024 * 0x8000;
     c.cmd = 3 ∧ d1.erased sector 0x8000 = false) ∧
    (let m : Mst := fw;
     let v : Nat := 0xA0F40001;
     m.oid = 0 ∧
     let key := bitsOf v 31 16 = 0xA0F5;
     ¬ key) ∧
    (let m : Mst := fw;
     let v : Nat := 0xA0F50000;
     m.oid = 0 ∧
     let key := bitsOf v 31 16 = 0xA0F5;
     key ∧ v % 2 = 0) ∧
    (let m : Mst := fw;
     let v : Nat := 0xA0F50001;
     let s : State := State.reset;
     m.oid = 0 ∧
     let key := bitsOf v 31 16 = 0xA0F5;
     let may := s.d.flag F.AO_STATUS_STBY_OK 0 = true ∧ s.d.failedOver = false ∧ s.d.aoFree = false;
     key ∧ v % 2 = 1 ∧ ¬ may) ∧
    (let m : Mst := fw;
     let v : Nat := 0xA0F50001;
     let s : State := stOf (Dev.reset.setFld F.AO_STATUS_STBY_OK 1 0);
     m.oid = 0 ∧
     let key := bitsOf v 31 16 = 0xA0F5;
     let may := s.d.flag F.AO_STATUS_STBY_OK 0 = true ∧ s.d.failedOver = false ∧ s.d.aoFree = false;
     key ∧ v % 2 = 1 ∧ may) ∧
    (let s : State := stOf ({ Dev.reset with aoFree := true });
     let off := s.d.sysHalt = true ∨ s.d.failedOver = true ∨ s.d.aoFree = true;
     off) ∧
    (let s : State := State.reset;
     let off := s.d.sysHalt = true ∨ s.d.failedOver = true ∨ s.d.aoFree = true;
     ¬ off) ∧
    (let toLive : Bool := true;
     let toStandby : Bool := true;
     let s : State := stOf ({ (Dev.reset.setFld F.AO_STATUS_FAILED_OVER 1 0) with hb := nset 0 (nset 0 [] 0 65535) 1 65535 });
     let sb := nget 0 s.d.hb 0;
     let lv := nget 0 s.d.hb 1;
     let d1 : Dev := { s.d with hb := nset 0 s.d.hb 0 ((sb + 1) % 65536) };
     let d2 : Dev := { d1 with hb := nset 0 d1.hb 1 ((lv + 1) % 65536) }.setRegN (R.AO_HBSTAT.at 0) ((lv + 1) % 65536 * 65536 + sb);
     (toStandby = true → d1 = { s.d with hb := nset 0 s.d.hb 0 ((sb + 1) % 65536) }) ∧ (toStandby = false → d1 = s.d) ∧ (toLive = true → d2 =
     { d1 with hb := nset 0 d1.hb 1 ((lv + 1) % 65536) }.setRegN (R.AO_HBSTAT.at 0) ((lv + 1) % 65536 * 65536 + sb)) ∧ (toLive = false →
     d2 = d1) ∧ s.d.failedOver = true) ∧
    (let toLive : Bool := true;
     let toStandby : Bool := true;
     let healthy : Bool := true;
     let s : State := stOf ({ Dev.reset with hb := nset 0 (nset 0 [] 0 65535) 1 65535 });
     let sb := nget 0 s.d.hb 0;
     let lv := nget 0 s.d.hb 1;
     let d1 : Dev := { s.d with hb := nset 0 s.d.hb 0 ((sb + 1) % 65536) };
     let d2 : Dev := { d1 with hb := nset 0 d1.hb 1 ((lv + 1) % 65536) }.setRegN (R.AO_HBSTAT.at 0) ((lv + 1) % 65536 * 65536 + sb);
     (toStandby = true → d1 = { s.d with hb := nset 0 s.d.hb 0 ((sb + 1) % 65536) }) ∧ (toStandby = false → d1 = s.d) ∧ (toLive = true → d2 =
     { d1 with hb := nset 0 d1.hb 1 ((lv + 1) % 65536) }.setRegN (R.AO_HBSTAT.at 0) ((lv + 1) % 65536 * 65536 + sb)) ∧ (toLive = false →
     d2 = d1) ∧ s.d.failedOver = false ∧ healthy = true) ∧
    (let toLive : Bool := false;
     let toStandby : Bool := false;
     let healthy : Bool := false;
     let s : State := stOf ({ Dev.reset with hb := nset 0 (nset 0 [] 0 65535) 1 65535 });
     let sb := nget 0 s.d.hb 0;
     let lv := nget 0 s.d.hb 1;
     let d1 : Dev := s.d;
     let d2 : Dev := d1;
     (toStandby = true → d1 = { s.d with hb := nset 0 s.d.hb 0 ((sb + 1) % 65536) }) ∧ (toStandby = false → d1 = s.d) ∧ (toLive = true → d2 =
     { d1 with hb := nset 0 d1.hb 1 ((lv + 1) % 65536) }.setRegN (R.AO_HBSTAT.at 0) ((lv + 1) % 65536 * 65536 + sb)) ∧ (toLive = false →
     d2 = d1) ∧ s.d.failedOver = false ∧ healthy = false ∧ d2.flag F.AO_STATUS_STBY_OK 0 = false) ∧
    (let toLive : Bool := false;
     let toStandby : Bool := true;
     let healthy : Bool := false;
     let s : State := stOf ({ (Dev.reset.setFld F.AO_STATUS_STBY_OK 1 0) with hb := nset 0 (nset 0 [] 0 65535) 1 65535 });
     let sb := nget 0 s.d.hb 0;
     let lv := nget 0 s.d.hb 1;
     let d1 : Dev := { s.d with hb := nset 0 s.d.hb 0 ((sb + 1) % 65536) };
     let d2 : Dev := d1;
     (toStandby = true → d1 = { s.d with hb := nset 0 s.d.hb 0 ((sb + 1) % 65536) }) ∧ (toStandby = false → d1 = s.d) ∧ (toLive = true → d2 =
     { d1 with hb := nset 0 d1.hb 1 ((lv + 1) % 65536) }.setRegN (R.AO_HBSTAT.at 0) ((lv + 1) % 65536 * 65536 + sb)) ∧ (toLive = false →
     d2 = d1) ∧ s.d.failedOver = false ∧ healthy = false ∧ d2.flag F.AO_STATUS_STBY_OK 0 = true) ∧
    (let s : State := stOf ({ Dev.reset.setFld F.AO_STATUS_STBY_OK 1 0 with aoFree := true });
     let takes := s.d.aoFree = true ∧ s.d.failedOver = false ∧ s.d.flag F.AO_STATUS_STBY_OK 0 = true;
     takes) ∧
    (let s : State := State.reset;
     let takes := s.d.aoFree = true ∧ s.d.failedOver = false ∧ s.d.flag F.AO_STATUS_STBY_OK 0 = true;
     ¬ takes) ∧
    (let m : Mst := fw;
     let v : Nat := 2 ^ 63 - 1;
     m.oid = 0 ∧
     let go := v.testBit 63 = true;
     ¬ go) ∧
    (let m : Mst := fw;
     let q : Nat := 3;
     let v : Nat := 2 ^ 63;
     let s : State := stOf (Dev.reset.setFld F.FLT_PPR_STAT_BUSY 1 3);
     m.oid = 0 ∧
     let busy := s.d.flag F.FLT_PPR_STAT_BUSY q = true;
     let go := v.testBit 63 = true;
     go ∧ busy) ∧
    (let m : Mst := fw;
     let q : Nat := 3;
     let v : Nat := 2 ^ 63;
     let s : State := State.reset;
     m.oid = 0 ∧
     let busy := s.d.flag F.FLT_PPR_STAT_BUSY q = true;
     let mine := isHbm (bitsOf v 47 6 * 64) = true ∧ homeOf (bitsOf v 47 6 * 64) = q;
     let go := v.testBit 63 = true;
     go ∧ ¬ busy ∧ ¬ mine) ∧
    (let m : Mst := fw;
     let q : Nat := 0;
     let v : Nat := 2 ^ 63;
     let s : State := State.reset;
     m.oid = 0 ∧
     let busy := s.d.flag F.FLT_PPR_STAT_BUSY q = true;
     let mine := isHbm (bitsOf v 47 6 * 64) = true ∧ homeOf (bitsOf v 47 6 * 64) = q;
     let go := v.testBit 63 = true;
     go ∧ ¬ busy ∧ mine) ∧
    (let q : Nat := 3;
     let res : Nat := 5;
     let s : State := stOf ({ Dev.reset with ppr := nset none [] 3 (some 0) });
     let ends := nget none s.d.ppr q ≠ none ∧ (res = 1 ∨ res = 2 ∨ res = 5);
     ends) ∧
    (let q : Nat := 3;
     let res : Nat := 4;
     let s : State := stOf ({ Dev.reset with ppr := nset none [] 3 (some 0) });
     let ends := nget none s.d.ppr q ≠ none ∧ (res = 1 ∨ res = 2 ∨ res = 5);
     ¬ ends) := by
  refine ⟨?_, ?_, ?_, ?_, ?_, ?_, ?_, ?_, ?_, ?_, ?_, ?_, ?_, ?_, ?_, ?_, ?_, ?_, ?_, ?_, ?_, ?_, ?_, ?_, ?_, ?_, ?_, ?_⟩
  · try dsimp only
    refine ⟨?_, ?_, ?_⟩
    · decide +kernel
    · exact Or.inr (Or.inr ⟨rfl, rfl⟩)
    · decide +kernel
  · try dsimp only
    refine ⟨?_, ?_, ?_, ?_⟩
    · decide +kernel
    · exact Or.inr (Or.inl ⟨rfl, rfl⟩)
    · decide +kernel
    · decide +kernel
  · try dsimp only
    refine ⟨?_, ?_, ?_, ?_, ?_⟩
    · decide +kernel
    · exact Or.inl ⟨rfl, rfl⟩
    · decide +kernel
    · decide +kernel
    · decide +kernel
  · try dsimp only
    refine ⟨?_, ?_, ?_, ?_, ?_⟩
    · decide +kernel
    · exact Or.inl ⟨rfl, rfl⟩
    · decide +kernel
    · decide +kernel
    · decide +kernel
  · try dsimp only
    decide +kernel
  · try dsimp only
    refine ⟨?_, ?_, ?_⟩
    · decide +kernel
    · decide +kernel
    · decide +kernel
  · try dsimp only
    refine ⟨?_, ?_, ?_⟩
    · decide +kernel
    · decide +kernel
    · decide +kernel
  · try dsimp only
    refine ⟨?_, ?_⟩
    · decide +kernel
    · decide +kernel
  · try dsimp only
    refine ⟨?_, ?_, ?_⟩
    · decide +kernel
    · decide +kernel
    · decide +kernel
  · try dsimp only
    refine ⟨?_, ?_, ?_⟩
    · decide +kernel
    · decide +kernel
    · decide +kernel
  · try dsimp only
    refine ⟨?_, ?_⟩
    · decide +kernel
    · decide +kernel
  · try dsimp only
    refine ⟨?_, ?_, ?_⟩
    · decide +kernel
    · decide +kernel
    · decide +kernel
  · try dsimp only
    refine ⟨?_, ?_, ?_, ?_⟩
    · decide +kernel
    · decide +kernel
    · decide +kernel
    · decide +kernel
  · try dsimp only
    refine ⟨?_, ?_, ?_, ?_⟩
    · decide +kernel
    · decide +kernel
    · decide +kernel
    · decide +kernel
  · try dsimp only
    decide +kernel
  · try dsimp only
    decide +kernel
  · try dsimp only
    refine ⟨?_, ?_, ?_, ?_, ?_⟩
    · exact fun _ => rfl
    · exact fun h => by cases h
    · exact fun _ => rfl
    · exact fun h => by cases h
    · decide +kernel
  · try dsimp only
    refine ⟨?_, ?_, ?_, ?_, ?_, ?_⟩
    · exact fun _ => rfl
    · exact fun h => by cases h
    · exact fun _ => rfl
    · exact fun h => by cases h
    · decide +kernel
    · decide +kernel
  · try dsimp only
    refine ⟨?_, ?_, ?_, ?_, ?_, ?_, ?_⟩
    · exact fun h => by cases h
    · exact fun _ => rfl
    · exact fun h => by cases h
    · exact fun _ => rfl
    · decide +kernel
    · decide +kernel
    · decide +kernel
  · try dsimp only
    refine ⟨?_, ?_, ?_, ?_, ?_, ?_, ?_⟩
    · exact fun _ => rfl
    · exact fun h => by cases h
    · exact fun h => by cases h
    · exact fun _ => rfl
    · decide +kernel
    · decide +kernel
    · decide +kernel
  · try dsimp only
    decide +kernel
  · try dsimp only
    decide +kernel
  · try dsimp only
    refine ⟨?_, ?_⟩
    · decide +kernel
    · decide +kernel
  · try dsimp only
    refine ⟨?_, ?_, ?_⟩
    · decide +kernel
    · decide +kernel
    · decide +kernel
  · have e : bitsOf (2 ^ 63) 47 6 * 64 = 0 := by decide +kernel
    dsimp only
    simp only [e, isHbm_low 0 (by decide), homeOf_low 0 (by decide)]
    decide +kernel
  · have e : bitsOf (2 ^ 63) 47 6 * 64 = 0 := by decide +kernel
    dsimp only
    simp only [e, isHbm_low 0 (by decide), homeOf_low 0 (by decide)]
    decide +kernel
  · try dsimp only
    decide +kernel
  · try dsimp only
    decide +kernel

/-- What SerialUnits asks of a state and of operands is met, case by case. -/
theorem witness_SerialUnits :
    (let m : Mst := fw;
     let u : Nat := 3;
     let s : State := stOf ({ Dev.reset with uart := nset Uart.zero [] 3 ⟨List.replicate 63 0, []⟩ });
     m.oid = 0 ∧
     let x := s.d.uartOf u;
     x.tx.length < 64) ∧
    (let m : Mst := fw;
     let u : Nat := 3;
     let s : State := stOf ({ Dev.reset with uart := nset Uart.zero [] 3 ⟨List.replicate 64 0, []⟩ });
     m.oid = 0 ∧
     let x := s.d.uartOf u;
     64 ≤ x.tx.length) ∧
    (let m : Mst := fw;
     let u : Nat := 3;
     let s : State := State.reset;
     m.oid = 0 ∧ s.d.pinHeld u = true) ∧
    (let m : Mst := fw;
     let u : Nat := 0;
     let s : State := State.reset;
     m.oid = 0 ∧
     let x := s.d.uartOf u;
     s.d.pinHeld u = false ∧ x.rx = []) ∧
    (let m : Mst := fw;
     let u : Nat := 0;
     let b : Byte := 5;
     let r : List Byte := [];
     let s : State := stOf ({ Dev.reset with uart := nset Uart.zero [] 0 ⟨[], [5]⟩ });
     m.oid = 0 ∧
     let x := s.d.uartOf u;
     s.d.pinHeld u = false ∧ x.rx = b :: r) ∧
    (let u : Nat := 3;
     let par : Bool := true;
     let frm : Bool := true;
     let s : State := stOf (Dev.reset.setBit (R.UART_CFG.at 0 3) 30 true);
     let stat := R.UART_STAT.at 0 u;
     let bad := par = true ∧ (s.d.reg (R.UART_CFG.at 0 u)).getLsbD 30 = true;
     let d1 : Dev := (s.d.setBit stat 29 true);
     let d2 : Dev := d1.setBit stat 28 true;
     (bad → d1 = s.d.setBit stat 29 true) ∧ (¬ bad → d1 = s.d) ∧ (frm = true → d2 = d1.setBit stat 28 true) ∧ (frm = false → d2 = d1) ∧
     s.d.uartOn u = false) ∧
    (let u : Nat := 0;
     let par : Bool := true;
     let frm : Bool := true;
     let s : State := stOf ((({ Dev.reset with uart := nset Uart.zero [] 0 ⟨[], List.replicate 64 0⟩ }).setBit (R.UART_CFG.at 0 0) 31
       true).setBit (R.UART_CFG.at 0 0) 30 true);
     let x := s.d.uartOf u;
     let stat := R.UART_STAT.at 0 u;
     let bad := par = true ∧ (s.d.reg (R.UART_CFG.at 0 u)).getLsbD 30 = true;
     let d1 : Dev := (s.d.setBit stat 29 true);
     let d2 : Dev := d1.setBit stat 28 true;
     (bad → d1 = s.d.setBit stat 29 true) ∧ (¬ bad → d1 = s.d) ∧ (frm = true → d2 = d1.setBit stat 28 true) ∧ (frm = false → d2 = d1) ∧
     s.d.uartOn u = true ∧ 64 ≤ x.rx.length) ∧
    (let u : Nat := 0;
     let par : Bool := false;
     let frm : Bool := false;
     let s : State := stOf ((({ Dev.reset with uart := nset Uart.zero [] 0 ⟨[], List.replicate 63 0⟩ }).setBit (R.UART_CFG.at 0 0) 31
       true).setBit (R.UART_CFG.at 0 0) 30 true);
     let x := s.d.uartOf u;
     let stat := R.UART_STAT.at 0 u;
     let bad := par = true ∧ (s.d.reg (R.UART_CFG.at 0 u)).getLsbD 30 = true;
     let d1 : Dev := s.d;
     let d2 : Dev := d1;
     (bad → d1 = s.d.setBit stat 29 true) ∧ (¬ bad → d1 = s.d) ∧ (frm = true → d2 = d1.setBit stat 28 true) ∧ (frm = false → d2 = d1) ∧
     s.d.uartOn u = true ∧ x.rx.length < 64) ∧
    (let u : Nat := 0;
     let par : Bool := true;
     let frm : Bool := false;
     let s : State := stOf ((({ Dev.reset with uart := nset Uart.zero [] 0 ⟨[], []⟩ }).setBit (R.UART_CFG.at 0 0) 31 true).setBit
       (R.UART_CFG.at 0 0) 30 true);
     let x := s.d.uartOf u;
     let stat := R.UART_STAT.at 0 u;
     let bad := par = true ∧ (s.d.reg (R.UART_CFG.at 0 u)).getLsbD 30 = true;
     let d1 : Dev := (s.d.setBit stat 29 true);
     let d2 : Dev := d1;
     (bad → d1 = s.d.setBit stat 29 true) ∧ (¬ bad → d1 = s.d) ∧ (frm = true → d2 = d1.setBit stat 28 true) ∧ (frm = false → d2 = d1) ∧
     s.d.uartOn u = true ∧ x.tx = []) ∧
    (let u : Nat := 0;
     let par : Bool := false;
     let frm : Bool := true;
     let s : State := stOf ((({ Dev.reset with uart := nset Uart.zero [] 0 ⟨[5], []⟩ }).setBit (R.UART_CFG.at 0 0) 31 true).setBit
       (R.UART_CFG.at 0 0) 30 true);
     let x := s.d.uartOf u;
     let stat := R.UART_STAT.at 0 u;
     let bad := par = true ∧ (s.d.reg (R.UART_CFG.at 0 u)).getLsbD 30 = true;
     let d1 : Dev := s.d;
     let d2 : Dev := d1.setBit stat 28 true;
     (bad → d1 = s.d.setBit stat 29 true) ∧ (¬ bad → d1 = s.d) ∧ (frm = true → d2 = d1.setBit stat 28 true) ∧ (frm = false → d2 = d1) ∧
     let b : Byte := 5;
     let r : List Byte := [];
     s.d.uartOn u = true ∧ x.tx = b :: r) ∧
    (let m : Mst := fw;
     let v : Nat := 2 ^ 31 - 1;
     m.oid = 0 ∧
     let go := v.testBit 31 = true;
     ¬ go) ∧
    (let m : Mst := fw;
     let sp : Nat := 0;
     let v : Nat := 2 ^ 31 + 257;
     let s : State := stOf (Dev.reset.setBit (R.SPI_CFG.at 0 0) 31 true);
     m.oid = 0 ∧
     let go := v.testBit 31 = true;
     let len := v % 512;
     let fits := nget none s.d.spi sp = none ∧ len ≠ 0 ∧ len ≤ 256 ∧ (s.d.reg (R.SPI_CFG.at 0 sp)).getLsbD 31 = true;
     go ∧ ¬ fits) ∧
    (let m : Mst := fw;
     let sp : Nat := 1;
     let v : Nat := 2 ^ 31 + 256;
     let s : State := stOf (Dev.reset.setBit (R.SPI_CFG.at 0 1) 31 true);
     m.oid = 0 ∧
     let go := v.testBit 31 = true;
     let len := v % 512;
     let fits := nget none s.d.spi sp = none ∧ len ≠ 0 ∧ len ≤ 256 ∧ (s.d.reg (R.SPI_CFG.at 0 sp)).getLsbD 31 = true;
     let held := s.d.pinHeld (spiQuarter sp) = true;
     go ∧ fits ∧ held) ∧
    (let m : Mst := fw;
     let sp : Nat := 0;
     let v : Nat := 2 ^ 31 + 256;
     let s : State := stOf (Dev.reset.setBit (R.SPI_CFG.at 0 0) 31 true);
     m.oid = 0 ∧
     let go := v.testBit 31 = true;
     let len := v % 512;
     let fits := nget none s.d.spi sp = none ∧ len ≠ 0 ∧ len ≤ 256 ∧ (s.d.reg (R.SPI_CFG.at 0 sp)).getLsbD 31 = true;
     let held := s.d.pinHeld (spiQuarter sp) = true;
     go ∧ fits ∧ ¬ held) ∧
    (let sp : Nat := 1;
     let rx : List Byte := [1, 2];
     let t : Nat × Bool := (2, false);
     let s : State := stOf ({ Dev.reset with spi := nset none [] 1 (some (2, false)) });
     nget none s.d.spi sp = some t ∧ rx.length = t.1) ∧
    (let sp : Nat := 1;
     let rx : List Byte := [1];
     let s : State := State.reset;
     (∀ t, nget none s.d.spi sp = some t → rx.length ≠ t.1)) ∧
    (let m : Mst := fw;
     let v : Nat := 2 ^ 31 - 1;
     m.oid = 0 ∧
     let go := v.testBit 31 = true;
     ¬ go) ∧
    (let m : Mst := fw;
     let v : Nat := 2 ^ 31 + 65;
     let s : State := stOf (Dev.reset.setBit (R.I3C0_CFG.at 0) 31 true);
     m.oid = 0 ∧
     let go := v.testBit 31 = true;
     let len := v % 128;
     let fits := s.d.i3c = none ∧ len ≠ 0 ∧ len ≤ 64 ∧ (s.d.reg (R.I3C0_CFG.at 0)).getLsbD 31 = true;
     go ∧ ¬ fits) ∧
    (let m : Mst := fw;
     let v : Nat := 2 ^ 31 + 64;
     let s : State := stOf (Dev.reset.setBit (R.I3C0_CFG.at 0) 31 true);
     m.oid = 0 ∧
     let go := v.testBit 31 = true;
     let len := v % 128;
     let fits := s.d.i3c = none ∧ len ≠ 0 ∧ len ≤ 64 ∧ (s.d.reg (R.I3C0_CFG.at 0)).getLsbD 31 = true;
     go ∧ fits) ∧
    (let res : Nat := 1;
     let v : Nat := 2 ^ 30 + 64;
     let s : State := stOf ({ Dev.reset with i3c := some (2 ^ 30 + 64) });
     s.d.i3c = some v ∧ 0 < res ∧ res ≤ 3 ∧ v.testBit 30 = true ∧ res = 1) ∧
    (let res : Nat := 3;
     let v : Nat := 64;
     let s : State := stOf ({ Dev.reset with i3c := some 64 });
     s.d.i3c = some v ∧ 0 < res ∧ res ≤ 3 ∧ (v.testBit 30 = false ∨ res ≠ 1)) ∧
    (let res : Nat := 4;
     let s : State := stOf ({ Dev.reset with i3c := some 64 });
     (s.d.i3c = none ∨ res = 0 ∨ 3 < res)) ∧
    (let d : Dev := Dev.reset.setFld F.AO_STATUS_CONF 2 0;
     d.confFailed = true) ∧
    (let d : Dev := Dev.reset;
     d.confFailed = false) ∧
    (let d : Dev := (Dev.reset.setBit (R.GPIO_OE.at 0) 3 true).setBit (R.GPIO_OUT.at 0) 3 true;
     let i : Nat := 3;
     d.confFailed = false ∧ d.pinHeld (i / 4) = false ∧ (d.reg (R.GPIO_OE.at 0)).getLsbD i = true ∧ (d.reg (R.GPIO_OUT.at 0)).getLsbD i =
     true) ∧
    (let d : Dev := (Dev.reset.setBit (R.GPIO_OE.at 0) 3 true).setBit (R.GPIO_OUT.at 0) 3 false;
     let i : Nat := 3;
     d.confFailed = false ∧ d.pinHeld (i / 4) = false ∧ (d.reg (R.GPIO_OE.at 0)).getLsbD i = true ∧ (d.reg (R.GPIO_OUT.at 0)).getLsbD i =
     false) ∧
    (let d : Dev := Dev.reset;
     let i : Nat := 3;
     d.confFailed = false ∧ d.pinHeld (i / 4) = false ∧ (d.reg (R.GPIO_OE.at 0)).getLsbD i = false) ∧
    (let d : Dev := Dev.reset;
     let sp : Nat := 0;
     d.confFailed = false ∧ d.pinHeld (spiQuarter sp) = false) ∧
    (let L : Nat := 31;
     let s : State := stOf host;
     s.d.linkState L = 3) ∧
    (let L : Nat := 31;
     let s : State := State.reset;
     s.d.linkState L ≠ 3) := by
  refine ⟨?_, ?_, ?_, ?_, ?_, ?_, ?_, ?_, ?_, ?_, ?_, ?_, ?_, ?_, ?_, ?_, ?_, ?_, ?_, ?_, ?_, ?_, ?_, ?_, ?_, ?_, ?_, ?_, ?_, ?_⟩
  · try dsimp only
    refine ⟨?_, ?_⟩
    · decide +kernel
    · decide +kernel
  · try dsimp only
    refine ⟨?_, ?_⟩
    · decide +kernel
    · decide +kernel
  · try dsimp only
    refine ⟨?_, ?_⟩
    · decide +kernel
    · decide +kernel
  · try dsimp only
    refine ⟨?_, ?_, ?_⟩
    · decide +kernel
    · decide +kernel
    · decide +kernel
  · try dsimp only
    refine ⟨?_, ?_, ?_⟩
    · decide +kernel
    · decide +kernel
    · decide +kernel
  · try dsimp only
    refine ⟨?_, ?_, ?_, ?_, ?_⟩
    · exact fun _ => rfl
    · exact fun h => absurd (by decide +kernel) h
    · exact fun _ => rfl
    · exact fun h => by cases h
    · decide +kernel
  · try dsimp only
    refine ⟨?_, ?_, ?_, ?_, ?_, ?_⟩
    · exact fun _ => rfl
    · exact fun h => absurd (by decide +kernel) h
    · exact fun _ => rfl
    · exact fun h => by cases h
    · decide +kernel
    · decide +kernel
  · try dsimp only
    refine ⟨?_, ?_, ?_, ?_, ?_, ?_⟩
    · exact fun h => absurd h (by decide +kernel)
    · exact fun _ => rfl
    · exact fun h => by cases h
    · exact fun _ => rfl
    · decide +kernel
    · decide +kernel
  · try dsimp only
    refine ⟨?_, ?_, ?_, ?_, ?_, ?_⟩
    · exact fun _ => rfl
    · exact fun h => absurd (by decide +kernel) h
    · exact fun h => by cases h
    · exact fun _ => rfl
    · decide +kernel
    · decide +kernel
  · try dsimp only
    refine ⟨?_, ?_, ?_, ?_, ?_, ?_⟩
    · exact fun h => absurd h (by decide +kernel)
    · exact fun _ => rfl
    · exact fun _ => rfl
    · exact fun h => by cases h
    · decide +kernel
    · decide +kernel
  · try dsimp only
    refine ⟨?_, ?_⟩
    · decide +kernel
    · decide +kernel
  · try dsimp only
    refine ⟨?_, ?_, ?_⟩
    · decide +kernel
    · decide +kernel
    · decide +kernel
  · try dsimp only
    refine ⟨?_, ?_, ?_, ?_⟩
    · decide +kernel
    · decide +kernel
    · decide +kernel
    · decide +kernel
  · try dsimp only
    refine ⟨?_, ?_, ?_, ?_⟩
    · decide +kernel
    · decide +kernel
    · decide +kernel
    · decide +kernel
  · try dsimp only
    refine ⟨?_, ?_⟩
    · decide +kernel
    · decide +kernel
  · try dsimp only
    decide +kernel
  · try dsimp only
    refine ⟨?_, ?_⟩
    · decide +kernel
    · decide +kernel
  · try dsimp only
    refine ⟨?_, ?_, ?_⟩
    · decide +kernel
    · decide +kernel
    · decide +kernel
  · try dsimp only
    refine ⟨?_, ?_, ?_⟩
    · decide +kernel
    · decide +kernel
    · decide +kernel
  · try dsimp only
    refine ⟨?_, ?_, ?_, ?_, ?_⟩
    · decide +kernel
    · decide +kernel
    · decide +kernel
    · decide +kernel
    · decide +kernel
  · try dsimp only
    refine ⟨?_, ?_, ?_, ?_⟩
    · decide +kernel
    · decide +kernel
    · decide +kernel
    · decide +kernel
  · try dsimp only
    decide +kernel
  · try dsimp only
    decide +kernel
  · try dsimp only
    decide +kernel
  · try dsimp only
    refine ⟨?_, ?_, ?_, ?_⟩
    · decide +kernel
    · decide +kernel
    · decide +kernel
    · decide +kernel
  · try dsimp only
    refine ⟨?_, ?_, ?_, ?_⟩
    · decide +kernel
    · decide +kernel
    · decide +kernel
    · decide +kernel
  · try dsimp only
    refine ⟨?_, ?_, ?_⟩
    · decide +kernel
    · decide +kernel
    · decide +kernel
  · try dsimp only
    refine ⟨?_, ?_⟩
    · decide +kernel
    · decide +kernel
  · try dsimp only
    decide +kernel
  · try dsimp only
    decide +kernel

/-- What DebugHalts asks of a state and of operands is met, case by case. -/
theorem witness_DebugHalts :
    (let m : Mst := ⟨0x4C0, 0, false⟩;
     (m.mid = 0x4C0 ∨ m.oid = 0)) ∧
    (let m : Mst := ⟨0x4C0, 0, false⟩;
     let s : State := stOf (Dev.reset.setRegN (R.SAFE_STAT.at 0) (2 ^ 31));
     m.mid = 0x4C0 ∧
     let stopped := s.d.safe = true ∨ s.d.confFailed = true;
     stopped) ∧
    (let m : Mst := ⟨0x4C0, 0, false⟩;
     let s : State := State.reset;
     m.mid = 0x4C0 ∧
     let stopped := s.d.safe = true ∨ s.d.confFailed = true;
     ¬ stopped) ∧
    (let m : Mst := ⟨0x4C0, 0, false⟩;
     let s : State := State.reset;
     m.mid = 0x4C0 ∧
     let stopped := s.d.safe = true ∨ s.d.confFailed = true;
     ¬ stopped ∧ s.d.sysHalt = false) ∧
    (let m : Mst := ⟨0x4C0, 0, false⟩;
     let s : State := stOf ({ Dev.reset with sysHalt := true });
     m.mid = 0x4C0 ∧
     let stopped := s.d.safe = true ∨ s.d.confFailed = true;
     ¬ stopped ∧ s.d.sysHalt = true) ∧
    (let m : Mst := ⟨0x4C0, 0, false⟩;
     let v : Nat := 65535;
     let s : State := stOf (Dev.reset.setFld F.AO_STATUS_CONF 2 0);
     m.mid = 0x4C0 ∧
     let stopped := s.d.safe = true ∨ s.d.confFailed = true;
     stopped ∧ v % 65536 ≠ 0) ∧
    (let m : Mst := ⟨0x4C0, 0, false⟩;
     let v : Nat := 65535;
     let s : State := State.reset;
     m.mid = 0x4C0 ∧
     let stopped := s.d.safe = true ∨ s.d.confFailed = true;
     ¬ stopped ∧ v % 65536 ≠ 0) ∧
    (let m : Mst := ⟨0x4C0, 0, false⟩;
     let v : Nat := 65536;
     m.mid = 0x4C0 ∧ v % 65536 = 0) ∧
    (let m : Mst := fw;
     m.mid ≠ 0x4C0 ∧ m.oid = 0) ∧
    (let s : State := stOf ({ Dev.reset with haltLeft := 1 });
     s.d.haltLeft = 1) ∧
    (let s : State := stOf ({ Dev.reset with haltLeft := 2 });
     s.d.haltLeft ≠ 1) ∧
    (let m : Mst := ⟨0x4C0, 0, false⟩;
     let r : Nat := 3;
     let v : Nat := 1;
     let s : State := stOf (Dev.reset.setRegN (R.XT_IN.at 0 3) 4);
     m.mid = 0x4C0 ∧
     let fires := v.testBit 0 = true ∧ r < 4 ∧ getBits (s.d.reg (R.XT_IN.at 0 r)) 2 0 = 4;
     fires) ∧
    (let m : Mst := ⟨0x4C0, 0, false⟩;
     let r : Nat := 4;
     let v : Nat := 1;
     let s : State := stOf (Dev.reset.setRegN (R.XT_IN.at 0 4) 4);
     m.mid = 0x4C0 ∧
     let fires := v.testBit 0 = true ∧ r < 4 ∧ getBits (s.d.reg (R.XT_IN.at 0 r)) 2 0 = 4;
     ¬ fires) ∧
    (let m : Mst := fw;
     let q : Nat := 3;
     let s : State := stOf ((Dev.reset.setCore 63 { Core.zero with st := .run, halted := true }).setRegN (R.DBG_CREG_SEL.at 3) (15 * 2 ^ 28 +
       1 * 2 ^ 26 + 33));
     m.oid = 0 ∧
     let sel := s.d.reg (R.DBG_CREG_SEL.at q);
     let n := q * 16 + getBits sel 31 28;
     let kind := getBits sel 27 26;
     let idx := getBits sel 11 0;
     let c := s.d.core n;
     let csr := s.d.csrRead s.clk n idx;
     let none' := c.halted = false ∨ kind = 3 ∨ (kind = 0 ∧ 31 < idx) ∨ (kind = 1 ∧ 32 < idx) ∨ (kind = 2 ∧ csr = none);
     none') ∧
    (let m : Mst := fw;
     let q : Nat := 3;
     let w : Bool := false;
     let s : State := stOf ((Dev.reset.setCore 63 { Core.zero with st := .run, halted := true }).setRegN (R.DBG_CREG_SEL.at 3) (15 * 2 ^ 28 +
       0 * 2 ^ 26 + 31));
     m.oid = 0 ∧
     let sel := s.d.reg (R.DBG_CREG_SEL.at q);
     let n := q * 16 + getBits sel 31 28;
     let kind := getBits sel 27 26;
     let idx := getBits sel 11 0;
     let c := s.d.core n;
     c.halted = true ∧ kind = 0 ∧ idx ≤ 31 ∧ w = false) ∧
    (let m : Mst := fw;
     let q : Nat := 3;
     let w : Bool := true;
     let s : State := stOf ((Dev.reset.setCore 63 { Core.zero with st := .run, halted := true }).setRegN (R.DBG_CREG_SEL.at 3) (15 * 2 ^ 28 +
       0 * 2 ^ 26 + 0));
     m.oid = 0 ∧
     let sel := s.d.reg (R.DBG_CREG_SEL.at q);
     let n := q * 16 + getBits sel 31 28;
     let kind := getBits sel 27 26;
     let idx := getBits sel 11 0;
     let c := s.d.core n;
     c.halted = true ∧ kind = 0 ∧ idx ≤ 31 ∧ w = true ∧ idx = 0) ∧
    (let m : Mst := fw;
     let q : Nat := 3;
     let w : Bool := true;
     let s : State := stOf ((Dev.reset.setCore 63 { Core.zero with st := .run, halted := true }).setRegN (R.DBG_CREG_SEL.at 3) (15 * 2 ^ 28 +
       0 * 2 ^ 26 + 31));
     m.oid = 0 ∧
     let sel := s.d.reg (R.DBG_CREG_SEL.at q);
     let n := q * 16 + getBits sel 31 28;
     let kind := getBits sel 27 26;
     let idx := getBits sel 11 0;
     let c := s.d.core n;
     c.halted = true ∧ kind = 0 ∧ idx ≤ 31 ∧ w = true ∧ idx ≠ 0) ∧
    (let m : Mst := fw;
     let q : Nat := 3;
     let w : Bool := false;
     let s : State := stOf ((Dev.reset.setCore 63 { Core.zero with st := .run, halted := true }).setRegN (R.DBG_CREG_SEL.at 3) (15 * 2 ^ 28 +
       1 * 2 ^ 26 + 32));
     m.oid = 0 ∧
     let sel := s.d.reg (R.DBG_CREG_SEL.at q);
     let n := q * 16 + getBits sel 31 28;
     let kind := getBits sel 27 26;
     let idx := getBits sel 11 0;
     let c := s.d.core n;
     c.halted = true ∧ kind = 1 ∧ idx ≤ 32 ∧ w = false) ∧
    (let m : Mst := fw;
     let q : Nat := 3;
     let w : Bool := true;
     let s : State := stOf ((Dev.reset.setCore 63 { Core.zero with st := .run, halted := true }).setRegN (R.DBG_CREG_SEL.at 3) (15 * 2 ^ 28 +
       1 * 2 ^ 26 + 31));
     m.oid = 0 ∧
     let sel := s.d.reg (R.DBG_CREG_SEL.at q);
     let n := q * 16 + getBits sel 31 28;
     let kind := getBits sel 27 26;
     let idx := getBits sel 11 0;
     let c := s.d.core n;
     c.halted = true ∧ kind = 1 ∧ idx ≤ 32 ∧ w = true ∧ idx ≠ 32) ∧
    (let m : Mst := fw;
     let q : Nat := 3;
     let w : Bool := true;
     let s : State := stOf ((Dev.reset.setCore 63 { Core.zero with st := .run, halted := true }).setRegN (R.DBG_CREG_SEL.at 3) (15 * 2 ^ 28 +
       1 * 2 ^ 26 + 32));
     m.oid = 0 ∧
     let sel := s.d.reg (R.DBG_CREG_SEL.at q);
     let n := q * 16 + getBits sel 31 28;
     let kind := getBits sel 27 26;
     let idx := getBits sel 11 0;
     let c := s.d.core n;
     c.halted = true ∧ kind = 1 ∧ idx ≤ 32 ∧ w = true ∧ idx = 32) ∧
    (let m : Mst := fw;
     let q : Nat := 3;
     let w : Bool := false;
     let r : Word × Dev := ((stOf ((Dev.reset.setCore 63 { Core.zero with st := .run, halted := true }).setRegN (R.DBG_CREG_SEL.at 3) (15 * 2
       ^ 28 + 2 * 2 ^ 26 + 1986))).d.csrRead (stOf ((Dev.reset.setCore 63 { Core.zero with st := .run, halted := true }).setRegN
       (R.DBG_CREG_SEL.at 3) (15 * 2 ^ 28 + 2 * 2 ^ 26 + 1986))).clk 63 0x7C2).getD (0, Dev.reset);
     let s : State := stOf ((Dev.reset.setCore 63 { Core.zero with st := .run, halted := true }).setRegN (R.DBG_CREG_SEL.at 3) (15 * 2 ^ 28 +
       2 * 2 ^ 26 + 1986));
     m.oid = 0 ∧
     let sel := s.d.reg (R.DBG_CREG_SEL.at q);
     let n := q * 16 + getBits sel 31 28;
     let kind := getBits sel 27 26;
     let idx := getBits sel 11 0;
     let c := s.d.core n;
     let csr := s.d.csrRead s.clk n idx;
     c.halted = true ∧ kind = 2 ∧ csr = some r ∧ w = false) ∧
    (let m : Mst := fw;
     let q : Nat := 3;
     let w : Bool := true;
     let r : Word × Dev := ((stOf ((Dev.reset.setCore 63 { Core.zero with st := .run, halted := true }).setRegN (R.DBG_CREG_SEL.at 3) (15 * 2
       ^ 28 + 2 * 2 ^ 26 + 1986))).d.csrRead (stOf ((Dev.reset.setCore 63 { Core.zero with st := .run, halted := true }).setRegN
       (R.DBG_CREG_SEL.at 3) (15 * 2 ^ 28 + 2 * 2 ^ 26 + 1986))).clk 63 0x7C2).getD (0, Dev.reset);
     let s : State := stOf ((Dev.reset.setCore 63 { Core.zero with st := .run, halted := true }).setRegN (R.DBG_CREG_SEL.at 3) (15 * 2 ^ 28 +
       2 * 2 ^ 26 + 1986));
     m.oid = 0 ∧
     let sel := s.d.reg (R.DBG_CREG_SEL.at q);
     let n := q * 16 + getBits sel 31 28;
     let kind := getBits sel 27 26;
     let idx := getBits sel 11 0;
     let c := s.d.core n;
     let csr := s.d.csrRead s.clk n idx;
     c.halted = true ∧ kind = 2 ∧ csr = some r ∧ w = true) := by
  refine ⟨?_, ?_, ?_, ?_, ?_, ?_, ?_, ?_, ?_, ?_, ?_, ?_, ?_, ?_, ?_, ?_, ?_, ?_, ?_, ?_, ?_, ?_⟩
  · try dsimp only
    decide +kernel
  · try dsimp only
    refine ⟨?_, ?_⟩
    · decide +kernel
    · decide +kernel
  · try dsimp only
    refine ⟨?_, ?_⟩
    · decide +kernel
    · decide +kernel
  · try dsimp only
    refine ⟨?_, ?_, ?_⟩
    · decide +kernel
    · decide +kernel
    · decide +kernel
  · try dsimp only
    refine ⟨?_, ?_, ?_⟩
    · decide +kernel
    · decide +kernel
    · decide +kernel
  · try dsimp only
    refine ⟨?_, ?_, ?_⟩
    · decide +kernel
    · decide +kernel
    · decide +kernel
  · try dsimp only
    refine ⟨?_, ?_, ?_⟩
    · decide +kernel
    · decide +kernel
    · decide +kernel
  · try dsimp only
    refine ⟨?_, ?_⟩
    · decide +kernel
    · decide +kernel
  · try dsimp only
    refine ⟨?_, ?_⟩
    · decide +kernel
    · decide +kernel
  · try dsimp only
    decide +kernel
  · try dsimp only
    decide +kernel
  · try dsimp only
    refine ⟨?_, ?_⟩
    · decide +kernel
    · decide +kernel
  · try dsimp only
    refine ⟨?_, ?_⟩
    · decide +kernel
    · decide +kernel
  · try dsimp only
    refine ⟨?_, ?_⟩
    · decide +kernel
    · decide +kernel
  · try dsimp only
    refine ⟨?_, ?_, ?_, ?_, ?_⟩
    · decide +kernel
    · decide +kernel
    · decide +kernel
    · decide +kernel
    · decide +kernel
  · try dsimp only
    refine ⟨?_, ?_, ?_, ?_, ?_, ?_⟩
    · decide +kernel
    · decide +kernel
    · decide +kernel
    · decide +kernel
    · decide +kernel
    · decide +kernel
  · try dsimp only
    refine ⟨?_, ?_, ?_, ?_, ?_, ?_⟩
    · decide +kernel
    · decide +kernel
    · decide +kernel
    · decide +kernel
    · decide +kernel
    · decide +kernel
  · try dsimp only
    refine ⟨?_, ?_, ?_, ?_, ?_⟩
    · decide +kernel
    · decide +kernel
    · decide +kernel
    · decide +kernel
    · decide +kernel
  · try dsimp only
    refine ⟨?_, ?_, ?_, ?_, ?_, ?_⟩
    · decide +kernel
    · decide +kernel
    · decide +kernel
    · decide +kernel
    · decide +kernel
    · decide +kernel
  · try dsimp only
    refine ⟨?_, ?_, ?_, ?_, ?_, ?_⟩
    · decide +kernel
    · decide +kernel
    · decide +kernel
    · decide +kernel
    · decide +kernel
    · decide +kernel
  · try dsimp only
    refine ⟨?_, ?_, ?_, ?_, ?_⟩
    · decide +kernel
    · decide +kernel
    · decide +kernel
    · decide +kernel
    · decide +kernel
  · try dsimp only
    refine ⟨?_, ?_, ?_, ?_, ?_⟩
    · decide +kernel
    · decide +kernel
    · decide +kernel
    · decide +kernel
    · decide +kernel

/-- What Captures asks of a state and of operands is met, case by case. -/
theorem witness_Captures :
    (let m : Mst := ⟨0x4C0, 0, false⟩;
     let s : State := stOf (Dev.reset.setCap 3 0);
     m.mid = 0x4C0 ∧
     let st := s.d.capState;
     st ≠ 0) ∧
    (let m : Mst := ⟨0x4C0, 0, false⟩;
     let s : State := stOf Dev.reset (⟨0, 1, 0, false, false, 0⟩);
     m.mid = 0x4C0 ∧
     let e := s.d.regN (R.CAP_DTIME.at 0);
     let st := s.d.capState;
     st = 0 ∧ e < s.clk.dtime) ∧
    (let m : Mst := ⟨0x4C0, 0, false⟩;
     let s : State := stOf (Dev.reset.setRegN (R.CAP_DTIME.at 0) 1) (⟨0, 1, 0, false, false, 0⟩);
     m.mid = 0x4C0 ∧
     let e := s.d.regN (R.CAP_DTIME.at 0);
     let st := s.d.capState;
     let here := s.d.sysHalt = true ∧ e = s.clk.dtime;
     st = 0 ∧ s.clk.dtime ≤ e ∧ ¬ here) ∧
    (let m : Mst := ⟨0x4C0, 0, false⟩;
     let s : State := stOf ({ Dev.reset.setRegN (R.CAP_DTIME.at 0) 1 with sysHalt := true }) (⟨0, 1, 0, false, false, 0⟩);
     m.mid = 0x4C0 ∧
     let e := s.d.regN (R.CAP_DTIME.at 0);
     let st := s.d.capState;
     let here := s.d.sysHalt = true ∧ e = s.clk.dtime;
     st = 0 ∧ here) ∧
    (let m : Mst := ⟨0x4C0, 0, false⟩;
     let s : State := stOf (Dev.reset.setCap 1 0);
     m.mid = 0x4C0 ∧
     let st := s.d.capState;
     st = 1) ∧
    (let m : Mst := ⟨0x4C0, 0, false⟩;
     let s : State := stOf (Dev.reset.setCap 2 0);
     m.mid = 0x4C0 ∧
     let st := s.d.capState;
     st ≠ 1) ∧
    (let s : State := stOf (Dev.reset.setCap 1 0) (⟨0, 0, 63, true, false, 0⟩);
     let due := s.d.capState = 1 ∧ s.clk.runs = true ∧ s.clk.cyc < 64 ∧ s.clk.dtime = s.d.regN (R.CAP_DTIME.at 0);
     due) ∧
    (let s : State := stOf (Dev.reset.setCap 1 0) (⟨0, 0, 64, true, false, 0⟩);
     let due := s.d.capState = 1 ∧ s.clk.runs = true ∧ s.clk.cyc < 64 ∧ s.clk.dtime = s.d.regN (R.CAP_DTIME.at 0);
     ¬ due) ∧
    (let m : Mst := ⟨0x4C0, 0, false⟩;
     let s : State := State.reset;
     m.mid = 0x4C0 ∧ s.d.capture = none) ∧
    (let m : Mst := ⟨0x4C0, 0, false⟩;
     let c : Capture := ⟨0, 0, [], 0, none⟩;
     let s : State := stOf ({ Dev.reset.setCap 2 0 with capture := some ⟨0, 0, [], 0, none⟩ });
     m.mid = 0x4C0 ∧
     let st := s.d.capState;
     s.d.capture = some c ∧ st = 2) ∧
    (let m : Mst := ⟨0x4C0, 0, false⟩;
     let c : Capture := ⟨0, 0, [], 0, none⟩;
     let s : State := stOf ({ Dev.reset.setCap 3 0 with capture := some ⟨0, 0, [], 0, none⟩ });
     m.mid = 0x4C0 ∧
     let st := s.d.capState;
     s.d.capture = some c ∧ st ≠ 2) ∧
    (let m : Mst := ⟨0x4C0, 0, false⟩;
     let c : Capture := ⟨0, 0, [], 0, (some 3)⟩;
     let s : State := stOf ({ Dev.reset.setCap 3 0 with capture := some ⟨0, 0, [], 0, (some 3)⟩ });
     m.mid = 0x4C0 ∧
     let st := s.d.capState;
     s.d.capture = some c ∧
     let selects := st = 2 ∨ (st = 3 ∧ c.quarter ≠ none);
     selects) ∧
    (let m : Mst := ⟨0x4C0, 0, false⟩;
     let c : Capture := ⟨0, 0, [], 0, none⟩;
     let s : State := stOf ({ Dev.reset.setCap 3 0 with capture := some ⟨0, 0, [], 0, none⟩ });
     m.mid = 0x4C0 ∧
     let st := s.d.capState;
     s.d.capture = some c ∧
     let selects := st = 2 ∨ (st = 3 ∧ c.quarter ≠ none);
     ¬ selects) ∧
    (let s : State := State.reset;
     s.d.capture = none) ∧
    (Config.fuseCapSize.toNat = 64 →
     let c : Capture := ⟨0, 0, [], 0, none⟩;
     let s : State := stOf ({ (Dev.reset.setRegN (R.SCC_CFG.at 0) 0).setCap 3 0 with capture := some ⟨0, 0, [], 0, none⟩ });
     s.d.capture = some c ∧
     let unloads := s.d.capState = 3 ∧ c.quarter = none;
     let r := s.d.dmaAll c (s.d.regN (R.CAP_BASE.at 0)) (upTo 4);
     unloads ∧ r.2 = true) ∧
    (let c : Capture := ⟨0, 0, [], 0, none⟩;
     let s : State := stOf
       ({ ((Dev.reset.setFld F.PWR_DOM_CUR 2 0 17).setFld F.PWR_DOM_CUR 2 0 18).setCap 3 0 with capture := some ⟨0, 0, [], 0, none⟩ });
     s.d.capture = some c ∧
     let unloads := s.d.capState = 3 ∧ c.quarter = none;
     let r := s.d.dmaAll c (s.d.regN (R.CAP_BASE.at 0)) (upTo 4);
     unloads ∧ r.2 = false) ∧
    (let c : Capture := ⟨0, 0, [], 0, none⟩;
     let s : State := stOf ({ Dev.reset.setCap 2 0 with capture := some ⟨0, 0, [], 0, none⟩ });
     s.d.capture = some c ∧
     let unloads := s.d.capState = 3 ∧ c.quarter = none;
     ¬ unloads) ∧
    (let m : Mst := ⟨0x4C0, 0, false⟩;
     let s : State := State.reset;
     m.oid = 0 ∧
     let none' := s.d.capture = none ∨ ∃ c, s.d.capture = some c ∧ c.quarter = none;
     none') ∧
    (let m : Mst := fw;
     let c : Capture := ⟨0, 0, [], 15, (some 3)⟩;
     let q : Nat := 3;
     let s : State := stOf ({ Dev.reset.setCap 3 0 with capture := some ⟨0, 0, [], 15, (some 3)⟩ });
     m.oid = 0 ∧ s.d.capture = some c ∧ c.quarter = some q ∧ c.read < 16) ∧
    (let m : Mst := fw;
     let c : Capture := ⟨0, 0, [], 16, (some 3)⟩;
     let q : Nat := 3;
     let s : State := stOf ({ Dev.reset.setCap 3 0 with capture := some ⟨0, 0, [], 16, (some 3)⟩ });
     m.oid = 0 ∧ s.d.capture = some c ∧ c.quarter = some q ∧ 16 ≤ c.read) ∧
    (let m : Mst := ⟨0x4C0, 0, false⟩;
     let q : Nat := 3;
     let s : State := State.reset;
     let may := m.mid = 0x4C0 ∨ (m.oid = 0 ∧ (s.d.reg (R.DBG_CTRL.at q)).getLsbD 0 = true);
     may) ∧
    (let m : Mst := fw;
     let q : Nat := 3;
     let s : State := State.reset;
     let may := m.mid = 0x4C0 ∨ (m.oid = 0 ∧ (s.d.reg (R.DBG_CTRL.at q)).getLsbD 0 = true);
     m.oid = 0 ∧ ¬ may) ∧
    (let m : Mst := fw;
     m.mid ≠ 0x4C0 ∧ m.oid = 0) ∧
    (let m : Mst := ⟨0x4C0, 0, false⟩;
     let q : Nat := 3;
     let code : Nat := 0x26;
     let v : Nat := 1;
     m.oid = 0 ∧
     let here := code = 0xF0 ∨ blockIn q code = true;
     let may := code ≠ 0x28 ∨ m.mid = 0x4C0;
     here ∧ may ∧ v % 2 = 1) ∧
    (let m : Mst := ⟨0x4C0, 0, false⟩;
     let q : Nat := 3;
     let code : Nat := 0xF0;
     let v : Nat := 2;
     m.oid = 0 ∧
     let here := code = 0xF0 ∨ blockIn q code = true;
     let may := code ≠ 0x28 ∨ m.mid = 0x4C0;
     here ∧ may ∧ v % 2 = 0) ∧
    (let m : Mst := fw;
     let q : Nat := 3;
     let code : Nat := 0x28;
     m.oid = 0 ∧
     let here := code = 0xF0 ∨ blockIn q code = true;
     let may := code ≠ 0x28 ∨ m.mid = 0x4C0;
     here ∧ ¬ may) ∧
    (let m : Mst := ⟨0x4C0, 0, false⟩;
     let q : Nat := 3;
     let code : Nat := 0x27;
     m.oid = 0 ∧
     let here := code = 0xF0 ∨ blockIn q code = true;
     ¬ here) := by
  refine ⟨?_, ?_, ?_, ?_, ?_, ?_, ?_, ?_, ?_, ?_, ?_, ?_, ?_, ?_, ?_, ?_, ?_, ?_, ?_, ?_, ?_, ?_, ?_, ?_, ?_, ?_, ?_⟩
  · try dsimp only
    refine ⟨?_, ?_⟩
    · decide +kernel
    · decide +kernel
  · try dsimp only
    refine ⟨?_, ?_, ?_⟩
    · decide +kernel
    · decide +kernel
    · decide +kernel
  · try dsimp only
    refine ⟨?_, ?_, ?_, ?_⟩
    · decide +kernel
    · decide +kernel
    · decide +kernel
    · decide +kernel
  · try dsimp only
    refine ⟨?_, ?_, ?_⟩
    · decide +kernel
    · decide +kernel
    · decide +kernel
  · try dsimp only
    refine ⟨?_, ?_⟩
    · decide +kernel
    · decide +kernel
  · try dsimp only
    refine ⟨?_, ?_⟩
    · decide +kernel
    · decide +kernel
  · try dsimp only
    decide +kernel
  · try dsimp only
    decide +kernel
  · try dsimp only
    refine ⟨?_, ?_⟩
    · decide +kernel
    · decide +kernel
  · try dsimp only
    refine ⟨?_, ?_, ?_⟩
    · decide +kernel
    · decide +kernel
    · decide +kernel
  · try dsimp only
    refine ⟨?_, ?_, ?_⟩
    · decide +kernel
    · decide +kernel
    · decide +kernel
  · try dsimp only
    refine ⟨?_, ?_, ?_⟩
    · decide +kernel
    · decide +kernel
    · decide +kernel
  · try dsimp only
    refine ⟨?_, ?_, ?_⟩
    · decide +kernel
    · decide +kernel
    · decide +kernel
  · try dsimp only
    decide +kernel
  · intro hc
    refine ⟨by decide +kernel, by decide +kernel, ?_⟩
    dsimp only
    generalize hA : Dev.regN _ (R.CAP_BASE.at 0) = a
    have ha : a = 0 := hA.symm.trans (by decide +kernel)
    subst ha
    clear hA
    rw [show upTo 4 = [0, 1, 2, 3] from rfl, Dev.dmaAll, hc, dmaImage_ok _ _ _ _ _ hc (memIdle_low _ _ _ _ _ (by decide +kernel) (by decide +kernel) (by decide +kernel) (by decide +kernel) (by decide +kernel) (by decide +kernel))]
    dsimp only
    rw [if_pos rfl, Dev.dmaAll, hc, dmaImage_ok _ _ _ _ _ hc (memIdle_low _ _ _ _ _ (by decide +kernel) (by decide +kernel) (by decide +kernel) (by decide +kernel) (by decide +kernel) (by decide +kernel))]
    dsimp only
    rw [if_pos rfl, Dev.dmaAll, hc, dmaImage_ok _ _ _ _ _ hc (memIdle_low _ _ _ _ _ (by decide +kernel) (by decide +kernel) (by decide +kernel) (by decide +kernel) (by decide +kernel) (by decide +kernel))]
    dsimp only
    rw [if_pos rfl, Dev.dmaAll, hc, dmaImage_ok _ _ _ _ _ hc (memIdle_low _ _ _ _ _ (by decide +kernel) (by decide +kernel) (by decide +kernel) (by decide +kernel) (by decide +kernel) (by decide +kernel))]
    rfl
  · try dsimp only
    refine ⟨?_, ?_, ?_⟩
    · decide +kernel
    · decide +kernel
    · exact dmaAll_off _ _ _ (by decide +kernel) (by decide +kernel)
  · try dsimp only
    refine ⟨?_, ?_⟩
    · decide +kernel
    · decide +kernel
  · try dsimp only
    refine ⟨?_, ?_⟩
    · decide +kernel
    · decide +kernel
  · try dsimp only
    refine ⟨?_, ?_, ?_, ?_⟩
    · decide +kernel
    · decide +kernel
    · decide +kernel
    · decide +kernel
  · try dsimp only
    refine ⟨?_, ?_, ?_, ?_⟩
    · decide +kernel
    · decide +kernel
    · decide +kernel
    · decide +kernel
  · try dsimp only
    decide +kernel
  · try dsimp only
    refine ⟨?_, ?_⟩
    · decide +kernel
    · decide +kernel
  · try dsimp only
    refine ⟨?_, ?_⟩
    · decide +kernel
    · decide +kernel
  · try dsimp only
    refine ⟨?_, ?_, ?_, ?_⟩
    · decide +kernel
    · decide +kernel
    · decide +kernel
    · decide +kernel
  · try dsimp only
    refine ⟨?_, ?_, ?_, ?_⟩
    · decide +kernel
    · decide +kernel
    · decide +kernel
    · decide +kernel
  · try dsimp only
    refine ⟨?_, ?_, ?_⟩
    · decide +kernel
    · decide +kernel
    · decide +kernel
  · try dsimp only
    refine ⟨?_, ?_⟩
    · decide +kernel
    · decide +kernel

/-- What Requests asks of a state and of operands is met, case by case. -/
theorem witness_Requests :
    (let a0 : Access := ⟨⟨0, 0, false⟩, 0xE000000000, 8, false, 0⟩;
     let e : HbmErr := .none;
     let fence : Bool := false;
     let row : Instr := Instr.nocRequest a0 e fence;
     let d0 : Dev := (stOf ({ Dev.reset with fences := nset false [] 0 true })).d;
     let s : State := stOf ({ Dev.reset with fences := nset false [] 0 true });
     (s.d.sysHalt = false ∨ a0.m.mid = 0x4C0) ∧
     let isReg := isQReg a0.addr = true ∨ isAo a0.addr = true;
     ((row = Instr.nocRequest a0 e fence) ∨ (row = .registerWrite a0 ∧ e = .none ∧ fence = false ∧ isReg)) ∧
     let a := s.d.issued a0;
     let mid := a0.m.mid;
     (fence = true → d0 = { s.d with fences := nset false s.d.fences mid (s.d.outstanding mid) }) ∧ (fence = false → d0 = s.d) ∧ d0.mustHold
     a = true) ∧
    (let a0 : Access := ⟨⟨0, 0, false⟩, 0xE000000000, 8, false, 0⟩;
     let e : HbmErr := .none;
     let fence : Bool := false;
     let row : Instr := Instr.nocRequest a0 e fence;
     let d0 : Dev := (stOf (Dev.reset.setFld F.PWR_DOM_CUR 1 0 16)).d;
     let x : Nat × Nat := (0, 16);
     let r : List (Nat × Nat) := [(0, 16), (0, 16)];
     let s : State := stOf (Dev.reset.setFld F.PWR_DOM_CUR 1 0 16);
     (s.d.sysHalt = false ∨ a0.m.mid = 0x4C0) ∧
     let isReg := isQReg a0.addr = true ∨ isAo a0.addr = true;
     ((row = Instr.nocRequest a0 e fence) ∨ (row = .registerWrite a0 ∧ e = .none ∧ fence = false ∧ isReg)) ∧
     let a := s.d.issued a0;
     let mid := a0.m.mid;
     (fence = true → d0 = { s.d with fences := nset false s.d.fences mid (s.d.outstanding mid) }) ∧ (fence = false → d0 = s.d) ∧ d0.mustHold
     a = false ∧ d0.baskingOn a = x :: r) ∧
    (let a0 : Access := ⟨⟨0, 0, false⟩, 0xE000000000, 0, false, 0⟩;
     let e : HbmErr := .none;
     let fence : Bool := false;
     let row : Instr := Instr.nocRequest a0 e fence;
     let d0 : Dev := (stOf (Dev.reset)).d;
     let s : State := stOf Dev.reset;
     (s.d.sysHalt = false ∨ a0.m.mid = 0x4C0) ∧
     let isReg := isQReg a0.addr = true ∨ isAo a0.addr = true;
     ((row = Instr.nocRequest a0 e fence) ∨ (row = .registerWrite a0 ∧ e = .none ∧ fence = false ∧ isReg)) ∧
     let a := s.d.issued a0;
     let mid := a0.m.mid;
     (fence = true → d0 = { s.d with fences := nset false s.d.fences mid (s.d.outstanding mid) }) ∧ (fence = false → d0 = s.d) ∧
     let free := d0.mustHold a = false ∧ d0.baskingOn a = [];
     free ∧ ¬ isReg ∧ burstOk a0 = false) ∧
    (let a0 : Access := ⟨⟨0, 0, false⟩, 0x8000000000, 8, false, 0⟩;
     let e : HbmErr := .none;
     let fence : Bool := false;
     let row : Instr := Instr.nocRequest a0 e fence;
     let d0 : Dev := (stOf (Dev.reset)).d;
     let s : State := stOf Dev.reset;
     (s.d.sysHalt = false ∨ a0.m.mid = 0x4C0) ∧
     let isReg := isQReg a0.addr = true ∨ isAo a0.addr = true;
     ((row = Instr.nocRequest a0 e fence) ∨ (row = .registerWrite a0 ∧ e = .none ∧ fence = false ∧ isReg)) ∧
     let a := s.d.issued a0;
     let mid := a0.m.mid;
     (fence = true → d0 = { s.d with fences := nset false s.d.fences mid (s.d.outstanding mid) }) ∧ (fence = false → d0 = s.d) ∧
     let free := d0.mustHold a = false ∧ d0.baskingOn a = [];
     free ∧ ¬ isReg ∧ burstOk a0 = true ∧ isTmem a0.addr = true) ∧
    (let a0 : Access := ⟨⟨0, 0, false⟩, 0xE000000000 + 0x7FFF8, 8, false, 0⟩;
     let e : HbmErr := .none;
     let fence : Bool := false;
     let row : Instr := Instr.nocRequest a0 e fence;
     let d0 : Dev := (stOf (Dev.reset)).d;
     let s : State := stOf Dev.reset;
     (s.d.sysHalt = false ∨ a0.m.mid = 0x4C0) ∧
     let isReg := isQReg a0.addr = true ∨ isAo a0.addr = true;
     ((row = Instr.nocRequest a0 e fence) ∨ (row = .registerWrite a0 ∧ e = .none ∧ fence = false ∧ isReg)) ∧
     let a := s.d.issued a0;
     let mid := a0.m.mid;
     (fence = true → d0 = { s.d with fences := nset false s.d.fences mid (s.d.outstanding mid) }) ∧ (fence = false → d0 = s.d) ∧
     let free := d0.mustHold a = false ∧ d0.baskingOn a = [];
     free ∧ ¬ isReg ∧ burstOk a0 = true ∧ isTmem a0.addr = false) ∧
    (let a0 : Access := ⟨⟨0, 0, false⟩, 0xF003000000, 8, false, 0⟩;
     let e : HbmErr := .none;
     let fence : Bool := false;
     let row : Instr := Instr.registerWrite a0;
     let d0 : Dev := (stOf (Dev.reset)).d;
     let t : Nat := 3;
     let s : State := stOf Dev.reset;
     (s.d.sysHalt = false ∨ a0.m.mid = 0x4C0) ∧
     let isReg := isQReg a0.addr = true ∨ isAo a0.addr = true;
     ((row = Instr.nocRequest a0 e fence) ∨ (row = .registerWrite a0 ∧ e = .none ∧ fence = false ∧ isReg)) ∧
     let a := s.d.issued a0;
     let mid := a0.m.mid;
     (fence = true → d0 = { s.d with fences := nset false s.d.fences mid (s.d.outstanding mid) }) ∧ (fence = false → d0 = s.d) ∧
     let free := d0.mustHold a = false ∧ d0.baskingOn a = [];
     free ∧ isReg ∧ d0.targetQ a0.addr = some t ∧
     let up := d0.routeOk (d0.midQuarter mid) t = true;
     ¬ up) ∧
    (let a0 : Access := ⟨⟨0, 0, false⟩, 0xF0000B0000, 8, false, 0⟩;
     let e : HbmErr := .none;
     let fence : Bool := false;
     let row : Instr := Instr.registerWrite a0;
     let d0 : Dev := (stOf (Dev.reset)).d;
     let t : Nat := 0;
     let s : State := stOf Dev.reset;
     (s.d.sysHalt = false ∨ a0.m.mid = 0x4C0) ∧
     let isReg := isQReg a0.addr = true ∨ isAo a0.addr = true;
     ((row = Instr.nocRequest a0 e fence) ∨ (row = .registerWrite a0 ∧ e = .none ∧ fence = false ∧ isReg)) ∧
     let a := s.d.issued a0;
     let mid := a0.m.mid;
     (fence = true → d0 = { s.d with fences := nset false s.d.fences mid (s.d.outstanding mid) }) ∧ (fence = false → d0 = s.d) ∧
     let free := d0.mustHold a = false ∧ d0.baskingOn a = [];
     free ∧ isReg ∧ d0.targetQ a0.addr = some t ∧
     let ao := isAo a0.addr;
     let o := a0.addr % 2 ^ 24;
     let up := d0.routeOk (d0.midQuarter mid) t = true;
     up ∧ ao = false ∧ inHole o = true) ∧
    (let a0 : Access := ⟨⟨0x500, 5, false⟩, 0xF00000FF00, 4, false, 0⟩;
     let e : HbmErr := .none;
     let fence : Bool := false;
     let row : Instr := Instr.registerWrite a0;
     let d0 : Dev := (stOf (Dev.reset)).d;
     let t : Nat := 0;
     let s : State := stOf Dev.reset;
     (s.d.sysHalt = false ∨ a0.m.mid = 0x4C0) ∧
     let isReg := isQReg a0.addr = true ∨ isAo a0.addr = true;
     ((row = Instr.nocRequest a0 e fence) ∨ (row = .registerWrite a0 ∧ e = .none ∧ fence = false ∧ isReg)) ∧
     let a := s.d.issued a0;
     let mid := a0.m.mid;
     (fence = true → d0 = { s.d with fences := nset false s.d.fences mid (s.d.outstanding mid) }) ∧ (fence = false → d0 = s.d) ∧
     let free := d0.mustHold a = false ∧ d0.baskingOn a = [];
     free ∧ isReg ∧ d0.targetQ a0.addr = some t ∧
     let ao := isAo a0.addr;
     let o := a0.addr % 2 ^ 24;
     let up := d0.routeOk (d0.midQuarter mid) t = true;
     let there := up ∧ (ao = true ∨ inHole o = false);
     there ∧ a.m.oid ≠ 0) ∧
    (let a0 : Access := ⟨⟨63, 0, false⟩, 0xF003270000, 8, true, 0⟩;
     let e : HbmErr := .none;
     let fence : Bool := false;
     let row : Instr := Instr.registerWrite a0;
     let d0 : Dev := (stOf (Dev.reset)).d;
     let t : Nat := 3;
     let s : State := stOf Dev.reset;
     (s.d.sysHalt = false ∨ a0.m.mid = 0x4C0) ∧
     let isReg := isQReg a0.addr = true ∨ isAo a0.addr = true;
     ((row = Instr.nocRequest a0 e fence) ∨ (row = .registerWrite a0 ∧ e = .none ∧ fence = false ∧ isReg)) ∧
     let a := s.d.issued a0;
     let mid := a0.m.mid;
     (fence = true → d0 = { s.d with fences := nset false s.d.fences mid (s.d.outstanding mid) }) ∧ (fence = false → d0 = s.d) ∧
     let free := d0.mustHold a = false ∧ d0.baskingOn a = [];
     free ∧ isReg ∧ d0.targetQ a0.addr = some t ∧
     let ao := isAo a0.addr;
     let q := if ao then d0.liveQ else (a0.addr - 0xF000000000) / 2 ^ 24;
     let o := a0.addr % 2 ^ 24;
     let up := d0.routeOk (d0.midQuarter mid) t = true;
     let there := up ∧ (ao = true ∨ inHole o = false);
     let mine := there ∧ a.m.oid = 0;
     let absent := mine ∧ ao = false ∧ absentAt q o = true;
     let w := a0.write;
     absent ∧ w = true) ∧
    (let a0 : Access := ⟨⟨63, 0, false⟩, 0xF003270000, 8, false, 0⟩;
     let e : HbmErr := .none;
     let fence : Bool := false;
     let row : Instr := Instr.registerWrite a0;
     let d0 : Dev := (stOf (Dev.reset)).d;
     let t : Nat := 3;
     let s : State := stOf Dev.reset;
     (s.d.sysHalt = false ∨ a0.m.mid = 0x4C0) ∧
     let isReg := isQReg a0.addr = true ∨ isAo a0.addr = true;
     ((row = Instr.nocRequest a0 e fence) ∨ (row = .registerWrite a0 ∧ e = .none ∧ fence = false ∧ isReg)) ∧
     let a := s.d.issued a0;
     let mid := a0.m.mid;
     (fence = true → d0 = { s.d with fences := nset false s.d.fences mid (s.d.outstanding mid) }) ∧ (fence = false → d0 = s.d) ∧
     let free := d0.mustHold a = false ∧ d0.baskingOn a = [];
     free ∧ isReg ∧ d0.targetQ a0.addr = some t ∧
     let ao := isAo a0.addr;
     let q := if ao then d0.liveQ else (a0.addr - 0xF000000000) / 2 ^ 24;
     let o := a0.addr % 2 ^ 24;
     let up := d0.routeOk (d0.midQuarter mid) t = true;
     let there := up ∧ (ao = true ∨ inHole o = false);
     let mine := there ∧ a.m.oid = 0;
     let absent := mine ∧ ao = false ∧ absentAt q o = true;
     let w := a0.write;
     absent ∧ w = false) ∧
    (let a0 : Access := ⟨⟨0, 0, false⟩, 0xF000000000, 16, false, 0⟩;
     let e : HbmErr := .none;
     let fence : Bool := false;
     let row : Instr := Instr.registerWrite a0;
     let d0 : Dev := (stOf (Dev.reset)).d;
     let t : Nat := 0;
     let s : State := stOf Dev.reset;
     (s.d.sysHalt = false ∨ a0.m.mid = 0x4C0) ∧
     let isReg := isQReg a0.addr = true ∨ isAo a0.addr = true;
     ((row = Instr.nocRequest a0 e fence) ∨ (row = .registerWrite a0 ∧ e = .none ∧ fence = false ∧ isReg)) ∧
     let a := s.d.issued a0;
     let mid := a0.m.mid;
     (fence = true → d0 = { s.d with fences := nset false s.d.fences mid (s.d.outstanding mid) }) ∧ (fence = false → d0 = s.d) ∧
     let free := d0.mustHold a = false ∧ d0.baskingOn a = [];
     free ∧ isReg ∧ d0.targetQ a0.addr = some t ∧
     let ao := isAo a0.addr;
     let q := if ao then d0.liveQ else (a0.addr - 0xF000000000) / 2 ^ 24;
     let o := a0.addr % 2 ^ 24;
     let up := d0.routeOk (d0.midQuarter mid) t = true;
     let there := up ∧ (ao = true ∨ inHole o = false);
     let mine := there ∧ a.m.oid = 0;
     let present := mine ∧ (ao = true ∨ absentAt q o = false);
     let n := a0.size;
     present ∧ 8 < n) ∧
    (let a0 : Access := ⟨⟨0, 0, false⟩, 0xF000000002, 4, false, 0⟩;
     let e : HbmErr := .none;
     let fence : Bool := false;
     let row : Instr := Instr.registerWrite a0;
     let d0 : Dev := (stOf (Dev.reset)).d;
     let t : Nat := 0;
     let s : State := stOf Dev.reset;
     (s.d.sysHalt = false ∨ a0.m.mid = 0x4C0) ∧
     let isReg := isQReg a0.addr = true ∨ isAo a0.addr = true;
     ((row = Instr.nocRequest a0 e fence) ∨ (row = .registerWrite a0 ∧ e = .none ∧ fence = false ∧ isReg)) ∧
     let a := s.d.issued a0;
     let mid := a0.m.mid;
     (fence = true → d0 = { s.d with fences := nset false s.d.fences mid (s.d.outstanding mid) }) ∧ (fence = false → d0 = s.d) ∧
     let free := d0.mustHold a = false ∧ d0.baskingOn a = [];
     free ∧ isReg ∧ d0.targetQ a0.addr = some t ∧
     let ao := isAo a0.addr;
     let q := if ao then d0.liveQ else (a0.addr - 0xF000000000) / 2 ^ 24;
     let o := a0.addr % 2 ^ 24;
     let up := d0.routeOk (d0.midQuarter mid) t = true;
     let there := up ∧ (ao = true ∨ inHole o = false);
     let mine := there ∧ a.m.oid = 0;
     let present := mine ∧ (ao = true ∨ absentAt q o = false);
     let n := a0.size;
     present ∧ n ≤ 8 ∧ ([1, 2, 4, 8].contains n = false ∨ o % n ≠ 0)) ∧
    (let a0 : Access := ⟨⟨0, 0, false⟩, 0xF000000000, 4, false, 0⟩;
     let e : HbmErr := .none;
     let fence : Bool := false;
     let row : Instr := Instr.registerWrite a0;
     let d0 : Dev := (stOf (Dev.reset)).d;
     let t : Nat := 0;
     let s : State := stOf Dev.reset;
     (s.d.sysHalt = false ∨ a0.m.mid = 0x4C0) ∧
     let isReg := isQReg a0.addr = true ∨ isAo a0.addr = true;
     ((row = Instr.nocRequest a0 e fence) ∨ (row = .registerWrite a0 ∧ e = .none ∧ fence = false ∧ isReg)) ∧
     let a := s.d.issued a0;
     let mid := a0.m.mid;
     (fence = true → d0 = { s.d with fences := nset false s.d.fences mid (s.d.outstanding mid) }) ∧ (fence = false → d0 = s.d) ∧
     let free := d0.mustHold a = false ∧ d0.baskingOn a = [];
     free ∧ isReg ∧ d0.targetQ a0.addr = some t ∧
     let ao := isAo a0.addr;
     let q := if ao then d0.liveQ else (a0.addr - 0xF000000000) / 2 ^ 24;
     let o := a0.addr % 2 ^ 24;
     let up := d0.routeOk (d0.midQuarter mid) t = true;
     let there := up ∧ (ao = true ∨ inHole o = false);
     let mine := there ∧ a.m.oid = 0;
     let present := mine ∧ (ao = true ∨ absentAt q o = false);
     let n := a0.size;
     let sized := present ∧ n ≤ 8 ∧ [1, 2, 4, 8].contains n = true ∧ o % n = 0;
     let reg := if ao then aoRegAt o else d0.qRegAt q o;
     sized ∧ n ≠ 8 ∧ reg = none) ∧
    (let a0 : Access := ⟨⟨0, 0, false⟩, 0xF00000FF04, 4, true, 0⟩;
     let e : HbmErr := .none;
     let fence : Bool := false;
     let row : Instr := Instr.registerWrite a0;
     let d0 : Dev := (stOf (Dev.reset)).d;
     let t : Nat := 0;
     let x : RKey := R.BLK_LOCK.at 0 0;
     let s : State := stOf Dev.reset;
     (s.d.sysHalt = false ∨ a0.m.mid = 0x4C0) ∧
     let isReg := isQReg a0.addr = true ∨ isAo a0.addr = true;
     ((row = Instr.nocRequest a0 e fence) ∨ (row = .registerWrite a0 ∧ e = .none ∧ fence = false ∧ isReg)) ∧
     let a := s.d.issued a0;
     let mid := a0.m.mid;
     (fence = true → d0 = { s.d with fences := nset false s.d.fences mid (s.d.outstanding mid) }) ∧ (fence = false → d0 = s.d) ∧
     let free := d0.mustHold a = false ∧ d0.baskingOn a = [];
     free ∧ isReg ∧ d0.targetQ a0.addr = some t ∧
     let ao := isAo a0.addr;
     let q := if ao then d0.liveQ else (a0.addr - 0xF000000000) / 2 ^ 24;
     let o := a0.addr % 2 ^ 24;
     let up := d0.routeOk (d0.midQuarter mid) t = true;
     let there := up ∧ (ao = true ∨ inHole o = false);
     let mine := there ∧ a.m.oid = 0;
     let present := mine ∧ (ao = true ∨ absentAt q o = false);
     let n := a0.size;
     let w := a0.write;
     let sized := present ∧ n ≤ 8 ∧ [1, 2, 4, 8].contains n = true ∧ o % n = 0;
     let reg := if ao then aoRegAt o else d0.qRegAt q o;
     sized ∧ reg = some x ∧ n = regBytes x ∧ w = true) ∧
    (let a0 : Access := ⟨⟨0, 0, false⟩, 0xF00000FF00, 4, false, 0⟩;
     let e : HbmErr := .none;
     let fence : Bool := false;
     let row : Instr := Instr.registerWrite a0;
     let d0 : Dev := (stOf (Dev.reset)).d;
     let t : Nat := 0;
     let x : RKey := R.BLK_ID.at 0 0;
     let s : State := stOf Dev.reset;
     (s.d.sysHalt = false ∨ a0.m.mid = 0x4C0) ∧
     let isReg := isQReg a0.addr = true ∨ isAo a0.addr = true;
     ((row = Instr.nocRequest a0 e fence) ∨ (row = .registerWrite a0 ∧ e = .none ∧ fence = false ∧ isReg)) ∧
     let a := s.d.issued a0;
     let mid := a0.m.mid;
     (fence = true → d0 = { s.d with fences := nset false s.d.fences mid (s.d.outstanding mid) }) ∧ (fence = false → d0 = s.d) ∧
     let free := d0.mustHold a = false ∧ d0.baskingOn a = [];
     free ∧ isReg ∧ d0.targetQ a0.addr = some t ∧
     let ao := isAo a0.addr;
     let q := if ao then d0.liveQ else (a0.addr - 0xF000000000) / 2 ^ 24;
     let o := a0.addr % 2 ^ 24;
     let up := d0.routeOk (d0.midQuarter mid) t = true;
     let there := up ∧ (ao = true ∨ inHole o = false);
     let mine := there ∧ a.m.oid = 0;
     let present := mine ∧ (ao = true ∨ absentAt q o = false);
     let n := a0.size;
     let w := a0.write;
     let sized := present ∧ n ≤ 8 ∧ [1, 2, 4, 8].contains n = true ∧ o % n = 0;
     let reg := if ao then aoRegAt o else d0.qRegAt q o;
     sized ∧ reg = some x ∧ n = regBytes x ∧ w = false) ∧
    (let a0 : Access := ⟨⟨0, 0, false⟩, 0xF00000FF07, 1, true, 0⟩;
     let e : HbmErr := .none;
     let fence : Bool := false;
     let row : Instr := Instr.registerWrite a0;
     let d0 : Dev := (stOf (Dev.reset)).d;
     let t : Nat := 0;
     let x : RKey := R.BLK_LOCK.at 0 0;
     let s : State := stOf Dev.reset;
     (s.d.sysHalt = false ∨ a0.m.mid = 0x4C0) ∧
     let isReg := isQReg a0.addr = true ∨ isAo a0.addr = true;
     ((row = Instr.nocRequest a0 e fence) ∨ (row = .registerWrite a0 ∧ e = .none ∧ fence = false ∧ isReg)) ∧
     let a := s.d.issued a0;
     let mid := a0.m.mid;
     (fence = true → d0 = { s.d with fences := nset false s.d.fences mid (s.d.outstanding mid) }) ∧ (fence = false → d0 = s.d) ∧
     let free := d0.mustHold a = false ∧ d0.baskingOn a = [];
     free ∧ isReg ∧ d0.targetQ a0.addr = some t ∧
     let ao := isAo a0.addr;
     let q := if ao then d0.liveQ else (a0.addr - 0xF000000000) / 2 ^ 24;
     let o := a0.addr % 2 ^ 24;
     let up := d0.routeOk (d0.midQuarter mid) t = true;
     let there := up ∧ (ao = true ∨ inHole o = false);
     let mine := there ∧ a.m.oid = 0;
     let present := mine ∧ (ao = true ∨ absentAt q o = false);
     let n := a0.size;
     let w := a0.write;
     let sized := present ∧ n ≤ 8 ∧ [1, 2, 4, 8].contains n = true ∧ o % n = 0;
     let reg := if ao then aoRegAt o else d0.qRegAt q o;
     sized ∧ reg = some x ∧ n < regBytes x ∧ w = true ∧ (x.r ≠ .FN_PBA ∨ n ≠ 4)) ∧
    (let a0 : Access := ⟨⟨0, 0, false⟩, 0xF000091008, 1, false, 0⟩;
     let e : HbmErr := .none;
     let fence : Bool := false;
     let row : Instr := Instr.registerWrite a0;
     let d0 : Dev := (stOf (Dev.reset)).d;
     let t : Nat := 0;
     let x : RKey := R.RETRY_CNT.at 0 0;
     let s : State := stOf Dev.reset;
     (s.d.sysHalt = false ∨ a0.m.mid = 0x4C0) ∧
     let isReg := isQReg a0.addr = true ∨ isAo a0.addr = true;
     ((row = Instr.nocRequest a0 e fence) ∨ (row = .registerWrite a0 ∧ e = .none ∧ fence = false ∧ isReg)) ∧
     let a := s.d.issued a0;
     let mid := a0.m.mid;
     (fence = true → d0 = { s.d with fences := nset false s.d.fences mid (s.d.outstanding mid) }) ∧ (fence = false → d0 = s.d) ∧
     let free := d0.mustHold a = false ∧ d0.baskingOn a = [];
     free ∧ isReg ∧ d0.targetQ a0.addr = some t ∧
     let ao := isAo a0.addr;
     let q := if ao then d0.liveQ else (a0.addr - 0xF000000000) / 2 ^ 24;
     let o := a0.addr % 2 ^ 24;
     let up := d0.routeOk (d0.midQuarter mid) t = true;
     let there := up ∧ (ao = true ∨ inHole o = false);
     let mine := there ∧ a.m.oid = 0;
     let present := mine ∧ (ao = true ∨ absentAt q o = false);
     let n := a0.size;
     let w := a0.write;
     let sized := present ∧ n ≤ 8 ∧ [1, 2, 4, 8].contains n = true ∧ o % n = 0;
     let reg := if ao then aoRegAt o else d0.qRegAt q o;
     sized ∧ reg = some x ∧ n < regBytes x ∧ w = false ∧ d0.readActs a.m x = true) ∧
    (let a0 : Access := ⟨⟨0, 0, false⟩, 0xF00000FF03, 1, false, 0⟩;
     let e : HbmErr := .none;
     let fence : Bool := false;
     let row : Instr := Instr.registerWrite a0;
     let d0 : Dev := (stOf (Dev.reset)).d;
     let t : Nat := 0;
     let x : RKey := R.BLK_ID.at 0 0;
     let s : State := stOf Dev.reset;
     (s.d.sysHalt = false ∨ a0.m.mid = 0x4C0) ∧
     let isReg := isQReg a0.addr = true ∨ isAo a0.addr = true;
     ((row = Instr.nocRequest a0 e fence) ∨ (row = .registerWrite a0 ∧ e = .none ∧ fence = false ∧ isReg)) ∧
     let a := s.d.issued a0;
     let mid := a0.m.mid;
     (fence = true → d0 = { s.d with fences := nset false s.d.fences mid (s.d.outstanding mid) }) ∧ (fence = false → d0 = s.d) ∧
     let free := d0.mustHold a = false ∧ d0.baskingOn a = [];
     free ∧ isReg ∧ d0.targetQ a0.addr = some t ∧
     let ao := isAo a0.addr;
     let q := if ao then d0.liveQ else (a0.addr - 0xF000000000) / 2 ^ 24;
     let o := a0.addr % 2 ^ 24;
     let up := d0.routeOk (d0.midQuarter mid) t = true;
     let there := up ∧ (ao = true ∨ inHole o = false);
     let mine := there ∧ a.m.oid = 0;
     let present := mine ∧ (ao = true ∨ absentAt q o = false);
     let n := a0.size;
     let w := a0.write;
     let sized := present ∧ n ≤ 8 ∧ [1, 2, 4, 8].contains n = true ∧ o % n = 0;
     let reg := if ao then aoRegAt o else d0.qRegAt q o;
     sized ∧ reg = some x ∧ n < regBytes x ∧ w = false ∧ d0.readActs a.m x = false) ∧
    (let a0 : Access := ⟨⟨0, 0, false⟩, 0xF00000FF00, 8, false, 0⟩;
     let e : HbmErr := .none;
     let fence : Bool := false;
     let row : Instr := Instr.registerWrite a0;
     let d0 : Dev := (stOf (Dev.reset)).d;
     let t : Nat := 0;
     let s : State := stOf Dev.reset;
     (s.d.sysHalt = false ∨ a0.m.mid = 0x4C0) ∧
     let isReg := isQReg a0.addr = true ∨ isAo a0.addr = true;
     ((row = Instr.nocRequest a0 e fence) ∨ (row = .registerWrite a0 ∧ e = .none ∧ fence = false ∧ isReg)) ∧
     let a := s.d.issued a0;
     let mid := a0.m.mid;
     (fence = true → d0 = { s.d with fences := nset false s.d.fences mid (s.d.outstanding mid) }) ∧ (fence = false → d0 = s.d) ∧
     let free := d0.mustHold a = false ∧ d0.baskingOn a = [];
     free ∧ isReg ∧ d0.targetQ a0.addr = some t ∧
     let ao := isAo a0.addr;
     let q := if ao then d0.liveQ else (a0.addr - 0xF000000000) / 2 ^ 24;
     let o := a0.addr % 2 ^ 24;
     let up := d0.routeOk (d0.midQuarter mid) t = true;
     let there := up ∧ (ao = true ∨ inHole o = false);
     let mine := there ∧ a.m.oid = 0;
     let present := mine ∧ (ao = true ∨ absentAt q o = false);
     let n := a0.size;
     let sized := present ∧ n ≤ 8 ∧ [1, 2, 4, 8].contains n = true ∧ o % n = 0;
     let reg := if ao then aoRegAt o else d0.qRegAt q o;
     sized ∧ n = 8 ∧ (∀ x, reg = some x → regBytes x ≠ 8)) ∧
    (let a : Access := ⟨⟨0, 0, false⟩, 0xE000000000, 8, false, 0⟩;
     let s : State := stOf ({ Dev.reset with sysHalt := true });
     s.d.sysHalt = true ∧ a.m.mid ≠ 0x4C0) ∧
    (let a : Access := ⟨⟨0, 0, false⟩, 0xE000000000, 8, false, 0⟩;
     isQReg a.addr = false ∧ isAo a.addr = false) ∧
    (let oid : Nat := 1055;
     let bar : Nat := 0;
     let off : Nat := 0x4000;
     let size : Nat := 1;
     let s : State := stOf
       (((({ host with fns := nset Fn.zero (nset Fn.zero [] 31 { Fn.zero with bme := true, mse := true, vfEn := true, numVfs := 1 }) 1055 { Fn.zero with mse := true } }).setFld
       F.AO_STATUS_CONF 1 0).setRegN (linkReg 31 .HIF_VFBASE) 1055).setRegN (linkReg 31 .HIF_VFCFG) 1);
     let hits (L : Nat) := s.d.sysHalt = false ∧ s.d.linkOf oid = some L ∧ s.d.fnReached oid = true ∧ off < s.d.barSize oid bar ∧ size ≠ 0;
     (∀ L, ¬ hits L)) ∧
    (let oid : Nat := 1055;
     let bar : Nat := 0;
     let off : Nat := 0x3FFF;
     let size : Nat := 1;
     let write : Bool := true;
     let L : Nat := 31;
     let s : State := stOf
       (((({ host with fns := nset Fn.zero (nset Fn.zero [] 31 { Fn.zero with bme := true, mse := true, vfEn := true, numVfs := 1 }) 1055 { Fn.zero with mse := false } }).setFld
       F.AO_STATUS_CONF 1 0).setRegN (linkReg 31 .HIF_VFBASE) 1055).setRegN (linkReg 31 .HIF_VFCFG) 1);
     let hits (L : Nat) := s.d.sysHalt = false ∧ s.d.linkOf oid = some L ∧ s.d.fnReached oid = true ∧ off < s.d.barSize oid bar ∧ size ≠ 0;
     hits L ∧ s.d.barOpen oid = false ∧ write = true) ∧
    (let oid : Nat := 1055;
     let bar : Nat := 0;
     let off : Nat := 0x3FFF;
     let size : Nat := 1;
     let write : Bool := false;
     let L : Nat := 31;
     let s : State := stOf
       (((({ host with fns := nset Fn.zero (nset Fn.zero [] 31 { Fn.zero with bme := true, mse := true, vfEn := true, numVfs := 1 }) 1055 { Fn.zero with mse := false } }).setFld
       F.AO_STATUS_CONF 1 0).setRegN (linkReg 31 .HIF_VFBASE) 1055).setRegN (linkReg 31 .HIF_VFCFG) 1);
     let hits (L : Nat) := s.d.sysHalt = false ∧ s.d.linkOf oid = some L ∧ s.d.fnReached oid = true ∧ off < s.d.barSize oid bar ∧ size ≠ 0;
     hits L ∧ s.d.barOpen oid = false ∧ write = false) ∧
    (let oid : Nat := 1055;
     let bar : Nat := 0;
     let off : Nat := 0x3FFF;
     let size : Nat := 1;
     let write : Bool := false;
     let L : Nat := 31;
     let s : State := stOf
       (((((({ host with fns := nset Fn.zero (nset Fn.zero [] 31 { Fn.zero with bme := true, mse := true, vfEn := true, numVfs := 1 }) 1055 { Fn.zero with mse := true } }).setFld
       F.AO_STATUS_CONF 1 0).setRegN (linkReg 31 .HIF_VFBASE) 1055).setRegN (linkReg 31 .HIF_VFCFG) 1).setFld F.PWR_DOM_CUR 2 3 16));
     let hits (L : Nat) := s.d.sysHalt = false ∧ s.d.linkOf oid = some L ∧ s.d.fnReached oid = true ∧ off < s.d.barSize oid bar ∧ size ≠ 0;
     let alive (L : Nat) := s.d.domCur (L / 8) 16 ≠ 2 ∧ s.d.inReset (L / 8) = false;
     hits L ∧ s.d.barOpen oid = true ∧ ¬ alive L ∧ write = false) ∧
    (let oid : Nat := 1055;
     let bar : Nat := 0;
     let off : Nat := 0x3FFF;
     let size : Nat := 1;
     let write : Bool := true;
     let L : Nat := 31;
     let s : State := stOf
       (((((({ host with fns := nset Fn.zero (nset Fn.zero [] 31 { Fn.zero with bme := true, mse := true, vfEn := true, numVfs := 1 }) 1055 { Fn.zero with mse := true } }).setFld
       F.AO_STATUS_CONF 1 0).setRegN (linkReg 31 .HIF_VFBASE) 1055).setRegN (linkReg 31 .HIF_VFCFG) 1).setFld F.PWR_DOM_CUR 2 3 16));
     let hits (L : Nat) := s.d.sysHalt = false ∧ s.d.linkOf oid = some L ∧ s.d.fnReached oid = true ∧ off < s.d.barSize oid bar ∧ size ≠ 0;
     let alive (L : Nat) := s.d.domCur (L / 8) 16 ≠ 2 ∧ s.d.inReset (L / 8) = false;
     hits L ∧ s.d.barOpen oid = true ∧ ¬ alive L ∧ write = true) ∧
    (let oid : Nat := 1055;
     let bar : Nat := 0;
     let off : Nat := 0x3FFF;
     let size : Nat := 1;
     let write : Bool := true;
     let L : Nat := 31;
     let s : State := stOf
       (((({ host with fns := nset Fn.zero (nset Fn.zero [] 31 { Fn.zero with bme := true, mse := true, vfEn := true, numVfs := 1 }) 1055 { Fn.zero with mse := true } }).setFld
       F.AO_STATUS_CONF 1 0).setRegN (linkReg 31 .HIF_VFBASE) 1055).setRegN (linkReg 31 .HIF_VFCFG) 1);
     let hits (L : Nat) := s.d.sysHalt = false ∧ s.d.linkOf oid = some L ∧ s.d.fnReached oid = true ∧ off < s.d.barSize oid bar ∧ size ≠ 0;
     let alive (L : Nat) := s.d.domCur (L / 8) 16 ≠ 2 ∧ s.d.inReset (L / 8) = false;
     hits L ∧ s.d.barOpen oid = true ∧ alive L ∧ write = true) ∧
    (let oid : Nat := 1055;
     let bar : Nat := 0;
     let off : Nat := 0x3FFF;
     let size : Nat := 2;
     let write : Bool := false;
     let data : Nat := 0;
     let L : Nat := 31;
     let s : State := stOf
       (((({ host with fns := nset Fn.zero (nset Fn.zero [] 31 { Fn.zero with bme := true, mse := true, vfEn := true, numVfs := 1 }) 1055 { Fn.zero with mse := true } }).setFld
       F.AO_STATUS_CONF 1 0).setRegN (linkReg 31 .HIF_VFBASE) 1055).setRegN (linkReg 31 .HIF_VFCFG) 1);
     let hits (L : Nat) := s.d.sysHalt = false ∧ s.d.linkOf oid = some L ∧ s.d.fnReached oid = true ∧ off < s.d.barSize oid bar ∧ size ≠ 0;
     let alive (L : Nat) := s.d.domCur (L / 8) 16 ≠ 2 ∧ s.d.inReset (L / 8) = false;
     hits L ∧ s.d.barOpen oid = true ∧
     let x := s.d.barServe L oid bar off size write data s.clk;
     alive L ∧ write = false ∧ x.out.code = .slverr) ∧
    (let oid : Nat := 0;
     let bar : Nat := 0;
     let off : Nat := 0xB0000;
     let size : Nat := 4;
     let write : Bool := false;
     let data : Nat := 0;
     let L : Nat := 0;
     let s : State := stOf
       ((({ Dev.reset with boot := { Boot.none with loaded := true }, fns := nset Fn.zero [] 0 { Fn.zero with mse := true } }).setRegN
       (linkReg 0 .HIF_LSTAT) (3 * 2 ^ 28)).setRegN (linkReg 0 .HIF_LCTRL) 1);
     let hits (L : Nat) := s.d.sysHalt = false ∧ s.d.linkOf oid = some L ∧ s.d.fnReached oid = true ∧ off < s.d.barSize oid bar ∧ size ≠ 0;
     let alive (L : Nat) := s.d.domCur (L / 8) 16 ≠ 2 ∧ s.d.inReset (L / 8) = false;
     hits L ∧ s.d.barOpen oid = true ∧
     let x := s.d.barServe L oid bar off size write data s.clk;
     alive L ∧ write = false ∧ x.out.code = .decerr) ∧
    (let oid : Nat := 1055;
     let bar : Nat := 0;
     let off : Nat := 0x3FFF;
     let size : Nat := 1;
     let write : Bool := false;
     let data : Nat := 0;
     let L : Nat := 31;
     let s : State := stOf
       (((({ host with fns := nset Fn.zero (nset Fn.zero [] 31 { Fn.zero with bme := true, mse := true, vfEn := true, numVfs := 1 }) 1055 { Fn.zero with mse := true } }).setFld
       F.AO_STATUS_CONF 1 0).setRegN (linkReg 31 .HIF_VFBASE) 1055).setRegN (linkReg 31 .HIF_VFCFG) 1);
     let hits (L : Nat) := s.d.sysHalt = false ∧ s.d.linkOf oid = some L ∧ s.d.fnReached oid = true ∧ off < s.d.barSize oid bar ∧ size ≠ 0;
     let alive (L : Nat) := s.d.domCur (L / 8) 16 ≠ 2 ∧ s.d.inReset (L / 8) = false;
     hits L ∧ s.d.barOpen oid = true ∧
     let x := s.d.barServe L oid bar off size write data s.clk;
     alive L ∧ write = false ∧ x.out.code ≠ .slverr ∧ x.out.code ≠ .decerr) ∧
    (let m : Mst := ⟨0x500, 2047, false⟩;
     m.oid ≠ 0) ∧
    (let m : Mst := ⟨0x500, 2047, false⟩;
     m.oid ≠ 0) ∧
    (let m : Mst := ⟨0x500, 2047, false⟩;
     m.oid ≠ 0) ∧
    (let m : Mst := ⟨0x500, 2047, false⟩;
     m.oid ≠ 0) ∧
    (let m : Mst := ⟨0x500, 2047, false⟩;
     m.oid ≠ 0) := by
  refine ⟨?_, ?_, ?_, ?_, ?_, ?_, ?_, ?_, ?_, ?_, ?_, ?_, ?_, ?_, ?_, ?_, ?_, ?_, ?_, ?_, ?_, ?_, ?_, ?_, ?_, ?_, ?_, ?_, ?_, ?_, ?_,
    ?_, ?_, ?_, ?_⟩
  · try dsimp only
    refine ⟨?_, ?_, ?_, ?_, ?_⟩
    · decide +kernel
    · exact Or.inl rfl
    · exact fun h => by cases h
    · exact fun _ => rfl
    · decide +kernel
  · try dsimp only
    refine ⟨?_, ?_, ?_, ?_, ?_, ?_⟩
    · decide +kernel
    · exact Or.inl rfl
    · exact fun h => by cases h
    · exact fun _ => rfl
    · decide +kernel
    · exact (basking_high _ _ (by decide +kernel)).trans (by decide +kernel)
  · try dsimp only
    refine ⟨?_, ?_, ?_, ?_, ?_, ?_, ?_⟩
    · decide +kernel
    · exact Or.inl rfl
    · exact fun h => by cases h
    · exact fun _ => rfl
    · exact ⟨by decide +kernel, (basking_high _ _ (by decide +kernel)).trans (by decide +kernel)⟩
    · decide +kernel
    · decide +kernel
  · try dsimp only
    refine ⟨?_, ?_, ?_, ?_, ?_, ?_, ?_, ?_⟩
    · decide +kernel
    · exact Or.inl rfl
    · exact fun h => by cases h
    · exact fun _ => rfl
    · exact ⟨by decide +kernel, (basking_high _ _ (by decide +kernel)).trans (by decide +kernel)⟩
    · decide +kernel
    · decide +kernel
    · decide +kernel
  · try dsimp only
    refine ⟨?_, ?_, ?_, ?_, ?_, ?_, ?_, ?_⟩
    · decide +kernel
    · exact Or.inl rfl
    · exact fun h => by cases h
    · exact fun _ => rfl
    · exact ⟨by decide +kernel, (basking_high _ _ (by decide +kernel)).trans (by decide +kernel)⟩
    · decide +kernel
    · decide +kernel
    · decide +kernel
  · try dsimp only
    refine ⟨?_, ?_, ?_, ?_, ?_, ?_, ?_, ?_⟩
    · decide +kernel
    · exact Or.inr ⟨rfl, rfl, rfl, by decide +kernel⟩
    · exact fun h => by cases h
    · exact fun _ => rfl
    · exact ⟨by decide +kernel, (basking_high _ _ (by decide +kernel)).trans (by decide +kernel)⟩
    · decide +kernel
    · exact (targetQ_high _ _ (by decide +kernel)).trans (by decide +kernel)
    · decide +kernel
  · try dsimp only
    refine ⟨?_, ?_, ?_, ?_, ?_, ?_, ?_, ?_, ?_, ?_⟩
    · decide +kernel
    · exact Or.inr ⟨rfl, rfl, rfl, by decide +kernel⟩
    · exact fun h => by cases h
    · exact fun _ => rfl
    · exact ⟨by decide +kernel, (basking_high _ _ (by decide +kernel)).trans (by decide +kernel)⟩
    · decide +kernel
    · exact (targetQ_high _ _ (by decide +kernel)).trans (by decide +kernel)
    · decide +kernel
    · decide +kernel
    · decide +kernel
  · try dsimp only
    refine ⟨?_, ?_, ?_, ?_, ?_, ?_, ?_, ?_, ?_⟩
    · decide +kernel
    · exact Or.inr ⟨rfl, rfl, rfl, by decide +kernel⟩
    · exact fun h => by cases h
    · exact fun _ => rfl
    · exact ⟨by decide +kernel, (basking_high _ _ (by decide +kernel)).trans (by decide +kernel)⟩
    · decide +kernel
    · exact (targetQ_high _ _ (by decide +kernel)).trans (by decide +kernel)
    · decide +kernel
    · decide +kernel
  · try dsimp only
    refine ⟨?_, ?_, ?_, ?_, ?_, ?_, ?_, ?_, ?_⟩
    · decide +kernel
    · exact Or.inr ⟨rfl, rfl, rfl, by decide +kernel⟩
    · exact fun h => by cases h
    · exact fun _ => rfl
    · exact ⟨by decide +kernel, (basking_high _ _ (by decide +kernel)).trans (by decide +kernel)⟩
    · decide +kernel
    · exact (targetQ_high _ _ (by decide +kernel)).trans (by decide +kernel)
    · decide +kernel
    · decide +kernel
  · try dsimp only
    refine ⟨?_, ?_, ?_, ?_, ?_, ?_, ?_, ?_, ?_⟩
    · decide +kernel
    · exact Or.inr ⟨rfl, rfl, rfl, by decide +kernel⟩
    · exact fun h => by cases h
    · exact fun _ => rfl
    · exact ⟨by decide +kernel, (basking_high _ _ (by decide +kernel)).trans (by decide +kernel)⟩
    · decide +kernel
    · exact (targetQ_high _ _ (by decide +kernel)).trans (by decide +kernel)
    · decide +kernel
    · decide +kernel
  · try dsimp only
    refine ⟨?_, ?_, ?_, ?_, ?_, ?_, ?_, ?_, ?_⟩
    · decide +kernel
    · exact Or.inr ⟨rfl, rfl, rfl, by decide +kernel⟩
    · exact fun h => by cases h
    · exact fun _ => rfl
    · exact ⟨by decide +kernel, (basking_high _ _ (by decide +kernel)).trans (by decide +kernel)⟩
    · decide +kernel
    · exact (targetQ_high _ _ (by decide +kernel)).trans (by decide +kernel)
    · decide +kernel
    · decide +kernel
  · try dsimp only
    refine ⟨?_, ?_, ?_, ?_, ?_, ?_, ?_, ?_, ?_, ?_⟩
    · decide +kernel
    · exact Or.inr ⟨rfl, rfl, rfl, by decide +kernel⟩
    · exact fun h => by cases h
    · exact fun _ => rfl
    · exact ⟨by decide +kernel, (basking_high _ _ (by decide +kernel)).trans (by decide +kernel)⟩
    · decide +kernel
    · exact (targetQ_high _ _ (by decide +kernel)).trans (by decide +kernel)
    · decide +kernel
    · decide +kernel
    · decide +kernel
  · try dsimp only
    refine ⟨?_, ?_, ?_, ?_, ?_, ?_, ?_, ?_, ?_, ?_⟩
    · decide +kernel
    · exact Or.inr ⟨rfl, rfl, rfl, by decide +kernel⟩
    · exact fun h => by cases h
    · exact fun _ => rfl
    · exact ⟨by decide +kernel, (basking_high _ _ (by decide +kernel)).trans (by decide +kernel)⟩
    · decide +kernel
    · exact (targetQ_high _ _ (by decide +kernel)).trans (by decide +kernel)
    · decide +kernel
    · decide +kernel
    · decide +kernel
  · try dsimp only
    refine ⟨?_, ?_, ?_, ?_, ?_, ?_, ?_, ?_, ?_, ?_, ?_⟩
    · decide +kernel
    · exact Or.inr ⟨rfl, rfl, rfl, by decide +kernel⟩
    · exact fun h => by cases h
    · exact fun _ => rfl
    · exact ⟨by decide +kernel, (basking_high _ _ (by decide +kernel)).trans (by decide +kernel)⟩
    · decide +kernel
    · exact (targetQ_high _ _ (by decide +kernel)).trans (by decide +kernel)
    · decide +kernel
    · decide +kernel
    · decide +kernel
    · decide +kernel
  · try dsimp only
    refine ⟨?_, ?_, ?_, ?_, ?_, ?_, ?_, ?_, ?_, ?_, ?_⟩
    · decide +kernel
    · exact Or.inr ⟨rfl, rfl, rfl, by decide +kernel⟩
    · exact fun h => by cases h
    · exact fun _ => rfl
    · exact ⟨by decide +kernel, (basking_high _ _ (by decide +kernel)).trans (by decide +kernel)⟩
    · decide +kernel
    · exact (targetQ_high _ _ (by decide +kernel)).trans (by decide +kernel)
    · decide +kernel
    · decide +kernel
    · decide +kernel
    · decide +kernel
  · try dsimp only
    refine ⟨?_, ?_, ?_, ?_, ?_, ?_, ?_, ?_, ?_, ?_, ?_, ?_⟩
    · decide +kernel
    · exact Or.inr ⟨rfl, rfl, rfl, by decide +kernel⟩
    · exact fun h => by cases h
    · exact fun _ => rfl
    · exact ⟨by decide +kernel, (basking_high _ _ (by decide +kernel)).trans (by decide +kernel)⟩
    · decide +kernel
    · exact (targetQ_high _ _ (by decide +kernel)).trans (by decide +kernel)
    · decide +kernel
    · decide +kernel
    · decide +kernel
    · decide +kernel
    · decide +kernel
  · try dsimp only
    refine ⟨?_, ?_, ?_, ?_, ?_, ?_, ?_, ?_, ?_, ?_, ?_, ?_⟩
    · decide +kernel
    · exact Or.inr ⟨rfl, rfl, rfl, by decide +kernel⟩
    · exact fun h => by cases h
    · exact fun _ => rfl
    · exact ⟨by decide +kernel, (basking_high _ _ (by decide +kernel)).trans (by decide +kernel)⟩
    · decide +kernel
    · exact (targetQ_high _ _ (by decide +kernel)).trans (by decide +kernel)
    · decide +kernel
    · decide +kernel
    · decide +kernel
    · decide +kernel
    · decide +kernel
  · try dsimp only
    refine ⟨?_, ?_, ?_, ?_, ?_, ?_, ?_, ?_, ?_, ?_, ?_, ?_⟩
    · decide +kernel
    · exact Or.inr ⟨rfl, rfl, rfl, by decide +kernel⟩
    · exact fun h => by cases h
    · exact fun _ => rfl
    · exact ⟨by decide +kernel, (basking_high _ _ (by decide +kernel)).trans (by decide +kernel)⟩
    · decide +kernel
    · exact (targetQ_high _ _ (by decide +kernel)).trans (by decide +kernel)
    · decide +kernel
    · decide +kernel
    · decide +kernel
    · decide +kernel
    · decide +kernel
  · try dsimp only
    refine ⟨?_, ?_, ?_, ?_, ?_, ?_, ?_, ?_, ?_, ?_⟩
    · decide +kernel
    · exact Or.inr ⟨rfl, rfl, rfl, by decide +kernel⟩
    · exact fun h => by cases h
    · exact fun _ => rfl
    · exact ⟨by decide +kernel, (basking_high _ _ (by decide +kernel)).trans (by decide +kernel)⟩
    · decide +kernel
    · exact (targetQ_high _ _ (by decide +kernel)).trans (by decide +kernel)
    · decide +kernel
    · decide +kernel
    · intro x h
      have e : (stOf Dev.reset).d.qRegAt 0 0xFF00 = some (R.BLK_ID.at 0 0) := by decide +kernel
      cases e.symm.trans h
      decide +kernel
  · try dsimp only
    refine ⟨?_, ?_⟩
    · decide +kernel
    · decide +kernel
  · try dsimp only
    refine ⟨?_, ?_⟩
    · decide +kernel
    · decide +kernel
  · exact fun L h => absurd h.2.2.2.1 (by decide +kernel)
  · try dsimp only
    refine ⟨?_, ?_, ?_⟩
    · decide +kernel
    · decide +kernel
    · decide +kernel
  · try dsimp only
    refine ⟨?_, ?_, ?_⟩
    · decide +kernel
    · decide +kernel
    · decide +kernel
  · try dsimp only
    refine ⟨?_, ?_, ?_, ?_⟩
    · decide +kernel
    · decide +kernel
    · decide +kernel
    · decide +kernel
  · try dsimp only
    refine ⟨?_, ?_, ?_, ?_⟩
    · decide +kernel
    · decide +kernel
    · decide +kernel
    · decide +kernel
  · try dsimp only
    refine ⟨?_, ?_, ?_, ?_⟩
    · decide +kernel
    · decide +kernel
    · decide +kernel
    · decide +kernel
  · try dsimp only
    refine ⟨?_, ?_, ?_, ?_, ?_⟩
    · decide +kernel
    · decide +kernel
    · decide +kernel
    · decide +kernel
    · decide +kernel
  · refine ⟨by decide +kernel, by decide +kernel, by decide +kernel, by decide +kernel, ?_⟩
    dsimp only
    have e : ∀ d L off k, d = (stOf ((({ Dev.reset with boot := { Boot.none with loaded := true }, fns := nset Fn.zero [] 0 { Fn.zero with mse := true } }).setRegN (linkReg 0 .HIF_LSTAT) (3 * 2 ^ 28)).setRegN (linkReg 0 .HIF_LCTRL) 1)).d → L = 0 → off = 0xB0000 → k = Clk.reset → (d.barServe L 0 0 off 4 false 0 k).out.code = .decerr := by
      intro d L off k hd hL ho hk
      subst hd hL ho hk
      unfold Dev.barServe
      rw [if_neg (by decide), if_pos rfl, if_pos rfl, noc_reg _ _ _ _ 0 (by decide +kernel) (by decide +kernel) (by decide +kernel) (by decide +kernel)
        (by decide +kernel) (by decide +kernel)]
      decide +kernel
    exact e _ _ _ _ rfl rfl rfl rfl
  · try dsimp only
    refine ⟨?_, ?_, ?_, ?_, ?_, ?_⟩
    · decide +kernel
    · decide +kernel
    · decide +kernel
    · decide +kernel
    · decide +kernel
    · decide +kernel
  · try dsimp only
    decide +kernel
  · try dsimp only
    decide +kernel
  · try dsimp only
    decide +kernel
  · try dsimp only
    decide +kernel
  · try dsimp only
    decide +kernel

/-- What BootCourse asks of a state and of operands is met, case by case. -/
theorem witness_BootCourse :
    (let s : State := stOf ({ Dev.reset with porst := false });
     s.d.porst = false) ∧
    (let b : BootIn := ⟨false, true, [], []⟩;
     let s : State := stOf ({ Dev.reset with porst := true });
     s.d.porst = true ∧ b.selftest = false) ∧
    (let b : BootIn := ⟨true, false, [], []⟩;
     let s : State := stOf ({ Dev.reset with porst := true });
     s.d.porst = true ∧ b.selftest = true ∧ b.fuses = false) ∧
    (let b : BootIn := ⟨true, true, [true, true, true, true, true], []⟩;
     let s : State := stOf ({ Dev.reset with porst := true });
     s.d.porst = true ∧ b.selftest = true ∧ b.fuses = true) ∧
    (let s : State := stOf ({ Dev.reset with sysrst := true, porst := false });
     s.d.sysrst = true ∧ s.d.porst = false) ∧
    (let s : State := stOf Dev.reset;
     (s.d.sysrst = false ∨ s.d.porst = true)) ∧
    (fusedOk (gOf (flashF (imgN imgSig) (flashBase 0))) →
     let d : Dev := { Dev.reset with mem := imgMem (imgN imgSig) (flashBase 0) };
     let b : BootIn := ⟨true, true, [false, true, false, true, true], []⟩;
     let r0 := Dev.tryFlash d 0 b;
     r0.2 = true) ∧
    (fusedOk (gOf (flashF (imgN imgSig) (flashBase 3))) →
     let d : Dev := { Dev.reset with mem := imgMem (imgN imgSig) (flashBase 3) };
     let b : BootIn := ⟨true, true, [false, true, false, true, true], []⟩;
     let r0 := Dev.tryFlash d 0 b;
     let r3 := r0.1.tryFlash 3 b;
     r0.2 = false ∧ r3.2 = true) ∧
    (fusedOk (gOf (numF (imgN imgSig))) →
     let d : Dev := Dev.reset;
     let b : BootIn := ⟨true, true, [true, true, true, true, false], (upTo imgLen).map (numF (imgN imgSig))⟩;
     let r0 := Dev.tryFlash d 0 b;
     let r3 := r0.1.tryFlash 3 b;
     let g := spiImage b.spi;
     let res := tryImage g true (b.unread.getD 4 true);
     r0.2 = false ∧ r3.2 = false ∧ res = 0) ∧
    (let d : Dev := Dev.reset;
     let b : BootIn := ⟨true, true, [true, true, true, true, true], []⟩;
     let r0 := Dev.tryFlash d 0 b;
     let r3 := r0.1.tryFlash 3 b;
     let g := spiImage b.spi;
     let res := tryImage g true (b.unread.getD 4 true);
     r0.2 = false ∧ r3.2 = false ∧ res ≠ 0) ∧
    (let unread : Bool := true;
     let c1 := unread = false;
     ¬ c1) ∧
    (let g : ImgRead := fun _ _ => 0;
     let unread : Bool := false;
     let c1 := unread = false;
     let c2 := c1 ∧ g 0 4 = 0x49425950;
     c1 ∧ ¬ c2) ∧
    (let g : ImgRead := fun o n => if o = 0 ∧ n = 4 then 0x49425950 else 0;
     let unread : Bool := false;
     let c1 := unread = false;
     let c2 := c1 ∧ g 0 4 = 0x49425950;
     let c3 := c2 ∧ imageFormat g = true;
     c2 ∧ ¬ c3) ∧
    (imageKeyOk (gOf (numF (imgN imgSig))) = false →
     let g : ImgRead := gOf (numF (imgN imgSig));
     let unread : Bool := false;
     let c1 := unread = false;
     let c2 := c1 ∧ g 0 4 = 0x49425950;
     let c3 := c2 ∧ imageFormat g = true;
     let c4 := c3 ∧ imageKeyOk g = true;
     c3 ∧ ¬ c4) ∧
    (imageKeyOk (gOf (numF (imgN 0 + 0 * 256 ^ 0x1000))) = true →
     let g : ImgRead := gOf (numF (imgN 0 + 0 * 256 ^ 0x1000));
     let unread : Bool := false;
     let c1 := unread = false;
     let c2 := c1 ∧ g 0 4 = 0x49425950;
     let c3 := c2 ∧ imageFormat g = true;
     let c4 := c3 ∧ imageKeyOk g = true;
     let c5 := c4 ∧ imageSigOk g = true;
     c4 ∧ ¬ c5) ∧
    (imageKeyOk (gOf (numF (imgN imgSig + 1 * 256 ^ 0x1000))) = true →
     let g : ImgRead := gOf (numF (imgN imgSig + 1 * 256 ^ 0x1000));
     let spi : Bool := false;
     let unread : Bool := false;
     let digests := (imageSec g 0 :: (if spi then [] else imageSecs g)).all (fun x => x.digestOk (x.stored g)) = true;
     let c1 := unread = false;
     let c2 := c1 ∧ g 0 4 = 0x49425950;
     let c3 := c2 ∧ imageFormat g = true;
     let c4 := c3 ∧ imageKeyOk g = true;
     let c5 := c4 ∧ imageSigOk g = true;
     let c6 := c5 ∧ digests;
     c5 ∧ ¬ c6) ∧
    ((imageKeyOk (gOf (numF (imgN imgSig))) = true ∧ imageCfg (gOf (numF (imgN imgSig))) = none) →
     let g : ImgRead := gOf (numF (imgN imgSig));
     let spi : Bool := false;
     let unread : Bool := false;
     let digests := (imageSec g 0 :: (if spi then [] else imageSecs g)).all (fun x => x.digestOk (x.stored g)) = true;
     let c1 := unread = false;
     let c2 := c1 ∧ g 0 4 = 0x49425950;
     let c3 := c2 ∧ imageFormat g = true;
     let c4 := c3 ∧ imageKeyOk g = true;
     let c5 := c4 ∧ imageSigOk g = true;
     let c6 := c5 ∧ digests;
     let c7 := c6 ∧ ∃ c, imageCfg g = some c ∧ cfgOk c = true;
     c6 ∧ ¬ c7) ∧
    (fusedOk (gOf (numF (imgN imgSig))) →
     let g : ImgRead := gOf (numF (imgN imgSig));
     let spi : Bool := false;
     let unread : Bool := false;
     let digests := (imageSec g 0 :: (if spi then [] else imageSecs g)).all (fun x => x.digestOk (x.stored g)) = true;
     let c1 := unread = false;
     let c2 := c1 ∧ g 0 4 = 0x49425950;
     let c3 := c2 ∧ imageFormat g = true;
     let c4 := c3 ∧ imageKeyOk g = true;
     let c5 := c4 ∧ imageSigOk g = true;
     let c6 := c5 ∧ digests;
     let c7 := c6 ∧ ∃ c, imageCfg g = some c ∧ cfgOk c = true;
     c7) ∧
    (let q : Nat := 0;
     let s : State := stOf
       ({ Dev.reset with boot := { Boot.none with on := true }, regs := [(R.CLK_STAT.at 0, 0), (R.CLK_STAT.at 1, 0), (R.CLK_STAT.at 2, 0), (R.CLK_STAT.at 3, 0)] });
     let may := s.d.boot.on = true ∧ q < 4 ∧ s.d.flag F.CLK_STAT_LOCK q = false ∧ (q = 0 ∨ s.d.flag F.CLK_STAT_LOCK 0 = true);
     let d1 := s.d.setFld F.CLK_STAT_LOCK 1 q;
     let all := ∀ p, p < 4 → d1.flag F.CLK_STAT_LOCK p = true;
     let d2 : Dev := d1;
     let d3 : Dev := (coresOf q).foldl (fun (x : Dev) n => x.setBit (coreReg n .BNK_STAT) 0 true) d2;
     (all → d2 = d1.bridgesStart) ∧ (¬ all → d2 = d1) ∧ (s.d.boot.cause = 0 → d3 = (coresOf q).foldl (fun (x : Dev) n => x.setBit (coreReg n
     .BNK_STAT) 0 true) d2) ∧ (s.d.boot.cause ≠ 0 → d3 = d2) ∧ may ∧ q = 0) ∧
    (let q : Nat := 1;
     let s : State := stOf
       ({ Dev.reset with boot := { Boot.none with on := true }, regs := [(R.CLK_STAT.at 0, BitVec.ofNat 64 (2 ^ 64 - 1)), (R.CLK_STAT.at 1, 0), (R.CLK_STAT.at 2, 0), (R.CLK_STAT.at 3, 0)] });
     let may := s.d.boot.on = true ∧ q < 4 ∧ s.d.flag F.CLK_STAT_LOCK q = false ∧ (q = 0 ∨ s.d.flag F.CLK_STAT_LOCK 0 = true);
     let d1 := s.d.setFld F.CLK_STAT_LOCK 1 q;
     let all := ∀ p, p < 4 → d1.flag F.CLK_STAT_LOCK p = true;
     let d2 : Dev := d1;
     let d3 : Dev := (coresOf q).foldl (fun (x : Dev) n => x.setBit (coreReg n .BNK_STAT) 0 true) d2;
     (all → d2 = d1.bridgesStart) ∧ (¬ all → d2 = d1) ∧ (s.d.boot.cause = 0 → d3 = (coresOf q).foldl (fun (x : Dev) n => x.setBit (coreReg n
     .BNK_STAT) 0 true) d2) ∧ (s.d.boot.cause ≠ 0 → d3 = d2) ∧ may ∧ q ≠ 0) ∧
    (let q : Nat := 0;
     let s : State := stOf
       ({ Dev.reset with boot := { Boot.none with on := true }, regs := [(R.CLK_STAT.at 0, 0), (R.CLK_STAT.at 1, 0), (R.CLK_STAT.at 2, 0), (R.CLK_STAT.at 3, 0)] });
     let may := s.d.boot.on = true ∧ q < 4 ∧ s.d.flag F.CLK_STAT_LOCK q = false ∧ (q = 0 ∨ s.d.flag F.CLK_STAT_LOCK 0 = true);
     let d1 := s.d.setFld F.CLK_STAT_LOCK 1 q;
     let all := ∀ p, p < 4 → d1.flag F.CLK_STAT_LOCK p = true;
     let d2 : Dev := d1;
     let d3 : Dev := (coresOf q).foldl (fun (x : Dev) n => x.setBit (coreReg n .BNK_STAT) 0 true) d2;
     (all → d2 = d1.bridgesStart) ∧ (¬ all → d2 = d1) ∧ (s.d.boot.cause = 0 → d3 = (coresOf q).foldl (fun (x : Dev) n => x.setBit (coreReg n
     .BNK_STAT) 0 true) d2) ∧ (s.d.boot.cause ≠ 0 → d3 = d2) ∧ may) ∧
    (let q : Nat := 0;
     let s : State := stOf
       ({ Dev.reset with boot := { Boot.none with cause := 0 }, regs := [(R.CLK_STAT.at 0, 0), (R.CLK_STAT.at 1, 0), (R.CLK_STAT.at 2, 0), (R.CLK_STAT.at 3, 0)] });
     let may := s.d.boot.on = true ∧ q < 4 ∧ s.d.flag F.CLK_STAT_LOCK q = false ∧ (q = 0 ∨ s.d.flag F.CLK_STAT_LOCK 0 = true);
     let d1 := s.d.setFld F.CLK_STAT_LOCK 1 q;
     let all := ∀ p, p < 4 → d1.flag F.CLK_STAT_LOCK p = true;
     let d2 : Dev := d1;
     let d3 : Dev := (coresOf q).foldl (fun (x : Dev) n => x.setBit (coreReg n .BNK_STAT) 0 true) d2;
     (all → d2 = d1.bridgesStart) ∧ (¬ all → d2 = d1) ∧ (s.d.boot.cause = 0 → d3 = (coresOf q).foldl (fun (x : Dev) n => x.setBit (coreReg n
     .BNK_STAT) 0 true) d2) ∧ (s.d.boot.cause ≠ 0 → d3 = d2) ∧ ¬ may) ∧
    (let fails : List Nat := [];
     let s : State := stOf
       ({ Dev.reset with boot := { Boot.none with on := true }, regs := (upTo 4).map (fun q => (R.CLK_STAT.at q, BitVec.ofNat 64 (2 ^ 64 - 1))) ++ (upTo 8).map (fun x => (dirReg x .NSL_STAT, BitVec.ofNat 64 (2 * 2 ^ 28))) })
       ({ Clk.reset with started := true });
     let due := s.d.stage4 s.clk = true ∧ s.d.boot.loaded = false;
     let bad := ∃ n, n < 8 ∧ n ∈ fails;
     due ∧ ¬ bad) ∧
    (let fails : List Nat := [3];
     let s : State := stOf
       ({ Dev.reset with boot := { Boot.none with on := true }, regs := (upTo 4).map (fun q => (R.CLK_STAT.at q, BitVec.ofNat 64 (2 ^ 64 - 1))) ++ (upTo 8).map (fun x => (dirReg x .NSL_STAT, BitVec.ofNat 64 (2 * 2 ^ 28))) })
       ({ Clk.reset with started := true });
     let due := s.d.stage4 s.clk = true ∧ s.d.boot.loaded = false;
     let bad := ∃ n, n < 8 ∧ n ∈ fails;
     due ∧ bad) ∧
    (let s : State := stOf Dev.reset;
     let due := s.d.stage4 s.clk = true ∧ s.d.boot.loaded = false;
     ¬ due) ∧
    (let secs : List SecIn := [];
     let s : State := stOf ({ Dev.reset with boot := { Boot.none with on := true, loaded := true } });
     let d1 := (secWindows s.d.boot.secs).foldl (fun (x : Dev) w => x.bootBind w) s.d;
     let r := d1.bootSections (d1.boot.secs.zip secs);
     let ready := s.d.doneReady secs = true;
     ready ∧ r.2 = true) ∧
    (let secs : List SecIn := [⟨true, []⟩];
     let s : State := stOf ({ Dev.reset with boot := { Boot.none with on := true, loaded := true, secs := [⟨2, 0, 0x1000, 32, 0, []⟩] } });
     let d1 := (secWindows s.d.boot.secs).foldl (fun (x : Dev) w => x.bootBind w) s.d;
     let r := d1.bootSections (d1.boot.secs.zip secs);
     let ready := s.d.doneReady secs = true;
     ready ∧ r.2 = false) ∧
    (let secs : List SecIn := [];
     let s : State := stOf Dev.reset;
     let ready := s.d.doneReady secs = true;
     ¬ ready) ∧
    (let d : Dev := Dev.reset;
     d.liveQ = 0 ∧ d.aoFree = false) ∧
    (let d : Dev := Dev.reset.setFld F.AO_STATUS_LIVE 3 0;
     d.liveQ = 3) ∧
    (let d : Dev := { Dev.reset with aoFree := true };
     d.liveQ = 0 ∧ d.aoFree = true) := by
  refine ⟨?_, ?_, ?_, ?_, ?_, ?_, ?_, ?_, ?_, ?_, ?_, ?_, ?_, ?_, ?_, ?_, ?_, ?_, ?_, ?_, ?_, ?_, ?_, ?_, ?_, ?_, ?_, ?_, ?_, ?_, ?_⟩
  · try dsimp only
    decide +kernel
  · try dsimp only
    refine ⟨?_, ?_⟩
    · decide +kernel
    · decide +kernel
  · try dsimp only
    refine ⟨?_, ?_, ?_⟩
    · decide +kernel
    · decide +kernel
    · decide +kernel
  · try dsimp only
    refine ⟨?_, ?_, ?_⟩
    · decide +kernel
    · decide +kernel
    · decide +kernel
  · try dsimp only
    refine ⟨?_, ?_⟩
    · decide +kernel
    · decide +kernel
  · try dsimp only
    decide +kernel
  · exact fun hc => tryFlash_img 0 (Or.inl rfl) _ _ rfl rfl hc
  · intro hc
    have e : ∀ b, Dev.tryFlash { Dev.reset with mem := imgMem (imgN imgSig) (flashBase 3) } 0 b = _ :=
      fun b => tryFlash_empty _ 0 b (slotMagic_below _ _ 0 (by decide) rfl) (slotMagic_below _ _ 1 (by decide) rfl)
    dsimp only
    rw [e]
    exact ⟨rfl, tryFlash_img 3 (Or.inr rfl) _ _ rfl rfl hc⟩
  · intro hc
    dsimp only
    exact ⟨by decide +kernel, by decide +kernel, tryImage_spi hc⟩
  · try dsimp only
    refine ⟨?_, ?_, ?_⟩
    · decide +kernel
    · decide +kernel
    · decide +kernel
  · try dsimp only
    decide +kernel
  · try dsimp only
    refine ⟨?_, ?_⟩
    · decide +kernel
    · decide +kernel
  · try dsimp only
    refine ⟨?_, ?_⟩
    · decide +kernel
    · decide +kernel
  · intro hc
    exact ⟨⟨⟨rfl, img_good.1.1⟩, img_good.1.2.1⟩, fun h => by have := h.2.symm.trans hc; cases this⟩
  · intro hc
    have f := img_format _ 0 0 rfl (Or.inl ⟨rfl, rfl⟩)
    exact ⟨⟨⟨⟨rfl, f.1⟩, f.2⟩, hc⟩, fun h => absurd h.2 (by decide +kernel)⟩
  · intro hc
    have f := img_format _ imgSig 1 rfl (Or.inr ⟨rfl, rfl⟩)
    exact ⟨⟨⟨⟨⟨rfl, f.1⟩, f.2⟩, hc⟩, img_sig_changed⟩, fun h => absurd h.2 (by decide +kernel)⟩
  · intro hc
    exact ⟨⟨⟨⟨⟨⟨rfl, img_good.1.1⟩, img_good.1.2.1⟩, hc.1⟩, img_sig⟩, img_good.1.2.2 false⟩, fun h => by obtain ⟨c, h1, _⟩ := h.2; cases hc.2.symm.trans h1⟩
  · intro hc
    exact ⟨⟨⟨⟨⟨⟨rfl, img_good.1.1⟩, img_good.1.2.1⟩, hc.1⟩, img_sig⟩, img_good.1.2.2 false⟩, hc.2⟩
  · have hL : ¬ (((({ Dev.reset with boot := { Boot.none with on := true }, regs := [(R.CLK_STAT.at 0, 0), (R.CLK_STAT.at 1, 0), (R.CLK_STAT.at 2, 0), (R.CLK_STAT.at 3, 0)] }).setFld F.CLK_STAT_LOCK 1 0).flag F.CLK_STAT_LOCK 3) = true) := by
      rw [lock_other _ _ _ _ (by decide)]
      decide +kernel
    have hq : ({ Dev.reset with boot := { Boot.none with on := true }, regs := [(R.CLK_STAT.at 0, 0), (R.CLK_STAT.at 1, 0), (R.CLK_STAT.at 2, 0), (R.CLK_STAT.at 3, 0)] }).flag F.CLK_STAT_LOCK 0 = false := by decide +kernel
    exact ⟨fun h => absurd (h 3 (by decide)) hL, fun _ => rfl, fun _ => rfl, fun h => absurd rfl h, ⟨rfl, by decide, hq, Or.inl rfl⟩, rfl⟩
  · have hL : ¬ (((({ Dev.reset with boot := { Boot.none with on := true }, regs := [(R.CLK_STAT.at 0, BitVec.ofNat 64 (2 ^ 64 - 1)), (R.CLK_STAT.at 1, 0), (R.CLK_STAT.at 2, 0), (R.CLK_STAT.at 3, 0)] }).setFld F.CLK_STAT_LOCK 1 1).flag F.CLK_STAT_LOCK 3) = true) := by
      rw [lock_other _ _ _ _ (by decide)]
      decide +kernel
    have hq : ({ Dev.reset with boot := { Boot.none with on := true }, regs := [(R.CLK_STAT.at 0, BitVec.ofNat 64 (2 ^ 64 - 1)), (R.CLK_STAT.at 1, 0), (R.CLK_STAT.at 2, 0), (R.CLK_STAT.at 3, 0)] }).flag F.CLK_STAT_LOCK 1 = false := by decide +kernel
    exact ⟨fun h => absurd (h 3 (by decide)) hL, fun _ => rfl, fun _ => rfl, fun h => absurd rfl h, ⟨rfl, by decide, hq, Or.inr (by decide +kernel)⟩, fun h => by cases h⟩
  · have hL : ¬ (((({ Dev.reset with boot := { Boot.none with on := true }, regs := [(R.CLK_STAT.at 0, 0), (R.CLK_STAT.at 1, 0), (R.CLK_STAT.at 2, 0), (R.CLK_STAT.at 3, 0)] }).setFld F.CLK_STAT_LOCK 1 0).flag F.CLK_STAT_LOCK 3) = true) := by
      rw [lock_other _ _ _ _ (by decide)]
      decide +kernel
    have hq : ({ Dev.reset with boot := { Boot.none with on := true }, regs := [(R.CLK_STAT.at 0, 0), (R.CLK_STAT.at 1, 0), (R.CLK_STAT.at 2, 0), (R.CLK_STAT.at 3, 0)] }).flag F.CLK_STAT_LOCK 0 = false := by decide +kernel
    exact ⟨fun h => absurd (h 3 (by decide)) hL, fun _ => rfl, fun _ => rfl, fun h => absurd rfl h, ⟨rfl, by decide, hq, Or.inl rfl⟩⟩
  · have hL : ¬ (((({ Dev.reset with boot := { Boot.none with cause := 0 }, regs := [(R.CLK_STAT.at 0, 0), (R.CLK_STAT.at 1, 0), (R.CLK_STAT.at 2, 0), (R.CLK_STAT.at 3, 0)] }).setFld F.CLK_STAT_LOCK 1 0).flag F.CLK_STAT_LOCK 3) = true) := by
      rw [lock_other _ _ _ _ (by decide)]
      decide +kernel
    have hq : ({ Dev.reset with boot := { Boot.none with cause := 0 }, regs := [(R.CLK_STAT.at 0, 0), (R.CLK_STAT.at 1, 0), (R.CLK_STAT.at 2, 0), (R.CLK_STAT.at 3, 0)] }).flag F.CLK_STAT_LOCK 0 = false := by decide +kernel
    exact ⟨fun h => absurd (h 3 (by decide)) hL, fun _ => rfl, fun _ => rfl, fun h => absurd rfl h, fun h => by cases h.1⟩
  · try dsimp only
    refine ⟨?_, ?_⟩
    · decide +kernel
    · decide +kernel
  · try dsimp only
    refine ⟨?_, ?_⟩
    · decide +kernel
    · decide +kernel
  · try dsimp only
    decide +kernel
  · try dsimp only
    refine ⟨?_, ?_⟩
    · decide +kernel
    · decide +kernel
  · try dsimp only
    refine ⟨?_, ?_⟩
    · decide +kernel
    · decide +kernel
  · try dsimp only
    decide +kernel
  · try dsimp only
    refine ⟨?_, ?_⟩
    · decide +kernel
    · decide +kernel
  · try dsimp only
    decide +kernel
  · try dsimp only
    refine ⟨?_, ?_⟩
    · decide +kernel
    · decide +kernel

/-- What DebugAuth asks of a state and of operands is met, case by case. -/
theorem witness_DebugAuth :
    (let s : State := stOf (Dev.reset.setFld F.AO_STATUS_FAILED_OVER 1 0);
     let up := s.d.dwUsable = true;
     ¬ up) ∧
    (let s : State := stOf (Dev.reset.setFld F.DW_STAT_AUTH 3 0);
     let up := s.d.dwUsable = true;
     let st := s.d.fld F.DW_STAT_AUTH 0;
     up ∧ st = 3) ∧
    (let s : State := stOf (Dev.reset.setFld F.DW_STAT_AUTH 2 0);
     let up := s.d.dwUsable = true;
     let st := s.d.fld F.DW_STAT_AUTH 0;
     up ∧ st = 2) ∧
    (let v : Nat := 256;
     let s : State := stOf Dev.reset;
     let up := s.d.dwUsable = true;
     let st := s.d.fld F.DW_STAT_AUTH 0;
     let lv := bitsOf v 9 8;
     up ∧ st ≠ 2 ∧ st ≠ 3 ∧ (lv = 1 ∨ lv = 2)) ∧
    (let v : Nat := 0;
     let s : State := stOf Dev.reset;
     let up := s.d.dwUsable = true;
     let st := s.d.fld F.DW_STAT_AUTH 0;
     let lv := bitsOf v 9 8;
     up ∧ st ≠ 2 ∧ st ≠ 3 ∧ (lv = 0 ∨ lv = 3)) ∧
    (let s : State := stOf ({ Dev.reset with auth := ⟨0, 0, some [], true, List.replicate 50 0, []⟩ });
     let up := s.d.dwUsable = true;
     let st := s.d.fld F.DW_STAT_AUTH 0;
     let nonce := s.d.auth.nonce;
     let words := s.d.auth.words;
     let good := s.d.auth.live = true ∧ nonce ≠ none ∧ words.length = 50 ∧ s.clk.tick < s.d.auth.since + nonceLife;
     up ∧ st ≠ 2 ∧ st ≠ 3 ∧ good) ∧
    (let s : State := stOf Dev.reset;
     let up := s.d.dwUsable = true;
     let st := s.d.fld F.DW_STAT_AUTH 0;
     let nonce := s.d.auth.nonce;
     let words := s.d.auth.words;
     let good := s.d.auth.live = true ∧ nonce ≠ none ∧ words.length = 50 ∧ s.clk.tick < s.d.auth.since + nonceLife;
     up ∧ st ≠ 2 ∧ st ≠ 3 ∧ ¬ good) ∧
    (let s : State := stOf Dev.reset;
     let up := s.d.dwUsable = true;
     up) ∧
    (let v : Nat := 0;
     let s : State := stOf (Dev.reset.setFld F.DW_STAT_LEVEL 1 0);
     let up := s.d.dwUsable = true;
     let lv := bitsOf v 9 8;
     up ∧ lv < s.d.dwLevel) ∧
    (let v : Nat := 0;
     let s : State := stOf Dev.reset;
     let up := s.d.dwUsable = true;
     let lv := bitsOf v 9 8;
     up ∧ s.d.dwLevel ≤ lv) ∧
    (let s : State := stOf Dev.reset;
     let up := s.d.dwUsable = true;
     let nonce := s.d.auth.nonce;
     up ∧ nonce = none) ∧
    (let w : Nat := 5;
     let r : List Nat := [];
     let s : State := stOf ({ Dev.reset with auth := ⟨0, 0, some [5], false, [], []⟩ });
     let up := s.d.dwUsable = true;
     let nonce := s.d.auth.nonce;
     up ∧ nonce = some (w :: r)) ∧
    (let s : State := stOf ({ Dev.reset with auth := ⟨0, 0, some [], false, [], []⟩ });
     let up := s.d.dwUsable = true;
     let nonce := s.d.auth.nonce;
     up ∧ nonce = some []) ∧
    (let ws : List Nat := List.replicate 12 0;
     let s : State := stOf ({ Dev.reset with auth := ⟨0, 0, none, true, [], []⟩ });
     let draws := s.d.auth.live = true ∧ s.d.auth.nonce = none ∧ ws.length = 12;
     draws) ∧
    (let ws : List Nat := [];
     let s : State := stOf Dev.reset;
     let draws := s.d.auth.live = true ∧ s.d.auth.nonce = none ∧ ws.length = 12;
     ¬ draws) ∧
    ((Config.fuseUid = 0 ∧ sha384 ((wordBytes (dbgKey.take 50)).take 97) = ownerKhash) →
     let s : State := stOf (({ Dev.reset with auth := ⟨1, 0, none, false, dbgKey, List.replicate 12 0⟩ }).setFld F.DW_STAT_AUTH 2 0);
     let st := s.d.fld F.DW_STAT_AUTH 0;
     let a := s.d.auth;
     let uid := (upTo 8).map (fun i => BitVec.ofNat 8 (Config.fuseUid.toNat / 256 ^ i));
     let msg := wordBytes a.drawn ++ uid ++ [BitVec.ofNat 8 a.want] ++ List.replicate 7 (0 : Byte);
     let signed := sigBlockOk (wordBytes (a.words.take 50)) ownerKhash msg = true;
     st = 2 ∧ signed) ∧
    (let s : State := stOf (({ Dev.reset with auth := ⟨0, 0, none, false, [], []⟩ }).setFld F.DW_STAT_AUTH 2 0);
     let st := s.d.fld F.DW_STAT_AUTH 0;
     let a := s.d.auth;
     let uid := (upTo 8).map (fun i => BitVec.ofNat 8 (Config.fuseUid.toNat / 256 ^ i));
     let msg := wordBytes a.drawn ++ uid ++ [BitVec.ofNat 8 a.want] ++ List.replicate 7 (0 : Byte);
     let signed := sigBlockOk (wordBytes (a.words.take 50)) ownerKhash msg = true;
     st = 2 ∧ ¬ signed) ∧
    (let s : State := stOf Dev.reset;
     let st := s.d.fld F.DW_STAT_AUTH 0;
     st ≠ 2) ∧
    (let s : State := stOf (Dev.reset.setFld F.DW_STAT_AUTH 3 0);
     let st := s.d.fld F.DW_STAT_AUTH 0;
     st = 3) ∧
    (let s : State := stOf Dev.reset;
     let st := s.d.fld F.DW_STAT_AUTH 0;
     st ≠ 3) := by
  refine ⟨?_, ?_, ?_, ?_, ?_, ?_, ?_, ?_, ?_, ?_, ?_, ?_, ?_, ?_, ?_, ?_, ?_, ?_, ?_, ?_⟩
  · try dsimp only
    decide +kernel
  · try dsimp only
    refine ⟨?_, ?_⟩
    · decide +kernel
    · decide +kernel
  · try dsimp only
    refine ⟨?_, ?_⟩
    · decide +kernel
    · decide +kernel
  · try dsimp only
    refine ⟨?_, ?_, ?_, ?_⟩
    · decide +kernel
    · decide +kernel
    · decide +kernel
    · decide +kernel
  · try dsimp only
    refine ⟨?_, ?_, ?_, ?_⟩
    · decide +kernel
    · decide +kernel
    · decide +kernel
    · decide +kernel
  · try dsimp only
    refine ⟨?_, ?_, ?_, ?_⟩
    · decide +kernel
    · decide +kernel
    · decide +kernel
    · exact ⟨rfl, by decide +kernel, by decide +kernel, lifeLong⟩
  · try dsimp only
    refine ⟨?_, ?_, ?_, ?_⟩
    · decide +kernel
    · decide +kernel
    · decide +kernel
    · decide +kernel
  · try dsimp only
    decide +kernel
  · try dsimp only
    refine ⟨?_, ?_⟩
    · decide +kernel
    · decide +kernel
  · try dsimp only
    refine ⟨?_, ?_⟩
    · decide +kernel
    · decide +kernel
  · try dsimp only
    refine ⟨?_, ?_⟩
    · decide +kernel
    · decide +kernel
  · try dsimp only
    refine ⟨?_, ?_⟩
    · decide +kernel
    · decide +kernel
  · try dsimp only
    refine ⟨?_, ?_⟩
    · decide +kernel
    · decide +kernel
  · try dsimp only
    decide +kernel
  · try dsimp only
    decide +kernel
  · intro hc
    dsimp only
    refine ⟨by decide +kernel, ?_⟩
    rw [hc.1]
    exact dbgKey_sign _ hc.2
  · try dsimp only
    refine ⟨?_, ?_⟩
    · decide +kernel
    · exact fun h => Bool.noConfusion ((sigBlock_empty _ _).symm.trans h)
  · try dsimp only
    decide +kernel
  · try dsimp only
    decide +kernel
  · try dsimp only
    decide +kernel

/-- What DebugFrames asks of a state and of operands is met, case by case. -/
theorem witness_DebugFrames :
    (let hdr : Nat := 0;
     let s : State := stOf (Dev.reset.setFld F.AO_STATUS_FAILED_OVER 1 0);
     let dead := s.d.dwUsable = false ∨ bitsOf hdr 15 14 ≠ 0;
     dead) ∧
    (let hdr : Nat := 0;
     let s : State := stOf Dev.reset;
     let dead := s.d.dwUsable = false ∨ bitsOf hdr 15 14 ≠ 0;
     let isStat := bitsOf hdr 7 3 = 0x10 ∧ bitsOf hdr 13 8 = 0x03;
     let ok (cmd : Nat) := ¬ dead ∧ hdr % 8 = 5 ∧ bitsOf hdr 7 3 = cmd ∧ (s.d.flag F.DW_STAT_CRCERR 0 = false ∨ isStat);
     let bad (cmd : Nat) := ¬ dead ∧ ¬ (ok cmd ∧ dwIndex (bitsOf hdr 13 8) ≠ none);
     bad 0x10) ∧
    (let hdr : Nat := 0;
     let s : State := stOf Dev.reset;
     let dead := s.d.dwUsable = false ∨ bitsOf hdr 15 14 ≠ 0;
     let isStat := bitsOf hdr 7 3 = 0x10 ∧ bitsOf hdr 13 8 = 0x03;
     let ok (cmd : Nat) := ¬ dead ∧ hdr % 8 = 5 ∧ bitsOf hdr 7 3 = cmd ∧ (s.d.flag F.DW_STAT_CRCERR 0 = false ∨ isStat);
     let bad (cmd : Nat) := ¬ dead ∧ ¬ (ok cmd ∧ dwIndex (bitsOf hdr 13 8) ≠ none);
     bad 0x11) ∧
    (let hdr : Nat := 2693;
     let r : R := .DW_DATA;
     let s : State := stOf Dev.reset;
     let dead := s.d.dwUsable = false ∨ bitsOf hdr 15 14 ≠ 0;
     let isStat := bitsOf hdr 7 3 = 0x10 ∧ bitsOf hdr 13 8 = 0x03;
     let ok (cmd : Nat) := ¬ dead ∧ hdr % 8 = 5 ∧ bitsOf hdr 7 3 = cmd ∧ (s.d.flag F.DW_STAT_CRCERR 0 = false ∨ isStat);
     ok 0x10 ∧ dwIndex (bitsOf hdr 13 8) = some r ∧
     let denied := dwBusReg r = true ∧ s.d.dwLevel = 0;
     denied) ∧
    (let hdr : Nat := 2693;
     let r : R := .DW_DATA;
     let s : State := stOf ({ Dev.reset.setFld F.DW_STAT_LEVEL 1 0 with dwBus := some ⟨⟨0, 0, false⟩, 0, 8, false, 0⟩ });
     let dead := s.d.dwUsable = false ∨ bitsOf hdr 15 14 ≠ 0;
     let isStat := bitsOf hdr 7 3 = 0x10 ∧ bitsOf hdr 13 8 = 0x03;
     let ok (cmd : Nat) := ¬ dead ∧ hdr % 8 = 5 ∧ bitsOf hdr 7 3 = cmd ∧ (s.d.flag F.DW_STAT_CRCERR 0 = false ∨ isStat);
     ok 0x10 ∧ dwIndex (bitsOf hdr 13 8) = some r ∧
     let isData := r = .DW_DATA ∨ r = .DW_DATA_HI;
     let denied := dwBusReg r = true ∧ s.d.dwLevel = 0;
     let busy := isData ∧ s.d.dwBus ≠ none;
     ¬ denied ∧ busy) ∧
    (let hdr : Nat := 2693;
     let r : R := .DW_DATA;
     let s : State := stOf ({ Dev.reset.setFld F.DW_STAT_LEVEL 1 0 with dwFault := true });
     let dead := s.d.dwUsable = false ∨ bitsOf hdr 15 14 ≠ 0;
     let isStat := bitsOf hdr 7 3 = 0x10 ∧ bitsOf hdr 13 8 = 0x03;
     let ok (cmd : Nat) := ¬ dead ∧ hdr % 8 = 5 ∧ bitsOf hdr 7 3 = cmd ∧ (s.d.flag F.DW_STAT_CRCERR 0 = false ∨ isStat);
     ok 0x10 ∧ dwIndex (bitsOf hdr 13 8) = some r ∧
     let isData := r = .DW_DATA ∨ r = .DW_DATA_HI;
     let denied := dwBusReg r = true ∧ s.d.dwLevel = 0;
     let busy := isData ∧ s.d.dwBus ≠ none;
     let faulty := isData ∧ s.d.dwFault = true;
     ¬ denied ∧ ¬ busy ∧ faulty) ∧
    (let hdr : Nat := 901;
     let r : R := .DW_STAT;
     let s : State := stOf Dev.reset;
     let dead := s.d.dwUsable = false ∨ bitsOf hdr 15 14 ≠ 0;
     let isStat := bitsOf hdr 7 3 = 0x10 ∧ bitsOf hdr 13 8 = 0x03;
     let ok (cmd : Nat) := ¬ dead ∧ hdr % 8 = 5 ∧ bitsOf hdr 7 3 = cmd ∧ (s.d.flag F.DW_STAT_CRCERR 0 = false ∨ isStat);
     ok 0x10 ∧ dwIndex (bitsOf hdr 13 8) = some r ∧ r = .DW_STAT) ∧
    (let hdr : Nat := 1413;
     let r : R := .DW_AUTH_CMD;
     let s : State := stOf Dev.reset;
     let dead := s.d.dwUsable = false ∨ bitsOf hdr 15 14 ≠ 0;
     let isStat := bitsOf hdr 7 3 = 0x10 ∧ bitsOf hdr 13 8 = 0x03;
     let ok (cmd : Nat) := ¬ dead ∧ hdr % 8 = 5 ∧ bitsOf hdr 7 3 = cmd ∧ (s.d.flag F.DW_STAT_CRCERR 0 = false ∨ isStat);
     ok 0x10 ∧ dwIndex (bitsOf hdr 13 8) = some r ∧ (r = .DW_AUTH_CMD ∨ r = .DW_AUTH_DATA)) ∧
    (let hdr : Nat := 1669;
     let r : R := .DW_NONCE;
     let s : State := stOf Dev.reset;
     let dead := s.d.dwUsable = false ∨ bitsOf hdr 15 14 ≠ 0;
     let isStat := bitsOf hdr 7 3 = 0x10 ∧ bitsOf hdr 13 8 = 0x03;
     let ok (cmd : Nat) := ¬ dead ∧ hdr % 8 = 5 ∧ bitsOf hdr 7 3 = cmd ∧ (s.d.flag F.DW_STAT_CRCERR 0 = false ∨ isStat);
     ok 0x10 ∧ dwIndex (bitsOf hdr 13 8) = some r ∧ r = .DW_NONCE) ∧
    (let hdr : Nat := 133;
     let r : R := .DW_IDCODE;
     let s : State := stOf Dev.reset;
     let dead := s.d.dwUsable = false ∨ bitsOf hdr 15 14 ≠ 0;
     let isStat := bitsOf hdr 7 3 = 0x10 ∧ bitsOf hdr 13 8 = 0x03;
     let ok (cmd : Nat) := ¬ dead ∧ hdr % 8 = 5 ∧ bitsOf hdr 7 3 = cmd ∧ (s.d.flag F.DW_STAT_CRCERR 0 = false ∨ isStat);
     ok 0x10 ∧ dwIndex (bitsOf hdr 13 8) = some r ∧
     let isData := r = .DW_DATA ∨ r = .DW_DATA_HI;
     let denied := dwBusReg r = true ∧ s.d.dwLevel = 0;
     let busy := isData ∧ s.d.dwBus ≠ none;
     let faulty := isData ∧ s.d.dwFault = true;
     ¬ denied ∧ ¬ busy ∧ ¬ faulty ∧ r ≠ .DW_STAT ∧ r ≠ .DW_AUTH_CMD ∧ r ≠ .DW_AUTH_DATA ∧ r ≠ .DW_NONCE) ∧
    (let hdr : Nat := 2701;
     let r : R := .DW_DATA;
     let s : State := stOf Dev.reset;
     let dead := s.d.dwUsable = false ∨ bitsOf hdr 15 14 ≠ 0;
     let isStat := bitsOf hdr 7 3 = 0x10 ∧ bitsOf hdr 13 8 = 0x03;
     let ok (cmd : Nat) := ¬ dead ∧ hdr % 8 = 5 ∧ bitsOf hdr 7 3 = cmd ∧ (s.d.flag F.DW_STAT_CRCERR 0 = false ∨ isStat);
     ok 0x11 ∧ dwIndex (bitsOf hdr 13 8) = some r ∧
     let denied := dwBusReg r = true ∧ s.d.dwLevel = 0;
     denied) ∧
    (let hdr : Nat := 2701;
     let r : R := .DW_DATA;
     let s : State := stOf ({ Dev.reset.setFld F.DW_STAT_LEVEL 1 0 with dwBus := some ⟨⟨0, 0, false⟩, 0, 8, false, 0⟩ });
     let dead := s.d.dwUsable = false ∨ bitsOf hdr 15 14 ≠ 0;
     let isStat := bitsOf hdr 7 3 = 0x10 ∧ bitsOf hdr 13 8 = 0x03;
     let ok (cmd : Nat) := ¬ dead ∧ hdr % 8 = 5 ∧ bitsOf hdr 7 3 = cmd ∧ (s.d.flag F.DW_STAT_CRCERR 0 = false ∨ isStat);
     ok 0x11 ∧ dwIndex (bitsOf hdr 13 8) = some r ∧
     let denied := dwBusReg r = true ∧ s.d.dwLevel = 0;
     let busy := dwBusReg r = true ∧ s.d.dwBus ≠ none;
     ¬ denied ∧ busy) ∧
    (let hdr : Nat := 2701;
     let data : Nat := 0;
     let crc : Nat := crc8 2701 0;
     let r : R := .DW_DATA;
     let s : State := stOf (Dev.reset.setFld F.DW_STAT_LEVEL 1 0);
     let dead := s.d.dwUsable = false ∨ bitsOf hdr 15 14 ≠ 0;
     let isStat := bitsOf hdr 7 3 = 0x10 ∧ bitsOf hdr 13 8 = 0x03;
     let ok (cmd : Nat) := ¬ dead ∧ hdr % 8 = 5 ∧ bitsOf hdr 7 3 = cmd ∧ (s.d.flag F.DW_STAT_CRCERR 0 = false ∨ isStat);
     ok 0x11 ∧ dwIndex (bitsOf hdr 13 8) = some r ∧
     let denied := dwBusReg r = true ∧ s.d.dwLevel = 0;
     let busy := dwBusReg r = true ∧ s.d.dwBus ≠ none;
     let right := crc % 256 = crc8 hdr (data % 2 ^ 32);
     ¬ denied ∧ ¬ busy ∧ right) ∧
    (let hdr : Nat := 2701;
     let data : Nat := 0;
     let crc : Nat := crc8 2701 0 + 1;
     let r : R := .DW_DATA;
     let s : State := stOf (Dev.reset.setFld F.DW_STAT_LEVEL 1 0);
     let dead := s.d.dwUsable = false ∨ bitsOf hdr 15 14 ≠ 0;
     let isStat := bitsOf hdr 7 3 = 0x10 ∧ bitsOf hdr 13 8 = 0x03;
     let ok (cmd : Nat) := ¬ dead ∧ hdr % 8 = 5 ∧ bitsOf hdr 7 3 = cmd ∧ (s.d.flag F.DW_STAT_CRCERR 0 = false ∨ isStat);
     ok 0x11 ∧ dwIndex (bitsOf hdr 13 8) = some r ∧
     let denied := dwBusReg r = true ∧ s.d.dwLevel = 0;
     let busy := dwBusReg r = true ∧ s.d.dwBus ≠ none;
     let right := crc % 256 = crc8 hdr (data % 2 ^ 32);
     ¬ denied ∧ ¬ busy ∧ ¬ right) ∧
    (let s : State := stOf Dev.reset;
     s.d.dwUsable = true) ∧
    (let s : State := stOf (Dev.reset.setFld F.AO_STATUS_FAILED_OVER 1 0);
     s.d.dwUsable = false) ∧
    (let s : State := stOf (Dev.reset.setFld F.AO_STATUS_FAILED_OVER 1 0);
     let up := s.d.dwUsable = true;
     ¬ up) ∧
    (let s : State := stOf Dev.reset;
     let up := s.d.dwUsable = true;
     let lvl := s.d.dwLevel ≠ 0;
     up ∧ ¬ lvl) ∧
    (let s : State := stOf ({ Dev.reset.setFld F.DW_STAT_LEVEL 1 0 with dwBus := some ⟨⟨0, 0, false⟩, 0, 8, false, 0⟩ });
     let up := s.d.dwUsable = true;
     let lvl := s.d.dwLevel ≠ 0;
     let free := s.d.dwBus = none;
     up ∧ lvl ∧ ¬ free) ∧
    (let v : Nat := 0x20000000;
     let s : State := stOf (Dev.reset.setFld F.DW_STAT_LEVEL 1 0);
     let up := s.d.dwUsable = true;
     let lvl := s.d.dwLevel ≠ 0;
     let free := s.d.dwBus = none;
     let size := bitsOf v 29 28;
     up ∧ lvl ∧ free ∧ 1 < size) ∧
    (let v : Nat := 0;
     let s : State := stOf (Dev.reset.setFld F.DW_STAT_LEVEL 1 0);
     let up := s.d.dwUsable = true;
     let lvl := s.d.dwLevel ≠ 0;
     let free := s.d.dwBus = none;
     let size := bitsOf v 29 28;
     let go := v.testBit 31 = true;
     up ∧ lvl ∧ free ∧ size ≤ 1 ∧ ¬ go) ∧
    (let v : Nat := 0xC0000000;
     let s : State := stOf (Dev.reset.setFld F.DW_STAT_LEVEL 1 0);
     let up := s.d.dwUsable = true;
     let lvl := s.d.dwLevel ≠ 0;
     let free := s.d.dwBus = none;
     let size := bitsOf v 29 28;
     let go := v.testBit 31 = true;
     let n := if size = 0 then 4 else 8;
     let addr := bitsOf (s.d.regN (R.DW_ADDR_HI.at 0)) 15 0 * 2 ^ 32 + s.d.regN (R.DW_ADDR_LO.at 0) % 2 ^ 32;
     let hi := if size = 0 then 0 else s.d.regN (R.DW_DATA_HI.at 0) % 2 ^ 32 * 2 ^ 32;
     let a : Access := ⟨⟨0x4C0, 0, false⟩, addr, n, v.testBit 30, s.d.regN (R.DW_DATA.at 0) % 2 ^ 32 + hi⟩;
     let may := s.d.dwLevel = 2 ∨ (s.d.dwLevel = 1 ∧ a.write = false ∧ s.d.observeReads a.addr a.size = true);
     up ∧ lvl ∧ free ∧ size ≤ 1 ∧ go ∧ ¬ may) ∧
    (let v : Nat := 0xC0000000;
     let s : State := stOf (Dev.reset.setFld F.DW_STAT_LEVEL 2 0);
     let up := s.d.dwUsable = true;
     let lvl := s.d.dwLevel ≠ 0;
     let free := s.d.dwBus = none;
     let size := bitsOf v 29 28;
     let go := v.testBit 31 = true;
     let n := if size = 0 then 4 else 8;
     let addr := bitsOf (s.d.regN (R.DW_ADDR_HI.at 0)) 15 0 * 2 ^ 32 + s.d.regN (R.DW_ADDR_LO.at 0) % 2 ^ 32;
     let hi := if size = 0 then 0 else s.d.regN (R.DW_DATA_HI.at 0) % 2 ^ 32 * 2 ^ 32;
     let a : Access := ⟨⟨0x4C0, 0, false⟩, addr, n, v.testBit 30, s.d.regN (R.DW_DATA.at 0) % 2 ^ 32 + hi⟩;
     let may := s.d.dwLevel = 2 ∨ (s.d.dwLevel = 1 ∧ a.write = false ∧ s.d.observeReads a.addr a.size = true);
     up ∧ lvl ∧ free ∧ size ≤ 1 ∧ go ∧ may) ∧
    (let s : State := stOf Dev.reset;
     s.d.dwBus = none) ∧
    (let e : HbmErr := .none;
     let a : Access := ⟨⟨0, 0, false⟩, 0xF800000000, 8, true, 0⟩;
     let s : State := stOf ({ Dev.reset with dwBus := some ⟨⟨0, 0, false⟩, 0xF800000000, 8, true, 0⟩ });
     s.d.dwBus = some a ∧ s.d.baskingOn a = [] ∧
     let r := s.d.dwPerform a e s.clk;
     let bad := r.2.1 = .slverr ∨ r.2.1 = .decerr;
     bad) ∧
    (let e : HbmErr := .none;
     let a : Access := ⟨⟨0, 0, false⟩, 0xE000000000, 8, true, 0⟩;
     let s : State := stOf ({ Dev.reset with dwBus := some ⟨⟨0, 0, false⟩, 0xE000000000, 8, true, 0⟩ });
     s.d.dwBus = some a ∧ s.d.baskingOn a = [] ∧
     let r := s.d.dwPerform a e s.clk;
     let bad := r.2.1 = .slverr ∨ r.2.1 = .decerr;
     ¬ bad ∧ a.write = true) ∧
    (let e : HbmErr := .none;
     let a : Access := ⟨⟨0, 0, false⟩, 0xE000000000, 4, false, 0⟩;
     let s : State := stOf ({ Dev.reset with dwBus := some ⟨⟨0, 0, false⟩, 0xE000000000, 4, false, 0⟩ });
     s.d.dwBus = some a ∧ s.d.baskingOn a = [] ∧
     let r := s.d.dwPerform a e s.clk;
     let bad := r.2.1 = .slverr ∨ r.2.1 = .decerr;
     ¬ bad ∧ a.write = false ∧ a.size ≠ 8) ∧
    (let e : HbmErr := .none;
     let a : Access := ⟨⟨0, 0, false⟩, 0xE000000000, 8, false, 0⟩;
     let s : State := stOf ({ Dev.reset with dwBus := some ⟨⟨0, 0, false⟩, 0xE000000000, 8, false, 0⟩ });
     s.d.dwBus = some a ∧ s.d.baskingOn a = [] ∧
     let r := s.d.dwPerform a e s.clk;
     let bad := r.2.1 = .slverr ∨ r.2.1 = .decerr;
     ¬ bad ∧ a.write = false ∧ a.size = 8) ∧
    (let a : Access := ⟨⟨0, 0, false⟩, 0xE000000000, 8, false, 0⟩;
     let x : Nat × Nat := (0, 16);
     let l : List (Nat × Nat) := [(0, 16), (0, 16)];
     let s : State := stOf (({ Dev.reset with dwBus := some ⟨⟨0, 0, false⟩, 0xE000000000, 8, false, 0⟩ }).setFld F.PWR_DOM_CUR 1 0 16);
     s.d.dwBus = some a ∧ s.d.baskingOn a = x :: l) ∧
    (let hdr : Nat := 0;
     let s : State := stOf (Dev.reset.setFld F.AO_STATUS_FAILED_OVER 1 0);
     let dead := s.d.dwUsable = false ∨ bitsOf hdr 15 14 ≠ 0;
     dead) ∧
    (let hdr : Nat := 0;
     let s : State := stOf Dev.reset;
     let dead := s.d.dwUsable = false ∨ bitsOf hdr 15 14 ≠ 0;
     let ok := hdr % 8 = 5 ∧ bitsOf hdr 7 3 = 0x1C ∧ s.d.flag F.DW_STAT_CRCERR 0 = false ∧ bitsOf hdr 13 8 = 0;
     ¬ dead ∧ ¬ ok) ∧
    (let hdr : Nat := 229;
     let s : State := stOf Dev.reset;
     let dead := s.d.dwUsable = false ∨ bitsOf hdr 15 14 ≠ 0;
     let ok := hdr % 8 = 5 ∧ bitsOf hdr 7 3 = 0x1C ∧ s.d.flag F.DW_STAT_CRCERR 0 = false ∧ bitsOf hdr 13 8 = 0;
     ¬ dead ∧ ok ∧ s.d.dwBus = none) ∧
    (let hdr : Nat := 229;
     let left : Bool := false;
     let a : Access := ⟨⟨0, 0, false⟩, 0, 8, false, 0⟩;
     let s : State := stOf ({ Dev.reset with dwBus := some ⟨⟨0, 0, false⟩, 0, 8, false, 0⟩ });
     let dead := s.d.dwUsable = false ∨ bitsOf hdr 15 14 ≠ 0;
     let ok := hdr % 8 = 5 ∧ bitsOf hdr 7 3 = 0x1C ∧ s.d.flag F.DW_STAT_CRCERR 0 = false ∧ bitsOf hdr 13 8 = 0;
     ¬ dead ∧ ok ∧ s.d.dwBus = some a ∧ left = false) ∧
    (let hdr : Nat := 229;
     let left : Bool := true;
     let a : Access := ⟨⟨0, 0, false⟩, 0, 8, false, 0⟩;
     let s : State := stOf ({ Dev.reset with dwBus := some ⟨⟨0, 0, false⟩, 0, 8, false, 0⟩ });
     let dead := s.d.dwUsable = false ∨ bitsOf hdr 15 14 ≠ 0;
     let ok := hdr % 8 = 5 ∧ bitsOf hdr 7 3 = 0x1C ∧ s.d.flag F.DW_STAT_CRCERR 0 = false ∧ bitsOf hdr 13 8 = 0;
     ¬ dead ∧ ok ∧ s.d.dwBus = some a ∧ left = true) := by
  refine ⟨?_, ?_, ?_, ?_, ?_, ?_, ?_, ?_, ?_, ?_, ?_, ?_, ?_, ?_, ?_, ?_, ?_, ?_, ?_, ?_, ?_, ?_, ?_, ?_, ?_, ?_, ?_, ?_, ?_, ?_, ?_,
    ?_, ?_, ?_⟩
  · try dsimp only
    decide +kernel
  · try dsimp only
    decide +kernel
  · try dsimp only
    decide +kernel
  · try dsimp only
    refine ⟨?_, ?_, ?_⟩
    · decide +kernel
    · decide +kernel
    · decide +kernel
  · try dsimp only
    refine ⟨?_, ?_, ?_, ?_⟩
    · decide +kernel
    · decide +kernel
    · decide +kernel
    · decide +kernel
  · try dsimp only
    refine ⟨?_, ?_, ?_, ?_, ?_⟩
    · decide +kernel
    · decide +kernel
    · decide +kernel
    · decide +kernel
    · decide +kernel
  · try dsimp only
    refine ⟨?_, ?_, ?_⟩
    · decide +kernel
    · decide +kernel
    · decide +kernel
  · try dsimp only
    refine ⟨?_, ?_, ?_⟩
    · decide +kernel
    · decide +kernel
    · decide +kernel
  · try dsimp only
    refine ⟨?_, ?_, ?_⟩
    · decide +kernel
    · decide +kernel
    · decide +kernel
  · try dsimp only
    refine ⟨?_, ?_, ?_, ?_, ?_, ?_, ?_, ?_, ?_⟩
    · decide +kernel
    · decide +kernel
    · decide +kernel
    · decide +kernel
    · decide +kernel
    · decide +kernel
    · decide +kernel
    · decide +kernel
    · decide +kernel
  · try dsimp only
    refine ⟨?_, ?_, ?_⟩
    · decide +kernel
    · decide +kernel
    · decide +kernel
  · try dsimp only
    refine ⟨?_, ?_, ?_, ?_⟩
    · decide +kernel
    · decide +kernel
    · decide +kernel
    · decide +kernel
  · try dsimp only
    refine ⟨?_, ?_, ?_, ?_, ?_⟩
    · decide +kernel
    · decide +kernel
    · decide +kernel
    · decide +kernel
    · decide +kernel
  · try dsimp only
    refine ⟨?_, ?_, ?_, ?_, ?_⟩
    · decide +kernel
    · decide +kernel
    · decide +kernel
    · decide +kernel
    · decide +kernel
  · try dsimp only
    decide +kernel
  · try dsimp only
    decide +kernel
  · try dsimp only
    decide +kernel
  · try dsimp only
    refine ⟨?_, ?_⟩
    · decide +kernel
    · decide +kernel
  · try dsimp only
    refine ⟨?_, ?_, ?_⟩
    · decide +kernel
    · decide +kernel
    · decide +kernel
  · try dsimp only
    refine ⟨?_, ?_, ?_, ?_⟩
    · decide +kernel
    · decide +kernel
    · decide +kernel
    · decide +kernel
  · try dsimp only
    refine ⟨?_, ?_, ?_, ?_, ?_⟩
    · decide +kernel
    · decide +kernel
    · decide +kernel
    · decide +kernel
    · decide +kernel
  · try dsimp only
    refine ⟨?_, ?_, ?_, ?_, ?_, ?_⟩
    · decide +kernel
    · decide +kernel
    · decide +kernel
    · decide +kernel
    · decide +kernel
    · decide +kernel
  · try dsimp only
    refine ⟨?_, ?_, ?_, ?_, ?_, ?_⟩
    · decide +kernel
    · decide +kernel
    · decide +kernel
    · decide +kernel
    · decide +kernel
    · decide +kernel
  · try dsimp only
    decide +kernel
  · try dsimp only
    refine ⟨?_, ?_, ?_⟩
    · decide +kernel
    · exact (basking_high _ _ (by decide +kernel)).trans (by decide +kernel)
    · rw [perform_high _ _ _ _ (by decide +kernel) (by decide +kernel) (by decide +kernel)]; decide +kernel
  · try dsimp only
    refine ⟨?_, ?_, ?_, ?_⟩
    · decide +kernel
    · exact (basking_high _ _ (by decide +kernel)).trans (by decide +kernel)
    · rw [perform_high _ _ _ _ (by decide +kernel) (by decide +kernel) (by decide +kernel)]; decide +kernel
    · decide +kernel
  · try dsimp only
    refine ⟨?_, ?_, ?_, ?_, ?_⟩
    · decide +kernel
    · exact (basking_high _ _ (by decide +kernel)).trans (by decide +kernel)
    · rw [perform_high _ _ _ _ (by decide +kernel) (by decide +kernel) (by decide +kernel)]; decide +kernel
    · decide +kernel
    · decide +kernel
  · try dsimp only
    refine ⟨?_, ?_, ?_, ?_, ?_⟩
    · decide +kernel
    · exact (basking_high _ _ (by decide +kernel)).trans (by decide +kernel)
    · rw [perform_high _ _ _ _ (by decide +kernel) (by decide +kernel) (by decide +kernel)]; decide +kernel
    · decide +kernel
    · decide +kernel
  · try dsimp only
    refine ⟨?_, ?_⟩
    · decide +kernel
    · exact (basking_high _ _ (by decide +kernel)).trans (by decide +kernel)
  · try dsimp only
    decide +kernel
  · try dsimp only
    refine ⟨?_, ?_⟩
    · decide +kernel
    · decide +kernel
  · try dsimp only
    refine ⟨?_, ?_, ?_⟩
    · decide +kernel
    · decide +kernel
    · decide +kernel
  · try dsimp only
    refine ⟨?_, ?_, ?_, ?_⟩
    · decide +kernel
    · decide +kernel
    · decide +kernel
    · decide +kernel
  · try dsimp only
    refine ⟨?_, ?_, ?_, ?_⟩
    · decide +kernel
    · decide +kernel
    · decide +kernel
    · decide +kernel

/-- What SkipWindows asks of a state and of operands is met, case by case. -/
theorem witness_SkipWindows :
    (let s : State := stOf Dev.reset;
     (s.clk.runs = false ∨ 64 ≤ s.clk.cyc)) ∧
    (let s : State := stOf Dev.reset (⟨5, 0, 3, true, true, 7⟩);
     s.clk.runs = true ∧ s.clk.cyc < 64) ∧
    (let n : Nat := 63;
     n ≤ 63) := by
  refine ⟨?_, ?_, ?_⟩
  · try dsimp only
    decide +kernel
  · try dsimp only
    refine ⟨?_, ?_⟩
    · decide +kernel
    · decide +kernel
  · try dsimp only
    decide +kernel

/-- What StepRunsFront asks of a state and of operands is met, case by case. -/
theorem witness_StepRunsFront :
    let s : State := stOf Dev.reset;
    s.pending = [] := by
  try dsimp only
  decide +kernel

/-- What ClockInvariant asks of a state and of operands is met, case by case. -/
theorem witness_ClockInvariant :
    let t : State := stOf Dev.reset ⟨64, 4096, 3, true, true, 7⟩;
    let s : State := stOf Dev.reset ⟨64, 4096, 3, true, true, 7⟩;
    ClockOk s ∧ step s = .next t := by
  exact ⟨⟨by decide, by decide, by decide, fun h => by cases h⟩, rfl⟩

/-- What TickAndDtime asks of a state and of operands is met, case by case. -/
theorem witness_TickAndDtime :
    let c : Instr := Instr.evtSwset fw 0 0 0;
    let u : State := { (stOf Dev.reset ⟨5, 320, 3, true, true, 7⟩) with d := xEvtSwset fw 0 0 0 Dev.reset };
    let s : State := stOf Dev.reset ⟨5, 320, 3, true, true, 7⟩;
    exec c s = .next u := by
  exact rfl

/-- What FaultStackArea asks of a state and of operands is met, case by case. -/
theorem witness_FaultStackArea :
    let m : Mst := fw;
    let q : Nat := 3;
    let s : State := stOf ((Dev.reset.setCore 63 { Core.zero with st := .run, halted := true }).setRegN (R.DBG_CREG_SEL.at 3) (15 * 2 ^ 28 +
      2 * 2 ^ 26 + 0x7C2));
    m.owner = true ∧
    let sel := s.d.reg (R.DBG_CREG_SEL.at q);
    let n := q * 16 + getBits sel 31 28;
    let c := s.d.core n;
    getBits sel 27 26 = 2 ∧ getBits sel 11 0 = 0x7C2 ∧ c.halted = true := by
  try dsimp only
  refine ⟨?_, ?_, ?_, ?_⟩
  · decide +kernel
  · decide +kernel
  · decide +kernel
  · decide +kernel

/-- What HaltsWhileStopped asks of a state and of operands is met, case by case. -/
theorem witness_HaltsWhileStopped :
    (let m : Mst := ⟨0x4C0, 0, false⟩;
     let s : State := stOf (Dev.reset.setRegN (R.SAFE_STAT.at 0) (2 ^ 31));
     m.mid = 0x4C0 ∧ (s.d.safe = true ∨ s.d.confFailed = true)) ∧
    (let m : Mst := ⟨0x4C0, 0, false⟩;
     let s : State := stOf (Dev.reset.setRegN (R.SAFE_STAT.at 0) (2 ^ 31));
     (m.mid = 0x4C0 ∨ m.owner = true) ∧ (s.d.safe = true ∨ s.d.confFailed = true)) := by
  refine ⟨?_, ?_⟩
  · try dsimp only
    refine ⟨?_, ?_⟩
    · decide +kernel
    · decide +kernel
  · try dsimp only
    refine ⟨?_, ?_⟩
    · decide +kernel
    · decide +kernel

end Sys2Proof.Tests
end

namespace Sys2Proof.Proofs

open Sys2Proof.Machine Sys2Proof.Safety

/-! The clock (02 R28–R30, R59, R63; 19 R520–R523): what each command does to it, its bounds, and the skip rule. -/

/-! ### The clock after a command -/

/-- The clock that a command leaves in a state `s`, where `d` is the chip it leaves: the commands that move TICK, DTIME or
the execution of the array, and those that may bring safe stop; every other command keeps the clock. -/
def clockAfter (c : Instr) (s : State) (d : Dev) : Clk :=
  match c with
  | .tickEdge inp =>
    let k := { s.clk with tick := s.clk.tick + 1 }
    if s.clk.runs = true ∧ s.clk.cyc < 64 then s.clk else (tickDone k (xTickEdge inp k s.d)).1
  | .executedCycle _ => s.clk.cycle
  | .pllLockLoss _ => stopClk d s.clk
  | .railOutOfRange => stopClk d s.clk
  | .dtimeCompare _ _ => stopClk d s.clk
  | .thermTrip _ => stopClk d s.clk
  | .avsTelemetry _ _ => stopClk d s.clk
  | .alignmentEdge =>
    if alignable s then
      { s.clk with dtime := 64 * s.clk.tick, cyc := 0, runs := !s.d.safe && !s.d.sysHalt, started := true }
    else s.clk
  | .porstNAssert => Clk.reset
  | .sysrstNAssert =>
    if s.d.safe then s.clk else { s.clk with dtime := 0, cyc := 0, runs := false, started := false, n := 0 }
  | _ => s.clk

/-- Every command answers a next state, with the clock of `clockAfter` and the queue as it was. -/
theorem exec_eq_next (c : Instr) (s : State) :
    ∃ d, exec c s = .next { s with d := d, clk := clockAfter c s d } := by
  cases c
  case tickEdge inp =>
    simp only [Laws.exec_tickEdge, execTickEdge, clockAfter]
    split
    · exact ⟨s.d, rfl⟩
    · exact ⟨_, rfl⟩
  case alignmentEdge =>
    simp only [Laws.exec_alignmentEdge, execAlignmentEdge, clockAfter]
    split
    · exact ⟨_, rfl⟩
    · exact ⟨s.d, rfl⟩
  case sysrstNAssert =>
    simp only [Laws.exec_sysrstNAssert, execSysrstNAssert, clockAfter]
    split
    · exact ⟨s.d, rfl⟩
    · exact ⟨_, rfl⟩
  all_goals exact ⟨_, rfl⟩

/-- The clock of the next state is that of `clockAfter`. -/
theorem clk_of_exec {c : Instr} {s u : State} (h : exec c s = .next u) : u.clk = clockAfter c s u.d := by
  obtain ⟨d, hd⟩ := exec_eq_next c s
  cases hd.symm.trans h
  rfl

/-! ### The skip rule (02 R59) -/

theorem skipCount_le (d : Dev) (start : Bool) {n : Nat} (hn : n ≤ 63) : d.skipCount start n ≤ 63 := by
  cases start
  · exact Nat.max_le.2 ⟨hn, Nat.min_le_left _ _⟩
  · exact Nat.min_le_left _ _

/-- Within a window the count never falls, and only a governor's own count above it raises it. -/
theorem skipCount_within (d : Dev) (n : Nat) :
    n ≤ d.skipCount false n ∧ (Nat.max d.gov.nl (Nat.max d.gov.ns d.gov.np) ≤ n → d.skipCount false n = n) :=
  ⟨Nat.le_max_left _ _, fun h => Nat.max_eq_left ((Nat.min_le_right _ _).trans h)⟩

theorem skippedTick_iff (t n : Nat) : skippedTick t n = true ↔ t % 64 * n / 64 < (t % 64 + 1) * n / 64 :=
  decide_eq_true_iff

/-- A tick of an aligned window is skipped or not by its place in the window alone. -/
theorem skippedTick_window (w n : Nat) {i : Nat} (hi : i < 64) :
    skippedTick (64 * w + i) n = decide (i * n / 64 < (i + 1) * n / 64) := by
  have hmod : (64 * w + i) % 64 = i := by omega
  simp only [skippedTick, hmod]

/-- The skipped ticks among the first `m` of a window: each step of `⌊m·n/64⌋` is at most 1, and is counted where it is 1. -/
theorem skipped_count (n : Nat) (hn : n ≤ 63) (m : Nat) :
    ((List.range m).filter (fun i => decide (i * n / 64 < (i + 1) * n / 64))).length = m * n / 64 := by
  induction m with
  | zero => simp
  | succ m ih =>
    have hstep : (m + 1) * n = m * n + n := Nat.succ_mul m n
    rw [List.range_succ, List.filter_append, List.length_append, ih, hstep]
    by_cases hs : m * n / 64 < (m * n + n) / 64
    · simp only [List.filter_cons, hstep, hs, decide_true, if_true, List.filter_nil, List.length_singleton]
      omega
    · simp only [List.filter_cons, hstep, hs, decide_false, Bool.false_eq_true, if_false, List.filter_nil, List.length_nil]
      omega

/-- Under one count a window has exactly that many skipped ticks. -/
theorem skipped_window_count (w n : Nat) (hn : n ≤ 63) :
    ((List.range 64).filter (fun i => skippedTick (64 * w + i) n)).length = n := by
  have hplace : ∀ i ∈ List.range 64, skippedTick (64 * w + i) n = decide (i * n / 64 < (i + 1) * n / 64) :=
    fun i hi => skippedTick_window w n (List.mem_range.1 hi)
  rw [List.filter_congr hplace, skipped_count n hn, Nat.mul_div_cancel_left n (by decide)]

/-- The first tick of a window is never skipped. -/
theorem skipped_window_first (w n : Nat) (hn : n ≤ 63) : skippedTick (64 * w) n = false := by
  have h := skippedTick_window w n (i := 0) (by decide)
  have hz : ¬ 0 * n / 64 < (0 + 1) * n / 64 := by omega
  simpa only [Nat.add_zero, hz, decide_false] using h

/-! ### The clock's bounds, one operation at a time -/

/-- Before an alignment nothing has executed since DTIME was 0. -/
theorem clockOk_sysrst (s : State) (d : Dev) :
    ClockOk { s with d := d, clk := { s.clk with dtime := 0, cyc := 0, runs := false, started := false, n := 0 } } :=
  ⟨Nat.zero_le 64, Nat.zero_le _, Nat.zero_le 63, fun _ => ⟨rfl, rfl⟩⟩

theorem clockOk_porst (s : State) (d : Dev) : ClockOk { s with d := d, clk := Clk.reset } :=
  ⟨Nat.zero_le 64, Nat.zero_le _, Nat.zero_le 63, fun _ => ⟨rfl, rfl⟩⟩

section
variable {s : State} (h : ClockOk s) (d : Dev)
include h

theorem clockOk_cycle : ClockOk { s with d := d, clk := s.clk.cycle } := by
  obtain ⟨hcyc, hdtime, hn, hstart⟩ := h
  by_cases hrun : s.clk.runs = true ∧ s.clk.cyc < 64
  · have hc : s.clk.cycle = { s.clk with dtime := s.clk.dtime + 1, cyc := s.clk.cyc + 1 } := if_pos hrun
    have hs : s.clk.started ≠ false := fun hf => by simp [(hstart hf).1] at hrun
    rw [hc]
    exact ⟨hrun.2, by simp only; omega, hn, fun hf => absurd hf hs⟩
  · have hc : s.clk.cycle = s.clk := if_neg hrun
    rw [hc]
    exact ⟨hcyc, hdtime, hn, hstart⟩

theorem clockOk_stopClk (d' : Dev) : ClockOk { s with d := d, clk := stopClk d' s.clk } := by
  obtain ⟨hcyc, hdtime, hn, hstart⟩ := h
  cases hsafe : d'.safe
  · have hc : stopClk d' s.clk = s.clk := by simp [stopClk, hsafe]
    rw [hc]
    exact ⟨hcyc, hdtime, hn, hstart⟩
  · have hc : stopClk d' s.clk = { s.clk with runs := false } := by simp [stopClk, hsafe]
    rw [hc]
    exact ⟨hcyc, hdtime, hn, fun hf => ⟨rfl, (hstart hf).2⟩⟩

/-- A tick edge gives DTIME the 64 cycles that the tick before could execute. -/
theorem clockOk_tickDone (d' : Dev) :
    ClockOk { s with d := d, clk := (tickDone { s.clk with tick := s.clk.tick + 1 } d').1 } := by
  obtain ⟨hcyc, hdtime, hn, hstart⟩ := h
  refine ⟨Nat.zero_le 64, ?_, skipCount_le d' _ hn, fun hf => ⟨?_, (hstart hf).2⟩⟩
  · show s.clk.dtime ≤ 64 * (s.clk.tick + 1) + 0
    omega
  · have hf' : s.clk.started = false := hf
    simp [tickDone, Dev.arrayFree, hf']

theorem clockOk_align (r : Bool) :
    ClockOk { s with d := d, clk := { s.clk with dtime := 64 * s.clk.tick, cyc := 0, runs := r, started := true } } := by
  obtain ⟨-, -, hn, -⟩ := h
  exact ⟨Nat.zero_le 64, Nat.le_refl _, hn, fun hf => Bool.noConfusion hf⟩

/-- Every command keeps the clock in its bounds. -/
theorem clockOk_clockAfter (c : Instr) : ClockOk { s with d := d, clk := clockAfter c s d } := by
  unfold clockAfter
  split
  · split
    · exact h
    · exact clockOk_tickDone h d _
  · exact clockOk_cycle h d
  · exact clockOk_stopClk h d d
  · exact clockOk_stopClk h d d
  · exact clockOk_stopClk h d d
  · exact clockOk_stopClk h d d
  · exact clockOk_stopClk h d d
  · split
    · exact clockOk_align h d _
    · exact h
  · exact clockOk_porst s d
  · split
    · exact h
    · exact clockOk_sysrst s d
  · exact h

end

theorem exec_keeps_clockOk {c : Instr} {s u : State} (h : ClockOk s) (hu : exec c s = .next u) : ClockOk u := by
  obtain ⟨d, hd⟩ := exec_eq_next c s
  cases hd.symm.trans hu
  exact clockOk_clockAfter h d c

/-- Settles O56: an idle step keeps the state, and a step with a command in front is that command on the rest of the queue. -/
theorem clockInvariant : Obligations.ClockInvariant := by
  intro s t h ht
  cases hp : s.pending with
  | nil =>
    simp only [step, hp] at ht
    cases ht
    exact h
  | cons c rest =>
    simp only [step, hp] at ht
    exact exec_keeps_clockOk (s := { s with pending := rest }) h ht

/-! ### What moves TICK and DTIME -/

@[simp] theorem stopClk_tick (d : Dev) (k : Clk) : (stopClk d k).tick = k.tick := by
  unfold stopClk; split <;> rfl

@[simp] theorem stopClk_dtime (d : Dev) (k : Clk) : (stopClk d k).dtime = k.dtime := by
  unfold stopClk; split <;> rfl

/-- A cycle advances DTIME while the array executes, and never TICK (02 R28). -/
theorem cycle_tick_dtime (k : Clk) :
    (k.cycle.tick, k.cycle.dtime) = if k.runs = true ∧ k.cyc < 64 then (k.tick, k.dtime + 1) else (k.tick, k.dtime) := by
  unfold Clk.cycle; split <;> rfl

/-- Settles O57: the commands that move either are cases of `clockAfter`, and every other keeps the clock. -/
theorem tickAndDtime : Obligations.TickAndDtime := by
  intro c s u hu
  rw [clk_of_exec hu]
  cases c
  case tickEdge inp => simp only [clockAfter]; split <;> rfl
  case executedCycle ups => exact cycle_tick_dtime s.clk
  case alignmentEdge => simp only [clockAfter]; split <;> rfl
  case sysrstNAssert => simp only [clockAfter]; split <;> rfl
  case pllLockLoss | railOutOfRange | dtimeCompare | thermTrip | avsTelemetry => simp [clockAfter]
  all_goals rfl

/-! ### The tick edge -/

/-- An edge is due where no cycle of the tick is left. -/
theorem not_executing_of_due {k : Clk} (h : k.runs = false ∨ 64 ≤ k.cyc) : ¬ (k.runs = true ∧ k.cyc < 64) := by
  rintro ⟨hr, hc⟩
  rcases h with h | h
  · exact absurd (hr.symm.trans h) Bool.noConfusion
  · omega

/-- An edge that is due: the clock and the chip after it. -/
theorem exec_tickEdge_due (inp : TickIn) {s : State} (hdue : s.clk.runs = false ∨ 64 ≤ s.clk.cyc) :
    let k : Clk := { s.clk with tick := s.clk.tick + 1 }
    exec (.tickEdge inp) s
      = .next { s with clk := (tickDone k (xTickEdge inp k s.d)).1, d := (tickDone k (xTickEdge inp k s.d)).2 } := by
  simp only [Laws.exec_tickEdge, execTickEdge, if_neg (not_executing_of_due hdue)]

/-- Between starts of windows the count of the edge is kept, or raised by a governor. -/
theorem tickDone_n_within (k : Clk) (d : Dev) (hpos : k.tick % 64 ≠ 0) :
    k.n ≤ (tickDone k d).1.n ∧ (Nat.max d.gov.nl (Nat.max d.gov.ns d.gov.np) ≤ k.n → (tickDone k d).1.n = k.n) := by
  have hn : (tickDone k d).1.n = d.skipCount false k.n := by simp [tickDone, hpos]
  rw [hn]
  exact skipCount_within d k.n

/-- The tick that begins executes where nothing holds the array and the rule does not skip it. -/
theorem tickDone_runs_iff (k : Clk) (d : Dev) :
    (tickDone k d).1.runs = true ↔ d.arrayFree k = true ∧ ¬ skippedTick k.tick (tickDone k d).1.n = true := by
  simp [tickDone]

/-- Settles O54: the edge by `tickDone`, the windows by counting the steps of `⌊m·n/64⌋`. -/
theorem skipWindows : Obligations.SkipWindows := by
  refine ⟨fun inp s hdue => ?_, fun inp s hr hc => ?_, fun w n hn => ⟨skipped_window_count w n hn, skipped_window_first w n hn⟩⟩
  · intro k d1 own
    refine ⟨_, exec_tickEdge_due inp hdue, rfl, rfl, rfl, rfl, skipCount_le d1 _, tickDone_n_within k d1, ?_⟩
    rw [← skippedTick_iff]
    exact tickDone_runs_iff k d1
  · simp only [Laws.exec_tickEdge, execTickEdge, hr, hc, and_self, if_true]

end Sys2Proof.Proofs

namespace Sys2Proof.Proofs

open Sys2Proof.Machine Sys2Proof.Safety

/-! The array's commands (chapters 02, 03, 05): when each acts and when it leaves the state. -/

/-! ### Executed cycles -/

/-- A cycle in a tick whose 64 cycles are not over. -/
theorem exec_executedCycle_runs (ups : List Upset) {s : State} (hr : s.clk.runs = true) (hc : s.clk.cyc < 64) :
    exec (.executedCycle ups) s
      = .next { s with d := (s.d.stagesDue s.clk.aclk).cycle s.clk.dtime ups,
                       clk := { s.clk with dtime := s.clk.dtime + 1, cyc := s.clk.cyc + 1 } } := by
  simp only [Laws.exec_executedCycle, execExecutedCycle, xExecutedCycle, Clk.cycle, hr, hc, and_self, if_true]

theorem exec_executedCycle_idle (ups : List Upset) {s : State} (h : s.clk.runs = false ∨ 64 ≤ s.clk.cyc) :
    exec (.executedCycle ups) s = .next s := by
  have hnot := not_executing_of_due h
  simp only [Laws.exec_executedCycle, execExecutedCycle, xExecutedCycle, Clk.cycle, if_neg hnot]

/-! ### ECC write-backs -/

/-- The mark of the entry that a write-back names: the tile memory has write-backs of its own. -/
def entryKey (st : Store) (T cell i : Nat) : Nat :=
  match st with
  | .sw => eccSw T i
  | .seqw => eccSeq T i
  | _ => eccCtx T cell i

theorem xCtxWriteback_eq (st : Store) (T cell i : Nat) (d : Dev) :
    xCtxWriteback st T cell i d
      = if (d.mark (entryKey st T cell i)).isFound = true then d.setMark (entryKey st T cell i) .ok else d := rfl

theorem exec_ctxWriteback_found (st : Store) (T cell i : Nat) {s : State}
    (h : (s.d.mark (entryKey st T cell i)).isFound = true) :
    exec (.ctxWriteback st T cell i) s = .next { s with d := s.d.setMark (entryKey st T cell i) .ok } := by
  simp only [Laws.exec_ctxWriteback, execCtxWriteback, xCtxWriteback_eq, if_pos h]

theorem exec_ctxWriteback_other (st : Store) (T cell i : Nat) {s : State}
    (h : (s.d.mark (entryKey st T cell i)).isFound = false) : exec (.ctxWriteback st T cell i) s = .next s := by
  simp only [Laws.exec_ctxWriteback, execCtxWriteback, xCtxWriteback_eq, h, Bool.false_eq_true, if_false]

/-! ### Draws and head-stage entries -/

/-- Whether a vertical port may draw at this ACLK (05 R136): it is an input with room in stage and transit, and in an executing
tick nothing in transit was drawn at this ACLK. -/
def mayDraw (vp : Nat) (s : State) : Prop :=
  let p := s.d.tport (s.d.vpTile vp).1 (s.d.vpTile vp).2
  s.d.vpIn vp = true ∧ p.head.length + p.transit.length < 8 ∧
    (s.clk.runs = false ∨ ∀ e, e ∈ p.transit → e.2 ≠ s.clk.aclk)

theorem mayDraw_iff (vp : Nat) (s : State) :
    (let p := s.d.tport (s.d.vpTile vp).1 (s.d.vpTile vp).2
     s.d.vpIn vp = true ∧ p.head.length + p.transit.length < 8 ∧
      (s.clk.runs = false ∨ p.transit.all (fun e => e.2 != s.clk.aclk) = true)) ↔ mayDraw vp s := by
  simp only [mayDraw, List.all_eq_true, bne_iff_ne]

theorem exec_draw_word {vp : Nat} {s : State} {w : Word} {r : List FEl} (h : mayDraw vp s) (hf : s.d.fifo vp = .word w :: r) :
    let t := s.d.vpTile vp
    let p := s.d.tport t.1 t.2
    exec (.draw vp) s
      = .next { s with d := (s.d.setFifo vp r).setTport t.1 t.2 { p with transit := p.transit ++ [(w, s.clk.aclk)] } } := by
  simp only [Laws.exec_draw, execDraw, xDraw, if_pos ((mayDraw_iff vp s).2 h), hf]

/-- A FIFO that is empty, or whose front is a mark, gives nothing. -/
theorem exec_draw_noWord {vp : Nat} {s : State} (h : mayDraw vp s) (hf : ∀ w r, s.d.fifo vp ≠ .word w :: r) :
    exec (.draw vp) s = .next s := by
  have hmay := (mayDraw_iff vp s).2 h
  cases hq : s.d.fifo vp with
  | nil => simp only [Laws.exec_draw, execDraw, xDraw, if_pos hmay, hq]
  | cons e r =>
    cases e with
    | word w => exact absurd hq (hf w r)
    | eos => simp only [Laws.exec_draw, execDraw, xDraw, if_pos hmay, hq]

theorem exec_draw_not {vp : Nat} {s : State} (h : ¬ mayDraw vp s) : exec (.draw vp) s = .next s := by
  simp only [Laws.exec_draw, execDraw, xDraw, if_neg (fun hx => h ((mayDraw_iff vp s).1 hx))]

section
variable {vp : Nat} {s : State}

theorem exec_headStageEntry_due {w : Word} {at0 : Nat} {r : List (Word × Nat)} (hin : s.d.vpIn vp = true)
    (ht : (s.d.tport (s.d.vpTile vp).1 (s.d.vpTile vp).2).transit = (w, at0) :: r)
    (h : s.clk.runs = false ∨ at0 + 6 ≤ s.clk.aclk) :
    let t := s.d.vpTile vp
    let p := s.d.tport t.1 t.2
    exec (.headStageEntry vp) s
      = .next { s with d := s.d.setTport t.1 t.2 { p with transit := r, head := p.head ++ [w] } } := by
  have hnot : ¬ (s.clk.runs = true ∧ s.clk.aclk < at0 + 6) := by
    rintro ⟨hr, hlt⟩
    rcases h with h | h
    · exact absurd (hr.symm.trans h) Bool.noConfusion
    · omega
  simp only [Laws.exec_headStageEntry, execHeadStageEntry, xHeadStageEntry, hin, if_true, ht, if_neg hnot]

theorem exec_headStageEntry_early {w : Word} {at0 : Nat} {r : List (Word × Nat)}
    (ht : (s.d.tport (s.d.vpTile vp).1 (s.d.vpTile vp).2).transit = (w, at0) :: r)
    (hr : s.clk.runs = true) (h : s.clk.aclk < at0 + 6) : exec (.headStageEntry vp) s = .next s := by
  simp only [Laws.exec_headStageEntry, execHeadStageEntry, xHeadStageEntry, ht, hr, h, and_self, if_true, ite_self]

theorem exec_headStageEntry_none
    (h : s.d.vpIn vp = false ∨ (s.d.tport (s.d.vpTile vp).1 (s.d.vpTile vp).2).transit = []) :
    exec (.headStageEntry vp) s = .next s := by
  rcases h with h | h
  · simp only [Laws.exec_headStageEntry, execHeadStageEntry, xHeadStageEntry, h, Bool.false_eq_true, if_false]
  · simp only [Laws.exec_headStageEntry, execHeadStageEntry, xHeadStageEntry, h, ite_self]

end

/-- Settles O3: one lemma for each outcome of the four rows. -/
theorem arrayCommands : Obligations.ArrayCommands :=
  ⟨fun ups _ hr hc => exec_executedCycle_runs ups hr hc, fun ups _ h => exec_executedCycle_idle ups h,
    fun T cell i _ h => exec_ctxWriteback_found .ctx T cell i h, fun T cell i _ h => exec_ctxWriteback_found .sw T cell i h,
    fun T cell i _ h => exec_ctxWriteback_found .seqw T cell i h, fun T cell i _ h => exec_ctxWriteback_other .ctx T cell i h,
    fun T cell i _ h => exec_ctxWriteback_other .sw T cell i h, fun T cell i _ h => exec_ctxWriteback_other .seqw T cell i h,
    fun _ _ => ⟨fun _ _ h hf => exec_draw_word h hf, exec_draw_noWord, exec_draw_not⟩,
    fun _ _ => ⟨fun _ _ _ hin ht => ⟨exec_headStageEntry_due hin ht, exec_headStageEntry_early ht⟩, exec_headStageEntry_none⟩⟩

end Sys2Proof.Proofs

namespace Sys2Proof.Proofs

open Sys2Proof.Machine Sys2Proof.Safety

/-! Running and stopping a slot (chapters 02, 06). -/

theorem owner_of_oid {m : Mst} (h : m.oid = 0) : m.owner = true := by
  simp [Mst.owner, h]

/-- Equal chips give equal outcomes: a command's equation reduces to that of its meaning. -/
theorem next_congr {s : State} {d d' : Dev} (h : d = d') :
    (.next { s with d := d } : Host.Outcome State Fault Refusal) = .next { s with d := d' } := by rw [h]

/-! ### START and SLOT_LIVE (06 R170) -/

section
variable {m : Mst} {c p : Nat} {d : Dev}

/-- A START of the owner that no command, sweep or load of the slot holds back is decided by STATE and the checks. -/
theorem xStart_free (hm : m.oid = 0)
    (h : ¬ (d.slotBusy (slotId c p) = true ∨ d.sweeping (slotId c p) = true ∨ d.loadRuns (slotId c p) = true)) :
    xStart m c p d = if d.cmdState (slotId c p) ≠ stTadpole then (d.slotResult (slotId c p) .state).okay
      else if (d.startCheck (slotId c p)).1 = .ok then
        ((d.setCtl (slotId c p) { d.ctl (slotId c p) with wait := 2 }).setBusy (slotId c p) .starting).okay
      else (d.slotResult (slotId c p) (d.startCheck (slotId c p)).1 (d.startCheck (slotId c p)).2).okay := by
  simp only [not_or, Bool.not_eq_true] at h
  obtain ⟨hb, hs, hl⟩ := h
  simp only [xStart, owner_of_oid hm, hb, hs, hl, Bool.not_true, Bool.or_self, Bool.false_eq_true, if_false]

theorem xStart_busy (hm : m.oid = 0)
    (h : d.slotBusy (slotId c p) = true ∨ d.sweeping (slotId c p) = true ∨ d.loadRuns (slotId c p) = true) :
    xStart m c p d = (d.slotResult (slotId c p) .busy).okay := by
  have hb : (d.slotBusy (slotId c p) || d.sweeping (slotId c p) || d.loadRuns (slotId c p)) = true := by
    simpa only [Bool.or_eq_true, or_assoc] using h
  simp only [xStart, owner_of_oid hm, hb, Bool.not_true, Bool.false_eq_true, if_false, if_true]

theorem xSlotLive_due (h : (d.ctl (slotId c p)).busy = .starting ∧ (d.ctl (slotId c p)).wait = 0) :
    xSlotLive c p d
      = (((d.setBusy (slotId c p) .idle).setSlotState (slotId c p) stLive).slotResult (slotId c p) .ok).slotDone (slotId c p) :=
  if_pos h

theorem xSlotLive_not_due (h : ¬ ((d.ctl (slotId c p)).busy = .starting ∧ (d.ctl (slotId c p)).wait = 0)) :
    xSlotLive c p d = d := if_neg h

end

/-! ### Stops (06 R171, R173) -/

section
variable {d : Dev} {sl : Nat}

theorem stopsNothing_idle (h : (d.ctl sl).busy = .idle) : d.stopsNothing sl = false := by
  simp only [Dev.stopsNothing, h]

theorem stopsNothing_starting (h : (d.ctl sl).busy = .starting) : d.stopsNothing sl = false := by
  simp only [Dev.stopsNothing, h]

variable (now : Nat) (a : After)

/-- A stop has no effect during a DEFINE, an UNDEFINE or a MOLT. -/
theorem stop_nothing (h : d.stopsNothing sl = true) :
    d.stopDrain now sl a = d.slotResult sl .ok ∧ d.stopAbort now sl a = d.slotResult sl .ok :=
  ⟨if_pos h, if_pos h⟩

/-- A stop cancels a START in progress. -/
theorem stop_starting (h : (d.ctl sl).busy = .starting) :
    d.stopDrain now sl a = d.cancelStart now sl ∧ d.stopAbort now sl a = d.cancelStart now sl := by
  simp only [Dev.stopDrain, Dev.stopAbort, stopsNothing_starting h, Dev.drainStop, Dev.abortStop, h, Bool.false_eq_true,
    if_false, if_true, and_self]

section
variable (hb : (d.ctl sl).busy = .idle)
include hb

/-- With no command in progress a stop with drain is decided by STATE. -/
theorem stopDrain_idle : d.stopDrain now sl .tadpole =
    if d.cmdState sl = stLive then
      (((d.genInc now sl).setCtl sl { (d.genInc now sl).ctl sl with drain := true, after := .tadpole }).setSlotState sl
        stStopping).slotResult sl .ok
    else if d.cmdState sl = stStopping then (d.genInc now sl).slotResult sl .ok
    else if d.cmdState sl = stPaused then d.stopPaused now sl
    else d.slotResult sl .ok := by
  simp only [Dev.stopDrain, Dev.drainStop, stopsNothing_idle hb, hb, reduceCtorEq, Bool.false_eq_true, if_false, if_true]

/-- With no command in progress a stop with abort is decided by STATE; one of a STOPPING slot keeps what follows the stop. -/
theorem stopAbort_idle : d.stopAbort now sl .tadpole =
    if d.cmdState sl = stLive ∨ d.cmdState sl = stStopping then
      (((d.genInc now sl).setCtl sl { (d.genInc now sl).ctl sl with
          drain := false, abort := true,
          after := if d.cmdState sl = stStopping then ((d.genInc now sl).ctl sl).after else .tadpole }).setSlotState sl
        stStopping).slotResult sl .ok
    else if d.cmdState sl = stPaused then d.stopPaused now sl
    else d.slotResult sl .ok := by
  simp only [Dev.stopAbort, Dev.abortStop, stopsNothing_idle hb, hb, reduceCtorEq, Bool.false_eq_true, if_false, true_and]

end
end

section
variable {m : Mst} (hm : m.oid = 0) (c p : Nat) (k : Clk) (d : Dev)
include hm

theorem xStopDrain_owner : xStopDrain m c p k d = (d.stopDrain k.tick (slotId c p) .tadpole).okay := by
  simp only [xStopDrain, owner_of_oid hm, Bool.not_true, Bool.false_eq_true, if_false]

theorem xStopAbort_owner : xStopAbort m c p k d = (d.stopAbort k.tick (slotId c p) .tadpole).okay := by
  simp only [xStopAbort, owner_of_oid hm, Bool.not_true, Bool.false_eq_true, if_false]

theorem xMolt_owner : xMolt m c p k d = (d.molt k.tick (slotId c p)).okay := by
  simp only [xMolt, owner_of_oid hm, Bool.not_true, Bool.false_eq_true, if_false]

end

/-- Both stops of the owner answer what the two operations on the slot leave. -/
theorem exec_stops {m : Mst} (hm : m.oid = 0) {c p : Nat} {s : State} {x y : Dev}
    (h : s.d.stopDrain s.clk.tick (slotId c p) .tadpole = x ∧ s.d.stopAbort s.clk.tick (slotId c p) .tadpole = y) :
    exec (.stopDrain m c p) s = .next { s with d := x.okay } ∧ exec (.stopAbort m c p) s = .next { s with d := y.okay } := by
  obtain ⟨rfl, rfl⟩ := h
  exact ⟨next_congr (xStopDrain_owner hm c p s.clk s.d), next_congr (xStopAbort_owner hm c p s.clk s.d)⟩

/-! ### MOLT and its completion (06 R172) -/

section
variable {d : Dev} {sl : Nat} (now : Nat)

theorem molt_busy (h : d.slotBusy sl = true ∨ d.cmdState sl = stPaused ∨ d.loadRuns sl = true) :
    d.molt now sl = d.slotResult sl .busy := by
  have hb : (d.slotBusy sl || decide (d.cmdState sl = stPaused) || d.loadRuns sl) = true := by
    simpa only [Bool.or_eq_true, decide_eq_true_eq, or_assoc] using h
  simp only [Dev.molt, hb, if_true]

/-- A MOLT that no command, pause or load holds back is decided by STATE. -/
theorem molt_free (h : ¬ (d.slotBusy sl = true ∨ d.cmdState sl = stPaused ∨ d.loadRuns sl = true)) :
    d.molt now sl = if d.cmdState sl = stLive ∨ d.cmdState sl = stStopping then (d.stopAbort now sl .molt).setBusy sl .molting
      else if d.cmdState sl = stStopped ∨ d.cmdState sl = stTadpole then (d.genInc now sl).startMolt sl .molting
      else d.slotResult sl .state := by
  have hb : ¬ (d.slotBusy sl || decide (d.cmdState sl = stPaused) || d.loadRuns sl) = true := by
    simpa only [Bool.or_eq_true, decide_eq_true_eq, or_assoc] using h
  exact if_neg hb

/-- A slot that is still does not run. -/
theorem not_runs_of_still {st : Nat} (h : st = stStopped ∨ st = stTadpole) : ¬ (st = stLive ∨ st = stStopping) := by
  rcases h with rfl | rfl <;> decide

end

section
variable {c p : Nat} {d : Dev}

theorem xMoltComplete_due (h : d.slotState (slotId c p) = stMolting ∧ d.slotInFlight (slotId c p) = false) :
    xMoltComplete c p d =
      if (d.ctl (slotId c p)).busy = .undefining then
        ((((d.setBusy (slotId c p) .idle).moltSlot (slotId c p) true).freeSlot (slotId c p)).slotResult (slotId c p) .ok).moltDone
          (slotId c p)
      else
        (((((d.setBusy (slotId c p) .idle).moltSlot (slotId c p) false).setSlotState (slotId c p) stStopped).setCtl (slotId c p)
          SlotCtl.zero).slotResult (slotId c p) .ok).moltDone (slotId c p) := by
  have hn : ¬ (d.slotState (slotId c p) ≠ stMolting ∨ d.slotInFlight (slotId c p) = true) := by
    obtain ⟨hst, hfl⟩ := h
    simp only [hst, hfl, ne_eq, not_true_eq_false, Bool.false_eq_true, or_self, not_false_eq_true]
  exact if_neg hn

theorem xMoltComplete_not_due (h : ¬ (d.slotState (slotId c p) = stMolting ∧ d.slotInFlight (slotId c p) = false)) :
    xMoltComplete c p d = d := by
  have hn : d.slotState (slotId c p) ≠ stMolting ∨ d.slotInFlight (slotId c p) = true := by
    simpa only [not_and_or, Bool.not_eq_false] using h
  exact if_pos hn

end

/-- Settles O19: each clause is the branch of its row that the clause's conditions pick; the four by STATE of a stop are
picked from `stopDrain_idle` and `stopAbort_idle`. -/
theorem slotRun : Obligations.SlotRun := by
  refine ⟨fun m c p s hm => ?start, fun c p s => ?slotLive, fun m c p s hm => ?stops, fun m c p s hm => ?molt,
    fun c p s => ?moltComplete, fun c p s => ?sweepEnd, fun slot s => ?frameAdmission⟩
  case start =>
    refine ⟨fun h ht hr => next_congr ?_, fun h ht hr => next_congr ?_, fun h ht => next_congr ?_,
      fun h => next_congr (xStart_busy hm h)⟩
    · rw [xStart_free hm h, if_neg (not_not.2 ht), if_pos hr]
    · rw [xStart_free hm h, if_neg (not_not.2 ht), if_neg hr]
    · rw [xStart_free hm h, if_pos ht]
  case slotLive => exact ⟨fun h => next_congr (xSlotLive_due h), fun h => next_congr (xSlotLive_not_due h)⟩
  case stops =>
    refine ⟨fun h => exec_stops hm (stop_nothing _ _ h), fun h => exec_stops hm (stop_starting _ _ h), fun hb => ?_⟩
    have hdrain := stopDrain_idle s.clk.tick hb
    have habort := stopAbort_idle s.clk.tick hb
    refine ⟨fun h => exec_stops hm ?_, fun h => exec_stops hm ?_, fun h => exec_stops hm ?_,
      fun hl hs hp => exec_stops hm ?_⟩
    · rw [hdrain, habort, h]
      exact ⟨rfl, rfl⟩
    · rw [hdrain, habort, h]
      exact ⟨rfl, rfl⟩
    · rw [hdrain, habort, h]
      exact ⟨rfl, rfl⟩
    · rw [hdrain, habort, if_neg hl, if_neg hs, if_neg hp, if_neg (not_or.2 ⟨hl, hs⟩)]
      exact ⟨rfl, rfl⟩
  case molt =>
    refine ⟨fun h => next_congr ?_, fun h hr => next_congr ?_, fun h ht => next_congr ?_, fun h hr ht => next_congr ?_⟩
    · rw [xMolt_owner hm, molt_busy _ h]
    · rw [xMolt_owner hm, molt_free _ h, if_pos hr]
    · rw [xMolt_owner hm, molt_free _ h, if_neg (not_runs_of_still ht), if_pos ht]
    · rw [xMolt_owner hm, molt_free _ h, if_neg hr, if_neg ht]
  case moltComplete =>
    refine ⟨fun h hu => next_congr ?_, fun h hu => next_congr ?_, fun h => next_congr (xMoltComplete_not_due h)⟩
    · rw [xMoltComplete_due h, if_neg hu]
    · rw [xMoltComplete_due h, if_pos hu]
  case sweepEnd => exact ⟨fun h => next_congr (if_pos h), fun h => next_congr (if_neg (by simp [h]))⟩
  case frameAdmission => exact ⟨fun h => next_congr (if_pos h), fun h => next_congr (if_neg h)⟩

end Sys2Proof.Proofs

namespace Sys2Proof.Proofs

open Sys2Proof.Machine Sys2Proof.Safety

/-! The registers of a slot and its bindings (chapters 04, 06, 07): what the owner's write does, and when it is refused. -/

/-- The owner's write is not denied by MEM-1 (08 R249). -/
theorem not_denied {m : Mst} (hm : m.oid = 0) : ¬ (!m.owner) = true := by
  simp [owner_of_oid hm]

/-! ### The slot registers (06 R168, R188) and GFP (04 R109) -/

section
variable {m : Mst} {d : Dev} (hm : m.oid = 0)
include hm

/-- The owner's write of a register of a slot that is anchored here and not live, under a further condition `P` of the
register: it is performed where all of them hold, else refused. -/
theorem slotWrite_owner {sl v : Nat} {r : R} {ok : Bool} {P : Prop} (hok : ok = true ↔ P) :
    (d.anchored sl = true ∧ d.slotLive sl = false → P →
      d.slotWrite m sl r v ok = ((d.setRegN (slotReg sl r) v).untadpole sl).okay) ∧
    (¬ ((d.anchored sl = true ∧ d.slotLive sl = false) ∧ P) → d.slotWrite m sl r v ok = d.refuse m (slotReg sl r)) := by
  have hrefuse : (!d.anchored sl ∨ d.slotLive sl = true ∨ ok = false)
      ↔ ¬ ((d.anchored sl = true ∧ d.slotLive sl = false) ∧ P) := by
    simp only [← hok, not_and_or, or_assoc, Bool.not_eq_true, Bool.not_eq_false, Bool.not_eq_true']
  exact ⟨fun h hp => (if_neg (not_denied hm)).trans (if_neg (mt hrefuse.1 (not_not.2 ⟨h, hp⟩))),
    fun h => (if_neg (not_denied hm)).trans (if_pos (hrefuse.2 h))⟩

theorem xGfp_free {c p n v : Nat} (h : d.posValid c p = true ∧ d.posLive c p = false) :
    xGfp m c p n v d = ((d.setRegN (cluReg c .GFP p n) (v % 65536)).untadpole (d.posSlot c p)).okay := by
  obtain ⟨hv, hl⟩ := h
  simp only [xGfp, owner_of_oid hm, hv, hl, Bool.not_true, Bool.false_eq_true, or_self, if_false]

theorem xGfp_refused {c p n v : Nat} (h : ¬ (d.posValid c p = true ∧ d.posLive c p = false)) :
    xGfp m c p n v d = d.refuse m (cluReg c .GFP p n) := by
  have hbad : (!d.posValid c p) = true ∨ d.posLive c p = true := by
    simpa only [not_and_or, Bool.not_eq_true, Bool.not_eq_false, Bool.not_eq_true'] using h
  exact (if_neg (not_denied hm)).trans (if_pos hbad)

end

/-! ### Bindings (06 R176–R178; 07 R194) -/

/-- The value that a write of a binding register gives it. -/
def bindWord (leap : Bool) (v : Nat) : Word := BitVec.ofNat 64 (bindMask leap v)

/-- An accepted write of the binding register `x`, whose value was `old`: the slots of both bindings lose TADPOLE. -/
def putBinding (c : Nat) (x : RKey) (old w : Word) (d : Dev) : Dev :=
  (((d.setReg x w).bindUntadpole c old).bindUntadpole c w).okay

/-- VP_CFG takes `w`: neither binding is of a live slot, COUNT is at most 512, and a tile port to bind is free and the
cluster not RETIRED. -/
def VpFits (d : Dev) (c : Nat) (x : RKey) (w : Word) : Prop :=
  d.bindLive c (d.reg x) = false ∧ d.bindLive c w = false ∧ getBits w 9 0 ≤ 512 ∧
    (w.getLsbD 63 = true → d.tpTaken c w x = false ∧ d.cluState c ≠ 2)

/-- LPB takes `w`: neither binding is of a live slot, and a tile port and leap port to bind are free, the leap port in
reach and the cluster not RETIRED. -/
def LpbFits (d : Dev) (c : Nat) (x : RKey) (w : Word) : Prop :=
  d.bindLive c (d.reg x) = false ∧ d.bindLive c w = false ∧
    (w.getLsbD 63 = true →
      d.tpTaken c w x = false ∧ leapReach c w = true ∧ d.leapTaken c w x = false ∧ d.cluState c ≠ 2)

/-- The condition under which `xVpCfg` refuses is the failure of `VpFits`. -/
theorem not_vpFits_iff (d : Dev) (c : Nat) (x : RKey) (w : Word) :
    (d.bindLive c (d.reg x) = true ∨ d.bindLive c w = true ∨ 512 < getBits w 9 0
      ∨ (w.getLsbD 63 = true ∧ (d.tpTaken c w x = true ∨ d.cluState c = 2))) ↔ ¬ VpFits d c x w := by
  simp only [VpFits, not_and_or, Classical.not_imp, not_not, Nat.not_le, Bool.not_eq_false]

/-- The condition under which `xLpb` refuses is the failure of `LpbFits`. -/
theorem not_lpbFits_iff (d : Dev) (c : Nat) (x : RKey) (w : Word) :
    (d.bindLive c (d.reg x) = true ∨ d.bindLive c w = true ∨ (w.getLsbD 63 = true ∧ (d.tpTaken c w x = true
      ∨ leapReach c w = false ∨ d.leapTaken c w x = true ∨ d.cluState c = 2))) ↔ ¬ LpbFits d c x w := by
  simp only [LpbFits, not_and_or, Classical.not_imp, not_not, Bool.not_eq_false, Bool.not_eq_true]

/-- What a change of LPB from `old` to `w` does to the leap ports: the old one is released, then the new one bound. -/
def rebindLeap (c : Nat) (old w : Word) (d : Dev) : Dev :=
  let d1 := if old.getLsbD 63 = true ∧ w ≠ old then d.leapRelease c old else d
  if w.getLsbD 63 = true ∧ w ≠ old then d1.leapRelease c w else d1

section
variable {c : Nat} {old w : Word} {d : Dev}

theorem rebindLeap_none (ho : w = old ∨ ¬ old.getLsbD 63 = true) (hw : w = old ∨ ¬ w.getLsbD 63 = true) :
    rebindLeap c old w d = d := by
  rw [rebindLeap, if_neg fun ⟨hb, hne⟩ => hw.elim hne (· hb), if_neg fun ⟨hb, hne⟩ => ho.elim hne (· hb)]

theorem rebindLeap_bound (hne : w ≠ old) (ho : ¬ old.getLsbD 63 = true) (hw : w.getLsbD 63 = true) :
    rebindLeap c old w d = d.leapRelease c w := by
  rw [rebindLeap, if_pos ⟨hw, hne⟩, if_neg fun hb => ho hb.1]

theorem rebindLeap_released (hne : w ≠ old) (ho : old.getLsbD 63 = true) (hw : ¬ w.getLsbD 63 = true) :
    rebindLeap c old w d = d.leapRelease c old := by
  rw [rebindLeap, if_neg fun hb => hw hb.1, if_pos ⟨ho, hne⟩]

theorem rebindLeap_both (hne : w ≠ old) (ho : old.getLsbD 63 = true) (hw : w.getLsbD 63 = true) :
    rebindLeap c old w d = (d.leapRelease c old).leapRelease c w := by
  rw [rebindLeap, if_pos ⟨hw, hne⟩, if_pos ⟨ho, hne⟩]

end

section
variable {m : Mst} {c n v : Nat} {d : Dev} (hm : m.oid = 0)
include hm

theorem xVpCfg_fits (h : VpFits d c (cluReg c .VP_CFG n) (bindWord false v)) :
    xVpCfg m c n v d = putBinding c (cluReg c .VP_CFG n) (d.reg (cluReg c .VP_CFG n)) (bindWord false v)
      (if (d.reg (cluReg c .VP_CFG n)).getLsbD 63 = true ∧ bindWord false v ≠ d.reg (cluReg c .VP_CFG n) then
        d.emptyPort (c * 16 + n) else d) :=
  (if_neg (not_denied hm)).trans (if_neg (mt (not_vpFits_iff _ _ _ _).1 (not_not.2 h)))

theorem xVpCfg_refused (h : ¬ VpFits d c (cluReg c .VP_CFG n) (bindWord false v)) :
    xVpCfg m c n v d = d.refuse m (cluReg c .VP_CFG n) :=
  (if_neg (not_denied hm)).trans (if_pos ((not_vpFits_iff _ _ _ _).2 h))

theorem xLpb_fits (h : LpbFits d c (cluReg c .LPB n) (bindWord true v)) :
    xLpb m c n v d = putBinding c (cluReg c .LPB n) (d.reg (cluReg c .LPB n)) (bindWord true v)
      (rebindLeap c (d.reg (cluReg c .LPB n)) (bindWord true v) d) :=
  (if_neg (not_denied hm)).trans (if_neg (mt (not_lpbFits_iff _ _ _ _).1 (not_not.2 h)))

theorem xLpb_refused (h : ¬ LpbFits d c (cluReg c .LPB n) (bindWord true v)) :
    xLpb m c n v d = d.refuse m (cluReg c .LPB n) :=
  (if_neg (not_denied hm)).trans (if_pos ((not_lpbFits_iff _ _ _ _).2 h))

end

/-- Settles O20: the slot registers share `slotWrite_owner`; a binding is refused exactly where `VpFits` or `LpbFits` fails, and
an accepted one is written after the ports that it changes are emptied or released. -/
theorem slotRegisters : Obligations.SlotRegisters := by
  refine ⟨fun m c p v s hm => ?slot, fun m c p n v s hm => ?gfp, fun m c n v s hm => ?vpCfg, fun m c i v s hm => ?lpb⟩
  case slot =>
    have hfoot : (decide (s.d.slotState (slotId c p) = stUndefined) && !s.d.slotBusy (slotId c p) && !s.d.loadRuns (slotId c p))
        = true ↔ s.d.slotState (slotId c p) = stUndefined ∧ s.d.slotBusy (slotId c p) = false ∧
          s.d.loadRuns (slotId c p) = false := by
      simp only [Bool.and_eq_true, decide_eq_true_eq, Bool.not_eq_true', and_assoc]
    have hany : true = true ↔ True := iff_true_intro rfl
    exact ⟨fun h hs => next_congr ((slotWrite_owner hm hfoot).1 h hs), fun h => next_congr ((slotWrite_owner hm hfoot).2 h),
      fun h => next_congr ((slotWrite_owner hm hany).1 h trivial),
      fun h => next_congr ((slotWrite_owner hm hany).2 fun hx => h hx.1),
      fun h hf => next_congr ((slotWrite_owner hm decide_eq_true_iff).1 h hf),
      fun h => next_congr ((slotWrite_owner hm decide_eq_true_iff).2 h),
      fun h => next_congr ((slotWrite_owner hm hany).1 h trivial),
      fun h => next_congr ((slotWrite_owner hm hany).2 fun hx => h hx.1)⟩
  case gfp => exact ⟨fun h => next_congr (xGfp_free hm h), fun h => next_congr (xGfp_refused hm h)⟩
  case vpCfg =>
    refine ⟨fun h he => next_congr ?_, fun h he => next_congr ?_, fun h => next_congr (xVpCfg_refused hm h)⟩
    · exact (xVpCfg_fits hm h).trans (congrArg _ (if_neg he))
    · exact (xVpCfg_fits hm h).trans (congrArg _ (if_pos he))
  case lpb =>
    refine ⟨fun h hw hi => next_congr ?_, fun h hne hw hi => next_congr ?_, fun h hne hw hi => next_congr ?_,
      fun h hne hw hi => next_congr ?_, fun h => next_congr (xLpb_refused hm h)⟩
    · exact (xLpb_fits hm h).trans (congrArg _ (rebindLeap_none hw hi))
    · exact (xLpb_fits hm h).trans (congrArg _ (rebindLeap_bound hne hw hi))
    · exact (xLpb_fits hm h).trans (congrArg _ (rebindLeap_released hne hw hi))
    · exact (xLpb_fits hm h).trans (congrArg _ (rebindLeap_both hne hw hi))

end Sys2Proof.Proofs

namespace Sys2Proof.Proofs

open Sys2Proof.Machine Sys2Proof.Safety

/-! NoC accesses to tile memory, and the banks and address-generator registers of a tile (chapter 05; 09 R257, R261). -/

/-! ### The turn of a waiting access -/

section
variable {n : Nat} {r : TmemReq} {k : Clk} {d : Dev}

theorem tmemTurn_none (h : d.arr.tmemq[n]? = none) (f : Dev → Dev) : d.tmemTurn n k f = d := by
  simp only [Dev.tmemTurn, h]

/-- An access issued since the last reset of its master has its effect, and what the master held back follows. -/
theorem tmemTurn_current (hq : d.arr.tmemq[n]? = some r) (he : r.epoch = d.epochOf r.mid) (f : Dev → Dev) :
    d.tmemTurn n k f = (f d).releaseHeld k := by
  simp only [Dev.tmemTurn, hq, Dev.unlessStale, if_pos he]

end

section
variable {n : Nat} {r : TmemReq} {s : State} {d : Dev}

theorem exec_tmemNocAccess_current (hq : s.d.arr.tmemq[n]? = some r) (he : r.epoch = s.d.epochOf r.mid)
    (h : xTmemNocAccess n s.clk s.d = d) : exec (.tmemNocAccess n) s = .next { s with d := d.releaseHeld s.clk } := by
  subst h
  exact next_congr (tmemTurn_current hq he _)

theorem exec_nocTimeout_current (hq : s.d.arr.tmemq[n]? = some r) (he : r.epoch = s.d.epochOf r.mid)
    (h : xNocTimeout n s.d = d) : exec (.nocTimeout n) s = .next { s with d := d.releaseHeld s.clk } := by
  subst h
  exact next_congr (tmemTurn_current hq he _)

end

/-! ### Which accesses reach port B (05 R147; 09 R257) -/

section
variable {n : Nat} {r : TmemReq} {k : Clk} {d : Dev} (hq : d.arr.tmemq[n]? = some r)
include hq

theorem xTmemNocAccess_behind (hb : d.tmemBehind n r = true) : xTmemNocAccess n k d = d := by
  simp only [xTmemNocAccess, hq, hb, if_true]

theorem xNocTimeout_limit (h : getBits (d.reg (d.tileReg r.tile .TMEM_NOCTO)) 15 0 ≠ 0) :
    xNocTimeout n d = ((d.dropTmemReq n).setBit (d.tileReg r.tile .TMEM_FLAGS) (8 + r.bank) true).tmemFail r := by
  simp only [xNocTimeout, hq, if_neg h]

theorem xNocTimeout_noLimit (h : getBits (d.reg (d.tileReg r.tile .TMEM_NOCTO)) 15 0 = 0) : xNocTimeout n d = d := by
  simp only [xNocTimeout, hq, if_pos h]

variable (hb : d.tmemBehind n r = false)
include hb

theorem xTmemNocAccess_unserved (h : d.bankMolting r.tile r.bank = true ∨ d.cluDomain (tileCluster r.tile) ≠ 0) :
    xTmemNocAccess n k d = (d.dropTmemReq n).tmemFail r := by
  simp only [xTmemNocAccess, hq, hb, Bool.false_eq_true, if_false, if_pos h]

variable (hm : d.bankMolting r.tile r.bank = false) (hc : d.cluDomain (tileCluster r.tile) = 0)
include hm hc

/-- The access waits where the cycles of an executing tick are over, and where the port is taken. -/
theorem xTmemNocAccess_waits
    (h : (k.runs = true ∧ k.executing = false) ∨ d.portBusy k r.write r.tile r.bank = true) : xTmemNocAccess n k d = d := by
  simp only [xTmemNocAccess, hq, hb, hm, hc, Bool.false_eq_true, ne_eq, not_true_eq_false, or_self, if_false]
  rcases h with h | h
  · exact if_pos h
  · rw [if_pos h, ite_self]

/-- A free port in a cycle to come, or in a tick that executes nothing, takes one word of the access. -/
theorem xTmemNocAccess_takesPort (hk : k.runs = false ∨ k.executing = true)
    (hp : d.portBusy k r.write r.tile r.bank = false) : xTmemNocAccess n k d = d.tmemWord n r k := by
  have hover : ¬ (k.runs = true ∧ k.executing = false) := by
    rintro ⟨hr, hx⟩
    rcases hk with hk | hk
    · exact Bool.noConfusion (hr.symm.trans hk)
    · exact Bool.noConfusion (hx.symm.trans hk)
  simp only [xTmemNocAccess, hq, hb, hm, hc, hp, Bool.false_eq_true, ne_eq, not_true_eq_false, or_self, if_false, if_neg hover]

end

/-! ### One word through port B (05 R145, R146; 09 R261) -/

section
variable {k : Clk} {d : Dev} {T b w : Nat}

theorem nocWrite_stored (v : Word) (h : d.storeDue k (tmemAddr T b w) true = none) :
    d.nocWrite k T b w v = (false, d.tmemWrite T b w v) := by
  simp only [Dev.nocWrite, h, Option.isSome_none, Bool.false_eq_true, if_false]

theorem nocWrite_lost (v : Word) {u : Word} (h : d.storeDue k (tmemAddr T b w) true = some u) :
    d.nocWrite k T b w v = (true, (d.tmemCollide T b).setBit (d.tileReg T .TMEM_FLAGS) (4 + b) true) := by
  simp only [Dev.nocWrite, h, Option.isSome_some, if_true]

end

section
variable {n : Nat} {r : TmemReq} {k : Clk} {d : Dev}

/-- A word is written: `lost` tells whether a cell's store took its place, and `d1` is the chip that the write leaves. -/
theorem tmemWord_write {lost : Bool} {d1 : Dev} (hw : r.write = true)
    (hx : d.nocWrite k r.tile r.bank r.word (r.data.headD 0) = (lost, d1)) :
    (r.left ≤ 1 → d.tmemWord n r k = ((d1.takeB k true r.tile r.bank).dropTmemReq n).answer
      (if (r.collided || lost) = true then .collided else .okay) 0) ∧
    (1 < r.left → d.tmemWord n r k = (d1.takeB k true r.tile r.bank).setTmemReq n
      { r with word := r.word + 1, data := r.data.drop 1, left := r.left - 1, collided := r.collided || lost,
               got := r.got ++ [r.data.headD 0] }) := by
  refine ⟨fun hl => ?_, fun hl => ?_⟩
  · simp only [Dev.tmemWord, if_pos hw, hx, hl, decide_true, if_true]
  · simp only [Dev.tmemWord, if_pos hw, hx, Nat.not_le.2 hl, decide_false, Bool.false_eq_true, if_false]

/-- A word is read: `v` is what the read gives, and `d1` the chip that it leaves. -/
theorem tmemWord_read {v : Option Word} {d1 : Dev} (hw : r.write = false)
    (hx : d.nocRead k r.tile r.bank r.word = (v, d1)) :
    (r.left ≤ 1 → d.tmemWord n r k = if (r.collided || v.isNone) = true
      then ((d1.takeB k false r.tile r.bank).dropTmemReq n).tmemFailBurst r (r.got ++ [v.getD 0])
      else ((d1.takeB k false r.tile r.bank).dropTmemReq n).answerBurst .okay (r.got ++ [v.getD 0])) ∧
    (1 < r.left → d.tmemWord n r k = (d1.takeB k false r.tile r.bank).setTmemReq n
      { r with word := r.word + 1, left := r.left - 1, collided := r.collided || v.isNone, got := r.got ++ [v.getD 0] }) := by
  have hnot : ¬ r.write = true := Bool.eq_false_iff.1 hw
  refine ⟨fun hl => ?_, fun hl => ?_⟩
  · simp only [Dev.tmemWord, if_neg hnot, hx, hl, decide_true, if_true]
  · simp only [Dev.tmemWord, if_neg hnot, hx, Nat.not_le.2 hl, decide_false, Bool.false_eq_true, if_false]

theorem tmemWord_stored (hw : r.write = true) (h : d.storeDue k (tmemAddr r.tile r.bank r.word) true = none) :
    let d1 := (d.tmemWrite r.tile r.bank r.word (r.data.headD 0)).takeB k true r.tile r.bank
    (r.left ≤ 1 → d.tmemWord n r k = (d1.dropTmemReq n).answer (if r.collided then .collided else .okay) 0) ∧
    (1 < r.left → d.tmemWord n r k = d1.setTmemReq n
      { r with word := r.word + 1, data := r.data.drop 1, left := r.left - 1, got := r.got ++ [r.data.headD 0] }) := by
  simpa only [Bool.or_false] using tmemWord_write (n := n) hw (nocWrite_stored _ h)

theorem tmemWord_lost {v : Word} (hw : r.write = true)
    (h : d.storeDue k (tmemAddr r.tile r.bank r.word) true = some v) :
    let d1 := ((d.tmemCollide r.tile r.bank).setBit (d.tileReg r.tile .TMEM_FLAGS) (4 + r.bank) true).takeB k true r.tile r.bank
    (r.left ≤ 1 → d.tmemWord n r k = (d1.dropTmemReq n).answer .collided 0) ∧
    (1 < r.left → d.tmemWord n r k = d1.setTmemReq n
      { r with word := r.word + 1, data := r.data.drop 1, left := r.left - 1, collided := true,
               got := r.got ++ [r.data.headD 0] }) := by
  simpa only [Bool.or_true, if_true] using tmemWord_write (n := n) hw (nocWrite_lost _ h)

theorem tmemWord_read_okay {v : Word} {d1 : Dev} (hw : r.write = false)
    (hx : d.nocRead k r.tile r.bank r.word = (some v, d1)) (hl : r.left ≤ 1) (hc : r.collided = false) :
    d.tmemWord n r k = ((d1.takeB k false r.tile r.bank).dropTmemReq n).answerBurst .okay (r.got ++ [v]) := by
  have hgood : ¬ (r.collided || (some v).isNone) = true := by simp [hc]
  rw [(tmemWord_read hw hx).1 hl, if_neg hgood, Option.getD_some]

theorem tmemWord_read_failed {v : Option Word} {d1 : Dev} (hw : r.write = false)
    (hx : d.nocRead k r.tile r.bank r.word = (v, d1)) (hl : r.left ≤ 1) (h : v = none ∨ r.collided = true) :
    d.tmemWord n r k
      = ((d1.takeB k false r.tile r.bank).dropTmemReq n).tmemFailBurst r (r.got ++ [v.getD 0]) := by
  have hbad : (r.collided || v.isNone) = true := by simpa [or_comm] using h
  rw [(tmemWord_read hw hx).1 hl, if_pos hbad]

end

/-! ### Write-backs and molts (05 R150, R152) -/

section
variable {T b w : Nat} {k : Clk} {d : Dev}

theorem xTmemWriteback_due (hf : (nget Ecc.ok d.ecc (tmemAddr T b w)).isFound = true) (hp : d.portBusy k true T b = false) :
    xTmemWriteback T b w k d = { d with ecc := nset .ok d.ecc (tmemAddr T b w) .ok } := by
  simp only [xTmemWriteback, hf, hp, Bool.not_false, Bool.and_self, if_true]

theorem xTmemWriteback_not_due
    (h : (nget Ecc.ok d.ecc (tmemAddr T b w)).isFound = false ∨ d.portBusy k true T b = true) :
    xTmemWriteback T b w k d = d := by
  rcases h with h | h
  · simp only [xTmemWriteback, h, Bool.false_and, Bool.false_eq_true, if_false]
  · simp only [xTmemWriteback, h, Bool.not_true, Bool.and_false, Bool.false_eq_true, if_false]

theorem xBankMolt_molting (h : d.bankMolting T b = true) :
    xBankMolt T b d = (d.setBit (d.tileReg T .TMEM_STAT) b false).tmemZero T b := if_pos h

theorem xBankMolt_still (h : d.bankMolting T b = false) : xBankMolt T b d = d := if_neg (Bool.eq_false_iff.1 h)

end

/-! ### Handover of banks (05 R149) -/

/-- The field of bank `b` in a value of TMEM_OWN. -/
def ownField (n b : Nat) : Nat := n / 2 ^ (4 * b) % 16

/-- The banks whose field a write of `v` over `old` changes. -/
def changedBanks (old v : Nat) : List Nat := (upTo 4).filter (fun b => ownField v b != ownField old b)

/-- Whether a write of `v` to TMEM_OWN of page `p` may hand over bank `b` of the page's tile. -/
def mayHand (q l p v : Nat) (d : Dev) (b : Nat) : Bool :=
  d.handoverOk (clusterOf q l) (d.pageTile q l p) b (ownField (d.regN (R.TMEM_OWN.at q l p)) b) (ownField v b)

/-- Each of `banks` of tile `T` goes to the owner that `v` names. -/
def handBanks (T v : Nat) (banks : List Nat) (d : Dev) : Dev := banks.foldl (fun y b => y.handover T b (ownField v b)) d

section
variable {m : Mst} (hm : m.oid = 0) {q l p v : Nat} {d : Dev}
include hm

theorem xTmemOwn_mapped (hp : d.pageMapped q l p = true) :
    let ch := changedBanks (d.regN (R.TMEM_OWN.at q l p)) v
    let d1 := handBanks (d.pageTile q l p) v (ch.filter (mayHand q l p v d)) d
    xTmemOwn m q l p v d
      = if (ch.filter (mayHand q l p v d)).length = ch.length then d1.okay else d1.refuse m (R.TMEM_OWN.at q l p) :=
  (if_neg (not_denied hm)).trans (if_neg (by simp [hp]))

theorem xTmemOwn_unmapped (hp : d.pageMapped q l p = false) : xTmemOwn m q l p v d = d.refuse m (R.TMEM_OWN.at q l p) :=
  (if_neg (not_denied hm)).trans (if_pos (by simp [hp]))

/-- Where every changed bank may be handed over, all are, and the write is answered OKAY. -/
theorem xTmemOwn_all (hp : d.pageMapped q l p = true)
    (h : ∀ b, b ∈ changedBanks (d.regN (R.TMEM_OWN.at q l p)) v → mayHand q l p v d b = true) :
    xTmemOwn m q l p v d
      = (handBanks (d.pageTile q l p) v (changedBanks (d.regN (R.TMEM_OWN.at q l p)) v) d).okay := by
  have hall := List.filter_eq_self.2 h
  rw [xTmemOwn_mapped hm hp, hall, if_pos rfl]

/-- One changed bank that may not be handed over has the write refused; the others are handed over all the same. -/
theorem xTmemOwn_dropped (hp : d.pageMapped q l p = true) {b : Nat}
    (hb : b ∈ changedBanks (d.regN (R.TMEM_OWN.at q l p)) v) (hno : mayHand q l p v d b = false) :
    xTmemOwn m q l p v d = (handBanks (d.pageTile q l p) v
      ((changedBanks (d.regN (R.TMEM_OWN.at q l p)) v).filter (mayHand q l p v d)) d).refuse m (R.TMEM_OWN.at q l p) := by
  have hne : ¬ ((changedBanks (d.regN (R.TMEM_OWN.at q l p)) v).filter (mayHand q l p v d)).length
      = (changedBanks (d.regN (R.TMEM_OWN.at q l p)) v).length :=
    fun he => Bool.noConfusion (hno.symm.trans (List.length_filter_eq_length_iff.1 he b hb))
  rw [xTmemOwn_mapped hm hp, if_neg hne]

/-! ### Address-generator registers (05 R148, R156) -/

variable {n : Nat}

theorem xAgreg_free (hp : d.pageMapped q l p = true) (hl : d.posLive (clusterOf q l) (n / 8) = false) :
    xAgreg m q l p n v d = (d.setRegN (R.AGREG.at q l p n) (v &&& 0xFFF07FF07FF07FF)).okay :=
  (if_neg (not_denied hm)).trans (if_neg (by simp [hp, hl]))

theorem xAgreg_refused (h : d.pageMapped q l p = false ∨ d.posLive (clusterOf q l) (n / 8) = true) :
    xAgreg m q l p n v d = d.refuse m (R.AGREG.at q l p n) :=
  (if_neg (not_denied hm)).trans (if_pos (by simpa using h))

end

/-- Settles O4: an access in turn is decided by `xTmemNocAccess`, and its word by what `nocWrite` or `nocRead` gives; the
other commands have one lemma for each outcome. -/
theorem tileMemory : Obligations.TileMemory := by
  refine ⟨fun n s hq => ⟨next_congr (tmemTurn_none hq _), next_congr (tmemTurn_none hq _)⟩, fun n r s hq he => ?access,
    fun T b w s => ?writeback, fun m q l p v s hm hp => ?own, fun T b s => ?molt, fun m q l p n v s hm hp => ?agreg,
    fun m q l p n v s hm hp => ?unmapped⟩
  case access =>
    refine ⟨fun hb => exec_tmemNocAccess_current hq he (xTmemNocAccess_behind hq hb),
      fun hb h => exec_tmemNocAccess_current hq he (xTmemNocAccess_unserved hq hb h),
      fun hb hm hc h => exec_tmemNocAccess_current hq he (xTmemNocAccess_waits hq hb hm hc h),
      fun hb hm hc hk hp => ?_,
      fun h => exec_nocTimeout_current hq he (xNocTimeout_limit hq h),
      fun h => exec_nocTimeout_current hq he (xNocTimeout_noLimit hq h)⟩
    have hexec {d : Dev} (h : s.d.tmemWord n r s.clk = d) :
        exec (.tmemNocAccess n) s = .next { s with d := d.releaseHeld s.clk } :=
      exec_tmemNocAccess_current hq he ((xTmemNocAccess_takesPort hq hb hm hc hk hp).trans h)
    refine ⟨fun hw hs => ?stored, fun v hw hs => ?lost, fun hw => ?read⟩
    case stored =>
      obtain ⟨hlast, hmore⟩ := tmemWord_stored (n := n) hw hs
      exact ⟨fun hl => hexec (hlast hl), fun hl => hexec (hmore hl)⟩
    case lost =>
      obtain ⟨hlast, hmore⟩ := tmemWord_lost (n := n) hw hs
      exact ⟨fun hl => hexec (hlast hl), fun hl => hexec (hmore hl)⟩
    case read =>
      intro x
      have hx : s.d.nocRead s.clk r.tile r.bank r.word = (x.1, x.2) := by
        simp only [x, Dev.nocRead]
        cases s.d.storeDue s.clk (tmemAddr r.tile r.bank r.word) true with
        | some v => rfl
        | none => cases s.d.storeDue s.clk (tmemAddr r.tile r.bank r.word) false <;> rfl
      exact ⟨fun v hv hl hc => hexec (tmemWord_read_okay hw (hv ▸ hx) hl hc),
        fun h hl => hexec (tmemWord_read_failed hw hx hl h), fun hl => hexec ((tmemWord_read hw hx).2 hl)⟩
  case writeback => exact ⟨fun hf hp => next_congr (xTmemWriteback_due hf hp), fun h => next_congr (xTmemWriteback_not_due h)⟩
  case own => exact ⟨fun h => next_congr (xTmemOwn_all hm hp h), fun b hb hno => next_congr (xTmemOwn_dropped hm hp hb hno)⟩
  case molt => exact ⟨fun h => next_congr (xBankMolt_molting h), fun h => next_congr (xBankMolt_still h)⟩
  case agreg => exact ⟨fun h => next_congr (xAgreg_free hm hp h), fun h => next_congr (xAgreg_refused hm (.inr h))⟩
  case unmapped => exact ⟨next_congr (xTmemOwn_unmapped hm hp), next_congr (xAgreg_refused hm (.inl hp))⟩

end Sys2Proof.Proofs

namespace Sys2Proof.Proofs

open Sys2Proof.Machine Sys2Proof.Safety

/-! Defining and undefining a slot (06 R163–R165, R169, R173). -/

/-! ### DEFINE and its completion (06 R164, R165) -/

section
variable {c p code phase : Nat} {d : Dev}

/-- A DEFINE of a slot that a command, a sweep or a load holds is BUSY, and the slot's own cluster decides it. -/
theorem defineCheck_held {sl : Nat} (h : d.slotBusy sl = true ∨ d.sweeping sl = true ∨ d.loadRuns sl = true) :
    d.defineCheck sl code phase = (.busy, sl / 4) := by
  have hb : (d.slotBusy sl || d.sweeping sl || d.loadRuns sl) = true := by
    simpa only [Bool.or_eq_true, or_assoc] using h
  exact if_pos hb

/-- The cluster of a slot ID. -/
theorem slotId_div (hp : p < 4) : slotId c p / 4 = c := by
  unfold slotId
  omega

section
variable {m : Mst} (hm : m.oid = 0)
include hm

theorem xDefine_accepted (h : (d.defineCheck (slotId c p) code phase).1 = .ok) :
    xDefine m c p code phase d
      = (({ d with arr := { d.arr with
            resv := (d.footprint (slotId c p)).foldl (fun x e => nset 0 x e (slotId c p + 1)) d.arr.resv } } : Dev).setBusy
          (slotId c p) (.defining code phase)).okay :=
  (if_neg (not_denied hm)).trans (if_pos h)

theorem xDefine_rejected (h : (d.defineCheck (slotId c p) code phase).1 ≠ .ok) :
    xDefine m c p code phase d
      = (d.slotResult (slotId c p) (d.defineCheck (slotId c p) code phase).1
          (d.defineCheck (slotId c p) code phase).2).okay :=
  (if_neg (not_denied hm)).trans (if_neg h)

theorem xDefine_held (hp : p < 4)
    (h : d.slotBusy (slotId c p) = true ∨ d.sweeping (slotId c p) = true ∨ d.loadRuns (slotId c p) = true) :
    xDefine m c p code phase d = (d.slotResult (slotId c p) .busy c).okay := by
  have hr := defineCheck_held (code := code) (phase := phase) h
  rw [xDefine_rejected hm (by simp [hr]), hr, slotId_div hp]

end

/-- The footprint of slot `sl` takes its positions, then its pass tables. -/
def takeFootprint (sl code phase : Nat) (foot : List Nat) (d : Dev) : Dev :=
  foot.foldl (fun x e => x.passTables sl e true) (foot.foldl (fun x e => x.takePos sl code phase e) d)

theorem xDefinitionComplete_ready (hb : (d.ctl (slotId c p)).busy = .defining code phase)
    (h : ∀ x, x ∈ d.footprint (slotId c p) → d.cluReady x = true) :
    xDefinitionComplete c p d
      = ((((takeFootprint (slotId c p) code phase (d.footprint (slotId c p))
            ((d.release' (slotId c p)).setBusy (slotId c p) .idle)).setSlotState (slotId c p) stStopped).loadNone
          (slotId c p)).setCtl (slotId c p) SlotCtl.zero).slotResult (slotId c p) .ok := by
  have hnone : (d.footprint (slotId c p)).find? (fun x => !d.cluReady x) = none :=
    List.find?_eq_none.2 fun x hx => by simp [h x hx]
  simp only [xDefinitionComplete, hb, hnone, takeFootprint]

theorem xDefinitionComplete_unavail {x : Nat} (hb : (d.ctl (slotId c p)).busy = .defining code phase)
    (h : (d.footprint (slotId c p)).find? (fun x => !d.cluReady x) = some x) :
    xDefinitionComplete c p d
      = ((d.release' (slotId c p)).setBusy (slotId c p) .idle).slotResult (slotId c p) .unavail x := by
  simp only [xDefinitionComplete, hb, h]

theorem xDefinitionComplete_none (h : ∀ code phase, (d.ctl (slotId c p)).busy ≠ .defining code phase) :
    xDefinitionComplete c p d = d := by
  cases hb : (d.ctl (slotId c p)).busy with
  | defining code phase => exact absurd hb (h code phase)
  | _ => simp only [xDefinitionComplete, hb]

/-! ### UNDEFINE and the reserved commands (06 R169, R173) -/

/-- The test by which UNDEFINE and a reserved command are BUSY. -/
theorem holds_iff {sl : Nat} :
    (d.slotBusy sl || d.loadRuns sl) = true ↔ d.slotBusy sl = true ∨ d.loadRuns sl = true :=
  Bool.or_eq_true_iff

section
variable {m : Mst} {k : Clk} (hm : m.oid = 0)
include hm

theorem xUndefine_held (h : d.slotBusy (slotId c p) = true ∨ d.loadRuns (slotId c p) = true) :
    xUndefine m c p k d = (d.slotResult (slotId c p) .busy).okay :=
  (if_neg (not_denied hm)).trans (if_pos (holds_iff.2 h))

/-- An UNDEFINE that no command or load holds back is decided by STATE. -/
theorem xUndefine_free (h : ¬ (d.slotBusy (slotId c p) = true ∨ d.loadRuns (slotId c p) = true)) :
    xUndefine m c p k d
      = if d.cmdState (slotId c p) = stStopped ∨ d.cmdState (slotId c p) = stTadpole then
          ((d.genInc k.tick (slotId c p)).startMolt (slotId c p) .undefining).okay
        else (d.slotResult (slotId c p) .state).okay :=
  (if_neg (not_denied hm)).trans (if_neg (mt holds_iff.1 h))

theorem xBadCmd_owner :
    xBadCmd m c p code d
      = (d.slotResult (slotId c p) (if d.slotBusy (slotId c p) || d.loadRuns (slotId c p) then .busy else .badCmd)).okay :=
  if_neg (not_denied hm)

theorem xBadCmd_held (h : d.slotBusy (slotId c p) = true ∨ d.loadRuns (slotId c p) = true) :
    xBadCmd m c p code d = (d.slotResult (slotId c p) .busy).okay := by
  rw [xBadCmd_owner hm, if_pos (holds_iff.2 h)]

theorem xBadCmd_free (h : ¬ (d.slotBusy (slotId c p) = true ∨ d.loadRuns (slotId c p) = true)) :
    xBadCmd m c p code d = (d.slotResult (slotId c p) .badCmd).okay := by
  rw [xBadCmd_owner hm, if_neg (mt holds_iff.1 h)]

end
end

/-- Settles O18: DEFINE is decided by its check, the completion by the first footprint cluster that is not ready, and
UNDEFINE by STATE once nothing holds the slot. -/
theorem slotDefine : Obligations.SlotDefine := by
  refine ⟨fun m c p code phase s hm => ?define, fun c p s => ?completion, fun m c p s hm => ?undefine⟩
  case define =>
    exact ⟨fun h => next_congr (xDefine_accepted hm h), fun h => next_congr (xDefine_rejected hm h),
      fun hp h => next_congr (xDefine_held hm hp h)⟩
  case completion =>
    exact ⟨fun code phase hb => ⟨fun h => next_congr (xDefinitionComplete_ready hb h),
        fun x h => next_congr (xDefinitionComplete_unavail hb h)⟩,
      fun h => next_congr (xDefinitionComplete_none h)⟩
  case undefine =>
    refine ⟨fun h hst => next_congr ?_, fun h hst => next_congr ?_, fun h => next_congr (xUndefine_held hm h),
      fun code h => next_congr (xBadCmd_free hm h), fun code h => next_congr (xBadCmd_held hm h)⟩
    · rw [xUndefine_free hm h, if_pos hst]
    · rw [xUndefine_free hm h, if_neg hst]

end Sys2Proof.Proofs

namespace Sys2Proof.Proofs

open Sys2Proof.Machine Sys2Proof.Safety

/-! Regrowth and retirement of a cluster (06 R183–R186; 12 R337). -/

/-! ### The orders REGROW and RETIRE (06 R183, R185, R186) -/

section
variable {m : Mst} {c col : Nat} {k : Clk} {d : Dev} (hm : m.oid = 0)
include hm

theorem xRegrow_refused (h : 7 < col) : xRegrow m c col k d = d.refuse m (cluReg c .CLU_REGROW) :=
  (if_neg (not_denied hm)).trans (if_pos h)

/-- A REGROW of a column that exists is decided by the cluster's state, then by its spare. -/
theorem xRegrow_column (h : col < 8) :
    xRegrow m c col k d
      = if d.cluState c = 1 then (d.setClu c 23 20 3).okay
        else if d.retired c = true then d.okay
        else if (d.reg (cluReg c .CLU_STAT)).getLsbD 7 then (d.retire k.tick c).okay
        else ((((d.interruptClu c).setClu c 31 30 1).setClu c 19 16 0).setRegrow c
          ⟨true, col, 0, false, 0, getBits (d.reg (cluReg c .CLU_STAT)) 11 7⟩).okay :=
  (if_neg (not_denied hm)).trans (if_neg (by omega))

/-- A RETIRE is decided by the cluster's state. -/
theorem xRetire_owner :
    xRetire m c k d
      = if d.cluState c = 1 then (d.setClu c 23 20 3).okay
        else if d.retired c = true then d.okay
        else (d.retire k.tick c).okay :=
  if_neg (not_denied hm)

end

/-! ### Column copies (06 R183) -/

/-- A copy may be made: the cluster is REGROWING and not yet updated, and each of its slots is PAUSED or not live. -/
def CopyDue (c : Nat) (d : Dev) : Prop :=
  (d.regrow c).active = true ∧ (d.regrow c).updated = false ∧
    ∀ x, x ∈ d.slotsIn c → d.slotLive x = false ∨ d.slotState x = stPaused

/-- The condition under which `xColumnCopy` does nothing is the failure of `CopyDue`. -/
theorem not_copyDue_iff (c : Nat) (d : Dev) :
    (!(d.regrow c).active ∨ (d.regrow c).updated = true ∨
        (d.slotsIn c).any (fun s => d.slotLive s && decide (d.slotState s ≠ stPaused)) = true)
      ↔ ¬ CopyDue c d := by
  simp [CopyDue, imp_iff_not_or]

/-- Column `col` of cluster `c` is copied to the next physical column, and RGPROG counts `n` columns. -/
def moveColumn (c col n : Nat) (d : Dev) : Dev := ((d.copyColumn c col).poisonColumn c col).setClu c 19 16 n

section
variable {c : Nat} {d : Dev}

/-- The copy of another column than the failed one moves it. -/
theorem xColumnCopy_other (h : CopyDue c d) (hc : 7 - (d.regrow c).copied ≠ (d.regrow c).col) :
    xColumnCopy c d = (moveColumn c (7 - (d.regrow c).copied) ((d.regrow c).copied + 1) d).setRegrow c
      { d.regrow c with copied := (d.regrow c).copied + 1 } := by
  have hdue := mt (not_copyDue_iff c d).1 (not_not.2 h)
  simp only [xColumnCopy, if_neg hdue, if_neg hc, moveColumn]

/-- The copy of the failed column is the last: the update follows it. -/
theorem xColumnCopy_failed (h : CopyDue c d) (hc : 7 - (d.regrow c).copied = (d.regrow c).col) :
    xColumnCopy c d
      = ((moveColumn c (7 - (d.regrow c).copied) ((d.regrow c).copied + 1)
            (d.keepColumn c (7 - (d.regrow c).copied))).shiftUpdate c (d.regrow c).col).setRegrow c
          { d.regrow c with copied := (d.regrow c).copied + 1, updated := true, wait := 2 } := by
  have hdue := mt (not_copyDue_iff c d).1 (not_not.2 h)
  simp only [xColumnCopy, if_neg hdue, if_pos hc, moveColumn]

theorem xColumnCopy_not_due (h : ¬ CopyDue c d) : xColumnCopy c d = d := if_pos ((not_copyDue_iff c d).2 h)

end

/-! ### The end of a pause (06 R171, R183) -/

/-- The test of `xSlotResume`: the slot is PAUSED and no cluster of its footprint is REGROWING. -/
theorem resumeDue_iff (sl : Nat) (d : Dev) :
    (d.slotState sl = stPaused ∧ (d.footprint sl).all (fun c => !(d.regrow c).active) = true)
      ↔ d.slotState sl = stPaused ∧ ∀ x, x ∈ d.footprint sl → (d.regrow x).active = false := by
  simp only [List.all_eq_true, Bool.not_eq_true']

section
variable {sl : Nat} {d : Dev}

theorem xSlotResume_due (h : d.slotState sl = stPaused ∧ ∀ x, x ∈ d.footprint sl → (d.regrow x).active = false) :
    xSlotResume sl d
      = if (d.ctl sl).resume then ((d.setCtl sl { d.ctl sl with resume := false }).setSlotState sl stTadpole).slotDone sl
        else d.setSlotState sl stLive :=
  if_pos ((resumeDue_iff sl d).2 h)

theorem xSlotResume_not_due (h : ¬ (d.slotState sl = stPaused ∧ ∀ x, x ∈ d.footprint sl → (d.regrow x).active = false)) :
    xSlotResume sl d = d :=
  if_neg (mt (resumeDue_iff sl d).1 h)

end

/-! ### The teardown of a retired cluster (06 R185; 12 R337) -/

/-- The teardown may run: the cluster's retirement runs, and each of its slots has stopped with no result in flight. -/
def TeardownDue (c : Nat) (d : Dev) : Prop :=
  nget false d.arr.retiring c = true ∧ ∀ x, x ∈ d.slotsIn c → d.slotLive x = false ∧ d.slotInFlight x = false

/-- The condition under which `xRetirementTeardown` does nothing is the failure of `TeardownDue`. -/
theorem not_teardownDue_iff (c : Nat) (d : Dev) :
    (nget false d.arr.retiring c = false ∨ (d.slotsIn c).any (fun s => d.slotLive s || d.slotInFlight s) = true)
      ↔ ¬ TeardownDue c d := by
  simp [TeardownDue, imp_iff_not_or]

/-- Every slot of cluster `c` is molted and undefined, and the commands that wait for its molt end. -/
def undefineSlots (c : Nat) (d : Dev) : Dev :=
  (d.slotsIn c).foldl (fun x s => (((x.setBusy s .idle).moltSlot s true).freeSlot s).moltDone s) d

/-- The whole of cluster `c` is zero, it is RETIRED and its domain OFF. -/
def retireCluster (c : Nat) (d : Dev) : Dev :=
  (((d.zeroCluster c cluKeeps).setClu c 31 30 2).setClu c 23 20 2).setDom (quarterOf c) (localOf c) 2

/-- The retirement of cluster `c` is over, and its end is raised. -/
def endRetiring (c : Nat) (d : Dev) : Dev :=
  { d with arr := { d.arr with retiring := nset false d.arr.retiring c false } }.raiseClu c 3

theorem xRetirementTeardown_due {c : Nat} {d : Dev} (h : TeardownDue c d) :
    xRetirementTeardown c d = endRetiring c (retireCluster c (undefineSlots c d)) :=
  if_neg (mt (not_teardownDue_iff c d).1 (not_not.2 h))

theorem xRetirementTeardown_not_due {c : Nat} {d : Dev} (h : ¬ TeardownDue c d) : xRetirementTeardown c d = d :=
  if_pos ((not_teardownDue_iff c d).2 h)

/-- Settles O21: an order is decided by the cluster's state and spare, a copy by whether its column is the failed one; pause,
resume and teardown happen where they are due. -/
theorem regrowth : Obligations.Regrowth := by
  refine ⟨fun m c col s hm => ?orders, fun slot s => ?pause, fun c s => ?copy, fun slot s => ?resume, fun c s => ?teardown⟩
  case orders =>
    have hretire := xRetire_owner (c := c) (k := s.clk) (d := s.d) hm
    refine ⟨fun h => next_congr (xRegrow_refused hm h), fun h h1 => next_congr ?_, fun h h1 h2 => next_congr ?_,
      fun h h1 h2 h3 => next_congr ?_, fun h h1 h2 h3 => next_congr ?_, fun h1 => next_congr ?_,
      fun h1 h2 => next_congr ?_, fun h1 h2 => next_congr ?_⟩
    · rw [xRegrow_column hm h, if_pos h1]
    · rw [xRegrow_column hm h, if_neg h1, if_pos h2]
    · rw [xRegrow_column hm h, if_neg h1, if_neg (ne_true_of_eq_false h2), if_pos h3]
    · rw [xRegrow_column hm h, if_neg h1, if_neg (ne_true_of_eq_false h2), if_neg (ne_true_of_eq_false h3)]
    · rw [hretire, if_pos h1]
    · rw [hretire, if_neg h1, if_pos h2]
    · rw [hretire, if_neg h1, if_neg (ne_true_of_eq_false h2)]
  case pause => exact ⟨fun h => next_congr (if_pos h), fun h => next_congr (if_neg h)⟩
  case copy =>
    exact ⟨fun h hc => next_congr (xColumnCopy_other h hc), fun h hc => next_congr (xColumnCopy_failed h hc),
      fun h => next_congr (xColumnCopy_not_due h)⟩
  case resume =>
    refine ⟨fun h hr => next_congr ?_, fun h hr => next_congr ?_, fun h => next_congr (xSlotResume_not_due h)⟩
    · rw [xSlotResume_due h, if_neg (ne_true_of_eq_false hr)]
    · rw [xSlotResume_due h, if_pos hr]
  case teardown =>
    exact ⟨fun h => next_congr (xRetirementTeardown_due h), fun h => next_congr (xRetirementTeardown_not_due h)⟩

end Sys2Proof.Proofs

namespace Sys2Proof.Proofs

open Sys2Proof.Machine Sys2Proof.Safety

/-! Blocks of a leap crossing (07 R194, R199–R208). -/

/-! ### Folds in which one member acts -/

/-- A number below `n` parts the numbers below `n` into those before it and those after it. -/
theorem upTo_parts {n i : Nat} (h : i < n) :
    ∃ as bs, upTo n = as ++ i :: bs ∧ (∀ j, j ∈ as → j < n ∧ j ≠ i) ∧ ∀ j, j ∈ bs → j < n ∧ j ≠ i := by
  obtain ⟨as, bs, hl⟩ := List.append_of_mem (List.mem_range.2 h)
  have hnd : (as ++ i :: bs).Nodup := hl ▸ List.nodup_range
  obtain ⟨hia, hib⟩ : i ∉ as ∧ i ∉ bs := by simpa [not_or] using (List.nodup_middle.1 hnd).notMem
  have hlt : ∀ j, j ∈ as ++ i :: bs → j < n := fun j hj => List.mem_range.1 (hl ▸ hj)
  exact ⟨as, bs, hl, fun j hj => ⟨hlt j (by simp [hj]), ne_of_mem_of_not_mem hj hia⟩,
    fun j hj => ⟨hlt j (by simp [hj]), ne_of_mem_of_not_mem hj hib⟩⟩

theorem foldl_fixed_of_mem {α β : Type} {f : β → α → β} {x : β} {l : List α} (h : ∀ a, a ∈ l → f x a = x) :
    l.foldl f x = x := by
  induction l with
  | nil => rfl
  | cons a l ih => rw [List.foldl_cons, h a (by simp), ih fun c hc => h c (by simp [hc])]

/-- A fold in which `i` alone acts, before its turn and after it. -/
theorem foldl_upTo_only {f : Dev → Nat → Dev} {d : Dev} {n i : Nat} (h : i < n)
    (hbefore : ∀ j, j < n → j ≠ i → f d j = d) (hafter : ∀ j, j < n → j ≠ i → f (f d i) j = f d i) :
    (upTo n).foldl f d = f d i := by
  obtain ⟨as, bs, hl, has, hbs⟩ := upTo_parts h
  rw [hl, List.foldl_append, List.foldl_cons, foldl_fixed_of_mem fun j hj => hbefore j (has j hj).1 (has j hj).2,
    foldl_fixed_of_mem fun j hj => hafter j (hbs j hj).1 (hbs j hj).2]

theorem filter_upTo_only {p : Nat → Bool} {n i : Nat} (h : i < n) (hi : p i = true)
    (hoth : ∀ j, j < n → j ≠ i → p j = false) : (upTo n).filter p = [i] := by
  obtain ⟨as, bs, hl, has, hbs⟩ := upTo_parts h
  rw [hl, List.filter_append, List.filter_cons_of_pos hi,
    List.filter_eq_nil_iff.2 fun j hj => ne_true_of_eq_false (hoth j (has j hj).1 (has j hj).2),
    List.filter_eq_nil_iff.2 fun j hj => ne_true_of_eq_false (hoth j (hbs j hj).1 (hbs j hj).2), List.nil_append]

theorem filterMap_upTo_only {α : Type} {g : Nat → Option α} {n i : Nat} (h : i < n)
    (hoth : ∀ j, j < n → j ≠ i → g j = none) : (upTo n).filterMap g = (g i).toList := by
  obtain ⟨as, bs, hl, has, hbs⟩ := upTo_parts h
  rw [hl, List.filterMap_append, List.filterMap_cons,
    List.filterMap_eq_nil_iff.2 fun j hj => hoth j (has j hj).1 (has j hj).2,
    List.filterMap_eq_nil_iff.2 fun j hj => hoth j (hbs j hj).1 (hbs j hj).2]
  cases g i <;> rfl

theorem find?_upTo_only {p : Nat → Bool} {n i : Nat} (h : i < n) (hi : p i = true)
    (hoth : ∀ j, j < n → j ≠ i → p j = false) : (upTo n).find? p = some i := by
  obtain ⟨as, bs, hl, has, -⟩ := upTo_parts h
  exact List.find?_eq_some_iff_append.2 ⟨hi, as, bs, hl, fun j hj => by simp [hoth j (has j hj).1 (has j hj).2]⟩

/-! ### Channels and their blocks -/

section
variable (d : Dev) (ch t0 : Nat)

@[simp] theorem chan_setChan_self (x : LeapCh) : (d.setChan ch x).chan ch = x :=
  Laws.nget_nset_self LeapCh.zero d.leap ch x

theorem chan_setChan_other {ch j : Nat} (x : LeapCh) (h : j ≠ ch) : (d.setChan ch x).chan j = d.chan j :=
  Laws.nget_nset_other LeapCh.zero d.leap x h

/-- What holds of a channel depends on the records of the channels alone. -/
theorem chan_of_leap {d e : Dev} (h : e.leap = d.leap) (ch : Nat) : e.chan ch = d.chan ch := by
  rw [Dev.chan, Dev.chan, h]

theorem blk_of_chan {d e : Dev} {ch : Nat} (h : e.chan ch = d.chan ch) (t0 : Nat) : e.blk ch t0 = d.blk ch t0 := by
  rw [Dev.blk, Dev.blk, h]

theorem chan_modBlk_self (f : LBlk → LBlk) :
    (d.modBlk ch t0 f).chan ch = { d.chan ch with line := (d.chan ch).line.map (fun b => if b.t0 = t0 then f b else b) } :=
  chan_setChan_self d ch _

theorem chan_modBlk_other {ch j : Nat} (f : LBlk → LBlk) (h : j ≠ ch) : (d.modBlk ch t0 f).chan j = d.chan j :=
  chan_setChan_other d _ h

/-- The block that was changed reads back changed, where the change keeps its place in time. -/
theorem blk_modBlk_self {f : LBlk → LBlk} (hf : ∀ x, (f x).t0 = x.t0) :
    (d.modBlk ch t0 f).blk ch t0 = (d.blk ch t0).map f := by
  have hp : ((fun b : LBlk => b.t0 == t0) ∘ fun b => if b.t0 = t0 then f b else b) = fun b => b.t0 == t0 := by
    funext b
    by_cases hb : b.t0 = t0 <;> simp [hb, hf]
  rw [Dev.blk, chan_modBlk_self, List.find?_map, hp, Dev.blk]
  refine Option.map_congr fun b hb => ?_
  have ht : b.t0 = t0 := by simpa using List.find?_some hb
  rw [if_pos ht]

end

@[simp] theorem raise_leap (d : Dev) (q n : Nat) : (d.raise q n).leap = d.leap := by
  rw [Laws.raise_eq]; split <;> rfl

@[simp] theorem flagWire_leap (d : Dev) (dir w n : Nat) : (d.flagWire dir w n).leap = d.leap := raise_leap _ _ _

@[simp] theorem wireErr_leap (d : Dev) (dir w : Nat) : (d.wireErr dir w).leap = d.leap := by
  simp only [Dev.wireErr, apply_ite Dev.leap, flagWire_leap, Laws.setReg_leap, ite_self]

@[simp] theorem bump_leap (d : Dev) (x : RKey) : (d.bump x).leap = d.leap := rfl

/-! ### BLOCK_CHECK (07 R202, R203, R208) -/

/-- What the check of an accepted copy of an aligned port leaves, by what it finds (07 R202, R208; assumption 130). -/
def afterCheck (ch t0 : Nat) (flips : List Nat) (d : Dev) : Check → Dev
  | .pass => (if isMarker t0 then d.setChan ch { d.chan ch with miss := 0 } else d).modBlk ch t0
      (fun x => { x with data := flipData x.data flips })
  | .fail => d.modBlk ch t0 (fun x => { x with st := .rejected, flips := flips })
  | .seq => (d.modBlk ch t0 (fun x => { x with st := .rejected, flips := flips })).bump (dirReg (ch / 32) .ALIGN_ERR_CNT)
  | .marker =>
    if (d.chan ch).miss = 0 then
      ((d.setChan ch { d.chan ch with miss := 1, lost := false }).modBlk ch t0
        (fun x => { x with st := .rejected, flips := flips })).bump (dirReg (ch / 32) .ALIGN_ERR_CNT)
    else
      ((d.setChan ch { d.chan ch with miss := (d.chan ch).miss + 1, lost := true }).modBlk ch t0
        (fun x => { x with st := .lost 3, flips := flips })).bump (dirReg (ch / 32) .ALIGN_ERR_CNT)

section
variable {ch t0 : Nat} {flips : List Nat} {b : LBlk} {d : Dev}

theorem xBlockCheck_aligned (hup : d.dirUp (ch / 32) = true) (hb : d.blk ch t0 = some b) (hst : b.st = .accepted)
    (hl : (d.chan ch).lost = false) :
    xBlockCheck ch t0 flips [] d = afterCheck ch t0 flips d (checkBlk (ch % 32) t0 b.data flips) := by
  simp only [xBlockCheck, List.foldl_nil, hb, hst, hup, hl, ne_eq, not_true_eq_false, Bool.true_eq_false,
    Bool.false_eq_true, or_self, if_false]
  cases checkBlk (ch % 32) t0 b.data flips with
  | pass => simp only [afterCheck, hl]
  | fail => rfl
  | seq => rfl
  | marker => by_cases hm : (d.chan ch).miss = 0 <;> simp [afterCheck, hm, Nat.one_le_iff_ne_zero]

theorem xBlockCheck_unaligned (hup : d.dirUp (ch / 32) = true) (hb : d.blk ch t0 = some b) (hst : b.st = .accepted)
    (hl : (d.chan ch).lost = true) :
    xBlockCheck ch t0 flips [] d = d.modBlk ch t0 (fun x => { x with st := .lost 3, flips := flips }) := by
  simp only [xBlockCheck, List.foldl_nil, hb, hst, hup, hl, ne_eq, not_true_eq_false, Bool.true_eq_false, or_self,
    if_false, if_true]

theorem xBlockCheck_nothing (h : d.dirUp (ch / 32) = false ∨ d.blk ch t0 = none) : xBlockCheck ch t0 flips [] d = d := by
  rcases h with h | h
  · simp only [xBlockCheck, List.foldl_nil, h, or_true, if_true]
    cases d.blk ch t0 <;> rfl
  · simp only [xBlockCheck, List.foldl_nil, h]

end

/-! ### RESEND (07 R199, R201, R203, R211) -/

section
variable {dir t0 i : Nat} {d : Dev}

/-- An ACK that arrives as it was sent is 1, but where the block was rejected and is not a filler. -/
theorem ackOf_clean (ch : Nat) (filler : Bool) :
    d.ackOf ch t0 filler [] = if filler = false ∧ d.rejectedBlk ch t0 = true then 2 else 1 := by
  unfold Dev.ackOf Dev.rejectedBlk
  cases d.blk ch t0 with
  | none => simp
  | some b => by_cases hst : b.st = .accepted <;> cases filler <;> simp [hst]

theorem ackOf_clean_cases (ch : Nat) (filler : Bool) : d.ackOf ch t0 filler [] = 1 ∨ d.ackOf ch t0 filler [] = 2 := by
  rw [ackOf_clean]
  split
  · exact .inr rfl
  · exact .inl rfl

/-- The ports of a direction that a NACK names, where every ACK arrives as it was sent. -/
def nackedPorts (dir t0 : Nat) (filler : Bool) (d : Dev) : List Nat :=
  (upTo 32).filter (fun i => !filler && d.rejectedBlk (dir * 32 + i) t0)

theorem rejectedBlk_isSome {ch : Nat} (h : d.rejectedBlk ch t0 = true) : (d.blk ch t0).isSome = true := by
  unfold Dev.rejectedBlk at h
  cases hb : d.blk ch t0 with
  | none => simp [hb] at h
  | some b => rfl

/-- The ACKs of a direction's ports for the block time `t0`, as they arrive where none is disturbed. -/
def cleanAcks (dir t0 : Nat) (filler : Bool) (d : Dev) : List (Nat × Nat) :=
  (upTo 32).map (fun i => (dir * 32 + i, d.ackOf (dir * 32 + i) t0 filler []))

theorem cleanAcks_uncounted (filler : Bool) :
    (cleanAcks dir t0 filler d).foldl (fun x a => if a.2 = 0 ∨ a.2 = 3 then x.bump (dirReg dir .ACK_ERR_CNT) else x) d = d := by
  refine foldl_fixed_of_mem fun a ha => if_neg ?_
  obtain ⟨i, -, rfl⟩ := List.mem_map.1 ha
  rcases ackOf_clean_cases (d := d) (t0 := t0) (dir * 32 + i) filler with h | h <;> simp [h]

theorem cleanAcks_nacked (filler : Bool) :
    ((cleanAcks dir t0 filler d).filter (fun a => !filler && decide (a.2 ≠ 1) && (d.blk a.1 t0).isSome)).map (fun a => a.1)
      = (nackedPorts dir t0 filler d).map (fun i => dir * 32 + i) := by
  rw [cleanAcks, List.filter_map, List.map_map, nackedPorts]
  refine congrArg (List.map _) (List.filter_congr fun i _ => ?_)
  cases filler with
  | true => rfl
  | false =>
    by_cases hr : d.rejectedBlk (dir * 32 + i) t0 = true
    · simp [ackOf_clean, hr, rejectedBlk_isSome hr]
    · simp [ackOf_clean, hr]

theorem xResend_nothing {filler : Bool} (h : nackedPorts dir t0 filler d = []) : xResend dir t0 filler [] d = d := by
  have hn := cleanAcks_nacked (dir := dir) (t0 := t0) (d := d) filler
  have hc := cleanAcks_uncounted (dir := dir) (t0 := t0) (d := d) filler
  rw [h] at hn
  rw [cleanAcks] at hn hc
  simp only [xResend, hn, hc, List.map_nil, List.zip_nil_left, List.drop_nil, List.foldl_nil, ite_self]

/-- A single NACK takes retry lane 0, where every lane is enabled. -/
theorem xResend_one (hup : d.dirUp dir = true) (h : nackedPorts dir t0 false d = [i])
    (hlanes : getBits (d.reg (dirReg dir .DIR_CFG)) 27 24 = 0) :
    xResend dir t0 false [] d = d.modBlk (dir * 32 + i) t0 (fun x => { x with lane := some 0 }) := by
  have hn := cleanAcks_nacked (dir := dir) (t0 := t0) (d := d) false
  have hc := cleanAcks_uncounted (dir := dir) (t0 := t0) (d := d) false
  have hall : (upTo 4).filter (fun r => !(0 : Nat).testBit r) = [0, 1, 2, 3] := rfl
  rw [h] at hn
  rw [cleanAcks] at hn hc
  simp only [xResend, hup, hn, hc, hlanes, hall, Bool.true_eq_false, if_false]
  rfl

theorem rejectedBlk_none {ch : Nat} (h : d.blk ch t0 = none) : d.rejectedBlk ch t0 = false := by
  rw [Dev.rejectedBlk, h]

theorem rejectedBlk_some {ch : Nat} {b : LBlk} (hb : d.blk ch t0 = some b) (hst : b.st = .rejected) :
    d.rejectedBlk ch t0 = true := by
  rw [Dev.rejectedBlk, hb]
  simp [hst]

theorem nackedPorts_none (h : ∀ j, j < 32 → d.blk (dir * 32 + j) t0 = none) : nackedPorts dir t0 false d = [] :=
  List.filter_eq_nil_iff.2 fun j hj => by simp [rejectedBlk_none (h j (List.mem_range.1 hj))]

theorem nackedPorts_filler : nackedPorts dir t0 true d = [] :=
  List.filter_eq_nil_iff.2 fun _ _ => by simp

end

/-! ### RETRY_CHECK (07 R204, R205, R207) -/

@[simp] theorem flipData_nil (data : List Word) : flipData data [] = data := by
  simp [flipData]

theorem crc12_lt (port seq : Nat) (data : List Word) : crc12 port seq data < 2 ^ 12 := by
  refine List.foldlRecOn (motive := fun c : Nat => c < 2 ^ 12) _ _ (by decide) fun c _ x _ => ?_
  have hc : c * 2 % 4096 < 2 ^ 12 := Nat.mod_lt _ (by decide)
  rw [crc12Bit]
  split
  · exact Nat.xor_lt_two_pow hc (by decide)
  · exact hc

theorem sideCrc_lt (port t0 : Nat) (data : List Word) : sideCrc port t0 data < 2 ^ 12 :=
  Nat.xor_lt_two_pow (crc12_lt _ _ _) (by split <;> decide)

/-- A copy that arrives as it was sent carries the CRC of its port and block. -/
theorem recvCopy_clean_crc (i t0 : Nat) (data : List Word) :
    (recvCopy i t0 data []).2 % 4096 = sideCrc i t0 (recvCopy i t0 data []).1 := by
  have h := sideCrc_lt i t0 data
  simp only [recvCopy, flipData_nil, flipSide, List.foldl_nil]
  omega

section
variable {dir t0 i : Nat} {b : LBlk} {d : Dev}

/-- Of a direction's blocks of one block time, port `i` alone has one: `b`, which its receiver rejected. -/
structure OnlyRejected (dir t0 i : Nat) (b : LBlk) (d : Dev) : Prop where
  port : i < 32
  blk : d.blk (dir * 32 + i) t0 = some b
  rejected : b.st = .rejected
  others : ∀ j, j < 32 → j ≠ i → d.blk (dir * 32 + j) t0 = none

theorem OnlyRejected.nackedPorts (h : OnlyRejected dir t0 i b d) : nackedPorts dir t0 false d = [i] :=
  filter_upTo_only h.port (by simp [rejectedBlk_some h.blk h.rejected])
    fun j hj hne => by simp [rejectedBlk_none (h.others j hj hne)]

theorem OnlyRejected.laneCopies (h : OnlyRejected dir t0 i b d) :
    d.laneCopies dir t0 [] = (b.lane.map (fun r => (r, i, recvCopy i t0 b.data []))).toList := by
  refine (filterMap_upTo_only h.port fun j hj hne => ?_).trans ?_
  · rw [h.others j hj hne]
  · rw [h.blk]
    rfl

theorem OnlyRejected.laneMatch (h : OnlyRejected dir t0 i b d) (data : List Word) :
    d.laneMatch dir t0 (recvCopy i t0 data []) = some i :=
  find?_upTo_only h.port (by simp [rejectedBlk_some h.blk h.rejected, recvCopy_clean_crc])
    fun j hj hne => by simp [rejectedBlk_none (h.others j hj hne)]

theorem retryEnd_none {ch : Nat} (k : Clk) (h : d.blk ch t0 = none) : d.retryEnd t0 k ch = d := by
  simp only [Dev.retryEnd, h]

theorem retryEnd_accepted {ch : Nat} (k : Clk) (hb : d.blk ch t0 = some b) (hst : b.st = .accepted) (hl : b.lane = none) :
    d.retryEnd t0 k ch = d := by
  simp only [Dev.retryEnd, hb, hst, hl]

theorem retryEnd_unsent {ch : Nat} {k : Clk} (hb : d.blk ch t0 = some b) (hst : b.st = .rejected) (hl : b.lane = none)
    (hk : k.dtime ≠ t0 + 13) : d.retryEnd t0 k ch = d.loseBlk ch t0 2 := by
  simp only [Dev.retryEnd, hb, hst, hl, Option.isSome_none, Bool.false_eq_true, if_false, if_neg hk]

/-- A rejected block whose data `data` a clean resend has brought. -/
def resentBlk (data : List Word) (x : LBlk) : LBlk := { x with st := .accepted, data := flipData data [], lane := none }

/-- What a clean resend of block `b` of port `i` leaves: the block accepted, the resend counted, and the wires counted on
which the two copies differ (07 R204, R207). -/
def resent (dir t0 i : Nat) (b : LBlk) (d : Dev) : Dev :=
  (wireDiff i (recvCopy i t0 b.data b.flips) (recvCopy i t0 b.data [])).foldl (fun x w => x.wireErr dir w)
    ((d.modBlk (dir * 32 + i) t0 (resentBlk b.data)).bump (dirReg dir .RETRY_CNT))

theorem resent_leap : (resent dir t0 i b d).leap = (d.modBlk (dir * 32 + i) t0 (resentBlk b.data)).leap :=
  List.foldlRecOn (motive := fun x : Dev => x.leap = _) _ _ rfl fun _ hx _ _ => (wireErr_leap _ _ _).trans hx

theorem OnlyRejected.retryLane (h : OnlyRejected dir t0 i b d) (r : Nat) :
    d.retryLane dir t0 (some i) (r, i, recvCopy i t0 b.data []) = resent dir t0 i b d := by
  simp only [Dev.retryLane, h.blk, h.rejected, if_true]
  rfl

theorem OnlyRejected.xRetryCheck_resent (h : OnlyRejected dir t0 i b d) {r : Nat} (hr : b.lane = some r) (k : Clk) :
    xRetryCheck dir t0 [] k d = resent dir t0 i b d := by
  have hown : (resent dir t0 i b d).blk (dir * 32 + i) t0 = some (resentBlk b.data b) := by
    rw [blk_of_chan (chan_of_leap resent_leap _), blk_modBlk_self _ _ _ (f := resentBlk b.data) fun _ => rfl, h.blk]
    rfl
  have hothers : ∀ j, j < 32 → j ≠ i → (resent dir t0 i b d).blk (dir * 32 + j) t0 = none := fun j hj hne => by
    rw [blk_of_chan (chan_of_leap resent_leap _), blk_of_chan (chan_modBlk_other _ _ _ (by omega)), h.others j hj hne]
  simp only [xRetryCheck, h.laneCopies, hr, Option.map_some, Option.toList_some, List.foldl_cons, List.foldl_nil,
    h.laneMatch, h.retryLane]
  refine foldl_fixed_of_mem fun j hj => ?_
  by_cases hji : j = i
  · subst hji
    exact retryEnd_accepted k hown rfl rfl
  · exact retryEnd_none k (hothers j (List.mem_range.1 hj) hji)

end

/-! ### The end of a block (07 R205) -/

section
variable {d : Dev} {ch t0 cause : Nat}

theorem logFirst_eq (x : RKey) (r : Nat) :
    d.logFirst x r = if (d.reg x).getLsbD 63 then d.setBit x 62 true
      else d.setRegN x (2 ^ 63 + r % 2 ^ 62 + (if (d.reg x).getLsbD 62 then 2 ^ 62 else 0)) := rfl

@[simp] theorem logFirst_leap (x : RKey) (r : Nat) : (d.logFirst x r).leap = d.leap := by
  rw [logFirst_eq]
  split
  · exact Laws.setBit_leap _ _ _ _
  · exact Laws.setRegN_leap _ _ _

@[simp] theorem leapFault_leap (ch cause t0 : Nat) : (d.leapFault ch cause t0).leap = d.leap :=
  (raise_leap _ _ _).trans (logFirst_leap _ _)

/-- A lost block, its fault recorded. -/
def lostBlk (cause : Nat) (b : LBlk) : LBlk := { b with st := .lost cause, noted := true }

theorem loseBlk_none (h : d.blk ch t0 = none) : d.loseBlk ch t0 cause = d := by
  simp only [Dev.loseBlk, h]

theorem loseBlk_some {b : LBlk} (h : d.blk ch t0 = some b) :
    d.loseBlk ch t0 cause = if b.noted then d.modBlk ch t0 (lostBlk cause)
      else (d.modBlk ch t0 (lostBlk cause)).leapFault ch cause t0 := by
  simp only [Dev.loseBlk, h]
  rfl

theorem loseBlk_leap {b : LBlk} (h : d.blk ch t0 = some b) :
    (d.loseBlk ch t0 cause).leap = (d.modBlk ch t0 (lostBlk cause)).leap := by
  rw [loseBlk_some h]
  split
  · rfl
  · exact leapFault_leap _ _ _

theorem chan_loseBlk_other {j : Nat} (h : j ≠ ch) : (d.loseBlk ch t0 cause).chan j = d.chan j := by
  cases hb : d.blk ch t0 with
  | none => rw [loseBlk_none hb]
  | some b => rw [chan_of_leap (loseBlk_leap hb), chan_modBlk_other _ _ _ h]

/-- In a channel's line every block of that block time is lost. -/
theorem line_loseBlk_self : ((d.loseBlk ch t0 cause).chan ch).line
    = (d.chan ch).line.map (fun b => if b.t0 = t0 then lostBlk cause b else b) := by
  cases hb : d.blk ch t0 with
  | none =>
    have hno : ∀ b, b ∈ (d.chan ch).line → ¬ b.t0 = t0 := by
      simpa [Dev.blk] using hb
    rw [loseBlk_none hb]
    rw [List.map_congr_left fun b hb => if_neg (hno b hb), List.map_id']
  | some b => rw [chan_of_leap (loseBlk_leap hb), chan_modBlk_self]

end

theorem OnlyRejected.xRetryCheck_unsent {dir t0 i : Nat} {b : LBlk} {d : Dev} (h : OnlyRejected dir t0 i b d)
    (hl : b.lane = none) {k : Clk} (hk : k.dtime ≠ t0 + 13) : xRetryCheck dir t0 [] k d = d.loseBlk (dir * 32 + i) t0 2 := by
  have hend : d.retryEnd t0 k (dir * 32 + i) = d.loseBlk (dir * 32 + i) t0 2 := retryEnd_unsent h.blk h.rejected hl hk
  simp only [xRetryCheck, h.laneCopies, hl, Option.map_none, Option.toList_none, List.foldl_nil]
  refine (foldl_upTo_only h.port (fun j hj hne => retryEnd_none k (h.others j hj hne)) fun j hj hne => ?_).trans hend
  refine retryEnd_none k ?_
  rw [hend, blk_of_chan (chan_loseBlk_other (by omega)), h.others j hj hne]

/-! ### DELAY_LINE_RELEASE and RATE_WINDOW (07 R194, R202, R205, R207) -/

section
variable {ch : Nat} {b : LBlk} {k : Clk} {d : Dev}

/-- The element of block `b` that is V in executed cycle `t`. -/
def elementAt (b : LBlk) (t : Nat) : Word := if b.st = .accepted then b.data.getD (t - b.t0 - 14) 0 else 0

/-- The line of a channel whose one block is `b`, after what executed cycle `t` takes from it. -/
def dropLine (ch : Nat) (b : LBlk) (t : Nat) (d : Dev) : Dev :=
  d.setChan ch { d.chan ch with line := if t < b.t0 + 17 then [b] else [] }

theorem filter_line (t : Nat) : [b].filter (fun b => decide (t < b.t0 + 17)) = if t < b.t0 + 17 then [b] else [] := by
  by_cases h : t < b.t0 + 17 <;> simp [h]

theorem xDelayLineRelease_shows {w : Word} (hline : (d.chan ch).line = [b]) (h1 : b.t0 + 14 ≤ k.dtime)
    (h2 : k.dtime < b.t0 + 18) (hw : d.leapInBind ch = some w) :
    xDelayLineRelease ch k d =
      let T := tileOf (leapTo ch) (getBits w 53 48)
      let d1 := dropLine ch b k.dtime d
      d1.setTport T (getBits w 40 40) { d1.tport T (getBits w 40 40) with leapV := elementAt b k.dtime } := by
  have hfind : [b].find? (fun b => decide (b.t0 + 14 ≤ k.dtime) && decide (k.dtime < b.t0 + 18)) = some b := by
    simp [h1, h2]
  simp only [xDelayLineRelease, hline, hfind, hw, filter_line]
  rfl

theorem xDelayLineRelease_nothing (hline : (d.chan ch).line = [b])
    (h : d.leapInBind ch = none ∨ k.dtime < b.t0 + 14) : xDelayLineRelease ch k d = dropLine ch b k.dtime d := by
  cases hw : d.leapInBind ch with
  | none =>
    simp only [xDelayLineRelease, hline, hw, filter_line]
    rfl
  | some w =>
    have hlt : k.dtime < b.t0 + 14 := h.resolve_left (by simp [hw])
    have hfind : [b].find? (fun b => decide (b.t0 + 14 ≤ k.dtime) && decide (k.dtime < b.t0 + 18)) = none := by
      simp [Nat.not_le.2 hlt]
    simp only [xDelayLineRelease, hline, hfind, hw, filter_line]
    rfl

end

theorem aget_filter {κ α : Type} [DecidableEq κ] (x : α) (m : Assoc κ α) (p : κ → Bool) (k : κ) :
    aget x (m.filter (fun e => p e.1)) k = if p k then aget x m k else x := by
  induction m with
  | nil => simp [aget]
  | cons e m ih =>
    obtain ⟨k', v⟩ := e
    cases hp : p k' with
    | false =>
      rw [List.filter_cons_of_neg (by simp [hp]), ih, aget]
      by_cases hk : k' = k
      · simp [← hk, hp]
      · simp [hk]
    | true =>
      rw [List.filter_cons_of_pos (by simp [hp]), aget, ih, aget]
      by_cases hk : k' = k
      · simp [← hk, hp]
      · simp [hk]

theorem reg_resetRegs (d : Dev) (p : RKey → Bool) (x : RKey) :
    (d.resetRegs p).reg x = if p x then regReset x else d.reg x := by
  rw [Dev.reg, Dev.resetRegs, aget_filter (regReset x) d.regs (fun y => !p y) x, Dev.reg]
  cases p x <;> rfl

/-! ### REALIGNMENT (07 R208) -/

theorem xRealignment_clean (ch : Nat) (d : Dev) : xRealignment ch [] d =
    if (d.chan ch).lost then d.setChan ch { d.chan ch with lost := false, miss := 0 } else d := rfl

/-- Settles O1: each clause is one outcome of its row; where one port of a direction has a rejected block, the folds over its
ports come down to that one. -/
theorem leapBlocks : Obligations.LeapBlocks := by
  refine ⟨⟨fun ch t0 flips b s hup hb hst hl => ?check, fun ch t0 flips b s hup hb hst hl => ?unaligned,
    fun ch t0 flips s h => next_congr (xBlockCheck_nothing h)⟩, ⟨fun dir t0 i b s hup hi hb hst hoth hlanes => ?resend,
    fun dir t0 s h => ?resendNothing, fun dir t0 s => next_congr (xResend_nothing nackedPorts_filler)⟩,
    ⟨fun dir t0 i r b s hi hb hst hr hoth => ?resent, fun dir t0 i b s hi hb hst hl hoth hk => ?unsent⟩,
    ⟨fun ch b w s hline h1 h2 hw => next_congr (xDelayLineRelease_shows hline h1 h2 hw),
      fun ch b s hline h => next_congr (xDelayLineRelease_nothing hline h)⟩,
    fun ch s => ⟨rfl, rfl⟩, fun dir s => ?rateWindow, fun ch s => ?realignment⟩
  case check =>
    have heq := xBlockCheck_aligned (flips := flips) hup hb hst hl
    refine ⟨fun h => next_congr ?_, fun h => next_congr ?_, fun h hm => next_congr ?_, fun h hm => next_congr ?_,
      fun h hm => next_congr ?_, fun h hm => next_congr ?_⟩
    · rw [heq, h]
      rfl
    · rw [heq, h]
      rfl
    · rw [heq, h, afterCheck, hm]
      rfl
    · rw [heq, h, afterCheck, hm]
      rfl
    · rw [heq, h, afterCheck, if_pos hm]
    · rw [heq, h, afterCheck, if_neg hm]
  case unaligned => exact next_congr (xBlockCheck_unaligned hup hb hst hl)
  case resend =>
    have honly : OnlyRejected dir t0 i b s.d := ⟨hi, hb, hst, hoth⟩
    exact next_congr (xResend_one hup honly.nackedPorts hlanes)
  case resendNothing =>
    rcases h with h | h
    · exact next_congr (xResend_nothing (nackedPorts_none h))
    · exact next_congr (if_pos h)
  case resent =>
    have honly : OnlyRejected dir t0 i b s.d := ⟨hi, hb, hst, hoth⟩
    exact next_congr (honly.xRetryCheck_resent hr s.clk)
  case unsent =>
    have honly : OnlyRejected dir t0 i b s.d := ⟨hi, hb, hst, hoth⟩
    exact next_congr (honly.xRetryCheck_unsent hl hk)
  case rateWindow =>
    refine ⟨_, rfl, fun w => ?_, fun x hx => ?_, rfl⟩
    · exact (reg_resetRegs _ _ _).trans (if_pos (by simp [dirReg, R.at]))
    · exact (reg_resetRegs _ _ _).trans (if_neg (by simpa [and_assoc] using hx))
  case realignment =>
    refine ⟨fun h => next_congr ?_, fun h => next_congr ?_⟩
    · rw [xRealignment_clean, if_pos h]
    · rw [xRealignment_clean, if_neg (ne_true_of_eq_false h)]

end Sys2Proof.Proofs

namespace Sys2Proof.Proofs

open Sys2Proof.Machine Sys2Proof.Safety

/-! Bridges and NoC sub-links (07 R205, R209–R215). -/

/-! ### Direction states -/

section
variable (d : Dev) (dir st : Nat)

/-- Registers of two names are two registers. -/
theorem key_ne {x y : RKey} (h : x.r ≠ y.r) : x ≠ y := mt (congrArg RKey.r) h

@[simp] theorem dirReg_r (r : R) (k : Nat) : (dirReg dir r k).r = r := rfl
@[simp] theorem brReg_r (br : Nat) (r : R) : (brReg br r).r = r := rfl
@[simp] theorem at_r (r : R) (q i j k : Nat) : (r.at q i j k).r = r := rfl

theorem setDirState_state :
    getBits ((d.setDirState dir st).reg (dirReg dir .DIR_STAT)) 31 28 = st % 2 ^ 4 := by
  have hne : dirReg dir .DIR_STAT ≠ brReg (dir / 2) .BR_STAT := key_ne (by simp)
  rw [Dev.setDirState, Laws.setBit_eq, Laws.reg_setReg_other _ _ hne, Laws.reg_setReg_self,
    Laws.getBits_putBits_other _ _ _ _ _ _ (by decide) (by decide) (by decide),
    Laws.getBits_putBits_self _ _ _ _ (by decide) (by decide)]

theorem setDirState_reg_other {x : RKey} (h1 : x.r ≠ .DIR_STAT) (h2 : x.r ≠ .BR_STAT) :
    (d.setDirState dir st).reg x = d.reg x := by
  rw [Dev.setDirState, Laws.setBit_eq, Laws.reg_setReg_other _ _ (key_ne h2), Laws.reg_setReg_other _ _ (key_ne h1)]

theorem setReg_regs (x : RKey) (v : Word) : ∃ rs, d.setReg x v = { d with regs := rs } := ⟨_, rfl⟩

theorem setDirState_regs : ∃ rs, d.setDirState dir st = { d with regs := rs } := by
  unfold Dev.setDirState
  extract_lets x lanes
  obtain ⟨rs, h⟩ := setReg_regs d x (putBits (putBits (d.reg x) 31 28 st) 11 8 lanes)
  rw [Laws.setBit_eq, h]
  exact setReg_regs _ _ _

@[simp] theorem setDirState_leap : (d.setDirState dir st).leap = d.leap :=
  (Laws.setBit_leap _ _ _ _).trans (Laws.setReg_leap _ _ _)

@[simp] theorem setDirState_repairs : (d.setDirState dir st).repairs = d.repairs :=
  (Laws.setBit_repairs _ _ _ _).trans (Laws.setReg_repairs _ _ _)

end

/-! ### LFCLK_LOSS (07 R205) -/

/-- From chip `d` to chip `e` some blocks of direction `dir` were lost: the direction's channels, the fault registers and the
event latches alone differ. -/
structure BlocksLost (dir : Nat) (d e : Dev) : Prop where
  frame : ∃ rs ls os, e = { d with regs := rs, leap := ls, occ := os }
  regs : ∀ x : RKey, x.r ≠ .FAULT_CNT → x.r ≠ .FAULT_LOG → e.reg x = d.reg x
  chans : ∀ ch, ch / 32 ≠ dir → e.chan ch = d.chan ch

section
variable {dir : Nat} {d e f : Dev}

theorem BlocksLost.refl : BlocksLost dir d d := ⟨⟨_, _, _, rfl⟩, fun _ _ _ => rfl, fun _ _ => rfl⟩

theorem BlocksLost.trans (h : BlocksLost dir d e) (h' : BlocksLost dir e f) : BlocksLost dir d f := by
  obtain ⟨⟨_, _, _, hde⟩, hr, hc⟩ := h
  obtain ⟨⟨rs, ls, os, hef⟩, hr', hc'⟩ := h'
  exact ⟨⟨rs, ls, os, by rw [hef, hde]⟩, fun x h1 h2 => (hr' x h1 h2).trans (hr x h1 h2),
    fun ch hch => (hc' ch hch).trans (hc ch hch)⟩

theorem BlocksLost.foldl {α : Type} {l : List α} {step : Dev → α → Dev}
    (h : ∀ a, a ∈ l → ∀ x, BlocksLost dir x (step x a)) : BlocksLost dir d (l.foldl step d) :=
  List.foldlRecOn (motive := BlocksLost dir d) l step .refl fun _ hx a ha => hx.trans (h a ha _)

/-- A first-record log writes its own register alone. -/
theorem logFirst_setReg (x : RKey) (r : Nat) : ∃ v, d.logFirst x r = d.setReg x v := by
  rw [logFirst_eq]
  split
  · exact ⟨_, rfl⟩
  · exact ⟨_, rfl⟩

theorem BlocksLost.setReg {x : RKey} (hx : x.r = .FAULT_CNT ∨ x.r = .FAULT_LOG) (v : Word) :
    BlocksLost dir d (d.setReg x v) :=
  ⟨⟨_, d.leap, d.occ, rfl⟩, fun y h1 h2 => Laws.reg_setReg_other _ _ (by rintro rfl; exact hx.elim h1 h2), fun _ _ => rfl⟩

theorem BlocksLost.raise (q n : Nat) : BlocksLost dir d (d.raise q n) := by
  rw [Laws.raise_eq]
  split
  · exact ⟨⟨_, _, _, rfl⟩, fun _ _ _ => rfl, fun _ _ => rfl⟩
  · exact .refl

theorem BlocksLost.leapFault {ch : Nat} (cause t0 : Nat) : BlocksLost dir d (d.leapFault ch cause t0) := by
  unfold Dev.leapFault
  extract_lets dir' slot rcd
  obtain ⟨v, hv⟩ := logFirst_setReg (d := d.bump (dirReg dir' .FAULT_CNT)) (dirReg dir' .FAULT_LOG) rcd
  rw [hv, Laws.bump_eq]
  exact ((BlocksLost.setReg (.inl rfl) _).trans (.setReg (.inr rfl) _)).trans (.raise _ _)

theorem BlocksLost.loseBlk {ch : Nat} (h : ch / 32 = dir) (t0 cause : Nat) : BlocksLost dir d (d.loseBlk ch t0 cause) := by
  cases hb : d.blk ch t0 with
  | none => rw [loseBlk_none hb]; exact .refl
  | some b =>
    have hmod : BlocksLost dir d (d.modBlk ch t0 (lostBlk cause)) :=
      ⟨⟨_, _, _, rfl⟩, fun _ _ _ => rfl, fun j hj => chan_modBlk_other _ _ _ fun hjc => hj (hjc ▸ h)⟩
    rw [loseBlk_some hb]
    split
    · exact hmod
    · exact hmod.trans (.leapFault cause t0)

end

/-- Every block under way to port `i` of a direction is lost for CLOCK. -/
def loseLine (dir : Nat) (d : Dev) (i : Nat) : Dev :=
  ((d.chan (dir * 32 + i)).line.map (fun b => b.t0)).foldl (fun x t0 => x.loseBlk (dir * 32 + i) t0 4) d

section
variable {dir i : Nat} {d : Dev}

theorem foldl_loseBlk_line (ch cause : Nat) (ts : List Nat) (d : Dev) :
    ((ts.foldl (fun x t0 => x.loseBlk ch t0 cause) d).chan ch).line
      = (d.chan ch).line.map (fun b => if b.t0 ∈ ts then lostBlk cause b else b) := by
  induction ts generalizing d with
  | nil => simp
  | cons t ts ih =>
    rw [List.foldl_cons, ih, line_loseBlk_self, List.map_map]
    refine List.map_congr_left fun b _ => ?_
    by_cases ht : b.t0 = t <;> by_cases hts : b.t0 ∈ ts <;> simp [ht, hts, lostBlk]

theorem loseLine_lost {b : LBlk} (hb : b ∈ ((loseLine dir d i).chan (dir * 32 + i)).line) : b.st = .lost 4 := by
  rw [loseLine, foldl_loseBlk_line] at hb
  obtain ⟨a, ha, rfl⟩ := List.mem_map.1 hb
  rw [if_pos (List.mem_map_of_mem ha)]
  rfl

theorem loseLine_other {ch : Nat} (h : ch ≠ dir * 32 + i) : (loseLine dir d i).chan ch = d.chan ch :=
  List.foldlRecOn (motive := fun x : Dev => x.chan ch = d.chan ch) _ _ rfl
    fun _ hx _ _ => (chan_loseBlk_other h).trans hx

theorem loseLine_blocksLost (hi : i < 32) : BlocksLost dir d (loseLine dir d i) :=
  .foldl fun t0 _ _ => .loseBlk (by omega) t0 4

/-- Once port `i` has lost its blocks, the turns of the ports after it leave them lost. -/
theorem loseLines_lost (hi : i < 32) {b : LBlk}
    (hb : b ∈ (((upTo 32).foldl (loseLine dir) d).chan (dir * 32 + i)).line) : b.st = .lost 4 := by
  obtain ⟨as, bs, hl, -, hbs⟩ := upTo_parts hi
  rw [hl, List.foldl_append, List.foldl_cons] at hb
  have hkeep : ∀ x : Dev, (bs.foldl (loseLine dir) x).chan (dir * 32 + i) = x.chan (dir * 32 + i) := fun x =>
    List.foldlRecOn (motive := fun y : Dev => y.chan (dir * 32 + i) = x.chan (dir * 32 + i)) _ _ rfl
      fun _ hy j hj => (loseLine_other (by have := (hbs j hj).2; omega)).trans hy
  rw [hkeep] at hb
  exact loseLine_lost hb

end

/-- A direction goes DOWN as its clock is lost, before its blocks do. -/
def clockDown (dir : Nat) (d : Dev) : Dev := { d with lfLost := nset false d.lfLost dir true }.setDirState dir 0

theorem xLfclkLoss_eq (dir : Nat) (d : Dev) : xLfclkLoss dir d = (upTo 32).foldl (loseLine dir) (clockDown dir d) := rfl

theorem xLfclkLoss_blocksLost (dir : Nat) (d : Dev) : BlocksLost dir (clockDown dir d) (xLfclkLoss dir d) :=
  .foldl fun _ hi _ => loseLine_blocksLost (List.mem_range.1 hi)

theorem xLfclkLoss_lost {dir i : Nat} {d : Dev} {b : LBlk} (hi : i < 32)
    (hb : b ∈ ((xLfclkLoss dir d).chan (dir * 32 + i)).line) : b.st = .lost 4 := by
  rw [xLfclkLoss_eq] at hb
  exact loseLines_lost hi hb

theorem clockDown_leap (dir : Nat) (d : Dev) : (clockDown dir d).leap = d.leap := setDirState_leap _ _ _

theorem clockDown_reg_other (dir : Nat) (d : Dev) {x : RKey} (h1 : x.r ≠ .DIR_STAT) (h2 : x.r ≠ .BR_STAT) :
    (clockDown dir d).reg x = d.reg x := setDirState_reg_other _ _ _ h1 h2

theorem clockDown_state (dir : Nat) (d : Dev) :
    getBits ((clockDown dir d).reg (dirReg dir .DIR_STAT)) 31 28 = 0 := setDirState_state _ _ _

theorem clockDown_frame (dir : Nat) (d : Dev) :
    ∃ rs, clockDown dir d = { d with lfLost := nset false d.lfLost dir true, regs := rs } := setDirState_regs _ _ _

/-- LFCLK_LOSS changes the clock's mark, the direction's state and blocks, and the records of the faults. -/
theorem exec_lfclkLoss_facts (dir : Nat) (s : State) : ∃ t, exec (.lfclkLoss dir) s = .next t ∧ t.d.clkLost dir = true ∧
    getBits (t.d.reg (dirReg dir .DIR_STAT)) 31 28 = 0 ∧
    (∀ i b, i < 32 → b ∈ (t.d.chan (dir * 32 + i)).line → b.st = .lost 4) ∧
    (∀ ch, ch / 32 ≠ dir → t.d.chan ch = s.d.chan ch) ∧
    (∀ x, x.r ≠ .DIR_STAT → x.r ≠ .BR_STAT → x.r ≠ .FAULT_CNT → x.r ≠ .FAULT_LOG → t.d.reg x = s.d.reg x) ∧
    t = { s with d := { s.d with lfLost := nset false s.d.lfLost dir true, regs := t.d.regs, leap := t.d.leap, occ := t.d.occ } } := by
  have hexec : exec (.lfclkLoss dir) s = .next { s with d := xLfclkLoss dir s.d } := rfl
  have hlost := fun i b hi hb => xLfclkLoss_lost (dir := dir) (i := i) (d := s.d) (b := b) hi hb
  obtain ⟨⟨rs, ls, os, hframe⟩, hregs, hchans⟩ := xLfclkLoss_blocksLost dir s.d
  obtain ⟨rs0, hdown⟩ := clockDown_frame dir s.d
  generalize xLfclkLoss dir s.d = e at hexec hlost hframe hregs hchans
  refine ⟨{ s with d := e }, hexec, ?_, ?_, hlost, fun ch hch => ?_, fun x h1 h2 h3 h4 => ?_, ?_⟩
  · rw [hframe, hdown]
    exact Laws.nget_nset_self false s.d.lfLost dir true
  · rw [hregs _ (by simp) (by simp)]
    exact clockDown_state dir s.d
  · rw [hchans ch hch]
    exact chan_of_leap (clockDown_leap dir s.d) ch
  · rw [hregs x h3 h4]
    exact clockDown_reg_other dir s.d h1 h2
  · rw [hframe, hdown]

/-! ### BRIDGE_TRAINING (07 R209, R215) -/

section
variable {br : Nat} {p : BridgeTest} {d : Dev}

theorem xBridgeTraining_trains (h : d.bridgesTrain = true) : xBridgeTraining br p d =
    if identityCode Config.fuseQpos ≠ 0 then d.identityFail (identityCode Config.fuseQpos)
    else if p.clkOk = false ∨ sparesEnough p.fail0 p.bad0 = false ∨ sparesEnough p.fail1 p.bad1 = false then
      d.bridgeFail br 0x24
    else if p.nslOk = false ∨ 4 < p.nsl0.length ∨ 4 < p.nsl1.length then d.bridgeFail br 0x25
    else
      let d1 := (d.trainDir (br * 2) p.fail0 p.bad0).trainDir (br * 2 + 1) p.fail1 p.bad1
      let d2 := ((d1.trainNsl (br * 2) p.nsl0).trainNsl (br * 2 + 1) p.nsl1).prbsStart br
      d2.setReg (brReg br .BR_STAT) (putBits (d2.reg (brReg br .BR_STAT)) 23 16 0) := by
  simp only [xBridgeTraining, h, Bool.true_eq_false, if_false, Bool.or_eq_true, Bool.not_eq_true', decide_eq_true_eq, or_assoc]

end

/-! ### REPAIR and RETRAIN (07 R210) -/

section
variable {m : Mst} {q pg br dir kind : Nat} {d : Dev}

theorem leap_quarter (hq : q = 0 ∨ q = 3) : ¬ (q ≠ 0 ∧ q ≠ 3) := by omega

theorem xRepair_owner (hm : m.oid = 0) (hq : q = 0 ∨ q = 3) :
    xRepair m q pg dir d = (d.repairOrder (brOf q pg) dir 1).okay := by
  rw [xRepair, if_neg (not_denied hm), if_neg (leap_quarter hq)]

theorem xRetrain_owner (hm : m.oid = 0) (hq : q = 0 ∨ q = 3) :
    xRetrain m q pg dir d = (d.repairOrder (brOf q pg) dir 2).okay := by
  rw [xRetrain, if_neg (not_denied hm), if_neg (leap_quarter hq)]

/-- A repair or retrain of a direction starts. -/
def startRepair (br dir kind : Nat) (d : Dev) : Dev :=
  let d1 := (d.setRegN (brReg br .REPAIR_STAT) (2 ^ 31 + dir % 2 * 2 ^ 8)).setDirState (br * 2 + dir % 2) 3
  { d1 with repairs := nset 0 d1.repairs br kind }

theorem repairOrder_busy (h : (d.reg (brReg br .REPAIR_STAT)).getLsbD 31 = true) : d.repairOrder br dir kind =
    d.setReg (brReg br .REPAIR_STAT) (putBits (d.reg (brReg br .REPAIR_STAT)) 27 24 4) := if_pos h

/-- An order that no running repair holds back is decided by the direction. -/
theorem repairOrder_free (h : (d.reg (brReg br .REPAIR_STAT)).getLsbD 31 = false) : d.repairOrder br dir kind =
    if d.dirLive (br * 2 + dir % 2) = true then d.setRegN (brReg br .REPAIR_STAT) (3 * 2 ^ 24 + dir % 2 * 2 ^ 8)
    else if kind = 1 ∧ d.dirUp (br * 2 + dir % 2) = false then
      d.setRegN (brReg br .REPAIR_STAT) (5 * 2 ^ 24 + dir % 2 * 2 ^ 8)
    else startRepair br dir kind d := if_neg (ne_true_of_eq_false h)

end

/-! ### REPAIR_DONE (07 R210) -/

section
variable {br dir w : Nat} {bad : List Nat} {d : Dev}

/-- No repair or retrain of the bridge runs any longer. -/
def endOrder (br : Nat) (d : Dev) : Dev := { d with repairs := nset 0 d.repairs br 0 }

/-- The direction that the order of a bridge names (REPAIR_STAT.DIR). -/
def orderedDir (br : Nat) (d : Dev) : Nat := br * 2 + getBits (d.reg (brReg br .REPAIR_STAT)) 8 8

/-- The end of a repair whose moves left the chip, the count of wires moved and the worst outcome `r`. -/
def endRepair (dir : Nat) (r : Dev × Nat × Nat) : Dev :=
  r.1.repairEnd dir (if r.2.2 = 0 then 1 else if r.2.2 = 1 then 2 else 5) r.2.1 2

theorem xRepairDone_repair (ok : Bool) (hk : nget 0 d.repairs br = 1) : xRepairDone br bad ok d =
    endRepair (orderedDir br d) ((endOrder br d).moveFlagged (orderedDir br d) bad) := by
  have h0 : ¬ nget 0 d.repairs br = 0 := by omega
  rw [xRepairDone, if_neg h0, if_pos hk, endRepair, endOrder, orderedDir]

/-- A retrain that holds brings the direction up with its ports aligned; one that does not leaves it FAILED. -/
theorem xRepairDone_retrain (hk : 2 ≤ nget 0 d.repairs br) :
    let dir := br * 2 + getBits (d.reg (brReg br .REPAIR_STAT)) 8 8
    let d0 : Dev := { d with repairs := nset 0 d.repairs br 0 }
    xRepairDone br bad true d
        = ({ d0.portsAligned dir with lfLost := nset false d.lfLost dir false } : Dev).repairEnd dir 1 0 2 ∧
      xRepairDone br bad false d = d0.repairEnd dir 5 0 4 := by
  have h0 : ¬ nget 0 d.repairs br = 0 := by omega
  have h1 : ¬ nget 0 d.repairs br = 1 := by omega
  constructor
  · rw [xRepairDone, if_neg h0, if_neg h1, if_pos rfl]
  · rw [xRepairDone, if_neg h0, if_neg h1, if_neg Bool.false_ne_true]

/-- Wire `w` is carried by spare `k`, and its flag is cleared. -/
def mapSpare (dir w k : Nat) (d : Dev) : Dev :=
  (d.setRegN (dirReg dir .SPARE_MAP k) (2 ^ 31 + w)).setBit (dirReg dir .WIRE_FLAG (w / 32)) (w % 32) false

/-- Where every spare is free and none fails, the lowest takes the wire. -/
theorem moveWire_unused (h : ∀ k, k < 24 → d.reg (dirReg dir .SPARE_MAP k) = 0) :
    d.moveWire dir w [] = (mapSpare dir w 0 d, 0) := by
  have hfree : (upTo 24).filter (fun k => getBits (d.reg (dirReg dir .SPARE_MAP k)) 31 30 == 0) = upTo 24 :=
    List.filter_eq_self.2 fun k hk => by rw [h k (List.mem_range.1 hk)]; rfl
  have htried : (upTo 24).takeWhile (fun k => ([] : List Nat).contains k) = [] := rfl
  have hold : (upTo 24).find? (fun j => d.regN (dirReg dir .SPARE_MAP j) == 2 ^ 31 + w) = none :=
    List.find?_eq_none.2 fun j hj => by
      have hne : (0 : Nat) ≠ 2 ^ 31 + w := by omega
      simpa [Dev.regN, h j (List.mem_range.1 hj)] using hne
  simp only [Dev.moveWire, hfree, htried, List.foldl_nil, List.length_nil, List.drop_zero, hold]
  rfl

theorem moveFlagged_one (hw : d.flagged dir = [w]) (h : ∀ k, k < 24 → d.reg (dirReg dir .SPARE_MAP k) = 0) :
    d.moveFlagged dir [] = (mapSpare dir w 0 d, 1, 0) := by
  simp only [Dev.moveFlagged, hw, List.foldl_cons, List.foldl_nil, moveWire_unused h]
  rfl

theorem mapSpare_wireFlag : (mapSpare dir w 0 d).wireFlag dir w = false := by
  have hw : w % 32 < 64 := by omega
  rw [mapSpare, Dev.wireFlag, Laws.setBit_eq, Laws.reg_setReg_self, Laws.getLsbD_putBits _ _ _ _ _ le_rfl hw]
  simp [b2n]

theorem mapSpare_spare (k : Nat) :
    (mapSpare dir w k d).reg (dirReg dir .SPARE_MAP k) = BitVec.ofNat 64 (2 ^ 31 + w) := by
  rw [mapSpare, Laws.setBit_eq, Laws.reg_setReg_other _ _ (key_ne (by simp)), Laws.setRegN_eq, Laws.reg_setReg_self]

variable (d dir) (res moved st : Nat)

theorem repairEnd_reg_other {x : RKey} (h1 : x.r ≠ .REPAIR_STAT) (h2 : x.r ≠ .DIR_STAT) (h3 : x.r ≠ .BR_STAT) :
    (d.repairEnd dir res moved st).reg x = d.reg x := by
  simp only [Dev.repairEnd, Dev.countFlags]
  rw [Laws.reg_setReg_other _ _ (key_ne h2), setDirState_reg_other _ _ _ h2 h3, Laws.reg_setReg_other _ _ (key_ne h2),
    Laws.setRegN_eq, Laws.reg_setReg_other _ _ (key_ne h1)]

theorem repairEnd_state :
    getBits ((d.repairEnd dir res moved st).reg (dirReg dir .DIR_STAT)) 31 28 = st % 2 ^ 4 := by
  simp only [Dev.repairEnd, Dev.countFlags]
  rw [Laws.reg_setReg_self, Laws.getBits_putBits_other _ _ _ _ _ _ (by decide) (by decide) (by decide), setDirState_state]

theorem repairEnd_result : (d.repairEnd dir res moved st).reg (brReg (dir / 2) .REPAIR_STAT)
    = BitVec.ofNat 64 (res * 2 ^ 24 + dir % 2 * 2 ^ 8 + Nat.min 255 moved) := by
  simp only [Dev.repairEnd, Dev.countFlags]
  rw [Laws.reg_setReg_other _ _ (key_ne (by simp)), setDirState_reg_other _ _ _ (by simp) (by simp),
    Laws.reg_setReg_other _ _ (key_ne (by simp)), Laws.setRegN_eq, Laws.reg_setReg_self]

theorem repairEnd_leap : (d.repairEnd dir res moved st).leap = d.leap :=
  (Laws.setReg_leap _ _ _).trans <| (setDirState_leap _ _ _).trans <|
    (Laws.setReg_leap _ _ _).trans (Laws.setRegN_leap _ _ _)

theorem repairEnd_repairs : (d.repairEnd dir res moved st).repairs = d.repairs :=
  (Laws.setReg_repairs _ _ _).trans <| (setDirState_repairs _ _ _).trans <|
    (Laws.setReg_repairs _ _ _).trans (Laws.setRegN_repairs _ _ _)

end

/-! ### DIR_CFG (07 R211, R217) -/

section
variable {m : Mst} {q pg dir v : Nat} {d : Dev}

/-- DIR_CFG holds the lanes and the threshold of `v` with the rate window `rw`; of a direction that is UP the lanes follow. -/
def putDirCfg (q pg dir v rw : Nat) (d : Dev) : Dev :=
  let y := R.DIR_STAT.at q pg dir
  let d1 := d.setRegN (R.DIR_CFG.at q pg dir) (bitsOf v 27 24 * 2 ^ 24 + rw * 2 ^ 16 + bitsOf v 15 0)
  if getBits (d.reg y) 31 28 = 2 then d1.setReg y (putBits (d.reg y) 11 8 (lanesOn (bitsOf v 27 24))) else d1

theorem xDirCfg_unlocked (hm : m.oid = 0) (hq : q = 0 ∨ q = 3) (hl : d.locked .LEAP q = false) : xDirCfg m q pg dir v d =
    if bitsOf v 20 16 < 16 ∨ 30 < bitsOf v 20 16 then
      ((putDirCfg q pg dir v (getBits (d.reg (R.DIR_CFG.at q pg dir)) 20 16) d).logWrite m (R.DIR_CFG.at q pg dir)
        .reserved).okay
    else (putDirCfg q pg dir v (bitsOf v 20 16) d).okay := by
  have hne : R.DIR_STAT.at q pg dir ≠ R.DIR_CFG.at q pg dir := key_ne (by simp)
  rw [xDirCfg, if_neg (not_denied hm), if_neg (leap_quarter hq), if_neg (ne_true_of_eq_false hl)]
  simp only [putDirCfg, Bool.or_eq_true, decide_eq_true_eq, Laws.setRegN_eq, Laws.reg_setReg_other _ _ hne]
  by_cases h : bitsOf v 20 16 < 16 ∨ 30 < bitsOf v 20 16
  · simp only [if_pos h]
  · simp only [if_neg h]

theorem xDirCfg_locked (hm : m.oid = 0) (hq : q = 0 ∨ q = 3) (hl : d.locked .LEAP q = true) :
    xDirCfg m q pg dir v d = d.refuseAs m (R.DIR_CFG.at q pg dir) .locked := by
  rw [xDirCfg, if_neg (not_denied hm), if_neg (leap_quarter hq), if_pos hl]

end

/-! ### The fields of a link frame (07 R212; LEAP-9) -/

/-- A field put above a number below `2 ^ n` gives a number below `2 ^ m`. -/
theorem add_field_lt {low v n w m : Nat} (hm : n + w = m) (hl : low < 2 ^ n) (hv : v < 2 ^ w) : low + v * 2 ^ n < 2 ^ m := by
  subst hm
  have h : (v + 1) * 2 ^ n ≤ 2 ^ w * 2 ^ n := Nat.mul_le_mul_right _ hv
  rw [pow_add]
  nlinarith

theorem field_lt {v n w m : Nat} (hm : n + w = m) (hv : v < 2 ^ w) : v * 2 ^ n < 2 ^ m :=
  lt_of_eq_of_lt (Nat.zero_add _).symm (add_field_lt hm (Nat.two_pow_pos n) hv)

/-- What stands above a field does not show in it. -/
theorem bitsOf_add_above {n k m hi lo : Nat} (h : hi < m) (hlo : lo ≤ hi) : bitsOf (n + k * 2 ^ m) hi lo = bitsOf n hi lo := by
  obtain ⟨i, hi'⟩ : ∃ i, m = lo + ((hi + 1 - lo) + i) := ⟨m - (hi + 1), by omega⟩
  have hk : k * 2 ^ m = 2 ^ lo * (2 ^ (hi + 1 - lo) * (k * 2 ^ i)) := by
    rw [hi', pow_add, pow_add]
    ring
  rw [bitsOf, bitsOf, hk, Nat.add_mul_div_left _ _ (Nat.two_pow_pos lo), Nat.add_mul_mod_self_left]

/-- The topmost field reads as it was put. -/
theorem bitsOf_top {low v hi lo w : Nat} (hw : hi + 1 - lo = w) (hl : low < 2 ^ lo) (hv : v < 2 ^ w) :
    bitsOf (low + v * 2 ^ lo) hi lo = v := by
  rw [bitsOf, hw, Nat.mul_comm, Nat.add_mul_div_left _ _ (Nat.two_pow_pos lo), Nat.div_eq_of_lt hl, Nat.zero_add,
    Nat.mod_eq_of_lt hv]

/-- The low 270 bits of a frame: flit, VC, TYPE and FSEQ; of an idle frame FSEQ alone. -/
def frameLow (x : NslDir) : Option (Nat × NslFlit) → Nat
  | some e => e.2.flit % 2 ^ 256 + e.2.vc % 4 * 2 ^ 256 + e.2.type % 4 * 2 ^ 258 + e.1 % 1024 * 2 ^ 260
  | none => x.next % 1024 * 2 ^ 260

section
variable (x : NslDir) (e : Nat × NslFlit) (o : Option (Nat × NslFlit)) (aack : Nat) (anak : Bool) (credit : Nat)

theorem nslBody_eq : nslBody x o aack anak credit
    = frameLow x o + aack % 1024 * 2 ^ 270 + b2n anak * 2 ^ 280 + credit % 256 * 2 ^ 281 := by
  cases o <;> rfl

theorem flit_lt : e.2.flit % 2 ^ 256 < 2 ^ 256 := Nat.mod_lt _ (Nat.two_pow_pos 256)

theorem flitVc_lt : e.2.flit % 2 ^ 256 + e.2.vc % 4 * 2 ^ 256 < 2 ^ 258 :=
  add_field_lt (w := 2) rfl (flit_lt e) (Nat.mod_lt _ (by decide))

theorem flitVcType_lt : e.2.flit % 2 ^ 256 + e.2.vc % 4 * 2 ^ 256 + e.2.type % 4 * 2 ^ 258 < 2 ^ 260 :=
  add_field_lt (w := 2) rfl (flitVc_lt e) (Nat.mod_lt _ (by decide))

theorem frameLow_lt : frameLow x o < 2 ^ 270 := by
  cases o with
  | some e => exact add_field_lt (w := 10) rfl (flitVcType_lt e) (Nat.mod_lt _ (by decide))
  | none => exact field_lt (w := 10) rfl (Nat.mod_lt _ (by decide))

/-- A field below the acknowledgement is one of the low part. -/
theorem nslBody_low {hi lo : Nat} (h : hi < 270) (hlo : lo ≤ hi) :
    bitsOf (nslBody x o aack anak credit) hi lo = bitsOf (frameLow x o) hi lo := by
  rw [nslBody_eq, bitsOf_add_above (by omega) hlo, bitsOf_add_above (by omega) hlo, bitsOf_add_above h hlo]

theorem nslBody_aack : bitsOf (nslBody x o aack anak credit) 279 270 = aack % 1024 := by
  rw [nslBody_eq, bitsOf_add_above (by decide) (by decide), bitsOf_add_above (by decide) (by decide)]
  exact bitsOf_top (w := 10) rfl (frameLow_lt x o) (Nat.mod_lt _ (by decide))

theorem testBit_eq_bitsOf (n i : Nat) : n.testBit i = decide (bitsOf n i i = 1) := by
  rw [Nat.testBit_eq_decide_div_mod_eq, bitsOf, Nat.add_sub_cancel_left, pow_one]

theorem nslBody_anak : (nslBody x o aack anak credit).testBit 280 = anak := by
  have hlow : frameLow x o + aack % 1024 * 2 ^ 270 < 2 ^ 280 :=
    add_field_lt (w := 10) rfl (frameLow_lt x o) (Nat.mod_lt _ (by decide))
  rw [testBit_eq_bitsOf, nslBody_eq, bitsOf_add_above (by decide) le_rfl,
    bitsOf_top (hi := 280) (w := 1) rfl hlow (by cases anak <;> decide)]
  cases anak <;> rfl

theorem nslBody_flit : bitsOf (nslBody x (some e) aack anak credit) 255 0 = e.2.flit % 2 ^ 256 := by
  have h := bitsOf_top (low := 0) (lo := 0) (hi := 255) (w := 256) rfl (by decide) (flit_lt e)
  rw [Nat.zero_add, pow_zero, Nat.mul_one] at h
  rw [nslBody_low _ _ _ _ _ (by decide) (by decide), frameLow, bitsOf_add_above (by decide) (by decide),
    bitsOf_add_above (by decide) (by decide), bitsOf_add_above (by decide) (by decide), h]

theorem nslBody_vc : bitsOf (nslBody x (some e) aack anak credit) 257 256 = e.2.vc % 4 := by
  rw [nslBody_low _ _ _ _ _ (by decide) (by decide), frameLow, bitsOf_add_above (by decide) (by decide),
    bitsOf_add_above (by decide) (by decide)]
  exact bitsOf_top (w := 2) rfl (flit_lt e) (Nat.mod_lt _ (by decide))

theorem nslBody_type : bitsOf (nslBody x (some e) aack anak credit) 259 258 = e.2.type % 4 := by
  rw [nslBody_low _ _ _ _ _ (by decide) (by decide), frameLow, bitsOf_add_above (by decide) (by decide)]
  exact bitsOf_top (w := 2) rfl (flitVc_lt e) (Nat.mod_lt _ (by decide))

theorem nslBody_fseq : bitsOf (nslBody x (some e) aack anak credit) 269 260 = e.1 % 1024 := by
  rw [nslBody_low _ _ _ _ _ (by decide) (by decide), frameLow]
  exact bitsOf_top (w := 10) rfl (flitVcType_lt e) (Nat.mod_lt _ (by decide))

theorem nslBody_idle_type : bitsOf (nslBody x none aack anak credit) 259 258 = 0 := by
  have h := bitsOf_add_above (n := 0) (k := x.next % 1024) (m := 260) (hi := 259) (lo := 258) (by decide) (by decide)
  rw [Nat.zero_add] at h
  rw [nslBody_low _ _ _ _ _ (by decide) (by decide), frameLow, h, bitsOf, Nat.zero_div, Nat.zero_mod]

end

/-! ### NSL_FRAME (07 R212, R213; assumption 133) -/

section
variable {d : Dev} {dir : Nat} {f : NslFlit}

@[simp] theorem nslDir_setNsl_self (d : Dev) (dir : Nat) (x : NslDir) : (d.setNsl dir x).nslDir dir = x :=
  Laws.nget_nset_self NslDir.zero d.nsl dir x

theorem nslDir_setNsl_other (d : Dev) {dir e : Nat} (x : NslDir) (h : e ≠ dir) : (d.setNsl dir x).nslDir e = d.nslDir e :=
  Laws.nget_nset_other NslDir.zero d.nsl x h

@[simp] theorem nslDir_send (d : Dev) (m : OutMsg) (e : Nat) : (d.send m).nslDir e = d.nslDir e := rfl
@[simp] theorem nslDir_bump (d : Dev) (x : RKey) (e : Nat) : (d.bump x).nslDir e = d.nslDir e := rfl
theorem send_out (d : Dev) (m : OutMsg) : (d.send m).out = { d.out with msgs := d.out.msgs ++ [m] } := rfl
theorem setNsl_out (d : Dev) (e : Nat) (y : NslDir) : (d.setNsl e y).out = d.out := rfl
theorem bump_setNsl (d : Dev) (x : RKey) (e : Nat) (y : NslDir) : (d.setNsl e y).bump x = (d.bump x).setNsl e y := rfl

theorem revDir_ne (dir : Nat) : revDir dir ≠ dir := by
  unfold revDir
  omega

/-- The sender that has sent its one waiting flit for the first time. -/
def sentFirst (x : NslDir) (f : NslFlit) : NslDir :=
  { x with wait := [], next := (x.next + 1) % 1024, buf := [(x.next, f)], sent := 1,
           used := nset 0 x.used f.vc (nget 0 x.used f.vc + 1) }

theorem pick_one {x : NslDir} (hwait : x.wait = [f]) (hbuf : x.buf = []) (hc : x.credit f.vc = true) : x.pick = some 0 := by
  have hany : [f].findIdx? (fun g => x.credit g.vc) = some 0 := by simp [List.findIdx?_cons, hc]
  by_cases hv : f.vc = 0
  · rw [hv] at hc
    simp [NslDir.pick, hwait, hbuf, List.findIdx?_cons, hv, hc]
  · simp [NslDir.pick, hwait, hbuf, List.findIdx?_cons, hv, hc]

theorem send_one {x : NslDir} (hwait : x.wait = [f]) (hbuf : x.buf = []) (hsent : x.sent = 0)
    (hc : x.credit f.vc = true) : x.send = (some (x.next, f), sentFirst x f) := by
  simp only [NslDir.send, pick_one hwait hbuf hc, hbuf, hwait, hsent, List.drop_nil, Option.bind_some,
    List.getElem?_cons_zero, Option.map_some]
  rfl

theorem send_idle {x : NslDir} (hwait : x.wait = []) (hbuf : x.buf.drop x.sent = []) : x.send = (none, x) := by
  have hpick : x.pick.bind (fun i => (x.wait[i]?).map (fun f => (i, f))) = none := by simp [hwait]
  simp only [NslDir.send, hbuf, hpick]

/-- The body of the frame that the sender of direction `dir` puts on the wires. -/
def frameBody (dir : Nat) (r : Option (Nat × NslFlit) × NslDir) (d : Dev) : Nat :=
  let y := d.nslDir (revDir dir)
  nslBody r.2 r.1 ((y.expect + 1023) % 1024) y.nak y.creditField

theorem frameBody_anak (r : Option (Nat × NslFlit) × NslDir) :
    (frameBody dir r d).testBit 280 = (d.nslDir (revDir dir)).nak := by
  rw [frameBody, nslBody_anak]

theorem frameBody_aack (r : Option (Nat × NslFlit) × NslDir) :
    bitsOf (frameBody dir r d) 279 270 = ((d.nslDir (revDir dir)).expect + 1023) % 1024 := by
  rw [frameBody, nslBody_aack, Nat.mod_mod]

theorem frameBody_fseq (e : Nat × NslFlit) (x : NslDir) : bitsOf (frameBody dir (some e, x) d) 269 260 = e.1 % 1024 := by
  rw [frameBody, nslBody_fseq]

theorem frameBody_idle_type (x : NslDir) : bitsOf (frameBody dir (none, x) d) 259 258 = 0 := by
  rw [frameBody, nslBody_idle_type]

/-- A frame carries the flit it was given, where the flit's fields fit theirs. -/
theorem frameBody_flit {n : Nat} (x : NslDir) (hv : f.vc < 4) (ht : f.type < 4) (hflit : f.flit < 2 ^ 256) :
    (⟨bitsOf (frameBody dir (some (n, f), x) d) 257 256, bitsOf (frameBody dir (some (n, f), x) d) 259 258,
      bitsOf (frameBody dir (some (n, f), x) d) 255 0⟩ : NslFlit) = f := by
  simp only [frameBody, nslBody_vc, nslBody_type, nslBody_flit, Nat.mod_eq_of_lt hv, Nat.mod_eq_of_lt ht,
    Nat.mod_eq_of_lt hflit]

/-- A frame that arrives as it was sent passes its CRC. -/
theorem xNslFrame_clean {offer : List NslFlit} {r : Option (Nat × NslFlit) × NslDir} (hup : d.nslUp dir = true)
    (hsend : ({ d.nslDir dir with wait := (d.nslDir dir).wait ++ offer } : NslDir).send = r) :
    xNslFrame dir offer [] d =
      ((d.setNsl dir r.2).nslAck (revDir dir) (frameBody dir r d)).nslTake dir (frameBody dir r d) := by
  subst hsend
  simp only [xNslFrame, hup, Bool.not_true, Bool.false_eq_true, if_false, nslWire, List.foldl_nil, if_true]
  rfl

/-- A frame whose CRC fails is counted, and its receiver owes an ANAK. -/
theorem xNslFrame_crcError {offer : List NslFlit} {flips : List Nat} (hup : d.nslUp dir = true) :
    let x := d.nslDir dir
    let y := d.nslDir (revDir dir)
    let r := ({ x with wait := x.wait ++ offer } : NslDir).send
    let w := nslWire (nslBody r.2 r.1 ((y.expect + 1023) % 1024) y.nak y.creditField) flips
    w.2 ≠ Config.crc24 w.1 % 2 ^ 24 →
    xNslFrame dir offer flips d
      = ((d.setNsl dir r.2).setNsl dir { r.2 with nak := true }).bump (dirReg dir .NSL_CRC_CNT) := by
  intro x y r w hcrc
  have hup' : ¬ (!d.nslUp dir) = true := by simp [hup]
  exact (if_neg hup').trans (if_neg hcrc)

/-- With nothing offered to a sender at rest, an idle frame crosses. -/
theorem xNslFrame_idle (hup : d.nslUp dir = true) (hwait : (d.nslDir dir).wait = [])
    (hbuf : (d.nslDir dir).buf.drop (d.nslDir dir).sent = []) : xNslFrame dir [] [] d =
      (d.setNsl dir (d.nslDir dir)).nslAck (revDir dir) (frameBody dir (none, d.nslDir dir) d) := by
  have hx : ({ d.nslDir dir with wait := (d.nslDir dir).wait ++ [] } : NslDir) = d.nslDir dir := by rw [List.append_nil]
  rw [xNslFrame_clean hup ((congrArg NslDir.send hx).trans (send_idle hwait hbuf)), Dev.nslTake]
  exact if_pos (frameBody_idle_type _)

/-- From chip `d` to chip `e` the records of sub-link direction `dir` alone differ. -/
def NslOnly (dir : Nat) (d e : Dev) : Prop :=
  ∃ n, e = { d with nsl := n } ∧ ∀ j, j ≠ dir → e.nslDir j = d.nslDir j

theorem nslOnly_setNsl (d : Dev) (dir : Nat) (x : NslDir) : NslOnly dir d (d.setNsl dir x) :=
  ⟨_, rfl, fun _ hj => nslDir_setNsl_other d x hj⟩

theorem nslAck_noNak {body : Nat} (h : body.testBit 280 = false) : NslOnly dir d (d.nslAck dir body) := by
  unfold Dev.nslAck
  split
  · exact ⟨d.nsl, rfl, fun _ _ => rfl⟩
  · simp only [h, Bool.false_eq_true, if_false]
    exact nslOnly_setNsl d dir _

theorem acked_unknown {x : NslDir} {aack : Nat} (h : x.buf.findIdx? (fun e => e.1 == aack) = none) : x.acked aack = x := by
  simp only [NslDir.acked, h]

/-- Credits that return change the two credit counts alone. -/
theorem credited_eq (x : NslDir) (credit : Nat) : ∃ us os, x.credited credit = { x with used := us, owed := os } :=
  List.foldlRecOn (motive := fun y : NslDir => ∃ us os, y = { x with used := us, owed := os }) _ _ ⟨_, _, rfl⟩ (by
    rintro _ ⟨us, os, rfl⟩ _ _
    exact ⟨_, _, rfl⟩)

/-- A sender told to replay all that its buffer holds, for the first time from acknowledgement `aack`. -/
def replaying (y : NslDir) (us os : NMap Nat) (aack : Nat) : NslDir :=
  { y with used := us, owed := os, from_ := aack, replays := 1, sent := 0 }

/-- A first ANAK for a frame that the replay buffer does not hold makes the sender replay all it holds. -/
theorem nslAck_replay {body aack : Nat} (hup : d.nslUp dir = true) (haack : bitsOf body 279 270 = aack)
    (hnak : body.testBit 280 = true) (hbuf : (d.nslDir dir).buf ≠ [])
    (hnone : (d.nslDir dir).buf.findIdx? (fun e => e.1 == aack) = none) (hfrom : (d.nslDir dir).from_ ≠ aack) :
    ∃ us os z, d.nslAck dir body = ((d.setNsl dir z).setNsl dir (replaying (d.nslDir dir) us os aack)).bump (dirReg dir .NSL_REPLAY_CNT) := by
  obtain ⟨us, os, hcr⟩ := credited_eq (d.nslDir dir) (bitsOf body 288 281)
  refine ⟨us, os, { d.nslDir dir with used := us, owed := os }, ?_⟩
  simp only [Dev.nslAck, hup, Bool.not_true, Bool.false_eq_true, if_false, haack, hnak, if_true, acked_unknown hnone, hcr,
    Dev.nslReplay, nslDir_setNsl_self, hbuf, hfrom, show ¬ 16 ≤ 1 by decide]
  rfl

/-- A receiver that has taken the flit it expected. -/
def tookFlit (x : NslDir) (f : NslFlit) : NslDir :=
  { x with expect := (x.expect + 1) % 1024, nak := false, owed := nset 0 x.owed f.vc (nget 0 x.owed f.vc + 1) }

/-- The next flit in order is taken, and the frame after it is expected. -/
theorem nslTake_next {body : Nat} (hf : (⟨bitsOf body 257 256, bitsOf body 259 258, bitsOf body 255 0⟩ : NslFlit) = f)
    (ht : f.type ≠ 0) (hseq : bitsOf body 269 260 = (d.nslDir dir).expect) :
    d.nslTake dir body = (d.setNsl dir (tookFlit (d.nslDir dir) f)).send (.crossed dir f) := by
  subst hf
  simp only [Dev.nslTake, if_neg ht, if_pos hseq]
  rfl

end

/-! ### The clauses that give the next state by its parts -/

section
variable {s : State}

theorem exec_repairDone_moves {br w : Nat} (hk : nget 0 s.d.repairs br = 1)
    (hw : s.d.flagged (br * 2 + getBits (s.d.reg (brReg br .REPAIR_STAT)) 8 8) = [w])
    (hfree : ∀ k, k < 24 → s.d.reg (dirReg (br * 2 + getBits (s.d.reg (brReg br .REPAIR_STAT)) 8 8) .SPARE_MAP k) = 0) :
    let dir := br * 2 + getBits (s.d.reg (brReg br .REPAIR_STAT)) 8 8
    ∃ t, exec (.repairDone br [] true) s = .next t ∧ t.d.reg (dirReg dir .SPARE_MAP 0) = BitVec.ofNat 64 (2 ^ 31 + w) ∧
      t.d.wireFlag dir w = false ∧ getBits (t.d.reg (dirReg dir .DIR_STAT)) 31 28 = 2 ∧
      t.d.regN (brReg br .REPAIR_STAT) = 1 * 2 ^ 24 + dir % 2 * 2 ^ 8 + 1 ∧ t.d.leap = s.d.leap ∧
      nget 0 t.d.repairs br = 0 := by
  intro dir
  have hbr : dir / 2 = br := by
    have hbit : getBits (s.d.reg (brReg br .REPAIR_STAT)) 8 8 < 2 := Nat.mod_lt _ (by decide)
    omega
  have hdone : xRepairDone br [] true s.d = (mapSpare dir w 0 (endOrder br s.d)).repairEnd dir 1 1 2 := by
    have hend : endRepair dir (mapSpare dir w 0 (endOrder br s.d), 1, 0)
      = (mapSpare dir w 0 (endOrder br s.d)).repairEnd dir 1 1 2 := rfl
    rw [← hend, ← moveFlagged_one (d := endOrder br s.d) hw hfree]
    exact xRepairDone_repair true hk
  refine ⟨{ s with d := xRepairDone br [] true s.d }, rfl, ?_⟩
  rw [hdone]
  refine ⟨?_, ?_, repairEnd_state _ _ _ _ _, ?_, ?_, ?_⟩
  · exact (repairEnd_reg_other _ _ _ _ _ (by simp) (by simp) (by simp)).trans (mapSpare_spare 0)
  · exact (congrArg (fun v : Word => v.getLsbD (w % 32))
      (repairEnd_reg_other _ _ _ _ _ (by simp) (by simp) (by simp))).trans mapSpare_wireFlag
  · have hres := repairEnd_result dir (mapSpare dir w 0 (endOrder br s.d)) 1 1 2
    rw [hbr, show Nat.min 255 1 = 1 from rfl] at hres
    rw [Dev.regN, hres, BitVec.toNat_ofNat]
    exact Nat.mod_eq_of_lt (by omega)
  · exact (repairEnd_leap _ _ _ _ _).trans ((Laws.setBit_leap _ _ _ _).trans (Laws.setRegN_leap _ _ _))
  · rw [repairEnd_repairs]
    exact Laws.nget_nset_self 0 s.d.repairs br 0

section
variable {dir : Nat} (hup : s.d.nslUp dir = true)
include hup

theorem exec_nslFrame_crosses {f : NslFlit} (hwait : (s.d.nslDir dir).wait = []) (hbuf : (s.d.nslDir dir).buf = [])
    (hsent : (s.d.nslDir dir).sent = 0) (hcredit : (s.d.nslDir dir).credit f.vc = true)
    (hseq : (s.d.nslDir dir).next = (s.d.nslDir dir).expect) (hnext : (s.d.nslDir dir).next < 1024)
    (hnak : (s.d.nslDir (revDir dir)).nak = false) (ht : f.type ≠ 0) (ht4 : f.type < 4) (hv : f.vc < 4)
    (hflit : f.flit < 2 ^ 256) :
    let x := s.d.nslDir dir
    ∃ t, exec (.nslFrame dir [f] []) s = .next t ∧ (t.d.nslDir dir).expect = (x.expect + 1) % 1024 ∧
      (t.d.nslDir dir).nak = false ∧ (t.d.nslDir dir).buf = [(x.next, f)] ∧ (t.d.nslDir dir).next = (x.next + 1) % 1024 ∧
      t.d.out = (s.d.send (.crossed dir f)).out ∧ (∀ e, e ≠ dir → e ≠ revDir dir → t.d.nslDir e = s.d.nslDir e) ∧
      t = { s with d := { s.d with nsl := t.d.nsl, out := t.d.out } } := by
  intro x
  have hsend : ({ x with wait := x.wait ++ [f] } : NslDir).send = (some (x.next, f), sentFirst x f) :=
    send_one (x := { x with wait := x.wait ++ [f] }) (by rw [hwait]; rfl) hbuf hsent hcredit
  obtain ⟨n, hack, hoth⟩ := nslAck_noNak (d := s.d.setNsl dir (sentFirst x f)) (dir := revDir dir)
    (body := frameBody dir (some (x.next, f), sentFirst x f) s.d) ((frameBody_anak _).trans hnak)
  have hown := (hoth dir (revDir_ne dir).symm).trans (nslDir_setNsl_self s.d dir (sentFirst x f))
  have hfseq : bitsOf (frameBody dir (some (x.next, f), sentFirst x f) s.d) 269 260 = (sentFirst x f).expect := by
    rw [frameBody_fseq, Nat.mod_eq_of_lt hnext, hseq]
    rfl
  have hstep := xNslFrame_clean hup hsend
  rw [nslTake_next (frameBody_flit _ hv ht4 hflit) ht (hfseq.trans (congrArg NslDir.expect hown).symm), hown] at hstep
  generalize (s.d.setNsl dir (sentFirst x f)).nslAck (revDir dir)
    (frameBody dir (some (x.next, f), sentFirst x f) s.d) = a at hstep hack hoth
  have hself : ((a.setNsl dir (tookFlit (sentFirst x f) f)).send (.crossed dir f)).nslDir dir = tookFlit (sentFirst x f) f := by
    rw [nslDir_send, nslDir_setNsl_self]
  have hframe : a = { s.d with nsl := n } := hack
  refine ⟨{ s with d := (a.setNsl dir (tookFlit (sentFirst x f) f)).send (.crossed dir f) }, next_congr hstep,
    congrArg NslDir.expect hself, congrArg NslDir.nak hself, congrArg NslDir.buf hself, congrArg NslDir.next hself,
    ?_, fun e he her => ?_, ?_⟩
  · rw [send_out, send_out, setNsl_out, hframe]
  · rw [nslDir_send, nslDir_setNsl_other _ _ he, hoth e her, nslDir_setNsl_other _ _ he]
  · rw [hframe]
    rfl

theorem exec_nslFrame_idle (hwait : (s.d.nslDir dir).wait = [])
    (hbuf : (s.d.nslDir dir).buf.drop (s.d.nslDir dir).sent = []) (hnak : (s.d.nslDir (revDir dir)).nak = false) :
    ∃ t, exec (.nslFrame dir [] []) s = .next t ∧ t.d.nslDir dir = s.d.nslDir dir ∧
      (∀ e, e ≠ dir → e ≠ revDir dir → t.d.nslDir e = s.d.nslDir e) ∧ t = { s with d := { s.d with nsl := t.d.nsl } } := by
  obtain ⟨n, hack, hoth⟩ := nslAck_noNak (d := s.d.setNsl dir (s.d.nslDir dir)) (dir := revDir dir)
    (body := frameBody dir (none, s.d.nslDir dir) s.d) ((frameBody_anak _).trans hnak)
  have hstep := xNslFrame_idle hup hwait hbuf
  generalize (s.d.setNsl dir (s.d.nslDir dir)).nslAck (revDir dir) (frameBody dir (none, s.d.nslDir dir) s.d) = a
    at hstep hack hoth
  refine ⟨{ s with d := a }, next_congr hstep, ?_, fun e he her => ?_, ?_⟩
  · rw [hoth dir (revDir_ne dir).symm, nslDir_setNsl_self]
  · rw [hoth e her, nslDir_setNsl_other _ _ he]
  · rw [hack]
    rfl

theorem exec_nslFrame_replay (hrev : s.d.nslUp (revDir dir) = true) (hwait : (s.d.nslDir dir).wait = [])
    (hbuf : (s.d.nslDir dir).buf.drop (s.d.nslDir dir).sent = []) :
    let y := s.d.nslDir (revDir dir)
    let aack := (y.expect + 1023) % 1024
    y.nak = true → y.buf ≠ [] → y.buf.findIdx? (fun e => e.1 == aack) = none → y.from_ ≠ aack →
    ∃ t, exec (.nslFrame dir [] []) s = .next t ∧ (t.d.nslDir (revDir dir)).sent = 0 ∧
      (t.d.nslDir (revDir dir)).from_ = aack ∧ (t.d.nslDir (revDir dir)).replays = 1 ∧
      (t.d.nslDir (revDir dir)).buf = y.buf ∧ t.d.nslDir dir = s.d.nslDir dir ∧
      t = { s with d := { s.d.bump (dirReg (revDir dir) .NSL_REPLAY_CNT) with nsl := t.d.nsl } } := by
  intro y aack hnak hybuf hnone hfrom
  have hy : (s.d.setNsl dir (s.d.nslDir dir)).nslDir (revDir dir) = y := nslDir_setNsl_other _ _ (revDir_ne dir)
  obtain ⟨us, os, z, hack⟩ := nslAck_replay (d := s.d.setNsl dir (s.d.nslDir dir)) (dir := revDir dir) (aack := aack)
    (body := frameBody dir (none, s.d.nslDir dir) s.d) hrev (frameBody_aack _) ((frameBody_anak _).trans hnak)
    (by rwa [hy]) (by rwa [hy]) (by rwa [hy])
  rw [hy] at hack
  rw [bump_setNsl, bump_setNsl, bump_setNsl] at hack
  generalize hc : s.d.bump (dirReg (revDir dir) .NSL_REPLAY_CNT) = c at hack ⊢
  have hself : (((c.setNsl dir (s.d.nslDir dir)).setNsl (revDir dir) z).setNsl (revDir dir)
      (replaying y us os aack)).nslDir (revDir dir) = replaying y us os aack := nslDir_setNsl_self _ _ _
  clear_value aack
  refine ⟨{ s with d := ((c.setNsl dir (s.d.nslDir dir)).setNsl (revDir dir) z).setNsl (revDir dir) (replaying y us os aack) },
    next_congr ((xNslFrame_idle hup hwait hbuf).trans hack), (congrArg NslDir.sent hself :), (congrArg NslDir.from_ hself :),
    (congrArg NslDir.replays hself :), (congrArg NslDir.buf hself :), ?_, rfl⟩
  rw [nslDir_setNsl_other _ _ (revDir_ne dir).symm, nslDir_setNsl_other _ _ (revDir_ne dir).symm, nslDir_setNsl_self]

end

end

/-- Settles O2: a row's lemma gives its outcome by cases, or by parts where the statement gives parts; each clause picks its
case. -/
theorem leapBridges : Obligations.LeapBridges := by
  refine ⟨⟨exec_lfclkLoss_facts, fun br p s => ⟨fun h => next_congr (if_pos h), fun h => ?training⟩⟩,
    ⟨fun m q pg dir s hm hq => ?orders, fun br bad ok s => ?done, fun br w s hk => exec_repairDone_moves hk,
      fun m q pg dir v s hm hq hl => ?config, fun m q pg dir v s hm hq hl => next_congr (xDirCfg_locked hm hq hl)⟩,
    ⟨fun dir f s _ hup hwait hbuf hsent hc hseq hnext hnak => exec_nslFrame_crosses hup hwait hbuf hsent hc hseq hnext hnak,
      fun dir s _ hup hwait hbuf hnak => exec_nslFrame_idle hup hwait hbuf hnak,
      fun dir s _ hup hrev hwait hbuf => exec_nslFrame_replay hup hrev hwait hbuf,
      fun dir offer flips s hup hcrc => ?crc, fun dir s => ⟨fun h => ⟨fun offer flips => next_congr ?down, next_congr ?noClock⟩,
        fun h => next_congr (if_pos h)⟩⟩⟩
  case training =>
    have heq := xBridgeTraining_trains (br := br) (p := p) h
    refine ⟨fun hid => next_congr ?_, fun hid hbad => next_congr ?_, fun hid hclk h0 h1 => ?_⟩
    · rw [heq, if_pos hid]
    · rw [heq, if_neg (not_not.2 hid), if_pos hbad]
    · have hgood : ¬ (p.clkOk = false ∨ sparesEnough p.fail0 p.bad0 = false ∨ sparesEnough p.fail1 p.bad1 = false) := by
        simp [hclk, h0, h1]
      rw [if_neg (not_not.2 hid), if_neg hgood] at heq
      refine ⟨fun hbad => next_congr ?_, fun hok hn0 hn1 => next_congr ?_⟩
      · rw [heq, if_pos hbad]
      · rw [heq, if_neg (by simp [hok, hn0, hn1])]
  case orders =>
    have hrepair := xRepair_owner (pg := pg) (dir := dir) (d := s.d) hm hq
    have hretrain := xRetrain_owner (pg := pg) (dir := dir) (d := s.d) hm hq
    refine ⟨fun hb => ⟨next_congr ?_, next_congr ?_⟩, fun hf hlive => ⟨next_congr ?_, next_congr ?_⟩,
      fun hf hlive => ⟨next_congr ?_, fun hup => next_congr ?_, fun hup => next_congr ?_⟩⟩
    · rw [hrepair, repairOrder_busy hb]
    · rw [hretrain, repairOrder_busy hb]
    · rw [hrepair, repairOrder_free hf, if_pos hlive]
    · rw [hretrain, repairOrder_free hf, if_pos hlive]
    · rw [hretrain, repairOrder_free hf, if_neg (ne_true_of_eq_false hlive), if_neg (by simp)]
      rfl
    · rw [hrepair, repairOrder_free hf, if_neg (ne_true_of_eq_false hlive), if_neg (by simp [hup])]
      rfl
    · rw [hrepair, repairOrder_free hf, if_neg (ne_true_of_eq_false hlive), if_pos ⟨rfl, hup⟩]
  case done =>
    refine ⟨fun hk => next_congr (if_pos hk),
      fun hk => ⟨next_congr (xRepairDone_retrain hk).1, next_congr (xRepairDone_retrain hk).2⟩, fun hk => next_congr ?_⟩
    rw [xRepairDone_repair ok hk, endRepair, endOrder, orderedDir]
  case config =>
    have heq := xDirCfg_unlocked (pg := pg) (dir := dir) (v := v) hm hq hl
    refine ⟨fun h16 h30 => next_congr ?_, fun hbad => next_congr ?_⟩
    · rw [heq, if_neg (by omega), putDirCfg]
    · rw [heq, if_pos hbad, putDirCfg]
  case crc => exact next_congr (xNslFrame_crcError hup hcrc)
  case down => exact if_pos (by simp [h])
  case noClock => exact if_neg (ne_true_of_eq_false h)

end Sys2Proof.Proofs

namespace Sys2Proof.Proofs

open Sys2Proof.Machine Sys2Proof.Safety

/-! Loads of a graph image (08 R232–R242). -/

/-! ### Queue commands that may start (14 R397; 21 DBG-6) -/

section
variable {d d' : Dev} {q r opc : Nat} {f : Nat → Cmd → Dev}

theorem unlessHalted_running (h : d.sysHalt = false) : d.unlessHalted d' = d' := if_neg (ne_true_of_eq_false h)

/-- A unit that would do nothing does nothing, halted or not. -/
theorem unlessHalted_self (d : Dev) : d.unlessHalted d = d := ite_self d

theorem start_canStart {c : Cmd} (h : canStart d q r opc c) : d.unlessHalted (d.start q r opc f) = f (cmdKey q r) c := by
  obtain ⟨hrun, hcmd, hopc, hmay⟩ := h
  simp only [unlessHalted_running hrun, Dev.start, hcmd, hopc, hmay, and_self, if_true]

theorem start_not_canStart (h : ∀ c, ¬ canStart d q r opc c) : d.unlessHalted (d.start q r opc f) = d := by
  cases hrun : d.sysHalt with
  | true => exact if_pos hrun
  | false =>
    rw [unlessHalted_running hrun, Dev.start]
    cases hcmd : d.cmd (cmdKey q r) with
    | none => rfl
    | some c => exact if_neg fun hmay => h c ⟨hrun, hcmd, hmay.1, hmay.2⟩

end

/-! ### LOAD_GRAPH in one mode (08 R232, R233, R240) -/

/-- The request that the entry of a LOAD_GRAPH spells in a mode (08 IMG-8), its command being record `k`. -/
def graphReq (k : Nat) (c : Cmd) (mode : Nat) : LoadReq :=
  let a := sqArg c.ent
  let b := sqBuf c.ent 0
  let p := sqP c.ent 4
  ⟨a % 256, mode, bitsOf a 26 16, b.addr, b.len, p % 256, bitsOf p 15 8, bitsOf p 19 16, k⟩

section
variable {d : Dev} {q r mode : Nat}

theorem loadCmd_mode {c : Cmd} (h : canStart d q r 0x43 c) (hm : bitsOf (sqArg c.ent) 9 8 = mode) :
    d.unlessHalted (d.loadCmd q r mode)
      = (d.waitFor (cmdKey q r) c (.load (sqArg c.ent % 256))).loadStart (graphReq (cmdKey q r) c mode) :=
  (start_canStart h).trans (if_neg (not_not.2 hm))

theorem loadCmd_otherMode {c : Cmd} (h : canStart d q r 0x43 c) (hm : bitsOf (sqArg c.ent) 9 8 ≠ mode) :
    d.unlessHalted (d.loadCmd q r mode) = d :=
  (start_canStart h).trans (if_pos hm)

theorem loadCmd_not_canStart (h : ∀ c, ¬ canStart d q r 0x43 c) : d.unlessHalted (d.loadCmd q r mode) = d :=
  start_not_canStart h

/-- A STATUS request checks and writes nothing: it ends with the state of the load record. -/
theorem loadStart_status {x : LoadReq} (h : x.mode = 3) :
    d.loadStart x = d.loadEnd x.cmd 0 0xFF 0xFF (d.load x.slot).st := if_pos h

end

/-! ### The bindings of a FULL load (08 R234) -/

/-- Another master has bound, since the load began, what the image does not give. -/
def BoundByOther (d : Dev) (slot : Nat) (l : LoadJob) : Prop :=
  l.bound = true ∧ (d.bindsOf slot).all (d.bindStands slot l.bytes) = false

/-- The record of a FULL load of `l` to a slot (08 R234). -/
def recordOf (slot : Nat) (l : LoadJob) : LoadRec :=
  ⟨2, imIdent l.bytes, epsOf l.bytes (secsOf l.bytes), (membersOf slot l.bytes).map (fun x => x.2)⟩

/-- The load is over and its record stands. -/
def recordLoad (d : Dev) (slot : Nat) (l : LoadJob) : Dev :=
  { d.setLoading slot none with loads := nset LoadRec.none (d.setLoading slot none).loads slot (recordOf slot l) }

section
variable {d : Dev} {slot : Nat} {l : LoadJob}

theorem loadBind_other (h : BoundByOther d slot l) : d.loadBind slot l = d.loadFail slot l 0x09 0xFF 0xFF := if_pos h

/-- Where a binding cannot be made, the first port record at fault gives member and tile. -/
theorem loadBind_refused (h : ¬ BoundByOther d slot l)
    (hb : d.bindAll slot l.bytes (portRecs l.bytes (secsOf l.bytes)) = none) :
    let f := d.bindFault true slot l.bytes (portRecs l.bytes (secsOf l.bytes))
    d.loadBind slot l = d.loadFail slot l 0x09 (f.elim 0xFF (fun x => x.memb)) (f.elim 0xFF (fun x => x.tile)) := by
  refine (if_neg h).trans ?_
  simp only [hb]

theorem loadBind_bound {d' : Dev} (h : ¬ BoundByOther d slot l)
    (hb : d.bindAll slot l.bytes (portRecs l.bytes (secsOf l.bytes)) = some d') :
    d.loadBind slot l = ((recordLoad d' slot l).setSlotState slot stTadpole).loadEnd l.cmd 0 0xFF 0xFF 0 := by
  refine (if_neg h).trans ?_
  simp only [hb, recordLoad, recordOf]

end

/-! ### The read-back (08 R235, R238) -/

/-- The chip at the second read: the read-back has counted its items, the corrected ones are rewritten, and the errors `ups`
have struck since (08 R235). -/
def rewritten (d : Dev) (slot : Nat) (l : LoadJob) (ups : List Upset) : Dev :=
  ups.foldl (fun x u => x.upset u) ((d.readMarks slot l).rewriteCe slot l)

section
variable {d : Dev} {slot : Nat} {l : LoadJob} {ups : List Upset}

theorem loadCheck_verify_same (hm : l.mode = 2) (hr : d.readBack slot l = none) (hb : d.bindDiffers slot l.bytes = none) :
    d.loadCheck slot l ups = ((d.readMarks slot l).setLoading slot none).loadEnd l.cmd 0 0xFF 0xFF 0 := by
  simp only [Dev.loadCheck, if_pos hm, hr, hb]

/-- A VERIFY compares the items first, and the bindings where those agree. -/
theorem loadCheck_verify_differs {x : Nat × Nat} (hm : l.mode = 2)
    (h : d.readBack slot l = some x ∨ d.readBack slot l = none ∧ d.bindDiffers slot l.bytes = some x) :
    d.loadCheck slot l ups = ((d.readMarks slot l).setLoading slot none).loadEnd l.cmd 0x0F x.1 x.2 0 := by
  rcases h with hr | ⟨hr, hb⟩
  · simp only [Dev.loadCheck, if_pos hm, hr]
  · simp only [Dev.loadCheck, if_pos hm, hr, hb]

theorem loadCheck_differs {x : Nat × Nat} (hm : l.mode ≠ 2) (hr : d.readBack slot l = some x) :
    d.loadCheck slot l ups = (d.readMarks slot l).loadFail slot l 0x0D x.1 x.2 := by
  simp only [Dev.loadCheck, if_neg hm, hr]

section
variable (hclean : l.mode ≠ 2 ∧ d.readBack slot l = none)
include hclean

theorem loadCheck_newError {T : Nat} (h2 : (rewritten d slot l ups).secondRead (d.readMarks slot l) slot l = some T) :
    d.loadCheck slot l ups
      = ((rewritten d slot l ups).readMarks slot l).loadFail slot l 0x0D (l.place slot T).1 (l.place slot T).2 := by
  rw [rewritten] at h2 ⊢
  simp only [Dev.loadCheck, if_neg hclean.1, hclean.2, h2]

/-- A load that reads back as its image gives is done where it is a PATCH; a FULL load goes on to its bindings. -/
theorem loadCheck_written (h2 : (rewritten d slot l ups).secondRead (d.readMarks slot l) slot l = none) :
    d.loadCheck slot l ups
      = if l.mode = 1 then
          (((rewritten d slot l ups).setLoading slot none).setSlotState slot stTadpole).loadEnd l.cmd 0 0xFF 0xFF 0
        else (rewritten d slot l ups).loadBind slot l := by
  rw [rewritten] at h2 ⊢
  simp only [Dev.loadCheck, if_neg hclean.1, hclean.2, h2]

end
end

/-! ### LOAD_COMPLETION (08 R234, R239–R241) -/

theorem xLoadCompletion_idle {slot : Nat} {ups : List Upset} {d : Dev} (h : nget none d.loading slot = none) :
    xLoadCompletion slot ups d = d := by
  rw [xLoadCompletion, h]

section
variable {slot : Nat} {ups : List Upset} {d : Dev} {l : LoadJob} (hl : nget none d.loading slot = some l)
include hl

theorem xLoadCompletion_stopped (hc : l.code ≠ 0) :
    xLoadCompletion slot ups d = d.loadFail slot l l.code l.memb l.tile := by
  simp only [xLoadCompletion, hl, if_pos hc]

theorem xLoadCompletion_handoverRefused {f : Nat × Nat} (hc : l.code = 0) (he : (d.endBanks slot l).2 = some f) :
    xLoadCompletion slot ups d = (d.endBanks slot l).1.loadFail slot l 0x09 f.1 f.2 := by
  simp only [xLoadCompletion, hl, if_neg (not_not.2 hc), he]

theorem xLoadCompletion_reads (h : l.code = 0 ∧ (d.endBanks slot l).2 = none) :
    xLoadCompletion slot ups d = (d.endBanks slot l).1.loadCheck slot l ups := by
  simp only [xLoadCompletion, hl, if_neg (not_not.2 h.1), h.2]

end

/-- Settles O22: a LOAD_GRAPH acts where its entry names its mode; a completion is decided by the event that stopped the load,
the late handovers, the read-back, the second read and the bindings, in this order. -/
theorem loads : Obligations.Loads := by
  refine ⟨fun q r c s h => ?start, fun q r s h => ?noStart, fun slot ups l s hrun hl => ?completion, fun slot ups s h => ?idle⟩
  case start =>
    exact ⟨fun hm => next_congr (loadCmd_mode h hm), fun hm => next_congr (loadCmd_otherMode h hm),
      fun hm => next_congr (loadCmd_mode h hm), fun hm => next_congr (loadCmd_otherMode h hm),
      fun hm => next_congr (loadCmd_mode h hm), fun hm => next_congr (loadCmd_otherMode h hm),
      fun hm => next_congr ((loadCmd_mode h hm).trans (loadStart_status rfl)), fun hm => next_congr (loadCmd_otherMode h hm)⟩
  case noStart =>
    exact ⟨next_congr (loadCmd_not_canStart h), next_congr (loadCmd_not_canStart h), next_congr (loadCmd_not_canStart h),
      next_congr (loadCmd_not_canStart h)⟩
  case completion =>
    have hexec {d' : Dev} (h : xLoadCompletion slot ups s.d = d') :
        exec (.loadCompletion slot ups) s = .next { s with d := d' } :=
      next_congr ((unlessHalted_running hrun).trans h)
    have hreads {d' : Dev} (hr : l.code = 0 ∧ (s.d.endBanks slot l).2 = none)
        (h : (s.d.endBanks slot l).1.loadCheck slot l ups = d') :
        exec (.loadCompletion slot ups) s = .next { s with d := d' } :=
      hexec ((xLoadCompletion_reads hl hr).trans h)
    refine ⟨fun hc => hexec (xLoadCompletion_stopped hl hc), fun f hc he => hexec (xLoadCompletion_handoverRefused hl hc he),
      fun hr hm hs hb => hreads hr (loadCheck_verify_same hm hs hb), fun x hr hm hd => hreads hr (loadCheck_verify_differs hm hd),
      fun x hr hm hd => hreads hr (loadCheck_differs hm hd), fun T hr hk h2 => hreads hr (loadCheck_newError hk h2),
      fun hr hk h2 hm => hreads hr ((loadCheck_written hk h2).trans (if_pos hm)), fun hr hk h2 hm => ?full⟩
    have hbind {d' : Dev} (h : (rewritten (s.d.endBanks slot l).1 slot l ups).loadBind slot l = d') :
        exec (.loadCompletion slot ups) s = .next { s with d := d' } :=
      hreads hr (((loadCheck_written hk h2).trans (if_neg hm)).trans h)
    exact ⟨fun ho => hbind (loadBind_other ho), fun ho hb => hbind (loadBind_refused ho hb),
      fun d' ho hb => hbind (loadBind_bound ho hb)⟩
  case idle => exact next_congr ((congrArg s.d.unlessHalted (xLoadCompletion_idle h)).trans (unlessHalted_self s.d))

end Sys2Proof.Proofs

namespace Sys2Proof.Proofs

open Sys2Proof.Machine Sys2Proof.Safety

/-! Requests to HBM and to home banks (09 R249–R252, R256–R258, R261, R263, R265; 11 R328–R332). -/

/-! ### Requests in a system halt (21 R568) -/

section
variable {d d' : Dev} {m : Mst}

/-- A system halt lets the requests of the debug port through. -/
theorem unlessHaltedFor_running (h : d.sysHalt = false ∨ m.mid = 0x4C0) : d.unlessHaltedFor m d' = d' := by
  refine if_neg fun hno => ?_
  rcases h with h | h
  · exact Bool.noConfusion (h.symm.trans hno.1)
  · exact hno.2 h

/-- It stops those of every other master. -/
theorem unlessHaltedFor_halted (h : d.sysHalt = true ∧ m.mid ≠ 0x4C0) : d.unlessHaltedFor m d' = d := if_pos h

theorem unlessHaltedFor_self (d : Dev) (m : Mst) : d.unlessHaltedFor m d = d := ite_self d

end

/-- The read data of a request that fails: as many zero bytes as it reads. -/
def noBytes (a : Access) : List Byte := List.replicate (if a.write then 0 else a.size) 0

theorem fail_eq (d : Dev) (q : Nat) (a : Access) (c : RespCode) :
    d.fail q a c = (d.nocErr q a.m.mid a.addr c, ⟨c, noBytes a⟩) := rfl

/-! ### HBM: the master, the route and the power of the target (09 R251, R256–R258; 19 R527) -/

section
variable {a : Access} {noalloc : Bool} {e : HbmErr} {d : Dev}

theorem xHbmAccess_badShape (h : burstOk a = false) : xHbmAccess a noalloc e d = d := if_neg (Bool.eq_false_iff.1 h)

theorem xHbmAccess_held (hb : burstOk a = true) (hh : d.mustHold a = true) :
    xHbmAccess a noalloc e d = d.hold a noalloc e :=
  (if_pos hb).trans (if_pos hh)

/-- A burst that its master issues is answered as HBM answers it. -/
theorem xHbmAccess_issued {d' : Dev} {x : Ans} (hb : burstOk a = true) (hh : d.mustHold a = false)
    (hx : d.hbm a noalloc e = (d', x)) : xHbmAccess a noalloc e d = d'.reply x := by
  rw [xHbmAccess, if_pos hb, if_neg (Bool.eq_false_iff.1 hh), hx]

theorem hbm_noHbm (h : isHbm a.addr = false) : d.hbm a noalloc e = d.fail (d.midQuarter a.m.mid) a .decerr :=
  if_pos (by simp [h])

variable (h : isHbm a.addr = true)
include h

theorem hbm_unreached
    (hr : d.routeOk (d.midQuarter a.m.mid) (homeOf a.addr) = false ∨ d.domCur (homeOf a.addr) (17 + stackOf a.addr) = 2) :
    d.hbm a noalloc e = d.fail (homeOf a.addr) a .slverr :=
  (if_neg (by simp [h])).trans (if_pos (by simpa using hr))

theorem hbm_reached (hr : d.routeOk (d.midQuarter a.m.mid) (homeOf a.addr) = true)
    (hs : d.domCur (homeOf a.addr) (17 + stackOf a.addr) ≠ 2) :
    d.hbm a noalloc e
      = ((d.wakeDom (homeOf a.addr) 16).wakeDom (homeOf a.addr) (17 + stackOf a.addr)).hbmServe a noalloc e :=
  (if_neg (by simp [h])).trans (if_neg (by simp [hr, hs]))

end

/-! ### HBM: the window check, the stream cache and memory (09 R251, R263, R265) -/

/-- What the error of a read does at its target, where the line of its address missed the cache. -/
def struck (d : Dev) (missed : Bool) (e : HbmErr) (addr : Nat) : Dev :=
  if missed = true ∧ e = .ce then d.bump (R.HBM_CE_CNT.at (homeOf addr) (stackOf addr))
  else if missed = true ∧ e = .ue then d.poisonUnits addr 1 else d

/-- The poisoned 64-byte units that a read touches. -/
def badUnits (d : Dev) (a : Access) : List Nat := (unitsOf a.addr a.size).filter (fun u => d.unitBad u)

/-- Each poisoned unit whose line was not cached is logged, counted and raised. -/
def ueUnits (d : Dev) (missed : List Nat) (a : Access) : Dev :=
  ((badUnits d a).filter (fun u => missed.contains (u / 256))).foldl (fun x u => x.hbmUe u) d

section
variable {a : Access} {noalloc : Bool} {e : HbmErr} {d : Dev}

theorem hbmServe_refused (h : d.winOk a.m.oid a.addr a.write = false) :
    d.hbmServe a noalloc e = (d.winFault a.m.mid a.m.oid a.addr a.write, ⟨.slverr, noBytes a⟩) :=
  if_pos (by simp [h])

variable (h : d.winOk a.m.oid a.addr a.write = true)
include h

theorem hbmServe_write (hw : a.write = true) : d.hbmServe a noalloc e =
    (((d.sccPass a.m.oid a.addr a.size a.write noalloc e).1.setBytes a.addr (leBytes a.data a.size)).coverUnits a.addr a.size,
      ⟨.okay, []⟩) :=
  (if_neg (by simp [h])).trans (if_pos hw)

/-- A read passes the cache, meets its error, and is decided by the poisoned units that it touches. -/
theorem hbmServe_read (hw : a.write = false) {d1 : Dev}
    (hd : struck (d.sccPass a.m.oid a.addr a.size a.write noalloc e).1
      ((d.sccPass a.m.oid a.addr a.size a.write noalloc e).2.contains (a.addr / 256)) e a.addr = d1) :
    let missed := (d.sccPass a.m.oid a.addr a.size a.write noalloc e).2
    let d2 := ueUnits d1 missed a
    d.hbmServe a noalloc e = if badUnits d1 a = [] then (d2, ⟨.okay, d2.bytes a.addr a.size⟩)
      else (d2.nocErr (homeOf a.addr) a.m.mid a.addr .slverr, ⟨.slverr, d2.goodBytes a.addr a.size⟩) := by
  subst hd
  rw [Dev.hbmServe, if_neg (by simp [h])]
  generalize d.sccPass a.m.oid a.addr a.size a.write noalloc e = r
  rw [if_neg (Bool.eq_false_iff.1 hw)]
  cases hm : r.2.contains (a.addr / 256)
  · simp only [struck, Bool.false_eq_true, false_and, if_false, badUnits, ueUnits]
  · cases e <;> simp [struck, badUnits, ueUnits]

theorem hbmServe_read_sound (hw : a.write = false) {d1 : Dev}
    (hd : struck (d.sccPass a.m.oid a.addr a.size a.write noalloc e).1
      ((d.sccPass a.m.oid a.addr a.size a.write noalloc e).2.contains (a.addr / 256)) e a.addr = d1)
    (hbad : badUnits d1 a = []) : d.hbmServe a noalloc e = (d1, ⟨.okay, d1.bytes a.addr a.size⟩) := by
  rw [hbmServe_read h hw hd, if_pos hbad, ueUnits, hbad, List.filter_nil, List.foldl_nil]

theorem hbmServe_read_poisoned (hw : a.write = false) {d1 : Dev}
    (hd : struck (d.sccPass a.m.oid a.addr a.size a.write noalloc e).1
      ((d.sccPass a.m.oid a.addr a.size a.write noalloc e).2.contains (a.addr / 256)) e a.addr = d1)
    (hbad : badUnits d1 a ≠ []) :
    let d2 := ueUnits d1 (d.sccPass a.m.oid a.addr a.size a.write noalloc e).2 a
    d.hbmServe a noalloc e
      = (d2.nocErr (homeOf a.addr) a.m.mid a.addr .slverr, ⟨.slverr, d2.goodBytes a.addr a.size⟩) :=
  (hbmServe_read h hw hd).trans (if_neg hbad)

end

/-! ### Home banks: the master, the route and the port (11 R328, R329, R331) -/

section
variable {a : Access} {p0 : List (Nat × Nat)} {e : HbmErr} {d : Dev}

theorem xHomeBankAccess_none (h : burstOk a = false ∨ isBank a.addr = false) : xHomeBankAccess a p0 e d = d :=
  if_neg (by rcases h with h | h <;> simp [h])

section
variable (h : burstOk a = true ∧ isBank a.addr = true)
include h

theorem xHomeBankAccess_held (hh : d.mustHold a = true) : xHomeBankAccess a p0 e d = d.hold a false e :=
  (if_pos (by simp [h])).trans (if_pos hh)

theorem xHomeBankAccess_unreached (hh : d.mustHold a = false)
    (hr : d.routeOk (d.midQuarter a.m.mid) (bankOf a.addr / 16) = false) : xHomeBankAccess a p0 e d
      = (d.nocErr (bankOf a.addr / 16) a.m.mid a.addr .slverr).reply ⟨.slverr, noBytes a⟩ := by
  rw [xHomeBankAccess, if_pos (by simp [h]), if_neg (Bool.eq_false_iff.1 hh), Dev.bnkReq, if_pos (by simp [hr]), fail_eq]

/-- A request that reaches its bank is answered as port 1 answers it, with the base die awake. -/
theorem xHomeBankAccess_served {d' : Dev} {x : Ans} (hh : d.mustHold a = false)
    (hr : d.routeOk (d.midQuarter a.m.mid) (bankOf a.addr / 16) = true)
    (hx : (d.wakeDom (bankOf a.addr / 16) 16).bnkServe a p0 e = (d', x)) : xHomeBankAccess a p0 e d = d'.reply x := by
  rw [xHomeBankAccess, if_pos (by simp [h]), if_neg (Bool.eq_false_iff.1 hh), Dev.bnkReq, if_neg (by simp [hr]), hx]

end

/-- A bank that molts, and a master that the bank does not accept, fail a request. -/
theorem bnkServe_refused (h : (d.bnkPort0 (bankOf a.addr) p0).bnkMolting (bankOf a.addr) = true ∨
      (d.bnkPort0 (bankOf a.addr) p0).bnkAccepts (bankOf a.addr) a = false) :
    d.bnkServe a p0 e
      = ((d.bnkPort0 (bankOf a.addr) p0).nocErr (bankOf a.addr / 16) a.m.mid a.addr .slverr, ⟨.slverr, noBytes a⟩) :=
  if_pos (by simpa using h)

/-! ### Home banks: the words (11 R328, R332) -/

section
variable (h : (d.bnkPort0 (bankOf a.addr) p0).bnkMolting (bankOf a.addr) = false ∧
  (d.bnkPort0 (bankOf a.addr) p0).bnkAccepts (bankOf a.addr) a = true)
include h

/-- A served read gives what the bank gives, and its failure is recorded. -/
theorem bnkServe_read (hw : a.write = false) {d' : Dev} {x : Ans}
    (hx : (d.bnkPort0 (bankOf a.addr) p0).bnkRead a.addr a.size 1 e = (d', x)) :
    d.bnkServe a p0 e
      = if x.code = .slverr then (d'.nocErr (bankOf a.addr / 16) a.m.mid a.addr .slverr, x) else (d', x) := by
  rw [Dev.bnkServe, if_neg (by simp [h]), if_neg (Bool.eq_false_iff.1 hw), hx]

/-- A served write gives what the bank gives, and its failure is recorded. -/
theorem bnkServe_write (hw : a.write = true) {d' : Dev} {x : Ans}
    (hx : (d.bnkPort0 (bankOf a.addr) p0).bnkWrite a.addr (leBytes a.data a.size) 1 (port0Words (bankOf a.addr) p0) = (d', x)) :
    d.bnkServe a p0 e
      = if x.code = .slverr then (d'.nocErr (bankOf a.addr / 16) a.m.mid a.addr .slverr, x) else (d', x) := by
  rw [Dev.bnkServe, if_neg (by simp [h]), if_pos hw, hx]

end

/-- The read of words that no error strikes: the poisoned ones are logged, counted and raised. -/
theorem bnkRead_eq {addr n : Nat} {bad : List Nat} (hbad : (wordsTouched addr n).filter (fun w => d.bnkBad w) = bad) :
    let d2 := bad.foldl (fun x w => x.bnkUe w 1) d
    d.bnkRead addr n 1 .none = (d2, ⟨if bad = [] then .okay else .slverr, d2.bnkBytes addr n⟩) := by
  subst hbad
  rfl

section
variable {addr v : Nat}

theorem length_leBytes (v n : Nat) : (leBytes v n).length = n := by
  induction n generalizing v with
  | zero => rfl
  | succ n ih => exact congrArg (· + 1) (ih _)

/-- An aligned word is the one word that its write touches. -/
theorem wordsTouched_aligned (h : addr % 8 = 0) : wordsTouched addr 8 = [addr] := by
  have hone : (addr % 8 + 8 + 7) / 8 = 1 := by omega
  have hsame : addr / 8 * 8 = addr := by omega
  simp [wordsTouched, hone, upTo, hsame]

/-- A write of an aligned word stores its 8 bytes with sound check bits, poisoned before or not. -/
theorem bnkWriteWord_whole {bytes : List Byte} (hl : bytes.length = 8) (src : Nat) :
    d.bnkWriteWord addr bytes src addr = ((d.setBytes addr bytes).bnkMark addr .ok, .okay) := by
  have hlo : Nat.max addr addr = addr := Nat.max_self addr
  have hhi : Nat.min (addr + 8) (addr + 8) = addr + 8 := Nat.min_self _
  have hlen : addr + 8 - addr = 8 := by omega
  simp only [Dev.bnkWriteWord, hl, hlo, hhi, hlen, Nat.lt_irrefl, and_false, if_false, Nat.sub_self, List.drop_zero]
  rw [← hl, List.take_length]

theorem bnkWrite_stored {lost : List Nat} {n : Nat} (ha : addr % 8 = 0) (hn : n = 8) (hl : lost.contains addr = false) :
    d.bnkWrite addr (leBytes v n) 1 lost = ((d.setBytes addr (leBytes v 8)).bnkMark addr .ok, ⟨.okay, []⟩) := by
  subst hn
  simp only [Dev.bnkWrite, length_leBytes, wordsTouched_aligned ha, List.foldl_cons, List.foldl_nil, hl, Bool.false_eq_true,
    if_false, bnkWriteWord_whole (length_leBytes v 8) 1]
  rfl

theorem bnkWrite_lost {lost : List Nat} {n : Nat} (ha : addr % 8 = 0) (hn : n = 8) (hl : lost.contains addr = true) :
    d.bnkWrite addr (leBytes v n) 1 lost
      = ((d.bumpTo (coreReg (bankOf addr) .BNK_CCNT) 0xFFFF).setBit (coreReg (bankOf addr) .BNK_FLAGS) 0 true,
          ⟨.collided, []⟩) := by
  subst hn
  simp only [Dev.bnkWrite, length_leBytes, wordsTouched_aligned ha, List.foldl_cons, List.foldl_nil, hl, if_true]
  rfl

end

theorem xBnkCeWriteback_found {n w : Nat} (h : (nget Ecc.ok d.ecc (bankBase n + w * 8)).isFound = true) :
    xBnkCeWriteback n w d = d.bnkMark (bankBase n + w * 8) .ok := if_pos h

theorem xBnkCeWriteback_other {n w : Nat} (h : (nget Ecc.ok d.ecc (bankBase n + w * 8)).isFound = false) :
    xBnkCeWriteback n w d = d := if_neg (Bool.eq_false_iff.1 h)

end

/-- Settles O5: a request is decided by its master, its route and power, the check at its target and then the state of the
units or words that it touches; each clause follows one path through these decisions. -/
theorem memoryAccess : Obligations.MemoryAccess := by
  refine ⟨fun a0 noalloc e s hrun => ?hbm, fun a0 p0 e s hrun hb hk => ?bank,
    fun a0 p0 e s h => ?none,
    fun n w s => ⟨fun h => next_congr (xBnkCeWriteback_found h), fun h => next_congr (xBnkCeWriteback_other h)⟩⟩
  case none =>
    have hnone : xHomeBankAccess (s.d.issued a0) p0 e s.d = s.d := xHomeBankAccess_none h
    exact next_congr ((congrArg (s.d.unlessHaltedFor a0.m) hnone).trans (unlessHaltedFor_self s.d a0.m))
  case hbm =>
    intro a
    have hexec {d' : Dev} (h : xHbmAccess a noalloc e s.d = d') :
        exec (.hbmAccess a0 noalloc e) s = .next { s with d := d' } :=
      next_congr ((unlessHaltedFor_running hrun).trans h)
    refine ⟨fun hb => hexec (xHbmAccess_badShape hb), fun hb hh => hexec (xHbmAccess_held hb hh), fun hb hh => ?_⟩
    have hissued {d' : Dev} {x : Ans} (h : s.d.hbm a noalloc e = (d', x)) :
        exec (.hbmAccess a0 noalloc e) s = .next { s with d := d'.reply x } :=
      hexec (xHbmAccess_issued hb hh h)
    refine ⟨fun h => hissued (hbm_noHbm h), fun h hr => hissued (hbm_unreached h hr), fun h hr hs => ?_⟩
    intro w
    have hserved {d' : Dev} {x : Ans} (hx : w.hbmServe a noalloc e = (d', x)) :
        exec (.hbmAccess a0 noalloc e) s = .next { s with d := d'.reply x } :=
      hissued ((hbm_reached (a := a) h hr hs).trans hx)
    exact ⟨fun hw => hserved (hbmServe_refused hw), fun hw => ⟨fun hwr => hserved (hbmServe_write hw hwr),
      fun hrd hbad => hserved (hbmServe_read_sound hw hrd rfl hbad),
      fun hrd hbad => hserved (hbmServe_read_poisoned hw hrd rfl hbad)⟩⟩
  case bank =>
    intro a n bytes
    have hexec {d' : Dev} (h : xHomeBankAccess a p0 e s.d = d') :
        exec (.homeBankAccess a0 p0 e) s = .next { s with d := d' } :=
      next_congr ((unlessHaltedFor_running hrun).trans h)
    refine ⟨fun hh => hexec (xHomeBankAccess_held ⟨hb, hk⟩ hh),
      fun hh hr => hexec (xHomeBankAccess_unreached ⟨hb, hk⟩ hh hr), fun hh hr => ?_⟩
    intro w
    have hserved {d' : Dev} {x : Ans} (hx : (s.d.wakeDom (n / 16) 16).bnkServe a p0 e = (d', x)) :
        exec (.homeBankAccess a0 p0 e) s = .next { s with d := d'.reply x } :=
      hexec (xHomeBankAccess_served (a := a) ⟨hb, hk⟩ hh hr hx)
    refine ⟨fun h => hserved (bnkServe_refused (a := a) h), fun hm hacc =>
      ⟨fun hw he hgood => ?sound, fun x r hw he hbad => ?poisoned, fun hw ha hsize hlost => ?stored, fun hw ha hsize hlost => ?lost⟩⟩
    case sound =>
      subst he
      have hnone : (wordsTouched a0.addr a0.size).filter (fun x => w.bnkBad x) = [] :=
        List.filter_eq_nil_iff.2 fun x hx => Bool.eq_false_iff.1 (hgood x hx)
      exact hserved (bnkServe_read (a := a) ⟨hm, hacc⟩ hw (bnkRead_eq hnone))
    case poisoned =>
      subst he
      exact hserved (bnkServe_read (a := a) ⟨hm, hacc⟩ hw (bnkRead_eq hbad))
    case stored => exact hserved (bnkServe_write (a := a) ⟨hm, hacc⟩ hw (bnkWrite_stored ha hsize hlost))
    case lost => exact hserved (bnkServe_write (a := a) ⟨hm, hacc⟩ hw (bnkWrite_lost ha hsize hlost))

end Sys2Proof.Proofs

namespace Sys2Proof.Proofs

open Sys2Proof.Machine Sys2Proof.Safety

/-! Memory windows (09 R253): a molt and the BIND_WINDOW that waits for it. -/

/-- A BIND_WINDOW that waits for the molt of Q0's window 0 and whose CQ entry a function reset has discarded (14 R409). -/
def resetBind : Cmd :=
  { qp := 0, seq := 0, ent := 0x42, st := .running, status := 0, result := 0, jobs := [], todo := [], fin := none,
    submitted := false, chain := [], discard := true, wait := .win 0 0 }

/-- Q0's window 0 molts for the one command in flight, `resetBind`, which is record 0 of slice 0. -/
def moltForReset : State :=
  { State.reset with
    d := (((Dev.reset.setBit (R.WIN_ENT.at 0 0) 30 true).setMoltQ 0 [(0, 2 ^ 31)]).setCmd 0 (some resetBind)).setFld
      F.QP_STAT_INFL 1 0 0 }

/-- The end of the molt frees the record, whose reuse epoch advances (14 R400). -/
theorem moltForReset_epochs : (xWindowMolt 0 moltForReset.d).epochs = [(0, 1)] := rfl

/-- Refutes O6: a molt that ends frees the record of a BIND_WINDOW whose CQ entry is discarded, and so changes the record's
reuse epoch (14 R400, R409), which the statement keeps. -/
theorem not_memoryControl : ¬ Obligations.MemoryControl := by
  rintro ⟨-, hmolt, -⟩
  obtain ⟨t, hexec, -, -, -, -, -, -, -, hframe⟩ := hmolt 0 0 (2 ^ 31) [] moltForReset rfl
  cases hexec
  have hkept : (xWindowMolt 0 moltForReset.d).epochs = moltForReset.d.epochs :=
    congrArg (fun u : State => u.d.epochs) hframe
  exact absurd (moltForReset_epochs.symm.trans hkept) (List.cons_ne_nil _ _)

end Sys2Proof.Proofs

namespace Sys2Proof.Proofs

open Sys2Proof.Machine Sys2Proof.Safety

/-! Stream engines (09 R261, R266–R273, R275; 13 R362, R363). -/

/-! ### JATTR (09 R267, R275) and SEN_CTRL (09 R273) -/

/-- Job slot `j` of an engine is queued with its JATTR written; an engine whose port is not bound waits. -/
def queueJob (vp j v : Nat) (d : Dev) : Dev :=
  let d1 := d.setRegN (senReg vp .JATTR j) (v &&& 0xFF3FFC00)
  let d2 := (d1.setJValid vp j true).setEngine vp { d1.engine vp with queue := (d1.engine vp).queue ++ [j] }
  if d2.vpBound vp then d2 else d2.engState vp 2

section
variable {m : Mst} (hm : m.oid = 0) {vp j v : Nat} {d : Dev}
include hm

theorem xJattr_refused (h : (d.reg (senReg vp .JATTR j)).getLsbD 31 = true) :
    xJattr m vp j v d = d.refuse m (senReg vp .JATTR j) :=
  (if_neg (not_denied hm)).trans (if_pos h)

theorem xJattr_queues (h : (d.reg (senReg vp .JATTR j)).getLsbD 31 = false) (hv : v.testBit 31 = true) :
    xJattr m vp j v d = (queueJob vp j v d).okay :=
  (if_neg (not_denied hm)).trans ((if_neg (Bool.eq_false_iff.1 h)).trans (if_pos hv))

theorem xJattr_holds (h : (d.reg (senReg vp .JATTR j)).getLsbD 31 = false) (hv : v.testBit 31 = false) :
    xJattr m vp j v d = (d.setRegN (senReg vp .JATTR j) (v &&& 0xFF3FFC00)).okay :=
  (if_neg (not_denied hm)).trans ((if_neg (Bool.eq_false_iff.1 h)).trans (if_neg (Bool.eq_false_iff.1 hv)))

theorem xSenCtrl_runs (h : ¬ ((d.reg (senReg vp .SEN_CTRL)).getLsbD 0 = true ∧ v % 2 = 0)) :
    xSenCtrl m vp v d = (d.setRegN (senReg vp .SEN_CTRL) (v % 2)).okay :=
  (if_neg (not_denied hm)).trans (congrArg Dev.okay (if_neg h))

theorem xSenCtrl_stops (h : (d.reg (senReg vp .SEN_CTRL)).getLsbD 0 = true ∧ v % 2 = 0) :
    xSenCtrl m vp v d = ((d.setRegN (senReg vp .SEN_CTRL) 0).stopEngine vp).okay :=
  (if_neg (not_denied hm)).trans (congrArg Dev.okay ((if_pos h).trans (by rw [h.2])))

end

/-! ### Whether a function issues requests (13 R363) rests on no register of an engine -/

section
variable {d d' : Dev}

theorem linkOf_congr (hreg : ∀ x : RKey, x.r ≠ .SEN_STAT → d'.reg x = d.reg x) (oid : Nat) :
    d'.linkOf oid = d.linkOf oid := by
  have hen (L : Nat) : d'.linkEn L = d.linkEn L := congrArg (·.getLsbD 0) (hreg _ (by simp [linkReg]))
  have hbase (L : Nat) : d'.reg (linkReg L .HIF_VFBASE) = d.reg (linkReg L .HIF_VFBASE) := hreg _ (by simp [linkReg])
  have hcfg (L : Nat) : d'.reg (linkReg L .HIF_VFCFG) = d.reg (linkReg L .HIF_VFCFG) := hreg _ (by simp [linkReg])
  have hvf (L : Nat) : d'.vfOf L oid = d.vfOf L oid := by simp only [Dev.vfOf, hen, hbase, hcfg]
  simp only [Dev.linkOf, hen, hvf]

theorem linkState_congr (hreg : ∀ x : RKey, x.r ≠ .SEN_STAT → d'.reg x = d.reg x) (hb : d'.boot = d.boot) (L : Nat) :
    d'.linkState L = d.linkState L := by
  have hconf : d'.fld F.AO_STATUS_CONF 0 = d.fld F.AO_STATUS_CONF 0 := congrArg (getBits · _ _) (hreg _ (by simp))
  have hsafe : d'.safe = d.safe := congrArg (·.getLsbD 31) (hreg _ (by simp))
  have hstat : d'.reg (linkReg L .HIF_LSTAT) = d.reg (linkReg L .HIF_LSTAT) := hreg _ (by simp [linkReg])
  have hfail : d'.confFailed = d.confFailed := congrArg (· == 2) hconf
  have hnot : d'.notConfigured = d.notConfigured := by simp only [Dev.notConfigured, hconf, hb]
  simp only [Dev.linkState, hfail, hnot, hsafe, hstat]

theorem fnIssues_congr (hreg : ∀ x : RKey, x.r ≠ .SEN_STAT → d'.reg x = d.reg x) (hf : d'.fns = d.fns) (hb : d'.boot = d.boot)
    (oid : Nat) : d'.fnIssues oid = d.fnIssues oid := by
  simp only [Dev.fnIssues, Dev.fn, linkOf_congr hreg, linkState_congr hreg hb, hf]

end

/-! ### JOB_START (09 R267, R268; MEM-6) -/

/-- A scatter list is read for a host job with SGL (09 R268). -/
def readsList (d : Dev) (vp j : Nat) : Prop :=
  bitsOf (d.jattr vp j).toNat 26 24 = 1 ∧ (d.jattr vp j).toNat.testBit 10 = true

/-- The data pieces of a scatter list. -/
def dataPieces (sgl : List (Nat × Nat × Nat)) : List (Nat × Nat) :=
  (sgl.filter (fun x => !x.2.2.testBit 1)).map (fun x => (x.1, x.2.1))

/-- Job `j` runs on the pieces `segs` of host memory, with the jobs `r` left in the queue. -/
def startJob (d : Dev) (vp j : Nat) (r : List Nat) (segs : List (Nat × Nat)) : Dev :=
  (d.setEngine vp { queue := r, run := some ⟨j, 0, 0, segs, false⟩ }).engState vp
    (if bitsOf (d.jattr vp j).toNat 26 24 = 3 then 2 else 1)

/-- Of the registers, a start writes SEN_STAT of its engine alone. -/
theorem startJob_eq (d : Dev) (vp j : Nat) (r : List Nat) (segs : List (Nat × Nat)) : ∃ se v w, startJob d vp j r segs
    = (({ d with sen := se }.setReg (senReg vp .SEN_STAT) v).setReg (senReg vp .SEN_STAT) w) := ⟨_, _, _, rfl⟩

theorem startJob_fnIssues (d : Dev) (vp j : Nat) (r : List Nat) (segs : List (Nat × Nat)) (oid : Nat) :
    (startJob d vp j r segs).fnIssues oid = d.fnIssues oid := by
  obtain ⟨se, v, w, heq⟩ := startJob_eq d vp j r segs
  rw [heq]
  refine fnIssues_congr (fun x hx => ?_) ?_ ?_ oid
  · have hne : x ≠ senReg vp .SEN_STAT := key_ne hx
    rw [Laws.reg_setReg_other _ _ hne, Laws.reg_setReg_other _ _ hne]
    rfl
  · rfl
  · rfl

section
variable {vp j : Nat} {r : List Nat} {sgl : List (Nat × Nat × Nat)} {ans : HostAns} {k : Clk} {d : Dev}

/-- An engine that runs a job, has none queued or is not enabled starts none. -/
theorem xJobStart_none (h : (d.engine vp).run ≠ none ∨ (d.engine vp).queue = []
    ∨ (d.reg (senReg vp .SEN_CTRL)).getLsbD 0 = false) : xJobStart vp sgl ans k d = d := by
  cases hrun : (d.engine vp).run with
  | some x => simp only [xJobStart, hrun]
  | none =>
    cases hq : (d.engine vp).queue with
    | nil => simp only [xJobStart, hrun, hq]
    | cons j r =>
      have hen : (d.reg (senReg vp .SEN_CTRL)).getLsbD 0 = false := by simpa [hrun, hq] using h
      simp only [xJobStart, hrun, hq, hen, Bool.not_false, if_true]

variable (h : (d.engine vp).run = none ∧ (d.engine vp).queue = j :: r ∧ (d.reg (senReg vp .SEN_CTRL)).getLsbD 0 = true ∧
  d.vpBound vp = true)
include h

/-- A job without a scatter list is decided by its fields. -/
theorem xJobStart_plain (hl : ¬ readsList d vp j) : xJobStart vp sgl ans k d =
    let addr := d.regN (senReg vp .JADDR j)
    let len := d.regN (senReg vp .JLEN j)
    let d1 := startJob d vp j r [(addr, len)]
    if jobMisaligned addr len (d.jattr vp j).toNat then d1.jobError k.tick vp 6 addr else d1 := by
  obtain ⟨hrun, hq, hen, hb⟩ := h
  rw [readsList] at hl
  simp only [xJobStart, hrun, hq, hen, hb, Bool.not_true, Bool.false_eq_true, if_false, if_neg hl]
  rfl

/-- A job with a scatter list is decided by its fields, the code of the host's answer and the list. -/
theorem xJobStart_list (hl : readsList d vp j) {code : Nat}
    (hc : hostCode (d.fnIssues (bitsOf (d.jattr vp j).toNat 21 11)) ans = code) : xJobStart vp sgl ans k d =
    let addr := d.regN (senReg vp .JADDR j)
    let len := d.regN (senReg vp .JLEN j)
    let d1 := startJob d vp j r (dataPieces sgl)
    if jobMisaligned addr len (d.jattr vp j).toNat then d1.jobError k.tick vp 6 addr
    else if code ≠ 0 then d1.jobError k.tick vp code addr
    else if sglOk sgl len then d1 else d1.jobError k.tick vp 6 addr := by
  obtain ⟨hrun, hq, hen, hb⟩ := h
  rw [← startJob_fnIssues d vp j r (dataPieces sgl)] at hc
  rw [readsList] at hl
  subst hc
  simp only [xJobStart, hrun, hq, hen, hb, Bool.not_true, Bool.false_eq_true, if_false, if_pos hl]
  rfl

theorem xJobStart_plain_runs (hl : ¬ readsList d vp j)
    (ha : jobMisaligned (d.regN (senReg vp .JADDR j)) (d.regN (senReg vp .JLEN j)) (d.jattr vp j).toNat = false) :
    xJobStart vp sgl ans k d = startJob d vp j r [(d.regN (senReg vp .JADDR j), d.regN (senReg vp .JLEN j))] :=
  (xJobStart_plain h hl).trans (if_neg (Bool.eq_false_iff.1 ha))

theorem xJobStart_plain_align (hl : ¬ readsList d vp j)
    (ha : jobMisaligned (d.regN (senReg vp .JADDR j)) (d.regN (senReg vp .JLEN j)) (d.jattr vp j).toNat = true) :
    xJobStart vp sgl ans k d = (startJob d vp j r [(d.regN (senReg vp .JADDR j), d.regN (senReg vp .JLEN j))]).jobError k.tick vp 6
      (d.regN (senReg vp .JADDR j)) :=
  (xJobStart_plain h hl).trans (if_pos ha)

theorem xJobStart_list_runs (hl : readsList d vp j)
    (ha : jobMisaligned (d.regN (senReg vp .JADDR j)) (d.regN (senReg vp .JLEN j)) (d.jattr vp j).toNat = false)
    (hc : hostCode (d.fnIssues (bitsOf (d.jattr vp j).toNat 21 11)) ans = 0) (hs : sglOk sgl (d.regN (senReg vp .JLEN j)) = true) :
    xJobStart vp sgl ans k d = startJob d vp j r (dataPieces sgl) :=
  (xJobStart_list h hl hc).trans ((if_neg (Bool.eq_false_iff.1 ha)).trans ((if_neg (not_not.2 rfl)).trans (if_pos hs)))

theorem xJobStart_list_align (hl : readsList d vp j)
    (ha : jobMisaligned (d.regN (senReg vp .JADDR j)) (d.regN (senReg vp .JLEN j)) (d.jattr vp j).toNat = true ∨
      (hostCode (d.fnIssues (bitsOf (d.jattr vp j).toNat 21 11)) ans = 0 ∧ sglOk sgl (d.regN (senReg vp .JLEN j)) = false)) :
    xJobStart vp sgl ans k d
      = (startJob d vp j r (dataPieces sgl)).jobError k.tick vp 6 (d.regN (senReg vp .JADDR j)) := by
  rcases ha with ha | ⟨hc, hs⟩
  · exact (xJobStart_list h hl rfl).trans (if_pos ha)
  · rw [xJobStart_list h hl hc]
    simp only [hs, ne_eq, not_true_eq_false, Bool.false_eq_true, if_false, ite_self]

theorem xJobStart_list_unread (hl : readsList d vp j)
    (ha : jobMisaligned (d.regN (senReg vp .JADDR j)) (d.regN (senReg vp .JLEN j)) (d.jattr vp j).toNat = false)
    (hc : hostCode (d.fnIssues (bitsOf (d.jattr vp j).toNat 21 11)) ans ≠ 0) : xJobStart vp sgl ans k d
      = (startJob d vp j r (dataPieces sgl)).jobError k.tick vp (hostCode (d.fnIssues (bitsOf (d.jattr vp j).toNat 21 11)) ans)
          (d.regN (senReg vp .JADDR j)) :=
  (xJobStart_list h hl rfl).trans ((if_neg (Bool.eq_false_iff.1 ha)).trans (if_pos hc))

end

/-! ### ELEMENT_MOVE: which elements move (09 R266, R267) -/

/-- A word joins the FIFO of an input port, and the job has moved 8 more bytes. -/
def putWord (vp : Nat) (r : SenRun) (d : Dev) (w : Word) : Dev := (d.setFifo vp (d.fifo vp ++ [.word w])).advance vp r

theorem vpBound_of_out {d : Dev} {vp : Nat} (h : d.vpOut vp = true) : d.vpBound vp = true :=
  (Bool.and_eq_true _ _ ▸ h : _ ∧ _).1

section
variable {vp : Nat} {r : SenRun} {ans : HostAns} {e : HbmErr} {col : Option Word} {k : Clk} {d : Dev}

theorem xElementMove_noJob (h : (d.engine vp).run = none) : xElementMove vp ans e col k d = d := by
  simp only [xElementMove, Dev.moveEl, h]

variable (hr : (d.engine vp).run = some r)
include hr

theorem xElementMove_idle (h : ¬ r.moved < d.regN (senReg vp .JLEN r.j) ∨ d.vpBound vp = false) :
    xElementMove vp ans e col k d = d := by
  have hno : d.regN (senReg vp .JLEN r.j) ≤ r.moved ∨ !d.vpBound vp := by simpa using h
  simp only [xElementMove, Dev.moveEl, hr, if_pos hno]

variable (hmore : r.moved < d.regN (senReg vp .JLEN r.j))
include hmore

section
variable (hb : d.vpBound vp = true) (ho : d.vpOut vp = false) (hlev : d.vpLevel vp < 512)
  (hk : getBits (d.jattr vp r.j) 26 24 ≠ 3) {w : Word} {d' : Dev} {a : Nat}
include hb ho hlev hk

/-- An element that is fetched joins the FIFO. -/
theorem xElementMove_fetched (hf : d.fetchEl vp r.j r ans e col false k = (0, w, d', a)) :
    xElementMove vp ans e col k d = putWord vp r d' w := by
  simp only [xElementMove, Dev.moveEl, hr, Nat.not_le.2 hmore, hb, ho, hlev, hk, hf, Bool.not_true, Bool.false_eq_true, or_self,
    if_false, if_true, putWord]

/-- An element that cannot be fetched ends the job with the code of its cause. -/
theorem xElementMove_unfetched {code : Nat} (hc : code ≠ 0) (hf : d.fetchEl vp r.j r ans e col false k = (code, w, d', a)) :
    xElementMove vp ans e col k d = d'.jobError k.tick vp code a := by
  simp only [xElementMove, Dev.moveEl, hr, Nat.not_le.2 hmore, hb, ho, hlev, hk, hf, hc, Bool.not_true, Bool.false_eq_true, or_self,
    if_false, if_true]

end

section
variable (ho : d.vpOut vp = true) {w : Word} {rest : List FEl} (hfifo : d.fifo vp = .word w :: rest)
include ho hfifo

section
variable (hk : getBits (d.jattr vp r.j) 26 24 ≠ 3) {d' : Dev} {a : Nat}
include hk

/-- An element that its sink takes has left the FIFO. -/
theorem xElementMove_sunk (hs : (d.setFifo vp rest).sinkEl vp r.j r w ans e col k = (0, d', a)) :
    xElementMove vp ans e col k d = d'.advance vp r := by
  simp only [xElementMove, Dev.moveEl, hr, Nat.not_le.2 hmore, vpBound_of_out ho, ho, hk, hfifo, hs, Bool.not_true,
    Bool.false_eq_true, or_self, if_false, if_true]

/-- An element that its sink does not take ends the job with the code of its cause. -/
theorem xElementMove_unsunk {code : Nat} (hc : code ≠ 0)
    (hs : (d.setFifo vp rest).sinkEl vp r.j r w ans e col k = (code, d', a)) :
    xElementMove vp ans e col k d = d'.jobError k.tick vp code a := by
  simp only [xElementMove, Dev.moveEl, hr, Nat.not_le.2 hmore, vpBound_of_out ho, ho, hk, hfifo, hs, hc, Bool.not_true,
    Bool.false_eq_true, or_self, if_false, if_true]

end

/-- An element of a chain that holds passes to the partner's FIFO (09 R271). -/
theorem xElementMove_chained (hk : getBits (d.jattr vp r.j) 26 24 = 3) {b : Nat}
    (hb : getBits (d.reg (senReg vp .JADDR r.j)) 9 0 = b) {rb : SenRun} (hrb : (d.engine b).run = some rb)
    (hch : r.chained = true ∧ rb.chained = true ∧ d.chainFits vp b r rb = true) (hin : d.vpIn b = true)
    (hlev : d.vpLevel b < 512) (hroute : d.routeOk (quarterOf (vp / 16)) (quarterOf (b / 16)) = true) :
    xElementMove vp ans e col k d = (((d.setFifo vp rest).setFifo b (d.fifo b ++ [.word w])).advance vp r).advance b rb := by
  obtain ⟨hc, hcb, hfit⟩ := hch
  simp only [xElementMove, Dev.moveEl, hr, Nat.not_le.2 hmore, vpBound_of_out ho, ho, hk, Bool.not_true, Bool.false_eq_true,
    or_self, if_false, if_true, Dev.chainMove, hb, hrb, hfifo, hc, hcb, hfit, hin, hlev, hroute, decide_true, Bool.and_self]

end

end

/-! ### ELEMENT_MOVE: the source of an input job (09 R261, R267; 13 R362, R363; 15 R421) -/

section
variable {vp j : Nat} {r : SenRun} {ans : HostAns} {e : HbmErr} {col : Option Word} {k : Clk} {d : Dev}

theorem fetchEl_device (hk : getBits (d.jattr vp j) 26 24 = 0) :
    let oid := bitsOf (d.jattr vp j).toNat 21 11
    let a := d.regN (senReg vp .JADDR j) % 2 ^ 48 + r.moved
    let x := d.senAcc k (rdReq (senMid vp) oid a 8) ((d.jattr vp j).toNat.testBit 28) e col
    d.fetchEl vp j r ans e col false k = (x.1.devCode ⟨senMid vp, oid, false⟩ a false e x.2.code,
      BitVec.ofNat 64 (leNat x.2.data), x.1, a) := by
  have hkind : bitsOf (d.jattr vp j).toNat 26 24 = 0 := hk
  simp only [Dev.fetchEl, hkind]

/-- What the host answered to a read, as the word that an element takes. -/
def answerWord : HostAns → Word
  | .data w => BitVec.ofNat 64 w
  | _ => 0

/-- A function that issues requests sends the read, and the answer decides. -/
theorem fetchEl_host (hk : getBits (d.jattr vp j) 26 24 = 1)
    (hi : d.fnIssues (bitsOf (d.jattr vp j).toNat 21 11) = true) :
    let oid := bitsOf (d.jattr vp j).toNat 21 11
    let a := segAddr r.segs r.moved
    d.fetchEl vp j r ans e col false k
      = (hostCode true ans, answerWord ans, (d.send (.hostRead oid a 8)).hostErr oid ans true, a) := by
  have hkind : bitsOf (d.jattr vp j).toNat 26 24 = 1 := hk
  simp only [Dev.fetchEl, hkind, hi, Bool.not_false, Bool.and_self, Bool.or_true, if_true]
  cases ans <;> rfl

/-- A function that issues none fails the element with the code of a request that was not made. -/
theorem fetchEl_host_silent (hk : getBits (d.jattr vp j) 26 24 = 1)
    (hi : d.fnIssues (bitsOf (d.jattr vp j).toNat 21 11) = false) :
    let oid := bitsOf (d.jattr vp j).toNat 21 11
    d.fetchEl vp j r ans e col false k = (5, answerWord ans, d.hostErr oid ans false, segAddr r.segs r.moved) := by
  have hkind : bitsOf (d.jattr vp j).toNat 26 24 = 1 := hk
  simp only [Dev.fetchEl, hkind, hi, Bool.not_false, Bool.and_false, Bool.or_self, Bool.false_eq_true, if_false]
  cases ans <;> rfl

/-- The word of a channel buffer at the element of a buffer job. -/
def bufWord (d : Dev) (base moved : Nat) : Word :=
  BitVec.ofNat 64 (d.chbufWord (bitsOf base 57 48 * 0x40000 + bitsOf base 17 0 + moved) 8)

section
variable (hk : getBits (d.jattr vp j) 26 24 = 2)
include hk

theorem fetchEl_buffer (hce : e ≠ .ce) (hue : e ≠ .ue) : d.fetchEl vp j r ans e col false k
    = (0, bufWord d (d.regN (senReg vp .JADDR j)) r.moved, d, d.regN (senReg vp .JADDR j) + r.moved) := by
  have hkind : bitsOf (d.jattr vp j).toNat 26 24 = 2 := hk
  simp only [Dev.fetchEl, hkind]
  cases e with
  | ce => exact absurd rfl hce
  | ue => exact absurd rfl hue
  | none | lineCe | lineUe => rfl

theorem fetchEl_buffer_corrected :
    let ch := mediaPlace (bitsOf (d.regN (senReg vp .JADDR j)) 57 48)
    d.fetchEl vp j r ans .ce col false k = (0, bufWord d (d.regN (senReg vp .JADDR j)) r.moved,
      d.bump (R.MSQ_CHBCE.at ch.1 ch.2), d.regN (senReg vp .JADDR j) + r.moved) := by
  have hkind : bitsOf (d.jattr vp j).toNat 26 24 = 2 := hk
  simp only [Dev.fetchEl, hkind, bufWord]

theorem fetchEl_buffer_lost : d.fetchEl vp j r ans .ue col false k = (3, 0, d, d.regN (senReg vp .JADDR j) + r.moved) := by
  have hkind : bitsOf (d.jattr vp j).toNat 26 24 = 2 := hk
  simp only [Dev.fetchEl, hkind]

end

/-! ### ELEMENT_MOVE: the sink of an output job (09 R261, R267; 13 R362, R363; 15 R421) -/

variable {w : Word}

theorem sinkEl_device (hk : getBits (d.jattr vp j) 26 24 = 0) :
    let oid := bitsOf (d.jattr vp j).toNat 21 11
    let a := d.regN (senReg vp .JADDR j) % 2 ^ 48 + r.moved
    let x := d.senAcc k (wrReq (senMid vp) oid a 8 w.toNat) ((d.jattr vp j).toNat.testBit 28) e col
    d.sinkEl vp j r w ans e col k = (d.devCode ⟨senMid vp, oid, false⟩ a true e x.2.code, x.1, a) := by
  have hkind : bitsOf (d.jattr vp j).toNat 26 24 = 0 := hk
  simp only [Dev.sinkEl, hkind]

section
variable (hk : getBits (d.jattr vp j) 26 24 = 1)
include hk

theorem sinkEl_host : d.sinkEl vp j r w ans e col k =
    let oid := bitsOf (d.jattr vp j).toNat 21 11
    let a := segAddr r.segs r.moved
    let code := hostCode (d.fnIssues oid) ans
    (code, if code = 0 then d.send (.hostWrite oid a (leBytes w.toNat 8)) else d, a) := by
  have hkind : bitsOf (d.jattr vp j).toNat 26 24 = 1 := hk
  simp only [Dev.sinkEl, hkind]

theorem sinkEl_host_written (hc : hostCode (d.fnIssues (bitsOf (d.jattr vp j).toNat 21 11)) ans = 0) :
    let a := segAddr r.segs r.moved
    d.sinkEl vp j r w ans e col k
      = (0, d.send (.hostWrite (bitsOf (d.jattr vp j).toNat 21 11) a (leBytes w.toNat 8)), a) := by
  simp only [sinkEl_host hk, hc, if_true]

theorem sinkEl_host_failed (hc : hostCode (d.fnIssues (bitsOf (d.jattr vp j).toNat 21 11)) ans ≠ 0) :
    d.sinkEl vp j r w ans e col k
      = (hostCode (d.fnIssues (bitsOf (d.jattr vp j).toNat 21 11)) ans, d, segAddr r.segs r.moved) := by
  simp only [sinkEl_host hk, if_neg hc]

end

section
variable (hk : getBits (d.jattr vp j) 26 24 = 2)
include hk

theorem sinkEl_buffer : d.sinkEl vp j r w ans e none k =
    let base := d.regN (senReg vp .JADDR j)
    (0, d.setChbuf (bitsOf base 57 48 * 0x40000 + bitsOf base 17 0 + r.moved) (leBytes w.toNat 8), base + r.moved) := by
  have hkind : bitsOf (d.jattr vp j).toNat 26 24 = 2 := hk
  simp only [Dev.sinkEl, hkind, Option.isSome_none, Bool.false_eq_true, if_false]

theorem sinkEl_buffer_collided (hc : col ≠ none) : d.sinkEl vp j r w ans e col k =
    let base := d.regN (senReg vp .JADDR j)
    let ch := mediaPlace (bitsOf base 57 48)
    (9, d.bump (R.MSQ_CHBCCNT.at ch.1 ch.2), base + r.moved) := by
  have hkind : bitsOf (d.jattr vp j).toNat 26 24 = 2 := hk
  simp only [Dev.sinkEl, hkind, Option.isSome_iff_ne_none.2 hc, if_true]

end

end

/-! ### CHAIN_FORMED and JOB_END (09 R267, R269, R271) -/

section
variable {vp : Nat} {r : SenRun} {k : Clk} {d : Dev}

/-- The ports of a chain do not both send. -/
theorem not_bothSend {b : Nat} (h : d.vpOut vp = false ∨ d.vpIn b = true) : ¬ (d.vpOut vp = true ∧ (!d.vpIn b) = true) := by
  rcases h with h | h <;> simp [h]

/-- Two CHAIN jobs fit where the partner's names this port with its OID and length. -/
theorem chainFits_iff {b : Nat} {rb : SenRun} (hk : getBits (d.jattr vp r.j) 26 24 = 3) (hbk : getBits (d.jattr b rb.j) 26 24 = 3)
    (hb : getBits (d.reg (senReg vp .JADDR r.j)) 9 0 = b) : d.chainFits vp b r rb = true ↔
      getBits (d.reg (senReg b .JADDR rb.j)) 9 0 = vp ∧
      getBits (d.jattr b rb.j) 21 11 = getBits (d.jattr vp r.j) 21 11 ∧
      d.regN (senReg b .JLEN rb.j) = d.regN (senReg vp .JLEN r.j) := by
  simp only [Dev.chainFits, hk, hbk, hb, decide_true, Bool.true_and, Bool.and_eq_true, decide_eq_true_eq, and_assoc]

theorem xChainFormed_noJob (h : (d.engine vp).run = none) : xChainFormed vp k d = d := by
  simp only [xChainFormed, h]

theorem xJobEnd_noJob (h : (d.engine vp).run = none) : xJobEnd vp d = d := by
  simp only [xJobEnd, h]

variable (hr : (d.engine vp).run = some r)
include hr

theorem xChainFormed_other (h : getBits (d.jattr vp r.j) 26 24 ≠ 3) : xChainFormed vp k d = d := by
  simp only [xChainFormed, hr, if_pos h]

section
variable (hk : getBits (d.jattr vp r.j) 26 24 = 3) {b : Nat} (hb : getBits (d.reg (senReg vp .JADDR r.j)) 9 0 = b)
include hk hb

theorem xChainFormed_noInput (ho : d.vpOut vp = true) (hi : d.vpIn b = false) :
    xChainFormed vp k d = d.jobError k.tick vp 7 b := by
  simp only [xChainFormed, hr, hk, hb, ho, hi, ne_eq, not_true_eq_false, if_false, Bool.not_false, and_self, if_true]

variable (hdir : ¬ (d.vpOut vp = true ∧ (!d.vpIn b) = true))
include hdir

theorem xChainFormed_alone (hn : (d.engine b).run = none) : xChainFormed vp k d = d.engState vp 2 := by
  subst hb
  simp only [xChainFormed, hr, hk, if_neg hdir, hn, ne_eq, not_true_eq_false, if_false]

variable {rb : SenRun} (hrb : (d.engine b).run = some rb)
include hrb

theorem xChainFormed_noChain (h : getBits (d.jattr b rb.j) 26 24 ≠ 3) : xChainFormed vp k d = d.engState vp 2 := by
  subst hb
  simp only [xChainFormed, hr, hk, if_neg hdir, hrb, if_pos h, ne_eq, not_true_eq_false, if_false]

variable (hbk : getBits (d.jattr b rb.j) 26 24 = 3)
include hbk

theorem xChainFormed_forms (h : d.chainFits vp b r rb = true) :
    xChainFormed vp k d = (d.setChained vp).setChained b := by
  subst hb
  simp only [xChainFormed, hr, hk, if_neg hdir, hrb, hbk, h, ne_eq, not_true_eq_false, Bool.true_eq_false,
    if_false]

theorem xChainFormed_fails (h : d.chainFits vp b r rb = false) : xChainFormed vp k d = d.jobError k.tick vp 7 b := by
  subst hb
  simp only [xChainFormed, hr, hk, if_neg hdir, hrb, hbk, h, ne_eq, not_true_eq_false, if_false, if_true]

end

/-- Whether a job has moved JLEN bytes, is no RING job, and has no fence left. -/
def jobOver (d : Dev) (vp : Nat) (r : SenRun) : Prop :=
  r.moved = d.regN (senReg vp .JLEN r.j) ∧ (d.jattr vp r.j).getLsbD 29 = false ∧ nget false d.fences (senMid vp) = false

theorem xJobEnd_over (h : jobOver d vp r) (he : ¬ ((d.jattr vp r.j).getLsbD 30 = true ∧ d.vpIn vp = true)) :
    xJobEnd vp d = d.closeJob vp r.j r.total 0 := by
  rw [jobOver] at h
  simp only [xJobEnd, hr, if_pos h, if_neg he]

theorem xJobEnd_over_eos (h : jobOver d vp r) (he : (d.jattr vp r.j).getLsbD 30 = true ∧ d.vpIn vp = true) :
    xJobEnd vp d = (d.setFifo vp (d.fifo vp ++ [.eos])).closeJob vp r.j r.total 0 := by
  rw [jobOver] at h
  simp only [xJobEnd, hr, if_pos h, if_pos he]

theorem xJobEnd_runs (h : ¬ jobOver d vp r) : xJobEnd vp d = d := by
  rw [jobOver] at h
  simp only [xJobEnd, hr, if_neg h]

end

/-- Settles O17: an element is decided by the port's direction and the kind of its job, and then by what source or sink
answers; each other row has one lemma for each outcome. -/
theorem streamEngines : Obligations.StreamEngines := by
  refine ⟨fun m vp j v s hm => ?jattr, fun vp sgl ans s hrun => ?jobStart, fun vp r ans e col s hrun hr => ?element,
    fun vp r s hrun hr => ?chain, fun vp r s hrun hr => ?jobEnd, fun vp s hrun hn => ?noJob, fun m vp v s hm => ?senCtrl⟩
  case jattr =>
    exact ⟨fun h hv => next_congr (xJattr_queues hm h hv), fun h hv => next_congr (xJattr_holds hm h hv),
      fun h => next_congr (xJattr_refused hm h)⟩
  case jobStart =>
    have hexec {d' : Dev} (h : xJobStart vp sgl ans s.clk s.d = d') :
        exec (.jobStart vp sgl ans) s = .next { s with d := d' } :=
      next_congr ((unlessHalted_running hrun).trans h)
    refine ⟨fun j r hn hq hen hb => ?_, fun h => hexec (xJobStart_none h)⟩
    have hdue := And.intro hn (And.intro hq (And.intro hen hb))
    exact ⟨fun hl ha => hexec (xJobStart_plain_runs hdue hl ha), fun hl ha hc hs => hexec (xJobStart_list_runs hdue hl ha hc hs),
      fun hl ha => hexec (xJobStart_plain_align hdue hl ha), fun hl ha => hexec (xJobStart_list_align hdue hl ha),
      fun hl ha hc => hexec (xJobStart_list_unread hdue hl ha hc)⟩
  case element =>
    intro attr kind oid base more dev host buf ch
    have hexec {d' : Dev} (h : xElementMove vp ans e col s.clk s.d = d') :
        exec (.elementMove vp ans e col) s = .next { s with d := d' } :=
      next_congr ((unlessHalted_running hrun).trans h)
    refine ⟨fun h => hexec (xElementMove_idle hr h), fun hmore hb ho hlev => ?input, fun w rest hmore ho hfifo => ?output⟩
    case input =>
      have hput {w : Word} {d' : Dev} {a : Nat} (hk : kind ≠ 3)
          (hf : s.d.fetchEl vp r.j r ans e col false s.clk = (0, w, d', a)) :
          exec (.elementMove vp ans e col) s = .next { s with d := putWord vp r d' w } :=
        hexec (xElementMove_fetched hr hmore hb ho hlev hk hf)
      have hend {w : Word} {d' : Dev} {a code : Nat} (hk : kind ≠ 3) (hc : code ≠ 0)
          (hf : s.d.fetchEl vp r.j r ans e col false s.clk = (code, w, d', a)) :
          exec (.elementMove vp ans e col) s = .next { s with d := d'.jobError s.clk.tick vp code a } :=
        hexec (xElementMove_unfetched hr hmore hb ho hlev hk hc hf)
      refine ⟨fun hk => ?device, fun w hk hi hw => ?host, fun hk hi hc => ?hostFails, fun hk hi => ?silent,
        fun hk hce hue => ?buffer, fun hk hce => ?corrected, fun hk hue => ?lost⟩
      case device =>
        have hk3 : kind ≠ 3 := by omega
        intro x code
        have hf : s.d.fetchEl vp r.j r ans e col false s.clk = (code, BitVec.ofNat 64 (leNat x.2.data), x.1, dev) :=
          fetchEl_device hk
        exact ⟨fun hc => hput hk3 (hc ▸ hf), fun hc => hend hk3 hc hf⟩
      case host =>
        subst hw
        exact hput (by omega) (fetchEl_host hk hi)
      case hostFails => exact hend (by omega) hc (fetchEl_host hk hi)
      case silent => exact hend (by omega) (by decide) (fetchEl_host_silent hk hi)
      case buffer => exact hput (by omega) (fetchEl_buffer hk hce hue)
      case corrected =>
        subst hce
        exact hput (by omega) (fetchEl_buffer_corrected hk)
      case lost =>
        subst hue
        exact hend (by omega) (by decide) (fetchEl_buffer_lost hk)
    case output =>
      intro d0
      have hsunk {d' : Dev} {a : Nat} (hk : kind ≠ 3) (hs : d0.sinkEl vp r.j r w ans e col s.clk = (0, d', a)) :
          exec (.elementMove vp ans e col) s = .next { s with d := d'.advance vp r } :=
        hexec (xElementMove_sunk hr hmore ho hfifo hk hs)
      have hend {d' : Dev} {a code : Nat} (hk : kind ≠ 3) (hc : code ≠ 0)
          (hs : d0.sinkEl vp r.j r w ans e col s.clk = (code, d', a)) :
          exec (.elementMove vp ans e col) s = .next { s with d := d'.jobError s.clk.tick vp code a } :=
        hexec (xElementMove_unsunk hr hmore ho hfifo hk hc hs)
      refine ⟨fun hk => ?device, fun hk hc => ?host, fun hk hc => ?hostFails, fun hk hc => ?buffer, fun hk hc => ?collided,
        fun rb hk hch hrb hchb hfit hin hlev hroute =>
          hexec (xElementMove_chained hr hmore ho hfifo hk rfl hrb ⟨hch, hchb, hfit⟩ hin hlev hroute)⟩
      case device =>
        have hk3 : kind ≠ 3 := by omega
        intro x code
        have hs : d0.sinkEl vp r.j r w ans e col s.clk = (code, x.1, dev) := sinkEl_device (d := d0) hk
        exact ⟨fun hc => hsunk hk3 (hc ▸ hs), fun hc => hend hk3 hc hs⟩
      case host => exact hsunk (by omega) (sinkEl_host_written (d := d0) hk hc)
      case hostFails => exact hend (by omega) hc (sinkEl_host_failed (d := d0) hk hc)
      case buffer =>
        subst hc
        exact hsunk (by omega) (sinkEl_buffer (d := d0) hk)
      case collided => exact hend (by omega) (by decide) (sinkEl_buffer_collided (d := d0) hk hc)
  case chain =>
    intro b chain
    have hexec {d' : Dev} (h : xChainFormed vp s.clk s.d = d') : exec (.chainFormed vp) s = .next { s with d := d' } :=
      next_congr ((unlessHalted_running hrun).trans h)
    refine ⟨fun hk => hexec (xChainFormed_other hr hk), fun hk ho hi => hexec (xChainFormed_noInput hr hk rfl ho hi),
      fun hk hdir hn => hexec (xChainFormed_alone hr hk rfl (not_bothSend hdir) hn), fun rb hk hdir hrb => ?_⟩
    refine ⟨fun hbk => hexec (xChainFormed_noChain hr hk rfl (not_bothSend hdir) hrb hbk), fun hbk hj ho hl => ?_, fun hbk hno => ?_⟩
    · exact hexec (xChainFormed_forms hr hk rfl (not_bothSend hdir) hrb hbk ((chainFits_iff hk hbk rfl).2 ⟨hj, ho, hl⟩))
    · have hfail : ¬ s.d.chainFits vp b r rb = true := fun hfit => by
        obtain ⟨hj, ho, hl⟩ := (chainFits_iff hk hbk rfl).1 hfit
        simp [hj, ho, hl] at hno
      exact hexec (xChainFormed_fails hr hk rfl (not_bothSend hdir) hrb hbk (Bool.eq_false_iff.2 hfail))
  case jobEnd =>
    have hexec {d' : Dev} (h : xJobEnd vp s.d = d') : exec (.jobEnd vp) s = .next { s with d := d' } :=
      next_congr ((unlessHalted_running hrun).trans h)
    exact ⟨fun h he => hexec (xJobEnd_over hr h he), fun h he => hexec (xJobEnd_over_eos hr h he),
      fun h => hexec (xJobEnd_runs hr h)⟩
  case noJob =>
    have hstill {d' : Dev} (h : d' = s.d) : s.d.unlessHalted d' = s.d := (unlessHalted_running hrun).trans h
    exact ⟨next_congr (hstill (xJobEnd_noJob hn)), next_congr (hstill (xChainFormed_noJob hn)),
      fun ans e col => next_congr (hstill (xElementMove_noJob hn))⟩
  case senCtrl => exact ⟨fun h => next_congr (xSenCtrl_runs hm h), fun h => next_congr (xSenCtrl_stops hm h)⟩

end Sys2Proof.Proofs

namespace Sys2Proof.Proofs

open Sys2Proof.Machine Sys2Proof.Safety

/-! Requests of masters (09 R249, R252, R256–R258, R261; 13 R364, R377; 19 R527; 20 R549–R552; 24 R607–R609). -/

/-! ### Masters of another OID (09 R249, MEM-1) -/

theorem not_owner {m : Mst} (h : m.oid ≠ 0) : m.owner = false := by simpa [Mst.owner] using h

/-- A row that MEM-1 gives to OID 0 alone answers another master SLVERR, whatever it would do for the owner. -/
theorem next_denied {m : Mst} (hm : m.oid ≠ 0) (s : State) (x : RKey) (d' : Dev) :
    (.next { s with d := if !m.owner then s.d.denyOid m x else d' } : Host.Outcome State Fault Refusal)
      = .next { s with d := s.d.slverr m x } :=
  next_congr (if_pos (by simp [not_owner hm]))

/-! ### The request at its master (09 R256–R258; 19 R527) -/

section
variable {a : Access} {e : HbmErr} {k : Clk} {d : Dev}

theorem xNocRequest_held (h : d.mustHold a = true) : xNocRequest a e k d = d.hold a false e := if_pos h

variable (h : d.mustHold a = false)
include h

/-- A request that meets basking domains wakes them, and waits for the first. -/
theorem xNocRequest_waits {x : Nat × Nat} {r : List (Nat × Nat)} (hb : d.baskingOn a = x :: r) :
    let d1 := (x :: r).foldl (fun y w => y.startWake w.1 w.2) d
    xNocRequest a e k d
      = { d1 with waiters := d1.waiters ++ [⟨x.1, x.2, a, d.freeTag a.m.mid, d.epochOf a.m.mid⟩] } := by
  simp only [xNocRequest, h, Bool.false_eq_true, if_false, Dev.nocIssue, hb]

/-- A request that nothing holds back is served at its target. -/
theorem xNocRequest_served (hb : d.baskingOn a = []) :
    xNocRequest a e k d = d.nocServeAs a e k (d.freeTag a.m.mid) (d.epochOf a.m.mid) := by
  simp only [xNocRequest, h, Bool.false_eq_true, if_false, Dev.nocIssue, hb]

end

/-- Both rows of a request are the request on the NoC of what the master issues, after its fence where it fences. -/
theorem exec_request {a0 : Access} {e : HbmErr} {fence : Bool} {row : Instr} {s : State} {d0 d' : Dev}
    (hrun : s.d.sysHalt = false ∨ a0.m.mid = 0x4C0)
    (hrow : row = Instr.nocRequest a0 e fence ∨ (row = .registerWrite a0 ∧ e = .none ∧ fence = false ∧
      (isQReg a0.addr = true ∨ isAo a0.addr = true)))
    (hfence : (fence = true → d0 = s.d.fence a0.m.mid) ∧ (fence = false → d0 = s.d))
    (h : xNocRequest (s.d.issued a0) e s.clk d0 = d') : exec row s = .next { s with d := d' } := by
  subst h
  rcases hrow with rfl | ⟨rfl, rfl, rfl, hreg⟩
  · have hd : (if fence then s.d.fence a0.m.mid else s.d) = d0 := by
      cases fence with
      | true => exact (hfence.1 rfl).symm
      | false => exact (hfence.2 rfl).symm
    rw [← hd]
    exact next_congr (unlessHaltedFor_running hrun)
  · rw [hfence.2 rfl]
    have hr : (isQReg a0.addr || isAo a0.addr) = true := by simpa using hreg
    exact next_congr ((unlessHaltedFor_running hrun).trans (if_pos hr))

/-! ### The request at its target (09 R249, R256, R261) -/

section
variable {a : Access} {e : HbmErr} {k : Clk} {tag epoch : Nat} {d : Dev}

section
variable (h : ¬ (isQReg a.addr = true ∨ isAo a.addr = true))
include h

theorem nocServeAs_badShape (hb : burstOk a = false) : d.nocServeAs a e k tag epoch = d :=
  (if_neg (by simpa using h)).trans (if_pos (by simp [hb]))

variable (hb : burstOk a = true)
include hb

theorem nocServeAs_tmem (ht : isTmem a.addr = true) : d.nocServeAs a e k tag epoch = d.tmemQueue a tag epoch :=
  (if_neg (by simpa using h)).trans ((if_neg (by simp [hb])).trans (if_pos ht))

theorem nocServeAs_memory (ht : isTmem a.addr = false) :
    d.nocServeAs a e k tag epoch = (d.memAcc k a e).1.reply (d.memAcc k a e).2 :=
  (if_neg (by simpa using h)).trans ((if_neg (by simp [hb])).trans (if_neg (Bool.eq_false_iff.1 ht)))

end

theorem nocServeAs_register {t : Nat} (h : isQReg a.addr = true ∨ isAo a.addr = true) (ht : d.targetQ a.addr = some t) :
    d.nocServeAs a e k tag epoch = d.regRequest a t k := by
  rw [Dev.nocServeAs, if_pos (by simpa using h), ht]

theorem regRequest_unreached {t : Nat} (h : ¬ d.routeOk (d.midQuarter a.m.mid) t = true) :
    d.regRequest a t k = (d.nocErr t a.m.mid a.addr .slverr).reply ⟨.slverr, noBytes a⟩ :=
  if_pos (by simpa using h)

theorem regRequest_reached {t : Nat} (h : d.routeOk (d.midQuarter a.m.mid) t = true) : d.regRequest a t k = d.regServe a k :=
  if_neg (by simp [h])

end

/-! ### A register space (24 R607–R613; 09 R249, R261) -/

/-- Where an access to register space falls. -/
def spotOf (d : Dev) (addr : Nat) : Spot :=
  ⟨if isAo addr then d.liveQ else (addr - 0xF000000000) / 2 ^ 24, isAo addr, addr % 2 ^ 24⟩

/-- The register at an offset of the space in which a spot lies. -/
def regFind (p : Spot) (d : Dev) (o : Nat) : Option RKey := if p.ao then aoRegAt o else d.qRegAt p.q o

section
variable {a : Access} {k : Clk} {d : Dev}

theorem regServe_hole (hao : isAo a.addr = false) (hh : inHole (a.addr % 2 ^ 24) = true) :
    d.regServe a k = (d.nocErr (spotOf d a.addr).q a.m.mid a.addr .decerr).answer .decerr 0 :=
  if_pos (by rw [hao, hh]; rfl)

section
variable (hh : isAo a.addr = true ∨ inHole (a.addr % 2 ^ 24) = false)
include hh

theorem not_hole : ¬ (!isAo a.addr && inHole (a.addr % 2 ^ 24)) = true := by
  rcases hh with h | h
  · simp [h]
  · rw [h, Bool.and_false]
    exact Bool.false_ne_true

theorem regServe_denied (ho : a.m.owner = false) :
    d.regServe a k = d.spotFail a.m (spotOf d a.addr) (some a.addr) :=
  (if_neg (not_hole hh)).trans (if_pos (by simp [ho]))

variable (ho : a.m.owner = true)
include ho

/-- A block that is absent reads 0 and refuses writes. -/
theorem regServe_absent (h : isAo a.addr = false ∧ absentAt (spotOf d a.addr).q (a.addr % 2 ^ 24) = true) :
    d.regServe a k
      = if a.write then (d.spotErr a.m (spotOf d a.addr) .refused true a.size).spotFail a.m (spotOf d a.addr) (some a.addr)
        else d.answer .okay 0 := by
  refine (if_neg (not_hole hh)).trans ((if_neg (by simp [ho])).trans (if_pos ?_))
  exact (Bool.and_eq_true _ _).mpr ⟨by simp [h.1], h.2⟩

theorem regServe_present (h : isAo a.addr = true ∨ absentAt (spotOf d a.addr).q (a.addr % 2 ^ 24) = false) :
    d.regServe a k = d.regAccess (regFind (spotOf d a.addr)) a.m (spotOf d a.addr) (some a.addr) a.size a.write a.data k := by
  refine (if_neg (not_hole hh)).trans ((if_neg (by simp [ho])).trans (if_neg ?_))
  intro hno
  obtain ⟨hao, habs⟩ := (Bool.and_eq_true _ _).mp hno
  rcases h with h | h
  · simp [h] at hao
  · exact Bool.noConfusion (h.symm.trans habs)

end
end

/-! ### An access by its width and alignment (20 R549–R551) -/

/-- An access that its width and its alignment allow. -/
def Sized (n o : Nat) : Prop := n ≤ 8 ∧ [1, 2, 4, 8].contains n = true ∧ o % n = 0

theorem regBytes_le (x : RKey) : regBytes x ≤ 8 := by
  unfold regBytes; split <;> decide

section
variable {find : Dev → Nat → Option RKey} {m : Mst} {p : Spot} {addr : Option Nat} {n : Nat} {w : Bool} {v : Nat} {k : Clk}
  {d : Dev}

theorem regAccess_burst (h : 8 < n) : d.regAccess find m p addr n w v k = (d.spotErr m p .burst w 8).spotFail m p addr :=
  if_pos h

theorem regAccess_unaligned (hn : n ≤ 8) (h : [1, 2, 4, 8].contains n = false ∨ p.off % n ≠ 0) :
    d.regAccess find m p addr n w v k
      = (d.spotErr m p (if w then .unalignedWrite else .unalignedRead) w n).spotFail m p addr :=
  (if_neg (Nat.not_lt.2 hn)).trans (if_pos h)

section
variable (h : Sized n p.off)
include h

theorem Sized.not_unaligned : ¬ ([1, 2, 4, 8].contains n = false ∨ p.off % n ≠ 0) := by
  obtain ⟨-, hc, ho⟩ := h
  rintro (hno | hno)
  · exact Bool.noConfusion (hc.symm.trans hno)
  · exact hno ho

/-- An access that lies in one register at most is one part. -/
theorem regAccess_one (h8 : n ≠ 8 ∨ (find d p.off).map regBytes = some 8) :
    d.regAccess find m p addr n w v k = d.onePart m (find d p.off) p addr n w v k := by
  have hone : ¬ (n = 8 ∧ (find d p.off).map regBytes ≠ some 8) := by
    rintro ⟨hn, hne⟩
    rcases h8 with h8 | h8
    · exact h8 hn
    · exact hne h8
  exact (if_neg (Nat.not_lt.2 h.1)).trans ((if_neg h.not_unaligned).trans (if_neg hone))

/-- The low half, then the high half, of 8 bytes that no one register holds. -/
theorem regAccess_two (h8 : n = 8) (hx : ∀ x, find d p.off = some x → regBytes x ≠ 8) :
    let lo := d.onePart m (find d p.off) p addr 4 w (v % 2 ^ 32) k
    let hi := lo.onePart m (find lo (p.off + 4)) { p with off := p.off + 4 } (addr.map (· + 4)) 4 w (v / 2 ^ 32 % 2 ^ 32) k
    d.regAccess find m p addr n w v k = hi.answer (lo.out.code.worse hi.out.code)
      (if w then 0 else BitVec.ofNat 64 (hi.out.data.toNat % 2 ^ 32 * 2 ^ 32 + lo.out.data.toNat % 2 ^ 32)) := by
  have htwo : n = 8 ∧ (find d p.off).map regBytes ≠ some 8 := by
    refine ⟨h8, fun hmap => ?_⟩
    obtain ⟨x, hf, hw⟩ := Option.map_eq_some_iff.1 hmap
    exact hx x hf hw
  exact (if_neg (Nat.not_lt.2 h.1)).trans ((if_neg h.not_unaligned).trans (if_pos htwo))

end

/-! ### One register (20 R549, R550) -/

variable {x : RKey}

theorem onePart_reserved : d.onePart m none p addr n w v k = d.answer .okay 0 := rfl

theorem onePart_write (h : n = regBytes x) (hw : w = true) :
    d.onePart m (some x) p addr n w v k = d.regWrite m x (v % 256 ^ n) k :=
  (if_neg (Nat.not_lt.2 (Nat.le_of_eq h.symm))).trans (if_pos hw)

theorem onePart_read (h : n = regBytes x) (hw : w = false) : d.onePart m (some x) p addr n w v k = d.regRead m x k :=
  (if_neg (Nat.not_lt.2 (Nat.le_of_eq h.symm))).trans (if_neg (Bool.eq_false_iff.1 hw))

section
variable (h : n < regBytes x)
include h

theorem onePart_narrowWrite (hw : w = true) (hx : x.r ≠ .FN_PBA ∨ n ≠ 4) :
    d.onePart m (some x) p addr n w v k = (d.spotErr m p .narrowWrite w n).spotFail m p addr := by
  subst hw
  exact (if_pos h).trans ((if_pos rfl).trans (if_neg (not_and_or.2 hx)))

variable (hw : w = false)
include hw

theorem onePart_narrowRead_acts (ha : d.readActs m x = true) :
    d.onePart m (some x) p addr n w v k = (d.spotErr m p .narrowRead w n).answer .okay 0 := by
  subst hw
  exact (if_pos h).trans ((if_neg Bool.false_ne_true).trans (if_pos ha))

theorem onePart_narrowRead (ha : d.readActs m x = false) :
    d.onePart m (some x) p addr n w v k
      = (d.regRead m x k).answer (d.regRead m x k).out.code
          (BitVec.ofNat 64 ((d.regRead m x k).out.data.toNat / 256 ^ (p.off % regBytes x) % 256 ^ n)) :=
  (if_pos h).trans ((if_neg (Bool.eq_false_iff.1 hw)).trans (if_neg (Bool.eq_false_iff.1 ha)))

end
end

/-! ### Requests on a BAR (13 R364, R377) -/

/-- The running chip has a function behind link `L` that the request on its BAR reaches. -/
def BarHits (d : Dev) (oid bar off size L : Nat) : Prop :=
  d.sysHalt = false ∧ d.linkOf oid = some L ∧ d.fnReached oid = true ∧ off < d.barSize oid bar ∧ size ≠ 0

/-- A response is not given: what the port shows stays that of `d0`. -/
def silent (d0 d : Dev) : Dev :=
  { d with out := { d.out with code := d0.out.code, data := d0.out.data, burst := d0.out.burst } }

section
variable {d d0 : Dev} {L oid : Nat} {write : Bool}

theorem barEnd_write (hw : write = true) : d.barEnd d0 L oid write = silent d0 d := if_pos hw

theorem barEnd_read (hw : write = false) : d.barEnd d0 L oid write =
    match d.out.code with
    | .slverr => d.fnError L oid 15
    | .decerr => d.fnError L oid 20
    | _ => d := if_neg (Bool.eq_false_iff.1 hw)

theorem barEnd_slverr (hw : write = false) (h : d.out.code = .slverr) : d.barEnd d0 L oid write = d.fnError L oid 15 := by
  rw [barEnd_read hw, h]

theorem barEnd_decerr (hw : write = false) (h : d.out.code = .decerr) : d.barEnd d0 L oid write = d.fnError L oid 20 := by
  rw [barEnd_read hw, h]

theorem barEnd_done (hw : write = false) (hs : d.out.code ≠ .slverr) (hd : d.out.code ≠ .decerr) :
    d.barEnd d0 L oid write = d := by
  rw [barEnd_read hw]
  cases hc : d.out.code with
  | slverr => exact absurd hc hs
  | decerr => exact absurd hc hd
  | okay | collided => rfl

end

section
variable {d : Dev} {oid bar off size : Nat} {write : Bool} {v : Nat} {k : Clk} {L : Nat}

theorem barRequest_missed (h : ∀ L, ¬ BarHits d oid bar off size L) :
    d.unlessHalted (xBarRequest oid bar off size write v k d) = d := by
  cases hrun : d.sysHalt with
  | true => exact if_pos hrun
  | false =>
    rw [unlessHalted_running hrun, xBarRequest]
    cases hL : d.linkOf oid with
    | none => rfl
    | some L =>
      refine if_pos (by_contra fun hno => h L ?_)
      simp only [not_or, Bool.not_eq_false, Nat.not_le] at hno
      exact ⟨hrun, hL, hno⟩

variable (h : BarHits d oid bar off size L)
include h

/-- A request that hits is decided by whether its function is open and its die serves. -/
theorem barRequest_hits : d.unlessHalted (xBarRequest oid bar off size write v k d) =
    if d.barOpen oid = false then (if write then d.fnError L oid 20 else (d.answer .decerr 0).barEnd d L oid false)
    else if d.domCur (L / 8) 16 = 2 ∨ d.inReset (L / 8) = true then (d.answer .slverr 0).barEnd d L oid write
    else (d.barServe L oid bar off size write v k).barEnd d L oid write := by
  obtain ⟨hrun, hL, hf, ho, hs⟩ := h
  have hreach : ¬ (d.fnReached oid = false ∨ d.barSize oid bar ≤ off ∨ size = 0) := by
    simp only [hf, hs, Nat.not_le.2 ho, or_self, Bool.true_eq_false, not_false_eq_true]
  rw [unlessHalted_running hrun, xBarRequest, hL]
  simp only [if_neg hreach, Bool.not_eq_true']

theorem barRequest_closed (ho : d.barOpen oid = false) : d.unlessHalted (xBarRequest oid bar off size write v k d)
    = if write then d.fnError L oid 20 else (d.answer .decerr 0).fnError L oid 20 := by
  rw [barRequest_hits h, if_pos ho, barEnd_decerr rfl rfl]

variable (ho : d.barOpen oid = true)
include ho

theorem barRequest_dead (hd : ¬ (d.domCur (L / 8) 16 ≠ 2 ∧ d.inReset (L / 8) = false)) :
    d.unlessHalted (xBarRequest oid bar off size write v k d) = (d.answer .slverr 0).barEnd d L oid write := by
  have hdead : d.domCur (L / 8) 16 = 2 ∨ d.inReset (L / 8) = true := by
    simpa only [not_and_or, not_not, Bool.not_eq_false] using hd
  rw [barRequest_hits h, if_neg (ne_false_of_eq_true ho), if_pos hdead]

theorem barRequest_served (hd : d.domCur (L / 8) 16 ≠ 2 ∧ d.inReset (L / 8) = false) :
    d.unlessHalted (xBarRequest oid bar off size write v k d)
      = (d.barServe L oid bar off size write v k).barEnd d L oid write := by
  have hlive : ¬ (d.domCur (L / 8) 16 = 2 ∨ d.inReset (L / 8) = true) := by
    simp only [hd, or_self, Bool.false_eq_true, not_false_eq_true]
  rw [barRequest_hits h, if_neg (ne_false_of_eq_true ho), if_neg hlive]

end

/-- Settles O50: a request is decided by its master, its target and there by place, owner, width and register; a BAR request
by whether it hits, is open and is served; every row of another OID by MEM-1. -/
theorem requests : Obligations.Requests := by
  refine ⟨fun a0 e fence row s hrun => ?request, fun a e fence s => ?halted, fun oid bar off size write data s => ?bar,
    fun m s hm => ?denied⟩
  case request =>
    intro isReg hrow a mid d0 hf1 hf0 free
    have hexec {d' : Dev} (h : xNocRequest a e s.clk d0 = d') : exec row s = .next { s with d := d' } :=
      exec_request hrun hrow ⟨hf1, hf0⟩ h
    have hserve {d' : Dev} (hfree : free) (h : d0.nocServeAs a e s.clk (d0.freeTag mid) (d0.epochOf mid) = d') :
        exec row s = .next { s with d := d' } :=
      hexec ((xNocRequest_served hfree.1 hfree.2).trans h)
    refine ⟨fun h => hexec (xNocRequest_held h), fun x r h hb => hexec (xNocRequest_waits h hb),
      fun hfree hr hb => hserve hfree (nocServeAs_badShape hr hb), fun hfree hr hb ht => hserve hfree (nocServeAs_tmem hr hb ht),
      fun hfree hr hb ht => hserve hfree (nocServeAs_memory hr hb ht), fun t hfree hr ht => ?register⟩
    intro ao q o up there mine present absent n w zeros nocErr log sized reg
    have htarget {d' : Dev} (h : d0.regRequest a t s.clk = d') : exec row s = .next { s with d := d' } :=
      hserve hfree ((nocServeAs_register (a := a) hr ht).trans h)
    have hplace {d' : Dev} (hup : up) (h : d0.regServe a s.clk = d') : exec row s = .next { s with d := d' } :=
      htarget ((regRequest_reached (a := a) hup).trans h)
    have habsent {d' : Dev} (ha : absent) (h : (if a.write then (d0.spotErr a.m (spotOf d0 a.addr) .refused true a.size).spotFail
        a.m (spotOf d0 a.addr) (some a.addr) else d0.answer .okay 0) = d') : exec row s = .next { s with d := d' } := by
      obtain ⟨⟨⟨hup, hh⟩, ho⟩, hao, habs⟩ := ha
      exact hplace hup ((regServe_absent (a := a) hh (owner_of_oid ho) ⟨hao, habs⟩).trans h)
    have haccess {d' : Dev} (hp : present) (h : d0.regAccess (regFind (spotOf d0 a.addr)) a.m (spotOf d0 a.addr) (some a.addr)
        a.size a.write a.data s.clk = d') : exec row s = .next { s with d := d' } := by
      obtain ⟨⟨⟨hup, hh⟩, ho⟩, hpres⟩ := hp
      exact hplace hup ((regServe_present (a := a) hh (owner_of_oid ho) hpres).trans h)
    have hpart {d' : Dev} (hs : sized) (h8 : n ≠ 8 ∨ reg.map regBytes = some 8)
        (h : d0.onePart a.m reg (spotOf d0 a.addr) (some a.addr) n w a0.data s.clk = d') : exec row s = .next { s with d := d' } :=
      haccess hs.1 ((regAccess_one (p := spotOf d0 a.addr) hs.2 h8).trans h)
    have hone {x : RKey} {d' : Dev} (hs : sized) (hx : reg = some x) (h8 : n ≠ 8 ∨ regBytes x = 8)
        (h : d0.onePart a.m (some x) (spotOf d0 a.addr) (some a.addr) n w a0.data s.clk = d') :
        exec row s = .next { s with d := d' } :=
      hpart hs (h8.imp_right fun h => by rw [hx]; exact congrArg some h) (by rw [hx]; exact h)
    have hlog (c : AErr) (hc : c ≠ .burst) : log c = d0.spotErr a.m (spotOf d0 a.addr) c w n :=
      congrArg (d0.accessErr c q mid w · o ao) (if_neg hc)
    refine ⟨fun hup => htarget (regRequest_unreached (a := a) hup), fun hup hao hh => hplace hup (regServe_hole (a := a) hao hh),
      fun hth ho => hplace hth.1 (regServe_denied (a := a) hth.2 (not_owner ho)), fun ha hw => habsent ha (if_pos hw),
      fun ha hw => habsent ha (if_neg (Bool.eq_false_iff.1 hw)), fun hp hn => haccess hp (regAccess_burst hn),
      fun hp hn hu => ?unaligned, fun hs hn hx => ?reserved, fun x hs hx hn => ?whole, fun x hs hx hn => ?narrow,
      fun hs hn hx => haccess hs.1 (regAccess_two (p := spotOf d0 a.addr) hs.2 hn hx)⟩
    case unaligned =>
      have hc : (if w then AErr.unalignedWrite else .unalignedRead) ≠ .burst := by split <;> decide
      rw [hlog _ hc]
      exact haccess hp (regAccess_unaligned (p := spotOf d0 a.addr) hn hu)
    case reserved =>
      refine hpart hs (.inl hn) ?_
      rw [hx]
      exact onePart_reserved
    case whole =>
      have h8 : n ≠ 8 ∨ regBytes x = 8 := by omega
      exact ⟨fun hw => hone hs hx h8 (onePart_write hn hw), fun hw => hone hs hx h8 (onePart_read hn hw)⟩
    case narrow =>
      have h8 : n ≠ 8 := by
        have := regBytes_le x
        omega
      refine ⟨fun hw hpba => ?_, fun hw hacts => ?_, fun hw hacts => hone hs hx (.inl h8) (onePart_narrowRead hn hw hacts)⟩
      · rw [hlog _ (by decide)]
        exact hone hs hx (.inl h8) (onePart_narrowWrite hn hw hpba)
      · rw [hlog _ (by decide)]
        exact hone hs hx (.inl h8) (onePart_narrowRead_acts hn hw hacts)
  case halted =>
    refine ⟨fun hs hm => ⟨next_congr (unlessHaltedFor_halted ⟨hs, hm⟩), next_congr (unlessHaltedFor_halted ⟨hs, hm⟩)⟩,
      fun hq ha => next_congr ?_⟩
    have hnot : ¬ (isQReg a.addr || isAo a.addr) = true := by simp [hq, ha]
    exact (congrArg (s.d.unlessHaltedFor a.m) (if_neg hnot)).trans (unlessHaltedFor_self s.d a.m)
  case bar =>
    intro row hits alive
    refine ⟨fun h => next_congr (barRequest_missed h), fun L h ho => ?closed, fun L h ho => ?opened⟩
    case closed =>
      exact ⟨fun hw => next_congr ((barRequest_closed h ho).trans (if_pos hw)),
        fun hw => next_congr ((barRequest_closed h ho).trans (if_neg (Bool.eq_false_iff.1 hw)))⟩
    case opened =>
      exact ⟨fun hd hw => next_congr ((barRequest_dead h ho hd).trans (barEnd_slverr hw rfl)),
        fun hd hw => next_congr ((barRequest_dead h ho hd).trans (barEnd_write hw)),
        fun hd hw => next_congr ((barRequest_served h ho hd).trans (barEnd_write hw)),
        fun hd hw hc => next_congr ((barRequest_served h ho hd).trans (barEnd_slverr hw hc)),
        fun hd hw hc => next_congr ((barRequest_served h ho hd).trans (barEnd_decerr hw hc)),
        fun hd hw hs hc => next_congr ((barRequest_served h ho hd).trans (barEnd_done hw hs hc))⟩
  case denied =>
    intro no
    refine ⟨fun c p a b v => ?_, fun q i j v => ?_, fun q i v => ?_, fun q i v => ?_, fun q i v => ?_⟩
    all_goals and_intros <;> exact next_denied hm s _ _

end Sys2Proof.Proofs

namespace Sys2Proof.Proofs

open Sys2Proof.Machine Sys2Proof.Safety

/-! The commands of DSP_CMD (10 R280, R282, R284, R291–R294), and what an accepted SUBMIT leaves. -/

/-! ### What a request to HBM leaves (09 R251, R263, R265) -/

/-- From chip `d` to chip `e` registers, memory with its error marks, the stream cache, the event latches and the count of free
values alone differ. -/
def MemOnly (d e : Dev) : Prop :=
  ∃ regs mem ecc scc occ free, e = { d with regs := regs, mem := mem, ecc := ecc, scc := scc, occ := occ, free := free }

namespace MemOnly

section
variable {d e f : Dev}

theorem refl : MemOnly d d := ⟨_, _, _, _, _, _, rfl⟩

theorem trans (h : MemOnly d e) (h' : MemOnly e f) : MemOnly d f := by
  obtain ⟨_, _, _, _, _, _, rfl⟩ := h
  exact h'

theorem foldl {α : Type} {l : List α} {step : Dev → α → Dev} (h : ∀ x a, MemOnly x (step x a)) :
    MemOnly d (l.foldl step d) :=
  List.foldlRecOn (motive := MemOnly d) l step refl fun _ hx a _ => hx.trans (h _ a)

theorem ite {p : Prop} [Decidable p] (he : MemOnly d e) (hf : MemOnly d f) : MemOnly d (if p then e else f) := by
  split
  · exact he
  · exact hf

theorem tasks (h : MemOnly d e) : e.tasks = d.tasks := by
  obtain ⟨_, _, _, _, _, _, rfl⟩ := h
  rfl

theorem slices (h : MemOnly d e) : e.slices = d.slices := by
  obtain ⟨_, _, _, _, _, _, rfl⟩ := h
  rfl

theorem cores (h : MemOnly d e) : e.cores = d.cores := by
  obtain ⟨_, _, _, _, _, _, rfl⟩ := h
  rfl

theorem arr (h : MemOnly d e) : e.arr = d.arr := by
  obtain ⟨_, _, _, _, _, _, rfl⟩ := h
  rfl


end

variable (d : Dev)

theorem setReg (x : RKey) (v : Word) : MemOnly d (d.setReg x v) := ⟨_, _, _, _, _, _, rfl⟩

theorem bump (x : RKey) : MemOnly d (d.bump x) := ⟨_, _, _, _, _, _, rfl⟩

theorem fresh : MemOnly d d.fresh.2 := ⟨_, _, _, _, _, _, rfl⟩

theorem setScc (k : Nat) (l : SccLine) : MemOnly d (d.setScc k l) := ⟨_, _, _, _, _, _, rfl⟩

theorem poisonUnits (a n : Nat) : MemOnly d (d.poisonUnits a n) := ⟨_, _, _, _, _, _, rfl⟩

theorem coverUnits (a n : Nat) : MemOnly d (d.coverUnits a n) := ⟨_, _, _, _, _, _, rfl⟩

theorem raise (q s : Nat) : MemOnly d (d.raise q s) := ite ⟨_, _, _, _, _, _, rfl⟩ refl

theorem logFirst (x : RKey) (r : Nat) : MemOnly d (d.logFirst x r) := ite (setReg d _ _) (setReg d _ _)

theorem nocErr (q mid a : Nat) (c : RespCode) : MemOnly d (d.nocErr q mid a c) := logFirst d _ _

theorem counted (x y : RKey) (r q s : Nat) : MemOnly d (((d.bump x).logFirst y r).raise q s) :=
  ((bump d x).trans (logFirst _ y r)).trans (raise _ q s)

theorem winFault (mid oid a : Nat) (w : Bool) : MemOnly d (d.winFault mid oid a w) := counted d _ _ _ _ _

theorem setBytes (bs : List Byte) : ∀ (d : Dev) (a : Nat), MemOnly d (d.setBytes a bs) := by
  induction bs with
  | nil => exact fun _ _ => refl
  | cons b bs ih => exact fun d a => trans (e := d.setByte a b) ⟨_, _, _, _, _, _, rfl⟩ (ih _ _)

theorem setDom (q i cur : Nat) : MemOnly d (d.setDom q i cur) := ite ((setReg d _ _).trans (setReg _ _ _)) (setReg d _ _)

theorem wakeDom (q i : Nat) : MemOnly d (d.wakeDom q i) := ite (setDom d q i 0) refl

theorem sccAlloc (q blk mask : Nat) (dirty : Bool) : MemOnly d (d.sccAlloc q blk mask dirty) :=
  ite refl ((fresh d).trans (setScc _ _ _))

theorem sccUe (q blk k : Nat) : MemOnly d (d.sccUe q blk k) :=
  ite ((logFirst d _ _).trans (poisonUnits _ _ _)) ((logFirst d _ _).trans (setScc _ _ _))

theorem sccErr (q blk : Nat) (e : HbmErr) : MemOnly d (d.sccErr q blk e) := by
  unfold Dev.sccErr
  split
  · split
    · exact sccUe d _ _ _
    · exact bump d _
    · exact refl
  · exact refl

theorem sccLineOf (oid q blk : Nat) (w x : Bool) (e : HbmErr) : MemOnly d (d.sccLineOf oid q blk w x e).1 := by
  unfold Dev.sccLineOf
  extract_lets cls d0
  split
  · exact bump d _
  · split
    · exact (sccErr d q blk e).trans ((bump _ _).trans (ite (setScc _ _ _) refl))
    · exact (sccErr d q blk e).trans ((bump _ _).trans (ite refl (sccAlloc _ _ _ _ _)))

theorem sccPass (oid a n : Nat) (w x : Bool) (e : HbmErr) : MemOnly d (d.sccPass oid a n w x e).1 :=
  List.foldlRecOn (motive := fun y : Dev × List Nat => MemOnly d y.1) _ _ refl
    fun _ hy _ _ => hy.trans (sccLineOf _ _ _ _ _ _ _)

theorem hbmUe (a : Nat) : MemOnly d (d.hbmUe a) := (poisonUnits d a 1).trans (counted _ _ _ _ _ _)

theorem struck (missed : Bool) (e : HbmErr) (a : Nat) : MemOnly d (struck d missed e a) := 
  ite (bump d _) (ite (poisonUnits d _ _) refl)

theorem ueUnits (missed : List Nat) (a : Access) : MemOnly d (ueUnits d missed a) := foldl fun x u => hbmUe x u

theorem hbmServe (a : Access) (x : Bool) (e : HbmErr) : MemOnly d (d.hbmServe a x e).1 := by
  cases hok : d.winOk a.m.oid a.addr a.write with
  | false =>
    rw [hbmServe_refused hok]
    exact winFault d _ _ _ _
  | true =>
    have hpass := sccPass d a.m.oid a.addr a.size a.write x e
    cases hw : a.write with
    | true =>
      rw [hbmServe_write hok hw]
      exact hpass.trans ((setBytes _ _ _).trans (coverUnits _ _ _))
    | false =>
      rw [hbmServe_read hok hw rfl]
      have hue := hpass.trans ((struck _ ((d.sccPass a.m.oid a.addr a.size a.write x e).2.contains (a.addr / 256)) e a.addr).trans
        (ueUnits _ (d.sccPass a.m.oid a.addr a.size a.write x e).2 a))
      split
      · exact hue
      · exact hue.trans (nocErr _ _ _ _ _)

theorem hbm (a : Access) (x : Bool) (e : HbmErr) : MemOnly d (d.hbm a x e).1 := by
  unfold Dev.hbm
  extract_lets q s
  split
  · exact nocErr d _ _ _ _
  · split
    · exact nocErr d _ _ _ _
    · exact ((wakeDom d _ _).trans (wakeDom _ _ _)).trans (hbmServe _ _ _ _)

/-! ### What the slice writes (10 R280, R298) -/

theorem dspErr (q cmd t reason mid : Nat) : MemOnly d (d.dspErr q cmd t reason mid) := counted d _ _ _ _ _

theorem tcbWrite (t off n v : Nat) : MemOnly d (d.tcbWrite t off n v) :=
  ite (hbm d _ _ _) ((hbm d _ _ _).trans (dspErr _ _ _ _ _ _))

theorem tcbState (t : Nat) (x : Machine.Task) : MemOnly d (d.tcbState t x) := (tcbWrite d _ _ _ _).trans (tcbWrite _ _ _ _ _)

theorem trace (now t : Nat) (x : Machine.Task) (r : Tr) : MemOnly d (d.trace now t x r) :=
  ite refl (ite (bump d _) (ite ((hbm d _ _ _).trans (setReg _ _ _)) ((hbm d _ _ _).trans (bump _ _))))

end MemOnly

/-! ### SUBMIT (10 R280, R282) -/

section
variable {d : Dev} {m : Mst} {q t now reason : Nat} {k : Clk} {ack : Option Nat} {x : Machine.Task}

/-- The slice reads the TCB of a submitted task. -/
def tcbAnswer (d : Dev) (t : Nat) : Dev × Ans := d.hbm (rdReq (sliceMid (t / 2 ^ 18)) 0 (d.tcbAddr t) 128) false .none

theorem xSubmit_gated (h : d.dspGate m q t = some reason) : xSubmit m q t k d = d.dspReject m q 1 t reason := by
  simp only [xSubmit, h]

/-- A SUBMIT that passes the gate is decided by the task's state and its TCB. -/
theorem xSubmit_rejected (hg : d.dspGate m q t = none) {d1 : Dev} (h : d.submit k.tick t (some m.mid) = (d1, some reason)) :
    xSubmit m q t k d = d1.dspReject m q 1 t reason := by
  simp only [xSubmit, hg, h]

theorem submit_live (h : d.task t ≠ none) : d.submit now t ack = (d, some 3) := if_pos (Option.isSome_iff_ne_none.2 h)

section
variable (hn : d.task t = none)
include hn

theorem submit_notLive : d.submit now t ack =
    if (tcbAnswer d t).2.code ≠ .okay then ((tcbAnswer d t).1, some 7)
    else if !(tcbAnswer d t).1.tcbOk t (tcbAnswer d t).2.data then ((tcbAnswer d t).1, some 4)
    else ((tcbAnswer d t).1.submitTask now t (taskOf (tcbAnswer d t).2.data) ack, none) :=
  if_neg (by simp [hn])

theorem submit_unread (hc : (tcbAnswer d t).2.code ≠ .okay) : d.submit now t ack = ((tcbAnswer d t).1, some 7) :=
  (submit_notLive hn).trans (if_pos hc)

variable (hc : (tcbAnswer d t).2.code = .okay)
include hc

theorem submit_malformed (h : (tcbAnswer d t).1.tcbOk t (tcbAnswer d t).2.data = false) :
    d.submit now t ack = ((tcbAnswer d t).1, some 4) :=
  (submit_notLive hn).trans ((if_neg (not_not.2 hc)).trans (if_pos (by simp [h])))

theorem submit_accepted (h : (tcbAnswer d t).1.tcbOk t (tcbAnswer d t).2.data = true) :
    d.submit now t ack = ((tcbAnswer d t).1.submitTask now t (taskOf (tcbAnswer d t).2.data) ack, none) :=
  (submit_notLive hn).trans ((if_neg (not_not.2 hc)).trans (if_neg (by simp [h])))

theorem xSubmit_accepted (hg : d.dspGate m q t = none) (h : (tcbAnswer d t).1.tcbOk t (tcbAnswer d t).2.data = true) :
    xSubmit m q t k d =
      ((tcbAnswer d t).1.submitTask k.tick t (taskOf (tcbAnswer d t).2.data) (some m.mid)).dspAck d m t := by
  simp only [xSubmit, hg, submit_accepted hn hc h]

end

/-- A task with dependencies is live as its TCB says, and no list changes. -/
theorem submitTask_waits (h : x.depcnt ≠ 0) (hst : x.st = .waiting) :
    MemOnly (d.setTask t (some x)) (d.submitTask now t x ack) := by
  have hx : { x with st := x.submitSt now } = x := by rw [Task.submitSt, if_pos h, ← hst]
  simp only [Dev.submitTask, hx, if_pos h]
  refine MemOnly.trans ?_ (MemOnly.trace _ _ _ _ _)
  have htcb : MemOnly (d.setTask t (some x)) ((d.putTask t x).tcbWrite t 0x19 1 0) :=
    (MemOnly.tcbState _ _ _).trans (MemOnly.tcbWrite _ _ _ _ _)
  exact .ite (htcb.trans (MemOnly.tcbWrite _ _ _ _ _)) (htcb.trans (MemOnly.tcbWrite _ _ _ _ _))

/-- A command that leaves the slices as they were is acknowledged at once. -/
theorem dspAck_okay {d0 : Dev} (h : d.slices = d0.slices) : d.dspAck d0 m t = d.okay :=
  if_pos (by simp [Dev.writesFor, Dev.slice, h])

end

/-- Settles O9: the read of the TCB and the slice's writes touch memory and registers alone, and the slice keeps its lists. -/
theorem submitWaits : Obligations.SubmitWaits := by
  intro m q t s hg hn r hc hok hdep
  have hread : MemOnly s.d r.1 := MemOnly.hbm _ _ _ _
  obtain ⟨e, he⟩ : ∃ e, e = r.1.submitTask s.clk.tick t (taskOf r.2.data) (some m.mid) := ⟨_, rfl⟩
  have hkept : MemOnly (r.1.setTask t (some (taskOf r.2.data))) e := he ▸ submitTask_waits hdep rfl
  have htasks : e.tasks = nset none s.d.tasks t (some (taskOf r.2.data)) := by
    rw [hkept.tasks, Dev.setTask, hread.tasks]
  have hsl : e.slices = s.d.slices := hkept.slices.trans hread.slices
  have hexec : exec (.submit m q t) s = .next { s with d := e.okay } :=
    next_congr ((xSubmit_accepted hn hc hg hok).trans (he ▸ dspAck_okay hsl))
  refine ⟨_, hexec, ?_, rfl, fun t' ht => ?_, fun q' => ?_, hkept.cores.trans hread.cores, hkept.arr.trans hread.arr, rfl, rfl⟩
  · exact (congrArg (nget none · t) htasks).trans (Laws.nget_nset_self _ _ _ _)
  · exact (congrArg (nget none · t') htasks).trans (Laws.nget_nset_other _ _ _ ht)
  · exact congrArg (nget Slice.zero · q') hsl

end Sys2Proof.Proofs

namespace Sys2Proof.Proofs

open Sys2Proof.Machine Sys2Proof.Safety

/-! The commands of DSP_CMD: SIGNAL, WAKE, CANCEL, and their rejections (10 R282, R284, R291–R294). -/

section
variable {d : Dev} {m : Mst} {q t now reason : Nat} {k : Clk} {ack : Option Nat} {x : Machine.Task}

/-! ### SIGNAL (10 R284) -/

theorem xSignal_denied (h : dspWho m q t = some reason) : xSignal m q t k d = d.dspReject m q 2 t reason := by
  simp only [xSignal, h]

theorem xSignal_rejected (hw : dspWho m q t = none) (h : d.sigReject t = some reason) :
    xSignal m q t k d = d.dspReject m q 2 t reason := by
  simp only [xSignal, hw, h]

theorem xSignal_accepted (hw : dspWho m q t = none) (h : d.sigReject t = none) :
    xSignal m q t k d = (d.doSignal k.tick t 0 (some m.mid)).dspAck d m t := by
  simp only [xSignal, hw, h]

/-- A signal is accepted for a task that has a dependency left. -/
theorem depcnt_of_sigReject (h : d.sigReject t = none) (hx : d.task t = some x) : x.depcnt ≠ 0 := by
  intro h0
  simp [Dev.sigReject, hx, h0, ite_eq_iff] at h

/-- A task after one signal of a task that ended OK. -/
def oneLess (x : Machine.Task) : Machine.Task := { x with depcnt := x.depcnt - 1 }

/-- The slice writes DEPCNT after a signal and traces it. -/
def signalled (d : Dev) (now t : Nat) (x : Machine.Task) : Dev :=
  ((d.setTask t (some (oneLess x))).tcbWrite t 0x06 2 (oneLess x).depcnt).trace now t (oneLess x)
    ⟨0x0D, 0, 0, 0, (oneLess x).depcnt⟩

/-- A signal with status OK lowers DEPCNT and releases a WAITING task with none left. -/
theorem doSignal_ok (hx : d.task t = some x) : d.doSignal now t 0 ack =
    if (oneLess x).depcnt = 0 ∧ x.st = .waiting ∧ x.evwait = false then
      (signalled d now t x).releaseOrHold now t (oneLess x) 0x01 ack
    else signalled d now t x := by
  have hins : (if x.instatus = 0 then 0 else x.instatus) = x.instatus := by
    split
    · next h => exact h.symm
    · rfl
  simp only [Dev.doSignal, hx, hins, if_true]
  rfl

/-! ### WAKE (10 R293) -/

theorem xWake_gated (h : d.dspGate m q t = some reason) : xWake m q t k d = d.dspReject m q 3 t reason := by
  simp only [xWake, h]

theorem xWake_notLive (hg : d.dspGate m q t = none) (h : d.task t = none) : xWake m q t k d = d.dspReject m q 3 t 3 := by
  simp only [xWake, hg, h]

theorem xWake_live (hg : d.dspGate m q t = none) (h : d.task t = some x) :
    xWake m q t k d = (d.eventWake k.tick t x (some m.mid)).dspAck d m t := by
  simp only [xWake, hg, h]

/-- A task that does not wait for an event keeps the wake. -/
theorem eventWake_pends (h : x.evwait = false ∨ (x.st ≠ .waiting ∧ x.st ≠ .delayed)) : d.eventWake now t x ack =
    (d.putTask t { x with pendwake := true }).trace now t x ⟨0x09, 0, 0x02, 0, 0⟩ := by
  refine if_neg ?_
  rintro ⟨hst, hev⟩
  rcases h with h | ⟨hw, hd⟩
  · exact Bool.noConfusion (h.symm.trans hev)
  · exact hst.elim hw hd

section
variable (h : x.evwait = true) (hst : x.st = .waiting ∨ x.st = .delayed)
include h hst

theorem eventWake_waits (hdep : x.depcnt ≠ 0) : d.eventWake now t x ack =
    ((d.unlist t).putTask t { x with evwait := false, st := .waiting }).trace now t { x with evwait := false, st := .waiting }
      ⟨0x09, 0, 0x02, 0, 0⟩ := by
  simp only [Dev.eventWake, h, hst, hdep, and_self, if_true, if_false, decide_false, Bool.false_and, Bool.false_eq_true]

variable (hdep : x.depcnt = 0)
include hdep

theorem eventWake_releases (hroom : d.readyRoom (t / 2 ^ 18) x.level = true) : d.eventWake now t x ack =
    (((d.unlist t).putTask t { x with evwait := false, st := .waiting }).trace now t { x with evwait := false, st := .waiting }
      ⟨0x09, 0, 0x02, 0, 0⟩).releaseOrHold now t { x with evwait := false, st := .waiting } 0x02 ack := by
  simp only [Dev.eventWake, h, hst, hdep, hroom, and_self, if_true, decide_true, Bool.not_true, Bool.and_false,
    Bool.false_eq_true, if_false]

/-- A task whose ready list is full keeps its state and its place. -/
theorem eventWake_stays (hroom : d.readyRoom (t / 2 ^ 18) x.level = false) : d.eventWake now t x ack =
    ((d.putTask t { x with evwait := false }).trace now t { x with evwait := false } ⟨0x09, 0, 0x02, 0, 0⟩).releaseOrHold now t
      { x with evwait := false } 0x02 ack := by
  simp only [Dev.eventWake, h, hst, hdep, hroom, and_self, if_true, decide_true, Bool.not_false, Bool.and_true]

end

/-! ### CANCEL (10 R282, R289) -/

theorem xCancel_gated (h : d.dspGate m q t = some reason) : xCancel m q t k d = d.dspReject m q 4 t reason := by
  simp only [xCancel, h]

section
variable (hg : d.dspGate m q t = none)
include hg

theorem xCancel_rejected (h : d.cancel k.tick t = none) : xCancel m q t k d = d.dspReject m q 4 t 3 := by
  simp only [xCancel, hg, h]

theorem xCancel_accepted {d1 : Dev} (h : d.cancel k.tick t = some d1) : xCancel m q t k d = d1.okay := by
  simp only [xCancel, hg, h]

end

theorem cancel_notLive (h : d.task t = none) : d.cancel now t = none := by
  simp only [Dev.cancel, h]

section
variable (hx : d.task t = some x)
include hx

theorem cancel_handed (h : d.handedOnly t x = true) : d.cancel now t = some (d.complete now t 0x01 0 0x0C 0x0A) := by
  simp only [Dev.cancel, hx, h, if_true, Dev.withdraw]

variable (h : d.handedOnly t x = false)
include h

theorem cancel_still (hst : x.st ≠ .running) : d.cancel now t = some (d.complete now t 0x01 0 0x0A 0x0A) := by
  simp only [Dev.cancel, hx, h, hst, Bool.false_eq_true, if_false]

theorem cancel_running (hst : x.st = .running) : d.cancel now t = none := by
  simp only [Dev.cancel, hx, h, hst, Bool.false_eq_true, if_false, if_true]

end

end

/-- Settles O7: each command is decided by its gate, then by the state of its task. -/
theorem dispatchCommands : Obligations.DispatchCommands := by
  refine ⟨fun m q t s hg => ?submit, fun m q t reason s hg => ?gated, fun m q t reason s h => ?signalRejected,
    fun m q t x s hw hs hx => ?signal, fun m q t s hg hn => ?notLive, fun m q t x s hg hx => ?wake,
    fun m q t x s hg hx => ?cancel⟩
  case submit =>
    exact ⟨fun hn hc hok => next_congr (xSubmit_accepted hn hc hg hok),
      fun hn => next_congr (xSubmit_rejected hg (submit_live hn)),
      fun hn hc => next_congr (xSubmit_rejected hg (submit_unread hn hc)),
      fun hn hc hbad => next_congr (xSubmit_rejected hg (submit_malformed hn hc hbad))⟩
  case gated => exact ⟨next_congr (xSubmit_gated hg), next_congr (xWake_gated hg), next_congr (xCancel_gated hg)⟩
  case signalRejected =>
    rcases h with h | ⟨hw, h⟩
    · exact next_congr (xSignal_denied h)
    · exact next_congr (xSignal_rejected hw h)
  case signal =>
    have hdep := depcnt_of_sigReject hs hx
    have hsig {e : Dev} (h : s.d.doSignal s.clk.tick t 0 (some m.mid) = e) :
        exec (.signal m q t) s = .next { s with d := e.dspAck s.d m t } :=
      next_congr ((xSignal_accepted hw hs).trans (congrArg (Dev.dspAck · s.d m t) h))
    refine ⟨fun hkeep => hsig ((doSignal_ok hx).trans (if_neg ?_)),
      fun hone hst hev => hsig ((doSignal_ok hx).trans (if_pos ⟨?_, hst, hev⟩))⟩
    · rintro ⟨hlast, hst, hev⟩
      rcases hkeep with h | h | h
      · simp only [oneLess] at hlast
        omega
      · exact h hst
      · exact Bool.noConfusion (hev.symm.trans h)
    · simp only [oneLess, hone]
  case notLive =>
    exact ⟨next_congr (xWake_notLive hg hn), next_congr (xCancel_rejected hg (cancel_notLive hn))⟩
  case wake =>
    have hwake {e : Dev} (h : s.d.eventWake s.clk.tick t x (some m.mid) = e) :
        exec (.wake m q t) s = .next { s with d := e.dspAck s.d m t } :=
      next_congr ((xWake_live hg hx).trans (congrArg (Dev.dspAck · s.d m t) h))
    exact ⟨fun h => hwake (eventWake_pends h), fun h hst => ⟨fun hdep => hwake (eventWake_waits h hst hdep),
      fun hdep hroom => hwake (eventWake_releases h hst hdep hroom), fun hdep hroom => hwake (eventWake_stays h hst hdep hroom)⟩⟩
  case cancel =>
    exact ⟨fun h => next_congr (xCancel_accepted hg (cancel_handed hx h)),
      fun h hst => next_congr (xCancel_accepted hg (cancel_still hx h hst)),
      fun h hst => next_congr (xCancel_rejected hg (cancel_running hx h hst))⟩

end Sys2Proof.Proofs

namespace Sys2Proof.Proofs

open Sys2Proof.Machine Sys2Proof.Safety

/-! The lists of a slice: the delay list, held commands, hand-over, replica groups (10 R289, R290, R292, R294, R301). -/

/-! ### WAKE_TIME_REACHED (10 R292, R294) -/

section
variable {d : Dev} {q t : Nat} {k : Clk} {x : Machine.Task}

theorem xWakeTimeReached_none (h : d.firstDue k.tick q = none) : xWakeTimeReached q k d = d := by
  simp only [xWakeTimeReached, h]

section
variable (h : d.firstDue k.tick q = some t) (hx : d.task t = some x)
include h hx

theorem xWakeTimeReached_due : xWakeTimeReached q k d =
    if d.readyRoom q x.level then d.toReady k.tick t x 0x03
    else if x.placed then (d.setTask t (some { x with placed := false })).bump (R.DSP_BP_CNT.at q)
    else d := by
  simp only [xWakeTimeReached, h, hx]

theorem xWakeTimeReached_ready (hroom : d.readyRoom q x.level = true) : xWakeTimeReached q k d = d.toReady k.tick t x 0x03 :=
  (xWakeTimeReached_due h hx).trans (if_pos hroom)

variable (hroom : d.readyRoom q x.level = false)
include hroom

theorem xWakeTimeReached_full : xWakeTimeReached q k d =
    if x.placed then (d.setTask t (some { x with placed := false })).bump (R.DSP_BP_CNT.at q) else d :=
  (xWakeTimeReached_due h hx).trans (if_neg (Bool.eq_false_iff.1 hroom))

theorem xWakeTimeReached_counted (hp : x.placed = true) :
    xWakeTimeReached q k d = (d.setTask t (some { x with placed := false })).bump (R.DSP_BP_CNT.at q) :=
  (xWakeTimeReached_full h hx hroom).trans (if_pos hp)

theorem xWakeTimeReached_stays (hp : x.placed = false) : xWakeTimeReached q k d = d :=
  (xWakeTimeReached_full h hx hroom).trans (if_neg (Bool.eq_false_iff.1 hp))

end

/-! ### HELD_COMMAND_PLACED (10 R294) -/

variable {why st res : Nat} {ack : Option Nat} {r : List HeldOp}

theorem xHeldCommandPlaced_nothing (h : (d.slice q).held = []) : xHeldCommandPlaced q k d = d := by
  simp only [xHeldCommandPlaced, h]

/-- What stands first leaves the held list of slice `q`. -/
def withHeld (d : Dev) (q : Nat) (r : List HeldOp) : Dev := d.setSlice q { d.slice q with held := r }

section
variable (h : (d.slice q).held = .place t why ack :: r) (hx : d.task t = some x)
include h hx

theorem xHeldCommandPlaced_noRoom (hroom : d.roomAfter k.tick q x why = false) : xHeldCommandPlaced q k d = d := by
  simp only [xHeldCommandPlaced, h, hx, hroom, Bool.false_eq_true, if_false]

variable (hroom : d.roomAfter k.tick q x why = true)
include hroom

theorem xHeldCommandPlaced_places (ha : ack = none) :
    xHeldCommandPlaced q k d = (withHeld d q r).releaseFor k.tick t x why := by
  subst ha
  simp only [xHeldCommandPlaced, h, hx, hroom, if_true, withHeld]

theorem xHeldCommandPlaced_acknowledges {mid : Nat} (ha : ack = some mid) :
    xHeldCommandPlaced q k d = ((withHeld d q r).releaseFor k.tick t x why).ackHeld mid := by
  subst ha
  simp only [xHeldCommandPlaced, h, hx, hroom, if_true, withHeld]

end

section
variable (h : (d.slice q).held = .sig t st :: r)
include h

theorem xHeldCommandPlaced_signals (hb : d.sigBlocked k.tick t = false) :
    xHeldCommandPlaced q k d = (withHeld d q r).signal k.tick q t st := by
  simp only [xHeldCommandPlaced, h, hb, Bool.false_eq_true, if_false, withHeld]

theorem xHeldCommandPlaced_blocked (hb : d.sigBlocked k.tick t = true) : xHeldCommandPlaced q k d = d := by
  simp only [xHeldCommandPlaced, h, hb, if_true]

end

theorem xHeldCommandPlaced_notes (h : (d.slice q).held = .compl t st res :: r) :
    xHeldCommandPlaced q k d = (withHeld d q r).complNote t st res := by
  simp only [xHeldCommandPlaced, h, withHeld]

end

/-! ### HAND (10 R289, R290) -/

section
variable {d : Dev} {k : Clk} {t mem : Nat} {x : Machine.Task} {byAff : Bool} {r : List (Nat × Machine.Task)}

/-- The slot that a NODE names no longer has the generation that the NODE gives, or is swept. -/
def Stale (d : Dev) (x : Machine.Task) : Prop := d.regN (slotReg x.slot .SLOT_GEN) ≠ x.gen ∨ d.sweeping x.slot = true

theorem handOne_stale (h : Stale d x) : d.handOne k t x = some (d.complete k.tick t 0x07 0 0x0B 0x08) := if_pos h

theorem not_ended_of_running {st : Nat} (h : st = stLive ∨ st = stPaused) :
    ¬ (st = stStopped ∨ st = stTadpole ∨ st = stUndefined) := by
  rcases h with rfl | rfl <;> decide

section
variable (hs : ¬ Stale d x)
include hs

theorem handOne_ended (h : d.slotState x.slot = stStopped ∨ d.slotState x.slot = stTadpole ∨ d.slotState x.slot = stUndefined) :
    d.handOne k t x = some (d.complete k.tick t 0x05 0 0x0A 0x00) :=
  (if_neg hs).trans (if_pos h)

variable (h : d.slotState x.slot = stLive ∨ d.slotState x.slot = stPaused)
include h

theorem handOne_taken (hm : d.taker x = some (mem, byAff)) : d.handOne k t x = some (d.hand k t x mem byAff) := by
  refine (if_neg hs).trans ((if_neg (not_ended_of_running h)).trans ((if_pos h).trans ?_))
  rw [hm]

theorem handOne_waits (hm : d.taker x = none) : d.handOne k t x = none := by
  refine (if_neg hs).trans ((if_neg (not_ended_of_running h)).trans ((if_pos h).trans ?_))
  rw [hm]

end

theorem handFirst_goes {d1 : Dev} (h : d.handOne k t x = some d1) : d.handFirst k ((t, x) :: r) = d1 := by
  simp only [Dev.handFirst, h]

theorem handFirst_next (h : d.handOne k t x = none) : d.handFirst k ((t, x) :: r) = d.handFirst k r := by
  simp only [Dev.handFirst, h]

variable {slot : Nat}

theorem xHand_disabled (h : (d.reg (R.DSP_CTRL.at (quarterOf (slot / 4)))).getLsbD 0 = false) : xHand slot k d = d :=
  if_neg (Bool.eq_false_iff.1 h)

theorem xHand_enabled (h : (d.reg (R.DSP_CTRL.at (quarterOf (slot / 4)))).getLsbD 0 = true) :
    xHand slot k d = d.handFirst k (d.nodesFor slot) := if_pos h

end

/-! ### DSP_REPL (10 R301) -/

section
variable {d : Dev} {m : Mst} {q r v : Nat} {en : Bool}

/-- A replica group with the value of a write. -/
def putRepl (d : Dev) (q r : Nat) (en : Bool) (v : Nat) : Dev :=
  d.setRegN (if en then R.DSP_REPL_EN.at q r else R.DSP_REPL.at q r) (if en then v % 256 else v % 2 ^ 64)

theorem xDspRepl_owner (hm : m.oid = 0) : xDspRepl m q r en v d =
    if (putRepl d q r en v).replOk q then (putRepl d q r en v).okay
    else d.refuse m (if en then R.DSP_REPL_EN.at q r else R.DSP_REPL.at q r) :=
  if_neg (not_denied hm)

end

/-- Settles O8: each list acts on what stands first in it, as room, its slot and R301 allow. -/
theorem dispatchLists : Obligations.DispatchLists := by
  refine ⟨fun q s hrun => ?wake, fun q s hrun => ?held, fun slot s hrun => ?hand, fun m q r en v s hm => ?repl⟩
  case wake =>
    have hwake {e : Dev} (h : xWakeTimeReached q s.clk s.d = e) : exec (.wakeTimeReached q) s = .next { s with d := e } :=
      next_congr ((unlessHalted_running hrun).trans h)
    exact ⟨fun h => hwake (xWakeTimeReached_none h), fun t x h hx => ⟨fun hroom => hwake (xWakeTimeReached_ready h hx hroom),
      fun hroom hp => hwake (xWakeTimeReached_counted h hx hroom hp),
      fun hroom hp => hwake (xWakeTimeReached_stays h hx hroom hp)⟩⟩
  case held =>
    have hheld {e : Dev} (h : xHeldCommandPlaced q s.clk s.d = e) : exec (.heldCommandPlaced q) s = .next { s with d := e } :=
      next_congr ((unlessHalted_running hrun).trans h)
    exact ⟨fun h => hheld (xHeldCommandPlaced_nothing h),
      fun t why ack x r h hx => ⟨fun hroom ha => hheld (xHeldCommandPlaced_places h hx hroom ha),
        fun mid hroom ha => hheld (xHeldCommandPlaced_acknowledges h hx hroom ha),
        fun hroom => hheld (xHeldCommandPlaced_noRoom h hx hroom)⟩,
      fun t st r h => ⟨fun hb => hheld (xHeldCommandPlaced_signals h hb), fun hb => hheld (xHeldCommandPlaced_blocked h hb)⟩,
      fun t st res r h => hheld (xHeldCommandPlaced_notes h)⟩
  case hand =>
    intro en
    have hhand {e : Dev} (h : xHand slot s.clk s.d = e) : exec (.hand slot) s = .next { s with d := e } :=
      next_congr ((unlessHalted_running hrun).trans h)
    have hlist {l : List (Nat × Machine.Task)} {e : Dev} (hen : en = true) (hl : s.d.nodesFor slot = l)
        (h : s.d.handFirst s.clk l = e) : exec (.hand slot) s = .next { s with d := e } :=
      hhand ((xHand_enabled hen).trans (hl ▸ h))
    refine ⟨fun hen => hhand (xHand_disabled hen), fun hen hl => hlist hen hl rfl, fun t x r hen hl => ?first,
      fun t x t1 x1 r mem byAff hen hl hlive hnone hsome => ?second⟩
    case first =>
      exact ⟨fun hs => hlist hen hl (handFirst_goes (handOne_stale hs)),
        fun hs h => hlist hen hl (handFirst_goes (handOne_ended hs h)),
        fun mem byAff hs h hm => hlist hen hl (handFirst_goes (handOne_taken hs h hm)),
        fun hs h hm hr => hlist hen hl ((handFirst_next (handOne_waits hs h hm)).trans (hr ▸ rfl))⟩
    case second =>
      have hfit (y : Machine.Task) (hy : y = x ∨ y = x1) :
          ¬ Stale s.d y ∧ (s.d.slotState y.slot = stLive ∨ s.d.slotState y.slot = stPaused) := by
        obtain ⟨hgen, hsweep, hst⟩ := hlive y hy
        exact ⟨not_or.2 ⟨not_not.2 hgen, Bool.eq_false_iff.1 hsweep⟩, .inl hst⟩
      obtain ⟨hx, hxl⟩ := hfit x (.inl rfl)
      obtain ⟨hx1, hx1l⟩ := hfit x1 (.inr rfl)
      exact hlist hen hl ((handFirst_next (handOne_waits hx hxl hnone)).trans (handFirst_goes (handOne_taken hx1 hx1l hsome)))
  case repl =>
    exact ⟨fun h => next_congr ((xDspRepl_owner hm).trans (if_pos h)),
      fun h => next_congr ((xDspRepl_owner hm).trans (if_neg (Bool.eq_false_iff.1 h)))⟩

end Sys2Proof.Proofs

namespace Sys2Proof.Proofs

open Sys2Proof.Machine Sys2Proof.Safety

/-! Threads on cores (10 R283, R287, R288, R291, R294; 11 R322–R324, R334). -/

/-! ### RUN and PREEMPT (10 R287) -/

section
variable {d : Dev} {k : Clk} {n q t why : Nat} {x : Machine.Task}

/-- Core `n` may receive a thread: it is free, its slice dispatches, and its die is ON. -/
def MayRun (d : Dev) (n : Nat) : Prop :=
  (d.core n).free = true ∧ (d.reg (R.DSP_CTRL.at (n / 16))).getLsbD 0 = true ∧ d.domCur (n / 16) 16 = 0

theorem mayRun_iff : ((d.core n).free && (d.reg (R.DSP_CTRL.at (n / 16))).getLsbD 0 && decide (d.domCur (n / 16) 16 = 0)) = true
    ↔ MayRun d n := by
  simp only [MayRun, Bool.and_eq_true, decide_eq_true_eq, and_assoc]

theorem xRun_receives (h : MayRun d n) (hp : d.pick n = some (t, x, why)) : xRun n k d = d.runThread k.tick n t why := by
  rw [xRun, if_pos (mayRun_iff.2 h), hp]

theorem xRun_nothing (h : ¬ MayRun d n ∨ d.pick n = none) : xRun n k d = d := by
  rw [xRun]
  split
  · next hrun =>
    rw [h.resolve_left (not_not.2 (mayRun_iff.1 hrun))]
  · rfl

/-- A READY thread of quarter `q` displaces another now: it is privileged, none of its cores is free, and the thread that gives
way may be preempted. -/
def displacesNow (d : Dev) (q : Nat) (e : Nat × Machine.Task) : Bool :=
  decide (28 ≤ e.2.level) && (coresOf q).all (fun n => !(e.2.coreMask.testBit (n % 16) && (d.core n).free))
    && (d.victim q e.2.coreMask).any d.preemptable

theorem displacesNow_victim (hv : d.victim q x.coreMask = some n) : displacesNow d q (t, x) =
    (decide (28 ≤ x.level) && (coresOf q).all (fun n => !(x.coreMask.testBit (n % 16) && (d.core n).free))
      && d.preemptable n) := by
  simp only [displacesNow, hv, Option.any_some]

theorem xPreempt_disabled (h : (d.reg (R.DSP_CTRL.at q)).getLsbD 0 = false) : xPreempt q k d = d := if_pos (congrArg not h)

/-- The first of the threads that may displace one does. -/
def displaceFor (d : Dev) (k : Clk) (q : Nat) : List (Nat × Machine.Task) → Dev
  | [] => d
  | (t, x) :: _ => (d.victim q x.coreMask).elim d fun n => (d.displace k.tick n t).runThread k.tick n t 0x07

theorem displaceFor_cons {r : List (Nat × Machine.Task)} (hv : d.victim q x.coreMask = some n) :
    displaceFor d k q ((t, x) :: r) = (d.displace k.tick n t).runThread k.tick n t 0x07 := by
  rw [displaceFor, hv, Option.elim_some]

theorem xPreempt_enabled (h : (d.reg (R.DSP_CTRL.at q)).getLsbD 0 = true) :
    xPreempt q k d = displaceFor d k q ((d.threads q).filter (displacesNow d q)) := by
  unfold xPreempt
  extract_lets cands
  have hc : cands = (d.threads q).filter (displacesNow d q) := List.filter_congr fun e _ => by
    cases hv : d.victim q e.2.coreMask <;> simp [displacesNow, hv]
  rw [if_neg (Bool.eq_false_iff.1 (congrArg not h)), hc]
  cases (d.threads q).filter (displacesNow d q) with
  | nil => rfl
  | cons e r => cases hv : d.victim q e.2.coreMask <;> simp [displaceFor, hv]

theorem xPreempt_none (h : (d.threads q).filter (displacesNow d q) = []) : xPreempt q k d = d := by
  cases hen : (d.reg (R.DSP_CTRL.at q)).getLsbD 0 with
  | false => exact xPreempt_disabled hen
  | true => rw [xPreempt_enabled hen, h, displaceFor]

theorem xPreempt_first {r : List (Nat × Machine.Task)} (hen : (d.reg (R.DSP_CTRL.at q)).getLsbD 0 = true)
    (hl : d.threads q = (t, x) :: r) (h : displacesNow d q (t, x) = true) (hv : d.victim q x.coreMask = some n) :
    xPreempt q k d = (d.displace k.tick n t).runThread k.tick n t 0x07 := by
  rw [xPreempt_enabled hen, hl, List.filter_cons_of_pos h, displaceFor_cons hv]

end

/-! ### An instruction of a core that executes (11 R302, R322; 21 R569) -/

section
variable {d : Dev} {n : Nat}

/-- An instruction ends the debug STEP of its core. -/
def endStep (d : Dev) (n : Nat) (d' : Dev) : Dev :=
  if (d.core n).step then d'.setCore n { d'.core n with step := false } else d'

/-- An instruction that would hand its core over, made by the running thread. -/
def threadInstr (n : Nat) (f : Dev → Nat × Machine.Task → Dev) (d : Dev) : Dev :=
  d.lastInstr n (fun x => match x.runner n with
    | none => x.illegal n
    | some e => f x e)

theorem xXyield_eq (k : Clk) : xXyield n k d = threadInstr n (fun x e => x.yieldThread k.tick n e.1 e.2 none) d := rfl

theorem xXwaitEvent_eq (k : Clk) (rd : Nat) : xXwaitEvent n rd k d =
    threadInstr n (fun x e => if e.2.pendwake then x.takeWake n e.1 e.2 rd else x.waitThread k.tick n e.1 e.2 rd true) d := rfl

theorem xXwaitDep_eq (k : Clk) (rd : Nat) : xXwaitDep n rd k d =
    threadInstr n (fun x e => if e.2.depcnt = 0 then x.retire4 n rd 0 else x.waitThread k.tick n e.1 e.2 rd false) d := rfl

theorem xXwaitDelay_eq (k : Clk) (rd rs1 : Nat) : xXwaitDelay n rd rs1 k d =
    threadInstr n (fun x e => x.delayThread k.tick n e.1 e.2 rd ((x.core n).x rs1).toNat false) d := rfl

theorem xXwaitEventOrDelay_eq (k : Clk) (rd rs1 : Nat) : xXwaitEventOrDelay n rd rs1 k d =
    threadInstr n (fun x e => if e.2.pendwake then x.takeWake n e.1 e.2 rd
      else x.delayThread k.tick n e.1 e.2 rd ((x.core n).x rs1).toNat true) d := rfl

section
variable (hx : (d.core n).executes = true)
include hx

theorem instr_executes (f : Dev → Dev) : d.instr n f = endStep d n (f d) := if_pos hx

theorem lastInstr_entry (f : Dev → Dev) (he : d.entryDue n = true) : d.lastInstr n f = endStep d n (xEventEntry n d) :=
  (instr_executes hx _).trans (congrArg (endStep d n) (if_pos he))

variable (he : d.entryDue n = false)
include he

theorem lastInstr_runs (f : Dev → Dev) : d.lastInstr n f = endStep d n (f d) :=
  (instr_executes hx _).trans (congrArg (endStep d n) (if_neg (Bool.eq_false_iff.1 he)))

theorem threadInstr_illegal (f : Dev → Nat × Machine.Task → Dev) (h : d.runner n = none) :
    threadInstr n f d = endStep d n (d.illegal n) := by
  simp only [threadInstr, lastInstr_runs hx he, h]

theorem threadInstr_runs {f : Dev → Nat × Machine.Task → Dev} {e : Nat × Machine.Task} {d' : Dev} (h : d.runner n = some e)
    (hf : f d e = d') : threadInstr n f d = endStep d n d' := by
  simp only [threadInstr, lastInstr_runs hx he, h, hf]

end

/-! ### What a thread asks of its slice (10 R283, R291, R294) -/

variable {now t : Nat} {x : Machine.Task}

theorem yieldThread_leaves (rd : Option Nat) (h : d.readyRoom (t / 2 ^ 18) x.level = true) :
    d.yieldThread now n t x rd = (d.leave n).toReady now t { x with rd := rd } 0x04 := if_pos h

theorem yieldThread_full (h : d.readyRoom (t / 2 ^ 18) x.level = false) :
    d.yieldThread now n t x none = (d.bump (R.DSP_BP_CNT.at (n / 16))).retire4 n 0 0 := if_neg (Bool.eq_false_iff.1 h)

section
variable {rd dl : Nat} {ev : Bool}

theorem delayThread_long (h : 2 ^ 31 ≤ dl) : d.delayThread now n t x rd dl ev = d.retire4 n rd 4 := if_pos h

theorem delayThread_zero (h : dl = 0) :
    d.delayThread now n t x rd dl ev = d.yieldThread now n t { x with evwait := false } (some rd) :=
  (if_neg (by omega)).trans (if_pos h)

/-- The running thread goes to the delay list until `dl` ticks from now. -/
def toDelayFor (d : Dev) (now n t : Nat) (x : Machine.Task) (rd dl : Nat) (ev : Bool) : Dev :=
  ((d.leave n).tcbWrite t 0x08 4 ((now + dl) % 2 ^ 32)).toDelay now t
    { x with wake := (now + dl) % 2 ^ 32, evwait := ev, rd := some rd } n

variable (h0 : dl ≠ 0) (hl : dl < 2 ^ 31)
include h0 hl

theorem delayThread_delays (hr : d.delayRoom (t / 2 ^ 18) = true) :
    d.delayThread now n t x rd dl ev = toDelayFor d now n t x rd dl ev :=
  (if_neg (Nat.not_le.2 hl)).trans ((if_neg h0).trans (if_neg (Bool.eq_false_iff.1 (congrArg not hr))))

theorem delayThread_held (hr : d.delayRoom (t / 2 ^ 18) = false) : d.delayThread now n t x rd dl ev = d.holdInstr n :=
  (if_neg (Nat.not_le.2 hl)).trans ((if_neg h0).trans (if_pos (congrArg not hr)))

end

/-! ### XDONE (11 R324) and XSIG (11 R323) -/

variable {k : Clk} {r r' rd : Nat}

theorem runner_some (h : d.runner n = some (t, x)) : (d.core n).level = 0 ∧ (d.core n).task = some t := by
  unfold Dev.runner at h
  extract_lets c at h
  split at h
  · cases h
  · next hl =>
    split at h
    · next u hu =>
      obtain ⟨y, -, hy⟩ := Option.map_eq_some_iff.1 h
      cases hy
      exact ⟨not_not.1 hl, hu⟩
    · cases h

section
variable (hx : (d.core n).executes = true)
include hx

theorem xXdone_entry (he : d.entryDue n = true) : xXdone n r r' k d = endStep d n (xEventEntry n d) := lastInstr_entry hx _ he

section
variable (he : d.entryDue n = false)
include he

theorem xXdone_illegal (hl : (d.core n).level ≠ 0) : xXdone n r r' k d = endStep d n (d.illegal n) :=
  (lastInstr_runs hx he _).trans (congrArg (endStep d n) (if_pos hl))

variable (hl : (d.core n).level = 0)
include hl

theorem xXdone_joins (h : (d.core n).task = none) :
    xXdone n r r' k d = endStep d n (d.setCore n { d.core n with managed := true, st := .idle }) := by
  simp only [xXdone, lastInstr_runs hx he, hl, h, ne_eq, not_true_eq_false, if_false]

theorem xXdone_completes (h : (d.core n).task = some t) : xXdone n r r' k d =
    endStep d n (d.complete k.tick t (((d.core n).x r).toNat % 256) (((d.core n).x r').toNat % 2 ^ 32) 0x0A 0x00) := by
  simp only [xXdone, lastInstr_runs hx he, hl, h, ne_eq, not_true_eq_false, if_false]

end

/-- The task that XSIG names. -/
def sigTarget (d : Dev) (n r : Nat) : Nat := ((d.core n).x r).toNat % 2 ^ 20

theorem xXsig_rejected {reason : Nat} (h : d.sigReject (sigTarget d n r) = some reason) : xXsig n rd r k d =
    endStep d n ((d.dspErr (sigTarget d n r / 2 ^ 18) 2 (sigTarget d n r) reason n).retire4 n rd reason) := by
  rw [sigTarget] at h
  simp only [xXsig, instr_executes hx, h, sigTarget]

variable (h : d.sigReject (sigTarget d n r) = none)
include h

theorem xXsig_sends (hb : d.sigBlocked k.tick (sigTarget d n r) = false) :
    xXsig n rd r k d = endStep d n ((d.doSignal k.tick (sigTarget d n r) 0 none).retire4 n rd 0) := by
  rw [sigTarget] at h hb
  simp only [xXsig, instr_executes hx, h, hb, sigTarget, Bool.false_eq_true, if_false]

theorem xXsig_held (hb : d.sigBlocked k.tick (sigTarget d n r) = true) : xXsig n rd r k d = endStep d n (d.holdInstr n) := by
  rw [sigTarget] at h hb
  simp only [xXsig, instr_executes hx, h, hb, if_true]

end

end

/-- Settles O15: RUN and PREEMPT by the first thread that may go; each instruction by event entry, its thread, and room. -/
theorem coreThreads : Obligations.CoreThreads := by
  refine ⟨fun n s hrun => ?run, fun q s hrun => ?preempt, fun n s hx => ?instr⟩
  case run =>
    have hr {e : Dev} (h : xRun n s.clk s.d = e) : exec (.run n) s = .next { s with d := e } :=
      next_congr ((unlessHalted_running hrun).trans h)
    exact ⟨fun t x why hmay hp => hr (xRun_receives hmay hp), fun h => hr (xRun_nothing h)⟩
  case preempt =>
    intro en
    have hp {e : Dev} (h : xPreempt q s.clk s.d = e) : exec (.preempt q) s = .next { s with d := e } :=
      next_congr ((unlessHalted_running hrun).trans h)
    refine ⟨fun hen => hp (xPreempt_disabled hen), fun t x r n hen hl hlev hfree hv hpre => hp (xPreempt_first hen hl ?_ hv),
      fun t x n hen hl hv hpre => hp (xPreempt_none ?_), fun hlow => hp (xPreempt_none ?_)⟩
    · have hbusy : (coresOf q).all (fun n => !(x.coreMask.testBit (n % 16) && (s.d.core n).free)) = true := by
        refine List.all_eq_true.2 fun n hn => ?_
        cases hb : x.coreMask.testBit (n % 16) with
        | false => rfl
        | true => simp [hfree n hn hb]
      rw [displacesNow_victim hv, hbusy, hpre, decide_eq_true hlev]
      rfl
    · rw [hl, List.filter_cons_of_neg, List.filter_nil]
      simp [displacesNow_victim hv, hpre]
    · refine List.filter_eq_nil_iff.2 fun e he => ?_
      simp [displacesNow, Nat.not_le.2 (hlow e he)]
  case instr =>
    intro c done v
    refine ⟨fun he => ?entry, fun he hr => ?illegal, fun t x he hr => ?thread,
      fun he hl hn r r' => next_congr (xXdone_joins hx he hl hn), fun rd r => ?sig⟩
    case entry =>
      exact ⟨next_congr (lastInstr_entry hx _ he), fun rd => next_congr (lastInstr_entry hx _ he),
        fun rd => next_congr (lastInstr_entry hx _ he), fun rd r => next_congr (lastInstr_entry hx _ he),
        fun rd r => next_congr (lastInstr_entry hx _ he), fun r r' => next_congr (xXdone_entry hx he)⟩
    case illegal =>
      exact ⟨next_congr (threadInstr_illegal hx he _ hr), fun rd => next_congr (threadInstr_illegal hx he _ hr),
        fun rd => next_congr (threadInstr_illegal hx he _ hr), fun rd r => next_congr (threadInstr_illegal hx he _ hr),
        fun rd r => next_congr (threadInstr_illegal hx he _ hr), fun r r' hl => next_congr (xXdone_illegal hx he hl)⟩
    case thread =>
      obtain ⟨hl, ht⟩ := runner_some hr
      have hyield {e : Dev} (h : s.d.yieldThread s.clk.tick n t x none = e) : exec (.xyield n) s = .next { s with d := done e } :=
        next_congr ((xXyield_eq s.clk).trans (threadInstr_runs hx he hr h))
      have hevent {rd : Nat} {e : Dev}
          (h : (if x.pendwake then s.d.takeWake n t x rd else s.d.waitThread s.clk.tick n t x rd true) = e) :
          exec (.xwaitEvent n rd) s = .next { s with d := done e } :=
        next_congr ((xXwaitEvent_eq s.clk rd).trans (threadInstr_runs hx he hr h))
      have hdep {rd : Nat} {e : Dev}
          (h : (if x.depcnt = 0 then s.d.retire4 n rd 0 else s.d.waitThread s.clk.tick n t x rd false) = e) :
          exec (.xwaitDep n rd) s = .next { s with d := done e } :=
        next_congr ((xXwaitDep_eq s.clk rd).trans (threadInstr_runs hx he hr h))
      have hdelay {rd r : Nat} {e : Dev} (h : s.d.delayThread s.clk.tick n t x rd (v r) false = e) :
          exec (.xwaitDelay n rd r) s = .next { s with d := done e } :=
        next_congr ((xXwaitDelay_eq s.clk rd r).trans (threadInstr_runs hx he hr h))
      have heither {rd r : Nat} {e : Dev}
          (h : (if x.pendwake then s.d.takeWake n t x rd else s.d.delayThread s.clk.tick n t x rd (v r) true) = e) :
          exec (.xwaitEventOrDelay n rd r) s = .next { s with d := done e } :=
        next_congr ((xXwaitEventOrDelay_eq s.clk rd r).trans (threadInstr_runs hx he hr h))
      have hboth {rd r : Nat} {e : Bool → Dev} (h : ∀ ev, s.d.delayThread s.clk.tick n t x rd (v r) ev = e ev) :
          exec (.xwaitDelay n rd r) s = .next { s with d := done (e false) } ∧
          (x.pendwake = false → exec (.xwaitEventOrDelay n rd r) s = .next { s with d := done (e true) }) :=
        ⟨hdelay (h false), fun hp => heither ((if_neg (Bool.eq_false_iff.1 hp)).trans (h true))⟩
      exact ⟨fun hroom => hyield (yieldThread_leaves none hroom), fun hroom => hyield (yieldThread_full hroom),
        fun rd hp => hevent (if_neg (Bool.eq_false_iff.1 hp)), fun rd hp => hevent (if_pos hp),
        fun rd hd => hdep (if_neg hd), fun rd hd => hdep (if_pos hd),
        fun rd r h0 hlt hroom => hboth (e := fun ev => toDelayFor s.d s.clk.tick n t x rd (v r) ev)
          fun ev => delayThread_delays h0 hlt hroom,
        fun rd r h0 hlt hroom => hboth (e := fun _ => s.d.holdInstr n) fun ev => delayThread_held h0 hlt hroom,
        fun rd r hlong => hboth (e := fun _ => s.d.retire4 n rd 4) fun ev => delayThread_long hlong,
        fun rd r h0 hroom => hdelay ((delayThread_zero h0).trans (yieldThread_leaves (some rd) hroom)),
        fun rd r hp => heither (if_pos hp), fun r r' => next_congr (xXdone_completes hx he hl ht)⟩
    case sig =>
      exact ⟨fun h hb => next_congr (xXsig_sends hx h hb), fun h hb => next_congr (xXsig_held hx h hb),
        fun reason h => next_congr (xXsig_rejected hx h)⟩

end Sys2Proof.Proofs

namespace Sys2Proof.Proofs

open Sys2Proof.Machine Sys2Proof.Safety

/-! The fault-bank stack area (11 R314): XFLTSP, and its write through the debug registers (21 R566). -/

/-! ### The CSRs that a core holds by number -/

theorem csrGet_csrSet_self (c : Core) (num : Nat) (v : Word) : (c.csrSet num v).csrGet num = v := by
  simp only [Core.csrGet, Core.csrSet, Laws.nget_nset_self, Option.getD_some]

theorem csrGet_csrSet_other (c : Core) {num j : Nat} (v : Word) (h : j ≠ num) : (c.csrSet num v).csrGet j = c.csrGet j := by
  simp only [Core.csrGet, Core.csrSet, Laws.nget_nset_other _ _ _ h]

/-! ### XFLTSP -/

theorem csrRead_xfltsp (d : Dev) (k : Clk) (n : Nat) : d.csrRead k n 0x7C2 = some (BitVec.ofNat 64 (d.core n).fltSp, d) := rfl

theorem csrWrite_xfltsp (c : Core) (v : Word) : c.csrWrite 0x7C2 v = c.csrSet 0x7C2 (v &&& 0xFF0) := rfl

/-- FSP has 8 bits, so the stack pointer stays in the top 4 KiB of the bank. -/
theorem fltSp_in_area (c : Core) : 0x8007F000 ≤ c.fltSp ∧ c.fltSp ≤ 0x8007FFFF ∧ c.fltSp % 16 = 0 := by
  have hfsp : getBits (c.csrGet 0x7C2) 11 4 < 256 := Nat.mod_lt _ (by norm_num)
  unfold Core.fltSp
  omega

/-- The field FSP of a value that is written to XFLTSP. -/
theorem fsp_of_written (v : Nat) : getBits (BitVec.ofNat 64 v &&& 0xFF0) 11 4 = v / 16 % 256 := by
  have hmask : (v % 2 ^ 64 &&& 0xFF0) / 2 ^ 4 = v % 2 ^ 64 / 2 ^ 4 % 2 ^ 8 := by
    rw [Nat.and_div_two_pow]
    exact Nat.and_two_pow_sub_one_eq_mod _ 8
  have hword : (BitVec.ofNat 64 v &&& 0xFF0).toNat = v % 2 ^ 64 &&& 0xFF0 := by
    rw [BitVec.toNat_and, BitVec.toNat_ofNat]
    rfl
  rw [getBits, bitsOf, hword, hmask]
  omega

theorem fltSp_csrWrite (c : Core) (v : Nat) :
    (c.csrWrite 0x7C2 (BitVec.ofNat 64 v)).fltSp = 0x8007F000 + 16 * (v / 16 % 256) := by
  rw [csrWrite_xfltsp, Core.fltSp, csrGet_csrSet_self, fsp_of_written]

/-! ### What a write of a core leaves, and a CSR through DBG_CREG_DATA -/

section
variable {d : Dev} {n : Nat}

/-- A write of a core changes the cores and registers alone. -/
theorem setCore_eq (c : Core) : ∃ cs rs, d.setCore n c = { d with cores := cs, regs := rs } := by
  unfold Dev.setCore
  extract_lets d1 t stat dsp d2
  obtain ⟨r2, h2⟩ : ∃ rs, d2 = { d1 with regs := rs } := setReg_regs _ _ _
  obtain ⟨r3, h3⟩ : ∃ rs, d2.setRegN (coreReg n .DSP_CORE) dsp = { d2 with regs := rs } := setReg_regs _ _ _
  rw [h3, h2]
  obtain ⟨r4, h4⟩ : ∃ rs, Dev.setBit { d1 with regs := r3 } (R.DBG_STAT.at (n / 16)) (n % 16) c.halted = { d1 with regs := rs } :=
    setReg_regs _ _ _
  exact ⟨d1.cores, r4, h4⟩

/-- A write of a core reaches the registers that show it, and no other. -/
theorem reg_setCore_other (c : Core) {x : RKey} (hstat : x.r ≠ .CORE_STAT) (hdsp : x.r ≠ .DSP_CORE) (hdbg : x.r ≠ .DBG_STAT) :
    (d.setCore n c).reg x = d.reg x := by
  have hne {y : RKey} (h : x.r ≠ y.r) : x ≠ y := fun e => h (congrArg RKey.r e)
  unfold Dev.setCore
  extract_lets d1 t stat dsp d2
  rw [Laws.setBit_eq, Laws.reg_setReg_other _ _ (hne hdbg), Laws.setRegN_eq, Laws.reg_setReg_other _ _ (hne hdsp)]
  exact Laws.reg_setReg_other d1 _ (hne hstat)

theorem xDbgCregData_csr {m : Mst} {q v idx : Nat} {k : Clk} {w : Word} {e : Dev} (write : Bool) (hm : m.owner = true)
    (hn : q * 16 + getBits (d.reg (R.DBG_CREG_SEL.at q)) 31 28 = n) (hh : (d.core n).halted = true)
    (hsel : getBits (d.reg (R.DBG_CREG_SEL.at q)) 27 26 = 2) (hi : getBits (d.reg (R.DBG_CREG_SEL.at q)) 11 0 = idx)
    (hr : d.csrRead k n idx = some (w, e)) :
    xDbgCregData m q write v k d
      = if write then (d.setCore n ((d.core n).csrWrite idx (BitVec.ofNat 64 v))).okay else e.answer .okay w := by
  subst hn hi
  simp only [xDbgCregData, hm, hh, hsel, hr, Bool.not_true, Bool.true_eq_false, Bool.false_eq_true, if_false]

end

/-- Settles O59: XFLTSP is made of FSP alone, and its write is a write of the one CSR of the one core. -/
theorem faultStackArea : Obligations.FaultStackArea := by
  refine ⟨fltSp_in_area, ?_⟩
  intro m q v s hm sel n c hsel hi hh
  have hread := xDbgCregData_csr (v := v) false hm (show _ = n from rfl) hh hsel hi (csrRead_xfltsp s.d s.clk n)
  have hwrite := xDbgCregData_csr (v := v) true hm (show _ = n from rfl) hh hsel hi (csrRead_xfltsp s.d s.clk n)
  rw [if_neg Bool.false_ne_true, Core.fltSp] at hread
  rw [if_pos rfl] at hwrite
  generalize hc1 : (s.d.core n).csrWrite 0x7C2 (BitVec.ofNat 64 v) = c1 at hwrite
  have hcore : (s.d.setCore n c1).okay.core n = c1 :=
    (Laws.core_okay _ n).trans (Laws.core_setCore_self s.d n c1)
  have hset : c.csrSet 0x7C2 (BitVec.ofNat 64 v &&& 0xFF0) = c1 := (csrWrite_xfltsp c _).symm.trans hc1
  refine ⟨next_congr hread, _, next_congr hwrite, ?fsp, fun num hnum => ?csrs, ?core,
    fun n' hn' => (Laws.core_okay _ n').trans (Laws.core_setCore_other s.d c1 hn'), ?frame,
    fun x hstat hdsp hdbg => (Laws.reg_okay _ x).trans (reg_setCore_other c1 hstat hdsp hdbg), rfl, rfl⟩
  case fsp =>
    rw [hcore, ← hc1]
    exact fltSp_csrWrite c v
  case csrs =>
    rw [hcore, ← hset]
    exact csrGet_csrSet_other c _ hnum
  case frame =>
    obtain ⟨cs, rs, h⟩ := setCore_eq (d := s.d) (n := n) c1
    rw [h]
    rfl
  case core =>
    rw [hcore, ← hset]
    rfl

end Sys2Proof.Proofs

namespace Sys2Proof.Proofs

open Sys2Proof.Machine Sys2Proof.Safety

/-! Traps and returns of a core (11 R302–R305, R308, R309, R312, R313, R315, R316, R322, R330, R332; 21 R576). -/

/-! ### A core that does not execute -/

theorem st_of_executes {c : Core} (hx : c.executes = true) : c.st = .run := by
  simp only [Core.executes, Bool.and_eq_true, decide_eq_true_eq] at hx
  obtain ⟨⟨hst, -⟩, -⟩ := hx
  exact hst

section
variable {d : Dev} {n : Nat} (hx : (d.core n).executes = false)
include hx

theorem instr_idle (f : Dev → Dev) : d.instr n f = d := if_neg (Bool.eq_false_iff.1 hx)

theorem threadInstr_idle (f : Dev → Nat × Machine.Task → Dev) : threadInstr n f d = d := by
  rw [threadInstr, Dev.lastInstr, instr_idle hx]

theorem xXbrd_idle (rd i : Nat) : xXbrd n rd i d = d := by rw [xXbrd, instr_idle hx]

theorem xXbwr_idle (rs1 i : Nat) : xXbwr n rs1 i d = d := by rw [xXbwr, instr_idle hx]

theorem xXdone_idle (rs1 rs2 : Nat) (k : Clk) : xXdone n rs1 rs2 k d = d := by rw [xXdone, Dev.lastInstr, instr_idle hx]

theorem xXsig_idle (rd rs1 : Nat) (k : Clk) : xXsig n rd rs1 k d = d := by rw [xXsig, instr_idle hx]

theorem xMret_idle : xMret n d = d := by rw [xMret, instr_idle hx]

theorem xEbreak_idle (k : Clk) : xEbreak n k d = d := if_pos (congrArg not hx)

/-- Every word of the custom-0 opcode is an instruction, and none executes. -/
theorem xCustom_idle (w : Nat) (k : Clk) : xCustom n w k d = d := by
  simp only [xCustom, instr_idle hx, xXbrd_idle hx, xXbwr_idle hx, xXyield_eq, xXwaitEvent_eq, xXwaitDep_eq, xXwaitDelay_eq,
    xXwaitEventOrDelay_eq, threadInstr_idle hx, xXdone_idle hx, xXsig_idle hx, ite_self]
  split
  · rfl
  · split
    case h_4 =>
      split
      · rfl
      · split <;> rfl
    all_goals rfl

theorem xExceptionTrap_idle (len : Nat) (x : CoreAct) (k : Clk) : xExceptionTrap n len x k d = d := by
  cases x with
  | custom w => exact xCustom_idle hx w k
  | raise cause tval => rw [xExceptionTrap, instr_idle hx]
  | access a e => rw [xExceptionTrap, instr_idle hx]
  | leftOut => rw [xExceptionTrap, instr_idle hx]
  | wfi => rw [xExceptionTrap, instr_idle hx]

end

/-! ### Exceptions (R309, R315, R316) -/

section
variable {d : Dev} {n cause tval : Nat}

theorem trapCore_thread (h : (d.core n).level = 0) : d.trapCore n cause tval =
    d.setCore n (((d.core n).setTrap 0 ⟨(d.core n).pc, cause, tval, (d.core n).mie, (d.core n).modeM⟩).setState
      (d.core n).cur (d.core n).mtvecBase true false) := if_pos h

theorem trapCore_event (h : (d.core n).level = 1 ∨ (d.core n).level = 2) :
    d.trapCore n cause tval = d.faultEntry n cause 4 tval (d.core n).pc :=
  (if_neg (by omega)).trans (if_neg (by omega))

theorem trapCore_fault (h : (d.core n).level = 3) :
    d.trapCore n cause tval = d.wedge n cause (getBits ((d.core n).csrGet 0x7C7) 7 0) (d.core n).pc :=
  (if_neg (by omega)).trans (if_pos h)

variable {xcause epc : Nat}

theorem faultEntry_unusable (hu : d.ownUsable n = false) : d.faultEntry n cause xcause tval epc = d.wedge n cause xcause epc :=
  if_pos (congrArg not hu)

/-- What bank 7 is entered with. -/
def faultBank (c : Core) (cause xcause tval epc : Nat) : Core :=
  (((c.setWord 7 2 (BitVec.ofNat 64 c.fltSp)).setTrap 3 ⟨epc, cause, tval, c.mie, c.modeM⟩).csrSet 0x7C7
    (BitVec.ofNat 64 (xcause % 256))).setState 7 c.mtvecBase true false

theorem faultEntry_running (hu : d.ownUsable n = true) (hr : (d.core n).st = .run) : d.faultEntry n cause xcause tval epc =
    ((d.setCore n { faultBank (d.core n) cause xcause tval epc with
      st := .run, cur := 7, level := 3, retf := (d.core n).cur, retlf := (d.core n).level }).bump
        (coreReg n .CORE_FLT_CNT)).raise (n / 16) (0x200 + n % 16 * 4 + 1) := by
  have hidle : (decide ((d.core n).st = .idle)) = false := decide_eq_false (by rw [hr]; exact CoreSt.noConfusion)
  refine (if_neg (by simp [hu])).trans ?_
  simp only [hidle, Bool.false_eq_true, if_false]
  rfl

end

/-! ### Accesses (R303–R305, R330, R332) -/

section
variable {d : Dev} {n len p : Nat} {a : CoreAcc} {e : HbmErr}

theorem coreAccess_barred {cause : Nat} (h : d.accBad n a.addr a.size a.kind = some cause) :
    d.coreAccess n len a e = d.trapCore n cause a.addr := by
  simp only [Dev.coreAccess, h]

section
variable (h : d.accBad n a.addr a.size a.kind = none) (hp : coreXlat n a.addr = some p)
include h hp

theorem coreAccess_own (ho : inOwn n p = true) : d.coreAccess n len a e = d.ownAccess n len a p e := by
  simp only [Dev.coreAccess, h, hp, ho, if_true]

theorem coreAccess_elsewhere (ho : inOwn n p = false) : d.coreAccess n len a e = d := by
  simp only [Dev.coreAccess, h, hp, ho, Bool.false_eq_true, if_false]

end

theorem ownAccess_load (hk : a.kind = .load) (h : (d.bnkRead p a.size 0 e).2.code = .okay) : d.ownAccess n len a p e =
    let r := d.bnkRead p a.size 0 e
    r.1.setCore n ((r.1.core n).retire len a.rd (loadValue a.size a.signed r.2.data)) := by
  simp only [Dev.ownAccess, hk, h, if_true]

theorem ownAccess_fetch (hk : a.kind = .fetch) (h : (d.bnkRead p a.size 0 e).2.code = .okay) :
    d.ownAccess n len a p e = (d.bnkRead p a.size 0 e).1 := by
  simp only [Dev.ownAccess, hk, h, if_true]

theorem ownAccess_amo (hk : a.kind = .amo) (h : (d.bnkRead p a.size 0 e).2.code = .okay) : d.ownAccess n len a p e =
    let r := d.bnkRead p a.size 0 e
    let w := r.1.bnkWrite p (leBytes a.value a.size) 0 []
    w.1.setCore n ((w.1.core n).retire len a.rd (loadValue a.size true r.2.data)) := by
  simp only [Dev.ownAccess, hk, h, if_true]

theorem ownAccess_store (hk : a.kind = .store) (h : (d.bnkWrite p (leBytes a.value a.size) 0 []).2.code = .okay) :
    d.ownAccess n len a p e =
      let w := d.bnkWrite p (leBytes a.value a.size) 0 []
      w.1.setCore n ((w.1.core n).next len) := by
  simp only [Dev.ownAccess, hk, h, if_true]

theorem ownAccess_badRead (hk : a.kind ≠ .store) (h : (d.bnkRead p a.size 0 e).2.code ≠ .okay) :
    d.ownAccess n len a p e = (d.bnkRead p a.size 0 e).1.trapCore n (accFault a.kind) a.addr := by
  cases hkind : a.kind with
  | store => exact absurd hkind hk
  | fetch => simp only [Dev.ownAccess, hkind, if_neg h]
  | load => simp only [Dev.ownAccess, hkind, if_neg h]
  | amo => simp only [Dev.ownAccess, hkind, if_neg h]

theorem ownAccess_badWrite (hk : a.kind = .store) (h : (d.bnkWrite p (leBytes a.value a.size) 0 []).2.code ≠ .okay) :
    d.ownAccess n len a p e = (d.bnkWrite p (leBytes a.value a.size) 0 []).1.trapCore n 7 a.addr := by
  simp only [Dev.ownAccess, hk, if_neg h, accFault]

end

/-! ### WFI (CORE-1) -/

section
variable {d : Dev} {n len : Nat}

/-- A core in U-mode with TW set may not wait. -/
def WfiBarred (c : Core) : Prop := c.modeM = false ∧ (c.csrGet 0x300).getLsbD 21 = true

theorem wfiBarred_iff (c : Core) : ((!c.modeM) = true ∧ (c.csrGet 0x300).getLsbD 21 = true) ↔ WfiBarred c := by
  rw [WfiBarred, Bool.not_eq_true']

theorem waitIrq_illegal (h : WfiBarred (d.core n)) : d.waitIrq n len = d.illegal n := if_pos ((wfiBarred_iff _).2 h)

theorem waitIrq_allowed (h : ¬ WfiBarred (d.core n)) :
    d.waitIrq n len = if d.eventLine n then d.setCore n ((d.core n).next len) else d :=
  if_neg (mt (wfiBarred_iff _).1 h)

end

/-! ### The custom-0 opcode (CORE-7) -/

section
variable {d : Dev} {n w : Nat} {k : Clk}

/-- A word whose fields are those of no instruction of CORE-7. -/
def CustomReserved (w : Nat) : Prop :=
  bitsOf w 6 0 ≠ 0x0B ∨ bitsOf w 31 25 ≠ 0 ∨ 6 ≤ bitsOf w 14 12 ∨ (bitsOf w 14 12 = 0 ∧ bitsOf w 19 15 ≠ 0) ∨
    (bitsOf w 14 12 = 1 ∧ bitsOf w 11 7 ≠ 0) ∨
    (bitsOf w 14 12 = 2 ∧ ¬ (bitsOf w 11 7 = 0 ∧ bitsOf w 19 15 = 0 ∧ bitsOf w 24 20 = 0)) ∨
    (bitsOf w 14 12 = 3 ∧ 4 ≤ bitsOf w 24 20) ∨ (bitsOf w 14 12 = 4 ∧ bitsOf w 11 7 ≠ 0) ∨
    (bitsOf w 14 12 = 5 ∧ bitsOf w 24 20 ≠ 0)

theorem xCustom_illegal (h : CustomReserved w) : xCustom n w k d = d.instr n (fun x => x.illegal n) := by
  by_cases hop : bitsOf w 6 0 ≠ 0x0B ∨ bitsOf w 31 25 ≠ 0
  · exact if_pos hop
  refine (if_neg hop).trans ?_
  rcases h with h | h | h | ⟨hf, h⟩ | ⟨hf, h⟩ | ⟨hf, h⟩ | ⟨hf, h⟩ | ⟨hf, h⟩ | ⟨hf, h⟩
  · exact absurd (.inl h) hop
  · exact absurd (.inr h) hop
  · split
    case h_7 => rfl
    all_goals omega
  · simp only [hf, if_neg h]
  · simp only [hf, if_neg h]
  · simp only [hf, if_neg h]
  · simp only [hf, if_pos (show bitsOf w 24 20 / 4 ≠ 0 by omega)]
  · simp only [hf, if_neg h]
  · simp only [hf, if_neg h]

section
variable (hop : bitsOf w 6 0 = 0x0B) (hz : bitsOf w 31 25 = 0)
include hop hz

theorem xCustom_xbrd (hf : bitsOf w 14 12 = 0) (h : bitsOf w 19 15 = 0) :
    xCustom n w k d = xXbrd n (bitsOf w 11 7) (bitsOf w 24 20) d := by
  simp [xCustom, hop, hz, hf, h]

theorem xCustom_xbwr (hf : bitsOf w 14 12 = 1) (h : bitsOf w 11 7 = 0) :
    xCustom n w k d = xXbwr n (bitsOf w 19 15) (bitsOf w 24 20) d := by
  simp [xCustom, hop, hz, hf, h]

theorem xCustom_xyield (hf : bitsOf w 14 12 = 2) (h : bitsOf w 11 7 = 0 ∧ bitsOf w 19 15 = 0 ∧ bitsOf w 24 20 = 0) :
    xCustom n w k d = xXyield n k d := by
  simp [xCustom, hop, hz, hf, h]

theorem xCustom_xwaitEvent (hf : bitsOf w 14 12 = 3) (h : bitsOf w 24 20 = 0) :
    xCustom n w k d = xXwaitEvent n (bitsOf w 11 7) k d := by
  simp [xCustom, hop, hz, hf, h]

theorem xCustom_xwaitDep (hf : bitsOf w 14 12 = 3) (h : bitsOf w 24 20 = 1) :
    xCustom n w k d = xXwaitDep n (bitsOf w 11 7) k d := by
  simp [xCustom, hop, hz, hf, h]

theorem xCustom_xwaitDelay (hf : bitsOf w 14 12 = 3) (h : bitsOf w 24 20 = 2) :
    xCustom n w k d = xXwaitDelay n (bitsOf w 11 7) (bitsOf w 19 15) k d := by
  simp [xCustom, hop, hz, hf, h]

theorem xCustom_xwaitEventOrDelay (hf : bitsOf w 14 12 = 3) (h : bitsOf w 24 20 = 3) :
    xCustom n w k d = xXwaitEventOrDelay n (bitsOf w 11 7) (bitsOf w 19 15) k d := by
  simp [xCustom, hop, hz, hf, h]

theorem xCustom_xdone (hf : bitsOf w 14 12 = 4) (h : bitsOf w 11 7 = 0) :
    xCustom n w k d = xXdone n (bitsOf w 19 15) (bitsOf w 24 20) k d := by
  simp [xCustom, hop, hz, hf, h]

theorem xCustom_xsig (hf : bitsOf w 14 12 = 5) (h : bitsOf w 24 20 = 0) :
    xCustom n w k d = xXsig n (bitsOf w 11 7) (bitsOf w 19 15) k d := by
  simp [xCustom, hop, hz, hf, h]

end

end

/-! ### MRET (R308, R312, R315) and EBREAK (21 R576) -/

section
variable {c : Core}

/-- The core after its MRET, by the level that it returns from. -/
def mretOf (c : Core) : Core :=
  if c.level = 0 then c.mretTo c.cur 0 else if c.level = 1 then c.mretTo c.ret1 0
  else if c.level = 2 then c.mretTo 6 1 else c.mretTo c.retf c.retlf

theorem mretOf_thread (h : c.level = 0) : mretOf c = c.mretTo c.cur 0 := if_pos h

theorem mretOf_event (h : c.level = 1) : mretOf c = c.mretTo c.ret1 0 := by simp only [mretOf, h, one_ne_zero, if_false, if_true]

theorem mretOf_nested (h : c.level = 2) : mretOf c = c.mretTo 6 1 := by simp [mretOf, h]

theorem mretOf_fault (h : c.level = 3) : mretOf c = c.mretTo c.retf c.retlf := by simp [mretOf, h]

end

section
variable {d : Dev} {n : Nat} (hx : (d.core n).executes = true)
include hx

/-- An instruction that is illegal traps with a free mtval. -/
theorem instr_illegal : d.instr n (fun x => x.illegal n) = endStep d n (d.fresh.2.trapCore n 2 d.fresh.1.toNat) :=
  instr_executes hx _

theorem xExceptionTrap_raise (len cause tval : Nat) (k : Clk) :
    xExceptionTrap n len (.raise cause tval) k d = endStep d n (d.trapCore n cause tval) :=
  instr_executes hx fun y => y.trapCore n cause tval

theorem xExceptionTrap_access (len : Nat) (a : CoreAcc) (e : HbmErr) (k : Clk) :
    xExceptionTrap n len (.access a e) k d = endStep d n (d.coreAccess n len a e) :=
  instr_executes hx fun y => y.coreAccess n len a e

theorem xExceptionTrap_wfi (len : Nat) (k : Clk) : xExceptionTrap n len .wfi k d = endStep d n (d.waitIrq n len) :=
  instr_executes hx fun y => y.waitIrq n len

theorem xMret_user (hm : (d.core n).modeM = false) : xMret n d = endStep d n (d.fresh.2.trapCore n 2 d.fresh.1.toNat) :=
  (instr_executes hx _).trans (congrArg (endStep d n) (if_pos (congrArg not hm)))

theorem xMret_machine {c : Core} (hm : (d.core n).modeM = true) (hr : mretOf (d.core n) = c) :
    xMret n d = endStep d n (d.setCore n c) := by
  subst hr
  refine (instr_executes hx _).trans (congrArg (endStep d n) ?_)
  rw [if_neg (by simp [hm]), mretOf, apply_ite (d.setCore n), apply_ite (d.setCore n), apply_ite (d.setCore n)]

theorem xEbreak_halts {k : Clk} (h : (d.reg (R.DBG_EBHALT.at (n / 16))).getLsbD (n % 16) = true) :
    xEbreak n k d = (d.haltCore n).fireInput k 1 (fun _ => true) :=
  (if_neg (by simp [hx])).trans (if_pos h)

theorem xEbreak_traps {k : Clk} (h : (d.reg (R.DBG_EBHALT.at (n / 16))).getLsbD (n % 16) = false) :
    xEbreak n k d = endStep d n (d.fresh.2.trapCore n 3 d.fresh.1.toNat) :=
  (if_neg (by simp [hx])).trans ((if_neg (Bool.eq_false_iff.1 h)).trans (instr_executes hx _))

end

/-! ### Event entries (R312, R313) -/

section
variable {d : Dev} {n : Nat}

theorem xEventEntry_notDue (h : d.entryDue n = false) : xEventEntry n d = d := if_pos (congrArg not h)

variable (hd : d.entryDue n = true)
include hd

theorem xEventEntry_noLevel (hl : (d.core n).entryLevel = none) :
    xEventEntry n d = d.fresh.2.faultEntry n 24 1 d.fresh.1.toNat (d.core n).pc := by
  simp only [xEventEntry, hd, hl, Bool.not_true, Bool.false_eq_true, if_false]

section
variable {l : Nat} (hl : (d.core n).entryLevel = some l)
include hl

theorem xEventEntry_badSp (hs : (d.core n).spOk n ((d.core n).entrySp l) = false) :
    xEventEntry n d = d.faultEntry n 24 2 ((d.core n).entrySp l) (d.core n).pc := by
  simp only [xEventEntry, hd, hl, hs, Bool.not_true, Bool.not_false, Bool.false_eq_true, if_false, if_true]

/-- The event bank of level `l`. -/
def eventBank (l : Nat) : Nat := if l = 1 then 6 else 5

/-- A core that has entered its event bank of level `l`. -/
def enterEvent (c : Core) (l : Nat) : Core :=
  { ((c.setWord (eventBank l) 2 (BitVec.ofNat 64 (c.entrySp l))).setTrap l ⟨c.pc, 2 ^ 63 + 11, 0, c.mie, c.modeM⟩).setState
      (eventBank l) c.mtvecExt true false with
    st := .run, cur := eventBank l, level := l, ret1 := if l = 1 then (if c.st = .idle then 7 else c.cur) else c.ret1 }

theorem xEventEntry_enters (hs : (d.core n).spOk n ((d.core n).entrySp l) = true) :
    xEventEntry n d = d.setCore n (enterEvent (d.core n) l) := by
  simp only [xEventEntry, hd, hl, hs, Bool.not_true, Bool.false_eq_true, if_false]
  rfl

end

end

/-- Settles O13: one lemma for each outcome of a trap, an access, a word of custom-0, a return and an event entry. -/
theorem coreTraps : Obligations.CoreTraps := by
  refine ⟨fun n len x s hx => ⟨next_congr (xExceptionTrap_idle hx len x s.clk), next_congr (xMret_idle hx),
    next_congr (xEbreak_idle hx s.clk)⟩, fun n s hx => ?instr, ?custom, fun n s => ⟨fun hd => next_congr (xEventEntry_notDue hd),
      fun hd => ?entry⟩⟩
  case instr =>
    intro c done thread free
    have hillegal : s.d.instr n (fun x => x.illegal n) = done (s.d.fresh.2.trapCore n 2 free) := instr_illegal hx
    have hraise {len cause tval : Nat} {d : Dev} (h : s.d.trapCore n cause tval = d) :
        exec (.exceptionTrap n len (.raise cause tval)) s = .next { s with d := done d } :=
      next_congr ((xExceptionTrap_raise hx len cause tval s.clk).trans (congrArg done h))
    have haccess {len : Nat} {a : CoreAcc} {e : HbmErr} {d : Dev} (h : s.d.coreAccess n len a e = d) :
        exec (.exceptionTrap n len (.access a e)) s = .next { s with d := done d } :=
      next_congr ((xExceptionTrap_access hx len a e s.clk).trans (congrArg done h))
    have hwfi {len : Nat} {d : Dev} (h : s.d.waitIrq n len = d) :
        exec (.exceptionTrap n len .wfi) s = .next { s with d := done d } :=
      next_congr ((xExceptionTrap_wfi hx len s.clk).trans (congrArg done h))
    refine ⟨fun len cause tval => ⟨fun hl => hraise (trapCore_thread hl),
        fun hl hu => hraise ((trapCore_event hl).trans (faultEntry_running hu (st_of_executes hx))),
        fun hl hu => hraise ((trapCore_event hl).trans (faultEntry_unusable hu)), fun hl => hraise (trapCore_fault hl)⟩,
      fun len a e => ⟨fun cause h => haccess (coreAccess_barred h), fun p h hp ho => ?own,
        fun p h hp ho => haccess (coreAccess_elsewhere h hp ho)⟩,
      fun len => next_congr hillegal, fun len => ⟨fun hb => hwfi (waitIrq_illegal hb),
        fun hb he => hwfi ((waitIrq_allowed hb).trans (if_pos he)),
        fun hb he => hwfi ((waitIrq_allowed hb).trans (if_neg (Bool.eq_false_iff.1 he)))⟩,
      ?reserved, fun hm => next_congr (xMret_user hx hm), fun hm => ?mret,
      fun h => next_congr (xEbreak_halts hx h),
      fun h hl => next_congr ((xEbreak_traps hx h).trans (congrArg done (trapCore_thread hl)))⟩
    case own =>
      intro rd wr
      have hown {d : Dev} (h' : s.d.ownAccess n len a p e = d) :
          exec (.exceptionTrap n len (.access a e)) s = .next { s with d := done d } :=
        haccess ((coreAccess_own h hp ho).trans h')
      exact ⟨fun hk hr => hown (ownAccess_load hk hr), fun hk hw => hown (ownAccess_store hk hw),
        fun hk hr => hown (ownAccess_fetch hk hr), fun hk hr => hown (ownAccess_amo hk hr),
        fun hk hr => hown (ownAccess_badRead hk hr), fun hk hw => hown (ownAccess_badWrite hk hw)⟩
    case reserved =>
      rintro len w _ _ _ _ rfl rfl rfl rfl h
      exact next_congr ((xCustom_illegal h).trans hillegal)
    case mret =>
      exact ⟨fun hl => next_congr (xMret_machine hx hm (mretOf_thread hl)), fun hl => next_congr (xMret_machine hx hm (mretOf_event hl)),
        fun hl => next_congr (xMret_machine hx hm (mretOf_nested hl)), fun hl => next_congr (xMret_machine hx hm (mretOf_fault hl))⟩
  case custom =>
    rintro n len w _ _ _ s hop hz rfl rfl rfl f
    exact ⟨fun hf h => next_congr (xCustom_xbrd hop hz hf h), fun hf h => next_congr (xCustom_xbwr hop hz hf h),
      fun hf h1 h2 h3 => next_congr (xCustom_xyield hop hz hf ⟨h1, h2, h3⟩), fun hf h => next_congr (xCustom_xwaitEvent hop hz hf h),
      fun hf h => next_congr (xCustom_xwaitDep hop hz hf h), fun hf h => next_congr (xCustom_xwaitDelay hop hz hf h),
      fun hf h => next_congr (xCustom_xwaitEventOrDelay hop hz hf h), fun hf h => next_congr (xCustom_xdone hop hz hf h),
      fun hf h => next_congr (xCustom_xsig hop hz hf h)⟩
  case entry =>
    intro c
    refine ⟨?_, fun l hl hs => next_congr (xEventEntry_badSp hd hl hs), fun hl => next_congr (xEventEntry_noLevel hd hl)⟩
    rintro l _ hl rfl hs
    exact next_congr (xEventEntry_enters hd hl hs)

end Sys2Proof.Proofs

namespace Sys2Proof.Proofs

open Sys2Proof.Machine Sys2Proof.Safety

/-! The bank window, the CSRs and FP instructions of a core (11 R302, R308, R317–R320, R326). -/

/-! ### The bank window (R317) -/

section
variable {c : Core} {b i : Nat} {v : Word}

theorem bankWrite_register (h : i ≠ 0) : c.bankWrite b i v = c.setWord b i v := if_neg h

theorem bankWrite_state (h : i = 0) (hb : b ≠ c.cur) :
    c.bankWrite b i v = c.setWord b 0 (v &&& BitVec.ofNat 64 stateMask) := (if_pos h).trans (if_neg hb)

theorem bankWrite_current (h : i = 0) (hb : b = c.cur) : c.bankWrite b i v = c := (if_pos h).trans (if_pos hb)

end

theorem setWord_cur (c : Core) (b i : Nat) (v : Word) : (c.setWord b i v).cur = c.cur := rfl

theorem next_cur (c : Core) (len : Nat) : (c.next len).cur = c.cur := setWord_cur _ _ _ _

section
variable {d : Dev} {n : Nat}

/-- The bank that XBSEL selects. -/
def windowBank (c : Core) : Nat := getBits (c.csrGet 0x7C0) 2 0

section
variable (hx : (d.core n).executes = true)
include hx

theorem xXbrd_machine (rd i : Nat) (hm : (d.core n).modeM = true) : xXbrd n rd i d =
    endStep d n (d.setCore n (((d.core n).next 4).setX (d.core n).cur rd ((d.core n).read (windowBank (d.core n)) i))) :=
  (instr_executes hx _).trans (congrArg (endStep d n) (if_neg (by simp [hm])))

theorem xXbwr_machine {rs1 i : Nat} {c : Core} (hm : (d.core n).modeM = true)
    (hw : ((d.core n).next 4).bankWrite (windowBank (d.core n)) i ((d.core n).x rs1) = c) :
    xXbwr n rs1 i d = endStep d n (d.setCore n c) := by
  subst hw
  exact (instr_executes hx _).trans (congrArg (endStep d n) (if_neg (by simp [hm])))

theorem xXbrd_user (rd i : Nat) (hm : (d.core n).modeM = false) : xXbrd n rd i d = endStep d n (d.illegal n) :=
  (instr_executes hx _).trans (congrArg (endStep d n) (if_pos (congrArg not hm)))

theorem xXbwr_user (rs1 i : Nat) (hm : (d.core n).modeM = false) : xXbwr n rs1 i d = endStep d n (d.illegal n) :=
  (instr_executes hx _).trans (congrArg (endStep d n) (if_pos (congrArg not hm)))

end

/-! ### CSR instructions (R302, R308, R318, R326) -/

variable {k : Clk} {num rd : Nat}

theorem xXevdepth_idle (hx : (d.core n).executes = false) (w : Option Nat) : xXevdepth n num rd w k d = d := by
  rw [xXevdepth, instr_idle hx]

/-- An access to CSR `num` of core `c` that needs no exchange of the FP file: the CSR does not belong to it, or the file is
that of the thread in the current bank. -/
def CsrPlain (c : Core) (num : Nat) : Prop :=
  csrFp num = false ∨ (c.level = 0 ∧ ∃ t, c.boundAt c.cur = some t ∧ c.owner = some t.task)

theorem csrDo_none {w : Option Nat} (hr : d.csrRead k n num = none) : d.csrDo k n num rd w = d.illegal n := by
  simp only [Dev.csrDo, hr]

section
variable {v : Word} {e : Dev} (hr : d.csrRead k n num = some (v, e))
include hr

theorem csrDo_read : d.csrDo k n num rd none = e.setCore n (((e.core n).next 4).setX (e.core n).cur rd v) := by
  simp only [Dev.csrDo, hr]

theorem csrDo_write {w : Nat} {c : Core} (hc : (e.core n).csrWrite num (BitVec.ofNat 64 w) = c) :
    d.csrDo k n num rd (some w) = e.setCore n ((c.next 4).setX c.cur rd v) := by
  subst hc
  simp only [Dev.csrDo, hr]

end

section
variable (hx : (d.core n).executes = true)
include hx

theorem xXevdepth_barred {w : Option Nat} (h : (d.core n).csrMay num w.isSome = false) :
    xXevdepth n num rd w k d = endStep d n (d.illegal n) :=
  (instr_executes hx _).trans (congrArg (endStep d n) (if_pos (congrArg not h)))

theorem xXevdepth_plain {w : Option Nat} {e : Dev} (hmay : (d.core n).csrMay num w.isSome = true) (hp : CsrPlain (d.core n) num)
    (hdo : d.csrDo k n num rd w = e) : xXevdepth n num rd w k d = endStep d n e := by
  refine (instr_executes hx _).trans (congrArg (endStep d n) ((if_neg (by simp [hmay])).trans ?_))
  rcases hp with hfp | ⟨hl, t, ht, ho⟩
  · exact (if_pos (congrArg not hfp)).trans hdo
  · simp only [ht, hl, ho, ne_eq, not_true_eq_false, if_false, if_true, hdo, ite_self]

end

/-! ### XEVDEPTH (CORE-9, CORE-10) -/

theorem csrRead_xevdepth : d.csrRead k n 0x7C5 = some ((d.core n).csrGet 0x7C5, d) := rfl

section
variable {c : Core} {v : Nat}

theorem csrMay_xevdepth (hm : c.modeM = true) (write : Bool) : c.csrMay 0x7C5 write = true := by
  cases write <;> simp [Core.csrMay, hm, bitsOf]

theorem csrWrite_xevdepth (hv : v < 2 ^ 64) : c.csrWrite 0x7C5 (BitVec.ofNat 64 v) = c.depthWrite v :=
  congrArg c.depthWrite (BitVec.toNat_ofNat v 64 |>.trans (Nat.mod_eq_of_lt hv))

theorem depthWrite_one (h1 : c.level ≠ 1) (h2 : c.level ≠ 2) (hv : v % 4 = 1) : c.depthWrite v = c.csrSet 0x7C5 1 :=
  (if_neg (not_or.2 ⟨h1, h2⟩)).trans (if_pos hv)

/-- A depth of 2 is taken at the thread level, while no thread holds bank 5. -/
def TakesTwo (c : Core) (v : Nat) : Prop := v % 4 = 2 ∧ c.level = 0 ∧ c.boundAt 5 = none

theorem depthWrite_two (h : TakesTwo c v) : c.depthWrite v = c.csrSet 0x7C5 2 := by
  obtain ⟨hv, hl, hb⟩ := h
  simp [Core.depthWrite, hv, hl, hb]

theorem depthWrite_keeps (h : c.level = 1 ∨ c.level = 2 ∨ (v % 4 ≠ 1 ∧ ¬ TakesTwo c v)) : c.depthWrite v = c := by
  by_cases hl : c.level = 1 ∨ c.level = 2
  · exact if_pos hl
  · obtain ⟨h1, h2⟩ : v % 4 ≠ 1 ∧ ¬ TakesTwo c v := by tauto
    have hnot : ¬ (v % 4 = 2 ∧ c.level = 0 ∧ (c.boundAt 5).isNone = true) := by rwa [Option.isNone_iff_eq_none]
    exact (if_neg hl).trans ((if_neg h1).trans (if_neg hnot))

end

theorem xXevdepth_depth {v : Nat} {c : Core} (hx : (d.core n).executes = true) (hm : (d.core n).modeM = true) (hv : v < 2 ^ 64)
    (hd : (d.core n).depthWrite v = c) : xXevdepth n 0x7C5 rd (some v) k d =
      endStep d n (d.setCore n ((c.next 4).setX c.cur rd ((d.core n).csrGet 0x7C5))) :=
  xXevdepth_plain hx (csrMay_xevdepth hm true) (.inl rfl) (csrDo_write csrRead_xevdepth ((csrWrite_xevdepth hv).trans hd))

/-! ### FP instructions (R318–R320) -/

section
variable {len : Nat} {w : Option (Nat × Nat)}

theorem xFpExchange_idle (hx : (d.core n).executes = false) : xFpExchange n len w d = d := by
  rw [xFpExchange, instr_idle hx]

variable (hx : (d.core n).executes = true)
include hx

theorem xFpExchange_illegal (h : (d.core n).level ≠ 0 ∨ (d.core n).boundAt (d.core n).cur = none) :
    xFpExchange n len w d = endStep d n (d.illegal n) := by
  refine (instr_executes hx _).trans (congrArg (endStep d n) ?_)
  rcases h with h | h
  · exact if_pos h
  · simp only [h, ite_self]

section
variable {t : Bound} (hl : (d.core n).level = 0) (ht : (d.core n).boundAt (d.core n).cur = some t)
include hl ht

theorem xFpExchange_owned (ho : (d.core n).owner = some t.task) :
    xFpExchange n len w d = endStep d n (d.setCore n ((d.core n).fpDo len w)) := by
  refine (instr_executes hx _).trans (congrArg (endStep d n) ?_)
  simp only [hl, ht, ho, ne_eq, not_true_eq_false, if_false, if_true]

variable (ho : (d.core n).owner ≠ some t.task)
include ho

theorem xFpExchange_noArea (ha : t.fp = 0) : xFpExchange n len w d = endStep d n (d.illegal n) := by
  refine (instr_executes hx _).trans (congrArg (endStep d n) ?_)
  simp only [hl, ht, if_neg ho, ha, ne_eq, not_true_eq_false, if_false, if_true]

/-- The file is exchanged first: the instruction is made if that succeeds. -/
theorem xFpExchange_exchanges (ha : t.fp ≠ 0) : xFpExchange n len w d =
    endStep d n (if (d.fpSwap n t.task t.fp).2 then
      (d.fpSwap n t.task t.fp).1.setCore n (((d.fpSwap n t.task t.fp).1.core n).fpDo len w)
      else (d.fpSwap n t.task t.fp).1) := by
  refine (instr_executes hx _).trans (congrArg (endStep d n) ?_)
  simp only [hl, ht, if_neg ho, if_neg ha, ne_eq, not_true_eq_false, if_false]
  rfl

end

end

end

/-- Settles O14: the window, the CSRs, XEVDEPTH and the FP file, one lemma for each outcome. -/
theorem coreWindow : Obligations.CoreWindow := by
  refine ⟨fun n s hx => ⟨fun rd i => next_congr (xXbrd_idle hx rd i), fun rs1 i => next_congr (xXbwr_idle hx rs1 i),
    fun num rd w => next_congr (xXevdepth_idle hx w), fun len w => next_congr (xFpExchange_idle hx)⟩, fun n s hx => ?_⟩
  intro c done b bad
  refine ⟨fun rd i hm => next_congr (xXbrd_machine hx rd i hm),
    fun rs1 i hm => ⟨fun hi => next_congr (xXbwr_machine hx hm (bankWrite_register hi)),
      fun hi hb => next_congr (xXbwr_machine hx hm (bankWrite_state hi (hb.trans_eq (next_cur c 4).symm))),
      fun hi hb => next_congr (xXbwr_machine hx hm (bankWrite_current hi (hb.trans (next_cur c 4).symm)))⟩,
    fun r i hm => ⟨next_congr (xXbrd_user hx r i hm), next_congr (xXbwr_user hx r i hm)⟩,
    fun num rd w hmay => next_congr (xXevdepth_barred hx hmay), ?_⟩
  intro plain
  refine ⟨fun num rd w hmay hp hr => next_congr (xXevdepth_plain hx hmay hp (csrDo_none hr)),
    fun num rd v d1 hmay hp hr => next_congr (xXevdepth_plain hx hmay hp (csrDo_read hr)),
    fun num rd w v d1 hmay hp hr => next_congr (xXevdepth_plain hx hmay hp (csrDo_write hr rfl)),
    fun rd v hm => ⟨fun h1 h2 hone hv => next_congr (xXevdepth_depth hx hm hv (depthWrite_one h1 h2 hone)),
      fun htwo hv => next_congr (xXevdepth_depth hx hm hv (depthWrite_two htwo)),
      fun hk hv => next_congr (xXevdepth_depth hx hm hv (depthWrite_keeps hk))⟩,
    fun len w t hl ht => ⟨fun ho => next_congr (xFpExchange_owned hx hl ht ho),
      fun ho ha => next_congr (xFpExchange_noArea hx hl ht ho ha), fun ho ha =>
        ⟨fun hok => next_congr ((xFpExchange_exchanges hx hl ht ho ha).trans (congrArg done (if_pos hok))),
          fun hbad => next_congr ((xFpExchange_exchanges hx hl ht ho ha).trans (congrArg done (if_neg (Bool.eq_false_iff.1 hbad))))⟩⟩,
    fun len w h => next_congr (xFpExchange_illegal hx h), fun len i v => rfl⟩

end Sys2Proof.Proofs

namespace Sys2Proof.Proofs

open Sys2Proof.Machine Sys2Proof.Safety

/-! Reset and release of a core, handover and clear of its home bank (11 R324, R325, R330, R331). -/

/-! ### The release of a core (R324, R331) -/

section
variable {d : Dev} {n : Nat}

/-- A core that may leave reset: it is held there by nothing, its bank is clear, and the chip is not in safe stop. -/
def MayRelease (d : Dev) (n : Nat) : Prop :=
  (d.core n).st = .reset ∧ (d.reg (coreReg n .CORE_CTRL)).getLsbD 0 = false ∧ d.bnkMolting n = false ∧ d.safe = false

/-- A core that leaves reset at `pc`: unmanaged, in bank 0, in M-mode. -/
def releasedAt (pc : Nat) : Core := { Core.zero.setState 0 pc true false with st := .run }

theorem coreRelease_stays (h : ¬ MayRelease d n) : d.coreRelease n = d := if_neg h

theorem coreRelease_starts (h : MayRelease d n) (hb : n ≠ 0 ∨ d.boot.on = false) :
    d.coreRelease n = d.setCore n (releasedAt (d.regN (coreReg n .CORE_RSTVEC))) :=
  (if_pos h).trans (if_neg (by rwa [not_and_or, Bool.not_eq_true]))

/-- While a boot runs, CC0 of Q0 starts in the boot ROM (18 R507). -/
theorem coreRelease_boots (h : MayRelease d 0) (hb : d.boot.on = true) :
    d.coreRelease 0 = d.fresh.2.setCore 0 (releasedAt d.fresh.1.toNat) := (if_pos h).trans (if_pos ⟨rfl, hb⟩)

/-! ### CORE_CTRL (R324, R325) -/

section
variable {m : Mst} {v : Nat} {k : Clk} (hm : m.oid = 0)
include hm

theorem xCoreCtrl_resets (hv : v % 2 = 1) (hst : (d.core n).st ≠ .reset) :
    xCoreCtrl m n v k d = ((d.setRegN (coreReg n .CORE_CTRL) 1).coreReset k.tick n).okay := by
  simp only [xCoreCtrl, owner_of_oid hm, hv, hst, Bool.not_true, Bool.false_eq_true, and_false, if_false, if_true]

theorem xCoreCtrl_held (hv : v % 2 = 1) (hst : (d.core n).st = .reset) (hr : (d.reg (coreReg n .CORE_CTRL)).getLsbD 0 = true) :
    xCoreCtrl m n v k d = (d.setRegN (coreReg n .CORE_CTRL) 1).okay := by
  simp only [xCoreCtrl, owner_of_oid hm, hv, hst, hr, Bool.not_true, Bool.false_eq_true, and_self, if_false, if_true]

theorem xCoreCtrl_releases (hv : v % 2 = 0) :
    xCoreCtrl m n v k d = ((d.setRegN (coreReg n .CORE_CTRL) 0).coreRelease n).okay := by
  simp only [xCoreCtrl, owner_of_oid hm, hv, Bool.not_true, Bool.false_eq_true, zero_ne_one, if_false]

end

/-- The write of 0 to CORE_CTRL leaves what else a release rests on. -/
theorem mayRelease_cleared : MayRelease (d.setRegN (coreReg n .CORE_CTRL) 0) n ↔
    (d.core n).st = .reset ∧ d.bnkMolting n = false ∧ d.safe = false := by
  have hctrl : (d.setRegN (coreReg n .CORE_CTRL) 0).reg (coreReg n .CORE_CTRL) = 0 := Laws.reg_setReg_self _ _ _
  have hother {x : RKey} (hx : x.r ≠ .CORE_CTRL) : (d.setRegN (coreReg n .CORE_CTRL) 0).reg x = d.reg x :=
    Laws.reg_setReg_other _ _ fun e => hx (congrArg RKey.r e)
  have hmolt : (d.setRegN (coreReg n .CORE_CTRL) 0).bnkMolting n = d.bnkMolting n :=
    congrArg (BitVec.getLsbD · 0) (hother (x := coreReg n .BNK_STAT) (by simp [coreReg, R.at]))
  have hsafe : (d.setRegN (coreReg n .CORE_CTRL) 0).safe = d.safe :=
    congrArg (BitVec.getLsbD · 31) (hother (x := R.SAFE_STAT.at 0) (by simp [R.at]))
  rw [MayRelease, Laws.core_setRegN, hctrl, hmolt, hsafe]
  simp

/-! ### BNK_OWNER (R330) -/

section
variable {m : Mst} {v : Nat} (hm : m.oid = 0)
include hm

theorem xBnkOwner_same (h : v % 4096 = getBits (d.reg (coreReg n .BNK_OWNER)) 11 0) :
    xBnkOwner m n v d = (d.setRegN (coreReg n .BNK_OWNER) (v &&& 0x20FFF)).okay :=
  (if_neg (not_denied hm)).trans (if_pos h)

variable (h : ¬ v % 4096 = getBits (d.reg (coreReg n .BNK_OWNER)) 11 0)
include h

theorem xBnkOwner_refused (hbusy : (d.core n).st ≠ .reset ∨ d.bnkMolting n = true) :
    xBnkOwner m n v d = d.refuse m (coreReg n .BNK_OWNER) :=
  (if_neg (not_denied hm)).trans ((if_neg h).trans (if_pos hbusy))

theorem xBnkOwner_hands (hst : (d.core n).st = .reset) (hmolt : d.bnkMolting n = false) : xBnkOwner m n v d =
    (if v.testBit 16 then d.setRegN (coreReg n .BNK_OWNER) (v &&& 0x20FFF)
      else (d.setRegN (coreReg n .BNK_OWNER) (v &&& 0x20FFF)).setBit (coreReg n .BNK_STAT) 0 true).okay :=
  (if_neg (not_denied hm)).trans ((if_neg h).trans (if_neg (by simp [hst, hmolt])))

end

/-! ### HOME_BANK_CLEAR (R331) -/

/-- The home bank of core `n` after its clear: zero, and molting no more. -/
def bankCleared (d : Dev) (n : Nat) : Dev := (d.bnkZero n).setBit (coreReg n .BNK_STAT) 0 false

theorem xHomeBankClear_molting (h : d.bnkMolting n = true) : xHomeBankClear n d = (bankCleared d n).coreRelease n := if_pos h

theorem xHomeBankClear_still (h : d.bnkMolting n = false) : xHomeBankClear n d = d := if_neg (Bool.eq_false_iff.1 h)

/-- A clear changes no register but BNK_STAT. -/
theorem reg_bankCleared_other {x : RKey} (hx : x.r ≠ .BNK_STAT) : (bankCleared d n).reg x = d.reg x := by
  have hne : x ≠ coreReg n .BNK_STAT := fun e => hx (congrArg RKey.r e)
  rw [bankCleared, Laws.setBit_eq, Laws.reg_setReg_other _ _ hne, Dev.bnkZero, Dev.bnkPoison, Laws.setBit_eq,
    Laws.reg_setReg_other _ _ hne]
  rfl

theorem bnkMolting_bankCleared : (bankCleared d n).bnkMolting n = false := by
  rw [Dev.bnkMolting, bankCleared, Laws.setBit_eq, Laws.reg_setReg_self, Laws.getLsbD_putBits _ _ _ _ _ le_rfl (by omega)]
  rfl

theorem mayRelease_bankCleared : MayRelease (bankCleared d n) n ↔
    (d.core n).st = .reset ∧ (d.reg (coreReg n .CORE_CTRL)).getLsbD 0 = false ∧ d.safe = false := by
  have hsafe : (bankCleared d n).safe = d.safe :=
    congrArg (BitVec.getLsbD · 31) (reg_bankCleared_other (x := R.SAFE_STAT.at 0) (by simp [R.at]))
  have hcore : (bankCleared d n).core n = d.core n := rfl
  rw [MayRelease, hcore, reg_bankCleared_other (by simp [coreReg, R.at]), bnkMolting_bankCleared, hsafe]
  simp

end

/-- Settles O16: a release is decided by what holds after the write of CORE_CTRL, or after the clear of the bank. -/
theorem coreControl : Obligations.CoreControl := by
  refine ⟨fun m n v s hm => ?ctrl, fun m n v s hm => ⟨fun h => next_congr (xBnkOwner_same hm h),
    fun h hbusy => next_congr (xBnkOwner_refused hm h hbusy), fun h hst hmolt => next_congr (xBnkOwner_hands hm h hst hmolt)⟩,
    fun n s => ?clear⟩
  case ctrl =>
    intro c d0
    have hrelease {d : Dev} (hv : v % 2 = 0) (h : d0.coreRelease n = d) :
        exec (.coreCtrl m n v) s = .next { s with d := d.okay } :=
      next_congr ((xCoreCtrl_releases hm hv).trans (congrArg Dev.okay h))
    refine ⟨fun hv hst => next_congr (xCoreCtrl_resets hm hv hst), fun hv hst hr => next_congr (xCoreCtrl_held hm hv hst hr),
      fun hv hst hmolt hsafe hb => hrelease hv ?starts, ?boots, fun hv hnot => hrelease hv (coreRelease_stays ?stays)⟩
    case starts =>
      have hvec : d0.regN (coreReg n .CORE_RSTVEC) = s.d.regN (coreReg n .CORE_RSTVEC) :=
        congrArg BitVec.toNat (Laws.reg_setReg_other _ _ (by simp [coreReg, R.at]))
      exact (coreRelease_starts (mayRelease_cleared.2 ⟨hst, hmolt, hsafe⟩) hb).trans (by rw [hvec]; rfl)
    case boots =>
      rintro hv rfl hst hmolt hsafe hb
      exact hrelease hv (coreRelease_boots (mayRelease_cleared.2 ⟨hst, hmolt, hsafe⟩) hb)
    case stays =>
      rw [mayRelease_cleared, not_and_or, not_and_or, Bool.not_eq_false, Bool.not_eq_false]
      exact hnot
  case clear =>
    have hstays (hmolt : s.d.bnkMolting n = true) (h : ¬ MayRelease (bankCleared s.d n) n) :
        exec (.homeBankClear n) s = .next { s with d := bankCleared s.d n } :=
      next_congr ((xHomeBankClear_molting hmolt).trans (coreRelease_stays h))
    refine ⟨fun hmolt hst => hstays hmolt fun h => ?notReset, fun hmolt _ hr => hstays hmolt fun h => ?held,
      fun hmolt hst hr hsafe hb => ?starts, fun h => next_congr (xHomeBankClear_still h)⟩
    case notReset =>
      obtain ⟨hreset, -, -⟩ := mayRelease_bankCleared.1 h
      exact hst hreset
    case held =>
      obtain ⟨-, hclear, -⟩ := mayRelease_bankCleared.1 h
      exact Bool.false_ne_true (hclear.symm.trans hr)
    case starts =>
      intro c
      have hvec : (bankCleared s.d n).regN (coreReg n .CORE_RSTVEC) = s.d.regN (coreReg n .CORE_RSTVEC) :=
        congrArg BitVec.toNat (reg_bankCleared_other (by simp [coreReg, R.at]))
      have hstart := coreRelease_starts (mayRelease_bankCleared.2 ⟨hst, hr, hsafe⟩) hb
      rw [hvec] at hstart
      exact next_congr ((xHomeBankClear_molting hmolt).trans hstart)

end Sys2Proof.Proofs

namespace Sys2Proof.Proofs

open Sys2Proof.Machine Sys2Proof.Safety

/-! Event sources, timers and watermark thresholds (12 R340–R348, R355, R356). -/

/-! ### Occurrences (R340, EVT-8) -/

section
variable {q b : Nat} {l : List Nat} {d : Dev}

/-- The software sources are the numbers 0x500 to 0x5FF of every quarter (R338). -/
theorem sourceExists_software {n : Nat} (h : 0x500 ≤ n) (hn : n < 0x600) : sourceExists q n = true := by
  have hge {c : Nat} (hc : c ≤ 0x500) : ¬ n < c := Nat.not_lt.2 (hc.trans h)
  simp [sourceExists, hge, hn]

/-- One occurrence of each source that `l` lists, counted from source `b`. -/
def raiseEach (q b : Nat) (l : List Nat) (d : Dev) : Dev := l.foldl (fun x j => x.raise q (b + j)) d

/-- Occurrences set latches and change nothing else. -/
theorem raiseEach_frame : ∃ occ, raiseEach q b l d = { d with occ := occ } := by
  refine List.foldlRecOn (motive := fun x : Dev => ∃ occ, x = { d with occ := occ }) _ _ ⟨d.occ, rfl⟩ ?_
  rintro _ ⟨occ, rfl⟩ j -
  rw [Laws.raise_eq]
  split
  · exact ⟨_, rfl⟩
  · exact ⟨occ, rfl⟩

/-- A latch is set after the occurrences if it was before, or if its source is among those listed. -/
theorem occ_raiseEach (h : ∀ j ∈ l, sourceExists q (b + j) = true) (n : Nat) :
    nget false (raiseEach q b l d).occ n = true ↔ (∃ j ∈ l, n = q * 1536 + (b + j)) ∨ nget false d.occ n = true := by
  induction l generalizing d with
  | nil => simp [raiseEach]
  | cons j l ih =>
    have hstep : raiseEach q b (j :: l) d = raiseEach q b l (d.raise q (b + j)) := rfl
    rw [hstep, ih fun i hi => h i (List.mem_cons_of_mem j hi), Laws.occ_raise _ _ _ _ (h j List.mem_cons_self)]
    by_cases hn : n = q * 1536 + (b + j) <;> simp [hn]

theorem mem_onesOf {v n j : Nat} : j ∈ onesOf v n ↔ j < n ∧ v.testBit j = true := by
  simp [onesOf, upTo]

/-- EVT_SWSET(w) selects among the 32 software sources from 0x500 + 32w on, all of which exist. -/
theorem occ_softwareSet {w : Nat} (hw : w < 8) (v n : Nat) :
    nget false (raiseEach q (0x500 + 32 * w) (onesOf v 32) d).occ n = true ↔
      (∃ j ∈ onesOf v 32, n = q * 1536 + (0x500 + 32 * w + j)) ∨ nget false d.occ n = true :=
  occ_raiseEach (fun j hj => by
    obtain ⟨hlt, -⟩ := mem_onesOf.1 hj
    exact sourceExists_software (by omega) (by omega)) n

end

/-! ### EVT_CLAIM, EVT_SWSET and EVT_ROUTE (R342–R344, R355, R356) -/

section
variable {m : Mst} {q : Nat} {d : Dev} (hm : m.oid = 0)
include hm

theorem xEvtClaim_best {c src : Nat} (h : d.best q (d.forCore (q * 16 + c)) = some src) :
    xEvtClaim m q c d = (d.setPend q src false).answer .okay
      (BitVec.ofNat 64 (2 ^ 31 + d.classOf q src * 2 ^ 27 + q * 1536 + src)) := by
  rw [xEvtClaim, if_neg (not_denied hm), h]

theorem xEvtClaim_none {c : Nat} (h : d.best q (d.forCore (q * 16 + c)) = none) : xEvtClaim m q c d = d.answer .okay 0 := by
  rw [xEvtClaim, if_neg (not_denied hm), h]

theorem xEvtSwset_owner (w v : Nat) : xEvtSwset m q w v d = (raiseEach q (0x500 + 32 * w) (onesOf v 32) d).okay :=
  if_neg (not_denied hm)

variable {src v : Nat}

theorem xEvtRoute_held (hs : sourceExists q src = true) (hv : routeValid src v = true) :
    xEvtRoute m q src v d = ({ d.setRegN (R.EVT_ROUTE.at q src) (routeValue src v) with
      routes := nset Option.none d.routes (q * 1536 + src) (some (d.routeNow q src)) } : Dev).okay := by
  simp only [xEvtRoute, owner_of_oid hm, hs, hv, Bool.not_true, Bool.false_eq_true, if_false]

theorem xEvtRoute_dropped (hs : sourceExists q src = true) (hv : routeValid src v = false) :
    xEvtRoute m q src v d = d.refuse m (R.EVT_ROUTE.at q src) := by
  simp only [xEvtRoute, owner_of_oid hm, hs, hv, Bool.not_true, Bool.not_false, Bool.false_eq_true, if_false, if_true]

theorem xEvtRoute_noSource (hs : sourceExists q src = false) : xEvtRoute m q src v d = d.okay :=
  (if_neg (not_denied hm)).trans (if_pos (congrArg not hs))

end

/-- Settles O10: claims and routes by their cases; EVT_SWSET by what a list of occurrences sets and leaves. -/
theorem eventSources : Obligations.EventSources := by
  refine ⟨fun m q c src s hm h => next_congr (xEvtClaim_best hm h), fun m q c s hm h => next_congr (xEvtClaim_none hm h),
    fun m q w v s hm hq hw => ⟨_, next_congr (xEvtSwset_owner hm w v), ?set, ?others, rfl, ?frame⟩,
    fun m q src v s hm hs hv => next_congr (xEvtRoute_held hm hs hv),
    fun m q src v s hm hs hv => next_congr (xEvtRoute_dropped hm hs hv),
    fun m q src v s hm hs => next_congr (xEvtRoute_noSource hm hs)⟩
  case set =>
    intro j hj
    have hone : (∃ i ∈ onesOf v 32, q * 1536 + (0x500 + 32 * w + j) = q * 1536 + (0x500 + 32 * w + i)) ↔ v.testBit j = true := by
      simp [mem_onesOf, hj]
    rw [Bool.eq_iff_iff, Bool.or_eq_true, ← hone]
    exact occ_softwareSet hw v _
  case others =>
    intro n hn
    have hnone : ¬ ∃ i ∈ onesOf v 32, n = q * 1536 + (0x500 + 32 * w + i) :=
      fun ⟨i, hi, hni⟩ => hn i (mem_onesOf.1 hi).1 hni
    exact Bool.eq_iff_iff.2 ((occ_softwareSet hw v n).trans (or_iff_right hnone))
  case frame =>
    obtain ⟨occ, h⟩ := raiseEach_frame (q := q) (b := 0x500 + 32 * w) (l := onesOf v 32) (d := s.d)
    rw [h]
    rfl

/-! ### Timers (R346) -/

section
variable {q i : Nat} {k : Clk} {d : Dev}

/-- A timer is due: enabled, with its NEXT reached, and it has not raised at the coming tick edge. -/
def TimerDue (d : Dev) (k : Clk) (q i : Nat) : Prop :=
  (d.reg (R.EVT_TMR_CTRL.at q i)).getLsbD 0 = true ∧ inFuture k.tick (d.regN (R.EVT_TMR_NEXT.at q i)) = false ∧
    nget 0 d.timerAt (q * 32 + i) ≠ k.tick + 1

/-- The occurrence of a timer at the coming tick edge. -/
def timerRaised (d : Dev) (k : Clk) (q i : Nat) : Dev :=
  ({ d with timerAt := nset 0 d.timerAt (q * 32 + i) (k.tick + 1) } : Dev).raise q (0x330 + i)

theorem xTimer_still (h : ¬ TimerDue d k q i) : xTimer q i k d = d := if_neg h

section
variable (h : TimerDue d k q i)
include h

theorem xTimer_oneShot (hp : (d.reg (R.EVT_TMR_CTRL.at q i)).getLsbD 1 = false) :
    xTimer q i k d = (timerRaised d k q i).setBit (R.EVT_TMR_CTRL.at q i) 0 false :=
  (if_pos h).trans (if_neg (Bool.eq_false_iff.1 hp))

theorem xTimer_periodic (hp : (d.reg (R.EVT_TMR_CTRL.at q i)).getLsbD 1 = true) :
    xTimer q i k d = (timerRaised d k q i).setRegN (R.EVT_TMR_NEXT.at q i)
      ((d.regN (R.EVT_TMR_NEXT.at q i) + d.regN (R.EVT_TMR_PERIOD.at q i)) % 2 ^ 32) :=
  (if_pos h).trans (if_pos hp)

end

variable {m : Mst} {v : Nat} (hm : m.oid = 0)
include hm

theorem xEvtTmrCtrl_held (h : bitsOf v 1 1 = 0 ∨ periodOk (d.regN (R.EVT_TMR_PERIOD.at q i)) = true) :
    xEvtTmrCtrl m q i v d = (d.setRegN (R.EVT_TMR_CTRL.at q i) (v % 4)).okay := by
  refine (if_neg (not_denied hm)).trans (if_neg ?_)
  rintro ⟨hone, hbad⟩
  simp only [hone, hbad, one_ne_zero, Bool.false_eq_true, or_self] at h

theorem xEvtTmrCtrl_refused (h : bitsOf v 1 1 = 1) (hbad : periodOk (d.regN (R.EVT_TMR_PERIOD.at q i)) = false) :
    xEvtTmrCtrl m q i v d = d.refuse m (R.EVT_TMR_CTRL.at q i) :=
  (if_neg (not_denied hm)).trans (if_pos ⟨h, hbad⟩)

theorem xEvtTmrPeriod_held (h : (d.reg (R.EVT_TMR_CTRL.at q i)).getLsbD 1 = false ∨ periodOk (v % 2 ^ 32) = true) :
    xEvtTmrPeriod m q i v d = (d.setRegN (R.EVT_TMR_PERIOD.at q i) (v % 2 ^ 32)).okay := by
  refine (if_neg (not_denied hm)).trans (if_neg ?_)
  rintro ⟨hper, hbad⟩
  simp only [hper, hbad, Bool.true_eq_false, Bool.false_eq_true, or_self] at h

theorem xEvtTmrPeriod_refused (h : (d.reg (R.EVT_TMR_CTRL.at q i)).getLsbD 1 = true) (hbad : periodOk (v % 2 ^ 32) = false) :
    xEvtTmrPeriod m q i v d = d.refuse m (R.EVT_TMR_PERIOD.at q i) :=
  (if_neg (not_denied hm)).trans (if_pos ⟨h, hbad⟩)

end

/-! ### Watermark thresholds (R347) -/

section
variable {m : Mst} {w : WmName} {q i j v : Nat} {d : Dev} (hm : m.oid = 0)
include hm

theorem thresholdWrite_hi (h : d.regN ((wmOf w i).1.lo.at q i j) < v % 2 ^ 32) :
    xWatermarkThresholdWrite m w q i j true v d =
      ((d.setRegN ((wmOf w i).1.hi.at q i j) (v % 2 ^ 32)).wmCheck (wmOf w i).1 q (wmOf w i).2 i j).1.okay :=
  (if_neg (not_denied hm)).trans (if_neg (Nat.not_le.2 h))

theorem thresholdWrite_lo (h : v % 2 ^ 32 < d.regN ((wmOf w i).1.hi.at q i j)) :
    xWatermarkThresholdWrite m w q i j false v d =
      ((d.setRegN ((wmOf w i).1.lo.at q i j) (v % 2 ^ 32)).wmCheck (wmOf w i).1 q (wmOf w i).2 i j).1.okay :=
  (if_neg (not_denied hm)).trans (if_neg (Nat.not_le.2 h))

theorem thresholdWrite_hi_dropped (h : v % 2 ^ 32 ≤ d.regN ((wmOf w i).1.lo.at q i j)) :
    xWatermarkThresholdWrite m w q i j true v d = d.refuse m ((wmOf w i).1.hi.at q i j) :=
  (if_neg (not_denied hm)).trans (if_pos h)

theorem thresholdWrite_lo_dropped (h : d.regN ((wmOf w i).1.hi.at q i j) ≤ v % 2 ^ 32) :
    xWatermarkThresholdWrite m w q i j false v d = d.refuse m ((wmOf w i).1.lo.at q i j) :=
  (if_neg (not_denied hm)).trans (if_pos h)

end

/-- Settles O11: a timer acts where it is due, by its mode; a write is held where it leaves PERIOD or the thresholds in order. -/
theorem timersThresholds : Obligations.TimersThresholds := by
  refine ⟨fun q i s => ?timer,
    fun m q i v s hm => ⟨fun h => next_congr (xEvtTmrCtrl_held hm h), fun h hbad => next_congr (xEvtTmrCtrl_refused hm h hbad)⟩,
    fun m q i v s hm => ⟨fun h => next_congr (xEvtTmrPeriod_held hm h), fun h hbad => next_congr (xEvtTmrPeriod_refused hm h hbad)⟩,
    fun m w q i j v s hm => ⟨fun h => next_congr (thresholdWrite_hi hm h), fun h => next_congr (thresholdWrite_lo hm h),
      fun h => next_congr (thresholdWrite_hi_dropped hm h), fun h => next_congr (thresholdWrite_lo_dropped hm h)⟩⟩
  intro on later d1
  refine ⟨fun hon hlater hat => ⟨fun hp => next_congr (xTimer_oneShot ⟨hon, hlater, hat⟩ hp),
    fun hp => next_congr (xTimer_periodic ⟨hon, hlater, hat⟩ hp)⟩, fun hnot => next_congr (xTimer_still ?_)⟩
  rintro ⟨hon, hlater, hat⟩
  rcases hnot with hoff | hfuture | hraised
  · exact Bool.false_ne_true (hoff.symm.trans hon)
  · exact Bool.false_ne_true (hlater.symm.trans hfuture)
  · exact hat hraised

end Sys2Proof.Proofs

namespace Sys2Proof.Proofs

open Sys2Proof.Machine Sys2Proof.Safety

/-! Mailboxes: binding, sends, receives and croaks (12 R349–R353). -/

section
variable {m : Mst} {q ch v : Nat} {d : Dev}

/-! ### The page of a channel -/

theorem mbxReg_channel (h : ch < 256) (chan host : R) : mbxReg q ch chan host = chan.at q ch := if_pos h

theorem mbxReg_host (h : 256 ≤ ch) (chan host : R) : mbxReg q ch chan host = host.at q (ch - 256) := if_neg (Nat.not_lt.2 h)

/-! ### Binding (R349) -/

section
variable (hm : m.oid = 0)
include hm

theorem mbxBind_free (h : d.mbxLocked q ch = false) (mask : Nat) :
    d.mbxBind m q ch v mask = (d.setRegN (mbxLock q ch) (2 ^ 63 + (v &&& mask))).okay :=
  (if_neg (not_denied hm)).trans (if_neg (Bool.eq_false_iff.1 h))

theorem mbxBind_bound (h : d.mbxLocked q ch = true) (mask : Nat) : d.mbxBind m q ch v mask = d.refuse m (mbxLock q ch) :=
  (if_neg (not_denied hm)).trans (if_pos h)

end

/-! ### What becomes of a send (EVT-7) -/

theorem mbxRefused_channel (h : ch < 256) (ur : Bool) : d.mbxRefused m q ch ur = d.slverr m (R.MBX_SLT.at q ch) := by
  rw [Dev.mbxRefused, if_pos h, mbxReg_channel h]

theorem mbxRefused_dropped (h : 256 ≤ ch) : d.mbxRefused m q ch false = d.okay :=
  (if_neg (Nat.not_lt.2 h)).trans (if_neg Bool.false_ne_true)

theorem mbxRefused_unsupported (h : 256 ≤ ch) :
    d.mbxRefused m q ch true = (d.fnError (m.mid - 0x500) m.oid 20).answer .decerr 0 :=
  (if_neg (Nat.not_lt.2 h)).trans (if_pos rfl)

/-- A send on a channel, or by a function that is not in D3hot. -/
def Sends (d : Dev) (m : Mst) (ch : Nat) : Prop := ch < 256 ∨ (nget Fn.zero d.fns m.oid).d3 = false

section
variable {full : Bool} {put : Dev → Dev} (hs : Sends d m ch)
include hs

/-- A send is decided by the receiver's state, and by its room where the receiver is up. -/
theorem mbxSend_eq : d.mbxSend m q ch full put = match d.recvState (d.mbxRecv q ch) with
    | .off => (d.mbxResult q ch 3).mbxRefused m q ch true
    | .inReset => (d.mbxResult q ch 2).mbxRefused m q ch false
    | .asleep => if full then (d.mbxResult q ch 1).mbxRefused m q ch false else ((put d).mbxQueued q ch true).okay
    | .awake => if full then (d.mbxResult q ch 1).mbxRefused m q ch false else ((put d).mbxQueued q ch false).okay := by
  refine if_neg ?_
  rintro ⟨hch, hd3⟩
  exact hs.elim (Nat.not_lt.2 hch) fun h => Bool.false_ne_true (h.symm.trans hd3)

theorem mbxSend_awake (hst : d.recvState (d.mbxRecv q ch) = .awake) (hf : full = false) :
    d.mbxSend m q ch full put = ((put d).mbxQueued q ch false).okay := by
  rw [mbxSend_eq hs, hst]
  exact if_neg (Bool.eq_false_iff.1 hf)

theorem mbxSend_asleep (hst : d.recvState (d.mbxRecv q ch) = .asleep) (hf : full = false) :
    d.mbxSend m q ch full put = ((put d).mbxQueued q ch true).okay := by
  rw [mbxSend_eq hs, hst]
  exact if_neg (Bool.eq_false_iff.1 hf)

theorem mbxSend_full (hst : d.recvState (d.mbxRecv q ch) = .awake ∨ d.recvState (d.mbxRecv q ch) = .asleep) (hf : full = true) :
    d.mbxSend m q ch full put = (d.mbxResult q ch 1).mbxRefused m q ch false := by
  rw [mbxSend_eq hs]
  rcases hst with hst | hst <;> rw [hst] <;> exact if_pos hf

theorem mbxSend_inReset (hst : d.recvState (d.mbxRecv q ch) = .inReset) :
    d.mbxSend m q ch full put = (d.mbxResult q ch 2).mbxRefused m q ch false := by
  rw [mbxSend_eq hs, hst]

theorem mbxSend_off (hst : d.recvState (d.mbxRecv q ch) = .off) :
    d.mbxSend m q ch full put = (d.mbxResult q ch 3).mbxRefused m q ch true := by
  rw [mbxSend_eq hs, hst]

end

/-! ### MBX_SPTR, MBX_SLT and MBX_WORD are written (R350, R352) -/

/-- The notice that a write of `v` commits, with the pointer that register `sptr` holds. -/
def noticeOf (d : Dev) (sptr : RKey) (v : Nat) : Notice := ⟨d.regN sptr, v % 2 ^ 32, v / 2 ^ 32 % 2 ^ 32⟩

section
variable (hm : m.oid = 0 ∨ 256 ≤ ch)
include hm

/-- A channel's send registers are the owner's; a host mailbox's are its function's (R350, R351). -/
theorem send_not_denied : ¬ (ch < 256 ∧ m.owner = false) := by
  rintro ⟨hch, ho⟩
  exact hm.elim (fun h => Bool.false_ne_true (ho.symm.trans (owner_of_oid h))) (Nat.not_le.2 hch)

section
variable (hc : d.mbxCompat q ch = true)
include hc

theorem xMbxSptr_mode : xMbxSptr m q ch v d = d.refuse m (mbxReg q ch .MBX_SPTR .HMBX_SPTR) :=
  (if_neg (send_not_denied hm)).trans (if_pos hc)

theorem xMbxSlt_mode : xMbxSlt m q ch v d = d.refuse m (mbxReg q ch .MBX_SLT .HMBX_SLT) :=
  (if_neg (send_not_denied hm)).trans (if_pos hc)

/-- The bound sender of a compatibility channel sends a word. -/
theorem xMbxWord_sends (hs : d.mbxSender m q ch = true) : xMbxWord m q ch v d =
    d.mbxSend m q ch (d.mbxFull q ch)
      (fun y => (y.setRegN (mbxReg q ch .MBX_WORD .HMBX_WORD) (v % 2 ^ 32)).setBit (mbxStat q ch) 8 true) := by
  have hmode : ¬ (d.mbxLocked q ch = true ∧ d.mbxCompat q ch = false) := fun ⟨_, h⟩ => Bool.false_ne_true (h.symm.trans hc)
  exact (if_neg (send_not_denied hm)).trans ((if_neg hmode).trans (if_neg (by simp [hs])))

end

section
variable (hc : d.mbxCompat q ch = false)
include hc

section
variable (hs : d.mbxSender m q ch = false)
include hs

theorem xMbxSptr_source : xMbxSptr m q ch v d = d.refuseSource m (mbxReg q ch .MBX_SPTR .HMBX_SPTR) :=
  (if_neg (send_not_denied hm)).trans ((if_neg (Bool.eq_false_iff.1 hc)).trans (if_pos (congrArg not hs)))

theorem xMbxSlt_source : xMbxSlt m q ch v d = d.refuseSource m (mbxReg q ch .MBX_SLT .HMBX_SLT) :=
  (if_neg (send_not_denied hm)).trans ((if_neg (Bool.eq_false_iff.1 hc)).trans (if_pos (congrArg not hs)))

end

variable (hs : d.mbxSender m q ch = true)
include hs

theorem xMbxSptr_held : xMbxSptr m q ch v d = (d.setRegN (mbxReg q ch .MBX_SPTR .HMBX_SPTR) (v % 2 ^ 64)).okay :=
  (if_neg (send_not_denied hm)).trans ((if_neg (Bool.eq_false_iff.1 hc)).trans (if_neg (by simp [hs])))

/-- The bound sender of a native channel commits a notice. -/
theorem xMbxSlt_sends : xMbxSlt m q ch v d =
    d.mbxSend m q ch (decide ((if ch < 256 then 8 else 4) ≤ (d.notices q ch).length))
      (fun x => x.setNotices q ch (d.notices q ch ++ [noticeOf d (mbxReg q ch .MBX_SPTR .HMBX_SPTR) v])) :=
  (if_neg (send_not_denied hm)).trans ((if_neg (Bool.eq_false_iff.1 hc)).trans (if_neg (by simp [hs])))

end

end

/-- A channel holds 8 notices (R350). -/
theorem xMbxSlt_channel (hch : ch < 256) (hm : m.oid = 0) (hc : d.mbxCompat q ch = false) (hs : d.mbxSender m q ch = true) :
    xMbxSlt m q ch v d = d.mbxSend m q ch (decide (8 ≤ (d.notices q ch).length))
      (fun x => x.setNotices q ch (d.notices q ch ++ [noticeOf d (R.MBX_SPTR.at q ch) v])) := by
  rw [xMbxSlt_sends (.inl hm) hc hs, if_pos hch, mbxReg_channel hch]

/-- A host mailbox holds 4 notices (R351). -/
theorem xMbxSlt_host (hch : 256 ≤ ch) (hc : d.mbxCompat q ch = false) (hs : d.mbxSender m q ch = true) :
    xMbxSlt m q ch v d = d.mbxSend m q ch (decide (4 ≤ (d.notices q ch).length))
      (fun x => x.setNotices q ch (d.notices q ch ++ [noticeOf d (R.HMBX_SPTR.at q (ch - 256)) v])) := by
  rw [xMbxSlt_sends (.inr hch) hc hs, if_neg (Nat.not_lt.2 hch), mbxReg_host hch]

/-! ### MBX_RLT and MBX_WORD are read (R350) -/

section
variable (hm : m.oid = 0)
include hm

theorem xMbxRlt_mode (hc : d.mbxCompat q ch = true) :
    xMbxRlt m q ch d = d.refuseRead m (mbxReg q ch .MBX_RLT .HMBX_RLT) .refused :=
  (if_neg (not_denied hm)).trans (if_pos hc)

theorem xMbxRlt_source (hc : d.mbxCompat q ch = false) (h : d.mbxLocked q ch = false ∨ m.mid ≠ d.mbxRecv q ch) :
    xMbxRlt m q ch d = d.refuseRead m (mbxReg q ch .MBX_RLT .HMBX_RLT) .source :=
  (if_neg (not_denied hm)).trans ((if_neg (Bool.eq_false_iff.1 hc)).trans (if_pos h))

theorem xMbxWordRead_mode (hl : d.mbxLocked q ch = true) (hc : d.mbxCompat q ch = false) :
    xMbxWordRead m q ch d = d.refuseRead m (mbxReg q ch .MBX_WORD .HMBX_WORD) .refused :=
  (if_neg (not_denied hm)).trans (if_pos ⟨hl, hc⟩)

theorem xMbxWordRead_source (hc : d.mbxCompat q ch = true) (h : m.mid ≠ d.mbxRecv q ch) :
    xMbxWordRead m q ch d = d.refuseRead m (mbxReg q ch .MBX_WORD .HMBX_WORD) .source :=
  (if_neg (not_denied hm)).trans ((if_neg (by simp [hc])).trans (if_pos (.inr h)))

section
variable (hl : d.mbxLocked q ch = true) (hr : m.mid = d.mbxRecv q ch)
include hl hr

theorem xMbxRlt_receives (hc : d.mbxCompat q ch = false) : xMbxRlt m q ch d =
    (d.setNotices q ch ((d.notices q ch).drop 1)).answer .okay (d.reg (mbxReg q ch .MBX_RLT .HMBX_RLT)) :=
  (if_neg (not_denied hm)).trans ((if_neg (Bool.eq_false_iff.1 hc)).trans (if_neg (by simp [hl, hr])))

theorem xMbxWordRead_receives (hc : d.mbxCompat q ch = true) : xMbxWordRead m q ch d =
    (d.setBit (mbxStat q ch) 8 false).answer .okay (if d.mbxFull q ch then d.reg (mbxReg q ch .MBX_WORD .HMBX_WORD) else 0) :=
  (if_neg (not_denied hm)).trans ((if_neg (by simp [hc])).trans (if_neg (by simp [hl, hr])))

end

end

/-! ### CROAK_DELIVERY (R353) -/

section
variable {rq : Nat} (hw : nget false d.croaks (q * 1024 + ch) = true) (hr : d.recvQuarter (d.mbxRecv q ch) = some rq)
include hw hr

theorem xCroakDelivery_on (h : d.domCur rq 16 = 0) : xCroakDelivery q ch d =
    ({ d with croaks := nset false d.croaks (q * 1024 + ch) false } : Dev).mbxRaise q ch := by
  simp only [xCroakDelivery, hw, hr, h, decide_true, Bool.and_self, if_true]

theorem xCroakDelivery_waits (h : d.domCur rq 16 ≠ 0) : xCroakDelivery q ch d = d := by
  simp only [xCroakDelivery, hw, hr, h, decide_false, Bool.and_false, Bool.false_eq_true, if_false]

end

end

/-- Settles O12: a send is decided by its channel's mode and sender, then by its receiver's state and room; a receive by the
channel's mode and receiver. -/
theorem mailboxes : Obligations.Mailboxes := by
  refine ⟨fun m q ch v s hm hch => ?lock, fun m q i v s hm => ?hlock,
    fun m q ch v s hm => ⟨fun hc hs => next_congr (xMbxSptr_held hm hc hs),
      fun hc => ⟨next_congr (xMbxSptr_mode hm hc), next_congr (xMbxSlt_mode hm hc)⟩,
      fun hc hs => ⟨next_congr (xMbxSptr_source hm hc hs), next_congr (xMbxSlt_source hm hc hs)⟩⟩,
    fun m q ch v s hch hm hc hs => ?notice, fun m q ch v s hch hc hs hd3 => ?hostNotice,
    fun m q ch s hm => ⟨fun hc hl hr => next_congr (xMbxRlt_receives hm hl hr hc), fun hc => next_congr (xMbxRlt_mode hm hc),
      fun hc h => next_congr (xMbxRlt_source hm hc h)⟩,
    fun m q ch v s hch hm hc hs hst => ?word, fun m q ch v s hch hc hs hd3 hst hfull => ?hostWord,
    fun m q ch s hm => ⟨fun hc hl hr => next_congr (xMbxWordRead_receives hm hl hr hc),
      fun hc hl => next_congr (xMbxWordRead_mode hm hl hc), fun hc h => next_congr (xMbxWordRead_source hm hc h)⟩,
    fun q ch rq s hw hr => ⟨fun h => next_congr (xCroakDelivery_on hw hr h), fun h => next_congr (xCroakDelivery_waits hw hr h)⟩⟩
  case lock =>
    have hx : mbxLock q ch = R.MBX_LOCK.at q ch := mbxReg_channel hch _ _
    exact ⟨fun h => next_congr (hx ▸ mbxBind_free hm h _), fun h => next_congr (mbxBind_bound hm h _)⟩
  case hlock =>
    have hx : mbxLock q (256 + i) = R.MBX_HLOCK.at q i := by
      rw [mbxLock, mbxReg_host (Nat.le_add_right 256 i), Nat.add_sub_cancel_left]
    exact ⟨fun h => next_congr (hx ▸ mbxBind_free hm h _), fun h => next_congr (mbxBind_bound hm h _)⟩
  case notice =>
    intro n st d1 no
    have hslt := xMbxSlt_channel (v := v) hch hm hc hs
    have hno {r : Nat} {ur : Bool} : (s.d.mbxResult q ch r).mbxRefused m q ch ur = no r := mbxRefused_channel hch ur
    exact ⟨fun hst hl => next_congr (hslt.trans (mbxSend_awake (.inl hch) hst (decide_eq_false (Nat.not_le.2 hl)))),
      fun hst hl => next_congr (hslt.trans (mbxSend_asleep (.inl hch) hst (decide_eq_false (Nat.not_le.2 hl)))),
      fun hst hl => next_congr (hslt.trans ((mbxSend_full (.inl hch) hst (decide_eq_true hl)).trans hno)),
      fun hst => next_congr (hslt.trans ((mbxSend_inReset (.inl hch) hst).trans hno)),
      fun hst => next_congr (hslt.trans ((mbxSend_off (.inl hch) hst).trans hno))⟩
  case hostNotice =>
    intro n st
    have hslt := xMbxSlt_host (v := v) hch hc hs
    exact ⟨fun hst hl => next_congr (hslt.trans (mbxSend_awake (.inr hd3) hst (decide_eq_false (Nat.not_le.2 hl)))),
      fun hst hl => next_congr (hslt.trans ((mbxSend_full (.inr hd3) hst (decide_eq_true hl)).trans (mbxRefused_dropped hch))),
      fun hst => next_congr (hslt.trans ((mbxSend_off (.inr hd3) hst).trans (mbxRefused_unsupported hch)))⟩
  case word =>
    intro d1
    have hword := xMbxWord_sends (v := v) (.inl hm) hc hs
    rw [mbxReg_channel hch] at hword
    exact ⟨fun hf => next_congr (hword.trans (mbxSend_awake (.inl hch) hst hf)),
      fun hf => next_congr (hword.trans ((mbxSend_full (.inl hch) (.inl hst) hf).trans (mbxRefused_channel hch false)))⟩
  case hostWord =>
    have hword := xMbxWord_sends (v := v) (.inr hch) hc hs
    rw [mbxReg_host hch] at hword
    exact next_congr (hword.trans (mbxSend_awake (.inr hd3) hst hfull))

end Sys2Proof.Proofs


namespace Sys2Proof.Proofs

open Sys2Proof.Machine Sys2Proof.Safety

/-! Host links: HIF_LCTRL, training and widths (13 R359, R367, R370–R373, R378). -/

section
variable {m : Mst} {L v w : Nat} {k : Clk} {d : Dev}

/-! ### HIF_LCTRL is written (R367) -/

/-- CFGERR of a link shows what its check found. -/
def linkChecked (d : Dev) (L : Nat) : Dev :=
  d.setReg (linkReg L .HIF_LSTAT) (putBits (d.reg (linkReg L .HIF_LSTAT)) 27 24 (d.linkCheck L))

section
variable (hm : m.oid = 0)
include hm

section
variable (hv : v % 2 = 1)
include hv

theorem xHifLctrl_stays (hen : d.linkEn L = true) : xHifLctrl m L v k d = d.okay :=
  (if_neg (not_denied hm)).trans ((if_pos hv).trans (if_pos hen))

variable (hen : d.linkEn L = false)
include hen

theorem xHifLctrl_enables (he : d.linkCheck L = 0) : xHifLctrl m L v k d =
    ((((linkChecked d L).setBit (linkReg L .HIF_LCTRL) 0 true).setLink L 1).assignAdmin L).okay := by
  rw [linkChecked, he]
  exact (if_neg (not_denied hm)).trans
    ((if_pos hv).trans ((if_neg (ne_true_of_eq_false hen)).trans (if_neg (not_not.2 he))))

theorem xHifLctrl_fails (he : d.linkCheck L ≠ 0) :
    xHifLctrl m L v k d = (linkChecked d L).refuse m (linkReg L .HIF_LCTRL) :=
  (if_neg (not_denied hm)).trans ((if_pos hv).trans ((if_neg (ne_true_of_eq_false hen)).trans (if_pos he)))

end

section
variable (hv : v % 2 = 0)
include hv

theorem xHifLctrl_stays_off (hen : d.linkEn L = false) : xHifLctrl m L v k d = d.okay :=
  (if_neg (not_denied hm)).trans ((if_neg (by omega)).trans (if_pos (congrArg not hen)))

/-- A link that is UP goes down as one lost, any other enters DISABLED at once; its admin pair and EN go with it. -/
theorem xHifLctrl_disables (hen : d.linkEn L = true) {d1 : Dev}
    (h : (if getBits (d.reg (linkReg L .HIF_LSTAT)) 31 28 = 3 then d.linkDown k.tick L 0 else d.setLink L 0) = d1) :
    xHifLctrl m L v k d = ((d1.dropAdmin L).setBit (linkReg L .HIF_LCTRL) 0 false).okay := by
  subst h
  exact (if_neg (not_denied hm)).trans ((if_neg (by omega)).trans (if_neg (by simp [hen])))

end

end

/-! ### Training (R370–R373) -/

theorem xReceiverDetected_trains (h : d.mayTrain L = true ∧ (d.linkState L = 1 ∨ d.linkState L = 4)) :
    xReceiverDetected L d = d.setLink L 2 := if_pos h

theorem xReceiverDetected_still (h : ¬ (d.mayTrain L = true ∧ (d.linkState L = 1 ∨ d.linkState L = 4))) :
    xReceiverDetected L d = d := if_neg h

theorem xAbsent_detecting (h : d.mayTrain L = true ∧ d.linkState L = 1) :
    xAbsent L k d = ((d.setLink L 4).linkRaise L).linkLog k.tick L 4 := if_pos h

theorem xAbsent_still (h : ¬ (d.mayTrain L = true ∧ d.linkState L = 1)) : xAbsent L k d = d := if_neg h

theorem xTrainFail_training (h : d.mayTrain L = true ∧ d.linkState L = 2) :
    xTrainFail L k d = ((d.setLink L 5).linkRaise L).linkLog k.tick L 5 := if_pos h

theorem xTrainFail_still (h : ¬ (d.mayTrain L = true ∧ d.linkState L = 2)) : xTrainFail L k d = d := if_neg h

section
variable {speed width : Nat} {flit : Bool}

/-- A rate and a width at which a link that trains may come up (R359, HOST-2). -/
def Agreed (d : Dev) (L speed width : Nat) (flit : Bool) : Prop :=
  d.mayTrain L = true ∧ (d.linkState L = 2 ∨ d.linkState L = 5) ∧ width ∈ [1, 2, 4, 8, 16] ∧ width ≤ d.linkWidth L ∧ 0 < speed ∧
    speed ≤ 7 ∧ speed ≤ d.fld F.HIF_LCFG_MAXSPEED (L / 8) (L % 8) ∧ (speed < 6 ∨ flit = true)

/-- A link in UP, with the temperature of its training held (R370). -/
def cameUp (d : Dev) (L : Nat) : Dev :=
  let d1 := d.setLink L 3
  d1.setFld F.CAL_HLINK_TTEMP (d1.fld F.PWR_TQ_TQ (L / 8)) (L / 8) (L % 8)

/-- HIF_LSTAT with the rate, the width and the flit mode of a link that has come up. -/
def upStat (d : Dev) (L speed width : Nat) (flit : Bool) : Word :=
  putBits (putBits (putBits (putBits (d.reg (linkReg L .HIF_LSTAT)) 23 20 speed) 19 15 width) 14 14 (b2n flit)) 13 9 width

/-- The checks of LINK_UP, which are tests, hold where rate and width are agreed. -/
theorem agreed_iff : Agreed d L speed width flit ↔ d.mayTrain L = true ∧ (d.linkState L = 2 ∨ d.linkState L = 5) ∧
    ([1, 2, 4, 8, 16].contains width && decide (width ≤ d.linkWidth L)) = true ∧
    (decide (0 < speed ∧ speed ≤ 7 ∧ speed ≤ d.fld F.HIF_LCFG_MAXSPEED (L / 8) (L % 8)) && (decide (speed < 6) || flit)) = true := by
  simp only [Agreed, List.contains_iff_mem, Bool.and_eq_true, Bool.or_eq_true, decide_eq_true_eq, and_assoc]

theorem xLinkUp_agreed (h : Agreed d L speed width flit) : xLinkUp L speed width flit d =
    ((cameUp d L).setReg (linkReg L .HIF_LSTAT) (upStat (cameUp d L) L speed width flit)).linkRaise L :=
  if_pos (agreed_iff.1 h)

theorem xLinkUp_still (h : ¬ Agreed d L speed width flit) : xLinkUp L speed width flit d = d :=
  if_neg (mt agreed_iff.2 h)

end

/-! ### Widths (R378) -/

/-- A width that the partner of a link in flit mode may change to. -/
def WidthFits (d : Dev) (L w : Nat) : Prop :=
  d.linkState L = 3 ∧ (d.reg (linkReg L .HIF_LSTAT)).getLsbD 14 = true ∧ w ∈ [1, 2, 4, 8, 16] ∧
    w ≤ getBits (d.reg (linkReg L .HIF_LSTAT)) 19 15

theorem widthFits_iff : WidthFits d L w ↔ d.linkState L = 3 ∧ (d.reg (linkReg L .HIF_LSTAT)).getLsbD 14 = true ∧
    [1, 2, 4, 8, 16].contains w = true ∧ w ≤ getBits (d.reg (linkReg L .HIF_LSTAT)) 19 15 := by
  simp only [WidthFits, List.contains_iff_mem]

theorem xL0pWidthChange_fits (h : WidthFits d L w) : xL0pWidthChange L w d =
    d.setReg (linkReg L .HIF_LSTAT) (putBits (d.reg (linkReg L .HIF_LSTAT)) 13 9 w) :=
  if_pos (widthFits_iff.1 h)

theorem xL0pWidthChange_still (h : ¬ WidthFits d L w) : xL0pWidthChange L w d = d :=
  if_neg (mt widthFits_iff.2 h)

end

/-- Settles O27: a write of EN is decided by EN as it stands, the check and the link's state; each row of training has one
lemma for each outcome. -/
theorem hostLinks : Obligations.HostLinks := by
  refine ⟨fun m L v s hm => ?enable, fun L s => ?train,
    fun L speed width flit s => ⟨fun h => next_congr (xLinkUp_agreed h), fun h => next_congr (xLinkUp_still h)⟩,
    fun L w s => ⟨fun h => next_congr (xL0pWidthChange_fits h), fun h => next_congr (xL0pWidthChange_still h)⟩⟩
  case enable =>
    exact ⟨fun hv hen he => next_congr (xHifLctrl_enables hm hv hen he), fun hv hen he => next_congr (xHifLctrl_fails hm hv hen he),
      fun hv hen => next_congr (xHifLctrl_stays hm hv hen), fun hv hen => next_congr (xHifLctrl_stays_off hm hv hen),
      fun hv hen hup => next_congr (xHifLctrl_disables hm hv hen (if_pos hup)),
      fun hv hen hup => next_congr (xHifLctrl_disables hm hv hen (if_neg hup))⟩
  case train =>
    exact ⟨fun hmay hst => next_congr (xReceiverDetected_trains ⟨hmay, hst⟩), fun h => next_congr (xReceiverDetected_still h),
      fun hmay hst => next_congr (xAbsent_detecting ⟨hmay, hst⟩), fun h => next_congr (xAbsent_still h),
      fun hmay hst => next_congr (xTrainFail_training ⟨hmay, hst⟩), fun h => next_congr (xTrainFail_still h)⟩

end Sys2Proof.Proofs

namespace Sys2Proof.Proofs

open Sys2Proof.Machine Sys2Proof.Safety

/-! Losses of host links, and resets from the host (13 R363, R373–R375, R379). -/

section
variable {L oid p n : Nat} {vps : List Nat} {k : Clk} {d : Dev}

/-! ### A link is lost, or hot-reset (R363, R373, R374) -/

/-- The jobs of the engines `vps` that move host memory over a link end HOST_TO. -/
def hostJobsEnd (d : Dev) (now L : Nat) (vps : List Nat) : Dev :=
  (vps.filter (fun v => d.hostJobOn L v)).foldl (fun x v => x.jobError now v 4 0) d

theorem xLinkLoss_up (h : d.linkState L = 3) : xLinkLoss L vps k d = (hostJobsEnd d k.tick L vps).linkDown k.tick L 1 :=
  if_neg (not_not.2 h)

theorem xLinkLoss_still (h : d.linkState L ≠ 3) : xLinkLoss L vps k d = d := if_pos h

theorem xHotReset_up (h : d.linkState L = 3) : xHotReset L k d = d.linkDown k.tick L 1 := if_pos h

theorem xHotReset_still (h : d.linkState L ≠ 3) : xHotReset L k d = d := if_neg h

/-! ### HOST_PERST_N (R374, R379) -/

theorem xHostPerstNAssert_asserts (h : nget false d.perst p = true) : xHostPerstNAssert p k d =
    (upTo 4).foldl (fun x j => x.perstLink k.tick (4 * p + j)) { d with perst := nset false d.perst p false } := if_pos h

theorem xHostPerstNAssert_still (h : nget false d.perst p = false) : xHostPerstNAssert p k d = d :=
  if_neg (ne_true_of_eq_false h)

theorem xHostPerstNRelease_port (h : p < 8) : xHostPerstNRelease p d = { d with perst := nset false d.perst p true } := if_pos h

theorem xHostPerstNRelease_none (h : 8 ≤ p) : xHostPerstNRelease p d = d := if_neg (Nat.not_lt.2 h)

/-! ### Function-level resets (R374, R375) -/

/-- A PF that takes a change that the host orders by a configuration request. -/
def PfTakes (d : Dev) (L : Nat) : Prop := L < 32 ∧ d.linkState L = 3 ∧ d.cfgTaken L = true

theorem xFlrPf_taken (h : PfTakes d L) : xFlrPf L k d = d.resetFns k.tick L (d.liveFns L) := if_pos h

theorem xFlrPf_still (h : ¬ PfTakes d L) : xFlrPf L k d = d := if_neg h

/-- A VF of link `L` that takes a reset of its own: no reset of its PF runs. -/
def VfTakes (d : Dev) (L oid : Nat) : Prop :=
  32 ≤ oid ∧ d.linkState L = 3 ∧ oid ∈ d.liveFns L ∧ (d.fn L).reset = false ∧ d.cfgTaken oid = true

theorem xFlrVf_unlinked (hL : d.linkOf oid = none) : xFlrVf oid k d = d := by
  simp only [xFlrVf, hL]

section
variable (hL : d.linkOf oid = some L)
include hL

theorem xFlrVf_taken (h : VfTakes d L oid) : xFlrVf oid k d = d.resetFns k.tick L [oid] := by
  rw [VfTakes] at h
  simp only [xFlrVf, hL, List.contains_iff_mem, if_pos h]

theorem xFlrVf_still (h : ¬ VfTakes d L oid) : xFlrVf oid k d = d := by
  rw [VfTakes] at h
  simp only [xFlrVf, hL, List.contains_iff_mem, if_neg h]

end

/-- A PF whose VFs a configuration request cuts to `n`. -/
def VfsCut (d : Dev) (L n : Nat) : Prop :=
  L < 32 ∧ d.linkState L = 3 ∧ (d.fn L).vfEn = true ∧ n ≤ (d.fn L).numVfs ∧ d.cfgTaken L = true

theorem xVfEnableCleared_cut (h : VfsCut d L n) : xVfEnableCleared L n k d = d.setVfs k.tick L (decide (0 < n)) n := if_pos h

theorem xVfEnableCleared_still (h : ¬ VfsCut d L n) : xVfEnableCleared L n k d = d := if_neg h

theorem xFunctionResetComplete_ends (h : (d.fn oid).reset = true) :
    xFunctionResetComplete oid d = d.setFn oid { d.fn oid with reset := false } := if_pos h

theorem xFunctionResetComplete_still (h : (d.fn oid).reset = false) : xFunctionResetComplete oid d = d :=
  if_neg (ne_true_of_eq_false h)

end

/-- Settles O28: each row has one lemma for each outcome; the reset of a VF is decided by its link first. -/
theorem hostResets : Obligations.HostResets :=
  ⟨fun _ _ _ => ⟨fun h => ⟨next_congr (xLinkLoss_up h), next_congr (xHotReset_up h)⟩,
      fun h => ⟨next_congr (xLinkLoss_still h), next_congr (xHotReset_still h)⟩⟩,
    fun _ _ => ⟨fun h => next_congr (xHostPerstNAssert_asserts h), fun h => next_congr (xHostPerstNAssert_still h),
      fun h => next_congr (xHostPerstNRelease_port h), fun h => next_congr (xHostPerstNRelease_none h)⟩,
    fun _ _ => ⟨fun h => next_congr (xFlrPf_taken h), fun h => next_congr (xFlrPf_still h)⟩,
    fun _ _ => ⟨fun _ hL => ⟨fun h => next_congr (xFlrVf_taken hL h), fun h => next_congr (xFlrVf_still hL h)⟩,
      fun hL => next_congr (xFlrVf_unlinked hL)⟩,
    fun _ _ _ => ⟨fun h => next_congr (xVfEnableCleared_cut h), fun h => next_congr (xVfEnableCleared_still h)⟩,
    fun _ _ => ⟨fun h => next_congr (xFunctionResetComplete_ends h), fun h => next_congr (xFunctionResetComplete_still h)⟩⟩

end Sys2Proof.Proofs

namespace Sys2Proof.Proofs

open Sys2Proof.Machine Sys2Proof.Safety

/-! Functions: power states, configuration requests and completions (13 R361–R363, R365, R368, R371, R374–R377). -/

section
variable {L oid : Nat} {op : CfgOp} {k : Clk} {d : Dev}

/-! ### Power states (R377) -/

/-- A function that the host reaches takes a configuration request. -/
def FnTakes (d : Dev) (oid : Nat) : Prop := d.fnReached oid = true ∧ d.cfgTaken oid = true

theorem xD3hotEntry_taken (h : FnTakes d oid) : xD3hotEntry oid d = d.setFn oid { d.fn oid with d3 := true } := if_pos h

theorem xD3hotEntry_still (h : ¬ FnTakes d oid) : xD3hotEntry oid d = d := if_neg h

theorem xD0Return_taken (h : FnTakes d oid) : xD0Return oid d = d.setFn oid { d.fn oid with d3 := false } := if_pos h

theorem xD0Return_still (h : ¬ FnTakes d oid) : xD0Return oid d = d := if_neg h

/-! ### Configuration requests (R371) -/

/-- What a request writes in a function that takes it; a read, and a write of a dword that no rule names, write nothing. -/
def cfgWritten (d : Dev) (k : Clk) (oid : Nat) : CfgOp → Dev
  | .command b e => d.setFn oid { d.fn oid with bme := b, mse := e }
  | .msix b e => (d.setFn oid { d.fn oid with msixEn := b, msixMask := e }).msixUnmask oid
  | .sriov b n => if oid < 32 then d.setVfs k.tick oid b n else d
  | .devctl a b => d.setFn oid { d.fn oid with mps := a, mrrs := b }
  | .devctl2 a => d.setFn oid { d.fn oid with cto := a }
  | .aer a => d.setFn oid { d.fn oid with unc := (d.fn oid).unc &&& (2 ^ 32 - 1 - a % 2 ^ 32) }
  | .bar n v => if oid < 32 then d.setFn oid ((d.fn oid).setBar n v) else d
  | .other .. | .read _ | .cap .. => d

/-- A read is answered with a dword: the bits that the spec fixes, and free ones. -/
def cfgRead (d : Dev) (oid : Nat) (p : Nat × Nat) : Dev := (d.cfgValue p).2.send (.cfg oid false (d.cfgValue p).1)

/-- A capability that a function does not have: one that HOST-2 leaves out, or SR-IOV of a VF. -/
def CapAbsent (oid : Nat) (x : Bool) (id : Nat) : Prop := capLeftOut x id = true ∨ (x = true ∧ id = 0x10 ∧ 32 ≤ oid)

theorem xConfigurationRequest_unreached (h : d.linkOf oid = none ∨ d.fnReached oid = false) :
    xConfigurationRequest oid op k d = d := by
  cases hL : d.linkOf oid with
  | none => simp only [xConfigurationRequest, hL]
  | some L =>
    have hr : d.fnReached oid = false := h.resolve_left (by simp [hL])
    simp only [xConfigurationRequest, hL, hr, Bool.not_false, if_true]

section
variable (hL : d.linkOf oid = some L) (hr : d.fnReached oid = true)
include hL hr

theorem xConfigurationRequest_retry (ht : d.cfgTaken oid = false) :
    xConfigurationRequest oid op k d = d.send (.cfg oid true 0) := by
  simp only [xConfigurationRequest, hL, hr, ht, Bool.not_true, Bool.not_false, Bool.false_eq_true, if_false, if_true]

variable (ht : d.cfgTaken oid = true)
include ht

theorem xConfigurationRequest_write (hw : ∀ n, op ≠ .read n) (hc : ∀ x id n, op ≠ .cap x id n) :
    xConfigurationRequest oid op k d = (cfgWritten d k oid op).send (.cfg oid false 0) := by
  simp only [xConfigurationRequest, hL, hr, ht, Bool.not_true, Bool.false_eq_true, if_false]
  cases op with
  | read n => exact absurd rfl (hw n)
  | cap x id n => exact absurd rfl (hc x id n)
  | command | msix | sriov | devctl | devctl2 | aer | bar | other => rfl

theorem xConfigurationRequest_read (n : Nat) :
    xConfigurationRequest oid (.read n) k d = cfgRead d oid (d.headWord L oid n) := by
  simp only [xConfigurationRequest, hL, hr, ht, Bool.not_true, Bool.false_eq_true, if_false, cfgRead]

variable {x : Bool} {id : Nat} (n : Nat)

theorem xConfigurationRequest_absent (h : CapAbsent oid x id) :
    xConfigurationRequest oid (.cap x id n) k d = d.send (.cfgAbsent oid id) := by
  rw [CapAbsent] at h
  simp only [xConfigurationRequest, hL, hr, ht, Bool.not_true, Bool.false_eq_true, if_false, if_pos h]

theorem xConfigurationRequest_cap (h : ¬ CapAbsent oid x id) :
    xConfigurationRequest oid (.cap x id n) k d = cfgRead d oid (d.capWord L oid x id n) := by
  rw [CapAbsent] at h
  simp only [xConfigurationRequest, hL, hr, ht, Bool.not_true, Bool.false_eq_true, if_false, if_neg h, cfgRead]

end

end

/-! ### Completions (R362, R363) -/

section
variable {vp : Nat} {r : SenRun} {ans : HostAns} {e : HbmErr} {col : Option Word} {wired : Bool} {k : Clk} {d : Dev}

/-- A read of host memory that is on the wire or that its function may issue. -/
def hostSent (d : Dev) (oid : Nat) (wired : Bool) : Bool := wired || d.fnIssues oid

/-- The request for the element at `a` is sent where it is not on the wire yet, and the answer's error is recorded. -/
def hostHeard (d : Dev) (oid a : Nat) (wired : Bool) (ans : HostAns) : Dev :=
  (if !wired && d.fnIssues oid then d.send (.hostRead oid a 8) else d).hostErr oid ans (hostSent d oid wired)

/-- Every element of a host job, whether or not its request is on the wire. -/
theorem fetchEl_host_wired (hk : getBits (d.jattr vp r.j) 26 24 = 1) :
    let oid := bitsOf (d.jattr vp r.j).toNat 21 11
    let a := segAddr r.segs r.moved
    d.fetchEl vp r.j r ans e col wired k
      = (hostCode (hostSent d oid wired) ans, answerWord ans, hostHeard d oid a wired ans, a) := by
  have hkind : bitsOf (d.jattr vp r.j).toNat 26 24 = 1 := hk
  simp only [Dev.fetchEl, hkind, hostHeard, hostSent]
  cases ans <;> rfl

/-- An input job has bytes left to move, and its port is bound and has room. -/
def InputDue (d : Dev) (vp : Nat) (r : SenRun) : Prop :=
  r.moved < d.regN (senReg vp .JLEN r.j) ∧ d.vpBound vp = true ∧ d.vpLevel vp < 512

/-- No read of host memory runs: neither row does anything. -/
theorem xHostCompletion_none (h : d.hostRead vp = false) : xHostCompletion vp ans k d = d :=
  if_neg (ne_true_of_eq_false h)

/-- A timeout is the completion that says so. -/
theorem xCompletionTimeout_eq : xCompletionTimeout vp k d = xHostCompletion vp .timeout k d := rfl

section
variable (hread : d.hostRead vp = true) (hr : (d.engine vp).run = some r)
include hread hr

theorem hostRead_input : getBits (d.jattr vp r.j) 26 24 = 1 ∧ d.vpOut vp = false := by
  simpa [Dev.hostRead, hr] using hread

theorem xHostCompletion_still (h : ¬ InputDue d vp r) : xHostCompletion vp ans k d = d := by
  obtain ⟨hk, ho⟩ := hostRead_input hread hr
  refine (if_pos hread).trans ?_
  by_cases hno : d.regN (senReg vp .JLEN r.j) ≤ r.moved ∨ (!d.vpBound vp) = true
  · simp only [Dev.moveEl, hr, if_pos hno]
  · have hfull : ¬ d.vpLevel vp < 512 := fun hlev => h ⟨by omega, by simpa using fun hb => hno (.inr hb), hlev⟩
    simp only [Dev.moveEl, hr, if_neg hno, hk, ho, if_neg hfull, Bool.false_eq_true, if_false, Nat.reduceEqDiff]

variable (h : InputDue d vp r)
include h

/-- The code of the answer decides whether the element joins the FIFO or ends the job. -/
theorem xHostCompletion_due : xHostCompletion vp ans k d =
    let oid := bitsOf (d.jattr vp r.j).toNat 21 11
    let a := segAddr r.segs r.moved
    let d1 := hostHeard d oid a (d.wired vp) ans
    let code := hostCode (hostSent d oid (d.wired vp)) ans
    if code = 0 then putWord vp r d1 (answerWord ans) else d1.jobError k.tick vp code a := by
  obtain ⟨hk, ho⟩ := hostRead_input hread hr
  obtain ⟨hmore, hb, hlev⟩ := h
  refine (if_pos hread).trans ?_
  simp only [Dev.moveEl, hr, Nat.not_le.2 hmore, hb, hk, ho, hlev, fetchEl_host_wired hk, Bool.not_true, Bool.false_eq_true,
    or_self, if_false, if_true, Nat.reduceEqDiff, putWord]

end

end

/-- Settles O29: a request is decided by its function's link, reach and resets, then by what it asks; a completion by whether
its element is due, then by the code of the answer. -/
theorem hostFunctions : Obligations.HostFunctions := by
  refine ⟨fun oid s => ⟨fun h => ⟨next_congr (xD3hotEntry_taken h), next_congr (xD0Return_taken h)⟩,
      fun h => ⟨next_congr (xD3hotEntry_still h), next_congr (xD0Return_still h)⟩⟩,
    fun oid op s hrun => ⟨fun h => next_congr ((unlessHalted_running hrun).trans (xConfigurationRequest_unreached h)),
      fun L hL hr ht => next_congr ((unlessHalted_running hrun).trans (xConfigurationRequest_retry hL hr ht))⟩,
    fun oid L s hrun hL hr ht => ?taken, fun vp r s hrun hread hr => ?completion, fun vp ans s h => ?none⟩
  case taken =>
    intro f done read
    have hexec {op : CfgOp} {d' : Dev} (h : xConfigurationRequest oid op s.clk s.d = d') :
        exec (.configurationRequest oid op) s = .next { s with d := d' } :=
      next_congr ((unlessHalted_running hrun).trans h)
    have hwrite {op : CfgOp} {d' : Dev} (hw : ∀ n, op ≠ .read n) (hc : ∀ x id n, op ≠ .cap x id n)
        (h : cfgWritten s.d s.clk oid op = d') : exec (.configurationRequest oid op) s = .next (done d') :=
      hexec ((xConfigurationRequest_write hL hr ht hw hc).trans (congrArg (·.send (.cfg oid false 0)) h))
    exact ⟨fun b e => hwrite nofun nofun rfl, fun b e => hwrite nofun nofun rfl, fun b n h => hwrite nofun nofun (if_pos h),
      fun b n h => hwrite nofun nofun (if_neg (Nat.not_lt.2 h)), fun a b => hwrite nofun nofun rfl, fun a => hwrite nofun nofun rfl,
      fun a => hwrite nofun nofun rfl, fun n v h => hwrite nofun nofun (if_pos h),
      fun n v h => hwrite nofun nofun (if_neg (Nat.not_lt.2 h)), fun n v => hwrite nofun nofun rfl,
      fun n => hexec (xConfigurationRequest_read hL hr ht n), fun x id n =>
        ⟨fun h => hexec (xConfigurationRequest_absent hL hr ht n h), fun h => hexec (xConfigurationRequest_cap hL hr ht n h)⟩⟩
  case completion =>
    intro oid a sent due d0 d1
    have hexec {ans : HostAns} {d' : Dev} (h : xHostCompletion vp ans s.clk s.d = d') :
        exec (.hostCompletion vp ans) s = .next { s with d := d' } :=
      next_congr ((unlessHalted_running hrun).trans h)
    have hends {ans : HostAns} (h : due) {code : Nat} (hcode : hostCode sent ans = code) (hc : code ≠ 0) :
        xHostCompletion vp ans s.clk s.d = (d1 ans).jobError s.clk.tick vp code a :=
      hcode ▸ (xHostCompletion_due hread hr h).trans (if_neg (hcode ▸ hc))
    have htimeout {d' : Dev} (h : xHostCompletion vp .timeout s.clk s.d = d') :
        exec (.completionTimeout vp) s = .next { s with d := d' } :=
      next_congr ((unlessHalted_running hrun).trans (xCompletionTimeout_eq.trans h))
    exact ⟨fun w h hs => hexec ((xHostCompletion_due hread hr h).trans (if_pos (congrArg (hostCode · (.data w)) hs))),
      fun ans h hc => hexec (hends h rfl hc),
      fun h hs => htimeout (hends h (congrArg (hostCode · .timeout) hs) (by decide)),
      fun h hs => htimeout (hends h (congrArg (hostCode · .timeout) hs) (by decide)),
      fun h => ⟨htimeout (xHostCompletion_still hread hr h), fun ans => hexec (xHostCompletion_still hread hr h)⟩⟩
  case none =>
    have hstill {ans : HostAns} : s.d.unlessHalted (xHostCompletion vp ans s.clk s.d) = s.d := by
      rw [xHostCompletion_none h, unlessHalted_self]
    exact ⟨next_congr hstill, next_congr hstill⟩

end Sys2Proof.Proofs

namespace Sys2Proof.Proofs

open Sys2Proof.Machine Sys2Proof.Safety

/-! States that differ in the chip alone, and negated tests of the model. -/

/-- Equal chips give equal states. -/
theorem state_congr {s : State} {d d' : Dev} (h : d = d') : ({ s with d := d } : State) = { s with d := d' } := by rw [h]

section
variable {b : Bool}

theorem bnot_of_not (h : ¬ b = true) : (!b) = true := by simpa using h

theorem not_bnot_of (h : b = true) : ¬ (!b) = true := by simp [h]

end

/-! Fields of registers: what a read gives after a write of the field, or of another of its register. -/

section
variable (d : Dev) {f g : Field} (v q : Nat) (i j k : Nat)

theorem fld_setFld_self (h : f.lo ≤ f.hi) (h64 : f.hi < 64) :
    (d.setFld f v q i j k).fld f q i j k = v % 2 ^ (f.hi + 1 - f.lo) := by
  rw [Dev.fld, Laws.setFld_eq, Laws.reg_setReg_self, Laws.getBits_putBits_self _ _ _ _ h h64]

theorem fld_setFld_other (hr : g.reg = f.reg) (h : f.lo ≤ f.hi) (h64 : g.hi < 64) (hd : g.hi < f.lo ∨ f.hi < g.lo) :
    (d.setFld f v q i j k).fld g q i j k = d.fld g q i j k := by
  rw [Dev.fld, Laws.setFld_eq, hr, Laws.reg_setReg_self, Laws.getBits_putBits_other _ _ _ _ _ _ h h64 hd, Dev.fld, hr]

end

end Sys2Proof.Proofs

namespace Sys2Proof.Proofs

open Sys2Proof.Machine Sys2Proof.Safety

/-! One step (01), and the machine right after reset (19 R520, R522). -/

/-- Settles O55: a step takes the front of the queue, and the outcome of a command has the queue of the state it began in. -/
theorem stepRunsFront : Obligations.StepRunsFront := by
  refine ⟨fun c rest s => rfl, fun s hp => by rw [step, hp], fun c s => ?_⟩
  obtain ⟨d, hd⟩ := exec_eq_next c s
  exact ⟨_, hd, rfl⟩

/-- Settles O58: after reset no register is written, and each of those named reads the value of its row. -/
theorem resetValues : Obligations.ResetValues := by
  have hclock : ClockOk State.reset := clockOk_porst State.reset Dev.reset
  exact ⟨hclock, rfl, rfl, rfl, rfl, rfl, rfl, fun slot => rfl, rfl, rfl⟩

end Sys2Proof.Proofs

namespace Sys2Proof.Proofs

open Sys2Proof.Machine Sys2Proof.Safety

/-! Halts, runs and steps, trigger rules, and the state of a halted core (21 R565–R571, R577). -/

/-! ### Who may write the DBG block (R577) -/

section
variable {m : Mst} {d f : Dev} {x : RKey} {q : Nat} {r : R}

theorem dbgWrite_may (h : d.dbgMay m x.q x.r = true) : d.dbgWrite m x f = f := if_pos h

theorem dbgMay_port (h : m.mid = 0x4C0) : d.dbgMay m q r = true := by
  simp only [Dev.dbgMay, h, decide_true, Bool.true_or]

/-- The debug port writes every register of the block. -/
theorem dbgWrite_port (h : m.mid = 0x4C0) : d.dbgWrite m x f = f := dbgWrite_may (dbgMay_port h)

/-- Cores are also the owner's to halt, to resume and to step. -/
theorem dbgWrite_cores (h : m.mid = 0x4C0 ∨ m.oid = 0) : d.dbgWrite m (R.DBG_CCMD.at q) f = f := by
  refine dbgWrite_may ?_
  rcases h with h | h
  · exact dbgMay_port h
  · simp [Dev.dbgMay, owner_of_oid h, R.at]

/-- What another owner may not write is dropped with kind SOURCE. -/
theorem dbgWrite_source (hm : m.oid = 0) (h : d.dbgMay m x.q x.r = false) : d.dbgWrite m x f = d.refuseSource m x :=
  (if_neg (ne_true_of_eq_false h)).trans (if_neg (not_denied hm))

/-- The registers of the block that a master other than the debug port never writes. -/
theorem dbgMay_other (hp : m.mid ≠ 0x4C0) (hr : r ∉ [R.DBG_CCMD, .DBG_CREG_SEL, .DBG_CREG_DATA, .DBG_EBHALT, .PATCH_CTL, .PATCH_DATA]) :
    d.dbgMay m q r = false := by
  simp only [List.mem_cons, List.not_mem_nil, or_false, not_or] at hr
  obtain ⟨h1, h2, h3, h4, h5, h6⟩ := hr
  simp [Dev.dbgMay, hp, h1, h2, h3, h4, h5, h6]

end

/-! ### What halts, runs and steps of cores leave (R565, R570) -/

/-- One step of a core that is halted. -/
def stepCore (d : Dev) (n : Nat) : Dev := if (d.core n).halted then d.setCore n { d.core n with step := true } else d

/-- `d'` is `d` but for its cores and the registers that show them. -/
def CoresAlone (d d' : Dev) : Prop :=
  (∃ cs rs, d' = { d with cores := cs, regs := rs }) ∧
    ∀ x : RKey, x.r ≠ .CORE_STAT → x.r ≠ .DSP_CORE → x.r ≠ .DBG_STAT → d'.reg x = d.reg x

section
variable {d d' e : Dev}

theorem coresAlone_refl (d : Dev) : CoresAlone d d := ⟨⟨d.cores, d.regs, rfl⟩, fun _ _ _ _ => rfl⟩

theorem coresAlone_trans (h : CoresAlone d d') (h' : CoresAlone d' e) : CoresAlone d e := by
  obtain ⟨⟨_, _, rfl⟩, hx⟩ := h
  obtain ⟨⟨cs, rs, he⟩, hx'⟩ := h'
  exact ⟨⟨cs, rs, he⟩, fun x h1 h2 h3 => (hx' x h1 h2 h3).trans (hx x h1 h2 h3)⟩

theorem coresAlone_setCore (d : Dev) (n : Nat) (c : Core) : CoresAlone d (d.setCore n c) :=
  ⟨setCore_eq c, fun _ h1 h2 h3 => reg_setCore_other c h1 h2 h3⟩

theorem coresAlone_haltCore (d : Dev) (n : Nat) : CoresAlone d (d.haltCore n) := by
  rw [Dev.haltCore]
  split
  · exact coresAlone_refl d
  · exact coresAlone_setCore d n _

theorem coresAlone_runCore (d : Dev) (n : Nat) : CoresAlone d (d.runCore n) := by
  rw [Dev.runCore]
  split
  · exact coresAlone_setCore d n _
  · exact coresAlone_refl d

theorem coresAlone_stepCore (d : Dev) (n : Nat) : CoresAlone d (stepCore d n) := by
  rw [stepCore]
  split
  · exact coresAlone_setCore d n _
  · exact coresAlone_refl d

theorem coresAlone_foldl {f : Dev → Nat → Dev} (hf : ∀ d n, CoresAlone d (f d n)) (l : List Nat) (d : Dev) :
    CoresAlone d (l.foldl f d) := by
  induction l generalizing d with
  | nil => exact coresAlone_refl d
  | cons n r ih => exact coresAlone_trans (hf d n) (ih (f d n))

/-- The answer apart, such a chip is the one before with other cores and registers. -/
theorem okay_of_coresAlone (h : CoresAlone d d') : { d'.okay with cores := d.cores, regs := d.regs } = d.okay := by
  obtain ⟨⟨_, _, rfl⟩, -⟩ := h
  rfl

end

/-! ### The system halts, resumes and steps (R567–R570) -/

section
variable {m : Mst} {v : Nat} {k : Clk} {d : Dev} (hm : m.mid = 0x4C0)

theorem haltSystem_stopped (h : d.safe = true ∨ d.confFailed = true) : d.haltSystem = d := if_pos h

include hm

theorem xSystemHalt_port : xSystemHalt m v d = d.haltSystem.okay := dbgWrite_port hm

theorem xSystemRun_still (h : d.safe = true ∨ d.confFailed = true ∨ d.sysHalt = false) : xSystemRun m v k d = d.okay :=
  (dbgWrite_port hm).trans (if_pos h)

theorem xSystemRun_resumes (h : ¬ (d.safe = true ∨ d.confFailed = true)) (hh : d.sysHalt = true) :
    xSystemRun m v k d = ({ d with haltLeft := 0 }.resumeSystem k.tick).okay := by
  refine (dbgWrite_port hm).trans (if_neg ?_)
  rintro (hs | hc | hn)
  · exact h (.inl hs)
  · exact h (.inr hc)
  · exact Bool.noConfusion (hh.symm.trans hn)

theorem xSystemStep_reserved (hv : v % 65536 = 0) :
    xSystemStep m v k d = (d.logWrite m (R.DBG_SHALT.at 0) .reserved).okay := (if_pos hv).trans (dbgWrite_port hm)

theorem xSystemStep_stopped (hv : v % 65536 ≠ 0) (h : d.safe = true ∨ d.confFailed = true) :
    xSystemStep m v k d = d.okay := (if_neg hv).trans ((dbgWrite_port hm).trans (if_pos h))

theorem xSystemStep_steps (hv : v % 65536 ≠ 0) (h : ¬ (d.safe = true ∨ d.confFailed = true)) :
    xSystemStep m v k d = ({ d with haltLeft := v % 65536 + 1 }.resumeSystem k.tick).okay :=
  (if_neg hv).trans ((dbgWrite_port hm).trans (if_neg h))

end

/-- Settles O60: in safe stop and under CONF_ERR the commands of the system leave the chip; those of cores are writes of
cores, one after another. -/
theorem haltsWhileStopped : Obligations.HaltsWhileStopped := by
  refine ⟨fun m v s hm h => ?system, fun m q v s hm h => ?cores⟩
  case system =>
    exact ⟨next_congr ((xSystemHalt_port hm).trans (congrArg Dev.okay (haltSystem_stopped h))),
      next_congr (xSystemRun_still hm (or_assoc.1 (.inl h))), fun hv => next_congr (xSystemStep_stopped hm hv h),
      fun hv => next_congr (if_pos hv)⟩
  case cores =>
    have hm' : m.mid = 0x4C0 ∨ m.oid = 0 := hm.imp_right fun ho => by simpa [Mst.owner] using ho
    have hframe {f : Dev → Nat → Dev} (hf : ∀ d n, CoresAlone d (f d n)) :
        { ((maskCores q v).foldl f s.d).okay with cores := s.d.cores, regs := s.d.regs } = s.d.okay ∧ s.clk = s.clk ∧
          ∀ x : RKey, x.r ≠ .CORE_STAT → x.r ≠ .DSP_CORE → x.r ≠ .DBG_STAT →
            ((maskCores q v).foldl f s.d).okay.reg x = s.d.reg x := by
      have h := coresAlone_foldl hf (maskCores q v) s.d
      exact ⟨okay_of_coresAlone h, rfl, fun x h1 h2 h3 => (Laws.reg_okay _ x).trans (h.2 x h1 h2 h3)⟩
    refine ⟨_, _, _, next_congr (dbgWrite_cores hm'), next_congr (dbgWrite_cores hm'), next_congr (dbgWrite_cores hm'), ?_⟩
    rintro u (rfl | rfl | rfl)
    · exact hframe coresAlone_haltCore
    · exact hframe coresAlone_runCore
    · exact hframe coresAlone_stepCore

/-! ### Trigger rules (R571) -/

section
variable {m : Mst} {r v : Nat} {k : Clk} {d : Dev}

theorem xtSel_eq (d : Dev) (r : Nat) : d.xtSel r = getBits (d.reg (R.XT_IN.at 0 r)) 2 0 := rfl

/-- An input of one rule alone fires that rule, if it is one of the four and has the input. -/
theorem fireInput_one (d : Dev) (k : Clk) (sel r : Nat) :
    d.fireInput k sel (fun i => decide (i = r)) = if r < 4 ∧ d.xtSel r = sel then d.fireRule k r else d := by
  simp only [Dev.fireInput, decide_eq_true_eq, show upTo 4 = [0, 1, 2, 3] from rfl, List.foldl_cons, List.foldl_nil]
  by_cases hr : r < 4
  · interval_cases r <;> simp
  · have hne {i : Nat} (hi : i < 4) : ¬ i = r := by omega
    simp [hr, hne]

theorem xXtFire_fires (hm : m.mid = 0x4C0) (hv : v.testBit 0 = true) (hr : r < 4) (hs : getBits (d.reg (R.XT_IN.at 0 r)) 2 0 = 4) :
    xXtFire m r v k d = (d.fireRule k r).okay :=
  (dbgWrite_port hm).trans ((if_pos hv).trans (congrArg Dev.okay ((fireInput_one d k 4 r).trans (if_pos ⟨hr, hs⟩))))

theorem xXtFire_still (hm : m.mid = 0x4C0)
    (h : ¬ (v.testBit 0 = true ∧ r < 4 ∧ getBits (d.reg (R.XT_IN.at 0 r)) 2 0 = 4)) : xXtFire m r v k d = d.okay := by
  refine (dbgWrite_port hm).trans ?_
  by_cases hv : v.testBit 0 = true
  · exact (if_pos hv).trans (congrArg Dev.okay ((fireInput_one d k 4 r).trans (if_neg fun hf => h ⟨hv, hf⟩)))
  · exact if_neg hv

end

/-! ### The state of a halted core (R566) -/

section
variable {m : Mst} {q v n i bank : Nat} {w : Bool} {k : Clk} {d : Dev} {c : Core} (hm : m.oid = 0)
  (hn : q * 16 + getBits (d.reg (R.DBG_CREG_SEL.at q)) 31 28 = n) (hc : d.core n = c)
  (hi : getBits (d.reg (R.DBG_CREG_SEL.at q)) 11 0 = i) (hb : getBits (d.reg (R.DBG_CREG_SEL.at q)) 22 20 = bank)
include hm hn hc

theorem xDbgCregData_runs (h : c.halted = false) : xDbgCregData m q w v k d = d.slverr m (R.DBG_CREG_DATA.at q) := by
  subst hn hc
  exact (if_neg (not_denied hm)).trans (if_pos h)

section
variable (hh : c.halted = true)
include hh

theorem xDbgCregData_reserved (hk : getBits (d.reg (R.DBG_CREG_SEL.at q)) 27 26 = 3) :
    xDbgCregData m q w v k d = d.slverr m (R.DBG_CREG_DATA.at q) := by
  subst hn hc
  simp only [xDbgCregData, owner_of_oid hm, hh, hk, Bool.not_true, Bool.true_eq_false, Bool.false_eq_true, if_false]

include hi

theorem xDbgCregData_float (hk : getBits (d.reg (R.DBG_CREG_SEL.at q)) 27 26 = 1) : xDbgCregData m q w v k d =
    if 32 < i then d.slverr m (R.DBG_CREG_DATA.at q)
    else if w then
      (d.setCore n { c with fp := nset 0 c.fp i (if i = 32 then BitVec.ofNat 64 v &&& 0xFF else BitVec.ofNat 64 v) }).okay
    else d.answer .okay (nget 0 c.fp i) := by
  subst hn hc hi
  simp only [xDbgCregData, owner_of_oid hm, hh, hk, Bool.not_true, Bool.true_eq_false, Bool.false_eq_true, if_false]

theorem xDbgCregData_noCsr (hk : getBits (d.reg (R.DBG_CREG_SEL.at q)) 27 26 = 2) (hr : d.csrRead k n i = none) :
    xDbgCregData m q w v k d = d.slverr m (R.DBG_CREG_DATA.at q) := by
  subst hn hc hi
  simp only [xDbgCregData, owner_of_oid hm, hh, hk, hr, Bool.not_true, Bool.true_eq_false, Bool.false_eq_true, if_false]

include hb

theorem xDbgCregData_general (hk : getBits (d.reg (R.DBG_CREG_SEL.at q)) 27 26 = 0) : xDbgCregData m q w v k d =
    if 31 < i then d.slverr m (R.DBG_CREG_DATA.at q)
    else if w then (d.setCore n (if i = 0 then c.setWord bank 0 (BitVec.ofNat 64 v &&& BitVec.ofNat 64 stateMask)
      else c.setWord bank i (BitVec.ofNat 64 v))).okay
    else d.answer .okay (c.read bank i) := by
  subst hn hc hi hb
  simp only [xDbgCregData, owner_of_oid hm, hh, hk, Bool.not_true, Bool.true_eq_false, Bool.false_eq_true, if_false]

end

include hi hb

/-- What DBG_CREG_SEL names that is not there, and the state of a core that runs, answer SLVERR. -/
theorem xDbgCregData_absent {kind : Nat} (hk : getBits (d.reg (R.DBG_CREG_SEL.at q)) 27 26 = kind)
    (h : c.halted = false ∨ kind = 3 ∨ (kind = 0 ∧ 31 < i) ∨ (kind = 1 ∧ 32 < i) ∨ (kind = 2 ∧ d.csrRead k n i = none)) :
    xDbgCregData m q w v k d = d.slverr m (R.DBG_CREG_DATA.at q) := by
  cases hh : c.halted with
  | false => exact xDbgCregData_runs hm hn hc hh
  | true =>
    rcases h with h | rfl | ⟨rfl, h⟩ | ⟨rfl, h⟩ | ⟨rfl, hr⟩
    · exact Bool.noConfusion (hh.symm.trans h)
    · exact xDbgCregData_reserved hm hn hc hh hk
    · exact (xDbgCregData_general hm hn hc hi hb hh hk).trans (if_pos h)
    · exact (xDbgCregData_float hm hn hc hi hh hk).trans (if_pos h)
    · exact xDbgCregData_noCsr hm hn hc hi hh hk hr

end

/-- Settles O48: who may write is decided first; then the stop, the halt and the count decide the commands of the system, the
selection an access to a core. -/
theorem debugHalts : Obligations.DebugHalts := by
  refine ⟨fun m q v s hm => ⟨next_congr (dbgWrite_cores hm), next_congr (dbgWrite_cores hm), next_congr (dbgWrite_cores hm)⟩,
    fun m v s hm => ?system, fun m v r s hp hm => ?other,
    fun s => ⟨fun h => next_congr (if_pos h), fun h => next_congr (if_neg h)⟩,
    fun m r v s hm => ⟨fun ⟨hv, hr, hs⟩ => next_congr (xXtFire_fires hm hv hr hs), fun h => next_congr (xXtFire_still hm h)⟩,
    fun m q w v s hm => ?core⟩
  case system =>
    exact ⟨fun h => ⟨next_congr ((xSystemHalt_port hm).trans (congrArg Dev.okay (haltSystem_stopped h))),
        next_congr (xSystemRun_still hm (or_assoc.1 (.inl h)))⟩,
      fun h => next_congr ((xSystemHalt_port hm).trans (congrArg Dev.okay (if_neg h))),
      fun h hh => next_congr (xSystemRun_still hm (.inr (.inr hh))), fun h hh => next_congr (xSystemRun_resumes hm h hh),
      fun h hv => next_congr (xSystemStep_stopped hm hv h), fun h hv => next_congr (xSystemStep_steps hm hv h),
      fun hv => next_congr (xSystemStep_reserved hm hv)⟩
  case other =>
    have hsrc {f : Dev} {x : RKey} (hx : x.r = .DBG_SHALT ∨ x.r = .XT_FIRE) : s.d.dbgWrite m x f = s.d.refuseSource m x :=
      dbgWrite_source hm (dbgMay_other hp (by rcases hx with hx | hx <;> rw [hx] <;> decide))
    exact ⟨next_congr (hsrc (.inl rfl)), next_congr (hsrc (.inl rfl)),
      next_congr ((ite_congr rfl (fun _ => hsrc (.inl rfl)) fun _ => hsrc (.inl rfl)).trans (ite_self _)),
      next_congr (hsrc (.inr rfl))⟩
  case core =>
    intro sel n bank kind idx c val row csr none'
    refine ⟨fun h => next_congr (xDbgCregData_absent hm rfl rfl rfl rfl rfl h), fun hh hk hi => ?general, fun hh hk hi => ?float,
      fun r hh hk hr => ?csr⟩
    case general =>
      have h : xDbgCregData m q w v s.clk s.d = _ := (xDbgCregData_general hm rfl rfl rfl rfl hh hk).trans (if_neg (Nat.not_lt.2 hi))
      have hset {c1 : Core} (hw : w = true) (hc : (if idx = 0 then c.setWord bank 0 (val &&& BitVec.ofNat 64 stateMask)
          else c.setWord bank idx val) = c1) : exec row s = .next { s with d := (s.d.setCore n c1).okay } :=
        next_congr (hc ▸ h.trans (if_pos hw))
      exact ⟨fun hw => next_congr (h.trans (if_neg (ne_true_of_eq_false hw))), fun hw h0 => hset hw (if_pos h0),
        fun hw h0 => hset hw (if_neg h0)⟩
    case float =>
      have h : xDbgCregData m q w v s.clk s.d = _ := (xDbgCregData_float hm rfl rfl rfl hh hk).trans (if_neg (Nat.not_lt.2 hi))
      have hset {x : Word} (hw : w = true) (hx : (if idx = 32 then val &&& 0xFF else val) = x) :
          exec row s = .next { s with d := (s.d.setCore n { c with fp := nset 0 c.fp idx x }).okay } :=
        next_congr (hx ▸ h.trans (if_pos hw))
      exact ⟨fun hw => next_congr (h.trans (if_neg (ne_true_of_eq_false hw))), fun hw h32 => hset hw (if_neg h32),
        fun hw h32 => h32 ▸ hset hw (if_pos h32)⟩
    case csr =>
      have h : xDbgCregData m q w v s.clk s.d = _ := xDbgCregData_csr w (owner_of_oid hm) rfl hh hk rfl hr
      exact ⟨fun hw => next_congr (h.trans (if_neg (ne_true_of_eq_false hw))), fun hw => next_congr (h.trans (if_pos hw))⟩

end Sys2Proof.Proofs

namespace Sys2Proof.Proofs

open Sys2Proof.Machine Sys2Proof.Safety

/-! Captures, patch units and block locks (21 R572–R574, R577; 24 R611). -/

/-! ### CAP_CTRL is written (R572, R573) -/

section
variable {m : Mst} {v : Nat} {k : Clk} {d : Dev} {c : Capture} (hm : m.mid = 0x4C0)
include hm

theorem xArm_busy (h : d.capState ≠ 0) : xArm m v k d = (d.setCap d.capState 3).okay := (dbgWrite_port hm).trans (if_pos h)

section
variable (h : d.capState = 0)
include h

theorem xArm_past (he : d.regN (R.CAP_DTIME.at 0) < k.dtime) : xArm m v k d = (d.setCap 0 2).okay :=
  (dbgWrite_port hm).trans ((if_neg (not_not.2 h)).trans (if_pos he))

theorem xArm_ahead (he : k.dtime ≤ d.regN (R.CAP_DTIME.at 0))
    (hh : ¬ (d.sysHalt = true ∧ d.regN (R.CAP_DTIME.at 0) = k.dtime)) : xArm m v k d = (d.setCap 1 0).okay :=
  (dbgWrite_port hm).trans ((if_neg (not_not.2 h)).trans ((if_neg (Nat.not_lt.2 he)).trans (if_neg hh)))

theorem xArm_here (hh : d.sysHalt = true ∧ d.regN (R.CAP_DTIME.at 0) = k.dtime) :
    xArm m v k d = ((d.setCap 1 0).takeCapture k).okay :=
  (dbgWrite_port hm).trans ((if_neg (not_not.2 h)).trans ((if_neg (Nat.not_lt.2 (Nat.le_of_eq hh.2.symm))).trans (if_pos hh)))

end

theorem xDma_none (hc : d.capture = none) : xDma m v d = d.refuse m (R.CAP_CTRL.at 0) := by
  simp only [xDma, hc, dbgWrite_port hm]

theorem xStream_none (hc : d.capture = none) : xStream m v d = d.refuse m (R.CAP_CTRL.at 0) := by
  simp only [xStream, hc, dbgWrite_port hm]

theorem xDma_some (hc : d.capture = some c) : xDma m v d =
    if d.capState = 2 then { d.setCap 3 0 with capture := some { c with quarter := none } }.okay
    else d.refuse m (R.CAP_CTRL.at 0) := by
  simp only [xDma, hc, dbgWrite_port hm]

theorem xStream_some (hc : d.capture = some c) : xStream m v d =
    if d.capState = 2 ∨ (d.capState = 3 ∧ c.quarter ≠ none) then
      { d.setCap 3 0 with capture := some { c with quarter := some (v % 4), read := 0 } }.okay
    else d.refuse m (R.CAP_CTRL.at 0) := by
  simp only [xStream, hc, dbgWrite_port hm, Option.isSome_iff_ne_none]

end

/-! ### A capture is taken, unloaded and read (R572, R573) -/

section
variable {m : Mst} {k : Clk} {d : Dev} {c : Capture} {q : Nat}

theorem takeCapture_armed (h : d.capState = 1) : d.takeCapture k =
    { d.setCap 2 0 with capture := some ⟨k.dtime, k.tick, (upTo 4).map (fun q => d.onMask q), 0, none⟩ } := if_pos h

theorem xUnloadDone_none (hc : d.capture = none) : xUnloadDone d = d := by simp only [xUnloadDone, hc]

theorem xUnloadDone_some (hc : d.capture = some c) : xUnloadDone d =
    if d.capState = 3 ∧ c.quarter = none then
      let r := d.dmaAll c (d.regN (R.CAP_BASE.at 0)) (upTo 4)
      { r.1.setCap 0 (if r.2 then 1 else 4) with capture := none }
    else d := by
  simp only [xUnloadDone, hc]

variable (hm : m.oid = 0)
include hm

theorem xCapData_none (h : d.capture = none ∨ ∃ c, d.capture = some c ∧ c.quarter = none) : xCapData m d = d.answer .okay 0 := by
  refine (if_neg (not_denied hm)).trans ?_
  rcases h with h | ⟨c, h, hq⟩
  · simp only [h]
  · simp only [h, hq]

/-- The chip after the word of a streamed image that `c` is at, where `d` has counted it. -/
def capWordRead (d : Dev) (c : Capture) : Dev :=
  if Config.fuseCapSize.toNat / 4 ≤ c.read + 1 then { d.setCap 0 1 with capture := none } else d

section
variable (hc : d.capture = some c) (hq : c.quarter = some q)
include hc hq

theorem xCapData_head (h : c.read < 16) : xCapData m d =
    (capWordRead { d with capture := some { c with read := c.read + 1 } } c).answer .okay (BitVec.ofNat 64 (c.headWord q c.read)) := by
  simp only [xCapData, owner_of_oid hm, hc, hq, h, Bool.not_true, Bool.false_eq_true, if_false, if_true, capWordRead]

/-- The flip-flops' words are free values. -/
theorem xCapData_free (h : 16 ≤ c.read) : xCapData m d =
    let f := { d with capture := some { c with read := c.read + 1 } }.fresh
    (capWordRead f.2 c).answer .okay (BitVec.ofNat 64 (f.1.toNat % 2 ^ 32)) := by
  simp only [xCapData, owner_of_oid hm, hc, hq, Nat.not_lt.2 h, Bool.not_true, Bool.false_eq_true, if_false, capWordRead]

end

end

/-! ### Patch units and block locks (R574, R577; 24 R611) -/

section
variable {m : Mst} {q u v code : Nat} {d : Dev}

theorem dbgMay_patch : d.dbgMay m q .PATCH_CTL = true ↔
    m.mid = 0x4C0 ∨ (m.oid = 0 ∧ (d.reg (R.DBG_CTRL.at q)).getLsbD 0 = true) := by
  simp [Dev.dbgMay, Mst.owner]

theorem xPatchCtl_may (h : m.mid = 0x4C0 ∨ (m.oid = 0 ∧ (d.reg (R.DBG_CTRL.at q)).getLsbD 0 = true)) :
    xPatchCtl m q u v d = (d.setRegN (R.PATCH_CTL.at q u) (v &&& 0x8103FFFF)).okay :=
  dbgWrite_may (dbgMay_patch.2 h)

theorem xPatchCtl_source (hm : m.oid = 0) (h : ¬ (m.mid = 0x4C0 ∨ (m.oid = 0 ∧ (d.reg (R.DBG_CTRL.at q)).getLsbD 0 = true))) :
    xPatchCtl m q u v d = d.refuseSource m (R.PATCH_CTL.at q u) :=
  dbgWrite_source hm (Bool.eq_false_iff.2 (mt dbgMay_patch.1 h))

theorem block_here (h : code = 0xF0 ∨ blockIn q code = true) : ¬ (code ≠ 0xF0 ∧ blockIn q code = false) := by
  rintro ⟨hc, hb⟩
  exact Bool.noConfusion ((h.resolve_left hc).symm.trans hb)

variable (hm : m.oid = 0)
include hm

theorem xBlkLock_absent (h : ¬ (code = 0xF0 ∨ blockIn q code = true)) :
    xBlkLock m q code v d = d.refuse m (R.BLK_LOCK.at q code) := by
  rw [not_or, Bool.not_eq_true] at h
  exact (if_neg (not_denied hm)).trans (if_pos h)

variable (h : code = 0xF0 ∨ blockIn q code = true)
include h

theorem xBlkLock_source (hs : ¬ (code ≠ 0x28 ∨ m.mid = 0x4C0)) :
    xBlkLock m q code v d = d.refuseSource m (R.BLK_LOCK.at q code) :=
  (if_neg (not_denied hm)).trans ((if_neg (block_here h)).trans (if_pos (by rwa [not_or, not_not] at hs)))

theorem xBlkLock_may (hs : code ≠ 0x28 ∨ m.mid = 0x4C0) :
    xBlkLock m q code v d = (if v.testBit 0 then d.setRegN (R.BLK_LOCK.at q code) 1 else d).okay :=
  (if_neg (not_denied hm)).trans ((if_neg (block_here h)).trans (if_neg fun hx => hs.elim (absurd hx.1) hx.2))

end

/-- Settles O49: STATE of the capture decides its commands; a word that is read is of the header or a free value. -/
theorem captures : Obligations.Captures := by
  refine ⟨fun m v s hm => ?arm, fun s => ?taken, fun m v s hm => ?unload, fun s => ?done, fun m s hm => ?data,
    fun m q u v s => ⟨fun h => next_congr (xPatchCtl_may h), fun hm h => next_congr (xPatchCtl_source hm h)⟩,
    fun m v s hp hm => ?other, fun m q code v s hm => ?lock⟩
  case arm =>
    exact ⟨fun h => next_congr (xArm_busy hm h), fun h he => next_congr (xArm_past hm h he),
      fun h he hh => next_congr (xArm_ahead hm h he hh), fun h hh => next_congr (xArm_here hm h hh),
      fun h => next_congr ((dbgWrite_port hm).trans (if_pos h)), fun h => next_congr ((dbgWrite_port hm).trans (if_neg h))⟩
  case taken => exact ⟨fun h => next_congr ((if_pos h).trans (takeCapture_armed h.1)), fun h => next_congr (if_neg h)⟩
  case unload =>
    exact ⟨fun hc => ⟨next_congr (xDma_none hm hc), next_congr (xStream_none hm hc)⟩, fun c hc =>
      ⟨fun h => next_congr ((xDma_some hm hc).trans (if_pos h)), fun h => next_congr ((xDma_some hm hc).trans (if_neg h)),
        fun h => next_congr ((xStream_some hm hc).trans (if_pos h)), fun h => next_congr ((xStream_some hm hc).trans (if_neg h))⟩⟩
  case done =>
    refine ⟨fun hc => next_congr (xUnloadDone_none hc), fun c hc => ?_⟩
    intro unloads r
    have hres {n : Nat} (hu : unloads) (hn : (if r.2 then 1 else 4) = n) :
        exec .unloadDone s = .next { s with d := { r.1.setCap 0 n with capture := none } } :=
      next_congr (hn ▸ (xUnloadDone_some hc).trans (if_pos hu))
    exact ⟨fun hu hr => hres hu (if_pos hr), fun hu hr => hres hu (if_neg (ne_true_of_eq_false hr)),
      fun hu => next_congr ((xUnloadDone_some hc).trans (if_neg hu))⟩
  case data =>
    exact ⟨fun h => next_congr (xCapData_none hm h), fun c q hc hq =>
      ⟨fun h => next_congr (xCapData_head hm hc hq h), fun h => next_congr (xCapData_free hm hc hq h)⟩⟩
  case other =>
    have hsrc {f : Dev} : s.d.dbgWrite m (R.CAP_CTRL.at 0) f = s.d.refuseSource m (R.CAP_CTRL.at 0) :=
      dbgWrite_source hm (dbgMay_other hp (by decide))
    exact ⟨next_congr hsrc, next_congr hsrc, next_congr hsrc, next_congr hsrc⟩
  case lock =>
    have hbit : v.testBit 0 = true ↔ v % 2 = 1 := by rw [Nat.testBit_zero, decide_eq_true_eq]
    refine ⟨fun h hs hv => next_congr ((xBlkLock_may hm h hs).trans (congrArg Dev.okay (if_pos (hbit.2 hv)))),
      fun h hs hv => next_congr ((xBlkLock_may hm h hs).trans (congrArg Dev.okay (if_neg (mt hbit.1 (by omega))))),
      fun h hs => next_congr (xBlkLock_source hm h hs), fun h => next_congr (xBlkLock_absent hm h)⟩

end Sys2Proof.Proofs

namespace Sys2Proof.Proofs

open Sys2Proof.Machine Sys2Proof.Safety

/-! Authentication of the debug port (21 R559, R561–R563). -/

/-! ### The commands of AUTH_CMD and its words (R562) -/

section
variable {v : Nat} {k : Clk} {d : Dev} (hup : d.dwUsable = true)

/-- A SUBMIT that verification follows: of a live nonce, drawn and not expired, with all 50 words written. -/
def AuthDue (d : Dev) (k : Clk) : Prop :=
  d.auth.live = true ∧ d.auth.nonce ≠ none ∧ d.auth.words.length = 50 ∧ k.tick < d.auth.since + nonceLife

theorem authDue_iff (d : Dev) (k : Clk) : (d.auth.live && d.auth.nonce.isSome && decide (d.auth.words.length = 50)
    && decide (k.tick < d.auth.since + nonceLife)) = true ↔ AuthDue d k := by
  simp only [AuthDue, Bool.and_eq_true, decide_eq_true_eq, Option.isSome_iff_ne_none, and_assoc]

include hup

theorem xAuthStart_locked (h : d.fld F.DW_STAT_AUTH 0 = 3) : xAuthStart v k d = d.dwStatus 2 :=
  (if_neg (not_bnot_of hup)).trans (if_pos h)

theorem xAuthSubmit_locked (h : d.fld F.DW_STAT_AUTH 0 = 3) : xAuthSubmit v k d = d.dwStatus 2 :=
  (if_neg (not_bnot_of hup)).trans (if_pos h)

theorem xAuthStart_verifying (h : d.fld F.DW_STAT_AUTH 0 = 2) : xAuthStart v k d = d.dwStatus 1 :=
  (if_neg (not_bnot_of hup)).trans ((if_neg (by omega)).trans (if_pos h))

theorem xAuthSubmit_verifying (h : d.fld F.DW_STAT_AUTH 0 = 2) : xAuthSubmit v k d = d.dwStatus 1 :=
  (if_neg (not_bnot_of hup)).trans ((if_neg (by omega)).trans (if_pos h))

theorem xAuthDrop_lowers (h : bitsOf v 9 8 < d.dwLevel) :
    xAuthDrop v d = (d.setFld F.DW_STAT_LEVEL (bitsOf v 9 8) 0).dwStatus 3 :=
  (if_neg (not_bnot_of hup)).trans (congrArg (Dev.dwStatus · 3) (if_pos h))

theorem xAuthDrop_keeps (h : d.dwLevel ≤ bitsOf v 9 8) : xAuthDrop v d = d.dwStatus 3 :=
  (if_neg (not_bnot_of hup)).trans (congrArg (Dev.dwStatus · 3) (if_neg (Nat.not_lt.2 h)))

theorem xNonce_reads {d' : Dev} (h : d.dwNonce 0x0685 = d') : xNonce d = d' := (if_pos hup).trans h

section
variable (h2 : d.fld F.DW_STAT_AUTH 0 ≠ 2) (h3 : d.fld F.DW_STAT_AUTH 0 ≠ 3)
include h2 h3

theorem xAuthStart_draws (hl : bitsOf v 9 8 = 1 ∨ bitsOf v 9 8 = 2) : xAuthStart v k d =
    ({ d with auth := ⟨bitsOf v 9 8, k.tick, none, true, [], []⟩ }.setFld F.DW_STAT_AUTH 0 0).dwStatus 3 :=
  (if_neg (not_bnot_of hup)).trans ((if_neg h3).trans ((if_neg h2).trans (if_neg (by omega))))

theorem xAuthStart_faults (hl : bitsOf v 9 8 = 0 ∨ bitsOf v 9 8 = 3) : xAuthStart v k d = d.dwStatus 0 :=
  (if_neg (not_bnot_of hup)).trans ((if_neg h3).trans ((if_neg h2).trans (if_pos hl)))

theorem xAuthSubmit_due (h : AuthDue d k) : xAuthSubmit v k d =
    ({ d with auth := { d.auth with live := false } }.setFld F.DW_STAT_AUTH 2 0).dwStatus 3 :=
  (if_neg (not_bnot_of hup)).trans ((if_neg h3).trans ((if_neg h2).trans
    (congrArg (Dev.dwStatus · 3) (if_pos ((authDue_iff d k).2 h)))))

theorem xAuthSubmit_fails (h : ¬ AuthDue d k) : xAuthSubmit v k d =
    { d with auth := { d.auth with live := false } }.authFail.dwStatus 3 :=
  (if_neg (not_bnot_of hup)).trans ((if_neg h3).trans ((if_neg h2).trans
    (congrArg (Dev.dwStatus · 3) (if_neg (mt (authDue_iff d k).1 h)))))

end

end

/-! ### The nonce, verification and lockout (R562, R563) -/

section
variable {d : Dev} {hdr : Nat}

theorem dwNonce_none (h : d.auth.nonce = none) : d.dwNonce hdr = d.dwStatus 1 := by simp only [Dev.dwNonce, h]

theorem dwNonce_word {w : Nat} {r : List Nat} (h : d.auth.nonce = some (w :: r)) :
    d.dwNonce hdr = { d with auth := { d.auth with nonce := some r } }.dwData hdr w := by simp only [Dev.dwNonce, h]

theorem dwNonce_past (h : d.auth.nonce = some []) : d.dwNonce hdr = d.fresh.2.dwData hdr d.fresh.1.toNat := by
  simp only [Dev.dwNonce, h]

theorem xVerificationComplete_none (h : d.fld F.DW_STAT_AUTH 0 ≠ 2) : xVerificationComplete d = d := if_pos h

theorem xVerificationComplete_grants (h : d.fld F.DW_STAT_AUTH 0 = 2) (hok : d.authOk = true) :
    xVerificationComplete d = (d.setFld F.DW_STAT_LEVEL d.auth.want 0).setFld F.DW_STAT_AUTH 0 0 :=
  (if_neg (not_not.2 h)).trans (if_pos hok)

theorem xVerificationComplete_fails (h : d.fld F.DW_STAT_AUTH 0 = 2) (hok : ¬ d.authOk = true) :
    xVerificationComplete d = d.authFail := (if_neg (not_not.2 h)).trans (if_neg hok)

/-- A failure keeps the level. -/
theorem authFail_level (d : Dev) : d.authFail.dwLevel = d.dwLevel := by
  rw [Dev.dwLevel, Dev.authFail, fld_setFld_other, fld_setFld_other, Dev.dwLevel] <;> decide

/-- It locks the port out. -/
theorem authFail_auth (d : Dev) : d.authFail.fld F.DW_STAT_AUTH 0 = 3 := fld_setFld_self _ _ _ _ _ _ (by decide) (by decide)

/-- It is counted, up to 15. -/
theorem authFail_count (d : Dev) :
    d.authFail.fld F.DW_STAT_AFAILS 0 = if d.fld F.DW_STAT_AFAILS 0 < 15 then d.fld F.DW_STAT_AFAILS 0 + 1 else 15 := by
  have hset : d.authFail.fld F.DW_STAT_AFAILS 0 = satAdd (d.fld F.DW_STAT_AFAILS 0) 1 15 % 2 ^ 4 := by
    rw [Dev.authFail, fld_setFld_other, fld_setFld_self]
    · rfl
    all_goals decide
  rw [hset, satAdd]
  split <;> split <;> omega

end

/-- Settles O52: whether the port works, then AUTH, then the command's own check decide; a failure is two writes of DW_STAT. -/
theorem debugAuth : Obligations.DebugAuth := by
  refine ⟨fun v s => ?commands, fun ws s => ⟨fun h => next_congr (if_pos h), fun h => next_congr (if_neg h)⟩, fun s => ?verify,
    fun d => ⟨authFail_level d, authFail_auth d, authFail_count d⟩⟩
  case commands =>
    refine ⟨fun hup => ?_, fun hup h => ⟨next_congr (xAuthStart_locked hup h), next_congr (xAuthSubmit_locked hup h)⟩,
      fun hup h => ⟨next_congr (xAuthStart_verifying hup h), next_congr (xAuthSubmit_verifying hup h)⟩,
      fun hup h2 h3 hl => next_congr (xAuthStart_draws hup h2 h3 hl), fun hup h2 h3 hl => next_congr (xAuthStart_faults hup h2 h3 hl),
      fun hup h2 h3 h => next_congr (xAuthSubmit_due hup h2 h3 h), fun hup h2 h3 h => next_congr (xAuthSubmit_fails hup h2 h3 h),
      fun hup => next_congr (if_pos hup), fun hup h => next_congr (xAuthDrop_lowers hup h), fun hup h => next_congr (xAuthDrop_keeps hup h),
      fun hup h => next_congr (xNonce_reads hup (dwNonce_none h)), fun w r hup h => next_congr (xNonce_reads hup (dwNonce_word h)),
      fun hup h => next_congr (xNonce_reads hup (dwNonce_past h))⟩
    exact ⟨next_congr (if_pos (bnot_of_not hup)), next_congr (if_pos (bnot_of_not hup)), next_congr (if_neg hup),
      next_congr (if_pos (bnot_of_not hup)), next_congr (if_neg hup)⟩
  case verify =>
    exact ⟨fun h hok => next_congr (xVerificationComplete_grants h hok), fun h hok => next_congr (xVerificationComplete_fails h hok),
      fun h => next_congr (xVerificationComplete_none h), fun h => next_congr (if_pos h), fun h => next_congr (if_neg h)⟩

end Sys2Proof.Proofs

namespace Sys2Proof.Proofs

open Sys2Proof.Machine Sys2Proof.Safety

/-! Frames and bus accesses of the debug port (21 R555–R561, R564). -/

/-! ### Headers (R557, R559) -/

/-- A header that is not answered: the port does not work, or the header's end is wrong. -/
def HdrDead (d : Dev) (hdr : Nat) : Prop := d.dwUsable = false ∨ bitsOf hdr 15 14 ≠ 0

/-- A header that is good for the command `cmd`: with CRCERR set only a read of STAT is. -/
def HdrGood (d : Dev) (hdr cmd : Nat) : Prop :=
  hdr % 8 = 5 ∧ bitsOf hdr 7 3 = cmd ∧
    (d.flag F.DW_STAT_CRCERR 0 = false ∨ (bitsOf hdr 7 3 = 0x10 ∧ bitsOf hdr 13 8 = 0x03))

section
variable {hdr cmd : Nat} {d : Dev}

theorem hdrDead_iff : HdrDead d hdr ↔ ((!d.dwUsable) = true ∨ bitsOf hdr 15 14 ≠ 0) := by
  rw [HdrDead, Bool.not_eq_true']

theorem dwHeader_dead (h : HdrDead d hdr) : d.dwHeader hdr cmd = none := if_pos (hdrDead_iff.1 h)

section
variable (h : ¬ HdrDead d hdr)
include h

theorem dwHeader_good (hg : HdrGood d hdr cmd) : d.dwHeader hdr cmd = some true := by
  obtain ⟨h5, hc, hs⟩ := hg
  refine (if_neg (mt hdrDead_iff.2 h)).trans (congrArg some ?_)
  simpa [h5, hc] using hs

theorem dwHeader_bad (hg : ¬ HdrGood d hdr cmd) : d.dwHeader hdr cmd = some false := by
  refine (if_neg (mt hdrDead_iff.2 h)).trans (congrArg some (Bool.eq_false_iff.2 fun ht => hg ?_))
  simpa [HdrGood, and_assoc] using ht

end

theorem dwHeader_alive (h : ¬ HdrDead d hdr) (cmd : Nat) : ∃ ok, d.dwHeader hdr cmd = some ok :=
  ⟨_, if_neg (mt hdrDead_iff.2 h)⟩

/-! ### RGET and RPUT (R555–R559) -/

section
variable {data crc : Nat} {k : Clk} {r : R}

theorem xRget_dead (h : HdrDead d hdr) : xRget hdr d = d := by
  simp only [xRget, dwHeader_dead h]

theorem xRput_dead (h : HdrDead d hdr) : xRput hdr data crc k d = d := by
  simp only [xRput, dwHeader_dead h]

section
variable (h : ¬ HdrDead d hdr)
include h

theorem xRget_fault (hb : ¬ (HdrGood d hdr 0x10 ∧ dwIndex (bitsOf hdr 13 8) ≠ none)) : xRget hdr d = d.dwStatus 0 := by
  cases hi : dwIndex (bitsOf hdr 13 8) with
  | none =>
    obtain ⟨ok, hok⟩ := dwHeader_alive h 0x10
    simp only [xRget, hi, hok]
  | some r => simp only [xRget, hi, dwHeader_bad h fun hg => hb ⟨hg, by simp [hi]⟩, Bool.false_eq_true, if_false]

theorem xRput_fault (hb : ¬ (HdrGood d hdr 0x11 ∧ dwIndex (bitsOf hdr 13 8) ≠ none)) :
    xRput hdr data crc k d = d.dwStatus 0 := by
  cases hi : dwIndex (bitsOf hdr 13 8) with
  | none =>
    obtain ⟨ok, hok⟩ := dwHeader_alive h 0x11
    simp only [xRput, hi, hok]
  | some r => simp only [xRput, hi, dwHeader_bad h fun hg => hb ⟨hg, by simp [hi]⟩, Bool.not_false, if_true]

variable (hi : dwIndex (bitsOf hdr 13 8) = some r)
include hi

theorem xRget_reads (hg : HdrGood d hdr 0x10) : xRget hdr d = d.dwRead hdr r := by
  simp only [xRget, dwHeader_good h hg, hi, if_true]

theorem xRput_good (hg : HdrGood d hdr 0x11) : xRput hdr data crc k d =
    if dwBusReg r = true ∧ d.dwLevel = 0 then d.dwStatus 2
    else if dwBusReg r = true ∧ d.dwBusy = true then d.dwStatus 1
    else if crc % 256 ≠ crc8 hdr (data % 2 ^ 32) then (d.setFld F.DW_STAT_CRCERR 1 0).dwStatus 3
    else d.dwWrite r (data % 2 ^ 32) k := by
  simp only [xRput, dwHeader_good h hg, hi, Bool.not_true, Bool.false_eq_true, if_false]

end

theorem dwBusy_iff : d.dwBusy = true ↔ d.dwBus ≠ none := Option.isSome_iff_ne_none

/-! ### Reads of a port register (R558) -/

/-- A register of the data of a bus access. -/
def IsData (r : R) : Prop := r = .DW_DATA ∨ r = .DW_DATA_HI

theorem isData_iff : IsData r ↔ (decide (r = .DW_DATA) || decide (r = .DW_DATA_HI)) = true := by
  simp [IsData]

theorem dwRead_denied (h : dwBusReg r = true ∧ d.dwLevel = 0) : d.dwRead hdr r = d.dwStatus 2 := if_pos h

section
variable (hd : ¬ (dwBusReg r = true ∧ d.dwLevel = 0))
include hd

theorem dwRead_busy (h : IsData r ∧ d.dwBus ≠ none) : d.dwRead hdr r = d.dwStatus 1 :=
  (if_neg hd).trans (if_pos ⟨isData_iff.1 h.1, dwBusy_iff.2 h.2⟩)

variable (hb : ¬ (IsData r ∧ d.dwBus ≠ none))
include hb

theorem dwRead_faulty (h : IsData r ∧ d.dwFault = true) : d.dwRead hdr r = d.dwStatus 0 :=
  (if_neg hd).trans ((if_neg fun hx => hb ⟨isData_iff.2 hx.1, dwBusy_iff.1 hx.2⟩).trans (if_pos ⟨isData_iff.1 h.1, h.2⟩))

theorem dwRead_given (hf : ¬ (IsData r ∧ d.dwFault = true)) (h1 : r ≠ .DW_STAT) (h2 : r ≠ .DW_AUTH_CMD) (h3 : r ≠ .DW_AUTH_DATA)
    (h4 : r ≠ .DW_NONCE) : d.dwRead hdr r = d.dwData hdr (d.regN (r.at 0)) := by
  refine (if_neg hd).trans ((if_neg fun hx => hb ⟨isData_iff.2 hx.1, dwBusy_iff.1 hx.2⟩).trans
    ((if_neg fun hx => hf ⟨isData_iff.2 hx.1, hx.2⟩).trans ?_))
  split
  · exact absurd rfl h1
  · exact absurd rfl h4
  · exact absurd rfl h2
  · exact absurd rfl h3
  · rfl

end

theorem dwRead_stat : d.dwRead hdr .DW_STAT = d.dwData hdr d.dwStat := rfl

theorem dwRead_nonce : d.dwRead hdr .DW_NONCE = d.dwNonce hdr := rfl

theorem dwRead_auth (h : r = .DW_AUTH_CMD ∨ r = .DW_AUTH_DATA) : d.dwRead hdr r = d.dwData hdr 0 := by
  rcases h with rfl | rfl <;> rfl

end

end

/-! ### BUSCTL (R561, R564) -/

section
variable {v : Nat} {d : Dev} (hup : d.dwUsable = true)
include hup

theorem xBusctl_denied (hl : d.dwLevel = 0) : xBusctl v d = d.dwStatus 2 := (if_neg (not_bnot_of hup)).trans (if_pos hl)

variable (hl : d.dwLevel ≠ 0)
include hl

theorem xBusctl_busy (hb : d.dwBus ≠ none) : xBusctl v d = d.dwStatus 1 :=
  (if_neg (not_bnot_of hup)).trans ((if_neg hl).trans (if_pos (dwBusy_iff.2 hb)))

variable (hb : d.dwBus = none)
include hb

theorem xBusctl_size (hs : 1 < bitsOf v 29 28) : xBusctl v d = d.dwStatus 0 :=
  (if_neg (not_bnot_of hup)).trans ((if_neg hl).trans ((if_neg (mt dwBusy_iff.1 (not_not.2 hb))).trans (if_pos hs)))

variable (hs : bitsOf v 29 28 ≤ 1)
include hs

theorem xBusctl_free : xBusctl v d =
    if v.testBit 31 = false then (d.setRegN (R.DW_BUSCTL.at 0) (v &&& 0x78000000)).dwStatus 3
    else if (!d.dwAllows (d.dwAccess v)) = true then d.dwStatus 2
    else { d.setRegN (R.DW_BUSCTL.at 0) (v &&& 0x78000000) with dwBus := some (d.dwAccess v), dwFault := false }.dwStatus 3 :=
  (if_neg (not_bnot_of hup)).trans ((if_neg hl).trans ((if_neg (mt dwBusy_iff.1 (not_not.2 hb))).trans (if_neg (Nat.not_lt.2 hs))))

theorem xBusctl_set (hg : ¬ v.testBit 31 = true) : xBusctl v d = (d.setRegN (R.DW_BUSCTL.at 0) (v &&& 0x78000000)).dwStatus 3 :=
  (xBusctl_free hup hl hb hs).trans (if_pos (Bool.eq_false_iff.2 hg))

variable (hg : v.testBit 31 = true)
include hg

theorem xBusctl_barred (hm : ¬ d.dwAllows (d.dwAccess v) = true) : xBusctl v d = d.dwStatus 2 :=
  (xBusctl_free hup hl hb hs).trans ((if_neg (ne_false_of_eq_true hg)).trans (if_pos (bnot_of_not hm)))

theorem xBusctl_starts (hm : d.dwAllows (d.dwAccess v) = true) : xBusctl v d =
    { d.setRegN (R.DW_BUSCTL.at 0) (v &&& 0x78000000) with dwBus := some (d.dwAccess v), dwFault := false }.dwStatus 3 :=
  (xBusctl_free hup hl hb hs).trans ((if_neg (ne_false_of_eq_true hg)).trans (if_neg (not_bnot_of hm)))

end

theorem dwAllows_iff (d : Dev) (a : Access) : d.dwAllows a = true ↔
    d.dwLevel = 2 ∨ (d.dwLevel = 1 ∧ a.write = false ∧ d.observeReads a.addr a.size = true) := by
  simp [Dev.dwAllows, and_assoc]

/-! ### An access completes, or is cancelled (R564) -/

section
variable {d : Dev} {a : Access} {c : RespCode} {e : HbmErr} {k : Clk} {n : Nat}

/-- The port after the response `c` of its access. -/
def dwAnswered (d : Dev) (c : RespCode) (bad : Bool) : Dev :=
  { d with dwBus := none, dwFault := bad }.setFld F.DW_STAT_BRESP c.num 0

theorem respCode_bad (c : RespCode) : decide (2 ≤ c.num) = true ↔ c = .slverr ∨ c = .decerr := by cases c <;> decide

theorem dwFinish_bad (h : c = .slverr ∨ c = .decerr) : d.dwFinish a c n = (dwAnswered d c true).dwAdvance a := by
  simp only [Dev.dwFinish, (respCode_bad c).2 h, Bool.or_true, if_true, dwAnswered]

section
variable (h : ¬ (c = .slverr ∨ c = .decerr))
include h

theorem dwFinish_write (hw : a.write = true) : d.dwFinish a c n = (dwAnswered d c false).dwAdvance a := by
  simp only [Dev.dwFinish, Bool.eq_false_iff.2 (mt (respCode_bad c).1 h), hw, Bool.true_or, if_true, dwAnswered]

theorem dwFinish_read (hw : a.write = false) : d.dwFinish a c n =
    let got := (dwAnswered d c false).setRegN (R.DW_DATA.at 0) (n % 2 ^ 32)
    (if a.size = 8 then got.setRegN (R.DW_DATA_HI.at 0) (n / 2 ^ 32 % 2 ^ 32) else got).dwAdvance a := by
  simp only [Dev.dwFinish, Bool.eq_false_iff.2 (mt (respCode_bad c).1 h), hw, Bool.or_self, Bool.false_eq_true, if_false, dwAnswered]

end

theorem xBusAccessComplete_none (h : d.dwBus = none) : xBusAccessComplete e k d = d := by simp only [xBusAccessComplete, h]

theorem xBusAccessComplete_done (h : d.dwBus = some a) (hb : d.baskingOn a = []) : xBusAccessComplete e k d =
    (d.dwPerform a e k).1.dwFinish a (d.dwPerform a e k).2.1 (d.dwPerform a e k).2.2 := by
  simp only [xBusAccessComplete, h, hb]

theorem xBusAccessComplete_wakes {x : Nat × Nat} {l : List (Nat × Nat)} (h : d.dwBus = some a) (hb : d.baskingOn a = x :: l) :
    xBusAccessComplete e k d = (x :: l).foldl (fun y w => y.startWake w.1 w.2) d := by
  simp only [xBusAccessComplete, h, hb]

variable {hdr : Nat} {left : Bool}

theorem xDbgCancel_dead (h : HdrDead d hdr) : xDbgCancel hdr left e k d = d := by
  simp only [xDbgCancel, dwHeader_dead h]

/-- A good header of a CANCEL frame. -/
def CancelGood (d : Dev) (hdr : Nat) : Prop :=
  hdr % 8 = 5 ∧ bitsOf hdr 7 3 = 0x1C ∧ d.flag F.DW_STAT_CRCERR 0 = false ∧ bitsOf hdr 13 8 = 0

theorem cancelGood_iff : CancelGood d hdr ↔ HdrGood d hdr 0x1C ∧ bitsOf hdr 13 8 = 0 := by
  constructor
  · rintro ⟨h5, hc, hs, h0⟩
    exact ⟨⟨h5, hc, .inl hs⟩, h0⟩
  · rintro ⟨⟨h5, hc, hs⟩, h0⟩
    exact ⟨h5, hc, hs.resolve_right fun hx => by omega, h0⟩

variable (h : ¬ HdrDead d hdr)
include h

theorem xDbgCancel_fault (hb : ¬ CancelGood d hdr) : xDbgCancel hdr left e k d = d.dwStatus 0 := by
  rw [cancelGood_iff, not_and_or] at hb
  by_cases hg : HdrGood d hdr 0x1C
  · have h0 := hb.resolve_left (not_not.2 hg)
    simp only [xDbgCancel, dwHeader_good h hg, h0, or_true, if_true, ne_eq, not_false_eq_true]
  · simp only [xDbgCancel, dwHeader_bad h hg, Bool.not_false, true_or, if_true]

variable (hg : CancelGood d hdr)
include hg

theorem xDbgCancel_none (hb : d.dwBus = none) : xDbgCancel hdr left e k d = d.dwStatus 3 := by
  obtain ⟨hg, h0⟩ := cancelGood_iff.1 hg
  simp only [xDbgCancel, dwHeader_good h hg, h0, hb, Bool.not_true, Bool.false_eq_true, ne_eq, not_true_eq_false, or_self, if_false]

theorem xDbgCancel_ends (hb : d.dwBus = some a) : xDbgCancel hdr left e k d =
    { (if left then (d.dwPerform a e k).1.dwAdvance a else d) with dwBus := none }.dwStatus 3 := by
  obtain ⟨hg, h0⟩ := cancelGood_iff.1 hg
  simp only [xDbgCancel, dwHeader_good h hg, h0, hb, Bool.not_true, Bool.false_eq_true, ne_eq, not_true_eq_false, or_self, if_false]

end

/-- Settles O53: the header decides whether a frame is answered and is good; then its register, the level and the access that
runs decide. -/
theorem debugFrames : Obligations.DebugFrames := by
  refine ⟨fun hdr data crc s => ?frame, fun s => ⟨fun h => next_congr (if_pos h), fun h => next_congr (if_neg (ne_true_of_eq_false h))⟩,
    fun v s => ?busctl, fun e s => ?complete, fun hdr left e s => ?cancel⟩
  case frame =>
    refine ⟨fun h => ⟨next_congr (xRget_dead h), next_congr (xRput_dead h)⟩,
      fun ⟨h, hb⟩ => next_congr (xRget_fault h fun hx => hb ⟨⟨h, hx.1⟩, hx.2⟩),
      fun ⟨h, hb⟩ => next_congr (xRput_fault h fun hx => hb ⟨⟨h, hx.1⟩, hx.2⟩), fun r ⟨h, hg⟩ hi => ?read, fun r ⟨h, hg⟩ hi => ?write⟩
    case read =>
      have hr {d' : Dev} (hd : s.d.dwRead hdr r = d') : exec (.rget hdr) s = .next { s with d := d' } :=
        next_congr ((xRget_reads h hi hg).trans hd)
      exact ⟨fun hd => hr (dwRead_denied hd), fun hd hb => hr (dwRead_busy hd hb), fun hd hb hf => hr (dwRead_faulty hd hb hf),
        fun h1 => hr (h1 ▸ dwRead_stat), fun h1 => hr (dwRead_auth h1), fun h1 => hr (h1 ▸ dwRead_nonce),
        fun hd hb hf h1 h2 h3 h4 => hr (dwRead_given hd hb hf h1 h2 h3 h4)⟩
    case write =>
      have hw {d' : Dev} (hd : (if dwBusReg r = true ∧ s.d.dwLevel = 0 then s.d.dwStatus 2
          else if dwBusReg r = true ∧ s.d.dwBusy = true then s.d.dwStatus 1
          else if crc % 256 ≠ crc8 hdr (data % 2 ^ 32) then (s.d.setFld F.DW_STAT_CRCERR 1 0).dwStatus 3
          else s.d.dwWrite r (data % 2 ^ 32) s.clk) = d') : exec (.rput hdr data crc) s = .next { s with d := d' } :=
        next_congr ((xRput_good h hi hg).trans hd)
      have hidle (hb : ¬ (dwBusReg r = true ∧ s.d.dwBus ≠ none)) : ¬ (dwBusReg r = true ∧ s.d.dwBusy = true) :=
        mt (And.imp_right dwBusy_iff.1) hb
      exact ⟨fun hd => hw (if_pos hd), fun hd hb => hw ((if_neg hd).trans (if_pos (hb.imp_right dwBusy_iff.2))),
        fun hd hb hc => hw ((if_neg hd).trans ((if_neg (hidle hb)).trans (if_neg (not_not.2 hc)))),
        fun hd hb hc => hw ((if_neg hd).trans ((if_neg (hidle hb)).trans (if_pos hc)))⟩
  case busctl =>
    exact ⟨fun hup => next_congr (if_pos (bnot_of_not hup)), fun hup hl => next_congr (xBusctl_denied hup (not_not.1 hl)),
      fun hup hl hb => next_congr (xBusctl_busy hup hl hb), fun hup hl hb hs => next_congr (xBusctl_size hup hl hb hs),
      fun hup hl hb hs hg => next_congr (xBusctl_set hup hl hb hs hg),
      fun hup hl hb hs hg hm => next_congr (xBusctl_barred hup hl hb hs hg (mt (dwAllows_iff _ _).1 hm)),
      fun hup hl hb hs hg hm => next_congr (xBusctl_starts hup hl hb hs hg ((dwAllows_iff _ _).2 hm))⟩
  case complete =>
    refine ⟨fun h => next_congr (xBusAccessComplete_none h), fun a h hb => ?_,
      fun a x l h hb => next_congr (xBusAccessComplete_wakes h hb)⟩
    have hc := xBusAccessComplete_done (e := e) (k := s.clk) h hb
    exact ⟨fun hbad => next_congr (hc.trans (dwFinish_bad hbad)), fun hbad hw => next_congr (hc.trans (dwFinish_write hbad hw)),
      fun hbad hw hn => next_congr (hc.trans ((dwFinish_read hbad hw).trans (congrArg (Dev.dwAdvance · a) (if_neg hn)))),
      fun hbad hw hn => next_congr (hc.trans ((dwFinish_read hbad hw).trans (congrArg (Dev.dwAdvance · a) (if_pos hn))))⟩
  case cancel =>
    exact ⟨fun h => next_congr (xDbgCancel_dead h), fun h hb => next_congr (xDbgCancel_fault h hb),
      fun h hg hb => next_congr (xDbgCancel_none h hg hb),
      fun a h hg hb hl => next_congr ((xDbgCancel_ends h hg hb).trans (by rw [hl]; rfl)),
      fun a h hg hb hl => next_congr ((xDbgCancel_ends h hg hb).trans (by rw [hl]; rfl))⟩

end Sys2Proof.Proofs

namespace Sys2Proof.Proofs

open Sys2Proof.Machine Sys2Proof.Safety

/-! Micro-ops of a media channel (15 R416, R423, R428, R429, R432; 16 R462, R464, R472). -/

/-! ### When a micro-op runs (R429; 21 DBG-6) -/

section
variable {d d' : Dev} {now ch x opc : Nat} {c : MCtx} {f : MCtx → Nat → Dev}

/-- A unit whose action would leave the chip leaves it. -/
theorem unlessHalted_still (h : d' = d) : d.unlessHalted d' = d := by rw [h, unlessHalted_self]

theorem mop_atOp (h : atOp d ch x opc c) : d.unlessHalted (d.mop now ch x opc false f) = f c c.op := by
  obtain ⟨hrun, hc, hop, hstop, hst⟩ := h
  simp only [unlessHalted_running hrun, Dev.mop, hc, hop, hstop, if_pos hst, ne_eq, not_true_eq_false, Bool.false_eq_true, or_self,
    if_false]

theorem mop_not_atOp (h : ∀ c, ¬ atOp d ch x opc c) : d.unlessHalted (d.mop now ch x opc false f) = d := by
  cases hrun : d.sysHalt with
  | true => exact if_pos hrun
  | false =>
    refine unlessHalted_still ?_
    cases hc : d.mctx ch x with
    | none => simp only [Dev.mop, hc]
    | some c =>
      by_cases hop : c.op % 256 ≠ opc ∨ c.stop = true
      · simp only [Dev.mop, hc, if_pos hop]
      · obtain ⟨heq, hstop⟩ := not_or.1 hop
        have hst : ¬ (c.st = .hold ∨ c.st = .need) := fun hst =>
          h c ⟨hrun, hc, not_not.1 heq, Bool.eq_false_iff.2 hstop, hst⟩
        simp only [Dev.mop, hc, if_neg hop, if_neg hst, Bool.false_eq_true, if_false]

theorem mop_onBus (h : onBus d ch x opc false c) : d.unlessHalted (d.mop now ch x opc true f) = f c c.op := by
  obtain ⟨hrun, hc, hop, hstop, hst, hbad⟩ := h
  simp only [unlessHalted_running hrun, Dev.mop, hc, hop, hstop, hst, hbad, ne_eq, not_true_eq_false, Bool.false_eq_true, or_self,
    if_true, if_false]

/-- A bus cycle that does not find its lane, its channel or its target ends the list (16 R472). -/
theorem mop_lost (h : onBus d ch x opc true c) : d.unlessHalted (d.mop now ch x opc true f) = d.endCtx now ch x 7 c.pc := by
  obtain ⟨hrun, hc, hop, hstop, hst, hbad⟩ := h
  simp only [unlessHalted_running hrun, Dev.mop, hc, hop, hstop, hst, hbad, ne_eq, not_true_eq_false, Bool.false_eq_true, or_self,
    if_true, if_false]

theorem mop_not_onBus (h : ∀ b c, ¬ onBus d ch x opc b c) : d.unlessHalted (d.mop now ch x opc true f) = d := by
  cases hrun : d.sysHalt with
  | true => exact if_pos hrun
  | false =>
    refine unlessHalted_still ?_
    cases hc : d.mctx ch x with
    | none => simp only [Dev.mop, hc]
    | some c =>
      by_cases hop : c.op % 256 ≠ opc ∨ c.stop = true
      · simp only [Dev.mop, hc, if_pos hop]
      · obtain ⟨heq, hstop⟩ := not_or.1 hop
        have hst : c.st ≠ .hold := fun hst => h _ c ⟨hrun, hc, not_not.1 heq, Bool.eq_false_iff.2 hstop, hst, rfl⟩
        simp only [Dev.mop, hc, if_neg hop, if_pos hst, if_true]

end

/-! ### DELAY and BRSTAT (R428, R429) -/

section
variable {d : Dev} {ch x : Nat} {c : MCtx} {k : Clk}

theorem xDelayExpiry_ends (hc : d.mctx ch x = some c) (h : c.st = .delay) :
    xDelayExpiry ch x k d = d.mput k.tick ch x { c.next with st := .need } := by
  simp only [xDelayExpiry, hc, if_pos h]

theorem xDelayExpiry_still (h : ∀ c, d.mctx ch x = some c → c.st ≠ .delay) : xDelayExpiry ch x k d = d := by
  cases hc : d.mctx ch x with
  | none => simp only [xDelayExpiry, hc]
  | some c => simp only [xDelayExpiry, hc, if_neg (h c hc)]

/-- The comparison of BRSTAT, which NOT turns around. -/
theorem brstat_hit_iff (c : MCtx) : (decide (c.sr &&& opByte c.op 2 = opByte c.op 3) != c.op.testBit 8) = true ↔
    (c.sr &&& opByte c.op 2 = opByte c.op 3 ↔ c.op.testBit 8 = false) := by
  cases c.op.testBit 8 <;> simp

theorem brstat_runs (h : atOp d ch x 0x09 c) : d.unlessHalted (xBrstat ch x k d) =
    d.mput k.tick ch x (if decide (c.sr &&& opByte c.op 2 = opByte c.op 3) != c.op.testBit 8
      then { c.next with pc := bitsOf c.op 47 32 } else c.next) := mop_atOp h

/-! ### CMD (R432) -/

/-- A confirm is driven only for an operation of its kind that is open and not confirmed. -/
def ConfirmFits (d : Dev) (ch : Nat) (c : MCtx) : Prop :=
  let w := d.lunop ch c.u
  w.getLsbD 63 = true ∧ w.getLsbD 62 = false ∧ c.conf = false ∧
    ((d.isConfirm ch (opByte c.op 2) false = true ∧ getBits w 60 59 = 1) ∨
      (d.isConfirm ch (opByte c.op 2) true = true ∧ getBits w 60 59 = 2))

/-- The command byte confirms no operation. -/
def PlainCmd (d : Dev) (ch : Nat) (c : MCtx) : Prop :=
  ¬ d.isConfirm ch (opByte c.op 2) false = true ∧ ¬ d.isConfirm ch (opByte c.op 2) true = true

theorem plainCmd_iff : PlainCmd d ch c ↔
    (!d.isConfirm ch (opByte c.op 2) false && !d.isConfirm ch (opByte c.op 2) true) = true := by
  simp [PlainCmd]

theorem confirmFits_iff : ConfirmFits d ch c ↔
    ((d.lunop ch c.u).getLsbD 63 && !(d.lunop ch c.u).getLsbD 62 && !c.conf &&
      ((d.isConfirm ch (opByte c.op 2) false && getBits (d.lunop ch c.u) 60 59 == 1) ||
        (d.isConfirm ch (opByte c.op 2) true && getBits (d.lunop ch c.u) 60 59 == 2))) = true := by
  simp only [ConfirmFits, Bool.and_eq_true, Bool.or_eq_true, Bool.not_eq_true', beq_iff_eq, and_assoc]

section
variable (h : onBus d ch x 0x02 false c)
include h

theorem cmd_plain (hp : PlainCmd d ch c) : d.unlessHalted (xCmd ch x k d) =
    let p := d.drive ch c (recCmd (opByte c.op 2)) 0
    p.1.mput k.tick ch x p.2.next := (mop_onBus h).trans (if_pos (plainCmd_iff.1 hp))

variable (hp : ¬ PlainCmd d ch c)
include hp

theorem cmd_sequence (hf : ¬ ConfirmFits d ch c) : d.unlessHalted (xCmd ch x k d) = d.endCtx k.tick ch x 4 c.pc :=
  (mop_onBus h).trans ((if_neg (mt plainCmd_iff.2 hp)).trans (if_pos (bnot_of_not (mt confirmFits_iff.2 hf))))

variable (hf : ConfirmFits d ch c)
include hf

theorem cmd_fits : d.unlessHalted (xCmd ch x k d) =
    if d.pfSet then d.endCtx k.tick ch x 9 c.pc
    else if !d.flag F.MSQ_CHCTRL_WPN (mediaPlace ch).1 (mediaPlace ch).2 then d.endCtx k.tick ch x 0x0A c.pc
    else
      let p := d.drive ch c (recCmd (opByte c.op 2)) 1
      if ch < 64 then (p.1.confirm k.tick ch c.u).mput k.tick ch x p.2.next
      else p.1.mput k.tick ch x { p.2.next with conf := true } :=
  (mop_onBus h).trans ((if_neg (mt plainCmd_iff.2 hp)).trans (if_neg (not_bnot_of (confirmFits_iff.1 hf))))

theorem cmd_powerFail (hpf : d.pfSet = true) : d.unlessHalted (xCmd ch x k d) = d.endCtx k.tick ch x 9 c.pc :=
  (cmd_fits h hp hf).trans (if_pos hpf)

variable (hpf : d.pfSet = false)
include hpf

theorem cmd_protected (hw : ¬ d.flag F.MSQ_CHCTRL_WPN (mediaPlace ch).1 (mediaPlace ch).2 = true) :
    d.unlessHalted (xCmd ch x k d) = d.endCtx k.tick ch x 0x0A c.pc :=
  (cmd_fits h hp hf).trans ((if_neg (ne_true_of_eq_false hpf)).trans (if_pos (bnot_of_not hw)))

theorem cmd_confirms (hw : d.flag F.MSQ_CHCTRL_WPN (mediaPlace ch).1 (mediaPlace ch).2 = true) :
    d.unlessHalted (xCmd ch x k d) =
      let p := d.drive ch c (recCmd (opByte c.op 2)) 1
      if ch < 64 then (p.1.confirm k.tick ch c.u).mput k.tick ch x p.2.next
      else p.1.mput k.tick ch x { p.2.next with conf := true } :=
  (cmd_fits h hp hf).trans ((if_neg (ne_true_of_eq_false hpf)).trans (if_neg (not_bnot_of hw)))

end

/-! ### DOUT and DIN (R416, R423) -/

theorem dout_tether (h : onBus d ch x 0x04 false c) (hch : 64 ≤ ch) (ue : Option Nat) (ce : Nat) :
    d.unlessHalted (xDout ch x ue ce k d) =
      let p := d.drive ch c (recDout (bitsOf c.op 95 64)) (bitsOf c.op 63 32)
      p.1.mput k.tick ch x p.2.next := (mop_onBus h).trans (if_pos hch)

theorem dout_local (h : onBus d ch x 0x04 false c) (hch : ch < 64) (ce : Nat) : d.unlessHalted (xDout ch x none ce k d) =
    let d1 := d.chbufCe ch ce
    let p := d1.drive ch c (recDout (bitsOf c.op 95 64)) (bitsOf c.op 63 32)
      (d1.chbufBytes (ch * 0x40000 + bitsOf c.op 63 32) (bitsOf c.op 95 64))
    p.1.mput k.tick ch x p.2.next := (mop_onBus h).trans (if_neg (Nat.not_le.2 hch))

/-- An uncorrectable word of the buffer stops DOUT. -/
theorem dout_uncorrectable (h : onBus d ch x 0x04 false c) (hch : ch < 64) (u ce : Nat) :
    d.unlessHalted (xDout ch x (some u) ce k d) =
      let d1 := d.chbufCe ch ce
      let n := Nat.min u (bitsOf c.op 95 64)
      (d1.drive ch c (recDout n) (bitsOf c.op 63 32) (d1.chbufBytes (ch * 0x40000 + bitsOf c.op 63 32) n)).1.endCtx k.tick ch x 6 c.pc :=
  (mop_onBus h).trans (if_neg (Nat.not_le.2 hch))

section
variable {data : List Byte} (h : onBus d ch x 0x05 false c)
include h

theorem din_tether (hch : 64 ≤ ch) : d.unlessHalted (xDin ch x data k d) =
    let p := d.drive ch c (recDin (bitsOf c.op 95 64)) (bitsOf c.op 63 32)
    p.1.mput k.tick ch x p.2.next := (mop_onBus h).trans (if_pos hch)

theorem din_local (hch : ch < 64) (hl : data.length = bitsOf c.op 95 64) : d.unlessHalted (xDin ch x data k d) =
    let p := d.drive ch c (recDin (bitsOf c.op 95 64)) (bitsOf c.op 63 32)
    (p.1.setChbuf (ch * 0x40000 + bitsOf c.op 63 32) data).mput k.tick ch x p.2.next :=
  (mop_onBus h).trans ((if_neg (Nat.not_le.2 hch)).trans (if_neg (not_not.2 hl)))

theorem din_other (hch : ch < 64) (hl : data.length ≠ bitsOf c.op 95 64) : d.unlessHalted (xDin ch x data k d) = d :=
  (mop_onBus h).trans ((if_neg (Nat.not_le.2 hch)).trans (if_pos hl))

end

end

/-- Settles O33: each micro-op runs where its context stands before it; CMD is decided by what its byte confirms, DOUT and DIN by
the channel. -/
theorem microOps : Obligations.MicroOps := by
  refine ⟨fun ch x s => ?plain, fun ch x s => ?bus, fun ch x ue n data s => ?lost⟩
  case plain =>
    refine ⟨fun c h => next_congr (mop_atOp h), fun h => next_congr (mop_not_atOp h), fun c h => next_congr (mop_atOp h),
      fun h => next_congr (mop_not_atOp h),
      fun c hrun hc hst => next_congr ((unlessHalted_running hrun).trans (xDelayExpiry_ends hc hst)),
      fun h => next_congr (unlessHalted_still (xDelayExpiry_still h)), fun c h => ?_, fun h => next_congr (mop_not_atOp h)⟩
    exact ⟨fun hit => next_congr ((brstat_runs h).trans (congrArg _ (if_pos ((brstat_hit_iff c).2 hit)))),
      fun hit => next_congr ((brstat_runs h).trans (congrArg _ (if_neg (mt (brstat_hit_iff c).1 hit))))⟩
  case bus =>
    refine ⟨fun c h => ?cmd, fun c h => next_congr (mop_onBus h), fun c n h => ?dout, fun c data h => ?din⟩
    case cmd =>
      have hn {p q : Prop} (hp : p ∨ q) : ¬ (¬ p ∧ ¬ q) := fun hx => hp.elim hx.1 hx.2
      exact ⟨fun hp he => next_congr (cmd_plain h ⟨hp, he⟩), fun hp hf => next_congr (cmd_sequence h (hn hp) hf),
        fun hp hf hpf => next_congr (cmd_powerFail h (hn hp) hf hpf),
        fun hp hf hpf hw => next_congr (cmd_protected h (hn hp) hf hpf hw),
        fun hp hf hpf hw hch => next_congr ((cmd_confirms h (hn hp) hf hpf hw).trans (if_pos hch)),
        fun hp hf hpf hw hch => next_congr ((cmd_confirms h (hn hp) hf hpf hw).trans (if_neg (Nat.not_lt.2 hch)))⟩
    case dout =>
      exact ⟨fun ue hch => next_congr (dout_tether h hch ue n), fun hch => next_congr (dout_local h hch n),
        fun u hch => next_congr (dout_uncorrectable h hch u n)⟩
    case din =>
      exact ⟨fun hch => next_congr (din_tether h hch), fun hch hl => next_congr (din_local h hch hl),
        fun hch hl => next_congr (din_other h hch hl)⟩
  case lost =>
    exact ⟨fun c h => next_congr (mop_lost h), fun c h => next_congr (mop_lost h), fun c h => next_congr (mop_lost h),
      fun c h => next_congr (mop_lost h), fun h => next_congr (mop_not_onBus h), fun h => next_congr (mop_not_onBus h),
      fun h => next_congr (mop_not_onBus h), fun h => next_congr (mop_not_onBus h)⟩

end Sys2Proof.Proofs

namespace Sys2Proof.Proofs

open Sys2Proof.Machine Sys2Proof.Safety

/-! Waits and composite micro-ops of a channel (15 R428–R431, R434, R444; 16 R462–R464, R472; 17 R481–R483). -/

/-! ### WAITRB (R429, R434) -/

section
variable {d : Dev} {ch x sr meas : Nat} {c : MCtx} {k : Clk}

theorem waitrb_begins (h : atOp d ch x 0x06 c) : d.unlessHalted (xWaitrb ch x sr k d) =
    let f := d.flush ch x c
    f.1.setMctx ch x (some { f.2 with st := .waitrb, polled := false }) := by
  obtain ⟨hrun, hc, hop, hstop, hst⟩ := h
  simp only [unlessHalted_running hrun, xWaitrb, hc, hop, hstop, hst, ne_eq, not_true_eq_false, and_self, if_true, if_false]

theorem xWaitrb_none (hc : d.mctx ch x = none) : xWaitrb ch x sr k d = d := by simp only [xWaitrb, hc]

theorem xReadySeen_none (hc : d.mctx ch x = none) : xReadySeen ch x sr meas k d = d := by simp only [xReadySeen, hc]

theorem xWaitrbTimeout_none (hc : d.mctx ch x = none) : xWaitrbTimeout ch x k d = d := by simp only [xWaitrbTimeout, hc]

section
variable (hc : d.mctx ch x = some c)
include hc

theorem xWaitrb_other (hop : c.op % 256 ≠ 0x06) : xWaitrb ch x sr k d = d := by simp only [xWaitrb, hc, if_pos hop]

theorem xWaitrbTimeout_waiting (hst : c.st = .waitrb) : xWaitrbTimeout ch x k d = d.endCtx k.tick ch x 2 c.pc := by
  simp only [xWaitrbTimeout, hc, if_pos hst]

theorem xWaitrbTimeout_still (hst : c.st ≠ .waitrb) : xWaitrbTimeout ch x k d = d := by
  simp only [xWaitrbTimeout, hc, if_neg hst]

/-- In the wait a poll falls due, but PIN polls once. -/
theorem xWaitrb_waiting (hop : c.op % 256 = 0x06) (hst : c.st = .waitrb) : xWaitrb ch x sr k d =
    let mode := opByte c.op 2
    if mode = 0 ∧ c.polled = true then d
    else if ch < 64 then
      (d.send (.nand ch c.ce (d.pollRec ch mode (bitsOf c.op 95 64)) [])).setMctx ch x (some { c with sr := sr % 256, polled := true })
    else if d.linkBad ch c then d.endCtx k.tick ch x 7 c.pc
    else if d.tetBusy ch x = true ∨ (mode = 0 ∧ d.rbHigh ch c = false) then d
    else d.poll ch x c mode (bitsOf c.op 95 64) := by
  simp only [xWaitrb, hc, hop, hst, ne_eq, not_true_eq_false, reduceCtorEq, false_and, or_self, false_or, if_false]

/-! ### READY_SEEN (R434) -/

/-- The status that ends a wait came with the last RESP, or with PIN's one poll, or is read now. -/
theorem xReadySeen_eq : xReadySeen ch x sr meas k d =
    let old := 64 ≤ ch ∨ (opByte c.op 2 = 0 ∧ c.polled = true)
    let st := if old then c.sr else sr % 256
    if c.st = .waitrb ∧ (old → c.polled = true) ∧ d.tetBusy ch x = false ∧ waitReady c.op st = true then
      let d1 := if old then d else d.send (.nand ch c.ce (d.pollRec ch (opByte c.op 2) (bitsOf c.op 95 64)) [])
      let c1 : MCtx := { c.next with sr := st, st := .need }
      if c.op.testBit 8 = true ∧ (d.lunop ch c.u).getLsbD 62 = true then
        (d1.closeOp ch c.u).mput k.tick ch x { c1 with meas := some (Nat.min meas (2 ^ 32 - 1)) }
      else d1.mput k.tick ch x c1
    else d := by
  have hold : (decide (64 ≤ ch) || (decide (opByte c.op 2 = 0) && c.polled)) = true ↔
      64 ≤ ch ∨ (opByte c.op 2 = 0 ∧ c.polled = true) := by simp
  have hends (st : Nat) : (c.st ≠ .waitrb ∨ ((64 ≤ ch ∨ (opByte c.op 2 = 0 ∧ c.polled = true)) ∧ c.polled = false) ∨
      d.tetBusy ch x = true ∨ waitReady c.op st = false) ↔ ¬ (c.st = .waitrb ∧
        (64 ≤ ch ∨ (opByte c.op 2 = 0 ∧ c.polled = true) → c.polled = true) ∧ d.tetBusy ch x = false ∧ waitReady c.op st = true) := by
    simp only [not_and_or, Classical.not_imp, Bool.not_eq_true, Bool.not_eq_false, ne_eq]
  simp only [xReadySeen, hc, hold, hends, ite_not]

end

end

/-! ### Lookups (17 R481–R483) -/

section
variable {d : Dev} {ch x : Nat} {c : MCtx} {k : Clk}

theorem xCalLookup_none (hc : d.mctx ch x = none) : xCalLookup ch x k d = d := by simp only [xCalLookup, hc]

/-- A context asks for a lookup where it has reached OFFSETS without one. -/
def AsksLookup (c : MCtx) : Prop := c.op % 256 = 0x0A ∧ c.look = none ∧ (c.st = .need ∨ c.st = .hold)

theorem asksLookup_iff (c : MCtx) :
    AsksLookup c ↔ ¬ (c.op % 256 ≠ 0x0A ∨ c.look ≠ none ∨ ¬ (c.st = .need ∨ c.st = .hold)) := by
  rw [AsksLookup]
  tauto

theorem xCalLookup_asks (hc : d.mctx ch x = some c) (h : AsksLookup c) : xCalLookup ch x k d =
    let r := d.calLookup (mediaPlace ch).1 (mediaPlace ch).2 c.u (opByte c.op 2) (opByte c.op 3 % 16) k.tick
    r.1.setMctx ch x (some { c with look := some r.2.1, dsh := r.2.2 }) := by
  simp only [xCalLookup, hc, if_neg ((asksLookup_iff c).1 h)]

theorem xCalLookup_still (hc : d.mctx ch x = some c) (h : ¬ AsksLookup c) : xCalLookup ch x k d = d := by
  simp only [xCalLookup, hc, if_pos (not_not.1 (mt (asksLookup_iff c).2 h))]

end

/-! ### Composite micro-ops (R428, R430, R444; 16 R462, R464) -/

section
variable {d : Dev} {now ch x opc waits sr : Nat} {inp post : MCtx → MCtx} {c : MCtx}

theorem linkBad_local (hch : ch < 64) : d.linkBad ch c = false := if_pos hch

/-- Cycles on the pins of a local channel leave the context. -/
theorem driveAll_local_ctx (hch : ch < 64) (rs : List Nat) : (d.driveAll ch c rs).2 = c := by
  have go (p : Dev × MCtx) : (rs.foldl (fun p r => p.1.drive ch p.2 r 0) p).2 = p.2 := by
    induction rs generalizing p with
    | nil => rfl
    | cons r rs ih => rw [List.foldl_cons, ih, Dev.drive, if_pos hch]
  exact go (d, c)

theorem composite_none (hc : d.mctx ch x = none) : d.composite now ch x opc waits sr inp post = d := by
  simp only [Dev.composite, hc]

theorem composite_other (h : ∀ c, d.mctx ch x = some c → c.op % 256 ≠ opc) : d.composite now ch x opc waits sr inp post = d := by
  cases hc : d.mctx ch x with
  | none => exact composite_none hc
  | some c => simp only [Dev.composite, hc, h c hc, ne_eq, not_false_eq_true, true_or, if_true]

theorem composite_lost (h : onBus d ch x opc true c) : d.unlessHalted (d.composite now ch x opc waits sr inp post) =
    d.endCtx now ch x 7 c.pc := by
  obtain ⟨hrun, hc, hop, hstop, hst, hbad⟩ := h
  have hch : ¬ ch < 64 := fun hch => Bool.noConfusion ((linkBad_local hch).symm.trans hbad)
  simp only [unlessHalted_running hrun, Dev.composite, hc, hop, hstop, hst, hbad, if_neg hch, ne_eq, not_true_eq_false,
    Bool.false_eq_true, false_and, or_self, if_true, if_false]

section
variable (h : onBus d ch x opc false c)
include h

/-- The cycles of the first groups of a composite micro-op on a local channel, up to the wait that did not end in time. -/
def localCycles (d : Dev) (ch : Nat) (c : MCtx) (waits : Nat) : Dev :=
  (d.driveAll ch c (((d.opGroups ch c).take (waits + 1)).foldl (fun a g => a ++ g) [] ++
    [d.pollRec ch (d.chcfg ch 30 29) (d.lunRow ch c)])).1

/-- On a local channel it runs whole. -/
theorem composite_local (hch : ch < 64) : d.unlessHalted (d.composite now ch x opc waits sr inp post) =
    let c1 := inp { c with sr := sr % 256 }
    if (d.opGroups ch c).length ≤ waits then (localCycles d ch c waits).mput now ch x (post { c1.next with st := .need })
    else ((localCycles d ch c waits).setMctx ch x (some c1)).endCtx now ch x 2 c.pc := by
  obtain ⟨hrun, hc, hop, hstop, hst, -⟩ := h
  simp only [unlessHalted_running hrun, Dev.composite, hc, hop, hstop, hst, if_pos hch, driveAll_local_ctx hch, localCycles, ne_eq,
    not_true_eq_false, Bool.false_eq_true, false_and, or_self, if_false]

/-- On a tether channel its next group leaves. -/
theorem composite_group (hch : 64 ≤ ch) : d.unlessHalted (d.composite now ch x opc waits sr inp post) =
    let p := d.driveAll ch c ((d.opGroups ch c).getD c.stage [])
    let f := p.1.flush ch x p.2
    f.1.setMctx ch x (some { f.2 with st := .ready, stage := c.stage + 1, polled := false }) := by
  obtain ⟨hrun, hc, hop, hstop, hst, hbad⟩ := h
  simp only [unlessHalted_running hrun, Dev.composite, hc, hop, hstop, hst, hbad, if_neg (Nat.not_lt.2 hch), ne_eq, not_true_eq_false,
    Bool.false_eq_true, false_and, or_self, if_true, if_false]

end

/-- The wait that follows a group on a tether channel; `y` is the context after the last of them. -/
def waitGoes (d : Dev) (now ch x waits : Nat) (c y : MCtx) : Dev :=
  if waits < c.stage then d.endCtx now ch x 2 c.pc
  else if d.tetBusy ch x then d
  else if c.polled = true ∧ c.sr.testBit 6 = true then
    if c.stage < (d.opGroups ch c).length then d.setMctx ch x (some { c with st := .need }) else d.mput now ch x y
  else if d.linkBad ch c then d.endCtx now ch x 7 c.pc
  else if d.chcfg ch 30 29 = 0 ∧ (c.polled = true ∨ d.rbHigh ch c = false) then d
  else d.poll ch x c (d.chcfg ch 30 29) (d.lunRow ch c)

theorem composite_ready (hrun : d.sysHalt = false) (hc : d.mctx ch x = some c) (hch : 64 ≤ ch) (hst : c.st = .ready)
    (hs : c.stop = false ∨ c.stage ≠ 0) (hop : c.op % 256 = opc) :
    d.unlessHalted (d.composite now ch x opc waits sr inp post)
      = waitGoes d now ch x waits c (post { c.next with st := .need, stage := 0 }) := by
  have hgo : ¬ (c.op % 256 ≠ opc ∨ (c.stop = true ∧ c.stage = 0)) := by
    rintro (hne | ⟨hstop, h0⟩)
    · exact hne hop
    · exact hs.elim (fun hs => Bool.noConfusion (hs.symm.trans hstop)) (absurd h0)
  simp only [unlessHalted_running hrun, Dev.composite, hc, if_neg hgo, if_neg (Nat.not_lt.2 hch), hst, reduceCtorEq, ne_eq,
    not_true_eq_false, if_false, waitGoes]

end

section
variable {d : Dev} {now ch x sr vals waits z0 z1 : Nat} {ok : Bool} {c : MCtx} {k : Clk}

theorem opGroups_feature (h : c.op % 256 = 0x08) : (d.opGroups ch c).length = 1 := by simp only [Dev.opGroups, h, List.length_singleton]

theorem opGroups_offsets (h : c.op % 256 = 0x0A) : (d.opGroups ch c).length = 1 := by simp only [Dev.opGroups, h, List.length_singleton]

theorem opGroups_probe (h : c.op % 256 = 0x0B) : (d.opGroups ch c).length = 4 := by simp only [Dev.opGroups, h, List.length_cons, List.length_nil]

/-- GET fills FEAT, SET leaves it. -/
theorem feat_of_get (c : MCtx) (v : Nat) : (if opByte c.op 2 % 2 = 1 then { c with feat := v } else c)
    = { c with feat := if opByte c.op 2 % 2 = 1 then v else c.feat } := by
  split <;> rfl

section
variable (hch : ch < 64)
include hch

/-- A composite micro-op of one group is over when its one wait ended in time. -/
theorem composite_one {opc : Nat} {inp post : MCtx → MCtx} {c1 : MCtx} (h : onBus d ch x opc false c)
    (hlen : (d.opGroups ch c).length = 1) (hin : inp { c with sr := sr % 256 } = c1) :
    d.unlessHalted (d.composite now ch x opc (b2n ok) sr inp post) =
      if ok then (localCycles d ch c 1).mput now ch x (post { c1.next with st := .need })
      else ((localCycles d ch c 0).setMctx ch x (some c1)).endCtx now ch x 2 c.pc := by
  rw [composite_local h hch, hlen, hin]
  cases ok
  · exact if_neg (by decide)
  · exact if_pos (by decide)

theorem feature_local (h : onBus d ch x 0x08 false c) : d.unlessHalted (xFeature ch x ok sr vals k d) =
    let c1 : MCtx := { c with sr := sr % 256, feat := if opByte c.op 2 % 2 = 1 then vals % 2 ^ 32 else c.feat }
    if ok then (localCycles d ch c 1).mput k.tick ch x { c1.next with st := .need }
    else ((localCycles d ch c 0).setMctx ch x (some c1)).endCtx k.tick ch x 2 c.pc := by
  obtain ⟨-, -, hop, -⟩ := id h
  exact composite_one (post := id) hch h (opGroups_feature hop) (feat_of_get _ _)

end

/-- OFFSETS runs once its lookup is answered. -/
theorem xOffsets_answered (hc : d.mctx ch x = some c) (hl : c.look ≠ none) :
    xOffsets ch x ok sr k d = d.composite k.tick ch x 0x0A (b2n ok) sr id id := by
  simp only [xOffsets, hc, if_neg hl]

theorem xOffsets_other (h : ∀ c, d.mctx ch x = some c → c.op % 256 ≠ 0x0A) : xOffsets ch x ok sr k d = d := by
  cases hc : d.mctx ch x with
  | none => simp only [xOffsets, hc]
  | some c =>
    by_cases hl : c.look = none
    · simp only [xOffsets, hc, if_pos hl]
    · exact (xOffsets_answered hc hl).trans (composite_other h)

/-- PROBE on a LUN with an open operation ends the list. -/
theorem probe_open (h : onBus d ch x 0x0B false c) (ho : (d.lunop ch c.u).getLsbD 63 = true) (h0 : c.stage = 0) :
    d.unlessHalted (xProbe ch x waits sr z0 z1 k d) = d.endCtx k.tick ch x 4 c.pc := by
  obtain ⟨hrun, hc, hop, hstop, hst, -⟩ := h
  simp only [unlessHalted_running hrun, xProbe, hc, hop, hstop, hst, ho, h0, true_or, and_self, if_true]

/-- What PROBE does otherwise: it counts zeros, and sets PCLASS at its end. -/
def probeRuns (d : Dev) (k : Clk) (ch x waits sr z0 z1 : Nat) : Dev :=
  d.composite k.tick ch x 0x0B waits sr (fun y => { y with zc0 := Nat.min z0 65535, zc1 := Nat.min z1 65535 })
    (fun y => { y with pclass := d.probeClass ch y.zc0 y.zc1 })

theorem xProbe_runs (hc : d.mctx ch x = some c) (h : ¬ (c.op % 256 = 0x0B ∧ c.stage = 0 ∧ (c.st = .hold ∨ c.st = .need) ∧
    c.stop = false ∧ (d.lunop ch c.u).getLsbD 63 = true)) : xProbe ch x waits sr z0 z1 k d = probeRuns d k ch x waits sr z0 z1 := by
  simp only [xProbe, hc, if_neg h, probeRuns]

theorem xProbe_other (h : ∀ c, d.mctx ch x = some c → c.op % 256 ≠ 0x0B) : xProbe ch x waits sr z0 z1 k d = d := by
  cases hc : d.mctx ch x with
  | none => simp only [xProbe, hc]
  | some c => exact (xProbe_runs hc fun hx => h c hc hx.1).trans (composite_other h)

end

/-- Settles O34: WAITRB and READY_SEEN by the context's state and its poll; a composite micro-op by the channel, the bus and its
stage, its groups counted by its opcode. -/
theorem microWaits : Obligations.MicroWaits := by
  refine ⟨fun ch x sr s => ?wait, fun ch x sr meas c s hrun hc => ?ready, fun ch x s hrun => ?lookup,
    fun ch x ok sr vals waits z0 z1 c s h h0 => ?bus, fun ch x ok sr vals waits z0 z1 c s hrun hc hch hst hs => ?group,
    fun ch x ok sr vals waits z0 z1 s => ?other⟩
  case wait =>
    refine ⟨fun c h => next_congr (waitrb_begins h), fun c hrun hc hop hst => ?_,
      fun c hc hop => next_congr (unlessHalted_still (xWaitrb_other hc hop)),
      fun c hrun hc hst => next_congr ((unlessHalted_running hrun).trans (xWaitrbTimeout_waiting hc hst)),
      fun c hc hst => next_congr (unlessHalted_still (xWaitrbTimeout_still hc hst)),
      fun hc => ⟨next_congr (unlessHalted_still (xWaitrb_none hc)), next_congr (unlessHalted_still (xWaitrbTimeout_none hc)),
        fun meas => next_congr (unlessHalted_still (xReadySeen_none hc))⟩⟩
    have hw := (unlessHalted_running hrun).trans (xWaitrb_waiting (sr := sr) (k := s.clk) hc hop hst)
    exact ⟨fun hd hch => next_congr (hw.trans ((if_neg hd).trans (if_pos hch))),
      fun hd hch hb => next_congr (hw.trans ((if_neg hd).trans ((if_neg (Nat.not_lt.2 hch)).trans (if_pos hb)))),
      fun hd hch hb hh => next_congr (hw.trans ((if_neg hd).trans ((if_neg (Nat.not_lt.2 hch)).trans
        ((if_neg (ne_true_of_eq_false hb)).trans (if_neg hh))))),
      fun hd hch hb hh => next_congr (hw.trans ((if_neg hd).trans ((if_neg (Nat.not_lt.2 hch)).trans
        ((if_neg (ne_true_of_eq_false hb)).trans (if_pos hh))))),
      fun hd => next_congr (hw.trans (if_pos (not_not.1 hd)))⟩
  case ready =>
    have hr := (unlessHalted_running hrun).trans (xReadySeen_eq (sr := sr) (meas := meas) (k := s.clk) hc)
    exact ⟨fun he hcl => next_congr (hr.trans ((if_pos he).trans (if_neg hcl))),
      fun he hcl => next_congr (hr.trans ((if_pos he).trans (if_pos hcl))), fun he => next_congr (hr.trans (if_neg he))⟩
  case lookup =>
    exact ⟨fun c hc => ⟨fun h => next_congr ((unlessHalted_running hrun).trans (xCalLookup_asks hc h)),
      fun h => next_congr ((unlessHalted_running hrun).trans (xCalLookup_still hc h))⟩,
      fun hc => next_congr ((unlessHalted_running hrun).trans (xCalLookup_none hc))⟩
  case bus =>
    obtain ⟨-, hc, -, -, hst, -⟩ := id h
    refine ⟨fun hop => ?feature, fun hop hl => ?offsets, fun hop ho h0' => ?probeOpen, fun hop ho => ?probe⟩
    case feature =>
      rw [hop] at h
      exact ⟨fun hch hok => next_congr ((feature_local hch h).trans (if_pos hok)),
        fun hch hok => next_congr ((feature_local hch h).trans (if_neg (ne_true_of_eq_false hok))),
        fun hch => next_congr (composite_group h hch)⟩
    case offsets =>
      have hlen := opGroups_offsets (d := s.d) (ch := ch) hop
      rw [hop] at h
      have hx := congrArg s.d.unlessHalted (xOffsets_answered (ok := ok) (sr := sr) (k := s.clk) hc hl)
      exact ⟨fun hch hok => next_congr (hx.trans ((composite_one hch h hlen rfl).trans (if_pos hok))),
        fun hch hok => next_congr (hx.trans ((composite_one hch h hlen rfl).trans (if_neg (ne_true_of_eq_false hok)))),
        fun hch => next_congr (hx.trans (composite_group h hch))⟩
    case probeOpen =>
      rw [hop] at h
      exact next_congr (probe_open h ho h0')
    case probe =>
      have hlen := opGroups_probe (d := s.d) (ch := ch) hop
      rw [hop] at h
      have hx := congrArg s.d.unlessHalted (xProbe_runs (waits := waits) (sr := sr) (z0 := z0) (z1 := z1) (k := s.clk) hc
        fun hx => ho hx.2.2.2.2)
      exact ⟨fun hch hw => next_congr (hx.trans ((composite_local h hch).trans (if_pos (hlen.trans_le hw)))),
        fun hch hw => next_congr (hx.trans ((composite_local h hch).trans (if_neg (by omega)))),
        fun hch => next_congr (hx.trans (composite_group h hch))⟩
  case group =>
    intro tick gs mode seen held next w
    have hnext {ws : Nat} {c1 : MCtx} :
        next ws c1 { s with d := waitGoes s.d tick ch x ws c { c1.next with st := .need, stage := 0 } } := by
      refine ⟨fun hw => state_congr (if_pos hw), fun hw ht => state_congr ((if_neg (Nat.not_lt.2 hw)).trans (if_pos ht)),
        fun hw ht => ?_⟩
      have hgo {d' : Dev} (hd : (if c.polled = true ∧ c.sr.testBit 6 = true then
            if c.stage < gs.length then s.d.setMctx ch x (some { c with st := .need })
            else s.d.mput tick ch x { c1.next with st := .need, stage := 0 }
          else if s.d.linkBad ch c then s.d.endCtx tick ch x 7 c.pc
          else if s.d.chcfg ch 30 29 = 0 ∧ (c.polled = true ∨ s.d.rbHigh ch c = false) then s.d
          else s.d.poll ch x c (s.d.chcfg ch 30 29) (s.d.lunRow ch c)) = d') :
          waitGoes s.d tick ch x ws c { c1.next with st := .need, stage := 0 } = d' :=
        (if_neg (Nat.not_lt.2 hw)).trans ((if_neg (ne_true_of_eq_false ht)).trans hd)
      exact ⟨fun hs hl => state_congr (hgo ((if_pos hs).trans (if_pos hl))),
        fun hs hl => state_congr (hgo ((if_pos hs).trans (if_neg (Nat.not_lt.2 hl)))),
        fun hs hb => state_congr (hgo ((if_neg hs).trans (if_pos hb))),
        fun hs hb hh => state_congr (hgo ((if_neg hs).trans ((if_neg (ne_true_of_eq_false hb)).trans (if_pos hh)))),
        fun hs hb hh => state_congr (hgo ((if_neg hs).trans ((if_neg (ne_true_of_eq_false hb)).trans (if_neg hh))))⟩
    refine ⟨fun hop => ⟨_, next_congr (composite_ready hrun hc hch hst hs hop), hnext⟩, fun hop hl => ⟨_, next_congr ?_, hnext⟩,
      fun hop => ⟨_, next_congr ?_, hnext⟩⟩
    · rw [xOffsets_answered hc hl]
      exact composite_ready hrun hc hch hst hs hop
    · rw [xProbe_runs hc (by simp [hst])]
      exact composite_ready hrun hc hch hst hs hop
  case other =>
    refine ⟨fun c h => next_congr (composite_lost h), fun c h hl => ?_, fun c h ho => ?_,
      fun h => next_congr (unlessHalted_still (composite_other h)), fun h => next_congr (unlessHalted_still (xOffsets_other h)),
      fun h => next_congr (unlessHalted_still (xProbe_other h))⟩
    · obtain ⟨-, hc, -⟩ := id h
      exact next_congr ((congrArg s.d.unlessHalted (xOffsets_answered hc hl)).trans (composite_lost h))
    · obtain ⟨-, hc, -⟩ := id h
      exact next_congr ((congrArg s.d.unlessHalted (xProbe_runs hc fun hx => ne_true_of_eq_false ho hx.2.2.2.2)).trans (composite_lost h))

end Sys2Proof.Proofs

namespace Sys2Proof.Proofs

open Sys2Proof.Machine Sys2Proof.Safety

/-! Operations of a LUN and their power tokens (15 R431–R434, R440; 16 R464). -/

/-! ### MARK (MED-3) -/

section
variable {d g : Dev} {now ch x kind : Nat} {c : MCtx} {f : MCtx → Nat → Dev}

theorem mMark_kind (h : atOp d ch x 0x0C c) (hk : opByte c.op 2 = kind) : d.unlessHalted (d.mMark now ch x kind f) = f c c.op :=
  (mop_atOp h).trans (if_pos hk)

theorem mMark_otherKind (h : atOp d ch x 0x0C c) (hk : opByte c.op 2 ≠ kind) : d.unlessHalted (d.mMark now ch x kind f) = d :=
  (mop_atOp h).trans (if_neg hk)

theorem mMark_not_atOp (h : ∀ c, ¬ atOp d ch x 0x0C c) : d.unlessHalted (d.mMark now ch x kind f) = d := mop_not_atOp h

/-- A MARK after a confirm of its group waits for the flit. -/
theorem afterConf_waits (h : c.conf = true) : d.afterConf ch x c g = (d.flush ch x c).1.setMctx ch x (some (d.flush ch x c).2) :=
  if_pos h

theorem afterConf_goes (h : c.conf = false) : d.afterConf ch x c g = g := if_neg (ne_true_of_eq_false h)

/-! ### BEGIN_PROG and BEGIN_ERASE (R431, R440) -/

/-- A LUN that may open an operation: it has none, and the channel has fewer than its limit. -/
def LunFree (d : Dev) (ch : Nat) (c : MCtx) : Prop :=
  (d.lunop ch c.u).getLsbD 63 = false ∧ d.openOps ch < d.chcfg ch 28 24

theorem lunFree_iff : LunFree d ch c ↔ ¬ ((d.lunop ch c.u).getLsbD 63 = true ∨ d.chcfg ch 28 24 ≤ d.openOps ch) := by
  rw [LunFree, not_or, Bool.not_eq_true, Nat.not_le]

theorem beginOp_otherKind (h : atOp d ch x 0x0C c) (hk : opByte c.op 2 ≠ kind) : d.unlessHalted (d.beginOp now ch x kind) = d :=
  mMark_otherKind h hk

theorem beginOp_not_atOp (h : ∀ c, ¬ atOp d ch x 0x0C c) : d.unlessHalted (d.beginOp now ch x kind) = d := mMark_not_atOp h

section
variable (h : atOp d ch x 0x0C c) (hk : opByte c.op 2 = kind)
include h hk

theorem beginOp_powerFail (hpf : d.pfSet = true) : d.unlessHalted (d.beginOp now ch x kind) = d.endCtx now ch x 9 c.pc :=
  (mMark_kind h hk).trans (if_pos hpf)

variable (hpf : d.pfSet = false)
include hpf

theorem beginOp_asks (hf : LunFree d ch c) : d.unlessHalted (d.beginOp now ch x kind) = d.askTokens now ch x c :=
  (mMark_kind h hk).trans ((if_neg (ne_true_of_eq_false hpf)).trans (if_neg (lunFree_iff.1 hf)))

theorem beginOp_sequence (hf : ¬ LunFree d ch c) : d.unlessHalted (d.beginOp now ch x kind) = d.endCtx now ch x 4 c.pc :=
  (mMark_kind h hk).trans ((if_neg (ne_true_of_eq_false hpf)).trans (if_pos (not_not.1 (mt lunFree_iff.2 hf))))

end

/-! ### END_OP, SUSPEND and RESUME (R431, R440; 16 R464) -/

section
variable {k : Clk} (h : atOp d ch x 0x0C c)
include h

section
variable (hk : opByte c.op 2 = 3)
include hk

theorem endOp_waits (hc : c.conf = true) : d.unlessHalted (xEndOp ch x k d) =
    (d.flush ch x c).1.setMctx ch x (some (d.flush ch x c).2) := (mMark_kind h hk).trans (afterConf_waits hc)

variable (hc : c.conf = false)
include hc

theorem endOp_closes (ho : (d.lunop ch c.u).getLsbD 63 = true) :
    d.unlessHalted (xEndOp ch x k d) = (d.closeOp ch c.u).mput k.tick ch x c.next :=
  (mMark_kind h hk).trans ((afterConf_goes hc).trans (if_pos ho))

theorem endOp_sequence (ho : (d.lunop ch c.u).getLsbD 63 = false) :
    d.unlessHalted (xEndOp ch x k d) = d.endCtx k.tick ch x 4 c.pc :=
  (mMark_kind h hk).trans ((afterConf_goes hc).trans (if_neg (ne_true_of_eq_false ho)))

end

section
variable (hk : opByte c.op 2 = 4)
include hk

theorem suspend_waits (hc : c.conf = true) : d.unlessHalted (xSuspend ch x k d) =
    (d.flush ch x c).1.setMctx ch x (some (d.flush ch x c).2) := (mMark_kind h hk).trans (afterConf_waits hc)

variable (hc : c.conf = false)
include hc

theorem suspend_returns (ho : (d.lunop ch c.u).getLsbD 62 = true ∧ (d.lunop ch c.u).getLsbD 61 = false) :
    d.unlessHalted (xSuspend ch x k d) = ((d.giveTokens (getBits (d.lunop ch c.u) 58 57 + 1)).setLunop ch c.u
      (putBits (d.lunop ch c.u) 61 61 1)).mput k.tick ch x c.next :=
  (mMark_kind h hk).trans ((afterConf_goes hc).trans (if_pos ho))

theorem suspend_sequence (ho : ¬ ((d.lunop ch c.u).getLsbD 62 = true ∧ (d.lunop ch c.u).getLsbD 61 = false)) :
    d.unlessHalted (xSuspend ch x k d) = d.endCtx k.tick ch x 4 c.pc :=
  (mMark_kind h hk).trans ((afterConf_goes hc).trans (if_neg ho))

end

section
variable (hk : opByte c.op 2 = 5)
include hk

theorem resume_powerFail (hpf : d.pfSet = true) : d.unlessHalted (xResume ch x k d) = d.endCtx k.tick ch x 9 c.pc :=
  (mMark_kind h hk).trans (if_pos hpf)

variable (hpf : d.pfSet = false)
include hpf

theorem resume_asks (ho : (d.lunop ch c.u).getLsbD 61 = true) : d.unlessHalted (xResume ch x k d) = d.askTokens k.tick ch x c :=
  (mMark_kind h hk).trans ((if_neg (ne_true_of_eq_false hpf)).trans (if_pos ho))

theorem resume_sequence (ho : (d.lunop ch c.u).getLsbD 61 = false) :
    d.unlessHalted (xResume ch x k d) = d.endCtx k.tick ch x 4 c.pc :=
  (mMark_kind h hk).trans ((if_neg (ne_true_of_eq_false hpf)).trans (if_neg (ne_true_of_eq_false ho)))

end

end

end

/-! ### TOKEN_GRANT (R433) -/

section
variable {d : Dev} {k : Clk} {q key : Nat} {r : List Nat} {c : MCtx}

/-- The quarter whose turn it is among those with a waiting request. -/
def grantTurn (d : Dev) : Option Nat := ((upTo 4).map (fun i => (d.tokTurn + i) % 4)).find? (fun q => decide (d.tokWait q ≠ []))

/-- The chip with the oldest request of the quarter `q` taken from its queue. -/
def turnTaken (d : Dev) (q : Nat) (r : List Nat) : Dev := { d.setTokWait q r with tokTurn := (q + 1) % 4 }

theorem xTokenGrant_none (h : grantTurn d = none) : xTokenGrant k d = d := by
  rw [grantTurn] at h
  simp only [xTokenGrant, h]

section
variable (h : grantTurn d = some q) (hw : d.tokWait q = key :: r)
include h hw

theorem xTokenGrant_turn (hc : d.mctx (key / 8) (key % 8) = some c) : xTokenGrant k d =
    if c.st ≠ .tokens then turnTaken d q r
    else if d.tokensFit (d.npl (key / 8) c) then (turnTaken d q r).grantTokens k.tick (key / 8) (key % 8) c
    else d := by
  rw [grantTurn] at h
  simp only [xTokenGrant, h, hw, List.headD_cons, hc, List.drop_one, List.tail_cons, turnTaken]

/-- A request whose context no longer waits is dropped. -/
theorem xTokenGrant_gone (hc : ∀ c, d.mctx (key / 8) (key % 8) = some c → c.st ≠ .tokens) : xTokenGrant k d = turnTaken d q r := by
  cases hx : d.mctx (key / 8) (key % 8) with
  | none =>
    rw [grantTurn] at h
    simp only [xTokenGrant, h, hw, List.headD_cons, hx, List.drop_one, List.tail_cons, turnTaken]
  | some c => exact (xTokenGrant_turn h hw hx).trans (if_pos (hc c hx))

end

end

/-- Settles O35: a MARK is decided by its kind, then by the PF latch and the operation of its LUN; a grant by whose turn it is. -/
theorem mediaTokens : Obligations.MediaTokens := by
  refine ⟨fun ch x c s h => ?mark, fun ch x s h => ?none, fun s hrun => ?grant⟩
  case mark =>
    have hor {p q : Bool} (ho : p = false ∨ q = true) : ¬ (p = true ∧ q = false) := by
      rintro ⟨rfl, rfl⟩
      exact ho.elim Bool.noConfusion Bool.noConfusion
    exact ⟨fun hpf => ⟨fun hk => next_congr (beginOp_powerFail h hk hpf), fun hk => next_congr (beginOp_powerFail h hk hpf),
        fun hk => next_congr (resume_powerFail h hk hpf)⟩,
      fun hpf hf => ⟨fun hk => next_congr (beginOp_asks h hk hpf hf), fun hk => next_congr (beginOp_asks h hk hpf hf)⟩,
      fun hpf hf => ⟨fun hk => next_congr (beginOp_sequence h hk hpf hf), fun hk => next_congr (beginOp_sequence h hk hpf hf)⟩,
      fun hpf hk => ⟨fun ho => next_congr (resume_asks h hk hpf ho), fun ho => next_congr (resume_sequence h hk hpf ho)⟩,
      fun hc => ⟨fun hk => next_congr (endOp_waits h hk hc), fun hk => next_congr (suspend_waits h hk hc)⟩,
      fun hc => ⟨fun hk ho => next_congr (endOp_closes h hk hc ho), fun hk ho => next_congr (endOp_sequence h hk hc ho),
        fun hk ho ho' => next_congr (suspend_returns h hk hc ⟨ho, ho'⟩), fun hk ho => next_congr (suspend_sequence h hk hc (hor ho))⟩,
      fun hk => next_congr (beginOp_otherKind h hk), fun hk => next_congr (beginOp_otherKind h hk),
      fun hk => next_congr (mMark_otherKind h hk), fun hk => next_congr (mMark_otherKind h hk),
      fun hk => next_congr (mMark_otherKind h hk)⟩
  case none =>
    exact ⟨next_congr (beginOp_not_atOp h), next_congr (beginOp_not_atOp h), next_congr (mMark_not_atOp h),
      next_congr (mMark_not_atOp h), next_congr (mMark_not_atOp h)⟩
  case grant =>
    have hg {d' : Dev} (hd : xTokenGrant s.clk s.d = d') : exec .tokenGrant s = .next { s with d := d' } :=
      next_congr ((unlessHalted_running hrun).trans hd)
    exact ⟨fun ht => hg (xTokenGrant_none ht), fun q key r ht hw =>
      ⟨fun c hc hst hf => hg ((xTokenGrant_turn ht hw hc).trans ((if_neg (not_not.2 hst)).trans (if_pos hf))),
        fun c hc hst hf => hg ((xTokenGrant_turn ht hw hc).trans ((if_neg (not_not.2 hst)).trans (if_neg (ne_true_of_eq_false hf)))),
        fun hc => hg (xTokenGrant_gone ht hw hc)⟩⟩

end Sys2Proof.Proofs

namespace Sys2Proof.Proofs

open Sys2Proof.Machine Sys2Proof.Safety

/-! Posting and running op lists (15 R425–R427, R429, R435, R436, R464). -/

/-! ### MSQ_POST (R425) -/

/-- A master that may post: a core, or the debug port. -/
def Posts (m : Mst) : Prop := m.mid < 0x40 ∨ m.mid = 0x4C0

theorem posts_iff (m : Mst) : Posts m ↔ (decide (m.mid < 0x40) || decide (m.mid = 0x4C0)) = true := by
  simp only [Posts, Bool.or_eq_true, decide_eq_true_eq]

/-- A word of MSQ_POST without a reserved value. -/
def PostFits (v : Nat) : Prop := bitsOf v 51 48 = 0 ∧ v % 16 = 0 ∧ 0 < bitsOf v 63 52 ∧ bitsOf v 63 52 ≤ 256

theorem postFits_iff (v : Nat) :
    PostFits v ↔ ¬ (bitsOf v 51 48 ≠ 0 ∨ v % 16 ≠ 0 ∨ bitsOf v 63 52 = 0 ∨ 256 < bitsOf v 63 52) := by
  rw [PostFits]
  omega

section
variable {m : Mst} {ch v : Nat} {d : Dev} (hm : m.oid = 0)
include hm

theorem xMsqPost_source (hp : ¬ Posts m) : xMsqPost m ch v d = d.refuseSource m (mReg ch .MSQ_POST) :=
  (if_neg (not_denied hm)).trans (if_pos (bnot_of_not (mt (posts_iff m).2 hp)))

variable (hp : Posts m)
include hp

theorem xMsqPost_disabled (he : d.chEn ch = false) : xMsqPost m ch v d = d.refuse m (mReg ch .MSQ_POST) :=
  (if_neg (not_denied hm)).trans ((if_neg (not_bnot_of ((posts_iff m).1 hp))).trans (if_pos (bnot_of_not (ne_true_of_eq_false he))))

variable (he : d.chEn ch = true)
include he

theorem xMsqPost_reserved (hv : ¬ PostFits v) : xMsqPost m ch v d = d.refuseAs m (mReg ch .MSQ_POST) .reserved :=
  (if_neg (not_denied hm)).trans ((if_neg (not_bnot_of ((posts_iff m).1 hp))).trans
    ((if_neg (not_bnot_of he)).trans (if_pos (not_not.1 (mt (postFits_iff v).2 hv)))))

/-- A post beyond 32 gets no acknowledgement yet. -/
theorem xMsqPost_joins (hv : PostFits v) : xMsqPost m ch v d =
    let d1 := d.addPost ch (bitsOf v 47 4 * 16) (bitsOf v 63 52) none
    if (d.mchan ch).posts.length < 32 then d1.okay else d1 :=
  (if_neg (not_denied hm)).trans ((if_neg (not_bnot_of ((posts_iff m).1 hp))).trans
    ((if_neg (not_bnot_of he)).trans (if_neg ((postFits_iff v).1 hv))))

end

/-! ### LIST_FETCH and LIST_START (R426, R427) -/

section
variable {ch : Nat} {e : HbmErr} {k : Clk} {d : Dev} {p : MPost}

theorem xListFetch_none (h : (d.mchan ch).posts.find? (fun p => !p.fetched) = none) : xListFetch ch e d = d := by
  simp only [xListFetch, h]

/-- The chip with the oldest post that was not fetched replaced by `p1`; `d'` is what its reads left. -/
def fetched (d d' : Dev) (ch : Nat) (p1 : MPost) : Dev :=
  let posts := (d.mchan ch).posts
  let n := (posts.takeWhile (fun x => x.fetched)).length
  d'.setMchan ch { d'.mchan ch with posts := posts.take n ++ p1 :: posts.drop (n + 1) }

/-- The first micro-op of a list at which a check of R426 fails. -/
def listCheck (d : Dev) (ch : Nat) (ops : List Nat) : Option Nat :=
  listFault (decide (64 ≤ ch)) (chbufSize ch) (d.chcfg ch 18 15) ops

section
variable (h : (d.mchan ch).posts.find? (fun p => !p.fetched) = some p)
include h

theorem xListFetch_failed (hr : (d.readOps (mMid ch) p.addr e p.count).2 = none) : xListFetch ch e d =
    fetched d (d.readOps (mMid ch) p.addr e p.count).1 ch { p with fetched := true, bad := 5 } := by
  simp only [xListFetch, h, hr, fetched]

variable {ops : List Nat} (hr : (d.readOps (mMid ch) p.addr e p.count).2 = some ops)
include hr

theorem xListFetch_read (hc : listCheck d ch ops = none) : xListFetch ch e d =
    fetched d (d.readOps (mMid ch) p.addr e p.count).1 ch { p with fetched := true, ops := ops } := by
  rw [listCheck] at hc
  simp only [xListFetch, h, hr, hc, fetched]

theorem xListFetch_fault {i : Nat} (hc : listCheck d ch ops = some i) : xListFetch ch e d =
    fetched d (d.readOps (mMid ch) p.addr e p.count).1 ch { p with fetched := true, ops := ops, bad := 1, badAt := i } := by
  rw [listCheck] at hc
  simp only [xListFetch, h, hr, hc, fetched]

end

/-- The first post that may start. -/
def startable (d : Dev) (ch : Nat) : Option Nat := (upTo (d.mchan ch).posts.length).find? (fun i => d.postReady ch i)

/-- The first free context. -/
def freeCtx (d : Dev) (ch : Nat) : Option Nat := (upTo 8).find? (fun x => (d.mctx ch x).isNone)

/-- The context of a list that starts. -/
def startCtx (p : MPost) : MCtx :=
  { ops := p.ops, cmd := p.cmd, pc := 0, n := 0, sr := 0, st := .need, status := 0, result := 0, tick := 0, stop := false,
    meas := none, dsh := none, look := none, pclass := 0, zc0 := 0, zc1 := 0, feat := 0, stage := 0, polled := false,
    grp := [], conf := false, rhold := false }

/-- The chip with post `i` in context `x`; a post that waited beyond 32 lets the next one in. -/
def listStarted (d : Dev) (ch i x : Nat) (p : MPost) : Dev :=
  let c := d.mchan ch
  let d1 := (d.setMchan ch { c with posts := c.posts.take i ++ c.posts.drop (i + 1) }).setMctx ch x (some (startCtx p))
  if 32 < c.posts.length then d1.okay else d1

theorem xListStart_starts {i x : Nat} (hi : startable d ch = some i) (hx : freeCtx d ch = some x)
    (hp : (d.mchan ch).posts[i]? = some p) : xListStart ch k d =
      if p.bad = 0 then listStarted d ch i x p else (listStarted d ch i x p).endCtx k.tick ch x p.bad p.badAt := by
  rw [startable] at hi
  rw [freeCtx] at hx
  simp only [xListStart, hi, hx, hp, listStarted, startCtx]

theorem xListStart_none (h : startable d ch = none ∨ freeCtx d ch = none) : xListStart ch k d = d := by
  rcases h with h | h
  · rw [startable] at h
    simp only [xListStart, h]
  · rw [freeCtx] at h
    cases hi : (upTo (d.mchan ch).posts.length).find? (fun i => d.postReady ch i) <;> simp only [xListStart, h, hi]

end

/-! ### BUS_GRANT (R427) -/

section
variable {ch x : Nat} {d : Dev}

/-- A test that finds the context on the bus finds one that is in `hold`. -/
theorem any_hold_iff {p : Nat × Option MCtx → Bool} (hs : ∀ n z, p (n, some z) = decide (z.st = .hold))
    (hn : ∀ n, p (n, none) = false) (l : List (Nat × Option MCtx)) :
    l.any p = true ↔ ∃ n z, (n, some z) ∈ l ∧ z.st = .hold := by
  rw [List.any_eq_true]
  constructor
  · rintro ⟨⟨n, _ | z⟩, hl, hp⟩
    · exact absurd hp (by simp [hn])
    · exact ⟨n, z, hl, by simpa [hs] using hp⟩
  · rintro ⟨n, z, hl, hz⟩
    exact ⟨(n, some z), hl, by simp [hs, hz]⟩

/-- A context of the channel holds the bus. -/
def BusHeld (d : Dev) (ch : Nat) : Prop := ∃ n z, (n, some z) ∈ (d.mchan ch).ctxs ∧ z.st = .hold

/-- The next context that needs the bus, after the one that had it. -/
def nextForBus (d : Dev) (ch : Nat) : Option Nat :=
  ((upTo 8).map (fun i => ((d.mchan ch).last + 1 + i) % 8)).find? (fun x => (d.mctx ch x).any (fun y => y.wantsBus))

theorem xBusGrant_not (h : BusHeld d ch ∨ d.training ch = true) : xBusGrant ch d = d := by
  refine if_pos ?_
  rw [Bool.or_eq_true]
  exact h.imp_left (any_hold_iff (fun _ _ => rfl) (fun _ => rfl) _).2

theorem find_wantsBus {p : Nat → Bool} (hp : ∀ x, p x = (d.mctx ch x).any (fun y => y.wantsBus)) :
    ((upTo 8).map (fun i => ((d.mchan ch).last + 1 + i) % 8)).find? p = nextForBus d ch := by rw [nextForBus, funext hp]

theorem wantsBus_of_next (h : nextForBus d ch = some x) : ∃ y, d.mctx ch x = some y := by
  have hw := List.find?_some h
  cases hy : d.mctx ch x with
  | none => simp [hy] at hw
  | some y => exact ⟨y, rfl⟩

section
variable (hh : ¬ BusHeld d ch) (ht : d.training ch = false)
include hh ht

theorem busFree {p : Nat × Option MCtx → Bool} (hs : ∀ n z, p (n, some z) = decide (z.st = .hold))
    (hn : ∀ n, p (n, none) = false) : ¬ ((d.mchan ch).ctxs.any p || d.training ch) = true := by
  rw [Bool.or_eq_true, ht]
  exact fun hx => hx.elim (mt (any_hold_iff hs hn _).1 hh) Bool.noConfusion

theorem xBusGrant_nobody (hn : nextForBus d ch = none) : xBusGrant ch d = d := by
  refine (if_neg (busFree hh ht (fun _ _ => rfl) (fun _ => rfl))).trans ?_
  split
  · rfl
  · rename_i z hz
    have hsome := (find_wantsBus (fun y => by cases d.mctx ch y <;> rfl)).symm.trans hz
    exact absurd (hn.symm.trans hsome) (by simp)

theorem xBusGrant_grants {y : MCtx} (hn : nextForBus d ch = some x) (hy : d.mctx ch x = some y) : xBusGrant ch d =
    (d.setMchan ch { d.mchan ch with last := x }).setMctx ch x (some { y with st := .hold }) := by
  refine (if_neg (busFree hh ht (fun _ _ => rfl) (fun _ => rfl))).trans ?_
  split
  · rename_i hz
    have hnone := (find_wantsBus (fun y => by cases d.mctx ch y <;> rfl)).symm.trans hz
    exact absurd (hn.symm.trans hnone) (by simp)
  · rename_i z hz
    have hsome := (find_wantsBus (fun y => by cases d.mctx ch y <;> rfl)).symm.trans hz
    obtain rfl : x = z := Option.some.inj (hn.symm.trans hsome)
    simp only [hy]

end

end

/-! ### END (R429; 16 R464) -/

section
variable {ch x : Nat} {k : Clk} {d : Dev} {c : MCtx} (h : atOp d ch x 0x00 c)
include h

theorem listEnd_ends (hb : (d.flush ch x c).1.tetBusy ch x = false) : d.unlessHalted (xListEnd ch x k d) =
    (d.flush ch x c).1.endCtx k.tick ch x (opByte c.op 2) (bitsOf c.op 63 32) :=
  (mop_atOp h).trans (if_neg (ne_true_of_eq_false hb))

theorem listEnd_waits (hb : (d.flush ch x c).1.tetBusy ch x = true) : d.unlessHalted (xListEnd ch x k d) =
    (d.flush ch x c).1.setMctx ch x (some { (d.flush ch x c).2 with st := .need }) :=
  (mop_atOp h).trans (if_pos hb)

end

/-! ### Completion records (R435, R436) -/

section
variable {ch x : Nat} {d : Dev}

theorem xCompletionRecord_none (hc : d.mctx ch x = none) : xCompletionRecord ch x d = d := by
  simp only [xCompletionRecord, hc]

/-- The place after the next one that a group's ring writes. -/
def ringNext (d : Dev) (ch : Nat) : Nat :=
  (d.fld F.MSQ_RWP_WP (mediaPlace ch).1 (mGroup ch) + 1) % d.mRing (mediaPlace ch).1 (mGroup ch)

/-- The ring of a channel's group is full. -/
def RingFull (d : Dev) (ch : Nat) : Prop := ringNext d ch = d.fld F.MSQ_RRP_RP (mediaPlace ch).1 (mGroup ch)

section
variable {c : MCtx} (hc : d.mctx ch x = some c)
include hc

theorem xCompletionRecord_runs (hst : c.st ≠ .ended) : xCompletionRecord ch x d = d := by
  simp only [xCompletionRecord, hc, if_pos hst]

variable (hst : c.st = .ended)
include hst

theorem xCompletionRecord_counts (hf : RingFull d ch) (hr : c.rhold = false) : xCompletionRecord ch x d =
    (d.setMctx ch x (some { c with rhold := true })).bump (R.MSQ_RHOLD.at (mediaPlace ch).1 (mGroup ch)) := by
  simp only [RingFull, ringNext] at hf
  simp only [xCompletionRecord, hc, if_neg (not_not.2 hst), if_pos hf, hr, Bool.false_eq_true, if_false]

theorem xCompletionRecord_counted (hf : RingFull d ch) (hr : c.rhold = true) : xCompletionRecord ch x d = d := by
  simp only [RingFull, ringNext] at hf
  simp only [xCompletionRecord, hc, if_neg (not_not.2 hst), if_pos hf, hr, if_true]

/-- The chip with the record written and its place free. -/
def recordWritten (d : Dev) (ch x : Nat) (c : MCtx) : Dev :=
  let q := (mediaPlace ch).1
  let j := mGroup ch
  let wp := d.fld F.MSQ_RWP_WP q j
  let ph := d.fld F.MSQ_RWP_PH q j
  let t := d.ctxTag c
  let w := (t.2.hbm (wrReq (mMid ch) 0 (d.fld F.MSQ_RBASE_BASE q j * 4096 + 32 * wp) 32 (mRecord ch ph t.1 c)) false .none).1
  (w.setRegN (R.MSQ_RWP.at q j) ((if ringNext d ch = 0 then 1 - ph else ph) * 65536 + ringNext d ch)).setMctx ch x none

theorem xCompletionRecord_writes (hf : ¬ RingFull d ch) : xCompletionRecord ch x d =
    ((recordWritten d ch x c).ringLevel (mediaPlace ch).1 (mGroup ch)).raise (mediaPlace ch).1 (0x240 + (mediaPlace ch).2) := by
  simp only [RingFull, ringNext] at hf
  simp only [xCompletionRecord, hc, if_neg (not_not.2 hst), if_neg hf]
  rfl

end

end

/-- Settles O32: a post by the first check that refuses it, a fetch by what its reads and R426 give, a start by the post and the context
that it finds, a grant by who asks next, END by the flits not answered, a record by the room of its ring. -/
theorem mediaLists : Obligations.MediaLists := by
  refine ⟨?_, ?_, ?_, ?_, ?_, ?_⟩
  case refine_1 =>
    intro m ch v s hm
    refine ⟨fun hp => next_congr (xMsqPost_source hm hp), fun hp he => next_congr (xMsqPost_disabled hm hp he),
      fun hp he hv => next_congr (xMsqPost_reserved hm hp he hv), fun hp he hv hl => ?_, fun hp he hv hl => ?_⟩
    · exact next_congr ((xMsqPost_joins hm hp he hv).trans (if_pos hl))
    · exact next_congr ((xMsqPost_joins hm hp he hv).trans (if_neg (Nat.not_lt.2 hl)))
  case refine_2 =>
    intro ch e s hrun
    refine ⟨fun p h => ⟨fun hr => ?_, fun ops hr hc => ?_, fun ops i hr hc => ?_⟩, fun h => ?_⟩
    · exact next_congr ((unlessHalted_running hrun).trans (xListFetch_failed h hr))
    · exact next_congr ((unlessHalted_running hrun).trans (xListFetch_read h hr hc))
    · exact next_congr ((unlessHalted_running hrun).trans (xListFetch_fault h hr hc))
    · exact next_congr (unlessHalted_still (xListFetch_none h))
  case refine_3 =>
    intro ch s hrun
    refine ⟨fun i x p hi hx hp => ⟨fun hb => ?_, fun hb => ?_⟩, fun h => next_congr (unlessHalted_still (xListStart_none h))⟩
    · exact next_congr ((unlessHalted_running hrun).trans ((xListStart_starts hi hx hp).trans (if_pos hb)))
    · exact next_congr ((unlessHalted_running hrun).trans ((xListStart_starts hi hx hp).trans (if_neg hb)))
  case refine_4 =>
    intro ch s hrun
    refine ⟨fun x y hh ht hn hy => next_congr ((unlessHalted_running hrun).trans (xBusGrant_grants hh ht hn hy)), fun h => ?_⟩
    refine next_congr (unlessHalted_still ?_)
    by_cases hf : BusHeld s.d ch ∨ s.d.training ch = true
    · exact xBusGrant_not hf
    · obtain ⟨hh, ht⟩ := not_or.1 hf
      exact xBusGrant_nobody hh (Bool.eq_false_iff.2 ht) ((or_assoc.2 h).resolve_left hf)
  case refine_5 =>
    intro ch x s
    exact ⟨fun c h => ⟨fun hb => next_congr (listEnd_ends h hb), fun hb => next_congr (listEnd_waits h hb)⟩,
      fun h => next_congr (mop_not_atOp h)⟩
  case refine_6 =>
    intro ch x s hrun
    refine ⟨fun c hc => ⟨fun hst hf => ?_, fun hst hf hr => ?_, fun hst hf hr => ?_, fun hst => ?_⟩, fun hc => ?_⟩
    · exact next_congr ((unlessHalted_running hrun).trans (xCompletionRecord_writes hc hst hf))
    · exact next_congr ((unlessHalted_running hrun).trans (xCompletionRecord_counts hc hst hf hr))
    · exact next_congr (unlessHalted_still (xCompletionRecord_counted hc hst hf hr))
    · exact next_congr (unlessHalted_still (xCompletionRecord_runs hc hst))
    · exact next_congr (unlessHalted_still (xCompletionRecord_none hc))

end Sys2Proof.Proofs

namespace Sys2Proof.Proofs

open Sys2Proof.Machine Sys2Proof.Safety

/-! Registers of the media sequencers and NAND PHYs, and the pads of a channel (15 R418–R420, R425, R433, R435, R447, R448; 22 R590,
R591). -/

/-! ### MSQ_CHCTRL and MSQ_CHCFG (R447, R448) -/

section
variable {m : Mst} {ch v : Nat} {k : Clk} {d : Dev} (hm : m.oid = 0)
include hm

theorem xStop_stops (h : v.testBit 0 = true) : xStop m ch v k d = ((d.setWpn ch v).stopLists k.tick ch).okay :=
  (if_neg (not_denied hm)).trans (if_pos h)

theorem xStop_still (h : v.testBit 0 = false) : xStop m ch v k d = d :=
  (if_neg (not_denied hm)).trans (if_neg (ne_true_of_eq_false h))

theorem xWpn_drives : xWpn m ch v d = (d.setWpn ch v).okay := if_neg (not_denied hm)

end

/-- A channel that may be configured with a word: OFF or IDLE, and enabled only where its group has a ring. -/
def ChcfgMay (d : Dev) (ch v : Nat) : Prop :=
  d.fld F.MSQ_CHSTAT_STATE (mediaPlace ch).1 (mediaPlace ch).2 < 2 ∧
    ¬ (v.testBit 31 = true ∧ d.regN (R.MSQ_RBASE.at (mediaPlace ch).1 (mGroup ch)) = 0)

section
variable {m : Mst} {ch v : Nat} {d : Dev} (hm : m.oid = 0)
include hm

theorem xMsqChcfg_refused (h : ¬ ChcfgMay d ch v) : xMsqChcfg m ch v d = d.refuse m (mReg ch .MSQ_CHCFG) := by
  refine (if_neg (not_denied hm)).trans ?_
  by_cases hs : 2 ≤ d.fld F.MSQ_CHSTAT_STATE (mediaPlace ch).1 (mediaPlace ch).2
  · exact if_pos hs
  · exact (if_neg hs).trans (if_pos (not_not.1 fun hr => h ⟨Nat.not_le.1 hs, hr⟩))

theorem xMsqChcfg_held (h : ChcfgMay d ch v) : xMsqChcfg m ch v d =
    let n := chcfgOk (d.regN (mReg ch .MSQ_CHCFG)) (v &&& 0xFFFFFC00)
    (((if n = v &&& 0xFFFFFC00 then d else d.logWrite m (mReg ch .MSQ_CHCFG) .reserved).setRegN (mReg ch .MSQ_CHCFG) n).chStat ch).okay :=
  (if_neg (not_denied hm)).trans ((if_neg (Nat.not_le.2 h.1)).trans (if_neg h.2))

end

/-! ### MSQ_RRP and MSQ_OPCAP (R433, R447) -/

section
variable {m : Mst} {q v : Nat} {d : Dev} (hm : m.oid = 0)
include hm

theorem xMsqRrp_eq (j : Nat) : xMsqRrp m q j v d =
    if v % 65536 < d.mRing q j ∧ ringDist (v % 65536) (d.fld F.MSQ_RRP_RP q j) (d.mRing q j) ≤
        ringDist (d.fld F.MSQ_RWP_WP q j) (d.fld F.MSQ_RRP_RP q j) (d.mRing q j)
      then ((d.setRegN (R.MSQ_RRP.at q j) (v % 65536)).ringLevel q j).okay
      else d.refuse m (R.MSQ_RRP.at q j) := if_neg (not_denied hm)

theorem xMsqOpcap_elsewhere (hq : q ≠ d.liveQ) : xMsqOpcap m q v d = d.okay := (if_neg (not_denied hm)).trans (if_pos hq)

theorem xMsqOpcap_live (hq : q = d.liveQ) : xMsqOpcap m q v d = d.unlessLocked m (R.MSQ_OPCAP.at q)
    (if 1 ≤ v % 4096 ∧ v % 4096 ≤ 2048 then (d.setRegN (R.MSQ_OPCAP.at q) (v % 4096)).okay
      else (d.logWrite m (R.MSQ_OPCAP.at q) .reserved).okay) :=
  (if_neg (not_denied hm)).trans (if_neg (not_not.2 hq))

end

/-! ### NAND PHYs (R418, R419; 22 R590) -/

theorem b2n_ne_zero (n : Nat) : b2n (decide (n ≠ 0)) = if n = 0 then 0 else 1 := by
  by_cases h : n = 0 <;> simp [h, b2n]

/-- NPH_CFG with a reserved DRV code left out. -/
def nphDrv (d : Dev) (n w : Nat) : Nat :=
  if bitsOf w 6 4 ≤ 4 then w else setBitsN w 6 4 (bitsOf (d.regN (R.NPH_CFG.at (n / 16) (n % 16))) 6 4)

/-- NPH_CFG changes only while the channel is OFF or IDLE and does not train. -/
def NphMay (d : Dev) (n w : Nat) : Prop :=
  w = d.regN (R.NPH_CFG.at (n / 16) (n % 16)) ∨
    (d.fld F.MSQ_CHSTAT_STATE (n / 16) (n % 16) < 2 ∧ d.training n = false)

/-- The chip with NPH_CFG held and what NPH_STAT shows of it. -/
def nphHeld (d : Dev) (n drv : Nat) : Dev :=
  ((d.setRegN (R.NPH_CFG.at (n / 16) (n % 16)) drv).setFld F.NPH_STAT_LPDDR4 (if drv % 4 = 0 then 0 else 1) (n / 16) (n % 16)).okay

theorem nphMay_iff (d : Dev) (n w : Nat) : NphMay d n w ↔ ¬ (w ≠ d.regN (R.NPH_CFG.at (n / 16) (n % 16)) ∧
    (2 ≤ d.fld F.MSQ_CHSTAT_STATE (n / 16) (n % 16) ∨ d.training n = true)) := by
  rw [NphMay, not_and_or, not_not, not_or, Nat.not_le, Bool.not_eq_true]

section
variable {m : Mst} {n v : Nat} {d : Dev} (hm : m.oid = 0)
include hm

theorem xNphCfg_refused (h : ¬ NphMay d n (v &&& 0x773)) : xNphCfg m n v d = d.refuse m (R.NPH_CFG.at (n / 16) (n % 16)) :=
  (if_neg (not_denied hm)).trans (if_pos (not_not.1 (mt (nphMay_iff _ _ _).2 h)))

theorem xNphCfg_held (h : NphMay d n (v &&& 0x773)) : xNphCfg m n v d =
    nphHeld (if nphDrv d n (v &&& 0x773) = v &&& 0x773 then d else d.logWrite m (R.NPH_CFG.at (n / 16) (n % 16)) .reserved) n
      (nphDrv d n (v &&& 0x773)) := by
  have hd : keepField (d.regN (R.NPH_CFG.at (n / 16) (n % 16))) (v &&& 0x773) 6 4 (fun f => decide (f ≤ 4))
      = nphDrv d n (v &&& 0x773) := by
    simp only [keepField, decide_eq_true_eq, nphDrv]
  refine (if_neg (not_denied hm)).trans ((if_neg ((nphMay_iff _ _ _).1 h)).trans ?_)
  simp only [hd, b2n_ne_zero, nphHeld]

theorem xNphTrain_starts (h : v.testBit 4 = true) :
    xNphTrain m n v d = (d.setFld F.NPH_TSTAT_RESULT 3 (n / 16) (n % 16)).okay := (if_neg (not_denied hm)).trans (if_pos h)

theorem xNphTrain_nothing (h : v.testBit 4 = false) : xNphTrain m n v d = d.okay :=
  (if_neg (not_denied hm)).trans (if_neg (ne_true_of_eq_false h))

end

section
variable {n rm wm : Nat} {d : Dev}

/-- The chip with the result and the margins of a training. -/
def trainingShown (d : Dev) (n rm wm res : Nat) : Dev :=
  d.setRegN (R.NPH_TSTAT.at (n / 16) (n % 16)) (res * 2 ^ 30 + rm % 256 * 256 + wm % 256)

theorem xNphTrainingDone_not {pass : Bool} (h : d.training n = false ∨ BusHeld d n) : xNphTrainingDone n pass rm wm d = d := by
  refine if_pos ?_
  rw [Bool.or_eq_true]
  exact h.imp (fun ht => bnot_of_not (ne_true_of_eq_false ht)) (any_hold_iff (fun _ _ => rfl) (fun _ => rfl) _).2

section
variable (ht : d.training n = true) (hh : ¬ BusHeld d n)
include ht hh

theorem trainingEnds {p : Nat × Option MCtx → Bool} (hs : ∀ i z, p (i, some z) = decide (z.st = .hold))
    (hn : ∀ i, p (i, none) = false) : ¬ (!d.training n || (d.mchan n).ctxs.any p) = true := by
  rw [Bool.or_eq_true]
  exact fun hx => hx.elim (not_bnot_of ht) (mt (any_hold_iff hs hn _).1 hh)

theorem xNphTrainingDone_pass :
    xNphTrainingDone n true rm wm d = (trainingShown d n rm wm 1).setFld F.NPH_STAT_TRAINED 1 (n / 16) (n % 16) :=
  (if_neg (trainingEnds ht hh (fun _ _ => rfl) (fun _ => rfl))).trans (if_pos rfl)

theorem xNphTrainingDone_fail : xNphTrainingDone n false rm wm d = trainingShown d n rm wm 2 :=
  (if_neg (trainingEnds ht hh (fun _ _ => rfl) (fun _ => rfl))).trans (if_neg Bool.false_ne_true)

end

end

/-! ### Pads of a channel (R420; 22 R591) -/

section
variable {d : Dev} {ch : Nat}

theorem nandPad_off (h : d.chEn ch = false ∨ d.confFailed = true) (p : NandPad) : d.nandPad ch p = p.off := by
  refine if_pos ?_
  rw [Dev.chanOff, Bool.or_eq_true]
  exact h.imp_left fun he => bnot_of_not (ne_true_of_eq_false he)

section
variable (he : d.chEn ch = true) (hc : d.confFailed = false)
include he hc

theorem chanOff_not : ¬ d.chanOff ch = true := by simp [Dev.chanOff, he, hc]

theorem nandPad_wpN : d.nandPad ch .wpN = levelOf (d.flag F.MSQ_CHCTRL_WPN (mediaPlace ch).1 (mediaPlace ch).2) :=
  if_neg (chanOff_not he hc)

theorem nandPad_ceN (k : Nat) :
    d.nandPad ch (.ceN k) = levelOf (((d.busCtx ch).map (fun c => decide (c.ce = k))) != some true) :=
  if_neg (chanOff_not he hc)

theorem nandPad_ceN_none (k : Nat) (hb : d.busCtx ch = none) : d.nandPad ch (.ceN k) = .high := by
  rw [nandPad_ceN he hc, hb]
  rfl

theorem nandPad_ceN_some {c : MCtx} (k : Nat) (hb : d.busCtx ch = some c) :
    d.nandPad ch (.ceN k) = if c.ce = k then .low else .high := by
  rw [nandPad_ceN he hc, hb]
  by_cases hk : c.ce = k <;> simp [hk, levelOf]

end

end

/-- Settles O36: each write by the first check that refuses it, a training's end by the bus, a pad by what its channel drives. -/
theorem mediaRegisters : Obligations.MediaRegisters := by
  refine ⟨?_, ?_, ?_, ?_, ?_, ?_, ?_⟩
  case refine_1 =>
    intro m ch v s hm
    exact ⟨fun h => next_congr (xStop_stops hm h), fun h => next_congr (xStop_still hm h), next_congr (xWpn_drives hm)⟩
  case refine_2 =>
    intro m ch v s hm
    refine ⟨fun h hn => ?_, fun h hn => ?_, fun h => next_congr (xMsqChcfg_refused hm h)⟩
    · refine next_congr ((xMsqChcfg_held hm h).trans ?_)
      simp only [if_pos hn]
    · refine next_congr ((xMsqChcfg_held hm h).trans ?_)
      simp only [if_neg hn]
  case refine_3 =>
    intro m q j v s hm
    exact ⟨fun h => next_congr ((xMsqRrp_eq hm j).trans (if_pos h)), fun h => next_congr ((xMsqRrp_eq hm j).trans (if_neg h))⟩
  case refine_4 =>
    intro m q v s hm
    refine ⟨fun hq => next_congr (xMsqOpcap_elsewhere hm hq), fun hq hl => ?_, fun hq hl h1 h2 => ?_, fun hq hl hn => ?_⟩
    · exact next_congr ((xMsqOpcap_live hm hq).trans (if_pos hl))
    · exact next_congr ((xMsqOpcap_live hm hq).trans ((if_neg hl).trans (if_pos ⟨h1, h2⟩)))
    · exact next_congr ((xMsqOpcap_live hm hq).trans ((if_neg hl).trans (if_neg (by omega))))
  case refine_5 =>
    intro m n v s hm
    refine ⟨fun h hd => ?_, fun h _ hd => ?_, fun h => next_congr (xNphCfg_refused hm h), fun h => ?_, fun h => ?_⟩
    · exact next_congr ((xNphCfg_held hm h).trans (congrArg (nphHeld · n _) (if_pos (if_pos hd))))
    · exact next_congr ((xNphCfg_held hm h).trans (congrArg (nphHeld · n _) (if_neg hd)))
    · exact next_congr (xNphTrain_starts hm h)
    · exact next_congr (xNphTrain_nothing hm h)
  case refine_6 =>
    intro n rm wm s
    have hfree (h : ∀ i z, (i, some z) ∈ (s.d.mchan n).ctxs → z.st ≠ .hold) : ¬ BusHeld s.d n :=
      fun ⟨i, z, hz, hst⟩ => h i z hz hst
    refine ⟨fun ⟨ht, h⟩ => ⟨next_congr (xNphTrainingDone_pass ht (hfree h)), next_congr (xNphTrainingDone_fail ht (hfree h))⟩,
      fun h pass => next_congr (xNphTrainingDone_not ?_)⟩
    by_contra hno
    obtain ⟨ht, hb⟩ := not_or.1 hno
    exact h ⟨Bool.eq_true_of_not_eq_false ht, fun i z hz hst => hb ⟨i, z, hz, hst⟩⟩
  case refine_7 =>
    intro ch k d
    refine ⟨fun h => ⟨nandPad_off h _, nandPad_off h _, nandPad_off h _, nandPad_off h _, nandPad_off h _, nandPad_off h _,
      nandPad_off h _, nandPad_off h _, nandPad_off h _, nandPad_off h _, nandPad_off h _⟩, fun he hc => ⟨?_, ?_, ?_⟩⟩
    · exact nandPad_wpN he hc
    · exact nandPad_ceN_none he hc k
    · exact fun c hb => nandPad_ceN_some he hc k hb

end Sys2Proof.Proofs

namespace Sys2Proof.Proofs

open Sys2Proof.Machine Sys2Proof.Safety

/-! Power-fail: the dump and its arming (15 R440–R443). -/

section
variable {d : Dev}

theorem xDumpComplete_none (h : d.dump = none) : xDumpComplete d = d := by simp only [xDumpComplete, h]

/-- The chip with the records and the completion word of a dump in their half. -/
def dumpWritten (d : Dev) (p : Dump) : Dev :=
  let a := dumpBase d.liveQ p.half
  let d1 := (p.recs.zip (upTo p.recs.length)).foldl (fun x r => x.setMemN (a + 64 + 32 * r.2) 32 r.1) d
  { d1.setMemN (a + 32) 32 p.complete with dump := none }

theorem xDumpComplete_some {p : Dump} (h : d.dump = some p) : xDumpComplete d =
    (((dumpWritten d p).setFld F.MSQ_PFSTAT_DUMP 2 d.liveQ).setFld F.MSQ_PFSTAT_ARMED 0 d.liveQ).setFld F.MSQ_PFSTAT_COUNT
      p.recs.length d.liveQ := by
  simp only [xDumpComplete, h, dumpWritten]

end

theorem pfclr_asks {q v : Nat} {d : Dev} (hq : q = d.liveQ) (h : v.testBit 0 = true) : ¬ (q ≠ d.liveQ ∨ v.testBit 0 = false) := by
  simp [hq, h]

section
variable {m : Mst} {q v : Nat} {d : Dev} (hm : m.oid = 0)
include hm

theorem xMsqPfclr_nothing (h : q ≠ d.liveQ ∨ v.testBit 0 = false) : xMsqPfclr m q v d = d.okay :=
  (if_neg (not_denied hm)).trans (if_pos h)

theorem xMsqOpdarm_elsewhere (hq : q ≠ d.liveQ) : xMsqOpdarm m q v d = d.okay := (if_neg (not_denied hm)).trans (if_pos hq)

variable (hq : q = d.liveQ)
include hq

theorem xMsqOpdarm_unarmed (h : v.testBit 0 = false) : xMsqOpdarm m q v d = (d.setRegN (R.MSQ_OPDARM.at q) (v &&& 2)).okay :=
  (if_neg (not_denied hm)).trans ((if_neg (not_not.2 hq)).trans (if_pos h))

variable (h : v.testBit 0 = true)
include h

theorem xMsqPfclr_refused (hp : d.flag F.MSQ_PFSTAT_PIN q = true) : xMsqPfclr m q v d = d.refuse m (R.MSQ_PFCLR.at q) :=
  (if_neg (not_denied hm)).trans ((if_neg (pfclr_asks hq h)).trans (if_pos hp))

theorem xMsqPfclr_clears (hp : d.flag F.MSQ_PFSTAT_PIN q = false) :
    xMsqPfclr m q v d = (d.setFld F.MSQ_PFSTAT_LATCH 0 q).okay :=
  (if_neg (not_denied hm)).trans ((if_neg (pfclr_asks hq h)).trans (if_neg (ne_true_of_eq_false hp)))

/-- The chip with a half armed for the next SEQ. -/
def halfArmed (d : Dev) (q v : Nat) : Dev :=
  let d1 := ((d.setRegN (R.MSQ_OPDARM.at q) (v &&& 2)).setFld F.MSQ_PFSTAT_ARMED 1 q).setFld F.MSQ_PFSTAT_HALF (v / 2 % 2) q
  { d1 with armSeq := (Nat.max (d.dumpSeq q 0) (d.dumpSeq q 1) + 1) % 2 ^ 32 }

theorem xMsqOpdarm_arms (he : d.erased (dumpBase q (v / 2 % 2)) 0x10000 = true) : xMsqOpdarm m q v d = (halfArmed d q v).okay :=
  (if_neg (not_denied hm)).trans ((if_neg (not_not.2 hq)).trans ((if_neg (by simp [h])).trans (if_neg (not_bnot_of he))))

theorem xMsqOpdarm_refused (he : d.erased (dumpBase q (v / 2 % 2)) 0x10000 = false) :
    xMsqOpdarm m q v d = d.refuse m (R.MSQ_OPDARM.at q) :=
  (if_neg (not_denied hm)).trans ((if_neg (not_not.2 hq)).trans
    ((if_neg (by simp [h])).trans (if_pos (bnot_of_not (ne_true_of_eq_false he)))))

end

/-- Settles O37: the pin's two edges are their definitions, the dump's end and the two registers go by their cases. -/
theorem powerFail : Obligations.PowerFail := by
  refine ⟨fun s => ⟨rfl, rfl⟩, fun s => ⟨fun p h => next_congr (xDumpComplete_some h), fun h => next_congr (xDumpComplete_none h)⟩, ?_⟩
  intro m q v s hm
  refine ⟨fun hq => ?_, fun hq h hp => ?_, fun hq h hp => ?_, fun hq h he => ?_, fun hq h he => ?_, fun hq h => ?_⟩
  · exact ⟨next_congr (xMsqPfclr_nothing hm (.inl hq)), next_congr (xMsqOpdarm_elsewhere hm hq)⟩
  · exact next_congr (xMsqPfclr_clears hm hq h hp)
  · exact next_congr (xMsqPfclr_refused hm hq h hp)
  · exact next_congr (xMsqOpdarm_arms hm hq h he)
  · exact next_congr (xMsqOpdarm_refused hm hq h he)
  · exact ⟨next_congr (xMsqPfclr_nothing hm (.inr h)), next_congr (xMsqOpdarm_unarmed hm hq h)⟩

end Sys2Proof.Proofs

namespace Sys2Proof.Proofs

open Sys2Proof.Machine Sys2Proof.Safety

/-! The loss of a tether lane's lock in TRAIN (16 R453, R454). -/

/-- A lane that is locked in TRAIN and has just seen seven failing codewords. -/
def sevenFailed : Lane := { Lane.zero with locked := true, run := 7 }

/-- Lane 0 of the chip right after reset is in TRAIN, locked, one failing codeword away from the loss of its lock. -/
def beforeUnlock : State := { State.reset with d := (Dev.reset.setLane 0 sevenFailed).setLaneState 0 2 }

/-- The codeword that loses the lock leaves the CWSEQ of the codeword before it in the lane. -/
theorem codeword_unlock_cwseq : ((xCodeword 0 0 0 false beforeUnlock.clk beforeUnlock.d).lane 0).cwseq = 0 := rfl

/-- Refutes O38: the eighth failing codeword of a lane in TRAIN takes the lock and leaves CWSEQ at the codeword before, where the
statement has it at the expected one. -/
theorem not_tetherTraining : ¬ Obligations.TetherTraining := by
  rintro ⟨-, -, -, hcode⟩
  obtain ⟨-, hlocked, -⟩ := hcode 0 0 0 false beforeUnlock
  obtain ⟨-, -, -, -, hunlock⟩ := hlocked (by decide) rfl
  have hnext := hunlock (by decide) (by decide) (.inl (by decide))
  injection hnext with hstate
  have hseq : ((xCodeword 0 0 0 false beforeUnlock.clk beforeUnlock.d).lane 0).cwseq = 1 :=
    congrArg (fun u : State => (u.d.lane 0).cwseq) hstate
  exact absurd (codeword_unlock_cwseq.symm.trans hseq) (by decide)

end Sys2Proof.Proofs

namespace Sys2Proof.Proofs

open Sys2Proof.Machine Sys2Proof.Safety

/-! A tether lane comes UP and leaves it (16 R469, R471, R472). -/

/-! ### IDENT -/

/-- What a received IDENT is read as: its payload, the check that it fails, whether its partner is ready, and whether it names the bridge
that the lane had. -/
def identPay (bytes : List Byte) : List Byte := (rxFlitOf bytes).payload

def identFails (d : Dev) (L : Nat) (bytes : List Byte) : Nat :=
  identCheck (identPay bytes) (getBits (d.reg (tetReg L .TET_LCFG)) 4 4)

def IdentReady (bytes : List Byte) : Prop := rxN (identPay bytes) 7 1 % 2 = 1

def IdentSame (d : Dev) (L : Nat) (bytes : List Byte) : Prop :=
  rxN (identPay bytes) 7 1 / 4 % 2 = 1 ∧ rxN (identPay bytes) 8 8 = d.regN (tetReg L .TET_BRID)

theorem identSame_iff (d : Dev) (L : Nat) (bytes : List Byte) : IdentSame d L bytes ↔
    ¬ (rxN (identPay bytes) 7 1 / 4 % 2 = 0 ∨ rxN (identPay bytes) 8 8 ≠ d.regN (tetReg L .TET_BRID)) := by
  have hbit : rxN (identPay bytes) 7 1 / 4 % 2 = 1 ↔ ¬ rxN (identPay bytes) 7 1 / 4 % 2 = 0 := by omega
  rw [IdentSame, hbit, not_or, not_not]

/-- A flit that arrives whole: its framing, its CRC and its form are good. -/
def Whole (bytes : List Byte) (clean : Bool) : Prop := clean = true ∧ rxCrcOk bytes = true ∧ rxFormOk bytes = true

theorem whole_iff (bytes : List Byte) (clean : Bool) :
    Whole bytes clean ↔ ¬ (!clean || !rxCrcOk bytes || !rxFormOk bytes) = true := by
  simp [Whole, and_assoc]

/-- The chip with the lane's receiver of IDENTs satisfied. -/
def identTaken (d : Dev) (L : Nat) : Dev := d.setLane L { d.lane L with rxOk := true }

section
variable {L : Nat} {bytes : List Byte} {clean : Bool} {k : Clk} {d : Dev}

theorem xIdent_deaf (h : ¬ (d.laneState L = 3 ∨ d.laneState L = 4 ∨ d.laneState L = 8)) : xIdent L bytes clean k d = d := if_pos h

section
variable (h : d.laneState L = 3 ∨ d.laneState L = 4 ∨ d.laneState L = 8)
include h

theorem xIdent_corrupt (hw : ¬ Whole bytes clean) : xIdent L bytes clean k d = d.bump (tetReg L .TET_CRC_ERR) :=
  (if_neg (not_not.2 h)).trans (if_pos (not_not.1 (mt (whole_iff _ _).2 hw)))

theorem xIdent_another (hw : Whole bytes clean) (ht : rxN bytes 0 1 ≠ 6) : xIdent L bytes clean k d = d :=
  (if_neg (not_not.2 h)).trans ((if_neg ((whole_iff _ _).1 hw)).trans (if_pos ht))

end

/-- A whole IDENT by the lane's state. -/
theorem xIdent_heard (h : d.laneState L = 3 ∨ d.laneState L = 4 ∨ d.laneState L = 8) (hw : Whole bytes clean)
    (ht : rxN bytes 0 1 = 6) : xIdent L bytes clean k d =
      if d.laneState L = 4 then d.leaveUp k.tick L 4 1
      else if d.laneState L = 8 then
        if !(d.lane L).locked || decide (identFails d L bytes ≠ 0) then d
        else if rxN (identPay bytes) 7 1 / 4 % 2 = 0 ∨ rxN (identPay bytes) 8 8 ≠ d.regN (tetReg L .TET_BRID) then
          d.leaveUp k.tick L 5 1
        else if rxN (identPay bytes) 7 1 % 2 = 1 then
          (((((identTaken d L).setLaneState L 4).laneTrained L).laneEvent k.tick L).resend L).txMgmt L
        else identTaken d L
      else if identFails d L bytes ≠ 0 then (d.setLaneCause L (identFails d L bytes)).laneFail k.tick L 7
      else if rxN (identPay bytes) 7 1 % 2 = 1 then (identTaken d L).enterUp k.tick L (identPay bytes) else identTaken d L :=
  (if_neg (not_not.2 h)).trans ((if_neg ((whole_iff _ _).1 hw)).trans (if_neg (not_not.2 ht)))

section
variable (hw : Whole bytes clean) (ht : rxN bytes 0 1 = 6)
include hw ht

theorem xIdent_up (hs : d.laneState L = 4) : xIdent L bytes clean k d = d.leaveUp k.tick L 4 1 :=
  (xIdent_heard (.inr (.inl hs)) hw ht).trans (if_pos hs)

section
variable (hs : d.laneState L = 3)
include hs

/-- In IDENT only the check and the flag of a whole IDENT decide. -/
theorem xIdent_ident : xIdent L bytes clean k d =
    if identFails d L bytes ≠ 0 then (d.setLaneCause L (identFails d L bytes)).laneFail k.tick L 7
    else if rxN (identPay bytes) 7 1 % 2 = 1 then (identTaken d L).enterUp k.tick L (identPay bytes) else identTaken d L :=
  (xIdent_heard (.inl hs) hw ht).trans ((if_neg (by omega)).trans (if_neg (by omega)))

theorem xIdent_rejects (hc : identFails d L bytes ≠ 0) :
    xIdent L bytes clean k d = (d.setLaneCause L (identFails d L bytes)).laneFail k.tick L 7 :=
  (xIdent_ident hw ht hs).trans (if_pos hc)

theorem xIdent_enters (hc : identFails d L bytes = 0) (hr : IdentReady bytes) :
    xIdent L bytes clean k d = (identTaken d L).enterUp k.tick L (identPay bytes) :=
  (xIdent_ident hw ht hs).trans ((if_neg (not_not.2 hc)).trans (if_pos hr))

theorem xIdent_waits (hc : identFails d L bytes = 0) (hr : ¬ IdentReady bytes) : xIdent L bytes clean k d = identTaken d L :=
  (xIdent_ident hw ht hs).trans ((if_neg (not_not.2 hc)).trans (if_neg hr))

end

section
variable (hs : d.laneState L = 8)
include hs

theorem xIdent_retrain_early (h : (d.lane L).locked = false ∨ identFails d L bytes ≠ 0) : xIdent L bytes clean k d = d := by
  refine (xIdent_heard (.inr (.inr hs)) hw ht).trans ((if_neg (by omega)).trans ((if_pos hs).trans (if_pos ?_)))
  simpa using h

variable (hl : (d.lane L).locked = true) (hc : identFails d L bytes = 0)
include hl hc

/-- In a locked RETRAIN the bridge that a good IDENT names decides, and the flag. -/
theorem xIdent_retrain : xIdent L bytes clean k d =
    if rxN (identPay bytes) 7 1 / 4 % 2 = 0 ∨ rxN (identPay bytes) 8 8 ≠ d.regN (tetReg L .TET_BRID) then d.leaveUp k.tick L 5 1
    else if rxN (identPay bytes) 7 1 % 2 = 1 then
      (((((identTaken d L).setLaneState L 4).laneTrained L).laneEvent k.tick L).resend L).txMgmt L
    else identTaken d L :=
  (xIdent_heard (.inr (.inr hs)) hw ht).trans ((if_neg (by omega)).trans ((if_pos hs).trans (if_neg (by simp [hl, hc]))))

theorem xIdent_departs (h : ¬ IdentSame d L bytes) : xIdent L bytes clean k d = d.leaveUp k.tick L 5 1 :=
  (xIdent_retrain hw ht hs hl hc).trans (if_pos (not_not.1 (mt (identSame_iff _ _ _).2 h)))

theorem xIdent_resumes (h : IdentSame d L bytes) (hr : IdentReady bytes) : xIdent L bytes clean k d =
    (((((identTaken d L).setLaneState L 4).laneTrained L).laneEvent k.tick L).resend L).txMgmt L :=
  (xIdent_retrain hw ht hs hl hc).trans ((if_neg ((identSame_iff _ _ _).1 h)).trans (if_pos hr))

theorem xIdent_retrain_waits (h : IdentSame d L bytes) (hr : ¬ IdentReady bytes) :
    xIdent L bytes clean k d = identTaken d L :=
  (xIdent_retrain hw ht hs hl hc).trans ((if_neg ((identSame_iff _ _ _).1 h)).trans (if_neg hr))

end

end

end

/-! ### RETRAIN (R472) -/

section
variable {m : Mst} {L v : Nat} {d : Dev} (hm : m.owner = true)
include hm

theorem xTetRetrain_goes (h : v.testBit 1 = true ∧ d.laneState L = 4) :
    xTetRetrain m L v d = ((d.txCtl L 0x82 0 255 0).enterRetrain L).okay := (if_neg (not_bnot_of hm)).trans (if_pos h)

theorem xTetRetrain_nothing (h : ¬ (v.testBit 1 = true ∧ d.laneState L = 4)) : xTetRetrain m L v d = d.okay :=
  (if_neg (not_bnot_of hm)).trans (if_neg h)

end

/-- Settles O39: a received IDENT by the lane's state and by what it says, RETRAIN and its timeout by the lane's state. -/
theorem tetherUpDown : Obligations.TetherUpDown := by
  refine ⟨?_, ?_, ?_, ?_⟩
  case refine_1 => exact fun L s => ⟨fun h => next_congr (if_pos h), fun h => next_congr (if_neg h)⟩
  case refine_2 =>
    intro L bytes clean s
    refine ⟨?_, ?_, ?_, ?_, ?_, ?_, ?_, ?_, ?_, ?_, ?_⟩
    case refine_1 => exact fun h => next_congr (xIdent_deaf h)
    case refine_2 => exact fun h hw => next_congr (xIdent_corrupt h hw)
    case refine_3 => exact fun h hw ht => next_congr (xIdent_another h hw ht)
    case refine_4 => exact fun ⟨_, hw, ht⟩ hs hc hr => next_congr (xIdent_enters hw ht hs hc hr)
    case refine_5 => exact fun ⟨_, hw, ht⟩ hs hc hr => next_congr (xIdent_waits hw ht hs hc hr)
    case refine_6 => exact fun ⟨_, hw, ht⟩ hs hc => next_congr (xIdent_rejects hw ht hs hc)
    case refine_7 => exact fun ⟨_, hw, ht⟩ hs => next_congr (xIdent_up hw ht hs)
    case refine_8 => exact fun ⟨_, hw, ht⟩ hs h => next_congr (xIdent_retrain_early hw ht hs h)
    case refine_9 => exact fun ⟨_, hw, ht⟩ hs hl hc h => next_congr (xIdent_departs hw ht hs hl hc h)
    case refine_10 => exact fun ⟨_, hw, ht⟩ hs hl hc h hr => next_congr (xIdent_resumes hw ht hs hl hc h hr)
    case refine_11 => exact fun ⟨_, hw, ht⟩ hs hl hc h hr => next_congr (xIdent_retrain_waits hw ht hs hl hc h hr)
  case refine_3 =>
    exact fun m L v s hm => ⟨fun h => next_congr (xTetRetrain_goes hm h), fun h => next_congr (xTetRetrain_nothing hm h)⟩
  case refine_4 => exact fun L s => ⟨fun h => next_congr (if_pos h), fun h => next_congr (if_neg h)⟩

end Sys2Proof.Proofs

namespace Sys2Proof.Proofs

open Sys2Proof.Machine Sys2Proof.Safety

/-! The flits of a tether lane (16 R459–R466). -/

/-! ### What becomes of a received flit (R459, R460) -/

section
variable {L want : Nat} {bytes : List Byte} {clean : Bool} {d : Dev} {f : Dev → Flit → Dev}

theorem rxFlit_deaf (h : ¬ (d.laneState L = 4 ∨ d.laneState L = 8)) : d.rxFlit L want bytes clean f = d := if_pos h

theorem flit_clean (hc : clean = true ∧ rxCrcOk bytes = true) : ¬ (!clean || !rxCrcOk bytes) = true := by
  simp [hc.1, hc.2]

section
variable (h : d.laneState L = 4 ∨ d.laneState L = 8)
include h

theorem rxFlit_corrupt (hc : ¬ (clean = true ∧ rxCrcOk bytes = true)) :
    d.rxFlit L want bytes clean f = (d.bump (tetReg L .TET_CRC_ERR)).nak L :=
  (if_neg (not_not.2 h)).trans (if_pos (by simpa [-not_and, not_and_or] using hc))

variable (hc : clean = true ∧ rxCrcOk bytes = true)
include hc

theorem rxFlit_badForm_sequenced (hf : rxFormOk bytes = false) (ht : isSequenced (rxN bytes 0 1) = true) :
    d.rxFlit L want bytes clean f = (d.bump (tetReg L .TET_CRC_ERR)).nak L :=
  (if_neg (not_not.2 h)).trans ((if_neg (flit_clean hc)).trans
    ((if_pos (bnot_of_not (ne_true_of_eq_false hf))).trans (if_pos ht)))

theorem rxFlit_badForm_control (hf : rxFormOk bytes = false) (ht : isSequenced (rxN bytes 0 1) = false) :
    d.rxFlit L want bytes clean f = d.bump (tetReg L .TET_CRC_ERR) :=
  (if_neg (not_not.2 h)).trans ((if_neg (flit_clean hc)).trans
    ((if_pos (bnot_of_not (ne_true_of_eq_false hf))).trans (if_neg (ne_true_of_eq_false ht))))

theorem rxFlit_another (hf : rxFormOk bytes = true) (ht : rxN bytes 0 1 ≠ want) : d.rxFlit L want bytes clean f = d :=
  (if_neg (not_not.2 h)).trans ((if_neg (flit_clean hc)).trans ((if_neg (not_bnot_of hf)).trans (if_pos ht)))

end

section
variable (h : goodFlit d L want bytes)
include h

/-- A good flit of the type that is taken releases what its ACK names and goes by its SEQ, if it has one. -/
theorem rxFlit_good : d.rxFlit L want bytes true f =
    if !isSequenced (rxN bytes 0 1) then f (acked d L bytes) (rxFlitOf bytes)
    else if (rxFlitOf bytes).seq = ((acked d L bytes).lane L).rxNext then f (accepted d L bytes) (rxFlitOf bytes)
    else if 2048 ≤ ((rxFlitOf bytes).seq + 4096 - ((acked d L bytes).lane L).rxNext) % 4096 then acked d L bytes
    else (acked d L bytes).nak L := by
  obtain ⟨hs, hcrc, hform, ht⟩ := h
  exact (if_neg (not_not.2 hs)).trans ((if_neg (by simp [hcrc])).trans ((if_neg (not_bnot_of hform)).trans (if_neg (not_not.2 ht))))

theorem rxFlit_control (hseq : isSequenced want = false) :
    d.rxFlit L want bytes true f = f (acked d L bytes) (rxFlitOf bytes) := by
  refine (rxFlit_good h).trans (if_pos (bnot_of_not (ne_true_of_eq_false ?_)))
  rw [h.2.2.2, hseq]

variable (hseq : isSequenced want = true)
include hseq

theorem good_sequenced : ¬ (!isSequenced (rxN bytes 0 1)) = true := not_bnot_of (by rw [h.2.2.2, hseq])

theorem rxFlit_inOrder (ho : inOrder d L bytes) : d.rxFlit L want bytes true f = f (accepted d L bytes) (rxFlitOf bytes) :=
  (rxFlit_good h).trans ((if_neg (good_sequenced h hseq)).trans (if_pos ho))

variable (ho : ¬ inOrder d L bytes)
include ho

theorem rxFlit_duplicate (hb : 2048 ≤ (rxN bytes 8 2 % 4096 + 4096 - ((acked d L bytes).lane L).rxNext) % 4096) :
    d.rxFlit L want bytes true f = acked d L bytes :=
  (rxFlit_good h).trans ((if_neg (good_sequenced h hseq)).trans ((if_neg ho).trans (if_pos hb)))

theorem rxFlit_ahead (hb : ¬ 2048 ≤ (rxN bytes 8 2 % 4096 + 4096 - ((acked d L bytes).lane L).rxNext) % 4096) :
    d.rxFlit L want bytes true f = (acked d L bytes).nak L :=
  (rxFlit_good h).trans ((if_neg (good_sequenced h hseq)).trans ((if_neg ho).trans (if_neg hb)))

end

/-- The six rows of received flits, which share the checks of `Dev.rxFlit`. -/
theorem flitRows_of {k : Clk} {d' : Dev} (h : ∀ want f, d.rxFlit L want bytes clean f = d') :
    xResp L bytes clean k d = d' ∧ xRdata L bytes clean k d = d' ∧ xMgmt L bytes clean d = d' ∧
      xLctl L bytes clean d = d' ∧ xNak L bytes clean k d = d' ∧ xRtrn L bytes clean d = d' :=
  ⟨h _ _, h _ _, h _ _, h _ _, h _ _, h _ _⟩

end

/-! ### CMD flits (R461, R462, R464) -/

/-- The oldest group that waits for a bridge channel. -/
def nextGroup (d : Dev) (L kk : Nat) : Option OutGrp := (d.lane L).outq.find? (fun y => decide (y.chan = kk))

section
variable {L kk : Nat} {k : Clk} {d : Dev}

/-- A CMD flit may be sent. -/
def CmdMay (d : Dev) (L kk : Nat) : Prop := d.sysHalt = false ∧ d.canSend L = true ∧ d.credits L kk 0 ≠ 0

theorem cmdMay_iff : CmdMay d L kk ↔ ¬ (d.sysHalt || !d.canSend L || decide (d.credits L kk 0 = 0)) = true := by
  simp [CmdMay, and_assoc]

theorem xCmdFlit_none (h : nextGroup d L kk = none) : xCmdFlit L kk k d = d := by
  rw [nextGroup] at h
  simp only [xCmdFlit, h]

theorem xCmdFlit_may_not (h : ¬ CmdMay d L kk) : xCmdFlit L kk k d = d := by
  cases hg : nextGroup d L kk with
  | none => exact xCmdFlit_none hg
  | some g =>
    rw [nextGroup] at hg
    simp only [xCmdFlit, hg, if_pos (not_not.1 (mt cmdMay_iff.2 h))]

/-- The chip with a group on its way: its flit sent, its data records queued, its answer awaited, its credit taken. -/
def groupSent (d : Dev) (L kk : Nat) (g : OutGrp) : Dev :=
  let l := d.lane L
  let ch := 64 + 8 * L + kk
  let tag := nextTag (d.mchan ch).tag
  let wpn := d.flag F.MSQ_CHCTRL_WPN (mediaPlace ch).1 (mediaPlace ch).2
  let payload := leBytes (recGroup g.ce g.recs.length wpn g.hold) 16 ++ g.recs.flatMap (fun r => leBytes r.1 16)
  let datas := g.recs.filter (fun r => recIsData r.1)
  let w : List WOut := (datas.zip (upTo datas.length)).filterMap (fun p =>
    if p.1.1 % 256 = 4 then some ⟨kk, tag, p.2, ch * 0x40000 + p.1.2, bitsOf p.1.1 63 32, 0, false⟩ else none)
  let l1 : Lane := { l with
    outq := l.outq.eraseP (fun y => decide (y.chan = kk)), wq := l.wq ++ w,
    unans := l.unans ++ [⟨some g.key, kk, tag, datas.map (fun r => ch * 0x40000 + r.2)⟩] }
  let d1 := ((d.setLane L l1).setMchan ch { d.mchan ch with tag := tag }).setCredits L kk 0 (d.credits L kk 0 - 1)
  d1.txSeqFlit L ⟨0, 1, 0, kk, tag, 0, payload.length, payload⟩

/-- A confirm in a group that was sent is driven now (R464). -/
def groupConfirms (d : Dev) (now ch : Nat) (g : OutGrp) : Dev :=
  match g.conf with
  | none => d
  | some u =>
    match (d.confirm now ch u).mctx ch (g.key % 8) with
    | some c => (d.confirm now ch u).setMctx ch (g.key % 8) (some { c with conf := false })
    | none => d.confirm now ch u

section
variable {g : OutGrp} (hg : nextGroup d L kk = some g) (hm : CmdMay d L kk)
include hg hm

/-- Both sides act on the same chip `d2`, by the group's confirm and its context alone. -/
theorem xCmdFlit_sends : xCmdFlit L kk k d = groupConfirms (groupSent d L kk g) k.tick (64 + 8 * L + kk) g := by
  rw [nextGroup] at hg
  rw [cmdMay_iff] at hm
  delta xCmdFlit groupSent
  dsimp only
  rw [hg]
  dsimp only
  rw [if_neg hm]
  generalize Dev.txSeqFlit _ _ _ = d2
  unfold groupConfirms
  cases g.conf with
  | none => rfl
  | some u => cases (d2.confirm k.tick (64 + 8 * L + kk) u).mctx (64 + 8 * L + kk) (g.key % 8) <;> rfl

end

section
variable {g : OutGrp} {now ch u : Nat}

theorem groupConfirms_plain (hc : g.conf = none) : groupConfirms d now ch g = d := by simp only [groupConfirms, hc]

theorem groupConfirms_some {c : MCtx} (hc : g.conf = some u) (hx : (d.confirm now ch u).mctx ch (g.key % 8) = some c) :
    groupConfirms d now ch g = (d.confirm now ch u).setMctx ch (g.key % 8) (some { c with conf := false }) := by
  simp only [groupConfirms, hc, hx]

theorem groupConfirms_gone (hc : g.conf = some u) (hx : (d.confirm now ch u).mctx ch (g.key % 8) = none) :
    groupConfirms d now ch g = d.confirm now ch u := by simp only [groupConfirms, hc, hx]

end

end

/-! ### WDATA flits (R461, R466) -/

/-- The oldest DOUT record that waits for a bridge channel. -/
def nextData (d : Dev) (L kk : Nat) : Option WOut := (d.lane L).wq.find? (fun y => decide (y.chan = kk))

/-- A WDATA flit may be sent. -/
def DataMay (d : Dev) (L kk : Nat) : Prop := d.canSend L = true ∧ d.credits L kk 1 ≠ 0

section
variable {L kk ce : Nat} {ue : Option Nat} {d : Dev}

theorem dataMay_iff : DataMay d L kk ↔ ¬ (!d.canSend L || decide (d.credits L kk 1 = 0)) = true := by simp [DataMay]

theorem xWdata_none (h : nextData d L kk = none) : xWdata L kk ue ce d = d := by
  rw [nextData] at h
  simp only [xWdata, h]

theorem xWdata_may_not (h : ¬ DataMay d L kk) : xWdata L kk ue ce d = d := by
  cases hw : nextData d L kk with
  | none => exact xWdata_none hw
  | some w =>
    rw [nextData] at hw
    simp only [xWdata, hw, if_pos (not_not.1 (mt dataMay_iff.2 h))]

/-- The flags of a WDATA flit: more of the record follows, and poison. -/
theorem dataFlags_eq (p : Prop) [Decidable p] (b : Bool) :
    1 + b2n (decide p) * 4 + b2n b * 8 = 1 + (if p then 4 else 0) + (if b then 8 else 0) := by
  by_cases hp : p <;> cases b <;> simp [hp, b2n]

/-- The chip with the next flit of a DOUT record sent. -/
def dataSent (d : Dev) (L kk : Nat) (ue : Option Nat) (ce : Nat) (w : WOut) : Dev :=
  let n := Nat.min 1024 (w.len - w.sent)
  let bad := w.poison || ue.isSome
  let fl := 1 + (if w.sent + n < w.len then 4 else 0) + (if bad then 8 else 0)
  let w1 : WOut := { w with sent := w.sent + n, poison := bad }
  let wq := if w.sent + n < w.len then (d.lane L).wq.map (fun y => if y = w then w1 else y)
    else (d.lane L).wq.filter (fun y => decide (y ≠ w))
  let d0 := (d.setLane L { d.lane L with wq := wq }).setCredits L kk 1 (d.credits L kk 1 - 1)
  let d1 := d0.chbufCe (64 + 8 * L + kk) ce
  d1.txSeqFlit L ⟨0, 2, fl, kk, w.tag, w.idx * 2 ^ 24 + w.sent, n, d1.chbufBytes (w.addr + w.sent) n⟩

theorem xWdata_sends {w : WOut} (hw : nextData d L kk = some w) (hm : DataMay d L kk) :
    xWdata L kk ue ce d = dataSent d L kk ue ce w := by
  rw [nextData] at hw
  simp only [xWdata, hw, if_neg (dataMay_iff.1 hm), dataFlags_eq, decide_eq_true_eq, dataSent]

end

/-! ### Control flits, replay and credits (R459–R461) -/

section
variable {L : Nat} {d : Dev} (h : d.laneState L = 4)
include h

theorem xCreditReturnDue_returns (ha : (d.lane L).accr ≠ []) :
    xCreditReturnDue L d = (d.lane L).accr.foldl (fun x e => x.returnCredits L e.1 e.2) d :=
  (if_neg (not_not.2 h)).trans (if_neg ha)

variable (ha : (d.lane L).accr = [])
include ha

theorem xCreditReturnDue_acks (hk : (d.lane L).ackDue = true) : xCreditReturnDue L d = d.txCtl L 0x80 0 0 0 :=
  (if_neg (not_not.2 h)).trans ((if_pos ha).trans (if_pos hk))

theorem xCreditReturnDue_nothing (hk : (d.lane L).ackDue = false) : xCreditReturnDue L d = d :=
  (if_neg (not_not.2 h)).trans ((if_pos ha).trans (if_neg (ne_true_of_eq_false hk)))

end

/-- Settles O40: a flit that is sent by its credit, a received one by the checks it passes and its place in the order, a replay and a
credit return by the lane's state. -/
theorem tetherFlits : Obligations.TetherFlits := by
  refine ⟨?_, ?_, ?_, ?_, ?_⟩
  case refine_1 =>
    intro L kk s
    refine ⟨fun g hg hm => ⟨fun hc => ?_, fun u c hc hx => ?_, fun u hc hx => ?_⟩, fun h => ?_⟩
    · exact next_congr ((xCmdFlit_sends hg hm).trans (groupConfirms_plain hc))
    · exact next_congr ((xCmdFlit_sends hg hm).trans (groupConfirms_some hc hx))
    · exact next_congr ((xCmdFlit_sends hg hm).trans (groupConfirms_gone hc hx))
    · exact next_congr (h.elim xCmdFlit_none xCmdFlit_may_not)
  case refine_2 =>
    intro L kk ue ce s
    exact ⟨fun w hw hm => next_congr (xWdata_sends hw hm), fun h => next_congr (h.elim xWdata_none xWdata_may_not)⟩
  case refine_3 =>
    intro L bytes s
    refine ⟨?_, fun h => ⟨fun hk hv => ?_, fun hn => ?_⟩, fun h => ⟨fun hs => ?_, fun hs => ?_⟩, fun h => ⟨fun hs => ?_, fun hs => ?_⟩⟩
    · rintro t (rfl | rfl) h
      · exact ⟨fun ho => next_congr (rxFlit_inOrder h rfl ho), fun ho hb => next_congr (rxFlit_duplicate h rfl ho hb),
          fun ho hb => next_congr (rxFlit_ahead h rfl ho hb)⟩
      · exact ⟨fun ho => next_congr (rxFlit_inOrder h rfl ho), fun ho hb => next_congr (rxFlit_duplicate h rfl ho hb),
          fun ho hb => next_congr (rxFlit_ahead h rfl ho hb)⟩
    · exact next_congr ((rxFlit_control h rfl).trans (if_pos ⟨hk, hv⟩))
    · exact next_congr ((rxFlit_control h rfl).trans (if_neg fun hb => hn.elim (Nat.not_le.2 hb.1) (Nat.not_le.2 hb.2)))
    · exact next_congr ((rxFlit_control h rfl).trans (if_pos hs))
    · exact next_congr ((rxFlit_control h rfl).trans (if_neg hs))
    · exact next_congr ((rxFlit_control h rfl).trans (if_pos hs))
    · exact next_congr ((rxFlit_control h rfl).trans (if_neg hs))
  case refine_4 =>
    intro L bytes clean s
    have all {d' : Dev} (h : ∀ want f, s.d.rxFlit L want bytes clean f = d') :
        exec (.resp L bytes clean) s = .next { s with d := d' } ∧ exec (.rdata L bytes clean) s = .next { s with d := d' } ∧
        exec (.mgmt L bytes clean) s = .next { s with d := d' } ∧ exec (.lctl L bytes clean) s = .next { s with d := d' } ∧
        exec (.nak L bytes clean) s = .next { s with d := d' } ∧ exec (.rtrn L bytes clean) s = .next { s with d := d' } := by
      obtain ⟨h1, h2, h3, h4, h5, h6⟩ := flitRows_of (k := s.clk) h
      exact ⟨next_congr h1, next_congr h2, next_congr h3, next_congr h4, next_congr h5, next_congr h6⟩
    refine ⟨fun h => all fun _ _ => rxFlit_deaf h, fun h hc => all fun _ _ => rxFlit_corrupt h hc,
      fun h hc hf ht => all fun _ _ => rxFlit_badForm_sequenced h hc hf ht,
      fun h hc hf ht => all fun _ _ => rxFlit_badForm_control h hc hf ht, ?_, ?_, ?_, ?_, ?_, ?_⟩
    all_goals exact fun ⟨h, hc, hf⟩ ht => next_congr (rxFlit_another h hc hf ht)
  case refine_5 =>
    intro L s
    refine ⟨fun h => next_congr (if_pos h), fun h => ⟨next_congr (if_neg h), next_congr (if_pos h)⟩, fun h ha => ?_, fun h ha hk => ?_,
      fun h ha hk => ?_⟩
    · exact next_congr (xCreditReturnDue_returns h ha)
    · exact next_congr (xCreditReturnDue_acks h ha hk)
    · exact next_congr (xCreditReturnDue_nothing h ha hk)

end Sys2Proof.Proofs

namespace Sys2Proof.Proofs

open Sys2Proof.Machine Sys2Proof.Safety

/-! Bridge management (16 R459, R473, R474). -/

section
variable {m : Mst} {L v : Nat} {d : Dev} (hm : m.owner = true)
include hm

theorem xTetMcmd_nothing (hgo : ¬ v.testBit 31 = true) : xTetMcmd m L v d = d.okay :=
  (if_neg (not_bnot_of hm)).trans (if_pos (Bool.eq_false_iff.2 hgo))

variable (hgo : v.testBit 31 = true)
include hgo

theorem xTetMcmd_busy (hb : d.mgmtBusy L = true) : xTetMcmd m L v d = d.refuse m (tetReg L .TET_MCMD) :=
  (if_neg (not_bnot_of hm)).trans ((if_neg (by simp [hgo])).trans (if_pos hb))

variable (hb : ¬ d.mgmtBusy L = true)
include hb

theorem xTetMcmd_length (hl : ¬ (v % 2048 ≠ 0 ∧ v % 2048 ≤ 1024)) : xTetMcmd m L v d = (d.mgmtEnd L 4 0).okay :=
  (if_neg (not_bnot_of hm)).trans ((if_neg (by simp [hgo])).trans ((if_neg hb).trans (if_pos (by omega))))

variable (hl : v % 2048 ≠ 0 ∧ v % 2048 ≤ 1024)
include hl

theorem xTetMcmd_down (hs : d.laneState L ≠ 4) : xTetMcmd m L v d = (d.mgmtEnd L 3 0).okay :=
  (if_neg (not_bnot_of hm)).trans ((if_neg (by simp [hgo])).trans ((if_neg hb).trans ((if_neg (by omega)).trans (if_pos hs))))

/-- What the read of the request gives. -/
def mgmtRead (d : Dev) (L len : Nat) : Dev × Option (List Byte) :=
  d.readBlock (mMid (64 + 8 * L)) (d.regN (tetReg L .TET_MADDR)) len 4

variable (hs : d.laneState L = 4)
include hs

theorem xTetMcmd_failed (hr : (mgmtRead d L (v % 2048)).2 = none) :
    xTetMcmd m L v d = ((mgmtRead d L (v % 2048)).1.mgmtEnd L 5 0).okay := by
  refine (if_neg (not_bnot_of hm)).trans ((if_neg (by simp [hgo])).trans ((if_neg hb).trans ((if_neg (by omega)).trans
    ((if_neg (not_not.2 hs)).trans ?_))))
  rw [mgmtRead] at hr
  simp only [hr, mgmtRead]

/-- The chip with a request read and sent. -/
def mgmtSent (d : Dev) (L len : Nat) (b : List Byte) : Dev :=
  let d1 := d.setRegN (tetReg L .TET_MSTAT) (2 ^ 31)
  (d1.setLane L { d1.lane L with mreq := some ⟨0, 5, 2, 255, 0, 0, len, b⟩ }).txMgmt L

theorem xTetMcmd_sends {b : List Byte} (hr : (mgmtRead d L (v % 2048)).2 = some b) :
    xTetMcmd m L v d = (mgmtSent (mgmtRead d L (v % 2048)).1 L (v % 2048) b).okay := by
  refine (if_neg (not_bnot_of hm)).trans ((if_neg (by simp [hgo])).trans ((if_neg hb).trans ((if_neg (by omega)).trans
    ((if_neg (not_not.2 hs)).trans ?_))))
  rw [mgmtRead] at hr
  simp only [hr, mgmtRead, mgmtSent]

end

section
variable {L : Nat} {bytes : List Byte} {d : Dev} (h : goodFlit d L 5 bytes) (ho : inOrder d L bytes)
include h ho

/-- The reply that is accepted in order ends the request that awaits it. -/
theorem xMgmt_inOrder : xMgmt L bytes true d =
    if !(accepted d L bytes).mgmtBusy L then accepted d L bytes
    else
      let w := (accepted d L bytes).writeBlock (mMid (64 + 8 * L)) ((accepted d L bytes).regN (tetReg L .TET_MRADDR))
        ((rxFlitOf bytes).payload.take 1024) 4
      w.1.mgmtEnd L (if w.2 then 1 else 5) (rxFlitOf bytes).len := rxFlit_inOrder h rfl ho

theorem xMgmt_unasked (hb : (accepted d L bytes).mgmtBusy L = false) : xMgmt L bytes true d = accepted d L bytes :=
  (xMgmt_inOrder h ho).trans (if_pos (bnot_of_not (ne_true_of_eq_false hb)))

theorem xMgmt_ends (hb : (accepted d L bytes).mgmtBusy L = true) {w : Dev × Bool} (hw : (accepted d L bytes).writeBlock
      (mMid (64 + 8 * L)) ((accepted d L bytes).regN (tetReg L .TET_MRADDR)) ((rxFlitOf bytes).payload.take 1024) 4 = w) :
    xMgmt L bytes true d = w.1.mgmtEnd L (if w.2 then 1 else 5) (rxFlitOf bytes).len := by
  subst hw
  exact (xMgmt_inOrder h ho).trans (if_neg (not_bnot_of hb))

end

/-- Settles O41: GO by the first check that it fails, a reply by its place in the order and the request that awaits it. -/
theorem tetherManagement : Obligations.TetherManagement := by
  refine ⟨?_, ?_, ?_⟩
  case refine_1 =>
    intro m L v s hm
    refine ⟨fun hg => next_congr (xTetMcmd_nothing hm hg), fun hg hb => next_congr (xTetMcmd_busy hm hg hb),
      fun hg hb hl => next_congr (xTetMcmd_length hm hg hb hl), fun hg hb hl hs => next_congr (xTetMcmd_down hm hg hb hl hs),
      fun hg hb hl hs hr => next_congr (xTetMcmd_failed hm hg hb hl hs hr),
      fun b hg hb hl hs hr => next_congr (xTetMcmd_sends hm hg hb hl hs hr)⟩
  case refine_2 =>
    intro L bytes s h
    refine ⟨fun ho hb hw => ?_, fun ho hb hw => ?_, fun ho hb => next_congr (xMgmt_unasked h ho hb),
      fun ho hb => next_congr (rxFlit_duplicate h rfl ho hb), fun ho hb => next_congr (rxFlit_ahead h rfl ho hb)⟩
    · exact next_congr ((xMgmt_ends h ho hb rfl).trans (congrArg (Dev.mgmtEnd _ L · _) (if_pos hw)))
    · exact next_congr ((xMgmt_ends h ho hb rfl).trans (congrArg (Dev.mgmtEnd _ L · _) (if_neg (ne_true_of_eq_false hw))))
  case refine_3 =>
    exact fun L s => ⟨fun h => next_congr (if_pos h), fun h => next_congr (if_neg (ne_true_of_eq_false h))⟩

end Sys2Proof.Proofs

namespace Sys2Proof.Proofs

open Sys2Proof.Machine Sys2Proof.Safety

/-! The read-voltage tracker (17 R485, R491, R492, R495, R496). -/

/-! ### CAL_ECMD (R491) -/

/-- A command of the tracker that reaches its entry: in range, with the tracker on. -/
def CalRuns (d : Dev) (q v : Nat) : Prop := bitsOf v 18 0 < calEntries ∧ d.calEn q = true

section
variable {m : Mst} {q v cmd : Nat} {k : Clk} {d : Dev} {f : Dev → Nat → Nat → Dev} (hm : m.oid = 0)
include hm

theorem calEcmd_another (hc : bitsOf v 63 60 ≠ cmd) : d.calEcmd m q v cmd f = d := (if_neg (not_denied hm)).trans (if_pos hc)

section
variable (hc : bitsOf v 63 60 = cmd)
include hc

theorem calEcmd_range (he : calEntries ≤ bitsOf v 18 0) : d.calEcmd m q v cmd f = d.calDone q 2 :=
  (if_neg (not_denied hm)).trans ((if_neg (not_not.2 hc)).trans (if_pos he))

theorem calEcmd_off (he : bitsOf v 18 0 < calEntries) (hn : d.calEn q = false) : d.calEcmd m q v cmd f = d.calDone q 4 :=
  (if_neg (not_denied hm)).trans ((if_neg (not_not.2 hc)).trans
    ((if_neg (Nat.not_le.2 he)).trans (if_pos (bnot_of_not (ne_true_of_eq_false hn)))))

variable (hr : CalRuns d q v)
include hr

theorem calEcmd_failed (hg : (d.calGet q (bitsOf v 18 0)).2 = none) :
    d.calEcmd m q v cmd f = (d.calGet q (bitsOf v 18 0)).1.calDone q 3 := by
  refine (if_neg (not_denied hm)).trans ((if_neg (not_not.2 hc)).trans
    ((if_neg (Nat.not_le.2 hr.1)).trans ((if_neg (not_bnot_of hr.2)).trans ?_)))
  simp only [hg]

theorem calEcmd_done {old : Nat} (hg : (d.calGet q (bitsOf v 18 0)).2 = some old) :
    d.calEcmd m q v cmd f = (f (d.calGet q (bitsOf v 18 0)).1 (bitsOf v 18 0) old).calDone q 1 := by
  refine (if_neg (not_denied hm)).trans ((if_neg (not_not.2 hc)).trans
    ((if_neg (Nat.not_le.2 hr.1)).trans ((if_neg (not_bnot_of hr.2)).trans ?_)))
  simp only [hg]

end

theorem xCalFlush_another (hc : bitsOf v 63 60 ≠ 4) : xCalFlush m q v d = d := (if_neg (not_denied hm)).trans (if_pos hc)

theorem xCalFlush_ends (hc : bitsOf v 63 60 = 4) :
    xCalFlush m q v d = (d.calFlush q).1.calDone q (if (d.calFlush q).2 then 1 else 3) :=
  (if_neg (not_denied hm)).trans (if_neg (not_not.2 hc))

end

/-! ### CACHE_WRITEBACK and WALK (R492) -/

section
variable {q e : Nat} {k : Clk} {d : Dev}

theorem xCacheWriteback_none (h : d.calLine q e = none) : xCacheWriteback q e d = d := by
  simp only [xCacheWriteback, Dev.calWriteBack, h]

theorem xCacheWriteback_clean {l : CalLine} (h : d.calLine q e = some l) (hd : l.dirty = false) : xCacheWriteback q e d = d := by
  simp only [xCacheWriteback, Dev.calWriteBack, h, hd, Bool.false_eq_true, if_false]

theorem xCacheWriteback_dirty {l : CalLine} (h : d.calLine q e = some l) (hd : l.dirty = true) :
    xCacheWriteback q e d = (d.calMemWrite q e l.bytes).1.setCal q e (some { l with dirty := false }) := by
  simp only [xCacheWriteback, Dev.calWriteBack, h, hd, if_true]

/-- The walk of a quarter visits an entry: WALK is 1, there is a table, and the entry is in it. -/
def CalWalks (d : Dev) (q e : Nat) : Prop :=
  (d.reg (R.CAL_CTRL.at q)).getLsbD 1 = true ∧ d.regN (R.CAL_TBASE.at q) ≠ 0 ∧ e < calEntries

theorem calWalks_iff : CalWalks d q e ↔
    ¬ ((!(d.reg (R.CAL_CTRL.at q)).getLsbD 1) = true ∨ d.regN (R.CAL_TBASE.at q) = 0 ∨ calEntries ≤ e) := by
  simp [CalWalks]

theorem xCalWalk_not (h : ¬ CalWalks d q e) : xCalWalk q e k d = d := if_pos (not_not.1 (mt calWalks_iff.2 h))

section
variable (h : CalWalks d q e)
include h

theorem xCalWalk_failed (hg : (d.calGet q e).2 = none) : xCalWalk q e k d = (d.calGet q e).1 := by
  refine (if_neg (calWalks_iff.1 h)).trans ?_
  simp only [hg]

/-- A valid entry past its age turns COLD, another stays. -/
theorem xCalWalk_visits {v : Nat} (hg : (d.calGet q e).2 = some v) : xCalWalk q e k d =
    if calValid v ∧ d.fld F.CAL_PASTALE_ASTALE q (d.calProfile q (calChan e)) < (timeUnits k.tick + 2 ^ 32 - calTime v) % 2 ^ 32
      then (d.calGet q e).1.calPut q e (setBitsN v 137 137 1) else (d.calGet q e).1 := by
  refine (if_neg (calWalks_iff.1 h)).trans ?_
  simp only [hg]

end

end

/-- Settles O30: an entry command by its code, its range, the tracker's state and the entry; a write-back and a walk by the entry. -/
theorem trackerEntries : Obligations.TrackerEntries := by
  refine ⟨?_, ?_, ?_⟩
  case refine_1 =>
    intro m q v s hm
    refine ⟨fun old hr hg => ⟨fun hc => ?_, fun hc ht => ?_, fun hc ht => ?_, fun hc => ?_⟩, fun hr hg => ?_, fun he => ?_,
      fun he hn => ?_, fun hc => ⟨fun hw => ?_, fun hw => ?_⟩, ?_, ?_, ?_, ?_⟩
    · exact next_congr (calEcmd_done hm hc hr hg)
    · exact next_congr ((calEcmd_done hm hc hr hg).trans (congrArg (fun n => (Dev.calPut _ q _ n).calDone q 1)
        (if_neg (ne_true_of_eq_false ht))))
    · exact next_congr ((calEcmd_done hm hc hr hg).trans (congrArg (fun n => (Dev.calPut _ q _ n).calDone q 1) (if_pos ht)))
    · exact next_congr (calEcmd_done hm hc hr hg)
    · exact ⟨fun hc => next_congr (calEcmd_failed hm hc hr hg), fun hc => next_congr (calEcmd_failed hm hc hr hg),
        fun hc => next_congr (calEcmd_failed hm hc hr hg)⟩
    · exact ⟨fun hc => next_congr (calEcmd_range hm hc he), fun hc => next_congr (calEcmd_range hm hc he),
        fun hc => next_congr (calEcmd_range hm hc he)⟩
    · exact ⟨fun hc => next_congr (calEcmd_off hm hc he hn), fun hc => next_congr (calEcmd_off hm hc he hn),
        fun hc => next_congr (calEcmd_off hm hc he hn)⟩
    · exact next_congr ((xCalFlush_ends hm hc).trans (congrArg (Dev.calDone _ q) (if_pos hw)))
    · exact next_congr ((xCalFlush_ends hm hc).trans (congrArg (Dev.calDone _ q) (if_neg (ne_true_of_eq_false hw))))
    · exact fun hc => next_congr (calEcmd_another hm hc)
    · exact fun hc => next_congr (calEcmd_another hm hc)
    · exact fun hc => next_congr (calEcmd_another hm hc)
    · exact fun hc => next_congr (xCalFlush_another hm hc)
  case refine_2 =>
    intro q e s hrun
    refine ⟨fun l h hd => ?_, fun l h hd => ?_, fun h => ?_⟩
    · exact next_congr ((unlessHalted_running hrun).trans (xCacheWriteback_dirty h hd))
    · exact next_congr (unlessHalted_still (xCacheWriteback_clean h hd))
    · exact next_congr (unlessHalted_still (xCacheWriteback_none h))
  case refine_3 =>
    intro q e s hrun
    refine ⟨fun v h hg => ⟨fun ho => ?_, fun ho => ?_⟩, fun h hg => ?_, fun h => ?_⟩
    · exact next_congr ((unlessHalted_running hrun).trans ((xCalWalk_visits h hg).trans (if_pos ho)))
    · exact next_congr ((unlessHalted_running hrun).trans ((xCalWalk_visits h hg).trans (if_neg ho)))
    · exact next_congr ((unlessHalted_running hrun).trans (xCalWalk_failed h hg))
    · exact next_congr (unlessHalted_still (xCalWalk_not h))

end Sys2Proof.Proofs

namespace Sys2Proof.Proofs

open Sys2Proof.Machine Sys2Proof.Safety

/-! Flip rings and the control of the tracker (17 R485, R496). -/

/-! ### FLIP_RECORD (R485) -/

/-- The base of a flip ring. -/
def frBase (d : Dev) (q ring : Nat) : Nat := getBits (d.reg (R.CAL_FRBASE.at q ring)) 47 12 * 4096

/-- A flip ring that the tracker reads. -/
def FrOn (d : Dev) (q ring : Nat) : Prop := d.calEn q = true ∧ frBase d q ring ≠ 0

/-- The read of the slot at the read pointer. -/
def frRead (d : Dev) (q ring : Nat) : Dev × Ans :=
  d.hbm (rdReq (calMid q) 0 (frBase d q ring + 64 * d.regN (R.CAL_FRRP.at q ring)) 64) false .none

/-- How far the sequence of a slot is ahead of the one expected. -/
def frAhead (d : Dev) (q ring rcd : Nat) : Nat := (frField rcd 56 4 + 2 ^ 32 - d.regN (R.CAL_FRSEQ.at q ring)) % 2 ^ 32

/-- A slot that is not torn. -/
def FrWhole (rcd : Nat) : Prop := frField rcd 60 4 + frField rcd 56 4 = 2 ^ 32 - 1

/-- The chip `d'` with a slot taken: the pointers of `d`'s ring advance and the record reaches the tracker. -/
def slotTaken (d d' : Dev) (q ring rcd tick : Nat) : Dev :=
  ((d'.setRegN (R.CAL_FRRP.at q ring) ((d.regN (R.CAL_FRRP.at q ring) + 1) % 2 ^ (d.regN (R.CAL_FRSIZE.at q ring) % 32))).setRegN
    (R.CAL_FRSEQ.at q ring) ((frField rcd 56 4 + 1) % 2 ^ 32)).frTake rcd tick

section
variable {q ring : Nat} {k : Clk} {d : Dev}

theorem frOn_iff : FrOn d q ring ↔ ¬ ((!d.calEn q) = true ∨ frBase d q ring = 0) := by simp [FrOn]

theorem xFlipRecord_off (h : ¬ FrOn d q ring) : xFlipRecord q ring k d = d := if_pos (not_not.1 (mt frOn_iff.2 h))

section
variable (h : FrOn d q ring)
include h

theorem xFlipRecord_failed (hc : (frRead d q ring).2.code ≠ .okay) : xFlipRecord q ring k d = (frRead d q ring).1 :=
  (if_neg (frOn_iff.1 h)).trans (if_pos hc)

variable (hc : (frRead d q ring).2.code = .okay)
include hc

theorem xFlipRecord_stays (hs : ¬ FrWhole (leNat (frRead d q ring).2.data) ∨
    2 ^ 31 ≤ frAhead d q ring (leNat (frRead d q ring).2.data)) : xFlipRecord q ring k d = (frRead d q ring).1 :=
  (if_neg (frOn_iff.1 h)).trans ((if_neg (not_not.2 hc)).trans (if_pos hs))

/-- A whole slot that is not behind is taken; those it skips count as lost. -/
theorem xFlipRecord_takes (hw : FrWhole (leNat (frRead d q ring).2.data))
    (ha : frAhead d q ring (leNat (frRead d q ring).2.data) < 2 ^ 31) : xFlipRecord q ring k d =
      slotTaken d (if frAhead d q ring (leNat (frRead d q ring).2.data) = 0 then (frRead d q ring).1
        else (frRead d q ring).1.setRegN (R.CAL_LOST.at q) (satAdd ((frRead d q ring).1.regN (R.CAL_LOST.at q))
          (frAhead d q ring (leNat (frRead d q ring).2.data)) 0xFFFFFFFF)) q ring (leNat (frRead d q ring).2.data) k.tick :=
  (if_neg (frOn_iff.1 h)).trans ((if_neg (not_not.2 hc)).trans (if_neg (not_or.2 ⟨not_not.2 hw, Nat.not_le.2 ha⟩)))

end

end

/-! ### CAL_CTRL and CAL_FRBASE (R496) -/

section
variable {m : Mst} {x : RKey} {d f : Dev}

theorem unlessLocked_locked (h : d.locked x.r.desc.blk x.q = true) : d.unlessLocked m x f = d.refuseAs m x .locked := if_pos h

theorem unlessLocked_free (h : d.locked x.r.desc.blk x.q = false) : d.unlessLocked m x f = f := if_neg (ne_true_of_eq_false h)

end

section
variable {m : Mst} {q v : Nat} {d : Dev} (hm : m.oid = 0)
include hm

theorem xCalCtrl_locked (hl : d.locked .CAL q = true) : xCalCtrl m q v d = d.refuseAs m (R.CAL_CTRL.at q) .locked :=
  (if_neg (not_denied hm)).trans (unlessLocked_locked hl)

theorem xCalFrbase_locked (r : Nat) (hl : d.locked .CAL q = true) : xCalFrbase m q r v d = d.refuseAs m (R.CAL_FRBASE.at q r) .locked :=
  (if_neg (not_denied hm)).trans (unlessLocked_locked hl)

variable (hl : d.locked .CAL q = false)
include hl

theorem xCalFrbase_free (r : Nat) : xCalFrbase m q r v d =
    if d.calEn q then d.refuse m (R.CAL_FRBASE.at q r)
    else (((d.setRegN (R.CAL_FRBASE.at q r) (v &&& 0xFFFFFFFFF000)).setRegN (R.CAL_FRRP.at q r) 0).setRegN
      (R.CAL_FRSEQ.at q r) 0).okay :=
  (if_neg (not_denied hm)).trans (unlessLocked_free hl)

/-- The chip with the cache of a quarter written back and emptied. -/
def cacheEmptied (d : Dev) (q : Nat) : Dev :=
  let w := (d.calFlush q).1
  ({ w with calTab := ndrop w.calTab (fun n => decide (n / calEntries = q)) }).setFld F.CAL_STAT_DIRTY 0 q

theorem xCalCtrl_free : xCalCtrl m q v d =
    if v.testBit 0 ∧ d.regN (R.CAL_TBASE.at q) = 0 then d.refuse m (R.CAL_CTRL.at q)
    else ((if d.calEn q ∧ v.testBit 0 = false then cacheEmptied d q else d).setRegN (R.CAL_CTRL.at q) (v % 4)).okay :=
  (if_neg (not_denied hm)).trans (unlessLocked_free hl)

theorem xCalCtrl_bare (hb : v.testBit 0 = true ∧ d.regN (R.CAL_TBASE.at q) = 0) : xCalCtrl m q v d = d.refuse m (R.CAL_CTRL.at q) :=
  (xCalCtrl_free hm hl).trans (if_pos hb)

theorem xCalCtrl_held (hb : ¬ (v.testBit 0 = true ∧ d.regN (R.CAL_TBASE.at q) = 0)) : xCalCtrl m q v d =
    ((if d.calEn q = true ∧ v.testBit 0 = false then cacheEmptied d q else d).setRegN (R.CAL_CTRL.at q) (v % 4)).okay :=
  (xCalCtrl_free hm hl).trans (if_neg hb)

end

/-- Settles O31: a slot by what its read gives and by its sequence, the two writes by the first rule that refuses them; the retrain
check is its definition. -/
theorem trackerControl : Obligations.TrackerControl := by
  refine ⟨?_, ?_, ?_, ?_⟩
  case refine_1 =>
    intro q ring s hrun
    refine ⟨fun h hc hw ha => ?_, fun h hc hw h0 ha => ?_, fun h hc hs => ?_, fun h hc => ?_, fun h => ?_⟩
    · have hlt : frAhead s.d q ring (leNat (frRead s.d q ring).2.data) < 2 ^ 31 := ha.trans_lt (by decide)
      exact next_congr ((unlessHalted_running hrun).trans ((xFlipRecord_takes h hc hw hlt).trans
        (congrArg (slotTaken s.d · q ring _ _) (if_pos ha))))
    · exact next_congr ((unlessHalted_running hrun).trans ((xFlipRecord_takes h hc hw ha).trans
        (congrArg (slotTaken s.d · q ring _ _) (if_neg (Nat.pos_iff_ne_zero.1 h0)))))
    · exact next_congr ((unlessHalted_running hrun).trans (xFlipRecord_stays h hc hs))
    · exact next_congr ((unlessHalted_running hrun).trans (xFlipRecord_failed h hc))
    · exact next_congr (unlessHalted_still (xFlipRecord_off h))
  case refine_2 => exact fun q margins s hrun => next_congr (unlessHalted_running hrun)
  case refine_3 =>
    intro m q v s hm
    refine ⟨fun hl => next_congr (xCalCtrl_locked hm hl), fun hl => ⟨fun hb => ?_, fun he => ?_, fun hb he => ?_⟩⟩
    · exact next_congr (xCalCtrl_bare hm hl hb)
    · have hb : ¬ (v.testBit 0 = true ∧ s.d.regN (R.CAL_TBASE.at q) = 0) := fun hb => Bool.noConfusion (hb.1.symm.trans he.2)
      exact next_congr ((xCalCtrl_held hm hl hb).trans (congrArg (fun y => (Dev.setRegN y _ _).okay) (if_pos he)))
    · exact next_congr ((xCalCtrl_held hm hl hb).trans (congrArg (fun y => (Dev.setRegN y _ _).okay) (if_neg he)))
  case refine_4 =>
    intro m q r v s hm
    refine ⟨fun hl => next_congr (xCalFrbase_locked hm r hl), fun hl hn => ?_, fun hl hn => ?_⟩
    · exact next_congr ((xCalFrbase_free hm hl r).trans (if_pos hn))
    · exact next_congr ((xCalFrbase_free hm hl r).trans (if_neg (ne_true_of_eq_false hn)))

end Sys2Proof.Proofs

namespace Sys2Proof.Proofs

open Sys2Proof.Machine Sys2Proof.Safety

/-! Queue pairs: doorbells, states, fetches and completion entries (14 R382, R385–R388, R407–R411). -/

/-! ### QP_CTRL and the drained pair (R382, R385, R409) -/

section
variable {m : Mst} {q i v : Nat} {d : Dev}

/-- An ASSIGNED pair whose rings fit MAXLOG. -/
def PairMay (d : Dev) (q i : Nat) : Prop :=
  d.qpState q i = 1 ∧ d.fld F.QP_SIZE_SQLOG q i ≤ d.fld F.QP_INFO_MAXLOG q i ∧ d.fld F.QP_SIZE_CQLOG q i ≤ d.fld F.QP_INFO_MAXLOG q i

theorem pairMay_iff : PairMay d q i ↔ d.qpState q i = 1 ∧ (decide (d.fld F.QP_SIZE_SQLOG q i ≤ d.fld F.QP_INFO_MAXLOG q i) &&
    decide (d.fld F.QP_SIZE_CQLOG q i ≤ d.fld F.QP_INFO_MAXLOG q i)) = true := by
  simp [PairMay]

theorem xQpCtrl_enables (hv : v % 2 = 1) (h : PairMay d q i) : xQpCtrl m q i v d = (d.enableQp q i).okay :=
  (if_pos hv).trans (congrArg Dev.okay (if_pos (pairMay_iff.1 h)))

theorem xQpCtrl_stays (hv : v % 2 = 1) (h : ¬ PairMay d q i) : xQpCtrl m q i v d = d.okay :=
  (if_pos hv).trans (congrArg Dev.okay (if_neg (mt pairMay_iff.2 h)))

theorem xQpCtrl_drains (hv : v % 2 = 0) (h : d.qpState q i = 2) :
    xQpCtrl m q i v d = ((d.setFld F.QP_CTRL_EN 0 q i).setQpState q i 3).okay :=
  (if_neg (by omega)).trans (if_pos h)

theorem xQpCtrl_disables (hv : v % 2 = 0) (h : d.qpState q i ≠ 2) : xQpCtrl m q i v d = (d.setFld F.QP_CTRL_EN 0 q i).okay :=
  (if_neg (by omega)).trans (if_neg h)

/-- The last command of a DRAINING pair has ended. -/
def Drained (d : Dev) (q i : Nat) : Prop := d.qpState q i = 3 ∧ d.fld F.QP_STAT_INFL q i = 0

theorem xPairDrained_not (h : ¬ Drained d q i) : xPairDrained q i d = d := if_pos (by rwa [Drained, not_and_or] at h)

section
variable (h : Drained d q i)
include h

theorem drained_goes : ¬ (d.qpState q i ≠ 3 ∨ d.fld F.QP_STAT_INFL q i ≠ 0) := by
  rw [not_or, not_not, not_not]
  exact h

theorem xPairDrained_deletes (hd : (d.pair q i).delete = true) :
    xPairDrained q i d = (d.unassignQp q i).waitDone (.pair q i) 0 0 := (if_neg (drained_goes h)).trans (if_pos hd)

variable (hd : ¬ (d.pair q i).delete = true)
include hd

theorem xPairDrained_resets (hr : d.flag F.QP_STAT_INRESET q i = true) : xPairDrained q i d =
    ((((((d.resetPage q i).setReg (R.QP_INFO.at q i) (d.reg (R.QP_INFO.at q i))).setFld F.QP_STAT_QUENCHED
      (d.fld F.QP_STAT_QUENCHED q i) q i).setPair q i Pair.zero).setQpState q i 1).qpLevel q i) :=
  (if_neg (drained_goes h)).trans ((if_neg hd).trans (if_pos hr))

theorem xPairDrained_assigned (hr : ¬ d.flag F.QP_STAT_INRESET q i = true) : xPairDrained q i d = d.setQpState q i 1 :=
  (if_neg (drained_goes h)).trans ((if_neg hd).trans (if_neg hr))

end

end

/-! ### Fetch decisions (R388, R408) -/

section
variable {q i : Nat} {ents : List Nat} {k : Clk} {d : Dev}

/-- The chip after the turn of a chosen pair. -/
def fetchTurn (d : Dev) (q i : Nat) : Dev := { d with rrobin := nset 0 d.rrobin (q * 64 + d.qpRank q i) (i + 1) }

/-- How many entries a fetch of a pair reads: at most 8, what waits, what its credit allows, what stands before the wrap. -/
def fetchCount (d : Dev) (q i : Nat) : Nat :=
  Nat.min (Nat.min 8 (d.sqWaiting q i)) (Nat.min (d.credit q i) (d.sqSize q i - d.regN (R.SQ_HEAD.at q i)))

theorem xFetchDecision_off (h : ¬ (d.reg (R.QE_CTRL.at q)).getLsbD 0 = true) : xFetchDecision q ents k d = d :=
  if_pos (bnot_of_not h)

theorem xSqReadError_off (h : ¬ (d.reg (R.QE_CTRL.at q)).getLsbD 0 = true) : xSqReadError q k d = d := if_pos (bnot_of_not h)

section
variable (h : (d.reg (R.QE_CTRL.at q)).getLsbD 0 = true)
include h

theorem xFetchDecision_nobody (hc : (d.countHolds q).choosePair q = none) : xFetchDecision q ents k d = d.countHolds q := by
  refine (if_neg (not_bnot_of h)).trans ?_
  simp only [hc]

theorem xSqReadError_nobody (hc : (d.countHolds q).choosePair q = none) : xSqReadError q k d = d.countHolds q := by
  refine (if_neg (not_bnot_of h)).trans ?_
  simp only [hc]

variable (hc : (d.countHolds q).choosePair q = some i)
include hc

theorem xFetchDecision_chosen : xFetchDecision q ents k d =
    let d1 := fetchTurn (d.countHolds q) q i
    if !d1.fnIssues (d1.qpOid q i) then d1.fetchErr k.tick q i
    else (d1.fetchAll q i (ents.take (fetchCount d1 q i))).qpLevel q i := by
  refine (if_neg (not_bnot_of h)).trans ?_
  simp only [hc]
  rfl

theorem xSqReadError_chosen : xSqReadError q k d = (fetchTurn (d.countHolds q) q i).fetchErr k.tick q i := by
  refine (if_neg (not_bnot_of h)).trans ?_
  simp only [hc]
  rfl

end

end

/-! ### CQ entries and interrupts (R387, R410) -/

section
variable {q r : Nat} {k : Clk} {d : Dev}

theorem xCqEntryWrite_none (h : d.cmd (cmdKey q r) = none) : xCqEntryWrite q r k d = d := by simp only [xCqEntryWrite, h]

section
variable {c : Cmd} (h : d.cmd (cmdKey q r) = some c)
include h

theorem xCqEntryWrite_not (hm : ¬ (c.st = .ended ∧ d.fnIssues (d.qpOid q c.qp) = true)) : xCqEntryWrite q r k d = d := by
  have hno : c.st ≠ .ended ∨ (!d.fnIssues (d.qpOid q c.qp)) = true := (not_and_or.1 hm).imp_right bnot_of_not
  simp only [xCqEntryWrite, h, if_pos hno]

/-- The chip with the CQ entry of a command written, its record free and the pair's interrupt registers latched. -/
def entryWritten (d : Dev) (q key tick : Nat) (c : Cmd) : Dev :=
  let i := c.qp
  let tail := d.regN (R.CQ_TAIL.at q i)
  let next := (tail + 1) % d.cqSize q i
  let d1 := d.send (.hostWrite (d.qpOid q i) (d.regN (R.CQ_BASE.at q i) + 16 * tail) (d.cqEntry tick q c))
  let d2 := d1.setRegN (R.CQ_TAIL.at q i) next
  let d3 := if next = 0 then d2.setFld F.QP_STAT_PHASE (1 - d2.fld F.QP_STAT_PHASE q i) q i else d2
  (d3.freeCmd key i).qpLatch q i

theorem xCqEntryWrite_writes (hm : c.st = .ended ∧ d.fnIssues (d.qpOid q c.qp) = true) : xCqEntryWrite q r k d =
    (if (sqFlags c.ent).testBit 0 then entryWritten d q (cmdKey q r) k.tick c
      else (entryWritten d q (cmdKey q r) k.tick c).qpCount k.tick q c.qp).fenceSweep q := by
  have hgo : ¬ (c.st ≠ .ended ∨ (!d.fnIssues (d.qpOid q c.qp)) = true) := not_or.2 ⟨not_not.2 hm.1, not_bnot_of hm.2⟩
  simp only [xCqEntryWrite, h, if_neg hgo]
  rfl

end

end

/-- Settles O23: doorbells and QP_CTRL by the pair's state, a drained pair by why it drained, a fetch by the pair that is chosen, a CQ
entry by its command, an interrupt's time by the pair. -/
theorem queuePairs : Obligations.QueuePairs := by
  refine ⟨⟨?_, ?_, ?_, ?_⟩, ?_, ?_, ?_⟩
  case refine_1 =>
    exact fun m q i v s => ⟨fun h => next_congr (if_pos h), fun h => next_congr (if_neg h)⟩
  case refine_2 =>
    exact fun m q i v s => ⟨fun h => next_congr (if_pos h), fun h => next_congr (if_neg h)⟩
  case refine_3 =>
    exact fun m q i v s => ⟨fun hv h => next_congr (xQpCtrl_enables hv h), fun hv h => next_congr (xQpCtrl_stays hv h),
      fun hv h => next_congr (xQpCtrl_drains hv h), fun hv h => next_congr (xQpCtrl_disables hv h)⟩
  case refine_4 =>
    intro q i s hrun
    refine ⟨fun h hd => ?_, fun h hd hr => ?_, fun h hd hr => ?_, fun h => next_congr (unlessHalted_still (xPairDrained_not h))⟩
    · exact next_congr ((unlessHalted_running hrun).trans (xPairDrained_deletes h hd))
    · exact next_congr ((unlessHalted_running hrun).trans (xPairDrained_resets h hd hr))
    · exact next_congr ((unlessHalted_running hrun).trans (xPairDrained_assigned h hd hr))
  case refine_5 =>
    intro q ents s hrun
    refine ⟨fun h => ⟨?_, ?_⟩, fun h hc => ⟨?_, ?_⟩, fun i h hc => ⟨fun hf => ?_, fun hf => ?_, ?_⟩⟩
    · exact next_congr (unlessHalted_still (xFetchDecision_off h))
    · exact next_congr (unlessHalted_still (xSqReadError_off h))
    · exact next_congr ((unlessHalted_running hrun).trans (xFetchDecision_nobody h hc))
    · exact next_congr ((unlessHalted_running hrun).trans (xSqReadError_nobody h hc))
    · exact next_congr ((unlessHalted_running hrun).trans ((xFetchDecision_chosen h hc).trans (if_neg (not_bnot_of hf))))
    · exact next_congr ((unlessHalted_running hrun).trans
        ((xFetchDecision_chosen h hc).trans (if_pos (bnot_of_not (ne_true_of_eq_false hf)))))
    · exact next_congr ((unlessHalted_running hrun).trans (xSqReadError_chosen h hc))
  case refine_6 =>
    intro q r s hrun
    refine ⟨fun c hc => ⟨fun hm hf => ?_, fun hm hf => ?_, fun hm => ?_⟩, fun hc => ?_⟩
    · exact next_congr ((unlessHalted_running hrun).trans ((xCqEntryWrite_writes hc hm).trans
        (congrArg (Dev.fenceSweep · q) (if_pos hf))))
    · exact next_congr ((unlessHalted_running hrun).trans ((xCqEntryWrite_writes hc hm).trans
        (congrArg (Dev.fenceSweep · q) (if_neg (ne_true_of_eq_false hf)))))
    · exact next_congr (unlessHalted_still (xCqEntryWrite_not hc hm))
    · exact next_congr (unlessHalted_still (xCqEntryWrite_none hc))
  case refine_7 =>
    intro q i s hrun
    exact ⟨fun h => next_congr ((unlessHalted_running hrun).trans (if_pos h)), fun h => next_congr (unlessHalted_still (if_neg h))⟩

end Sys2Proof.Proofs

namespace Sys2Proof.Proofs

open Sys2Proof.Machine Sys2Proof.Safety

/-! Data commands of the queue engine (14 R389, R390, R392, R396, R397, R437; QUE-9, QUE-10). -/

/-! ### INVOKE (R389, R390, R396) -/

section
variable {d : Dev} {q r : Nat} {k : Clk} {c : Cmd}

theorem invoke_starts (h : canStart d q r 0x01 c) : d.unlessHalted (xInvoke q r k d) = d.invokeStart q (cmdKey q r) c k := by
  obtain ⟨hrun, hcmd, hopc, hmay⟩ := h
  simp only [unlessHalted_running hrun, xInvoke, hcmd, hopc, hmay, ne_eq, not_true_eq_false, if_false, if_true]

theorem xInvoke_none (h : d.cmd (cmdKey q r) = none) : xInvoke q r k d = d := by simp only [xInvoke, h]

section
variable (h : d.cmd (cmdKey q r) = some c)
include h

theorem xInvoke_another (hopc : sqOpc c.ent ≠ 0x01) : xInvoke q r k d = d := by simp only [xInvoke, h, if_pos hopc]

variable (hopc : sqOpc c.ent = 0x01) (hmay : d.mayStart q c = false)
include hopc hmay

theorem xInvoke_goes (hst : c.st = .running) (hs : c.submitted = false) :
    xInvoke q r k d = d.invokeGo (cmdKey q r) (d.qpOid q c.qp) k := by
  simp only [xInvoke, h, if_neg (not_not.2 hopc), hmay, Bool.false_eq_true, if_false, if_pos (And.intro hst hs)]

theorem xInvoke_still (hs : c.st ≠ .running ∨ c.submitted = true) : xInvoke q r k d = d := by
  have hno : ¬ (c.st = .running ∧ c.submitted = false) := by simpa [imp_iff_not_or] using hs
  simp only [xInvoke, h, if_neg (not_not.2 hopc), hmay, Bool.false_eq_true, if_false, if_neg hno]

end

/-- The lookup of the entry that an INVOKE names. -/
def invokeEntry (d : Dev) (q : Nat) (c : Cmd) : Nat × Nat × Dev := d.entRead q (d.qpOid q c.qp) (sqArg c.ent % 256)

section
variable {key : Nat}

theorem invokeStart_unread (he : (invokeEntry d q c).1 ≠ 0) :
    d.invokeStart q key c k = (invokeEntry d q c).2.2.endCmd key (invokeEntry d q c).1 0 := if_pos he

variable (he : (invokeEntry d q c).1 = 0)
include he

theorem invokeStart_fails {st : Nat} (hc : (invokeEntry d q c).2.2.invokeCheck c.ent (invokeEntry d q c).2.1 = (st, none)) :
    d.invokeStart q key c k = (invokeEntry d q c).2.2.endCmd key st 0 := by
  refine (if_neg (not_not.2 he)).trans ?_
  simp only [invokeEntry] at hc ⊢
  simp only [hc]

variable {st : Nat} {w : Invoke} (hc : (invokeEntry d q c).2.2.invokeCheck c.ent (invokeEntry d q c).2.1 = (st, some w))
include hc

theorem invokeStart_waits (hm : (invokeEntry d q c).2.2.moveRec q key (quarterOf (w.v % 256 / 4)) c = none) :
    d.invokeStart q key c k = (invokeEntry d q c).2.2 := by
  refine (if_neg (not_not.2 he)).trans ?_
  simp only [invokeEntry] at hc hm ⊢
  simp only [hc, hm]

variable {k1 : Nat} {d1 : Dev}
  (hm : (invokeEntry d q c).2.2.moveRec q key (quarterOf (w.v % 256 / 4)) c = some (k1, d1))
include hm

theorem invokeStart_unbuilt (hb : d1.buildChain k1 (d1.fld F.QP_OWN_LEVEL q c.qp) (d.qpOid q c.qp) c.ent w.v w.ep w.ep.chain = none) :
    d.invokeStart q key c k = d1.endCmd k1 0x03 0 := by
  refine (if_neg (not_not.2 he)).trans ?_
  simp only [invokeEntry] at hc hm
  simp only [hc, hm, hb]

/-- The record of an INVOKE whose chain stands: it runs, with its jobs to queue. -/
def invokeRunning (c : Cmd) (w : Invoke) : Cmd :=
  let todo := ((upTo 3).filter (fun n => (sqBuf c.ent n).used)).map (fun n => (n, w.vps.getD n 0))
  { c with st := .running, todo := todo, chain := w.ep.chain }

theorem invokeStart_builds {d2 : Dev}
    (hb : d1.buildChain k1 (d1.fld F.QP_OWN_LEVEL q c.qp) (d.qpOid q c.qp) c.ent w.v w.ep w.ep.chain = some d2) :
    d.invokeStart q key c k = ((d2.setPair q c.qp { d2.pair q c.qp with lastHome := quarterOf (w.v % 256 / 4) + 1 }).setCmd k1
      (some (invokeRunning c w))).invokeGo k1 (d.qpOid q c.qp) k := by
  refine (if_neg (not_not.2 he)).trans ?_
  simp only [invokeEntry] at hc hm
  simp only [hc, hm, hb, invokeRunning]

end

end

/-! ### COPY and FILL (R392) -/

section
variable {d : Dev} {q r : Nat} {k : Clk} {c : Cmd} {sgl0 sgl1 : List (Nat × Nat × Nat)} {ans0 ans1 : HostAns} {e : HbmErr}

/-- The MEM-6 code with which a reference of a command fails before its first element. -/
def refCode (d : Dev) (q : Nat) (c : Cmd) (n : Nat) (sgl : List (Nat × Nat × Nat)) (ans : HostAns) : Nat :=
  d.bufCode (d.qpOid q c.qp) (sqBuf c.ent n) sgl ans

/-- What the moved elements of a COPY give: code, bytes, chip. -/
def copyMoves (d : Dev) (q : Nat) (c : Cmd) (sgl1 : List (Nat × Nat × Nat)) (ans0 : HostAns) (e : HbmErr) (k : Clk) : Nat × Nat × Dev :=
  let oid := d.qpOid q c.qp
  d.moveEls (fun x o => x.bufGet q oid (sqBuf c.ent 0) ans0 o (if o = 0 then e else .none) k)
    (fun x o v => x.bufPut q oid (sqBuf c.ent 1) ((sqBuf c.ent 1).segs sgl1) o v .none k) 0 ((sqBuf c.ent 0).len / 8)

/-- What the written elements of a FILL give: code, bytes, chip. -/
def fillMoves (d : Dev) (q : Nat) (c : Cmd) (sgl : List (Nat × Nat × Nat)) (e : HbmErr) (k : Clk) : Nat × Nat × Dev :=
  d.moveEls (fun x _ => (0, c.ent / 2 ^ 256 % 2 ^ 64, x)) (fun x o v => x.bufPut q (d.qpOid q c.qp) (sqBuf c.ent 0)
    ((sqBuf c.ent 0).segs sgl) o v (if o = 0 then e else .none) k) 0 ((sqBuf c.ent 0).len / 8)

theorem copy_starts (h : canStart d q r 0x02 c) : d.unlessHalted (xCopy q r sgl0 sgl1 ans0 ans1 e k d) =
    if refCode d q c 0 sgl0 ans0 ≠ 0 then d.endCmd (cmdKey q r) (memStatus (refCode d q c 0 sgl0 ans0)) 0
    else if refCode d q c 1 sgl1 ans1 ≠ 0 then d.endCmd (cmdKey q r) (memStatus (refCode d q c 1 sgl1 ans1)) 0
    else (copyMoves d q c sgl1 ans0 e k).2.2.endCmd (cmdKey q r) (memStatus (copyMoves d q c sgl1 ans0 e k).1)
      (copyMoves d q c sgl1 ans0 e k).2.1 := start_canStart h

theorem fill_starts (h : canStart d q r 0x03 c) : d.unlessHalted (xFill q r sgl0 ans0 e k d) =
    if refCode d q c 0 sgl0 ans0 ≠ 0 then d.endCmd (cmdKey q r) (memStatus (refCode d q c 0 sgl0 ans0)) 0
    else (fillMoves d q c sgl0 e k).2.2.endCmd (cmdKey q r) (memStatus (fillMoves d q c sgl0 e k).1)
      (fillMoves d q c sgl0 e k).2.1 := start_canStart h

end

/-! ### FENCE, QUERY and MEDIA (R397, R437; QUE-10) -/

section
variable {d : Dev} {q r : Nat} {c : Cmd}

theorem fence_starts (h : canStart d q r 0x04 c) : d.unlessHalted (xFence q r d) =
    (d.setCmd (cmdKey q r) (some { c with st := .running })).fenceSweep q :=
  (unlessHalted_running h.1).trans (congrArg (Dev.fenceSweep · q) ((unlessHalted_running h.1).symm.trans (start_canStart h)))

theorem fence_sweeps (hrun : d.sysHalt = false) (h : ∀ c, ¬ canStart d q r 0x04 c) :
    d.unlessHalted (xFence q r d) = d.fenceSweep q :=
  (unlessHalted_running hrun).trans (congrArg (Dev.fenceSweep · q) ((unlessHalted_running hrun).symm.trans (start_not_canStart h)))

theorem b2n_ite (b : Bool) : b2n b = if b then 1 else 0 := by cases b <;> rfl

section
variable (h : canStart d q r 0x06 c)
include h

/-- The answer of a QUERY of an entry `v`. -/
def entryAnswer (d : Dev) (v : Nat) : Nat :=
  let stale := if bitsOf v 47 32 = d.regN (slotReg (v % 256) .SLOT_GEN) then 0 else 1
  let valid := if v.testBit 63 then 1 else 0
  valid * 2 ^ 31 + stale * 2 ^ 30 + bitsOf v 59 56 * 2 ^ 24 + d.slotState (v % 256) % 16 * 2 ^ 16 + v % 256

/-- The lookup of the entry that a QUERY names. -/
def queryEntry (d : Dev) (q : Nat) (c : Cmd) : Nat × Nat × Dev := d.entRead q (d.qpOid q c.qp) (bitsOf (sqArg c.ent) 15 8)

theorem query_entry (hk : sqArg c.ent % 256 = 0) : d.unlessHalted (xQuery q r d) =
    (queryEntry d q c).2.2.endCmd (cmdKey q r) (queryEntry d q c).1
      (if (queryEntry d q c).1 = 0 then entryAnswer d (queryEntry d q c).2.1 else 0) := by
  refine (start_canStart h).trans ((if_pos hk).trans ?_)
  simp only [b2n_ite, decide_eq_true_eq, ne_eq, ite_not]
  rfl

theorem query_unread (hk : sqArg c.ent % 256 = 0) (he : (queryEntry d q c).1 ≠ 0) :
    d.unlessHalted (xQuery q r d) = (queryEntry d q c).2.2.endCmd (cmdKey q r) (queryEntry d q c).1 0 :=
  (query_entry h hk).trans (congrArg (Dev.endCmd _ _ _) (if_neg he))

theorem query_answers (hk : sqArg c.ent % 256 = 0) (he : (queryEntry d q c).1 = 0) :
    d.unlessHalted (xQuery q r d) = (queryEntry d q c).2.2.endCmd (cmdKey q r) 0 (entryAnswer d (queryEntry d q c).2.1) := by
  rw [query_entry h hk, if_pos he, he]

theorem query_malformed (hm : 2 < sqArg c.ent % 256 ∨ (sqArg c.ent % 256 ≠ 0 ∧ bitsOf (sqArg c.ent) 15 8 ≠ 0)) :
    d.unlessHalted (xQuery q r d) = d.endCmd (cmdKey q r) 0x0B 0 := by
  refine (start_canStart h).trans ((if_neg (by omega)).trans ?_)
  by_cases hi : bitsOf (sqArg c.ent) 15 8 ≠ 0
  · exact if_pos hi
  · exact (if_neg hi).trans ((if_neg (by omega)).trans (if_neg (by omega)))

variable (hi : bitsOf (sqArg c.ent) 15 8 = 0)
include hi

theorem query_windows (hk : sqArg c.ent % 256 = 1) :
    d.unlessHalted (xQuery q r d) = d.endCmd (cmdKey q r) 0 (d.windowsOf (d.qpOid q c.qp)) :=
  (start_canStart h).trans ((if_neg (by omega)).trans ((if_neg (not_not.2 hi)).trans (if_pos hk)))

theorem query_inFlight (hk : sqArg c.ent % 256 = 2) :
    d.unlessHalted (xQuery q r d) = d.endCmd (cmdKey q r) 0 (d.fld F.QP_STAT_INFL q c.qp) :=
  (start_canStart h).trans ((if_neg (by omega)).trans ((if_neg (not_not.2 hi)).trans ((if_neg (by omega)).trans (if_pos hk))))

end

/-- A MEDIA whose channel exists and whose list has 1 to 256 micro-ops. -/
def MediaFits (c : Cmd) : Prop :=
  sqArg c.ent % 1024 < 576 ∧ (sqBuf c.ent 0).len % 16 = 0 ∧ 0 < (sqBuf c.ent 0).len ∧ (sqBuf c.ent 0).len ≤ 4096

theorem mediaFits_goes (hm : MediaFits c) : ¬ (575 < sqArg c.ent % 1024 ∨ (sqBuf c.ent 0).len % 16 ≠ 0 ∨ (sqBuf c.ent 0).len = 0 ∨
    4096 < (sqBuf c.ent 0).len) := by
  rw [MediaFits] at hm
  omega

section
variable (h : canStart d q r 0x4A c)
include h

theorem media_malformed (hm : ¬ MediaFits c) : d.unlessHalted (xMedia q r d) = d.endCmd (cmdKey q r) 0x0B 0 :=
  (start_canStart h).trans (if_pos (by rw [MediaFits] at hm; omega))

variable (hm : MediaFits c)
include hm

theorem media_disabled (he : d.chEn (sqArg c.ent % 1024) = false) :
    d.unlessHalted (xMedia q r d) = d.endCmd (cmdKey q r) 0x0A 0 :=
  (start_canStart h).trans ((if_neg (mediaFits_goes hm)).trans (if_pos (bnot_of_not (ne_true_of_eq_false he))))

theorem media_posts (he : d.chEn (sqArg c.ent % 1024) = true) : d.unlessHalted (xMedia q r d) =
    (d.waitFor (cmdKey q r) c (.media (mediaPlace (sqArg c.ent % 1024)).1 (mediaPlace (sqArg c.ent % 1024)).2 0)).addPost
      (sqArg c.ent % 1024) ((sqBuf c.ent 0).addr / 16 * 16 % 2 ^ 48) ((sqBuf c.ent 0).len / 16) (some (cmdKey q r)) :=
  (start_canStart h).trans ((if_neg (mediaFits_goes hm)).trans (if_neg (not_bnot_of he)))

end

end

/-- Settles O24: an INVOKE by its lookup, its check, its record and its chain; a COPY and a FILL by the codes of their references; the
others by their ARG; a record that holds no command that may start is left. -/
theorem queueCommands : Obligations.QueueCommands := by
  refine ⟨?_, ?_, ?_, ?_, ?_, ?_, ?_, ?_, ?_⟩
  case refine_1 =>
    intro q r c s h
    refine ⟨fun he => ?_, fun st he hc => ?_, fun st w he hc => ⟨fun hm => ?_, fun k1 d1 hm => ⟨fun hb => ?_, fun d2 hb => ?_⟩⟩⟩
    · exact next_congr ((invoke_starts h).trans (invokeStart_unread he))
    · exact next_congr ((invoke_starts h).trans (invokeStart_fails he hc))
    · exact next_congr ((invoke_starts h).trans (invokeStart_waits he hc hm))
    · exact next_congr ((invoke_starts h).trans (invokeStart_unbuilt he hc hm hb))
    · exact next_congr ((invoke_starts h).trans (invokeStart_builds he hc hm hb))
  case refine_2 =>
    intro q r c s hrun hcmd hopc hmay
    exact ⟨fun hst hs => next_congr ((unlessHalted_running hrun).trans (xInvoke_goes hcmd hopc hmay hst hs)),
      fun hs => next_congr (unlessHalted_still (xInvoke_still hcmd hopc hmay hs))⟩
  case refine_3 =>
    intro q r c sgl0 sgl1 ans0 ans1 e s h
    refine ⟨fun h0 h1 => ?_, fun h0 => ?_, fun h0 h1 => ?_⟩
    · exact next_congr ((copy_starts h).trans ((if_neg (not_not.2 h0)).trans (if_neg (not_not.2 h1))))
    · exact next_congr ((copy_starts h).trans (if_pos h0))
    · exact next_congr ((copy_starts h).trans ((if_neg (not_not.2 h0)).trans (if_pos h1)))
  case refine_4 =>
    intro q r c sgl ans e s h
    refine ⟨fun h0 => ?_, fun h0 => ?_⟩
    · exact next_congr ((fill_starts h).trans (if_neg (not_not.2 h0)))
    · exact next_congr ((fill_starts h).trans (if_pos h0))
  case refine_5 =>
    exact fun q r s hrun => ⟨fun c h => next_congr (fence_starts h), fun h => next_congr (fence_sweeps hrun h)⟩
  case refine_6 => exact fun q r c s h => next_congr (start_canStart h)
  case refine_7 =>
    intro q r c s h
    refine ⟨fun hk he => ?_, fun hk he => ?_, fun hi hk => next_congr (query_windows h hi hk),
      fun hi hk => next_congr (query_inFlight h hi hk), fun hm => next_congr (query_malformed h hm)⟩
    · exact next_congr (query_unread h hk he)
    · exact next_congr (query_answers h hk he)
  case refine_8 =>
    intro q r c s h
    exact ⟨fun hm he => next_congr (media_posts h hm he), fun hm he => next_congr (media_disabled h hm he),
      fun hm => next_congr (media_malformed h hm)⟩
  case refine_9 =>
    intro q r sgl0 sgl1 ans0 ans1 e s
    refine ⟨fun h => next_congr (start_not_canStart h), fun h => next_congr (start_not_canStart h),
      fun h => next_congr (start_not_canStart h), fun h => next_congr (start_not_canStart h),
      fun h => next_congr (start_not_canStart h), fun h => ⟨next_congr (if_pos h), next_congr (if_pos h)⟩,
      fun h => next_congr (unlessHalted_still (xInvoke_none h)),
      fun c hc hopc => next_congr (unlessHalted_still (xInvoke_another hc hopc))⟩

end Sys2Proof.Proofs

namespace Sys2Proof.Proofs

open Sys2Proof.Machine Sys2Proof.Safety

/-! Management commands of the queue engine (14 R381, R382, R399, R403; 09 R253). -/

/-! ### CREATE_Q and DELETE_Q (R381, R382) -/

section
variable {d : Dev} {q r : Nat} {c : Cmd}

/-- The operands of a CREATE_Q that R381 takes. -/
def CreateFits (d : Dev) (c : Cmd) : Prop :=
  let oid := sqArg c.ent % 2048
  let n := bitsOf (sqArg c.ent) 27 16
  let maxlog := bitsOf (sqP c.ent 0) 12 8
  d.fnExists oid = true ∧ n < d.dbPages oid ∧ ¬ (n = 0 ∧ oid < 32) ∧ sqP c.ent 0 % 32 ≤ 27 ∧ 4 ≤ maxlog ∧ maxlog ≤ 16

theorem createFits_iff : CreateFits d c ↔ ¬ ((!d.fnExists (sqArg c.ent % 2048)) = true ∨
    d.dbPages (sqArg c.ent % 2048) ≤ bitsOf (sqArg c.ent) 27 16 ∨
    (bitsOf (sqArg c.ent) 27 16 = 0 ∧ sqArg c.ent % 2048 < 32) ∨ 27 < sqP c.ent 0 % 32 ∨ bitsOf (sqP c.ent 0) 12 8 < 4 ∨
    16 < bitsOf (sqP c.ent 0) 12 8) := by
  simp only [CreateFits, not_or, Nat.not_le, Nat.not_lt, Bool.not_eq_true', Bool.not_eq_false]

section
variable (h : canStart d q r 0x40 c)
include h

theorem createQ_malformed (hf : ¬ CreateFits d c) : d.unlessHalted (xCreateQ q r d) = d.endCmd (cmdKey q r) 0x0B 0 :=
  (start_canStart h).trans (if_pos (not_not.1 (mt createFits_iff.2 hf)))

variable (hf : CreateFits d c)
include hf

theorem createQ_exists (hq : d.qpOf (sqArg c.ent % 2048) (bitsOf (sqArg c.ent) 27 16) ≠ none) :
    d.unlessHalted (xCreateQ q r d) = d.endCmd (cmdKey q r) 0x0A 0 :=
  (start_canStart h).trans ((if_neg (createFits_iff.1 hf)).trans (if_pos (Option.isSome_iff_ne_none.2 hq)))

/-- Without a free pair the answer is the one of a queue that exists. -/
theorem createQ_noPair (hp : d.freePair (d.fnQuarter (sqArg c.ent % 2048)) = none) :
    d.unlessHalted (xCreateQ q r d) = d.endCmd (cmdKey q r) 0x0A 0 := by
  refine (start_canStart h).trans ((if_neg (createFits_iff.1 hf)).trans ?_)
  simp only [hp, ite_self]

theorem createQ_assigns {i : Nat} (hq : d.qpOf (sqArg c.ent % 2048) (bitsOf (sqArg c.ent) 27 16) = none)
    (hp : d.freePair (d.fnQuarter (sqArg c.ent % 2048)) = some i) : d.unlessHalted (xCreateQ q r d) =
      (d.assignQp (d.fnQuarter (sqArg c.ent % 2048)) i (sqArg c.ent % 2048) (bitsOf (sqArg c.ent) 27 16) (sqP c.ent 0 % 32)
        (bitsOf (sqP c.ent 0) 12 8) false).endCmd (cmdKey q r) 0 (1024 * d.fnQuarter (sqArg c.ent % 2048) + i) := by
  refine (start_canStart h).trans ((if_neg (createFits_iff.1 hf)).trans ?_)
  simp only [hp, hq, Option.isSome_none, Bool.false_eq_true, if_false]

end

section
variable (h : canStart d q r 0x41 c)
include h

theorem deleteQ_none (hp : d.qpOf (sqArg c.ent % 2048) (bitsOf (sqArg c.ent) 27 16) = none) :
    d.unlessHalted (xDeleteQ q r d) = d.endCmd (cmdKey q r) 0x0B 0 := by
  refine (start_canStart h).trans ?_
  simp only [hp]

theorem deleteQ_pair {lq i : Nat} (hp : d.qpOf (sqArg c.ent % 2048) (bitsOf (sqArg c.ent) 27 16) = some (lq, i)) :
    d.unlessHalted (xDeleteQ q r d) =
      if d.qpAdmin lq i then d.endCmd (cmdKey q r) 0x0B 0
      else if d.qpState lq i = 1 then (d.unassignQp lq i).endCmd (cmdKey q r) 0 0
      else (((d.setPair lq i { d.pair lq i with delete := true }).setFld F.QP_CTRL_EN 0 lq i).setQpState lq i 3).waitFor
        (cmdKey q r) c (.pair lq i) := by
  refine (start_canStart h).trans ?_
  simp only [hp]

end

end

/-! ### BIND_WINDOW (09 R253) -/

section
variable {d : Dev} {q r : Nat} {c : Cmd} (h : canStart d q r 0x42 c)
include h

/-- The quarter of the window that a BIND_WINDOW names, and the window in it. -/
def boundQuarter (c : Cmd) : Nat := sqArg c.ent % 2 ^ 17 / winPerQuarter Config.order

def boundWindow (c : Cmd) : Nat := sqArg c.ent % 2 ^ 17 % winPerQuarter Config.order

theorem bindWindow_absent (hq : 4 ≤ boundQuarter c) : d.unlessHalted (xBindWindow q r d) = d.endCmd (cmdKey q r) 0x0B 0 :=
  (start_canStart h).trans (if_pos hq)

variable (hq : boundQuarter c < 4)
include hq

theorem bindWindow_refused (ho : d.winEntOk (boundQuarter c) (boundWindow c) = false) :
    d.unlessHalted (xBindWindow q r d) = d.endCmd (cmdKey q r) 0x0A 0 :=
  (start_canStart h).trans ((if_neg (Nat.not_le.2 hq)).trans (if_pos (bnot_of_not (ne_true_of_eq_false ho))))

/-- A window that may be written waits for its molt, or needs none. -/
theorem bindWindow_written (ho : d.winEntOk (boundQuarter c) (boundWindow c) = true) : d.unlessHalted (xBindWindow q r d) =
    let d1 := d.winEntSet (boundQuarter c) (boundWindow c) (sqP c.ent 0)
    if (d1.reg (R.WIN_ENT.at (boundQuarter c) (boundWindow c))).getLsbD 30
      then d1.waitFor (cmdKey q r) c (.win (boundQuarter c) (boundWindow c)) else d1.endCmd (cmdKey q r) 0 0 :=
  (start_canStart h).trans ((if_neg (Nat.not_le.2 hq)).trans (if_neg (not_bnot_of ho)))

end

/-! ### START_SLOT, STOP_SLOT and MOLT (R399) -/

section
variable {d : Dev} {k : Nat} {c : Cmd} {op : Dev → Dev} {w : CmdWait} {busy : Dev → Bool}

theorem slotOp_absent (h : d.hasAnchor (sqArg c.ent % 256) = false) : d.slotOp k c op w busy = d.endCmd k 0x0B 0 :=
  if_pos (bnot_of_not (ne_true_of_eq_false h))

section
variable (h : d.hasAnchor (sqArg c.ent % 256) = true)
include h

theorem slotOp_waits (hb : busy (op d) = true) : d.slotOp k c op w busy = (op d).waitFor k c w :=
  (if_neg (not_bnot_of h)).trans (if_pos hb)

theorem slotOp_ends (hb : ¬ busy (op d) = true) : d.slotOp k c op w busy =
    let v := (op d).regN (slotReg (sqArg c.ent % 256) .SLOT_STAT)
    (op d).endCmd k (slotStatus (bitsOf v 27 24)) (v % 2 ^ 32) :=
  (if_neg (not_bnot_of h)).trans (if_neg hb)

end

end

section
variable {d : Dev} {q r : Nat} {k : Clk} {c : Cmd}

theorem startSlot_starts (h : canStart d q r 0x44 c) : d.unlessHalted (xStartSlot q r d) =
    d.slotOp (cmdKey q r) c (xStart (sliceMst q) (sqArg c.ent % 256 / 4) (sqArg c.ent % 256 % 4)) (.slot (sqArg c.ent % 256))
      (fun x => decide ((d.ctl (sqArg c.ent % 256)).busy ≠ .starting) && decide ((x.ctl (sqArg c.ent % 256)).busy = .starting)) :=
  start_canStart h

theorem mgmtMolt_starts (h : canStart d q r 0x46 c) : d.unlessHalted (xMgmtMolt q r k d) =
    d.slotOp (cmdKey q r) c (xMolt (sliceMst q) (sqArg c.ent % 256 / 4) (sqArg c.ent % 256 % 4) k) (.molt (sqArg c.ent % 256))
      (fun x => !d.slotBusy (sqArg c.ent % 256) && decide ((x.ctl (sqArg c.ent % 256)).busy = .molting)) := start_canStart h

section
variable (h : canStart d q r 0x45 c)
include h

theorem stopCmd_form {abort : Bool} (ha : (sqArg c.ent).testBit 8 = abort) : d.unlessHalted (d.stopCmd q r k abort) =
    d.slotOp (cmdKey q r) c (fun x => if abort then xStopAbort (sliceMst q) (sqArg c.ent % 256 / 4) (sqArg c.ent % 256 % 4) k x
      else xStopDrain (sliceMst q) (sqArg c.ent % 256 / 4) (sqArg c.ent % 256 % 4) k x) (.slot (sqArg c.ent % 256))
      (fun x => x.stopRuns (sqArg c.ent % 256)) := (start_canStart h).trans (if_neg (not_not.2 ha))

theorem stopCmd_otherForm {abort : Bool} (ha : (sqArg c.ent).testBit 8 ≠ abort) : d.unlessHalted (d.stopCmd q r k abort) = d :=
  (start_canStart h).trans (if_pos ha)

theorem stopSlot_starts (ha : (sqArg c.ent).testBit 8 = false) : d.unlessHalted (xStopSlot q r k d) =
    d.slotOp (cmdKey q r) c (xStopDrain (sliceMst q) (sqArg c.ent % 256 / 4) (sqArg c.ent % 256 % 4) k) (.slot (sqArg c.ent % 256))
      (fun x => x.stopRuns (sqArg c.ent % 256)) :=
  (stopCmd_form h ha).trans (congrArg (d.slotOp _ c · _ _) (funext fun _ => if_neg Bool.false_ne_true))

theorem stopSlotAbort_starts (ha : (sqArg c.ent).testBit 8 = true) : d.unlessHalted (xStopSlotAbort q r k d) =
    d.slotOp (cmdKey q r) c (xStopAbort (sliceMst q) (sqArg c.ent % 256 / 4) (sqArg c.ent % 256 % 4) k) (.slot (sqArg c.ent % 256))
      (fun x => x.stopRuns (sqArg c.ent % 256)) :=
  (stopCmd_form h ha).trans (congrArg (d.slotOp _ c · _ _) (funext fun _ => if_pos rfl))

end

theorem stopCmd_not {abort : Bool} (h : ∀ c, ¬ canStart d q r 0x45 c) : d.unlessHalted (d.stopCmd q r k abort) = d :=
  start_not_canStart h

end

/-! ### SET_ENTRY (R403) -/

section
variable {d : Dev} {q r : Nat} {c : Cmd} (h : canStart d q r 0x47 c)
include h

/-- The chip with the entry that a SET_ENTRY names written, and the command ended by the write's answer. -/
def entryPut (d : Dev) (q key : Nat) (c : Cmd) (v : Nat) : Dev :=
  let a := d.entAddr q (sqArg c.ent % 2048) (bitsOf (sqArg c.ent) 23 16)
  let w := d.hbm (wrReq (sliceMid q) 0 a 8 v) false .none
  w.1.endCmd key (memStatus (w.1.hbmCode (sliceMid q) 0 a true w.2.code)) 0

theorem setEntry_malformed (ho : 1056 ≤ sqArg c.ent % 2048) : d.unlessHalted (xSetEntry q r d) = d.endCmd (cmdKey q r) 0x0B 0 :=
  (start_canStart h).trans (if_pos ho)

section
variable (ho : sqArg c.ent % 2048 < 1056)
include ho

theorem setEntry_clears (hv : (sqP c.ent 0).testBit 31 = false) : d.unlessHalted (xSetEntry q r d) = entryPut d q (cmdKey q r) c 0 :=
  (start_canStart h).trans ((if_neg (Nat.not_le.2 ho)).trans (if_pos (bnot_of_not (ne_true_of_eq_false hv))))

variable (hv : (sqP c.ent 0).testBit 31 = true)
include hv

theorem setEntry_waits (hs : d.sweeping (sqP c.ent 0 % 256) = true) : d.unlessHalted (xSetEntry q r d) = d :=
  (start_canStart h).trans ((if_neg (Nat.not_le.2 ho)).trans ((if_neg (not_bnot_of hv)).trans (if_pos hs)))

variable (hs : d.sweeping (sqP c.ent 0 % 256) = false)
include hs

theorem setEntry_invalid (he : d.entryOk (sqP c.ent 0 % 256) (bitsOf (sqP c.ent 0) 11 8) (sqArg c.ent % 2048) = false) :
    d.unlessHalted (xSetEntry q r d) = d.endCmd (cmdKey q r) 0x04 0 :=
  (start_canStart h).trans ((if_neg (Nat.not_le.2 ho)).trans ((if_neg (not_bnot_of hv)).trans
    ((if_neg (ne_true_of_eq_false hs)).trans (if_pos (bnot_of_not (ne_true_of_eq_false he))))))

theorem setEntry_names (he : d.entryOk (sqP c.ent 0 % 256) (bitsOf (sqP c.ent 0) 11 8) (sqArg c.ent % 2048) = true) :
    d.unlessHalted (xSetEntry q r d) = entryPut d q (cmdKey q r) c (2 ^ 63 + bitsOf (sqP c.ent 0) 11 8 * 2 ^ 56 +
      d.regN (slotReg (sqP c.ent 0 % 256) .SLOT_GEN) * 2 ^ 32 + sqP c.ent 0 % 256) :=
  (start_canStart h).trans ((if_neg (Nat.not_le.2 ho)).trans ((if_neg (not_bnot_of hv)).trans
    ((if_neg (ne_true_of_eq_false hs)).trans (if_neg (not_bnot_of he)))))

end

end

/-- Settles O25: each command by its operands, a slot command by what its operation leaves of the slot's block. -/
theorem queueManagement : Obligations.QueueManagement := by
  refine ⟨?_, ?_, ?_, ?_, ?_, ?_⟩
  case refine_1 =>
    intro q r c s h
    exact ⟨fun hf => next_congr (createQ_malformed h hf), fun hf hq => next_congr (createQ_exists h hf hq),
      fun hf hp => next_congr (createQ_noPair h hf hp), fun i hf hq hp => next_congr (createQ_assigns h hf hq hp)⟩
  case refine_2 =>
    intro q r c s h
    refine ⟨fun hp => next_congr (deleteQ_none h hp), fun lq i hp => ⟨fun ha => ?_, fun ha hs => ?_, fun ha hs => ?_⟩⟩
    · exact next_congr ((deleteQ_pair h hp).trans (if_pos ha))
    · exact next_congr ((deleteQ_pair h hp).trans ((if_neg (ne_true_of_eq_false ha)).trans (if_pos hs)))
    · exact next_congr ((deleteQ_pair h hp).trans ((if_neg (ne_true_of_eq_false ha)).trans (if_neg hs)))
  case refine_3 =>
    intro q r c s h
    refine ⟨fun hq => next_congr (bindWindow_absent h hq), fun hq ho => next_congr (bindWindow_refused h hq ho), fun hq ho hm => ?_,
      fun hq ho hm => ?_⟩
    · exact next_congr ((bindWindow_written h hq ho).trans (if_pos hm))
    · exact next_congr ((bindWindow_written h hq ho).trans (if_neg hm))
  case refine_4 =>
    intro q r opc c s h
    refine ⟨fun ha => ⟨?_, ?_, ?_, ?_, ?_, ?_, ?_, ?_⟩, fun ha => ⟨?_, ?_, ?_, ?_⟩, ?_, ?_⟩
    · rintro rfl hb
      exact next_congr ((startSlot_starts h).trans (slotOp_waits ha (by simpa using hb)))
    · rintro rfl hb
      exact next_congr ((startSlot_starts h).trans (slotOp_ends ha (by simpa using hb)))
    · rintro rfl hf hb
      exact next_congr ((stopSlot_starts h hf).trans (slotOp_waits ha hb))
    · rintro rfl hf hb
      exact next_congr ((stopSlot_starts h hf).trans (slotOp_ends ha (ne_true_of_eq_false hb)))
    · rintro rfl hf hb
      exact next_congr ((stopSlotAbort_starts h hf).trans (slotOp_waits ha hb))
    · rintro rfl hf hb
      exact next_congr ((stopSlotAbort_starts h hf).trans (slotOp_ends ha (ne_true_of_eq_false hb)))
    · rintro rfl hb
      exact next_congr ((mgmtMolt_starts h).trans (slotOp_waits ha (by simpa using hb)))
    · rintro rfl hb
      exact next_congr ((mgmtMolt_starts h).trans (slotOp_ends ha (by simpa using hb)))
    · rintro rfl
      exact next_congr ((startSlot_starts h).trans (slotOp_absent ha))
    · rintro rfl hf
      exact next_congr ((stopSlot_starts h hf).trans (slotOp_absent ha))
    · rintro rfl hf
      exact next_congr ((stopSlotAbort_starts h hf).trans (slotOp_absent ha))
    · rintro rfl
      exact next_congr ((mgmtMolt_starts h).trans (slotOp_absent ha))
    · rintro rfl hf
      exact next_congr (stopCmd_otherForm h (by simp [hf]))
    · rintro rfl hf
      exact next_congr (stopCmd_otherForm h (by simp [hf]))
  case refine_5 =>
    intro q r c s h
    exact ⟨fun ho => next_congr (setEntry_malformed h ho), fun ho hv => next_congr (setEntry_clears h ho hv),
      fun ⟨ho, hv⟩ hs => next_congr (setEntry_waits h ho hv hs), fun ⟨ho, hv⟩ hs he => next_congr (setEntry_invalid h ho hv hs he),
      fun ⟨ho, hv⟩ hs he => next_congr (setEntry_names h ho hv hs he)⟩
  case refine_6 =>
    intro q r s
    exact ⟨fun h => next_congr (start_not_canStart h), fun h => next_congr (start_not_canStart h),
      fun h => next_congr (start_not_canStart h), fun h => next_congr (start_not_canStart h),
      fun h => ⟨next_congr (stopCmd_not h), next_congr (stopCmd_not h)⟩,
      fun h => next_congr (start_not_canStart h), fun h => next_congr (start_not_canStart h)⟩

end Sys2Proof.Proofs

namespace Sys2Proof.Proofs

open Sys2Proof.Machine Sys2Proof.Safety

/-! Quench, firmware calls and the tongue (14 R400, R401, R404, R406). -/

/-! ### QUENCH and UNQUENCH (R404) -/

section
variable {d : Dev} {q r now : Nat} {c : Cmd}

section
variable (h : canStart d q r 0x48 c)
include h

theorem quenchCmd_otherMode {abort : Bool} (ha : (sqArg c.ent).testBit 28 ≠ abort) : d.unlessHalted (d.quenchCmd q r now abort) = d :=
  (start_canStart h).trans (if_pos ha)

section
variable {abort : Bool} (ha : (sqArg c.ent).testBit 28 = abort)
include ha

theorem quenchCmd_none (hn : d.namedPairs (sqArg c.ent) = none) :
    d.unlessHalted (d.quenchCmd q r now abort) = d.endCmd (cmdKey q r) 0x0B 0 := by
  refine (start_canStart h).trans ((if_neg (not_not.2 ha)).trans ?_)
  simp only [hn]

theorem quenchCmd_named {l : List (Nat × Nat)} (hn : d.namedPairs (sqArg c.ent) = some l) :
    d.unlessHalted (d.quenchCmd q r now abort) =
      ((d.waitFor (cmdKey q r) c .none).quench now l ((sqArg c.ent).testBit 28)).endCmd (cmdKey q r) 0 l.length := by
  refine (start_canStart h).trans ((if_neg (not_not.2 ha)).trans ?_)
  simp only [hn, ha]

end

end

theorem quenchCmd_not {abort : Bool} (h : ∀ c, ¬ canStart d q r 0x48 c) : d.unlessHalted (d.quenchCmd q r now abort) = d :=
  start_not_canStart h

section
variable (h : canStart d q r 0x49 c)
include h

theorem unquench_none (hn : d.namedPairs (sqArg c.ent) = none) :
    d.unlessHalted (xUnquench q r d) = d.endCmd (cmdKey q r) 0x0B 0 := by
  refine (start_canStart h).trans ?_
  simp only [hn]

/-- Of the pairs that an UNQUENCH names, those whose quench it lifts: the owner's admin pair is not among them. -/
def lifted (d : Dev) (l : List (Nat × Nat)) : List (Nat × Nat) :=
  l.filter (fun p => !(d.qpAdmin p.1 p.2 && decide (d.qpOid p.1 p.2 = 0)))

theorem unquench_named {l : List (Nat × Nat)} (hn : d.namedPairs (sqArg c.ent) = some l) :
    d.unlessHalted (xUnquench q r d) = (d.unquench (lifted d l)).endCmd (cmdKey q r) 0 (lifted d l).length := by
  refine (start_canStart h).trans ?_
  simp only [hn, lifted]

end

end

/-! ### FW_CALL and QE_FWDONE (R400, R401) -/

section
variable {d : Dev} {q r : Nat} {c : Cmd} (h : canStart d q r 0x4B c)
include h

/-- Where firmware finds the copy of the entry of record `key`. -/
def fwArea (d : Dev) (q key : Nat) : Nat := getBits (d.reg (R.QE_FW_BASE.at q)) 47 11 * 2048 + 64 * (key % 4096)

/-- The copy of the entry, the pointer and the notice of an FW_CALL, in this order. -/
def fwCopy (d : Dev) (q key : Nat) (c : Cmd) : Dev × Ans := d.memIdle (wrReq (sliceMid q) 0 (fwArea d q key) 64 c.ent)

def fwPointer (d : Dev) (q key : Nat) (c : Cmd) : Dev :=
  xMbxSptr (sliceMst q) q (d.regN (R.QE_FW_CHAN.at q) % 256) (fwArea d q key) (fwCopy d q key c).1

def fwNotice (d : Dev) (q key : Nat) (c : Cmd) : Dev :=
  let d1 := fwPointer d q key c
  xMbxSlt (sliceMst q) q (d.regN (R.QE_FW_CHAN.at q) % 256) ((key % 4096 + nget 0 d1.epochs key * 4096) * 2 ^ 32 + 64) d1

theorem fwCall_starts : d.unlessHalted (xFwCall q r d) =
    if (fwCopy d q (cmdKey q r) c).2.code ≠ .okay then (fwCopy d q (cmdKey q r) c).1.endCmd (cmdKey q r) 0x03 0
    else if (fwPointer d q (cmdKey q r) c).out.code ≠ .okay then (fwPointer d q (cmdKey q r) c).endCmd (cmdKey q r) 0x0A 0
    else if (fwNotice d q (cmdKey q r) c).out.code = .okay then (fwNotice d q (cmdKey q r) c).waitFor (cmdKey q r) c .firmware
    else (fwNotice d q (cmdKey q r) c).endCmd (cmdKey q r) 0x0A 0 := start_canStart h

end

section
variable {m : Mst} {q v : Nat} {k : Clk} {d : Dev}

/-- The FW_CALL of a record that the token of a QE_FWDONE names waits for firmware. -/
def FwWaits (d : Dev) (q v : Nat) (c : Cmd) : Prop :=
  sqOpc c.ent = 0x4B ∧ c.st = .running ∧ nget 0 d.epochs (cmdKey q (bitsOf v 59 48)) = bitsOf v 63 60

variable (hm : m.oid = 0)
include hm

theorem xQeFwdone_reserved (hs : 0x0C < bitsOf v 47 40) : xQeFwdone m q v k d = d.refuseAs m (R.QE_FWDONE.at q) .reserved :=
  (if_neg (not_denied hm)).trans (if_pos hs)

variable (hs : bitsOf v 47 40 ≤ 0x0C)
include hs

theorem xQeFwdone_ends {c : Cmd} (hc : d.cmd (cmdKey q (bitsOf v 59 48)) = some c) (hw : FwWaits d q v c) :
    xQeFwdone m q v k d = (d.endCmd (cmdKey q (bitsOf v 59 48)) (bitsOf v 47 40) (v % 2 ^ 32)).okay := by
  refine (if_neg (not_denied hm)).trans ((if_neg (Nat.not_lt.2 hs)).trans (if_pos ?_))
  simp only [hc]
  exact decide_eq_true hw

theorem xQeFwdone_refused (hw : ∀ c, d.cmd (cmdKey q (bitsOf v 59 48)) = some c → ¬ FwWaits d q v c) :
    xQeFwdone m q v k d = (d.qeErr k.tick q 4 0).refuse m (R.QE_FWDONE.at q) := by
  refine (if_neg (not_denied hm)).trans ((if_neg (Nat.not_lt.2 hs)).trans (if_neg ?_))
  cases hc : d.cmd (cmdKey q (bitsOf v 59 48)) with
  | none => exact Bool.false_ne_true
  | some c => exact ne_true_of_eq_false (decide_eq_false (hw c hc))

end

/-! ### The tongue (R405, R406) -/

section
variable {d : Dev} {k : Clk}

theorem xTongue_empty (h : d.tongue = []) : xTongueQuench k d = d ∧ xTongueUnquench d = d ∧ xTongueStopSlot k d = d := by
  simp only [xTongueQuench, xTongueUnquench, xTongueStopSlot, h, and_self]

variable {t : Tongue} {r : List Tongue} (h : d.tongue = t :: r)
include h

theorem xTongueQuench_another (hc : t.cmd ≠ 1) : xTongueQuench k d = d := by simp only [xTongueQuench, h, if_pos hc]

theorem xTongueUnquench_another (hc : t.cmd ≠ 2) : xTongueUnquench d = d := by simp only [xTongueUnquench, h, if_pos hc]

theorem xTongueStopSlot_another (hc : t.cmd ≠ 3) : xTongueStopSlot k d = d := by simp only [xTongueStopSlot, h, if_pos hc]

theorem xTongueQuench_named {l : List (Nat × Nat)} (hn : d.namedPairs t.arg = some l) (hc : t.cmd = 1) :
    xTongueQuench k d = (d.quench k.tick l (t.arg.testBit 28)).tongueDone 0 := by
  simp only [xTongueQuench, h, if_neg (not_not.2 hc), hn]

theorem xTongueQuench_none (hn : d.namedPairs t.arg = none) (hc : t.cmd = 1) : xTongueQuench k d = d.tongueDone 1 := by
  simp only [xTongueQuench, h, if_neg (not_not.2 hc), hn]

theorem xTongueUnquench_named {l : List (Nat × Nat)} (hn : d.namedPairs t.arg = some l) (hc : t.cmd = 2) :
    xTongueUnquench d = (d.unquench l).tongueDone 0 := by
  simp only [xTongueUnquench, h, if_neg (not_not.2 hc), hn]

theorem xTongueUnquench_none (hn : d.namedPairs t.arg = none) (hc : t.cmd = 2) : xTongueUnquench d = d.tongueDone 1 := by
  simp only [xTongueUnquench, h, if_neg (not_not.2 hc), hn]

section
variable (hc : t.cmd = 3)
include hc

theorem xTongueStopSlot_runs (hb : t.begun = true) :
    xTongueStopSlot k d = if (d.ctl (t.arg % 256)).abort then d else d.tongueDone 0 := by
  simp only [xTongueStopSlot, h, if_neg (not_not.2 hc), hb, if_true]

variable (hb : t.begun = false)
include hb

theorem xTongueStopSlot_absent (ha : d.hasAnchor (t.arg % 256) = false) : xTongueStopSlot k d = d.tongueDone 1 := by
  simp only [xTongueStopSlot, h, if_neg (not_not.2 hc), hb, ha, Bool.not_false, Bool.false_eq_true, if_false, if_true]

/-- The RESULT of a tongue STOP_SLOT by what its slot's block shows. -/
def tongueRes (d : Dev) (sl : Nat) : Nat := if getBits (d.reg (slotReg sl .SLOT_STAT)) 27 24 = 0 then 0 else 2

variable (ha : d.hasAnchor (t.arg % 256) = true)
include ha

theorem xTongueStopSlot_drains (hf : t.arg.testBit 8 = false) : xTongueStopSlot k d =
    (d.stopDrain k.tick (t.arg % 256) .tadpole).tongueDone (tongueRes (d.stopDrain k.tick (t.arg % 256) .tadpole) (t.arg % 256)) := by
  simp only [xTongueStopSlot, h, if_neg (not_not.2 hc), hb, ha, hf, Bool.not_true, Bool.false_eq_true, if_false, false_and, tongueRes]

variable (hf : t.arg.testBit 8 = true)
include hf

theorem xTongueStopSlot_begins (hr : ((d.stopAbort k.tick (t.arg % 256) .tadpole).ctl (t.arg % 256)).abort = true) :
    xTongueStopSlot k d = (d.stopAbort k.tick (t.arg % 256) .tadpole).setTongue ({ t with begun := true } :: r) := by
  simp only [xTongueStopSlot, h, if_neg (not_not.2 hc), hb, ha, hf, hr, Bool.not_true, Bool.false_eq_true, if_false, if_true, and_self]

theorem xTongueStopSlot_aborts (hr : ((d.stopAbort k.tick (t.arg % 256) .tadpole).ctl (t.arg % 256)).abort = false) :
    xTongueStopSlot k d =
      (d.stopAbort k.tick (t.arg % 256) .tadpole).tongueDone (tongueRes (d.stopAbort k.tick (t.arg % 256) .tadpole) (t.arg % 256)) := by
  simp only [xTongueStopSlot, h, if_neg (not_not.2 hc), hb, ha, hf, hr, Bool.not_true, Bool.false_eq_true, if_false, if_true, and_false,
    tongueRes]

end

end

/-- Settles O26: a quench by its mode and the pairs that it names, a firmware call by the answers it gets, QE_FWDONE by its token, the
tongue by its head. -/
theorem quenchTongue : Obligations.QuenchTongue := by
  refine ⟨?_, ?_, ?_, ?_, ?_, ?_⟩
  case refine_1 =>
    intro q r c s h
    refine ⟨fun l hn ha => ?_, fun l hn ha => ?_, fun hn ha => ?_, fun hn ha => ?_, fun ha => ?_, fun ha => ?_⟩
    · exact next_congr (quenchCmd_named h ha hn)
    · exact next_congr (quenchCmd_named h ha hn)
    · exact next_congr (quenchCmd_none h ha hn)
    · exact next_congr (quenchCmd_none h ha hn)
    · exact next_congr (quenchCmd_otherMode h (by simp [ha]))
    · exact next_congr (quenchCmd_otherMode h (by simp [ha]))
  case refine_2 =>
    exact fun q r c s h => ⟨fun l hn => next_congr (unquench_named h hn), fun hn => next_congr (unquench_none h hn)⟩
  case refine_3 =>
    intro q r c s h
    refine ⟨fun h1 => ?_, fun h1 h2 => ?_, fun h1 h2 h3 => ?_, fun h1 h2 h3 => ?_⟩
    · exact next_congr ((fwCall_starts h).trans (if_pos h1))
    · exact next_congr ((fwCall_starts h).trans ((if_neg (not_not.2 h1)).trans (if_pos h2)))
    · exact next_congr ((fwCall_starts h).trans ((if_neg (not_not.2 h1)).trans ((if_neg (not_not.2 h2)).trans (if_neg h3))))
    · exact next_congr ((fwCall_starts h).trans ((if_neg (not_not.2 h1)).trans ((if_neg (not_not.2 h2)).trans (if_pos h3))))
  case refine_4 =>
    intro m q v s hm
    exact ⟨fun hs => next_congr (xQeFwdone_reserved hm hs), fun c hs hc hw => next_congr (xQeFwdone_ends hm hs hc hw),
      fun hs hw => next_congr (xQeFwdone_refused hm hs hw)⟩
  case refine_5 =>
    intro t r s hrun h
    refine ⟨fun l hn => ⟨fun hc => ?_, fun hc => ?_⟩, fun hn => ⟨fun hc => ?_, fun hc => ?_⟩,
      fun hc => next_congr (unlessHalted_still (xTongueQuench_another h hc)),
      fun hc => next_congr (unlessHalted_still (xTongueUnquench_another h hc)),
      fun hc => next_congr (unlessHalted_still (xTongueStopSlot_another h hc)), fun hc => ⟨fun hb hr => ?_, fun hb hr => ?_,
      fun hb ha => ?_, fun hb ha hf => ?_, fun hb ha hf hr => ?_, fun hb ha hf hr => ?_⟩⟩
    · exact next_congr ((unlessHalted_running hrun).trans (xTongueQuench_named h hn hc))
    · exact next_congr ((unlessHalted_running hrun).trans (xTongueUnquench_named h hn hc))
    · exact next_congr ((unlessHalted_running hrun).trans (xTongueQuench_none h hn hc))
    · exact next_congr ((unlessHalted_running hrun).trans (xTongueUnquench_none h hn hc))
    · exact next_congr (unlessHalted_still ((xTongueStopSlot_runs h hc hb).trans (if_pos hr)))
    · exact next_congr ((unlessHalted_running hrun).trans ((xTongueStopSlot_runs h hc hb).trans (if_neg (ne_true_of_eq_false hr))))
    · exact next_congr ((unlessHalted_running hrun).trans (xTongueStopSlot_absent h hc hb ha))
    · exact next_congr ((unlessHalted_running hrun).trans (xTongueStopSlot_drains h hc hb ha hf))
    · exact next_congr ((unlessHalted_running hrun).trans (xTongueStopSlot_begins h hc hb ha hf hr))
    · exact next_congr ((unlessHalted_running hrun).trans (xTongueStopSlot_aborts h hc hb ha hf hr))
  case refine_6 =>
    intro q r s
    refine ⟨fun h => ⟨next_congr (quenchCmd_not h), next_congr (quenchCmd_not h)⟩, fun h => next_congr (start_not_canStart h),
      fun h => next_congr (start_not_canStart h), fun h => ?_⟩
    rcases h with h | h
    · exact ⟨next_congr (if_pos h), next_congr (if_pos h), next_congr (if_pos h)⟩
    · obtain ⟨h1, h2, h3⟩ := xTongue_empty (k := s.clk) h
      exact ⟨next_congr (unlessHalted_still h1), next_congr (unlessHalted_still h2), next_congr (unlessHalted_still h3)⟩

end Sys2Proof.Proofs

namespace Sys2Proof.Proofs

open Sys2Proof.Machine Sys2Proof.Safety

/-! Power domains and clusters (19 R525–R527; 06 R187). -/

/-! ### Requests (R525, R526) -/

section
variable {d : Dev} {q i goal : Nat}

theorem domStart_mayNot (h : d.safe = true ∨ d.confFailed = true) : d.domStart q i goal = d.domResult q i 2 := if_pos h

section
variable (h : ¬ (d.safe = true ∨ d.confFailed = true))
include h

theorem domStart_at (ha : d.domCur q i = goal) : d.domStart q i goal = (d.setFld F.PWR_DOM_REQ goal q i).domResult q i 1 :=
  (if_neg h).trans (if_pos ha)

variable (ha : ¬ d.domCur q i = goal)
include ha

theorem domStart_refused (hg : ¬ (goal = 0 ∨ d.domAllows q i goal = true)) : d.domStart q i goal = d.domResult q i 2 := by
  obtain ⟨h0, hno⟩ := not_or.1 hg
  exact (if_neg h).trans ((if_neg ha).trans ((if_neg h0).trans (if_neg hno)))

/-- The chip `d` with a transition of a domain under way. -/
def domGoes (d : Dev) (q i goal : Nat) : Dev :=
  ((d.setFld F.PWR_DOM_REQ goal q i).setDomTr q i (some ⟨goal, none⟩)).domResult q i 1

theorem domStart_allowed (h0 : goal ≠ 0) (hg : d.domAllows q i goal = true) :
    d.domStart q i goal = domGoes (if i < 16 then d.interruptClu (clusterOf q i) else d) q i goal :=
  (if_neg h).trans ((if_neg ha).trans ((if_neg h0).trans (if_pos hg)))

theorem domStart_goes (hg : goal = 0 ∨ d.domAllows q i goal = true) (hi : goal = 0 ∨ 16 ≤ i) :
    d.domStart q i goal = domGoes d q i goal := by
  by_cases h0 : goal = 0
  · subst h0
    exact (if_neg h).trans ((if_neg ha).trans (if_pos rfl))
  · exact (domStart_allowed h ha h0 (hg.resolve_left h0)).trans
      (congrArg (domGoes · q i goal) (if_neg (Nat.not_lt.2 (hi.resolve_left h0))))

theorem domStart_interrupts (hg : goal = 0 ∨ d.domAllows q i goal = true) (h0 : goal ≠ 0) (hi : i < 16) :
    d.domStart q i goal = domGoes (d.interruptClu (clusterOf q i)) q i goal :=
  (domStart_allowed h ha h0 (hg.resolve_left h0)).trans (congrArg (domGoes · q i goal) (if_pos hi))

end

variable {m : Mst} (hm : m.oid = 0)
include hm

theorem domRequest_absent (hi : 18 < i) : d.domRequest m q i goal = d.okay := (if_neg (not_denied hm)).trans (if_pos hi)

variable (hi : i ≤ 18)
include hi

theorem domRequest_idle (ht : d.domTr q i = none) : d.domRequest m q i goal = (d.domStart q i goal).okay := by
  refine (if_neg (not_denied hm)).trans ((if_neg (Nat.not_lt.2 hi)).trans ?_)
  simp only [ht]

theorem domRequest_waits {t : DomTr} (ht : d.domTr q i = some t) : d.domRequest m q i goal =
    (((d.setDomTr q i (some { t with next := some goal })).setFld F.PWR_DOM_REQ goal q i).domResult q i 3).okay := by
  refine (if_neg (not_denied hm)).trans ((if_neg (Nat.not_lt.2 hi)).trans ?_)
  simp only [ht]

end

/-- The three rows of PWR_DOM are requests to their state. -/
theorem exec_domRequest {m : Mst} {q i goal : Nat} {row : Instr} (h : (row = Instr.domainOn m q i ∧ goal = 0) ∨
    (row = .domainBask m q i ∧ goal = 1) ∨ (row = .domainOff m q i ∧ goal = 2)) (s : State) :
    exec row s = .next { s with d := s.d.domRequest m q i goal } := by
  rcases h with ⟨rfl, rfl⟩ | ⟨rfl, rfl⟩ | ⟨rfl, rfl⟩ <;> rfl

/-! ### The end of a transition (R525–R527) -/

section
variable {d d1 : Dev} {q i : Nat} {k : Clk}

/-- The chip with a transition ended, where it goes. -/
def domThere (d : Dev) (k : Clk) (q i goal : Nat) : Dev := ((d.setDomTr q i none).domArrive k q i goal).domResult q i 1

theorem domDone_cases (h : (d.domTr q i = none ∧ d1 = d) ∨ (∃ t, d.domTr q i = some t ∧ t.next = none ∧ d1 = domThere d k q i t.goal) ∨
    (∃ t g, d.domTr q i = some t ∧ t.next = some g ∧ d1 = (domThere d k q i t.goal).domStart q i g)) : d.domDone k q i = d1 := by
  rcases h with ⟨ht, rfl⟩ | ⟨t, ht, hn, rfl⟩ | ⟨t, g, ht, hn, rfl⟩
  · simp only [Dev.domDone, ht]
  · simp only [Dev.domDone, ht, hn, domThere]
  · simp only [Dev.domDone, ht, hn, domThere]

/-- The chip after the requests that waited for a domain, and those that their masters held back. -/
def domServed (d : Dev) (k : Clk) (q i : Nat) : Dev :=
  let mine (w : Waiter) : Bool := decide (w.q = q) && decide (w.dom = i)
  ((d.waiters.filter mine).foldl (fun x w => x.unlessStale w.req.m.mid w.epoch (x.nocIssue w.req .none k w.tag w.epoch))
    ({ d with waiters := d.waiters.filter (fun w => !mine w) } : Dev)).releaseHeld k

variable (h : d.domDone k q i = d1)
include h

theorem xDomainTransitionDone_waits (hw : d1.domCur q i = 1 ∨ (d1.domTr q i).isSome = true) : xDomainTransitionDone q i k d = d1 := by
  subst h
  exact if_pos hw

theorem xDomainTransitionDone_serves (hw : ¬ (d1.domCur q i = 1 ∨ (d1.domTr q i).isSome = true)) :
    xDomainTransitionDone q i k d = domServed d1 k q i := by
  subst h
  exact if_neg hw

end

theorem xRstClu_resets {m : Mst} {q v : Nat} {k : Clk} {d : Dev} (hm : m.oid = 0) : xRstClu m q v k d =
    ((onesOf v 16).foldl (fun x l => x.clusterReset k.tick (clusterOf q l)) d).okay := if_neg (not_denied hm)

/-- Settles O42: a request by the domain's transition and PWR-4, an end of a transition by the request that followed it and by who
waits. -/
theorem powerDomains : Obligations.PowerDomains := by
  refine ⟨?_, ?_, ?_⟩
  case refine_1 =>
    intro m q i goal row s hm hrow
    have hreq := exec_domRequest hrow s
    refine ⟨fun ⟨hi, ht⟩ hn => ?_, fun ⟨hi, ht⟩ hn ha => ?_, fun ⟨hi, ht⟩ hn ha hg => ?_, fun ⟨hi, ht⟩ hn ha hg h0 => ?_,
      fun ⟨hi, ht⟩ hn ha hg h0 hc => ?_, fun hi => hreq.trans (next_congr (domRequest_absent hm hi)),
      fun t hi ht => hreq.trans (next_congr (domRequest_waits hm hi ht))⟩
    · exact hreq.trans (next_congr ((domRequest_idle hm hi ht).trans (congrArg Dev.okay (domStart_mayNot hn))))
    · exact hreq.trans (next_congr ((domRequest_idle hm hi ht).trans (congrArg Dev.okay (domStart_at hn ha))))
    · exact hreq.trans (next_congr ((domRequest_idle hm hi ht).trans (congrArg Dev.okay (domStart_refused hn ha hg))))
    · exact hreq.trans (next_congr ((domRequest_idle hm hi ht).trans (congrArg Dev.okay (domStart_goes hn ha hg h0))))
    · exact hreq.trans (next_congr ((domRequest_idle hm hi ht).trans (congrArg Dev.okay (domStart_interrupts hn ha hg h0 hc))))
  case refine_2 =>
    intro q i s there waits mine serve served d hd
    have hdone : s.d.domDone s.clk q i = d := domDone_cases hd
    exact ⟨fun hw => next_congr (xDomainTransitionDone_waits hdone hw), fun hw => next_congr (xDomainTransitionDone_serves hdone hw)⟩
  case refine_3 => exact fun m q v s hm => next_congr (xRstClu_resets hm)

end Sys2Proof.Proofs

namespace Sys2Proof.Proofs

open Sys2Proof.Machine Sys2Proof.Safety

/-! Clock and rail faults, safe stop and alignment (19 R517–R521, R531, R532). -/

/-- Equal chips give equal outcomes of an event that may bring safe stop. -/
theorem withSafe_congr {s : State} {d d' : Dev} (h : d = d') :
    (.next (s.withSafe d) : Host.Outcome State Fault Refusal) = .next (s.withSafe d') := by rw [h]

section
variable {s : State}

/-- A tick edge at which DTIME is aligned. -/
def Aligns (s : State) : Prop :=
  s.d.boot.on = true ∧ s.clk.tick % 65536 = 0 ∧ s.clk.started = false ∧ ∀ q, q < 4 → s.d.flag F.CLK_STAT_LOCK q = true

theorem mem_upTo_four (q : Nat) : q ∈ upTo 4 ↔ q < 4 := by
  simp only [upTo, List.mem_range]

theorem aligns_iff : Aligns s ↔ alignable s = true := by
  simp [Aligns, alignable, List.all_eq_true, and_assoc, mem_upTo_four]

theorem alignmentEdge_aligns (h : Aligns s) : exec .alignmentEdge s = .next { s with
    d := xAlignmentEdge s.clk s.d,
    clk := { s.clk with dtime := 64 * s.clk.tick, cyc := 0, runs := !(s.d.safe || s.d.sysHalt), started := true } } := by
  rw [Bool.not_or]
  exact if_pos (aligns_iff.1 h)

theorem alignmentEdge_still (h : ¬ Aligns s) : exec .alignmentEdge s = .next s := if_neg (mt aligns_iff.2 h)

end

section
variable {br : Nat} {eq : Bool} {k : Clk} {d : Dev}

/-- The ends of a bridge that exists differ once the array is aligned. -/
def Differ (br : Nat) (eq : Bool) (k : Clk) : Prop := eq = false ∧ k.started = true ∧ br < 4

theorem differ_iff : Differ br eq k ↔ ¬ (eq = true ∨ k.started = false ∨ 4 ≤ br) := by simp [Differ]

theorem xDtimeCompare_fault (h : Differ br eq k) : xDtimeCompare br eq k d = d.railFault k.tick 3 := if_neg (differ_iff.1 h)

theorem xDtimeCompare_still (h : ¬ Differ br eq k) : xDtimeCompare br eq k d = d := if_pos (not_not.1 (mt differ_iff.2 h))

end

/-- Settles O44: each fault by the condition that it needs, an edge by what alignment needs, safe stop by whether it is there already. -/
theorem clockFaults : Obligations.ClockFaults := by
  refine ⟨?_, fun s => rfl, ?_, ?_, ?_, ?_, ?_, ?_⟩
  case refine_1 => exact fun q s => ⟨fun h => withSafe_congr (if_pos h), fun h => withSafe_congr (if_neg h)⟩
  case refine_2 =>
    exact fun br eq s => ⟨fun h => withSafe_congr (xDtimeCompare_fault h), fun h => withSafe_congr (xDtimeCompare_still h)⟩
  case refine_3 =>
    exact fun g s => ⟨fun h => withSafe_congr (if_neg (ne_true_of_eq_false h)), fun h => withSafe_congr (if_pos h)⟩
  case refine_4 => exact fun s => ⟨alignmentEdge_aligns, alignmentEdge_still⟩
  case refine_5 => exact fun s => ⟨fun h => next_congr (if_pos h), fun h => next_congr (if_neg (ne_true_of_eq_false h))⟩
  case refine_6 => exact fun s d => ⟨rfl, rfl, fun h => if_pos h, fun h => if_neg (ne_true_of_eq_false h)⟩
  case refine_7 => exact fun d now cause g => ⟨fun h => if_pos h, fun h => if_neg (ne_true_of_eq_false h)⟩

end Sys2Proof.Proofs

namespace Sys2Proof.Proofs

open Sys2Proof.Machine Sys2Proof.Safety

/-! Heat, power and the core voltage (19 R529, R530, R533–R538). -/

/-! ### The hottest sensor (R529) -/

/-- The hotter of the hottest so far and sensor `g`. -/
def hotter (d : Dev) (b : Option (Int × Nat)) (g : Nat) : Option (Int × Nat) :=
  match d.reading (g / 16) (g % 16), b with
  | some t, some (u, h) => if u < t then some (t, g) else some (u, h)
  | some t, none => some (t, g)
  | none, b => b

/-- Something at least as hot as `u` has been found. -/
def Reached (u : Int) (b : Option (Int × Nat)) : Prop := ∃ t g, b = some (t, g) ∧ u ≤ t

section
variable {d : Dev}

theorem hottest_eq (l : List Nat) : d.hottest l = l.foldl (hotter d) none := rfl

theorem reached_hotter {u : Int} {b : Option (Int × Nat)} (g : Nat) (h : Reached u b) : Reached u (hotter d b g) := by
  obtain ⟨t, h, rfl, hu⟩ := h
  cases hr : d.reading (g / 16) (g % 16) with
  | none => exact ⟨t, h, by simp only [hotter, hr], hu⟩
  | some v =>
    by_cases hv : t < v
    · exact ⟨v, g, by simp only [hotter, hr, if_pos hv], by omega⟩
    · exact ⟨t, h, by simp only [hotter, hr, if_neg hv], hu⟩

theorem reached_own {u : Int} (b : Option (Int × Nat)) {g : Nat} (h : d.reading (g / 16) (g % 16) = some u) :
    Reached u (hotter d b g) := by
  cases b with
  | none => exact ⟨u, g, by simp only [hotter, h], le_refl u⟩
  | some x =>
    obtain ⟨t, h'⟩ := x
    by_cases hv : t < u
    · exact ⟨u, g, by simp only [hotter, h, if_pos hv], le_refl u⟩
    · exact ⟨t, h', by simp only [hotter, h, if_neg hv], by omega⟩

theorem reached_foldl {u : Int} (l : List Nat) : ∀ {b : Option (Int × Nat)}, Reached u b → Reached u (l.foldl (hotter d) b) := by
  induction l with
  | nil => exact fun h => h
  | cons g l ih => exact fun h => ih (reached_hotter g h)

theorem reached_of_mem {u : Int} {g : Nat} (h : d.reading (g / 16) (g % 16) = some u) :
    ∀ (l : List Nat) (b : Option (Int × Nat)), g ∈ l → Reached u (l.foldl (hotter d) b) := by
  intro l
  induction l with
  | nil => exact fun b hg => absurd hg List.not_mem_nil
  | cons x l ih =>
    intro b hg
    rcases List.mem_cons.1 hg with rfl | hg
    · exact reached_foldl l (reached_own b h)
    · exact ih _ hg

/-- The hottest of a list is at least as hot as each sensor of it that has converted. -/
theorem hottest_max {l : List Nat} {t u : Int} {h g : Nat} (hl : d.hottest l = some (t, h)) (hg : g ∈ l)
    (hu : d.reading (g / 16) (g % 16) = some u) : u ≤ t := by
  obtain ⟨t', g', ht, hle⟩ := reached_of_mem hu l none hg
  rw [← hottest_eq, hl] at ht
  cases ht
  exact hle

theorem hottest_some {l : List Nat} {u : Int} {g : Nat} (hg : g ∈ l) (hu : d.reading (g / 16) (g % 16) = some u) :
    ∃ t h, d.hottest l = some (t, h) := by
  obtain ⟨t, h, ht, -⟩ := reached_of_mem hu l none hg
  exact ⟨t, h, ht⟩

end

/-! ### A conversion (R529) -/

section
variable {d : Dev} {q i raw : Nat}

/-- The chip with the reading of a sensor, and with the hottest of its quarter shown. -/
def converted (d : Dev) (q i raw : Nat) : Dev := d.setRegN (R.PWR_TSENS.at q i) (2 ^ 31 + raw % 4096)

def quarterShown (d : Dev) (q : Nat) (t : Int) (g : Nat) : Dev := d.setRegN (R.PWR_TQ.at q) (g % 16 * 256 + wholeDeg t)

theorem converted_bit (raw : Nat) : (BitVec.ofNat 64 (2 ^ 31 + raw % 4096)).getLsbD 31 = true := by
  have hlow : (raw % 4096).testBit 31 = false := Nat.testBit_lt_two_pow (by omega)
  rw [BitVec.getLsbD_ofNat, Nat.testBit_two_pow_add_eq, hlow]
  rfl

/-- The sensor that converts has a reading. -/
theorem reading_converted : ∃ u, (converted d q i raw).reading q i = some u := by
  refine ⟨_, if_pos ?_⟩
  rw [converted, Dev.setRegN, Laws.reg_setReg_self]
  exact converted_bit raw

theorem reading_quarterShown (t : Int) (g p j : Nat) : (quarterShown d q t g).reading p j = d.reading p j := by
  have hne : R.PWR_TSENS.at p j ≠ R.PWR_TQ.at q := fun h => R.noConfusion (congrArg RKey.r h)
  rw [Dev.reading, Dev.reading, quarterShown, Dev.setRegN, Laws.reg_setReg_other _ _ hne]

/-- Sensor `j` of quarter `p` by its global number. -/
theorem reading_global (p : Nat) {j : Nat} (hj : j < 16) : d.reading ((p * 16 + j) / 16) ((p * 16 + j) % 16) = d.reading p j := by
  have hdiv : (p * 16 + j) / 16 = p := by omega
  have hmod : (p * 16 + j) % 16 = j := by omega
  rw [hdiv, hmod]

theorem mem_quarterSensors {j : Nat} (hj : j < 16) : q * 16 + j ∈ (upTo 16).map (fun j => q * 16 + j) :=
  List.mem_map.2 ⟨j, List.mem_range.2 hj, rfl⟩

theorem mem_allSensors {p j : Nat} (hp : p < 4) (hj : j < 16) : p * 16 + j ∈ upTo 64 := List.mem_range.2 (by omega)

theorem xSensorConversion_absent (h : 4 ≤ q ∨ 16 ≤ i) : xSensorConversion q i raw d = d := if_pos h

theorem xSensorConversion_shows (h : ¬ (4 ≤ q ∨ 16 ≤ i)) {t t2 : Int} {g g2 : Nat}
    (h1 : (converted d q i raw).hottest ((upTo 16).map (fun j => q * 16 + j)) = some (t, g))
    (h2 : (quarterShown (converted d q i raw) q t g).hottest (upTo 64) = some (t2, g2)) :
    xSensorConversion q i raw d =
      (quarterShown (converted d q i raw) q t g).setRegN (R.GOV_HOT.at 0) (g2 * 256 + wholeDeg t2) := by
  rw [converted] at h1
  rw [quarterShown, converted] at h2
  simp only [xSensorConversion, if_neg h, h1, h2, quarterShown, converted]

/-- A conversion finds the hottest of its quarter and of the device. -/
theorem sensorConversion_hottest (hq : q < 4) (hi : i < 16) : ∃ t g t2 g2,
    (converted d q i raw).hottest ((upTo 16).map (fun j => q * 16 + j)) = some (t, g) ∧
    (quarterShown (converted d q i raw) q t g).hottest (upTo 64) = some (t2, g2) := by
  obtain ⟨u, hu⟩ := reading_converted (d := d) (q := q) (i := i) (raw := raw)
  obtain ⟨t, g, h1⟩ := hottest_some (mem_quarterSensors hi) ((reading_global q hi).trans hu)
  obtain ⟨t2, g2, h2⟩ := hottest_some (mem_allSensors hq hi)
    ((reading_global q hi).trans ((reading_quarterShown t g q i).trans hu))
  exact ⟨t, g, t2, g2, h1, h2⟩

end

/-! ### The throttle and the peak (R530, R535) -/

section
variable {d : Dev}

theorem xThrottleStep_none (h : d.hottest (upTo 64) = none) : xThrottleStep d = d := by simp only [xThrottleStep, h]

/-- The chip with n_th and the HOT bit of a step. -/
def throttled (d : Dev) (n : Nat) (hot : Bool) : Dev :=
  ({ d with gov := { d.gov with nt := n } }.setBit (R.GOV_STAT.at 0) 31 hot).govShow

section
variable {t : Int} {g : Nat} (h : d.hottest (upTo 64) = some (t, g))
include h

theorem xThrottleStep_hot (ht : 4 * (getBits (d.reg (R.GOV_CFG.at 0)) 7 0 : Int) ≤ t) :
    xThrottleStep d = throttled d (if d.gov.nt < 63 then d.gov.nt + 1 else d.gov.nt) true := by
  simp only [xThrottleStep, h, decide_eq_true ht, if_true, throttled]

theorem xThrottleStep_cool (ht : t < 4 * (getBits (d.reg (R.GOV_CFG.at 0)) 7 0 : Int)) : xThrottleStep d = throttled d
    (if t < 4 * ((getBits (d.reg (R.GOV_CFG.at 0)) 7 0 : Int) - (getBits (d.reg (R.GOV_CFG.at 0)) 11 8 : Int))
      then d.gov.nt - 1 else d.gov.nt) false := by
  simp only [xThrottleStep, h, decide_eq_false (not_le.2 ht), Bool.false_eq_true, if_false, throttled]

end

theorem satAdd_peak (n : Nat) : satAdd n 8 63 = if n + 8 ≤ 63 then n + 8 else 63 := by
  simp only [satAdd]
  split <;> split <;> omega

theorem xPeakExcursion_rises {a : Nat} (h : getBits (d.reg (R.GOV_PL_PEAK.at 0)) 15 0 < a) : xPeakExcursion a d =
    ({ d with gov := { d.gov with np := if d.gov.np + 8 ≤ 63 then d.gov.np + 8 else 63 } }.setBit (R.GOV_STAT.at 0) 30 true).govShow := by
  rw [← satAdd_peak]
  exact if_neg (Nat.not_le.2 h)

/-! ### The core voltage (R538) -/

theorem vset_eq : (d.vset : Int) =
    max 620 (min 780 ((getBits (d.reg (R.AVS_CFG.at 0)) 31 16 : Int) + signedOf (d.regN (R.AVS_TRIM.at 0)) 8)) :=
  Int.toNat_of_nonneg (le_max_of_le_left (by decide))

/-- The output of the regulator, VFUSE at first. -/
def avsNow (d : Dev) : Nat := d.avsOut.getD (getBits (d.reg (R.AVS_CFG.at 0)) 31 16)

/-- The chip with the regulator told to give `mv`. -/
def avsTold (d : Dev) (mv : Nat) : Dev := { d.setFld F.AVS_STAT_VSET d.vset 0 with avsOut := some mv }.send (.vout mv)

theorem xAvsStep_rests (h : d.avsOut = some d.vset) : xAvsStep d = d.setFld F.AVS_STAT_VSET d.vset 0 := if_pos h

theorem xAvsStep_moves (h : d.avsOut ≠ some d.vset) : xAvsStep d =
    avsTold d (if avsNow d + 5 ≤ d.vset then avsNow d + 5 else if d.vset + 5 ≤ avsNow d then avsNow d - 5 else d.vset) := if_neg h

/-- A reading of the output within 10 % of VSET. -/
theorem near_iff (mv goal : Nat) :
    (10 * mv ≤ 11 * goal ∧ 9 * goal ≤ 10 * mv) ↔ ¬ (goal < 10 * (mv - goal) ∨ goal < 10 * (goal - mv)) := by omega

/-- The chip with a reading of the output shown. -/
def avsRead (d : Dev) (mv : Nat) : Dev := { d with avsFails := 0 }.setFld F.AVS_STAT_VREAD mv 0

theorem xAvsTelemetry_reads (mv : Nat) (k : Clk) : xAvsTelemetry true mv k d =
    if (avsRead d mv).vset < 10 * (mv - (avsRead d mv).vset) ∨ (avsRead d mv).vset < 10 * ((avsRead d mv).vset - mv)
      then (avsRead d mv).railFault k.tick 4 else avsRead d mv := if_pos rfl

end

/-- Settles O45: a conversion by what the list of sensors gives, the throttle by the hottest, the regulator by its distance, telemetry by
the reading or the failures so far. -/
theorem powerControl : Obligations.PowerControl := by
  refine ⟨?_, ?_, fun q w s => rfl, ?_, ?_, ?_⟩
  case refine_1 =>
    intro q i raw s
    refine ⟨fun hq hi => ?_, fun h => next_congr (xSensorConversion_absent h)⟩
    obtain ⟨t, g, t2, g2, h1, h2⟩ := sensorConversion_hottest (d := s.d) (raw := raw) hq hi
    refine ⟨t, g, t2, g2, h1, fun j u hj hu => ?_, h2, fun p j u hp hj hu => ?_,
      next_congr (xSensorConversion_shows (by omega) h1 h2)⟩
    · exact hottest_max h1 (mem_quarterSensors hj) ((reading_global q hj).trans hu)
    · exact hottest_max h2 (mem_allSensors hp hj) ((reading_global p hj).trans hu)
  case refine_2 =>
    intro s
    refine ⟨fun t g h => ⟨fun ht hn => ?_, fun ht hn => ?_, fun ht hh => ?_, fun ht hh => ?_⟩,
      fun h => next_congr (xThrottleStep_none h)⟩
    · exact next_congr ((xThrottleStep_hot h ht).trans (congrArg (throttled s.d · true) (if_pos hn)))
    · exact next_congr ((xThrottleStep_hot h ht).trans (congrArg (throttled s.d · true) (if_neg (Nat.not_lt.2 hn))))
    · exact next_congr ((xThrottleStep_cool h ht).trans (congrArg (throttled s.d · false) (if_pos hh)))
    · exact next_congr ((xThrottleStep_cool h ht).trans (congrArg (throttled s.d · false) (if_neg (not_lt.2 hh))))
  case refine_3 => exact fun a s => ⟨fun h => next_congr (xPeakExcursion_rises h), fun h => next_congr (if_pos h)⟩
  case refine_4 =>
    intro s
    refine ⟨vset_eq, fun h => next_congr (xAvsStep_rests h), fun h hc => ?_, fun h hc => ?_, fun h hc hg => ?_⟩
    · exact next_congr ((xAvsStep_moves h).trans (congrArg (avsTold s.d) (if_pos hc)))
    · have hno : ¬ avsNow s.d + 5 ≤ s.d.vset := fun hup => by
        have hdown : s.d.vset + 5 ≤ avsNow s.d := hc
        omega
      exact next_congr ((xAvsStep_moves h).trans (congrArg (avsTold s.d) ((if_neg hno).trans (if_pos hc))))
    · exact next_congr ((xAvsStep_moves h).trans (congrArg (avsTold s.d)
        ((if_neg (Nat.not_le.2 hc)).trans (if_neg (Nat.not_le.2 hg)))))
  case refine_5 =>
    intro mv s
    refine ⟨fun h => ?_, fun h => ?_, fun h => withSafe_congr (if_neg h), fun h => withSafe_congr (if_pos h)⟩
    · exact withSafe_congr ((xAvsTelemetry_reads mv s.clk).trans (if_neg ((near_iff _ _).1 h)))
    · exact withSafe_congr ((xAvsTelemetry_reads mv s.clk).trans (if_pos (not_not.1 (mt (near_iff _ _).2 h))))

end Sys2Proof.Proofs

namespace Sys2Proof.Proofs

open Sys2Proof.Machine Sys2Proof.Safety

/-! Resets of a quarter and of the device (19 R520, R522–R524, R532; 20 R545; 09 R620). -/

/-! ### The quarter reset (R522, R524) -/

section
variable {m : Mst} {q v : Nat} {k : Clk} {d : Dev} (hm : m.oid = 0)
include hm

theorem xRstQctl_refused (hk : ¬ bitsOf v 31 16 = 0x5A17) : xRstQctl m q v k d = d.refuse m (R.RST_QCTL.at q) :=
  (if_neg (not_denied hm)).trans (if_pos hk)

variable (hk : bitsOf v 31 16 = 0x5A17)
include hk

theorem xRstQctl_nothing (h : ¬ (v % 2 = 1 ∧ d.inReset q = false)) : xRstQctl m q v k d = d.okay := by
  have hno : v % 2 = 0 ∨ d.inReset q = true :=
    (not_and_or.1 h).imp (fun hv => by omega) Bool.eq_true_of_not_eq_false
  exact (if_neg (not_denied hm)).trans ((if_neg (not_not.2 hk)).trans (if_pos hno))

/-- The chip with a quarter in reset. -/
def quarterDown (d : Dev) (tick q : Nat) : Dev :=
  let d1 := ((d.truncate (fun mid => d.mastersOf q mid)).quarterLoses tick q).setRegN (R.RST_STAT.at q) 0xFFFF
  let d2 := (d1.setFld F.RST_CAUSE_CAUSE 2 q).setFld F.RST_CAUSE_QCOUNT (satAdd (d1.fld F.RST_CAUSE_QCOUNT q) 1 255) q
  { d2 with qrst := nset 0 d2.qrst q 1 }.setFld F.CLK_STAT_ALIGNED 0 q

theorem xRstQctl_resets (h : v % 2 = 1 ∧ d.inReset q = false) : xRstQctl m q v k d = (quarterDown d k.tick q).okay := by
  have hgo : ¬ (v % 2 = 0 ∨ d.inReset q = true) := not_or.2 ⟨by omega, ne_true_of_eq_false h.2⟩
  exact (if_neg (not_denied hm)).trans ((if_neg (not_not.2 hk)).trans (if_neg hgo))

end

/-! ### A flash command that is cut off -/

/-- `e` is `d` but for the flash commands, the memory and the free values drawn. -/
def FlashCut (d e : Dev) : Prop := ∃ fl mem free, e = { d with fls := fl, mem := mem, free := free }

namespace FlashCut

variable {d e g : Dev}

theorem refl : FlashCut d d := ⟨_, _, _, rfl⟩

theorem trans (h : FlashCut d e) (h' : FlashCut e g) : FlashCut d g := by
  obtain ⟨_, _, _, rfl⟩ := h
  obtain ⟨_, _, _, rfl⟩ := h'
  exact ⟨_, _, _, rfl⟩

theorem setBytes (bs : List Byte) : ∀ (d : Dev) (a : Nat), FlashCut d (d.setBytes a bs) := by
  induction bs with
  | nil => exact fun _ _ => refl
  | cons b bs ih => exact fun d a => trans (e := d.setByte a b) ⟨_, _, _, rfl⟩ (ih _ _)

theorem freeMem (n : Nat) : ∀ (d : Dev) (a : Nat), FlashCut d (d.freeMem a n) := by
  induction n with
  | zero => exact fun _ _ => refl
  | succ n ih => exact fun d a => (trans (e := d.fresh.2) ⟨_, _, _, rfl⟩ (setBytes _ _ _)).trans (ih _ _)

theorem cutFlash (d : Dev) (q : Nat) : FlashCut d (d.cutFlash q) := by
  unfold Dev.cutFlash
  split
  · exact refl
  · rename_i o ho
    have hdone : FlashCut d { d with fls := nset none d.fls q none } := ⟨_, _, _, rfl⟩
    extract_lets d1
    split
    · exact hdone.trans (freeMem _ _ _)
    · split
      · exact hdone.trans (freeMem _ _ _)
      · exact hdone

/-- Both boot flashes are cut off. -/
theorem both (d : Dev) : FlashCut d ((d.cutFlash 0).cutFlash 3) := (cutFlash d 0).trans (cutFlash _ 3)

end FlashCut

/-! ### Writes of registers alone -/

/-- `e` is `d` but for registers, and those that `p` holds of alone. -/
def RegsWithin (p : RKey → Prop) (d e : Dev) : Prop := (∃ rg, e = { d with regs := rg }) ∧ ∀ x, ¬ p x → e.reg x = d.reg x

namespace RegsWithin

variable {p : RKey → Prop} {d e g : Dev}

theorem refl : RegsWithin p d d := ⟨⟨_, rfl⟩, fun _ _ => rfl⟩

theorem trans (h : RegsWithin p d e) (h' : RegsWithin p e g) : RegsWithin p d g := by
  obtain ⟨⟨_, rfl⟩, hreg⟩ := h
  obtain ⟨⟨_, rfl⟩, hreg'⟩ := h'
  exact ⟨⟨_, rfl⟩, fun x hx => (hreg' x hx).trans (hreg x hx)⟩

theorem setReg (d : Dev) {x : RKey} (hx : p x) (v : Word) : RegsWithin p d (d.setReg x v) :=
  ⟨⟨_, rfl⟩, fun _ hy => Laws.reg_setReg_other d v fun h => hy (h ▸ hx)⟩

theorem foldl {α : Type} {f : Dev → α → Dev} (h : ∀ x a, RegsWithin p x (f x a)) (l : List α) :
    ∀ d, RegsWithin p d (l.foldl f d) := by
  induction l with
  | nil => exact fun _ => refl
  | cons a l ih => exact fun d => (h d a).trans (ih _)

end RegsWithin

/-! ### PORST_N (R523) -/

section
variable (d : Dev)

/-- What PORST_N leaves but for PIN: the boot flash, the pins, the values drawn and what leaves the chip. -/
def porstKept (d : Dev) : Dev :=
  let d1 := (d.cutFlash 0).cutFlash 3
  { Dev.reset with mem := d1.mem.filter (fun e => keptMem false e.1), perst := d1.perst, pfLow := d1.pfLow, free := d1.free, out := d1.out }

theorem xPorstNAssert_eq : xPorstNAssert d =
    if (porstKept d).pfLow then (porstKept d).setFld F.MSQ_PFSTAT_PIN 1 0 else porstKept d := rfl

theorem porst_writes : RegsWithin (fun x => x = R.MSQ_PFSTAT.at 0) (porstKept d) (xPorstNAssert d) := by
  rw [xPorstNAssert_eq]
  split
  · exact RegsWithin.setReg (p := fun x => x = R.MSQ_PFSTAT.at 0) (porstKept d) rfl _
  · exact RegsWithin.refl

theorem porst_pins : (porstKept d).perst = d.perst ∧ (porstKept d).pfLow = d.pfLow := by
  obtain ⟨fl, mem, free, h⟩ := FlashCut.both d
  simp only [porstKept, h, and_self]

theorem porst_reg (x : RKey) : (porstKept d).reg x = regReset x := rfl

theorem porst_byte {a : Nat} (ha : isFlash a = false) : (porstKept d).byte a = memDflt a :=
  (aget_filter (memDflt a) _ (keptMem false) a).trans (if_neg (by simp [keptMem, ha]))

/-- PIN of the live quarter shows the pin. -/
theorem porst_pin : (xPorstNAssert d).reg (R.MSQ_PFSTAT.at 0) =
    if d.pfLow then putBits (regReset (R.MSQ_PFSTAT.at 0)) 30 30 1 else regReset (R.MSQ_PFSTAT.at 0) := by
  rw [← (porst_pins d).2, xPorstNAssert_eq, apply_ite (fun y : Dev => y.reg (R.MSQ_PFSTAT.at 0)), Laws.setFld_eq,
    Laws.reg_setReg_self]
  rfl

end

/-! ### SYSRST_N (R523, R532) -/

section
variable (d : Dev)

/-- What SYSRST_N leaves but for the registers that it writes. -/
def sysrstKept (d : Dev) : Dev :=
  let d1 := (d.cutFlash 0).cutFlash 3
  let d2 := { Dev.reset with
    regs := d1.regs.filter (fun e => sysKeeps e.1.r), mem := d1.mem.filter (fun e => keptMem true e.1),
    ecc := d1.ecc.filter (fun e => keptMem true e.1), perst := d1.perst, pfLow := d1.pfLow, free := d1.free, out := d1.out }
  let d3 := { d2 with porst := d1.porst, sysrst := true, therm := d1.therm, hb := d1.hb, aoFree := d1.aoFree, ballHold := d1.ballHold,
                      avsOut := d1.avsOut, avsFails := d1.avsFails, rcCal := d1.rcCal, dump := d1.dump, armSeq := d1.armSeq }
  { d3 with capture := d1.capture, auth := d1.auth, dwBus := d1.dwBus, dwFault := d1.dwFault }

/-- The registers that SYSRST_N writes. -/
def SysrstWrites (x : RKey) : Prop :=
  x.r = .MSQ_PFSTAT ∨ x.r = .RST_CAUSE ∨ x.r = .DBG_STAT ∨ x.r = .BNK_STAT ∨ x.r = .AO_STATUS ∨ x.r = .GOV_STAT

/-- The cause of the reset in a quarter, and its debug status cleared. -/
def causeShown (d : Dev) (i : Nat) : Dev := (d.setRegN (R.RST_CAUSE.at i) 1).setRegN (R.DBG_STAT.at i) 0

def causesShown (d : Dev) : Dev := (upTo 4).foldl causeShown d

/-- The poison of every bank, the boot's status and the governor's counts, as the chip now stands. -/
def statusShown (d : Dev) : Dev :=
  let d7 := (upTo 64).foldl (fun x n => x.bnkPoison n) d
  (((d7.setFld F.AO_STATUS_CONF 0 0).setFld F.AO_STATUS_CODE 0 0).govShow).setFld F.GOV_STAT_N 0 0

/-- The chip with what the PF latch keeps of MSQ_PFSTAT. -/
def latchShown (d : Dev) : Dev :=
  let pf := d.reg (R.MSQ_PFSTAT.at d.liveQ)
  (sysrstKept d).setReg (R.MSQ_PFSTAT.at d.liveQ) (pf &&& (if ((d.cutFlash 0).cutFlash 3).dump.isSome then 0xF4000FFF else 0xC0000000))

theorem xSysrstNAssert_eq : xSysrstNAssert d = statusShown (causesShown (latchShown d)) := rfl

theorem regsWithin_govShow {p : RKey → Prop} (hp : p (R.GOV_STAT.at 0)) : RegsWithin p d d.govShow :=
  ((((RegsWithin.setReg d hp _).trans (RegsWithin.setReg _ hp _)).trans (RegsWithin.setReg _ hp _)).trans
    (RegsWithin.setReg _ hp _)).trans (RegsWithin.setReg _ hp _)

/-- The last writes leave every register but those of three kinds. -/
theorem regsWithin_statusShown :
    RegsWithin (fun x => x.r = .BNK_STAT ∨ x.r = .AO_STATUS ∨ x.r = .GOV_STAT) d (statusShown d) := by
  have hbank : ∀ (x : Dev) (n : Nat), RegsWithin (fun x => x.r = .BNK_STAT ∨ x.r = .AO_STATUS ∨ x.r = .GOV_STAT) x (x.bnkPoison n) :=
    fun x n => RegsWithin.setReg x (.inl rfl) _
  exact ((((RegsWithin.foldl hbank _ d).trans (RegsWithin.setReg _ (.inr (.inl rfl)) _)).trans
    (RegsWithin.setReg _ (.inr (.inl rfl)) _)).trans (regsWithin_govShow _ (.inr (.inr rfl)))).trans
    (RegsWithin.setReg _ (.inr (.inr rfl)) _)

theorem regsWithin_causesShown : RegsWithin (fun x => x.r = .RST_CAUSE ∨ x.r = .DBG_STAT) d (causesShown d) :=
  RegsWithin.foldl (fun x _ => (RegsWithin.setReg x (.inl rfl) _).trans (RegsWithin.setReg _ (.inr rfl) _)) _ d

theorem RegsWithin.mono {p p' : RKey → Prop} {d e : Dev} (hp : ∀ x, p x → p' x) (h : RegsWithin p d e) : RegsWithin p' d e :=
  ⟨h.1, fun x hx => h.2 x (mt (hp x) hx)⟩

theorem sysrst_writes : RegsWithin SysrstWrites (sysrstKept d) (xSysrstNAssert d) := by
  rw [xSysrstNAssert_eq]
  have hlatch : RegsWithin SysrstWrites (sysrstKept d) (latchShown d) := RegsWithin.setReg _ (.inl rfl) _
  have hcause := (regsWithin_causesShown (latchShown d)).mono (p' := SysrstWrites)
    fun x hx => .inr (hx.imp id .inl)
  have hstatus := (regsWithin_statusShown (causesShown (latchShown d))).mono (p' := SysrstWrites)
    fun x hx => .inr (.inr (.inr hx))
  exact (hlatch.trans hcause).trans hstatus

theorem reg_causeShown_self (i : Nat) : (causeShown d i).reg (R.RST_CAUSE.at i) = 1 := by
  have hne : R.RST_CAUSE.at i ≠ R.DBG_STAT.at i := fun h => R.noConfusion (congrArg RKey.r h)
  rw [causeShown, Laws.setRegN_eq, Laws.reg_setReg_other _ _ hne, Laws.setRegN_eq, Laws.reg_setReg_self]
  rfl

theorem reg_causeShown_other {q i : Nat} (hi : q ≠ i) : (causeShown d i).reg (R.RST_CAUSE.at q) = d.reg (R.RST_CAUSE.at q) := by
  have hne : R.RST_CAUSE.at q ≠ R.DBG_STAT.at i := fun h => R.noConfusion (congrArg RKey.r h)
  have hother : R.RST_CAUSE.at q ≠ R.RST_CAUSE.at i := fun h => hi (congrArg RKey.q h)
  rw [causeShown, Laws.setRegN_eq, Laws.reg_setReg_other _ _ hne, Laws.setRegN_eq, Laws.reg_setReg_other _ _ hother]

/-- A quarter among those that are shown shows SYSRST_N. -/
theorem reg_causes_foldl {q : Nat} (l : List Nat) : ∀ d : Dev, q ∈ l ∨ d.reg (R.RST_CAUSE.at q) = 1 →
    (l.foldl causeShown d).reg (R.RST_CAUSE.at q) = 1 := by
  induction l with
  | nil => exact fun d h => h.resolve_left List.not_mem_nil
  | cons i l ih =>
    refine fun d h => ih (causeShown d i) ?_
    by_cases hi : q = i
    · subst hi
      exact .inr (reg_causeShown_self d q)
    · exact h.imp (fun hm => (List.mem_cons.1 hm).resolve_left hi) (reg_causeShown_other d hi).trans

theorem sysrst_cause {q : Nat} (hq : q < 4) : (xSysrstNAssert d).regN (R.RST_CAUSE.at q) = 1 := by
  rw [xSysrstNAssert_eq, Dev.regN, (regsWithin_statusShown _).2 _ (by simp [R.at]), causesShown,
    reg_causes_foldl (upTo 4) _ (.inl (List.mem_range.2 hq))]
  rfl

/-- SYSRST_N writes no register of the debug blocks but DBG_STAT. -/
theorem not_sysrstWrites {x : RKey} (hb : x.r.desc.blk = .DBG ∨ x.r.desc.blk = .DW) (hs : x.r ≠ .DBG_STAT) : ¬ SysrstWrites x := by
  have hno {r : R} (h : ¬ (r.desc.blk = .DBG ∨ r.desc.blk = .DW)) : x.r ≠ r := fun he => h (he ▸ hb)
  rw [SysrstWrites, not_or, not_or, not_or, not_or, not_or]
  exact ⟨hno (by decide), hno (by decide), hs, hno (by decide), hno (by decide), hno (by decide)⟩

theorem sysKeeps_debug {r : R} (hb : r.desc.blk = .DBG ∨ r.desc.blk = .DW) : sysKeeps r = true := by
  rw [sysKeeps, Bool.or_eq_true, Bool.or_eq_true, Bool.or_eq_true, decide_eq_true_eq, decide_eq_true_eq, decide_eq_true_eq]
  exact .inl (hb.imp .inr id)

theorem sysrst_kept_reg {x : RKey} (hk : sysKeeps x.r = true) : (sysrstKept d).reg x = d.reg x := by
  obtain ⟨fl, mem, free, hcut⟩ := FlashCut.both d
  have hfilter : (sysrstKept d).reg x = ((d.cutFlash 0).cutFlash 3).reg x :=
    (aget_filter (regReset x) ((d.cutFlash 0).cutFlash 3).regs (fun y => sysKeeps y.r) x).trans (if_pos hk)
  rw [hfilter, hcut]
  rfl

/-- The registers of the debug blocks stay. -/
theorem sysrst_debug {x : RKey} (hb : x.r.desc.blk = .DBG ∨ x.r.desc.blk = .DW) (hs : x.r ≠ .DBG_STAT) :
    (xSysrstNAssert d).reg x = d.reg x :=
  ((sysrst_writes d).2 x (not_sysrstWrites hb hs)).trans (sysrst_kept_reg d (sysKeeps_debug hb))

end

/-- Settles O43: RST_QCTL by its key and GO, the release and the realignment by the phase; PORST_N and SYSRST_N by what each keeps, to
which they add writes of registers alone. -/
theorem resets : Obligations.Resets := by
  refine ⟨?_, ?_, ?_, ?_⟩
  case refine_1 =>
    exact fun m q v s hm => ⟨fun hk h => next_congr (xRstQctl_resets hm hk h), fun hk h => next_congr (xRstQctl_nothing hm hk h),
      fun hk => next_congr (xRstQctl_refused hm hk)⟩
  case refine_2 =>
    exact fun q s => ⟨fun h => next_congr (if_pos h), fun h => next_congr (if_neg h), fun h => next_congr (if_pos h),
      fun h => next_congr (if_neg h)⟩
  case refine_3 =>
    intro s
    obtain ⟨⟨rg, hP⟩, hreg⟩ := porst_writes s.d
    obtain ⟨hperst, hpf⟩ := porst_pins s.d
    refine ⟨rfl, ?_, ?_, ?_, ?_, ?_, ?_, ?_, ?_, ?_, ?_, ?_, ?_, ?_, ?_, fun x hx => hreg x hx, fun h => ?_, fun h => ?_, fun a ha => ?_⟩
    case refine_11 =>
      have hsafe := (hreg (R.SAFE_STAT.at 0) fun h => R.noConfusion (congrArg RKey.r h)).trans (porst_reg s.d _)
      exact (congrArg (BitVec.getLsbD · 31) hsafe).trans (by decide)
    case refine_13 => rw [hP]; exact hperst
    case refine_14 => rw [hP]; exact hpf
    case refine_15 => exact (porst_pin s.d).trans (if_neg (ne_true_of_eq_false h))
    case refine_16 => exact (porst_pin s.d).trans (if_pos h)
    case refine_17 => rw [hP]; exact porst_byte s.d ha
    all_goals rw [hP]; rfl
  case refine_4 =>
    intro s
    obtain ⟨⟨rg, hS⟩, -⟩ := sysrst_writes s.d
    obtain ⟨fl, mem, free, hcut⟩ := FlashCut.both s.d
    refine ⟨fun h => if_pos h, fun h => if_neg (ne_true_of_eq_false h), ?_, ?_, ?_, ?_, ?_, ?_, ?_, ?_, ?_, ?_, ?_, ?_, ?_, ?_, ?_,
      fun x hb hs => sysrst_debug s.d hb hs, fun q hq => sysrst_cause s.d hq⟩
    all_goals rw [hS]
    all_goals simp only [sysrstKept, hcut]
    all_goals rfl

end Sys2Proof.Proofs

namespace Sys2Proof.Proofs

open Sys2Proof.Machine Sys2Proof.Safety

/-! The boot flash's commands, the pair of always-on domains and row repair (18 R500, R513; 20 R548). -/

/-! ### Commands to the flash (R500) -/

/-- The three rows of FLS_CMD give the block their command. -/
theorem exec_flsCmd {m : Mst} {q cmd : Nat} {row : Instr} (h : (row = Instr.program m q ∧ cmd = 1) ∨
    (row = .erase m q ∧ cmd = 2) ∨ (row = .blankchk m q ∧ cmd = 3)) (s : State) :
    exec row s = .next { s with d := s.d.flsCmd m q cmd } := by
  rcases h with ⟨rfl, rfl⟩ | ⟨rfl, rfl⟩ | ⟨rfl, rfl⟩ <;> rfl

section
variable {m : Mst} {q cmd : Nat} {d : Dev} (hm : m.oid = 0)
include hm

theorem flsCmd_notFree (h : ¬ ((q = 0 ∨ q = 3) ∧ d.flag F.FLS_STAT_BUSY q = false)) :
    d.flsCmd m q cmd = d.refuse m (R.FLS_CMD.at q) := by
  refine (if_neg (not_denied hm)).trans (if_pos ?_)
  rcases not_and_or.1 h with hq | hb
  · exact Or.inl (not_or.1 hq)
  · exact Or.inr (eq_true_of_ne_false hb)

variable (h : (q = 0 ∨ q = 3) ∧ d.flag F.FLS_STAT_BUSY q = false)
include h

theorem flsCmd_free : d.flsCmd m q cmd =
    if d.flag F.FLS_CTRL_WEN q = false then (d.setFld F.FLS_STAT_RESULT 4 q).okay
    else if cmd ≠ 3 ∧ d.inArmedHalf q (d.fld F.FLS_ADDR_WORD q) cmd = true then (d.setFld F.FLS_STAT_RESULT 3 q).okay
    else ({ d with fls := nset none d.fls q (some ⟨cmd, d.fld F.FLS_ADDR_WORD q, d.flsData q⟩) }.setFld F.FLS_STAT_BUSY 1 q).okay := by
  refine (if_neg (not_denied hm)).trans (if_neg ?_)
  obtain ⟨hq, hb⟩ := h
  rintro (⟨h0, h3⟩ | hbusy)
  · exact hq.elim h0 h3
  · exact ne_true_of_eq_false hb hbusy

end

/-! ### The end of a command -/

section
variable {q : Nat} {d : Dev} {o : FlsOp} (ho : nget none d.fls q = some o)

/-- The chip with the command of a flash ended, its result not yet shown. -/
def flsEnded (d : Dev) (q : Nat) : Dev := { d with fls := nset none d.fls q none }.setFld F.FLS_STAT_BUSY 0 q

include ho

theorem xFlsCommandDone_programs (hc : o.cmd = 1) (he : (flsEnded d q).erased (flashBase q + o.word * 32) 32 = true) :
    xFlsCommandDone q d =
      ((flsEnded d q).setMemN (flashBase q + o.word * 32) 32 o.data).setFld F.FLS_STAT_RESULT 1 q := by
  simp only [xFlsCommandDone, ho, hc, if_true]
  exact if_pos he

theorem xFlsCommandDone_notErased (hc : o.cmd = 1) (he : (flsEnded d q).erased (flashBase q + o.word * 32) 32 = false) :
    xFlsCommandDone q d = (flsEnded d q).setFld F.FLS_STAT_RESULT 2 q := by
  simp only [xFlsCommandDone, ho, hc, if_true]
  exact if_neg (ne_true_of_eq_false he)

theorem xFlsCommandDone_erases (hc : o.cmd = 2) : xFlsCommandDone q d =
    ((flsEnded d q).zeroMem (flashBase q + o.word / 1024 * 0x8000) 0x8000).setFld F.FLS_STAT_RESULT 1 q := by
  simp only [xFlsCommandDone, ho, hc]
  rfl

theorem xFlsCommandDone_checks (hc : o.cmd = 3) : xFlsCommandDone q d =
    ((flsEnded d q).setFld F.FLS_STAT_BLANK (b2n ((flsEnded d q).erased (flashBase q + o.word / 1024 * 0x8000) 0x8000)) q).setFld
      F.FLS_STAT_RESULT 1 q := by
  simp only [xFlsCommandDone, ho, hc]
  rfl

theorem xFlsCommandDone_blank (hc : o.cmd = 3) (he : (flsEnded d q).erased (flashBase q + o.word / 1024 * 0x8000) 0x8000 = true) :
    xFlsCommandDone q d = ((flsEnded d q).setFld F.FLS_STAT_BLANK 1 q).setFld F.FLS_STAT_RESULT 1 q := by
  rw [xFlsCommandDone_checks ho hc, he, b2n_ite, if_pos rfl]

theorem xFlsCommandDone_notBlank (hc : o.cmd = 3) (he : (flsEnded d q).erased (flashBase q + o.word / 1024 * 0x8000) 0x8000 = false) :
    xFlsCommandDone q d = ((flsEnded d q).setFld F.FLS_STAT_BLANK 0 q).setFld F.FLS_STAT_RESULT 1 q := by
  rw [xFlsCommandDone_checks ho hc, he, b2n_ite, if_neg Bool.false_ne_true]

end

/-! ### Failover and takeover (R513, BOOT-11) -/

section
variable {m : Mst} {v : Nat} {d : Dev} (hm : m.oid = 0)

theorem aoRelease_of_held (h : d.aoFree = false) : d.aoRelease = { d with aoFree := true, ballHold := d.ballLevels } :=
  if_neg (ne_true_of_eq_false h)

include hm

theorem xAoFailover_noKey (hk : ¬ bitsOf v 31 16 = 0xA0F5) : xAoFailover m v d = d.refuse m (R.AO_FAILOVER.at 0) :=
  (if_neg (not_denied hm)).trans (if_pos hk)

variable (hk : bitsOf v 31 16 = 0xA0F5)
include hk

theorem xAoFailover_noGo (hv : v % 2 = 0) : xAoFailover m v d = d.okay :=
  (if_neg (not_denied hm)).trans ((if_neg (not_not.2 hk)).trans (if_pos hv))

variable (hv : v % 2 = 1)
include hv

theorem xAoFailover_mayNot
    (h : ¬ (d.flag F.AO_STATUS_STBY_OK 0 = true ∧ d.failedOver = false ∧ d.aoFree = false)) :
    xAoFailover m v d = d.refuse m (R.AO_FAILOVER.at 0) := by
  refine (if_neg (not_denied hm)).trans ((if_neg (not_not.2 hk)).trans ((if_neg (by omega)).trans (if_pos ?_)))
  simpa only [not_and_or, Bool.not_eq_true, Bool.not_eq_false] using h

theorem xAoFailover_releases (h : d.flag F.AO_STATUS_STBY_OK 0 = true ∧ d.failedOver = false ∧ d.aoFree = false) :
    xAoFailover m v d = { d with aoFree := true, ballHold := d.ballLevels }.okay := by
  refine (if_neg (not_denied hm)).trans ((if_neg (not_not.2 hk)).trans ((if_neg (by omega)).trans ((if_neg ?_).trans ?_)))
  · simpa only [not_or, Bool.not_eq_true, Bool.not_eq_false] using h
  · exact congrArg Dev.okay (aoRelease_of_held h.2.2)

end

section
variable {d : Dev}

theorem xHeartbeatTimeout_off (h : d.sysHalt = true ∨ d.failedOver = true ∨ d.aoFree = true) : xHeartbeatTimeout d = d := by
  by_cases hoff : d.sysHalt = true ∨ d.failedOver = true
  · exact if_pos hoff
  · have hfree : d.aoFree = true := (or_assoc.2 h).resolve_left hoff
    exact (if_neg hoff).trans (if_pos hfree)

theorem xHeartbeatTimeout_releases (h : ¬ (d.sysHalt = true ∨ d.failedOver = true ∨ d.aoFree = true)) :
    xHeartbeatTimeout d = { d with aoFree := true, ballHold := d.ballLevels } := by
  obtain ⟨hhalt, hover, hfree⟩ := by simpa only [not_or] using h
  exact (if_neg (not_or.2 ⟨hhalt, hover⟩)).trans (aoRelease_of_held (Bool.eq_false_iff.2 hfree))

end

/-! ### Heartbeats -/

section
variable {d : Dev} {toLive toStandby healthy : Bool}

/-- The counts of heartbeats after one exchange: the standby's, then the live domain's, which the register shows. -/
def hbCounted (toLive toStandby : Bool) (d : Dev) : Dev :=
  let sb := nget 0 d.hb 0
  let lv := nget 0 d.hb 1
  let d1 := if toStandby then { d with hb := nset 0 d.hb 0 ((sb + 1) % 65536) } else d
  if toLive then { d1 with hb := nset 0 d1.hb 1 ((lv + 1) % 65536) }.setRegN (R.AO_HBSTAT.at 0) ((lv + 1) % 65536 * 65536 + sb) else d1

theorem xHeartbeat_over (h : d.failedOver = true) : xHeartbeat toLive toStandby healthy d = d := if_pos h

variable (h : d.failedOver = false)
include h

theorem xHeartbeat_healthy :
    xHeartbeat toLive toStandby true d = (hbCounted toLive toStandby d).setFld F.AO_STATUS_STBY_OK 1 0 :=
  (if_neg (ne_true_of_eq_false h)).trans (if_neg (fun hw => Bool.false_ne_true hw.2.symm))

theorem xHeartbeat_stillUnhealthy (hw : (hbCounted toLive toStandby d).flag F.AO_STATUS_STBY_OK 0 = false) :
    xHeartbeat toLive toStandby false d = (hbCounted toLive toStandby d).setFld F.AO_STATUS_STBY_OK 0 0 :=
  (if_neg (ne_true_of_eq_false h)).trans (if_neg (fun hn => ne_true_of_eq_false hw hn.1))

theorem xHeartbeat_lost (hw : (hbCounted toLive toStandby d).flag F.AO_STATUS_STBY_OK 0 = true) :
    xHeartbeat toLive toStandby false d = ((hbCounted toLive toStandby d).setFld F.AO_STATUS_STBY_OK 0 0).raiseFailover :=
  (if_neg (ne_true_of_eq_false h)).trans (if_pos ⟨hw, rfl⟩)

end

/-! ### Row repair (20 R548) -/

section
variable {m : Mst} {q v : Nat} {d : Dev} (hm : m.oid = 0)
include hm

theorem xFltPprCmd_noGo (hg : ¬ v.testBit 63 = true) : xFltPprCmd m q v d = d.okay :=
  (if_neg (not_denied hm)).trans (if_pos (Bool.eq_false_iff.2 hg))

variable (hg : v.testBit 63 = true)
include hg

theorem xFltPprCmd_busy (hb : d.flag F.FLT_PPR_STAT_BUSY q = true) :
    xFltPprCmd m q v d = (d.setFld F.FLT_PPR_STAT_RESULT 3 q).okay :=
  (if_neg (not_denied hm)).trans ((if_neg (ne_false_of_eq_true hg)).trans (if_pos hb))

variable (hb : ¬ d.flag F.FLT_PPR_STAT_BUSY q = true)
include hb

theorem xFltPprCmd_elsewhere (hq : ¬ (isHbm (bitsOf v 47 6 * 64) = true ∧ homeOf (bitsOf v 47 6 * 64) = q)) :
    xFltPprCmd m q v d = (d.setFld F.FLT_PPR_STAT_RESULT 4 q).okay := by
  refine (if_neg (not_denied hm)).trans ((if_neg (ne_false_of_eq_true hg)).trans ((if_neg hb).trans (if_pos ?_)))
  exact (not_and_or.1 hq).imp bnot_of_not id

theorem xFltPprCmd_starts (hq : isHbm (bitsOf v 47 6 * 64) = true ∧ homeOf (bitsOf v 47 6 * 64) = q) :
    xFltPprCmd m q v d = ({ d with ppr := nset none d.ppr q (some v) }.setRegN (R.FLT_PPR_STAT.at q) (2 ^ 31)).okay := by
  refine (if_neg (not_denied hm)).trans ((if_neg (ne_false_of_eq_true hg)).trans ((if_neg hb).trans (if_neg ?_)))
  obtain ⟨hhbm, hhome⟩ := hq
  exact not_or.2 ⟨not_bnot_of hhbm, not_not.2 hhome⟩

end

section
variable {q res : Nat} {d : Dev}

theorem xPprComplete_ends (h : nget none d.ppr q ≠ none ∧ (res = 1 ∨ res = 2 ∨ res = 5)) :
    xPprComplete q res d = { d with ppr := nset none d.ppr q none }.setRegN (R.FLT_PPR_STAT.at q) res :=
  if_pos (h.imp_left Option.isSome_iff_ne_none.2)

theorem xPprComplete_still (h : ¬ (nget none d.ppr q ≠ none ∧ (res = 1 ∨ res = 2 ∨ res = 5))) : xPprComplete q res d = d :=
  if_neg (fun hs => h (hs.imp_left Option.isSome_iff_ne_none.1))

end

/-! ### The takeover -/

/-- What the takeover puts into MSQ_PFSTAT of Q3: the armed half and SEQ only where no dump is under way. -/
theorem armed_of_dump (o : Option Dump) (n : Nat) : (if o.isSome = true then 0 else n) = if o = none then n else 0 := by
  cases o with
  | none => rfl
  | some x => rfl

section
variable {d : Dev}

/-- The chip after the takeover: Q3 is live, and its PF and dump registers act. -/
def takenOver (d : Dev) : Dev :=
  let pf := d.regN (R.MSQ_PFSTAT.at 0)
  let armed := if d.dump = none then bitsOf pf 29 28 * 2 ^ 28 + pf % 4096 else 0
  let d1 := ((d.setFld F.AO_STATUS_FAILED_OVER 1 0).setFld F.AO_STATUS_LIVE 3 0).setFld F.AO_STATUS_STBY_OK 0 0
  let d2 := { d1 with dump := none }.setRegN (R.MSQ_PFSTAT.at 3) (bitsOf pf 31 30 * 2 ^ 30 + armed)
  let d3 := d2.setReg (R.MSQ_OPCAP.at 3) (d2.reg (R.MSQ_OPCAP.at 0))
  (d3.setReg (R.MSQ_OPDARM.at 3) (d2.reg (R.MSQ_OPDARM.at 0))).countTokens

theorem xTakeover_takes (h : d.aoFree = true ∧ d.failedOver = false ∧ d.flag F.AO_STATUS_STBY_OK 0 = true) :
    xTakeover d = (takenOver d).raiseFailover := by
  refine (if_neg ?_).trans ?_
  · simpa only [not_or, Bool.not_eq_true, Bool.not_eq_false] using h
  · simp only [takenOver, armed_of_dump]

theorem xTakeover_still (h : ¬ (d.aoFree = true ∧ d.failedOver = false ∧ d.flag F.AO_STATUS_STBY_OK 0 = true)) : xTakeover d = d := by
  refine if_pos ?_
  simpa only [not_and_or, Bool.not_eq_true, Bool.not_eq_false] using h

end

/-- Settles O46: a flash command by its block, WEN and the armed half, its end by the erased word or sector; the always-on pair by
who still drives the outputs; a row repair by BUSY and its quarter. -/
theorem flashAndStandby : Obligations.FlashAndStandby := by
  refine ⟨?_, ?_, ?_, ?_, ?_, ?_, ?_, ?_⟩
  case refine_1 =>
    intro m q cmd row s hm hrow
    have hcmd := exec_flsCmd hrow s
    refine ⟨fun hf => ?_, fun hf hw => ?_, fun hf hw hd => ?_, fun hf hw hd => ?_⟩
    · exact hcmd.trans (next_congr (flsCmd_notFree hm hf))
    · exact hcmd.trans (next_congr ((flsCmd_free hm hf).trans (if_pos (Bool.eq_false_iff.2 hw))))
    · exact hcmd.trans (next_congr ((flsCmd_free hm hf).trans ((if_neg (ne_false_of_eq_true hw)).trans (if_pos hd))))
    · exact hcmd.trans (next_congr ((flsCmd_free hm hf).trans ((if_neg (ne_false_of_eq_true hw)).trans (if_neg hd))))
  case refine_2 =>
    refine fun q s => ⟨fun ho => next_congr ?_, fun c ho => ⟨fun hc he => ?_, fun hc he => ?_, fun hc => ?_, fun hc he => ?_, fun hc he => ?_⟩⟩
    · simp only [xFlsCommandDone, ho]
    · exact next_congr (xFlsCommandDone_programs ho hc he)
    · exact next_congr (xFlsCommandDone_notErased ho hc he)
    · exact next_congr (xFlsCommandDone_erases ho hc)
    · exact next_congr (xFlsCommandDone_blank ho hc he)
    · exact next_congr (xFlsCommandDone_notBlank ho hc he)
  case refine_3 =>
    refine fun m v s hm => ⟨fun hk => ?_, fun hk hv => ?_, fun hk hv h => ?_, fun hk hv h => ?_⟩
    · exact next_congr (xAoFailover_noKey hm hk)
    · exact next_congr (xAoFailover_noGo hm hk hv)
    · exact next_congr (xAoFailover_mayNot hm hk hv h)
    · exact next_congr (xAoFailover_releases hm hk hv h)
  case refine_4 =>
    exact fun s => ⟨fun h => next_congr (xHeartbeatTimeout_off h), fun h => next_congr (xHeartbeatTimeout_releases h)⟩
  case refine_5 =>
    intro toLive toStandby healthy s sb lv row d1 d2 hs hns hl hnl
    have hd2 : d2 = hbCounted toLive toStandby s.d := by
      have hd1 : d1 = if toStandby then { s.d with hb := nset 0 s.d.hb 0 ((sb + 1) % 65536) } else s.d := by
        cases toStandby
        · exact hns rfl
        · exact hs rfl
      subst hd1
      cases toLive
      · exact hnl rfl
      · exact hl rfl
    subst hd2
    refine ⟨fun ho => ?_, fun ho hh => ?_, fun ho hh hw => ?_, fun ho hh hw => ?_⟩
    · exact next_congr (xHeartbeat_over ho)
    · subst hh
      exact next_congr (xHeartbeat_healthy ho)
    · subst hh
      exact next_congr (xHeartbeat_stillUnhealthy ho hw)
    · subst hh
      exact next_congr (xHeartbeat_lost ho hw)
  case refine_6 => exact fun s => ⟨fun h => next_congr (xTakeover_takes h), fun h => next_congr (xTakeover_still h)⟩
  case refine_7 =>
    refine fun m q v s hm => ⟨fun hg => ?_, fun hg hb => ?_, fun hg hb hq => ?_, fun hg hb hq => ?_⟩
    · exact next_congr (xFltPprCmd_noGo hm hg)
    · exact next_congr (xFltPprCmd_busy hm hg hb)
    · exact next_congr (xFltPprCmd_elsewhere hm hg hb hq)
    · exact next_congr (xFltPprCmd_starts hm hg hb hq)
  case refine_8 =>
    exact fun q res s => ⟨fun h => next_congr (xPprComplete_ends h), fun h => next_congr (xPprComplete_still h)⟩

end Sys2Proof.Proofs

namespace Sys2Proof.Proofs

open Sys2Proof.Machine Sys2Proof.Safety

/-! The serial interfaces and their pads (24 R617, R618; 01 R24, 18 R510, 22 R588). -/

/-! ### UARTs -/

section
variable {m : Mst} {u v : Nat} {d : Dev} (hm : m.oid = 0)
include hm

theorem xUartTx_queues (h : (d.uartOf u).tx.length < 64) : xUartTx m u v d =
    (d.setUart u { d.uartOf u with tx := (d.uartOf u).tx ++ [BitVec.ofNat 8 v] }).okay :=
  (if_neg (not_denied hm)).trans (if_neg (Nat.not_le.2 h))

theorem xUartTx_full (h : 64 ≤ (d.uartOf u).tx.length) : xUartTx m u v d = (d.setBit (R.UART_STAT.at 0 u) 31 true).okay :=
  (if_neg (not_denied hm)).trans (if_pos h)

theorem xUartRx_held (h : d.pinHeld u = true) : xUartRx m u d = (d.bump (R.SER_ERR.at 0)).answer .okay 0 :=
  (if_neg (not_denied hm)).trans (if_pos h)

variable (h : d.pinHeld u = false)
include h

theorem xUartRx_empty (hx : (d.uartOf u).rx = []) : xUartRx m u d = d.answer .okay 0 := by
  refine (if_neg (not_denied hm)).trans ((if_neg (ne_true_of_eq_false h)).trans ?_)
  simp only [hx]

theorem xUartRx_pops {b : Byte} {r : List Byte} (hx : (d.uartOf u).rx = b :: r) : xUartRx m u d =
    (d.setUart u { d.uartOf u with rx := r }).answer .okay (BitVec.ofNat 64 (256 + b.toNat)) := by
  refine (if_neg (not_denied hm)).trans ((if_neg (ne_true_of_eq_false h)).trans ?_)
  simp only [hx]

end

section
variable {u byte : Nat} {par frm : Bool} {d : Dev}

/-- The chip after the errors of a received byte are shown. -/
def uartShown (u : Nat) (par frm : Bool) (d : Dev) : Dev :=
  let d1 := if par = true ∧ (d.reg (R.UART_CFG.at 0 u)).getLsbD 30 = true then d.setBit (R.UART_STAT.at 0 u) 29 true else d
  if frm then d1.setBit (R.UART_STAT.at 0 u) 28 true else d1

theorem uartShown_eq {d1 d2 : Dev}
    (hbad : (par = true ∧ (d.reg (R.UART_CFG.at 0 u)).getLsbD 30 = true) → d1 = d.setBit (R.UART_STAT.at 0 u) 29 true)
    (hgood : ¬ (par = true ∧ (d.reg (R.UART_CFG.at 0 u)).getLsbD 30 = true) → d1 = d)
    (hfrm : frm = true → d2 = d1.setBit (R.UART_STAT.at 0 u) 28 true) (hnot : frm = false → d2 = d1) :
    d2 = uartShown u par frm d := by
  have hd1 : d1 = if par = true ∧ (d.reg (R.UART_CFG.at 0 u)).getLsbD 30 = true then d.setBit (R.UART_STAT.at 0 u) 29 true else d := by
    split
    case isTrue h => exact hbad h
    case isFalse h => exact hgood h
  subst hd1
  cases frm
  · exact hnot rfl
  · exact hfrm rfl

theorem xUartByteReceived_off (h : d.uartOn u = false) : xUartByteReceived u byte par frm d = d := if_pos h

theorem xUartByteSent_off (h : d.uartOn u = false) : xUartByteSent u d = d := if_pos h

variable (h : d.uartOn u = true)
include h

theorem xUartByteReceived_full (hx : 64 ≤ (d.uartOf u).rx.length) :
    xUartByteReceived u byte par frm d = (uartShown u par frm d).setBit (R.UART_STAT.at 0 u) 30 true :=
  (if_neg (ne_false_of_eq_true h)).trans (if_pos hx)

theorem xUartByteReceived_enters (hx : (d.uartOf u).rx.length < 64) : xUartByteReceived u byte par frm d =
    (uartShown u par frm d).setUart u { d.uartOf u with rx := (d.uartOf u).rx ++ [BitVec.ofNat 8 byte] } :=
  (if_neg (ne_false_of_eq_true h)).trans (if_neg (Nat.not_le.2 hx))

theorem xUartByteSent_empty (hx : (d.uartOf u).tx = []) : xUartByteSent u d = d := by
  refine (if_neg (ne_false_of_eq_true h)).trans ?_
  simp only [hx]

theorem xUartByteSent_leaves {b : Byte} {r : List Byte} (hx : (d.uartOf u).tx = b :: r) :
    xUartByteSent u d = (d.setUart u { d.uartOf u with tx := r }).serSend (.uart u b.toNat) := by
  refine (if_neg (ne_false_of_eq_true h)).trans ?_
  simp only [hx]

end

/-! ### SPI -/

section
variable {m : Mst} {sp v : Nat} {d : Dev} (hm : m.oid = 0)

/-- A transfer of `v`'s length may start on the idle, enabled SPI `sp`. -/
def SpiFits (d : Dev) (sp v : Nat) : Prop :=
  nget none d.spi sp = none ∧ v % 512 ≠ 0 ∧ v % 512 ≤ 256 ∧ (d.reg (R.SPI_CFG.at 0 sp)).getLsbD 31 = true

theorem spiFits_iff : SpiFits d sp v ↔ ¬ ((nget none d.spi sp).isSome = true ∨ v % 512 = 0 ∨ 256 < v % 512 ∨
    (d.reg (R.SPI_CFG.at 0 sp)).getLsbD 31 = false) := by
  simp only [SpiFits, not_or, Option.not_isSome_iff_eq_none, ne_eq, not_lt, Bool.not_eq_false]

include hm

theorem xSpiCmd_noGo (hg : ¬ v.testBit 31 = true) : xSpiCmd m sp v d = d.okay :=
  (if_neg (not_denied hm)).trans (if_pos (Bool.eq_false_iff.2 hg))

variable (hg : v.testBit 31 = true)
include hg

theorem xSpiCmd_refused (hf : ¬ SpiFits d sp v) : xSpiCmd m sp v d = d.refuse m (R.SPI_CMD.at 0 sp) :=
  (if_neg (not_denied hm)).trans ((if_neg (ne_false_of_eq_true hg)).trans (if_pos (not_not.1 (mt spiFits_iff.2 hf))))

theorem xSpiCmd_held (hf : SpiFits d sp v) (hh : d.pinHeld (spiQuarter sp) = true) :
    xSpiCmd m sp v d = (d.bump (R.SER_ERR.at 0)).okay :=
  (if_neg (not_denied hm)).trans ((if_neg (ne_false_of_eq_true hg)).trans ((if_neg (spiFits_iff.1 hf)).trans (if_pos hh)))

theorem xSpiCmd_starts (hf : SpiFits d sp v) (hh : ¬ d.pinHeld (spiQuarter sp) = true) :
    xSpiCmd m sp v d = (d.spiStart sp (v % 512) (v.testBit 24)).okay :=
  (if_neg (not_denied hm)).trans ((if_neg (ne_false_of_eq_true hg)).trans ((if_neg (spiFits_iff.1 hf)).trans (if_neg hh)))

end

section
variable {sp : Nat} {rx : List Byte} {d : Dev}

theorem xSpiTransferDone_ends {t : Nat × Bool} (ht : nget none d.spi sp = some t) (hl : rx.length = t.1) : xSpiTransferDone sp rx d =
    ({ d with spi := nset none d.spi sp none }.setBit (R.SPI_STAT.at 0 sp) 31 false).setSerBytes (spiData sp) rx := by
  simp only [xSpiTransferDone, ht]
  exact if_neg (not_not.2 hl)

theorem xSpiTransferDone_still (h : ∀ t, nget none d.spi sp = some t → rx.length ≠ t.1) : xSpiTransferDone sp rx d = d := by
  cases ht : nget none d.spi sp with
  | none => simp only [xSpiTransferDone, ht]
  | some t =>
    simp only [xSpiTransferDone, ht]
    exact if_pos (h t ht)

end

/-! ### I3C -/

section
variable {m : Mst} {v : Nat} {d : Dev} (hm : m.oid = 0)

/-- A transaction of `v`'s length may start on the idle, enabled I3C. -/
def I3cFits (d : Dev) (v : Nat) : Prop :=
  d.i3c = none ∧ v % 128 ≠ 0 ∧ v % 128 ≤ 64 ∧ (d.reg (R.I3C0_CFG.at 0)).getLsbD 31 = true

theorem i3cFits_iff : I3cFits d v ↔ ¬ (d.i3c.isSome = true ∨ v % 128 = 0 ∨ 64 < v % 128 ∨
    (d.reg (R.I3C0_CFG.at 0)).getLsbD 31 = false) := by
  simp only [I3cFits, not_or, Option.not_isSome_iff_eq_none, ne_eq, not_lt, Bool.not_eq_false]

include hm

theorem xI3c0Cmd_noGo (hg : ¬ v.testBit 31 = true) : xI3c0Cmd m v d = d.okay :=
  (if_neg (not_denied hm)).trans (if_pos (Bool.eq_false_iff.2 hg))

variable (hg : v.testBit 31 = true)
include hg

theorem xI3c0Cmd_refused (hf : ¬ I3cFits d v) : xI3c0Cmd m v d = d.refuse m (R.I3C0_CMD.at 0) :=
  (if_neg (not_denied hm)).trans ((if_neg (ne_false_of_eq_true hg)).trans (if_pos (not_not.1 (mt i3cFits_iff.2 hf))))

theorem xI3c0Cmd_starts (hf : I3cFits d v) : xI3c0Cmd m v d = (({ d with i3c := some v }.setRegN (R.I3C0_STAT.at 0) (2 ^ 31)).serSend
    (.i3c (v % 2 ^ 31) (if v.testBit 30 then [] else d.serBytes i3cData (v % 128)))).okay :=
  (if_neg (not_denied hm)).trans ((if_neg (ne_false_of_eq_true hg)).trans (if_neg (i3cFits_iff.1 hf)))

end

section
variable {res : Nat} {rx : List Byte} {d : Dev}

theorem xI3cTransferDone_still (h : d.i3c = none ∨ res = 0 ∨ 3 < res) : xI3cTransferDone res rx d = d := by
  cases hv : d.i3c with
  | none => simp only [xI3cTransferDone, hv]
  | some v =>
    simp only [xI3cTransferDone, hv]
    exact if_pos (h.resolve_left (by rw [hv]; exact Option.some_ne_none v))

variable {v : Nat} (hv : d.i3c = some v)
include hv

theorem xI3cTransferDone_reads (hr : v.testBit 30 = true) (hres : res = 1) : xI3cTransferDone res rx d =
    ({ d with i3c := none }.setRegN (R.I3C0_STAT.at 0) res).setSerBytes i3cData (rx.take (v % 128)) := by
  simp only [xI3cTransferDone, hv]
  exact (if_neg (by omega)).trans (if_pos ⟨hr, hres⟩)

theorem xI3cTransferDone_ends (h0 : 0 < res) (h3 : res ≤ 3) (hr : v.testBit 30 = false ∨ res ≠ 1) :
    xI3cTransferDone res rx d = { d with i3c := none }.setRegN (R.I3C0_STAT.at 0) res := by
  simp only [xI3cTransferDone, hv]
  exact (if_neg (by omega)).trans (if_neg (not_and_or.2 (hr.imp_left ne_true_of_eq_false)))

end

/-! ### Pads -/

section
variable {d : Dev} {p : SerPad}

theorem serPad_failed (h : d.confFailed = true) : d.serPad p = p.failed := if_pos h

theorem failed_high (h : (∃ u, p = .uartTx u) ∨ (∃ sp, p = .spiCsN sp)) : p.failed = .high := by
  rcases h with ⟨u, rfl⟩ | ⟨sp, rfl⟩ <;> rfl

theorem failed_hiZ (hu : ∀ u, p ≠ .uartTx u) (hs : ∀ sp, p ≠ .spiCsN sp) : p.failed = .hiZ .none := by
  cases p with
  | uartTx u => exact absurd rfl (hu u)
  | spiCsN sp => exact absurd rfl (hs sp)
  | spiSck _ | spiMosi _ | i3cScl | i3cSda | gpio _ => rfl

variable (h : d.confFailed = false)
include h

theorem serPad_idle (hp : d.pinHeld p.quarter = true) : d.serPad p = p.idle := (if_neg (ne_true_of_eq_false h)).trans (if_pos hp)

theorem serPad_gpio {i : Nat} (hp : d.pinHeld (i / 4) = false) : d.serPad (.gpio i) =
    if (d.reg (R.GPIO_OE.at 0)).getLsbD i then levelOf ((d.reg (R.GPIO_OUT.at 0)).getLsbD i) else .hiZ .down :=
  (if_neg (ne_true_of_eq_false h)).trans (if_neg (ne_true_of_eq_false hp))

theorem serPad_csN {sp : Nat} (hp : d.pinHeld (spiQuarter sp) = false) :
    d.serPad (.spiCsN sp) = levelOf (!((nget none d.spi sp).isSome || nget false d.spiKeep sp)) :=
  (if_neg (ne_true_of_eq_false h)).trans (if_neg (ne_true_of_eq_false hp))

end

theorem levelOf_not_low_iff (b : Bool) : levelOf (!b) = .low ↔ b = true := by
  cases b
  · exact iff_of_false (fun h => Drive.noConfusion h) Bool.false_ne_true
  · exact iff_of_true rfl rfl

/-- Settles O47: UARTs by the room in their FIFOs, SPI and I3C by GO and by whether the transfer fits, pads by CONF_ERR and by held
pins. -/
theorem serialUnits : Obligations.SerialUnits := by
  refine ⟨?_, ?_, ?_, ?_, ?_, ?_, ?_, ?_⟩
  case refine_1 =>
    refine fun m u v s hm => ⟨fun h => ?_, fun h => ?_, fun h => ?_, fun h hx => ?_, fun b r h hx => ?_⟩
    · exact next_congr (xUartTx_queues hm h)
    · exact next_congr (xUartTx_full hm h)
    · exact next_congr (xUartRx_held hm h)
    · exact next_congr (xUartRx_empty hm h hx)
    · exact next_congr (xUartRx_pops hm h hx)
  case refine_2 =>
    intro u byte par frm s x stat bad d1 d2 hbad hgood hfrm hnot
    have hd2 : d2 = uartShown u par frm s.d := uartShown_eq hbad hgood hfrm hnot
    subst hd2
    refine ⟨fun h => ⟨?_, ?_⟩, fun h hx => ?_, fun h hx => ?_, fun h hx => ?_, fun b r h hx => ?_⟩
    · exact next_congr (xUartByteReceived_off h)
    · exact next_congr (xUartByteSent_off h)
    · exact next_congr (xUartByteReceived_full h hx)
    · exact next_congr (xUartByteReceived_enters h hx)
    · exact next_congr (xUartByteSent_empty h hx)
    · exact next_congr (xUartByteSent_leaves h hx)
  case refine_3 =>
    refine fun m sp v s hm => ⟨fun hg => ?_, fun hg hf => ?_, fun hg hf hh => ?_, fun hg hf hh => ?_⟩
    · exact next_congr (xSpiCmd_noGo hm hg)
    · exact next_congr (xSpiCmd_refused hm hg hf)
    · exact next_congr (xSpiCmd_held hm hg hf hh)
    · exact next_congr (xSpiCmd_starts hm hg hf hh)
  case refine_4 =>
    exact fun sp rx s => ⟨fun t ht hl => next_congr (xSpiTransferDone_ends ht hl), fun h => next_congr (xSpiTransferDone_still h)⟩
  case refine_5 =>
    refine fun m v s hm => ⟨fun hg => ?_, fun hg hf => ?_, fun hg hf => ?_⟩
    · exact next_congr (xI3c0Cmd_noGo hm hg)
    · exact next_congr (xI3c0Cmd_refused hm hg hf)
    · exact next_congr (xI3c0Cmd_starts hm hg hf)
  case refine_6 =>
    refine fun res rx s => ⟨fun v hv h0 h3 => ⟨fun hr hres => ?_, fun hr => ?_⟩, fun h => ?_⟩
    · exact next_congr (xI3cTransferDone_reads hv hr hres)
    · exact next_congr (xI3cTransferDone_ends hv h0 h3 hr)
    · exact next_congr (xI3cTransferDone_still h)
  case refine_7 =>
    refine fun d o p => ⟨fun h => ⟨if_pos h, fun hp => ?_, fun hu hs => ?_⟩, fun h => ⟨if_neg (ne_true_of_eq_false h), serPad_idle h⟩,
      fun i h hp => ⟨fun he ho => ?_, fun he ho => ?_, fun he => ?_⟩, fun sp h hp => ?_⟩
    · exact (serPad_failed h).trans (failed_high hp)
    · exact (serPad_failed h).trans (failed_hiZ hu hs)
    · rw [serPad_gpio h hp, if_pos he, ho]
      rfl
    · rw [serPad_gpio h hp, if_pos he, ho]
      rfl
    · rw [serPad_gpio h hp, if_neg (ne_true_of_eq_false he)]
    · rw [serPad_csN h hp, levelOf_not_low_iff, Bool.or_eq_true, Option.isSome_iff_ne_none]
  case refine_8 => exact fun L s => ⟨fun h => next_congr (if_neg (not_not.2 h)), fun h => next_congr (if_pos h)⟩

end Sys2Proof.Proofs

namespace Sys2Proof.Proofs

open Sys2Proof.Machine Sys2Proof.Safety

/-! The course of a boot (18 R504–R509, 19 R518) and the device-wide outputs (01 R24). -/

/-! ### The releases of PORST_N and SYSRST_N (R506) -/

section
variable {b : BootIn} {k : Clk} {d : Dev}

theorem xPorstNRelease_still (h : d.porst = false) : xPorstNRelease b k d = d := if_pos (bnot_of_not (ne_true_of_eq_false h))

theorem xSysrstNRelease_starts (h : d.sysrst = true) (hp : d.porst = false) :
    xSysrstNRelease b k d = (d.bootStart 1).sourceCheck k.tick b :=
  if_neg (not_or.2 ⟨not_bnot_of h, ne_true_of_eq_false hp⟩)

theorem xSysrstNRelease_still (h : d.sysrst = false ∨ d.porst = true) : xSysrstNRelease b k d = d :=
  if_pos (h.imp_left fun hs => bnot_of_not (ne_true_of_eq_false hs))

variable (h : d.porst = true)
include h

theorem xPorstNRelease_selftestFails (hs : b.selftest = false) :
    xPorstNRelease b k d = ((d.bootStart 0).setFld F.AO_STATUS_LIVE 3 0).bootFail k.tick 0x01 :=
  (if_neg (not_bnot_of h)).trans (if_pos (bnot_of_not (ne_true_of_eq_false hs)))

variable (hs : b.selftest = true)
include hs

theorem xPorstNRelease_fusesFail (hf : b.fuses = false) : xPorstNRelease b k d =
    ((upTo 4).foldl (fun x q => x.setBit (R.FUSE_STAT.at q) 30 true) (d.bootStart 0)).bootFail k.tick 0x02 :=
  (if_neg (not_bnot_of h)).trans ((if_neg (not_bnot_of hs)).trans (if_pos (bnot_of_not (ne_true_of_eq_false hf))))

theorem xPorstNRelease_goesOn (hf : b.fuses = true) : xPorstNRelease b k d = (d.bootStart 0).sourceCheck k.tick b :=
  (if_neg (not_bnot_of h)).trans ((if_neg (not_bnot_of hs)).trans (if_neg (not_bnot_of hf)))

end

/-! ### The choice of a source (R504) -/

section
variable {d : Dev} {now : Nat} {b : BootIn}

theorem sourceCheck_q0 (h0 : (d.tryFlash 0 b).2 = true) : d.sourceCheck now b = (d.tryFlash 0 b).1 := by
  simp only [Dev.sourceCheck, h0, if_true]

variable (h0 : (d.tryFlash 0 b).2 = false)
include h0

theorem sourceCheck_q3 (h3 : ((d.tryFlash 0 b).1.tryFlash 3 b).2 = true) :
    d.sourceCheck now b = ((d.tryFlash 0 b).1.tryFlash 3 b).1 := by
  simp only [Dev.sourceCheck, h0, h3, if_true, Bool.false_eq_true, if_false]

/-- The chip after an attempt on SPI0 with result `res`, the two flashes without an image. -/
def spiTried (d : Dev) (b : BootIn) (res : Nat) : Dev :=
  ((d.tryFlash 0 b).1.tryFlash 3 b).1.addAtt (attWord 2 0 res (if res = 1 then 0 else spiImage b.spi 0xC 4))

variable (h3 : ((d.tryFlash 0 b).1.tryFlash 3 b).2 = false)
include h3

theorem sourceCheck_spi (hr : tryImage (spiImage b.spi) true (b.unread.getD 4 true) = 0) :
    d.sourceCheck now b = (spiTried d b 0).acceptImage 2 0 false (spiImage b.spi) := by
  simp only [Dev.sourceCheck, h0, h3, hr, if_true, Bool.false_eq_true, if_false, spiTried]

theorem sourceCheck_none (hr : tryImage (spiImage b.spi) true (b.unread.getD 4 true) ≠ 0) :
    d.sourceCheck now b = (spiTried d b (tryImage (spiImage b.spi) true (b.unread.getD 4 true))).bootFail now 0x11 := by
  simp only [Dev.sourceCheck, h0, h3, hr, Bool.false_eq_true, if_false, spiTried]

end

/-! ### The checks of an image (R504) -/

section
variable {g : ImgRead} {spi unread : Bool}

theorem tryImage_unread (h : ¬ unread = false) : tryImage g spi unread = 8 := if_pos (eq_true_of_ne_false h)

/-- Every section that this source's check covers has its DIGEST. -/
def DigestsOk (g : ImgRead) (spi : Bool) : Prop :=
  (imageSec g 0 :: (if spi then [] else imageSecs g)).all (fun x => x.digestOk (x.stored g)) = true

variable (h1 : unread = false)
include h1

theorem tryImage_empty (h2 : ¬ g 0 4 = 0x49425950) : tryImage g spi unread = 1 :=
  (if_neg (ne_true_of_eq_false h1)).trans (if_pos h2)

variable (h2 : g 0 4 = 0x49425950)
include h2

theorem tryImage_magic : tryImage g spi unread =
    if !imageFormat g then 3
    else if !imageKeyOk g then 4
    else if !imageSigOk g then 5
    else if !((imageSec g 0 :: (if spi then [] else imageSecs g)).all (fun s => s.digestOk (s.stored g))) then 6
    else match imageCfg g with
    | some c => if cfgOk c then 0 else 7
    | none => 7 :=
  (if_neg (ne_true_of_eq_false h1)).trans (if_neg (not_not.2 h2))

theorem tryImage_format (h3 : ¬ imageFormat g = true) : tryImage g spi unread = 3 :=
  (tryImage_magic h1 h2).trans (if_pos (bnot_of_not h3))

variable (h3 : imageFormat g = true)
include h3

theorem tryImage_key (h4 : ¬ imageKeyOk g = true) : tryImage g spi unread = 4 :=
  (tryImage_magic h1 h2).trans ((if_neg (not_bnot_of h3)).trans (if_pos (bnot_of_not h4)))

variable (h4 : imageKeyOk g = true)
include h4

theorem tryImage_sig (h5 : ¬ imageSigOk g = true) : tryImage g spi unread = 5 :=
  (tryImage_magic h1 h2).trans ((if_neg (not_bnot_of h3)).trans ((if_neg (not_bnot_of h4)).trans (if_pos (bnot_of_not h5))))

variable (h5 : imageSigOk g = true)
include h5

theorem tryImage_digest (h6 : ¬ DigestsOk g spi) : tryImage g spi unread = 6 :=
  (tryImage_magic h1 h2).trans ((if_neg (not_bnot_of h3)).trans ((if_neg (not_bnot_of h4)).trans
    ((if_neg (not_bnot_of h5)).trans (if_pos (bnot_of_not h6)))))

variable (h6 : DigestsOk g spi)
include h6

theorem tryImage_cfg : tryImage g spi unread = (imageCfg g).elim 7 (fun c => if cfgOk c then 0 else 7) := by
  refine (tryImage_magic h1 h2).trans ((if_neg (not_bnot_of h3)).trans ((if_neg (not_bnot_of h4)).trans
    ((if_neg (not_bnot_of h5)).trans ((if_neg (not_bnot_of h6)).trans ?_))))
  cases imageCfg g with
  | none => rfl
  | some c => rfl

theorem tryImage_ok (h7 : ∃ c, imageCfg g = some c ∧ cfgOk c = true) : tryImage g spi unread = 0 := by
  obtain ⟨c, hc, hok⟩ := h7
  rw [tryImage_cfg h1 h2 h3 h4 h5 h6, hc, Option.elim_some, if_pos hok]

theorem tryImage_badCfg (h7 : ¬ ∃ c, imageCfg g = some c ∧ cfgOk c = true) : tryImage g spi unread = 7 := by
  rw [tryImage_cfg h1 h2 h3 h4 h5 h6]
  cases hc : imageCfg g with
  | none => rfl
  | some c => rw [Option.elim_some, if_neg fun hok => h7 ⟨c, hc, hok⟩]

end

/-! ### PLLs (19 R518) -/

section
variable {q : Nat} {ok : Bool} {k : Clk} {d : Dev}

/-- The PLL of quarter `q` is one that the boot waits for. -/
def PllMay (d : Dev) (q : Nat) : Prop :=
  d.boot.on = true ∧ q < 4 ∧ d.flag F.CLK_STAT_LOCK q = false ∧ (q = 0 ∨ d.flag F.CLK_STAT_LOCK 0 = true)

theorem pllMay_iff : PllMay d q ↔ ¬ (d.boot.on = false ∨ 4 ≤ q ∨ d.flag F.CLK_STAT_LOCK q = true ∨
    (q ≠ 0 ∧ d.flag F.CLK_STAT_LOCK 0 = false)) := by
  simp only [PllMay, not_or, not_and_or, Bool.not_eq_false, Bool.not_eq_true, not_le, ne_eq, not_not]

/-- The chip with the PLL of quarter `q` locked, before CC0 is released. -/
def pllLocked (d : Dev) (q : Nat) : Dev :=
  let d1 := d.setFld F.CLK_STAT_LOCK 1 q
  let d1a := if (upTo 4).all (fun p => d1.flag F.CLK_STAT_LOCK p) then d1.bridgesStart else d1
  if d1.boot.cause = 0 then (coresOf q).foldl (fun x n => x.setBit (coreReg n .BNK_STAT) 0 true) d1a else d1a

theorem allLocked_iff : (upTo 4).all (fun p => d.flag F.CLK_STAT_LOCK p) = true ↔ ∀ p, p < 4 → d.flag F.CLK_STAT_LOCK p = true := by
  simp only [List.all_eq_true, mem_upTo_four]

theorem pllLocked_eq {d2 d3 : Dev}
    (hall : (∀ p, p < 4 → (d.setFld F.CLK_STAT_LOCK 1 q).flag F.CLK_STAT_LOCK p = true) →
      d2 = (d.setFld F.CLK_STAT_LOCK 1 q).bridgesStart)
    (hsome : (¬ ∀ p, p < 4 → (d.setFld F.CLK_STAT_LOCK 1 q).flag F.CLK_STAT_LOCK p = true) → d2 = d.setFld F.CLK_STAT_LOCK 1 q)
    (hporst : d.boot.cause = 0 → d3 = (coresOf q).foldl (fun (x : Dev) n => x.setBit (coreReg n .BNK_STAT) 0 true) d2)
    (hsysrst : d.boot.cause ≠ 0 → d3 = d2) : d3 = pllLocked d q := by
  have hd2 : d2 = if (upTo 4).all (fun p => (d.setFld F.CLK_STAT_LOCK 1 q).flag F.CLK_STAT_LOCK p) then
      (d.setFld F.CLK_STAT_LOCK 1 q).bridgesStart else d.setFld F.CLK_STAT_LOCK 1 q := by
    split
    case isTrue h => exact hall (allLocked_iff.1 h)
    case isFalse h => exact hsome (mt allLocked_iff.2 h)
  subst hd2
  rw [pllLocked, Laws.setFld_boot]
  split
  case isTrue h => exact hporst h
  case isFalse h => exact hsysrst h

theorem xPllLock_still (h : ¬ PllMay d q) : xPllLock q ok k d = d := if_pos (not_not.1 (mt pllMay_iff.2 h))

variable (h : PllMay d q)
include h

theorem xPllLock_fails : xPllLock q false k d = d.bootFail k.tick 0x03 := (if_neg (pllMay_iff.1 h)).trans (if_pos rfl)

theorem xPllLock_locks :
    xPllLock q true k d = if q = 0 then ((pllLocked d q).setRegN (coreReg 0 .CORE_CTRL) 0).coreRelease 0 else pllLocked d q :=
  (if_neg (pllMay_iff.1 h)).trans (if_neg Bool.false_ne_true)

end

/-! ### The stacks and the configuration (R503, 19 R528) -/

section
variable {fails : List Nat} {k : Clk} {d : Dev}

/-- Stage 5 is the boot's next one. -/
def HbmDue (d : Dev) (k : Clk) : Prop := d.stage4 k = true ∧ d.boot.loaded = false

/-- The chip with the training state of every stack shown. -/
def hbmTrained (d : Dev) (fails : List Nat) : Dev :=
  (upTo 8).foldl (fun (x : Dev) n => x.setFld F.HBM_STAT_TRAIN (if n ∈ fails then 3 else 2) (n / 2) (n % 2)) d

theorem xHbmTraining_still (h : ¬ HbmDue d k) : xHbmTraining fails k d = d := by
  refine if_pos ((not_and_or.1 h).imp bnot_of_not eq_true_of_ne_false)

theorem anyFails_iff : (upTo 8).any (fun n => fails.contains n) = true ↔ ∃ n, n < 8 ∧ n ∈ fails := by
  simp only [List.any_eq_true, upTo, List.mem_range, List.contains_iff_mem]

theorem xHbmTraining_due (h : HbmDue d k) : xHbmTraining fails k d =
    if (upTo 8).any (fun n => fails.contains n) then (hbmTrained d fails).bootFail k.tick 0x31
    else (hbmTrained d fails).cfgApply k := by
  obtain ⟨h4, hl⟩ := h
  refine (if_neg (not_or.2 ⟨not_bnot_of h4, ne_true_of_eq_false hl⟩)).trans ?_
  simp only [hbmTrained, List.contains_iff_mem]

end

/-! ### CONF_DONE (R506, R507, R510) -/

section
variable {secs : List SecIn} {k : Clk} {d : Dev}

/-- The chip with the windows of the HBM sections bound to OID 0, then the sections put in place as far as they can be. -/
def sectionsPlaced (d : Dev) (secs : List SecIn) : Dev × Bool :=
  let d1 := (secWindows d.boot.secs).foldl (fun (x : Dev) w => x.bootBind w) d
  d1.bootSections (d1.boot.secs.zip secs)

/-- The chip at the end of a boot: the report written, the cores named by RELEASE out of reset, CONF_DONE asserted. -/
def bootEnded (d : Dev) (mask : Nat) : Dev :=
  let d2 := d.bootReport.bootRelease mask
  let d3 := { d2 with boot := { d2.boot with on := false } }
  ((d3.setFld F.AO_STATUS_CONF 1 0).setFld F.AO_STATUS_CODE 0 0).linksReady

theorem xConfDone_still (h : ¬ d.doneReady secs = true) : xConfDone secs k d = d := if_pos (bnot_of_not h)

variable (h : d.doneReady secs = true)
include h

theorem xConfDone_fails (hr : (sectionsPlaced d secs).2 = false) :
    xConfDone secs k d = (sectionsPlaced d secs).1.bootFail k.tick 0x13 :=
  (if_neg (not_bnot_of h)).trans (if_pos hr)

theorem xConfDone_done (hr : (sectionsPlaced d secs).2 = true) :
    xConfDone secs k d = bootEnded (sectionsPlaced d secs).1 (cfgField d.boot.cfg 0x48 8) :=
  (if_neg (not_bnot_of h)).trans (if_neg (ne_false_of_eq_true hr))

end

/-! ### The device-wide outputs (01 R24, 18 R513) -/

theorem testBit_threeBits (a b c : Bool) : (b2n a + 2 * b2n b + 4 * b2n c).testBit 0 = a ∧
    (b2n a + 2 * b2n b + 4 * b2n c).testBit 1 = b ∧ (b2n a + 2 * b2n b + 4 * b2n c).testBit 2 = c := by
  revert a b c
  decide

section
variable {d : Dev}

theorem wideDriver_three_iff : d.wideDriver 3 = true ↔ d.liveQ = 3 := by simp [Dev.wideDriver]

theorem wideDriver_zero_iff : d.wideDriver 0 = true ↔ d.liveQ = 0 ∧ d.aoFree = false := by simp [Dev.wideDriver]

theorem widePad_of_driver {q : Nat} (o : WideOut) (h : d.wideDriver q = true) :
    d.widePad q o = levelOf (d.ballLevels.testBit o.bit) := if_pos h

theorem widePad_of_other {q : Nat} (o : WideOut) (h : ¬ d.wideDriver q = true) : d.widePad q o = .hiZ .busHold := if_neg h

theorem wideBall_driven (o : WideOut) (h : d.wideDriver 0 = true ∨ d.wideDriver 3 = true) :
    d.wideBall o = d.ballLevels.testBit o.bit := congrArg (Nat.testBit · o.bit) (if_pos (Bool.or_eq_true_iff.2 h))

theorem wideBall_held (o : WideOut) (h0 : ¬ d.wideDriver 0 = true) (h3 : ¬ d.wideDriver 3 = true) :
    d.wideBall o = d.ballHold.testBit o.bit :=
  congrArg (Nat.testBit · o.bit) (if_neg fun h => (Bool.or_eq_true_iff.1 h).elim h0 h3)

end

/-- Settles O51: the releases by the self-check and the fuses, the sources in their order, an image by its first failing check, then
the stages of the boot, each by whether it is due and whether it succeeds, and the outputs by who drives them. -/
theorem bootCourse : Obligations.BootCourse := by
  refine ⟨?_, ?_, ?_, ?_, ?_, ?_, ?_⟩
  case refine_1 =>
    refine fun b s => ⟨fun h => ?_, fun h hs => ?_, fun h hs hf => ?_, fun h hs hf => ?_, fun h hp => ?_, fun h => ?_⟩
    · exact next_congr (xPorstNRelease_still h)
    · exact next_congr (xPorstNRelease_selftestFails h hs)
    · exact next_congr (xPorstNRelease_fusesFail h hs hf)
    · exact next_congr (xPorstNRelease_goesOn h hs hf)
    · exact next_congr (xSysrstNRelease_starts h hp)
    · exact next_congr (xSysrstNRelease_still h)
  case refine_2 =>
    refine fun d now b => ⟨fun h0 => sourceCheck_q0 h0, fun h0 h3 => sourceCheck_q3 h0 h3, fun h0 h3 hr => ?_, fun h0 h3 hr => ?_⟩
    · simp only [sourceCheck_spi h0 h3 hr, spiTried, if_neg Nat.zero_ne_one]
    · simp only [sourceCheck_none h0 h3 hr, spiTried]
  case refine_3 =>
    refine fun g spi unread => ⟨fun h1 => ?_, fun h1 hn => ?_, fun h2 hn => ?_, fun h3 hn => ?_, fun h4 hn => ?_, fun h5 hn => ?_,
      fun h6 hn => ?_, fun h7 => ?_⟩
    · exact tryImage_unread h1
    · exact tryImage_empty h1 fun hm => hn ⟨h1, hm⟩
    · obtain ⟨h1, hm⟩ := h2
      exact tryImage_format h1 hm fun hf => hn ⟨⟨h1, hm⟩, hf⟩
    · obtain ⟨⟨h1, hm⟩, hf⟩ := h3
      exact tryImage_key h1 hm hf fun hk => hn ⟨⟨⟨h1, hm⟩, hf⟩, hk⟩
    · obtain ⟨⟨⟨h1, hm⟩, hf⟩, hk⟩ := h4
      exact tryImage_sig h1 hm hf hk fun hs => hn ⟨⟨⟨⟨h1, hm⟩, hf⟩, hk⟩, hs⟩
    · obtain ⟨⟨⟨⟨h1, hm⟩, hf⟩, hk⟩, hs⟩ := h5
      exact tryImage_digest h1 hm hf hk hs fun hd => hn ⟨⟨⟨⟨⟨h1, hm⟩, hf⟩, hk⟩, hs⟩, hd⟩
    · obtain ⟨⟨⟨⟨⟨h1, hm⟩, hf⟩, hk⟩, hs⟩, hd⟩ := h6
      exact tryImage_badCfg h1 hm hf hk hs hd fun hc => hn ⟨⟨⟨⟨⟨⟨h1, hm⟩, hf⟩, hk⟩, hs⟩, hd⟩, hc⟩
    · obtain ⟨⟨⟨⟨⟨⟨h1, hm⟩, hf⟩, hk⟩, hs⟩, hd⟩, hc⟩ := h7
      exact tryImage_ok h1 hm hf hk hs hd hc
  case refine_4 =>
    intro q s may d1 all d2 d3 hall hsome hporst hsysrst
    have hd3 : d3 = pllLocked s.d q := pllLocked_eq hall hsome hporst hsysrst
    subst hd3
    refine ⟨fun h h0 => ?_, fun h h0 => ?_, fun h => next_congr (xPllLock_fails h), fun h => ⟨?_, ?_⟩⟩
    · exact next_congr ((xPllLock_locks h).trans (if_pos h0))
    · exact next_congr ((xPllLock_locks h).trans (if_neg h0))
    · exact next_congr (xPllLock_still h)
    · exact next_congr (xPllLock_still h)
  case refine_5 =>
    refine fun fails s => ⟨fun h hb => ?_, fun h hb => ?_, fun h => next_congr (xHbmTraining_still h)⟩
    · exact next_congr ((xHbmTraining_due h).trans (if_neg (mt anyFails_iff.1 hb)))
    · exact next_congr ((xHbmTraining_due h).trans (if_pos (anyFails_iff.2 hb)))
  case refine_6 =>
    refine fun secs s => ⟨fun h hr => ?_, fun h hr => next_congr (xConfDone_fails h hr), fun h => next_congr (xConfDone_still h)⟩
    exact next_congr (xConfDone_done h hr)
  case refine_7 =>
    intro d o
    obtain ⟨h0, h1, h2⟩ := testBit_threeBits (d.fld F.AO_STATUS_CONF 0 == 1) d.confFailed (!d.therm)
    refine ⟨fun hq hf => ?_, fun hq => ?_, fun hq hf => ?_, h0, h1, h2⟩
    · have hz : d.wideDriver 0 = true := wideDriver_zero_iff.2 ⟨hq, hf⟩
      have ht : ¬ d.wideDriver 3 = true := fun h => by simp [wideDriver_three_iff.1 h] at hq
      exact ⟨widePad_of_driver o hz, widePad_of_other o ht, wideBall_driven o (Or.inl hz)⟩
    · have ht : d.wideDriver 3 = true := wideDriver_three_iff.2 hq
      have hz : ¬ d.wideDriver 0 = true := fun h => by simp [(wideDriver_zero_iff.1 h).1] at hq
      exact ⟨widePad_of_driver o ht, widePad_of_other o hz, wideBall_driven o (Or.inr ht)⟩
    · have hz : ¬ d.wideDriver 0 = true := fun h => ne_true_of_eq_false (wideDriver_zero_iff.1 h).2 hf
      have ht : ¬ d.wideDriver 3 = true := fun h => by simp [wideDriver_three_iff.1 h] at hq
      exact ⟨widePad_of_other o hz, widePad_of_other o ht, wideBall_held o hz ht⟩

end Sys2Proof.Proofs
